-- ==== Sys2Proof/Word.lean ====
section
/-!
DEFINITION. The word types of the part and their plainest arithmetic (00_scope R21, R22).
-/

namespace Sys2Proof

/-- One byte of a memory, a container or a message. -/
abbrev Byte := BitVec 8

/-- A 32-bit register, INT32 or FP32 word (16_register_map R500, 02_number_formats). -/
abbrev Word := BitVec 32

/-- A string of bytes, lowest address first. -/
abbrev Bytes := List Byte

/-- The number that little-endian bytes spell (R21: every multi-byte value is little-endian). -/
def leNat : Bytes → Nat
  | [] => 0
  | b :: bs => b.toNat + 256 * leNat bs

/-- The number that big-endian bytes spell, for the standards that fix that order (SHA-384, ECDSA). -/
def beNat (bs : Bytes) : Nat := bs.foldl (fun n b => 256 * n + b.toNat) 0

/-- `n` little-endian bytes of a number. -/
def toLe : Nat → Nat → Bytes
  | 0, _ => []
  | n + 1, v => BitVec.ofNat 8 v :: toLe n (v / 256)

/-- `n` big-endian bytes of a number. -/
def toBe (n v : Nat) : Bytes := (toLe n v).reverse

/-- `len` bits of a number from bit `lo` up. -/
def bitsAt (v lo len : Nat) : Nat := v / 2 ^ lo % 2 ^ len

/-- A number of `w` bits read as two's complement. -/
def toSigned (w v : Nat) : Int := if v % 2 ^ w < 2 ^ (w - 1) then (v % 2 ^ w : Nat) else (v % 2 ^ w : Nat) - (2 ^ w : Nat)

/-- The `w`-bit two's complement image of an integer. -/
def ofSigned (w : Nat) (x : Int) : Nat := (x % (2 ^ w : Nat)).toNat

/-- The nearer limit of a range, for a value outside it. -/
def clampNat (lo hi v : Nat) : Nat := if v < lo then lo else if hi < v then hi else v

/-- The same for integers. -/
def clampInt (lo hi v : Int) : Int := if v < lo then lo else if hi < v then hi else v

/-- `n` bytes of a byte string from offset `o`. -/
def slice (bs : Bytes) (o n : Nat) : Bytes := (bs.drop o).take n

/-- The little-endian number of `n` bytes at offset `o`. -/
def fieldAt (bs : Bytes) (o n : Nat) : Nat := leNat (slice bs o n)

/-- The quotient rounded up. -/
def ceilDiv (a b : Nat) : Nat := (a + b - 1) / b

end Sys2Proof
end

