-- ==== Sys2Proof/Machine/Fp.lean ====
section
/-!
DEFINITION. FP32 and BF16 arithmetic of the part (02_number_formats R74): round to nearest even, subnormal inputs
read as zero, results below 2^-126 after rounding written as zero, one canonical NaN.
-/

namespace Sys2Proof.Machine

/-- The value an FP32 or BF16 word stands for: `fin neg m e` is ±m·2^e with `m` not 0. -/
inductive FpVal where
  | nan
  | inf (neg : Bool)
  | zero (neg : Bool)
  | fin (neg : Bool) (m : Nat) (e : Int)
  deriving DecidableEq, Repr

/-- The canonical FP32 NaN (R74). -/
def fpNaN : Nat := 0x7FC00000

/-- The value of an FP32 word; a subnormal is a zero of its sign (R74). -/
def fpVal (w : Nat) : FpVal :=
  let neg : Bool := decide (w / 2 ^ 31 % 2 = 1)
  let ex : Nat := w / 2 ^ 23 % 256
  let fr : Nat := w % 2 ^ 23
  if ex = 255 then (if fr = 0 then .inf neg else .nan)
  else if ex = 0 then .zero neg
  else .fin neg (2 ^ 23 + fr) ((ex : Int) - 150)

/-- A significand of `w` bits, nearest even, from an exact magnitude m·2^e: the rounded integer and its exponent. -/
def roundSig (w m : Nat) (e : Int) : Nat × Int :=
  let n := Nat.log2 m + 1
  if n ≤ w then (m, e)
  else
    let k := n - w
    let q := m / 2 ^ k
    let r := m % 2 ^ k
    let half := 2 ^ (k - 1)
    let q' := if r > half || (r = half && q % 2 = 1) then q + 1 else q
    (q', e + k)

/-- The word of a format with a `w`-bit significand (24 for FP32, 8 for BF16) for an exact magnitude m·2^e: rounded
as if the exponent had no lower limit, then written as zero below 2^-126 or as an infinity above the range (R74). -/
def fpPack (w : Nat) (neg : Bool) (m : Nat) (e : Int) : Nat :=
  let fb := w - 1
  let sign := if neg then 2 ^ (fb + 8) else 0
  if m = 0 then sign
  else
    let (q, e1) := roundSig w m e
    let lg := Nat.log2 q
    let ex : Int := e1 + lg
    if ex < -126 then sign
    else if ex > 127 then sign + 255 * 2 ^ fb
    else
      let sig := if lg ≤ fb then q * 2 ^ (fb - lg) else q / 2 ^ (lg - fb)
      sign + (ex + 127).toNat * 2 ^ fb + (sig - 2 ^ fb)

/-- FP32 of an exact value. -/
def fpRound (neg : Bool) (m : Nat) (e : Int) : Nat := fpPack 24 neg m e

/-- The signed zero. -/
def fpZero (neg : Bool) : Nat := if neg then 2 ^ 31 else 0

/-- The signed infinity. -/
def fpInf (neg : Bool) : Nat := (if neg then 2 ^ 31 else 0) + 0x7F800000

/-- An FP32 word from a value, exact values rounded by R74. -/
def fpOf : FpVal → Nat
  | .nan => fpNaN
  | .inf n => fpInf n
  | .zero n => fpZero n
  | .fin n m e => fpRound n m e

/-- FP32 of an integer times 2^e, nearest even; an exact zero is +0. -/
def fpOfInt (x : Int) (e : Int := 0) : Nat := if x = 0 then 0 else fpRound (decide (x < 0)) x.natAbs e

/-- The integer ±m of a finite value aligned to the exponent `e0 ≤ e`. -/
def alignTo (neg : Bool) (m : Nat) (e e0 : Int) : Int :=
  let v : Int := (m * 2 ^ (e - e0).toNat : Nat)
  if neg then -v else v

/-- The exact sum of two values; the sum of opposite infinities is NaN, an exact zero sum of nonzero values is +0. -/
def addVal : FpVal → FpVal → FpVal
  | .nan, _ => .nan
  | _, .nan => .nan
  | .inf a, .inf b => if a = b then .inf a else .nan
  | .inf a, _ => .inf a
  | _, .inf b => .inf b
  | .zero a, .zero b => .zero (a && b)
  | .zero _, x => x
  | x, .zero _ => x
  | .fin a m e, .fin b n f =>
    let g := min e f
    let t := alignTo a m e g + alignTo b n f g
    if t = 0 then .zero false else .fin (decide (t < 0)) t.natAbs g

/-- The exact product of two values. -/
def mulVal : FpVal → FpVal → FpVal
  | .nan, _ => .nan
  | _, .nan => .nan
  | .inf a, .inf b => .inf (a != b)
  | .inf _, .zero _ => .nan
  | .zero _, .inf _ => .nan
  | .inf a, .fin b _ _ => .inf (a != b)
  | .fin a _ _, .inf b => .inf (a != b)
  | .zero a, .zero b => .zero (a != b)
  | .zero a, .fin b _ _ => .zero (a != b)
  | .fin a _ _, .zero b => .zero (a != b)
  | .fin a m e, .fin b n f => .fin (a != b) (m * n) (e + f)

/-- The value with its sign turned over. -/
def negVal : FpVal → FpVal
  | .nan => .nan
  | .inf n => .inf !n
  | .zero n => .zero !n
  | .fin n m e => .fin (!n) m e

/-- FP32 addition. -/
def fpAdd (a b : Nat) : Nat := fpOf (addVal (fpVal a) (fpVal b))

/-- FP32 subtraction. -/
def fpSub (a b : Nat) : Nat := fpOf (addVal (fpVal a) (negVal (fpVal b)))

/-- FP32 multiplication. -/
def fpMul (a b : Nat) : Nat := fpOf (mulVal (fpVal a) (fpVal b))

/-- FP32 fused multiply-add: a·b + c rounded once. -/
def fpFma (a b c : Nat) : Nat := fpOf (addVal (mulVal (fpVal a) (fpVal b)) (fpVal c))

/-- Negation; a NaN stays the canonical NaN, a subnormal is a zero. -/
def fpNeg (a : Nat) : Nat := fpOf (negVal (fpVal a))

/-- A number with the order of values, infinities at the ends; none for NaN.  Both zeros are equal. -/
def fpKey (w : Nat) : Option Int :=
  match fpVal w with
  | .nan => none
  | .zero _ => some 0
  | _ => if w < 2 ^ 31 then some (w : Int) else some (-((w - 2 ^ 31 : Nat) : Int))

/-- `a < b` of two FP32 words; false where either is NaN. -/
def fpLt (a b : Nat) : Bool :=
  match fpKey a, fpKey b with
  | some x, some y => decide (x < y)
  | _, _ => false

/-- Whether a word is NaN or an infinity. -/
def fpNotFinite (w : Nat) : Bool := decide (w / 2 ^ 23 % 256 = 255)

/-- Whether a word is a NaN. -/
def fpIsNaN (w : Nat) : Bool := fpVal w == .nan

/-- BF16 from FP32 (R74). -/
def bf16Of (w : Nat) : Nat :=
  match fpVal w with
  | .nan => 0x7FC0
  | .inf n => (if n then 0x8000 else 0) + 0x7F80
  | .zero n => if n then 0x8000 else 0
  | .fin n m e => fpPack 8 n m e

/-- FP32 from BF16: exact widening. -/
def fpOfBf16 (h : Nat) : Nat := h % 65536 * 65536

/-- The integer square root, `k` binary digits from the top. -/
def isqrtAux (v : Nat) : Nat → Nat → Nat
  | 0, r => r
  | k + 1, r => let t := r + 2 ^ k; if t * t ≤ v then isqrtAux v k t else isqrtAux v k r

/-- The integer square root of a number. -/
def isqrt (v : Nat) : Nat := isqrtAux v (Nat.log2 v / 2 + 1) 0

/-- The correctly rounded FP32 square root of a value that is not negative. -/
def fpSqrt (w : Nat) : Nat :=
  match fpVal w with
  | .nan => fpNaN
  | .inf n => if n then fpNaN else fpInf false
  | .zero n => fpZero n
  | .fin n m e =>
    if n then fpNaN
    else
      let (m, e) := if e % 2 = 0 then (m, e) else (m * 2, e - 1)
      let v := m * 2 ^ 60
      let r := isqrt v
      let s := 2 * r + (if r * r = v then 0 else 1)
      fpRound false s ((e - 60) / 2 - 1)

/-- The correctly rounded FP32 quotient of two magnitudes m·2^e over n·2^f, `n` not 0. -/
def fpQuot (m : Nat) (e : Int) (n : Nat) (f : Int) : Nat :=
  let v := m * 2 ^ (64 + Nat.log2 n)
  let q := v / n
  let s := 2 * q + (if v % n = 0 then 0 else 1)
  fpRound false s (e - f - 64 - Nat.log2 n - 1)

/-- Fixed-point base-2 logarithm by repeated squaring: `x` is in [2^60, 2^61) for a mantissa in [1, 2), and each
round gives one fraction bit. -/
def log2Frac : Nat → Nat → Nat → Nat
  | 0, _, acc => acc
  | k + 1, x, acc =>
    let y := x * x / 2 ^ 60
    if y < 2 ^ 61 then log2Frac k y (2 * acc) else log2Frac k (y / 2) (2 * acc + 1)

/-- log2 of a positive integer as a fixed-point number of 48 fraction bits. -/
def log2Fix (v : Nat) : Nat :=
  let n := Nat.log2 v
  let x := if n ≤ 60 then v * 2 ^ (60 - n) else v / 2 ^ (n - 60)
  n * 2 ^ 48 + log2Frac 48 x 0

end Sys2Proof.Machine
end

