-- ==== Sys2Proof/Machine/Formats.lean ====
section
/-!
DEFINITION. The number formats, the rotation, the quantiser, the array product's arithmetic and the error figures of
02_number_formats (R47 to R83), as functions on plain numbers.  FP32 words are numbers below 2^32.
-/

namespace Sys2Proof.Machine

/-! Stored weights (R47 to R49). -/

/-- The stored offset code `u = w + 8` of a weight. -/
def weightCode (w : Int) : Nat := (w + 8).toNat % 16

/-- The weight of a pair of cell levels (R47). -/
def weightOf (h l : Nat) : Int := (4 * h + l : Nat) - (8 : Int)

/-- The E8M0 byte that stands for NaN (R50). -/
def e8m0NaN : Nat := 0xFF

/-! Activations (R51 to R55). -/

/-- The two four-bit activation formats. -/
inductive Fmt where
  | int4 | fp4
  deriving DecidableEq, Repr

/-- The doubled magnitudes of FP4 E2M1 (Table 2-4). -/
def fp4Mag : Nat → Nat
  | 0 => 0 | 1 => 1 | 2 => 2 | 3 => 3 | 4 => 4 | 5 => 6 | 6 => 8 | _ => 12

/-- The integer an element stands for in a product: the INT4 integer, or the doubled integer of an FP4 code. -/
def elemInt (f : Fmt) (c : Nat) : Int :=
  match f with
  | .int4 => toSigned 4 c
  | .fp4 => if c % 16 < 8 then (fp4Mag (c % 8) : Int) else -(fp4Mag (c % 8) : Int)

/-- The planes of a format with their weights (R55). -/
def planeWeights : Fmt → List Int
  | .int4 => [1, 2, 4, -8]
  | .fp4 => [1, 2, 4, 8, -16]

/-- Bit `p` of the two's complement image that an element is driven with. -/
def planeBit (f : Fmt) (x : Int) (p : Nat) : Nat :=
  bitsAt (ofSigned (match f with | .int4 => 4 | .fp4 => 5) x) p 1

/-- The elements of packed bytes, low nibble first (R54). -/
def nibbles (bs : Bytes) : List Nat := bs.flatMap fun b => [b.toNat % 16, b.toNat / 16]

/-- Packs element codes into bytes (R54). -/
def packNibbles : List Nat → Bytes
  | a :: b :: r => BitVec.ofNat 8 (a % 16 + 16 * (b % 16)) :: packNibbles r
  | [a] => [BitVec.ofNat 8 (a % 16)]
  | [] => []

/-- A list cut into runs of `n`, in order, with `fuel` runs at most. -/
def chunks {α : Type} (n : Nat) : Nat → List α → List (List α)
  | 0, _ => []
  | fuel + 1, l => if l.isEmpty then [] else l.take n :: chunks n fuel (l.drop n)

/-! The rotation (R56 to R59). -/

/-- One step of the sign register (R57). -/
def signStep (s : Nat) : Nat := if s % 2 = 1 then (s / 2) ^^^ 0x80200003 else s / 2

/-- The signs of `n` elements from a register value: true stands for -1. -/
def rotationSigns : Nat → Nat → List Bool
  | 0, _ => []
  | n + 1, s => decide (s % 2 = 1) :: rotationSigns n (signStep s)

/-- c_n for n = 2^m (Table 2-5), FP32 bits. -/
def rotationConst (m : Nat) : Nat :=
  match m with
  | 6 => 0x3E000000 | 7 => 0x3DB504F3 | 8 => 0x3D800000 | 9 => 0x3D3504F3
  | 10 => 0x3D000000 | 11 => 0x3CB504F3 | _ => 0x3C800000

/-- One butterfly stage of span `h`: in each run of 2h points, sums first and differences after (R58). -/
def butterflyStage (h : Nat) (x : List Nat) : List Nat :=
  (chunks (2 * h) x.length x).flatMap fun r =>
    let a := r.take h
    let b := r.drop h
    List.zipWith fpAdd a b ++ List.zipWith fpSub a b

/-- The stages of spans 2^k, 2^(k+1) … over `n` stages. -/
def butterflies : Nat → Nat → List Nat → List Nat
  | 0, _, x => x
  | n + 1, k, x => butterflies n (k + 1) (butterflyStage (2 ^ k) x)

/-- One segment of n = 2^m points, its signs applied before (R58). -/
def rotateSegment (m : Nat) (x : List Nat) : List Nat :=
  (butterflies m 0 x).map fun v => fpMul v (rotationConst m)

/-- The rotation of a vector of FP32 words in segments of 2^m points, one sign sequence through the whole (R56-R58). -/
def rotateVec (m seed : Nat) (x : List Nat) : List Nat :=
  let sg := rotationSigns x.length seed
  let y := List.zipWith (fun s v => if s then fpNeg v else fpOf (fpVal v)) sg x
  (chunks (2 ^ m) y.length y).flatMap (rotateSegment m)

/-! The quantiser (R60 to R64). -/

/-- The quantisation of one block: its scale byte, its element codes and what the quantiser counts of it. -/
structure QBlock where
  byte : Nat
  codes : List Nat
  nan : Bool
  raised : Bool
  peaked : Bool
  low : Bool
  sat : Nat
  deriving DecidableEq, Repr

/-- The largest magnitude of a block, as an FP32 word without sign; subnormals are zero. -/
def blockMax (x : List Nat) : Nat :=
  x.foldl (fun a v => let m := v % 2 ^ 31; let m := if m / 2 ^ 23 = 0 then 0 else m; max a m) 0

/-- Whether a block holds a NaN or an infinity. -/
def blockNaN (x : List Nat) : Bool := x.any fpNotFinite

/-- The scale byte of R61 before the span limit: none for a block that is all zero. -/
def ownByte (x : List Nat) : Option Nat :=
  let a := blockMax x
  if a = 0 then none else some (clampNat 0 254 (a / 2 ^ 23 - 2))

/-- Whether a block was clamped at byte 0: its largest exponent is too small for its own byte (R61 step 3). -/
def blockLow (x : List Nat) : Bool := let a := blockMax x; decide (a ≠ 0) && decide (a / 2 ^ 23 < 2)

/-- An exact magnitude m·2^k to the nearest integer, ties to even. -/
def roundInt (m : Nat) (k : Int) : Nat :=
  if 0 ≤ k then m * 2 ^ k.toNat
  else
    let s := (-k).toNat
    let q := m / 2 ^ s
    let r := m % 2 ^ s
    let half := 2 ^ (s - 1)
    if r > half || (r = half && q % 2 = 1) then q + 1 else q

/-- Whether the magnitude m·2^k lies above (or, with `eq`, at or above) the quarter count `t`/4. -/
def aboveQuarter (m : Nat) (k : Int) (t : Nat) (eq : Bool) : Bool :=
  let e := k + 2
  let (a, b) := if 0 ≤ e then (m * 2 ^ e.toNat, t) else (m, t * 2 ^ (-e).toNat)
  decide (b < a) || (eq && decide (a = b))

/-- The FP4 magnitude code nearest to m·2^k, ties to the code with mantissa bit 0, above 6 the code of 6 (R63). -/
def fp4Code (m : Nat) (k : Int) : Nat :=
  ([(1, false), (3, true), (5, false), (7, true), (10, false), (14, true), (20, false)].filter
    fun p => aboveQuarter m k p.1 p.2).length

/-- One element at scale byte `b`: its code, and whether it saturated (R63). -/
def quantElem (f : Fmt) (b : Nat) (x : Nat) : Nat × Bool :=
  match fpVal x with
  | .fin neg m e =>
    let k := e - ((b : Int) - 127)
    match f with
    | .int4 =>
      let r := roundInt m k
      let v : Int := if neg then -(r : Int) else r
      (ofSigned 4 (clampInt (-8) 7 v), decide (v < -8) || decide (7 < v))
    | .fp4 =>
      let c := fp4Code m k
      (if c = 0 then 0 else if neg then 8 + c else c, aboveQuarter m k 24 false)
  | _ => (0, false)

/-- The peak test of R64 on the 32 values of a block. -/
def blockPeaked (x : List Nat) : Bool :=
  let y := x.map fun v => fpOf (fpVal v)
  let sum := y.foldl (fun t v => fpAdd t (fpMul v v)) 0
  let mu := fpMul sum 0x3D000000
  let a := blockMax x
  !blockNaN x && fpLt (fpMul 0x413504F3 mu) (fpMul a a)

/-- A block quantised at a given byte. -/
def quantAt (f : Fmt) (b : Nat) (x : List Nat) (raised : Bool) : QBlock :=
  if blockNaN x then ⟨e8m0NaN, x.map fun _ => 0, true, false, false, false, 0⟩
  else
    let q := x.map (quantElem f b)
    ⟨b, q.map (·.1), false, raised, blockPeaked x, blockLow x, (q.filter (·.2)).length⟩

/-- A free quantisation of one block (R60, R61): an all-zero block takes byte 0. -/
def quantFree (f : Fmt) (x : List Nat) : QBlock := quantAt f ((ownByte x).getD 0) x false

/-- The reference byte of an array-bound segment (R62). -/
def segmentRef (blocks : List (List Nat)) : Nat :=
  let bytes := blocks.filterMap fun x => if blockNaN x then none else ownByte x
  (bytes.foldl max 0) - 7

/-- An array-bound segment (R60 to R62): the reference byte and its blocks. -/
def quantSegment (f : Fmt) (x : List Nat) : Nat × List QBlock :=
  let bl := chunks 32 x.length x
  let r := segmentRef bl
  (r, bl.map fun b =>
    match ownByte b with
    | none => quantAt f r b false
    | some o => if o < r then quantAt f r b true else quantAt f o b false)

/-- The exponent offset of a block (R62). -/
def blockOffset (ref byte : Nat) : Nat := if byte = e8m0NaN then 0 else byte - ref

/-! The array product (R65 to R70). -/

/-- The sum of π_p·(4·S^H + S^L) over the planes of one group and column (R66), given the two converter codes of
each plane in plane order. -/
def planeSum (f : Fmt) (codes : List (Nat × Nat)) : Int :=
  ((planeWeights f).zip codes).foldl (fun t p => t + p.1 * ((4 * p.2.1 + p.2.2 : Nat) : Int)) 0

/-- The group product z = P - 8·X (R66). -/
def groupProduct (p x : Int) : Int := p - 8 * x

/-- φ as a power of two: 0 for INT4, -1 for FP4 (R69). -/
def phiExp : Fmt → Int
  | .int4 => 0
  | .fp4 => -1

/-- An FP32 word times a power of two by R69: exact, an infinity above the range, zero below it. -/
def fpScale (w : Nat) (e : Int) : Nat :=
  match fpVal w with
  | .fin n m x => fpRound n m (x + e)
  | v => fpOf v

/-- The FP32 value of an array accumulator (R69): `nan` says that an input block had byte 0xFF. -/
def columnValue (f : Fmt) (nan : Bool) (bref kc : Nat) (a : Int) : Nat :=
  if nan then fpNaN
  else fpScale (fpOfInt a) ((bref : Int) - 127 + ((kc : Int) - 127) + phiExp f)

/-- The core accumulator's sum of array values in ascending order, from +0.0 (R70). -/
def accumulateVals (v : List Nat) : Nat := v.foldl fpAdd 0

/-! The digital product engine (R71 to R73). -/

/-- The block dot of two blocks of element codes (R71). -/
def blockDot (fx fy : Fmt) (x y : List Nat) : Int :=
  (List.zipWith (fun a b => elemInt fx a * elemInt fy b) x y).foldl (· + ·) 0

/-- The term of one block in FP32 accumulation (R72). -/
def engineTerm (fx fy : Fmt) (d : Int) (ex ey : Nat) : Nat :=
  if ex = e8m0NaN || ey = e8m0NaN then fpNaN
  else fpOfInt d (((ex : Int) - 127) + ((ey : Int) - 127) + phiExp fx + phiExp fy)

/-- FP32 accumulation of block dots with their scales from an addend (R72). -/
def engineFp (fx fy : Fmt) (start : Nat) (blocks : List (Int × Nat × Nat)) : Nat :=
  blocks.foldl (fun t b => fpAdd t (engineTerm fx fy b.1 b.2.1 b.2.2)) start

/-- INT32 accumulation: saturated sum of the block dots, scales ignored (R73). -/
def engineInt (dots : List Int) : Nat :=
  ofSigned 32 (clampInt (-(2 ^ 31)) (2 ^ 31 - 1) (dots.foldl (· + ·) 0))

/-! Error figures (R80 to R83). -/

/-- Π of R80. -/
def planeFactor : Fmt → Nat
  | .int4 => 85
  | .fp4 => 341

/-- Q_c = Σ 4^(s + d) over the groups sensed (R80). -/
def qFactor (sd : List (Nat × Nat)) : Nat := sd.foldl (fun t p => t + 4 ^ (p.1 + p.2)) 0

/-- σ_A,c in FP32 by the steps of R83. -/
def sigmaFp (f : Fmt) (q eps : Nat) : Nat :=
  fpMul (fpSqrt (fpOfInt ((17 * planeFactor f * q : Nat) : Int))) eps

/-- The threshold N·σ in FP32, `thresh` being 4·N (R83, TST.CTRL.THRESH). -/
def tastThreshold (sigma thresh : Nat) : Nat :=
  match fpVal sigma with
  | .fin n m e => fpRound n (m * thresh) (e - 2)
  | v => fpOf v

/-- Whether the integer |analogue - exact| strictly exceeds an FP32 threshold, compared exactly (R83). -/
def exceedsFp (diff thr : Nat) : Bool :=
  match fpVal thr with
  | .fin _ m e => if 0 ≤ e then decide (m * 2 ^ e.toNat < diff) else decide (m < diff * 2 ^ (-e).toNat)
  | .zero _ => decide (0 < diff)
  | _ => false

/-- ε of R81 as an exact fraction (numerator over 10^8·2^48 units), temperature in 1/64 °C clamped to 25-95 °C, age in
hours; f(a) is read from a logarithm of 48 fraction bits. -/
def epsilonFp (t64 : Int) (hours : Nat) : Nat :=
  let t := clampInt (25 * 64) (95 * 64) t64
  let dt : Nat := (t - 25 * 64).toNat                      -- 0 … 4,480 = 70·64
  -- all of ε·10^4·4480·L, L = log2(8760) in fixed point
  let ef : Nat := 4000 * 4480 + 557 * dt
  let ea : Nat := 4836 * 4480 + 651 * dt
  let l := log2Fix 8760
  let la := if hours = 0 then 0 else log2Fix hours
  fpQuot (ef * l + (ea - ef) * la) 0 (10000 * 4480 * l) 0

/-- The temperature at which ε is evaluated: the last reading plus 5 °C, at most 95 °C (R83). -/
def epsilonTemp (t64 : Int) : Int := min (t64 + 5 * 64) (95 * 64)

end Sys2Proof.Machine
end

