-- ==== Sys2Proof/Machine/Map.lean ====
section
/-!
DEFINITION. Sparse tables of plain data: a list of keys and values, keys strictly rising, no entry equal to what an
unlisted key reads as.  Every indexed piece of state (registers, cells, queues, memories) is such a table.
-/

namespace Sys2Proof.Machine

/-- A sparse table: keys strictly rising. -/
abbrev SMap (α : Type) := List (Nat × α)

/-- The entry of a key, if it is listed. -/
def SMap.find? {α : Type} : SMap α → Nat → Option α
  | [], _ => none
  | (j, v) :: m, k => if j = k then some v else SMap.find? m k

/-- What a key reads as: its entry, or the default of an unlisted key. -/
def SMap.get {α : Type} (d : α) (m : SMap α) (k : Nat) : α := (SMap.find? m k).getD d

/-- Lists a value at a key, in its place. -/
def SMap.put {α : Type} : SMap α → Nat → α → SMap α
  | [], k, v => [(k, v)]
  | (j, w) :: m, k, v =>
    if k < j then (k, v) :: (j, w) :: m
    else if j = k then (k, v) :: m
    else (j, w) :: SMap.put m k v

/-- Unlists a key. -/
def SMap.drop {α : Type} (m : SMap α) (k : Nat) : SMap α := m.filter fun e => e.1 ≠ k

/-- Writes a value at a key, keeping the canonical form. -/
def SMap.set {α : Type} [DecidableEq α] (d : α) (m : SMap α) (k : Nat) (v : α) : SMap α :=
  if v = d then SMap.drop m k else SMap.put m k v

/-- Keys strictly rising from a bound. -/
def SMap.rising {α : Type} : Nat → SMap α → Bool
  | _, [] => true
  | b, (j, _) :: m => decide (b ≤ j) && SMap.rising (j + 1) m

/-- The canonical form: keys strictly rising and no entry equal to the default. -/
def SMap.wf {α : Type} [DecidableEq α] (d : α) (m : SMap α) : Bool :=
  SMap.rising 0 m && m.all fun e => decide (e.2 ≠ d)

/-- Unlists every key of a range: `n` keys from `b`. -/
def SMap.dropRange {α : Type} (m : SMap α) (b n : Nat) : SMap α := m.filter fun e => !(decide (b ≤ e.1) && decide (e.1 < b + n))

end Sys2Proof.Machine
end

