-- ==== Sys2Proof/Machine/CoreData.lean ====
section
/-!
DEFINITION. The data of arrays, cores and itineraries (chapters 03, 04, 05): what one array, one core and one loaded
container hold beside their register fields.
-/

namespace Sys2Proof.Machine

/-! Sequencer operations (05 Tables 5-6 and 5-7). -/

/-- The vector operations, OP 0x01 to 0x11. -/
inductive VecOp where
  | add | sub | mul | fma | min | max | scale | cmp | select | convert | recip | rsqrt | exp2 | log2 | sum | maxRed | topK
  deriving DecidableEq, Repr

/-- The counter fields of an operation record (Table 5-6); `none` is 0xFF, or 0xFFFF for START. -/
structure OpHdr where
  waitCtr : Option Nat
  waitTarget : Nat
  incCtr : Option Nat
  inc : Nat
  start : Option Nat
  deriving DecidableEq, Repr

/-- An operation with its operands (Table 5-7). -/
inductive OpKind where
  | nop
  | resetCtr (ctr : Nat)
  | flip (tile : Nat)
  | barrier (id participants : Nat)
  | load (mask : Nat) (fmt : Fmt) (buf elems scales ref count : Nat)
  | product (arr buf k bank : Nat)
  | accumulate (chains : Nat) (bf16 : Bool) (table : Nat)
  | rotq (m mode : Nat) (fmt : Fmt) (inBf16 : Bool) (seed src dst len : Nat)
  | matmul (x y z m n k32 flags : Nat)
  | vec (op : VecOp) (flags k a b dst len : Nat)
  | send (core : Nat) (ctr : Option Nat) (src dst bytes : Nat)
  | memRead (stream addr bytes token : Nat)
  | memWrite (stream addr bytes token : Nat)
  | portSend (port cls part core : Nat) (ctr : Option Nat) (src dst bytes : Nat)
  deriving DecidableEq, Repr

/-- One operation of a leg. -/
structure Op where
  hdr : OpHdr
  kind : OpKind
  deriving DecidableEq, Repr

/-- The units of Table 5-6. -/
inductive CUnit where
  | seq | array | accum | rot | engine | vec | net
  deriving DecidableEq, Repr

/-- The unit of an operation. -/
def OpKind.unit : OpKind → CUnit
  | .nop | .resetCtr _ | .flip _ | .barrier .. => .seq
  | .load .. | .product .. => .array
  | .accumulate .. => .accum
  | .rotq .. => .rot
  | .matmul .. => .engine
  | .vec .. => .vec
  | .send .. | .memRead .. | .memWrite .. | .portSend .. => .net

/-- What the surroundings do to one operation while it runs: hamper words found in error (address, whether
uncorrectable, R139), flits sent again and flits poisoned (R201), memory beats met in error (pitch addresses, with whether the error is uncorrectable,
R208), and a crib parity error (R152). -/
structure OpEnv where
  words : List (Nat × Bool)
  resent : Nat
  poisoned : Nat
  beats : List (Nat × Bool)
  deriving DecidableEq, Repr

/-- An undisturbed operation. -/
def OpEnv.quiet : OpEnv := ⟨[], 0, 0, []⟩

/-! Arrays (chapter 03). -/

/-- An input buffer (R93): `full` once its load is complete. -/
structure InBuf where
  full : Bool
  fmt : Fmt
  elems : List Nat
  offs : List Nat
  bref : Nat
  nan : Bool
  deriving DecidableEq, Repr

/-- An empty input buffer. -/
def InBuf.empty : InBuf := ⟨false, .int4, [], [], 0, false⟩

/-- An output bank (R93): `full` until the core accumulator has read it. -/
structure OutBank where
  full : Bool
  acc : List Int
  fmt : Fmt
  bref : Nat
  nan : Bool
  deriving DecidableEq, Repr

/-- An empty output bank. -/
def OutBank.empty : OutBank := ⟨false, [], .int4, 0, false⟩

/-- A product that runs (R94), or that is refused and only waits for its end (R106).  Times are in thousandths of a
core cycle. -/
structure ProdRun where
  buf : Nat
  k : Nat
  bank : Nat
  start : Nat
  dur : Nat
  refused : Bool
  deriving DecidableEq, Repr

/-- A maintenance command that runs (R107); `abort` says that VPP_ARR left regulation (R111). -/
structure ArrCmd where
  op : Nat
  tag : Nat
  row : Nat
  count : Nat
  haddr : Nat
  data : Bytes
  start : Nat
  abort : Bool
  deriving DecidableEq, Repr

/-- One entry of a fault list: row, physical column, final verify-read code (R109). -/
structure CellFault where
  row : Nat
  col : Nat
  code : Nat
  deriving DecidableEq, Repr

/-- What an array holds beside its registers.  `cells` lists the verify-read code of each data and mend cell at key
1,024·row + column, an unlisted cell being erased (code 0); `refs` the same of the reference rows, an unlisted cell
being at level 3 (code 96, R86). -/
structure ArrSt where
  cells : SMap Nat
  refs : SMap Nat
  side0 : Bytes
  side1 : Bytes
  sideSel : Nat
  cmd : Option ArrCmd
  verify : List Nat
  faults : List CellFault
  sweep : List Nat
  sweepFail : Bool
  refreshNext : Nat
  in0 : InBuf
  in1 : InBuf
  out0 : OutBank
  out1 : OutBank
  prod : Option ProdRun
  pendTrimRef : Option Nat
  pendTrimRead : Option Nat
  retired : Bool
  deriving DecidableEq, Repr

/-- An array as shipped: erased, side store never written, reference rows at level 3. -/
def ArrSt.init : ArrSt :=
  ⟨[], [], [], [], 0, none, [], [], [], false, 0, .empty, .empty, .empty, .empty, none, none, none, false⟩

/-! Cores (chapter 04). -/

/-- A gather-buffer entry (R142): its line, the bytes of its mask and the cycle of its last write. -/
structure GEntry where
  line : Nat
  bytes : SMap Byte
  last : Nat
  deriving DecidableEq, Repr

/-- An operation in a unit's queue, or running since a cycle for a number of thousandths of a cycle: its index in the
leg, whether what it waits for beside its duration has come (a product's end, a delivery, a barrier), and whether its
wait for a busy unit's resource has been counted. -/
structure RunOp where
  op : Op
  env : OpEnv
  idx : Nat
  start : Nat
  dur : Nat
  done : Bool
  counted : Bool
  deriving DecidableEq, Repr

/-- A crib slot (R152): weights at key 1,024·column + row, as codes. -/
structure CribSlot where
  valid : Bool
  arr : Nat
  cblock : Nat
  w : SMap Nat
  deriving DecidableEq, Repr

/-- An empty slot. -/
def CribSlot.empty : CribSlot := ⟨false, 0, 0, []⟩

/-- A crib fill that runs (R153). -/
structure CribFill where
  slot : Nat
  arr : Nat
  cblock : Nat
  start : Nat
  deriving DecidableEq, Repr

/-- The tile a leg's taster has chosen (R155): slot, array, column block, product number and the operation that loads its input; once
that input is loaded, what it has latched (R156): the exact accumulators and the σ of its 32 columns, and 4·N. -/
structure Tasting where
  slot : Nat
  arr : Nat
  cblock : Nat
  prod : Nat
  load : Nat
  copied : Bool
  exact : List Int
  sigma : List Nat
  thresh : Nat
  deriving DecidableEq, Repr

/-- A leg header (Table 5-4). -/
structure LegHdr where
  kind : Nat
  start : Nat
  len : Nat
  firstSlot : Nat
  slotCount : Nat
  unit : Option Nat
  layer : Nat
  deriving DecidableEq, Repr

/-- A leg with its operations. -/
structure Leg where
  hdr : LegHdr
  ops : List Op
  deriving DecidableEq, Repr

/-- The leg a core runs: `toIssue` are the operations not yet issued, `queued` those issued and not started in issue
order, `running` those started and not completed; `prods` names the array of each product started, in order; `cause` its
suspect causes so far and `noReplay` whether one of them forbids a replay (Table 11-1); `late` whether it is counted
late; `issued` counts operations issued; `replay` names the part for which the leg is replayed, and `captured` holds the
payloads of that replay's sending operations by operation index (R359). -/
structure LegRun where
  idx : Nat
  leg : Leg
  start : Nat
  toIssue : List Op
  queued : List RunOp
  running : List RunOp
  prods : List Nat
  taste : Option Tasting
  cause : Nat
  noReplay : Bool
  late : Bool
  issued : Nat
  replay : Option Nat
  captured : List (Nat × Bytes)
  deriving DecidableEq, Repr

/-- The operations of a leg that have not started. -/
def LegRun.ahead (r : LegRun) : List Op := r.queued.map (·.op) ++ r.toIssue

/-- Its MEM_READs among them. -/
def LegRun.unread (r : LegRun) : List Op := r.ahead.filter fun o => match o.kind with | .memRead .. => true | _ => false

/-- One range monitor's running quantities (R158). -/
structure RangeMon where
  min : Int
  max : Int
  count : Nat
  sum : Int
  ssq : Nat
  deriving DecidableEq, Repr

/-- An empty monitor. -/
def RangeMon.empty : RangeMon := ⟨2 ^ 31 - 1, -(2 ^ 31), 0, 0, 0⟩

/-- What a core holds beside its registers, hamper and arrays.  `nextLeg` is the index of the next leg of the frame;
`clearStart` the cycle at which the clear that runs began. -/
structure CoreSt where
  nextLeg : Nat
  run : Option LegRun
  tiles : Nat
  gather : List GEntry
  accStore : SMap Nat
  rotBuf : List (List Nat)
  cribs : SMap CribSlot
  fill : Option CribFill
  sampler : Nat
  inject : Bool
  mons : SMap RangeMon
  clearStart : Option Nat
  deriving DecidableEq, Repr

/-- A core after reset: its sampling register at the seed's reset value. -/
def CoreSt.init : CoreSt := ⟨0, none, 0, [], [], [], [], none, 1, false, [], none⟩

/-! Itineraries (chapter 05). -/

/-- A core's share: its legs in list order (R167). -/
structure Share where
  core : Nat
  legs : List Leg
  deriving DecidableEq, Repr

/-- An envelope record (Table 5-8, R159); the statistics' bounds are FP32 words. -/
structure EnvRec where
  enable : Bool
  lo : Int
  hi : Int
  meanLo : Nat
  meanHi : Nat
  rmsHi : Nat
  deriving DecidableEq, Repr

/-- A PORTS record. -/
structure PortRec where
  port : Nat
  cls : Nat
  part : Nat
  core : Nat
  ctr : Nat
  addr : Nat
  bytes : Nat
  earliest : Nat
  latest : Nat
  deriving DecidableEq, Repr

/-- A STREAMS record; `pitches` is the bitmap of pitches that may use it. -/
structure StreamRec where
  stream : Nat
  layer : Nat
  kv : Nat
  bpt : Nat
  firstSlot : Nat
  slotCount : Nat
  pitches : Nat
  deriving DecidableEq, Repr

/-- A SLOTS record. -/
structure SlotRec where
  slot : Nat
  kind : Nat
  pitch : Nat
  tokens : Nat
  stages : Nat
  deriving DecidableEq, Repr

/-- A RESTSTOPS record; `len` none is persistent. -/
structure RestRec where
  core : Nat
  arrays : Nat
  start : Nat
  len : Option Nat
  deriving DecidableEq, Repr

/-- A REPLAY record: unit, replica group, legs as (logical core, leg index). -/
structure ReplayUnit where
  unit : Nat
  group : Nat
  legs : List (Nat × Nat)
  deriving DecidableEq, Repr

/-- A PITCHES record, its bitmaps as numbers. -/
structure PitchRec where
  pitch : Nat
  cores : Nat
  chans : Nat
  ports : Nat
  deriving DecidableEq, Repr

/-- A KVLAYOUT layer. -/
structure KvLayer where
  layer : Nat
  fmt : Nat
  bpt : Nat
  deriving DecidableEq, Repr

/-- An itinerary read from its container (R165 to R171). -/
structure Itin where
  itinId : Nat
  imageId : Bytes
  tNomUs : Nat
  clockMhz : Nat
  kvLayoutId : Nat
  drain : Bool
  shares : List Share
  envs : List (Nat × List EnvRec)
  ports : List PortRec
  streams : List StreamRec
  slots : List SlotRec
  rests : List RestRec
  units : List ReplayUnit
  pitches : List PitchRec
  kv : List KvLayer
  deriving DecidableEq, Repr

end Sys2Proof.Machine
end

