-- ==== Sys2Proof/Machine/FrameData.lean ====
section
/-!
DEFINITION. The data of frames, loading and reports (chapter 05), and of the interrupt controllers and the leadership
latch (chapter 10).
-/

namespace Sys2Proof.Machine

/-- The frame states (Table 5-11). -/
inductive FState where
  | empty | halted | armed | running
  deriving DecidableEq, Repr

/-- Who sent a management command, and how (09_host_interface Table 9-8): the function whose window carries it, its
tag, the pitch it names, and the state of its payload: its length in bytes, whether HOST_ADDR is aligned, and whether
a read of it failed (Table 9-11). -/
structure Mgmt where
  fn : Nat
  tag : Nat
  pitch : Nat
  len : Nat
  aligned : Bool
  readFails : Bool
  deriving DecidableEq, Repr

/-- One pitch of a copy of the pitch fields (Table 6-6); `chans` holds the channel words as one number. -/
structure PitchSet where
  enable : Bool
  r1 : Nat
  r0 : Nat
  c1 : Nat
  c0 : Nat
  ports : Nat
  chans : Nat
  deriving DecidableEq, Repr

/-- A LOAD that is being checked (R172). -/
structure LoadReq where
  cmd : Mgmt
  switch : Option Nat
  bytes : Bytes
  start : Nat
  pitchCopy : Option (List PitchSet)
  deriving DecidableEq, Repr

/-- A replacement that waits for its switch frame (R191). -/
structure Replacement where
  itin : Itin
  switch : Nat
  pitchCopy : Option (List PitchSet)
  deriving DecidableEq, Repr

/-- A frame report (Table 5-19). -/
structure FrameReport where
  frame : Nat
  boundaryNs : Nat
  lengthNs : Nat
  kind : Nat
  flags : Nat
  withheld : Nat
  stopped : Nat
  suspect : Nat
  early : Nat
  self : Nat
  stray : Nat
  foreign : Nat
  ignored : Nat
  withheldTotal : Nat
  switchLate : Nat
  deriving DecidableEq, Repr

/-- The cumulative counters of the frame report (R196). -/
structure FrameCounts where
  early : Nat
  self : Nat
  stray : Nat
  foreign : Nat
  ignored : Nat
  withheldTotal : Nat
  switchLate : Nat
  deriving DecidableEq, Repr

/-- A suspect report on its way to the leader half (R151): logical core, leg index, frame, cause bits, whether a
cause forbids a replay, whether it is the report of the leg's end, and the leg's MEM_READs not issued then. -/
structure SuspectRep where
  core : Nat
  leg : Nat
  frame : Nat
  cause : Nat
  noReplay : Bool
  final : Bool
  unread : List Op
  deriving DecidableEq, Repr

/-- A sending operation held back in a suspect leg (R356): logical core, leg index, operation index, operation. -/
structure Suppressed where
  core : Nat
  leg : Nat
  idx : Nat
  op : Op
  deriving DecidableEq, Repr

/-- The frame machinery.  `t0` and `cyc0` are the time and the core cycle count (in thousandths) of the last boundary; `startFrame` the
number START named; `afterSelf` whether the last boundary was self-generated, `held` whether an early whistle is held (Table 5-12);
`stops` the STOPs that wait for the next boundary; `readyPoint` whether the ready point has been reached; the active itinerary and
its leg-store bank, a replacement that waits, a LOAD under check, a CANCEL_LOAD whose fate 300 ns decide (R192); the report's
counters and ring (R196, R327); the frame that the range monitors' snapshot shows (R158); of the frame: suspect legs counted,
reports on their way, suspect, ended and stopped legs (logical core, leg index), operations held back, and what stopped legs
waited on (logical core, leg index, counter). -/
structure FrameSt where
  st : FState
  number : Nat
  startFrame : Nat
  t0 : Nat
  cyc0 : Nat
  tNom : Nat
  afterSelf : Bool
  held : Bool
  stops : List Mgmt
  readyPoint : Bool
  active : Option Itin
  bank : Nat
  repl : Option Replacement
  load : Option LoadReq
  cancel : Option (Mgmt × Nat)
  counts : FrameCounts
  ring : SMap FrameReport
  snapFrame : Nat
  suspects : Nat
  reports : List SuspectRep
  suspectLegs : List (Nat × Nat)
  endedLegs : List (Nat × Nat)
  stoppedLegs : List (Nat × Nat)
  suppressed : List Suppressed
  waitingAtStop : List (Nat × Nat × Nat)
  deriving DecidableEq, Repr

/-- EMPTY, nothing loaded. -/
def FrameSt.init : FrameSt :=
  { st := .empty, number := 0, startFrame := 0, t0 := 0, cyc0 := 0, tNom := 0, afterSelf := false, held := false, stops := [],
    readyPoint := false, active := none, bank := 0, repl := none, load := none, cancel := none, counts := ⟨0, 0, 0, 0, 0, 0, 0⟩,
    ring := [], snapFrame := 0, suspects := 0, reports := [], suspectLegs := [], endedLegs := [], stoppedLegs := [], suppressed := [],
    waitingAtStop := [] }

/-- The interrupt controllers' state beside PRIO, PEND, EN, THRESH and CLAIM (R336, R338), and the Ranger complexes beside
their registers: edges latched while the half's firmware clock is stopped, sources claimed and by which target (target + 1),
which halves' clocks are stopped; the last watchdog restart of each core, its crashes of the last second (R342), queues that
go back to a reloaded core at the next boundary (queue, core); the epoch by which each half believes it leads (R347), the last
refresh of the latch (R345), until when a new leader rebuilds, whether NO_LEADER is posted for this interval (R348). -/
structure IrqSt where
  latched : SMap Nat
  claimed : SMap Nat
  stoppedW : Bool
  stoppedE : Bool
  ticks : SMap Nat
  crashes : List (Nat × Nat)
  returning : List (Nat × Nat)
  beliefW : Option Nat
  beliefE : Option Nat
  refreshed : Option Nat
  rebuilt : Nat
  noLead : Bool
  deriving DecidableEq, Repr

/-- No edge latched, nothing claimed, both clocks running, no leader. -/
def IrqSt.init : IrqSt :=
  { latched := [], claimed := [], stoppedW := false, stoppedE := false, ticks := [], crashes := [], returning := [],
    beliefW := none, beliefE := none, refreshed := none, rebuilt := 0, noLead := false }

end Sys2Proof.Machine
end

