-- ==== Sys2Proof/Machine/NetData.lean ====
section
/-!
DEFINITION. The data of the on-die networks and the stacked memory (chapter 06): barriers that run, transfers on their
way, and what a bound slot has written in the frame.
-/

namespace Sys2Proof.Machine

/-- A barrier instance (R203): its pitch, identity, participant count, and the arrivals so far as logical core, named
counter and increment. -/
structure BarrierInst where
  pitch : Nat
  id : Nat
  count : Nat
  arrivals : List (Nat × Option Nat × Nat)
  deriving DecidableEq, Repr

/-- A transfer into a core's hamper on its way (R198, R199): the logical core and pitch it goes to, where its bytes
land, the counter its last byte increments, its sender's frame, whether its bytes arrive poisoned, and whether it is the
delivery of the core's own MEM_READ. -/
structure Transfer where
  core : Nat
  pitch : Nat
  addr : Nat
  data : Bytes
  ctr : Option Nat
  frame : Nat
  bad : Bool
  memRead : Bool
  deriving DecidableEq, Repr

/-- A PORT_SEND that left a port as LEG_DATA (R391): the port, class, destination part, core, counter and address, its
bytes, its frame, and whether bytes of it are poisoned. -/
structure LegData where
  port : Nat
  cls : Nat
  part : Nat
  core : Nat
  ctr : Option Nat
  addr : Nat
  data : Bytes
  frame : Nat
  pitch : Nat
  poisoned : Bool
  deriving DecidableEq, Repr

/-- The networks' and the memory's state beside registers and bytes: barriers, transfers, hamper lines that hold
poisoned or uncorrectable data (R201, R208; key 8,192·site + line), channels' zeroing starts, what left the
ports and what they hold while the partner pauses its class (R386), and the tokens of exit slots in this frame (token, AUX; R309); pages (pitch,
page) that hold an uncorrectable beat, those taken out of allocation (R352), and the clock
crossings held closed (R220). -/
structure NetSt where
  barriers : List BarrierInst
  transfers : List Transfer
  badLines : SMap Nat
  zeroStart : SMap Nat
  scrubNext : Nat
  portOut : List LegData
  portHeld : List LegData
  exitTokens : SMap (Nat × Nat)
  lostPages : List (Nat × Nat)
  retiredPages : List (Nat × Nat)
  closed : List Nat
  deriving DecidableEq, Repr

/-- Idle networks. -/
def NetSt.init : NetSt := ⟨[], [], [], [], 0, [], [], [], [], [], []⟩

end Sys2Proof.Machine
end

