-- ==== Sys2Proof/Machine/LinkData.lean ====
section
/-!
DEFINITION. The messages between parts (chapter 12): what waits to be sent, what was sent, and the sequence numbers.
-/

namespace Sys2Proof.Machine

/-- A firmware message to a part (Table 12-6): its sequence number (R392), type, the frame number and epoch it carries
(R347), its content in the order of its rule's table, its bytes; when it was last sent, none while it waits for credit
(R393); and how often it was sent again. -/
structure FwMsg where
  part : Nat
  seq : Nat
  type : Nat
  frame : Nat
  epoch : Nat
  fields : List Nat
  data : Bytes
  sent : Option Nat
  tries : Nat
  deriving DecidableEq, Repr

/-- A control message sent to a part (Table 12-5): its type, frame number, manager epoch and further payload. -/
structure CtlMsg where
  part : Nat
  type : Nat
  frame : Nat
  epoch : Nat
  fields : List Nat
  deriving DecidableEq, Repr

/-- Messages between parts: firmware messages sent and not acknowledged, those that wait for credit, those held for want of a
leader; control messages sent; the next sequence number to each part, the next expected from each (both counted from 0);
credit requests received and not granted (part, units) and the units granted to each; parts that granted a request of
this part, bytes of relay credit towards each part; ACK frames sent (part, sequence number, units returned). -/
structure LinkSt where
  out : List FwMsg
  waiting : List FwMsg
  held : List FwMsg
  ctl : List CtlMsg
  nextSeq : SMap Nat
  nextIn : SMap Nat
  credits : List (Nat × Nat)
  given : SMap Nat
  granted : List Nat
  relayCredit : SMap Nat
  acked : List (Nat × Option Nat × Nat)
  deriving DecidableEq, Repr

/-- No message. -/
def LinkSt.init : LinkSt := ⟨[], [], [], [], [], [], [], [], [], [], []⟩

end Sys2Proof.Machine
end

