-- ==== Sys2Proof/Machine/FabricData.lean ====
section
/-!
DEFINITION. The data of managers, withdrawal, replay across parts and roll calls (chapters 11 and 12).
-/

namespace Sys2Proof.Machine

/-- A replay this part has asked a partner for (R357, R358): the leg (logical core, leg index), its frame, the partner,
whether it has a clean result placed, whether it was refused or
given up, and a clean output that waits for the leg's end (hamper bytes, captured payloads). -/
structure Asked where
  core : Nat
  leg : Nat
  frame : Nat
  partner : Nat
  clean : Bool
  refused : Bool
  output : Option (List (Nat × Bytes) × List (Nat × Bytes))
  deriving DecidableEq, Repr

/-- A replay this part was asked for (R358, R359): the asking part, the leg, its frame, the input (address, bytes), and
whether it runs. -/
structure Replaying where
  part : Nat
  core : Nat
  leg : Nat
  frame : Nat
  input : List (Nat × Bytes)
  running : Bool
  done : Bool
  deriving DecidableEq, Repr

/-- A roll call as the manager tallies a part's answers (R368): whether it has answered the last call, calls unanswered in
a row, NOT_READY in a row. -/
structure RollTally where
  answered : Bool
  silent : Nat
  notReady : Nat
  deriving DecidableEq, Repr

/-- No call made. -/
def RollTally.init : RollTally := ⟨true, 0, 0⟩

/-- A port beside its registers: bytes in its receive buffer and those of class 1 (R387), when it last sent a pause, the
second in which an uncorrected codeword was last recorded (plus 1; R383), until when the partner pauses each class (R386). -/
structure PortSt where
  occ : Nat
  occ1 : Nat
  paused : Nat
  fecSecond : Nat
  txUntil : SMap Nat
  deriving DecidableEq, Repr

/-- An empty port. -/
def PortSt.init : PortSt := ⟨0, 0, 0, 0, []⟩

/-- A Rilnel frame received (R389, R390): what the FEC and FCS say (codewords corrected, uncorrected, FCS good), whether it is
tagged with the configured EtherType, whether version, reserved fields and length are right, its header, its length on the
wire, and how many bytes left the receive buffer since the frame before, of them class 1. -/
structure RxFrame where
  corrected : Nat
  uncorrected : Nat
  fcs : Bool
  tagged : Bool
  form : Bool
  addressed : Bool
  kind : Nat
  src : Nat
  dst : Nat
  first : Bool
  last : Bool
  poison : Bool
  cls : Nat
  pitch : Nat
  addr : Nat
  frame : Nat
  core : Nat
  ctr : Option Nat
  off : Nat
  total : Nat
  data : Bytes
  wire : Nat
  drained : Nat
  drained1 : Nat
  deriving DecidableEq, Repr

/-- A firmware message that arrives in frames (R392): sender, sequence number, bytes so far, its length. -/
structure Inbound where
  src : Nat
  seq : Nat
  have_ : Nat
  total : Nat
  deriving DecidableEq, Repr

/-- The ports: each port's state; bytes arrived of each PORTS transfer of the frame (the record's place in the itinerary);
messages arriving, those complete that wait for an earlier one (sender, sequence number); when each part was last heard. -/
structure FabSt where
  ports : SMap PortSt
  arrived : SMap Nat
  inbound : List Inbound
  early : List (Nat × Nat)
  heard : SMap Nat
  deriving DecidableEq, Repr

/-- Idle ports. -/
def FabSt.init : FabSt := ⟨[], [], [], [], []⟩

/-- A substitution under way at the rack manager (R410): the failed part, the spare's entry and former number, the stage
(0 waits for CUT_ACK, 1 for ASSUME_ACK, 2 for PROGRAMMED, 3 for START), when CUT was sent. -/
structure Substitution where
  failed : Nat
  entry : Nat
  former : Nat
  stage : Nat
  began : Nat
  deriving DecidableEq, Repr

/-- Managers and the machine (chapters 11 and 12).  `withdrawn` and what takes effect at the next boundary (R406);
`pitchOut` the pitches withdrawn with a pipeline; the whistle settings in force since START (R395), when WHISTLE_OUT was last set to rise; the tallies of READY
and LIST_ACK as domain entries, slots (frame, slot) this part
withholds of its own (R363), and at the manager those of the notices received, with whether the list was sent; at a part, the list received and slots announced as pending (R364); standby watch:
boundaries self-generated in a row and whether a BEAT came since the first (R407); roll-call count; replay map (unit group
→ partner) in force and to come; replays asked and asked for;
slots withheld at the last boundary with its bindings (pitch, slot, tag; R365); whether this part stood down to a claimant (R408);
the frame of the last BEAT; boundaries without READY in a row by entry (R402), entries that count again from the next
boundary; roll-call tallies by part (R368); replay units whose one replay of the frame is taken (R362), legs whose fate is
decided, dependent legs (R361), counters that held-back PORT_SENDs were to increase (core, counter; R356);
other parts withdrawn as this part has heard, and what it has heard since the last boundary (R406); at a rack manager the parts expelled
and not admitted since (R369). -/
structure MgrSt where
  withdrawn : Bool
  withdrawDue : Option Bool
  pitchOut : List Nat
  source : Nat
  outEn : Bool
  msgEn : Bool
  outRise : Option Nat
  ready : List Nat
  acks : List Nat
  readySent : Option Nat
  own : List (Nat × Nat)
  notices : List (Nat × Nat)
  listSent : Bool
  list : List Nat
  listFrame : Option Nat
  pendingSlots : List Nat
  selfRun : Nat
  beat : Bool
  nextRoll : Nat
  rollIn : Nat
  map : SMap Nat
  mapNext : Option (SMap Nat)
  asked : List Asked
  replaying : List Replaying
  withheldLast : List Nat
  lastBinds : List (Nat × Nat × Nat)
  subst : Option Substitution
  stoodDown : Bool
  beatFrom : Nat
  absentRun : SMap Nat
  rejoin : List Nat
  rolls : SMap RollTally
  units : List Nat
  decided : List (Nat × Nat)
  dependents : List (Nat × Nat)
  heldCtrs : List (Nat × Nat)
  peersOut : List Nat
  peerDue : List (Nat × Bool)
  expelled : List Nat
  deriving DecidableEq, Repr

/-- No manager, nothing withheld. -/
def MgrSt.init : MgrSt :=
  { withdrawn := false, withdrawDue := none, pitchOut := [], source := 0, outEn := false, msgEn := false, outRise := none,
    ready := [], acks := [], readySent := none, own := [], notices := [], listSent := false, list := [],
    listFrame := none, pendingSlots := [], selfRun := 0, beat := false, nextRoll := 0, rollIn := 64, map := [],
    mapNext := none, asked := [], replaying := [], withheldLast := [],
    lastBinds := [], subst := none, stoodDown := false, beatFrom := 0, absentRun := [], rejoin := [], rolls := [], units := [],
    decided := [], dependents := [], heldCtrs := [],
    peersOut := [], peerDue := [], expelled := [] }

end Sys2Proof.Machine
end

