-- ==== Sys2Proof/Machine/HostData.lean ====
section
/-!
DEFINITION. The data of the host interface (chapter 09): who reaches the registers, the management windows, the queues
and their completions, interrupts.
-/

namespace Sys2Proof.Machine

/-- The paths to the registers (R499): a host function (0 the physical function, 1 to 16 the virtual functions), the
SMBus target, the firmware view. -/
inductive Path where
  | host (fn : Nat)
  | smbus
  | firmware
  deriving DecidableEq, Repr

/-- An event entry (Table 9-10): its code, the frame, and its detail fields in the order of its table. -/
structure Event where
  code : Nat
  frame : Nat
  detail : List Nat
  deriving DecidableEq, Repr

/-- A response entry (Table 9-9): command code, result, SEQ and detail bytes. -/
structure Response where
  code : Nat
  result : Nat
  tag : Nat
  detail : Bytes
  deriving DecidableEq, Repr

/-- A management window (Table 9-7): its indices, STATUS.READY, EVT_LOST, what stands in its response and event rings
(by index), whether a command of it is executing (R313), whether the ring it shows has gained entries since the last
message of vector 0 (R311), whether the response of the executing command is to be discarded (R317), and what READ commands wrote to host memory, oldest first. -/
structure WinSt where
  ready : Bool
  busy : Bool
  cmdTail : Nat
  cmdHead : Nat
  rspTail : Nat
  rspHead : Nat
  evtTail : Nat
  evtHead : Nat
  evtLost : Nat
  rsp : SMap Response
  evt : SMap Event
  gained : Bool
  discard : Bool
  output : List Bytes
  deriving DecidableEq, Repr

/-- A window before it is opened. -/
def WinSt.init : WinSt := ⟨false, false, 0, 0, 0, 0, 0, 0, 0, [], [], false, false, []⟩

/-- A completion (Table 9-6) but for its PHASE. -/
structure Completion where
  tag : Nat
  waymark : Nat
  frame : Nat
  position : Nat
  token : Option Nat
  aux : Nat
  generated : Nat
  status : Nat
  wmFailed : Bool
  deriving DecidableEq, Repr

/-- A queue beside its registers (R299 to R306): submissions copied and not yet taken, completions and refusals that
wait for room, the part's write index and phase, the CQ_HEAD last read, the entries written to the completion ring (by
index, with their phase), failed reads of its submissions in a row, and whether a refusal or a completion has been
written for which no message has been sent. -/
structure QueueSt where
  copied : List Bytes
  waiting : List Completion
  tail : Nat
  phase : Nat
  head : Nat
  ring : SMap (Completion × Nat)
  readFails : Nat
  refused : Bool
  completed : Bool
  deriving DecidableEq, Repr

/-- A queue that holds nothing. -/
def QueueSt.init : QueueSt := ⟨[], [], 0, 1, 0, [], 0, false, false⟩

/-- A read of host memory that failed (Table 9-12): of doorbell blocks, of a queue's submissions, of a request's prompt
tokens (pitch and REQ_TAG). -/
inductive HostRead where
  | doorbell
  | submission (q : Nat)
  | prompt (pitch tag : Nat)
  deriving DecidableEq, Repr

/-- What one poll read of a queue (R301): queue, SQ_TAIL, CQ_HEAD, and the entries from SQ_HEAD on. -/
structure DoorRead where
  q : Nat
  sqTail : Nat
  cqHead : Nat
  subs : List Bytes
  deriving DecidableEq, Repr

/-- Prompt tokens read for a binding and waiting for their delivery (R308): pitch, slot, frame, tokens. -/
structure Staged where
  pitch : Nat
  slot : Nat
  frame : Nat
  tokens : List Nat
  deriving DecidableEq, Repr

/-- The host interface: the UTC clock as nanoseconds with the time base at which it was set (R315); windows and queues;
when the queues and the windows were last polled; MSI-X vectors unmasked and pending (keys 2,048·function + vector), table
sizes in force, messages sent; staged prompt tokens; VF Enable; PERST_N held; a link retrain under way; functions whose
reset awaits its boundary (R317). -/
structure HostSt where
  utc : Option (Nat × Nat)
  win : SMap WinSt
  queues : SMap QueueSt
  lastPoll : Option Nat
  lastMgmt : Option Nat
  unmasked : SMap Nat
  msiPending : SMap Nat
  vectors : SMap Nat
  sent : List (Nat × Nat)
  staged : List Staged
  vfEnable : Bool
  perst : Bool
  retraining : Bool
  deriving DecidableEq, Repr

/-- The SMBus target (17_electrical_and_package R520, R525, R526): SMB_ADDR as sampled, the offset and count, whether the offset is bad,
the bits WRITE_IGNORED and OFFSET_BAD of STATUS, SMB_ALERT_N (0 not driven, 1 driven low, 2 driven low with the Alert Response
Address read), whether a host that stopped clocking holds the bus in a read, and what the last read returned. -/
structure SmbSt where
  addr : Nat
  offset : Nat
  count : Nat
  bad : Bool
  ignored : Bool
  badBit : Bool
  alert : Nat
  stalled : Bool
  out : Bytes
  deriving DecidableEq, Repr

/-- Address 0x58, offset 0, count 1, no alert. -/
def SmbSt.init : SmbSt := ⟨0, 0, 1, false, false, false, 0, false, []⟩

/-- After reset: no clock, no window, every vector masked (PRESUMED, PCI Express). -/
def HostSt.init : HostSt := ⟨none, [], [], none, none, [], [], [], [], [], false, false, false⟩

end Sys2Proof.Machine
end

