-- ==== Sys2Proof/Machine/PowerData.lean ====
section
/-!
DEFINITION. The data of metrology (chapter 13), and of power, clocks, resets and starts (chapter 14), beside their registers.
-/

namespace Sys2Proof.Machine

/-- The metrology converter (R416 to R421): when its present phase began; the channel, order − 1 and notch latched; whether the
conversion is an urgent one, and the urgent request held; the place in the routine sequence; when each channel's held value
was made; the last code of channel 2; whether a stale interval of the temperature runs (R424); calibrations of each array
failed in a row (R431); whether the part reported itself for arrays that are LATE (R433). -/
structure MetSt where
  since : Nat
  ch : Nat
  order : Nat
  notch : Nat
  urgent : Bool
  held : Option (Nat × Nat × Nat)
  pos : Nat
  times : SMap Nat
  lastCh2 : Nat
  staleRun : Bool
  fails : SMap Nat
  lateOut : Bool
  deriving DecidableEq, Repr

/-- The converter off, nothing converted. -/
def MetSt.init : MetSt := ⟨0, 0, 0, 0, false, none, 0, [], 0, false, [], false⟩

/-- What the start-up check of an array meets (R120, R434): whether its trims loaded, and the sums of its sweeps at the start and after
each pass of its calibration, an empty list standing for ideal ones. -/
structure ArrCheck where
  arr : Nat
  loaded : Bool
  m0 : List Nat
  m1 : List Nat
  m2 : List Nat
  deriving DecidableEq, Repr

/-- What the rail sequencer does (R438, R439). -/
inductive RailSeq where
  | idle
  | raise (rail : Nat)
  | lower (rail : Nat)
  deriving DecidableEq, Repr

/-- Power, clocks and starts.  The always-on island: VDD_AON present; SYS_RST_N low; REFCLK lost; THERMTRIP_N low; when the
trip comparator's blanking began; whether a start is wanted once the rails are down; whether Off holds until SYS_RST_N falls (R445, R453); the rail sequencer, when its rail was
switched, good readings in a row, rails enabled (VR_EN); failed transactions in a row by rail; the time base, running from a
time of the model's clock or standing at a value (R457).  Regulators: since when a rail is out of tolerance; readings in a
row with a deficit and without; readings since the clock was last computed; the clock of R444 in MHz; a rail whose fault
waits for the boundary (R445); when the last supply-bound command ended.  The clock: the clamp's frequency; the times of
estimates above SUSTAIN_W in the trailing 100 ms; since when the estimate is calm; when the clamp was last adjusted; whether
a droop stretches it; a power-state change under way, its target and when it began.  Starts, kept in the vault: the step
begun and not ended; steps done differently (1 altered, 2 skipped); stacks that train with conservative settings; and when
the present step began. -/
structure PwrSt where
  aon : Bool
  sysRst : Bool
  refLost : Bool
  tripPin : Bool
  blankFrom : Nat
  want : Bool
  offHeld : Bool
  seq : RailSeq
  seqAt : Nat
  seqOk : Nat
  en : List Nat
  pmbFails : SMap Nat
  tbRun : Bool
  tb : Nat
  outSince : SMap Nat
  short : Nat
  good : Nat
  reads : Nat
  lowMhz : Nat
  faultDue : Option Nat
  vppLast : Option Nat
  clampMhz : Option Nat
  overs : List Nat
  calm : Option Nat
  adjusted : Nat
  stretch : Bool
  change : Option (Nat × Nat)
  begun : Option Nat
  alt : SMap Nat
  altStacks : Nat
  clearAlt : Bool
  stepAt : Nat
  deriving DecidableEq, Repr

/-- After power-on: SYS_RST_N is held low, no rail is raised, the time base stands at 0. -/
def PwrSt.init : PwrSt :=
  { aon := true, sysRst := true, refLost := false, tripPin := false, blankFrom := 0, want := false, offHeld := false, seq := .idle, seqAt := 0,
    seqOk := 0, en := [], pmbFails := [], tbRun := false, tb := 0, outSince := [], short := 0, good := 0, reads := 0,
    lowMhz := 1600, faultDue := none, vppLast := none, clampMhz := none, overs := [], calm := none, adjusted := 0,
    stretch := false, change := none, begun := none, alt := [], altStacks := 0, clearAlt := false, stepAt := 0 }

end Sys2Proof.Machine
end

