-- ==== Sys2Proof/Machine/ServeData.lean ====
section
/-!
DEFINITION. The data of serving (chapter 08): requests, rations, bindings, waymarks, the serving record.
-/

namespace Sys2Proof.Machine

/-- A submission (Table 9-5). -/
structure Submission where
  entry : Bool
  exit : Bool
  shared : Bool
  wmAt : Nat
  customer : Nat
  partner : Nat
  tag : Nat
  waymark : Nat
  promptLen : Nat
  maxNew : Nat
  promptAddr : Nat
  stops : List Nat
  sampling : Bytes
  deriving DecidableEq, Repr

/-- The states of Table 8-2. -/
inductive ReqPhase where
  | pending | queued | prompting | genWait | generating
  deriving DecidableEq, Repr

/-- A request at this part: its submission and queue; its phase; frames waited for its partner and whether the partner
has registered (R262); its open order, last frame run, age and urgency (R276, R277); the prefix of its waymark, prompt
tokens and generated tokens committed, its last token; its context and reservation; boundaries in a row withheld for want
of a page (R281); failed prompt reads, and whether they are given up (R308); whether its exit part holds an unwritten
completion (R306); whether selection found its ration sufficient and left it unbound; whether its waymark reference is
still to be taken; an end that waits for the next boundary. -/
structure Req where
  sub : Submission
  queue : Nat
  phase : ReqPhase
  waited : Nat
  partnered : Bool
  order : Nat
  lastRun : Nat
  age : Nat
  urgent : Bool
  prefixLen : Nat
  done : Nat
  generated : Nat
  lastToken : Nat
  ctx : Option Nat
  reserved : Nat
  pageFails : Nat
  readFails : Nat
  gaveUp : Bool
  held : Bool
  rationOk : Bool
  refDue : Bool
  ending : Option Nat
  deriving DecidableEq, Repr

/-- A binding of a slot for one frame (R267): slot, request, context, position of its first token, tokens, whether it is a
generation slot, the tokens it debits (R272), whether it depends on the frame before (R270), and whether its page could not be allocated (R281),
and the waymark its request starts from (0 for none). -/
structure Bind where
  slot : Nat
  tag : Nat
  ctx : Nat
  pos : Nat
  tokens : Nat
  gen : Bool
  debit : Nat
  dep : Bool
  noPage : Bool
  wm : Nat
  deriving DecidableEq, Repr

/-- A ration (Table 8-5). -/
structure Ration where
  unlimited : Bool
  enabled : Bool
  budget : Int
  amount : Nat
  period : Nat
  cap : Nat
  overdraft : Nat
  debited : Nat
  deriving DecidableEq, Repr

/-- The reset values of Table 8-5. -/
def Ration.init : Ration := ⟨true, true, 0, 0, 1000, 0, 0, 0⟩

/-- A setting that takes effect at a boundary (R273, R292). -/
inductive ServeChange where
  | ration (customer mask : Nat) (r : Ration)
  | age (n : Nat)
  | partner (n : Nat)
  | capacity (tokens overhead : Nat)
  | pipeline (parts : List Nat)
  | clear
  deriving DecidableEq, Repr

/-- A registration that waits for its submission (R262): tag, customer, prompt length, MAX_NEW, frames waited. -/
structure HeldReg where
  tag : Nat
  customer : Nat
  promptLen : Nat
  maxNew : Nat
  waited : Nat
  deriving DecidableEq, Repr

/-- An entry of the waymark table (Table 8-8), with the reservation the waymark holds (R280). -/
structure Waymark where
  handle : Nat
  state : Nat
  shared : Bool
  customer : Nat
  ctx : Nat
  len : Nat
  frame : Nat
  reserved : Nat
  deriving DecidableEq, Repr

/-- An empty entry. -/
def Waymark.empty : Waymark := ⟨0, 0, false, 0, 0, 0, 0, 0⟩

/-- One item of the exit part's report of a frame (R268): slot, token, AUX, whether the request ends there, and whether it
holds an unwritten completion (R306). -/
structure ExitItem where
  slot : Nat
  token : Nat
  aux : Nat
  ended : Bool
  held : Bool
  deriving DecidableEq, Repr

/-- The cumulative counters of the serving record (Table 8-10). -/
structure ServeCounts where
  submitted : Nat
  refused : Nat
  ended : Nat
  rationWait : Nat
  genSlotWait : Nat
  urgentRaised : Nat
  bindLate : Nat
  dependentWithheld : Nat
  pageFail : Nat
  copyWait : Nat
  refWait : Nat
  wmIssued : Nat
  wmReused : Nat
  wmReleased : Nat
  wmFailed : Nat
  rebuilds : Nat
  promptTokens : Nat
  genTokens : Nat
  deriving DecidableEq, Repr

/-- All zero. -/
def ServeCounts.zero : ServeCounts := ⟨0, 0, 0, 0, 0, 0, 0, 0, 0, 0, 0, 0, 0, 0, 0, 0, 0, 0⟩

/-- What one pitch serves.  `table` holds the waymark entries at 2,097,152·region + 8·group + slot; `mover` the next old
group, with the frame in which the mover last ran; `binds` the bindings of this frame, `next` those chosen or received for the next with its number; `failed` the tags
whose binding of this frame is dependent-failed; `late` the slots of a notice that did not come; `wmDue` handles that a
notice announced for requests of this frame; `ctxs` the contexts in use, with the tokens their page lists hold. -/
structure ServeSt where
  reqs : List Req
  rations : SMap Ration
  ageLimit : Nat
  partnerTimeout : Nat
  capacity : Nat
  overhead : Nat
  pipeline : List Nat
  changes : List (Nat × ServeChange)
  regs : List HeldReg
  cancels : List (Nat × Nat)
  releases : List Nat
  table : SMap Waymark
  tableState : Nat
  mover : Nat
  moverFrame : Option Nat
  rebuildDue : Bool
  binds : List Bind
  next : List Bind
  nextFrame : Option Nat
  failed : List Nat
  late : List Nat
  wmDue : List (Nat × Nat)
  report : Option (List ExitItem)
  counts : ServeCounts
  opened : Nat
  ctxs : SMap Nat
  deriving DecidableEq, Repr

/-- A pitch that serves nothing, at the defaults of Table 8-9; TOKEN_CAPACITY has no default and is 0 (DESIGN CHOICE). -/
def ServeSt.init : ServeSt :=
  { reqs := [], rations := [], ageLimit := 64, partnerTimeout := 4096, capacity := 0, overhead := 1024, pipeline := [],
    changes := [], regs := [], cancels := [], releases := [], table := [], tableState := 0, mover := 0, moverFrame := none, rebuildDue := false,
    binds := [], next := [], nextFrame := none, failed := [], late := [], wmDue := [], report := none,
    counts := .zero, opened := 0, ctxs := [] }

end Sys2Proof.Machine
end

