-- ==== Sys2Proof/Machine/SecData.lean ====
section
/-!
DEFINITION. The data of roles, keys, the audit log, the signature engine, the firmware slots and the vault's journal
(15_update_and_roles R468 to R497).
-/

namespace Sys2Proof.Machine

/-- What a function holds toward a role (R486): its nonce with the time it was given, its run of failures, the end of
its lockout, and the table and index of the key that authenticated its role (1 operator, 2 installer, 3 maker). -/
structure FnSec where
  nonce : Option (Bytes × Nat)
  fails : Nat
  lockEnd : Option Nat
  table : Nat
  key : Nat
  deriving DecidableEq, Repr

/-- A function that holds nothing. -/
def FnSec.init : FnSec := ⟨none, 0, none, 0, 0⟩

/-- A key of the vault (R487): 97 bytes, uncompressed, with the pitch mask of an operator key. -/
structure KeyRec where
  key : Bytes
  mask : Nat
  deriving DecidableEq, Repr

/-- An audit entry (Table 15-6) without its SEQ and CRC: `at` is when it was made, `read` whether READ_AUDIT has
returned it. -/
structure AuditEntry where
  frame : Nat
  utc : Nat
  fingerprint : Nat
  action : Nat
  fn : Nat
  role : Nat
  result : Nat
  code : Nat
  count : Nat
  target : Nat
  detail : Bytes
  made : Nat
  read : Bool
  deriving DecidableEq, Repr

/-- What a request to the signature engine is for (R496). -/
inductive SigUse where
  | role (c : Mgmt) (role index : Nat)
  | key (c : Mgmt) (table index mask : Nat) (key : Bytes) (seq : Nat)
  | update (c : Mgmt) (slot : Nat) (header : Bytes) (seq : Nat)
  | manifest
  | boot (slot : Nat)
  deriving DecidableEq, Repr

/-- A request of the signature engine: its inputs, and whether it is a key check (R487). -/
structure SigReq where
  use : SigUse
  key : Bytes
  digest : Bytes
  sig : Bytes
  keyCheck : Bool
  deriving DecidableEq, Repr

/-- The signature engine (R496): the request served with the time of its acceptance, those held, those that wait at
their requesters. -/
structure SigEngine where
  served : Option (SigReq × Nat)
  held : List SigReq
  outside : List SigReq
  deriving DecidableEq, Repr

/-- One component of a firmware slot (R471): its header, its body, and the length of body received. -/
structure FwImage where
  header : Bytes
  body : Bytes
  deriving DecidableEq, Repr

/-- An update session (R474): the function that began it, the target slot, the component's class, the body so far, and the SEQ of the
audit entry of the command that began it. -/
structure Session where
  fn : Nat
  slot : Nat
  cls : Nat
  header : Bytes
  body : Bytes
  seq : Nat
  deriving DecidableEq, Repr

/-- An activation (R477): its command, slot and frame; when its pause or handover began. -/
structure Activation where
  cmd : Mgmt
  slot : Nat
  frame : Nat
  began : Option Nat
  seq : Nat
  deriving DecidableEq, Repr

/-- A journal entry of the vault controller (R469): its target address, its record, its generation, whether its CRC
holds, whether it is marked done. -/
structure JEntry where
  addr : Nat
  data : Bytes
  gen : Nat
  crcOk : Bool
  done : Bool
  deriving DecidableEq, Repr

/-- The security records and the vault's own state.  `opKeys`, `insKeys`, `pubKeys` are the key tables by index;
`firstKeyUsed` says that the one KEY_SET without a role has been made; `images` are the slots' components at
2·slot + (class − 1); `log` holds written audit entries by SEQ, `waiting` those not yet written; `bytes` are the vault's
bytes as ATOMIC_RECORD_WRITE writes them, at 65,536·unit + offset; `remaps` the units replaced; `formatHeld` is the configuration
format kept beside the confirmed one (R481), `converting` when its conversion began. -/
structure SecSt where
  fns : SMap FnSec
  opKeys : SMap KeyRec
  insKeys : SMap KeyRec
  pubKeys : SMap KeyRec
  firstKeyUsed : Bool
  engine : SigEngine
  waiting : List AuditEntry
  log : SMap AuditEntry
  nextSeq : Nat
  images : SMap FwImage
  session : Option Session
  activation : Option Activation
  formatHeld : Option Nat
  converting : Option Nat
  journal : List JEntry
  gen : Nat
  bytes : List Host.Cell
  remaps : SMap Nat
  deriving DecidableEq, Repr

/-- Empty tables, nothing under way. -/
def SecSt.init : SecSt :=
  ⟨[], [], [], [], false, ⟨none, [], []⟩, [], [], 0, [], none, none, none, none, [], 0, [], []⟩

end Sys2Proof.Machine
end

