-- ==== Sys2Proof/Machine/WeightData.lean ====
section
/-!
DEFINITION. The data of weights: array records, the patch ledger, relay sessions, programming (chapter 07).
-/

namespace Sys2Proof.Machine

/-- STATE of an array record (Table 7-8). -/
inductive RecState where
  | empty | erasing | programming | valid | faulty
  deriving DecidableEq, Repr

/-- An array record (Table 7-8) but for ARRAY, SITE and CRC; `stamp` is when PROG_UTC was written as unknown in this
power-up (R254); `intact` whether the record's CRC holds (R245). -/
structure ArrRec where
  state : RecState
  tag : Nat
  shard : Nat
  chunk : Nat
  seq : Nat
  progUtc : Nat
  ageBase : Nat
  poweredH : Nat
  refreshNext : Nat
  repair : Bool
  ledgerPending : Bool
  fault : Nat
  digest : Bytes
  stamp : Option Nat
  intact : Bool
  deriving DecidableEq, Repr

/-- The record of an erased array. -/
def ArrRec.init : ArrRec := ⟨.empty, 0, 0, 0, 0, 0, 0, 0, 0, false, false, 0, [], none, true⟩

/-- A patch ledger entry (Table 7-10); `arr` is 16·site + array; STATE 0 obsolete, 1 PROG, 2 PENDING, 3 COMMITTED. -/
structure LedgerEntry where
  state : Nat
  arr : Nat
  seq : Nat
  row : Nat
  col : Nat
  w : Int
  wf : Int
  mendRow : Nat
  m : Int
  s32 : Nat
  origin : Nat
  utc : Nat
  deriving DecidableEq, Repr

/-- A relay plan (Table 7-4): `ranges` of a successor are first and last shard; KIND 1 FULL, 2 FILL, 3 REPAIR. -/
structure RelayPlan where
  tag : Nat
  kind : Nat
  seed : Bool
  shard : Nat
  pred : Nat
  succ : List (Nat × List (Nat × Nat))
  deriving DecidableEq, Repr

/-- A relay piece (Table 7-5): KIND 1 MANIFEST, 2 LEAF_TABLE, 3 CHUNK, 4 REQUEST. -/
structure Piece where
  tag : Nat
  kind : Nat
  shard : Nat
  chunk : Nat
  off : Nat
  total : Nat
  data : Bytes
  deriving DecidableEq, Repr

/-- A chunk in a staging buffer (R231): its shard and number, its bytes by offset, its length, whether its hash is
verified. -/
structure Stage where
  shard : Nat
  chunk : Nat
  parts : SMap Bytes
  total : Nat
  verified : Bool
  deriving DecidableEq, Repr

/-- The resident image (R243): IMAGE_ID, own shard, shard root, leaf table. -/
structure Resident where
  image : Bytes
  shard : Nat
  root : Bytes
  leaves : Bytes
  deriving DecidableEq, Repr

/-- One weight a mend must correct (R97): data row, weight column, intended and presented weight. -/
structure MendNeed where
  row : Nat
  col : Nat
  w : Int
  wf : Int
  deriving DecidableEq, Repr

/-- A mend planned (R97, R98): the need, the mend row, the mend weight and shift. -/
structure MendPlan where
  need : MendNeed
  mendRow : Nat
  m : Int
  s32 : Nat
  deriving DecidableEq, Repr

/-- Where the programming of an array stands (R236, R247): the erase, data block `k`, the mend rows (all of them, or one
anew), the reference rows, the side store; a mend of refresh goes through its mend rows and the side store; `wipe` is the erase
that a start owes an array (R244, R245). -/
inductive JobStage where
  | erase
  | data (k : Nat)
  | mend
  | remend (row : Nat)
  | refs
  | side
  | wipe
  deriving DecidableEq, Repr

/-- The programming of an array: its stage, whether the stage's command has been accepted, the needs found so far, mends
planned, BAD mend rows, whether it is programmed again after a digest mismatch (R239), and whether it is a mend of
refresh. -/
structure Job where
  stage : JobStage
  issued : Bool
  needs : List MendNeed
  mends : List MendPlan
  bad : List Nat
  again : Bool
  refresh : Bool
  deriving DecidableEq, Repr

/-- The relay status of a part as its manager last heard it (R259): state, result, the kind of relay it needs (0 none, 1
REPAIR, 2 FILL), shard; and the KIND of the plan the manager last sent it. -/
structure PartStatus where
  state : Nat
  result : Nat
  need : Nat
  shard : Nat
  kind : Nat
  deriving DecidableEq, Repr

/-- Weights.  Nonvolatile: `recs` (16·site + array), `ledger`, `resident`.  Volatile: the plan and session state of Table
7-6 with the counters of Table 7-11; the manifest's and the leaf table's pieces, the manifest once complete, whether it is
at the signature engine; staged chunks, verified side chunks and chunk 0, chunks verified and used in the session, REQUESTs
sent by chunk, REQUESTs outstanding (1,223 for the leaf table), the last piece; pieces that wait for staging room with the command that brought them; expected
array digests (logical array); jobs; array digests read since the last roll call; retirements that wait for a boundary (half,
physical row); at a rack manager the leaf-table and chunk-0 pieces of other shards (2·shard, 2·shard + 1), and parts'
status; whether the session's manifest is accepted (FILL and REPAIR start so), logical cores it has begun to program, the
arrays of its scope; a plan for another image that waits for running commands; at a rack manager the tree of the relay under way, the
parts with their successors in queue order, and the KIND of each part's need (R404). -/
structure WgtSt where
  recs : SMap ArrRec
  ledger : List LedgerEntry
  resident : Option Resident
  plan : Option RelayPlan
  st : Nat
  result : Nat
  sigCode : Nat
  stalled : Bool
  manParts : SMap Bytes
  leafParts : SMap Bytes
  manifest : Bytes
  checking : Bool
  leaves : Bytes
  stages : List Stage
  sides : SMap Bytes
  chunk0 : Bytes
  verified : List Nat
  asked : SMap Nat
  requested : List Nat
  lastPiece : Nat
  waiting : List (Option Mgmt × Piece)
  expected : SMap Bytes
  jobs : SMap Job
  cntVerified : Nat
  cntHashFail : Nat
  cntRequests : Nat
  cntForwarded : Nat
  cntDropped : Nat
  cntMisrouted : Nat
  cntDuplicate : Nat
  cntFaulty : Nat
  inconsistent : Nat
  scrub : SMap Bytes
  retireDue : List (Nat × Nat)
  refParts : SMap (SMap Bytes)
  status : SMap PartStatus
  accepted : Bool
  started : List Nat
  scope : List Nat
  planDue : Option RelayPlan
  tree : List (Nat × List Nat)
  needs : SMap Nat
  deriving DecidableEq, Repr

/-- A part as shipped: every array erased, no image. -/
def WgtSt.init : WgtSt :=
  { recs := [], ledger := [], resident := none, plan := none, st := 0, result := 0, sigCode := 0, stalled := false,
    manParts := [], leafParts := [], manifest := [], checking := false, leaves := [], stages := [], sides := [], chunk0 := [],
    verified := [], asked := [], requested := [], lastPiece := 0, waiting := [], expected := [], jobs := [], cntVerified := 0,
    cntHashFail := 0, cntRequests := 0, cntForwarded := 0, cntDropped := 0, cntMisrouted := 0, cntDuplicate := 0,
    cntFaulty := 0, inconsistent := 0, scrub := [], retireDue := [], refParts := [], status := [],
    accepted := false, started := [], scope := [], planDue := none, tree := [], needs := [] }

end Sys2Proof.Machine
end

