-- ==== Sys2Proof/Syntax.lean ====
section
/-!
DEFINITION. The commands of the part: one constructor for each row of spec/opcode_table.json.  The table gives the
rows no bits; a command's operands are what the rule of its row names.
-/

namespace Sys2Proof

open Sys2Proof.Machine

/-- The commands (95_what_each_step_holds; the rule of each row stands in its line). -/
inductive Instr where
  /-- REGISTER_WRITE (R20): A host or firmware write to a register field that has no behaviour of its own sets the field, subject to role, lock and access code. -/
  | registerWrite (path : Path) (addr value : Nat)
  /-- RC_COUNTER_READ (R510): A host read of an RC counter at the operator role or above returns its value and clears it. -/
  | rcCounterRead (path : Path) (addr : Nat)
  /-- TIME_LO_READ (R501): A read of CLK.TIME_LO or VLT.AUDIT_SEQ_LO latches the matching HI register for the same path. -/
  | timeLoRead (path : Path) (audit : Bool)
  /-- ENTER_MAINT (R105): Array command moving an array from SERVE or EXCLUDED to MAINT, at the end of a running product. -/
  | enterMaint (arr tag : Nat)
  /-- LEAVE_MAINT (R105): Array command returning an array from MAINT to SERVE when no command runs and its side store is not stale. -/
  | leaveMaint (arr tag : Nat)
  /-- ERASE (R110): Array command marking the side store stale and returning every data and mend cell to level 0. -/
  | erase (arr tag : Nat)
  /-- PROGRAM_ROWS (R109): Array command programming consecutive rows from hamper bytes by pulse-and-verify cycles and listing faulty cells. -/
  | programRows (arr tag : Nat)
  /-- REFRESH_ROWS (R112): Array command reading rows and raising drifted cells back into their windows, classing faults and lost cells. -/
  | refreshRows (arr tag : Nat)
  /-- VERIFY_ROW (R108): Array command converting the cells of one row alone into the verify buffer. -/
  | verifyRow (arr tag : Nat)
  /-- LEVEL_CHECK (R113): Array command sampling one row per group and classing the array ERASED, LEVELLED or MIXED. -/
  | levelCheck (arr tag : Nat)
  /-- REF_SWEEP (R114): Array command driving 0 to 8 reference rows and recording each converter's mean code. -/
  | refSweep (arr tag : Nat)
  /-- WRITE_SIDE (R115): Array command writing a 5,188-byte side-store block into the copy not in use and flipping the selector. -/
  | writeSide (arr tag : Nat)
  /-- EXCLUDE (R105): Array command placing an array in EXCLUDED at the end of its running product or command. -/
  | exclude (arr tag : Nat)
  /-- ARRAY_COMMAND_END (R107): A running array command completes, writing its result to ARR.CMD_STAT and raising its interrupt source. -/
  | arrayCommandEnd (arr : Nat) (reads finals : List (Nat × Nat)) (sweep : List Nat)
  /-- VPP_OUT_OF_REGULATION (R111): VPP_ARR leaves regulation, so running supply-bound commands end with ABORTED at the end of their pulse. -/
  | vppOutOfRegulation
  /-- NOP (R169): Sequencer operation that does nothing but may wait on and increment a counter. -/
  | nop (core : Nat) (h : OpHdr)
  /-- RESET_CTR (R144): Sequencer operation setting a synchronisation counter to 0 when it issues. -/
  | resetCtr (core : Nat) (h : OpHdr) (ctr : Nat)
  /-- FLIP (R141): Sequencer operation toggling the selector of a tile pair. -/
  | flip (core : Nat) (h : OpHdr) (tile : Nat)
  /-- BARRIER (R203): Sequencer operation sending a barrier arrival on the synchronisation network. -/
  | barrier (core : Nat) (h : OpHdr) (id participants : Nat)
  /-- ARRAY_INPUT_LOAD (R125): Array LOAD operation copying a quantised vector and its scales into the free input buffer of the named arrays. -/
  | arrayInputLoad (core : Nat) (h : OpHdr) (e : OpEnv) (mask : Nat) (fmt : Fmt) (buf elems scales ref count : Nat)
  /-- PRODUCT (R94): Array PRODUCT operation starting a group-by-group conversion of an input buffer against the stored weights. -/
  | product (core : Nat) (h : OpHdr) (arr buf k bank : Nat)
  /-- PRODUCT_END (R94): A product completes its last conversion and its 512 accumulators stand in an output bank. -/
  | productEnd (arr : Nat) (dev : List (Nat × Int)) (parity : Bool)
  /-- ACCUMULATE (R127): Core accumulator operation converting and summing array outputs per chain into FP32 or BF16 in the hamper. -/
  | accumulate (core : Nat) (h : OpHdr) (e : OpEnv) (chains : Nat) (bf16 : Bool) (table : Nat)
  /-- ROTQ (R129): Rotation and quantiser operation rotating and/or quantising a vector per its mode. -/
  | rotq (core : Nat) (h : OpHdr) (e : OpEnv) (m mode : Nat) (fmt : Fmt) (inBf16 : Bool) (seed src dst len : Nat)
  /-- MATMUL (R133): Digital product engine operation computing Z = X·Yᵀ over four-bit operands. -/
  | matmul (core : Nat) (h : OpHdr) (e : OpEnv) (x y z m n k32 flags : Nat)
  /-- VEC_ADD (R135): Vector unit addition. -/
  | vecAdd (core : Nat) (h : OpHdr) (e : OpEnv) (flags k a b dst len : Nat)
  /-- VEC_SUBTRACT (R135): Vector unit subtraction. -/
  | vecSubtract (core : Nat) (h : OpHdr) (e : OpEnv) (flags k a b dst len : Nat)
  /-- VEC_MULTIPLY (R135): Vector unit multiplication. -/
  | vecMultiply (core : Nat) (h : OpHdr) (e : OpEnv) (flags k a b dst len : Nat)
  /-- VEC_FMA (R135): Vector unit fused multiply-add with the addend at the destination. -/
  | vecFma (core : Nat) (h : OpHdr) (e : OpEnv) (flags k a b dst len : Nat)
  /-- VEC_MINIMUM (R135): Vector unit element-wise minimum. -/
  | vecMinimum (core : Nat) (h : OpHdr) (e : OpEnv) (flags k a b dst len : Nat)
  /-- VEC_MAXIMUM (R135): Vector unit element-wise maximum. -/
  | vecMaximum (core : Nat) (h : OpHdr) (e : OpEnv) (flags k a b dst len : Nat)
  /-- VEC_SCALE (R135): Vector unit multiply by an E8M0 scale vector, one byte per 32 elements. -/
  | vecScale (core : Nat) (h : OpHdr) (e : OpEnv) (flags k a b dst len : Nat)
  /-- VEC_COMPARE (R135): Vector unit compare writing a byte mask. -/
  | vecCompare (core : Nat) (h : OpHdr) (e : OpEnv) (flags k a b dst len : Nat)
  /-- VEC_SELECT (R135): Vector unit select by byte mask. -/
  | vecSelect (core : Nat) (h : OpHdr) (e : OpEnv) (flags k a b dst len : Nat)
  /-- VEC_CONVERT (R135): Vector unit conversion between FP32, BF16 and INT32. -/
  | vecConvert (core : Nat) (h : OpHdr) (e : OpEnv) (flags k a b dst len : Nat)
  /-- VEC_RECIPROCAL (R135): Vector unit reciprocal. -/
  | vecReciprocal (core : Nat) (h : OpHdr) (e : OpEnv) (flags k a b dst len : Nat)
  /-- VEC_RSQRT (R135): Vector unit reciprocal square root. -/
  | vecRsqrt (core : Nat) (h : OpHdr) (e : OpEnv) (flags k a b dst len : Nat)
  /-- VEC_EXP2 (R135): Vector unit base-2 exponential. -/
  | vecExp2 (core : Nat) (h : OpHdr) (e : OpEnv) (flags k a b dst len : Nat)
  /-- VEC_LOG2 (R135): Vector unit base-2 logarithm. -/
  | vecLog2 (core : Nat) (h : OpHdr) (e : OpEnv) (flags k a b dst len : Nat)
  /-- VEC_SUM (R136): Vector unit sum reduction in two phases. -/
  | vecSum (core : Nat) (h : OpHdr) (e : OpEnv) (flags k a b dst len : Nat)
  /-- VEC_MAX_REDUCTION (R136): Vector unit maximum reduction in two phases. -/
  | vecMaxReduction (core : Nat) (h : OpHdr) (e : OpEnv) (flags k a b dst len : Nat)
  /-- VEC_TOP_K (R137): Vector unit top-k selection returning INT32 indices. -/
  | vecTopK (core : Nat) (h : OpHdr) (e : OpEnv) (flags k a b dst len : Nat)
  /-- SEND (R198): Network operation sending hamper bytes to another core of the pitch. -/
  | send (core : Nat) (h : OpHdr) (e : OpEnv) (dest : Nat) (ctr : Option Nat) (src dst bytes : Nat)
  /-- MEM_READ (R215): Network operation reading key/value tokens of a bound slot's stream into the hamper. -/
  | memRead (core : Nat) (h : OpHdr) (e : OpEnv) (stream addr bytes token : Nat)
  /-- MEM_WRITE (R216): Network operation writing key/value tokens provisionally into a bound slot's pages. -/
  | memWrite (core : Nat) (h : OpHdr) (e : OpEnv) (stream addr bytes token : Nat)
  /-- PORT_SEND (R391): Network operation sending hamper bytes as LEG_DATA through a fabric port, or tokens to the host-port engine. -/
  | portSend (core : Nat) (h : OpHdr) (e : OpEnv) (port cls part dest : Nat) (ctr : Option Nat) (src dst bytes : Nat)
  /-- OPERATION_COMPLETE (R144): An operation completes and increments its named counter. -/
  | operationComplete (core idx : Nat)
  /-- TRANSFER_COMPLETE (R144): The last byte of a transfer reaches a hamper bank and the named counter is incremented. -/
  | transferComplete (idx : Nat)
  /-- REMOTE_INCREMENT (R146): A remote counter increment arrives; one of another frame is dropped and counted. -/
  | remoteIncrement (core ctr inc frame pitch : Nat)
  /-- GATHER_FLUSH_IDLE (R142): A gather-buffer entry that has taken no write for 32 cycles is written to its bank. -/
  | gatherFlushIdle (core line : Nat)
  /-- LEG_START (R149): The leg's declared start is reached with the previous leg finished; the sequencer enters RUN and the taster chooses a tile. -/
  | legStart (core : Nat)
  /-- LEG_END (R149): Every unit of a draining leg is idle and the gather buffer empty; the sequencer goes to ARMED or IDLE. -/
  | legEnd (core : Nat)
  /-- LEG_OVERRUN_STOP (R150): 25,600 cycles after a leg's start it is stopped, marked suspect OVERRUN and counted. -/
  | legOverrunStop (core : Nat)
  /-- SUSPECT_REPORT (R151): A suspect report reaches the leader half, which decides the leg's fate and gathers its replay input. -/
  | suspectReport (idx : Nat)
  /-- CRIB_FILL (R153): Crib command reading one column block of an array in MAINT into a taster slot. -/
  | cribFill (site slot arr cblock : Nat)
  /-- CRIB_FILL_END (R153): A crib fill ends with OK, making the slot VALID, or with GAP leaving it empty. -/
  | cribFillEnd (site : Nat) (codes : List (Nat × Nat)) (parity : Bool)
  /-- CRIB_DROP (R154): Crib command emptying a slot. -/
  | cribDrop (site slot : Nat)
  /-- TST_INJECT (R157): A write of INJECT makes the next taster comparison flag. -/
  | tstInject (path : Path) (site : Nat)
  /-- CORE_CLEAR (R160): At reset or a pitch change a core begins clearing its hamper, crib, buffers and counters. -/
  | coreClear (site : Nat)
  /-- CORE_CLEAR_COMPLETE (R161): After 1,024 cycles the clear ends, the core is IDLE and CLEARCNT counts it. -/
  | coreClearComplete (site : Nat)
  /-- LOAD (R172): Management command carrying an itinerary container, checked in order and answered with a result record. -/
  | load (c : Mgmt) (switch : Option Nat) (container : Bytes)
  /-- LOAD_CHECK_END (R172): The itinerary check ends; the frame state is judged again and the container takes a bank or is refused. -/
  | loadCheckEnd (timing : Nat) (cls sec rec detail : Nat)
  /-- UNLOAD (R177): Management command emptying a HALTED part and ending every request with DRAINED. -/
  | unload (c : Mgmt)
  /-- START (R176): Management command moving a HALTED part to ARMED, naming the first frame number. -/
  | start (c : Mgmt) (frame : Nat)
  /-- STOP (R177): Management command halting the part at the next boundary, or at once from ARMED. -/
  | stop (c : Mgmt)
  /-- CANCEL_LOAD (R192): Management command discarding a load under check or a pending replacement. -/
  | cancelLoad (c : Mgmt)
  /-- CLEAR_FRAME_COUNTERS (R196): Management command setting the cumulative frame-report counters to 0. -/
  | clearFrameCounters (c : Mgmt)
  /-- READ_FRAME_STATE (R328): Management command returning the frame state, frame, T_nom, itinerary and pending switch. -/
  | readFrameState (c : Mgmt)
  /-- WHISTLE_IN_EDGE (R396): A pulse on WHISTLE_IN qualified as an edge is treated by its time in the frame. -/
  | whistleInEdge (samples : Nat)
  /-- WHISTLE (R178): A whistle control message arrives and is accepted, held or ignored by its frame number and time. -/
  | whistle (src epoch frame : Nat)
  /-- WINDOW_OPEN (R179): The frame timer reaches 0.875·T_nom with an early whistle held, which is then accepted. -/
  | windowOpen
  /-- SELF_WHISTLE (R178): No whistle by 1.25·T_nom, so the part whistles itself. -/
  | selfWhistle
  /-- MANAGER_WHISTLE (R180): The manager whistles once T_nom has passed and all ready reports or LIST_ACKs are in, no later than 1.25·T_nom − 2 µs. -/
  | managerWhistle
  /-- READY_POINT (R174): The frame timer reaches 0.875·T_nom; missing exit tokens are reported and housekeeping may begin. -/
  | readyPoint
  /-- READY (R402): A READY control message reaches the whistling manager and sets the sender's ready bit. -/
  | ready (src frame : Nat)
  /-- READY_REPEAT (R394): A ready part repeats its READY every 4 µs until the next boundary. -/
  | readyRepeat
  /-- PITCH_FIELD_WRITE (R205): A write to a pitch field sets the pending copy. -/
  | pitchFieldWrite (path : Path) (addr value : Nat)
  /-- APPLY (R205): A write of 1 to NET.PITCH_CTL.APPLY checks the pending pitch copy and makes it current. -/
  | apply (path : Path)
  /-- ZEROING_COMPLETE (R207): A channel finishes zeroing and becomes UNASSIGNED. -/
  | zeroingComplete (ch : Nat)
  /-- PATROL_SCRUB (R211): Patrol scrub reads granules between the ready point and the boundary or while HALTED. -/
  | patrolScrub (granules : Nat) (errs : List (Nat × Nat × Bool))
  /-- PAGE_COPY (R282): Firmware copies a shared page so a bound request writes only pages of count 1. -/
  | pageCopy (pitch ctx stream place : Nat) (sel : Option Nat)
  /-- CROSSING_RESET (R220): One side of a clock crossing enters reset; the other flushes its queues and holds the crossing closed. -/
  | crossingReset (crossing : Nat) (lost : List Nat)
  /-- RELAY_PLAN (R228): A relay plan from the manager is accepted or refused and sets the relay session. -/
  | relayPlan (src epoch : Nat) (plan : RelayPlan)
  /-- RELAY_PIECE_ARRIVAL (R230): A relay piece arrives and is dropped, forwarded and/or kept for the own shard. -/
  | relayPieceArrival (p : Piece)
  /-- CHUNK_VERIFY (R232): A staged own chunk is hashed and compared with its leaf, then kept or requested again. -/
  | chunkVerify (chunk : Nat)
  /-- RELAY_STALLED (R234): No needed piece for 2 s: STALLED is reported and outstanding REQUESTs resent. -/
  | relayStalled
  /-- RELAY_END (R233): END from the manager returns a PROGRAMMED or FAILED session to IDLE. -/
  | relayEnd (src epoch : Nat)
  /-- CORE_PROGRAM_START (R235): Firmware starts programming a core's arrays once its chunks are verified and supply room allows. -/
  | coreProgramStart (core : Nat)
  /-- SCRUB_READ (R256): Firmware rebuilds an array's logical weights from its cells and forms its array digest. -/
  | scrubRead (arr : Nat)
  /-- SUBMIT (R261): A submission descriptor taken from a ring is checked and accepted or refused. -/
  | submit (q : Nat)
  /-- REGISTER (R262): A partner's registration message arrives and is matched or held. -/
  | register (pitch tag customer promptLen maxNew : Nat)
  /-- PARTNER_TIMEOUT (R262): A submission without a matching registration for PARTNER_TIMEOUT frames ends with NO_PARTNER. -/
  | partnerTimeout (pitch tag : Nat)
  /-- CANCEL (R265): Management command cancelling one request at the first boundary after the entry part holds it. -/
  | cancel (c : Mgmt) (tag : Nat)
  /-- CANCEL_MESSAGE (R265): A cancel passed on by the partner arrives over the fabric. -/
  | cancelMessage (pitch tag : Nat)
  /-- BINDING_SELECTION (R276): At the ready point plus 4 µs the entry part chooses bindings for the next frame and sends notices. -/
  | bindingSelection (pitch : Nat)
  /-- BINDING_NOTICE (R267): A binding notice arrives; the part writes its slot bindings and allocates pages. -/
  | bindingNotice (pitch frame : Nat) (binds : List Bind) (handles : List (Nat × Nat))
  /-- EXIT_REPORT (R268): The exit part's end and token report reaches the entry part. -/
  | exitReport (pitch frame : Nat) (items : List ExitItem)
  /-- SET_RATION (R273): Management command setting fields of one customer's ration for the next boundary. -/
  | setRation (c : Mgmt) (customer mask : Nat) (r : Ration)
  /-- READ_RATION (R328): Management command returning one customer's ration with PENDING. -/
  | readRation (c : Mgmt) (customer : Nat)
  /-- RELEASE_WAYMARK (R285): Management command ending a waymark at the next boundary. -/
  | releaseWaymark (c : Mgmt) (handle : Nat)
  /-- WAYMARK_MOVER (R288): During a rebuild the mover copies live entries of 512 old groups per frame to the new region. -/
  | waymarkMover (pitch : Nat)
  /-- SET_SERVING (R292): Management command setting AGE_LIMIT, PARTNER_TIMEOUT, TOKEN_CAPACITY or PIPELINE. -/
  | setServing (c : Mgmt) (param v1 v2 : Nat) (parts : List Nat)
  /-- READ_SERVING (R293): Management command returning the pitch's serving record. -/
  | readServing (c : Mgmt)
  /-- CLEAR_SERVING_COUNTERS (R293): Management command clearing the cumulative serving counters at the next boundary. -/
  | clearServingCounters (c : Mgmt)
  /-- LINK_RETRAIN (R295): The host link retrains or changes rate or width; host traffic waits meanwhile. -/
  | linkRetrain (up : Option (Nat × Nat × Bool))
  /-- DOORBELL_POLL (R301): Every POLL_US the part reads doorbell blocks and takes up to 32 submissions per queue. -/
  | doorbellPoll (reads : List DoorRead)
  /-- HELD_COMPLETION_WRITE (R306): A completion or refusal held for a full ring is written once room appears. -/
  | heldCompletionWrite (q : Nat)
  /-- QUEUE_ENABLE (R299): A write of 1 to HIF.Q_CTL.ENABLE while DISABLED checks the queue configuration and starts it. -/
  | queueEnable (path : Path)
  /-- QUEUE_DRAIN (R320): A write of 0 to ENABLE moves an ACTIVE or ERROR queue to DRAINING and cancels its requests. -/
  | queueDrain (path : Path)
  /-- HOST_INBOX_DELIVERY (R307): The host-port engine writes the declared inbox run to the core and increments its counter. -/
  | hostInboxDelivery (rec : Nat)
  /-- PROMPT_FETCH (R308): The entry part reads a chunk binding's prompt tokens from host memory. -/
  | promptFetch (pitch slot : Nat) (tokens : List Nat)
  /-- MSIX_UNMASK (R311): A masked vector with its pending bit set is unmasked and its message sent. -/
  | msixUnmask (fn vec : Nat)
  /-- MGMT_COMMAND_POLL (R313): Firmware reads CMD_TAIL of each window and takes the next command. -/
  | mgmtCommandPoll (reads : List (Nat × Nat × Nat × Nat)) (unknown : Option (Mgmt × Nat))
  /-- SET_TIME (R315): Management command setting the UTC clock and rederiving array ages. -/
  | setTime (c : Mgmt) (sec nsec : Nat)
  /-- POISONED_WRITE (R316): A poisoned write received by a window is discarded and counted. -/
  | poisonedWrite
  /-- HOST_LINK_FATAL_ERROR (R316): A malformed TLP, protocol error or surprise link-down resets the link. -/
  | hostLinkFatalError
  /-- FUNCTION_LEVEL_RESET (R317): An FLR disables the function's queues, ends its requests, resets its window and releases its role. -/
  | functionLevelReset (fn : Nat)
  /-- HOT_RESET (R318): A hot reset or link-down of the host link acts as an FLR on every function. -/
  | hotReset
  /-- BUS_MASTER_ENABLE_CHANGE (R318): A function's Bus Master Enable or D3hot state changes, stopping or resuming its host traffic. -/
  | busMasterEnableChange (fn : Nat) (bme d3 : Bool)
  /-- PERST_N (R459): PERST_N resets the host port alone while frames run on. -/
  | perstN (low : Bool)
  /-- RELAY_PIECE (R330): Management command supplying a relay piece from a seed's host, waiting for staging room. -/
  | relayPiece (c : Mgmt) (len : Nat) (p : Piece)
  /-- READ_RELAY_STATUS (R259): Management command returning the relay status record. -/
  | readRelayStatus (c : Mgmt)
  /-- READ_MASKED_MAP (R329): Management command returning masked-cell map entries to host memory. -/
  | readMaskedMap (c : Mgmt) (first : Nat)
  /-- READ_HISTORY (R373): Management command returning one unit's history record. -/
  | readHistory (c : Mgmt) (kind idx : Nat)
  /-- INTERRUPT_EDGE (R334): A rising edge on an interrupt source sets its pending bit or is merged. -/
  | interruptEdge (half id : Nat)
  /-- INTC_CLAIM (R336): A firmware read of INTC.CLAIM returns and claims the highest eligible source, or 1,023. -/
  | intcClaim (half target : Nat)
  /-- INTC_COMPLETE (R336): A firmware write of a claimed identity to INTC.CLAIM completes the source. -/
  | intcComplete (half target id : Nat)
  /-- FWCLK_STOP (R338): After 10 µs with all four cores idle, the kernel stops the half's firmware clock. -/
  | fwclkStop (half idleNs : Nat)
  /-- FWCLK_WAKE (R338): A latched enabled edge restarts a stopped firmware clock within 2 µs. -/
  | fwclkWake (half : Nat)
  /-- KERNEL_TICK (R322): The 4 µs kernel tick on each Ranger core restarts its watchdog. -/
  | kernelTick (rcore : Nat)
  /-- WATCHDOG_EXPIRY (R340): A watchdog expires 16 µs after its last restart and the Ranger core crashes. -/
  | watchdogExpiry (rcore : Nat)
  /-- RANGER_DOWN (R340): A Ranger core crashes by trap, SRAM error or crash code and is halted and reported. -/
  | rangerDown (rcore cause : Nat)
  /-- RANGER_TAKEOVER (R341): The sibling claims RANGER_DOWN and takes over the crashed core's queues and duties. -/
  | rangerTakeover (rcore : Nat)
  /-- RANGER_UP (R342): A reloaded Ranger core completes its reload and raises RANGER_UP. -/
  | rangerUp (rcore : Nat)
  /-- LEADERSHIP_CLAIM (R344): A complex writes CLAIM; granted when no holder, raising the epoch. -/
  | leadershipClaim (half : Nat)
  /-- LEADERSHIP_REFRESH (R345): The holder writes REFRESH with its epoch and restarts the latch timer. -/
  | leadershipRefresh (half epoch : Nat)
  /-- LEADERSHIP_LAPSE (R345): The latch timer reaches 50 µs and HOLDER becomes none. -/
  | leadershipLapse
  /-- REPLAY_REQUEST (R358): A partner receives a replay request and accepts or refuses it. -/
  | replayRequest (src frame group core leg : Nat) (input : List (Nat × Bytes))
  /-- REPLAY_RUN (R359): The partner starts an accepted replay once input, own legs and array commands allow. -/
  | replayRun (core : Nat)
  /-- REPLAY_OUTPUT (R360): A replay output arrives and, if clean, is placed and suppressed sends issued. -/
  | replayOutput (src frame core leg : Nat) (unclean : Bool) (hamper payloads : List (Nat × Bytes))
  /-- REPLAY_REFUSE (R358): A refusal arrives and the leg's slots are withheld. -/
  | replayRefuse (src frame core leg : Nat)
  /-- REPLAY_PENDING (R364): A pending-replay notice arrives, naming slots to withhold at a self-generated boundary. -/
  | replayPending (frame : Nat) (slots : List Nat)
  /-- SUPPRESSED (R356): A notice that a PORT_SEND to this part was held back arrives. -/
  | suppressed (frame core ctr : Nat)
  /-- REPLAY_GIVE_UP (R362): At 1.25·T_nom − 10 µs a replay without a clean result is abandoned and its slots withheld. -/
  | replayGiveUp (core leg : Nat)
  /-- WITHHOLD (R363): A withhold notice reaches the manager and joins its withheld list. -/
  | withhold (src frame : Nat) (slots : List Nat)
  /-- LIST (R363): The manager's withheld list arrives at a part, which answers LIST_ACK. -/
  | list (src epoch frame : Nat) (slots : List Nat)
  /-- LIST_ACK (R363): A part's acknowledgement of LIST reaches the whistling manager. -/
  | listAck (src frame : Nat)
  /-- WITHHELD_REPORT (R365): A part's report of withheld slots reaches the entry part, which ends diverged requests. -/
  | withheldReport (src frame : Nat) (slots : List Nat)
  /-- REPLAY_MAP (R354): A replay map from the manager assigns partners from the next boundary. -/
  | replayMap (src epoch : Nat) (map : List (Nat × Nat))
  /-- ROLL_CALL_DUE (R405): Every FRAMES frames the rack manager sends ROLL_CALL to its parts. -/
  | rollCallDue
  /-- ROLL_CALL (R367): A part receives a roll call and answers with the stripe digest or NOT_READY. -/
  | rollCall (src epoch n : Nat)
  /-- ROLL_ANSWER (R368): The manager compares an answer with the reference digest and may expel the part. -/
  | rollAnswer (src n shard : Nat) (digest : Option Bytes)
  /-- EXPEL (R369): An expelled part withdraws at the next boundary and marks differing arrays for repair. -/
  | expel (src epoch n stripe : Nat)
  /-- HISTORY_WRITE (R376): Each second pending history entries are written, up to 64, and stale ones dropped. -/
  | historyWrite
  /-- PORT_LINK_DOWN (R382): A fabric link goes down, frames in flight are lost and the port retrains. -/
  | portLinkDown (port cause : Nat)
  /-- PORT_UP (R382): A fabric port completes training and comes up. -/
  | portUp (port : Nat)
  /-- RETRAIN (R382): A write of RETRAIN takes the link down and trains it again. -/
  | retrain (path : Path) (port : Nat)
  /-- FABRIC_FRAME_RECEIVED (R390): A Rilnel frame arrives and is checked, then delivered or dropped. -/
  | fabricFrameReceived (port : Nat) (f : RxFrame)
  /-- XON_RESUME (R387): Receive-buffer occupancy falls to XON and the port resumes all classes. -/
  | xonResume (port drained drained1 : Nat)
  /-- PAUSE_REPEAT (R387): Every 20 µs above XON the port repeats its pause. -/
  | pauseRepeat (port : Nat)
  /-- PFC_PAUSE_RECEIVED (R386): A priority pause from the link partner holds the port's frames of a class. -/
  | pfcPauseReceived (port : Nat) (quanta : List (Nat × Nat))
  /-- ACK (R392): An ACK for a firmware message arrives, ending its resends and returning credit. -/
  | ack (src : Nat) (seq : Option Nat) (units : Nat)
  /-- MESSAGE_RESEND (R392): 50 µs without ACK: the message is sent again, or given up after three resends. -/
  | messageResend (part seq : Nat)
  /-- MANAGER_CLAIM (R408): A manager CLAIM arrives; parts name the claimant and the old manager stands by. -/
  | managerClaim (src epoch : Nat)
  /-- WITHDRAW (R406): A WITHDRAW message withdraws the part from serving at the next boundary. -/
  | withdraw (src epoch part : Nat)
  /-- ADMIT (R406): An ADMIT message readmits the part at the next boundary. -/
  | admitPart (src epoch part : Nat)
  /-- CUT (R410): A failed part receives CUT, withdraws, answers CUT_ACK and unassigns its number. -/
  | cut (src epoch : Nat)
  /-- CUT_ACK (R410): The manager receives CUT_ACK and proceeds with substitution. -/
  | cutAck (src : Nat)
  /-- CUT_TIMEOUT (R410): After 1 s with nothing from the failed part the manager proceeds without CUT_ACK. -/
  | cutTimeout
  /-- ASSUME (R410): A spare takes the failed part's number into PRT.PARTNUM and answers ASSUME_ACK. -/
  | assume (src epoch number : Nat)
  /-- ASSUME_ACK (R410): The manager receives ASSUME_ACK and replans replay and relay around the gap. -/
  | assumeAck (src : Nat)
  /-- CONVERSION_START (R418): A write of START to MET.CONV latches settings and wakes the metrology converter. -/
  | conversionStart (value : Nat)
  /-- URGENT_CONVERSION (R419): A write of URGENT starts a conversion at once or holds it behind the running one. -/
  | urgentConversion (value : Nat)
  /-- CONVERTER_WAKE (R417): After the 400 µs wake delay the converter begins converting. -/
  | converterWake
  /-- ROUTINE_CONVERSION (R420): The leader starts the next channel of the routine sequence. -/
  | routineConversion
  /-- CONVERSION_COMPLETE (R418): A conversion ends, its result goes to the held value and identity 320 is raised. -/
  | conversionComplete (code : Int)
  /-- REFIN_FAULT (R415): The REFIN window comparator or a channel-2 result out of band sets REFIN_FAULT. -/
  | refinFault (ok : Bool)
  /-- HELD_VALUE_STALE (R421): A held value's age exceeds its limit and it is marked STALE. -/
  | heldValueStale (ch : Nat)
  /-- REFIN_WRITE (R414): A write of MET.REFIN.UV in range is stored in the vault, audited and makes held values stale. -/
  | refinWrite (path : Path) (value : Nat)
  /-- THERMAL_TRIP (R426): The trip condition held 10 µs latches the trip, drives THERMTRIP_N and lowers the rails. -/
  | thermalTrip (low opn : Bool)
  /-- TRIP_BLANK_END (R425): 1 ms after VDD_AON reaches regulation blanking ends and a present condition trips at once. -/
  | tripBlankEnd (low opn : Bool)
  /-- TRIP_TEST (R426): A maker write of THM.TRIP.TEST trips the comparator. -/
  | tripTest (path : Path)
  /-- REGION_TRIM_ADJUST (R428): Firmware sets a region reference to 1.200000 V through channel 4 while HALTED, EMPTY or at start. -/
  | regionTrimAdjust (region : Nat) (code : Option Nat)
  /-- CALIBRATE_ARRAY (R430): An array is recalibrated in a rest stop by reference sweeps and trim adjustment. -/
  | calibrateArray (arr : Nat) (m0 m1 m2 : List Nat)
  /-- POWER_ON (R458): VDD_AON rises above its power-on-reset level and every domain resets. -/
  | powerOn
  /-- SYS_RST_N_ASSERT (R459): SYS_RST_N held low 10 µs resets the system domain and lowers the rails. -/
  | sysRstNAssert
  /-- SYS_RST_N_RELEASE (R438): Release of SYS_RST_N samples the straps and begins raising the commanded rails. -/
  | sysRstNRelease (mode addr : Nat)
  /-- RAIL_RAMP_READ (R438): Every 250 µs during sequencing READ_VOUT is read and the next rail raised when in tolerance. -/
  | railRampRead (read : Option Nat)
  /-- BOOT_STEP_END (R462): A start-up step ends; its outcome is written to the boot ledger and the next step begins. -/
  | bootStepEnd (bad second : Nat) (checks : List ArrCheck)
  /-- CLEAR_ALT (R463): A write of PWR.BOOT.CLEAR_ALT clears altered choices from the next start. -/
  | clearAlt (path : Path)
  /-- OFF (R439): A write of PWR.RESET.OFF lowers every rail and enters Off. -/
  | off (path : Path)
  /-- SYSRST (R458): A write of PWR.RESET.SYSRST performs a system reset and cold start. -/
  | sysrst (path : Path)
  /-- REFCLK_LOSS (R456): No REFCLK edge for 120 ns resets the part as SYS_RST_N does. -/
  | refclkLoss
  /-- REFCLK_RESTORED (R456): REFCLK has run for 1 ms after a loss and a cold start follows. -/
  | refclkRestored
  /-- PMBUS_POLL (R442): Every 10 ms the part reads READ_VOUT and READ_IOUT of each rail, applying deficit and fault rules. -/
  | pmbusPoll (reads : List (Nat × Option Nat))
  /-- PM_ALERT (R442): PM_ALERT_N falls and STATUS_WORD of every rail is read. -/
  | pmAlert (status : List (Nat × Option Nat))
  /-- VPP_RAISE (R442): Firmware raises VPP_ARR before a batch of supply-bound commands. -/
  | vppRaise
  /-- VPP_LOWER (R442): 1 s after the last supply-bound command ends firmware lowers VPP_ARR. -/
  | vppLower
  /-- DROOP_STRETCH (R443): VDD_CORE crossing 40 mV below set-point stretches every core clock. -/
  | droopStretch
  /-- DROOP_END (R443): The voltage has stayed above the level 100 ns and the stretch ends. -/
  | droopEnd
  /-- POWER_ESTIMATE (R448): Every 1 µs the power is estimated and a clamp applied above the peak or sustained limit. -/
  | powerEstimate (watts : Nat)
  /-- CLAMP_ADJUST (R449): Every 100 µs while clamped the clock is lowered, raised or released. -/
  | clampAdjust
  /-- STATE_REQ (R451): A write of PWR.STATE_REQ requests Active, Idle or Doze, refused in ARMED or RUNNING. -/
  | stateReq (path : Path) (value : Nat)
  /-- POWER_STATE (R452): A requested power-state change completes and is posted. -/
  | powerState
  /-- PLL_UNLOCK (R455): A region PLL loses lock and the clocks of all eight regions stop. -/
  | pllUnlock (regions : Nat)
  /-- PLL_RELOCK (R455): Every region PLL has relocked and the core clocks restart. -/
  | pllRelock
  /-- PWR_WARN (R461): PWR_WARN_N changes level, blocking or allowing programming and updates. -/
  | pwrWarn (low : Bool)
  /-- POWERED_HOUR (R457): Each whole powered hour the count is written to the vault. -/
  | poweredHour
  /-- ATOMIC_RECORD_WRITE (R469): A record is written through the journal to its place and the entry marked done. -/
  | atomicRecordWrite (addr : Nat) (data : Bytes) (steps : Nat) (remap : Bool)
  /-- ROLE_CHALLENGE (R486): Command returning a nonce for role authentication. -/
  | roleChallenge (c : Mgmt)
  /-- ROLE_ASSUME (R486): Command granting a role on a valid signature over the nonce, with lockout after eight failures. -/
  | roleAssume (c : Mgmt) (role idx : Nat) (sig : Bytes)
  /-- LOCKOUT_END (R486): 60 s after a lockout the function may challenge again. -/
  | lockoutEnd (fn : Nat)
  /-- NONCE_EXPIRY (R486): A nonce unused for 10 s becomes invalid. -/
  | nonceExpiry (fn : Nat)
  /-- ROLE_RELEASE (R488): Command ending the function's role. -/
  | roleRelease (c : Mgmt)
  /-- KEY_SET (R487): Command installing or replacing an operator or installer key after a key check. -/
  | keySet (c : Mgmt) (role idx mask : Nat) (key : Bytes)
  /-- KEY_REMOVE (R487): Command removing an operator or installer key, ending roles it authenticated. -/
  | keyRemove (c : Mgmt) (role idx : Nat)
  /-- PUBKEY_SET (R487): Command installing a publisher key after a key check. -/
  | pubkeySet (c : Mgmt) (idx : Nat) (key : Bytes)
  /-- PUBKEY_REMOVE (R487): Command removing a publisher key. -/
  | pubkeyRemove (c : Mgmt) (idx : Nat)
  /-- LOCK (R489): Command setting or clearing the installer lock. -/
  | lock (c : Mgmt) (value : Nat)
  /-- READ_AUDIT (R494): Command returning audit entries from a given SEQ. -/
  | readAudit (c : Mgmt) (first : Nat)
  /-- READ_KEYS (R497): Command returning each key's index, role, mask and fingerprint. -/
  | readKeys (c : Mgmt)
  /-- AUDIT_FLUSH (R493): A waiting audit entry is written to the vault and given its SEQ. -/
  | auditFlush
  /-- UPDATE_BEGIN (R474): Command opening an update session with a checked header and copying the companion component. -/
  | updateBegin (c : Mgmt) (slot : Nat) (header : Bytes)
  /-- UPDATE_DATA (R474): Command storing a piece of the component body at the next offset. -/
  | updateData (c : Mgmt) (off : Nat) (data : Bytes)
  /-- UPDATE_END (R474): Command checking the body and writing the slot descriptor. -/
  | updateEnd (c : Mgmt)
  /-- UPDATE_ABORT (R474): Command ending the update session. -/
  | updateAbort (c : Mgmt)
  /-- SESSION_ABORTED (R476): A warning, relay plan or reset aborts the update session or pending activation. -/
  | sessionAborted
  /-- ACTIVATE (R477): Command setting a runtime image running by pause or handover. -/
  | activate (c : Mgmt) (slot frame : Nat)
  /-- ACTIVATION_PAUSE (R478): At the latest of ready point, notices and replay, Ranger stops and the new image starts. -/
  | activationPause (staged : Bool)
  /-- START_FAILED (R479): The new image not started within 1.2 ms; the old image is restored. -/
  | startFailed
  /-- ACTIVATION_HANDOVER (R480): The follower is reloaded with the new image and takes leadership after a lapse. -/
  | activationHandover
  /-- CONFIRM (R482): Command confirming a slot and raising SVN_MIN. -/
  | confirm (c : Mgmt) (slot : Nat)
  /-- READ_UPDATE (R497): Command returning both slot descriptors and the confirmed-slot record. -/
  | readUpdate (c : Mgmt)
  /-- DIAG_UNLOCK (R490): Maker command setting the diagnostic unlock. -/
  | diagUnlock (c : Mgmt)
  /-- SIGNATURE_REQUEST (R496): A request is accepted by the signature engine or waits for a place. -/
  | signatureRequest (key digest sig : Bytes)
  /-- SIGNATURE_ANSWER (R496): 1.9 ms after acceptance the engine answers with its code. -/
  | signatureAnswer
  /-- SET_OFFSET (R526): SMBus command setting the read offset and count. -/
  | setOffset (addr off : Nat) (count : Option Nat) (pec : Bool)
  /-- SMB_READ (R526): SMBus command reading registers from the offset and advancing it. -/
  | smbRead (addr : Nat) (stall : Bool)
  /-- WRITE_SEL (R526): SMBus command writing a selector's SMBus copy. -/
  | writeSel (addr off value : Nat) (pec : Bool)
  /-- SMB_STATUS (R526): SMBus command returning and clearing the target's status bits. -/
  | smbStatus (addr : Nat)
  /-- ALERT_RESPONSE (R525): A read of the Alert Response Address releases SMB_ALERT_N if no cause remains. -/
  | alertResponse
  /-- SMB_BUS_TIMEOUT (R525): SCL held low 25–35 ms makes the target release the bus. -/
  | smbBusTimeout (lowUs : Nat)
  /-- POWER_FAILURE (R189): Supply, VDD_AON included, is lost: all volatile state is lost, vault writes keep old or new records, and the trip latch and always-on state clear. -/
  | powerFailure
  /-- COMPLETION_TIMEOUT (R316): A read of host memory receives no completion in time and is counted, retried at the next poll or frame, or puts the queue in ERROR with READ_FAIL. -/
  | completionTimeout (read : HostRead) (kind : Nat)
  /-- PAUSE_TIME_EXPIRY (R386): The pause time that a received priority pause imposed on a class runs out, and the port's frames of that class are sent again. -/
  | pauseTimeExpiry (port cls : Nat)
  /-- CREDIT_REQUEST (R393): A credit request for a firmware message larger than the standing credit arrives and is granted, oldest first, from free space. -/
  | creditRequest (src units : Nat)
  /-- BEAT_RECEIVED (R407): A standby manager receives its manager's BEAT and records the next roll-call number and that a BEAT has come since the last self-generated boundary. -/
  | beatReceived (src epoch nextRoll rollIn : Nat)
  /-- VPP_ARR_IN_REGULATION (R442): VPP_ARR reaches regulation after being raised, VPP_ON sets, and supply-bound commands stop being refused with SUPPLY_LOW. -/
  | vppArrInRegulation
  /-- VF_ENABLE (R317): Host software sets or clears VF Enable: clearing acts as a Function Level Reset on every virtual function, and setting brings new MSI-X table sizes into force. -/
  | vfEnable (on : Bool)
  /-- LANE_REFCLK_LOSS (R456): PCIE_REFCLK or ETH_REFCLK stops, its status bit in CLK.STATUS clears, and the host link or all fabric ports go down. -/
  | laneRefclkLoss (eth : Bool)
  /-- LANE_REFCLK_RESTORED (R456): PCIE_REFCLK or ETH_REFCLK runs again, its status bit sets, and the host link or the fabric ports may train. -/
  | laneRefclkRestored (eth : Bool)
  /-- RELAY_STATUS (R259): A part's relay status record reaches its rack manager, which learns of needed chunks, PROGRAMMED or FAILED sessions and plans relay accordingly. -/
  | relayStatus (src state result need shard peer self : Nat)
  deriving DecidableEq, Repr

end Sys2Proof
end

