-- ==== Sys2Proof/Decode.lean ====
section
/-!
DEFINITION. Reading a command from a word.  spec/opcode_table.json gives no row any bits: the part's commands reach it as
register accesses, ring entries, messages, pin edges and internal events, and no word spells one of them.
-/

namespace Sys2Proof

/-- The command that a word of the table's bits spells: none, as the table gives no bits (log entry 5). -/
def decodeTableWord (_nbits _w : Nat) : Option Instr := none

end Sys2Proof
end

