-- ==== Sys2Proof/Machine/Crypto.lean ====
section
/-!
DEFINITION. The published checks the part uses (00_scope R25): CRC-32 of IEEE 802.3, SHA-384 (FIPS 180-4) and ECDSA
P-384 verification (FIPS 186-5).  Their content is PRESUMED from the standards the spec names.
-/

namespace Sys2Proof.Machine

/-! CRC-32 (03_cim_arrays R87). -/

/-- `n` steps of the reflected CRC-32 register. -/
def crcBits : Nat → Nat → Nat
  | 0, c => c
  | n + 1, c => crcBits n (if c % 2 = 1 then (c / 2) ^^^ 0xEDB88320 else c / 2)

/-- The CRC-32 of a byte string. -/
def crc32 (bs : Bytes) : Nat :=
  (bs.foldl (fun c b => crcBits 8 (c ^^^ b.toNat)) 0xFFFFFFFF) ^^^ 0xFFFFFFFF

/-! SHA-384. -/

/-- The 80 round constants. -/
def shaK : List (BitVec 64) :=
  [0x428a2f98d728ae22, 0x7137449123ef65cd, 0xb5c0fbcfec4d3b2f, 0xe9b5dba58189dbbc,
   0x3956c25bf348b538, 0x59f111f1b605d019, 0x923f82a4af194f9b, 0xab1c5ed5da6d8118,
   0xd807aa98a3030242, 0x12835b0145706fbe, 0x243185be4ee4b28c, 0x550c7dc3d5ffb4e2,
   0x72be5d74f27b896f, 0x80deb1fe3b1696b1, 0x9bdc06a725c71235, 0xc19bf174cf692694,
   0xe49b69c19ef14ad2, 0xefbe4786384f25e3, 0xfc19dc68b8cd5b5, 0x240ca1cc77ac9c65] ++
  [0x2de92c6f592b0275, 0x4a7484aa6ea6e483, 0x5cb0a9dcbd41fbd4, 0x76f988da831153b5,
   0x983e5152ee66dfab, 0xa831c66d2db43210, 0xb00327c898fb213f, 0xbf597fc7beef0ee4,
   0xc6e00bf33da88fc2, 0xd5a79147930aa725, 0x6ca6351e003826f, 0x142929670a0e6e70,
   0x27b70a8546d22ffc, 0x2e1b21385c26c926, 0x4d2c6dfc5ac42aed, 0x53380d139d95b3df,
   0x650a73548baf63de, 0x766a0abb3c77b2a8, 0x81c2c92e47edaee6, 0x92722c851482353b] ++
  [0xa2bfe8a14cf10364, 0xa81a664bbc423001, 0xc24b8b70d0f89791, 0xc76c51a30654be30,
   0xd192e819d6ef5218, 0xd69906245565a910, 0xf40e35855771202a, 0x106aa07032bbd1b8,
   0x19a4c116b8d2d0c8, 0x1e376c085141ab53, 0x2748774cdf8eeb99, 0x34b0bcb5e19b48a8,
   0x391c0cb3c5c95a63, 0x4ed8aa4ae3418acb, 0x5b9cca4f7763e373, 0x682e6ff3d6b2b8a3,
   0x748f82ee5defb2fc, 0x78a5636f43172f60, 0x84c87814a1f0ab72, 0x8cc702081a6439ec] ++
  [0x90befffa23631e28, 0xa4506cebde82bde9, 0xbef9a3f7b2c67915, 0xc67178f2e372532b,
   0xca273eceea26619c, 0xd186b8c721c0c207, 0xeada7dd6cde0eb1e, 0xf57d4f7fee6ed178,
   0x6f067aa72176fba, 0xa637dc5a2c898a6, 0x113f9804bef90dae, 0x1b710b35131c471b,
   0x28db77f523047d84, 0x32caab7b40c72493, 0x3c9ebe0a15c9bebc, 0x431d67c49c100d4c,
   0x4cc5d4becb3e42b6, 0x597f299cfc657e2a, 0x5fcb6fab3ad6faec, 0x6c44198c4a475817]

/-- The initial hash value. -/
def shaInit : List (BitVec 64) := [0xcbbb9d5dc1059ed8, 0x629a292a367cd507, 0x9159015a3070dd17, 0x152fecd8f70e5939, 0x67332667ffc00b31, 0x8eb44a8768581511, 0xdb0c2e0d64f98fa7, 0x47b5481dbefa4fa4]

/-- The message padded to whole 128-byte blocks. -/
def shaPad (m : Bytes) : Bytes :=
  let z := (239 - m.length % 128) % 128
  m ++ [0x80] ++ List.replicate z 0 ++ toBe 16 (8 * m.length)

/-- The big-endian 64-bit words of a block. -/
def shaWords : Nat → Bytes → List (BitVec 64)
  | 0, _ => []
  | n + 1, b => BitVec.ofNat 64 (beNat (b.take 8)) :: shaWords n (b.drop 8)

/-- The message schedule, newest word first, from the first 16 words. -/
def shaSchedule : Nat → List (BitVec 64) → List (BitVec 64)
  | 0, w => w
  | n + 1, w =>
    let w15 := w.getD 14 0
    let w2 := w.getD 1 0
    let s0 := w15.rotateRight 1 ^^^ w15.rotateRight 8 ^^^ (w15 >>> 7)
    let s1 := w2.rotateRight 19 ^^^ w2.rotateRight 61 ^^^ (w2 >>> 6)
    shaSchedule n ((w.getD 15 0 + s0 + w.getD 6 0 + s1) :: w)

/-- One round on the eight working words. -/
def shaRound (h : List (BitVec 64)) (kw : BitVec 64 × BitVec 64) : List (BitVec 64) :=
  match h with
  | [a, b, c, d, e, f, g, hh] =>
    let s1 := e.rotateRight 14 ^^^ e.rotateRight 18 ^^^ e.rotateRight 41
    let ch := (e &&& f) ^^^ (~~~e &&& g)
    let t1 := hh + s1 + ch + kw.1 + kw.2
    let s0 := a.rotateRight 28 ^^^ a.rotateRight 34 ^^^ a.rotateRight 39
    let mj := (a &&& b) ^^^ (a &&& c) ^^^ (b &&& c)
    [t1 + (s0 + mj), a, b, c, d + t1, e, f, g]
  | x => x

/-- One block folded into the hash value. -/
def shaBlock (h : List (BitVec 64)) (blk : Bytes) : List (BitVec 64) :=
  let w := (shaSchedule 64 (shaWords 16 blk).reverse).reverse
  List.zipWith (· + ·) h ((shaK.zip w).foldl shaRound h)

/-- The blocks of a padded message, `n` of them. -/
def shaBlocks : Nat → List (BitVec 64) → Bytes → List (BitVec 64)
  | 0, h, _ => h
  | n + 1, h, m => shaBlocks n (shaBlock h (m.take 128)) (m.drop 128)

/-- SHA-384: 48 bytes. -/
def sha384 (m : Bytes) : Bytes :=
  let p := shaPad m
  ((shaBlocks (p.length / 128) shaInit p).take 6).flatMap fun w => toBe 8 w.toNat

/-! ECDSA P-384. -/

/-- The field prime of P-384. -/
def p384 : Nat := 2 ^ 384 - 2 ^ 128 - 2 ^ 96 + 2 ^ 32 - 1

/-- The order of the group. -/
def n384 : Nat := 0xFFFFFFFFFFFFFFFFFFFFFFFFFFFFFFFFFFFFFFFFFFFFFFFFC7634D81F4372DDF581A0DB248B0A77AECEC196ACCC52973

/-- The coefficient b of the curve (the coefficient a is -3). -/
def b384 : Nat := 0xB3312FA7E23EE7E4988E056BE3F82D19181D9C6EFE8141120314088F5013875AC656398D8A2ED19D2A85C8EDD3EC2AEF

/-- The base point. -/
def g384 : Nat × Nat :=
  (0xAA87CA22BE8B05378EB1C71EF320AD746E1D3B628BA79B9859F741E082542A385502F25DBF55296C3A545E3872760AB7,
   0x3617DE4A96262C6F5D9E98BF9292DC29F8F41DBD289A147CE9DA3113B5F0B8C00A60B1CE1D7E819D7A431D7C90EA0E5F)

/-- b^e modulo m over the low `n` bits of e. -/
def powMod (m : Nat) : Nat → Nat → Nat → Nat → Nat
  | 0, _, _, acc => acc
  | n + 1, b, e, acc => powMod m n (b * b % m) (e / 2) (if e % 2 = 1 then acc * b % m else acc)

/-- The inverse modulo a prime below 2^384. -/
def invMod (m a : Nat) : Nat := powMod m 384 (a % m) (m - 2) 1

/-- Addition on the curve; `none` is the point at infinity. -/
def ecAdd : Option (Nat × Nat) → Option (Nat × Nat) → Option (Nat × Nat)
  | none, q => q
  | p, none => p
  | some (x1, y1), some (x2, y2) =>
    if x1 = x2 && (y1 + y2) % p384 = 0 then none
    else
      let l :=
        if x1 = x2 then (3 * x1 * x1 + (p384 - 3)) * invMod p384 (2 * y1) % p384
        else (y2 + p384 - y1) * invMod p384 (x2 + p384 - x1) % p384
      let x3 := (l * l + 2 * p384 - x1 - x2) % p384
      let y3 := (l * (x1 + p384 - x3) + p384 - y1) % p384
      some (x3, y3)

/-- k·P over the low `n` bits of k. -/
def ecMul : Nat → Nat → Option (Nat × Nat) → Option (Nat × Nat) → Option (Nat × Nat)
  | 0, _, _, acc => acc
  | n + 1, k, p, acc => ecMul n (k / 2) (ecAdd p p) (if k % 2 = 1 then ecAdd acc p else acc)

/-- Whether coordinates name a point of the curve. -/
def onCurve (x y : Nat) : Bool :=
  decide (x < p384) && decide (y < p384) && decide (y * y % p384 = (x * x * x + (p384 - 3) * x + b384) % p384)

/-- Whether 97 bytes are an uncompressed public key on the curve (FIPS 186-5; 15_update_and_roles R487). -/
def keyOk (key : Bytes) : Bool :=
  decide (key.length = 97) && key.headD 0 == 4 && onCurve (beNat (slice key 1 48)) (beNat (slice key 49 48))

/-- ECDSA P-384 over a SHA-384 digest: the key is 97 bytes, the signature r and s of 48 big-endian bytes each. -/
def ecdsaVerify (key digest sig : Bytes) : Bool :=
  let r := beNat (slice sig 0 48)
  let s := beNat (slice sig 48 48)
  if keyOk key && decide (sig.length = 96) && decide (0 < r) && decide (r < n384) && decide (0 < s) && decide (s < n384) then
    let w := invMod n384 s
    let u1 := beNat digest * w % n384
    let u2 := r * w % n384
    let q := some (beNat (slice key 1 48), beNat (slice key 49 48))
    match ecAdd (ecMul 384 u1 (some g384) none) (ecMul 384 u2 q none) with
    | some (x, _) => decide (x % n384 = r)
    | none => false
  else false

end Sys2Proof.Machine
end

