-- ==== Sys2Proof/Config.lean ====
section
/-!
DEFINITION. What an implementation fixes and the values the spec leaves open.  Every constant here is free: it has no
body, and no proof can see a value of it (log entries 3 and 6).
-/

namespace Sys2Proof

/-- The part's random source (08_serving R283, 15_update_and_roles R486): draw number `n`.  Free. -/
opaque Config.random : Nat → Nat

/-- The error of the vector unit's reciprocal, reciprocal square root, exponential and logarithm (Table 2-6 bounds it
by two units in the last place): by operation and operand.  Free. -/
opaque Config.vecError : Nat → Nat → Nat

/-- Which relation the vector unit's compare tests (04_core Table 4-3 does not say): on the places of its two operands
in the order of numbers.  Free. -/
opaque Config.vecCompare : Int → Int → Bool

/-- The byte a compare writes for true; Table 5-7 says only that select takes a nonzero byte.  Free. -/
opaque Config.maskByte : Nat

/-- The maker keys of the boot ROM (R486), 97 bytes each.  Free. -/
opaque Config.makerKey : Nat → Bytes

/-- How many maker keys the boot ROM holds.  Free. -/
opaque Config.makerKeys : Nat

/-- The two Molatex firmware keys of the boot ROM (R471).  Free. -/
opaque Config.firmwareKey : Nat → Bytes

/-- The revocation fuses of maker keys and of firmware keys (R471, R486).  Free. -/
opaque Config.makerRevoked : Nat → Bool
/-- The same of firmware keys. -/
opaque Config.firmwareRevoked : Nat → Bool

/-- Other values that a rule leaves open where the part goes on: by rule number and by operand.  Free. -/
opaque Config.openValue : Nat → Nat → Nat

/-- Factory constant of an array: codes of RWL per unit of gain, in 1/65,536, at a die temperature in 1/64 °C (13 R430).  Free. -/
opaque Config.codesPerGain : Nat → Int → Int

/-- Factory constant of an array: codes of BOT per LSB of offset, in 1/65,536 (13 R430).  Free. -/
opaque Config.codesPerLsb : Nat → Int

/-- Factory codes of an array's trims (TOP, BOT, RWL, SBIAS) at 25, 60 and 95 °C (13 R434).  Free. -/
opaque Config.factoryCode : Nat → Nat → Nat → Nat

end Sys2Proof
end

