-- ==== Sys2Proof/Machine/HistData.lean ====
section
/-!
DEFINITION. The data of the fault history (11_integrity_and_recovery R372 to R378).
-/

namespace Sys2Proof.Machine

/-- A history record (Table 11-7) but for KIND, INDEX and CRC: the windows newest first (powered hour, errors), the replay
counters of a half record in the order of Table 11-8a. -/
structure HistRec where
  cls : Nat
  windows : List (Nat × Nat)
  total : Nat
  lastCause : Nat
  lastUtc : Nat
  dropped : Nat
  replay : List Nat
  deriving DecidableEq, Repr

/-- A clean record. -/
def HistRec.init : HistRec := ⟨0, [], 0, 0, 0, 0, []⟩

/-- The pending entry of a unit (R376): kind, index, errors, cause bits, the powered hour and the time of its first error. -/
structure HistPend where
  kind : Nat
  index : Nat
  errors : Nat
  cause : Nat
  hour : Nat
  first : Nat
  deriving DecidableEq, Repr

/-- The history: records at 1,048,576·kind + index; pending entries in order of their first error; when entries were last
written; the second in which HISTORY_DROPPED was last posted (plus 1, 0 for never); replay counters of each half not yet in
the vault (12·half + counter). -/
structure HistSt where
  recs : SMap HistRec
  pend : List HistPend
  lastWrite : Option Nat
  dropPosted : Nat
  replay : SMap Nat
  deriving DecidableEq, Repr

/-- No error recorded. -/
def HistSt.init : HistSt := ⟨[], [], none, 0, []⟩

end Sys2Proof.Machine
end

