-- ==== Sys2Proof/Machine/Regs.lean ====
section
/-!
DEFINITION. The register fields of the part and the registers they stand in: one `Fld` per named field of the
register tables of chapters 01, 03, 04, 06, 09, 10, 12, 13, 14 and 15, and the block tables of 16_register_map
Table 16-1.  A field has one home in `State.fields`; reserved bits have none and read 0 (R18).
-/

namespace Sys2Proof.Machine

/-- Access codes (00_scope Table 0-6). -/
inductive Access where
  | ro | rw | wo | w1c | rc | rwl
  deriving DecidableEq, Repr

/-- The Role column (R19): the lowest role that may write a field; `fw` is Ranger firmware alone. -/
inductive WRole where
  | none | opr | ins | mkr | fw
  deriving DecidableEq, Repr

/-- Where a field's value comes from when the Reset column names a load and no number (R504). -/
inductive Load where
  | none | fused | strap | vault | side | spare | fixed
  deriving DecidableEq, Repr

/-- What a write stores, for the fields whose Meaning column says more than "the value written". -/
inductive Store where
  | plain
  | clamp (lo hi : Nat)        -- outside the range, the nearer limit
  | cap (hi : Nat)             -- above `hi`, `hi`
  | floorIgnored (lo : Nat)    -- a write below `lo` is ignored
  | aboveIgnored (hi : Nat)    -- a write above `hi` is ignored
  | zeroIsOne                  -- TST.SEED
  | step50                     -- PWR.CLAMPCFG.MHZ: 800 to 1,550 in steps of 50, the next lower step
  | vectors                    -- HIF.FN_VEC.VECTORS: 0, or a sum above 2,048, is ignored
  | xon | xoff                 -- PRT.RXCFG: a write leaving XON >= XOFF is ignored
  | portEnable                 -- PRT.CTL.ENABLE: ignores writes while the port is DISABLED
  deriving DecidableEq, Repr

/-- One register field.  `rep` is the number of like fields side by side in one word (the priority, pending and
enable words of INTC), 1 for every other field.  `own` marks a field whose write is an operation of its own. -/
structure Fld where
  code : Nat
  lo : Nat
  width : Nat
  rep : Nat
  access : Access
  role : WRole
  reset : Nat
  load : Load
  store : Store
  own : Bool
  deriving DecidableEq, Repr

/-- How the place of a register's fields is found (Table 16-5): directly by its instance; as a selector or a latch
with a copy per access path; or through the selector that governs it. -/
inductive Bank where
  | plain
  | sel (perVf : Bool)
  | latch
  | rowmap | ctr | rm | pitch | pitchCh | chState | fn | ownFn | queue | qmap | dom | cal | rail | boot | secFn | slot
  deriving DecidableEq, Repr

/-- One row of a block's table: `count` registers of one layout from `off`, `stride` bytes apart. -/
structure RegInfo where
  off : Nat
  count : Nat
  stride : Nat
  bank : Bank
  flds : List Fld
  deriving DecidableEq, Repr

/-- The blocks of Table 16-1; `arrSite` is the site register beside an array block. -/
inductive Block where
  | glb | net | mem | hif | rgr | met | thm | pwr | clk | vlt | sec | upd | intc | prt | core | tst | arr | arrSite
  deriving DecidableEq, Repr

/-! `GLB.ID` (01_architecture.md Table 1-7). -/
/-- Part number -/
def F.GLB_ID_PART : Fld := ⟨0, 16, 16, 1, .ro, .none, 0x9640, .none, .plain, false⟩
/-- Stepping letter; 0x1 is A -/
def F.GLB_ID_STEP_LETTER : Fld := ⟨1, 12, 4, 1, .ro, .none, 1, .none, .plain, false⟩
/-- Stepping number -/
def F.GLB_ID_STEP_NUM : Fld := ⟨2, 8, 4, 1, .ro, .none, 1, .none, .plain, false⟩
/-- 0x01 is Craram -/
def F.GLB_ID_FAMILY : Fld := ⟨3, 0, 8, 1, .ro, .none, 1, .none, .plain, false⟩
/-! `GLB.ORDER` (01_architecture.md Table 1-8). -/
/-- 0x1 is L, lidded land-grid carrier -/
def F.GLB_ORDER_CARRIER : Fld := ⟨4, 8, 4, 1, .ro, .none, 1, .none, .plain, false⟩
/-- Spare grade at shipment: 0x1 is S1, 0x2 is S2 -/
def F.GLB_ORDER_GRADE : Fld := ⟨5, 0, 4, 1, .ro, .none, 2, .fused, .plain, false⟩
/-! `GLB.SERIAL_A` (01_architecture.md Table 1-9). -/
/-- Fourth character of the group, ASCII -/
def F.GLB_SERIAL_A_CHAR3 : Fld := ⟨6, 24, 8, 1, .ro, .none, 50, .fused, .plain, false⟩
/-- Third character, ASCII -/
def F.GLB_SERIAL_A_CHAR2 : Fld := ⟨7, 16, 8, 1, .ro, .none, 77, .fused, .plain, false⟩
/-- Second character, ASCII -/
def F.GLB_SERIAL_A_CHAR1 : Fld := ⟨8, 8, 8, 1, .ro, .none, 55, .fused, .plain, false⟩
/-- First character, ASCII -/
def F.GLB_SERIAL_A_CHAR0 : Fld := ⟨9, 0, 8, 1, .ro, .none, 75, .fused, .plain, false⟩
/-! `GLB.SERIAL_B` (01_architecture.md Table 1-9). -/
/-- Fourth character of the group, ASCII -/
def F.GLB_SERIAL_B_CHAR3 : Fld := ⟨10, 24, 8, 1, .ro, .none, 88, .fused, .plain, false⟩
/-- Third character, ASCII -/
def F.GLB_SERIAL_B_CHAR2 : Fld := ⟨11, 16, 8, 1, .ro, .none, 84, .fused, .plain, false⟩
/-- Second character, ASCII -/
def F.GLB_SERIAL_B_CHAR1 : Fld := ⟨12, 8, 8, 1, .ro, .none, 57, .fused, .plain, false⟩
/-- First character, ASCII -/
def F.GLB_SERIAL_B_CHAR0 : Fld := ⟨13, 0, 8, 1, .ro, .none, 81, .fused, .plain, false⟩
/-! `GLB.SERIAL_C` (01_architecture.md Table 1-9). -/
/-- Fourth character of the group, ASCII -/
def F.GLB_SERIAL_C_CHAR3 : Fld := ⟨14, 24, 8, 1, .ro, .none, 66, .fused, .plain, false⟩
/-- Third character, ASCII -/
def F.GLB_SERIAL_C_CHAR2 : Fld := ⟨15, 16, 8, 1, .ro, .none, 87, .fused, .plain, false⟩
/-- Second character, ASCII -/
def F.GLB_SERIAL_C_CHAR1 : Fld := ⟨16, 8, 8, 1, .ro, .none, 72, .fused, .plain, false⟩
/-- First character, ASCII -/
def F.GLB_SERIAL_C_CHAR0 : Fld := ⟨17, 0, 8, 1, .ro, .none, 52, .fused, .plain, false⟩
/-! `GLB.SPARES` (01_architecture.md Table 1-10). -/
/-- 1 while an East row is FILLING (R29) -/
def F.GLB_SPARES_E_FILLING : Fld := ⟨18, 24, 1, 1, .ro, .none, 0, .none, .plain, false⟩
/-- 1 while a West row is FILLING -/
def F.GLB_SPARES_W_FILLING : Fld := ⟨19, 16, 1, 1, .ro, .none, 0, .none, .plain, false⟩
/-- Unused spare rows in East, 0–2 -/
def F.GLB_SPARES_E_UNUSED : Fld := ⟨20, 8, 2, 1, .ro, .none, 0, .vault, .plain, false⟩
/-- Unused spare rows in West, 0–2 -/
def F.GLB_SPARES_W_UNUSED : Fld := ⟨21, 0, 2, 1, .ro, .none, 0, .vault, .plain, false⟩
/-! `GLB.RETIRED_W` (01_architecture.md Table 1-11). -/
/-- Bit p is 1 if physical row p of the half is retired -/
def F.GLB_RETIRED_W_ROWS : Fld := ⟨22, 0, 32, 1, .ro, .none, 0, .vault, .plain, false⟩
/-! `GLB.RETIRED_E` (01_architecture.md Table 1-11). -/
/-- Bit p is 1 if physical row p of the half is retired -/
def F.GLB_RETIRED_E_ROWS : Fld := ⟨23, 0, 32, 1, .ro, .none, 0, .vault, .plain, false⟩
/-! `GLB.ROWMAP_SEL` (01_architecture.md Table 1-12). -/
/-- 0 selects West, 1 selects East -/
def F.GLB_ROWMAP_SEL_HALF : Fld := ⟨24, 8, 1, 1, .rw, .opr, 0, .none, .plain, false⟩
/-- Logical row, 0–29 -/
def F.GLB_ROWMAP_SEL_LROW : Fld := ⟨25, 0, 5, 1, .rw, .opr, 0, .none, .plain, false⟩
/-! `GLB.ROWMAP_DATA` (01_architecture.md Table 1-13). -/
/-- 1 if LROW names a logical row 0–29; 0 if LROW is 30 or 31, in which case every other field reads 0 -/
def F.GLB_ROWMAP_DATA_VALID : Fld := ⟨26, 31, 1, 1, .ro, .none, 1, .none, .plain, false⟩
/-- 0b00 ACTIVE; 0b01 FILLING; 0b10 LOST (R30); 0b11 not used -/
def F.GLB_ROWMAP_DATA_STATE : Fld := ⟨27, 8, 2, 1, .ro, .none, 0, .vault, .plain, false⟩
/-- Physical row carrying the selected logical row; 0 when STATE is LOST -/
def F.GLB_ROWMAP_DATA_PROW : Fld := ⟨28, 0, 5, 1, .ro, .none, 0, .vault, .plain, false⟩
/-! `GLB.STRAPS` (01_architecture.md Table 1-14). -/
/-- MODE[1:0] as sampled at the release of reset: 0b00 worker; 0b01 rack manager; 0b10 system manager; 0b11 ... -/
def F.GLB_STRAPS_MODE : Fld := ⟨29, 0, 2, 1, .ro, .none, 0, .strap, .plain, false⟩
/-! `GLB.CLKSTAT` (01_architecture.md Table 1-15). -/
/-- 1 while the core clocks are stretched or clamped (R32) -/
def F.GLB_CLKSTAT_STRETCH : Fld := ⟨30, 16, 1, 1, .ro, .none, 0, .none, .plain, false⟩
/-- 1 while the East firmware PLL is locked and its clock is available to the complex. A stop of that clock ... -/
def F.GLB_CLKSTAT_FWCLK_E : Fld := ⟨31, 9, 1, 1, .ro, .none, 0, .none, .plain, false⟩
/-- 1 while the West firmware PLL is locked and its clock is available to the complex. A stop of that clock ... -/
def F.GLB_CLKSTAT_FWCLK_W : Fld := ⟨32, 8, 1, 1, .ro, .none, 0, .none, .plain, false⟩
/-- Bit i is 1 when the PLL of a region is locked: bits 0–3 are W0–W3, bits 4–7 are E0–E3 -/
def F.GLB_CLKSTAT_PLL_LOCK : Fld := ⟨33, 0, 8, 1, .ro, .none, 0, .none, .plain, false⟩
/-! `GLB.LEADER` (01_architecture.md Table 1-15). -/
/-- 1 once one half holds the current epoch of the leadership latch -/
def F.GLB_LEADER_VALID : Fld := ⟨34, 1, 1, 1, .ro, .none, 0, .none, .plain, false⟩
/-- Leader half: 0 West, 1 East; meaningful only when VALID is 1 -/
def F.GLB_LEADER_HALF : Fld := ⟨35, 0, 1, 1, .ro, .none, 0, .none, .plain, false⟩
/-! `GLB.CORE_FREQ` (01_architecture.md Table 1-15). -/
/-- Present core clock frequency of all eight regions in MHz, rounded down; 1,600 in normal running, 0 while ... -/
def F.GLB_CORE_FREQ_MHZ : Fld := ⟨36, 0, 12, 1, .ro, .none, 0, .none, .plain, false⟩
/-! `ARR.STATUS` (03_cim_arrays.md Table 3-13). -/
/-- Mend rows with VALID = 0 and BAD = 0, 0–32 -/
def F.ARR_STATUS_MEND_FREE : Fld := ⟨37, 16, 8, 1, .ro, .none, 32, .side, .plain, false⟩
/-- 1 from ERASE until WRITE_SIDE completes -/
def F.ARR_STATUS_SIDE_STALE : Fld := ⟨38, 8, 1, 1, .ro, .none, 0, .side, .plain, false⟩
/-- 1 at 10,000 cycles or more (R116) -/
def F.ARR_STATUS_WORN : Fld := ⟨39, 7, 1, 1, .ro, .none, 0, .vault, .plain, false⟩
/-- 1 while HOURS exceeds 17,520 -/
def F.ARR_STATUS_OVERDUE : Fld := ⟨40, 6, 1, 1, .ro, .none, 0, .none, .plain, false⟩
/-- 1 while HOURS is at least 8,760 -/
def F.ARR_STATUS_DUE : Fld := ⟨41, 5, 1, 1, .ro, .none, 1, .none, .plain, false⟩
/-- 1 when any mend row has VALID = 1; G32 is then sensed -/
def F.ARR_STATUS_MEND_USED : Fld := ⟨42, 4, 1, 1, .ro, .none, 0, .side, .plain, false⟩
/-- 1 while a product runs -/
def F.ARR_STATUS_PRODUCT : Fld := ⟨43, 3, 1, 1, .ro, .none, 0, .none, .plain, false⟩
/-- 1 while a command runs -/
def F.ARR_STATUS_BUSY : Fld := ⟨44, 2, 1, 1, .ro, .none, 0, .none, .plain, false⟩
/-- 0b00 SERVE; 0b01 MAINT; 0b10 EXCLUDED; 0b11 SPARE (R105) -/
def F.ARR_STATUS_MODE : Fld := ⟨45, 0, 2, 1, .ro, .none, 1, .vault, .plain, false⟩
/-! `ARR.AGE` (03_cim_arrays.md Table 3-14). -/
/-- 1 while HOURS is the conservative age of R82 -/
def F.ARR_AGE_ASSUMED : Fld := ⟨46, 31, 1, 1, .rw, .fw, 1, .none, .plain, false⟩
/-- Age in whole hours; reset value 8,760 -/
def F.ARR_AGE_HOURS : Fld := ⟨47, 0, 18, 1, .rw, .fw, 0x2238, .none, .plain, false⟩
/-! `ARR.TRIM_REF` (03_cim_arrays.md Table 3-15). -/
/-- Bottom reference, Table 3-8 -/
def F.ARR_TRIM_REF_BOT : Fld := ⟨48, 16, 10, 1, .rw, .fw, 0x200, .none, .plain, false⟩
/-- Top reference, Table 3-8 -/
def F.ARR_TRIM_REF_TOP : Fld := ⟨49, 0, 10, 1, .rw, .fw, 0x200, .none, .plain, false⟩
/-! `ARR.TRIM_READ` (03_cim_arrays.md Table 3-15). -/
/-- Sense bias, Table 3-8 -/
def F.ARR_TRIM_READ_SBIAS : Fld := ⟨50, 16, 10, 1, .rw, .fw, 0x200, .none, .plain, false⟩
/-- Read wordline level, Table 3-8 -/
def F.ARR_TRIM_READ_RWL : Fld := ⟨51, 0, 10, 1, .rw, .fw, 0x200, .none, .plain, false⟩
/-! `ARR.CMD_ARG0` (03_cim_arrays.md Table 3-16). -/
/-- Number of rows, 1–1,064 -/
def F.ARR_CMD_ARG0_COUNT : Fld := ⟨52, 16, 11, 1, .rw, .fw, 0, .none, .plain, false⟩
/-- First row index, 0–1,063 (Table 3-1) -/
def F.ARR_CMD_ARG0_ROW : Fld := ⟨53, 0, 11, 1, .rw, .fw, 0, .none, .plain, false⟩
/-! `ARR.CMD_ARG1` (03_cim_arrays.md Table 3-16). -/
/-- Hamper byte address bits [18:6]; the address is 64-byte aligned -/
def F.ARR_CMD_ARG1_HADDR : Fld := ⟨54, 6, 13, 1, .rw, .fw, 0, .none, .plain, false⟩
/-! `ARR.CMD` (03_cim_arrays.md Table 3-16). -/
/-- Returned in ARR.CMD_STAT -/
def F.ARR_CMD_TAG : Fld := ⟨55, 8, 8, 1, .wo, .fw, 0, .none, .plain, true⟩
/-- Operation of Table 3-17; the write starts the command -/
def F.ARR_CMD_OP : Fld := ⟨56, 0, 4, 1, .wo, .fw, 0, .none, .plain, true⟩
/-! `ARR.CMD_STAT` (03_cim_arrays.md Table 3-18). -/
/-- Result code of Table 3-19 -/
def F.ARR_CMD_STAT_RESULT : Fld := ⟨57, 24, 8, 1, .ro, .none, 0, .none, .plain, false⟩
/-- 1 when the fault list overflowed (R109) -/
def F.ARR_CMD_STAT_OVERFLOW : Fld := ⟨58, 17, 1, 1, .ro, .none, 0, .none, .plain, false⟩
/-- 1 when no command runs; RESULT, OP and TAG then describe the last one -/
def F.ARR_CMD_STAT_DONE : Fld := ⟨59, 16, 1, 1, .ro, .none, 1, .none, .plain, false⟩
/-- TAG of the last command -/
def F.ARR_CMD_STAT_TAG : Fld := ⟨60, 8, 8, 1, .ro, .none, 0, .none, .plain, false⟩
/-- OP of the last command -/
def F.ARR_CMD_STAT_OP : Fld := ⟨61, 0, 4, 1, .ro, .none, 0, .none, .plain, false⟩
/-! `ARR.CYCLES` (03_cim_arrays.md Table 3-20). -/
/-- Erase-and-program cycles, saturating at 0xFFFF; never cleared -/
def F.ARR_CYCLES_COUNT : Fld := ⟨62, 0, 16, 1, .ro, .none, 0, .vault, .plain, false⟩
/-! `ARR.OVRCNT` (03_cim_arrays.md Table 3-20). -/
/-- Conversions at code 104 or above -/
def F.ARR_OVRCNT : Fld := ⟨63, 0, 32, 1, .rc, .none, 0, .none, .plain, false⟩
/-! `ARR.VFAILCNT` (03_cim_arrays.md Table 3-20). -/
/-- Faulty cells, weak cells included -/
def F.ARR_VFAILCNT : Fld := ⟨64, 0, 32, 1, .rc, .none, 0, .none, .plain, false⟩
/-! `ARR.LATECNT` (03_cim_arrays.md Table 3-20). -/
/-- Late starts -/
def F.ARR_LATECNT : Fld := ⟨65, 0, 32, 1, .rc, .none, 0, .none, .plain, false⟩
/-! `ARR.UNAVCNT` (03_cim_arrays.md Table 3-20). -/
/-- Products refused -/
def F.ARR_UNAVCNT : Fld := ⟨66, 0, 32, 1, .rc, .none, 0, .none, .plain, false⟩
/-! `ARR.LEVELS_A` (03_cim_arrays.md Table 3-21). -/
/-- Sampled cells in the band of level 1 -/
def F.ARR_LEVELS_A_L1 : Fld := ⟨67, 16, 16, 1, .ro, .none, 0, .none, .plain, false⟩
/-- Sampled cells in the band of level 0 -/
def F.ARR_LEVELS_A_L0 : Fld := ⟨68, 0, 16, 1, .ro, .none, 0, .none, .plain, false⟩
/-! `ARR.LEVELS_B` (03_cim_arrays.md Table 3-21). -/
/-- Band of level 3 -/
def F.ARR_LEVELS_B_L3 : Fld := ⟨69, 16, 16, 1, .ro, .none, 0, .none, .plain, false⟩
/-- Band of level 2 -/
def F.ARR_LEVELS_B_L2 : Fld := ⟨70, 0, 16, 1, .ro, .none, 0, .none, .plain, false⟩
/-! `ARR.LEVELS_C` (03_cim_arrays.md Table 3-21). -/
/-- 0b00 no check since reset; 0b01 ERASED; 0b10 LEVELLED; 0b11 MIXED -/
def F.ARR_LEVELS_C_CLASS : Fld := ⟨71, 16, 2, 1, .ro, .none, 0, .none, .plain, false⟩
/-- Sampled cells in gaps -/
def F.ARR_LEVELS_C_GAP : Fld := ⟨72, 0, 16, 1, .ro, .none, 0, .none, .plain, false⟩
/-! `ARR.MENDROW[r]` (03_cim_arrays.md Table 3-22). -/
/-- 1 when mend row r takes the input of SRC -/
def F.ARR_MENDROW_VALID : Fld := ⟨73, 31, 1, 1, .ro, .none, 0, .side, .plain, false⟩
/-- 1 when mend row r is unusable (R98) -/
def F.ARR_MENDROW_BAD : Fld := ⟨74, 30, 1, 1, .ro, .none, 0, .side, .plain, false⟩
/-- Source data row, 0–1,023 -/
def F.ARR_MENDROW_SRC : Fld := ⟨75, 0, 10, 1, .ro, .none, 0, .side, .plain, false⟩
/-! `ARR.SITE` (03_cim_arrays.md Table 3-22). -/
/-- Logical core ID, 0–1,199; 0xFFF when the site has none -/
def F.ARR_SITE_LID : Fld := ⟨76, 16, 12, 1, .ro, .none, 0, .spare, .plain, false⟩
/-- Site column, 0–39 -/
def F.ARR_SITE_SCOL : Fld := ⟨77, 8, 6, 1, .ro, .none, 0, .fixed, .plain, false⟩
/-- Physical row, 0–31 -/
def F.ARR_SITE_PROW : Fld := ⟨78, 0, 5, 1, .ro, .none, 0, .fixed, .plain, false⟩
/-! `CORE.STATUS` (04_core.md Table 4-9). -/
/-- 1 while the core belongs to no pitch -/
def F.CORE_STATUS_NOPITCH : Fld := ⟨79, 20, 1, 1, .ro, .none, 1, .none, .plain, false⟩
/-- Pitch of the core, 0–15; meaningful when NOPITCH is 0 -/
def F.CORE_STATUS_PITCH : Fld := ⟨80, 16, 4, 1, .ro, .none, 0, .none, .plain, false⟩
/-- 1 during the clear of R160 -/
def F.CORE_STATUS_CLEARING : Fld := ⟨81, 8, 1, 1, .ro, .none, 1, .none, .plain, false⟩
/-- 0b000 IDLE; 0b001 ARMED; 0b010 RUN; 0b011 DRAIN; 0b100 STOPPING; 0b101 CLEARING; others not used -/
def F.CORE_STATUS_SEQ : Fld := ⟨82, 0, 3, 1, .ro, .none, 5, .none, .plain, false⟩
/-! `CORE.LEGPOS` (04_core.md Table 4-9). -/
/-- Frame number, bits [15:0] -/
def F.CORE_LEGPOS_FRAME : Fld := ⟨83, 16, 16, 1, .ro, .none, 0, .none, .plain, false⟩
/-- Index of the running or last leg in the core's list for the frame -/
def F.CORE_LEGPOS_LEG : Fld := ⟨84, 0, 16, 1, .ro, .none, 0, .none, .plain, false⟩
/-! `CORE.SUSPECT` (04_core.md Table 4-9). -/
/-- Index of the last suspect leg -/
def F.CORE_SUSPECT_LEG : Fld := ⟨85, 16, 16, 1, .ro, .none, 0, .none, .plain, false⟩
/-- Its frame number, bits [7:0] -/
def F.CORE_SUSPECT_FRAME : Fld := ⟨86, 8, 8, 1, .ro, .none, 0, .none, .plain, false⟩
/-- Its cause bits, Table 4-5 -/
def F.CORE_SUSPECT_CAUSE : Fld := ⟨87, 0, 7, 1, .ro, .none, 0, .none, .plain, false⟩
/-! `CORE.LSTORE` (04_core.md Table 4-10). -/
/-- 1 when the standby bank holds a loaded share awaiting its boundary -/
def F.CORE_LSTORE_STANDBY_VALID : Fld := ⟨88, 17, 1, 1, .ro, .none, 0, .none, .plain, false⟩
/-- Active bank, 0 or 1 -/
def F.CORE_LSTORE_ACTIVE : Fld := ⟨89, 16, 1, 1, .ro, .none, 0, .none, .plain, false⟩
/-- Bits [15:0] of the active itinerary's identity; 0 when none is loaded -/
def F.CORE_LSTORE_ITIN : Fld := ⟨90, 0, 16, 1, .ro, .none, 0, .none, .plain, false⟩
/-! `CORE.CTR_SEL` (04_core.md Table 4-10). -/
/-- Counter index, 0–63 -/
def F.CORE_CTR_SEL_IDX : Fld := ⟨91, 0, 6, 1, .rw, .opr, 0, .none, .plain, false⟩
/-! `CORE.CTR_DATA` (04_core.md Table 4-10). -/
/-- 1 when the counter saturated (R145) -/
def F.CORE_CTR_DATA_SAT : Fld := ⟨92, 31, 1, 1, .ro, .none, 0, .none, .plain, false⟩
/-- Value of CTR[IDX] -/
def F.CORE_CTR_DATA_VALUE : Fld := ⟨93, 0, 24, 1, .ro, .none, 0, .none, .plain, false⟩
/-! `CORE.QNANCNT` (04_core.md Table 4-11). -/
/-- Blocks with NaN or infinity -/
def F.CORE_QNANCNT : Fld := ⟨94, 0, 32, 1, .rc, .none, 0, .none, .plain, false⟩
/-! `CORE.QRAISECNT` (04_core.md Table 4-11). -/
/-- Blocks raised to b_ref -/
def F.CORE_QRAISECNT : Fld := ⟨95, 0, 32, 1, .rc, .none, 0, .none, .plain, false⟩
/-! `CORE.QPEAKCNT` (04_core.md Table 4-11). -/
/-- Peaked blocks -/
def F.CORE_QPEAKCNT : Fld := ⟨96, 0, 32, 1, .rc, .none, 0, .none, .plain, false⟩
/-! `CORE.QLOWCNT` (04_core.md Table 4-11). -/
/-- Blocks clamped at byte 0x00 -/
def F.CORE_QLOWCNT : Fld := ⟨97, 0, 32, 1, .rc, .none, 0, .none, .plain, false⟩
/-! `CORE.QSATCNT` (04_core.md Table 4-11). -/
/-- Saturated elements -/
def F.CORE_QSATCNT : Fld := ⟨98, 0, 32, 1, .rc, .none, 0, .none, .plain, false⟩
/-! `CORE.HSTALLCNT` (04_core.md Table 4-11). -/
/-- Bank stall cycles and late loads (R126, R140) -/
def F.CORE_HSTALLCNT : Fld := ⟨99, 0, 32, 1, .rc, .none, 0, .none, .plain, false⟩
/-! `CORE.HCECNT` (04_core.md Table 4-11). -/
/-- Corrected hamper words -/
def F.CORE_HCECNT : Fld := ⟨100, 0, 32, 1, .rc, .none, 0, .none, .plain, false⟩
/-! `CORE.HUECNT` (04_core.md Table 4-11). -/
/-- Uncorrectable hamper words -/
def F.CORE_HUECNT : Fld := ⟨101, 0, 32, 1, .rc, .none, 0, .none, .plain, false⟩
/-! `CORE.LATECNT` (04_core.md Table 4-11). -/
/-- Late legs (R150) -/
def F.CORE_LATECNT : Fld := ⟨102, 0, 32, 1, .rc, .none, 0, .none, .plain, false⟩
/-! `CORE.OVRUNCNT` (04_core.md Table 4-11). -/
/-- Stopped legs -/
def F.CORE_OVRUNCNT : Fld := ⟨103, 0, 32, 1, .rc, .none, 0, .none, .plain, false⟩
/-! `CORE.SUSPCNT` (04_core.md Table 4-11). -/
/-- Suspect legs -/
def F.CORE_SUSPCNT : Fld := ⟨104, 0, 32, 1, .rc, .none, 0, .none, .plain, false⟩
/-! `CORE.STALEINC` (04_core.md Table 4-11). -/
/-- Dropped remote increments (R146) -/
def F.CORE_STALEINC : Fld := ⟨105, 0, 32, 1, .rc, .none, 0, .none, .plain, false⟩
/-! `CORE.NANCNT` (04_core.md Table 4-11). -/
/-- NaN results written by the accumulator, engine or vector unit -/
def F.CORE_NANCNT : Fld := ⟨106, 0, 32, 1, .rc, .none, 0, .none, .plain, false⟩
/-! `CORE.CLEARCNT` (04_core.md Table 4-11). -/
/-- Completed clears -/
def F.CORE_CLEARCNT : Fld := ⟨107, 0, 32, 1, .rc, .none, 0, .none, .plain, false⟩
/-! `TST.CTRL` (04_core.md Table 4-12). -/
/-- 1 tastes legs; 0 leaves every leg untasted -/
def F.TST_CTRL_ENABLE : Fld := ⟨108, 31, 1, 1, .rw, .ins, 1, .none, .plain, false⟩
/-- 1 forces the next comparison to flag (R157) -/
def F.TST_CTRL_INJECT : Fld := ⟨109, 16, 1, 1, .wo, .mkr, 0, .none, .plain, true⟩
/-- 4 · N, 16–40 (N = 4.0–10.0 in steps of 0.25); a written value outside 16–40 is stored as the nearer limit -/
def F.TST_CTRL_THRESH : Fld := ⟨110, 0, 6, 1, .rw, .ins, 24, .none, (.clamp 16 40), false⟩
/-! `TST.SEED` (04_core.md Table 4-12). -/
/-- Loads the sampling register; a write of 0 loads 1 -/
def F.TST_SEED : Fld := ⟨111, 0, 32, 1, .rw, .fw, 1, .none, .zeroIsOne, false⟩
/-! `TST.STATUS` (04_core.md Table 4-12). -/
/-- 1 while a tile is being tasted -/
def F.TST_STATUS_TASTING : Fld := ⟨112, 8, 1, 1, .ro, .none, 0, .none, .plain, false⟩
/-- Slot of the tile being tasted -/
def F.TST_STATUS_TSLOT : Fld := ⟨113, 4, 2, 1, .ro, .none, 0, .none, .plain, false⟩
/-- Bit i is 1 when slot Si is VALID -/
def F.TST_STATUS_VALID : Fld := ⟨114, 0, 4, 1, .ro, .none, 0, .none, .plain, false⟩
/-! `TST.EPS[a]` (04_core.md Table 4-13). -/
/-- ε of array Aa in FP32 (R83); reset value 0.5487 -/
def F.TST_EPS : Fld := ⟨115, 0, 32, 1, .rw, .fw, 0x3f0c779a, .none, .plain, false⟩
/-! `TST.CRIB[i]` (04_core.md Table 4-13). -/
/-- 1 when slot Si holds weights -/
def F.TST_CRIB_VALID : Fld := ⟨116, 31, 1, 1, .ro, .none, 0, .none, .plain, false⟩
/-- Array of the slot, 0–15 -/
def F.TST_CRIB_ARRAY : Fld := ⟨117, 20, 4, 1, .ro, .none, 0, .none, .plain, false⟩
/-- Column block, 0–15 (columns 32 · CBLOCK to 32 · CBLOCK + 31) -/
def F.TST_CRIB_CBLOCK : Fld := ⟨118, 16, 4, 1, .ro, .none, 0, .none, .plain, false⟩
/-- Frame number bits [15:0] at the fill's completion -/
def F.TST_CRIB_FILLFRAME : Fld := ⟨119, 0, 16, 1, .ro, .none, 0, .none, .plain, false⟩
/-! `TST.CRIB_CMD` (04_core.md Table 4-14). -/
/-- Array for FILL -/
def F.TST_CRIB_CMD_ARRAY : Fld := ⟨120, 12, 4, 1, .wo, .fw, 0, .none, .plain, true⟩
/-- Column block for FILL -/
def F.TST_CRIB_CMD_CBLOCK : Fld := ⟨121, 8, 4, 1, .wo, .fw, 0, .none, .plain, true⟩
/-- Slot -/
def F.TST_CRIB_CMD_SLOT : Fld := ⟨122, 4, 2, 1, .wo, .fw, 0, .none, .plain, true⟩
/-- 0b01 FILL; 0b10 DROP; 0b00 and 0b11 give BAD_ARG; the write starts the command -/
def F.TST_CRIB_CMD_OP : Fld := ⟨123, 0, 2, 1, .wo, .fw, 0, .none, .plain, true⟩
/-! `TST.CRIB_STAT` (04_core.md Table 4-14). -/
/-- 0x00 OK; 0x01 BUSY; 0x02 NOT_MAINT; 0x05 BAD_ARG; 0x08 EXCLUDED; 0x0A GAP; 0x0B SLOT_BUSY -/
def F.TST_CRIB_STAT_RESULT : Fld := ⟨124, 24, 8, 1, .ro, .none, 0, .none, .plain, false⟩
/-- 1 when no crib command runs -/
def F.TST_CRIB_STAT_DONE : Fld := ⟨125, 16, 1, 1, .ro, .none, 1, .none, .plain, false⟩
/-- Slot of the last command -/
def F.TST_CRIB_STAT_SLOT : Fld := ⟨126, 4, 2, 1, .ro, .none, 0, .none, .plain, false⟩
/-- OP of the last command -/
def F.TST_CRIB_STAT_OP : Fld := ⟨127, 0, 2, 1, .ro, .none, 0, .none, .plain, false⟩
/-! `TST.TASTECNT` (04_core.md Table 4-15). -/
/-- Tiles tasted -/
def F.TST_TASTECNT : Fld := ⟨128, 0, 32, 1, .rc, .none, 0, .none, .plain, false⟩
/-! `TST.UNTASTCNT` (04_core.md Table 4-15). -/
/-- Legs untasted, including parity losses -/
def F.TST_UNTASTCNT : Fld := ⟨129, 0, 32, 1, .rc, .none, 0, .none, .plain, false⟩
/-! `TST.FLAGCNT` (04_core.md Table 4-15). -/
/-- Tiles flagged -/
def F.TST_FLAGCNT : Fld := ⟨130, 0, 32, 1, .rc, .none, 0, .none, .plain, false⟩
/-! `TST.LASTFLAG` (04_core.md Table 4-15). -/
/-- Slot of the last flagged tile -/
def F.TST_LASTFLAG_SLOT : Fld := ⟨131, 16, 2, 1, .ro, .none, 0, .none, .plain, false⟩
/-- Its array -/
def F.TST_LASTFLAG_ARRAY : Fld := ⟨132, 12, 4, 1, .ro, .none, 0, .none, .plain, false⟩
/-- Weight column with the largest ratio -/
def F.TST_LASTFLAG_COLUMN : Fld := ⟨133, 0, 9, 1, .ro, .none, 0, .none, .plain, false⟩
/-! `TST.LASTDIFF` (04_core.md Table 4-15). -/
/-- That column's |analogue − exact| / σ_A,c, FP32 -/
def F.TST_LASTDIFF_RATIO : Fld := ⟨134, 0, 32, 1, .ro, .none, 0, .none, .plain, false⟩
/-! `TST.RMVIOLCNT` (04_core.md Table 4-15). -/
/-- Values outside LO to HI -/
def F.TST_RMVIOLCNT : Fld := ⟨135, 0, 32, 1, .rc, .none, 0, .none, .plain, false⟩
/-! `TST.RMSTATCNT` (04_core.md Table 4-15). -/
/-- Frame statistics outside their bounds -/
def F.TST_RMSTATCNT : Fld := ⟨136, 0, 32, 1, .rc, .none, 0, .none, .plain, false⟩
/-! `TST.RM_SEL` (04_core.md Table 4-16). -/
/-- Array, 0–15 -/
def F.TST_RM_SEL_ARRAY : Fld := ⟨137, 4, 4, 1, .rw, .opr, 0, .none, .plain, false⟩
/-- Column group, 0–15 -/
def F.TST_RM_SEL_CGROUP : Fld := ⟨138, 0, 4, 1, .rw, .opr, 0, .none, .plain, false⟩
/-! `TST.RM_MIN` (04_core.md Table 4-16). -/
/-- Minimum A_c, two's complement; 0x7FFF_FFFF when COUNT is 0 -/
def F.TST_RM_MIN_MIN : Fld := ⟨139, 0, 32, 1, .ro, .none, 0x7fffffff, .none, .plain, false⟩
/-! `TST.RM_MAX` (04_core.md Table 4-16). -/
/-- Maximum A_c; 0x8000_0000 when COUNT is 0 -/
def F.TST_RM_MAX_MAX : Fld := ⟨140, 0, 32, 1, .ro, .none, 0x80000000, .none, .plain, false⟩
/-! `TST.RM_COUNT` (04_core.md Table 4-16). -/
/-- Values counted, saturating -/
def F.TST_RM_COUNT_COUNT : Fld := ⟨141, 0, 32, 1, .ro, .none, 0, .none, .plain, false⟩
/-! `TST.RM_FRAME` (04_core.md Table 4-16). -/
/-- Bits [31:0] of the number of the frame whose values the snapshot holds, which is the frame that ended at ... -/
def F.TST_RM_FRAME_FRAME : Fld := ⟨142, 0, 32, 1, .ro, .none, 0, .none, .plain, false⟩
/-! `TST.RM_SUM_LO` (04_core.md Table 4-16). -/
/-- Sum, bits [31:0] -/
def F.TST_RM_SUM_LO_SUM : Fld := ⟨143, 0, 32, 1, .ro, .none, 0, .none, .plain, false⟩
/-! `TST.RM_SUM_HI` (04_core.md Table 4-16). -/
/-- Sum, bits [63:32] -/
def F.TST_RM_SUM_HI_SUM : Fld := ⟨144, 0, 32, 1, .ro, .none, 0, .none, .plain, false⟩
/-! `TST.RM_SSQ_LO` (04_core.md Table 4-16). -/
/-- Sum of ⌊A_c² / 2^16⌋, bits [31:0] -/
def F.TST_RM_SSQ_LO_SSQ : Fld := ⟨145, 0, 32, 1, .ro, .none, 0, .none, .plain, false⟩
/-! `TST.RM_SSQ_HI` (04_core.md Table 4-16). -/
/-- Sum of squares, bits [63:32] -/
def F.TST_RM_SSQ_HI_SSQ : Fld := ⟨146, 0, 32, 1, .ro, .none, 0, .none, .plain, false⟩
/-! `NET.PITCH_CTL` (06_network_and_memory.md Table 6-5). -/
/-- Last apply: 0x00 OK; 0x01 NOT_HALTED; 0x02 OVERLAP; 0x03 SHARED_CH; 0x04 SHARED_PORT; 0x05 EXCLUDED_CH; ... -/
def F.NET_PITCH_CTL_RESULT : Fld := ⟨147, 24, 8, 1, .ro, .none, 0, .none, .plain, false⟩
/-- 1 while the pending copy of any of the 16 pitches differs from its current copy, whatever NET.PITCH_SEL ... -/
def F.NET_PITCH_CTL_PENDING : Fld := ⟨148, 1, 1, 1, .ro, .none, 0, .none, .plain, false⟩
/-- 1 applies the pending copy under R205 -/
def F.NET_PITCH_CTL_APPLY : Fld := ⟨149, 0, 1, 1, .wo, .ins, 0, .none, .plain, true⟩
/-! `NET.PITCH_SEL` (06_network_and_memory.md Table 6-5). -/
/-- 0 shows the current copy; 1 shows the pending copy -/
def F.NET_PITCH_SEL_VIEW : Fld := ⟨150, 8, 1, 1, .rw, .opr, 0, .none, .plain, false⟩
/-- Pitch, 0–15 -/
def F.NET_PITCH_SEL_PITCH : Fld := ⟨151, 0, 4, 1, .rw, .opr, 0, .none, .plain, false⟩
/-! `NET.PITCH_RECT` (06_network_and_memory.md Table 6-6). -/
/-- 1 when the pitch exists -/
def F.NET_PITCH_RECT_ENABLE : Fld := ⟨152, 31, 1, 1, .rwl, .ins, 0, .none, .plain, true⟩
/-- Last logical row, 0–29 -/
def F.NET_PITCH_RECT_R1 : Fld := ⟨153, 24, 5, 1, .rwl, .ins, 0, .none, .plain, true⟩
/-- First logical row; R0 > R1 or R1 > 29 gives BAD_RECT -/
def F.NET_PITCH_RECT_R0 : Fld := ⟨154, 16, 5, 1, .rwl, .ins, 0, .none, .plain, true⟩
/-- Last column, 0–39 -/
def F.NET_PITCH_RECT_C1 : Fld := ⟨155, 8, 6, 1, .rwl, .ins, 0, .none, .plain, true⟩
/-- First column; C0 > C1 or C1 > 39 gives BAD_RECT -/
def F.NET_PITCH_RECT_C0 : Fld := ⟨156, 0, 6, 1, .rwl, .ins, 0, .none, .plain, true⟩
/-! `NET.PITCH_PORTS` (06_network_and_memory.md Table 6-6). -/
/-- Bit i assigns PORT[i] -/
def F.NET_PITCH_PORTS_PORTS : Fld := ⟨157, 0, 32, 1, .rwl, .ins, 0, .none, .plain, true⟩
/-! `NET.PITCH_CH[w]` (06_network_and_memory.md Table 6-6). -/
/-- Bit k assigns CH[32w + k] -/
def F.NET_PITCH_CH_CH : Fld := ⟨158, 0, 32, 1, .rwl, .ins, 0, .none, .plain, true⟩
/-! `NET.PITCH_KVBASE` (06_network_and_memory.md Table 6-6). -/
/-- Pitch page holding the tables of R218; takes effect at once and in both copies -/
def F.NET_PITCH_KVBASE_PAGE : Fld := ⟨159, 0, 23, 1, .rw, .fw, 0, .none, .plain, false⟩
/-! `NET.RETRYCNT` (06_network_and_memory.md Table 6-7). -/
/-- Flits sent again (R201) -/
def F.NET_RETRYCNT : Fld := ⟨160, 0, 32, 1, .rc, .none, 0, .none, .plain, false⟩
/-! `NET.POISONCNT` (06_network_and_memory.md Table 6-7). -/
/-- Flits delivered poisoned -/
def F.NET_POISONCNT : Fld := ⟨161, 0, 32, 1, .rc, .none, 0, .none, .plain, false⟩
/-! `NET.XPITCHCNT` (06_network_and_memory.md Table 6-7). -/
/-- Flits dropped at an endpoint of another pitch (R206) -/
def F.NET_XPITCHCNT : Fld := ⟨162, 0, 32, 1, .rc, .none, 0, .none, .plain, false⟩
/-! `NET.BARERRCNT` (06_network_and_memory.md Table 6-7). -/
/-- Participant mismatches and discarded barriers (R203) -/
def F.NET_BARERRCNT : Fld := ⟨163, 0, 32, 1, .rc, .none, 0, .none, .plain, false⟩
/-! `NET.XRSTCNT` (06_network_and_memory.md Table 6-7). -/
/-- Crossings flushed by a reset (R220) -/
def F.NET_XRSTCNT : Fld := ⟨164, 0, 32, 1, .rc, .none, 0, .none, .plain, false⟩
/-! `MEM.CECNT` (06_network_and_memory.md Table 6-7). -/
/-- Corrected beats in the stack -/
def F.MEM_CECNT : Fld := ⟨165, 0, 32, 1, .rc, .none, 0, .none, .plain, false⟩
/-! `MEM.UECNT` (06_network_and_memory.md Table 6-7). -/
/-- Uncorrectable beats -/
def F.MEM_UECNT : Fld := ⟨166, 0, 32, 1, .rc, .none, 0, .none, .plain, false⟩
/-! `MEM.KVERRCNT` (06_network_and_memory.md Table 6-7). -/
/-- Writes refused under R216 or R217 -/
def F.MEM_KVERRCNT : Fld := ⟨167, 0, 32, 1, .rc, .none, 0, .none, .plain, false⟩
/-! `MEM.STATUS` (06_network_and_memory.md Table 6-8). -/
/-- 1 when the stack holds the region of R210 -/
def F.MEM_STATUS_RESERVED : Fld := ⟨168, 3, 1, 1, .ro, .none, 0, .none, .plain, false⟩
/-- 1 when the boot ledger has excluded the stack; its 32 GB are absent -/
def F.MEM_STATUS_EXCLUDED : Fld := ⟨169, 2, 1, 1, .ro, .none, 0, .none, .plain, false⟩
/-- 1 when trained with conservative settings -/
def F.MEM_STATUS_CONSERVATIVE : Fld := ⟨170, 1, 1, 1, .ro, .none, 0, .none, .plain, false⟩
/-- 1 when training has passed -/
def F.MEM_STATUS_TRAINED : Fld := ⟨171, 0, 1, 1, .ro, .none, 0, .none, .plain, false⟩
/-! `MEM.CH_SEL` (06_network_and_memory.md Table 6-8). -/
/-- Channel of the stack, 0–31 -/
def F.MEM_CH_SEL_CH : Fld := ⟨172, 0, 5, 1, .rw, .opr, 0, .none, .plain, false⟩
/-! `MEM.CH_STATE` (06_network_and_memory.md Table 6-8). -/
/-- 0b00 ASSIGNED; 0b01 ZEROING; 0b10 UNASSIGNED; 0b11 absent (stack excluded) -/
def F.MEM_CH_STATE_STATE : Fld := ⟨173, 30, 2, 1, .ro, .none, 2, .none, .plain, false⟩
/-- Owning pitch when ASSIGNED -/
def F.MEM_CH_STATE_PITCH : Fld := ⟨174, 20, 4, 1, .ro, .none, 0, .none, .plain, false⟩
/-- Percent of the channel's last zeroing. Rises from 0 while ZEROING and reads 100 from the end of the ... -/
def F.MEM_CH_STATE_PROGRESS : Fld := ⟨175, 0, 7, 1, .ro, .none, 0, .none, .plain, false⟩
/-! `MEM.LASTERR` (06_network_and_memory.md Table 6-8). -/
/-- Channel of the last uncorrectable beat -/
def F.MEM_LASTERR_CH : Fld := ⟨176, 27, 5, 1, .ro, .none, 0, .none, .plain, false⟩
/-- Channel granule ⌊offset/2,048⌋, bits [18:0] -/
def F.MEM_LASTERR_GRANULE : Fld := ⟨177, 8, 19, 1, .ro, .none, 0, .none, .plain, false⟩
/-- Beat within the granule, 0–63 -/
def F.MEM_LASTERR_BEAT : Fld := ⟨178, 0, 6, 1, .ro, .none, 0, .none, .plain, false⟩
/-! `HIF.LINK` (09_host_interface.md Table 9-14). -/
/-- 1 while the data link is up -/
def F.HIF_LINK_UP : Fld := ⟨179, 11, 1, 1, .ro, .none, 0, .none, .plain, false⟩
/-- 1 in Flit Mode -/
def F.HIF_LINK_FLIT : Fld := ⟨180, 10, 1, 1, .ro, .none, 0, .none, .plain, false⟩
/-- Negotiated width: 1, 2, 4, 8 or 16 -/
def F.HIF_LINK_WIDTH : Fld := ⟨181, 4, 6, 1, .ro, .none, 0, .none, .plain, false⟩
/-- 1 to 6 for 2.5, 5, 8, 16, 32 and 64 GT/s; 0 while down -/
def F.HIF_LINK_SPEED : Fld := ⟨182, 0, 4, 1, .ro, .none, 0, .none, .plain, false⟩
/-! `HIF.LINK_CTL` (09_host_interface.md Table 9-14). -/
/-- Highest rate offered at the next retrain, 1–6; a write outside 1–6 is stored as the nearer limit -/
def F.HIF_LINK_CTL_MAX_SPEED : Fld := ⟨183, 0, 4, 1, .rwl, .ins, 6, .none, (.clamp 1 6), false⟩
/-! `HIF.POLL` (09_host_interface.md Table 9-14). -/
/-- Poll interval in µs, 1–64; a write outside the range is stored as the nearer limit; takes effect at the ... -/
def F.HIF_POLL_POLL_US : Fld := ⟨184, 0, 7, 1, .rw, .opr, 4, .none, (.clamp 1 64), false⟩
/-! `HIF.FN_SEL` (09_host_interface.md Table 9-14). -/
/-- Function, 0–16; a write above 16 is stored as 16 -/
def F.HIF_FN_SEL_FN : Fld := ⟨185, 0, 5, 1, .rw, .opr, 0, .none, (.cap 16), false⟩
/-! `HIF.FN_VEC` (09_host_interface.md Table 9-14). -/
/-- Table size, 1–2,048 (R310); a write that takes the sum above 2,048, or is 0, is ignored -/
def F.HIF_FN_VEC_VECTORS : Fld := ⟨186, 0, 12, 1, .rwl, .ins, 64, .none, .vectors, false⟩
/-! `HIF.FN_DBBASE_LO` (09_host_interface.md Table 9-14). -/
/-- Doorbell array base, address bits [31:6] -/
def F.HIF_FN_DBBASE_LO_ADDR : Fld := ⟨187, 6, 26, 1, .rw, .opr, 0, .none, .plain, false⟩
/-! `HIF.FN_DBBASE_HI` (09_host_interface.md Table 9-14). -/
/-- Address bits [63:32] -/
def F.HIF_FN_DBBASE_HI_ADDR : Fld := ⟨188, 0, 32, 1, .rw, .opr, 0, .none, .plain, false⟩
/-! `HIF.FN_STATE` (09_host_interface.md Table 9-14). -/
/-- Enabled queues of the function -/
def F.HIF_FN_STATE_QUEUES : Fld := ⟨189, 16, 16, 1, .ro, .none, 0, .none, .plain, false⟩
/-- 1 in D3hot -/
def F.HIF_FN_STATE_D3 : Fld := ⟨190, 3, 1, 1, .ro, .none, 0, .none, .plain, false⟩
/-- Bus Master Enable -/
def F.HIF_FN_STATE_BME : Fld := ⟨191, 2, 1, 1, .ro, .none, 0, .none, .plain, false⟩
/-- 1 while a Function Level Reset is in progress -/
def F.HIF_FN_STATE_FLR : Fld := ⟨192, 1, 1, 1, .ro, .none, 0, .none, .plain, false⟩
/-- 1 for the physical function, and for a virtual function while VF Enable is set -/
def F.HIF_FN_STATE_ENABLED : Fld := ⟨193, 0, 1, 1, .ro, .none, 1, .none, .plain, false⟩
/-! `HIF.Q_SEL` (09_host_interface.md Table 9-15). -/
/-- Queue, 0–1,023 from the physical function; local index 0–255 from a virtual function -/
def F.HIF_Q_SEL_IDX : Fld := ⟨194, 0, 10, 1, .rw, .opr, 0, .none, .plain, false⟩
/-! `HIF.Q_FN` (09_host_interface.md Table 9-15). -/
/-- Pitch of a physical-function queue. When FN names virtual function p + 1, the field reads p on every path, ... -/
def F.HIF_Q_FN_PITCH : Fld := ⟨195, 16, 4, 1, .rwl, .ins, 0, .none, .plain, false⟩
/-- Local index, 0–255 -/
def F.HIF_Q_FN_LOCAL : Fld := ⟨196, 8, 8, 1, .rwl, .ins, 0, .none, .plain, false⟩
/-- Owning function, 0–16 -/
def F.HIF_Q_FN_FN : Fld := ⟨197, 0, 5, 1, .rwl, .ins, 0, .none, .plain, false⟩
/-! `HIF.Q_SQ_LO` (09_host_interface.md Table 9-15). -/
/-- Ring base, address bits [31:12] -/
def F.HIF_Q_SQ_LO_ADDR : Fld := ⟨198, 12, 20, 1, .rw, .opr, 0, .none, .plain, false⟩
/-! `HIF.Q_CQ_LO` (09_host_interface.md Table 9-15). -/
/-- Ring base, address bits [31:12] -/
def F.HIF_Q_CQ_LO_ADDR : Fld := ⟨199, 12, 20, 1, .rw, .opr, 0, .none, .plain, false⟩
/-! `HIF.Q_SQ_HI` (09_host_interface.md Table 9-15). -/
/-- Address bits [63:32] -/
def F.HIF_Q_SQ_HI_ADDR : Fld := ⟨200, 0, 32, 1, .rw, .opr, 0, .none, .plain, false⟩
/-! `HIF.Q_CQ_HI` (09_host_interface.md Table 9-15). -/
/-- Address bits [63:32] -/
def F.HIF_Q_CQ_HI_ADDR : Fld := ⟨201, 0, 32, 1, .rw, .opr, 0, .none, .plain, false⟩
/-! `HIF.Q_SIZE` (09_host_interface.md Table 9-15). -/
/-- Completion ring of 2^CQ_LOG2 entries, 6–16 -/
def F.HIF_Q_SIZE_CQ_LOG2 : Fld := ⟨202, 8, 4, 1, .rw, .opr, 6, .none, .plain, false⟩
/-- Submission ring of 2^SQ_LOG2 entries, 6–16; SQ_LOG2 of 16 is encoded as 0 -/
def F.HIF_Q_SIZE_SQ_LOG2 : Fld := ⟨203, 0, 4, 1, .rw, .opr, 6, .none, .plain, false⟩
/-! `HIF.Q_VEC` (09_host_interface.md Table 9-15). -/
/-- MSI-X vector of the queue (R310) -/
def F.HIF_Q_VEC_VEC : Fld := ⟨204, 0, 11, 1, .rw, .opr, 0, .none, .plain, false⟩
/-! `HIF.Q_CTL` (09_host_interface.md Table 9-16). -/
/-- Departs from the RW read rule of R16: reads 1 while STATE is ACTIVE or ERROR, and 0 while it is DISABLED ... -/
def F.HIF_Q_CTL_ENABLE : Fld := ⟨205, 0, 1, 1, .rw, .opr, 0, .none, .plain, true⟩
/-! `HIF.Q_STATUS` (09_host_interface.md Table 9-16). -/
/-- The part's submission index -/
def F.HIF_Q_STATUS_SQ_HEAD : Fld := ⟨206, 16, 16, 1, .ro, .none, 0, .none, .plain, false⟩
/-- Error code, Table 9-13 -/
def F.HIF_Q_STATUS_ERR : Fld := ⟨207, 8, 8, 1, .ro, .none, 0, .none, .plain, false⟩
/-- 1 while completions wait under R306 -/
def F.HIF_Q_STATUS_HELD : Fld := ⟨208, 2, 1, 1, .ro, .none, 0, .none, .plain, false⟩
/-- 0b00 DISABLED; 0b01 ACTIVE; 0b10 ERROR; 0b11 DRAINING -/
def F.HIF_Q_STATUS_STATE : Fld := ⟨209, 0, 2, 1, .ro, .none, 0, .none, .plain, false⟩
/-! `HIF.CORRCNT` (09_host_interface.md Table 9-17). -/
/-- Correctable errors -/
def F.HIF_CORRCNT : Fld := ⟨210, 0, 32, 1, .rc, .none, 0, .none, .plain, false⟩
/-! `HIF.UNCORRCNT` (09_host_interface.md Table 9-17). -/
/-- Fatal errors -/
def F.HIF_UNCORRCNT : Fld := ⟨211, 0, 32, 1, .rc, .none, 0, .none, .plain, false⟩
/-! `HIF.CPLTOCNT` (09_host_interface.md Table 9-17). -/
/-- Completion timeouts, UR and CA on the part's reads -/
def F.HIF_CPLTOCNT : Fld := ⟨212, 0, 32, 1, .rc, .none, 0, .none, .plain, false⟩
/-! `HIF.POISONCNT` (09_host_interface.md Table 9-17). -/
/-- Poisoned data received -/
def F.HIF_POISONCNT : Fld := ⟨213, 0, 32, 1, .rc, .none, 0, .none, .plain, false⟩
/-! `HIF.CQSTALLCNT` (09_host_interface.md Table 9-17). -/
/-- Request-frames passed over for a full completion ring -/
def F.HIF_CQSTALLCNT : Fld := ⟨214, 0, 32, 1, .rc, .none, 0, .none, .plain, false⟩
/-! `HIF.FETCHLATECNT` (09_host_interface.md Table 9-17). -/
/-- Late prompt fetches (R308) -/
def F.HIF_FETCHLATECNT : Fld := ⟨215, 0, 32, 1, .rc, .none, 0, .none, .plain, false⟩
/-! `HIF.TOKMISSCNT` (09_host_interface.md Table 9-17). -/
/-- Exit slots without a token (R309) -/
def F.HIF_TOKMISSCNT : Fld := ⟨216, 0, 32, 1, .rc, .none, 0, .none, .plain, false⟩
/-! `HIF.FLRCNT` (09_host_interface.md Table 9-17). -/
/-- Function Level Resets, hot resets included -/
def F.HIF_FLRCNT : Fld := ⟨217, 0, 32, 1, .rc, .none, 0, .none, .plain, false⟩
/-! `HIF.RETRAINCNT` (09_host_interface.md Table 9-17). -/
/-- Link retrains -/
def F.HIF_RETRAINCNT : Fld := ⟨218, 0, 32, 1, .rc, .none, 0, .none, .plain, false⟩
/-! `RGR.STATUS` (10_ranger_firmware.md Table 10-9). -/
/-- Firmware slot running: 0 first, 1 second -/
def F.RGR_STATUS_SLOT : Fld := ⟨219, 24, 1, 1, .ro, .none, 0, .vault, .plain, false⟩
/-- 1 while this half holds the current epoch -/
def F.RGR_STATUS_LEADER : Fld := ⟨220, 17, 1, 1, .ro, .none, 0, .none, .plain, false⟩
/-- 1 while any core of the complex runs -/
def F.RGR_STATUS_UP : Fld := ⟨221, 16, 1, 1, .ro, .none, 0, .none, .plain, false⟩
/-- Four 4-bit states, bits [4j + 3:4j] for core j of the half: 0x0 RUN; 0x1 IDLE; 0x2 DOWN; 0x3 RELOADING; ... -/
def F.RGR_STATUS_CORE : Fld := ⟨222, 0, 16, 1, .ro, .none, 0x5555, .none, .plain, false⟩
/-! `RGR.LATCH` (10_ranger_firmware.md Table 10-9). -/
/-- 0b00 none; 0b01 West; 0b10 East; 0b11 not used -/
def F.RGR_LATCH_HOLDER : Fld := ⟨223, 16, 2, 1, .ro, .none, 0, .none, .plain, false⟩
/-- Refresh timer in whole µs, 0–50 -/
def F.RGR_LATCH_AGE_US : Fld := ⟨224, 0, 6, 1, .ro, .none, 0, .none, .plain, false⟩
/-! `RGR.EPOCH` (10_ranger_firmware.md Table 10-9). -/
/-- Current epoch (R343) -/
def F.RGR_EPOCH : Fld := ⟨225, 0, 32, 1, .ro, .none, 0, .none, .plain, false⟩
/-! `RGR.LASTCRASH` (10_ranger_firmware.md Table 10-9). -/
/-- 0 none; 1 watchdog; 2 fatal trap; 3 uncorrectable SRAM; 4 kernel crash code -/
def F.RGR_LASTCRASH_CAUSE : Fld := ⟨226, 24, 8, 1, .ro, .none, 0, .none, .plain, false⟩
/-- Frame number bits [15:0] at the crash -/
def F.RGR_LASTCRASH_FRAME : Fld := ⟨227, 8, 16, 1, .ro, .none, 0, .none, .plain, false⟩
/-- Ranger core index, 0–7 -/
def F.RGR_LASTCRASH_CORE : Fld := ⟨228, 0, 3, 1, .ro, .none, 0, .none, .plain, false⟩
/-! `RGR.QMAP_SEL` (10_ranger_firmware.md Table 10-9). -/
/-- Queue, 0–1,023 -/
def F.RGR_QMAP_SEL_QUEUE : Fld := ⟨229, 0, 10, 1, .rw, .opr, 0, .none, .plain, false⟩
/-! `RGR.QMAP_DATA` (10_ranger_firmware.md Table 10-9). -/
/-- 1 when the queue is enabled and has an owner -/
def F.RGR_QMAP_DATA_OWNED : Fld := ⟨230, 31, 1, 1, .ro, .none, 0, .none, .plain, false⟩
/-- Owner core, 0–7 -/
def F.RGR_QMAP_DATA_RCORE : Fld := ⟨231, 0, 3, 1, .ro, .none, 0, .none, .plain, false⟩
/-! `RGR.CRASHCNT` (10_ranger_firmware.md Table 10-10). -/
/-- Crashes of this half's cores (R340) -/
def F.RGR_CRASHCNT : Fld := ⟨232, 0, 32, 1, .rc, .none, 0, .none, .plain, false⟩
/-! `RGR.RELOADCNT` (10_ranger_firmware.md Table 10-10). -/
/-- Completed reloads (R342) -/
def F.RGR_RELOADCNT : Fld := ⟨233, 0, 32, 1, .rc, .none, 0, .none, .plain, false⟩
/-! `RGR.STALECMTCNT` (10_ranger_firmware.md Table 10-10). -/
/-- Commit requests refused for epoch (R347) -/
def F.RGR_STALECMTCNT : Fld := ⟨234, 0, 32, 1, .rc, .none, 0, .none, .plain, false⟩
/-! `RGR.STALETXCNT` (10_ranger_firmware.md Table 10-10). -/
/-- Fabric messages discarded for epoch -/
def F.RGR_STALETXCNT : Fld := ⟨235, 0, 32, 1, .rc, .none, 0, .none, .plain, false⟩
/-! `RGR.CLAIMCNT` (10_ranger_firmware.md Table 10-10). -/
/-- Claims granted to this half -/
def F.RGR_CLAIMCNT : Fld := ⟨236, 0, 32, 1, .rc, .none, 0, .none, .plain, false⟩
/-! `RGR.NOLEADCNT` (10_ranger_firmware.md Table 10-10). -/
/-- Boundaries with no holder (R348) -/
def F.RGR_NOLEADCNT : Fld := ⟨237, 0, 32, 1, .rc, .none, 0, .none, .plain, false⟩
/-! `INTC.PRIO[w]` (10_ranger_firmware.md Table 10-11). -/
/-- Priority of source 8w + i, 0–15; the field of source 1,023 reads 0 and ignores writes -/
def F.INTC_PRIO : Fld := ⟨238, 0, 4, 8, .rw, .fw, 0, .none, .plain, false⟩
/-! `INTC.PEND[w]` (10_ranger_firmware.md Table 10-11). -/
/-- 1 while source 32w + i is pending -/
def F.INTC_PEND : Fld := ⟨239, 0, 1, 32, .w1c, .fw, 0, .none, .plain, false⟩
/-! `INTC.EN[k][w]` (10_ranger_firmware.md Table 10-11). -/
/-- 1 enables source 32w + i for target k -/
def F.INTC_EN : Fld := ⟨240, 0, 1, 32, .rw, .fw, 0, .none, .plain, false⟩
/-! `INTC.THRESH[k]` (10_ranger_firmware.md Table 10-11). -/
/-- Threshold of target k -/
def F.INTC_THRESH : Fld := ⟨241, 0, 4, 1, .rw, .fw, 15, .none, .plain, false⟩
/-! `INTC.CLAIM[k]` (10_ranger_firmware.md Table 10-11). -/
/-- Last identity claimed by target k; firmware's claim and completion act under R336 -/
def F.INTC_CLAIM_ID : Fld := ⟨242, 0, 10, 1, .ro, .none, 0x3ff, .none, .plain, false⟩
/-! `INTC.SPURCNT` (10_ranger_firmware.md Table 10-11). -/
/-- Claims returning 1,023 -/
def F.INTC_SPURCNT : Fld := ⟨243, 0, 32, 1, .rc, .none, 0, .none, .plain, false⟩
/-! `INTC.MERGECNT` (10_ranger_firmware.md Table 10-11). -/
/-- Edges merged (R334, R338) -/
def F.INTC_MERGECNT : Fld := ⟨244, 0, 32, 1, .rc, .none, 0, .none, .plain, false⟩
/-! `INTC.WAKECNT` (10_ranger_firmware.md Table 10-11). -/
/-- Firmware-clock restarts by latched edges -/
def F.INTC_WAKECNT : Fld := ⟨245, 0, 32, 1, .rc, .none, 0, .none, .plain, false⟩
/-! `PRT.CTL` (12_links_and_fabric.md Table 12-11). -/
/-- 1 loops the transmitted lanes back to the receiver for test -/
def F.PRT_CTL_LOOPBACK : Fld := ⟨246, 2, 1, 1, .rw, .mkr, 0, .none, .plain, false⟩
/-- 1 takes the link down and trains it again -/
def F.PRT_CTL_RETRAIN : Fld := ⟨247, 1, 1, 1, .wo, .opr, 0, .none, .plain, true⟩
/-- 1 enables the port; reads 0 and ignores writes while DISABLED -/
def F.PRT_CTL_ENABLE : Fld := ⟨248, 0, 1, 1, .rwl, .ins, 1, .none, .portEnable, false⟩
/-! `PRT.STATUS` (12_links_and_fabric.md Table 12-11). -/
/-- Bit c is 1 while the partner pauses class c -/
def F.PRT_STATUS_PAUSED_TX : Fld := ⟨249, 20, 4, 1, .ro, .none, 0, .none, .plain, false⟩
/-- Bit c is 1 while this port pauses class c -/
def F.PRT_STATUS_PAUSED_RX : Fld := ⟨250, 16, 4, 1, .ro, .none, 0, .none, .plain, false⟩
/-- Cause of the last link-down: 0 none; 1 loss of signal; 2 FEC lock lost; 3 RETRAIN; 4 disabled -/
def F.PRT_STATUS_LAST_DOWN : Fld := ⟨251, 8, 4, 1, .ro, .none, 0, .none, .plain, false⟩
/-- 1 when history has disabled the port (R383) -/
def F.PRT_STATUS_DISABLED : Fld := ⟨252, 3, 1, 1, .ro, .none, 0, .vault, .plain, false⟩
/-- 1 during negotiation and training -/
def F.PRT_STATUS_TRAINING : Fld := ⟨253, 2, 1, 1, .ro, .none, 0, .none, .plain, false⟩
/-- 1 while the FEC decoder is locked -/
def F.PRT_STATUS_FEC_LOCK : Fld := ⟨254, 1, 1, 1, .ro, .none, 0, .none, .plain, false⟩
/-- 1 while the link is up -/
def F.PRT_STATUS_UP : Fld := ⟨255, 0, 1, 1, .ro, .none, 0, .none, .plain, false⟩
/-! `PRT.RXCFG` (12_links_and_fabric.md Table 12-11). -/
/-- Resume level in units of 256 B -/
def F.PRT_RXCFG_XON : Fld := ⟨256, 16, 10, 1, .rwl, .ins, 85, .none, .xon, false⟩
/-- Pause level in units of 256 B; a write leaving XON ≥ XOFF is ignored -/
def F.PRT_RXCFG_XOFF : Fld := ⟨257, 0, 10, 1, .rwl, .ins, 170, .none, .xoff, false⟩
/-! `PRT.RXCAP` (12_links_and_fabric.md Table 12-11). -/
/-- Class-1 occupancy cap in units of 256 B -/
def F.PRT_RXCAP_RELAY_CAP : Fld := ⟨258, 0, 10, 1, .rwl, .ins, 128, .none, .plain, false⟩
/-! `PRT.FECCORCNT` (12_links_and_fabric.md Table 12-12). -/
/-- Codewords corrected -/
def F.PRT_FECCORCNT : Fld := ⟨259, 0, 32, 1, .rc, .none, 0, .none, .plain, false⟩
/-! `PRT.FECUNCCNT` (12_links_and_fabric.md Table 12-12). -/
/-- Codewords uncorrected -/
def F.PRT_FECUNCCNT : Fld := ⟨260, 0, 32, 1, .rc, .none, 0, .none, .plain, false⟩
/-! `PRT.FCSERRCNT` (12_links_and_fabric.md Table 12-12). -/
/-- Frames dropped for FCS -/
def F.PRT_FCSERRCNT : Fld := ⟨261, 0, 32, 1, .rc, .none, 0, .none, .plain, false⟩
/-! `PRT.RXDROPCNT` (12_links_and_fabric.md Table 12-12). -/
/-- Frames dropped for buffer space (R388) -/
def F.PRT_RXDROPCNT : Fld := ⟨262, 0, 32, 1, .rc, .none, 0, .none, .plain, false⟩
/-! `PRT.PAUSERXCNT` (12_links_and_fabric.md Table 12-12). -/
/-- Pause frames received -/
def F.PRT_PAUSERXCNT : Fld := ⟨263, 0, 32, 1, .rc, .none, 0, .none, .plain, false⟩
/-! `PRT.PAUSETXCNT` (12_links_and_fabric.md Table 12-12). -/
/-- Pause frames sent -/
def F.PRT_PAUSETXCNT : Fld := ⟨264, 0, 32, 1, .rc, .none, 0, .none, .plain, false⟩
/-! `PRT.POISONCNT` (12_links_and_fabric.md Table 12-12). -/
/-- Poisoned frames received -/
def F.PRT_POISONCNT : Fld := ⟨265, 0, 32, 1, .rc, .none, 0, .none, .plain, false⟩
/-! `PRT.UNDECLCNT` (12_links_and_fabric.md Table 12-12). -/
/-- Frames dropped by checks 2–5 of R390 -/
def F.PRT_UNDECLCNT : Fld := ⟨266, 0, 32, 1, .rc, .none, 0, .none, .plain, false⟩
/-! `PRT.STALECNT` (12_links_and_fabric.md Table 12-12). -/
/-- Leg data of another frame -/
def F.PRT_STALECNT : Fld := ⟨267, 0, 32, 1, .rc, .none, 0, .none, .plain, false⟩
/-! `PRT.LINKDOWNCNT` (12_links_and_fabric.md Table 12-12). -/
/-- Link-downs -/
def F.PRT_LINKDOWNCNT : Fld := ⟨268, 0, 32, 1, .rc, .none, 0, .none, .plain, false⟩
/-! `PRT.PARTNUM` (12_links_and_fabric.md Table 12-13). -/
/-- MAC prefix (R381) -/
def F.PRT_PARTNUM_MACPFX : Fld := ⟨269, 16, 16, 1, .rwl, .ins, 0x200, .none, .plain, false⟩
/-- Fabric part number; also written by ASSUME -/
def F.PRT_PARTNUM_PART : Fld := ⟨270, 0, 16, 1, .rwl, .ins, 0xffff, .none, .plain, false⟩
/-! `PRT.ETHERTYPE` (12_links_and_fabric.md Table 12-13). -/
/-- 802.1Q VID of every frame -/
def F.PRT_ETHERTYPE_VID : Fld := ⟨271, 16, 12, 1, .rwl, .ins, 0, .none, .plain, false⟩
/-- Rilnel EtherType; a write below 0x0600 is ignored -/
def F.PRT_ETHERTYPE_TYPE : Fld := ⟨272, 0, 16, 1, .rwl, .ins, 0x88b5, .none, (.floorIgnored 0x600), false⟩
/-! `PRT.PCPMAP` (12_links_and_fabric.md Table 12-13). -/
/-- PCP of class 3 -/
def F.PRT_PCPMAP_TC3 : Fld := ⟨273, 9, 3, 1, .rwl, .ins, 6, .none, .plain, false⟩
/-- PCP of class 2 -/
def F.PRT_PCPMAP_TC2 : Fld := ⟨274, 6, 3, 1, .rwl, .ins, 4, .none, .plain, false⟩
/-- PCP of class 1 -/
def F.PRT_PCPMAP_TC1 : Fld := ⟨275, 3, 3, 1, .rwl, .ins, 1, .none, .plain, false⟩
/-- PCP of class 0 -/
def F.PRT_PCPMAP_TC0 : Fld := ⟨276, 0, 3, 1, .rwl, .ins, 2, .none, .plain, false⟩
/-! `PRT.WHISTLE` (12_links_and_fabric.md Table 12-13). -/
/-- Send whistle messages as whistling manager -/
def F.PRT_WHISTLE_MSG_EN : Fld := ⟨277, 2, 1, 1, .rwl, .ins, 0, .none, .plain, false⟩
/-- Drive WHISTLE_OUT as manager -/
def F.PRT_WHISTLE_OUT_EN : Fld := ⟨278, 1, 1, 1, .rwl, .ins, 0, .none, .plain, false⟩
/-- 0 WHISTLE_IN; 1 whistle messages -/
def F.PRT_WHISTLE_SOURCE : Fld := ⟨279, 0, 1, 1, .rwl, .ins, 0, .none, .plain, false⟩
/-! `PRT.MGRCFG` (12_links_and_fabric.md Table 12-13). -/
/-- System manager's part number; 0xFFFF for none -/
def F.PRT_MGRCFG_SYSMGR : Fld := ⟨280, 16, 16, 1, .rwl, .ins, 0xffff, .none, .plain, false⟩
/-- Rack manager's part number -/
def F.PRT_MGRCFG_RACKMGR : Fld := ⟨281, 0, 16, 1, .rwl, .ins, 0xffff, .none, .plain, false⟩
/-! `PRT.STBYCFG` (12_links_and_fabric.md Table 12-13). -/
/-- Standby for the system manager -/
def F.PRT_STBYCFG_SYSSTBY : Fld := ⟨282, 16, 16, 1, .rwl, .ins, 0xffff, .none, .plain, false⟩
/-- Standby for the rack manager; a standby stands in for the manager whose standby field holds its own number -/
def F.PRT_STBYCFG_RACKSTBY : Fld := ⟨283, 0, 16, 1, .rwl, .ins, 0xffff, .none, .plain, false⟩
/-! `PRT.ROLLCALL` (12_links_and_fabric.md Table 12-13). -/
/-- 8–4,096; a write outside the range is stored as the nearer limit -/
def F.PRT_ROLLCALL_FRAMES : Fld := ⟨284, 0, 13, 1, .rwl, .ins, 64, .none, (.clamp 8 4096), false⟩
/-! `PRT.DOM_SEL` (12_links_and_fabric.md Table 12-13). -/
/-- Domain entry, 0–4,095 -/
def F.PRT_DOM_SEL_IDX : Fld := ⟨285, 0, 12, 1, .rw, .opr, 0, .none, .plain, false⟩
/-! `PRT.DOM_DATA` (12_links_and_fabric.md Table 12-13). -/
/-- 1 when the entry names a member -/
def F.PRT_DOM_DATA_VALID : Fld := ⟨286, 31, 1, 1, .rwl, .ins, 0, .none, .plain, false⟩
/-- R402 -/
def F.PRT_DOM_DATA_ABSENT : Fld := ⟨287, 20, 1, 1, .ro, .none, 0, .none, .plain, false⟩
/-- R406 -/
def F.PRT_DOM_DATA_WITHDRAWN : Fld := ⟨288, 19, 1, 1, .ro, .none, 0, .none, .plain, false⟩
/-- Member of this rack manager's rack -/
def F.PRT_DOM_DATA_RACK : Fld := ⟨289, 18, 1, 1, .rwl, .ins, 0, .none, .plain, false⟩
/-- Spare-tray part -/
def F.PRT_DOM_DATA_SPARE : Fld := ⟨290, 17, 1, 1, .rwl, .ins, 0, .none, .plain, false⟩
/-- Seed part -/
def F.PRT_DOM_DATA_SEED : Fld := ⟨291, 16, 1, 1, .rwl, .ins, 0, .none, .plain, false⟩
/-- Member's part number -/
def F.PRT_DOM_DATA_PART : Fld := ⟨292, 0, 16, 1, .rwl, .ins, 0xffff, .none, .plain, false⟩
/-! `PRT.MGRSTATE` (12_links_and_fabric.md Table 12-14). -/
/-- Current rack manager -/
def F.PRT_MGRSTATE_RMGR : Fld := ⟨293, 16, 16, 1, .ro, .none, 0xffff, .none, .plain, false⟩
/-- Current whistling manager -/
def F.PRT_MGRSTATE_WMGR : Fld := ⟨294, 0, 16, 1, .ro, .none, 0xffff, .none, .plain, false⟩
/-! `PRT.MGREPOCH` (12_links_and_fabric.md Table 12-14). -/
/-- Highest manager epoch seen -/
def F.PRT_MGREPOCH_EPOCH : Fld := ⟨295, 0, 32, 1, .ro, .none, 0, .none, .plain, false⟩
/-! `PRT.ROLE` (12_links_and_fabric.md Table 12-14). -/
/-- 1 after this part took over under R407 -/
def F.PRT_ROLE_TOOK_OVER : Fld := ⟨296, 2, 1, 1, .ro, .none, 0, .none, .plain, false⟩
/-- 1 while acting as rack manager -/
def F.PRT_ROLE_RACK : Fld := ⟨297, 1, 1, 1, .ro, .none, 0, .none, .plain, false⟩
/-- 1 while acting as whistling manager -/
def F.PRT_ROLE_WHISTLE : Fld := ⟨298, 0, 1, 1, .ro, .none, 0, .none, .plain, false⟩
/-! `PRT.TALLY` (12_links_and_fabric.md Table 12-14). -/
/-- LIST_ACKs for the current frame -/
def F.PRT_TALLY_ACKS : Fld := ⟨299, 16, 13, 1, .ro, .none, 0, .none, .plain, false⟩
/-- READYs for the current frame -/
def F.PRT_TALLY_READY : Fld := ⟨300, 0, 13, 1, .ro, .none, 0, .none, .plain, false⟩
/-! `PRT.WPINCNT` (12_links_and_fabric.md Table 12-14). -/
/-- Edges taken on WHISTLE_IN -/
def F.PRT_WPINCNT : Fld := ⟨301, 0, 32, 1, .rc, .none, 0, .none, .plain, false⟩
/-! `PRT.WGLITCHCNT` (12_links_and_fabric.md Table 12-14). -/
/-- Pulses ignored -/
def F.PRT_WGLITCHCNT : Fld := ⟨302, 0, 32, 1, .rc, .none, 0, .none, .plain, false⟩
/-! `PRT.MGRDROPCNT` (12_links_and_fabric.md Table 12-14). -/
/-- Manager messages dropped (R401) -/
def F.PRT_MGRDROPCNT : Fld := ⟨303, 0, 32, 1, .rc, .none, 0, .none, .plain, false⟩
/-! `PRT.RETXCNT` (12_links_and_fabric.md Table 12-14). -/
/-- Firmware messages sent again -/
def F.PRT_RETXCNT : Fld := ⟨304, 0, 32, 1, .rc, .none, 0, .none, .plain, false⟩
/-! `PRT.UNREACHCNT` (12_links_and_fabric.md Table 12-14). -/
/-- Peers given up (R392) -/
def F.PRT_UNREACHCNT : Fld := ⟨305, 0, 32, 1, .rc, .none, 0, .none, .plain, false⟩
/-! `MET.CONV` (13_calibration_and_thermal.md Table 13-8). -/
/-- 1 starts a conversion (R418) -/
def F.MET_CONV_START : Fld := ⟨306, 31, 1, 1, .wo, .fw, 0, .none, .plain, true⟩
/-- 1 makes an urgent request (R419) -/
def F.MET_CONV_URGENT : Fld := ⟨307, 30, 1, 1, .wo, .fw, 0, .none, .plain, true⟩
/-- Table 13-3; 0b11 is stored as 0b10 -/
def F.MET_CONV_NOTCH : Fld := ⟨308, 12, 2, 1, .rw, .fw, 0, .none, (.cap 2), false⟩
/-- Sinc order − 1 -/
def F.MET_CONV_ORDER : Fld := ⟨309, 8, 2, 1, .rw, .fw, 0, .none, .plain, false⟩
/-- Channel, Table 13-2; 13–15 take effect only at the maker role, otherwise 3 is converted -/
def F.MET_CONV_CH : Fld := ⟨310, 0, 4, 1, .rw, .fw, 0, .none, .plain, false⟩
/-! `MET.STATUS` (13_calibration_and_thermal.md Table 13-8). -/
/-- R415 -/
def F.MET_STATUS_REFIN_FAULT : Fld := ⟨311, 9, 1, 1, .ro, .none, 0, .none, .plain, false⟩
/-- Window comparator of R415 -/
def F.MET_STATUS_REFIN_OK : Fld := ⟨312, 8, 1, 1, .ro, .none, 0, .none, .plain, false⟩
/-- Channel of the running conversion -/
def F.MET_STATUS_CH : Fld := ⟨313, 4, 4, 1, .ro, .none, 0, .none, .plain, false⟩
/-- 1 while an urgent request is held -/
def F.MET_STATUS_URGENT_PEND : Fld := ⟨314, 2, 1, 1, .ro, .none, 0, .none, .plain, false⟩
/-- 0b00 OFF; 0b01 WAKING; 0b10 CONVERTING; 0b11 not used -/
def F.MET_STATUS_STATE : Fld := ⟨315, 0, 2, 1, .ro, .none, 0, .none, .plain, false⟩
/-! `MET.REFIN` (13_calibration_and_thermal.md Table 13-8). -/
/-- REFIN in µV (R414); reset value 2,500,000, replaced from the vault at start-up -/
def F.MET_REFIN_UV : Fld := ⟨316, 0, 22, 1, .rwl, .ins, 0x2625a0, .none, .plain, true⟩
/-! `MET.TAP_SEL` (13_calibration_and_thermal.md Table 13-8). -/
/-- Site index of R121 -/
def F.MET_TAP_SEL_SITE : Fld := ⟨317, 16, 11, 1, .rw, .fw, 0, .none, .plain, false⟩
/-- Array, 0–15 -/
def F.MET_TAP_SEL_ARRAY : Fld := ⟨318, 8, 4, 1, .rw, .fw, 0, .none, .plain, false⟩
/-- 0 TOP; 1 BOT; 2 RWL; 3 SBIAS across 100 kΩ; 4 region reference of the site's region; 5–7 are stored as 4 -/
def F.MET_TAP_SEL_WHAT : Fld := ⟨319, 0, 3, 1, .rw, .fw, 0, .none, (.cap 4), false⟩
/-! `MET.CALCFG` (13_calibration_and_thermal.md Table 13-8). -/
/-- °C, 2–8; a write outside the range is stored as the nearer limit -/
def F.MET_CALCFG_DRIFT : Fld := ⟨320, 8, 4, 1, .rwl, .ins, 5, .none, (.clamp 2 8), false⟩
/-- Routine sinc order − 1 -/
def F.MET_CALCFG_ORDER : Fld := ⟨321, 4, 2, 1, .rwl, .ins, 0, .none, .plain, false⟩
/-- Routine notch: 0b00 50 Hz; 0b01 60 Hz; 0b10 both; a write of 0b11 is ignored -/
def F.MET_CALCFG_MAINS : Fld := ⟨322, 0, 2, 1, .rwl, .ins, 0, .none, (.aboveIgnored 2), false⟩
/-! `MET.CAL_SEL` (13_calibration_and_thermal.md Table 13-9). -/
/-- Site index of R121 -/
def F.MET_CAL_SEL_SITE : Fld := ⟨323, 16, 11, 1, .rw, .opr, 0, .none, .plain, false⟩
/-- Array, 0–15 -/
def F.MET_CAL_SEL_ARRAY : Fld := ⟨324, 0, 4, 1, .rw, .opr, 0, .none, .plain, false⟩
/-! `MET.CAL_DATA` (13_calibration_and_thermal.md Table 13-9). -/
/-- R429 -/
def F.MET_CAL_DATA_LATE : Fld := ⟨325, 31, 1, 1, .ro, .none, 0, .none, .plain, false⟩
/-- R429 -/
def F.MET_CAL_DATA_DUE : Fld := ⟨326, 30, 1, 1, .ro, .none, 0, .none, .plain, false⟩
/-- Last calibration failed (R431) -/
def F.MET_CAL_DATA_FAILED : Fld := ⟨327, 29, 1, 1, .ro, .none, 0, .none, .plain, false⟩
/-- 1 once calibrated since reset -/
def F.MET_CAL_DATA_VALID : Fld := ⟨328, 28, 1, 1, .ro, .none, 0, .none, .plain, false⟩
/-- T_SET in 1/64 °C, two's complement -/
def F.MET_CAL_DATA_TSET : Fld := ⟨329, 0, 16, 1, .ro, .none, 0, .none, .plain, false⟩
/-! `MET.REGTRIM[r]` (13_calibration_and_thermal.md Table 13-9). -/
/-- Region trim (R427, R428); written only while HALTED or EMPTY -/
def F.MET_REGTRIM_CODE : Fld := ⟨330, 0, 16, 1, .rw, .fw, 0, .vault, .plain, false⟩
/-! `MET.RES[ch]` (13_calibration_and_thermal.md Table 13-10). -/
/-- Result sequence (R421) -/
def F.MET_RES_SEQ : Fld := ⟨331, 28, 4, 1, .ro, .none, 0, .none, .plain, false⟩
/-- Input beyond range (R416) -/
def F.MET_RES_OVR : Fld := ⟨332, 26, 1, 1, .ro, .none, 0, .none, .plain, false⟩
/-- R421 -/
def F.MET_RES_STALE : Fld := ⟨333, 25, 1, 1, .ro, .none, 0, .none, .plain, false⟩
/-- R421 -/
def F.MET_RES_VALID : Fld := ⟨334, 24, 1, 1, .ro, .none, 0, .none, .plain, false⟩
/-- Code D, two's complement -/
def F.MET_RES_VALUE : Fld := ⟨335, 0, 24, 1, .ro, .none, 0, .none, .plain, false⟩
/-! `MET.AGE[ch]` (13_calibration_and_thermal.md Table 13-10). -/
/-- As in MET.RES[ch] -/
def F.MET_AGE_SEQ : Fld := ⟨336, 28, 4, 1, .ro, .none, 0, .none, .plain, false⟩
/-- Notch of the result -/
def F.MET_AGE_NOTCH : Fld := ⟨337, 26, 2, 1, .ro, .none, 0, .none, .plain, false⟩
/-- Order − 1 of the result -/
def F.MET_AGE_ORDER : Fld := ⟨338, 24, 2, 1, .ro, .none, 0, .none, .plain, false⟩
/-- Milliseconds since the result, saturating -/
def F.MET_AGE_AGE_MS : Fld := ⟨339, 0, 20, 1, .ro, .none, 0xfffff, .none, .plain, false⟩
/-! `THM.TEMP` (13_calibration_and_thermal.md Table 13-11). -/
/-- 1 once a valid reading exists -/
def F.THM_TEMP_VALID : Fld := ⟨340, 31, 1, 1, .ro, .none, 0, .none, .plain, false⟩
/-- Channel 0 held value is STALE -/
def F.THM_TEMP_STALE : Fld := ⟨341, 30, 1, 1, .ro, .none, 0, .none, .plain, false⟩
/-- R424 -/
def F.THM_TEMP_FAULT : Fld := ⟨342, 29, 1, 1, .ro, .none, 0, .none, .plain, false⟩
/-- R423 -/
def F.THM_TEMP_OVER : Fld := ⟨343, 28, 1, 1, .ro, .none, 0, .none, .plain, false⟩
/-- SEQ of the channel 0 result -/
def F.THM_TEMP_SEQ : Fld := ⟨344, 16, 4, 1, .ro, .none, 0, .none, .plain, false⟩
/-- Die temperature in 1/64 °C, two's complement -/
def F.THM_TEMP : Fld := ⟨345, 0, 16, 1, .rw, .fw, 0, .none, .plain, false⟩
/-! `THM.TRIP` (13_calibration_and_thermal.md Table 13-11). -/
/-- 1 trips the comparator for return analysis; the part then shuts down under R426 -/
def F.THM_TRIP_TEST : Fld := ⟨346, 16, 1, 1, .wo, .mkr, 0, .none, .plain, true⟩
/-- 1 during the blanking of R425 -/
def F.THM_TRIP_BLANK : Fld := ⟨347, 8, 1, 1, .ro, .none, 1, .none, .plain, false⟩
/-- Trip on the open level -/
def F.THM_TRIP_OPEN : Fld := ⟨348, 2, 1, 1, .ro, .none, 0, .none, .plain, false⟩
/-- Trip on the low level: too hot, or shorted -/
def F.THM_TRIP_LOW : Fld := ⟨349, 1, 1, 1, .ro, .none, 0, .none, .plain, false⟩
/-- Latched until VDD_AON falls (R426) -/
def F.THM_TRIP_TRIPPED : Fld := ⟨350, 0, 1, 1, .ro, .none, 0, .none, .plain, false⟩
/-! `THM.DIODE` (13_calibration_and_thermal.md Table 13-11). -/
/-- c in nV/K (R422) -/
def F.THM_DIODE_COEF : Fld := ⟨351, 0, 18, 1, .ro, .none, 0, .vault, .plain, false⟩
/-! `MET.URGCNT` (13_calibration_and_thermal.md Table 13-11). -/
/-- Urgent conversions -/
def F.MET_URGCNT : Fld := ⟨352, 0, 32, 1, .rc, .none, 0, .none, .plain, false⟩
/-! `MET.BUSYCNT` (13_calibration_and_thermal.md Table 13-11). -/
/-- Requests refused (R418, R419) -/
def F.MET_BUSYCNT : Fld := ⟨353, 0, 32, 1, .rc, .none, 0, .none, .plain, false⟩
/-! `MET.REFINERRCNT` (13_calibration_and_thermal.md Table 13-11). -/
/-- Conversions made with REFIN_FAULT set -/
def F.MET_REFINERRCNT : Fld := ⟨354, 0, 32, 1, .rc, .none, 0, .none, .plain, false⟩
/-! `MET.CALFAILCNT` (13_calibration_and_thermal.md Table 13-11). -/
/-- Failed calibrations and ignored region trim writes -/
def F.MET_CALFAILCNT : Fld := ⟨355, 0, 32, 1, .rc, .none, 0, .none, .plain, false⟩
/-! `MET.TRIMLATECNT` (13_calibration_and_thermal.md Table 13-11). -/
/-- Arrays in use that became LATE -/
def F.MET_TRIMLATECNT : Fld := ⟨356, 0, 32, 1, .rc, .none, 0, .none, .plain, false⟩
/-! `THM.OVERCNT` (13_calibration_and_thermal.md Table 13-11). -/
/-- Readings that set or kept OVER -/
def F.THM_OVERCNT : Fld := ⟨357, 0, 32, 1, .rc, .none, 0, .none, .plain, false⟩
/-! `THM.FAULTCNT` (13_calibration_and_thermal.md Table 13-11). -/
/-- Faulty readings -/
def F.THM_FAULTCNT : Fld := ⟨358, 0, 32, 1, .rc, .none, 0, .none, .plain, false⟩
/-! `THM.STALECNT` (13_calibration_and_thermal.md Table 13-11). -/
/-- Stale temperature intervals -/
def F.THM_STALECNT : Fld := ⟨359, 0, 32, 1, .rc, .none, 0, .none, .plain, false⟩
/-! `PWR.STATUS` (14_power_clocks_startup.md Table 14-10). -/
/-- R445; kept in the always-on island until SYS_RST_N falls -/
def F.PWR_STATUS_RAIL_FAULT : Fld := ⟨360, 11, 1, 1, .ro, .none, 0, .none, .plain, false⟩
/-- 1 while PWR_WARN_N is low -/
def F.PWR_STATUS_WARN : Fld := ⟨361, 10, 1, 1, .ro, .none, 0, .none, .plain, false⟩
/-- 1 while VPP_ARR is in regulation -/
def F.PWR_STATUS_VPP_ON : Fld := ⟨362, 9, 1, 1, .ro, .none, 0, .none, .plain, false⟩
/-- 1 while a clamp holds 800 MHz -/
def F.PWR_STATUS_FLOOR : Fld := ⟨363, 8, 1, 1, .ro, .none, 0, .none, .plain, false⟩
/-- R444 -/
def F.PWR_STATUS_DEGRADED : Fld := ⟨364, 7, 1, 1, .ro, .none, 0, .none, .plain, false⟩
/-- R448 -/
def F.PWR_STATUS_CLAMP : Fld := ⟨365, 6, 1, 1, .ro, .none, 0, .none, .plain, false⟩
/-- 1 while a state change runs -/
def F.PWR_STATUS_CHANGING : Fld := ⟨366, 2, 1, 1, .ro, .none, 0, .none, .plain, false⟩
/-- 0b00 Active; 0b01 Idle; 0b10 Doze; 0b11 Off, seen only over SMBus -/
def F.PWR_STATUS_STATE : Fld := ⟨367, 0, 2, 1, .ro, .none, 0, .none, .plain, false⟩
/-! `PWR.STATE_REQ` (14_power_clocks_startup.md Table 14-10). -/
/-- Requested state: 0b00 Active; 0b01 Idle; 0b10 Doze; a write of 0b11 is ignored; a refused request (R451) ... -/
def F.PWR_STATE_REQ_TARGET : Fld := ⟨368, 0, 2, 1, .rw, .opr, 0, .none, .plain, true⟩
/-! `PWR.LIMIT` (14_power_clocks_startup.md Table 14-10). -/
/-- Peak limit in W -/
def F.PWR_LIMIT_PEAK_W : Fld := ⟨369, 16, 12, 1, .ro, .none, 0x47e, .none, .plain, false⟩
/-- Sustained limit in W, 600–950; a write outside the range is stored as the nearer limit -/
def F.PWR_LIMIT_SUSTAIN_W : Fld := ⟨370, 0, 12, 1, .rwl, .ins, 0x3b6, .none, (.clamp 600 950), false⟩
/-! `PWR.ESTIMATE` (14_power_clocks_startup.md Table 14-10). -/
/-- Microseconds above SUSTAIN_W in the trailing 100 ms -/
def F.PWR_ESTIMATE_OVER_US : Fld := ⟨371, 16, 16, 1, .ro, .none, 0, .none, .plain, false⟩
/-- Present estimate in W (R447) -/
def F.PWR_ESTIMATE_WATTS : Fld := ⟨372, 0, 12, 1, .ro, .none, 0, .none, .plain, false⟩
/-! `PWR.CLAMPCFG` (14_power_clocks_startup.md Table 14-10). -/
/-- Clamp clock, 800–1,550 in steps of 50; other values are stored as the next lower step -/
def F.PWR_CLAMPCFG_MHZ : Fld := ⟨373, 0, 11, 1, .rwl, .ins, 0x4b0, .none, .step50, false⟩
/-! `PWR.RAIL_SEL` (14_power_clocks_startup.md Table 14-11). -/
/-- Rail index of Table 14-1, 0–6; 7 is stored as 6 -/
def F.PWR_RAIL_SEL_RAIL : Fld := ⟨374, 0, 3, 1, .rw, .opr, 0, .none, (.cap 6), false⟩
/-! `PWR.RAIL_DATA` (14_power_clocks_startup.md Table 14-11). -/
/-- 0b00 off; 0b01 ramping; 0b10 in regulation; 0b11 short or fault -/
def F.PWR_RAIL_DATA_STATE : Fld := ⟨375, 30, 2, 1, .ro, .none, 0, .none, .plain, false⟩
/-- Last READ_VOUT in mV -/
def F.PWR_RAIL_DATA_MEAS_MV : Fld := ⟨376, 16, 13, 1, .ro, .none, 0, .none, .plain, false⟩
/-- Commanded set-point in mV; V_FUSE for rail 0 -/
def F.PWR_RAIL_DATA_CMD_MV : Fld := ⟨377, 0, 13, 1, .ro, .none, 0, .vault, .plain, false⟩
/-! `PWR.RAIL_ADDR` (14_power_clocks_startup.md Table 14-11). -/
/-- PMBus page of the rail's output -/
def F.PWR_RAIL_ADDR_PAGE : Fld := ⟨378, 8, 8, 1, .rwl, .ins, 0, .vault, .plain, false⟩
/-- 7-bit PMBus address; stored in the vault and used from the next start -/
def F.PWR_RAIL_ADDR_ADDR : Fld := ⟨379, 0, 7, 1, .rwl, .ins, 0, .vault, .plain, false⟩
/-! `PWR.RESET` (14_power_clocks_startup.md Table 14-11). -/
/-- 0x0 power-on; 0x1 SYS_RST_N; 0x2 SYSRST; 0x3 REFCLK lost; 0x4 rail fault -/
def F.PWR_RESET_LASTCAUSE : Fld := ⟨380, 16, 4, 1, .ro, .none, 0, .none, .plain, false⟩
/-- 1 lowers every rail (R439) and enters Off -/
def F.PWR_RESET_OFF : Fld := ⟨381, 8, 1, 1, .wo, .ins, 0, .none, .plain, true⟩
/-- 1 performs a system reset followed by a cold start -/
def F.PWR_RESET_SYSRST : Fld := ⟨382, 0, 1, 1, .wo, .ins, 0, .none, .plain, true⟩
/-! `PWR.BOOT` (14_power_clocks_startup.md Table 14-12). -/
/-- Start count, bits [15:0] -/
def F.PWR_BOOT_START : Fld := ⟨383, 16, 16, 1, .ro, .none, 0, .vault, .plain, false⟩
/-- 1 clears every altered or skipped choice from the next start (R463) -/
def F.PWR_BOOT_CLEAR_ALT : Fld := ⟨384, 8, 1, 1, .wo, .ins, 0, .none, .plain, true⟩
/-- 1 after step 11 (R464) -/
def F.PWR_BOOT_READY : Fld := ⟨385, 4, 1, 1, .ro, .none, 0, .none, .plain, false⟩
/-- Step now running or last reached, 0–11 -/
def F.PWR_BOOT_STAGE : Fld := ⟨386, 0, 4, 1, .ro, .none, 0, .none, .plain, false⟩
/-! `PWR.BOOT_SEL` (14_power_clocks_startup.md Table 14-12). -/
/-- 0 this start, 1 the previous start, up to 15 -/
def F.PWR_BOOT_SEL_AGO : Fld := ⟨387, 8, 5, 1, .rw, .opr, 0, .none, .plain, false⟩
/-- Step, 0–11; 12–15 are stored as 11 -/
def F.PWR_BOOT_SEL_STEP : Fld := ⟨388, 0, 4, 1, .rw, .opr, 0, .none, (.cap 11), false⟩
/-! `PWR.BOOT_DATA` (14_power_clocks_startup.md Table 14-12). -/
/-- 0b00 not reached; 0b01 OK; 0b10 FAILED; 0b11 interrupted -/
def F.PWR_BOOT_DATA_OUTCOME : Fld := ⟨389, 30, 2, 1, .ro, .none, 0, .none, .plain, false⟩
/-- 0b00 normal; 0b01 altered; 0b10 skipped; 0b11 not used -/
def F.PWR_BOOT_DATA_MODE : Fld := ⟨390, 28, 2, 1, .ro, .none, 0, .none, .plain, false⟩
/-- Step 0: rail bitmap; step 1: slot tried, 0 or 1, 2 SPI NOR; step 5: bitmap of conservative stacks in bits ... -/
def F.PWR_BOOT_DATA_DETAIL : Fld := ⟨391, 16, 12, 1, .ro, .none, 0, .none, .plain, false⟩
/-- Duration of the step in ms, saturating -/
def F.PWR_BOOT_DATA_MS : Fld := ⟨392, 0, 16, 1, .ro, .none, 0, .none, .plain, false⟩
/-! `PWR.CLAMPCNT` (14_power_clocks_startup.md Table 14-13). -/
/-- Clamps (R448) -/
def F.PWR_CLAMPCNT : Fld := ⟨393, 0, 32, 1, .rc, .none, 0, .none, .plain, false⟩
/-! `PWR.DROOPCNT` (14_power_clocks_startup.md Table 14-13). -/
/-- Droop stretches (R443) -/
def F.PWR_DROOPCNT : Fld := ⟨394, 0, 32, 1, .rc, .none, 0, .none, .plain, false⟩
/-! `PWR.SHORTCNT` (14_power_clocks_startup.md Table 14-13). -/
/-- Entries into DEGRADED (R444) -/
def F.PWR_SHORTCNT : Fld := ⟨395, 0, 32, 1, .rc, .none, 0, .none, .plain, false⟩
/-! `PWR.PMBERRCNT` (14_power_clocks_startup.md Table 14-13). -/
/-- PMBus transactions failed twice (R441) -/
def F.PWR_PMBERRCNT : Fld := ⟨396, 0, 32, 1, .rc, .none, 0, .none, .plain, false⟩
/-! `PWR.WARNCNT` (14_power_clocks_startup.md Table 14-13). -/
/-- Falls of PWR_WARN_N -/
def F.PWR_WARNCNT : Fld := ⟨397, 0, 32, 1, .rc, .none, 0, .none, .plain, false⟩
/-! `CLK.STATUS` (14_power_clocks_startup.md Table 14-13). -/
/-- 1 while ETH_REFCLK runs -/
def F.CLK_STATUS_ETHREF_OK : Fld := ⟨398, 2, 1, 1, .ro, .none, 0, .none, .plain, false⟩
/-- 1 while PCIE_REFCLK runs -/
def F.CLK_STATUS_PCIEREF_OK : Fld := ⟨399, 1, 1, 1, .ro, .none, 0, .none, .plain, false⟩
/-- 1 while REFCLK runs -/
def F.CLK_STATUS_REF_OK : Fld := ⟨400, 0, 1, 1, .ro, .none, 0, .none, .plain, false⟩
/-! `CLK.TIME_LO` (14_power_clocks_startup.md Table 14-13). -/
/-- Time base bits [31:0] (R457); a read latches CLK.TIME_HI for the next read -/
def F.CLK_TIME_LO_NS : Fld := ⟨401, 0, 32, 1, .ro, .none, 0, .none, .plain, false⟩
/-! `CLK.TIME_HI` (14_power_clocks_startup.md Table 14-13). -/
/-- Time base bits [63:32], as latched -/
def F.CLK_TIME_HI_NS : Fld := ⟨402, 0, 32, 1, .ro, .none, 0, .none, .plain, false⟩
/-! `CLK.POWERED` (14_power_clocks_startup.md Table 14-13). -/
/-- Powered-hours count (R457) -/
def F.CLK_POWERED_HOURS : Fld := ⟨403, 0, 32, 1, .ro, .none, 0, .vault, .plain, false⟩
/-! `CLK.UNLOCKCNT` (14_power_clocks_startup.md Table 14-13). -/
/-- PLL lock losses (R455) -/
def F.CLK_UNLOCKCNT : Fld := ⟨404, 0, 32, 1, .rc, .none, 0, .none, .plain, false⟩
/-! `CLK.REFLOSSCNT` (14_power_clocks_startup.md Table 14-13). -/
/-- REFCLK losses (R456); kept in the always-on island -/
def F.CLK_REFLOSSCNT : Fld := ⟨405, 0, 32, 1, .rc, .none, 0, .none, .plain, false⟩
/-! `VLT.STATUS` (15_update_and_roles.md Table 15-11). -/
/-- Free units of the remap pool, 0–1,240 -/
def F.VLT_STATUS_POOL_FREE : Fld := ⟨406, 16, 16, 1, .ro, .none, 0, .vault, .plain, false⟩
/-- Journal entries not yet done -/
def F.VLT_STATUS_JOURNAL : Fld := ⟨407, 8, 8, 1, .ro, .none, 0, .none, .plain, false⟩
/-- 1 when this start copied journal entries to place (R469) -/
def F.VLT_STATUS_REPLAYED : Fld := ⟨408, 0, 1, 1, .ro, .none, 0, .none, .plain, false⟩
/-! `VLT.RECWRCNT` (15_update_and_roles.md Table 15-11). -/
/-- Atomic record writes -/
def F.VLT_RECWRCNT : Fld := ⟨409, 0, 32, 1, .rc, .none, 0, .none, .plain, false⟩
/-! `VLT.JREPLAYCNT` (15_update_and_roles.md Table 15-11). -/
/-- Journal entries copied to place at start -/
def F.VLT_JREPLAYCNT : Fld := ⟨410, 0, 32, 1, .rc, .none, 0, .none, .plain, false⟩
/-! `VLT.REMAPCNT` (15_update_and_roles.md Table 15-11). -/
/-- Units replaced from the pool (R470) -/
def F.VLT_REMAPCNT : Fld := ⟨411, 0, 32, 1, .rc, .none, 0, .none, .plain, false⟩
/-! `VLT.AUDITOVFCNT` (15_update_and_roles.md Table 15-11). -/
/-- Unread audit entries overwritten (R491) -/
def F.VLT_AUDITOVFCNT : Fld := ⟨412, 0, 32, 1, .rc, .none, 0, .none, .plain, false⟩
/-! `VLT.AUDIT_SEQ_LO` (15_update_and_roles.md Table 15-11). -/
/-- Next SEQ, bits [31:0]; a read latches VLT.AUDIT_SEQ_HI -/
def F.VLT_AUDIT_SEQ_LO_SEQ : Fld := ⟨413, 0, 32, 1, .ro, .none, 0, .vault, .plain, false⟩
/-! `VLT.AUDIT_SEQ_HI` (15_update_and_roles.md Table 15-11). -/
/-- Next SEQ, bits [63:32], as latched -/
def F.VLT_AUDIT_SEQ_HI_SEQ : Fld := ⟨414, 0, 32, 1, .ro, .none, 0, .vault, .plain, false⟩
/-! `SEC.LOCK` (15_update_and_roles.md Table 15-12). -/
/-- 1 while the diagnostic unlock is set (R490) -/
def F.SEC_LOCK_DIAG : Fld := ⟨415, 1, 1, 1, .ro, .none, 0, .none, .plain, false⟩
/-- 1 while the installer lock is set (R489) -/
def F.SEC_LOCK_LOCKED : Fld := ⟨416, 0, 1, 1, .ro, .none, 0, .vault, .plain, false⟩
/-! `SEC.FN_SEL` (15_update_and_roles.md Table 15-12). -/
/-- Function, 0–16; a write above 16 is stored as 16 -/
def F.SEC_FN_SEL_FN : Fld := ⟨417, 0, 5, 1, .rw, .opr, 0, .none, (.cap 16), false⟩
/-! `SEC.FN_ROLE` (15_update_and_roles.md Table 15-12). -/
/-- Index of the key that authenticated the role -/
def F.SEC_FN_ROLE_KEY : Fld := ⟨418, 16, 8, 1, .ro, .none, 0, .none, .plain, false⟩
/-- 1 while challenges are refused (R486) -/
def F.SEC_FN_ROLE_LOCKOUT : Fld := ⟨419, 8, 1, 1, .ro, .none, 0, .none, .plain, false⟩
/-- 0b00 none; 0b01 OPR; 0b10 INS; 0b11 MKR -/
def F.SEC_FN_ROLE_ROLE : Fld := ⟨420, 0, 2, 1, .ro, .none, 0, .none, .plain, false⟩
/-! `SEC.ENGINE` (15_update_and_roles.md Table 15-12). -/
/-- Code of the last answer (Table 15-8) -/
def F.SEC_ENGINE_LASTCODE : Fld := ⟨421, 24, 8, 1, .ro, .none, 0, .none, .plain, false⟩
/-- Requests waiting, 0–4 -/
def F.SEC_ENGINE_QUEUED : Fld := ⟨422, 0, 3, 1, .ro, .none, 0, .none, .plain, false⟩
/-! `SEC.VERIFYCNT` (15_update_and_roles.md Table 15-12). -/
/-- Verifications -/
def F.SEC_VERIFYCNT : Fld := ⟨423, 0, 32, 1, .rc, .none, 0, .none, .plain, false⟩
/-! `SEC.REJECTCNT` (15_update_and_roles.md Table 15-12). -/
/-- Answers other than VALID -/
def F.SEC_REJECTCNT : Fld := ⟨424, 0, 32, 1, .rc, .none, 0, .none, .plain, false⟩
/-! `SEC.AUTHFAILCNT` (15_update_and_roles.md Table 15-12). -/
/-- Failed ROLE_ASSUME -/
def F.SEC_AUTHFAILCNT : Fld := ⟨425, 0, 32, 1, .rc, .none, 0, .none, .plain, false⟩
/-! `UPD.STATUS` (15_update_and_roles.md Table 15-13). -/
/-- Result of the last update command -/
def F.UPD_STATUS_RESULT : Fld := ⟨426, 24, 8, 1, .ro, .none, 0, .none, .plain, false⟩
/-- 0x0 IDLE; 0x1 PREPARING; 0x2 RECEIVING; 0x3 ACT_PENDING; 0x4 PAUSE; 0x5 HANDOVER -/
def F.UPD_STATUS_SESSION : Fld := ⟨427, 16, 4, 1, .ro, .none, 0, .none, .plain, false⟩
/-- 1 while both configuration areas are kept (R481) -/
def F.UPD_STATUS_FMT_DUAL : Fld := ⟨428, 8, 1, 1, .ro, .none, 0, .vault, .plain, false⟩
/-- Slot last confirmed -/
def F.UPD_STATUS_CONFIRMED : Fld := ⟨429, 2, 1, 1, .ro, .none, 0, .vault, .plain, false⟩
/-- Slot whose runtime image runs -/
def F.UPD_STATUS_RUNNING : Fld := ⟨430, 1, 1, 1, .ro, .none, 0, .vault, .plain, false⟩
/-- Slot whose boot stage ran at this start -/
def F.UPD_STATUS_BOOTED : Fld := ⟨431, 0, 1, 1, .ro, .none, 0, .vault, .plain, false⟩
/-! `UPD.SLOT_SEL` (15_update_and_roles.md Table 15-13). -/
/-- Slot, 0 or 1 -/
def F.UPD_SLOT_SEL_SLOT : Fld := ⟨432, 0, 1, 1, .rw, .opr, 0, .none, .plain, false⟩
/-! `UPD.SLOT_STATE` (15_update_and_roles.md Table 15-13). -/
/-- 0x0 EMPTY; 0x1 WRITING; 0x2 UNCHECKED; 0x3 VERIFIED; 0x4 FAILED -/
def F.UPD_SLOT_STATE_BOOT : Fld := ⟨433, 28, 4, 1, .ro, .none, 0, .vault, .plain, false⟩
/-- 0x0 EMPTY; 0x1 WRITING; 0x2 VERIFIED -/
def F.UPD_SLOT_STATE_RUNTIME : Fld := ⟨434, 24, 4, 1, .ro, .none, 0, .vault, .plain, false⟩
/-- CFG_FORMAT of the runtime image -/
def F.UPD_SLOT_STATE_CFG_FORMAT : Fld := ⟨435, 0, 16, 1, .ro, .none, 0, .vault, .plain, false⟩
/-! `UPD.SLOT_BOOTVER` (15_update_and_roles.md Table 15-13). -/
/-- FW_VERSION of the boot stage -/
def F.UPD_SLOT_BOOTVER_VERSION : Fld := ⟨436, 0, 32, 1, .ro, .none, 0, .vault, .plain, false⟩
/-! `UPD.SLOT_RTVER` (15_update_and_roles.md Table 15-13). -/
/-- FW_VERSION of the runtime image -/
def F.UPD_SLOT_RTVER_VERSION : Fld := ⟨437, 0, 32, 1, .ro, .none, 0, .vault, .plain, false⟩
/-! `UPD.SVN_MIN` (15_update_and_roles.md Table 15-13). -/
/-- Lowest accepted SVN (R482) -/
def F.UPD_SVN_MIN_SVN : Fld := ⟨438, 0, 32, 1, .ro, .none, 0, .vault, .plain, false⟩
/-! `UPD.ACTCNT` (15_update_and_roles.md Table 15-13). -/
/-- Activations completed -/
def F.UPD_ACTCNT : Fld := ⟨439, 0, 32, 1, .rc, .none, 0, .none, .plain, false⟩
/-! `UPD.REFUSECNT` (15_update_and_roles.md Table 15-13). -/
/-- Refusals of Table 15-3 -/
def F.UPD_REFUSECNT : Fld := ⟨440, 0, 32, 1, .rc, .none, 0, .none, .plain, false⟩
/-! `UPD.ABORTCNT` (15_update_and_roles.md Table 15-13). -/
/-- Sessions and activations aborted (R476) -/
def F.UPD_ABORTCNT : Fld := ⟨441, 0, 32, 1, .rc, .none, 0, .none, .plain, false⟩

/-- The registers of block GLB. -/
def regsOfGlb : List RegInfo := [
  ⟨0x0, 1, 4, .plain, [F.GLB_ID_PART, F.GLB_ID_STEP_LETTER, F.GLB_ID_STEP_NUM, F.GLB_ID_FAMILY]⟩,
  ⟨0x4, 1, 4, .plain, [F.GLB_ORDER_CARRIER, F.GLB_ORDER_GRADE]⟩,
  ⟨0x8, 1, 4, .plain, [F.GLB_SERIAL_A_CHAR3, F.GLB_SERIAL_A_CHAR2, F.GLB_SERIAL_A_CHAR1, F.GLB_SERIAL_A_CHAR0]⟩,
  ⟨0xc, 1, 4, .plain, [F.GLB_SERIAL_B_CHAR3, F.GLB_SERIAL_B_CHAR2, F.GLB_SERIAL_B_CHAR1, F.GLB_SERIAL_B_CHAR0]⟩,
  ⟨0x10, 1, 4, .plain, [F.GLB_SERIAL_C_CHAR3, F.GLB_SERIAL_C_CHAR2, F.GLB_SERIAL_C_CHAR1, F.GLB_SERIAL_C_CHAR0]⟩,
  ⟨0x14, 1, 4, .plain, [F.GLB_SPARES_E_FILLING, F.GLB_SPARES_W_FILLING, F.GLB_SPARES_E_UNUSED, F.GLB_SPARES_W_UNUSED]⟩,
  ⟨0x18, 1, 4, .plain, [F.GLB_RETIRED_W_ROWS]⟩,
  ⟨0x1c, 1, 4, .plain, [F.GLB_RETIRED_E_ROWS]⟩,
  ⟨0x20, 1, 4, (.sel true), [F.GLB_ROWMAP_SEL_HALF, F.GLB_ROWMAP_SEL_LROW]⟩,
  ⟨0x24, 1, 4, .rowmap, [F.GLB_ROWMAP_DATA_VALID, F.GLB_ROWMAP_DATA_STATE, F.GLB_ROWMAP_DATA_PROW]⟩,
  ⟨0x28, 1, 4, .plain, [F.GLB_STRAPS_MODE]⟩,
  ⟨0x2c, 1, 4, .plain, [F.GLB_CLKSTAT_STRETCH, F.GLB_CLKSTAT_FWCLK_E, F.GLB_CLKSTAT_FWCLK_W, F.GLB_CLKSTAT_PLL_LOCK]⟩,
  ⟨0x30, 1, 4, .plain, [F.GLB_LEADER_VALID, F.GLB_LEADER_HALF]⟩,
  ⟨0x34, 1, 4, .plain, [F.GLB_CORE_FREQ_MHZ]⟩]

/-- The registers of block ARR. -/
def regsOfArr : List RegInfo := [
  ⟨0x0, 1, 4, .plain, [F.ARR_STATUS_MEND_FREE, F.ARR_STATUS_SIDE_STALE, F.ARR_STATUS_WORN, F.ARR_STATUS_OVERDUE, F.ARR_STATUS_DUE, F.ARR_STATUS_MEND_USED, F.ARR_STATUS_PRODUCT, F.ARR_STATUS_BUSY, F.ARR_STATUS_MODE]⟩,
  ⟨0x4, 1, 4, .plain, [F.ARR_AGE_ASSUMED, F.ARR_AGE_HOURS]⟩,
  ⟨0x8, 1, 4, .plain, [F.ARR_TRIM_REF_BOT, F.ARR_TRIM_REF_TOP]⟩,
  ⟨0xc, 1, 4, .plain, [F.ARR_TRIM_READ_SBIAS, F.ARR_TRIM_READ_RWL]⟩,
  ⟨0x10, 1, 4, .plain, [F.ARR_CMD_ARG0_COUNT, F.ARR_CMD_ARG0_ROW]⟩,
  ⟨0x14, 1, 4, .plain, [F.ARR_CMD_ARG1_HADDR]⟩,
  ⟨0x18, 1, 4, .plain, [F.ARR_CMD_TAG, F.ARR_CMD_OP]⟩,
  ⟨0x1c, 1, 4, .plain, [F.ARR_CMD_STAT_RESULT, F.ARR_CMD_STAT_OVERFLOW, F.ARR_CMD_STAT_DONE, F.ARR_CMD_STAT_TAG, F.ARR_CMD_STAT_OP]⟩,
  ⟨0x20, 1, 4, .plain, [F.ARR_CYCLES_COUNT]⟩,
  ⟨0x24, 1, 4, .plain, [F.ARR_OVRCNT]⟩,
  ⟨0x28, 1, 4, .plain, [F.ARR_VFAILCNT]⟩,
  ⟨0x2c, 1, 4, .plain, [F.ARR_LATECNT]⟩,
  ⟨0x30, 1, 4, .plain, [F.ARR_UNAVCNT]⟩,
  ⟨0x34, 1, 4, .plain, [F.ARR_LEVELS_A_L1, F.ARR_LEVELS_A_L0]⟩,
  ⟨0x38, 1, 4, .plain, [F.ARR_LEVELS_B_L3, F.ARR_LEVELS_B_L2]⟩,
  ⟨0x3c, 1, 4, .plain, [F.ARR_LEVELS_C_CLASS, F.ARR_LEVELS_C_GAP]⟩,
  ⟨0x80, 32, 4, .plain, [F.ARR_MENDROW_VALID, F.ARR_MENDROW_BAD, F.ARR_MENDROW_SRC]⟩]

/-- The registers of block ARRSITE. -/
def regsOfArrsite : List RegInfo := [
  ⟨0x0, 1, 4, .plain, [F.ARR_SITE_LID, F.ARR_SITE_SCOL, F.ARR_SITE_PROW]⟩]

/-- The registers of block CORE. -/
def regsOfCore : List RegInfo := [
  ⟨0x0, 1, 4, .plain, [F.CORE_STATUS_NOPITCH, F.CORE_STATUS_PITCH, F.CORE_STATUS_CLEARING, F.CORE_STATUS_SEQ]⟩,
  ⟨0x4, 1, 4, .plain, [F.CORE_LEGPOS_FRAME, F.CORE_LEGPOS_LEG]⟩,
  ⟨0x8, 1, 4, .plain, [F.CORE_SUSPECT_LEG, F.CORE_SUSPECT_FRAME, F.CORE_SUSPECT_CAUSE]⟩,
  ⟨0xc, 1, 4, .plain, [F.CORE_LSTORE_STANDBY_VALID, F.CORE_LSTORE_ACTIVE, F.CORE_LSTORE_ITIN]⟩,
  ⟨0x10, 1, 4, (.sel false), [F.CORE_CTR_SEL_IDX]⟩,
  ⟨0x14, 1, 4, .ctr, [F.CORE_CTR_DATA_SAT, F.CORE_CTR_DATA_VALUE]⟩,
  ⟨0x20, 1, 4, .plain, [F.CORE_QNANCNT]⟩,
  ⟨0x24, 1, 4, .plain, [F.CORE_QRAISECNT]⟩,
  ⟨0x28, 1, 4, .plain, [F.CORE_QPEAKCNT]⟩,
  ⟨0x2c, 1, 4, .plain, [F.CORE_QLOWCNT]⟩,
  ⟨0x30, 1, 4, .plain, [F.CORE_QSATCNT]⟩,
  ⟨0x34, 1, 4, .plain, [F.CORE_HSTALLCNT]⟩,
  ⟨0x38, 1, 4, .plain, [F.CORE_HCECNT]⟩,
  ⟨0x3c, 1, 4, .plain, [F.CORE_HUECNT]⟩,
  ⟨0x40, 1, 4, .plain, [F.CORE_LATECNT]⟩,
  ⟨0x44, 1, 4, .plain, [F.CORE_OVRUNCNT]⟩,
  ⟨0x48, 1, 4, .plain, [F.CORE_SUSPCNT]⟩,
  ⟨0x4c, 1, 4, .plain, [F.CORE_STALEINC]⟩,
  ⟨0x50, 1, 4, .plain, [F.CORE_NANCNT]⟩,
  ⟨0x54, 1, 4, .plain, [F.CORE_CLEARCNT]⟩]

/-- The registers of block TST. -/
def regsOfTst : List RegInfo := [
  ⟨0x0, 1, 4, .plain, [F.TST_CTRL_ENABLE, F.TST_CTRL_INJECT, F.TST_CTRL_THRESH]⟩,
  ⟨0x4, 1, 4, .plain, [F.TST_SEED]⟩,
  ⟨0x8, 1, 4, .plain, [F.TST_STATUS_TASTING, F.TST_STATUS_TSLOT, F.TST_STATUS_VALID]⟩,
  ⟨0x10, 16, 4, .plain, [F.TST_EPS]⟩,
  ⟨0x50, 4, 4, .plain, [F.TST_CRIB_VALID, F.TST_CRIB_ARRAY, F.TST_CRIB_CBLOCK, F.TST_CRIB_FILLFRAME]⟩,
  ⟨0x60, 1, 4, .plain, [F.TST_CRIB_CMD_ARRAY, F.TST_CRIB_CMD_CBLOCK, F.TST_CRIB_CMD_SLOT, F.TST_CRIB_CMD_OP]⟩,
  ⟨0x64, 1, 4, .plain, [F.TST_CRIB_STAT_RESULT, F.TST_CRIB_STAT_DONE, F.TST_CRIB_STAT_SLOT, F.TST_CRIB_STAT_OP]⟩,
  ⟨0x70, 1, 4, .plain, [F.TST_TASTECNT]⟩,
  ⟨0x74, 1, 4, .plain, [F.TST_UNTASTCNT]⟩,
  ⟨0x78, 1, 4, .plain, [F.TST_FLAGCNT]⟩,
  ⟨0x7c, 1, 4, .plain, [F.TST_LASTFLAG_SLOT, F.TST_LASTFLAG_ARRAY, F.TST_LASTFLAG_COLUMN]⟩,
  ⟨0x80, 1, 4, .plain, [F.TST_LASTDIFF_RATIO]⟩,
  ⟨0x84, 1, 4, .plain, [F.TST_RMVIOLCNT]⟩,
  ⟨0x88, 1, 4, .plain, [F.TST_RMSTATCNT]⟩,
  ⟨0x8c, 1, 4, (.sel false), [F.TST_RM_SEL_ARRAY, F.TST_RM_SEL_CGROUP]⟩,
  ⟨0x90, 1, 4, .rm, [F.TST_RM_MIN_MIN]⟩,
  ⟨0x94, 1, 4, .rm, [F.TST_RM_MAX_MAX]⟩,
  ⟨0x98, 1, 4, .rm, [F.TST_RM_COUNT_COUNT]⟩,
  ⟨0x9c, 1, 4, .rm, [F.TST_RM_FRAME_FRAME]⟩,
  ⟨0xa0, 1, 4, .rm, [F.TST_RM_SUM_LO_SUM]⟩,
  ⟨0xa4, 1, 4, .rm, [F.TST_RM_SUM_HI_SUM]⟩,
  ⟨0xa8, 1, 4, .rm, [F.TST_RM_SSQ_LO_SSQ]⟩,
  ⟨0xac, 1, 4, .rm, [F.TST_RM_SSQ_HI_SSQ]⟩]

/-- The registers of block NET. -/
def regsOfNet : List RegInfo := [
  ⟨0x0, 1, 4, .plain, [F.NET_PITCH_CTL_RESULT, F.NET_PITCH_CTL_PENDING, F.NET_PITCH_CTL_APPLY]⟩,
  ⟨0x4, 1, 4, (.sel false), [F.NET_PITCH_SEL_VIEW, F.NET_PITCH_SEL_PITCH]⟩,
  ⟨0x8, 1, 4, .pitch, [F.NET_PITCH_RECT_ENABLE, F.NET_PITCH_RECT_R1, F.NET_PITCH_RECT_R0, F.NET_PITCH_RECT_C1, F.NET_PITCH_RECT_C0]⟩,
  ⟨0xc, 1, 4, .pitch, [F.NET_PITCH_PORTS_PORTS]⟩,
  ⟨0x20, 10, 4, .pitchCh, [F.NET_PITCH_CH_CH]⟩,
  ⟨0x10, 1, 4, .pitch, [F.NET_PITCH_KVBASE_PAGE]⟩,
  ⟨0x80, 1, 4, .plain, [F.NET_RETRYCNT]⟩,
  ⟨0x84, 1, 4, .plain, [F.NET_POISONCNT]⟩,
  ⟨0x88, 1, 4, .plain, [F.NET_XPITCHCNT]⟩,
  ⟨0x8c, 1, 4, .plain, [F.NET_BARERRCNT]⟩,
  ⟨0x90, 1, 4, .plain, [F.NET_XRSTCNT]⟩]

/-- The registers of block MEM. -/
def regsOfMem : List RegInfo := [
  ⟨0xc, 1, 4, .plain, [F.MEM_CECNT]⟩,
  ⟨0x10, 1, 4, .plain, [F.MEM_UECNT]⟩,
  ⟨0x14, 1, 4, .plain, [F.MEM_KVERRCNT]⟩,
  ⟨0x0, 1, 4, .plain, [F.MEM_STATUS_RESERVED, F.MEM_STATUS_EXCLUDED, F.MEM_STATUS_CONSERVATIVE, F.MEM_STATUS_TRAINED]⟩,
  ⟨0x4, 1, 4, (.sel false), [F.MEM_CH_SEL_CH]⟩,
  ⟨0x8, 1, 4, .chState, [F.MEM_CH_STATE_STATE, F.MEM_CH_STATE_PITCH, F.MEM_CH_STATE_PROGRESS]⟩,
  ⟨0x18, 1, 4, .plain, [F.MEM_LASTERR_CH, F.MEM_LASTERR_GRANULE, F.MEM_LASTERR_BEAT]⟩]

/-- The registers of block HIF. -/
def regsOfHif : List RegInfo := [
  ⟨0x0, 1, 4, .plain, [F.HIF_LINK_UP, F.HIF_LINK_FLIT, F.HIF_LINK_WIDTH, F.HIF_LINK_SPEED]⟩,
  ⟨0x4, 1, 4, .plain, [F.HIF_LINK_CTL_MAX_SPEED]⟩,
  ⟨0x8, 1, 4, .plain, [F.HIF_POLL_POLL_US]⟩,
  ⟨0x10, 1, 4, (.sel false), [F.HIF_FN_SEL_FN]⟩,
  ⟨0x14, 1, 4, .fn, [F.HIF_FN_VEC_VECTORS]⟩,
  ⟨0x18, 1, 4, .ownFn, [F.HIF_FN_DBBASE_LO_ADDR]⟩,
  ⟨0x1c, 1, 4, .ownFn, [F.HIF_FN_DBBASE_HI_ADDR]⟩,
  ⟨0x20, 1, 4, .fn, [F.HIF_FN_STATE_QUEUES, F.HIF_FN_STATE_D3, F.HIF_FN_STATE_BME, F.HIF_FN_STATE_FLR, F.HIF_FN_STATE_ENABLED]⟩,
  ⟨0x40, 1, 4, (.sel true), [F.HIF_Q_SEL_IDX]⟩,
  ⟨0x44, 1, 4, .queue, [F.HIF_Q_FN_PITCH, F.HIF_Q_FN_LOCAL, F.HIF_Q_FN_FN]⟩,
  ⟨0x48, 1, 4, .queue, [F.HIF_Q_SQ_LO_ADDR]⟩,
  ⟨0x50, 1, 4, .queue, [F.HIF_Q_CQ_LO_ADDR]⟩,
  ⟨0x4c, 1, 4, .queue, [F.HIF_Q_SQ_HI_ADDR]⟩,
  ⟨0x54, 1, 4, .queue, [F.HIF_Q_CQ_HI_ADDR]⟩,
  ⟨0x58, 1, 4, .queue, [F.HIF_Q_SIZE_CQ_LOG2, F.HIF_Q_SIZE_SQ_LOG2]⟩,
  ⟨0x5c, 1, 4, .queue, [F.HIF_Q_VEC_VEC]⟩,
  ⟨0x60, 1, 4, .queue, [F.HIF_Q_CTL_ENABLE]⟩,
  ⟨0x64, 1, 4, .queue, [F.HIF_Q_STATUS_SQ_HEAD, F.HIF_Q_STATUS_ERR, F.HIF_Q_STATUS_HELD, F.HIF_Q_STATUS_STATE]⟩,
  ⟨0x80, 1, 4, .plain, [F.HIF_CORRCNT]⟩,
  ⟨0x84, 1, 4, .plain, [F.HIF_UNCORRCNT]⟩,
  ⟨0x88, 1, 4, .plain, [F.HIF_CPLTOCNT]⟩,
  ⟨0x8c, 1, 4, .plain, [F.HIF_POISONCNT]⟩,
  ⟨0x90, 1, 4, .plain, [F.HIF_CQSTALLCNT]⟩,
  ⟨0x94, 1, 4, .plain, [F.HIF_FETCHLATECNT]⟩,
  ⟨0x98, 1, 4, .plain, [F.HIF_TOKMISSCNT]⟩,
  ⟨0x9c, 1, 4, .plain, [F.HIF_FLRCNT]⟩,
  ⟨0xa0, 1, 4, .plain, [F.HIF_RETRAINCNT]⟩]

/-- The registers of block RGR. -/
def regsOfRgr : List RegInfo := [
  ⟨0x0, 1, 4, .plain, [F.RGR_STATUS_SLOT, F.RGR_STATUS_LEADER, F.RGR_STATUS_UP, F.RGR_STATUS_CORE]⟩,
  ⟨0x4, 1, 4, .plain, [F.RGR_LATCH_HOLDER, F.RGR_LATCH_AGE_US]⟩,
  ⟨0x8, 1, 4, .plain, [F.RGR_EPOCH]⟩,
  ⟨0xc, 1, 4, .plain, [F.RGR_LASTCRASH_CAUSE, F.RGR_LASTCRASH_FRAME, F.RGR_LASTCRASH_CORE]⟩,
  ⟨0x10, 1, 4, (.sel false), [F.RGR_QMAP_SEL_QUEUE]⟩,
  ⟨0x14, 1, 4, .qmap, [F.RGR_QMAP_DATA_OWNED, F.RGR_QMAP_DATA_RCORE]⟩,
  ⟨0x20, 1, 4, .plain, [F.RGR_CRASHCNT]⟩,
  ⟨0x24, 1, 4, .plain, [F.RGR_RELOADCNT]⟩,
  ⟨0x28, 1, 4, .plain, [F.RGR_STALECMTCNT]⟩,
  ⟨0x2c, 1, 4, .plain, [F.RGR_STALETXCNT]⟩,
  ⟨0x30, 1, 4, .plain, [F.RGR_CLAIMCNT]⟩,
  ⟨0x34, 1, 4, .plain, [F.RGR_NOLEADCNT]⟩]

/-- The registers of block INTC. -/
def regsOfIntc : List RegInfo := [
  ⟨0x0, 128, 4, .plain, [F.INTC_PRIO]⟩,
  ⟨0x200, 32, 4, .plain, [F.INTC_PEND]⟩,
  ⟨0x400, 128, 4, .plain, [F.INTC_EN]⟩,
  ⟨0x600, 4, 16, .plain, [F.INTC_THRESH]⟩,
  ⟨0x604, 4, 16, .plain, [F.INTC_CLAIM_ID]⟩,
  ⟨0x700, 1, 4, .plain, [F.INTC_SPURCNT]⟩,
  ⟨0x704, 1, 4, .plain, [F.INTC_MERGECNT]⟩,
  ⟨0x708, 1, 4, .plain, [F.INTC_WAKECNT]⟩]

/-- The registers of block PRT. -/
def regsOfPrt : List RegInfo := [
  ⟨0x0, 1, 4, .plain, [F.PRT_CTL_LOOPBACK, F.PRT_CTL_RETRAIN, F.PRT_CTL_ENABLE]⟩,
  ⟨0x4, 1, 4, .plain, [F.PRT_STATUS_PAUSED_TX, F.PRT_STATUS_PAUSED_RX, F.PRT_STATUS_LAST_DOWN, F.PRT_STATUS_DISABLED, F.PRT_STATUS_TRAINING, F.PRT_STATUS_FEC_LOCK, F.PRT_STATUS_UP]⟩,
  ⟨0x8, 1, 4, .plain, [F.PRT_RXCFG_XON, F.PRT_RXCFG_XOFF]⟩,
  ⟨0xc, 1, 4, .plain, [F.PRT_RXCAP_RELAY_CAP]⟩,
  ⟨0x20, 1, 4, .plain, [F.PRT_FECCORCNT]⟩,
  ⟨0x24, 1, 4, .plain, [F.PRT_FECUNCCNT]⟩,
  ⟨0x28, 1, 4, .plain, [F.PRT_FCSERRCNT]⟩,
  ⟨0x2c, 1, 4, .plain, [F.PRT_RXDROPCNT]⟩,
  ⟨0x30, 1, 4, .plain, [F.PRT_PAUSERXCNT]⟩,
  ⟨0x34, 1, 4, .plain, [F.PRT_PAUSETXCNT]⟩,
  ⟨0x38, 1, 4, .plain, [F.PRT_POISONCNT]⟩,
  ⟨0x3c, 1, 4, .plain, [F.PRT_UNDECLCNT]⟩,
  ⟨0x40, 1, 4, .plain, [F.PRT_STALECNT]⟩,
  ⟨0x44, 1, 4, .plain, [F.PRT_LINKDOWNCNT]⟩,
  ⟨0x2000, 1, 4, .plain, [F.PRT_PARTNUM_MACPFX, F.PRT_PARTNUM_PART]⟩,
  ⟨0x2004, 1, 4, .plain, [F.PRT_ETHERTYPE_VID, F.PRT_ETHERTYPE_TYPE]⟩,
  ⟨0x2008, 1, 4, .plain, [F.PRT_PCPMAP_TC3, F.PRT_PCPMAP_TC2, F.PRT_PCPMAP_TC1, F.PRT_PCPMAP_TC0]⟩,
  ⟨0x200c, 1, 4, .plain, [F.PRT_WHISTLE_MSG_EN, F.PRT_WHISTLE_OUT_EN, F.PRT_WHISTLE_SOURCE]⟩,
  ⟨0x2010, 1, 4, .plain, [F.PRT_MGRCFG_SYSMGR, F.PRT_MGRCFG_RACKMGR]⟩,
  ⟨0x2014, 1, 4, .plain, [F.PRT_STBYCFG_SYSSTBY, F.PRT_STBYCFG_RACKSTBY]⟩,
  ⟨0x2024, 1, 4, .plain, [F.PRT_ROLLCALL_FRAMES]⟩,
  ⟨0x2028, 1, 4, (.sel false), [F.PRT_DOM_SEL_IDX]⟩,
  ⟨0x202c, 1, 4, .dom, [F.PRT_DOM_DATA_VALID, F.PRT_DOM_DATA_ABSENT, F.PRT_DOM_DATA_WITHDRAWN, F.PRT_DOM_DATA_RACK, F.PRT_DOM_DATA_SPARE, F.PRT_DOM_DATA_SEED, F.PRT_DOM_DATA_PART]⟩,
  ⟨0x2018, 1, 4, .plain, [F.PRT_MGRSTATE_RMGR, F.PRT_MGRSTATE_WMGR]⟩,
  ⟨0x201c, 1, 4, .plain, [F.PRT_MGREPOCH_EPOCH]⟩,
  ⟨0x2020, 1, 4, .plain, [F.PRT_ROLE_TOOK_OVER, F.PRT_ROLE_RACK, F.PRT_ROLE_WHISTLE]⟩,
  ⟨0x2030, 1, 4, .plain, [F.PRT_TALLY_ACKS, F.PRT_TALLY_READY]⟩,
  ⟨0x2040, 1, 4, .plain, [F.PRT_WPINCNT]⟩,
  ⟨0x2044, 1, 4, .plain, [F.PRT_WGLITCHCNT]⟩,
  ⟨0x2048, 1, 4, .plain, [F.PRT_MGRDROPCNT]⟩,
  ⟨0x204c, 1, 4, .plain, [F.PRT_RETXCNT]⟩,
  ⟨0x2050, 1, 4, .plain, [F.PRT_UNREACHCNT]⟩]

/-- The registers of block MET. -/
def regsOfMet : List RegInfo := [
  ⟨0x0, 1, 4, .plain, [F.MET_CONV_START, F.MET_CONV_URGENT, F.MET_CONV_NOTCH, F.MET_CONV_ORDER, F.MET_CONV_CH]⟩,
  ⟨0x4, 1, 4, .plain, [F.MET_STATUS_REFIN_FAULT, F.MET_STATUS_REFIN_OK, F.MET_STATUS_CH, F.MET_STATUS_URGENT_PEND, F.MET_STATUS_STATE]⟩,
  ⟨0x8, 1, 4, .plain, [F.MET_REFIN_UV]⟩,
  ⟨0xc, 1, 4, .plain, [F.MET_TAP_SEL_SITE, F.MET_TAP_SEL_ARRAY, F.MET_TAP_SEL_WHAT]⟩,
  ⟨0x10, 1, 4, .plain, [F.MET_CALCFG_DRIFT, F.MET_CALCFG_ORDER, F.MET_CALCFG_MAINS]⟩,
  ⟨0x14, 1, 4, (.sel false), [F.MET_CAL_SEL_SITE, F.MET_CAL_SEL_ARRAY]⟩,
  ⟨0x18, 1, 4, .cal, [F.MET_CAL_DATA_LATE, F.MET_CAL_DATA_DUE, F.MET_CAL_DATA_FAILED, F.MET_CAL_DATA_VALID, F.MET_CAL_DATA_TSET]⟩,
  ⟨0x20, 8, 4, .plain, [F.MET_REGTRIM_CODE]⟩,
  ⟨0x40, 16, 4, .plain, [F.MET_RES_SEQ, F.MET_RES_OVR, F.MET_RES_STALE, F.MET_RES_VALID, F.MET_RES_VALUE]⟩,
  ⟨0x80, 16, 4, .plain, [F.MET_AGE_SEQ, F.MET_AGE_NOTCH, F.MET_AGE_ORDER, F.MET_AGE_AGE_MS]⟩,
  ⟨0xc0, 1, 4, .plain, [F.MET_URGCNT]⟩,
  ⟨0xc4, 1, 4, .plain, [F.MET_BUSYCNT]⟩,
  ⟨0xc8, 1, 4, .plain, [F.MET_REFINERRCNT]⟩,
  ⟨0xcc, 1, 4, .plain, [F.MET_CALFAILCNT]⟩,
  ⟨0xd0, 1, 4, .plain, [F.MET_TRIMLATECNT]⟩]

/-- The registers of block THM. -/
def regsOfThm : List RegInfo := [
  ⟨0x0, 1, 4, .plain, [F.THM_TEMP_VALID, F.THM_TEMP_STALE, F.THM_TEMP_FAULT, F.THM_TEMP_OVER, F.THM_TEMP_SEQ, F.THM_TEMP]⟩,
  ⟨0x4, 1, 4, .plain, [F.THM_TRIP_TEST, F.THM_TRIP_BLANK, F.THM_TRIP_OPEN, F.THM_TRIP_LOW, F.THM_TRIP_TRIPPED]⟩,
  ⟨0x8, 1, 4, .plain, [F.THM_DIODE_COEF]⟩,
  ⟨0x10, 1, 4, .plain, [F.THM_OVERCNT]⟩,
  ⟨0x14, 1, 4, .plain, [F.THM_FAULTCNT]⟩,
  ⟨0x18, 1, 4, .plain, [F.THM_STALECNT]⟩]

/-- The registers of block PWR. -/
def regsOfPwr : List RegInfo := [
  ⟨0x0, 1, 4, .plain, [F.PWR_STATUS_RAIL_FAULT, F.PWR_STATUS_WARN, F.PWR_STATUS_VPP_ON, F.PWR_STATUS_FLOOR, F.PWR_STATUS_DEGRADED, F.PWR_STATUS_CLAMP, F.PWR_STATUS_CHANGING, F.PWR_STATUS_STATE]⟩,
  ⟨0x4, 1, 4, .plain, [F.PWR_STATE_REQ_TARGET]⟩,
  ⟨0x8, 1, 4, .plain, [F.PWR_LIMIT_PEAK_W, F.PWR_LIMIT_SUSTAIN_W]⟩,
  ⟨0xc, 1, 4, .plain, [F.PWR_ESTIMATE_OVER_US, F.PWR_ESTIMATE_WATTS]⟩,
  ⟨0x10, 1, 4, .plain, [F.PWR_CLAMPCFG_MHZ]⟩,
  ⟨0x14, 1, 4, (.sel false), [F.PWR_RAIL_SEL_RAIL]⟩,
  ⟨0x18, 1, 4, .rail, [F.PWR_RAIL_DATA_STATE, F.PWR_RAIL_DATA_MEAS_MV, F.PWR_RAIL_DATA_CMD_MV]⟩,
  ⟨0x1c, 1, 4, .rail, [F.PWR_RAIL_ADDR_PAGE, F.PWR_RAIL_ADDR_ADDR]⟩,
  ⟨0x20, 1, 4, .plain, [F.PWR_RESET_LASTCAUSE, F.PWR_RESET_OFF, F.PWR_RESET_SYSRST]⟩,
  ⟨0x24, 1, 4, .plain, [F.PWR_BOOT_START, F.PWR_BOOT_CLEAR_ALT, F.PWR_BOOT_READY, F.PWR_BOOT_STAGE]⟩,
  ⟨0x28, 1, 4, (.sel false), [F.PWR_BOOT_SEL_AGO, F.PWR_BOOT_SEL_STEP]⟩,
  ⟨0x2c, 1, 4, .boot, [F.PWR_BOOT_DATA_OUTCOME, F.PWR_BOOT_DATA_MODE, F.PWR_BOOT_DATA_DETAIL, F.PWR_BOOT_DATA_MS]⟩,
  ⟨0x40, 1, 4, .plain, [F.PWR_CLAMPCNT]⟩,
  ⟨0x44, 1, 4, .plain, [F.PWR_DROOPCNT]⟩,
  ⟨0x48, 1, 4, .plain, [F.PWR_SHORTCNT]⟩,
  ⟨0x4c, 1, 4, .plain, [F.PWR_PMBERRCNT]⟩,
  ⟨0x50, 1, 4, .plain, [F.PWR_WARNCNT]⟩]

/-- The registers of block CLK. -/
def regsOfClk : List RegInfo := [
  ⟨0x0, 1, 4, .plain, [F.CLK_STATUS_ETHREF_OK, F.CLK_STATUS_PCIEREF_OK, F.CLK_STATUS_REF_OK]⟩,
  ⟨0x4, 1, 4, .plain, [F.CLK_TIME_LO_NS]⟩,
  ⟨0x8, 1, 4, .latch, [F.CLK_TIME_HI_NS]⟩,
  ⟨0xc, 1, 4, .plain, [F.CLK_POWERED_HOURS]⟩,
  ⟨0x10, 1, 4, .plain, [F.CLK_UNLOCKCNT]⟩,
  ⟨0x14, 1, 4, .plain, [F.CLK_REFLOSSCNT]⟩]

/-- The registers of block VLT. -/
def regsOfVlt : List RegInfo := [
  ⟨0x0, 1, 4, .plain, [F.VLT_STATUS_POOL_FREE, F.VLT_STATUS_JOURNAL, F.VLT_STATUS_REPLAYED]⟩,
  ⟨0x4, 1, 4, .plain, [F.VLT_RECWRCNT]⟩,
  ⟨0x8, 1, 4, .plain, [F.VLT_JREPLAYCNT]⟩,
  ⟨0xc, 1, 4, .plain, [F.VLT_REMAPCNT]⟩,
  ⟨0x10, 1, 4, .plain, [F.VLT_AUDITOVFCNT]⟩,
  ⟨0x14, 1, 4, .plain, [F.VLT_AUDIT_SEQ_LO_SEQ]⟩,
  ⟨0x18, 1, 4, .latch, [F.VLT_AUDIT_SEQ_HI_SEQ]⟩]

/-- The registers of block SEC. -/
def regsOfSec : List RegInfo := [
  ⟨0x0, 1, 4, .plain, [F.SEC_LOCK_DIAG, F.SEC_LOCK_LOCKED]⟩,
  ⟨0x4, 1, 4, (.sel false), [F.SEC_FN_SEL_FN]⟩,
  ⟨0x8, 1, 4, .secFn, [F.SEC_FN_ROLE_KEY, F.SEC_FN_ROLE_LOCKOUT, F.SEC_FN_ROLE_ROLE]⟩,
  ⟨0xc, 1, 4, .plain, [F.SEC_ENGINE_LASTCODE, F.SEC_ENGINE_QUEUED]⟩,
  ⟨0x10, 1, 4, .plain, [F.SEC_VERIFYCNT]⟩,
  ⟨0x14, 1, 4, .plain, [F.SEC_REJECTCNT]⟩,
  ⟨0x18, 1, 4, .plain, [F.SEC_AUTHFAILCNT]⟩]

/-- The registers of block UPD. -/
def regsOfUpd : List RegInfo := [
  ⟨0x0, 1, 4, .plain, [F.UPD_STATUS_RESULT, F.UPD_STATUS_SESSION, F.UPD_STATUS_FMT_DUAL, F.UPD_STATUS_CONFIRMED, F.UPD_STATUS_RUNNING, F.UPD_STATUS_BOOTED]⟩,
  ⟨0x4, 1, 4, (.sel false), [F.UPD_SLOT_SEL_SLOT]⟩,
  ⟨0x8, 1, 4, .slot, [F.UPD_SLOT_STATE_BOOT, F.UPD_SLOT_STATE_RUNTIME, F.UPD_SLOT_STATE_CFG_FORMAT]⟩,
  ⟨0xc, 1, 4, .slot, [F.UPD_SLOT_BOOTVER_VERSION]⟩,
  ⟨0x10, 1, 4, .slot, [F.UPD_SLOT_RTVER_VERSION]⟩,
  ⟨0x14, 1, 4, .plain, [F.UPD_SVN_MIN_SVN]⟩,
  ⟨0x20, 1, 4, .plain, [F.UPD_ACTCNT]⟩,
  ⟨0x24, 1, 4, .plain, [F.UPD_REFUSECNT]⟩,
  ⟨0x28, 1, 4, .plain, [F.UPD_ABORTCNT]⟩]

/-- The table of a block. -/
def Block.regs : Block → List RegInfo
  | .glb => regsOfGlb
  | .arr => regsOfArr
  | .arrSite => regsOfArrsite
  | .core => regsOfCore
  | .tst => regsOfTst
  | .net => regsOfNet
  | .mem => regsOfMem
  | .hif => regsOfHif
  | .rgr => regsOfRgr
  | .intc => regsOfIntc
  | .prt => regsOfPrt
  | .met => regsOfMet
  | .thm => regsOfThm
  | .pwr => regsOfPwr
  | .clk => regsOfClk
  | .vlt => regsOfVlt
  | .sec => regsOfSec
  | .upd => regsOfUpd

/-- How many fields the tables name: every `Fld.code` lies below it. -/
def fldCount : Nat := 442

/-- The key of field `f` at place `i`. -/
def Fld.key (f : Fld) (i : Nat) : Nat := i * 1024 + f.code

end Sys2Proof.Machine
end

