-- ==== Sys2Proof/Machine/Shipped.lean ====
section
/-!
DEFINITION. What the vault of a part as shipped holds for fields marked Per vault.  The rules give none of these values but
the set-points of Table 14-1 and the size of the remap pool; the others are the model's (log entry 2).
-/

namespace Sys2Proof.Machine

/-- The set-points of the commanded rails in mV (Table 14-1); V_FUSE of VDD_CORE as in the example of R446. -/
def shippedRails : List Nat := [780, 850, 900, 4500, 750, 1800, 1100]

/-- The values: logical row l on physical row l, two unused spare rows in each half, the diode coefficient, the region trims at
mid-scale, firmware 1.0.0.0 of configuration format 1 in slot 0, which is confirmed. -/
def shippedList : List (Nat × Nat) :=
  ([0, 1].flatMap fun h => (List.range 30).map fun l => (F.GLB_ROWMAP_DATA_PROW.key (32 * h + l), l))
    ++ shippedRails.zipIdx.map (fun r => (F.PWR_RAIL_DATA_CMD_MV.key r.2, r.1))
    ++ (List.range 8).map (fun r => (F.MET_REGTRIM_CODE.key r, 0x8000))
    ++ [(F.GLB_SPARES_W_UNUSED.key 0, 2), (F.GLB_SPARES_E_UNUSED.key 0, 2), (F.THM_DIODE_COEF.key 0, 200010),
        (F.VLT_STATUS_POOL_FREE.key 0, 1240), (F.UPD_SLOT_STATE_BOOT.key 0, 3), (F.UPD_SLOT_STATE_RUNTIME.key 0, 2),
        (F.UPD_SLOT_STATE_CFG_FORMAT.key 0, 1), (F.UPD_SLOT_BOOTVER_VERSION.key 0, 0x01000000),
        (F.UPD_SLOT_RTVER_VERSION.key 0, 0x01000000)]

/-- The vault's table of them. -/
def shippedVault : SMap Nat := shippedList.foldl (fun m e => SMap.set 0 m e.1 e.2) []

end Sys2Proof.Machine
end

