-- ==== Sys2Proof/Machine/State.lean ====
section
/-!
DEFINITION. The state of the part, plain data, and the reasons a step can stop.  Register fields stand in `fields`
(Machine/Regs.lean); what the rules name beside the registers stands in the records of the data files.
-/

namespace Sys2Proof.Machine

/-- Why the model stops on a command that is no command of this part. -/
inductive Fault where
  /-- Raised by every meaning whose operand names a core, site, array, port, function, window, queue or index the part
  does not have (R11 to R14): no such command can reach the part.  Safe: the model stops. -/
  | noSuchUnit
  deriving DecidableEq, Repr

/-- Why a command has no meaning. -/
inductive Refusal where
  /-- Raised by the dispatch for a command whose meaning is not written.  Safe: the model stops. -/
  | notModelled (mnemonic : String)
  deriving DecidableEq, Repr

/-- Bytes of a memory at rising addresses, unlisted bytes reading 0 (hamper: R160; stacked memory: R207, R211). -/
abbrev Memory := List Host.Cell

/-- The canonical form of a memory. -/
def Memory.wf (m : Memory) : Bool := SMap.wf (0 : Byte) m

/-- The state of the part. -/
structure State where
  /-- The register fields, at `Fld.key`; an unlisted field holds its reset value. -/
  fields : SMap Nat
  /-- The values the vault holds for fields marked Per vault, at the same keys (R504). -/
  vfields : SMap Nat
  /-- Nanoseconds of the model's clock; the time base of R457 counts along with it (`State.time`). -/
  now : Nat
  /-- Core clock cycles run since power-on, in thousandths. -/
  cyc : Nat
  /-- The model's own count of free values drawn. -/
  free : Nat
  /-- The hampers: byte a of the core at site s at 0x80000·s + a. -/
  hamper : Memory
  /-- The stacked memory: byte o of channel k at 10^9·k + o. -/
  dram : Memory
  /-- The arrays, at 16·site + array. -/
  arrays : SMap ArrSt
  /-- The cores, at their site. -/
  cores : SMap CoreSt
  frame : FrameSt
  irq : IrqSt
  net : NetSt
  link : LinkSt
  mgr : MgrSt
  fab : FabSt
  sec : SecSt
  hist : HistSt
  wgt : WgtSt
  host : HostSt
  met : MetSt
  pwr : PwrSt
  smb : SmbSt
  /-- What each pitch serves, at its number. -/
  serve : SMap ServeSt
  /-- What the last register read returned. -/
  readout : Nat
  /-- The commands that wait, first in first out. -/
  pending : List Instr
  deriving DecidableEq, Repr

/-- The part right after power-on reset, as shipped. -/
def State.reset : State where
  fields := []
  vfields := shippedVault
  now := 0
  cyc := 0
  free := 0
  hamper := []
  dram := []
  arrays := []
  cores := []
  frame := .init
  irq := .init
  net := .init
  link := .init
  mgr := .init
  fab := .init
  sec := .init
  hist := .init
  wgt := .init
  host := .init
  met := .init
  pwr := .init
  smb := .init
  serve := []
  readout := 0
  pending := []

end Sys2Proof.Machine
end

