-- ==== Sys2Proof/Machine/Ops.lean ====
section
/-!
DEFINITION. The named operations every meaning is written with: fields and counters, arrays and cores, hamper and
stacked memory, interrupt edges, events and responses.
-/

namespace Sys2Proof.Machine

/-! Fields. -/

/-- What field `f` at place `i` holds. -/
def State.fld (s : State) (f : Fld) (i : Nat := 0) : Nat := SMap.get f.reset s.fields (f.key i)

/-- Sets field `f` at place `i`, cut to the field's width. -/
def State.setFld (s : State) (f : Fld) (v : Nat) (i : Nat := 0) : State :=
  { s with fields := SMap.set f.reset s.fields (f.key i) (v % 2 ^ f.width) }

/-- Sets a one-bit field. -/
def State.setFlag (s : State) (f : Fld) (b : Bool) (i : Nat := 0) : State := s.setFld f (if b then 1 else 0) i

/-- Whether a one-bit field is 1. -/
def State.flag (s : State) (f : Fld) (i : Nat := 0) : Bool := s.fld f i == 1

/-- Counts `n` events in a counter, which saturates (R18). -/
def State.count (s : State) (f : Fld) (n : Nat := 1) (i : Nat := 0) : State :=
  s.setFld f (min (s.fld f i + n) (2 ^ f.width - 1)) i

/-- What the vault holds for a field marked Per vault. -/
def State.vfld (s : State) (f : Fld) (i : Nat := 0) : Nat := SMap.get 0 s.vfields (f.key i)

/-- Writes the vault's value of a field. -/
def State.setVfld (s : State) (f : Fld) (v : Nat) (i : Nat := 0) : State :=
  { s with vfields := SMap.set 0 s.vfields (f.key i) (v % 2 ^ f.width) }

/-- A value of the part's random source; the counter of free values moves on. -/
def State.draw (s : State) : Nat × State := (Config.random s.free, { s with free := s.free + 1 })

/-- A command that names units the part has goes on; any other stops. -/
def within (ok : Bool) (t : State) : Host.Outcome State Fault Refusal :=
  if ok then .next t else .fault .noSuchUnit

/-! Sites, cores and arrays (R11 to R14, R121). -/

/-- Core sites: 1,280. -/
def siteCount : Nat := 1280
/-- Logical cores: 1,200. -/
def coreCount : Nat := 1200
/-- Arrays: 16 per site. -/
def arrCount : Nat := 20480

/-- The half of a site. -/
def siteHalf (s : Nat) : Nat := s / 640
/-- The physical row of a site. -/
def siteRow (s : Nat) : Nat := s % 640 / 20
/-- The column, 0 to 39, of a site. -/
def siteCol (s : Nat) : Nat := 20 * siteHalf s + s % 20
/-- The site index of R121. -/
def siteOf (h p x : Nat) : Nat := 640 * h + 20 * p + (x - 20 * h)

/-- The site that carries a logical core, by its half's spare map; none while its logical row is LOST (R12, R13, R30). -/
def State.coreSite (s : State) (core : Nat) : Option Nat :=
  let c := core % 40
  let l := core / 40
  let h := c / 20
  if s.fld F.GLB_ROWMAP_DATA_STATE (32 * h + l) = 2 then none
  else some (siteOf h (s.fld F.GLB_ROWMAP_DATA_PROW (32 * h + l)) c)

/-- The logical core at a site, if it has one. -/
def State.siteCore (s : State) (site : Nat) : Option Nat :=
  let h := siteHalf site
  ((List.range 30).find? fun l =>
      s.fld F.GLB_ROWMAP_DATA_STATE (32 * h + l) ≠ 2 && s.fld F.GLB_ROWMAP_DATA_PROW (32 * h + l) = siteRow site).map
    fun l => 40 * l + siteCol site

/-- The array at a place. -/
def State.arr (s : State) (a : Nat) : ArrSt := SMap.get ArrSt.init s.arrays a

/-- Sets the array at a place. -/
def State.setArr (s : State) (a : Nat) (x : ArrSt) : State := { s with arrays := SMap.set ArrSt.init s.arrays a x }

/-- The core at a site. -/
def State.core (s : State) (i : Nat) : CoreSt := SMap.get CoreSt.init s.cores i

/-- Sets the core at a site. -/
def State.setCore (s : State) (i : Nat) (x : CoreSt) : State := { s with cores := SMap.set CoreSt.init s.cores i x }

/-- The time base in ns (R457): it counts from the first lock of the region PLLs and stands while REFCLK is lost. -/
def State.time (s : State) : Nat := if s.pwr.tbRun then s.now - s.pwr.tb else s.pwr.tb

/-- Whole core cycles since the last boundary. -/
def State.frameCyc (s : State) : Nat := (s.cyc - s.frame.cyc0) / 1000

/-- Nanoseconds since the last boundary: the frame timer (R174). -/
def State.frameNs (s : State) : Nat := s.now - s.frame.t0

/-! Byte memories. -/

/-- A byte of a memory. -/
def Memory.byte (m : Memory) (a : Nat) : Byte := SMap.get (0 : Byte) m a

/-- `n` bytes of a memory from `a`. -/
def Memory.read (m : Memory) (a n : Nat) : Bytes := (List.range n).map fun i => Memory.byte m (a + i)

/-- Writes bytes from `a` up. -/
def Memory.write : Memory → Nat → Bytes → Memory
  | m, _, [] => m
  | m, a, b :: bs => Memory.write (SMap.set (0 : Byte) m a b) (a + 1) bs

/-- Clears `n` bytes from `a`. -/
def Memory.clear (m : Memory) (a n : Nat) : Memory := SMap.dropRange m a n

/-- The bytes of a hamper (R138). -/
def hamperSize : Nat := 393216

/-- The place of hamper byte `a` of a site. -/
def hamperAt (site a : Nat) : Nat := 0x80000 * site + a

/-- The entry of the gather buffer that holds a line, if any. -/
def CoreSt.gatherOf (c : CoreSt) (line : Nat) : Option GEntry := c.gather.find? fun e => e.line == line

/-- A byte as a unit of the core reads it: the gather buffer's byte over the bank's (R143); a byte outside the hamper
reads 0 (R138). -/
def State.hamperByte (s : State) (site a : Nat) : Byte :=
  if hamperSize ≤ a then 0
  else
    match ((s.core site).gatherOf (a / 64)).bind fun e => SMap.find? e.bytes (a % 64) with
    | some b => b
    | none => Memory.byte s.hamper (hamperAt site a)

/-- `n` bytes of a core's hamper from `a`. -/
def State.hamperRead (s : State) (site a n : Nat) : Bytes := (List.range n).map fun i => s.hamperByte site (a + i)

/-- Bytes put into the banks, those outside the hamper dropped (R138). -/
def State.bankWrite (s : State) (site a : Nat) (bs : Bytes) : State :=
  { s with hamper := Memory.write s.hamper (hamperAt site a) (bs.take (hamperSize - a)) }

/-- Writes a gather entry's masked bytes to its bank. -/
def bankEntry (m : Memory) (site : Nat) (e : GEntry) : Memory :=
  e.bytes.foldl (fun m b => SMap.set (0 : Byte) m (hamperAt site (64 * e.line + b.1)) b.2) m

/-- Frees the gather entries that satisfy `p`, writing each to its bank (R142). -/
def State.flushGather (s : State) (site : Nat) (p : GEntry → Bool) : State :=
  let c := s.core site
  let out := c.gather.filter p
  let s := { s with hamper := out.foldl (fun m e => bankEntry m site e) s.hamper }
  s.setCore site { c with gather := c.gather.filter fun e => !p e }

/-- The lines that bytes `a` to `a + n - 1` touch. -/
def linesOf (a n : Nat) : List Nat := if n = 0 then [] else (List.range ((a + n - 1) / 64 - a / 64 + 1)).map (a / 64 + ·)

/-- A line whose bytes are written anew no longer counts as bad (R201, R208). -/
def State.cleanLines (s : State) (site : Nat) (ls : List Nat) : State :=
  { s with net := { s.net with badLines := ls.foldl (fun m l => SMap.set 0 m (8192 * site + l) 0) s.net.badLines } }

/-- A write straight to the banks (accumulator, quantiser, rotation, engine): entries of the lines it touches are
written first, so every unit sees the writes in order (R143). -/
def State.hamperWrite (s : State) (site a : Nat) (bs : Bytes) : State :=
  let ls := linesOf a bs.length
  ((s.flushGather site fun e => ls.contains e.line).bankWrite site a bs).cleanLines site ls

/-- Bytes of one line into the gather buffer (R142): merged into the line's entry, or into a new one, for which the
entry idle longest makes room; a full mask is written at once. -/
def State.gatherLine (s : State) (site line off : Nat) (bs : Bytes) : State :=
  let c := s.core site
  let s :=
    match c.gatherOf line with
    | some _ => s
    | none =>
      if c.gather.length < 32 then s
      else
        let oldest := c.gather.foldl (fun (b e : GEntry) => if e.last < b.last then e else b) (c.gather.headD ⟨0, [], 0⟩)
        s.flushGather site fun e => e.line == oldest.line
  let c := s.core site
  let old := match c.gatherOf line with | some e => e.bytes | none => []
  let merged := (bs.zipIdx).foldl (fun m b => SMap.put m (off + b.2) b.1) old
  let e : GEntry := ⟨line, merged, s.cyc⟩
  let s := s.setCore site { c with gather := (c.gather.filter fun (x : GEntry) => x.line != line) ++ [e] }
  if merged.length = 64 then s.flushGather site fun (x : GEntry) => x.line == line else s

/-- A write of a delivery, of the vector unit or of top-k (R142): whole aligned lines go to the bank and free the
line's entry, narrower pieces go through the gather buffer. -/
def State.gatherWrite (s : State) (site a : Nat) (bs : Bytes) : State :=
  (linesOf a bs.length).foldl (fun s l =>
      let lo := max a (64 * l)
      let hi := min (a + bs.length) (64 * l + 64)
      let part := slice bs (lo - a) (hi - lo)
      if hamperSize ≤ lo then s
      else if part.length = 64 then
        let c := s.core site
        ((s.setCore site { c with gather := c.gather.filter fun e => e.line != l }).bankWrite site lo part).cleanLines site [l]
      else (s.gatherLine site l (lo - 64 * l) part).cleanLines site [l])
    s

/-! Interrupt edges (R333, R334, R338). -/

/-- Whether a half's firmware clock is stopped. -/
def State.fwStopped (s : State) (h : Nat) : Bool := if h = 0 then s.irq.stoppedW else s.irq.stoppedE

/-- A rising edge on a source of one half: it sets the pending bit, or the latch while the firmware clock is stopped;
a further edge while it is set is merged and counted. -/
def State.raiseHalf (s : State) (h id : Nat) : State :=
  let k := 1024 * h + id
  if s.fwStopped h then
    if SMap.get 0 s.irq.latched k = 1 then s.count F.INTC_MERGECNT 1 h
    else { s with irq := { s.irq with latched := SMap.set 0 s.irq.latched k 1 } }
  else if s.flag F.INTC_PEND k then s.count F.INTC_MERGECNT 1 h
  else s.setFld F.INTC_PEND 1 k

/-- An edge wired to both controllers. -/
def State.raiseBoth (s : State) (id : Nat) : State := (s.raiseHalf 0 id).raiseHalf 1 id

/-- An edge of a source per physical row, in the site's own half. -/
def State.raiseRow (s : State) (base site : Nat) : State := s.raiseHalf (siteHalf site) (base + siteRow site)

/-! Windows, events and messages to the host (R310 to R314). -/

/-- The window of a function. -/
def State.win (s : State) (fn : Nat) : WinSt := SMap.get .init s.host.win fn

/-- Sets it. -/
def State.setWin (s : State) (fn : Nat) (w : WinSt) : State :=
  { s with host := { s.host with win := SMap.set .init s.host.win fn w } }

/-- Posts an event to a function's ring; one that finds the ring full is dropped and counted (R313). -/
def State.postTo (s : State) (fn code : Nat) (detail : List Nat) : State :=
  let w := s.win fn
  let t := (w.evtTail + 1) % 1024
  if t = w.evtHead then s.setWin fn { w with evtLost := min (w.evtLost + 1) (2 ^ 32 - 1) }
  else s.setWin fn { w with evt := SMap.put w.evt w.evtTail ⟨code, s.frame.number, detail⟩, evtTail := t, gained := true }

/-- Posts an event to the physical function. -/
def State.post (s : State) (code : Nat) (detail : List Nat) : State := s.postTo 0 code detail

/-- Writes a response to a function's ring (R313); that of a command during which the function was reset is discarded (R317). -/
def State.respond (s : State) (c : Mgmt) (code result : Nat) (detail : Bytes := []) : State :=
  let w := s.win c.fn
  if w.discard then s.setWin c.fn { w with busy := false, discard := false }
  else s.setWin c.fn { w with
    rsp := SMap.put w.rsp w.rspTail ⟨code, result, c.tag, detail⟩, rspTail := (w.rspTail + 1) % 1024, gained := true,
    busy := false }

/-- Whether a function's Bus Master Enable is 1 and it is not in D3hot (R318), and the host link is up. -/
def State.busMaster (s : State) (fn : Nat) : Bool :=
  s.flag F.HIF_FN_STATE_BME fn && !s.flag F.HIF_FN_STATE_D3 fn && s.flag F.HIF_LINK_UP && !s.host.retraining

/-- Sends an MSI-X message, or sets the pending bit of a masked vector (R311). -/
def State.msi (s : State) (fn vec : Nat) : State :=
  if SMap.get 0 s.host.unmasked (2048 * fn + vec) = 0 || !s.busMaster fn then
    { s with host := { s.host with msiPending := SMap.set 0 s.host.msiPending (2048 * fn + vec) 1 } }
  else { s with host := { s.host with sent := s.host.sent ++ [(fn, vec)] } }

/-- A cause of SMB_ALERT_N begins to read 1 (R525). -/
def State.alertRaise (s : State) : State := { s with smb := { s.smb with alert := 1 } }

/-! Messages to other parts (R347, R381, R392 to R394). -/

/-- The leadership epoch of the part (R343). -/
def State.epoch (s : State) : Nat := s.fld F.RGR_EPOCH

/-- Bytes of relay credit a part starts with towards a successor: eight staging buffers of 4 MiB (R231; log entry 44). -/
def relayRoom : Nat := 33554432

/-- A firmware message leaves: the next sequence number of the pair of parts; a relay piece uses up its credit. -/
def State.transmit (s : State) (m : FwMsg) : State :=
  let n := SMap.get 0 s.link.nextSeq m.part
  let left := SMap.get relayRoom s.link.relayCredit m.part - (if m.type = 0x0402 then m.data.length else 0)
  { s with link := { s.link with
      out := s.link.out ++ [{ m with seq := n, sent := some s.now }], nextSeq := SMap.set 0 s.link.nextSeq m.part (n + 1),
      relayCredit := SMap.set relayRoom s.link.relayCredit m.part left } }

/-- The units of 256 bytes that a message takes of the general area (Table 12-4). -/
def FwMsg.units (m : FwMsg) : Nat := max 1 ((m.data.length + 4 * m.fields.length + 255) / 256)

/-- Whether a message type travels under the general credits of Table 12-4: relay pieces have their own pool, replay inputs
and outputs none. -/
def generalCredit (type : Nat) : Bool := type != 0x0402 && type != 0x0201 && type != 0x0203

/-- Credit left towards a part: the standing 4 units but for those in use by messages not yet acknowledged. -/
def State.creditLeft (s : State) (part : Nat) : Nat :=
  4 - ((s.link.out.filter fun m => m.part == part && generalCredit m.type && decide (m.units ≤ 4)).map (·.units)).sum

/-- Whether a message may start now: relay pieces need granted credit in bytes, larger general messages a grant. -/
def State.mayTransmit (s : State) (m : FwMsg) : Bool :=
  if m.type = 0x0402 then
    m.data.isEmpty || (decide (m.data.length ≤ SMap.get relayRoom s.link.relayCredit m.part)
      && !(s.link.waiting.any fun w => w.part == m.part && w.type == 0x0402))
  else if !generalCredit m.type then true
  else if 4 < m.units then s.link.granted.contains m.part
  else decide (m.units ≤ s.creditLeft m.part) && !(s.link.waiting.any fun w => w.part == m.part && generalCredit w.type)

/-- Sends a firmware message to a part (R392): at once where credit covers it, otherwise it waits (R393); a message made
while no half holds leadership is held (R347); a part without a number sends none (R381). -/
def State.sendMsg (s : State) (part type : Nat) (fields : List Nat) (data : Bytes := []) : State :=
  let m : FwMsg := { part := part, seq := 0, type := type, frame := s.frame.number, epoch := s.epoch, fields := fields,
                     data := data, sent := none, tries := 0 }
  if s.fld F.PRT_PARTNUM_PART = 0xFFFF || part = 0xFFFF then s
  else if s.fld F.RGR_LATCH_HOLDER = 0 then { s with link := { s.link with held := s.link.held ++ [m] } }
  else if s.mayTransmit m then s.transmit m
  else { s with link := { s.link with waiting := s.link.waiting ++ [m] } }

/-- Sends a control message to a part with a frame number (R394). -/
def State.sendCtl (s : State) (part type frame : Nat) (fields : List Nat := []) : State :=
  if s.fld F.PRT_PARTNUM_PART = 0xFFFF || part = 0xFFFF then s
  else { s with link := { s.link with ctl := s.link.ctl ++ [⟨part, type, frame, s.fld F.PRT_MGREPOCH_EPOCH, fields⟩] } }

/-! The fault history (R372, R376, R378). -/

/-- Records errors of a unit of Table 11-6: they merge into its pending entry. -/
def State.unitError (s : State) (kind index cause : Nat) (n : Nat := 1) : State :=
  if n = 0 then s
  else
    let e : HistPend := { kind := kind, index := index, errors := n, cause := cause, hour := s.fld F.CLK_POWERED_HOURS, first := s.now }
    let same (p : HistPend) : Bool := p.kind == kind && p.index == index
    let pend :=
      if s.hist.pend.any same then
        s.hist.pend.map fun p => if same p then { p with errors := min (p.errors + n) (2 ^ 32 - 1), cause := p.cause ||| cause } else p
      else s.hist.pend ++ [e]
    { s with hist := { s.hist with pend := pend } }

/-- Counts an event of Table 11-8a, counter `k`, for the half that leads. -/
def State.countReplay (s : State) (k : Nat) : State :=
  let h := s.fld F.RGR_LATCH_HOLDER
  if h = 0 then s
  else
    let key := 12 * (h - 1) + k
    { s with hist := { s.hist with replay := SMap.put s.hist.replay key (SMap.get 0 s.hist.replay key + 1) } }

end Sys2Proof.Machine
end

