-- ==== Sys2Proof/Machine/Array.lean ====
section
/-!
DEFINITION. The compute-in-memory arrays (chapter 03): cells and side store, the commands of Table 3-17, and the
product of R88 to R95.
-/

namespace Sys2Proof.Machine

/-! Cells (R84 to R86). -/

/-- The verify-read code of a cell: a data or mend cell not listed is erased, a reference cell not listed is at level 3. -/
def ArrSt.code (x : ArrSt) (row col : Nat) : Nat :=
  if row < 1056 then SMap.get 0 x.cells (1024 * row + col) else SMap.get 96 x.refs (1024 * row + col)

/-- Sets a cell's verify-read code. -/
def ArrSt.setCode (x : ArrSt) (row col v : Nat) : ArrSt :=
  if row < 1056 then { x with cells := SMap.set 0 x.cells (1024 * row + col) v }
  else { x with refs := SMap.set 96 x.refs (1024 * row + col) v }

/-- The level of the read band that holds a code; none in a gap (Table 3-2). -/
def bandOf (c : Nat) : Option Nat :=
  if c ≤ 10 then some 0
  else if 26 ≤ c && c ≤ 38 then some 1
  else if 58 ≤ c && c ≤ 70 then some 2
  else if 90 ≤ c && c ≤ 102 then some 3
  else none

/-- The level whose current lies nearest a code: what a cell adds to a sum (R85; codes in a gap, log entry 9). -/
def levelOf (c : Nat) : Nat :=
  match bandOf c with
  | some l => l
  | none => min 3 ((c + 16) / 32)

/-- The program window of a level (Table 3-2). -/
def windowLo : Nat → Nat
  | 0 => 0 | 1 => 30 | 2 => 62 | _ => 94

/-- Its upper end. -/
def windowHi : Nat → Nat
  | 0 => 8 | 1 => 38 | 2 => 70 | _ => 102

/-- Whether a code lies in a level's program window. -/
def inWindow (l c : Nat) : Bool := decide (windowLo l ≤ c) && decide (c ≤ windowHi l)

/-- The target level a refresh gives a code: its band, or the next level up within the 6 codes below a band (R112). -/
def refreshTarget (c : Nat) : Option Nat :=
  match bandOf c with
  | some l => some l
  | none =>
    if 20 ≤ c && c ≤ 25 then some 1
    else if 52 ≤ c && c ≤ 57 then some 2
    else if 84 ≤ c && c ≤ 89 then some 3
    else none

/-- The high and low cell levels of a weight (R47), physical columns 2c and 2c + 1. -/
def ArrSt.levels (x : ArrSt) (row c : Nat) : Nat × Nat := (levelOf (x.code row (2 * c)), levelOf (x.code row (2 * c + 1)))

/-! The side store (R87, Table 3-3). -/

/-- The copy in use. -/
def ArrSt.side (x : ArrSt) : Bytes := if x.sideSel = 0 then x.side0 else x.side1

/-- The column scale k_c. -/
def ArrSt.colScale (x : ArrSt) (c : Nat) : Nat := fieldAt x.side c 1

/-- The group shift s_g,c. -/
def ArrSt.groupShift (x : ArrSt) (g c : Nat) : Nat := bitsAt (fieldAt x.side (512 + 128 * g + c / 4) 1) (2 * (c % 4)) 2

/-- The mend-table entry of a column: USED, S32, MENDROW. -/
def ArrSt.mendEntry (x : ArrSt) (c : Nat) : Bool × Nat × Nat :=
  let b := fieldAt x.side (4608 + c) 1
  (decide (b / 128 = 1), bitsAt b 5 2, b % 32)

/-- A mend-row entry: VALID, BAD, SRC. -/
def ArrSt.mendRow (x : ArrSt) (r : Nat) : Bool × Bool × Nat :=
  let v := fieldAt x.side (5120 + 2 * r) 2
  (decide (v / 32768 = 1), decide (bitsAt v 14 1 = 1), v % 1024)

/-- Whether any mend row has VALID = 1: G32 is then sensed (R94). -/
def ArrSt.mendUsed (x : ArrSt) : Bool := (List.range 32).any fun r => (x.mendRow r).1

/-- Whether a block may be written as a side store (R115). -/
def sideBlockOk (b : Bytes) : Bool :=
  let t : ArrSt := { ArrSt.init with side0 := b }
  decide (b.length = 5188)
    && ((b.take 512).all fun k => k != 0xFF)
    && decide (crc32 (b.take 5184) = fieldAt b 5184 4)
    && ((List.range 512).all fun c => let e := t.mendEntry c; !e.1 || (t.mendRow e.2.2).1)
    && ((List.range 32).all fun r => decide (bitsAt (fieldAt b (5120 + 2 * r) 2) 0 14 ≤ 1023))

/-- The registers that mirror the copy in use (R123, Table 3-13). -/
def State.mirrorSide (s : State) (a : Nat) : State :=
  let x := s.arr a
  let s := (List.range 32).foldl (fun s r =>
      let m := x.mendRow r
      ((s.setFlag F.ARR_MENDROW_VALID m.1 (32 * a + r)).setFlag F.ARR_MENDROW_BAD m.2.1 (32 * a + r)).setFld
        F.ARR_MENDROW_SRC m.2.2 (32 * a + r)) s
  let free := ((List.range 32).filter fun r => let m := x.mendRow r; !m.1 && !m.2.1).length
  (s.setFld F.ARR_STATUS_MEND_FREE free a).setFlag F.ARR_STATUS_MEND_USED x.mendUsed a

/-! Commands (R105 to R115). -/

/-- Mode numbers of Table 3-13. -/
def modeServe : Nat := 0
/-- MAINT. -/
def modeMaint : Nat := 1
/-- EXCLUDED. -/
def modeExcluded : Nat := 2
/-- SPARE. -/
def modeSpare : Nat := 3

/-- An array's mode. -/
def State.mode (s : State) (a : Nat) : Nat := s.fld F.ARR_STATUS_MODE a

/-- Whether an operation runs on the program supply (R111). -/
def supplyBound (op : Nat) : Bool := op == 3 || op == 4 || op == 5

/-- How many arrays run supply-bound commands. -/
def State.supplyCount (s : State) : Nat :=
  (s.arrays.filter fun e => match e.2.cmd with | some c => supplyBound c.op | none => false).length

/-- The data a command takes from the hamper of its site: the rows of PROGRAM_ROWS, the block of WRITE_SIDE. -/
def State.cmdData (s : State) (a op : Nat) : Bytes :=
  let h := 64 * s.fld F.ARR_CMD_ARG1_HADDR a
  if op = 4 then s.hamperRead (a / 16) h (256 * s.fld F.ARR_CMD_ARG0_COUNT a)
  else if op = 9 then s.hamperRead (a / 16) h 5188
  else []

/-- Whether the arguments of an operation lie in their ranges (Tables 3-16 and 3-17, R115, R138). -/
def State.argsOk (s : State) (a op : Nat) : Bool :=
  let row := s.fld F.ARR_CMD_ARG0_ROW a
  let n := s.fld F.ARR_CMD_ARG0_COUNT a
  let h := 64 * s.fld F.ARR_CMD_ARG1_HADDR a
  if op = 4 then decide (1 ≤ n) && decide (row + n ≤ 1056) && decide (h + 256 * n ≤ hamperSize)
  else if op = 5 then decide (1 ≤ n) && decide (row + n ≤ 1064)
  else if op = 6 then decide (row ≤ 1063)
  else if op = 9 then decide (h + 5188 ≤ hamperSize) && sideBlockOk (s.cmdData a 9)
  else decide (1 ≤ op) && decide (op ≤ 10)

/-- Whether a crib fill reads an array (R153). -/
def State.filling (s : State) (a : Nat) : Bool :=
  match (s.core (a / 16)).fill with
  | some f => f.arr == a % 16
  | none => false

/-- The refusal of a command, or none (R105, R107, R110, R111; the order, and a fill counting as a command that runs,
log entry 10). -/
def State.cmdRefusal (s : State) (a op : Nat) : Option Nat :=
  let m := s.mode a
  if s.flag F.ARR_STATUS_BUSY a || s.filling a then some 1
  else if m = modeSpare then some 8
  else if m = modeServe && op != 1 && op != 10 then some 2
  else if m = modeExcluded && (op == 2 || (op == 1 && (s.arr a).retired)) then some 8
  else if !s.argsOk a op then some 5
  else if op == 2 && s.flag F.ARR_STATUS_SIDE_STALE a then some 9
  else if supplyBound op && decide (64 ≤ s.supplyCount) then some 3
  else if supplyBound op && !s.flag F.PWR_STATUS_VPP_ON then some 4
  else none

/-- CMD_STAT as a refused command leaves it (Table 3-19): DONE stays as it is. -/
def State.cmdRefuse (s : State) (a op tag code : Nat) : State :=
  ((s.setFld F.ARR_CMD_STAT_RESULT code a).setFld F.ARR_CMD_STAT_OP op a).setFld F.ARR_CMD_STAT_TAG tag a

/-- A command completes: CMD_STAT, BUSY and the interrupt of its physical row (R107, Table 10-5). -/
def State.cmdFinish (s : State) (a op tag code : Nat) (overflow : Bool := false) : State :=
  let s := s.setArr a { s.arr a with cmd := none }
  let s := ((s.cmdRefuse a op tag code).setFlag F.ARR_CMD_STAT_OVERFLOW overflow a).setFld F.ARR_CMD_STAT_DONE 1 a
  let s := if supplyBound op then { s with pwr := { s.pwr with vppLast := some s.now } } else s
  (s.setFld F.ARR_STATUS_BUSY 0 a).raiseRow 64 (a / 16)

/-- A command starts to run. -/
def State.cmdRun (s : State) (a op tag : Nat) : State :=
  let c : ArrCmd := { op := op, tag := tag, row := s.fld F.ARR_CMD_ARG0_ROW a, count := s.fld F.ARR_CMD_ARG0_COUNT a,
                      haddr := 64 * s.fld F.ARR_CMD_ARG1_HADDR a, data := s.cmdData a op, start := s.now, abort := false }
  ((s.setArr a { s.arr a with cmd := some c }).setFld F.ARR_STATUS_BUSY 1 a).setFld F.ARR_CMD_STAT_DONE 0 a

/-- The effect of accepting a command: mode changes act at once where no product runs (Table 3-9), ERASE marks the
side store stale first (R110), every other command runs until its end. -/
def State.cmdAccept (s : State) (a op tag : Nat) : State :=
  let idle := (s.arr a).prod.isNone
  if op = 1 then
    if s.mode a = modeServe && !idle then s.cmdRun a op tag
    else (s.setFld F.ARR_STATUS_MODE modeMaint a).cmdFinish a op tag 0
  else if op = 2 then (s.setFld F.ARR_STATUS_MODE modeServe a).cmdFinish a op tag 0
  else if op = 10 then
    if idle then (s.setFld F.ARR_STATUS_MODE modeExcluded a).cmdFinish a op tag 0 else s.cmdRun a op tag
  else if op = 3 then
    (((s.setFld F.ARR_STATUS_SIDE_STALE 1 a).setVfld F.ARR_STATUS_SIDE_STALE 1 a).cmdRun a op tag)
  else s.cmdRun a op tag

/-- A command written to ARR.CMD: refused (R107) or accepted. -/
def State.arrCommand (s : State) (a op tag : Nat) : State :=
  match s.cmdRefusal a op with
  | some code => s.cmdRefuse a op tag code
  | none => (if op = 3 then s.setArr a { s.arr a with refreshNext := 0 } else s).cmdAccept a op tag

/-! What ends a command. -/

/-- A cell's final code after program pulses, which only raise (R85) and which only a cell below its window or in a gap receives
(R96, R109, R112): the code met, or the nominal code of its level. -/
def pulsed (given : List (Nat × Nat)) (key cur level : Nat) : Nat :=
  if windowLo level ≤ cur && (bandOf cur).isSome then cur
  else
    match given.find? fun g => g.1 == key with
    | some g => max cur (min g.2 127)
    | none => if cur < windowLo level then 32 * level else cur

/-- Cells whose codes have drifted since they were last touched. -/
def ArrSt.drifted (x : ArrSt) (reads : List (Nat × Nat)) : ArrSt :=
  reads.foldl (fun x r => x.setCode (r.1 / 1024) (r.1 % 1024) (min r.2 127)) x

/-- One row of PROGRAM_ROWS from its 256 bytes (R109): the array after it and its faulty cells. -/
def ArrSt.programRow (x : ArrSt) (row : Nat) (bs : Bytes) (finals : List (Nat × Nat)) : ArrSt × List CellFault :=
  let ws := nibbles bs
  (List.range 512).foldl (fun acc c =>
      let u := (ws.getD c 0 + 8) % 16
      [(2 * c, u / 4), (2 * c + 1, u % 4)].foldl (fun acc p =>
          let key := 1024 * row + p.1
          let f := pulsed finals key (acc.1.code row p.1) p.2
          (acc.1.setCode row p.1 f, if inWindow p.2 f then acc.2 else acc.2 ++ [⟨row, p.1, f⟩])) acc)
    (x, [])

/-- Rows of PROGRAM_ROWS in order; on the 257th fault the command stops at the end of that row. -/
def ArrSt.programRows : List (Nat × Bytes) → List (Nat × Nat) → ArrSt × List CellFault → ArrSt × List CellFault
  | [], _, acc => acc
  | (row, bs) :: rest, finals, acc =>
    if 256 < acc.2.length then acc
    else
      let r := acc.1.programRow row bs finals
      ArrSt.programRows rest finals (r.1, acc.2 ++ r.2)

/-- One row of REFRESH_ROWS (R112): level-0 cells are never pulsed, a code that fits nothing is lost and left. -/
def ArrSt.refreshRow (x : ArrSt) (row : Nat) (finals : List (Nat × Nat)) : ArrSt × List CellFault :=
  (List.range 1024).foldl (fun acc col =>
      let c := acc.1.code row col
      match refreshTarget c with
      | none => (acc.1, acc.2 ++ [⟨row, col, c⟩])
      | some l =>
        let f := if l = 0 then c else pulsed finals (1024 * row + col) c l
        (acc.1.setCode row col f, if inWindow l f then acc.2 else acc.2 ++ [⟨row, col, f⟩]))
    (x, [])

/-- Rows of REFRESH_ROWS in order, with the same limit of faults. -/
def ArrSt.refreshRows : List Nat → List (Nat × Nat) → ArrSt × List CellFault → ArrSt × List CellFault
  | [], _, acc => acc
  | row :: rest, finals, acc =>
    if 256 < acc.2.length then acc
    else
      let r := acc.1.refreshRow row finals
      ArrSt.refreshRows rest finals (r.1, acc.2 ++ r.2)

/-- The result of a command that programs or refreshes: the fault list of up to 256 entries, the counter and CMD_STAT. -/
def State.faultResult (s : State) (a : Nat) (c : ArrCmd) (x : ArrSt) (faults : List CellFault) : State :=
  let s := (s.setArr a { x with faults := faults.take 256 }).count F.ARR_VFAILCNT faults.length a
  s.cmdFinish a c.op c.tag (if c.abort then 7 else if faults.isEmpty then 0 else 6) (decide (256 < faults.length))

/-- LEVEL_CHECK (R113): the counts of the 32 sampled rows by level and in gaps. -/
def ArrSt.levelCounts (x : ArrSt) : List Nat :=
  let codes := (List.range 32).flatMap fun g => (List.range 1024).map fun col => bandOf (x.code (33 * g) col)
  [some 0, some 1, some 2, some 3, none].map fun b => (codes.filter (· == b)).length

/-- The class of counts (R113): 1 ERASED, 2 LEVELLED, 3 MIXED. -/
def levelClass (n : List Nat) : Nat :=
  if 32768 - n.getD 0 0 ≤ 32 then 1 else if n.getD 4 0 ≤ 32 then 2 else 3

/-- The class a LEVEL_CHECK of the array would read. -/
def ArrSt.levelClassOf (x : ArrSt) : Nat := levelClass x.levelCounts

/-- Whether the mean code of some converter lies more than 2 from 12k at some point k (R114): `sweep` holds the sums of the 64
conversions, at 9·converter + k; what is not given is ideal. -/
def sweepFails (sweep : List Nat) : Bool :=
  sweep.zipIdx.any fun p => decide (64 * (12 * (p.2 % 9) + 2) < p.1) || decide (p.1 + 128 < 768 * (p.2 % 9))

/-- The array's own part of the end of its running command (R107 to R115): `reads` are codes that have drifted,
`finals` codes that pulses left, `sweep` mean codes of converters by point. -/
def State.arrCommandEnd (s : State) (a : Nat) (c : ArrCmd) (reads finals : List (Nat × Nat)) (sweep : List Nat) : State :=
  let x := (s.arr a).drifted reads
  let rows := (List.range c.count).map (c.row + ·)
  if c.op = 3 then
    if c.abort then (s.setArr a (x.drifted finals)).cmdFinish a c.op c.tag 7
    else
      let s := s.setArr a { x with cells := [] }
      let s := s.count F.ARR_CYCLES_COUNT 1 a
      let s := s.setVfld F.ARR_CYCLES_COUNT (s.fld F.ARR_CYCLES_COUNT a) a
      (s.setFlag F.ARR_STATUS_WORN (decide (10000 ≤ s.fld F.ARR_CYCLES_COUNT a)) a).cmdFinish a c.op c.tag 0
  else if c.op = 4 then
    if c.abort then s.faultResult a c (x.drifted finals) []
    else
      let r := ArrSt.programRows (rows.zipIdx.map fun p => (p.1, slice c.data (256 * p.2) 256)) finals (x, [])
      s.faultResult a c r.1 r.2
  else if c.op = 5 then
    if c.abort then s.faultResult a c (x.drifted finals) []
    else
      let r := ArrSt.refreshRows rows finals (x, [])
      let next := if (c.row = 0 || c.row = x.refreshNext) && decide (r.2.length ≤ 256) then c.row + c.count else x.refreshNext
      s.faultResult a c { r.1 with refreshNext := next } r.2
  else if c.op = 6 then
    (s.setArr a { x with verify := (List.range 1024).map fun col => x.code c.row col }).cmdFinish a c.op c.tag 0
  else if c.op = 7 then
    let n := x.levelCounts
    let s := (s.setArr a x).setFld F.ARR_LEVELS_A_L0 (n.getD 0 0) a
    let s := (s.setFld F.ARR_LEVELS_A_L1 (n.getD 1 0) a).setFld F.ARR_LEVELS_B_L2 (n.getD 2 0) a
    let s := (s.setFld F.ARR_LEVELS_B_L3 (n.getD 3 0) a).setFld F.ARR_LEVELS_C_GAP (n.getD 4 0) a
    (s.setFld F.ARR_LEVELS_C_CLASS (levelClass n) a).cmdFinish a c.op c.tag 0
  else if c.op = 8 then
    (s.setArr a { x with sweep := sweep, sweepFail := sweepFails sweep }).cmdFinish a c.op c.tag 0
  else if c.op = 9 then
    let y := if x.sideSel = 0 then { x with side1 := c.data, sideSel := 1 } else { x with side0 := c.data, sideSel := 0 }
    let s := ((s.setArr a y).setFld F.ARR_STATUS_SIDE_STALE 0 a).setVfld F.ARR_STATUS_SIDE_STALE 0 a
    (s.mirrorSide a).cmdFinish a c.op c.tag 0
  else s

/-! The product (R88 to R95). -/

/-- How many conversions a product takes (R94). -/
def conversions (f : Fmt) (k : Nat) (mend : Bool) : Nat := (k + if mend then 1 else 0) * (planeWeights f).length * 4

/-- The group's rows with the elements that drive them: data rows of G0 to G31, mend rows of G32 (R88, R94). -/
def ArrSt.groupRows (x : ArrSt) (b : InBuf) (k g : Nat) : List (Nat × Int) :=
  if g < 32 then (List.range 32).map fun i => (32 * g + i, elemInt b.fmt (b.elems.getD (32 * g + i) 0))
  else (List.range 32).map fun r =>
    let m := x.mendRow r
    (1024 + r, if m.1 && decide (m.2.2 / 32 < k) then elemInt b.fmt (b.elems.getD m.2.2 0) else 0)

/-- A converter's code (R91): the sum with its deviation, in 0 to 127. -/
def convCode (sum : Nat) (dev : Int) : Nat := (clampInt 0 127 ((sum : Int) + dev)).toNat

/-- The codes of one group and column, plane by plane: high and low cell column (R65, R89, R91).  A deviation stands
at 256·(4·(P·gi + p) + phase) + converter, `gi` counting the sensed groups. -/
def ArrSt.groupCodes (x : ArrSt) (f : Fmt) (rows : List (Nat × Int)) (dev : SMap Int) (gi c : Nat) : List (Nat × Nat) :=
  let lv := rows.map fun r => (r.2, x.levels r.1 c)
  (List.range (planeWeights f).length).map fun p =>
    let sh := lv.foldl (fun t e => t + planeBit f e.1 p * e.2.1) 0
    let sl := lv.foldl (fun t e => t + planeBit f e.1 p * e.2.2) 0
    let at_ (ph : Nat) : Nat := 256 * (4 * ((planeWeights f).length * gi + p) + ph) + c / 2
    (convCode sh (SMap.get 0 dev (at_ (2 * (c % 2)))), convCode sl (SMap.get 0 dev (at_ (2 * (c % 2) + 1))))

/-- The sensed groups of a product, in order (R90, R94). -/
def ArrSt.sensed (x : ArrSt) (k : Nat) : List Nat := List.range k ++ (if x.mendUsed then [32] else [])

/-- The shift s + d of a group and column (R67). -/
def ArrSt.shiftOf (x : ArrSt) (b : InBuf) (g c : Nat) : Nat × Nat :=
  if g < 32 then (x.groupShift g c, b.offs.getD g 0)
  else
    let e := x.mendEntry c
    if e.1 then (e.2.1, b.offs.getD ((x.mendRow e.2.2).2.2 / 32) 0) else (0, 0)

/-- The accumulator A_c of a product and the count of its codes of 104 or above (R66, R67, R91). -/
def ArrSt.columnAcc (x : ArrSt) (b : InBuf) (k : Nat) (dev : SMap Int) (c : Nat) : Int × Nat :=
  (x.sensed k).zipIdx.foldl (fun t g =>
      let rows := x.groupRows b k g.1
      let xs := rows.foldl (fun a r => a + r.2) (0 : Int)
      let codes := x.groupCodes b.fmt rows dev g.2 c
      let sh := x.shiftOf b g.1 c
      (t.1 + 2 ^ (sh.1 + sh.2) * groupProduct (planeSum b.fmt codes) xs,
       t.2 + (codes.filter fun q => decide (104 ≤ q.1)).length + (codes.filter fun q => decide (104 ≤ q.2)).length))
    (0, 0)

/-- The 512 accumulators of a product and its over-range count. -/
def ArrSt.productAcc (x : ArrSt) (b : InBuf) (k : Nat) (dev : SMap Int) : List Int × Nat :=
  let cs := (List.range 512).map (x.columnAcc b k dev)
  (cs.map (·.1), cs.foldl (fun t p => t + p.2) 0)

/-- Q_c of a product's column: 4^(s + d) over the groups sensed (R80). -/
def ArrSt.qOf (x : ArrSt) (b : InBuf) (k c : Nat) : Nat := qFactor ((x.sensed k).map fun g => x.shiftOf b g c)

/-- An input buffer by its number. -/
def ArrSt.inBuf (x : ArrSt) (b : Nat) : InBuf := if b = 0 then x.in0 else x.in1

/-- Sets an input buffer. -/
def ArrSt.setInBuf (x : ArrSt) (b : Nat) (v : InBuf) : ArrSt := if b = 0 then { x with in0 := v } else { x with in1 := v }

/-- An output bank by its number. -/
def ArrSt.outBank (x : ArrSt) (b : Nat) : OutBank := if b = 0 then x.out0 else x.out1

/-- Sets an output bank. -/
def ArrSt.setOutBank (x : ArrSt) (b : Nat) (v : OutBank) : ArrSt := if b = 0 then { x with out0 := v } else { x with out1 := v }

/-- A product starts (R94), refused where the array is not in SERVE (R106). -/
def State.productStart (s : State) (a buf k bank : Nat) : State :=
  let x := s.arr a
  let b := x.inBuf buf
  let n := conversions b.fmt k x.mendUsed
  let p : ProdRun := { buf := buf, k := k, bank := bank, start := s.cyc, dur := 3200 * n,
                       refused := s.mode a != modeServe }
  let s := s.setArr a { x with prod := some p }
  if p.refused then s.count F.ARR_UNAVCNT 1 a else s.setFld F.ARR_STATUS_PRODUCT 1 a

/-- Trims written while a product ran take effect, both of one register together (R104). -/
def State.applyTrims (s : State) (a : Nat) : State :=
  let x := s.arr a
  let s := match x.pendTrimRef with
    | some v => (s.setFld F.ARR_TRIM_REF_TOP v a).setFld F.ARR_TRIM_REF_BOT (v / 65536) a
    | none => s
  let s := match x.pendTrimRead with
    | some v => (s.setFld F.ARR_TRIM_READ_RWL v a).setFld F.ARR_TRIM_READ_SBIAS (v / 65536) a
    | none => s
  s.setArr a { s.arr a with pendTrimRef := none, pendTrimRead := none }

/-- A command that waited for the end of the product takes effect (Table 3-9). -/
def State.modeAfterProduct (s : State) (a : Nat) : State :=
  match (s.arr a).cmd with
  | some c =>
    if c.op = 1 then (s.setFld F.ARR_STATUS_MODE modeMaint a).cmdFinish a c.op c.tag 0
    else if c.op = 10 then (s.setFld F.ARR_STATUS_MODE modeExcluded a).cmdFinish a c.op c.tag 0
    else s
  | none => s

/-! The commands' meanings. -/

/-- ENTER_MAINT (R105). -/
def execEnterMaint (arr tag : Nat) (s : State) : Host.Outcome State Fault Refusal := within (arr < arrCount) (s.arrCommand arr 1 tag)
/-- LEAVE_MAINT (R105). -/
def execLeaveMaint (arr tag : Nat) (s : State) : Host.Outcome State Fault Refusal := within (arr < arrCount) (s.arrCommand arr 2 tag)
/-- ERASE (R110). -/
def execErase (arr tag : Nat) (s : State) : Host.Outcome State Fault Refusal := within (arr < arrCount) (s.arrCommand arr 3 tag)
/-- PROGRAM_ROWS (R109). -/
def execProgramRows (arr tag : Nat) (s : State) : Host.Outcome State Fault Refusal := within (arr < arrCount) (s.arrCommand arr 4 tag)
/-- REFRESH_ROWS (R112). -/
def execRefreshRows (arr tag : Nat) (s : State) : Host.Outcome State Fault Refusal := within (arr < arrCount) (s.arrCommand arr 5 tag)
/-- VERIFY_ROW (R108). -/
def execVerifyRow (arr tag : Nat) (s : State) : Host.Outcome State Fault Refusal := within (arr < arrCount) (s.arrCommand arr 6 tag)
/-- LEVEL_CHECK (R113). -/
def execLevelCheck (arr tag : Nat) (s : State) : Host.Outcome State Fault Refusal := within (arr < arrCount) (s.arrCommand arr 7 tag)
/-- REF_SWEEP (R114). -/
def execRefSweep (arr tag : Nat) (s : State) : Host.Outcome State Fault Refusal := within (arr < arrCount) (s.arrCommand arr 8 tag)
/-- WRITE_SIDE (R115). -/
def execWriteSide (arr tag : Nat) (s : State) : Host.Outcome State Fault Refusal := within (arr < arrCount) (s.arrCommand arr 9 tag)
/-- EXCLUDE (R105). -/
def execExclude (arr tag : Nat) (s : State) : Host.Outcome State Fault Refusal := within (arr < arrCount) (s.arrCommand arr 10 tag)

/-- VPP_OUT_OF_REGULATION (R111): every supply-bound command that runs ends with ABORTED at the end of its pulse, its
cells left as they are.  The command's own end is its ARRAY_COMMAND_END. -/
def execVppOutOfRegulation (s : State) : Host.Outcome State Fault Refusal :=
  let s := s.setFld F.PWR_STATUS_VPP_ON 0
  .next { s with arrays := s.arrays.map fun e =>
    match e.2.cmd with
    | some c => if supplyBound c.op then (e.1, { e.2 with cmd := some { c with abort := true } }) else e
    | none => e }

end Sys2Proof.Machine
end

