-- ==== Sys2Proof/Machine/Flags.lean ====
section
/-!
DEFINITION. Numbers the part reports with: causes of a suspect leg (Table 4-5), interrupt source identities (Table 10-5).
-/

namespace Sys2Proof.Machine

/-- Bit of TASTE. -/
def causeTaste : Nat := 0
/-- Bit of RANGE. -/
def causeRange : Nat := 1
/-- Bit of UNAVAIL. -/
def causeUnavail : Nat := 2
/-- Bit of OVERRUN. -/
def causeOverrun : Nat := 3
/-- Bit of HAMPER. -/
def causeHamper : Nat := 4
/-- Bit of DATA. -/
def causeData : Nat := 5
/-- Bit of SYNC. -/
def causeSync : Nat := 6

/-- Frame boundary accepted. -/
def irqBoundary : Nat := 4
/-- Ready point reached. -/
def irqReadyPoint : Nat := 5
/-- Suspect report received. -/
def irqSuspect : Nat := 6
/-- Leadership latch: lapse or change of holder. -/
def irqLeadership : Nat := 7
/-- RANGER_DOWN of Ranger core 0. -/
def irqRangerDown : Nat := 8
/-- CMD_TAIL advanced in the window of function 0. -/
def irqCmdTail : Nat := 16
/-- Submissions copied for queues of Ranger core 0. -/
def irqSubmissions : Nat := 33
/-- Array or crib command ended, physical row 0. -/
def irqArray : Nat := 64
/-- Range-monitor statistic event, physical row 0. -/
def irqStat : Nat := 96
/-- Uncorrectable hamper word or counter saturation, physical row 0. -/
def irqHamper : Nat := 128
/-- PORT[0] event. -/
def irqPort : Nat := 256
/-- STACK[0] event. -/
def irqStack : Nat := 288
/-- Host-port error. -/
def irqHost : Nat := 298
/-- Binding notice or firmware fabric message received. -/
def irqFabric : Nat := 299
/-- The metrology converter's completion. -/
def irqConversion : Nat := 320

end Sys2Proof.Machine
end

