-- ==== Sys2Proof/Machine/Sequencer.lean ====
section
/-!
DEFINITION. Synchronisation counters, suspect marks, durations and readiness of operations (04_core R124, R144 to R151).
-/

namespace Sys2Proof.Machine

/-- Marks the leg a core runs suspect with a cause (R151): the first cause counts the leg and sends a report; a replay for
another part only becomes UNCLEAN (R359). -/
def State.markSuspect (s : State) (site bit : Nat) (mem : Bool := false) : State :=
  let c := s.core site
  match c.run with
  | none => s
  | some r =>
    let first := r.cause = 0 && r.replay.isNone
    let cause := r.cause ||| 2 ^ bit
    let r' := { r with cause := cause, noReplay := r.noReplay || mem }
    let s := s.setCore site { c with run := some r' }
    let s := if r.replay.isSome then s else (s.setFld F.CORE_SUSPECT_LEG r.idx site).setFld F.CORE_SUSPECT_FRAME s.frame.number site
    let s := if r.replay.isSome then s else s.setFld F.CORE_SUSPECT_CAUSE cause site
    if first then
      let core := (s.siteCore site).getD 0
      let s := s.count F.CORE_SUSPCNT 1 site
      { s with frame := { s.frame with
          suspects := s.frame.suspects + 1
          reports := s.frame.reports ++ [⟨core, r.idx, s.frame.number, cause, mem, false, r.unread⟩]
          suspectLegs := s.frame.suspectLegs ++ [(core, r.idx)] } }
    else s

/-- The place of counter `k` of a site. -/
def ctrAt (site k : Nat) : Nat := 64 * site + k

/-- A counter's value. -/
def State.ctr (s : State) (site k : Nat) : Nat := s.fld F.CORE_CTR_DATA_VALUE (ctrAt site k)

/-- Whether a core is being cleared (R161). -/
def State.clearing (s : State) (site : Nat) : Bool := s.flag F.CORE_STATUS_CLEARING site

/-- Increases a counter (R144); beyond 0xFF_FFFF it saturates, and the running leg is suspect (R145). -/
def State.ctrInc (s : State) (site k n : Nat) : State :=
  let v := s.ctr site k + n
  if v ≤ 0xFFFFFF then s.setFld F.CORE_CTR_DATA_VALUE v (ctrAt site k)
  else
    let s := (s.setFld F.CORE_CTR_DATA_VALUE 0xFFFFFF (ctrAt site k)).setFld F.CORE_CTR_DATA_SAT 1 (ctrAt site k)
    ((s.unitError 1 site (2 ^ causeSync)).markSuspect site causeSync).raiseRow irqHamper site

/-- Sets a counter to 0, its SAT with it (R145). -/
def State.ctrZero (s : State) (site k : Nat) : State :=
  (s.setFld F.CORE_CTR_DATA_VALUE 0 (ctrAt site k)).setFld F.CORE_CTR_DATA_SAT 0 (ctrAt site k)

/-- All 64 counters of a core to 0. -/
def State.ctrsZero (s : State) (site : Nat) : State := (List.range 64).foldl (fun s k => s.ctrZero site k) s

/-- Whether an operation's counter condition is met (R145). -/
def State.waitMet (s : State) (site : Nat) (h : OpHdr) : Bool :=
  match h.waitCtr with
  | none => true
  | some k => decide (h.waitTarget ≤ s.ctr site k)

/-- The stages of a rotation of 2^m points take ⌈m/6⌉ passes (R129). -/
def rotPasses (m : Nat) : Nat := ceilDiv m 6

/-- The cycles an operation lasts at the core clock (R125, R127, R129, R131, R134, Table 4-3, Table 6-1); a product's
own duration stands in its array, a barrier has none. -/
def OpKind.cycles (arrays : Nat) : OpKind → Nat
  | .nop | .resetCtr _ | .flip _ | .barrier .. => 0
  | .load .. => 16
  | .product .. => 0
  | .accumulate .. => 512 * arrays / 64 + 32
  | .rotq m mode _ _ _ _ _ len =>
    (if mode ≤ 2 then len / 64 * rotPasses m + 32 else len / 64)
      + (if mode = 1 || mode = 3 then 16 else if mode = 2 || mode = 4 then 32 else 0)
  | .matmul _ _ _ m n k32 _ => ceilDiv m 32 * ceilDiv n 32 * (32 * k32) + 24
  | .vec op _ _ _ _ _ len =>
    match op with
    | .recip | .rsqrt | .exp2 | .log2 => ceilDiv len 16 + 16
    | .sum | .maxRed => len / 64 + 14
    | .topK => 24
    | _ => ceilDiv len 64 + 8
  | .send _ _ _ _ bytes => ceilDiv bytes 64
  | .memRead _ _ bytes _ => ceilDiv bytes 64
  | .memWrite _ _ bytes _ => ceilDiv bytes 64 + 256
  | .portSend port _ _ _ _ _ _ bytes => if port = 32 then ceilDiv bytes 64 + 64 else 48 + ceilDiv (2 * bytes) 125

/-- Whether a unit of a leg is free for an operation: no other operation of the unit runs, products apart, each of
which occupies only its array (R148). -/
def LegRun.unitFree (r : LegRun) (u : CUnit) : Bool :=
  !(r.running.any fun q => decide (q.op.kind.unit = u) &&
      (match q.op.kind with | .product .. => false | .barrier .. => false | _ => true))

/-- The arrays a mask names. -/
def maskArrays (mask : Nat) : List Nat := (List.range 16).filter fun a => bitsAt mask a 1 = 1

/-- The chain entries of an ACCUMULATE: array mask, banks, destination (Table 5-7). -/
def State.chainTable (s : State) (site table n : Nat) : List (Nat × Nat × Nat) :=
  (List.range n).map fun i =>
    let b := s.hamperRead site (table + 8 * i) 8
    (fieldAt b 0 2, fieldAt b 2 2, fieldAt b 4 4)

/-- What an operation itself waits for beyond its counter: a load for its buffers (R126), a product for its array and
its buffer (R93), an accumulation for its banks (R128). -/
def State.resourceReady (s : State) (site : Nat) : OpKind → Bool
  | .load mask _ buf _ _ _ _ =>
    (maskArrays mask).all fun a => match (s.arr (16 * site + a)).prod with | some p => p.buf != buf | none => true
  | .product arr buf _ _ =>
    let x := s.arr (16 * site + arr)
    x.prod.isNone && ((x.inBuf buf).full || s.mode (16 * site + arr) != modeServe)
  | .accumulate n _ table =>
    (s.chainTable site table n).all fun t =>
      (maskArrays t.1).all fun a =>
        let x := s.arr (16 * site + a)
        let b := bitsAt t.2.1 a 1
        (x.outBank b).full && (match x.prod with | some p => p.bank != b || decide (p.start + p.dur ≤ s.cyc) | none => true)
  | _ => true

/-- The counter that a wait of this kind counts in: late loads and late products (R93, R126). -/
def State.countLate (s : State) (site : Nat) : OpKind → State
  | .load .. => s.count F.CORE_HSTALLCNT 1 site
  | .product arr .. => if (s.arr (16 * site + arr)).prod.isNone then s.count F.ARR_LATECNT 1 (16 * site + arr) else s
  | _ => s

end Sys2Proof.Machine
end

