-- ==== Sys2Proof/Machine/Shares.lean ====
section
/-!
DEFINITION. Which hamper bytes the operations of a leg read and write, and from them the replay input and output of the
leg (05_itineraries_and_frames R169, R170; 11_integrity_and_recovery R355).  A range is an address with a length.
-/

namespace Sys2Proof.Machine

/-- What is left of a range without another. -/
def cutRange (r w : Nat × Nat) : List (Nat × Nat) :=
  let a := r.1
  let e := r.1 + r.2
  let b := w.1
  let f := w.1 + w.2
  if w.2 = 0 || decide (f ≤ a) || decide (e ≤ b) then [r]
  else (if a < b then [(a, b - a)] else []) ++ (if f < e then [(f, e - f)] else [])

/-- What is left of ranges without others. -/
def cutRanges (rs ws : List (Nat × Nat)) : List (Nat × Nat) := ws.foldl (fun rs w => rs.flatMap fun r => cutRange r w) rs

/-- Ranges joined without repeats. -/
def joinRanges (rs : List (Nat × Nat)) : List (Nat × Nat) := rs.foldl (fun acc r => acc ++ cutRanges [r] acc) []

/-- Whether two lists of ranges share a byte. -/
def meetRanges (a b : List (Nat × Nat)) : Bool :=
  a.any fun p => b.any fun q => decide (p.1 < q.1 + q.2) && decide (q.1 < p.1 + p.2)

/-- How many bytes ranges hold. -/
def rangeBytes (rs : List (Nat × Nat)) : Nat := rs.foldl (fun n r => n + r.2) 0

/-- The row width E of a stream. -/
def rowWidth (bpt : Nat) : Nat := 32 * bpt / 17

/-- The bytes a MEM_READ delivers: its tokens, with TAIL the extent, and the count word (R215). -/
def memReadBytes (r : Option StreamRec) (bytes token : Nat) : Nat :=
  match r with
  | some r => bytes + (if bitsAt token 31 1 = 1 then 64 * rowWidth r.bpt else 0) + 4
  | none => 0

/-- The bytes a ROTQ writes (R170). -/
def rotqBytes (mode len : Nat) : Nat :=
  if mode = 0 then 4 * len
  else len / 2 + len / 32 + (if mode = 2 || mode = 4 then ceilDiv len 1024 else 0)

/-- The sources of a vector operation beside A, with their lengths. -/
def vecReads (op : VecOp) (flags b dst len : Nat) : List (Nat × Nat) :=
  let w := if bitsAt flags 1 1 = 1 then 2 else 4
  match op with
  | .add | .sub | .mul | .min | .max | .cmp => [(b, w * len)]
  | .fma => [(b, w * len), (dst, (if bitsAt flags 0 1 = 1 then 2 else 4) * len)]
  | .select => [(b, w * len), (dst, len)]
  | .scale => [(b, ceilDiv len 32)]
  | _ => []

/-- The bytes a vector operation writes. -/
def vecWrites (op : VecOp) (flags k len : Nat) : Nat :=
  let w := if bitsAt flags 0 1 = 1 then 2 else 4
  match op with
  | .cmp => len
  | .topK => 4 * k
  | .sum | .maxRed => w
  | _ => w * len

/-- The hamper ranges an operation reads. -/
def OpKind.reads : OpKind → List (Nat × Nat)
  | .load _ _ _ elems scales ref count => [(elems, ceilDiv count 2), (scales, ceilDiv count 32), (ref, 1)]
  | .accumulate n _ table => [(table, 8 * n)]
  | .rotq _ _ _ inBf16 _ src _ len => [(src, (if inBf16 then 2 else 4) * len)]
  | .matmul x y z m n k32 flags =>
    [(x, m * 17 * k32), (y, n * 17 * k32)] ++ (if bitsAt flags 4 1 = 1 then [(z, 4 * m * n)] else [])
  | .vec op flags _ a b dst len => (a, (if bitsAt flags 1 1 = 1 then 2 else 4) * len) :: vecReads op flags b dst len
  | .send _ _ src _ bytes => [(src, bytes)]
  | .memWrite _ addr bytes _ => [(addr, bytes)]
  | .portSend _ _ _ _ _ src _ bytes => [(src, bytes)]
  | _ => []

/-- The hamper ranges an operation writes; `chains` reads a chain table, `stream` finds a stream's record. -/
def OpKind.writes (chains : Nat → Nat → List (Nat × Nat × Nat)) (stream : Nat → Option StreamRec) : OpKind → List (Nat × Nat)
  | .accumulate n bf16 table => (chains table n).map fun t => (t.2.2, 512 * (if bf16 then 2 else 4))
  | .rotq _ mode _ _ _ _ dst len => [(dst, rotqBytes mode len)]
  | .matmul _ _ z m n _ flags => [(z, m * n * (if bitsAt flags 3 1 = 1 && bitsAt flags 2 1 = 0 then 2 else 4))]
  | .vec op flags k _ _ dst len => [(dst, vecWrites op flags k len)]
  | .memRead n addr bytes token => [(addr, memReadBytes (stream n) bytes token)]
  | _ => []

/-- Whether an operation sends data out of its core (R356). -/
def OpKind.sends : OpKind → Bool
  | .send .. | .memWrite .. | .portSend .. => true
  | _ => false

/-- The counter a network operation's transfer increases at the core it lands in. -/
def OpKind.fills : OpKind → Option (Nat × Option Nat × Nat × Nat)
  | .send core ctr _ dst bytes => some (core, ctr, dst, bytes)
  | _ => none

/-- The hamper bytes that operations read before any of them writes them. -/
def firstReads (chains : Nat → Nat → List (Nat × Nat × Nat)) (stream : Nat → Option StreamRec) (ops : List Op) :
    List (Nat × Nat) :=
  (ops.foldl (fun (acc : List (Nat × Nat) × List (Nat × Nat)) o =>
      (acc.1 ++ cutRanges o.kind.reads acc.2, acc.2 ++ o.kind.writes chains stream)) ([], [])).1

/-- Where the deliveries that a leg waits for land: sends of other cores, port arrivals and host records whose counter
the leg waits on. -/
def Itin.arrivals (it : Itin) (core : Nat) (leg : Leg) : List (Nat × Nat) :=
  let waits := leg.ops.filterMap (·.hdr.waitCtr)
  let sends := it.shares.flatMap fun sh => if sh.core = core then [] else
    sh.legs.flatMap fun l => l.ops.filterMap fun o =>
      match o.kind with
      | .send c (some k) _ dst bytes => if c = core && waits.contains k then some (dst, bytes) else none
      | _ => none
  sends ++ it.ports.filterMap fun p => if p.core = core && waits.contains p.ctr then some (p.addr, p.bytes) else none

/-- The replay input of a leg (R355). -/
def Itin.replayInput (it : Itin) (chains : Nat → Nat → List (Nat × Nat × Nat)) (core : Nat) (leg : Leg) : List (Nat × Nat) :=
  let stream := fun n => it.streams.find? fun r => r.stream == n
  joinRanges (firstReads chains stream leg.ops
    ++ leg.ops.flatMap (fun o => match o.kind with | .memRead .. => o.kind.writes chains stream | _ => [])
    ++ it.arrivals core leg)

/-- The hamper part of a leg's replay output (R355). -/
def Itin.replayOutput (it : Itin) (chains : Nat → Nat → List (Nat × Nat × Nat)) (leg : Leg) : List (Nat × Nat) :=
  joinRanges (leg.ops.flatMap fun o => o.kind.writes chains fun n => it.streams.find? fun r => r.stream == n)

/-- The replay input of the leg a core runs; none without an itinerary. -/
def State.runInput (s : State) (site : Nat) (r : LegRun) : List (Nat × Nat) :=
  match s.frame.active, s.siteCore site with
  | some it, some core => it.replayInput (s.chainTable site) core r.leg
  | _, _ => []

end Sys2Proof.Machine
end

