-- ==== Sys2Proof/Machine/VecMath.lean ====
section
/-!
DEFINITION. The element functions of the vector unit (04_core R135 to R137, Table 4-3) on FP32 words.
-/

namespace Sys2Proof.Machine

/-- An FP32 word as an operand: subnormals are zeros, every NaN the canonical one (R74). -/
def fpIn (w : Nat) : Nat := fpOf (fpVal w)

/-- The exact positive magnitude m·2^e cut to 24 bits, and whether the cut was exact. -/
def fpTrunc (m : Nat) (e : Int) : Nat × Bool :=
  let n := Nat.log2 m + 1
  if n ≤ 24 then (fpRound false m e, true)
  else (fpRound false (m / 2 ^ (n - 24)) (e + (n - 24 : Nat)), m % 2 ^ (n - 24) = 0)

/-- A result known to two units in the last place (Table 2-6): the cut of the exact magnitude, moved by a free amount
that keeps it within the bound; zeros and infinities are not moved. -/
def ulpFree (op x : Nat) (neg : Bool) (t : Nat × Bool) : Nat :=
  let w := t.1
  let sign := if neg then 2 ^ 31 else 0
  if w = 0 || fpNotFinite w then sign + w
  else if t.2 then sign + (w + Config.vecError op x % 5 - 2) else sign + (w + Config.vecError op x % 4 - 1)

/-- Reciprocal. -/
def vecRecip (x : Nat) : Nat :=
  match fpVal x with
  | .nan => fpNaN
  | .inf n => fpZero n
  | .zero n => fpInf n
  | .fin n m e => ulpFree 0x0B x n (let q := 2 ^ 90 / m; let q' := if 2 ^ 90 % m = 0 then 2 * q else 2 * q + 1; fpTrunc q' (-e - 91))

/-- Reciprocal square root. -/
def vecRsqrt (x : Nat) : Nat :=
  match fpVal x with
  | .nan => fpNaN
  | .inf n => if n then fpNaN else fpZero false
  | .zero n => fpInf n
  | .fin n m e =>
    if n then fpNaN
    else
      let me := if e % 2 = 0 then (m, e) else (2 * m, e - 1)
      -- 1/√m: √(2^160/m) · 2^-80
      let q := 2 ^ 160 / me.1
      let r := isqrt q
      let r' := if r * r = q && 2 ^ 160 % me.1 = 0 then 2 * r else 2 * r + 1
      ulpFree 0x0C x false (fpTrunc r' (-(me.2 / 2) - 81))

/-- 2^f for a fraction of 60 bits: the product of the roots 2^(2^-i) its bits name, over 2^62. -/
def pow2Frac : Nat → Nat → Nat → Nat → Nat
  | 0, _, _, acc => acc
  | n + 1, root, f, acc =>
    let r := isqrt (root * 2 ^ 62)
    if f / 2 ^ n % 2 = 1 then pow2Frac n r f (acc * r / 2 ^ 62) else pow2Frac n r f acc

/-- Base-2 exponential. -/
def vecExp2 (x : Nat) : Nat :=
  match fpVal x with
  | .nan => fpNaN
  | .inf n => if n then 0 else fpInf false
  | .zero _ => 0x3F800000
  | .fin n m e =>
    if !n && !fpLt x 0x43000000 then fpInf false
    else if fpLt x 0xC2FC0000 then 0
    else
      let mag : Nat := if 0 ≤ e + 60 then m * 2 ^ (e + 60).toNat else m / 2 ^ (-(e + 60)).toNat
      let v : Int := if n then -(mag : Int) else mag
      let i := v / 2 ^ 60
      let f := (v % 2 ^ 60).toNat
      ulpFree 0x0D x false (fpTrunc (pow2Frac 60 (2 ^ 63) f (2 ^ 62)) (i - 62))

/-- Base-2 logarithm. -/
def vecLog2 (x : Nat) : Nat :=
  match fpVal x with
  | .nan => fpNaN
  | .inf n => if n then fpNaN else fpInf false
  | .zero _ => fpInf true
  | .fin n m e =>
    if n then fpNaN
    else
      let k := Nat.log2 m
      let fr := log2FracWide 100 (m * 2 ^ (120 - k)) 0
      let v : Int := (e + k) * 2 ^ 100 + fr
      ulpFree 0x0E x (decide (v < 0)) (if v = 0 then (0, true) else fpTrunc v.natAbs (-100))
where
  /-- The fraction bits of a logarithm, the mantissa in [2^120, 2^121). -/
  log2FracWide : Nat → Nat → Nat → Nat
    | 0, _, acc => acc
    | j + 1, y, acc =>
      let z := y * y / 2 ^ 120
      if z < 2 ^ 121 then log2FracWide j z (2 * acc) else log2FracWide j (z / 2) (2 * acc + 1)

/-- Maximum: a NaN operand gives NaN, max(+0, -0) = +0 (Table 4-3). -/
def vecMax (a b : Nat) : Nat :=
  if fpIsNaN a || fpIsNaN b then fpNaN
  else if fpLt (fpIn a) (fpIn b) then fpIn b
  else if fpLt (fpIn b) (fpIn a) then fpIn a
  else if fpIn a = fpIn b then fpIn a else 0

/-- Minimum: a NaN operand gives NaN; which zero min(+0, -0) gives is not stated and is a free value. -/
def vecMin (a b : Nat) : Nat :=
  if fpIsNaN a || fpIsNaN b then fpNaN
  else if fpLt (fpIn a) (fpIn b) then fpIn a
  else if fpLt (fpIn b) (fpIn a) then fpIn b
  else if fpIn a = fpIn b then fpIn a else fpZero (decide (Config.openValue 135 0 % 2 = 1))

/-- Compare: false with NaN; the relation itself is free. -/
def vecCmp (a b : Nat) : Bool :=
  match fpKey a, fpKey b with
  | some x, some y => Config.vecCompare x y
  | _, _ => false

/-- The mask byte of a comparison: nonzero for true. -/
def maskOf (b : Bool) : Byte := if b then BitVec.ofNat 8 (1 + Config.maskByte % 255) else 0

/-- Multiply by an E8M0 scale byte; 0xFF gives NaN (R50, Table 4-3). -/
def vecScale (a byte : Nat) : Nat := if byte = e8m0NaN then fpNaN else fpScale a ((byte : Int) - 127)

/-- The elements of lane `j`: j, j + 64, j + 128 … (R136). -/
def laneElems (v : List Nat) (j : Nat) : List Nat :=
  (v.zipIdx.filter fun p => p.2 % 64 = j).map (·.1)

/-- A lane's elements combined in order; none for a lane without elements. -/
def laneFold (f : Nat → Nat → Nat) : List Nat → Option Nat
  | [] => none
  | a :: r => some (r.foldl f (fpIn a))

/-- Two lane results combined; a lane without elements adds nothing. -/
def laneJoin (f : Nat → Nat → Nat) : Option Nat → Option Nat → Option Nat
  | some a, some b => some (f a b)
  | some a, none => some a
  | none, b => b

/-- The six stages over 64 lanes (R136): stage halves the live lanes. -/
def laneStages (f : Nat → Nat → Nat) : Nat → List (Option Nat) → List (Option Nat)
  | 0, l => l
  | n + 1, l => laneStages f n (List.zipWith (laneJoin f) (l.take (2 ^ n)) (l.drop (2 ^ n)))

/-- A reduction in two phases (R136); what it gives over no elements is not stated and is a free value. -/
def vecReduce (f : Nat → Nat → Nat) (v : List Nat) : Nat :=
  ((laneStages f 6 ((List.range 64).map fun j => laneFold f (laneElems v j))).headD none).getD (Config.openValue 136 0 % 2 ^ 32)

/-- Whether index `i` with value `a` comes before index `j` with value `b`: larger values first, NaN below every
number, the lower index first among equals (R137). -/
def topBefore (i a j b : Nat) : Bool :=
  match fpKey a, fpKey b with
  | some x, some y => decide (y < x) || (decide (x = y) && decide (i < j))
  | some _, none => true
  | none, some _ => false
  | none, none => decide (i < j)

/-- The indices of the k largest values in order (R137); an index beyond the number of values is a free value. -/
def topK (k : Nat) (v : List Nat) : List Nat :=
  let iv := v.zipIdx
  let rank (p : Nat × Nat) : Nat := (iv.filter fun q => topBefore q.2 q.1 p.2 p.1).length
  (List.range k).map fun r => match iv.find? fun p => rank p == r with | some p => p.2 | none => Config.openValue 137 r % 2 ^ 32

end Sys2Proof.Machine
end

