-- ==== Sys2Proof/Machine/CoreOps.lean ====
section
/-!
DEFINITION. What the operations of a core's units do to its hamper, arrays and counters (04_core R125 to R137, R139).
Each function is the data effect of one operation as it starts on its unit.
-/

namespace Sys2Proof.Machine

/-- Hamper words found in error by a read (R139): corrected words are counted and written back, uncorrectable ones
counted, raised and their leg marked suspect; one in the leg's replay input forbids the replay (Table 11-1). -/
def State.hamperErrors (s : State) (site : Nat) (ws : List (Nat × Bool)) : State :=
  ws.foldl (fun s w =>
      if w.2 then
        let inp := match (s.core site).run with
          | some r => meetRanges [(w.1, 1)] (s.runInput site r)
          | none => false
        (((s.count F.CORE_HUECNT 1 site).unitError 1 site (2 ^ causeHamper)).markSuspect site causeHamper inp).raiseRow irqHamper site
      else s.count F.CORE_HCECNT 1 site) s

/-- A read of lines that hold poisoned bytes marks the reading leg suspect (R201). -/
def State.readMarks (s : State) (site a n : Nat) : State :=
  if (linesOf a n).any fun l => SMap.get 0 s.net.badLines (8192 * site + l) = 1 then s.markSuspect site causeData else s

/-- `n` 4-byte words from an address. -/
def State.readWords (s : State) (site a n : Nat) : List Nat :=
  (List.range n).map fun i => leNat (s.hamperRead site (a + 4 * i) 4)

/-- `n` values as FP32 words, widened from BF16 where they are stored so. -/
def State.readFp (s : State) (site a n : Nat) (bf16 : Bool) : List Nat :=
  if bf16 then (List.range n).map fun i => fpOfBf16 (leNat (s.hamperRead site (a + 2 * i) 2)) else s.readWords site a n

/-- FP32 results as bytes, FP32 or rounded to BF16. -/
def fpBytes (bf16 : Bool) (v : List Nat) : Bytes := v.flatMap fun w => if bf16 then toLe 2 (bf16Of w) else toLe 4 w

/-- Counts the NaN results among written values (CORE.NANCNT). -/
def State.countNaN (s : State) (site : Nat) (v : List Nat) : State :=
  s.count F.CORE_NANCNT (v.filter fpIsNaN).length site

/-- Array input load (R125): the buffers hold the vector from now; they are complete when the load ends. -/
def State.opLoad (s : State) (site : Nat) (mask : Nat) (fmt : Fmt) (buf elems scales ref count : Nat) : State :=
  let codes := (nibbles (s.hamperRead site elems (ceilDiv count 2))).take count
  let sc := s.hamperRead site scales (ceilDiv count 32)
  let r := (s.hamperByte site ref).toNat
  let b : InBuf := { full := false, fmt := fmt, elems := codes, offs := sc.map fun k => blockOffset r k.toNat, bref := r,
                     nan := sc.any fun k => k == 0xFF }
  let s := ((s.readMarks site elems (ceilDiv count 2)).readMarks site scales (ceilDiv count 32)).readMarks site ref 1
  (maskArrays mask).foldl (fun s a => let x := s.arr (16 * site + a); s.setArr (16 * site + a) (x.setInBuf buf b)) s

/-- A load ends: its buffers are complete. -/
def State.loadDone (s : State) (site mask buf : Nat) : State :=
  (maskArrays mask).foldl (fun s a =>
      let x := s.arr (16 * site + a)
      s.setArr (16 * site + a) (x.setInBuf buf { x.inBuf buf with full := true })) s

/-- One chain of an accumulation: 512 sums over its arrays in ascending order (R69, R70, R127). -/
def State.chainSums (s : State) (site mask banks : Nat) : List Nat :=
  let ar := maskArrays mask
  (List.range 512).map fun c => accumulateVals (ar.map fun a =>
    let x := s.arr (16 * site + a)
    let b := x.outBank (bitsAt banks a 1)
    columnValue b.fmt b.nan b.bref (x.colScale c) (b.acc.getD c 0))

/-- Core accumulation (R127): each chain's sums to the store and to the hamper, its banks freed. -/
def State.opAccumulate (s : State) (site n : Nat) (bf16 : Bool) (table : Nat) : State :=
  let s := s.readMarks site table (8 * n)
  (s.chainTable site table n).zipIdx.foldl (fun s t =>
      let sums := s.chainSums site t.1.1 t.1.2.1
      let s := (maskArrays t.1.1).foldl (fun s a =>
          let x := s.arr (16 * site + a)
          let b := bitsAt t.1.2.1 a 1
          s.setArr (16 * site + a) (x.setOutBank b { x.outBank b with full := false })) s
      let c := s.core site
      let s := s.setCore site { c with accStore :=
        (sums.zipIdx.foldl (fun m v => SMap.set 0 m ((512 * t.2 + v.2) % 8192) v.1) c.accStore) }
      (s.hamperWrite site t.1.2.2 (fpBytes bf16 sums)).countNaN site sums) s

/-- The counts of quantised blocks (Table 4-2). -/
def State.countBlocks (s : State) (site : Nat) (q : List QBlock) : State :=
  let s := s.count F.CORE_QNANCNT (q.filter (·.nan)).length site
  let s := s.count F.CORE_QRAISECNT (q.filter (·.raised)).length site
  let s := s.count F.CORE_QPEAKCNT (q.filter (·.peaked)).length site
  let s := s.count F.CORE_QLOWCNT (q.filter (·.low)).length site
  s.count F.CORE_QSATCNT (q.foldl (fun t b => t + b.sat) 0) site

/-- Rotation and quantiser (R129, R131, R170): modes 0 to 4 of Table 5-7. -/
def State.opRotq (s : State) (site m mode : Nat) (fmt : Fmt) (inBf16 : Bool) (seed src dst len : Nat) : State :=
  let s := s.readMarks site src ((if inBf16 then 2 else 4) * len)
  let x := s.readFp site src len inBf16
  let y := if mode ≤ 2 then rotateVec m seed x else x
  let c := s.core site
  let s := s.setCore site { c with rotBuf := if mode ≤ 2 then (chunks 4096 y.length y).take 2 else c.rotBuf }
  if mode = 0 then s.hamperWrite site dst (fpBytes false y)
  else
    let bound := mode = 2 || mode = 4
    let segs := if bound then (chunks 1024 y.length y).map (quantSegment fmt)
      else [(0, (chunks 32 y.length y).map (quantFree fmt))]
    let q := segs.flatMap (·.2)
    let out := packNibbles (q.flatMap (·.codes)) ++ q.map (fun b => BitVec.ofNat 8 b.byte)
      ++ (if bound then segs.map (fun g => BitVec.ofNat 8 g.1) else [])
    (s.hamperWrite site dst out).countBlocks site q

/-- A row of an engine operand: the codes of its elements by block with the block's scale (R133, R170). -/
def State.engineRow (s : State) (site base rows r k32 : Nat) : List (List Nat × Nat) :=
  (List.range k32).map fun j =>
    (nibbles (s.hamperRead site (base + r * (16 * k32) + 16 * j) 16),
     (s.hamperByte site (base + rows * (16 * k32) + r * k32 + j)).toNat)

/-- One output of the engine (R71 to R73). -/
def engineOut (fx fy : Fmt) (int32 : Bool) (start : Nat) (x y : List (List Nat × Nat)) : Nat :=
  let b := List.zipWith (fun p q => (blockDot fx fy p.1 q.1, p.2, q.2)) x y
  if int32 then engineInt (b.map (·.1)) else engineFp fx fy start b

/-- The digital product engine (R133): Z = X·Yᵀ, row-major. -/
def State.opMatmul (s : State) (site x y z m n k32 flags : Nat) : State :=
  let fx := if bitsAt flags 0 1 = 1 then Fmt.fp4 else Fmt.int4
  let fy := if bitsAt flags 1 1 = 1 then Fmt.fp4 else Fmt.int4
  let int32 := bitsAt flags 2 1 == 1
  let bf16 := bitsAt flags 3 1 == 1 && !int32
  let add := bitsAt flags 4 1 == 1
  let s := (s.readMarks site x (m * 17 * k32)).readMarks site y (n * 17 * k32)
  let ys := (List.range n).map fun c => s.engineRow site y n c k32
  let out := (List.range m).flatMap fun r =>
    let xr := s.engineRow site x m r k32
    ys.zipIdx.map fun yc =>
      engineOut fx fy int32 (if add then fpIn (leNat (s.hamperRead site (z + 4 * (r * n + yc.2)) 4)) else 0) xr yc.1
  let s := if int32 then s else s.countNaN site out
  s.hamperWrite site z (fpBytes bf16 out)

/-- The element-wise result of a vector operation on FP32 operands; `c` is the addend at the destination. -/
def vecElem (op : VecOp) (a b c : Nat) : Nat :=
  match op with
  | .add => fpAdd a b
  | .sub => fpSub a b
  | .mul => fpMul a b
  | .fma => fpFma a b c
  | .min => vecMin a b
  | .max => vecMax a b
  | .recip => vecRecip a
  | .rsqrt => vecRsqrt a
  | .exp2 => vecExp2 a
  | .log2 => vecLog2 a
  | _ => fpIn a

/-- The signed integer of an INT32 word as FP32. -/
def fpOfInt32 (w : Nat) : Nat := fpOfInt (toSigned 32 w)

/-- The values a vector operation writes, as FP32 words: element-wise operations, scaling, selection and conversion
(R135). -/
def State.vecOut (s : State) (site : Nat) (op : VecOp) (flags a b dst len : Nat) : List Nat :=
  let dBf := bitsAt flags 0 1 == 1
  let sBf := bitsAt flags 1 1 == 1
  let xs := s.readFp site a len sBf
  match op with
  | .scale => xs.zipIdx.map fun p => vecScale p.1 (s.hamperByte site (b + p.2 / 32)).toNat
  | .select =>
    let ys := s.readFp site b len sBf
    (xs.zip ys).zipIdx.map fun p => if s.hamperByte site (dst + p.2) = 0 then fpIn p.1.2 else fpIn p.1.1
  | .convert => if !dBf && !sBf then (s.readWords site a len).map fpOfInt32 else xs.map fpIn
  | .add | .sub | .mul | .min | .max => List.zipWith (fun x y => vecElem op x y 0) xs (s.readFp site b len sBf)
  | .fma => List.zipWith (fun (p : Nat × Nat) z => fpFma p.1 p.2 z) (xs.zip (s.readFp site b len sBf)) (s.readFp site dst len dBf)
  | .sum => [vecReduce fpAdd xs]
  | .maxRed => [vecReduce vecMax xs]
  | _ => xs.map fun x => vecElem op x 0 0

/-- The bytes a vector operation writes: a byte mask, INT32 indices, or FP32 or BF16 values. -/
def State.vecBytes (s : State) (site : Nat) (op : VecOp) (flags k a b dst len : Nat) : Bytes :=
  let sBf := bitsAt flags 1 1 == 1
  match op with
  | .cmp => List.zipWith (fun x y => maskOf (vecCmp x y)) (s.readFp site a len sBf) (s.readFp site b len sBf)
  | .topK => (topK k (s.readFp site a len sBf)).flatMap (toLe 4)
  | _ => fpBytes (bitsAt flags 0 1 == 1) (s.vecOut site op flags a b dst len)

/-- A vector operation (R135 to R137): its narrow writes go through the gather buffer (R142). -/
def State.opVec (s : State) (site : Nat) (op : VecOp) (flags k a b dst len : Nat) : State :=
  let w := if bitsAt flags 1 1 = 1 then 2 else 4
  let s := s.readMarks site a (w * len)
  let s := match op with
    | .scale => s.readMarks site b (ceilDiv len 32)
    | .add | .sub | .mul | .fma | .min | .max | .cmp | .select => s.readMarks site b (w * len)
    | _ => s
  let out := s.vecBytes site op flags k a b dst len
  let s := match op with
    | .cmp | .topK => s
    | _ => s.countNaN site (s.vecOut site op flags a b dst len)
  s.gatherWrite site dst out

end Sys2Proof.Machine
end

