-- ==== Sys2Proof/Machine/Net.lean ====
section
/-!
DEFINITION. The networks, pitches and stacked memory as operations use them (06_network_and_memory R198 to R218), and
the sending operations of a core.
-/

namespace Sys2Proof.Machine

/-! Pitches (R204). -/

/-- Whether the current copy of a pitch is enabled. -/
def State.pitchOn (s : State) (p : Nat) : Bool := s.flag F.NET_PITCH_RECT_ENABLE p

/-- Whether a logical core lies in the rectangle of the copy `view` of pitch `p`. -/
def State.inRect (s : State) (view p core : Nat) : Bool :=
  let i := 16 * view + p
  let l := core / 40
  let c := core % 40
  decide (s.fld F.NET_PITCH_RECT_R0 i ≤ l) && decide (l ≤ s.fld F.NET_PITCH_RECT_R1 i)
    && decide (s.fld F.NET_PITCH_RECT_C0 i ≤ c) && decide (c ≤ s.fld F.NET_PITCH_RECT_C1 i)

/-- The pitch of a logical core: the enabled pitch whose rectangle holds it. -/
def State.corePitch (s : State) (core : Nat) : Option Nat :=
  (List.range 16).find? fun p => s.pitchOn p && s.inRect 0 p core

/-- Whether channel `k` stands in the copy `view` of pitch `p`. -/
def State.chBit (s : State) (view p k : Nat) : Bool :=
  bitsAt (s.fld F.NET_PITCH_CH_CH (10 * (16 * view + p) + k / 32)) (k % 32) 1 == 1

/-- The channels of a pitch, ascending. -/
def State.pitchChans (s : State) (p : Nat) : List Nat := (List.range 320).filter (s.chBit 0 p)

/-- Whether port `n` belongs to an enabled pitch `p`. -/
def State.pitchPort (s : State) (p n : Nat) : Bool := s.pitchOn p && bitsAt (s.fld F.NET_PITCH_PORTS_PORTS p) n 1 == 1

/-! Stacked memory (R209, R210). -/

/-- The stack that holds the reserved region: the lowest-numbered one not excluded. -/
def State.reservedStack (s : State) : Option Nat := (List.range 10).find? fun k => !s.flag F.MEM_STATUS_EXCLUDED k

/-- The usable granules of a channel. -/
def State.usable (s : State) (ch : Nat) : Nat := if s.reservedStack = some (ch / 32) then 487257 else 488281

/-- The granules of a pitch: n·u. -/
def State.pitchGranules (s : State) (p : Nat) : Nat :=
  let ks := s.pitchChans p
  ks.length * (ks.foldl (fun m k => min m (s.usable k)) 488281)

/-- The pages of a pitch. -/
def State.pitchPages (s : State) (p : Nat) : Nat := s.pitchGranules p / 32

/-- The channel and channel offset of a pitch address (R209). -/
def State.pitchPlace (s : State) (p a : Nat) : Nat × Nat :=
  let ks := s.pitchChans p
  let g := a / 2048
  (ks.getD (g % max 1 ks.length) 0, 2048 * (g / max 1 ks.length) + a % 2048)

/-- The place of a pitch address in `dram`. -/
def State.dramAt (s : State) (p a : Nat) : Nat := let q := s.pitchPlace p a; 1000000000 * q.1 + q.2

/-- Whether a pitch address exists. -/
def State.pitchHas (s : State) (p a : Nat) : Bool := decide (a / 2048 < s.pitchGranules p)

/-- `n` bytes of a pitch's memory. -/
def State.pitchRead (s : State) (p a n : Nat) : Bytes :=
  (List.range n).map fun i => if s.pitchHas p (a + i) then Memory.byte s.dram (s.dramAt p (a + i)) else 0

/-- Writes bytes to a pitch's memory. -/
def State.pitchWrite (s : State) (p a : Nat) (bs : Bytes) : State :=
  { s with dram := bs.zipIdx.foldl (fun m b =>
      if s.pitchHas p (a + b.2) then SMap.set (0 : Byte) m (s.dramAt p (a + b.2)) b.1 else m) s.dram }

/-! Key/value tables (R218, Table 6-3). -/

/-- The base address of a pitch's tables. -/
def State.kvBase (s : State) (p : Nat) : Nat := 65536 * s.fld F.NET_PITCH_KVBASE_PAGE p

/-- A slot's binding: its context, if BOUND. -/
def State.binding (s : State) (p slot : Nat) : Option Nat :=
  let v := leNat (s.pitchRead p (s.kvBase p + 4 * slot) 4)
  if v / 2 ^ 31 = 1 then some (v % 2 ^ 20) else none

/-- Writes a slot's binding. -/
def State.setBinding (s : State) (p slot : Nat) (ctx : Option Nat) : State :=
  s.pitchWrite p (s.kvBase p + 4 * slot) (toLe 4 (match ctx with | some c => 2 ^ 31 + c % 2 ^ 20 | none => 0))

/-- The address of a context record. -/
def State.ctxAt (s : State) (p ctx : Nat) : Nat := s.kvBase p + 262144 + 16 * ctx

/-- The committed length of a context. -/
def State.committed (s : State) (p ctx : Nat) : Nat := leNat (s.pitchRead p (s.ctxAt p ctx) 4) % 2 ^ 25

/-- Its TAILSEL. -/
def State.tailSel (s : State) (p ctx : Nat) : Nat := leNat (s.pitchRead p (s.ctxAt p ctx) 4) / 2 ^ 31

/-- Its provisional length. -/
def State.provisional (s : State) (p ctx : Nat) : Nat := leNat (s.pitchRead p (s.ctxAt p ctx + 4) 4)

/-- Sets the committed length with TAILSEL. -/
def State.setCommitted (s : State) (p ctx len sel : Nat) : State :=
  s.pitchWrite p (s.ctxAt p ctx) (toLe 4 (len % 2 ^ 25 + 2 ^ 31 * sel))

/-- Sets the provisional length. -/
def State.setProvisional (s : State) (p ctx len : Nat) : State := s.pitchWrite p (s.ctxAt p ctx + 4) (toLe 4 len)

/-- The stream directory of a context. -/
def State.dirAt (s : State) (p ctx : Nat) : Nat := leNat (s.pitchRead p (s.ctxAt p ctx + 8) 8)

/-- Entry `i` of a stream's page list. -/
def State.pageEntry (s : State) (p ctx stream i : Nat) : Nat :=
  leNat (s.pitchRead p (leNat (s.pitchRead p (s.dirAt p ctx + 16 * stream) 8) + 4 * i) 4)

/-- The first page of a tail extent. -/
def State.tailPage (s : State) (p ctx stream sel : Nat) : Nat :=
  leNat (s.pitchRead p (s.dirAt p ctx + 16 * stream + 8 + 4 * sel) 4)

/-- The reference count of a page. -/
def State.pageCount (s : State) (p page : Nat) : Nat := leNat (s.pitchRead p (s.kvBase p + 17039360 + 2 * page) 2)

/-- Sets the reference count of a page. -/
def State.setPageCount (s : State) (p page n : Nat) : State := s.pitchWrite p (s.kvBase p + 17039360 + 2 * page) (toLe 2 n)

/-! Streams (R212 to R216). -/

/-- No page. -/
def noPage : Nat := 0xFFFFFFFF

/-- The groups a page holds. -/
def groupsPerPage (e : Nat) : Nat := 65536 / (17 * e)

/-- The STREAMS record of a stream. -/
def State.streamRec (s : State) (n : Nat) : Option StreamRec :=
  s.frame.active.bind fun it => it.streams.find? fun r => r.stream == n

/-- The page that holds group `j` of a stream, and the group's offset in it. -/
def State.groupPage (s : State) (p ctx stream e j : Nat) : Nat × Nat :=
  (s.pageEntry p ctx stream (j / groupsPerPage e), 17 * e * (j % groupsPerPage e))

/-- `n` bytes at offset `o` of group `j`; zeros where the list names no page. -/
def State.groupRead (s : State) (p ctx stream e j o n : Nat) : Bytes :=
  let g := s.groupPage p ctx stream e j
  if g.1 = noPage then List.replicate n 0 else s.pitchRead p (65536 * g.1 + g.2 + o) n

/-- The pitch, slot and context that a token word of a leg stands for in this frame: none for an idle slot (R269). -/
def State.hdrSlot (s : State) (core : Nat) (h : LegHdr) (token : Nat) : Option (Nat × Nat × Nat) :=
  match s.corePitch core with
  | some p =>
    let slot := h.firstSlot + bitsAt token 24 7
    (s.binding p slot).map fun c => (p, slot, c)
  | none => none

/-- The same of the leg a core runs. -/
def State.legSlot (s : State) (site token : Nat) : Option (Nat × Nat × Nat) :=
  match (s.core site).run, s.siteCore site with
  | some r, some core => s.hdrSlot core r.leg.hdr token
  | _, _ => none

/-- What a key read delivers (R215). -/
def State.readKeys (s : State) (b : Option (Nat × Nat)) (prov : Nat) (r : StreamRec) (first t : Nat) : Bytes :=
  let e := rowWidth r.bpt
  let tok (o n : Nat) (i : Nat) : Bytes :=
    match b with
    | some (p, c) =>
      if first + i < prov then s.groupRead p c r.stream e ((first + i) / 32) (o + (first + i) % 32 * n) n else List.replicate n 0
    | none => List.replicate n 0
  (List.range t).flatMap (tok 0 (e / 2)) ++ (List.range t).flatMap (tok (16 * e) (e / 32))

/-- Whether group `j` of a value stream stands whole in its page (R213, R216): all its tokens lie below the provisional length, and
it does not hold the committed length within it, whose group stays in the tail extent until its last token commits. -/
def groupWhole (com prov j : Nat) : Bool := decide (32 * (j + 1) ≤ prov) && (decide (32 * (j + 1) ≤ com) || decide (com ≤ 32 * j))

/-- What a value read delivers (R215): an incomplete group's elements and scales are zero; with TAIL the extent of the first
incomplete group of the range follows. -/
def State.readValues (s : State) (b : Option (Nat × Nat)) (com prov : Nat) (r : StreamRec) (first t : Nat) (tail : Bool) : Bytes :=
  let e := rowWidth r.bpt
  let g0 := first / 32
  let n := t / 32
  let grp (o len : Nat) (j : Nat) : Bytes :=
    match b with
    | some (p, c) => if groupWhole com prov (g0 + j) then s.groupRead p c r.stream e (g0 + j) o len else List.replicate len 0
    | none => List.replicate len 0
  let body := (List.range e).flatMap (fun d => (List.range n).flatMap (grp (16 * d) 16))
    ++ (List.range e).flatMap (fun d => (List.range n).flatMap (grp (16 * e + d) 1))
  if tail then
    body ++ (match b with
      | some (p, c) =>
        let open' := g0 + (((List.range n).find? fun j => !groupWhole com prov (g0 + j)).getD 0)
        let sel := if com / 32 < open' then 1 - s.tailSel p c else s.tailSel p c
        let pg := s.tailPage p c r.stream sel
        if pg = noPage then List.replicate (64 * e) 0 else s.pitchRead p (65536 * pg) (64 * e)
      | none => List.replicate (64 * e) 0)
  else body

/-- An uncorrectable beat met by a read (R208, R352): counted, its address held, its page lost. -/
def State.badBeat (s : State) (p a : Nat) : State :=
  let q := s.pitchPlace p a
  let st := q.1 / 32
  let s := ((s.count F.MEM_UECNT 1 st).unitError 4 st 0).setFld F.MEM_LASTERR_CH (q.1 % 32) st
  let s := (s.setFld F.MEM_LASTERR_GRANULE (q.2 / 2048) st).setFld F.MEM_LASTERR_BEAT (q.2 % 2048 / 32) st
  let s := s.raiseBoth (irqStack + st)
  if s.net.lostPages.contains (p, a / 65536) then s
  else { s with net := { s.net with lostPages := s.net.lostPages ++ [(p, a / 65536)] } }

/-- A corrected beat met by a read (R208). -/
def State.goodBeat (s : State) (p a : Nat) : State := s.count F.MEM_CECNT 1 ((s.pitchPlace p a).1 / 32)

/-- Adds a transfer on its way. -/
def State.launch (s : State) (t : Transfer) : State := { s with net := { s.net with transfers := s.net.transfers ++ [t] } }

/-- Counts flits sent again and flits that arrive poisoned (R201). -/
def State.flits (s : State) (e : OpEnv) : State :=
  (s.count F.NET_RETRYCNT (e.resent + e.poisoned)).count F.NET_POISONCNT e.poisoned

/-- The payload of a SEND on its way (R198, R205). -/
def State.sendBytes (s : State) (site dest : Nat) (ctr : Option Nat) (dst : Nat) (data : Bytes) (bad : Bool) : State :=
  let p := (s.siteCore site).bind s.corePitch
  if s.corePitch dest = p && p.isSome then
    s.launch { core := dest, pitch := p.getD 0, addr := dst, data := data, ctr := ctr, frame := s.frame.number, bad := bad,
               memRead := false }
  else s.count F.NET_XPITCHCNT (ceilDiv data.length 64)

/-- SEND (R198, R206): the bytes leave the hamper; a destination of another pitch drops them. -/
def State.opSend (s : State) (site : Nat) (e : OpEnv) (dest : Nat) (ctr : Option Nat) (src dst bytes : Nat) : State :=
  let s := (s.readMarks site src bytes).flits e
  s.sendBytes site dest ctr dst (s.hamperRead site src bytes) (decide (0 < e.poisoned))

/-- What a MEM_READ of a slot delivers (R214, R215): the tokens below the provisional length, then the count word. -/
def State.readData (s : State) (b : Option (Nat × Nat × Nat)) (r : StreamRec) (bytes token : Nat) : Bytes :=
  let first := token % 2 ^ 24
  let t := bytes / max 1 r.bpt
  let tail := bitsAt token 31 1 == 1
  let ctx := b.map fun q => (q.1, q.2.2)
  let prov := match ctx with | some (p, c) => s.provisional p c | none => 0
  let com := match ctx with | some (p, c) => s.committed p c | none => 0
  (if r.kv = 0 then s.readKeys ctx prov r first t else s.readValues ctx com prov r first t tail) ++ toLe 4 (min (first + t) prov - first)

/-- MEM_READ (R214, R215). -/
def State.opMemRead (s : State) (site : Nat) (e : OpEnv) (stream addr bytes token : Nat) : State :=
  match s.streamRec stream with
  | none => s
  | some r =>
    let b := s.legSlot site token
    let data := s.readData b r bytes token
    let s := match b with
      | some (p, _, _) =>
        let s := e.beats.foldl (fun (s : State) (b : Nat × Bool) => if b.2 then s.badBeat p b.1 else s.goodBeat p b.1) s
        if e.beats.any (·.2) then s.markSuspect site causeData true else s
      | none => s
    let s := s.flits e
    s.launch { core := (s.siteCore site).getD 0, pitch := ((s.siteCore site).bind s.corePitch).getD 0, addr := addr,
               data := data, ctr := none, frame := s.frame.number, bad := decide (0 < e.poisoned), memRead := true }

/-- A write refused under R216 or R217: counted in the stack of the pitch's first channel, the leg suspect. -/
def State.kvRefused (s : State) (site p : Nat) : State :=
  (s.count F.MEM_KVERRCNT 1 ((s.pitchChans p).headD 0 / 32)).markSuspect site causeData true

/-- The pages a write touches: list pages of its groups, or the tail extent's. -/
def State.writePages (s : State) (p c : Nat) (r : StreamRec) (first t : Nat) (tail : Bool) : List Nat :=
  let e := rowWidth r.bpt
  if tail then
    let com := s.committed p c
    let sel := if first / 32 = com / 32 then s.tailSel p c else 1 - s.tailSel p c
    let pg := s.tailPage p c r.stream sel
    if pg = noPage then [noPage] else (List.range (ceilDiv e 1024)).map (pg + ·)
  else (List.range t).map fun i => s.pageEntry p c r.stream ((first + i) / 32 / groupsPerPage e)

/-- Whether a write keeps the length rule of R216. -/
def lengthRule (com prov first t : Nat) (wholeValue : Bool) : Bool :=
  (decide (com ≤ first) && decide (first ≤ prov))
    || (wholeValue && decide (t = 32) && decide (first < com) && decide (com ≤ first + 31) && decide (first + 31 ≤ prov))

/-- The bytes of a write put in their places (R213, R214, Table 6-2). -/
def State.kvStore (s : State) (p c : Nat) (r : StreamRec) (first t : Nat) (tail : Bool) (src : Bytes) : State :=
  let e := rowWidth r.bpt
  let place (s : State) (j o : Nat) (bs : Bytes) : State :=
    let g := s.groupPage p c r.stream e j
    s.pitchWrite p (65536 * g.1 + g.2 + o) bs
  if tail then
    let com := s.committed p c
    let sel := if first / 32 = com / 32 then s.tailSel p c else 1 - s.tailSel p c
    let pg := s.tailPage p c r.stream sel
    (List.range t).foldl (fun s i => (List.range e).foldl (fun s d =>
        s.pitchWrite p (65536 * pg + 64 * d + 2 * ((first + i) % 32)) (slice src (2 * e * i + 2 * d) 2)) s) s
  else if r.kv = 0 then
    (List.range t).foldl (fun s i =>
        let j := (first + i) / 32
        let k := (first + i) % 32
        place (place s j (k * (e / 2)) (slice src (i * (e / 2)) (e / 2))) j (16 * e + k * (e / 32))
          (slice src (t * (e / 2) + i * (e / 32)) (e / 32))) s
  else
    let n := t / 32
    (List.range n).foldl (fun s g => (List.range e).foldl (fun s d =>
        place (place s (first / 32 + g) (16 * d) (slice src (d * (16 * n) + 16 * g) 16)) (first / 32 + g) (16 * e + d)
          (slice src (e * 16 * n + d * n + g) 1)) s) s

/-- Key/value tokens of a slot written provisionally (R214, R216, R217). -/
def State.writeTokens (s : State) (site : Nat) (slot : Option (Nat × Nat × Nat)) (r : StreamRec) (token : Nat) (data : Bytes) : State :=
  let e := rowWidth r.bpt
  let first := token % 2 ^ 24
  let tail := bitsAt token 31 1 == 1
  let t := if tail then data.length / max 1 (2 * e) else data.length / max 1 r.bpt
  match slot with
  | none => s
  | some (p, _, c) =>
    let prov := s.provisional p c
    let pages := s.writePages p c r first t tail
    if !lengthRule (s.committed p c) prov first t (r.kv = 1 && !tail) then s.kvRefused site p
    else if pages.any fun g => g == noPage || decide (1 < s.pageCount p g) then s.kvRefused site p
    else
      let s := s.kvStore p c r first t tail data
      if prov < first + t then s.setProvisional p c (first + t) else s

/-- MEM_WRITE (R214, R216, R217, R269): provisional, discarded for an idle slot. -/
def State.opMemWrite (s : State) (site : Nat) (stream addr bytes token : Nat) : State :=
  match s.streamRec stream with
  | none => s
  | some r =>
    let s := s.readMarks site addr bytes
    s.writeTokens site (s.legSlot site token) r token (s.hamperRead site addr bytes)

/-- Whether the partner of a port pauses a class (R386), or frames of it wait there still. -/
def State.txPaused (s : State) (port cls : Nat) : Bool :=
  decide (s.now < SMap.get 0 (SMap.get .init s.fab.ports port).txUntil cls)
    || s.net.portHeld.any fun d => d.port == port && d.cls == cls

/-- The payload of a PORT_SEND (R198, R206, R309): leg data to a port of the pitch, or tokens to the host-port engine. -/
def State.portBytes (s : State) (site port cls part dest : Nat) (ctr : Option Nat) (dst : Nat) (data : Bytes) (bad : Bool) : State :=
  let p := (s.siteCore site).bind s.corePitch
  if port = 32 then
    let toks := (List.range (data.length / 8)).map fun i => (dest + i, (fieldAt data (8 * i) 4, fieldAt data (8 * i + 4) 4))
    let keep := toks.filter fun t => match p with | some q => (s.binding q t.1).isSome | none => false
    { s with net := { s.net with exitTokens := keep.foldl (fun m t => SMap.put m t.1 t.2) s.net.exitTokens } }
  else
    match p with
    | some q =>
      if s.pitchPort q port && (!s.flag F.PRT_STATUS_UP port || s.fld F.PRT_PARTNUM_PART = 0xFFFF) then s
      else if s.pitchPort q port then
        let d : LegData := { port := port, cls := cls, part := part, core := dest, ctr := ctr, addr := dst, data := data,
                             frame := s.frame.number, pitch := q, poisoned := bad }
        if s.txPaused port cls then { s with net := { s.net with portHeld := s.net.portHeld ++ [d] } }
        else { s with net := { s.net with portOut := s.net.portOut ++ [d] } }
      else s.count F.NET_XPITCHCNT (ceilDiv data.length 64)
    | none => s.count F.NET_XPITCHCNT (ceilDiv data.length 64)

/-- PORT_SEND. -/
def State.opPortSend (s : State) (site : Nat) (e : OpEnv) (port cls part dest : Nat) (ctr : Option Nat)
    (src dst bytes : Nat) : State :=
  let s := (s.readMarks site src bytes).flits e
  s.portBytes site port cls part dest ctr dst (s.hamperRead site src bytes) (e.words.any (·.2))

/-- A barrier arrival (R203): the first fixes the count, the last completes the instance and increments every
participant's counter. -/
def State.opBarrier (s : State) (site : Nat) (h : OpHdr) (id n : Nat) : State :=
  let core := (s.siteCore site).getD 0
  let p := (s.corePitch core).getD 0
  let me := (core, h.incCtr, h.inc)
  match s.net.barriers.find? fun b => b.pitch == p && b.id == id with
  | none =>
    { s with net := { s.net with barriers := s.net.barriers ++ [⟨p, id, n, [me]⟩] } }
  | some b =>
    let s := if b.count != n then s.count F.NET_BARERRCNT else s
    let rest := s.net.barriers.filter fun x => !(x.pitch == p && x.id == id)
    let arr := b.arrivals ++ [me]
    if arr.length < b.count then { s with net := { s.net with barriers := rest ++ [{ b with arrivals := arr }] } }
    else
      let s := { s with net := { s.net with barriers := rest } }
      arr.foldl (fun s a =>
          match s.coreSite a.1, a.2.1 with
          | some st, some k => s.ctrInc st k a.2.2
          | _, _ => s) s

/-- The bytes of a transfer reach the hamper (R142, R144, R201): written through the gather buffer, its entries
written out; a core that is being cleared takes none (R161). -/
def State.deliver (s : State) (site addr : Nat) (data : Bytes) (bad : Bool) : State :=
  let s := s.gatherWrite site addr data
  let ls := linesOf addr data.length
  let s := s.flushGather site fun e => ls.contains e.line
  if bad then { s with net := { s.net with badLines := ls.foldl (fun m l => SMap.set 0 m (8192 * site + l) 1) s.net.badLines } }
  else s

end Sys2Proof.Machine
end

