-- ==== Sys2Proof/Machine/Audit.lean ====
section
/-!
DEFINITION. Roles of functions, the audit log (15_update_and_roles R485 to R493) and the UTC clock.
-/

namespace Sys2Proof.Machine

/-- Rank of the operator role. -/
def roleOpr : Nat := 1
/-- Rank of the installer role. -/
def roleIns : Nat := 2
/-- Rank of the maker role. -/
def roleMkr : Nat := 3

/-- The role a function holds: 0 none, 1 operator, 2 installer, 3 maker. -/
def State.roleOf (s : State) (fn : Nat) : Nat := s.fld F.SEC_FN_ROLE_ROLE fn

/-- Whether the installer lock is set (R489). -/
def State.locked (s : State) : Bool := s.flag F.SEC_LOCK_LOCKED

/-- What a function holds toward a role. -/
def State.fnSec (s : State) (fn : Nat) : FnSec := SMap.get .init s.sec.fns fn

/-- Sets it. -/
def State.setFnSec (s : State) (fn : Nat) (v : FnSec) : State :=
  { s with sec := { s.sec with fns := SMap.set .init s.sec.fns fn v } }

/-- The UTC clock in nanoseconds, if it is known (R315). -/
def State.utcNs (s : State) : Option Nat := s.host.utc.map fun u => u.1 + (s.now - u.2)

/-- UTC seconds, 0 when unknown. -/
def State.utcSec (s : State) : Nat := match s.utcNs with | some n => n / 1000000000 | none => 0

/-- The table of keys of a role. -/
def State.keyTable (s : State) (role : Nat) : SMap KeyRec := if role = 1 then s.sec.opKeys else if role = 2 then s.sec.insKeys else []

/-- Bytes 0 to 7 of the SHA-384 of a key. -/
def fingerprint (key : Bytes) : Nat := leNat ((sha384 key).take 8)

/-- The fingerprint of the key that authenticated a function's role; 0 for none (Table 15-6). -/
def State.roleFp (s : State) (fn : Nat) : Nat :=
  let f := s.fnSec fn
  if s.roleOf fn = 0 then 0
  else if f.table = 3 then fingerprint (Config.makerKey f.key)
  else match SMap.find? (s.keyTable f.table) f.key with
    | some k => fingerprint k.key
    | none => 0

/-- An audit entry as it is made now. -/
def State.auditEntry (s : State) (fn action result code target : Nat) (detail : Bytes := []) : AuditEntry :=
  { frame := if s.frame.st = .running then s.frame.number else 0, utc := s.utcSec, fingerprint := s.roleFp fn,
    action := action, fn := fn, role := s.roleOf fn, result := result, code := code, count := 1, target := target,
    detail := detail, made := s.now, read := false }

/-- Whether a new entry merges into the newest waiting one (R493). -/
def AuditEntry.merges (old e : AuditEntry) : Bool :=
  old.fn == e.fn && old.action == e.action && old.target == e.target && old.role == e.role && old.result == e.result
    && old.code == e.code && e.result != 3 && decide (e.made ≤ old.made + 1000000000)

/-- The waiting entries with one more (R493): merged into the newest, or, with 1,024 waiting, into the overflow entry
of its second. -/
def auditPush (w : List AuditEntry) (e : AuditEntry) : List AuditEntry :=
  match w.getLast? with
  | some old =>
    if old.merges e then w.dropLast ++ [{ old with count := min (old.count + 1) 65535 }]
    else if w.length < 1024 then w ++ [e]
    else if old.action = 0xFFFE && decide (e.made < old.made + 1000000000) then
      w.dropLast ++ [{ old with count := min (old.count + 1) 65535 }]
    else w ++ [{ e with action := 0xFFFE }]
  | none => [e]

/-- Records an audit entry, which waits for the vault (R492). -/
def State.audit (s : State) (fn action result code target : Nat) (detail : Bytes := []) : State :=
  { s with sec := { s.sec with waiting := auditPush s.sec.waiting (s.auditEntry fn action result code target detail) } }

/-- Atomic record writes (R469): each is counted. -/
def State.recordWrites (s : State) (n : Nat := 1) : State := s.count F.VLT_RECWRCNT n

/-- Writes an audit entry to the vault (R491, R493): it takes the next SEQ, over the oldest of 32,768. -/
def State.auditWrite (s : State) (e : AuditEntry) : State :=
  let n := s.sec.nextSeq
  let lost := match SMap.find? s.sec.log (n - 32768) with
    | some o => decide (32768 ≤ n) && !o.read
    | none => false
  let log := if 32768 ≤ n then SMap.drop s.sec.log (n - 32768) else s.sec.log
  let s := { s with sec := { s.sec with log := SMap.put log n e, nextSeq := n + 1 } }
  let s := if lost then s.count F.VLT_AUDITOVFCNT else s
  (s.setFld F.VLT_AUDIT_SEQ_LO_SEQ (n + 1)).recordWrites

/-- The pending entry of a command that changes vault state, in the vault before the command acts (R492, R493): its
SEQ with the state. -/
def State.auditPending (s : State) (fn action target : Nat) (detail : Bytes := []) : Nat × State :=
  (s.sec.nextSeq, s.auditWrite (s.auditEntry fn action 3 0 target detail))

/-- A pending entry is rewritten with its command's outcome (R492). -/
def State.auditDone (s : State) (seq result code : Nat) : State :=
  let log := s.sec.log.map fun e => if e.1 = seq then (e.1, { e.2 with result := result, code := code }) else e
  ({ s with sec := { s.sec with log := log } }).recordWrites

/-- A role ends otherwise than by ROLE_RELEASE (R488), with its cause. -/
def State.endRole (s : State) (fn cause : Nat) : State :=
  if s.roleOf fn = 0 then s
  else
    let s := s.audit fn 0xFFFC 0 cause 0
    ((s.setFld F.SEC_FN_ROLE_ROLE 0 fn).setFld F.SEC_FN_ROLE_KEY 0 fn).setFnSec fn { s.fnSec fn with table := 0, key := 0 }

end Sys2Proof.Machine
end

