-- ==== Sys2Proof/Machine/RegAccess.lean ====
section
/-!
DEFINITION. Reads and writes of registers by the four access paths (16_register_map R499 to R512; 00_scope R16 to R20).
-/

namespace Sys2Proof.Machine

/-! Finding a register. -/

/-- Blocks with their base, instances, stride and size (Table 16-1), CORE, TST, ARR and PRT apart. -/
def smallBlocks : List (Block × Nat × Nat × Nat × Nat) := [
  (.glb, 0x0, 1, 0x100, 0x100), (.net, 0x1000, 1, 0x100, 0x100), (.mem, 0x2000, 10, 0x100, 0x100),
  (.hif, 0x3000, 1, 0x1000, 0x1000), (.rgr, 0x4000, 2, 0x100, 0x100), (.met, 0x5000, 1, 0x100, 0x100),
  (.thm, 0x5100, 1, 0x100, 0x100), (.pwr, 0x6000, 1, 0x100, 0x100), (.clk, 0x6100, 1, 0x100, 0x100),
  (.vlt, 0x7000, 1, 0x100, 0x100), (.sec, 0x7100, 1, 0x100, 0x100), (.upd, 0x7200, 1, 0x100, 0x100),
  (.intc, 0x8000, 2, 0x1000, 0x1000)]

/-- The block, instance and offset of a BAR0 offset (decode of chapter 16); an array's instance is 16·site + array. -/
def decodeReg (off : Nat) : Option (Block × Nat × Nat) :=
  if 0x1000000 ≤ off && decide (off < 0x1A00000) then
    let s := (off - 0x1000000) / 0x2000
    let r := off % 0x2000
    if 0x1000 ≤ r then some (.arrSite, s, r - 0x1000) else some (.arr, 16 * s + r / 0x100, r % 0x100)
  else if 0x180000 ≤ off && decide (off < 0x1D0000) then some (.tst, (off - 0x180000) / 0x100, off % 0x100)
  else if 0x100000 ≤ off && decide (off < 0x150000) then some (.core, (off - 0x100000) / 0x100, off % 0x100)
  else if 0x10000 ≤ off && decide (off < 0x14000) then
    let r := off - 0x10000
    if r < 0x2000 then some (.prt, r / 0x100, r % 0x100) else some (.prt, 0, r)
  else
    (smallBlocks.find? fun b => decide (b.2.1 ≤ off) && decide (off < b.2.1 + b.2.2.1 * b.2.2.2.1)).map fun b =>
      (b.1, (off - b.2.1) / b.2.2.2.1, (off - b.2.1) % b.2.2.2.1)

/-- The same of an offset in a virtual function's view (Table 16-3). -/
def decodeVf (off : Nat) : Option (Block × Nat × Nat) :=
  let o := off % 0x1000
  if off < 0x1000 then if o = 0x18 || o = 0x1C || (0x40 ≤ o && o ≤ 0x64) then some (.hif, 0, o) else none
  else if off < 0x2000 then
    if o = 0x4 || o = 0x8 || o = 0xC || o = 0x10 || (0x20 ≤ o && o ≤ 0x44) then some (.net, 0, o) else none
  else if off < 0x3000 then if o = 0x8 then some (.sec, 0, o) else none
  else if off < 0x4000 then if o < 0x100 then some (.glb, 0, o) else none
  else none

/-- The register a path names by an address: block, instance, its table row and its index in that row.  Addresses not
aligned, or that hold no register, name none (R500). -/
def findReg (p : Path) (addr : Nat) : Option (Block × Nat × RegInfo × Nat) :=
  if addr % 4 ≠ 0 then none
  else
    let d := match p with
      | .host (_ + 1) => decodeVf addr
      | _ => decodeReg addr
    d.bind fun (b, i, o) =>
      (b.regs.find? fun r => decide (r.off ≤ o) && decide ((o - r.off) / r.stride < r.count) && (o - r.off) % r.stride == 0).map
        fun r => (b, i, r, (o - r.off) / r.stride)

/-- The number of a path's own copy of selectors and latches: 0 for the host functions together and the physical
function, a virtual function's number, 17 for SMBus, 18 for firmware (Table 16-5). -/
def pathCopy (p : Path) (perVf : Bool) : Nat :=
  match p with
  | .host f => if perVf then f else 0
  | .smbus => 17
  | .firmware => 18

/-- The queue that a function's local index selects (R319): the enabled one, otherwise the lowest-numbered. -/
def State.localQueue (s : State) (fn idx : Nat) : Option Nat :=
  let mine := (List.range 1024).filter fun q => s.fld F.HIF_Q_FN_FN q = fn && s.fld F.HIF_Q_FN_LOCAL q = idx
  match mine.find? fun q => s.fld F.HIF_Q_STATUS_STATE q ≠ 0 with
  | some q => some q
  | none => mine.head?

/-- The place of a register's fields on a path, through the selector that governs it; none where it names nothing. -/
def State.regPlace (s : State) (p : Path) (b : Block) (inst : Nat) (r : RegInfo) (k : Nat) : Option Nat :=
  let one := pathCopy p false
  let vf := pathCopy p true
  match r.bank with
  | .plain =>
    some (match b with
      | .arr => if r.count = 32 then 32 * inst + k else inst
      | .tst => if r.count = 16 then 16 * inst + k else if r.count = 4 then 4 * inst + k else inst
      | .intc => if r.count = 4 then 4 * inst + k else if r.count = 1 then inst else 1024 * inst + k
      | .met => if r.count = 1 then inst else k
      | _ => inst)
  | .sel perVf => some (19 * inst + pathCopy p perVf)
  | .latch => some (pathCopy p true)
  | .rowmap =>
    let l := s.fld F.GLB_ROWMAP_SEL_LROW vf
    if l < 30 then some (32 * s.fld F.GLB_ROWMAP_SEL_HALF vf + l) else none
  | .ctr => some (64 * inst + s.fld F.CORE_CTR_SEL_IDX (19 * inst + one))
  | .rm => some (256 * inst + 16 * s.fld F.TST_RM_SEL_ARRAY (19 * inst + one) + s.fld F.TST_RM_SEL_CGROUP (19 * inst + one))
  | .pitch =>
    match p with
    | .host (f + 1) => some f
    | _ => some (16 * s.fld F.NET_PITCH_SEL_VIEW one + s.fld F.NET_PITCH_SEL_PITCH one)
  | .pitchCh =>
    match p with
    | .host (f + 1) => some (10 * f + k)
    | _ => some (10 * (16 * s.fld F.NET_PITCH_SEL_VIEW one + s.fld F.NET_PITCH_SEL_PITCH one) + k)
  | .chState => some (32 * inst + s.fld F.MEM_CH_SEL_CH (19 * inst + one))
  | .fn => some (s.fld F.HIF_FN_SEL_FN one)
  | .ownFn => some (match p with | .host f => f | _ => 0)
  | .queue =>
    match p with
    | .host (f + 1) => s.localQueue (f + 1) (s.fld F.HIF_Q_SEL_IDX (f + 1))
    | _ => some (s.fld F.HIF_Q_SEL_IDX vf)
  | .qmap => some (s.fld F.RGR_QMAP_SEL_QUEUE (19 * inst + one))
  | .dom => some (s.fld F.PRT_DOM_SEL_IDX one)
  | .cal => some (16 * s.fld F.MET_CAL_SEL_SITE one + s.fld F.MET_CAL_SEL_ARRAY one)
  | .rail => some (s.fld F.PWR_RAIL_SEL_RAIL one)
  | .boot => some (12 * s.fld F.PWR_BOOT_SEL_AGO one + s.fld F.PWR_BOOT_SEL_STEP one)
  | .secFn => some (match p with | .host (f + 1) => f + 1 | _ => s.fld F.SEC_FN_SEL_FN one)
  | .slot => some (s.fld F.UPD_SLOT_SEL_SLOT one)

/-- The place of the `j`th of several like fields of one word. -/
def fldPlace (f : Fld) (r : RegInfo) (place inst k j : Nat) : Nat :=
  if f.rep = 1 then place
  else if f.rep = 8 then 1024 * inst + 8 * k + j
  else if r.count = 32 then 1024 * inst + 32 * k + j
  else (4 * inst + k / 32) * 1024 + 32 * (k % 32) + j

/-! Reading. -/

/-- Whether the part is in Doze or Off (R451). -/
def State.inDoze (s : State) : Bool := s.fld F.PWR_STATUS_STATE = 2
/-- Off. -/
def State.isOff (s : State) : Bool := s.fld F.PWR_STATUS_STATE = 3

/-- Whether BAR0 answers: from step 11, WINDOWS, of a start on, and not in Off (R504, R512). -/
def State.barOpen (s : State) : Bool := !s.isOff && (s.win 0).ready
/-- Whether no register is reached on a path. -/
def State.pathOff (s : State) (p : Path) : Bool := match p with | .host _ => !s.barOpen | _ => s.isOff

/-- Whether a field keeps its value in Doze (R512). -/
def Fld.retained (f : Fld) : Bool := f.access == .rc || f.load == .vault || f.load == .side || f.load == .spare

/-- What a field reads, WO fields as 0; the time base, the age of a held value, the latch, ENABLE, the leg store's banks,
the snapshot's frame and the identity of a site are views
of other state. -/
def State.readFld (s : State) (f : Fld) (i : Nat) : Nat :=
  if f = F.CLK_TIME_LO_NS then s.time % 2 ^ 32
  else if f = F.MET_AGE_AGE_MS then
    (match SMap.find? s.met.times i with | some t => min 0xFFFFF ((s.now - t) / 1000000) | none => 0xFFFFF)
  else if f = F.RGR_LATCH_HOLDER || f = F.RGR_EPOCH then s.fld f 0
  else if f = F.RGR_LATCH_AGE_US then min 50 ((match s.irq.refreshed with | some t => s.now - t | none => 0) / 1000)
  else if f = F.HIF_Q_CTL_ENABLE then (if s.fld F.HIF_Q_STATUS_STATE i = 1 || s.fld F.HIF_Q_STATUS_STATE i = 2 then 1 else 0)
  else if f = F.HIF_FN_STATE_ENABLED then (if i = 0 || s.host.vfEnable then 1 else 0)
  else if f = F.HIF_Q_FN_PITCH && s.fld F.HIF_Q_FN_FN i ≠ 0 then s.fld F.HIF_Q_FN_FN i - 1
  else if f = F.PRT_STATUS_PAUSED_TX then
    ((List.range 4).filter fun c => decide (s.now < SMap.get 0 (SMap.get .init s.fab.ports i).txUntil c)).foldl (fun (n : Nat) c => n + 2 ^ c) 0
  else if f = F.CORE_LSTORE_STANDBY_VALID then (if s.frame.repl.isSome then 1 else 0)
  else if f = F.CORE_LSTORE_ACTIVE then s.frame.bank
  else if f = F.CORE_LSTORE_ITIN then (match s.frame.active with | some it => it.itinId % 65536 | none => 0)
  else if f = F.TST_RM_FRAME_FRAME then s.frame.snapFrame % 2 ^ 32
  else if f = F.ARR_SITE_LID then (s.siteCore i).getD 0xFFF
  else if f = F.ARR_SITE_SCOL then siteCol i
  else if f = F.ARR_SITE_PROW then siteRow i
  else if f.access = .wo then 0
  else s.fld f i

/-- Whether SMBus reads a register while the part is Off (R506). -/
def offReadable (b : Block) (r : RegInfo) : Bool :=
  match b with
  | .thm => r.off == 0x4
  | .pwr => r.off == 0x0 || r.off == 0x20 || r.off == 0x24
  | .clk => r.off == 0x14
  | .rgr => r.off == 0x4 || r.off == 0x8
  | _ => false

/-- Whether a block is power-gated in Doze (R512). -/
def gated (b : Block) : Bool := b == .core || b == .tst || b == .arr

/-- A register's value on a path. -/
def State.readReg (s : State) (p : Path) (addr : Nat) : Nat :=
  match findReg p addr with
  | none => 0
  | some (b, inst, r, k) =>
    match p with
    | .host (f + 1) => if b = .net && r.off = 0x4 then f else readAt s p b inst r k
    | _ => readAt s p b inst r k
where
  /-- The word of a register that was found. -/
  readAt (s : State) (p : Path) (b : Block) (inst : Nat) (r : RegInfo) (k : Nat) : Nat :=
    if s.pathOff p && !(p == .smbus && offReadable b r) then 0
    else match s.regPlace p b inst r k with
      | none => 0
      | some place =>
        let early := p == .smbus && decide (s.fld F.PWR_BOOT_STAGE ≤ 3)
        (r.flds.foldl (fun w f =>
            (List.range f.rep).foldl (fun w j =>
                let i := fldPlace f r place inst k j
                let v := if early && (f.load == .vault || f.load == .side || f.load == .spare) then 0
                  else if s.inDoze && gated b && !f.retained then f.reset
                  else s.readFld f i
                w + v * 2 ^ (f.lo + f.width * j)) w) 0)

/-! Writing. -/

/-- The rank a field's Role column asks for. -/
def WRole.rank : WRole → Nat
  | .opr => 1
  | .ins => 2
  | .mkr => 3
  | _ => 4

/-- What a field stores for a written value; none where the write is ignored. -/
def State.stored (s : State) (f : Fld) (i v : Nat) : Option Nat :=
  match f.store with
  | .plain => some v
  | .clamp lo hi => some (clampNat lo hi v)
  | .cap hi => some (min v hi)
  | .floorIgnored lo => if v < lo then none else some v
  | .aboveIgnored hi => if hi < v then none else some v
  | .zeroIsOne => some (if v = 0 then 1 else v)
  | .step50 => some (clampNat 800 1550 v / 50 * 50)
  | .vectors =>
    let sum := (List.range 17).foldl (fun t k => if k = i then t else t + s.fld F.HIF_FN_VEC_VECTORS k) 0
    if v = 0 || 2048 < sum + v then none else some v
  | .xon => some v
  | .xoff => some v
  | .portEnable => if s.flag F.PRT_STATUS_DISABLED i then none else some v

/-- Conditions of other chapters under which a write to a field is ignored: a doorbell base while queues are enabled
(Table 9-14), the pitch of a virtual function's queue (Table 9-15), a region trim outside HALTED and EMPTY (R428). -/
def State.writable (s : State) (f : Fld) (i : Nat) : Bool :=
  if f = F.HIF_FN_DBBASE_LO_ADDR || f = F.HIF_FN_DBBASE_HI_ADDR then s.fld F.HIF_FN_STATE_QUEUES i = 0
  else if f = F.HIF_Q_FN_PITCH then s.fld F.HIF_Q_FN_FN i = 0
  else if f = F.MET_REGTRIM_CODE then s.frame.st = .halted || s.frame.st = .empty
  else true

/-- What becomes of one field of a write: 0 nothing, 1 set, 2 refused for role, 3 ignored under the lock. -/
def State.judge (s : State) (rank : Nat) (f : Fld) (i v : Nat) : Nat :=
  if f.own || f.role == .none || f.role == .fw then 0
  else
    match f.access with
    | .rw | .rwl =>
      match s.stored f i v with
      | none => 0
      | some w =>
        if w = s.fld f i || !s.writable f i then 0
        else if rank < f.role.rank then 2
        else if f.access = .rwl && s.locked then 3
        else 1
    | _ => 0

/-- The managers of this part from its configuration (R400, R401; Table 12-8): a manager names itself.  A part that took over,
or that stands by for a claimant, keeps what it has. -/
def State.nameManagers (s : State) : State :=
  let mode := s.fld F.GLB_STRAPS_MODE
  let sys := s.fld F.PRT_MGRCFG_SYSMGR
  let rack := s.fld F.PRT_MGRCFG_RACKMGR
  let own := s.fld F.PRT_PARTNUM_PART
  let whist := mode == 2 || (mode == 1 && sys == 0xFFFF)
  if s.flag F.PRT_ROLE_TOOK_OVER || s.mgr.stoodDown then s
  else
    let s := (s.setFlag F.PRT_ROLE_WHISTLE whist).setFlag F.PRT_ROLE_RACK (mode == 1)
    let s := s.setFld F.PRT_MGRSTATE_WMGR (if whist then own else if sys = 0xFFFF then rack else sys)
    s.setFld F.PRT_MGRSTATE_RMGR (if mode = 1 then own else rack)

/-- A channel's held value, if it has one, becomes STALE (R421). -/
def State.staleHeld (s : State) (ch : Nat) : State := if (SMap.find? s.met.times ch).isSome then s.setFld F.MET_RES_STALE 1 ch else s

/-- Sets a field as a write does, with what the write of that field carries: the taster's sampling register (Table
4-12), the flags derived from an array's age (R118), both copies of a pitch's table base (Table 6-6), the held value of channel 4 when the tap moves (R421), the trims of an array whose product runs (R104). -/
def State.putFld (s : State) (f : Fld) (i v : Nat) : State :=
  if f = F.TST_SEED then (s.setFld f v i).setCore i { s.core i with sampler := v }
  else if f = F.ARR_AGE_HOURS then
    ((s.setFld f v i).setFlag F.ARR_STATUS_DUE (decide (8760 ≤ v)) i).setFlag F.ARR_STATUS_OVERDUE (decide (17520 < v)) i
  else if f = F.NET_PITCH_KVBASE_PAGE then (s.setFld f v (i % 16)).setFld f v (16 + i % 16)
  else if f = F.PRT_MGRCFG_RACKMGR || f = F.PRT_MGRCFG_SYSMGR || f = F.PRT_PARTNUM_PART then (s.setFld f v i).nameManagers
  else if f = F.MET_TAP_SEL_SITE || f = F.MET_TAP_SEL_ARRAY || f = F.MET_TAP_SEL_WHAT then
    if s.fld f i = v % 2 ^ f.width then s else (s.setFld f v i).staleHeld 4
  else if f.load = .vault && f.role != .fw then (s.setFld f v i).setVfld f v i
  else s.setFld f v i

/-- The fields of a word with their places and the values written. -/
def regParts (r : RegInfo) (place inst k value : Nat) : List (Fld × Nat × Nat) :=
  r.flds.flatMap fun f => (List.range f.rep).map fun j => (f, fldPlace f r place inst k j, bitsAt value (f.lo + f.width * j) f.width)

/-- Whether a write of a whole word is taken at all: one that would leave XON at or above XOFF is ignored (Table 12-11). -/
def wordOk (b : Block) (r : RegInfo) (value : Nat) : Bool :=
  match b with
  | .prt => !(r.off == 0x8) || decide (bitsAt value F.PRT_RXCFG_XON.lo F.PRT_RXCFG_XON.width < bitsAt value F.PRT_RXCFG_XOFF.lo F.PRT_RXCFG_XOFF.width)
  | _ => true

/-- Whether a table row is a selector. -/
def RegInfo.isSel (r : RegInfo) : Bool := match r.bank with | .sel _ => true | _ => false

/-- A host function's write (R20, R491, R492): each field judged alone, one audit entry, none for a selector that takes
effect. -/
def State.hostWrite (s : State) (fn addr : Nat) (b : Block) (inst : Nat) (r : RegInfo) (k value : Nat) : State :=
  if b = .arr || b = .intc || (b = .rgr && !r.isSel) || !wordOk b r value then s.audit fn 0xFFFF 0 0 addr
  else match s.regPlace (.host fn) b inst r k with
    | none => s.audit fn 0xFFFF 0 0 addr
    | some place =>
      let parts := (regParts r place inst k value).map fun q => (q, s.judge (s.roleOf fn) q.1 q.2.1 q.2.2)
      let code := if parts.any fun q => q.2 == 2 then 0xF3 else if parts.any fun q => q.2 == 3 then 0x05 else 0
      let t := parts.foldl (fun t q =>
          if q.2 = 1 then match s.stored q.1.1 q.1.2.1 q.1.2.2 with
            | some w => t.putFld q.1.1 q.1.2.1 w
            | none => t
          else t) s
      if r.isSel && code = 0 then t else t.audit fn 0xFFFF (if code = 0 then 0 else 1) code addr

/-- A trim written while a product runs waits for its end, both trims of the register together (R104). -/
def State.trimWrite (s : State) (a : Nat) (r : RegInfo) (value : Nat) : State :=
  let x := s.arr a
  if r.off = 0x8 then s.setArr a { x with pendTrimRef := some value } else s.setArr a { x with pendTrimRead := some value }

/-- Firmware's write (R507): fields marked FW, and firmware's own copies of the selectors.  An array or crib command
whose OP names no operation is answered with BAD_ARG (Tables 3-16, 4-14). -/
def State.fwWrite (s : State) (b : Block) (inst : Nat) (r : RegInfo) (k value : Nat) : State :=
  match s.regPlace .firmware b inst r k with
  | none => s
  | some place =>
    if b = .arr && r.off = 0x18 then
      let op := value % 16
      if 1 ≤ op && op ≤ 10 then s
      else
        s.cmdRefuse inst op (bitsAt value 8 8) ((s.cmdRefusal inst op).getD 5)
    else if b = .tst && r.off = 0x60 then
      let op := value % 4
      if op = 1 || op = 2 then s
      else
        let s := (s.setFld F.TST_CRIB_STAT_OP op inst).setFld F.TST_CRIB_STAT_SLOT (bitsAt value 4 2) inst
        s.setFld F.TST_CRIB_STAT_RESULT (if s.flag F.TST_CRIB_STAT_DONE inst then 5 else 1) inst
    else if b = .arr && (r.off = 0x8 || r.off = 0xC) && (s.arr inst).prod.isSome then s.trimWrite inst r value
    else if b = .met && r.bank = .plain && r.flds.contains F.MET_REGTRIM_CODE && !s.writable F.MET_REGTRIM_CODE place then
      s.count F.MET_CALFAILCNT
    else
      (regParts r place inst k value).foldl (fun t q =>
          if q.1.own then t
          else if r.isSel || (q.1.role == .fw && q.1.access == .rw) then
            match s.stored q.1 q.2.1 q.2.2 with
            | some w => t.putFld q.1 q.2.1 w
            | none => t
          else if q.1.role == .fw && q.1.access == .w1c && q.2.2 = 1 then t.setFld q.1 0 q.2.1
          else t) s

/-- A write of a selector over SMBus, into its own copy (R506). -/
def State.smbWrite (s : State) (b : Block) (inst : Nat) (r : RegInfo) (k value : Nat) : State :=
  match s.regPlace .smbus b inst r k with
  | some place =>
    (regParts r place inst k value).foldl (fun t q =>
        match s.stored q.1 q.2.1 q.2.2 with
        | some w => t.putFld q.1 q.2.1 w
        | none => t) s
  | none => s

/-- A 32-bit write on a path (R500). -/
def State.writeReg (s : State) (p : Path) (addr value : Nat) : State :=
  match findReg p addr with
  | none => match p with | .host fn => if s.barOpen then s.audit fn 0xFFFF 0 0 addr else s | _ => s
  | some (b, inst, r, k) =>
    match p with
    | .host fn =>
      if !s.barOpen then s
      else if fn ≠ 0 && b ≠ .hif && !(b = .glb && r.isSel) then s.audit fn 0xFFFF 0 0 addr
      else s.hostWrite fn addr b inst r k value
    | .firmware => s.fwWrite b inst r k value
    | .smbus => if r.isSel then s.smbWrite b inst r k value else s

/-- A host read at the operator role or above clears the RC counters of the register it reads (R122, R510); the value
read stands in `readout`. -/
def State.counterRead (s : State) (p : Path) (addr : Nat) : State :=
  let s := { s with readout := s.readReg p addr }
  match p, findReg p addr with
  | .host fn, some (b, inst, r, k) =>
    if !s.barOpen || s.roleOf fn = 0 then s
    else match s.regPlace p b inst r k with
      | some place => r.flds.foldl (fun t f => if f.access = .rc then t.setFld f 0 place else t) s
      | none => s
  | _, _ => s

/-- A read of a LO register latches the HI register of the same path (R501): of the time base, or with `audit` of the
next audit number. -/
def State.loRead (s : State) (p : Path) (audit : Bool) : State :=
  let copy := pathCopy p true
  if s.pathOff p then { s with readout := 0 }
  else if audit then
    { s.setFld F.VLT_AUDIT_SEQ_HI_SEQ (s.sec.nextSeq / 2 ^ 32) copy with readout := s.sec.nextSeq % 2 ^ 32 }
  else { s.setFld F.CLK_TIME_HI_NS (s.time / 2 ^ 32) copy with readout := s.time % 2 ^ 32 }

/-- A role check for a field whose write is an operation of its own (R19, R20, R491): the result of judging it and the
state with the audit entry; `rwl` says that the installer lock bars it. -/
def State.ownWrite (s : State) (p : Path) (rank : Nat) (rwl : Bool) (addr : Nat) : Bool × State :=
  match p with
  | .host fn =>
    if !s.barOpen then (false, s)
    else if s.roleOf fn < rank then (false, s.audit fn 0xFFFF 1 0xF3 addr)
    else if rwl && s.locked then (false, s.audit fn 0xFFFF 1 0x05 addr)
    else (true, s.audit fn 0xFFFF 0 0 addr)
  | _ => (false, s)

/-- Whether a path exists: functions are 0 to 16. -/
def Path.ok : Path → Bool
  | .host fn => decide (fn ≤ 16)
  | _ => true

/-! The commands' meanings. -/

/-- REGISTER_WRITE (R20). -/
def execRegisterWrite (path : Path) (addr value : Nat) (s : State) : Host.Outcome State Fault Refusal :=
  within path.ok (s.writeReg path addr value)
/-- RC_COUNTER_READ (R510). -/
def execRcCounterRead (path : Path) (addr : Nat) (s : State) : Host.Outcome State Fault Refusal :=
  within path.ok (s.counterRead path addr)
/-- TIME_LO_READ (R501). -/
def execTimeLoRead (path : Path) (audit : Bool) (s : State) : Host.Outcome State Fault Refusal :=
  within path.ok (s.loRead path audit)

end Sys2Proof.Machine
end

