-- ==== Sys2Proof/Machine/Window.lean ====
section
/-!
DEFINITION. The management windows: how a command is taken, the common results, how it is answered
(09_host_interface R312 to R314, 10_ranger_firmware R328, R331; 15_update_and_roles R492).
-/

namespace Sys2Proof.Machine

/-- Whether a function exists to the host: the physical function, a virtual one while VF Enable is set. -/
def State.fnOn (s : State) (fn : Nat) : Bool := fn == 0 || s.host.vfEnable

/-- The half that holds leadership: 0 none, 1 West, 2 East (R343). -/
def State.holder (s : State) : Nat := s.fld F.RGR_LATCH_HOLDER

/-- Whether Ranger firmware stands still in the pause of an activation (R478). -/
def State.paused (s : State) : Bool := s.fld F.UPD_STATUS_SESSION == 4

/-- Whether firmware takes the command at the head of a function's ring: the window is open, no command of it executes,
its response ring has room, and a leader carries the duty (R313, R331, Table 10-1). -/
def State.takes (s : State) (fn : Nat) : Bool :=
  let w := s.win fn
  w.ready && !w.busy && (w.rspTail + 1) % 1024 != w.rspHead && s.holder != 0 && !s.isOff && s.fnOn fn && !s.paused

/-- CMD_HEAD advances as the command is taken. -/
def State.take (s : State) (fn : Nat) : State :=
  let w := s.win fn
  let h := (w.cmdHead + 1) % 1024
  s.setWin fn { w with cmdHead := h, cmdTail := if w.cmdTail = w.cmdHead then h else w.cmdTail, busy := true }

/-- The pitch a command acts on (R314). -/
def Mgmt.on (c : Mgmt) : Nat := if c.fn = 0 then c.pitch else c.fn - 1

/-- Where a command is taken from (R314): `part` for a part-wide one, the role it needs, whether its LENGTH suits it,
whether it reads a payload. -/
structure CmdRule where
  code : Nat
  part : Bool
  role : Nat
  lenOk : Bool
  payload : Bool

/-- The first common result that a command meets, in the order of Table 9-11. -/
def State.common (s : State) (c : Mgmt) (r : CmdRule) : Option Nat :=
  if r.part && c.fn != 0 then some 0xF1
  else if !r.part && (decide (15 < c.on) || !s.flag F.NET_PITCH_RECT_ENABLE c.on) then some 0xF2
  else if s.roleOf c.fn < r.role then some 0xF3
  else if !r.lenOk || (decide (0 < c.len) && !c.aligned) then some 0xF4
  else if r.payload && c.readFails then some 0xF5
  else none

/-- Answers a command, which is audited (R492): done for result 0, otherwise refused. -/
def State.answer (s : State) (c : Mgmt) (code result target : Nat) (detail : Bytes := []) : State :=
  (s.audit c.fn code (if result = 0 then 0 else 1) result target).respond c code result detail

/-- Takes a command: a common result ends it, otherwise it acts. -/
def State.mgmt (s : State) (c : Mgmt) (r : CmdRule) (target : Nat) (act : State → State) : State :=
  if !s.takes c.fn then s
  else
    let s := s.take c.fn
    match s.common c r with
    | some e =>
      let s := if e = 0xF5 then s.count F.HIF_CPLTOCNT else s
      s.answer c r.code e target
    | none => act s

/-- What a READ command writes to host memory. -/
def State.hostOutput (s : State) (fn : Nat) (bs : Bytes) : State :=
  let w := s.win fn
  s.setWin fn { w with output := w.output ++ [bs] }

/-- The poll interval in ns. -/
def State.pollNs (s : State) : Nat := 1000 * s.fld F.HIF_POLL_POLL_US

/-- Whether an interval has passed since a poll. -/
def State.pollDue (s : State) (last : Option Nat) : Bool :=
  match last with | some t => decide (t + s.pollNs ≤ s.now) | none => true

/-- Vector 0 of a window that has gained entries (R311). -/
def State.windowMsi (s : State) (fn : Nat) : State :=
  let w := s.win fn
  if w.gained then (s.setWin fn { w with gained := false }).msi fn 0 else s

/-- Firmware reads a window's host-written indices (R313); CMD_TAIL that advanced raises its source. -/
def State.readIndices (s : State) (fn cmdTail rspHead evtHead : Nat) : State :=
  let w := s.win fn
  if !w.ready || !s.fnOn fn then s
  else
    let t := s.setWin fn { w with cmdTail := cmdTail % 1024, rspHead := rspHead % 1024, evtHead := evtHead % 1024 }
    if cmdTail % 1024 = w.cmdTail then t else t.raiseBoth (irqCmdTail + fn)

/-- Codes of the commands of Tables 9-8, 10-3 and 15-9. -/
def commandCodes : List Nat :=
  [0x10] ++ (List.range 7).map (0x20 + ·) ++ (List.range 7).map (0x40 + ·) ++ (List.range 4).map (0x60 + ·)
    ++ (List.range 10).map (0x100 + ·) ++ (List.range 7).map (0x110 + ·) ++ [0x120]

/-- One poll of the windows (R313): indices by function; `unknown` is an entry whose code is defined nowhere, which is
taken and answered UNKNOWN_COMMAND. -/
def State.mgmtPoll (s : State) (reads : List (Nat × Nat × Nat × Nat)) (unknown : Option (Mgmt × Nat)) : State :=
  if !s.pollDue s.host.lastMgmt || s.isOff || s.holder = 0 then s
  else
    let s := { s with host := { s.host with lastMgmt := some s.now } }
    let s := reads.foldl (fun s r => s.readIndices r.1 r.2.1 r.2.2.1 r.2.2.2) s
    let s := match unknown with
      | some (c, code) => if s.takes c.fn && !commandCodes.contains code then (s.take c.fn).answer c code 0xF0 0 else s
      | none => s
    (List.range 17).foldl (fun s fn => s.windowMsi fn) s

/-- A vector is unmasked; its pending message is sent (R311). -/
def State.msixUnmask (s : State) (fn vec : Nat) : State :=
  let k := 2048 * fn + vec
  let s := { s with host := { s.host with unmasked := SMap.set 0 s.host.unmasked k 1 } }
  if SMap.get 0 s.host.msiPending k = 1 && s.busMaster fn then
    { s with host := { s.host with msiPending := SMap.set 0 s.host.msiPending k 0, sent := s.host.sent ++ [(fn, vec)] } }
  else s

/-! The commands' meanings. -/

/-- MGMT_COMMAND_POLL (R313). -/
def execMgmtCommandPoll (reads : List (Nat × Nat × Nat × Nat)) (unknown : Option (Mgmt × Nat)) (s : State) :
    Host.Outcome State Fault Refusal :=
  within (reads.all (fun r => decide (r.1 ≤ 16)) && (match unknown with | some (c, _) => decide (c.fn ≤ 16) | none => true))
    (s.mgmtPoll reads unknown)
/-- MSIX_UNMASK (R311). -/
def execMsixUnmask (fn vec : Nat) (s : State) : Host.Outcome State Fault Refusal :=
  within (fn ≤ 16 && vec < 2048) (s.msixUnmask fn vec)
/-- POISONED_WRITE (R316): the write is discarded. -/
def execPoisonedWrite (s : State) : Host.Outcome State Fault Refusal := .next (s.count F.HIF_POISONCNT)

end Sys2Proof.Machine
end

