-- ==== Sys2Proof/Machine/Queue.lean ====
section
/-!
DEFINITION. Queues of the host (09_host_interface R299 to R306, R316, R320) and their owners (10_ranger_firmware R324).
-/

namespace Sys2Proof.Machine

/-- A queue beside its registers. -/
def State.queue (s : State) (q : Nat) : QueueSt := SMap.get .init s.host.queues q

/-- Sets it; STATUS.HELD shows whether anything waits. -/
def State.setQueue (s : State) (q : Nat) (x : QueueSt) : State :=
  ({ s with host := { s.host with queues := SMap.set .init s.host.queues q x } }).setFlag F.HIF_Q_STATUS_HELD (!x.waiting.isEmpty) q

/-- STATE of a queue (Table 9-16). -/
def State.qState (s : State) (q : Nat) : Nat := s.fld F.HIF_Q_STATUS_STATE q
/-- DISABLED. -/
def qDisabled : Nat := 0
/-- ACTIVE. -/
def qActive : Nat := 1
/-- ERROR. -/
def qError : Nat := 2
/-- DRAINING. -/
def qDraining : Nat := 3

/-- The function a queue is lent to. -/
def State.qFn (s : State) (q : Nat) : Nat := s.fld F.HIF_Q_FN_FN q

/-- The pitch a queue serves (R299). -/
def State.qPitch (s : State) (q : Nat) : Nat := if s.qFn q = 0 then s.fld F.HIF_Q_FN_PITCH q else s.qFn q - 1

/-- The entries of a ring, from its size field (Table 9-15: 0 means 16). -/
def ringSize (log2 : Nat) : Nat := 2 ^ (if log2 = 0 then 16 else log2)

/-- Entries of the submission ring. -/
def State.sqSize (s : State) (q : Nat) : Nat := ringSize (s.fld F.HIF_Q_SIZE_SQ_LOG2 q)
/-- Entries of the completion ring. -/
def State.cqSize (s : State) (q : Nat) : Nat := ringSize (s.fld F.HIF_Q_SIZE_CQ_LOG2 q)

/-- How far index `b` lies after index `a` in a ring. -/
def ringAhead (size a b : Nat) : Nat := (b + size - a) % size

/-! Ranger cores (R324; Table 10-9). -/

/-- The 4-bit state of a Ranger core. -/
def State.rcore (s : State) (k : Nat) : Nat := bitsAt (s.fld F.RGR_STATUS_CORE (k / 4)) (4 * (k % 4)) 4

/-- Whether a Ranger core runs: RUN or IDLE. -/
def State.rcoreRuns (s : State) (k : Nat) : Bool := decide (s.rcore k ≤ 1)

/-- The next running core from `k` in ascending cyclic order, `k` itself first. -/
def State.nextRunning (s : State) (k : Nat) : Option Nat := ((List.range 8).map fun i => (k + i) % 8).find? s.rcoreRuns

/-- A queue is given an owner, or loses it (R324). -/
def State.setOwner (s : State) (q : Nat) (k : Option Nat) : State :=
  match k with
  | some k => (s.setFld F.RGR_QMAP_DATA_OWNED 1 q).setFld F.RGR_QMAP_DATA_RCORE k q
  | none => (s.setFld F.RGR_QMAP_DATA_OWNED 0 q).setFld F.RGR_QMAP_DATA_RCORE 0 q

/-- The owner of a queue, if it has one. -/
def State.owner (s : State) (q : Nat) : Option Nat :=
  if s.flag F.RGR_QMAP_DATA_OWNED q then some (s.fld F.RGR_QMAP_DATA_RCORE q) else none

/-! Completions (R304 to R306). -/

/-- Whether a status is a refusal (Table 8-4). -/
def Completion.refusal (c : Completion) : Bool := decide (0x10 ≤ c.status)

/-- Whether the completion ring of a queue is full (R306). -/
def State.cqFull (s : State) (q : Nat) : Bool := ((s.queue q).tail + 1) % s.cqSize q == (s.queue q).head

/-- Writes one entry to the ring: at the write index, with the phase, which toggles as the ring wraps (R305). -/
def State.writeEntry (s : State) (q : Nat) (c : Completion) : State :=
  let x := s.queue q
  let t := (x.tail + 1) % s.cqSize q
  s.setQueue q { x with
    ring := SMap.put x.ring x.tail (c, x.phase), tail := t, phase := if t = 0 then 1 - x.phase else x.phase,
    refused := x.refused || c.refusal, completed := x.completed || !c.refusal }

/-- Posts a completion or refusal: written, or kept in order while the ring is full or host memory may not be written
(R306, R318); a DISABLED queue takes none. -/
def State.postEntry (s : State) (q : Nat) (c : Completion) : State :=
  let x := s.queue q
  if s.qState q = qDisabled then s
  else if x.waiting.isEmpty && !s.cqFull q && s.busMaster (s.qFn q) then s.writeEntry q c
  else s.setQueue q { x with waiting := x.waiting ++ [c] }

/-- Writes the first entry that waits, once there is room (R306). -/
def State.writeHeld (s : State) (q : Nat) : State :=
  match (s.queue q).waiting with
  | [] => s
  | c :: rest =>
    if s.qState q = qDisabled || s.cqFull q || !s.busMaster (s.qFn q) then s
    else (s.setQueue q { s.queue q with waiting := rest }).writeEntry q c

/-- The messages of a boundary: one for each queue to which it wrote a completion (R311). -/
def State.completionMsi (s : State) (q : Nat) : State :=
  let x := s.queue q
  if x.completed then (s.setQueue q { x with completed := false }).msi (s.qFn q) (s.fld F.HIF_Q_VEC_VEC q) else s

/-- The message of a poll interval in which refusals were written. -/
def State.refusalMsi (s : State) (q : Nat) : State :=
  let x := s.queue q
  if x.refused then (s.setQueue q { x with refused := false }).msi (s.qFn q) (s.fld F.HIF_Q_VEC_VEC q) else s

/-! Starting and stopping (R299, R320). -/

/-- Queues whose STATE is ACTIVE or ERROR, lent to a function. -/
def State.enabledOf (s : State) (fn : Nat) : List Nat :=
  (List.range 1024).filter fun q => s.qFn q == fn && (s.qState q == qActive || s.qState q == qError)

/-- QUEUES of a function (Table 9-14). -/
def State.countQueues (s : State) (fn : Nat) : State := s.setFld F.HIF_FN_STATE_QUEUES (s.enabledOf fn).length fn

/-- The table size of a function in force (R310). -/
def State.vectorsOf (s : State) (fn : Nat) : Nat := SMap.get 64 s.host.vectors fn

/-- The check of R299 at a write of ENABLE: the code of Table 9-13, tried in its order. -/
def State.queueCheck (s : State) (q : Nat) : Nat :=
  let fn := s.qFn q
  let bad (n : Nat) : Bool := decide (1 ≤ n) && decide (n ≤ 5)
  let others := (s.enabledOf fn).filter (· != q)
  let v := s.fld F.HIF_Q_VEC_VEC q
  if bad (s.fld F.HIF_Q_SIZE_SQ_LOG2 q) || bad (s.fld F.HIF_Q_SIZE_CQ_LOG2 q) then 0x02
  else if s.fld F.HIF_FN_DBBASE_LO_ADDR fn = 0 && s.fld F.HIF_FN_DBBASE_HI_ADDR fn = 0 then 0x03
  else if !s.flag F.HIF_FN_STATE_BME fn then 0x04
  else if others.any fun o => s.fld F.HIF_Q_FN_LOCAL o == s.fld F.HIF_Q_FN_LOCAL q then 0x05
  else if v = 0 || decide (s.vectorsOf fn ≤ v) || others.any (fun o => s.fld F.HIF_Q_VEC_VEC o == v) then 0x06
  else if fn = 0 && !s.flag F.NET_PITCH_RECT_ENABLE (s.qPitch q) then 0x07
  else if !s.fnOn fn then 0x08
  else 0

/-- The address at which a path writes HIF.Q_CTL. -/
def qCtlAddr : Path → Nat
  | .host (_ + 1) => 0x60
  | _ => 0x3060

/-- The queue a path has selected. -/
def State.selectedQueue (s : State) (p : Path) : Option Nat :=
  match findReg p (qCtlAddr p) with
  | some (b, inst, r, k) => s.regPlace p b inst r k
  | none => none

/-- A write of 1 to ENABLE (R299, R324): while DISABLED the queue is checked and started. -/
def State.queueEnable (s : State) (p : Path) : State :=
  let w := s.ownWrite p roleOpr false (qCtlAddr p)
  match s.selectedQueue p with
  | none => w.2
  | some q =>
    let s := w.2
    if !w.1 || s.qState q ≠ qDisabled then s
    else
      let e := s.queueCheck q
      if e ≠ 0 then s.setFld F.HIF_Q_STATUS_ERR e q
      else
        let s := ((s.setFld F.HIF_Q_STATUS_ERR 0 q).setFld F.HIF_Q_STATUS_STATE qActive q).setFld F.HIF_Q_STATUS_SQ_HEAD 0 q
        ((s.setQueue q .init).setOwner q (s.nextRunning (q % 8))).countQueues (s.qFn q)

/-- A queue becomes DISABLED: what it holds is gone (R317, R320). -/
def State.queueOff (s : State) (q : Nat) : State :=
  let fn := s.qFn q
  (((s.setFld F.HIF_Q_STATUS_STATE qDisabled q).setQueue q .init).setOwner q none).countQueues fn

/-- A queue goes into ERROR with a code (R301, R316). -/
def State.queueError (s : State) (q code : Nat) : State :=
  let s := (s.setFld F.HIF_Q_STATUS_STATE qError q).setFld F.HIF_Q_STATUS_ERR code q
  (s.postTo (s.qFn q) 0x0002 [s.fld F.HIF_Q_FN_LOCAL q, code]).raiseBoth irqHost

/-! Polling (R301). -/

/-- What one poll does to one queue: its indices are checked, up to 32 submissions are copied while no refusal waits and
its owner runs (R306, R340), and SQ_HEAD moves past them. -/
def State.pollQueue (s : State) (r : DoorRead) : State :=
  let q := r.q
  let x := s.queue q
  let sq := s.sqSize q
  let cq := s.cqSize q
  let head := s.fld F.HIF_Q_STATUS_SQ_HEAD q
  if s.qState q = qDisabled || !s.busMaster (s.qFn q) || s.flag F.HIF_FN_STATE_FLR (s.qFn q) then s
  else if decide (sq ≤ r.sqTail) || decide (cq ≤ r.cqHead) || decide (ringAhead cq x.head x.tail < ringAhead cq x.head r.cqHead) then
    if s.qState q = qActive then s.queueError q 0x10 else s
  else
    let s := s.setQueue q { x with head := r.cqHead }
    let runs := match s.owner q with | some k => s.rcoreRuns k | none => false
    if s.qState q ≠ qActive || x.waiting.any (·.refusal) || !runs then s
    else
      let new := r.subs.take (min 32 (ringAhead sq head r.sqTail))
      if new.isEmpty then s
      else
        let s := s.setQueue q { s.queue q with copied := x.copied ++ new, readFails := 0 }
        (s.setFld F.HIF_Q_STATUS_SQ_HEAD ((head + new.length) % sq) q).raiseBoth (irqSubmissions + (s.owner q).getD 0)

/-- One poll of the doorbells (R301), due every POLL_US; the messages of the refusals of the interval before go out. -/
def State.doorbellPoll (s : State) (reads : List DoorRead) : State :=
  if !s.pollDue s.host.lastPoll || s.isOff then s
  else
    let s := { s with host := { s.host with lastPoll := some s.now } }
    let s := (s.host.queues.map (·.1)).foldl (fun (s : State) q => s.refusalMsi q) s
    reads.foldl (fun s r => s.pollQueue r) s

/-! Whether units exist. -/

/-- Queues are 0 to 1,023. -/
def queueCount : Nat := 1024

/-! The commands' meanings. -/

/-- DOORBELL_POLL (R301). -/
def execDoorbellPoll (reads : List DoorRead) (s : State) : Host.Outcome State Fault Refusal :=
  within (reads.all fun r => decide (r.q < queueCount)) (s.doorbellPoll reads)
/-- HELD_COMPLETION_WRITE (R306). -/
def execHeldCompletionWrite (q : Nat) (s : State) : Host.Outcome State Fault Refusal := within (q < queueCount) (s.writeHeld q)
/-- QUEUE_ENABLE (R299). -/
def execQueueEnable (path : Path) (s : State) : Host.Outcome State Fault Refusal := within path.ok (s.queueEnable path)

end Sys2Proof.Machine
end

