-- ==== Sys2Proof/Machine/KvAlloc.lean ====
section
/-!
DEFINITION. Contexts and pages of a pitch, as Ranger firmware keeps them (06_network_and_memory R213, R217, R218;
08_serving R280 to R287).  Which free page, context or table place firmware takes is the model's choice: the lowest
(log entry 21).
-/

namespace Sys2Proof.Machine

/-- What a pitch serves. -/
def State.srv (s : State) (p : Nat) : ServeSt := SMap.get .init s.serve p

/-- Sets it. -/
def State.setSrv (s : State) (p : Nat) (x : ServeSt) : State := { s with serve := SMap.set .init s.serve p x }

/-- Changes it. -/
def State.onSrv (s : State) (p : Nat) (f : ServeSt → ServeSt) : State := s.setSrv p (f (s.srv p))

/-- Changes its counters. -/
def State.onCounts (s : State) (p : Nat) (f : ServeCounts → ServeCounts) : State :=
  s.onSrv p fun x => { x with counts := f x.counts }

/-- Slots that this part finds must be withheld at the boundary ending a frame, for a reason of Table 11-2 (1 replay given up
or refused, 2 late notice, 3 page allocation, 4 late fetch, 5 missing exit token, 6 not replayable): it withholds them and
reports them to the whistling manager by WITHHOLD, or at once where it acts as that manager (R363). -/
def State.withholdNotice (s : State) (frame reason : Nat) (slots : List Nat) : State :=
  if slots.isEmpty then s
  else
    let own := slots.map fun k => (frame, k)
    let s := { s with mgr := { s.mgr with own := s.mgr.own ++ own } }
    if s.flag F.PRT_ROLE_WHISTLE then { s with mgr := { s.mgr with notices := s.mgr.notices ++ own, listSent := false } }
    else if s.fld F.PRT_MGRSTATE_WMGR = 0xFFFF then s
    else s.sendMsg (s.fld F.PRT_MGRSTATE_WMGR) 0x0206 (frame :: reason :: slots)

/-- One more, saturating at 32 bits (R293). -/
def sat32 (n : Nat) : Nat := min n (2 ^ 32 - 1)

/-- The streams a pitch may use. -/
def State.pitchStreams (s : State) (p : Nat) : List StreamRec :=
  match s.frame.active with
  | some it => it.streams.filter fun r => bitsAt r.pitches p 1 == 1
  | none => []

/-- Entries of a stream directory: one for each stream index of the itinerary. -/
def State.dirEntries (s : State) : Nat :=
  match s.frame.active with
  | some it => it.streams.foldl (fun n r => max n (r.stream + 1)) 0
  | none => 0

/-- The first page after the tables of R218 and the two regions of the waymark table (R287). -/
def State.firstFree (s : State) (p : Nat) : Nat :=
  s.fld F.NET_PITCH_KVBASE_PAGE p + ceilDiv (17039360 + 2 * s.pitchPages p) 65536 + 4096

/-- Whether a page is free: its count is 0, it holds no table, and it is not retired. -/
def State.pageFree (s : State) (p g : Nat) : Bool :=
  decide (s.firstFree p ≤ g) && decide (g < s.pitchPages p) && s.pageCount p g == 0 && !s.net.retiredPages.contains (p, g)

/-- The lowest run of `n` free pages. -/
def State.freeRun (s : State) (p n : Nat) : Option Nat :=
  (List.range (s.pitchPages p)).find? fun g => (List.range n).all fun i => s.pageFree p (g + i)

/-- Takes a run of `n` pages: each counts 1. -/
def State.takeRun (s : State) (p n : Nat) : Option (Nat × State) :=
  (s.freeRun p n).map fun g => (g, (List.range n).foldl (fun s i => s.setPageCount p (g + i) 1) s)

/-- One reference more on a page. -/
def State.pageUp (s : State) (p g : Nat) : State := s.setPageCount p g (s.pageCount p g + 1)

/-- One reference less. -/
def State.pageDown (s : State) (p g : Nat) : State := s.setPageCount p g (s.pageCount p g - 1)

/-- The pages of a list for `n` tokens of a stream. -/
def listPages (r : StreamRec) (n : Nat) : Nat := ceilDiv (ceilDiv n 32) (groupsPerPage (rowWidth r.bpt))

/-- The pages that a stream's page list itself takes. -/
def listSize (r : StreamRec) (n : Nat) : Nat := max 1 (ceilDiv (4 * listPages r n) 65536)

/-- The pages of one tail extent. -/
def tailSize (r : StreamRec) : Nat := ceilDiv (rowWidth r.bpt) 1024

/-- The data pages and tail extents a context names, for lists of `n` tokens. -/
def State.ctxPages (s : State) (p ctx n : Nat) : List Nat :=
  (s.pitchStreams p).flatMap fun r =>
    ((List.range (listPages r n)).map fun i => s.pageEntry p ctx r.stream i).filter (· ≠ noPage)
      ++ (if r.kv = 1 then
          [0, 1].flatMap fun sel =>
            let g := s.tailPage p ctx r.stream sel
            if g = noPage then [] else (List.range (tailSize r)).map (g + ·)
        else [])

/-- The pages of its directory and lists. -/
def State.ctxFrame (s : State) (p ctx n : Nat) : List Nat :=
  let d := s.dirAt p ctx / 65536
  (List.range (max 1 (ceilDiv (16 * s.dirEntries) 65536))).map (d + ·)
    ++ (s.pitchStreams p).flatMap fun r =>
        let l := leNat (s.pitchRead p (s.dirAt p ctx + 16 * r.stream) 8) / 65536
        (List.range (listSize r n)).map (l + ·)

/-- The lowest context index not in use. -/
def ServeSt.freeCtx (x : ServeSt) : Option Nat := (List.range 1048576).find? fun c => (SMap.find? x.ctxs c).isNone

/-- One stream of a new context: its list of `n` tokens filled with no page, or with another context's entries, and the
tail extents of a value stream, new or the other's. -/
def State.ctxStream (s : State) (p dir n : Nat) (src : Option Nat) (r : StreamRec) : Option State :=
  match s.takeRun p (listSize r n) with
  | none => none
  | some (l, s) =>
    let s := s.pitchWrite p (dir + 16 * r.stream) (toLe 8 (65536 * l))
    let s := (List.range (listPages r n)).foldl (fun s i =>
        let e := match src with | some c => s.pageEntry p c r.stream i | none => noPage
        s.pitchWrite p (65536 * l + 4 * i) (toLe 4 e)) s
    if r.kv = 0 then some (s.pitchWrite p (dir + 16 * r.stream + 8) (toLe 4 noPage ++ toLe 4 noPage))
    else
      match src with
      | some c =>
        some (s.pitchWrite p (dir + 16 * r.stream + 8) (toLe 4 (s.tailPage p c r.stream 0) ++ toLe 4 (s.tailPage p c r.stream 1)))
      | none =>
        match s.takeRun p (tailSize r) with
        | none => none
        | some (t0, s) =>
          match s.takeRun p (tailSize r) with
          | none => none
          | some (t1, s) => some (s.pitchWrite p (dir + 16 * r.stream + 8) (toLe 4 t0 ++ toLe 4 t1))

/-- The streams of a new context in turn. -/
def State.ctxStreams : List StreamRec → State → Nat → Nat → Nat → Option Nat → Option State
  | [], s, _, _, _, _ => some s
  | r :: rs, s, p, dir, n, src =>
    match s.ctxStream p dir n src r with
    | some t => State.ctxStreams rs t p dir n src
    | none => none

/-- Makes a context for `n` tokens with a committed length: empty, or starting from another's lists, whose pages then count
one more; none where pages are wanting. -/
def State.makeCtx (s : State) (p ctx n len : Nat) (src : Option (Nat × Nat)) : Option State :=
  match s.takeRun p (max 1 (ceilDiv (16 * s.dirEntries) 65536)) with
  | none => none
  | some (d, t) =>
    let dir := 65536 * d
    let sel := match src with | some c => t.tailSel p c.1 | none => 0
    let shared := match src with | some c => t.ctxPages p c.1 c.2 | none => []
    let t := shared.foldl (fun t g => t.pageUp p g) t
    let t := (t.setCommitted p ctx len sel).setProvisional p ctx len
    let t := t.pitchWrite p (t.ctxAt p ctx + 8) (toLe 8 dir)
    match State.ctxStreams (t.pitchStreams p) t p dir n (src.map (·.1)) with
    | some t => some (t.onSrv p fun x => { x with ctxs := SMap.put x.ctxs ctx n })
    | none => none

/-- Releases a context: every page it names counts one less, its directory and lists are free (R266, R286). -/
def State.dropCtx (s : State) (p ctx : Nat) : State :=
  match SMap.find? (s.srv p).ctxs ctx with
  | none => s
  | some n =>
    let frame := s.ctxFrame p ctx n
    let s := (s.ctxPages p ctx n).foldl (fun s g => s.pageDown p g) s
    let s := frame.foldl (fun s g => s.setPageCount p g 0) s
    s.onSrv p fun x => { x with ctxs := SMap.drop x.ctxs ctx }

/-- The list entries that `t` tokens from `first` touch in a stream. -/
def touched (r : StreamRec) (first t : Nat) : List Nat :=
  let g := groupsPerPage (rowWidth r.bpt)
  let a := first / 32 / g
  let b := (first + t - 1) / 32 / g
  (List.range (b - a + 1)).map (a + ·)

/-- Writes entry `i` of a stream's page list. -/
def State.setEntry (s : State) (p ctx stream i g : Nat) : State :=
  s.pitchWrite p (leNat (s.pitchRead p (s.dirAt p ctx + 16 * stream) 8) + 4 * i) (toLe 4 g)

/-- Allocates the list entries that name no page (R281); false where no page is free. -/
def State.allocEntries : List (Nat × Nat) → State → Nat → Nat → Bool × State
  | [], s, _, _ => (true, s)
  | (stream, i) :: es, s, p, ctx =>
    if s.pageEntry p ctx stream i = noPage then
      match s.takeRun p 1 with
      | some (g, s) => State.allocEntries es (s.setEntry p ctx stream i g) p ctx
      | none => (false, s)
    else State.allocEntries es s p ctx

/-- The list entries a binding may write: its tokens' groups from the group of the committed length on. -/
def State.bindEntries (s : State) (p ctx first t : Nat) : List (Nat × Nat) :=
  let com := min first (s.committed p ctx)
  (s.pitchStreams p).flatMap fun r => (touched r (32 * (com / 32)) (first + t - 32 * (com / 32))).map fun i => (r.stream, i)

/-- Allocates every page that a binding may write (R281). -/
def State.allocFor (s : State) (p ctx first t : Nat) : Bool × State := State.allocEntries (s.bindEntries p ctx first t) s p ctx

/-- Whether a binding needs page copies first (R217, R282): an entry or tail extent it may write is shared. -/
def State.needsCopy (s : State) (p ctx first t : Nat) : Bool :=
  (s.bindEntries p ctx first t).any (fun e =>
      let g := s.pageEntry p ctx e.1 e.2
      g != noPage && decide (1 < s.pageCount p g))
    || (s.pitchStreams p).any fun r => r.kv == 1 && [0, 1].any fun sel =>
        let g := s.tailPage p ctx r.stream sel
        g != noPage && decide (1 < s.pageCount p g)

/-- One page's bytes copied to another. -/
def State.copyPage (s : State) (p a b : Nat) : State := s.pitchWrite p (65536 * b) (s.pitchRead p (65536 * a) 65536)

/-- PAGE_COPY (R282, R217): a shared page that a context names at entry `i` of a stream's list, or its tail extent `sel`,
is copied to free pages that it then names; only between the ready point and the boundary. -/
def State.pageCopy (s : State) (p ctx stream i : Nat) (sel : Option Nat) : State :=
  if s.frame.st != .running || !s.frame.readyPoint then s
  else match s.streamRec stream, SMap.find? (s.srv p).ctxs ctx with
    | some r, some _ =>
      match sel with
      | none =>
        let g := s.pageEntry p ctx stream i
        if g = noPage || s.pageCount p g ≤ 1 then s
        else match s.takeRun p 1 with
          | some (h, t) => ((t.copyPage p g h).setEntry p ctx stream i h).pageDown p g
          | none => s
      | some e =>
        let g := s.tailPage p ctx stream e
        if r.kv = 0 || g = noPage || s.pageCount p g ≤ 1 then s
        else match s.takeRun p (tailSize r) with
          | some (h, t) =>
            let t := (List.range (tailSize r)).foldl (fun t k => (t.copyPage p (g + k) (h + k)).pageDown p (g + k)) t
            t.pitchWrite p (t.dirAt p ctx + 16 * stream + 8 + 4 * e) (toLe 4 h)
          | none => s
    | _, _ => s

/-! The command's meaning. -/

/-- PAGE_COPY (R282). -/
def execPageCopy (pitch ctx stream i : Nat) (sel : Option Nat) (s : State) : Host.Outcome State Fault Refusal :=
  within (pitch < 16 && ctx < 1048576 && (match sel with | some e => decide (e < 2) | none => true))
    (s.pageCopy pitch ctx stream i sel)

end Sys2Proof.Machine
end

