-- ==== Sys2Proof/Machine/Requests.lean ====
section
/-!
DEFINITION. Submissions, registrations, cancels and the waymark table (08_serving R260 to R266, R283 to R291).
-/

namespace Sys2Proof.Machine

/-- This part's fabric part number. -/
def State.partNum (s : State) : Nat := s.fld F.PRT_PARTNUM_PART

/-- The slots of a pitch. -/
def State.pitchSlots (s : State) (p : Nat) : List SlotRec :=
  match s.frame.active with
  | some it => it.slots.filter fun r => r.pitch == p
  | none => []

/-- Whether a slot's entry stage is this part. -/
def SlotRec.entry (r : SlotRec) : Bool := bitsAt r.stages 0 1 == 1
/-- Whether its exit stage is. -/
def SlotRec.exit (r : SlotRec) : Bool := bitsAt r.stages 1 1 == 1

/-- Whether this part is an entry part of a pitch. -/
def State.isEntry (s : State) (p : Nat) : Bool := (s.pitchSlots p).any (·.entry)
/-- Whether it is an exit part. -/
def State.isExit (s : State) (p : Nat) : Bool := (s.pitchSlots p).any (·.exit)

/-! Submissions (R261, R302). -/

/-- Reads a descriptor (Table 9-5); none where R302 or Table 8-1 refuses it. -/
def parseSubmission (part : Nat) (d : Bytes) : Option Submission :=
  let fl := fieldAt d 1 1
  let entry := bitsAt fl 0 1 == 1
  let exit := bitsAt fl 1 1 == 1
  let cust := fieldAt d 2 2
  let partner := fieldAt d 4 2
  let plen := fieldAt d 24 4
  let mnew := fieldAt d 28 4
  let addr := fieldAt d 32 8
  let ok := fieldAt d 0 1 == 1 && bitsAt fl 5 3 == 0 && (entry || exit) && decide (cust < 4096) && fieldAt d 6 2 == 0
    && fieldAt d 8 8 != 0 && decide (1 ≤ plen) && decide (plen ≤ 16777216) && decide (mnew ≤ 16777215)
    && fieldAt d 88 40 == 0 && !(entry && exit && partner != part)
    && (!entry || (bitsAt fl 3 2 != 3 && addr % 4 == 0))
  if ok then
    some { entry := entry, exit := exit, shared := entry && bitsAt fl 2 1 == 1, wmAt := if entry then bitsAt fl 3 2 else 0,
           customer := cust, partner := partner, tag := fieldAt d 8 8, waymark := if entry then fieldAt d 16 8 else 0,
           promptLen := plen, maxNew := mnew, promptAddr := addr,
           stops := if exit then (List.range 4).map fun i => fieldAt d (40 + 4 * i) 4 else [],
           sampling := if exit then slice d 56 32 else [] }
  else none

/-- The request of a tag. -/
def ServeSt.req (x : ServeSt) (tag : Nat) : Option Req := x.reqs.find? fun r => r.sub.tag == tag

/-- Changes the request of a tag. -/
def ServeSt.onReq (x : ServeSt) (tag : Nat) (f : Req → Req) : ServeSt :=
  { x with reqs := x.reqs.map fun r => if r.sub.tag = tag then f r else r }

/-! The waymark table (R287, R288). -/

/-- The active region of a table state (Table 8-9a). -/
def activeRegion (st : Nat) : Nat := if st = 0 || st = 3 then 0 else 1

/-- The old region of a rebuild. -/
def oldRegion (st : Nat) : Option Nat := if st = 1 then some 0 else if st = 3 then some 1 else none

/-- The two candidate groups of a handle. -/
def wmGroups (h : Nat) : List Nat := [h % 2 ^ 18, bitsAt h 18 18]

/-- The place of an entry. -/
def wmKey (region group k : Nat) : Nat := 2097152 * region + 8 * group + k

/-- The places where a handle may stand in a region, first candidate group first. -/
def wmPlaces (region h : Nat) : List Nat := (wmGroups h).flatMap fun g => (List.range 8).map (wmKey region g)

/-- An entry of the table. -/
def ServeSt.entry (x : ServeSt) (k : Nat) : Waymark := SMap.get .empty x.table k

/-- Writes an entry. -/
def ServeSt.setEntry (x : ServeSt) (k : Nat) (w : Waymark) : ServeSt := { x with table := SMap.set .empty x.table k w }

/-- The place of a live handle: in the active region, then in the old one (R288). -/
def ServeSt.wmFind (x : ServeSt) (h : Nat) : Option Nat :=
  let at' (region : Nat) := (wmPlaces region h).find? fun k => (x.entry k).state == 1 && (x.entry k).handle == h
  match at' (activeRegion x.tableState) with
  | some k => some k
  | none => (oldRegion x.tableState).bind at'

/-- The first empty place of a handle in a region. -/
def ServeSt.wmPlace (x : ServeSt) (region h : Nat) : Option Nat :=
  (wmPlaces region h).find? fun k => (x.entry k).state == 0

/-- Live waymarks. -/
def ServeSt.wmLive (x : ServeSt) : List (Nat × Waymark) := x.table.filter fun e => e.2.state == 1

/-- DEAD entries of the active region. -/
def ServeSt.wmDead (x : ServeSt) : Nat :=
  (x.table.filter fun e => e.2.state == 2 && e.1 / 2097152 == activeRegion x.tableState).length

/-! Checks of a submission (R261, Table 8-4). -/

/-- What a request reserves (R280). -/
def ServeSt.reservation (x : ServeSt) (sub : Submission) : Nat :=
  ceilDiv (sub.promptLen + sub.maxNew) 256 * 256 + x.overhead

/-- The waymark a submission names, if it may present it (R284). -/
def ServeSt.presented (x : ServeSt) (sub : Submission) : Option Waymark :=
  (x.wmFind sub.waymark).bind fun k =>
    let w := x.entry k
    if w.shared || w.customer = sub.customer then some w else none

/-- The prefix a submission starts from. -/
def ServeSt.prefixOf (x : ServeSt) (sub : Submission) : Nat :=
  if sub.waymark = 0 then 0 else match x.presented sub with | some w => w.len | none => 0

/-- The refusal a submission meets, the rows of Table 8-4 in order; none where it is accepted. -/
def State.submitCheck (s : State) (p : Nat) (sub : Submission) : Option Nat :=
  let x := s.srv p
  if (x.req sub.tag).isSome then some 0x11
  else if s.frame.st = .empty || s.mgr.withdrawn || s.mgr.pitchOut.contains p then some 0x12
  else if (sub.entry && !s.isEntry p) || (sub.exit && !s.isExit p) then some 0x13
  else if 16777216 < x.prefixOf sub + sub.promptLen + sub.maxNew then some 0x14
  else if sub.waymark ≠ 0 && (x.presented sub).isNone then some 0x15
  else if 1048576 ≤ x.reqs.length + x.wmLive.length then some 0x16
  else if sub.entry && decide (x.capacity < x.reservation sub) then some 0x17
  else none

/-- A completion without a token. -/
def plainCompletion (tag frame position generated status : Nat) : Completion :=
  { tag := tag, waymark := 0, frame := frame, position := position, token := none, aux := 0, generated := generated,
    status := status, wmFailed := false }

/-- Posts a refusal on the queue that carried the submission (R304). -/
def State.refuse (s : State) (p q tag status : Nat) : State :=
  (s.onCounts p fun c => { c with refused := sat32 (c.refused + 1) }).postEntry q (plainCompletion tag 0 0 0 status)

/-- A request as it is accepted (R262, R284). -/
def newReq (sub : Submission) (q prefixLen : Nat) (partnered : Bool) : Req :=
  { sub := sub, queue := q, phase := .pending, waited := 0, partnered := partnered, order := 0, lastRun := 0, age := 0,
    urgent := false, prefixLen := prefixLen, done := 0, generated := 0, lastToken := 0, ctx := none, reserved := 0,
    pageFails := 0, readFails := 0, gaveUp := false, held := false, rationOk := false,
    refDue := sub.entry && sub.waymark != 0, ending := none }

/-- Removes a request with its context (R266). -/
def State.removeReq (s : State) (p tag : Nat) : State :=
  match (s.srv p).req tag with
  | none => s
  | some r =>
    let s := match r.ctx with | some c => s.dropCtx p c | none => s
    s.onSrv p fun x => { x with reqs := x.reqs.filter fun r => r.sub.tag != tag }

/-- Where a request stands in its context: its committed length. -/
def Req.length (r : Req) : Nat := r.prefixLen + r.done + r.generated - min r.generated 1

/-- A request ends with a status (Table 8-4): the exit part posts it, or the part itself while it is pending; its context
is released. -/
def State.endReq (s : State) (p tag status : Nat) : State :=
  match (s.srv p).req tag with
  | none => s
  | some r =>
    let s := if r.sub.exit || r.phase = .pending then
        s.postEntry r.queue (plainCompletion tag s.frame.number r.length r.generated status)
      else s
    (s.onCounts p fun c => { c with ended := sat32 (c.ended + 1) }).removeReq p tag

/-- Whether a registration agrees with a submission (R262). -/
def HeldReg.agrees (g : HeldReg) (sub : Submission) : Bool :=
  g.customer == sub.customer && g.promptLen == sub.promptLen && g.maxNew == sub.maxNew

/-- Accepts a submission: it is pending, registered at its partner, matched with a registration already held (R262). -/
def State.accept (s : State) (p q : Nat) (sub : Submission) : State :=
  let x := s.srv p
  let alone := sub.entry && sub.exit
  let held := x.regs.find? fun g => g.tag == sub.tag
  let ok := match held with | some g => g.agrees sub | none => false
  let s := s.onSrv p fun x => { x with
    reqs := x.reqs ++ [newReq sub q (x.prefixOf sub) (alone || ok)]
    regs := x.regs.filter fun g => g.tag != sub.tag }
  let s := if alone then s else s.sendMsg sub.partner 0x0101 [p, sub.tag, sub.customer, sub.promptLen, sub.maxNew]
  if held.isSome && !ok && !alone then s.endReq p sub.tag 0x10 else s

/-- SUBMIT: the next submission copied from a queue is checked and accepted or refused (R261); none is taken while a
refusal of the queue waits (R306), or from a queue that is in ERROR or drains (R316, R320; log entry 82). -/
def State.submit (s : State) (q : Nat) : State :=
  let x := s.queue q
  let runs := match s.owner q with | some k => s.rcoreRuns k | none => false
  match x.copied with
  | [] => s
  | d :: rest =>
    if s.qState q ≠ qActive || !runs || x.waiting.any (·.refusal) then s
    else
      let p := s.qPitch q
      let s := s.setQueue q { x with copied := rest }
      let s := s.onCounts p fun c => { c with submitted := sat32 (c.submitted + 1) }
      match parseSubmission s.partNum d with
      | none => s.refuse p q (fieldAt d 8 8) 0x10
      | some sub =>
        match s.submitCheck p sub with
        | some e => s.refuse p q sub.tag e
        | none => s.accept p q sub

/-- A firmware message reaches the part (R333: identity 299). -/
def State.msgIn (s : State) : State := s.raiseBoth irqFabric

/-- REGISTER: a partner's registration is matched, or held for a submission not yet accepted (R262). -/
def State.register (s : State) (p tag customer promptLen maxNew : Nat) : State :=
  let s := s.msgIn
  let g : HeldReg := ⟨tag, customer, promptLen, maxNew, 0⟩
  match (s.srv p).req tag with
  | none => s.onSrv p fun x => { x with regs := (x.regs.filter fun h => h.tag != tag) ++ [g] }
  | some r =>
    if r.phase ≠ .pending || (r.sub.entry && r.sub.exit) then s
    else if g.agrees r.sub then s.onSrv p fun x => x.onReq tag fun r => { r with partnered := true }
    else s.endReq p tag 0x10

/-- PARTNER_TIMEOUT: a submission that has waited PARTNER_TIMEOUT frames ends with NO_PARTNER (R262). -/
def State.partnerTimeout (s : State) (p tag : Nat) : State :=
  match (s.srv p).req tag with
  | some r =>
    if r.phase = .pending && !r.partnered && decide ((s.srv p).partnerTimeout ≤ r.waited) then s.endReq p tag 0x08 else s
  | none => s

/-! Cancels (R265). -/

/-- A cancel reaches the part; one that names no request is counted as REFUSED. -/
def State.cancelHere (s : State) (p tag : Nat) : State :=
  if ((s.srv p).req tag).isNone then s.onCounts p fun c => { c with refused := sat32 (c.refused + 1) }
  else s.onSrv p fun x => { x with cancels := x.cancels ++ [(tag, s.now)] }

/-- A cancel made at this part, passed on to the partner. -/
def State.cancelReq (s : State) (p tag : Nat) : State :=
  match (s.srv p).req tag with
  | some r => if r.sub.entry && r.sub.exit then s.cancelHere p tag else (s.cancelHere p tag).sendMsg r.sub.partner 0x0103 [p, tag]
  | none => s.cancelHere p tag

/-- The open requests of a queue. -/
def State.queueReqs (s : State) (q : Nat) : List (Nat × Nat) :=
  let p := s.qPitch q
  ((s.srv p).reqs.filter fun r => r.queue == q).map fun r => (p, r.sub.tag)

/-- QUEUE_DRAIN: a write of 0 to ENABLE (R320). -/
def State.queueDrain (s : State) (path : Path) : State :=
  let w := s.ownWrite path roleOpr false (qCtlAddr path)
  match s.selectedQueue path with
  | none => w.2
  | some q =>
    let s := w.2
    if !w.1 || !(s.qState q == qActive || s.qState q == qError) then s
    else
      let s := (s.setFld F.HIF_Q_STATUS_STATE qDraining q).countQueues (s.qFn q)
      (s.queueReqs q).foldl (fun s r => s.cancelReq r.1 r.2) s

/-! Prompt reads (R308) and failed host reads (R316). -/

/-- A prompt read fails: after the fourth failure the request is given up and HOST_READ_FAULT posted (R308). -/
def State.promptFails (s : State) (p tag kind : Nat) : State :=
  match (s.srv p).req tag with
  | none => s
  | some r =>
    let n := r.readFails + 1
    let s := s.onSrv p fun x => x.onReq tag fun r => { r with readFails := n, gaveUp := r.gaveUp || decide (4 ≤ n) }
    if n = 4 then s.postTo (s.qFn r.queue) 0x0001 [tag, s.fld F.HIF_Q_FN_LOCAL r.queue, kind] else s

/-- A read of host memory ends in an error (Table 9-12): kind 1 timeout, 2 Unsupported Request, 3 Completer Abort,
4 poisoned. -/
def State.hostReadFails (s : State) (r : HostRead) (kind : Nat) : State :=
  let s := if kind = 4 then s.count F.HIF_POISONCNT else s.count F.HIF_CPLTOCNT
  match r with
  | .doorbell => s
  | .submission q =>
    let x := s.queue q
    if s.qState q ≠ qActive then s
    else if x.readFails = 0 then s.setQueue q { x with readFails := 1 }
    else s.queueError q 0x11
  | .prompt p tag => s.promptFails p tag kind

/-! The commands' meanings. -/

/-- The codes of the pitch commands of Table 10-3, at a role. -/
def pitchCmd (code role : Nat) (lenOk : Bool := true) (payload : Bool := false) : CmdRule := ⟨code, false, role, lenOk, payload⟩
/-- The codes of the part-wide commands. -/
def partCmd (code role : Nat) (lenOk : Bool := true) (payload : Bool := false) : CmdRule := ⟨code, true, role, lenOk, payload⟩

/-- Whether a command comes from a function of the part. -/
def Mgmt.ok (c : Mgmt) : Bool := decide (c.fn ≤ 16)

/-- SUBMIT (R261). -/
def execSubmit (q : Nat) (s : State) : Host.Outcome State Fault Refusal := within (q < queueCount) (s.submit q)
/-- REGISTER (R262). -/
def execRegister (pitch tag customer promptLen maxNew : Nat) (s : State) : Host.Outcome State Fault Refusal :=
  within (pitch < 16) (s.register pitch tag customer promptLen maxNew)
/-- PARTNER_TIMEOUT (R262). -/
def execPartnerTimeout (pitch tag : Nat) (s : State) : Host.Outcome State Fault Refusal :=
  within (pitch < 16) (s.partnerTimeout pitch tag)
/-- CANCEL (R265, Table 10-3). -/
def execCancel (c : Mgmt) (tag : Nat) (s : State) : Host.Outcome State Fault Refusal :=
  within c.ok (s.mgmt c (pitchCmd 0x40 roleOpr) (tag % 2 ^ 32) fun s => (s.cancelReq c.on tag).answer c 0x40 0 (tag % 2 ^ 32))
/-- CANCEL_MESSAGE (R265). -/
def execCancelMessage (pitch tag : Nat) (s : State) : Host.Outcome State Fault Refusal :=
  within (pitch < 16) (s.msgIn.cancelHere pitch tag)
/-- QUEUE_DRAIN (R320). -/
def execQueueDrain (path : Path) (s : State) : Host.Outcome State Fault Refusal := within path.ok (s.queueDrain path)
/-- COMPLETION_TIMEOUT (R316). -/
def execCompletionTimeout (read : HostRead) (kind : Nat) (s : State) : Host.Outcome State Fault Refusal :=
  within (match read with | .doorbell => true | .submission q => decide (q < queueCount) | .prompt p _ => decide (p < 16))
    (s.hostReadFails read kind)

end Sys2Proof.Machine
end

