-- ==== Sys2Proof/Machine/Binding.lean ====
section
/-!
DEFINITION. Choosing requests for each frame, rations, binding notices and exit reports (08_serving R267 to R282).
-/

namespace Sys2Proof.Machine

/-! What a request will be once this frame commits (R270). -/

/-- Whether a committed token ends a request (Table 8-2): a STOP value, or the model's end token. -/
def Submission.ends (sub : Submission) (token aux : Nat) : Bool :=
  sub.stops.any (fun t => t == token && t != 0xFFFFFFFF) || bitsAt aux 31 1 == 1

/-- A binding's progress applied to its request: none where the request ends (with its status), given whether its token is
an end token; a request whose prompt is now whole waits for a generation slot. -/
def Req.advance (r : Req) (b : Bind) (ended : Bool) : Option Nat × Req :=
  if r.done < r.sub.promptLen then
    let d := r.done + b.tokens
    if d < r.sub.promptLen then (none, { r with done := d, phase := .prompting })
    else if r.sub.maxNew = 0 then (some 0x03, { r with done := d, phase := .prompting })
    else
      let r := { r with done := d, generated := 1, phase := .genWait }
      (if ended then some 0x01 else if r.sub.maxNew = 1 then some 0x02 else none, r)
  else
    let r := { r with generated := r.generated + 1, phase := .generating }
    (if ended then some 0x01 else if r.generated = r.sub.maxNew then some 0x02 else none, r)

/-- The token a bound exit slot holds in this frame: at this part, or as the exit part reported it. -/
def State.slotToken (s : State) (p slot : Nat) : Option (Nat × Nat) :=
  match SMap.find? s.net.exitTokens slot with
  | some t => some t
  | none => ((s.srv p).report.bind fun l => l.find? fun i => i.slot == slot).map fun i => (i.token, i.aux)

/-- Whether a slot's token ends its request. -/
def State.slotEnds (s : State) (p : Nat) (r : Req) (slot : Nat) : Bool :=
  match (s.srv p).report.bind fun l => l.find? fun i => i.slot == slot with
  | some i => i.ended
  | none => match s.slotToken p slot with | some (t, a) => r.sub.ends t a | none => false

/-- Requests in open order. -/
def openOrder (rs : List Req) : List Req := rs.mergeSort fun a b => decide (a.order ≤ b.order)

/-- The generation slots of a pitch whose entry stage is this part (R275). -/
def State.genSlots (s : State) (p : Nat) : List SlotRec := (s.pitchSlots p).filter fun r => r.entry && r.kind == 1

/-- Its prompt chunk slots. -/
def State.chunkSlots (s : State) (p : Nat) : List SlotRec := (s.pitchSlots p).filter fun r => r.entry && r.kind == 2

/-- Requests whose prompt is now whole take the generation slots that are free, in open order (Table 8-2). -/
def promote (ngen : Nat) (fresh : List Nat) (rs : List Req) : List Req :=
  let used := (rs.filter fun r => r.phase == .generating).length
  let lucky := ((openOrder (rs.filter fun r => r.phase == .genWait && fresh.contains r.sub.tag)).take (ngen - used)).map (·.sub.tag)
  rs.map fun r => if lucky.contains r.sub.tag then { r with phase := .generating } else r

/-- The open requests as they will stand after this frame's commit, with whether each is bound in this frame. -/
def State.projected (s : State) (p : Nat) : List (Req × Bool) :=
  let x := s.srv p
  let step := x.reqs.filterMap fun r =>
    if r.phase = .pending then none
    else match x.binds.find? fun b => b.tag == r.sub.tag with
      | none => some (r, false)
      | some b =>
        if x.failed.contains r.sub.tag then some (r, true)
        else match r.advance b (s.slotEnds p r b.slot) with
          | (some _, _) => none
          | (none, r') => some (r', true)
  let fresh := (step.filter fun q => q.2 && q.1.phase == .genWait && q.1.generated == 1).map (·.1.sub.tag)
  let rs := promote (s.genSlots p).length fresh (step.map (·.1))
  rs.zip (step.map (·.2))

/-! Selection (R272, R275 to R279). -/

/-- What a selection has chosen so far: bindings, tokens pending by customer, bindings that need copies, chunk tokens given
to urgent requests, requests counted against the start limit, requests passed over for the frame (R276), and the counters it
moves. -/
structure Sel where
  binds : List Bind
  pend : SMap Nat
  copies : Nat
  given : Nat
  counted : Nat
  passed : List Nat
  rationWait : Nat
  genWait : Nat
  copyWait : Nat
  stalled : Nat
  allowed : List Nat
  ctxs : List (Nat × Nat)
  reserved : Nat

/-- The ration of a customer. -/
def ServeSt.ration (x : ServeSt) (c : Nat) : Ration := SMap.get .init x.rations c

/-- Whether a ration allows a binding (R272): a chunk of `n` tokens, or a generation step. -/
def Ration.allows (r : Ration) (pending n : Nat) (gen : Bool) : Bool :=
  r.unlimited || (if gen then decide (1 - (r.overdraft : Int) ≤ r.budget - pending) else decide ((n : Int) ≤ r.budget - pending))

/-- The copies that may be under way in a frame, K of R282. -/
def copyLimit (tNomUs : Nat) : Nat := 8 * ((125 * tNomUs / 1000 - 20) / 2)

/-- Whether selection may consider a request at all. -/
def State.mayBind (s : State) (p : Nat) (r : Req) : Bool :=
  !r.gaveUp && r.ending.isNone && !r.refDue && (r.ctx.isSome || r.sub.waymark == 0) && ((s.srv p).ration r.sub.customer).enabled

/-- Whether the exit part holds a completion of a request (R306). -/
def State.reqHeld (s : State) (r : Req) : Bool :=
  r.held || (r.sub.exit && (s.queue r.queue).waiting.any fun c => c.tag == r.sub.tag && !c.refusal)

/-- The slots no binding has taken. -/
def Sel.free (x : Sel) (rs : List SlotRec) : List SlotRec := rs.filter fun r => !x.binds.any fun b => b.slot == r.slot

/-- One binding tried: the holds, the ration, the reservation of a first binding, the copy limit; then it is made.  A request that
fails one of them is passed over for the frame. -/
def State.tryBind (s : State) (p : Nat) (x : Sel) (q : Req × Bool) (slot : SlotRec) (tokens : Nat) (gen : Bool) : Sel :=
  let r := q.1
  let v := s.srv p
  let pend := SMap.get 0 x.pend r.sub.customer
  let pos := r.length
  let copy := match r.ctx with | some c => s.needsCopy p c pos tokens | none => false
  let need := if r.reserved = 0 then v.reservation r.sub else 0
  let ctx := match r.ctx with
    | some c => some c
    | none => (List.range 1048576).find? fun c => (SMap.find? v.ctxs c).isNone && !x.ctxs.any fun e => e.2 == c
  let past := { x with passed := x.passed ++ [r.sub.tag] }
  if s.reqHeld r then { past with stalled := x.stalled + 1 }
  else if !(v.ration r.sub.customer).allows pend tokens gen then { past with rationWait := x.rationWait + 1 }
  else if v.capacity < x.reserved + need then { past with allowed := x.allowed ++ [r.sub.tag] }
  else if copy && decide (copyLimit ((s.frame.active.map (·.tNomUs)).getD 0) ≤ x.copies) then
    { past with copyWait := x.copyWait + 1, allowed := x.allowed ++ [r.sub.tag] }
  else match ctx with
    | none => { past with allowed := x.allowed ++ [r.sub.tag] }
    | some c =>
      let last := decide (r.done < r.sub.promptLen) && decide (r.sub.promptLen ≤ r.done + tokens) && decide (0 < r.sub.maxNew)
      let debit := tokens + if last then 1 else 0
      { x with
        binds := x.binds ++ [{ slot := slot.slot, tag := r.sub.tag, ctx := c, pos := pos, tokens := tokens, gen := gen,
                               debit := debit, dep := q.2, noPage := false, wm := r.sub.waymark }]
        pend := SMap.set 0 x.pend r.sub.customer (pend + debit)
        copies := if copy then x.copies + 1 else x.copies
        counted := if r.phase = .queued then x.counted + 1 else x.counted
        allowed := x.allowed ++ [r.sub.tag]
        ctxs := if r.ctx.isNone then x.ctxs ++ [(r.sub.tag, c)] else x.ctxs
        reserved := x.reserved + need }

/-- Whether a request has been bound in this selection. -/
def Sel.has (x : Sel) (r : Req) : Bool := x.binds.any fun b => b.tag == r.sub.tag

/-- Whether a request has been bound or passed over. -/
def Sel.done (x : Sel) (r : Req) : Bool := x.has r || x.passed.contains r.sub.tag

/-- A generation binding (R276 step 1): the lowest free generation slot. -/
def State.bindGen (s : State) (p : Nat) (x : Sel) (q : Req × Bool) : Sel :=
  if !s.mayBind p q.1 || x.done q.1 then x
  else match x.free (s.genSlots p) with
    | slot :: _ => s.tryBind p x q slot 1 true
    | [] => if q.1.phase = .genWait then { x with genWait := x.genWait + 1 } else x

/-- The prompt tokens a request has still to commit. -/
def Req.left (r : Req) : Nat := r.sub.promptLen - r.done

/-- Whether only tail tokens are left (R278): fewer than the smallest free chunk slot holds, or than every chunk slot. -/
def State.tailOnly (s : State) (p : Nat) (x : Sel) (r : Req) : Bool :=
  let fr := x.free (s.chunkSlots p)
  ((s.chunkSlots p).all fun c => decide (r.left < c.tokens)) || (!fr.isEmpty && fr.all fun c => decide (r.left < c.tokens))

/-- The largest free chunk slot that a request can fill. -/
def State.chunkFor (s : State) (p : Nat) (x : Sel) (r : Req) : Option SlotRec :=
  (x.free (s.chunkSlots p)).foldl (fun (b : Option SlotRec) c =>
      if r.left < c.tokens then b
      else match b with
        | some d => if d.tokens < c.tokens then some c else b
        | none => some c) none

/-- A chunk binding (R278): a chunk slot, or a generation slot for tail tokens. -/
def State.bindChunk (s : State) (p : Nat) (x : Sel) (q : Req × Bool) : Sel :=
  if !s.mayBind p q.1 || x.done q.1 then x
  else if s.tailOnly p x q.1 then
    match x.free (s.genSlots p) with
    | slot :: _ => s.tryBind p x q slot 1 true
    | [] => x
  else match s.chunkFor p x q.1 with
    | some slot => s.tryBind p x q slot slot.tokens false
    | none => x

/-- The tokens that the newest binding of a selection took. -/
def Sel.taken (x y : Sel) : Nat := if x.binds.length < y.binds.length then (y.binds.getLast?.map (·.tokens)).getD 0 else 0

/-- Step 2 of R276: urgent prompts up to an eighth of the prompt capacity. -/
def State.urgentStep (s : State) (p pcap : Nat) (x : Sel) (q : Req × Bool) : Sel :=
  if ceilDiv pcap 8 ≤ x.given then x
  else
    let y := s.bindChunk p x q
    { y with given := y.given + x.taken y }

/-- Step 3 for a queued request: within the start limit, which an urgent one does not meet (R275). -/
def State.queuedStep (s : State) (p : Nat) (x : Sel) (q : Req × Bool) : Sel :=
  if x.counted < (s.genSlots p).length || q.1.urgent then s.bindChunk p x q else x

/-- Requests of a list in open order. -/
def inOrder (rs : List (Req × Bool)) : List (Req × Bool) := rs.mergeSort fun a b => decide (a.1.order ≤ b.1.order)

/-- Tokens pending by customer from bindings. -/
def pendingOf (x : ServeSt) (bs : List Bind) (m : SMap Nat) : SMap Nat :=
  bs.foldl (fun m b =>
      match x.req b.tag with
      | some r => SMap.set 0 m r.sub.customer (SMap.get 0 m r.sub.customer + b.debit)
      | none => m) m

/-- What the open requests and live waymarks of a pitch reserve (R280). -/
def ServeSt.reservedTokens (x : ServeSt) : Nat :=
  x.reqs.foldl (fun n r => n + r.reserved) 0 + x.wmLive.foldl (fun n e => n + e.2.reserved) 0

/-- The bindings for the next frame (R276). -/
def State.choose (s : State) (p : Nat) : Sel :=
  let v := s.srv p
  let rs := s.projected p
  let by' (f : Req → Bool) := inOrder (rs.filter fun q => f q.1)
  let gen := (by' fun r => r.phase == .generating).mergeSort fun a b =>
    decide (a.1.lastRun < b.1.lastRun) || (a.1.lastRun == b.1.lastRun && decide (a.1.order ≤ b.1.order))
  let pcap := (s.chunkSlots p).foldl (fun n r => n + r.tokens) 0
  let started := (rs.filter fun q => q.1.phase != .queued).length
  let x : Sel := { binds := [], pend := pendingOf v (v.binds.filter fun b => !v.failed.contains b.tag) [], copies := 0, given := 0,
                   counted := started, passed := [], rationWait := 0, genWait := 0, copyWait := 0, stalled := 0, allowed := [], ctxs := [],
                   reserved := v.reservedTokens }
  let x := gen.foldl (s.bindGen p) x
  let x := (by' fun r => r.phase == .genWait).foldl (s.bindGen p) x
  let x := (by' fun r => r.phase == .prompting).foldl (fun x q => if s.tailOnly p x q.1 then s.bindGen p x q else x) x
  let urgent := (by' fun r => r.phase == .queued && r.urgent).mergeSort fun a b =>
    decide (b.1.age < a.1.age) || (a.1.age == b.1.age && decide (a.1.order ≤ b.1.order))
  let x := urgent.foldl (s.urgentStep p pcap) x
  let x := (by' fun r => r.phase == .prompting).foldl (s.bindChunk p) x
  (by' fun r => r.phase == .queued).foldl (s.queuedStep p) x

/-- The smallest binding a queued request could have taken (R277), in tokens. -/
def State.smallest (s : State) (p : Nat) (r : Req) : Nat × Bool :=
  match ((s.chunkSlots p).filter fun c => decide (c.tokens ≤ r.left)).map (·.tokens) with
  | [] => (1, true)
  | t :: ts => (ts.foldl min t, false)

/-- Selection's marks on a request: bound requests lose their urgency and age, take their context and reservation; whether
the ration of an unbound queued one would have allowed its smallest binding. -/
def State.markReq (s : State) (p : Nat) (x : Sel) (frame : Nat) (r : Req) : Req :=
  let v := s.srv p
  if x.has r then
    { r with urgent := false, age := 0, lastRun := frame, rationOk := false,
             ctx := match r.ctx with | some c => some c | none => (x.ctxs.find? fun e => e.1 == r.sub.tag).map (·.2),
             reserved := if r.reserved = 0 then v.reservation r.sub else r.reserved }
  else
    let m := s.smallest p r
    { r with rationOk := r.phase == .queued && s.mayBind p r
               && (x.allowed.contains r.sub.tag || (v.ration r.sub.customer).allows (SMap.get 0 x.pend r.sub.customer) m.1 m.2) }

/-! Notices (R267, R268, R281). -/

/-- One bound slot of a notice: its context is made where the part has none under that index, and its pages are allocated;
a slot that finds no page is marked, reported to the manager (WITHHOLD) and counted. -/
def State.placeBind (s : State) (p : Nat) (b : Bind) : State × Bind :=
  let s :=
    if (SMap.find? (s.srv p).ctxs b.ctx).isSome then s
    else
      let n := match (s.srv p).req b.tag with
        | some r => min 16777216 (r.prefixLen + r.sub.promptLen + r.sub.maxNew)
        | none => 16777216
      let src := ((s.srv p).wmFind b.wm).map fun k => (((s.srv p).entry k).ctx, ((s.srv p).entry k).len)
      (s.makeCtx p b.ctx n (if src.isSome then b.pos else 0) (if b.wm = 0 then none else src)).getD s
  let have_ := (SMap.find? (s.srv p).ctxs b.ctx).isSome
  let r := if have_ then s.allocFor p b.ctx b.pos b.tokens else (false, s)
  if r.1 then (r.2, b)
  else
    let s := r.2.onCounts p fun c => { c with pageFail := sat32 (c.pageFail + 1) }
    (s.withholdNotice (s.frame.number + 1) 3 [b.slot], { b with noPage := true })

/-- The bindings of a notice in turn. -/
def State.placeBinds (s : State) (p : Nat) (bs : List Bind) : State × List Bind :=
  bs.foldl (fun (a : State × List Bind) b => let r := a.1.placeBind p b; (r.1, a.2 ++ [r.2])) (s, [])

/-- A part without the entry stage learns a request's waymark prefix from the position of its first binding (R267). -/
def ServeSt.learnPrefix (x : ServeSt) (bs : List Bind) : ServeSt :=
  { x with reqs := x.reqs.map fun r =>
      if r.sub.entry || r.done != 0 || x.binds.any (fun b => b.tag == r.sub.tag) then r
      else match bs.find? fun b => b.tag == r.sub.tag with
        | some b => { r with prefixLen := b.pos }
        | none => r }

/-- A notice for the next frame: bindings and pages, and the handles it announces (R267). -/
def State.takeNotice (s : State) (p frame : Nat) (bs : List Bind) (wm : List (Nat × Nat)) : State :=
  let r := (s.onSrv p fun x => x.learnPrefix bs).placeBinds p bs
  r.1.onSrv p fun x => { x with next := r.2, nextFrame := some frame, wmDue := wm }

/-- The fields of a notice as a message. -/
def noticeFields (p frame : Nat) (bs : List Bind) : List Nat :=
  [p, frame] ++ bs.flatMap fun b => [b.slot, b.ctx, b.tag, b.pos, if b.dep then 1 else 0]

/-- BINDING_SELECTION (R268, R276): from 4 µs after the ready point, at an entry part whose firmware runs. -/
def State.selection (s : State) (p : Nat) : State :=
  if s.frame.st != .running || !s.frame.readyPoint || s.holder = 0 || s.paused || !s.isEntry p || !s.pitchOn p
      || decide (s.frameNs < 875 * s.frame.tNom / 1000 + 4000) || (s.srv p).nextFrame == some (s.frame.number + 1)
      || s.mgr.withdrawn || s.mgr.pitchOut.contains p then s
  else
    let x := s.choose p
    let frame := s.frame.number + 1
    let s := s.count F.HIF_CQSTALLCNT x.stalled
    let s := s.onSrv p fun v => { v with
      reqs := v.reqs.map (s.markReq p x frame)
      counts := { v.counts with
        rationWait := sat32 (v.counts.rationWait + x.rationWait), genSlotWait := sat32 (v.counts.genSlotWait + x.genWait),
        copyWait := sat32 (v.counts.copyWait + x.copyWait) } }
    let others := (s.srv p).pipeline.filter (· != s.partNum)
    let s := others.foldl (fun (s : State) part => s.sendMsg part 0x0102 (noticeFields p frame x.binds)) s
    s.takeNotice p frame x.binds []

/-- BINDING_NOTICE (R267): a notice for the next frame arrives. -/
def State.notice (s : State) (p frame : Nat) (bs : List Bind) (wm : List (Nat × Nat)) : State :=
  let s := s.msgIn
  if s.frame.st = .running && frame = s.frame.number + 1 then s.takeNotice p frame bs wm else s

/-- EXIT_REPORT (R268): the exit part's tokens and ends of the present frame arrive. -/
def State.exitReport (s : State) (p frame : Nat) (items : List ExitItem) : State :=
  let s := s.msgIn
  if s.frame.st = .running && frame = s.frame.number then
    s.onSrv p fun x => { x with report := some (x.report.getD [] ++ items) }
  else s

/-! The commands' meanings. -/

/-- BINDING_SELECTION (R276). -/
def execBindingSelection (pitch : Nat) (s : State) : Host.Outcome State Fault Refusal := within (pitch < 16) (s.selection pitch)
/-- BINDING_NOTICE (R267). -/
def execBindingNotice (pitch frame : Nat) (binds : List Bind) (handles : List (Nat × Nat)) (s : State) :
    Host.Outcome State Fault Refusal :=
  within (pitch < 16) (s.notice pitch frame binds handles)
/-- EXIT_REPORT (R268). -/
def execExitReport (pitch frame : Nat) (items : List ExitItem) (s : State) : Host.Outcome State Fault Refusal :=
  within (pitch < 16) (s.exitReport pitch frame items)

end Sys2Proof.Machine
end

