-- ==== Sys2Proof/Machine/Engine.lean ====
section
/-!
DEFINITION. The signature engine's queue (15_update_and_roles R496).
-/

namespace Sys2Proof.Machine

/-- Places the engine holds beside the request it serves. -/
def engineHeld : Nat := 4

/-- Sets the engine; QUEUED shows the requests held. -/
def State.setEngine (s : State) (e : SigEngine) : State :=
  ({ s with sec := { s.sec with engine := e } }).setFld F.SEC_ENGINE_QUEUED e.held.length

/-- The engine takes what waits, oldest first: a request is served when none is, and held while a place is free. -/
def SigEngine.fill (e : SigEngine) (now : Nat) : SigEngine :=
  let all := e.held ++ e.outside
  match e.served with
  | some r => { served := some r, held := all.take engineHeld, outside := all.drop engineHeld }
  | none =>
    match all with
    | [] => e
    | r :: rest => { served := some (r, now), held := rest.take engineHeld, outside := rest.drop engineHeld }

/-- A request is made: accepted, or it waits for a place. -/
def State.engineAsk (s : State) (r : SigReq) : State :=
  s.setEngine ({ s.sec.engine with outside := s.sec.engine.outside ++ [r] }.fill s.now)

/-- The code of a request (Table 15-8); a key check knows only KEY_INVALID (R496). -/
def SigReq.code (r : SigReq) : Nat :=
  if !keyOk r.key then 0x03
  else if r.keyCheck then 0
  else
    let x := beNat (r.sig.take 48)
    let y := beNat ((r.sig.drop 48).take 48)
    if x = 0 || n384 ≤ x then 0x01
    else if y = 0 || n384 ≤ y then 0x02
    else if ecdsaVerify r.key r.digest r.sig then 0 else 0x04

/-- The engine answers the request it serves, 1.9 ms after it took it: the request and its code. -/
def State.engineAnswer (s : State) : Option (SigReq × Nat × State) :=
  match s.sec.engine.served with
  | none => none
  | some (r, t) =>
    if s.now < t + 1900000 then none
    else
      let c := r.code
      let s := s.setEngine ({ s.sec.engine with served := none }.fill s.now)
      let s := (s.count F.SEC_VERIFYCNT).setFld F.SEC_ENGINE_LASTCODE c
      some (r, c, if c = 0 then s else s.count F.SEC_REJECTCNT)

end Sys2Proof.Machine
end

