-- ==== Sys2Proof/Machine/Session.lean ====
section
/-!
DEFINITION. The end of an update session or a pending activation (15_update_and_roles R476).
-/

namespace Sys2Proof.Machine

/-- The result ABORTED of R476, for which the rules name no code.  Free. -/
def codeAborted : Nat := Config.openValue 476 0 % 256

/-- Updates the security records. -/
def State.onSec (s : State) (f : SecSt → SecSt) : State := { s with sec := f s.sec }

/-- SESSION of UPD.STATUS: 0 IDLE, 1 PREPARING, 2 RECEIVING, 3 ACT_PENDING, 4 PAUSE, 5 HANDOVER. -/
def State.session (s : State) : Nat := s.fld F.UPD_STATUS_SESSION

/-- A session, or an activation that has not begun, aborts at once (R476): the component stays WRITING. -/
def State.sessionAbort (s : State) : State :=
  if s.session = 0 || 4 ≤ s.session then s
  else
    let s := (s.count F.UPD_ABORTCNT).setFld F.UPD_STATUS_RESULT codeAborted
    let s := match s.sec.activation with
      | some a => if a.began.isNone then (((s.onSec fun x => { x with activation := none }).auditDone a.seq 2 codeAborted)).respond a.cmd 0x0114 codeAborted else s
      | none => s
    (s.onSec fun x => { x with session := none }).setFld F.UPD_STATUS_SESSION 0

end Sys2Proof.Machine
end

