-- ==== Sys2Proof/Machine/FwImage.lean ====
section
/-!
DEFINITION. Firmware images: the header of Table 15-2 and the checks of R472 (15_update_and_roles).
-/

namespace Sys2Proof.Machine

/-- CLASS of a header: 1 BOOT, 2 RUNTIME. -/
def imgClass (h : Bytes) : Nat := fieldAt h 0x8 1
/-- CFG_FORMAT. -/
def imgFormat (h : Bytes) : Nat := fieldAt h 0xE 2
/-- FW_VERSION. -/
def imgVersion (h : Bytes) : Nat := fieldAt h 0x10 4
/-- SVN. -/
def imgSvn (h : Bytes) : Nat := fieldAt h 0x14 4
/-- BODY_LEN. -/
def imgBodyLen (h : Bytes) : Nat := fieldAt h 0x18 4

/-- The longest body of a class. -/
def bodyMax (cls : Nat) : Nat := if cls = 1 then 2096640 else 14679552

/-- The reserved bytes of a header. -/
def imgReserved (h : Bytes) : Bytes := slice h 0xD 1 ++ slice h 0x1C 4 ++ slice h 0x28 8 ++ slice h 0xD8 200

/-- The checks of BAD_HEADER (R472, Table 15-3): of a boot stage only MAGIC, CLASS and BODY_LEN are read. -/
def imgHeaderOk (h : Bytes) : Bool :=
  let cls := imgClass h
  fieldAt h 0 4 == 0x57465243 && (cls == 1 || cls == 2) && decide (imgBodyLen h ≤ bodyMax cls)
    && (cls == 1 || (fieldAt h 4 2 == 1 && fieldAt h 9 1 == 3 && (imgReserved h).all fun b => b == 0))

/-- Whether PART and MIN_STEP suit this part, a CA9640 of stepping A1 (0x11). -/
def imgPartOk (h : Bytes) : Bool := fieldAt h 0xA 2 == 0x9640 && decide (fieldAt h 0xC 1 ≤ 0x11)

/-- The unrevoked Molatex key that KEY_FP names. -/
def imgKey (h : Bytes) : Option Bytes :=
  ([0, 1].find? fun i => !Config.firmwareRevoked i && fingerprint (Config.firmwareKey i) == fieldAt h 0x20 8).map Config.firmwareKey

/-- The request to the signature engine for a header. -/
def imgRequest (use : SigUse) (key h : Bytes) : SigReq :=
  { use := use, key := key, digest := sha384 (h.take 0x1A0), sig := slice h 0x1A0 96, keyCheck := false }

/-- The hashes of the components of an image (Table 15-2). -/
def imgHashesOk (h body : Bytes) : Bool :=
  (List.range (if imgClass h = 1 then 1 else 3)).all fun i =>
    let e := 0x30 + 56 * i
    let off := fieldAt h e 4
    let len := fieldAt h (e + 4) 4
    decide (off + len ≤ body.length) && sha384 (slice body off len) == slice h (e + 8) 48

/-- The boot ROM's code for the signature of an image: KEY_INVALID stands for no key. -/
def romCode (h : Bytes) : Nat :=
  match imgKey h with
  | some k => (imgRequest (.boot 0) k h).code
  | none => 0x03

/-- What the boot ROM checks of a boot stage (R472): signature, PART, SVN, body hash. -/
def State.romOk (s : State) (i : FwImage) : Bool :=
  romCode i.header == 0 && fieldAt i.header 0xA 2 == 0x9640 && decide (s.vfld F.UPD_SVN_MIN_SVN ≤ imgSvn i.header)
    && imgHashesOk i.header i.body

/-- The place of a slot's component: class 1 the boot stage, 2 the runtime image. -/
def imgAt (slot cls : Nat) : Nat := 2 * slot + (cls - 1)

/-- A slot's component as an update wrote it; none for those the part was shipped with. -/
def State.image (s : State) (slot cls : Nat) : Option FwImage := SMap.find? s.sec.images (imgAt slot cls)

/-- Sets a field marked Per vault, in the vault and in the register. -/
def State.setBoth (s : State) (f : Fld) (v : Nat) (i : Nat := 0) : State := (s.setFld f v i).setVfld f v i

/-- The field of a slot descriptor that states a component. -/
def slotFld (cls : Nat) : Fld := if cls = 1 then F.UPD_SLOT_STATE_BOOT else F.UPD_SLOT_STATE_RUNTIME

/-- The state of a slot's component: 0 EMPTY, 1 WRITING, 2 UNCHECKED (boot) or VERIFIED (runtime), 3 VERIFIED, 4 FAILED. -/
def State.slotState (s : State) (slot cls : Nat) : Nat := s.vfld (slotFld cls) slot

/-- The slot last confirmed. -/
def State.confirmed (s : State) : Nat := s.vfld F.UPD_STATUS_CONFIRMED

/-- The slot whose runtime image runs. -/
def State.running (s : State) : Nat := s.vfld F.UPD_STATUS_RUNNING

end Sys2Proof.Machine
end

