-- ==== Sys2Proof/Machine/Leg.lean ====
section
/-!
DEFINITION. The leg sequencer: issuing, starting and completing operations, and the start and end of a leg (04_core R145
to R151; 05_itineraries_and_frames R169; 11_integrity_and_recovery R356, R359).
-/

namespace Sys2Proof.Machine

/-- Sets the leg a core runs. -/
def State.setRun (s : State) (site : Nat) (r : Option LegRun) : State := s.setCore site { s.core site with run := r }

/-- Changes the leg a core runs, if it runs one. -/
def State.onRun (s : State) (site : Nat) (f : LegRun → LegRun) : State :=
  match (s.core site).run with
  | some r => s.setRun site (some (f r))
  | none => s

/-- Sequencer states of Table 4-4. -/
def seqIdle : Nat := 0
/-- Waiting for a declared start. -/
def seqArmed : Nat := 1
/-- Issuing and running. -/
def seqRun : Nat := 2
/-- Nothing more to issue. -/
def seqDrain : Nat := 3
/-- Being cleared. -/
def seqClearing : Nat := 5

/-! The taster's copy (R155, R156). -/

/-- The operation that loads the input of product number `n` on an array: the last LOAD before it, in the leg's order,
that names the array and the product's buffer. -/
def tasteLoad (ops : List Op) (arr n : Nat) : Option Nat :=
  let prods := ops.zipIdx.filterMap fun o => match o.1.kind with | .product a b _ _ => if a = arr then some (b, o.2) else none | _ => none
  match prods[n]? with
  | none => none
  | some (buf, at_) =>
    ((ops.take at_).zipIdx.filterMap fun o =>
      match o.1.kind with | .load mask _ b _ _ _ _ => if b = buf && bitsAt mask arr 1 = 1 then some o.2 else none | _ => none).getLast?

/-- The group count of product number `n` on an array. -/
def productGroups (ops : List Op) (arr n : Nat) : Nat :=
  ((ops.filterMap fun o => match o.kind with | .product a _ k _ => if a = arr then some k else none | _ => none)[n]?).getD 32

/-- ε as the taster takes it: a word that is no finite number in 0.25 to 1.00 counts as 0.5487 (R157). -/
def epsTaken (w : Nat) : Nat :=
  if fpNotFinite w || w < 0x3E800000 || 0x3F800000 < w then 0x3F0C779A else w

/-- The exact accumulator of column `c` of a tile from the crib's weights, without a mend group (R156). -/
def exactAcc (x : ArrSt) (b : InBuf) (w : SMap Nat) (k c j : Nat) : Int :=
  (List.range k).foldl (fun t g =>
      let dot := (List.range 32).foldl (fun a i =>
          a + toSigned 4 (SMap.get 0 w (1024 * j + 32 * g + i)) * elemInt b.fmt (b.elems.getD (32 * g + i) 0)) (0 : Int)
      t + 2 ^ (x.groupShift g c + b.offs.getD g 0) * dot) 0

/-- The taster copies the input of its chosen product as a load completes, and latches ε and the threshold (R156). -/
def State.tasteCopy (s : State) (site idx buf : Nat) : State :=
  match (s.core site).run with
  | some r =>
    match r.taste with
    | some t =>
      if t.load = idx && !t.copied then
        let x := s.arr (16 * site + t.arr)
        let b := x.inBuf buf
        let slot := SMap.get CribSlot.empty (s.core site).cribs t.slot
        let k := productGroups r.leg.ops t.arr t.prod
        let cols := (List.range 32).map fun j => (32 * t.cblock + j, j)
        let eps := epsTaken (s.fld F.TST_EPS (16 * site + t.arr))
        let t := { t with copied := true, thresh := s.fld F.TST_CTRL_THRESH site,
                          exact := cols.map fun c => exactAcc x b slot.w k c.1 c.2,
                          sigma := cols.map fun c => sigmaFp b.fmt (x.qOf b k c.1) eps }
        ((s.setRun site (some { r with taste := some t })).setFld F.TST_STATUS_TASTING 1 site).setFld
          F.TST_STATUS_TSLOT t.slot site
      else s
    | none => s
  | none => s

/-! Starting operations. -/

/-- A sending operation of a suspect leg of a replay unit, held back and recorded (R356); the destination part of a
PORT_SEND gets a SUPPRESSED notice. -/
def State.suppress (s : State) (site : Nat) (r : LegRun) (q : RunOp) : State :=
  let core := (s.siteCore site).getD 0
  let s := { s with frame := { s.frame with suppressed := s.frame.suppressed ++ [⟨core, r.idx, q.idx, q.op⟩] } }
  match q.op.kind with
  | .portSend port _ part dest ctr _ _ _ => if port = 32 then s else s.sendMsg part 0x0205 [dest, ctr.getD 0xFF]
  | _ => s

/-- The payload of a sending operation (R359). -/
def State.payload (s : State) (site : Nat) (k : OpKind) : Bytes :=
  match k with
  | .send _ _ src _ bytes => s.hamperRead site src bytes
  | .memWrite _ addr bytes _ => s.hamperRead site addr bytes
  | .portSend _ _ _ _ _ src _ bytes => s.hamperRead site src bytes
  | _ => []

/-- The data effect of an operation as it starts on its unit. -/
def State.startEffect (s : State) (site : Nat) (q : RunOp) : State :=
  match q.op.kind with
  | .nop => s
  | .resetCtr _ => s
  | .flip t =>
    let c := s.core site
    s.setCore site { c with tiles := c.tiles ^^^ 2 ^ t }
  | .barrier id n => s.opBarrier site q.op.hdr id n
  | .load mask fmt buf elems scales ref count => s.opLoad site mask fmt buf elems scales ref count
  | .product arr buf k bank =>
    let s := s.productStart (16 * site + arr) buf k bank
    let s := s.onRun site fun r => { r with prods := r.prods ++ [arr] }
    if s.mode (16 * site + arr) ≠ modeServe then s.markSuspect site causeUnavail else s
  | .accumulate n bf16 table => s.opAccumulate site n bf16 table
  | .rotq m mode fmt inBf16 seed src dst len => s.opRotq site m mode fmt inBf16 seed src dst len
  | .matmul x y z m n k32 flags => s.opMatmul site x y z m n k32 flags
  | .vec op flags k a b dst len => s.opVec site op flags k a b dst len
  | .send core ctr src dst bytes => s.opSend site q.env core ctr src dst bytes
  | .memRead stream addr bytes token => s.opMemRead site q.env stream addr bytes token
  | .memWrite stream addr bytes token => s.opMemWrite site stream addr bytes token
  | .portSend port cls part core ctr src dst bytes => s.opPortSend site q.env port cls part core ctr src dst bytes

/-- Whether an operation ends by its duration alone: products end by PRODUCT_END, reads by their delivery, barriers by
their last arrival. -/
def OpKind.endsAlone : OpKind → Bool
  | .product .. | .memRead .. | .barrier .. => false
  | _ => true

/-- An operation starts: it leaves its queue, its unit is taken, and its effect takes place.  In a replay reads and
barriers complete at once and sending operations are captured (R359). -/
def State.startOp (s : State) (site : Nat) (q : RunOp) : State :=
  match (s.core site).run with
  | none => s
  | some r =>
    let k := q.op.kind
    let inReplay := r.replay.isSome
    let skip := inReplay && (match k with | .memRead .. | .barrier .. => true | _ => false)
    let held := k.sends && r.leg.hdr.unit.isSome && r.cause != 0 && !inReplay
    let dur := if skip then 0 else 1000 * k.cycles (match k with
      | .accumulate n _ table => ((s.chainTable site table n).map fun t => (maskArrays t.1).length).sum
      | _ => 0)
    let known := match k with | .memRead n _ _ _ => (s.streamRec n).isSome | _ => true
    let q' := { q with start := s.cyc, dur := dur, done := k.endsAlone || skip || !known }
    let s := s.setRun site (some { r with
      queued := r.queued.filter fun x => x.idx != q.idx, running := r.running ++ [q'] })
    let s := s.hamperErrors site q.env.words
    if skip then s
    else if inReplay && k.sends then
      s.onRun site fun r => { r with captured := r.captured ++ [(q.idx, s.payload site k)] }
    else if held then s.suppress site r q
    else s.startEffect site q

/-- Whether an operation's counter condition holds: a replay honours only waits on counters that its own operations
increase (R359). -/
def State.waitHolds (s : State) (site : Nat) (r : LegRun) (h : OpHdr) : Bool :=
  if r.replay.isSome then
    match h.waitCtr with
    | some k => !(r.leg.ops.any fun o => o.hdr.incCtr == some k) || s.waitMet site h
    | none => true
  else s.waitMet site h

/-- Whether its declared start offset within the leg has been reached. -/
def State.offsetReached (s : State) (r : LegRun) (h : OpHdr) : Bool :=
  match h.start with
  | some o => decide (r.start + 1000 * o ≤ s.cyc)
  | none => true

/-- Whether an operation at the head of its unit's queue may start but for its resource (R148). -/
def State.mayStart (s : State) (site : Nat) (r : LegRun) (q : RunOp) : Bool :=
  s.waitHolds site r q.op.hdr && r.unitFree q.op.kind.unit && s.offsetReached r q.op.hdr

/-- The operations at the heads of the units' queues. -/
def heads : List CUnit → List RunOp → List RunOp
  | _, [] => []
  | seen, q :: qs => if seen.contains q.op.kind.unit then heads seen qs else q :: heads (q.op.kind.unit :: seen) qs

/-- The sites whose cores may go on once a barrier arrival has been sent: those that had arrived before. -/
def State.wakes (s : State) (site : Nat) (k : OpKind) : List Nat :=
  match k with
  | .barrier id _ =>
    let p := (((s.siteCore site).bind s.corePitch).getD 0)
    match s.net.barriers.find? fun b => b.pitch == p && b.id == id with
    | some b => b.arrivals.filterMap fun a => s.coreSite a.1
    | none => []
  | _ => []

/-- Starts operations of the cores at the sites listed while one may start; what is left waiting for a buffer or an
array counts as late. -/
def State.runWaiting : Nat → State → List Nat → State
  | 0, s, _ => s
  | _ + 1, s, [] => s
  | n + 1, s, site :: rest =>
    match (s.core site).run with
    | none => State.runWaiting n s rest
    | some r =>
      let hs := (heads [] r.queued).filter (s.mayStart site r)
      match hs.find? fun q => s.resourceReady site q.op.kind with
      | some q => State.runWaiting n (s.startOp site q) (site :: rest ++ s.wakes site q.op.kind)
      | none =>
        State.runWaiting n (hs.foldl (fun s q =>
            if q.counted then s
            else (s.countLate site q.op.kind).onRun site fun r =>
              { r with queued := r.queued.map fun x => if x.idx = q.idx then { x with counted := true } else x }) s) rest

/-- Starts what may start on the cores at the sites listed. -/
def State.restartAll (s : State) (sites : List Nat) : State :=
  let q := s.cores.foldl (fun n c => n + match c.2.run with | some r => r.queued.length | none => 0) 0
  State.runWaiting ((q + 1) * (s.cores.length + sites.length + 2)) s sites

/-- Starts what may start on a core. -/
def State.restart (s : State) (site : Nat) : State := s.restartAll [site]

/-- The sequencer of a logical core issues its next operation (R148): it must be the one named, and its unit's queue of 8
must have room.  RESET_CTR sets its counter to 0 as it issues (R144). -/
def State.issue (s : State) (core : Nat) (h : OpHdr) (e : OpEnv) (k : OpKind) : State :=
  match s.coreSite core with
  | none => s
  | some site =>
    match (s.core site).run with
    | none => s
    | some r =>
      match r.toIssue with
      | [] => s
      | o :: rest =>
        if o = ⟨h, k⟩ && s.fld F.CORE_STATUS_SEQ site = seqRun
            && decide ((r.queued.filter fun q => decide (q.op.kind.unit = k.unit)).length < 8) then
          let q : RunOp := { op := o, env := e, idx := r.issued, start := 0, dur := 0, done := false, counted := false }
          let s := s.setRun site (some { r with toIssue := rest, queued := r.queued ++ [q], issued := r.issued + 1 })
          let s := match k with | .resetCtr c => s.ctrZero site c | _ => s
          let s := if rest.isEmpty then s.setFld F.CORE_STATUS_SEQ seqDrain site else s
          s.restart site
        else s

/-! Completion. -/

/-- An operation's own end: a load's buffers are complete (R125). -/
def State.endEffect (s : State) (site : Nat) (q : RunOp) : State :=
  match q.op.kind with
  | .load mask _ buf _ _ _ _ => (s.loadDone site mask buf).tasteCopy site q.idx buf
  | _ => s

/-- The counter increment of a completed operation (R144); a barrier's comes with the barrier (R203). -/
def State.ownInc (s : State) (site : Nat) (q : RunOp) (inReplay : Bool) : State :=
  match q.op.kind, q.op.hdr.incCtr with
  | .barrier .., some k => if inReplay then s.ctrInc site k q.op.hdr.inc else s
  | _, some k => s.ctrInc site k q.op.hdr.inc
  | _, none => s

/-- Whether what an operation waits for beside its duration has come: a barrier's instance is over. -/
def State.opDone (s : State) (site : Nat) (q : RunOp) : Bool :=
  match q.op.kind with
  | .barrier id _ =>
    let core := (s.siteCore site).getD 0
    q.done || !(s.net.barriers.any fun b => b.id == id && b.pitch == (s.corePitch core).getD 0 && b.arrivals.any fun a => a.1 == core)
  | _ => q.done

/-- Operation `idx` of the leg a core runs completes, once its duration has passed (R144). -/
def State.complete (s : State) (site idx : Nat) : State :=
  match (s.core site).run with
  | none => s
  | some r =>
    match r.running.find? fun q => q.idx == idx with
    | none => s
    | some q =>
      if s.opDone site q && decide (q.start + q.dur ≤ s.cyc) then
        let s := s.setRun site (some { r with running := r.running.filter fun x => x.idx != idx })
        ((s.endEffect site q).ownInc site q r.replay.isSome).restart site
      else s

/-- Marks the running operations that satisfy `p` as ended but for their completion. -/
def State.markDone (s : State) (site : Nat) (p : OpKind → Bool) : State :=
  s.onRun site fun r => { r with running := r.running.map fun q => if p q.op.kind then { q with done := true } else q }

/-- Whether a core is a place that deliveries and increments reach: it has a site, and it is not being cleared (R161). -/
def State.liveSite (s : State) (core : Nat) : Option Nat :=
  match s.coreSite core with
  | some site => if s.clearing site then none else some site
  | none => none

/-- A remote increment (R146): of another frame it is dropped and counted; of another pitch it is never delivered. -/
def State.remoteInc (s : State) (core ctr inc frame pitch : Nat) : State :=
  match s.liveSite core with
  | none => s
  | some site =>
    if s.corePitch core ≠ some pitch then s
    else if frame ≠ s.frame.number then s.count F.CORE_STALEINC 1 site
    else (s.ctrInc site ctr inc).restart site

/-- Transfer `idx` of those on their way reaches its core (R144, R199). -/
def State.transferEnds (s : State) (idx : Nat) : State :=
  match s.net.transfers[idx]? with
  | none => s
  | some t =>
    let s := { s with net := { s.net with transfers := s.net.transfers.eraseIdx idx } }
    match s.liveSite t.core with
    | none => s
    | some site =>
      if s.corePitch t.core ≠ some t.pitch then s
      else
        let s := s.deliver site t.addr t.data t.bad
        if t.memRead then (s.markDone site fun k => match k with | .memRead _ a _ _ => a == t.addr | _ => false).restart site
        else
          match t.ctr with
          | some k => s.remoteInc t.core k 1 t.frame t.pitch
          | none => s

/-! Legs. -/

/-- The legs of a logical core in the active itinerary. -/
def State.legsOf (s : State) (core : Nat) : List Leg :=
  match s.frame.active with
  | some it => match it.shares.find? fun sh => sh.core == core with | some sh => sh.legs | none => []
  | none => []

/-- The taster's choice at the start of a leg (R155). -/
def State.tasteChoose (s : State) (site : Nat) (ops : List Op) : State × Option Tasting :=
  if !s.flag F.TST_CTRL_ENABLE site then (s.count F.TST_UNTASTCNT 1 site, none)
  else
    let c := s.core site
    let r := (List.range 32).foldl (fun v _ => signStep v) c.sampler
    let s := s.setCore site { c with sampler := r }
    let prods := ops.filterMap fun o => match o.kind with | .product a _ _ _ => some a | _ => none
    let cand := (List.range 4).filter fun i => let sl := SMap.get CribSlot.empty c.cribs i; sl.valid && prods.contains sl.arr
    if cand.isEmpty then (s.count F.TST_UNTASTCNT 1 site, none)
    else
      let slot := cand.getD (r % cand.length) 0
      let sl := SMap.get CribSlot.empty c.cribs slot
      let arr := sl.arr
      let p := (prods.filter (· == arr)).length
      let n := r / 256 % p
      (s, some ⟨slot, arr, sl.cblock, n, (tasteLoad ops arr n).getD ops.length, false, [], [], 0⟩)

/-- Thousandths of a cycle since the boundary. -/
def State.sinceBoundary (s : State) : Nat := s.cyc - s.frame.cyc0

/-- The thousandths of a core cycle in one tick of the time base. -/
def State.tickCycles (s : State) : Nat := s.fld F.GLB_CORE_FREQ_MHZ

/-- A leg begins to run on a core (R149, R150, R155); one that starts later than the tick its declared start falls in is
counted late. -/
def State.beginLeg (s : State) (site idx : Nat) (leg : Leg) (replay : Option Nat) : State :=
  let (s, taste) := s.tasteChoose site leg.ops
  let late := replay.isNone && decide (1000 * leg.hdr.start + s.tickCycles ≤ s.sinceBoundary)
  let s := if late then s.count F.CORE_LATECNT 1 site else s
  let s := s.setRun site (some {
    idx := idx, leg := leg, start := s.cyc, toIssue := leg.ops, queued := [], running := [], prods := []
    taste := taste, cause := 0, noReplay := false, late := late, issued := 0, replay := replay, captured := [] })
  let s := (s.setFld F.CORE_LEGPOS_LEG idx site).setFld F.CORE_LEGPOS_FRAME s.frame.number site
  s.setFld F.CORE_STATUS_SEQ (if leg.ops.isEmpty then seqDrain else seqRun) site

/-- The next leg of a logical core starts at its declared start, with the previous leg finished (R149). -/
def State.legStart (s : State) (core : Nat) : State :=
  match s.coreSite core with
  | none => s
  | some site =>
    let c := s.core site
    match (s.legsOf core)[c.nextLeg]? with
    | none => s
    | some leg =>
      if s.frame.st = .running && c.run.isNone && s.fld F.CORE_STATUS_SEQ site = seqArmed && !s.clearing site
          && decide (1000 * leg.hdr.start ≤ s.sinceBoundary) then
        (s.setCore site { c with nextLeg := c.nextLeg + 1 }).beginLeg site c.nextLeg leg none
      else s

/-- The state a sequencer goes to when a leg is over: ARMED with a further leg pending, otherwise IDLE. -/
def State.seqAfter (s : State) (site core : Nat) : State :=
  s.setFld F.CORE_STATUS_SEQ (if (s.core site).nextLeg < (s.legsOf core).length then seqArmed else seqIdle) site

/-- The complete report of a suspect leg at its end (R151). -/
def State.finalReport (s : State) (core : Nat) (r : LegRun) : State :=
  if r.cause = 0 then s
  else { s with frame := { s.frame with
    reports := s.frame.reports ++ [⟨core, r.idx, s.frame.number, r.cause, r.noReplay, true, r.unread⟩] } }

/-- What a leg's end leaves whichever way it ends: the gather buffer written, no leg running, nothing being tasted. -/
def State.closeLeg (s : State) (site core : Nat) : State :=
  let s := s.flushGather site fun _ => true
  ((s.setRun site none).setFld F.TST_STATUS_TASTING 0 site).seqAfter site core

/-- The output of a replay goes to the part that asked for it (R359): logical core, leg index, UNCLEAN, the output's
ranges and the captured payloads' operation indices with their lengths; then the bytes.  An UNCLEAN one is counted. -/
def State.replayOutput (s : State) (site core : Nat) (r : LegRun) (asker : Nat) (unclean : Bool) : State :=
  let s := if unclean then s.countReplay 8 else s
  let ended (q : Replaying) : Replaying := if q.core = core && q.running then { q with running := false, done := true } else q
  let s := { s with mgr := { s.mgr with replaying := s.mgr.replaying.map ended } }
  match s.frame.active with
  | none => s
  | some it =>
    let rs := it.replayOutput (s.chainTable site) r.leg
    s.sendMsg asker 0x0203 ([core, r.idx, if unclean then 1 else 0, rs.length] ++ rs.flatMap (fun q => [q.1, q.2])
        ++ r.captured.flatMap fun c => [c.1, c.2.length])
      (rs.flatMap (fun q => s.hamperRead site q.1 q.2) ++ r.captured.flatMap (·.2))

/-- A draining leg whose units are idle ends (R149, R150). -/
def State.legEnd (s : State) (core : Nat) : State :=
  match s.coreSite core with
  | none => s
  | some site =>
    match (s.core site).run with
    | none => s
    | some r =>
      if s.fld F.CORE_STATUS_SEQ site = seqDrain && r.toIssue.isEmpty && r.queued.isEmpty && r.running.isEmpty then
        let late := r.replay.isNone && !r.late && decide (1000 * (r.leg.hdr.start + r.leg.hdr.len) + s.tickCycles ≤ s.sinceBoundary)
        let s := if late then s.count F.CORE_LATECNT 1 site else s
        let s := s.closeLeg site core
        match r.replay with
        | some p => s.replayOutput site core r p (r.cause != 0)
        | none =>
          let s := s.finalReport core r
          { s with frame := { s.frame with endedLegs := s.frame.endedLegs ++ [(core, r.idx)] } }
      else s

/-- The products that a stopped leg was running are abandoned (R150): their arrays are free, and what waited for the product's end
takes effect. -/
def State.abandonProducts (s : State) (site : Nat) (r : LegRun) : State :=
  r.running.foldl (fun s q =>
    match q.op.kind with
    | .product arr .. =>
      let a := 16 * site + arr
      (((s.setArr a { s.arr a with prod := none }).setFld F.ARR_STATUS_PRODUCT 0 a).applyTrims a).modeAfterProduct a
    | _ => s) s

/-- A leg is stopped (R150): suspect with OVERRUN, its running operations abandoned, its gather entries written. -/
def State.stopLeg (s : State) (site core : Nat) : State :=
  match (s.core site).run with
  | none => s
  | some r0 =>
    let s := (s.markSuspect site causeOverrun).count F.CORE_OVRUNCNT 1 site
    let r := ((s.core site).run).getD r0
    let s := (s.closeLeg site core).abandonProducts site r
    match r.replay with
    | some p => s.replayOutput site core r p true
    | none =>
      let s := s.finalReport core r
      { s with frame := { s.frame with
          endedLegs := s.frame.endedLegs ++ [(core, r.idx)]
          stoppedLegs := s.frame.stoppedLegs ++ [(core, r.idx)]
          waitingAtStop := s.frame.waitingAtStop ++ (r.queued.filterMap fun q => q.op.hdr.waitCtr.map fun k => (core, r.idx, k)) } }

/-- 25,600 cycles after its start a leg that still runs is stopped (R149, R150). -/
def State.legOverrun (s : State) (core : Nat) : State :=
  match s.coreSite core with
  | none => s
  | some site =>
    match (s.core site).run with
    | none => s
    | some r => if r.start + 25600000 ≤ s.cyc then s.stopLeg site core else s

/-! Products as the core sees them end. -/

/-- The running quantities of a monitor after a value (R158). -/
def RangeMon.add (m : RangeMon) (v : Int) : RangeMon :=
  { min := if v < m.min then v else m.min, max := if m.max < v then v else m.max, count := m.count + 1,
    sum := toSigned 64 (ofSigned 64 (m.sum + v)), ssq := (m.ssq + v.natAbs * v.natAbs / 65536) % 2 ^ 64 }

/-- The envelope record of monitor `m` of a logical core. -/
def State.envRec (s : State) (core m : Nat) : Option EnvRec :=
  s.frame.active.bind fun it => (it.envs.find? fun e => e.1 == core).bind fun e => e.2[m]?

/-- The 512 accumulators of a completed product pass the array's 16 range monitors (R158, R159): a replay's values are
left out of the statistics. -/
def State.monitor (s : State) (site arr : Nat) (acc : List Int) : State :=
  let core := (s.siteCore site).getD 0
  let inReplay := match (s.core site).run with | some r => r.replay.isSome | none => false
  (List.range 16).foldl (fun s g =>
      let m := 16 * arr + g
      let vs := slice' acc (32 * g)
      let c := s.core site
      let s := if inReplay then s
        else s.setCore site { c with mons := SMap.set .empty c.mons m (vs.foldl RangeMon.add (SMap.get .empty c.mons m)) }
      match s.envRec core m with
      | some e =>
        let bad := if e.enable then (vs.filter fun v => decide (v < e.lo) || decide (e.hi < v)).length else 0
        if bad = 0 then s
        else
          let first := match (s.core site).run with | some r => bitsAt r.cause causeRange 1 == 0 | none => false
          let s := if first then s.unitError 2 (16 * site + arr) (2 ^ causeRange) else s
          (s.count F.TST_RMVIOLCNT bad site).markSuspect site causeRange
      | none => s) s
where
  slice' (l : List Int) (o : Nat) : List Int := (l.drop o).take 32

/-- The FP32 ratio |analogue − exact| / σ (R156). -/
def tasteRatio (diff sigma : Nat) : Nat :=
  match fpVal (fpOfInt (diff : Int)), fpVal sigma with
  | .fin _ m e, .fin _ n f => fpQuot m e n f
  | _, _ => 0

/-- The first of the largest ratios: index and ratio. -/
def largest : List Nat → Nat → Nat × Nat → Nat × Nat
  | [], _, b => b
  | r :: rs, i, b => largest rs (i + 1) (if b.2 < r then (i, r) else b)

/-- The taster's verdict as its chosen product ends (R83, R156, R157): a parity error loses the tile (R152), INJECT
flags whatever the values. -/
def State.verdict (s : State) (site : Nat) (t : Tasting) (acc : List Int) (parity : Bool) : State :=
  let s := s.setFld F.TST_STATUS_TASTING 0 site
  let c := s.core site
  if parity then
    let s := s.setCore site { c with cribs := SMap.set CribSlot.empty c.cribs t.slot CribSlot.empty }
    let s := (s.setFld F.TST_CRIB_VALID 0 (4 * site + t.slot)).setFld F.TST_STATUS_VALID
      (s.fld F.TST_STATUS_VALID site - s.fld F.TST_STATUS_VALID site / 2 ^ t.slot % 2 * 2 ^ t.slot) site
    (s.count F.TST_UNTASTCNT 1 site).unitError 1 site 0
  else
    let diffs := (List.range 32).map fun j => (acc.getD (32 * t.cblock + j) 0 - t.exact.getD j 0).natAbs
    let exceeds := (diffs.zip t.sigma).any fun p => exceedsFp p.1 (tastThreshold p.2 t.thresh)
    let s := s.count F.TST_TASTECNT 1 site
    let s := s.setCore site { c with inject := false }
    if exceeds || c.inject then
      let ratios := List.zipWith tasteRatio diffs t.sigma
      let b := largest ratios 0 (0, ratios.headD 0)
      let s := (s.setFld F.TST_LASTFLAG_SLOT t.slot site).setFld F.TST_LASTFLAG_ARRAY t.arr site
      let s := (s.setFld F.TST_LASTFLAG_COLUMN (32 * t.cblock + b.1) site).setFld F.TST_LASTDIFF_RATIO b.2 site
      ((s.count F.TST_FLAGCNT 1 site).unitError 2 (16 * site + t.arr) (2 ^ causeTaste)).markSuspect site causeTaste
    else s

/-- The taster looks at a product that has ended, if it is the one it chose. -/
def State.tasteEnd (s : State) (site arr : Nat) (acc : List Int) (parity : Bool) : State :=
  match (s.core site).run with
  | some r =>
    match r.taste with
    | some t =>
      if t.copied && t.arr = arr && (r.prods.filter (· == arr)).length = t.prod + 1 then
        (s.onRun site fun r => ({ r with taste := none } : LegRun)).verdict site t acc parity
      else s
    | none => s
  | none => s

/-- A product's last conversion has ended (R91, R94, R104, R106): its accumulators go to its output bank; while both banks are unread
they are held (R93). -/
def State.productEnd (s : State) (a : Nat) (dev : List (Nat × Int)) (parity : Bool) : State :=
  let x := s.arr a
  match x.prod with
  | none => s
  | some p =>
    if s.cyc < p.start + p.dur || (x.out0.full && x.out1.full) then s
    else
      let site := a / 16
      let b := x.inBuf p.buf
      let res := if p.refused then (List.replicate 512 (0 : Int), 0) else x.productAcc b p.k dev
      let y := x.setOutBank p.bank { full := true, acc := res.1, fmt := b.fmt, bref := b.bref, nan := b.nan }
      let s := s.setArr a { y with prod := none }
      let s := ((s.setFld F.ARR_STATUS_PRODUCT 0 a).applyTrims a).modeAfterProduct a
      let s := if p.refused then s
        else ((s.count F.ARR_OVRCNT res.2 a).tasteEnd site (a % 16) res.1 parity).monitor site (a % 16) res.1
      (s.markDone site fun k => match k with | .product q _ _ bank => q == a % 16 && bank == p.bank | _ => false).restart site

/-- A gather entry without a write for 32 cycles is written to its bank (R142). -/
def State.gatherIdle (s : State) (site line : Nat) : State :=
  s.flushGather site fun e => e.line == line && decide (e.last + 32000 ≤ s.cyc)

/-- One nanosecond passes (log entry 1): the time base advances, the core clock runs unless the part is in Doze or Off,
and operations that wait for a time or for another core may start. -/
def State.tick (s : State) : State :=
  let f := if 2 ≤ s.fld F.PWR_STATUS_STATE then 0 else s.tickCycles
  let s := { s with now := s.now + 1, cyc := s.cyc + f }
  let waits := s.cores.filterMap fun c => match c.2.run with
    | some r => if r.queued.isEmpty then none else some c.1
    | none => none
  s.restartAll waits

/-! The commands' meanings. -/

/-- NOP (R169). -/
def execNop (core : Nat) (h : OpHdr) (s : State) : Host.Outcome State Fault Refusal :=
  within (core < coreCount) (s.issue core h .quiet .nop)
/-- RESET_CTR (R144). -/
def execResetCtr (core : Nat) (h : OpHdr) (ctr : Nat) (s : State) : Host.Outcome State Fault Refusal :=
  within (core < coreCount) (s.issue core h .quiet (.resetCtr ctr))
/-- FLIP (R141). -/
def execFlip (core : Nat) (h : OpHdr) (tile : Nat) (s : State) : Host.Outcome State Fault Refusal :=
  within (core < coreCount) (s.issue core h .quiet (.flip tile))
/-- BARRIER (R203). -/
def execBarrier (core : Nat) (h : OpHdr) (id participants : Nat) (s : State) : Host.Outcome State Fault Refusal :=
  within (core < coreCount) (s.issue core h .quiet (.barrier id participants))
/-- ARRAY LOAD (R125). -/
def execArrayInputLoad (core : Nat) (h : OpHdr) (e : OpEnv) (mask : Nat) (fmt : Fmt) (buf elems scales ref count : Nat)
    (s : State) : Host.Outcome State Fault Refusal :=
  within (core < coreCount) (s.issue core h e (.load mask fmt buf elems scales ref count))
/-- ARRAY PRODUCT (R94). -/
def execProduct (core : Nat) (h : OpHdr) (arr buf k bank : Nat) (s : State) : Host.Outcome State Fault Refusal :=
  within (core < coreCount) (s.issue core h .quiet (.product arr buf k bank))
/-- PRODUCT_END (R94). -/
def execProductEnd (arr : Nat) (dev : List (Nat × Int)) (parity : Bool) (s : State) : Host.Outcome State Fault Refusal :=
  within (arr < arrCount) (s.productEnd arr dev parity)
/-- ACCUMULATE (R127). -/
def execAccumulate (core : Nat) (h : OpHdr) (e : OpEnv) (chains : Nat) (bf16 : Bool) (table : Nat) (s : State) :
    Host.Outcome State Fault Refusal :=
  within (core < coreCount) (s.issue core h e (.accumulate chains bf16 table))
/-- ROTQ (R129, R131). -/
def execRotq (core : Nat) (h : OpHdr) (e : OpEnv) (m mode : Nat) (fmt : Fmt) (inBf16 : Bool) (seed src dst len : Nat)
    (s : State) : Host.Outcome State Fault Refusal :=
  within (core < coreCount) (s.issue core h e (.rotq m mode fmt inBf16 seed src dst len))
/-- MATMUL (R133). -/
def execMatmul (core : Nat) (h : OpHdr) (e : OpEnv) (x y z m n k32 flags : Nat) (s : State) :
    Host.Outcome State Fault Refusal :=
  within (core < coreCount) (s.issue core h e (.matmul x y z m n k32 flags))
/-- Vector unit addition (R135). -/
def execVecAdd (core : Nat) (h : OpHdr) (e : OpEnv) (flags k a b dst len : Nat) (s : State) : Host.Outcome State Fault Refusal :=
  within (core < coreCount) (s.issue core h e (.vec .add flags k a b dst len))
/-- Vector unit subtraction (R135). -/
def execVecSubtract (core : Nat) (h : OpHdr) (e : OpEnv) (flags k a b dst len : Nat) (s : State) : Host.Outcome State Fault Refusal :=
  within (core < coreCount) (s.issue core h e (.vec .sub flags k a b dst len))
/-- Vector unit multiplication (R135). -/
def execVecMultiply (core : Nat) (h : OpHdr) (e : OpEnv) (flags k a b dst len : Nat) (s : State) : Host.Outcome State Fault Refusal :=
  within (core < coreCount) (s.issue core h e (.vec .mul flags k a b dst len))
/-- Vector unit fused multiply-add (R135). -/
def execVecFma (core : Nat) (h : OpHdr) (e : OpEnv) (flags k a b dst len : Nat) (s : State) : Host.Outcome State Fault Refusal :=
  within (core < coreCount) (s.issue core h e (.vec .fma flags k a b dst len))
/-- Vector unit minimum (R135). -/
def execVecMinimum (core : Nat) (h : OpHdr) (e : OpEnv) (flags k a b dst len : Nat) (s : State) : Host.Outcome State Fault Refusal :=
  within (core < coreCount) (s.issue core h e (.vec .min flags k a b dst len))
/-- Vector unit maximum (R135). -/
def execVecMaximum (core : Nat) (h : OpHdr) (e : OpEnv) (flags k a b dst len : Nat) (s : State) : Host.Outcome State Fault Refusal :=
  within (core < coreCount) (s.issue core h e (.vec .max flags k a b dst len))
/-- Vector unit multiplication by an E8M0 vector (R135). -/
def execVecScale (core : Nat) (h : OpHdr) (e : OpEnv) (flags k a b dst len : Nat) (s : State) : Host.Outcome State Fault Refusal :=
  within (core < coreCount) (s.issue core h e (.vec .scale flags k a b dst len))
/-- Vector unit compare (R135). -/
def execVecCompare (core : Nat) (h : OpHdr) (e : OpEnv) (flags k a b dst len : Nat) (s : State) : Host.Outcome State Fault Refusal :=
  within (core < coreCount) (s.issue core h e (.vec .cmp flags k a b dst len))
/-- Vector unit select (R135). -/
def execVecSelect (core : Nat) (h : OpHdr) (e : OpEnv) (flags k a b dst len : Nat) (s : State) : Host.Outcome State Fault Refusal :=
  within (core < coreCount) (s.issue core h e (.vec .select flags k a b dst len))
/-- Vector unit conversion (R135). -/
def execVecConvert (core : Nat) (h : OpHdr) (e : OpEnv) (flags k a b dst len : Nat) (s : State) : Host.Outcome State Fault Refusal :=
  within (core < coreCount) (s.issue core h e (.vec .convert flags k a b dst len))
/-- Vector unit reciprocal (R135). -/
def execVecReciprocal (core : Nat) (h : OpHdr) (e : OpEnv) (flags k a b dst len : Nat) (s : State) : Host.Outcome State Fault Refusal :=
  within (core < coreCount) (s.issue core h e (.vec .recip flags k a b dst len))
/-- Vector unit reciprocal square root (R135). -/
def execVecRsqrt (core : Nat) (h : OpHdr) (e : OpEnv) (flags k a b dst len : Nat) (s : State) : Host.Outcome State Fault Refusal :=
  within (core < coreCount) (s.issue core h e (.vec .rsqrt flags k a b dst len))
/-- Vector unit base-2 exponential (R135). -/
def execVecExp2 (core : Nat) (h : OpHdr) (e : OpEnv) (flags k a b dst len : Nat) (s : State) : Host.Outcome State Fault Refusal :=
  within (core < coreCount) (s.issue core h e (.vec .exp2 flags k a b dst len))
/-- Vector unit base-2 logarithm (R135). -/
def execVecLog2 (core : Nat) (h : OpHdr) (e : OpEnv) (flags k a b dst len : Nat) (s : State) : Host.Outcome State Fault Refusal :=
  within (core < coreCount) (s.issue core h e (.vec .log2 flags k a b dst len))
/-- Vector unit sum (R136). -/
def execVecSum (core : Nat) (h : OpHdr) (e : OpEnv) (flags k a b dst len : Nat) (s : State) : Host.Outcome State Fault Refusal :=
  within (core < coreCount) (s.issue core h e (.vec .sum flags k a b dst len))
/-- Vector unit maximum (R136). -/
def execVecMaxReduction (core : Nat) (h : OpHdr) (e : OpEnv) (flags k a b dst len : Nat) (s : State) : Host.Outcome State Fault Refusal :=
  within (core < coreCount) (s.issue core h e (.vec .maxRed flags k a b dst len))
/-- Vector unit top-k (R137). -/
def execVecTopK (core : Nat) (h : OpHdr) (e : OpEnv) (flags k a b dst len : Nat) (s : State) : Host.Outcome State Fault Refusal :=
  within (core < coreCount) (s.issue core h e (.vec .topK flags k a b dst len))
/-- SEND (R198). -/
def execSend (core : Nat) (h : OpHdr) (e : OpEnv) (dest : Nat) (ctr : Option Nat) (src dst bytes : Nat) (s : State) :
    Host.Outcome State Fault Refusal :=
  within (core < coreCount) (s.issue core h e (.send dest ctr src dst bytes))
/-- MEM_READ (R215). -/
def execMemRead (core : Nat) (h : OpHdr) (e : OpEnv) (stream addr bytes token : Nat) (s : State) :
    Host.Outcome State Fault Refusal :=
  within (core < coreCount) (s.issue core h e (.memRead stream addr bytes token))
/-- MEM_WRITE (R216). -/
def execMemWrite (core : Nat) (h : OpHdr) (e : OpEnv) (stream addr bytes token : Nat) (s : State) :
    Host.Outcome State Fault Refusal :=
  within (core < coreCount) (s.issue core h e (.memWrite stream addr bytes token))
/-- PORT_SEND (R391). -/
def execPortSend (core : Nat) (h : OpHdr) (e : OpEnv) (port cls part dest : Nat) (ctr : Option Nat) (src dst bytes : Nat)
    (s : State) : Host.Outcome State Fault Refusal :=
  within (core < coreCount) (s.issue core h e (.portSend port cls part dest ctr src dst bytes))
/-- OPERATION_COMPLETE (R144). -/
def execOperationComplete (core idx : Nat) (s : State) : Host.Outcome State Fault Refusal :=
  within (core < coreCount) (match s.coreSite core with | some site => s.complete site idx | none => s)
/-- TRANSFER_COMPLETE (R144). -/
def execTransferComplete (idx : Nat) (s : State) : Host.Outcome State Fault Refusal := .next (s.transferEnds idx)
/-- REMOTE_INCREMENT (R146). -/
def execRemoteIncrement (core ctr inc frame pitch : Nat) (s : State) : Host.Outcome State Fault Refusal :=
  within (core < coreCount && ctr < 64) (s.remoteInc core ctr inc frame pitch)
/-- GATHER_FLUSH_IDLE (R142). -/
def execGatherFlushIdle (core line : Nat) (s : State) : Host.Outcome State Fault Refusal :=
  within (core < coreCount) (match s.coreSite core with | some site => s.gatherIdle site line | none => s)
/-- LEG_END (R149). -/
def execLegEnd (core : Nat) (s : State) : Host.Outcome State Fault Refusal := within (core < coreCount) (s.legEnd core)
/-- LEG_OVERRUN_STOP (R150). -/
def execLegOverrunStop (core : Nat) (s : State) : Host.Outcome State Fault Refusal :=
  within (core < coreCount) (s.legOverrun core)

end Sys2Proof.Machine
end

