-- ==== Sys2Proof/Machine/Rows.lean ====
section
/-!
DEFINITION. Array records, retirement of rows and spare rows (01_architecture R29, R30, R42; 07_weights R243, R250, R251).
-/

namespace Sys2Proof.Machine

/-! Array records. -/

/-- The vault's record of an array. -/
def State.rec_ (s : State) (a : Nat) : ArrRec := SMap.get .init s.wgt.recs a

/-- Writes an array's record: one atomic record write (R243). -/
def State.setRec (s : State) (a : Nat) (r : ArrRec) : State :=
  ({ s with wgt := { s.wgt with recs := SMap.set .init s.wgt.recs a r } }).recordWrites

/-- Whether an array's record says that it needs its chunk. -/
def State.needsChunk (s : State) (a : Nat) : Bool := (s.rec_ a).repair

/-- Marks an array as needing its chunk. -/
def State.setRepair (s : State) (a : Nat) : State := if s.needsChunk a then s else s.setRec a { s.rec_ a with repair := true }

/-- Ledger entries of an array that are live (R246). -/
def State.liveEntries (s : State) (a : Nat) : List LedgerEntry :=
  let r := s.rec_ a
  s.wgt.ledger.filter fun e => e.arr == a && (e.state == 1 || e.state == 3) && e.seq == r.seq && r.state == .valid

/-- Live entries of the part. -/
def State.liveLedger (s : State) : Nat :=
  (s.wgt.ledger.filter fun e => let r := s.rec_ e.arr; (e.state == 1 || e.state == 3) && e.seq == r.seq && r.state == .valid).length

/-- An array's age register with its flags (R118). -/
def State.setAge (s : State) (a hours : Nat) (assumed : Bool) : State :=
  let s := (s.setFld F.ARR_AGE_HOURS (min hours (2 ^ F.ARR_AGE_HOURS.width - 1)) a).setFlag F.ARR_AGE_ASSUMED assumed a
  (s.setFlag F.ARR_STATUS_DUE (decide (8760 ≤ hours)) a).setFlag F.ARR_STATUS_OVERDUE (decide (17520 < hours)) a

/-- The stamp of a completed programming or refresh pass (R254). -/
def State.stampRec (s : State) (a : Nat) (r : ArrRec) : State :=
  let r := { r with progUtc := s.utcSec, ageBase := 0, refreshNext := 0, poweredH := s.fld F.CLK_POWERED_HOURS,
                    stamp := if s.utcNs.isNone then some s.now else none }
  (s.setRec a r).setAge a 0 false

/-! Retirement (R29, R30, R250). -/

/-- Sets a bit of a number. -/
def withBit (v i : Nat) : Nat := if v.testBit i then v else v + 2 ^ i

/-- The field of retired rows of a half. -/
def retiredFld (h : Nat) : Fld := if h = 0 then F.GLB_RETIRED_W_ROWS else F.GLB_RETIRED_E_ROWS
/-- The field of unused spare rows of a half. -/
def unusedFld (h : Nat) : Fld := if h = 0 then F.GLB_SPARES_W_UNUSED else F.GLB_SPARES_E_UNUSED
/-- The field that shows a half FILLING. -/
def fillingFld (h : Nat) : Fld := if h = 0 then F.GLB_SPARES_W_FILLING else F.GLB_SPARES_E_FILLING

/-- STATE of a logical row. -/
def State.rowState (s : State) (h l : Nat) : Nat := s.fld F.GLB_ROWMAP_DATA_STATE (32 * h + l)
/-- The physical row that carries it. -/
def State.rowPhys (s : State) (h l : Nat) : Nat := s.fld F.GLB_ROWMAP_DATA_PROW (32 * h + l)

/-- The logical row that a physical row carries. -/
def State.rowLogical (s : State) (h p : Nat) : Option Nat :=
  (List.range 30).find? fun l => s.rowState h l ≠ 2 && s.rowPhys h l = p

/-- Whether a physical row is retired, in the vault. -/
def State.rowRetired (s : State) (h p : Nat) : Bool := (s.vfld (retiredFld h)).testBit p

/-- A core is retired, and with it its physical row (R250): recorded in the vault at once, effective at the next boundary. -/
def State.retireCore (s : State) (site : Nat) : State :=
  let h := siteHalf site
  let p := siteRow site
  if s.rowRetired h p then s
  else
    let s := (s.setVfld (retiredFld h) (withBit (s.vfld (retiredFld h)) p)).recordWrites
    { s with wgt := { s.wgt with retireDue := s.wgt.retireDue ++ [(h, p)] } }

/-- The arrays of a physical row. -/
def rowArrays (h p : Nat) : List Nat := (List.range 320).map fun i => 16 * (640 * h + 20 * p) + i

/-- A row's arrays are excluded for good, their ledger entries obsolete (R250). -/
def State.rowOff (s : State) (h p : Nat) : State :=
  let as_ := rowArrays h p
  let s := as_.foldl (fun (s : State) a => (s.setFld F.ARR_STATUS_MODE modeExcluded a).setArr a { s.arr a with retired := true }) s
  { s with wgt := { s.wgt with ledger := s.wgt.ledger.filter fun e => !as_.contains e.arr,
                               jobs := s.wgt.jobs.filter fun e => !as_.contains e.1 } }

/-- The lowest unused spare row of a half. -/
def State.spareRow (s : State) (h : Nat) : Option Nat :=
  (List.range 32).find? fun p => (s.rowLogical h p).isNone && !s.rowRetired h p

/-- Sets a spare-map entry, in the vault as well. -/
def State.setRow (s : State) (h l st p : Nat) : State :=
  let i := 32 * h + l
  ((((s.setFld F.GLB_ROWMAP_DATA_STATE st i).setVfld F.GLB_ROWMAP_DATA_STATE st i).setFld F.GLB_ROWMAP_DATA_PROW p i).setVfld
    F.GLB_ROWMAP_DATA_PROW p i).recordWrites

/-- One unused spare row fewer. -/
def State.useSpare (s : State) (h : Nat) : State :=
  let n := s.fld (unusedFld h) - 1
  (s.setFld (unusedFld h) n).setVfld (unusedFld h) n

/-- Arrays of a logical row that are not VALID. -/
def State.rowToGo (s : State) (h l : Nat) : List Nat :=
  (rowArrays h (s.rowPhys h l)).filter fun a => (s.rec_ a).state != .valid

/-- A report to the rack manager: the relay status (R259) as state, result, KIND of relay needed, shard; a part that does not
answer, 0xFFFF for none (R392); what this part says of itself: 0 nothing, 1 to be withdrawn, 2 may be admitted, 3 to be
substituted (R375, R423; log entry 34). -/
def State.reportMgr (s : State) (need peer self : Nat) : State :=
  let m := s.fld F.PRT_MGRSTATE_RMGR
  if m = s.fld F.PRT_PARTNUM_PART then s
  else
    let shard := match s.wgt.resident with | some r => r.shard | none => 0
    s.sendMsg m 0x0403 [s.wgt.st, s.wgt.result, need, shard, peer, self]

/-- Reports the relay status (R259). -/
def State.reportStatus (s : State) (need : Nat) : State := s.reportMgr need 0xFFFF 0

/-- A retirement takes effect at a boundary: the lowest unused spare row inherits the logical row and is FILLING, or the
logical row is LOST and the part withdrawn (R12, R29, R30). -/
def State.retireNow (s : State) (h p : Nat) : State :=
  let s := s.setFld (retiredFld h) (withBit (s.fld (retiredFld h)) p)
  match s.rowLogical h p with
  | none => (s.useSpare h).rowOff h p
  | some l =>
    match s.spareRow h with
    | some q =>
      let s := ((s.rowOff h p).setRow h l 1 q).useSpare h
      let s := s.setFld (fillingFld h) 1
      let s := (rowArrays h q).foldl (fun (s : State) a => (s.setFld F.ARR_STATUS_MODE modeMaint a).setRepair a) s
      s.reportStatus 2
    | none =>
      let s := (s.rowOff h p).setRow h l 2 0
      { s with mgr := { s.mgr with withdrawn := true } }

/-- A row whose fill is complete becomes ACTIVE (R29). -/
def State.rowActive (s : State) (h l : Nat) : State :=
  if s.rowState h l = 1 && (s.rowToGo h l).isEmpty then (s.setRow h l 0 (s.rowPhys h l)).setFld (fillingFld h) 0 else s

/-- Whether a row of a half is FILLING. -/
def State.halfFilling (s : State) (h : Nat) : Bool := (List.range 30).any fun l => s.rowState h l == 1

/-- The spare maps at a boundary (R29, R30): complete fills become ACTIVE, retirements take effect, a second one of a half
waiting until the fill before it is finished. -/
def State.rowsBoundary (s : State) : State :=
  let s := [0, 1].foldl (fun (s : State) h => if s.halfFilling h then (List.range 30).foldl (fun (s : State) l => s.rowActive h l) s else s) s
  let due := s.wgt.retireDue
  due.foldl (fun (s : State) d =>
      let own := match s.rowLogical d.1 d.2 with | some l => s.rowState d.1 l == 1 | none => true
      if s.halfFilling d.1 && !own then s
      else
        let s := { s with wgt := { s.wgt with retireDue := s.wgt.retireDue.filter (· != d) } }
        s.retireNow d.1 d.2) s

end Sys2Proof.Machine
end

