-- ==== Sys2Proof/Machine/ServeCommit.lean ====
section
/-!
DEFINITION. What a boundary does to serving (05_itineraries R184, R187, R194; 08_serving R264 to R277, R283 to R288).
-/

namespace Sys2Proof.Machine

/-! Key/value state (R213, R216). -/

/-- The engine commits a context: its committed length becomes the provisional one; TAILSEL changes when it moves into a
new group. -/
def State.kvCommit (s : State) (p ctx : Nat) : State :=
  let com := s.committed p ctx
  let prov := s.provisional p ctx
  let sel := s.tailSel p ctx
  s.setCommitted p ctx prov (if prov / 32 = com / 32 then sel else 1 - sel)

/-- The engine withholds a context: the provisional length returns to the committed one. -/
def State.kvDiscard (s : State) (p ctx : Nat) : State := s.setProvisional p ctx (s.committed p ctx)

/-! Waymarks (R283 to R288). -/

/-- Draws a handle that may stand in the table, up to four draws: the handle with its place. -/
def State.drawHandle : Nat → State → Nat → Option (Nat × Nat) × State
  | 0, s, _ => (none, s)
  | n + 1, s, p =>
    let d := s.draw
    let h := d.1 % 2 ^ 64
    let x := d.2.srv p
    match if h = 0 || (x.wmFind h).isSome then none else x.wmPlace (activeRegion x.tableState) h with
    | some k => (some (h, k), d.2)
    | none => State.drawHandle n d.2 p

/-- A live entry is made for a request's committed prefix: a new context over the same pages (R283). -/
def State.enterWaymark (s : State) (p h k : Nat) (r : Req) : Option State :=
  match r.ctx, (s.srv p).freeCtx with
  | some c, some c' =>
    let len := s.committed p c
    let n := (SMap.find? (s.srv p).ctxs c).getD len
    if (s.ctxPages p c n).any fun g => decide (65535 ≤ s.pageCount p g) then none
    else (s.makeCtx p c' n len (some (c, n))).map fun s =>
      let covers := min r.reserved (ceilDiv len 256 * 256)
      s.onSrv p fun x =>
        let w : Waymark := { handle := h, state := 1, shared := r.sub.shared, customer := r.sub.customer, ctx := c', len := len,
                             frame := s.frame.number, reserved := covers }
        { (x.setEntry k w).onReq r.sub.tag fun r => { r with reserved := r.reserved - covers } with
          counts := { x.counts with wmIssued := sat32 (x.counts.wmIssued + 1) } }
  | _, _ => none

/-- Issues a waymark for a request (R283): its handle, or that it failed.  A part that is not the entry part enters the
handle its notice announced. -/
def State.issueWaymark (s : State) (p : Nat) (r : Req) : (Option Nat) × State :=
  let fails (s : State) (full : Bool) : (Option Nat) × State :=
    (none, s.onSrv p fun x => { x with
      rebuildDue := x.rebuildDue || full, counts := { x.counts with wmFailed := sat32 (x.counts.wmFailed + 1) } })
  if r.sub.entry then
    match State.drawHandle 4 s p with
    | (none, s) => fails s true
    | (some (h, k), s) =>
      match s.enterWaymark p h k r with
      | some s => (some h, s)
      | none => fails s false
  else
    match (s.srv p).wmDue.find? fun e => e.1 == r.sub.tag with
    | none => (none, s)
    | some (_, h) =>
      match (s.srv p).wmPlace (activeRegion (s.srv p).tableState) h with
      | none => (none, s)
      | some k => match s.enterWaymark p h k r with
        | some s => (some h, s)
        | none => (none, s)

/-- A waymark is released: its entry is DEAD, its context gone (R285). -/
def State.releaseWaymark (s : State) (p h : Nat) : State :=
  match (s.srv p).wmFind h with
  | none => s
  | some k =>
    let w := (s.srv p).entry k
    (s.dropCtx p w.ctx).onSrv p fun x => { x.setEntry k { w with state := 2, reserved := 0 } with
      counts := { x.counts with wmReleased := sat32 (x.counts.wmReleased + 1) } }

/-- Every waymark of a pitch is released (R177, R194, R290). -/
def State.releaseAll (s : State) (p : Nat) : State := (s.srv p).wmLive.foldl (fun s e => s.releaseWaymark p e.2.handle) s

/-- A context that shares a waymark's pages (R286); with no page for its tables the request waits. -/
def State.referTo (s : State) (p : Nat) (r : Req) (c : Nat) (w : Waymark) (n : Nat) : State :=
  match s.makeCtx p c (max n (min 16777216 (r.prefixLen + r.sub.promptLen + r.sub.maxNew))) w.len (some (w.ctx, n)) with
  | some s => s.onSrv p fun x => { x.onReq r.sub.tag fun r => { r with ctx := some c, refDue := false } with
      counts := { x.counts with wmReused := sat32 (x.counts.wmReused + 1) } }
  | none => s.onCounts p fun c => { c with refWait := sat32 (c.refWait + 1) }

/-- A request takes its waymark's pages by reference (R284 to R286); one whose counts would overflow waits, and one whose waymark was
released meanwhile ends with LOST (log entry 61). -/
def State.takeReference (s : State) (p : Nat) (r : Req) : State :=
  let x := s.srv p
  let waits := s.onCounts p fun c => { c with refWait := sat32 (c.refWait + 1) }
  match (x.wmFind r.sub.waymark).map x.entry, x.freeCtx with
  | none, _ => s.onSrv p fun x => x.onReq r.sub.tag fun r => { r with ending := some 0x06 }
  | some w, some c =>
    let n := (SMap.find? x.ctxs w.ctx).getD w.len
    if (s.ctxPages p w.ctx n).any fun g => decide (65535 ≤ s.pageCount p g) then waits
    else
      s.referTo p r c w n
  | _, _ => waits

/-- A rebuild of the table begins when it is due (R288). -/
def ServeSt.rebuild (x : ServeSt) : ServeSt :=
  if (x.tableState = 0 || x.tableState = 2) && (x.rebuildDue || decide (131072 ≤ x.wmDead)) then
    { x with tableState := x.tableState + 1, mover := 0, rebuildDue := false }
  else x

/-- One entry moved to the new region, if it finds room (R288). -/
def ServeSt.moveEntry (x : ServeSt) (k : Nat) : ServeSt :=
  let w := x.entry k
  if w.state ≠ 1 then x
  else match x.wmPlace (activeRegion x.tableState) w.handle with
    | some k' => (x.setEntry k' w).setEntry k { w with state := 3, reserved := 0 }
    | none => x

/-- WAYMARK_MOVER: 512 old groups; with no live entry left the old region is written empty and the rebuild ends (R288). -/
def ServeSt.move (x : ServeSt) : ServeSt :=
  match oldRegion x.tableState with
  | none => x
  | some old =>
    let ks := (x.table.map (·.1)).filter fun k =>
      k / 2097152 == old && decide (x.mover ≤ k % 2097152 / 8) && decide (k % 2097152 / 8 < x.mover + 512)
    let x := ks.foldl (fun (x : ServeSt) k => x.moveEntry k) x
    let x := { x with mover := (x.mover + 512) % 262144 }
    if x.table.any fun e => e.1 / 2097152 == old && e.2.state == 1 then x
    else { x with
      table := x.table.filter fun e => e.1 / 2097152 != old
      tableState := (x.tableState + 1) % 4
      counts := { x.counts with rebuilds := sat32 (x.counts.rebuilds + 1) } }

/-- The mover runs once in a frame, outside the binding work. -/
def State.waymarkMover (s : State) (p : Nat) : State :=
  if s.holder = 0 || s.frame.readyPoint || (s.srv p).moverFrame == some s.frame.number then s
  else s.onSrv p fun x => { x.move with moverFrame := some s.frame.number }

/-! Rations (R273, R274). -/

/-- A ration with the masked fields of a command (Table 10-3). -/
def Ration.masked (r n : Ration) (mask : Nat) : Ration :=
  let on (i : Nat) : Bool := bitsAt mask i 1 == 1
  { r with
    unlimited := if on 0 then n.unlimited else r.unlimited, enabled := if on 1 then n.enabled else r.enabled,
    budget := if on 2 then n.budget else r.budget, amount := if on 3 then n.amount else r.amount,
    period := if on 4 then n.period else r.period, cap := if on 5 then n.cap else r.cap,
    overdraft := if on 6 then n.overdraft else r.overdraft }

/-- Refills due in the interval after `t0` up to `t1`, both in ns (R274). -/
def Ration.refill (r : Ration) (t0 t1 : Nat) : Ration :=
  let per := 1000 * max 1 r.period
  let k := t1 / per - t0 / per
  { r with budget := max r.budget (min (r.cap : Int) (r.budget + k * r.amount)) }

/-- Committed tokens are debited. -/
def Ration.debit (r : Ration) (n : Nat) : Ration := { r with budget := r.budget - n, debited := min (r.debited + n) (2 ^ 64 - 1) }

/-- Sets a ration. -/
def ServeSt.setRation (x : ServeSt) (c : Nat) (r : Ration) : ServeSt := { x with rations := SMap.set .init x.rations c r }

/-- A setting takes effect (R273, R292). -/
def ServeSt.applyChange (x : ServeSt) : ServeChange → ServeSt
  | .ration c mask r => x.setRation c ((x.ration c).masked r mask)
  | .age n => { x with ageLimit := n }
  | .partner n => { x with partnerTimeout := n }
  | .capacity t o => { x with capacity := t, overhead := o }
  | .pipeline l => { x with pipeline := l }
  | .clear => x

/-- Whether a change received at a time acts at this boundary: SET_RATION needs 300 ns (R273). -/
def changeActs (now t : Nat) : ServeChange → Bool
  | .ration .. => decide (t + 300 ≤ now)
  | _ => true

/-- The settings that act at this boundary. -/
def ServeSt.applyChanges (x : ServeSt) (now : Nat) : ServeSt :=
  let due := x.changes.filter fun e => changeActs now e.1 e.2
  let x := { x with changes := x.changes.filter fun e => !changeActs now e.1 e.2 }
  due.foldl (fun (x : ServeSt) e => x.applyChange e.2) x

/-- Every ration refilled (R274). -/
def ServeSt.refills (x : ServeSt) (t0 t1 : Nat) : ServeSt :=
  x.rations.foldl (fun (x : ServeSt) e => x.setRation e.1 (e.2.refill t0 t1)) x

/-! Slots (R187, R264, R266, R270). -/

/-- The completion of a committed slot (R266): the token it carries, its end status, the waymark issued. -/
def slotCompletion (r : Req) (frame status : Nat) (tok : Option (Nat × Nat)) (wm : Option Nat) (wmFailed : Bool) : Completion :=
  { tag := r.sub.tag, waymark := wm.getD 0, frame := frame,
    position := if tok.isSome then r.prefixLen + r.sub.promptLen + r.generated - 1 else r.length,
    token := tok.map (·.1), aux := (tok.map (·.2)).getD 0, generated := r.generated, status := status, wmFailed := wmFailed }

/-- A waymark, where one is wanted (R285). -/
def State.wantedWaymark (s : State) (p : Nat) (r : Req) (wants : Bool) : (Option Nat) × State :=
  if wants then s.issueWaymark p r else (none, s)

/-- A committed binding (R264, R266, R272): key/value state, progress, debit, waymark, completion, end.  `over` gives the status with
which a request ends at this boundary whatever it commits: its one completion carries token and status. -/
def State.commitBind (s : State) (p : Nat) (ending : Nat → Option Nat) (b : Bind) : State :=
  let s := s.kvCommit p b.ctx
  match (s.srv p).req b.tag with
  | none => s
  | some r =>
    let tok := s.slotToken p b.slot
    let adv := r.advance b (s.slotEnds p r b.slot)
    let r' := { adv.2 with pageFails := 0, lastToken := (tok.map (·.1)).getD r.lastToken }
    let made := decide (r.generated < r'.generated)
    let fin := match adv.1 with | some e => some e | none => ending b.tag
    let promptDone := decide (r.done < r.sub.promptLen) && decide (r.sub.promptLen ≤ r'.done)
    let s := s.onSrv p fun x =>
      let x := x.onReq b.tag fun _ => r'
      let x := if r.sub.entry then x.setRation r.sub.customer ((x.ration r.sub.customer).debit b.debit) else x
      { x with counts := { x.counts with
        promptTokens := min (x.counts.promptTokens + (r'.done - r.done)) (2 ^ 64 - 1)
        genTokens := min (x.counts.genTokens + if made then 1 else 0) (2 ^ 64 - 1) } }
    let wants := (r.sub.wmAt == 1 && promptDone) || (r.sub.wmAt == 2 && (adv.1 == some 0x01 || adv.1 == some 0x02))
    let wm := s.wantedWaymark p r' wants
    let s := wm.2
    let s :=
      if r.sub.exit && (made || fin.isSome) then
        s.postEntry r.queue (slotCompletion r' s.frame.number (fin.getD 0x00) (if made then tok else none) wm.1 (wants && wm.1.isNone))
      else s
    match fin with
    | none => s
    | some _ => (s.onCounts p fun c => { c with ended := sat32 (c.ended + 1) }).removeReq p b.tag

/-- A withheld binding (R187, R270, R281): nothing commits; three withholds in a row for want of a page end the request. -/
def State.withholdBind (s : State) (p : Nat) (b : Bind) : State :=
  let s := s.kvDiscard p b.ctx
  match (s.srv p).req b.tag with
  | none => s
  | some r =>
    let n := if b.noPage then r.pageFails + 1 else 0
    let s := s.onSrv p fun x => x.onReq b.tag fun r => { r with pageFails := n }
    if n = 3 then s.endReq p b.tag 0x07 else s

/-- One slot at the boundary. -/
def State.settleBind (s : State) (p : Nat) (withheld : Nat → Bool) (ending : Nat → Option Nat) (b : Bind) : State :=
  if (s.srv p).failed.contains b.tag then
    let n := if ((s.srv p).req b.tag).isSome then 1 else 0
    (s.withholdBind p b).onCounts p fun c => { c with dependentWithheld := sat32 (c.dependentWithheld + n) }
  else if withheld b.slot then s.withholdBind p b
  else s.commitBind p ending b

/-- The tags whose next binding depended on a slot now withheld, or on a request now ended (R270). -/
def failedNext (x : ServeSt) (old : List Bind) (withheld : Nat → Bool) (wasFailed : List Nat) : List Nat :=
  (x.next.filter fun b => b.dep && ((x.req b.tag).isNone
    || old.any fun o => o.tag == b.tag && (withheld o.slot || wasFailed.contains b.tag))).map (·.tag)

/-- Whether a cancel received at a time acts at this boundary (R265). -/
def State.cancelActs (s : State) (e : Nat × Nat) : Bool := decide (e.2 + 300 ≤ s.now)

/-- The requests that end at this boundary whatever it commits, with their status: cancels that act, ends that waited for it (R265,
R317, R352, R406). -/
def State.endsHere (s : State) (p : Nat) : List (Nat × Nat) :=
  let x := s.srv p
  (x.reqs.filterMap fun r => r.ending.map fun e => (r.sub.tag, e)) ++ (x.cancels.filter s.cancelActs).map fun e => (e.1, 0x04)

/-- They end, those that have not ended with what they committed. -/
def State.endsAct (s : State) (p : Nat) (ends : List (Nat × Nat)) : State :=
  let s := s.onSrv p fun x => { x with cancels := x.cancels.filter fun e => !s.cancelActs e }
  ends.foldl (fun (s : State) e => s.endReq p e.1 e.2) s

/-- Every request of a pitch is to end at this boundary with a status. -/
def State.endAll (s : State) (p status : Nat) : State :=
  s.onSrv p fun x => { x with next := [], reqs := x.reqs.map fun r => { r with ending := match r.ending with | some e => some e | none => some status } }

/-- A request at a boundary (R262, R277): a matched one opens, an unmatched one waits a frame more, a queued one that its
ration allowed and no binding took grows older; the first boundary after START ends no frame (R177). -/
def Req.frame (x : ServeSt) (first : Bool) (r : Req) : Req :=
  match r.phase with
  | .pending => if r.partnered then { r with phase := .queued, order := x.opened } else { r with waited := if first then r.waited else r.waited + 1 }
  | .queued =>
    if !first && (x.ration r.sub.customer).enabled && (r.rationOk || r.refDue) && !x.next.any (fun b => b.tag == r.sub.tag) then
      { r with age := r.age + 1, urgent := r.urgent || decide (x.ageLimit < r.age + 1), rationOk := false }
    else { r with rationOk := false }
  | _ => r

/-- All requests at a boundary, in the order they were accepted. -/
def ServeSt.ages (x : ServeSt) (first : Bool) : ServeSt :=
  let old := x.reqs
  let step := old.foldl (fun (x : ServeSt) r =>
      let r' := r.frame x first
      let x := x.onReq r.sub.tag fun _ => r'
      { x with opened := if r.phase = .pending && r'.phase = .queued then x.opened + 1 else x.opened,
               counts := if r'.urgent && !r.urgent then { x.counts with urgentRaised := sat32 (x.counts.urgentRaised + 1) } else x.counts })
    x
  if first then step
  else { step with regs := (step.regs.map fun g => { g with waited := g.waited + 1 }).filter fun g => decide (g.waited < x.partnerTimeout) }

/-- The bindings of the new frame (R267, R268): those of its notice; without one every slot is unbound, reported and to be
withheld.  `fresh` says that no notice was due. -/
def State.bindFrame (s : State) (p : Nat) (fresh : Bool) : State :=
  let x := s.srv p
  let s := x.binds.foldl (fun s b => s.setBinding p b.slot none) s
  let have_ := x.nextFrame == some s.frame.number && !fresh
  let bs := if have_ then x.next else []
  let slots := (s.pitchSlots p).map (·.slot)
  let late := !have_ && !fresh && !slots.isEmpty && s.pitchOn p
  let s := s.onSrv p fun x => { x with
    binds := bs, next := [], nextFrame := none, late := if late then slots else [], report := none,
    counts := if late then { x.counts with bindLate := sat32 (x.counts.bindLate + 1) } else x.counts }
  let s := if late then s.withholdNotice s.frame.number 2 slots else s
  bs.foldl (fun s b => (s.kvDiscard p b.ctx).setBinding p b.slot (some b.ctx)) s

/-- Whether a pitch serves nothing at this part: the part is withdrawn, or the pitch with its pipeline (R406). -/
def State.outOf (s : State) (p : Nat) : Bool := s.mgr.withdrawn || s.mgr.pitchOut.contains p

/-- The serving of one pitch at a boundary that begins frame `number` (R184 to R187, R264, R273, R285): slots settle in slot
order, rations change, waymarks are referenced and released, ends act, requests open and age, the new bindings hold.
`prev` is the time of the boundary before on the part's time base, `first` the first boundary after START. -/
def State.serveBoundary (s : State) (p prev : Nat) (withheld : Nat → Bool) (fresh first : Bool) : State :=
  let s := s.onSrv p fun x => if x.changes.any fun e => e.2 == .clear then { x with counts := .zero } else x
  let s := if s.outOf p then s.endAll p 0x06 else s
  let old := (s.srv p).binds.mergeSort fun a b => decide (a.slot ≤ b.slot)
  let wasFailed := (s.srv p).failed
  let ends := s.endsHere p
  let ending (tag : Nat) : Option Nat := (ends.find? fun (e : Nat × Nat) => e.1 == tag).map (·.2)
  let s := old.foldl (fun (s : State) b => s.settleBind p withheld ending b) s
  let s := s.onSrv p fun x =>
    let fresh := (x.reqs.filter fun r => r.phase == .genWait && r.generated == 1 && old.any fun b => b.tag == r.sub.tag).map (·.sub.tag)
    { x with reqs := promote (s.genSlots p).length fresh x.reqs }
  let s := s.onSrv p fun x => (x.applyChanges s.now).refills prev s.time
  let s := ((s.srv p).reqs.filter fun r => r.refDue).foldl (fun (s : State) r => s.takeReference p r) s
  let rel := (s.srv p).releases
  let s := rel.foldl (fun (s : State) h => s.releaseWaymark p h) (s.onSrv p fun x => { x with releases := [] })
  let s := s.endsAct p ends
  let s := s.onSrv p fun x => { x with failed := failedNext x old withheld wasFailed }
  let s := s.onSrv p fun x => (x.ages first).rebuild
  s.bindFrame p (fresh || s.outOf p)

/-- Every request of a pitch ends, every waymark is released (R177, R194). -/
def State.drainPitch (s : State) (p : Nat) : State :=
  ((s.srv p).reqs.foldl (fun s r => s.endReq p r.sub.tag 0x05) s).releaseAll p

/-- Queues that drain and hold nothing become DISABLED (R320). -/
def State.queuesSettle (s : State) : State :=
  let open' (s : State) (q : Nat) : Bool := (s.srv (s.qPitch q)).reqs.any fun r => r.queue == q
  ((List.range 1024).filter fun q => s.qState q == qDraining).foldl (fun s q =>
      if (s.queue q).waiting.isEmpty && !open' s q then s.queueOff q else s) s

/-! Serving commands (Tables 8-9, 10-3). -/

/-- Adds a setting that waits for its boundary. -/
def State.serveChange (s : State) (p : Nat) (c : ServeChange) : State :=
  s.onSrv p fun x => { x with changes := x.changes ++ [(s.now, c)] }

/-- The masked fields of a ration within Table 8-5. -/
def Ration.ok (r : Ration) (mask : Nat) : Bool :=
  let on (i : Nat) : Bool := bitsAt mask i 1 == 1
  (!on 2 || (decide (-(2 ^ 47 : Int) ≤ r.budget) && decide (r.budget < 2 ^ 47))) && (!on 3 || decide (r.amount < 2 ^ 32))
    && (!on 4 || (decide (100 ≤ r.period) && decide (r.period ≤ 60000000)))
    && (!on 5 || decide (r.cap < 2 ^ 48)) && (!on 6 || decide (r.overdraft < 2 ^ 20))

/-- SET_RATION (R273). -/
def State.setRationCmd (s : State) (c : Mgmt) (customer mask : Nat) (r : Ration) : State :=
  if 4095 < customer || !r.ok mask then s.answer c 0x41 1 customer
  else (s.serveChange c.on (.ration customer mask r)).answer c 0x41 0 customer

/-- Pending debits of a customer (R272). -/
def ServeSt.pendingTokens (x : ServeSt) (customer : Nat) : Nat :=
  SMap.get 0 (pendingOf x (x.binds ++ x.next) []) customer

/-- READ_RATION (R273): the fields as they stood after the last boundary, PENDING as it stands. -/
def State.readRationCmd (s : State) (c : Mgmt) (customer : Nat) : State :=
  if 4095 < customer then s.answer c 0x42 1 customer
  else
    let x := s.srv c.on
    let r := x.ration customer
    let d := toLe 2 customer ++ toLe 2 0 ++ toLe 4 ((if r.unlimited then 1 else 0) + (if r.enabled then 2 else 0))
      ++ toLe 8 (ofSigned 64 r.budget) ++ toLe 4 r.amount ++ toLe 4 r.period ++ toLe 8 r.cap ++ toLe 4 r.overdraft ++ toLe 4 0
      ++ toLe 8 r.debited ++ toLe 8 (x.pendingTokens customer)
    s.answer c 0x42 0 customer d

/-- RELEASE_WAYMARK (R285): always answered 0; a handle not live is counted as REFUSED. -/
def State.releaseCmd (s : State) (c : Mgmt) (h : Nat) : State :=
  let x := s.srv c.on
  let s :=
    if (x.wmFind h).isSome && !x.releases.contains h then s.onSrv c.on fun x => { x with releases := x.releases ++ [h] }
    else s.onCounts c.on fun k => { k with refused := sat32 (k.refused + 1) }
  s.answer c 0x43 0 (h % 2 ^ 32)

/-- What a SET_SERVING asks for: parameters 1 to 4 of Table 10-3, or another. -/
def servingChange (param v1 v2 : Nat) (parts : List Nat) : Option ServeChange :=
  if param = 1 then if 4 ≤ v1 && v1 ≤ 4096 then some (.age v1) else none
  else if param = 2 then if 16 ≤ v1 && v1 ≤ 65535 then some (.partner v1) else none
  else if param = 3 then some (.capacity v1 v2)
  else if param = 4 then if 1 ≤ parts.length && parts.length ≤ 1024 then some (.pipeline (parts.map (· % 65536))) else none
  else none

/-- SET_SERVING (R292). -/
def State.setServingCmd (s : State) (c : Mgmt) (param v1 v2 : Nat) (parts : List Nat) : State :=
  match servingChange param v1 v2 parts with
  | some ch => (s.serveChange c.on ch).answer c 0x44 0 param
  | none => s.answer c 0x44 1 param

/-- The capacity of a pitch in tokens (R280): the tokens that its data pages hold in every stream at once, n tokens of a stream
taking n over the tokens of one page. -/
def State.capTokens (s : State) (p : Nat) : Nat :=
  let perPage := (s.pitchStreams p).map fun r => 32 * groupsPerPage (rowWidth r.bpt)
  let pages := s.pitchPages p - s.firstFree p
  let all := perPage.foldl (· * ·) 1
  let each := perPage.foldl (fun n t => n + all / max 1 t) 0
  if each = 0 then 0 else min (pages * all / each) (2 ^ 32 - 1)

/-- The serving record (Table 8-10). -/
def State.servingRecord (s : State) (p : Nat) : Bytes :=
  let x := s.srv p
  let n (f : Req → Bool) : Bytes := toLe 4 (x.reqs.filter f).length
  let c := x.counts
  n (fun _ => true) ++ n (fun r => r.phase == .generating) ++ n (fun r => r.phase == .queued) ++ n (fun r => r.urgent)
    ++ toLe 8 x.reservedTokens ++ toLe 4 (s.capTokens p) ++ toLe 4 x.wmLive.length ++ toLe 4 x.wmDead ++ toLe 4 x.tableState
    ++ ([c.submitted, c.refused, c.ended, c.rationWait, c.genSlotWait, c.urgentRaised, c.bindLate, c.dependentWithheld,
         c.pageFail, c.copyWait, c.refWait, c.wmIssued, c.wmReused, c.wmReleased, c.wmFailed, c.rebuilds].flatMap (toLe 4))
    ++ toLe 8 c.promptTokens ++ toLe 8 c.genTokens ++ toLe 8 0

/-! The commands' meanings. -/

/-- WAYMARK_MOVER (R288). -/
def execWaymarkMover (pitch : Nat) (s : State) : Host.Outcome State Fault Refusal := within (pitch < 16) (s.waymarkMover pitch)
/-- SET_RATION (R273). -/
def execSetRation (c : Mgmt) (customer mask : Nat) (r : Ration) (s : State) : Host.Outcome State Fault Refusal :=
  within c.ok (s.mgmt c (pitchCmd 0x41 roleOpr) customer fun s => s.setRationCmd c customer mask r)
/-- READ_RATION (R328). -/
def execReadRation (c : Mgmt) (customer : Nat) (s : State) : Host.Outcome State Fault Refusal :=
  within c.ok (s.mgmt c (pitchCmd 0x42 roleOpr) customer fun s => s.readRationCmd c customer)
/-- RELEASE_WAYMARK (R285). -/
def execReleaseWaymark (c : Mgmt) (handle : Nat) (s : State) : Host.Outcome State Fault Refusal :=
  within c.ok (s.mgmt c (pitchCmd 0x43 roleOpr) (handle % 2 ^ 32) fun s => s.releaseCmd c handle)
/-- SET_SERVING (R292): the installer role for parameters 3 and 4; PIPELINE reads its payload. -/
def execSetServing (c : Mgmt) (param v1 v2 : Nat) (parts : List Nat) (s : State) : Host.Outcome State Fault Refusal :=
  within c.ok (s.mgmt c (pitchCmd 0x44 (if param = 3 || param = 4 then roleIns else roleOpr)
      (param != 4 || (decide (2 ≤ c.len) && decide (c.len ≤ 2048) && c.len % 2 == 0)) (param == 4)) param
    fun s => s.setServingCmd c param v1 v2 parts)
/-- READ_SERVING (R293): 128 bytes to host memory. -/
def execReadServing (c : Mgmt) (s : State) : Host.Outcome State Fault Refusal :=
  within c.ok (s.mgmt c (pitchCmd 0x45 roleOpr (decide (128 ≤ c.len))) 0
    fun s => (s.hostOutput c.fn (s.servingRecord c.on)).answer c 0x45 0 0)
/-- CLEAR_SERVING_COUNTERS (R293). -/
def execClearServingCounters (c : Mgmt) (s : State) : Host.Outcome State Fault Refusal :=
  within c.ok (s.mgmt c (pitchCmd 0x46 roleOpr) 0 fun s => (s.serveChange c.on .clear).answer c 0x46 0 0)

end Sys2Proof.Machine
end

