-- ==== Sys2Proof/Machine/Manager.lean ====
section
/-!
DEFINITION. The managers' domain, whose messages a part accepts, unloading (12_links_and_fabric R400, R401;
05_itineraries_and_frames R177).
-/

namespace Sys2Proof.Machine

/-! The domain (Table 12-11). -/

/-- Domain entries: 4,096. -/
def domainSize : Nat := 4096

/-- The valid entries of the domain. -/
def State.entries (s : State) : List Nat := (List.range domainSize).filter fun i => s.flag F.PRT_DOM_DATA_VALID i

/-- The part of an entry. -/
def State.entryPart (s : State) (i : Nat) : Nat := s.fld F.PRT_DOM_DATA_PART i

/-- The valid entry of a part. -/
def State.entryOf (s : State) (part : Nat) : Option Nat := s.entries.find? fun i => s.entryPart i == part

/-- The entries of this rack manager's rack, in ascending part number. -/
def State.rack (s : State) : List Nat :=
  (s.entries.filter fun i => s.flag F.PRT_DOM_DATA_RACK i).mergeSort fun a b => decide (s.entryPart a ≤ s.entryPart b)

/-- Whether this part acts as rack manager. -/
def State.isRack (s : State) : Bool := s.flag F.PRT_ROLE_RACK

/-- Whether it acts as whistling manager. -/
def State.isWhistle (s : State) : Bool := s.flag F.PRT_ROLE_WHISTLE

/-- The current rack manager's part number. -/
def State.rackMgr (s : State) : Nat := s.fld F.PRT_MGRSTATE_RMGR

/-- The current whistling manager's. -/
def State.whistleMgr (s : State) : Nat := s.fld F.PRT_MGRSTATE_WMGR

/-- A message that only a manager may send (R401): taken from the manager named and with no lower epoch than seen, otherwise
dropped and counted. -/
def State.fromMgr (s : State) (mgr src epoch : Nat) (act : State → State) : State :=
  if src ≠ mgr || src = 0xFFFF || decide (epoch < s.fld F.PRT_MGREPOCH_EPOCH) then s.count F.PRT_MGRDROPCNT
  else act (s.setFld F.PRT_MGREPOCH_EPOCH epoch)

/-! Unloading (R177). -/

/-- The itinerary is unloaded: every request ends with DRAINED, every waymark is released, and the frame state is EMPTY; the
completions are posted at once. -/
def State.unloadItin (s : State) : State :=
  let s := (List.range 16).foldl (fun (s : State) p => s.drainPitch p) s
  let s := ((List.range 1024).foldl (fun (s : State) q => s.completionMsi q) s).queuesSettle
  { s with frame := { s.frame with st := .empty, active := none, repl := none, stops := [], held := false, tNom := 0 } }

/-- Changes the weights' state. -/
def State.onWgt (s : State) (f : WgtSt → WgtSt) : State := { s with wgt := f s.wgt }

end Sys2Proof.Machine
end

