-- ==== Sys2Proof/Machine/Integrity.lean ====
section
/-!
DEFINITION. The fate of a suspect leg, replay on a partner, and the withheld lists (11_integrity_and_recovery R351 to R365).
-/

namespace Sys2Proof.Machine

/-- Changes the managers' state. -/
def State.onMgr (s : State) (f : MgrSt → MgrSt) : State := { s with mgr := f s.mgr }

/-! What a leg is to its frame. -/

/-- A leg of the active itinerary. -/
def State.legAt (s : State) (core leg : Nat) : Option Leg := (s.legsOf core)[leg]?

/-- The slots that a leg's withholding withholds (R351): its own, or where it produces none those of its pitch. -/
def State.legSlots (s : State) (core leg : Nat) : List Nat :=
  match s.legAt core leg with
  | none => []
  | some l =>
    if l.hdr.slotCount ≠ 0 then (List.range l.hdr.slotCount).map (l.hdr.firstSlot + ·)
    else match s.corePitch core with
      | some p => (s.pitchSlots p).map (·.slot)
      | none => []

/-- The replay group of a leg's unit. -/
def State.unitGroup (s : State) (u : Nat) : Option Nat :=
  (s.frame.active.bind fun it => it.units.find? fun r => r.unit == u).map (·.group)

/-- The time after which no replay's result is placed: 1.25 · T_nom − 10 µs (R362). -/
def State.replayLimit (s : State) : Nat := 125 * s.frame.tNom / 100 - 10000

/-- The slots of a leg are withheld for a reason of Table 11-2. -/
def State.withholdLeg (s : State) (core leg reason : Nat) : State := s.withholdNotice s.frame.number reason (s.legSlots core leg)

/-! Dependent legs (R361). -/

/-- Whether a suspect leg of a core has no clean result in place. -/
def State.openSuspect (s : State) (core leg : Nat) : Bool :=
  s.frame.suspectLegs.contains (core, leg) && !(s.mgr.asked.any fun a => a.core == core && a.leg == leg && a.clean)

/-- Whether a leg that starts now takes in what a suspect leg of its core was to put out. -/
def State.startsDependent (s : State) (site core leg : Nat) : Bool :=
  match s.frame.active, s.legAt core leg with
  | some it, some l =>
    (List.range leg).any fun i => s.openSuspect core i && match s.legAt core i with
      | some k => meetRanges (it.replayInput (s.chainTable site) core l) (it.replayOutput (s.chainTable site) k)
      | none => false
  | _, _ => false

/-- The counter of a core that an operation held back was to increase. -/
def Suppressed.target (p : Suppressed) : Option (Nat × Nat) :=
  match p.op.kind with
  | .send dest (some k) _ _ _ => some (dest, k)
  | _ => none

/-- Whether a leg was stopped while it waited on a counter that a held-back operation was to increment. -/
def State.stoppedDependent (s : State) (core leg : Nat) : Bool :=
  s.frame.waitingAtStop.any fun w => w.1 == core && w.2.1 == leg
    && (s.mgr.heldCtrs.contains (core, w.2.2) || s.frame.suppressed.any fun p => p.target == some (core, w.2.2))

/-- A dependent leg is not replayed, its slots are withheld. -/
def State.makeDependent (s : State) (core leg : Nat) : State :=
  let s := s.onMgr fun m => { m with dependents := m.dependents ++ [(core, leg)], decided := m.decided ++ [(core, leg)] }
  (s.countReplay 6).withholdLeg core leg 6

/-- The next leg of a logical core starts (R149); one that takes in what a suspect leg should have put out is dependent. -/
def State.startLeg (s : State) (core : Nat) : State :=
  let t := s.legStart core
  match t.coreSite core with
  | none => t
  | some site =>
    match (s.core site).run, (t.core site).run with
    | none, some r => if t.startsDependent site core r.idx then t.makeDependent core r.idx else t
    | _, _ => t

/-! What the host-port engine delivers (R307, R308). -/

/-- Whether a binding takes its tokens from the prompt: a chunk, or a prompt token fed through a generation slot (R278). -/
def Bind.fromPrompt (b : Bind) (r : Req) : Bool := !b.gen || decide (b.pos < r.prefixLen + r.sub.promptLen)

/-- The inbox of a slot that holds `n` tokens: position, count, identities, zeros. -/
def inboxBytes (n pos : Nat) (tokens : List Nat) : Bytes :=
  toLe 4 pos ++ toLe 4 tokens.length ++ (List.range n).flatMap fun i => toLe 4 (tokens.getD i 0)

/-- What the engine delivers to a slot in this frame: position and tokens; none where the prompt's tokens are late.  Of an idle
slot the rules give COUNT 0 alone: its position is 0 (log entry 50). -/
def State.inboxOf (s : State) (r : SlotRec) : Option (Nat × List Nat) :=
  let x := s.srv r.pitch
  match x.binds.find? fun b => b.slot == r.slot with
  | none => some (0, [])
  | some b =>
    match x.req b.tag with
    | none => some (0, [])
    | some q =>
      if b.fromPrompt q then
        (s.host.staged.find? fun t => t.pitch == r.pitch && t.slot == r.slot && t.frame == s.frame.number).map fun t => (b.pos, t.tokens)
      else some (b.pos, [q.lastToken])

/-- The context position of a slot's binding: what its inbox shows beside COUNT 0 where the prompt's tokens are late. -/
def State.latePos (s : State) (r : SlotRec) : Nat :=
  match (s.srv r.pitch).binds.find? fun b => b.slot == r.slot with
  | some b => b.pos
  | none => 0

/-- The slots of a host delivery: consecutive ones from the first, until their inboxes make up the bytes. -/
def Itin.inboxRun (it : Itin) (first bytes : Nat) : List SlotRec :=
  ((List.range 4096).foldl (fun (a : Nat × List SlotRec) i =>
      if bytes ≤ a.1 then a
      else match it.slots.find? fun r => r.slot == first + i with
        | some r => (a.1 + 8 + 4 * r.tokens, a.2 ++ [r])
        | none => (bytes, a.2)) (0, [])).2

/-- The bytes of a host delivery: the inboxes of its run. -/
def State.hostBytes (s : State) (it : Itin) (r : PortRec) : Bytes :=
  (it.inboxRun r.part r.bytes).flatMap fun q => let v := (s.inboxOf q).getD (s.latePos q, []); inboxBytes q.tokens v.1 v.2

/-! The request (R355, R357, R358). -/

/-- The MEM_READs of a suspect leg that have not been issued: of the leg as it runs, or as its last report gives them. -/
def State.unreadOf (s : State) (site : Nat) (rep : SuspectRep) : List Op :=
  match (s.core site).run with
  | some r => if r.idx = rep.leg && r.replay.isNone then r.unread else last
  | none => last
where
  last := ((s.frame.reports.find? fun q => q.core == rep.core && q.leg == rep.leg && q.frame == rep.frame && q.final).getD rep).unread

/-- The operations that a core has still to start in this frame. -/
def State.aheadOn (s : State) (site core : Nat) : List Op :=
  let c := s.core site
  (match c.run with | some r => if r.replay.isSome then [] else r.ahead | none => []) ++ ((s.legsOf core).drop c.nextLeg).flatMap (·.ops)

/-- What the SENDs of other cores that have not been issued have in their source ranges for a core. -/
def State.sendsAhead (s : State) (it : Itin) (core : Nat) : List (Nat × Bytes) :=
  it.shares.flatMap fun sh =>
    match s.coreSite sh.core with
    | some site => if sh.core = core then [] else (s.aheadOn site sh.core).filterMap fun o => match o.kind with
        | .send dest _ src dst bytes => if dest = core then some (dst, s.hamperRead site src bytes) else none
        | _ => none
    | none => []

/-- What the MEM_READs of a leg that have not been issued deliver. -/
def State.readsAhead (s : State) (core : Nat) (l : Leg) (ops : List Op) : List (Nat × Bytes) :=
  ops.filterMap fun o => match o.kind with
    | .memRead stream addr bytes token => (s.streamRec stream).map fun r => (addr, s.readData (s.hdrSlot core l.hdr token) r bytes token)
    | _ => none

/-- What is still on its way to a core's hamper (R357): transfers, host deliveries not yet made, from the engine's staging buffer, SENDs
from their source ranges, and the leg's own reads. -/
def State.comingTo (s : State) (site core : Nat) (rep : SuspectRep) (l : Leg) : List (Nat × Bytes) :=
  let moving := (s.net.transfers.filter fun t => t.core == core && t.frame == s.frame.number).map fun t => (t.addr, t.data)
  let staged := match s.frame.active with
    | some it => ((it.ports.zipIdx.filter fun p => p.1.port == 32 && p.1.core == core && SMap.get 0 s.fab.arrived p.2 == 0).map fun p =>
        (p.1.addr, s.hostBytes it p.1)) ++ s.sendsAhead it core
    | none => []
  moving ++ staged ++ s.readsAhead core l (s.unreadOf site rep)

/-- The bytes of a range of a core's hamper as they stand or are still on their way. -/
def State.inputBytes (s : State) (site : Nat) (coming : List (Nat × Bytes)) (r : Nat × Nat) : Bytes :=
  (List.range r.2).map fun i =>
    match coming.find? fun t => decide (t.1 ≤ r.1 + i) && decide (r.1 + i < t.1 + t.2.length) with
    | some t => t.2.getD (r.1 + i - t.1) 0
    | none => s.hamperByte site (r.1 + i)

/-- Whether a fabric arrival that a leg waits for has not completed: it cannot be fetched again (R357). -/
def State.arrivalMissing (s : State) (core : Nat) (l : Leg) : Bool :=
  match s.frame.active with
  | none => false
  | some it =>
    let waits := l.ops.filterMap (·.hdr.waitCtr)
    it.ports.zipIdx.any fun p => p.1.port != 32 && p.1.core == core && waits.contains p.1.ctr && decide (SMap.get 0 s.fab.arrived p.2 < p.1.bytes)

/-- The partner of a leg's group, if the replay map names one (R354). -/
def State.partnerOf (s : State) (l : Leg) : Option Nat :=
  (l.hdr.unit.bind s.unitGroup).bind fun g => SMap.find? s.mgr.map g

/-- Whether a suspect leg goes without a replay (R351, R357, R362). -/
def State.notReplayable (s : State) (rep : SuspectRep) (l : Leg) : Bool :=
  match l.hdr.unit with
  | none => true
  | some u => rep.noReplay || s.mgr.units.contains u || (s.partnerOf l).isNone || s.arrivalMissing rep.core l || decide (s.replayLimit ≤ s.frameNs)

/-- REPLAY_REQUEST to the partner, REPLAY_PENDING to the manager and the parts of the pipeline (R358). -/
def State.askReplay (s : State) (site : Nat) (rep : SuspectRep) (l : Leg) (it : Itin) (partner group : Nat) : State :=
  let rs := it.replayInput (s.chainTable site) rep.core l
  let s := s.sendMsg partner 0x0201 ([group, rep.core, rep.leg, rs.length] ++ rs.flatMap fun r => [r.1, r.2])
    (rs.flatMap fun r => s.inputBytes site (s.comingTo site rep.core rep l) r)
  let slots := s.legSlots rep.core rep.leg
  let p := (s.corePitch rep.core).getD 0
  let dests := (s.rackMgr :: (s.srv p).pipeline).eraseDups.filter fun q => q != s.partNum
  let s := dests.foldl (fun (s : State) q => s.sendMsg q 0x0204 slots) s
  let a : Asked := { core := rep.core, leg := rep.leg, frame := s.frame.number, partner := partner, clean := false, refused := false,
                     output := none }
  (s.onMgr fun m => { m with
    asked := m.asked ++ [a], units := m.units ++ l.hdr.unit.toList, decided := m.decided ++ [(rep.core, rep.leg)],
    pendingSlots := m.pendingSlots ++ slots }).countReplay 0

/-- The leader decides the fate of a suspect leg (Table 11-1). -/
def State.decideFate (s : State) (rep : SuspectRep) : State :=
  match s.coreSite rep.core, s.legAt rep.core rep.leg, s.frame.active with
  | some site, some l, some it =>
    let dec := s.onMgr fun m => { m with decided := m.decided ++ [(rep.core, rep.leg)] }
    if s.mgr.dependents.contains (rep.core, rep.leg) then s
    else if rep.cause.testBit causeOverrun && s.stoppedDependent rep.core rep.leg then s.makeDependent rep.core rep.leg
    else if s.notReplayable rep l then (dec.countReplay 5).withholdLeg rep.core rep.leg 6
    else match s.partnerOf l, l.hdr.unit.bind s.unitGroup with
      | some partner, some group => s.askReplay site rep l it partner group
      | _, _ => (dec.countReplay 5).withholdLeg rep.core rep.leg 6
  | _, _, _ => s

/-! The result (R360, R362). -/

/-- Changes what was asked for a leg. -/
def State.onAsked (s : State) (core leg : Nat) (f : Asked → Asked) : State :=
  s.onMgr fun m => { m with asked := m.asked.map fun a => if a.core = core && a.leg = leg then f a else a }

/-- The replay asked for a leg that may still end clean. -/
def State.openAsked (s : State) (core leg : Nat) : Option Asked :=
  s.mgr.asked.find? fun a => a.core == core && a.leg == leg && !a.clean && !a.refused

/-- A replay is of no use any more: the leg's slots are withheld. -/
def State.dropReplay (s : State) (core leg k reason : Nat) : State :=
  ((s.onAsked core leg fun a => { a with refused := true, output := none }).countReplay k).withholdLeg core leg reason

/-- A suppressed operation issues from its captured payload. -/
def State.issueHeld (s : State) (site core : Nat) (l : Leg) (p : Suppressed) (data : Bytes) : State :=
  match p.op.kind with
  | .send dest ctr _ dst _ => s.sendBytes site dest ctr dst data false
  | .memWrite stream _ _ token =>
    match s.streamRec stream with
    | some r => s.writeTokens site (s.hdrSlot core l.hdr token) r token data
    | none => s
  | .portSend port cls part dest ctr _ dst _ => s.portBytes site port cls part dest ctr dst data false
  | _ => s

/-- A clean output is placed: its hamper bytes, then every operation held back (R360). -/
def State.placeOutput (s : State) (core leg : Nat) (out : List (Nat × Bytes) × List (Nat × Bytes)) : State :=
  match s.coreSite core, s.legAt core leg with
  | some site, some l =>
    let s := out.1.foldl (fun (s : State) w => s.hamperWrite site w.1 w.2) s
    let held := s.frame.suppressed.filter fun p => p.core == core && p.leg == leg
    let s := held.foldl (fun (s : State) p =>
        match out.2.find? fun c => c.1 == p.idx with
        | some c => s.issueHeld site core l p c.2
        | none => s) s
    let s := { s with frame := { s.frame with suppressed := s.frame.suppressed.filter fun p => !(p.core == core && p.leg == leg) } }
    (s.onAsked core leg fun a => { a with clean := true, output := none }).countReplay 1
  | _, _ => s

/-- A suspect report reaches the leader half (R151, R351): the first decides the leg's fate; the last, at the leg's end, has a
stored output placed, or ends a replay that a later cause forbids. -/
def State.suspectReport (s : State) (i : Nat) : State :=
  match s.frame.reports[i]? with
  | none => s
  | some rep =>
    let s := { s with frame := { s.frame with reports := s.frame.reports.eraseIdx i } }
    let s := s.raiseBoth irqSuspect
    if rep.frame ≠ s.frame.number || s.fld F.RGR_LATCH_HOLDER = 0 then s
    else
      let s := if s.mgr.decided.contains (rep.core, rep.leg) then s else s.decideFate rep
      if !rep.final then s
      else
        let s := if rep.cause = 2 ^ causeOverrun && !s.mgr.dependents.contains (rep.core, rep.leg) then
            match s.coreSite rep.core with
            | some site => s.unitError 1 site (2 ^ causeOverrun)
            | none => s
          else s
        match s.openAsked rep.core rep.leg with
        | none => s
        | some a =>
          if rep.noReplay then s.dropReplay rep.core rep.leg 5 6
          else match a.output with
            | some out => s.placeOutput rep.core rep.leg out
            | none => s

/-- REPLAY_OUTPUT arrives (R360): placed once the original leg has ended; UNCLEAN or too late, it is not. -/
def State.replayOut (s : State) (src frame core leg : Nat) (unclean : Bool) (out : List (Nat × Bytes) × List (Nat × Bytes)) : State :=
  match s.openAsked core leg with
  | none => s
  | some a =>
    if frame ≠ s.frame.number || a.partner ≠ src then s
    else if unclean then s.dropReplay core leg 3 1
    else if s.replayLimit ≤ s.frameNs then s.dropReplay core leg 4 1
    else if s.frame.endedLegs.contains (core, leg) && !(s.frame.reports.any fun r => r.core == core && r.leg == leg) then s.placeOutput core leg out
    else s.onAsked core leg fun a => { a with output := some out }

/-- REPLAY_REFUSE arrives. -/
def State.replayRefused (s : State) (src frame core leg : Nat) : State :=
  match s.openAsked core leg with
  | some a => if frame = s.frame.number && a.partner = src then s.dropReplay core leg 2 1 else s
  | none => s

/-- REPLAY_GIVE_UP (R362). -/
def State.giveUpReplay (s : State) (core leg : Nat) : State :=
  match s.openAsked core leg with
  | some _ => if s.frame.st = .running && decide (s.replayLimit ≤ s.frameNs) then s.dropReplay core leg 4 1 else s
  | none => s

/-! Replays for other parts (R358, R359). -/

/-- Why a request is refused, if it is: BUSY, MISMATCH, NOT_RUNNING, STALE. -/
def State.replayRefusal (s : State) (frame group core leg : Nat) : Option Nat :=
  let held := s.mgr.replaying.filter fun q => !q.running && !q.done
  if s.mgr.replaying.any (fun q => q.core == core) || decide (2 ≤ held.length) then some 1
  else if !((((s.legAt core leg).bind (·.hdr.unit)).bind s.unitGroup) == some group) then some 2
  else if s.frame.st ≠ .running || (s.corePitch core).isNone then some 3
  else if frame ≠ s.frame.number then some 4
  else none

/-- REPLAY_REQUEST arrives. -/
def State.replayRequest (s : State) (src frame group core leg : Nat) (input : List (Nat × Bytes)) : State :=
  match s.replayRefusal frame group core leg with
  | some why => s.sendMsg src 0x0202 [core, leg, why]
  | none => s.onMgr fun m => { m with replaying := m.replaying ++
      [{ part := src, core := core, leg := leg, frame := frame, input := input, running := false, done := false }] }

/-- The arrays whose products a leg runs. -/
def legArrays (l : Leg) : List Nat :=
  (l.ops.filterMap fun o => match o.kind with | .product arr _ _ _ => some arr | _ => none).eraseDups

/-- Whether an array or crib command runs on an array of a leg. -/
def State.arraysTaken (s : State) (site : Nat) (l : Leg) : Bool :=
  (legArrays l).any fun a => s.flag F.ARR_STATUS_BUSY (16 * site + a) || s.filling (16 * site + a)

/-- REPLAY_RUN: an accepted replay starts once the core has ended its own legs of the frame and its arrays are free. -/
def State.replayRun (s : State) (core : Nat) : State :=
  match s.mgr.replaying.find? fun q => q.core == core && !q.running && !q.done with
  | none => s
  | some q =>
    match s.coreSite core, s.legAt core q.leg with
    | some site, some l =>
      let c := s.core site
      if s.frame.st ≠ .running || q.frame ≠ s.frame.number || c.run.isSome || c.nextLeg < (s.legsOf core).length || s.clearing site
          || s.arraysTaken site l then s
      else
        let s := q.input.foldl (fun (s : State) w => s.hamperWrite site w.1 w.2) s
        let s := s.onMgr fun m => { m with replaying := m.replaying.map fun r => if r = q then { r with running := true } else r }
        (s.beginLeg site q.leg l (some q.part)).countReplay 7
    | _, _ => s

/-! Keeping the pipeline in step (R356, R363 to R365). -/

/-- SUPPRESSED: a counter of this part that a held-back PORT_SEND was to increase. -/
def State.heldBack (s : State) (frame core ctr : Nat) : State :=
  if frame = s.frame.number then s.onMgr fun m => { m with heldCtrs := m.heldCtrs ++ [(core, ctr)] } else s

/-- REPLAY_PENDING: slots to withhold at a self-generated boundary (R364). -/
def State.pendingIn (s : State) (frame : Nat) (slots : List Nat) : State :=
  if frame = s.frame.number then s.onMgr fun m => { m with pendingSlots := m.pendingSlots ++ slots } else s

/-- The entries whose READY and LIST_ACK the whistling manager waits for. -/
def State.tallied (s : State) : List Nat := s.entries.filter fun i => !s.flag F.PRT_DOM_DATA_ABSENT i && s.entryPart i != s.partNum

/-- Whether every READY is in. -/
def State.allReady (s : State) : Bool := s.tallied.all fun i => s.mgr.ready.contains i

/-- Whether every LIST_ACK is in. -/
def State.allAcked (s : State) : Bool := s.tallied.all fun i => s.mgr.acks.contains i

/-- The manager's withheld list of the frame. -/
def State.withheldList (s : State) : List Nat :=
  ((s.mgr.notices.filter fun n => n.1 == s.frame.number).map (·.2)).eraseDups

/-- The whistling manager sends LIST once every READY is in or T_nom has passed, and again when the list has grown (R363). -/
def State.listTry (s : State) : State :=
  let l := s.withheldList
  if !s.isWhistle || s.frame.st ≠ .running || l.isEmpty || s.mgr.listSent || !(s.allReady || decide (s.frame.tNom ≤ s.frameNs)) then s
  else
    let s := (s.entries.filter fun i => s.entryPart i != s.partNum).foldl (fun (s : State) i => s.sendMsg (s.entryPart i) 0x0207 (s.frame.number :: l)) s
    (s.onMgr fun m => { m with listSent := true, acks := [] }).setFld F.PRT_TALLY_ACKS 0

/-- WITHHOLD at the whistling manager: its slots join the list. -/
def State.withholdIn (s : State) (src frame : Nat) (slots : List Nat) : State :=
  if !s.isWhistle || (s.entryOf src).isNone || frame ≠ s.frame.number then s
  else
    let new := slots.filter fun k => !s.mgr.notices.contains (frame, k)
    (s.onMgr fun m => { m with notices := m.notices ++ new.map fun k => (frame, k), listSent := m.listSent && new.isEmpty }).listTry

/-- LIST from the whistling manager, acknowledged as received. -/
def State.listIn (s : State) (src frame : Nat) (slots : List Nat) : State :=
  let s := if frame = s.frame.number then
      s.onMgr fun m => { m with list := (if m.listFrame == some frame then m.list else []) ++ slots, listFrame := some frame }
    else s
  s.sendCtl src 3 frame

/-- LIST_ACK at the whistling manager. -/
def State.listAck (s : State) (src frame : Nat) : State :=
  match s.entryOf src with
  | none => s
  | some i =>
    if !s.isWhistle || frame ≠ s.frame.number || !s.mgr.listSent || s.mgr.acks.contains i then s
    else
      let s := s.onMgr fun m => { m with acks := m.acks ++ [i] }
      s.setFld F.PRT_TALLY_ACKS s.mgr.acks.length

/-- A request that has fallen out of step ends at the next boundary with LOST (R365). -/
def State.diverge (s : State) (p tag : Nat) : State :=
  if (s.srv p).reqs.any fun r => r.sub.tag == tag && r.ending.isNone then
    let s := s.onSrv p fun x => { x with reqs := x.reqs.map fun r => if r.sub.tag = tag then { r with ending := some 0x06 } else r }
    (s.post 0x0085 [tag, p]).countReplay 11
  else s

/-- WITHHELD_REPORT at an entry part: slots withheld at `src` at the last boundary against this part's own. -/
def State.withheldReport (s : State) (src frame : Nat) (slots : List Nat) : State :=
  if frame + 1 ≠ s.frame.number then s
  else s.mgr.lastBinds.foldl (fun (s : State) b =>
      if (s.srv b.1).pipeline.contains src && (slots.contains b.2.1 != s.mgr.withheldLast.contains b.2.1) then s.diverge b.1 b.2.2 else s) s

/-- REPLAY_MAP takes effect at the next boundary (R354). -/
def State.mapIn (s : State) (m : List (Nat × Nat)) : State :=
  s.onMgr fun g => { g with mapNext := some (m.foldl (fun (t : SMap Nat) e => SMap.put t e.1 e.2) []) }

/-! The commands' meanings. -/

/-- LEG_START (R149). -/
def execLegStart (core : Nat) (s : State) : Host.Outcome State Fault Refusal := within (core < coreCount) (s.startLeg core)
/-- SUSPECT_REPORT (R151). -/
def execSuspectReport (idx : Nat) (s : State) : Host.Outcome State Fault Refusal := .next (s.suspectReport idx)
/-- REPLAY_REQUEST (R358). -/
def execReplayRequest (src frame group core leg : Nat) (input : List (Nat × Bytes)) (s : State) : Host.Outcome State Fault Refusal :=
  within (core < coreCount) (s.msgIn.replayRequest src frame group core leg input)
/-- REPLAY_RUN (R359). -/
def execReplayRun (core : Nat) (s : State) : Host.Outcome State Fault Refusal := within (core < coreCount) (s.replayRun core)
/-- REPLAY_OUTPUT (R360). -/
def execReplayOutput (src frame core leg : Nat) (unclean : Bool) (hamper payloads : List (Nat × Bytes)) (s : State) :
    Host.Outcome State Fault Refusal :=
  within (core < coreCount) (s.msgIn.replayOut src frame core leg unclean (hamper, payloads))
/-- REPLAY_REFUSE (R358). -/
def execReplayRefuse (src frame core leg : Nat) (s : State) : Host.Outcome State Fault Refusal :=
  within (core < coreCount) (s.msgIn.replayRefused src frame core leg)
/-- REPLAY_PENDING (R358). -/
def execReplayPending (frame : Nat) (slots : List Nat) (s : State) : Host.Outcome State Fault Refusal :=
  .next (s.msgIn.pendingIn frame slots)
/-- SUPPRESSED (R356). -/
def execSuppressed (frame core ctr : Nat) (s : State) : Host.Outcome State Fault Refusal :=
  within (core < coreCount) (s.msgIn.heldBack frame core ctr)
/-- REPLAY_GIVE_UP (R362). -/
def execReplayGiveUp (core leg : Nat) (s : State) : Host.Outcome State Fault Refusal := within (core < coreCount) (s.giveUpReplay core leg)
/-- WITHHOLD (R363). -/
def execWithhold (src frame : Nat) (slots : List Nat) (s : State) : Host.Outcome State Fault Refusal :=
  .next (s.msgIn.withholdIn src frame slots)
/-- LIST (R363): from the whistling manager. -/
def execList (src epoch frame : Nat) (slots : List Nat) (s : State) : Host.Outcome State Fault Refusal :=
  .next (s.msgIn.fromMgr s.whistleMgr src epoch fun s => s.listIn src frame slots)
/-- LIST_ACK (R363). -/
def execListAck (src frame : Nat) (s : State) : Host.Outcome State Fault Refusal := .next (s.listAck src frame)
/-- WITHHELD_REPORT (R365). -/
def execWithheldReport (src frame : Nat) (slots : List Nat) (s : State) : Host.Outcome State Fault Refusal :=
  .next (s.msgIn.withheldReport src frame slots)
/-- REPLAY_MAP (R354): from the rack manager; replica group and partner. -/
def execReplayMap (src epoch : Nat) (map : List (Nat × Nat)) (s : State) : Host.Outcome State Fault Refusal :=
  .next (s.msgIn.fromMgr s.rackMgr src epoch fun s => s.mapIn map)

end Sys2Proof.Machine
end

