-- ==== Sys2Proof/Machine/Relay.lean ====
section
/-!
DEFINITION. The weight image and relay (07_weights R223 to R234, R238, R240).
-/

namespace Sys2Proof.Machine

/-! The image (R223 to R226). -/

/-- Chunks of a shard: 1,223. -/
def chunkCount : Nat := 1223

/-- The leaf table among the objects a part may request. -/
def leafObject : Nat := 1223

/-- The length of a chunk (Table 7-2), or of the leaf table. -/
def objectLen (c : Nat) : Nat :=
  if c = 0 then 12288 else if c ≤ 21 then 4128768 else if c = 22 then 1769472 else if c < chunkCount then 4194304 else 58704

/-- leaf(chunk). -/
def leafHash (chunk : Bytes) : Bytes := sha384 (0 :: chunk)

/-- One level of the tree: an odd last node rises unchanged. -/
def pairUp : List Bytes → List Bytes
  | a :: b :: r => sha384 (1 :: (a ++ b)) :: pairUp r
  | r => r

/-- tree_root of up to 65,536 hashes. -/
def treeRoot (h : List Bytes) : Bytes := ((List.range 16).foldl (fun (h : List Bytes) _ => pairUp h) h).headD []

/-- The 48-byte hashes of a table. -/
def hashesOf (bs : Bytes) : List Bytes := (List.range (bs.length / 48)).map fun i => slice bs (48 * i) 48

/-- IMAGE_TAG of an IMAGE_ID. -/
def tagOf (image : Bytes) : Nat := leNat (image.take 8)

/-- The side chunk that holds a logical core's side data. -/
def sideChunk (core : Nat) : Nat := 1 + core / 56

/-- Pieces as one byte string, in order of offset. -/
def joined (m : SMap Bytes) : Bytes := m.flatMap (·.2)

/-- Bytes that pieces hold. -/
def heldBytes (m : SMap Bytes) : Nat := (m.map fun e => e.2.length).sum

/-! The plan (R228) and what it makes the part need. -/

/-- Whether two lists of ranges share a shard. -/
def rangesMeet (a b : List (Nat × Nat)) : Bool := a.any fun r => b.any fun q => decide (r.1 ≤ q.2) && decide (q.1 ≤ r.2)

/-- Whether the ranges of different successors are apart. -/
def rangesApart : List (Nat × List (Nat × Nat)) → Bool
  | [] => true
  | e :: r => !(r.any fun q => rangesMeet e.2 q.2) && rangesApart r

/-- Whether a plan is well formed (R228). -/
def RelayPlan.ok (p : RelayPlan) : Bool :=
  decide (1 ≤ p.kind) && decide (p.kind ≤ 3) && decide (p.succ.length ≤ 4)
    && (p.succ.all fun e => decide (1 ≤ e.2.length) && decide (e.2.length ≤ 8) && e.2.all fun r => decide (r.1 ≤ r.2))
    && rangesApart p.succ && !(p.seed && p.pred != 0xFFFF)

/-- The successors whose ranges hold a shard. -/
def RelayPlan.toward (p : RelayPlan) (shard : Nat) : List Nat :=
  (p.succ.filter fun e => e.2.any fun r => decide (r.1 ≤ shard) && decide (shard ≤ r.2)).map (·.1)

/-- Whether a tag names the resident image. -/
def State.residentTag (s : State) (tag : Nat) : Bool := match s.wgt.resident with | some r => tagOf r.image == tag | none => false

/-- Whether the frame state forbids a new image (SERVING). -/
def State.servingNow (s : State) : Bool := s.frame.st == .armed || s.frame.st == .running

/-- The refusal of a plan, in the order of Table 7-3. -/
def State.planRefusal (s : State) (p : RelayPlan) : Option Nat :=
  if !p.ok then some 0x0F
  else if p.kind ≠ 1 && !s.residentTag p.tag then some 0x0E
  else if p.kind = 1 && !s.residentTag p.tag && s.locked then some 0x02
  else if p.kind = 1 && !s.residentTag p.tag && s.servingNow then some 0x03
  else none

/-- Arrays of the logical cores that have a site. -/
def State.mappedArrays (s : State) : List Nat :=
  (List.range coreCount).flatMap fun c =>
    match s.coreSite c with
    | some site => (List.range 16).map (16 * site + ·)
    | none => []

/-- The logical array of a place. -/
def State.logicalArr (s : State) (a : Nat) : Option Nat := (s.siteCore (a / 16)).map fun c => 16 * c + a % 16

/-- The place of a logical array. -/
def State.placeOf (s : State) (l : Nat) : Option Nat := (s.coreSite (l / 16)).map fun site => 16 * site + l % 16

/-- Arrays of rows that are FILLING. -/
def State.fillingArrays (s : State) : List Nat :=
  [0, 1].flatMap fun h => (List.range 30).flatMap fun l => if s.rowState h l = 1 then rowArrays h (s.rowPhys h l) else []

/-- What the arrays need from a manager: 2 a FILL, 1 a REPAIR, 0 nothing (R245, R251, R259). -/
def State.relayNeed (s : State) : Nat :=
  if !s.fillingArrays.isEmpty && s.fillingArrays.any (fun a => (s.rec_ a).state != .valid) then 2
  else if s.mappedArrays.any s.needsChunk then 1 else 0

/-- The status record goes to the manager (R259). -/
def State.tellManager (s : State) : State := s.reportStatus s.relayNeed

/-- The arrays in the session's scope (R228, R252): all, those of inheriting rows, those that need their chunks; arrays that
come to need theirs join. -/
def State.scopeNow (s : State) : List Nat :=
  match s.wgt.plan with
  | none => []
  | some p =>
    if p.kind = 1 then s.mappedArrays
    else
      let more := (if p.kind = 2 then s.fillingArrays else s.mappedArrays.filter s.needsChunk).filter fun a => !s.wgt.scope.contains a
      (s.wgt.scope ++ more).filter fun a => (s.siteCore (a / 16)).isSome

/-- Whether an array of the scope has still to be programmed. -/
def State.toGo (s : State) (a : Nat) : Bool :=
  let r := s.rec_ a
  match s.wgt.plan with
  | none => false
  | some p => r.state != .valid || r.tag != p.tag || r.shard != p.shard || r.repair
      || (p.kind == 1 && !(match s.siteCore (a / 16) with | some c => s.wgt.started.contains c | none => true))

/-- The logical cores that have arrays to go. -/
def State.coresToGo (s : State) : List Nat :=
  ((s.scopeNow.filter s.toGo).filterMap fun a => s.siteCore (a / 16)).eraseDups

/-- Whether a chunk of the own shard is staged and verified. -/
def WgtSt.stagedOk (w : WgtSt) (shard c : Nat) : Bool := w.stages.any fun t => t.shard == shard && t.chunk == c && t.verified

/-- The chunks a session still needs (R232, R235): for FULL all of them, otherwise those of the arrays to go. -/
def State.neededChunks (s : State) : List Nat :=
  match s.wgt.plan with
  | none => []
  | some p =>
    if p.kind = 1 then (List.range chunkCount).filter fun c => !s.wgt.verified.contains c
    else
      let cs := s.coresToGo
      let all := (cs.map sideChunk).eraseDups ++ cs.map (23 + ·)
      all.filter fun c => !s.wgt.stagedOk p.shard c && (SMap.find? s.wgt.sides c).isNone
        && !(decide (23 ≤ c) && s.wgt.started.contains (c - 23))

/-! Requests (R230, R232). -/

/-- A REQUEST leaves: to the predecessor, or from a seed to its host as RELAY_REQUEST. -/
def State.passRequest (s : State) (shard c : Nat) : State :=
  match s.wgt.plan with
  | none => s
  | some p =>
    let n := if c = leafObject then 0 else c
    if p.seed then s.post 0x0060 [shard, n] else s.sendMsg p.pred 0x0402 [p.tag, 4, shard, n, 0, objectLen c]

/-- The part's own REQUEST for a chunk of its shard, or for its leaf table. -/
def State.request (s : State) (c : Nat) : State :=
  match s.wgt.plan with
  | none => s
  | some p =>
    (s.onWgt fun w => { w with
      asked := SMap.put w.asked c (SMap.get 0 w.asked c + 1), requested := if w.requested.contains c then w.requested else w.requested ++ [c],
      cntRequests := sat32 (w.cntRequests + 1) }).passRequest p.shard c

/-- FILL and REPAIR request every chunk they need. -/
def State.requestNeeded (s : State) : State :=
  match s.wgt.plan with
  | none => s
  | some p =>
    if p.kind = 1 || s.wgt.st ≠ 3 then s
    else (s.neededChunks.filter fun c => !s.wgt.requested.contains c).foldl (fun (s : State) c => s.request c) s

/-! Sessions (R233). -/

/-- The session ends with a result. -/
def State.relayFail (s : State) (code : Nat) : State :=
  (s.onWgt fun w => { w with st := 5, result := code, checking := false }).tellManager

/-- PROGRAMMED once every array of the scope is VALID and, for FULL, every chunk has been verified (every stripe with them). -/
def State.programmedCheck (s : State) : State :=
  let s := s.onWgt fun w => { w with scope := if (w.plan.map (·.kind)) == some 1 then [] else s.scopeNow }
  if s.wgt.st ≠ 3 || s.scopeNow.any s.toGo || ((s.wgt.plan.map (·.kind)) == some 1 && !s.neededChunks.isEmpty) then s
  else (s.onWgt fun w => { w with st := 4, stages := w.stages.filter fun t => !t.verified }).tellManager

/-- A session begins with a plan: its counters at 0, nothing staged. -/
def WgtSt.begin (w : WgtSt) (p : RelayPlan) (now : Nat) : WgtSt :=
  { w with
    plan := some p, st := if p.kind = 1 then 1 else 3, result := 0, sigCode := 0, stalled := false, manParts := [], leafParts := [],
    manifest := [], checking := false, leaves := if p.kind = 1 then [] else (match w.resident with | some r => r.leaves | none => []),
    stages := [], sides := [], chunk0 := [], verified := [], asked := [], requested := [], lastPiece := now, expected := [], jobs := [],
    cntVerified := 0, cntHashFail := 0, cntRequests := 0, cntForwarded := 0, cntDropped := 0, cntMisrouted := 0, cntDuplicate := 0,
    cntFaulty := 0, inconsistent := 0, accepted := p.kind != 1, started := [], scope := [], planDue := none }

/-! Pieces (R229 to R231). -/

/-- Whether a piece of a chunk is to be kept: of the own shard in a session that still receives, the chunk not yet verified. -/
def State.keeps (s : State) (p : Piece) : Bool :=
  match s.wgt.plan with
  | some pl => decide (p.shard = pl.shard) && decide (s.wgt.st ≤ 3) && !s.wgt.verified.contains p.chunk && !s.wgt.stagedOk p.shard p.chunk
  | none => false

/-- Whether a piece can be taken now (R231): a chunk that is kept or forwarded needs a staging buffer. -/
def State.hasRoom (s : State) (p : Piece) : Bool :=
  match s.wgt.plan with
  | none => true
  | some pl =>
    if p.kind ≠ 3 || p.tag ≠ pl.tag || !s.wgt.accepted || (!s.keeps p && (pl.toward p.shard).isEmpty) then true
    else (s.wgt.stages.any fun t => t.shard == p.shard && t.chunk == p.chunk) || decide (s.wgt.stages.length < 8)

/-- A piece goes on to successors, in the order of arrival. -/
def State.forward (s : State) (p : Piece) (dests : List Nat) : State :=
  dests.foldl (fun (s : State) q =>
      (s.onWgt fun w => { w with cntForwarded := sat32 (w.cntForwarded + 1) }).sendMsg q 0x0402
        [p.tag, p.kind, p.shard, p.chunk, p.off, p.total] p.data) s

/-- A chunk's piece in its staging buffer, taken anew where the chunk has none. -/
def WgtSt.stagePiece (w : WgtSt) (p : Piece) : WgtSt :=
  if w.stages.any fun t => t.shard == p.shard && t.chunk == p.chunk then
    { w with stages := w.stages.map fun t =>
        if t.shard = p.shard && t.chunk = p.chunk && !t.verified then { t with parts := SMap.put t.parts p.off p.data, total := p.total } else t }
  else { w with stages := w.stages ++ [{ shard := p.shard, chunk := p.chunk, parts := [(p.off, p.data)], total := p.total, verified := false }] }

/-- Whether pieces of a chunk wait for credit towards a successor. -/
def State.waitsCredit (s : State) (shard c : Nat) : Bool :=
  s.link.waiting.any fun m => m.type == 0x0402 && m.fields.getD 1 0 == 3 && m.fields.getD 2 0 == shard && m.fields.getD 3 0 == c

/-- Chunks that were only passed on leave their buffers once whole and sent. -/
def State.settleStages (s : State) : State :=
  let own := s.wgt.plan.map (·.shard)
  let stays (w : WgtSt) (t : Stage) : Bool :=
    (own == some t.shard && decide (w.st ≤ 3) && !w.verified.contains t.chunk) || t.verified
      || decide (heldBytes t.parts < t.total) || s.waitsCredit t.shard t.chunk
  s.onWgt fun w => { w with stages := w.stages.filter (stays w) }

/-- The leaf table's or chunk's piece of the own shard is kept; what was verified before is discarded and counted with its
last piece. -/
def State.keepPiece (s : State) (p : Piece) : State :=
  if p.kind = 2 then
    if s.wgt.st = 2 then s.onWgt fun w => { w with leafParts := SMap.put w.leafParts p.off p.data } else s
  else if s.keeps p then s.onWgt fun w => w.stagePiece p
  else if p.off + p.data.length = p.total then s.onWgt fun w => { w with cntDuplicate := sat32 (w.cntDuplicate + 1) }
  else s

/-- The rack manager keeps the leaf tables and chunks 0 of other shards, its references for roll calls (R368). -/
def State.keepReference (s : State) (p : Piece) : State :=
  let k := 2 * p.shard + (if p.kind = 2 then 0 else 1)
  s.onWgt fun w => { w with refParts := SMap.put w.refParts k (SMap.put (SMap.get [] w.refParts k) p.off p.data) }

/-- A leaf table or chunk is forwarded and kept, or counted as MISROUTED (R230). -/
def State.dataPiece (s : State) (pl : RelayPlan) (p : Piece) : State :=
  let dests := pl.toward p.shard
  let own := p.shard = pl.shard
  let ref := s.isRack && !own && (p.kind == 2 || p.chunk == 0)
  let s := s.forward p dests
  let s := if ref then s.keepReference p else s
  let s := if own then s.keepPiece p
    else if dests.isEmpty then if ref then s else s.onWgt fun w => { w with cntMisrouted := sat32 (w.cntMisrouted + 1) }
    else if p.kind = 3 then s.onWgt fun w => w.stagePiece p else s
  s.settleStages

/-- The manifest's header is well formed (BAD_HEADER of Table 7-3). -/
def headerOk (m : Bytes) : Bool :=
  decide (512 ≤ m.length) && decide (fieldAt m 0 4 = 0x49575243) && decide (fieldAt m 4 2 = 1) && decide (fieldAt m 6 2 = 512)
    && decide (1 ≤ fieldAt m 0x38 4) && decide (fieldAt m 0x38 4 ≤ 65536) && decide (fieldAt m 0x3C 4 = 1223)
    && (slice m 0x74 300).all fun b => b == 0

/-- IMAGE_ID of a manifest. -/
def manifestImage (m : Bytes) : Bytes := slice m 8 48

/-- The shard-root table of a manifest. -/
def manifestRoots (m : Bytes) : List Bytes := hashesOf (m.drop 512)

/-- A whole manifest is checked up to its key; its signature goes to the engine (R224, R227). -/
def State.manifestCheck (s : State) : State :=
  let m := s.wgt.manifest
  let new := match s.wgt.resident with | some r => r.image != manifestImage m | none => true
  if new && s.locked then s.relayFail 0x02
  else if new && s.servingNow then s.relayFail 0x03
  else if !headerOk m then s.relayFail 0x04
  else match List.find? (fun e => fingerprint e.2.key == fieldAt m 0x48 8) s.sec.pubKeys with
    | none => s.relayFail 0x05
    | some k =>
      (s.onWgt fun w => { w with checking := true }).engineAsk
        { use := .manifest, key := k.2.key, digest := sha384 (m.take 0x1A0), sig := slice m 0x1A0 96, keyCheck := false }

/-- The manifest goes to successors in pieces, as it came. -/
def State.forwardManifest (s : State) (dests : List Nat) : State :=
  match s.wgt.plan with
  | none => s
  | some pl =>
    s.wgt.manParts.foldl (fun (s : State) e =>
        s.forward { tag := pl.tag, kind := 1, shard := 0, chunk := 0, off := e.1, total := s.wgt.manifest.length, data := e.2 } dests) s

/-- A manifest is accepted (Table 7-6): a new image unloads the itinerary, the vault records image and shard. -/
def State.manifestAccept (s : State) (pl : RelayPlan) : State :=
  let m := s.wgt.manifest
  let new := match s.wgt.resident with | some r => r.image != manifestImage m | none => true
  let s := if new then s.unloadItin else s
  let r : Resident := { image := manifestImage m, shard := pl.shard, root := (manifestRoots m).getD pl.shard [], leaves := [] }
  let s := (s.onWgt fun w => { w with resident := some r, st := 2, accepted := true, lastPiece := s.now }).recordWrites
  (s.forwardManifest (pl.succ.map (·.1))).tellManager

/-- The engine has answered for a manifest (R227); an answer for a manifest that the session no longer holds is nothing to it. -/
def State.manifestAnswer (s : State) (digest : Bytes) (code : Nat) : State :=
  let m := s.wgt.manifest
  match s.wgt.plan with
  | none => s
  | some pl =>
    if !s.wgt.checking || sha384 (m.take 0x1A0) ≠ digest then s
    else
      let s := s.onWgt fun w => { w with checking := false }
      let roots := manifestRoots m
      if code ≠ 0 then (s.onWgt fun w => { w with sigCode := code }).relayFail 0x06
      else if roots.length ≠ fieldAt m 0x38 4 || m.length ≠ 512 + 48 * roots.length || treeRoot roots ≠ manifestImage m || tagOf (manifestImage m) ≠ pl.tag then
        s.relayFail 0x07
      else if roots.length ≤ pl.shard then s.relayFail 0x08
      else s.manifestAccept pl

/-- A piece of the manifest is kept until it is whole. -/
def State.manifestPiece (s : State) (p : Piece) : State :=
  if s.wgt.st ≠ 1 || s.wgt.checking then s
  else
    let s := s.onWgt fun w => { w with manParts := SMap.put w.manParts p.off p.data }
    if heldBytes s.wgt.manParts < p.total then s
    else (s.onWgt fun w => { w with manifest := joined w.manParts }).manifestCheck

/-- A piece that is taken (R230). -/
def State.takePiece (s : State) (p : Piece) : State :=
  let dropped := s.onWgt fun w => { w with cntDropped := sat32 (w.cntDropped + 1) }
  match s.wgt.plan with
  | none => dropped
  | some pl =>
    if p.tag ≠ pl.tag then dropped
    else if p.kind = 4 then s.passRequest p.shard (if p.chunk = 0 && p.total = 58704 then leafObject else p.chunk)
    else
      let s := s.onWgt fun w => { w with lastPiece := s.now, stalled := false }
      if p.kind = 1 then s.manifestPiece p
      else if !s.wgt.accepted then dropped
      else if p.kind = 2 || p.kind = 3 then s.dataPiece pl p
      else dropped

/-- A piece is taken; one that its host supplied is answered (R330). -/
def State.stageAndAnswer (s : State) (c : Option Mgmt) (p : Piece) : State :=
  let s := s.takePiece p
  match c with
  | some c => s.answer c 0x60 0 p.shard
  | none => s

/-- Pieces that waited for a buffer are taken as buffers come free, those of one chunk in their order. -/
def State.restage : List (Option Mgmt × Piece) → State → State
  | [], s => s
  | (c, p) :: rest, s =>
    let ahead := s.wgt.waiting.any fun q => q.2.shard == p.shard && q.2.chunk == p.chunk
    if s.hasRoom p && !ahead then State.restage rest (s.stageAndAnswer c p)
    else State.restage rest (s.onWgt fun w => { w with waiting := w.waiting ++ [(c, p)] })

/-- Tries again what waits. -/
def State.retryWaiting (s : State) : State :=
  let ws := s.wgt.waiting
  State.restage ws ((s.onWgt fun w => { w with waiting := [] }).settleStages)

/-- A piece arrives, from the fabric or from the host: taken, or it waits (R231). -/
def State.pieceArrives (s : State) (c : Option Mgmt) (p : Piece) : State := State.restage [(c, p)] s.settleStages

/-- A plan takes the place of the session there was. -/
def State.beginSession (s : State) (p : RelayPlan) : State :=
  let s := if s.wgt.st = 0 then s else (s.onWgt fun w => { w with st := 5, result := 0x0D }).tellManager
  let s := s.onWgt fun w => w.begin p s.now
  ((s.tellManager).requestNeeded.programmedCheck).retryWaiting

/-- Whether array commands of programming are running. -/
def State.jobsBusy (s : State) : Bool := s.wgt.jobs.any fun e => (s.arr e.1).cmd.isSome

/-- RELAY_PLAN (R228, R233). -/
def State.relayPlan (s : State) (p : RelayPlan) : State :=
  match s.planRefusal p with
  | some code => (s.onWgt fun w => { w with result := code }).tellManager
  | none =>
    let s := s.sessionAbort
    match s.wgt.plan with
    | some old =>
      if s.wgt.st ≠ 0 && old.tag = p.tag then
        let new := (p.succ.map (·.1)).filter fun q => !(old.succ.any fun e => e.1 == q)
        let s := s.onWgt fun w => { w with plan := some p }
        let s := if s.wgt.accepted then s.forwardManifest new else s
        (s.requestNeeded).tellManager
      else if s.wgt.st ≠ 0 && s.jobsBusy then s.onWgt fun w => { w with planDue := some p }
      else s.beginSession p
    | none => s.beginSession p

/-! Verification (R232, R238, R240). -/

/-- The staged bytes of a chunk of the own shard. -/
def State.stagedBytes (s : State) (shard c : Nat) : Option Bytes :=
  (s.wgt.stages.find? fun t => t.shard == shard && t.chunk == c).map fun t => joined t.parts

/-- The side data of an array: 512 column scales and the group shifts (R226). -/
def State.sideData (s : State) (core a : Nat) : Option Bytes :=
  (SMap.find? s.wgt.sides (sideChunk core)).map fun b => slice b (73728 * (core % 56) + 4608 * a) 4608

/-- Whether a side chunk holds a column scale of 0xFF (R48). -/
def badScale (b : Bytes) : Bool :=
  (List.range (b.length / 4608)).any fun i => (slice b (4608 * i) 512).any fun k => k == 0xFF

/-- The expected digests of a core's arrays (R238, R255), once its chunk and its side data are verified. -/
def State.expectCore (s : State) (shard core : Nat) : State :=
  match s.stagedBytes shard (23 + core) with
  | none => s
  | some w =>
    (List.range 16).foldl (fun (s : State) a =>
        match s.sideData core a with
        | some side => s.onWgt fun g => { g with expected := SMap.put g.expected (16 * core + a) (sha384 (slice w (262144 * a) 262144 ++ side)) }
        | none => s) s

/-- The stripe digest formed from expected digests; none while one is missing (R257). -/
def State.stripeExpected (s : State) (t : Nat) : Option Bytes :=
  ((List.range 75).mapM fun i => SMap.find? s.wgt.expected (75 * t + i)).map fun l => sha384 l.flatten

/-- Whether a stripe whose digests are all expected disagrees with chunk 0. -/
def State.stripeBad (s : State) (t : Nat) : Bool :=
  match s.stripeExpected t with
  | some d => !s.wgt.chunk0.isEmpty && d != slice s.wgt.chunk0 (48 * t) 48
  | none => false

/-- The stripe checks (R240): a difference withdraws the image from residence. -/
def State.stripeCheck (s : State) : State :=
  if s.wgt.plan.map (·.kind) == some 1 && (List.range 256).any s.stripeBad then
    ((s.onWgt fun w => { w with resident := none }).recordWrites).relayFail 0x0C
  else s

/-- An object of the own shard failed its check: requested again, up to three times (R232). -/
def State.hashFailed (s : State) (c code : Nat) : State :=
  let s := s.onWgt fun w => { w with
    cntHashFail := sat32 (w.cntHashFail + 1), leafParts := if c = leafObject then [] else w.leafParts,
    stages := w.stages.filter fun t => !(some t.shard == (w.plan.map (·.shard)) && t.chunk == c) }
  if 3 ≤ SMap.get 0 s.wgt.asked c then s.relayFail code else s.request c

/-- The leaf table against the shard root. -/
def State.verifyLeaves (s : State) : State :=
  match s.wgt.resident with
  | none => s
  | some r =>
    let b := joined s.wgt.leafParts
    if s.wgt.st ≠ 2 || b.length < 58704 then s
    else if b.length = 58704 && treeRoot (hashesOf b) = r.root then
      ((s.onWgt fun w => { w with
          leaves := b, resident := some { r with leaves := b }, st := 3, lastPiece := s.now,
          requested := w.requested.filter (· != leafObject) }).recordWrites).tellManager
    else s.hashFailed leafObject 0x09

/-- A verified chunk: chunk 0 and side chunks leave their buffers, a weight chunk stays for programming; the digests it
completes are expected and their stripes checked. -/
def State.chunkGood (s : State) (pl : RelayPlan) (c : Nat) (b : Bytes) : State :=
  let s := s.onWgt fun w => { w with
    cntVerified := sat32 (w.cntVerified + 1), verified := w.verified ++ [c], requested := w.requested.filter (· != c) }
  if 1 ≤ c && decide (c ≤ 22) && badScale b then s.relayFail 0x0B
  else
    let gone (w : WgtSt) : List Stage := w.stages.filter fun t => !(t.shard == pl.shard && t.chunk == c)
    let s := if c = 0 then s.onWgt fun w => { w with chunk0 := b, stages := gone w }
      else if c ≤ 22 then s.onWgt fun w => { w with sides := SMap.put w.sides c b, stages := gone w }
      else s.onWgt fun w => { w with stages := w.stages.map fun t => if t.shard = pl.shard && t.chunk = c then { t with verified := true } else t }
    let cores := if 23 ≤ c then [c - 23] else ((s.wgt.stages.filter fun t => t.verified && t.shard == pl.shard).map (·.chunk - 23)).filter fun k => sideChunk k == c
    ((cores.foldl (fun (s : State) k => s.expectCore pl.shard k) s).stripeCheck).retryWaiting

/-- CHUNK_VERIFY (R232): a whole object of the own shard is hashed. -/
def State.chunkVerify (s : State) (c : Nat) : State :=
  if c = leafObject then s.verifyLeaves
  else match s.wgt.plan with
    | none => s
    | some pl =>
      match s.wgt.stages.find? fun t => t.shard == pl.shard && t.chunk == c && !t.verified with
      | none => s
      | some t =>
        if s.wgt.st ≠ 3 || heldBytes t.parts < t.total then s
        else
          let b := joined t.parts
          if b.length = objectLen c && leafHash b = slice s.wgt.leaves (48 * c) 48 then s.chunkGood pl c b
          else (s.hashFailed c 0x0A).retryWaiting

/-- RELAY_STALLED (R234): 2 s without a piece while one is needed. -/
def State.relayStalled (s : State) : State :=
  let needs := (s.wgt.st == 1 && !s.wgt.checking) || (s.wgt.st == 3 && !s.neededChunks.isEmpty)
  if !needs || decide (s.now < s.wgt.lastPiece + 2000000000) then s
  else
    let s := s.onWgt fun w => { w with stalled := true, lastPiece := s.now }
    (s.wgt.requested.foldl (fun (s : State) c => s.request c) s).tellManager

/-- END from the manager: the session is over, and with it its staged chunks. -/
def State.relayEnd (s : State) : State :=
  if s.wgt.st = 4 || s.wgt.st = 5 then
    (s.onWgt fun w => { w with plan := none, st := 0, stalled := false, stages := [], requested := [], accepted := false }).retryWaiting.tellManager
  else s

/-- The status record (Table 7-11). -/
def State.relayRecord (s : State) : Bytes :=
  let w := s.wgt
  let tag := match w.plan with | some p => p.tag | none => (match w.resident with | some r => tagOf r.image | none => 0)
  let shard := match w.plan with | some p => p.shard | none => (match w.resident with | some r => r.shard | none => 0)
  let flags := (if w.stalled then 1 else 0) + (if (w.plan.map (·.seed)) == some true then 2 else 0) + (if s.mappedArrays.any s.needsChunk then 4 else 0)
  let scope := s.scopeNow
  let go := (scope.filter s.toGo).length
  toLe 8 tag ++ toLe 1 w.st ++ toLe 1 w.result ++ toLe 1 w.sigCode ++ toLe 1 flags ++ toLe 4 shard ++ toLe 4 go
    ++ toLe 4 (scope.length - go)
    ++ ([w.cntVerified, w.cntHashFail, w.cntRequests, w.cntForwarded, w.cntDropped, w.cntMisrouted, w.cntDuplicate, w.cntFaulty,
         s.liveLedger, w.inconsistent].flatMap (toLe 4))

/-! The masked-cell map (R249, R329). -/

/-- The entries of the map, in order of logical core, array, row and column. -/
def State.maskedMap (s : State) : List (Nat × Nat × Nat × Nat) :=
  let arrs := s.mappedArrays
  let mended := (arrs.flatMap fun a => match s.logicalArr a with
    | some l => (s.liveEntries a).map fun e => (l, 1, e.row, e.col)
    | none => [])
  let faulty := (arrs.filter fun a => (s.rec_ a).state == .faulty).filterMap fun a => (s.logicalArr a).map fun l => (l, 2, 0xFFFF, 0xFFFF)
  (mended ++ faulty).mergeSort fun x y =>
    decide (x.1 < y.1) || (decide (x.1 = y.1) && (decide (x.2.2.1 < y.2.2.1) || (decide (x.2.2.1 = y.2.2.1) && decide (x.2.2.2 ≤ y.2.2.2))))

/-- READ_MASKED_MAP: entries from an index on, as many as LENGTH holds. -/
def State.readMasked (s : State) (c : Mgmt) (first : Nat) : State :=
  let all := s.maskedMap
  let out := (all.drop first).take (c.len / 16)
  let bytes := out.flatMap fun e => toLe 2 (e.1 / 16) ++ toLe 1 (e.1 % 16) ++ toLe 1 e.2.1 ++ toLe 2 e.2.2.1 ++ toLe 2 e.2.2.2 ++ toLe 8 0
  (s.hostOutput c.fn bytes).answer c 0x62 0 first (toLe 4 all.length ++ toLe 4 out.length)

/-- RELAY_PIECE from a seed's host (R330). -/
def State.relayPieceCmd (s : State) (c : Mgmt) (len : Nat) (p : Piece) : State :=
  if !((s.wgt.plan.map (·.seed)) == some true) then s.answer c 0x60 1 p.shard
  else if c.len ≠ 32 + len then s.answer c 0x60 2 p.shard
  else s.pieceArrives (some c) p

/-! The commands' meanings. -/

/-- RELAY_PLAN (R228): from the rack manager. -/
def execRelayPlan (src epoch : Nat) (plan : RelayPlan) (s : State) : Host.Outcome State Fault Refusal :=
  .next (s.msgIn.fromMgr s.rackMgr src epoch fun s => s.relayPlan plan)
/-- RELAY_PIECE_ARRIVAL (R230). -/
def execRelayPieceArrival (p : Piece) (s : State) : Host.Outcome State Fault Refusal := .next (s.msgIn.pieceArrives none p)
/-- CHUNK_VERIFY (R232): a chunk, or 1,223 for the leaf table. -/
def execChunkVerify (chunk : Nat) (s : State) : Host.Outcome State Fault Refusal := within (chunk ≤ leafObject) (s.chunkVerify chunk)
/-- RELAY_STALLED (R234). -/
def execRelayStalled (s : State) : Host.Outcome State Fault Refusal := .next s.relayStalled
/-- RELAY_END (R233): from the rack manager. -/
def execRelayEnd (src epoch : Nat) (s : State) : Host.Outcome State Fault Refusal :=
  .next (s.msgIn.fromMgr s.rackMgr src epoch fun s => s.relayEnd)
/-- RELAY_PIECE (R330); `len` is the LENGTH of the piece's own header. -/
def execRelayPiece (c : Mgmt) (len : Nat) (p : Piece) (s : State) : Host.Outcome State Fault Refusal :=
  within c.ok (s.mgmt c (partCmd 0x60 roleIns (decide (32 ≤ c.len) && decide (c.len ≤ 8224)) true) p.shard fun s => s.relayPieceCmd c len p)
/-- READ_RELAY_STATUS (R259). -/
def execReadRelayStatus (c : Mgmt) (s : State) : Host.Outcome State Fault Refusal :=
  within c.ok (s.mgmt c (partCmd 0x61 roleOpr) 0 fun s => s.answer c 0x61 0 0 s.relayRecord)
/-- READ_MASKED_MAP (R329). -/
def execReadMaskedMap (c : Mgmt) (first : Nat) (s : State) : Host.Outcome State Fault Refusal :=
  within c.ok (s.mgmt c (partCmd 0x62 roleIns) first fun s => s.readMasked c first)

end Sys2Proof.Machine
end

