-- ==== Sys2Proof/Machine/Fabric.lean ====
section
/-!
DEFINITION. The fabric ports and the transport of firmware messages (12_links_and_fabric R381 to R393).
-/

namespace Sys2Proof.Machine

/-- The ports: 32. -/
def portCount : Nat := 32

/-- A port beside its registers. -/
def State.port (s : State) (n : Nat) : PortSt := SMap.get .init s.fab.ports n

/-- Sets it. -/
def State.setPort (s : State) (n : Nat) (x : PortSt) : State := { s with fab := { s.fab with ports := SMap.set .init s.fab.ports n x } }

/-- An event of a port: its interrupt source. -/
def State.portIrq (s : State) (n : Nat) : State := s.raiseBoth (irqPort + n)

/-! Links (R382, R383, R411). -/

/-- Whether the running itinerary names a port in a PORT_SEND or a PORTS record. -/
def Itin.namesPort (it : Itin) (n : Nat) : Bool :=
  (it.ports.any fun r => r.port == n) || it.shares.any fun sh => sh.legs.any fun l => l.ops.any fun o =>
    match o.kind with | .portSend port .. => port == n | _ => false

/-- A link goes down (R382): 1 loss of signal, 2 FEC lock lost, 3 RETRAIN, 4 disabled.  Its buffer is empty, it trains again
unless it is not enabled; an error of the first two kinds goes to the history (R383); with a port that the running itinerary
names, the part is withdrawn at the next boundary. -/
def State.portDown (s : State) (n cause : Nat) : State :=
  let named := s.frame.st = .running && match s.frame.active with | some it => it.namesPort n | none => false
  let on := s.flag F.PRT_CTL_ENABLE n && !s.flag F.PRT_STATUS_DISABLED n
  let s := ((s.setFld F.PRT_STATUS_UP 0 n).setFld F.PRT_STATUS_FEC_LOCK 0 n).setFld F.PRT_STATUS_LAST_DOWN cause n
  let s := ((s.setFlag F.PRT_STATUS_TRAINING on n).setFld F.PRT_STATUS_PAUSED_RX 0 n).setPort n { s.port n with occ := 0, occ1 := 0, txUntil := [] }
  let s := ((s.count F.PRT_LINKDOWNCNT 1 n).portIrq n).post 0x00A0 [n, cause]
  let s := if cause ≤ 2 then s.unitError 3 n 0 else s
  let s := { s with net := { s.net with portHeld := s.net.portHeld.filter fun d => d.port != n } }
  if named then s.onMgr fun m => { m with withdrawDue := some true } else s

/-- PORT_LINK_DOWN: a link that was up, or that its ENABLE now keeps down. -/
def State.portLinkDown (s : State) (n cause : Nat) : State :=
  let off := !s.flag F.PRT_CTL_ENABLE n || s.flag F.PRT_STATUS_DISABLED n
  if !s.flag F.PRT_STATUS_UP n then s
  else if cause = 1 || cause = 2 then s.portDown n cause
  else if cause = 4 && off then s.portDown n 4
  else s

/-- PORT_UP: an enabled port has trained, on a lane reference that runs (R382, R456). -/
def State.portUp (s : State) (n : Nat) : State :=
  if s.flag F.PRT_STATUS_UP n || !s.flag F.PRT_CTL_ENABLE n || s.flag F.PRT_STATUS_DISABLED n || !s.flag F.CLK_STATUS_ETHREF_OK || s.isOff then s
  else
    let s := ((s.setFld F.PRT_STATUS_UP 1 n).setFld F.PRT_STATUS_FEC_LOCK 1 n).setFld F.PRT_STATUS_TRAINING 0 n
    (s.portIrq n).post 0x00A1 [n]

/-- RETRAIN: a write of 1 to PRT.CTL.RETRAIN takes the link down and trains it again. -/
def State.retrain (s : State) (p : Path) (n : Nat) : State :=
  let w := s.ownWrite p roleOpr false (0x10000 + 0x100 * n)
  if !w.1 then w.2
  else if w.2.flag F.PRT_STATUS_UP n then w.2.portDown n 3
  else w.2.setFlag F.PRT_STATUS_TRAINING (w.2.flag F.PRT_CTL_ENABLE n && !w.2.flag F.PRT_STATUS_DISABLED n) n

/-! Credits (R393, Table 12-4). -/

/-- What waits towards a part leaves in order as its credit allows. -/
def State.releaseList : List FwMsg → State → State
  | [], s => s
  | m :: rest, s =>
    if s.mayTransmit m then
      let s := s.transmit m
      State.releaseList rest (if generalCredit m.type && decide (4 < m.units) then
        { s with link := { s.link with granted := s.link.granted.erase m.part } } else s)
    else State.releaseList rest { s with link := { s.link with waiting := s.link.waiting ++ [m] } }

/-- Tries every message that waits for credit. -/
def State.releaseWaiting (s : State) : State :=
  let ws := s.link.waiting
  State.releaseList ws { s with link := { s.link with waiting := [] } }

/-- An ACK frame leaves. -/
def State.sendAck (s : State) (part : Nat) (seq : Option Nat) (units : Nat) : State :=
  { s with link := { s.link with acked := s.link.acked ++ [(part, seq, units)] } }

/-- Units of the general area: 128 KiB of 256 B. -/
def generalUnits : Nat := 512

/-- Credit requests are granted oldest first from free space. -/
def State.grantCredits : Nat → State → State
  | 0, s => s
  | fuel + 1, s =>
    match s.link.credits with
    | [] => s
    | (part, units) :: rest =>
      let used := (s.link.given.map (·.2)).sum
      if generalUnits < used + units then s
      else
        let given := SMap.set 0 s.link.given part (SMap.get 0 s.link.given part + units)
        State.grantCredits fuel (({ s with link := { s.link with credits := rest, given := given } }).sendAck part none units)

/-- CREDIT_REQUEST. -/
def State.creditRequest (s : State) (src units : Nat) : State :=
  let s := { s with link := { s.link with credits := s.link.credits ++ [(src, units)] } }
  State.grantCredits s.link.credits.length s

/-- A larger message has been taken in: its space is free again. -/
def State.creditBack (s : State) (src units : Nat) : State :=
  if units ≤ 4 then s
  else
    let s := { s with link := { s.link with given := SMap.set 0 s.link.given src (SMap.get 0 s.link.given src - units) } }
    State.grantCredits s.link.credits.length s

/-- ACK (R392, R393): the message it names is delivered; units return relay credit, or grant a larger message that waits. -/
def State.ackIn (s : State) (src : Nat) (seq : Option Nat) (units : Nat) : State :=
  let hit (m : FwMsg) : Bool := m.part == src && some m.seq == seq
  let s := { s with link := { s.link with out := s.link.out.filter fun m => !hit m } }
  let big := s.link.waiting.any fun m => m.part == src && generalCredit m.type && decide (4 < m.units) && decide (m.units ≤ units)
  let s :=
    if units = 0 then s
    else if seq.isNone && big then { s with link := { s.link with granted := s.link.granted ++ [src] } }
    else { s with link := { s.link with
      relayCredit := SMap.set relayRoom s.link.relayCredit src (min relayRoom (SMap.get relayRoom s.link.relayCredit src + 256 * units)) } }
  s.releaseWaiting

/-- MESSAGE_RESEND (R392): 50 µs without ACK; after three resends the message is given up and the peer reported. -/
def State.resend (s : State) (part seq : Nat) : State :=
  match s.link.out.find? fun m => m.part == part && m.seq == seq with
  | none => s
  | some m =>
    let due := match m.sent with | some t => decide (t + 50000 ≤ s.now) | none => false
    if !due then s
    else if m.tries < 3 then
      let again (q : FwMsg) : FwMsg := if q.part = part && q.seq = seq then { q with tries := q.tries + 1, sent := some s.now } else q
      ({ s with link := { s.link with out := s.link.out.map again } }).count F.PRT_RETXCNT
    else
      let s := { s with link := { s.link with out := s.link.out.filter fun q => !(q.part == part && q.seq == seq) } }
      let s := (s.post 0x00A3 [part, m.type]).count F.PRT_UNREACHCNT
      (s.reportMgr s.relayNeed part 0).releaseWaiting

/-! The receive buffer (R387, R388). -/

/-- The bytes of a port's receive buffer. -/
def rxBuffer : Nat := 262144

/-- Bytes have left the buffer. -/
def PortSt.drain (x : PortSt) (n n1 : Nat) : PortSt := { x with occ := x.occ - n, occ1 := x.occ1 - n1 }

/-- Whether the port pauses all four classes. -/
def State.pausedAll (s : State) (n : Nat) : Bool := s.fld F.PRT_STATUS_PAUSED_RX n = 15

/-- A pause leaves for the classes of a mask. -/
def State.sendPause (s : State) (n mask : Nat) : State :=
  let s := (s.setFld F.PRT_STATUS_PAUSED_RX (s.fld F.PRT_STATUS_PAUSED_RX n ||| mask) n).count F.PRT_PAUSETXCNT 1 n
  s.setPort n { s.port n with paused := s.now }

/-- XOFF reached pauses all classes; class 1 is paused by itself above its cap. -/
def State.pauseCheck (s : State) (n : Nat) : State :=
  let x := s.port n
  if s.pausedAll n then s
  else if 256 * s.fld F.PRT_RXCFG_XOFF n ≤ x.occ then s.sendPause n 15
  else if 256 * s.fld F.PRT_RXCAP_RELAY_CAP n < x.occ1 && s.fld F.PRT_STATUS_PAUSED_RX n = 0 then s.sendPause n 2
  else s

/-- XON_RESUME: the buffer has drained. -/
def State.xonResume (s : State) (n drained drained1 : Nat) : State :=
  let x := (s.port n).drain drained drained1
  let s := s.setPort n x
  let one := if 256 * s.fld F.PRT_RXCAP_RELAY_CAP n < x.occ1 then 2 else 0
  if s.pausedAll n then if x.occ ≤ 256 * s.fld F.PRT_RXCFG_XON n then s.setFld F.PRT_STATUS_PAUSED_RX one n else s
  else s.setFld F.PRT_STATUS_PAUSED_RX one n

/-- PAUSE_REPEAT: every 20 µs while occupancy stays above XON. -/
def State.pauseRepeat (s : State) (n : Nat) : State :=
  let x := s.port n
  if s.pausedAll n && decide (x.paused + 20000 ≤ s.now) && decide (256 * s.fld F.PRT_RXCFG_XON n < x.occ) then s.sendPause n 15 else s

/-- A class's pause is over: its frames are sent, in their order. -/
def State.txRelease (s : State) (n c : Nat) : State :=
  if s.now < SMap.get 0 (s.port n).txUntil c then s
  else
    let mine (d : LegData) : Bool := d.port == n && d.cls == c
    { s with net := { s.net with portOut := s.net.portOut ++ s.net.portHeld.filter mine, portHeld := s.net.portHeld.filter fun d => !mine d } }

/-- PAUSE_TIME_EXPIRY. -/
def State.pauseExpiry (s : State) (n c : Nat) : State :=
  let x := s.port n
  let t := SMap.get 0 x.txUntil c
  if t = 0 || s.now < t then s else (s.setPort n { x with txUntil := SMap.set 0 x.txUntil c 0 }).txRelease n c

/-- PFC_PAUSE_RECEIVED (R386): classes with their quanta of 0.64 ns; 0 ends a pause. -/
def State.pfcPause (s : State) (n : Nat) (quanta : List (Nat × Nat)) : State :=
  let x := s.port n
  let until_ := quanta.foldl (fun (m : SMap Nat) q => SMap.set 0 m q.1 (if q.2 = 0 then 0 else s.now + ceilDiv (64 * q.2) 100)) x.txUntil
  let s := (s.setPort n { x with txUntil := until_ }).count F.PRT_PAUSERXCNT 1 n
  [0, 1, 2, 3].foldl (fun (s : State) c => s.txRelease n c) s

/-! Frames (R389 to R392). -/

/-- The PORTS record that leg data of a frame answers to, with its place (check 5 of R390). -/
def State.portsRecord (s : State) (n : Nat) (f : RxFrame) : Option (PortRec × Nat) :=
  match s.frame.active with
  | none => none
  | some it =>
    if !s.pitchPort f.pitch n then none
    else it.ports.zipIdx.find? fun p =>
      p.1.port == n && p.1.cls == f.cls && p.1.part == f.src && p.1.core == f.core && decide (p.1.addr ≤ f.addr + f.off)
        && decide (f.addr + f.off + f.data.length ≤ p.1.addr + p.1.bytes)

/-- LEG_DATA (R391): its bytes are written; the counter rises once the whole transfer has arrived. -/
def State.legData (s : State) (n : Nat) (f : RxFrame) (rec : Nat) : State :=
  let s := if f.poison then s.count F.PRT_POISONCNT 1 n else s
  match s.liveSite f.core with
  | none => s
  | some site =>
    let s := s.deliver site (f.addr + f.off) f.data f.poison
    let have_ := SMap.get 0 s.fab.arrived rec + f.data.length
    let s := { s with fab := { s.fab with arrived := SMap.set 0 s.fab.arrived rec have_ } }
    if have_ < f.total then s
    else match f.ctr with
      | some k => (s.ctrInc site k 1).restart site
      | none => s

/-- Messages complete out of turn are handed on as their turn comes. -/
def State.takeEarly : Nat → State → Nat → State
  | 0, s, _ => s
  | fuel + 1, s, src =>
    let n := SMap.get 0 s.link.nextIn src
    if s.fab.early.contains (src, n) then
      State.takeEarly fuel
        { s with fab := { s.fab with early := s.fab.early.erase (src, n) }, link := { s.link with nextIn := SMap.set 0 s.link.nextIn src (n + 1) } } src
    else s

/-- A frame of a firmware message (R392): bytes gather until the message is whole; it is acknowledged, and so is a duplicate,
which is not delivered. -/
def State.messageFrame (s : State) (f : RxFrame) : State :=
  let next := SMap.get 0 s.link.nextIn f.src
  if f.frame < next || s.fab.early.contains (f.src, f.frame) then s.sendAck f.src (some f.frame) 0
  else
    let mine (b : Inbound) : Bool := b.src == f.src && b.seq == f.frame
    let have_ := (match s.fab.inbound.find? mine with | some b => b.have_ | none => 0) + f.data.length
    let others := s.fab.inbound.filter fun b => !mine b
    if have_ < f.total then
      { s with fab := { s.fab with inbound := others ++ [{ src := f.src, seq := f.frame, have_ := have_, total := f.total }] } }
    else
      let s := { s with fab := { s.fab with inbound := others, early := s.fab.early ++ [(f.src, f.frame)] } }
      let s := (s.sendAck f.src (some f.frame) 0).creditBack f.src (ceilDiv f.total 256)
      State.takeEarly s.fab.early.length s f.src

/-- An accepted frame takes room in the buffer and is delivered. -/
def State.acceptFrame (s : State) (n : Nat) (f : RxFrame) (deliver : State → State) : State :=
  let x := s.port n
  let s := s.setPort n { x with occ := x.occ + f.wire, occ1 := if f.cls = 1 then x.occ1 + f.wire else x.occ1 }
  let s := { s with fab := { s.fab with heard := SMap.put s.fab.heard f.src s.now } }
  (deliver s).pauseCheck n

/-- FABRIC_FRAME_RECEIVED: the checks of R390 in their order. -/
def State.frameIn (s : State) (n : Nat) (f : RxFrame) : State :=
  if !s.flag F.PRT_STATUS_UP n then s
  else
    let s := (s.count F.PRT_FECCORCNT f.corrected n).count F.PRT_FECUNCCNT f.uncorrected n
    let second := s.now / 1000000000 + 1
    let s := if f.uncorrected ≠ 0 && (s.port n).fecSecond ≠ second then (s.setPort n { s.port n with fecSecond := second }).unitError 3 n 0 else s
    let s := s.setPort n ((s.port n).drain f.drained f.drained1)
    if !f.fcs || f.uncorrected ≠ 0 then s.count F.PRT_FCSERRCNT 1 n
    else if rxBuffer - (s.port n).occ < f.wire then s.count F.PRT_RXDROPCNT 1 n
    else if !f.tagged || !f.form || !f.addressed || f.dst ≠ s.partNum || s.partNum = 0xFFFF then s.count F.PRT_UNDECLCNT 1 n
    else if f.kind = 1 then
      match s.portsRecord n f with
      | none => s.count F.PRT_UNDECLCNT 1 n
      | some p =>
        if f.frame ≠ s.frame.number % 2 ^ 32 then s.count F.PRT_STALECNT 1 n
        else s.acceptFrame n f fun s => s.legData n f p.2
    else if f.kind = 2 then s.acceptFrame n f fun s => s.messageFrame f
    else if f.kind = 3 || f.kind = 4 then s.acceptFrame n f id
    else s.count F.PRT_UNDECLCNT 1 n

/-! The commands' meanings. -/

/-- PORT_LINK_DOWN (R382). -/
def execPortLinkDown (port cause : Nat) (s : State) : Host.Outcome State Fault Refusal := within (port < portCount) (s.portLinkDown port cause)
/-- PORT_UP (R382). -/
def execPortUp (port : Nat) (s : State) : Host.Outcome State Fault Refusal := within (port < portCount) (s.portUp port)
/-- RETRAIN (R411). -/
def execRetrain (path : Path) (port : Nat) (s : State) : Host.Outcome State Fault Refusal :=
  within (path.ok && decide (port < portCount)) (s.retrain path port)
/-- FABRIC_FRAME_RECEIVED (R390). -/
def execFabricFrameReceived (port : Nat) (f : RxFrame) (s : State) : Host.Outcome State Fault Refusal :=
  within (port < portCount) (s.frameIn port f)
/-- XON_RESUME (R387). -/
def execXonResume (port drained drained1 : Nat) (s : State) : Host.Outcome State Fault Refusal :=
  within (port < portCount) (s.xonResume port drained drained1)
/-- PAUSE_REPEAT (R387). -/
def execPauseRepeat (port : Nat) (s : State) : Host.Outcome State Fault Refusal := within (port < portCount) (s.pauseRepeat port)
/-- PFC_PAUSE_RECEIVED (R386). -/
def execPfcPauseReceived (port : Nat) (quanta : List (Nat × Nat)) (s : State) : Host.Outcome State Fault Refusal :=
  within (decide (port < portCount) && quanta.all fun q => decide (q.1 < 4)) (s.pfcPause port quanta)
/-- PAUSE_TIME_EXPIRY (R386). -/
def execPauseTimeExpiry (port cls : Nat) (s : State) : Host.Outcome State Fault Refusal :=
  within (port < portCount && cls < 4) (s.pauseExpiry port cls)
/-- ACK (R392). -/
def execAck (src : Nat) (seq : Option Nat) (units : Nat) (s : State) : Host.Outcome State Fault Refusal := .next (s.ackIn src seq units)
/-- CREDIT_REQUEST (R393). -/
def execCreditRequest (src units : Nat) (s : State) : Host.Outcome State Fault Refusal := .next (s.creditRequest src units)

end Sys2Proof.Machine
end

