-- ==== Sys2Proof/Machine/Program.lean ====
section
/-!
DEFINITION. Programming, mending, refresh results and scrub (03_cim_arrays R96 to R101; 07_weights R235 to R239, R246 to
R248, R253 to R258).
-/

namespace Sys2Proof.Machine

/-! Mending (R96 to R98). -/

/-- mend_value (R97): the mend weight and shift for a difference `dd` ≠ 0 under group shift `sg`, smallest shift first. -/
def mendValue (dd : Int) (sg : Nat) : Option (Int × Nat) :=
  (List.range 4).findSome? fun s32 =>
    let ok (m : Int) : Option (Int × Nat) := if -8 ≤ m && decide (m ≤ 7) then some (m, s32) else none
    if s32 ≤ sg then ok (dd * 2 ^ (sg - s32))
    else if dd % 2 ^ (s32 - sg) = 0 then ok (dd / 2 ^ (s32 - sg)) else none

/-- The weight a pair of read levels presents (R96); none while a code lies in a gap. -/
def ArrSt.presented (x : ArrSt) (row c : Nat) : Option Int :=
  match bandOf (x.code row (2 * c)), bandOf (x.code row (2 * c + 1)) with
  | some h, some l => some (4 * (h : Int) + l - 8)
  | _, _ => none

/-- The weight at a column of a 256-byte row (R109). -/
def rowWeight (row : Bytes) (c : Nat) : Int :=
  let b := fieldAt row (c / 2) 1
  toSigned 4 (if c % 2 = 0 then b % 16 else b / 16)

/-- The group shift of a data row and column in side data (Table 3-3). -/
def sideShift (side : Bytes) (row c : Nat) : Nat := bitsAt (fieldAt side (512 + 128 * (row / 32) + c / 4) 1) (2 * (c % 4)) 2

/-- The faulty weights among faulty cells: none when a cell lies in a gap, which no mend covers; cells in the band of their
target are weak and need nothing. -/
def mendNeeds (x : ArrSt) (w : Nat → Nat → Int) (fs : List CellFault) : Option (List MendNeed) :=
  ((fs.map fun f => (f.row, f.col / 2)).eraseDups.mapM fun p =>
    (x.presented p.1 p.2).map fun wf => ({ row := p.1, col := p.2, w := w p.1 p.2, wf := wf } : MendNeed)).map
      fun l => l.filter fun n => n.w != n.wf

/-- The rows and columns that mends take: a data row shares one mend row, a column holds one mend (R98). -/
def mendRowFor (plans : List MendPlan) (taken : List Nat) (row : Nat) : Option Nat :=
  match plans.find? fun p => p.need.row == row with
  | some p => some p.mendRow
  | none => (List.range 32).find? fun r => !taken.contains r && !plans.any fun p => p.mendRow == r

/-- plan_mends: each need takes its row's mend row and its column; none when one is unmendable.  `taken` are mend rows that may
not be given a new source. -/
def planMends (side : Bytes) (taken : List Nat) : List MendNeed → List MendPlan → Option (List MendPlan)
  | [], acc => some acc
  | n :: rest, acc =>
    match mendValue (n.w - n.wf) (sideShift side n.row n.col), mendRowFor acc taken n.row with
    | some (m, s32), some r =>
      if acc.any fun p => p.need.col == n.col then none
      else planMends side taken rest (acc ++ [{ need := n, mendRow := r, m := m, s32 := s32 }])
    | _, _ => none

/-- The 256 bytes of a mend row: its mend weights, 0 elsewhere (R99). -/
def mendRowBytes (plans : List MendPlan) (r : Nat) : Bytes :=
  packNibbles ((List.range 512).map fun c =>
    match plans.find? fun p => p.mendRow == r && p.need.col == c with
    | some p => ofSigned 4 p.m
    | none => 0)

/-- The side-store block of an array (Table 3-3): its side data, mend table, mend-row entries, CRC. -/
def sideBlock (side : Bytes) (plans : List MendPlan) (bad : List Nat) : Bytes :=
  let table := (List.range 512).flatMap fun c =>
    match plans.find? fun p => p.need.col == c with
    | some p => toLe 1 (128 + 32 * p.s32 + p.mendRow)
    | none => toLe 1 0
  let rows := (List.range 32).flatMap fun r =>
    match plans.find? fun p => p.mendRow == r with
    | some p => toLe 2 (32768 + p.need.row)
    | none => toLe 2 (if bad.contains r then 16384 else 0)
  let b := side ++ table ++ rows
  b ++ toLe 4 (crc32 b)

/-! Logical digests (R255, R256). -/

/-- The level of a cell as scrub reads it: its band, or the band within 6 codes above it; none for any other code. -/
def ArrSt.scrubPair (x : ArrSt) (row c : Nat) : Option Int :=
  match refreshTarget (x.code row (2 * c)), refreshTarget (x.code row (2 * c + 1)) with
  | some h, some l => some (4 * (h : Int) + l - 8)
  | _, _ => none

/-- The ledger's entries of an array as it is programmed now: PROG or COMMITTED under its present SEQ. -/
def State.ownEntries (s : State) (a : Nat) : List LedgerEntry :=
  s.wgt.ledger.filter fun e => e.arr == a && (e.state == 1 || e.state == 3) && e.seq == (s.rec_ a).seq

/-- Whether the side store's mend table and mend rows say what the ledger says (R256). -/
def mendAgrees (x : ArrSt) (es : List LedgerEntry) : Bool :=
  ((List.range 512).all fun c =>
      let t := x.mendEntry c
      match es.find? fun e => e.col == c with
      | some e => t.1 && t.2.1 == e.s32 && t.2.2 == e.mendRow
      | none => !t.1)
    && es.all fun e => let m := x.mendRow e.mendRow; m.1 && m.2.2 == e.row

/-- The logical weight of a data row and column: what is presented, with the compensation of its entry; none where a cell is
invalid or the sum is no weight. -/
def logicalWeight (x : ArrSt) (es : List LedgerEntry) (row c : Nat) : Option Int :=
  (x.scrubPair row c).bind fun wf =>
    match es.find? fun e => e.row == row && e.col == c with
    | none => some wf
    | some e => (x.scrubPair (1024 + e.mendRow) c).bind fun m =>
        let sg := x.groupShift (row / 32) c
        let t := wf * 2 ^ sg + m * 2 ^ e.s32
        if t % 2 ^ sg = 0 && -8 ≤ t / 2 ^ sg && t / 2 ^ sg ≤ 7 then some (t / 2 ^ sg) else none

/-- The array digest that a read of the cells gives (R255, R256); none when it is invalid. -/
def State.logicalDigest (s : State) (a : Nat) : Option Bytes :=
  let x := s.arr a
  let es := s.ownEntries a
  let valid := (List.range 32).all fun r => !(x.mendRow r).1 || (List.range 512).all fun c => (x.scrubPair (1024 + r) c).isSome
  if !mendAgrees x es || !valid then none
  else ((List.range 1024).mapM fun i => ((List.range 512).mapM fun c => logicalWeight x es i c).map fun ws =>
      packNibbles (ws.map (ofSigned 4))).map fun rows => sha384 (rows.flatten ++ x.side.take 4608)

/-! Jobs (R236, R237). -/

/-- Sets an array's job. -/
def State.setJob (s : State) (a : Nat) (j : Job) : State := s.onWgt fun w => { w with jobs := SMap.put w.jobs a j }

/-- Ends an array's job. -/
def State.dropJob (s : State) (a : Nat) : State := s.onWgt fun w => { w with jobs := SMap.drop w.jobs a }

/-- The chunk bytes of an array that is being programmed. -/
def State.jobChunk (s : State) (a : Nat) : Bytes :=
  match s.siteCore (a / 16), s.wgt.plan with
  | some core, some p => slice ((s.stagedBytes p.shard (23 + core)).getD []) (262144 * (a % 16)) 262144
  | _, _ => []

/-- The side data a job writes: that of the image, or for a mend of refresh that of the side store in use. -/
def State.jobSide (s : State) (a : Nat) (j : Job) : Bytes :=
  if j.refresh then (s.arr a).side.take 4608
  else match s.siteCore (a / 16) with
    | some core => (s.sideData core (a % 16)).getD []
    | none => []

/-- The command of a job's stage with its rows and the data it takes from the hamper: operation, first row, row count, hamper
address, bytes (R237). -/
def State.jobCommand (s : State) (a : Nat) (j : Job) : Nat × Nat × Nat × Nat × Bytes :=
  let slot := 8192 * (a % 16)
  match j.stage with
  | .erase | .wipe => (3, 0, 0, 0, [])
  | .data k => (4, 32 * k, 32, 0x20000 * (k % 2) + slot, slice (s.jobChunk a) (8192 * k) 8192)
  | .mend => (4, 1024, 32, slot, (List.range 32).flatMap fun r => if j.bad.contains r then mendRowBytes [] r else mendRowBytes j.mends r)
  | .remend r => (4, 1024 + r, 1, slot, mendRowBytes j.mends r)
  | .refs => (5, 1056, 8, 0, [])
  | .side => (9, 0, 0, 0x20000 + 5248 * (a % 16), sideBlock (s.jobSide a j) j.mends j.bad)

/-- Gives the array the command of its job's stage, once it is in MAINT and the command would be accepted; the bytes come
through the core's hamper.  While PWR_WARN_N is low nothing is erased or programmed anew (R461). -/
def State.jobIssue (s : State) (a : Nat) (j : Job) : State :=
  let c := s.jobCommand a j
  let t := if c.2.2.2.2.isEmpty then s else s.hamperWrite (a / 16) c.2.2.2.1 c.2.2.2.2
  let t := ((t.setFld F.ARR_CMD_ARG0_ROW c.2.1 a).setFld F.ARR_CMD_ARG0_COUNT c.2.2.1 a).setFld F.ARR_CMD_ARG1_HADDR (c.2.2.2.1 / 64) a
  if j.issued || s.mode a ≠ modeMaint || (t.cmdRefusal a c.1).isSome || (supplyBound c.1 && s.flag F.PWR_STATUS_WARN) then s
  else (t.arrCommand a c.1 0).setJob a { j with issued := true }

/-- Tries every job whose command has not been accepted. -/
def State.kickJobs (s : State) : State := s.wgt.jobs.foldl (fun (s : State) e => s.jobIssue e.1 e.2) s

/-- A job goes on to a stage. -/
def State.jobTo (s : State) (a : Nat) (j : Job) (st : JobStage) : State := s.setJob a { j with stage := st, issued := false }

/-- An array begins to be programmed (R236): its record is ERASING under the count its erase will give, entries of the SEQ before
are obsolete, the array goes to MAINT. -/
def State.jobStart (s : State) (a : Nat) (again : Bool) : State :=
  match s.logicalArr a, s.wgt.plan with
  | some l, some p =>
    let r := s.rec_ a
    let s := s.setRec a { r with
      state := .erasing, tag := p.tag, shard := p.shard, chunk := 23 + l / 16, seq := s.fld F.ARR_CYCLES_COUNT a + 1, ledgerPending := false,
      fault := 0, digest := SMap.get [] s.wgt.expected l }
    let s := s.onWgt fun w => { w with ledger := w.ledger.filter fun e => e.arr != a }
    let s := if s.mode a = modeMaint then s else s.arrCommand a 1 0
    let x := s.arr a
    let bad := (List.range 32).filter fun m => (x.mendRow m).2.1
    s.setJob a { stage := .erase, issued := false, needs := [], mends := [], bad := bad, again := again, refresh := false }
  | _, _ => s

/-- The array is FAULTY (R236, R239, R248): excluded, its core retired (R250). -/
def State.jobFaulty (s : State) (a fault : Nat) : State :=
  let s := s.setRec a { s.rec_ a with state := .faulty, fault := fault }
  let s := (s.dropJob a).arrCommand a 10 0
  let s := s.onWgt fun w => { w with cntFaulty := sat32 (w.cntFaulty + 1), ledger := w.ledger.filter fun e => e.arr != a }
  s.retireCore (a / 16)

/-- After a core's last job its chunk's buffer is free, and the core is cleared before its next leg (R231, R237). -/
def State.coreProgrammed (s : State) (site : Nat) : State :=
  if s.wgt.jobs.any fun e => e.1 / 16 == site then s
  else
    let s := s.setFld F.CORE_STATUS_CLEARING 1 site
    match s.siteCore site, s.wgt.plan with
    | some core, some p =>
      (s.onWgt fun w => { w with stages := w.stages.filter fun t => !(t.shard == p.shard && t.chunk == 23 + core && t.verified) }).retryWaiting
    | _, _ => s

/-- The array is VALID and leaves maintenance (R236). -/
def State.jobValid (s : State) (a : Nat) : State :=
  let r := s.rec_ a
  let s := s.stampRec a { r with state := .valid, repair := false }
  ((s.dropJob a).arrCommand a 2 0).coreProgrammed (a / 16)

/-- The ledger's room: 262,144 entries. -/
def ledgerSize : Nat := 262144

/-- A plan as a ledger entry (Table 7-10). -/
def State.entryOfPlan (s : State) (a state origin : Nat) (p : MendPlan) : LedgerEntry :=
  { state := state, arr := a, seq := (s.rec_ a).seq, row := p.need.row, col := p.need.col, w := p.need.w, wf := p.need.wf,
    mendRow := p.mendRow, m := p.m, s32 := p.s32, origin := origin, utc := s.utcSec }

/-- The ledger holds a job's mends, each written by itself. -/
def State.ledgerMends (s : State) (a state origin : Nat) (ms : List MendPlan) : State :=
  let new := ms.map (s.entryOfPlan a state origin)
  (s.onWgt fun w => { w with ledger := (w.ledger.filter fun e => !(e.arr == a && new.any fun n => n.col == e.col)) ++ new }).recordWrites ms.length

/-- The mends of the programmed data rows are planned and recorded as PROG (R236, R247). -/
def State.jobPlan (s : State) (a : Nat) (j : Job) : State :=
  match planMends (s.jobSide a j) j.bad j.needs [] with
  | none => s.jobFaulty a 1
  | some ms =>
    if ledgerSize < s.wgt.ledger.length + ms.length then s.jobFaulty a 2
    else
      let s := s.ledgerMends a 1 0 ms
      let j := { j with mends := ms }
      match ms with
      | [] => s.jobTo a j .mend
      | p :: _ => s.jobTo a j (.remend p.mendRow)

/-- A mend row that failed is BAD; its compensations move to another free mend row (R98). -/
def State.jobMove (s : State) (a : Nat) (j : Job) (r : Nat) : State :=
  let bad := j.bad ++ [r]
  let free := (List.range 32).find? fun q => !bad.contains q && !j.mends.any fun p => p.mendRow == q
  match free with
  | none => s.jobFaulty a 1
  | some q =>
    let ms := j.mends.map fun p => if p.mendRow = r then { p with mendRow := q } else p
    (s.ledgerMends a 1 0 (ms.filter fun p => p.mendRow == q)).jobTo a { j with mends := ms, bad := bad } (.remend q)

/-- The mend row to program after row `r`: the next in the order of the plan, or all of them with the free rows at w = 0. -/
def nextMend (ms : List MendPlan) (r : Nat) : JobStage :=
  let rows := (ms.map (·.mendRow)).eraseDups
  match (rows.dropWhile (· != r)).drop 1 with
  | q :: _ => .remend q
  | [] => .mend

/-- The digest check at the end of programming (R238, R239). -/
def State.jobCheck (s : State) (a : Nat) (j : Job) : State :=
  if s.logicalDigest a = some (s.rec_ a).digest then s.jobValid a
  else if j.again then s.jobFaulty a 3
  else s.jobStart a true

/-- A mend of refresh is complete: its entries COMMITTED, LEDGER_PENDING clear (R247). -/
def State.refreshCommit (s : State) (a : Nat) : State :=
  let n := (s.wgt.ledger.filter fun e => e.arr == a && e.state == 2).length
  let s := (s.onWgt fun w => { w with ledger := w.ledger.map fun e => if e.arr = a && e.state = 2 then { e with state := 3 } else e }).recordWrites n
  (s.setRec a { s.rec_ a with ledgerPending := false }).dropJob a

/-- A fault of refresh that no mend covers (R253): excluded, needing its chunk, the manager told. -/
def State.refreshLost (s : State) (a : Nat) : State :=
  let s := (s.dropJob a).arrCommand a 10 0
  let s := s.onWgt fun w => { w with ledger := w.ledger.filter fun e => !(e.arr == a && e.state == 2) }
  ((s.setRepair a).tellManager)

/-- A job after its stage's command has ended with faults `fs` (R236): `overflow` says that the fault list overflowed. -/
def State.jobNext (s : State) (a : Nat) (j : Job) (fs : List CellFault) (overflow : Bool) : State :=
  match j.stage with
  | .erase => (s.setRec a { s.rec_ a with state := .programming }).jobTo a j (.data 0)
  | .data k =>
    match mendNeeds (s.arr a) (fun i c => rowWeight (slice (s.jobChunk a) (256 * i) 256) c) fs with
    | none => s.jobFaulty a 1
    | some ns =>
      if overflow then s.jobFaulty a 1
      else
        let j := { j with needs := j.needs ++ ns }
        if k < 31 then s.jobTo a j (.data (k + 1)) else s.jobPlan a j
  | .remend r =>
    if j.refresh then if fs.isEmpty then s.jobTo a j .side else s.refreshLost a
    else if fs.isEmpty then s.jobTo a j (nextMend j.mends r) else s.jobMove a j r
  | .mend =>
    let failed := ((fs.map fun f => f.row - 1024).eraseDups).filter fun r => !j.bad.contains r
    match failed.find? fun r => j.mends.any fun p => p.mendRow == r with
    | some r => s.jobMove a { j with bad := j.bad ++ failed.filter (· != r) } r
    | none => s.jobTo a { j with bad := j.bad ++ failed } .refs
  | .refs => s.jobTo a j .side
  | .side => if j.refresh then s.refreshCommit a else s.jobCheck a j
  | .wipe => (s.setRec a { ArrRec.init with repair := true }).dropJob a

/-! Refresh (R100, R112, R119, R247, R248, R253, R254). -/

/-- The mends an array holds already, as plans. -/
def State.presentMends (s : State) (a : Nat) : List MendPlan :=
  (s.liveEntries a).map fun e =>
    { need := { row := e.row, col := e.col, w := e.w, wf := e.wf }, mendRow := e.mendRow, m := e.m, s32 := e.s32 }

/-- What refresh finds wrong: `before` is the array as the pass met it.  None when a fault cannot be mended in place: a cell that
is lost or ended in a gap or above its target, a mend row in use, a reference row; otherwise the needs, weak cells left out. -/
def refreshNeeds (before after_ : ArrSt) (fs : List CellFault) : Option (List MendNeed) :=
  let lower (f : CellFault) : Bool :=
    match refreshTarget (before.code f.row f.col), bandOf f.code with
    | some l, some b => decide (b < l)
    | _, _ => false
  let weak (f : CellFault) : Bool :=
    match refreshTarget (before.code f.row f.col), bandOf f.code with
    | some l, some b => b == l
    | _, _ => false
  let hard := fs.filter fun f => !weak f && !(decide (1024 ≤ f.row) && decide (f.row < 1056) && !(after_.mendRow (f.row - 1024)).1)
  if hard.any fun f => decide (1024 ≤ f.row) || !lower f then none
  else mendNeeds after_ (fun i c => (before.scrubPair i c).getD 0) hard

/-- The mends of refresh beside those present: a positive weight, in the row's own mend row or a free one, in a column without
mend (R100). -/
def State.refreshPlans (s : State) (a : Nat) (ns : List MendNeed) : Option (List MendPlan) :=
  let x := s.arr a
  let bad := (List.range 32).filter fun r => (x.mendRow r).2.1
  match planMends (x.side.take 4608) bad ns (s.presentMends a) with
  | none => none
  | some ms => if ms.all fun p => decide (0 < p.m) || (s.presentMends a).contains p then some ms else none

/-- A mend of refresh begins: PENDING entries, LEDGER_PENDING, then the cells are raised. -/
def State.refreshMend (s : State) (a : Nat) (ns : List MendNeed) : State :=
  match s.refreshPlans a ns with
  | none => s.refreshLost a
  | some ms =>
    let new := ms.filter fun p => !(s.presentMends a).contains p
    if ledgerSize < s.wgt.ledger.length + new.length then s.refreshLost a
    else
      let s := s.ledgerMends a 2 1 new
      let s := s.setRec a { s.rec_ a with ledgerPending := true }
      let bad := (List.range 32).filter fun r => ((s.arr a).mendRow r).2.1
      match new with
      | [] => s
      | p :: _ => s.setJob a { stage := .remend p.mendRow, issued := false, needs := ns, mends := ms, bad := bad, again := false, refresh := true }

/-- After a refresh that firmware's own pass ran: the record advances, a complete pass is stamped, faults are mended or the
array is lost to serving. -/
def State.refreshDone (s : State) (a : Nat) (before : ArrSt) (result : Nat) : State :=
  let x := s.arr a
  let r := s.rec_ a
  let lost := (x.faults.filter fun f => (refreshTarget (before.code f.row f.col)).isNone).length
  let s := s.unitError 2 a (2 ^ causeTaste) lost
  let s :=
    if x.refreshNext = 1064 then (s.setArr a { x with refreshNext := 0 }).stampRec a r
    else if x.refreshNext = r.refreshNext then s
    else s.setRec a { r with refreshNext := x.refreshNext }
  if result ≠ 6 then s
  else match refreshNeeds before x x.faults with
    | none => s.refreshLost a
    | some [] => s
    | some ns => if s.flag F.ARR_CMD_STAT_OVERFLOW a then s.refreshLost a else s.refreshMend a ns

/-- Array commands of programming that have run out let a plan for another image begin (Table 7-6). -/
def State.planReady (s : State) : State :=
  match s.wgt.planDue with
  | some p => if s.jobsBusy then s else s.beginSession p
  | none => s

/-- ARRAY_COMMAND_END (R107): the array's own part, then what programming, refresh and retirement make of it. -/
def State.commandEnd (s : State) (a : Nat) (reads finals : List (Nat × Nat)) (sweep : List Nat) : State :=
  match (s.arr a).cmd with
  | none => s
  | some c =>
    if c.op = 1 || c.op = 10 then s
    else
      let before := (s.arr a).drifted reads
      let s := s.arrCommandEnd a c reads finals sweep
      let s :=
        match SMap.find? s.wgt.jobs a with
        | some j =>
          if !j.issued then s
          else if s.wgt.planDue.isSome then s.dropJob a
          else if c.abort then s.setJob a { j with issued := false }
          else s.jobNext a j (if c.op = 4 || c.op = 5 then (s.arr a).faults else []) (s.flag F.ARR_CMD_STAT_OVERFLOW a)
        | none => if c.op = 5 && !c.abort then s.refreshDone a before (s.fld F.ARR_CMD_STAT_RESULT a) else s
      s.planReady.kickJobs.programmedCheck

/-! Starting a core (R235). -/

/-- Whether a core can be programmed: its chunk and side data verified, for FULL every side chunk; arrays to go and none of
them under way. -/
def State.coreReady (s : State) (core : Nat) : Bool :=
  match s.wgt.plan, s.coreSite core with
  | some p, some site =>
    s.wgt.st == 3 && s.wgt.stagedOk p.shard (23 + core) && (SMap.find? s.wgt.sides (sideChunk core)).isSome
      && (p.kind != 1 || s.wgt.sides.length == 22) && s.coresToGo.contains core && !(s.wgt.jobs.any fun e => e.1 / 16 == site)
  | _, _ => false

/-- Room under the limit of 64 supply-bound commands for 16 arrays more. -/
def State.supplyRoom (s : State) : Bool := decide (s.wgt.jobs.length + 16 ≤ 64)

/-- CORE_PROGRAM_START: the lowest core that is ready begins. -/
def State.programCore (s : State) (core : Nat) : State :=
  if !s.coreReady core || !s.supplyRoom || s.flag F.PWR_STATUS_WARN || (List.range core).any s.coreReady then s.kickJobs
  else match s.coreSite core with
    | none => s
    | some site =>
      let as_ := s.scopeNow.filter fun a => a / 16 == site && s.toGo a && (s.rec_ a).state != .faulty
      let s := s.onWgt fun w => { w with started := if w.started.contains core then w.started else w.started ++ [core] }
      (as_.foldl (fun (s : State) a => s.jobStart a false) s).kickJobs

/-! Scrub (R256 to R258). -/

/-- SCRUB_READ: the array digest of an array in MAINT; an invalid or a different one makes the array need its chunk. -/
def State.scrubRead (s : State) (a : Nat) : State :=
  match s.logicalArr a with
  | none => s
  | some l =>
    if s.mode a ≠ modeMaint || s.flag F.ARR_STATUS_BUSY a || (s.rec_ a).state != .valid then s
    else
      let d := (s.logicalDigest a).getD (List.replicate 48 0)
      let s := s.onWgt fun w => { w with scrub := SMap.put w.scrub l d }
      if d = (s.rec_ a).digest then s else ((s.setRepair a).tellManager).requestNeeded

/-! The UTC clock (R254, R315). -/

/-- An array's age after the time is set. -/
def State.ageFromTime (s : State) (first : Bool) (a : Nat) : State :=
  let r := s.rec_ a
  let r' := match r.stamp with
    | some t => if r.progUtc = 0 then { r with progUtc := s.utcSec - (s.now - t) / 1000000000, stamp := none } else r
    | none => r
  let s := if r' = r then s else s.setRec a r'
  if r'.progUtc = 0 then s
  else
    let h := (s.utcSec - r'.progUtc) / 3600
    if first then s.setAge a h false else s.setAge a (max h (s.fld F.ARR_AGE_HOURS a)) false

/-- SET_TIME (R315). -/
def State.setTimeCmd (s : State) (c : Mgmt) (sec nsec : Nat) : State :=
  if 999999999 < nsec then s.answer c 0x10 1 0
  else
    let old := s.utcSec
    let first := s.utcNs.isNone
    let s := { s with host := { s.host with utc := some (1000000000 * sec + nsec, s.now) } }
    let s := s.mappedArrays.foldl (fun (s : State) a => s.ageFromTime first a) s
    s.answer c 0x10 0 0 (toLe 8 old)

/-! The commands' meanings. -/

/-- ARRAY_COMMAND_END (R107). -/
def execArrayCommandEnd (arr : Nat) (reads finals : List (Nat × Nat)) (sweep : List Nat) (s : State) : Host.Outcome State Fault Refusal :=
  within (arr < arrCount) (s.commandEnd arr reads finals sweep)
/-- CORE_PROGRAM_START (R235). -/
def execCoreProgramStart (core : Nat) (s : State) : Host.Outcome State Fault Refusal := within (core < coreCount) (s.programCore core)
/-- SCRUB_READ (R256). -/
def execScrubRead (arr : Nat) (s : State) : Host.Outcome State Fault Refusal := within (arr < arrCount) (s.scrubRead arr)
/-- SET_TIME (R315). -/
def execSetTime (c : Mgmt) (sec nsec : Nat) (s : State) : Host.Outcome State Fault Refusal :=
  within c.ok (s.mgmt c (partCmd 0x10 roleOpr) 0 fun s => s.setTimeCmd c sec nsec)

end Sys2Proof.Machine
end

