-- ==== Sys2Proof/Machine/Domain.lean ====
section
/-!
DEFINITION. The managers: relay plans, withdrawal, roll calls, takeover, substitution (11_integrity_and_recovery R354, R367 to
R369; 12_links_and_fabric R400 to R410).
-/

namespace Sys2Proof.Machine

/-! Planning relay (R404). -/

/-- The first part of the queue that may, with fewer than four successors, takes one more. -/
def attach (ok : Nat → Bool) (q : List (Nat × List Nat)) (p : Nat) : List (Nat × List Nat) :=
  match q with
  | [] => []
  | e :: rest => if e.2.length < 4 && ok e.1 then (e.1, e.2 ++ [p]) :: rest else e :: attach ok rest p

/-- plan_relay: the tree of parts with their successors, seeds first, and the parts that join it. -/
def planTree (tree : List (Nat × List Nat)) (needing : List Nat) : List (Nat × List Nat) :=
  (needing.filter fun p => !(tree.any fun e => e.1 == p)).foldl (fun (q : List (Nat × List Nat)) p => attach (fun _ => true) q p ++ [(p, [])]) tree

/-- The parts of a subtree. -/
def subtree (q : List (Nat × List Nat)) : Nat → Nat → List Nat
  | 0, p => [p]
  | fuel + 1, p => p :: ((q.find? fun e => e.1 == p).map (·.2)).getD [] |>.flatMap fun c => if c = p then [p] else subtree q fuel c

/-- The tree around a part: each of its successors is attached afresh, outside its own subtree; a part that is gone has no place left. -/
def treeAround (q : List (Nat × List Nat)) (p : Nat) (gone : Bool) : List (Nat × List Nat) :=
  let orphans := ((q.find? fun e => e.1 == p).map (·.2)).getD []
  let q := if gone then (q.filter fun e => e.1 != p).map fun e => (e.1, e.2.filter (· != p))
    else q.map fun e => if e.1 = p then (p, []) else e
  orphans.foldl (fun q o => attach (fun c => c != p && !(subtree q q.length o).contains c) q o) q

/-- Rising numbers as ranges. -/
def rangesOf : List Nat → List (Nat × Nat)
  | [] => []
  | n :: rest =>
    match rangesOf rest with
    | (a, b) :: r => if a = n + 1 then (n, b) :: r else if a = n then (a, b) :: r else (n, n) :: (a, b) :: r
    | [] => [(n, n)]

/-- The smallest gap between successive ranges. -/
def smallestGap : List (Nat × Nat) → Option Nat
  | a :: b :: r => match smallestGap (b :: r) with
    | some g => some (min g (b.1 - a.2))
    | none => some (b.1 - a.2)
  | _ => none

/-- The first ranges a gap apart become one. -/
def joinAt (g : Nat) : List (Nat × Nat) → List (Nat × Nat)
  | a :: b :: r => if b.1 - a.2 = g then (a.1, b.2) :: r else a :: joinAt g (b :: r)
  | r => r

/-- Ranges merged over the smallest gaps until 8 remain. -/
def mergeRanges : Nat → List (Nat × Nat) → List (Nat × Nat)
  | 0, r => r
  | fuel + 1, r =>
    if r.length ≤ 8 then r
    else match smallestGap r with
      | some g => mergeRanges fuel (joinAt g r)
      | none => r

/-- The shard a part last reported. -/
def State.shardOf (s : State) (part : Nat) : Nat :=
  if part = s.partNum then (match s.wgt.resident with | some r => r.shard | none => 0)
  else match SMap.find? s.wgt.status part with
    | some t => t.shard
    | none => 0

/-- The ranges of a successor's subtree. -/
def State.rangesFor (s : State) (q : List (Nat × List Nat)) (needing : List Nat) (p : Nat) : List (Nat × Nat) :=
  let shards := (((subtree q q.length p).filter needing.contains).map s.shardOf).mergeSort (fun a b => decide (a ≤ b))
  let r := rangesOf shards
  mergeRanges r.length r

/-- A plan as the content of RELAY_PLAN (Table 7-4). -/
def RelayPlan.fields (p : RelayPlan) : List Nat :=
  [p.tag, p.kind, if p.seed then 1 else 0, p.shard, p.pred, p.succ.length]
    ++ p.succ.flatMap fun e => [e.1, e.2.length] ++ e.2.flatMap fun r => [r.1, r.2]

/-- A plan reaches a part; the manager's own acts here. -/
def State.givePlan (s : State) (part : Nat) (p : RelayPlan) : State :=
  if part = s.partNum then s.relayPlan p
  else
    let old := SMap.get { state := 0, result := 0, need := 0, shard := p.shard, kind := 0 } s.wgt.status part
    (s.onWgt fun w => { w with status := SMap.put w.status part { old with kind := p.kind, state := max 1 old.state } }).sendMsg part 0x0401 p.fields

/-- The tag of the image that the manager relays: of its own session, or resident. -/
def State.relayTag (s : State) : Option Nat :=
  match s.wgt.plan with
  | some p => some p.tag
  | none => s.wgt.resident.map fun r => tagOf r.image

/-- The plans of a tree: of each part its need's KIND, of a seed that needs nothing that of the most complete relay under way. -/
def State.plansOf (s : State) (tag : Nat) (seeds : List Nat) (q : List (Nat × List Nat)) (needs : SMap Nat) : List (Nat × RelayPlan) :=
  let needing := needs.map (·.1)
  let least := needs.foldl (fun k e => min k e.2) 3
  q.map fun e =>
    let seed := seeds.contains e.1
    let pred := ((q.find? fun x => x.2.contains e.1).map (·.1)).getD 0xFFFF
    let succ := (e.2.map fun c => (c, s.rangesFor q needing c)).filter fun c => !c.2.isEmpty
    (e.1, { tag := tag, kind := SMap.get least needs e.1, seed := seed, shard := s.shardOf e.1, pred := if seed then 0xFFFF else pred, succ := succ })

/-- The tree becomes another: parts whose plan is new or has changed, and those of `fresh`, are given theirs. -/
def State.newTree (s : State) (q : List (Nat × List Nat)) (needs : SMap Nat) (fresh : List Nat) : State :=
  match s.relayTag with
  | none => s
  | some tag =>
    let seeds := ((s.rack.filter fun i => s.flag F.PRT_DOM_DATA_SEED i).map s.entryPart)
    let old := s.plansOf tag seeds s.wgt.tree s.wgt.needs
    let new := (s.plansOf tag seeds q needs).filter fun e => fresh.contains e.1 || !old.contains e
    new.foldl (fun (s : State) e => s.givePlan e.1 e.2) (s.onWgt fun w => { w with tree := q, needs := needs })

/-- The rack manager plans relay of a kind for parts that need it, from the seeds that serve the rack; relay under way goes on (R404). -/
def State.planRelay (s : State) (kind : Nat) (needing : List Nat) : State :=
  let seeds := (s.rack.filter fun i => !s.flag F.PRT_DOM_DATA_ABSENT i && s.flag F.PRT_DOM_DATA_SEED i).map s.entryPart
  if seeds.isEmpty || needing.isEmpty then s
  else
    let need := needing.mergeSort fun a b => decide (a ≤ b)
    let base := if s.wgt.tree.isEmpty then seeds.map fun p => (p, []) else s.wgt.tree
    s.newTree (planTree base need) (need.foldl (fun m p => SMap.put m p kind) s.wgt.needs) need

/-- The manager plans again around a part that is withdrawn, or unreachable and so gone. -/
def State.planAround (s : State) (part : Nat) (gone : Bool) : State :=
  if !(s.wgt.tree.any fun e => e.1 == part) then s
  else
    let needs := if gone then SMap.drop s.wgt.needs part else s.wgt.needs
    let t := s.newTree (treeAround s.wgt.tree part gone) needs []
    if gone then t.onWgt fun w => { w with status := w.status.map fun e => if e.1 = part then (e.1, { e.2 with state := 0 }) else e } else t

/-! Replay partners (R354, R403). -/

/-- The members of a shard's replica group in the rack, in ascending part number, without withdrawn ones. -/
def State.members (s : State) (shard : Nat) : List Nat :=
  ((s.rack.filter fun i => !s.flag F.PRT_DOM_DATA_WITHDRAWN i && !s.flag F.PRT_DOM_DATA_SPARE i).map s.entryPart).filter fun p => s.shardOf p == shard

/-- The partner of a member: the next one round the group, none in a group of one. -/
def partnerIn (ms : List Nat) (p : Nat) : Option Nat :=
  if ms.length ≤ 1 then none
  else (ms.findIdx? (· == p)).bind fun i => ms[(i + 1) % ms.length]?

/-- The rack manager sends every member its replay partner (R403); its own takes effect with the next boundary. -/
def State.sendMaps (s : State) : State :=
  if !s.isRack then s
  else (s.rack.filter fun i => !s.flag F.PRT_DOM_DATA_WITHDRAWN i).foldl (fun (s : State) i =>
      let p := s.entryPart i
      let partner := partnerIn (s.members (s.shardOf p)) p
      if p = s.partNum then
        let groups := (s.frame.active.map fun it => (it.units.map (·.group)).eraseDups).getD []
        s.mapIn (match partner with | some q => groups.map fun g => (g, q) | none => [])
      else s.sendMsg p 0x0304 [partner.getD 0xFFFF]) s

/-! Withdrawal (R406). -/

/-- What a part does with WITHDRAW or ADMIT: its own state, or that of another part, changes at the next boundary. -/
def State.withdrawIn (s : State) (part : Nat) (out : Bool) : State :=
  if part = s.partNum then s.onMgr fun m => { m with withdrawDue := some out }
  else s.onMgr fun m => { m with peerDue := m.peerDue ++ [(part, out)] }

/-- The manager that a sender of WITHDRAW or ADMIT must be (R401). -/
def State.eitherMgr (s : State) (src : Nat) : Nat := if src = s.whistleMgr then s.whistleMgr else s.rackMgr

/-- The rack manager withdraws or admits a part: its entry, WITHDRAW or ADMIT to the rack, new replay maps.  A part
admitted is no longer expelled. -/
def State.setWithdrawn (s : State) (part : Nat) (out : Bool) : State :=
  match s.entryOf part with
  | none => s
  | some i =>
    if !s.isRack || s.flag F.PRT_DOM_DATA_WITHDRAWN i = out then s
    else
      let s := s.setFlag F.PRT_DOM_DATA_WITHDRAWN out i
      let s := s.rack.foldl (fun (s : State) j =>
          if s.entryPart j = s.partNum then s else s.sendMsg (s.entryPart j) (if out then 0x0305 else 0x0306) [part]) s
      let s := if out then s else s.onMgr fun m => { m with expelled := m.expelled.filter (· != part) }
      let s := (s.withdrawIn part out).sendMaps
      if out then s.planAround part false else s

/-! Substitution (R410). -/

/-- The lowest-numbered idle spare entry. -/
def State.spareEntry (s : State) : Option Nat :=
  (s.entries.filter fun i => s.flag F.PRT_DOM_DATA_SPARE i && !s.flag F.PRT_DOM_DATA_ABSENT i).head?

/-- A failed part is cut off, to be replaced by a spare. -/
def State.substitute (s : State) (part : Nat) : State :=
  match s.spareEntry with
  | none => s
  | some e =>
    if s.mgr.subst.isSome || !s.isRack || part = s.partNum then s
    else (s.onMgr fun m => { m with subst := some { failed := part, entry := e, former := s.entryPart e, stage := 0, began := s.now } }).sendMsg part 0x0307 []

/-- ASSUME goes to the spare. -/
def State.assumeNext (s : State) (b : Substitution) : State :=
  (s.onMgr fun m => { m with subst := some { b with stage := 1 } }).sendMsg b.former 0x0309 [b.failed]

/-- CUT: the part withdraws, answers, gives up its number and stops sending. -/
def State.cutIn (s : State) (src : Nat) : State :=
  let s := (s.onMgr fun m => { m with withdrawDue := some true }).sendMsg src 0x0308 []
  s.setFld F.PRT_PARTNUM_PART 0xFFFF

/-- CUT_ACK. -/
def State.cutAck (s : State) (src : Nat) : State :=
  match s.mgr.subst with
  | some b => if b.stage = 0 && b.failed = src then s.assumeNext b else s
  | none => s

/-- CUT_TIMEOUT: 1 s in which nothing from the part has arrived on any port. -/
def State.cutTimeout (s : State) : State :=
  match s.mgr.subst with
  | some b =>
    let last := max b.began (SMap.get 0 s.fab.heard b.failed)
    if b.stage = 0 && decide (last + 1000000000 ≤ s.now) then s.assumeNext b else s
  | none => s

/-- ASSUME: the spare takes the number, whatever the installer lock. -/
def State.assumeIn (s : State) (src number : Nat) : State := (s.setFld F.PRT_PARTNUM_PART number).sendMsg src 0x030A []

/-- ASSUME_ACK: the spare now stands for the failed part, whose entry stays; its shard is relayed to it. -/
def State.assumeAck (s : State) (src : Nat) : State :=
  match s.mgr.subst with
  | some b =>
    if b.stage = 1 && b.failed = src then
      let s := s.setFld F.PRT_DOM_DATA_VALID 0 b.entry
      let s := (s.onMgr fun m => { m with subst := some { b with stage := 2 } }).sendMaps
      (s.planAround b.failed true).planRelay 1 [b.failed]
    else s
  | none => s

/-! Reports to the rack manager (R259, R253, R392). -/

/-- END to the parts of the rack, the manager's own among them, once no session is under way. -/
def State.endSessions (s : State) : State :=
  let own := s.wgt.plan.isSome && decide (1 ≤ s.wgt.st) && decide (s.wgt.st ≤ 3)
  if own || s.wgt.status.any fun e => decide (1 ≤ e.2.state) && decide (e.2.state ≤ 3) then s
  else
    let finished := (s.wgt.status.filter fun e => decide (4 ≤ e.2.state)).map (·.1)
    let s := finished.foldl (fun (s : State) p => s.sendMsg p 0x0404 []) s
    (s.onWgt fun w => { w with
      status := w.status.map (fun e => if 4 ≤ e.2.state then (e.1, { e.2 with state := 0 }) else e), tree := [], needs := [] }).relayEnd

/-- RELAY_STATUS at the rack manager: needed chunks are planned for, a part that needs a REPAIR being withdrawn until it is
complete (R253); sessions that are over end; reports of unreachable and failing parts are acted on. -/
def State.statusIn (s : State) (src state result need shard peer self : Nat) : State :=
  match s.entryOf src with
  | none => s
  | some i =>
    if !s.isRack || !s.flag F.PRT_DOM_DATA_RACK i then s
    else
      let old := SMap.find? s.wgt.status src
      let kind := (old.map (·.kind)).getD 0
      let s := s.onWgt fun w => { w with status := SMap.put w.status src { state := state, result := result, need := need, shard := shard, kind := kind } }
      let s := if need = 1 then s.setWithdrawn src true else s
      let s := if need ≠ 0 && state = 0 then s.planRelay (if need = 2 then 2 else 3) [src] else s
      let s := if peer ≠ 0xFFFF then s.planAround peer true else s
      let s := if self = 1 || self = 3 then s.setWithdrawn src true else if self = 2 && !s.mgr.expelled.contains src then s.setWithdrawn src false else s
      let s := if self = 3 then s.substitute src else s
      let s := match s.mgr.subst with
        | some b => if b.stage = 2 && b.failed = src && state = 4 then s.onMgr fun m => { m with subst := some { b with stage := 3 } } else s
        | none => s
      let s := if state = 4 && kind = 3 && need = 0 && s.mgr.subst.isNone then s.setWithdrawn src false else s
      s.endSessions

/-- MESSAGE_RESEND, and what the manager makes of a peer it has itself given up. -/
def State.resendAct (s : State) (part seq : Nat) : State :=
  let t := s.resend part seq
  if t.isRack && decide (s.fld F.PRT_UNREACHCNT < t.fld F.PRT_UNREACHCNT) then t.planAround part true else t

/-! Roll calls (R367 to R369). -/

/-- The verified chunk 0 of a shard that the manager holds (R368). -/
def State.reference (s : State) (shard : Nat) : Option Bytes :=
  let own := match s.wgt.resident with | some r => r.shard == shard | none => false
  if own && !s.wgt.chunk0.isEmpty then some s.wgt.chunk0
  else
    let leaves := joined (SMap.get [] s.wgt.refParts (2 * shard))
    let c := joined (SMap.get [] s.wgt.refParts (2 * shard + 1))
    let root := (manifestRoots s.wgt.manifest).getD shard []
    if c.length = 12288 && leaves.length = 58704 && treeRoot (hashesOf leaves) = root && leafHash c = slice leaves 0 48 then some c else none

/-- A part's tally. -/
def State.roll (s : State) (p : Nat) : RollTally := SMap.get .init s.mgr.rolls p

/-- Sets it. -/
def State.setRoll (s : State) (p : Nat) (t : RollTally) : State := s.onMgr fun m => { m with rolls := SMap.set .init m.rolls p t }

/-- EXPEL at a part (R369): withdrawn at the next boundary; the stripe's arrays whose digest differs need their chunks. -/
def State.expelIn (s : State) (n stripe : Nat) : State :=
  let bad := ((List.range 75).filterMap fun i => s.placeOf (75 * stripe + i)).filter s.needsChunk
  ((s.onMgr fun m => { m with withdrawDue := some true }).post 0x0081 [n, stripe, bad.length]).tellManager

/-- A part is expelled (R369): 1 digest, 2 NOT_READY twice, 3 no answer twice. -/
def State.expel (s : State) (p cause stripe : Nat) : State :=
  let n := s.mgr.nextRoll - 1
  let s := s.post 0x0082 [p, cause, stripe]
  let s := if p = s.partNum then s.expelIn n stripe else s.sendMsg p 0x0303 [n, stripe]
  let s := s.onMgr fun m => { m with expelled := m.expelled.filter (· != p) ++ [p] }
  ((s.setRoll p .init).setWithdrawn p true).substitute p

/-- The answer of a part to roll call `n`: its shard, the stripe, the stripe digest, or none and the arrays not yet read (R257). -/
def State.rollAnswer (s : State) (n : Nat) : Option Bytes × Nat :=
  let t := n % 256
  let ds := (List.range 75).map fun i => SMap.find? s.wgt.scrub (75 * t + i)
  let missing := (ds.filter (·.isNone)).length
  (if missing = 0 then some (sha384 (ds.filterMap id).flatten) else none, missing)

/-- The manager judges an answer to its present roll call (R368). -/
def State.rollJudge (s : State) (p n shard : Nat) (digest : Option Bytes) : State :=
  if n + 1 ≠ s.mgr.nextRoll || (s.entryOf p).isNone then s
  else
    let t := s.roll p
    let s := s.setRoll p { answered := true, silent := 0, notReady := if digest.isNone then t.notReady + 1 else 0 }
    match digest with
    | none => if 1 ≤ t.notReady then s.expel p 2 (n % 256) else s
    | some d => match s.reference shard with
      | some c => if d = slice c (48 * (n % 256)) 48 then s else s.expel p 1 (n % 256)
      | none => s

/-- ROLL_CALL at a part: it answers from the digests read since the call before. -/
def State.rollCall (s : State) (src n : Nat) : State :=
  let a := s.rollAnswer n
  let shard := match s.wgt.resident with | some r => r.shard | none => 0
  let s := s.countReplay 9
  let s := if a.1.isNone then s.countReplay 10 else s
  let s := s.onWgt fun w => { w with scrub := [] }
  if src = s.partNum then s.rollJudge src n shard a.1
  else s.sendMsg src 0x0302 [n, shard, n % 256, if a.1.isSome then 0 else 1, a.2] (a.1.getD [])

/-- The parts a roll call goes to: the rack's members, but idle spares and parts already expelled. -/
def State.rollParts (s : State) : List Nat :=
  ((s.rack.filter fun i => !s.flag F.PRT_DOM_DATA_SPARE i).map s.entryPart).filter fun p => !s.mgr.expelled.contains p

/-- ROLL_CALL_DUE: silent parts are counted, then the call goes out. -/
def State.rollDue (s : State) : State :=
  if !s.isRack || s.frame.st ≠ .running || s.mgr.rollIn ≠ 0 then s
  else
    let n := s.mgr.nextRoll
    let s := s.rollParts.foldl (fun (s : State) p =>
        let t := s.roll p
        if t.answered then s
        else if 1 ≤ t.silent then s.expel p 3 ((n - 1) % 256)
        else s.setRoll p { t with silent := t.silent + 1 }) s
    let s := s.onMgr fun m => { m with nextRoll := n + 1, rollIn := s.fld F.PRT_ROLLCALL_FRAMES }
    s.rollParts.foldl (fun (s : State) p =>
        let s := s.setRoll p { s.roll p with answered := false }
        if p = s.partNum then s.rollCall p n else s.sendMsg p 0x0301 [n]) s

/-! READY (R402) and takeover (R407, R408). -/

/-- READY at the whistling manager. -/
def State.readyIn (s : State) (src frame : Nat) : State :=
  match s.entryOf src with
  | none => s
  | some i =>
    if !s.isWhistle || frame ≠ s.frame.number || s.frame.st ≠ .running then s
    else
      let s := if s.flag F.PRT_DOM_DATA_ABSENT i && !s.mgr.rejoin.contains i then s.onMgr fun m => { m with rejoin := m.rejoin ++ [i] } else s
      let s := if s.mgr.ready.contains i then s else s.onMgr fun m => { m with ready := m.ready ++ [i] }
      let s := s.setFld F.PRT_TALLY_READY s.mgr.ready.length
      let s := match s.mgr.subst with
        | some b =>
          if b.stage = 3 && b.failed = src then
            ((s.onMgr fun m => { m with subst := none }).setWithdrawn src false).post 0x00A6 [b.failed, b.former]
          else s
        | none => s
      s.listTry

/-- A manager drops an entry: ABSENT and withdrawn (R402, R407), by the rack manager or over the domain. -/
def State.dropEntry (s : State) (i : Nat) : State :=
  let s := s.setFld F.PRT_DOM_DATA_ABSENT 1 i
  let part := s.entryPart i
  if s.isRack && s.flag F.PRT_DOM_DATA_RACK i then s.setWithdrawn part true
  else if s.flag F.PRT_DOM_DATA_WITHDRAWN i then s
  else
    let s := s.setFld F.PRT_DOM_DATA_WITHDRAWN 1 i
    (s.entries.filter fun j => s.entryPart j != s.partNum).foldl (fun (s : State) j => s.sendMsg (s.entryPart j) 0x0305 [part]) s

/-- This part stops acting as manager: WHISTLE_OUT low, standing by (R408). -/
def State.standDown (s : State) : State :=
  ((s.setFld F.PRT_ROLE_WHISTLE 0).setFld F.PRT_ROLE_RACK 0).onMgr fun m => { m with stoodDown := true, outRise := none }

/-- CLAIM (R401, R407, R408): from the configured standby of a manager, with a higher epoch. -/
def State.claimIn (s : State) (src epoch : Nat) : State :=
  let sys := src = s.fld F.PRT_STBYCFG_SYSSTBY
  let rack := src = s.fld F.PRT_STBYCFG_RACKSTBY
  if !(sys || rack) || src = 0xFFFF || decide (epoch < s.fld F.PRT_MGREPOCH_EPOCH) then s.count F.PRT_MGRDROPCNT
  else
    let acts := (s.isWhistle || s.isRack) && src ≠ s.partNum
    let s := if acts && decide (s.fld F.PRT_MGREPOCH_EPOCH < epoch) then s.standDown else s
    let s := s.setFld F.PRT_MGREPOCH_EPOCH epoch
    let both := rack && s.whistleMgr = s.rackMgr
    let s := if sys || both then s.setFld F.PRT_MGRSTATE_WMGR src else s
    if rack then s.setFld F.PRT_MGRSTATE_RMGR src else s

/-- BEAT: the standby follows the roll-call count (R394). -/
def State.beatIn (s : State) (src epoch nextRoll rollIn : Nat) : State :=
  if src ≠ s.whistleMgr && src ≠ s.rackMgr then s.count F.PRT_MGRDROPCNT
  else s.fromMgr src src epoch fun s => s.onMgr fun m => { m with beat := true, nextRoll := nextRoll, rollIn := rollIn, beatFrom := s.frame.number }

/-- A standby takes over at a boundary (R407). -/
def State.takeOver (s : State) : State :=
  let own := s.partNum
  let sys := s.fld F.PRT_STBYCFG_SYSSTBY = own
  let rack := s.fld F.PRT_STBYCFG_RACKSTBY = own
  let whist := sys || (rack && s.fld F.PRT_MGRCFG_SYSMGR = 0xFFFF)
  let olds := ((if whist then [s.whistleMgr] else []) ++ (if rack then [s.rackMgr] else [])).eraseDups.filter (· != own)
  let epoch := s.fld F.PRT_MGREPOCH_EPOCH + 1
  let s := (s.setFld F.PRT_MGREPOCH_EPOCH epoch).setFld F.PRT_ROLE_TOOK_OVER 1
  let s := if whist then (s.setFld F.PRT_ROLE_WHISTLE 1).setFld F.PRT_MGRSTATE_WMGR own else s
  let s := if rack then (s.setFld F.PRT_ROLE_RACK 1).setFld F.PRT_MGRSTATE_RMGR own else s
  let dests := ((s.entries.map s.entryPart) ++ olds).eraseDups.filter (· != own)
  let s := dests.foldl (fun (s : State) p => s.sendCtl p 5 s.frame.number [epoch]) s
  let gone := s.frame.number - s.mgr.beatFrom
  let s := s.onMgr fun m => { m with rollIn := m.rollIn - gone, ready := [], acks := [], selfRun := 0 }
  olds.foldl (fun (s : State) p =>
      let s := match s.entryOf p with
        | some i => s.dropEntry i
        | none => s
      s.post 0x00A4 [p, epoch]) s

/-! The commands' meanings. -/

/-- RELAY_STATUS (R259); `peer` 0xFFFF for none. -/
def execRelayStatus (src state result need shard peer self : Nat) (s : State) : Host.Outcome State Fault Refusal :=
  .next (s.msgIn.statusIn src state result need shard peer self)
/-- MESSAGE_RESEND (R392). -/
def execMessageResend (part seq : Nat) (s : State) : Host.Outcome State Fault Refusal := .next (s.resendAct part seq)
/-- ROLL_CALL_DUE (R367). -/
def execRollCallDue (s : State) : Host.Outcome State Fault Refusal := .next s.rollDue
/-- ROLL_CALL (R367): from the rack manager. -/
def execRollCall (src epoch n : Nat) (s : State) : Host.Outcome State Fault Refusal :=
  .next (s.msgIn.fromMgr s.rackMgr src epoch fun s => s.rollCall src n)
/-- ROLL_ANSWER (R368). -/
def execRollAnswer (src n shard : Nat) (digest : Option Bytes) (s : State) : Host.Outcome State Fault Refusal :=
  .next (if s.isRack then s.msgIn.rollJudge src n shard digest else s.msgIn)
/-- EXPEL (R369): from the rack manager. -/
def execExpel (src epoch n stripe : Nat) (s : State) : Host.Outcome State Fault Refusal :=
  .next (s.msgIn.fromMgr s.rackMgr src epoch fun s => s.expelIn n stripe)
/-- WITHDRAW (R406, R402): from the rack manager, or the whistling manager. -/
def execWithdraw (src epoch part : Nat) (s : State) : Host.Outcome State Fault Refusal :=
  .next (s.msgIn.fromMgr (s.eitherMgr src) src epoch fun s => s.withdrawIn part true)
/-- ADMIT (R406): from the rack manager, or the whistling manager. -/
def execAdmit (src epoch part : Nat) (s : State) : Host.Outcome State Fault Refusal :=
  .next (s.msgIn.fromMgr (s.eitherMgr src) src epoch fun s => s.withdrawIn part false)
/-- CUT (R410): from the rack manager. -/
def execCut (src epoch : Nat) (s : State) : Host.Outcome State Fault Refusal :=
  .next (s.msgIn.fromMgr s.rackMgr src epoch fun s => s.cutIn src)
/-- CUT_ACK (R410). -/
def execCutAck (src : Nat) (s : State) : Host.Outcome State Fault Refusal := .next (s.msgIn.cutAck src)
/-- CUT_TIMEOUT (R410). -/
def execCutTimeout (s : State) : Host.Outcome State Fault Refusal := .next s.cutTimeout
/-- ASSUME (R410): from the rack manager. -/
def execAssume (src epoch number : Nat) (s : State) : Host.Outcome State Fault Refusal :=
  .next (s.msgIn.fromMgr s.rackMgr src epoch fun s => s.assumeIn src number)
/-- ASSUME_ACK (R410). -/
def execAssumeAck (src : Nat) (s : State) : Host.Outcome State Fault Refusal := .next (s.msgIn.assumeAck src)
/-- READY (R402). -/
def execReady (src frame : Nat) (s : State) : Host.Outcome State Fault Refusal := .next (s.readyIn src frame)
/-- MANAGER_CLAIM (R407). -/
def execManagerClaim (src epoch : Nat) (s : State) : Host.Outcome State Fault Refusal := .next (s.claimIn src epoch)
/-- BEAT_RECEIVED (R394). -/
def execBeatReceived (src epoch nextRoll rollIn : Nat) (s : State) : Host.Outcome State Fault Refusal :=
  .next (s.beatIn src epoch nextRoll rollIn)

end Sys2Proof.Machine
end

