-- ==== Sys2Proof/Machine/History.lean ====
section
/-!
DEFINITION. The fault history (11_integrity_and_recovery R372 to R379).
-/

namespace Sys2Proof.Machine

/-- Units of a kind (R373). -/
def unitCount (kind : Nat) : Nat :=
  if kind = 1 then siteCount else if kind = 2 then arrCount else if kind = 3 then portCount else if kind = 4 then 10 else if kind = 5 then 2 else 0

/-- The half that holds a unit. -/
def unitHalf (kind i : Nat) : Nat :=
  if kind = 1 then siteHalf i else if kind = 2 then siteHalf (i / 16) else if kind = 3 then i / 16 else if kind = 4 then i / 5 else i

/-- The place of a unit's record. -/
def histAt (kind i : Nat) : Nat := 1048576 * kind + i

/-- A unit's record. -/
def State.histRec (s : State) (kind i : Nat) : HistRec := SMap.get .init s.hist.recs (histAt kind i)

/-- Sets it: one atomic record write. -/
def State.setHist (s : State) (kind i : Nat) (r : HistRec) : State :=
  ({ s with hist := { s.hist with recs := SMap.set .init s.hist.recs (histAt kind i) r } }).recordWrites

/-- Whether windows make a unit permanent (R374): the newest and the third newest differ by at most 719 hours. -/
def permanentWindows (ws : List (Nat × Nat)) : Bool :=
  match ws with
  | a :: _ :: c :: _ => decide (a.1 - c.1 ≤ 719)
  | _ => false

/-- The windows after errors in an hour: merged into the newest or put before it, six kept, none more than 720 hours older. -/
def addWindow (ws : List (Nat × Nat)) (hour n : Nat) : List (Nat × Nat) :=
  let l := match ws with
    | (h, k) :: rest => if h = hour then (h, min (k + n) (2 ^ 32 - 1)) :: rest else (hour, n) :: (h, k) :: rest
    | [] => [(hour, n)]
  (l.take 6).filter fun w => decide (hour ≤ w.1 + 720)

/-- A record after its pending entry (R374). -/
def HistRec.after (r : HistRec) (p : HistPend) (utc : Nat) : HistRec :=
  let ws := addWindow r.windows p.hour p.errors
  { r with windows := ws, total := min (r.total + p.errors) (2 ^ 32 - 1), lastCause := if p.kind ≤ 2 then p.cause else 0, lastUtc := utc,
           cls := if 2 ≤ r.cls then r.cls else if permanentWindows ws then 2 else if ws.isEmpty then 0 else 1 }

/-- A unit classed permanent is retired (R375, R383): a core or array with its row, a port disabled; a stack at the next start;
a half's part withdraws and reports itself. -/
def State.retireUnit (s : State) (kind i : Nat) : State :=
  if kind = 1 then s.retireCore i
  else if kind = 2 then s.retireCore (i / 16)
  else if kind = 3 then
    let s := ((s.setFld F.PRT_STATUS_DISABLED 1 i).setVfld F.PRT_STATUS_DISABLED 1 i).setFld F.PRT_CTL_ENABLE 0 i
    let s := if s.flag F.PRT_STATUS_UP i then s.portDown i 4 else s.setFld F.PRT_STATUS_TRAINING 0 i
    s.post 0x00A2 [i]
  else if kind = 5 then (s.onMgr fun m => { m with withdrawDue := some true }).reportMgr s.relayNeed 0xFFFF 3
  else s

/-- Writes one pending entry; a unit that becomes permanent is posted and retired. -/
def State.writeHist (s : State) (p : HistPend) : State :=
  let old := s.histRec p.kind p.index
  let r := old.after p s.utcSec
  let s := s.setHist p.kind p.index r
  if r.cls = 2 && old.cls < 2 then (s.post 0x0083 [p.kind, p.index, p.hour]).retireUnit p.kind p.index else s

/-- Whether an entry would add a window to its record. -/
def State.newWindow (s : State) (p : HistPend) : Bool :=
  match (s.histRec p.kind p.index).windows with
  | w :: _ => w.1 != p.hour
  | [] => true

/-- Discards an entry that came too late: DROPPED of its half rises, the first drop of a second is posted. -/
def State.dropHist (s : State) (p : HistPend) : State :=
  let h := unitHalf p.kind p.index
  let r := s.histRec 5 h
  let r' := { r with dropped := min (r.dropped + 1) (2 ^ 32 - 1) }
  let s := { s with hist := { s.hist with recs := SMap.set .init s.hist.recs (histAt 5 h) r' } }
  let second := s.now / 1000000000 + 1
  if s.hist.dropPosted = second then s
  else ({ s with hist := { s.hist with dropPosted := second } }).post 0x0084 [r'.dropped, h]

/-- Whether a half has gathered replay counters. -/
def State.replayNews (s : State) (h : Nat) : Bool := (List.range 12).any fun k => SMap.get 0 s.hist.replay (12 * h + k) != 0

/-- The replay counters a half has gathered go to its record (R378). -/
def State.writeReplay (s : State) (h : Nat) : State :=
  let news := (List.range 12).map fun k => SMap.get 0 s.hist.replay (12 * h + k)
  if !s.replayNews h then s
  else
    let r := s.histRec 5 h
    let s := s.setHist 5 h { r with replay := (List.range 12).map fun k => min (r.replay.getD k 0 + news.getD k 0) (2 ^ 32 - 1) }
    { s with hist := { s.hist with replay := SMap.dropRange s.hist.replay (12 * h) 12 } }

/-- HISTORY_WRITE (R376): once a second, up to 64 records, the halves' replay counters among them, those that add a window first. -/
def State.historyWrite (s : State) : State :=
  let due := match s.hist.lastWrite with | some t => decide (t + 1000000000 ≤ s.now) | none => true
  if !due || s.holder = 0 then s
  else
    let late (p : HistPend) : Bool := decide (p.first / 1000000000 + 2 ≤ s.now / 1000000000)
    let gone := s.hist.pend.filter late
    let live := (s.hist.pend.filter fun p => !late p).mergeSort fun a b => decide (a.first ≤ b.first)
    let order := live.filter s.newWindow ++ live.filter fun p => !s.newWindow p
    let room := 64 - ([0, 1].filter s.replayNews).length
    let s := { s with hist := { s.hist with pend := order.drop room, lastWrite := some s.now } }
    let s := gone.foldl (fun (s : State) p => s.dropHist p) s
    let s := (order.take room).foldl (fun (s : State) p => s.writeHist p) s
    (s.writeReplay 0).writeReplay 1

/-- Whether the retirement of a permanent unit has taken effect. -/
def State.retireInForce (s : State) (kind i : Nat) : Bool :=
  if kind = 1 then s.fld (retiredFld (siteHalf i)) |>.testBit (siteRow i)
  else if kind = 2 then s.fld (retiredFld (siteHalf (i / 16))) |>.testBit (siteRow (i / 16))
  else if kind = 3 then s.flag F.PRT_STATUS_DISABLED i
  else if kind = 4 then s.flag F.MEM_STATUS_EXCLUDED i
  else s.mgr.withdrawn

/-- Permanent units whose retirement is in force are classed retired (R375). -/
def State.histSettle (s : State) : State :=
  s.hist.recs.foldl (fun (s : State) e =>
      let kind := e.1 / 1048576
      let i := e.1 % 1048576
      if e.2.cls = 2 && s.retireInForce kind i then s.setHist kind i { e.2 with cls := 3 } else s) s

/-- A record as its 128 bytes (Table 11-7). -/
def HistRec.bytes (r : HistRec) (kind i : Nat) : Bytes :=
  let b := toLe 1 kind ++ toLe 1 r.cls ++ toLe 2 0 ++ toLe 4 i
    ++ ((List.range 6).flatMap fun k => toLe 4 ((r.windows.getD k (0, 0)).1) ++ toLe 4 ((r.windows.getD k (0, 0)).2))
    ++ toLe 4 r.total ++ toLe 1 r.lastCause ++ toLe 3 0 ++ toLe 8 r.lastUtc ++ toLe 4 r.dropped
    ++ ((List.range 12).flatMap fun k => toLe 4 (r.replay.getD k 0))
  b ++ toLe 4 (crc32 b)

/-- READ_HISTORY (R373). -/
def State.readHistory (s : State) (c : Mgmt) (kind i : Nat) : State :=
  if unitCount kind ≤ i then s.answer c 0x63 1 i
  else (s.hostOutput c.fn ((s.histRec kind i).bytes kind i)).answer c 0x63 0 i

/-! The commands' meanings. -/

/-- HISTORY_WRITE (R376). -/
def execHistoryWrite (s : State) : Host.Outcome State Fault Refusal := .next s.historyWrite
/-- READ_HISTORY (R373). -/
def execReadHistory (c : Mgmt) (kind idx : Nat) (s : State) : Host.Outcome State Fault Refusal :=
  within c.ok (s.mgmt c (partCmd 0x63 roleOpr (decide (128 ≤ c.len))) idx fun s => s.readHistory c kind idx)

end Sys2Proof.Machine
end

