-- ==== Sys2Proof/Machine/Itinerary.lean ====
section
/-!
DEFINITION. Reading an itinerary container (05_itineraries_and_frames R165 to R170).
-/

namespace Sys2Proof.Machine

/-- A section of a container: its table index, TYPE, reserved field, INDEX, OFFSET, LENGTH, and its bytes. -/
structure Section where
  num : Nat
  type : Nat
  res : Nat
  index : Nat
  off : Nat
  len : Nat
  body : Bytes

/-- The section table (Table 5-2). -/
def sectionsOf (bs : Bytes) : List Section :=
  (List.range (fieldAt bs 0x46 2)).map fun i =>
    let o := 0x100 + 16 * i
    let off := fieldAt bs (o + 8) 4
    let len := fieldAt bs (o + 12) 4
    { num := i, type := fieldAt bs o 2, res := fieldAt bs (o + 2) 2, index := fieldAt bs (o + 4) 4, off := off, len := len,
      body := slice bs off len }

/-- SHARE. -/
def secShare : Nat := 1
/-- ENVELOPE. -/
def secEnvelope : Nat := 2
/-- PORTS. -/
def secPorts : Nat := 3
/-- STREAMS. -/
def secStreams : Nat := 4
/-- SLOTS. -/
def secSlots : Nat := 5
/-- RESTSTOPS. -/
def secRest : Nat := 6
/-- REPLAY. -/
def secReplay : Nat := 7
/-- KVLAYOUT. -/
def secKv : Nat := 8
/-- PITCHES. -/
def secPitches : Nat := 9

/-- The bytes of record `i` of a section whose records take `w` bytes from offset `o`. -/
def recAt (b : Bytes) (o w i : Nat) : Bytes := slice b (o + w * i) w

/-- The fixed-size records of a section after an `o`-byte header. -/
def records (b : Bytes) (o w : Nat) : List Bytes := (List.range ((b.length - o) / w)).map (recAt b o w)

/-! Operations (Tables 5-6 and 5-7). -/

/-- The operand bytes of an operation that Table 5-7 names, as (first, count) pairs; none for an unknown UNIT and OP. -/
def operandBytes (unit op : Nat) : Option (List (Nat × Nat)) :=
  match unit, op with
  | 0, 1 => some []
  | 0, 2 => some [(12, 1)]
  | 0, 3 => some [(12, 1)]
  | 0, 4 => some [(12, 4)]
  | 1, 1 => some [(12, 18)]
  | 1, 2 => some [(12, 4)]
  | 2, 1 => some [(12, 2), (16, 4)]
  | 3, 1 => some [(12, 18)]
  | 4, 1 => some [(12, 19)]
  | 5, n => if 1 ≤ n && n ≤ 0x11 then some [(12, 2), (16, 16)] else none
  | 6, 1 => some [(12, 3), (16, 12)]
  | 6, 2 => some [(12, 2), (16, 12)]
  | 6, 3 => some [(12, 2), (16, 12)]
  | 6, 4 => some [(12, 7), (20, 12)]
  | _, _ => none

/-- Whether the operand bytes that Table 5-7 does not name are 0. -/
def reservedZero (r : Bytes) (named : List (Nat × Nat)) : Bool :=
  (List.range 20).all fun i =>
    named.any (fun n => decide (n.1 ≤ 12 + i) && decide (12 + i < n.1 + n.2)) || fieldAt r (12 + i) 1 == 0

/-- A counter field: 0xFF is none. -/
def ctrField (n : Nat) : Option Nat := if n = 0xFF then none else some n

/-- The header of a record (Table 5-6). -/
def hdrOf (r : Bytes) : OpHdr :=
  { waitCtr := ctrField (fieldAt r 2 1), waitTarget := fieldAt r 4 3, incCtr := ctrField (fieldAt r 3 1), inc := fieldAt r 7 1,
    start := if fieldAt r 8 2 = 0xFFFF then none else some (fieldAt r 8 2) }

/-- A format byte: 0 INT4, 1 FP4. -/
def fmtOf (n : Nat) : Fmt := if n = 1 then .fp4 else .int4

/-- The vector operations in the order of their codes. -/
def vecOps : List VecOp :=
  [.add, .sub, .mul, .fma, .min, .max, .scale, .cmp, .select, .convert, .recip, .rsqrt, .exp2, .log2, .sum, .maxRed, .topK]

/-- The operation of a record (Table 5-7); NOP for an unknown one, which is refused at load. -/
def kindOf (r : Bytes) : OpKind :=
  let f (o n : Nat) := fieldAt r o n
  match f 0 1, f 1 1 with
  | 0, 2 => .resetCtr (f 12 1)
  | 0, 3 => .flip (f 12 1)
  | 0, 4 => .barrier (f 12 2) (f 14 2)
  | 1, 1 => .load (f 12 2) (fmtOf (f 14 1)) (f 15 1) (f 16 4) (f 20 4) (f 24 4) (f 28 2)
  | 1, 2 => .product (f 12 1) (f 13 1) (f 14 1) (f 15 1)
  | 2, 1 => .accumulate (f 12 1) (f 13 1 == 1) (f 16 4)
  | 3, 1 => .rotq (f 12 1) (f 13 1) (fmtOf (f 14 1)) (f 15 1 == 1) (f 16 4) (f 20 4) (f 24 4) (f 28 2)
  | 4, 1 => .matmul (f 12 4) (f 16 4) (f 20 4) (f 24 2) (f 26 2) (f 28 2) (f 30 1)
  | 5, n => match vecOps[n - 1]? with
    | some v => .vec v (f 12 1) (f 13 1) (f 16 4) (f 20 4) (f 24 4) (f 28 4)
    | none => .nop
  | 6, 1 => .send (f 12 2) (ctrField (f 14 1)) (f 16 4) (f 20 4) (f 24 4)
  | 6, 2 => .memRead (f 12 2) (f 16 4) (f 20 4) (f 24 4)
  | 6, 3 => .memWrite (f 12 2) (f 16 4) (f 20 4) (f 24 4)
  | 6, 4 => .portSend (f 12 1) (f 13 1) (f 14 2) (f 16 2) (ctrField (f 18 1)) (f 20 4) (f 24 4) (f 28 4)
  | _, _ => .nop

/-- An operation from its record. -/
def opOf (r : Bytes) : Op := ⟨hdrOf r, kindOf r⟩

/-! Shares (R167, Table 5-4). -/

/-- LEG_COUNT. -/
def legCount (b : Bytes) : Nat := fieldAt b 0 4

/-- The bytes of leg header `i`. -/
def legBytes (b : Bytes) (i : Nat) : Bytes := recAt b 32 32 i

/-- OP_COUNT of leg header bytes. -/
def opCount (h : Bytes) : Nat := fieldAt h 10 2
/-- OP_OFFSET. -/
def opOffset (h : Bytes) : Nat := fieldAt h 12 4

/-- The operation records of a leg. -/
def opRecords (b h : Bytes) : List Bytes := (List.range (opCount h)).map (recAt b (opOffset h) 32)

/-- A leg header. -/
def legHdrOf (h : Bytes) : LegHdr :=
  { kind := fieldAt h 2 1, start := fieldAt h 4 4, len := fieldAt h 8 2, firstSlot := fieldAt h 16 2, slotCount := fieldAt h 18 2,
    unit := if fieldAt h 20 2 = 0xFFFF then none else some (fieldAt h 20 2), layer := fieldAt h 22 2 }

/-- How many leg headers a share may hold at all (65,536 bytes of them): a larger LEG_COUNT is refused by size. -/
def legLimit : Nat := 2047

/-- The legs of a share. -/
def legsOfShare (b : Bytes) : List Leg :=
  (List.range (min (legCount b) legLimit)).map fun i =>
    let h := legBytes b i
    ⟨legHdrOf h, (opRecords b h).map opOf⟩

/-! Declaration sections (Table 5-8). -/

/-- An envelope record. -/
def envOf (r : Bytes) : EnvRec :=
  ⟨bitsAt (fieldAt r 0 1) 0 1 == 1, toSigned 32 (fieldAt r 4 4), toSigned 32 (fieldAt r 8 4), fieldAt r 12 4, fieldAt r 16 4,
    fieldAt r 20 4⟩

/-- A PORTS record. -/
def portOf (r : Bytes) : PortRec :=
  ⟨fieldAt r 0 1, fieldAt r 1 1, fieldAt r 2 2, fieldAt r 4 2, fieldAt r 6 1, fieldAt r 8 4, fieldAt r 12 4, fieldAt r 16 4,
    fieldAt r 20 4⟩

/-- A STREAMS record. -/
def streamOf (r : Bytes) : StreamRec :=
  ⟨fieldAt r 0 2, fieldAt r 2 2, fieldAt r 4 1, fieldAt r 6 2, fieldAt r 8 2, fieldAt r 10 2, fieldAt r 12 4⟩

/-- A SLOTS record. -/
def slotOf (r : Bytes) : SlotRec := ⟨fieldAt r 0 2, fieldAt r 2 1, fieldAt r 3 1, fieldAt r 4 2, fieldAt r 6 1⟩

/-- A RESTSTOPS record. -/
def restOf (r : Bytes) : RestRec :=
  ⟨fieldAt r 0 2, fieldAt r 2 2, fieldAt r 4 4, if fieldAt r 8 4 = 0xFFFFFFFF then none else some (fieldAt r 8 4)⟩

/-- The REPLAY units of a section: each an 8-byte header and 4 bytes a leg; `n` bounds their number. -/
def unitsOf : Nat → Bytes → List ReplayUnit
  | 0, _ => []
  | n + 1, b =>
    if b.length < 8 then []
    else
      let k := fieldAt b 2 2
      let legs := (List.range k).map fun i => (fieldAt b (8 + 4 * i) 2, fieldAt b (10 + 4 * i) 2)
      ⟨fieldAt b 0 2, fieldAt b 4 2, legs⟩ :: unitsOf n (b.drop (8 + 4 * k))

/-- A PITCHES record. -/
def pitchRecOf (r : Bytes) : PitchRec := ⟨fieldAt r 0 1, fieldAt r 8 150, fieldAt r 158 40, fieldAt r 198 4⟩

/-- A KVLAYOUT layer. -/
def kvOf (r : Bytes) : KvLayer := ⟨fieldAt r 0 2, fieldAt r 2 1, fieldAt r 4 4⟩

/-- The sections of a type. -/
def ofType (ss : List Section) (t : Nat) : List Section := ss.filter fun x => x.type == t

/-- The content of the one section of a type. -/
def bodyOf (ss : List Section) (t : Nat) : Bytes := match ofType ss t with | x :: _ => x.body | [] => []

/-- The table index of the one section of a type; 0xFFFF_FFFF where it is missing. -/
def numOf (ss : List Section) (t : Nat) : Nat := match ofType ss t with | x :: _ => x.num | [] => 0xFFFFFFFF

/-- The itinerary of a container. -/
def itinOf (bs : Bytes) : Itin :=
  let ss := sectionsOf bs
  { itinId := fieldAt bs 0x08 8, imageId := slice bs 0x10 48, tNomUs := fieldAt bs 0x40 4, clockMhz := fieldAt bs 0x44 2,
    kvLayoutId := fieldAt bs 0x4C 8, drain := bitsAt (fieldAt bs 0x54 4) 0 1 == 1,
    shares := (ofType ss secShare).map fun x => ⟨x.index, legsOfShare x.body⟩,
    envs := (ofType ss secEnvelope).map fun x => (x.index, (records x.body 0 24).map envOf),
    ports := (records (bodyOf ss secPorts) 0 24).map portOf,
    streams := (records (bodyOf ss secStreams) 0 16).map streamOf,
    slots := (records (bodyOf ss secSlots) 0 8).map slotOf,
    rests := (records (bodyOf ss secRest) 0 16).map restOf,
    units := unitsOf (bodyOf ss secReplay).length (bodyOf ss secReplay),
    pitches := (records (bodyOf ss secPitches) 0 208).map pitchRecOf,
    kv := (records (bodyOf ss secKv) 8 16).map kvOf }

end Sys2Proof.Machine
end

