-- ==== Sys2Proof/Machine/Taster.lean ====
section
/-!
DEFINITION. The crib, injection, and the clearing of a core (04_core R152 to R161).
-/

namespace Sys2Proof.Machine

/-- CRIB_STAT as a crib command leaves it (Table 4-14). -/
def State.cribStat (s : State) (site op slot result : Nat) (done : Bool) : State :=
  ((((s.setFld F.TST_CRIB_STAT_RESULT result site).setFld F.TST_CRIB_STAT_OP op site).setFld F.TST_CRIB_STAT_SLOT slot
    site).setFlag F.TST_CRIB_STAT_DONE done site)

/-- Sets a slot of the crib with the registers that show it. -/
def State.setSlot (s : State) (site slot : Nat) (x : CribSlot) : State :=
  let c := s.core site
  let s := s.setCore site { c with cribs := SMap.set CribSlot.empty c.cribs slot x }
  let s := s.setFlag F.TST_CRIB_VALID x.valid (4 * site + slot)
  let v := s.fld F.TST_STATUS_VALID site
  s.setFld F.TST_STATUS_VALID (v - v / 2 ^ slot % 2 * 2 ^ slot + if x.valid then 2 ^ slot else 0) site

/-- Whether the taster uses a slot in the leg that runs. -/
def State.slotBusy (s : State) (site slot : Nat) : Bool :=
  match (s.core site).run with
  | some r => match r.taste with | some t => t.slot == slot | none => false
  | none => false

/-- FILL (R153, R154). -/
def State.cribFill (s : State) (site slot arr cblock : Nat) : State :=
  let a := 16 * site + arr
  if !s.flag F.TST_CRIB_STAT_DONE site then s.cribStat site 1 slot 1 false
  else if s.mode a = modeExcluded || s.mode a = modeSpare then s.cribStat site 1 slot 8 true
  else if s.mode a ≠ modeMaint then s.cribStat site 1 slot 2 true
  else if s.flag F.ARR_STATUS_BUSY a then s.cribStat site 1 slot 1 true
  else if s.slotBusy site slot then s.cribStat site 1 slot 0x0B true
  else
    let s := s.setSlot site slot .empty
    let s := s.setCore site { s.core site with fill := some ⟨slot, arr, cblock, s.now⟩ }
    s.cribStat site 1 slot 0 false

/-- The weight a fill gives data row `i` and column `c` (R153): the row's own, with the share of a mend row that serves
it; none where a cell lies in a gap. -/
def ArrSt.cribWeight (x : ArrSt) (i c : Nat) : Option Int :=
  let cell (row col : Nat) := bandOf (x.code row col)
  match cell i (2 * c), cell i (2 * c + 1) with
  | some h, some l =>
    let e := x.mendEntry c
    let m := x.mendRow e.2.2
    if e.1 && m.1 && m.2.2 = i then
      match cell (1024 + e.2.2) (2 * c), cell (1024 + e.2.2) (2 * c + 1) with
      | some mh, some ml => some (weightOf h l + weightOf mh ml * 2 ^ e.2.1 / 2 ^ x.groupShift (i / 32) c)
      | _, _ => none
    else some (weightOf h l)
  | _, _ => none

/-- The crib weights of a column block, as codes at 1,024·column + row; none with a cell in a gap or a weight outside
−8 to 7. -/
def ArrSt.cribBlock (x : ArrSt) (cblock : Nat) : Option (SMap Nat) :=
  (List.range 32).foldl (fun acc j =>
      (List.range 1024).foldl (fun acc i =>
          acc.bind fun m => (x.cribWeight i (32 * cblock + j)).bind fun w =>
            if -8 ≤ w && w ≤ 7 then some (if w = 0 then m else m ++ [(1024 * j + i, ofSigned 4 w)]) else none) acc)
    (some [])

/-- How long a fill lasts in ns: 100 ns for every data row and every mend row with VALID = 1. -/
def ArrSt.fillNs (x : ArrSt) : Nat := 100 * (1024 + ((List.range 32).filter fun r => (x.mendRow r).1).length)

/-- What a fill that ends leaves (R153): the slot is VALID with OK, or stays empty with GAP; a parity error empties it (R152). -/
def State.cribTake (s : State) (site : Nat) (f : CribFill) (block : Option (SMap Nat)) (parity : Bool) : State :=
  match block with
  | none => s.cribStat site 1 f.slot 0x0A true
  | some w =>
    let s := s.cribStat site 1 f.slot 0 true
    if parity then s.unitError 1 site 0
    else
      let s := s.setSlot site f.slot ⟨true, f.arr, f.cblock, w⟩
      let i := 4 * site + f.slot
      ((s.setFld F.TST_CRIB_ARRAY f.arr i).setFld F.TST_CRIB_CBLOCK f.cblock i).setFld F.TST_CRIB_FILLFRAME s.frame.number i

/-- A fill ends once every cell is read (R153). -/
def State.cribFillEnd (s : State) (site : Nat) (codes : List (Nat × Nat)) (parity : Bool) : State :=
  match (s.core site).fill with
  | none => s
  | some f =>
    let a := 16 * site + f.arr
    if s.now < f.start + (s.arr a).fillNs then s
    else
      let x := (s.arr a).drifted codes
      let s := (s.setArr a x).setCore site { s.core site with fill := none }
      (s.raiseRow irqArray site).cribTake site f (x.cribBlock f.cblock) parity

/-- DROP empties a slot (R154). -/
def State.cribDrop (s : State) (site slot : Nat) : State :=
  if !s.flag F.TST_CRIB_STAT_DONE site then s.cribStat site 2 slot 1 false
  else ((s.setSlot site slot .empty).cribStat site 2 slot 0 true).raiseRow irqArray site

/-- The BAR0 offset of a site's TST block. -/
def tstBase (site : Nat) : Nat := 0x180000 + 0x100 * site

/-- A write of INJECT (R157). -/
def State.inject (s : State) (p : Path) (site : Nat) : State :=
  let r := s.ownWrite p roleMkr false (tstBase site)
  if r.1 then r.2.setCore site { r.2.core site with inject := true } else r.2

/-- A core that has been reset or has changed pitch begins to clear itself (R160, Table 4-7). -/
def State.coreClear (s : State) (site : Nat) : State :=
  let c := s.core site
  if !s.clearing site || c.clearStart.isSome then s
  else
    let s := { s with
      hamper := Memory.clear s.hamper (hamperAt site 0) hamperSize
      net := { s.net with badLines := SMap.dropRange s.net.badLines (8192 * site) 8192 } }
    let s := (List.range 4).foldl (fun s i => s.setSlot site i .empty) s
    let s := (List.range 16).foldl (fun s a =>
        let x := s.arr (16 * site + a)
        s.setArr (16 * site + a) { x with in0 := .empty, in1 := .empty, out0 := .empty, out1 := .empty }) s
    let c := s.core site
    let s := s.setCore site { c with
      run := none, tiles := 0, gather := [], accStore := [], rotBuf := [], cribs := [], clearStart := some s.cyc }
    (s.ctrsZero site).setFld F.TST_STATUS_TASTING 0 site

/-- A core is to be cleared: it takes nothing until its clear is complete (R160, R161). -/
def State.clearDue (s : State) (site : Nat) : State :=
  let s := s.setCore site { s.core site with run := none, clearStart := none }
  (s.setFld F.CORE_STATUS_CLEARING 1 site).setFld F.CORE_STATUS_SEQ seqClearing site

/-- 1,024 cycles after it began, a clear is complete (R160, R161): the core waits for the frame's legs, if it has any. -/
def State.coreClearComplete (s : State) (site : Nat) : State :=
  match (s.core site).clearStart with
  | none => s
  | some t =>
    if s.cyc < t + 1024000 then s
    else
      let s := s.setCore site { s.core site with clearStart := none }
      let s := (s.setFld F.CORE_STATUS_CLEARING 0 site).count F.CORE_CLEARCNT 1 site
      match s.siteCore site with
      | some core => if s.frame.st = .running then s.seqAfter site core else s.setFld F.CORE_STATUS_SEQ seqIdle site
      | none => s.setFld F.CORE_STATUS_SEQ seqIdle site

/-! The commands' meanings. -/

/-- CRIB_FILL (R153). -/
def execCribFill (site slot arr cblock : Nat) (s : State) : Host.Outcome State Fault Refusal :=
  within (site < siteCount && slot < 4 && arr < 16 && cblock < 16) (s.cribFill site slot arr cblock)
/-- CRIB_FILL_END (R153). -/
def execCribFillEnd (site : Nat) (codes : List (Nat × Nat)) (parity : Bool) (s : State) : Host.Outcome State Fault Refusal :=
  within (site < siteCount) (s.cribFillEnd site codes parity)
/-- CRIB_DROP (R154). -/
def execCribDrop (site slot : Nat) (s : State) : Host.Outcome State Fault Refusal :=
  within (site < siteCount && slot < 4) (s.cribDrop site slot)
/-- TST_INJECT (R157). -/
def execTstInject (path : Path) (site : Nat) (s : State) : Host.Outcome State Fault Refusal :=
  within (path.ok && site < siteCount) (s.inject path site)
/-- CORE_CLEAR (R160). -/
def execCoreClear (site : Nat) (s : State) : Host.Outcome State Fault Refusal := within (site < siteCount) (s.coreClear site)
/-- CORE_CLEAR_COMPLETE (R161). -/
def execCoreClearComplete (site : Nat) (s : State) : Host.Outcome State Fault Refusal :=
  within (site < siteCount) (s.coreClearComplete site)

end Sys2Proof.Machine
end

