-- ==== Sys2Proof/Machine/Pitch.lean ====
section
/-!
DEFINITION. Pitch set-up, channel zeroing, patrol scrub and clock crossings (06_network_and_memory R204 to R211, R220).
-/

namespace Sys2Proof.Machine

/-! Copies of the pitch fields. -/

/-- The copy `view` of pitch `p`: 0 current, 1 pending. -/
def State.pitchSet (s : State) (view p : Nat) : PitchSet :=
  let i := 16 * view + p
  { enable := s.flag F.NET_PITCH_RECT_ENABLE i, r1 := s.fld F.NET_PITCH_RECT_R1 i, r0 := s.fld F.NET_PITCH_RECT_R0 i,
    c1 := s.fld F.NET_PITCH_RECT_C1 i, c0 := s.fld F.NET_PITCH_RECT_C0 i, ports := s.fld F.NET_PITCH_PORTS_PORTS i,
    chans := (List.range 10).foldl (fun n w => n + s.fld F.NET_PITCH_CH_CH (10 * i + w) * 2 ^ (32 * w)) 0 }

/-- A copy of all 16 pitches. -/
def State.pitchCopy (s : State) (view : Nat) : List PitchSet := (List.range 16).map (s.pitchSet view)

/-- Sets the copy `view` of pitch `p`. -/
def State.putPitch (s : State) (view p : Nat) (v : PitchSet) : State :=
  let i := 16 * view + p
  let s := ((s.setFlag F.NET_PITCH_RECT_ENABLE v.enable i).setFld F.NET_PITCH_RECT_R1 v.r1 i).setFld F.NET_PITCH_RECT_R0 v.r0 i
  let s := ((s.setFld F.NET_PITCH_RECT_C1 v.c1 i).setFld F.NET_PITCH_RECT_C0 v.c0 i).setFld F.NET_PITCH_PORTS_PORTS v.ports i
  (List.range 10).foldl (fun s w => s.setFld F.NET_PITCH_CH_CH (bitsAt v.chans (32 * w) 32) (10 * i + w)) s

/-- PENDING is 1 while any pending copy differs from its current copy (Table 6-5). -/
def State.markPending (s : State) : State := s.setFlag F.NET_PITCH_CTL_PENDING (s.pitchCopy 0 != s.pitchCopy 1)

/-- Whether a copy's rectangle holds a logical core. -/
def PitchSet.holds (v : PitchSet) (core : Nat) : Bool :=
  v.enable && decide (v.r0 ≤ core / 40) && decide (core / 40 ≤ v.r1) && decide (v.c0 ≤ core % 40) && decide (core % 40 ≤ v.c1)

/-- The pitch of a logical core in a copy. -/
def pitchIn (cp : List PitchSet) (core : Nat) : Option Nat := cp.findIdx? fun v => v.holds core

/-- Whether any two of a list satisfy a relation. -/
def anyPair {α : Type} (f : α → α → Bool) : List α → Bool
  | [] => false
  | x :: xs => xs.any (f x) || anyPair f xs

/-- Whether two rectangles share a core. -/
def PitchSet.overlaps (a b : PitchSet) : Bool :=
  decide (a.r0 ≤ b.r1) && decide (b.r0 ≤ a.r1) && decide (a.c0 ≤ b.c1) && decide (b.c0 ≤ a.c1)

/-- The first condition of R204 that a copy breaks, in the order of R205; 0 for a valid copy. -/
def State.pitchFault (s : State) (cp : List PitchSet) : Nat :=
  let on : List (PitchSet × Nat) := cp.zipIdx.filter (·.1.enable)
  let vs : List PitchSet := on.map (·.1)
  if vs.any fun v => decide (v.r1 < v.r0) || decide (29 < v.r1) || decide (v.c1 < v.c0) || decide (39 < v.c1) then 7
  else if anyPair PitchSet.overlaps vs then 2
  else if anyPair (fun a b => a.chans &&& b.chans != 0) vs then 3
  else if anyPair (fun a b => a.ports &&& b.ports != 0) vs then 4
  else if (List.range 10).any fun k => s.flag F.MEM_STATUS_EXCLUDED k && vs.any fun v => bitsAt v.chans (32 * k) 32 != 0 then 5
  else if (List.range 320).any fun k => on.any fun v => bitsAt v.1.chans k 1 == 1 &&
      (s.fld F.MEM_CH_STATE_STATE k == 1 || s.fld F.MEM_CH_STATE_STATE k == 3
        || (s.fld F.MEM_CH_STATE_STATE k == 0 && s.fld F.MEM_CH_STATE_PITCH k != v.2)) then 6
  else 0

/-- A channel enters ZEROING (R207). -/
def State.zeroChannel (s : State) (k : Nat) : State :=
  let s := (s.setFld F.MEM_CH_STATE_STATE 1 k).setFld F.MEM_CH_STATE_PROGRESS 0 k
  { s with net := { s.net with zeroStart := SMap.set 0 s.net.zeroStart k (s.now + 1) } }

/-- CORE.STATUS shows a core's pitch. -/
def State.showPitch (s : State) (core : Nat) (p : Option Nat) : State :=
  match s.coreSite core with
  | some site =>
    match p with
    | some q => (s.setFld F.CORE_STATUS_NOPITCH 0 site).setFld F.CORE_STATUS_PITCH q site
    | none => s.setFld F.CORE_STATUS_NOPITCH 1 site
  | none => s

/-- A valid copy becomes current (R205, R207, R160): channels join and leave pitches, and every core whose pitch changes
is to be cleared. -/
def State.pitchCurrent (s : State) (cp : List PitchSet) : State :=
  let old := s.pitchCopy 0
  let s := cp.zipIdx.foldl (fun s v => s.putPitch 0 v.2 v.1) s
  let s := (List.range 320).foldl (fun s k =>
      match cp.findIdx? fun v => v.enable && bitsAt v.chans k 1 == 1 with
      | some p =>
        if s.fld F.MEM_CH_STATE_STATE k = 2 then (s.setFld F.MEM_CH_STATE_STATE 0 k).setFld F.MEM_CH_STATE_PITCH p k else s
      | none => if s.fld F.MEM_CH_STATE_STATE k = 0 then s.zeroChannel k else s) s
  let s := (List.range coreCount).foldl (fun s c =>
      let p := pitchIn cp c
      if pitchIn old c = p then s
      else match s.coreSite c with
        | some site => (s.showPitch c p).clearDue site
        | none => s) s
  s.markPending

/-- A write to a pitch field sets the pending copy of the pitch selected (R205); the fields of RECT, PORTS and CH are
judged as R20 says. -/
def State.pitchField (s : State) (p : Path) (addr value : Nat) : State :=
  if s.pathOff p then s
  else match findReg p addr with
  | some (.net, inst, r, k) =>
    if (r.bank = .pitch && !r.flds.contains F.NET_PITCH_KVBASE_PAGE) || r.bank = .pitchCh then
      let sel := s.fld F.NET_PITCH_SEL_PITCH (pathCopy p false)
      let place := if r.bank = .pitchCh then 10 * (16 + sel) + k else 16 + sel
      let parts := regParts r place inst k value
      let changes := parts.any fun q => q.2.2 != s.fld q.1 q.2.1
      match p with
      | .host 0 =>
        if !changes then s.audit 0 0xFFFF 0 0 addr
        else
          let t := s.ownWrite p roleIns true addr
          if t.1 then (parts.foldl (fun s q => s.setFld q.1 q.2.2 q.2.1) t.2).markPending else t.2
      | .host fn => s.audit fn 0xFFFF 0 0 addr
      | _ => s
    else s
  | _ => s

/-- A write of 1 to APPLY (R205). -/
def State.pitchApply (s : State) (p : Path) : State :=
  let t := s.ownWrite p roleIns false 0x1000
  if !t.1 then t.2
  else
    let s := t.2
    if s.frame.st = .armed || s.frame.st = .running then s.setFld F.NET_PITCH_CTL_RESULT 1
    else
      let cp := s.pitchCopy 1
      let code := s.pitchFault cp
      let s := s.setFld F.NET_PITCH_CTL_RESULT code
      if code = 0 then s.pitchCurrent cp else s

/-- The bytes of a channel outside the reserved region (R210). -/
def State.channelBytes (s : State) (k : Nat) : Nat := if s.reservedStack = some (k / 32) then 487257 * 2048 else 1000000000

/-- A channel has written zeros over its capacity (R207). -/
def State.zeroingComplete (s : State) (k : Nat) : State :=
  if s.fld F.MEM_CH_STATE_STATE k = 1 then
    let s := { s with
      dram := Memory.clear s.dram (1000000000 * k) (s.channelBytes k)
      net := { s.net with zeroStart := SMap.drop s.net.zeroStart k } }
    (s.setFld F.MEM_CH_STATE_STATE 2 k).setFld F.MEM_CH_STATE_PROGRESS 100 k
  else s

/-- The pitch page that holds a byte of a channel, if the channel belongs to a pitch. -/
def State.pageOf (s : State) (k off : Nat) : Option (Nat × Nat) :=
  if s.fld F.MEM_CH_STATE_STATE k ≠ 0 then none
  else
    let p := s.fld F.MEM_CH_STATE_PITCH k
    let ks := s.pitchChans p
    (ks.findIdx? (· == k)).map fun i => (p, (off / 2048 * ks.length + i) / 32)

/-- One beat in error met by the scrub: corrected, or uncorrectable (R208). -/
def State.scrubBeat (s : State) (k off : Nat) (bad : Bool) : State :=
  let st := k / 32
  if !bad then s.count F.MEM_CECNT 1 st
  else
    let s := ((s.count F.MEM_UECNT 1 st).unitError 4 st 0).setFld F.MEM_LASTERR_CH (k % 32) st
    let s := (s.setFld F.MEM_LASTERR_GRANULE (off / 2048) st).setFld F.MEM_LASTERR_BEAT (off % 2048 / 32) st
    let s := s.raiseBoth (irqStack + st)
    match s.pageOf k off with
    | some pg => if s.net.lostPages.contains pg then s
      else { s with net := { s.net with lostPages := s.net.lostPages ++ [pg] } }
    | none => s

/-- Patrol scrub reads the next `n` granules (R211); `errs` are the beats found in error, by channel and offset. -/
def State.patrolScrub (s : State) (n : Nat) (errs : List (Nat × Nat × Bool)) : State :=
  if s.frame.st = .halted || (s.frame.st = .running && s.frame.readyPoint) then
    let s := { s with net := { s.net with scrubNext := (s.net.scrubNext + n) % (320 * 488281) } }
    errs.foldl (fun s e => s.scrubBeat e.1 e.2.1 e.2.2) s
  else s

/-- One side of a crossing enters reset (R220): the transfers named are lost with the other side's queues, and the
crossing is held closed. -/
def State.crossingReset (s : State) (x : Nat) (lost : List Nat) : State :=
  let keep := (s.net.transfers.zipIdx.filter fun t => !lost.contains t.2).map (·.1)
  let s := { s with net := { s.net with
    transfers := keep, closed := if s.net.closed.contains x then s.net.closed else s.net.closed ++ [x] } }
  s.count F.NET_XRSTCNT

/-- The reset side of a crossing signals release (R220). -/
def State.crossingOpen (s : State) (x : Nat) : State :=
  { s with net := { s.net with closed := s.net.closed.filter (· != x) } }

/-! The commands' meanings. -/

/-- PITCH_FIELD_WRITE (R205). -/
def execPitchFieldWrite (path : Path) (addr value : Nat) (s : State) : Host.Outcome State Fault Refusal :=
  within path.ok (s.pitchField path addr value)
/-- ZEROING_COMPLETE (R207). -/
def execZeroingComplete (ch : Nat) (s : State) : Host.Outcome State Fault Refusal := within (ch < 320) (s.zeroingComplete ch)
/-- PATROL_SCRUB (R211). -/
def execPatrolScrub (granules : Nat) (errs : List (Nat × Nat × Bool)) (s : State) : Host.Outcome State Fault Refusal :=
  within (errs.all fun e => decide (e.1 < 320)) (s.patrolScrub granules errs)
/-- CROSSING_RESET (R220). -/
def execCrossingReset (crossing : Nat) (lost : List Nat) (s : State) : Host.Outcome State Fault Refusal :=
  .next (s.crossingReset crossing lost)

end Sys2Proof.Machine
end

