-- ==== Sys2Proof/Machine/LoadCheck.lean ====
section
/-!
DEFINITION. The load checks of an itinerary, in the order of Table 5-10 (05_itineraries_and_frames R165 to R173;
06_network_and_memory R204, R205, R212, R214; 09_host_interface R307, R309; 11_integrity_and_recovery R353, R355).
-/

namespace Sys2Proof.Machine

/-- What a failed check names (Table 5-9): SECTION, RECORD, DETAIL. -/
structure LoadFail where
  sec : Nat
  item : Nat
  detail : Nat
  deriving DecidableEq, Repr

/-- A failure in the header. -/
def failHeader : LoadFail := ⟨0xFFFFFFFF, 0, 0⟩

/-- What a check sees: the container, its sections, the itinerary read from it, and the copy of the pitches it is judged
against, with whether that copy was taken with the LOAD (R205). -/
structure LoadCtx where
  bytes : Bytes
  secs : List Section
  it : Itin
  pitches : List PitchSet
  taken : Bool

/-- Fails at a section where a test holds. -/
def failIf (b : Bool) (sec rec : Nat) : Option LoadFail := if b then some ⟨sec, rec, 0⟩ else none

/-! Scans, in section, leg and operation order. -/

/-- The first leg header that breaks a test, in the shares in order. -/
def LoadCtx.legScan (x : LoadCtx) (f : Section → Nat → Bytes → Bool) : Option LoadFail :=
  (ofType x.secs secShare).findSome? fun sh =>
    (List.range (min (legCount sh.body) legLimit)).findSome? fun i => failIf (f sh i (legBytes sh.body i)) sh.num i

/-- The first operation record that breaks a test. -/
def LoadCtx.opScan (x : LoadCtx) (f : Section → Bytes → Bytes → Bool) : Option LoadFail :=
  (ofType x.secs secShare).findSome? fun sh =>
    (List.range (min (legCount sh.body) legLimit)).findSome? fun i =>
      let h := legBytes sh.body i
      (opRecords sh.body h).zipIdx.findSome? fun r => failIf (f sh h r.1) sh.num (i + 65536 * (r.2 + 1))

/-- The first record of the one section of a type that breaks a test, records taken with their index. -/
def LoadCtx.recScan {α : Type} (x : LoadCtx) (t : Nat) (rs : List α) (f : Nat → α → Bool) : Option LoadFail :=
  rs.zipIdx.findSome? fun r => failIf (f r.2 r.1) (numOf x.secs t) r.2

/-- The first of several checks that fails. -/
def firstOf (l : List (Option LoadFail)) : Option LoadFail := l.findSome? id

/-! 0x04 to 0x06: the container (R165, R166, R167). -/

/-- BAD_HEADER. -/
def LoadCtx.badHeader (x : LoadCtx) : Option LoadFail :=
  let b := x.bytes
  let total := fieldAt b 0x48 4
  let n := fieldAt b 0x46 2
  failIf (fieldAt b 0 4 != 0x54495243 || fieldAt b 4 2 != 1 || fieldAt b 6 2 != 256
    || fieldAt b 0x58 168 != 0 || decide (1 < fieldAt b 0x54 4) || decide (134217728 < total) || total != b.length
    || n == 0 || decide (8192 < n) || decide (total < 0x100 + 16 * n + 48)) 0xFFFFFFFF 0

/-- BAD_DIGEST. -/
def LoadCtx.badDigest (x : LoadCtx) : Option LoadFail :=
  let n := x.bytes.length - 48
  failIf (sha384 (x.bytes.take n) != x.bytes.drop n) 0xFFFFFFFF 0

/-- Whether a section breaks the placement rules of R165. -/
def LoadCtx.badPlace (x : LoadCtx) (s : Section) : Bool :=
  s.off % 64 != 0 || decide (s.off < 0x100 + 16 * x.secs.length) || decide (x.bytes.length - 48 < s.off + s.len) || s.res != 0
    || (x.secs.any fun t => decide (t.num < s.num) && decide (t.off < s.off + s.len) && decide (s.off < t.off + t.len))

/-- Whether a section's LENGTH does not hold whole records of its type; a share's size is SHARE_SIZE's to judge. -/
def badShape (s : Section) : Bool :=
  if s.type = secEnvelope then s.len != 6144
  else if s.type = secPorts then s.len % 24 != 0
  else if s.type = secStreams || s.type = secRest then s.len % 16 != 0
  else if s.type = secSlots then s.len % 8 != 0
  else if s.type = secKv then decide (s.len < 8) || s.len % 16 != 8
  else if s.type = secPitches then s.len % 208 != 0
  else if s.type = secReplay then ((unitsOf s.body.length s.body).foldl (fun n u => n + 8 + 4 * u.legs.length) 0) != s.len
  else false

/-- Whether a section breaks R166. -/
def LoadCtx.badType (x : LoadCtx) (s : Section) : Bool :=
  if 0x8000 ≤ s.type then false
  else if s.type = 0 || 9 < s.type then true
  else
    let earlier := x.secs.filter fun t => decide (t.num < s.num) && t.type == s.type
    let perCore := s.type = secShare || s.type = secEnvelope
    (if perCore then decide (1199 < s.index) || earlier.any (fun t => t.index == s.index) else s.index != 0 || !earlier.isEmpty)
      || badShape s

/-- BAD_SECTION. -/
def LoadCtx.badSection (x : LoadCtx) : Option LoadFail :=
  firstOf [
    x.secs.findSome? fun s => failIf (x.badPlace s || x.badType s) s.num 0,
    ((List.range 7).map (· + 3)).findSome? fun t => failIf (ofType x.secs t).isEmpty 0xFFFFFFFF 0,
    failIf (fieldAt (bodyOf x.secs secKv) 0 8 != x.it.kvLayoutId) (numOf x.secs secKv) 0,
    (ofType x.secs secShare).findSome? fun sh => failIf (fieldAt sh.body 4 28 != 0) sh.num 0xFFFF,
    x.legScan fun _ _ h => fieldAt h 3 1 != 0 || fieldAt h 24 8 != 0 || fieldAt h 2 1 == 0 || decide (5 < fieldAt h 2 1)]

/-! 0x0A, 0x0B: pitches and rows. -/

/-- The footprint that declares a logical core. -/
def LoadCtx.footprint (x : LoadCtx) (core : Nat) : Option PitchRec := x.it.pitches.find? fun p => bitsAt p.cores core 1 == 1

/-- The record of a slot. -/
def LoadCtx.slot (x : LoadCtx) (n : Nat) : Option SlotRec := x.it.slots.find? fun r => r.slot == n

/-- Whether a range of slots stays within a pitch, as far as SLOTS declares them. -/
def LoadCtx.slotsIn (x : LoadCtx) (first n pitch : Nat) : Bool :=
  (List.range n).all fun i => match x.slot (first + i) with | some r => r.pitch == pitch | none => true

/-- Whether a footprint lies within the pitch set up for it: its cores, channels and ports (R204). -/
def PitchRec.within (r : PitchRec) (v : PitchSet) : Bool :=
  ((List.range 1200).all fun c => bitsAt r.cores c 1 == 0 || v.holds c)
    && r.chans &&& v.chans == r.chans && r.ports &&& v.ports == r.ports

/-- PITCH_BOUND (R204, R205), with the ports that history has disabled (R383). -/
def LoadCtx.pitchBound (x : LoadCtx) (s : State) : Option LoadFail :=
  let declared (p : Nat) : Bool := x.it.pitches.any fun r => r.pitch == p
  let barred (p : PitchRec) (port : Nat) : Bool :=
    decide (port < 32) && (bitsAt p.ports port 1 == 0 || s.flag F.PRT_STATUS_DISABLED port)
  firstOf [
    failIf (x.taken && s.pitchFault x.pitches != 0) (numOf x.secs secPitches) 0,
    x.recScan secPitches x.it.pitches fun i r =>
      decide (15 < r.pitch) || (x.it.pitches.take i).any (fun q => q.pitch == r.pitch)
        || !((x.pitches[r.pitch]?.map r.within).getD false),
    x.legScan fun sh _ h =>
      match x.footprint sh.index with
      | none => true
      | some p => !x.slotsIn (fieldAt h 16 2) (fieldAt h 18 2) p.pitch,
    x.opScan fun sh _ r =>
      match kindOf r, x.footprint sh.index with
      | .portSend port .., some p => barred p port
      | _, _ => false,
    x.recScan secStreams x.it.streams fun _ r => (List.range 32).any fun p => bitsAt r.pitches p 1 == 1 && !declared p,
    x.recScan secPorts x.it.ports fun _ r =>
      match x.footprint r.core with
      | none => true
      | some p => barred p r.port,
    x.recScan secSlots x.it.slots fun _ r => decide (r.pitch ≤ 15) && !declared r.pitch]

/-- The arrays an operation names. -/
def OpKind.arrays : OpKind → List Nat
  | .load mask .. => maskArrays mask
  | .product arr .. => [arr]
  | _ => []

/-- ROW_UNAVAILABLE. -/
def LoadCtx.rowUnavailable (x : LoadCtx) (s : State) : Option LoadFail :=
  firstOf [
    x.legScan fun sh _ _ => (s.coreSite sh.index).isNone,
    x.opScan fun sh _ r =>
      match s.coreSite sh.index with
      | some site => (kindOf r).arrays.any fun a => decide (a < 16) && s.mode (16 * site + a) == modeExcluded
      | none => false]

/-! 0x0C to 0x10: operations. -/

/-- SHARE_SIZE (R167). -/
def LoadCtx.shareSize (x : LoadCtx) : Option LoadFail :=
  firstOf [
    (ofType x.secs secShare).findSome? fun sh =>
      failIf (decide (65536 < sh.len) || decide (sh.len < 32 + 32 * legCount sh.body)) sh.num 0xFFFF,
    x.legScan fun sh _ h =>
      decide (opOffset h < 32 + 32 * legCount sh.body) || opOffset h % 32 != 0 || decide (sh.len < opOffset h + 32 * opCount h)]

/-- Whether a leg kind allows a unit (Table 5-5). -/
def kindAllows (kind unit : Nat) : Bool :=
  if kind = 2 then [0, 3, 4, 5, 6].contains unit
  else if kind = 4 then [0, 2, 5, 6].contains unit
  else if kind = 5 then [0, 6].contains unit
  else true

/-- Whether a counter byte is neither a counter nor none. -/
def badCtr (n : Nat) : Bool := decide (63 < n) && n != 0xFF

/-- The counter indices an operation's operands name. -/
def operandCtrBad (r : Bytes) : Bool :=
  match fieldAt r 0 1, fieldAt r 1 1 with
  | 0, 2 => decide (63 < fieldAt r 12 1)
  | 6, 1 => badCtr (fieldAt r 14 1)
  | 6, 4 => badCtr (fieldAt r 18 1)
  | _, _ => false

/-- BAD_OPERATION. -/
def LoadCtx.badOperation (x : LoadCtx) : Option LoadFail :=
  x.opScan fun _ h r =>
    match operandBytes (fieldAt r 0 1) (fieldAt r 1 1) with
    | none => true
    | some named =>
      !kindAllows (fieldAt h 2 1) (fieldAt r 0 1) || badCtr (fieldAt r 2 1) || badCtr (fieldAt r 3 1) || operandCtrBad r
        || (fieldAt r 7 1 == 0) != (fieldAt r 3 1 == 0xFF) || fieldAt r 10 2 != 0 || !reservedZero r named

/-- The record of a stream. -/
def LoadCtx.stream (x : LoadCtx) (n : Nat) : Option StreamRec := x.it.streams.find? fun r => r.stream == n

/-- The hamper ranges an operation names, at its own core or its destination. -/
def LoadCtx.ranges (x : LoadCtx) (k : OpKind) : List (Nat × Nat) :=
  k.reads ++ k.writes (fun _ _ => []) x.stream ++
    (match k with
      | .send _ _ _ dst bytes => [(dst, bytes)]
      | .portSend port _ _ _ _ _ dst bytes => if port = 32 then [] else [(dst, bytes)]
      | _ => [])

/-- HAMPER_RANGE (R138). -/
def LoadCtx.hamperRange (x : LoadCtx) : Option LoadFail :=
  firstOf [
    x.opScan fun _ _ r => (x.ranges (kindOf r)).any fun g => decide (hamperSize < g.1 + g.2),
    x.recScan secPorts x.it.ports fun _ r => decide (hamperSize < r.addr + r.bytes)]

/-- The operand limits of MEM_READ and MEM_WRITE (R212, R214). -/
def memBad (r : StreamRec) (slotCount bytes token : Nat) (write : Bool) : Bool :=
  let e := rowWidth r.bpt
  let first := token % 2 ^ 24
  let tail := bitsAt token 31 1 == 1
  let w := if write && tail then 2 * e else r.bpt
  let t := bytes / max 1 w
  decide (slotCount ≤ bitsAt token 24 7) || bytes % max 1 w != 0 || (write && t == 0) || (tail && r.kv == 0)
    || (if !write || (r.kv == 1 && !tail) then first % 32 != 0 || t % 32 != 0 else false)
    || (write && tail && decide (first / 32 < (first + t - 1) / 32))

/-- The operand limits of ROTQ (Table 5-7, R130). -/
def rotqBad (m mode len : Nat) (fmt inp : Nat) : Bool :=
  decide (4 < mode) || decide (1 < fmt) || decide (1 < inp) || len % 64 != 0 || decide (16384 < len)
    || (if mode ≤ 2 then decide (m < 6) || decide (12 < m) || len % 2 ^ m != 0 else m != 0)

/-- The operand limits of one record (Table 5-7, R127, R130, R134, R214, R309). -/
def LoadCtx.operandBad (x : LoadCtx) (h r : Bytes) : Bool :=
  let f (o n : Nat) := fieldAt r o n
  (f 8 2 != 0xFFFF && decide (25599 < f 8 2)) ||
  match kindOf r with
  | .flip tile => decide (15 < tile)
  | .barrier id n => decide (4095 < id) || decide (n < 2) || decide (1200 < n)
  | .load _ _ buf _ _ _ count => decide (1 < f 14 1) || decide (1 < buf) || count == 0 || decide (1024 < count)
  | .product arr buf k bank => decide (15 < arr) || decide (1 < buf) || k == 0 || decide (32 < k) || decide (1 < bank)
  | .accumulate n _ _ => n == 0 || decide (16 < n) || decide (1 < f 13 1)
  | .rotq m mode _ _ _ _ _ len => rotqBad m mode len (f 14 1) (f 15 1)
  | .matmul _ _ _ m n k32 flags =>
    decide (4096 < m) || decide (4096 < n) || decide (32768 < k32) || decide (31 < flags)
  | .vec op flags k _ _ _ len => decide (3 < flags) || (op == .topK && (decide (8 < k) || decide (256 < len)))
  | .send core _ _ _ bytes => decide (1199 < core) || bytes == 0 || decide (1048576 < bytes)
  | .memRead st _ bytes token => match x.stream st with
    | some q => memBad q (fieldAt h 18 2) bytes token false
    | none => true
  | .memWrite st _ bytes token => match x.stream st with
    | some q => memBad q (fieldAt h 18 2) bytes token true
    | none => true
  | .portSend port cls _ first ctr _ dst bytes =>
    if port = 32 then
      ctr.isSome || dst != 0 || bytes == 0 || bytes % 8 != 0
        || (List.range (bytes / 8)).any fun i => match x.slot (first + i) with | some q => !q.exit | none => true
    else decide (31 < port) || decide (3 < cls)
  | _ => false

/-- The slots of a host delivery (R307): the run whose inboxes make up BYTES; none where none does. -/
def LoadCtx.hostRun (x : LoadCtx) (first bytes : Nat) : Option (List SlotRec) :=
  ((List.range 4096).foldl (fun (a : Nat × Option (List SlotRec)) i =>
      if bytes ≤ a.1 then a
      else match x.slot (first + i), a.2 with
        | some r, some l => (a.1 + 8 + 4 * r.tokens, some (l ++ [r]))
        | _, _ => (bytes + 1, none)) (0, some [])).2

/-- Whether a host delivery record breaks R307. -/
def LoadCtx.hostPortBad (x : LoadCtx) (r : PortRec) : Bool :=
  r.cls != 0 || decide (r.earliest < 3200) || decide (r.latest < r.earliest + ceilDiv r.bytes 64 + 64)
    || (match x.hostRun r.part r.bytes with
      | some l => l.isEmpty || l.any (fun q => !q.entry) || (l.foldl (fun n q => n + 8 + 4 * q.tokens) 0) != r.bytes
      | none => true)

/-- Whether bytes per token break R212. -/
def bptBad (bpt : Nat) : Bool := bpt % 17 != 0 || decide (rowWidth bpt < 32) || decide (3840 < rowWidth bpt)

/-- OPERAND. -/
def LoadCtx.operand (x : LoadCtx) : Option LoadFail :=
  firstOf [
    x.opScan fun _ h r => x.operandBad h r,
    x.legScan fun sh _ h => decide (65536 < (opRecords sh.body h).foldl (fun n r =>
      n + match kindOf r with | .rotq _ mode _ _ _ _ _ len => if mode ≤ 2 then len else 0 | _ => 0) 0),
    x.recScan secStreams x.it.streams fun i r =>
      bptBad r.bpt || decide (1 < r.kv) || (x.it.streams.take i).any fun q => q.stream == r.stream,
    x.recScan secKv x.it.kv fun i r => bptBad r.bpt || decide (1 < r.fmt) || (x.it.kv.take i).any fun q => q.layer == r.layer,
    x.recScan secPorts x.it.ports fun _ r =>
      decide (32 < r.port) || decide (3 < r.cls) || decide (1199 < r.core) || decide (63 < r.ctr) || decide (r.latest < r.earliest)
        || (r.port == 32 && x.hostPortBad r),
    failIf (decide (4194304 < (x.it.ports.filter fun r => r.port == 32).foldl (fun n r => n + r.bytes) 0)) (numOf x.secs secPorts) 0]

/-- INT32_FP4 (R73). -/
def LoadCtx.int32Fp4 (x : LoadCtx) : Option LoadFail :=
  x.opScan fun _ _ r => match kindOf r with | .matmul _ _ _ _ _ _ fl => bitsAt fl 2 1 == 1 && bitsAt fl 0 2 != 0 | _ => false

/-! 0x11 to 0x14: leg headers and the ready point. -/

/-- LEG_LENGTH. -/
def LoadCtx.legLength (x : LoadCtx) : Option LoadFail :=
  x.legScan fun _ _ h => fieldAt h 8 2 == 0 || decide (25600 < fieldAt h 8 2)

/-- LEG_ORDER. -/
def LoadCtx.legOrder (x : LoadCtx) : Option LoadFail :=
  x.legScan fun sh i h =>
    fieldAt h 0 2 != i || (decide (0 < i) && decide (fieldAt h 4 4 < fieldAt (legBytes sh.body (i - 1)) 4 4))

/-- EARLY_START. -/
def LoadCtx.earlyStart (x : LoadCtx) : Option LoadFail := x.legScan fun _ _ h => decide (fieldAt h 4 4 < 3200)

/-- READY_POINT, with the computed end. -/
def LoadCtx.readyPoint (x : LoadCtx) : Option LoadFail :=
  let lim := 1400 * x.it.tNomUs
  let legs := (ofType x.secs secShare).findSome? fun sh =>
    (List.range (min (legCount sh.body) legLimit)).findSome? fun i =>
      let h := legBytes sh.body i
      let e := fieldAt h 4 4 + fieldAt h 8 2
      if lim < e then some ⟨sh.num, i, e⟩ else none
  let rests := x.it.rests.zipIdx.findSome? fun r => match r.1.len with
    | some n => if lim < r.1.start + n then some ⟨numOf x.secs secRest, r.2, r.1.start + n⟩ else none
    | none => none
  firstOf [legs, rests]

/-! 0x18 to 0x1C: declarations. -/

/-- The legs of a core. -/
def Itin.legs (it : Itin) (core : Nat) : List Leg := match it.shares.find? fun h => h.core == core with | some h => h.legs | none => []

/-- REST_CONFLICT (R171): a core that does not exist, or arrays that a leg within the place uses. -/
def LoadCtx.restConflict (x : LoadCtx) : Option LoadFail :=
  x.recScan secRest x.it.rests fun _ r =>
    decide (1199 < r.core) || (x.it.legs r.core).any fun l =>
      let meets := match r.len with
        | some n => decide (r.start < l.hdr.start + l.hdr.len) && decide (l.hdr.start < r.start + n)
        | none => true
      meets && l.ops.any fun o => o.kind.arrays.any fun a => bitsAt r.arrays a 1 == 1

/-- Whether a slot record breaks the rules of SLOT_DECL. -/
def slotBad (r : SlotRec) (reserved : Nat) : Bool :=
  (r.kind != 1 && r.kind != 2) || decide (3 < r.stages) || decide (15 < r.pitch) || reserved != 0
    || (if r.kind = 1 then r.tokens != 1 else decide (r.tokens < 16) || decide (4096 < r.tokens))

/-- SLOT_DECL. -/
def LoadCtx.slotDecl (x : LoadCtx) : Option LoadFail :=
  let undeclared (first n : Nat) : Bool := (List.range n).any fun i => (x.slot (first + i)).isNone
  firstOf [
    x.legScan fun _ _ h => undeclared (fieldAt h 16 2) (fieldAt h 18 2),
    x.recScan secStreams x.it.streams fun _ r => undeclared r.firstSlot r.slotCount,
    x.recScan secSlots x.it.slots fun i r =>
      slotBad r (fieldAt (recAt (bodyOf x.secs secSlots) 0 8 i) 7 1) || (x.it.slots.take i).any fun q => q.slot == r.slot]

/-- What a leg's operations do to the hamper, for the conditions of R355; chain tables are data and are read as empty. -/
def LoadCtx.legWrites (x : LoadCtx) (l : Leg) : List (Nat × Nat) := l.ops.flatMap fun o => o.kind.writes (fun _ _ => []) x.stream

/-- Deliveries to a core by sends and by ports, each with its counter, where it has one. -/
def LoadCtx.deliveries (x : LoadCtx) (core : Nat) : List (Option Nat × Nat × Nat) :=
  (x.it.shares.flatMap fun sh => sh.legs.flatMap fun l => l.ops.filterMap fun o =>
      match o.kind with | .send c k _ dst bytes => if c = core then some (k, dst, bytes) else none | _ => none)
    ++ x.it.ports.filterMap fun p => if p.core = core then some (some p.ctr, p.addr, p.bytes) else none

/-- Whether a delivery has come by the time that waits on these counters have ended. -/
def landed (waits : List Nat) (d : Option Nat × Nat × Nat) : Bool := match d.1 with | some k => waits.contains k | none => false

/-- The hamper bytes that a core's frame reads before they are written, where a delivery counts as written from the
operation on that waits for its counter. -/
def LoadCtx.staleReads (x : LoadCtx) (core : Nat) : List (Nat × Nat) :=
  let ds := x.deliveries core
  (((x.it.legs core).flatMap (·.ops)).foldl (fun (acc : List (Nat × Nat) × List (Nat × Nat)) o =>
      let came := match o.hdr.waitCtr with
        | some k => (ds.filter (landed [k])).map (·.2)
        | none => []
      let w := acc.2 ++ came
      (acc.1 ++ cutRanges o.kind.reads w, w ++ o.kind.writes (fun _ _ => []) x.stream)) ([], [])).1

/-- Whether a leg of a replay unit breaks a condition of R355. The delivery that fills a byte of the input is one the leg or
an earlier leg of its core waits for. -/
def LoadCtx.replayBad (x : LoadCtx) (core idx : Nat) : Bool :=
  let legs := x.it.legs core
  match legs[idx]? with
  | none => false
  | some l =>
    let input := x.it.replayInput (fun _ _ => []) core l
    let output := x.it.replayOutput (fun _ _ => []) l
    let waits := (legs.take (idx + 1)).flatMap fun m => m.ops.filterMap (·.hdr.waitCtr)
    let others := (legs.drop (idx + 1)).flatMap fun m => x.legWrites m
    let strays := ((x.deliveries core).filter fun d => !landed waits d).map (·.2)
    let next := x.staleReads core
    let sendsLater := x.it.shares.any fun sh =>
      let ops := sh.legs.flatMap (·.ops)
      ops.zipIdx.any fun o => match o.1.kind with
        | .send c k src dst bytes =>
          c == core && landed waits (k, dst, bytes) && meetRanges [(dst, bytes)] input
            && (ops.drop (o.2 + 1)).any fun q => meetRanges (q.kind.writes (fun _ _ => []) x.stream) [(src, bytes)]
        | _ => false
    meetRanges input others || meetRanges input strays || meetRanges next input || meetRanges next output
      || decide (65536 < rangeBytes input) || decide (65536 < rangeBytes output) || sendsLater

/-- The pitch of a core as the footprints declare it. -/
def LoadCtx.pitchOf (x : LoadCtx) (core : Nat) : Option Nat := (x.footprint core).map (·.pitch)

/-- REPLAY_MAP (R353, R355). -/
def LoadCtx.replayMap (x : LoadCtx) : Option LoadFail :=
  let us := x.it.units
  let leg (q : Nat × Nat) : Option Leg := (x.it.legs q.1)[q.2]?
  firstOf [
    x.legScan fun sh _ h =>
      let u := fieldAt h 20 2
      if u = 0xFFFF then (opRecords sh.body h).any fun r => match kindOf r with | .product .. => true | _ => false
      else !us.any fun v => v.unit == u && v.legs.contains (sh.index, fieldAt h 0 2),
    x.recScan secReplay us fun i u =>
      (us.take i).any (fun v => v.unit == u.unit || v.legs.any fun q => u.legs.contains q)
        || u.legs.any (fun q => match leg q with | some l => l.hdr.unit != some u.unit | none => true)
        || u.legs.any (fun q => x.pitchOf q.1 != (u.legs.head?.bind fun f => x.pitchOf f.1))
        || u.legs.any fun q => x.replayBad q.1 q.2]

/-- Whether one FP32 word lies above another. -/
def fpAbove (a b : Nat) : Bool := fpLt b a

/-- ENVELOPE. -/
def LoadCtx.envelope (x : LoadCtx) : Option LoadFail :=
  (ofType x.secs secEnvelope).findSome? fun s =>
    ((records s.body 0 24).map envOf).zipIdx.findSome? fun r =>
      failIf (r.1.enable && (decide (r.1.hi < r.1.lo) || fpNotFinite r.1.meanLo || fpNotFinite r.1.meanHi || fpNotFinite r.1.rmsHi
        || fpAbove r.1.meanLo r.1.meanHi)) s.num r.2

/-- KV_LAYOUT (R194, R177). -/
def LoadCtx.kvLayout (x : LoadCtx) (s : State) : Option LoadFail :=
  match s.frame.active with
  | some old => failIf (old.kvLayoutId != x.it.kvLayoutId && !x.it.drain) 0xFFFFFFFF 0
  | none => none

/-- The checks of Table 5-10 from BAD_HEADER on, in order, with their codes; `timing` is what the cycle-level model of R173
finds (ARRAY_USE, LEG_TIME or DEADLOCK), `image` the identity of the resident image. -/
def LoadCtx.checks (x : LoadCtx) (s : State) (image : Option Bytes) (timing : Option (Nat × LoadFail)) : List (Nat × Option LoadFail) :=
  let at' (code : Nat) : Option LoadFail := timing.bind fun t => if t.1 = code then some t.2 else none
  [ (0x04, x.badHeader), (0x05, x.badDigest), (0x06, x.badSection),
    (0x07, failIf (some x.it.imageId != image) 0xFFFFFFFF 0),
    (0x08, failIf (decide (x.it.tNomUs < 200) || decide (50000 < x.it.tNomUs)) 0xFFFFFFFF 0),
    (0x09, failIf (x.it.clockMhz != 1600) 0xFFFFFFFF 0),
    (0x0A, x.pitchBound s), (0x0B, x.rowUnavailable s), (0x0C, x.shareSize), (0x0D, x.badOperation), (0x0E, x.hamperRange),
    (0x0F, x.operand), (0x10, x.int32Fp4), (0x11, x.legLength), (0x12, x.legOrder), (0x13, x.earlyStart), (0x14, x.readyPoint),
    (0x15, at' 0x15), (0x16, at' 0x16), (0x17, at' 0x17),
    (0x18, x.restConflict), (0x19, x.slotDecl), (0x1A, x.replayMap), (0x1B, x.envelope), (0x1C, x.kvLayout s) ]

/-- The first check that fails, with its code; none where the container passes. -/
def firstFailure : List (Nat × Option LoadFail) → Option (Nat × LoadFail)
  | [] => none
  | (c, some f) :: _ => some (c, f)
  | (_, none) :: r => firstFailure r

/-- The result record (Table 5-9). -/
def loadRecord (code cls : Nat) (f : LoadFail) : Bytes :=
  toLe 1 code ++ toLe 1 cls ++ toLe 2 0 ++ toLe 4 f.sec ++ toLe 4 f.item ++ toLe 4 f.detail

end Sys2Proof.Machine
end

