-- ==== Sys2Proof/Machine/Ranger.lean ====
section
/-!
DEFINITION. Interrupt controllers, Ranger cores and leadership (10_ranger_firmware R321 to R348).
-/

namespace Sys2Proof.Machine

/-! The interrupt controllers (R333 to R339). -/

/-- Sources wired to both controllers (Table 10-5). -/
def wiredBoth (id : Nat) : Bool :=
  (decide (4 ≤ id) && decide (id ≤ 40)) || (decide (256 ≤ id) && decide (id ≤ 299)) || (decide (320 ≤ id) && decide (id ≤ 351))

/-- Sources wired to the controller of their own half. -/
def wiredOwn (id : Nat) : Bool := decide (id ≤ 3) || (decide (64 ≤ id) && decide (id ≤ 159))

/-- An edge on a source: identities that are not connected are never pending. -/
def State.edge (s : State) (h id : Nat) : State :=
  if wiredBoth id then s.raiseBoth id
  else if wiredOwn id then s.raiseHalf h id
  else s

/-- Which target has claimed a source: target + 1, 0 for none. -/
def State.claimedBy (s : State) (h id : Nat) : Nat := SMap.get 0 s.irq.claimed (1024 * h + id)

/-- Sets it. -/
def State.setClaimed (s : State) (h id v : Nat) : State :=
  { s with irq := { s.irq with claimed := SMap.set 0 s.irq.claimed (1024 * h + id) v } }

/-- Whether a source is eligible for a target (R335). -/
def State.eligible (s : State) (h k id : Nat) : Bool :=
  s.flag F.INTC_PEND (1024 * h + id) && s.flag F.INTC_EN ((4 * h + k) * 1024 + id)
    && decide (s.fld F.INTC_THRESH (4 * h + k) < s.fld F.INTC_PRIO (1024 * h + id)) && s.claimedBy h id == 0

/-- Whether the interrupt line of a target is asserted. -/
def State.irqLine (s : State) (h k : Nat) : Bool := (List.range 1023).any (s.eligible h k)

/-- The eligible source of highest priority, the lowest identity among equals. -/
def State.bestSource (s : State) (h k : Nat) : Option Nat :=
  ((List.range 1023).filter (s.eligible h k)).foldl (fun (b : Option Nat) id =>
      match b with
      | some x => if s.fld F.INTC_PRIO (1024 * h + x) < s.fld F.INTC_PRIO (1024 * h + id) then some id else some x
      | none => some id) none

/-- The epoch by which a half believes it leads. -/
def State.belief (s : State) (h : Nat) : Option Nat := if h = 0 then s.irq.beliefW else s.irq.beliefE

/-- Sets it. -/
def State.setBelief (s : State) (h : Nat) (e : Option Nat) : State :=
  { s with irq := if h = 0 then { s.irq with beliefW := e } else { s.irq with beliefE := e } }

/-- Whether a half holds the current epoch. -/
def State.leads (s : State) (h : Nat) : Bool := s.holder == h + 1

/-- A half that has lost leadership learns it as it claims identity 7: its held messages are discarded (R347). -/
def State.learn (s : State) (h : Nat) : State :=
  match s.belief h with
  | none => s
  | some e =>
    if s.leads h && e = s.epoch then s
    else
      let stale := s.link.held.filter fun m => m.epoch == e
      let s := { s with link := { s.link with held := s.link.held.filter fun m => m.epoch != e } }
      (s.count F.RGR_STALETXCNT stale.length h).setBelief h none

/-- A firmware read of CLAIM (R336). -/
def State.intcClaim (s : State) (h k : Nat) : State :=
  match s.bestSource h k with
  | none => { s.count F.INTC_SPURCNT 1 h with readout := 1023 }
  | some id =>
    let s := ((s.setFld F.INTC_PEND 0 (1024 * h + id)).setClaimed h id (k + 1)).setFld F.INTC_CLAIM_ID id (4 * h + k)
    let s := { s with readout := id }
    if id = irqLeadership then s.learn h else s

/-- A firmware write of CLAIM: an identity the target has claimed is complete (R336). -/
def State.intcComplete (s : State) (h k id : Nat) : State := if s.claimedBy h id = k + 1 then s.setClaimed h id 0 else s

/-- A half's firmware clock is stopped or runs. -/
def State.setFwStopped (s : State) (h : Nat) (b : Bool) : State :=
  { s with irq := if h = 0 then { s.irq with stoppedW := b } else { s.irq with stoppedE := b } }

/-- Sets the 4-bit state of a Ranger core (Table 10-9); UP follows. -/
def State.setRcore (s : State) (k v : Nat) : State :=
  let w := s.fld F.RGR_STATUS_CORE (k / 4)
  let s := s.setFld F.RGR_STATUS_CORE (w - bitsAt w (4 * (k % 4)) 4 * 2 ^ (4 * (k % 4)) + v * 2 ^ (4 * (k % 4))) (k / 4)
  s.setFlag F.RGR_STATUS_UP ((List.range 4).any fun j => s.rcoreRuns (4 * (k / 4) + j)) (k / 4)

/-- The Ranger cores of a half. -/
def halfCores (h : Nat) : List Nat := [4 * h, 4 * h + 1, 4 * h + 2, 4 * h + 3]

/-- Running cores of a half go from one state to another. -/
def State.coresTo (s : State) (h a b : Nat) : State := (halfCores h).foldl (fun s k => if s.rcore k = a then s.setRcore k b else s) s

/-- The kernel stops the firmware clock of a half idle for 10 µs (R338). -/
def State.fwStop (s : State) (h idleNs : Nat) : State :=
  if s.fwStopped h || idleNs < 10000 then s else (s.coresTo h 0 1).setFwStopped h true

/-- Whether a latched edge restarts a half's clock: its source has a priority and is enabled for some target. -/
def State.wakeable (s : State) (h : Nat) : Bool :=
  (List.range 1023).any fun id => SMap.get 0 s.irq.latched (1024 * h + id) == 1 && s.fld F.INTC_PRIO (1024 * h + id) != 0
    && (List.range 4).any fun k => s.flag F.INTC_EN ((4 * h + k) * 1024 + id)

/-- The last watchdog restart of a core. -/
def State.setTick (s : State) (k : Nat) : State := { s with irq := { s.irq with ticks := SMap.put s.irq.ticks k s.now } }

/-- A latched edge restarts the clock; every latch passes to its pending bit and is cleared (R338). -/
def State.fwWake (s : State) (h : Nat) : State :=
  if !s.fwStopped h || !s.wakeable h then s
  else
    let ids := (s.irq.latched.filter fun e => e.1 / 1024 == h).map fun e => e.1 % 1024
    let s := s.setFwStopped h false
    let s := { s with irq := { s.irq with latched := SMap.dropRange s.irq.latched (1024 * h) 1024 } }
    let s := ids.foldl (fun s id => s.raiseHalf h id) s
    (halfCores h).foldl (fun s k => s.setTick k) ((s.coresTo h 1 0).count F.INTC_WAKECNT 1 h)

/-! Ranger cores (R322, R340 to R342). -/

/-- The kernel's tick restarts the watchdog of a running core, every 4 µs (R322). -/
def State.kernelTick (s : State) (k : Nat) : State :=
  if s.rcoreRuns k && !s.fwStopped (k / 4) && !s.paused && decide (SMap.get 0 s.irq.ticks k + 4000 ≤ s.now) then s.setTick k else s

/-- The controller completes every source a crashed target had claimed and sets each pending again (R339). -/
def State.repend (s : State) (k : Nat) : State :=
  let h := k / 4
  let ids := (s.irq.claimed.filter fun e => e.1 / 1024 == h && e.2 == k % 4 + 1).map fun e => e.1 % 1024
  ids.foldl (fun s id => (s.setClaimed h id 0).setFld F.INTC_PEND 1 (1024 * h + id)) s

/-- A Ranger core crashes (R340): causes 1 watchdog, 2 fatal trap, 3 uncorrectable SRAM, 4 crash code.  The third crash
within 1 s retires it (R342). -/
def State.crash (s : State) (k cause : Nat) : State :=
  if !s.rcoreRuns k then s
  else
    let h := k / 4
    let recent := (s.irq.crashes.filter fun e => decide (s.now < e.2 + 1000000000)) ++ [(k, s.now)]
    let third := decide (3 ≤ (recent.filter fun e => e.1 == k).length)
    let s := { s with irq := { s.irq with crashes := recent } }
    let s := s.setRcore k (if third then 4 else 2)
    let s := ((s.setFld F.RGR_LASTCRASH_CAUSE cause h).setFld F.RGR_LASTCRASH_FRAME s.frame.number h).setFld F.RGR_LASTCRASH_CORE k h
    let s := ((s.count F.RGR_CRASHCNT 1 h).unitError 5 h 0).repend k
    let s := (s.raiseBoth (irqRangerDown + k)).post 0x0021 [k, cause]
    if third then s.post 0x0023 [k] else s

/-- The watchdog of a core expires 16 µs after its last restart (R340); it stands still while the half's clock is stopped, and in the
pause of an activation (R478). -/
def State.watchdog (s : State) (k : Nat) : State :=
  if !s.fwStopped (k / 4) && !s.paused && decide (SMap.get 0 s.irq.ticks k + 16000 ≤ s.now) then s.crash k 1 else s

/-- The core that takes over for another (R341): the next running core of its complex in ascending cyclic order, otherwise
the lowest running core of the other complex. -/
def State.sibling (s : State) (k : Nat) : Option Nat :=
  match ([1, 2, 3].map fun i => 4 * (k / 4) + (k + i) % 4).find? s.rcoreRuns with
  | some j => some j
  | none => (halfCores (1 - k / 4)).find? s.rcoreRuns

/-- A sibling enables for itself the sources a core had enabled, and the core's submissions (R339, R341). -/
def State.takeSources (s : State) (k j : Nat) : State :=
  let ids := (List.range 1023).filter fun id => s.flag F.INTC_EN (k * 1024 + id) || id == irqSubmissions + k
  ids.foldl (fun s id => s.setFld F.INTC_EN 1 (j * 1024 + id)) s

/-- The sibling takes over the queues and sources of a core that is down (R341). -/
def State.takeover (s : State) (k : Nat) : State :=
  match s.sibling k with
  | none => s
  | some j =>
    if s.rcoreRuns k || s.rcore k = 5 then s
    else
      let s := s.setFld F.INTC_PEND 0 (1024 * (j / 4) + irqRangerDown + k)
      let qs := (List.range queueCount).filter fun q => s.owner q == some k
      let s := qs.foldl (fun s q => s.setOwner q (some j)) s
      let s := { s with irq := { s.irq with returning := s.irq.returning ++ qs.map fun q => (q, k) } }
      s.takeSources k j

/-- A reloaded core comes up (R342): a core that is DOWN, while a running complex leads. -/
def State.rangerUp (s : State) (k : Nat) : State :=
  let leader := s.holder != 0 && (halfCores (s.holder - 1)).any s.rcoreRuns
  if (s.rcore k = 2 || s.rcore k = 3) && leader then
    (((s.setRcore k 0).setTick k).count F.RGR_RELOADCNT 1 (k / 4)).post 0x0022 [k]
  else s

/-- At a boundary queues go back to the cores they were taken from, once those run (R342). -/
def State.queuesReturn (s : State) : State :=
  let due := s.irq.returning.filter fun e => s.rcoreRuns e.2
  let s := { s with irq := { s.irq with returning := s.irq.returning.filter fun e => !s.rcoreRuns e.2 } }
  due.foldl (fun s e => if s.flag F.RGR_QMAP_DATA_OWNED e.1 then s.setOwner e.1 (some e.2) else s) s

/-! Leadership (R343 to R348). -/

/-- HOLDER changes: the mirror GLB.LEADER and the halves' LEADER bits follow, and identity 7 is raised (R45, R344, R345). -/
def State.setHolder (s : State) (v : Nat) : State :=
  let s := (s.setFld F.RGR_LATCH_HOLDER v).setFlag F.GLB_LEADER_VALID (v != 0)
  let s := if v = 0 then s else s.setFld F.GLB_LEADER_HALF (v - 1)
  ((s.setFlag F.RGR_STATUS_LEADER (v == 1) 0).setFlag F.RGR_STATUS_LEADER (v == 2) 1).raiseBoth irqLeadership

/-- Whether a half has a running core. -/
def State.halfUp (s : State) (h : Nat) : Bool := (halfCores h).any s.rcoreRuns

/-- A complex claims leadership (R344): granted while no half holds it; the new leader rebuilds for 40 µs (R348). -/
def State.claimLead (s : State) (h : Nat) : State :=
  if s.holder ≠ 0 || !s.halfUp h then s
  else
    let e := (s.epoch + 1) % 2 ^ 32
    let s := ((s.setFld F.RGR_EPOCH e).setHolder (h + 1)).count F.RGR_CLAIMCNT 1 h
    let s := { s with irq := { s.irq with refreshed := some s.now, rebuilt := s.now + 40000, noLead := false } }
    (s.setBelief h (some e)).post 0x0020 [e, h + 1]

/-- The refresh timer in ns. -/
def State.latchAge (s : State) : Nat := match s.irq.refreshed with | some t => s.now - t | none => 0

/-- A half writes REFRESH with an epoch (R345): it restarts the timer only from the holder with the current epoch. -/
def State.refreshLead (s : State) (h epoch : Nat) : State :=
  if s.leads h && epoch = s.epoch && decide (s.latchAge < 50000) then { s with irq := { s.irq with refreshed := some s.now } } else s

/-- Whether the always-on island refreshes the latch for the holder: in the pause of an activation, for at most 2 ms (R478). -/
def State.islandRefreshes (s : State) : Bool :=
  s.paused && match s.sec.activation with
    | some a => (match a.began with | some t => decide (s.now ≤ t + 2000000) | none => false)
    | none => false

/-- The timer reaches 50 µs: the holder lapses (R345). -/
def State.lapse (s : State) : State :=
  if s.holder ≠ 0 && decide (50000 ≤ s.latchAge) && !s.islandRefreshes then s.setHolder 0 else s

/-- The commit requests of a boundary (R323, R347, R348): whether one is accepted.  A half that still believes it leads has its
request refused and counted; a boundary without a holder is counted, and NO_LEADER posted once per interval. -/
def State.commitRequest (s : State) : Bool × State :=
  let s := [0, 1].foldl (fun (s : State) h =>
      match s.belief h with
      | some e => if s.halfUp h && !(s.leads h && e == s.epoch) then s.count F.RGR_STALECMTCNT 1 h else s
      | none => s) s
  if s.holder = 0 then
    let s := [0, 1].foldl (fun (s : State) h => s.count F.RGR_NOLEADCNT 1 h) s
    let s := if s.irq.noLead then s else s.post 0x0024 [s.frame.number]
    (false, { s with irq := { s.irq with noLead := true } })
  else (decide (s.irq.rebuilt ≤ s.now) && s.halfUp (s.holder - 1) && !s.paused, s)

/-! Whether units exist. -/

/-- Halves are 0 and 1. -/
def halfCount : Nat := 2
/-- Ranger cores are 0 to 7. -/
def rangerCount : Nat := 8

/-! The commands' meanings. -/

/-- INTERRUPT_EDGE (R334). -/
def execInterruptEdge (half id : Nat) (s : State) : Host.Outcome State Fault Refusal :=
  within (half < halfCount && id < 1024) (s.edge half id)
/-- INTC_CLAIM (R336). -/
def execIntcClaim (half target : Nat) (s : State) : Host.Outcome State Fault Refusal :=
  within (half < halfCount && target < 4) (s.intcClaim half target)
/-- INTC_COMPLETE (R336). -/
def execIntcComplete (half target id : Nat) (s : State) : Host.Outcome State Fault Refusal :=
  within (half < halfCount && target < 4) (s.intcComplete half target (id % 1024))
/-- FWCLK_STOP (R338). -/
def execFwclkStop (half idleNs : Nat) (s : State) : Host.Outcome State Fault Refusal := within (half < halfCount) (s.fwStop half idleNs)
/-- FWCLK_WAKE (R338). -/
def execFwclkWake (half : Nat) (s : State) : Host.Outcome State Fault Refusal := within (half < halfCount) (s.fwWake half)
/-- KERNEL_TICK (R322). -/
def execKernelTick (rcore : Nat) (s : State) : Host.Outcome State Fault Refusal := within (rcore < rangerCount) (s.kernelTick rcore)
/-- WATCHDOG_EXPIRY (R340). -/
def execWatchdogExpiry (rcore : Nat) (s : State) : Host.Outcome State Fault Refusal := within (rcore < rangerCount) (s.watchdog rcore)
/-- RANGER_DOWN (R340): causes 2 to 4 of LASTCRASH. -/
def execRangerDown (rcore cause : Nat) (s : State) : Host.Outcome State Fault Refusal :=
  within (rcore < rangerCount && 2 ≤ cause && cause ≤ 4) (s.crash rcore cause)
/-- RANGER_TAKEOVER (R341). -/
def execRangerTakeover (rcore : Nat) (s : State) : Host.Outcome State Fault Refusal := within (rcore < rangerCount) (s.takeover rcore)
/-- RANGER_UP (R342). -/
def execRangerUp (rcore : Nat) (s : State) : Host.Outcome State Fault Refusal := within (rcore < rangerCount) (s.rangerUp rcore)
/-- LEADERSHIP_CLAIM (R344). -/
def execLeadershipClaim (half : Nat) (s : State) : Host.Outcome State Fault Refusal := within (half < halfCount) (s.claimLead half)
/-- LEADERSHIP_REFRESH (R345). -/
def execLeadershipRefresh (half epoch : Nat) (s : State) : Host.Outcome State Fault Refusal :=
  within (half < halfCount) (s.refreshLead half epoch)
/-- LEADERSHIP_LAPSE (R345). -/
def execLeadershipLapse (s : State) : Host.Outcome State Fault Refusal := .next s.lapse

end Sys2Proof.Machine
end

