-- ==== Sys2Proof/Machine/Metrology.lean ====
section
/-!
DEFINITION. Metrology, the die temperature and the trims (13_calibration_and_thermal R413 to R436) but for the thermal trip.
-/

namespace Sys2Proof.Machine

/-- Updates the metrology record. -/
def State.onMet (s : State) (f : MetSt → MetSt) : State := { s with met := f s.met }

/-- This part reports itself to its rack manager: 1 to be withdrawn, 2 may be admitted; the manager acts on itself. -/
def State.reportSelf (s : State) (self : Nat) : State :=
  if s.rackMgr = s.partNum then s.setWithdrawn s.partNum (self != 2) else s.reportMgr 0 0xFFFF self

/-! Conversions (R416 to R420). -/

/-- The integration time in ns of a notch, times an order, rounded up (Table 13-3). -/
def settleNs (notch order : Nat) : Nat :=
  let n := order + 1
  if notch = 0 then 20000000 * n else if notch = 1 then ceilDiv (1000000000 * n) 60 else 100000000 * n

/-- The wake delay in ns (R417). -/
def wakeNs : Nat := 400000

/-- The channel that a CH field converts: 13 to 15 only while a function holds the maker role, otherwise 3 (Table 13-8; log
entry 47). -/
def State.convChannel (s : State) (ch : Nat) : Nat :=
  if 13 ≤ ch && !((List.range 17).any fun f => s.roleOf f == roleMkr) then 3 else ch

/-- STATE of the converter: 0 OFF, 1 WAKING, 2 CONVERTING. -/
def State.convState (s : State) : Nat := s.fld F.MET_STATUS_STATE

/-- A conversion begins from OFF, in WAKING, or straight after another, in CONVERTING. -/
def State.convBegin (s : State) (st ch order notch : Nat) (urgent : Bool) : State :=
  let s := s.onMet fun m => { m with since := s.now, ch := ch, order := order, notch := notch, urgent := urgent }
  ((s.setFld F.MET_STATUS_STATE st).setFld F.MET_STATUS_CH ch).setFlag F.MET_STATUS_URGENT_PEND s.met.held.isSome

/-- An urgent request (R419): at once from OFF, held behind a running conversion, refused while one is held. -/
def State.convUrgent (s : State) (ch order notch : Nat) : State :=
  if s.convState = 0 then s.convBegin 1 ch order notch true
  else if s.met.held.isSome then s.count F.MET_BUSYCNT
  else (s.onMet fun m => { m with held := some (ch, order, notch) }).setFld F.MET_STATUS_URGENT_PEND 1

/-- A START (R418): from OFF alone. -/
def State.convStart (s : State) (ch order notch : Nat) : State :=
  if s.convState = 0 then s.convBegin 1 ch order notch false else s.count F.MET_BUSYCNT

/-- Firmware writes MET.CONV with START or URGENT: the fields are stored, then URGENT acts, alone where both are written. -/
def State.convWrite (s : State) (value : Nat) : State :=
  let ch := bitsAt value 0 4
  let order := bitsAt value 8 2
  let notch := min 2 (bitsAt value 12 2)
  let s := ((s.setFld F.MET_CONV_CH ch).setFld F.MET_CONV_ORDER order).setFld F.MET_CONV_NOTCH notch
  if value.testBit 30 then s.convUrgent (s.convChannel ch) order notch
  else if value.testBit 31 then s.convStart (s.convChannel ch) order notch
  else s

/-- CONVERTER_WAKE: the wake delay is over. -/
def State.convWake (s : State) : State :=
  if s.convState = 1 && decide (s.met.since + wakeNs ≤ s.now) then
    (s.onMet fun m => { m with since := s.now }).setFld F.MET_STATUS_STATE 2
  else s

/-- The routine channels that alternate with channel 0 (Table 13-2). -/
def routineChannels : List Nat := [1, 2, 3, 5, 6, 7, 8, 9, 10, 11, 12]

/-- The channel at a place of the routine sequence of 22 conversions. -/
def routineChannel (pos : Nat) : Nat := if pos % 2 = 0 then 0 else routineChannels.getD (pos / 2 % 11) 0

/-- ROUTINE_CONVERSION: the leader starts the next channel of the sequence while the converter is OFF. -/
def State.convRoutine (s : State) : State :=
  if s.holder = 0 || s.convState ≠ 0 then s
  else
    let s := s.convBegin 1 (routineChannel s.met.pos) (s.fld F.MET_CALCFG_ORDER) (s.fld F.MET_CALCFG_MAINS) false
    s.onMet fun m => { m with pos := (m.pos + 1) % 22 }

/-- The age in ns beyond which a channel's held value is STALE (R421). -/
def State.staleNs (s : State) (ch : Nat) : Nat :=
  let one := wakeNs + settleNs (s.fld F.MET_CALCFG_MAINS) (s.fld F.MET_CALCFG_ORDER)
  if ch = 0 then 3 * (2 * one) else if ch = 4 || 13 ≤ ch then 1000000000 else 3 * (22 * one)

/-! The die temperature (R422 to R424). -/

/-- A quotient that the rules do not say how to round: the floor or, where it is not exact, free between both. -/
def roundFree (rule : Nat) (n : Int) (d : Nat) : Int :=
  let q := n / (d : Int)
  if n % (d : Int) = 0 then q else q + ((Config.openValue rule n.toNat % 2 : Nat) : Int)

/-- The temperature in 1/64 °C of a channel-0 code (R422); 64·273.15 = 17,481.6. -/
def temp64 (d : Int) (uv coef : Nat) : Int :=
  if coef = 0 then 0 else roundFree 422 (640 * (d * uv * 1000) - 174816 * ((2 ^ 27 * coef : Nat) : Int)) (10 * (2 ^ 27 * coef))

/-- Whether a channel-1 code lies within 0.300 V to 0.900 V (R424): V = D·REFIN_UV·10^−6/2^23. -/
def vbeOk (d : Int) (uv : Nat) : Bool := decide (300000 * 2 ^ 23 ≤ d * uv) && decide (d * uv ≤ 900000 * 2 ^ 23)

/-- The temperature at which ε and the drift are judged: the reading, or 95 °C where it is stale or faulty (R423). -/
def State.tempUsed (s : State) : Int :=
  if s.flag F.THM_TEMP_FAULT || s.met.staleRun || !s.flag F.THM_TEMP_VALID then 95 * 64 else toSigned 16 (s.fld F.THM_TEMP)

/-- TST.EPS of an array (R81, R83). -/
def State.loadEps (s : State) (a : Nat) : State := s.setFld F.TST_EPS (epsilonFp (epsilonTemp s.tempUsed) (s.fld F.ARR_AGE_HOURS a)) a

/-- Firmware of each half that runs reloads ε of its arrays. -/
def State.reloadEps (s : State) : State :=
  [0, 1].foldl (fun (s : State) h =>
      if s.halfUp h then (List.range (arrCount / 2)).foldl (fun (s : State) i => s.loadEps (arrCount / 2 * h + i)) s else s) s

/-- The arrays that legs of the running itinerary use. -/
def State.usedArrays (s : State) : List Nat :=
  if s.frame.st ≠ .running then []
  else match s.frame.active with
    | some it => it.shares.flatMap fun h => match s.coreSite h.core with
      | some site => ((h.legs.flatMap fun l => l.ops.flatMap fun o => o.kind.arrays).eraseDups).map (16 * site + ·)
      | none => []
    | none => []

/-- The part may be admitted again only while neither OVER nor a LATE array in use keeps it out (log entry 48). -/
def State.reportClear (s : State) : State := if s.flag F.THM_TEMP_OVER || s.met.lateOut then s else s.reportSelf 2

/-- No array in use is LATE any more (R433). -/
def State.lateClear (s : State) : State :=
  if s.met.lateOut && !(s.usedArrays.any fun a => s.flag F.MET_CAL_DATA_LATE a) then (s.onMet fun m => { m with lateOut := false }).reportClear
  else s

/-- DUE and LATE of a calibrated array at a reading (R429); an array in use that becomes LATE is posted (R433). -/
def State.driftOf (s : State) (t : Int) (used : List Nat) (a : Nat) : State :=
  if !s.flag F.MET_CAL_DATA_VALID a then s
  else
    let d := (t - toSigned 16 (s.fld F.MET_CAL_DATA_TSET a)).natAbs
    let was := s.flag F.MET_CAL_DATA_LATE a
    let late := decide (640 < d)
    let s := (s.setFlag F.MET_CAL_DATA_DUE (decide (64 * s.fld F.MET_CALCFG_DRIFT ≤ d)) a).setFlag F.MET_CAL_DATA_LATE late a
    if late && !was && used.contains a then
      let s := ((s.count F.MET_TRIMLATECNT).raiseBoth 325).post 0x00C4 [a / 16, a % 16, s.fld F.MET_CAL_DATA_TSET a, ofSigned 16 t]
      if s.met.lateOut then s else (s.onMet fun m => { m with lateOut := true }).reportSelf 1
    else s

/-- Drift of every array after a reading. -/
def State.drifts (s : State) (t : Int) : State :=
  let used := s.usedArrays
  ((List.range arrCount).foldl (fun (s : State) a => s.driftOf t used a) s).lateClear

/-- A reading above 95 °C (1), a stale one (2) or a faulty one (3) sets OVER or keeps it (R423). -/
def State.tempOver (s : State) (why : Nat) : State :=
  let was := s.flag F.THM_TEMP_OVER
  let s := (s.setFld F.THM_TEMP_OVER 1).count F.THM_OVERCNT
  if was then s else ((s.alertRaise.raiseBoth 322).post 0x00C0 [s.fld F.THM_TEMP, why]).reportSelf 1

/-- The temperature has become stale (R424): once in a stale interval. -/
def State.tempStale (s : State) : State :=
  let s := s.setFlag F.THM_TEMP_STALE (s.flag F.MET_RES_STALE 0)
  if s.met.staleRun then s
  else (((s.onMet fun m => { m with staleRun := true }).count F.THM_STALECNT).tempOver 2).reloadEps

/-- A reading of channel 0 (R422 to R424, R429): `d` its code. -/
def State.tempReading (s : State) (d : Int) : State :=
  let uv := s.fld F.MET_REFIN_UV
  let t := temp64 d uv (s.fld F.THM_DIODE_COEF)
  let vbe := toSigned 24 (s.fld F.MET_RES_VALUE 1)
  let vbeBad := s.flag F.MET_RES_VALID 1 && !vbeOk vbe uv
  let bad := vbeBad || decide (t < -40 * 64) || decide (150 * 64 < t) || s.flag F.MET_RES_OVR 0
  let s := ((s.setFld F.THM_TEMP (ofSigned 16 t)).setFld F.THM_TEMP_SEQ (s.fld F.MET_RES_SEQ 0)).setFld F.THM_TEMP_STALE 0
  let s := (s.onMet fun m => { m with staleRun := false }).setFlag F.THM_TEMP_FAULT bad
  if bad then
    let s := ((s.count F.THM_FAULTCNT).raiseBoth 323).post 0x00C2 [s.fld F.MET_RES_VALUE 1, s.fld F.MET_RES_VALUE 0]
    (s.tempOver 3).reloadEps
  else
    let s := s.setFld F.THM_TEMP_VALID 1
    let s :=
      if 95 * 64 < t then s.tempOver 1
      else if t ≤ 90 * 64 && s.flag F.THM_TEMP_OVER then
        ((s.setFld F.THM_TEMP_OVER 0).post 0x00C1 [ofSigned 16 t]).reportClear
      else if s.flag F.THM_TEMP_OVER then s.count F.THM_OVERCNT
      else s
    s.reloadEps.drifts t

/-- REFIN_FAULT is set: posted, and the temperature is handled as stale (R415). -/
def State.refinSet (s : State) : State :=
  if s.flag F.MET_STATUS_REFIN_FAULT then s
  else (((s.setFld F.MET_STATUS_REFIN_FAULT 1).raiseBoth 324).post 0x00C3 [s.fld F.MET_STATUS_REFIN_OK, s.met.lastCh2]).tempStale

/-- REFIN_FAULT: the window comparator shows REFIN out of its band or back in it. -/
def State.refinWindow (s : State) (ok : Bool) : State :=
  let s := s.setFlag F.MET_STATUS_REFIN_OK ok
  if ok then s else s.refinSet

/-- A channel-2 code within 2^22 ± 839. -/
def ch2Ok (d : Int) : Bool := decide ((d - 4194304).natAbs ≤ 839)

/-- The result of a conversion into its channel's held value (R416, R421), unless REFIN_FAULT was set at its conversion. -/
def State.convResult (s : State) (d : Int) (ovr : Bool) : State :=
  let ch := s.met.ch
  if s.flag F.MET_STATUS_REFIN_FAULT then
    ((s.setFld F.MET_RES_VALID 0 ch).setFld F.MET_RES_STALE 1 ch).count F.MET_REFINERRCNT
  else
    let seq := s.fld F.MET_RES_SEQ ch + 1
    let s := ((s.setFld F.MET_RES_SEQ seq ch).setFlag F.MET_RES_OVR ovr ch).setFld F.MET_RES_STALE 0 ch
    let s := (s.setFld F.MET_RES_VALID 1 ch).setFld F.MET_RES_VALUE (ofSigned 24 d) ch
    let s := ((s.setFld F.MET_AGE_SEQ seq ch).setFld F.MET_AGE_NOTCH s.met.notch ch).setFld F.MET_AGE_ORDER s.met.order ch
    s.onMet fun m => { m with times := SMap.put m.times ch s.now }

/-- The end of a conversion whose filter has settled, with the code that the input would give were the range unbounded; then OFF,
or the held urgent request starts at once (R418, R419). -/
def State.convComplete (s : State) (code : Int) : State :=
  let m := s.met
  if s.convState ≠ 2 || decide (s.now < m.since + settleNs m.notch m.order) then s
  else
    let d := clampInt (-8388608) 8388607 code
    let fault := s.flag F.MET_STATUS_REFIN_FAULT
    let s := (s.convResult d (d != code)).raiseBoth 320
    let s := if m.urgent then (s.raiseBoth 321).count F.MET_URGCNT else s
    let s := if m.ch = 2 then s.onMet fun m => { m with lastCh2 := ofSigned 24 d } else s
    let s :=
      if m.ch ≠ 2 then s
      else if !ch2Ok d then s.refinSet
      else if s.flag F.MET_STATUS_REFIN_OK then s.setFld F.MET_STATUS_REFIN_FAULT 0
      else s
    let s := if m.ch = 0 then (if fault then s.tempStale else s.tempReading d) else s
    match m.held with
    | some (ch, order, notch) => (s.onMet fun m => { m with held := none }).convBegin 2 ch order notch true
    | none => ((s.setFld F.MET_STATUS_STATE 0).setFld F.MET_STATUS_CH 0).onMet fun m => { m with urgent := false }

/-- HELD_VALUE_STALE: a held value's age exceeds its limit. -/
def State.heldStale (s : State) (ch : Nat) : State :=
  match SMap.find? s.met.times ch with
  | some t =>
    if t + s.staleNs ch < s.now && !s.flag F.MET_RES_STALE ch then
      let s := s.setFld F.MET_RES_STALE 1 ch
      if ch = 0 then s.tempStale else s
    else s
  | none => s

/-- REFIN_WRITE (R414): judged and audited; a value outside the band is ignored, an accepted one goes to the vault. -/
def State.refinWrite (s : State) (path : Path) (value : Nat) : State :=
  let v := bitsAt value 0 22
  let r := s.ownWrite path roleIns true 0x5008
  if !r.1 || decide (v < 2450000) || decide (2550000 < v) then r.2
  else
    let s := ((r.2.setFld F.MET_REFIN_UV v).setVfld F.MET_REFIN_UV v).recordWrites
    let s := (List.range 16).foldl (fun (s : State) ch => s.staleHeld ch) s
    if s.flag F.MET_RES_STALE 0 then s.tempStale else s

/-! Trims (R428 to R433). -/

/-- The clock region of a site: W0 to W3, E0 to E3 (Table 1-1). -/
def regionOf (site : Nat) : Nat := 4 * siteHalf site + site % 20 / 5

/-- The calibration of an array failed: FAILED, a second failure in a row or a failed sweep check excludes the array and retires
its core (R431, R250). -/
def State.calFailed (s : State) (a : Nat) (sweepBad : Bool) : State :=
  let n := SMap.get 0 s.met.fails a + 1
  let s := (s.setFld F.MET_CAL_DATA_FAILED 1 a).onMet fun m => { m with fails := SMap.set 0 m.fails a n }
  if sweepBad || 2 ≤ n then
    let s := s.setRec a { s.rec_ a with state := .faulty, fault := 4 }
    (s.arrCommand a 10 0).retireCore (a / 16)
  else s

/-- REGION_TRIM_ADJUST: firmware brings a region reference to 1.200000 V; `code` is the code at which the reading lies within
±100 µV, none where no code does. -/
def State.regionTrim (s : State) (r : Nat) (code : Option Nat) : State :=
  let starting := s.fld F.PWR_BOOT_STAGE = 8 && !s.flag F.PWR_BOOT_READY
  if !starting && !s.writable F.MET_REGTRIM_CODE r then s.count F.MET_CALFAILCNT
  else match code with
    | some v => s.setFld F.MET_REGTRIM_CODE v r
    | none =>
      let s := ((s.count F.MET_CALFAILCNT).raiseBoth 326).post 0x00C5 [s.fld F.MET_TAP_SEL_SITE, 0xFF, r]
      ((List.range arrCount).filter fun a => regionOf (a / 16) == r).foldl (fun (s : State) a => s.calFailed a false) s

/-- What a sweep gives at converter and point: the sum of its 64 conversions, ideal where not given. -/
def sweepAt (m : List Nat) (i : Nat) : Int := ((m.getD i (768 * (i % 9)) : Nat) : Int)

/-- The sums of a sweep that the fitted line needs (R430): of the means, and of the means weighed by k − 4. -/
def sweepSums (m : List Nat) : Int × Int :=
  (List.range 2304).foldl (fun (t : Int × Int) i => let v := sweepAt m i; (t.1 + v, t.2 + (((i % 9 : Nat) : Int) - 4) * v)) (0, 0)

/-- The gain error g − 1 over 11,796,480: the slope of the straight line fitted to the mean codes, over 12. -/
def gainErr (m : List Nat) : Int := (sweepSums m).2 - 11796480

/-- The offset of that line at k = 0, over 737,280, in LSB. -/
def offErr (m : List Nat) : Int := 5 * (sweepSums m).1 - 3 * (sweepSums m).2

/-- Whether gain and offset lie within 0.003 and 0.25 LSB. -/
def sweepFits (m : List Nat) : Bool := decide (1000 * (gainErr m).natAbs ≤ 3 * 11796480) && decide (4 * (offErr m).natAbs ≤ 737280)

/-- The nearest integer to a quotient; a tie goes to either side. -/
def nearest (n : Int) (d : Nat) : Int :=
  let q := n / (d : Int)
  let r := n % (d : Int)
  if 2 * r < d then q else if (d : Int) < 2 * r then q + 1 else q + ((Config.openValue 430 n.toNat % 2 : Nat) : Int)

/-- A trim code after a correction; beyond the 10 bits of the converter the rules give no code. -/
def trimCode (old : Nat) (step : Int) : Nat :=
  let v : Int := (old : Int) - step
  if 0 ≤ v && decide (v ≤ 1023) then v.toNat else Config.openValue 427 (ofSigned 32 v) % 1024

/-- One pass of the procedure: RWL from the gain, BOT from the offset of a sweep. -/
def State.calPass (s : State) (a : Nat) (t : Int) (m : List Nat) : State :=
  let rwl := trimCode (s.fld F.ARR_TRIM_READ_RWL a) (nearest (gainErr m * Config.codesPerGain a t) (11796480 * 65536))
  let bot := trimCode (s.fld F.ARR_TRIM_REF_BOT a) (nearest (offErr m * Config.codesPerLsb a) (737280 * 65536))
  (s.setFld F.ARR_TRIM_READ_RWL rwl a).setFld F.ARR_TRIM_REF_BOT bot a

/-- One reference sweep of the array, which is in MAINT. -/
def State.calSweep (s : State) (a : Nat) (m : List Nat) : State :=
  let s := s.arrCommand a 8 0
  match (s.arr a).cmd with
  | some c => s.arrCommandEnd a c [] [] m
  | none => s

/-- A calibration succeeds: T_SET, no failure any more, ε. -/
def State.calStamp (s : State) (a : Nat) (t : Int) : State :=
  let s := ((s.setFld F.MET_CAL_DATA_TSET (ofSigned 16 t) a).setFld F.MET_CAL_DATA_VALID 1 a).setFld F.MET_CAL_DATA_FAILED 0 a
  let s := ((s.setFld F.MET_CAL_DATA_DUE 0 a).setFld F.MET_CAL_DATA_LATE 0 a).onMet fun m => { m with fails := SMap.set 0 m.fails a 0 }
  s.loadEps a

/-- The two passes of R430 on an array in MAINT, from its sweep `m0`, with the sweeps after each pass: whether one succeeded,
whether the last sweep failed; the trims are those before where none did. -/
def State.calPasses (s : State) (a : Nat) (t : Int) (m0 m1 m2 : List Nat) : State × Bool × Bool :=
  let rwl := s.fld F.ARR_TRIM_READ_RWL a
  let bot := s.fld F.ARR_TRIM_REF_BOT a
  let s := (((s.calSweep a m0).calPass a t m0).calSweep a m1)
  if !sweepFails m1 && sweepFits m1 then (s.calStamp a t, true, false)
  else
    let s := (s.calPass a t m1).calSweep a m2
    if !sweepFails m2 && sweepFits m2 then (s.calStamp a t, true, false)
    else ((s.setFld F.ARR_TRIM_READ_RWL rwl a).setFld F.ARR_TRIM_REF_BOT bot a, false, sweepFails m2)

/-- A calibration failed: counted and posted (R431). -/
def State.calPost (s : State) (a : Nat) : State :=
  ((s.count F.MET_CALFAILCNT).raiseBoth 326).post 0x00C5 [a / 16, a % 16, regionOf (a / 16)]

/-- The procedure of R430 on an array in SERVE or MAINT. -/
def State.calibrate (s : State) (a : Nat) (t : Int) (m0 m1 m2 : List Nat) : State :=
  let r := (s.arrCommand a 1 0).calPasses a t m0 m1 m2
  let s := r.1.arrCommand a 2 0
  if r.2.1 then s.lateClear else s.calPost a |>.calFailed a r.2.2

/-- Whether a rest-stop place that names the array is open and leaves `ns` (R171): a place without an end leaves any time. -/
def State.restOpen (s : State) (a ns : Nat) : Bool :=
  let f := s.fld F.GLB_CORE_FREQ_MHZ
  match s.frame.active, s.siteCore (a / 16) with
  | some it, some core =>
    s.frame.st == .running && it.rests.any fun r =>
      r.core == core && r.arrays.testBit (a % 16) && match r.len with
        | none => true
        | some n => decide (r.start ≤ s.frameCyc) && decide (1000 * s.frameCyc + ns * f ≤ 1000 * (r.start + n))
  | _, _ => false

/-- CALIBRATE_ARRAY: in a place of at least 24 µs, while REFIN and the temperature are good. -/
def State.calibrateArray (s : State) (a : Nat) (m0 m1 m2 : List Nat) : State :=
  if s.flag F.MET_STATUS_REFIN_FAULT || !s.flag F.THM_TEMP_VALID || s.flag F.THM_TEMP_FAULT || s.met.staleRun || !s.restOpen a 24000
    || s.mode a ≠ modeServe || (s.cmdRefusal a 1).isSome || (s.arr a).prod.isSome then s
  else s.calibrate a (toSigned 16 (s.fld F.THM_TEMP)) m0 m1 m2

/-! The commands' meanings. -/

/-- CONVERSION_START (R418): firmware's write of MET.CONV. -/
def execConversionStart (value : Nat) (s : State) : Host.Outcome State Fault Refusal := .next (s.convWrite value)
/-- URGENT_CONVERSION (R419): firmware's write of MET.CONV. -/
def execUrgentConversion (value : Nat) (s : State) : Host.Outcome State Fault Refusal := .next (s.convWrite value)
/-- CONVERTER_WAKE (R417). -/
def execConverterWake (s : State) : Host.Outcome State Fault Refusal := .next s.convWake
/-- ROUTINE_CONVERSION (R420). -/
def execRoutineConversion (s : State) : Host.Outcome State Fault Refusal := .next s.convRoutine
/-- CONVERSION_COMPLETE (R418). -/
def execConversionComplete (code : Int) (s : State) : Host.Outcome State Fault Refusal := .next (s.convComplete code)
/-- REFIN_FAULT (R415): the window comparator; a channel-2 result acts in CONVERSION_COMPLETE. -/
def execRefinFault (ok : Bool) (s : State) : Host.Outcome State Fault Refusal := .next (s.refinWindow ok)
/-- HELD_VALUE_STALE (R421). -/
def execHeldValueStale (ch : Nat) (s : State) : Host.Outcome State Fault Refusal := within (ch < 16) (s.heldStale ch)
/-- REFIN_WRITE (R414). -/
def execRefinWrite (path : Path) (value : Nat) (s : State) : Host.Outcome State Fault Refusal := within path.ok (s.refinWrite path value)
/-- REGION_TRIM_ADJUST (R428). -/
def execRegionTrimAdjust (region : Nat) (code : Option Nat) (s : State) : Host.Outcome State Fault Refusal :=
  within (region < 8) (s.regionTrim region code)
/-- CALIBRATE_ARRAY (R430). -/
def execCalibrateArray (arr : Nat) (m0 m1 m2 : List Nat) (s : State) : Host.Outcome State Fault Refusal :=
  within (arr < arrCount) (s.calibrateArray arr m0 m1 m2)

end Sys2Proof.Machine
end

