-- ==== Sys2Proof/Machine/HostLink.lean ====
section
/-!
DEFINITION. The host link: retrains, resets of functions and of the port, prompt reads and inbox deliveries
(09_host_interface R295, R307, R308, R316 to R318; 14_power_clocks_startup R459).
-/

namespace Sys2Proof.Machine

/-- Updates the host interface's record. -/
def State.onHost (s : State) (f : HostSt → HostSt) : State := { s with host := f s.host }

/-! Resets of functions (R317, R318). -/

/-- A request loses its queue: it ends at the next boundary, its partner's part with CANCELLED. -/
def State.reqReset (s : State) (p tag : Nat) : State :=
  match (s.srv p).req tag with
  | none => s
  | some r =>
    let s := s.onSrv p fun x => x.onReq tag fun r => { r with ending := some 0x04 }
    if r.sub.entry && r.sub.exit then s else s.sendMsg r.sub.partner 0x0103 [p, tag]

/-- Steps 1 to 6 of R317 on one function; `cause` as R488 numbers the ends of a role. -/
def State.fnReset (s : State) (fn cause : Nat) : State :=
  let qs := (List.range queueCount).filter fun q => s.qFn q == fn && s.qState q != qDisabled
  let s := qs.foldl (fun (s : State) q => ((s.queueReqs q).foldl (fun (s : State) r => s.reqReset r.1 r.2) s).queueOff q) s
  let s := s.endRole fn cause
  let w := s.win fn
  let s := s.setWin fn { WinSt.init with ready := w.ready, busy := w.busy, discard := w.busy }
  let s := s.onHost fun h => { h with
    unmasked := SMap.dropRange h.unmasked (2048 * fn) 2048, msiPending := SMap.dropRange h.msiPending (2048 * fn) 2048 }
  let s := (s.setFld F.HIF_FN_STATE_BME 0 fn).setFld F.HIF_FN_STATE_D3 0 fn
  let mine := s.sec.session.any (fun x => x.fn == fn) || s.sec.activation.any fun a => a.cmd.fn == fn
  if mine then s.sessionAbort else s

/-- VF Enable is cleared: every virtual function is reset. -/
def State.vfOff (s : State) (cause : Nat) : State :=
  if !s.host.vfEnable then s
  else ((List.range 16).foldl (fun (s : State) i => s.fnReset (i + 1) cause) s).onHost fun h => { h with vfEnable := false }

/-- A Function Level Reset: that of the physical function resets the SR-IOV capability with VF Enable (log entry 49). -/
def State.flr (s : State) (fn : Nat) : State :=
  let s := (s.count F.HIF_FLRCNT).fnReset fn 1
  if fn = 0 then s.vfOff 1 else s

/-- The link goes down: every function is reset; the physical function's table size takes its new value (R310, R318). -/
def State.linkDown (s : State) : State :=
  let s := ((s.count F.HIF_FLRCNT).vfOff 2).fnReset 0 2
  let s := s.onHost fun h => { h with vectors := SMap.put h.vectors 0 (s.fld F.HIF_FN_VEC_VECTORS 0), retraining := false }
  (((s.setFld F.HIF_LINK_UP 0).setFld F.HIF_LINK_FLIT 0).setFld F.HIF_LINK_WIDTH 0).setFld F.HIF_LINK_SPEED 0

/-- The unmasked messages of a function that waited go out, once it may send (R318). -/
def State.msiRelease (s : State) (fn : Nat) : State :=
  if !s.busMaster fn then s
  else
    let due := (s.host.msiPending.filter fun e => e.2 == 1 && e.1 / 2048 == fn && SMap.get 0 s.host.unmasked e.1 == 1).map (·.1)
    due.foldl (fun (s : State) k => (s.onHost fun h => { h with msiPending := SMap.set 0 h.msiPending k 0 }).msi fn (k % 2048)) s

/-- LINK_RETRAIN: a retrain begins, or the link comes up at a rate, a width and a mode (R295), and what waited goes out. -/
def State.linkRetrain (s : State) (up : Option (Nat × Nat × Bool)) : State :=
  match up with
  | none => (s.count F.HIF_RETRAINCNT).onHost fun h => { h with retraining := true }
  | some (speed, width, flit) =>
    if s.host.perst || !s.flag F.CLK_STATUS_PCIEREF_OK || speed = 0 || decide (s.fld F.HIF_LINK_CTL_MAX_SPEED < speed)
      || !([1, 2, 4, 8, 16].contains width) || (speed = 6 && !flit) then s
    else
      let s := (s.onHost fun h => { h with retraining := false }).setFld F.HIF_LINK_UP 1
      let s := ((s.setFld F.HIF_LINK_SPEED speed).setFld F.HIF_LINK_WIDTH width).setFlag F.HIF_LINK_FLIT flit
      (List.range 17).foldl (fun (s : State) fn => s.msiRelease fn) s

/-- HOST_LINK_FATAL_ERROR: counted, then the link is reset (Table 9-12). -/
def State.linkFatal (s : State) : State := (s.count F.HIF_UNCORRCNT).linkDown

/-- BUS_MASTER_ENABLE_CHANGE: the function's bits; messages that waited go out once it may send (R318). -/
def State.bmeChange (s : State) (fn : Nat) (bme d3 : Bool) : State :=
  ((s.setFlag F.HIF_FN_STATE_BME bme fn).setFlag F.HIF_FN_STATE_D3 d3 fn).msiRelease fn

/-- PERST_N: low resets the host port alone. -/
def State.perstPin (s : State) (low : Bool) : State :=
  if low && !s.host.perst then (s.onHost fun h => { h with perst := true }).linkDown else s.onHost fun h => { h with perst := low }

/-- VF_ENABLE: setting brings the virtual functions' table sizes into force (R310), clearing resets them. -/
def State.vfSet (s : State) (on : Bool) : State :=
  if !on then s.vfOff 1
  else if s.host.vfEnable then s
  else
    let sizes := (List.range 16).map fun i => (i + 1, s.fld F.HIF_FN_VEC_VECTORS (i + 1))
    s.onHost fun h => { h with vfEnable := true, vectors := sizes.foldl (fun m e => SMap.put m e.1 e.2) h.vectors }

/-! Prompt tokens (R307, R308). -/

/-- PROMPT_FETCH: the tokens of a binding of the next frame reach the staging buffer. -/
def State.promptFetch (s : State) (p slot : Nat) (tokens : List Nat) : State :=
  let x := s.srv p
  match x.nextFrame, x.next.find? fun b => b.slot == slot with
  | some frame, some b =>
    match x.req b.tag with
    | some r =>
      if !b.fromPrompt r || r.gaveUp || tokens.length ≠ b.tokens || !s.busMaster (s.qFn r.queue) || !s.isEntry p
        || s.host.staged.any (fun t => t.pitch == p && t.slot == slot && t.frame == frame) then s
      else s.onHost fun h => { h with staged := h.staged ++ [⟨p, slot, frame, tokens⟩] }
    | none => s
  | _, _ => s

/-- HOST_INBOX_DELIVERY: within its window the engine writes a record's run to the core and increments the counter; slots whose
tokens are late get COUNT 0 and are reported to be withheld (R308). -/
def State.inboxDelivery (s : State) (rec : Nat) : State :=
  match s.frame.active with
  | none => s
  | some it =>
    match it.ports[rec]? with
    | none => s
    | some r =>
      if s.frame.st ≠ .running || r.port ≠ 32 || s.frameCyc < r.earliest || r.latest < s.frameCyc || SMap.get 0 s.fab.arrived rec ≠ 0 then s
      else
        let late := ((it.inboxRun r.part r.bytes).filter fun q => (s.inboxOf q).isNone).map (·.slot)
        let bytes := s.hostBytes it r
        let s := (s.count F.HIF_FETCHLATECNT late.length).withholdNotice s.frame.number 4 late
        let s := { s with fab := { s.fab with arrived := SMap.set 0 s.fab.arrived rec r.bytes } }
        match s.liveSite r.core with
        | none => s
        | some site =>
          let s := s.deliver site r.addr bytes false
          if r.ctr = 0xFF then s.restart site else (s.ctrInc site r.ctr 1).restart site

/-! The commands' meanings. -/

/-- LINK_RETRAIN (R295). -/
def execLinkRetrain (up : Option (Nat × Nat × Bool)) (s : State) : Host.Outcome State Fault Refusal := .next (s.linkRetrain up)
/-- HOST_INBOX_DELIVERY (R307). -/
def execHostInboxDelivery (rec : Nat) (s : State) : Host.Outcome State Fault Refusal := .next (s.inboxDelivery rec)
/-- PROMPT_FETCH (R308). -/
def execPromptFetch (pitch slot : Nat) (tokens : List Nat) (s : State) : Host.Outcome State Fault Refusal :=
  within (pitch < 16) (s.promptFetch pitch slot tokens)
/-- HOST_LINK_FATAL_ERROR (R316). -/
def execHostLinkFatalError (s : State) : Host.Outcome State Fault Refusal := .next s.linkFatal
/-- FUNCTION_LEVEL_RESET (R317). -/
def execFunctionLevelReset (fn : Nat) (s : State) : Host.Outcome State Fault Refusal := within (fn ≤ 16) (s.flr fn)
/-- HOT_RESET (R318). -/
def execHotReset (s : State) : Host.Outcome State Fault Refusal := .next s.linkDown
/-- BUS_MASTER_ENABLE_CHANGE (R318). -/
def execBusMasterEnableChange (fn : Nat) (bme d3 : Bool) (s : State) : Host.Outcome State Fault Refusal := within (fn ≤ 16) (s.bmeChange fn bme d3)
/-- PERST_N (R459). -/
def execPerstN (low : Bool) (s : State) : Host.Outcome State Fault Refusal := .next (s.perstPin low)
/-- VF_ENABLE (R317, R310). -/
def execVfEnable (on : Bool) (s : State) : Host.Outcome State Fault Refusal := .next (s.vfSet on)

end Sys2Proof.Machine
end

