-- ==== Sys2Proof/Machine/Reset.lean ====
section
/-!
DEFINITION. What a reset and a loss of power leave (05_itineraries_and_frames R189; 14_power_clocks_startup R458 to R460;
16_register_map R504), and the arrays whose command they cut short (03_cim_arrays R117).
-/

namespace Sys2Proof.Machine

/-- Updates the record of power and starts. -/
def State.onPwr (s : State) (f : PwrSt → PwrSt) : State := { s with pwr := f s.pwr }

/-! Arrays whose command is cut short (Table 3-11). -/

/-- A free cell code between two limits. -/
def freeCode (k lo hi : Nat) : Nat := lo + Config.openValue 117 k % (hi - lo + 1)

/-- ERASE: cells strewn between their levels and 0. -/
def ArrSt.cutErase (x : ArrSt) (t : Nat) : ArrSt :=
  { x with cells := x.cells.filterMap fun e =>
      let v := freeCode (t + e.1) 0 e.2
      if v = 0 then none else some (e.1, v) }

/-- Free codes that the pulses of a row leave: within the windows of a complete row, below them in the row cut short. -/
def cutRow (t row : Nat) (bs : Bytes) (whole : Bool) : List (Nat × Nat) :=
  let ws := nibbles bs
  (List.range 1024).map fun col =>
    let u := (ws.getD (col / 2) 0 + 8) % 16
    let l := if col % 2 = 0 then u / 4 else u % 4
    let key := 1024 * row + col
    (key, freeCode (t + key) (if whole then windowLo l else 0) (windowHi l))

/-- PROGRAM_ROWS: rows before the interrupted one complete, that row partly pulsed, later rows untouched. -/
def ArrSt.cutProgram (x : ArrSt) (t : Nat) (c : ArrCmd) : ArrSt :=
  let done := Config.openValue 117 t % (c.count + 1)
  (List.range (min (done + 1) c.count)).foldl (fun (x : ArrSt) i =>
      let bs := slice c.data (256 * i) 256
      (x.programRow (c.row + i) bs (cutRow t (c.row + i) bs (decide (i < done)))).1) x

/-- REFRESH_ROWS: cells at or above their drifted level and within their window or below it. -/
def ArrSt.cutRefresh (x : ArrSt) (t : Nat) (c : ArrCmd) : ArrSt :=
  (List.range c.count).foldl (fun (x : ArrSt) i =>
      (List.range 1024).foldl (fun (x : ArrSt) col =>
          let v := x.code (c.row + i) col
          match refreshTarget v with
          | some l => if l = 0 then x else x.setCode (c.row + i) col (freeCode (t + 1024 * i + col) v (max v (windowHi l)))
          | none => x) x) x

/-- An array after a reset at free draw `t`: its cells, side store and retirement remain, its command is cut short, its buffers and
results are gone. -/
def ArrSt.afterReset (x : ArrSt) (t : Nat) : ArrSt :=
  let y := match x.cmd with
    | some c => if c.op = 3 then x.cutErase t else if c.op = 4 then x.cutProgram t c else if c.op = 5 then x.cutRefresh t c else x
    | none => x
  { ArrSt.init with cells := y.cells, refs := y.refs, side0 := y.side0, side1 := y.side1, sideSel := y.sideSel, retired := y.retired }

/-! What remains. -/

/-- Fields of the always-on island, and of pins it watches (Table 16-4). -/
def aonFields : List Fld := [
  F.RGR_LATCH_HOLDER, F.RGR_EPOCH, F.GLB_LEADER_VALID, F.GLB_LEADER_HALF, F.THM_TRIP_BLANK, F.THM_TRIP_OPEN, F.THM_TRIP_LOW,
  F.THM_TRIP_TRIPPED, F.PWR_RESET_LASTCAUSE, F.CLK_REFLOSSCNT, F.PWR_STATUS_RAIL_FAULT, F.PWR_STATUS_WARN, F.CLK_STATUS_ETHREF_OK,
  F.CLK_STATUS_PCIEREF_OK, F.CLK_STATUS_REF_OK, F.GLB_STRAPS_MODE]

/-- Fields whose home is the vault: the boot ledger (R462). -/
def ledgerFields : List Fld := [F.PWR_BOOT_DATA_OUTCOME, F.PWR_BOOT_DATA_MODE, F.PWR_BOOT_DATA_DETAIL, F.PWR_BOOT_DATA_MS]

/-- Fields read from fuses (R504). -/
def fusedFields : List Fld := [
  F.GLB_ORDER_GRADE, F.GLB_SERIAL_A_CHAR0, F.GLB_SERIAL_A_CHAR1, F.GLB_SERIAL_A_CHAR2, F.GLB_SERIAL_A_CHAR3, F.GLB_SERIAL_B_CHAR0,
  F.GLB_SERIAL_B_CHAR1, F.GLB_SERIAL_B_CHAR2, F.GLB_SERIAL_B_CHAR3, F.GLB_SERIAL_C_CHAR0, F.GLB_SERIAL_C_CHAR1,
  F.GLB_SERIAL_C_CHAR2, F.GLB_SERIAL_C_CHAR3]

/-- The fields of a list, at every place. -/
def State.fieldsOf (s : State) (fs : List Fld) : SMap Nat :=
  let codes := fs.map (·.code)
  s.fields.filter fun e => codes.contains (e.1 % 1024)

/-- The security records that the vault keeps: keys, log, images, journal; sessions and what waited are gone. -/
def SecSt.kept (x : SecSt) : SecSt :=
  { SecSt.init with opKeys := x.opKeys, insKeys := x.insKeys, pubKeys := x.pubKeys, firstKeyUsed := x.firstKeyUsed, log := x.log,
                    nextSeq := x.nextSeq, images := x.images, formatHeld := x.formatHeld, converting := x.converting, journal := x.journal, gen := x.gen,
                    bytes := x.bytes, remaps := x.remaps }

/-- The weights' records that the vault keeps: array records, the ledger, the resident image with its leaf table. -/
def WgtSt.kept (w : WgtSt) : WgtSt := { WgtSt.init with recs := w.recs, ledger := w.ledger, resident := w.resident, leaves := w.leaves }

/-- All volatile state is gone (R189, R459); the fields of `keep` remain, with the vault, the arrays' cells, the model's clock and
the queue of commands. -/
def State.discard (s : State) (keep : List Fld) (pwr : PwrSt) : State :=
  { State.reset with
    fields := s.fieldsOf (keep ++ ledgerFields ++ fusedFields)
    vfields := s.vfields
    now := s.now
    cyc := s.cyc
    free := s.free + s.arrays.length
    arrays := (s.arrays.zipIdx.map fun e => (e.1.1, e.1.2.afterReset (2097152 * (s.free + e.2)))).filter fun e => decide (e.2 ≠ .init)
    sec := s.sec.kept
    hist := { HistSt.init with recs := s.hist.recs }
    wgt := s.wgt.kept
    host := { HostSt.init with perst := s.host.perst }
    irq := { IrqSt.init with refreshed := s.irq.refreshed }
    pwr := pwr
    smb := s.smb
    readout := s.readout
    pending := s.pending }

/-- What the vault keeps of starts. -/
def PwrSt.kept (p : PwrSt) : PwrSt := { PwrSt.init with begun := p.begun, alt := p.alt, altStacks := p.altStacks, clearAlt := p.clearAlt }

/-- What a system reset leaves of the record of power: the always-on island and what the vault keeps. -/
def PwrSt.afterReset (p : PwrSt) : PwrSt :=
  { p.kept with aon := p.aon, sysRst := p.sysRst, refLost := p.refLost, tripPin := p.tripPin, blankFrom := p.blankFrom, want := p.want, offHeld := p.offHeld,
                seq := p.seq, seqAt := p.seqAt, seqOk := p.seqOk, en := p.en, tbRun := p.tbRun, tb := p.tb }

/-- A system reset (Table 14-4) with its cause (R460): everything but the always-on island. -/
def State.systemReset (s : State) (cause : Nat) : State :=
  (s.discard aonFields s.pwr.afterReset).setFld F.PWR_RESET_LASTCAUSE cause

/-- VDD_AON is lost, or comes up: every domain resets (Table 14-4). -/
def State.powerReset (s : State) (aon : Bool) : State :=
  let t := s.discard [] { s.pwr.kept with aon := aon, blankFrom := s.now }
  { t with irq := .init, smb := .init }

end Sys2Proof.Machine
end

