-- ==== Sys2Proof/Machine/Power.lean ====
section
/-!
DEFINITION. Rails, clocks, power limits, power states and the thermal trip (14_power_clocks_startup R437 to R461;
13_calibration_and_thermal R425, R426).
-/

namespace Sys2Proof.Machine

/-! The core clock (R32, R443 to R449, R455). -/

/-- All eight region PLLs locked. -/
def allLocked : Nat := 255

/-- The frequency without a stretch: the lower of the clamp's and that of R444. -/
def State.baseMhz (s : State) : Nat := min s.pwr.lowMhz (s.pwr.clampMhz.getD 1600)

/-- The core clock in MHz: 0 while a region PLL is unlocked, two thirds in a droop stretch. -/
def State.clockMhz (s : State) : Nat :=
  if s.fld F.GLB_CLKSTAT_PLL_LOCK ≠ allLocked then 0 else if s.pwr.stretch then s.baseMhz * 2 / 3 else s.baseMhz

/-- The clock takes its present frequency in all regions (R32); STRETCH shows a stretch or a clamp. -/
def State.setClock (s : State) : State :=
  (s.setFld F.GLB_CORE_FREQ_MHZ s.clockMhz).setFlag F.GLB_CLKSTAT_STRETCH (s.pwr.stretch || s.pwr.clampMhz.isSome)

/-- DROOP_STRETCH: VDD_CORE crosses 40 mV below its set-point. -/
def State.droopStretch (s : State) : State :=
  if s.pwr.stretch then s else ((s.onPwr fun p => { p with stretch := true }).count F.PWR_DROOPCNT).setClock

/-- DROOP_END. -/
def State.droopEnd (s : State) : State := (s.onPwr fun p => { p with stretch := false }).setClock

/-- PLL_UNLOCK of the regions in a bitmap: all core clocks stop. -/
def State.pllUnlock (s : State) (regions : Nat) : State :=
  let old := s.fld F.GLB_CLKSTAT_PLL_LOCK
  let lost := (List.range 8).filter fun i => regions.testBit i && old.testBit i
  if lost.isEmpty then s
  else
    let s := s.setFld F.GLB_CLKSTAT_PLL_LOCK (lost.foldl (fun n i => n - 2 ^ i) old)
    (((s.count F.CLK_UNLOCKCNT lost.length).raiseBoth 333).post 0x00E4 [lost.foldl (fun n i => n + 2 ^ i) 0]).setClock

/-- PLL_RELOCK: every region PLL has relocked. -/
def State.pllRelock (s : State) : State :=
  if s.isOff || s.fld F.GLB_CLKSTAT_PLL_LOCK = allLocked then s else (s.setFld F.GLB_CLKSTAT_PLL_LOCK allLocked).setClock

/-! Rails (R437 to R440). -/

/-- The order in which a start raises the rails. -/
def raiseOrder : List Nat := [0, 1, 2, 4, 5, 6]
/-- The order in which they are lowered. -/
def lowerOrder : List Nat := [6, 5, 4, 3, 2, 1, 0]

/-- The rail after one in an order. -/
def railAfter (l : List Nat) (i : Nat) : Option Nat := ((l.dropWhile (· != i)).drop 1).head?

/-- The set-point of a rail in mV. -/
def State.railSet (s : State) (i : Nat) : Nat := s.fld F.PWR_RAIL_DATA_CMD_MV i

/-- Whether a reading lies within a rail's tolerance (Table 14-1). -/
def State.railIn (s : State) (i mv : Nat) : Bool :=
  let set := s.railSet i
  if i ≤ 1 then decide (set ≤ mv + 10)
  else
    let d := if mv < set then set - mv else mv - set
    decide (100 * d ≤ (if i = 2 || i = 4 then 2 else 3) * set)

/-- The sequencer asserts a rail's enable (R438). -/
def State.railOn (s : State) (i : Nat) : State :=
  (s.onPwr fun p => { p with seq := .raise i, seqAt := s.now, seqOk := 0, en := if p.en.contains i then p.en else i :: p.en }).setFld F.PWR_RAIL_DATA_STATE 1 i

/-- It deasserts a rail's enable (R439). -/
def State.railOff (s : State) (i : Nat) : State :=
  (s.onPwr fun p => { p with seq := .lower i, seqAt := s.now, en := p.en.filter (· != i) }).setFld F.PWR_RAIL_DATA_STATE 0 i

/-- A start is wanted and nothing forbids it: the always-on sequencer begins step 0, one start later in the ledger (R438, R462,
R463). -/
def State.startBegin (s : State) : State :=
  if !s.pwr.want || s.pwr.sysRst || s.pwr.refLost || !s.pwr.aon || s.flag F.THM_TRIP_TRIPPED then s
  else
    let old := s.fields
    let shift (f : Fld) (m : SMap Nat) : SMap Nat := (List.range 12).foldl (fun m t => (List.range 15).foldl (fun m k =>
        SMap.set f.reset m (f.key (12 * (15 - k) + t)) (SMap.get f.reset old (f.key (12 * (14 - k) + t)))) (SMap.set f.reset m (f.key t) f.reset)) m
    let s := { s with fields := ledgerFields.foldl (fun m f => shift f m) s.fields }
    let s := match s.pwr.begun with | some t => s.setFld F.PWR_BOOT_DATA_OUTCOME 3 (12 + t) | none => s
    let n := (s.vfld F.PWR_BOOT_START + 1) % 65536
    let s := ((s.setFld F.PWR_BOOT_START n).setVfld F.PWR_BOOT_START n).setFld F.PWR_STATUS_STATE 0
    let s := (List.range 7).foldl (fun (s : State) i => s.setFld F.PWR_RAIL_DATA_CMD_MV (s.vfld F.PWR_RAIL_DATA_CMD_MV i) i) s
    let s := s.onPwr fun p => { p with want := false, begun := some 0, stepAt := s.now,
                                       alt := if p.clearAlt then [] else p.alt, altStacks := if p.clearAlt then 0 else p.altStacks }
    ((s.setFld F.PWR_BOOT_STAGE 0).setFld F.PWR_BOOT_READY 0).railOn 0

/-- The rails are lowered in their order, from the highest that is enabled; with none left a wanted start begins. -/
def State.railsLower (s : State) : State :=
  match lowerOrder.find? s.pwr.en.contains with
  | some i => s.railOff i
  | none => (s.onPwr fun p => { p with seq := .idle }).startBegin

/-- Off (R451) by a write or a rail fault: the core clock stands, volatile state is lost, the rails are lowered, and nothing but a cycle of
SYS_RST_N or VDD_AON ends it (R445, R453). -/
def State.goOff (s : State) : State :=
  let keep := [F.PWR_RAIL_DATA_STATE, F.PWR_RAIL_DATA_MEAS_MV, F.PWR_RAIL_DATA_CMD_MV, F.PWR_BOOT_STAGE, F.PWR_BOOT_START]
  let s := s.discard (aonFields ++ keep) s.pwr.afterReset
  ((s.onPwr fun p => { p with offHeld := true }).setFld F.PWR_STATUS_STATE 3).railsLower

/-- A rail fault (R445): at once, or at the next boundary while a frame runs; recorded in the ledger; Off until SYS_RST_N falls. -/
def State.railFaultNow (s : State) (i : Nat) : State :=
  let s := (s.setFld F.PWR_BOOT_DATA_OUTCOME 2 0).setFld F.PWR_BOOT_DATA_DETAIL (withBit (s.fld F.PWR_BOOT_DATA_DETAIL 0) i) 0
  let s := ((s.alertRaise.setFld F.PWR_STATUS_RAIL_FAULT 1).setFld F.PWR_RESET_LASTCAUSE 4).setFld F.PWR_RAIL_DATA_STATE 3 i
  (s.onPwr fun p => { p with want := false, begun := none, faultDue := none }).goOff

/-- RAIL_FAULT. -/
def State.railFault (s : State) (i : Nat) : State :=
  if s.frame.st = .running then s.onPwr fun p => { p with faultDue := some i } else s.railFaultNow i

/-- A PMBus transaction with a rail failed twice (R441): counted, four in a row are a rail fault. -/
def State.pmbFail (s : State) (i : Nat) : State :=
  let n := SMap.get 0 s.pwr.pmbFails i + 1
  let s := (s.count F.PWR_PMBERRCNT).onPwr fun p => { p with pmbFails := SMap.set 0 p.pmbFails i n }
  if 4 ≤ n then s.railFault i else s

/-- One that succeeded. -/
def State.pmbOk (s : State) (i : Nat) : State := s.onPwr fun p => { p with pmbFails := SMap.set 0 p.pmbFails i 0 }

/-- RAIL_RAMP_READ: a reading of the rail that is being raised or lowered; none where the transaction failed twice. -/
def State.railRamp (s : State) (read : Option Nat) : State :=
  match s.pwr.seq, read with
  | .idle, _ => s
  | .raise i, none =>
    let s := s.pmbFail i
    if s.pwr.seq = .raise i && decide (s.pwr.seqAt + 10000000 ≤ s.now) then s.railFault i else s
  | .raise i, some mv =>
    let s := (s.pmbOk i).setFld F.PWR_RAIL_DATA_MEAS_MV mv i
    let n := if s.railIn i mv then s.pwr.seqOk + 1 else 0
    let s := s.onPwr fun p => { p with seqOk := n }
    if 2 ≤ n then
      let s := s.setFld F.PWR_RAIL_DATA_STATE 2 i
      match railAfter raiseOrder i with
      | some j => s.railOn j
      | none => s.onPwr fun p => { p with seq := .idle }
    else if s.pwr.seqAt + 10000000 ≤ s.now then s.railFault i
    else s
  | .lower i, read =>
    let low := match read with | some mv => decide (10 * mv < s.railSet i) | none => false
    let s := match read with | some mv => s.setFld F.PWR_RAIL_DATA_MEAS_MV mv i | none => s.count F.PWR_PMBERRCNT
    if low || decide (s.pwr.seqAt + 5000000 ≤ s.now) then s.railsLower else s

/-! Regulators that fall short (R442, R444, R445). -/

/-- The clock of R444 for a deficit in mV. -/
def deficitMhz (d : Int) : Nat := max 800 (1600 - 50 * ceilDiv ((d - 10).toNat) 10)

/-- The rail of VDD_CORE and VDD_SRAM with the larger deficit, and that deficit. -/
def State.worstDeficit (s : State) : Nat × Int :=
  let d (i : Nat) : Int := (s.railSet i : Int) - (s.fld F.PWR_RAIL_DATA_MEAS_MV i : Int)
  if d 0 < d 1 then (1, d 1) else (0, d 0)

/-- DEGRADED is set or cleared, and posted. -/
def State.setDegraded (s : State) (on : Bool) (rail : Nat) : State :=
  let s := ((s.setFlag F.PWR_STATUS_DEGRADED on).raiseBoth 330).setClock
  s.post 0x00E2 [rail, if on then 1 else 0, s.railSet rail, s.fld F.PWR_RAIL_DATA_MEAS_MV rail, s.fld F.GLB_CORE_FREQ_MHZ]

/-- What a poll's readings of the two rails mean for the clock (R444). -/
def State.deficitPoll (s : State) : State :=
  let w := s.worstDeficit
  let bad := decide (10 < w.2)
  let s := s.onPwr fun p => { p with short := if bad then p.short + 1 else 0, good := if bad then 0 else p.good + 1, reads := p.reads + 1 }
  if 170 < w.2 then s.railFault w.1
  else if !s.flag F.PWR_STATUS_DEGRADED then
    if 4 ≤ s.pwr.short then
      ((s.onPwr fun p => { p with lowMhz := deficitMhz w.2, reads := 0 }).count F.PWR_SHORTCNT).setDegraded true w.1
    else s
  else if 4 ≤ s.pwr.good then (s.onPwr fun p => { p with lowMhz := 1600, reads := 0 }).setDegraded false w.1
  else if 4 ≤ s.pwr.reads then (s.onPwr fun p => { p with lowMhz := deficitMhz w.2, reads := 0 }).setClock
  else s

/-- A reading of another rail: out of tolerance for 1 ms is a rail fault. -/
def State.tolerancePoll (s : State) (i mv : Nat) : State :=
  if s.railIn i mv then (s.onPwr fun p => { p with outSince := SMap.drop p.outSince i }).setFld F.PWR_RAIL_DATA_STATE 2 i
  else
    let s := s.setFld F.PWR_RAIL_DATA_STATE 3 i
    match SMap.find? s.pwr.outSince i with
    | some t => if t + 1000000 ≤ s.now then s.railFault i else s
    | none => s.onPwr fun p => { p with outSince := SMap.put p.outSince i s.now }

/-- PMBUS_POLL: READ_VOUT of each commanded rail, none where the transaction failed twice; in Active and Idle. -/
def State.pmbusPoll (s : State) (reads : List (Nat × Option Nat)) : State :=
  if 2 ≤ s.fld F.PWR_STATUS_STATE || s.pwr.seq != .idle then s
  else
    let mine := reads.filter fun r => s.pwr.en.contains r.1
    let s := mine.foldl (fun (s : State) r => match r.2 with
      | none => s.pmbFail r.1
      | some mv =>
        let s := (s.pmbOk r.1).setFld F.PWR_RAIL_DATA_MEAS_MV mv r.1
        if r.1 ≤ 1 || (r.1 = 3 && !s.flag F.PWR_STATUS_VPP_ON) then s else s.tolerancePoll r.1 mv) s
    if !s.isOff && mine.any (fun r => decide (r.1 ≤ 1) && r.2.isSome) then s.deficitPoll else s

/-- Whether a STATUS_WORD reports the rail off, in overcurrent or in undervoltage: bits 6, 4 and 3 (PRESUMED, PMBus; log entry
51). -/
def statusBad (w : Nat) : Bool := w.testBit 6 || w.testBit 4 || w.testBit 3

/-- PM_ALERT: STATUS_WORD of every rail. -/
def State.pmAlert (s : State) (status : List (Nat × Option Nat)) : State :=
  let s := s.raiseBoth 331
  (status.filter fun r => s.pwr.en.contains r.1).foldl (fun (s : State) r => match r.2 with
    | none => s.pmbFail r.1
    | some w => if statusBad w then (s.pmbOk r.1).railFault r.1 else s.pmbOk r.1) s

/-! VPP_ARR (R442). -/

/-- VPP_RAISE. -/
def State.vppRaise (s : State) : State :=
  if 2 ≤ s.fld F.PWR_STATUS_STATE || s.pwr.en.contains 3 then s
  else (s.onPwr fun p => { p with en := 3 :: p.en, vppLast := none }).setFld F.PWR_RAIL_DATA_STATE 1 3

/-- VPP_ARR_IN_REGULATION: supply-bound commands are no longer refused; those that wait are tried. -/
def State.vppReady (s : State) : State :=
  if !s.pwr.en.contains 3 then s
  else ((s.setFld F.PWR_STATUS_VPP_ON 1).setFld F.PWR_RAIL_DATA_STATE 2 3).kickJobs

/-- VPP_LOWER: 1 s after the last supply-bound command ended. -/
def State.vppLower (s : State) : State :=
  match s.pwr.vppLast with
  | some t =>
    if s.supplyCount ≠ 0 || s.now < t + 1000000000 then s
    else ((s.onPwr fun p => { p with en := p.en.filter (· != 3), vppLast := none }).setFld F.PWR_STATUS_VPP_ON 0).setFld F.PWR_RAIL_DATA_STATE 0 3
  | none => s

/-! Power limits (R447 to R449). -/

/-- The clock is clamped: `why` 1 peak, 2 sustained. -/
def State.clampOn (s : State) (why : Nat) : State :=
  let s := (s.onPwr fun p => { p with clampMhz := some (s.fld F.PWR_CLAMPCFG_MHZ), calm := none, adjusted := s.now }).setFld F.PWR_STATUS_CLAMP 1
  let s := (s.setFlag F.PWR_STATUS_FLOOR (s.fld F.PWR_CLAMPCFG_MHZ == 800)).setClock
  ((s.alertRaise.count F.PWR_CLAMPCNT).raiseBoth 328).post 0x00E0 [s.fld F.PWR_ESTIMATE_WATTS, why, s.fld F.GLB_CORE_FREQ_MHZ]

/-- POWER_ESTIMATE: each estimate stands for 1 µs of the trailing 100 ms. -/
def State.powerEstimate (s : State) (watts : Nat) : State :=
  let limit := s.fld F.PWR_LIMIT_SUSTAIN_W
  let s := s.setFld F.PWR_ESTIMATE_WATTS (min watts 4095)
  let kept := s.pwr.overs.filter fun t => decide (s.now < t + 100000000)
  let overs := if limit < watts then kept ++ [s.now] else kept
  let s := s.onPwr fun p => { p with overs := overs, calm := if limit - 50 < watts then none else some (p.calm.getD s.now) }
  let s := s.setFld F.PWR_ESTIMATE_OVER_US (min overs.length 65535)
  match s.pwr.clampMhz with
  | some f =>
    if s.fld F.PWR_LIMIT_PEAK_W < watts && decide (s.fld F.PWR_CLAMPCFG_MHZ < f) then
      (s.onPwr fun p => { p with clampMhz := some (s.fld F.PWR_CLAMPCFG_MHZ) }).setClock
    else s
  | none => if s.fld F.PWR_LIMIT_PEAK_W < watts then s.clampOn 1 else if 10000 ≤ overs.length then s.clampOn 2 else s

/-- CLAMP_ADJUST: every 100 µs while clamped, from the clock as it is; the rise that brings it back ends the clamp. -/
def State.clampAdjust (s : State) : State :=
  match s.pwr.clampMhz with
  | none => s
  | some f =>
    if s.now < s.pwr.adjusted + 100000 then s
    else
      let calm := match s.pwr.calm with | some t => decide (t + 1000000 ≤ s.now) | none => false
      let high := decide (s.fld F.PWR_LIMIT_SUSTAIN_W < s.fld F.PWR_ESTIMATE_WATTS)
      let f := min f s.pwr.lowMhz
      let g :=
        if high then max 800 (f - 100)
        else if calm && decide (s.pwr.overs.length < 9000) then f + 50
        else f
      if !high && decide (f < g) && decide (s.pwr.lowMhz ≤ g) then
        let s := ((s.onPwr fun p => { p with clampMhz := none }).setFld F.PWR_STATUS_CLAMP 0).setFld F.PWR_STATUS_FLOOR 0
        let s := s.setClock
        (s.raiseBoth 329).post 0x00E1 [s.fld F.GLB_CORE_FREQ_MHZ]
      else
        let s := (s.onPwr fun p => { p with clampMhz := some g, adjusted := s.now }).setFlag F.PWR_STATUS_FLOOR (g == 800)
        s.setClock

/-! Power states (R451, R452). -/

/-- A change of state begins; one to the present state takes back a change under way. -/
def State.stateChange (s : State) (target : Nat) : State :=
  if s.fld F.PWR_STATUS_STATE = target then
    if s.pwr.change.isNone then s else (s.onPwr fun p => { p with change := none }).setFld F.PWR_STATUS_CHANGING 0
  else (s.onPwr fun p => { p with change := some (target, s.now) }).setFld F.PWR_STATUS_CHANGING 1

/-- STATE_REQ: refused, TARGET unchanged, where it would leave Active while ARMED or RUNNING. -/
def State.stateReq (s : State) (path : Path) (value : Nat) : State :=
  let t := bitsAt value 0 2
  let r := s.ownWrite path roleOpr false 0x6004
  if !r.1 || t = 3 || (t ≠ 0 && (r.2.frame.st = .armed || r.2.frame.st = .running)) then r.2
  else (r.2.setFld F.PWR_STATE_REQ_TARGET t).stateChange t

/-- Leaving Doze: every core is cleared; arrays keep the trims that firmware holds (R452). -/
def State.leaveDoze (s : State) : State := (List.range siteCount).foldl (fun (s : State) i => s.clearDue i) s

/-- POWER_STATE: the change completes; Active and Doze reach each other through Idle, each completed change posted. -/
def State.powerState (s : State) : State :=
  match s.pwr.change with
  | none => s
  | some (t, _) =>
    let now := s.fld F.PWR_STATUS_STATE
    let next := if (now = 0 && t = 2) || (now = 2 && t = 0) then 1 else t
    let s := if now = 2 && next = 1 then s.leaveDoze else s
    let s := ((s.setFld F.PWR_STATUS_STATE next).raiseBoth 334).post 0x00E5 [next]
    if next = t then (s.onPwr fun p => { p with change := none }).setFld F.PWR_STATUS_CHANGING 0 else s

/-! Pins, references and resets (R453, R456, R458 to R461). -/

/-- PWR_WARN: the pin changes level; a fall aborts an update (R461, R476). -/
def State.pwrWarn (s : State) (low : Bool) : State :=
  if s.flag F.PWR_STATUS_WARN = low then s
  else
    let s := ((s.setFlag F.PWR_STATUS_WARN low).raiseBoth 332).post 0x00E3 [if low then 1 else 0]
    if low then (s.count F.PWR_WARNCNT).sessionAbort else s.kickJobs

/-- LANE_REFCLK_LOSS of the Ethernet or the PCI Express reference. -/
def State.laneLoss (s : State) (eth : Bool) : State :=
  if eth then
    if !s.flag F.CLK_STATUS_ETHREF_OK then s
    else (List.range 32).foldl (fun (s : State) n => if s.flag F.PRT_STATUS_UP n then s.portDown n 1 else s) (s.setFld F.CLK_STATUS_ETHREF_OK 0)
  else if !s.flag F.CLK_STATUS_PCIEREF_OK then s
  else (s.setFld F.CLK_STATUS_PCIEREF_OK 0).linkDown

/-- LANE_REFCLK_RESTORED. -/
def State.laneBack (s : State) (eth : Bool) : State :=
  if eth then s.setFld F.CLK_STATUS_ETHREF_OK 1 else s.setFld F.CLK_STATUS_PCIEREF_OK 1

/-- SYS_RST_N_ASSERT: low for 10 µs (R459). -/
def State.sysAssert (s : State) : State :=
  let s := (s.onPwr fun p => { p with sysRst := true, want := false, offHeld := false }).setFld F.PWR_STATUS_RAIL_FAULT 0
  let s := (s.systemReset 1).setFld F.PWR_STATUS_STATE 3
  if s.flag F.THM_TRIP_TRIPPED then s else s.railsLower

/-- SYS_RST_N_RELEASE: the straps MODE and SMB_ADDR are sampled (R44, R520) and the rails are raised once those still up are down. -/
def State.sysRelease (s : State) (mode addr : Nat) : State :=
  if !s.pwr.sysRst then s
  else
    let s := (s.onPwr fun p => { p with sysRst := false, want := true }).setFld F.GLB_STRAPS_MODE mode
    let s := { s with smb := { s.smb with addr := addr % 4 } }
    let s := s.setFlag F.CLK_STATUS_REF_OK (!s.pwr.refLost)
    if s.pwr.seq = .idle then s.startBegin else s

/-- OFF: a write of PWR.RESET.OFF. -/
def State.offWrite (s : State) (path : Path) : State :=
  let r := s.ownWrite path roleIns false 0x6020
  if r.1 then (r.2.onPwr fun p => { p with want := false, begun := none }).goOff else r.2

/-- SYSRST: a system reset, then a cold start. -/
def State.sysrstWrite (s : State) (path : Path) : State :=
  let r := s.ownWrite path roleIns false 0x6020
  if !r.1 then r.2
  else
    let s := (r.2.systemReset 2).onPwr fun p => { p with want := true }
    if s.pwr.seq = .idle then s.startBegin else s

/-- REFCLK_LOSS: as SYS_RST_N, counted; the time base stands (R456, R457). -/
def State.refLoss (s : State) : State :=
  if s.pwr.refLost then s
  else
    let t := s.time
    let s := (s.count F.CLK_REFLOSSCNT).onPwr fun p => { p with refLost := true, want := false, tbRun := false, tb := t }
    let s := ((s.systemReset 3).setFld F.CLK_STATUS_REF_OK 0).setFld F.PWR_STATUS_STATE 3
    if s.flag F.THM_TRIP_TRIPPED then s else s.railsLower

/-- REFCLK_RESTORED: it has run for 1 ms; a cold start follows unless Off is held (R453), and the time base goes on from its first
lock on. -/
def State.refBack (s : State) : State :=
  if !s.pwr.refLost then s
  else
    let s := (s.onPwr fun p => { p with refLost := false, want := !p.sysRst && !p.offHeld,
                                        tbRun := decide (0 < p.tb), tb := if 0 < p.tb then s.now - p.tb else 0 }).setFld F.CLK_STATUS_REF_OK 1
    if s.pwr.seq = .idle then s.startBegin else s

/-- POWER_ON: VDD_AON rises above its power-on-reset level. -/
def State.powerOn (s : State) : State := s.powerReset true

/-- POWER_FAILURE: all supply is lost. -/
def State.powerFailure (s : State) : State := s.powerReset false

/-! The thermal trip (R425, R426, R440). -/

/-- The comparator trips: latched with its cause, THERMTRIP_N low, every enable deasserted at once, every clock but the always-on
oscillator stopped. -/
def State.trip (s : State) (low opn : Bool) : State :=
  if s.flag F.THM_TRIP_TRIPPED || !s.pwr.aon then s
  else
    let s := ((s.alertRaise.setFld F.THM_TRIP_TRIPPED 1).setFlag F.THM_TRIP_LOW low).setFlag F.THM_TRIP_OPEN opn
    let s := s.onPwr fun p => { p with tripPin := true, want := false, begun := none, en := [], seq := .idle }
    let s := s.discard (aonFields ++ [F.PWR_RAIL_DATA_CMD_MV, F.PWR_RAIL_DATA_MEAS_MV, F.PWR_BOOT_STAGE, F.PWR_BOOT_START]) s.pwr.afterReset
    s.setFld F.PWR_STATUS_STATE 3

/-- THERMAL_TRIP: Vbe below the low level or above the open level for 10 µs, outside blanking. -/
def State.tripCond (s : State) (low opn : Bool) : State :=
  if s.flag F.THM_TRIP_BLANK || (!low && !opn) then s else s.trip low opn

/-- TRIP_BLANK_END: 1 ms after VDD_AON is in regulation; a condition present trips at once. -/
def State.blankEnd (s : State) (low opn : Bool) : State :=
  if !s.flag F.THM_TRIP_BLANK || s.now < s.pwr.blankFrom + 1000000 then s
  else (s.setFld F.THM_TRIP_BLANK 0).tripCond low opn

/-- TRIP_TEST: a maker's write of THM.TRIP.TEST; no level is crossed, so no cause bit is set (log entry 52). -/
def State.tripTest (s : State) (path : Path) : State :=
  let r := s.ownWrite path roleMkr false 0x5104
  if r.1 then r.2.trip false false else r.2

/-! Powered hours (R457, R82). -/

/-- An array's age an hour later: assumed ages and those without a known time grow, others follow the clock. -/
def State.ageHour (s : State) (a : Nat) : State :=
  let r := s.rec_ a
  let age := s.fld F.ARR_AGE_HOURS a
  if s.flag F.ARR_AGE_ASSUMED a then s.setAge a (age + 1) true
  else if r.progUtc ≠ 0 && s.utcNs.isSome then s.setAge a (max age ((s.utcSec - r.progUtc) / 3600)) false
  else match r.stamp with
    | some t => s.setAge a (max age ((s.now - t) / 3600000000000)) false
    | none => s.setAge a (age + 1) false

/-- POWERED_HOUR: the count goes to the vault at each whole hour. -/
def State.poweredHour (s : State) : State :=
  let n := min (s.vfld F.CLK_POWERED_HOURS + 1) (2 ^ 32 - 1)
  let s := ((s.setFld F.CLK_POWERED_HOURS n).setVfld F.CLK_POWERED_HOURS n).recordWrites
  s.mappedArrays.foldl (fun (s : State) a => s.ageHour a) s

/-! The commands' meanings. -/

/-- DROOP_STRETCH (R443). -/
def execDroopStretch (s : State) : Host.Outcome State Fault Refusal := .next s.droopStretch
/-- DROOP_END (R443). -/
def execDroopEnd (s : State) : Host.Outcome State Fault Refusal := .next s.droopEnd
/-- PLL_UNLOCK (R455). -/
def execPllUnlock (regions : Nat) (s : State) : Host.Outcome State Fault Refusal := .next (s.pllUnlock regions)
/-- PLL_RELOCK (R455). -/
def execPllRelock (s : State) : Host.Outcome State Fault Refusal := .next s.pllRelock
/-- RAIL_RAMP_READ (R438). -/
def execRailRampRead (read : Option Nat) (s : State) : Host.Outcome State Fault Refusal := .next (s.railRamp read)
/-- PMBUS_POLL (R442, R444, R445). -/
def execPmbusPoll (reads : List (Nat × Option Nat)) (s : State) : Host.Outcome State Fault Refusal :=
  within (reads.all fun r => decide (r.1 ≤ 6)) (s.pmbusPoll reads)
/-- PM_ALERT (R442). -/
def execPmAlert (status : List (Nat × Option Nat)) (s : State) : Host.Outcome State Fault Refusal :=
  within (status.all fun r => decide (r.1 ≤ 6)) (s.pmAlert status)
/-- VPP_RAISE (R442). -/
def execVppRaise (s : State) : Host.Outcome State Fault Refusal := .next s.vppRaise
/-- VPP_ARR_IN_REGULATION (R442). -/
def execVppArrInRegulation (s : State) : Host.Outcome State Fault Refusal := .next s.vppReady
/-- VPP_LOWER (R442). -/
def execVppLower (s : State) : Host.Outcome State Fault Refusal := .next s.vppLower
/-- POWER_ESTIMATE (R447, R448). -/
def execPowerEstimate (watts : Nat) (s : State) : Host.Outcome State Fault Refusal := .next (s.powerEstimate watts)
/-- CLAMP_ADJUST (R449). -/
def execClampAdjust (s : State) : Host.Outcome State Fault Refusal := .next s.clampAdjust
/-- STATE_REQ (R451). -/
def execStateReq (path : Path) (value : Nat) (s : State) : Host.Outcome State Fault Refusal := within path.ok (s.stateReq path value)
/-- POWER_STATE (R452). -/
def execPowerState (s : State) : Host.Outcome State Fault Refusal := .next s.powerState
/-- PWR_WARN (R461). -/
def execPwrWarn (low : Bool) (s : State) : Host.Outcome State Fault Refusal := .next (s.pwrWarn low)
/-- LANE_REFCLK_LOSS (R456). -/
def execLaneRefclkLoss (eth : Bool) (s : State) : Host.Outcome State Fault Refusal := .next (s.laneLoss eth)
/-- LANE_REFCLK_RESTORED (R456). -/
def execLaneRefclkRestored (eth : Bool) (s : State) : Host.Outcome State Fault Refusal := .next (s.laneBack eth)
/-- SYS_RST_N_ASSERT (R459). -/
def execSysRstNAssert (s : State) : Host.Outcome State Fault Refusal := .next s.sysAssert
/-- SYS_RST_N_RELEASE (R438). -/
def execSysRstNRelease (mode addr : Nat) (s : State) : Host.Outcome State Fault Refusal := .next (s.sysRelease mode addr)
/-- OFF (R439). -/
def execOff (path : Path) (s : State) : Host.Outcome State Fault Refusal := within path.ok (s.offWrite path)
/-- SYSRST (R458). -/
def execSysrst (path : Path) (s : State) : Host.Outcome State Fault Refusal := within path.ok (s.sysrstWrite path)
/-- REFCLK_LOSS (R456). -/
def execRefclkLoss (s : State) : Host.Outcome State Fault Refusal := .next s.refLoss
/-- REFCLK_RESTORED (R456). -/
def execRefclkRestored (s : State) : Host.Outcome State Fault Refusal := .next s.refBack
/-- POWER_ON (R458). -/
def execPowerOn (s : State) : Host.Outcome State Fault Refusal := .next s.powerOn
/-- POWER_FAILURE (R189). -/
def execPowerFailure (s : State) : Host.Outcome State Fault Refusal := .next s.powerFailure
/-- THERMAL_TRIP (R426). -/
def execThermalTrip (low opn : Bool) (s : State) : Host.Outcome State Fault Refusal := .next (s.tripCond low opn)
/-- TRIP_BLANK_END (R425). -/
def execTripBlankEnd (low opn : Bool) (s : State) : Host.Outcome State Fault Refusal := .next (s.blankEnd low opn)
/-- TRIP_TEST (R426). -/
def execTripTest (path : Path) (s : State) : Host.Outcome State Fault Refusal := within path.ok (s.tripTest path)
/-- POWERED_HOUR (R457). -/
def execPoweredHour (s : State) : Host.Outcome State Fault Refusal := .next s.poweredHour

end Sys2Proof.Machine
end

