-- ==== Sys2Proof/Machine/Boot.lean ====
section
/-!
DEFINITION. Start-up: the steps of Table 14-5 and the boot ledger (14_power_clocks_startup R462 to R465), the vault's journal
(15_update_and_roles R469), the start-up check (03_cim_arrays R120) and the reconciliation of records (07_weights R244, R245).
-/

namespace Sys2Proof.Machine

/-! The ledger. -/

/-- Steps that a failure makes different (Table 14-5), with the mode it gives: 1 altered, 2 skipped. -/
def alteredMode (k : Nat) : Nat := if k = 9 then 2 else if k = 1 || k = 3 || k = 4 || k = 5 then 1 else 0

/-- OUTCOME of a step some starts ago. -/
def State.outcome (s : State) (ago k : Nat) : Nat := s.fld F.PWR_BOOT_DATA_OUTCOME (12 * ago + k)

/-- Whether the previous start gives a step as failed: FAILED, or interrupted at two starts in a row (R463). -/
def State.stepFailed (s : State) (k : Nat) : Bool := s.outcome 1 k == 2 || (s.outcome 1 k == 3 && s.outcome 2 k == 3)

/-- How a step is done at this start (R463): 0 normally, 1 altered, 2 skipped.  A stack that failed in step 6 alters step 5. -/
def State.stepMode (s : State) (k : Nat) : Nat :=
  if s.pwr.clearAlt then 0
  else match SMap.find? s.pwr.alt k with
    | some m => m
    | none => if s.stepFailed k || (k = 5 && s.pwr.altStacks != 0) then alteredMode k else 0

/-- A step ends with its outcome (1 OK, 2 FAILED) and detail; the next begins (R462). -/
def State.stepDone (s : State) (k outcome detail : Nat) : State :=
  let mode := s.stepMode k
  let ms := min 65535 ((s.now - s.pwr.stepAt) / 1000000)
  let s := ((s.setFld F.PWR_BOOT_DATA_OUTCOME outcome k).setFld F.PWR_BOOT_DATA_MODE mode k).setFld F.PWR_BOOT_DATA_DETAIL detail k
  let s := (s.setFld F.PWR_BOOT_DATA_MS ms k).recordWrites
  let s := if mode = 0 then s else s.onPwr fun p => { p with alt := SMap.put p.alt k mode }
  if 11 ≤ k then s.onPwr fun p => { p with begun := none }
  else ((s.setFld F.PWR_BOOT_STAGE (k + 1)).onPwr fun p => { p with begun := some (k + 1), stepAt := s.now }).recordWrites

/-! Steps 0 to 2. -/

/-- Step 0: the rails are in regulation; the region and firmware PLLs lock, the time base starts with their first lock (R457), every
core is to be cleared (R160). -/
def State.bootRails (s : State) : State :=
  if s.pwr.seq != .idle || !(raiseOrder.all fun i => s.fld F.PWR_RAIL_DATA_STATE i == 2) then s
  else
    let s := ((s.setFld F.GLB_CLKSTAT_PLL_LOCK allLocked).setFld F.GLB_CLKSTAT_FWCLK_W 1).setFld F.GLB_CLKSTAT_FWCLK_E 1
    let s := s.setClock.onPwr fun p => { p with tbRun := true, tb := if p.tbRun then p.tb else s.now }
    ((List.range siteCount).foldl (fun (s : State) i => s.clearDue i) s).stepDone 0 1 0

/-- Whether the boot ROM verifies a slot's boot stage: an image of an update by its bytes, the one the part was shipped with as
`bad` says. -/
def State.bootsFrom (s : State) (bad slot : Nat) : Bool :=
  if slot = 2 then !bad.testBit 2
  else decide (2 ≤ s.slotState slot 1) && !bad.testBit slot && (match s.image slot 1 with | some i => s.romOk i | none => true)

/-- A slot that the boot ROM tries: counted at the signature engine, its descriptor says what was found (R473). -/
def State.romTry (s : State) (slot : Nat) (ok : Bool) : State :=
  if 2 ≤ slot || s.slotState slot 1 < 2 then s
  else
    let code := match s.image slot 1 with | some i => romCode i.header | none => 0
    let s := (s.count F.SEC_VERIFYCNT).setFld F.SEC_ENGINE_LASTCODE code
    let s := if code = 0 then s else s.count F.SEC_REJECTCNT
    (s.setVfld F.UPD_SLOT_STATE_BOOT (if ok then 3 else 4) slot).recordWrites

/-- Step 1: the confirmed slot, or the other where the step is altered, then the other one, then the SPI NOR flash (R483). -/
def State.bootImage (s : State) (bad : Nat) : State :=
  let first := if s.stepMode 1 = 0 then s.confirmed else 1 - s.confirmed
  let order := [first, 1 - first, 2]
  let tried := order.take (((order.takeWhile fun i => !s.bootsFrom bad i).length) + 1)
  let ok := order.find? (s.bootsFrom bad)
  let s := tried.foldl (fun (s : State) i => s.romTry i (ok == some i)) s
  match ok with
  | some i =>
    let s := if i = 2 then s else (s.setVfld F.UPD_STATUS_BOOTED i).setVfld F.UPD_STATUS_RUNNING i
    let s := ((s.setRcore 0 0).setTick 0).setRcore 4 0 |>.setTick 4
    s.stepDone 1 (if i = first then 1 else 2) i
  | none =>
    let s := (s.setFld F.PWR_BOOT_DATA_OUTCOME 2 1).setFld F.PWR_BOOT_DATA_DETAIL 2 1
    (s.setFld F.PWR_BOOT_DATA_MODE (s.stepMode 1) 1).onPwr fun p => { p with begun := none }

/-- Step 2: a complex holds the claim (R346). -/
def State.bootClaim (s : State) : State := if s.holder = 0 then s else s.stepDone 2 1 0

/-! Step 3, VAULT. -/

/-- The vault controller completes journal entries not marked done whose CRC holds, oldest generation first, and discards the others
(R469). -/
def State.journalReplay (s : State) : State :=
  let due := (s.sec.journal.filter fun e => e.crcOk && !e.done).mergeSort fun a b => decide (a.gen ≤ b.gen)
  let s := s.onSec fun x => { x with bytes := due.foldl (fun m e => Memory.write m e.addr e.data) x.bytes, journal := [] }
  let s := (s.count F.VLT_JREPLAYCNT due.length).setFld F.VLT_STATUS_JOURNAL 0
  s.setFlag F.VLT_STATUS_REPLAYED (!due.isEmpty)

/-- The fields marked Per vault take what the vault holds (R504); REFIN with them (R414). -/
def State.vaultFields (s : State) : State :=
  let s := { s with fields := s.vfields.foldl (fun (m : SMap Nat) (e : Nat × Nat) => if e.1 % 1024 = F.MET_REFIN_UV.code then m else SMap.put m e.1 e.2) s.fields }
  let s := if s.vfld F.MET_REFIN_UV = 0 then s else s.setFld F.MET_REFIN_UV (s.vfld F.MET_REFIN_UV)
  s.vfields.foldl (fun (s : State) (e : Nat × Nat) =>
      if e.1 % 1024 = F.ARR_CYCLES_COUNT.code && decide (10000 ≤ e.2) then s.setFld F.ARR_STATUS_WORN 1 (e.1 / 1024) else s) s

/-- The modes of a physical row's arrays after a reset (03_cim_arrays). -/
def State.rowModes (s : State) (h p : Nat) : State :=
  match s.rowLogical h p with
  | some _ => (rowArrays h p).foldl (fun (s : State) a =>
      s.setFld F.ARR_STATUS_MODE (if (s.rec_ a).state = .faulty && (s.rec_ a).intact then modeExcluded else modeMaint) a) s
  | none =>
    if s.rowRetired h p then
      (rowArrays h p).foldl (fun (s : State) a => (s.setFld F.ARR_STATUS_MODE modeExcluded a).setArr a { s.arr a with retired := true }) s
    else (rowArrays h p).foldl (fun (s : State) a => s.setFld F.ARR_STATUS_MODE modeSpare a) s

/-- The spare maps of a half: unused rows, FILLING, retirements that still wait for a boundary (R42, R250). -/
def State.loadRows (s : State) (h : Nat) : State :=
  let unused := ((List.range 32).filter fun p => (s.rowLogical h p).isNone && !s.rowRetired h p).length
  let s := (s.setBoth (unusedFld h) unused).setFlag (fillingFld h) (s.halfFilling h)
  let due := (List.range 32).filter fun p => s.rowRetired h p && (s.rowLogical h p).isSome
  let s := s.onWgt fun w => { w with retireDue := w.retireDue ++ due.map fun p => (h, p) }
  let s := if (List.range 30).any fun l => s.rowState h l == 2 then { s with mgr := { s.mgr with withdrawn := true } } else s
  (List.range 32).foldl (fun (s : State) p => s.rowModes h p) s

/-- Components found WRITING are EMPTY; a conversion cut short leaves only the confirmed area (R473, Table 15-7). -/
def State.loadSlots (s : State) : State :=
  let s := [0, 1].foldl (fun (s : State) slot => [1, 2].foldl (fun (s : State) cls =>
      if s.slotState slot cls = 1 then s.setBoth (slotFld cls) 0 slot else s) s) s
  if s.sec.converting.isSome then (s.onSec fun x => { x with converting := none, formatHeld := none }).setBoth F.UPD_STATUS_FMT_DUAL 0 else s

/-- Audit entries found pending are interrupted; the end of every role is recorded (R488, R492). -/
def State.loadAudit (s : State) : State :=
  let n := (s.sec.log.filter fun e => e.2.result == 3).length
  let log := s.sec.log.map fun e => if e.2.result = 3 then (e.1, { e.2 with result := 4 }) else e
  let s := (s.onSec fun x => { x with log := log }).recordWrites n
  s.auditWrite { s.auditEntry 0 0xFFFC 0 0x04 0 with fn := 0xFF, role := 0, fingerprint := 0 }

/-- Step 3. -/
def State.bootVault (s : State) (bad : Nat) : State :=
  let s := s.journalReplay.loadSlots.vaultFields
  let s := ((s.loadRows 0).loadRows 1).loadAudit
  let s := s.arrays.foldl (fun (s : State) e => s.mirrorSide e.1) s
  s.stepDone 3 (if bad = 0 then 1 else 2) 0

/-! Steps 4 to 8. -/

/-- Step 4: Ranger component of the other complex (bit 0 of `bad`), port microcode (bit 1), memory training (bit 2), from the slot
booted or, altered, from the other (R484). -/
def State.bootLoad (s : State) (bad : Nat) : State :=
  let slot := if s.stepMode 4 = 0 then s.vfld F.UPD_STATUS_BOOTED else 1 - s.vfld F.UPD_STATUS_BOOTED
  let none_ := s.slotState slot 2 ≠ 2
  let lead := s.holder - 1
  let s := s.setBoth F.UPD_STATUS_RUNNING slot
  let s := [0, 1].foldl (fun (s : State) h => s.setBoth F.RGR_STATUS_SLOT slot h) s
  let up (s : State) (h v : Nat) : State := (halfCores h).foldl (fun (s : State) k => (s.setRcore k v).setTick k) s
  let s := up s lead 0
  let s := up s (1 - lead) (if bad.testBit 0 || none_ then 2 else 0)
  let s := if bad.testBit 1 || none_ then (List.range 32).foldl (fun (s : State) n => s.setFld F.PRT_STATUS_DISABLED 1 n) s else s
  s.stepDone 4 (if bad = 0 && !none_ then 1 else 2) 0

/-- A stack is excluded: its channels are absent. -/
def State.excludeStack (s : State) (k : Nat) : State :=
  let s := (((s.setFld F.MEM_STATUS_TRAINED 0 k).setFld F.MEM_STATUS_CONSERVATIVE 0 k).setFld F.MEM_STATUS_EXCLUDED 1 k)
  (List.range 32).foldl (fun (s : State) c => s.setFld F.MEM_CH_STATE_STATE 3 (32 * k + c)) s

/-- Bits 0 to 9 that satisfy a test. -/
def stackBits (p : Nat → Bool) : Nat := ((List.range 10).filter p).foldl (fun n k => n + 2 ^ k) 0

/-- A training failure of a stack counts towards its history (Table 11-6). -/
def State.trainFails (s : State) (k : Nat) (first again : Bool) : State := s.unitError 4 k 0 (first.toNat + (first && again).toNat)

/-- A stack after training: bits of `bad` failed their first training, bits of `second` the conservative one that follows. -/
def State.trainStack (s : State) (bad second k : Nat) : State :=
  if 2 ≤ (s.histRec 4 k).cls then s.excludeStack k
  else if bad.testBit k && second.testBit k then (s.trainFails k true true).excludeStack k
  else ((s.trainFails k (bad.testBit k) false).setFld F.MEM_STATUS_TRAINED 1 k).setFlag F.MEM_STATUS_CONSERVATIVE (bad.testBit k || (s.stepMode 5 != 0 && s.pwr.altStacks.testBit k)) k

/-- Stacks that failed train conservatively from the next start on. -/
def State.failStacks (s : State) (bad : Nat) : State := s.onPwr fun p => { p with altStacks := p.altStacks ||| bad % 1024 }

/-- Step 5. -/
def State.bootTrain (s : State) (bad second : Nat) : State :=
  let s := (List.range 10).foldl (fun (s : State) k => s.trainStack bad second k) s
  let cons := stackBits fun k => s.flag F.MEM_STATUS_CONSERVATIVE k
  (s.stepDone 5 (if bad % 1024 = 0 then 1 else 2) cons).failStacks bad

/-- Step 6: an uncorrectable beat is a training failure of its stack, which then trains conservatively. -/
def State.bootZero (s : State) (bad second : Nat) : State :=
  let s := { s with dram := [] }
  let hit (k : Nat) : Bool := bad.testBit k && s.flag F.MEM_STATUS_TRAINED k
  let s := (List.range 10).foldl (fun (s : State) k =>
      if !hit k then s
      else
        let s := s.trainFails k true (second.testBit k)
        if second.testBit k then s.excludeStack k else s.setFld F.MEM_STATUS_CONSERVATIVE 1 k) s
  let s := (List.range 10).foldl (fun (s : State) k => s.setFlag F.MEM_STATUS_RESERVED (s.reservedStack == some k) k) s
  (s.stepDone 6 (if stackBits hit = 0 then 1 else 2) (stackBits hit)).failStacks (stackBits hit)

/-- Step 7: enabled ports begin to train. -/
def State.bootPorts (s : State) : State :=
  ((List.range 32).foldl (fun (s : State) n =>
      s.setFlag F.PRT_STATUS_TRAINING (s.flag F.PRT_CTL_ENABLE n && !s.flag F.PRT_STATUS_DISABLED n) n) s).stepDone 7 1 0

/-- Step 8: the temperature is read, the region references are set (R434); FAILED if the arrays of a region are. -/
def State.bootCal (s : State) : State :=
  if !s.flag F.MET_RES_VALID 0 && !s.flag F.MET_STATUS_REFIN_FAULT then s
  else
    let failed := s.fields.any fun e => e.1 % 1024 == F.MET_CAL_DATA_FAILED.code
    s.stepDone 8 (if failed then 2 else 1) 0

/-! Step 9, ARRCHECK (R120, R434). -/

/-- The start code of an array's trim `k` (TOP, BOT, RWL, SBIAS) at a temperature in 1/64 °C: linear between the factory codes at 25, 60
and 95 °C. -/
def startCode (a k : Nat) (t : Int) : Nat :=
  let c (i : Nat) : Int := ((Config.factoryCode a k i % 1024 : Nat) : Int)
  let v : Int :=
    if t ≤ 1600 then c 0
    else if 6080 ≤ t then c 2
    else if t < 3840 then c 0 + roundFree 434 ((c 1 - c 0) * (t - 1600)) 2240
    else c 1 + roundFree 434 ((c 2 - c 1) * (t - 3840)) 2240
  v.toNat

/-- An array's trims take their start codes. -/
def State.startTrims (s : State) (a : Nat) (t : Int) : State :=
  let s := (s.setFld F.ARR_TRIM_REF_TOP (startCode a 0 t) a).setFld F.ARR_TRIM_REF_BOT (startCode a 1 t) a
  (s.setFld F.ARR_TRIM_READ_RWL (startCode a 2 t) a).setFld F.ARR_TRIM_READ_SBIAS (startCode a 3 t) a

/-- Whether the copy of the side store in use has a valid CRC; one that was never written has. -/
def ArrSt.sideOk (x : ArrSt) : Bool := x.side.isEmpty || (x.side.length == 5188 && crc32 (x.side.take 5184) == fieldAt x.side 5184 4)

/-- An array that a step of the check excludes for good: FAULTY in its record, its core retired (R120, R250). -/
def State.checkFailed (s : State) (a : Nat) : State :=
  ((s.setRec a { s.rec_ a with state := .faulty, fault := 4, intact := true }).arrCommand a 10 0).retireCore (a / 16)

/-- LEVEL_CHECK of an array in MAINT: its class. -/
def State.checkLevels (s : State) (a : Nat) : Nat × State :=
  let s := s.arrCommand a 7 0
  let s := match (s.arr a).cmd with
    | some c => s.arrCommandEnd a c [] [] []
    | none => s
  (s.fld F.ARR_LEVELS_C_CLASS a, s)

/-- The check of an array of an ACTIVE or FILLING row at temperature `t`: whether it passed every step.  What Table 7-9 and R245
explain (an erase or a programming cut short, a lost record, an EMPTY record) leaves the array EXCLUDED for step 10. -/
def State.checkArray (s : State) (t : Int) (c : ArrCheck) : State × Bool :=
  let a := c.arr
  let r := s.rec_ a
  let st := if r.intact then r.state else .erasing
  if st = .faulty then (s, true)
  else
    let s := s.startTrims a t
    if !c.loaded || !(s.arr a).sideOk then (s.checkFailed a, false)
    else if s.flag F.ARR_STATUS_SIDE_STALE a && st ≠ .empty then
      (if st = .valid then s.checkFailed a else s.arrCommand a 10 0, false)
    else
      let p := s.calPasses a t c.m0 c.m1 c.m2
      if !p.2.1 then ((p.1.setFld F.MET_CAL_DATA_FAILED 1 a).calPost a |>.checkFailed a, false)
      else
        let l := p.1.checkLevels a
        match st with
        | .valid => if l.1 = 2 then (l.2.arrCommand a 2 0, true) else (l.2.checkFailed a, false)
        | .empty => if l.1 = 1 then (l.2.setRepair a, true) else (l.2.arrCommand a 10 0, false)
        | _ => (l.2.arrCommand a 10 0, false)

/-- Step 9: every array of an ACTIVE or FILLING row; arrays of which nothing is given load and sweep ideally. -/
def State.bootCheck (s : State) (given : List ArrCheck) : State :=
  let t := s.tempUsed
  let r := s.mappedArrays.foldl (fun (r : State × Bool) a =>
      let q := r.1.checkArray t ((given.find? fun (c : ArrCheck) => c.arr == a).getD ⟨a, true, [], [], []⟩)
      (q.1, r.2 && q.2)) (s, true)
  r.1.stepDone 9 (if r.2 then 1 else 2) 0

/-! Step 10, RECORDS (R244, R245). -/

/-- The start owes an array an erase, after which its record is EMPTY and it needs its chunk. -/
def State.wipeDue (s : State) (a : Nat) : State :=
  let s := if s.mode a = modeMaint then s else s.arrCommand a 1 0
  let s := (s.setRepair a).onWgt fun w => { w with ledger := w.ledger.filter fun e => e.arr != a }
  s.setJob a { stage := .wipe, issued := false, needs := [], mends := [], bad := [], again := false, refresh := false }

/-- Whether the side store in use holds the mend of a ledger entry. -/
def mendHeld (x : ArrSt) (e : LedgerEntry) : Bool :=
  let m := x.mendEntry e.col
  let r := x.mendRow e.mendRow
  m.1 && m.2.1 == e.s32 && m.2.2 == e.mendRow && r.1 && r.2.2 == e.row

/-- The reconciliation of one array of an ACTIVE or FILLING row. -/
def State.reconcile (s : State) (a : Nat) : State :=
  let r := s.rec_ a
  let image := match s.wgt.resident with | some i => tagOf i.image == r.tag | none => false
  if !r.intact then
    let s := s.setRec a { ArrRec.init with repair := true }
    if (s.arr a).levelClassOf = 1 then (if s.mode a = modeExcluded then s.arrCommand a 1 0 else s) else s.wipeDue a
  else match r.state with
    | .faulty => s
    | .empty =>
      if s.fld F.ARR_LEVELS_C_CLASS a = 1 then s
      else (s.onWgt fun w => { w with inconsistent := w.inconsistent + 1 }).wipeDue a
    | .erasing | .programming => s.wipeDue a
    | .valid =>
      let s := s.setAge a (max 8760 (r.ageBase + (s.fld F.CLK_POWERED_HOURS - r.poweredH))) true
      let s := s.loadEps a
      let pend := s.wgt.ledger.filter fun e => e.arr == a && e.state == 2
      if !image then s.wipeDue a
      else if r.ledgerPending && !(pend.all (mendHeld (s.arr a))) then s.wipeDue a
      else
        let s := if r.ledgerPending then s.refreshCommit a else s
        let r' := { s.rec_ a with refreshNext := 0, stamp := none }
        if r' = s.rec_ a then s else s.setRec a r'

/-- Step 10: records, FILLING rows, whose fill is requested again (R42). -/
def State.bootRecords (s : State) : State :=
  let n := s.wgt.inconsistent
  let s := (s.mappedArrays.foldl (fun (s : State) a => s.reconcile a) s).kickJobs
  (if s.relayNeed = 0 then s else s.tellManager).stepDone 10 (if s.wgt.inconsistent = n then 1 else 2) 0

/-! Step 11, WINDOWS (R464). -/

/-- BOOT_ALTERED for a step of this start whose outcome is FAILED or whose mode is not normal. -/
def State.postAltered (s : State) (k : Nat) : State :=
  let d (f : Fld) : Nat := s.fld f k
  if d F.PWR_BOOT_DATA_OUTCOME = 2 || d F.PWR_BOOT_DATA_MODE ≠ 0 then
    s.post 0x00E6 [k, d F.PWR_BOOT_DATA_OUTCOME, d F.PWR_BOOT_DATA_MODE, d F.PWR_BOOT_DATA_DETAIL]
  else s

/-- Step 11: every window opens; altered steps are posted. -/
def State.bootWindows (s : State) : State :=
  let s := (List.range 17).foldl (fun (s : State) fn => s.setWin fn { s.win fn with ready := true }) s
  let s := s.histSettle.stepDone 11 1 0
  let s := s.onPwr fun p => { p with clearAlt := false }
  ((List.range 12).foldl (fun (s : State) k => s.postAltered k) s).setFld F.PWR_BOOT_READY 1

/-- BOOT_STEP_END: the step that runs ends; steps after CLAIM are the leader's. -/
def State.bootStep (s : State) (bad second : Nat) (checks : List ArrCheck) : State :=
  match s.pwr.begun with
  | none => s
  | some k =>
    if s.isOff || (2 < k && s.holder = 0) then s
    else if k = 0 then s.bootRails
    else if k = 1 then s.bootImage bad
    else if k = 2 then s.bootClaim
    else if k = 3 then s.bootVault bad
    else if k = 4 then s.bootLoad bad
    else if k = 5 then s.bootTrain bad second
    else if k = 6 then s.bootZero bad second
    else if k = 7 then s.bootPorts
    else if k = 8 then s.bootCal
    else if k = 9 then s.bootCheck checks
    else if k = 10 then s.bootRecords
    else s.bootWindows

/-- CLEAR_ALT: a write of PWR.BOOT.CLEAR_ALT. -/
def State.clearAltWrite (s : State) (path : Path) : State :=
  let r := s.ownWrite path roleIns false 0x6024
  if r.1 then (r.2.onPwr fun p => { p with clearAlt := true }).recordWrites else r.2

/-! The commands' meanings. -/

/-- BOOT_STEP_END (R462): what the step met: `bad` and `second` by unit, `checks` for step 9. -/
def execBootStepEnd (bad second : Nat) (checks : List ArrCheck) (s : State) : Host.Outcome State Fault Refusal :=
  within (checks.all fun c => decide (c.arr < arrCount)) (s.bootStep bad second checks)
/-- CLEAR_ALT (R463). -/
def execClearAlt (path : Path) (s : State) : Host.Outcome State Fault Refusal := within path.ok (s.clearAltWrite path)

end Sys2Proof.Machine
end

