-- ==== Sys2Proof/Machine/Loading.lean ====
section
/-!
DEFINITION. Loading, cancelling and unloading itineraries, the frame state and its counters as commands see them
(05_itineraries_and_frames R172, R176, R177, R190 to R192, R196; 06_network_and_memory R205; 10_ranger_firmware Table 10-3).
-/

namespace Sys2Proof.Machine

/-- Changes the frame machinery. -/
def State.onFrame (s : State) (f : FrameSt → FrameSt) : State := { s with frame := f s.frame }

/-! The window of a command that waits. -/

/-- The windows of commands not yet answered stay busy (R331). -/
def State.rebusy (s : State) : State :=
  let cs := (s.frame.load.map (·.cmd)).toList ++ s.frame.stops ++ (s.frame.cancel.map (·.1)).toList
  cs.foldl (fun (s : State) c => s.setWin c.fn { s.win c.fn with busy := true }) s

/-- STOP and CANCEL_LOAD are taken beside a LOAD under check of their own window: R172 and R192 say what they do to it (log entry
57). -/
def State.besideLoad (s : State) (c : Mgmt) (act : State → State) : State :=
  let s := match s.frame.load with
    | some l => if l.cmd.fn = c.fn then s.setWin c.fn { s.win c.fn with busy := false } else s
    | none => s
  (act s).rebusy

/-! LOAD (R172, R190 to R192). -/

/-- Whether LOAD's condition on the frame state fails (Table 10-3). -/
def State.loadNotNow (s : State) (switch : Option Nat) : Bool :=
  match s.frame.st with
  | .armed => true
  | .running => switch.isNone
  | .empty => switch.isSome
  | .halted => switch.isSome

/-- The first argument word of LOAD. -/
def switchWord (switch : Option Nat) : Nat := switch.getD 0 % 2 ^ 32

/-- Answers a LOAD with its result record (Table 5-9). -/
def State.loadAnswer (s : State) (l : LoadReq) (code cls : Nat) (f : LoadFail) : State :=
  ({ s with frame := { s.frame with load := none } }).answer l.cmd 0x20 code (switchWord l.switch) (loadRecord code cls f)

/-- Answers a LOAD without one: NOT_NOW or CANCELLED. -/
def State.loadEnd (s : State) (code : Nat) : State :=
  match s.frame.load with
  | some l => ({ s with frame := { s.frame with load := none } }).answer l.cmd 0x20 code (switchWord l.switch)
  | none => s

/-- LOAD is taken: its state, the installer lock, another load, then the check begins (R172). -/
def State.load (s : State) (c : Mgmt) (switch : Option Nat) (bytes : Bytes) : State :=
  let l : LoadReq := { cmd := c, switch := switch, bytes := bytes, start := s.now,
                       pitchCopy := if s.frame.st = .running && s.flag F.NET_PITCH_CTL_PENDING then some (s.pitchCopy 1) else none }
  if s.loadNotNow switch then s.answer c 0x20 0x20 (switchWord switch)
  else if s.locked then s.answer c 0x20 0x02 (switchWord switch) (loadRecord 0x02 0 failHeader)
  else if s.frame.load.isSome || s.frame.repl.isSome then s.answer c 0x20 0x03 (switchWord switch) (loadRecord 0x03 0 failHeader)
  else s.onFrame fun f => { f with load := some l }

/-- What the check of a LOAD sees. -/
def State.loadCtx (s : State) (l : LoadReq) : LoadCtx :=
  { bytes := l.bytes, secs := sectionsOf l.bytes, it := itinOf l.bytes, pitches := l.pitchCopy.getD (s.pitchCopy 0),
    taken := l.pitchCopy.isSome }

/-- The image that an itinerary must be compiled for: the resident one, while RUNNING the running itinerary's as well (R190). -/
def State.loadImage (s : State) : Option Bytes :=
  match s.wgt.resident, s.frame.active with
  | some r, some it => if s.frame.st = .running && r.image != it.imageId then none else some r.image
  | some r, none => some r.image
  | none, _ => none

/-- A container takes the active bank at once (Table 5-11); one whose key/value layout differs drains the part first (R177). -/
def State.loadNow (s : State) (it : Itin) : State :=
  let drains := match s.frame.active with | some old => old.kvLayoutId != it.kvLayoutId | none => false
  let s := if drains then s.unloadItin else s
  s.onFrame fun f => { f with st := .halted, active := some it, tNom := 1000 * it.tNomUs }

/-- Whether a frame number has begun, numbers taken modulo 2^64. -/
def State.hasBegun (s : State) (n : Nat) : Bool := decide ((s.frame.number + 2 ^ 64 - n) % 2 ^ 64 < 2 ^ 63)

/-- A replacement refused with SWITCH_LATE is counted (R192). -/
def State.switchLate (s : State) (l : LoadReq) : State :=
  (s.onFrame fun f => { f with counts := { f.counts with switchLate := sat32 (f.counts.switchLate + 1) } }).loadAnswer l 0x1D 0 failHeader

/-- LOAD_CHECK_END: the first check that fails refuses the container; otherwise its state is judged again, and it takes a bank.  The
operands are what the cycle-level model of R173 finds (log entry 58): 0x15, 0x16 or 0x17 with CLASS, SECTION, RECORD, DETAIL. -/
def State.loadCheckEnd (s : State) (timing cls sec rec detail : Nat) : State :=
  match s.frame.load with
  | none => s
  | some l =>
    if s.holder = 0 || s.paused then s
    else
      let x := s.loadCtx l
      match firstFailure (x.checks s s.loadImage (some (timing, ⟨sec, rec, detail⟩))) with
      | some (code, f) => s.loadAnswer l code (if code = 0x16 then cls else 0) f
      | none =>
        if s.loadNotNow l.switch then s.loadEnd 0x20
        else match l.switch with
          | none => (s.loadNow x.it).loadAnswer l 0 0 ⟨0, 0, 0⟩
          | some n =>
            if s.hasBegun n then s.switchLate l
            else (s.onFrame fun f => { f with repl := some { itin := x.it, switch := n, pitchCopy := l.pitchCopy } }).loadAnswer l 0 0 ⟨0, 0, 0⟩

/-- UNLOAD (R177). -/
def State.unload (s : State) (c : Mgmt) : State :=
  if s.frame.st = .halted then s.unloadItin.answer c 0x21 0 0 else s.answer c 0x21 0x20 0

/-- CANCEL_LOAD (R192): a LOAD under check ends at once; a replacement goes at once, or, where the next boundary begins its switch
frame, once 300 ns have shown that it did not come too late. -/
def State.cancelLoad (s : State) (c : Mgmt) : State :=
  if s.frame.load.isSome then (s.loadEnd 0x21).answer c 0x24 0 0
  else match s.frame.repl with
    | none => s.answer c 0x24 0x23 0
    | some r =>
      if r.switch = (s.frame.number + 1) % 2 ^ 64 then s.onFrame fun f => { f with cancel := some (c, s.now) }
      else (s.onFrame fun f => { f with repl := none }).answer c 0x24 0 0

/-- 300 ns have passed without the boundary: the replacement is discarded. -/
def State.cancelDue (s : State) : State :=
  match s.frame.cancel with
  | some (c, t) => if t + 300 < s.now then (s.onFrame fun f => { f with repl := none, cancel := none }).answer c 0x24 0 0 else s
  | none => s

/-- CLEAR_FRAME_COUNTERS (R196). -/
def State.clearFrameCounters (s : State) (c : Mgmt) : State :=
  (s.onFrame fun f => { f with counts := ⟨0, 0, 0, 0, 0, 0, 0⟩ }).answer c 0x25 0 0

/-- The frame states as READ_FRAME_STATE gives them. -/
def FState.code : FState → Nat
  | .empty => 0
  | .halted => 1
  | .armed => 2
  | .running => 3

/-- READ_FRAME_STATE (R328). -/
def State.readFrameState (s : State) (c : Mgmt) : State :=
  let f := s.frame
  s.answer c 0x26 0 0 (toLe 8 f.st.code ++ toLe 8 f.number ++ toLe 4 ((f.active.map (·.tNomUs)).getD 0)
    ++ toLe 8 ((f.active.map (·.itinId)).getD 0) ++ toLe 8 ((f.repl.map (·.switch)).getD 0))

/-! Pitches that are disabled (R290). -/

/-- Every waymark of a pitch that is no longer enabled is released. -/
def State.pitchesOff (s : State) (was : List Bool) : State :=
  (List.range 16).foldl (fun (s : State) p => if was.getD p false && !s.pitchOn p then s.releaseAll p else s) s

/-- Which pitches are enabled. -/
def State.pitchesOn (s : State) : List Bool := (List.range 16).map s.pitchOn

/-! The commands' meanings. -/

/-- LOAD (R172). -/
def execLoad (c : Mgmt) (switch : Option Nat) (container : Bytes) (s : State) : Host.Outcome State Fault Refusal :=
  within c.ok ((s.mgmt c (partCmd 0x20 roleIns (decide (c.len ≤ 134217728)) true) (switchWord switch) fun s => s.load c switch container).rebusy)
/-- LOAD_CHECK_END (R172). -/
def execLoadCheckEnd (timing cls sec rec detail : Nat) (s : State) : Host.Outcome State Fault Refusal :=
  .next (s.loadCheckEnd timing cls sec rec detail).rebusy
/-- UNLOAD (R177). -/
def execUnload (c : Mgmt) (s : State) : Host.Outcome State Fault Refusal :=
  within c.ok (s.mgmt c (partCmd 0x21 roleIns) 0 fun s => s.unload c)
/-- CANCEL_LOAD (R192). -/
def execCancelLoad (c : Mgmt) (s : State) : Host.Outcome State Fault Refusal :=
  within c.ok (s.besideLoad c fun s => s.mgmt c (partCmd 0x24 roleIns) 0 fun s => s.cancelLoad c)
/-- CLEAR_FRAME_COUNTERS (R196). -/
def execClearFrameCounters (c : Mgmt) (s : State) : Host.Outcome State Fault Refusal :=
  within c.ok (s.mgmt c (partCmd 0x25 roleOpr) 0 fun s => s.clearFrameCounters c)
/-- READ_FRAME_STATE (R328). -/
def execReadFrameState (c : Mgmt) (s : State) : Host.Outcome State Fault Refusal :=
  within c.ok (s.mgmt c (partCmd 0x26 roleOpr) 0 fun s => s.readFrameState c)
/-- APPLY (R205, R290). -/
def execApply (path : Path) (s : State) : Host.Outcome State Fault Refusal :=
  within path.ok ((s.pitchApply path).pitchesOff s.pitchesOn)

end Sys2Proof.Machine
end

