-- ==== Sys2Proof/Machine/Security.lean ====
section
/-!
DEFINITION. Atomic record writes, roles, keys, the installer lock and the audit log (15_update_and_roles R469, R470, R485 to R494,
R497).
-/

namespace Sys2Proof.Machine

/-! The vault's journal (R469, R470). -/

/-- Erase units of the vault. -/
def vaultUnits : Nat := 2048

/-- A unit whose write fails its read-back is replaced from the pool (R470). -/
def State.remap (s : State) (unit : Nat) : State :=
  let n := s.vfld F.VLT_STATUS_POOL_FREE
  if n = 0 then s
  else
    let s := (s.setBoth F.VLT_STATUS_POOL_FREE (n - 1)).count F.VLT_REMAPCNT
    s.onSec fun x => { x with remaps := SMap.put x.remaps unit (808 + (1240 - n)) }

/-- JOURNAL: entries not yet done. -/
def State.showJournal (s : State) : State := s.setFld F.VLT_STATUS_JOURNAL (s.sec.journal.filter fun e => !e.done).length

/-- ATOMIC_RECORD_WRITE: `steps` of its three steps happen before supply is lost, 3 for all of them; with fewer the entry stays in
the journal, of 0 with a CRC that fails.  Units 792 to 807 are written under the diagnostic unlock alone (R490). -/
def State.recordWrite (s : State) (addr : Nat) (data : Bytes) (steps : Nat) (remap : Bool) : State :=
  let unit := addr / 65536
  let maker := decide (792 ≤ unit) && decide (unit < 808)
  if decide (128 ≤ s.sec.journal.length) || (maker && !s.flag F.SEC_LOCK_DIAG) then s
  else
    let e : JEntry := { addr := addr, data := data, gen := s.sec.gen, crcOk := decide (1 ≤ steps), done := false }
    let s := s.onSec fun x => { x with gen := x.gen + 1 }
    let s := if 2 ≤ steps then s.onSec fun x => { x with bytes := Memory.write x.bytes addr data } else s
    let s := if 2 ≤ steps && remap then s.remap unit else s
    if 3 ≤ steps then s.recordWrites else (s.onSec fun x => { x with journal := x.journal ++ [e] }).showJournal

/-! Roles (R486, R488). -/

/-- The first argument word of a command, from its bytes. -/
def argWord (b0 b1 b2 b3 : Nat) : Nat := b0 + 256 * b1 + 65536 * b2 + 16777216 * b3

/-- A command that acts on its own function: no common check but those of LENGTH and payload (R497). -/
def State.fnCommand (s : State) (c : Mgmt) (act : State → State) : State := if s.takes c.fn then act (s.take c.fn) else s

/-- Whether a function is locked out. -/
def State.lockedOut (s : State) (fn : Nat) : Bool := match (s.fnSec fn).lockEnd with | some t => decide (s.now < t) | none => false

/-- A failed ROLE_ASSUME: counted, the eighth in a row locks the function out for 60 s. -/
def State.authFail (s : State) (fn : Nat) : State :=
  let s := s.count F.SEC_AUTHFAILCNT
  let f := s.fnSec fn
  if 8 ≤ f.fails + 1 then
    (s.setFnSec fn { f with fails := 0, lockEnd := some (s.now + 60000000000) }).setFld F.SEC_FN_ROLE_LOCKOUT 1 fn
  else s.setFnSec fn { f with fails := f.fails + 1 }

/-- ROLE_CHALLENGE: a nonce of 32 bytes from the random source, which replaces an earlier one. -/
def State.roleChallenge (s : State) (c : Mgmt) : State :=
  s.fnCommand c fun s =>
    if s.lockedOut c.fn then s.answer c 0x0100 0x01 0
    else
      let d := s.draw
      let n := toLe 32 (d.1 % 2 ^ 256)
      (d.2.setFnSec c.fn { d.2.fnSec c.fn with nonce := some (n, s.now) }).answer c 0x0100 0 0 n

/-- The nonce a function holds, while it is valid: 10 s. -/
def State.nonceOf (s : State) (fn : Nat) : Option Bytes :=
  match (s.fnSec fn).nonce with
  | some (n, t) => if s.now < t + 10000000000 then some n else none
  | none => none

/-- The key that a role request names (NO_KEY of R486 where there is none). -/
def State.authKey (s : State) (fn role idx : Nat) : Option Bytes :=
  if role = 1 then
    match SMap.find? s.sec.opKeys idx with
    | some k => if fn = 0 || k.mask.testBit (fn - 1) then some k.key else none
    | none => none
  else if fn ≠ 0 then none
  else if role = 2 then (SMap.find? s.sec.insKeys idx).map (·.key)
  else if role = 3 && idx < Config.makerKeys && !Config.makerRevoked idx then some (Config.makerKey idx)
  else none

/-- The 12 serial characters (R9). -/
def State.serial (s : State) : Bytes :=
  ([F.GLB_SERIAL_A_CHAR0, F.GLB_SERIAL_A_CHAR1, F.GLB_SERIAL_A_CHAR2, F.GLB_SERIAL_A_CHAR3, F.GLB_SERIAL_B_CHAR0, F.GLB_SERIAL_B_CHAR1,
    F.GLB_SERIAL_B_CHAR2, F.GLB_SERIAL_B_CHAR3, F.GLB_SERIAL_C_CHAR0, F.GLB_SERIAL_C_CHAR1, F.GLB_SERIAL_C_CHAR2,
    F.GLB_SERIAL_C_CHAR3] : List Fld).map fun f => BitVec.ofNat 8 (s.fld f)

/-- ROLE_ASSUME, in the order of R486; `sig` is r and s. -/
def State.roleAssume (s : State) (c : Mgmt) (role idx : Nat) (sig : Bytes) : State :=
  s.fnCommand c fun s =>
    let w := argWord role idx 0 0
    let drop (s : State) : State := s.setFnSec c.fn { s.fnSec c.fn with nonce := none }
    if s.lockedOut c.fn then s.answer c 0x0101 0x01 w
    else if role = 3 && s.locked then (s.authFail c.fn).answer c 0x0101 0x05 w
    else match s.nonceOf c.fn with
      | none => (s.authFail c.fn).answer c 0x0101 0x04 w
      | some n =>
        match s.authKey c.fn role idx with
        | none => ((drop s).authFail c.fn).answer c 0x0101 0x03 w
        | some k =>
          (drop s).engineAsk { use := .role c role idx, key := k, digest := sha384 (n ++ s.serial ++ [BitVec.ofNat 8 c.fn, BitVec.ofNat 8 role]),
                               sig := sig, keyCheck := false }

/-- The engine has answered for ROLE_ASSUME; what barred the role meanwhile still bars it (log entry 53). -/
def State.roleAnswer (s : State) (c : Mgmt) (role idx : Nat) (key : Bytes) (code : Nat) : State :=
  let w := argWord role idx 0 0
  if code ≠ 0 then (s.authFail c.fn).answer c 0x0101 0x02 w (toLe 1 code)
  else if role = 3 && s.locked then (s.authFail c.fn).answer c 0x0101 0x05 w
  else if s.authKey c.fn role idx ≠ some key then (s.authFail c.fn).answer c 0x0101 0x03 w
  else
    let s := (s.setFld F.SEC_FN_ROLE_ROLE role c.fn).setFld F.SEC_FN_ROLE_KEY idx c.fn
    (s.setFnSec c.fn { s.fnSec c.fn with fails := 0, table := role, key := idx }).answer c 0x0101 0 w

/-- ROLE_RELEASE: always answered 0x00; its own entry records the end (R488). -/
def State.roleRelease (s : State) (c : Mgmt) : State :=
  s.fnCommand c fun s =>
    let s := s.answer c 0x0102 0 0
    ((s.setFld F.SEC_FN_ROLE_ROLE 0 c.fn).setFld F.SEC_FN_ROLE_KEY 0 c.fn).setFnSec c.fn { s.fnSec c.fn with table := 0, key := 0 }

/-- LOCKOUT_END: 60 s after a lockout. -/
def State.lockoutEnd (s : State) (fn : Nat) : State :=
  if (s.fnSec fn).lockEnd.isNone || s.lockedOut fn then s
  else (s.setFnSec fn { s.fnSec fn with lockEnd := none, fails := 0 }).setFld F.SEC_FN_ROLE_LOCKOUT 0 fn

/-- NONCE_EXPIRY: 10 s after it was given. -/
def State.nonceExpiry (s : State) (fn : Nat) : State :=
  if (s.nonceOf fn).isSome then s else s.setFnSec fn { s.fnSec fn with nonce := none }

/-! Commands that change vault state (R492, R493). -/

/-- A command that changes vault state ends: its pending entry takes the outcome, the response is written. -/
def State.finish (s : State) (c : Mgmt) (seq code result : Nat) (detail : Bytes := []) : State :=
  (s.auditDone seq (if result = 0 then 0 else 1) result).respond c code result detail

/-- It begins: common results, then its pending entry, then it acts with the entry's SEQ. -/
def State.vaultCmd (s : State) (c : Mgmt) (r : CmdRule) (target : Nat) (detail : Bytes) (act : Nat → State → State) : State :=
  s.mgmt c r target fun s => let p := s.auditPending c.fn r.code target detail; act p.1 p.2

/-! Keys (R487). -/

/-- How many keys a table holds: 1 operator, 2 installer, 4 publisher. -/
def tableSize (table : Nat) : Nat := if table = 1 then 16 else if table = 2 then 4 else if table = 4 then 4 else 0

/-- A key table. -/
def State.keysOf (s : State) (table : Nat) : SMap KeyRec := if table = 4 then s.sec.pubKeys else s.keyTable table

/-- Sets a key table: one atomic record write. -/
def State.setKeys (s : State) (table : Nat) (m : SMap KeyRec) : State :=
  (s.onSec fun x => if table = 1 then { x with opKeys := m } else if table = 2 then { x with insKeys := m } else { x with pubKeys := m }).recordWrites

/-- A key leaves its table; roles it authenticated end at once (R488). -/
def State.dropKey (s : State) (table idx : Nat) : State :=
  if (SMap.find? (s.keysOf table) idx).isNone then s
  else
    let held := (List.range 17).filter fun f => s.roleOf f != 0 && (s.fnSec f).table == table && (s.fnSec f).key == idx
    let s := held.foldl (fun (s : State) f => s.endRole f 0x03) s
    s.setKeys table (SMap.drop (s.keysOf table) idx)

/-- Whether KEY_SET needs no role: the physical function's one setting of installer key 0 while that table is empty. -/
def State.firstKey (s : State) (c : Mgmt) (table idx : Nat) : Bool :=
  c.fn == 0 && table == 2 && idx == 0 && s.sec.insKeys.isEmpty && !s.sec.firstKeyUsed

/-- KEY_SET and PUBKEY_SET: LOCKED, BAD_VALUE, then the key check of the engine (R496). -/
def State.keySet (s : State) (c : Mgmt) (code target table idx mask : Nat) (key : Bytes) : State :=
  let role := if s.firstKey c table idx then 0 else roleIns
  s.vaultCmd c (partCmd code role (c.len == 97) true) target ((sha384 key).take 8) fun seq s =>
    if s.locked then s.finish c seq code 0x05
    else if tableSize table ≤ idx then s.finish c seq code 0x01
    else s.engineAsk { use := .key c table idx mask key seq, key := key, digest := List.replicate 48 0, sig := toBe 48 1 ++ toBe 48 1,
                       keyCheck := true }

/-- The engine has checked a key: it replaces what its index held. -/
def State.keyAnswer (s : State) (c : Mgmt) (table idx mask : Nat) (key : Bytes) (seq code : Nat) : State :=
  let cmd := if table = 4 then 0x0105 else 0x0103
  if code ≠ 0 then s.finish c seq cmd 0x06
  else if s.locked then s.finish c seq cmd 0x05
  else
    let s := s.dropKey table idx
    let s := s.setKeys table (SMap.put (s.keysOf table) idx ⟨key, if table = 1 then mask else 0⟩)
    let s := if table = 2 && idx = 0 && s.roleOf c.fn < roleIns then s.onSec fun x => { x with firstKeyUsed := true } else s
    s.finish c seq cmd 0

/-- KEY_REMOVE and PUBKEY_REMOVE. -/
def State.keyRemove (s : State) (c : Mgmt) (code target table idx : Nat) : State :=
  s.vaultCmd c (partCmd code roleIns) target [] fun seq s =>
    if s.locked then s.finish c seq code 0x05
    else if tableSize table ≤ idx then s.finish c seq code 0x01
    else (s.dropKey table idx).finish c seq code 0

/-! The lock and the diagnostic unlock (R489, R490). -/

/-- LOCK: 1 sets, 0 clears. -/
def State.lockCmd (s : State) (c : Mgmt) (v : Nat) : State :=
  s.vaultCmd c (partCmd 0x0107 roleIns) v [] fun seq s =>
    if 1 < v then s.finish c seq 0x0107 0x01
    else ((s.setBoth F.SEC_LOCK_LOCKED v).recordWrites).finish c seq 0x0107 0

/-- DIAG_UNLOCK. -/
def State.diagUnlock (s : State) (c : Mgmt) : State :=
  s.mgmt c (partCmd 0x0120 roleMkr) 0 fun s =>
    if s.locked then s.answer c 0x0120 0x05 0
    else if s.frame.st = .armed || s.frame.st = .running then s.answer c 0x0120 0x20 0
    else (s.setFld F.SEC_LOCK_DIAG 1).answer c 0x0120 0 0

/-! The audit log (R491 to R494). -/

/-- An entry as its 64 bytes (Table 15-6). -/
def AuditEntry.bytes (e : AuditEntry) (seq : Nat) : Bytes :=
  let b := toLe 8 seq ++ toLe 8 e.frame ++ toLe 8 e.utc ++ toLe 8 e.fingerprint ++ toLe 2 e.action ++ toLe 1 e.fn ++ toLe 1 e.role
    ++ toLe 1 e.result ++ toLe 1 e.code ++ toLe 2 e.count ++ toLe 4 e.target
    ++ (e.detail.take 16 ++ List.replicate (16 - min 16 e.detail.length) 0)
  b ++ toLe 4 (crc32 b)

/-- READ_AUDIT: entries from a SEQ on, as many as LENGTH holds; they count as read. -/
def State.readAudit (s : State) (c : Mgmt) (first : Nat) : State :=
  s.mgmt c (partCmd 0x0108 roleOpr) (first % 2 ^ 32) fun s =>
    let es := (s.sec.log.filter fun e => decide (first ≤ e.1)).take (c.len / 64)
    let next := match es.getLast? with | some e => e.1 + 1 | none => first
    let s := s.onSec fun x => { x with log := x.log.map fun e => if es.any (fun q => q.1 == e.1) then (e.1, { e.2 with read := true }) else e }
    (s.hostOutput c.fn (es.flatMap fun e => e.2.bytes e.1)).answer c 0x0108 0 (first % 2 ^ 32) (toLe 8 next ++ toLe 4 es.length)

/-- READ_KEYS: index, role, mask and fingerprint of each key (layout: log entry 54). -/
def State.readKeysCmd (s : State) (c : Mgmt) : State :=
  s.mgmt c (partCmd 0x0109 roleOpr) 0 fun s =>
    let out := [1, 2].flatMap fun t => (s.keysOf t).flatMap fun e => toLe 1 e.1 ++ toLe 1 t ++ toLe 2 e.2.mask ++ toLe 8 (fingerprint e.2.key)
    (s.hostOutput c.fn out).answer c 0x0109 0 0

/-- AUDIT_FLUSH: the oldest waiting entry goes to the vault and takes its SEQ. -/
def State.auditFlush (s : State) : State :=
  match s.sec.waiting with
  | e :: rest => (s.onSec fun x => { x with waiting := rest }).auditWrite e
  | [] => s

/-! The commands' meanings. -/

/-- ATOMIC_RECORD_WRITE (R469). -/
def execAtomicRecordWrite (addr : Nat) (data : Bytes) (steps : Nat) (remap : Bool) (s : State) : Host.Outcome State Fault Refusal :=
  within (addr + data.length ≤ 65536 * vaultUnits && data.length ≤ 256) (s.recordWrite addr data steps remap)
/-- ROLE_CHALLENGE (R486). -/
def execRoleChallenge (c : Mgmt) (s : State) : Host.Outcome State Fault Refusal := within c.ok (s.roleChallenge c)
/-- ROLE_ASSUME (R486). -/
def execRoleAssume (c : Mgmt) (role idx : Nat) (sig : Bytes) (s : State) : Host.Outcome State Fault Refusal :=
  within c.ok (s.roleAssume c role idx sig)
/-- LOCKOUT_END (R486). -/
def execLockoutEnd (fn : Nat) (s : State) : Host.Outcome State Fault Refusal := within (fn ≤ 16) (s.lockoutEnd fn)
/-- NONCE_EXPIRY (R486). -/
def execNonceExpiry (fn : Nat) (s : State) : Host.Outcome State Fault Refusal := within (fn ≤ 16) (s.nonceExpiry fn)
/-- ROLE_RELEASE (R488). -/
def execRoleRelease (c : Mgmt) (s : State) : Host.Outcome State Fault Refusal := within c.ok (s.roleRelease c)
/-- KEY_SET (R487). -/
def execKeySet (c : Mgmt) (role idx mask : Nat) (key : Bytes) (s : State) : Host.Outcome State Fault Refusal :=
  within c.ok (s.keySet c 0x0103 (role + 256 * idx + 65536 * mask) (if role = 4 then 0 else role) idx mask key)
/-- KEY_REMOVE (R487). -/
def execKeyRemove (c : Mgmt) (role idx : Nat) (s : State) : Host.Outcome State Fault Refusal :=
  within c.ok (s.keyRemove c 0x0104 (argWord role idx 0 0) (if role = 4 then 0 else role) idx)
/-- PUBKEY_SET (R487). -/
def execPubkeySet (c : Mgmt) (idx : Nat) (key : Bytes) (s : State) : Host.Outcome State Fault Refusal :=
  within c.ok (s.keySet c 0x0105 idx 4 idx 0 key)
/-- PUBKEY_REMOVE (R487). -/
def execPubkeyRemove (c : Mgmt) (idx : Nat) (s : State) : Host.Outcome State Fault Refusal :=
  within c.ok (s.keyRemove c 0x0106 idx 4 idx)
/-- LOCK (R489). -/
def execLock (c : Mgmt) (value : Nat) (s : State) : Host.Outcome State Fault Refusal := within c.ok (s.lockCmd c value)
/-- DIAG_UNLOCK (R490). -/
def execDiagUnlock (c : Mgmt) (s : State) : Host.Outcome State Fault Refusal := within c.ok (s.diagUnlock c)
/-- READ_AUDIT (R494). -/
def execReadAudit (c : Mgmt) (first : Nat) (s : State) : Host.Outcome State Fault Refusal := within c.ok (s.readAudit c first)
/-- READ_KEYS (R497). -/
def execReadKeys (c : Mgmt) (s : State) : Host.Outcome State Fault Refusal := within c.ok (s.readKeysCmd c)
/-- AUDIT_FLUSH (R493). -/
def execAuditFlush (s : State) : Host.Outcome State Fault Refusal := .next s.auditFlush

end Sys2Proof.Machine
end

