-- ==== Sys2Proof/Machine/SmBus.lean ====
section
/-!
DEFINITION. The SMBus target (17_electrical_and_package R525, R526; 16_register_map R506).
-/

namespace Sys2Proof.Machine

/-- Updates the SMBus target. -/
def State.onSmb (s : State) (f : SmbSt → SmbSt) : State := { s with smb := f s.smb }

/-- The 7-bit address of the target (Table 17-5). -/
def State.smbAddress (s : State) : Nat := 0x58 + s.smb.addr

/-- Whether the target answers a transaction to an address: it has supply, and no stalled read holds the bus. -/
def State.smbAnswers (s : State) (addr : Nat) : Bool := s.pwr.aon && !s.smb.stalled && addr == s.smbAddress

/-- Whether any cause of SMB_ALERT_N reads 1. -/
def State.alertCause (s : State) : Bool :=
  s.flag F.THM_TEMP_OVER || s.flag F.THM_TRIP_TRIPPED || s.flag F.PWR_STATUS_RAIL_FAULT || s.flag F.PWR_STATUS_CLAMP

/-- Whether SMB_ALERT_N is driven low: from a cause on, until the Alert Response Address has been read and no cause reads 1. -/
def State.alertLow (s : State) : Bool := s.alertCause || s.smb.alert == 1

/-- Whether an offset is good: at most 0x01FF_FFFF and a multiple of 4. -/
def smbOffsetOk (off : Nat) : Bool := decide (off ≤ 0x1FFFFFF) && off % 4 == 0

/-- The target's offset becomes `off`; a bad one is marked. -/
def State.smbSeek (s : State) (off : Nat) : State :=
  let bad := !smbOffsetOk off
  s.onSmb fun x => { x with offset := off, bad := bad, badBit := x.badBit || bad }

/-- The count of a SET_OFFSET: 1 where none is given; outside 1 to 8 the rules give none.  Free there. -/
def smbCount (count : Option Nat) : Nat :=
  match count with
  | none => 1
  | some n => if 1 ≤ n && n ≤ 8 then n else 1 + Config.openValue 526 n % 8

/-- SET_OFFSET. -/
def State.smbSetOffset (s : State) (addr off : Nat) (count : Option Nat) (pec : Bool) : State :=
  if !s.smbAnswers addr || !pec then s else (s.smbSeek off).onSmb fun x => { x with count := smbCount count }

/-- One register over SMBus; reads of LO registers latch HI for this path (R501). -/
def State.smbRegister (s : State) (off : Nat) : State :=
  if off = 0x6104 then s.loRead .smbus false
  else if off = 0x7014 then s.loRead .smbus true
  else { s with readout := s.readReg .smbus off }

/-- READ: `count` registers in ascending order, little-endian; a host that stops clocking stalls it. -/
def State.smbRead (s : State) (addr : Nat) (stall : Bool) : State :=
  if !s.smbAnswers addr then s
  else if stall then s.onSmb fun x => { x with stalled := true }
  else
    let n := s.smb.count
    if s.smb.bad then s.onSmb fun x => { x with out := List.replicate (4 * n) 0 }
    else
      let off := s.smb.offset
      let r := (List.range n).foldl (fun (r : State × Bytes) i =>
          let t := r.1.smbRegister (off + 4 * i)
          (t, r.2 ++ toLe 4 t.readout)) (s, [])
      (r.1.smbSeek (off + 4 * n)).onSmb fun x => { x with out := r.2 }

/-- WRITE_SEL: a selector's SMBus copy; any other write is ignored and marked. -/
def State.smbWriteSel (s : State) (addr off value : Nat) (pec : Bool) : State :=
  if !s.smbAnswers addr || !pec then s
  else
    let sel := match findReg .smbus off with | some (_, _, r, _) => r.isSel | none => false
    if sel && !s.isOff then s.writeReg .smbus off value else s.onSmb fun x => { x with ignored := true }

/-- STATUS: the bits as one byte; bits 0 and 1 are cleared. -/
def State.smbStatus (s : State) (addr : Nat) : State :=
  if !s.smbAnswers addr then s
  else
    let b (x : Bool) (k : Nat) : Nat := if x then 2 ^ k else 0
    let v := b s.smb.ignored 0 + b s.smb.badBit 1 + b s.isOff 2
    { s.onSmb fun x => { x with ignored := false, badBit := false, out := toLe 1 v } with readout := v }

/-- ALERT_RESPONSE: a read of the Alert Response Address, answered while SMB_ALERT_N is driven low with the target's address in bits 7
to 1 (PRESUMED, SMBus; log entry 56). -/
def State.alertResponse (s : State) : State :=
  if !s.pwr.aon || s.smb.stalled || !s.alertLow then s
  else { s.onSmb fun x => { x with alert := if s.alertCause then 2 else 0 } with readout := 2 * s.smbAddress }

/-- SMB_BUS_TIMEOUT: SCL low for 25 to 35 ms; the target releases the bus. -/
def State.smbTimeout (s : State) (lowUs : Nat) : State :=
  if lowUs < 25000 then s else s.onSmb fun x => { x with stalled := false }

/-! The commands' meanings. -/

/-- SET_OFFSET (R526). -/
def execSetOffset (addr off : Nat) (count : Option Nat) (pec : Bool) (s : State) : Host.Outcome State Fault Refusal :=
  .next (s.smbSetOffset addr off count pec)
/-- SMB_READ (R526). -/
def execSmbRead (addr : Nat) (stall : Bool) (s : State) : Host.Outcome State Fault Refusal := .next (s.smbRead addr stall)
/-- WRITE_SEL (R526). -/
def execWriteSel (addr off value : Nat) (pec : Bool) (s : State) : Host.Outcome State Fault Refusal := .next (s.smbWriteSel addr off value pec)
/-- SMB_STATUS (R526). -/
def execSmbStatus (addr : Nat) (s : State) : Host.Outcome State Fault Refusal := .next (s.smbStatus addr)
/-- ALERT_RESPONSE (R525). -/
def execAlertResponse (s : State) : Host.Outcome State Fault Refusal := .next s.alertResponse
/-- SMB_BUS_TIMEOUT (R525). -/
def execSmbBusTimeout (lowUs : Nat) (s : State) : Host.Outcome State Fault Refusal := .next (s.smbTimeout lowUs)

end Sys2Proof.Machine
end

