-- ==== Sys2Proof/Machine/Update.lean ====
section
/-!
DEFINITION. Firmware updates, activation, confirmation (15_update_and_roles R474 to R483) and the answers of the signature engine
(R496).
-/

namespace Sys2Proof.Machine

/-! Refusals (Table 15-3). -/

/-- RELAY_ACTIVE: a relay session, an array being erased or programmed, a row FILLING. -/
def State.relayActive (s : State) : Bool :=
  s.wgt.st != 0 || (s.wgt.recs.any fun e => e.2.state == .erasing || e.2.state == .programming) || s.halfFilling 0 || s.halfFilling 1

/-- The refusals that UPDATE_BEGIN and ACTIVATE share, in their order. -/
def State.updateBars (s : State) : Option Nat :=
  if s.locked then some 0x01
  else if s.flag F.PWR_STATUS_WARN then some 0x02
  else if s.relayActive then some 0x03
  else if s.session ≠ 0 then some 0x04
  else none

/-- Refusals of UPDATE_BEGIN before the signature: `slot` must be the one not confirmed (log entry 55). -/
def State.beginBars (s : State) (slot : Nat) (h : Bytes) : Option Nat :=
  match s.updateBars with
  | some c => some c
  | none =>
    if s.running ≠ s.confirmed || slot ≠ 1 - s.confirmed then some 0x05
    else if !imgHeaderOk h then some 0x06
    else if imgClass h = 1 then none
    else if !imgPartOk h then some 0x07
    else if (imgKey h).isNone then some 0x08
    else none

/-- A command of an update ends: UPD.STATUS.RESULT shows its result, a refusal of Table 15-3 is counted. -/
def State.updEnd (s : State) (c : Mgmt) (seq code result : Nat) (counted : Bool) (detail : Bytes := []) : State :=
  let s := s.setFld F.UPD_STATUS_RESULT result
  let s := if counted && result ≠ 0 then s.count F.UPD_REFUSECNT else s
  s.finish c seq code result detail

/-! Sessions (R474). -/

/-- Sets the session and what UPD.STATUS shows of it. -/
def State.setSession (s : State) (x : Option Session) (v : Nat) : State := (s.onSec fun y => { y with session := x }).setFld F.UPD_STATUS_SESSION v

/-- The version register of a class. -/
def versionFld (cls : Nat) : Fld := if cls = 1 then F.UPD_SLOT_BOOTVER_VERSION else F.UPD_SLOT_RTVER_VERSION

/-- A slot's descriptor for one component: its state, version and, of a runtime image, its configuration format. -/
def State.setComponent (s : State) (slot cls st version format : Nat) (img : Option FwImage) : State :=
  let s := (s.setBoth (slotFld cls) st slot).setBoth (versionFld cls) version slot
  let s := if cls = 2 then s.setBoth F.UPD_SLOT_STATE_CFG_FORMAT format slot else s
  (s.onSec fun x => { x with images := match img with
    | some i => SMap.put x.images (imgAt slot cls) i
    | none => SMap.drop x.images (imgAt slot cls) }).recordWrites

/-- An accepted UPDATE_BEGIN: the other component is copied from the confirmed slot, the one replaced is WRITING. -/
def State.beginAccept (s : State) (c : Mgmt) (seq slot : Nat) (h : Bytes) : State :=
  let cls := imgClass h
  let other := 3 - cls
  let from_ := s.confirmed
  let s := s.setComponent slot other (s.slotState from_ other) (s.vfld (versionFld other) from_) (s.vfld F.UPD_SLOT_STATE_CFG_FORMAT from_)
    (s.image from_ other)
  let s := (s.setBoth (slotFld cls) 1 slot).recordWrites
  let s := s.setSession (some { fn := c.fn, slot := slot, cls := cls, header := h, body := [], seq := seq }) 2
  s.updEnd c seq 0x0110 0 true

/-- UPDATE_BEGIN. -/
def State.updateBegin (s : State) (c : Mgmt) (slot : Nat) (h : Bytes) : State :=
  s.vaultCmd c (partCmd 0x0110 roleIns (c.len == 512) true) slot [] fun seq s =>
    match s.beginBars slot h with
    | some code => s.updEnd c seq 0x0110 code true
    | none =>
      if imgClass h = 1 then s.beginAccept c seq slot h
      else match imgKey h with
        | none => s.updEnd c seq 0x0110 0x08 true
        | some k =>
          let s := s.setSession (some { fn := c.fn, slot := slot, cls := 2, header := h, body := [], seq := seq }) 1
          s.engineAsk (imgRequest (.update c slot h seq) k h)

/-- The engine has answered for UPDATE_BEGIN; a session aborted meanwhile has ended (R476). -/
def State.updateAnswer (s : State) (c : Mgmt) (slot : Nat) (h : Bytes) (seq code : Nat) : State :=
  let mine := match s.sec.session with | some x => x.seq == seq | none => false
  if !mine then (s.auditDone seq 2 codeAborted).respond c 0x0110 codeAborted
  else if code ≠ 0 then (s.setSession none 0).updEnd c seq 0x0110 0x09 true (toLe 1 code)
  else if imgSvn h < s.vfld F.UPD_SVN_MIN_SVN then (s.setSession none 0).updEnd c seq 0x0110 0x0A true
  else s.beginAccept c seq slot h

/-- The session that a function continues: its own, past the check of its header. -/
def State.mySession (s : State) (fn : Nat) : Option Session :=
  match s.sec.session with
  | some x => if x.fn = fn && s.session = 2 then some x else none
  | none => none

/-- UPDATE_DATA: a piece at the offset that follows the last one. -/
def State.updateData (s : State) (c : Mgmt) (off : Nat) (data : Bytes) : State :=
  s.vaultCmd c (partCmd 0x0111 roleIns (decide (c.len ≤ 1048576)) true) off [] fun seq s =>
    match s.mySession c.fn with
    | none => s.updEnd c seq 0x0111 0x0F false
    | some x =>
      if off ≠ x.body.length then s.updEnd c seq 0x0111 0x10 false
      else (s.setSession (some { x with body := x.body ++ data }) 2).updEnd c seq 0x0111 0 false

/-- UPDATE_END: too few bytes leave the session open, a body that fails ends it (log entry 55). -/
def State.updateEnd (s : State) (c : Mgmt) : State :=
  s.vaultCmd c (partCmd 0x0112 roleIns) 0 [] fun seq s =>
    match s.mySession c.fn with
    | none => s.updEnd c seq 0x0112 0x0F false
    | some x =>
      if x.body.length < imgBodyLen x.header then s.updEnd c seq 0x0112 0x12 false
      else if imgBodyLen x.header < x.body.length || (x.cls = 2 && !imgHashesOk x.header x.body) then
        (s.setSession none 0).updEnd c seq 0x0112 0x11 false
      else
        let s := s.setComponent x.slot x.cls 2 (imgVersion x.header) (imgFormat x.header) (some ⟨x.header, x.body⟩)
        (s.setSession none 0).updEnd c seq 0x0112 0 false

/-- UPDATE_ABORT: the component stays WRITING. -/
def State.updateAbort (s : State) (c : Mgmt) : State :=
  s.vaultCmd c (partCmd 0x0113 roleIns) 0 [] fun seq s =>
    match s.mySession c.fn with
    | none => s.updEnd c seq 0x0113 0x0F false
    | some _ => (s.setSession none 0).updEnd c seq 0x0113 0 false

/-- SESSION_ABORTED: while a cause of R476 holds. -/
def State.abortDue (s : State) : State := if s.flag F.PWR_STATUS_WARN || s.wgt.st ≠ 0 then s.sessionAbort else s

/-! Activation (R477 to R480). -/

/-- The configuration format of a slot's runtime image. -/
def State.formatOf (s : State) (slot : Nat) : Nat := s.vfld F.UPD_SLOT_STATE_CFG_FORMAT slot

/-- Whether an activation now needs a pause: RUNNING and not withdrawn. -/
def State.needsPause (s : State) : Bool := s.frame.st == .running && !s.mgr.withdrawn && !s.flag F.SEC_LOCK_DIAG

/-- T_NOM_US of the active itinerary. -/
def State.tNomUs (s : State) : Nat := match s.frame.active with | some it => it.tNomUs | none => 0

/-- Refusals of ACTIVATE. -/
def State.activateBars (s : State) (slot : Nat) : Option Nat :=
  match s.updateBars with
  | some c => some c
  | none =>
    let f := s.formatOf slot
    let now := s.formatOf s.confirmed
    if 1 < slot || s.slotState slot 2 ≠ 2 || slot = s.running then some 0x0B
    else if f ≠ now && f ≠ now + 1 then some 0x0C
    else if s.needsPause && decide (s.tNomUs < 4400) then some 0x0D
    else none

/-- Sets the activation and what UPD.STATUS shows of it. -/
def State.setActivation (s : State) (a : Option Activation) (v : Nat) : State :=
  (s.onSec fun x => { x with activation := a }).setFld F.UPD_STATUS_SESSION v

/-- An activation ends with a result. -/
def State.activationEnd (s : State) (a : Activation) (result : Nat) : State := (s.setActivation none 0).updEnd a.cmd a.seq 0x0114 result false

/-- The new image runs: its slot is RUNNING; a format other than the confirmed one is kept beside it from now on (R481). -/
def State.activated (s : State) (a : Activation) : State :=
  let s := (s.setBoth F.UPD_STATUS_RUNNING a.slot).count F.UPD_ACTCNT
  let s := [0, 1].foldl (fun (s : State) h => s.setBoth F.RGR_STATUS_SLOT a.slot h) s
  let s :=
    if s.formatOf a.slot = s.formatOf s.confirmed then s
    else (s.onSec fun x => { x with converting := some s.now, formatHeld := some (s.formatOf s.confirmed) }).setBoth F.UPD_STATUS_FMT_DUAL 1
  s.activationEnd a 0

/-- The frame whose ready point an activation by pause awaits: the one named, or the first whose ready point is still ahead. -/
def State.pauseFrame (s : State) (frame : Nat) : Nat := max frame (if s.frame.readyPoint then s.frame.number + 1 else s.frame.number)

/-- ACTIVATE: pending until its frame, or a handover at once. -/
def State.activate (s : State) (c : Mgmt) (slot frame : Nat) : State :=
  s.vaultCmd c (partCmd 0x0114 roleIns) slot [] fun seq s =>
    match s.activateBars slot with
    | some code => s.updEnd c seq 0x0114 code true
    | none =>
      let p := s.needsPause
      s.setActivation (some { cmd := c, slot := slot, frame := s.pauseFrame frame, began := if p then none else some s.now,
                              seq := seq }) (if p then 3 else 5)

/-- Whether replays of the part's legs are pending (R478). -/
def State.replayPending (s : State) : Bool := s.mgr.asked.any fun a => !a.clean && !a.refused

/-- Whether the binding notices of every pitch whose entry stage is here have gone out for the next frame (R268, R478). -/
def State.noticesSent (s : State) : Bool :=
  (List.range 16).all fun p => !(s.pitchOn p && s.isEntry p) || s.mgr.pitchOut.contains p || (s.srv p).nextFrame == some (s.frame.number + 1)

/-- The kernel's watchdogs start anew as the cores do. -/
def State.restartCores (s : State) : State :=
  (List.range 8).foldl (fun (s : State) k => if s.rcoreRuns k then s.setTick k else s) { s with irq := { s.irq with refreshed := some s.now } }

/-- ACTIVATION_PAUSE: the pause begins, past the ready point of the frame named or of a later one, with the binding notices sent and no replay pending; `staged`
says that both images in staging met their hashes.  In the pause it is the new image's report that it has started: within
1.2 ms the pause ends with it. -/
def State.activationPause (s : State) (staged : Bool) : State :=
  match s.sec.activation with
  | none => s
  | some a =>
    match s.session, a.began with
    | 3, _ =>
      if s.frame.st ≠ .running || !s.frame.readyPoint || s.frame.number < a.frame || s.replayPending || !s.noticesSent || s.holder = 0 then s
      else
        let ok := staged && (match s.image a.slot 2 with | some i => imgHashesOk i.header i.body | none => true)
        if ok then s.setActivation (some { a with began := some s.now }) 4 else s.activationEnd a 0x0B
    | 4, some t => if s.now < t + 1200000 then s.restartCores.activated a else s
    | _, _ => s

/-- START_FAILED: 1.2 ms into the pause without the new image's report, the running image is restarted (R479). -/
def State.startFailed (s : State) : State :=
  match s.sec.activation with
  | some a =>
    match s.session, a.began with
    | 4, some t => if t + 1200000 ≤ s.now then s.restartCores.activationEnd a 0x0E else s
    | _, _ => s
  | none => s

/-- ACTIVATION_HANDOVER: the follower is reloaded from the new slot, the claim lapses, the follower claims and reloads the other
complex (R480).  The old leader gave its claim up itself, so nothing of it is stale.  An activation that awaited its pause goes by handover once no pause is needed. -/
def State.handover (s : State) : State :=
  match s.sec.activation with
  | some a =>
    if s.session ≠ 5 && (s.session ≠ 3 || s.needsPause) then s
    else
      let lead := if s.holder = 0 then 0 else s.holder - 1
      let up (s : State) (h : Nat) : State := (halfCores h).foldl (fun (s : State) k => (s.setRcore k 0).setTick k) s
      let s := ((up s (1 - lead)).setBelief lead none).setHolder 0
      let s := s.claimLead (1 - lead)
      (up s lead).activated a
  | none => s

/-! Confirmation (R482). -/

/-- SVN of a slot's component; those the part was shipped with have 0 (log entry 2). -/
def State.svnOf (s : State) (slot cls : Nat) : Nat := match s.image slot cls with | some i => imgSvn i.header | none => 0

/-- CONFIRM. -/
def State.confirm (s : State) (c : Mgmt) (slot : Nat) : State :=
  s.vaultCmd c (partCmd 0x0115 roleIns) slot [] fun seq s =>
    let boot := s.slotState slot 1
    if 1 < slot || s.slotState slot 2 ≠ 2 || (boot ≠ 2 && boot ≠ 3) || slot = s.confirmed then s.updEnd c seq 0x0115 0x0B false
    else if s.flag F.PWR_STATUS_WARN then s.updEnd c seq 0x0115 0x02 false
    else
      let s := s.onSec fun x => { x with converting := none }
      let s := (s.setBoth F.UPD_STATUS_CONFIRMED slot).recordWrites
      let svn := max (s.svnOf slot 1) (s.svnOf slot 2)
      let s := if s.vfld F.UPD_SVN_MIN_SVN < svn then (s.setBoth F.UPD_SVN_MIN_SVN svn).recordWrites else s
      let s :=
        if s.formatOf s.running = s.formatOf slot then (s.onSec fun x => { x with formatHeld := none }).setBoth F.UPD_STATUS_FMT_DUAL 0 else s
      s.updEnd c seq 0x0115 0 false

/-- READ_UPDATE: both slot descriptors and the confirmed-slot record (layout: log entry 54). -/
def State.readUpdate (s : State) (c : Mgmt) : State :=
  s.mgmt c (partCmd 0x0116 roleOpr) 0 fun s =>
    let d (k : Nat) : Bytes := toLe 4 (s.slotState k 1 * 2 ^ 28 + s.slotState k 2 * 2 ^ 24 + s.formatOf k) ++ toLe 4 (s.vfld F.UPD_SLOT_BOOTVER_VERSION k)
      ++ toLe 4 (s.vfld F.UPD_SLOT_RTVER_VERSION k)
    s.answer c 0x0116 0 0 (d 0 ++ d 1 ++ toLe 4 s.confirmed)

/-! The signature engine's answers (R496). -/

/-- SIGNATURE_REQUEST: a request of a requester beside those whose commands make theirs themselves. -/
def State.signatureRequest (s : State) (key digest sig : Bytes) : State :=
  s.engineAsk { use := .boot 0, key := key, digest := digest, sig := sig, keyCheck := false }

/-- SIGNATURE_ANSWER: the answer goes to what asked. -/
def State.signatureAnswer (s : State) : State :=
  match s.engineAnswer with
  | none => s
  | some (r, code, s) =>
    match r.use with
    | .role c role idx => s.roleAnswer c role idx r.key code
    | .key c table idx mask key seq => s.keyAnswer c table idx mask key seq code
    | .update c slot h seq => s.updateAnswer c slot h seq code
    | .manifest => s.manifestAnswer r.digest code
    | .boot _ => s

/-! The commands' meanings. -/

/-- UPDATE_BEGIN (R474). -/
def execUpdateBegin (c : Mgmt) (slot : Nat) (header : Bytes) (s : State) : Host.Outcome State Fault Refusal :=
  within c.ok (s.updateBegin c slot header)
/-- UPDATE_DATA (R474). -/
def execUpdateData (c : Mgmt) (off : Nat) (data : Bytes) (s : State) : Host.Outcome State Fault Refusal := within c.ok (s.updateData c off data)
/-- UPDATE_END (R474). -/
def execUpdateEnd (c : Mgmt) (s : State) : Host.Outcome State Fault Refusal := within c.ok (s.updateEnd c)
/-- UPDATE_ABORT (R474). -/
def execUpdateAbort (c : Mgmt) (s : State) : Host.Outcome State Fault Refusal := within c.ok (s.updateAbort c)
/-- SESSION_ABORTED (R476). -/
def execSessionAborted (s : State) : Host.Outcome State Fault Refusal := .next s.abortDue
/-- ACTIVATE (R477). -/
def execActivate (c : Mgmt) (slot frame : Nat) (s : State) : Host.Outcome State Fault Refusal := within c.ok (s.activate c slot frame)
/-- ACTIVATION_PAUSE (R478). -/
def execActivationPause (staged : Bool) (s : State) : Host.Outcome State Fault Refusal := .next (s.activationPause staged)
/-- START_FAILED (R479). -/
def execStartFailed (s : State) : Host.Outcome State Fault Refusal := .next s.startFailed
/-- ACTIVATION_HANDOVER (R480). -/
def execActivationHandover (s : State) : Host.Outcome State Fault Refusal := .next s.handover
/-- CONFIRM (R482). -/
def execConfirm (c : Mgmt) (slot : Nat) (s : State) : Host.Outcome State Fault Refusal := within c.ok (s.confirm c slot)
/-- READ_UPDATE (R497). -/
def execReadUpdate (c : Mgmt) (s : State) : Host.Outcome State Fault Refusal := within c.ok (s.readUpdate c)
/-- SIGNATURE_REQUEST (R496). -/
def execSignatureRequest (key digest sig : Bytes) (s : State) : Host.Outcome State Fault Refusal := .next (s.signatureRequest key digest sig)
/-- SIGNATURE_ANSWER (R496). -/
def execSignatureAnswer (s : State) : Host.Outcome State Fault Refusal := .next s.signatureAnswer

end Sys2Proof.Machine
end

