-- ==== Sys2Proof/Machine/Boundary.lean ====
section
/-!
DEFINITION. The ready point and the frame boundary (05_itineraries_and_frames R174 to R197; 04_core R144, R158, R159;
06_network_and_memory R203; 09_host_interface R309; 11_integrity_and_recovery R352, R363 to R365; 12_links_and_fabric R394 to R407).
Everything of Table 5-13 takes place at t0 (log entry 60).
-/

namespace Sys2Proof.Machine

/-- A boundary as it is accepted: its kind (Table 5-19), the frame it ends and that frame's length, the time base at the boundary
before, whether STOP takes effect, the replacement that switches, the slots withheld, legs stopped, suspect legs. -/
structure Edge where
  kind : Nat
  ended : Nat
  len : Nat
  prev : Nat
  stop : Bool
  switch : Option Replacement
  withheld : List Nat
  stopped : Nat
  suspects : Nat

/-- Whether no binding holds for the frame that begins: the first after START, a STOP, a switch (R177, R193). -/
def Edge.fresh (e : Edge) : Bool := e.kind == 3 || e.stop || e.switch.isSome

/-- Whether the switch drains (R194). -/
def State.drainsAt (s : State) (e : Edge) : Bool :=
  match e.switch, s.frame.active with
  | some r, some it => it.kvLayoutId != r.itin.kvLayoutId
  | _, _ => false

/-! The ready point (R174, R268, R309). -/

/-- What the exit part holds of a bound slot at the ready point: its tag, and its item of the exit report. -/
def State.exitItem (s : State) (p : Nat) (b : Bind) : Option (Req × ExitItem) :=
  match (s.srv p).req b.tag, SMap.find? s.net.exitTokens b.slot with
  | some r, some t => some (r, { slot := b.slot, token := t.1, aux := t.2, ended := r.sub.ends t.1 t.2, held := s.reqHeld r })
  | _, _ => none

/-- Items as a message. -/
def itemFields (is : List ExitItem) : List Nat :=
  is.flatMap fun i => [i.slot, i.token, i.aux, if i.ended then 1 else 0, if i.held then 1 else 0]

/-- The exit stage of a pitch at the ready point: bound exit slots without a token are reported and counted, the others' tokens go
to the requests' entry parts. -/
def State.exitReady (s : State) (p : Nat) : State :=
  let exits := ((s.pitchSlots p).filter (·.exit)).map (·.slot)
  let bound := (s.srv p).binds.filter fun b => exits.contains b.slot
  let missing := (bound.filter fun b => (SMap.find? s.net.exitTokens b.slot).isNone).map (·.slot)
  let s := (s.count F.HIF_TOKMISSCNT missing.length).withholdNotice s.frame.number 5 missing
  let items := (bound.filterMap fun b => s.exitItem p b).filter fun q => q.1.sub.exit && !q.1.sub.entry
  let parts := (items.map (·.1.sub.partner)).eraseDups
  parts.foldl (fun (s : State) part =>
      s.sendMsg part 0x0104 ([p, s.frame.number] ++ itemFields ((items.filter fun q => q.1.sub.partner == part).map (·.2)))) s

/-- READY_POINT: once in a frame, at 0.875 · T_nom. -/
def State.readyPointActs (s : State) : State :=
  if s.frame.st ≠ .running || s.frame.readyPoint || decide (s.frameNs < 875 * s.frame.tNom / 1000) then s
  else
    let s := (s.onFrame fun f => { f with readyPoint := true }).raiseBoth irqReadyPoint
    (List.range 16).foldl (fun (s : State) p => s.exitReady p) s

/-! Legs at t0 (R149, R150, R181, R187). -/

/-- Legs of the frame that run: replays for other parts are none of them. -/
def State.legsRunning (s : State) : Nat :=
  (s.cores.filter fun (c : Nat × CoreSt) => match c.2.run with | some r => r.replay.isNone | none => false).length

/-- Every leg that runs is stopped. -/
def State.stopLegs (s : State) : State :=
  s.cores.foldl (fun (s : State) (c : Nat × CoreSt) => match s.siteCore c.1 with | some core => s.stopLeg c.1 core | none => s) s

/-- Whether leg `i` of a logical core has not started in this frame. -/
def State.unstarted (s : State) (core i : Nat) : Bool :=
  match s.coreSite core with
  | some site => decide ((s.core site).nextLeg ≤ i)
  | none => true

/-- The slots withheld at the boundary that ends the present frame (R187, R363, R364): those of suspect legs without a clean
result, of legs not started, of dependent-failed bindings (R270), those this part has reported, those of the manager's list, at a
self-generated boundary those of pending replays. -/
def State.withheldSlots (s : State) (kind : Nat) : List Nat :=
  match s.frame.active with
  | none => []
  | some it =>
    let n := s.frame.number
    let open' := (s.frame.suspectLegs.filter fun (l : Nat × Nat) => s.openSuspect l.1 l.2).flatMap fun (l : Nat × Nat) => s.legSlots l.1 l.2
    let undone := it.shares.flatMap fun sh =>
      ((List.range sh.legs.length).filter fun i => s.unstarted sh.core i).flatMap fun i => s.legSlots sh.core i
    let own := (s.mgr.own.filter fun (e : Nat × Nat) => e.1 == n).map (·.2)
    let list := if s.mgr.listFrame == some n then s.mgr.list else []
    let pend := if kind = 2 then s.mgr.pendingSlots else []
    let mine := if s.isWhistle then s.withheldList else []
    let failed := s.serve.flatMap fun (x : Nat × ServeSt) => (x.2.binds.filter fun b => x.2.failed.contains b.tag).map (·.slot)
    (open' ++ undone ++ failed ++ own ++ list ++ pend ++ mine).eraseDups

/-- The slots an itinerary declares. -/
def State.allSlots (s : State) : List Nat := (s.frame.active.map fun it => it.slots.map (·.slot)).getD []

/-! Serving (R184 to R187, R304). -/

/-- To whom WITHHELD_REPORT goes (R365): for each pitch whose slots this part carries without its entry stage, the entry parts of its
open requests with the pitch's slots. -/
def State.reportTo (s : State) : List (Nat × List Nat) :=
  (List.range 16).flatMap fun p =>
    let slots := (s.pitchSlots p).map (·.slot)
    if slots.isEmpty || s.isEntry p then []
    else
      let parts := (((s.srv p).reqs.filter fun r => !r.sub.entry).map (·.sub.partner)).eraseDups
      parts.map fun part => (part, slots)

/-- The bindings that end with the frame: pitch, slot, tag. -/
def State.endingBinds (s : State) : List (Nat × Nat × Nat) :=
  s.serve.flatMap fun (x : Nat × ServeSt) => x.2.binds.map fun b => (x.1, b.slot, b.tag)

/-- The entry part's commits and withholds of every pitch, then the completions' messages; queues that have drained are DISABLED
(R311, R320). -/
def State.serveAll (s : State) (e : Edge) (withheld : List Nat) : State :=
  let drains := s.drainsAt e
  let s := if drains then (List.range 16).foldl (fun (s : State) p => s.endAll p 0x05) s else s
  let s := (List.range 16).foldl (fun (s : State) p => s.serveBoundary p e.prev withheld.contains e.fresh (e.kind == 3)) s
  let s := if drains then (List.range 16).foldl (fun (s : State) p => s.releaseAll p) s else s
  let s := s.serve.foldl (fun (s : State) (x : Nat × ServeSt) => s.onSrv x.1 fun v => { v with wmDue := [] }) s
  let s := s.host.queues.foldl (fun (s : State) (q : Nat × QueueSt) => s.completionMsi q.1) s
  s.queuesSettle

/-- A page with an uncorrectable beat (R352): requests whose contexts name it, or that wait for a waymark that does, end with LOST;
such waymarks are released; the page leaves allocation. -/
def State.pageLost (s : State) (p page : Nat) : State :=
  let x := s.srv p
  let names (c : Nat) : Bool := (s.ctxPages p c ((SMap.find? x.ctxs c).getD 0)).contains page
  let wms := (x.wmLive.filter fun (w : Nat × Waymark) => names w.2.ctx).map fun (w : Nat × Waymark) => w.2.handle
  let lost (r : Req) : Bool := (match r.ctx with | some c => names c | none => false) || (r.refDue && wms.contains r.sub.waymark)
  let n := (x.reqs.filter lost).length
  let s := s.onSrv p fun x => { x with
    reqs := x.reqs.map fun r => if lost r && r.ending.isNone then { r with ending := some 0x06 } else r
    releases := x.releases ++ wms.filter fun h => !x.releases.contains h }
  let s := { s with net := { s.net with retiredPages := s.net.retiredPages ++ [(p, page)] } }
  s.post 0x0080 [page, p, n, wms.length]

/-- Every page lost in the frame. -/
def State.pagesLost (s : State) : State :=
  s.net.lostPages.foldl (fun (s : State) (g : Nat × Nat) => if s.net.retiredPages.contains g then s else s.pageLost g.1 g.2) s

/-! Withdrawal (R382, R406). -/

/-- Whether a port that the active itinerary names is down: no admission takes effect then. -/
def State.namedPortDown (s : State) : Bool :=
  match s.frame.active with
  | some it => (List.range 32).any fun n => it.namesPort n && !s.flag F.PRT_STATUS_UP n
  | none => false

/-- WITHDRAWN is posted where a part's state changes. -/
def State.postWithdrawn (s : State) (part : Nat) (was now : Bool) : State :=
  if was == now then s else s.post 0x00A5 [part, if now then 1 else 0]

/-- WITHDRAW and ADMIT take effect; pitches of this entry part whose pipelines name a part that is out are out as well. -/
def State.withdrawals (s : State) : State :=
  let own := match s.mgr.withdrawDue with
    | some true => true
    | some false => s.mgr.withdrawn && s.namedPortDown
    | none => s.mgr.withdrawn
  let due := s.mgr.peerDue
  let out := due.foldl (fun (l : List Nat) (d : Nat × Bool) =>
      let rest := l.filter (· != d.1)
      if d.2 then rest ++ [d.1] else rest) s.mgr.peersOut
  let was := s.mgr.peersOut
  let s := s.onMgr fun m => { m with withdrawn := own, withdrawDue := none, peersOut := out, peerDue := [] }
  let s := s.onMgr fun m => { m with
    pitchOut := (List.range 16).filter fun p => s.isEntry p && (s.srv p).pipeline.any out.contains }
  let named (part : Nat) : Bool := (List.range 16).any fun p => s.isEntry p && (s.srv p).pipeline.contains part
  ((due.map (·.1)).eraseDups.filter named).foldl (fun (s : State) part => s.postWithdrawn part (was.contains part) (out.contains part)) s

/-! Spare maps (R12, R29, R30). -/

/-- The spare maps change: a logical core on a new site is cleared there, its old site carries none. -/
def State.rowsTurn (s : State) : State :=
  if s.wgt.retireDue.isEmpty && !s.halfFilling 0 && !s.halfFilling 1 then s
  else
    let old := (List.range coreCount).map s.coreSite
    let s := s.rowsBoundary
    (List.range coreCount).foldl (fun (s : State) core =>
        let was := (old.getD core none)
        let now := s.coreSite core
        if was = now then s
        else
          let s := match was with
            | some site => ((s.setRun site none).setFld F.CORE_STATUS_NOPITCH 1 site).setFld F.CORE_STATUS_SEQ seqIdle site
            | none => s
          match now with
          | some site => (s.showPitch core (s.corePitch core)).clearDue site
          | none => s) s

/-! Range monitors (R158, R159). -/

/-- The mean in FP32. -/
def RangeMon.mean (m : RangeMon) : Nat :=
  let w := if m.sum = 0 then 0 else fpQuot m.sum.natAbs 0 m.count 0
  if m.sum < 0 then fpNeg w else w

/-- The rms in FP32: √(2^16 · ssq/count). -/
def RangeMon.rms (m : RangeMon) : Nat := if m.ssq = 0 then 0 else fpSqrt (fpQuot (65536 * m.ssq) 0 m.count 0)

/-- Whether a frame's statistics lie outside an envelope. -/
def EnvRec.statBad (e : EnvRec) (m : RangeMon) : Bool :=
  e.enable && m.count != 0 && (fpLt m.mean e.meanLo || fpLt e.meanHi m.mean || fpLt e.rmsHi m.rms)

/-- Fields back at reset everywhere, by their codes. -/
def State.resetFlds (s : State) (fs : List Fld) : State :=
  { s with fields := s.fields.filter fun (e : Nat × Nat) => !fs.any fun f => f.code == e.1 % 1024 }

/-- The fields of a monitor's snapshot. -/
def monFields : List Fld :=
  [F.TST_RM_MIN_MIN, F.TST_RM_MAX_MAX, F.TST_RM_COUNT_COUNT, F.TST_RM_SUM_LO_SUM, F.TST_RM_SUM_HI_SUM, F.TST_RM_SSQ_LO_SSQ,
   F.TST_RM_SSQ_HI_SSQ]

/-- A monitor's snapshot. -/
def State.showMon (s : State) (i : Nat) (m : RangeMon) : State :=
  let sum := ofSigned 64 m.sum
  let s := ((s.setFld F.TST_RM_MIN_MIN (ofSigned 32 m.min) i).setFld F.TST_RM_MAX_MAX (ofSigned 32 m.max) i).setFld F.TST_RM_COUNT_COUNT m.count i
  let s := (s.setFld F.TST_RM_SUM_LO_SUM (sum % 2 ^ 32) i).setFld F.TST_RM_SUM_HI_SUM (sum / 2 ^ 32) i
  (s.setFld F.TST_RM_SSQ_LO_SSQ (m.ssq % 2 ^ 32) i).setFld F.TST_RM_SSQ_HI_SSQ (m.ssq / 2 ^ 32) i

/-- One monitor at the boundary: its statistics against its envelope, its snapshot. -/
def State.monTurn (s : State) (site m : Nat) (q : RangeMon) : State :=
  let s := s.showMon (256 * site + m) q
  match (s.siteCore site).bind fun core => s.envRec core m with
  | some e => if e.statBad q then (s.count F.TST_RMSTATCNT 1 site).raiseRow irqStat site else s
  | none => s

/-- The monitors' quantities of frame `n` move to the snapshot, and the monitors restart empty. -/
def State.monitorsTurn (s : State) (n : Nat) : State :=
  let s := s.resetFlds monFields
  let s := s.cores.foldl (fun (s : State) (c : Nat × CoreSt) =>
      let t := c.2.mons.foldl (fun (s : State) (m : Nat × RangeMon) => s.monTurn c.1 m.1 m.2) s
      t.setCore c.1 { t.core c.1 with mons := [] }) s
  s.onFrame fun f => { f with snapFrame := n }

/-! Networks (R203, R309, R391). -/

/-- Incomplete barriers are discarded, each counted; what the frame's transfers have brought is over. -/
def State.networksTurn (s : State) : State :=
  let s := s.count F.NET_BARERRCNT s.net.barriers.length
  { s with net := { s.net with barriers := [], exitTokens := [], lostPages := [] }, fab := { s.fab with arrived := [] } }

/-- Staged prompt tokens of the frame that begins stay, unless no binding holds for it (R308). -/
def State.stagedTurn (s : State) (fresh : Bool) : State :=
  { s with host := { s.host with staged := if fresh then [] else s.host.staged.filter fun t => t.frame == s.frame.number } }

/-! Switch, STOP, CANCEL_LOAD (R177, R191 to R194). -/

/-- The replacement becomes active in every core: new banks, T_nom and pitches; watchdogs restart (Table 5-17). -/
def State.switchNow (s : State) (r : Replacement) : State :=
  let was := s.pitchesOn
  let s := s.onFrame fun f => { f with active := some r.itin, tNom := 1000 * r.itin.tNomUs, bank := 1 - f.bank, repl := none }
  let s := match r.pitchCopy with | some cp => (s.pitchCurrent cp).pitchesOff was | none => s
  (List.range 8).foldl (fun (s : State) k => if s.rcoreRuns k then s.setTick k else s) s

/-- What waits for this boundary is answered: a CANCEL_LOAD that came too late, at a STOP a LOAD under check; a LOAD whose switch
frame begins ends with SWITCH_LATE; a replacement beyond a STOP is discarded. -/
def State.loadsTurn (s : State) (e : Edge) : State :=
  let s := match s.frame.cancel with
    | some (c, _) => (s.onFrame fun f => { f with cancel := none }).answer c 0x24 0x22 0
    | none => s
  let s := if e.stop then s.loadEnd 0x20 else s
  let s := if e.stop then s.onFrame fun f => { f with repl := none } else s
  match s.frame.load with
  | some l => if l.switch == some s.frame.number then s.switchLate l else s
  | none => s

/-- The STOPs that waited are answered once the state is HALTED. -/
def State.stopsAnswer (s : State) : State :=
  let cs := s.frame.stops
  cs.foldl (fun (s : State) c => s.answer c 0x23 0 0) (s.onFrame fun f => { f with stops := [] })

/-! Legs of the frame that begins (R141, R144, R149, R237). -/

/-- Whether a core's arrays are being programmed. -/
def State.programming (s : State) (site : Nat) : Bool :=
  s.wgt.jobs.any fun (e : Nat × Job) => e.1 / 16 == site && !e.2.refresh && e.2.stage != .wipe

/-- A core of a share waits for its first leg; one that is being programmed runs none. -/
def State.armCore (s : State) (sh : Share) : State :=
  match s.coreSite sh.core with
  | none => s
  | some site =>
    if s.programming site then s.setCore site { s.core site with nextLeg := sh.legs.length }
    else if sh.legs.isEmpty || s.clearing site then s
    else s.setFld F.CORE_STATUS_SEQ seqArmed site

/-- Counters and tile selectors are 0, sequencers have the boundary; `old` are the shares of the frame that ended. -/
def State.legsTurn (s : State) (old : List Share) : State :=
  let s := s.resetFlds [F.CORE_CTR_DATA_VALUE, F.CORE_CTR_DATA_SAT]
  let s := s.cores.foldl (fun (s : State) (c : Nat × CoreSt) => s.setCore c.1 { s.core c.1 with run := none, nextLeg := 0, tiles := 0 }) s
  let s := old.foldl (fun (s : State) sh =>
      match s.coreSite sh.core with
      | some site => if s.clearing site then s else s.setFld F.CORE_STATUS_SEQ seqIdle site
      | none => s) s
  if s.frame.st = .running then ((s.frame.active.map (·.shares)).getD []).foldl (fun (s : State) sh => s.armCore sh) s else s

/-! Managers (R363, R394, R395, R402, R407). -/

/-- Whether this part acts as a manager. -/
def State.isManager (s : State) : Bool := s.isWhistle || s.isRack

/-- Whether it stands by for a manager and does not act as one. -/
def State.isStandby (s : State) : Bool :=
  (s.fld F.GLB_STRAPS_MODE == 3 || s.mgr.stoodDown) && !s.isManager && s.partNum != 0xFFFF
    && (s.fld F.PRT_STBYCFG_SYSSTBY == s.partNum || s.fld F.PRT_STBYCFG_RACKSTBY == s.partNum)

/-- What the managers' state keeps of the frame that ended, and what takes effect with the one that begins. -/
def State.tallyTurn (s : State) (withheld : List Nat) (binds : List (Nat × Nat × Nat)) : State :=
  let back := s.mgr.rejoin
  let s := back.foldl (fun (s : State) i => s.setFld F.PRT_DOM_DATA_ABSENT 0 i) s
  let n := s.frame.number
  let rack := s.isRack
  let out := s.isManager && s.mgr.outEn
  let now := s.now
  let s := s.onMgr fun m => { m with
    map := m.mapNext.getD m.map, mapNext := none, asked := [], replaying := [], units := [], decided := [], dependents := [],
    heldCtrs := [], pendingSlots := [], list := [], listFrame := none, listSent := false, ready := [], acks := [], readySent := none,
    own := m.own.filter fun (e : Nat × Nat) => e.1 == n, notices := m.notices.filter fun (e : Nat × Nat) => e.1 == n, rejoin := [],
    absentRun := m.absentRun.filter fun (e : Nat × Nat) => !back.contains e.1, withheldLast := withheld, lastBinds := binds,
    rollIn := if rack then m.rollIn - 1 else m.rollIn, outRise := if out then some now else m.outRise }
  (s.setFld F.PRT_TALLY_READY 0).setFld F.PRT_TALLY_ACKS 0

/-- BEAT to the standby, whistle messages to the domain. -/
def State.managerSends (s : State) : State :=
  let n := s.frame.number
  let beat := [s.mgr.nextRoll, s.mgr.rollIn]
  let s := if s.isRack then s.sendCtl (s.fld F.PRT_STBYCFG_RACKSTBY) 4 n beat
    else if s.isWhistle then s.sendCtl (s.fld F.PRT_STBYCFG_SYSSTBY) 4 n beat
    else s
  if s.isWhistle && s.mgr.msgEn then
    (s.entries.filter fun i => s.entryPart i != s.partNum).foldl (fun (s : State) i => s.sendCtl (s.entryPart i) 1 n) s
  else s

/-- Self-generated boundaries in a row at a standby: at the second without a BEAT since the first it takes over. -/
def State.standbyWatch (s : State) (kind : Nat) : State :=
  if kind ≠ 2 then s.onMgr fun m => { m with selfRun := 0 }
  else if s.mgr.selfRun = 0 || s.mgr.beat then s.onMgr fun m => { m with selfRun := 1, beat := false }
  else if s.isStandby then s.takeOver
  else s

/-! The boundary. -/

/-- The frame number advances and the frame timer restarts; the first boundary after START begins the frame it named (R175, R176). -/
def State.frameTurns (s : State) (e : Edge) : State :=
  s.onFrame fun f => { f with
    st := if e.stop then .halted else .running, number := if e.kind = 3 then f.startFrame else (f.number + 1) % 2 ^ 64,
    t0 := s.now, cyc0 := s.cyc, held := false, afterSelf := e.kind == 2, readyPoint := false,
    suspects := 0, suspectLegs := [], endedLegs := [], stoppedLegs := [], suppressed := [], waitingAtStop := [] }

/-- The frame report (Table 5-19), in place of the one written 1,024 boundaries ago. -/
def State.writeReport (s : State) (e : Edge) (withheld : Nat) : State :=
  let manager := s.isManager
  let at_ := s.time
  s.onFrame fun f =>
    let c := f.counts
    let flags := (if e.switch.isSome then 1 else 0) + (if manager then 2 else 0) + (if e.stop then 4 else 0)
    let r : FrameReport := {
      frame := f.number, boundaryNs := at_, lengthNs := e.len, kind := e.kind, flags := flags, withheld := min withheld 65535,
      stopped := e.stopped, suspect := e.suspects, early := c.early, self := c.self, stray := c.stray, foreign := c.foreign,
      ignored := c.ignored, withheldTotal := c.withheldTotal, switchLate := c.switchLate }
    { f with ring := SMap.put f.ring (f.number % 1024) r }

/-- What a boundary finds as it is accepted. -/
def State.edgeOf (s : State) (kind running : Nat) : Edge :=
  let next := if kind = 3 then s.frame.startFrame else (s.frame.number + 1) % 2 ^ 64
  { kind := kind, ended := s.frame.number, len := if kind = 3 then 0 else min s.frameNs (2 ^ 32 - 1),
    prev := s.time - s.frameNs, stop := !s.frame.stops.isEmpty,
    switch := match s.frame.repl with | some r => if r.switch = next then some r else none | none => none,
    withheld := if kind = 3 then [] else s.withheldSlots kind, stopped := running, suspects := s.frame.suspects }

/-- The commit stage and what changes with the frame, in the order of Table 5-13. -/
def State.turn (s : State) (e : Edge) : State :=
  let reports := if e.kind = 3 then [] else s.reportTo
  let binds := s.endingBinds
  let old := (s.frame.active.map (·.shares)).getD []
  let wasOut := s.mgr.withdrawn
  let s := s.frameTurns e
  let c := s.commitRequest
  let withheld := if e.kind ≠ 3 && !c.1 then s.allSlots else e.withheld
  let s := c.2.queuesReturn.withdrawals
  let s := s.pagesLost.rowsTurn
  let s := s.postWithdrawn s.partNum wasOut s.mgr.withdrawn
  let s := s.serveAll e withheld
  let s := s.histSettle.networksTurn
  let s := if e.kind = 3 then s else s.monitorsTurn e.ended
  let s := match e.switch with | some r => s.switchNow r | none => s
  let s := s.loadsTurn e
  let s := s.onFrame fun f => { f with counts := { f.counts with withheldTotal := sat32 (f.counts.withheldTotal + withheld.length) } }
  let s := if c.1 then s.writeReport e withheld.length else s
  let s := (s.legsTurn old).stagedTurn e.fresh
  let s := (s.tallyTurn withheld binds).managerSends
  let s := reports.foldl (fun (s : State) (r : Nat × List Nat) => s.sendMsg r.1 0x0105 (e.ended :: withheld.filter r.2.contains)) s
  (s.standbyWatch e.kind).stopsAnswer

/-- The boundary (R179, R181): of kind 0 by a whistle in the window, 1 held, 2 self-generated, 3 the first after START.  A rail fault
that waits acts last (R445). -/
def State.boundary (s : State) (kind : Nat) : State :=
  let s := if kind = 3 then s else s.readyPointActs
  let n := s.legsRunning
  let s := s.stopLegs
  let s := (s.turn (s.edgeOf kind n)).raiseBoth irqBoundary
  match s.pwr.faultDue with
  | some i => s.railFaultNow i
  | none => s

end Sys2Proof.Machine
end

