-- ==== Sys2Proof/Machine/Whistle.lean ====
section
/-!
DEFINITION. START, STOP, whistles and ready reports (05_itineraries_and_frames R175 to R180; 12_links_and_fabric R394 to R398, R402).
-/

namespace Sys2Proof.Machine

/-! START and STOP (R176, R177). -/

/-- Idle is left for Active before START acts (R451). -/
def State.wakeForStart (s : State) : State :=
  if s.fld F.PWR_STATUS_STATE = 1 then
    (((s.onPwr fun p => { p with change := none }).setFld F.PWR_STATUS_CHANGING 0).setFld F.PWR_STATUS_STATE 0).raiseBoth 334 |>.post 0x00E5 [0]
  else s

/-- What START does for managers: the whistle settings take effect (R395), the managers are named, a manager takes the next epoch
(R401), roll calls are numbered from 0 (R367), replay maps go out (R403). -/
def State.startManagers (s : State) : State :=
  let s := s.nameManagers
  let s := if s.isManager then s.setFld F.PRT_MGREPOCH_EPOCH (s.fld F.PRT_MGREPOCH_EPOCH + 1) else s
  let s := s.onMgr fun m => { m with
    source := s.fld F.PRT_WHISTLE_SOURCE, outEn := s.flag F.PRT_WHISTLE_OUT_EN, msgEn := s.flag F.PRT_WHISTLE_MSG_EN, nextRoll := 0,
    rollIn := s.fld F.PRT_ROLLCALL_FRAMES, rolls := [], ready := [], acks := [], own := [], notices := [], listSent := false, list := [],
    listFrame := none, selfRun := 0, readySent := none, absentRun := [] }
  ((s.setFld F.PRT_TALLY_READY 0).setFld F.PRT_TALLY_ACKS 0).sendMaps

/-- START: HALTED becomes ARMED for the frame named; refused in Doze and while DIAG is 1 (R176, R451, R490). -/
def State.start (s : State) (c : Mgmt) (frame : Nat) : State :=
  if s.frame.st ≠ .halted || s.flag F.SEC_LOCK_DIAG || decide (2 ≤ s.fld F.PWR_STATUS_STATE) then s.answer c 0x22 0x20 (frame % 2 ^ 32)
  else
    let s := s.wakeForStart.startManagers
    let s := s.onFrame fun f => { f with st := .armed, startFrame := frame % 2 ^ 64, held := false, afterSelf := false }
    s.answer c 0x22 0 (frame % 2 ^ 32)

/-- STOP: ARMED is HALTED at once; RUNNING waits for the next boundary. -/
def State.stop (s : State) (c : Mgmt) : State :=
  match s.frame.st with
  | .empty => s.answer c 0x23 0x20 0
  | .halted => s.answer c 0x23 0x20 0
  | .armed => (s.onFrame fun f => { f with st := .halted }).answer c 0x23 0 0
  | .running => s.onFrame fun f => { f with stops := f.stops ++ [c] }

/-! Whistles (R178, R179, Table 5-12). -/

/-- Changes the report's counters. -/
def State.onFrameCounts (s : State) (f : FrameCounts → FrameCounts) : State := s.onFrame fun x => { x with counts := f x.counts }

/-- Counts STRAY. -/
def State.stray (s : State) : State := s.onFrameCounts fun c => { c with stray := sat32 (c.stray + 1) }
/-- Counts FOREIGN. -/
def State.foreign (s : State) : State := s.onFrameCounts fun c => { c with foreign := sat32 (c.foreign + 1) }

/-- Whether the frame timer lies within the stray window after a self-generated boundary. -/
def State.inStray (s : State) : Bool := s.frame.afterSelf && decide (4 * s.frameNs ≤ s.frame.tNom)
/-- Whether the window has opened, at 0.875 · T_nom. -/
def State.windowOpen (s : State) : Bool := decide (7 * s.frame.tNom ≤ 8 * s.frameNs)
/-- Whether it has opened at this very instant. -/
def State.windowOpens (s : State) : Bool := 8 * s.frameNs == 7 * s.frame.tNom
/-- Whether it has not closed, at 1.25 · T_nom. -/
def State.windowHolds (s : State) : Bool := decide (4 * s.frameNs ≤ 5 * s.frame.tNom)

/-- A whistle of the chosen source arrives while RUNNING; `number` is that of a whistle message. -/
def State.whistleRunning (s : State) (number : Option Nat) : State :=
  let foreign := match number with | some n => n != (s.frame.number + 1) % 2 ^ 64 | none => false
  if foreign then
    if s.inStray && number == some s.frame.number then s.stray else s.foreign
  else if s.inStray then s.stray
  else if !s.windowOpen then (s.onFrameCounts fun c => { c with early := sat32 (c.early + 1) }).onFrame fun f => { f with held := true }
  else if !s.windowHolds then s
  else s.boundary (if s.frame.held && s.windowOpens then 1 else 0)

/-- A whistle of the chosen source arrives: ignored and counted in EMPTY and HALTED; in ARMED it begins the first frame, a message only
with the number that START named. -/
def State.whistleArrives (s : State) (number : Option Nat) : State :=
  match s.frame.st with
  | .empty => s.onFrameCounts fun c => { c with ignored := sat32 (c.ignored + 1) }
  | .halted => s.onFrameCounts fun c => { c with ignored := sat32 (c.ignored + 1) }
  | .armed => match number with
    | some n => if n = s.frame.startFrame then s.boundary 3 else s.foreign
    | none => s.boundary 3
  | .running => s.whistleRunning number

/-- WHISTLE_IN high for a number of samples (R396): eight are an edge. -/
def State.whistleEdge (s : State) (samples : Nat) : State :=
  if samples = 0 then s
  else if samples < 8 then s.count F.PRT_WGLITCHCNT
  else
    let s := s.count F.PRT_WPINCNT
    if s.mgr.source = 0 then s.whistleArrives none else s

/-- WHISTLE, a control message of the whistling manager; it counts for nothing while WHISTLE_IN is the source. -/
def State.whistleMsg (s : State) (src epoch frame : Nat) : State :=
  s.fromMgr s.whistleMgr src epoch fun s => if s.mgr.source = 1 then s.whistleArrives (some frame) else s

/-- WINDOW_OPEN: a held early whistle is accepted at 0.875 · T_nom. -/
def State.windowOpening (s : State) : State :=
  if s.frame.st = .running && s.frame.held && s.windowOpen then s.boundary 1 else s

/-- SELF_WHISTLE: no whistle by the end of 1.25 · T_nom. -/
def State.selfWhistle (s : State) : State :=
  if s.frame.st = .running && decide (5 * s.frame.tNom ≤ 4 * s.frameNs) then
    (s.onFrameCounts fun c => { c with self := sat32 (c.self + 1) }).boundary 2
  else s

/-! Ready reports (R180, R402). -/

/-- Whether every leg of a share has ended in this frame; a core that is LOST runs none. -/
def State.shareEnded (s : State) (sh : Share) : Bool :=
  match s.coreSite sh.core with
  | none => true
  | some site =>
    let c := s.core site
    decide (sh.legs.length ≤ c.nextLeg) && (match c.run with | some r => r.replay.isSome | none => true)

/-- Whether every leg of the frame has ended and no replay of its legs is pending, nor a suspect report that would ask for one. -/
def State.ownReady (s : State) : Bool :=
  ((s.frame.active.map (·.shares)).getD []).all s.shareEnded
    && s.mgr.asked.all (fun a => a.clean || a.refused)
    && (s.holder == 0 || s.frame.reports.all fun r => r.frame != s.frame.number)

/-- READY_REPEAT: READY to the whistling manager, again every 4 µs. -/
def State.readyRepeat (s : State) : State :=
  let due := match s.mgr.readySent with | some t => decide (t + 4000 ≤ s.now) | none => true
  if s.frame.st ≠ .running || !s.ownReady || s.paused || s.whistleMgr = 0xFFFF || s.whistleMgr = s.partNum || !due then s
  else
    let now := s.now
    (s.onMgr fun m => { m with readySent := some now }).sendCtl s.whistleMgr 2 s.frame.number [s.fld F.PWR_STATUS_DEGRADED]

/-! The whistling manager (R180, R363, R402). -/

/-- An entry without READY at two of the manager's whistles in a row is ABSENT and withdrawn. -/
def State.absentEntry (s : State) (i : Nat) : State :=
  let n := SMap.get 0 s.mgr.absentRun i + 1
  let s := s.onMgr fun m => { m with absentRun := SMap.put m.absentRun i n }
  if n < 2 then s else s.dropEntry i

/-- The tally at the manager's whistle. -/
def State.absences (s : State) : State :=
  let late := s.tallied.filter fun i => !s.mgr.ready.contains i
  let s := s.onMgr fun m => { m with absentRun := m.absentRun.filter fun (e : Nat × Nat) => late.contains e.1 }
  late.foldl (fun (s : State) i => s.absentEntry i) s

/-- Whether this part's own entry, if it has one, is ready. -/
def State.selfReady (s : State) : Bool := (s.entryOf s.partNum).isNone || s.ownReady

/-- Whether R180 lets the manager whistle: T_nom has passed, every READY is in, and a list that is not empty has been acknowledged by
every part (R363); or 1.25 · T_nom − 2 µs have passed. -/
def State.mayWhistle (s : State) : Bool :=
  (decide (s.frame.tNom ≤ s.frameNs) && s.allReady && s.selfReady && (s.withheldList.isEmpty || (s.mgr.listSent && s.allAcked)))
    || decide (5 * s.frame.tNom ≤ 4 * (s.frameNs + 2000))

/-- MANAGER_WHISTLE: the manager's own whistle is its boundary; in ARMED it begins the first frame. -/
def State.managerWhistle (s : State) : State :=
  if !s.isWhistle then s
  else match s.frame.st with
    | .empty => s
    | .halted => s
    | .armed => s.boundary 3
    | .running =>
      let s := s.listTry
      if s.mayWhistle then s.absences.boundary 0 else s

/-! The clock (log entry 1). -/

/-- What one nanosecond without a command does. -/
def State.idle (s : State) : State := s.tick.cancelDue

/-! The commands' meanings. -/

/-- START (R176). -/
def execStart (c : Mgmt) (frame : Nat) (s : State) : Host.Outcome State Fault Refusal :=
  within c.ok (s.mgmt c (partCmd 0x22 roleOpr) (frame % 2 ^ 32) fun s => s.start c frame)
/-- STOP (R176). -/
def execStop (c : Mgmt) (s : State) : Host.Outcome State Fault Refusal :=
  within c.ok (s.besideLoad c fun s => s.mgmt c (partCmd 0x23 roleOpr) 0 fun s => s.stop c)
/-- WHISTLE_IN_EDGE (R396): samples of WHISTLE_IN high in a row. -/
def execWhistleInEdge (samples : Nat) (s : State) : Host.Outcome State Fault Refusal := .next (s.whistleEdge samples).rebusy
/-- WHISTLE (R394). -/
def execWhistle (src epoch frame : Nat) (s : State) : Host.Outcome State Fault Refusal := .next (s.whistleMsg src epoch frame).rebusy
/-- WINDOW_OPEN (R178). -/
def execWindowOpen (s : State) : Host.Outcome State Fault Refusal := .next s.windowOpening.rebusy
/-- SELF_WHISTLE (R178). -/
def execSelfWhistle (s : State) : Host.Outcome State Fault Refusal := .next s.selfWhistle.rebusy
/-- MANAGER_WHISTLE (R180). -/
def execManagerWhistle (s : State) : Host.Outcome State Fault Refusal := .next s.managerWhistle.rebusy
/-- READY_POINT (R174). -/
def execReadyPoint (s : State) : Host.Outcome State Fault Refusal := .next s.readyPointActs
/-- READY_REPEAT (R180). -/
def execReadyRepeat (s : State) : Host.Outcome State Fault Refusal := .next s.readyRepeat

end Sys2Proof.Machine
end

