-- ==== Sys2Proof/Machine/Dispatch.lean ====
section
/-!
DEFINITION. The dispatch: one arm per command, each a direct call of its meaning.
-/

namespace Sys2Proof.Machine

/-- The effect of a command on everything but the queue. -/
def exec (i : Instr) (s : State) : Host.Outcome State Fault Refusal :=
  match i with
  | .registerWrite path addr value => Sys2Proof.Machine.execRegisterWrite path addr value s
  | .rcCounterRead path addr => Sys2Proof.Machine.execRcCounterRead path addr s
  | .timeLoRead path audit => Sys2Proof.Machine.execTimeLoRead path audit s
  | .enterMaint arr tag => Sys2Proof.Machine.execEnterMaint arr tag s
  | .leaveMaint arr tag => Sys2Proof.Machine.execLeaveMaint arr tag s
  | .erase arr tag => Sys2Proof.Machine.execErase arr tag s
  | .programRows arr tag => Sys2Proof.Machine.execProgramRows arr tag s
  | .refreshRows arr tag => Sys2Proof.Machine.execRefreshRows arr tag s
  | .verifyRow arr tag => Sys2Proof.Machine.execVerifyRow arr tag s
  | .levelCheck arr tag => Sys2Proof.Machine.execLevelCheck arr tag s
  | .refSweep arr tag => Sys2Proof.Machine.execRefSweep arr tag s
  | .writeSide arr tag => Sys2Proof.Machine.execWriteSide arr tag s
  | .exclude arr tag => Sys2Proof.Machine.execExclude arr tag s
  | .arrayCommandEnd arr reads finals sweep => Sys2Proof.Machine.execArrayCommandEnd arr reads finals sweep s
  | .vppOutOfRegulation => Sys2Proof.Machine.execVppOutOfRegulation s
  | .nop core h => Sys2Proof.Machine.execNop core h s
  | .resetCtr core h ctr => Sys2Proof.Machine.execResetCtr core h ctr s
  | .flip core h tile => Sys2Proof.Machine.execFlip core h tile s
  | .barrier core h id participants => Sys2Proof.Machine.execBarrier core h id participants s
  | .arrayInputLoad core h e mask fmt buf elems scales ref count => Sys2Proof.Machine.execArrayInputLoad core h e mask fmt buf elems scales ref count s
  | .product core h arr buf k bank => Sys2Proof.Machine.execProduct core h arr buf k bank s
  | .productEnd arr dev parity => Sys2Proof.Machine.execProductEnd arr dev parity s
  | .accumulate core h e chains bf16 table => Sys2Proof.Machine.execAccumulate core h e chains bf16 table s
  | .rotq core h e m mode fmt inBf16 seed src dst len => Sys2Proof.Machine.execRotq core h e m mode fmt inBf16 seed src dst len s
  | .matmul core h e x y z m n k32 flags => Sys2Proof.Machine.execMatmul core h e x y z m n k32 flags s
  | .vecAdd core h e flags k a b dst len => Sys2Proof.Machine.execVecAdd core h e flags k a b dst len s
  | .vecSubtract core h e flags k a b dst len => Sys2Proof.Machine.execVecSubtract core h e flags k a b dst len s
  | .vecMultiply core h e flags k a b dst len => Sys2Proof.Machine.execVecMultiply core h e flags k a b dst len s
  | .vecFma core h e flags k a b dst len => Sys2Proof.Machine.execVecFma core h e flags k a b dst len s
  | .vecMinimum core h e flags k a b dst len => Sys2Proof.Machine.execVecMinimum core h e flags k a b dst len s
  | .vecMaximum core h e flags k a b dst len => Sys2Proof.Machine.execVecMaximum core h e flags k a b dst len s
  | .vecScale core h e flags k a b dst len => Sys2Proof.Machine.execVecScale core h e flags k a b dst len s
  | .vecCompare core h e flags k a b dst len => Sys2Proof.Machine.execVecCompare core h e flags k a b dst len s
  | .vecSelect core h e flags k a b dst len => Sys2Proof.Machine.execVecSelect core h e flags k a b dst len s
  | .vecConvert core h e flags k a b dst len => Sys2Proof.Machine.execVecConvert core h e flags k a b dst len s
  | .vecReciprocal core h e flags k a b dst len => Sys2Proof.Machine.execVecReciprocal core h e flags k a b dst len s
  | .vecRsqrt core h e flags k a b dst len => Sys2Proof.Machine.execVecRsqrt core h e flags k a b dst len s
  | .vecExp2 core h e flags k a b dst len => Sys2Proof.Machine.execVecExp2 core h e flags k a b dst len s
  | .vecLog2 core h e flags k a b dst len => Sys2Proof.Machine.execVecLog2 core h e flags k a b dst len s
  | .vecSum core h e flags k a b dst len => Sys2Proof.Machine.execVecSum core h e flags k a b dst len s
  | .vecMaxReduction core h e flags k a b dst len => Sys2Proof.Machine.execVecMaxReduction core h e flags k a b dst len s
  | .vecTopK core h e flags k a b dst len => Sys2Proof.Machine.execVecTopK core h e flags k a b dst len s
  | .send core h e dest ctr src dst bytes => Sys2Proof.Machine.execSend core h e dest ctr src dst bytes s
  | .memRead core h e stream addr bytes token => Sys2Proof.Machine.execMemRead core h e stream addr bytes token s
  | .memWrite core h e stream addr bytes token => Sys2Proof.Machine.execMemWrite core h e stream addr bytes token s
  | .portSend core h e port cls part dest ctr src dst bytes => Sys2Proof.Machine.execPortSend core h e port cls part dest ctr src dst bytes s
  | .operationComplete core idx => Sys2Proof.Machine.execOperationComplete core idx s
  | .transferComplete idx => Sys2Proof.Machine.execTransferComplete idx s
  | .remoteIncrement core ctr inc frame pitch => Sys2Proof.Machine.execRemoteIncrement core ctr inc frame pitch s
  | .gatherFlushIdle core line => Sys2Proof.Machine.execGatherFlushIdle core line s
  | .legStart core => Sys2Proof.Machine.execLegStart core s
  | .legEnd core => Sys2Proof.Machine.execLegEnd core s
  | .legOverrunStop core => Sys2Proof.Machine.execLegOverrunStop core s
  | .suspectReport idx => Sys2Proof.Machine.execSuspectReport idx s
  | .cribFill site slot arr cblock => Sys2Proof.Machine.execCribFill site slot arr cblock s
  | .cribFillEnd site codes parity => Sys2Proof.Machine.execCribFillEnd site codes parity s
  | .cribDrop site slot => Sys2Proof.Machine.execCribDrop site slot s
  | .tstInject path site => Sys2Proof.Machine.execTstInject path site s
  | .coreClear site => Sys2Proof.Machine.execCoreClear site s
  | .coreClearComplete site => Sys2Proof.Machine.execCoreClearComplete site s
  | .load c switch container => Sys2Proof.Machine.execLoad c switch container s
  | .loadCheckEnd timing cls sec rec detail => Sys2Proof.Machine.execLoadCheckEnd timing cls sec rec detail s
  | .unload c => Sys2Proof.Machine.execUnload c s
  | .start c frame => Sys2Proof.Machine.execStart c frame s
  | .stop c => Sys2Proof.Machine.execStop c s
  | .cancelLoad c => Sys2Proof.Machine.execCancelLoad c s
  | .clearFrameCounters c => Sys2Proof.Machine.execClearFrameCounters c s
  | .readFrameState c => Sys2Proof.Machine.execReadFrameState c s
  | .whistleInEdge samples => Sys2Proof.Machine.execWhistleInEdge samples s
  | .whistle src epoch frame => Sys2Proof.Machine.execWhistle src epoch frame s
  | .windowOpen => Sys2Proof.Machine.execWindowOpen s
  | .selfWhistle => Sys2Proof.Machine.execSelfWhistle s
  | .managerWhistle => Sys2Proof.Machine.execManagerWhistle s
  | .readyPoint => Sys2Proof.Machine.execReadyPoint s
  | .ready src frame => Sys2Proof.Machine.execReady src frame s
  | .readyRepeat => Sys2Proof.Machine.execReadyRepeat s
  | .pitchFieldWrite path addr value => Sys2Proof.Machine.execPitchFieldWrite path addr value s
  | .apply path => Sys2Proof.Machine.execApply path s
  | .zeroingComplete ch => Sys2Proof.Machine.execZeroingComplete ch s
  | .patrolScrub granules errs => Sys2Proof.Machine.execPatrolScrub granules errs s
  | .pageCopy pitch ctx stream place sel => Sys2Proof.Machine.execPageCopy pitch ctx stream place sel s
  | .crossingReset crossing lost => Sys2Proof.Machine.execCrossingReset crossing lost s
  | .relayPlan src epoch plan => Sys2Proof.Machine.execRelayPlan src epoch plan s
  | .relayPieceArrival p => Sys2Proof.Machine.execRelayPieceArrival p s
  | .chunkVerify chunk => Sys2Proof.Machine.execChunkVerify chunk s
  | .relayStalled => Sys2Proof.Machine.execRelayStalled s
  | .relayEnd src epoch => Sys2Proof.Machine.execRelayEnd src epoch s
  | .coreProgramStart core => Sys2Proof.Machine.execCoreProgramStart core s
  | .scrubRead arr => Sys2Proof.Machine.execScrubRead arr s
  | .submit q => Sys2Proof.Machine.execSubmit q s
  | .register pitch tag customer promptLen maxNew => Sys2Proof.Machine.execRegister pitch tag customer promptLen maxNew s
  | .partnerTimeout pitch tag => Sys2Proof.Machine.execPartnerTimeout pitch tag s
  | .cancel c tag => Sys2Proof.Machine.execCancel c tag s
  | .cancelMessage pitch tag => Sys2Proof.Machine.execCancelMessage pitch tag s
  | .bindingSelection pitch => Sys2Proof.Machine.execBindingSelection pitch s
  | .bindingNotice pitch frame binds handles => Sys2Proof.Machine.execBindingNotice pitch frame binds handles s
  | .exitReport pitch frame items => Sys2Proof.Machine.execExitReport pitch frame items s
  | .setRation c customer mask r => Sys2Proof.Machine.execSetRation c customer mask r s
  | .readRation c customer => Sys2Proof.Machine.execReadRation c customer s
  | .releaseWaymark c handle => Sys2Proof.Machine.execReleaseWaymark c handle s
  | .waymarkMover pitch => Sys2Proof.Machine.execWaymarkMover pitch s
  | .setServing c param v1 v2 parts => Sys2Proof.Machine.execSetServing c param v1 v2 parts s
  | .readServing c => Sys2Proof.Machine.execReadServing c s
  | .clearServingCounters c => Sys2Proof.Machine.execClearServingCounters c s
  | .linkRetrain up => Sys2Proof.Machine.execLinkRetrain up s
  | .doorbellPoll reads => Sys2Proof.Machine.execDoorbellPoll reads s
  | .heldCompletionWrite q => Sys2Proof.Machine.execHeldCompletionWrite q s
  | .queueEnable path => Sys2Proof.Machine.execQueueEnable path s
  | .queueDrain path => Sys2Proof.Machine.execQueueDrain path s
  | .hostInboxDelivery rec => Sys2Proof.Machine.execHostInboxDelivery rec s
  | .promptFetch pitch slot tokens => Sys2Proof.Machine.execPromptFetch pitch slot tokens s
  | .msixUnmask fn vec => Sys2Proof.Machine.execMsixUnmask fn vec s
  | .mgmtCommandPoll reads unknown => Sys2Proof.Machine.execMgmtCommandPoll reads unknown s
  | .setTime c sec nsec => Sys2Proof.Machine.execSetTime c sec nsec s
  | .poisonedWrite => Sys2Proof.Machine.execPoisonedWrite s
  | .hostLinkFatalError => Sys2Proof.Machine.execHostLinkFatalError s
  | .functionLevelReset fn => Sys2Proof.Machine.execFunctionLevelReset fn s
  | .hotReset => Sys2Proof.Machine.execHotReset s
  | .busMasterEnableChange fn bme d3 => Sys2Proof.Machine.execBusMasterEnableChange fn bme d3 s
  | .perstN low => Sys2Proof.Machine.execPerstN low s
  | .relayPiece c len p => Sys2Proof.Machine.execRelayPiece c len p s
  | .readRelayStatus c => Sys2Proof.Machine.execReadRelayStatus c s
  | .readMaskedMap c first => Sys2Proof.Machine.execReadMaskedMap c first s
  | .readHistory c kind idx => Sys2Proof.Machine.execReadHistory c kind idx s
  | .interruptEdge half id => Sys2Proof.Machine.execInterruptEdge half id s
  | .intcClaim half target => Sys2Proof.Machine.execIntcClaim half target s
  | .intcComplete half target id => Sys2Proof.Machine.execIntcComplete half target id s
  | .fwclkStop half idleNs => Sys2Proof.Machine.execFwclkStop half idleNs s
  | .fwclkWake half => Sys2Proof.Machine.execFwclkWake half s
  | .kernelTick rcore => Sys2Proof.Machine.execKernelTick rcore s
  | .watchdogExpiry rcore => Sys2Proof.Machine.execWatchdogExpiry rcore s
  | .rangerDown rcore cause => Sys2Proof.Machine.execRangerDown rcore cause s
  | .rangerTakeover rcore => Sys2Proof.Machine.execRangerTakeover rcore s
  | .rangerUp rcore => Sys2Proof.Machine.execRangerUp rcore s
  | .leadershipClaim half => Sys2Proof.Machine.execLeadershipClaim half s
  | .leadershipRefresh half epoch => Sys2Proof.Machine.execLeadershipRefresh half epoch s
  | .leadershipLapse => Sys2Proof.Machine.execLeadershipLapse s
  | .replayRequest src frame group core leg input => Sys2Proof.Machine.execReplayRequest src frame group core leg input s
  | .replayRun core => Sys2Proof.Machine.execReplayRun core s
  | .replayOutput src frame core leg unclean hamper payloads => Sys2Proof.Machine.execReplayOutput src frame core leg unclean hamper payloads s
  | .replayRefuse src frame core leg => Sys2Proof.Machine.execReplayRefuse src frame core leg s
  | .replayPending frame slots => Sys2Proof.Machine.execReplayPending frame slots s
  | .suppressed frame core ctr => Sys2Proof.Machine.execSuppressed frame core ctr s
  | .replayGiveUp core leg => Sys2Proof.Machine.execReplayGiveUp core leg s
  | .withhold src frame slots => Sys2Proof.Machine.execWithhold src frame slots s
  | .list src epoch frame slots => Sys2Proof.Machine.execList src epoch frame slots s
  | .listAck src frame => Sys2Proof.Machine.execListAck src frame s
  | .withheldReport src frame slots => Sys2Proof.Machine.execWithheldReport src frame slots s
  | .replayMap src epoch map => Sys2Proof.Machine.execReplayMap src epoch map s
  | .rollCallDue => Sys2Proof.Machine.execRollCallDue s
  | .rollCall src epoch n => Sys2Proof.Machine.execRollCall src epoch n s
  | .rollAnswer src n shard digest => Sys2Proof.Machine.execRollAnswer src n shard digest s
  | .expel src epoch n stripe => Sys2Proof.Machine.execExpel src epoch n stripe s
  | .historyWrite => Sys2Proof.Machine.execHistoryWrite s
  | .portLinkDown port cause => Sys2Proof.Machine.execPortLinkDown port cause s
  | .portUp port => Sys2Proof.Machine.execPortUp port s
  | .retrain path port => Sys2Proof.Machine.execRetrain path port s
  | .fabricFrameReceived port f => Sys2Proof.Machine.execFabricFrameReceived port f s
  | .xonResume port drained drained1 => Sys2Proof.Machine.execXonResume port drained drained1 s
  | .pauseRepeat port => Sys2Proof.Machine.execPauseRepeat port s
  | .pfcPauseReceived port quanta => Sys2Proof.Machine.execPfcPauseReceived port quanta s
  | .ack src seq units => Sys2Proof.Machine.execAck src seq units s
  | .messageResend part seq => Sys2Proof.Machine.execMessageResend part seq s
  | .managerClaim src epoch => Sys2Proof.Machine.execManagerClaim src epoch s
  | .withdraw src epoch part => Sys2Proof.Machine.execWithdraw src epoch part s
  | .admitPart src epoch part => Sys2Proof.Machine.execAdmit src epoch part s
  | .cut src epoch => Sys2Proof.Machine.execCut src epoch s
  | .cutAck src => Sys2Proof.Machine.execCutAck src s
  | .cutTimeout => Sys2Proof.Machine.execCutTimeout s
  | .assume src epoch number => Sys2Proof.Machine.execAssume src epoch number s
  | .assumeAck src => Sys2Proof.Machine.execAssumeAck src s
  | .conversionStart value => Sys2Proof.Machine.execConversionStart value s
  | .urgentConversion value => Sys2Proof.Machine.execUrgentConversion value s
  | .converterWake => Sys2Proof.Machine.execConverterWake s
  | .routineConversion => Sys2Proof.Machine.execRoutineConversion s
  | .conversionComplete code => Sys2Proof.Machine.execConversionComplete code s
  | .refinFault ok => Sys2Proof.Machine.execRefinFault ok s
  | .heldValueStale ch => Sys2Proof.Machine.execHeldValueStale ch s
  | .refinWrite path value => Sys2Proof.Machine.execRefinWrite path value s
  | .thermalTrip low opn => Sys2Proof.Machine.execThermalTrip low opn s
  | .tripBlankEnd low opn => Sys2Proof.Machine.execTripBlankEnd low opn s
  | .tripTest path => Sys2Proof.Machine.execTripTest path s
  | .regionTrimAdjust region code => Sys2Proof.Machine.execRegionTrimAdjust region code s
  | .calibrateArray arr m0 m1 m2 => Sys2Proof.Machine.execCalibrateArray arr m0 m1 m2 s
  | .powerOn => Sys2Proof.Machine.execPowerOn s
  | .sysRstNAssert => Sys2Proof.Machine.execSysRstNAssert s
  | .sysRstNRelease mode addr => Sys2Proof.Machine.execSysRstNRelease mode addr s
  | .railRampRead read => Sys2Proof.Machine.execRailRampRead read s
  | .bootStepEnd bad second checks => Sys2Proof.Machine.execBootStepEnd bad second checks s
  | .clearAlt path => Sys2Proof.Machine.execClearAlt path s
  | .off path => Sys2Proof.Machine.execOff path s
  | .sysrst path => Sys2Proof.Machine.execSysrst path s
  | .refclkLoss => Sys2Proof.Machine.execRefclkLoss s
  | .refclkRestored => Sys2Proof.Machine.execRefclkRestored s
  | .pmbusPoll reads => Sys2Proof.Machine.execPmbusPoll reads s
  | .pmAlert status => Sys2Proof.Machine.execPmAlert status s
  | .vppRaise => Sys2Proof.Machine.execVppRaise s
  | .vppLower => Sys2Proof.Machine.execVppLower s
  | .droopStretch => Sys2Proof.Machine.execDroopStretch s
  | .droopEnd => Sys2Proof.Machine.execDroopEnd s
  | .powerEstimate watts => Sys2Proof.Machine.execPowerEstimate watts s
  | .clampAdjust => Sys2Proof.Machine.execClampAdjust s
  | .stateReq path value => Sys2Proof.Machine.execStateReq path value s
  | .powerState => Sys2Proof.Machine.execPowerState s
  | .pllUnlock regions => Sys2Proof.Machine.execPllUnlock regions s
  | .pllRelock => Sys2Proof.Machine.execPllRelock s
  | .pwrWarn low => Sys2Proof.Machine.execPwrWarn low s
  | .poweredHour => Sys2Proof.Machine.execPoweredHour s
  | .atomicRecordWrite addr data steps remap => Sys2Proof.Machine.execAtomicRecordWrite addr data steps remap s
  | .roleChallenge c => Sys2Proof.Machine.execRoleChallenge c s
  | .roleAssume c role idx sig => Sys2Proof.Machine.execRoleAssume c role idx sig s
  | .lockoutEnd fn => Sys2Proof.Machine.execLockoutEnd fn s
  | .nonceExpiry fn => Sys2Proof.Machine.execNonceExpiry fn s
  | .roleRelease c => Sys2Proof.Machine.execRoleRelease c s
  | .keySet c role idx mask key => Sys2Proof.Machine.execKeySet c role idx mask key s
  | .keyRemove c role idx => Sys2Proof.Machine.execKeyRemove c role idx s
  | .pubkeySet c idx key => Sys2Proof.Machine.execPubkeySet c idx key s
  | .pubkeyRemove c idx => Sys2Proof.Machine.execPubkeyRemove c idx s
  | .lock c value => Sys2Proof.Machine.execLock c value s
  | .readAudit c first => Sys2Proof.Machine.execReadAudit c first s
  | .readKeys c => Sys2Proof.Machine.execReadKeys c s
  | .auditFlush => Sys2Proof.Machine.execAuditFlush s
  | .updateBegin c slot header => Sys2Proof.Machine.execUpdateBegin c slot header s
  | .updateData c off data => Sys2Proof.Machine.execUpdateData c off data s
  | .updateEnd c => Sys2Proof.Machine.execUpdateEnd c s
  | .updateAbort c => Sys2Proof.Machine.execUpdateAbort c s
  | .sessionAborted => Sys2Proof.Machine.execSessionAborted s
  | .activate c slot frame => Sys2Proof.Machine.execActivate c slot frame s
  | .activationPause staged => Sys2Proof.Machine.execActivationPause staged s
  | .startFailed => Sys2Proof.Machine.execStartFailed s
  | .activationHandover => Sys2Proof.Machine.execActivationHandover s
  | .confirm c slot => Sys2Proof.Machine.execConfirm c slot s
  | .readUpdate c => Sys2Proof.Machine.execReadUpdate c s
  | .diagUnlock c => Sys2Proof.Machine.execDiagUnlock c s
  | .signatureRequest key digest sig => Sys2Proof.Machine.execSignatureRequest key digest sig s
  | .signatureAnswer => Sys2Proof.Machine.execSignatureAnswer s
  | .setOffset addr off count pec => Sys2Proof.Machine.execSetOffset addr off count pec s
  | .smbRead addr stall => Sys2Proof.Machine.execSmbRead addr stall s
  | .writeSel addr off value pec => Sys2Proof.Machine.execWriteSel addr off value pec s
  | .smbStatus addr => Sys2Proof.Machine.execSmbStatus addr s
  | .alertResponse => Sys2Proof.Machine.execAlertResponse s
  | .smbBusTimeout lowUs => Sys2Proof.Machine.execSmbBusTimeout lowUs s
  | .powerFailure => Sys2Proof.Machine.execPowerFailure s
  | .completionTimeout read kind => Sys2Proof.Machine.execCompletionTimeout read kind s
  | .pauseTimeExpiry port cls => Sys2Proof.Machine.execPauseTimeExpiry port cls s
  | .creditRequest src units => Sys2Proof.Machine.execCreditRequest src units s
  | .beatReceived src epoch nextRoll rollIn => Sys2Proof.Machine.execBeatReceived src epoch nextRoll rollIn s
  | .vppArrInRegulation => Sys2Proof.Machine.execVppArrInRegulation s
  | .vfEnable on => Sys2Proof.Machine.execVfEnable on s
  | .laneRefclkLoss eth => Sys2Proof.Machine.execLaneRefclkLoss eth s
  | .laneRefclkRestored eth => Sys2Proof.Machine.execLaneRefclkRestored eth s
  | .relayStatus src state result need shard peer self => Sys2Proof.Machine.execRelayStatus src state result need shard peer self s

end Sys2Proof.Machine
end

