-- ==== Sys2Proof/Machine/Step.lean ====
section
/-!
DEFINITION. The step of the part: the command at the front of the queue acts; with no command waiting the clock runs for
one nanosecond (log entry 1).
-/

namespace Sys2Proof.Machine

/-- The state with `c` taken from the front of the queue. -/
def State.withPending (s : State) (cs : List Instr) : State := { s with pending := cs }

/-- One step. -/
def step (s : State) : Host.Outcome State Fault Refusal :=
  match s.pending with
  | [] => .next s.idle
  | c :: rest => exec c (s.withPending rest)

/-- The state with the command that a word spells at the front of its queue; no word spells one (Sys2Proof/Decode.lean). -/
def State.withFetchWord (s : State) (nbits w : Nat) : State :=
  match Sys2Proof.decodeTableWord nbits w with
  | some c => s.withPending (c :: s.pending)
  | none => s

end Sys2Proof.Machine
end

