-- ==== Sys2Proof/WellFormed.lean ====
section
/-!
DEFINITION. Which commands can exist: those that name units the part has (01_architecture R11 to R14; 06_network_and_memory
R204, R207; 09_host_interface R294, R299; 10_ranger_firmware R321, R333; 12_links_and_fabric R380; 13_calibration_and_thermal
Table 13-1; 14_power_clocks_startup Table 14-1; 15_update_and_roles R467).  A command that is not well formed stops with
`noSuchUnit` (Machine/State.lean); every other one has a next state.
-/

namespace Sys2Proof

open Sys2Proof.Machine

/-- Whether a register path exists: the physical function, 16 virtual functions, the SMBus target, firmware (R294, R499). -/
def knownPath : Path → Bool
  | .host fn => decide (fn ≤ 16)
  | .smbus => true
  | .firmware => true

/-- Whether a management command comes from a function that exists (R294). -/
def knownSender (c : Mgmt) : Bool := decide (c.fn ≤ 16)

/-- Whether a command names units the part has: cores 0 to 1,199, sites 0 to 1,279, arrays 0 to 20,479, ports 0 to 31, pitches 0 to 15,
queues 0 to 1,023, functions 0 to 16, halves 0 and 1, Ranger cores 0 to 7, and the indices below them. -/
def Instr.wf : Instr → Bool
  | .registerWrite path _ _ => knownPath path
  | .rcCounterRead path _ => knownPath path
  | .timeLoRead path _ => knownPath path
  | .enterMaint arr _ => decide (arr < 20480)
  | .leaveMaint arr _ => decide (arr < 20480)
  | .erase arr _ => decide (arr < 20480)
  | .programRows arr _ => decide (arr < 20480)
  | .refreshRows arr _ => decide (arr < 20480)
  | .verifyRow arr _ => decide (arr < 20480)
  | .levelCheck arr _ => decide (arr < 20480)
  | .refSweep arr _ => decide (arr < 20480)
  | .writeSide arr _ => decide (arr < 20480)
  | .exclude arr _ => decide (arr < 20480)
  | .arrayCommandEnd arr _ _ _ => decide (arr < 20480)
  | .vppOutOfRegulation => true
  | .nop core _ => decide (core < 1200)
  | .resetCtr core _ _ => decide (core < 1200)
  | .flip core _ _ => decide (core < 1200)
  | .barrier core _ _ _ => decide (core < 1200)
  | .arrayInputLoad core _ _ _ _ _ _ _ _ _ => decide (core < 1200)
  | .product core _ _ _ _ _ => decide (core < 1200)
  | .productEnd arr _ _ => decide (arr < 20480)
  | .accumulate core _ _ _ _ _ => decide (core < 1200)
  | .rotq core _ _ _ _ _ _ _ _ _ _ => decide (core < 1200)
  | .matmul core _ _ _ _ _ _ _ _ _ => decide (core < 1200)
  | .vecAdd core _ _ _ _ _ _ _ _ => decide (core < 1200)
  | .vecSubtract core _ _ _ _ _ _ _ _ => decide (core < 1200)
  | .vecMultiply core _ _ _ _ _ _ _ _ => decide (core < 1200)
  | .vecFma core _ _ _ _ _ _ _ _ => decide (core < 1200)
  | .vecMinimum core _ _ _ _ _ _ _ _ => decide (core < 1200)
  | .vecMaximum core _ _ _ _ _ _ _ _ => decide (core < 1200)
  | .vecScale core _ _ _ _ _ _ _ _ => decide (core < 1200)
  | .vecCompare core _ _ _ _ _ _ _ _ => decide (core < 1200)
  | .vecSelect core _ _ _ _ _ _ _ _ => decide (core < 1200)
  | .vecConvert core _ _ _ _ _ _ _ _ => decide (core < 1200)
  | .vecReciprocal core _ _ _ _ _ _ _ _ => decide (core < 1200)
  | .vecRsqrt core _ _ _ _ _ _ _ _ => decide (core < 1200)
  | .vecExp2 core _ _ _ _ _ _ _ _ => decide (core < 1200)
  | .vecLog2 core _ _ _ _ _ _ _ _ => decide (core < 1200)
  | .vecSum core _ _ _ _ _ _ _ _ => decide (core < 1200)
  | .vecMaxReduction core _ _ _ _ _ _ _ _ => decide (core < 1200)
  | .vecTopK core _ _ _ _ _ _ _ _ => decide (core < 1200)
  | .send core _ _ _ _ _ _ _ => decide (core < 1200)
  | .memRead core _ _ _ _ _ _ => decide (core < 1200)
  | .memWrite core _ _ _ _ _ _ => decide (core < 1200)
  | .portSend core _ _ _ _ _ _ _ _ _ _ => decide (core < 1200)
  | .operationComplete core _ => decide (core < 1200)
  | .transferComplete _ => true
  | .remoteIncrement core ctr _ _ _ => decide (core < 1200) && decide (ctr < 64)
  | .gatherFlushIdle core _ => decide (core < 1200)
  | .legStart core => decide (core < 1200)
  | .legEnd core => decide (core < 1200)
  | .legOverrunStop core => decide (core < 1200)
  | .suspectReport _ => true
  | .cribFill site slot arr cblock => decide (site < 1280) && decide (slot < 4) && decide (arr < 16) && decide (cblock < 16)
  | .cribFillEnd site _ _ => decide (site < 1280)
  | .cribDrop site slot => decide (site < 1280) && decide (slot < 4)
  | .tstInject path site => knownPath path && decide (site < 1280)
  | .coreClear site => decide (site < 1280)
  | .coreClearComplete site => decide (site < 1280)
  | .load c _ _ => knownSender c
  | .loadCheckEnd _ _ _ _ _ => true
  | .unload c => knownSender c
  | .start c _ => knownSender c
  | .stop c => knownSender c
  | .cancelLoad c => knownSender c
  | .clearFrameCounters c => knownSender c
  | .readFrameState c => knownSender c
  | .whistleInEdge _ => true
  | .whistle _ _ _ => true
  | .windowOpen => true
  | .selfWhistle => true
  | .managerWhistle => true
  | .readyPoint => true
  | .ready _ _ => true
  | .readyRepeat => true
  | .pitchFieldWrite path _ _ => knownPath path
  | .apply path => knownPath path
  | .zeroingComplete ch => decide (ch < 320)
  | .patrolScrub _ errs => errs.all fun e => decide (e.1 < 320)
  | .pageCopy pitch ctx _ _ sel => decide (pitch < 16) && decide (ctx < 1048576) && (match sel with | some e => decide (e < 2) | none => true)
  | .crossingReset _ _ => true
  | .relayPlan _ _ _ => true
  | .relayPieceArrival _ => true
  | .chunkVerify chunk => decide (chunk ≤ 1223)
  | .relayStalled => true
  | .relayEnd _ _ => true
  | .coreProgramStart core => decide (core < 1200)
  | .scrubRead arr => decide (arr < 20480)
  | .submit q => decide (q < 1024)
  | .register pitch _ _ _ _ => decide (pitch < 16)
  | .partnerTimeout pitch _ => decide (pitch < 16)
  | .cancel c _ => knownSender c
  | .cancelMessage pitch _ => decide (pitch < 16)
  | .bindingSelection pitch => decide (pitch < 16)
  | .bindingNotice pitch _ _ _ => decide (pitch < 16)
  | .exitReport pitch _ _ => decide (pitch < 16)
  | .setRation c _ _ _ => knownSender c
  | .readRation c _ => knownSender c
  | .releaseWaymark c _ => knownSender c
  | .waymarkMover pitch => decide (pitch < 16)
  | .setServing c _ _ _ _ => knownSender c
  | .readServing c => knownSender c
  | .clearServingCounters c => knownSender c
  | .linkRetrain _ => true
  | .doorbellPoll reads => reads.all fun r => decide (r.q < 1024)
  | .heldCompletionWrite q => decide (q < 1024)
  | .queueEnable path => knownPath path
  | .queueDrain path => knownPath path
  | .hostInboxDelivery _ => true
  | .promptFetch pitch _ _ => decide (pitch < 16)
  | .msixUnmask fn vec => decide (fn ≤ 16) && decide (vec < 2048)
  | .mgmtCommandPoll reads unknown => reads.all (fun r => decide (r.1 ≤ 16)) && (match unknown with | some (c, _) => decide (c.fn ≤ 16) | none => true)
  | .setTime c _ _ => knownSender c
  | .poisonedWrite => true
  | .hostLinkFatalError => true
  | .functionLevelReset fn => decide (fn ≤ 16)
  | .hotReset => true
  | .busMasterEnableChange fn _ _ => decide (fn ≤ 16)
  | .perstN _ => true
  | .relayPiece c _ _ => knownSender c
  | .readRelayStatus c => knownSender c
  | .readMaskedMap c _ => knownSender c
  | .readHistory c _ _ => knownSender c
  | .interruptEdge half id => decide (half < 2) && decide (id < 1024)
  | .intcClaim half target => decide (half < 2) && decide (target < 4)
  | .intcComplete half target _ => decide (half < 2) && decide (target < 4)
  | .fwclkStop half _ => decide (half < 2)
  | .fwclkWake half => decide (half < 2)
  | .kernelTick rcore => decide (rcore < 8)
  | .watchdogExpiry rcore => decide (rcore < 8)
  | .rangerDown rcore cause => decide (rcore < 8) && decide (2 ≤ cause) && decide (cause ≤ 4)
  | .rangerTakeover rcore => decide (rcore < 8)
  | .rangerUp rcore => decide (rcore < 8)
  | .leadershipClaim half => decide (half < 2)
  | .leadershipRefresh half _ => decide (half < 2)
  | .leadershipLapse => true
  | .replayRequest _ _ _ core _ _ => decide (core < 1200)
  | .replayRun core => decide (core < 1200)
  | .replayOutput _ _ core _ _ _ _ => decide (core < 1200)
  | .replayRefuse _ _ core _ => decide (core < 1200)
  | .replayPending _ _ => true
  | .suppressed _ core _ => decide (core < 1200)
  | .replayGiveUp core _ => decide (core < 1200)
  | .withhold _ _ _ => true
  | .list _ _ _ _ => true
  | .listAck _ _ => true
  | .withheldReport _ _ _ => true
  | .replayMap _ _ _ => true
  | .rollCallDue => true
  | .rollCall _ _ _ => true
  | .rollAnswer _ _ _ _ => true
  | .expel _ _ _ _ => true
  | .historyWrite => true
  | .portLinkDown port _ => decide (port < 32)
  | .portUp port => decide (port < 32)
  | .retrain path port => knownPath path && decide (port < 32)
  | .fabricFrameReceived port _ => decide (port < 32)
  | .xonResume port _ _ => decide (port < 32)
  | .pauseRepeat port => decide (port < 32)
  | .pfcPauseReceived port quanta => decide (port < 32) && (quanta.all fun q => decide (q.1 < 4))
  | .ack _ _ _ => true
  | .messageResend _ _ => true
  | .managerClaim _ _ => true
  | .withdraw _ _ _ => true
  | .admitPart _ _ _ => true
  | .cut _ _ => true
  | .cutAck _ => true
  | .cutTimeout => true
  | .assume _ _ _ => true
  | .assumeAck _ => true
  | .conversionStart _ => true
  | .urgentConversion _ => true
  | .converterWake => true
  | .routineConversion => true
  | .conversionComplete _ => true
  | .refinFault _ => true
  | .heldValueStale ch => decide (ch < 16)
  | .refinWrite path _ => knownPath path
  | .thermalTrip _ _ => true
  | .tripBlankEnd _ _ => true
  | .tripTest path => knownPath path
  | .regionTrimAdjust region _ => decide (region < 8)
  | .calibrateArray arr _ _ _ => decide (arr < 20480)
  | .powerOn => true
  | .sysRstNAssert => true
  | .sysRstNRelease _ _ => true
  | .railRampRead _ => true
  | .bootStepEnd _ _ checks => checks.all fun c => decide (c.arr < 20480)
  | .clearAlt path => knownPath path
  | .off path => knownPath path
  | .sysrst path => knownPath path
  | .refclkLoss => true
  | .refclkRestored => true
  | .pmbusPoll reads => reads.all fun r => decide (r.1 ≤ 6)
  | .pmAlert status => status.all fun r => decide (r.1 ≤ 6)
  | .vppRaise => true
  | .vppLower => true
  | .droopStretch => true
  | .droopEnd => true
  | .powerEstimate _ => true
  | .clampAdjust => true
  | .stateReq path _ => knownPath path
  | .powerState => true
  | .pllUnlock _ => true
  | .pllRelock => true
  | .pwrWarn _ => true
  | .poweredHour => true
  | .atomicRecordWrite addr data _ _ => decide (addr + data.length ≤ 65536 * 2048) && decide (data.length ≤ 256)
  | .roleChallenge c => knownSender c
  | .roleAssume c _ _ _ => knownSender c
  | .lockoutEnd fn => decide (fn ≤ 16)
  | .nonceExpiry fn => decide (fn ≤ 16)
  | .roleRelease c => knownSender c
  | .keySet c _ _ _ _ => knownSender c
  | .keyRemove c _ _ => knownSender c
  | .pubkeySet c _ _ => knownSender c
  | .pubkeyRemove c _ => knownSender c
  | .lock c _ => knownSender c
  | .readAudit c _ => knownSender c
  | .readKeys c => knownSender c
  | .auditFlush => true
  | .updateBegin c _ _ => knownSender c
  | .updateData c _ _ => knownSender c
  | .updateEnd c => knownSender c
  | .updateAbort c => knownSender c
  | .sessionAborted => true
  | .activate c _ _ => knownSender c
  | .activationPause _ => true
  | .startFailed => true
  | .activationHandover => true
  | .confirm c _ => knownSender c
  | .readUpdate c => knownSender c
  | .diagUnlock c => knownSender c
  | .signatureRequest _ _ _ => true
  | .signatureAnswer => true
  | .setOffset _ _ _ _ => true
  | .smbRead _ _ => true
  | .writeSel _ _ _ _ => true
  | .smbStatus _ => true
  | .alertResponse => true
  | .smbBusTimeout _ => true
  | .powerFailure => true
  | .completionTimeout read _ => match read with | .doorbell => true | .submission q => decide (q < 1024) | .prompt p _ => decide (p < 16)
  | .pauseTimeExpiry port cls => decide (port < 32) && decide (cls < 4)
  | .creditRequest _ _ => true
  | .beatReceived _ _ _ _ => true
  | .vppArrInRegulation => true
  | .vfEnable _ => true
  | .laneRefclkLoss _ => true
  | .laneRefclkRestored _ => true
  | .relayStatus _ _ _ _ _ _ _ => true

end Sys2Proof
end

