-- ==== Sys2Proof/Safety.lean ====
section
/-!
DEFINITION. What counts as a sound state and a safe run, in the terms that claims use.
-/

namespace Sys2Proof.Machine

/-- The tables of the state are in canonical form: both byte memories as `Memory.wf` says; register fields, vault values, arrays,
cores and pitches each listed at most once, at rising keys. -/
def State.canonical (s : State) : Bool :=
  Memory.wf s.hamper && Memory.wf s.dram && SMap.rising 0 s.fields && SMap.rising 0 s.vfields && SMap.rising 0 s.arrays &&
    SMap.rising 0 s.cores && SMap.rising 0 s.serve

/-- Every command that waits names units the part has. -/
def State.queueWf (s : State) : Bool := s.pending.all Instr.wf

/-- The invariant of the model: canonical tables and well-formed commands waiting. -/
def State.sound (s : State) : Bool := s.canonical && s.queueWf

/-- Whether a step goes on. -/
def goesOn (o : Host.Outcome State Fault Refusal) : Bool :=
  match o with
  | .next _ => true
  | .fault _ => false
  | .refused _ => false

/-- A run of `k` steps that stops at no fault and no refusal. -/
def safeRun : Nat → State → Bool
  | 0, _ => true
  | k + 1, s =>
    match step s with
    | .next t => safeRun k t
    | .fault _ => false
    | .refused _ => false

/-! What a command leaves as it was. -/

/-- The components of the state, by name. -/
inductive Part where
  | fields | vfields | now | cyc | free | hamper | dram | arrays | cores | frame | irq | net | link | mgr | fab | sec
  | hist | wgt | host | met | pwr | smb | serve | readout | pending
  deriving DecidableEq, Repr

/-- Whether a component is the same in two states; of both byte memories this says that every byte reads as before. -/
def Part.same (s t : State) : Part → Prop
  | .fields => t.fields = s.fields
  | .vfields => t.vfields = s.vfields
  | .now => t.now = s.now
  | .cyc => t.cyc = s.cyc
  | .free => t.free = s.free
  | .hamper => t.hamper = s.hamper
  | .dram => t.dram = s.dram
  | .arrays => t.arrays = s.arrays
  | .cores => t.cores = s.cores
  | .frame => t.frame = s.frame
  | .irq => t.irq = s.irq
  | .net => t.net = s.net
  | .link => t.link = s.link
  | .mgr => t.mgr = s.mgr
  | .fab => t.fab = s.fab
  | .sec => t.sec = s.sec
  | .hist => t.hist = s.hist
  | .wgt => t.wgt = s.wgt
  | .host => t.host = s.host
  | .met => t.met = s.met
  | .pwr => t.pwr = s.pwr
  | .smb => t.smb = s.smb
  | .serve => t.serve = s.serve
  | .readout => t.readout = s.readout
  | .pending => t.pending = s.pending

/-- `t` differs from `s` in no component beside the listed ones. -/
def State.onlyIn (s t : State) (ps : List Part) : Prop := ∀ p, p ∉ ps → p.same s t

/-- No register field differs, at any place, beside the listed ones. -/
def State.onlyFields (s t : State) (fs : List Fld) : Prop :=
  ∀ k, k % 1024 ∉ fs.map (·.code) → SMap.find? t.fields k = SMap.find? s.fields k

/-- No array differs beside the one at a place. -/
def State.onlyArray (s t : State) (a : Nat) : Prop := ∀ b, b ≠ a → t.arr b = s.arr b

/-- No core differs beside the one at a site. -/
def State.onlyCore (s t : State) (i : Nat) : Prop := ∀ j, j ≠ i → t.core j = s.core j

/-- No window differs beside that of one function. -/
def State.onlyWindow (s t : State) (fn : Nat) : Prop := ∀ g, g ≠ fn → t.win g = s.win g

/-- No pitch's serving state differs beside that of one pitch. -/
def State.onlyPitch (s t : State) (p : Nat) : Prop := ∀ r, r ≠ p → t.srv r = s.srv r

/-! What array commands leave (R105, R107, Table 3-19). -/

/-- A command runs on an array: the array holds it with its arguments and data as they stood, BUSY is 1 and DONE 0; nothing but the
array's record, BUSY, DONE and the stale mark may differ. -/
structure State.startsCommand (s t : State) (a op tag : Nat) : Prop where
  running : (t.arr a).cmd = some (ArrCmd.mk op tag (s.fld F.ARR_CMD_ARG0_ROW a) (s.fld F.ARR_CMD_ARG0_COUNT a)
    (64 * s.fld F.ARR_CMD_ARG1_HADDR a) (s.cmdData a op) s.now false)
  busy : t.fld F.ARR_STATUS_BUSY a = 1
  done : t.fld F.ARR_CMD_STAT_DONE a = 0
  array : ∃ n, t.arr a = { s.arr a with cmd := (t.arr a).cmd, refreshNext := n }
  others : s.onlyArray t a
  frame : s.onlyIn t [.fields, .vfields, .arrays]
  fields : s.onlyFields t [F.ARR_STATUS_BUSY, F.ARR_CMD_STAT_DONE, F.ARR_STATUS_SIDE_STALE]

/-- A command has ended with a result: CMD_STAT shows its operation, tag and result with DONE 1, BUSY is 0, the array holds no command;
no other array and no byte of memory differs. -/
structure State.endsCommand (s t : State) (a op tag result : Nat) : Prop where
  idle : (t.arr a).cmd = none
  result : t.fld F.ARR_CMD_STAT_RESULT a = result
  op : t.fld F.ARR_CMD_STAT_OP a = op % 16
  tag : t.fld F.ARR_CMD_STAT_TAG a = tag % 256
  done : t.fld F.ARR_CMD_STAT_DONE a = 1
  busy : t.fld F.ARR_STATUS_BUSY a = 0
  others : s.onlyArray t a
  memory : t.hamper = s.hamper ∧ t.dram = s.dram ∧ t.cores = s.cores

/-! The sequencer (R148). -/

/-- A core whose leg has nothing queued or running is about to issue operation `o`, which waits for no counter and no start; the leg is
no replay and not suspect. -/
structure State.atHead (s : State) (core site : Nat) (r : LegRun) (o : Op) (rest : List Op) : Prop where
  place : s.coreSite core = some site
  run : (s.core site).run = some r
  next : r.toIssue = o :: rest
  seq : s.fld F.CORE_STATUS_SEQ site = seqRun
  queued : r.queued = []
  running : r.running = []
  noWait : o.hdr.waitCtr = none
  noStart : o.hdr.start = none
  notReplay : r.replay = none
  notSuspect : r.cause = 0

/-- The record of an operation of a leg, as it is issued. -/
def issuedOp (r : LegRun) (o : Op) (e : OpEnv) : RunOp :=
  { op := o, env := e, idx := r.issued, start := 0, dur := 0, done := false, counted := false }

/-- The sequencer has issued the operation at the head; after the last one of its leg it drains (R148, R149). -/
def State.afterIssue (s : State) (site : Nat) (r : LegRun) (o : Op) (rest : List Op) (e : OpEnv) : State :=
  let s := s.setRun site (some { r with toIssue := rest, queued := r.queued ++ [issuedOp r o e], issued := r.issued + 1 })
  let s := match o.kind with | .resetCtr c => s.ctrZero site c | _ => s
  if rest.isEmpty then s.setFld F.CORE_STATUS_SEQ seqDrain site else s

/-- The operation has gone from its unit's queue to its unit, for a time and with its end open or not. -/
def State.onUnit (s : State) (site : Nat) (r : LegRun) (o : Op) (rest : List Op) (e : OpEnv) (dur : Nat) (done : Bool) : State :=
  s.setRun site (some { r with
    toIssue := rest, queued := [], issued := r.issued + 1,
    running := r.running ++ [{ issuedOp r o e with start := s.cyc, dur := dur, done := done }] })

/-- The state in which a unit begins operation `o`: the sequencer has issued it and the unit has taken it. -/
def State.begun (s : State) (site : Nat) (r : LegRun) (o : Op) (rest : List Op) (e : OpEnv) (dur : Nat) (done : Bool) : State :=
  (s.afterIssue site r o rest e).onUnit site r o rest e dur done

/-- Nothing waits in the unit queues of a core. -/
def State.unitsQuiet (s : State) (site : Nat) : Prop := ∀ r, (s.core site).run = some r → r.queued = []

/-- A message of a manager is taken: it comes from the manager named, with no lower epoch than seen (R401). -/
def State.accepts (s : State) (mgr src epoch : Nat) : Prop := src = mgr ∧ src ≠ 0xFFFF ∧ s.fld F.PRT_MGREPOCH_EPOCH ≤ epoch

/-- A manager's message has come in: its edge is raised and its epoch noted (R333, R401). -/
def State.heard (s : State) (epoch : Nat) : State := s.msgIn.setFld F.PRT_MGREPOCH_EPOCH epoch

/-! Management commands (R313, R314, Table 9-11). -/

/-- A management command is taken and meets none of the common results. -/
def State.heeds (s : State) (c : Mgmt) (r : CmdRule) : Prop := c.fn ≤ 16 ∧ s.takes c.fn = true ∧ s.common c r = none

/-- No LOAD is under check, no STOP and no CANCEL_LOAD waits for its answer. -/
def State.nothingWaits (s : State) : Prop := s.frame.load = none ∧ s.frame.stops = [] ∧ s.frame.cancel = none

/-- A response to a command stands in its function's ring, and the window is free; that of a command during which the function was
reset is discarded (R317). -/
structure State.responded (s t : State) (c : Mgmt) (code result : Nat) : Prop where
  idle : (t.win c.fn).busy = false
  record : (s.win c.fn).discard = false → ∃ d, SMap.find? (t.win c.fn).rsp (s.win c.fn).rspTail = some ⟨code, result, c.tag, d⟩
  tail : (s.win c.fn).discard = false → (t.win c.fn).rspTail = ((s.win c.fn).rspTail + 1) % 1024

/-- A completion or refusal has gone to a queue that takes entries: it stands at the write index with the phase there was where the ring
has room, nothing waits and host memory may be written; otherwise it is kept, after what waits already (R305, R306). -/
structure State.posted (s t : State) (q : Nat) (c : Completion) : Prop where
  written : (s.queue q).waiting = [] → s.cqFull q = false → s.busMaster (s.qFn q) = true →
    SMap.find? (t.queue q).ring (s.queue q).tail = some (c, (s.queue q).phase) ∧ (t.queue q).tail = ((s.queue q).tail + 1) % s.cqSize q
  kept : (s.queue q).waiting ≠ [] ∨ s.cqFull q = true ∨ s.busMaster (s.qFn q) = false →
    (t.queue q).waiting = (s.queue q).waiting ++ [c] ∧ (t.queue q).ring = (s.queue q).ring

/-- An event is posted to the physical function: where its ring has room the record stands at the ring's tail, with the frame number (R313). -/
def State.tells (s t : State) (code : Nat) (detail : List Nat) : Prop :=
  ((s.win 0).evtTail + 1) % 1024 ≠ (s.win 0).evtHead →
    SMap.find? (t.win 0).evt (s.win 0).evtTail = some ⟨code, s.frame.number, detail⟩ ∧ (t.win 0).evtTail = ((s.win 0).evtTail + 1) % 1024

/-- A counter register counts one more event, and saturates (R18). -/
def State.counts (s t : State) (f : Fld) (i : Nat := 0) : Prop := t.fld f i = min (s.fld f i + 1) (2 ^ f.width - 1)

/-- The part is in Off for a cause that only SYS_RST_N or VDD_AON ends (R445, R453): Off is held, or SYS_RST_N is low; no start is wanted and
no change of power state is under way. -/
def State.offStands (s : State) : Prop :=
  s.isOff = true ∧ s.pwr.change = none ∧ s.pwr.want = false ∧ (s.pwr.offHeld = true ∨ s.pwr.sysRst = true)

/-- All volatile state is gone (R189, R459): no itinerary, no request, nothing in a hamper or in stacked memory; what the vault holds
(array records, ledger, image, keys, audit log, history) and the cells of arrays that ran no command are as they were. -/
structure State.volatileLost (s t : State) : Prop where
  frame : t.frame.st = .empty ∧ t.frame.active = none
  serve : t.serve = []
  memory : t.hamper = [] ∧ t.dram = []
  cores : t.cores = []
  records : t.wgt.recs = s.wgt.recs ∧ t.wgt.ledger = s.wgt.ledger ∧ t.wgt.resident = s.wgt.resident
  session : t.wgt.plan = none ∧ t.wgt.st = 0
  security : t.sec.opKeys = s.sec.opKeys ∧ t.sec.insKeys = s.sec.insKeys ∧ t.sec.pubKeys = s.sec.pubKeys ∧ t.sec.log = s.sec.log ∧ t.sec.nextSeq = s.sec.nextSeq
  roles : ∀ fn, t.roleOf fn = 0
  history : t.hist.recs = s.hist.recs
  cells : s.canonical = true → ∀ a, (s.arr a).cmd = none → (t.arr a).cells = (s.arr a).cells ∧ (t.arr a).cmd = none

/-- The rule a management command is taken by, with its first argument word. -/
def State.ruleOf (s : State) : Instr → Option (Mgmt × CmdRule × Nat)
  | .setTime c _ _ => some (c, partCmd 0x10 roleOpr, 0)
  | .load c switch _ => some (c, partCmd 0x20 roleIns (decide (c.len ≤ 134217728)) true, switchWord switch)
  | .unload c => some (c, partCmd 0x21 roleIns, 0)
  | .start c frame => some (c, partCmd 0x22 roleOpr, frame % 2 ^ 32)
  | .stop c => some (c, partCmd 0x23 roleOpr, 0)
  | .cancelLoad c => some (c, partCmd 0x24 roleIns, 0)
  | .clearFrameCounters c => some (c, partCmd 0x25 roleOpr, 0)
  | .readFrameState c => some (c, partCmd 0x26 roleOpr, 0)
  | .cancel c tag => some (c, pitchCmd 0x40 roleOpr, tag % 2 ^ 32)
  | .setRation c customer _ _ => some (c, pitchCmd 0x41 roleOpr, customer)
  | .readRation c customer => some (c, pitchCmd 0x42 roleOpr, customer)
  | .releaseWaymark c handle => some (c, pitchCmd 0x43 roleOpr, handle % 2 ^ 32)
  | .readServing c => some (c, pitchCmd 0x45 roleOpr (decide (128 ≤ c.len)), 0)
  | .clearServingCounters c => some (c, pitchCmd 0x46 roleOpr, 0)
  | .relayPiece c _ p => some (c, partCmd 0x60 roleIns (decide (32 ≤ c.len) && decide (c.len ≤ 8224)) true, p.shard)
  | .readRelayStatus c => some (c, partCmd 0x61 roleOpr, 0)
  | .readMaskedMap c first => some (c, partCmd 0x62 roleIns, first)
  | .readHistory c _ idx => some (c, partCmd 0x63 roleOpr (decide (128 ≤ c.len)), idx)
  | .lock c value => some (c, partCmd 0x0107 roleIns, value)
  | .keyRemove c role idx => some (c, partCmd 0x0104 roleIns, argWord role idx 0 0)
  | .pubkeyRemove c idx => some (c, partCmd 0x0106 roleIns, idx)
  | .readAudit c first => some (c, partCmd 0x0108 roleOpr, first % 2 ^ 32)
  | .readKeys c => some (c, partCmd 0x0109 roleOpr, 0)
  | .diagUnlock c => some (c, partCmd 0x0120 roleMkr, 0)
  | .keySet c role idx mask _ => some (c, partCmd 0x0103 (if s.firstKey c (if role = 4 then 0 else role) idx then 0 else roleIns) (c.len == 97) true,
      role + 256 * idx + 65536 * mask)
  | .pubkeySet c idx _ => some (c, partCmd 0x0105 (if s.firstKey c 4 idx then 0 else roleIns) (c.len == 97) true, idx)
  | .updateBegin c slot _ => some (c, partCmd 0x0110 roleIns (c.len == 512) true, slot)
  | .updateData c off _ => some (c, partCmd 0x0111 roleIns (decide (c.len ≤ 1048576)) true, off)
  | .updateEnd c => some (c, partCmd 0x0112 roleIns, 0)
  | .updateAbort c => some (c, partCmd 0x0113 roleIns, 0)
  | .activate c slot _ => some (c, partCmd 0x0114 roleIns, slot)
  | .confirm c slot => some (c, partCmd 0x0115 roleIns, slot)
  | .readUpdate c => some (c, partCmd 0x0116 roleOpr, 0)
  | _ => none

/-- A command that changes vault state acts once its pending audit entry stands in the vault (R492, R493). -/
def State.vaultBegun (s : State) (c : Mgmt) (code target : Nat) (detail : Bytes := []) : State :=
  ((s.take c.fn).auditPending c.fn code target detail).2

/-- The command of a vector operation (Table 4-3). -/
def vecCommand (op : VecOp) (core : Nat) (h : OpHdr) (e : OpEnv) (flags k a b dst len : Nat) : Instr :=
  match op with
  | .add => .vecAdd core h e flags k a b dst len
  | .sub => .vecSubtract core h e flags k a b dst len
  | .mul => .vecMultiply core h e flags k a b dst len
  | .fma => .vecFma core h e flags k a b dst len
  | .min => .vecMinimum core h e flags k a b dst len
  | .max => .vecMaximum core h e flags k a b dst len
  | .scale => .vecScale core h e flags k a b dst len
  | .cmp => .vecCompare core h e flags k a b dst len
  | .select => .vecSelect core h e flags k a b dst len
  | .convert => .vecConvert core h e flags k a b dst len
  | .recip => .vecReciprocal core h e flags k a b dst len
  | .rsqrt => .vecRsqrt core h e flags k a b dst len
  | .exp2 => .vecExp2 core h e flags k a b dst len
  | .log2 => .vecLog2 core h e flags k a b dst len
  | .sum => .vecSum core h e flags k a b dst len
  | .maxRed => .vecMaxReduction core h e flags k a b dst len
  | .topK => .vecTopK core h e flags k a b dst len

/-- No byte of any hamper reads otherwise, beside bytes `a` to `a + n - 1` of one site. -/
def State.onlyHamper (s t : State) (site a n : Nat) : Prop :=
  ∀ j b, b < hamperSize → (j = site → b < a ∨ a + n ≤ b) → t.hamperByte j b = s.hamperByte j b

end Sys2Proof.Machine
end

