-- ==== Sys2Proof/Certificates/Slice0/Obligations.lean ====
section
/-!
DEFINITION. The statements about the model, for the provers.  Each names the rules of spec/ it comes from.  A statement says what
a command does (the state it answers, and what it leaves as it was), under conditions on the state and the operands alone.
-/

open Sys2Proof Sys2Proof.Machine

/-- A step runs the command at the front of the queue on the state with the queue's rest (95_what_each_step_holds: each row of the
table is one whole step). -/
def Obligations.StepRunsFrontCommand : Prop :=
  ∀ (c : Instr) (rest : List Instr) (s : State), step (s.withPending (c :: rest)) = exec c (s.withPending rest)

/-- The model's choice (log entry 1): with no command waiting the clock runs for one nanosecond, and the queue stays empty. -/
def Obligations.IdleStepRunsTheClock : Prop :=
  ∀ s : State, s.pending = [] → s.canonical = true →
    ∃ t, step s = .next t ∧ t.pending = [] ∧ t.now = s.now + 1 ∧ s.cyc ≤ t.cyc ∧ t.canonical = true

/-- Every well-formed command, on every state with canonical tables, has a next state; it acts at one instant, leaves the queue as it is
and keeps every table canonical. -/
def Obligations.WellFormedCommandsComplete : Prop :=
  ∀ (i : Instr) (s : State), i.wf = true → s.canonical = true →
    ∃ t, exec i s = .next t ∧ t.pending = s.pending ∧ t.now = s.now ∧ t.cyc = s.cyc ∧ t.canonical = true

/-- The model's choice (log entry 7): exactly the commands that are not well formed stop, with `noSuchUnit`; nothing is refused. -/
def Obligations.OnlyIllFormedCommandsStop : Prop :=
  ∀ (i : Instr) (s : State), (i.wf = false → exec i s = .fault .noSuchUnit) ∧ (∀ f, exec i s = .fault f → i.wf = false) ∧
    ∀ r, exec i s ≠ .refused r

/-- From every sound state, reached by a run or not, the step goes on, and to a sound state: canonical tables and well-formed commands
waiting are an invariant, and under it nothing ever stops. -/
def Obligations.SoundStatesStep : Prop :=
  ∀ s : State, s.sound = true → ∃ t, step s = .next t ∧ t.sound = true

/-- The state after reset is sound, whatever well-formed commands wait, and every field holds its reset value (R500; the model's choice where
the map gives none, log entry 2). -/
def Obligations.ResetIsSound : Prop :=
  (∀ cs : List Instr, cs.all Instr.wf = true → (State.reset.withPending cs).sound = true) ∧ (∀ f i, State.reset.fld f i = f.reset) ∧
    State.reset.frame.st = .empty ∧ State.reset.pending = [] ∧ (∀ site a, State.reset.hamperByte site a = 0) ∧
    (∀ n, State.reset.fld F.PRT_CTL_ENABLE n = 1) ∧ State.reset.fld F.PRT_PARTNUM_PART = 0xFFFF ∧ (∀ a, State.reset.mode a = modeMaint)

/-- A run of any length from any sound state stops at no fault and no refusal. -/
def Obligations.RunsNeverStop : Prop :=
  ∀ (k : Nat) (s : State), s.sound = true → safeRun k s = true

/-- Array commands accepted in MAINT start to run (R107 to R115); ERASE first marks the side store stale in nonvolatile form (R110). -/
def Obligations.ArrayCommandsStart : Prop :=
  ∀ (s : State) (a tag : Nat), a < 20480 → s.flag F.ARR_STATUS_BUSY a = false → s.filling a = false → s.mode a = modeMaint →
    (s.supplyCount < 64 → s.flag F.PWR_STATUS_VPP_ON = true →
      (∃ t, exec (.erase a tag) s = .next t ∧ s.startsCommand t a 3 tag ∧ t.fld F.ARR_STATUS_SIDE_STALE a = 1 ∧ t.vfld F.ARR_STATUS_SIDE_STALE a = 1) ∧
      (s.argsOk a 4 = true → ∃ t, exec (.programRows a tag) s = .next t ∧ s.startsCommand t a 4 tag ∧ t.vfields = s.vfields) ∧
      (s.argsOk a 5 = true → ∃ t, exec (.refreshRows a tag) s = .next t ∧ s.startsCommand t a 5 tag ∧ t.vfields = s.vfields)) ∧
    (s.argsOk a 6 = true → ∃ t, exec (.verifyRow a tag) s = .next t ∧ s.startsCommand t a 6 tag ∧ t.vfields = s.vfields) ∧
    (∃ t, exec (.levelCheck a tag) s = .next t ∧ s.startsCommand t a 7 tag ∧ t.vfields = s.vfields) ∧
    (∃ t, exec (.refSweep a tag) s = .next t ∧ s.startsCommand t a 8 tag ∧ t.vfields = s.vfields) ∧
    (s.argsOk a 9 = true → ∃ t, exec (.writeSide a tag) s = .next t ∧ s.startsCommand t a 9 tag ∧ t.vfields = s.vfields)

/-- The mode commands take effect at once on an array that runs no product (R105, Table 3-9), and end with OK. -/
def Obligations.ArrayModeCommandsTakeEffect : Prop :=
  ∀ (s : State) (a tag : Nat), a < 20480 → s.flag F.ARR_STATUS_BUSY a = false → s.filling a = false → (s.arr a).prod = none →
    (s.mode a = modeServe ∨ s.mode a = modeMaint ∨ (s.mode a = modeExcluded ∧ (s.arr a).retired = false) →
      ∃ t, exec (.enterMaint a tag) s = .next t ∧ t.mode a = modeMaint ∧ s.endsCommand t a 1 tag 0) ∧
    (s.mode a = modeMaint → s.flag F.ARR_STATUS_SIDE_STALE a = false →
      ∃ t, exec (.leaveMaint a tag) s = .next t ∧ t.mode a = modeServe ∧ s.endsCommand t a 2 tag 0) ∧
    (s.mode a = modeServe ∨ s.mode a = modeMaint ∨ s.mode a = modeExcluded →
      ∃ t, exec (.exclude a tag) s = .next t ∧ t.mode a = modeExcluded ∧ s.endsCommand t a 10 tag 0)

/-- What ERASE, VERIFY_ROW, LEVEL_CHECK and WRITE_SIDE leave at their end (R108, R110, R113, R115), with result OK. -/
def Obligations.ArrayCommandsEnd : Prop :=
  ∀ (s : State) (a : Nat) (reads finals : List (Nat × Nat)) (sweep : List Nat) (c : ArrCmd), a < 20480 → (s.arr a).cmd = some c → c.abort = false →
    s.wgt.jobs = [] → s.wgt.planDue = none → s.wgt.st ≠ 3 →
    (c.op = 3 → ∃ t, exec (.arrayCommandEnd a reads finals sweep) s = .next t ∧ s.endsCommand t a 3 c.tag 0 ∧
      (∀ row col, row < 1056 → (t.arr a).code row col = 0) ∧ (t.arr a).side0 = (s.arr a).side0 ∧ (t.arr a).side1 = (s.arr a).side1 ∧
      (t.arr a).sideSel = (s.arr a).sideSel ∧ t.fld F.ARR_CYCLES_COUNT a = min (s.fld F.ARR_CYCLES_COUNT a + 1) 65535 % 65536 ∧
      t.vfld F.ARR_CYCLES_COUNT a = t.fld F.ARR_CYCLES_COUNT a) ∧
    (c.op = 6 → ∃ t, exec (.arrayCommandEnd a reads finals sweep) s = .next t ∧ s.endsCommand t a 6 c.tag 0 ∧
      (t.arr a).verify = (List.range 1024).map fun col => ((s.arr a).drifted reads).code c.row col) ∧
    (c.op = 7 → ∃ t, exec (.arrayCommandEnd a reads finals sweep) s = .next t ∧ s.endsCommand t a 7 c.tag 0 ∧
      t.fld F.ARR_LEVELS_C_CLASS a = ((s.arr a).drifted reads).levelClassOf % 4) ∧
    (c.op = 8 → ∃ t, exec (.arrayCommandEnd a reads finals sweep) s = .next t ∧ s.endsCommand t a 8 c.tag 0 ∧ (t.arr a).sweep = sweep ∧
      (t.arr a).sweepFail = sweepFails sweep) ∧
    (c.op = 9 → ∃ t, exec (.arrayCommandEnd a reads finals sweep) s = .next t ∧ s.endsCommand t a 9 c.tag 0 ∧ t.fld F.ARR_STATUS_SIDE_STALE a = 0 ∧
      (if (s.arr a).sideSel = 0 then (t.arr a).sideSel = 1 ∧ (t.arr a).side1 = c.data ∧ (t.arr a).side0 = (s.arr a).side0
       else (t.arr a).sideSel = 0 ∧ (t.arr a).side0 = c.data ∧ (t.arr a).side1 = (s.arr a).side1))

/-- VPP_ARR leaving regulation marks every running supply-bound command to end with ABORTED (R111). -/
def Obligations.VppLossAbortsSupplyBoundCommands : Prop :=
  ∀ s : State, ∃ t, exec .vppOutOfRegulation s = .next t ∧ t.fld F.PWR_STATUS_VPP_ON = 0 ∧
    (∀ a c, (s.arr a).cmd = some c → supplyBound c.op = true → t.arr a = { s.arr a with cmd := some { c with abort := true } }) ∧
    (∀ a, (∀ c, (s.arr a).cmd = some c → supplyBound c.op = false) → t.arr a = s.arr a) ∧
    s.onlyIn t [.fields, .arrays] ∧ s.onlyFields t [F.PWR_STATUS_VPP_ON]

/-- Operations of the sequencer, the arrays and the accumulator start as they are issued (R148), with their effects. -/
def Obligations.CoreOperationsStart : Prop :=
  ∀ (s : State) (core site : Nat) (r : LegRun) (h : OpHdr) (rest : List Op) (e : OpEnv), core < 1200 → e.words = [] →
    (s.atHead core site r ⟨h, .nop⟩ rest → ∃ d, exec (.nop core h) s = .next (s.begun site r ⟨h, .nop⟩ rest .quiet d true)) ∧
    (∀ c, s.atHead core site r ⟨h, .resetCtr c⟩ rest →
      ∃ d, exec (.resetCtr core h c) s = .next (s.begun site r ⟨h, .resetCtr c⟩ rest .quiet d true) ∧
        (s.begun site r ⟨h, .resetCtr c⟩ rest .quiet d true).ctr site c = 0) ∧
    (∀ tile, s.atHead core site r ⟨h, .flip tile⟩ rest →
      ∃ d, let b := s.begun site r ⟨h, .flip tile⟩ rest .quiet d true
        exec (.flip core h tile) s = .next (b.setCore site { b.core site with tiles := (s.core site).tiles ^^^ 2 ^ tile })) ∧
    (∀ id n, s.atHead core site r ⟨h, .barrier id n⟩ rest → s.siteCore site = some core →
      (s.net.barriers.find? fun b => b.pitch == (s.corePitch core).getD 0 && b.id == id) = none →
      ∃ d, let b := s.begun site r ⟨h, .barrier id n⟩ rest .quiet d false
        exec (.barrier core h id n) s = .next { b with net := { s.net with
          barriers := s.net.barriers ++ [⟨(s.corePitch core).getD 0, id, n, [(core, h.incCtr, h.inc)]⟩] } }) ∧
    (∀ mask fmt buf elems scales ref count, s.atHead core site r ⟨h, .load mask fmt buf elems scales ref count⟩ rest →
      s.resourceReady site (.load mask fmt buf elems scales ref count) = true →
      ∃ d, exec (.arrayInputLoad core h e mask fmt buf elems scales ref count) s =
        .next ((s.begun site r ⟨h, .load mask fmt buf elems scales ref count⟩ rest e d true).opLoad site mask fmt buf elems scales ref count)) ∧
    (∀ arr buf k bank, s.atHead core site r ⟨h, .product arr buf k bank⟩ rest → s.resourceReady site (.product arr buf k bank) = true →
      s.mode (16 * site + arr) = modeServe →
      ∃ d t, exec (.product core h arr buf k bank) s = .next t ∧ t.flag F.ARR_STATUS_PRODUCT (16 * site + arr) = true ∧
        t = ((s.begun site r ⟨h, .product arr buf k bank⟩ rest .quiet d false).productStart (16 * site + arr) buf k bank).onRun site
          fun r => { r with prods := r.prods ++ [arr] }) ∧
    (∀ n bf16 table, s.atHead core site r ⟨h, .accumulate n bf16 table⟩ rest → s.resourceReady site (.accumulate n bf16 table) = true →
      ∃ d, exec (.accumulate core h e n bf16 table) s = .next ((s.begun site r ⟨h, .accumulate n bf16 table⟩ rest e d true).opAccumulate site n bf16 table))

/-- Operations of the rotation unit, the engine, the vector unit and the network interface start as they are issued (R148), with their effects. -/
def Obligations.UnitOperationsStart : Prop :=
  ∀ (s : State) (core site : Nat) (r : LegRun) (h : OpHdr) (rest : List Op) (e : OpEnv), core < 1200 → e.words = [] →
    (∀ m mode fmt inBf16 seed src dst len, s.atHead core site r ⟨h, .rotq m mode fmt inBf16 seed src dst len⟩ rest →
      ∃ d, exec (.rotq core h e m mode fmt inBf16 seed src dst len) s =
        .next ((s.begun site r ⟨h, .rotq m mode fmt inBf16 seed src dst len⟩ rest e d true).opRotq site m mode fmt inBf16 seed src dst len)) ∧
    (∀ x y z m n k32 flags, s.atHead core site r ⟨h, .matmul x y z m n k32 flags⟩ rest →
      ∃ d, exec (.matmul core h e x y z m n k32 flags) s =
        .next ((s.begun site r ⟨h, .matmul x y z m n k32 flags⟩ rest e d true).opMatmul site x y z m n k32 flags)) ∧
    (∀ op flags k a b dst len, s.atHead core site r ⟨h, .vec op flags k a b dst len⟩ rest →
      ∃ d, exec (vecCommand op core h e flags k a b dst len) s =
        .next ((s.begun site r ⟨h, .vec op flags k a b dst len⟩ rest e d true).opVec site op flags k a b dst len)) ∧
    (∀ dest ctr src dst bytes, s.atHead core site r ⟨h, .send dest ctr src dst bytes⟩ rest →
      ∃ d, exec (.send core h e dest ctr src dst bytes) s =
        .next ((s.begun site r ⟨h, .send dest ctr src dst bytes⟩ rest e d true).opSend site e dest ctr src dst bytes)) ∧
    (∀ stream addr bytes token, s.atHead core site r ⟨h, .memRead stream addr bytes token⟩ rest → (s.streamRec stream).isSome = true →
      ∃ d, exec (.memRead core h e stream addr bytes token) s =
        .next ((s.begun site r ⟨h, .memRead stream addr bytes token⟩ rest e d false).opMemRead site e stream addr bytes token)) ∧
    (∀ stream addr bytes token, s.atHead core site r ⟨h, .memWrite stream addr bytes token⟩ rest →
      ∃ d, exec (.memWrite core h e stream addr bytes token) s =
        .next ((s.begun site r ⟨h, .memWrite stream addr bytes token⟩ rest e d true).opMemWrite site stream addr bytes token)) ∧
    (∀ port cls part dest ctr src dst bytes, s.atHead core site r ⟨h, .portSend port cls part dest ctr src dst bytes⟩ rest →
      ∃ d, exec (.portSend core h e port cls part dest ctr src dst bytes) s =
        .next ((s.begun site r ⟨h, .portSend port cls part dest ctr src dst bytes⟩ rest e d true).opPortSend site e port cls part dest ctr src dst bytes))

/-- Both ways of writing the hamper read back what was written, in the order the units see (R142, R143), and change no other byte. -/
def Obligations.HamperWritesReadBack : Prop :=
  ∀ (s : State) (site a : Nat) (bs : Bytes), (s.core site).gather = [] → a + bs.length ≤ hamperSize →
    (s.hamperWrite site a bs).hamperRead site a bs.length = bs ∧ s.onlyHamper (s.hamperWrite site a bs) site a bs.length ∧
    (s.gatherWrite site a bs).hamperRead site a bs.length = bs ∧ s.onlyHamper (s.gatherWrite site a bs) site a bs.length

/-- What completes, arrives or goes idle at a core changes its counters and hamper as R142, R144 to R146 say. -/
def Obligations.CompletionsReachTheCore : Prop :=
  ∀ (s : State) (core site : Nat), core < 1200 → s.coreSite core = some site → s.unitsQuiet site →
    (∀ idx r q, (s.core site).run = some r → r.running.find? (fun q => q.idx == idx) = some q → q.done = true → q.start + q.dur ≤ s.cyc →
      (∀ id n, q.op.kind ≠ .barrier id n) →
      let u := (s.setRun site (some { r with running := r.running.filter fun x => x.idx != idx })).endEffect site q
      ∃ t, exec (.operationComplete core idx) s = .next t ∧ (q.op.hdr.incCtr = none → t = u) ∧
        ∀ k, q.op.hdr.incCtr = some k → t = u.ctrInc site k q.op.hdr.inc ∧ t.ctr site k = min (s.ctr site k + q.op.hdr.inc) 0xFFFFFF) ∧
    (∀ i x k, s.net.transfers[i]? = some x → x.core = core → s.clearing site = false → s.corePitch core = some x.pitch → x.memRead = false →
      x.ctr = some k → x.frame = s.frame.number →
      exec (.transferComplete i) s = .next ((({ s with net := { s.net with transfers := s.net.transfers.eraseIdx i } } : State).deliver site
        x.addr x.data x.bad).ctrInc site k 1)) ∧
    (∀ ctr inc frame pitch, ctr < 64 → s.clearing site = false → s.corePitch core = some pitch →
      (frame = s.frame.number → exec (.remoteIncrement core ctr inc frame pitch) s = .next (s.ctrInc site ctr inc)) ∧
      (frame ≠ s.frame.number → exec (.remoteIncrement core ctr inc frame pitch) s = .next (s.count F.CORE_STALEINC 1 site))) ∧
    (∀ line, ∃ t, exec (.gatherFlushIdle core line) s = .next t ∧ s.onlyIn t [.hamper, .cores] ∧ s.onlyCore t site ∧
      t.core site = { s.core site with gather := (s.core site).gather.filter fun e => !(e.line == line && decide (e.last + 32000 ≤ s.cyc)) } ∧
      t.hamper = ((s.core site).gather.filter fun e => e.line == line && decide (e.last + 32000 ≤ s.cyc)).foldl (fun m e => bankEntry m site e) s.hamper)

/-- The start, the end and the stop of a leg (R149, R150). -/
def Obligations.LegsStartAndEnd : Prop :=
  ∀ (s : State) (core site : Nat), core < 1200 → s.coreSite core = some site →
    (∀ leg, s.frame.st = .running → (s.core site).run = none → s.fld F.CORE_STATUS_SEQ site = seqArmed → s.clearing site = false →
      (s.legsOf core)[(s.core site).nextLeg]? = some leg → 1000 * leg.hdr.start ≤ s.sinceBoundary →
      ∃ t r, exec (.legStart core) s = .next t ∧ (t.core site).run = some r ∧ r.leg = leg ∧ r.idx = (s.core site).nextLeg ∧ r.start = s.cyc ∧
        r.toIssue = leg.ops ∧ r.queued = [] ∧ r.running = [] ∧ r.cause = 0 ∧ (t.core site).nextLeg = (s.core site).nextLeg + 1 ∧
        t.fld F.CORE_LEGPOS_LEG site = (s.core site).nextLeg % 2 ^ F.CORE_LEGPOS_LEG.width ∧
        t.fld F.CORE_STATUS_SEQ site = (if leg.ops.isEmpty then seqDrain else seqRun) ∧
        (t.fld F.CORE_LATECNT site = if 1000 * leg.hdr.start + s.tickCycles ≤ s.sinceBoundary then min (s.fld F.CORE_LATECNT site + 1) (2 ^ 32 - 1)
          else s.fld F.CORE_LATECNT site) ∧
        s.onlyCore t site ∧ t.arrays = s.arrays ∧ t.hamper = s.hamper ∧ t.dram = s.dram) ∧
    (∀ r, (s.core site).run = some r → s.fld F.CORE_STATUS_SEQ site = seqDrain → r.toIssue = [] → r.queued = [] → r.running = [] → r.replay = none →
      ∃ t, exec (.legEnd core) s = .next t ∧ (t.core site).run = none ∧ (t.core site).gather = [] ∧ t.fld F.TST_STATUS_TASTING site = 0 ∧
        t.fld F.CORE_STATUS_SEQ site = (if (s.core site).nextLeg < (s.legsOf core).length then seqArmed else seqIdle) ∧
        t.frame.endedLegs = s.frame.endedLegs ++ [(core, r.idx)] ∧ s.onlyCore t site ∧ t.arrays = s.arrays ∧ t.dram = s.dram) ∧
    (∀ r, (s.core site).run = some r → r.start + 25600000 ≤ s.cyc → r.replay = none →
      ∃ t n, exec (.legOverrunStop core) s = .next t ∧ (t.core site).run = none ∧
        t.fld F.CORE_OVRUNCNT site = min (s.fld F.CORE_OVRUNCNT site + 1) (2 ^ 32 - 1) ∧
        t.frame.endedLegs = s.frame.endedLegs ++ [(core, r.idx)] ∧ t.frame.stoppedLegs = s.frame.stoppedLegs ++ [(core, r.idx)] ∧
        ⟨core, r.idx, s.frame.number, r.cause ||| 2 ^ causeOverrun, n, true, r.unread⟩ ∈ t.frame.reports ∧ s.onlyCore t site ∧ t.dram = s.dram ∧
        (∀ q ∈ r.running, ∀ arr buf k bank, q.op.kind = .product arr buf k bank → (t.arr (16 * site + arr)).prod = none) ∧
        (∀ a, (∀ q ∈ r.running, ∀ arr buf k bank, q.op.kind = .product arr buf k bank → a ≠ 16 * site + arr) → t.arr a = s.arr a))

/-- The end of a product (R94): its output bank holds its accumulators; one on an array out of service gives zeros (R106). -/
def Obligations.ProductEnds : Prop :=
  ∀ (s : State) (a : Nat) (p : ProdRun) (dev : List (Nat × Int)) (parity : Bool), a < 20480 → (s.arr a).prod = some p →
    p.start + p.dur ≤ s.cyc →
    (((s.arr a).out0.full && (s.arr a).out1.full) = true → exec (.productEnd a dev parity) s = .next s) ∧
    (((s.arr a).out0.full && (s.arr a).out1.full) = false → s.unitsQuiet (a / 16) → (∀ r, (s.core (a / 16)).run = some r → r.taste = none) →
    ∃ t, exec (.productEnd a dev parity) s = .next t ∧ (t.arr a).prod = none ∧ t.fld F.ARR_STATUS_PRODUCT a = 0 ∧
      ((t.arr a).outBank p.bank).full = true ∧
      ((t.arr a).outBank p.bank).acc = (if p.refused then List.replicate 512 0 else ((s.arr a).productAcc ((s.arr a).inBuf p.buf) p.k dev).1) ∧
      (t.arr a).outBank (if p.bank = 0 then 1 else 0) = (s.arr a).outBank (if p.bank = 0 then 1 else 0) ∧
      s.onlyArray t a ∧ t.hamper = s.hamper ∧ t.dram = s.dram)

/-- R65 and R66: exact codes give exact group products; R68: the bounds of the group product and of the accumulator. -/
def Obligations.ProductsAreExact : Prop :=
  (∀ (x : ArrSt) (f : Fmt) (rows : List (Nat × Int)) (gi c : Nat), rows.length = 32 →
    (∀ r ∈ rows, (f = .int4 → -8 ≤ r.2 ∧ r.2 ≤ 7) ∧ (f = .fp4 → -12 ≤ r.2 ∧ r.2 ≤ 12)) →
    let codes := x.groupCodes f rows [] gi c
    let z := groupProduct (planeSum f codes) (rows.map (·.2)).sum
    codes.length = (planeWeights f).length ∧
    (∀ p q, codes[p]? = some q →
      q.1 = (rows.map fun r => planeBit f r.2 p * (x.levels r.1 c).1).sum ∧ q.2 = (rows.map fun r => planeBit f r.2 p * (x.levels r.1 c).2).sum ∧
      q.1 ≤ 96 ∧ q.2 ≤ 96) ∧
    planeSum f codes = (((planeWeights f).zip codes).map fun e => e.1 * (4 * (e.2.1 : Int) + (e.2.2 : Int))).sum ∧
    z = planeSum f codes - 8 * (rows.map (·.2)).sum ∧
    z = (rows.map fun r => r.2 * (4 * ((x.levels r.1 c).1 : Int) + ((x.levels r.1 c).2 : Int) - 8)).sum ∧
    (f = .int4 → z.natAbs ≤ 2048) ∧ (f = .fp4 → z.natAbs ≤ 3072)) ∧
  (∀ (x : ArrSt) (b : InBuf) (k c : Nat), k ≤ 32 → (∀ d ∈ b.offs, d ≤ 7) →
    (x.columnAcc b k [] c).1.natAbs ≤ 103809024 ∧ ∀ dev, (x.columnAcc b k dev c).1.natAbs < 2 ^ 31)

/-- The fate of a suspect leg, and replays at both ends (R351 to R362). -/
def Obligations.SuspectLegsAreReplayed : Prop :=
  ∀ (s : State) (core leg site : Nat) (l : Leg), core < 1200 → s.coreSite core = some site → s.legAt core leg = some l →
    (∀ idx rep it, s.frame.reports[idx]? = some rep → rep.core = core → rep.leg = leg → rep.frame = s.frame.number → rep.final = false →
      s.fld F.RGR_LATCH_HOLDER ≠ 0 → s.frame.active = some it → s.mgr.decided.contains (core, leg) = false → s.mgr.dependents.contains (core, leg) = false →
      rep.cause.testBit causeOverrun = false →
      ∃ t, exec (.suspectReport idx) s = .next t ∧ t.frame.reports = s.frame.reports.eraseIdx idx ∧ t.mgr.decided = s.mgr.decided ++ [(core, leg)] ∧
        (s.notReplayable rep l = true → t.mgr.asked = s.mgr.asked ∧ t.mgr.own = s.mgr.own ++ (s.legSlots core leg).map (fun k => (s.frame.number, k))) ∧
        (∀ p g, s.notReplayable rep l = false → s.partnerOf l = some p → l.hdr.unit.bind s.unitGroup = some g →
          t.mgr.own = s.mgr.own ∧ t.mgr.asked = s.mgr.asked ++ [⟨core, leg, s.frame.number, p, false, false, none⟩] ∧
          t.mgr.pendingSlots = s.mgr.pendingSlots ++ s.legSlots core leg)) ∧
    (∀ src frame group input, ∃ t, exec (.replayRequest src frame group core leg input) s = .next t ∧
      (s.replayRefusal frame group core leg = none →
        t = { s.msgIn with mgr := { s.mgr with replaying := s.mgr.replaying ++ [⟨src, core, leg, frame, input, false, false⟩] } }) ∧
      (∀ why, s.replayRefusal frame group core leg = some why → t = s.msgIn.sendMsg src 0x0202 [core, leg, why])) ∧
    (∀ q, (s.mgr.replaying.find? fun q => q.core == core && !q.running && !q.done) = some q → q.leg = leg → q.frame = s.frame.number →
      s.frame.st = .running → (s.core site).run = none → (s.legsOf core).length ≤ (s.core site).nextLeg → s.clearing site = false → s.arraysTaken site l = false →
      ∃ t r, exec (.replayRun core) s = .next t ∧ (t.core site).run = some r ∧ r.leg = l ∧ r.idx = leg ∧ r.replay = some q.part ∧ r.toIssue = l.ops ∧
        r.start = s.cyc ∧ t.hamper = (q.input.foldl (fun (s : State) w => s.hamperWrite site w.1 w.2) s).hamper ∧
        t.mgr = { s.mgr with replaying := s.mgr.replaying.map fun r => if r = q then { r with running := true } else r }) ∧
    (∀ a, s.openAsked core leg = some a →
      (∀ src frame out payloads, frame = s.frame.number → src = a.partner →
        (∃ t, exec (.replayOutput src frame core leg true out payloads) s = .next t ∧ t.openAsked core leg = none ∧
          t.mgr.own = s.mgr.own ++ (s.legSlots core leg).map (fun k => (s.frame.number, k))) ∧
        (s.frameNs < s.replayLimit → s.frame.endedLegs.contains (core, leg) = true → (∀ r ∈ s.frame.reports, ¬ (r.core = core ∧ r.leg = leg)) →
          (∀ p ∈ s.frame.suppressed, ¬ (p.core = core ∧ p.leg = leg)) →
          ∃ t, exec (.replayOutput src frame core leg false out payloads) s = .next t ∧ t.openAsked core leg = none ∧ t.mgr.own = s.mgr.own ∧
            t.hamper = (out.foldl (fun (s : State) w => s.hamperWrite site w.1 w.2) s).hamper)) ∧
      (∀ src frame, frame = s.frame.number → src = a.partner →
        ∃ t, exec (.replayRefuse src frame core leg) s = .next t ∧ t.openAsked core leg = none ∧
          t.mgr.own = s.mgr.own ++ (s.legSlots core leg).map (fun k => (s.frame.number, k))) ∧
      (s.frame.st = .running → s.replayLimit ≤ s.frameNs →
        ∃ t, exec (.replayGiveUp core leg) s = .next t ∧ t.openAsked core leg = none ∧
          t.mgr.own = s.mgr.own ++ (s.legSlots core leg).map (fun k => (s.frame.number, k))))

/-- What each message about withheld slots leaves (R354, R356, R363 to R365). -/
def Obligations.WithheldListsTravel : Prop :=
  ∀ (s : State) (src epoch frame : Nat) (slots : List Nat),
    (frame = s.frame.number → exec (.replayPending frame slots) s = .next { s.msgIn with mgr := { s.mgr with pendingSlots := s.mgr.pendingSlots ++ slots } }) ∧
    (∀ core ctr, core < 1200 → frame = s.frame.number →
      exec (.suppressed frame core ctr) s = .next { s.msgIn with mgr := { s.mgr with heldCtrs := s.mgr.heldCtrs ++ [(core, ctr)] } }) ∧
    (∀ i, s.isWhistle = true → s.entryOf src = some i → frame = s.frame.number →
      ∃ t, exec (.withhold src frame slots) s = .next t ∧
        t.mgr.notices = s.mgr.notices ++ (slots.filter fun k => !s.mgr.notices.contains (frame, k)).map (fun k => (frame, k)) ∧
        (s.frame.st = .running → s.frame.tNom ≤ s.frameNs → slots ≠ [] → t.mgr.listSent = true)) ∧
    (s.accepts s.whistleMgr src epoch → frame = s.frame.number →
      exec (.list src epoch frame slots) s = .next (({ s.heard epoch with mgr := { s.mgr with
        list := (if s.mgr.listFrame == some frame then s.mgr.list else []) ++ slots, listFrame := some frame } } : State).sendCtl src 3 frame)) ∧
    (∀ i, s.isWhistle = true → s.entryOf src = some i → frame = s.frame.number → s.mgr.listSent = true → s.mgr.acks.contains i = false →
      exec (.listAck src frame) s = .next (({ s with mgr := { s.mgr with acks := s.mgr.acks ++ [i] } } : State).setFld F.PRT_TALLY_ACKS (s.mgr.acks.length + 1))) ∧
    (∀ p slot tag, frame + 1 = s.frame.number → s.mgr.lastBinds = [(p, slot, tag)] → (s.srv p).pipeline.contains src = true →
      ∃ t, exec (.withheldReport src frame slots) s = .next t ∧
        (slots.contains slot = s.mgr.withheldLast.contains slot → t = s.msgIn) ∧
        (slots.contains slot ≠ s.mgr.withheldLast.contains slot → ∀ r ∈ (t.srv p).reqs, r.sub.tag = tag →
          ((s.srv p).reqs.any fun r => r.sub.tag == tag && r.ending.isNone) = true → r.ending = some 0x06)) ∧
    (∀ m, s.accepts s.rackMgr src epoch →
      exec (.replayMap src epoch m) s = .next { s.heard epoch with mgr := { s.mgr with mapNext := some (m.foldl (fun (t : SMap Nat) e => SMap.put t e.1 e.2) []) } })

/-- What the crib commands and INJECT leave (R152 to R154, R157). -/
def Obligations.CribCommands : Prop :=
  ∀ (s : State) (site slot : Nat), site < 1280 → slot < 4 →
    (∀ arr cblock, arr < 16 → cblock < 16 → s.flag F.TST_CRIB_STAT_DONE site = true → s.mode (16 * site + arr) = modeMaint →
      s.flag F.ARR_STATUS_BUSY (16 * site + arr) = false → s.slotBusy site slot = false →
      ∃ t, exec (.cribFill site slot arr cblock) s = .next t ∧ (t.core site).fill = some ⟨slot, arr, cblock, s.now⟩ ∧
        SMap.get CribSlot.empty (t.core site).cribs slot = .empty ∧ t.fld F.TST_CRIB_VALID (4 * site + slot) = 0 ∧ t.fld F.TST_CRIB_STAT_OP site = 1 ∧
        t.fld F.TST_CRIB_STAT_SLOT site = slot ∧ t.fld F.TST_CRIB_STAT_RESULT site = 0 ∧ t.fld F.TST_CRIB_STAT_DONE site = 0 ∧
        s.onlyIn t [.fields, .cores] ∧ s.onlyCore t site) ∧
    (∀ f codes, (s.core site).fill = some f → f.start + (s.arr (16 * site + f.arr)).fillNs ≤ s.now →
      (∀ w, ((s.arr (16 * site + f.arr)).drifted codes).cribBlock f.cblock = some w →
        ∃ t, exec (.cribFillEnd site codes false) s = .next t ∧ (t.core site).fill = none ∧
          SMap.get CribSlot.empty (t.core site).cribs f.slot = ⟨true, f.arr, f.cblock, w⟩ ∧ t.fld F.TST_CRIB_VALID (4 * site + f.slot) = 1 ∧
          t.fld F.TST_CRIB_STAT_RESULT site = 0 ∧ t.fld F.TST_CRIB_STAT_DONE site = 1 ∧ s.onlyCore t site ∧ t.hamper = s.hamper ∧ t.dram = s.dram) ∧
      (((s.arr (16 * site + f.arr)).drifted codes).cribBlock f.cblock = none →
        ∃ t, exec (.cribFillEnd site codes false) s = .next t ∧ (t.core site).fill = none ∧ (t.core site).cribs = (s.core site).cribs ∧
          t.fld F.TST_CRIB_STAT_RESULT site = 0x0A ∧ t.fld F.TST_CRIB_STAT_DONE site = 1 ∧ s.onlyCore t site ∧ t.hamper = s.hamper ∧ t.dram = s.dram)) ∧
    (s.flag F.TST_CRIB_STAT_DONE site = true →
      ∃ t, exec (.cribDrop site slot) s = .next t ∧ SMap.get CribSlot.empty (t.core site).cribs slot = .empty ∧
        t.fld F.TST_CRIB_VALID (4 * site + slot) = 0 ∧ t.fld F.TST_CRIB_STAT_OP site = 2 ∧ t.fld F.TST_CRIB_STAT_RESULT site = 0 ∧
        t.fld F.TST_CRIB_STAT_DONE site = 1 ∧ s.onlyIn t [.fields, .cores, .irq] ∧ s.onlyCore t site) ∧
    (∀ fn, fn ≤ 16 → s.barOpen = true →
      (roleMkr ≤ s.roleOf fn → exec (.tstInject (.host fn) site) s =
        .next ((s.audit fn 0xFFFF 0 0 (tstBase site)).setCore site { s.core site with inject := true })) ∧
      (s.roleOf fn < roleMkr → exec (.tstInject (.host fn) site) s = .next (s.audit fn 0xFFFF 1 0xF3 (tstBase site))))

/-- A core's clear and its end (R160, R161). -/
def Obligations.CoresClear : Prop :=
  ∀ (s : State) (site : Nat), site < 1280 →
    (s.clearing site = true → (s.core site).clearStart = none →
      ∃ t, exec (.coreClear site) s = .next t ∧ (∀ a, t.hamperByte site a = 0) ∧ (∀ k, k < 64 → t.ctr site k = 0) ∧
        (t.core site).run = none ∧ (t.core site).tiles = 0 ∧ (t.core site).gather = [] ∧ (t.core site).accStore = [] ∧ (t.core site).cribs = [] ∧
        (t.core site).clearStart = some s.cyc ∧
        (∀ a, a < 16 → (t.arr (16 * site + a)).in0 = .empty ∧ (t.arr (16 * site + a)).in1 = .empty ∧ (t.arr (16 * site + a)).out0 = .empty ∧
          (t.arr (16 * site + a)).out1 = .empty ∧ (t.arr (16 * site + a)).cells = (s.arr (16 * site + a)).cells) ∧
        t.dram = s.dram ∧ s.onlyCore t site ∧ s.onlyHamper t site 0 hamperSize) ∧
    (∀ c, (s.core site).clearStart = some c → c + 1024000 ≤ s.cyc →
      ∃ t, exec (.coreClearComplete site) s = .next t ∧ t.fld F.CORE_STATUS_CLEARING site = 0 ∧
        t.fld F.CORE_CLEARCNT site = min (s.fld F.CORE_CLEARCNT site + 1) (2 ^ F.CORE_CLEARCNT.width - 1) ∧ (t.core site).clearStart = none ∧
        (s.frame.st ≠ .running ∨ s.siteCore site = none → t.fld F.CORE_STATUS_SEQ site = seqIdle) ∧
        (∀ core, s.frame.st = .running → s.siteCore site = some core →
          t.fld F.CORE_STATUS_SEQ site = if (s.core site).nextLeg < (s.legsOf core).length then seqArmed else seqIdle) ∧
        s.onlyIn t [.fields, .cores] ∧ s.onlyCore t site)

/-- What a host write of a plain field does, by the caller's role (R19, R20, R509). -/
def Obligations.HostWritesSetFields : Prop :=
  ∀ (s : State) (fn addr value : Nat), fn ≤ 16 →
    (s.barOpen = false → exec (.registerWrite (.host fn) addr value) s = .next s) ∧
    (s.barOpen = true → findReg (.host fn) addr = none → exec (.registerWrite (.host fn) addr value) s = .next (s.audit fn 0xFFFF 0 0 addr)) ∧
    (∀ b inst r k place f, s.barOpen = true → findReg (.host fn) addr = some (b, inst, r, k) → fn = 0 ∨ b = .hif → b ≠ .arr → b ≠ .intc → b ≠ .rgr →
      wordOk b r value = true → s.regPlace (.host fn) b inst r k = some place → r.flds = [f] → f.rep = 1 → r.isSel = false → f.access = .rw →
      f.own = false → f.store = .plain → f.role = .opr ∨ f.role = .ins ∨ f.role = .mkr → s.writable f place = true →
      (bitsAt value f.lo f.width = s.fld f place → exec (.registerWrite (.host fn) addr value) s = .next (s.audit fn 0xFFFF 0 0 addr)) ∧
      (bitsAt value f.lo f.width ≠ s.fld f place → f.role.rank ≤ s.roleOf fn →
        exec (.registerWrite (.host fn) addr value) s = .next ((s.putFld f place (bitsAt value f.lo f.width)).audit fn 0xFFFF 0 0 addr)) ∧
      (bitsAt value f.lo f.width ≠ s.fld f place → s.roleOf fn < f.role.rank →
        exec (.registerWrite (.host fn) addr value) s = .next (s.audit fn 0xFFFF 1 0xF3 addr)))

/-- A host function without a role can change nothing by register writes but the audit log, and SMBus nothing but its selectors (R20, R506). -/
def Obligations.WritesWithoutRoleChangeNothing : Prop :=
  ∀ (s : State) (addr value : Nat),
    (∀ fn, fn ≤ 16 → s.roleOf fn = 0 →
      ∃ w, exec (.registerWrite (.host fn) addr value) s = .next { s with sec := { s.sec with waiting := w } }) ∧
    ((∀ b inst r k, findReg .smbus addr = some (b, inst, r, k) → r.isSel = false) → exec (.registerWrite .smbus addr value) s = .next s) ∧
    (findReg .firmware addr = none → exec (.registerWrite .firmware addr value) s = .next s)

/-- Reads that do more than return a field (R122, R501, R510). -/
def Obligations.ReadsWithSideEffects : Prop :=
  ∀ (s : State) (p : Path) (addr : Nat), p.ok = true →
    (∀ b inst r k place f, s.pathOff p = false → findReg p addr = some (b, inst, r, k) → s.regPlace p b inst r k = some place → r.flds = [f] → f.access = .rc →
      (∀ fn, p = .host fn → s.roleOf fn ≠ 0 → exec (.rcCounterRead p addr) s = .next (({ s with readout := s.readReg p addr } : State).setFld f 0 place)) ∧
      ((∀ fn, p = .host fn → s.roleOf fn = 0) → exec (.rcCounterRead p addr) s = .next { s with readout := s.readReg p addr })) ∧
    (s.pathOff p = false → exec (.timeLoRead p false) s =
      .next { s.setFld F.CLK_TIME_HI_NS (s.time / 2 ^ 32) (pathCopy p true) with readout := s.time % 2 ^ 32 }) ∧
    (s.pathOff p = false → exec (.timeLoRead p true) s =
      .next { s.setFld F.VLT_AUDIT_SEQ_HI_SEQ (s.sec.nextSeq / 2 ^ 32) (pathCopy p true) with readout := s.sec.nextSeq % 2 ^ 32 }) ∧
    (∀ audit, s.pathOff p = true → exec (.timeLoRead p audit) s = .next { s with readout := 0 })

/-- When a management command is taken, what refuses it first, and what an answer is (R313, R314, Table 9-11). -/
def Obligations.MgmtCommandsMeetCommonResults : Prop :=
  ∀ (s : State) (c : Mgmt), c.fn ≤ 16 →
    (∀ i r target, s.ruleOf i = some (c, r, target) → s.nothingWaits →
      (s.takes c.fn = false → exec i s = .next s) ∧
      (∀ e, s.takes c.fn = true → s.common c r = some e →
        exec i s = .next ((if e = 0xF5 then (s.take c.fn).count F.HIF_CPLTOCNT else s.take c.fn).answer c r.code e target))) ∧
    (∀ code result target detail, s.responded (s.answer c code result target detail) c code result ∧
      s.onlyIn (s.answer c code result target detail) [.host, .sec])

/-- Loading, cancelling and unloading an itinerary (R172, R177, R190 to R192, R196). -/
def Obligations.ItinerariesLoad : Prop :=
  ∀ (s : State) (c : Mgmt),
    (∀ switch bytes, s.heeds c (partCmd 0x20 roleIns (decide (c.len ≤ 134217728)) true) → s.loadNotNow switch = false → s.locked = false →
      s.frame.load = none → s.frame.repl = none →
      ∃ t, exec (.load c switch bytes) s = .next t ∧ (t.win c.fn).busy = true ∧ s.onlyIn t [.frame, .host] ∧
        t.frame = { s.frame with load := some ⟨c, switch, bytes, s.now, if s.frame.st = .running && s.flag F.NET_PITCH_CTL_PENDING then some (s.pitchCopy 1) else none⟩ }) ∧
    (∀ l timing cls sec rec detail, s.frame.load = some l → s.frame.stops = [] → s.frame.cancel = none → s.holder ≠ 0 → s.paused = false →
      (∀ code f, firstFailure ((s.loadCtx l).checks s s.loadImage (some (timing, ⟨sec, rec, detail⟩))) = some (code, f) →
        ∃ t, exec (.loadCheckEnd timing cls sec rec detail) s = .next t ∧ s.responded t l.cmd 0x20 code ∧ t.frame = { s.frame with load := none }) ∧
      (firstFailure ((s.loadCtx l).checks s s.loadImage (some (timing, ⟨sec, rec, detail⟩))) = none → s.loadNotNow l.switch = false →
        (l.switch = none → ∃ t, exec (.loadCheckEnd timing cls sec rec detail) s = .next t ∧ s.responded t l.cmd 0x20 0 ∧ t.frame.load = none ∧
          t.frame.st = .halted ∧ t.frame.active = some (itinOf l.bytes) ∧ t.frame.tNom = 1000 * (itinOf l.bytes).tNomUs) ∧
        (∀ n, l.switch = some n → s.hasBegun n = false → ∃ t, exec (.loadCheckEnd timing cls sec rec detail) s = .next t ∧ s.responded t l.cmd 0x20 0 ∧
          t.frame = { s.frame with load := none, repl := some { itin := itinOf l.bytes, switch := n, pitchCopy := l.pitchCopy } }))) ∧
    (s.heeds c (partCmd 0x21 roleIns) →
      (s.frame.st = .halted → ∃ t, exec (.unload c) s = .next t ∧ s.responded t c 0x21 0 ∧ t.frame.st = .empty ∧ t.frame.active = none ∧ t.frame.repl = none) ∧
      (s.frame.st ≠ .halted → exec (.unload c) s = .next ((s.take c.fn).answer c 0x21 0x20 0))) ∧
    (s.heeds c (partCmd 0x24 roleIns) → s.nothingWaits →
      (s.frame.repl = none → exec (.cancelLoad c) s = .next ((s.take c.fn).answer c 0x24 0x23 0)) ∧
      (∀ r, s.frame.repl = some r → r.switch ≠ (s.frame.number + 1) % 2 ^ 64 →
        ∃ t, exec (.cancelLoad c) s = .next t ∧ s.responded t c 0x24 0 ∧ t.frame = { s.frame with repl := none }) ∧
      (∀ r, s.frame.repl = some r → r.switch = (s.frame.number + 1) % 2 ^ 64 →
        ∃ t, exec (.cancelLoad c) s = .next t ∧ (t.win c.fn).busy = true ∧ t.frame = { s.frame with cancel := some (c, s.now) })) ∧
    (s.heeds c (partCmd 0x25 roleOpr) →
      ∃ t, exec (.clearFrameCounters c) s = .next t ∧ s.responded t c 0x25 0 ∧ t.frame = { s.frame with counts := ⟨0, 0, 0, 0, 0, 0, 0⟩ } ∧
        s.onlyIn t [.frame, .host, .sec]) ∧
    (s.heeds c (partCmd 0x26 roleOpr) → exec (.readFrameState c) s = .next ((s.take c.fn).answer c 0x26 0 0
      (toLe 8 s.frame.st.code ++ toLe 8 s.frame.number ++ toLe 4 ((s.frame.active.map (·.tNomUs)).getD 0)
        ++ toLe 8 ((s.frame.active.map (·.itinId)).getD 0) ++ toLe 8 ((s.frame.repl.map (·.switch)).getD 0))))

/-- START and STOP (R176), which whistles are boundaries (R178, R180, R396), the ready point and READY (R174, R402). -/
def Obligations.FramesStartAndTurn : Prop :=
  ∀ (s : State) (c : Mgmt), s.nothingWaits →
    (∀ frame, s.heeds c (partCmd 0x22 roleOpr) → s.frame.st = .halted → s.flag F.SEC_LOCK_DIAG = false → s.fld F.PWR_STATUS_STATE < 2 →
      ∃ t, exec (.start c frame) s = .next t ∧ s.responded t c 0x22 0 ∧ t.fld F.PWR_STATUS_STATE = 0 ∧
        t.frame = { s.frame with st := .armed, startFrame := frame % 2 ^ 64, held := false, afterSelf := false }) ∧
    (s.heeds c (partCmd 0x23 roleOpr) →
      (s.frame.st = .armed → ∃ t, exec (.stop c) s = .next t ∧ s.responded t c 0x23 0 ∧ t.frame = { s.frame with st := .halted }) ∧
      (s.frame.st = .running → ∃ t, exec (.stop c) s = .next t ∧ (t.win c.fn).busy = true ∧ t.frame = { s.frame with stops := [c] }) ∧
      (s.frame.st = .halted ∨ s.frame.st = .empty → exec (.stop c) s = .next ((s.take c.fn).answer c 0x23 0x20 0))) ∧
    (∀ n, (0 < n → n < 8 → exec (.whistleInEdge n) s = .next (s.count F.PRT_WGLITCHCNT)) ∧
      (8 ≤ n → s.mgr.source ≠ 0 → exec (.whistleInEdge n) s = .next (s.count F.PRT_WPINCNT)) ∧
      (8 ≤ n → s.mgr.source = 0 → s.frame.st = .halted ∨ s.frame.st = .empty →
        exec (.whistleInEdge n) s = .next ((s.count F.PRT_WPINCNT).onFrameCounts fun x => { x with ignored := sat32 (x.ignored + 1) })) ∧
      (8 ≤ n → s.mgr.source = 0 → s.frame.st = .armed → exec (.whistleInEdge n) s = .next ((s.count F.PRT_WPINCNT).boundary 3).rebusy) ∧
      (8 ≤ n → s.mgr.source = 0 → s.frame.st = .running → s.inStray = false →
        (s.windowOpen = true → s.windowHolds = true → s.frame.held = false → exec (.whistleInEdge n) s = .next ((s.count F.PRT_WPINCNT).boundary 0).rebusy) ∧
        (s.windowOpen = false → ∃ t, exec (.whistleInEdge n) s = .next t ∧
          t.frame = { s.frame with held := true, counts := { s.frame.counts with early := sat32 (s.frame.counts.early + 1) } }))) ∧
    (∀ src epoch frame, s.accepts s.whistleMgr src epoch → s.mgr.source = 1 →
      (s.frame.st = .armed → frame = s.frame.startFrame → exec (.whistle src epoch frame) s = .next ((s.setFld F.PRT_MGREPOCH_EPOCH epoch).boundary 3).rebusy) ∧
      (s.frame.st = .running → frame = (s.frame.number + 1) % 2 ^ 64 → s.inStray = false → s.windowOpen = true → s.windowHolds = true → s.frame.held = false →
        exec (.whistle src epoch frame) s = .next ((s.setFld F.PRT_MGREPOCH_EPOCH epoch).boundary 0).rebusy) ∧
      (s.frame.st = .running → frame ≠ (s.frame.number + 1) % 2 ^ 64 → frame ≠ s.frame.number →
        exec (.whistle src epoch frame) s = .next (s.setFld F.PRT_MGREPOCH_EPOCH epoch).foreign)) ∧
    (s.frame.st = .running → s.frame.held = true → s.windowOpen = true → exec .windowOpen s = .next (s.boundary 1).rebusy) ∧
    (s.frame.st = .running → 5 * s.frame.tNom ≤ 4 * s.frameNs →
      exec .selfWhistle s = .next ((s.onFrameCounts fun x => { x with self := sat32 (x.self + 1) }).boundary 2).rebusy) ∧
    (s.isWhistle = true → (s.frame.st = .armed → exec .managerWhistle s = .next (s.boundary 3).rebusy) ∧
      (s.frame.st = .running → s.withheldList = [] → s.mayWhistle = true → exec .managerWhistle s = .next (s.absences.boundary 0).rebusy)) ∧
    (s.frame.st = .running → s.frame.readyPoint = false → 875 * s.frame.tNom / 1000 ≤ s.frameNs →
      ∃ t, exec .readyPoint s = .next t ∧ t.frame = { s.frame with readyPoint := true } ∧ exec .readyPoint t = .next t) ∧
    (s.frame.st = .running → s.ownReady = true → s.paused = false → s.whistleMgr ≠ 0xFFFF → s.whistleMgr ≠ s.partNum →
      (∀ x, s.mgr.readySent = some x → x + 4000 ≤ s.now) →
      exec .readyRepeat s = .next (({ s with mgr := { s.mgr with readySent := some s.now } } : State).sendCtl s.whistleMgr 2 s.frame.number [s.fld F.PWR_STATUS_DEGRADED]))

/-- How a function comes to hold a role and loses it (R486, R488), and DIAG_UNLOCK (R490). -/
def Obligations.RolesAreHeldAndLost : Prop :=
  ∀ (s : State) (c : Mgmt), c.fn ≤ 16 →
    (s.takes c.fn = true → s.lockedOut c.fn = false →
      ∃ t, exec (.roleChallenge c) s = .next t ∧ s.responded t c 0x0100 0 ∧ t.free = s.free + 1 ∧ t.nonceOf c.fn = some (toLe 32 (Config.random s.free % 2 ^ 256)) ∧
        t.roleOf c.fn = s.roleOf c.fn) ∧
    (∀ role idx sig n, s.takes c.fn = true → s.lockedOut c.fn = false → (role = 3 → s.locked = false) → s.nonceOf c.fn = some n →
      (∀ k, s.authKey c.fn role idx = some k → exec (.roleAssume c role idx sig) s =
        .next (((s.take c.fn).setFnSec c.fn { s.fnSec c.fn with nonce := none }).engineAsk {
          use := .role c role idx, key := k, digest := sha384 (n ++ s.serial ++ [BitVec.ofNat 8 c.fn, BitVec.ofNat 8 role]), sig := sig, keyCheck := false })) ∧
      (s.authKey c.fn role idx = none → ∃ t, exec (.roleAssume c role idx sig) s = .next t ∧ s.responded t c 0x0101 0x03 ∧
        t.fld F.SEC_AUTHFAILCNT = min (s.fld F.SEC_AUTHFAILCNT + 1) (2 ^ F.SEC_AUTHFAILCNT.width - 1) ∧ t.roleOf c.fn = s.roleOf c.fn ∧ t.nonceOf c.fn = none)) ∧
    (∀ r t0 role idx, s.sec.engine.served = some (r, t0) → t0 + 1900000 ≤ s.now → r.use = .role c role idx → role < 4 → (role = 3 → s.locked = false) →
      s.authKey c.fn role idx = some r.key →
      (r.code = 0 → ∃ t, exec .signatureAnswer s = .next t ∧ t.roleOf c.fn = role ∧ t.fld F.SEC_FN_ROLE_KEY c.fn = idx % 2 ^ F.SEC_FN_ROLE_KEY.width ∧
        (t.fnSec c.fn).fails = 0 ∧ s.responded t c 0x0101 0) ∧
      (r.code ≠ 0 → ∃ t, exec .signatureAnswer s = .next t ∧ t.roleOf c.fn = s.roleOf c.fn ∧ s.responded t c 0x0101 0x02 ∧
        t.fld F.SEC_REJECTCNT = min (s.fld F.SEC_REJECTCNT + 1) (2 ^ F.SEC_REJECTCNT.width - 1))) ∧
    (s.takes c.fn = true → ∃ t, exec (.roleRelease c) s = .next t ∧ t.roleOf c.fn = 0 ∧ t.fld F.SEC_FN_ROLE_KEY c.fn = 0 ∧ s.responded t c 0x0102 0) ∧
    (∀ e, (s.fnSec c.fn).lockEnd = some e → e ≤ s.now →
      ∃ t, exec (.lockoutEnd c.fn) s = .next t ∧ (t.fnSec c.fn).lockEnd = none ∧ (t.fnSec c.fn).fails = 0 ∧ t.fld F.SEC_FN_ROLE_LOCKOUT c.fn = 0 ∧
        t.roleOf c.fn = s.roleOf c.fn) ∧
    (∀ n e, (s.fnSec c.fn).nonce = some (n, e) → e + 10000000000 ≤ s.now →
      exec (.nonceExpiry c.fn) s = .next (s.setFnSec c.fn { s.fnSec c.fn with nonce := none })) ∧
    (s.heeds c (partCmd 0x0120 roleMkr) → s.locked = false → s.frame.st = .halted ∨ s.frame.st = .empty →
      exec (.diagUnlock c) s = .next (((s.take c.fn).setFld F.SEC_LOCK_DIAG 1).answer c 0x0120 0 0))

/-- Keys, lock, audit log and journal (R469, R487, R489 to R494). -/
def Obligations.KeysLockAndAudit : Prop :=
  ∀ (s : State) (c : Mgmt), c.fn ≤ 16 →
    (∀ role idx mask key, (role = 1 ∨ role = 2) → s.heeds c (partCmd 0x0103 (if s.firstKey c role idx then 0 else roleIns) (c.len == 97) true) →
      s.locked = false → idx < tableSize role →
      exec (.keySet c role idx mask key) s = .next ((s.vaultBegun c 0x0103 (role + 256 * idx + 65536 * mask) ((sha384 key).take 8)).engineAsk
        { use := .key c role idx mask key s.sec.nextSeq, key := key, digest := List.replicate 48 0, sig := toBe 48 1 ++ toBe 48 1, keyCheck := true })) ∧
    (∀ idx key, s.heeds c (partCmd 0x0105 roleIns (c.len == 97) true) → s.locked = false → idx < 4 →
      exec (.pubkeySet c idx key) s = .next ((s.vaultBegun c 0x0105 idx ((sha384 key).take 8)).engineAsk
        { use := .key c 4 idx 0 key s.sec.nextSeq, key := key, digest := List.replicate 48 0, sig := toBe 48 1 ++ toBe 48 1, keyCheck := true })) ∧
    (∀ r t0 table idx mask key seq, s.sec.engine.served = some (r, t0) → t0 + 1900000 ≤ s.now → r.use = .key c table idx mask key seq → s.locked = false →
      (table = 1 ∨ table = 2 ∨ table = 4) → ∃ t, exec .signatureAnswer s = .next t ∧
        (r.code = 0 → SMap.find? (t.keysOf table) idx = some ⟨key, if table = 1 then mask else 0⟩) ∧
        (r.code ≠ 0 → t.sec.opKeys = s.sec.opKeys ∧ t.sec.insKeys = s.sec.insKeys ∧ t.sec.pubKeys = s.sec.pubKeys)) ∧
    (∀ role idx, (role = 1 ∨ role = 2) → s.heeds c (partCmd 0x0104 roleIns) → s.locked = false → idx < tableSize role →
      ∃ t, exec (.keyRemove c role idx) s = .next t ∧ SMap.find? (t.keysOf role) idx = none ∧ s.responded t c 0x0104 0) ∧
    (∀ idx, s.heeds c (partCmd 0x0106 roleIns) → s.locked = false → idx < 4 →
      ∃ t, exec (.pubkeyRemove c idx) s = .next t ∧ SMap.find? t.sec.pubKeys idx = none ∧ s.responded t c 0x0106 0) ∧
    (∀ v, s.heeds c (partCmd 0x0107 roleIns) →
      (v ≤ 1 → ∃ t, exec (.lock c v) s = .next t ∧ t.fld F.SEC_LOCK_LOCKED = v ∧ t.vfld F.SEC_LOCK_LOCKED = v ∧ s.responded t c 0x0107 0) ∧
      (1 < v → ∃ t, exec (.lock c v) s = .next t ∧ t.fld F.SEC_LOCK_LOCKED = s.fld F.SEC_LOCK_LOCKED ∧ t.vfields = s.vfields ∧ s.responded t c 0x0107 0x01)) ∧
    (∀ first, s.heeds c (partCmd 0x0108 roleOpr) →
      ∃ t out, exec (.readAudit c first) s = .next t ∧ s.responded t c 0x0108 0 ∧ (t.win c.fn).output = (s.win c.fn).output ++ [out] ∧ s.onlyIn t [.host, .sec] ∧
        out = (((s.sec.log.filter fun e => decide (first ≤ e.1)).take (c.len / 64)).flatMap fun e => e.2.bytes e.1)) ∧
    (s.heeds c (partCmd 0x0109 roleOpr) → ∃ t out, exec (.readKeys c) s = .next t ∧ s.responded t c 0x0109 0 ∧ (t.win c.fn).output = (s.win c.fn).output ++ [out] ∧
      t.sec = { s.sec with waiting := t.sec.waiting } ∧ s.onlyIn t [.host, .sec]) ∧
    (∀ e rest, s.sec.waiting = e :: rest → ∃ t, exec .auditFlush s = .next t ∧ t.sec.waiting = rest ∧ SMap.find? t.sec.log s.sec.nextSeq = some e ∧
      t.sec.nextSeq = s.sec.nextSeq + 1) ∧
    (∀ addr data steps, addr + data.length ≤ 65536 * vaultUnits → data.length ≤ 256 → s.sec.journal.length < 128 →
      (addr / 65536 < 792 ∨ 808 ≤ addr / 65536 ∨ s.flag F.SEC_LOCK_DIAG = true) →
      ∃ t, exec (.atomicRecordWrite addr data steps false) s = .next t ∧ t.sec.gen = s.sec.gen + 1 ∧
        t.sec.bytes = (if 2 ≤ steps then Memory.write s.sec.bytes addr data else s.sec.bytes) ∧
        t.sec.journal = (if 3 ≤ steps then s.sec.journal else s.sec.journal ++ [⟨addr, data, s.sec.gen, decide (1 ≤ steps), false⟩]) ∧
        t.fld F.VLT_RECWRCNT = (if 3 ≤ steps then min (s.fld F.VLT_RECWRCNT + 1) (2 ^ F.VLT_RECWRCNT.width - 1) else s.fld F.VLT_RECWRCNT))

/-- Update sessions, confirmation and the signature engine (R474, R476, R482, R496). -/
def Obligations.UpdatesWriteSlots : Prop :=
  ∀ (s : State) (c : Mgmt),
    (∀ slot h, s.heeds c (partCmd 0x0110 roleIns (c.len == 512) true) →
      (∀ code, s.beginBars slot h = some code → ∃ t, exec (.updateBegin c slot h) s = .next t ∧ s.responded t c 0x0110 code ∧ t.sec.session = s.sec.session ∧
        (code ≠ 0 → t.fld F.UPD_REFUSECNT = min (s.fld F.UPD_REFUSECNT + 1) (2 ^ F.UPD_REFUSECNT.width - 1))) ∧
      (s.beginBars slot h = none → imgClass h = 1 → ∃ t, exec (.updateBegin c slot h) s = .next t ∧ s.responded t c 0x0110 0 ∧ t.session = 2 ∧
        t.slotState slot 1 = 1 ∧ t.sec.session = some { fn := c.fn, slot := slot, cls := 1, header := h, body := [], seq := s.sec.nextSeq }) ∧
      (∀ k, s.beginBars slot h = none → imgClass h ≠ 1 → imgKey h = some k → ∃ t, exec (.updateBegin c slot h) s = .next t ∧ t.session = 1 ∧
        t.sec.session = some { fn := c.fn, slot := slot, cls := 2, header := h, body := [], seq := s.sec.nextSeq } ∧ t.sec.images = s.sec.images)) ∧
    (∀ off data, s.heeds c (partCmd 0x0111 roleIns (decide (c.len ≤ 1048576)) true) →
      (∀ x, s.mySession c.fn = some x → off = x.body.length →
        ∃ t, exec (.updateData c off data) s = .next t ∧ s.responded t c 0x0111 0 ∧ t.sec.session = some { x with body := x.body ++ data }) ∧
      (∀ x, s.mySession c.fn = some x → off ≠ x.body.length →
        ∃ t, exec (.updateData c off data) s = .next t ∧ s.responded t c 0x0111 0x10 ∧ t.sec.session = s.sec.session)) ∧
    (∀ x, s.heeds c (partCmd 0x0112 roleIns) → s.mySession c.fn = some x → x.body.length = imgBodyLen x.header →
      (x.cls = 2 → imgHashesOk x.header x.body = true) →
      ∃ t, exec (.updateEnd c) s = .next t ∧ s.responded t c 0x0112 0 ∧ t.sec.session = none ∧ t.session = 0 ∧ t.slotState x.slot x.cls = 2 ∧
        t.image x.slot x.cls = some ⟨x.header, x.body⟩) ∧
    (∀ x, s.heeds c (partCmd 0x0113 roleIns) → s.mySession c.fn = some x →
      ∃ t, exec (.updateAbort c) s = .next t ∧ s.responded t c 0x0113 0 ∧ t.sec.session = none ∧ t.session = 0 ∧ t.sec.images = s.sec.images) ∧
    (s.flag F.PWR_STATUS_WARN = true ∨ s.wgt.st ≠ 0 → s.session = 1 ∨ s.session = 2 → s.sec.activation = none →
      ∃ t, exec .sessionAborted s = .next t ∧ t.sec.session = none ∧ t.session = 0 ∧
        t.fld F.UPD_ABORTCNT = min (s.fld F.UPD_ABORTCNT + 1) (2 ^ F.UPD_ABORTCNT.width - 1) ∧ t.sec.images = s.sec.images) ∧
    (∀ slot, s.heeds c (partCmd 0x0115 roleIns) → slot ≤ 1 → s.slotState slot 2 = 2 → (s.slotState slot 1 = 2 ∨ s.slotState slot 1 = 3) → slot ≠ s.confirmed →
      s.flag F.PWR_STATUS_WARN = false →
      ∃ t, exec (.confirm c slot) s = .next t ∧ s.responded t c 0x0115 0 ∧ t.confirmed = slot ∧ t.fld F.UPD_STATUS_CONFIRMED = slot) ∧
    (s.heeds c (partCmd 0x0116 roleOpr) → ∃ t, exec (.readUpdate c) s = .next t ∧ s.responded t c 0x0116 0 ∧ s.onlyIn t [.host, .sec] ∧
      t.sec = { s.sec with waiting := t.sec.waiting }) ∧
    (∀ key digest sig, exec (.signatureRequest key digest sig) s = .next (s.engineAsk { use := .boot 0, key := key, digest := digest, sig := sig, keyCheck := false })) ∧
    (∀ r t0 n, s.sec.engine.served = some (r, t0) → t0 + 1900000 ≤ s.now → r.use = .boot n → ∃ t, exec .signatureAnswer s = .next t ∧
      t.fld F.SEC_VERIFYCNT = min (s.fld F.SEC_VERIFYCNT + 1) (2 ^ F.SEC_VERIFYCNT.width - 1) ∧ t.fld F.SEC_ENGINE_LASTCODE = r.code % 2 ^ F.SEC_ENGINE_LASTCODE.width ∧
      t.fld F.SEC_REJECTCNT = if r.code = 0 then s.fld F.SEC_REJECTCNT else min (s.fld F.SEC_REJECTCNT + 1) (2 ^ F.SEC_REJECTCNT.width - 1))

/-- Activation (R477 to R480). -/
def Obligations.ActivationsEnd : Prop :=
  ∀ (s : State) (c : Mgmt),
    (∀ slot frame, s.heeds c (partCmd 0x0114 roleIns) →
      (∀ code, s.activateBars slot = some code → ∃ t, exec (.activate c slot frame) s = .next t ∧ s.responded t c 0x0114 code ∧ t.sec.activation = s.sec.activation) ∧
      (s.activateBars slot = none → ∃ t, exec (.activate c slot frame) s = .next t ∧ (t.win c.fn).busy = true ∧ t.session = (if s.needsPause then 3 else 5) ∧
        t.sec.activation = some { cmd := c, slot := slot, frame := max frame (s.frame.number + s.frame.readyPoint.toNat), began := if s.needsPause then none else some s.now, seq := s.sec.nextSeq })) ∧
    (∀ a staged, s.sec.activation = some a → s.session = 3 → s.frame.st = .running → s.frame.readyPoint = true → a.frame ≤ s.frame.number →
      s.replayPending = false → s.noticesSent = true → s.holder ≠ 0 → ∃ t, exec (.activationPause staged) s = .next t ∧
        (staged = true → (∀ i, s.image a.slot 2 = some i → imgHashesOk i.header i.body = true) →
          t.session = 4 ∧ t.sec.activation = some { a with began := some s.now }) ∧
        (staged = false → t.session = 0 ∧ t.sec.activation = none ∧ s.responded t a.cmd 0x0114 0x0B ∧ t.running = s.running)) ∧
    (∀ a b, s.sec.activation = some a → s.session = 4 → a.began = some b → a.slot ≤ 1 →
      (∀ staged, s.now < b + 1200000 → ∃ t, exec (.activationPause staged) s = .next t ∧ t.session = 0 ∧ t.sec.activation = none ∧ t.running = a.slot ∧
        s.responded t a.cmd 0x0114 0) ∧
      (b + 1200000 ≤ s.now → ∃ t, exec .startFailed s = .next t ∧ t.session = 0 ∧ t.sec.activation = none ∧ t.running = s.running ∧
        s.responded t a.cmd 0x0114 0x0E)) ∧
    (∀ a, s.sec.activation = some a → s.session = 5 ∨ s.session = 3 ∧ s.needsPause = false → a.slot ≤ 1 → ∃ t, exec .activationHandover s = .next t ∧ t.session = 0 ∧ t.sec.activation = none ∧
      t.running = a.slot ∧ s.responded t a.cmd 0x0114 0)

/-- What writes of pitch fields and APPLY do (R205). -/
def Obligations.PitchesAreSetUp : Prop :=
  ∀ (s : State),
    (∀ addr value inst r k, findReg (.host 0) addr = some (.net, inst, r, k) →
      (r.bank = .pitch ∧ r.flds.contains F.NET_PITCH_KVBASE_PAGE = false) ∨ r.bank = .pitchCh → s.barOpen = true →
      let place := if r.bank = .pitchCh then 10 * (16 + s.fld F.NET_PITCH_SEL_PITCH 0) + k else 16 + s.fld F.NET_PITCH_SEL_PITCH 0
      let parts := regParts r place inst k value
      ((∀ q ∈ parts, q.2.2 = s.fld q.1 q.2.1) → exec (.pitchFieldWrite (.host 0) addr value) s = .next (s.audit 0 0xFFFF 0 0 addr)) ∧
      ((∃ q ∈ parts, q.2.2 ≠ s.fld q.1 q.2.1) →
        (s.roleOf 0 < roleIns → exec (.pitchFieldWrite (.host 0) addr value) s = .next (s.audit 0 0xFFFF 1 0xF3 addr)) ∧
        (roleIns ≤ s.roleOf 0 → s.locked = true → exec (.pitchFieldWrite (.host 0) addr value) s = .next (s.audit 0 0xFFFF 1 0x05 addr)) ∧
        (roleIns ≤ s.roleOf 0 → s.locked = false → exec (.pitchFieldWrite (.host 0) addr value) s =
          .next (parts.foldl (fun s q => s.setFld q.1 q.2.2 q.2.1) (s.audit 0 0xFFFF 0 0 addr)).markPending))) ∧
    (∀ fn addr value inst r k, 1 ≤ fn → fn ≤ 16 → s.barOpen = true → findReg (.host fn) addr = some (.net, inst, r, k) →
      (r.bank = .pitch ∧ r.flds.contains F.NET_PITCH_KVBASE_PAGE = false) ∨ r.bank = .pitchCh →
      exec (.pitchFieldWrite (.host fn) addr value) s = .next (s.audit fn 0xFFFF 0 0 addr)) ∧
    (s.barOpen = true →
      (s.roleOf 0 < roleIns → exec (.apply (.host 0)) s = .next (s.audit 0 0xFFFF 1 0xF3 0x1000)) ∧
      (roleIns ≤ s.roleOf 0 → s.frame.st = .armed ∨ s.frame.st = .running →
        exec (.apply (.host 0)) s = .next ((s.audit 0 0xFFFF 0 0 0x1000).setFld F.NET_PITCH_CTL_RESULT 1)) ∧
      (roleIns ≤ s.roleOf 0 → s.frame.st = .halted ∨ s.frame.st = .empty →
        (s.pitchFault (s.pitchCopy 1) ≠ 0 →
          exec (.apply (.host 0)) s = .next ((s.audit 0 0xFFFF 0 0 0x1000).setFld F.NET_PITCH_CTL_RESULT (s.pitchFault (s.pitchCopy 1)))) ∧
        (s.pitchFault (s.pitchCopy 1) = 0 → exec (.apply (.host 0)) s =
          .next ((((s.audit 0 0xFFFF 0 0 0x1000).setFld F.NET_PITCH_CTL_RESULT 0).pitchCurrent (s.pitchCopy 1)).pitchesOff s.pitchesOn))))

/-- Stacked memory behind the pitches (R207, R208, R211, R282), and clock crossings (R220). -/
def Obligations.MemoryIsKept : Prop :=
  ∀ (s : State),
    (∀ ch, ch < 320 → s.fld F.MEM_CH_STATE_STATE ch = 1 →
      ∃ t, exec (.zeroingComplete ch) s = .next t ∧ (∀ o, o < s.channelBytes ch → Memory.byte t.dram (1000000000 * ch + o) = 0) ∧
        (∀ a, (a < 1000000000 * ch ∨ 1000000000 * ch + s.channelBytes ch ≤ a) → Memory.byte t.dram a = Memory.byte s.dram a) ∧
        t.fld F.MEM_CH_STATE_STATE ch = 2 ∧ t.fld F.MEM_CH_STATE_PROGRESS ch = 100 ∧ s.onlyIn t [.fields, .dram, .net] ∧
        s.onlyFields t [F.MEM_CH_STATE_STATE, F.MEM_CH_STATE_PROGRESS]) ∧
    (∀ n, s.frame.st = .halted ∨ (s.frame.st = .running ∧ s.frame.readyPoint = true) →
      exec (.patrolScrub n []) s = .next { s with net := { s.net with scrubNext := (s.net.scrubNext + n) % (320 * 488281) } } ∧
      (∀ ch off, ch < 320 →
        (∃ t, exec (.patrolScrub n [(ch, off, false)]) s = .next t ∧
          t.fld F.MEM_CECNT (ch / 32) = min (s.fld F.MEM_CECNT (ch / 32) + 1) (2 ^ F.MEM_CECNT.width - 1)) ∧
        (∃ t, exec (.patrolScrub n [(ch, off, true)]) s = .next t ∧
          t.fld F.MEM_UECNT (ch / 32) = min (s.fld F.MEM_UECNT (ch / 32) + 1) (2 ^ F.MEM_UECNT.width - 1) ∧ t.fld F.MEM_LASTERR_CH (ch / 32) = ch % 32 ∧
          t.fld F.MEM_LASTERR_GRANULE (ch / 32) = off / 2048 % 2 ^ F.MEM_LASTERR_GRANULE.width ∧ t.fld F.MEM_LASTERR_BEAT (ch / 32) = off % 2048 / 32 ∧
          t.dram = s.dram))) ∧
    (∀ n, s.frame.st = .empty ∨ s.frame.st = .armed → exec (.patrolScrub n []) s = .next s) ∧
    (∀ p ctx stream i r x, p < 16 → ctx < 1048576 → s.frame.st = .running → s.frame.readyPoint = true → s.streamRec stream = some r →
      SMap.find? (s.srv p).ctxs ctx = some x → s.pageEntry p ctx stream i ≠ noPage →
      (s.pageCount p (s.pageEntry p ctx stream i) ≤ 1 → exec (.pageCopy p ctx stream i none) s = .next s) ∧
      (∀ h t, 1 < s.pageCount p (s.pageEntry p ctx stream i) → s.takeRun p 1 = some (h, t) →
        exec (.pageCopy p ctx stream i none) s =
          .next (((t.copyPage p (s.pageEntry p ctx stream i) h).setEntry p ctx stream i h).pageDown p (s.pageEntry p ctx stream i)))) ∧
    (∀ x lost, ∃ t, exec (.crossingReset x lost) s = .next t ∧ t.net.transfers = (s.net.transfers.zipIdx.filter fun t => !lost.contains t.2).map (·.1) ∧
      x ∈ t.net.closed ∧ t.fld F.NET_XRSTCNT = min (s.fld F.NET_XRSTCNT + 1) (2 ^ F.NET_XRSTCNT.width - 1) ∧ s.onlyIn t [.fields, .net] ∧
      s.onlyFields t [F.NET_XRSTCNT])

/-- What relay plans and END do to the session (R228, R233, Tables 7-3 and 7-6). -/
def Obligations.RelaySessions : Prop :=
  ∀ (s : State) (src epoch : Nat) (p : RelayPlan), s.accepts s.rackMgr src epoch →
    (∀ code,
      (p.ok = false ∧ code = 0x0F) ∨ (p.ok = true ∧ p.kind ≠ 1 ∧ s.residentTag p.tag = false ∧ code = 0x0E) ∨
        (p.ok = true ∧ p.kind = 1 ∧ s.residentTag p.tag = false ∧ s.locked = true ∧ code = 0x02) ∨
        (p.ok = true ∧ p.kind = 1 ∧ s.residentTag p.tag = false ∧ s.locked = false ∧ (s.frame.st = .armed ∨ s.frame.st = .running) ∧ code = 0x03) →
      ∃ t, exec (.relayPlan src epoch p) s = .next t ∧ t.wgt = { s.wgt with result := code } ∧ s.onlyIn t [.fields, .irq, .wgt, .link]) ∧
    (s.planRefusal p = none →
      (s.wgt.st = 0 → p.kind = 1 → s.wgt.waiting = [] →
        ∃ t, exec (.relayPlan src epoch p) s = .next t ∧ t.wgt.st = 1 ∧ t.wgt.plan = some p ∧ t.wgt.result = 0 ∧ t.wgt.stages = [] ∧ t.wgt.verified = [] ∧
          t.wgt.accepted = false ∧ t.wgt.recs = s.wgt.recs ∧ t.wgt.resident = s.wgt.resident ∧ t.arrays = s.arrays ∧ t.hamper = s.hamper) ∧
      (∀ old, s.wgt.plan = some old → s.wgt.st ≠ 0 → old.tag = p.tag →
        ∃ t, exec (.relayPlan src epoch p) s = .next t ∧ t.wgt.plan = some p ∧ t.wgt.st = s.wgt.st ∧ t.wgt.stages = s.wgt.stages ∧ t.wgt.verified = s.wgt.verified ∧
          t.wgt.recs = s.wgt.recs ∧ t.arrays = s.arrays) ∧
      (∀ old, s.wgt.plan = some old → s.wgt.st ≠ 0 → old.tag ≠ p.tag → s.jobsBusy = true →
        ∃ t, exec (.relayPlan src epoch p) s = .next t ∧ t.wgt = { s.wgt with planDue := some p } ∧ t.arrays = s.arrays)) ∧
    (s.wgt.st = 4 ∨ s.wgt.st = 5 →
      ∃ t, exec (.relayEnd src epoch) s = .next t ∧ t.wgt.st = 0 ∧ t.wgt.plan = none ∧ t.wgt.stages = [] ∧ t.wgt.requested = [] ∧ t.wgt.recs = s.wgt.recs ∧
        t.wgt.resident = s.wgt.resident ∧ t.arrays = s.arrays ∧ t.hamper = s.hamper ∧ t.dram = s.dram) ∧
    (s.wgt.st ≠ 4 → s.wgt.st ≠ 5 → exec (.relayEnd src epoch) s = .next (s.heard epoch))

/-- Relay pieces (R229 to R231, R330), STALLED (R234), the status record and the map (R259, R329). -/
def Obligations.RelayPieces : Prop :=
  ∀ (s : State) (p : Piece),
    (s.wgt.waiting = [] →
      (s.wgt.plan = none → ∃ t, exec (.relayPieceArrival p) s = .next t ∧ t.wgt.cntDropped = sat32 (s.wgt.cntDropped + 1) ∧ t.wgt.recs = s.wgt.recs) ∧
      (∀ pl, s.wgt.plan = some pl →
        (p.tag ≠ pl.tag → ∃ t, exec (.relayPieceArrival p) s = .next t ∧ t.wgt.cntDropped = sat32 (s.wgt.cntDropped + 1) ∧ t.wgt.st = s.wgt.st) ∧
        (p.tag = pl.tag → p.kind = 4 → exec (.relayPieceArrival p) s =
          .next (s.msgIn.settleStages.passRequest p.shard (if p.chunk = 0 && p.total = 58704 then leafObject else p.chunk))) ∧
        (p.tag = pl.tag → p.kind = 3 → s.wgt.accepted = true → p.shard ≠ pl.shard → pl.toward p.shard = [] → s.isRack = false →
          ∃ t, exec (.relayPieceArrival p) s = .next t ∧ t.wgt.cntMisrouted = sat32 (s.wgt.cntMisrouted + 1) ∧ t.wgt.st = s.wgt.st) ∧
        (p.tag = pl.tag → p.kind = 3 → s.wgt.accepted = true → p.shard = pl.shard → s.keeps p = true → s.wgt.stages.length < 8 →
          (s.wgt.stages.any fun t => t.shard == p.shard && t.chunk == p.chunk) = false →
          ∃ t, exec (.relayPieceArrival p) s = .next t ∧ Stage.mk p.shard p.chunk [(p.off, p.data)] p.total false ∈ t.wgt.stages ∧ t.wgt.stalled = false ∧
            t.wgt.lastPiece = s.now ∧ t.wgt.st = s.wgt.st)) ∧
      (s.msgIn.settleStages.hasRoom p = false →
        exec (.relayPieceArrival p) s = .next (s.msgIn.settleStages.onWgt fun w => { w with waiting := [(none, p)] }))) ∧
    (∀ (c : Mgmt) len, s.heeds c (partCmd 0x60 roleIns (decide (32 ≤ c.len) && decide (c.len ≤ 8224)) true) →
      ((s.wgt.plan.map (·.seed)) ≠ some true → exec (.relayPiece c len p) s = .next ((s.take c.fn).answer c 0x60 1 p.shard)) ∧
      ((s.wgt.plan.map (·.seed)) = some true → c.len ≠ 32 + len → exec (.relayPiece c len p) s = .next ((s.take c.fn).answer c 0x60 2 p.shard)) ∧
      ((s.wgt.plan.map (·.seed)) = some true → c.len = 32 + len → exec (.relayPiece c len p) s = .next ((s.take c.fn).pieceArrives (some c) p))) ∧
    (s.now < s.wgt.lastPiece + 2000000000 → exec .relayStalled s = .next s) ∧
    (s.wgt.st = 1 ∨ (s.wgt.st = 3 ∧ s.neededChunks ≠ []) → s.wgt.lastPiece + 2000000000 ≤ s.now →
      ∃ t, exec .relayStalled s = .next t ∧ t.wgt.stalled = true ∧ t.wgt.lastPiece = s.now ∧ t.wgt.requested = s.wgt.requested ∧ t.wgt.stages = s.wgt.stages ∧
        s.onlyIn t [.wgt, .link, .host]) ∧
    (∀ (c : Mgmt), s.heeds c (partCmd 0x61 roleOpr) →
      s.relayRecord.length = 64 ∧ exec (.readRelayStatus c) s = .next ((s.take c.fn).answer c 0x61 0 0 s.relayRecord)) ∧
    (∀ (c : Mgmt) first, s.heeds c (partCmd 0x62 roleIns) →
      ∃ t b, exec (.readMaskedMap c first) s = .next t ∧ s.responded t c 0x62 0 ∧ (t.win c.fn).output = (s.win c.fn).output ++ [b] ∧
        b.length = 16 * min (c.len / 16) (s.maskedMap.length - first) ∧ s.onlyIn t [.host, .sec])

/-- Verification (R232, R48) and the start of programming (R235, R236). -/
def Obligations.ChunksAreVerified : Prop :=
  ∀ (s : State),
    (∀ c pl st, c < 1223 → s.wgt.waiting = [] → s.wgt.plan = some pl → s.wgt.st = 3 →
      (s.wgt.stages.find? fun t => t.shard == pl.shard && t.chunk == c && !t.verified) = some st → st.total ≤ heldBytes st.parts →
      let b := joined st.parts
      (b.length = objectLen c → leafHash b = slice s.wgt.leaves (48 * c) 48 →
        ∃ t, exec (.chunkVerify c) s = .next t ∧ t.wgt.verified = s.wgt.verified ++ [c] ∧ t.wgt.cntVerified = sat32 (s.wgt.cntVerified + 1) ∧ t.wgt.recs = s.wgt.recs ∧
          (1 ≤ c → c ≤ 22 → badScale b = true → t.wgt.st = 5 ∧ t.wgt.result = 0x0B) ∧
          (1 ≤ c → c ≤ 22 → badScale b = false → SMap.find? t.wgt.sides c = some b) ∧
          (23 ≤ c → { st with verified := true } ∈ t.wgt.stages)) ∧
      (b.length ≠ objectLen c ∨ leafHash b ≠ slice s.wgt.leaves (48 * c) 48 →
        ∃ t, exec (.chunkVerify c) s = .next t ∧ t.wgt.verified = s.wgt.verified ∧ t.wgt.cntHashFail = sat32 (s.wgt.cntHashFail + 1) ∧
          (∀ x ∈ t.wgt.stages, ¬ (x.shard = pl.shard ∧ x.chunk = c)) ∧
          (SMap.get 0 s.wgt.asked c < 3 → t.wgt.st = 3 ∧ SMap.get 0 t.wgt.asked c = SMap.get 0 s.wgt.asked c + 1) ∧
          (3 ≤ SMap.get 0 s.wgt.asked c → t.wgt.st = 5 ∧ t.wgt.result = 0x0A))) ∧
    (∀ r, s.wgt.resident = some r → s.wgt.st = 2 → 58704 ≤ (joined s.wgt.leafParts).length →
      let b := joined s.wgt.leafParts
      (b.length = 58704 → treeRoot (hashesOf b) = r.root →
        ∃ t, exec (.chunkVerify leafObject) s = .next t ∧ t.wgt.st = 3 ∧ t.wgt.leaves = b ∧ t.wgt.resident = some { r with leaves := b }) ∧
      (b.length ≠ 58704 ∨ treeRoot (hashesOf b) ≠ r.root →
        ∃ t, exec (.chunkVerify leafObject) s = .next t ∧ t.wgt.cntHashFail = sat32 (s.wgt.cntHashFail + 1) ∧ t.wgt.leafParts = [])) ∧
    (∀ c, c < 1223 → s.wgt.plan = none → exec (.chunkVerify c) s = .next s) ∧
    (∀ core site pl, core < 1200 → s.coreSite core = some site → s.wgt.plan = some pl →
      (s.coreReady core = true → s.supplyRoom = true → s.flag F.PWR_STATUS_WARN = false → (∀ k, k < core → s.coreReady k = false) →
        ∃ t, exec (.coreProgramStart core) s = .next t ∧ core ∈ t.wgt.started ∧
          (∀ a ∈ s.scopeNow, a / 16 = site → s.toGo a = true → (s.rec_ a).state ≠ .faulty →
            (t.rec_ a).state = .erasing ∧ (t.rec_ a).tag = pl.tag ∧ (t.rec_ a).shard = pl.shard)) ∧
      (s.coreReady core = false → exec (.coreProgramStart core) s = .next s.kickJobs))

/-- Scrub (R256) and SET_TIME (R315). -/
def Obligations.ScrubAndTime : Prop :=
  ∀ (s : State),
    (∀ a l, a < 20480 → s.logicalArr a = some l →
      (s.mode a = modeMaint → s.flag F.ARR_STATUS_BUSY a = false → (s.rec_ a).state = .valid →
        ∃ t, exec (.scrubRead a) s = .next t ∧ SMap.find? t.wgt.scrub l = some ((s.logicalDigest a).getD (List.replicate 48 0)) ∧
          ((s.logicalDigest a).getD (List.replicate 48 0) = (s.rec_ a).digest → t.rec_ a = s.rec_ a) ∧
          ((s.logicalDigest a).getD (List.replicate 48 0) ≠ (s.rec_ a).digest → t.needsChunk a = true) ∧ t.arrays = s.arrays ∧ t.cores = s.cores ∧ t.hamper = s.hamper) ∧
      (s.mode a ≠ modeMaint ∨ s.flag F.ARR_STATUS_BUSY a = true ∨ (s.rec_ a).state ≠ .valid → exec (.scrubRead a) s = .next s)) ∧
    (∀ (c : Mgmt) sec nsec, s.heeds c (partCmd 0x10 roleOpr) →
      (999999999 < nsec → exec (.setTime c sec nsec) s = .next ((s.take c.fn).answer c 0x10 1 0)) ∧
      (nsec ≤ 999999999 → ∃ t, exec (.setTime c sec nsec) s = .next t ∧ s.responded t c 0x10 0 ∧ t.utcNs = some (1000000000 * sec + nsec) ∧
        ((s.win c.fn).discard = false → (SMap.find? (t.win c.fn).rsp (s.win c.fn).rspTail).map (·.detail) = some (toLe 8 s.utcSec)) ∧
        (∀ a, (t.rec_ a).state = (s.rec_ a).state ∧ (t.rec_ a).digest = (s.rec_ a).digest ∧ (t.rec_ a).repair = (s.rec_ a).repair) ∧
        t.arrays = s.arrays ∧ t.hamper = s.hamper ∧ t.frame = s.frame))

/-- Submissions and registrations (R261, R262). -/
def Obligations.SubmissionsOpenOrEnd : Prop :=
  ∀ (s : State),
    (∀ q d rest k, q < 1024 → s.qState q = qActive → s.owner q = some k → (s.queue q).copied = d :: rest →
      let p := s.qPitch q
      (s.rcoreRuns k = false ∨ (s.queue q).waiting.any (·.refusal) = true → exec (.submit q) s = .next s) ∧
      (∀ tag code, s.rcoreRuns k = true → (s.queue q).waiting.any (·.refusal) = false →
        (parseSubmission s.partNum d = none ∧ tag = fieldAt d 8 8 ∧ code = 0x10) ∨
          (∃ sub, parseSubmission s.partNum d = some sub ∧ s.submitCheck p sub = some code ∧ tag = sub.tag) →
        ∃ t, exec (.submit q) s = .next t ∧ s.posted t q (plainCompletion tag 0 0 0 code) ∧ (t.queue q).copied = rest ∧ (t.srv p).reqs = (s.srv p).reqs ∧
          (t.srv p).counts = { (s.srv p).counts with submitted := sat32 ((s.srv p).counts.submitted + 1), refused := sat32 ((s.srv p).counts.refused + 1) } ∧
          (t.srv p).table = (s.srv p).table ∧ s.onlyIn t [.fields, .host, .serve] ∧ s.onlyFields t [F.HIF_Q_STATUS_HELD] ∧ s.onlyPitch t p) ∧
      (∀ sub, s.rcoreRuns k = true → (s.queue q).waiting.any (·.refusal) = false → parseSubmission s.partNum d = some sub → s.submitCheck p sub = none →
        (s.srv p).regs.find? (fun g => g.tag == sub.tag) = none →
        ∃ t, exec (.submit q) s = .next t ∧ (t.queue q).copied = rest ∧
          (t.srv p).reqs = (s.srv p).reqs ++ [newReq sub q ((s.srv p).prefixOf sub) (sub.entry && sub.exit)] ∧
          (t.srv p).counts = { (s.srv p).counts with submitted := sat32 ((s.srv p).counts.submitted + 1) } ∧
          t.link = (if sub.entry && sub.exit then s.link else (s.sendMsg sub.partner 0x0101 [p, sub.tag, sub.customer, sub.promptLen, sub.maxNew]).link) ∧
          s.onlyIn t [.fields, .host, .serve, .link] ∧ s.onlyPitch t p)) ∧
    (∀ q, q < 1024 → (s.queue q).copied = [] ∨ s.qState q ≠ qActive → exec (.submit q) s = .next s) ∧
    (∀ p tag customer promptLen maxNew, p < 16 →
      let g : HeldReg := ⟨tag, customer, promptLen, maxNew, 0⟩
      ((s.srv p).req tag = none → exec (.register p tag customer promptLen maxNew) s =
        .next (s.msgIn.onSrv p fun x => { x with regs := (x.regs.filter fun h => h.tag != tag) ++ [g] })) ∧
      (∀ r, (s.srv p).req tag = some r → r.phase = .pending →
        (g.agrees r.sub = true → ∃ t, exec (.register p tag customer promptLen maxNew) s = .next t ∧
          (t.srv p).req tag = some { r with partnered := true } ∧ s.onlyPitch t p ∧ s.onlyIn t [.fields, .irq, .serve]) ∧
        (g.agrees r.sub = false → ∃ t, exec (.register p tag customer promptLen maxNew) s = .next t ∧ (t.srv p).req tag = none ∧
          (s.qState r.queue ≠ qDisabled → s.posted t r.queue (plainCompletion tag s.frame.number r.length r.generated 0x10)) ∧ s.onlyPitch t p)) ∧
      (∀ r, (s.srv p).req tag = some r → r.phase ≠ .pending → exec (.register p tag customer promptLen maxNew) s = .next s.msgIn)) ∧
    (∀ p tag r, p < 16 → (s.srv p).req tag = some r → r.phase = .pending → r.partnered = false →
      ((s.srv p).partnerTimeout ≤ r.waited → ∃ t, exec (.partnerTimeout p tag) s = .next t ∧ (t.srv p).req tag = none ∧
        (s.qState r.queue ≠ qDisabled → s.posted t r.queue (plainCompletion tag s.frame.number r.length r.generated 0x08)) ∧ s.onlyPitch t p) ∧
      (r.waited < (s.srv p).partnerTimeout → exec (.partnerTimeout p tag) s = .next s))

/-- Cancels (R265), bindings (R267, R268, R276), waymarks (R285, R288). -/
def Obligations.BindingsAndCancels : Prop :=
  ∀ (s : State) (c : Mgmt) (p : Nat), p < 16 →
    (∀ tag, s.heeds c (pitchCmd 0x40 roleOpr) →
      (((s.srv c.on).req tag) = none → ∃ t, exec (.cancel c tag) s = .next t ∧ s.responded t c 0x40 0 ∧ (t.srv c.on).cancels = (s.srv c.on).cancels ∧
        (t.srv c.on).counts.refused = sat32 ((s.srv c.on).counts.refused + 1)) ∧
      (∀ r, (s.srv c.on).req tag = some r → ∃ t, exec (.cancel c tag) s = .next t ∧ s.responded t c 0x40 0 ∧
        (t.srv c.on).cancels = (s.srv c.on).cancels ++ [(tag, s.now)] ∧ (t.srv c.on).reqs = (s.srv c.on).reqs ∧
        t.link = (if r.sub.entry && r.sub.exit then s.link else (s.sendMsg r.sub.partner 0x0103 [c.on, tag]).link))) ∧
    (∀ tag, ((s.srv p).req tag = none → exec (.cancelMessage p tag) s = .next (s.msgIn.onCounts p fun k => { k with refused := sat32 (k.refused + 1) })) ∧
      (∀ r, (s.srv p).req tag = some r → exec (.cancelMessage p tag) s = .next (s.msgIn.onSrv p fun x => { x with cancels := x.cancels ++ [(tag, s.now)] }))) ∧
    (s.frame.st = .running → s.frame.readyPoint = true → s.holder ≠ 0 → s.paused = false → s.isEntry p = true → s.pitchOn p = true →
      s.mgr.withdrawn = false → s.mgr.pitchOut.contains p = false → 875 * s.frame.tNom / 1000 + 4000 ≤ s.frameNs →
      ((s.srv p).nextFrame ≠ some (s.frame.number + 1) → ∃ t, exec (.bindingSelection p) s = .next t ∧ (t.srv p).nextFrame = some (s.frame.number + 1) ∧
        (t.srv p).next.map (fun b => { b with noPage := false }) = (s.choose p).binds ∧ ((s.choose p).binds.map (·.slot)).Nodup ∧
        ((s.choose p).binds.map (·.tag)).Nodup ∧ t.arrays = s.arrays ∧ t.cores = s.cores ∧ s.onlyPitch t p) ∧
      ((s.srv p).nextFrame = some (s.frame.number + 1) → exec (.bindingSelection p) s = .next s)) ∧
    (s.frame.st ≠ .running ∨ s.frame.readyPoint = false ∨ s.paused = true ∨ s.frameNs < 875 * s.frame.tNom / 1000 + 4000 → exec (.bindingSelection p) s = .next s) ∧
    (∀ frame bs wm,
      (s.frame.st = .running → frame = s.frame.number + 1 → ∃ t, exec (.bindingNotice p frame bs wm) s = .next t ∧ (t.srv p).nextFrame = some frame ∧
        (t.srv p).wmDue = wm ∧ (t.srv p).next.map (fun b => { b with noPage := false }) = bs.map fun b => { b with noPage := false }) ∧
      (s.frame.st ≠ .running ∨ frame ≠ s.frame.number + 1 → exec (.bindingNotice p frame bs wm) s = .next s.msgIn)) ∧
    (∀ frame items,
      (s.frame.st = .running → frame = s.frame.number →
        exec (.exitReport p frame items) s = .next (s.msgIn.onSrv p fun x => { x with report := some (x.report.getD [] ++ items) })) ∧
      (s.frame.st ≠ .running ∨ frame ≠ s.frame.number → exec (.exitReport p frame items) s = .next s.msgIn)) ∧
    (∀ h, s.heeds c (pitchCmd 0x43 roleOpr) → ∃ t, exec (.releaseWaymark c h) s = .next t ∧ s.responded t c 0x43 0 ∧ (t.srv c.on).table = (s.srv c.on).table ∧
      ((s.srv c.on).wmFind h = none → (t.srv c.on).counts.refused = sat32 ((s.srv c.on).counts.refused + 1) ∧ (t.srv c.on).releases = (s.srv c.on).releases) ∧
      (∀ k, (s.srv c.on).wmFind h = some k → (s.srv c.on).releases.contains h = false → (t.srv c.on).releases = (s.srv c.on).releases ++ [h])) ∧
    (s.holder = 0 ∨ s.frame.readyPoint = true ∨ (s.srv p).moverFrame = some s.frame.number → exec (.waymarkMover p) s = .next s) ∧
    (s.holder ≠ 0 → s.frame.readyPoint = false → (s.srv p).moverFrame ≠ some s.frame.number → ∃ t, exec (.waymarkMover p) s = .next t ∧
      (t.srv p).moverFrame = some s.frame.number ∧ ((s.srv p).tableState = 0 ∨ (s.srv p).tableState = 2 → (t.srv p).table = (s.srv p).table) ∧ s.onlyIn t [.serve])

/-- The serving commands (R273, R292, R293). -/
def Obligations.ServingIsConfigured : Prop :=
  ∀ (s : State) (c : Mgmt),
    (∀ customer mask r, s.heeds c (pitchCmd 0x41 roleOpr) →
      (customer ≤ 4095 → r.ok mask = true → ∃ t, exec (.setRation c customer mask r) s = .next t ∧ s.responded t c 0x41 0 ∧ s.onlyPitch t c.on ∧
        t.srv c.on = { s.srv c.on with changes := (s.srv c.on).changes ++ [(s.now, .ration customer mask r)] } ∧ s.onlyIn t [.host, .sec, .serve]) ∧
      (4095 < customer ∨ r.ok mask = false → ∃ t, exec (.setRation c customer mask r) s = .next t ∧ s.responded t c 0x41 1 ∧ s.onlyIn t [.host, .sec])) ∧
    (∀ customer, s.heeds c (pitchCmd 0x42 roleOpr) →
      (customer ≤ 4095 → ∃ t, exec (.readRation c customer) s = .next t ∧ s.responded t c 0x42 0 ∧ s.onlyIn t [.host, .sec] ∧
        ((s.win c.fn).discard = false → ∃ r, SMap.find? (t.win c.fn).rsp (s.win c.fn).rspTail = some r ∧ r.detail.length = 56 ∧ fieldAt r.detail 0 2 = customer)) ∧
      (4095 < customer → ∃ t, exec (.readRation c customer) s = .next t ∧ s.responded t c 0x42 1 ∧ s.onlyIn t [.host, .sec])) ∧
    (∀ param v1 v2 parts,
      s.heeds c (pitchCmd 0x44 (if param = 3 || param = 4 then roleIns else roleOpr)
        (param != 4 || (decide (2 ≤ c.len) && decide (c.len ≤ 2048) && c.len % 2 == 0)) (param == 4)) →
      (∀ ch, (param = 1 ∧ 4 ≤ v1 ∧ v1 ≤ 4096 ∧ ch = .age v1) ∨ (param = 2 ∧ 16 ≤ v1 ∧ v1 ≤ 65535 ∧ ch = .partner v1) ∨ (param = 3 ∧ ch = .capacity v1 v2) ∨
          (param = 4 ∧ 1 ≤ parts.length ∧ parts.length ≤ 1024 ∧ ch = .pipeline (parts.map (· % 65536))) →
        ∃ t, exec (.setServing c param v1 v2 parts) s = .next t ∧ s.responded t c 0x44 0 ∧ s.onlyPitch t c.on ∧
          t.srv c.on = { s.srv c.on with changes := (s.srv c.on).changes ++ [(s.now, ch)] } ∧ s.onlyIn t [.host, .sec, .serve]) ∧
      (servingChange param v1 v2 parts = none → ∃ t, exec (.setServing c param v1 v2 parts) s = .next t ∧ s.responded t c 0x44 1 ∧ s.onlyIn t [.host, .sec])) ∧
    (s.heeds c (pitchCmd 0x45 roleOpr (decide (128 ≤ c.len))) →
      ∃ t b, exec (.readServing c) s = .next t ∧ s.responded t c 0x45 0 ∧ (t.win c.fn).output = (s.win c.fn).output ++ [b] ∧ b.length = 128 ∧
        fieldAt b 0 4 = (s.srv c.on).reqs.length % 2 ^ 32 ∧ s.onlyIn t [.host, .sec]) ∧
    (s.heeds c (pitchCmd 0x46 roleOpr) →
      ∃ t, exec (.clearServingCounters c) s = .next t ∧ s.responded t c 0x46 0 ∧ (t.srv c.on).counts = (s.srv c.on).counts ∧
        (t.srv c.on).changes = (s.srv c.on).changes ++ [(s.now, .clear)] ∧ s.onlyPitch t c.on ∧ s.onlyIn t [.host, .sec, .serve])

/-- Queues (R299 to R306, R316, R320). -/
def Obligations.QueuesWork : Prop :=
  ∀ (s : State) (q : Nat), q < 1024 →
    (∀ fn, fn ≤ 16 → s.barOpen = true → s.selectedQueue (.host fn) = some q →
      (s.roleOf fn < roleOpr → exec (.queueEnable (.host fn)) s = .next (s.audit fn 0xFFFF 1 0xF3 (qCtlAddr (.host fn))) ∧
        exec (.queueDrain (.host fn)) s = .next (s.audit fn 0xFFFF 1 0xF3 (qCtlAddr (.host fn)))) ∧
      (roleOpr ≤ s.roleOf fn → s.qState q = qDisabled →
        (s.queueCheck q ≠ 0 → exec (.queueEnable (.host fn)) s =
          .next ((s.audit fn 0xFFFF 0 0 (qCtlAddr (.host fn))).setFld F.HIF_Q_STATUS_ERR (s.queueCheck q) q)) ∧
        (s.queueCheck q = 0 → ∃ t, exec (.queueEnable (.host fn)) s = .next t ∧ t.qState q = qActive ∧ t.fld F.HIF_Q_STATUS_ERR q = 0 ∧
          t.fld F.HIF_Q_STATUS_SQ_HEAD q = 0 ∧ t.queue q = .init ∧ t.owner q = s.nextRunning (q % 8) ∧ s.onlyIn t [.fields, .sec, .host])) ∧
      (roleOpr ≤ s.roleOf fn → s.qState q ≠ qDisabled → exec (.queueEnable (.host fn)) s = .next (s.audit fn 0xFFFF 0 0 (qCtlAddr (.host fn)))) ∧
      (roleOpr ≤ s.roleOf fn → s.qState q = qActive ∨ s.qState q = qError →
        ∃ t, exec (.queueDrain (.host fn)) s = .next t ∧ t.qState q = qDraining ∧
          (∀ r ∈ (s.srv (s.qPitch q)).reqs, r.queue = q → (r.sub.tag, s.now) ∈ (t.srv (s.qPitch q)).cancels) ∧ t.frame = s.frame ∧ s.onlyPitch t (s.qPitch q))) ∧
    (∀ reads, (∀ r ∈ reads, r.q < 1024) → s.pollDue s.host.lastPoll = false ∨ s.isOff = true → exec (.doorbellPoll reads) s = .next s) ∧
    (∀ r : DoorRead, r.q = q → s.pollDue s.host.lastPoll = true → s.isOff = false → s.qState q = qActive → s.busMaster (s.qFn q) = true →
      s.flag F.HIF_FN_STATE_FLR (s.qFn q) = false →
      (s.sqSize q ≤ r.sqTail ∨ s.cqSize q ≤ r.cqHead →
        ∃ t, exec (.doorbellPoll [r]) s = .next t ∧ t.qState q = qError ∧ t.fld F.HIF_Q_STATUS_ERR q = 0x10 ∧ (t.queue q).copied = (s.queue q).copied) ∧
      (∀ k, r.sqTail < s.sqSize q → r.cqHead < s.cqSize q →
        ringAhead (s.cqSize q) (s.queue q).head r.cqHead ≤ ringAhead (s.cqSize q) (s.queue q).head (s.queue q).tail →
        (s.queue q).waiting.any (·.refusal) = false → s.owner q = some k → s.rcoreRuns k = true →
        let n := min 32 (ringAhead (s.sqSize q) (s.fld F.HIF_Q_STATUS_SQ_HEAD q) r.sqTail)
        n ≤ r.subs.length → 0 < n →
        ∃ t, exec (.doorbellPoll [r]) s = .next t ∧ (t.queue q).copied = (s.queue q).copied ++ r.subs.take n ∧ (t.queue q).head = r.cqHead ∧ t.qState q = qActive ∧
          t.fld F.HIF_Q_STATUS_SQ_HEAD q = (s.fld F.HIF_Q_STATUS_SQ_HEAD q + n) % s.sqSize q % 2 ^ F.HIF_Q_STATUS_SQ_HEAD.width)) ∧
    ((s.queue q).waiting = [] ∨ s.qState q = qDisabled ∨ s.cqFull q = true ∨ s.busMaster (s.qFn q) = false → exec (.heldCompletionWrite q) s = .next s) ∧
    (∀ x rest, (s.queue q).waiting = x :: rest → s.qState q ≠ qDisabled → s.cqFull q = false → s.busMaster (s.qFn q) = true →
      ∃ t, exec (.heldCompletionWrite q) s = .next t ∧ (t.queue q).waiting = rest ∧ SMap.find? (t.queue q).ring (s.queue q).tail = some (x, (s.queue q).phase) ∧
        (t.queue q).tail = ((s.queue q).tail + 1) % s.cqSize q ∧ s.onlyIn t [.fields, .host] ∧ s.onlyFields t [F.HIF_Q_STATUS_HELD]) ∧
    (exec (.completionTimeout .doorbell 1) s = .next (s.count F.HIF_CPLTOCNT)) ∧
    (∀ kind, kind ≠ 4 → s.qState q = qActive → (s.queue q).readFails ≠ 0 →
      ∃ t, exec (.completionTimeout (.submission q) kind) s = .next t ∧ t.qState q = qError ∧ t.fld F.HIF_Q_STATUS_ERR q = 0x11 ∧
        t.fld F.HIF_CPLTOCNT = min (s.fld F.HIF_CPLTOCNT + 1) (2 ^ F.HIF_CPLTOCNT.width - 1)) ∧
    (∀ p tag kind r, p < 16 → (s.srv p).req tag = some r → r.readFails = 3 →
      ∃ t r', exec (.completionTimeout (.prompt p tag) kind) s = .next t ∧ (t.srv p).req tag = some r' ∧ r'.gaveUp = true ∧ r'.readFails = 4)

/-- Windows, vectors and poisoned writes (R311, R313, R316, R318). -/
def Obligations.WindowsAndVectors : Prop :=
  ∀ (s : State) (fn : Nat), fn ≤ 16 →
    (∀ reads, (∀ r ∈ reads, r.1 ≤ 16) → s.pollDue s.host.lastMgmt = false ∨ s.isOff = true ∨ s.holder = 0 →
      exec (.mgmtCommandPoll reads none) s = .next s) ∧
    (s.pollDue s.host.lastMgmt = true → s.isOff = false → s.holder ≠ 0 →
      (∀ ct rh eh, (s.win fn).ready = true → s.fnOn fn = true →
        ∃ t, exec (.mgmtCommandPoll [(fn, ct, rh, eh)] none) s = .next t ∧ (t.win fn).cmdTail = ct % 1024 ∧ (t.win fn).rspHead = rh % 1024 ∧
          (t.win fn).evtHead = eh % 1024 ∧ (∀ g, g ≤ 16 → (t.win g).gained = false) ∧ t.host.lastMgmt = some s.now ∧ s.onlyIn t [.fields, .irq, .host]) ∧
      (∀ (c : Mgmt) code, c.fn = fn → s.takes fn = true → commandCodes.contains code = false →
        ∃ t, exec (.mgmtCommandPoll [] (some (c, code))) s = .next t ∧ s.responded t c code 0xF0 ∧ s.onlyIn t [.host, .sec])) ∧
    (∀ vec, vec < 2048 →
      (SMap.get 0 s.host.msiPending (2048 * fn + vec) = 1 → s.busMaster fn = true →
        ∃ t, exec (.msixUnmask fn vec) s = .next t ∧ t.host.sent = s.host.sent ++ [(fn, vec)] ∧ SMap.get 0 t.host.unmasked (2048 * fn + vec) = 1 ∧ s.onlyIn t [.host]) ∧
      (SMap.get 0 s.host.msiPending (2048 * fn + vec) ≠ 1 ∨ s.busMaster fn = false →
        exec (.msixUnmask fn vec) s = .next { s with host := { s.host with unmasked := SMap.set 0 s.host.unmasked (2048 * fn + vec) 1 } })) ∧
    exec .poisonedWrite s = .next (s.count F.HIF_POISONCNT) ∧
    (∀ bme d3, ∃ t, exec (.busMasterEnableChange fn bme d3) s = .next t ∧ t.flag F.HIF_FN_STATE_BME fn = bme ∧ t.flag F.HIF_FN_STATE_D3 fn = d3 ∧
      (bme = true → d3 = false → s.flag F.HIF_LINK_UP = true → s.host.retraining = false →
        ∀ vec, vec < 2048 → SMap.get 0 s.host.unmasked (2048 * fn + vec) = 1 → SMap.get 0 s.host.msiPending (2048 * fn + vec) = 1 → (fn, vec) ∈ t.host.sent) ∧
      (bme = false ∨ d3 = true → t.host = s.host) ∧ s.onlyIn t [.fields, .host] ∧ s.onlyFields t [F.HIF_FN_STATE_BME, F.HIF_FN_STATE_D3])

/-- Resets of functions and of the link (R317, R318), the link's state (R295). -/
def Obligations.HostResetsAreLocal : Prop :=
  ∀ (s : State),
    (∀ fn, fn ≤ 16 → ∃ t, exec (.functionLevelReset fn) s = .next t ∧ t.fld F.HIF_FLRCNT = min (s.fld F.HIF_FLRCNT + 1) (2 ^ F.HIF_FLRCNT.width - 1) ∧
      (∀ q, q < 1024 → s.qFn q = fn → t.qState q = qDisabled ∧ (s.qState q ≠ qDisabled → t.queue q = .init ∧ t.owner q = none)) ∧
      (∀ q r, q < 1024 → s.qFn q = fn → s.qState q ≠ qDisabled → (s.srv (s.qPitch q)).req r.sub.tag = some r → r.queue = q →
        ∃ r', (t.srv (s.qPitch q)).req r.sub.tag = some r' ∧ r'.ending = some 0x04) ∧
      t.roleOf fn = 0 ∧ t.fld F.HIF_FN_STATE_BME fn = 0 ∧ t.fld F.HIF_FN_STATE_D3 fn = 0 ∧
      (s.sec.activation = none → t.win fn = { WinSt.init with ready := (s.win fn).ready, busy := (s.win fn).busy, discard := (s.win fn).busy }) ∧
      (0 < fn → t.host.vfEnable = s.host.vfEnable) ∧ (fn = 0 → t.host.vfEnable = false) ∧
      t.frame = s.frame ∧ t.arrays = s.arrays ∧ t.cores = s.cores ∧ t.hamper = s.hamper ∧ t.dram = s.dram) ∧
    (∃ t, exec .hotReset s = .next t ∧ t.flag F.HIF_LINK_UP = false ∧ t.fld F.HIF_LINK_WIDTH = 0 ∧ t.fld F.HIF_LINK_SPEED = 0 ∧ t.host.vfEnable = false ∧
      (∀ fn, fn ≤ 16 → s.fnOn fn = true → t.roleOf fn = 0 ∧ t.fld F.HIF_FN_STATE_BME fn = 0) ∧
      t.frame = s.frame ∧ t.arrays = s.arrays ∧ t.cores = s.cores ∧ t.hamper = s.hamper ∧ t.dram = s.dram) ∧
    exec .hostLinkFatalError s = exec .hotReset (s.count F.HIF_UNCORRCNT) ∧
    (s.host.perst = false → exec (.perstN true) s = exec .hotReset { s with host := { s.host with perst := true } }) ∧
    exec (.perstN false) s = .next { s with host := { s.host with perst := false } } ∧
    (s.host.vfEnable = true → exec (.vfEnable true) s = .next s ∧
      ∃ t, exec (.vfEnable false) s = .next t ∧ t.host.vfEnable = false ∧ (∀ fn, 1 ≤ fn → fn ≤ 16 → t.roleOf fn = 0) ∧ t.frame = s.frame ∧ t.arrays = s.arrays) ∧
    (s.host.vfEnable = false → exec (.vfEnable false) s = .next s ∧
      ∃ t, exec (.vfEnable true) s = .next t ∧ t.host.vfEnable = true ∧ (∀ fn, 1 ≤ fn → fn ≤ 16 → t.vectorsOf fn = s.fld F.HIF_FN_VEC_VECTORS fn) ∧ s.onlyIn t [.host]) ∧
    exec (.linkRetrain none) s = .next { s.count F.HIF_RETRAINCNT with host := { s.host with retraining := true } } ∧
    (∀ speed width flit, 1 ≤ speed →
      (s.host.perst = false → s.flag F.CLK_STATUS_PCIEREF_OK = true → speed ≤ s.fld F.HIF_LINK_CTL_MAX_SPEED → [1, 2, 4, 8, 16].contains width = true →
        (speed = 6 → flit = true) → ∃ t, exec (.linkRetrain (some (speed, width, flit))) s = .next t ∧ t.flag F.HIF_LINK_UP = true ∧
          t.fld F.HIF_LINK_WIDTH = width ∧ t.flag F.HIF_LINK_FLIT = flit ∧ t.host.retraining = false ∧ s.onlyIn t [.fields, .host]) ∧
      (s.host.perst = true ∨ s.flag F.CLK_STATUS_PCIEREF_OK = false ∨ s.fld F.HIF_LINK_CTL_MAX_SPEED < speed ∨ [1, 2, 4, 8, 16].contains width = false ∨ (speed = 6 ∧ flit = false) →
        exec (.linkRetrain (some (speed, width, flit))) s = .next s))

/-- Prompt tokens (R307, R308) and the history (R373 to R376). -/
def Obligations.PromptsAndHistory : Prop :=
  ∀ (s : State),
    (∀ p slot tokens frame b r, p < 16 → (s.srv p).nextFrame = some frame → (s.srv p).next.find? (fun b => b.slot == slot) = some b → (s.srv p).req b.tag = some r →
      b.fromPrompt r = true → r.gaveUp = false → tokens.length = b.tokens → s.busMaster (s.qFn r.queue) = true → s.isEntry p = true →
      (s.host.staged.any fun t => t.pitch == p && t.slot == slot && t.frame == frame) = false →
      exec (.promptFetch p slot tokens) s = .next { s with host := { s.host with staged := s.host.staged ++ [⟨p, slot, frame, tokens⟩] } }) ∧
    (∀ p slot tokens, p < 16 → (s.srv p).nextFrame = none → exec (.promptFetch p slot tokens) s = .next s) ∧
    (∀ it rec r, s.frame.active = some it → it.ports[rec]? = some r → r.port = 32 →
      (s.frame.st = .running → r.earliest ≤ s.frameCyc → s.frameCyc ≤ r.latest → SMap.get 0 s.fab.arrived rec = 0 →
        ∃ t, exec (.hostInboxDelivery rec) s = .next t ∧ SMap.get 0 t.fab.arrived rec = r.bytes ∧
          t.fld F.HIF_FETCHLATECNT = min (s.fld F.HIF_FETCHLATECNT + ((it.inboxRun r.part r.bytes).filter fun q => (s.inboxOf q).isNone).length)
            (2 ^ F.HIF_FETCHLATECNT.width - 1)) ∧
      (s.frame.st ≠ .running ∨ s.frameCyc < r.earliest ∨ r.latest < s.frameCyc ∨ SMap.get 0 s.fab.arrived rec ≠ 0 →
        exec (.hostInboxDelivery rec) s = .next s)) ∧
    (s.holder = 0 ∨ (∃ x, s.hist.lastWrite = some x ∧ s.now < x + 1000000000) → exec .historyWrite s = .next s) ∧
    (∀ e : HistPend, s.holder ≠ 0 → (∀ x, s.hist.lastWrite = some x → x + 1000000000 ≤ s.now) → s.hist.pend = [e] → e.index < 1048576 →
      (s.now / 1000000000 < e.first / 1000000000 + 2 →
        let r := (s.histRec e.kind e.index).after e s.utcSec
        (r.cls < 2 → e.kind ≠ 5 → ∃ t, exec .historyWrite s = .next t ∧ t.hist.pend = [] ∧ t.histRec e.kind e.index = r ∧ t.hist.lastWrite = some s.now) ∧
        (r.cls = 2 → (s.histRec e.kind e.index).cls < 2 → e.kind = 1 → e.index < 1280 →
          ∃ t, exec .historyWrite s = .next t ∧ t.hist.pend = [] ∧ (t.histRec 1 e.index).cls = 2 ∧ t.rowRetired (siteHalf e.index) (siteRow e.index) = true)) ∧
      (e.first / 1000000000 + 2 ≤ s.now / 1000000000 → e.kind ≠ 5 → ∃ t, exec .historyWrite s = .next t ∧ t.hist.pend = [] ∧
        t.histRec e.kind e.index = s.histRec e.kind e.index ∧
        (t.histRec 5 (unitHalf e.kind e.index)).dropped = min ((s.histRec 5 (unitHalf e.kind e.index)).dropped + 1) (2 ^ 32 - 1))) ∧
    (∀ (r : HistRec) (e : HistPend) utc a b rest, r.cls < 2 → r.windows = a :: b :: rest → a.1 < e.hour → e.hour ≤ b.1 + 719 → e.hour ≤ a.1 + 719 →
      (r.after e utc).cls = 2) ∧
    (∀ (c : Mgmt) kind idx, s.heeds c (partCmd 0x63 roleOpr (decide (128 ≤ c.len))) →
      (unitCount kind ≤ idx → ∃ t, exec (.readHistory c kind idx) s = .next t ∧ s.responded t c 0x63 1 ∧ s.onlyIn t [.host, .sec]) ∧
      (idx < unitCount kind → ∃ t b, exec (.readHistory c kind idx) s = .next t ∧ s.responded t c 0x63 0 ∧ (t.win c.fn).output = (s.win c.fn).output ++ [b] ∧
        b.length = 128 ∧ fieldAt b 0 1 = kind ∧ s.onlyIn t [.host, .sec]))

/-- R335, and R350: no source is delivered until firmware lowers the threshold. -/
def Obligations.SourcesAreDelivered : Prop :=
  ∀ (s : State) (h k : Nat), h < 2 → k < 4 →
    (∀ v i, (s.setFld F.INTC_PRIO v i).fld F.INTC_PRIO i ≤ 15 ∧ (s.setFld F.INTC_THRESH v i).fld F.INTC_THRESH i ≤ 15 ∧ (s.setFld F.INTC_EN v i).fld F.INTC_EN i ≤ 1) ∧
    (∀ id, s.eligible h k id = true ↔
      (s.flag F.INTC_PEND (1024 * h + id) = true ∧ s.flag F.INTC_EN ((4 * h + k) * 1024 + id) = true ∧
        s.fld F.INTC_THRESH (4 * h + k) < s.fld F.INTC_PRIO (1024 * h + id) ∧ s.claimedBy h id = 0)) ∧
    (∀ id, s.fld F.INTC_PRIO (1024 * h + id) = 0 → s.eligible h k id = false) ∧
    (s.irqLine h k = true ↔ ∃ id, id < 1023 ∧ s.eligible h k id = true) ∧
    State.reset.fld F.INTC_THRESH (4 * h + k) = 15 ∧
    (s.fld F.INTC_THRESH (4 * h + k) = 15 → (∀ id, id < 1023 → s.fld F.INTC_PRIO (1024 * h + id) ≤ 15) →
      s.irqLine h k = false ∧
      ∃ t, exec (.intcClaim h k) s = .next t ∧ t.readout = 1023 ∧ (∀ id, t.fld F.INTC_PEND (1024 * h + id) = s.fld F.INTC_PEND (1024 * h + id)) ∧
        (∀ v id, id < 1023 → v < s.fld F.INTC_PRIO (1024 * h + id) → s.flag F.INTC_PEND (1024 * h + id) = true →
          s.flag F.INTC_EN ((4 * h + k) * 1024 + id) = true → s.claimedBy h id = 0 → v ≤ 15 → (t.setFld F.INTC_THRESH v (4 * h + k)).irqLine h k = true))

/-- Interrupts (R334, R336), the firmware clock (R338), the tick (R322). -/
def Obligations.InterruptsAreClaimed : Prop :=
  ∀ (s : State) (h k : Nat), h < 2 → k < 4 →
    (∀ id, id < 1024 →
      (∃ t, exec (.interruptEdge h id) s = .next t ∧ s.onlyIn t [.fields, .irq] ∧ s.onlyFields t [F.INTC_PEND, F.INTC_MERGECNT] ∧
        (∀ g, g < 2 → wiredBoth id = true ∨ (wiredOwn id = true ∧ g = h) →
          (s.fwStopped g = false → t.flag F.INTC_PEND (1024 * g + id) = true ∧
            (s.flag F.INTC_PEND (1024 * g + id) = true → t.fld F.INTC_MERGECNT g = min (s.fld F.INTC_MERGECNT g + 1) (2 ^ F.INTC_MERGECNT.width - 1))) ∧
          (s.fwStopped g = true → SMap.get 0 t.irq.latched (1024 * g + id) = 1 ∧ t.fld F.INTC_PEND (1024 * g + id) = s.fld F.INTC_PEND (1024 * g + id)))) ∧
      (wiredBoth id = false → wiredOwn id = false → exec (.interruptEdge h id) s = .next s)) ∧
    ((∀ id, id < 1023 → s.eligible h k id = false) → exec (.intcClaim h k) s = .next { s.count F.INTC_SPURCNT 1 h with readout := 1023 }) ∧
    (∀ id, id < 1023 → s.eligible h k id = true →
      (∀ j, j < 1023 → s.eligible h k j = true → s.fld F.INTC_PRIO (1024 * h + j) < s.fld F.INTC_PRIO (1024 * h + id) ∨
        (s.fld F.INTC_PRIO (1024 * h + j) = s.fld F.INTC_PRIO (1024 * h + id) ∧ id ≤ j)) →
      ∃ t, exec (.intcClaim h k) s = .next t ∧ t.readout = id ∧ t.fld F.INTC_PEND (1024 * h + id) = 0 ∧ t.claimedBy h id = k + 1 ∧
        t.fld F.INTC_CLAIM_ID (4 * h + k) = id ∧ (∀ j, j < 4 → t.eligible h j id = false) ∧ s.onlyIn t [.fields, .irq, .link, .readout]) ∧
    (∀ id, id < 1024 → (s.claimedBy h id = k + 1 → ∃ t, exec (.intcComplete h k id) s = .next t ∧ t.claimedBy h id = 0 ∧ s.onlyIn t [.irq]) ∧
      (s.claimedBy h id ≠ k + 1 → exec (.intcComplete h k id) s = .next s)) ∧
    (∀ idle, (s.fwStopped h = true ∨ idle < 10000 → exec (.fwclkStop h idle) s = .next s) ∧
      (s.fwStopped h = false → 10000 ≤ idle → ∃ t, exec (.fwclkStop h idle) s = .next t ∧ t.fwStopped h = true ∧
        (∀ j, j ∈ halfCores h → s.rcore j = 0 → t.rcore j = 1) ∧ s.onlyIn t [.fields, .irq] ∧ s.onlyFields t [F.RGR_STATUS_CORE, F.RGR_STATUS_UP])) ∧
    (s.fwStopped h = false ∨ s.wakeable h = false → exec (.fwclkWake h) s = .next s) ∧
    (s.fwStopped h = true → s.wakeable h = true → ∃ t, exec (.fwclkWake h) s = .next t ∧ t.fwStopped h = false ∧
      t.fld F.INTC_WAKECNT h = min (s.fld F.INTC_WAKECNT h + 1) (2 ^ F.INTC_WAKECNT.width - 1) ∧
      (∀ e ∈ s.irq.latched, e.1 / 1024 = h → t.flag F.INTC_PEND e.1 = true) ∧ (∀ j, j ∈ halfCores h → s.rcore j = 1 → t.rcore j = 0)) ∧
    (∀ j, j < 8 →
      (s.rcoreRuns j = true → s.fwStopped (j / 4) = false → s.paused = false → SMap.get 0 s.irq.ticks j + 4000 ≤ s.now →
        exec (.kernelTick j) s = .next { s with irq := { s.irq with ticks := SMap.put s.irq.ticks j s.now } }) ∧
      (s.rcoreRuns j = false ∨ s.fwStopped (j / 4) = true ∨ s.now < SMap.get 0 s.irq.ticks j + 4000 → exec (.kernelTick j) s = .next s))

/-- Crashes (R339 to R342) and leadership (R343 to R345). -/
def Obligations.RangerCoresAndLeadership : Prop :=
  ∀ (s : State) (k h : Nat), k < 8 → h < 2 →
    (∀ i cause, (i = .rangerDown k cause ∧ 2 ≤ cause ∧ cause ≤ 4) ∨
        (i = .watchdogExpiry k ∧ cause = 1 ∧ s.fwStopped (k / 4) = false ∧ s.paused = false ∧ SMap.get 0 s.irq.ticks k + 16000 ≤ s.now) →
      (s.rcoreRuns k = true → ∃ t, exec i s = .next t ∧
        t.rcore k = (if 2 ≤ (s.irq.crashes.filter fun e => decide (s.now < e.2 + 1000000000) && e.1 == k).length then 4 else 2) ∧
        t.fld F.RGR_LASTCRASH_CAUSE (k / 4) = cause ∧ t.fld F.RGR_LASTCRASH_CORE (k / 4) = k ∧
        t.fld F.RGR_CRASHCNT (k / 4) = min (s.fld F.RGR_CRASHCNT (k / 4) + 1) (2 ^ F.RGR_CRASHCNT.width - 1) ∧
        (∀ id, id < 1024 → s.claimedBy (k / 4) id = k % 4 + 1 → t.flag F.INTC_PEND (1024 * (k / 4) + id) = true ∧ t.claimedBy (k / 4) id = 0) ∧
        t.cores = s.cores ∧ t.arrays = s.arrays ∧ t.frame = s.frame ∧ t.hamper = s.hamper) ∧
      (s.rcoreRuns k = false → exec i s = .next s)) ∧
    (s.now < SMap.get 0 s.irq.ticks k + 16000 → exec (.watchdogExpiry k) s = .next s) ∧
    (∀ j, s.sibling k = some j → s.rcoreRuns k = false → s.rcore k ≠ 5 → ∃ t, exec (.rangerTakeover k) s = .next t ∧
      (∀ q, q < 1024 → s.owner q = some k → t.owner q = some j) ∧ (∀ q, q < 1024 → s.owner q ≠ some k → t.owner q = s.owner q) ∧
      (∀ id, id < 1023 → s.flag F.INTC_EN (k * 1024 + id) = true → t.flag F.INTC_EN (j * 1024 + id) = true) ∧ s.onlyIn t [.fields, .irq]) ∧
    (s.rcore k = 2 ∨ s.rcore k = 3 → s.holder ≠ 0 → (halfCores (s.holder - 1)).any s.rcoreRuns = true →
      ∃ t, exec (.rangerUp k) s = .next t ∧ t.rcore k = 0 ∧ t.fld F.RGR_RELOADCNT (k / 4) = min (s.fld F.RGR_RELOADCNT (k / 4) + 1) (2 ^ F.RGR_RELOADCNT.width - 1)) ∧
    (s.rcore k ≠ 2 → s.rcore k ≠ 3 → exec (.rangerUp k) s = .next s) ∧
    (s.holder = 0 → s.halfUp h = true → ∃ t, exec (.leadershipClaim h) s = .next t ∧ t.fld F.RGR_EPOCH = (s.fld F.RGR_EPOCH + 1) % 2 ^ 32 ∧ t.holder = h + 1 ∧
      t.flag F.GLB_LEADER_VALID = true ∧ t.fld F.GLB_LEADER_HALF = h ∧ t.latchAge = 0 ∧
      t.fld F.RGR_CLAIMCNT h = min (s.fld F.RGR_CLAIMCNT h + 1) (2 ^ F.RGR_CLAIMCNT.width - 1) ∧ t.cores = s.cores ∧ t.frame = s.frame) ∧
    (s.holder ≠ 0 ∨ s.halfUp h = false → exec (.leadershipClaim h) s = .next s) ∧
    (∀ epoch,
      (s.leads h = true → epoch = s.epoch → s.latchAge < 50000 → exec (.leadershipRefresh h epoch) s = .next { s with irq := { s.irq with refreshed := some s.now } }) ∧
      (s.leads h = false ∨ epoch ≠ s.epoch ∨ 50000 ≤ s.latchAge → exec (.leadershipRefresh h epoch) s = .next s)) ∧
    (s.holder ≠ 0 → 50000 ≤ s.latchAge → s.islandRefreshes = false → ∃ t, exec .leadershipLapse s = .next t ∧ t.holder = 0 ∧ t.flag F.GLB_LEADER_VALID = false ∧
      t.fld F.RGR_EPOCH = s.fld F.RGR_EPOCH ∧ s.onlyIn t [.fields, .irq]) ∧
    (s.latchAge < 50000 → exec .leadershipLapse s = .next s)

/-- R453, over every command: what ends Off. -/
def Obligations.OffEndsOnlyByCycles : Prop :=
  ∀ (s t : State) (i : Instr), exec i s = .next t →
    (s.offStands → t.offStands ∨ i = .powerOn ∨ i = .powerFailure ∨ (s.pwr.sysRst = true ∧ ∃ mode addr, i = .sysRstNRelease mode addr)) ∧
    (s.offStands → i = .sysRstNAssert → t.offStands ∧ t.pwr.sysRst = true) ∧
    (s.isOff = true → s.flag F.THM_TRIP_TRIPPED = true → s.pwr.change = none →
      (t.isOff = true ∧ t.flag F.THM_TRIP_TRIPPED = true ∧ t.pwr.change = none) ∨ i = .powerOn ∨ i = .powerFailure)

/-- The core clock (R32, R443, R455), the power limits (R447 to R449), the lane references (R456). -/
def Obligations.ClocksFollowPower : Prop :=
  ∀ (s : State),
    (s.pwr.stretch = false → s.fld F.GLB_CLKSTAT_PLL_LOCK = 255 →
      ∃ t, exec .droopStretch s = .next t ∧ t.pwr = { s.pwr with stretch := true } ∧ t.fld F.GLB_CORE_FREQ_MHZ = s.baseMhz * 2 / 3 % 4096 ∧
        t.flag F.GLB_CLKSTAT_STRETCH = true ∧ t.fld F.PWR_DROOPCNT = min (s.fld F.PWR_DROOPCNT + 1) (2 ^ F.PWR_DROOPCNT.width - 1) ∧
        s.onlyIn t [.fields, .pwr] ∧ s.onlyFields t [F.GLB_CORE_FREQ_MHZ, F.GLB_CLKSTAT_STRETCH, F.PWR_DROOPCNT]) ∧
    (s.pwr.stretch = true → exec .droopStretch s = .next s) ∧
    (s.fld F.GLB_CLKSTAT_PLL_LOCK = 255 → ∃ t, exec .droopEnd s = .next t ∧ t.pwr = { s.pwr with stretch := false } ∧
      t.fld F.GLB_CORE_FREQ_MHZ = s.baseMhz % 4096 ∧ s.onlyIn t [.fields, .pwr]) ∧
    (∀ r, r < 8 → s.fld F.GLB_CLKSTAT_PLL_LOCK = 255 → ∃ t, exec (.pllUnlock (2 ^ r)) s = .next t ∧ t.fld F.GLB_CLKSTAT_PLL_LOCK = 255 - 2 ^ r ∧
      t.fld F.GLB_CORE_FREQ_MHZ = 0 ∧ t.fld F.CLK_UNLOCKCNT = min (s.fld F.CLK_UNLOCKCNT + 1) (2 ^ F.CLK_UNLOCKCNT.width - 1) ∧ t.cores = s.cores ∧ t.frame = s.frame) ∧
    (exec (.pllUnlock 0) s = .next s) ∧
    (s.isOff = false → s.fld F.GLB_CLKSTAT_PLL_LOCK ≠ 255 → ∃ t, exec .pllRelock s = .next t ∧ t.fld F.GLB_CLKSTAT_PLL_LOCK = 255 ∧
      t.fld F.GLB_CORE_FREQ_MHZ = (if s.pwr.stretch then s.baseMhz * 2 / 3 else s.baseMhz) % 4096 ∧ s.onlyIn t [.fields]) ∧
    (s.isOff = true ∨ s.fld F.GLB_CLKSTAT_PLL_LOCK = 255 → exec .pllRelock s = .next s) ∧
    (∀ watts, s.pwr.clampMhz = none →
      let overs := (s.pwr.overs.filter fun x => decide (s.now < x + 100000000)).length + (if s.fld F.PWR_LIMIT_SUSTAIN_W < watts then 1 else 0)
      (s.fld F.PWR_LIMIT_PEAK_W < watts ∨ 10000 ≤ overs → ∃ t, exec (.powerEstimate watts) s = .next t ∧ t.pwr.clampMhz = some (s.fld F.PWR_CLAMPCFG_MHZ) ∧
        t.fld F.PWR_STATUS_CLAMP = 1 ∧ t.fld F.PWR_CLAMPCNT = min (s.fld F.PWR_CLAMPCNT + 1) (2 ^ F.PWR_CLAMPCNT.width - 1) ∧
        t.fld F.PWR_ESTIMATE_WATTS = min watts 4095) ∧
      (watts ≤ s.fld F.PWR_LIMIT_PEAK_W → overs < 10000 → ∃ t, exec (.powerEstimate watts) s = .next t ∧ t.pwr.clampMhz = none ∧
        t.fld F.PWR_ESTIMATE_WATTS = min watts 4095 ∧ t.fld F.GLB_CORE_FREQ_MHZ = s.fld F.GLB_CORE_FREQ_MHZ ∧ s.onlyIn t [.fields, .pwr])) ∧
    (∀ f, s.pwr.clampMhz = some f →
      (s.now < s.pwr.adjusted + 100000 → exec .clampAdjust s = .next s) ∧
      (s.pwr.adjusted + 100000 ≤ s.now → s.fld F.PWR_LIMIT_SUSTAIN_W < s.fld F.PWR_ESTIMATE_WATTS →
        ∃ t, exec .clampAdjust s = .next t ∧ t.pwr.clampMhz = some (max 800 (min f s.pwr.lowMhz - 100)) ∧
          t.flag F.PWR_STATUS_FLOOR = (max 800 (min f s.pwr.lowMhz - 100) == 800)) ∧
      (s.pwr.adjusted + 100000 ≤ s.now → s.fld F.PWR_ESTIMATE_WATTS ≤ s.fld F.PWR_LIMIT_SUSTAIN_W → (∃ x, s.pwr.calm = some x ∧ x + 1000000 ≤ s.now) →
        s.pwr.overs.length < 9000 →
        (f + 50 < s.pwr.lowMhz → ∃ t, exec .clampAdjust s = .next t ∧ t.pwr.clampMhz = some (f + 50)) ∧
        (s.pwr.lowMhz ≤ f + 50 → ∃ t, exec .clampAdjust s = .next t ∧ t.pwr.clampMhz = none ∧ t.fld F.PWR_STATUS_CLAMP = 0 ∧ t.fld F.PWR_STATUS_FLOOR = 0))) ∧
    (s.pwr.clampMhz = none → exec .clampAdjust s = .next s) ∧
    (s.flag F.CLK_STATUS_ETHREF_OK = true → ∃ t, exec (.laneRefclkLoss true) s = .next t ∧ t.fld F.CLK_STATUS_ETHREF_OK = 0 ∧
      (∀ n, n < 32 → t.flag F.PRT_STATUS_UP n = false) ∧ t.frame = s.frame) ∧
    (s.flag F.CLK_STATUS_PCIEREF_OK = true → ∃ t, exec (.laneRefclkLoss false) s = .next t ∧ t.fld F.CLK_STATUS_PCIEREF_OK = 0 ∧ t.flag F.HIF_LINK_UP = false ∧
      t.frame = s.frame) ∧
    exec (.laneRefclkRestored true) s = .next (s.setFld F.CLK_STATUS_ETHREF_OK 1) ∧ exec (.laneRefclkRestored false) s = .next (s.setFld F.CLK_STATUS_PCIEREF_OK 1)

/-- Rails (R438 to R445), VPP_ARR (R442), Off (R451), the thermal trip (R425, R426, R440). -/
def Obligations.RailsAndTrip : Prop :=
  ∀ (s : State),
    (s.pwr.seq = .idle → ∀ r, exec (.railRampRead r) s = .next s) ∧
    (∀ i mv, i ∈ raiseOrder → s.pwr.seq = .raise i → s.railIn i mv = true →
      (s.pwr.seqOk = 0 → ∃ t, exec (.railRampRead (some mv)) s = .next t ∧ t.pwr.seqOk = 1 ∧
        (s.now < s.pwr.seqAt + 10000000 → t.pwr.seq = .raise i ∧ t.fld F.PWR_RAIL_DATA_STATE i = s.fld F.PWR_RAIL_DATA_STATE i)) ∧
      (1 ≤ s.pwr.seqOk → ∃ t, exec (.railRampRead (some mv)) s = .next t ∧ t.fld F.PWR_RAIL_DATA_STATE i = 2 ∧
        (∀ j, railAfter raiseOrder i = some j → t.pwr.seq = .raise j ∧ j ∈ t.pwr.en ∧ t.fld F.PWR_RAIL_DATA_STATE j = 1) ∧
        (railAfter raiseOrder i = none → t.pwr.seq = .idle))) ∧
    (∀ i, i ≤ 6 → s.frame.st ≠ .running → s.pwr.seq = .raise i →
      (∀ r, (∃ mv, r = some mv ∧ s.railIn i mv = false ∧ s.pwr.seqAt + 10000000 ≤ s.now) ∨ (r = none ∧ 3 ≤ SMap.get 0 s.pwr.pmbFails i) →
        ∃ t, exec (.railRampRead r) s = .next t ∧ t.isOff = true ∧ t.flag F.PWR_STATUS_RAIL_FAULT = true ∧ t.pwr.offHeld = true ∧ s.volatileLost t)) ∧
    (∀ r, 2 ≤ s.fld F.PWR_STATUS_STATE ∨ s.pwr.seq ≠ .idle → (∀ e ∈ r, e.1 ≤ 6) → exec (.pmbusPoll r) s = .next s) ∧
    (∀ mv, s.fld F.PWR_STATUS_STATE < 2 → s.pwr.seq = .idle → s.pwr.en.contains 0 = true → s.flag F.PWR_STATUS_DEGRADED = false → s.pwr.short = 3 → mv < 8192 →
      mv + 10 < s.railSet 0 → s.railSet 0 ≤ mv + 170 → s.railSet 1 ≤ s.fld F.PWR_RAIL_DATA_MEAS_MV 1 →
      ∃ t, exec (.pmbusPoll [(0, some mv)]) s = .next t ∧ t.flag F.PWR_STATUS_DEGRADED = true ∧ t.pwr.lowMhz = deficitMhz (s.railSet 0 - mv : Nat) ∧
        t.fld F.PWR_SHORTCNT = min (s.fld F.PWR_SHORTCNT + 1) (2 ^ F.PWR_SHORTCNT.width - 1)) ∧
    (∀ i w, i ≤ 6 → s.pwr.en.contains i = true → s.frame.st ≠ .running →
      (statusBad w = true → ∃ t, exec (.pmAlert [(i, some w)]) s = .next t ∧ t.isOff = true ∧ t.flag F.PWR_STATUS_RAIL_FAULT = true) ∧
      (statusBad w = false → ∃ t, exec (.pmAlert [(i, some w)]) s = .next t ∧ SMap.get 0 t.pwr.pmbFails i = 0 ∧ t.frame = s.frame ∧ t.pwr.en = s.pwr.en)) ∧
    (s.fld F.PWR_STATUS_STATE < 2 → s.pwr.en.contains 3 = false →
      exec .vppRaise s = .next ({ s with pwr := { s.pwr with en := 3 :: s.pwr.en, vppLast := none } }.setFld F.PWR_RAIL_DATA_STATE 1 3)) ∧
    (s.pwr.en.contains 3 = true → exec .vppRaise s = .next s ∧
      exec .vppArrInRegulation s = .next (((s.setFld F.PWR_STATUS_VPP_ON 1).setFld F.PWR_RAIL_DATA_STATE 2 3).kickJobs)) ∧
    (∀ x, s.pwr.vppLast = some x →
      (s.supplyCount = 0 → x + 1000000000 ≤ s.now → ∃ t, exec .vppLower s = .next t ∧ t.fld F.PWR_STATUS_VPP_ON = 0 ∧ t.pwr.en.contains 3 = false ∧ t.pwr.vppLast = none) ∧
      (s.supplyCount ≠ 0 ∨ s.now < x + 1000000000 → exec .vppLower s = .next s)) ∧
    (∀ fn, fn ≤ 16 → s.barOpen = true →
      (roleIns ≤ s.roleOf fn → ∃ t, exec (.off (.host fn)) s = .next t ∧ t.isOff = true ∧ t.pwr.offHeld = true ∧ s.volatileLost t) ∧
      (s.roleOf fn < roleIns → exec (.off (.host fn)) s = .next (s.audit fn 0xFFFF 1 0xF3 0x6020)) ∧
      (roleMkr ≤ s.roleOf fn → s.flag F.THM_TRIP_TRIPPED = false → s.pwr.aon = true → ∃ t, exec (.tripTest (.host fn)) s = .next t ∧ t.isOff = true ∧
        t.flag F.THM_TRIP_TRIPPED = true ∧ t.pwr.en = [] ∧ s.volatileLost t) ∧
      (s.roleOf fn < roleMkr → exec (.tripTest (.host fn)) s = .next (s.audit fn 0xFFFF 1 0xF3 0x5104))) ∧
    (∀ low opn, (low || opn) = true → s.flag F.THM_TRIP_BLANK = false → s.flag F.THM_TRIP_TRIPPED = false → s.pwr.aon = true →
      ∃ t, exec (.thermalTrip low opn) s = .next t ∧ t.isOff = true ∧ t.flag F.THM_TRIP_TRIPPED = true ∧ t.flag F.THM_TRIP_LOW = low ∧ t.flag F.THM_TRIP_OPEN = opn ∧
        t.pwr.tripPin = true ∧ t.pwr.en = [] ∧ s.volatileLost t) ∧
    (∀ low opn, s.flag F.THM_TRIP_BLANK = true → exec (.thermalTrip low opn) s = .next s ∧
      (s.now < s.pwr.blankFrom + 1000000 → exec (.tripBlankEnd low opn) s = .next s) ∧
      (s.pwr.blankFrom + 1000000 ≤ s.now → exec (.tripBlankEnd low opn) s = exec (.thermalTrip low opn) (s.setFld F.THM_TRIP_BLANK 0)))

/-- Resets (R458 to R460), power states (R451, R452), the supply warning (R461), powered hours (R457). -/
def Obligations.ResetsKeepTheVault : Prop :=
  ∀ (s : State) (fn : Nat), fn ≤ 16 →
    (∀ i cause, (i = .powerOn ∧ cause = 0) ∨ (i = .powerFailure ∧ cause = 0) ∨ (i = .sysRstNAssert ∧ cause = 1) ∨ (i = .refclkLoss ∧ s.pwr.refLost = false ∧ cause = 3) ∨
        (i = .sysrst (.host fn) ∧ s.barOpen = true ∧ roleIns ≤ s.roleOf fn ∧ cause = 2) →
      ∃ t, exec i s = .next t ∧ s.volatileLost t ∧ t.fld F.PWR_RESET_LASTCAUSE = cause ∧ (i = .sysRstNAssert ∨ i = .refclkLoss → t.isOff = true)) ∧
    (s.roleOf fn < roleIns → s.barOpen = true → exec (.sysrst (.host fn)) s = .next (s.audit fn 0xFFFF 1 0xF3 0x6020)) ∧
    (s.pwr.refLost = true → exec .refclkLoss s = .next s) ∧
    (∀ mode addr, (s.pwr.sysRst = false → exec (.sysRstNRelease mode addr) s = .next s) ∧
      (s.pwr.sysRst = true → ∃ t, exec (.sysRstNRelease mode addr) s = .next t ∧ t.pwr.sysRst = false ∧ t.fld F.GLB_STRAPS_MODE = mode % 4 ∧ t.smb.addr = addr % 4 ∧
        (s.pwr.seq = .idle → s.pwr.refLost = false → s.pwr.aon = true → s.flag F.THM_TRIP_TRIPPED = false →
          t.pwr.seq = .raise 0 ∧ t.pwr.begun = some 0 ∧ t.vfld F.PWR_BOOT_START = (s.vfld F.PWR_BOOT_START + 1) % 65536) ∧
        (s.pwr.seq ≠ .idle ∨ s.flag F.THM_TRIP_TRIPPED = true → t.pwr.want = true ∧ t.pwr.seq = s.pwr.seq))) ∧
    (s.pwr.refLost = true → ∃ t, exec .refclkRestored s = .next t ∧ t.pwr.refLost = false ∧ t.fld F.CLK_STATUS_REF_OK = 1 ∧
      (s.pwr.sysRst = true ∨ s.pwr.offHeld = true → t.pwr.want = false ∧ t.pwr.seq = s.pwr.seq) ∧
      (s.pwr.sysRst = false → s.pwr.offHeld = false → s.pwr.seq = .idle → s.pwr.aon = true → s.flag F.THM_TRIP_TRIPPED = false → t.pwr.seq = .raise 0)) ∧
    (s.pwr.refLost = false → exec .refclkRestored s = .next s) ∧
    (∀ v, s.barOpen = true → roleOpr ≤ s.roleOf fn → bitsAt v 0 2 ≠ 3 →
      (bitsAt v 0 2 = 0 ∨ (s.frame.st ≠ .armed ∧ s.frame.st ≠ .running) → ∃ t, exec (.stateReq (.host fn) v) s = .next t ∧ t.fld F.PWR_STATE_REQ_TARGET = bitsAt v 0 2 ∧
        (s.fld F.PWR_STATUS_STATE ≠ bitsAt v 0 2 → t.pwr.change = some (bitsAt v 0 2, s.now)) ∧ t.frame = s.frame) ∧
      (bitsAt v 0 2 ≠ 0 → s.frame.st = .armed ∨ s.frame.st = .running → exec (.stateReq (.host fn) v) s = .next (s.audit fn 0xFFFF 0 0 0x6004))) ∧
    (s.pwr.change = none → exec .powerState s = .next s) ∧
    (∀ a b x, s.pwr.change = some (b, x) → s.fld F.PWR_STATUS_STATE = a → a ≤ 2 → b ≤ 2 → a ≠ b →
      ∃ t, exec .powerState s = .next t ∧ t.fld F.PWR_STATUS_STATE = (if a + b = 2 ∧ a ≠ 1 then 1 else b) ∧
        t.pwr.change = (if a + b = 2 ∧ a ≠ 1 then some (b, x) else none)) ∧
    (∀ low, (s.flag F.PWR_STATUS_WARN = low → exec (.pwrWarn low) s = .next s) ∧
      (s.flag F.PWR_STATUS_WARN ≠ low → ∃ t, exec (.pwrWarn low) s = .next t ∧ t.flag F.PWR_STATUS_WARN = low ∧
        (low = true → t.fld F.PWR_WARNCNT = min (s.fld F.PWR_WARNCNT + 1) (2 ^ F.PWR_WARNCNT.width - 1)) ∧ t.frame = s.frame)) ∧
    (∃ t, exec .poweredHour s = .next t ∧ t.fld F.CLK_POWERED_HOURS = min (s.vfld F.CLK_POWERED_HOURS + 1) (2 ^ 32 - 1) ∧
      t.vfld F.CLK_POWERED_HOURS = min (s.vfld F.CLK_POWERED_HOURS + 1) (2 ^ 32 - 1) ∧ t.arrays = s.arrays ∧ t.frame = s.frame)

/-- Links (R382, R383, R411) and flow control (R386, R387). -/
def Obligations.LinksAndPauses : Prop :=
  ∀ (s : State) (n : Nat), n < 32 →
    (∀ cause, s.flag F.PRT_STATUS_UP n = true →
      cause = 1 ∨ cause = 2 ∨ (cause = 4 ∧ (s.flag F.PRT_CTL_ENABLE n = false ∨ s.flag F.PRT_STATUS_DISABLED n = true)) →
      ∃ t, exec (.portLinkDown n cause) s = .next t ∧ t.flag F.PRT_STATUS_UP n = false ∧ t.fld F.PRT_STATUS_LAST_DOWN n = cause ∧
        t.flag F.PRT_STATUS_FEC_LOCK n = false ∧ t.flag F.PRT_STATUS_TRAINING n = (s.flag F.PRT_CTL_ENABLE n && !s.flag F.PRT_STATUS_DISABLED n) ∧
        s.counts t F.PRT_LINKDOWNCNT n ∧ s.tells t 0x00A0 [n, cause] ∧ (t.port n).occ = 0 ∧
        (∀ m, m ≠ n → t.flag F.PRT_STATUS_UP m = s.flag F.PRT_STATUS_UP m ∧ t.port m = s.port m) ∧
        (∀ it, s.frame.st = .running → s.frame.active = some it → it.namesPort n = true → t.mgr = { s.mgr with withdrawDue := some true }) ∧
        ((∀ it, s.frame.st = .running → s.frame.active = some it → it.namesPort n = false) → t.mgr = s.mgr) ∧
        s.onlyIn t [.fields, .irq, .host, .fab, .hist, .net, .mgr]) ∧
    (∀ cause, s.flag F.PRT_STATUS_UP n = false → exec (.portLinkDown n cause) s = .next s) ∧
    (s.flag F.PRT_STATUS_UP n = false → s.flag F.PRT_CTL_ENABLE n = true → s.flag F.PRT_STATUS_DISABLED n = false → s.flag F.CLK_STATUS_ETHREF_OK = true → s.isOff = false →
      ∃ t, exec (.portUp n) s = .next t ∧ t.flag F.PRT_STATUS_UP n = true ∧ t.flag F.PRT_STATUS_FEC_LOCK n = true ∧ t.flag F.PRT_STATUS_TRAINING n = false ∧
        s.tells t 0x00A1 [n] ∧ s.onlyIn t [.fields, .irq, .host] ∧
        s.onlyFields t [F.PRT_STATUS_UP, F.PRT_STATUS_FEC_LOCK, F.PRT_STATUS_TRAINING, F.INTC_PEND, F.INTC_MERGECNT]) ∧
    (s.flag F.PRT_STATUS_UP n = true ∨ s.flag F.PRT_CTL_ENABLE n = false ∨ s.flag F.PRT_STATUS_DISABLED n = true ∨ s.flag F.CLK_STATUS_ETHREF_OK = false → exec (.portUp n) s = .next s) ∧
    (∀ fn, fn ≤ 16 → s.barOpen = true →
      (roleOpr ≤ s.roleOf fn → s.flag F.PRT_STATUS_UP n = true → ∃ t, exec (.retrain (.host fn) n) s = .next t ∧ t.flag F.PRT_STATUS_UP n = false ∧
        t.fld F.PRT_STATUS_LAST_DOWN n = 3 ∧ s.counts t F.PRT_LINKDOWNCNT n ∧ t.hist.pend = s.hist.pend) ∧
      (s.roleOf fn < roleOpr → exec (.retrain (.host fn) n) s = .next (s.audit fn 0xFFFF 1 0xF3 (0x10000 + 0x100 * n)))) ∧
    (∀ d d1, ∃ t, exec (.xonResume n d d1) s = .next t ∧ (t.port n).occ = (s.port n).occ - d ∧ (t.port n).occ1 = (s.port n).occ1 - d1 ∧
      s.onlyIn t [.fields, .fab] ∧ s.onlyFields t [F.PRT_STATUS_PAUSED_RX] ∧
      (s.fld F.PRT_STATUS_PAUSED_RX n = 15 →
        (256 * s.fld F.PRT_RXCFG_XON n < (s.port n).occ - d → t.fld F.PRT_STATUS_PAUSED_RX n = 15) ∧
        ((s.port n).occ - d ≤ 256 * s.fld F.PRT_RXCFG_XON n →
          t.fld F.PRT_STATUS_PAUSED_RX n = if 256 * s.fld F.PRT_RXCAP_RELAY_CAP n < (s.port n).occ1 - d1 then 2 else 0)) ∧
      (s.fld F.PRT_STATUS_PAUSED_RX n ≠ 15 →
        t.fld F.PRT_STATUS_PAUSED_RX n = if 256 * s.fld F.PRT_RXCAP_RELAY_CAP n < (s.port n).occ1 - d1 then 2 else 0)) ∧
    (s.fld F.PRT_STATUS_PAUSED_RX n = 15 → (s.port n).paused + 20000 ≤ s.now → 256 * s.fld F.PRT_RXCFG_XON n < (s.port n).occ →
      ∃ t, exec (.pauseRepeat n) s = .next t ∧ s.counts t F.PRT_PAUSETXCNT n ∧ t.fld F.PRT_STATUS_PAUSED_RX n = 15 ∧ t.port n = { s.port n with paused := s.now } ∧
        s.onlyIn t [.fields, .fab] ∧ s.onlyFields t [F.PRT_STATUS_PAUSED_RX, F.PRT_PAUSETXCNT]) ∧
    (s.fld F.PRT_STATUS_PAUSED_RX n ≠ 15 ∨ s.now < (s.port n).paused + 20000 ∨ (s.port n).occ ≤ 256 * s.fld F.PRT_RXCFG_XON n → exec (.pauseRepeat n) s = .next s) ∧
    (∀ c q, c < 4 → ∃ t, exec (.pfcPauseReceived n [(c, q)]) s = .next t ∧ s.counts t F.PRT_PAUSERXCNT n ∧ s.onlyIn t [.fields, .fab, .net] ∧
      (q = 0 → SMap.get 0 (t.port n).txUntil c = 0 ∧ ∀ d ∈ s.net.portHeld, d.port = n → d.cls = c → d ∈ t.net.portOut) ∧
      (q ≠ 0 → SMap.get 0 (t.port n).txUntil c = s.now + (64 * q + 99) / 100 ∧ ∀ d ∈ s.net.portHeld, d.port = n → d.cls = c → d ∈ t.net.portHeld)) ∧
    (∀ c, c < 4 →
      (SMap.get 0 (s.port n).txUntil c ≠ 0 → SMap.get 0 (s.port n).txUntil c ≤ s.now → ∃ t, exec (.pauseTimeExpiry n c) s = .next t ∧
        t.net.portOut = s.net.portOut ++ s.net.portHeld.filter (fun d => d.port == n && d.cls == c) ∧ (∀ d ∈ t.net.portHeld, ¬ (d.port = n ∧ d.cls = c)) ∧
        SMap.get 0 (t.port n).txUntil c = 0 ∧ s.onlyIn t [.fab, .net]) ∧
      (SMap.get 0 (s.port n).txUntil c = 0 ∨ s.now < SMap.get 0 (s.port n).txUntil c → exec (.pauseTimeExpiry n c) s = .next s))

/-- Frames (R389 to R391), messages (R392) and credit (R393). -/
def Obligations.FramesAndCredit : Prop :=
  ∀ (s : State) (n : Nat) (f : RxFrame), n < 32 →
    (s.flag F.PRT_STATUS_UP n = false → exec (.fabricFrameReceived n f) s = .next s) ∧
    (s.flag F.PRT_STATUS_UP n = true → f.uncorrected = 0 →
      (∀ c, (f.fcs = false ∧ c = F.PRT_FCSERRCNT) ∨
          (f.fcs = true ∧ 262144 - ((s.port n).occ - f.drained) < f.wire ∧ c = F.PRT_RXDROPCNT) ∨
          (f.fcs = true ∧ f.wire ≤ 262144 - ((s.port n).occ - f.drained) ∧ c = F.PRT_UNDECLCNT ∧
            (f.tagged = false ∨ f.form = false ∨ f.addressed = false ∨ f.dst ≠ s.partNum ∨ s.partNum = 0xFFFF ∨ f.kind = 0 ∨ 4 < f.kind ∨
              (f.kind = 1 ∧ s.portsRecord n f = none))) ∨
          (f.fcs = true ∧ f.wire ≤ 262144 - ((s.port n).occ - f.drained) ∧ f.tagged = true ∧ f.form = true ∧ f.addressed = true ∧ f.dst = s.partNum ∧
            s.partNum ≠ 0xFFFF ∧ f.kind = 1 ∧ (s.portsRecord n f).isSome = true ∧ f.frame ≠ s.frame.number % 2 ^ 32 ∧ c = F.PRT_STALECNT) →
        ∃ t, exec (.fabricFrameReceived n f) s = .next t ∧ s.counts t c n ∧ s.onlyIn t [.fields, .fab] ∧ s.onlyFields t [c, F.PRT_FECCORCNT, F.PRT_FECUNCCNT] ∧
          t.port n = { s.port n with occ := (s.port n).occ - f.drained, occ1 := (s.port n).occ1 - f.drained1 }) ∧
      (f.fcs = true → f.wire ≤ 262144 - ((s.port n).occ - f.drained) → f.tagged = true → f.form = true → f.addressed = true → f.dst = s.partNum → s.partNum ≠ 0xFFFF →
        (∀ rec p site, f.kind = 1 → s.portsRecord n f = some (rec, p) → f.frame = s.frame.number % 2 ^ 32 → s.liveSite f.core = some site → f.poison = false →
          (s.core site).gather = [] → s.unitsQuiet site → f.addr + f.off + f.data.length ≤ hamperSize →
          ∃ t, exec (.fabricFrameReceived n f) s = .next t ∧ t.hamperRead site (f.addr + f.off) f.data.length = f.data ∧
            s.onlyHamper t site (f.addr + f.off) f.data.length ∧ (t.port n).occ = (s.port n).occ - f.drained + f.wire ∧
            SMap.get 0 t.fab.arrived p = SMap.get 0 s.fab.arrived p + f.data.length ∧
            (SMap.get 0 s.fab.arrived p + f.data.length < f.total → ∀ k, t.ctr site k = s.ctr site k) ∧
            (f.total ≤ SMap.get 0 s.fab.arrived p + f.data.length → ∀ k, f.ctr = some k → k < 64 → s.ctr site k < 0xFFFFFF → t.ctr site k = s.ctr site k + 1)) ∧
        (f.kind = 2 → f.total ≤ f.data.length → (∀ b ∈ s.fab.inbound, ¬ (b.src = f.src ∧ b.seq = f.frame)) → s.link.credits = [] →
          ∃ t, exec (.fabricFrameReceived n f) s = .next t ∧ t.link.acked = s.link.acked ++ [(f.src, some f.frame, 0)] ∧
            (f.frame = SMap.get 0 s.link.nextIn f.src → s.fab.early = [] → SMap.get 0 t.link.nextIn f.src = f.frame + 1) ∧
            (f.frame < SMap.get 0 s.link.nextIn f.src → t.link.nextIn = s.link.nextIn ∧ t.fab.early = s.fab.early ∧ t.link.given = s.link.given) ∧
            t.hamper = s.hamper ∧ t.cores = s.cores) ∧
        (f.kind = 3 ∨ f.kind = 4 → s.fld F.PRT_STATUS_PAUSED_RX n ≠ 15 → 256 * s.fld F.PRT_RXCFG_XOFF n ≤ (s.port n).occ - f.drained + f.wire →
          ∃ t, exec (.fabricFrameReceived n f) s = .next t ∧ (t.port n).occ = (s.port n).occ - f.drained + f.wire ∧ t.fld F.PRT_STATUS_PAUSED_RX n = 15 ∧
            s.counts t F.PRT_PAUSETXCNT n ∧ SMap.get 0 t.fab.heard f.src = s.now ∧ s.onlyIn t [.fields, .fab]))) ∧
    (∀ src seq units, s.link.waiting = [] →
      (units = 0 → exec (.ack src (some seq) 0) s =
        .next { s with link := { s.link with out := s.link.out.filter fun m => !(m.part == src && some m.seq == some seq), waiting := [] } }) ∧
      (units ≠ 0 → ∃ t, exec (.ack src none units) s = .next t ∧ t.link.out = s.link.out.filter (fun m => !(m.part == src && some m.seq == none)) ∧
        SMap.get relayRoom t.link.relayCredit src = min relayRoom (SMap.get relayRoom s.link.relayCredit src + 256 * units) ∧ s.onlyIn t [.link])) ∧
    (∀ m units, s.link.waiting = [m] → generalCredit m.type = true → 4 < m.units → m.units ≤ units →
      ∃ t, exec (.ack m.part none units) s = .next t ∧ t.link.waiting = [] ∧
        t.link.out.getLast? = some { m with seq := SMap.get 0 s.link.nextSeq m.part, sent := some s.now } ∧ s.onlyIn t [.link]) ∧
    (∀ m part seq, (s.link.out.find? fun m => m.part == part && m.seq == seq) = some m →
      (∀ x, m.sent = some x → s.now < x + 50000 → exec (.messageResend part seq) s = .next s) ∧
      (∀ x, m.sent = some x → x + 50000 ≤ s.now →
        (m.tries < 3 → ∃ t, exec (.messageResend part seq) s = .next t ∧ s.counts t F.PRT_RETXCNT ∧
          (t.link.out.find? fun m => m.part == part && m.seq == seq) = some { m with tries := m.tries + 1, sent := some s.now } ∧
          t.link.out.length = s.link.out.length ∧ s.onlyIn t [.fields, .link] ∧ s.onlyFields t [F.PRT_RETXCNT]) ∧
        (3 ≤ m.tries → s.isRack = false → ∃ t, exec (.messageResend part seq) s = .next t ∧ s.counts t F.PRT_UNREACHCNT ∧ s.tells t 0x00A3 [part, m.type] ∧
          s.onlyIn t [.fields, .link, .host] ∧ s.onlyFields t [F.PRT_UNREACHCNT]))) ∧
    (∀ src units, s.link.credits = [] →
      ((s.link.given.map (·.2)).sum + units ≤ 512 → exec (.creditRequest src units) s = .next { s with link := { s.link with
        credits := [], given := SMap.set 0 s.link.given src (SMap.get 0 s.link.given src + units), acked := s.link.acked ++ [(src, none, units)] } }) ∧
      (512 < (s.link.given.map (·.2)).sum + units → exec (.creditRequest src units) s = .next { s with link := { s.link with credits := [(src, units)] } }))

/-- Managers' messages (R401), readiness (R402), withdrawal (R406), claims (R407, R408), roll calls (R367 to R369). -/
def Obligations.ManagersDirectParts : Prop :=
  ∀ (s : State) (src epoch : Nat),
    (epoch < s.fld F.PRT_MGREPOCH_EPOCH → ∀ a b,
      (∀ i, i = .withdraw src epoch a ∨ i = .admitPart src epoch a ∨ i = .expel src epoch a b ∨ i = .rollCall src epoch a ∨ i = .cut src epoch ∨ i = .assume src epoch a →
        exec i s = .next (s.msgIn.count F.PRT_MGRDROPCNT)) ∧
      exec (.beatReceived src epoch a b) s = .next (s.count F.PRT_MGRDROPCNT) ∧ exec (.managerClaim src epoch) s = .next (s.count F.PRT_MGRDROPCNT)) ∧
    (∀ part, s.accepts s.rackMgr src epoch ∨ s.accepts s.whistleMgr src epoch →
      (part = s.partNum → exec (.withdraw src epoch part) s = .next { s.heard epoch with mgr := { s.mgr with withdrawDue := some true } } ∧
        exec (.admitPart src epoch part) s = .next { s.heard epoch with mgr := { s.mgr with withdrawDue := some false } }) ∧
      (part ≠ s.partNum → exec (.withdraw src epoch part) s = .next { s.heard epoch with mgr := { s.mgr with peerDue := s.mgr.peerDue ++ [(part, true)] } } ∧
        exec (.admitPart src epoch part) s = .next { s.heard epoch with mgr := { s.mgr with peerDue := s.mgr.peerDue ++ [(part, false)] } })) ∧
    (∀ frame i, s.isWhistle = true → s.entryOf src = some i → s.frame.st = .running →
      (frame = s.frame.number → s.mgr.subst = none → ∃ t, exec (.ready src frame) s = .next t ∧
        t.mgr.ready = (if s.mgr.ready.contains i then s.mgr.ready else s.mgr.ready ++ [i]) ∧ t.fld F.PRT_TALLY_READY = t.mgr.ready.length % 8192 ∧
        t.cores = s.cores ∧ t.frame = s.frame) ∧
      (frame ≠ s.frame.number → exec (.ready src frame) s = .next s)) ∧
    (∀ next due, s.accepts s.rackMgr src epoch ∨ s.accepts s.whistleMgr src epoch → exec (.beatReceived src epoch next due) s =
      .next { s.setFld F.PRT_MGREPOCH_EPOCH epoch with mgr := { s.mgr with beat := true, nextRoll := next, rollIn := due, beatFrom := s.frame.number } }) ∧
    (src ≠ 0xFFFF → s.fld F.PRT_MGREPOCH_EPOCH ≤ epoch → epoch < 2 ^ 32 → src < 65536 → (src = s.fld F.PRT_STBYCFG_SYSSTBY ∨ src = s.fld F.PRT_STBYCFG_RACKSTBY) →
      ∃ t, exec (.managerClaim src epoch) s = .next t ∧ t.fld F.PRT_MGREPOCH_EPOCH = epoch ∧
        (src = s.fld F.PRT_STBYCFG_SYSSTBY → t.whistleMgr = src) ∧ (src = s.fld F.PRT_STBYCFG_RACKSTBY → t.rackMgr = src) ∧
        (s.isWhistle = true ∨ s.isRack = true → src ≠ s.partNum → s.fld F.PRT_MGREPOCH_EPOCH < epoch →
          t.isWhistle = false ∧ t.isRack = false ∧ t.mgr = { s.mgr with stoodDown := true, outRise := none }) ∧
        s.onlyIn t [.fields, .mgr] ∧ s.onlyFields t [F.PRT_MGREPOCH_EPOCH, F.PRT_MGRSTATE_WMGR, F.PRT_MGRSTATE_RMGR, F.PRT_ROLE_WHISTLE, F.PRT_ROLE_RACK]) ∧
    (src ≠ s.fld F.PRT_STBYCFG_SYSSTBY → src ≠ s.fld F.PRT_STBYCFG_RACKSTBY → exec (.managerClaim src epoch) s = .next (s.count F.PRT_MGRDROPCNT)) ∧
    (s.isRack = true → s.frame.st = .running → s.mgr.rollIn = 0 →
      (∃ t, exec .rollCallDue s = .next t ∧ t.mgr.nextRoll = s.mgr.nextRoll + 1 ∧ t.mgr.rollIn = s.fld F.PRT_ROLLCALL_FRAMES) ∧
      (∀ p, s.rollParts = [p] → p ≠ s.partNum → (s.roll p).answered = true → exec .rollCallDue s =
        .next ((({ s with mgr := { s.mgr with nextRoll := s.mgr.nextRoll + 1, rollIn := s.fld F.PRT_ROLLCALL_FRAMES } } : State).setRoll p
          { s.roll p with answered := false }).sendMsg p 0x0301 [s.mgr.nextRoll]))) ∧
    (s.isRack = false ∨ s.frame.st ≠ .running ∨ s.mgr.rollIn ≠ 0 → exec .rollCallDue s = .next s) ∧
    (∀ n r, s.accepts s.rackMgr src epoch → src ≠ s.partNum → s.wgt.resident = some r → ∃ t, exec (.rollCall src epoch n) s = .next t ∧ t.wgt = { s.wgt with scrub := [] } ∧
      t.link = (s.sendMsg src 0x0302 [n, r.shard, n % 256, if (s.rollAnswer n).1.isSome then 0 else 1, (s.rollAnswer n).2] ((s.rollAnswer n).1.getD [])).link ∧
      t.mgr = s.mgr ∧ t.frame = s.frame) ∧
    (∀ n shard i, s.isRack = true → s.entryOf src = some i →
      (n + 1 ≠ s.mgr.nextRoll → ∀ d, exec (.rollAnswer src n shard d) s = .next s.msgIn) ∧
      (n + 1 = s.mgr.nextRoll →
        ((s.roll src).notReady = 0 → exec (.rollAnswer src n shard none) s = .next (s.msgIn.setRoll src ⟨true, 0, 1⟩)) ∧
        (∀ d c, s.reference shard = some c →
          (d = slice c (48 * (n % 256)) 48 → exec (.rollAnswer src n shard (some d)) s = .next (s.msgIn.setRoll src ⟨true, 0, 0⟩)) ∧
          (d ≠ slice c (48 * (n % 256)) 48 → ∃ t, exec (.rollAnswer src n shard (some d)) s = .next t ∧ t.flag F.PRT_DOM_DATA_WITHDRAWN i = true ∧
            (s.wgt.tree = [] → src ≠ s.partNum → s.tells t 0x0082 [src, 1, n % 256]))))) ∧
    (∀ n stripe, s.accepts s.rackMgr src epoch → ∃ t, exec (.expel src epoch n stripe) s = .next t ∧ t.mgr = { s.mgr with withdrawDue := some true } ∧
      s.tells t 0x0081 [n, stripe, (((List.range 75).filterMap fun i => s.placeOf (75 * stripe + i)).filter s.needsChunk).length] ∧ t.cores = s.cores ∧ t.wgt = s.wgt)

/-- Substitution (R410) and reports to the rack manager (R253, R259). -/
def Obligations.FailedPartsAreReplaced : Prop :=
  ∀ (s : State) (src : Nat),
    (∀ epoch, s.accepts s.rackMgr src epoch → ∃ t, exec (.cut src epoch) s = .next t ∧ t.partNum = 0xFFFF ∧ t.mgr = { s.mgr with withdrawDue := some true } ∧
      t.link = (s.sendMsg src 0x0308 []).link ∧ t.cores = s.cores ∧ t.frame = s.frame) ∧
    (∀ b, s.mgr.subst = some b →
      (b.stage = 0 → b.failed = src → exec (.cutAck src) s =
        .next (({ s.msgIn with mgr := { s.mgr with subst := some { b with stage := 1 } } } : State).sendMsg b.former 0x0309 [b.failed])) ∧
      (b.stage ≠ 0 ∨ b.failed ≠ src → exec (.cutAck src) s = .next s.msgIn) ∧
      (b.stage = 0 → max b.began (SMap.get 0 s.fab.heard b.failed) + 1000000000 ≤ s.now → exec .cutTimeout s =
        .next (({ s with mgr := { s.mgr with subst := some { b with stage := 1 } } } : State).sendMsg b.former 0x0309 [b.failed])) ∧
      (b.stage ≠ 0 ∨ s.now < max b.began (SMap.get 0 s.fab.heard b.failed) + 1000000000 → exec .cutTimeout s = .next s) ∧
      (b.stage = 1 → b.failed = src → ∃ t, exec (.assumeAck src) s = .next t ∧ t.flag F.PRT_DOM_DATA_VALID b.entry = false ∧ t.mgr.subst = some { b with stage := 2 }) ∧
      (b.stage ≠ 1 ∨ b.failed ≠ src → exec (.assumeAck src) s = .next s.msgIn)) ∧
    (s.mgr.subst = none → exec (.cutAck src) s = .next s.msgIn ∧ exec .cutTimeout s = .next s ∧ exec (.assumeAck src) s = .next s.msgIn) ∧
    (∀ epoch number, s.accepts s.rackMgr src epoch → ∃ t, exec (.assume src epoch number) s = .next t ∧ t.partNum = number % 65536 ∧
      t.link = ((s.setFld F.PRT_PARTNUM_PART number).sendMsg src 0x030A []).link ∧ s.onlyIn t [.fields, .irq, .link]) ∧
    (∀ state result need shard peer self i, s.entryOf src = some i → s.isRack = true → s.flag F.PRT_DOM_DATA_RACK i = true →
      (1 ≤ state → state ≤ 3 → need = 0 → peer = 0xFFFF → self = 0 → exec (.relayStatus src state result need shard peer self) s =
        .next { s.msgIn with wgt := { s.wgt with status := SMap.put s.wgt.status src
                                                  ⟨state, result, need, shard, ((SMap.find? s.wgt.status src).map (·.kind)).getD 0⟩ } }) ∧
      (need = 1 ∨ self = 1 ∨ self = 3 → self ≠ 2 → state ≠ 4 →
        ∃ t, exec (.relayStatus src state result need shard peer self) s = .next t ∧ t.flag F.PRT_DOM_DATA_WITHDRAWN i = true) ∧
      (∀ e, self = 3 → src ≠ s.partNum → s.mgr.subst = none → s.spareEntry = some e → ∃ t, exec (.relayStatus src state result need shard peer self) s = .next t ∧
        t.mgr.subst = some { failed := src, entry := e, former := s.entryPart e, stage := 0, began := s.now })) ∧
    (∀ state result need shard peer self, s.entryOf src = none ∨ s.isRack = false → exec (.relayStatus src state result need shard peer self) s = .next s.msgIn)

/-- Conversions (R416 to R421), the temperature (R422, R423), REFIN (R414, R415). -/
def Obligations.ConversionsHoldValues : Prop :=
  ∀ (s : State),
    (∀ v i, i = .conversionStart v ∨ i = .urgentConversion v →
      let urgent := v.testBit 30
      (urgent || v.testBit 31) = true →
      (s.convState = 0 → ∃ t, exec i s = .next t ∧ t.convState = 1 ∧ t.fld F.MET_STATUS_CH = s.convChannel (bitsAt v 0 4) % 16 ∧
        t.met = { s.met with since := s.now, ch := s.convChannel (bitsAt v 0 4), order := bitsAt v 8 2, notch := min 2 (bitsAt v 12 2), urgent := urgent } ∧
        t.fld F.MET_CONV_CH = bitsAt v 0 4 ∧ t.fld F.MET_CONV_ORDER = bitsAt v 8 2 ∧ t.fld F.MET_CONV_NOTCH = min 2 (bitsAt v 12 2) ∧ s.onlyIn t [.fields, .met]) ∧
      (s.convState ≠ 0 →
        (urgent = true → s.met.held = none → ∃ t, exec i s = .next t ∧
          t.met = { s.met with held := some (s.convChannel (bitsAt v 0 4), bitsAt v 8 2, min 2 (bitsAt v 12 2)) } ∧ t.flag F.MET_STATUS_URGENT_PEND = true ∧
          t.convState = s.convState ∧ s.onlyIn t [.fields, .met]) ∧
        (urgent = false ∨ s.met.held ≠ none → ∃ t, exec i s = .next t ∧ s.counts t F.MET_BUSYCNT ∧ t.convState = s.convState ∧ s.onlyIn t [.fields]))) ∧
    (s.convState = 1 → s.met.since + 400000 ≤ s.now → exec .converterWake s = .next ({ s with met := { s.met with since := s.now } }.setFld F.MET_STATUS_STATE 2)) ∧
    (s.convState ≠ 1 ∨ s.now < s.met.since + 400000 → exec .converterWake s = .next s) ∧
    (s.holder ≠ 0 → s.convState = 0 → ∃ t, exec .routineConversion s = .next t ∧ t.convState = 1 ∧ t.met.ch = routineChannel s.met.pos ∧
      t.met.pos = (s.met.pos + 1) % 22 ∧ t.met.since = s.now ∧ t.met.urgent = false ∧ s.onlyIn t [.fields, .met]) ∧
    (s.holder = 0 ∨ s.convState ≠ 0 → exec .routineConversion s = .next s) ∧
    (∀ code, s.convState = 2 → s.met.since + settleNs s.met.notch s.met.order ≤ s.now →
      let d := clampInt (-8388608) 8388607 code
      ∃ t, exec (.conversionComplete code) s = .next t ∧
        (s.met.ch ≠ 0 → s.met.ch ≠ 2 →
          (s.flag F.MET_STATUS_REFIN_FAULT = false → t.fld F.MET_RES_VALUE s.met.ch = ofSigned 24 d ∧ t.flag F.MET_RES_OVR s.met.ch = (d != code) ∧
            t.flag F.MET_RES_VALID s.met.ch = true ∧ t.flag F.MET_RES_STALE s.met.ch = false ∧ t.fld F.MET_RES_SEQ s.met.ch = (s.fld F.MET_RES_SEQ s.met.ch + 1) % 16 ∧
            SMap.find? t.met.times s.met.ch = some s.now ∧ s.onlyIn t [.fields, .met, .irq]) ∧
          (s.flag F.MET_STATUS_REFIN_FAULT = true → t.flag F.MET_RES_VALID s.met.ch = false ∧ t.flag F.MET_RES_STALE s.met.ch = true ∧ s.counts t F.MET_REFINERRCNT ∧
            t.fld F.MET_RES_VALUE s.met.ch = s.fld F.MET_RES_VALUE s.met.ch)) ∧
        (s.met.ch = 0 → s.flag F.MET_STATUS_REFIN_FAULT = false → s.flag F.MET_RES_VALID 1 = false → d = code →
          ∀ temp, temp = temp64 d (s.fld F.MET_REFIN_UV) (s.fld F.THM_DIODE_COEF) → -2560 ≤ temp → temp ≤ 9600 → t.fld F.THM_TEMP = ofSigned 16 temp ∧ t.flag F.THM_TEMP_VALID = true ∧ t.flag F.THM_TEMP_FAULT = false ∧
            t.flag F.THM_TEMP_STALE = false ∧ (6080 < temp → t.flag F.THM_TEMP_OVER = true) ∧ (temp ≤ 5760 → t.flag F.THM_TEMP_OVER = false)) ∧
        (s.met.ch = 2 → (839 < (d - 4194304).natAbs → t.flag F.MET_STATUS_REFIN_FAULT = true) ∧
          ((d - 4194304).natAbs ≤ 839 → s.flag F.MET_STATUS_REFIN_OK = true → t.flag F.MET_STATUS_REFIN_FAULT = false)) ∧
        (s.met.urgent = true → s.counts t F.MET_URGCNT) ∧
        (s.met.held = none → t.convState = 0 ∧ t.fld F.MET_STATUS_CH = 0) ∧
        (∀ c o n, s.met.held = some (c, o, n) → t.convState = 2 ∧ t.met.ch = c ∧ t.met.order = o ∧ t.met.notch = n ∧ t.met.since = s.now ∧ t.met.urgent = true ∧ t.met.held = none)) ∧
    (∀ code, s.convState ≠ 2 ∨ s.now < s.met.since + settleNs s.met.notch s.met.order → exec (.conversionComplete code) s = .next s) ∧
    (exec (.refinFault true) s = .next (s.setFld F.MET_STATUS_REFIN_OK 1)) ∧
    (s.flag F.MET_STATUS_REFIN_FAULT = false → s.met.staleRun = false → ∃ t, exec (.refinFault false) s = .next t ∧ t.flag F.MET_STATUS_REFIN_FAULT = true ∧
      t.flag F.MET_STATUS_REFIN_OK = false ∧ t.flag F.THM_TEMP_OVER = true ∧ s.counts t F.THM_STALECNT ∧ t.met.staleRun = true) ∧
    (∀ ch x, 1 ≤ ch → ch < 16 → SMap.find? s.met.times ch = some x →
      (x + s.staleNs ch < s.now → s.flag F.MET_RES_STALE ch = false → exec (.heldValueStale ch) s = .next (s.setFld F.MET_RES_STALE 1 ch)) ∧
      (s.now ≤ x + s.staleNs ch → exec (.heldValueStale ch) s = .next s)) ∧
    (∀ x, SMap.find? s.met.times 0 = some x → x + s.staleNs 0 < s.now → s.flag F.MET_RES_STALE 0 = false → s.met.staleRun = false →
      ∃ t, exec (.heldValueStale 0) s = .next t ∧ t.flag F.MET_RES_STALE 0 = true ∧ t.flag F.THM_TEMP_STALE = true ∧ t.flag F.THM_TEMP_OVER = true) ∧
    (∀ fn v, fn ≤ 16 → s.barOpen = true →
      (roleIns ≤ s.roleOf fn → s.locked = false →
        (2450000 ≤ bitsAt v 0 22 → bitsAt v 0 22 ≤ 2550000 → ∃ t, exec (.refinWrite (.host fn) v) s = .next t ∧ t.fld F.MET_REFIN_UV = bitsAt v 0 22 ∧
          t.vfld F.MET_REFIN_UV = bitsAt v 0 22 ∧ ∀ ch, ch < 16 → (SMap.find? s.met.times ch).isSome = true → t.flag F.MET_RES_STALE ch = true) ∧
        (bitsAt v 0 22 < 2450000 ∨ 2550000 < bitsAt v 0 22 → exec (.refinWrite (.host fn) v) s = .next (s.audit fn 0xFFFF 0 0 0x5008))) ∧
      (s.roleOf fn < roleIns → exec (.refinWrite (.host fn) v) s = .next (s.audit fn 0xFFFF 1 0xF3 0x5008)) ∧
      (roleIns ≤ s.roleOf fn → s.locked = true → exec (.refinWrite (.host fn) v) s = .next (s.audit fn 0xFFFF 1 0x05 0x5008)))

/-- Region references (R428) and the calibration of an array (R430 to R432). -/
def Obligations.TrimsAreCalibrated : Prop :=
  ∀ (s : State),
    (∀ r code, r < 8 → s.frame.st = .halted ∨ s.frame.st = .empty → code < 2 ^ 16 →
      exec (.regionTrimAdjust r (some code)) s = .next (s.setFld F.MET_REGTRIM_CODE code r) ∧
      ∃ t, exec (.regionTrimAdjust r none) s = .next t ∧ s.counts t F.MET_CALFAILCNT ∧
        ∀ a, a < 20480 → regionOf (a / 16) = r → t.flag F.MET_CAL_DATA_FAILED a = true) ∧
    (∀ r code, r < 8 → s.frame.st = .armed ∨ s.frame.st = .running → s.fld F.PWR_BOOT_STAGE ≠ 8 ∨ s.flag F.PWR_BOOT_READY = true →
      exec (.regionTrimAdjust r code) s = .next (s.count F.MET_CALFAILCNT)) ∧
    (∀ a m0 m1 m2, a < 20480 →
      (s.flag F.MET_STATUS_REFIN_FAULT = true ∨ s.flag F.THM_TEMP_VALID = false ∨ s.flag F.THM_TEMP_FAULT = true ∨ s.met.staleRun = true ∨
        s.restOpen a 24000 = false ∨ s.mode a ≠ modeServe → exec (.calibrateArray a m0 m1 m2) s = .next s) ∧
      (s.flag F.MET_STATUS_REFIN_FAULT = false → s.flag F.THM_TEMP_VALID = true → s.flag F.THM_TEMP_FAULT = false → s.met.staleRun = false →
        s.restOpen a 24000 = true → s.mode a = modeServe → s.cmdRefusal a 1 = none → (s.arr a).prod = none → s.flag F.ARR_STATUS_SIDE_STALE a = false → s.met.lateOut = false →
        let temp := toSigned 16 (s.fld F.THM_TEMP)
        (sweepFails m1 = false → sweepFits m1 = true → ∃ t, exec (.calibrateArray a m0 m1 m2) s = .next t ∧
          t.fld F.ARR_TRIM_READ_RWL a = trimCode (s.fld F.ARR_TRIM_READ_RWL a) (nearest (gainErr m0 * Config.codesPerGain a temp) (11796480 * 65536)) ∧
          t.fld F.ARR_TRIM_REF_BOT a = trimCode (s.fld F.ARR_TRIM_REF_BOT a) (nearest (offErr m0 * Config.codesPerLsb a) (737280 * 65536)) ∧
          t.fld F.MET_CAL_DATA_TSET a = s.fld F.THM_TEMP % 65536 ∧ t.flag F.MET_CAL_DATA_VALID a = true ∧ t.flag F.MET_CAL_DATA_FAILED a = false ∧
          t.flag F.MET_CAL_DATA_DUE a = false ∧ t.flag F.MET_CAL_DATA_LATE a = false ∧ t.mode a = modeServe ∧ (t.arr a).cells = (s.arr a).cells ∧
          s.onlyArray t a ∧ s.onlyIn t [.fields, .arrays, .irq, .met]) ∧
        (sweepFails m1 = true ∨ sweepFits m1 = false → sweepFails m2 = false → sweepFits m2 = false → SMap.get 0 s.met.fails a = 0 →
          ∃ t, exec (.calibrateArray a m0 m1 m2) s = .next t ∧ t.fld F.ARR_TRIM_READ_RWL a = s.fld F.ARR_TRIM_READ_RWL a % 1024 ∧
            t.fld F.ARR_TRIM_REF_BOT a = s.fld F.ARR_TRIM_REF_BOT a % 1024 ∧ t.flag F.MET_CAL_DATA_FAILED a = true ∧ s.counts t F.MET_CALFAILCNT ∧
            s.tells t 0x00C5 [a / 16, a % 16, regionOf (a / 16)] ∧ t.mode a = modeServe ∧ SMap.get 0 t.met.fails a = 1 ∧ s.onlyArray t a ∧
            s.onlyIn t [.fields, .arrays, .irq, .met, .host])))

/-- The start-up steps and the boot ledger (R462 to R464, Table 14-5). -/
def Obligations.BootStepsEnd : Prop :=
  ∀ (s : State) (bad second : Nat) (checks : List ArrCheck), (checks.all fun c => decide (c.arr < 20480)) = true →
    (∀ k, s.pwr.begun = some k → k ≤ 11 → s.isOff = false → (3 ≤ k → s.holder ≠ 0) →
      (k = 0 → s.pwr.seq = .idle ∧ ∀ i ∈ raiseOrder, s.fld F.PWR_RAIL_DATA_STATE i = 2) → (k = 1 → bad.testBit 2 = false) → (k = 2 → s.holder ≠ 0) →
      (k = 8 → s.flag F.MET_RES_VALID 0 = true ∨ s.flag F.MET_STATUS_REFIN_FAULT = true) →
      ∃ t, exec (.bootStepEnd bad second checks) s = .next t ∧ (t.fld F.PWR_BOOT_DATA_OUTCOME k = 1 ∨ t.fld F.PWR_BOOT_DATA_OUTCOME k = 2) ∧
        (k ≠ 3 → t.fld F.PWR_BOOT_DATA_MODE k = s.stepMode k % 4) ∧
        (k ≤ 10 → t.pwr.begun = some (k + 1) ∧ t.fld F.PWR_BOOT_STAGE = k + 1) ∧
        (k = 11 → t.pwr.begun = none ∧ t.flag F.PWR_BOOT_READY = true ∧ t.pwr.clearAlt = false ∧ ∀ fn, fn ≤ 16 → (t.win fn).ready = true) ∧
        (k = 0 → t.fld F.GLB_CLKSTAT_PLL_LOCK = 255 ∧ t.pwr.tbRun = true ∧ ∀ i, i < 1280 → t.flag F.CORE_STATUS_CLEARING i = true) ∧
        (k = 1 → s.stepMode 1 = 0 → s.bootsFrom bad s.confirmed = true → s.confirmed ≤ 1 → t.running = s.confirmed ∧ t.fld F.PWR_BOOT_DATA_OUTCOME 1 = 1 ∧
          t.fld F.PWR_BOOT_DATA_DETAIL 1 = s.confirmed) ∧
        (k = 3 → t.wgt.recs = s.wgt.recs ∧ t.wgt.ledger = s.wgt.ledger ∧ t.wgt.resident = s.wgt.resident) ∧
        (k = 4 → bad = 0 → s.holder ≤ 2 → s.vfld F.UPD_STATUS_BOOTED ≤ 1 → s.slotState 0 2 = 2 → s.slotState 1 2 = 2 →
          t.fld F.PWR_BOOT_DATA_OUTCOME 4 = 1 ∧ ∀ j, j < 8 → t.rcoreRuns j = true) ∧
        (k = 5 → ∀ j, j < 10 → (s.histRec 4 j).cls < 2 →
          (bad.testBit j = false → t.flag F.MEM_STATUS_TRAINED j = true ∧ t.flag F.MEM_STATUS_CONSERVATIVE j = (s.stepMode 5 != 0 && s.pwr.altStacks.testBit j)) ∧
          (bad.testBit j = true → second.testBit j = false → t.flag F.MEM_STATUS_TRAINED j = true ∧ t.flag F.MEM_STATUS_CONSERVATIVE j = true) ∧
          (bad.testBit j = true → second.testBit j = true → t.flag F.MEM_STATUS_EXCLUDED j = true ∧ t.flag F.MEM_STATUS_TRAINED j = false)) ∧
        (k = 6 → t.dram = [] ∧ t.hamper = s.hamper) ∧
        (k = 7 → ∀ n, n < 32 → t.flag F.PRT_STATUS_TRAINING n = (s.flag F.PRT_CTL_ENABLE n && !s.flag F.PRT_STATUS_DISABLED n))) ∧
    (∀ k, s.pwr.begun = some k → (k = 0 ∧ s.pwr.seq ≠ .idle) ∨ (2 ≤ k ∧ s.holder = 0) ∨
        (k = 8 ∧ s.flag F.MET_RES_VALID 0 = false ∧ s.flag F.MET_STATUS_REFIN_FAULT = false) ∨ s.isOff = true →
      exec (.bootStepEnd bad second checks) s = .next s) ∧
    (s.pwr.begun = none → exec (.bootStepEnd bad second checks) s = .next s) ∧
    (s.pwr.begun = some 1 → s.isOff = false → s.confirmed ≤ 1 → (∀ slot, slot ≤ 2 → s.bootsFrom bad slot = false) →
      ∃ t, exec (.bootStepEnd bad second checks) s = .next t ∧ t.fld F.PWR_BOOT_DATA_OUTCOME 1 = 2 ∧ t.pwr.begun = none) ∧
    (∀ fn, fn ≤ 16 → s.barOpen = true →
      (roleIns ≤ s.roleOf fn → ∃ t, exec (.clearAlt (.host fn)) s = .next t ∧ t.pwr = { s.pwr with clearAlt := true } ∧ ∀ k, t.stepMode k = 0) ∧
      (s.roleOf fn < roleIns → exec (.clearAlt (.host fn)) s = .next (s.audit fn 0xFFFF 1 0xF3 0x6024)))

/-- The SMBus target (R525, R526). -/
def Obligations.SmbusTarget : Prop :=
  ∀ (s : State) (addr off : Nat),
    (s.smbAnswers addr = true →
      (∀ count, (∀ n, count = some n → 1 ≤ n ∧ n ≤ 8) → exec (.setOffset addr off count true) s = .next { s with smb := { s.smb with
        offset := off, bad := !(decide (off ≤ 0x1FFFFFF) && off % 4 == 0), badBit := s.smb.badBit || !(decide (off ≤ 0x1FFFFFF) && off % 4 == 0),
        count := count.getD 1 } }) ∧
      (∀ count, exec (.setOffset addr off count false) s = .next s) ∧
      (exec (.smbRead addr true) s = .next { s with smb := { s.smb with stalled := true } }) ∧
      (s.smb.bad = true → exec (.smbRead addr false) s = .next { s with smb := { s.smb with out := List.replicate (4 * s.smb.count) 0 } }) ∧
      (s.smb.bad = false → s.smb.count = 1 → s.smb.offset ≠ 0x6104 → s.smb.offset ≠ 0x7014 → ∃ t, exec (.smbRead addr false) s = .next t ∧
        t.readout = s.readReg .smbus s.smb.offset ∧ t.smb.out = toLe 4 (s.readReg .smbus s.smb.offset) ∧ t.smb.offset = s.smb.offset + 4 ∧
        s.onlyIn t [.smb, .readout]) ∧
      (∀ value, exec (.writeSel addr off value false) s = .next s ∧
        (∀ a i r x, findReg .smbus off = some (a, i, r, x) → r.isSel = true → s.isOff = false → exec (.writeSel addr off value true) s = .next (s.writeReg .smbus off value)) ∧
        (findReg .smbus off = none ∨ s.isOff = true → exec (.writeSel addr off value true) s = .next { s with smb := { s.smb with ignored := true } })) ∧
      (∃ t, exec (.smbStatus addr) s = .next t ∧
        t.readout = (if s.smb.ignored then 1 else 0) + (if s.smb.badBit then 2 else 0) + (if s.isOff then 4 else 0) ∧
        t.smb.ignored = false ∧ t.smb.badBit = false ∧ t.smb.offset = s.smb.offset ∧ s.onlyIn t [.smb, .readout])) ∧
    (s.smbAnswers addr = false → (∀ count pec, exec (.setOffset addr off count pec) s = .next s) ∧ (∀ stall, exec (.smbRead addr stall) s = .next s) ∧
      (∀ value pec, exec (.writeSel addr off value pec) s = .next s) ∧ exec (.smbStatus addr) s = .next s) ∧
    (s.pwr.aon = true → s.smb.stalled = false →
      (s.alertLow = true → ∃ t, exec .alertResponse s = .next t ∧ t.readout = 2 * s.smbAddress ∧ t.alertLow = s.alertCause ∧ s.onlyIn t [.smb, .readout]) ∧
      (s.alertLow = false → exec .alertResponse s = .next s)) ∧
    (∀ us, (25000 ≤ us → exec (.smbBusTimeout us) s = .next { s with smb := { s.smb with stalled := false } }) ∧ (us < 25000 → exec (.smbBusTimeout us) s = .next s))
end

