-- ==== Sys2Proof/Laws/Exec.lean ====
section
/-!
SUPPORT. What each command runs, as one equation: exec of a constructor is its operation, for the commands that name units the part has.
-/

namespace Sys2Proof.Machine

@[simp] theorem exec_registerWrite (path : Path) (addr value : Nat) (s : State) :
    exec (.registerWrite path addr value) s = within path.ok (s.writeReg path addr value) := rfl

@[simp] theorem exec_rcCounterRead (path : Path) (addr : Nat) (s : State) :
    exec (.rcCounterRead path addr) s = within path.ok (s.counterRead path addr) := rfl

@[simp] theorem exec_timeLoRead (path : Path) (audit : Bool) (s : State) :
    exec (.timeLoRead path audit) s = within path.ok (s.loRead path audit) := rfl

@[simp] theorem exec_enterMaint (arr tag : Nat) (s : State) :
    exec (.enterMaint arr tag) s = within (arr < arrCount) (s.arrCommand arr 1 tag) := rfl

@[simp] theorem exec_leaveMaint (arr tag : Nat) (s : State) :
    exec (.leaveMaint arr tag) s = within (arr < arrCount) (s.arrCommand arr 2 tag) := rfl

@[simp] theorem exec_erase (arr tag : Nat) (s : State) :
    exec (.erase arr tag) s = within (arr < arrCount) (s.arrCommand arr 3 tag) := rfl

@[simp] theorem exec_programRows (arr tag : Nat) (s : State) :
    exec (.programRows arr tag) s = within (arr < arrCount) (s.arrCommand arr 4 tag) := rfl

@[simp] theorem exec_refreshRows (arr tag : Nat) (s : State) :
    exec (.refreshRows arr tag) s = within (arr < arrCount) (s.arrCommand arr 5 tag) := rfl

@[simp] theorem exec_verifyRow (arr tag : Nat) (s : State) :
    exec (.verifyRow arr tag) s = within (arr < arrCount) (s.arrCommand arr 6 tag) := rfl

@[simp] theorem exec_levelCheck (arr tag : Nat) (s : State) :
    exec (.levelCheck arr tag) s = within (arr < arrCount) (s.arrCommand arr 7 tag) := rfl

@[simp] theorem exec_refSweep (arr tag : Nat) (s : State) :
    exec (.refSweep arr tag) s = within (arr < arrCount) (s.arrCommand arr 8 tag) := rfl

@[simp] theorem exec_writeSide (arr tag : Nat) (s : State) :
    exec (.writeSide arr tag) s = within (arr < arrCount) (s.arrCommand arr 9 tag) := rfl

@[simp] theorem exec_exclude (arr tag : Nat) (s : State) :
    exec (.exclude arr tag) s = within (arr < arrCount) (s.arrCommand arr 10 tag) := rfl

@[simp] theorem exec_arrayCommandEnd (arr : Nat) (reads finals : List (Nat × Nat)) (sweep : List Nat) (s : State) :
    exec (.arrayCommandEnd arr reads finals sweep) s = within (arr < arrCount) (s.commandEnd arr reads finals sweep) := rfl

@[simp] theorem exec_vppOutOfRegulation (s : State) :
    exec (.vppOutOfRegulation) s = let s := s.setFld F.PWR_STATUS_VPP_ON 0
  .next { s with arrays := s.arrays.map fun e =>
    match e.2.cmd with
    | some c => if supplyBound c.op then (e.1, { e.2 with cmd := some { c with abort := true } }) else e
    | none => e } := rfl

@[simp] theorem exec_nop (core : Nat) (h : OpHdr) (s : State) :
    exec (.nop core h) s = within (core < coreCount) (s.issue core h .quiet .nop) := rfl

@[simp] theorem exec_resetCtr (core : Nat) (h : OpHdr) (ctr : Nat) (s : State) :
    exec (.resetCtr core h ctr) s = within (core < coreCount) (s.issue core h .quiet (.resetCtr ctr)) := rfl

@[simp] theorem exec_flip (core : Nat) (h : OpHdr) (tile : Nat) (s : State) :
    exec (.flip core h tile) s = within (core < coreCount) (s.issue core h .quiet (.flip tile)) := rfl

@[simp] theorem exec_barrier (core : Nat) (h : OpHdr) (id participants : Nat) (s : State) :
    exec (.barrier core h id participants) s = within (core < coreCount) (s.issue core h .quiet (.barrier id participants)) := rfl

@[simp] theorem exec_arrayInputLoad (core : Nat) (h : OpHdr) (e : OpEnv) (mask : Nat) (fmt : Fmt) (buf elems scales ref count : Nat) (s : State) :
    exec (.arrayInputLoad core h e mask fmt buf elems scales ref count) s = within (core < coreCount) (s.issue core h e (.load mask fmt buf elems scales ref count)) := rfl

@[simp] theorem exec_product (core : Nat) (h : OpHdr) (arr buf k bank : Nat) (s : State) :
    exec (.product core h arr buf k bank) s = within (core < coreCount) (s.issue core h .quiet (.product arr buf k bank)) := rfl

@[simp] theorem exec_productEnd (arr : Nat) (dev : List (Nat × Int)) (parity : Bool) (s : State) :
    exec (.productEnd arr dev parity) s = within (arr < arrCount) (s.productEnd arr dev parity) := rfl

@[simp] theorem exec_accumulate (core : Nat) (h : OpHdr) (e : OpEnv) (chains : Nat) (bf16 : Bool) (table : Nat) (s : State) :
    exec (.accumulate core h e chains bf16 table) s = within (core < coreCount) (s.issue core h e (.accumulate chains bf16 table)) := rfl

@[simp] theorem exec_rotq (core : Nat) (h : OpHdr) (e : OpEnv) (m mode : Nat) (fmt : Fmt) (inBf16 : Bool) (seed src dst len : Nat) (s : State) :
    exec (.rotq core h e m mode fmt inBf16 seed src dst len) s = within (core < coreCount) (s.issue core h e (.rotq m mode fmt inBf16 seed src dst len)) := rfl

@[simp] theorem exec_matmul (core : Nat) (h : OpHdr) (e : OpEnv) (x y z m n k32 flags : Nat) (s : State) :
    exec (.matmul core h e x y z m n k32 flags) s = within (core < coreCount) (s.issue core h e (.matmul x y z m n k32 flags)) := rfl

@[simp] theorem exec_vecAdd (core : Nat) (h : OpHdr) (e : OpEnv) (flags k a b dst len : Nat) (s : State) :
    exec (.vecAdd core h e flags k a b dst len) s = within (core < coreCount) (s.issue core h e (.vec .add flags k a b dst len)) := rfl

@[simp] theorem exec_vecSubtract (core : Nat) (h : OpHdr) (e : OpEnv) (flags k a b dst len : Nat) (s : State) :
    exec (.vecSubtract core h e flags k a b dst len) s = within (core < coreCount) (s.issue core h e (.vec .sub flags k a b dst len)) := rfl

@[simp] theorem exec_vecMultiply (core : Nat) (h : OpHdr) (e : OpEnv) (flags k a b dst len : Nat) (s : State) :
    exec (.vecMultiply core h e flags k a b dst len) s = within (core < coreCount) (s.issue core h e (.vec .mul flags k a b dst len)) := rfl

@[simp] theorem exec_vecFma (core : Nat) (h : OpHdr) (e : OpEnv) (flags k a b dst len : Nat) (s : State) :
    exec (.vecFma core h e flags k a b dst len) s = within (core < coreCount) (s.issue core h e (.vec .fma flags k a b dst len)) := rfl

@[simp] theorem exec_vecMinimum (core : Nat) (h : OpHdr) (e : OpEnv) (flags k a b dst len : Nat) (s : State) :
    exec (.vecMinimum core h e flags k a b dst len) s = within (core < coreCount) (s.issue core h e (.vec .min flags k a b dst len)) := rfl

@[simp] theorem exec_vecMaximum (core : Nat) (h : OpHdr) (e : OpEnv) (flags k a b dst len : Nat) (s : State) :
    exec (.vecMaximum core h e flags k a b dst len) s = within (core < coreCount) (s.issue core h e (.vec .max flags k a b dst len)) := rfl

@[simp] theorem exec_vecScale (core : Nat) (h : OpHdr) (e : OpEnv) (flags k a b dst len : Nat) (s : State) :
    exec (.vecScale core h e flags k a b dst len) s = within (core < coreCount) (s.issue core h e (.vec .scale flags k a b dst len)) := rfl

@[simp] theorem exec_vecCompare (core : Nat) (h : OpHdr) (e : OpEnv) (flags k a b dst len : Nat) (s : State) :
    exec (.vecCompare core h e flags k a b dst len) s = within (core < coreCount) (s.issue core h e (.vec .cmp flags k a b dst len)) := rfl

@[simp] theorem exec_vecSelect (core : Nat) (h : OpHdr) (e : OpEnv) (flags k a b dst len : Nat) (s : State) :
    exec (.vecSelect core h e flags k a b dst len) s = within (core < coreCount) (s.issue core h e (.vec .select flags k a b dst len)) := rfl

@[simp] theorem exec_vecConvert (core : Nat) (h : OpHdr) (e : OpEnv) (flags k a b dst len : Nat) (s : State) :
    exec (.vecConvert core h e flags k a b dst len) s = within (core < coreCount) (s.issue core h e (.vec .convert flags k a b dst len)) := rfl

@[simp] theorem exec_vecReciprocal (core : Nat) (h : OpHdr) (e : OpEnv) (flags k a b dst len : Nat) (s : State) :
    exec (.vecReciprocal core h e flags k a b dst len) s = within (core < coreCount) (s.issue core h e (.vec .recip flags k a b dst len)) := rfl

@[simp] theorem exec_vecRsqrt (core : Nat) (h : OpHdr) (e : OpEnv) (flags k a b dst len : Nat) (s : State) :
    exec (.vecRsqrt core h e flags k a b dst len) s = within (core < coreCount) (s.issue core h e (.vec .rsqrt flags k a b dst len)) := rfl

@[simp] theorem exec_vecExp2 (core : Nat) (h : OpHdr) (e : OpEnv) (flags k a b dst len : Nat) (s : State) :
    exec (.vecExp2 core h e flags k a b dst len) s = within (core < coreCount) (s.issue core h e (.vec .exp2 flags k a b dst len)) := rfl

@[simp] theorem exec_vecLog2 (core : Nat) (h : OpHdr) (e : OpEnv) (flags k a b dst len : Nat) (s : State) :
    exec (.vecLog2 core h e flags k a b dst len) s = within (core < coreCount) (s.issue core h e (.vec .log2 flags k a b dst len)) := rfl

@[simp] theorem exec_vecSum (core : Nat) (h : OpHdr) (e : OpEnv) (flags k a b dst len : Nat) (s : State) :
    exec (.vecSum core h e flags k a b dst len) s = within (core < coreCount) (s.issue core h e (.vec .sum flags k a b dst len)) := rfl

@[simp] theorem exec_vecMaxReduction (core : Nat) (h : OpHdr) (e : OpEnv) (flags k a b dst len : Nat) (s : State) :
    exec (.vecMaxReduction core h e flags k a b dst len) s = within (core < coreCount) (s.issue core h e (.vec .maxRed flags k a b dst len)) := rfl

@[simp] theorem exec_vecTopK (core : Nat) (h : OpHdr) (e : OpEnv) (flags k a b dst len : Nat) (s : State) :
    exec (.vecTopK core h e flags k a b dst len) s = within (core < coreCount) (s.issue core h e (.vec .topK flags k a b dst len)) := rfl

@[simp] theorem exec_send (core : Nat) (h : OpHdr) (e : OpEnv) (dest : Nat) (ctr : Option Nat) (src dst bytes : Nat) (s : State) :
    exec (.send core h e dest ctr src dst bytes) s = within (core < coreCount) (s.issue core h e (.send dest ctr src dst bytes)) := rfl

@[simp] theorem exec_memRead (core : Nat) (h : OpHdr) (e : OpEnv) (stream addr bytes token : Nat) (s : State) :
    exec (.memRead core h e stream addr bytes token) s = within (core < coreCount) (s.issue core h e (.memRead stream addr bytes token)) := rfl

@[simp] theorem exec_memWrite (core : Nat) (h : OpHdr) (e : OpEnv) (stream addr bytes token : Nat) (s : State) :
    exec (.memWrite core h e stream addr bytes token) s = within (core < coreCount) (s.issue core h e (.memWrite stream addr bytes token)) := rfl

@[simp] theorem exec_portSend (core : Nat) (h : OpHdr) (e : OpEnv) (port cls part dest : Nat) (ctr : Option Nat) (src dst bytes : Nat) (s : State) :
    exec (.portSend core h e port cls part dest ctr src dst bytes) s = within (core < coreCount) (s.issue core h e (.portSend port cls part dest ctr src dst bytes)) := rfl

@[simp] theorem exec_operationComplete (core idx : Nat) (s : State) :
    exec (.operationComplete core idx) s = within (core < coreCount) (match s.coreSite core with | some site => s.complete site idx | none => s) := rfl

@[simp] theorem exec_transferComplete (idx : Nat) (s : State) :
    exec (.transferComplete idx) s = .next (s.transferEnds idx) := rfl

@[simp] theorem exec_remoteIncrement (core ctr inc frame pitch : Nat) (s : State) :
    exec (.remoteIncrement core ctr inc frame pitch) s = within (core < coreCount && ctr < 64) (s.remoteInc core ctr inc frame pitch) := rfl

@[simp] theorem exec_gatherFlushIdle (core line : Nat) (s : State) :
    exec (.gatherFlushIdle core line) s = within (core < coreCount) (match s.coreSite core with | some site => s.gatherIdle site line | none => s) := rfl

@[simp] theorem exec_legStart (core : Nat) (s : State) :
    exec (.legStart core) s = within (core < coreCount) (s.startLeg core) := rfl

@[simp] theorem exec_legEnd (core : Nat) (s : State) :
    exec (.legEnd core) s = within (core < coreCount) (s.legEnd core) := rfl

@[simp] theorem exec_legOverrunStop (core : Nat) (s : State) :
    exec (.legOverrunStop core) s = within (core < coreCount) (s.legOverrun core) := rfl

@[simp] theorem exec_suspectReport (idx : Nat) (s : State) :
    exec (.suspectReport idx) s = .next (s.suspectReport idx) := rfl

@[simp] theorem exec_cribFill (site slot arr cblock : Nat) (s : State) :
    exec (.cribFill site slot arr cblock) s = within (site < siteCount && slot < 4 && arr < 16 && cblock < 16) (s.cribFill site slot arr cblock) := rfl

@[simp] theorem exec_cribFillEnd (site : Nat) (codes : List (Nat × Nat)) (parity : Bool) (s : State) :
    exec (.cribFillEnd site codes parity) s = within (site < siteCount) (s.cribFillEnd site codes parity) := rfl

@[simp] theorem exec_cribDrop (site slot : Nat) (s : State) :
    exec (.cribDrop site slot) s = within (site < siteCount && slot < 4) (s.cribDrop site slot) := rfl

@[simp] theorem exec_tstInject (path : Path) (site : Nat) (s : State) :
    exec (.tstInject path site) s = within (path.ok && site < siteCount) (s.inject path site) := rfl

@[simp] theorem exec_coreClear (site : Nat) (s : State) :
    exec (.coreClear site) s = within (site < siteCount) (s.coreClear site) := rfl

@[simp] theorem exec_coreClearComplete (site : Nat) (s : State) :
    exec (.coreClearComplete site) s = within (site < siteCount) (s.coreClearComplete site) := rfl

@[simp] theorem exec_load (c : Mgmt) (switch : Option Nat) (container : Bytes) (s : State) :
    exec (.load c switch container) s = within c.ok ((s.mgmt c (partCmd 0x20 roleIns (decide (c.len ≤ 134217728)) true) (switchWord switch) fun s => s.load c switch container).rebusy) := rfl

@[simp] theorem exec_loadCheckEnd (timing cls sec rec detail : Nat) (s : State) :
    exec (.loadCheckEnd timing cls sec rec detail) s = .next (s.loadCheckEnd timing cls sec rec detail).rebusy := rfl

@[simp] theorem exec_unload (c : Mgmt) (s : State) :
    exec (.unload c) s = within c.ok (s.mgmt c (partCmd 0x21 roleIns) 0 fun s => s.unload c) := rfl

@[simp] theorem exec_start (c : Mgmt) (frame : Nat) (s : State) :
    exec (.start c frame) s = within c.ok (s.mgmt c (partCmd 0x22 roleOpr) (frame % 2 ^ 32) fun s => s.start c frame) := rfl

@[simp] theorem exec_stop (c : Mgmt) (s : State) :
    exec (.stop c) s = within c.ok (s.besideLoad c fun s => s.mgmt c (partCmd 0x23 roleOpr) 0 fun s => s.stop c) := rfl

@[simp] theorem exec_cancelLoad (c : Mgmt) (s : State) :
    exec (.cancelLoad c) s = within c.ok (s.besideLoad c fun s => s.mgmt c (partCmd 0x24 roleIns) 0 fun s => s.cancelLoad c) := rfl

@[simp] theorem exec_clearFrameCounters (c : Mgmt) (s : State) :
    exec (.clearFrameCounters c) s = within c.ok (s.mgmt c (partCmd 0x25 roleOpr) 0 fun s => s.clearFrameCounters c) := rfl

@[simp] theorem exec_readFrameState (c : Mgmt) (s : State) :
    exec (.readFrameState c) s = within c.ok (s.mgmt c (partCmd 0x26 roleOpr) 0 fun s => s.readFrameState c) := rfl

@[simp] theorem exec_whistleInEdge (samples : Nat) (s : State) :
    exec (.whistleInEdge samples) s = .next (s.whistleEdge samples).rebusy := rfl

@[simp] theorem exec_whistle (src epoch frame : Nat) (s : State) :
    exec (.whistle src epoch frame) s = .next (s.whistleMsg src epoch frame).rebusy := rfl

@[simp] theorem exec_windowOpen (s : State) :
    exec (.windowOpen) s = .next s.windowOpening.rebusy := rfl

@[simp] theorem exec_selfWhistle (s : State) :
    exec (.selfWhistle) s = .next s.selfWhistle.rebusy := rfl

@[simp] theorem exec_managerWhistle (s : State) :
    exec (.managerWhistle) s = .next s.managerWhistle.rebusy := rfl

@[simp] theorem exec_readyPoint (s : State) :
    exec (.readyPoint) s = .next s.readyPointActs := rfl

@[simp] theorem exec_ready (src frame : Nat) (s : State) :
    exec (.ready src frame) s = .next (s.readyIn src frame) := rfl

@[simp] theorem exec_readyRepeat (s : State) :
    exec (.readyRepeat) s = .next s.readyRepeat := rfl

@[simp] theorem exec_pitchFieldWrite (path : Path) (addr value : Nat) (s : State) :
    exec (.pitchFieldWrite path addr value) s = within path.ok (s.pitchField path addr value) := rfl

@[simp] theorem exec_apply (path : Path) (s : State) :
    exec (.apply path) s = within path.ok ((s.pitchApply path).pitchesOff s.pitchesOn) := rfl

@[simp] theorem exec_zeroingComplete (ch : Nat) (s : State) :
    exec (.zeroingComplete ch) s = within (ch < 320) (s.zeroingComplete ch) := rfl

@[simp] theorem exec_patrolScrub (granules : Nat) (errs : List (Nat × Nat × Bool)) (s : State) :
    exec (.patrolScrub granules errs) s = within (errs.all fun e => decide (e.1 < 320)) (s.patrolScrub granules errs) := rfl

@[simp] theorem exec_pageCopy (pitch ctx stream i : Nat) (sel : Option Nat) (s : State) :
    exec (.pageCopy pitch ctx stream i sel) s = within (pitch < 16 && ctx < 1048576 && (match sel with | some e => decide (e < 2) | none => true))
    (s.pageCopy pitch ctx stream i sel) := rfl

@[simp] theorem exec_crossingReset (crossing : Nat) (lost : List Nat) (s : State) :
    exec (.crossingReset crossing lost) s = .next (s.crossingReset crossing lost) := rfl

@[simp] theorem exec_relayPlan (src epoch : Nat) (plan : RelayPlan) (s : State) :
    exec (.relayPlan src epoch plan) s = .next (s.msgIn.fromMgr s.rackMgr src epoch fun s => s.relayPlan plan) := rfl

@[simp] theorem exec_relayPieceArrival (p : Piece) (s : State) :
    exec (.relayPieceArrival p) s = .next (s.msgIn.pieceArrives none p) := rfl

@[simp] theorem exec_chunkVerify (chunk : Nat) (s : State) :
    exec (.chunkVerify chunk) s = within (chunk ≤ leafObject) (s.chunkVerify chunk) := rfl

@[simp] theorem exec_relayStalled (s : State) :
    exec (.relayStalled) s = .next s.relayStalled := rfl

@[simp] theorem exec_relayEnd (src epoch : Nat) (s : State) :
    exec (.relayEnd src epoch) s = .next (s.msgIn.fromMgr s.rackMgr src epoch fun s => s.relayEnd) := rfl

@[simp] theorem exec_coreProgramStart (core : Nat) (s : State) :
    exec (.coreProgramStart core) s = within (core < coreCount) (s.programCore core) := rfl

@[simp] theorem exec_scrubRead (arr : Nat) (s : State) :
    exec (.scrubRead arr) s = within (arr < arrCount) (s.scrubRead arr) := rfl

@[simp] theorem exec_submit (q : Nat) (s : State) :
    exec (.submit q) s = within (q < queueCount) (s.submit q) := rfl

@[simp] theorem exec_register (pitch tag customer promptLen maxNew : Nat) (s : State) :
    exec (.register pitch tag customer promptLen maxNew) s = within (pitch < 16) (s.register pitch tag customer promptLen maxNew) := rfl

@[simp] theorem exec_partnerTimeout (pitch tag : Nat) (s : State) :
    exec (.partnerTimeout pitch tag) s = within (pitch < 16) (s.partnerTimeout pitch tag) := rfl

@[simp] theorem exec_cancel (c : Mgmt) (tag : Nat) (s : State) :
    exec (.cancel c tag) s = within c.ok (s.mgmt c (pitchCmd 0x40 roleOpr) (tag % 2 ^ 32) fun s => (s.cancelReq c.on tag).answer c 0x40 0 (tag % 2 ^ 32)) := rfl

@[simp] theorem exec_cancelMessage (pitch tag : Nat) (s : State) :
    exec (.cancelMessage pitch tag) s = within (pitch < 16) (s.msgIn.cancelHere pitch tag) := rfl

@[simp] theorem exec_bindingSelection (pitch : Nat) (s : State) :
    exec (.bindingSelection pitch) s = within (pitch < 16) (s.selection pitch) := rfl

@[simp] theorem exec_bindingNotice (pitch frame : Nat) (binds : List Bind) (handles : List (Nat × Nat)) (s : State) :
    exec (.bindingNotice pitch frame binds handles) s = within (pitch < 16) (s.notice pitch frame binds handles) := rfl

@[simp] theorem exec_exitReport (pitch frame : Nat) (items : List ExitItem) (s : State) :
    exec (.exitReport pitch frame items) s = within (pitch < 16) (s.exitReport pitch frame items) := rfl

@[simp] theorem exec_setRation (c : Mgmt) (customer mask : Nat) (r : Ration) (s : State) :
    exec (.setRation c customer mask r) s = within c.ok (s.mgmt c (pitchCmd 0x41 roleOpr) customer fun s => s.setRationCmd c customer mask r) := rfl

@[simp] theorem exec_readRation (c : Mgmt) (customer : Nat) (s : State) :
    exec (.readRation c customer) s = within c.ok (s.mgmt c (pitchCmd 0x42 roleOpr) customer fun s => s.readRationCmd c customer) := rfl

@[simp] theorem exec_releaseWaymark (c : Mgmt) (handle : Nat) (s : State) :
    exec (.releaseWaymark c handle) s = within c.ok (s.mgmt c (pitchCmd 0x43 roleOpr) (handle % 2 ^ 32) fun s => s.releaseCmd c handle) := rfl

@[simp] theorem exec_waymarkMover (pitch : Nat) (s : State) :
    exec (.waymarkMover pitch) s = within (pitch < 16) (s.waymarkMover pitch) := rfl

@[simp] theorem exec_setServing (c : Mgmt) (param v1 v2 : Nat) (parts : List Nat) (s : State) :
    exec (.setServing c param v1 v2 parts) s = within c.ok (s.mgmt c (pitchCmd 0x44 (if param = 3 || param = 4 then roleIns else roleOpr)
      (param != 4 || (decide (2 ≤ c.len) && decide (c.len ≤ 2048) && c.len % 2 == 0)) (param == 4)) param
    fun s => s.setServingCmd c param v1 v2 parts) := rfl

@[simp] theorem exec_readServing (c : Mgmt) (s : State) :
    exec (.readServing c) s = within c.ok (s.mgmt c (pitchCmd 0x45 roleOpr (decide (128 ≤ c.len))) 0
    fun s => (s.hostOutput c.fn (s.servingRecord c.on)).answer c 0x45 0 0) := rfl

@[simp] theorem exec_clearServingCounters (c : Mgmt) (s : State) :
    exec (.clearServingCounters c) s = within c.ok (s.mgmt c (pitchCmd 0x46 roleOpr) 0 fun s => (s.serveChange c.on .clear).answer c 0x46 0 0) := rfl

@[simp] theorem exec_linkRetrain (up : Option (Nat × Nat × Bool)) (s : State) :
    exec (.linkRetrain up) s = .next (s.linkRetrain up) := rfl

@[simp] theorem exec_doorbellPoll (reads : List DoorRead) (s : State) :
    exec (.doorbellPoll reads) s = within (reads.all fun r => decide (r.q < queueCount)) (s.doorbellPoll reads) := rfl

@[simp] theorem exec_heldCompletionWrite (q : Nat) (s : State) :
    exec (.heldCompletionWrite q) s = within (q < queueCount) (s.writeHeld q) := rfl

@[simp] theorem exec_queueEnable (path : Path) (s : State) :
    exec (.queueEnable path) s = within path.ok (s.queueEnable path) := rfl

@[simp] theorem exec_queueDrain (path : Path) (s : State) :
    exec (.queueDrain path) s = within path.ok (s.queueDrain path) := rfl

@[simp] theorem exec_hostInboxDelivery (rec : Nat) (s : State) :
    exec (.hostInboxDelivery rec) s = .next (s.inboxDelivery rec) := rfl

@[simp] theorem exec_promptFetch (pitch slot : Nat) (tokens : List Nat) (s : State) :
    exec (.promptFetch pitch slot tokens) s = within (pitch < 16) (s.promptFetch pitch slot tokens) := rfl

@[simp] theorem exec_msixUnmask (fn vec : Nat) (s : State) :
    exec (.msixUnmask fn vec) s = within (fn ≤ 16 && vec < 2048) (s.msixUnmask fn vec) := rfl

@[simp] theorem exec_mgmtCommandPoll (reads : List (Nat × Nat × Nat × Nat)) (unknown : Option (Mgmt × Nat)) (s : State) :
    exec (.mgmtCommandPoll reads unknown) s = within (reads.all (fun r => decide (r.1 ≤ 16)) && (match unknown with | some (c, _) => decide (c.fn ≤ 16) | none => true))
    (s.mgmtPoll reads unknown) := rfl

@[simp] theorem exec_setTime (c : Mgmt) (sec nsec : Nat) (s : State) :
    exec (.setTime c sec nsec) s = within c.ok (s.mgmt c (partCmd 0x10 roleOpr) 0 fun s => s.setTimeCmd c sec nsec) := rfl

@[simp] theorem exec_poisonedWrite (s : State) :
    exec (.poisonedWrite) s = .next (s.count F.HIF_POISONCNT) := rfl

@[simp] theorem exec_hostLinkFatalError (s : State) :
    exec (.hostLinkFatalError) s = .next s.linkFatal := rfl

@[simp] theorem exec_functionLevelReset (fn : Nat) (s : State) :
    exec (.functionLevelReset fn) s = within (fn ≤ 16) (s.flr fn) := rfl

@[simp] theorem exec_hotReset (s : State) :
    exec (.hotReset) s = .next s.linkDown := rfl

@[simp] theorem exec_busMasterEnableChange (fn : Nat) (bme d3 : Bool) (s : State) :
    exec (.busMasterEnableChange fn bme d3) s = within (fn ≤ 16) (s.bmeChange fn bme d3) := rfl

@[simp] theorem exec_perstN (low : Bool) (s : State) :
    exec (.perstN low) s = .next (s.perstPin low) := rfl

@[simp] theorem exec_relayPiece (c : Mgmt) (len : Nat) (p : Piece) (s : State) :
    exec (.relayPiece c len p) s = within c.ok (s.mgmt c (partCmd 0x60 roleIns (decide (32 ≤ c.len) && decide (c.len ≤ 8224)) true) p.shard fun s => s.relayPieceCmd c len p) := rfl

@[simp] theorem exec_readRelayStatus (c : Mgmt) (s : State) :
    exec (.readRelayStatus c) s = within c.ok (s.mgmt c (partCmd 0x61 roleOpr) 0 fun s => s.answer c 0x61 0 0 s.relayRecord) := rfl

@[simp] theorem exec_readMaskedMap (c : Mgmt) (first : Nat) (s : State) :
    exec (.readMaskedMap c first) s = within c.ok (s.mgmt c (partCmd 0x62 roleIns) first fun s => s.readMasked c first) := rfl

@[simp] theorem exec_readHistory (c : Mgmt) (kind idx : Nat) (s : State) :
    exec (.readHistory c kind idx) s = within c.ok (s.mgmt c (partCmd 0x63 roleOpr (decide (128 ≤ c.len))) idx fun s => s.readHistory c kind idx) := rfl

@[simp] theorem exec_interruptEdge (half id : Nat) (s : State) :
    exec (.interruptEdge half id) s = within (half < halfCount && id < 1024) (s.edge half id) := rfl

@[simp] theorem exec_intcClaim (half target : Nat) (s : State) :
    exec (.intcClaim half target) s = within (half < halfCount && target < 4) (s.intcClaim half target) := rfl

@[simp] theorem exec_intcComplete (half target id : Nat) (s : State) :
    exec (.intcComplete half target id) s = within (half < halfCount && target < 4) (s.intcComplete half target (id % 1024)) := rfl

@[simp] theorem exec_fwclkStop (half idleNs : Nat) (s : State) :
    exec (.fwclkStop half idleNs) s = within (half < halfCount) (s.fwStop half idleNs) := rfl

@[simp] theorem exec_fwclkWake (half : Nat) (s : State) :
    exec (.fwclkWake half) s = within (half < halfCount) (s.fwWake half) := rfl

@[simp] theorem exec_kernelTick (rcore : Nat) (s : State) :
    exec (.kernelTick rcore) s = within (rcore < rangerCount) (s.kernelTick rcore) := rfl

@[simp] theorem exec_watchdogExpiry (rcore : Nat) (s : State) :
    exec (.watchdogExpiry rcore) s = within (rcore < rangerCount) (s.watchdog rcore) := rfl

@[simp] theorem exec_rangerDown (rcore cause : Nat) (s : State) :
    exec (.rangerDown rcore cause) s = within (rcore < rangerCount && 2 ≤ cause && cause ≤ 4) (s.crash rcore cause) := rfl

@[simp] theorem exec_rangerTakeover (rcore : Nat) (s : State) :
    exec (.rangerTakeover rcore) s = within (rcore < rangerCount) (s.takeover rcore) := rfl

@[simp] theorem exec_rangerUp (rcore : Nat) (s : State) :
    exec (.rangerUp rcore) s = within (rcore < rangerCount) (s.rangerUp rcore) := rfl

@[simp] theorem exec_leadershipClaim (half : Nat) (s : State) :
    exec (.leadershipClaim half) s = within (half < halfCount) (s.claimLead half) := rfl

@[simp] theorem exec_leadershipRefresh (half epoch : Nat) (s : State) :
    exec (.leadershipRefresh half epoch) s = within (half < halfCount) (s.refreshLead half epoch) := rfl

@[simp] theorem exec_leadershipLapse (s : State) :
    exec (.leadershipLapse) s = .next s.lapse := rfl

@[simp] theorem exec_replayRequest (src frame group core leg : Nat) (input : List (Nat × Bytes)) (s : State) :
    exec (.replayRequest src frame group core leg input) s = within (core < coreCount) (s.msgIn.replayRequest src frame group core leg input) := rfl

@[simp] theorem exec_replayRun (core : Nat) (s : State) :
    exec (.replayRun core) s = within (core < coreCount) (s.replayRun core) := rfl

@[simp] theorem exec_replayOutput (src frame core leg : Nat) (unclean : Bool) (hamper payloads : List (Nat × Bytes)) (s : State) :
    exec (.replayOutput src frame core leg unclean hamper payloads) s = within (core < coreCount) (s.msgIn.replayOut src frame core leg unclean (hamper, payloads)) := rfl

@[simp] theorem exec_replayRefuse (src frame core leg : Nat) (s : State) :
    exec (.replayRefuse src frame core leg) s = within (core < coreCount) (s.msgIn.replayRefused src frame core leg) := rfl

@[simp] theorem exec_replayPending (frame : Nat) (slots : List Nat) (s : State) :
    exec (.replayPending frame slots) s = .next (s.msgIn.pendingIn frame slots) := rfl

@[simp] theorem exec_suppressed (frame core ctr : Nat) (s : State) :
    exec (.suppressed frame core ctr) s = within (core < coreCount) (s.msgIn.heldBack frame core ctr) := rfl

@[simp] theorem exec_replayGiveUp (core leg : Nat) (s : State) :
    exec (.replayGiveUp core leg) s = within (core < coreCount) (s.giveUpReplay core leg) := rfl

@[simp] theorem exec_withhold (src frame : Nat) (slots : List Nat) (s : State) :
    exec (.withhold src frame slots) s = .next (s.msgIn.withholdIn src frame slots) := rfl

@[simp] theorem exec_list (src epoch frame : Nat) (slots : List Nat) (s : State) :
    exec (.list src epoch frame slots) s = .next (s.msgIn.fromMgr s.whistleMgr src epoch fun s => s.listIn src frame slots) := rfl

@[simp] theorem exec_listAck (src frame : Nat) (s : State) :
    exec (.listAck src frame) s = .next (s.listAck src frame) := rfl

@[simp] theorem exec_withheldReport (src frame : Nat) (slots : List Nat) (s : State) :
    exec (.withheldReport src frame slots) s = .next (s.msgIn.withheldReport src frame slots) := rfl

@[simp] theorem exec_replayMap (src epoch : Nat) (map : List (Nat × Nat)) (s : State) :
    exec (.replayMap src epoch map) s = .next (s.msgIn.fromMgr s.rackMgr src epoch fun s => s.mapIn map) := rfl

@[simp] theorem exec_rollCallDue (s : State) :
    exec (.rollCallDue) s = .next s.rollDue := rfl

@[simp] theorem exec_rollCall (src epoch n : Nat) (s : State) :
    exec (.rollCall src epoch n) s = .next (s.msgIn.fromMgr s.rackMgr src epoch fun s => s.rollCall src n) := rfl

@[simp] theorem exec_rollAnswer (src n shard : Nat) (digest : Option Bytes) (s : State) :
    exec (.rollAnswer src n shard digest) s = .next (if s.isRack then s.msgIn.rollJudge src n shard digest else s.msgIn) := rfl

@[simp] theorem exec_expel (src epoch n stripe : Nat) (s : State) :
    exec (.expel src epoch n stripe) s = .next (s.msgIn.fromMgr s.rackMgr src epoch fun s => s.expelIn n stripe) := rfl

@[simp] theorem exec_historyWrite (s : State) :
    exec (.historyWrite) s = .next s.historyWrite := rfl

@[simp] theorem exec_portLinkDown (port cause : Nat) (s : State) :
    exec (.portLinkDown port cause) s = within (port < portCount) (s.portLinkDown port cause) := rfl

@[simp] theorem exec_portUp (port : Nat) (s : State) :
    exec (.portUp port) s = within (port < portCount) (s.portUp port) := rfl

@[simp] theorem exec_retrain (path : Path) (port : Nat) (s : State) :
    exec (.retrain path port) s = within (path.ok && decide (port < portCount)) (s.retrain path port) := rfl

@[simp] theorem exec_fabricFrameReceived (port : Nat) (f : RxFrame) (s : State) :
    exec (.fabricFrameReceived port f) s = within (port < portCount) (s.frameIn port f) := rfl

@[simp] theorem exec_xonResume (port drained drained1 : Nat) (s : State) :
    exec (.xonResume port drained drained1) s = within (port < portCount) (s.xonResume port drained drained1) := rfl

@[simp] theorem exec_pauseRepeat (port : Nat) (s : State) :
    exec (.pauseRepeat port) s = within (port < portCount) (s.pauseRepeat port) := rfl

@[simp] theorem exec_pfcPauseReceived (port : Nat) (quanta : List (Nat × Nat)) (s : State) :
    exec (.pfcPauseReceived port quanta) s = within (decide (port < portCount) && quanta.all fun q => decide (q.1 < 4)) (s.pfcPause port quanta) := rfl

@[simp] theorem exec_ack (src : Nat) (seq : Option Nat) (units : Nat) (s : State) :
    exec (.ack src seq units) s = .next (s.ackIn src seq units) := rfl

@[simp] theorem exec_messageResend (part seq : Nat) (s : State) :
    exec (.messageResend part seq) s = .next (s.resendAct part seq) := rfl

@[simp] theorem exec_managerClaim (src epoch : Nat) (s : State) :
    exec (.managerClaim src epoch) s = .next (s.claimIn src epoch) := rfl

@[simp] theorem exec_withdraw (src epoch part : Nat) (s : State) :
    exec (.withdraw src epoch part) s = .next (s.msgIn.fromMgr (s.eitherMgr src) src epoch fun s => s.withdrawIn part true) := rfl

@[simp] theorem exec_admitPart (src epoch part : Nat) (s : State) :
    exec (.admitPart src epoch part) s = .next (s.msgIn.fromMgr (s.eitherMgr src) src epoch fun s => s.withdrawIn part false) := rfl

@[simp] theorem exec_cut (src epoch : Nat) (s : State) :
    exec (.cut src epoch) s = .next (s.msgIn.fromMgr s.rackMgr src epoch fun s => s.cutIn src) := rfl

@[simp] theorem exec_cutAck (src : Nat) (s : State) :
    exec (.cutAck src) s = .next (s.msgIn.cutAck src) := rfl

@[simp] theorem exec_cutTimeout (s : State) :
    exec (.cutTimeout) s = .next s.cutTimeout := rfl

@[simp] theorem exec_assume (src epoch number : Nat) (s : State) :
    exec (.assume src epoch number) s = .next (s.msgIn.fromMgr s.rackMgr src epoch fun s => s.assumeIn src number) := rfl

@[simp] theorem exec_assumeAck (src : Nat) (s : State) :
    exec (.assumeAck src) s = .next (s.msgIn.assumeAck src) := rfl

@[simp] theorem exec_conversionStart (value : Nat) (s : State) :
    exec (.conversionStart value) s = .next (s.convWrite value) := rfl

@[simp] theorem exec_urgentConversion (value : Nat) (s : State) :
    exec (.urgentConversion value) s = .next (s.convWrite value) := rfl

@[simp] theorem exec_converterWake (s : State) :
    exec (.converterWake) s = .next s.convWake := rfl

@[simp] theorem exec_routineConversion (s : State) :
    exec (.routineConversion) s = .next s.convRoutine := rfl

@[simp] theorem exec_conversionComplete (code : Int) (s : State) :
    exec (.conversionComplete code) s = .next (s.convComplete code) := rfl

@[simp] theorem exec_refinFault (ok : Bool) (s : State) :
    exec (.refinFault ok) s = .next (s.refinWindow ok) := rfl

@[simp] theorem exec_heldValueStale (ch : Nat) (s : State) :
    exec (.heldValueStale ch) s = within (ch < 16) (s.heldStale ch) := rfl

@[simp] theorem exec_refinWrite (path : Path) (value : Nat) (s : State) :
    exec (.refinWrite path value) s = within path.ok (s.refinWrite path value) := rfl

@[simp] theorem exec_thermalTrip (low opn : Bool) (s : State) :
    exec (.thermalTrip low opn) s = .next (s.tripCond low opn) := rfl

@[simp] theorem exec_tripBlankEnd (low opn : Bool) (s : State) :
    exec (.tripBlankEnd low opn) s = .next (s.blankEnd low opn) := rfl

@[simp] theorem exec_tripTest (path : Path) (s : State) :
    exec (.tripTest path) s = within path.ok (s.tripTest path) := rfl

@[simp] theorem exec_regionTrimAdjust (region : Nat) (code : Option Nat) (s : State) :
    exec (.regionTrimAdjust region code) s = within (region < 8) (s.regionTrim region code) := rfl

@[simp] theorem exec_calibrateArray (arr : Nat) (m0 m1 m2 : List Nat) (s : State) :
    exec (.calibrateArray arr m0 m1 m2) s = within (arr < arrCount) (s.calibrateArray arr m0 m1 m2) := rfl

@[simp] theorem exec_powerOn (s : State) :
    exec (.powerOn) s = .next s.powerOn := rfl

@[simp] theorem exec_sysRstNAssert (s : State) :
    exec (.sysRstNAssert) s = .next s.sysAssert := rfl

@[simp] theorem exec_sysRstNRelease (mode addr : Nat) (s : State) :
    exec (.sysRstNRelease mode addr) s = .next (s.sysRelease mode addr) := rfl

@[simp] theorem exec_railRampRead (read : Option Nat) (s : State) :
    exec (.railRampRead read) s = .next (s.railRamp read) := rfl

@[simp] theorem exec_bootStepEnd (bad second : Nat) (checks : List ArrCheck) (s : State) :
    exec (.bootStepEnd bad second checks) s = within (checks.all fun c => decide (c.arr < arrCount)) (s.bootStep bad second checks) := rfl

@[simp] theorem exec_clearAlt (path : Path) (s : State) :
    exec (.clearAlt path) s = within path.ok (s.clearAltWrite path) := rfl

@[simp] theorem exec_off (path : Path) (s : State) :
    exec (.off path) s = within path.ok (s.offWrite path) := rfl

@[simp] theorem exec_sysrst (path : Path) (s : State) :
    exec (.sysrst path) s = within path.ok (s.sysrstWrite path) := rfl

@[simp] theorem exec_refclkLoss (s : State) :
    exec (.refclkLoss) s = .next s.refLoss := rfl

@[simp] theorem exec_refclkRestored (s : State) :
    exec (.refclkRestored) s = .next s.refBack := rfl

@[simp] theorem exec_pmbusPoll (reads : List (Nat × Option Nat)) (s : State) :
    exec (.pmbusPoll reads) s = within (reads.all fun r => decide (r.1 ≤ 6)) (s.pmbusPoll reads) := rfl

@[simp] theorem exec_pmAlert (status : List (Nat × Option Nat)) (s : State) :
    exec (.pmAlert status) s = within (status.all fun r => decide (r.1 ≤ 6)) (s.pmAlert status) := rfl

@[simp] theorem exec_vppRaise (s : State) :
    exec (.vppRaise) s = .next s.vppRaise := rfl

@[simp] theorem exec_vppLower (s : State) :
    exec (.vppLower) s = .next s.vppLower := rfl

@[simp] theorem exec_droopStretch (s : State) :
    exec (.droopStretch) s = .next s.droopStretch := rfl

@[simp] theorem exec_droopEnd (s : State) :
    exec (.droopEnd) s = .next s.droopEnd := rfl

@[simp] theorem exec_powerEstimate (watts : Nat) (s : State) :
    exec (.powerEstimate watts) s = .next (s.powerEstimate watts) := rfl

@[simp] theorem exec_clampAdjust (s : State) :
    exec (.clampAdjust) s = .next s.clampAdjust := rfl

@[simp] theorem exec_stateReq (path : Path) (value : Nat) (s : State) :
    exec (.stateReq path value) s = within path.ok (s.stateReq path value) := rfl

@[simp] theorem exec_powerState (s : State) :
    exec (.powerState) s = .next s.powerState := rfl

@[simp] theorem exec_pllUnlock (regions : Nat) (s : State) :
    exec (.pllUnlock regions) s = .next (s.pllUnlock regions) := rfl

@[simp] theorem exec_pllRelock (s : State) :
    exec (.pllRelock) s = .next s.pllRelock := rfl

@[simp] theorem exec_pwrWarn (low : Bool) (s : State) :
    exec (.pwrWarn low) s = .next (s.pwrWarn low) := rfl

@[simp] theorem exec_poweredHour (s : State) :
    exec (.poweredHour) s = .next s.poweredHour := rfl

@[simp] theorem exec_atomicRecordWrite (addr : Nat) (data : Bytes) (steps : Nat) (remap : Bool) (s : State) :
    exec (.atomicRecordWrite addr data steps remap) s = within (addr + data.length ≤ 65536 * vaultUnits && data.length ≤ 256) (s.recordWrite addr data steps remap) := rfl

@[simp] theorem exec_roleChallenge (c : Mgmt) (s : State) :
    exec (.roleChallenge c) s = within c.ok (s.roleChallenge c) := rfl

@[simp] theorem exec_roleAssume (c : Mgmt) (role idx : Nat) (sig : Bytes) (s : State) :
    exec (.roleAssume c role idx sig) s = within c.ok (s.roleAssume c role idx sig) := rfl

@[simp] theorem exec_lockoutEnd (fn : Nat) (s : State) :
    exec (.lockoutEnd fn) s = within (fn ≤ 16) (s.lockoutEnd fn) := rfl

@[simp] theorem exec_nonceExpiry (fn : Nat) (s : State) :
    exec (.nonceExpiry fn) s = within (fn ≤ 16) (s.nonceExpiry fn) := rfl

@[simp] theorem exec_roleRelease (c : Mgmt) (s : State) :
    exec (.roleRelease c) s = within c.ok (s.roleRelease c) := rfl

@[simp] theorem exec_keySet (c : Mgmt) (role idx mask : Nat) (key : Bytes) (s : State) :
    exec (.keySet c role idx mask key) s = within c.ok (s.keySet c 0x0103 (role + 256 * idx + 65536 * mask) (if role = 4 then 0 else role) idx mask key) := rfl

@[simp] theorem exec_keyRemove (c : Mgmt) (role idx : Nat) (s : State) :
    exec (.keyRemove c role idx) s = within c.ok (s.keyRemove c 0x0104 (argWord role idx 0 0) (if role = 4 then 0 else role) idx) := rfl

@[simp] theorem exec_pubkeySet (c : Mgmt) (idx : Nat) (key : Bytes) (s : State) :
    exec (.pubkeySet c idx key) s = within c.ok (s.keySet c 0x0105 idx 4 idx 0 key) := rfl

@[simp] theorem exec_pubkeyRemove (c : Mgmt) (idx : Nat) (s : State) :
    exec (.pubkeyRemove c idx) s = within c.ok (s.keyRemove c 0x0106 idx 4 idx) := rfl

@[simp] theorem exec_lock (c : Mgmt) (value : Nat) (s : State) :
    exec (.lock c value) s = within c.ok (s.lockCmd c value) := rfl

@[simp] theorem exec_readAudit (c : Mgmt) (first : Nat) (s : State) :
    exec (.readAudit c first) s = within c.ok (s.readAudit c first) := rfl

@[simp] theorem exec_readKeys (c : Mgmt) (s : State) :
    exec (.readKeys c) s = within c.ok (s.readKeysCmd c) := rfl

@[simp] theorem exec_auditFlush (s : State) :
    exec (.auditFlush) s = .next s.auditFlush := rfl

@[simp] theorem exec_updateBegin (c : Mgmt) (slot : Nat) (header : Bytes) (s : State) :
    exec (.updateBegin c slot header) s = within c.ok (s.updateBegin c slot header) := rfl

@[simp] theorem exec_updateData (c : Mgmt) (off : Nat) (data : Bytes) (s : State) :
    exec (.updateData c off data) s = within c.ok (s.updateData c off data) := rfl

@[simp] theorem exec_updateEnd (c : Mgmt) (s : State) :
    exec (.updateEnd c) s = within c.ok (s.updateEnd c) := rfl

@[simp] theorem exec_updateAbort (c : Mgmt) (s : State) :
    exec (.updateAbort c) s = within c.ok (s.updateAbort c) := rfl

@[simp] theorem exec_sessionAborted (s : State) :
    exec (.sessionAborted) s = .next s.abortDue := rfl

@[simp] theorem exec_activate (c : Mgmt) (slot frame : Nat) (s : State) :
    exec (.activate c slot frame) s = within c.ok (s.activate c slot frame) := rfl

@[simp] theorem exec_activationPause (staged : Bool) (s : State) :
    exec (.activationPause staged) s = .next (s.activationPause staged) := rfl

@[simp] theorem exec_startFailed (s : State) :
    exec (.startFailed) s = .next s.startFailed := rfl

@[simp] theorem exec_activationHandover (s : State) :
    exec (.activationHandover) s = .next s.handover := rfl

@[simp] theorem exec_confirm (c : Mgmt) (slot : Nat) (s : State) :
    exec (.confirm c slot) s = within c.ok (s.confirm c slot) := rfl

@[simp] theorem exec_readUpdate (c : Mgmt) (s : State) :
    exec (.readUpdate c) s = within c.ok (s.readUpdate c) := rfl

@[simp] theorem exec_diagUnlock (c : Mgmt) (s : State) :
    exec (.diagUnlock c) s = within c.ok (s.diagUnlock c) := rfl

@[simp] theorem exec_signatureRequest (key digest sig : Bytes) (s : State) :
    exec (.signatureRequest key digest sig) s = .next (s.signatureRequest key digest sig) := rfl

@[simp] theorem exec_signatureAnswer (s : State) :
    exec (.signatureAnswer) s = .next s.signatureAnswer := rfl

@[simp] theorem exec_setOffset (addr off : Nat) (count : Option Nat) (pec : Bool) (s : State) :
    exec (.setOffset addr off count pec) s = .next (s.smbSetOffset addr off count pec) := rfl

@[simp] theorem exec_smbRead (addr : Nat) (stall : Bool) (s : State) :
    exec (.smbRead addr stall) s = .next (s.smbRead addr stall) := rfl

@[simp] theorem exec_writeSel (addr off value : Nat) (pec : Bool) (s : State) :
    exec (.writeSel addr off value pec) s = .next (s.smbWriteSel addr off value pec) := rfl

@[simp] theorem exec_smbStatus (addr : Nat) (s : State) :
    exec (.smbStatus addr) s = .next (s.smbStatus addr) := rfl

@[simp] theorem exec_alertResponse (s : State) :
    exec (.alertResponse) s = .next s.alertResponse := rfl

@[simp] theorem exec_smbBusTimeout (lowUs : Nat) (s : State) :
    exec (.smbBusTimeout lowUs) s = .next (s.smbTimeout lowUs) := rfl

@[simp] theorem exec_powerFailure (s : State) :
    exec (.powerFailure) s = .next s.powerFailure := rfl

@[simp] theorem exec_completionTimeout (read : HostRead) (kind : Nat) (s : State) :
    exec (.completionTimeout read kind) s = within (match read with | .doorbell => true | .submission q => decide (q < queueCount) | .prompt p _ => decide (p < 16))
    (s.hostReadFails read kind) := rfl

@[simp] theorem exec_pauseTimeExpiry (port cls : Nat) (s : State) :
    exec (.pauseTimeExpiry port cls) s = within (port < portCount && cls < 4) (s.pauseExpiry port cls) := rfl

@[simp] theorem exec_creditRequest (src units : Nat) (s : State) :
    exec (.creditRequest src units) s = .next (s.creditRequest src units) := rfl

@[simp] theorem exec_beatReceived (src epoch nextRoll rollIn : Nat) (s : State) :
    exec (.beatReceived src epoch nextRoll rollIn) s = .next (s.beatIn src epoch nextRoll rollIn) := rfl

@[simp] theorem exec_vppArrInRegulation (s : State) :
    exec (.vppArrInRegulation) s = .next s.vppReady := rfl

@[simp] theorem exec_vfEnable (on : Bool) (s : State) :
    exec (.vfEnable on) s = .next (s.vfSet on) := rfl

@[simp] theorem exec_laneRefclkLoss (eth : Bool) (s : State) :
    exec (.laneRefclkLoss eth) s = .next (s.laneLoss eth) := rfl

@[simp] theorem exec_laneRefclkRestored (eth : Bool) (s : State) :
    exec (.laneRefclkRestored eth) s = .next (s.laneBack eth) := rfl

@[simp] theorem exec_relayStatus (src state result need shard peer self : Nat) (s : State) :
    exec (.relayStatus src state result need shard peer self) s = .next (s.msgIn.statusIn src state result need shard peer self) := rfl

end Sys2Proof.Machine
end

