-- ==== Sys2Proof/Laws/Map.lean ====
section
/-!
SUPPORT. Laws of sparse tables: a read after a write, and the canonical form.
-/

namespace Sys2Proof.Machine

variable {α : Type}

/-! Reading what was written. -/

@[simp] theorem SMap.find?_nil (k : Nat) : SMap.find? ([] : SMap α) k = none := rfl

/-- A key just listed is found. -/
@[simp] theorem SMap.find?_put_same (m : SMap α) (k : Nat) (v : α) : SMap.find? (SMap.put m k v) k = some v := by
  induction m with
  | nil => simp [SMap.put, SMap.find?]
  | cons e m ih =>
    obtain ⟨j, w⟩ := e
    simp only [SMap.put]
    split
    · simp [SMap.find?]
    · split <;> simp_all [SMap.find?]

/-- Listing a key leaves every other key as it was. -/
theorem SMap.find?_put_ne (m : SMap α) {k i : Nat} (v : α) (h : i ≠ k) : SMap.find? (SMap.put m k v) i = SMap.find? m i := by
  induction m with
  | nil => simp [SMap.put, SMap.find?, Ne.symm h]
  | cons e m ih =>
    obtain ⟨j, w⟩ := e
    simp only [SMap.put]
    split
    · simp [SMap.find?, Ne.symm h]
    · split
      · next hj => subst hj; simp [SMap.find?, Ne.symm h]
      · simp [SMap.find?, ih]

/-- A key unlisted is not found. -/
@[simp] theorem SMap.find?_drop_same (m : SMap α) (k : Nat) : SMap.find? (SMap.drop m k) k = none := by
  induction m with
  | nil => rfl
  | cons e m ih =>
    obtain ⟨j, w⟩ := e
    by_cases h : j = k
    · simp_all [SMap.drop]
    · simp_all [SMap.drop, SMap.find?]

/-- Unlisting a key leaves every other key as it was. -/
theorem SMap.find?_drop_ne (m : SMap α) {k i : Nat} (h : i ≠ k) : SMap.find? (SMap.drop m k) i = SMap.find? m i := by
  induction m with
  | nil => rfl
  | cons e m ih =>
    obtain ⟨j, w⟩ := e
    by_cases hj : j = k
    · subst hj; simp_all [SMap.drop, SMap.find?, Ne.symm h]
    · simp_all [SMap.drop, SMap.find?]

/-- A key reads what was last written to it. -/
@[simp] theorem SMap.get_set_same [DecidableEq α] (d : α) (m : SMap α) (k : Nat) (v : α) : SMap.get d (SMap.set d m k v) k = v := by
  unfold SMap.set SMap.get
  split <;> simp_all

/-- A write leaves every other key as it was. -/
theorem SMap.get_set_ne [DecidableEq α] (d : α) (m : SMap α) {k i : Nat} (v : α) (h : i ≠ k) :
    SMap.get d (SMap.set d m k v) i = SMap.get d m i := by
  unfold SMap.set SMap.get
  split
  · rw [SMap.find?_drop_ne m h]
  · rw [SMap.find?_put_ne m v h]

/-! The canonical form. -/

/-- A lower bound may be lowered. -/
theorem SMap.rising_mono {b c : Nat} (h : c ≤ b) : ∀ {m : SMap α}, SMap.rising b m = true → SMap.rising c m = true
  | [], _ => rfl
  | (j, _) :: m, hm => by
    simp only [SMap.rising, Bool.and_eq_true, decide_eq_true_eq] at hm ⊢
    exact ⟨Nat.le_trans h hm.1, hm.2⟩

/-- Leaving entries out keeps the keys rising. -/
theorem SMap.rising_filter (p : Nat × α → Bool) : ∀ {b : Nat} {m : SMap α}, SMap.rising b m = true → SMap.rising b (m.filter p) = true
  | _, [], _ => rfl
  | b, (j, w) :: m, hm => by
    simp only [SMap.rising, Bool.and_eq_true, decide_eq_true_eq] at hm
    have ih := SMap.rising_filter p hm.2
    cases hp : p (j, w)
    · rw [List.filter_cons_of_neg (by simp [hp])]
      exact SMap.rising_mono (by omega) ih
    · rw [List.filter_cons_of_pos hp]
      simp only [SMap.rising, Bool.and_eq_true, decide_eq_true_eq]
      exact ⟨hm.1, ih⟩

/-- Listing a key in its place keeps the keys rising. -/
theorem SMap.rising_put (k : Nat) (v : α) : ∀ {b : Nat} {m : SMap α}, b ≤ k → SMap.rising b m = true → SMap.rising b (SMap.put m k v) = true
  | b, [], hk, _ => by simp [SMap.put, SMap.rising, hk]
  | b, (j, w) :: m, hk, hm => by
    simp only [SMap.rising, Bool.and_eq_true, decide_eq_true_eq] at hm
    simp only [SMap.put]
    split
    · next h => simp only [SMap.rising, Bool.and_eq_true, decide_eq_true_eq]; exact ⟨hk, by omega, hm.2⟩
    · split
      · next h => subst h; simp only [SMap.rising, Bool.and_eq_true, decide_eq_true_eq]; exact hm
      · next h1 h2 =>
        simp only [SMap.rising, Bool.and_eq_true, decide_eq_true_eq]
        exact ⟨hm.1, SMap.rising_put k v (by omega) hm.2⟩

/-- A write keeps the keys rising. -/
theorem SMap.rising_set [DecidableEq α] (d : α) {m : SMap α} (k : Nat) (v : α) (h : SMap.rising 0 m = true) :
    SMap.rising 0 (SMap.set d m k v) = true := by
  unfold SMap.set
  split
  · exact SMap.rising_filter _ h
  · exact SMap.rising_put k v (Nat.zero_le _) h

/-- What stands in a table after a key is listed stood there before, or is the new entry. -/
theorem SMap.mem_put {m : SMap α} {k : Nat} {v : α} {e : Nat × α} (h : e ∈ SMap.put m k v) : e = (k, v) ∨ e ∈ m := by
  induction m with
  | nil => simpa [SMap.put] using h
  | cons f m ih =>
    obtain ⟨j, w⟩ := f
    simp only [SMap.put] at h
    split at h
    · simpa using h
    · split at h
      · rcases List.mem_cons.1 h with h | h
        · exact .inl h
        · exact .inr (List.mem_cons_of_mem _ h)
      · rcases List.mem_cons.1 h with h | h
        · exact .inr (h ▸ List.mem_cons_self ..)
        · exact (ih h).imp id (List.mem_cons_of_mem _)

/-- The canonical form in two parts. -/
theorem SMap.wf_iff [DecidableEq α] (d : α) (m : SMap α) : SMap.wf d m = true ↔ SMap.rising 0 m = true ∧ ∀ e ∈ m, e.2 ≠ d := by
  simp [SMap.wf, List.all_eq_true]

/-- The empty table is canonical. -/
@[simp] theorem SMap.wf_nil [DecidableEq α] (d : α) : SMap.wf d ([] : SMap α) = true := rfl

/-- Leaving entries out keeps the canonical form. -/
theorem SMap.wf_filter [DecidableEq α] {d : α} {m : SMap α} (p : Nat × α → Bool) (h : SMap.wf d m = true) :
    SMap.wf d (m.filter p) = true := by
  rw [SMap.wf_iff] at h ⊢
  exact ⟨SMap.rising_filter p h.1, fun e he => h.2 e (List.mem_of_mem_filter he)⟩

/-- A write keeps the canonical form. -/
theorem SMap.wf_set [DecidableEq α] {d : α} {m : SMap α} (k : Nat) (v : α) (h : SMap.wf d m = true) : SMap.wf d (SMap.set d m k v) = true := by
  unfold SMap.set
  split
  · exact SMap.wf_filter _ h
  · next hv =>
    rw [SMap.wf_iff] at h ⊢
    refine ⟨SMap.rising_put k v (Nat.zero_le _) h.1, fun e he => ?_⟩
    rcases SMap.mem_put he with rfl | he
    · exact hv
    · exact h.2 e he

end Sys2Proof.Machine
end

