-- ==== Sys2Proof/Laws/State.lean ====
section
/-!
SUPPORT. What each named update of the state leaves as it was, field by field, and what is read after it.  The table of lemmas
is true by unfolding, so that no later proof unfolds an update.
-/

namespace Sys2Proof.Machine

/-! Reads after writes. -/

@[simp] theorem Outcome.next_inj {s t : State} : (Host.Outcome.next s : Host.Outcome State Fault Refusal) = .next t ↔ s = t :=
  ⟨fun h => by cases h; rfl, fun h => by rw [h]⟩

/-- Commands that name units the part has go on. -/
@[simp] theorem within_true {t : State} : within true t = .next t := rfl

/-- Commands that name others stop. -/
@[simp] theorem within_false {t : State} : within false t = .fault .noSuchUnit := rfl

/-- A command that names units the part has goes on. -/
theorem within_next {ok : Bool} {t : State} (h : ok = true) : within ok t = .next t := by rw [h]; rfl

/-- A command that names others stops. -/
theorem within_fault {ok : Bool} {t : State} (h : ok = false) : within ok t = .fault .noSuchUnit := by rw [h]; rfl

/-- The two accounts of which register paths exist agree. -/
@[simp] theorem Path.ok_eq (p : Path) : p.ok = knownPath p := by cases p <;> rfl

/-- A field reads what was written, cut to its width. -/
@[simp] theorem State.fld_setFld_same (s : State) (f : Fld) (v i : Nat) : (s.setFld f v i).fld f i = v % 2 ^ f.width :=
  SMap.get_set_same ..

/-- A field at another key reads as before. -/
theorem State.fld_setFld_key (s : State) (f g : Fld) (v i j : Nat) (h : g.key j ≠ f.key i) : (s.setFld f v i).fld g j = s.fld g j := by
  unfold State.fld State.setFld SMap.get SMap.set
  split
  · rw [SMap.find?_drop_ne _ h]
  · rw [SMap.find?_put_ne _ _ h]

/-- Another field of the register file reads as before. -/
theorem State.fld_setFld_of_code (s : State) (f g : Fld) (v i j : Nat) (hf : f.code < 1024) (hg : g.code < 1024) (h : g.code ≠ f.code) :
    (s.setFld f v i).fld g j = s.fld g j :=
  s.fld_setFld_key f g v i j (by unfold Fld.key; omega)

/-- The same field at another place reads as before. -/
theorem State.fld_setFld_place (s : State) (f : Fld) (v i j : Nat) (h : j ≠ i) : (s.setFld f v i).fld f j = s.fld f j :=
  s.fld_setFld_key f f v i j (by unfold Fld.key; omega)

/-- The vault's value reads what was written. -/
@[simp] theorem State.vfld_setVfld_same (s : State) (f : Fld) (v i : Nat) : (s.setVfld f v i).vfld f i = v % 2 ^ f.width :=
  SMap.get_set_same ..

/-- An array reads what was written. -/
@[simp] theorem State.arr_setArr_same (s : State) (a : Nat) (x : ArrSt) : (s.setArr a x).arr a = x := SMap.get_set_same ..

/-- Another array reads as before. -/
theorem State.arr_setArr_ne (s : State) {a b : Nat} (x : ArrSt) (h : b ≠ a) : (s.setArr a x).arr b = s.arr b := SMap.get_set_ne _ _ _ h

/-- A core reads what was written. -/
@[simp] theorem State.core_setCore_same (s : State) (i : Nat) (x : CoreSt) : (s.setCore i x).core i = x := SMap.get_set_same ..

/-- Another core reads as before. -/
theorem State.core_setCore_ne (s : State) {i j : Nat} (x : CoreSt) (h : j ≠ i) : (s.setCore i x).core j = s.core j := SMap.get_set_ne _ _ _ h

/-- A function's window reads what was written. -/
@[simp] theorem State.win_setWin_same (s : State) (fn : Nat) (w : WinSt) : (s.setWin fn w).win fn = w := SMap.get_set_same ..

/-- Another function's window reads as before. -/
theorem State.win_setWin_ne (s : State) {a b : Nat} (w : WinSt) (h : b ≠ a) : (s.setWin a w).win b = s.win b := SMap.get_set_ne _ _ _ h

/-- A pitch's serving state reads what was written. -/
@[simp] theorem State.srv_setSrv_same (s : State) (p : Nat) (x : ServeSt) : (s.setSrv p x).srv p = x := SMap.get_set_same ..

/-- Another pitch's serving state reads as before. -/
theorem State.srv_setSrv_ne (s : State) {p r : Nat} (x : ServeSt) (h : r ≠ p) : (s.setSrv p x).srv r = s.srv r := SMap.get_set_ne _ _ _ h

/-- A pitch's serving state reads what it was changed to. -/
@[simp] theorem State.srv_onSrv_same (s : State) (p : Nat) (g : ServeSt → ServeSt) : (s.onSrv p g).srv p = g (s.srv p) := SMap.get_set_same ..

/-- A fabric port reads what was written. -/
@[simp] theorem State.port_setPort_same (s : State) (k : Nat) (x : PortSt) : (s.setPort k x).port k = x := SMap.get_set_same ..

/-! What an update leaves. -/

@[simp] theorem State.setFld_vfields (s : State) (f : Fld) (v i : Nat) : (s.setFld f v i).vfields = s.vfields := rfl
@[simp] theorem State.setFld_now (s : State) (f : Fld) (v i : Nat) : (s.setFld f v i).now = s.now := rfl
@[simp] theorem State.setFld_cyc (s : State) (f : Fld) (v i : Nat) : (s.setFld f v i).cyc = s.cyc := rfl
@[simp] theorem State.setFld_free (s : State) (f : Fld) (v i : Nat) : (s.setFld f v i).free = s.free := rfl
@[simp] theorem State.setFld_hamper (s : State) (f : Fld) (v i : Nat) : (s.setFld f v i).hamper = s.hamper := rfl
@[simp] theorem State.setFld_dram (s : State) (f : Fld) (v i : Nat) : (s.setFld f v i).dram = s.dram := rfl
@[simp] theorem State.setFld_arrays (s : State) (f : Fld) (v i : Nat) : (s.setFld f v i).arrays = s.arrays := rfl
@[simp] theorem State.setFld_cores (s : State) (f : Fld) (v i : Nat) : (s.setFld f v i).cores = s.cores := rfl
@[simp] theorem State.setFld_frame (s : State) (f : Fld) (v i : Nat) : (s.setFld f v i).frame = s.frame := rfl
@[simp] theorem State.setFld_irq (s : State) (f : Fld) (v i : Nat) : (s.setFld f v i).irq = s.irq := rfl
@[simp] theorem State.setFld_net (s : State) (f : Fld) (v i : Nat) : (s.setFld f v i).net = s.net := rfl
@[simp] theorem State.setFld_link (s : State) (f : Fld) (v i : Nat) : (s.setFld f v i).link = s.link := rfl
@[simp] theorem State.setFld_mgr (s : State) (f : Fld) (v i : Nat) : (s.setFld f v i).mgr = s.mgr := rfl
@[simp] theorem State.setFld_fab (s : State) (f : Fld) (v i : Nat) : (s.setFld f v i).fab = s.fab := rfl
@[simp] theorem State.setFld_sec (s : State) (f : Fld) (v i : Nat) : (s.setFld f v i).sec = s.sec := rfl
@[simp] theorem State.setFld_hist (s : State) (f : Fld) (v i : Nat) : (s.setFld f v i).hist = s.hist := rfl
@[simp] theorem State.setFld_wgt (s : State) (f : Fld) (v i : Nat) : (s.setFld f v i).wgt = s.wgt := rfl
@[simp] theorem State.setFld_host (s : State) (f : Fld) (v i : Nat) : (s.setFld f v i).host = s.host := rfl
@[simp] theorem State.setFld_met (s : State) (f : Fld) (v i : Nat) : (s.setFld f v i).met = s.met := rfl
@[simp] theorem State.setFld_pwr (s : State) (f : Fld) (v i : Nat) : (s.setFld f v i).pwr = s.pwr := rfl
@[simp] theorem State.setFld_smb (s : State) (f : Fld) (v i : Nat) : (s.setFld f v i).smb = s.smb := rfl
@[simp] theorem State.setFld_serve (s : State) (f : Fld) (v i : Nat) : (s.setFld f v i).serve = s.serve := rfl
@[simp] theorem State.setFld_readout (s : State) (f : Fld) (v i : Nat) : (s.setFld f v i).readout = s.readout := rfl
@[simp] theorem State.setFld_pending (s : State) (f : Fld) (v i : Nat) : (s.setFld f v i).pending = s.pending := rfl
@[simp] theorem State.vfld_setFld (s : State) (f : Fld) (v i : Nat) (f1 : Fld) (j : Nat) : (s.setFld f v i).vfld f1 j = s.vfld f1 j := rfl
@[simp] theorem State.arr_setFld (s : State) (f : Fld) (v i : Nat) (j : Nat) : (s.setFld f v i).arr j = s.arr j := rfl
@[simp] theorem State.core_setFld (s : State) (f : Fld) (v i : Nat) (j : Nat) : (s.setFld f v i).core j = s.core j := rfl
@[simp] theorem State.win_setFld (s : State) (f : Fld) (v i : Nat) (j : Nat) : (s.setFld f v i).win j = s.win j := rfl
@[simp] theorem State.srv_setFld (s : State) (f : Fld) (v i : Nat) (j : Nat) : (s.setFld f v i).srv j = s.srv j := rfl

@[simp] theorem State.setFlag_vfields (s : State) (f : Fld) (b : Bool) (i : Nat) : (s.setFlag f b i).vfields = s.vfields := rfl
@[simp] theorem State.setFlag_now (s : State) (f : Fld) (b : Bool) (i : Nat) : (s.setFlag f b i).now = s.now := rfl
@[simp] theorem State.setFlag_cyc (s : State) (f : Fld) (b : Bool) (i : Nat) : (s.setFlag f b i).cyc = s.cyc := rfl
@[simp] theorem State.setFlag_free (s : State) (f : Fld) (b : Bool) (i : Nat) : (s.setFlag f b i).free = s.free := rfl
@[simp] theorem State.setFlag_hamper (s : State) (f : Fld) (b : Bool) (i : Nat) : (s.setFlag f b i).hamper = s.hamper := rfl
@[simp] theorem State.setFlag_dram (s : State) (f : Fld) (b : Bool) (i : Nat) : (s.setFlag f b i).dram = s.dram := rfl
@[simp] theorem State.setFlag_arrays (s : State) (f : Fld) (b : Bool) (i : Nat) : (s.setFlag f b i).arrays = s.arrays := rfl
@[simp] theorem State.setFlag_cores (s : State) (f : Fld) (b : Bool) (i : Nat) : (s.setFlag f b i).cores = s.cores := rfl
@[simp] theorem State.setFlag_frame (s : State) (f : Fld) (b : Bool) (i : Nat) : (s.setFlag f b i).frame = s.frame := rfl
@[simp] theorem State.setFlag_irq (s : State) (f : Fld) (b : Bool) (i : Nat) : (s.setFlag f b i).irq = s.irq := rfl
@[simp] theorem State.setFlag_net (s : State) (f : Fld) (b : Bool) (i : Nat) : (s.setFlag f b i).net = s.net := rfl
@[simp] theorem State.setFlag_link (s : State) (f : Fld) (b : Bool) (i : Nat) : (s.setFlag f b i).link = s.link := rfl
@[simp] theorem State.setFlag_mgr (s : State) (f : Fld) (b : Bool) (i : Nat) : (s.setFlag f b i).mgr = s.mgr := rfl
@[simp] theorem State.setFlag_fab (s : State) (f : Fld) (b : Bool) (i : Nat) : (s.setFlag f b i).fab = s.fab := rfl
@[simp] theorem State.setFlag_sec (s : State) (f : Fld) (b : Bool) (i : Nat) : (s.setFlag f b i).sec = s.sec := rfl
@[simp] theorem State.setFlag_hist (s : State) (f : Fld) (b : Bool) (i : Nat) : (s.setFlag f b i).hist = s.hist := rfl
@[simp] theorem State.setFlag_wgt (s : State) (f : Fld) (b : Bool) (i : Nat) : (s.setFlag f b i).wgt = s.wgt := rfl
@[simp] theorem State.setFlag_host (s : State) (f : Fld) (b : Bool) (i : Nat) : (s.setFlag f b i).host = s.host := rfl
@[simp] theorem State.setFlag_met (s : State) (f : Fld) (b : Bool) (i : Nat) : (s.setFlag f b i).met = s.met := rfl
@[simp] theorem State.setFlag_pwr (s : State) (f : Fld) (b : Bool) (i : Nat) : (s.setFlag f b i).pwr = s.pwr := rfl
@[simp] theorem State.setFlag_smb (s : State) (f : Fld) (b : Bool) (i : Nat) : (s.setFlag f b i).smb = s.smb := rfl
@[simp] theorem State.setFlag_serve (s : State) (f : Fld) (b : Bool) (i : Nat) : (s.setFlag f b i).serve = s.serve := rfl
@[simp] theorem State.setFlag_readout (s : State) (f : Fld) (b : Bool) (i : Nat) : (s.setFlag f b i).readout = s.readout := rfl
@[simp] theorem State.setFlag_pending (s : State) (f : Fld) (b : Bool) (i : Nat) : (s.setFlag f b i).pending = s.pending := rfl
@[simp] theorem State.vfld_setFlag (s : State) (f : Fld) (b : Bool) (i : Nat) (f1 : Fld) (j : Nat) : (s.setFlag f b i).vfld f1 j = s.vfld f1 j := rfl
@[simp] theorem State.arr_setFlag (s : State) (f : Fld) (b : Bool) (i : Nat) (j : Nat) : (s.setFlag f b i).arr j = s.arr j := rfl
@[simp] theorem State.core_setFlag (s : State) (f : Fld) (b : Bool) (i : Nat) (j : Nat) : (s.setFlag f b i).core j = s.core j := rfl
@[simp] theorem State.win_setFlag (s : State) (f : Fld) (b : Bool) (i : Nat) (j : Nat) : (s.setFlag f b i).win j = s.win j := rfl
@[simp] theorem State.srv_setFlag (s : State) (f : Fld) (b : Bool) (i : Nat) (j : Nat) : (s.setFlag f b i).srv j = s.srv j := rfl

@[simp] theorem State.count_vfields (s : State) (f : Fld) (n i : Nat) : (s.count f n i).vfields = s.vfields := rfl
@[simp] theorem State.count_now (s : State) (f : Fld) (n i : Nat) : (s.count f n i).now = s.now := rfl
@[simp] theorem State.count_cyc (s : State) (f : Fld) (n i : Nat) : (s.count f n i).cyc = s.cyc := rfl
@[simp] theorem State.count_free (s : State) (f : Fld) (n i : Nat) : (s.count f n i).free = s.free := rfl
@[simp] theorem State.count_hamper (s : State) (f : Fld) (n i : Nat) : (s.count f n i).hamper = s.hamper := rfl
@[simp] theorem State.count_dram (s : State) (f : Fld) (n i : Nat) : (s.count f n i).dram = s.dram := rfl
@[simp] theorem State.count_arrays (s : State) (f : Fld) (n i : Nat) : (s.count f n i).arrays = s.arrays := rfl
@[simp] theorem State.count_cores (s : State) (f : Fld) (n i : Nat) : (s.count f n i).cores = s.cores := rfl
@[simp] theorem State.count_frame (s : State) (f : Fld) (n i : Nat) : (s.count f n i).frame = s.frame := rfl
@[simp] theorem State.count_irq (s : State) (f : Fld) (n i : Nat) : (s.count f n i).irq = s.irq := rfl
@[simp] theorem State.count_net (s : State) (f : Fld) (n i : Nat) : (s.count f n i).net = s.net := rfl
@[simp] theorem State.count_link (s : State) (f : Fld) (n i : Nat) : (s.count f n i).link = s.link := rfl
@[simp] theorem State.count_mgr (s : State) (f : Fld) (n i : Nat) : (s.count f n i).mgr = s.mgr := rfl
@[simp] theorem State.count_fab (s : State) (f : Fld) (n i : Nat) : (s.count f n i).fab = s.fab := rfl
@[simp] theorem State.count_sec (s : State) (f : Fld) (n i : Nat) : (s.count f n i).sec = s.sec := rfl
@[simp] theorem State.count_hist (s : State) (f : Fld) (n i : Nat) : (s.count f n i).hist = s.hist := rfl
@[simp] theorem State.count_wgt (s : State) (f : Fld) (n i : Nat) : (s.count f n i).wgt = s.wgt := rfl
@[simp] theorem State.count_host (s : State) (f : Fld) (n i : Nat) : (s.count f n i).host = s.host := rfl
@[simp] theorem State.count_met (s : State) (f : Fld) (n i : Nat) : (s.count f n i).met = s.met := rfl
@[simp] theorem State.count_pwr (s : State) (f : Fld) (n i : Nat) : (s.count f n i).pwr = s.pwr := rfl
@[simp] theorem State.count_smb (s : State) (f : Fld) (n i : Nat) : (s.count f n i).smb = s.smb := rfl
@[simp] theorem State.count_serve (s : State) (f : Fld) (n i : Nat) : (s.count f n i).serve = s.serve := rfl
@[simp] theorem State.count_readout (s : State) (f : Fld) (n i : Nat) : (s.count f n i).readout = s.readout := rfl
@[simp] theorem State.count_pending (s : State) (f : Fld) (n i : Nat) : (s.count f n i).pending = s.pending := rfl
@[simp] theorem State.vfld_count (s : State) (f : Fld) (n i : Nat) (f1 : Fld) (j : Nat) : (s.count f n i).vfld f1 j = s.vfld f1 j := rfl
@[simp] theorem State.arr_count (s : State) (f : Fld) (n i : Nat) (j : Nat) : (s.count f n i).arr j = s.arr j := rfl
@[simp] theorem State.core_count (s : State) (f : Fld) (n i : Nat) (j : Nat) : (s.count f n i).core j = s.core j := rfl
@[simp] theorem State.win_count (s : State) (f : Fld) (n i : Nat) (j : Nat) : (s.count f n i).win j = s.win j := rfl
@[simp] theorem State.srv_count (s : State) (f : Fld) (n i : Nat) (j : Nat) : (s.count f n i).srv j = s.srv j := rfl

@[simp] theorem State.setVfld_fields (s : State) (f : Fld) (v i : Nat) : (s.setVfld f v i).fields = s.fields := rfl
@[simp] theorem State.setVfld_now (s : State) (f : Fld) (v i : Nat) : (s.setVfld f v i).now = s.now := rfl
@[simp] theorem State.setVfld_cyc (s : State) (f : Fld) (v i : Nat) : (s.setVfld f v i).cyc = s.cyc := rfl
@[simp] theorem State.setVfld_free (s : State) (f : Fld) (v i : Nat) : (s.setVfld f v i).free = s.free := rfl
@[simp] theorem State.setVfld_hamper (s : State) (f : Fld) (v i : Nat) : (s.setVfld f v i).hamper = s.hamper := rfl
@[simp] theorem State.setVfld_dram (s : State) (f : Fld) (v i : Nat) : (s.setVfld f v i).dram = s.dram := rfl
@[simp] theorem State.setVfld_arrays (s : State) (f : Fld) (v i : Nat) : (s.setVfld f v i).arrays = s.arrays := rfl
@[simp] theorem State.setVfld_cores (s : State) (f : Fld) (v i : Nat) : (s.setVfld f v i).cores = s.cores := rfl
@[simp] theorem State.setVfld_frame (s : State) (f : Fld) (v i : Nat) : (s.setVfld f v i).frame = s.frame := rfl
@[simp] theorem State.setVfld_irq (s : State) (f : Fld) (v i : Nat) : (s.setVfld f v i).irq = s.irq := rfl
@[simp] theorem State.setVfld_net (s : State) (f : Fld) (v i : Nat) : (s.setVfld f v i).net = s.net := rfl
@[simp] theorem State.setVfld_link (s : State) (f : Fld) (v i : Nat) : (s.setVfld f v i).link = s.link := rfl
@[simp] theorem State.setVfld_mgr (s : State) (f : Fld) (v i : Nat) : (s.setVfld f v i).mgr = s.mgr := rfl
@[simp] theorem State.setVfld_fab (s : State) (f : Fld) (v i : Nat) : (s.setVfld f v i).fab = s.fab := rfl
@[simp] theorem State.setVfld_sec (s : State) (f : Fld) (v i : Nat) : (s.setVfld f v i).sec = s.sec := rfl
@[simp] theorem State.setVfld_hist (s : State) (f : Fld) (v i : Nat) : (s.setVfld f v i).hist = s.hist := rfl
@[simp] theorem State.setVfld_wgt (s : State) (f : Fld) (v i : Nat) : (s.setVfld f v i).wgt = s.wgt := rfl
@[simp] theorem State.setVfld_host (s : State) (f : Fld) (v i : Nat) : (s.setVfld f v i).host = s.host := rfl
@[simp] theorem State.setVfld_met (s : State) (f : Fld) (v i : Nat) : (s.setVfld f v i).met = s.met := rfl
@[simp] theorem State.setVfld_pwr (s : State) (f : Fld) (v i : Nat) : (s.setVfld f v i).pwr = s.pwr := rfl
@[simp] theorem State.setVfld_smb (s : State) (f : Fld) (v i : Nat) : (s.setVfld f v i).smb = s.smb := rfl
@[simp] theorem State.setVfld_serve (s : State) (f : Fld) (v i : Nat) : (s.setVfld f v i).serve = s.serve := rfl
@[simp] theorem State.setVfld_readout (s : State) (f : Fld) (v i : Nat) : (s.setVfld f v i).readout = s.readout := rfl
@[simp] theorem State.setVfld_pending (s : State) (f : Fld) (v i : Nat) : (s.setVfld f v i).pending = s.pending := rfl
@[simp] theorem State.fld_setVfld (s : State) (f : Fld) (v i : Nat) (f1 : Fld) (j : Nat) : (s.setVfld f v i).fld f1 j = s.fld f1 j := rfl
@[simp] theorem State.flag_setVfld (s : State) (f : Fld) (v i : Nat) (f1 : Fld) (j : Nat) : (s.setVfld f v i).flag f1 j = s.flag f1 j := rfl
@[simp] theorem State.arr_setVfld (s : State) (f : Fld) (v i : Nat) (j : Nat) : (s.setVfld f v i).arr j = s.arr j := rfl
@[simp] theorem State.core_setVfld (s : State) (f : Fld) (v i : Nat) (j : Nat) : (s.setVfld f v i).core j = s.core j := rfl
@[simp] theorem State.win_setVfld (s : State) (f : Fld) (v i : Nat) (j : Nat) : (s.setVfld f v i).win j = s.win j := rfl
@[simp] theorem State.srv_setVfld (s : State) (f : Fld) (v i : Nat) (j : Nat) : (s.setVfld f v i).srv j = s.srv j := rfl

@[simp] theorem State.setArr_fields (s : State) (a : Nat) (x : ArrSt) : (s.setArr a x).fields = s.fields := rfl
@[simp] theorem State.setArr_vfields (s : State) (a : Nat) (x : ArrSt) : (s.setArr a x).vfields = s.vfields := rfl
@[simp] theorem State.setArr_now (s : State) (a : Nat) (x : ArrSt) : (s.setArr a x).now = s.now := rfl
@[simp] theorem State.setArr_cyc (s : State) (a : Nat) (x : ArrSt) : (s.setArr a x).cyc = s.cyc := rfl
@[simp] theorem State.setArr_free (s : State) (a : Nat) (x : ArrSt) : (s.setArr a x).free = s.free := rfl
@[simp] theorem State.setArr_hamper (s : State) (a : Nat) (x : ArrSt) : (s.setArr a x).hamper = s.hamper := rfl
@[simp] theorem State.setArr_dram (s : State) (a : Nat) (x : ArrSt) : (s.setArr a x).dram = s.dram := rfl
@[simp] theorem State.setArr_cores (s : State) (a : Nat) (x : ArrSt) : (s.setArr a x).cores = s.cores := rfl
@[simp] theorem State.setArr_frame (s : State) (a : Nat) (x : ArrSt) : (s.setArr a x).frame = s.frame := rfl
@[simp] theorem State.setArr_irq (s : State) (a : Nat) (x : ArrSt) : (s.setArr a x).irq = s.irq := rfl
@[simp] theorem State.setArr_net (s : State) (a : Nat) (x : ArrSt) : (s.setArr a x).net = s.net := rfl
@[simp] theorem State.setArr_link (s : State) (a : Nat) (x : ArrSt) : (s.setArr a x).link = s.link := rfl
@[simp] theorem State.setArr_mgr (s : State) (a : Nat) (x : ArrSt) : (s.setArr a x).mgr = s.mgr := rfl
@[simp] theorem State.setArr_fab (s : State) (a : Nat) (x : ArrSt) : (s.setArr a x).fab = s.fab := rfl
@[simp] theorem State.setArr_sec (s : State) (a : Nat) (x : ArrSt) : (s.setArr a x).sec = s.sec := rfl
@[simp] theorem State.setArr_hist (s : State) (a : Nat) (x : ArrSt) : (s.setArr a x).hist = s.hist := rfl
@[simp] theorem State.setArr_wgt (s : State) (a : Nat) (x : ArrSt) : (s.setArr a x).wgt = s.wgt := rfl
@[simp] theorem State.setArr_host (s : State) (a : Nat) (x : ArrSt) : (s.setArr a x).host = s.host := rfl
@[simp] theorem State.setArr_met (s : State) (a : Nat) (x : ArrSt) : (s.setArr a x).met = s.met := rfl
@[simp] theorem State.setArr_pwr (s : State) (a : Nat) (x : ArrSt) : (s.setArr a x).pwr = s.pwr := rfl
@[simp] theorem State.setArr_smb (s : State) (a : Nat) (x : ArrSt) : (s.setArr a x).smb = s.smb := rfl
@[simp] theorem State.setArr_serve (s : State) (a : Nat) (x : ArrSt) : (s.setArr a x).serve = s.serve := rfl
@[simp] theorem State.setArr_readout (s : State) (a : Nat) (x : ArrSt) : (s.setArr a x).readout = s.readout := rfl
@[simp] theorem State.setArr_pending (s : State) (a : Nat) (x : ArrSt) : (s.setArr a x).pending = s.pending := rfl
@[simp] theorem State.fld_setArr (s : State) (a : Nat) (x : ArrSt) (f1 : Fld) (j : Nat) : (s.setArr a x).fld f1 j = s.fld f1 j := rfl
@[simp] theorem State.flag_setArr (s : State) (a : Nat) (x : ArrSt) (f1 : Fld) (j : Nat) : (s.setArr a x).flag f1 j = s.flag f1 j := rfl
@[simp] theorem State.vfld_setArr (s : State) (a : Nat) (x : ArrSt) (f1 : Fld) (j : Nat) : (s.setArr a x).vfld f1 j = s.vfld f1 j := rfl
@[simp] theorem State.core_setArr (s : State) (a : Nat) (x : ArrSt) (j : Nat) : (s.setArr a x).core j = s.core j := rfl
@[simp] theorem State.win_setArr (s : State) (a : Nat) (x : ArrSt) (j : Nat) : (s.setArr a x).win j = s.win j := rfl
@[simp] theorem State.srv_setArr (s : State) (a : Nat) (x : ArrSt) (j : Nat) : (s.setArr a x).srv j = s.srv j := rfl

@[simp] theorem State.setCore_fields (s : State) (i : Nat) (x : CoreSt) : (s.setCore i x).fields = s.fields := rfl
@[simp] theorem State.setCore_vfields (s : State) (i : Nat) (x : CoreSt) : (s.setCore i x).vfields = s.vfields := rfl
@[simp] theorem State.setCore_now (s : State) (i : Nat) (x : CoreSt) : (s.setCore i x).now = s.now := rfl
@[simp] theorem State.setCore_cyc (s : State) (i : Nat) (x : CoreSt) : (s.setCore i x).cyc = s.cyc := rfl
@[simp] theorem State.setCore_free (s : State) (i : Nat) (x : CoreSt) : (s.setCore i x).free = s.free := rfl
@[simp] theorem State.setCore_hamper (s : State) (i : Nat) (x : CoreSt) : (s.setCore i x).hamper = s.hamper := rfl
@[simp] theorem State.setCore_dram (s : State) (i : Nat) (x : CoreSt) : (s.setCore i x).dram = s.dram := rfl
@[simp] theorem State.setCore_arrays (s : State) (i : Nat) (x : CoreSt) : (s.setCore i x).arrays = s.arrays := rfl
@[simp] theorem State.setCore_frame (s : State) (i : Nat) (x : CoreSt) : (s.setCore i x).frame = s.frame := rfl
@[simp] theorem State.setCore_irq (s : State) (i : Nat) (x : CoreSt) : (s.setCore i x).irq = s.irq := rfl
@[simp] theorem State.setCore_net (s : State) (i : Nat) (x : CoreSt) : (s.setCore i x).net = s.net := rfl
@[simp] theorem State.setCore_link (s : State) (i : Nat) (x : CoreSt) : (s.setCore i x).link = s.link := rfl
@[simp] theorem State.setCore_mgr (s : State) (i : Nat) (x : CoreSt) : (s.setCore i x).mgr = s.mgr := rfl
@[simp] theorem State.setCore_fab (s : State) (i : Nat) (x : CoreSt) : (s.setCore i x).fab = s.fab := rfl
@[simp] theorem State.setCore_sec (s : State) (i : Nat) (x : CoreSt) : (s.setCore i x).sec = s.sec := rfl
@[simp] theorem State.setCore_hist (s : State) (i : Nat) (x : CoreSt) : (s.setCore i x).hist = s.hist := rfl
@[simp] theorem State.setCore_wgt (s : State) (i : Nat) (x : CoreSt) : (s.setCore i x).wgt = s.wgt := rfl
@[simp] theorem State.setCore_host (s : State) (i : Nat) (x : CoreSt) : (s.setCore i x).host = s.host := rfl
@[simp] theorem State.setCore_met (s : State) (i : Nat) (x : CoreSt) : (s.setCore i x).met = s.met := rfl
@[simp] theorem State.setCore_pwr (s : State) (i : Nat) (x : CoreSt) : (s.setCore i x).pwr = s.pwr := rfl
@[simp] theorem State.setCore_smb (s : State) (i : Nat) (x : CoreSt) : (s.setCore i x).smb = s.smb := rfl
@[simp] theorem State.setCore_serve (s : State) (i : Nat) (x : CoreSt) : (s.setCore i x).serve = s.serve := rfl
@[simp] theorem State.setCore_readout (s : State) (i : Nat) (x : CoreSt) : (s.setCore i x).readout = s.readout := rfl
@[simp] theorem State.setCore_pending (s : State) (i : Nat) (x : CoreSt) : (s.setCore i x).pending = s.pending := rfl
@[simp] theorem State.fld_setCore (s : State) (i : Nat) (x : CoreSt) (f1 : Fld) (j : Nat) : (s.setCore i x).fld f1 j = s.fld f1 j := rfl
@[simp] theorem State.flag_setCore (s : State) (i : Nat) (x : CoreSt) (f1 : Fld) (j : Nat) : (s.setCore i x).flag f1 j = s.flag f1 j := rfl
@[simp] theorem State.vfld_setCore (s : State) (i : Nat) (x : CoreSt) (f1 : Fld) (j : Nat) : (s.setCore i x).vfld f1 j = s.vfld f1 j := rfl
@[simp] theorem State.arr_setCore (s : State) (i : Nat) (x : CoreSt) (j : Nat) : (s.setCore i x).arr j = s.arr j := rfl
@[simp] theorem State.win_setCore (s : State) (i : Nat) (x : CoreSt) (j : Nat) : (s.setCore i x).win j = s.win j := rfl
@[simp] theorem State.srv_setCore (s : State) (i : Nat) (x : CoreSt) (j : Nat) : (s.setCore i x).srv j = s.srv j := rfl

@[simp] theorem State.setWin_fields (s : State) (fn : Nat) (w : WinSt) : (s.setWin fn w).fields = s.fields := rfl
@[simp] theorem State.setWin_vfields (s : State) (fn : Nat) (w : WinSt) : (s.setWin fn w).vfields = s.vfields := rfl
@[simp] theorem State.setWin_now (s : State) (fn : Nat) (w : WinSt) : (s.setWin fn w).now = s.now := rfl
@[simp] theorem State.setWin_cyc (s : State) (fn : Nat) (w : WinSt) : (s.setWin fn w).cyc = s.cyc := rfl
@[simp] theorem State.setWin_free (s : State) (fn : Nat) (w : WinSt) : (s.setWin fn w).free = s.free := rfl
@[simp] theorem State.setWin_hamper (s : State) (fn : Nat) (w : WinSt) : (s.setWin fn w).hamper = s.hamper := rfl
@[simp] theorem State.setWin_dram (s : State) (fn : Nat) (w : WinSt) : (s.setWin fn w).dram = s.dram := rfl
@[simp] theorem State.setWin_arrays (s : State) (fn : Nat) (w : WinSt) : (s.setWin fn w).arrays = s.arrays := rfl
@[simp] theorem State.setWin_cores (s : State) (fn : Nat) (w : WinSt) : (s.setWin fn w).cores = s.cores := rfl
@[simp] theorem State.setWin_frame (s : State) (fn : Nat) (w : WinSt) : (s.setWin fn w).frame = s.frame := rfl
@[simp] theorem State.setWin_irq (s : State) (fn : Nat) (w : WinSt) : (s.setWin fn w).irq = s.irq := rfl
@[simp] theorem State.setWin_net (s : State) (fn : Nat) (w : WinSt) : (s.setWin fn w).net = s.net := rfl
@[simp] theorem State.setWin_link (s : State) (fn : Nat) (w : WinSt) : (s.setWin fn w).link = s.link := rfl
@[simp] theorem State.setWin_mgr (s : State) (fn : Nat) (w : WinSt) : (s.setWin fn w).mgr = s.mgr := rfl
@[simp] theorem State.setWin_fab (s : State) (fn : Nat) (w : WinSt) : (s.setWin fn w).fab = s.fab := rfl
@[simp] theorem State.setWin_sec (s : State) (fn : Nat) (w : WinSt) : (s.setWin fn w).sec = s.sec := rfl
@[simp] theorem State.setWin_hist (s : State) (fn : Nat) (w : WinSt) : (s.setWin fn w).hist = s.hist := rfl
@[simp] theorem State.setWin_wgt (s : State) (fn : Nat) (w : WinSt) : (s.setWin fn w).wgt = s.wgt := rfl
@[simp] theorem State.setWin_met (s : State) (fn : Nat) (w : WinSt) : (s.setWin fn w).met = s.met := rfl
@[simp] theorem State.setWin_pwr (s : State) (fn : Nat) (w : WinSt) : (s.setWin fn w).pwr = s.pwr := rfl
@[simp] theorem State.setWin_smb (s : State) (fn : Nat) (w : WinSt) : (s.setWin fn w).smb = s.smb := rfl
@[simp] theorem State.setWin_serve (s : State) (fn : Nat) (w : WinSt) : (s.setWin fn w).serve = s.serve := rfl
@[simp] theorem State.setWin_readout (s : State) (fn : Nat) (w : WinSt) : (s.setWin fn w).readout = s.readout := rfl
@[simp] theorem State.setWin_pending (s : State) (fn : Nat) (w : WinSt) : (s.setWin fn w).pending = s.pending := rfl
@[simp] theorem State.fld_setWin (s : State) (fn : Nat) (w : WinSt) (f1 : Fld) (j : Nat) : (s.setWin fn w).fld f1 j = s.fld f1 j := rfl
@[simp] theorem State.flag_setWin (s : State) (fn : Nat) (w : WinSt) (f1 : Fld) (j : Nat) : (s.setWin fn w).flag f1 j = s.flag f1 j := rfl
@[simp] theorem State.vfld_setWin (s : State) (fn : Nat) (w : WinSt) (f1 : Fld) (j : Nat) : (s.setWin fn w).vfld f1 j = s.vfld f1 j := rfl
@[simp] theorem State.arr_setWin (s : State) (fn : Nat) (w : WinSt) (j : Nat) : (s.setWin fn w).arr j = s.arr j := rfl
@[simp] theorem State.core_setWin (s : State) (fn : Nat) (w : WinSt) (j : Nat) : (s.setWin fn w).core j = s.core j := rfl
@[simp] theorem State.srv_setWin (s : State) (fn : Nat) (w : WinSt) (j : Nat) : (s.setWin fn w).srv j = s.srv j := rfl

@[simp] theorem State.setSrv_fields (s : State) (p : Nat) (x : ServeSt) : (s.setSrv p x).fields = s.fields := rfl
@[simp] theorem State.setSrv_vfields (s : State) (p : Nat) (x : ServeSt) : (s.setSrv p x).vfields = s.vfields := rfl
@[simp] theorem State.setSrv_now (s : State) (p : Nat) (x : ServeSt) : (s.setSrv p x).now = s.now := rfl
@[simp] theorem State.setSrv_cyc (s : State) (p : Nat) (x : ServeSt) : (s.setSrv p x).cyc = s.cyc := rfl
@[simp] theorem State.setSrv_free (s : State) (p : Nat) (x : ServeSt) : (s.setSrv p x).free = s.free := rfl
@[simp] theorem State.setSrv_hamper (s : State) (p : Nat) (x : ServeSt) : (s.setSrv p x).hamper = s.hamper := rfl
@[simp] theorem State.setSrv_dram (s : State) (p : Nat) (x : ServeSt) : (s.setSrv p x).dram = s.dram := rfl
@[simp] theorem State.setSrv_arrays (s : State) (p : Nat) (x : ServeSt) : (s.setSrv p x).arrays = s.arrays := rfl
@[simp] theorem State.setSrv_cores (s : State) (p : Nat) (x : ServeSt) : (s.setSrv p x).cores = s.cores := rfl
@[simp] theorem State.setSrv_frame (s : State) (p : Nat) (x : ServeSt) : (s.setSrv p x).frame = s.frame := rfl
@[simp] theorem State.setSrv_irq (s : State) (p : Nat) (x : ServeSt) : (s.setSrv p x).irq = s.irq := rfl
@[simp] theorem State.setSrv_net (s : State) (p : Nat) (x : ServeSt) : (s.setSrv p x).net = s.net := rfl
@[simp] theorem State.setSrv_link (s : State) (p : Nat) (x : ServeSt) : (s.setSrv p x).link = s.link := rfl
@[simp] theorem State.setSrv_mgr (s : State) (p : Nat) (x : ServeSt) : (s.setSrv p x).mgr = s.mgr := rfl
@[simp] theorem State.setSrv_fab (s : State) (p : Nat) (x : ServeSt) : (s.setSrv p x).fab = s.fab := rfl
@[simp] theorem State.setSrv_sec (s : State) (p : Nat) (x : ServeSt) : (s.setSrv p x).sec = s.sec := rfl
@[simp] theorem State.setSrv_hist (s : State) (p : Nat) (x : ServeSt) : (s.setSrv p x).hist = s.hist := rfl
@[simp] theorem State.setSrv_wgt (s : State) (p : Nat) (x : ServeSt) : (s.setSrv p x).wgt = s.wgt := rfl
@[simp] theorem State.setSrv_host (s : State) (p : Nat) (x : ServeSt) : (s.setSrv p x).host = s.host := rfl
@[simp] theorem State.setSrv_met (s : State) (p : Nat) (x : ServeSt) : (s.setSrv p x).met = s.met := rfl
@[simp] theorem State.setSrv_pwr (s : State) (p : Nat) (x : ServeSt) : (s.setSrv p x).pwr = s.pwr := rfl
@[simp] theorem State.setSrv_smb (s : State) (p : Nat) (x : ServeSt) : (s.setSrv p x).smb = s.smb := rfl
@[simp] theorem State.setSrv_readout (s : State) (p : Nat) (x : ServeSt) : (s.setSrv p x).readout = s.readout := rfl
@[simp] theorem State.setSrv_pending (s : State) (p : Nat) (x : ServeSt) : (s.setSrv p x).pending = s.pending := rfl
@[simp] theorem State.fld_setSrv (s : State) (p : Nat) (x : ServeSt) (f1 : Fld) (j : Nat) : (s.setSrv p x).fld f1 j = s.fld f1 j := rfl
@[simp] theorem State.flag_setSrv (s : State) (p : Nat) (x : ServeSt) (f1 : Fld) (j : Nat) : (s.setSrv p x).flag f1 j = s.flag f1 j := rfl
@[simp] theorem State.vfld_setSrv (s : State) (p : Nat) (x : ServeSt) (f1 : Fld) (j : Nat) : (s.setSrv p x).vfld f1 j = s.vfld f1 j := rfl
@[simp] theorem State.arr_setSrv (s : State) (p : Nat) (x : ServeSt) (j : Nat) : (s.setSrv p x).arr j = s.arr j := rfl
@[simp] theorem State.core_setSrv (s : State) (p : Nat) (x : ServeSt) (j : Nat) : (s.setSrv p x).core j = s.core j := rfl
@[simp] theorem State.win_setSrv (s : State) (p : Nat) (x : ServeSt) (j : Nat) : (s.setSrv p x).win j = s.win j := rfl

@[simp] theorem State.onSrv_fields (s : State) (p : Nat) (g : ServeSt → ServeSt) : (s.onSrv p g).fields = s.fields := rfl
@[simp] theorem State.onSrv_vfields (s : State) (p : Nat) (g : ServeSt → ServeSt) : (s.onSrv p g).vfields = s.vfields := rfl
@[simp] theorem State.onSrv_now (s : State) (p : Nat) (g : ServeSt → ServeSt) : (s.onSrv p g).now = s.now := rfl
@[simp] theorem State.onSrv_cyc (s : State) (p : Nat) (g : ServeSt → ServeSt) : (s.onSrv p g).cyc = s.cyc := rfl
@[simp] theorem State.onSrv_free (s : State) (p : Nat) (g : ServeSt → ServeSt) : (s.onSrv p g).free = s.free := rfl
@[simp] theorem State.onSrv_hamper (s : State) (p : Nat) (g : ServeSt → ServeSt) : (s.onSrv p g).hamper = s.hamper := rfl
@[simp] theorem State.onSrv_dram (s : State) (p : Nat) (g : ServeSt → ServeSt) : (s.onSrv p g).dram = s.dram := rfl
@[simp] theorem State.onSrv_arrays (s : State) (p : Nat) (g : ServeSt → ServeSt) : (s.onSrv p g).arrays = s.arrays := rfl
@[simp] theorem State.onSrv_cores (s : State) (p : Nat) (g : ServeSt → ServeSt) : (s.onSrv p g).cores = s.cores := rfl
@[simp] theorem State.onSrv_frame (s : State) (p : Nat) (g : ServeSt → ServeSt) : (s.onSrv p g).frame = s.frame := rfl
@[simp] theorem State.onSrv_irq (s : State) (p : Nat) (g : ServeSt → ServeSt) : (s.onSrv p g).irq = s.irq := rfl
@[simp] theorem State.onSrv_net (s : State) (p : Nat) (g : ServeSt → ServeSt) : (s.onSrv p g).net = s.net := rfl
@[simp] theorem State.onSrv_link (s : State) (p : Nat) (g : ServeSt → ServeSt) : (s.onSrv p g).link = s.link := rfl
@[simp] theorem State.onSrv_mgr (s : State) (p : Nat) (g : ServeSt → ServeSt) : (s.onSrv p g).mgr = s.mgr := rfl
@[simp] theorem State.onSrv_fab (s : State) (p : Nat) (g : ServeSt → ServeSt) : (s.onSrv p g).fab = s.fab := rfl
@[simp] theorem State.onSrv_sec (s : State) (p : Nat) (g : ServeSt → ServeSt) : (s.onSrv p g).sec = s.sec := rfl
@[simp] theorem State.onSrv_hist (s : State) (p : Nat) (g : ServeSt → ServeSt) : (s.onSrv p g).hist = s.hist := rfl
@[simp] theorem State.onSrv_wgt (s : State) (p : Nat) (g : ServeSt → ServeSt) : (s.onSrv p g).wgt = s.wgt := rfl
@[simp] theorem State.onSrv_host (s : State) (p : Nat) (g : ServeSt → ServeSt) : (s.onSrv p g).host = s.host := rfl
@[simp] theorem State.onSrv_met (s : State) (p : Nat) (g : ServeSt → ServeSt) : (s.onSrv p g).met = s.met := rfl
@[simp] theorem State.onSrv_pwr (s : State) (p : Nat) (g : ServeSt → ServeSt) : (s.onSrv p g).pwr = s.pwr := rfl
@[simp] theorem State.onSrv_smb (s : State) (p : Nat) (g : ServeSt → ServeSt) : (s.onSrv p g).smb = s.smb := rfl
@[simp] theorem State.onSrv_readout (s : State) (p : Nat) (g : ServeSt → ServeSt) : (s.onSrv p g).readout = s.readout := rfl
@[simp] theorem State.onSrv_pending (s : State) (p : Nat) (g : ServeSt → ServeSt) : (s.onSrv p g).pending = s.pending := rfl
@[simp] theorem State.fld_onSrv (s : State) (p : Nat) (g : ServeSt → ServeSt) (f1 : Fld) (j : Nat) : (s.onSrv p g).fld f1 j = s.fld f1 j := rfl
@[simp] theorem State.flag_onSrv (s : State) (p : Nat) (g : ServeSt → ServeSt) (f1 : Fld) (j : Nat) : (s.onSrv p g).flag f1 j = s.flag f1 j := rfl
@[simp] theorem State.vfld_onSrv (s : State) (p : Nat) (g : ServeSt → ServeSt) (f1 : Fld) (j : Nat) : (s.onSrv p g).vfld f1 j = s.vfld f1 j := rfl
@[simp] theorem State.arr_onSrv (s : State) (p : Nat) (g : ServeSt → ServeSt) (j : Nat) : (s.onSrv p g).arr j = s.arr j := rfl
@[simp] theorem State.core_onSrv (s : State) (p : Nat) (g : ServeSt → ServeSt) (j : Nat) : (s.onSrv p g).core j = s.core j := rfl
@[simp] theorem State.win_onSrv (s : State) (p : Nat) (g : ServeSt → ServeSt) (j : Nat) : (s.onSrv p g).win j = s.win j := rfl

@[simp] theorem State.onHost_fields (s : State) (g : HostSt → HostSt) : (s.onHost g).fields = s.fields := rfl
@[simp] theorem State.onHost_vfields (s : State) (g : HostSt → HostSt) : (s.onHost g).vfields = s.vfields := rfl
@[simp] theorem State.onHost_now (s : State) (g : HostSt → HostSt) : (s.onHost g).now = s.now := rfl
@[simp] theorem State.onHost_cyc (s : State) (g : HostSt → HostSt) : (s.onHost g).cyc = s.cyc := rfl
@[simp] theorem State.onHost_free (s : State) (g : HostSt → HostSt) : (s.onHost g).free = s.free := rfl
@[simp] theorem State.onHost_hamper (s : State) (g : HostSt → HostSt) : (s.onHost g).hamper = s.hamper := rfl
@[simp] theorem State.onHost_dram (s : State) (g : HostSt → HostSt) : (s.onHost g).dram = s.dram := rfl
@[simp] theorem State.onHost_arrays (s : State) (g : HostSt → HostSt) : (s.onHost g).arrays = s.arrays := rfl
@[simp] theorem State.onHost_cores (s : State) (g : HostSt → HostSt) : (s.onHost g).cores = s.cores := rfl
@[simp] theorem State.onHost_frame (s : State) (g : HostSt → HostSt) : (s.onHost g).frame = s.frame := rfl
@[simp] theorem State.onHost_irq (s : State) (g : HostSt → HostSt) : (s.onHost g).irq = s.irq := rfl
@[simp] theorem State.onHost_net (s : State) (g : HostSt → HostSt) : (s.onHost g).net = s.net := rfl
@[simp] theorem State.onHost_link (s : State) (g : HostSt → HostSt) : (s.onHost g).link = s.link := rfl
@[simp] theorem State.onHost_mgr (s : State) (g : HostSt → HostSt) : (s.onHost g).mgr = s.mgr := rfl
@[simp] theorem State.onHost_fab (s : State) (g : HostSt → HostSt) : (s.onHost g).fab = s.fab := rfl
@[simp] theorem State.onHost_sec (s : State) (g : HostSt → HostSt) : (s.onHost g).sec = s.sec := rfl
@[simp] theorem State.onHost_hist (s : State) (g : HostSt → HostSt) : (s.onHost g).hist = s.hist := rfl
@[simp] theorem State.onHost_wgt (s : State) (g : HostSt → HostSt) : (s.onHost g).wgt = s.wgt := rfl
@[simp] theorem State.onHost_met (s : State) (g : HostSt → HostSt) : (s.onHost g).met = s.met := rfl
@[simp] theorem State.onHost_pwr (s : State) (g : HostSt → HostSt) : (s.onHost g).pwr = s.pwr := rfl
@[simp] theorem State.onHost_smb (s : State) (g : HostSt → HostSt) : (s.onHost g).smb = s.smb := rfl
@[simp] theorem State.onHost_serve (s : State) (g : HostSt → HostSt) : (s.onHost g).serve = s.serve := rfl
@[simp] theorem State.onHost_readout (s : State) (g : HostSt → HostSt) : (s.onHost g).readout = s.readout := rfl
@[simp] theorem State.onHost_pending (s : State) (g : HostSt → HostSt) : (s.onHost g).pending = s.pending := rfl
@[simp] theorem State.fld_onHost (s : State) (g : HostSt → HostSt) (f1 : Fld) (j : Nat) : (s.onHost g).fld f1 j = s.fld f1 j := rfl
@[simp] theorem State.flag_onHost (s : State) (g : HostSt → HostSt) (f1 : Fld) (j : Nat) : (s.onHost g).flag f1 j = s.flag f1 j := rfl
@[simp] theorem State.vfld_onHost (s : State) (g : HostSt → HostSt) (f1 : Fld) (j : Nat) : (s.onHost g).vfld f1 j = s.vfld f1 j := rfl
@[simp] theorem State.arr_onHost (s : State) (g : HostSt → HostSt) (j : Nat) : (s.onHost g).arr j = s.arr j := rfl
@[simp] theorem State.core_onHost (s : State) (g : HostSt → HostSt) (j : Nat) : (s.onHost g).core j = s.core j := rfl
@[simp] theorem State.srv_onHost (s : State) (g : HostSt → HostSt) (j : Nat) : (s.onHost g).srv j = s.srv j := rfl

@[simp] theorem State.onFrame_fields (s : State) (g : FrameSt → FrameSt) : (s.onFrame g).fields = s.fields := rfl
@[simp] theorem State.onFrame_vfields (s : State) (g : FrameSt → FrameSt) : (s.onFrame g).vfields = s.vfields := rfl
@[simp] theorem State.onFrame_now (s : State) (g : FrameSt → FrameSt) : (s.onFrame g).now = s.now := rfl
@[simp] theorem State.onFrame_cyc (s : State) (g : FrameSt → FrameSt) : (s.onFrame g).cyc = s.cyc := rfl
@[simp] theorem State.onFrame_free (s : State) (g : FrameSt → FrameSt) : (s.onFrame g).free = s.free := rfl
@[simp] theorem State.onFrame_hamper (s : State) (g : FrameSt → FrameSt) : (s.onFrame g).hamper = s.hamper := rfl
@[simp] theorem State.onFrame_dram (s : State) (g : FrameSt → FrameSt) : (s.onFrame g).dram = s.dram := rfl
@[simp] theorem State.onFrame_arrays (s : State) (g : FrameSt → FrameSt) : (s.onFrame g).arrays = s.arrays := rfl
@[simp] theorem State.onFrame_cores (s : State) (g : FrameSt → FrameSt) : (s.onFrame g).cores = s.cores := rfl
@[simp] theorem State.onFrame_irq (s : State) (g : FrameSt → FrameSt) : (s.onFrame g).irq = s.irq := rfl
@[simp] theorem State.onFrame_net (s : State) (g : FrameSt → FrameSt) : (s.onFrame g).net = s.net := rfl
@[simp] theorem State.onFrame_link (s : State) (g : FrameSt → FrameSt) : (s.onFrame g).link = s.link := rfl
@[simp] theorem State.onFrame_mgr (s : State) (g : FrameSt → FrameSt) : (s.onFrame g).mgr = s.mgr := rfl
@[simp] theorem State.onFrame_fab (s : State) (g : FrameSt → FrameSt) : (s.onFrame g).fab = s.fab := rfl
@[simp] theorem State.onFrame_sec (s : State) (g : FrameSt → FrameSt) : (s.onFrame g).sec = s.sec := rfl
@[simp] theorem State.onFrame_hist (s : State) (g : FrameSt → FrameSt) : (s.onFrame g).hist = s.hist := rfl
@[simp] theorem State.onFrame_wgt (s : State) (g : FrameSt → FrameSt) : (s.onFrame g).wgt = s.wgt := rfl
@[simp] theorem State.onFrame_host (s : State) (g : FrameSt → FrameSt) : (s.onFrame g).host = s.host := rfl
@[simp] theorem State.onFrame_met (s : State) (g : FrameSt → FrameSt) : (s.onFrame g).met = s.met := rfl
@[simp] theorem State.onFrame_pwr (s : State) (g : FrameSt → FrameSt) : (s.onFrame g).pwr = s.pwr := rfl
@[simp] theorem State.onFrame_smb (s : State) (g : FrameSt → FrameSt) : (s.onFrame g).smb = s.smb := rfl
@[simp] theorem State.onFrame_serve (s : State) (g : FrameSt → FrameSt) : (s.onFrame g).serve = s.serve := rfl
@[simp] theorem State.onFrame_readout (s : State) (g : FrameSt → FrameSt) : (s.onFrame g).readout = s.readout := rfl
@[simp] theorem State.onFrame_pending (s : State) (g : FrameSt → FrameSt) : (s.onFrame g).pending = s.pending := rfl
@[simp] theorem State.fld_onFrame (s : State) (g : FrameSt → FrameSt) (f1 : Fld) (j : Nat) : (s.onFrame g).fld f1 j = s.fld f1 j := rfl
@[simp] theorem State.flag_onFrame (s : State) (g : FrameSt → FrameSt) (f1 : Fld) (j : Nat) : (s.onFrame g).flag f1 j = s.flag f1 j := rfl
@[simp] theorem State.vfld_onFrame (s : State) (g : FrameSt → FrameSt) (f1 : Fld) (j : Nat) : (s.onFrame g).vfld f1 j = s.vfld f1 j := rfl
@[simp] theorem State.arr_onFrame (s : State) (g : FrameSt → FrameSt) (j : Nat) : (s.onFrame g).arr j = s.arr j := rfl
@[simp] theorem State.core_onFrame (s : State) (g : FrameSt → FrameSt) (j : Nat) : (s.onFrame g).core j = s.core j := rfl
@[simp] theorem State.win_onFrame (s : State) (g : FrameSt → FrameSt) (j : Nat) : (s.onFrame g).win j = s.win j := rfl
@[simp] theorem State.srv_onFrame (s : State) (g : FrameSt → FrameSt) (j : Nat) : (s.onFrame g).srv j = s.srv j := rfl

@[simp] theorem State.onMgr_fields (s : State) (g : MgrSt → MgrSt) : (s.onMgr g).fields = s.fields := rfl
@[simp] theorem State.onMgr_vfields (s : State) (g : MgrSt → MgrSt) : (s.onMgr g).vfields = s.vfields := rfl
@[simp] theorem State.onMgr_now (s : State) (g : MgrSt → MgrSt) : (s.onMgr g).now = s.now := rfl
@[simp] theorem State.onMgr_cyc (s : State) (g : MgrSt → MgrSt) : (s.onMgr g).cyc = s.cyc := rfl
@[simp] theorem State.onMgr_free (s : State) (g : MgrSt → MgrSt) : (s.onMgr g).free = s.free := rfl
@[simp] theorem State.onMgr_hamper (s : State) (g : MgrSt → MgrSt) : (s.onMgr g).hamper = s.hamper := rfl
@[simp] theorem State.onMgr_dram (s : State) (g : MgrSt → MgrSt) : (s.onMgr g).dram = s.dram := rfl
@[simp] theorem State.onMgr_arrays (s : State) (g : MgrSt → MgrSt) : (s.onMgr g).arrays = s.arrays := rfl
@[simp] theorem State.onMgr_cores (s : State) (g : MgrSt → MgrSt) : (s.onMgr g).cores = s.cores := rfl
@[simp] theorem State.onMgr_frame (s : State) (g : MgrSt → MgrSt) : (s.onMgr g).frame = s.frame := rfl
@[simp] theorem State.onMgr_irq (s : State) (g : MgrSt → MgrSt) : (s.onMgr g).irq = s.irq := rfl
@[simp] theorem State.onMgr_net (s : State) (g : MgrSt → MgrSt) : (s.onMgr g).net = s.net := rfl
@[simp] theorem State.onMgr_link (s : State) (g : MgrSt → MgrSt) : (s.onMgr g).link = s.link := rfl
@[simp] theorem State.onMgr_fab (s : State) (g : MgrSt → MgrSt) : (s.onMgr g).fab = s.fab := rfl
@[simp] theorem State.onMgr_sec (s : State) (g : MgrSt → MgrSt) : (s.onMgr g).sec = s.sec := rfl
@[simp] theorem State.onMgr_hist (s : State) (g : MgrSt → MgrSt) : (s.onMgr g).hist = s.hist := rfl
@[simp] theorem State.onMgr_wgt (s : State) (g : MgrSt → MgrSt) : (s.onMgr g).wgt = s.wgt := rfl
@[simp] theorem State.onMgr_host (s : State) (g : MgrSt → MgrSt) : (s.onMgr g).host = s.host := rfl
@[simp] theorem State.onMgr_met (s : State) (g : MgrSt → MgrSt) : (s.onMgr g).met = s.met := rfl
@[simp] theorem State.onMgr_pwr (s : State) (g : MgrSt → MgrSt) : (s.onMgr g).pwr = s.pwr := rfl
@[simp] theorem State.onMgr_smb (s : State) (g : MgrSt → MgrSt) : (s.onMgr g).smb = s.smb := rfl
@[simp] theorem State.onMgr_serve (s : State) (g : MgrSt → MgrSt) : (s.onMgr g).serve = s.serve := rfl
@[simp] theorem State.onMgr_readout (s : State) (g : MgrSt → MgrSt) : (s.onMgr g).readout = s.readout := rfl
@[simp] theorem State.onMgr_pending (s : State) (g : MgrSt → MgrSt) : (s.onMgr g).pending = s.pending := rfl
@[simp] theorem State.fld_onMgr (s : State) (g : MgrSt → MgrSt) (f1 : Fld) (j : Nat) : (s.onMgr g).fld f1 j = s.fld f1 j := rfl
@[simp] theorem State.flag_onMgr (s : State) (g : MgrSt → MgrSt) (f1 : Fld) (j : Nat) : (s.onMgr g).flag f1 j = s.flag f1 j := rfl
@[simp] theorem State.vfld_onMgr (s : State) (g : MgrSt → MgrSt) (f1 : Fld) (j : Nat) : (s.onMgr g).vfld f1 j = s.vfld f1 j := rfl
@[simp] theorem State.arr_onMgr (s : State) (g : MgrSt → MgrSt) (j : Nat) : (s.onMgr g).arr j = s.arr j := rfl
@[simp] theorem State.core_onMgr (s : State) (g : MgrSt → MgrSt) (j : Nat) : (s.onMgr g).core j = s.core j := rfl
@[simp] theorem State.win_onMgr (s : State) (g : MgrSt → MgrSt) (j : Nat) : (s.onMgr g).win j = s.win j := rfl
@[simp] theorem State.srv_onMgr (s : State) (g : MgrSt → MgrSt) (j : Nat) : (s.onMgr g).srv j = s.srv j := rfl

@[simp] theorem State.onWgt_fields (s : State) (g : WgtSt → WgtSt) : (s.onWgt g).fields = s.fields := rfl
@[simp] theorem State.onWgt_vfields (s : State) (g : WgtSt → WgtSt) : (s.onWgt g).vfields = s.vfields := rfl
@[simp] theorem State.onWgt_now (s : State) (g : WgtSt → WgtSt) : (s.onWgt g).now = s.now := rfl
@[simp] theorem State.onWgt_cyc (s : State) (g : WgtSt → WgtSt) : (s.onWgt g).cyc = s.cyc := rfl
@[simp] theorem State.onWgt_free (s : State) (g : WgtSt → WgtSt) : (s.onWgt g).free = s.free := rfl
@[simp] theorem State.onWgt_hamper (s : State) (g : WgtSt → WgtSt) : (s.onWgt g).hamper = s.hamper := rfl
@[simp] theorem State.onWgt_dram (s : State) (g : WgtSt → WgtSt) : (s.onWgt g).dram = s.dram := rfl
@[simp] theorem State.onWgt_arrays (s : State) (g : WgtSt → WgtSt) : (s.onWgt g).arrays = s.arrays := rfl
@[simp] theorem State.onWgt_cores (s : State) (g : WgtSt → WgtSt) : (s.onWgt g).cores = s.cores := rfl
@[simp] theorem State.onWgt_frame (s : State) (g : WgtSt → WgtSt) : (s.onWgt g).frame = s.frame := rfl
@[simp] theorem State.onWgt_irq (s : State) (g : WgtSt → WgtSt) : (s.onWgt g).irq = s.irq := rfl
@[simp] theorem State.onWgt_net (s : State) (g : WgtSt → WgtSt) : (s.onWgt g).net = s.net := rfl
@[simp] theorem State.onWgt_link (s : State) (g : WgtSt → WgtSt) : (s.onWgt g).link = s.link := rfl
@[simp] theorem State.onWgt_mgr (s : State) (g : WgtSt → WgtSt) : (s.onWgt g).mgr = s.mgr := rfl
@[simp] theorem State.onWgt_fab (s : State) (g : WgtSt → WgtSt) : (s.onWgt g).fab = s.fab := rfl
@[simp] theorem State.onWgt_sec (s : State) (g : WgtSt → WgtSt) : (s.onWgt g).sec = s.sec := rfl
@[simp] theorem State.onWgt_hist (s : State) (g : WgtSt → WgtSt) : (s.onWgt g).hist = s.hist := rfl
@[simp] theorem State.onWgt_host (s : State) (g : WgtSt → WgtSt) : (s.onWgt g).host = s.host := rfl
@[simp] theorem State.onWgt_met (s : State) (g : WgtSt → WgtSt) : (s.onWgt g).met = s.met := rfl
@[simp] theorem State.onWgt_pwr (s : State) (g : WgtSt → WgtSt) : (s.onWgt g).pwr = s.pwr := rfl
@[simp] theorem State.onWgt_smb (s : State) (g : WgtSt → WgtSt) : (s.onWgt g).smb = s.smb := rfl
@[simp] theorem State.onWgt_serve (s : State) (g : WgtSt → WgtSt) : (s.onWgt g).serve = s.serve := rfl
@[simp] theorem State.onWgt_readout (s : State) (g : WgtSt → WgtSt) : (s.onWgt g).readout = s.readout := rfl
@[simp] theorem State.onWgt_pending (s : State) (g : WgtSt → WgtSt) : (s.onWgt g).pending = s.pending := rfl
@[simp] theorem State.fld_onWgt (s : State) (g : WgtSt → WgtSt) (f1 : Fld) (j : Nat) : (s.onWgt g).fld f1 j = s.fld f1 j := rfl
@[simp] theorem State.flag_onWgt (s : State) (g : WgtSt → WgtSt) (f1 : Fld) (j : Nat) : (s.onWgt g).flag f1 j = s.flag f1 j := rfl
@[simp] theorem State.vfld_onWgt (s : State) (g : WgtSt → WgtSt) (f1 : Fld) (j : Nat) : (s.onWgt g).vfld f1 j = s.vfld f1 j := rfl
@[simp] theorem State.arr_onWgt (s : State) (g : WgtSt → WgtSt) (j : Nat) : (s.onWgt g).arr j = s.arr j := rfl
@[simp] theorem State.core_onWgt (s : State) (g : WgtSt → WgtSt) (j : Nat) : (s.onWgt g).core j = s.core j := rfl
@[simp] theorem State.win_onWgt (s : State) (g : WgtSt → WgtSt) (j : Nat) : (s.onWgt g).win j = s.win j := rfl
@[simp] theorem State.srv_onWgt (s : State) (g : WgtSt → WgtSt) (j : Nat) : (s.onWgt g).srv j = s.srv j := rfl

@[simp] theorem State.onMet_fields (s : State) (g : MetSt → MetSt) : (s.onMet g).fields = s.fields := rfl
@[simp] theorem State.onMet_vfields (s : State) (g : MetSt → MetSt) : (s.onMet g).vfields = s.vfields := rfl
@[simp] theorem State.onMet_now (s : State) (g : MetSt → MetSt) : (s.onMet g).now = s.now := rfl
@[simp] theorem State.onMet_cyc (s : State) (g : MetSt → MetSt) : (s.onMet g).cyc = s.cyc := rfl
@[simp] theorem State.onMet_free (s : State) (g : MetSt → MetSt) : (s.onMet g).free = s.free := rfl
@[simp] theorem State.onMet_hamper (s : State) (g : MetSt → MetSt) : (s.onMet g).hamper = s.hamper := rfl
@[simp] theorem State.onMet_dram (s : State) (g : MetSt → MetSt) : (s.onMet g).dram = s.dram := rfl
@[simp] theorem State.onMet_arrays (s : State) (g : MetSt → MetSt) : (s.onMet g).arrays = s.arrays := rfl
@[simp] theorem State.onMet_cores (s : State) (g : MetSt → MetSt) : (s.onMet g).cores = s.cores := rfl
@[simp] theorem State.onMet_frame (s : State) (g : MetSt → MetSt) : (s.onMet g).frame = s.frame := rfl
@[simp] theorem State.onMet_irq (s : State) (g : MetSt → MetSt) : (s.onMet g).irq = s.irq := rfl
@[simp] theorem State.onMet_net (s : State) (g : MetSt → MetSt) : (s.onMet g).net = s.net := rfl
@[simp] theorem State.onMet_link (s : State) (g : MetSt → MetSt) : (s.onMet g).link = s.link := rfl
@[simp] theorem State.onMet_mgr (s : State) (g : MetSt → MetSt) : (s.onMet g).mgr = s.mgr := rfl
@[simp] theorem State.onMet_fab (s : State) (g : MetSt → MetSt) : (s.onMet g).fab = s.fab := rfl
@[simp] theorem State.onMet_sec (s : State) (g : MetSt → MetSt) : (s.onMet g).sec = s.sec := rfl
@[simp] theorem State.onMet_hist (s : State) (g : MetSt → MetSt) : (s.onMet g).hist = s.hist := rfl
@[simp] theorem State.onMet_wgt (s : State) (g : MetSt → MetSt) : (s.onMet g).wgt = s.wgt := rfl
@[simp] theorem State.onMet_host (s : State) (g : MetSt → MetSt) : (s.onMet g).host = s.host := rfl
@[simp] theorem State.onMet_pwr (s : State) (g : MetSt → MetSt) : (s.onMet g).pwr = s.pwr := rfl
@[simp] theorem State.onMet_smb (s : State) (g : MetSt → MetSt) : (s.onMet g).smb = s.smb := rfl
@[simp] theorem State.onMet_serve (s : State) (g : MetSt → MetSt) : (s.onMet g).serve = s.serve := rfl
@[simp] theorem State.onMet_readout (s : State) (g : MetSt → MetSt) : (s.onMet g).readout = s.readout := rfl
@[simp] theorem State.onMet_pending (s : State) (g : MetSt → MetSt) : (s.onMet g).pending = s.pending := rfl
@[simp] theorem State.fld_onMet (s : State) (g : MetSt → MetSt) (f1 : Fld) (j : Nat) : (s.onMet g).fld f1 j = s.fld f1 j := rfl
@[simp] theorem State.flag_onMet (s : State) (g : MetSt → MetSt) (f1 : Fld) (j : Nat) : (s.onMet g).flag f1 j = s.flag f1 j := rfl
@[simp] theorem State.vfld_onMet (s : State) (g : MetSt → MetSt) (f1 : Fld) (j : Nat) : (s.onMet g).vfld f1 j = s.vfld f1 j := rfl
@[simp] theorem State.arr_onMet (s : State) (g : MetSt → MetSt) (j : Nat) : (s.onMet g).arr j = s.arr j := rfl
@[simp] theorem State.core_onMet (s : State) (g : MetSt → MetSt) (j : Nat) : (s.onMet g).core j = s.core j := rfl
@[simp] theorem State.win_onMet (s : State) (g : MetSt → MetSt) (j : Nat) : (s.onMet g).win j = s.win j := rfl
@[simp] theorem State.srv_onMet (s : State) (g : MetSt → MetSt) (j : Nat) : (s.onMet g).srv j = s.srv j := rfl

@[simp] theorem State.onPwr_fields (s : State) (g : PwrSt → PwrSt) : (s.onPwr g).fields = s.fields := rfl
@[simp] theorem State.onPwr_vfields (s : State) (g : PwrSt → PwrSt) : (s.onPwr g).vfields = s.vfields := rfl
@[simp] theorem State.onPwr_now (s : State) (g : PwrSt → PwrSt) : (s.onPwr g).now = s.now := rfl
@[simp] theorem State.onPwr_cyc (s : State) (g : PwrSt → PwrSt) : (s.onPwr g).cyc = s.cyc := rfl
@[simp] theorem State.onPwr_free (s : State) (g : PwrSt → PwrSt) : (s.onPwr g).free = s.free := rfl
@[simp] theorem State.onPwr_hamper (s : State) (g : PwrSt → PwrSt) : (s.onPwr g).hamper = s.hamper := rfl
@[simp] theorem State.onPwr_dram (s : State) (g : PwrSt → PwrSt) : (s.onPwr g).dram = s.dram := rfl
@[simp] theorem State.onPwr_arrays (s : State) (g : PwrSt → PwrSt) : (s.onPwr g).arrays = s.arrays := rfl
@[simp] theorem State.onPwr_cores (s : State) (g : PwrSt → PwrSt) : (s.onPwr g).cores = s.cores := rfl
@[simp] theorem State.onPwr_frame (s : State) (g : PwrSt → PwrSt) : (s.onPwr g).frame = s.frame := rfl
@[simp] theorem State.onPwr_irq (s : State) (g : PwrSt → PwrSt) : (s.onPwr g).irq = s.irq := rfl
@[simp] theorem State.onPwr_net (s : State) (g : PwrSt → PwrSt) : (s.onPwr g).net = s.net := rfl
@[simp] theorem State.onPwr_link (s : State) (g : PwrSt → PwrSt) : (s.onPwr g).link = s.link := rfl
@[simp] theorem State.onPwr_mgr (s : State) (g : PwrSt → PwrSt) : (s.onPwr g).mgr = s.mgr := rfl
@[simp] theorem State.onPwr_fab (s : State) (g : PwrSt → PwrSt) : (s.onPwr g).fab = s.fab := rfl
@[simp] theorem State.onPwr_sec (s : State) (g : PwrSt → PwrSt) : (s.onPwr g).sec = s.sec := rfl
@[simp] theorem State.onPwr_hist (s : State) (g : PwrSt → PwrSt) : (s.onPwr g).hist = s.hist := rfl
@[simp] theorem State.onPwr_wgt (s : State) (g : PwrSt → PwrSt) : (s.onPwr g).wgt = s.wgt := rfl
@[simp] theorem State.onPwr_host (s : State) (g : PwrSt → PwrSt) : (s.onPwr g).host = s.host := rfl
@[simp] theorem State.onPwr_met (s : State) (g : PwrSt → PwrSt) : (s.onPwr g).met = s.met := rfl
@[simp] theorem State.onPwr_smb (s : State) (g : PwrSt → PwrSt) : (s.onPwr g).smb = s.smb := rfl
@[simp] theorem State.onPwr_serve (s : State) (g : PwrSt → PwrSt) : (s.onPwr g).serve = s.serve := rfl
@[simp] theorem State.onPwr_readout (s : State) (g : PwrSt → PwrSt) : (s.onPwr g).readout = s.readout := rfl
@[simp] theorem State.onPwr_pending (s : State) (g : PwrSt → PwrSt) : (s.onPwr g).pending = s.pending := rfl
@[simp] theorem State.fld_onPwr (s : State) (g : PwrSt → PwrSt) (f1 : Fld) (j : Nat) : (s.onPwr g).fld f1 j = s.fld f1 j := rfl
@[simp] theorem State.flag_onPwr (s : State) (g : PwrSt → PwrSt) (f1 : Fld) (j : Nat) : (s.onPwr g).flag f1 j = s.flag f1 j := rfl
@[simp] theorem State.vfld_onPwr (s : State) (g : PwrSt → PwrSt) (f1 : Fld) (j : Nat) : (s.onPwr g).vfld f1 j = s.vfld f1 j := rfl
@[simp] theorem State.arr_onPwr (s : State) (g : PwrSt → PwrSt) (j : Nat) : (s.onPwr g).arr j = s.arr j := rfl
@[simp] theorem State.core_onPwr (s : State) (g : PwrSt → PwrSt) (j : Nat) : (s.onPwr g).core j = s.core j := rfl
@[simp] theorem State.win_onPwr (s : State) (g : PwrSt → PwrSt) (j : Nat) : (s.onPwr g).win j = s.win j := rfl
@[simp] theorem State.srv_onPwr (s : State) (g : PwrSt → PwrSt) (j : Nat) : (s.onPwr g).srv j = s.srv j := rfl

@[simp] theorem State.onSec_fields (s : State) (g : SecSt → SecSt) : (s.onSec g).fields = s.fields := rfl
@[simp] theorem State.onSec_vfields (s : State) (g : SecSt → SecSt) : (s.onSec g).vfields = s.vfields := rfl
@[simp] theorem State.onSec_now (s : State) (g : SecSt → SecSt) : (s.onSec g).now = s.now := rfl
@[simp] theorem State.onSec_cyc (s : State) (g : SecSt → SecSt) : (s.onSec g).cyc = s.cyc := rfl
@[simp] theorem State.onSec_free (s : State) (g : SecSt → SecSt) : (s.onSec g).free = s.free := rfl
@[simp] theorem State.onSec_hamper (s : State) (g : SecSt → SecSt) : (s.onSec g).hamper = s.hamper := rfl
@[simp] theorem State.onSec_dram (s : State) (g : SecSt → SecSt) : (s.onSec g).dram = s.dram := rfl
@[simp] theorem State.onSec_arrays (s : State) (g : SecSt → SecSt) : (s.onSec g).arrays = s.arrays := rfl
@[simp] theorem State.onSec_cores (s : State) (g : SecSt → SecSt) : (s.onSec g).cores = s.cores := rfl
@[simp] theorem State.onSec_frame (s : State) (g : SecSt → SecSt) : (s.onSec g).frame = s.frame := rfl
@[simp] theorem State.onSec_irq (s : State) (g : SecSt → SecSt) : (s.onSec g).irq = s.irq := rfl
@[simp] theorem State.onSec_net (s : State) (g : SecSt → SecSt) : (s.onSec g).net = s.net := rfl
@[simp] theorem State.onSec_link (s : State) (g : SecSt → SecSt) : (s.onSec g).link = s.link := rfl
@[simp] theorem State.onSec_mgr (s : State) (g : SecSt → SecSt) : (s.onSec g).mgr = s.mgr := rfl
@[simp] theorem State.onSec_fab (s : State) (g : SecSt → SecSt) : (s.onSec g).fab = s.fab := rfl
@[simp] theorem State.onSec_hist (s : State) (g : SecSt → SecSt) : (s.onSec g).hist = s.hist := rfl
@[simp] theorem State.onSec_wgt (s : State) (g : SecSt → SecSt) : (s.onSec g).wgt = s.wgt := rfl
@[simp] theorem State.onSec_host (s : State) (g : SecSt → SecSt) : (s.onSec g).host = s.host := rfl
@[simp] theorem State.onSec_met (s : State) (g : SecSt → SecSt) : (s.onSec g).met = s.met := rfl
@[simp] theorem State.onSec_pwr (s : State) (g : SecSt → SecSt) : (s.onSec g).pwr = s.pwr := rfl
@[simp] theorem State.onSec_smb (s : State) (g : SecSt → SecSt) : (s.onSec g).smb = s.smb := rfl
@[simp] theorem State.onSec_serve (s : State) (g : SecSt → SecSt) : (s.onSec g).serve = s.serve := rfl
@[simp] theorem State.onSec_readout (s : State) (g : SecSt → SecSt) : (s.onSec g).readout = s.readout := rfl
@[simp] theorem State.onSec_pending (s : State) (g : SecSt → SecSt) : (s.onSec g).pending = s.pending := rfl
@[simp] theorem State.fld_onSec (s : State) (g : SecSt → SecSt) (f1 : Fld) (j : Nat) : (s.onSec g).fld f1 j = s.fld f1 j := rfl
@[simp] theorem State.flag_onSec (s : State) (g : SecSt → SecSt) (f1 : Fld) (j : Nat) : (s.onSec g).flag f1 j = s.flag f1 j := rfl
@[simp] theorem State.vfld_onSec (s : State) (g : SecSt → SecSt) (f1 : Fld) (j : Nat) : (s.onSec g).vfld f1 j = s.vfld f1 j := rfl
@[simp] theorem State.arr_onSec (s : State) (g : SecSt → SecSt) (j : Nat) : (s.onSec g).arr j = s.arr j := rfl
@[simp] theorem State.core_onSec (s : State) (g : SecSt → SecSt) (j : Nat) : (s.onSec g).core j = s.core j := rfl
@[simp] theorem State.win_onSec (s : State) (g : SecSt → SecSt) (j : Nat) : (s.onSec g).win j = s.win j := rfl
@[simp] theorem State.srv_onSec (s : State) (g : SecSt → SecSt) (j : Nat) : (s.onSec g).srv j = s.srv j := rfl

@[simp] theorem State.onSmb_fields (s : State) (g : SmbSt → SmbSt) : (s.onSmb g).fields = s.fields := rfl
@[simp] theorem State.onSmb_vfields (s : State) (g : SmbSt → SmbSt) : (s.onSmb g).vfields = s.vfields := rfl
@[simp] theorem State.onSmb_now (s : State) (g : SmbSt → SmbSt) : (s.onSmb g).now = s.now := rfl
@[simp] theorem State.onSmb_cyc (s : State) (g : SmbSt → SmbSt) : (s.onSmb g).cyc = s.cyc := rfl
@[simp] theorem State.onSmb_free (s : State) (g : SmbSt → SmbSt) : (s.onSmb g).free = s.free := rfl
@[simp] theorem State.onSmb_hamper (s : State) (g : SmbSt → SmbSt) : (s.onSmb g).hamper = s.hamper := rfl
@[simp] theorem State.onSmb_dram (s : State) (g : SmbSt → SmbSt) : (s.onSmb g).dram = s.dram := rfl
@[simp] theorem State.onSmb_arrays (s : State) (g : SmbSt → SmbSt) : (s.onSmb g).arrays = s.arrays := rfl
@[simp] theorem State.onSmb_cores (s : State) (g : SmbSt → SmbSt) : (s.onSmb g).cores = s.cores := rfl
@[simp] theorem State.onSmb_frame (s : State) (g : SmbSt → SmbSt) : (s.onSmb g).frame = s.frame := rfl
@[simp] theorem State.onSmb_irq (s : State) (g : SmbSt → SmbSt) : (s.onSmb g).irq = s.irq := rfl
@[simp] theorem State.onSmb_net (s : State) (g : SmbSt → SmbSt) : (s.onSmb g).net = s.net := rfl
@[simp] theorem State.onSmb_link (s : State) (g : SmbSt → SmbSt) : (s.onSmb g).link = s.link := rfl
@[simp] theorem State.onSmb_mgr (s : State) (g : SmbSt → SmbSt) : (s.onSmb g).mgr = s.mgr := rfl
@[simp] theorem State.onSmb_fab (s : State) (g : SmbSt → SmbSt) : (s.onSmb g).fab = s.fab := rfl
@[simp] theorem State.onSmb_sec (s : State) (g : SmbSt → SmbSt) : (s.onSmb g).sec = s.sec := rfl
@[simp] theorem State.onSmb_hist (s : State) (g : SmbSt → SmbSt) : (s.onSmb g).hist = s.hist := rfl
@[simp] theorem State.onSmb_wgt (s : State) (g : SmbSt → SmbSt) : (s.onSmb g).wgt = s.wgt := rfl
@[simp] theorem State.onSmb_host (s : State) (g : SmbSt → SmbSt) : (s.onSmb g).host = s.host := rfl
@[simp] theorem State.onSmb_met (s : State) (g : SmbSt → SmbSt) : (s.onSmb g).met = s.met := rfl
@[simp] theorem State.onSmb_pwr (s : State) (g : SmbSt → SmbSt) : (s.onSmb g).pwr = s.pwr := rfl
@[simp] theorem State.onSmb_serve (s : State) (g : SmbSt → SmbSt) : (s.onSmb g).serve = s.serve := rfl
@[simp] theorem State.onSmb_readout (s : State) (g : SmbSt → SmbSt) : (s.onSmb g).readout = s.readout := rfl
@[simp] theorem State.onSmb_pending (s : State) (g : SmbSt → SmbSt) : (s.onSmb g).pending = s.pending := rfl
@[simp] theorem State.fld_onSmb (s : State) (g : SmbSt → SmbSt) (f1 : Fld) (j : Nat) : (s.onSmb g).fld f1 j = s.fld f1 j := rfl
@[simp] theorem State.flag_onSmb (s : State) (g : SmbSt → SmbSt) (f1 : Fld) (j : Nat) : (s.onSmb g).flag f1 j = s.flag f1 j := rfl
@[simp] theorem State.vfld_onSmb (s : State) (g : SmbSt → SmbSt) (f1 : Fld) (j : Nat) : (s.onSmb g).vfld f1 j = s.vfld f1 j := rfl
@[simp] theorem State.arr_onSmb (s : State) (g : SmbSt → SmbSt) (j : Nat) : (s.onSmb g).arr j = s.arr j := rfl
@[simp] theorem State.core_onSmb (s : State) (g : SmbSt → SmbSt) (j : Nat) : (s.onSmb g).core j = s.core j := rfl
@[simp] theorem State.win_onSmb (s : State) (g : SmbSt → SmbSt) (j : Nat) : (s.onSmb g).win j = s.win j := rfl
@[simp] theorem State.srv_onSmb (s : State) (g : SmbSt → SmbSt) (j : Nat) : (s.onSmb g).srv j = s.srv j := rfl

@[simp] theorem State.setPort_fields (s : State) (k : Nat) (x : PortSt) : (s.setPort k x).fields = s.fields := rfl
@[simp] theorem State.setPort_vfields (s : State) (k : Nat) (x : PortSt) : (s.setPort k x).vfields = s.vfields := rfl
@[simp] theorem State.setPort_now (s : State) (k : Nat) (x : PortSt) : (s.setPort k x).now = s.now := rfl
@[simp] theorem State.setPort_cyc (s : State) (k : Nat) (x : PortSt) : (s.setPort k x).cyc = s.cyc := rfl
@[simp] theorem State.setPort_free (s : State) (k : Nat) (x : PortSt) : (s.setPort k x).free = s.free := rfl
@[simp] theorem State.setPort_hamper (s : State) (k : Nat) (x : PortSt) : (s.setPort k x).hamper = s.hamper := rfl
@[simp] theorem State.setPort_dram (s : State) (k : Nat) (x : PortSt) : (s.setPort k x).dram = s.dram := rfl
@[simp] theorem State.setPort_arrays (s : State) (k : Nat) (x : PortSt) : (s.setPort k x).arrays = s.arrays := rfl
@[simp] theorem State.setPort_cores (s : State) (k : Nat) (x : PortSt) : (s.setPort k x).cores = s.cores := rfl
@[simp] theorem State.setPort_frame (s : State) (k : Nat) (x : PortSt) : (s.setPort k x).frame = s.frame := rfl
@[simp] theorem State.setPort_irq (s : State) (k : Nat) (x : PortSt) : (s.setPort k x).irq = s.irq := rfl
@[simp] theorem State.setPort_net (s : State) (k : Nat) (x : PortSt) : (s.setPort k x).net = s.net := rfl
@[simp] theorem State.setPort_link (s : State) (k : Nat) (x : PortSt) : (s.setPort k x).link = s.link := rfl
@[simp] theorem State.setPort_mgr (s : State) (k : Nat) (x : PortSt) : (s.setPort k x).mgr = s.mgr := rfl
@[simp] theorem State.setPort_sec (s : State) (k : Nat) (x : PortSt) : (s.setPort k x).sec = s.sec := rfl
@[simp] theorem State.setPort_hist (s : State) (k : Nat) (x : PortSt) : (s.setPort k x).hist = s.hist := rfl
@[simp] theorem State.setPort_wgt (s : State) (k : Nat) (x : PortSt) : (s.setPort k x).wgt = s.wgt := rfl
@[simp] theorem State.setPort_host (s : State) (k : Nat) (x : PortSt) : (s.setPort k x).host = s.host := rfl
@[simp] theorem State.setPort_met (s : State) (k : Nat) (x : PortSt) : (s.setPort k x).met = s.met := rfl
@[simp] theorem State.setPort_pwr (s : State) (k : Nat) (x : PortSt) : (s.setPort k x).pwr = s.pwr := rfl
@[simp] theorem State.setPort_smb (s : State) (k : Nat) (x : PortSt) : (s.setPort k x).smb = s.smb := rfl
@[simp] theorem State.setPort_serve (s : State) (k : Nat) (x : PortSt) : (s.setPort k x).serve = s.serve := rfl
@[simp] theorem State.setPort_readout (s : State) (k : Nat) (x : PortSt) : (s.setPort k x).readout = s.readout := rfl
@[simp] theorem State.setPort_pending (s : State) (k : Nat) (x : PortSt) : (s.setPort k x).pending = s.pending := rfl
@[simp] theorem State.fld_setPort (s : State) (k : Nat) (x : PortSt) (f1 : Fld) (j : Nat) : (s.setPort k x).fld f1 j = s.fld f1 j := rfl
@[simp] theorem State.flag_setPort (s : State) (k : Nat) (x : PortSt) (f1 : Fld) (j : Nat) : (s.setPort k x).flag f1 j = s.flag f1 j := rfl
@[simp] theorem State.vfld_setPort (s : State) (k : Nat) (x : PortSt) (f1 : Fld) (j : Nat) : (s.setPort k x).vfld f1 j = s.vfld f1 j := rfl
@[simp] theorem State.arr_setPort (s : State) (k : Nat) (x : PortSt) (j : Nat) : (s.setPort k x).arr j = s.arr j := rfl
@[simp] theorem State.core_setPort (s : State) (k : Nat) (x : PortSt) (j : Nat) : (s.setPort k x).core j = s.core j := rfl
@[simp] theorem State.win_setPort (s : State) (k : Nat) (x : PortSt) (j : Nat) : (s.setPort k x).win j = s.win j := rfl
@[simp] theorem State.srv_setPort (s : State) (k : Nat) (x : PortSt) (j : Nat) : (s.setPort k x).srv j = s.srv j := rfl

@[simp] theorem State.withPending_fields (s : State) (cs : List Instr) : (s.withPending cs).fields = s.fields := rfl
@[simp] theorem State.withPending_vfields (s : State) (cs : List Instr) : (s.withPending cs).vfields = s.vfields := rfl
@[simp] theorem State.withPending_now (s : State) (cs : List Instr) : (s.withPending cs).now = s.now := rfl
@[simp] theorem State.withPending_cyc (s : State) (cs : List Instr) : (s.withPending cs).cyc = s.cyc := rfl
@[simp] theorem State.withPending_free (s : State) (cs : List Instr) : (s.withPending cs).free = s.free := rfl
@[simp] theorem State.withPending_hamper (s : State) (cs : List Instr) : (s.withPending cs).hamper = s.hamper := rfl
@[simp] theorem State.withPending_dram (s : State) (cs : List Instr) : (s.withPending cs).dram = s.dram := rfl
@[simp] theorem State.withPending_arrays (s : State) (cs : List Instr) : (s.withPending cs).arrays = s.arrays := rfl
@[simp] theorem State.withPending_cores (s : State) (cs : List Instr) : (s.withPending cs).cores = s.cores := rfl
@[simp] theorem State.withPending_frame (s : State) (cs : List Instr) : (s.withPending cs).frame = s.frame := rfl
@[simp] theorem State.withPending_irq (s : State) (cs : List Instr) : (s.withPending cs).irq = s.irq := rfl
@[simp] theorem State.withPending_net (s : State) (cs : List Instr) : (s.withPending cs).net = s.net := rfl
@[simp] theorem State.withPending_link (s : State) (cs : List Instr) : (s.withPending cs).link = s.link := rfl
@[simp] theorem State.withPending_mgr (s : State) (cs : List Instr) : (s.withPending cs).mgr = s.mgr := rfl
@[simp] theorem State.withPending_fab (s : State) (cs : List Instr) : (s.withPending cs).fab = s.fab := rfl
@[simp] theorem State.withPending_sec (s : State) (cs : List Instr) : (s.withPending cs).sec = s.sec := rfl
@[simp] theorem State.withPending_hist (s : State) (cs : List Instr) : (s.withPending cs).hist = s.hist := rfl
@[simp] theorem State.withPending_wgt (s : State) (cs : List Instr) : (s.withPending cs).wgt = s.wgt := rfl
@[simp] theorem State.withPending_host (s : State) (cs : List Instr) : (s.withPending cs).host = s.host := rfl
@[simp] theorem State.withPending_met (s : State) (cs : List Instr) : (s.withPending cs).met = s.met := rfl
@[simp] theorem State.withPending_pwr (s : State) (cs : List Instr) : (s.withPending cs).pwr = s.pwr := rfl
@[simp] theorem State.withPending_smb (s : State) (cs : List Instr) : (s.withPending cs).smb = s.smb := rfl
@[simp] theorem State.withPending_serve (s : State) (cs : List Instr) : (s.withPending cs).serve = s.serve := rfl
@[simp] theorem State.withPending_readout (s : State) (cs : List Instr) : (s.withPending cs).readout = s.readout := rfl
@[simp] theorem State.fld_withPending (s : State) (cs : List Instr) (f1 : Fld) (j : Nat) : (s.withPending cs).fld f1 j = s.fld f1 j := rfl
@[simp] theorem State.flag_withPending (s : State) (cs : List Instr) (f1 : Fld) (j : Nat) : (s.withPending cs).flag f1 j = s.flag f1 j := rfl
@[simp] theorem State.vfld_withPending (s : State) (cs : List Instr) (f1 : Fld) (j : Nat) : (s.withPending cs).vfld f1 j = s.vfld f1 j := rfl
@[simp] theorem State.arr_withPending (s : State) (cs : List Instr) (j : Nat) : (s.withPending cs).arr j = s.arr j := rfl
@[simp] theorem State.core_withPending (s : State) (cs : List Instr) (j : Nat) : (s.withPending cs).core j = s.core j := rfl
@[simp] theorem State.win_withPending (s : State) (cs : List Instr) (j : Nat) : (s.withPending cs).win j = s.win j := rfl
@[simp] theorem State.srv_withPending (s : State) (cs : List Instr) (j : Nat) : (s.withPending cs).srv j = s.srv j := rfl

@[simp] theorem State.onHost_host (s : State) (g : HostSt → HostSt) : (s.onHost g).host = g s.host := rfl
@[simp] theorem State.onFrame_frame (s : State) (g : FrameSt → FrameSt) : (s.onFrame g).frame = g s.frame := rfl
@[simp] theorem State.onMgr_mgr (s : State) (g : MgrSt → MgrSt) : (s.onMgr g).mgr = g s.mgr := rfl
@[simp] theorem State.onWgt_wgt (s : State) (g : WgtSt → WgtSt) : (s.onWgt g).wgt = g s.wgt := rfl
@[simp] theorem State.onMet_met (s : State) (g : MetSt → MetSt) : (s.onMet g).met = g s.met := rfl
@[simp] theorem State.onPwr_pwr (s : State) (g : PwrSt → PwrSt) : (s.onPwr g).pwr = g s.pwr := rfl
@[simp] theorem State.onSec_sec (s : State) (g : SecSt → SecSt) : (s.onSec g).sec = g s.sec := rfl
@[simp] theorem State.onSmb_smb (s : State) (g : SmbSt → SmbSt) : (s.onSmb g).smb = g s.smb := rfl

end Sys2Proof.Machine
end

