-- ==== Sys2Proof/Laws/Frame.lean ====
section
/-!
SUPPORT. How a frame is put together: what one update leaves as it was, and that updates one after another leave what each leaves.
-/

namespace Sys2Proof.Machine

variable {s t : State}

/-! Components. -/

/-- A state differs from itself in nothing. -/
theorem State.onlyIn_refl (s : State) (ps : List Part) : s.onlyIn s ps := fun p _ => by cases p <;> rfl

/-- Where one component of an update differs, the rest is as before. -/
theorem State.onlyIn_trans {u : State} {ps : List Part} (h1 : s.onlyIn t ps) (h2 : t.onlyIn u ps) : s.onlyIn u ps := by
  intro p hp
  have a := h1 p hp
  have b := h2 p hp
  cases p <;> exact Eq.trans b a

/-- A shorter list of components says more. -/
theorem State.onlyIn_mono {ps qs : List Part} (h : s.onlyIn t ps) (hs : ∀ p, p ∈ ps → p ∈ qs) : s.onlyIn t qs :=
  fun p hp => h p fun hq => hp (hs p hq)

/-- Setting a field touches the register fields alone. -/
theorem State.onlyIn_setFld {ps : List Part} {f : Fld} {v i : Nat} (h : s.onlyIn t ps) (hp : Part.fields ∈ ps) : s.onlyIn (t.setFld f v i) ps :=
  State.onlyIn_trans h fun p hq => by cases p <;> first | rfl | exact absurd hp hq

/-- Setting the vault's value of a field touches the vault's values alone. -/
theorem State.onlyIn_setVfld {ps : List Part} {f : Fld} {v i : Nat} (h : s.onlyIn t ps) (hp : Part.vfields ∈ ps) : s.onlyIn (t.setVfld f v i) ps :=
  State.onlyIn_trans h fun p hq => by cases p <;> first | rfl | exact absurd hp hq

/-- Setting an array touches the arrays alone. -/
theorem State.onlyIn_setArr {ps : List Part} {a : Nat} {x : ArrSt} (h : s.onlyIn t ps) (hp : Part.arrays ∈ ps) : s.onlyIn (t.setArr a x) ps :=
  State.onlyIn_trans h fun p hq => by cases p <;> first | rfl | exact absurd hp hq

/-- Setting a core touches the cores alone. -/
theorem State.onlyIn_setCore {ps : List Part} {i : Nat} {x : CoreSt} (h : s.onlyIn t ps) (hp : Part.cores ∈ ps) : s.onlyIn (t.setCore i x) ps :=
  State.onlyIn_trans h fun p hq => by cases p <;> first | rfl | exact absurd hp hq

/-- Setting a window touches the host part alone. -/
theorem State.onlyIn_setWin {ps : List Part} {fn : Nat} {w : WinSt} (h : s.onlyIn t ps) (hp : Part.host ∈ ps) : s.onlyIn (t.setWin fn w) ps :=
  State.onlyIn_trans h fun p hq => by cases p <;> first | rfl | exact absurd hp hq

/-- Setting a pitch's serving state touches the serving state alone. -/
theorem State.onlyIn_setSrv {ps : List Part} {p : Nat} {x : ServeSt} (h : s.onlyIn t ps) (hp : Part.serve ∈ ps) : s.onlyIn (t.setSrv p x) ps :=
  State.onlyIn_trans h fun p hq => by cases p <;> first | rfl | exact absurd hp hq

/-- Counting an event touches the register fields alone. -/
theorem State.onlyIn_count {ps : List Part} {f : Fld} {n i : Nat} (h : s.onlyIn t ps) (hp : Part.fields ∈ ps) : s.onlyIn (t.count f n i) ps :=
  State.onlyIn_setFld h hp

/-- Setting a flag touches the register fields alone. -/
theorem State.onlyIn_setFlag {ps : List Part} {f : Fld} {b : Bool} {i : Nat} (h : s.onlyIn t ps) (hp : Part.fields ∈ ps) : s.onlyIn (t.setFlag f b i) ps :=
  State.onlyIn_setFld h hp

/-- An interrupt edge touches the pending bits and the latches of a stopped controller. -/
theorem State.onlyIn_raiseHalf {ps : List Part} {h id : Nat} (h0 : s.onlyIn t ps) (hp : Part.fields ∈ ps) (hi : Part.irq ∈ ps) :
    s.onlyIn (t.raiseHalf h id) ps := by
  unfold State.raiseHalf
  dsimp only
  split
  · split
    · exact State.onlyIn_count h0 hp
    · exact State.onlyIn_trans h0 fun p hq => by cases p <;> first | rfl | exact absurd hi hq
  · split
    · exact State.onlyIn_count h0 hp
    · exact State.onlyIn_setFld h0 hp

/-! Register fields. -/

/-- The place of a field keeps its code. -/
@[simp] theorem Fld.key_mod (f : Fld) (i : Nat) : f.key i % 1024 = f.code % 1024 := by unfold Fld.key; omega

/-- A state differs from itself in no field. -/
theorem State.onlyFields_refl (s : State) (fs : List Fld) : s.onlyFields s fs := fun _ _ => rfl

/-- Fields that two updates leave, both leave. -/
theorem State.onlyFields_trans {u : State} {fs : List Fld} (h1 : s.onlyFields t fs) (h2 : t.onlyFields u fs) : s.onlyFields u fs :=
  fun k hk => (h2 k hk).trans (h1 k hk)

/-- An update that leaves the register fields as they are. -/
theorem State.onlyFields_same {u : State} {fs : List Fld} (h1 : s.onlyFields t fs) (h2 : u.fields = t.fields) : s.onlyFields u fs :=
  fun k hk => by rw [h2]; exact h1 k hk

/-- Setting a listed field leaves the others. -/
theorem State.onlyFields_setFld {fs : List Fld} {f : Fld} {v i : Nat} (h : s.onlyFields t fs) (hf : f.code % 1024 ∈ fs.map (·.code)) :
    s.onlyFields (t.setFld f v i) fs := by
  refine State.onlyFields_trans h fun k hk => ?_
  have hne : k ≠ f.key i := fun e => hk (by rw [e, Fld.key_mod]; exact hf)
  unfold State.setFld SMap.set
  split
  · exact SMap.find?_drop_ne _ hne
  · exact SMap.find?_put_ne _ _ hne

/-- Setting the vault alone leaves the register fields. -/
theorem State.onlyFields_setVfld {fs : List Fld} {f : Fld} {v i : Nat} (h : s.onlyFields t fs) : s.onlyFields (t.setVfld f v i) fs := State.onlyFields_same h rfl

/-- Setting an array leaves the register fields. -/
theorem State.onlyFields_setArr {fs : List Fld} {a : Nat} {x : ArrSt} (h : s.onlyFields t fs) : s.onlyFields (t.setArr a x) fs := State.onlyFields_same h rfl

/-- Setting a core leaves the register fields. -/
theorem State.onlyFields_setCore {fs : List Fld} {i : Nat} {x : CoreSt} (h : s.onlyFields t fs) : s.onlyFields (t.setCore i x) fs := State.onlyFields_same h rfl

/-- Setting a window leaves the register fields. -/
theorem State.onlyFields_setWin {fs : List Fld} {fn : Nat} {w : WinSt} (h : s.onlyFields t fs) : s.onlyFields (t.setWin fn w) fs := State.onlyFields_same h rfl

/-- Setting a pitch's serving state leaves the register fields. -/
theorem State.onlyFields_setSrv {fs : List Fld} {p : Nat} {x : ServeSt} (h : s.onlyFields t fs) : s.onlyFields (t.setSrv p x) fs := State.onlyFields_same h rfl

/-- Setting a listed flag leaves the others. -/
theorem State.onlyFields_setFlag {fs : List Fld} {f : Fld} {b : Bool} {i : Nat} (h : s.onlyFields t fs) (hf : f.code % 1024 ∈ fs.map (·.code)) :
    s.onlyFields (t.setFlag f b i) fs := State.onlyFields_setFld h hf

/-- Counting in a listed field leaves the others. -/
theorem State.onlyFields_count {fs : List Fld} {f : Fld} {n i : Nat} (h : s.onlyFields t fs) (hf : f.code % 1024 ∈ fs.map (·.code)) :
    s.onlyFields (t.count f n i) fs := State.onlyFields_setFld h hf

/-- An interrupt edge leaves every field but the pending bits and the count of merged edges. -/
theorem State.onlyFields_raiseHalf {fs : List Fld} {h id : Nat} (h0 : s.onlyFields t fs) (h1 : F.INTC_PEND.code % 1024 ∈ fs.map (·.code))
    (h2 : F.INTC_MERGECNT.code % 1024 ∈ fs.map (·.code)) : s.onlyFields (t.raiseHalf h id) fs := by
  unfold State.raiseHalf
  dsimp only
  split
  · split
    · exact State.onlyFields_count h0 h2
    · exact State.onlyFields_same h0 rfl
  · split
    · exact State.onlyFields_count h0 h2
    · exact State.onlyFields_setFld h0 h1

/-- A field not among the listed ones reads as before. -/
theorem State.onlyFields.fld {fs : List Fld} (h : s.onlyFields t fs) {f : Fld} (i : Nat) (hf : f.code % 1024 ∉ fs.map (·.code)) :
    t.fld f i = s.fld f i := by
  unfold State.fld SMap.get
  rw [h _ (by rw [Fld.key_mod]; exact hf)]

end Sys2Proof.Machine
end

