-- ==== Sys2Proof/Laws/Held.lean ====
section
/-!
SUPPORT. What no command touches: the queue, the model's clock, the canonical form of the tables.  `Held q n c s` says that the
state `s` has the queue `q`, the time `n`, the cycle count `c`, and canonical tables; the files Laws/Held*.lean show for every
operation that it keeps this.
-/

namespace Sys2Proof.Machine

/-- The queue, the clock, the cycle count, and canonical tables. -/
structure Held (q : List Instr) (n c : Nat) (s : State) : Prop where
  queue : s.pending = q
  clock : s.now = n
  cycles : s.cyc = c
  hamper : SMap.wf (0 : Byte) s.hamper = true
  dram : SMap.wf (0 : Byte) s.dram = true
  fields : SMap.rising 0 s.fields = true
  vfields : SMap.rising 0 s.vfields = true
  arrays : SMap.rising 0 s.arrays = true
  cores : SMap.rising 0 s.cores = true
  serve : SMap.rising 0 s.serve = true

/-- The same of an answer, where it is a next state. -/
def HeldO (q : List Instr) (n c : Nat) (o : Host.Outcome State Fault Refusal) : Prop := ∀ t, o = .next t → Held q n c t

/-- The same of a result that may be none. -/
def HeldS (q : List Instr) (n c : Nat) (o : Option State) : Prop := ∀ t, o = some t → Held q n c t

variable {q : List Instr} {n c : Nat}

/-- A state is held at its own queue, clock and cycles if its tables are canonical. -/
theorem Held.of_canonical {s : State} (h : s.canonical = true) : Held s.pending s.now s.cyc s := by
  simp only [State.canonical, Memory.wf, Bool.and_eq_true] at h
  obtain ⟨⟨⟨⟨⟨⟨h1, h2⟩, h3⟩, h4⟩, h5⟩, h6⟩, h7⟩ := h
  exact ⟨rfl, rfl, rfl, h1, h2, h3, h4, h5, h6, h7⟩

/-- A held state has canonical tables. -/
theorem Held.canonical {s : State} (h : Held q n c s) : s.canonical = true := by
  simp only [State.canonical, Memory.wf, Bool.and_eq_true]
  exact ⟨⟨⟨⟨⟨⟨h.hamper, h.dram⟩, h.fields⟩, h.vfields⟩, h.arrays⟩, h.cores⟩, h.serve⟩

/-- An update of other components keeps it. -/
theorem Held.same {s : State} (h : Held q n c s) {free frame irq net link mgr fab sec hist wgt host met pwr smb readout} :
    Held q n c ⟨s.fields, s.vfields, s.now, s.cyc, free, s.hamper, s.dram, s.arrays, s.cores, frame, irq, net, link, mgr, fab, sec,
      hist, wgt, host, met, pwr, smb, s.serve, readout, s.pending⟩ :=
  ⟨h.queue, h.clock, h.cycles, h.hamper, h.dram, h.fields, h.vfields, h.arrays, h.cores, h.serve⟩

/-- Both branches keep it. -/
theorem Held.ite {p : Prop} [Decidable p] {a b : State} (ha : Held q n c a) (hb : Held q n c b) : Held q n c (if p then a else b) := by
  split
  · exact ha
  · exact hb

/-- Every turn of a fold keeps it. -/
theorem Held.foldl {α : Type} {f : State → α → State} (hf : ∀ s a, Held q n c s → Held q n c (f s a)) :
    ∀ {l : List α} {s : State}, Held q n c s → Held q n c (l.foldl f s)
  | [], _, h => h
  | a :: l, s, h => Held.foldl (l := l) hf (hf s a h)

/-- The state of every pair of a fold, first. -/
theorem Held.foldl_fst {α β : Type} {f : State × β → α → State × β} (hf : ∀ r a, Held q n c r.1 → Held q n c (f r a).1) :
    ∀ {l : List α} {r : State × β}, Held q n c r.1 → Held q n c (l.foldl f r).1
  | [], _, h => h
  | a :: l, r, h => Held.foldl_fst (l := l) hf (hf r a h)

/-- The state of every pair of a fold, second. -/
theorem Held.foldl_snd {α β : Type} {f : β × State → α → β × State} (hf : ∀ r a, Held q n c r.2 → Held q n c (f r a).2) :
    ∀ {l : List α} {r : β × State}, Held q n c r.2 → Held q n c (l.foldl f r).2
  | [], _, h => h
  | a :: l, r, h => Held.foldl_snd (l := l) hf (hf r a h)

/-- The same of the state of a pair that may be none. -/
def HeldP {α : Type} (q : List Instr) (n c : Nat) (o : Option (α × State)) : Prop := ∀ a t, o = some (a, t) → Held q n c t

/-- The state of a pair that equals a pair whose state is held. -/
theorem Held.of_snd {α : Type} {p : α × State} {a : α} {t : State} (e : p = (a, t)) (h : Held q n c p.2) : Held q n c t := by
  subst e; exact h

/-- The state of a pair, first, that equals a pair whose state is held. -/
theorem Held.of_fst {α : Type} {p : State × α} {a : α} {t : State} (e : p = (t, a)) (h : Held q n c p.1) : Held q n c t := by
  subst e; exact h

/-- The state of an option. -/
theorem Held.of_some {o : Option State} {t : State} (e : o = some t) (h : HeldS q n c o) : Held q n c t := h t e

/-- The state of a pair that may be none. -/
theorem Held.of_pair {α : Type} {o : Option (α × State)} {a : α} {t : State} (e : o = some (a, t)) (h : HeldP q n c o) : Held q n c t := h a t e

/-- The default of an option that may be none. -/
theorem HeldS.getD {o : Option State} {s : State} (h : HeldS q n c o) (hs : Held q n c s) : Held q n c (o.getD s) := by
  cases o with
  | none => exact hs
  | some t => exact h t rfl

/-- A state made from the state of a pair. -/
theorem HeldS.map {α : Type} {o : Option α} {f : α → State} (h : ∀ a, Held q n c (f a)) : HeldS q n c (o.map f) := by
  cases o with
  | none => intro t e; cases e
  | some a => intro t e; cases e; exact h a

/-- A state made from a state that may be none. -/
theorem HeldS.mapS {o : Option State} {f : State → State} (h : HeldS q n c o) (hf : ∀ s, Held q n c s → Held q n c (f s)) : HeldS q n c (o.map f) := by
  cases o with
  | none => intro t e; cases e
  | some a => intro t e; cases e; exact hf a (h a rfl)

/-- A pair made from a value that may be none. -/
theorem HeldP.map {α β : Type} {o : Option α} {f : α → β × State} (h : ∀ a, Held q n c (f a).2) : HeldP q n c (o.map f) := by
  cases o with
  | none => intro b t e; cases e
  | some a =>
    intro b t e
    have := h a
    simp only [Option.map_some, Option.some.injEq] at e
    rw [e] at this
    exact this

/-- A command that goes on. -/
theorem HeldO.within {ok : Bool} {t : State} (h : Held q n c t) : HeldO q n c (Sys2Proof.Machine.within ok t) := by
  intro u e
  unfold Sys2Proof.Machine.within at e
  split at e
  · cases e; exact h
  · cases e

/-- An answer that is a next state. -/
theorem HeldO.next {t : State} (h : Held q n c t) : HeldO q n c (.next t) := by
  intro u e
  cases e
  exact h

/-- A stop has no next state. -/
theorem HeldO.fault {r : Fault} : HeldO q n c (.fault r) := by
  intro u e
  cases e

/-- Both branches of an answer. -/
theorem HeldO.ite {p : Prop} [Decidable p] {a b : Host.Outcome State Fault Refusal} (ha : HeldO q n c a) (hb : HeldO q n c b) :
    HeldO q n c (if p then a else b) := by
  split
  · exact ha
  · exact hb

/-- A result that is a state. -/
theorem HeldS.some {t : State} (h : Held q n c t) : HeldS q n c (some t) := by
  intro u e
  cases e
  exact h

/-- No result. -/
theorem HeldS.none : HeldS q n c none := by
  intro u e
  cases e

end Sys2Proof.Machine
end

