-- ==== Sys2Proof/Laws/HeldOps.lean ====
section
/-!
SUPPORT. That the operations of Machine/Ops.lean touch neither the queue nor the clock, and keep the tables canonical.
-/

namespace Sys2Proof.Machine

variable {q0 : List Instr} {n0 c0 : Nat}

theorem State.setFld_held {s : State} {f : Fld} {v i : Nat} (hk : Held q0 n0 c0 s) : Held q0 n0 c0 (s.setFld f v i) :=
  { hk with fields := SMap.rising_set _ _ _ hk.fields }

theorem State.setFlag_held {s : State} {f : Fld} {b : Bool} {i : Nat} (hk : Held q0 n0 c0 s) : Held q0 n0 c0 (State.setFlag s f b i) := by
  unfold State.setFlag
  with_reducible repeat' first | assumption | apply State.setFld_held

theorem State.count_held {s : State} {f : Fld} {n : Nat} {i : Nat} (hk : Held q0 n0 c0 s) : Held q0 n0 c0 (State.count s f n i) := by
  unfold State.count
  with_reducible repeat' first | assumption | apply State.setFld_held

theorem State.setVfld_held {s : State} {f : Fld} {v i : Nat} (hk : Held q0 n0 c0 s) : Held q0 n0 c0 (s.setVfld f v i) :=
  { hk with vfields := SMap.rising_set _ _ _ hk.vfields }

theorem State.draw_held {s : State} (hk : Held q0 n0 c0 s) : Held q0 n0 c0 s.draw.2 := hk.same



theorem State.setArr_held {s : State} {a : Nat} {x : ArrSt} (hk : Held q0 n0 c0 s) : Held q0 n0 c0 (s.setArr a x) :=
  { hk with arrays := SMap.rising_set _ _ _ hk.arrays }

theorem State.setCore_held {s : State} {i : Nat} {x : CoreSt} (hk : Held q0 n0 c0 s) : Held q0 n0 c0 (s.setCore i x) :=
  { hk with cores := SMap.rising_set _ _ _ hk.cores }

/-- Writing bytes keeps a memory canonical. -/
theorem Memory.wf_write : ∀ {m : Memory} {a : Nat} {bs : Bytes}, SMap.wf (0 : Byte) m = true → SMap.wf (0 : Byte) (Memory.write m a bs) = true
  | _, _, [], h => h
  | _, _, b :: bs, h => Memory.wf_write (bs := bs) (SMap.wf_set _ _ h)

/-- Clearing bytes keeps a memory canonical. -/
theorem Memory.wf_clear {m : Memory} {a n : Nat} (h : SMap.wf (0 : Byte) m = true) : SMap.wf (0 : Byte) (Memory.clear m a n) = true :=
  SMap.wf_filter _ h

/-- A fold of writes keeps a table canonical. -/
theorem SMap.wf_foldl {α β : Type} [DecidableEq α] {d : α} {f : SMap α → β → SMap α} (hf : ∀ m b, SMap.wf d m = true → SMap.wf d (f m b) = true) :
    ∀ {l : List β} {m : SMap α}, SMap.wf d m = true → SMap.wf d (l.foldl f m) = true
  | [], _, h => h
  | b :: l, m, h => SMap.wf_foldl (l := l) hf (hf m b h)

/-- A gather entry's bytes keep the memory canonical. -/
theorem bankEntry_wf {m : Memory} {site : Nat} {e : GEntry} (h : SMap.wf (0 : Byte) m = true) : SMap.wf (0 : Byte) (bankEntry m site e) = true :=
  SMap.wf_foldl (fun _ _ h => SMap.wf_set _ _ h) h

theorem State.bankWrite_held {s : State} {site a : Nat} {bs : Bytes} (hk : Held q0 n0 c0 s) : Held q0 n0 c0 (s.bankWrite site a bs) :=
  { hk with hamper := Memory.wf_write hk.hamper }

theorem State.flushGather_held {s : State} {site : Nat} {p : GEntry → Bool} (hk : Held q0 n0 c0 s) : Held q0 n0 c0 (s.flushGather site p) :=
  State.setCore_held { hk with hamper := SMap.wf_foldl (fun _ _ h => bankEntry_wf h) hk.hamper }

theorem State.cleanLines_held {s : State} {site : Nat} {ls : List Nat} (hk : Held q0 n0 c0 s) : Held q0 n0 c0 (State.cleanLines s site ls) := by
  unfold State.cleanLines
  extract_lets l0
  try clear_value l0
  with_reducible repeat' first | assumption | fail_if_no_progress refine Held.same ?_

theorem State.hamperWrite_held {s : State} {site : Nat} {a : Nat} {bs : Bytes} (hk : Held q0 n0 c0 s) : Held q0 n0 c0 (State.hamperWrite s site a bs) := by
  unfold State.hamperWrite
  extract_lets l0
  try clear_value l0
  with_reducible repeat' first
    | assumption | apply State.flushGather_held | apply State.bankWrite_held | apply State.cleanLines_held

theorem State.gatherLine_held {s : State} {site : Nat} {line : Nat} {off : Nat} {bs : Bytes} (hk : Held q0 n0 c0 s) : Held q0 n0 c0 (State.gatherLine s site line off bs) := by
  unfold State.gatherLine
  extract_lets l0 l1 l2 l3 l4 l5 l6 l7
  try clear_value l0
  try clear_value l1
  have hl2 : Held q0 n0 c0 l2 := by
    unfold l2
    with_reducible repeat' first | assumption | apply State.flushGather_held | refine Held.ite ?_ ?_ | split
  try clear_value l2
  try clear_value l3
  try clear_value l4
  try clear_value l5
  try clear_value l6
  have hl7 : Held q0 n0 c0 l7 := by
    unfold l7
    with_reducible repeat' first | assumption | apply State.setCore_held
  try clear_value l7
  with_reducible repeat' first | assumption | apply State.flushGather_held | refine Held.ite ?_ ?_

theorem State.gatherWrite_held {s : State} {site : Nat} {a : Nat} {bs : Bytes} (hk : Held q0 n0 c0 s) : Held q0 n0 c0 (State.gatherWrite s site a bs) := by
  unfold State.gatherWrite
  with_reducible repeat' first
    | assumption | apply State.setCore_held | apply State.bankWrite_held | apply State.cleanLines_held
    | apply State.gatherLine_held | refine Held.ite ?_ ?_ | refine Held.foldl (fun _ _ _ => ?_) ?_

theorem State.raiseHalf_held {s : State} {h : Nat} {id : Nat} (hk : Held q0 n0 c0 s) : Held q0 n0 c0 (State.raiseHalf s h id) := by
  unfold State.raiseHalf
  extract_lets l0 l1
  try clear_value l0
  try clear_value l1
  with_reducible repeat' first
    | assumption | apply State.count_held | apply State.setFld_held | fail_if_no_progress refine Held.same ?_
    | refine Held.ite ?_ ?_

theorem State.raiseBoth_held {s : State} {id : Nat} (hk : Held q0 n0 c0 s) : Held q0 n0 c0 (State.raiseBoth s id) := by
  unfold State.raiseBoth
  with_reducible repeat' first | assumption | apply State.raiseHalf_held

theorem State.raiseRow_held {s : State} {base : Nat} {site : Nat} (hk : Held q0 n0 c0 s) : Held q0 n0 c0 (State.raiseRow s base site) := by
  unfold State.raiseRow
  with_reducible repeat' first | assumption | apply State.raiseHalf_held

theorem State.setWin_held {s : State} {fn : Nat} {w : WinSt} (hk : Held q0 n0 c0 s) : Held q0 n0 c0 (State.setWin s fn w) := by
  unfold State.setWin
  extract_lets l0
  try clear_value l0
  with_reducible repeat' first | assumption | fail_if_no_progress refine Held.same ?_

theorem State.postTo_held {s : State} {fn : Nat} {code : Nat} {detail : List Nat} (hk : Held q0 n0 c0 s) : Held q0 n0 c0 (State.postTo s fn code detail) := by
  unfold State.postTo
  extract_lets l0 l1
  try clear_value l0
  try clear_value l1
  with_reducible repeat' first | assumption | apply State.setWin_held | refine Held.ite ?_ ?_

theorem State.post_held {s : State} {code : Nat} {detail : List Nat} (hk : Held q0 n0 c0 s) : Held q0 n0 c0 (State.post s code detail) := by
  unfold State.post
  with_reducible repeat' first | assumption | apply State.postTo_held

theorem State.respond_held {s : State} {c : Mgmt} {code : Nat} {result : Nat} {detail : Bytes} (hk : Held q0 n0 c0 s) : Held q0 n0 c0 (State.respond s c code result detail) := by
  unfold State.respond
  extract_lets l0
  try clear_value l0
  with_reducible repeat' first | assumption | apply State.setWin_held | refine Held.ite ?_ ?_

theorem State.msi_held {s : State} {fn : Nat} {vec : Nat} (hk : Held q0 n0 c0 s) : Held q0 n0 c0 (State.msi s fn vec) := by
  unfold State.msi
  extract_lets l0
  try clear_value l0
  with_reducible repeat' first | assumption | fail_if_no_progress refine Held.same ?_ | refine Held.ite ?_ ?_

theorem State.alertRaise_held {s : State} (hk : Held q0 n0 c0 s) : Held q0 n0 c0 (State.alertRaise s) := by
  unfold State.alertRaise
  extract_lets l0
  try clear_value l0
  with_reducible repeat' first | assumption | fail_if_no_progress refine Held.same ?_

theorem State.transmit_held {s : State} {m : FwMsg} (hk : Held q0 n0 c0 s) : Held q0 n0 c0 (State.transmit s m) := by
  unfold State.transmit
  extract_lets l0 l1 l2
  try clear_value l0
  try clear_value l1
  try clear_value l2
  with_reducible repeat' first | assumption | fail_if_no_progress refine Held.same ?_

theorem State.sendMsg_held {s : State} {part : Nat} {type : Nat} {fields : List Nat} {data : Bytes} (hk : Held q0 n0 c0 s) : Held q0 n0 c0 (State.sendMsg s part type fields data) := by
  unfold State.sendMsg
  extract_lets l0 l1
  try clear_value l0
  try clear_value l1
  with_reducible repeat' first
    | assumption | apply State.transmit_held | fail_if_no_progress refine Held.same ?_ | refine Held.ite ?_ ?_

theorem State.sendCtl_held {s : State} {part : Nat} {type : Nat} {frame : Nat} {fields : List Nat} (hk : Held q0 n0 c0 s) : Held q0 n0 c0 (State.sendCtl s part type frame fields) := by
  unfold State.sendCtl
  extract_lets l0
  try clear_value l0
  with_reducible repeat' first | assumption | fail_if_no_progress refine Held.same ?_ | refine Held.ite ?_ ?_

theorem State.unitError_held {s : State} {kind : Nat} {index : Nat} {cause : Nat} {n : Nat} (hk : Held q0 n0 c0 s) : Held q0 n0 c0 (State.unitError s kind index cause n) := by
  unfold State.unitError
  extract_lets l0 l1 l2 l3
  try clear_value l0
  try clear_value l1
  try clear_value l2
  try clear_value l3
  with_reducible repeat' first | assumption | fail_if_no_progress refine Held.same ?_ | refine Held.ite ?_ ?_

theorem State.countReplay_held {s : State} {k : Nat} (hk : Held q0 n0 c0 s) : Held q0 n0 c0 (State.countReplay s k) := by
  unfold State.countReplay
  extract_lets l0 l1 l2
  try clear_value l0
  try clear_value l1
  try clear_value l2
  with_reducible repeat' first | assumption | fail_if_no_progress refine Held.same ?_ | refine Held.ite ?_ ?_

end Sys2Proof.Machine
end

