-- ==== Sys2Proof/Laws/HeldArray.lean ====
section
/-!
SUPPORT. That the operations of Machine/Array.lean touch neither the queue nor the clock, and keep the tables canonical.
-/

namespace Sys2Proof.Machine

variable {q0 : List Instr} {n0 c0 : Nat}

theorem State.mirrorSide_held {s : State} {a : Nat} (hk : Held q0 n0 c0 s) : Held q0 n0 c0 (State.mirrorSide s a) := by
  unfold State.mirrorSide
  extract_lets l0 l1 l2
  try clear_value l0
  have hl1 : Held q0 n0 c0 l1 := by
    unfold l1
    with_reducible repeat' first
      | assumption | apply State.setFlag_held | apply State.setFld_held | refine Held.foldl (fun _ _ _ => ?_) ?_
  try clear_value l1
  try clear_value l2
  with_reducible repeat' first | assumption | apply State.setFlag_held | apply State.setFld_held

theorem State.cmdRefuse_held {s : State} {a : Nat} {op : Nat} {tag : Nat} {code : Nat} (hk : Held q0 n0 c0 s) : Held q0 n0 c0 (State.cmdRefuse s a op tag code) := by
  unfold State.cmdRefuse
  with_reducible repeat' first | assumption | apply State.setFld_held

theorem State.cmdFinish_held {s : State} {a : Nat} {op : Nat} {tag : Nat} {code : Nat} {overflow : Bool} (hk : Held q0 n0 c0 s) : Held q0 n0 c0 (State.cmdFinish s a op tag code overflow) := by
  unfold State.cmdFinish
  extract_lets l0 l1 l2 l3 l4
  try clear_value l0
  have hl1 : Held q0 n0 c0 l1 := by
    unfold l1
    with_reducible repeat' first | assumption | apply State.setArr_held
  try clear_value l1
  have hl2 : Held q0 n0 c0 l2 := by
    unfold l2
    with_reducible repeat' first | assumption | apply State.cmdRefuse_held | apply State.setFlag_held | apply State.setFld_held
  try clear_value l2
  try clear_value l3
  have hl4 : Held q0 n0 c0 l4 := by
    unfold l4
    with_reducible repeat' first | assumption | fail_if_no_progress refine Held.same ?_ | refine Held.ite ?_ ?_
  try clear_value l4
  with_reducible repeat' first | assumption | apply State.setFld_held | apply State.raiseRow_held

theorem State.cmdRun_held {s : State} {a : Nat} {op : Nat} {tag : Nat} (hk : Held q0 n0 c0 s) : Held q0 n0 c0 (State.cmdRun s a op tag) := by
  unfold State.cmdRun
  extract_lets l0 l1
  try clear_value l0
  try clear_value l1
  with_reducible repeat' first | assumption | apply State.setArr_held | apply State.setFld_held

theorem State.cmdAccept_held {s : State} {a : Nat} {op : Nat} {tag : Nat} (hk : Held q0 n0 c0 s) : Held q0 n0 c0 (State.cmdAccept s a op tag) := by
  unfold State.cmdAccept
  extract_lets l0
  try clear_value l0
  with_reducible repeat' first
    | assumption | apply State.cmdRun_held | apply State.setFld_held | apply State.cmdFinish_held | apply State.setVfld_held
    | refine Held.ite ?_ ?_

theorem State.arrCommand_held {s : State} {a : Nat} {op : Nat} {tag : Nat} (hk : Held q0 n0 c0 s) : Held q0 n0 c0 (State.arrCommand s a op tag) := by
  unfold State.arrCommand
  extract_lets l0
  try clear_value l0
  with_reducible repeat' first
    | assumption | apply State.cmdRefuse_held | apply State.setArr_held | apply State.cmdAccept_held | refine Held.ite ?_ ?_
    | split

theorem State.faultResult_held {s : State} {a : Nat} {c : ArrCmd} {x : ArrSt} {faults : List CellFault} (hk : Held q0 n0 c0 s) : Held q0 n0 c0 (State.faultResult s a c x faults) := by
  unfold State.faultResult
  extract_lets l0
  have hl0 : Held q0 n0 c0 l0 := by
    unfold l0
    with_reducible repeat' first | assumption | apply State.setArr_held | apply State.count_held
  try clear_value l0
  with_reducible repeat' first | assumption | apply State.cmdFinish_held

theorem State.arrCommandEnd_held {s : State} {a : Nat} {c : ArrCmd} {reads : List (Nat × Nat)} {finals : List (Nat × Nat)} {sweep : List Nat} (hk : Held q0 n0 c0 s) : Held q0 n0 c0 (State.arrCommandEnd s a c reads finals sweep) := by
  unfold State.arrCommandEnd
  extract_lets l0 l1 l2 l3 l4 l5 l6 l7 l8 l9 l10 l11 l12 l13 l14
  try clear_value l0
  try clear_value l1
  have hl2 : Held q0 n0 c0 l2 := by
    unfold l2
    with_reducible repeat' first | assumption | apply State.setArr_held
  try clear_value l2
  have hl3 : Held q0 n0 c0 l3 := by
    unfold l3
    with_reducible repeat' first | assumption | apply State.count_held
  try clear_value l3
  have hl4 : Held q0 n0 c0 l4 := by
    unfold l4
    with_reducible repeat' first | assumption | apply State.setVfld_held
  try clear_value l4
  try clear_value l5
  try clear_value l6
  try clear_value l7
  try clear_value l8
  try clear_value l9
  have hl10 : Held q0 n0 c0 l10 := by
    unfold l10
    with_reducible repeat' first | assumption | apply State.setArr_held | apply State.setFld_held
  try clear_value l10
  have hl11 : Held q0 n0 c0 l11 := by
    unfold l11
    with_reducible repeat' first | assumption | apply State.setFld_held
  try clear_value l11
  have hl12 : Held q0 n0 c0 l12 := by
    unfold l12
    with_reducible repeat' first | assumption | apply State.setFld_held
  try clear_value l12
  try clear_value l13
  have hl14 : Held q0 n0 c0 l14 := by
    unfold l14
    with_reducible repeat' first | assumption | apply State.setArr_held | apply State.setVfld_held | apply State.setFld_held
  try clear_value l14
  with_reducible repeat' first
    | assumption | apply State.setArr_held | apply State.cmdFinish_held | apply State.setFlag_held
    | apply State.faultResult_held | apply State.setFld_held | apply State.mirrorSide_held | refine Held.ite ?_ ?_

theorem State.productStart_held {s : State} {a : Nat} {buf : Nat} {k : Nat} {bank : Nat} (hk : Held q0 n0 c0 s) : Held q0 n0 c0 (State.productStart s a buf k bank) := by
  unfold State.productStart
  extract_lets l0 l1 l2 l3 l4
  try clear_value l0
  try clear_value l1
  try clear_value l2
  try clear_value l3
  have hl4 : Held q0 n0 c0 l4 := by
    unfold l4
    with_reducible repeat' first | assumption | apply State.setArr_held
  try clear_value l4
  with_reducible repeat' first | assumption | apply State.count_held | apply State.setFld_held | refine Held.ite ?_ ?_

theorem State.applyTrims_held {s : State} {a : Nat} (hk : Held q0 n0 c0 s) : Held q0 n0 c0 (State.applyTrims s a) := by
  unfold State.applyTrims
  extract_lets l0 l1 l2 l3
  try clear_value l0
  have hl1 : Held q0 n0 c0 l1 := by
    unfold l1
    with_reducible repeat' first | assumption | apply State.setFld_held | split
  try clear_value l1
  have hl2 : Held q0 n0 c0 l2 := by
    unfold l2
    with_reducible repeat' first | assumption | apply State.setFld_held | split
  try clear_value l2
  try clear_value l3
  with_reducible repeat' first | assumption | apply State.setArr_held

theorem State.modeAfterProduct_held {s : State} {a : Nat} (hk : Held q0 n0 c0 s) : Held q0 n0 c0 (State.modeAfterProduct s a) := by
  unfold State.modeAfterProduct
  with_reducible repeat' first | assumption | apply State.setFld_held | apply State.cmdFinish_held | refine Held.ite ?_ ?_ | split

theorem execEnterMaint_held {arr : Nat} {tag : Nat} {s : State} (hk : Held q0 n0 c0 s) : HeldO q0 n0 c0 (execEnterMaint arr tag s) := by
  unfold execEnterMaint
  with_reducible repeat' first | assumption | apply State.arrCommand_held | refine HeldO.within ?_

theorem execLeaveMaint_held {arr : Nat} {tag : Nat} {s : State} (hk : Held q0 n0 c0 s) : HeldO q0 n0 c0 (execLeaveMaint arr tag s) := by
  unfold execLeaveMaint
  with_reducible repeat' first | assumption | apply State.arrCommand_held | refine HeldO.within ?_

theorem execErase_held {arr : Nat} {tag : Nat} {s : State} (hk : Held q0 n0 c0 s) : HeldO q0 n0 c0 (execErase arr tag s) := by
  unfold execErase
  with_reducible repeat' first | assumption | apply State.arrCommand_held | refine HeldO.within ?_

theorem execProgramRows_held {arr : Nat} {tag : Nat} {s : State} (hk : Held q0 n0 c0 s) : HeldO q0 n0 c0 (execProgramRows arr tag s) := by
  unfold execProgramRows
  with_reducible repeat' first | assumption | apply State.arrCommand_held | refine HeldO.within ?_

theorem execRefreshRows_held {arr : Nat} {tag : Nat} {s : State} (hk : Held q0 n0 c0 s) : HeldO q0 n0 c0 (execRefreshRows arr tag s) := by
  unfold execRefreshRows
  with_reducible repeat' first | assumption | apply State.arrCommand_held | refine HeldO.within ?_

theorem execVerifyRow_held {arr : Nat} {tag : Nat} {s : State} (hk : Held q0 n0 c0 s) : HeldO q0 n0 c0 (execVerifyRow arr tag s) := by
  unfold execVerifyRow
  with_reducible repeat' first | assumption | apply State.arrCommand_held | refine HeldO.within ?_

theorem execLevelCheck_held {arr : Nat} {tag : Nat} {s : State} (hk : Held q0 n0 c0 s) : HeldO q0 n0 c0 (execLevelCheck arr tag s) := by
  unfold execLevelCheck
  with_reducible repeat' first | assumption | apply State.arrCommand_held | refine HeldO.within ?_

theorem execRefSweep_held {arr : Nat} {tag : Nat} {s : State} (hk : Held q0 n0 c0 s) : HeldO q0 n0 c0 (execRefSweep arr tag s) := by
  unfold execRefSweep
  with_reducible repeat' first | assumption | apply State.arrCommand_held | refine HeldO.within ?_

theorem execWriteSide_held {arr : Nat} {tag : Nat} {s : State} (hk : Held q0 n0 c0 s) : HeldO q0 n0 c0 (execWriteSide arr tag s) := by
  unfold execWriteSide
  with_reducible repeat' first | assumption | apply State.arrCommand_held | refine HeldO.within ?_

theorem execExclude_held {arr : Nat} {tag : Nat} {s : State} (hk : Held q0 n0 c0 s) : HeldO q0 n0 c0 (execExclude arr tag s) := by
  unfold execExclude
  with_reducible repeat' first | assumption | apply State.arrCommand_held | refine HeldO.within ?_

/-- A map that leaves the keys as they are keeps them rising. -/
theorem SMap.rising_map {α : Type} {f : Nat × α → Nat × α} (hf : ∀ e, (f e).1 = e.1) :
    ∀ {b : Nat} {m : SMap α}, SMap.rising b m = true → SMap.rising b (m.map f) = true
  | _, [], _ => rfl
  | b, (j, v) :: m, h => by
    simp only [SMap.rising, Bool.and_eq_true, decide_eq_true_eq] at h
    have := hf (j, v)
    simp only [List.map_cons]
    rw [show f (j, v) = (j, (f (j, v)).2) from Prod.ext this rfl]
    simp only [SMap.rising, Bool.and_eq_true, decide_eq_true_eq]
    exact ⟨h.1, SMap.rising_map hf h.2⟩

theorem execVppOutOfRegulation_held {s : State} (hk : Held q0 n0 c0 s) : HeldO q0 n0 c0 (execVppOutOfRegulation s) :=
  have h := State.setFld_held (f := F.PWR_STATUS_VPP_ON) (v := 0) (i := 0) hk
  HeldO.next { h with arrays := SMap.rising_map (fun e => by dsimp only; split <;> [(split <;> rfl); rfl]) h.arrays }

end Sys2Proof.Machine
end

