-- ==== Sys2Proof/Laws/HeldAudit.lean ====
section
/-!
SUPPORT. That the operations of Machine/Audit.lean touch neither the queue nor the clock, and keep the tables canonical.
-/

namespace Sys2Proof.Machine

variable {q0 : List Instr} {n0 c0 : Nat}

theorem State.setFnSec_held {s : State} {fn : Nat} {v : FnSec} (hk : Held q0 n0 c0 s) : Held q0 n0 c0 (State.setFnSec s fn v) := by
  unfold State.setFnSec
  extract_lets l0
  try clear_value l0
  with_reducible repeat' first | assumption | fail_if_no_progress refine Held.same ?_

theorem State.audit_held {s : State} {fn : Nat} {action : Nat} {result : Nat} {code : Nat} {target : Nat} {detail : Bytes} (hk : Held q0 n0 c0 s) : Held q0 n0 c0 (State.audit s fn action result code target detail) := by
  unfold State.audit
  extract_lets l0
  try clear_value l0
  with_reducible repeat' first | assumption | fail_if_no_progress refine Held.same ?_

theorem State.recordWrites_held {s : State} {n : Nat} (hk : Held q0 n0 c0 s) : Held q0 n0 c0 (State.recordWrites s n) := by
  unfold State.recordWrites
  with_reducible repeat' first | assumption | apply State.count_held

theorem State.auditWrite_held {s : State} {e : AuditEntry} (hk : Held q0 n0 c0 s) : Held q0 n0 c0 (State.auditWrite s e) := by
  unfold State.auditWrite
  extract_lets l0 l1 l2 l3 l4 l5
  try clear_value l0
  try clear_value l1
  try clear_value l2
  try clear_value l3
  have hl4 : Held q0 n0 c0 l4 := by
    unfold l4
    with_reducible repeat' first | assumption | fail_if_no_progress refine Held.same ?_
  try clear_value l4
  have hl5 : Held q0 n0 c0 l5 := by
    unfold l5
    with_reducible repeat' first | assumption | apply State.count_held | refine Held.ite ?_ ?_
  try clear_value l5
  with_reducible repeat' first | assumption | apply State.setFld_held | apply State.recordWrites_held

theorem State.auditPending_held {s : State} {fn : Nat} {action : Nat} {target : Nat} {detail : Bytes} (hk : Held q0 n0 c0 s) : Held q0 n0 c0 (State.auditPending s fn action target detail).2 := by
  unfold State.auditPending
  with_reducible repeat' first | assumption | apply State.auditWrite_held

theorem State.auditDone_held {s : State} {seq : Nat} {result : Nat} {code : Nat} (hk : Held q0 n0 c0 s) : Held q0 n0 c0 (State.auditDone s seq result code) := by
  unfold State.auditDone
  extract_lets l0 l1
  try clear_value l0
  try clear_value l1
  with_reducible repeat' first | assumption | apply State.recordWrites_held | fail_if_no_progress refine Held.same ?_

theorem State.endRole_held {s : State} {fn : Nat} {cause : Nat} (hk : Held q0 n0 c0 s) : Held q0 n0 c0 (State.endRole s fn cause) := by
  unfold State.endRole
  extract_lets l0 l1
  have hl0 : Held q0 n0 c0 l0 := by
    unfold l0
    with_reducible repeat' first | assumption | apply State.audit_held
  try clear_value l0
  try clear_value l1
  with_reducible repeat' first | assumption | apply State.setFld_held | apply State.setFnSec_held | refine Held.ite ?_ ?_

end Sys2Proof.Machine
end

