-- ==== Sys2Proof/Laws/HeldSequencer.lean ====
section
/-!
SUPPORT. That the operations of Machine/Sequencer.lean touch neither the queue nor the clock, and keep the tables canonical.
-/

namespace Sys2Proof.Machine

variable {q0 : List Instr} {n0 c0 : Nat}

theorem State.markSuspect_held {s : State} {site : Nat} {bit : Nat} {mem : Bool} (hk : Held q0 n0 c0 s) : Held q0 n0 c0 (State.markSuspect s site bit mem) := by
  unfold State.markSuspect
  extract_lets l0
  try clear_value l0
  with_reducible repeat' first
    | assumption | apply State.setCore_held | apply State.setFld_held | apply State.count_held
    | fail_if_no_progress refine Held.same ?_ | refine Held.ite ?_ ?_ | split

theorem State.ctrInc_held {s : State} {site : Nat} {k : Nat} {n : Nat} (hk : Held q0 n0 c0 s) : Held q0 n0 c0 (State.ctrInc s site k n) := by
  unfold State.ctrInc
  extract_lets l0 l1
  try clear_value l0
  have hl1 : Held q0 n0 c0 l1 := by
    unfold l1
    with_reducible repeat' first | assumption | apply State.setFld_held
  try clear_value l1
  with_reducible repeat' first
    | assumption | apply State.setFld_held | apply State.unitError_held | apply State.markSuspect_held
    | apply State.raiseRow_held | refine Held.ite ?_ ?_

theorem State.ctrZero_held {s : State} {site : Nat} {k : Nat} (hk : Held q0 n0 c0 s) : Held q0 n0 c0 (State.ctrZero s site k) := by
  unfold State.ctrZero
  with_reducible repeat' first | assumption | apply State.setFld_held

theorem State.ctrsZero_held {s : State} {site : Nat} (hk : Held q0 n0 c0 s) : Held q0 n0 c0 (State.ctrsZero s site) := by
  unfold State.ctrsZero
  with_reducible repeat' first | assumption | apply State.ctrZero_held | refine Held.foldl (fun _ _ _ => ?_) ?_

theorem State.countLate_held {s : State} {site : Nat} {k : OpKind} (hk : Held q0 n0 c0 s) : Held q0 n0 c0 (s.countLate site k) := by
  unfold State.countLate
  split
  · exact State.count_held hk
  · exact Held.ite (State.count_held hk) hk
  · exact hk

end Sys2Proof.Machine
end

