-- ==== Sys2Proof/Laws/HeldCoreOps.lean ====
section
/-!
SUPPORT. That the operations of Machine/CoreOps.lean touch neither the queue nor the clock, and keep the tables canonical.
-/

namespace Sys2Proof.Machine

variable {q0 : List Instr} {n0 c0 : Nat}

theorem State.hamperErrors_held {s : State} {site : Nat} {ws : List (Nat × Bool)} (hk : Held q0 n0 c0 s) : Held q0 n0 c0 (State.hamperErrors s site ws) := by
  unfold State.hamperErrors
  with_reducible repeat' first
    | assumption | apply State.count_held | apply State.unitError_held | apply State.markSuspect_held
    | apply State.raiseRow_held | refine Held.ite ?_ ?_ | refine Held.foldl (fun _ _ _ => ?_) ?_

theorem State.readMarks_held {s : State} {site : Nat} {a : Nat} {n : Nat} (hk : Held q0 n0 c0 s) : Held q0 n0 c0 (State.readMarks s site a n) := by
  unfold State.readMarks
  with_reducible repeat' first | assumption | apply State.markSuspect_held | refine Held.ite ?_ ?_

theorem State.countNaN_held {s : State} {site : Nat} {v : List Nat} (hk : Held q0 n0 c0 s) : Held q0 n0 c0 (State.countNaN s site v) := by
  unfold State.countNaN
  with_reducible repeat' first | assumption | apply State.count_held

theorem State.opLoad_held {s : State} {site : Nat} {mask : Nat} {fmt : Fmt} {buf : Nat} {elems : Nat} {scales : Nat} {ref : Nat} {count : Nat} (hk : Held q0 n0 c0 s) : Held q0 n0 c0 (State.opLoad s site mask fmt buf elems scales ref count) := by
  unfold State.opLoad
  extract_lets l0 l1 l2 l3 l4
  try clear_value l0
  try clear_value l1
  try clear_value l2
  try clear_value l3
  have hl4 : Held q0 n0 c0 l4 := by
    unfold l4
    with_reducible repeat' first | assumption | apply State.readMarks_held
  try clear_value l4
  with_reducible repeat' first | assumption | apply State.setArr_held | refine Held.foldl (fun _ _ _ => ?_) ?_

theorem State.loadDone_held {s : State} {site : Nat} {mask : Nat} {buf : Nat} (hk : Held q0 n0 c0 s) : Held q0 n0 c0 (State.loadDone s site mask buf) := by
  unfold State.loadDone
  with_reducible repeat' first | assumption | apply State.setArr_held | refine Held.foldl (fun _ _ _ => ?_) ?_

theorem State.opAccumulate_held {s : State} {site : Nat} {n : Nat} {bf16 : Bool} {table : Nat} (hk : Held q0 n0 c0 s) : Held q0 n0 c0 (State.opAccumulate s site n bf16 table) := by
  unfold State.opAccumulate
  extract_lets l0
  have hl0 : Held q0 n0 c0 l0 := by
    unfold l0
    with_reducible repeat' first | assumption | apply State.readMarks_held
  try clear_value l0
  with_reducible repeat' first
    | assumption | apply State.setArr_held | apply State.setCore_held | apply State.hamperWrite_held
    | apply State.countNaN_held | refine Held.foldl (fun _ _ _ => ?_) ?_

theorem State.countBlocks_held {s : State} {site : Nat} {q : List QBlock} (hk : Held q0 n0 c0 s) : Held q0 n0 c0 (State.countBlocks s site q) := by
  unfold State.countBlocks
  extract_lets l0 l1 l2 l3
  have hl0 : Held q0 n0 c0 l0 := by
    unfold l0
    with_reducible repeat' first | assumption | apply State.count_held
  try clear_value l0
  have hl1 : Held q0 n0 c0 l1 := by
    unfold l1
    with_reducible repeat' first | assumption | apply State.count_held
  try clear_value l1
  have hl2 : Held q0 n0 c0 l2 := by
    unfold l2
    with_reducible repeat' first | assumption | apply State.count_held
  try clear_value l2
  have hl3 : Held q0 n0 c0 l3 := by
    unfold l3
    with_reducible repeat' first | assumption | apply State.count_held
  try clear_value l3
  with_reducible repeat' first | assumption | apply State.count_held

theorem State.opRotq_held {s : State} {site : Nat} {m : Nat} {mode : Nat} {fmt : Fmt} {inBf16 : Bool} {seed : Nat} {src : Nat} {dst : Nat} {len : Nat} (hk : Held q0 n0 c0 s) : Held q0 n0 c0 (State.opRotq s site m mode fmt inBf16 seed src dst len) := by
  unfold State.opRotq
  extract_lets l0 l1 l2 l3 l4 l5 l6 l7 l8
  have hl0 : Held q0 n0 c0 l0 := by
    unfold l0
    with_reducible repeat' first | assumption | apply State.readMarks_held
  try clear_value l0
  try clear_value l1
  try clear_value l2
  try clear_value l3
  have hl4 : Held q0 n0 c0 l4 := by
    unfold l4
    with_reducible repeat' first | assumption | apply State.setCore_held
  try clear_value l4
  try clear_value l5
  try clear_value l6
  try clear_value l7
  try clear_value l8
  with_reducible repeat' first | assumption | apply State.hamperWrite_held | apply State.countBlocks_held | refine Held.ite ?_ ?_

theorem State.opMatmul_held {s : State} {site : Nat} {x : Nat} {y : Nat} {z : Nat} {m : Nat} {n : Nat} {k32 : Nat} {flags : Nat} (hk : Held q0 n0 c0 s) : Held q0 n0 c0 (State.opMatmul s site x y z m n k32 flags) := by
  unfold State.opMatmul
  extract_lets l0 l1 l2 l3 l4 l5 l6 l7 l8
  try clear_value l0
  try clear_value l1
  try clear_value l2
  try clear_value l3
  try clear_value l4
  have hl5 : Held q0 n0 c0 l5 := by
    unfold l5
    with_reducible repeat' first | assumption | apply State.readMarks_held
  try clear_value l5
  try clear_value l6
  try clear_value l7
  have hl8 : Held q0 n0 c0 l8 := by
    unfold l8
    with_reducible repeat' first | assumption | apply State.countNaN_held | refine Held.ite ?_ ?_
  try clear_value l8
  with_reducible repeat' first | assumption | apply State.hamperWrite_held

theorem State.opVec_held {s : State} {site : Nat} {op : VecOp} {flags : Nat} {k : Nat} {a : Nat} {b : Nat} {dst : Nat} {len : Nat} (hk : Held q0 n0 c0 s) : Held q0 n0 c0 (State.opVec s site op flags k a b dst len) := by
  unfold State.opVec
  extract_lets l0 l1 l2 l3 l4
  try clear_value l0
  have hl1 : Held q0 n0 c0 l1 := by
    unfold l1
    with_reducible repeat' first | assumption | apply State.readMarks_held
  try clear_value l1
  have hl2 : Held q0 n0 c0 l2 := by
    unfold l2
    with_reducible repeat' first | assumption | apply State.readMarks_held | split
  try clear_value l2
  try clear_value l3
  have hl4 : Held q0 n0 c0 l4 := by
    unfold l4
    with_reducible repeat' first | assumption | apply State.countNaN_held | split
  try clear_value l4
  with_reducible repeat' first | assumption | apply State.gatherWrite_held

end Sys2Proof.Machine
end

