-- ==== Sys2Proof/Laws/HeldNet.lean ====
section
/-!
SUPPORT. That the operations of Machine/Net.lean touch neither the queue nor the clock, and keep the tables canonical.
-/

namespace Sys2Proof.Machine

variable {q0 : List Instr} {n0 c0 : Nat}

theorem State.pitchWrite_held {s : State} {p a : Nat} {bs : Bytes} (hk : Held q0 n0 c0 s) : Held q0 n0 c0 (s.pitchWrite p a bs) :=
  { hk with dram := SMap.wf_foldl (fun _ _ h => by split <;> [exact SMap.wf_set _ _ h; exact h]) hk.dram }

theorem State.setBinding_held {s : State} {p : Nat} {slot : Nat} {ctx : Option Nat} (hk : Held q0 n0 c0 s) : Held q0 n0 c0 (State.setBinding s p slot ctx) := by
  unfold State.setBinding
  with_reducible repeat' first | assumption | apply State.pitchWrite_held

theorem State.setCommitted_held {s : State} {p : Nat} {ctx : Nat} {len : Nat} {sel : Nat} (hk : Held q0 n0 c0 s) : Held q0 n0 c0 (State.setCommitted s p ctx len sel) := by
  unfold State.setCommitted
  with_reducible repeat' first | assumption | apply State.pitchWrite_held

theorem State.setProvisional_held {s : State} {p : Nat} {ctx : Nat} {len : Nat} (hk : Held q0 n0 c0 s) : Held q0 n0 c0 (State.setProvisional s p ctx len) := by
  unfold State.setProvisional
  with_reducible repeat' first | assumption | apply State.pitchWrite_held

theorem State.setPageCount_held {s : State} {p : Nat} {page : Nat} {n : Nat} (hk : Held q0 n0 c0 s) : Held q0 n0 c0 (State.setPageCount s p page n) := by
  unfold State.setPageCount
  with_reducible repeat' first | assumption | apply State.pitchWrite_held

theorem State.badBeat_held {s : State} {p : Nat} {a : Nat} (hk : Held q0 n0 c0 s) : Held q0 n0 c0 (State.badBeat s p a) := by
  unfold State.badBeat
  extract_lets l0 l1 l2 l3 l4 l5
  try clear_value l0
  try clear_value l1
  have hl2 : Held q0 n0 c0 l2 := by
    unfold l2
    with_reducible repeat' first | assumption | apply State.count_held | apply State.unitError_held | apply State.setFld_held
  try clear_value l2
  have hl3 : Held q0 n0 c0 l3 := by
    unfold l3
    with_reducible repeat' first | assumption | apply State.setFld_held
  try clear_value l3
  have hl4 : Held q0 n0 c0 l4 := by
    unfold l4
    with_reducible repeat' first | assumption | apply State.raiseBoth_held
  try clear_value l4
  try clear_value l5
  with_reducible repeat' first | assumption | fail_if_no_progress refine Held.same ?_ | refine Held.ite ?_ ?_

theorem State.goodBeat_held {s : State} {p : Nat} {a : Nat} (hk : Held q0 n0 c0 s) : Held q0 n0 c0 (State.goodBeat s p a) := by
  unfold State.goodBeat
  with_reducible repeat' first | assumption | apply State.count_held

theorem State.launch_held {s : State} {t : Transfer} (hk : Held q0 n0 c0 s) : Held q0 n0 c0 (State.launch s t) := by
  unfold State.launch
  extract_lets l0
  try clear_value l0
  with_reducible repeat' first | assumption | fail_if_no_progress refine Held.same ?_

theorem State.flits_held {s : State} {e : OpEnv} (hk : Held q0 n0 c0 s) : Held q0 n0 c0 (State.flits s e) := by
  unfold State.flits
  with_reducible repeat' first | assumption | apply State.count_held

theorem State.sendBytes_held {s : State} {site : Nat} {dest : Nat} {ctr : Option Nat} {dst : Nat} {data : Bytes} {bad : Bool} (hk : Held q0 n0 c0 s) : Held q0 n0 c0 (State.sendBytes s site dest ctr dst data bad) := by
  unfold State.sendBytes
  extract_lets l0
  try clear_value l0
  with_reducible repeat' first | assumption | apply State.launch_held | apply State.count_held | refine Held.ite ?_ ?_

theorem State.opSend_held {s : State} {site : Nat} {e : OpEnv} {dest : Nat} {ctr : Option Nat} {src : Nat} {dst : Nat} {bytes : Nat} (hk : Held q0 n0 c0 s) : Held q0 n0 c0 (State.opSend s site e dest ctr src dst bytes) := by
  unfold State.opSend
  extract_lets l0
  have hl0 : Held q0 n0 c0 l0 := by
    unfold l0
    with_reducible repeat' first | assumption | apply State.readMarks_held | apply State.flits_held
  try clear_value l0
  with_reducible repeat' first | assumption | apply State.sendBytes_held

theorem State.opMemRead_held {s : State} {site : Nat} {e : OpEnv} {stream : Nat} {addr : Nat} {bytes : Nat} {token : Nat} (hk : Held q0 n0 c0 s) : Held q0 n0 c0 (State.opMemRead s site e stream addr bytes token) := by
  unfold State.opMemRead
  extract_lets l0 l1 l2
  try clear_value l0
  have hl1 : Held q0 n0 c0 l1 := by
    unfold l1
    with_reducible repeat' first
      | assumption | apply State.badBeat_held | apply State.goodBeat_held | apply State.markSuspect_held
      | refine Held.ite ?_ ?_ | refine Held.foldl (fun _ _ _ => ?_) ?_ | split
  try clear_value l1
  have hl2 : Held q0 n0 c0 l2 := by
    unfold l2
    with_reducible repeat' first | assumption | apply State.flits_held
  try clear_value l2
  with_reducible repeat' first | assumption | apply State.launch_held | split

theorem State.kvRefused_held {s : State} {site : Nat} {p : Nat} (hk : Held q0 n0 c0 s) : Held q0 n0 c0 (State.kvRefused s site p) := by
  unfold State.kvRefused
  with_reducible repeat' first | assumption | apply State.count_held | apply State.markSuspect_held

theorem State.kvStore_held {s : State} {p : Nat} {c : Nat} {r : StreamRec} {first : Nat} {t : Nat} {tail : Bool} {src : Bytes} (hk : Held q0 n0 c0 s) : Held q0 n0 c0 (State.kvStore s p c r first t tail src) := by
  unfold State.kvStore
  extract_lets l0 l1 l2 l3 l4 l5
  try clear_value l0
  have hl1 : ∀ x0 x1 x2 x3, Held q0 n0 c0 x0 → Held q0 n0 c0 (l1 x0 x1 x2 x3) := by
    intro x0 x1 x2 x3 hs
    dsimp only [l1]
    with_reducible repeat' first | assumption | apply State.pitchWrite_held
  try clear_value l1
  try clear_value l2
  try clear_value l3
  try clear_value l4
  try clear_value l5
  with_reducible repeat' first
    | assumption | apply hl1 | apply State.pitchWrite_held | refine Held.ite ?_ ?_ | refine Held.foldl (fun _ _ _ => ?_) ?_

theorem State.writeTokens_held {s : State} {site : Nat} {slot : Option (Nat × Nat × Nat)} {r : StreamRec} {token : Nat} {data : Bytes} (hk : Held q0 n0 c0 s) : Held q0 n0 c0 (State.writeTokens s site slot r token data) := by
  unfold State.writeTokens
  extract_lets l0 l1 l2 l3
  try clear_value l0
  try clear_value l1
  try clear_value l2
  try clear_value l3
  with_reducible repeat' first
    | assumption | apply State.kvRefused_held | apply State.kvStore_held | apply State.setProvisional_held
    | refine Held.ite ?_ ?_ | split

theorem State.opMemWrite_held {s : State} {site : Nat} {stream : Nat} {addr : Nat} {bytes : Nat} {token : Nat} (hk : Held q0 n0 c0 s) : Held q0 n0 c0 (State.opMemWrite s site stream addr bytes token) := by
  unfold State.opMemWrite
  extract_lets l0
  have hl0 : Held q0 n0 c0 l0 := by
    unfold l0
    with_reducible repeat' first | assumption | apply State.readMarks_held
  try clear_value l0
  with_reducible repeat' first | assumption | apply State.writeTokens_held | split

theorem State.portBytes_held {s : State} {site : Nat} {port : Nat} {cls : Nat} {part : Nat} {dest : Nat} {ctr : Option Nat} {dst : Nat} {data : Bytes} {bad : Bool} (hk : Held q0 n0 c0 s) : Held q0 n0 c0 (State.portBytes s site port cls part dest ctr dst data bad) := by
  unfold State.portBytes
  extract_lets l0 l1 l2 l3
  try clear_value l0
  try clear_value l1
  try clear_value l2
  try clear_value l3
  with_reducible repeat' first
    | assumption | apply State.count_held | fail_if_no_progress refine Held.same ?_ | refine Held.ite ?_ ?_ | split

theorem State.opPortSend_held {s : State} {site : Nat} {e : OpEnv} {port : Nat} {cls : Nat} {part : Nat} {dest : Nat} {ctr : Option Nat} {src : Nat} {dst : Nat} {bytes : Nat} (hk : Held q0 n0 c0 s) : Held q0 n0 c0 (State.opPortSend s site e port cls part dest ctr src dst bytes) := by
  unfold State.opPortSend
  extract_lets l0
  have hl0 : Held q0 n0 c0 l0 := by
    unfold l0
    with_reducible repeat' first | assumption | apply State.readMarks_held | apply State.flits_held
  try clear_value l0
  with_reducible repeat' first | assumption | apply State.portBytes_held

theorem State.opBarrier_held {s : State} {site : Nat} {h : OpHdr} {id : Nat} {n : Nat} (hk : Held q0 n0 c0 s) : Held q0 n0 c0 (State.opBarrier s site h id n) := by
  unfold State.opBarrier
  extract_lets l0 l1 l2 l3
  try clear_value l0
  try clear_value l1
  try clear_value l2
  try clear_value l3
  with_reducible repeat' first
    | assumption | apply State.count_held | apply State.ctrInc_held | fail_if_no_progress refine Held.same ?_
    | refine Held.ite ?_ ?_ | refine Held.foldl (fun _ _ _ => ?_) ?_ | split

theorem State.deliver_held {s : State} {site : Nat} {addr : Nat} {data : Bytes} {bad : Bool} (hk : Held q0 n0 c0 s) : Held q0 n0 c0 (State.deliver s site addr data bad) := by
  unfold State.deliver
  extract_lets l0 l1 l2 l3
  have hl0 : Held q0 n0 c0 l0 := by
    unfold l0
    with_reducible repeat' first | assumption | apply State.gatherWrite_held
  try clear_value l0
  try clear_value l1
  have hl2 : Held q0 n0 c0 l2 := by
    unfold l2
    with_reducible repeat' first | assumption | apply State.flushGather_held
  try clear_value l2
  try clear_value l3
  with_reducible repeat' first | assumption | fail_if_no_progress refine Held.same ?_ | refine Held.ite ?_ ?_

end Sys2Proof.Machine
end

