-- ==== Sys2Proof/Laws/HeldRegAccess.lean ====
section
/-!
SUPPORT. That the operations of Machine/RegAccess.lean touch neither the queue nor the clock, and keep the tables canonical.
-/

namespace Sys2Proof.Machine

variable {q0 : List Instr} {n0 c0 : Nat}

theorem State.nameManagers_held {s : State} (hk : Held q0 n0 c0 s) : Held q0 n0 c0 (State.nameManagers s) := by
  unfold State.nameManagers
  extract_lets l0 l1 l2 l3 l4 l5 l6
  try clear_value l0
  try clear_value l1
  try clear_value l2
  try clear_value l3
  try clear_value l4
  have hl5 : Held q0 n0 c0 l5 := by
    unfold l5
    with_reducible repeat' first | assumption | apply State.setFlag_held
  try clear_value l5
  have hl6 : Held q0 n0 c0 l6 := by
    unfold l6
    with_reducible repeat' first | assumption | apply State.setFld_held
  try clear_value l6
  with_reducible repeat' first | assumption | apply State.setFld_held | refine Held.ite ?_ ?_

theorem State.staleHeld_held {s : State} {ch : Nat} (hk : Held q0 n0 c0 s) : Held q0 n0 c0 (State.staleHeld s ch) := by
  unfold State.staleHeld
  with_reducible repeat' first | assumption | apply State.setFld_held | refine Held.ite ?_ ?_

theorem State.putFld_held {s : State} {f : Fld} {i : Nat} {v : Nat} (hk : Held q0 n0 c0 s) : Held q0 n0 c0 (State.putFld s f i v) := by
  unfold State.putFld
  extract_lets l0
  try clear_value l0
  with_reducible repeat' first
    | assumption | apply State.setFld_held | apply State.setCore_held | apply State.setFlag_held
    | apply State.nameManagers_held | apply State.staleHeld_held | apply State.setVfld_held | refine Held.ite ?_ ?_

theorem State.hostWrite_held {s : State} {fn : Nat} {addr : Nat} {b : Block} {inst : Nat} {r : RegInfo} {k : Nat} {value : Nat} (hk : Held q0 n0 c0 s) : Held q0 n0 c0 (State.hostWrite s fn addr b inst r k value) := by
  unfold State.hostWrite
  with_reducible repeat' first
    | assumption | apply State.audit_held | apply State.putFld_held | refine Held.ite ?_ ?_
    | refine Held.foldl (fun _ _ _ => ?_) ?_ | split

theorem State.trimWrite_held {s : State} {a : Nat} {r : RegInfo} {value : Nat} (hk : Held q0 n0 c0 s) : Held q0 n0 c0 (State.trimWrite s a r value) := by
  unfold State.trimWrite
  extract_lets l0
  try clear_value l0
  with_reducible repeat' first | assumption | apply State.setArr_held | refine Held.ite ?_ ?_

theorem State.fwWrite_held {s : State} {b : Block} {inst : Nat} {r : RegInfo} {k : Nat} {value : Nat} (hk : Held q0 n0 c0 s) : Held q0 n0 c0 (State.fwWrite s b inst r k value) := by
  unfold State.fwWrite
  extract_lets l0 l1 l2
  try clear_value l0
  try clear_value l1
  have hl2 : Held q0 n0 c0 l2 := by
    unfold l2
    with_reducible repeat' first | assumption | apply State.setFld_held
  try clear_value l2
  with_reducible repeat' first
    | assumption | apply State.cmdRefuse_held | apply State.setFld_held | apply State.trimWrite_held | apply State.count_held
    | apply State.putFld_held | refine Held.ite ?_ ?_ | refine Held.foldl (fun _ _ _ => ?_) ?_ | split

theorem State.smbWrite_held {s : State} {b : Block} {inst : Nat} {r : RegInfo} {k : Nat} {value : Nat} (hk : Held q0 n0 c0 s) : Held q0 n0 c0 (State.smbWrite s b inst r k value) := by
  unfold State.smbWrite
  with_reducible repeat' first | assumption | apply State.putFld_held | refine Held.foldl (fun _ _ _ => ?_) ?_ | split

theorem State.writeReg_held {s : State} {p : Path} {addr : Nat} {value : Nat} (hk : Held q0 n0 c0 s) : Held q0 n0 c0 (State.writeReg s p addr value) := by
  unfold State.writeReg
  with_reducible repeat' first
    | assumption | apply State.audit_held | apply State.hostWrite_held | apply State.fwWrite_held | apply State.smbWrite_held
    | refine Held.ite ?_ ?_ | split

theorem State.counterRead_held {s : State} {p : Path} {addr : Nat} (hk : Held q0 n0 c0 s) : Held q0 n0 c0 (State.counterRead s p addr) := by
  unfold State.counterRead
  extract_lets l0
  have hl0 : Held q0 n0 c0 l0 := by
    unfold l0
    with_reducible repeat' first | assumption | fail_if_no_progress refine Held.same ?_
  try clear_value l0
  with_reducible repeat' first
    | assumption | apply State.setFld_held | refine Held.ite ?_ ?_ | refine Held.foldl (fun _ _ _ => ?_) ?_ | split

theorem State.loRead_held {s : State} {p : Path} {audit : Bool} (hk : Held q0 n0 c0 s) : Held q0 n0 c0 (State.loRead s p audit) := by
  unfold State.loRead
  extract_lets l0 l1 l2
  try clear_value l0
  have hl1 : Held q0 n0 c0 l1 := by
    unfold l1
    with_reducible repeat' first | assumption | apply State.setFld_held
  try clear_value l1
  have hl2 : Held q0 n0 c0 l2 := by
    unfold l2
    with_reducible repeat' first | assumption | apply State.setFld_held
  try clear_value l2
  with_reducible repeat' first | assumption | fail_if_no_progress refine Held.same ?_ | refine Held.ite ?_ ?_

theorem State.ownWrite_held {s : State} {p : Path} {rank : Nat} {rwl : Bool} {addr : Nat} (hk : Held q0 n0 c0 s) : Held q0 n0 c0 (State.ownWrite s p rank rwl addr).2 := by
  unfold State.ownWrite
  with_reducible repeat' first | assumption | apply State.audit_held | split

theorem execRegisterWrite_held {path : Path} {addr : Nat} {value : Nat} {s : State} (hk : Held q0 n0 c0 s) : HeldO q0 n0 c0 (execRegisterWrite path addr value s) := by
  unfold execRegisterWrite
  with_reducible repeat' first | assumption | apply State.writeReg_held | refine HeldO.within ?_

theorem execRcCounterRead_held {path : Path} {addr : Nat} {s : State} (hk : Held q0 n0 c0 s) : HeldO q0 n0 c0 (execRcCounterRead path addr s) := by
  unfold execRcCounterRead
  with_reducible repeat' first | assumption | apply State.counterRead_held | refine HeldO.within ?_

theorem execTimeLoRead_held {path : Path} {audit : Bool} {s : State} (hk : Held q0 n0 c0 s) : HeldO q0 n0 c0 (execTimeLoRead path audit s) := by
  unfold execTimeLoRead
  with_reducible repeat' first | assumption | apply State.loRead_held | refine HeldO.within ?_

end Sys2Proof.Machine
end

