-- ==== Sys2Proof/Laws/HeldWindow.lean ====
section
/-!
SUPPORT. That the operations of Machine/Window.lean touch neither the queue nor the clock, and keep the tables canonical.
-/

namespace Sys2Proof.Machine

variable {q0 : List Instr} {n0 c0 : Nat}

theorem State.take_held {s : State} {fn : Nat} (hk : Held q0 n0 c0 s) : Held q0 n0 c0 (State.take s fn) := by
  unfold State.take
  extract_lets l0 l1
  try clear_value l0
  try clear_value l1
  with_reducible repeat' first | assumption | apply State.setWin_held

theorem State.answer_held {s : State} {c : Mgmt} {code : Nat} {result : Nat} {target : Nat} {detail : Bytes} (hk : Held q0 n0 c0 s) : Held q0 n0 c0 (State.answer s c code result target detail) := by
  unfold State.answer
  with_reducible repeat' first | assumption | apply State.audit_held | apply State.respond_held

theorem State.mgmt_held {s : State} {c : Mgmt} {r : CmdRule} {target : Nat} {act : State → State} (hk : Held q0 n0 c0 s) (hact : ∀ s, Held q0 n0 c0 s → Held q0 n0 c0 (act s)) : Held q0 n0 c0 (State.mgmt s c r target act) := by
  unfold State.mgmt
  extract_lets l0
  have hl0 : Held q0 n0 c0 l0 := by
    unfold l0
    with_reducible repeat' first | assumption | apply State.take_held
  try clear_value l0
  with_reducible repeat' first
    | assumption | refine hact _ ?_ | apply State.count_held | apply State.answer_held | refine Held.ite ?_ ?_ | split

theorem State.hostOutput_held {s : State} {fn : Nat} {bs : Bytes} (hk : Held q0 n0 c0 s) : Held q0 n0 c0 (State.hostOutput s fn bs) := by
  unfold State.hostOutput
  extract_lets l0
  try clear_value l0
  with_reducible repeat' first | assumption | apply State.setWin_held

theorem State.windowMsi_held {s : State} {fn : Nat} (hk : Held q0 n0 c0 s) : Held q0 n0 c0 (State.windowMsi s fn) := by
  unfold State.windowMsi
  extract_lets l0
  try clear_value l0
  with_reducible repeat' first | assumption | apply State.setWin_held | apply State.msi_held | refine Held.ite ?_ ?_

theorem State.readIndices_held {s : State} {fn : Nat} {cmdTail : Nat} {rspHead : Nat} {evtHead : Nat} (hk : Held q0 n0 c0 s) : Held q0 n0 c0 (State.readIndices s fn cmdTail rspHead evtHead) := by
  unfold State.readIndices
  extract_lets l0 l1
  try clear_value l0
  have hl1 : Held q0 n0 c0 l1 := by
    unfold l1
    with_reducible repeat' first | assumption | apply State.setWin_held
  try clear_value l1
  with_reducible repeat' first | assumption | apply State.raiseBoth_held | refine Held.ite ?_ ?_

theorem State.mgmtPoll_held {s : State} {reads : List (Nat × Nat × Nat × Nat)} {unknown : Option (Mgmt × Nat)} (hk : Held q0 n0 c0 s) : Held q0 n0 c0 (State.mgmtPoll s reads unknown) := by
  unfold State.mgmtPoll
  extract_lets l0 l1 l2 l3
  try clear_value l0
  have hl1 : Held q0 n0 c0 l1 := by
    unfold l1
    with_reducible repeat' first | assumption | fail_if_no_progress refine Held.same ?_
  try clear_value l1
  have hl2 : Held q0 n0 c0 l2 := by
    unfold l2
    with_reducible repeat' first | assumption | apply State.readIndices_held | refine Held.foldl (fun _ _ _ => ?_) ?_
  try clear_value l2
  have hl3 : Held q0 n0 c0 l3 := by
    unfold l3
    with_reducible repeat' first | assumption | apply State.take_held | apply State.answer_held | refine Held.ite ?_ ?_ | split
  try clear_value l3
  with_reducible repeat' first
    | assumption | apply State.windowMsi_held | refine Held.ite ?_ ?_ | refine Held.foldl (fun _ _ _ => ?_) ?_

theorem State.msixUnmask_held {s : State} {fn : Nat} {vec : Nat} (hk : Held q0 n0 c0 s) : Held q0 n0 c0 (State.msixUnmask s fn vec) := by
  unfold State.msixUnmask
  extract_lets l0 l1 l2 l3
  try clear_value l0
  try clear_value l1
  have hl2 : Held q0 n0 c0 l2 := by
    unfold l2
    with_reducible repeat' first | assumption | fail_if_no_progress refine Held.same ?_
  try clear_value l2
  try clear_value l3
  with_reducible repeat' first | assumption | fail_if_no_progress refine Held.same ?_ | refine Held.ite ?_ ?_

theorem execMgmtCommandPoll_held {reads : List (Nat × Nat × Nat × Nat)} {unknown : Option (Mgmt × Nat)} {s : State} (hk : Held q0 n0 c0 s) : HeldO q0 n0 c0 (execMgmtCommandPoll reads unknown s) := by
  unfold execMgmtCommandPoll
  with_reducible repeat' first | assumption | apply State.mgmtPoll_held | refine HeldO.within ?_

theorem execMsixUnmask_held {fn : Nat} {vec : Nat} {s : State} (hk : Held q0 n0 c0 s) : HeldO q0 n0 c0 (execMsixUnmask fn vec s) := by
  unfold execMsixUnmask
  with_reducible repeat' first | assumption | apply State.msixUnmask_held | refine HeldO.within ?_

theorem execPoisonedWrite_held {s : State} (hk : Held q0 n0 c0 s) : HeldO q0 n0 c0 (execPoisonedWrite s) := by
  unfold execPoisonedWrite
  with_reducible repeat' first | assumption | apply State.count_held | refine HeldO.next ?_

end Sys2Proof.Machine
end

