-- ==== Sys2Proof/Laws/HeldQueue.lean ====
section
/-!
SUPPORT. That the operations of Machine/Queue.lean touch neither the queue nor the clock, and keep the tables canonical.
-/

namespace Sys2Proof.Machine

variable {q0 : List Instr} {n0 c0 : Nat}

theorem State.setQueue_held {s : State} {q : Nat} {x : QueueSt} (hk : Held q0 n0 c0 s) : Held q0 n0 c0 (State.setQueue s q x) := by
  unfold State.setQueue
  extract_lets l0
  try clear_value l0
  with_reducible repeat' first | assumption | apply State.setFlag_held | fail_if_no_progress refine Held.same ?_

theorem State.setOwner_held {s : State} {q : Nat} {k : Option Nat} (hk : Held q0 n0 c0 s) : Held q0 n0 c0 (State.setOwner s q k) := by
  unfold State.setOwner
  with_reducible repeat' first | assumption | apply State.setFld_held | split

theorem State.writeEntry_held {s : State} {q : Nat} {c : Completion} (hk : Held q0 n0 c0 s) : Held q0 n0 c0 (State.writeEntry s q c) := by
  unfold State.writeEntry
  extract_lets l0 l1
  try clear_value l0
  try clear_value l1
  with_reducible repeat' first | assumption | apply State.setQueue_held

theorem State.postEntry_held {s : State} {q : Nat} {c : Completion} (hk : Held q0 n0 c0 s) : Held q0 n0 c0 (State.postEntry s q c) := by
  unfold State.postEntry
  extract_lets l0
  try clear_value l0
  with_reducible repeat' first | assumption | apply State.writeEntry_held | apply State.setQueue_held | refine Held.ite ?_ ?_

theorem State.writeHeld_held {s : State} {q : Nat} (hk : Held q0 n0 c0 s) : Held q0 n0 c0 (State.writeHeld s q) := by
  unfold State.writeHeld
  extract_lets l0
  try clear_value l0
  with_reducible repeat' first
    | assumption | apply State.setQueue_held | apply State.writeEntry_held | refine Held.ite ?_ ?_ | split

theorem State.completionMsi_held {s : State} {q : Nat} (hk : Held q0 n0 c0 s) : Held q0 n0 c0 (State.completionMsi s q) := by
  unfold State.completionMsi
  extract_lets l0
  try clear_value l0
  with_reducible repeat' first | assumption | apply State.setQueue_held | apply State.msi_held | refine Held.ite ?_ ?_

theorem State.refusalMsi_held {s : State} {q : Nat} (hk : Held q0 n0 c0 s) : Held q0 n0 c0 (State.refusalMsi s q) := by
  unfold State.refusalMsi
  extract_lets l0
  try clear_value l0
  with_reducible repeat' first | assumption | apply State.setQueue_held | apply State.msi_held | refine Held.ite ?_ ?_

theorem State.countQueues_held {s : State} {fn : Nat} (hk : Held q0 n0 c0 s) : Held q0 n0 c0 (State.countQueues s fn) := by
  unfold State.countQueues
  with_reducible repeat' first | assumption | apply State.setFld_held

theorem State.queueEnable_held {s : State} {p : Path} (hk : Held q0 n0 c0 s) : Held q0 n0 c0 (State.queueEnable s p) := by
  unfold State.queueEnable
  extract_lets l0 l1
  have hl0 : Held q0 n0 c0 l0.2 := by
    unfold l0
    with_reducible repeat' first | assumption | apply State.ownWrite_held
  try clear_value l0
  have hl1 : Held q0 n0 c0 l1 := by
    unfold l1
    with_reducible repeat' assumption
  try clear_value l1
  with_reducible repeat' first
    | assumption | apply State.setFld_held | apply State.setQueue_held | apply State.setOwner_held
    | apply State.countQueues_held | refine Held.ite ?_ ?_ | split

theorem State.queueOff_held {s : State} {q : Nat} (hk : Held q0 n0 c0 s) : Held q0 n0 c0 (State.queueOff s q) := by
  unfold State.queueOff
  extract_lets l0
  try clear_value l0
  with_reducible repeat' first
    | assumption | apply State.setFld_held | apply State.setQueue_held | apply State.setOwner_held
    | apply State.countQueues_held

theorem State.queueError_held {s : State} {q : Nat} {code : Nat} (hk : Held q0 n0 c0 s) : Held q0 n0 c0 (State.queueError s q code) := by
  unfold State.queueError
  extract_lets l0
  have hl0 : Held q0 n0 c0 l0 := by
    unfold l0
    with_reducible repeat' first | assumption | apply State.setFld_held
  try clear_value l0
  with_reducible repeat' first | assumption | apply State.postTo_held | apply State.raiseBoth_held

theorem State.pollQueue_held {s : State} {r : DoorRead} (hk : Held q0 n0 c0 s) : Held q0 n0 c0 (State.pollQueue s r) := by
  unfold State.pollQueue
  extract_lets l0 l1 l2 l3 l4 l5 l6 l7 l8 l9
  try clear_value l0
  try clear_value l1
  try clear_value l2
  try clear_value l3
  try clear_value l4
  have hl5 : Held q0 n0 c0 l5 := by
    unfold l5
    with_reducible repeat' first | assumption | apply State.setQueue_held
  try clear_value l5
  try clear_value l6
  try clear_value l7
  try clear_value l8
  have hl9 : Held q0 n0 c0 l9 := by
    unfold l9
    with_reducible repeat' first | assumption | apply State.setQueue_held
  try clear_value l9
  with_reducible repeat' first
    | assumption | apply State.queueError_held | apply State.setFld_held | apply State.raiseBoth_held | refine Held.ite ?_ ?_

theorem State.doorbellPoll_held {s : State} {reads : List DoorRead} (hk : Held q0 n0 c0 s) : Held q0 n0 c0 (State.doorbellPoll s reads) := by
  unfold State.doorbellPoll
  extract_lets l0 l1 l2
  try clear_value l0
  have hl1 : Held q0 n0 c0 l1 := by
    unfold l1
    with_reducible repeat' first | assumption | fail_if_no_progress refine Held.same ?_
  try clear_value l1
  have hl2 : Held q0 n0 c0 l2 := by
    unfold l2
    with_reducible repeat' first | assumption | apply State.refusalMsi_held | refine Held.foldl (fun _ _ _ => ?_) ?_
  try clear_value l2
  with_reducible repeat' first
    | assumption | apply State.pollQueue_held | refine Held.ite ?_ ?_ | refine Held.foldl (fun _ _ _ => ?_) ?_

theorem execDoorbellPoll_held {reads : List DoorRead} {s : State} (hk : Held q0 n0 c0 s) : HeldO q0 n0 c0 (execDoorbellPoll reads s) := by
  unfold execDoorbellPoll
  with_reducible repeat' first | assumption | apply State.doorbellPoll_held | refine HeldO.within ?_

theorem execHeldCompletionWrite_held {q : Nat} {s : State} (hk : Held q0 n0 c0 s) : HeldO q0 n0 c0 (execHeldCompletionWrite q s) := by
  unfold execHeldCompletionWrite
  with_reducible repeat' first | assumption | apply State.writeHeld_held | refine HeldO.within ?_

theorem execQueueEnable_held {path : Path} {s : State} (hk : Held q0 n0 c0 s) : HeldO q0 n0 c0 (execQueueEnable path s) := by
  unfold execQueueEnable
  with_reducible repeat' first | assumption | apply State.queueEnable_held | refine HeldO.within ?_

end Sys2Proof.Machine
end

