-- ==== Sys2Proof/Laws/HeldKvAlloc.lean ====
section
/-!
SUPPORT. That the operations of Machine/KvAlloc.lean touch neither the queue nor the clock, and keep the tables canonical.
-/

namespace Sys2Proof.Machine

variable {q0 : List Instr} {n0 c0 : Nat}

theorem State.setSrv_held {s : State} {p : Nat} {x : ServeSt} (hk : Held q0 n0 c0 s) : Held q0 n0 c0 (s.setSrv p x) :=
  { hk with serve := SMap.rising_set _ _ _ hk.serve }

theorem State.onSrv_held {s : State} {p : Nat} {f : ServeSt → ServeSt} (hk : Held q0 n0 c0 s) : Held q0 n0 c0 (State.onSrv s p f) := by
  unfold State.onSrv
  with_reducible repeat' first | assumption | apply State.setSrv_held

theorem State.onCounts_held {s : State} {p : Nat} {f : ServeCounts → ServeCounts} (hk : Held q0 n0 c0 s) : Held q0 n0 c0 (State.onCounts s p f) := by
  unfold State.onCounts
  with_reducible repeat' first | assumption | apply State.onSrv_held

theorem State.withholdNotice_held {s : State} {frame : Nat} {reason : Nat} {slots : List Nat} (hk : Held q0 n0 c0 s) : Held q0 n0 c0 (State.withholdNotice s frame reason slots) := by
  unfold State.withholdNotice
  extract_lets l0 l1 l2 l3
  try clear_value l0
  try clear_value l1
  have hl2 : Held q0 n0 c0 l2 := by
    unfold l2
    with_reducible repeat' first | assumption | fail_if_no_progress refine Held.same ?_
  try clear_value l2
  try clear_value l3
  with_reducible repeat' first
    | assumption | apply State.sendMsg_held | fail_if_no_progress refine Held.same ?_ | refine Held.ite ?_ ?_

theorem State.takeRun_held {s : State} {p n : Nat} (hk : Held q0 n0 c0 s) : HeldP q0 n0 c0 (s.takeRun p n) :=
  HeldP.map fun _ => Held.foldl (fun _ _ h => State.setPageCount_held h) hk

theorem State.pageUp_held {s : State} {p : Nat} {g : Nat} (hk : Held q0 n0 c0 s) : Held q0 n0 c0 (State.pageUp s p g) := by
  unfold State.pageUp
  with_reducible repeat' first | assumption | apply State.setPageCount_held

theorem State.pageDown_held {s : State} {p : Nat} {g : Nat} (hk : Held q0 n0 c0 s) : Held q0 n0 c0 (State.pageDown s p g) := by
  unfold State.pageDown
  with_reducible repeat' first | assumption | apply State.setPageCount_held

theorem State.ctxStream_held {s : State} {p dir n : Nat} {src : Option Nat} {r : StreamRec} (hk : Held q0 n0 c0 s) : HeldS q0 n0 c0 (s.ctxStream p dir n src r) := by
  unfold State.ctxStream
  generalize e : s.takeRun p (listSize r n) = o
  match o, e with
  | none, _ => exact HeldS.none
  | some (l, t), e =>
    have h1 := Held.of_pair e (State.takeRun_held hk)
    dsimp only
    generalize ht : List.foldl _ _ _ = t1
    have h2 : Held q0 n0 c0 t1 := ht ▸ Held.foldl (fun _ _ h => State.pitchWrite_held h) (State.pitchWrite_held h1)
    clear ht
    split
    · exact HeldS.some (State.pitchWrite_held h2)
    · cases src with
      | some c => exact HeldS.some (State.pitchWrite_held h2)
      | none =>
        generalize e3 : t1.takeRun p (tailSize r) = o3
        match o3, e3 with
        | none, _ => exact HeldS.none
        | some (t0, t2), e3 =>
          have h3 := Held.of_pair e3 (State.takeRun_held h2)
          dsimp only
          generalize e4 : t2.takeRun p (tailSize r) = o4
          match o4, e4 with
          | none, _ => exact HeldS.none
          | some (t3, t4), e4 => exact HeldS.some (State.pitchWrite_held (Held.of_pair e4 (State.takeRun_held h3)))

theorem State.ctxStreams_held : ∀ {rs : List StreamRec} {s : State} {p dir n : Nat} {src : Option Nat}, Held q0 n0 c0 s → HeldS q0 n0 c0 (State.ctxStreams rs s p dir n src)
  | [], _, _, _, _, _, hk => HeldS.some hk
  | r :: rs, s, p, dir, n, src, hk => by
    unfold State.ctxStreams
    split
    · next t e => exact State.ctxStreams_held (Held.of_some e (State.ctxStream_held hk))
    · exact HeldS.none

theorem State.makeCtx_held {s : State} {p ctx n len : Nat} {src : Option (Nat × Nat)} (hk : Held q0 n0 c0 s) : HeldS q0 n0 c0 (s.makeCtx p ctx n len src) := by
  unfold State.makeCtx
  generalize e : s.takeRun p (max 1 (ceilDiv (16 * s.dirEntries) 65536)) = o
  match o, e with
  | none, _ => exact HeldS.none
  | some (d, t), e =>
    have h1 := Held.of_pair e (State.takeRun_held hk)
    dsimp only
    generalize ht : State.ctxStreams _ _ _ _ _ _ = t1
    have h2 : HeldS q0 n0 c0 t1 := ht ▸ State.ctxStreams_held (State.pitchWrite_held (State.setProvisional_held (State.setCommitted_held
      (Held.foldl (fun _ _ h => State.pageUp_held h) h1))))
    clear ht
    cases t1 with
    | none => exact HeldS.none
    | some t2 => exact HeldS.some (State.onSrv_held (h2 t2 rfl))

theorem State.dropCtx_held {s : State} {p : Nat} {ctx : Nat} (hk : Held q0 n0 c0 s) : Held q0 n0 c0 (State.dropCtx s p ctx) := by
  unfold State.dropCtx
  with_reducible repeat' first
    | assumption | apply State.pageDown_held | apply State.setPageCount_held | apply State.onSrv_held
    | refine Held.foldl (fun _ _ _ => ?_) ?_ | split

theorem State.setEntry_held {s : State} {p : Nat} {ctx : Nat} {stream : Nat} {i : Nat} {g : Nat} (hk : Held q0 n0 c0 s) : Held q0 n0 c0 (State.setEntry s p ctx stream i g) := by
  unfold State.setEntry
  with_reducible repeat' first | assumption | apply State.pitchWrite_held

theorem State.allocEntries_held : ∀ {es : List (Nat × Nat)} {s : State} {p ctx : Nat}, Held q0 n0 c0 s → Held q0 n0 c0 (State.allocEntries es s p ctx).2
  | [], _, _, _, hk => hk
  | (stream, i) :: es, s, p, ctx, hk => by
    unfold State.allocEntries
    split
    · split
      · next g t e => exact State.allocEntries_held (State.setEntry_held (Held.of_pair e (State.takeRun_held hk)))
      · exact hk
    · exact State.allocEntries_held hk

theorem State.allocFor_held {s : State} {p : Nat} {ctx : Nat} {first : Nat} {t : Nat} (hk : Held q0 n0 c0 s) : Held q0 n0 c0 (State.allocFor s p ctx first t).2 := by
  unfold State.allocFor
  with_reducible repeat' first | assumption | apply State.allocEntries_held

theorem State.copyPage_held {s : State} {p : Nat} {a : Nat} {b : Nat} (hk : Held q0 n0 c0 s) : Held q0 n0 c0 (State.copyPage s p a b) := by
  unfold State.copyPage
  with_reducible repeat' first | assumption | apply State.pitchWrite_held

theorem State.pageCopy_held {s : State} {p : Nat} {ctx : Nat} {stream : Nat} {i : Nat} {sel : Option Nat} (hk : Held q0 n0 c0 s) : Held q0 n0 c0 (State.pageCopy s p ctx stream i sel) := by
  unfold State.pageCopy
  extract_lets l0
  try clear_value l0
  with_reducible repeat' first
    | assumption | apply State.takeRun_held | apply State.copyPage_held | apply State.setEntry_held | apply State.pageDown_held
    | apply State.pitchWrite_held | refine Held.ite ?_ ?_ | refine Held.foldl (fun _ _ _ => ?_) ?_
    | refine Held.of_pair (by assumption) ?_ | split

theorem execPageCopy_held {pitch : Nat} {ctx : Nat} {stream : Nat} {i : Nat} {sel : Option Nat} {s : State} (hk : Held q0 n0 c0 s) : HeldO q0 n0 c0 (execPageCopy pitch ctx stream i sel s) := by
  unfold execPageCopy
  with_reducible repeat' first | assumption | apply State.pageCopy_held | refine HeldO.within ?_

end Sys2Proof.Machine
end

