-- ==== Sys2Proof/Laws/HeldRequests.lean ====
section
/-!
SUPPORT. That the operations of Machine/Requests.lean touch neither the queue nor the clock, and keep the tables canonical.
-/

namespace Sys2Proof.Machine

variable {q0 : List Instr} {n0 c0 : Nat}

theorem State.refuse_held {s : State} {p : Nat} {q : Nat} {tag : Nat} {status : Nat} (hk : Held q0 n0 c0 s) : Held q0 n0 c0 (State.refuse s p q tag status) := by
  unfold State.refuse
  with_reducible repeat' first | assumption | apply State.onCounts_held | apply State.postEntry_held

theorem State.removeReq_held {s : State} {p : Nat} {tag : Nat} (hk : Held q0 n0 c0 s) : Held q0 n0 c0 (State.removeReq s p tag) := by
  unfold State.removeReq
  with_reducible repeat' first | assumption | apply State.dropCtx_held | apply State.onSrv_held | split

theorem State.endReq_held {s : State} {p : Nat} {tag : Nat} {status : Nat} (hk : Held q0 n0 c0 s) : Held q0 n0 c0 (State.endReq s p tag status) := by
  unfold State.endReq
  with_reducible repeat' first
    | assumption | apply State.postEntry_held | apply State.onCounts_held | apply State.removeReq_held | refine Held.ite ?_ ?_
    | split

theorem State.accept_held {s : State} {p : Nat} {q : Nat} {sub : Submission} (hk : Held q0 n0 c0 s) : Held q0 n0 c0 (State.accept s p q sub) := by
  unfold State.accept
  extract_lets l0 l1 l2 l3 l4 l5
  try clear_value l0
  try clear_value l1
  try clear_value l2
  try clear_value l3
  have hl4 : Held q0 n0 c0 l4 := by
    unfold l4
    with_reducible repeat' first | assumption | apply State.onSrv_held
  try clear_value l4
  have hl5 : Held q0 n0 c0 l5 := by
    unfold l5
    with_reducible repeat' first | assumption | apply State.sendMsg_held | refine Held.ite ?_ ?_
  try clear_value l5
  with_reducible repeat' first | assumption | apply State.endReq_held | refine Held.ite ?_ ?_

theorem State.submit_held {s : State} {q : Nat} (hk : Held q0 n0 c0 s) : Held q0 n0 c0 (State.submit s q) := by
  unfold State.submit
  extract_lets l0 l1 l2
  try clear_value l0
  try clear_value l1
  try clear_value l2
  with_reducible repeat' first
    | assumption | apply State.setQueue_held | apply State.onCounts_held | apply State.refuse_held | apply State.accept_held
    | refine Held.ite ?_ ?_ | split | fail_if_no_progress extract_lets

theorem State.msgIn_held {s : State} (hk : Held q0 n0 c0 s) : Held q0 n0 c0 (State.msgIn s) := by
  unfold State.msgIn
  with_reducible repeat' first | assumption | apply State.raiseBoth_held

theorem State.register_held {s : State} {p : Nat} {tag : Nat} {customer : Nat} {promptLen : Nat} {maxNew : Nat} (hk : Held q0 n0 c0 s) : Held q0 n0 c0 (State.register s p tag customer promptLen maxNew) := by
  unfold State.register
  extract_lets l0 l1
  have hl0 : Held q0 n0 c0 l0 := by
    unfold l0
    with_reducible repeat' first | assumption | apply State.msgIn_held
  try clear_value l0
  try clear_value l1
  with_reducible repeat' first | assumption | apply State.onSrv_held | apply State.endReq_held | refine Held.ite ?_ ?_ | split

theorem State.partnerTimeout_held {s : State} {p : Nat} {tag : Nat} (hk : Held q0 n0 c0 s) : Held q0 n0 c0 (State.partnerTimeout s p tag) := by
  unfold State.partnerTimeout
  with_reducible repeat' first | assumption | apply State.endReq_held | refine Held.ite ?_ ?_ | split

theorem State.cancelHere_held {s : State} {p : Nat} {tag : Nat} (hk : Held q0 n0 c0 s) : Held q0 n0 c0 (State.cancelHere s p tag) := by
  unfold State.cancelHere
  with_reducible repeat' first | assumption | apply State.onCounts_held | apply State.onSrv_held | refine Held.ite ?_ ?_

theorem State.cancelReq_held {s : State} {p : Nat} {tag : Nat} (hk : Held q0 n0 c0 s) : Held q0 n0 c0 (State.cancelReq s p tag) := by
  unfold State.cancelReq
  with_reducible repeat' first
    | assumption | apply State.cancelHere_held | apply State.sendMsg_held | refine Held.ite ?_ ?_ | split

theorem State.queueDrain_held {s : State} {path : Path} (hk : Held q0 n0 c0 s) : Held q0 n0 c0 (State.queueDrain s path) := by
  unfold State.queueDrain
  extract_lets l0 l1
  have hl0 : Held q0 n0 c0 l0.2 := by
    unfold l0
    with_reducible repeat' first | assumption | apply State.ownWrite_held
  try clear_value l0
  have hl1 : Held q0 n0 c0 l1 := by
    unfold l1
    with_reducible repeat' assumption
  try clear_value l1
  with_reducible repeat' first
    | assumption | apply State.setFld_held | apply State.countQueues_held | apply State.cancelReq_held | refine Held.ite ?_ ?_
    | refine Held.foldl (fun _ _ _ => ?_) ?_ | split

theorem State.promptFails_held {s : State} {p : Nat} {tag : Nat} {kind : Nat} (hk : Held q0 n0 c0 s) : Held q0 n0 c0 (State.promptFails s p tag kind) := by
  unfold State.promptFails
  with_reducible repeat' first | assumption | apply State.onSrv_held | apply State.postTo_held | refine Held.ite ?_ ?_ | split

theorem State.hostReadFails_held {s : State} {r : HostRead} {kind : Nat} (hk : Held q0 n0 c0 s) : Held q0 n0 c0 (State.hostReadFails s r kind) := by
  unfold State.hostReadFails
  extract_lets l0
  have hl0 : Held q0 n0 c0 l0 := by
    unfold l0
    with_reducible repeat' first | assumption | apply State.count_held | refine Held.ite ?_ ?_
  try clear_value l0
  with_reducible repeat' first
    | assumption | apply State.setQueue_held | apply State.queueError_held | apply State.promptFails_held
    | refine Held.ite ?_ ?_ | split

theorem execSubmit_held {q : Nat} {s : State} (hk : Held q0 n0 c0 s) : HeldO q0 n0 c0 (execSubmit q s) := by
  unfold execSubmit
  with_reducible repeat' first | assumption | apply State.submit_held | refine HeldO.within ?_

theorem execRegister_held {pitch : Nat} {tag : Nat} {customer : Nat} {promptLen : Nat} {maxNew : Nat} {s : State} (hk : Held q0 n0 c0 s) : HeldO q0 n0 c0 (execRegister pitch tag customer promptLen maxNew s) := by
  unfold execRegister
  with_reducible repeat' first | assumption | apply State.register_held | refine HeldO.within ?_

theorem execPartnerTimeout_held {pitch : Nat} {tag : Nat} {s : State} (hk : Held q0 n0 c0 s) : HeldO q0 n0 c0 (execPartnerTimeout pitch tag s) := by
  unfold execPartnerTimeout
  with_reducible repeat' first | assumption | apply State.partnerTimeout_held | refine HeldO.within ?_

theorem execCancel_held {c : Mgmt} {tag : Nat} {s : State} (hk : Held q0 n0 c0 s) : HeldO q0 n0 c0 (execCancel c tag s) := by
  unfold execCancel
  with_reducible repeat' first
    | assumption | apply State.mgmt_held | apply State.cancelReq_held | apply State.answer_held | refine HeldO.within ?_
    | intro _

theorem execCancelMessage_held {pitch : Nat} {tag : Nat} {s : State} (hk : Held q0 n0 c0 s) : HeldO q0 n0 c0 (execCancelMessage pitch tag s) := by
  unfold execCancelMessage
  with_reducible repeat' first | assumption | apply State.msgIn_held | apply State.cancelHere_held | refine HeldO.within ?_

theorem execQueueDrain_held {path : Path} {s : State} (hk : Held q0 n0 c0 s) : HeldO q0 n0 c0 (execQueueDrain path s) := by
  unfold execQueueDrain
  with_reducible repeat' first | assumption | apply State.queueDrain_held | refine HeldO.within ?_

theorem execCompletionTimeout_held {read : HostRead} {kind : Nat} {s : State} (hk : Held q0 n0 c0 s) : HeldO q0 n0 c0 (execCompletionTimeout read kind s) := by
  unfold execCompletionTimeout
  with_reducible repeat' first | assumption | apply State.hostReadFails_held | refine HeldO.within ?_

end Sys2Proof.Machine
end

