-- ==== Sys2Proof/Laws/HeldBinding.lean ====
section
/-!
SUPPORT. That the operations of Machine/Binding.lean touch neither the queue nor the clock, and keep the tables canonical.
-/

namespace Sys2Proof.Machine

variable {q0 : List Instr} {n0 c0 : Nat}

theorem State.placeBind_held {s : State} {p : Nat} {b : Bind} (hk : Held q0 n0 c0 s) : Held q0 n0 c0 (State.placeBind s p b).1 := by
  unfold State.placeBind
  extract_lets l0 l1 l2 l3 l4 l5
  try clear_value l0
  try clear_value l1
  have hl2 : Held q0 n0 c0 l2 := by
    unfold l2
    with_reducible repeat' first | assumption | apply State.makeCtx_held | refine Held.ite ?_ ?_ | refine HeldS.getD ?_ ?_
  try clear_value l2
  try clear_value l3
  have hl4 : Held q0 n0 c0 l4.2 := by
    unfold l4
    with_reducible repeat' first | assumption | apply State.allocFor_held | split
  try clear_value l4
  have hl5 : Held q0 n0 c0 l5 := by
    unfold l5
    with_reducible repeat' first | assumption | apply State.onCounts_held
  try clear_value l5
  with_reducible repeat' first | assumption | apply State.withholdNotice_held | split

theorem State.placeBinds_held {s : State} {p : Nat} {bs : List Bind} (hk : Held q0 n0 c0 s) : Held q0 n0 c0 (s.placeBinds p bs).1 := by
  have h : ∀ (l : List Bind) (a : State × List Bind), Held q0 n0 c0 a.1 →
      Held q0 n0 c0 (l.foldl (fun (a : State × List Bind) b => let r := a.1.placeBind p b; (r.1, a.2 ++ [r.2])) a).1 := by
    intro l
    induction l with
    | nil => intro a h; exact h
    | cons b l ih => intro a h; exact ih _ (State.placeBind_held h)
  exact h bs (s, []) hk

theorem State.takeNotice_held {s : State} {p : Nat} {frame : Nat} {bs : List Bind} {wm : List (Nat × Nat)} (hk : Held q0 n0 c0 s) : Held q0 n0 c0 (State.takeNotice s p frame bs wm) := by
  unfold State.takeNotice
  extract_lets l0
  have hl0 : Held q0 n0 c0 l0.1 := by
    unfold l0
    with_reducible repeat' first | assumption | apply State.onSrv_held | apply State.placeBinds_held
  try clear_value l0
  with_reducible repeat' first | assumption | apply State.onSrv_held

theorem State.selection_held {s : State} {p : Nat} (hk : Held q0 n0 c0 s) : Held q0 n0 c0 (State.selection s p) := by
  unfold State.selection
  extract_lets l0 l1 l2 l3 l4 l5
  try clear_value l0
  try clear_value l1
  have hl2 : Held q0 n0 c0 l2 := by
    unfold l2
    with_reducible repeat' first | assumption | apply State.count_held
  try clear_value l2
  have hl3 : Held q0 n0 c0 l3 := by
    unfold l3
    with_reducible repeat' first | assumption | apply State.onSrv_held
  try clear_value l3
  try clear_value l4
  have hl5 : Held q0 n0 c0 l5 := by
    unfold l5
    with_reducible repeat' first | assumption | apply State.sendMsg_held | refine Held.foldl (fun _ _ _ => ?_) ?_
  try clear_value l5
  with_reducible repeat' first | assumption | apply State.takeNotice_held | refine Held.ite ?_ ?_

theorem State.notice_held {s : State} {p : Nat} {frame : Nat} {bs : List Bind} {wm : List (Nat × Nat)} (hk : Held q0 n0 c0 s) : Held q0 n0 c0 (State.notice s p frame bs wm) := by
  unfold State.notice
  extract_lets l0
  have hl0 : Held q0 n0 c0 l0 := by
    unfold l0
    with_reducible repeat' first | assumption | apply State.msgIn_held
  try clear_value l0
  with_reducible repeat' first | assumption | apply State.takeNotice_held | refine Held.ite ?_ ?_

theorem State.exitReport_held {s : State} {p : Nat} {frame : Nat} {items : List ExitItem} (hk : Held q0 n0 c0 s) : Held q0 n0 c0 (State.exitReport s p frame items) := by
  unfold State.exitReport
  extract_lets l0
  have hl0 : Held q0 n0 c0 l0 := by
    unfold l0
    with_reducible repeat' first | assumption | apply State.msgIn_held
  try clear_value l0
  with_reducible repeat' first | assumption | apply State.onSrv_held | refine Held.ite ?_ ?_

theorem execBindingSelection_held {pitch : Nat} {s : State} (hk : Held q0 n0 c0 s) : HeldO q0 n0 c0 (execBindingSelection pitch s) := by
  unfold execBindingSelection
  with_reducible repeat' first | assumption | apply State.selection_held | refine HeldO.within ?_

theorem execBindingNotice_held {pitch : Nat} {frame : Nat} {binds : List Bind} {handles : List (Nat × Nat)} {s : State} (hk : Held q0 n0 c0 s) : HeldO q0 n0 c0 (execBindingNotice pitch frame binds handles s) := by
  unfold execBindingNotice
  with_reducible repeat' first | assumption | apply State.notice_held | refine HeldO.within ?_

theorem execExitReport_held {pitch : Nat} {frame : Nat} {items : List ExitItem} {s : State} (hk : Held q0 n0 c0 s) : HeldO q0 n0 c0 (execExitReport pitch frame items s) := by
  unfold execExitReport
  with_reducible repeat' first | assumption | apply State.exitReport_held | refine HeldO.within ?_

end Sys2Proof.Machine
end

