-- ==== Sys2Proof/Laws/HeldEngine.lean ====
section
/-!
SUPPORT. That the operations of Machine/Engine.lean touch neither the queue nor the clock, and keep the tables canonical.
-/

namespace Sys2Proof.Machine

variable {q0 : List Instr} {n0 c0 : Nat}

theorem State.setEngine_held {s : State} {e : SigEngine} (hk : Held q0 n0 c0 s) : Held q0 n0 c0 (State.setEngine s e) := by
  unfold State.setEngine
  extract_lets l0
  try clear_value l0
  with_reducible repeat' first | assumption | apply State.setFld_held | fail_if_no_progress refine Held.same ?_

theorem State.engineAsk_held {s : State} {r : SigReq} (hk : Held q0 n0 c0 s) : Held q0 n0 c0 (State.engineAsk s r) := by
  unfold State.engineAsk
  extract_lets l0
  try clear_value l0
  with_reducible repeat' first | assumption | apply State.setEngine_held

theorem State.engineAnswer_held {s : State} {r : SigReq} {k : Nat} {t : State} (hk : Held q0 n0 c0 s) (e : s.engineAnswer = some (r, k, t)) : Held q0 n0 c0 t := by
  unfold State.engineAnswer at e
  split at e
  · cases e
  · split at e
    · cases e
    · cases e
      exact Held.ite (State.setFld_held (State.count_held (State.setEngine_held hk))) (State.count_held (State.setFld_held (State.count_held (State.setEngine_held hk))))

end Sys2Proof.Machine
end

