-- ==== Sys2Proof/Laws/HeldSession.lean ====
section
/-!
SUPPORT. That the operations of Machine/Session.lean touch neither the queue nor the clock, and keep the tables canonical.
-/

namespace Sys2Proof.Machine

variable {q0 : List Instr} {n0 c0 : Nat}

theorem State.onSec_held {s : State} {f : SecSt → SecSt} (hk : Held q0 n0 c0 s) : Held q0 n0 c0 (State.onSec s f) := by
  unfold State.onSec
  with_reducible repeat' first | assumption | fail_if_no_progress refine Held.same ?_

theorem State.sessionAbort_held {s : State} (hk : Held q0 n0 c0 s) : Held q0 n0 c0 (State.sessionAbort s) := by
  unfold State.sessionAbort
  extract_lets l0 l1
  have hl0 : Held q0 n0 c0 l0 := by
    unfold l0
    with_reducible repeat' first | assumption | apply State.count_held | apply State.setFld_held
  try clear_value l0
  have hl1 : Held q0 n0 c0 l1 := by
    unfold l1
    with_reducible repeat' first
      | assumption | apply State.onSec_held | apply State.auditDone_held | apply State.respond_held | refine Held.ite ?_ ?_
      | split
  try clear_value l1
  with_reducible repeat' first | assumption | apply State.setFld_held | apply State.onSec_held | refine Held.ite ?_ ?_

end Sys2Proof.Machine
end

