-- ==== Sys2Proof/Laws/HeldFwImage.lean ====
section
/-!
SUPPORT. That the operations of Machine/FwImage.lean touch neither the queue nor the clock, and keep the tables canonical.
-/

namespace Sys2Proof.Machine

variable {q0 : List Instr} {n0 c0 : Nat}

theorem State.setBoth_held {s : State} {f : Fld} {v : Nat} {i : Nat} (hk : Held q0 n0 c0 s) : Held q0 n0 c0 (State.setBoth s f v i) := by
  unfold State.setBoth
  with_reducible repeat' first | assumption | apply State.setFld_held | apply State.setVfld_held

end Sys2Proof.Machine
end

