-- ==== Sys2Proof/Laws/HeldLeg.lean ====
section
/-!
SUPPORT. That the operations of Machine/Leg.lean touch neither the queue nor the clock, and keep the tables canonical.
-/

namespace Sys2Proof.Machine

variable {q0 : List Instr} {n0 c0 : Nat}

theorem State.setRun_held {s : State} {site : Nat} {r : Option LegRun} (hk : Held q0 n0 c0 s) : Held q0 n0 c0 (State.setRun s site r) := by
  unfold State.setRun
  extract_lets l0
  try clear_value l0
  with_reducible repeat' first | assumption | apply State.setCore_held

theorem State.onRun_held {s : State} {site : Nat} {f : LegRun → LegRun} (hk : Held q0 n0 c0 s) : Held q0 n0 c0 (State.onRun s site f) := by
  unfold State.onRun
  with_reducible repeat' first | assumption | apply State.setRun_held | split

theorem State.tasteCopy_held {s : State} {site : Nat} {idx : Nat} {buf : Nat} (hk : Held q0 n0 c0 s) : Held q0 n0 c0 (State.tasteCopy s site idx buf) := by
  unfold State.tasteCopy
  with_reducible repeat' first | assumption | apply State.setRun_held | apply State.setFld_held | refine Held.ite ?_ ?_ | split

theorem State.suppress_held {s : State} {site : Nat} {r : LegRun} {q : RunOp} (hk : Held q0 n0 c0 s) : Held q0 n0 c0 (State.suppress s site r q) := by
  unfold State.suppress
  extract_lets l0 l1 l2
  try clear_value l0
  try clear_value l1
  have hl2 : Held q0 n0 c0 l2 := by
    unfold l2
    with_reducible repeat' first | assumption | fail_if_no_progress refine Held.same ?_
  try clear_value l2
  with_reducible repeat' first | assumption | apply State.sendMsg_held | refine Held.ite ?_ ?_ | split

theorem State.startEffect_held {s : State} {site : Nat} {q : RunOp} (hk : Held q0 n0 c0 s) : Held q0 n0 c0 (State.startEffect s site q) := by
  unfold State.startEffect
  extract_lets l0
  try clear_value l0
  with_reducible repeat' first
    | assumption | apply State.setCore_held | apply State.opBarrier_held | apply State.opLoad_held
    | apply State.productStart_held | apply State.onRun_held | apply State.markSuspect_held | apply State.opAccumulate_held
    | apply State.opRotq_held | apply State.opMatmul_held | apply State.opVec_held | apply State.opSend_held
    | apply State.opMemRead_held | apply State.opMemWrite_held | apply State.opPortSend_held | refine Held.ite ?_ ?_ | split

theorem State.startOp_held {s : State} {site : Nat} {q : RunOp} (hk : Held q0 n0 c0 s) : Held q0 n0 c0 (State.startOp s site q) := by
  unfold State.startOp
  extract_lets l0 l1
  try clear_value l0
  try clear_value l1
  with_reducible repeat' first
    | assumption | apply State.setRun_held | apply State.hamperErrors_held | apply State.onRun_held | apply State.suppress_held
    | apply State.startEffect_held | refine Held.ite ?_ ?_ | split

theorem State.runWaiting_held : ∀ {k : Nat} {s : State} {sites : List Nat}, Held q0 n0 c0 s → Held q0 n0 c0 (State.runWaiting k s sites)
  | 0, _, _, hk => hk
  | _ + 1, _, [], hk => hk
  | k + 1, s, site :: rest, hk => by
    unfold State.runWaiting
    split
    · exact State.runWaiting_held hk
    · dsimp only
      split
      · exact State.runWaiting_held (State.startOp_held hk)
      · exact State.runWaiting_held (Held.foldl (fun _ _ h => Held.ite h (State.onRun_held (State.countLate_held h))) hk)

theorem State.restartAll_held {s : State} {sites : List Nat} (hk : Held q0 n0 c0 s) : Held q0 n0 c0 (State.restartAll s sites) := by
  unfold State.restartAll
  extract_lets l0
  try clear_value l0
  with_reducible repeat' first | assumption | apply State.runWaiting_held

theorem State.restart_held {s : State} {site : Nat} (hk : Held q0 n0 c0 s) : Held q0 n0 c0 (State.restart s site) := by
  unfold State.restart
  with_reducible repeat' first | assumption | apply State.restartAll_held

theorem State.issue_held {s : State} {core : Nat} {h : OpHdr} {e : OpEnv} {k : OpKind} (hk : Held q0 n0 c0 s) : Held q0 n0 c0 (State.issue s core h e k) := by
  unfold State.issue
  with_reducible repeat' first
    | assumption | apply State.setRun_held | apply State.ctrZero_held | apply State.setFld_held | apply State.restart_held
    | refine Held.ite ?_ ?_ | split

theorem State.endEffect_held {s : State} {site : Nat} {q : RunOp} (hk : Held q0 n0 c0 s) : Held q0 n0 c0 (State.endEffect s site q) := by
  unfold State.endEffect
  with_reducible repeat' first | assumption | apply State.loadDone_held | apply State.tasteCopy_held | split

theorem State.ownInc_held {s : State} {site : Nat} {q : RunOp} {inReplay : Bool} (hk : Held q0 n0 c0 s) : Held q0 n0 c0 (State.ownInc s site q inReplay) := by
  unfold State.ownInc
  with_reducible repeat' first | assumption | apply State.ctrInc_held | refine Held.ite ?_ ?_ | split

theorem State.complete_held {s : State} {site : Nat} {idx : Nat} (hk : Held q0 n0 c0 s) : Held q0 n0 c0 (State.complete s site idx) := by
  unfold State.complete
  with_reducible repeat' first
    | assumption | apply State.setRun_held | apply State.endEffect_held | apply State.ownInc_held | apply State.restart_held
    | refine Held.ite ?_ ?_ | split

theorem State.markDone_held {s : State} {site : Nat} {p : OpKind → Bool} (hk : Held q0 n0 c0 s) : Held q0 n0 c0 (State.markDone s site p) := by
  unfold State.markDone
  with_reducible repeat' first | assumption | apply State.onRun_held

theorem State.remoteInc_held {s : State} {core : Nat} {ctr : Nat} {inc : Nat} {frame : Nat} {pitch : Nat} (hk : Held q0 n0 c0 s) : Held q0 n0 c0 (State.remoteInc s core ctr inc frame pitch) := by
  unfold State.remoteInc
  with_reducible repeat' first
    | assumption | apply State.count_held | apply State.ctrInc_held | apply State.restart_held | refine Held.ite ?_ ?_ | split

theorem State.transferEnds_held {s : State} {idx : Nat} (hk : Held q0 n0 c0 s) : Held q0 n0 c0 (State.transferEnds s idx) := by
  unfold State.transferEnds
  extract_lets l0 l1
  try clear_value l0
  have hl1 : Held q0 n0 c0 l1 := by
    unfold l1
    with_reducible repeat' first | assumption | fail_if_no_progress refine Held.same ?_
  try clear_value l1
  with_reducible repeat' first
    | assumption | apply State.deliver_held | apply State.markDone_held | apply State.restart_held | apply State.remoteInc_held
    | refine Held.ite ?_ ?_ | split

theorem State.tasteChoose_held {s : State} {site : Nat} {ops : List Op} (hk : Held q0 n0 c0 s) : Held q0 n0 c0 (State.tasteChoose s site ops).1 := by
  unfold State.tasteChoose
  extract_lets l0 l1 l2 l3 l4 l5 l6 l7 l8 l9
  try clear_value l0
  try clear_value l1
  have hl2 : Held q0 n0 c0 l2 := by
    unfold l2
    with_reducible repeat' first | assumption | apply State.setCore_held
  try clear_value l2
  try clear_value l3
  try clear_value l4
  try clear_value l5
  try clear_value l6
  try clear_value l7
  try clear_value l8
  try clear_value l9
  with_reducible repeat' first | assumption | apply State.count_held | split

theorem State.beginLeg_held {s : State} {site : Nat} {idx : Nat} {leg : Leg} {replay : Option Nat} (hk : Held q0 n0 c0 s) : Held q0 n0 c0 (State.beginLeg s site idx leg replay) := by
  unfold State.beginLeg
  with_reducible repeat' first
    | assumption | apply State.tasteChoose_held | apply State.count_held | apply State.setRun_held | apply State.setFld_held
    | refine Held.ite ?_ ?_

theorem State.legStart_held {s : State} {core : Nat} (hk : Held q0 n0 c0 s) : Held q0 n0 c0 (State.legStart s core) := by
  unfold State.legStart
  with_reducible repeat' first
    | assumption | apply State.setCore_held | apply State.beginLeg_held | refine Held.ite ?_ ?_ | split
    | fail_if_no_progress extract_lets

theorem State.seqAfter_held {s : State} {site : Nat} {core : Nat} (hk : Held q0 n0 c0 s) : Held q0 n0 c0 (State.seqAfter s site core) := by
  unfold State.seqAfter
  with_reducible repeat' first | assumption | apply State.setFld_held

theorem State.finalReport_held {s : State} {core : Nat} {r : LegRun} (hk : Held q0 n0 c0 s) : Held q0 n0 c0 (State.finalReport s core r) := by
  unfold State.finalReport
  extract_lets l0
  try clear_value l0
  with_reducible repeat' first | assumption | fail_if_no_progress refine Held.same ?_ | refine Held.ite ?_ ?_

theorem State.closeLeg_held {s : State} {site : Nat} {core : Nat} (hk : Held q0 n0 c0 s) : Held q0 n0 c0 (State.closeLeg s site core) := by
  unfold State.closeLeg
  extract_lets l0
  have hl0 : Held q0 n0 c0 l0 := by
    unfold l0
    with_reducible repeat' first | assumption | apply State.flushGather_held
  try clear_value l0
  with_reducible repeat' first | assumption | apply State.setRun_held | apply State.setFld_held | apply State.seqAfter_held

theorem State.replayOutput_held {s : State} {site : Nat} {core : Nat} {r : LegRun} {asker : Nat} {unclean : Bool} (hk : Held q0 n0 c0 s) : Held q0 n0 c0 (State.replayOutput s site core r asker unclean) := by
  unfold State.replayOutput
  extract_lets l0 l1 l2 l3
  have hl0 : Held q0 n0 c0 l0 := by
    unfold l0
    with_reducible repeat' first | assumption | apply State.countReplay_held | refine Held.ite ?_ ?_
  try clear_value l0
  try clear_value l1
  try clear_value l2
  have hl3 : Held q0 n0 c0 l3 := by
    unfold l3
    with_reducible repeat' first | assumption | fail_if_no_progress refine Held.same ?_
  try clear_value l3
  with_reducible repeat' first | assumption | apply State.sendMsg_held | split

theorem State.legEnd_held {s : State} {core : Nat} (hk : Held q0 n0 c0 s) : Held q0 n0 c0 (State.legEnd s core) := by
  unfold State.legEnd
  with_reducible repeat' first
    | assumption | apply State.count_held | apply State.closeLeg_held | apply State.replayOutput_held
    | apply State.finalReport_held | fail_if_no_progress refine Held.same ?_ | refine Held.ite ?_ ?_ | split

theorem State.abandonProducts_held {s : State} {site : Nat} {r : LegRun} (hk : Held q0 n0 c0 s) : Held q0 n0 c0 (State.abandonProducts s site r) := by
  unfold State.abandonProducts
  with_reducible repeat' first
    | assumption | apply State.setArr_held | apply State.setFld_held | apply State.applyTrims_held
    | apply State.modeAfterProduct_held | refine Held.foldl (fun _ _ _ => ?_) ?_ | split

theorem State.stopLeg_held {s : State} {site : Nat} {core : Nat} (hk : Held q0 n0 c0 s) : Held q0 n0 c0 (State.stopLeg s site core) := by
  unfold State.stopLeg
  extract_lets l0
  have hl0 : Held q0 n0 c0 l0 := by
    unfold l0
    with_reducible repeat' first | assumption | apply State.markSuspect_held | apply State.count_held
  try clear_value l0
  with_reducible repeat' first
    | assumption | apply State.closeLeg_held | apply State.abandonProducts_held | apply State.replayOutput_held
    | apply State.finalReport_held | fail_if_no_progress refine Held.same ?_ | split | fail_if_no_progress extract_lets

theorem State.legOverrun_held {s : State} {core : Nat} (hk : Held q0 n0 c0 s) : Held q0 n0 c0 (State.legOverrun s core) := by
  unfold State.legOverrun
  with_reducible repeat' first | assumption | apply State.stopLeg_held | refine Held.ite ?_ ?_ | split

theorem State.monitor_held {s : State} {site : Nat} {arr : Nat} {acc : List Int} (hk : Held q0 n0 c0 s) : Held q0 n0 c0 (State.monitor s site arr acc) := by
  unfold State.monitor
  extract_lets l0 l1
  try clear_value l0
  try clear_value l1
  with_reducible repeat' first
    | assumption | apply State.setCore_held | apply State.unitError_held | apply State.count_held
    | apply State.markSuspect_held | refine Held.ite ?_ ?_ | refine Held.foldl (fun _ _ _ => ?_) ?_ | split
    | fail_if_no_progress extract_lets

theorem State.verdict_held {s : State} {site : Nat} {t : Tasting} {acc : List Int} {parity : Bool} (hk : Held q0 n0 c0 s) : Held q0 n0 c0 (State.verdict s site t acc parity) := by
  unfold State.verdict
  extract_lets l0 l1 l2 l3 l4 l5 l6 l7 l8 l9 l10 l11
  have hl0 : Held q0 n0 c0 l0 := by
    unfold l0
    with_reducible repeat' first | assumption | apply State.setFld_held
  try clear_value l0
  try clear_value l1
  have hl2 : Held q0 n0 c0 l2 := by
    unfold l2
    with_reducible repeat' first | assumption | apply State.setCore_held
  try clear_value l2
  have hl3 : Held q0 n0 c0 l3 := by
    unfold l3
    with_reducible repeat' first | assumption | apply State.setFld_held
  try clear_value l3
  try clear_value l4
  try clear_value l5
  have hl6 : Held q0 n0 c0 l6 := by
    unfold l6
    with_reducible repeat' first | assumption | apply State.count_held
  try clear_value l6
  have hl7 : Held q0 n0 c0 l7 := by
    unfold l7
    with_reducible repeat' first | assumption | apply State.setCore_held
  try clear_value l7
  try clear_value l8
  try clear_value l9
  have hl10 : Held q0 n0 c0 l10 := by
    unfold l10
    with_reducible repeat' first | assumption | apply State.setFld_held
  try clear_value l10
  have hl11 : Held q0 n0 c0 l11 := by
    unfold l11
    with_reducible repeat' first | assumption | apply State.setFld_held
  try clear_value l11
  with_reducible repeat' first
    | assumption | apply State.count_held | apply State.unitError_held | apply State.markSuspect_held | refine Held.ite ?_ ?_

theorem State.tasteEnd_held {s : State} {site : Nat} {arr : Nat} {acc : List Int} {parity : Bool} (hk : Held q0 n0 c0 s) : Held q0 n0 c0 (State.tasteEnd s site arr acc parity) := by
  unfold State.tasteEnd
  with_reducible repeat' first | assumption | apply State.onRun_held | apply State.verdict_held | refine Held.ite ?_ ?_ | split

theorem State.productEnd_held {s : State} {a : Nat} {dev : List (Nat × Int)} {parity : Bool} (hk : Held q0 n0 c0 s) : Held q0 n0 c0 (State.productEnd s a dev parity) := by
  unfold State.productEnd
  extract_lets l0 l1
  try clear_value l0
  try clear_value l1
  with_reducible repeat' first
    | assumption | apply State.setArr_held | apply State.setFld_held | apply State.applyTrims_held
    | apply State.modeAfterProduct_held | apply State.count_held | apply State.tasteEnd_held | apply State.monitor_held
    | apply State.markDone_held | apply State.restart_held | refine Held.ite ?_ ?_ | split

theorem State.gatherIdle_held {s : State} {site : Nat} {line : Nat} (hk : Held q0 n0 c0 s) : Held q0 n0 c0 (State.gatherIdle s site line) := by
  unfold State.gatherIdle
  with_reducible repeat' first | assumption | apply State.flushGather_held

/-- The clock runs on: one nanosecond, and the cycles of a running core clock. -/
theorem State.tick_held {s : State} (hk : Held q0 n0 c0 s) : ∃ c, Held q0 (n0 + 1) (c0 + c) s.tick := by
  unfold State.tick
  extract_lets f t w
  refine ⟨f, State.restartAll_held ?_⟩
  exact { hk with clock := by rw [← hk.clock], cycles := by rw [← hk.cycles] }

theorem execNop_held {core : Nat} {h : OpHdr} {s : State} (hk : Held q0 n0 c0 s) : HeldO q0 n0 c0 (execNop core h s) := by
  unfold execNop
  with_reducible repeat' first | assumption | apply State.issue_held | refine HeldO.within ?_

theorem execResetCtr_held {core : Nat} {h : OpHdr} {ctr : Nat} {s : State} (hk : Held q0 n0 c0 s) : HeldO q0 n0 c0 (execResetCtr core h ctr s) := by
  unfold execResetCtr
  with_reducible repeat' first | assumption | apply State.issue_held | refine HeldO.within ?_

theorem execFlip_held {core : Nat} {h : OpHdr} {tile : Nat} {s : State} (hk : Held q0 n0 c0 s) : HeldO q0 n0 c0 (execFlip core h tile s) := by
  unfold execFlip
  with_reducible repeat' first | assumption | apply State.issue_held | refine HeldO.within ?_

theorem execBarrier_held {core : Nat} {h : OpHdr} {id : Nat} {participants : Nat} {s : State} (hk : Held q0 n0 c0 s) : HeldO q0 n0 c0 (execBarrier core h id participants s) := by
  unfold execBarrier
  with_reducible repeat' first | assumption | apply State.issue_held | refine HeldO.within ?_

theorem execArrayInputLoad_held {core : Nat} {h : OpHdr} {e : OpEnv} {mask : Nat} {fmt : Fmt} {buf : Nat} {elems : Nat} {scales : Nat} {ref : Nat} {count : Nat} {s : State} (hk : Held q0 n0 c0 s) : HeldO q0 n0 c0 (execArrayInputLoad core h e mask fmt buf elems scales ref count s) := by
  unfold execArrayInputLoad
  with_reducible repeat' first | assumption | apply State.issue_held | refine HeldO.within ?_

theorem execProduct_held {core : Nat} {h : OpHdr} {arr : Nat} {buf : Nat} {k : Nat} {bank : Nat} {s : State} (hk : Held q0 n0 c0 s) : HeldO q0 n0 c0 (execProduct core h arr buf k bank s) := by
  unfold execProduct
  with_reducible repeat' first | assumption | apply State.issue_held | refine HeldO.within ?_

theorem execProductEnd_held {arr : Nat} {dev : List (Nat × Int)} {parity : Bool} {s : State} (hk : Held q0 n0 c0 s) : HeldO q0 n0 c0 (execProductEnd arr dev parity s) := by
  unfold execProductEnd
  with_reducible repeat' first | assumption | apply State.productEnd_held | refine HeldO.within ?_

theorem execAccumulate_held {core : Nat} {h : OpHdr} {e : OpEnv} {chains : Nat} {bf16 : Bool} {table : Nat} {s : State} (hk : Held q0 n0 c0 s) : HeldO q0 n0 c0 (execAccumulate core h e chains bf16 table s) := by
  unfold execAccumulate
  with_reducible repeat' first | assumption | apply State.issue_held | refine HeldO.within ?_

theorem execRotq_held {core : Nat} {h : OpHdr} {e : OpEnv} {m : Nat} {mode : Nat} {fmt : Fmt} {inBf16 : Bool} {seed : Nat} {src : Nat} {dst : Nat} {len : Nat} {s : State} (hk : Held q0 n0 c0 s) : HeldO q0 n0 c0 (execRotq core h e m mode fmt inBf16 seed src dst len s) := by
  unfold execRotq
  with_reducible repeat' first | assumption | apply State.issue_held | refine HeldO.within ?_

theorem execMatmul_held {core : Nat} {h : OpHdr} {e : OpEnv} {x : Nat} {y : Nat} {z : Nat} {m : Nat} {n : Nat} {k32 : Nat} {flags : Nat} {s : State} (hk : Held q0 n0 c0 s) : HeldO q0 n0 c0 (execMatmul core h e x y z m n k32 flags s) := by
  unfold execMatmul
  with_reducible repeat' first | assumption | apply State.issue_held | refine HeldO.within ?_

theorem execVecAdd_held {core : Nat} {h : OpHdr} {e : OpEnv} {flags : Nat} {k : Nat} {a : Nat} {b : Nat} {dst : Nat} {len : Nat} {s : State} (hk : Held q0 n0 c0 s) : HeldO q0 n0 c0 (execVecAdd core h e flags k a b dst len s) := by
  unfold execVecAdd
  with_reducible repeat' first | assumption | apply State.issue_held | refine HeldO.within ?_

theorem execVecSubtract_held {core : Nat} {h : OpHdr} {e : OpEnv} {flags : Nat} {k : Nat} {a : Nat} {b : Nat} {dst : Nat} {len : Nat} {s : State} (hk : Held q0 n0 c0 s) : HeldO q0 n0 c0 (execVecSubtract core h e flags k a b dst len s) := by
  unfold execVecSubtract
  with_reducible repeat' first | assumption | apply State.issue_held | refine HeldO.within ?_

theorem execVecMultiply_held {core : Nat} {h : OpHdr} {e : OpEnv} {flags : Nat} {k : Nat} {a : Nat} {b : Nat} {dst : Nat} {len : Nat} {s : State} (hk : Held q0 n0 c0 s) : HeldO q0 n0 c0 (execVecMultiply core h e flags k a b dst len s) := by
  unfold execVecMultiply
  with_reducible repeat' first | assumption | apply State.issue_held | refine HeldO.within ?_

theorem execVecFma_held {core : Nat} {h : OpHdr} {e : OpEnv} {flags : Nat} {k : Nat} {a : Nat} {b : Nat} {dst : Nat} {len : Nat} {s : State} (hk : Held q0 n0 c0 s) : HeldO q0 n0 c0 (execVecFma core h e flags k a b dst len s) := by
  unfold execVecFma
  with_reducible repeat' first | assumption | apply State.issue_held | refine HeldO.within ?_

theorem execVecMinimum_held {core : Nat} {h : OpHdr} {e : OpEnv} {flags : Nat} {k : Nat} {a : Nat} {b : Nat} {dst : Nat} {len : Nat} {s : State} (hk : Held q0 n0 c0 s) : HeldO q0 n0 c0 (execVecMinimum core h e flags k a b dst len s) := by
  unfold execVecMinimum
  with_reducible repeat' first | assumption | apply State.issue_held | refine HeldO.within ?_

theorem execVecMaximum_held {core : Nat} {h : OpHdr} {e : OpEnv} {flags : Nat} {k : Nat} {a : Nat} {b : Nat} {dst : Nat} {len : Nat} {s : State} (hk : Held q0 n0 c0 s) : HeldO q0 n0 c0 (execVecMaximum core h e flags k a b dst len s) := by
  unfold execVecMaximum
  with_reducible repeat' first | assumption | apply State.issue_held | refine HeldO.within ?_

theorem execVecScale_held {core : Nat} {h : OpHdr} {e : OpEnv} {flags : Nat} {k : Nat} {a : Nat} {b : Nat} {dst : Nat} {len : Nat} {s : State} (hk : Held q0 n0 c0 s) : HeldO q0 n0 c0 (execVecScale core h e flags k a b dst len s) := by
  unfold execVecScale
  with_reducible repeat' first | assumption | apply State.issue_held | refine HeldO.within ?_

theorem execVecCompare_held {core : Nat} {h : OpHdr} {e : OpEnv} {flags : Nat} {k : Nat} {a : Nat} {b : Nat} {dst : Nat} {len : Nat} {s : State} (hk : Held q0 n0 c0 s) : HeldO q0 n0 c0 (execVecCompare core h e flags k a b dst len s) := by
  unfold execVecCompare
  with_reducible repeat' first | assumption | apply State.issue_held | refine HeldO.within ?_

theorem execVecSelect_held {core : Nat} {h : OpHdr} {e : OpEnv} {flags : Nat} {k : Nat} {a : Nat} {b : Nat} {dst : Nat} {len : Nat} {s : State} (hk : Held q0 n0 c0 s) : HeldO q0 n0 c0 (execVecSelect core h e flags k a b dst len s) := by
  unfold execVecSelect
  with_reducible repeat' first | assumption | apply State.issue_held | refine HeldO.within ?_

theorem execVecConvert_held {core : Nat} {h : OpHdr} {e : OpEnv} {flags : Nat} {k : Nat} {a : Nat} {b : Nat} {dst : Nat} {len : Nat} {s : State} (hk : Held q0 n0 c0 s) : HeldO q0 n0 c0 (execVecConvert core h e flags k a b dst len s) := by
  unfold execVecConvert
  with_reducible repeat' first | assumption | apply State.issue_held | refine HeldO.within ?_

theorem execVecReciprocal_held {core : Nat} {h : OpHdr} {e : OpEnv} {flags : Nat} {k : Nat} {a : Nat} {b : Nat} {dst : Nat} {len : Nat} {s : State} (hk : Held q0 n0 c0 s) : HeldO q0 n0 c0 (execVecReciprocal core h e flags k a b dst len s) := by
  unfold execVecReciprocal
  with_reducible repeat' first | assumption | apply State.issue_held | refine HeldO.within ?_

theorem execVecRsqrt_held {core : Nat} {h : OpHdr} {e : OpEnv} {flags : Nat} {k : Nat} {a : Nat} {b : Nat} {dst : Nat} {len : Nat} {s : State} (hk : Held q0 n0 c0 s) : HeldO q0 n0 c0 (execVecRsqrt core h e flags k a b dst len s) := by
  unfold execVecRsqrt
  with_reducible repeat' first | assumption | apply State.issue_held | refine HeldO.within ?_

theorem execVecExp2_held {core : Nat} {h : OpHdr} {e : OpEnv} {flags : Nat} {k : Nat} {a : Nat} {b : Nat} {dst : Nat} {len : Nat} {s : State} (hk : Held q0 n0 c0 s) : HeldO q0 n0 c0 (execVecExp2 core h e flags k a b dst len s) := by
  unfold execVecExp2
  with_reducible repeat' first | assumption | apply State.issue_held | refine HeldO.within ?_

theorem execVecLog2_held {core : Nat} {h : OpHdr} {e : OpEnv} {flags : Nat} {k : Nat} {a : Nat} {b : Nat} {dst : Nat} {len : Nat} {s : State} (hk : Held q0 n0 c0 s) : HeldO q0 n0 c0 (execVecLog2 core h e flags k a b dst len s) := by
  unfold execVecLog2
  with_reducible repeat' first | assumption | apply State.issue_held | refine HeldO.within ?_

theorem execVecSum_held {core : Nat} {h : OpHdr} {e : OpEnv} {flags : Nat} {k : Nat} {a : Nat} {b : Nat} {dst : Nat} {len : Nat} {s : State} (hk : Held q0 n0 c0 s) : HeldO q0 n0 c0 (execVecSum core h e flags k a b dst len s) := by
  unfold execVecSum
  with_reducible repeat' first | assumption | apply State.issue_held | refine HeldO.within ?_

theorem execVecMaxReduction_held {core : Nat} {h : OpHdr} {e : OpEnv} {flags : Nat} {k : Nat} {a : Nat} {b : Nat} {dst : Nat} {len : Nat} {s : State} (hk : Held q0 n0 c0 s) : HeldO q0 n0 c0 (execVecMaxReduction core h e flags k a b dst len s) := by
  unfold execVecMaxReduction
  with_reducible repeat' first | assumption | apply State.issue_held | refine HeldO.within ?_

theorem execVecTopK_held {core : Nat} {h : OpHdr} {e : OpEnv} {flags : Nat} {k : Nat} {a : Nat} {b : Nat} {dst : Nat} {len : Nat} {s : State} (hk : Held q0 n0 c0 s) : HeldO q0 n0 c0 (execVecTopK core h e flags k a b dst len s) := by
  unfold execVecTopK
  with_reducible repeat' first | assumption | apply State.issue_held | refine HeldO.within ?_

theorem execSend_held {core : Nat} {h : OpHdr} {e : OpEnv} {dest : Nat} {ctr : Option Nat} {src : Nat} {dst : Nat} {bytes : Nat} {s : State} (hk : Held q0 n0 c0 s) : HeldO q0 n0 c0 (execSend core h e dest ctr src dst bytes s) := by
  unfold execSend
  with_reducible repeat' first | assumption | apply State.issue_held | refine HeldO.within ?_

theorem execMemRead_held {core : Nat} {h : OpHdr} {e : OpEnv} {stream : Nat} {addr : Nat} {bytes : Nat} {token : Nat} {s : State} (hk : Held q0 n0 c0 s) : HeldO q0 n0 c0 (execMemRead core h e stream addr bytes token s) := by
  unfold execMemRead
  with_reducible repeat' first | assumption | apply State.issue_held | refine HeldO.within ?_

theorem execMemWrite_held {core : Nat} {h : OpHdr} {e : OpEnv} {stream : Nat} {addr : Nat} {bytes : Nat} {token : Nat} {s : State} (hk : Held q0 n0 c0 s) : HeldO q0 n0 c0 (execMemWrite core h e stream addr bytes token s) := by
  unfold execMemWrite
  with_reducible repeat' first | assumption | apply State.issue_held | refine HeldO.within ?_

theorem execPortSend_held {core : Nat} {h : OpHdr} {e : OpEnv} {port : Nat} {cls : Nat} {part : Nat} {dest : Nat} {ctr : Option Nat} {src : Nat} {dst : Nat} {bytes : Nat} {s : State} (hk : Held q0 n0 c0 s) : HeldO q0 n0 c0 (execPortSend core h e port cls part dest ctr src dst bytes s) := by
  unfold execPortSend
  with_reducible repeat' first | assumption | apply State.issue_held | refine HeldO.within ?_

theorem execOperationComplete_held {core : Nat} {idx : Nat} {s : State} (hk : Held q0 n0 c0 s) : HeldO q0 n0 c0 (execOperationComplete core idx s) := by
  unfold execOperationComplete
  with_reducible repeat' first | assumption | apply State.complete_held | refine HeldO.within ?_ | split

theorem execTransferComplete_held {idx : Nat} {s : State} (hk : Held q0 n0 c0 s) : HeldO q0 n0 c0 (execTransferComplete idx s) := by
  unfold execTransferComplete
  with_reducible repeat' first | assumption | apply State.transferEnds_held | refine HeldO.next ?_

theorem execRemoteIncrement_held {core : Nat} {ctr : Nat} {inc : Nat} {frame : Nat} {pitch : Nat} {s : State} (hk : Held q0 n0 c0 s) : HeldO q0 n0 c0 (execRemoteIncrement core ctr inc frame pitch s) := by
  unfold execRemoteIncrement
  with_reducible repeat' first | assumption | apply State.remoteInc_held | refine HeldO.within ?_

theorem execGatherFlushIdle_held {core : Nat} {line : Nat} {s : State} (hk : Held q0 n0 c0 s) : HeldO q0 n0 c0 (execGatherFlushIdle core line s) := by
  unfold execGatherFlushIdle
  with_reducible repeat' first | assumption | apply State.gatherIdle_held | refine HeldO.within ?_ | split

theorem execLegEnd_held {core : Nat} {s : State} (hk : Held q0 n0 c0 s) : HeldO q0 n0 c0 (execLegEnd core s) := by
  unfold execLegEnd
  with_reducible repeat' first | assumption | apply State.legEnd_held | refine HeldO.within ?_

theorem execLegOverrunStop_held {core : Nat} {s : State} (hk : Held q0 n0 c0 s) : HeldO q0 n0 c0 (execLegOverrunStop core s) := by
  unfold execLegOverrunStop
  with_reducible repeat' first | assumption | apply State.legOverrun_held | refine HeldO.within ?_

end Sys2Proof.Machine
end

