-- ==== Sys2Proof/Laws/HeldRows.lean ====
section
/-!
SUPPORT. That the operations of Machine/Rows.lean touch neither the queue nor the clock, and keep the tables canonical.
-/

namespace Sys2Proof.Machine

variable {q0 : List Instr} {n0 c0 : Nat}

theorem State.setRec_held {s : State} {a : Nat} {r : ArrRec} (hk : Held q0 n0 c0 s) : Held q0 n0 c0 (State.setRec s a r) := by
  unfold State.setRec
  extract_lets l0
  try clear_value l0
  with_reducible repeat' first | assumption | apply State.recordWrites_held | fail_if_no_progress refine Held.same ?_

theorem State.setRepair_held {s : State} {a : Nat} (hk : Held q0 n0 c0 s) : Held q0 n0 c0 (State.setRepair s a) := by
  unfold State.setRepair
  extract_lets l0
  try clear_value l0
  with_reducible repeat' first | assumption | apply State.setRec_held | refine Held.ite ?_ ?_

theorem State.setAge_held {s : State} {a : Nat} {hours : Nat} {assumed : Bool} (hk : Held q0 n0 c0 s) : Held q0 n0 c0 (State.setAge s a hours assumed) := by
  unfold State.setAge
  extract_lets l0
  have hl0 : Held q0 n0 c0 l0 := by
    unfold l0
    with_reducible repeat' first | assumption | apply State.setFld_held | apply State.setFlag_held
  try clear_value l0
  with_reducible repeat' first | assumption | apply State.setFlag_held

theorem State.stampRec_held {s : State} {a : Nat} {r : ArrRec} (hk : Held q0 n0 c0 s) : Held q0 n0 c0 (State.stampRec s a r) := by
  unfold State.stampRec
  extract_lets l0
  try clear_value l0
  with_reducible repeat' first | assumption | apply State.setRec_held | apply State.setAge_held

theorem State.retireCore_held {s : State} {site : Nat} (hk : Held q0 n0 c0 s) : Held q0 n0 c0 (State.retireCore s site) := by
  unfold State.retireCore
  extract_lets l0 l1 l2 l3
  try clear_value l0
  try clear_value l1
  have hl2 : Held q0 n0 c0 l2 := by
    unfold l2
    with_reducible repeat' first | assumption | apply State.setVfld_held | apply State.recordWrites_held
  try clear_value l2
  try clear_value l3
  with_reducible repeat' first | assumption | fail_if_no_progress refine Held.same ?_ | refine Held.ite ?_ ?_

theorem State.rowOff_held {s : State} {h : Nat} {p : Nat} (hk : Held q0 n0 c0 s) : Held q0 n0 c0 (State.rowOff s h p) := by
  unfold State.rowOff
  extract_lets l0 l1 l2
  try clear_value l0
  have hl1 : Held q0 n0 c0 l1 := by
    unfold l1
    with_reducible repeat' first
      | assumption | apply State.setFld_held | apply State.setArr_held | refine Held.foldl (fun _ _ _ => ?_) ?_
  try clear_value l1
  try clear_value l2
  with_reducible repeat' first | assumption | fail_if_no_progress refine Held.same ?_

theorem State.setRow_held {s : State} {h : Nat} {l : Nat} {st : Nat} {p : Nat} (hk : Held q0 n0 c0 s) : Held q0 n0 c0 (State.setRow s h l st p) := by
  unfold State.setRow
  extract_lets l0
  try clear_value l0
  with_reducible repeat' first | assumption | apply State.setFld_held | apply State.setVfld_held | apply State.recordWrites_held

theorem State.useSpare_held {s : State} {h : Nat} (hk : Held q0 n0 c0 s) : Held q0 n0 c0 (State.useSpare s h) := by
  unfold State.useSpare
  extract_lets l0
  try clear_value l0
  with_reducible repeat' first | assumption | apply State.setFld_held | apply State.setVfld_held

theorem State.reportMgr_held {s : State} {need : Nat} {peer : Nat} {self : Nat} (hk : Held q0 n0 c0 s) : Held q0 n0 c0 (State.reportMgr s need peer self) := by
  unfold State.reportMgr
  extract_lets l0 l1
  try clear_value l0
  try clear_value l1
  with_reducible repeat' first | assumption | apply State.sendMsg_held | refine Held.ite ?_ ?_

theorem State.reportStatus_held {s : State} {need : Nat} (hk : Held q0 n0 c0 s) : Held q0 n0 c0 (State.reportStatus s need) := by
  unfold State.reportStatus
  with_reducible repeat' first | assumption | apply State.reportMgr_held

theorem State.retireNow_held {s : State} {h : Nat} {p : Nat} (hk : Held q0 n0 c0 s) : Held q0 n0 c0 (State.retireNow s h p) := by
  unfold State.retireNow
  extract_lets l0
  have hl0 : Held q0 n0 c0 l0 := by
    unfold l0
    with_reducible repeat' first | assumption | apply State.setFld_held
  try clear_value l0
  with_reducible repeat' first
    | assumption | apply State.setFld_held | apply State.useSpare_held | apply State.rowOff_held | apply State.setRow_held
    | apply State.setRepair_held | apply State.reportStatus_held | fail_if_no_progress refine Held.same ?_
    | refine Held.foldl (fun _ _ _ => ?_) ?_ | split

theorem State.rowActive_held {s : State} {h : Nat} {l : Nat} (hk : Held q0 n0 c0 s) : Held q0 n0 c0 (State.rowActive s h l) := by
  unfold State.rowActive
  with_reducible repeat' first | assumption | apply State.setRow_held | apply State.setFld_held | refine Held.ite ?_ ?_

theorem State.rowsBoundary_held {s : State} (hk : Held q0 n0 c0 s) : Held q0 n0 c0 (State.rowsBoundary s) := by
  unfold State.rowsBoundary
  extract_lets l0 l1
  have hl0 : Held q0 n0 c0 l0 := by
    unfold l0
    with_reducible repeat' first
      | assumption | apply State.rowActive_held | refine Held.ite ?_ ?_ | refine Held.foldl (fun _ _ _ => ?_) ?_
  try clear_value l0
  try clear_value l1
  with_reducible repeat' first
    | assumption | apply State.retireNow_held | fail_if_no_progress refine Held.same ?_ | refine Held.ite ?_ ?_
    | refine Held.foldl (fun _ _ _ => ?_) ?_

end Sys2Proof.Machine
end

