-- ==== Sys2Proof/Laws/HeldServeCommit.lean ====
section
/-!
SUPPORT. That the operations of Machine/ServeCommit.lean touch neither the queue nor the clock, and keep the tables canonical.
-/

namespace Sys2Proof.Machine

variable {q0 : List Instr} {n0 c0 : Nat}

theorem State.kvCommit_held {s : State} {p : Nat} {ctx : Nat} (hk : Held q0 n0 c0 s) : Held q0 n0 c0 (State.kvCommit s p ctx) := by
  unfold State.kvCommit
  extract_lets l0 l1 l2
  try clear_value l0
  try clear_value l1
  try clear_value l2
  with_reducible repeat' first | assumption | apply State.setCommitted_held

theorem State.kvDiscard_held {s : State} {p : Nat} {ctx : Nat} (hk : Held q0 n0 c0 s) : Held q0 n0 c0 (State.kvDiscard s p ctx) := by
  unfold State.kvDiscard
  with_reducible repeat' first | assumption | apply State.setProvisional_held

theorem State.drawHandle_held : ∀ {k : Nat} {s : State} {p : Nat}, Held q0 n0 c0 s → Held q0 n0 c0 (State.drawHandle k s p).2
  | 0, _, _, hk => hk
  | k + 1, s, p, hk => by
    unfold State.drawHandle
    dsimp only
    split
    · exact State.draw_held hk
    · exact State.drawHandle_held (State.draw_held hk)

theorem State.enterWaymark_held {s : State} {p h k : Nat} {r : Req} (hk : Held q0 n0 c0 s) : HeldS q0 n0 c0 (s.enterWaymark p h k r) := by
  unfold State.enterWaymark
  split
  · dsimp only
    split
    · exact HeldS.none
    · exact HeldS.mapS (State.makeCtx_held hk) fun _ h => State.onSrv_held h
  · exact HeldS.none

theorem State.issueWaymark_held {s : State} {p : Nat} {r : Req} (hk : Held q0 n0 c0 s) : Held q0 n0 c0 (s.issueWaymark p r).2 := by
  unfold State.issueWaymark
  dsimp only
  split
  · split
    · next e => dsimp only; exact State.onSrv_held (Held.of_snd e (State.drawHandle_held hk))
    · next e =>
      have h := Held.of_snd e (State.drawHandle_held hk)
      split
      · next e => exact Held.of_some e (State.enterWaymark_held h)
      · dsimp only; exact State.onSrv_held h
  · split
    · exact hk
    · split
      · exact hk
      · split
        · next e => exact Held.of_some e (State.enterWaymark_held hk)
        · exact hk

theorem State.releaseWaymark_held {s : State} {p : Nat} {h : Nat} (hk : Held q0 n0 c0 s) : Held q0 n0 c0 (State.releaseWaymark s p h) := by
  unfold State.releaseWaymark
  with_reducible repeat' first | assumption | apply State.dropCtx_held | apply State.onSrv_held | split

theorem State.releaseAll_held {s : State} {p : Nat} (hk : Held q0 n0 c0 s) : Held q0 n0 c0 (State.releaseAll s p) := by
  unfold State.releaseAll
  with_reducible repeat' first | assumption | apply State.releaseWaymark_held | refine Held.foldl (fun _ _ _ => ?_) ?_

theorem State.referTo_held {s : State} {p : Nat} {r : Req} {c : Nat} {w : Waymark} {n : Nat} (hk : Held q0 n0 c0 s) : Held q0 n0 c0 (s.referTo p r c w n) := by
  unfold State.referTo
  split
  · next e => exact State.onSrv_held (Held.of_some e (State.makeCtx_held hk))
  · exact State.onCounts_held hk

theorem State.takeReference_held {s : State} {p : Nat} {r : Req} (hk : Held q0 n0 c0 s) : Held q0 n0 c0 (State.takeReference s p r) := by
  unfold State.takeReference
  extract_lets l0 l1
  try clear_value l0
  have hl1 : Held q0 n0 c0 l1 := by
    unfold l1
    with_reducible repeat' first | assumption | apply State.onCounts_held
  try clear_value l1
  with_reducible repeat' first | assumption | apply State.onSrv_held | apply State.referTo_held | refine Held.ite ?_ ?_ | split

theorem State.waymarkMover_held {s : State} {p : Nat} (hk : Held q0 n0 c0 s) : Held q0 n0 c0 (State.waymarkMover s p) := by
  unfold State.waymarkMover
  with_reducible repeat' first | assumption | apply State.onSrv_held | refine Held.ite ?_ ?_

theorem State.wantedWaymark_held {s : State} {p : Nat} {r : Req} {wants : Bool} (hk : Held q0 n0 c0 s) : Held q0 n0 c0 (State.wantedWaymark s p r wants).2 := by
  unfold State.wantedWaymark
  with_reducible repeat' first | assumption | apply State.issueWaymark_held | split

theorem State.commitBind_held {s : State} {p : Nat} {over_ : Nat → Option Nat} {b : Bind} (hk : Held q0 n0 c0 s) : Held q0 n0 c0 (s.commitBind p over_ b) := by
  unfold State.commitBind
  have h0 : Held q0 n0 c0 (s.kvCommit p b.ctx) := State.kvCommit_held hk
  generalize s.kvCommit p b.ctx = s0 at h0
  dsimp only
  generalize (s0.srv p).req b.tag = o
  cases o with
  | none => exact h0
  | some r =>
    dsimp only
    generalize hw : State.wantedWaymark _ _ _ _ = w
    have h2 : Held q0 n0 c0 w.2 := hw ▸ State.wantedWaymark_held (State.onSrv_held h0)
    clear hw
    split
    · exact Held.ite (State.postEntry_held h2) h2
    · exact State.removeReq_held (State.onCounts_held (Held.ite (State.postEntry_held h2) h2))

theorem State.withholdBind_held {s : State} {p : Nat} {b : Bind} (hk : Held q0 n0 c0 s) : Held q0 n0 c0 (State.withholdBind s p b) := by
  unfold State.withholdBind
  extract_lets l0
  have hl0 : Held q0 n0 c0 l0 := by
    unfold l0
    with_reducible repeat' first | assumption | apply State.kvDiscard_held
  try clear_value l0
  with_reducible repeat' first | assumption | apply State.onSrv_held | apply State.endReq_held | refine Held.ite ?_ ?_ | split

theorem State.settleBind_held {s : State} {p : Nat} {withheld : Nat → Bool} {ending : Nat → Option Nat} {b : Bind} (hk : Held q0 n0 c0 s) : Held q0 n0 c0 (State.settleBind s p withheld ending b) := by
  unfold State.settleBind
  extract_lets l0
  try clear_value l0
  with_reducible repeat' first
    | assumption | apply State.withholdBind_held | apply State.onCounts_held | apply State.commitBind_held
    | refine Held.ite ?_ ?_

theorem State.endsAct_held {s : State} {p : Nat} {ends : List (Nat × Nat)} (hk : Held q0 n0 c0 s) : Held q0 n0 c0 (State.endsAct s p ends) := by
  unfold State.endsAct
  extract_lets l0
  have hl0 : Held q0 n0 c0 l0 := by
    unfold l0
    with_reducible repeat' first | assumption | apply State.onSrv_held
  try clear_value l0
  with_reducible repeat' first | assumption | apply State.endReq_held | refine Held.foldl (fun _ _ _ => ?_) ?_

theorem State.endAll_held {s : State} {p : Nat} {status : Nat} (hk : Held q0 n0 c0 s) : Held q0 n0 c0 (State.endAll s p status) := by
  unfold State.endAll
  with_reducible repeat' first | assumption | apply State.onSrv_held

theorem State.bindFrame_held {s : State} {p : Nat} {fresh : Bool} (hk : Held q0 n0 c0 s) : Held q0 n0 c0 (State.bindFrame s p fresh) := by
  unfold State.bindFrame
  extract_lets l0 l1 l2 l3 l4 l5 l6 l7
  try clear_value l0
  have hl1 : Held q0 n0 c0 l1 := by
    unfold l1
    with_reducible repeat' first | assumption | apply State.setBinding_held | refine Held.foldl (fun _ _ _ => ?_) ?_
  try clear_value l1
  try clear_value l2
  try clear_value l3
  try clear_value l4
  try clear_value l5
  have hl6 : Held q0 n0 c0 l6 := by
    unfold l6
    with_reducible repeat' first | assumption | apply State.onSrv_held
  try clear_value l6
  have hl7 : Held q0 n0 c0 l7 := by
    unfold l7
    with_reducible repeat' first | assumption | apply State.withholdNotice_held | refine Held.ite ?_ ?_
  try clear_value l7
  with_reducible repeat' first
    | assumption | apply State.setBinding_held | apply State.kvDiscard_held | refine Held.foldl (fun _ _ _ => ?_) ?_

theorem State.serveBoundary_held {s : State} {p : Nat} {prev : Nat} {withheld : Nat → Bool} {fresh : Bool} {first : Bool} (hk : Held q0 n0 c0 s) : Held q0 n0 c0 (State.serveBoundary s p prev withheld fresh first) := by
  unfold State.serveBoundary
  extract_lets l0 l1 l2 l3 l4 l5 l6 l7 l8 l9 l10 l11 l12 l13 l14
  have hl0 : Held q0 n0 c0 l0 := by
    unfold l0
    with_reducible repeat' first | assumption | apply State.onSrv_held
  try clear_value l0
  have hl1 : Held q0 n0 c0 l1 := by
    unfold l1
    with_reducible repeat' first | assumption | apply State.endAll_held | refine Held.ite ?_ ?_
  try clear_value l1
  try clear_value l2
  try clear_value l3
  try clear_value l4
  try clear_value l5
  have hl6 : Held q0 n0 c0 l6 := by
    unfold l6
    with_reducible repeat' first | assumption | apply State.settleBind_held | refine Held.foldl (fun _ _ _ => ?_) ?_
  try clear_value l6
  have hl7 : Held q0 n0 c0 l7 := by
    unfold l7
    with_reducible repeat' first | assumption | apply State.onSrv_held
  try clear_value l7
  have hl8 : Held q0 n0 c0 l8 := by
    unfold l8
    with_reducible repeat' first | assumption | apply State.onSrv_held
  try clear_value l8
  have hl9 : Held q0 n0 c0 l9 := by
    unfold l9
    with_reducible repeat' first | assumption | apply State.takeReference_held | refine Held.foldl (fun _ _ _ => ?_) ?_
  try clear_value l9
  try clear_value l10
  have hl11 : Held q0 n0 c0 l11 := by
    unfold l11
    with_reducible repeat' first
      | assumption | apply State.onSrv_held | apply State.releaseWaymark_held | refine Held.foldl (fun _ _ _ => ?_) ?_
  try clear_value l11
  have hl12 : Held q0 n0 c0 l12 := by
    unfold l12
    with_reducible repeat' first | assumption | apply State.endsAct_held
  try clear_value l12
  have hl13 : Held q0 n0 c0 l13 := by
    unfold l13
    with_reducible repeat' first | assumption | apply State.onSrv_held
  try clear_value l13
  have hl14 : Held q0 n0 c0 l14 := by
    unfold l14
    with_reducible repeat' first | assumption | apply State.onSrv_held
  try clear_value l14
  with_reducible repeat' first | assumption | apply State.bindFrame_held

theorem State.drainPitch_held {s : State} {p : Nat} (hk : Held q0 n0 c0 s) : Held q0 n0 c0 (State.drainPitch s p) := by
  unfold State.drainPitch
  with_reducible repeat' first
    | assumption | apply State.endReq_held | apply State.releaseAll_held | refine Held.foldl (fun _ _ _ => ?_) ?_

theorem State.queuesSettle_held {s : State} (hk : Held q0 n0 c0 s) : Held q0 n0 c0 (State.queuesSettle s) := by
  unfold State.queuesSettle
  extract_lets l0
  try clear_value l0
  with_reducible repeat' first
    | assumption | apply State.queueOff_held | refine Held.ite ?_ ?_ | refine Held.foldl (fun _ _ _ => ?_) ?_

theorem State.serveChange_held {s : State} {p : Nat} {c : ServeChange} (hk : Held q0 n0 c0 s) : Held q0 n0 c0 (State.serveChange s p c) := by
  unfold State.serveChange
  with_reducible repeat' first | assumption | apply State.onSrv_held

theorem State.setRationCmd_held {s : State} {c : Mgmt} {customer : Nat} {mask : Nat} {r : Ration} (hk : Held q0 n0 c0 s) : Held q0 n0 c0 (State.setRationCmd s c customer mask r) := by
  unfold State.setRationCmd
  with_reducible repeat' first | assumption | apply State.answer_held | apply State.serveChange_held | refine Held.ite ?_ ?_

theorem State.readRationCmd_held {s : State} {c : Mgmt} {customer : Nat} (hk : Held q0 n0 c0 s) : Held q0 n0 c0 (State.readRationCmd s c customer) := by
  unfold State.readRationCmd
  extract_lets l0 l1 l2
  try clear_value l0
  try clear_value l1
  try clear_value l2
  with_reducible repeat' first | assumption | apply State.answer_held | refine Held.ite ?_ ?_

theorem State.releaseCmd_held {s : State} {c : Mgmt} {h : Nat} (hk : Held q0 n0 c0 s) : Held q0 n0 c0 (State.releaseCmd s c h) := by
  unfold State.releaseCmd
  extract_lets l0 l1
  try clear_value l0
  have hl1 : Held q0 n0 c0 l1 := by
    unfold l1
    with_reducible repeat' first | assumption | apply State.onSrv_held | apply State.onCounts_held | refine Held.ite ?_ ?_
  try clear_value l1
  with_reducible repeat' first | assumption | apply State.answer_held

theorem State.setServingCmd_held {s : State} {c : Mgmt} {param : Nat} {v1 : Nat} {v2 : Nat} {parts : List Nat} (hk : Held q0 n0 c0 s) : Held q0 n0 c0 (State.setServingCmd s c param v1 v2 parts) := by
  unfold State.setServingCmd
  with_reducible repeat' first | assumption | apply State.serveChange_held | apply State.answer_held | split

theorem execWaymarkMover_held {pitch : Nat} {s : State} (hk : Held q0 n0 c0 s) : HeldO q0 n0 c0 (execWaymarkMover pitch s) := by
  unfold execWaymarkMover
  with_reducible repeat' first | assumption | apply State.waymarkMover_held | refine HeldO.within ?_

theorem execSetRation_held {c : Mgmt} {customer : Nat} {mask : Nat} {r : Ration} {s : State} (hk : Held q0 n0 c0 s) : HeldO q0 n0 c0 (execSetRation c customer mask r s) := by
  unfold execSetRation
  with_reducible repeat' first
    | assumption | apply State.mgmt_held | apply State.setRationCmd_held | refine HeldO.within ?_ | intro _

theorem execReadRation_held {c : Mgmt} {customer : Nat} {s : State} (hk : Held q0 n0 c0 s) : HeldO q0 n0 c0 (execReadRation c customer s) := by
  unfold execReadRation
  with_reducible repeat' first
    | assumption | apply State.mgmt_held | apply State.readRationCmd_held | refine HeldO.within ?_ | intro _

theorem execReleaseWaymark_held {c : Mgmt} {handle : Nat} {s : State} (hk : Held q0 n0 c0 s) : HeldO q0 n0 c0 (execReleaseWaymark c handle s) := by
  unfold execReleaseWaymark
  with_reducible repeat' first
    | assumption | apply State.mgmt_held | apply State.releaseCmd_held | refine HeldO.within ?_ | intro _

theorem execSetServing_held {c : Mgmt} {param : Nat} {v1 : Nat} {v2 : Nat} {parts : List Nat} {s : State} (hk : Held q0 n0 c0 s) : HeldO q0 n0 c0 (execSetServing c param v1 v2 parts s) := by
  unfold execSetServing
  with_reducible repeat' first
    | assumption | apply State.mgmt_held | apply State.setServingCmd_held | refine HeldO.within ?_ | intro _

theorem execReadServing_held {c : Mgmt} {s : State} (hk : Held q0 n0 c0 s) : HeldO q0 n0 c0 (execReadServing c s) := by
  unfold execReadServing
  with_reducible repeat' first
    | assumption | apply State.mgmt_held | apply State.hostOutput_held | apply State.answer_held | refine HeldO.within ?_
    | intro _

theorem execClearServingCounters_held {c : Mgmt} {s : State} (hk : Held q0 n0 c0 s) : HeldO q0 n0 c0 (execClearServingCounters c s) := by
  unfold execClearServingCounters
  with_reducible repeat' first
    | assumption | apply State.mgmt_held | apply State.serveChange_held | apply State.answer_held | refine HeldO.within ?_
    | intro _

end Sys2Proof.Machine
end

