-- ==== Sys2Proof/Laws/HeldManager.lean ====
section
/-!
SUPPORT. That the operations of Machine/Manager.lean touch neither the queue nor the clock, and keep the tables canonical.
-/

namespace Sys2Proof.Machine

variable {q0 : List Instr} {n0 c0 : Nat}

theorem State.fromMgr_held {s : State} {mgr : Nat} {src : Nat} {epoch : Nat} {act : State → State} (hk : Held q0 n0 c0 s) (hact : ∀ s, Held q0 n0 c0 s → Held q0 n0 c0 (act s)) : Held q0 n0 c0 (State.fromMgr s mgr src epoch act) := by
  unfold State.fromMgr
  with_reducible repeat' first
    | assumption | refine hact _ ?_ | apply State.count_held | apply State.setFld_held | refine Held.ite ?_ ?_

theorem State.unloadItin_held {s : State} (hk : Held q0 n0 c0 s) : Held q0 n0 c0 (State.unloadItin s) := by
  unfold State.unloadItin
  extract_lets l0 l1 l2
  have hl0 : Held q0 n0 c0 l0 := by
    unfold l0
    with_reducible repeat' first | assumption | apply State.drainPitch_held | refine Held.foldl (fun _ _ _ => ?_) ?_
  try clear_value l0
  have hl1 : Held q0 n0 c0 l1 := by
    unfold l1
    with_reducible repeat' first
      | assumption | apply State.completionMsi_held | apply State.queuesSettle_held | refine Held.foldl (fun _ _ _ => ?_) ?_
  try clear_value l1
  try clear_value l2
  with_reducible repeat' first | assumption | fail_if_no_progress refine Held.same ?_

theorem State.onWgt_held {s : State} {f : WgtSt → WgtSt} (hk : Held q0 n0 c0 s) : Held q0 n0 c0 (State.onWgt s f) := by
  unfold State.onWgt
  with_reducible repeat' first | assumption | fail_if_no_progress refine Held.same ?_

end Sys2Proof.Machine
end

