-- ==== Sys2Proof/Laws/HeldIntegrity.lean ====
section
/-!
SUPPORT. That the operations of Machine/Integrity.lean touch neither the queue nor the clock, and keep the tables canonical.
-/

namespace Sys2Proof.Machine

variable {q0 : List Instr} {n0 c0 : Nat}

theorem State.onMgr_held {s : State} {f : MgrSt → MgrSt} (hk : Held q0 n0 c0 s) : Held q0 n0 c0 (State.onMgr s f) := by
  unfold State.onMgr
  with_reducible repeat' first | assumption | fail_if_no_progress refine Held.same ?_

theorem State.withholdLeg_held {s : State} {core : Nat} {leg : Nat} {reason : Nat} (hk : Held q0 n0 c0 s) : Held q0 n0 c0 (State.withholdLeg s core leg reason) := by
  unfold State.withholdLeg
  with_reducible repeat' first | assumption | apply State.withholdNotice_held

theorem State.makeDependent_held {s : State} {core : Nat} {leg : Nat} (hk : Held q0 n0 c0 s) : Held q0 n0 c0 (State.makeDependent s core leg) := by
  unfold State.makeDependent
  extract_lets l0
  have hl0 : Held q0 n0 c0 l0 := by
    unfold l0
    with_reducible repeat' first | assumption | apply State.onMgr_held
  try clear_value l0
  with_reducible repeat' first | assumption | apply State.countReplay_held | apply State.withholdLeg_held

theorem State.startLeg_held {s : State} {core : Nat} (hk : Held q0 n0 c0 s) : Held q0 n0 c0 (State.startLeg s core) := by
  unfold State.startLeg
  extract_lets l0
  have hl0 : Held q0 n0 c0 l0 := by
    unfold l0
    with_reducible repeat' first | assumption | apply State.legStart_held
  try clear_value l0
  with_reducible repeat' first | assumption | apply State.makeDependent_held | refine Held.ite ?_ ?_ | split

theorem State.askReplay_held {s : State} {site : Nat} {rep : SuspectRep} {l : Leg} {it : Itin} {partner : Nat} {group : Nat} (hk : Held q0 n0 c0 s) : Held q0 n0 c0 (State.askReplay s site rep l it partner group) := by
  unfold State.askReplay
  extract_lets l0 l1 l2 l3 l4 l5 l6
  try clear_value l0
  have hl1 : Held q0 n0 c0 l1 := by
    unfold l1
    with_reducible repeat' first | assumption | apply State.sendMsg_held
  try clear_value l1
  try clear_value l2
  try clear_value l3
  try clear_value l4
  have hl5 : Held q0 n0 c0 l5 := by
    unfold l5
    with_reducible repeat' first | assumption | apply State.sendMsg_held | refine Held.foldl (fun _ _ _ => ?_) ?_
  try clear_value l5
  try clear_value l6
  with_reducible repeat' first | assumption | apply State.onMgr_held | apply State.countReplay_held

theorem State.decideFate_held {s : State} {rep : SuspectRep} (hk : Held q0 n0 c0 s) : Held q0 n0 c0 (State.decideFate s rep) := by
  unfold State.decideFate
  extract_lets l0
  have hl0 : Held q0 n0 c0 l0 := by
    unfold l0
    with_reducible repeat' first | assumption | apply State.onMgr_held
  try clear_value l0
  with_reducible repeat' first
    | assumption | apply State.makeDependent_held | apply State.countReplay_held | apply State.withholdLeg_held
    | apply State.askReplay_held | refine Held.ite ?_ ?_ | split

theorem State.onAsked_held {s : State} {core : Nat} {leg : Nat} {f : Asked → Asked} (hk : Held q0 n0 c0 s) : Held q0 n0 c0 (State.onAsked s core leg f) := by
  unfold State.onAsked
  with_reducible repeat' first | assumption | apply State.onMgr_held

theorem State.dropReplay_held {s : State} {core : Nat} {leg : Nat} {k : Nat} {reason : Nat} (hk : Held q0 n0 c0 s) : Held q0 n0 c0 (State.dropReplay s core leg k reason) := by
  unfold State.dropReplay
  with_reducible repeat' first
    | assumption | apply State.onAsked_held | apply State.countReplay_held | apply State.withholdLeg_held

theorem State.issueHeld_held {s : State} {site : Nat} {core : Nat} {l : Leg} {p : Suppressed} {data : Bytes} (hk : Held q0 n0 c0 s) : Held q0 n0 c0 (State.issueHeld s site core l p data) := by
  unfold State.issueHeld
  with_reducible repeat' first
    | assumption | apply State.sendBytes_held | apply State.writeTokens_held | apply State.portBytes_held | split

theorem State.placeOutput_held {s : State} {core : Nat} {leg : Nat} {out : List (Nat × Bytes) × List (Nat × Bytes)} (hk : Held q0 n0 c0 s) : Held q0 n0 c0 (State.placeOutput s core leg out) := by
  unfold State.placeOutput
  with_reducible repeat' first
    | assumption | apply State.hamperWrite_held | apply State.issueHeld_held | apply State.onAsked_held
    | apply State.countReplay_held | fail_if_no_progress refine Held.same ?_ | refine Held.foldl (fun _ _ _ => ?_) ?_ | split

theorem State.suspectReport_held {s : State} {i : Nat} (hk : Held q0 n0 c0 s) : Held q0 n0 c0 (State.suspectReport s i) := by
  unfold State.suspectReport
  extract_lets l0 l1 l2
  try clear_value l0
  have hl1 : Held q0 n0 c0 l1 := by
    unfold l1
    with_reducible repeat' first | assumption | fail_if_no_progress refine Held.same ?_
  try clear_value l1
  have hl2 : Held q0 n0 c0 l2 := by
    unfold l2
    with_reducible repeat' first | assumption | apply State.raiseBoth_held
  try clear_value l2
  with_reducible repeat' first
    | assumption | apply State.decideFate_held | apply State.unitError_held | apply State.dropReplay_held
    | apply State.placeOutput_held | refine Held.ite ?_ ?_ | split | fail_if_no_progress extract_lets

theorem State.replayOut_held {s : State} {src : Nat} {frame : Nat} {core : Nat} {leg : Nat} {unclean : Bool} {out : List (Nat × Bytes) × List (Nat × Bytes)} (hk : Held q0 n0 c0 s) : Held q0 n0 c0 (State.replayOut s src frame core leg unclean out) := by
  unfold State.replayOut
  with_reducible repeat' first
    | assumption | apply State.dropReplay_held | apply State.placeOutput_held | apply State.onAsked_held
    | refine Held.ite ?_ ?_ | split

theorem State.replayRefused_held {s : State} {src : Nat} {frame : Nat} {core : Nat} {leg : Nat} (hk : Held q0 n0 c0 s) : Held q0 n0 c0 (State.replayRefused s src frame core leg) := by
  unfold State.replayRefused
  with_reducible repeat' first | assumption | apply State.dropReplay_held | refine Held.ite ?_ ?_ | split

theorem State.giveUpReplay_held {s : State} {core : Nat} {leg : Nat} (hk : Held q0 n0 c0 s) : Held q0 n0 c0 (State.giveUpReplay s core leg) := by
  unfold State.giveUpReplay
  with_reducible repeat' first | assumption | apply State.dropReplay_held | refine Held.ite ?_ ?_ | split

theorem State.replayRequest_held {s : State} {src : Nat} {frame : Nat} {group : Nat} {core : Nat} {leg : Nat} {input : List (Nat × Bytes)} (hk : Held q0 n0 c0 s) : Held q0 n0 c0 (State.replayRequest s src frame group core leg input) := by
  unfold State.replayRequest
  with_reducible repeat' first | assumption | apply State.sendMsg_held | apply State.onMgr_held | split

theorem State.replayRun_held {s : State} {core : Nat} (hk : Held q0 n0 c0 s) : Held q0 n0 c0 (State.replayRun s core) := by
  unfold State.replayRun
  with_reducible repeat' first
    | assumption | apply State.hamperWrite_held | apply State.onMgr_held | apply State.beginLeg_held
    | apply State.countReplay_held | refine Held.ite ?_ ?_ | refine Held.foldl (fun _ _ _ => ?_) ?_ | split

theorem State.heldBack_held {s : State} {frame : Nat} {core : Nat} {ctr : Nat} (hk : Held q0 n0 c0 s) : Held q0 n0 c0 (State.heldBack s frame core ctr) := by
  unfold State.heldBack
  with_reducible repeat' first | assumption | apply State.onMgr_held | refine Held.ite ?_ ?_

theorem State.pendingIn_held {s : State} {frame : Nat} {slots : List Nat} (hk : Held q0 n0 c0 s) : Held q0 n0 c0 (State.pendingIn s frame slots) := by
  unfold State.pendingIn
  with_reducible repeat' first | assumption | apply State.onMgr_held | refine Held.ite ?_ ?_

theorem State.listTry_held {s : State} (hk : Held q0 n0 c0 s) : Held q0 n0 c0 (State.listTry s) := by
  unfold State.listTry
  extract_lets l0 l1
  try clear_value l0
  have hl1 : Held q0 n0 c0 l1 := by
    unfold l1
    with_reducible repeat' first | assumption | apply State.sendMsg_held | refine Held.foldl (fun _ _ _ => ?_) ?_
  try clear_value l1
  with_reducible repeat' first | assumption | apply State.onMgr_held | apply State.setFld_held | refine Held.ite ?_ ?_

theorem State.withholdIn_held {s : State} {src : Nat} {frame : Nat} {slots : List Nat} (hk : Held q0 n0 c0 s) : Held q0 n0 c0 (State.withholdIn s src frame slots) := by
  unfold State.withholdIn
  extract_lets l0
  try clear_value l0
  with_reducible repeat' first | assumption | apply State.onMgr_held | apply State.listTry_held | refine Held.ite ?_ ?_

theorem State.listIn_held {s : State} {src : Nat} {frame : Nat} {slots : List Nat} (hk : Held q0 n0 c0 s) : Held q0 n0 c0 (State.listIn s src frame slots) := by
  unfold State.listIn
  extract_lets l0
  have hl0 : Held q0 n0 c0 l0 := by
    unfold l0
    with_reducible repeat' first | assumption | apply State.onMgr_held | refine Held.ite ?_ ?_
  try clear_value l0
  with_reducible repeat' first | assumption | apply State.sendCtl_held

theorem State.listAck_held {s : State} {src : Nat} {frame : Nat} (hk : Held q0 n0 c0 s) : Held q0 n0 c0 (State.listAck s src frame) := by
  unfold State.listAck
  with_reducible repeat' first | assumption | apply State.onMgr_held | apply State.setFld_held | refine Held.ite ?_ ?_ | split

theorem State.diverge_held {s : State} {p : Nat} {tag : Nat} (hk : Held q0 n0 c0 s) : Held q0 n0 c0 (State.diverge s p tag) := by
  unfold State.diverge
  extract_lets l0
  have hl0 : Held q0 n0 c0 l0 := by
    unfold l0
    with_reducible repeat' first | assumption | apply State.onSrv_held
  try clear_value l0
  with_reducible repeat' first | assumption | apply State.post_held | apply State.countReplay_held | refine Held.ite ?_ ?_

theorem State.withheldReport_held {s : State} {src : Nat} {frame : Nat} {slots : List Nat} (hk : Held q0 n0 c0 s) : Held q0 n0 c0 (State.withheldReport s src frame slots) := by
  unfold State.withheldReport
  with_reducible repeat' first
    | assumption | apply State.diverge_held | refine Held.ite ?_ ?_ | refine Held.foldl (fun _ _ _ => ?_) ?_

theorem State.mapIn_held {s : State} {m : List (Nat × Nat)} (hk : Held q0 n0 c0 s) : Held q0 n0 c0 (State.mapIn s m) := by
  unfold State.mapIn
  with_reducible repeat' first | assumption | apply State.onMgr_held

theorem execLegStart_held {core : Nat} {s : State} (hk : Held q0 n0 c0 s) : HeldO q0 n0 c0 (execLegStart core s) := by
  unfold execLegStart
  with_reducible repeat' first | assumption | apply State.startLeg_held | refine HeldO.within ?_

theorem execSuspectReport_held {idx : Nat} {s : State} (hk : Held q0 n0 c0 s) : HeldO q0 n0 c0 (execSuspectReport idx s) := by
  unfold execSuspectReport
  with_reducible repeat' first | assumption | apply State.suspectReport_held | refine HeldO.next ?_

theorem execReplayRequest_held {src : Nat} {frame : Nat} {group : Nat} {core : Nat} {leg : Nat} {input : List (Nat × Bytes)} {s : State} (hk : Held q0 n0 c0 s) : HeldO q0 n0 c0 (execReplayRequest src frame group core leg input s) := by
  unfold execReplayRequest
  with_reducible repeat' first | assumption | apply State.msgIn_held | apply State.replayRequest_held | refine HeldO.within ?_

theorem execReplayRun_held {core : Nat} {s : State} (hk : Held q0 n0 c0 s) : HeldO q0 n0 c0 (execReplayRun core s) := by
  unfold execReplayRun
  with_reducible repeat' first | assumption | apply State.replayRun_held | refine HeldO.within ?_

theorem execReplayOutput_held {src : Nat} {frame : Nat} {core : Nat} {leg : Nat} {unclean : Bool} {hamper : List (Nat × Bytes)} {payloads : List (Nat × Bytes)} {s : State} (hk : Held q0 n0 c0 s) : HeldO q0 n0 c0 (execReplayOutput src frame core leg unclean hamper payloads s) := by
  unfold execReplayOutput
  with_reducible repeat' first | assumption | apply State.msgIn_held | apply State.replayOut_held | refine HeldO.within ?_

theorem execReplayRefuse_held {src : Nat} {frame : Nat} {core : Nat} {leg : Nat} {s : State} (hk : Held q0 n0 c0 s) : HeldO q0 n0 c0 (execReplayRefuse src frame core leg s) := by
  unfold execReplayRefuse
  with_reducible repeat' first | assumption | apply State.msgIn_held | apply State.replayRefused_held | refine HeldO.within ?_

theorem execReplayPending_held {frame : Nat} {slots : List Nat} {s : State} (hk : Held q0 n0 c0 s) : HeldO q0 n0 c0 (execReplayPending frame slots s) := by
  unfold execReplayPending
  with_reducible repeat' first | assumption | apply State.msgIn_held | apply State.pendingIn_held | refine HeldO.next ?_

theorem execSuppressed_held {frame : Nat} {core : Nat} {ctr : Nat} {s : State} (hk : Held q0 n0 c0 s) : HeldO q0 n0 c0 (execSuppressed frame core ctr s) := by
  unfold execSuppressed
  with_reducible repeat' first | assumption | apply State.msgIn_held | apply State.heldBack_held | refine HeldO.within ?_

theorem execReplayGiveUp_held {core : Nat} {leg : Nat} {s : State} (hk : Held q0 n0 c0 s) : HeldO q0 n0 c0 (execReplayGiveUp core leg s) := by
  unfold execReplayGiveUp
  with_reducible repeat' first | assumption | apply State.giveUpReplay_held | refine HeldO.within ?_

theorem execWithhold_held {src : Nat} {frame : Nat} {slots : List Nat} {s : State} (hk : Held q0 n0 c0 s) : HeldO q0 n0 c0 (execWithhold src frame slots s) := by
  unfold execWithhold
  with_reducible repeat' first | assumption | apply State.msgIn_held | apply State.withholdIn_held | refine HeldO.next ?_

theorem execList_held {src : Nat} {epoch : Nat} {frame : Nat} {slots : List Nat} {s : State} (hk : Held q0 n0 c0 s) : HeldO q0 n0 c0 (execList src epoch frame slots s) := by
  unfold execList
  with_reducible repeat' first
    | assumption | apply State.msgIn_held | apply State.fromMgr_held | apply State.listIn_held | refine HeldO.next ?_ | intro _

theorem execListAck_held {src : Nat} {frame : Nat} {s : State} (hk : Held q0 n0 c0 s) : HeldO q0 n0 c0 (execListAck src frame s) := by
  unfold execListAck
  with_reducible repeat' first | assumption | apply State.listAck_held | refine HeldO.next ?_

theorem execWithheldReport_held {src : Nat} {frame : Nat} {slots : List Nat} {s : State} (hk : Held q0 n0 c0 s) : HeldO q0 n0 c0 (execWithheldReport src frame slots s) := by
  unfold execWithheldReport
  with_reducible repeat' first | assumption | apply State.msgIn_held | apply State.withheldReport_held | refine HeldO.next ?_

theorem execReplayMap_held {src : Nat} {epoch : Nat} {map : List (Nat × Nat)} {s : State} (hk : Held q0 n0 c0 s) : HeldO q0 n0 c0 (execReplayMap src epoch map s) := by
  unfold execReplayMap
  with_reducible repeat' first
    | assumption | apply State.msgIn_held | apply State.fromMgr_held | apply State.mapIn_held | refine HeldO.next ?_ | intro _

end Sys2Proof.Machine
end

