-- ==== Sys2Proof/Laws/HeldRelay.lean ====
section
/-!
SUPPORT. That the operations of Machine/Relay.lean touch neither the queue nor the clock, and keep the tables canonical.
-/

namespace Sys2Proof.Machine

variable {q0 : List Instr} {n0 c0 : Nat}

theorem State.tellManager_held {s : State} (hk : Held q0 n0 c0 s) : Held q0 n0 c0 (State.tellManager s) := by
  unfold State.tellManager
  with_reducible repeat' first | assumption | apply State.reportStatus_held

theorem State.passRequest_held {s : State} {shard : Nat} {c : Nat} (hk : Held q0 n0 c0 s) : Held q0 n0 c0 (State.passRequest s shard c) := by
  unfold State.passRequest
  extract_lets l0
  try clear_value l0
  with_reducible repeat' first | assumption | apply State.post_held | apply State.sendMsg_held | refine Held.ite ?_ ?_ | split

theorem State.request_held {s : State} {c : Nat} (hk : Held q0 n0 c0 s) : Held q0 n0 c0 (State.request s c) := by
  unfold State.request
  with_reducible repeat' first | assumption | apply State.onWgt_held | apply State.passRequest_held | split

theorem State.requestNeeded_held {s : State} (hk : Held q0 n0 c0 s) : Held q0 n0 c0 (State.requestNeeded s) := by
  unfold State.requestNeeded
  with_reducible repeat' first
    | assumption | apply State.request_held | refine Held.ite ?_ ?_ | refine Held.foldl (fun _ _ _ => ?_) ?_ | split

theorem State.relayFail_held {s : State} {code : Nat} (hk : Held q0 n0 c0 s) : Held q0 n0 c0 (State.relayFail s code) := by
  unfold State.relayFail
  with_reducible repeat' first | assumption | apply State.onWgt_held | apply State.tellManager_held

theorem State.programmedCheck_held {s : State} (hk : Held q0 n0 c0 s) : Held q0 n0 c0 (State.programmedCheck s) := by
  unfold State.programmedCheck
  extract_lets l0
  have hl0 : Held q0 n0 c0 l0 := by
    unfold l0
    with_reducible repeat' first | assumption | apply State.onWgt_held
  try clear_value l0
  with_reducible repeat' first | assumption | apply State.onWgt_held | apply State.tellManager_held | refine Held.ite ?_ ?_

theorem State.forward_held {s : State} {p : Piece} {to_ : List Nat} (hk : Held q0 n0 c0 s) : Held q0 n0 c0 (State.forward s p to_) := by
  unfold State.forward
  with_reducible repeat' first
    | assumption | apply State.onWgt_held | apply State.sendMsg_held | refine Held.foldl (fun _ _ _ => ?_) ?_

theorem State.settleStages_held {s : State} (hk : Held q0 n0 c0 s) : Held q0 n0 c0 (State.settleStages s) := by
  unfold State.settleStages
  extract_lets l0 l1
  try clear_value l0
  try clear_value l1
  with_reducible repeat' first | assumption | apply State.onWgt_held

theorem State.keepPiece_held {s : State} {p : Piece} (hk : Held q0 n0 c0 s) : Held q0 n0 c0 (State.keepPiece s p) := by
  unfold State.keepPiece
  with_reducible repeat' first | assumption | apply State.onWgt_held | refine Held.ite ?_ ?_

theorem State.keepReference_held {s : State} {p : Piece} (hk : Held q0 n0 c0 s) : Held q0 n0 c0 (State.keepReference s p) := by
  unfold State.keepReference
  extract_lets l0
  try clear_value l0
  with_reducible repeat' first | assumption | apply State.onWgt_held

theorem State.dataPiece_held {s : State} {pl : RelayPlan} {p : Piece} (hk : Held q0 n0 c0 s) : Held q0 n0 c0 (State.dataPiece s pl p) := by
  unfold State.dataPiece
  extract_lets l0 l1 l2 l3 l4 l5
  try clear_value l0
  skip
  try clear_value l2
  have hl3 : Held q0 n0 c0 l3 := by
    unfold l3
    with_reducible repeat' first | assumption | apply State.forward_held
  try clear_value l3
  have hl4 : Held q0 n0 c0 l4 := by
    unfold l4
    with_reducible repeat' first | assumption | apply State.keepReference_held | refine Held.ite ?_ ?_
  try clear_value l4
  have hl5 : Held q0 n0 c0 l5 := by
    unfold l5
    with_reducible repeat' first | assumption | apply State.keepPiece_held | apply State.onWgt_held | refine Held.ite ?_ ?_
  try clear_value l5
  with_reducible repeat' first | assumption | apply State.settleStages_held

theorem State.manifestCheck_held {s : State} (hk : Held q0 n0 c0 s) : Held q0 n0 c0 (State.manifestCheck s) := by
  unfold State.manifestCheck
  extract_lets l0 l1
  try clear_value l0
  try clear_value l1
  with_reducible repeat' first
    | assumption | apply State.relayFail_held | apply State.onWgt_held | apply State.engineAsk_held | refine Held.ite ?_ ?_
    | split

theorem State.forwardManifest_held {s : State} {to_ : List Nat} (hk : Held q0 n0 c0 s) : Held q0 n0 c0 (State.forwardManifest s to_) := by
  unfold State.forwardManifest
  with_reducible repeat' first | assumption | apply State.forward_held | refine Held.foldl (fun _ _ _ => ?_) ?_ | split

theorem State.manifestAccept_held {s : State} {pl : RelayPlan} (hk : Held q0 n0 c0 s) : Held q0 n0 c0 (State.manifestAccept s pl) := by
  unfold State.manifestAccept
  extract_lets l0 l1 l2 l3 l4
  try clear_value l0
  try clear_value l1
  have hl2 : Held q0 n0 c0 l2 := by
    unfold l2
    with_reducible repeat' first | assumption | apply State.unloadItin_held | refine Held.ite ?_ ?_
  try clear_value l2
  try clear_value l3
  have hl4 : Held q0 n0 c0 l4 := by
    unfold l4
    with_reducible repeat' first | assumption | apply State.onWgt_held | apply State.recordWrites_held
  try clear_value l4
  with_reducible repeat' first | assumption | apply State.forwardManifest_held | apply State.tellManager_held

theorem State.manifestAnswer_held {s : State} {digest : Bytes} {code : Nat} (hk : Held q0 n0 c0 s) : Held q0 n0 c0 (State.manifestAnswer s digest code) := by
  unfold State.manifestAnswer
  extract_lets l0 l1 l2
  try clear_value l0
  have hl1 : Held q0 n0 c0 l1 := by
    unfold l1
    with_reducible repeat' first | assumption | apply State.onWgt_held
  try clear_value l1
  try clear_value l2
  with_reducible repeat' first
    | assumption | apply State.onWgt_held | apply State.relayFail_held | apply State.manifestAccept_held
    | refine Held.ite ?_ ?_ | split

theorem State.manifestPiece_held {s : State} {p : Piece} (hk : Held q0 n0 c0 s) : Held q0 n0 c0 (State.manifestPiece s p) := by
  unfold State.manifestPiece
  extract_lets l0
  have hl0 : Held q0 n0 c0 l0 := by
    unfold l0
    with_reducible repeat' first | assumption | apply State.onWgt_held
  try clear_value l0
  with_reducible repeat' first | assumption | apply State.onWgt_held | apply State.manifestCheck_held | refine Held.ite ?_ ?_

theorem State.takePiece_held {s : State} {p : Piece} (hk : Held q0 n0 c0 s) : Held q0 n0 c0 (State.takePiece s p) := by
  unfold State.takePiece
  extract_lets l0 l1
  have hl0 : Held q0 n0 c0 l0 := by
    unfold l0
    with_reducible repeat' first | assumption | apply State.onWgt_held
  try clear_value l0
  have hl1 : Held q0 n0 c0 l1 := by
    unfold l1
    with_reducible repeat' first | assumption | apply State.onWgt_held
  try clear_value l1
  with_reducible repeat' first
    | assumption | apply State.passRequest_held | apply State.manifestPiece_held | apply State.dataPiece_held
    | refine Held.ite ?_ ?_ | split

theorem State.stageAndAnswer_held {s : State} {c : Option Mgmt} {p : Piece} (hk : Held q0 n0 c0 s) : Held q0 n0 c0 (State.stageAndAnswer s c p) := by
  unfold State.stageAndAnswer
  extract_lets l0
  have hl0 : Held q0 n0 c0 l0 := by
    unfold l0
    with_reducible repeat' first | assumption | apply State.takePiece_held
  try clear_value l0
  with_reducible repeat' first | assumption | apply State.answer_held | split

theorem State.restage_held : ∀ {l : List (Option Mgmt × Piece)} {s : State}, Held q0 n0 c0 s → Held q0 n0 c0 (State.restage l s)
  | [], _, hk => hk
  | (c, p) :: rest, s, hk => by
    unfold State.restage
    exact Held.ite (State.restage_held (State.stageAndAnswer_held hk)) (State.restage_held (State.onWgt_held hk))

theorem State.retryWaiting_held {s : State} (hk : Held q0 n0 c0 s) : Held q0 n0 c0 (State.retryWaiting s) := by
  unfold State.retryWaiting
  extract_lets l0
  try clear_value l0
  with_reducible repeat' first | assumption | apply State.restage_held | apply State.onWgt_held | apply State.settleStages_held

theorem State.pieceArrives_held {s : State} {c : Option Mgmt} {p : Piece} (hk : Held q0 n0 c0 s) : Held q0 n0 c0 (State.pieceArrives s c p) := by
  unfold State.pieceArrives
  with_reducible repeat' first | assumption | apply State.restage_held | apply State.settleStages_held

theorem State.beginSession_held {s : State} {p : RelayPlan} (hk : Held q0 n0 c0 s) : Held q0 n0 c0 (State.beginSession s p) := by
  unfold State.beginSession
  extract_lets l0 l1
  have hl0 : Held q0 n0 c0 l0 := by
    unfold l0
    with_reducible repeat' first | assumption | apply State.onWgt_held | apply State.tellManager_held | refine Held.ite ?_ ?_
  try clear_value l0
  have hl1 : Held q0 n0 c0 l1 := by
    unfold l1
    with_reducible repeat' first | assumption | apply State.onWgt_held
  try clear_value l1
  with_reducible repeat' first
    | assumption | apply State.tellManager_held | apply State.requestNeeded_held | apply State.programmedCheck_held
    | apply State.retryWaiting_held

theorem State.relayPlan_held {s : State} {p : RelayPlan} (hk : Held q0 n0 c0 s) : Held q0 n0 c0 (State.relayPlan s p) := by
  unfold State.relayPlan
  extract_lets l0 l1
  have hl0 : Held q0 n0 c0 l0 := by
    unfold l0
    with_reducible repeat' first | assumption | apply State.sessionAbort_held
  try clear_value l0
  have hl1 : Held q0 n0 c0 l1 := by
    unfold l1
    with_reducible repeat' first | assumption | apply State.onWgt_held
  try clear_value l1
  with_reducible repeat' first
    | assumption | apply State.onWgt_held | apply State.tellManager_held | apply State.forwardManifest_held
    | apply State.requestNeeded_held | apply State.beginSession_held | refine Held.ite ?_ ?_ | split

theorem State.expectCore_held {s : State} {shard : Nat} {core : Nat} (hk : Held q0 n0 c0 s) : Held q0 n0 c0 (State.expectCore s shard core) := by
  unfold State.expectCore
  with_reducible repeat' first | assumption | apply State.onWgt_held | refine Held.foldl (fun _ _ _ => ?_) ?_ | split

theorem State.stripeCheck_held {s : State} (hk : Held q0 n0 c0 s) : Held q0 n0 c0 (State.stripeCheck s) := by
  unfold State.stripeCheck
  with_reducible repeat' first
    | assumption | apply State.onWgt_held | apply State.recordWrites_held | apply State.relayFail_held | refine Held.ite ?_ ?_

theorem State.hashFailed_held {s : State} {c : Nat} {code : Nat} (hk : Held q0 n0 c0 s) : Held q0 n0 c0 (State.hashFailed s c code) := by
  unfold State.hashFailed
  extract_lets l0
  have hl0 : Held q0 n0 c0 l0 := by
    unfold l0
    with_reducible repeat' first | assumption | apply State.onWgt_held
  try clear_value l0
  with_reducible repeat' first | assumption | apply State.relayFail_held | apply State.request_held | refine Held.ite ?_ ?_

theorem State.verifyLeaves_held {s : State} (hk : Held q0 n0 c0 s) : Held q0 n0 c0 (State.verifyLeaves s) := by
  unfold State.verifyLeaves
  extract_lets l0
  try clear_value l0
  with_reducible repeat' first
    | assumption | apply State.onWgt_held | apply State.recordWrites_held | apply State.tellManager_held
    | apply State.hashFailed_held | refine Held.ite ?_ ?_ | split

theorem State.chunkGood_held {s : State} {pl : RelayPlan} {c : Nat} {b : Bytes} (hk : Held q0 n0 c0 s) : Held q0 n0 c0 (State.chunkGood s pl c b) := by
  unfold State.chunkGood
  extract_lets l0 l1 l2 l3
  have hl0 : Held q0 n0 c0 l0 := by
    unfold l0
    with_reducible repeat' first | assumption | apply State.onWgt_held
  try clear_value l0
  try clear_value l1
  have hl2 : Held q0 n0 c0 l2 := by
    unfold l2
    with_reducible repeat' first | assumption | apply State.onWgt_held | refine Held.ite ?_ ?_
  try clear_value l2
  try clear_value l3
  with_reducible repeat' first
    | assumption | apply State.relayFail_held | apply State.expectCore_held | apply State.stripeCheck_held
    | apply State.retryWaiting_held | refine Held.ite ?_ ?_ | refine Held.foldl (fun _ _ _ => ?_) ?_

theorem State.chunkVerify_held {s : State} {c : Nat} (hk : Held q0 n0 c0 s) : Held q0 n0 c0 (State.chunkVerify s c) := by
  unfold State.chunkVerify
  with_reducible repeat' first
    | assumption | apply State.verifyLeaves_held | apply State.chunkGood_held | apply State.hashFailed_held
    | apply State.retryWaiting_held | refine Held.ite ?_ ?_ | split

theorem State.relayStalled_held {s : State} (hk : Held q0 n0 c0 s) : Held q0 n0 c0 (State.relayStalled s) := by
  unfold State.relayStalled
  extract_lets l0 l1
  try clear_value l0
  have hl1 : Held q0 n0 c0 l1 := by
    unfold l1
    with_reducible repeat' first | assumption | apply State.onWgt_held
  try clear_value l1
  with_reducible repeat' first
    | assumption | apply State.request_held | apply State.tellManager_held | refine Held.ite ?_ ?_
    | refine Held.foldl (fun _ _ _ => ?_) ?_

theorem State.relayEnd_held {s : State} (hk : Held q0 n0 c0 s) : Held q0 n0 c0 (State.relayEnd s) := by
  unfold State.relayEnd
  with_reducible repeat' first
    | assumption | apply State.onWgt_held | apply State.retryWaiting_held | apply State.tellManager_held
    | refine Held.ite ?_ ?_

theorem State.readMasked_held {s : State} {c : Mgmt} {first : Nat} (hk : Held q0 n0 c0 s) : Held q0 n0 c0 (State.readMasked s c first) := by
  unfold State.readMasked
  extract_lets l0 l1 l2
  try clear_value l0
  try clear_value l1
  try clear_value l2
  with_reducible repeat' first | assumption | apply State.hostOutput_held | apply State.answer_held

theorem State.relayPieceCmd_held {s : State} {c : Mgmt} {len : Nat} {p : Piece} (hk : Held q0 n0 c0 s) : Held q0 n0 c0 (State.relayPieceCmd s c len p) := by
  unfold State.relayPieceCmd
  with_reducible repeat' first | assumption | apply State.answer_held | apply State.pieceArrives_held | refine Held.ite ?_ ?_

theorem execRelayPlan_held {src : Nat} {epoch : Nat} {plan : RelayPlan} {s : State} (hk : Held q0 n0 c0 s) : HeldO q0 n0 c0 (execRelayPlan src epoch plan s) := by
  unfold execRelayPlan
  with_reducible repeat' first
    | assumption | apply State.msgIn_held | apply State.fromMgr_held | apply State.relayPlan_held | refine HeldO.next ?_
    | intro _

theorem execRelayPieceArrival_held {p : Piece} {s : State} (hk : Held q0 n0 c0 s) : HeldO q0 n0 c0 (execRelayPieceArrival p s) := by
  unfold execRelayPieceArrival
  with_reducible repeat' first | assumption | apply State.msgIn_held | apply State.pieceArrives_held | refine HeldO.next ?_

theorem execChunkVerify_held {chunk : Nat} {s : State} (hk : Held q0 n0 c0 s) : HeldO q0 n0 c0 (execChunkVerify chunk s) := by
  unfold execChunkVerify
  with_reducible repeat' first | assumption | apply State.chunkVerify_held | refine HeldO.within ?_

theorem execRelayStalled_held {s : State} (hk : Held q0 n0 c0 s) : HeldO q0 n0 c0 (execRelayStalled s) := by
  unfold execRelayStalled
  with_reducible repeat' first | assumption | apply State.relayStalled_held | refine HeldO.next ?_

theorem execRelayEnd_held {src : Nat} {epoch : Nat} {s : State} (hk : Held q0 n0 c0 s) : HeldO q0 n0 c0 (execRelayEnd src epoch s) := by
  unfold execRelayEnd
  with_reducible repeat' first
    | assumption | apply State.msgIn_held | apply State.fromMgr_held | apply State.relayEnd_held | refine HeldO.next ?_

theorem execRelayPiece_held {c : Mgmt} {len : Nat} {p : Piece} {s : State} (hk : Held q0 n0 c0 s) : HeldO q0 n0 c0 (execRelayPiece c len p s) := by
  unfold execRelayPiece
  with_reducible repeat' first
    | assumption | apply State.mgmt_held | apply State.relayPieceCmd_held | refine HeldO.within ?_ | intro _

theorem execReadRelayStatus_held {c : Mgmt} {s : State} (hk : Held q0 n0 c0 s) : HeldO q0 n0 c0 (execReadRelayStatus c s) := by
  unfold execReadRelayStatus
  with_reducible repeat' first | assumption | apply State.mgmt_held | apply State.answer_held | refine HeldO.within ?_ | intro _

theorem execReadMaskedMap_held {c : Mgmt} {first : Nat} {s : State} (hk : Held q0 n0 c0 s) : HeldO q0 n0 c0 (execReadMaskedMap c first s) := by
  unfold execReadMaskedMap
  with_reducible repeat' first
    | assumption | apply State.mgmt_held | apply State.readMasked_held | refine HeldO.within ?_ | intro _

end Sys2Proof.Machine
end

