-- ==== Sys2Proof/Laws/HeldFabric.lean ====
section
/-!
SUPPORT. That the operations of Machine/Fabric.lean touch neither the queue nor the clock, and keep the tables canonical.
-/

namespace Sys2Proof.Machine

variable {q0 : List Instr} {n0 c0 : Nat}

theorem State.setPort_held {s : State} {n : Nat} {x : PortSt} (hk : Held q0 n0 c0 s) : Held q0 n0 c0 (State.setPort s n x) := by
  unfold State.setPort
  extract_lets l0
  try clear_value l0
  with_reducible repeat' first | assumption | fail_if_no_progress refine Held.same ?_

theorem State.portIrq_held {s : State} {n : Nat} (hk : Held q0 n0 c0 s) : Held q0 n0 c0 (State.portIrq s n) := by
  unfold State.portIrq
  with_reducible repeat' first | assumption | apply State.raiseBoth_held

theorem State.portDown_held {s : State} {n : Nat} {cause : Nat} (hk : Held q0 n0 c0 s) : Held q0 n0 c0 (State.portDown s n cause) := by
  unfold State.portDown
  extract_lets l0 l1 l2 l3 l4 l5 l6 l7 l8
  try clear_value l0
  try clear_value l1
  have hl2 : Held q0 n0 c0 l2 := by
    unfold l2
    with_reducible repeat' first | assumption | apply State.setFld_held
  try clear_value l2
  try clear_value l3
  have hl4 : Held q0 n0 c0 l4 := by
    unfold l4
    with_reducible repeat' first | assumption | apply State.setFld_held | apply State.setFlag_held | apply State.setPort_held
  try clear_value l4
  have hl5 : Held q0 n0 c0 l5 := by
    unfold l5
    with_reducible repeat' first | assumption | apply State.count_held | apply State.portIrq_held | apply State.post_held
  try clear_value l5
  have hl6 : Held q0 n0 c0 l6 := by
    unfold l6
    with_reducible repeat' first | assumption | apply State.unitError_held | refine Held.ite ?_ ?_
  try clear_value l6
  try clear_value l7
  have hl8 : Held q0 n0 c0 l8 := by
    unfold l8
    with_reducible repeat' first | assumption | fail_if_no_progress refine Held.same ?_
  try clear_value l8
  with_reducible repeat' first | assumption | apply State.onMgr_held | refine Held.ite ?_ ?_

theorem State.portLinkDown_held {s : State} {n : Nat} {cause : Nat} (hk : Held q0 n0 c0 s) : Held q0 n0 c0 (State.portLinkDown s n cause) := by
  unfold State.portLinkDown
  extract_lets l0
  try clear_value l0
  with_reducible repeat' first | assumption | apply State.portDown_held | refine Held.ite ?_ ?_

theorem State.portUp_held {s : State} {n : Nat} (hk : Held q0 n0 c0 s) : Held q0 n0 c0 (State.portUp s n) := by
  unfold State.portUp
  extract_lets l0
  have hl0 : Held q0 n0 c0 l0 := by
    unfold l0
    with_reducible repeat' first | assumption | apply State.setFld_held
  try clear_value l0
  with_reducible repeat' first | assumption | apply State.portIrq_held | apply State.post_held | refine Held.ite ?_ ?_

theorem State.retrain_held {s : State} {p : Path} {n : Nat} (hk : Held q0 n0 c0 s) : Held q0 n0 c0 (State.retrain s p n) := by
  unfold State.retrain
  extract_lets l0
  have hl0 : Held q0 n0 c0 l0.2 := by
    unfold l0
    with_reducible repeat' first | assumption | apply State.ownWrite_held
  try clear_value l0
  with_reducible repeat' first | assumption | apply State.portDown_held | apply State.setFlag_held | refine Held.ite ?_ ?_

theorem State.releaseList_held : ∀ {l : List FwMsg} {s : State}, Held q0 n0 c0 s → Held q0 n0 c0 (State.releaseList l s)
  | [], _, hk => hk
  | m :: rest, s, hk => by
    unfold State.releaseList
    have h := State.transmit_held (m := m) hk
    exact Held.ite (State.releaseList_held (Held.ite h.same h)) (State.releaseList_held hk.same)

theorem State.releaseWaiting_held {s : State} (hk : Held q0 n0 c0 s) : Held q0 n0 c0 (State.releaseWaiting s) := by
  unfold State.releaseWaiting
  extract_lets l0 l1
  try clear_value l0
  try clear_value l1
  with_reducible repeat' first | assumption | apply State.releaseList_held | fail_if_no_progress refine Held.same ?_

theorem State.sendAck_held {s : State} {part : Nat} {seq : Option Nat} {units : Nat} (hk : Held q0 n0 c0 s) : Held q0 n0 c0 (State.sendAck s part seq units) := by
  unfold State.sendAck
  extract_lets l0
  try clear_value l0
  with_reducible repeat' first | assumption | fail_if_no_progress refine Held.same ?_

theorem State.grantCredits_held : ∀ {k : Nat} {s : State}, Held q0 n0 c0 s → Held q0 n0 c0 (State.grantCredits k s)
  | 0, _, hk => hk
  | k + 1, s, hk => by
    unfold State.grantCredits
    split
    · exact hk
    · exact Held.ite hk (State.grantCredits_held (State.sendAck_held hk.same))

theorem State.creditRequest_held {s : State} {src : Nat} {units : Nat} (hk : Held q0 n0 c0 s) : Held q0 n0 c0 (State.creditRequest s src units) := by
  unfold State.creditRequest
  extract_lets l0 l1
  try clear_value l0
  have hl1 : Held q0 n0 c0 l1 := by
    unfold l1
    with_reducible repeat' first | assumption | fail_if_no_progress refine Held.same ?_
  try clear_value l1
  with_reducible repeat' first | assumption | apply State.grantCredits_held

theorem State.creditBack_held {s : State} {src : Nat} {units : Nat} (hk : Held q0 n0 c0 s) : Held q0 n0 c0 (State.creditBack s src units) := by
  unfold State.creditBack
  extract_lets l0 l1
  try clear_value l0
  have hl1 : Held q0 n0 c0 l1 := by
    unfold l1
    with_reducible repeat' first | assumption | fail_if_no_progress refine Held.same ?_
  try clear_value l1
  with_reducible repeat' first | assumption | apply State.grantCredits_held | refine Held.ite ?_ ?_

theorem State.ackIn_held {s : State} {src : Nat} {seq : Option Nat} {units : Nat} (hk : Held q0 n0 c0 s) : Held q0 n0 c0 (State.ackIn s src seq units) := by
  unfold State.ackIn
  extract_lets l0 l1 l2 l3 l4 l5
  try clear_value l0
  try clear_value l1
  have hl2 : Held q0 n0 c0 l2 := by
    unfold l2
    with_reducible repeat' first | assumption | fail_if_no_progress refine Held.same ?_
  try clear_value l2
  try clear_value l3
  try clear_value l4
  have hl5 : Held q0 n0 c0 l5 := by
    unfold l5
    with_reducible repeat' first | assumption | fail_if_no_progress refine Held.same ?_ | refine Held.ite ?_ ?_
  try clear_value l5
  with_reducible repeat' first | assumption | apply State.releaseWaiting_held

theorem State.resend_held {s : State} {part : Nat} {seq : Nat} (hk : Held q0 n0 c0 s) : Held q0 n0 c0 (State.resend s part seq) := by
  unfold State.resend
  extract_lets l0 l1 l2
  try clear_value l0
  try clear_value l1
  have hl2 : Held q0 n0 c0 l2 := by
    unfold l2
    with_reducible repeat' first | assumption | fail_if_no_progress refine Held.same ?_
  try clear_value l2
  with_reducible repeat' first
    | assumption | apply State.count_held | apply State.post_held | apply State.reportMgr_held
    | apply State.releaseWaiting_held | fail_if_no_progress refine Held.same ?_ | refine Held.ite ?_ ?_ | split

theorem State.sendPause_held {s : State} {n : Nat} {mask : Nat} (hk : Held q0 n0 c0 s) : Held q0 n0 c0 (State.sendPause s n mask) := by
  unfold State.sendPause
  extract_lets l0 l1
  have hl0 : Held q0 n0 c0 l0 := by
    unfold l0
    with_reducible repeat' first | assumption | apply State.setFld_held | apply State.count_held
  try clear_value l0
  try clear_value l1
  with_reducible repeat' first | assumption | apply State.setPort_held

theorem State.pauseCheck_held {s : State} {n : Nat} (hk : Held q0 n0 c0 s) : Held q0 n0 c0 (State.pauseCheck s n) := by
  unfold State.pauseCheck
  extract_lets l0
  try clear_value l0
  with_reducible repeat' first | assumption | apply State.sendPause_held | refine Held.ite ?_ ?_

theorem State.xonResume_held {s : State} {n : Nat} {drained : Nat} {drained1 : Nat} (hk : Held q0 n0 c0 s) : Held q0 n0 c0 (State.xonResume s n drained drained1) := by
  unfold State.xonResume
  extract_lets l0 l1 l2
  try clear_value l0
  have hl1 : Held q0 n0 c0 l1 := by
    unfold l1
    with_reducible repeat' first | assumption | apply State.setPort_held
  try clear_value l1
  try clear_value l2
  with_reducible repeat' first | assumption | apply State.setFld_held | refine Held.ite ?_ ?_

theorem State.pauseRepeat_held {s : State} {n : Nat} (hk : Held q0 n0 c0 s) : Held q0 n0 c0 (State.pauseRepeat s n) := by
  unfold State.pauseRepeat
  extract_lets l0
  try clear_value l0
  with_reducible repeat' first | assumption | apply State.sendPause_held | refine Held.ite ?_ ?_

theorem State.txRelease_held {s : State} {n : Nat} {c : Nat} (hk : Held q0 n0 c0 s) : Held q0 n0 c0 (State.txRelease s n c) := by
  unfold State.txRelease
  extract_lets l0 l1
  try clear_value l0
  try clear_value l1
  with_reducible repeat' first | assumption | fail_if_no_progress refine Held.same ?_ | refine Held.ite ?_ ?_

theorem State.pauseExpiry_held {s : State} {n : Nat} {c : Nat} (hk : Held q0 n0 c0 s) : Held q0 n0 c0 (State.pauseExpiry s n c) := by
  unfold State.pauseExpiry
  extract_lets l0 l1
  try clear_value l0
  try clear_value l1
  with_reducible repeat' first | assumption | apply State.setPort_held | apply State.txRelease_held | refine Held.ite ?_ ?_

theorem State.pfcPause_held {s : State} {n : Nat} {quanta : List (Nat × Nat)} (hk : Held q0 n0 c0 s) : Held q0 n0 c0 (State.pfcPause s n quanta) := by
  unfold State.pfcPause
  extract_lets l0 l1 l2
  try clear_value l0
  try clear_value l1
  have hl2 : Held q0 n0 c0 l2 := by
    unfold l2
    with_reducible repeat' first | assumption | apply State.setPort_held | apply State.count_held
  try clear_value l2
  with_reducible repeat' first | assumption | apply State.txRelease_held | refine Held.foldl (fun _ _ _ => ?_) ?_

theorem State.legData_held {s : State} {n : Nat} {f : RxFrame} {rec : Nat} (hk : Held q0 n0 c0 s) : Held q0 n0 c0 (State.legData s n f rec) := by
  unfold State.legData
  extract_lets l0
  have hl0 : Held q0 n0 c0 l0 := by
    unfold l0
    with_reducible repeat' first | assumption | apply State.count_held | refine Held.ite ?_ ?_
  try clear_value l0
  with_reducible repeat' first
    | assumption | apply State.deliver_held | apply State.ctrInc_held | apply State.restart_held
    | fail_if_no_progress refine Held.same ?_ | refine Held.ite ?_ ?_ | split

theorem State.takeEarly_held : ∀ {k : Nat} {s : State} {src : Nat}, Held q0 n0 c0 s → Held q0 n0 c0 (State.takeEarly k s src)
  | 0, _, _, hk => hk
  | k + 1, s, src, hk => by
    unfold State.takeEarly
    exact Held.ite (State.takeEarly_held hk.same) hk

theorem State.messageFrame_held {s : State} {f : RxFrame} (hk : Held q0 n0 c0 s) : Held q0 n0 c0 (State.messageFrame s f) := by
  unfold State.messageFrame
  extract_lets l0 l1 l2 l3 l4 l5 l6
  try clear_value l0
  try clear_value l1
  try clear_value l2
  try clear_value l3
  try clear_value l4
  have hl5 : Held q0 n0 c0 l5 := by
    unfold l5
    with_reducible repeat' first | assumption | fail_if_no_progress refine Held.same ?_
  try clear_value l5
  have hl6 : Held q0 n0 c0 l6 := by
    unfold l6
    with_reducible repeat' first | assumption | apply State.sendAck_held | apply State.creditBack_held
  try clear_value l6
  with_reducible repeat' first
    | assumption | apply State.sendAck_held | apply State.takeEarly_held | fail_if_no_progress refine Held.same ?_
    | refine Held.ite ?_ ?_

theorem State.acceptFrame_held {s : State} {n : Nat} {f : RxFrame} {deliver : State → State} (hk : Held q0 n0 c0 s) (hact : ∀ s, Held q0 n0 c0 s → Held q0 n0 c0 (deliver s)) : Held q0 n0 c0 (State.acceptFrame s n f deliver) := by
  unfold State.acceptFrame
  extract_lets l0 l1 l2 l3
  try clear_value l0
  have hl1 : Held q0 n0 c0 l1 := by
    unfold l1
    with_reducible repeat' first | assumption | apply State.setPort_held
  try clear_value l1
  try clear_value l2
  have hl3 : Held q0 n0 c0 l3 := by
    unfold l3
    with_reducible repeat' first | assumption | fail_if_no_progress refine Held.same ?_
  try clear_value l3
  with_reducible repeat' first | assumption | refine hact _ ?_ | apply State.pauseCheck_held

theorem State.frameIn_held {s : State} {n : Nat} {f : RxFrame} (hk : Held q0 n0 c0 s) : Held q0 n0 c0 (State.frameIn s n f) := by
  unfold State.frameIn
  extract_lets l0 l1 l2 l3 l4
  have hl0 : Held q0 n0 c0 l0 := by
    unfold l0
    with_reducible repeat' first | assumption | apply State.count_held
  try clear_value l0
  try clear_value l1
  try clear_value l2
  have hl3 : Held q0 n0 c0 l3 := by
    unfold l3
    with_reducible repeat' first | assumption | apply State.setPort_held | apply State.unitError_held | refine Held.ite ?_ ?_
  try clear_value l3
  have hl4 : Held q0 n0 c0 l4 := by
    unfold l4
    with_reducible repeat' first | assumption | apply State.setPort_held
  try clear_value l4
  with_reducible repeat' first
    | assumption | (dsimp only [id]; assumption) | apply State.count_held | apply State.acceptFrame_held
    | apply State.legData_held | apply State.messageFrame_held | refine Held.ite ?_ ?_ | split | intro _

theorem execPortLinkDown_held {port : Nat} {cause : Nat} {s : State} (hk : Held q0 n0 c0 s) : HeldO q0 n0 c0 (execPortLinkDown port cause s) := by
  unfold execPortLinkDown
  with_reducible repeat' first | assumption | apply State.portLinkDown_held | refine HeldO.within ?_

theorem execPortUp_held {port : Nat} {s : State} (hk : Held q0 n0 c0 s) : HeldO q0 n0 c0 (execPortUp port s) := by
  unfold execPortUp
  with_reducible repeat' first | assumption | apply State.portUp_held | refine HeldO.within ?_

theorem execRetrain_held {path : Path} {port : Nat} {s : State} (hk : Held q0 n0 c0 s) : HeldO q0 n0 c0 (execRetrain path port s) := by
  unfold execRetrain
  with_reducible repeat' first | assumption | apply State.retrain_held | refine HeldO.within ?_

theorem execFabricFrameReceived_held {port : Nat} {f : RxFrame} {s : State} (hk : Held q0 n0 c0 s) : HeldO q0 n0 c0 (execFabricFrameReceived port f s) := by
  unfold execFabricFrameReceived
  with_reducible repeat' first | assumption | apply State.frameIn_held | refine HeldO.within ?_

theorem execXonResume_held {port : Nat} {drained : Nat} {drained1 : Nat} {s : State} (hk : Held q0 n0 c0 s) : HeldO q0 n0 c0 (execXonResume port drained drained1 s) := by
  unfold execXonResume
  with_reducible repeat' first | assumption | apply State.xonResume_held | refine HeldO.within ?_

theorem execPauseRepeat_held {port : Nat} {s : State} (hk : Held q0 n0 c0 s) : HeldO q0 n0 c0 (execPauseRepeat port s) := by
  unfold execPauseRepeat
  with_reducible repeat' first | assumption | apply State.pauseRepeat_held | refine HeldO.within ?_

theorem execPfcPauseReceived_held {port : Nat} {quanta : List (Nat × Nat)} {s : State} (hk : Held q0 n0 c0 s) : HeldO q0 n0 c0 (execPfcPauseReceived port quanta s) := by
  unfold execPfcPauseReceived
  with_reducible repeat' first | assumption | apply State.pfcPause_held | refine HeldO.within ?_

theorem execPauseTimeExpiry_held {port : Nat} {cls : Nat} {s : State} (hk : Held q0 n0 c0 s) : HeldO q0 n0 c0 (execPauseTimeExpiry port cls s) := by
  unfold execPauseTimeExpiry
  with_reducible repeat' first | assumption | apply State.pauseExpiry_held | refine HeldO.within ?_

theorem execAck_held {src : Nat} {seq : Option Nat} {units : Nat} {s : State} (hk : Held q0 n0 c0 s) : HeldO q0 n0 c0 (execAck src seq units s) := by
  unfold execAck
  with_reducible repeat' first | assumption | apply State.ackIn_held | refine HeldO.next ?_

theorem execCreditRequest_held {src : Nat} {units : Nat} {s : State} (hk : Held q0 n0 c0 s) : HeldO q0 n0 c0 (execCreditRequest src units s) := by
  unfold execCreditRequest
  with_reducible repeat' first | assumption | apply State.creditRequest_held | refine HeldO.next ?_

end Sys2Proof.Machine
end

