-- ==== Sys2Proof/Laws/HeldProgram.lean ====
section
/-!
SUPPORT. That the operations of Machine/Program.lean touch neither the queue nor the clock, and keep the tables canonical.
-/

namespace Sys2Proof.Machine

variable {q0 : List Instr} {n0 c0 : Nat}

theorem State.setJob_held {s : State} {a : Nat} {j : Job} (hk : Held q0 n0 c0 s) : Held q0 n0 c0 (State.setJob s a j) := by
  unfold State.setJob
  with_reducible repeat' first | assumption | apply State.onWgt_held

theorem State.dropJob_held {s : State} {a : Nat} (hk : Held q0 n0 c0 s) : Held q0 n0 c0 (State.dropJob s a) := by
  unfold State.dropJob
  with_reducible repeat' first | assumption | apply State.onWgt_held

theorem State.jobIssue_held {s : State} {a : Nat} {j : Job} (hk : Held q0 n0 c0 s) : Held q0 n0 c0 (State.jobIssue s a j) := by
  unfold State.jobIssue
  extract_lets l0 l1 l2
  try clear_value l0
  have hl1 : Held q0 n0 c0 l1 := by
    unfold l1
    with_reducible repeat' first | assumption | apply State.hamperWrite_held | refine Held.ite ?_ ?_
  try clear_value l1
  have hl2 : Held q0 n0 c0 l2 := by
    unfold l2
    with_reducible repeat' first | assumption | apply State.setFld_held
  try clear_value l2
  with_reducible repeat' first | assumption | apply State.arrCommand_held | apply State.setJob_held | refine Held.ite ?_ ?_

theorem State.kickJobs_held {s : State} (hk : Held q0 n0 c0 s) : Held q0 n0 c0 (State.kickJobs s) := by
  unfold State.kickJobs
  with_reducible repeat' first | assumption | apply State.jobIssue_held | refine Held.foldl (fun _ _ _ => ?_) ?_

theorem State.jobTo_held {s : State} {a : Nat} {j : Job} {st : JobStage} (hk : Held q0 n0 c0 s) : Held q0 n0 c0 (State.jobTo s a j st) := by
  unfold State.jobTo
  with_reducible repeat' first | assumption | apply State.setJob_held

theorem State.jobStart_held {s : State} {a : Nat} {again : Bool} (hk : Held q0 n0 c0 s) : Held q0 n0 c0 (State.jobStart s a again) := by
  unfold State.jobStart
  extract_lets l0
  try clear_value l0
  with_reducible repeat' first
    | assumption | apply State.setRec_held | apply State.onWgt_held | apply State.arrCommand_held | apply State.setJob_held
    | refine Held.ite ?_ ?_ | split

theorem State.jobFaulty_held {s : State} {a : Nat} {fault : Nat} (hk : Held q0 n0 c0 s) : Held q0 n0 c0 (State.jobFaulty s a fault) := by
  unfold State.jobFaulty
  extract_lets l0 l1 l2 l3
  try clear_value l0
  have hl1 : Held q0 n0 c0 l1 := by
    unfold l1
    with_reducible repeat' first | assumption | apply State.setRec_held
  try clear_value l1
  have hl2 : Held q0 n0 c0 l2 := by
    unfold l2
    with_reducible repeat' first | assumption | apply State.dropJob_held | apply State.arrCommand_held
  try clear_value l2
  have hl3 : Held q0 n0 c0 l3 := by
    unfold l3
    with_reducible repeat' first | assumption | apply State.onWgt_held
  try clear_value l3
  with_reducible repeat' first | assumption | apply State.retireCore_held

theorem State.coreProgrammed_held {s : State} {site : Nat} (hk : Held q0 n0 c0 s) : Held q0 n0 c0 (State.coreProgrammed s site) := by
  unfold State.coreProgrammed
  extract_lets l0
  have hl0 : Held q0 n0 c0 l0 := by
    unfold l0
    with_reducible repeat' first | assumption | apply State.setFld_held
  try clear_value l0
  with_reducible repeat' first
    | assumption | apply State.onWgt_held | apply State.retryWaiting_held | refine Held.ite ?_ ?_ | split

theorem State.jobValid_held {s : State} {a : Nat} (hk : Held q0 n0 c0 s) : Held q0 n0 c0 (State.jobValid s a) := by
  unfold State.jobValid
  extract_lets l0 l1
  try clear_value l0
  have hl1 : Held q0 n0 c0 l1 := by
    unfold l1
    with_reducible repeat' first | assumption | apply State.stampRec_held
  try clear_value l1
  with_reducible repeat' first
    | assumption | apply State.dropJob_held | apply State.arrCommand_held | apply State.coreProgrammed_held

theorem State.ledgerMends_held {s : State} {a : Nat} {state : Nat} {origin : Nat} {ms : List MendPlan} (hk : Held q0 n0 c0 s) : Held q0 n0 c0 (State.ledgerMends s a state origin ms) := by
  unfold State.ledgerMends
  extract_lets l0
  try clear_value l0
  with_reducible repeat' first | assumption | apply State.onWgt_held | apply State.recordWrites_held

theorem State.jobPlan_held {s : State} {a : Nat} {j : Job} (hk : Held q0 n0 c0 s) : Held q0 n0 c0 (State.jobPlan s a j) := by
  unfold State.jobPlan
  with_reducible repeat' first
    | assumption | apply State.jobFaulty_held | apply State.ledgerMends_held | apply State.jobTo_held | refine Held.ite ?_ ?_
    | split

theorem State.jobMove_held {s : State} {a : Nat} {j : Job} {r : Nat} (hk : Held q0 n0 c0 s) : Held q0 n0 c0 (State.jobMove s a j r) := by
  unfold State.jobMove
  extract_lets l0 l1
  try clear_value l0
  try clear_value l1
  with_reducible repeat' first
    | assumption | apply State.jobFaulty_held | apply State.ledgerMends_held | apply State.jobTo_held | split

theorem State.jobCheck_held {s : State} {a : Nat} {j : Job} (hk : Held q0 n0 c0 s) : Held q0 n0 c0 (State.jobCheck s a j) := by
  unfold State.jobCheck
  with_reducible repeat' first
    | assumption | apply State.jobValid_held | apply State.jobFaulty_held | apply State.jobStart_held | refine Held.ite ?_ ?_

theorem State.refreshCommit_held {s : State} {a : Nat} (hk : Held q0 n0 c0 s) : Held q0 n0 c0 (State.refreshCommit s a) := by
  unfold State.refreshCommit
  extract_lets l0 l1 l2
  try clear_value l0
  have hl1 : Held q0 n0 c0 l1 := by
    unfold l1
    with_reducible repeat' first | assumption | apply State.onWgt_held | apply State.recordWrites_held
  try clear_value l1
  try clear_value l2
  with_reducible repeat' first | assumption | apply State.setRec_held | apply State.dropJob_held

theorem State.refreshLost_held {s : State} {a : Nat} (hk : Held q0 n0 c0 s) : Held q0 n0 c0 (State.refreshLost s a) := by
  unfold State.refreshLost
  extract_lets l0 l1
  have hl0 : Held q0 n0 c0 l0 := by
    unfold l0
    with_reducible repeat' first | assumption | apply State.dropJob_held | apply State.arrCommand_held
  try clear_value l0
  have hl1 : Held q0 n0 c0 l1 := by
    unfold l1
    with_reducible repeat' first | assumption | apply State.onWgt_held
  try clear_value l1
  with_reducible repeat' first | assumption | apply State.setRepair_held | apply State.tellManager_held

theorem State.jobNext_held {s : State} {a : Nat} {j : Job} {fs : List CellFault} {over_ : Bool} (hk : Held q0 n0 c0 s) : Held q0 n0 c0 (State.jobNext s a j fs over_) := by
  unfold State.jobNext
  extract_lets l0 l1 l2
  try clear_value l0
  try clear_value l1
  try clear_value l2
  with_reducible repeat' first
    | assumption | apply State.setRec_held | apply State.jobTo_held | apply State.jobFaulty_held | apply State.jobPlan_held
    | apply State.refreshLost_held | apply State.jobMove_held | apply State.refreshCommit_held | apply State.jobCheck_held
    | apply State.dropJob_held | refine Held.ite ?_ ?_ | split

theorem State.refreshMend_held {s : State} {a : Nat} {ns : List MendNeed} (hk : Held q0 n0 c0 s) : Held q0 n0 c0 (State.refreshMend s a ns) := by
  unfold State.refreshMend
  with_reducible repeat' first
    | assumption | apply State.refreshLost_held | apply State.ledgerMends_held | apply State.setRec_held
    | apply State.setJob_held | refine Held.ite ?_ ?_ | split

theorem State.refreshDone_held {s : State} {a : Nat} {before : ArrSt} {result : Nat} (hk : Held q0 n0 c0 s) : Held q0 n0 c0 (State.refreshDone s a before result) := by
  unfold State.refreshDone
  extract_lets l0 l1 l2 l3 l4
  try clear_value l0
  try clear_value l1
  try clear_value l2
  have hl3 : Held q0 n0 c0 l3 := by
    unfold l3
    with_reducible repeat' first | assumption | apply State.unitError_held
  try clear_value l3
  have hl4 : Held q0 n0 c0 l4 := by
    unfold l4
    with_reducible repeat' first
      | assumption | apply State.setArr_held | apply State.stampRec_held | apply State.setRec_held | refine Held.ite ?_ ?_
  try clear_value l4
  with_reducible repeat' first
    | assumption | apply State.refreshLost_held | apply State.refreshMend_held | refine Held.ite ?_ ?_ | split

theorem State.planReady_held {s : State} (hk : Held q0 n0 c0 s) : Held q0 n0 c0 (State.planReady s) := by
  unfold State.planReady
  with_reducible repeat' first | assumption | apply State.beginSession_held | refine Held.ite ?_ ?_ | split

theorem State.commandEnd_held {s : State} {a : Nat} {reads : List (Nat × Nat)} {finals : List (Nat × Nat)} {sweep : List Nat} (hk : Held q0 n0 c0 s) : Held q0 n0 c0 (State.commandEnd s a reads finals sweep) := by
  unfold State.commandEnd
  extract_lets l0
  try clear_value l0
  with_reducible repeat' first
    | assumption | apply State.arrCommandEnd_held | apply State.dropJob_held | apply State.setJob_held
    | apply State.jobNext_held | apply State.refreshDone_held | apply State.planReady_held | apply State.kickJobs_held
    | apply State.programmedCheck_held | refine Held.ite ?_ ?_ | split

theorem State.programCore_held {s : State} {core : Nat} (hk : Held q0 n0 c0 s) : Held q0 n0 c0 (State.programCore s core) := by
  unfold State.programCore
  extract_lets l0
  have hl0 : Held q0 n0 c0 l0 := by
    unfold l0
    with_reducible repeat' first | assumption | apply State.onWgt_held
  try clear_value l0
  with_reducible repeat' first
    | assumption | apply State.kickJobs_held | apply State.jobStart_held | refine Held.ite ?_ ?_
    | refine Held.foldl (fun _ _ _ => ?_) ?_ | split

theorem State.scrubRead_held {s : State} {a : Nat} (hk : Held q0 n0 c0 s) : Held q0 n0 c0 (State.scrubRead s a) := by
  unfold State.scrubRead
  extract_lets l0
  try clear_value l0
  with_reducible repeat' first
    | assumption | apply State.onWgt_held | apply State.setRepair_held | apply State.tellManager_held
    | apply State.requestNeeded_held | refine Held.ite ?_ ?_ | split

theorem State.ageFromTime_held {s : State} {first : Bool} {a : Nat} (hk : Held q0 n0 c0 s) : Held q0 n0 c0 (State.ageFromTime s first a) := by
  unfold State.ageFromTime
  extract_lets l0 l1 l2 l3
  try clear_value l0
  try clear_value l1
  have hl2 : Held q0 n0 c0 l2 := by
    unfold l2
    with_reducible repeat' first | assumption | apply State.setRec_held | refine Held.ite ?_ ?_
  try clear_value l2
  try clear_value l3
  with_reducible repeat' first | assumption | apply State.setAge_held | refine Held.ite ?_ ?_

theorem State.setTimeCmd_held {s : State} {c : Mgmt} {sec : Nat} {nsec : Nat} (hk : Held q0 n0 c0 s) : Held q0 n0 c0 (State.setTimeCmd s c sec nsec) := by
  unfold State.setTimeCmd
  extract_lets l0 l1 l2 l3 l4
  try clear_value l0
  try clear_value l1
  try clear_value l2
  have hl3 : Held q0 n0 c0 l3 := by
    unfold l3
    with_reducible repeat' first | assumption | fail_if_no_progress refine Held.same ?_
  try clear_value l3
  have hl4 : Held q0 n0 c0 l4 := by
    unfold l4
    with_reducible repeat' first | assumption | apply State.ageFromTime_held | refine Held.foldl (fun _ _ _ => ?_) ?_
  try clear_value l4
  with_reducible repeat' first | assumption | apply State.answer_held | refine Held.ite ?_ ?_

theorem execArrayCommandEnd_held {arr : Nat} {reads : List (Nat × Nat)} {finals : List (Nat × Nat)} {sweep : List Nat} {s : State} (hk : Held q0 n0 c0 s) : HeldO q0 n0 c0 (execArrayCommandEnd arr reads finals sweep s) := by
  unfold execArrayCommandEnd
  with_reducible repeat' first | assumption | apply State.commandEnd_held | refine HeldO.within ?_

theorem execCoreProgramStart_held {core : Nat} {s : State} (hk : Held q0 n0 c0 s) : HeldO q0 n0 c0 (execCoreProgramStart core s) := by
  unfold execCoreProgramStart
  with_reducible repeat' first | assumption | apply State.programCore_held | refine HeldO.within ?_

theorem execScrubRead_held {arr : Nat} {s : State} (hk : Held q0 n0 c0 s) : HeldO q0 n0 c0 (execScrubRead arr s) := by
  unfold execScrubRead
  with_reducible repeat' first | assumption | apply State.scrubRead_held | refine HeldO.within ?_

theorem execSetTime_held {c : Mgmt} {sec : Nat} {nsec : Nat} {s : State} (hk : Held q0 n0 c0 s) : HeldO q0 n0 c0 (execSetTime c sec nsec s) := by
  unfold execSetTime
  with_reducible repeat' first
    | assumption | apply State.mgmt_held | apply State.setTimeCmd_held | refine HeldO.within ?_ | intro _

end Sys2Proof.Machine
end

