-- ==== Sys2Proof/Laws/HeldDomain.lean ====
section
/-!
SUPPORT. That the operations of Machine/Domain.lean touch neither the queue nor the clock, and keep the tables canonical.
-/

namespace Sys2Proof.Machine

variable {q0 : List Instr} {n0 c0 : Nat}

theorem State.givePlan_held {s : State} {part : Nat} {p : RelayPlan} (hk : Held q0 n0 c0 s) : Held q0 n0 c0 (State.givePlan s part p) := by
  unfold State.givePlan
  extract_lets l0
  try clear_value l0
  with_reducible repeat' first
    | assumption | apply State.relayPlan_held | apply State.onWgt_held | apply State.sendMsg_held | refine Held.ite ?_ ?_

theorem State.newTree_held {s : State} {q : List (Nat × List Nat)} {needs : SMap Nat} {fresh : List Nat} (hk : Held q0 n0 c0 s) : Held q0 n0 c0 (State.newTree s q needs fresh) := by
  unfold State.newTree
  extract_lets l0
  try clear_value l0
  with_reducible repeat' first
    | assumption | apply State.givePlan_held | apply State.onWgt_held | refine Held.foldl (fun _ _ _ => ?_) ?_ | split

theorem State.planRelay_held {s : State} {kind : Nat} {needing : List Nat} (hk : Held q0 n0 c0 s) : Held q0 n0 c0 (State.planRelay s kind needing) := by
  unfold State.planRelay
  extract_lets l0 l1 l2
  try clear_value l0
  try clear_value l1
  try clear_value l2
  with_reducible repeat' first | assumption | apply State.newTree_held | refine Held.ite ?_ ?_

theorem State.planAround_held {s : State} {part : Nat} {gone : Bool} (hk : Held q0 n0 c0 s) : Held q0 n0 c0 (State.planAround s part gone) := by
  unfold State.planAround
  extract_lets l0 l1
  try clear_value l0
  have hl1 : Held q0 n0 c0 l1 := by
    unfold l1
    with_reducible repeat' first | assumption | apply State.newTree_held
  try clear_value l1
  with_reducible repeat' first | assumption | apply State.onWgt_held | refine Held.ite ?_ ?_

theorem State.sendMaps_held {s : State} (hk : Held q0 n0 c0 s) : Held q0 n0 c0 (State.sendMaps s) := by
  unfold State.sendMaps
  with_reducible repeat' first
    | assumption | apply State.mapIn_held | apply State.sendMsg_held | refine Held.ite ?_ ?_
    | refine Held.foldl (fun _ _ _ => ?_) ?_

theorem State.withdrawIn_held {s : State} {part : Nat} {out : Bool} (hk : Held q0 n0 c0 s) : Held q0 n0 c0 (State.withdrawIn s part out) := by
  unfold State.withdrawIn
  with_reducible repeat' first | assumption | apply State.onMgr_held | refine Held.ite ?_ ?_

theorem State.setWithdrawn_held {s : State} {part : Nat} {out : Bool} (hk : Held q0 n0 c0 s) : Held q0 n0 c0 (State.setWithdrawn s part out) := by
  unfold State.setWithdrawn
  with_reducible repeat' first
    | assumption | apply State.setFlag_held | apply State.sendMsg_held | apply State.onMgr_held | apply State.withdrawIn_held
    | apply State.sendMaps_held | apply State.planAround_held | refine Held.ite ?_ ?_ | refine Held.foldl (fun _ _ _ => ?_) ?_
    | split

theorem State.substitute_held {s : State} {part : Nat} (hk : Held q0 n0 c0 s) : Held q0 n0 c0 (State.substitute s part) := by
  unfold State.substitute
  with_reducible repeat' first | assumption | apply State.onMgr_held | apply State.sendMsg_held | refine Held.ite ?_ ?_ | split

theorem State.assumeNext_held {s : State} {b : Substitution} (hk : Held q0 n0 c0 s) : Held q0 n0 c0 (State.assumeNext s b) := by
  unfold State.assumeNext
  with_reducible repeat' first | assumption | apply State.onMgr_held | apply State.sendMsg_held

theorem State.cutIn_held {s : State} {src : Nat} (hk : Held q0 n0 c0 s) : Held q0 n0 c0 (State.cutIn s src) := by
  unfold State.cutIn
  extract_lets l0
  have hl0 : Held q0 n0 c0 l0 := by
    unfold l0
    with_reducible repeat' first | assumption | apply State.onMgr_held | apply State.sendMsg_held
  try clear_value l0
  with_reducible repeat' first | assumption | apply State.setFld_held

theorem State.cutAck_held {s : State} {src : Nat} (hk : Held q0 n0 c0 s) : Held q0 n0 c0 (State.cutAck s src) := by
  unfold State.cutAck
  with_reducible repeat' first | assumption | apply State.assumeNext_held | refine Held.ite ?_ ?_ | split

theorem State.cutTimeout_held {s : State} (hk : Held q0 n0 c0 s) : Held q0 n0 c0 (State.cutTimeout s) := by
  unfold State.cutTimeout
  with_reducible repeat' first | assumption | apply State.assumeNext_held | refine Held.ite ?_ ?_ | split

theorem State.assumeIn_held {s : State} {src : Nat} {number : Nat} (hk : Held q0 n0 c0 s) : Held q0 n0 c0 (State.assumeIn s src number) := by
  unfold State.assumeIn
  with_reducible repeat' first | assumption | apply State.setFld_held | apply State.sendMsg_held

theorem State.assumeAck_held {s : State} {src : Nat} (hk : Held q0 n0 c0 s) : Held q0 n0 c0 (State.assumeAck s src) := by
  unfold State.assumeAck
  with_reducible repeat' first
    | assumption | apply State.setFld_held | apply State.onMgr_held | apply State.sendMaps_held | apply State.planAround_held
    | apply State.planRelay_held | refine Held.ite ?_ ?_ | split

theorem State.endSessions_held {s : State} (hk : Held q0 n0 c0 s) : Held q0 n0 c0 (State.endSessions s) := by
  unfold State.endSessions
  extract_lets l0 l1 l2
  try clear_value l0
  try clear_value l1
  have hl2 : Held q0 n0 c0 l2 := by
    unfold l2
    with_reducible repeat' first | assumption | apply State.sendMsg_held | refine Held.foldl (fun _ _ _ => ?_) ?_
  try clear_value l2
  with_reducible repeat' first | assumption | apply State.onWgt_held | apply State.relayEnd_held | refine Held.ite ?_ ?_

theorem State.statusIn_held {s : State} {src : Nat} {state : Nat} {result : Nat} {need : Nat} {shard : Nat} {peer : Nat} {self : Nat} (hk : Held q0 n0 c0 s) : Held q0 n0 c0 (State.statusIn s src state result need shard peer self) := by
  unfold State.statusIn
  extract_lets l0 l1 l2 l3 l4 l5 l6 l7 l8 l9
  try clear_value l0
  try clear_value l1
  have hl2 : Held q0 n0 c0 l2 := by
    unfold l2
    with_reducible repeat' first | assumption | apply State.onWgt_held
  try clear_value l2
  have hl3 : Held q0 n0 c0 l3 := by
    unfold l3
    with_reducible repeat' first | assumption | apply State.setWithdrawn_held | refine Held.ite ?_ ?_
  try clear_value l3
  have hl4 : Held q0 n0 c0 l4 := by
    unfold l4
    with_reducible repeat' first | assumption | apply State.planRelay_held | refine Held.ite ?_ ?_
  try clear_value l4
  have hl5 : Held q0 n0 c0 l5 := by
    unfold l5
    with_reducible repeat' first | assumption | apply State.planAround_held | refine Held.ite ?_ ?_
  try clear_value l5
  have hl6 : Held q0 n0 c0 l6 := by
    unfold l6
    with_reducible repeat' first | assumption | apply State.setWithdrawn_held | refine Held.ite ?_ ?_
  try clear_value l6
  have hl7 : Held q0 n0 c0 l7 := by
    unfold l7
    with_reducible repeat' first | assumption | apply State.substitute_held | refine Held.ite ?_ ?_
  try clear_value l7
  have hl8 : Held q0 n0 c0 l8 := by
    unfold l8
    with_reducible repeat' first | assumption | apply State.onMgr_held | refine Held.ite ?_ ?_ | split
  try clear_value l8
  have hl9 : Held q0 n0 c0 l9 := by
    unfold l9
    with_reducible repeat' first | assumption | apply State.setWithdrawn_held | refine Held.ite ?_ ?_
  try clear_value l9
  with_reducible repeat' first | assumption | apply State.endSessions_held | refine Held.ite ?_ ?_ | split

theorem State.resendAct_held {s : State} {part : Nat} {seq : Nat} (hk : Held q0 n0 c0 s) : Held q0 n0 c0 (State.resendAct s part seq) := by
  unfold State.resendAct
  extract_lets l0
  have hl0 : Held q0 n0 c0 l0 := by
    unfold l0
    with_reducible repeat' first | assumption | apply State.resend_held
  try clear_value l0
  with_reducible repeat' first | assumption | apply State.planAround_held | refine Held.ite ?_ ?_

theorem State.setRoll_held {s : State} {p : Nat} {t : RollTally} (hk : Held q0 n0 c0 s) : Held q0 n0 c0 (State.setRoll s p t) := by
  unfold State.setRoll
  with_reducible repeat' first | assumption | apply State.onMgr_held

theorem State.expelIn_held {s : State} {n : Nat} {stripe : Nat} (hk : Held q0 n0 c0 s) : Held q0 n0 c0 (State.expelIn s n stripe) := by
  unfold State.expelIn
  extract_lets l0
  try clear_value l0
  with_reducible repeat' first | assumption | apply State.onMgr_held | apply State.post_held | apply State.tellManager_held

theorem State.expel_held {s : State} {p : Nat} {cause : Nat} {stripe : Nat} (hk : Held q0 n0 c0 s) : Held q0 n0 c0 (State.expel s p cause stripe) := by
  unfold State.expel
  extract_lets l0 l1 l2 l3
  try clear_value l0
  have hl1 : Held q0 n0 c0 l1 := by
    unfold l1
    with_reducible repeat' first | assumption | apply State.post_held
  try clear_value l1
  have hl2 : Held q0 n0 c0 l2 := by
    unfold l2
    with_reducible repeat' first | assumption | apply State.expelIn_held | apply State.sendMsg_held | refine Held.ite ?_ ?_
  try clear_value l2
  have hl3 : Held q0 n0 c0 l3 := by
    unfold l3
    with_reducible repeat' first | assumption | apply State.onMgr_held
  try clear_value l3
  with_reducible repeat' first
    | assumption | apply State.setRoll_held | apply State.setWithdrawn_held | apply State.substitute_held

theorem State.rollJudge_held {s : State} {p : Nat} {n : Nat} {shard : Nat} {digest : Option Bytes} (hk : Held q0 n0 c0 s) : Held q0 n0 c0 (State.rollJudge s p n shard digest) := by
  unfold State.rollJudge
  extract_lets l0 l1
  try clear_value l0
  have hl1 : Held q0 n0 c0 l1 := by
    unfold l1
    with_reducible repeat' first | assumption | apply State.setRoll_held
  try clear_value l1
  with_reducible repeat' first | assumption | apply State.expel_held | refine Held.ite ?_ ?_ | split

theorem State.rollCall_held {s : State} {src : Nat} {n : Nat} (hk : Held q0 n0 c0 s) : Held q0 n0 c0 (State.rollCall s src n) := by
  unfold State.rollCall
  extract_lets l0 l1 l2 l3 l4
  try clear_value l0
  try clear_value l1
  have hl2 : Held q0 n0 c0 l2 := by
    unfold l2
    with_reducible repeat' first | assumption | apply State.countReplay_held
  try clear_value l2
  have hl3 : Held q0 n0 c0 l3 := by
    unfold l3
    with_reducible repeat' first | assumption | apply State.countReplay_held | refine Held.ite ?_ ?_
  try clear_value l3
  have hl4 : Held q0 n0 c0 l4 := by
    unfold l4
    with_reducible repeat' first | assumption | apply State.onWgt_held
  try clear_value l4
  with_reducible repeat' first | assumption | apply State.rollJudge_held | apply State.sendMsg_held | refine Held.ite ?_ ?_

theorem State.rollDue_held {s : State} (hk : Held q0 n0 c0 s) : Held q0 n0 c0 (State.rollDue s) := by
  unfold State.rollDue
  extract_lets l0 l1 l2
  try clear_value l0
  have hl1 : Held q0 n0 c0 l1 := by
    unfold l1
    with_reducible repeat' first
      | assumption | apply State.expel_held | apply State.setRoll_held | refine Held.ite ?_ ?_
      | refine Held.foldl (fun _ _ _ => ?_) ?_
  try clear_value l1
  have hl2 : Held q0 n0 c0 l2 := by
    unfold l2
    with_reducible repeat' first | assumption | apply State.onMgr_held
  try clear_value l2
  with_reducible repeat' first
    | assumption | apply State.setRoll_held | apply State.rollCall_held | apply State.sendMsg_held | refine Held.ite ?_ ?_
    | refine Held.foldl (fun _ _ _ => ?_) ?_

theorem State.readyIn_held {s : State} {src : Nat} {frame : Nat} (hk : Held q0 n0 c0 s) : Held q0 n0 c0 (State.readyIn s src frame) := by
  unfold State.readyIn
  with_reducible repeat' first
    | assumption | apply State.onMgr_held | apply State.setFld_held | apply State.setWithdrawn_held | apply State.post_held
    | apply State.listTry_held | refine Held.ite ?_ ?_ | split

theorem State.dropEntry_held {s : State} {i : Nat} (hk : Held q0 n0 c0 s) : Held q0 n0 c0 (State.dropEntry s i) := by
  unfold State.dropEntry
  extract_lets l0 l1 l2
  have hl0 : Held q0 n0 c0 l0 := by
    unfold l0
    with_reducible repeat' first | assumption | apply State.setFld_held
  try clear_value l0
  try clear_value l1
  have hl2 : Held q0 n0 c0 l2 := by
    unfold l2
    with_reducible repeat' first | assumption | apply State.setFld_held
  try clear_value l2
  with_reducible repeat' first
    | assumption | apply State.setWithdrawn_held | apply State.sendMsg_held | refine Held.ite ?_ ?_
    | refine Held.foldl (fun _ _ _ => ?_) ?_

theorem State.standDown_held {s : State} (hk : Held q0 n0 c0 s) : Held q0 n0 c0 (State.standDown s) := by
  unfold State.standDown
  with_reducible repeat' first | assumption | apply State.setFld_held | apply State.onMgr_held

theorem State.claimIn_held {s : State} {src : Nat} {epoch : Nat} (hk : Held q0 n0 c0 s) : Held q0 n0 c0 (State.claimIn s src epoch) := by
  unfold State.claimIn
  extract_lets l0 l1 l2 l3 l4 l5 l6
  skip
  skip
  try clear_value l2
  have hl3 : Held q0 n0 c0 l3 := by
    unfold l3
    with_reducible repeat' first | assumption | apply State.standDown_held | refine Held.ite ?_ ?_
  try clear_value l3
  have hl4 : Held q0 n0 c0 l4 := by
    unfold l4
    with_reducible repeat' first | assumption | apply State.setFld_held
  try clear_value l4
  try clear_value l5
  have hl6 : Held q0 n0 c0 l6 := by
    unfold l6
    with_reducible repeat' first | assumption | apply State.setFld_held | refine Held.ite ?_ ?_
  try clear_value l6
  with_reducible repeat' first | assumption | apply State.count_held | apply State.setFld_held | refine Held.ite ?_ ?_

theorem State.beatIn_held {s : State} {src : Nat} {epoch : Nat} {nextRoll : Nat} {rollIn : Nat} (hk : Held q0 n0 c0 s) : Held q0 n0 c0 (State.beatIn s src epoch nextRoll rollIn) := by
  unfold State.beatIn
  with_reducible repeat' first
    | assumption | apply State.count_held | apply State.fromMgr_held | apply State.onMgr_held | refine Held.ite ?_ ?_ | intro _

theorem State.takeOver_held {s : State} (hk : Held q0 n0 c0 s) : Held q0 n0 c0 (State.takeOver s) := by
  unfold State.takeOver
  extract_lets l0 l1 l2 l3 l4 l5 l6 l7 l8 l9 l10 l11 l12
  try clear_value l0
  skip
  skip
  try clear_value l3
  try clear_value l4
  try clear_value l5
  have hl6 : Held q0 n0 c0 l6 := by
    unfold l6
    with_reducible repeat' first | assumption | apply State.setFld_held
  try clear_value l6
  have hl7 : Held q0 n0 c0 l7 := by
    unfold l7
    with_reducible repeat' first | assumption | apply State.setFld_held | refine Held.ite ?_ ?_
  try clear_value l7
  have hl8 : Held q0 n0 c0 l8 := by
    unfold l8
    with_reducible repeat' first | assumption | apply State.setFld_held | refine Held.ite ?_ ?_
  try clear_value l8
  try clear_value l9
  have hl10 : Held q0 n0 c0 l10 := by
    unfold l10
    with_reducible repeat' first | assumption | apply State.sendCtl_held | refine Held.foldl (fun _ _ _ => ?_) ?_
  try clear_value l10
  try clear_value l11
  have hl12 : Held q0 n0 c0 l12 := by
    unfold l12
    with_reducible repeat' first | assumption | apply State.onMgr_held
  try clear_value l12
  with_reducible repeat' first
    | assumption | apply State.dropEntry_held | apply State.post_held | refine Held.foldl (fun _ _ _ => ?_) ?_ | split

theorem execRelayStatus_held {src : Nat} {state : Nat} {result : Nat} {need : Nat} {shard : Nat} {peer : Nat} {self : Nat} {s : State} (hk : Held q0 n0 c0 s) : HeldO q0 n0 c0 (execRelayStatus src state result need shard peer self s) := by
  unfold execRelayStatus
  with_reducible repeat' first | assumption | apply State.msgIn_held | apply State.statusIn_held | refine HeldO.next ?_

theorem execMessageResend_held {part : Nat} {seq : Nat} {s : State} (hk : Held q0 n0 c0 s) : HeldO q0 n0 c0 (execMessageResend part seq s) := by
  unfold execMessageResend
  with_reducible repeat' first | assumption | apply State.resendAct_held | refine HeldO.next ?_

theorem execRollCallDue_held {s : State} (hk : Held q0 n0 c0 s) : HeldO q0 n0 c0 (execRollCallDue s) := by
  unfold execRollCallDue
  with_reducible repeat' first | assumption | apply State.rollDue_held | refine HeldO.next ?_

theorem execRollCall_held {src : Nat} {epoch : Nat} {n : Nat} {s : State} (hk : Held q0 n0 c0 s) : HeldO q0 n0 c0 (execRollCall src epoch n s) := by
  unfold execRollCall
  with_reducible repeat' first
    | assumption | apply State.msgIn_held | apply State.fromMgr_held | apply State.rollCall_held | refine HeldO.next ?_
    | intro _

theorem execRollAnswer_held {src : Nat} {n : Nat} {shard : Nat} {digest : Option Bytes} {s : State} (hk : Held q0 n0 c0 s) : HeldO q0 n0 c0 (execRollAnswer src n shard digest s) := by
  unfold execRollAnswer
  with_reducible repeat' first
    | assumption | apply State.msgIn_held | apply State.rollJudge_held | refine Held.ite ?_ ?_ | refine HeldO.next ?_

theorem execExpel_held {src : Nat} {epoch : Nat} {n : Nat} {stripe : Nat} {s : State} (hk : Held q0 n0 c0 s) : HeldO q0 n0 c0 (execExpel src epoch n stripe s) := by
  unfold execExpel
  with_reducible repeat' first
    | assumption | apply State.msgIn_held | apply State.fromMgr_held | apply State.expelIn_held | refine HeldO.next ?_
    | intro _

theorem execWithdraw_held {src : Nat} {epoch : Nat} {part : Nat} {s : State} (hk : Held q0 n0 c0 s) : HeldO q0 n0 c0 (execWithdraw src epoch part s) := by
  unfold execWithdraw
  with_reducible repeat' first
    | assumption | apply State.msgIn_held | apply State.fromMgr_held | apply State.withdrawIn_held | refine HeldO.next ?_
    | intro _

theorem execAdmit_held {src : Nat} {epoch : Nat} {part : Nat} {s : State} (hk : Held q0 n0 c0 s) : HeldO q0 n0 c0 (execAdmit src epoch part s) := by
  unfold execAdmit
  with_reducible repeat' first
    | assumption | apply State.msgIn_held | apply State.fromMgr_held | apply State.withdrawIn_held | refine HeldO.next ?_
    | intro _

theorem execCut_held {src : Nat} {epoch : Nat} {s : State} (hk : Held q0 n0 c0 s) : HeldO q0 n0 c0 (execCut src epoch s) := by
  unfold execCut
  with_reducible repeat' first
    | assumption | apply State.msgIn_held | apply State.fromMgr_held | apply State.cutIn_held | refine HeldO.next ?_ | intro _

theorem execCutAck_held {src : Nat} {s : State} (hk : Held q0 n0 c0 s) : HeldO q0 n0 c0 (execCutAck src s) := by
  unfold execCutAck
  with_reducible repeat' first | assumption | apply State.msgIn_held | apply State.cutAck_held | refine HeldO.next ?_

theorem execCutTimeout_held {s : State} (hk : Held q0 n0 c0 s) : HeldO q0 n0 c0 (execCutTimeout s) := by
  unfold execCutTimeout
  with_reducible repeat' first | assumption | apply State.cutTimeout_held | refine HeldO.next ?_

theorem execAssume_held {src : Nat} {epoch : Nat} {number : Nat} {s : State} (hk : Held q0 n0 c0 s) : HeldO q0 n0 c0 (execAssume src epoch number s) := by
  unfold execAssume
  with_reducible repeat' first
    | assumption | apply State.msgIn_held | apply State.fromMgr_held | apply State.assumeIn_held | refine HeldO.next ?_
    | intro _

theorem execAssumeAck_held {src : Nat} {s : State} (hk : Held q0 n0 c0 s) : HeldO q0 n0 c0 (execAssumeAck src s) := by
  unfold execAssumeAck
  with_reducible repeat' first | assumption | apply State.msgIn_held | apply State.assumeAck_held | refine HeldO.next ?_

theorem execReady_held {src : Nat} {frame : Nat} {s : State} (hk : Held q0 n0 c0 s) : HeldO q0 n0 c0 (execReady src frame s) := by
  unfold execReady
  with_reducible repeat' first | assumption | apply State.readyIn_held | refine HeldO.next ?_

theorem execManagerClaim_held {src : Nat} {epoch : Nat} {s : State} (hk : Held q0 n0 c0 s) : HeldO q0 n0 c0 (execManagerClaim src epoch s) := by
  unfold execManagerClaim
  with_reducible repeat' first | assumption | apply State.claimIn_held | refine HeldO.next ?_

theorem execBeatReceived_held {src : Nat} {epoch : Nat} {nextRoll : Nat} {rollIn : Nat} {s : State} (hk : Held q0 n0 c0 s) : HeldO q0 n0 c0 (execBeatReceived src epoch nextRoll rollIn s) := by
  unfold execBeatReceived
  with_reducible repeat' first | assumption | apply State.beatIn_held | refine HeldO.next ?_

end Sys2Proof.Machine
end

