-- ==== Sys2Proof/Laws/HeldHistory.lean ====
section
/-!
SUPPORT. That the operations of Machine/History.lean touch neither the queue nor the clock, and keep the tables canonical.
-/

namespace Sys2Proof.Machine

variable {q0 : List Instr} {n0 c0 : Nat}

theorem State.setHist_held {s : State} {kind : Nat} {i : Nat} {r : HistRec} (hk : Held q0 n0 c0 s) : Held q0 n0 c0 (State.setHist s kind i r) := by
  unfold State.setHist
  extract_lets l0
  try clear_value l0
  with_reducible repeat' first | assumption | apply State.recordWrites_held | fail_if_no_progress refine Held.same ?_

theorem State.retireUnit_held {s : State} {kind : Nat} {i : Nat} (hk : Held q0 n0 c0 s) : Held q0 n0 c0 (State.retireUnit s kind i) := by
  unfold State.retireUnit
  extract_lets l0 l1
  have hl0 : Held q0 n0 c0 l0 := by
    unfold l0
    with_reducible repeat' first | assumption | apply State.setFld_held | apply State.setVfld_held
  try clear_value l0
  have hl1 : Held q0 n0 c0 l1 := by
    unfold l1
    with_reducible repeat' first | assumption | apply State.setFld_held | apply State.portDown_held | refine Held.ite ?_ ?_
  try clear_value l1
  with_reducible repeat' first
    | assumption | apply State.retireCore_held | apply State.post_held | apply State.onMgr_held | apply State.reportMgr_held
    | refine Held.ite ?_ ?_

theorem State.writeHist_held {s : State} {p : HistPend} (hk : Held q0 n0 c0 s) : Held q0 n0 c0 (State.writeHist s p) := by
  unfold State.writeHist
  extract_lets l0 l1 l2
  try clear_value l0
  try clear_value l1
  have hl2 : Held q0 n0 c0 l2 := by
    unfold l2
    with_reducible repeat' first | assumption | apply State.setHist_held
  try clear_value l2
  with_reducible repeat' first | assumption | apply State.post_held | apply State.retireUnit_held | refine Held.ite ?_ ?_

theorem State.dropHist_held {s : State} {p : HistPend} (hk : Held q0 n0 c0 s) : Held q0 n0 c0 (State.dropHist s p) := by
  unfold State.dropHist
  extract_lets l0 l1 l2 l3 l4 l5 l6
  try clear_value l0
  try clear_value l1
  try clear_value l2
  try clear_value l3
  have hl4 : Held q0 n0 c0 l4 := by
    unfold l4
    with_reducible repeat' first | assumption | fail_if_no_progress refine Held.same ?_
  try clear_value l4
  try clear_value l5
  try clear_value l6
  with_reducible repeat' first
    | assumption | apply State.post_held | fail_if_no_progress refine Held.same ?_ | refine Held.ite ?_ ?_

theorem State.writeReplay_held {s : State} {h : Nat} (hk : Held q0 n0 c0 s) : Held q0 n0 c0 (State.writeReplay s h) := by
  unfold State.writeReplay
  extract_lets l0 l1 l2 l3
  try clear_value l0
  try clear_value l1
  have hl2 : Held q0 n0 c0 l2 := by
    unfold l2
    with_reducible repeat' first | assumption | apply State.setHist_held
  try clear_value l2
  try clear_value l3
  with_reducible repeat' first | assumption | fail_if_no_progress refine Held.same ?_ | refine Held.ite ?_ ?_

theorem State.historyWrite_held {s : State} (hk : Held q0 n0 c0 s) : Held q0 n0 c0 (State.historyWrite s) := by
  unfold State.historyWrite
  extract_lets l0 l1 l2 l3 l4 l5 l6 l7 l8 l9
  try clear_value l0
  try clear_value l1
  try clear_value l2
  try clear_value l3
  try clear_value l4
  try clear_value l5
  try clear_value l6
  have hl7 : Held q0 n0 c0 l7 := by
    unfold l7
    with_reducible repeat' first | assumption | fail_if_no_progress refine Held.same ?_
  try clear_value l7
  have hl8 : Held q0 n0 c0 l8 := by
    unfold l8
    with_reducible repeat' first | assumption | apply State.dropHist_held | refine Held.foldl (fun _ _ _ => ?_) ?_
  try clear_value l8
  have hl9 : Held q0 n0 c0 l9 := by
    unfold l9
    with_reducible repeat' first | assumption | apply State.writeHist_held | refine Held.foldl (fun _ _ _ => ?_) ?_
  try clear_value l9
  with_reducible repeat' first | assumption | apply State.writeReplay_held | refine Held.ite ?_ ?_

theorem State.histSettle_held {s : State} (hk : Held q0 n0 c0 s) : Held q0 n0 c0 (State.histSettle s) := by
  unfold State.histSettle
  with_reducible repeat' first
    | assumption | apply State.setHist_held | refine Held.ite ?_ ?_ | refine Held.foldl (fun _ _ _ => ?_) ?_

theorem State.readHistory_held {s : State} {c : Mgmt} {kind : Nat} {i : Nat} (hk : Held q0 n0 c0 s) : Held q0 n0 c0 (State.readHistory s c kind i) := by
  unfold State.readHistory
  with_reducible repeat' first | assumption | apply State.answer_held | apply State.hostOutput_held | refine Held.ite ?_ ?_

theorem execHistoryWrite_held {s : State} (hk : Held q0 n0 c0 s) : HeldO q0 n0 c0 (execHistoryWrite s) := by
  unfold execHistoryWrite
  with_reducible repeat' first | assumption | apply State.historyWrite_held | refine HeldO.next ?_

theorem execReadHistory_held {c : Mgmt} {kind : Nat} {idx : Nat} {s : State} (hk : Held q0 n0 c0 s) : HeldO q0 n0 c0 (execReadHistory c kind idx s) := by
  unfold execReadHistory
  with_reducible repeat' first
    | assumption | apply State.mgmt_held | apply State.readHistory_held | refine HeldO.within ?_ | intro _

end Sys2Proof.Machine
end

