-- ==== Sys2Proof/Laws/HeldTaster.lean ====
section
/-!
SUPPORT. That the operations of Machine/Taster.lean touch neither the queue nor the clock, and keep the tables canonical.
-/

namespace Sys2Proof.Machine

variable {q0 : List Instr} {n0 c0 : Nat}

theorem State.cribStat_held {s : State} {site : Nat} {op : Nat} {slot : Nat} {result : Nat} {done : Bool} (hk : Held q0 n0 c0 s) : Held q0 n0 c0 (State.cribStat s site op slot result done) := by
  unfold State.cribStat
  with_reducible repeat' first | assumption | apply State.setFld_held | apply State.setFlag_held

theorem State.setSlot_held {s : State} {site : Nat} {slot : Nat} {x : CribSlot} (hk : Held q0 n0 c0 s) : Held q0 n0 c0 (State.setSlot s site slot x) := by
  unfold State.setSlot
  extract_lets l0 l1 l2 l3
  try clear_value l0
  have hl1 : Held q0 n0 c0 l1 := by
    unfold l1
    with_reducible repeat' first | assumption | apply State.setCore_held
  try clear_value l1
  have hl2 : Held q0 n0 c0 l2 := by
    unfold l2
    with_reducible repeat' first | assumption | apply State.setFlag_held
  try clear_value l2
  try clear_value l3
  with_reducible repeat' first | assumption | apply State.setFld_held

theorem State.cribFill_held {s : State} {site : Nat} {slot : Nat} {arr : Nat} {cblock : Nat} (hk : Held q0 n0 c0 s) : Held q0 n0 c0 (State.cribFill s site slot arr cblock) := by
  unfold State.cribFill
  extract_lets l0 l1 l2 l3
  try clear_value l0
  have hl1 : Held q0 n0 c0 l1 := by
    unfold l1
    with_reducible repeat' first | assumption | apply State.setSlot_held
  try clear_value l1
  try clear_value l2
  have hl3 : Held q0 n0 c0 l3 := by
    unfold l3
    with_reducible repeat' first | assumption | apply State.setCore_held
  try clear_value l3
  with_reducible repeat' first | assumption | apply State.cribStat_held | refine Held.ite ?_ ?_

theorem State.cribTake_held {s : State} {site : Nat} {f : CribFill} {block : Option (SMap Nat)} {parity : Bool} (hk : Held q0 n0 c0 s) : Held q0 n0 c0 (State.cribTake s site f block parity) := by
  unfold State.cribTake
  extract_lets l0 l1
  have hl0 : Held q0 n0 c0 l0 := by
    unfold l0
    with_reducible repeat' first | assumption | apply State.cribStat_held
  try clear_value l0
  try clear_value l1
  with_reducible repeat' first
    | assumption | apply State.cribStat_held | apply State.unitError_held | apply State.setSlot_held | apply State.setFld_held
    | refine Held.ite ?_ ?_ | split

theorem State.cribFillEnd_held {s : State} {site : Nat} {codes : List (Nat × Nat)} {parity : Bool} (hk : Held q0 n0 c0 s) : Held q0 n0 c0 (s.cribFillEnd site codes parity) := by
  unfold State.cribFillEnd
  split
  · exact hk
  · exact Held.ite hk (State.cribTake_held (State.raiseRow_held (State.setCore_held (State.setArr_held hk))))

theorem State.cribDrop_held {s : State} {site : Nat} {slot : Nat} (hk : Held q0 n0 c0 s) : Held q0 n0 c0 (State.cribDrop s site slot) := by
  unfold State.cribDrop
  with_reducible repeat' first
    | assumption | apply State.cribStat_held | apply State.setSlot_held | apply State.raiseRow_held | refine Held.ite ?_ ?_

theorem State.inject_held {s : State} {p : Path} {site : Nat} (hk : Held q0 n0 c0 s) : Held q0 n0 c0 (State.inject s p site) := by
  unfold State.inject
  extract_lets l0 l1
  have hl0 : Held q0 n0 c0 l0.2 := by
    unfold l0
    with_reducible repeat' first | assumption | apply State.ownWrite_held
  try clear_value l0
  try clear_value l1
  with_reducible repeat' first | assumption | apply State.setCore_held | refine Held.ite ?_ ?_

theorem State.coreClear_held {s : State} {site : Nat} (hk : Held q0 n0 c0 s) : Held q0 n0 c0 (s.coreClear site) := by
  unfold State.coreClear
  refine Held.ite hk (State.setFld_held (State.ctrsZero_held (State.setCore_held ?_)))
  refine Held.foldl (fun _ _ h => State.setArr_held h) (Held.foldl (fun _ _ h => State.setSlot_held h) ?_)
  exact { hk with hamper := Memory.wf_clear hk.hamper }

theorem State.clearDue_held {s : State} {site : Nat} (hk : Held q0 n0 c0 s) : Held q0 n0 c0 (State.clearDue s site) := by
  unfold State.clearDue
  extract_lets l0 l1
  try clear_value l0
  have hl1 : Held q0 n0 c0 l1 := by
    unfold l1
    with_reducible repeat' first | assumption | apply State.setCore_held
  try clear_value l1
  with_reducible repeat' first | assumption | apply State.setFld_held

theorem State.coreClearComplete_held {s : State} {site : Nat} (hk : Held q0 n0 c0 s) : Held q0 n0 c0 (State.coreClearComplete s site) := by
  unfold State.coreClearComplete
  extract_lets l0 l1 l2
  try clear_value l0
  have hl1 : Held q0 n0 c0 l1 := by
    unfold l1
    with_reducible repeat' first | assumption | apply State.setCore_held
  try clear_value l1
  have hl2 : Held q0 n0 c0 l2 := by
    unfold l2
    with_reducible repeat' first | assumption | apply State.setFld_held | apply State.count_held
  try clear_value l2
  with_reducible repeat' first | assumption | apply State.setFld_held | apply State.seqAfter_held | refine Held.ite ?_ ?_ | split

theorem execCribFill_held {site : Nat} {slot : Nat} {arr : Nat} {cblock : Nat} {s : State} (hk : Held q0 n0 c0 s) : HeldO q0 n0 c0 (execCribFill site slot arr cblock s) := by
  unfold execCribFill
  with_reducible repeat' first | assumption | apply State.cribFill_held | refine HeldO.within ?_

theorem execCribFillEnd_held {site : Nat} {codes : List (Nat × Nat)} {parity : Bool} {s : State} (hk : Held q0 n0 c0 s) : HeldO q0 n0 c0 (execCribFillEnd site codes parity s) := by
  unfold execCribFillEnd
  with_reducible repeat' first | assumption | apply State.cribFillEnd_held | refine HeldO.within ?_

theorem execCribDrop_held {site : Nat} {slot : Nat} {s : State} (hk : Held q0 n0 c0 s) : HeldO q0 n0 c0 (execCribDrop site slot s) := by
  unfold execCribDrop
  with_reducible repeat' first | assumption | apply State.cribDrop_held | refine HeldO.within ?_

theorem execTstInject_held {path : Path} {site : Nat} {s : State} (hk : Held q0 n0 c0 s) : HeldO q0 n0 c0 (execTstInject path site s) := by
  unfold execTstInject
  with_reducible repeat' first | assumption | apply State.inject_held | refine HeldO.within ?_

theorem execCoreClear_held {site : Nat} {s : State} (hk : Held q0 n0 c0 s) : HeldO q0 n0 c0 (execCoreClear site s) := by
  unfold execCoreClear
  with_reducible repeat' first | assumption | apply State.coreClear_held | refine HeldO.within ?_

theorem execCoreClearComplete_held {site : Nat} {s : State} (hk : Held q0 n0 c0 s) : HeldO q0 n0 c0 (execCoreClearComplete site s) := by
  unfold execCoreClearComplete
  with_reducible repeat' first | assumption | apply State.coreClearComplete_held | refine HeldO.within ?_

end Sys2Proof.Machine
end

