-- ==== Sys2Proof/Laws/HeldPitch.lean ====
section
/-!
SUPPORT. That the operations of Machine/Pitch.lean touch neither the queue nor the clock, and keep the tables canonical.
-/

namespace Sys2Proof.Machine

variable {q0 : List Instr} {n0 c0 : Nat}

theorem State.putPitch_held {s : State} {view : Nat} {p : Nat} {v : PitchSet} (hk : Held q0 n0 c0 s) : Held q0 n0 c0 (State.putPitch s view p v) := by
  unfold State.putPitch
  extract_lets l0 l1 l2
  try clear_value l0
  have hl1 : Held q0 n0 c0 l1 := by
    unfold l1
    with_reducible repeat' first | assumption | apply State.setFlag_held | apply State.setFld_held
  try clear_value l1
  have hl2 : Held q0 n0 c0 l2 := by
    unfold l2
    with_reducible repeat' first | assumption | apply State.setFld_held
  try clear_value l2
  with_reducible repeat' first | assumption | apply State.setFld_held | refine Held.foldl (fun _ _ _ => ?_) ?_

theorem State.markPending_held {s : State} (hk : Held q0 n0 c0 s) : Held q0 n0 c0 (State.markPending s) := by
  unfold State.markPending
  with_reducible repeat' first | assumption | apply State.setFlag_held

theorem State.zeroChannel_held {s : State} {k : Nat} (hk : Held q0 n0 c0 s) : Held q0 n0 c0 (State.zeroChannel s k) := by
  unfold State.zeroChannel
  extract_lets l0 l1
  have hl0 : Held q0 n0 c0 l0 := by
    unfold l0
    with_reducible repeat' first | assumption | apply State.setFld_held
  try clear_value l0
  try clear_value l1
  with_reducible repeat' first | assumption | fail_if_no_progress refine Held.same ?_

theorem State.showPitch_held {s : State} {core : Nat} {p : Option Nat} (hk : Held q0 n0 c0 s) : Held q0 n0 c0 (State.showPitch s core p) := by
  unfold State.showPitch
  with_reducible repeat' first | assumption | apply State.setFld_held | split

theorem State.pitchCurrent_held {s : State} {cp : List PitchSet} (hk : Held q0 n0 c0 s) : Held q0 n0 c0 (State.pitchCurrent s cp) := by
  unfold State.pitchCurrent
  extract_lets l0 l1 l2 l3
  try clear_value l0
  have hl1 : Held q0 n0 c0 l1 := by
    unfold l1
    with_reducible repeat' first | assumption | apply State.putPitch_held | refine Held.foldl (fun _ _ _ => ?_) ?_
  try clear_value l1
  have hl2 : Held q0 n0 c0 l2 := by
    unfold l2
    with_reducible repeat' first
      | assumption | apply State.setFld_held | apply State.zeroChannel_held | refine Held.ite ?_ ?_
      | refine Held.foldl (fun _ _ _ => ?_) ?_ | split
  try clear_value l2
  have hl3 : Held q0 n0 c0 l3 := by
    unfold l3
    with_reducible repeat' first
      | assumption | apply State.showPitch_held | apply State.clearDue_held | refine Held.ite ?_ ?_
      | refine Held.foldl (fun _ _ _ => ?_) ?_ | split
  try clear_value l3
  with_reducible repeat' first | assumption | apply State.markPending_held

theorem State.pitchField_held {s : State} {p : Path} {addr : Nat} {value : Nat} (hk : Held q0 n0 c0 s) : Held q0 n0 c0 (State.pitchField s p addr value) := by
  unfold State.pitchField
  extract_lets l0 l1
  try clear_value l0
  have hl1 : Held q0 n0 c0 l1.2 := by
    unfold l1
    with_reducible repeat' first | assumption | apply State.ownWrite_held
  try clear_value l1
  with_reducible repeat' first
    | assumption | apply State.audit_held | apply State.setFld_held | apply State.markPending_held | refine Held.ite ?_ ?_
    | refine Held.foldl (fun _ _ _ => ?_) ?_ | split

theorem State.pitchApply_held {s : State} {p : Path} (hk : Held q0 n0 c0 s) : Held q0 n0 c0 (State.pitchApply s p) := by
  unfold State.pitchApply
  extract_lets l0 l1 l2 l3 l4
  have hl0 : Held q0 n0 c0 l0.2 := by
    unfold l0
    with_reducible repeat' first | assumption | apply State.ownWrite_held
  try clear_value l0
  have hl1 : Held q0 n0 c0 l1 := by
    unfold l1
    with_reducible repeat' assumption
  try clear_value l1
  try clear_value l2
  try clear_value l3
  have hl4 : Held q0 n0 c0 l4 := by
    unfold l4
    with_reducible repeat' first | assumption | apply State.setFld_held
  try clear_value l4
  with_reducible repeat' first | assumption | apply State.setFld_held | apply State.pitchCurrent_held | refine Held.ite ?_ ?_

theorem State.zeroingComplete_held {s : State} {k : Nat} (hk : Held q0 n0 c0 s) : Held q0 n0 c0 (s.zeroingComplete k) := by
  unfold State.zeroingComplete
  refine Held.ite (State.setFld_held (State.setFld_held ?_)) hk
  exact { hk with dram := Memory.wf_clear hk.dram }

theorem State.scrubBeat_held {s : State} {k : Nat} {off : Nat} {bad : Bool} (hk : Held q0 n0 c0 s) : Held q0 n0 c0 (State.scrubBeat s k off bad) := by
  unfold State.scrubBeat
  extract_lets l0 l1 l2 l3 l4
  try clear_value l0
  have hl1 : Held q0 n0 c0 l1 := by
    unfold l1
    with_reducible repeat' first | assumption | apply State.count_held | apply State.unitError_held | apply State.setFld_held
  try clear_value l1
  have hl2 : Held q0 n0 c0 l2 := by
    unfold l2
    with_reducible repeat' first | assumption | apply State.setFld_held
  try clear_value l2
  have hl3 : Held q0 n0 c0 l3 := by
    unfold l3
    with_reducible repeat' first | assumption | apply State.raiseBoth_held
  try clear_value l3
  try clear_value l4
  with_reducible repeat' first
    | assumption | apply State.count_held | fail_if_no_progress refine Held.same ?_ | refine Held.ite ?_ ?_ | split

theorem State.patrolScrub_held {s : State} {n : Nat} {errs : List (Nat × Nat × Bool)} (hk : Held q0 n0 c0 s) : Held q0 n0 c0 (State.patrolScrub s n errs) := by
  unfold State.patrolScrub
  extract_lets l0 l1
  try clear_value l0
  have hl1 : Held q0 n0 c0 l1 := by
    unfold l1
    with_reducible repeat' first | assumption | fail_if_no_progress refine Held.same ?_
  try clear_value l1
  with_reducible repeat' first
    | assumption | apply State.scrubBeat_held | refine Held.ite ?_ ?_ | refine Held.foldl (fun _ _ _ => ?_) ?_

theorem State.crossingReset_held {s : State} {x : Nat} {lost : List Nat} (hk : Held q0 n0 c0 s) : Held q0 n0 c0 (State.crossingReset s x lost) := by
  unfold State.crossingReset
  extract_lets l0 l1 l2
  try clear_value l0
  try clear_value l1
  have hl2 : Held q0 n0 c0 l2 := by
    unfold l2
    with_reducible repeat' first | assumption | fail_if_no_progress refine Held.same ?_
  try clear_value l2
  with_reducible repeat' first | assumption | apply State.count_held

theorem State.crossingOpen_held {s : State} {x : Nat} (hk : Held q0 n0 c0 s) : Held q0 n0 c0 (State.crossingOpen s x) := by
  unfold State.crossingOpen
  extract_lets l0
  try clear_value l0
  with_reducible repeat' first | assumption | fail_if_no_progress refine Held.same ?_

theorem execPitchFieldWrite_held {path : Path} {addr : Nat} {value : Nat} {s : State} (hk : Held q0 n0 c0 s) : HeldO q0 n0 c0 (execPitchFieldWrite path addr value s) := by
  unfold execPitchFieldWrite
  with_reducible repeat' first | assumption | apply State.pitchField_held | refine HeldO.within ?_

theorem execZeroingComplete_held {ch : Nat} {s : State} (hk : Held q0 n0 c0 s) : HeldO q0 n0 c0 (execZeroingComplete ch s) := by
  unfold execZeroingComplete
  with_reducible repeat' first | assumption | apply State.zeroingComplete_held | refine HeldO.within ?_

theorem execPatrolScrub_held {granules : Nat} {errs : List (Nat × Nat × Bool)} {s : State} (hk : Held q0 n0 c0 s) : HeldO q0 n0 c0 (execPatrolScrub granules errs s) := by
  unfold execPatrolScrub
  with_reducible repeat' first | assumption | apply State.patrolScrub_held | refine HeldO.within ?_

theorem execCrossingReset_held {crossing : Nat} {lost : List Nat} {s : State} (hk : Held q0 n0 c0 s) : HeldO q0 n0 c0 (execCrossingReset crossing lost s) := by
  unfold execCrossingReset
  with_reducible repeat' first | assumption | apply State.crossingReset_held | refine HeldO.next ?_

end Sys2Proof.Machine
end

