-- ==== Sys2Proof/Laws/HeldRanger.lean ====
section
/-!
SUPPORT. That the operations of Machine/Ranger.lean touch neither the queue nor the clock, and keep the tables canonical.
-/

namespace Sys2Proof.Machine

variable {q0 : List Instr} {n0 c0 : Nat}

theorem State.edge_held {s : State} {h : Nat} {id : Nat} (hk : Held q0 n0 c0 s) : Held q0 n0 c0 (State.edge s h id) := by
  unfold State.edge
  with_reducible repeat' first | assumption | apply State.raiseBoth_held | apply State.raiseHalf_held | refine Held.ite ?_ ?_

theorem State.setClaimed_held {s : State} {h : Nat} {id : Nat} {v : Nat} (hk : Held q0 n0 c0 s) : Held q0 n0 c0 (State.setClaimed s h id v) := by
  unfold State.setClaimed
  extract_lets l0
  try clear_value l0
  with_reducible repeat' first | assumption | fail_if_no_progress refine Held.same ?_

theorem State.setBelief_held {s : State} {h : Nat} {e : Option Nat} (hk : Held q0 n0 c0 s) : Held q0 n0 c0 (State.setBelief s h e) := by
  unfold State.setBelief
  extract_lets l0
  try clear_value l0
  with_reducible repeat' first | assumption | fail_if_no_progress refine Held.same ?_

theorem State.learn_held {s : State} {h : Nat} (hk : Held q0 n0 c0 s) : Held q0 n0 c0 (State.learn s h) := by
  unfold State.learn
  extract_lets l0
  try clear_value l0
  with_reducible repeat' first
    | assumption | apply State.count_held | apply State.setBelief_held | fail_if_no_progress refine Held.same ?_
    | refine Held.ite ?_ ?_ | split

theorem State.intcClaim_held {s : State} {h : Nat} {k : Nat} (hk : Held q0 n0 c0 s) : Held q0 n0 c0 (State.intcClaim s h k) := by
  unfold State.intcClaim
  extract_lets l0
  have hl0 : Held q0 n0 c0 l0 := by
    unfold l0
    with_reducible repeat' first | assumption | apply State.count_held
  try clear_value l0
  with_reducible repeat' first
    | assumption | apply State.setFld_held | apply State.setClaimed_held | apply State.learn_held
    | fail_if_no_progress refine Held.same ?_ | refine Held.ite ?_ ?_ | split

theorem State.intcComplete_held {s : State} {h : Nat} {k : Nat} {id : Nat} (hk : Held q0 n0 c0 s) : Held q0 n0 c0 (State.intcComplete s h k id) := by
  unfold State.intcComplete
  with_reducible repeat' first | assumption | apply State.setClaimed_held | refine Held.ite ?_ ?_

theorem State.setFwStopped_held {s : State} {h : Nat} {b : Bool} (hk : Held q0 n0 c0 s) : Held q0 n0 c0 (State.setFwStopped s h b) := by
  unfold State.setFwStopped
  extract_lets l0
  try clear_value l0
  with_reducible repeat' first | assumption | fail_if_no_progress refine Held.same ?_

theorem State.setRcore_held {s : State} {k : Nat} {v : Nat} (hk : Held q0 n0 c0 s) : Held q0 n0 c0 (State.setRcore s k v) := by
  unfold State.setRcore
  extract_lets l0 l1
  try clear_value l0
  have hl1 : Held q0 n0 c0 l1 := by
    unfold l1
    with_reducible repeat' first | assumption | apply State.setFld_held
  try clear_value l1
  with_reducible repeat' first | assumption | apply State.setFlag_held

theorem State.coresTo_held {s : State} {h : Nat} {a : Nat} {b : Nat} (hk : Held q0 n0 c0 s) : Held q0 n0 c0 (State.coresTo s h a b) := by
  unfold State.coresTo
  with_reducible repeat' first
    | assumption | apply State.setRcore_held | refine Held.ite ?_ ?_ | refine Held.foldl (fun _ _ _ => ?_) ?_

theorem State.fwStop_held {s : State} {h : Nat} {idleNs : Nat} (hk : Held q0 n0 c0 s) : Held q0 n0 c0 (State.fwStop s h idleNs) := by
  unfold State.fwStop
  with_reducible repeat' first | assumption | apply State.coresTo_held | apply State.setFwStopped_held | refine Held.ite ?_ ?_

theorem State.setTick_held {s : State} {k : Nat} (hk : Held q0 n0 c0 s) : Held q0 n0 c0 (State.setTick s k) := by
  unfold State.setTick
  extract_lets l0
  try clear_value l0
  with_reducible repeat' first | assumption | fail_if_no_progress refine Held.same ?_

theorem State.fwWake_held {s : State} {h : Nat} (hk : Held q0 n0 c0 s) : Held q0 n0 c0 (State.fwWake s h) := by
  unfold State.fwWake
  extract_lets l0 l1 l2 l3 l4
  try clear_value l0
  have hl1 : Held q0 n0 c0 l1 := by
    unfold l1
    with_reducible repeat' first | assumption | apply State.setFwStopped_held
  try clear_value l1
  try clear_value l2
  have hl3 : Held q0 n0 c0 l3 := by
    unfold l3
    with_reducible repeat' first | assumption | fail_if_no_progress refine Held.same ?_
  try clear_value l3
  have hl4 : Held q0 n0 c0 l4 := by
    unfold l4
    with_reducible repeat' first | assumption | apply State.raiseHalf_held | refine Held.foldl (fun _ _ _ => ?_) ?_
  try clear_value l4
  with_reducible repeat' first
    | assumption | apply State.setTick_held | apply State.coresTo_held | apply State.count_held | refine Held.ite ?_ ?_
    | refine Held.foldl (fun _ _ _ => ?_) ?_

theorem State.kernelTick_held {s : State} {k : Nat} (hk : Held q0 n0 c0 s) : Held q0 n0 c0 (State.kernelTick s k) := by
  unfold State.kernelTick
  with_reducible repeat' first | assumption | apply State.setTick_held | refine Held.ite ?_ ?_

theorem State.repend_held {s : State} {k : Nat} (hk : Held q0 n0 c0 s) : Held q0 n0 c0 (State.repend s k) := by
  unfold State.repend
  extract_lets l0 l1
  try clear_value l0
  try clear_value l1
  with_reducible repeat' first
    | assumption | apply State.setClaimed_held | apply State.setFld_held | refine Held.foldl (fun _ _ _ => ?_) ?_

theorem State.crash_held {s : State} {k : Nat} {cause : Nat} (hk : Held q0 n0 c0 s) : Held q0 n0 c0 (State.crash s k cause) := by
  unfold State.crash
  extract_lets l0 l1 l2 l3 l4 l5 l6 l7 l8
  try clear_value l0
  try clear_value l1
  try clear_value l2
  try clear_value l3
  have hl4 : Held q0 n0 c0 l4 := by
    unfold l4
    with_reducible repeat' first | assumption | fail_if_no_progress refine Held.same ?_
  try clear_value l4
  have hl5 : Held q0 n0 c0 l5 := by
    unfold l5
    with_reducible repeat' first | assumption | apply State.setRcore_held
  try clear_value l5
  have hl6 : Held q0 n0 c0 l6 := by
    unfold l6
    with_reducible repeat' first | assumption | apply State.setFld_held
  try clear_value l6
  have hl7 : Held q0 n0 c0 l7 := by
    unfold l7
    with_reducible repeat' first | assumption | apply State.count_held | apply State.unitError_held | apply State.repend_held
  try clear_value l7
  have hl8 : Held q0 n0 c0 l8 := by
    unfold l8
    with_reducible repeat' first | assumption | apply State.raiseBoth_held | apply State.post_held
  try clear_value l8
  with_reducible repeat' first | assumption | apply State.post_held | refine Held.ite ?_ ?_

theorem State.watchdog_held {s : State} {k : Nat} (hk : Held q0 n0 c0 s) : Held q0 n0 c0 (State.watchdog s k) := by
  unfold State.watchdog
  with_reducible repeat' first | assumption | apply State.crash_held | refine Held.ite ?_ ?_

theorem State.takeSources_held {s : State} {k : Nat} {j : Nat} (hk : Held q0 n0 c0 s) : Held q0 n0 c0 (State.takeSources s k j) := by
  unfold State.takeSources
  extract_lets l0
  try clear_value l0
  with_reducible repeat' first | assumption | apply State.setFld_held | refine Held.foldl (fun _ _ _ => ?_) ?_

theorem State.takeover_held {s : State} {k : Nat} (hk : Held q0 n0 c0 s) : Held q0 n0 c0 (State.takeover s k) := by
  unfold State.takeover
  with_reducible repeat' first
    | assumption | apply State.setFld_held | apply State.setOwner_held | apply State.takeSources_held
    | fail_if_no_progress refine Held.same ?_ | refine Held.ite ?_ ?_ | refine Held.foldl (fun _ _ _ => ?_) ?_ | split

theorem State.rangerUp_held {s : State} {k : Nat} (hk : Held q0 n0 c0 s) : Held q0 n0 c0 (State.rangerUp s k) := by
  unfold State.rangerUp
  extract_lets l0
  try clear_value l0
  with_reducible repeat' first
    | assumption | apply State.setRcore_held | apply State.setTick_held | apply State.count_held | apply State.post_held
    | refine Held.ite ?_ ?_

theorem State.queuesReturn_held {s : State} (hk : Held q0 n0 c0 s) : Held q0 n0 c0 (State.queuesReturn s) := by
  unfold State.queuesReturn
  extract_lets l0 l1 l2
  try clear_value l0
  try clear_value l1
  have hl2 : Held q0 n0 c0 l2 := by
    unfold l2
    with_reducible repeat' first | assumption | fail_if_no_progress refine Held.same ?_
  try clear_value l2
  with_reducible repeat' first
    | assumption | apply State.setOwner_held | refine Held.ite ?_ ?_ | refine Held.foldl (fun _ _ _ => ?_) ?_

theorem State.setHolder_held {s : State} {v : Nat} (hk : Held q0 n0 c0 s) : Held q0 n0 c0 (State.setHolder s v) := by
  unfold State.setHolder
  extract_lets l0 l1
  have hl0 : Held q0 n0 c0 l0 := by
    unfold l0
    with_reducible repeat' first | assumption | apply State.setFld_held | apply State.setFlag_held
  try clear_value l0
  have hl1 : Held q0 n0 c0 l1 := by
    unfold l1
    with_reducible repeat' first | assumption | apply State.setFld_held | refine Held.ite ?_ ?_
  try clear_value l1
  with_reducible repeat' first | assumption | apply State.setFlag_held | apply State.raiseBoth_held

theorem State.claimLead_held {s : State} {h : Nat} (hk : Held q0 n0 c0 s) : Held q0 n0 c0 (State.claimLead s h) := by
  unfold State.claimLead
  extract_lets l0 l1 l2 l3
  try clear_value l0
  have hl1 : Held q0 n0 c0 l1 := by
    unfold l1
    with_reducible repeat' first | assumption | apply State.setFld_held | apply State.setHolder_held | apply State.count_held
  try clear_value l1
  try clear_value l2
  have hl3 : Held q0 n0 c0 l3 := by
    unfold l3
    with_reducible repeat' first | assumption | fail_if_no_progress refine Held.same ?_
  try clear_value l3
  with_reducible repeat' first | assumption | apply State.setBelief_held | apply State.post_held | refine Held.ite ?_ ?_

theorem State.refreshLead_held {s : State} {h : Nat} {epoch : Nat} (hk : Held q0 n0 c0 s) : Held q0 n0 c0 (State.refreshLead s h epoch) := by
  unfold State.refreshLead
  extract_lets l0
  try clear_value l0
  with_reducible repeat' first | assumption | fail_if_no_progress refine Held.same ?_ | refine Held.ite ?_ ?_

theorem State.lapse_held {s : State} (hk : Held q0 n0 c0 s) : Held q0 n0 c0 (State.lapse s) := by
  unfold State.lapse
  with_reducible repeat' first | assumption | apply State.setHolder_held | refine Held.ite ?_ ?_

theorem State.commitRequest_held {s : State} (hk : Held q0 n0 c0 s) : Held q0 n0 c0 (State.commitRequest s).2 := by
  unfold State.commitRequest
  extract_lets l0 l1 l2 l3
  have hl0 : Held q0 n0 c0 l0 := by
    unfold l0
    with_reducible repeat' first
      | assumption | apply State.count_held | refine Held.ite ?_ ?_ | refine Held.foldl (fun _ _ _ => ?_) ?_ | split
  try clear_value l0
  have hl1 : Held q0 n0 c0 l1 := by
    unfold l1
    with_reducible repeat' first | assumption | apply State.count_held | refine Held.foldl (fun _ _ _ => ?_) ?_
  try clear_value l1
  have hl2 : Held q0 n0 c0 l2 := by
    unfold l2
    with_reducible repeat' first | assumption | apply State.post_held | refine Held.ite ?_ ?_
  try clear_value l2
  try clear_value l3
  with_reducible repeat' first | assumption | fail_if_no_progress refine Held.same ?_ | split

theorem execInterruptEdge_held {half : Nat} {id : Nat} {s : State} (hk : Held q0 n0 c0 s) : HeldO q0 n0 c0 (execInterruptEdge half id s) := by
  unfold execInterruptEdge
  with_reducible repeat' first | assumption | apply State.edge_held | refine HeldO.within ?_

theorem execIntcClaim_held {half : Nat} {target : Nat} {s : State} (hk : Held q0 n0 c0 s) : HeldO q0 n0 c0 (execIntcClaim half target s) := by
  unfold execIntcClaim
  with_reducible repeat' first | assumption | apply State.intcClaim_held | refine HeldO.within ?_

theorem execIntcComplete_held {half : Nat} {target : Nat} {id : Nat} {s : State} (hk : Held q0 n0 c0 s) : HeldO q0 n0 c0 (execIntcComplete half target id s) := by
  unfold execIntcComplete
  with_reducible repeat' first | assumption | apply State.intcComplete_held | refine HeldO.within ?_

theorem execFwclkStop_held {half : Nat} {idleNs : Nat} {s : State} (hk : Held q0 n0 c0 s) : HeldO q0 n0 c0 (execFwclkStop half idleNs s) := by
  unfold execFwclkStop
  with_reducible repeat' first | assumption | apply State.fwStop_held | refine HeldO.within ?_

theorem execFwclkWake_held {half : Nat} {s : State} (hk : Held q0 n0 c0 s) : HeldO q0 n0 c0 (execFwclkWake half s) := by
  unfold execFwclkWake
  with_reducible repeat' first | assumption | apply State.fwWake_held | refine HeldO.within ?_

theorem execKernelTick_held {rcore : Nat} {s : State} (hk : Held q0 n0 c0 s) : HeldO q0 n0 c0 (execKernelTick rcore s) := by
  unfold execKernelTick
  with_reducible repeat' first | assumption | apply State.kernelTick_held | refine HeldO.within ?_

theorem execWatchdogExpiry_held {rcore : Nat} {s : State} (hk : Held q0 n0 c0 s) : HeldO q0 n0 c0 (execWatchdogExpiry rcore s) := by
  unfold execWatchdogExpiry
  with_reducible repeat' first | assumption | apply State.watchdog_held | refine HeldO.within ?_

theorem execRangerDown_held {rcore : Nat} {cause : Nat} {s : State} (hk : Held q0 n0 c0 s) : HeldO q0 n0 c0 (execRangerDown rcore cause s) := by
  unfold execRangerDown
  with_reducible repeat' first | assumption | apply State.crash_held | refine HeldO.within ?_

theorem execRangerTakeover_held {rcore : Nat} {s : State} (hk : Held q0 n0 c0 s) : HeldO q0 n0 c0 (execRangerTakeover rcore s) := by
  unfold execRangerTakeover
  with_reducible repeat' first | assumption | apply State.takeover_held | refine HeldO.within ?_

theorem execRangerUp_held {rcore : Nat} {s : State} (hk : Held q0 n0 c0 s) : HeldO q0 n0 c0 (execRangerUp rcore s) := by
  unfold execRangerUp
  with_reducible repeat' first | assumption | apply State.rangerUp_held | refine HeldO.within ?_

theorem execLeadershipClaim_held {half : Nat} {s : State} (hk : Held q0 n0 c0 s) : HeldO q0 n0 c0 (execLeadershipClaim half s) := by
  unfold execLeadershipClaim
  with_reducible repeat' first | assumption | apply State.claimLead_held | refine HeldO.within ?_

theorem execLeadershipRefresh_held {half : Nat} {epoch : Nat} {s : State} (hk : Held q0 n0 c0 s) : HeldO q0 n0 c0 (execLeadershipRefresh half epoch s) := by
  unfold execLeadershipRefresh
  with_reducible repeat' first | assumption | apply State.refreshLead_held | refine HeldO.within ?_

theorem execLeadershipLapse_held {s : State} (hk : Held q0 n0 c0 s) : HeldO q0 n0 c0 (execLeadershipLapse s) := by
  unfold execLeadershipLapse
  with_reducible repeat' first | assumption | apply State.lapse_held | refine HeldO.next ?_

end Sys2Proof.Machine
end

