-- ==== Sys2Proof/Laws/HeldMetrology.lean ====
section
/-!
SUPPORT. That the operations of Machine/Metrology.lean touch neither the queue nor the clock, and keep the tables canonical.
-/

namespace Sys2Proof.Machine

variable {q0 : List Instr} {n0 c0 : Nat}

theorem State.onMet_held {s : State} {f : MetSt → MetSt} (hk : Held q0 n0 c0 s) : Held q0 n0 c0 (State.onMet s f) := by
  unfold State.onMet
  with_reducible repeat' first | assumption | fail_if_no_progress refine Held.same ?_

theorem State.reportSelf_held {s : State} {self : Nat} (hk : Held q0 n0 c0 s) : Held q0 n0 c0 (State.reportSelf s self) := by
  unfold State.reportSelf
  with_reducible repeat' first | assumption | apply State.setWithdrawn_held | apply State.reportMgr_held | refine Held.ite ?_ ?_

theorem State.convBegin_held {s : State} {st : Nat} {ch : Nat} {order : Nat} {notch : Nat} {urgent : Bool} (hk : Held q0 n0 c0 s) : Held q0 n0 c0 (State.convBegin s st ch order notch urgent) := by
  unfold State.convBegin
  extract_lets l0
  have hl0 : Held q0 n0 c0 l0 := by
    unfold l0
    with_reducible repeat' first | assumption | apply State.onMet_held
  try clear_value l0
  with_reducible repeat' first | assumption | apply State.setFld_held | apply State.setFlag_held

theorem State.convUrgent_held {s : State} {ch : Nat} {order : Nat} {notch : Nat} (hk : Held q0 n0 c0 s) : Held q0 n0 c0 (State.convUrgent s ch order notch) := by
  unfold State.convUrgent
  with_reducible repeat' first
    | assumption | apply State.convBegin_held | apply State.count_held | apply State.onMet_held | apply State.setFld_held
    | refine Held.ite ?_ ?_

theorem State.convStart_held {s : State} {ch : Nat} {order : Nat} {notch : Nat} (hk : Held q0 n0 c0 s) : Held q0 n0 c0 (State.convStart s ch order notch) := by
  unfold State.convStart
  with_reducible repeat' first | assumption | apply State.convBegin_held | apply State.count_held | refine Held.ite ?_ ?_

theorem State.convWrite_held {s : State} {value : Nat} (hk : Held q0 n0 c0 s) : Held q0 n0 c0 (State.convWrite s value) := by
  unfold State.convWrite
  extract_lets l0 l1 l2 l3
  try clear_value l0
  try clear_value l1
  try clear_value l2
  have hl3 : Held q0 n0 c0 l3 := by
    unfold l3
    with_reducible repeat' first | assumption | apply State.setFld_held
  try clear_value l3
  with_reducible repeat' first | assumption | apply State.convUrgent_held | apply State.convStart_held | refine Held.ite ?_ ?_

theorem State.convWake_held {s : State} (hk : Held q0 n0 c0 s) : Held q0 n0 c0 (State.convWake s) := by
  unfold State.convWake
  with_reducible repeat' first | assumption | apply State.onMet_held | apply State.setFld_held | refine Held.ite ?_ ?_

theorem State.convRoutine_held {s : State} (hk : Held q0 n0 c0 s) : Held q0 n0 c0 (State.convRoutine s) := by
  unfold State.convRoutine
  extract_lets l0
  have hl0 : Held q0 n0 c0 l0 := by
    unfold l0
    with_reducible repeat' first | assumption | apply State.convBegin_held
  try clear_value l0
  with_reducible repeat' first | assumption | apply State.onMet_held | refine Held.ite ?_ ?_

theorem State.loadEps_held {s : State} {a : Nat} (hk : Held q0 n0 c0 s) : Held q0 n0 c0 (State.loadEps s a) := by
  unfold State.loadEps
  with_reducible repeat' first | assumption | apply State.setFld_held

theorem State.reloadEps_held {s : State} (hk : Held q0 n0 c0 s) : Held q0 n0 c0 (State.reloadEps s) := by
  unfold State.reloadEps
  with_reducible repeat' first
    | assumption | apply State.loadEps_held | refine Held.ite ?_ ?_ | refine Held.foldl (fun _ _ _ => ?_) ?_

theorem State.reportClear_held {s : State} (hk : Held q0 n0 c0 s) : Held q0 n0 c0 (State.reportClear s) := by
  unfold State.reportClear
  with_reducible repeat' first | assumption | apply State.reportSelf_held | refine Held.ite ?_ ?_

theorem State.lateClear_held {s : State} (hk : Held q0 n0 c0 s) : Held q0 n0 c0 (State.lateClear s) := by
  unfold State.lateClear
  with_reducible repeat' first | assumption | apply State.onMet_held | apply State.reportClear_held | refine Held.ite ?_ ?_

theorem State.driftOf_held {s : State} {t : Int} {used : List Nat} {a : Nat} (hk : Held q0 n0 c0 s) : Held q0 n0 c0 (State.driftOf s t used a) := by
  unfold State.driftOf
  extract_lets l0 l1 l2 l3 l4
  try clear_value l0
  try clear_value l1
  try clear_value l2
  have hl3 : Held q0 n0 c0 l3 := by
    unfold l3
    with_reducible repeat' first | assumption | apply State.setFlag_held
  try clear_value l3
  have hl4 : Held q0 n0 c0 l4 := by
    unfold l4
    with_reducible repeat' first | assumption | apply State.count_held | apply State.raiseBoth_held | apply State.post_held
  try clear_value l4
  with_reducible repeat' first | assumption | apply State.onMet_held | apply State.reportSelf_held | refine Held.ite ?_ ?_

theorem State.drifts_held {s : State} {t : Int} (hk : Held q0 n0 c0 s) : Held q0 n0 c0 (State.drifts s t) := by
  unfold State.drifts
  extract_lets l0
  try clear_value l0
  with_reducible repeat' first
    | assumption | apply State.driftOf_held | apply State.lateClear_held | refine Held.foldl (fun _ _ _ => ?_) ?_

theorem State.tempOver_held {s : State} {why : Nat} (hk : Held q0 n0 c0 s) : Held q0 n0 c0 (State.tempOver s why) := by
  unfold State.tempOver
  extract_lets l0 l1
  try clear_value l0
  have hl1 : Held q0 n0 c0 l1 := by
    unfold l1
    with_reducible repeat' first | assumption | apply State.setFld_held | apply State.count_held
  try clear_value l1
  with_reducible repeat' first
    | assumption | apply State.alertRaise_held | apply State.raiseBoth_held | apply State.post_held
    | apply State.reportSelf_held | refine Held.ite ?_ ?_

theorem State.tempStale_held {s : State} (hk : Held q0 n0 c0 s) : Held q0 n0 c0 (State.tempStale s) := by
  unfold State.tempStale
  extract_lets l0
  have hl0 : Held q0 n0 c0 l0 := by
    unfold l0
    with_reducible repeat' first | assumption | apply State.setFlag_held
  try clear_value l0
  with_reducible repeat' first
    | assumption | apply State.onMet_held | apply State.count_held | apply State.tempOver_held | apply State.reloadEps_held
    | refine Held.ite ?_ ?_

theorem State.tempReading_held {s : State} {d : Int} (hk : Held q0 n0 c0 s) : Held q0 n0 c0 (State.tempReading s d) := by
  unfold State.tempReading
  extract_lets l0 l1 l2 l3 l4 l5 l6 l7 l8 l9
  try clear_value l0
  try clear_value l1
  try clear_value l2
  try clear_value l3
  try clear_value l4
  have hl5 : Held q0 n0 c0 l5 := by
    unfold l5
    with_reducible repeat' first | assumption | apply State.setFld_held
  try clear_value l5
  have hl6 : Held q0 n0 c0 l6 := by
    unfold l6
    with_reducible repeat' first | assumption | apply State.onMet_held | apply State.setFlag_held
  try clear_value l6
  have hl7 : Held q0 n0 c0 l7 := by
    unfold l7
    with_reducible repeat' first | assumption | apply State.count_held | apply State.raiseBoth_held | apply State.post_held
  try clear_value l7
  have hl8 : Held q0 n0 c0 l8 := by
    unfold l8
    with_reducible repeat' first | assumption | apply State.setFld_held
  try clear_value l8
  have hl9 : Held q0 n0 c0 l9 := by
    unfold l9
    with_reducible repeat' first
      | assumption | apply State.setFld_held | apply State.count_held | apply State.post_held | apply State.tempOver_held
      | apply State.reportClear_held | refine Held.ite ?_ ?_
  try clear_value l9
  with_reducible repeat' first
    | assumption | apply State.tempOver_held | apply State.reloadEps_held | apply State.drifts_held | refine Held.ite ?_ ?_

theorem State.refinSet_held {s : State} (hk : Held q0 n0 c0 s) : Held q0 n0 c0 (State.refinSet s) := by
  unfold State.refinSet
  with_reducible repeat' first
    | assumption | apply State.setFld_held | apply State.raiseBoth_held | apply State.post_held | apply State.tempStale_held
    | refine Held.ite ?_ ?_

theorem State.refinWindow_held {s : State} {ok : Bool} (hk : Held q0 n0 c0 s) : Held q0 n0 c0 (State.refinWindow s ok) := by
  unfold State.refinWindow
  extract_lets l0
  have hl0 : Held q0 n0 c0 l0 := by
    unfold l0
    with_reducible repeat' first | assumption | apply State.setFlag_held
  try clear_value l0
  with_reducible repeat' first | assumption | apply State.refinSet_held | refine Held.ite ?_ ?_

theorem State.convResult_held {s : State} {d : Int} {ovr : Bool} (hk : Held q0 n0 c0 s) : Held q0 n0 c0 (State.convResult s d ovr) := by
  unfold State.convResult
  extract_lets l0 l1 l2 l3 l4
  try clear_value l0
  try clear_value l1
  have hl2 : Held q0 n0 c0 l2 := by
    unfold l2
    with_reducible repeat' first | assumption | apply State.setFld_held | apply State.setFlag_held
  try clear_value l2
  have hl3 : Held q0 n0 c0 l3 := by
    unfold l3
    with_reducible repeat' first | assumption | apply State.setFld_held
  try clear_value l3
  have hl4 : Held q0 n0 c0 l4 := by
    unfold l4
    with_reducible repeat' first | assumption | apply State.setFld_held
  try clear_value l4
  with_reducible repeat' first
    | assumption | apply State.setFld_held | apply State.count_held | apply State.onMet_held | refine Held.ite ?_ ?_

theorem State.convComplete_held {s : State} {code : Int} (hk : Held q0 n0 c0 s) : Held q0 n0 c0 (State.convComplete s code) := by
  unfold State.convComplete
  extract_lets l0 l1 l2 l3 l4 l5 l6 l7
  try clear_value l0
  try clear_value l1
  try clear_value l2
  have hl3 : Held q0 n0 c0 l3 := by
    unfold l3
    with_reducible repeat' first | assumption | apply State.convResult_held | apply State.raiseBoth_held
  try clear_value l3
  have hl4 : Held q0 n0 c0 l4 := by
    unfold l4
    with_reducible repeat' first | assumption | apply State.raiseBoth_held | apply State.count_held | refine Held.ite ?_ ?_
  try clear_value l4
  have hl5 : Held q0 n0 c0 l5 := by
    unfold l5
    with_reducible repeat' first | assumption | apply State.onMet_held | refine Held.ite ?_ ?_
  try clear_value l5
  have hl6 : Held q0 n0 c0 l6 := by
    unfold l6
    with_reducible repeat' first | assumption | apply State.refinSet_held | apply State.setFld_held | refine Held.ite ?_ ?_
  try clear_value l6
  have hl7 : Held q0 n0 c0 l7 := by
    unfold l7
    with_reducible repeat' first | assumption | apply State.tempStale_held | apply State.tempReading_held | refine Held.ite ?_ ?_
  try clear_value l7
  with_reducible repeat' first
    | assumption | apply State.onMet_held | apply State.setFld_held | apply State.convBegin_held | refine Held.ite ?_ ?_
    | split

theorem State.heldStale_held {s : State} {ch : Nat} (hk : Held q0 n0 c0 s) : Held q0 n0 c0 (State.heldStale s ch) := by
  unfold State.heldStale
  extract_lets l0
  have hl0 : Held q0 n0 c0 l0 := by
    unfold l0
    with_reducible repeat' first | assumption | apply State.setFld_held
  try clear_value l0
  with_reducible repeat' first | assumption | apply State.tempStale_held | refine Held.ite ?_ ?_ | split

theorem State.refinWrite_held {s : State} {path : Path} {value : Nat} (hk : Held q0 n0 c0 s) : Held q0 n0 c0 (State.refinWrite s path value) := by
  unfold State.refinWrite
  extract_lets l0 l1 l2 l3
  try clear_value l0
  have hl1 : Held q0 n0 c0 l1.2 := by
    unfold l1
    with_reducible repeat' first | assumption | apply State.ownWrite_held
  try clear_value l1
  have hl2 : Held q0 n0 c0 l2 := by
    unfold l2
    with_reducible repeat' first | assumption | apply State.setFld_held | apply State.setVfld_held | apply State.recordWrites_held
  try clear_value l2
  have hl3 : Held q0 n0 c0 l3 := by
    unfold l3
    with_reducible repeat' first | assumption | apply State.staleHeld_held | refine Held.foldl (fun _ _ _ => ?_) ?_
  try clear_value l3
  with_reducible repeat' first | assumption | apply State.tempStale_held | refine Held.ite ?_ ?_

theorem State.calFailed_held {s : State} {a : Nat} {sweepBad : Bool} (hk : Held q0 n0 c0 s) : Held q0 n0 c0 (State.calFailed s a sweepBad) := by
  unfold State.calFailed
  extract_lets l0 l1 l2 l3
  try clear_value l0
  have hl1 : Held q0 n0 c0 l1 := by
    unfold l1
    with_reducible repeat' first | assumption | apply State.setFld_held | apply State.onMet_held
  try clear_value l1
  try clear_value l2
  have hl3 : Held q0 n0 c0 l3 := by
    unfold l3
    with_reducible repeat' first | assumption | apply State.setRec_held
  try clear_value l3
  with_reducible repeat' first | assumption | apply State.arrCommand_held | apply State.retireCore_held | refine Held.ite ?_ ?_

theorem State.regionTrim_held {s : State} {r : Nat} {code : Option Nat} (hk : Held q0 n0 c0 s) : Held q0 n0 c0 (State.regionTrim s r code) := by
  unfold State.regionTrim
  extract_lets l0 l1
  try clear_value l0
  have hl1 : Held q0 n0 c0 l1 := by
    unfold l1
    with_reducible repeat' first | assumption | apply State.count_held | apply State.raiseBoth_held | apply State.post_held
  try clear_value l1
  with_reducible repeat' first
    | assumption | apply State.count_held | apply State.setFld_held | apply State.calFailed_held | refine Held.ite ?_ ?_
    | refine Held.foldl (fun _ _ _ => ?_) ?_ | split

theorem State.calPass_held {s : State} {a : Nat} {t : Int} {m : List Nat} (hk : Held q0 n0 c0 s) : Held q0 n0 c0 (State.calPass s a t m) := by
  unfold State.calPass
  extract_lets l0 l1
  try clear_value l0
  try clear_value l1
  with_reducible repeat' first | assumption | apply State.setFld_held

theorem State.calSweep_held {s : State} {a : Nat} {m : List Nat} (hk : Held q0 n0 c0 s) : Held q0 n0 c0 (State.calSweep s a m) := by
  unfold State.calSweep
  extract_lets l0
  have hl0 : Held q0 n0 c0 l0 := by
    unfold l0
    with_reducible repeat' first | assumption | apply State.arrCommand_held
  try clear_value l0
  with_reducible repeat' first | assumption | apply State.arrCommandEnd_held | split

theorem State.calStamp_held {s : State} {a : Nat} {t : Int} (hk : Held q0 n0 c0 s) : Held q0 n0 c0 (State.calStamp s a t) := by
  unfold State.calStamp
  extract_lets l0 l1
  have hl0 : Held q0 n0 c0 l0 := by
    unfold l0
    with_reducible repeat' first | assumption | apply State.setFld_held
  try clear_value l0
  have hl1 : Held q0 n0 c0 l1 := by
    unfold l1
    with_reducible repeat' first | assumption | apply State.setFld_held | apply State.onMet_held
  try clear_value l1
  with_reducible repeat' first | assumption | apply State.loadEps_held

theorem State.calPasses_held {s : State} {a : Nat} {t : Int} {m0 : List Nat} {m1 : List Nat} {m2 : List Nat} (hk : Held q0 n0 c0 s) : Held q0 n0 c0 (State.calPasses s a t m0 m1 m2).1 := by
  unfold State.calPasses
  extract_lets l0 l1 l2 l3
  try clear_value l0
  try clear_value l1
  have hl2 : Held q0 n0 c0 l2 := by
    unfold l2
    with_reducible repeat' first | assumption | apply State.calSweep_held | apply State.calPass_held
  try clear_value l2
  have hl3 : Held q0 n0 c0 l3 := by
    unfold l3
    with_reducible repeat' first | assumption | apply State.calSweep_held | apply State.calPass_held
  try clear_value l3
  with_reducible repeat' first | assumption | apply State.calStamp_held | apply State.setFld_held | split

theorem State.calPost_held {s : State} {a : Nat} (hk : Held q0 n0 c0 s) : Held q0 n0 c0 (State.calPost s a) := by
  unfold State.calPost
  with_reducible repeat' first | assumption | apply State.count_held | apply State.raiseBoth_held | apply State.post_held

theorem State.calibrate_held {s : State} {a : Nat} {t : Int} {m0 : List Nat} {m1 : List Nat} {m2 : List Nat} (hk : Held q0 n0 c0 s) : Held q0 n0 c0 (State.calibrate s a t m0 m1 m2) := by
  unfold State.calibrate
  extract_lets l0 l1
  have hl0 : Held q0 n0 c0 l0.1 := by
    unfold l0
    with_reducible repeat' first | assumption | apply State.arrCommand_held | apply State.calPasses_held
  try clear_value l0
  have hl1 : Held q0 n0 c0 l1 := by
    unfold l1
    with_reducible repeat' first | assumption | apply State.arrCommand_held
  try clear_value l1
  with_reducible repeat' first
    | assumption | apply State.lateClear_held | apply State.calPost_held | apply State.calFailed_held | refine Held.ite ?_ ?_

theorem State.calibrateArray_held {s : State} {a : Nat} {m0 : List Nat} {m1 : List Nat} {m2 : List Nat} (hk : Held q0 n0 c0 s) : Held q0 n0 c0 (State.calibrateArray s a m0 m1 m2) := by
  unfold State.calibrateArray
  with_reducible repeat' first | assumption | apply State.calibrate_held | refine Held.ite ?_ ?_

theorem execConversionStart_held {value : Nat} {s : State} (hk : Held q0 n0 c0 s) : HeldO q0 n0 c0 (execConversionStart value s) := by
  unfold execConversionStart
  with_reducible repeat' first | assumption | apply State.convWrite_held | refine HeldO.next ?_

theorem execUrgentConversion_held {value : Nat} {s : State} (hk : Held q0 n0 c0 s) : HeldO q0 n0 c0 (execUrgentConversion value s) := by
  unfold execUrgentConversion
  with_reducible repeat' first | assumption | apply State.convWrite_held | refine HeldO.next ?_

theorem execConverterWake_held {s : State} (hk : Held q0 n0 c0 s) : HeldO q0 n0 c0 (execConverterWake s) := by
  unfold execConverterWake
  with_reducible repeat' first | assumption | apply State.convWake_held | refine HeldO.next ?_

theorem execRoutineConversion_held {s : State} (hk : Held q0 n0 c0 s) : HeldO q0 n0 c0 (execRoutineConversion s) := by
  unfold execRoutineConversion
  with_reducible repeat' first | assumption | apply State.convRoutine_held | refine HeldO.next ?_

theorem execConversionComplete_held {code : Int} {s : State} (hk : Held q0 n0 c0 s) : HeldO q0 n0 c0 (execConversionComplete code s) := by
  unfold execConversionComplete
  with_reducible repeat' first | assumption | apply State.convComplete_held | refine HeldO.next ?_

theorem execRefinFault_held {ok : Bool} {s : State} (hk : Held q0 n0 c0 s) : HeldO q0 n0 c0 (execRefinFault ok s) := by
  unfold execRefinFault
  with_reducible repeat' first | assumption | apply State.refinWindow_held | refine HeldO.next ?_

theorem execHeldValueStale_held {ch : Nat} {s : State} (hk : Held q0 n0 c0 s) : HeldO q0 n0 c0 (execHeldValueStale ch s) := by
  unfold execHeldValueStale
  with_reducible repeat' first | assumption | apply State.heldStale_held | refine HeldO.within ?_

theorem execRefinWrite_held {path : Path} {value : Nat} {s : State} (hk : Held q0 n0 c0 s) : HeldO q0 n0 c0 (execRefinWrite path value s) := by
  unfold execRefinWrite
  with_reducible repeat' first | assumption | apply State.refinWrite_held | refine HeldO.within ?_

theorem execRegionTrimAdjust_held {region : Nat} {code : Option Nat} {s : State} (hk : Held q0 n0 c0 s) : HeldO q0 n0 c0 (execRegionTrimAdjust region code s) := by
  unfold execRegionTrimAdjust
  with_reducible repeat' first | assumption | apply State.regionTrim_held | refine HeldO.within ?_

theorem execCalibrateArray_held {arr : Nat} {m0 : List Nat} {m1 : List Nat} {m2 : List Nat} {s : State} (hk : Held q0 n0 c0 s) : HeldO q0 n0 c0 (execCalibrateArray arr m0 m1 m2 s) := by
  unfold execCalibrateArray
  with_reducible repeat' first | assumption | apply State.calibrateArray_held | refine HeldO.within ?_

end Sys2Proof.Machine
end

