-- ==== Sys2Proof/Laws/HeldHostLink.lean ====
section
/-!
SUPPORT. That the operations of Machine/HostLink.lean touch neither the queue nor the clock, and keep the tables canonical.
-/

namespace Sys2Proof.Machine

variable {q0 : List Instr} {n0 c0 : Nat}

theorem State.onHost_held {s : State} {f : HostSt → HostSt} (hk : Held q0 n0 c0 s) : Held q0 n0 c0 (State.onHost s f) := by
  unfold State.onHost
  with_reducible repeat' first | assumption | fail_if_no_progress refine Held.same ?_

theorem State.reqReset_held {s : State} {p : Nat} {tag : Nat} (hk : Held q0 n0 c0 s) : Held q0 n0 c0 (State.reqReset s p tag) := by
  unfold State.reqReset
  extract_lets l0
  have hl0 : Held q0 n0 c0 l0 := by
    unfold l0
    with_reducible repeat' first | assumption | apply State.onSrv_held
  try clear_value l0
  with_reducible repeat' first | assumption | apply State.sendMsg_held | refine Held.ite ?_ ?_ | split

theorem State.fnReset_held {s : State} {fn : Nat} {cause : Nat} (hk : Held q0 n0 c0 s) : Held q0 n0 c0 (State.fnReset s fn cause) := by
  unfold State.fnReset
  extract_lets l0 l1 l2 l3 l4 l5 l6 l7
  try clear_value l0
  have hl1 : Held q0 n0 c0 l1 := by
    unfold l1
    with_reducible repeat' first
      | assumption | apply State.reqReset_held | apply State.queueOff_held | refine Held.foldl (fun _ _ _ => ?_) ?_
  try clear_value l1
  have hl2 : Held q0 n0 c0 l2 := by
    unfold l2
    with_reducible repeat' first | assumption | apply State.endRole_held
  try clear_value l2
  try clear_value l3
  try clear_value l4
  have hl5 : Held q0 n0 c0 l5 := by
    unfold l5
    with_reducible repeat' first | assumption | apply State.setWin_held
  try clear_value l5
  have hl6 : Held q0 n0 c0 l6 := by
    unfold l6
    with_reducible repeat' first | assumption | apply State.onHost_held
  try clear_value l6
  have hl7 : Held q0 n0 c0 l7 := by
    unfold l7
    with_reducible repeat' first | assumption | apply State.setFld_held
  try clear_value l7
  with_reducible repeat' first | assumption | apply State.sessionAbort_held | refine Held.ite ?_ ?_ | split

theorem State.vfOff_held {s : State} {cause : Nat} (hk : Held q0 n0 c0 s) : Held q0 n0 c0 (State.vfOff s cause) := by
  unfold State.vfOff
  with_reducible repeat' first
    | assumption | apply State.fnReset_held | apply State.onHost_held | refine Held.ite ?_ ?_
    | refine Held.foldl (fun _ _ _ => ?_) ?_

theorem State.flr_held {s : State} {fn : Nat} (hk : Held q0 n0 c0 s) : Held q0 n0 c0 (State.flr s fn) := by
  unfold State.flr
  extract_lets l0
  have hl0 : Held q0 n0 c0 l0 := by
    unfold l0
    with_reducible repeat' first | assumption | apply State.count_held | apply State.fnReset_held
  try clear_value l0
  with_reducible repeat' first | assumption | apply State.vfOff_held | refine Held.ite ?_ ?_

theorem State.linkDown_held {s : State} (hk : Held q0 n0 c0 s) : Held q0 n0 c0 (State.linkDown s) := by
  unfold State.linkDown
  extract_lets l0 l1
  have hl0 : Held q0 n0 c0 l0 := by
    unfold l0
    with_reducible repeat' first | assumption | apply State.count_held | apply State.vfOff_held | apply State.fnReset_held
  try clear_value l0
  have hl1 : Held q0 n0 c0 l1 := by
    unfold l1
    with_reducible repeat' first | assumption | apply State.onHost_held
  try clear_value l1
  with_reducible repeat' first | assumption | apply State.setFld_held

theorem State.msiRelease_held {s : State} {fn : Nat} (hk : Held q0 n0 c0 s) : Held q0 n0 c0 (State.msiRelease s fn) := by
  unfold State.msiRelease
  extract_lets l0
  try clear_value l0
  with_reducible repeat' first
    | assumption | apply State.onHost_held | apply State.msi_held | refine Held.ite ?_ ?_
    | refine Held.foldl (fun _ _ _ => ?_) ?_

theorem State.linkRetrain_held {s : State} {up : Option (Nat × Nat × Bool)} (hk : Held q0 n0 c0 s) : Held q0 n0 c0 (State.linkRetrain s up) := by
  unfold State.linkRetrain
  extract_lets l0
  have hl0 : Held q0 n0 c0 l0 := by
    unfold l0
    with_reducible repeat' first | assumption | apply State.onHost_held | apply State.setFld_held
  try clear_value l0
  with_reducible repeat' first
    | assumption | apply State.count_held | apply State.onHost_held | apply State.setFld_held | apply State.setFlag_held
    | apply State.msiRelease_held | refine Held.ite ?_ ?_ | refine Held.foldl (fun _ _ _ => ?_) ?_ | split

theorem State.linkFatal_held {s : State} (hk : Held q0 n0 c0 s) : Held q0 n0 c0 (State.linkFatal s) := by
  unfold State.linkFatal
  with_reducible repeat' first | assumption | apply State.count_held | apply State.linkDown_held

theorem State.bmeChange_held {s : State} {fn : Nat} {bme : Bool} {d3 : Bool} (hk : Held q0 n0 c0 s) : Held q0 n0 c0 (State.bmeChange s fn bme d3) := by
  unfold State.bmeChange
  with_reducible repeat' first | assumption | apply State.setFlag_held | apply State.msiRelease_held

theorem State.perstPin_held {s : State} {low : Bool} (hk : Held q0 n0 c0 s) : Held q0 n0 c0 (State.perstPin s low) := by
  unfold State.perstPin
  with_reducible repeat' first | assumption | apply State.onHost_held | apply State.linkDown_held | refine Held.ite ?_ ?_

theorem State.vfSet_held {s : State} {on : Bool} (hk : Held q0 n0 c0 s) : Held q0 n0 c0 (State.vfSet s on) := by
  unfold State.vfSet
  extract_lets l0
  try clear_value l0
  with_reducible repeat' first | assumption | apply State.vfOff_held | apply State.onHost_held | refine Held.ite ?_ ?_

theorem State.promptFetch_held {s : State} {p : Nat} {slot : Nat} {tokens : List Nat} (hk : Held q0 n0 c0 s) : Held q0 n0 c0 (State.promptFetch s p slot tokens) := by
  unfold State.promptFetch
  extract_lets l0
  try clear_value l0
  with_reducible repeat' first | assumption | apply State.onHost_held | refine Held.ite ?_ ?_ | split

theorem State.inboxDelivery_held {s : State} {rec : Nat} (hk : Held q0 n0 c0 s) : Held q0 n0 c0 (State.inboxDelivery s rec) := by
  unfold State.inboxDelivery
  with_reducible repeat' first
    | assumption | apply State.count_held | apply State.withholdNotice_held | apply State.deliver_held
    | apply State.restart_held | apply State.ctrInc_held | fail_if_no_progress refine Held.same ?_ | refine Held.ite ?_ ?_
    | split | fail_if_no_progress extract_lets

theorem execLinkRetrain_held {up : Option (Nat × Nat × Bool)} {s : State} (hk : Held q0 n0 c0 s) : HeldO q0 n0 c0 (execLinkRetrain up s) := by
  unfold execLinkRetrain
  with_reducible repeat' first | assumption | apply State.linkRetrain_held | refine HeldO.next ?_

theorem execHostInboxDelivery_held {rec : Nat} {s : State} (hk : Held q0 n0 c0 s) : HeldO q0 n0 c0 (execHostInboxDelivery rec s) := by
  unfold execHostInboxDelivery
  with_reducible repeat' first | assumption | apply State.inboxDelivery_held | refine HeldO.next ?_

theorem execPromptFetch_held {pitch : Nat} {slot : Nat} {tokens : List Nat} {s : State} (hk : Held q0 n0 c0 s) : HeldO q0 n0 c0 (execPromptFetch pitch slot tokens s) := by
  unfold execPromptFetch
  with_reducible repeat' first | assumption | apply State.promptFetch_held | refine HeldO.within ?_

theorem execHostLinkFatalError_held {s : State} (hk : Held q0 n0 c0 s) : HeldO q0 n0 c0 (execHostLinkFatalError s) := by
  unfold execHostLinkFatalError
  with_reducible repeat' first | assumption | apply State.linkFatal_held | refine HeldO.next ?_

theorem execFunctionLevelReset_held {fn : Nat} {s : State} (hk : Held q0 n0 c0 s) : HeldO q0 n0 c0 (execFunctionLevelReset fn s) := by
  unfold execFunctionLevelReset
  with_reducible repeat' first | assumption | apply State.flr_held | refine HeldO.within ?_

theorem execHotReset_held {s : State} (hk : Held q0 n0 c0 s) : HeldO q0 n0 c0 (execHotReset s) := by
  unfold execHotReset
  with_reducible repeat' first | assumption | apply State.linkDown_held | refine HeldO.next ?_

theorem execBusMasterEnableChange_held {fn : Nat} {bme : Bool} {d3 : Bool} {s : State} (hk : Held q0 n0 c0 s) : HeldO q0 n0 c0 (execBusMasterEnableChange fn bme d3 s) := by
  unfold execBusMasterEnableChange
  with_reducible repeat' first | assumption | apply State.bmeChange_held | refine HeldO.within ?_

theorem execPerstN_held {low : Bool} {s : State} (hk : Held q0 n0 c0 s) : HeldO q0 n0 c0 (execPerstN low s) := by
  unfold execPerstN
  with_reducible repeat' first | assumption | apply State.perstPin_held | refine HeldO.next ?_

theorem execVfEnable_held {on : Bool} {s : State} (hk : Held q0 n0 c0 s) : HeldO q0 n0 c0 (execVfEnable on s) := by
  unfold execVfEnable
  with_reducible repeat' first | assumption | apply State.vfSet_held | refine HeldO.next ?_

end Sys2Proof.Machine
end

