-- ==== Sys2Proof/Laws/HeldReset.lean ====
section
/-!
SUPPORT. That the operations of Machine/Reset.lean touch neither the queue nor the clock, and keep the tables canonical.
-/

namespace Sys2Proof.Machine

variable {q0 : List Instr} {n0 c0 : Nat}

theorem State.onPwr_held {s : State} {f : PwrSt → PwrSt} (hk : Held q0 n0 c0 s) : Held q0 n0 c0 (State.onPwr s f) := by
  unfold State.onPwr
  with_reducible repeat' first | assumption | fail_if_no_progress refine Held.same ?_

/-- A map over numbered entries that leaves the keys as they are keeps them rising. -/
theorem SMap.rising_mapIdx {α : Type} {f : (Nat × α) × Nat → Nat × α} (hf : ∀ e, (f e).1 = e.1.1) :
    ∀ {b k : Nat} {m : SMap α}, SMap.rising b m = true → SMap.rising b ((m.zipIdx k).map f) = true
  | _, _, [], _ => rfl
  | b, k, (j, v) :: m, h => by
    simp only [SMap.rising, Bool.and_eq_true, decide_eq_true_eq] at h
    have := hf ((j, v), k)
    simp only [List.zipIdx_cons, List.map_cons]
    rw [show f ((j, v), k) = (j, (f ((j, v), k)).2) from Prod.ext this rfl]
    simp only [SMap.rising, Bool.and_eq_true, decide_eq_true_eq]
    exact ⟨h.1, SMap.rising_mapIdx hf h.2⟩

theorem State.discard_held {s : State} {keep : List Fld} {pwr : PwrSt} (hk : Held q0 n0 c0 s) : Held q0 n0 c0 (s.discard keep pwr) where
  queue := hk.queue
  clock := hk.clock
  cycles := hk.cycles
  hamper := rfl
  dram := rfl
  fields := SMap.rising_filter _ hk.fields
  vfields := hk.vfields
  arrays := SMap.rising_filter _ (SMap.rising_mapIdx (f := fun e => (e.1.1, e.1.2.afterReset (2097152 * (s.free + e.2)))) (fun _ => rfl) hk.arrays)
  cores := rfl
  serve := rfl

theorem State.systemReset_held {s : State} {cause : Nat} (hk : Held q0 n0 c0 s) : Held q0 n0 c0 (State.systemReset s cause) := by
  unfold State.systemReset
  with_reducible repeat' first | assumption | apply State.discard_held | apply State.setFld_held

theorem State.powerReset_held {s : State} {aon : Bool} (hk : Held q0 n0 c0 s) : Held q0 n0 c0 (State.powerReset s aon) := by
  unfold State.powerReset
  extract_lets l0 l1
  try clear_value l0
  have hl1 : Held q0 n0 c0 l1 := by
    unfold l1
    with_reducible repeat' first | assumption | apply State.discard_held
  try clear_value l1
  with_reducible repeat' first | assumption | fail_if_no_progress refine Held.same ?_

end Sys2Proof.Machine
end

