-- ==== Sys2Proof/Laws/HeldPower.lean ====
section
/-!
SUPPORT. That the operations of Machine/Power.lean touch neither the queue nor the clock, and keep the tables canonical.
-/

namespace Sys2Proof.Machine

variable {q0 : List Instr} {n0 c0 : Nat}

theorem State.setClock_held {s : State} (hk : Held q0 n0 c0 s) : Held q0 n0 c0 (State.setClock s) := by
  unfold State.setClock
  with_reducible repeat' first | assumption | apply State.setFld_held | apply State.setFlag_held

theorem State.droopStretch_held {s : State} (hk : Held q0 n0 c0 s) : Held q0 n0 c0 (State.droopStretch s) := by
  unfold State.droopStretch
  with_reducible repeat' first
    | assumption | apply State.onPwr_held | apply State.count_held | apply State.setClock_held | refine Held.ite ?_ ?_

theorem State.droopEnd_held {s : State} (hk : Held q0 n0 c0 s) : Held q0 n0 c0 (State.droopEnd s) := by
  unfold State.droopEnd
  with_reducible repeat' first | assumption | apply State.onPwr_held | apply State.setClock_held

theorem State.pllUnlock_held {s : State} {regions : Nat} (hk : Held q0 n0 c0 s) : Held q0 n0 c0 (State.pllUnlock s regions) := by
  unfold State.pllUnlock
  extract_lets l0 l1 l2
  try clear_value l0
  try clear_value l1
  have hl2 : Held q0 n0 c0 l2 := by
    unfold l2
    with_reducible repeat' first | assumption | apply State.setFld_held
  try clear_value l2
  with_reducible repeat' first
    | assumption | apply State.count_held | apply State.raiseBoth_held | apply State.post_held | apply State.setClock_held
    | refine Held.ite ?_ ?_

theorem State.pllRelock_held {s : State} (hk : Held q0 n0 c0 s) : Held q0 n0 c0 (State.pllRelock s) := by
  unfold State.pllRelock
  with_reducible repeat' first | assumption | apply State.setFld_held | apply State.setClock_held | refine Held.ite ?_ ?_

theorem State.railOn_held {s : State} {i : Nat} (hk : Held q0 n0 c0 s) : Held q0 n0 c0 (State.railOn s i) := by
  unfold State.railOn
  with_reducible repeat' first | assumption | apply State.onPwr_held | apply State.setFld_held

theorem State.railOff_held {s : State} {i : Nat} (hk : Held q0 n0 c0 s) : Held q0 n0 c0 (State.railOff s i) := by
  unfold State.railOff
  with_reducible repeat' first | assumption | apply State.onPwr_held | apply State.setFld_held

/-- A fold of insertions keeps keys rising. -/
theorem SMap.rising_folds {α β : Type} {f : SMap α → β → SMap α} (hf : ∀ m b, SMap.rising 0 m = true → SMap.rising 0 (f m b) = true) :
    ∀ {l : List β} {m : SMap α}, SMap.rising 0 m = true → SMap.rising 0 (l.foldl f m) = true
  | [], _, h => h
  | b :: l, m, h => SMap.rising_folds (l := l) hf (hf m b h)

theorem State.startBegin_held {s : State} (hk : Held q0 n0 c0 s) : Held q0 n0 c0 s.startBegin := by
  unfold State.startBegin
  extract_lets old shift t t1 n t2 t3 t4
  have h0 : ∀ f m, SMap.rising 0 m = true → SMap.rising 0 (shift f m) = true := fun f m h =>
    SMap.rising_folds (fun _ _ h => SMap.rising_folds (fun _ _ h => SMap.rising_set _ _ _ h) (SMap.rising_set _ _ _ h)) h
  have h : Held q0 n0 c0 t := { hk with fields := SMap.rising_folds (fun m f h => h0 f m h) hk.fields }
  have h1 : Held q0 n0 c0 t1 := by
    unfold t1
    split <;> [exact State.setFld_held h; exact h]
  have h3 : Held q0 n0 c0 t3 := Held.foldl (fun _ _ h => State.setFld_held h) (State.setFld_held (State.setVfld_held (State.setFld_held h1)))
  exact Held.ite hk (State.railOn_held (State.setFld_held (State.setFld_held (State.onPwr_held h3))))

theorem State.railsLower_held {s : State} (hk : Held q0 n0 c0 s) : Held q0 n0 c0 (State.railsLower s) := by
  unfold State.railsLower
  with_reducible repeat' first
    | assumption | apply State.railOff_held | apply State.onPwr_held | apply State.startBegin_held | split

theorem State.goOff_held {s : State} (hk : Held q0 n0 c0 s) : Held q0 n0 c0 (State.goOff s) := by
  unfold State.goOff
  extract_lets l0 l1
  try clear_value l0
  have hl1 : Held q0 n0 c0 l1 := by
    unfold l1
    with_reducible repeat' first | assumption | apply State.discard_held
  try clear_value l1
  with_reducible repeat' first | assumption | apply State.onPwr_held | apply State.setFld_held | apply State.railsLower_held

theorem State.railFaultNow_held {s : State} {i : Nat} (hk : Held q0 n0 c0 s) : Held q0 n0 c0 (State.railFaultNow s i) := by
  unfold State.railFaultNow
  extract_lets l0 l1
  have hl0 : Held q0 n0 c0 l0 := by
    unfold l0
    with_reducible repeat' first | assumption | apply State.setFld_held
  try clear_value l0
  have hl1 : Held q0 n0 c0 l1 := by
    unfold l1
    with_reducible repeat' first | assumption | apply State.setFld_held | apply State.alertRaise_held
  try clear_value l1
  with_reducible repeat' first | assumption | apply State.onPwr_held | apply State.goOff_held

theorem State.railFault_held {s : State} {i : Nat} (hk : Held q0 n0 c0 s) : Held q0 n0 c0 (State.railFault s i) := by
  unfold State.railFault
  with_reducible repeat' first | assumption | apply State.onPwr_held | apply State.railFaultNow_held | refine Held.ite ?_ ?_

theorem State.pmbFail_held {s : State} {i : Nat} (hk : Held q0 n0 c0 s) : Held q0 n0 c0 (State.pmbFail s i) := by
  unfold State.pmbFail
  extract_lets l0 l1
  try clear_value l0
  have hl1 : Held q0 n0 c0 l1 := by
    unfold l1
    with_reducible repeat' first | assumption | apply State.count_held | apply State.onPwr_held
  try clear_value l1
  with_reducible repeat' first | assumption | apply State.railFault_held | refine Held.ite ?_ ?_

theorem State.pmbOk_held {s : State} {i : Nat} (hk : Held q0 n0 c0 s) : Held q0 n0 c0 (State.pmbOk s i) := by
  unfold State.pmbOk
  with_reducible repeat' first | assumption | apply State.onPwr_held

theorem State.railRamp_held {s : State} {read : Option Nat} (hk : Held q0 n0 c0 s) : Held q0 n0 c0 (State.railRamp s read) := by
  unfold State.railRamp
  with_reducible repeat' first
    | assumption | apply State.pmbFail_held | apply State.railFault_held | apply State.pmbOk_held | apply State.setFld_held
    | apply State.onPwr_held | apply State.railOn_held | apply State.count_held | apply State.railsLower_held
    | refine Held.ite ?_ ?_ | split

theorem State.setDegraded_held {s : State} {on : Bool} {rail : Nat} (hk : Held q0 n0 c0 s) : Held q0 n0 c0 (State.setDegraded s on rail) := by
  unfold State.setDegraded
  extract_lets l0
  have hl0 : Held q0 n0 c0 l0 := by
    unfold l0
    with_reducible repeat' first | assumption | apply State.setFlag_held | apply State.raiseBoth_held | apply State.setClock_held
  try clear_value l0
  with_reducible repeat' first | assumption | apply State.post_held

theorem State.deficitPoll_held {s : State} (hk : Held q0 n0 c0 s) : Held q0 n0 c0 (State.deficitPoll s) := by
  unfold State.deficitPoll
  extract_lets l0 l1 l2
  try clear_value l0
  try clear_value l1
  have hl2 : Held q0 n0 c0 l2 := by
    unfold l2
    with_reducible repeat' first | assumption | apply State.onPwr_held
  try clear_value l2
  with_reducible repeat' first
    | assumption | apply State.onPwr_held | apply State.railFault_held | apply State.count_held | apply State.setDegraded_held
    | apply State.setClock_held | refine Held.ite ?_ ?_

theorem State.tolerancePoll_held {s : State} {i : Nat} {mv : Nat} (hk : Held q0 n0 c0 s) : Held q0 n0 c0 (State.tolerancePoll s i mv) := by
  unfold State.tolerancePoll
  extract_lets l0
  have hl0 : Held q0 n0 c0 l0 := by
    unfold l0
    with_reducible repeat' first | assumption | apply State.setFld_held
  try clear_value l0
  with_reducible repeat' first
    | assumption | apply State.onPwr_held | apply State.setFld_held | apply State.railFault_held | refine Held.ite ?_ ?_
    | split

theorem State.pmbusPoll_held {s : State} {reads : List (Nat × Option Nat)} (hk : Held q0 n0 c0 s) : Held q0 n0 c0 (State.pmbusPoll s reads) := by
  unfold State.pmbusPoll
  extract_lets l0 l1
  try clear_value l0
  have hl1 : Held q0 n0 c0 l1 := by
    unfold l1
    with_reducible repeat' first
      | assumption | apply State.pmbFail_held | apply State.pmbOk_held | apply State.setFld_held
      | apply State.tolerancePoll_held | refine Held.ite ?_ ?_ | refine Held.foldl (fun _ _ _ => ?_) ?_ | split
  try clear_value l1
  with_reducible repeat' first | assumption | apply State.deficitPoll_held | refine Held.ite ?_ ?_

theorem State.pmAlert_held {s : State} {status : List (Nat × Option Nat)} (hk : Held q0 n0 c0 s) : Held q0 n0 c0 (State.pmAlert s status) := by
  unfold State.pmAlert
  extract_lets l0
  have hl0 : Held q0 n0 c0 l0 := by
    unfold l0
    with_reducible repeat' first | assumption | apply State.raiseBoth_held
  try clear_value l0
  with_reducible repeat' first
    | assumption | apply State.pmbFail_held | apply State.pmbOk_held | apply State.railFault_held | refine Held.ite ?_ ?_
    | refine Held.foldl (fun _ _ _ => ?_) ?_ | split

theorem State.vppRaise_held {s : State} (hk : Held q0 n0 c0 s) : Held q0 n0 c0 (State.vppRaise s) := by
  unfold State.vppRaise
  with_reducible repeat' first | assumption | apply State.onPwr_held | apply State.setFld_held | refine Held.ite ?_ ?_

theorem State.vppReady_held {s : State} (hk : Held q0 n0 c0 s) : Held q0 n0 c0 (State.vppReady s) := by
  unfold State.vppReady
  with_reducible repeat' first | assumption | apply State.setFld_held | apply State.kickJobs_held | refine Held.ite ?_ ?_

theorem State.vppLower_held {s : State} (hk : Held q0 n0 c0 s) : Held q0 n0 c0 (State.vppLower s) := by
  unfold State.vppLower
  with_reducible repeat' first | assumption | apply State.onPwr_held | apply State.setFld_held | refine Held.ite ?_ ?_ | split

theorem State.clampOn_held {s : State} {why : Nat} (hk : Held q0 n0 c0 s) : Held q0 n0 c0 (State.clampOn s why) := by
  unfold State.clampOn
  extract_lets l0 l1
  have hl0 : Held q0 n0 c0 l0 := by
    unfold l0
    with_reducible repeat' first | assumption | apply State.onPwr_held | apply State.setFld_held
  try clear_value l0
  have hl1 : Held q0 n0 c0 l1 := by
    unfold l1
    with_reducible repeat' first | assumption | apply State.setFlag_held | apply State.setClock_held
  try clear_value l1
  with_reducible repeat' first
    | assumption | apply State.alertRaise_held | apply State.count_held | apply State.raiseBoth_held | apply State.post_held

theorem State.powerEstimate_held {s : State} {watts : Nat} (hk : Held q0 n0 c0 s) : Held q0 n0 c0 (State.powerEstimate s watts) := by
  unfold State.powerEstimate
  extract_lets l0 l1 l2 l3 l4 l5
  try clear_value l0
  have hl1 : Held q0 n0 c0 l1 := by
    unfold l1
    with_reducible repeat' first | assumption | apply State.setFld_held
  try clear_value l1
  try clear_value l2
  try clear_value l3
  have hl4 : Held q0 n0 c0 l4 := by
    unfold l4
    with_reducible repeat' first | assumption | apply State.onPwr_held
  try clear_value l4
  have hl5 : Held q0 n0 c0 l5 := by
    unfold l5
    with_reducible repeat' first | assumption | apply State.setFld_held
  try clear_value l5
  with_reducible repeat' first
    | assumption | apply State.onPwr_held | apply State.setClock_held | apply State.clampOn_held | refine Held.ite ?_ ?_
    | split

theorem State.clampAdjust_held {s : State} (hk : Held q0 n0 c0 s) : Held q0 n0 c0 (State.clampAdjust s) := by
  unfold State.clampAdjust
  extract_lets l0 l1 l2 l3
  try clear_value l0
  try clear_value l1
  have hl2 : Held q0 n0 c0 l2 := by
    unfold l2
    with_reducible repeat' first | assumption | apply State.onPwr_held | apply State.setFld_held
  try clear_value l2
  have hl3 : Held q0 n0 c0 l3 := by
    unfold l3
    with_reducible repeat' first | assumption | apply State.setClock_held
  try clear_value l3
  with_reducible repeat' first
    | assumption | apply State.onPwr_held | apply State.setClock_held | apply State.raiseBoth_held | apply State.post_held
    | apply State.setFlag_held | refine Held.ite ?_ ?_ | split

theorem State.stateChange_held {s : State} {target : Nat} (hk : Held q0 n0 c0 s) : Held q0 n0 c0 (State.stateChange s target) := by
  unfold State.stateChange
  with_reducible repeat' first | assumption | apply State.onPwr_held | apply State.setFld_held | refine Held.ite ?_ ?_

theorem State.stateReq_held {s : State} {path : Path} {value : Nat} (hk : Held q0 n0 c0 s) : Held q0 n0 c0 (State.stateReq s path value) := by
  unfold State.stateReq
  extract_lets l0 l1
  try clear_value l0
  have hl1 : Held q0 n0 c0 l1.2 := by
    unfold l1
    with_reducible repeat' first | assumption | apply State.ownWrite_held
  try clear_value l1
  with_reducible repeat' first | assumption | apply State.setFld_held | apply State.stateChange_held | refine Held.ite ?_ ?_

theorem State.leaveDoze_held {s : State} (hk : Held q0 n0 c0 s) : Held q0 n0 c0 (State.leaveDoze s) := by
  unfold State.leaveDoze
  with_reducible repeat' first | assumption | apply State.clearDue_held | refine Held.foldl (fun _ _ _ => ?_) ?_

theorem State.powerState_held {s : State} (hk : Held q0 n0 c0 s) : Held q0 n0 c0 (State.powerState s) := by
  unfold State.powerState
  extract_lets l0
  try clear_value l0
  with_reducible repeat' first
    | assumption | apply State.leaveDoze_held | apply State.setFld_held | apply State.raiseBoth_held | apply State.post_held
    | apply State.onPwr_held | refine Held.ite ?_ ?_ | split

theorem State.pwrWarn_held {s : State} {low : Bool} (hk : Held q0 n0 c0 s) : Held q0 n0 c0 (State.pwrWarn s low) := by
  unfold State.pwrWarn
  extract_lets l0
  have hl0 : Held q0 n0 c0 l0 := by
    unfold l0
    with_reducible repeat' first | assumption | apply State.setFlag_held | apply State.raiseBoth_held | apply State.post_held
  try clear_value l0
  with_reducible repeat' first
    | assumption | apply State.count_held | apply State.sessionAbort_held | apply State.kickJobs_held | refine Held.ite ?_ ?_

theorem State.laneLoss_held {s : State} {eth : Bool} (hk : Held q0 n0 c0 s) : Held q0 n0 c0 (State.laneLoss s eth) := by
  unfold State.laneLoss
  with_reducible repeat' first
    | assumption | apply State.portDown_held | apply State.setFld_held | apply State.linkDown_held | refine Held.ite ?_ ?_
    | refine Held.foldl (fun _ _ _ => ?_) ?_

theorem State.laneBack_held {s : State} {eth : Bool} (hk : Held q0 n0 c0 s) : Held q0 n0 c0 (State.laneBack s eth) := by
  unfold State.laneBack
  with_reducible repeat' first | assumption | apply State.setFld_held | refine Held.ite ?_ ?_

theorem State.sysAssert_held {s : State} (hk : Held q0 n0 c0 s) : Held q0 n0 c0 (State.sysAssert s) := by
  unfold State.sysAssert
  extract_lets l0 l1
  have hl0 : Held q0 n0 c0 l0 := by
    unfold l0
    with_reducible repeat' first | assumption | apply State.onPwr_held | apply State.setFld_held
  try clear_value l0
  have hl1 : Held q0 n0 c0 l1 := by
    unfold l1
    with_reducible repeat' first | assumption | apply State.setFld_held | apply State.systemReset_held
  try clear_value l1
  with_reducible repeat' first | assumption | apply State.railsLower_held | refine Held.ite ?_ ?_

theorem State.sysRelease_held {s : State} {mode addr : Nat} (hk : Held q0 n0 c0 s) : Held q0 n0 c0 (s.sysRelease mode addr) := by
  unfold State.sysRelease
  have h1 : Held q0 n0 c0 ((s.onPwr fun p => { p with sysRst := false, want := true }).setFld F.GLB_STRAPS_MODE mode) :=
    State.setFld_held (State.onPwr_held hk)
  refine Held.ite hk (Held.ite (State.startBegin_held (State.setFlag_held ?_)) (State.setFlag_held ?_)) <;> exact h1.same

theorem State.offWrite_held {s : State} {path : Path} (hk : Held q0 n0 c0 s) : Held q0 n0 c0 (State.offWrite s path) := by
  unfold State.offWrite
  extract_lets l0
  have hl0 : Held q0 n0 c0 l0.2 := by
    unfold l0
    with_reducible repeat' first | assumption | apply State.ownWrite_held
  try clear_value l0
  with_reducible repeat' first | assumption | apply State.onPwr_held | apply State.goOff_held | refine Held.ite ?_ ?_

theorem State.sysrstWrite_held {s : State} {path : Path} (hk : Held q0 n0 c0 s) : Held q0 n0 c0 (State.sysrstWrite s path) := by
  unfold State.sysrstWrite
  extract_lets l0 l1
  have hl0 : Held q0 n0 c0 l0.2 := by
    unfold l0
    with_reducible repeat' first | assumption | apply State.ownWrite_held
  try clear_value l0
  have hl1 : Held q0 n0 c0 l1 := by
    unfold l1
    with_reducible repeat' first | assumption | apply State.systemReset_held | apply State.onPwr_held
  try clear_value l1
  with_reducible repeat' first | assumption | apply State.startBegin_held | refine Held.ite ?_ ?_

theorem State.refLoss_held {s : State} (hk : Held q0 n0 c0 s) : Held q0 n0 c0 (State.refLoss s) := by
  unfold State.refLoss
  extract_lets l0 l1 l2
  try clear_value l0
  have hl1 : Held q0 n0 c0 l1 := by
    unfold l1
    with_reducible repeat' first | assumption | apply State.count_held | apply State.onPwr_held
  try clear_value l1
  have hl2 : Held q0 n0 c0 l2 := by
    unfold l2
    with_reducible repeat' first | assumption | apply State.systemReset_held | apply State.setFld_held
  try clear_value l2
  with_reducible repeat' first | assumption | apply State.railsLower_held | refine Held.ite ?_ ?_

theorem State.refBack_held {s : State} (hk : Held q0 n0 c0 s) : Held q0 n0 c0 (State.refBack s) := by
  unfold State.refBack
  extract_lets l0
  have hl0 : Held q0 n0 c0 l0 := by
    unfold l0
    with_reducible repeat' first | assumption | apply State.onPwr_held | apply State.setFld_held
  try clear_value l0
  with_reducible repeat' first | assumption | apply State.startBegin_held | refine Held.ite ?_ ?_

theorem State.powerOn_held {s : State} (hk : Held q0 n0 c0 s) : Held q0 n0 c0 (State.powerOn s) := by
  unfold State.powerOn
  with_reducible repeat' first | assumption | apply State.powerReset_held

theorem State.powerFailure_held {s : State} (hk : Held q0 n0 c0 s) : Held q0 n0 c0 (State.powerFailure s) := by
  unfold State.powerFailure
  with_reducible repeat' first | assumption | apply State.powerReset_held

theorem State.trip_held {s : State} {low : Bool} {opn : Bool} (hk : Held q0 n0 c0 s) : Held q0 n0 c0 (State.trip s low opn) := by
  unfold State.trip
  extract_lets l0 l1 l2
  have hl0 : Held q0 n0 c0 l0 := by
    unfold l0
    with_reducible repeat' first | assumption | apply State.alertRaise_held | apply State.setFld_held | apply State.setFlag_held
  try clear_value l0
  have hl1 : Held q0 n0 c0 l1 := by
    unfold l1
    with_reducible repeat' first | assumption | apply State.onPwr_held
  try clear_value l1
  have hl2 : Held q0 n0 c0 l2 := by
    unfold l2
    with_reducible repeat' first | assumption | apply State.discard_held
  try clear_value l2
  with_reducible repeat' first | assumption | apply State.setFld_held | refine Held.ite ?_ ?_

theorem State.tripCond_held {s : State} {low : Bool} {opn : Bool} (hk : Held q0 n0 c0 s) : Held q0 n0 c0 (State.tripCond s low opn) := by
  unfold State.tripCond
  with_reducible repeat' first | assumption | apply State.trip_held | refine Held.ite ?_ ?_

theorem State.blankEnd_held {s : State} {low : Bool} {opn : Bool} (hk : Held q0 n0 c0 s) : Held q0 n0 c0 (State.blankEnd s low opn) := by
  unfold State.blankEnd
  with_reducible repeat' first | assumption | apply State.setFld_held | apply State.tripCond_held | refine Held.ite ?_ ?_

theorem State.tripTest_held {s : State} {path : Path} (hk : Held q0 n0 c0 s) : Held q0 n0 c0 (State.tripTest s path) := by
  unfold State.tripTest
  extract_lets l0
  have hl0 : Held q0 n0 c0 l0.2 := by
    unfold l0
    with_reducible repeat' first | assumption | apply State.ownWrite_held
  try clear_value l0
  with_reducible repeat' first | assumption | apply State.trip_held | refine Held.ite ?_ ?_

theorem State.ageHour_held {s : State} {a : Nat} (hk : Held q0 n0 c0 s) : Held q0 n0 c0 (State.ageHour s a) := by
  unfold State.ageHour
  extract_lets l0 l1
  try clear_value l0
  try clear_value l1
  with_reducible repeat' first | assumption | apply State.setAge_held | refine Held.ite ?_ ?_ | split

theorem State.poweredHour_held {s : State} (hk : Held q0 n0 c0 s) : Held q0 n0 c0 (State.poweredHour s) := by
  unfold State.poweredHour
  extract_lets l0 l1
  try clear_value l0
  have hl1 : Held q0 n0 c0 l1 := by
    unfold l1
    with_reducible repeat' first | assumption | apply State.setFld_held | apply State.setVfld_held | apply State.recordWrites_held
  try clear_value l1
  with_reducible repeat' first | assumption | apply State.ageHour_held | refine Held.foldl (fun _ _ _ => ?_) ?_

theorem execDroopStretch_held {s : State} (hk : Held q0 n0 c0 s) : HeldO q0 n0 c0 (execDroopStretch s) := by
  unfold execDroopStretch
  with_reducible repeat' first | assumption | apply State.droopStretch_held | refine HeldO.next ?_

theorem execDroopEnd_held {s : State} (hk : Held q0 n0 c0 s) : HeldO q0 n0 c0 (execDroopEnd s) := by
  unfold execDroopEnd
  with_reducible repeat' first | assumption | apply State.droopEnd_held | refine HeldO.next ?_

theorem execPllUnlock_held {regions : Nat} {s : State} (hk : Held q0 n0 c0 s) : HeldO q0 n0 c0 (execPllUnlock regions s) := by
  unfold execPllUnlock
  with_reducible repeat' first | assumption | apply State.pllUnlock_held | refine HeldO.next ?_

theorem execPllRelock_held {s : State} (hk : Held q0 n0 c0 s) : HeldO q0 n0 c0 (execPllRelock s) := by
  unfold execPllRelock
  with_reducible repeat' first | assumption | apply State.pllRelock_held | refine HeldO.next ?_

theorem execRailRampRead_held {read : Option Nat} {s : State} (hk : Held q0 n0 c0 s) : HeldO q0 n0 c0 (execRailRampRead read s) := by
  unfold execRailRampRead
  with_reducible repeat' first | assumption | apply State.railRamp_held | refine HeldO.next ?_

theorem execPmbusPoll_held {reads : List (Nat × Option Nat)} {s : State} (hk : Held q0 n0 c0 s) : HeldO q0 n0 c0 (execPmbusPoll reads s) := by
  unfold execPmbusPoll
  with_reducible repeat' first | assumption | apply State.pmbusPoll_held | refine HeldO.within ?_

theorem execPmAlert_held {status : List (Nat × Option Nat)} {s : State} (hk : Held q0 n0 c0 s) : HeldO q0 n0 c0 (execPmAlert status s) := by
  unfold execPmAlert
  with_reducible repeat' first | assumption | apply State.pmAlert_held | refine HeldO.within ?_

theorem execVppRaise_held {s : State} (hk : Held q0 n0 c0 s) : HeldO q0 n0 c0 (execVppRaise s) := by
  unfold execVppRaise
  with_reducible repeat' first | assumption | apply State.vppRaise_held | refine HeldO.next ?_

theorem execVppArrInRegulation_held {s : State} (hk : Held q0 n0 c0 s) : HeldO q0 n0 c0 (execVppArrInRegulation s) := by
  unfold execVppArrInRegulation
  with_reducible repeat' first | assumption | apply State.vppReady_held | refine HeldO.next ?_

theorem execVppLower_held {s : State} (hk : Held q0 n0 c0 s) : HeldO q0 n0 c0 (execVppLower s) := by
  unfold execVppLower
  with_reducible repeat' first | assumption | apply State.vppLower_held | refine HeldO.next ?_

theorem execPowerEstimate_held {watts : Nat} {s : State} (hk : Held q0 n0 c0 s) : HeldO q0 n0 c0 (execPowerEstimate watts s) := by
  unfold execPowerEstimate
  with_reducible repeat' first | assumption | apply State.powerEstimate_held | refine HeldO.next ?_

theorem execClampAdjust_held {s : State} (hk : Held q0 n0 c0 s) : HeldO q0 n0 c0 (execClampAdjust s) := by
  unfold execClampAdjust
  with_reducible repeat' first | assumption | apply State.clampAdjust_held | refine HeldO.next ?_

theorem execStateReq_held {path : Path} {value : Nat} {s : State} (hk : Held q0 n0 c0 s) : HeldO q0 n0 c0 (execStateReq path value s) := by
  unfold execStateReq
  with_reducible repeat' first | assumption | apply State.stateReq_held | refine HeldO.within ?_

theorem execPowerState_held {s : State} (hk : Held q0 n0 c0 s) : HeldO q0 n0 c0 (execPowerState s) := by
  unfold execPowerState
  with_reducible repeat' first | assumption | apply State.powerState_held | refine HeldO.next ?_

theorem execPwrWarn_held {low : Bool} {s : State} (hk : Held q0 n0 c0 s) : HeldO q0 n0 c0 (execPwrWarn low s) := by
  unfold execPwrWarn
  with_reducible repeat' first | assumption | apply State.pwrWarn_held | refine HeldO.next ?_

theorem execLaneRefclkLoss_held {eth : Bool} {s : State} (hk : Held q0 n0 c0 s) : HeldO q0 n0 c0 (execLaneRefclkLoss eth s) := by
  unfold execLaneRefclkLoss
  with_reducible repeat' first | assumption | apply State.laneLoss_held | refine HeldO.next ?_

theorem execLaneRefclkRestored_held {eth : Bool} {s : State} (hk : Held q0 n0 c0 s) : HeldO q0 n0 c0 (execLaneRefclkRestored eth s) := by
  unfold execLaneRefclkRestored
  with_reducible repeat' first | assumption | apply State.laneBack_held | refine HeldO.next ?_

theorem execSysRstNAssert_held {s : State} (hk : Held q0 n0 c0 s) : HeldO q0 n0 c0 (execSysRstNAssert s) := by
  unfold execSysRstNAssert
  with_reducible repeat' first | assumption | apply State.sysAssert_held | refine HeldO.next ?_

theorem execSysRstNRelease_held {mode : Nat} {addr : Nat} {s : State} (hk : Held q0 n0 c0 s) : HeldO q0 n0 c0 (execSysRstNRelease mode addr s) := by
  unfold execSysRstNRelease
  with_reducible repeat' first | assumption | apply State.sysRelease_held | refine HeldO.next ?_

theorem execOff_held {path : Path} {s : State} (hk : Held q0 n0 c0 s) : HeldO q0 n0 c0 (execOff path s) := by
  unfold execOff
  with_reducible repeat' first | assumption | apply State.offWrite_held | refine HeldO.within ?_

theorem execSysrst_held {path : Path} {s : State} (hk : Held q0 n0 c0 s) : HeldO q0 n0 c0 (execSysrst path s) := by
  unfold execSysrst
  with_reducible repeat' first | assumption | apply State.sysrstWrite_held | refine HeldO.within ?_

theorem execRefclkLoss_held {s : State} (hk : Held q0 n0 c0 s) : HeldO q0 n0 c0 (execRefclkLoss s) := by
  unfold execRefclkLoss
  with_reducible repeat' first | assumption | apply State.refLoss_held | refine HeldO.next ?_

theorem execRefclkRestored_held {s : State} (hk : Held q0 n0 c0 s) : HeldO q0 n0 c0 (execRefclkRestored s) := by
  unfold execRefclkRestored
  with_reducible repeat' first | assumption | apply State.refBack_held | refine HeldO.next ?_

theorem execPowerOn_held {s : State} (hk : Held q0 n0 c0 s) : HeldO q0 n0 c0 (execPowerOn s) := by
  unfold execPowerOn
  with_reducible repeat' first | assumption | apply State.powerOn_held | refine HeldO.next ?_

theorem execPowerFailure_held {s : State} (hk : Held q0 n0 c0 s) : HeldO q0 n0 c0 (execPowerFailure s) := by
  unfold execPowerFailure
  with_reducible repeat' first | assumption | apply State.powerFailure_held | refine HeldO.next ?_

theorem execThermalTrip_held {low : Bool} {opn : Bool} {s : State} (hk : Held q0 n0 c0 s) : HeldO q0 n0 c0 (execThermalTrip low opn s) := by
  unfold execThermalTrip
  with_reducible repeat' first | assumption | apply State.tripCond_held | refine HeldO.next ?_

theorem execTripBlankEnd_held {low : Bool} {opn : Bool} {s : State} (hk : Held q0 n0 c0 s) : HeldO q0 n0 c0 (execTripBlankEnd low opn s) := by
  unfold execTripBlankEnd
  with_reducible repeat' first | assumption | apply State.blankEnd_held | refine HeldO.next ?_

theorem execTripTest_held {path : Path} {s : State} (hk : Held q0 n0 c0 s) : HeldO q0 n0 c0 (execTripTest path s) := by
  unfold execTripTest
  with_reducible repeat' first | assumption | apply State.tripTest_held | refine HeldO.within ?_

theorem execPoweredHour_held {s : State} (hk : Held q0 n0 c0 s) : HeldO q0 n0 c0 (execPoweredHour s) := by
  unfold execPoweredHour
  with_reducible repeat' first | assumption | apply State.poweredHour_held | refine HeldO.next ?_

end Sys2Proof.Machine
end

