-- ==== Sys2Proof/Laws/HeldBoot.lean ====
section
/-!
SUPPORT. That the operations of Machine/Boot.lean touch neither the queue nor the clock, and keep the tables canonical.
-/

namespace Sys2Proof.Machine

variable {q0 : List Instr} {n0 c0 : Nat}

theorem State.stepDone_held {s : State} {k : Nat} {outcome : Nat} {detail : Nat} (hk : Held q0 n0 c0 s) : Held q0 n0 c0 (State.stepDone s k outcome detail) := by
  unfold State.stepDone
  extract_lets l0 l1 l2 l3 l4
  try clear_value l0
  try clear_value l1
  have hl2 : Held q0 n0 c0 l2 := by
    unfold l2
    with_reducible repeat' first | assumption | apply State.setFld_held
  try clear_value l2
  have hl3 : Held q0 n0 c0 l3 := by
    unfold l3
    with_reducible repeat' first | assumption | apply State.setFld_held | apply State.recordWrites_held
  try clear_value l3
  have hl4 : Held q0 n0 c0 l4 := by
    unfold l4
    with_reducible repeat' first
      | assumption | apply State.setFld_held | apply State.recordWrites_held | apply State.onPwr_held
      | fail_if_no_progress refine Held.same ?_ | refine Held.ite ?_ ?_
  try clear_value l4
  with_reducible repeat' first
    | assumption | apply State.setFld_held | apply State.recordWrites_held | apply State.onPwr_held
    | fail_if_no_progress refine Held.same ?_ | refine Held.ite ?_ ?_

theorem State.bootRails_held {s : State} (hk : Held q0 n0 c0 s) : Held q0 n0 c0 (State.bootRails s) := by
  unfold State.bootRails
  extract_lets l0 l1
  have hl0 : Held q0 n0 c0 l0 := by
    unfold l0
    with_reducible repeat' first | assumption | apply State.idle_held | apply State.setFld_held
  try clear_value l0
  have hl1 : Held q0 n0 c0 l1 := by
    unfold l1
    with_reducible repeat' first
      | assumption | apply State.idle_held | apply State.setFld_held | apply State.setClock_held | apply State.onPwr_held
  try clear_value l1
  with_reducible repeat' first
    | assumption | apply State.idle_held | apply State.setFld_held | apply State.setClock_held | apply State.onPwr_held
    | apply State.clearDue_held | apply State.stepDone_held | fail_if_no_progress refine Held.same ?_ | refine Held.ite ?_ ?_
    | refine Held.foldl (fun _ _ _ => ?_) ?_

theorem State.romTry_held {s : State} {slot : Nat} {ok : Bool} (hk : Held q0 n0 c0 s) : Held q0 n0 c0 (State.romTry s slot ok) := by
  unfold State.romTry
  extract_lets l0 l1 l2
  try clear_value l0
  have hl1 : Held q0 n0 c0 l1 := by
    unfold l1
    with_reducible repeat' first | assumption | apply State.count_held | apply State.setFld_held
  try clear_value l1
  have hl2 : Held q0 n0 c0 l2 := by
    unfold l2
    with_reducible repeat' first
      | assumption | apply State.count_held | apply State.setFld_held | apply State.setVfld_held
      | apply State.recordWrites_held | fail_if_no_progress refine Held.same ?_ | refine Held.ite ?_ ?_
  try clear_value l2
  with_reducible repeat' first
    | assumption | apply State.count_held | apply State.setFld_held | apply State.setVfld_held | apply State.recordWrites_held
    | fail_if_no_progress refine Held.same ?_ | refine Held.ite ?_ ?_

theorem State.bootImage_held {s : State} {bad : Nat} (hk : Held q0 n0 c0 s) : Held q0 n0 c0 (State.bootImage s bad) := by
  unfold State.bootImage
  extract_lets l0 l1 l2 l3 l4 l5
  try clear_value l0
  try clear_value l1
  try clear_value l2
  try clear_value l3
  have hl4 : Held q0 n0 c0 l4 := by
    unfold l4
    with_reducible repeat' first
      | assumption | apply State.take_held | apply State.romTry_held | apply State.setVfld_held | apply State.setRcore_held
      | apply State.setTick_held | apply State.stepDone_held | apply State.setFld_held | apply State.onPwr_held
      | fail_if_no_progress refine Held.same ?_ | refine Held.ite ?_ ?_ | refine Held.foldl (fun _ _ _ => ?_) ?_
  try clear_value l4
  have hl5 : Held q0 n0 c0 l5 := by
    unfold l5
    with_reducible repeat' first
      | assumption | apply State.take_held | apply State.romTry_held | apply State.setVfld_held | apply State.setRcore_held
      | apply State.setTick_held | apply State.stepDone_held | apply State.setFld_held
  try clear_value l5
  with_reducible repeat' first
    | assumption | apply State.take_held | apply State.romTry_held | apply State.setVfld_held | apply State.setRcore_held
    | apply State.setTick_held | apply State.stepDone_held | apply State.setFld_held | apply State.onPwr_held
    | fail_if_no_progress refine Held.same ?_ | refine Held.ite ?_ ?_ | refine Held.foldl (fun _ _ _ => ?_) ?_
    | refine Held.foldl_fst (fun _ _ _ => ?_) ?_ | refine Held.foldl_snd (fun _ _ _ => ?_) ?_ | refine HeldO.within ?_
    | refine HeldO.next ?_ | exact HeldO.fault | refine HeldO.ite ?_ ?_ | refine HeldS.some ?_ | exact HeldS.none
    | refine HeldS.getD ?_ ?_ | refine Held.of_snd (by assumption) ?_ | refine Held.of_fst (by assumption) ?_
    | refine Held.of_some (by assumption) ?_ | refine Held.of_pair (by assumption) ?_ | split

theorem State.bootClaim_held {s : State} (hk : Held q0 n0 c0 s) : Held q0 n0 c0 (State.bootClaim s) := by
  unfold State.bootClaim
  with_reducible repeat' first
    | assumption | apply State.stepDone_held | fail_if_no_progress refine Held.same ?_ | refine Held.ite ?_ ?_

theorem State.journalReplay_held {s : State} (hk : Held q0 n0 c0 s) : Held q0 n0 c0 (State.journalReplay s) := by
  unfold State.journalReplay
  extract_lets l0 l1 l2
  try clear_value l0
  have hl1 : Held q0 n0 c0 l1 := by
    unfold l1
    with_reducible repeat' first | assumption | apply State.onSec_held
  try clear_value l1
  have hl2 : Held q0 n0 c0 l2 := by
    unfold l2
    with_reducible repeat' first | assumption | apply State.onSec_held | apply State.count_held | apply State.setFld_held
  try clear_value l2
  with_reducible repeat' first
    | assumption | apply State.onSec_held | apply State.count_held | apply State.setFld_held | apply State.setFlag_held

/-- A fold of insertions keeps keys rising. -/
theorem SMap.rising_foldl {α β : Type} {f : SMap α → β → SMap α} (hf : ∀ m b, SMap.rising 0 m = true → SMap.rising 0 (f m b) = true) :
    ∀ {l : List β} {m : SMap α}, SMap.rising 0 m = true → SMap.rising 0 (l.foldl f m) = true
  | [], _, h => h
  | b :: l, m, h => SMap.rising_foldl (l := l) hf (hf m b h)

theorem State.vaultFields_held {s : State} (hk : Held q0 n0 c0 s) : Held q0 n0 c0 s.vaultFields := by
  unfold State.vaultFields
  refine Held.foldl (fun _ _ h => Held.ite (State.setFld_held h) h) ?_
  have h1 : Held q0 n0 c0 { s with fields := s.vfields.foldl (fun (m : SMap Nat) (e : Nat × Nat) => if e.1 % 1024 = F.MET_REFIN_UV.code then m else SMap.put m e.1 e.2) s.fields } :=
    { hk with fields := SMap.rising_foldl (fun _ _ h => by split <;> [exact h; exact SMap.rising_put _ _ (Nat.zero_le _) h]) hk.fields }
  exact Held.ite h1 (State.setFld_held h1)

theorem State.rowModes_held {s : State} {h : Nat} {p : Nat} (hk : Held q0 n0 c0 s) : Held q0 n0 c0 (State.rowModes s h p) := by
  unfold State.rowModes
  with_reducible repeat' first
    | assumption | apply State.setFld_held | apply State.setArr_held | fail_if_no_progress refine Held.same ?_
    | refine Held.ite ?_ ?_ | refine Held.foldl (fun _ _ _ => ?_) ?_ | refine Held.foldl_fst (fun _ _ _ => ?_) ?_
    | refine Held.foldl_snd (fun _ _ _ => ?_) ?_ | refine HeldO.within ?_ | refine HeldO.next ?_ | exact HeldO.fault
    | refine HeldO.ite ?_ ?_ | refine HeldS.some ?_ | exact HeldS.none | refine HeldS.getD ?_ ?_
    | refine Held.of_snd (by assumption) ?_ | refine Held.of_fst (by assumption) ?_ | refine Held.of_some (by assumption) ?_
    | refine Held.of_pair (by assumption) ?_ | split

theorem State.loadRows_held {s : State} {h : Nat} (hk : Held q0 n0 c0 s) : Held q0 n0 c0 (State.loadRows s h) := by
  unfold State.loadRows
  extract_lets l0 l1 l2 l3 l4 l5
  try clear_value l0
  have hl1 : Held q0 n0 c0 l1 := by
    unfold l1
    with_reducible repeat' first | assumption | apply State.setBoth_held | apply State.setFlag_held
  try clear_value l1
  try clear_value l2
  have hl3 : Held q0 n0 c0 l3 := by
    unfold l3
    with_reducible repeat' first | assumption | apply State.setBoth_held | apply State.setFlag_held | apply State.onWgt_held
  try clear_value l3
  try clear_value l4
  have hl5 : Held q0 n0 c0 l5 := by
    unfold l5
    with_reducible repeat' first
      | assumption | apply State.setBoth_held | apply State.setFlag_held | apply State.onWgt_held | apply State.rowModes_held
      | fail_if_no_progress refine Held.same ?_ | refine Held.ite ?_ ?_
  try clear_value l5
  with_reducible repeat' first
    | assumption | apply State.setBoth_held | apply State.setFlag_held | apply State.onWgt_held | apply State.rowModes_held
    | fail_if_no_progress refine Held.same ?_ | refine Held.ite ?_ ?_ | refine Held.foldl (fun _ _ _ => ?_) ?_

theorem State.loadSlots_held {s : State} (hk : Held q0 n0 c0 s) : Held q0 n0 c0 (State.loadSlots s) := by
  unfold State.loadSlots
  extract_lets l0
  have hl0 : Held q0 n0 c0 l0 := by
    unfold l0
    with_reducible repeat' first
      | assumption | apply State.setBoth_held | apply State.onSec_held | fail_if_no_progress refine Held.same ?_
      | refine Held.ite ?_ ?_ | refine Held.foldl (fun _ _ _ => ?_) ?_
  try clear_value l0
  with_reducible repeat' first
    | assumption | apply State.setBoth_held | apply State.onSec_held | fail_if_no_progress refine Held.same ?_
    | refine Held.ite ?_ ?_

theorem State.loadAudit_held {s : State} (hk : Held q0 n0 c0 s) : Held q0 n0 c0 (State.loadAudit s) := by
  unfold State.loadAudit
  extract_lets l0 l1 l2 l3
  try clear_value l0
  try clear_value l1
  have hl2 : Held q0 n0 c0 l2 := by
    unfold l2
    with_reducible repeat' first | assumption | apply State.onSec_held | apply State.recordWrites_held
  try clear_value l2
  try clear_value l3
  with_reducible repeat' first | assumption | apply State.onSec_held | apply State.recordWrites_held | apply State.auditWrite_held

theorem State.bootVault_held {s : State} {bad : Nat} (hk : Held q0 n0 c0 s) : Held q0 n0 c0 (State.bootVault s bad) := by
  unfold State.bootVault
  extract_lets l0 l1 l2
  have hl0 : Held q0 n0 c0 l0 := by
    unfold l0
    with_reducible repeat' first
      | assumption | apply State.journalReplay_held | apply State.loadSlots_held | apply State.vaultFields_held
  try clear_value l0
  have hl1 : Held q0 n0 c0 l1 := by
    unfold l1
    with_reducible repeat' first
      | assumption | apply State.journalReplay_held | apply State.loadSlots_held | apply State.vaultFields_held
      | apply State.loadRows_held | apply State.loadAudit_held
  try clear_value l1
  have hl2 : Held q0 n0 c0 l2 := by
    unfold l2
    with_reducible repeat' first
      | assumption | apply State.journalReplay_held | apply State.loadSlots_held | apply State.vaultFields_held
      | apply State.loadRows_held | apply State.loadAudit_held | apply State.mirrorSide_held | apply State.stepDone_held
      | fail_if_no_progress refine Held.same ?_ | refine Held.ite ?_ ?_ | refine Held.foldl (fun _ _ _ => ?_) ?_
  try clear_value l2
  with_reducible repeat' first
    | assumption | apply State.journalReplay_held | apply State.loadSlots_held | apply State.vaultFields_held
    | apply State.loadRows_held | apply State.loadAudit_held | apply State.mirrorSide_held | apply State.stepDone_held

theorem State.bootLoad_held {s : State} {bad : Nat} (hk : Held q0 n0 c0 s) : Held q0 n0 c0 (State.bootLoad s bad) := by
  unfold State.bootLoad
  extract_lets l0 l1 l2 l3 l4 l5 l6 l7 l8
  try clear_value l0
  skip
  try clear_value l2
  have hl3 : Held q0 n0 c0 l3 := by
    unfold l3
    with_reducible repeat' first | assumption | apply State.setBoth_held
  try clear_value l3
  have hl4 : Held q0 n0 c0 l4 := by
    unfold l4
    with_reducible repeat' first
      | assumption | apply State.setBoth_held | apply State.setRcore_held | apply State.setTick_held | apply State.setFld_held
      | apply State.stepDone_held | fail_if_no_progress refine Held.same ?_ | refine Held.ite ?_ ?_
      | refine Held.foldl (fun _ _ _ => ?_) ?_
  try clear_value l4
  have hl5 : ∀ x0 x1 x2, Held q0 n0 c0 x0 → Held q0 n0 c0 (l5 x0 x1 x2) := by
    intro x0 x1 x2 hs
    dsimp only [l5]
    with_reducible repeat' first
      | assumption | apply State.setBoth_held | apply State.setRcore_held | apply State.setTick_held | apply State.setFld_held
      | apply State.stepDone_held | fail_if_no_progress refine Held.same ?_ | refine Held.ite ?_ ?_
      | refine Held.foldl (fun _ _ _ => ?_) ?_
  try clear_value l5
  have hl6 : Held q0 n0 c0 l6 := by
    unfold l6
    with_reducible repeat' first | assumption | apply hl5
  try clear_value l6
  have hl7 : Held q0 n0 c0 l7 := by
    unfold l7
    with_reducible repeat' first | assumption | apply hl5
  try clear_value l7
  have hl8 : Held q0 n0 c0 l8 := by
    unfold l8
    with_reducible repeat' first
      | assumption | apply hl5 | apply State.setBoth_held | apply State.setRcore_held | apply State.setTick_held
      | apply State.setFld_held | apply State.stepDone_held | fail_if_no_progress refine Held.same ?_ | refine Held.ite ?_ ?_
      | refine Held.foldl (fun _ _ _ => ?_) ?_
  try clear_value l8
  with_reducible repeat' first
    | assumption | apply hl5 | apply State.setBoth_held | apply State.setRcore_held | apply State.setTick_held
    | apply State.setFld_held | apply State.stepDone_held

theorem State.excludeStack_held {s : State} {k : Nat} (hk : Held q0 n0 c0 s) : Held q0 n0 c0 (State.excludeStack s k) := by
  unfold State.excludeStack
  extract_lets l0
  have hl0 : Held q0 n0 c0 l0 := by
    unfold l0
    with_reducible repeat' first | assumption | apply State.setFld_held
  try clear_value l0
  with_reducible repeat' first
    | assumption | apply State.setFld_held | fail_if_no_progress refine Held.same ?_ | refine Held.ite ?_ ?_
    | refine Held.foldl (fun _ _ _ => ?_) ?_

theorem State.trainFails_held {s : State} {k : Nat} {first : Bool} {again : Bool} (hk : Held q0 n0 c0 s) : Held q0 n0 c0 (State.trainFails s k first again) := by
  unfold State.trainFails
  with_reducible repeat' first | assumption | apply State.unitError_held

theorem State.trainStack_held {s : State} {bad : Nat} {second : Nat} {k : Nat} (hk : Held q0 n0 c0 s) : Held q0 n0 c0 (State.trainStack s bad second k) := by
  unfold State.trainStack
  with_reducible repeat' first
    | assumption | apply State.excludeStack_held | apply State.trainFails_held | apply State.setFld_held
    | apply State.setFlag_held | fail_if_no_progress refine Held.same ?_ | refine Held.ite ?_ ?_

theorem State.failStacks_held {s : State} {bad : Nat} (hk : Held q0 n0 c0 s) : Held q0 n0 c0 (State.failStacks s bad) := by
  unfold State.failStacks
  with_reducible repeat' first | assumption | apply State.onPwr_held

theorem State.bootTrain_held {s : State} {bad : Nat} {second : Nat} (hk : Held q0 n0 c0 s) : Held q0 n0 c0 (State.bootTrain s bad second) := by
  unfold State.bootTrain
  extract_lets l0 l1
  have hl0 : Held q0 n0 c0 l0 := by
    unfold l0
    with_reducible repeat' first
      | assumption | apply State.trainStack_held | apply State.stepDone_held | apply State.failStacks_held
      | fail_if_no_progress refine Held.same ?_ | refine Held.ite ?_ ?_ | refine Held.foldl (fun _ _ _ => ?_) ?_
  try clear_value l0
  try clear_value l1
  with_reducible repeat' first
    | assumption | apply State.trainStack_held | apply State.stepDone_held | apply State.failStacks_held

theorem State.bootZero_held {s : State} {bad second : Nat} (hk : Held q0 n0 c0 s) : Held q0 n0 c0 (s.bootZero bad second) := by
  unfold State.bootZero
  refine State.failStacks_held (State.stepDone_held (Held.foldl (fun _ _ h => State.setFlag_held h) (Held.foldl (fun _ _ h => ?_) ?_)))
  · exact Held.ite h (Held.ite (State.excludeStack_held (State.trainFails_held h)) (State.setFld_held (State.trainFails_held h)))
  · exact { hk with dram := rfl }

theorem State.bootPorts_held {s : State} (hk : Held q0 n0 c0 s) : Held q0 n0 c0 (State.bootPorts s) := by
  unfold State.bootPorts
  with_reducible repeat' first
    | assumption | apply State.setFlag_held | apply State.stepDone_held | fail_if_no_progress refine Held.same ?_
    | refine Held.ite ?_ ?_ | refine Held.foldl (fun _ _ _ => ?_) ?_

theorem State.bootCal_held {s : State} (hk : Held q0 n0 c0 s) : Held q0 n0 c0 (State.bootCal s) := by
  unfold State.bootCal
  extract_lets l0
  try clear_value l0
  with_reducible repeat' first
    | assumption | apply State.stepDone_held | fail_if_no_progress refine Held.same ?_ | refine Held.ite ?_ ?_

theorem State.startTrims_held {s : State} {a : Nat} {t : Int} (hk : Held q0 n0 c0 s) : Held q0 n0 c0 (State.startTrims s a t) := by
  unfold State.startTrims
  extract_lets l0
  have hl0 : Held q0 n0 c0 l0 := by
    unfold l0
    with_reducible repeat' first | assumption | apply State.setFld_held
  try clear_value l0
  with_reducible repeat' first | assumption | apply State.setFld_held

theorem State.checkFailed_held {s : State} {a : Nat} (hk : Held q0 n0 c0 s) : Held q0 n0 c0 (State.checkFailed s a) := by
  unfold State.checkFailed
  extract_lets l0
  try clear_value l0
  with_reducible repeat' first | assumption | apply State.setRec_held | apply State.arrCommand_held | apply State.retireCore_held

theorem State.checkLevels_held {s : State} {a : Nat} (hk : Held q0 n0 c0 s) : Held q0 n0 c0 (State.checkLevels s a).2 := by
  unfold State.checkLevels
  extract_lets l0 l1
  have hl0 : Held q0 n0 c0 l0 := by
    unfold l0
    with_reducible repeat' first | assumption | apply State.arrCommand_held
  try clear_value l0
  have hl1 : Held q0 n0 c0 l1 := by
    unfold l1
    with_reducible repeat' first
      | assumption | apply State.arrCommand_held | apply State.arrCommandEnd_held | fail_if_no_progress refine Held.same ?_
      | refine Held.ite ?_ ?_ | refine Held.foldl (fun _ _ _ => ?_) ?_ | refine Held.foldl_fst (fun _ _ _ => ?_) ?_
      | refine Held.foldl_snd (fun _ _ _ => ?_) ?_ | refine HeldO.within ?_ | refine HeldO.next ?_ | exact HeldO.fault
      | refine HeldO.ite ?_ ?_ | refine HeldS.some ?_ | exact HeldS.none | refine HeldS.getD ?_ ?_
      | refine Held.of_snd (by assumption) ?_ | refine Held.of_fst (by assumption) ?_ | refine Held.of_some (by assumption) ?_
      | refine Held.of_pair (by assumption) ?_ | split
  try clear_value l1
  with_reducible repeat' assumption

theorem State.checkArray_held {s : State} {t : Int} {c : ArrCheck} (hk : Held q0 n0 c0 s) : Held q0 n0 c0 (State.checkArray s t c).1 := by
  unfold State.checkArray
  extract_lets l0 l1 l2 l3 l4 l5
  try clear_value l0
  try clear_value l1
  try clear_value l2
  have hl3 : Held q0 n0 c0 l3 := by
    unfold l3
    with_reducible repeat' first | assumption | apply State.startTrims_held
  try clear_value l3
  have hl4 : Held q0 n0 c0 l4.1 := by
    unfold l4
    with_reducible repeat' first
      | assumption | apply State.startTrims_held | apply State.checkFailed_held | apply State.arrCommand_held
      | apply State.calPasses_held
  try clear_value l4
  have hl5 : Held q0 n0 c0 l5.2 := by
    unfold l5
    with_reducible repeat' first
      | assumption | apply State.startTrims_held | apply State.checkFailed_held | apply State.arrCommand_held
      | apply State.calPasses_held | apply State.setFld_held | apply State.calPost_held | apply State.checkLevels_held
  try clear_value l5
  with_reducible repeat' first
    | assumption | apply State.startTrims_held | apply State.checkFailed_held | apply State.arrCommand_held
    | apply State.calPasses_held | apply State.setFld_held | apply State.calPost_held | apply State.checkLevels_held
    | apply State.setRepair_held | fail_if_no_progress refine Held.same ?_ | refine Held.ite ?_ ?_
    | refine Held.foldl (fun _ _ _ => ?_) ?_ | refine Held.foldl_fst (fun _ _ _ => ?_) ?_
    | refine Held.foldl_snd (fun _ _ _ => ?_) ?_ | refine HeldO.within ?_ | refine HeldO.next ?_ | exact HeldO.fault
    | refine HeldO.ite ?_ ?_ | refine HeldS.some ?_ | exact HeldS.none | refine HeldS.getD ?_ ?_
    | refine Held.of_snd (by assumption) ?_ | refine Held.of_fst (by assumption) ?_ | refine Held.of_some (by assumption) ?_
    | refine Held.of_pair (by assumption) ?_ | split

theorem State.bootCheck_held {s : State} {given : List ArrCheck} (hk : Held q0 n0 c0 s) : Held q0 n0 c0 (State.bootCheck s given) := by
  unfold State.bootCheck
  extract_lets l0 l1
  try clear_value l0
  have hl1 : Held q0 n0 c0 l1.1 := by
    unfold l1
    with_reducible repeat' first
      | assumption | apply State.checkArray_held | apply State.stepDone_held | fail_if_no_progress refine Held.same ?_
      | refine Held.ite ?_ ?_ | refine Held.foldl (fun _ _ _ => ?_) ?_ | refine Held.foldl_fst (fun _ _ _ => ?_) ?_
  try clear_value l1
  with_reducible repeat' first | assumption | apply State.checkArray_held | apply State.stepDone_held

theorem State.wipeDue_held {s : State} {a : Nat} (hk : Held q0 n0 c0 s) : Held q0 n0 c0 (State.wipeDue s a) := by
  unfold State.wipeDue
  extract_lets l0 l1
  have hl0 : Held q0 n0 c0 l0 := by
    unfold l0
    with_reducible repeat' first
      | assumption | apply State.arrCommand_held | apply State.setRepair_held | apply State.onWgt_held
      | apply State.setJob_held | fail_if_no_progress refine Held.same ?_ | refine Held.ite ?_ ?_
  try clear_value l0
  have hl1 : Held q0 n0 c0 l1 := by
    unfold l1
    with_reducible repeat' first | assumption | apply State.arrCommand_held | apply State.setRepair_held | apply State.onWgt_held
  try clear_value l1
  with_reducible repeat' first
    | assumption | apply State.arrCommand_held | apply State.setRepair_held | apply State.onWgt_held | apply State.setJob_held

theorem State.reconcile_held {s : State} {a : Nat} (hk : Held q0 n0 c0 s) : Held q0 n0 c0 (State.reconcile s a) := by
  unfold State.reconcile
  extract_lets l0 l1 l2 l3 l4 l5 l6 l7 l8 l9
  try clear_value l0
  try clear_value l1
  try clear_value l2
  have hl3 : Held q0 n0 c0 l3 := by
    unfold l3
    with_reducible repeat' first | assumption | apply State.setRec_held
  try clear_value l3
  have hl4 : Held q0 n0 c0 l4 := by
    unfold l4
    with_reducible repeat' first
      | assumption | apply State.setRec_held | apply State.arrCommand_held | apply State.wipeDue_held | apply State.onWgt_held
      | apply State.setAge_held
  try clear_value l4
  have hl5 : Held q0 n0 c0 l5 := by
    unfold l5
    with_reducible repeat' first
      | assumption | apply State.setRec_held | apply State.arrCommand_held | apply State.wipeDue_held | apply State.onWgt_held
      | apply State.setAge_held | apply State.loadEps_held
  try clear_value l5
  try clear_value l6
  have hl7 : Held q0 n0 c0 l7 := by
    unfold l7
    with_reducible repeat' first
      | assumption | apply State.setRec_held | apply State.arrCommand_held | apply State.wipeDue_held | apply State.onWgt_held
      | apply State.setAge_held | apply State.loadEps_held | apply State.refreshCommit_held
      | fail_if_no_progress refine Held.same ?_ | refine Held.ite ?_ ?_
  try clear_value l7
  try clear_value l8
  try clear_value l9
  with_reducible repeat' first
    | assumption | apply State.setRec_held | apply State.arrCommand_held | apply State.wipeDue_held | apply State.onWgt_held
    | apply State.setAge_held | apply State.loadEps_held | apply State.refreshCommit_held
    | fail_if_no_progress refine Held.same ?_ | refine Held.ite ?_ ?_ | refine Held.foldl (fun _ _ _ => ?_) ?_
    | refine Held.foldl_fst (fun _ _ _ => ?_) ?_ | refine Held.foldl_snd (fun _ _ _ => ?_) ?_ | refine HeldO.within ?_
    | refine HeldO.next ?_ | exact HeldO.fault | refine HeldO.ite ?_ ?_ | refine HeldS.some ?_ | exact HeldS.none
    | refine HeldS.getD ?_ ?_ | refine Held.of_snd (by assumption) ?_ | refine Held.of_fst (by assumption) ?_
    | refine Held.of_some (by assumption) ?_ | refine Held.of_pair (by assumption) ?_ | split

theorem State.bootRecords_held {s : State} (hk : Held q0 n0 c0 s) : Held q0 n0 c0 (State.bootRecords s) := by
  unfold State.bootRecords
  extract_lets l0 l1
  try clear_value l0
  have hl1 : Held q0 n0 c0 l1 := by
    unfold l1
    with_reducible repeat' first
      | assumption | apply State.reconcile_held | apply State.kickJobs_held | apply State.tellManager_held
      | apply State.stepDone_held | fail_if_no_progress refine Held.same ?_ | refine Held.ite ?_ ?_
      | refine Held.foldl (fun _ _ _ => ?_) ?_
  try clear_value l1
  with_reducible repeat' first
    | assumption | apply State.reconcile_held | apply State.kickJobs_held | apply State.tellManager_held
    | apply State.stepDone_held | fail_if_no_progress refine Held.same ?_ | refine Held.ite ?_ ?_

theorem State.postAltered_held {s : State} {k : Nat} (hk : Held q0 n0 c0 s) : Held q0 n0 c0 (State.postAltered s k) := by
  unfold State.postAltered
  extract_lets l0
  try clear_value l0
  with_reducible repeat' first
    | assumption | apply State.post_held | fail_if_no_progress refine Held.same ?_ | refine Held.ite ?_ ?_

theorem State.bootWindows_held {s : State} (hk : Held q0 n0 c0 s) : Held q0 n0 c0 (State.bootWindows s) := by
  unfold State.bootWindows
  extract_lets l0 l1 l2
  have hl0 : Held q0 n0 c0 l0 := by
    unfold l0
    with_reducible repeat' first
      | assumption | apply State.setWin_held | apply State.histSettle_held | apply State.stepDone_held | apply State.onPwr_held
      | apply State.postAltered_held | apply State.setFld_held | fail_if_no_progress refine Held.same ?_
      | refine Held.ite ?_ ?_ | refine Held.foldl (fun _ _ _ => ?_) ?_
  try clear_value l0
  have hl1 : Held q0 n0 c0 l1 := by
    unfold l1
    with_reducible repeat' first | assumption | apply State.setWin_held | apply State.histSettle_held | apply State.stepDone_held
  try clear_value l1
  have hl2 : Held q0 n0 c0 l2 := by
    unfold l2
    with_reducible repeat' first
      | assumption | apply State.setWin_held | apply State.histSettle_held | apply State.stepDone_held | apply State.onPwr_held
  try clear_value l2
  with_reducible repeat' first
    | assumption | apply State.setWin_held | apply State.histSettle_held | apply State.stepDone_held | apply State.onPwr_held
    | apply State.postAltered_held | apply State.setFld_held | fail_if_no_progress refine Held.same ?_ | refine Held.ite ?_ ?_
    | refine Held.foldl (fun _ _ _ => ?_) ?_

theorem State.bootStep_held {s : State} {bad : Nat} {second : Nat} {checks : List ArrCheck} (hk : Held q0 n0 c0 s) : Held q0 n0 c0 (State.bootStep s bad second checks) := by
  unfold State.bootStep
  with_reducible repeat' first
    | assumption | apply State.bootRails_held | apply State.bootImage_held | apply State.bootClaim_held
    | apply State.bootVault_held | apply State.bootLoad_held | apply State.bootTrain_held | apply State.bootZero_held
    | apply State.bootPorts_held | apply State.bootCal_held | apply State.bootCheck_held | apply State.bootRecords_held
    | apply State.bootWindows_held | fail_if_no_progress refine Held.same ?_ | refine Held.ite ?_ ?_
    | refine Held.foldl (fun _ _ _ => ?_) ?_ | refine Held.foldl_fst (fun _ _ _ => ?_) ?_
    | refine Held.foldl_snd (fun _ _ _ => ?_) ?_ | refine HeldO.within ?_ | refine HeldO.next ?_ | exact HeldO.fault
    | refine HeldO.ite ?_ ?_ | refine HeldS.some ?_ | exact HeldS.none | refine HeldS.getD ?_ ?_
    | refine Held.of_snd (by assumption) ?_ | refine Held.of_fst (by assumption) ?_ | refine Held.of_some (by assumption) ?_
    | refine Held.of_pair (by assumption) ?_ | split

theorem State.clearAltWrite_held {s : State} {path : Path} (hk : Held q0 n0 c0 s) : Held q0 n0 c0 (State.clearAltWrite s path) := by
  unfold State.clearAltWrite
  extract_lets l0
  have hl0 : Held q0 n0 c0 l0.2 := by
    unfold l0
    with_reducible repeat' first | assumption | apply State.ownWrite_held
  try clear_value l0
  with_reducible repeat' first
    | assumption | apply State.ownWrite_held | apply State.onPwr_held | apply State.recordWrites_held
    | fail_if_no_progress refine Held.same ?_ | refine Held.ite ?_ ?_

theorem execBootStepEnd_held {bad : Nat} {second : Nat} {checks : List ArrCheck} {s : State} (hk : Held q0 n0 c0 s) : HeldO q0 n0 c0 (execBootStepEnd bad second checks s) := by
  unfold execBootStepEnd
  with_reducible repeat' first
    | assumption | apply State.bootStep_held | fail_if_no_progress refine Held.same ?_ | refine Held.ite ?_ ?_
    | refine Held.foldl (fun _ _ _ => ?_) ?_ | refine Held.foldl_fst (fun _ _ _ => ?_) ?_
    | refine Held.foldl_snd (fun _ _ _ => ?_) ?_ | refine HeldO.within ?_

theorem execClearAlt_held {path : Path} {s : State} (hk : Held q0 n0 c0 s) : HeldO q0 n0 c0 (execClearAlt path s) := by
  unfold execClearAlt
  with_reducible repeat' first
    | assumption | apply State.clearAltWrite_held | fail_if_no_progress refine Held.same ?_ | refine Held.ite ?_ ?_
    | refine Held.foldl (fun _ _ _ => ?_) ?_ | refine Held.foldl_fst (fun _ _ _ => ?_) ?_
    | refine Held.foldl_snd (fun _ _ _ => ?_) ?_ | refine HeldO.within ?_

end Sys2Proof.Machine
end

