-- ==== Sys2Proof/Laws/HeldLoading.lean ====
section
/-!
SUPPORT. That the operations of Machine/Loading.lean touch neither the queue nor the clock, and keep the tables canonical.
-/

namespace Sys2Proof.Machine

variable {q0 : List Instr} {n0 c0 : Nat}

theorem State.onFrame_held {s : State} {f : FrameSt → FrameSt} (hk : Held q0 n0 c0 s) : Held q0 n0 c0 (State.onFrame s f) := by
  unfold State.onFrame
  with_reducible repeat' first | assumption | fail_if_no_progress refine Held.same ?_

theorem State.rebusy_held {s : State} (hk : Held q0 n0 c0 s) : Held q0 n0 c0 (State.rebusy s) := by
  unfold State.rebusy
  extract_lets l0
  try clear_value l0
  with_reducible repeat' first | assumption | apply State.setWin_held | refine Held.foldl (fun _ _ _ => ?_) ?_

theorem State.besideLoad_held {s : State} {c : Mgmt} {act : State → State} (hk : Held q0 n0 c0 s) (hact : ∀ s, Held q0 n0 c0 s → Held q0 n0 c0 (act s)) : Held q0 n0 c0 (State.besideLoad s c act) := by
  unfold State.besideLoad
  extract_lets l0 l1
  try clear_value l0
  have hl1 : Held q0 n0 c0 l1 := by
    unfold l1
    with_reducible repeat' first | assumption | apply State.setWin_held | refine Held.ite ?_ ?_ | split
  try clear_value l1
  with_reducible repeat' first | assumption | refine hact _ ?_ | apply State.rebusy_held

theorem State.loadAnswer_held {s : State} {l : LoadReq} {code : Nat} {cls : Nat} {f : LoadFail} (hk : Held q0 n0 c0 s) : Held q0 n0 c0 (State.loadAnswer s l code cls f) := by
  unfold State.loadAnswer
  extract_lets l0
  try clear_value l0
  with_reducible repeat' first | assumption | apply State.answer_held | fail_if_no_progress refine Held.same ?_

theorem State.loadEnd_held {s : State} {code : Nat} (hk : Held q0 n0 c0 s) : Held q0 n0 c0 (State.loadEnd s code) := by
  unfold State.loadEnd
  extract_lets l0
  try clear_value l0
  with_reducible repeat' first | assumption | apply State.answer_held | fail_if_no_progress refine Held.same ?_ | split

theorem State.load_held {s : State} {c : Mgmt} {switch : Option Nat} {bytes : Bytes} (hk : Held q0 n0 c0 s) : Held q0 n0 c0 (State.load s c switch bytes) := by
  unfold State.load
  extract_lets l0
  try clear_value l0
  with_reducible repeat' first | assumption | apply State.answer_held | apply State.onFrame_held | refine Held.ite ?_ ?_

theorem State.loadNow_held {s : State} {it : Itin} (hk : Held q0 n0 c0 s) : Held q0 n0 c0 (State.loadNow s it) := by
  unfold State.loadNow
  extract_lets l0 l1
  try clear_value l0
  have hl1 : Held q0 n0 c0 l1 := by
    unfold l1
    with_reducible repeat' first | assumption | apply State.unloadItin_held | refine Held.ite ?_ ?_
  try clear_value l1
  with_reducible repeat' first | assumption | apply State.onFrame_held

theorem State.switchLate_held {s : State} {l : LoadReq} (hk : Held q0 n0 c0 s) : Held q0 n0 c0 (State.switchLate s l) := by
  unfold State.switchLate
  with_reducible repeat' first | assumption | apply State.onFrame_held | apply State.loadAnswer_held

theorem State.loadCheckEnd_held {s : State} {timing : Nat} {cls : Nat} {sec : Nat} {rec : Nat} {detail : Nat} (hk : Held q0 n0 c0 s) : Held q0 n0 c0 (State.loadCheckEnd s timing cls sec rec detail) := by
  unfold State.loadCheckEnd
  with_reducible repeat' first
    | assumption | apply State.loadAnswer_held | apply State.loadEnd_held | apply State.loadNow_held
    | apply State.switchLate_held | apply State.onFrame_held | refine Held.ite ?_ ?_ | split | fail_if_no_progress extract_lets

theorem State.unload_held {s : State} {c : Mgmt} (hk : Held q0 n0 c0 s) : Held q0 n0 c0 (State.unload s c) := by
  unfold State.unload
  with_reducible repeat' first | assumption | apply State.unloadItin_held | apply State.answer_held | refine Held.ite ?_ ?_

theorem State.cancelLoad_held {s : State} {c : Mgmt} (hk : Held q0 n0 c0 s) : Held q0 n0 c0 (State.cancelLoad s c) := by
  unfold State.cancelLoad
  with_reducible repeat' first
    | assumption | apply State.loadEnd_held | apply State.answer_held | apply State.onFrame_held | refine Held.ite ?_ ?_
    | split

theorem State.cancelDue_held {s : State} (hk : Held q0 n0 c0 s) : Held q0 n0 c0 (State.cancelDue s) := by
  unfold State.cancelDue
  with_reducible repeat' first | assumption | apply State.onFrame_held | apply State.answer_held | refine Held.ite ?_ ?_ | split

theorem State.clearFrameCounters_held {s : State} {c : Mgmt} (hk : Held q0 n0 c0 s) : Held q0 n0 c0 (State.clearFrameCounters s c) := by
  unfold State.clearFrameCounters
  with_reducible repeat' first | assumption | apply State.onFrame_held | apply State.answer_held

theorem State.readFrameState_held {s : State} {c : Mgmt} (hk : Held q0 n0 c0 s) : Held q0 n0 c0 (State.readFrameState s c) := by
  unfold State.readFrameState
  extract_lets l0
  try clear_value l0
  with_reducible repeat' first | assumption | apply State.answer_held

theorem State.pitchesOff_held {s : State} {was : List Bool} (hk : Held q0 n0 c0 s) : Held q0 n0 c0 (State.pitchesOff s was) := by
  unfold State.pitchesOff
  with_reducible repeat' first
    | assumption | apply State.releaseAll_held | refine Held.ite ?_ ?_ | refine Held.foldl (fun _ _ _ => ?_) ?_

theorem execLoad_held {c : Mgmt} {switch : Option Nat} {container : Bytes} {s : State} (hk : Held q0 n0 c0 s) : HeldO q0 n0 c0 (execLoad c switch container s) := by
  unfold execLoad
  with_reducible repeat' first
    | assumption | apply State.mgmt_held | apply State.load_held | apply State.rebusy_held | refine HeldO.within ?_ | intro _

theorem execLoadCheckEnd_held {timing : Nat} {cls : Nat} {sec : Nat} {rec : Nat} {detail : Nat} {s : State} (hk : Held q0 n0 c0 s) : HeldO q0 n0 c0 (execLoadCheckEnd timing cls sec rec detail s) := by
  unfold execLoadCheckEnd
  with_reducible repeat' first | assumption | apply State.loadCheckEnd_held | apply State.rebusy_held | refine HeldO.next ?_

theorem execUnload_held {c : Mgmt} {s : State} (hk : Held q0 n0 c0 s) : HeldO q0 n0 c0 (execUnload c s) := by
  unfold execUnload
  with_reducible repeat' first | assumption | apply State.mgmt_held | apply State.unload_held | refine HeldO.within ?_ | intro _

theorem execCancelLoad_held {c : Mgmt} {s : State} (hk : Held q0 n0 c0 s) : HeldO q0 n0 c0 (execCancelLoad c s) := by
  unfold execCancelLoad
  with_reducible repeat' first
    | assumption | apply State.besideLoad_held | apply State.mgmt_held | apply State.cancelLoad_held | refine HeldO.within ?_
    | intro _

theorem execClearFrameCounters_held {c : Mgmt} {s : State} (hk : Held q0 n0 c0 s) : HeldO q0 n0 c0 (execClearFrameCounters c s) := by
  unfold execClearFrameCounters
  with_reducible repeat' first
    | assumption | apply State.mgmt_held | apply State.clearFrameCounters_held | refine HeldO.within ?_ | intro _

theorem execReadFrameState_held {c : Mgmt} {s : State} (hk : Held q0 n0 c0 s) : HeldO q0 n0 c0 (execReadFrameState c s) := by
  unfold execReadFrameState
  with_reducible repeat' first
    | assumption | apply State.mgmt_held | apply State.readFrameState_held | refine HeldO.within ?_ | intro _

theorem execApply_held {path : Path} {s : State} (hk : Held q0 n0 c0 s) : HeldO q0 n0 c0 (execApply path s) := by
  unfold execApply
  with_reducible repeat' first | assumption | apply State.pitchApply_held | apply State.pitchesOff_held | refine HeldO.within ?_

end Sys2Proof.Machine
end

