-- ==== Sys2Proof/Laws/HeldBoundary.lean ====
section
/-!
SUPPORT. That the operations of Machine/Boundary.lean touch neither the queue nor the clock, and keep the tables canonical.
-/

namespace Sys2Proof.Machine

variable {q0 : List Instr} {n0 c0 : Nat}

theorem State.exitReady_held {s : State} {p : Nat} (hk : Held q0 n0 c0 s) : Held q0 n0 c0 (State.exitReady s p) := by
  unfold State.exitReady
  extract_lets l0 l1 l2 l3 l4 l5
  try clear_value l0
  try clear_value l1
  try clear_value l2
  have hl3 : Held q0 n0 c0 l3 := by
    unfold l3
    with_reducible repeat' first | assumption | apply State.count_held | apply State.withholdNotice_held
  try clear_value l3
  try clear_value l4
  try clear_value l5
  with_reducible repeat' first | assumption | apply State.sendMsg_held | refine Held.foldl (fun _ _ _ => ?_) ?_

theorem State.readyPointActs_held {s : State} (hk : Held q0 n0 c0 s) : Held q0 n0 c0 (State.readyPointActs s) := by
  unfold State.readyPointActs
  extract_lets l0
  have hl0 : Held q0 n0 c0 l0 := by
    unfold l0
    with_reducible repeat' first | assumption | apply State.onFrame_held | apply State.raiseBoth_held
  try clear_value l0
  with_reducible repeat' first
    | assumption | apply State.exitReady_held | refine Held.ite ?_ ?_ | refine Held.foldl (fun _ _ _ => ?_) ?_

theorem State.stopLegs_held {s : State} (hk : Held q0 n0 c0 s) : Held q0 n0 c0 (State.stopLegs s) := by
  unfold State.stopLegs
  with_reducible repeat' first | assumption | apply State.stopLeg_held | refine Held.foldl (fun _ _ _ => ?_) ?_ | split

theorem State.serveAll_held {s : State} {e : Edge} {withheld : List Nat} (hk : Held q0 n0 c0 s) : Held q0 n0 c0 (State.serveAll s e withheld) := by
  unfold State.serveAll
  extract_lets l0 l1 l2 l3 l4 l5
  try clear_value l0
  have hl1 : Held q0 n0 c0 l1 := by
    unfold l1
    with_reducible repeat' first
      | assumption | apply State.endAll_held | refine Held.ite ?_ ?_ | refine Held.foldl (fun _ _ _ => ?_) ?_
  try clear_value l1
  have hl2 : Held q0 n0 c0 l2 := by
    unfold l2
    with_reducible repeat' first | assumption | apply State.serveBoundary_held | refine Held.foldl (fun _ _ _ => ?_) ?_
  try clear_value l2
  have hl3 : Held q0 n0 c0 l3 := by
    unfold l3
    with_reducible repeat' first
      | assumption | apply State.releaseAll_held | refine Held.ite ?_ ?_ | refine Held.foldl (fun _ _ _ => ?_) ?_
  try clear_value l3
  have hl4 : Held q0 n0 c0 l4 := by
    unfold l4
    with_reducible repeat' first | assumption | apply State.onSrv_held | refine Held.foldl (fun _ _ _ => ?_) ?_
  try clear_value l4
  have hl5 : Held q0 n0 c0 l5 := by
    unfold l5
    with_reducible repeat' first | assumption | apply State.completionMsi_held | refine Held.foldl (fun _ _ _ => ?_) ?_
  try clear_value l5
  with_reducible repeat' first | assumption | apply State.queuesSettle_held

theorem State.pageLost_held {s : State} {p : Nat} {page : Nat} (hk : Held q0 n0 c0 s) : Held q0 n0 c0 (State.pageLost s p page) := by
  unfold State.pageLost
  extract_lets l0 l1 l2 l3 l4 l5 l6 l7
  try clear_value l0
  try clear_value l1
  try clear_value l2
  try clear_value l3
  try clear_value l4
  have hl5 : Held q0 n0 c0 l5 := by
    unfold l5
    with_reducible repeat' first | assumption | apply State.onSrv_held
  try clear_value l5
  try clear_value l6
  have hl7 : Held q0 n0 c0 l7 := by
    unfold l7
    with_reducible repeat' first | assumption | fail_if_no_progress refine Held.same ?_
  try clear_value l7
  with_reducible repeat' first | assumption | apply State.post_held

theorem State.pagesLost_held {s : State} (hk : Held q0 n0 c0 s) : Held q0 n0 c0 (State.pagesLost s) := by
  unfold State.pagesLost
  with_reducible repeat' first
    | assumption | apply State.pageLost_held | refine Held.ite ?_ ?_ | refine Held.foldl (fun _ _ _ => ?_) ?_

theorem State.postWithdrawn_held {s : State} {part : Nat} {was : Bool} {now : Bool} (hk : Held q0 n0 c0 s) : Held q0 n0 c0 (State.postWithdrawn s part was now) := by
  unfold State.postWithdrawn
  with_reducible repeat' first | assumption | apply State.post_held | refine Held.ite ?_ ?_

theorem State.withdrawals_held {s : State} (hk : Held q0 n0 c0 s) : Held q0 n0 c0 (State.withdrawals s) := by
  unfold State.withdrawals
  extract_lets l0 l1 l2 l3 l4 l5 l6
  try clear_value l0
  try clear_value l1
  try clear_value l2
  try clear_value l3
  have hl4 : Held q0 n0 c0 l4 := by
    unfold l4
    with_reducible repeat' first | assumption | apply State.onMgr_held
  try clear_value l4
  have hl5 : Held q0 n0 c0 l5 := by
    unfold l5
    with_reducible repeat' first | assumption | apply State.onMgr_held
  try clear_value l5
  try clear_value l6
  with_reducible repeat' first | assumption | apply State.postWithdrawn_held | refine Held.foldl (fun _ _ _ => ?_) ?_

theorem State.rowsTurn_held {s : State} (hk : Held q0 n0 c0 s) : Held q0 n0 c0 (State.rowsTurn s) := by
  unfold State.rowsTurn
  extract_lets l0 l1
  try clear_value l0
  have hl1 : Held q0 n0 c0 l1 := by
    unfold l1
    with_reducible repeat' first | assumption | apply State.rowsBoundary_held
  try clear_value l1
  with_reducible repeat' first
    | assumption | apply State.setRun_held | apply State.setFld_held | apply State.showPitch_held | apply State.clearDue_held
    | refine Held.ite ?_ ?_ | refine Held.foldl (fun _ _ _ => ?_) ?_ | split

theorem State.resetFlds_held {s : State} {fs : List Fld} (hk : Held q0 n0 c0 s) : Held q0 n0 c0 (s.resetFlds fs) :=
  { hk with fields := SMap.rising_filter _ hk.fields }

theorem State.showMon_held {s : State} {i : Nat} {m : RangeMon} (hk : Held q0 n0 c0 s) : Held q0 n0 c0 (State.showMon s i m) := by
  unfold State.showMon
  extract_lets l0 l1 l2
  try clear_value l0
  have hl1 : Held q0 n0 c0 l1 := by
    unfold l1
    with_reducible repeat' first | assumption | apply State.setFld_held
  try clear_value l1
  have hl2 : Held q0 n0 c0 l2 := by
    unfold l2
    with_reducible repeat' first | assumption | apply State.setFld_held
  try clear_value l2
  with_reducible repeat' first | assumption | apply State.setFld_held

theorem State.monTurn_held {s : State} {site : Nat} {m : Nat} {q : RangeMon} (hk : Held q0 n0 c0 s) : Held q0 n0 c0 (State.monTurn s site m q) := by
  unfold State.monTurn
  extract_lets l0
  have hl0 : Held q0 n0 c0 l0 := by
    unfold l0
    with_reducible repeat' first | assumption | apply State.showMon_held
  try clear_value l0
  with_reducible repeat' first | assumption | apply State.count_held | apply State.raiseRow_held | refine Held.ite ?_ ?_ | split

theorem State.monitorsTurn_held {s : State} {n : Nat} (hk : Held q0 n0 c0 s) : Held q0 n0 c0 (State.monitorsTurn s n) := by
  unfold State.monitorsTurn
  extract_lets l0 l1
  have hl0 : Held q0 n0 c0 l0 := by
    unfold l0
    with_reducible repeat' first | assumption | apply State.resetFlds_held
  try clear_value l0
  have hl1 : Held q0 n0 c0 l1 := by
    unfold l1
    with_reducible repeat' first
      | assumption | apply State.monTurn_held | apply State.setCore_held | refine Held.foldl (fun _ _ _ => ?_) ?_
  try clear_value l1
  with_reducible repeat' first | assumption | apply State.onFrame_held

theorem State.networksTurn_held {s : State} (hk : Held q0 n0 c0 s) : Held q0 n0 c0 (State.networksTurn s) := by
  unfold State.networksTurn
  extract_lets l0 l1 l2
  have hl0 : Held q0 n0 c0 l0 := by
    unfold l0
    with_reducible repeat' first | assumption | apply State.count_held
  try clear_value l0
  try clear_value l1
  try clear_value l2
  with_reducible repeat' first | assumption | fail_if_no_progress refine Held.same ?_

theorem State.stagedTurn_held {s : State} {fresh : Bool} (hk : Held q0 n0 c0 s) : Held q0 n0 c0 (State.stagedTurn s fresh) := by
  unfold State.stagedTurn
  extract_lets l0
  try clear_value l0
  with_reducible repeat' first | assumption | fail_if_no_progress refine Held.same ?_

theorem State.switchNow_held {s : State} {r : Replacement} (hk : Held q0 n0 c0 s) : Held q0 n0 c0 (State.switchNow s r) := by
  unfold State.switchNow
  extract_lets l0 l1 l2
  try clear_value l0
  have hl1 : Held q0 n0 c0 l1 := by
    unfold l1
    with_reducible repeat' first | assumption | apply State.onFrame_held
  try clear_value l1
  have hl2 : Held q0 n0 c0 l2 := by
    unfold l2
    with_reducible repeat' first | assumption | apply State.pitchCurrent_held | apply State.pitchesOff_held | split
  try clear_value l2
  with_reducible repeat' first
    | assumption | apply State.setTick_held | refine Held.ite ?_ ?_ | refine Held.foldl (fun _ _ _ => ?_) ?_

theorem State.loadsTurn_held {s : State} {e : Edge} (hk : Held q0 n0 c0 s) : Held q0 n0 c0 (State.loadsTurn s e) := by
  unfold State.loadsTurn
  extract_lets l0 l1 l2
  have hl0 : Held q0 n0 c0 l0 := by
    unfold l0
    with_reducible repeat' first | assumption | apply State.onFrame_held | apply State.answer_held | split
  try clear_value l0
  have hl1 : Held q0 n0 c0 l1 := by
    unfold l1
    with_reducible repeat' first | assumption | apply State.loadEnd_held | refine Held.ite ?_ ?_
  try clear_value l1
  have hl2 : Held q0 n0 c0 l2 := by
    unfold l2
    with_reducible repeat' first | assumption | apply State.onFrame_held | refine Held.ite ?_ ?_
  try clear_value l2
  with_reducible repeat' first | assumption | apply State.switchLate_held | refine Held.ite ?_ ?_ | split

theorem State.stopsAnswer_held {s : State} (hk : Held q0 n0 c0 s) : Held q0 n0 c0 (State.stopsAnswer s) := by
  unfold State.stopsAnswer
  extract_lets l0
  try clear_value l0
  with_reducible repeat' first
    | assumption | apply State.answer_held | apply State.onFrame_held | refine Held.foldl (fun _ _ _ => ?_) ?_

theorem State.armCore_held {s : State} {sh : Share} (hk : Held q0 n0 c0 s) : Held q0 n0 c0 (State.armCore s sh) := by
  unfold State.armCore
  with_reducible repeat' first | assumption | apply State.setCore_held | apply State.setFld_held | refine Held.ite ?_ ?_ | split

theorem State.legsTurn_held {s : State} {old : List Share} (hk : Held q0 n0 c0 s) : Held q0 n0 c0 (State.legsTurn s old) := by
  unfold State.legsTurn
  extract_lets l0 l1 l2
  have hl0 : Held q0 n0 c0 l0 := by
    unfold l0
    with_reducible repeat' first | assumption | apply State.resetFlds_held
  try clear_value l0
  have hl1 : Held q0 n0 c0 l1 := by
    unfold l1
    with_reducible repeat' first | assumption | apply State.setCore_held | refine Held.foldl (fun _ _ _ => ?_) ?_
  try clear_value l1
  have hl2 : Held q0 n0 c0 l2 := by
    unfold l2
    with_reducible repeat' first
      | assumption | apply State.setFld_held | refine Held.ite ?_ ?_ | refine Held.foldl (fun _ _ _ => ?_) ?_ | split
  try clear_value l2
  with_reducible repeat' first
    | assumption | apply State.armCore_held | refine Held.ite ?_ ?_ | refine Held.foldl (fun _ _ _ => ?_) ?_

theorem State.tallyTurn_held {s : State} {withheld : List Nat} {binds : List (Nat × Nat × Nat)} (hk : Held q0 n0 c0 s) : Held q0 n0 c0 (State.tallyTurn s withheld binds) := by
  unfold State.tallyTurn
  extract_lets l0 l1 l2 l3 l4 l5 l6
  try clear_value l0
  have hl1 : Held q0 n0 c0 l1 := by
    unfold l1
    with_reducible repeat' first | assumption | apply State.setFld_held | refine Held.foldl (fun _ _ _ => ?_) ?_
  try clear_value l1
  try clear_value l2
  try clear_value l3
  try clear_value l4
  try clear_value l5
  have hl6 : Held q0 n0 c0 l6 := by
    unfold l6
    with_reducible repeat' first | assumption | apply State.onMgr_held
  try clear_value l6
  with_reducible repeat' first | assumption | apply State.setFld_held

theorem State.managerSends_held {s : State} (hk : Held q0 n0 c0 s) : Held q0 n0 c0 (State.managerSends s) := by
  unfold State.managerSends
  extract_lets l0 l1 l2
  try clear_value l0
  try clear_value l1
  have hl2 : Held q0 n0 c0 l2 := by
    unfold l2
    with_reducible repeat' first | assumption | apply State.sendCtl_held | refine Held.ite ?_ ?_
  try clear_value l2
  with_reducible repeat' first
    | assumption | apply State.sendCtl_held | refine Held.ite ?_ ?_ | refine Held.foldl (fun _ _ _ => ?_) ?_

theorem State.standbyWatch_held {s : State} {kind : Nat} (hk : Held q0 n0 c0 s) : Held q0 n0 c0 (State.standbyWatch s kind) := by
  unfold State.standbyWatch
  with_reducible repeat' first | assumption | apply State.onMgr_held | apply State.takeOver_held | refine Held.ite ?_ ?_

theorem State.frameTurns_held {s : State} {e : Edge} (hk : Held q0 n0 c0 s) : Held q0 n0 c0 (State.frameTurns s e) := by
  unfold State.frameTurns
  with_reducible repeat' first | assumption | apply State.onFrame_held

theorem State.writeReport_held {s : State} {e : Edge} {withheld : Nat} (hk : Held q0 n0 c0 s) : Held q0 n0 c0 (State.writeReport s e withheld) := by
  unfold State.writeReport
  extract_lets l0 l1 l2
  try clear_value l0
  try clear_value l1
  try clear_value l2
  with_reducible repeat' first | assumption | apply State.onFrame_held

theorem State.turn_held {s : State} {e : Edge} (hk : Held q0 n0 c0 s) : Held q0 n0 c0 (State.turn s e) := by
  unfold State.turn
  extract_lets l0 l1 l2 l3 l4 l5 l6 l7 l8 l9 l10 l11 l12 l13 l14 l15 l16 l17 l18 l19
  try clear_value l0
  try clear_value l1
  try clear_value l2
  try clear_value l3
  have hl4 : Held q0 n0 c0 l4 := by
    unfold l4
    with_reducible repeat' first | assumption | apply State.frameTurns_held
  try clear_value l4
  have hl5 : Held q0 n0 c0 l5.2 := by
    unfold l5
    with_reducible repeat' first | assumption | apply State.commitRequest_held
  try clear_value l5
  try clear_value l6
  have hl7 : Held q0 n0 c0 l7 := by
    unfold l7
    with_reducible repeat' first | assumption | apply State.queuesReturn_held | apply State.withdrawals_held
  try clear_value l7
  have hl8 : Held q0 n0 c0 l8 := by
    unfold l8
    with_reducible repeat' first | assumption | apply State.pagesLost_held | apply State.rowsTurn_held
  try clear_value l8
  have hl9 : Held q0 n0 c0 l9 := by
    unfold l9
    with_reducible repeat' first | assumption | apply State.postWithdrawn_held
  try clear_value l9
  have hl10 : Held q0 n0 c0 l10 := by
    unfold l10
    with_reducible repeat' first | assumption | apply State.serveAll_held
  try clear_value l10
  have hl11 : Held q0 n0 c0 l11 := by
    unfold l11
    with_reducible repeat' first | assumption | apply State.histSettle_held | apply State.networksTurn_held
  try clear_value l11
  have hl12 : Held q0 n0 c0 l12 := by
    unfold l12
    with_reducible repeat' first | assumption | apply State.monitorsTurn_held | refine Held.ite ?_ ?_
  try clear_value l12
  have hl13 : Held q0 n0 c0 l13 := by
    unfold l13
    with_reducible repeat' first | assumption | apply State.switchNow_held | split
  try clear_value l13
  have hl14 : Held q0 n0 c0 l14 := by
    unfold l14
    with_reducible repeat' first | assumption | apply State.loadsTurn_held
  try clear_value l14
  have hl15 : Held q0 n0 c0 l15 := by
    unfold l15
    with_reducible repeat' first | assumption | apply State.onFrame_held
  try clear_value l15
  have hl16 : Held q0 n0 c0 l16 := by
    unfold l16
    with_reducible repeat' first | assumption | apply State.writeReport_held | refine Held.ite ?_ ?_
  try clear_value l16
  have hl17 : Held q0 n0 c0 l17 := by
    unfold l17
    with_reducible repeat' first | assumption | apply State.legsTurn_held | apply State.stagedTurn_held
  try clear_value l17
  have hl18 : Held q0 n0 c0 l18 := by
    unfold l18
    with_reducible repeat' first | assumption | apply State.tallyTurn_held | apply State.managerSends_held
  try clear_value l18
  have hl19 : Held q0 n0 c0 l19 := by
    unfold l19
    with_reducible repeat' first | assumption | apply State.sendMsg_held | refine Held.foldl (fun _ _ _ => ?_) ?_
  try clear_value l19
  with_reducible repeat' first | assumption | apply State.standbyWatch_held | apply State.stopsAnswer_held

theorem State.boundary_held {s : State} {kind : Nat} (hk : Held q0 n0 c0 s) : Held q0 n0 c0 (State.boundary s kind) := by
  unfold State.boundary
  extract_lets l0 l1 l2 l3
  have hl0 : Held q0 n0 c0 l0 := by
    unfold l0
    with_reducible repeat' first | assumption | apply State.readyPointActs_held | refine Held.ite ?_ ?_
  try clear_value l0
  try clear_value l1
  have hl2 : Held q0 n0 c0 l2 := by
    unfold l2
    with_reducible repeat' first | assumption | apply State.stopLegs_held
  try clear_value l2
  have hl3 : Held q0 n0 c0 l3 := by
    unfold l3
    with_reducible repeat' first | assumption | apply State.turn_held | apply State.raiseBoth_held
  try clear_value l3
  with_reducible repeat' first | assumption | apply State.railFaultNow_held | split

end Sys2Proof.Machine
end

