-- ==== Sys2Proof/Laws/HeldSecurity.lean ====
section
/-!
SUPPORT. That the operations of Machine/Security.lean touch neither the queue nor the clock, and keep the tables canonical.
-/

namespace Sys2Proof.Machine

variable {q0 : List Instr} {n0 c0 : Nat}

theorem State.remap_held {s : State} {unit : Nat} (hk : Held q0 n0 c0 s) : Held q0 n0 c0 (State.remap s unit) := by
  unfold State.remap
  extract_lets l0 l1
  try clear_value l0
  have hl1 : Held q0 n0 c0 l1 := by
    unfold l1
    with_reducible repeat' first | assumption | apply State.setBoth_held | apply State.count_held
  try clear_value l1
  with_reducible repeat' first | assumption | apply State.onSec_held | refine Held.ite ?_ ?_

theorem State.showJournal_held {s : State} (hk : Held q0 n0 c0 s) : Held q0 n0 c0 (State.showJournal s) := by
  unfold State.showJournal
  with_reducible repeat' first | assumption | apply State.setFld_held

theorem State.recordWrite_held {s : State} {addr : Nat} {data : Bytes} {steps : Nat} {remap : Bool} (hk : Held q0 n0 c0 s) : Held q0 n0 c0 (State.recordWrite s addr data steps remap) := by
  unfold State.recordWrite
  extract_lets l0 l1 l2 l3 l4 l5
  try clear_value l0
  try clear_value l1
  try clear_value l2
  have hl3 : Held q0 n0 c0 l3 := by
    unfold l3
    with_reducible repeat' first | assumption | apply State.onSec_held
  try clear_value l3
  have hl4 : Held q0 n0 c0 l4 := by
    unfold l4
    with_reducible repeat' first | assumption | apply State.onSec_held | refine Held.ite ?_ ?_
  try clear_value l4
  have hl5 : Held q0 n0 c0 l5 := by
    unfold l5
    with_reducible repeat' first | assumption | apply State.remap_held | refine Held.ite ?_ ?_
  try clear_value l5
  with_reducible repeat' first
    | assumption | apply State.onSec_held | apply State.recordWrites_held | apply State.showJournal_held
    | refine Held.ite ?_ ?_

theorem State.fnCommand_held {s : State} {c : Mgmt} {act : State → State} (hk : Held q0 n0 c0 s) (hact : ∀ s, Held q0 n0 c0 s → Held q0 n0 c0 (act s)) : Held q0 n0 c0 (State.fnCommand s c act) := by
  unfold State.fnCommand
  with_reducible repeat' first | assumption | refine hact _ ?_ | apply State.take_held | refine Held.ite ?_ ?_

theorem State.authFail_held {s : State} {fn : Nat} (hk : Held q0 n0 c0 s) : Held q0 n0 c0 (State.authFail s fn) := by
  unfold State.authFail
  extract_lets l0 l1
  have hl0 : Held q0 n0 c0 l0 := by
    unfold l0
    with_reducible repeat' first | assumption | apply State.count_held
  try clear_value l0
  try clear_value l1
  with_reducible repeat' first | assumption | apply State.setFnSec_held | apply State.setFld_held | refine Held.ite ?_ ?_

theorem State.roleChallenge_held {s : State} {c : Mgmt} (hk : Held q0 n0 c0 s) : Held q0 n0 c0 (State.roleChallenge s c) := by
  unfold State.roleChallenge
  with_reducible repeat' first
    | assumption | apply State.fnCommand_held | apply State.answer_held | apply State.draw_held | apply State.setFnSec_held
    | split | intro _

theorem State.roleAssume_held {s : State} {c : Mgmt} {role : Nat} {idx : Nat} {sig : Bytes} (hk : Held q0 n0 c0 s) : Held q0 n0 c0 (State.roleAssume s c role idx sig) := by
  unfold State.roleAssume
  extract_lets l0 l1
  try clear_value l0
  have hl1 : ∀ x0, Held q0 n0 c0 x0 → Held q0 n0 c0 (l1 x0) := by
    intro x0 hs
    dsimp only [l1]
    with_reducible repeat' first | assumption | apply State.setFnSec_held
  try clear_value l1
  with_reducible repeat' first
    | assumption | apply hl1 | apply State.fnCommand_held | apply State.answer_held | apply State.authFail_held
    | apply State.engineAsk_held | split | intro _

theorem State.roleAnswer_held {s : State} {c : Mgmt} {role : Nat} {idx : Nat} {key : Bytes} {code : Nat} (hk : Held q0 n0 c0 s) : Held q0 n0 c0 (State.roleAnswer s c role idx key code) := by
  unfold State.roleAnswer
  extract_lets l0 l1 l2
  try clear_value l0
  have hl1 : Held q0 n0 c0 l1 := by
    unfold l1
    with_reducible repeat' first | assumption | apply State.setFld_held
  try clear_value l1
  try clear_value l2
  with_reducible repeat' first
    | assumption | apply State.authFail_held | apply State.answer_held | apply State.setFnSec_held | refine Held.ite ?_ ?_

theorem State.roleRelease_held {s : State} {c : Mgmt} (hk : Held q0 n0 c0 s) : Held q0 n0 c0 (State.roleRelease s c) := by
  unfold State.roleRelease
  with_reducible repeat' first
    | assumption | apply State.fnCommand_held | apply State.answer_held | apply State.setFld_held | apply State.setFnSec_held
    | intro _

theorem State.lockoutEnd_held {s : State} {fn : Nat} (hk : Held q0 n0 c0 s) : Held q0 n0 c0 (State.lockoutEnd s fn) := by
  unfold State.lockoutEnd
  extract_lets l0
  try clear_value l0
  with_reducible repeat' first | assumption | apply State.setFnSec_held | apply State.setFld_held | refine Held.ite ?_ ?_

theorem State.nonceExpiry_held {s : State} {fn : Nat} (hk : Held q0 n0 c0 s) : Held q0 n0 c0 (State.nonceExpiry s fn) := by
  unfold State.nonceExpiry
  extract_lets l0
  try clear_value l0
  with_reducible repeat' first | assumption | apply State.setFnSec_held | refine Held.ite ?_ ?_

theorem State.finish_held {s : State} {c : Mgmt} {seq : Nat} {code : Nat} {result : Nat} {detail : Bytes} (hk : Held q0 n0 c0 s) : Held q0 n0 c0 (State.finish s c seq code result detail) := by
  unfold State.finish
  with_reducible repeat' first | assumption | apply State.auditDone_held | apply State.respond_held

theorem State.vaultCmd_held {s : State} {c : Mgmt} {r : CmdRule} {target : Nat} {detail : Bytes} {act : Nat → State → State} (hk : Held q0 n0 c0 s) (hact : ∀ a s, Held q0 n0 c0 s → Held q0 n0 c0 (act a s)) : Held q0 n0 c0 (State.vaultCmd s c r target detail act) := by
  unfold State.vaultCmd
  with_reducible repeat' first | assumption | refine hact _ _ ?_ | apply State.mgmt_held | apply State.auditPending_held | intro _

theorem State.setKeys_held {s : State} {table : Nat} {m : SMap KeyRec} (hk : Held q0 n0 c0 s) : Held q0 n0 c0 (State.setKeys s table m) := by
  unfold State.setKeys
  with_reducible repeat' first | assumption | apply State.onSec_held | apply State.recordWrites_held

theorem State.dropKey_held {s : State} {table : Nat} {idx : Nat} (hk : Held q0 n0 c0 s) : Held q0 n0 c0 (State.dropKey s table idx) := by
  unfold State.dropKey
  extract_lets l0 l1
  try clear_value l0
  have hl1 : Held q0 n0 c0 l1 := by
    unfold l1
    with_reducible repeat' first | assumption | apply State.endRole_held | refine Held.foldl (fun _ _ _ => ?_) ?_
  try clear_value l1
  with_reducible repeat' first | assumption | apply State.setKeys_held | refine Held.ite ?_ ?_

theorem State.keySet_held {s : State} {c : Mgmt} {code : Nat} {target : Nat} {table : Nat} {idx : Nat} {mask : Nat} {key : Bytes} (hk : Held q0 n0 c0 s) : Held q0 n0 c0 (State.keySet s c code target table idx mask key) := by
  unfold State.keySet
  extract_lets l0
  try clear_value l0
  with_reducible repeat' first
    | assumption | apply State.vaultCmd_held | apply State.finish_held | apply State.engineAsk_held | split | intro _

theorem State.keyAnswer_held {s : State} {c : Mgmt} {table : Nat} {idx : Nat} {mask : Nat} {key : Bytes} {seq : Nat} {code : Nat} (hk : Held q0 n0 c0 s) : Held q0 n0 c0 (State.keyAnswer s c table idx mask key seq code) := by
  unfold State.keyAnswer
  extract_lets l0 l1 l2 l3
  try clear_value l0
  have hl1 : Held q0 n0 c0 l1 := by
    unfold l1
    with_reducible repeat' first | assumption | apply State.dropKey_held
  try clear_value l1
  have hl2 : Held q0 n0 c0 l2 := by
    unfold l2
    with_reducible repeat' first | assumption | apply State.setKeys_held
  try clear_value l2
  have hl3 : Held q0 n0 c0 l3 := by
    unfold l3
    with_reducible repeat' first | assumption | apply State.onSec_held | refine Held.ite ?_ ?_
  try clear_value l3
  with_reducible repeat' first | assumption | apply State.finish_held | refine Held.ite ?_ ?_

theorem State.keyRemove_held {s : State} {c : Mgmt} {code : Nat} {target : Nat} {table : Nat} {idx : Nat} (hk : Held q0 n0 c0 s) : Held q0 n0 c0 (State.keyRemove s c code target table idx) := by
  unfold State.keyRemove
  with_reducible repeat' first
    | assumption | apply State.vaultCmd_held | apply State.finish_held | apply State.dropKey_held | split | intro _

theorem State.lockCmd_held {s : State} {c : Mgmt} {v : Nat} (hk : Held q0 n0 c0 s) : Held q0 n0 c0 (State.lockCmd s c v) := by
  unfold State.lockCmd
  with_reducible repeat' first
    | assumption | apply State.vaultCmd_held | apply State.finish_held | apply State.setBoth_held
    | apply State.recordWrites_held | split | intro _

theorem State.diagUnlock_held {s : State} {c : Mgmt} (hk : Held q0 n0 c0 s) : Held q0 n0 c0 (State.diagUnlock s c) := by
  unfold State.diagUnlock
  with_reducible repeat' first
    | assumption | apply State.mgmt_held | apply State.answer_held | apply State.setFld_held | split | intro _

theorem State.readAudit_held {s : State} {c : Mgmt} {first : Nat} (hk : Held q0 n0 c0 s) : Held q0 n0 c0 (State.readAudit s c first) := by
  unfold State.readAudit
  with_reducible repeat' first
    | assumption | apply State.mgmt_held | apply State.onSec_held | apply State.hostOutput_held | apply State.answer_held
    | intro _

theorem State.readKeysCmd_held {s : State} {c : Mgmt} (hk : Held q0 n0 c0 s) : Held q0 n0 c0 (State.readKeysCmd s c) := by
  unfold State.readKeysCmd
  with_reducible repeat' first
    | assumption | apply State.mgmt_held | apply State.hostOutput_held | apply State.answer_held | intro _

theorem State.auditFlush_held {s : State} (hk : Held q0 n0 c0 s) : Held q0 n0 c0 (State.auditFlush s) := by
  unfold State.auditFlush
  with_reducible repeat' first | assumption | apply State.onSec_held | apply State.auditWrite_held | split

theorem execAtomicRecordWrite_held {addr : Nat} {data : Bytes} {steps : Nat} {remap : Bool} {s : State} (hk : Held q0 n0 c0 s) : HeldO q0 n0 c0 (execAtomicRecordWrite addr data steps remap s) := by
  unfold execAtomicRecordWrite
  with_reducible repeat' first | assumption | apply State.recordWrite_held | refine HeldO.within ?_

theorem execRoleChallenge_held {c : Mgmt} {s : State} (hk : Held q0 n0 c0 s) : HeldO q0 n0 c0 (execRoleChallenge c s) := by
  unfold execRoleChallenge
  with_reducible repeat' first | assumption | apply State.roleChallenge_held | refine HeldO.within ?_

theorem execRoleAssume_held {c : Mgmt} {role : Nat} {idx : Nat} {sig : Bytes} {s : State} (hk : Held q0 n0 c0 s) : HeldO q0 n0 c0 (execRoleAssume c role idx sig s) := by
  unfold execRoleAssume
  with_reducible repeat' first | assumption | apply State.roleAssume_held | refine HeldO.within ?_

theorem execLockoutEnd_held {fn : Nat} {s : State} (hk : Held q0 n0 c0 s) : HeldO q0 n0 c0 (execLockoutEnd fn s) := by
  unfold execLockoutEnd
  with_reducible repeat' first | assumption | apply State.lockoutEnd_held | refine HeldO.within ?_

theorem execNonceExpiry_held {fn : Nat} {s : State} (hk : Held q0 n0 c0 s) : HeldO q0 n0 c0 (execNonceExpiry fn s) := by
  unfold execNonceExpiry
  with_reducible repeat' first | assumption | apply State.nonceExpiry_held | refine HeldO.within ?_

theorem execRoleRelease_held {c : Mgmt} {s : State} (hk : Held q0 n0 c0 s) : HeldO q0 n0 c0 (execRoleRelease c s) := by
  unfold execRoleRelease
  with_reducible repeat' first | assumption | apply State.roleRelease_held | refine HeldO.within ?_

theorem execKeySet_held {c : Mgmt} {role : Nat} {idx : Nat} {mask : Nat} {key : Bytes} {s : State} (hk : Held q0 n0 c0 s) : HeldO q0 n0 c0 (execKeySet c role idx mask key s) := by
  unfold execKeySet
  with_reducible repeat' first | assumption | apply State.keySet_held | refine HeldO.within ?_

theorem execKeyRemove_held {c : Mgmt} {role : Nat} {idx : Nat} {s : State} (hk : Held q0 n0 c0 s) : HeldO q0 n0 c0 (execKeyRemove c role idx s) := by
  unfold execKeyRemove
  with_reducible repeat' first | assumption | apply State.keyRemove_held | refine HeldO.within ?_

theorem execPubkeySet_held {c : Mgmt} {idx : Nat} {key : Bytes} {s : State} (hk : Held q0 n0 c0 s) : HeldO q0 n0 c0 (execPubkeySet c idx key s) := by
  unfold execPubkeySet
  with_reducible repeat' first | assumption | apply State.keySet_held | refine HeldO.within ?_

theorem execPubkeyRemove_held {c : Mgmt} {idx : Nat} {s : State} (hk : Held q0 n0 c0 s) : HeldO q0 n0 c0 (execPubkeyRemove c idx s) := by
  unfold execPubkeyRemove
  with_reducible repeat' first | assumption | apply State.keyRemove_held | refine HeldO.within ?_

theorem execLock_held {c : Mgmt} {value : Nat} {s : State} (hk : Held q0 n0 c0 s) : HeldO q0 n0 c0 (execLock c value s) := by
  unfold execLock
  with_reducible repeat' first | assumption | apply State.lockCmd_held | refine HeldO.within ?_

theorem execDiagUnlock_held {c : Mgmt} {s : State} (hk : Held q0 n0 c0 s) : HeldO q0 n0 c0 (execDiagUnlock c s) := by
  unfold execDiagUnlock
  with_reducible repeat' first | assumption | apply State.diagUnlock_held | refine HeldO.within ?_

theorem execReadAudit_held {c : Mgmt} {first : Nat} {s : State} (hk : Held q0 n0 c0 s) : HeldO q0 n0 c0 (execReadAudit c first s) := by
  unfold execReadAudit
  with_reducible repeat' first | assumption | apply State.readAudit_held | refine HeldO.within ?_

theorem execReadKeys_held {c : Mgmt} {s : State} (hk : Held q0 n0 c0 s) : HeldO q0 n0 c0 (execReadKeys c s) := by
  unfold execReadKeys
  with_reducible repeat' first | assumption | apply State.readKeysCmd_held | refine HeldO.within ?_

theorem execAuditFlush_held {s : State} (hk : Held q0 n0 c0 s) : HeldO q0 n0 c0 (execAuditFlush s) := by
  unfold execAuditFlush
  with_reducible repeat' first | assumption | apply State.auditFlush_held | refine HeldO.next ?_

end Sys2Proof.Machine
end

