-- ==== Sys2Proof/Laws/HeldSmBus.lean ====
section
/-!
SUPPORT. That the operations of Machine/SmBus.lean touch neither the queue nor the clock, and keep the tables canonical.
-/

namespace Sys2Proof.Machine

variable {q0 : List Instr} {n0 c0 : Nat}

theorem State.onSmb_held {s : State} {f : SmbSt → SmbSt} (hk : Held q0 n0 c0 s) : Held q0 n0 c0 (State.onSmb s f) := by
  unfold State.onSmb
  with_reducible repeat' first | assumption | fail_if_no_progress refine Held.same ?_

theorem State.smbSeek_held {s : State} {off : Nat} (hk : Held q0 n0 c0 s) : Held q0 n0 c0 (State.smbSeek s off) := by
  unfold State.smbSeek
  extract_lets l0
  try clear_value l0
  with_reducible repeat' first | assumption | apply State.onSmb_held

theorem State.smbSetOffset_held {s : State} {addr : Nat} {off : Nat} {count : Option Nat} {pec : Bool} (hk : Held q0 n0 c0 s) : Held q0 n0 c0 (State.smbSetOffset s addr off count pec) := by
  unfold State.smbSetOffset
  with_reducible repeat' first | assumption | apply State.smbSeek_held | apply State.onSmb_held | refine Held.ite ?_ ?_

theorem State.smbRegister_held {s : State} {off : Nat} (hk : Held q0 n0 c0 s) : Held q0 n0 c0 (State.smbRegister s off) := by
  unfold State.smbRegister
  with_reducible repeat' first
    | assumption | apply State.loRead_held | fail_if_no_progress refine Held.same ?_ | refine Held.ite ?_ ?_

theorem State.smbRead_held {s : State} {addr : Nat} {stall : Bool} (hk : Held q0 n0 c0 s) : Held q0 n0 c0 (State.smbRead s addr stall) := by
  unfold State.smbRead
  extract_lets l0 l1 l2
  try clear_value l0
  try clear_value l1
  have hl2 : Held q0 n0 c0 l2.1 := by
    unfold l2
    with_reducible repeat' first | assumption | apply State.smbRegister_held | refine Held.foldl_fst (fun _ _ _ => ?_) ?_
  try clear_value l2
  with_reducible repeat' first | assumption | apply State.onSmb_held | apply State.smbSeek_held | refine Held.ite ?_ ?_

theorem State.smbWriteSel_held {s : State} {addr : Nat} {off : Nat} {value : Nat} {pec : Bool} (hk : Held q0 n0 c0 s) : Held q0 n0 c0 (State.smbWriteSel s addr off value pec) := by
  unfold State.smbWriteSel
  extract_lets l0
  try clear_value l0
  with_reducible repeat' first | assumption | apply State.writeReg_held | apply State.onSmb_held | refine Held.ite ?_ ?_

theorem State.smbStatus_held {s : State} {addr : Nat} (hk : Held q0 n0 c0 s) : Held q0 n0 c0 (State.smbStatus s addr) := by
  unfold State.smbStatus
  extract_lets l0 l1 l2
  try clear_value l0
  try clear_value l1
  have hl2 : Held q0 n0 c0 l2 := by
    unfold l2
    with_reducible repeat' first | assumption | apply State.onSmb_held
  try clear_value l2
  with_reducible repeat' first | assumption | fail_if_no_progress refine Held.same ?_ | refine Held.ite ?_ ?_

theorem State.alertResponse_held {s : State} (hk : Held q0 n0 c0 s) : Held q0 n0 c0 (State.alertResponse s) := by
  unfold State.alertResponse
  extract_lets l0
  have hl0 : Held q0 n0 c0 l0 := by
    unfold l0
    with_reducible repeat' first | assumption | apply State.onSmb_held
  try clear_value l0
  with_reducible repeat' first | assumption | fail_if_no_progress refine Held.same ?_ | refine Held.ite ?_ ?_

theorem State.smbTimeout_held {s : State} {lowUs : Nat} (hk : Held q0 n0 c0 s) : Held q0 n0 c0 (State.smbTimeout s lowUs) := by
  unfold State.smbTimeout
  with_reducible repeat' first | assumption | apply State.onSmb_held | refine Held.ite ?_ ?_

theorem execSetOffset_held {addr : Nat} {off : Nat} {count : Option Nat} {pec : Bool} {s : State} (hk : Held q0 n0 c0 s) : HeldO q0 n0 c0 (execSetOffset addr off count pec s) := by
  unfold execSetOffset
  with_reducible repeat' first | assumption | apply State.smbSetOffset_held | refine HeldO.next ?_

theorem execSmbRead_held {addr : Nat} {stall : Bool} {s : State} (hk : Held q0 n0 c0 s) : HeldO q0 n0 c0 (execSmbRead addr stall s) := by
  unfold execSmbRead
  with_reducible repeat' first | assumption | apply State.smbRead_held | refine HeldO.next ?_

theorem execWriteSel_held {addr : Nat} {off : Nat} {value : Nat} {pec : Bool} {s : State} (hk : Held q0 n0 c0 s) : HeldO q0 n0 c0 (execWriteSel addr off value pec s) := by
  unfold execWriteSel
  with_reducible repeat' first | assumption | apply State.smbWriteSel_held | refine HeldO.next ?_

theorem execSmbStatus_held {addr : Nat} {s : State} (hk : Held q0 n0 c0 s) : HeldO q0 n0 c0 (execSmbStatus addr s) := by
  unfold execSmbStatus
  with_reducible repeat' first | assumption | apply State.smbStatus_held | refine HeldO.next ?_

theorem execAlertResponse_held {s : State} (hk : Held q0 n0 c0 s) : HeldO q0 n0 c0 (execAlertResponse s) := by
  unfold execAlertResponse
  with_reducible repeat' first | assumption | apply State.alertResponse_held | refine HeldO.next ?_

theorem execSmbBusTimeout_held {lowUs : Nat} {s : State} (hk : Held q0 n0 c0 s) : HeldO q0 n0 c0 (execSmbBusTimeout lowUs s) := by
  unfold execSmbBusTimeout
  with_reducible repeat' first | assumption | apply State.smbTimeout_held | refine HeldO.next ?_

end Sys2Proof.Machine
end

