-- ==== Sys2Proof/Laws/HeldUpdate.lean ====
section
/-!
SUPPORT. That the operations of Machine/Update.lean touch neither the queue nor the clock, and keep the tables canonical.
-/

namespace Sys2Proof.Machine

variable {q0 : List Instr} {n0 c0 : Nat}

theorem State.updEnd_held {s : State} {c : Mgmt} {seq : Nat} {code : Nat} {result : Nat} {counted : Bool} {detail : Bytes} (hk : Held q0 n0 c0 s) : Held q0 n0 c0 (State.updEnd s c seq code result counted detail) := by
  unfold State.updEnd
  extract_lets l0 l1
  have hl0 : Held q0 n0 c0 l0 := by
    unfold l0
    with_reducible repeat' first | assumption | apply State.setFld_held
  try clear_value l0
  have hl1 : Held q0 n0 c0 l1 := by
    unfold l1
    with_reducible repeat' first | assumption | apply State.count_held | refine Held.ite ?_ ?_
  try clear_value l1
  with_reducible repeat' first | assumption | apply State.finish_held

theorem State.setSession_held {s : State} {x : Option Session} {v : Nat} (hk : Held q0 n0 c0 s) : Held q0 n0 c0 (State.setSession s x v) := by
  unfold State.setSession
  with_reducible repeat' first | assumption | apply State.onSec_held | apply State.setFld_held

theorem State.setComponent_held {s : State} {slot : Nat} {cls : Nat} {st : Nat} {version : Nat} {format : Nat} {img : Option FwImage} (hk : Held q0 n0 c0 s) : Held q0 n0 c0 (State.setComponent s slot cls st version format img) := by
  unfold State.setComponent
  extract_lets l0 l1
  have hl0 : Held q0 n0 c0 l0 := by
    unfold l0
    with_reducible repeat' first | assumption | apply State.setBoth_held
  try clear_value l0
  have hl1 : Held q0 n0 c0 l1 := by
    unfold l1
    with_reducible repeat' first | assumption | apply State.setBoth_held | refine Held.ite ?_ ?_
  try clear_value l1
  with_reducible repeat' first | assumption | apply State.onSec_held | apply State.recordWrites_held

theorem State.beginAccept_held {s : State} {c : Mgmt} {seq : Nat} {slot : Nat} {h : Bytes} (hk : Held q0 n0 c0 s) : Held q0 n0 c0 (State.beginAccept s c seq slot h) := by
  unfold State.beginAccept
  extract_lets l0 l1 l2 l3 l4 l5
  try clear_value l0
  try clear_value l1
  try clear_value l2
  have hl3 : Held q0 n0 c0 l3 := by
    unfold l3
    with_reducible repeat' first | assumption | apply State.setComponent_held
  try clear_value l3
  have hl4 : Held q0 n0 c0 l4 := by
    unfold l4
    with_reducible repeat' first | assumption | apply State.setBoth_held | apply State.recordWrites_held
  try clear_value l4
  have hl5 : Held q0 n0 c0 l5 := by
    unfold l5
    with_reducible repeat' first | assumption | apply State.setSession_held
  try clear_value l5
  with_reducible repeat' first | assumption | apply State.updEnd_held

theorem State.updateBegin_held {s : State} {c : Mgmt} {slot : Nat} {h : Bytes} (hk : Held q0 n0 c0 s) : Held q0 n0 c0 (State.updateBegin s c slot h) := by
  unfold State.updateBegin
  with_reducible repeat' first
    | assumption | apply State.vaultCmd_held | apply State.updEnd_held | apply State.beginAccept_held
    | apply State.setSession_held | apply State.engineAsk_held | split | intro _

theorem State.updateAnswer_held {s : State} {c : Mgmt} {slot : Nat} {h : Bytes} {seq : Nat} {code : Nat} (hk : Held q0 n0 c0 s) : Held q0 n0 c0 (State.updateAnswer s c slot h seq code) := by
  unfold State.updateAnswer
  extract_lets l0
  try clear_value l0
  with_reducible repeat' first
    | assumption | apply State.auditDone_held | apply State.respond_held | apply State.setSession_held
    | apply State.updEnd_held | apply State.beginAccept_held | refine Held.ite ?_ ?_

theorem State.updateData_held {s : State} {c : Mgmt} {off : Nat} {data : Bytes} (hk : Held q0 n0 c0 s) : Held q0 n0 c0 (State.updateData s c off data) := by
  unfold State.updateData
  with_reducible repeat' first
    | assumption | apply State.vaultCmd_held | apply State.updEnd_held | apply State.setSession_held | split | intro _

theorem State.updateEnd_held {s : State} {c : Mgmt} (hk : Held q0 n0 c0 s) : Held q0 n0 c0 (State.updateEnd s c) := by
  unfold State.updateEnd
  with_reducible repeat' first
    | assumption | apply State.vaultCmd_held | apply State.updEnd_held | apply State.setSession_held
    | apply State.setComponent_held | split | intro _

theorem State.updateAbort_held {s : State} {c : Mgmt} (hk : Held q0 n0 c0 s) : Held q0 n0 c0 (State.updateAbort s c) := by
  unfold State.updateAbort
  with_reducible repeat' first
    | assumption | apply State.vaultCmd_held | apply State.updEnd_held | apply State.setSession_held | split | intro _

theorem State.abortDue_held {s : State} (hk : Held q0 n0 c0 s) : Held q0 n0 c0 (State.abortDue s) := by
  unfold State.abortDue
  with_reducible repeat' first | assumption | apply State.sessionAbort_held | refine Held.ite ?_ ?_

theorem State.setActivation_held {s : State} {a : Option Activation} {v : Nat} (hk : Held q0 n0 c0 s) : Held q0 n0 c0 (State.setActivation s a v) := by
  unfold State.setActivation
  with_reducible repeat' first | assumption | apply State.onSec_held | apply State.setFld_held

theorem State.activationEnd_held {s : State} {a : Activation} {result : Nat} (hk : Held q0 n0 c0 s) : Held q0 n0 c0 (State.activationEnd s a result) := by
  unfold State.activationEnd
  with_reducible repeat' first | assumption | apply State.setActivation_held | apply State.updEnd_held

theorem State.activated_held {s : State} {a : Activation} (hk : Held q0 n0 c0 s) : Held q0 n0 c0 (State.activated s a) := by
  unfold State.activated
  extract_lets l0 l1 l2
  have hl0 : Held q0 n0 c0 l0 := by
    unfold l0
    with_reducible repeat' first | assumption | apply State.setBoth_held | apply State.count_held
  try clear_value l0
  have hl1 : Held q0 n0 c0 l1 := by
    unfold l1
    with_reducible repeat' first | assumption | apply State.setBoth_held | refine Held.foldl (fun _ _ _ => ?_) ?_
  try clear_value l1
  have hl2 : Held q0 n0 c0 l2 := by
    unfold l2
    with_reducible repeat' first | assumption | apply State.setBoth_held | apply State.onSec_held | refine Held.ite ?_ ?_
  try clear_value l2
  with_reducible repeat' first | assumption | apply State.activationEnd_held

theorem State.activate_held {s : State} {c : Mgmt} {slot : Nat} {frame : Nat} (hk : Held q0 n0 c0 s) : Held q0 n0 c0 (State.activate s c slot frame) := by
  unfold State.activate
  with_reducible repeat' first
    | assumption | apply State.vaultCmd_held | apply State.updEnd_held | apply State.setActivation_held | split | intro _

theorem State.restartCores_held {s : State} (hk : Held q0 n0 c0 s) : Held q0 n0 c0 (State.restartCores s) := by
  unfold State.restartCores
  extract_lets l0
  try clear_value l0
  with_reducible repeat' first
    | assumption | apply State.setTick_held | fail_if_no_progress refine Held.same ?_ | refine Held.ite ?_ ?_
    | refine Held.foldl (fun _ _ _ => ?_) ?_

theorem State.activationPause_held {s : State} {staged : Bool} (hk : Held q0 n0 c0 s) : Held q0 n0 c0 (State.activationPause s staged) := by
  unfold State.activationPause
  with_reducible repeat' first
    | assumption | apply State.setActivation_held | apply State.activationEnd_held | apply State.restartCores_held
    | apply State.activated_held | refine Held.ite ?_ ?_ | split

theorem State.startFailed_held {s : State} (hk : Held q0 n0 c0 s) : Held q0 n0 c0 (State.startFailed s) := by
  unfold State.startFailed
  with_reducible repeat' first
    | assumption | apply State.restartCores_held | apply State.activationEnd_held | refine Held.ite ?_ ?_ | split

theorem State.handover_held {s : State} (hk : Held q0 n0 c0 s) : Held q0 n0 c0 (State.handover s) := by
  unfold State.handover
  extract_lets l0 l1 l2 l3
  try clear_value l0
  have hl1 : ∀ x0 x1, Held q0 n0 c0 x0 → Held q0 n0 c0 (l1 x0 x1) := by
    intro x0 x1 hs
    dsimp only [l1]
    with_reducible repeat' first
      | assumption | apply State.setRcore_held | apply State.setTick_held | refine Held.foldl (fun _ _ _ => ?_) ?_
  try clear_value l1
  have hl2 : Held q0 n0 c0 l2 := by
    unfold l2
    with_reducible repeat' first | assumption | apply hl1 | apply State.setBelief_held | apply State.setHolder_held
  try clear_value l2
  have hl3 : Held q0 n0 c0 l3 := by
    unfold l3
    with_reducible repeat' first | assumption | apply State.claimLead_held
  try clear_value l3
  with_reducible repeat' first | assumption | apply hl1 | apply State.activated_held | refine Held.ite ?_ ?_ | split

theorem State.confirm_held {s : State} {c : Mgmt} {slot : Nat} (hk : Held q0 n0 c0 s) : Held q0 n0 c0 (State.confirm s c slot) := by
  unfold State.confirm
  with_reducible repeat' first
    | assumption | apply State.vaultCmd_held | apply State.updEnd_held | apply State.onSec_held | apply State.setBoth_held
    | apply State.recordWrites_held | refine Held.ite ?_ ?_ | split | intro _

theorem State.readUpdate_held {s : State} {c : Mgmt} (hk : Held q0 n0 c0 s) : Held q0 n0 c0 (State.readUpdate s c) := by
  unfold State.readUpdate
  with_reducible repeat' first | assumption | apply State.mgmt_held | apply State.answer_held | intro _

theorem State.signatureRequest_held {s : State} {key : Bytes} {digest : Bytes} {sig : Bytes} (hk : Held q0 n0 c0 s) : Held q0 n0 c0 (State.signatureRequest s key digest sig) := by
  unfold State.signatureRequest
  with_reducible repeat' first | assumption | apply State.engineAsk_held

theorem State.signatureAnswer_held {s : State} (hk : Held q0 n0 c0 s) : Held q0 n0 c0 (State.signatureAnswer s) := by
  unfold State.signatureAnswer
  with_reducible repeat' first
    | assumption | refine State.engineAnswer_held ?_ (by assumption) | apply State.roleAnswer_held | apply State.keyAnswer_held
    | apply State.updateAnswer_held | apply State.manifestAnswer_held | split

theorem execUpdateBegin_held {c : Mgmt} {slot : Nat} {header : Bytes} {s : State} (hk : Held q0 n0 c0 s) : HeldO q0 n0 c0 (execUpdateBegin c slot header s) := by
  unfold execUpdateBegin
  with_reducible repeat' first | assumption | apply State.updateBegin_held | refine HeldO.within ?_

theorem execUpdateData_held {c : Mgmt} {off : Nat} {data : Bytes} {s : State} (hk : Held q0 n0 c0 s) : HeldO q0 n0 c0 (execUpdateData c off data s) := by
  unfold execUpdateData
  with_reducible repeat' first | assumption | apply State.updateData_held | refine HeldO.within ?_

theorem execUpdateEnd_held {c : Mgmt} {s : State} (hk : Held q0 n0 c0 s) : HeldO q0 n0 c0 (execUpdateEnd c s) := by
  unfold execUpdateEnd
  with_reducible repeat' first | assumption | apply State.updateEnd_held | refine HeldO.within ?_

theorem execUpdateAbort_held {c : Mgmt} {s : State} (hk : Held q0 n0 c0 s) : HeldO q0 n0 c0 (execUpdateAbort c s) := by
  unfold execUpdateAbort
  with_reducible repeat' first | assumption | apply State.updateAbort_held | refine HeldO.within ?_

theorem execSessionAborted_held {s : State} (hk : Held q0 n0 c0 s) : HeldO q0 n0 c0 (execSessionAborted s) := by
  unfold execSessionAborted
  with_reducible repeat' first | assumption | apply State.abortDue_held | refine HeldO.next ?_

theorem execActivate_held {c : Mgmt} {slot : Nat} {frame : Nat} {s : State} (hk : Held q0 n0 c0 s) : HeldO q0 n0 c0 (execActivate c slot frame s) := by
  unfold execActivate
  with_reducible repeat' first | assumption | apply State.activate_held | refine HeldO.within ?_

theorem execActivationPause_held {staged : Bool} {s : State} (hk : Held q0 n0 c0 s) : HeldO q0 n0 c0 (execActivationPause staged s) := by
  unfold execActivationPause
  with_reducible repeat' first | assumption | apply State.activationPause_held | refine HeldO.next ?_

theorem execStartFailed_held {s : State} (hk : Held q0 n0 c0 s) : HeldO q0 n0 c0 (execStartFailed s) := by
  unfold execStartFailed
  with_reducible repeat' first | assumption | apply State.startFailed_held | refine HeldO.next ?_

theorem execActivationHandover_held {s : State} (hk : Held q0 n0 c0 s) : HeldO q0 n0 c0 (execActivationHandover s) := by
  unfold execActivationHandover
  with_reducible repeat' first | assumption | apply State.handover_held | refine HeldO.next ?_

theorem execConfirm_held {c : Mgmt} {slot : Nat} {s : State} (hk : Held q0 n0 c0 s) : HeldO q0 n0 c0 (execConfirm c slot s) := by
  unfold execConfirm
  with_reducible repeat' first | assumption | apply State.confirm_held | refine HeldO.within ?_

theorem execReadUpdate_held {c : Mgmt} {s : State} (hk : Held q0 n0 c0 s) : HeldO q0 n0 c0 (execReadUpdate c s) := by
  unfold execReadUpdate
  with_reducible repeat' first | assumption | apply State.readUpdate_held | refine HeldO.within ?_

theorem execSignatureRequest_held {key : Bytes} {digest : Bytes} {sig : Bytes} {s : State} (hk : Held q0 n0 c0 s) : HeldO q0 n0 c0 (execSignatureRequest key digest sig s) := by
  unfold execSignatureRequest
  with_reducible repeat' first | assumption | apply State.signatureRequest_held | refine HeldO.next ?_

theorem execSignatureAnswer_held {s : State} (hk : Held q0 n0 c0 s) : HeldO q0 n0 c0 (execSignatureAnswer s) := by
  unfold execSignatureAnswer
  with_reducible repeat' first | assumption | apply State.signatureAnswer_held | refine HeldO.next ?_

end Sys2Proof.Machine
end

