-- ==== Sys2Proof/Laws/HeldWhistle.lean ====
section
/-!
SUPPORT. That the operations of Machine/Whistle.lean touch neither the queue nor the clock, and keep the tables canonical.
-/

namespace Sys2Proof.Machine

variable {q0 : List Instr} {n0 c0 : Nat}

theorem State.wakeForStart_held {s : State} (hk : Held q0 n0 c0 s) : Held q0 n0 c0 (State.wakeForStart s) := by
  unfold State.wakeForStart
  with_reducible repeat' first
    | assumption | apply State.onPwr_held | apply State.setFld_held | apply State.raiseBoth_held | apply State.post_held
    | refine Held.ite ?_ ?_

theorem State.startManagers_held {s : State} (hk : Held q0 n0 c0 s) : Held q0 n0 c0 (State.startManagers s) := by
  unfold State.startManagers
  extract_lets l0 l1 l2
  have hl0 : Held q0 n0 c0 l0 := by
    unfold l0
    with_reducible repeat' first | assumption | apply State.nameManagers_held
  try clear_value l0
  have hl1 : Held q0 n0 c0 l1 := by
    unfold l1
    with_reducible repeat' first | assumption | apply State.setFld_held | refine Held.ite ?_ ?_
  try clear_value l1
  have hl2 : Held q0 n0 c0 l2 := by
    unfold l2
    with_reducible repeat' first | assumption | apply State.onMgr_held
  try clear_value l2
  with_reducible repeat' first | assumption | apply State.setFld_held | apply State.sendMaps_held

theorem State.start_held {s : State} {c : Mgmt} {frame : Nat} (hk : Held q0 n0 c0 s) : Held q0 n0 c0 (State.start s c frame) := by
  unfold State.start
  extract_lets l0 l1
  have hl0 : Held q0 n0 c0 l0 := by
    unfold l0
    with_reducible repeat' first | assumption | apply State.wakeForStart_held | apply State.startManagers_held
  try clear_value l0
  have hl1 : Held q0 n0 c0 l1 := by
    unfold l1
    with_reducible repeat' first | assumption | apply State.onFrame_held
  try clear_value l1
  with_reducible repeat' first | assumption | apply State.answer_held | refine Held.ite ?_ ?_

theorem State.stop_held {s : State} {c : Mgmt} (hk : Held q0 n0 c0 s) : Held q0 n0 c0 (State.stop s c) := by
  unfold State.stop
  with_reducible repeat' first | assumption | apply State.answer_held | apply State.onFrame_held | split

theorem State.onFrameCounts_held {s : State} {f : FrameCounts → FrameCounts} (hk : Held q0 n0 c0 s) : Held q0 n0 c0 (State.onFrameCounts s f) := by
  unfold State.onFrameCounts
  with_reducible repeat' first | assumption | apply State.onFrame_held

theorem State.stray_held {s : State} (hk : Held q0 n0 c0 s) : Held q0 n0 c0 (State.stray s) := by
  unfold State.stray
  with_reducible repeat' first | assumption | apply State.onFrameCounts_held

theorem State.foreign_held {s : State} (hk : Held q0 n0 c0 s) : Held q0 n0 c0 (State.foreign s) := by
  unfold State.foreign
  with_reducible repeat' first | assumption | apply State.onFrameCounts_held

theorem State.whistleRunning_held {s : State} {number : Option Nat} (hk : Held q0 n0 c0 s) : Held q0 n0 c0 (State.whistleRunning s number) := by
  unfold State.whistleRunning
  extract_lets l0
  try clear_value l0
  with_reducible repeat' first
    | assumption | apply State.foreign_held | apply State.stray_held | apply State.onFrameCounts_held
    | apply State.onFrame_held | apply State.boundary_held | refine Held.ite ?_ ?_

theorem State.whistleArrives_held {s : State} {number : Option Nat} (hk : Held q0 n0 c0 s) : Held q0 n0 c0 (State.whistleArrives s number) := by
  unfold State.whistleArrives
  with_reducible repeat' first
    | assumption | apply State.onFrameCounts_held | apply State.boundary_held | apply State.foreign_held
    | apply State.whistleRunning_held | refine Held.ite ?_ ?_ | split

theorem State.whistleEdge_held {s : State} {samples : Nat} (hk : Held q0 n0 c0 s) : Held q0 n0 c0 (State.whistleEdge s samples) := by
  unfold State.whistleEdge
  extract_lets l0
  have hl0 : Held q0 n0 c0 l0 := by
    unfold l0
    with_reducible repeat' first | assumption | apply State.count_held
  try clear_value l0
  with_reducible repeat' first | assumption | apply State.count_held | apply State.whistleArrives_held | refine Held.ite ?_ ?_

theorem State.whistleMsg_held {s : State} {src : Nat} {epoch : Nat} {frame : Nat} (hk : Held q0 n0 c0 s) : Held q0 n0 c0 (State.whistleMsg s src epoch frame) := by
  unfold State.whistleMsg
  with_reducible repeat' first | assumption | apply State.fromMgr_held | apply State.whistleArrives_held | split | intro _

theorem State.windowOpening_held {s : State} (hk : Held q0 n0 c0 s) : Held q0 n0 c0 (State.windowOpening s) := by
  unfold State.windowOpening
  with_reducible repeat' first | assumption | apply State.boundary_held | refine Held.ite ?_ ?_

theorem State.selfWhistle_held {s : State} (hk : Held q0 n0 c0 s) : Held q0 n0 c0 (State.selfWhistle s) := by
  unfold State.selfWhistle
  with_reducible repeat' first | assumption | apply State.onFrameCounts_held | apply State.boundary_held | refine Held.ite ?_ ?_

theorem State.readyRepeat_held {s : State} (hk : Held q0 n0 c0 s) : Held q0 n0 c0 (State.readyRepeat s) := by
  unfold State.readyRepeat
  extract_lets l0 l1
  try clear_value l0
  try clear_value l1
  with_reducible repeat' first | assumption | apply State.onMgr_held | apply State.sendCtl_held | refine Held.ite ?_ ?_

theorem State.absentEntry_held {s : State} {i : Nat} (hk : Held q0 n0 c0 s) : Held q0 n0 c0 (State.absentEntry s i) := by
  unfold State.absentEntry
  extract_lets l0 l1
  try clear_value l0
  have hl1 : Held q0 n0 c0 l1 := by
    unfold l1
    with_reducible repeat' first | assumption | apply State.onMgr_held
  try clear_value l1
  with_reducible repeat' first | assumption | apply State.dropEntry_held | refine Held.ite ?_ ?_

theorem State.absences_held {s : State} (hk : Held q0 n0 c0 s) : Held q0 n0 c0 (State.absences s) := by
  unfold State.absences
  extract_lets l0 l1
  try clear_value l0
  have hl1 : Held q0 n0 c0 l1 := by
    unfold l1
    with_reducible repeat' first | assumption | apply State.onMgr_held
  try clear_value l1
  with_reducible repeat' first | assumption | apply State.absentEntry_held | refine Held.foldl (fun _ _ _ => ?_) ?_

theorem State.managerWhistle_held {s : State} (hk : Held q0 n0 c0 s) : Held q0 n0 c0 (State.managerWhistle s) := by
  unfold State.managerWhistle
  extract_lets l0
  have hl0 : Held q0 n0 c0 l0 := by
    unfold l0
    with_reducible repeat' first | assumption | apply State.listTry_held
  try clear_value l0
  with_reducible repeat' first
    | assumption | apply State.boundary_held | apply State.absences_held | refine Held.ite ?_ ?_ | split

/-- An idle step: the clock runs on. -/
theorem State.idle_held {s : State} (hk : Held q0 n0 c0 s) : ∃ c, Held q0 (n0 + 1) (c0 + c) s.idle :=
  let ⟨c, h⟩ := State.tick_held hk
  ⟨c, State.cancelDue_held h⟩

theorem execStart_held {c : Mgmt} {frame : Nat} {s : State} (hk : Held q0 n0 c0 s) : HeldO q0 n0 c0 (execStart c frame s) := by
  unfold execStart
  with_reducible repeat' first | assumption | apply State.mgmt_held | apply State.start_held | refine HeldO.within ?_ | intro _

theorem execStop_held {c : Mgmt} {s : State} (hk : Held q0 n0 c0 s) : HeldO q0 n0 c0 (execStop c s) := by
  unfold execStop
  with_reducible repeat' first
    | assumption | apply State.besideLoad_held | apply State.mgmt_held | apply State.stop_held | refine HeldO.within ?_
    | intro _

theorem execWhistleInEdge_held {samples : Nat} {s : State} (hk : Held q0 n0 c0 s) : HeldO q0 n0 c0 (execWhistleInEdge samples s) := by
  unfold execWhistleInEdge
  with_reducible repeat' first | assumption | apply State.whistleEdge_held | apply State.rebusy_held | refine HeldO.next ?_

theorem execWhistle_held {src : Nat} {epoch : Nat} {frame : Nat} {s : State} (hk : Held q0 n0 c0 s) : HeldO q0 n0 c0 (execWhistle src epoch frame s) := by
  unfold execWhistle
  with_reducible repeat' first | assumption | apply State.whistleMsg_held | apply State.rebusy_held | refine HeldO.next ?_

theorem execWindowOpen_held {s : State} (hk : Held q0 n0 c0 s) : HeldO q0 n0 c0 (execWindowOpen s) := by
  unfold execWindowOpen
  with_reducible repeat' first | assumption | apply State.windowOpening_held | apply State.rebusy_held | refine HeldO.next ?_

theorem execSelfWhistle_held {s : State} (hk : Held q0 n0 c0 s) : HeldO q0 n0 c0 (execSelfWhistle s) := by
  unfold execSelfWhistle
  with_reducible repeat' first | assumption | apply State.selfWhistle_held | apply State.rebusy_held | refine HeldO.next ?_

theorem execManagerWhistle_held {s : State} (hk : Held q0 n0 c0 s) : HeldO q0 n0 c0 (execManagerWhistle s) := by
  unfold execManagerWhistle
  with_reducible repeat' first | assumption | apply State.managerWhistle_held | apply State.rebusy_held | refine HeldO.next ?_

theorem execReadyPoint_held {s : State} (hk : Held q0 n0 c0 s) : HeldO q0 n0 c0 (execReadyPoint s) := by
  unfold execReadyPoint
  with_reducible repeat' first | assumption | apply State.readyPointActs_held | refine HeldO.next ?_

theorem execReadyRepeat_held {s : State} (hk : Held q0 n0 c0 s) : HeldO q0 n0 c0 (execReadyRepeat s) := by
  unfold execReadyRepeat
  with_reducible repeat' first | assumption | apply State.readyRepeat_held | refine HeldO.next ?_

end Sys2Proof.Machine
end

