-- ==== Sys2Proof/Laws/Shared.lean ====
section
/-!
SUPPORT. What shared operations do, said once: interrupt edges of a row, the end of an array command, the issue of an operation.
-/

namespace Sys2Proof.Machine

/-- The interrupt edge of a physical row leaves every field but the pending bits and the count of merged edges. -/
theorem State.fld_raiseRow (s : State) (b site : Nat) (f : Fld) (i : Nat) (h1 : f.code % 1024 ≠ F.INTC_PEND.code) (h2 : f.code % 1024 ≠ F.INTC_MERGECNT.code) :
    (s.raiseRow b site).fld f i = s.fld f i :=
  State.onlyFields.fld (State.onlyFields_raiseHalf (fs := [F.INTC_PEND, F.INTC_MERGECNT]) (State.onlyFields_refl _ _) (by decide) (by decide)) i (by
    simp only [List.map_cons, List.map_nil, List.mem_cons, List.not_mem_nil, or_false, not_or]; exact ⟨h1, h2⟩)

/-- It leaves every component but the fields and the latches of a stopped controller. -/
theorem State.onlyIn_raiseRow (s : State) (b site : Nat) : s.onlyIn (s.raiseRow b site) [.fields, .irq] :=
  State.onlyIn_raiseHalf (State.onlyIn_refl _ _) (by decide) (by decide)

/-- Equal tables of arrays have equal arrays. -/
theorem State.arr_of_arrays {s t : State} {a : Nat} (h : t.arrays = s.arrays) : t.arr a = s.arr a := by unfold State.arr; rw [h]

/-- Everything the end of an array command does: what `endsCommand` says; the fields it writes; no weight state and no vault value; the array keeps all but its command. -/
theorem State.cmdFinish_effect (s : State) (a op tag code : Nat) (ov : Bool) (hc : code < 256) :
    s.endsCommand (s.cmdFinish a op tag code ov) a op tag code ∧
    s.onlyFields (s.cmdFinish a op tag code ov) [F.ARR_CMD_STAT_RESULT, F.ARR_CMD_STAT_OP, F.ARR_CMD_STAT_TAG, F.ARR_CMD_STAT_OVERFLOW, F.ARR_CMD_STAT_DONE, F.ARR_STATUS_BUSY, F.INTC_PEND, F.INTC_MERGECNT] ∧
    (s.cmdFinish a op tag code ov).wgt = s.wgt ∧ (s.cmdFinish a op tag code ov).vfields = s.vfields ∧
    (s.cmdFinish a op tag code ov).arr a = { s.arr a with cmd := none } := by
  have key : ∀ v : State, v.arrays = s.arrays → v.hamper = s.hamper → v.dram = s.dram → v.cores = s.cores → v.wgt = s.wgt → v.vfields = s.vfields → s.onlyFields v [] →
     let w := (((((v.setArr a { s.arr a with cmd := none }).cmdRefuse a op tag code).setFlag F.ARR_CMD_STAT_OVERFLOW ov a).setFld F.ARR_CMD_STAT_DONE 1 a).setFld F.ARR_STATUS_BUSY 0 a).raiseRow 64 (a / 16)
     s.endsCommand w a op tag code ∧
    s.onlyFields w [F.ARR_CMD_STAT_RESULT, F.ARR_CMD_STAT_OP, F.ARR_CMD_STAT_TAG, F.ARR_CMD_STAT_OVERFLOW, F.ARR_CMD_STAT_DONE, F.ARR_STATUS_BUSY, F.INTC_PEND, F.INTC_MERGECNT] ∧
    w.wgt = s.wgt ∧ w.vfields = s.vfields ∧ w.arr a = { s.arr a with cmd := none } := by
    intro v e1 e2 e3 e4 e5 e6 e7 w
    have hin : ∀ u : State, ∀ p, p ∉ [Part.fields, Part.irq] → p.same u (u.raiseRow 64 (a / 16)) := fun u => State.onlyIn_raiseRow u 64 (a / 16)
    have hr : ∀ (u : State) (f : Fld) (i : Nat), f.code % 1024 ≠ F.INTC_PEND.code → f.code % 1024 ≠ F.INTC_MERGECNT.code → (u.raiseRow 64 (a / 16)).fld f i = u.fld f i :=
      fun u f i => State.fld_raiseRow u 64 (a/16) f i
    refine ⟨⟨?_, ?_, ?_, ?_, ?_, ?_, ?_, ?_⟩, ?_, ?_, ?_, ?_⟩
    · rw [State.arr_of_arrays (hin _ .arrays (by decide))]; simp [State.cmdRefuse]
    · rw [hr _ _ _ (by decide) (by decide)]
      simp (disch := decide) [State.cmdRefuse, State.setFlag, State.fld_setFld_of_code]; first | done | exact Nat.mod_eq_of_lt hc
    · rw [hr _ _ _ (by decide) (by decide)]
      simp (disch := decide) [State.cmdRefuse, State.setFlag, State.fld_setFld_of_code] <;> first | done | rfl
    · rw [hr _ _ _ (by decide) (by decide)]
      simp (disch := decide) [State.cmdRefuse, State.setFlag, State.fld_setFld_of_code] <;> first | done | rfl
    · rw [hr _ _ _ (by decide) (by decide)]
      simp (disch := decide) [State.cmdRefuse, State.setFlag, State.fld_setFld_of_code]
    · rw [hr _ _ _ (by decide) (by decide)]
      simp (disch := decide) [State.cmdRefuse, State.setFlag]
    · intro b hb
      rw [State.arr_of_arrays (hin _ .arrays (by decide))]; simp [State.cmdRefuse, State.arr_setArr_ne _ _ hb]; exact State.arr_of_arrays e1
    · exact ⟨(hin _ .hamper (by decide)).trans e2, (hin _ .dram (by decide)).trans e3, (hin _ .cores (by decide)).trans e4⟩
    · refine State.onlyFields_raiseHalf (State.onlyFields_setFld (State.onlyFields_setFld (State.onlyFields_setFlag (State.onlyFields_setFld (State.onlyFields_setFld (State.onlyFields_setFld (State.onlyFields_setArr ?_) (by decide)) (by decide)) (by decide)) (by decide)) (by decide)) (by decide)) (by decide) (by decide)
      exact fun k _ => e7 k (by simp)
    · exact (hin _ .wgt (by decide)).trans e5
    · exact (hin _ .vfields (by decide)).trans e6
    · rw [State.arr_of_arrays (hin _ .arrays (by decide))]; simp [State.cmdRefuse]
  unfold State.cmdFinish
  cases hs : supplyBound op
  · simp only [Bool.false_eq_true, if_false]
    exact key s rfl rfl rfl rfl rfl rfl (State.onlyFields_refl _ _)
  · simp only [if_true]
    exact key { s with pwr := { s.pwr with vppLast := some s.now } } rfl rfl rfl rfl rfl rfl (State.onlyFields_refl _ _)

/-- With no programming job, no plan that waits and no session in its last state, the end of a command starts nothing. -/
theorem State.weights_quiet (s : State) (h1 : s.wgt.jobs = []) (h2 : s.wgt.planDue = none) (h3 : s.wgt.st ≠ 3) :
    ∃ w, s.planReady.kickJobs.programmedCheck = { s with wgt := w } := by
  have e1 : s.planReady = s := by unfold State.planReady; rw [h2]
  have e2 : s.kickJobs = s := by unfold State.kickJobs; rw [h1]; rfl
  rw [e1, e2]
  unfold State.programmedCheck
  simp [h3, State.onWgt]

/-- What `endsCommand` says does not look at the weight state. -/
theorem State.endsCommand_wgt {s t u : State} {a op tag r : Nat} {w} (h : s.endsCommand t a op tag r) (e : u = { t with wgt := w }) : s.endsCommand u a op tag r := by
  subst e; exact ⟨h.idle, h.result, h.op, h.tag, h.done, h.busy, h.others, h.memory⟩

/-- A command that ends after updates of its own array alone ends from before them. -/
theorem State.endsCommand_after {s t u : State} {a op tag r : Nat} (h : t.endsCommand u a op tag r) (ho : s.onlyArray t a) (hm : t.hamper = s.hamper ∧ t.dram = s.dram ∧ t.cores = s.cores) :
    s.endsCommand u a op tag r :=
  ⟨h.idle, h.result, h.op, h.tag, h.done, h.busy, fun b hb => (h.others b hb).trans (ho b hb), h.memory.1.trans hm.1, h.memory.2.1.trans hm.2.1, h.memory.2.2.trans hm.2.2⟩

/-- Mapping the values of a table maps what a key finds. -/
theorem SMap.find?_map {α : Type} (g : Nat × α → Nat × α) (hg : ∀ e, (g e).1 = e.1) (m : SMap α) (k : Nat) :
    SMap.find? (m.map g) k = (SMap.find? m k).map fun v => (g (k, v)).2 := by
  induction m with
  | nil => rfl
  | cons e m ih =>
    obtain ⟨j, v⟩ := e
    have h1 := hg (j, v)
    rw [List.map_cons]
    rw [show g (j, v) = (j, (g (j, v)).2) from Prod.ext h1 rfl]
    simp only [SMap.find?]
    split
    · next h => subst h; rfl
    · exact ih

/-- A core whose unit queues are empty starts nothing. -/
theorem State.runWaiting_quiet (n : Nat) (s : State) (site : Nat) (r : LegRun) (h : (s.core site).run = some r) (hq : r.queued = []) :
    State.runWaiting n s [site] = s := by
  cases n with
  | zero => rfl
  | succ n =>
    unfold State.runWaiting
    simp only [h, hq, heads, List.filter_nil, List.find?_nil, List.foldl_nil]
    cases n <;> rfl

/-- An operation at the head of its leg, whose unit is ready and which wakes no other core, begins at once when it is issued: all that `issue` does. -/
theorem State.issue_starts (s : State) (core site : Nat) (r : LegRun) (o : Op) (rest : List Op) (e : OpEnv) (h : s.atHead core site r o rest)
    (he : e.words = [])
    (hr : (s.afterIssue site r o rest e).resourceReady site o.kind = true)
    (hw : (s.afterIssue site r o rest e).wakes site o.kind = [])
    (hrun : ∀ d b, ∃ r', (((s.begun site r o rest e d b).startEffect site (issuedOp r o e)).core site).run = some r' ∧ r'.queued = []) :
    ∃ d b, s.issue core o.hdr e o.kind = (s.begun site r o rest e d b).startEffect site (issuedOp r o e) ∧
      (o.kind.endsAlone = true → b = true) ∧ ((∃ arr buf k bank, o.kind = .product arr buf k bank) ∨ (∃ i n, o.kind = .barrier i n) → b = false) := by
  obtain ⟨hp, hrn, hn, hs, hq, hrg, hnw, hns, hnr, hc⟩ := h
  have hcyc : ∀ _ : Nat, (s.afterIssue site r o rest e).cyc = s.cyc := by
    intro _; unfold State.afterIssue; split <;> split <;> rfl
  have hrun0 : ((s.afterIssue site r o rest e).core site).run = some { r with toIssue := rest, queued := [issuedOp r o e], issued := r.issued + 1 } := by
    unfold State.afterIssue State.setRun
    rw [hq]
    cases o.kind <;> simp only [] <;> split <;> simp [State.ctrZero]
  have hiss : s.issue core o.hdr e o.kind = (s.afterIssue site r o rest e).restart site := by
    unfold State.issue
    rw [hp]; simp only [hrn, hn]
    rw [if_pos (by simp [hs, hq])]
    rfl
  have hstart : ∃ d b, (s.afterIssue site r o rest e).startOp site (issuedOp r o e) = (s.begun site r o rest e d b).startEffect site (issuedOp r o e) ∧
      (o.kind.endsAlone = true → b = true) ∧ ((∃ arr buf k bank, o.kind = .product arr buf k bank) ∨ (∃ i n, o.kind = .barrier i n) → b = false) := by
    unfold State.startOp
    rw [hrun0]
    simp only [hnr, hc, issuedOp, he, hrg]
    refine ⟨1000 * o.kind.cycles (match o.kind with
      | .accumulate n _ table => (((s.afterIssue site r o rest e).chainTable site table n).map fun t => (maskArrays t.1).length).sum
      | _ => 0), (o.kind.endsAlone || !(match o.kind with | .memRead n _ _ _ => ((s.afterIssue site r o rest e).streamRec n).isSome | _ => true)), ?_, ?_, ?_⟩
    · simp [State.hamperErrors, State.begun, State.onUnit, issuedOp, hrg, hcyc 0, hnr, hc]; try rfl
    · intro h; simp [h]
    · rintro (⟨a, b, k, n, h⟩ | ⟨i, n, h⟩) <;> simp [h, OpKind.endsAlone]
  obtain ⟨d, b, h1, h2, h3⟩ := hstart
  refine ⟨d, b, ?_, h2, h3⟩
  rw [hiss]
  have key : ∀ fuel : Nat, 0 < fuel → State.runWaiting fuel (s.afterIssue site r o rest e) [site] = (s.begun site r o rest e d b).startEffect site (issuedOp r o e) := by
    intro fuel hfu
    obtain ⟨m, rfl⟩ : ∃ m, fuel = m + 1 := ⟨fuel - 1, by omega⟩
    unfold State.runWaiting
    rw [hrun0]
    have hms : (s.afterIssue site r o rest e).mayStart site { r with toIssue := rest, queued := [issuedOp r o e], issued := r.issued + 1 } (issuedOp r o e) = true := by
      simp [State.mayStart, State.waitHolds, issuedOp, hnr, State.waitMet, hnw, LegRun.unitFree, hrg, State.offsetReached, hns]
    simp only [heads, List.contains_nil, Bool.false_eq_true, if_false, List.filter_cons, hms, if_true, List.filter_nil, List.find?_cons]
    rw [show (issuedOp r o e).op.kind = o.kind from rfl, hr]
    simp only [hw, List.append_nil, List.singleton_append]
    rw [h1]
    rw [show (issuedOp r o e).op.kind = o.kind from rfl, hw]
    obtain ⟨r', h4, h5⟩ := hrun d b
    exact State.runWaiting_quiet _ _ _ _ h4 h5
  exact key _ (by simp)

/-- When it has begun, the queues are empty. -/
theorem State.begun_run (s : State) (site : Nat) (r : LegRun) (o : Op) (rest : List Op) (e : OpEnv) (hq : r.queued = []) (d : Nat) (b : Bool) :
    ∃ r', ((s.begun site r o rest e d b).core site).run = some r' ∧ r'.queued = [] := by
  exact ⟨_, by simp only [State.begun, State.onUnit, State.setRun, State.core_setCore_same]; rfl, rfl⟩

end Sys2Proof.Machine
end

