-- ==== Sys2Proof/Tests/Slice0.lean ====
section
/-!
SUPPORT. The model's tests: ill-formed commands that WellFormed refuses, a witness that the conditions of each statement of
Certificates/Slice0/Obligations.lean can be met, and the worked examples of spec/ run through the model's operations.
-/

open Sys2Proof Sys2Proof.Machine

/-! Ill-formed commands. -/

/-- A management command from a function that does not exist, under tag `k`. -/
def noSender (k : Nat) : Mgmt := { fn := 17, tag := k, pitch := 0, len := 16, aligned := true, readFails := false }

/-- Commands whose register path the part has not. -/
theorem test_wf_refuses_paths :
    (∀ x0 x1, (Instr.registerWrite (.host 17) x0 x1).wf = false) ∧
    (∀ x0, (Instr.rcCounterRead (.host 17) x0).wf = false) ∧
    (∀ x0, (Instr.timeLoRead (.host 17) x0).wf = false) ∧
    (∀ x0, (Instr.tstInject (.host 17) x0).wf = false) ∧
    (∀ x0 x1, (Instr.pitchFieldWrite (.host 17) x0 x1).wf = false) ∧
    ((Instr.apply (.host 17)).wf = false) ∧
    ((Instr.queueEnable (.host 17)).wf = false) ∧
    ((Instr.queueDrain (.host 17)).wf = false) ∧
    (∀ x0, (Instr.retrain (.host 17) x0).wf = false) ∧
    (∀ x0, (Instr.refinWrite (.host 17) x0).wf = false) ∧
    ((Instr.tripTest (.host 17)).wf = false) ∧
    ((Instr.clearAlt (.host 17)).wf = false) ∧
    ((Instr.off (.host 17)).wf = false) ∧
    ((Instr.sysrst (.host 17)).wf = false) ∧
    (∀ x0, (Instr.stateReq (.host 17) x0).wf = false) := by
  and_intros <;> intros <;> rfl

/-- Commands whose array the part has not. -/
theorem test_wf_refuses_arrays :
    (∀ x0, (Instr.enterMaint 20480 x0).wf = false) ∧
    (∀ x0, (Instr.leaveMaint 20480 x0).wf = false) ∧
    (∀ x0, (Instr.erase 20480 x0).wf = false) ∧
    (∀ x0, (Instr.programRows 20480 x0).wf = false) ∧
    (∀ x0, (Instr.refreshRows 20480 x0).wf = false) ∧
    (∀ x0, (Instr.verifyRow 20480 x0).wf = false) ∧
    (∀ x0, (Instr.levelCheck 20480 x0).wf = false) ∧
    (∀ x0, (Instr.refSweep 20480 x0).wf = false) ∧
    (∀ x0, (Instr.writeSide 20480 x0).wf = false) ∧
    (∀ x0, (Instr.exclude 20480 x0).wf = false) ∧
    (∀ x0 x1 x2, (Instr.arrayCommandEnd 20480 x0 x1 x2).wf = false) ∧
    (∀ x0 x1, (Instr.productEnd 20480 x0 x1).wf = false) ∧
    ((Instr.scrubRead 20480).wf = false) ∧
    (∀ x0 x1 x2, (Instr.calibrateArray 20480 x0 x1 x2).wf = false) := by
  and_intros <;> intros <;> rfl

/-- Commands whose core the part has not. -/
theorem test_wf_refuses_cores :
    (∀ x0, (Instr.nop 1200 x0).wf = false) ∧
    (∀ x0 x1, (Instr.resetCtr 1200 x0 x1).wf = false) ∧
    (∀ x0 x1, (Instr.flip 1200 x0 x1).wf = false) ∧
    (∀ x0 x1 x2, (Instr.barrier 1200 x0 x1 x2).wf = false) ∧
    (∀ x0 x1 x2 x3 x4 x5 x6 x7 x8, (Instr.arrayInputLoad 1200 x0 x1 x2 x3 x4 x5 x6 x7 x8).wf = false) ∧
    (∀ x0 x1 x2 x3 x4, (Instr.product 1200 x0 x1 x2 x3 x4).wf = false) ∧
    (∀ x0 x1 x2 x3 x4, (Instr.accumulate 1200 x0 x1 x2 x3 x4).wf = false) ∧
    (∀ x0 x1 x2 x3 x4 x5 x6 x7 x8 x9, (Instr.rotq 1200 x0 x1 x2 x3 x4 x5 x6 x7 x8 x9).wf = false) ∧
    (∀ x0 x1 x2 x3 x4 x5 x6 x7 x8, (Instr.matmul 1200 x0 x1 x2 x3 x4 x5 x6 x7 x8).wf = false) ∧
    (∀ x0 x1 x2 x3 x4 x5 x6 x7, (Instr.vecAdd 1200 x0 x1 x2 x3 x4 x5 x6 x7).wf = false) ∧
    (∀ x0 x1 x2 x3 x4 x5 x6 x7, (Instr.vecSubtract 1200 x0 x1 x2 x3 x4 x5 x6 x7).wf = false) ∧
    (∀ x0 x1 x2 x3 x4 x5 x6 x7, (Instr.vecMultiply 1200 x0 x1 x2 x3 x4 x5 x6 x7).wf = false) ∧
    (∀ x0 x1 x2 x3 x4 x5 x6 x7, (Instr.vecFma 1200 x0 x1 x2 x3 x4 x5 x6 x7).wf = false) ∧
    (∀ x0 x1 x2 x3 x4 x5 x6 x7, (Instr.vecMinimum 1200 x0 x1 x2 x3 x4 x5 x6 x7).wf = false) ∧
    (∀ x0 x1 x2 x3 x4 x5 x6 x7, (Instr.vecMaximum 1200 x0 x1 x2 x3 x4 x5 x6 x7).wf = false) ∧
    (∀ x0 x1 x2 x3 x4 x5 x6 x7, (Instr.vecScale 1200 x0 x1 x2 x3 x4 x5 x6 x7).wf = false) ∧
    (∀ x0 x1 x2 x3 x4 x5 x6 x7, (Instr.vecCompare 1200 x0 x1 x2 x3 x4 x5 x6 x7).wf = false) ∧
    (∀ x0 x1 x2 x3 x4 x5 x6 x7, (Instr.vecSelect 1200 x0 x1 x2 x3 x4 x5 x6 x7).wf = false) ∧
    (∀ x0 x1 x2 x3 x4 x5 x6 x7, (Instr.vecConvert 1200 x0 x1 x2 x3 x4 x5 x6 x7).wf = false) ∧
    (∀ x0 x1 x2 x3 x4 x5 x6 x7, (Instr.vecReciprocal 1200 x0 x1 x2 x3 x4 x5 x6 x7).wf = false) ∧
    (∀ x0 x1 x2 x3 x4 x5 x6 x7, (Instr.vecRsqrt 1200 x0 x1 x2 x3 x4 x5 x6 x7).wf = false) ∧
    (∀ x0 x1 x2 x3 x4 x5 x6 x7, (Instr.vecExp2 1200 x0 x1 x2 x3 x4 x5 x6 x7).wf = false) ∧
    (∀ x0 x1 x2 x3 x4 x5 x6 x7, (Instr.vecLog2 1200 x0 x1 x2 x3 x4 x5 x6 x7).wf = false) ∧
    (∀ x0 x1 x2 x3 x4 x5 x6 x7, (Instr.vecSum 1200 x0 x1 x2 x3 x4 x5 x6 x7).wf = false) ∧
    (∀ x0 x1 x2 x3 x4 x5 x6 x7, (Instr.vecMaxReduction 1200 x0 x1 x2 x3 x4 x5 x6 x7).wf = false) ∧
    (∀ x0 x1 x2 x3 x4 x5 x6 x7, (Instr.vecTopK 1200 x0 x1 x2 x3 x4 x5 x6 x7).wf = false) ∧
    (∀ x0 x1 x2 x3 x4 x5 x6, (Instr.send 1200 x0 x1 x2 x3 x4 x5 x6).wf = false) ∧
    (∀ x0 x1 x2 x3 x4 x5, (Instr.memRead 1200 x0 x1 x2 x3 x4 x5).wf = false) ∧
    (∀ x0 x1 x2 x3 x4 x5, (Instr.memWrite 1200 x0 x1 x2 x3 x4 x5).wf = false) ∧
    (∀ x0 x1 x2 x3 x4 x5 x6 x7 x8 x9, (Instr.portSend 1200 x0 x1 x2 x3 x4 x5 x6 x7 x8 x9).wf = false) ∧
    (∀ x0, (Instr.operationComplete 1200 x0).wf = false) ∧
    (∀ x0 x1 x2 x3, (Instr.remoteIncrement 1200 x0 x1 x2 x3).wf = false) ∧
    (∀ x0, (Instr.gatherFlushIdle 1200 x0).wf = false) ∧
    ((Instr.legStart 1200).wf = false) ∧
    ((Instr.legEnd 1200).wf = false) ∧
    ((Instr.legOverrunStop 1200).wf = false) ∧
    ((Instr.coreProgramStart 1200).wf = false) ∧
    (∀ x0 x1 x2 x3 x4, (Instr.replayRequest x0 x1 x2 1200 x3 x4).wf = false) ∧
    ((Instr.replayRun 1200).wf = false) ∧
    (∀ x0 x1 x2 x3 x4 x5, (Instr.replayOutput x0 x1 1200 x2 x3 x4 x5).wf = false) ∧
    (∀ x0 x1 x2, (Instr.replayRefuse x0 x1 1200 x2).wf = false) ∧
    (∀ x0 x1, (Instr.suppressed x0 1200 x1).wf = false) ∧
    (∀ x0, (Instr.replayGiveUp 1200 x0).wf = false) := by
  and_intros <;> intros <;> rfl

/-- Commands whose unit index the part has not. -/
theorem test_wf_refuses_indices :
    (∀ x0 x1 x2, (Instr.remoteIncrement 0 64 x0 x1 x2).wf = false) ∧
    (∀ x0 x1, (Instr.cribFill 0 4 x0 x1).wf = false) ∧
    (∀ x0, (Instr.cribFill 0 0 16 x0).wf = false) ∧
    ((Instr.cribFill 0 0 0 16).wf = false) ∧
    ((Instr.cribDrop 0 4).wf = false) ∧
    ((Instr.zeroingComplete 320).wf = false) ∧
    ((Instr.chunkVerify 1224).wf = false) ∧
    ((Instr.submit 1024).wf = false) ∧
    (∀ x0 x1 x2 x3, (Instr.register 16 x0 x1 x2 x3).wf = false) ∧
    (∀ x0, (Instr.partnerTimeout 16 x0).wf = false) ∧
    (∀ x0, (Instr.cancelMessage 16 x0).wf = false) ∧
    ((Instr.bindingSelection 16).wf = false) ∧
    (∀ x0 x1 x2, (Instr.bindingNotice 16 x0 x1 x2).wf = false) ∧
    (∀ x0 x1, (Instr.exitReport 16 x0 x1).wf = false) ∧
    ((Instr.waymarkMover 16).wf = false) ∧
    ((Instr.heldCompletionWrite 1024).wf = false) ∧
    (∀ x0 x1, (Instr.promptFetch 16 x0 x1).wf = false) ∧
    (∀ x0, (Instr.msixUnmask 17 x0).wf = false) ∧
    ((Instr.msixUnmask 16 2048).wf = false) ∧
    ((Instr.functionLevelReset 17).wf = false) ∧
    (∀ x0 x1, (Instr.busMasterEnableChange 17 x0 x1).wf = false) ∧
    (∀ x0, (Instr.interruptEdge 2 x0).wf = false) ∧
    ((Instr.interruptEdge 0 1024).wf = false) ∧
    (∀ x0, (Instr.intcClaim 2 x0).wf = false) ∧
    ((Instr.intcClaim 0 4).wf = false) ∧
    (∀ x0 x1, (Instr.intcComplete 2 x0 x1).wf = false) ∧
    (∀ x0, (Instr.intcComplete 0 4 x0).wf = false) ∧
    (∀ x0, (Instr.fwclkStop 2 x0).wf = false) ∧
    ((Instr.fwclkWake 2).wf = false) ∧
    ((Instr.kernelTick 8).wf = false) ∧
    ((Instr.watchdogExpiry 8).wf = false) ∧
    (∀ x0, (Instr.rangerDown 8 x0).wf = false) ∧
    ((Instr.rangerDown 0 1).wf = false) ∧
    ((Instr.rangerDown 0 5).wf = false) ∧
    ((Instr.rangerTakeover 8).wf = false) ∧
    ((Instr.rangerUp 8).wf = false) ∧
    ((Instr.leadershipClaim 2).wf = false) ∧
    (∀ x0, (Instr.leadershipRefresh 2 x0).wf = false) ∧
    (∀ x0, (Instr.portLinkDown 32 x0).wf = false) ∧
    ((Instr.portUp 32).wf = false) ∧
    ((Instr.retrain .smbus 32).wf = false) ∧
    (∀ x0, (Instr.fabricFrameReceived 32 x0).wf = false) ∧
    (∀ x0 x1, (Instr.xonResume 32 x0 x1).wf = false) ∧
    ((Instr.pauseRepeat 32).wf = false) ∧
    ((Instr.heldValueStale 16).wf = false) ∧
    (∀ x0, (Instr.regionTrimAdjust 8 x0).wf = false) ∧
    ((Instr.lockoutEnd 17).wf = false) ∧
    ((Instr.nonceExpiry 17).wf = false) ∧
    (∀ x0, (Instr.pauseTimeExpiry 32 x0).wf = false) ∧
    ((Instr.pauseTimeExpiry 0 4).wf = false) := by
  and_intros <;> intros <;> rfl

/-- Commands whose site the part has not. -/
theorem test_wf_refuses_sites :
    (∀ x0 x1 x2, (Instr.cribFill 1280 x0 x1 x2).wf = false) ∧
    (∀ x0 x1, (Instr.cribFillEnd 1280 x0 x1).wf = false) ∧
    (∀ x0, (Instr.cribDrop 1280 x0).wf = false) ∧
    ((Instr.tstInject .smbus 1280).wf = false) ∧
    ((Instr.coreClear 1280).wf = false) ∧
    ((Instr.coreClearComplete 1280).wf = false) := by
  and_intros <;> intros <;> rfl

/-- Commands whose sender the part has not. -/
theorem test_wf_refuses_senders :
    (∀ k x0 x1, (Instr.load (noSender k) x0 x1).wf = false) ∧
    (∀ k, (Instr.unload (noSender k)).wf = false) ∧
    (∀ k x0, (Instr.start (noSender k) x0).wf = false) ∧
    (∀ k, (Instr.stop (noSender k)).wf = false) ∧
    (∀ k, (Instr.cancelLoad (noSender k)).wf = false) ∧
    (∀ k, (Instr.clearFrameCounters (noSender k)).wf = false) ∧
    (∀ k, (Instr.readFrameState (noSender k)).wf = false) ∧
    (∀ k x0, (Instr.cancel (noSender k) x0).wf = false) ∧
    (∀ k x0 x1 x2, (Instr.setRation (noSender k) x0 x1 x2).wf = false) ∧
    (∀ k x0, (Instr.readRation (noSender k) x0).wf = false) ∧
    (∀ k x0, (Instr.releaseWaymark (noSender k) x0).wf = false) ∧
    (∀ k x0 x1 x2 x3, (Instr.setServing (noSender k) x0 x1 x2 x3).wf = false) ∧
    (∀ k, (Instr.readServing (noSender k)).wf = false) ∧
    (∀ k, (Instr.clearServingCounters (noSender k)).wf = false) ∧
    (∀ k x0 x1, (Instr.setTime (noSender k) x0 x1).wf = false) ∧
    (∀ k x0 x1, (Instr.relayPiece (noSender k) x0 x1).wf = false) ∧
    (∀ k, (Instr.readRelayStatus (noSender k)).wf = false) ∧
    (∀ k x0, (Instr.readMaskedMap (noSender k) x0).wf = false) ∧
    (∀ k x0 x1, (Instr.readHistory (noSender k) x0 x1).wf = false) ∧
    (∀ k, (Instr.roleChallenge (noSender k)).wf = false) ∧
    (∀ k x0 x1 x2, (Instr.roleAssume (noSender k) x0 x1 x2).wf = false) ∧
    (∀ k, (Instr.roleRelease (noSender k)).wf = false) ∧
    (∀ k x0 x1 x2 x3, (Instr.keySet (noSender k) x0 x1 x2 x3).wf = false) ∧
    (∀ k x0 x1, (Instr.keyRemove (noSender k) x0 x1).wf = false) ∧
    (∀ k x0 x1, (Instr.pubkeySet (noSender k) x0 x1).wf = false) ∧
    (∀ k x0, (Instr.pubkeyRemove (noSender k) x0).wf = false) ∧
    (∀ k x0, (Instr.lock (noSender k) x0).wf = false) ∧
    (∀ k x0, (Instr.readAudit (noSender k) x0).wf = false) ∧
    (∀ k, (Instr.readKeys (noSender k)).wf = false) ∧
    (∀ k x0 x1, (Instr.updateBegin (noSender k) x0 x1).wf = false) ∧
    (∀ k x0 x1, (Instr.updateData (noSender k) x0 x1).wf = false) ∧
    (∀ k, (Instr.updateEnd (noSender k)).wf = false) ∧
    (∀ k, (Instr.updateAbort (noSender k)).wf = false) ∧
    (∀ k x0 x1, (Instr.activate (noSender k) x0 x1).wf = false) ∧
    (∀ k x0, (Instr.confirm (noSender k) x0).wf = false) ∧
    (∀ k, (Instr.readUpdate (noSender k)).wf = false) ∧
    (∀ k, (Instr.diagUnlock (noSender k)).wf = false) := by
  and_intros <;> intros <;> rfl

/-- Commands that carry a list, an option or a record with a unit the part has not. -/
theorem test_wf_refuses_parts :
    (∀ x y, (Instr.patrolScrub x [(320, y)]).wf = false) ∧
    (∀ c x y z, (Instr.pageCopy 16 c x y z).wf = false) ∧
    (∀ x y z, (Instr.pageCopy 0 1048576 x y z).wf = false) ∧
    (∀ x y, (Instr.pageCopy 0 0 x y (some 2)).wf = false) ∧
    (∀ t h b, (Instr.doorbellPoll [⟨1024, t, h, b⟩]).wf = false) ∧
    (∀ x y, (Instr.mgmtCommandPoll [(17, x)] y).wf = false) ∧
    (∀ k x, (Instr.mgmtCommandPoll [] (some (noSender k, x))).wf = false) ∧
    (∀ q, (Instr.pfcPauseReceived 32 q).wf = false) ∧
    (∀ x, (Instr.pfcPauseReceived 0 [(4, x)]).wf = false) ∧
    (∀ x y l a b c, (Instr.bootStepEnd x y [⟨20480, l, a, b, c⟩]).wf = false) ∧
    (∀ x, (Instr.pmbusPoll [(7, x)]).wf = false) ∧
    (∀ x, (Instr.pmAlert [(7, x)]).wf = false) ∧
    (∀ k, (Instr.completionTimeout (.submission 1024) k).wf = false) ∧
    (∀ x k, (Instr.completionTimeout (.prompt 16 x) k).wf = false) := by
  and_intros <;> intros <;> rfl

/-- A record outside the flash, and one longer than a record. -/
theorem test_wf_refuses_records :
    (∀ n r, (Instr.atomicRecordWrite 134217729 [] n r).wf = false) ∧
    (∀ n r, (Instr.atomicRecordWrite 0 (List.replicate 257 0) n r).wf = false) := by
  and_intros <;> intros <;> simp only [Instr.wf, List.length_nil, List.length_replicate] <;> decide

/-! The conditions of the statements, in their order. -/

/-- The premises of `IdleStepRunsTheClock` are met. -/
theorem witness_idleStep : State.reset.pending = [] ∧ State.reset.canonical = true := by decide

/-- The premises of `WellFormedCommandsComplete` are met. -/
theorem witness_wellFormed : (Instr.erase 7 1).wf = true ∧ State.reset.canonical = true := by decide

/-- A command of each side of `OnlyIllFormedCommandsStop`. -/
theorem witness_illFormed : (Instr.erase 20480 1).wf = false ∧ (Instr.erase 20479 1).wf = true := by decide

/-- The premise of `SoundStatesStep` is met, with a command waiting. -/
theorem witness_sound : (State.reset.withPending [.erase 7 1]).sound = true := by decide

/-- The premise of `ResetIsSound` is met. -/
theorem witness_resetSound : [Instr.powerOn, .erase 7 1].all Instr.wf = true := by decide

/-- An array in MAINT with one row named, VPP_ARR in regulation. -/
def maintState : State := ((State.reset.setFld F.ARR_STATUS_MODE modeMaint 7).setFld F.ARR_CMD_ARG0_COUNT 1 7).setFld F.PWR_STATUS_VPP_ON 1

/-- The premises of `ArrayCommandsStart` are met, but for the block of WRITE_SIDE. -/
theorem witness_arrayCommandsStart :
    maintState.flag F.ARR_STATUS_BUSY 7 = false ∧ maintState.filling 7 = false ∧ maintState.mode 7 = modeMaint ∧ maintState.supplyCount < 64 ∧
      maintState.flag F.PWR_STATUS_VPP_ON = true ∧ maintState.argsOk 7 4 = true ∧ maintState.argsOk 7 5 = true ∧ maintState.argsOk 7 6 = true := by
  decide

/-- The premises of `ArrayModeCommandsTakeEffect` are met, for each of its clauses. -/
theorem witness_arrayModes :
    (State.reset.setFld F.ARR_STATUS_MODE modeMaint 7).flag F.ARR_STATUS_BUSY 7 = false ∧ (State.reset.setFld F.ARR_STATUS_MODE modeMaint 7).filling 7 = false ∧
      ((State.reset.setFld F.ARR_STATUS_MODE modeMaint 7).arr 7).prod = none ∧ (State.reset.setFld F.ARR_STATUS_MODE modeMaint 7).mode 7 = modeMaint ∧
      ((State.reset.setFld F.ARR_STATUS_MODE modeMaint 7).setFld F.ARR_STATUS_SIDE_STALE 0 7).flag F.ARR_STATUS_SIDE_STALE 7 = false := by
  decide

/-- An array on which a command runs. -/
def runningState (op : Nat) : State :=
  State.reset.setArr 7 { ArrSt.init with cmd := some { op := op, tag := 5, row := 0, count := 1, haddr := 0, data := [], start := 0, abort := false } }

/-- The premises of `ArrayCommandsEnd` are met. -/
theorem witness_arrayCommandsEnd :
    (∀ op, ((runningState op).arr 7).cmd = some { op := op, tag := 5, row := 0, count := 1, haddr := 0, data := [], start := 0, abort := false }) ∧
      (runningState 3).wgt.jobs = [] ∧ (runningState 3).wgt.planDue = none ∧ (runningState 3).wgt.st ≠ 3 := by
  refine ⟨fun op => ?_, by decide, by decide, by decide⟩
  rw [runningState, State.arr_setArr_same]

/-- A leg that holds nothing yet. -/
def idleRun : LegRun :=
  { idx := 0, leg := ⟨⟨1, 0, 0, 0, 0, none, 0⟩, []⟩, start := 0, toIssue := [], queued := [], running := [], prods := [], taste := none,
    cause := 0, noReplay := false, late := false, issued := 0, replay := none, captured := [] }

/-- A header with no wait, no increment and no start. -/
def plainHdr : OpHdr := ⟨none, 0, none, 0, none⟩

/-- Site 0, whose core's leg is about to issue one operation. -/
def headState (k : OpKind) : State :=
  (State.reset.setFld F.CORE_STATUS_SEQ seqRun 0).setCore 0 { CoreSt.init with run := some { idleRun with toIssue := [⟨plainHdr, k⟩] } }

/-- The state meets `atHead` for any operation. -/
theorem witness_atHead (k : OpKind) : (headState k).atHead 0 0 { idleRun with toIssue := [⟨plainHdr, k⟩] } ⟨plainHdr, k⟩ [] :=
  { place := (by decide : (State.reset.setFld F.CORE_STATUS_SEQ seqRun 0).coreSite 0 = some 0), run := by simp [headState], next := rfl,
    seq := (by decide : (State.reset.setFld F.CORE_STATUS_SEQ seqRun 0).fld F.CORE_STATUS_SEQ 0 = seqRun), queued := rfl, running := rfl, noWait := rfl,
    noStart := rfl, notReplay := rfl, notSuspect := rfl }

/-- The further premises of `CoreOperationsStart`: a barrier's first arrival, a load of free buffers, a product whose buffer is full on a
serving array, an accumulation without chains. -/
theorem witness_coreOperations :
    (headState (.barrier 5 2)).siteCore 0 = some 0 ∧ (headState (.barrier 5 2)).net.barriers = [] ∧
      (headState (.load 1 .fp4 0 0 512 528 32)).resourceReady 0 (.load 1 .fp4 0 0 512 528 32) = true ∧
      ((headState (.product 0 0 1 0)).setFld F.ARR_STATUS_MODE modeMaint 0).mode 0 ≠ modeServe ∧
      (((headState (.product 0 0 1 0)).setFld F.ARR_STATUS_MODE modeServe 0).setArr 0 (ArrSt.init.setInBuf 0 { full := true, fmt := .fp4, elems := [], offs := [], bref := 0, nan := false })).resourceReady 0 (.product 0 0 1 0) = true ∧
      (((headState (.product 0 0 1 0)).setFld F.ARR_STATUS_MODE modeServe 0).mode 0 = modeServe) ∧
      (headState (.accumulate 0 false 0)).resourceReady 0 (.accumulate 0 false 0) = true := by
  decide

/-- An itinerary with one stream and nothing else. -/
def streamItin : Itin :=
  { itinId := 1, imageId := [], tNomUs := 50, clockMhz := 2000, kvLayoutId := 0, drain := false, shares := [], envs := [], ports := [],
    streams := [⟨3, 0, 0, 17, 0, 1, 1⟩], slots := [], rests := [], units := [], pitches := [], kv := [] }

/-- The stream premise of `UnitOperationsStart` is met in a state of `atHead`. -/
theorem witness_unitOperations :
    let s := { headState (.memRead 3 0 544 0) with frame := { State.reset.frame with active := some streamItin } }
    s.atHead 0 0 { idleRun with toIssue := [⟨plainHdr, .memRead 3 0 544 0⟩] } ⟨plainHdr, .memRead 3 0 544 0⟩ [] ∧ (s.streamRec 3).isSome = true :=
  ⟨{ place := by decide, run := by simp [headState, State.core, State.setCore], next := rfl, seq := by decide, queued := rfl, running := rfl, noWait := rfl,
     noStart := rfl, notReplay := rfl, notSuspect := rfl }, by decide⟩

/-- The premises of `HamperWritesReadBack` are met, by 70 bytes across two lines at the end of the hamper. -/
theorem witness_hamperWrites : (State.reset.core 3).gather = [] ∧ 393146 + (List.replicate 70 (5 : Byte)).length ≤ hamperSize := by decide

/-- Site 0 runs a leg with one operation whose time has passed, and a send to it is on its way. -/
def legState : State :=
  { ((State.reset.setFld F.NET_PITCH_RECT_ENABLE 1 0).setFld F.CORE_STATUS_CLEARING 0 0).setCore 0 { CoreSt.init with run := some { idleRun with
      running := [{ issuedOp idleRun ⟨⟨none, 0, some 4, 7, none⟩, .nop⟩ .quiet with done := true }] } } with
    net := { State.reset.net with transfers := [{ core := 0, pitch := 0, addr := 64, data := [9], ctr := some 3, frame := 0, bad := false, memRead := false }] } }

/-- The premises of `CompletionsReachTheCore` are met, clause by clause. -/
theorem witness_completions :
    legState.coreSite 0 = some 0 ∧ legState.unitsQuiet 0 ∧
      ((legState.core 0).run.bind fun r => r.running.find? fun q => q.idx == 0).any (fun q => q.done && q.start + q.dur ≤ legState.cyc) = true ∧
      legState.clearing 0 = false ∧ legState.corePitch 0 = some 0 ∧ legState.frame.number = 0 := by
  refine ⟨by decide, ?_, by decide, by decide, by decide, by decide⟩
  intro r h
  rw [show (legState.core 0).run = some { idleRun with running := [{ issuedOp idleRun ⟨⟨none, 0, some 4, 7, none⟩, .nop⟩ .quiet with done := true }] } from by decide] at h
  cases h; rfl

/-- A leg of core 0 that starts at once. -/
def shortLeg : Leg := ⟨⟨1, 0, 10, 0, 0, none, 0⟩, [⟨plainHdr, .nop⟩]⟩

/-- A running frame in which core 0 has one leg. -/
def armedState : State :=
  { (State.reset.setFld F.CORE_STATUS_SEQ seqArmed 0).setFld F.CORE_STATUS_CLEARING 0 0 with
    frame := { State.reset.frame with st := .running, active := some { streamItin with shares := [{ core := 0, legs := [shortLeg] }] } } }

/-- The premises of `LegsStartAndEnd` are met, for a leg that starts, one that has drained and one that is stopped. -/
theorem witness_legs :
    armedState.coreSite 0 = some 0 ∧ armedState.frame.st = .running ∧ (armedState.core 0).run = none ∧ armedState.fld F.CORE_STATUS_SEQ 0 = seqArmed ∧
      armedState.clearing 0 = false ∧ (armedState.legsOf 0)[(armedState.core 0).nextLeg]? = some shortLeg ∧ 1000 * shortLeg.hdr.start ≤ armedState.sinceBoundary ∧
      ((armedState.setFld F.CORE_STATUS_SEQ seqDrain 0).setRun 0 (some idleRun)).fld F.CORE_STATUS_SEQ 0 = seqDrain ∧
      (({ armedState with cyc := 25600000 } : State).setRun 0 (some idleRun)).cyc = idleRun.start + 25600000 := by
  decide

/-- An array whose product has lasted long enough. -/
def productState : State :=
  State.reset.setArr 3 { ArrSt.init with prod := some { buf := 0, k := 1, bank := 0, start := 0, dur := 0, refused := false } }

/-- The premises of `ProductEnds` are met. -/
theorem witness_productEnd :
    ((productState.arr 3).prod.map fun p => p.start + p.dur) = some productState.cyc ∧ ((productState.arr 3).out0.full && (productState.arr 3).out1.full) = false ∧
    ((productState.setArr 3 { productState.arr 3 with out0 := { OutBank.empty with full := true }, out1 := { OutBank.empty with full := true } }).arr 3).out1.full = true ∧
      (productState.core 0).run = none := by decide

/-- The premises of `ProductsAreExact` are met by 32 rows at the ends of each format. -/
theorem witness_exact :
    (List.replicate 32 (5, (-8 : Int))).length = 32 ∧ (∀ r ∈ List.replicate 32 (5, (-8 : Int)), -8 ≤ r.2 ∧ r.2 ≤ 7) ∧
      (∀ r ∈ List.replicate 32 (5, (12 : Int)), -12 ≤ r.2 ∧ r.2 ≤ 12) ∧ ∀ d ∈ [0, 7], d ≤ 7 := by decide

/-- A leg of replay unit 1, for slots 2 and 3. -/
def unitLeg : Leg := ⟨⟨1, 0, 10, 2, 2, some 1, 0⟩, [⟨plainHdr, .nop⟩]⟩

/-- A running frame whose itinerary has that leg on core 0 and its unit in group 6; the part leads. -/
def replayState : State :=
  { ((armedState.setFld F.RGR_LATCH_HOLDER 1).setFld F.NET_PITCH_RECT_ENABLE 1 0).setFld F.PRT_ROLE_WHISTLE 1 with
    frame := { armedState.frame with
      active := some { streamItin with shares := [{ core := 0, legs := [unitLeg] }], units := [⟨1, 6, [(0, 0)]⟩] }
      reports := [⟨0, 0, 0, 1, false, false, []⟩], endedLegs := [(0, 0)], tNom := 50000 } }

/-- The same with partner 9 for group 6, what part 9 was asked and asks, and core 0 past its legs. -/
def askedState : State :=
  { replayState.setCore 0 { CoreSt.init with nextLeg := 1 } with
    mgr := { replayState.mgr with
      map := [(6, 9)], asked := [⟨0, 0, 0, 9, false, false, none⟩], replaying := [⟨9, 0, 0, 0, [], false, false⟩] } }

/-- The premises of `SuspectLegsAreReplayed` are met: of the report (with and without a partner), the request, the run and the results. -/
theorem witness_replay :
    replayState.coreSite 0 = some 0 ∧ replayState.legAt 0 0 = some unitLeg ∧ replayState.fld F.RGR_LATCH_HOLDER ≠ 0 ∧
      replayState.notReplayable ⟨0, 0, 0, 1, false, false, []⟩ unitLeg = true ∧ askedState.notReplayable ⟨0, 0, 0, 1, false, false, []⟩ unitLeg = false ∧
      askedState.partnerOf unitLeg = some 9 ∧ unitLeg.hdr.unit.bind askedState.unitGroup = some 6 ∧ replayState.replayRefusal 0 6 0 0 = none ∧
      replayState.replayRefusal 0 5 0 0 = some 2 := by decide

/-- And of the run, the output, the refusal and the end of waiting. -/
theorem witness_replayResults :
    (askedState.core 0).run = none ∧ (askedState.legsOf 0).length ≤ (askedState.core 0).nextLeg ∧ askedState.clearing 0 = false ∧
      askedState.arraysTaken 0 unitLeg = false ∧ (askedState.openAsked 0 0).map (·.partner) = some 9 ∧ askedState.frameNs < askedState.replayLimit ∧
      askedState.frame.endedLegs.contains (0, 0) = true ∧ ({ askedState with now := 52500 } : State).replayLimit = 52500 := by decide

/-- A whistling manager whose domain has part 9 at entry 0, T_nom past, with a request bound that shares a pipeline with part 9. -/
def listState : State :=
  { ((((State.reset.setFld F.PRT_ROLE_WHISTLE 1).setFld F.PRT_DOM_DATA_VALID 1 0).setFld F.PRT_DOM_DATA_PART 9 0).setFld F.PRT_MGRSTATE_WMGR 9).setFld F.PRT_MGRSTATE_RMGR 9 with
    frame := { State.reset.frame with st := .running, number := 1 }
    mgr := { State.reset.mgr with listSent := true, lastBinds := [(0, 5, 77)] }
    serve := [(0, { ServeSt.init with pipeline := [9] })] }

/-- A part at entry 0 is found there. -/
theorem entryOf_first {s : State} {part : Nat} (hv : s.flag F.PRT_DOM_DATA_VALID 0 = true) (hp : s.entryPart 0 = part) : s.entryOf part = some 0 := by
  unfold State.entryOf State.entries
  rw [show domainSize = 4095 + 1 from rfl, List.range_succ_eq_map, List.filter_cons_of_pos hv, List.find?_cons, hp]
  simp

/-- The premises of `WithheldListsTravel` are met, clause by clause. -/
theorem witness_lists :
    listState.isWhistle = true ∧ listState.entryOf 9 = some 0 ∧ listState.frame.tNom ≤ listState.frameNs ∧ listState.accepts listState.whistleMgr 9 0 ∧
      listState.accepts listState.rackMgr 9 0 ∧ listState.mgr.listSent = true ∧ listState.mgr.acks.contains 0 = false ∧ 0 + 1 = listState.frame.number ∧
      (listState.srv 0).pipeline.contains 9 = true ∧ [5].contains 5 ≠ listState.mgr.withheldLast.contains 5 := by
  exact ⟨by decide, entryOf_first (by decide) (by decide), by decide, ⟨by decide, by decide, by decide⟩, ⟨by decide, by decide, by decide⟩, by decide, by decide,
    by decide, by decide, by decide⟩

/-- Array 0 of site 0 in MAINT, no crib command running, function 1 holding the maker role. -/
def cribState : State :=
  (((State.reset.setFld F.TST_CRIB_STAT_DONE 1 0).setFld F.ARR_STATUS_MODE modeMaint 0).setFld F.SEC_FN_ROLE_ROLE 3 1).setWin 0 { WinSt.init with ready := true }

/-- The premises of `CribCommands` are met, but for the running fill. -/
theorem witness_crib :
    cribState.flag F.TST_CRIB_STAT_DONE 0 = true ∧ cribState.mode (16 * 0 + 0) = modeMaint ∧ cribState.flag F.ARR_STATUS_BUSY (16 * 0 + 0) = false ∧
      cribState.slotBusy 0 3 = false ∧ cribState.barOpen = true ∧ roleMkr ≤ cribState.roleOf 1 ∧ cribState.roleOf 16 < roleMkr := by decide

/-- A fill of slot 2 that has lasted 102.4 µs. -/
theorem witness_cribFill :
    let s : State := { cribState.setCore 0 { CoreSt.init with fill := some ⟨2, 0, 15, 0⟩ } with now := 102400 }
    (s.core 0).fill = some ⟨2, 0, 15, 0⟩ ∧ 0 + (s.arr (16 * 0 + 0)).fillNs ≤ s.now := by decide

/-- The premises of `CoresClear` are met: after reset every core is to be cleared. -/
theorem witness_clear :
    State.reset.clearing 1279 = true ∧ (State.reset.core 1279).clearStart = none ∧
      (({ State.reset with cyc := 1024000 } : State).setCore 5 { CoreSt.init with clearStart := some 0 }).cyc = 0 + 1024000 := by decide

/-- The premises of `HostWritesSetFields` are met by the low word of a doorbell base, written by function 0. -/
theorem witness_hostWrite :
    (findReg (.host 0) 0x3018).map (fun q => (q.1, q.2.1, q.2.2.1.flds)) = some (.hif, 0, [F.HIF_FN_DBBASE_LO_ADDR]) ∧
      F.HIF_FN_DBBASE_LO_ADDR.rep = 1 ∧ F.HIF_FN_DBBASE_LO_ADDR.access = .rw ∧ F.HIF_FN_DBBASE_LO_ADDR.own = false ∧
      F.HIF_FN_DBBASE_LO_ADDR.store = .plain ∧ F.HIF_FN_DBBASE_LO_ADDR.role = .opr ∧ State.reset.writable F.HIF_FN_DBBASE_LO_ADDR 0 = true ∧
      (State.reset.setWin 0 { WinSt.init with ready := true }).barOpen = true ∧ State.reset.barOpen = false ∧ findReg (.host 0) 0x3002 = none ∧
      bitsAt 0x40 F.HIF_FN_DBBASE_LO_ADDR.lo F.HIF_FN_DBBASE_LO_ADDR.width ≠ State.reset.fld F.HIF_FN_DBBASE_LO_ADDR 0 := by decide

/-- The premises of `WritesWithoutRoleChangeNothing` are met. -/
theorem witness_noRole :
    State.reset.roleOf 16 = 0 ∧ (findReg .smbus 0x3000).map (fun q => q.2.2.1.isSel) = some false ∧ findReg .firmware 0x1001 = none := by decide

/-- The premises of `ReadsWithSideEffects` are met, by a stack's corrected-error counter; and there are states that are Off. -/
theorem witness_counterRead :
    (findReg (.host 0) 0x2014).map (fun q => (q.1, q.2.1, q.2.2.1.flds.map fun f => f.access)) = some (.mem, 0, [.rc]) ∧ (Path.host 16).ok = true ∧
      State.reset.pathOff .smbus = false ∧ (State.reset.setWin 0 { WinSt.init with ready := true }).pathOff (.host 16) = false ∧ State.reset.pathOff (.host 0) = true ∧
      (State.reset.setFld F.PWR_STATUS_STATE 3).pathOff .smbus = true := by decide

/-- A command of the physical function with a payload of 16 bytes. -/
def pfCmd : Mgmt := { fn := 0, tag := 7, pitch := 0, len := 16, aligned := true, readFails := false }

/-- West leads, the physical function's window is open and the function holds the maker role. -/
def hostState : State :=
  ((State.reset.setFld F.RGR_LATCH_HOLDER 1).setFld F.SEC_FN_ROLE_ROLE 3 0).setWin 0 { WinSt.init with ready := true }

/-- The premises of `MgmtCommandsMeetCommonResults` are met: a window that is closed, and a command refused for its role. -/
theorem witness_mgmt :
    State.reset.nothingWaits ∧ State.reset.takes 0 = false ∧ hostState.takes 0 = true ∧
      (hostState.setFld F.SEC_FN_ROLE_ROLE 0 0).common pfCmd (partCmd 0x21 roleIns) = some 0xF3 ∧
      hostState.ruleOf (.unload pfCmd) = some (pfCmd, partCmd 0x21 roleIns, 0) := ⟨⟨rfl, rfl, rfl⟩, by decide, by decide, by decide, rfl⟩

/-- The same with an itinerary loaded and the part HALTED. -/
def haltedState : State := { hostState with frame := { hostState.frame with st := .halted, active := some streamItin } }

/-- The premises of `ItinerariesLoad` are met: commands taken, states that allow them, a container that fails and a check in which nothing fails. -/
theorem witness_loading :
    hostState.heeds pfCmd (partCmd 0x20 roleIns (decide (pfCmd.len ≤ 134217728)) true) ∧ hostState.loadNotNow none = false ∧ hostState.locked = false ∧
      hostState.frame.load = none ∧ hostState.holder ≠ 0 ∧ hostState.paused = false ∧
      firstFailure [(0x10, none), (0x15, none)] = none ∧ haltedState.heeds pfCmd (partCmd 0x21 roleIns) ∧ haltedState.frame.st = .halted ∧ haltedState.nothingWaits ∧
      ({ haltedState with frame := { haltedState.frame with repl := some ⟨streamItin, 5, none⟩ } } : State).heeds pfCmd (partCmd 0x24 roleIns) ∧
      haltedState.heeds pfCmd (partCmd 0x25 roleOpr) :=
  ⟨⟨by decide, by decide, by decide⟩, by decide, by decide, rfl, by decide, by decide, rfl, ⟨by decide, by decide, by decide⟩, rfl, ⟨rfl, rfl, rfl⟩,
    ⟨by decide, by decide, by decide⟩, ⟨by decide, by decide, by decide⟩⟩

/-- A running frame of T_nom 50 µs, a given time after its boundary. -/
def runState (ns : Nat) : State :=
  { haltedState.setFld F.PRT_MGRSTATE_WMGR 9 with now := ns, frame := { haltedState.frame with st := .running, tNom := 50000 }, mgr := { haltedState.mgr with source := 1 } }

/-- The premises of `FramesStartAndTurn` are met, clause by clause. -/
theorem witness_frames :
    haltedState.heeds pfCmd (partCmd 0x22 roleOpr) ∧ haltedState.flag F.SEC_LOCK_DIAG = false ∧ haltedState.fld F.PWR_STATUS_STATE < 2 ∧
      (runState 43750).heeds pfCmd (partCmd 0x23 roleOpr) ∧ (runState 43750).nothingWaits ∧ (runState 43750).windowOpen = true ∧ (runState 43750).windowHolds = true ∧ (runState 62500).windowHolds = true ∧
      (runState 43749).windowOpen = false ∧ (runState 0).inStray = false ∧ (runState 0).accepts (runState 0).whistleMgr 9 0 ∧ (runState 0).mgr.source = 1 ∧
      5 * (runState 62500).frame.tNom ≤ 4 * (runState 62500).frameNs ∧ ((runState 60500).setFld F.PRT_ROLE_WHISTLE 1).isWhistle = true ∧
      (runState 60500).mayWhistle = true ∧ (runState 60500).withheldList = [] ∧ 875 * (runState 43750).frame.tNom / 1000 ≤ (runState 43750).frameNs ∧
      (runState 0).ownReady = true ∧ (runState 0).paused = false ∧ (runState 0).whistleMgr ≠ 0xFFFF ∧ (runState 0).whistleMgr ≠ (runState 0).partNum ∧
      haltedState.mgr.source = 0 :=
  ⟨⟨by decide, by decide, by decide⟩, by decide, by decide, ⟨by decide, by decide, by decide⟩, ⟨rfl, rfl, rfl⟩, by decide, by decide, by decide, by decide, by decide,
    ⟨by decide, by decide, by decide⟩, rfl, by decide, by decide, (Bool.or_eq_true _ _).mpr (.inr (by decide)), by decide, by decide, by decide, by decide,
    by decide, by decide, rfl⟩

/-- The physical function holds a nonce, operator key 2 is set, and its request has been at the engine for 1.9 ms. -/
def roleState : State :=
  { (hostState.setFnSec 0 { FnSec.init with nonce := some ([1], 0), lockEnd := some 0 }) with
    now := 1900000
    sec := { hostState.sec with
      fns := (hostState.setFnSec 0 { FnSec.init with nonce := some ([1], 0), lockEnd := some 0 }).sec.fns
      opKeys := [(2, ⟨[4], 0xFFFF⟩)]
      engine := { hostState.sec.engine with served := some ({ use := .role pfCmd 1 2, key := [4], digest := [], sig := [], keyCheck := false }, 0) } } }

/-- The premises of `RolesAreHeldAndLost` are met, clause by clause. -/
theorem witness_roles :
    hostState.takes 0 = true ∧ hostState.lockedOut 0 = false ∧ roleState.takes 0 = true ∧ roleState.lockedOut 0 = false ∧ roleState.nonceOf 0 = some [1] ∧
      roleState.authKey 0 1 2 = some [4] ∧ roleState.authKey 0 1 3 = none ∧ roleState.locked = false ∧ (roleState.sec.engine.served.map (·.2)) = some 0 ∧
      (roleState.fnSec 0).lockEnd = some 0 ∧ (roleState.fnSec 0).nonce = some ([1], 0) ∧ hostState.heeds pfCmd (partCmd 0x0120 roleMkr) ∧ hostState.frame.st = .empty :=
  ⟨by decide, by decide, by decide, by decide, by decide, by decide, by decide, by decide, by decide, by decide, by decide,
    ⟨by decide, by decide, by decide⟩, rfl⟩

/-- A command whose payload is a key. -/
def keyCmd : Mgmt := { pfCmd with len := 97 }

/-- The premises of `KeysLockAndAudit` are met, clause by clause. -/
theorem witness_keys :
    hostState.heeds keyCmd (partCmd 0x0103 (if hostState.firstKey keyCmd 1 0 then 0 else roleIns) (keyCmd.len == 97) true) ∧ hostState.locked = false ∧
      15 < tableSize 1 ∧ hostState.heeds keyCmd (partCmd 0x0105 roleIns (keyCmd.len == 97) true) ∧ hostState.heeds pfCmd (partCmd 0x0104 roleIns) ∧
      hostState.heeds pfCmd (partCmd 0x0106 roleIns) ∧ hostState.heeds pfCmd (partCmd 0x0107 roleIns) ∧ hostState.heeds pfCmd (partCmd 0x0108 roleOpr) ∧
      hostState.heeds pfCmd (partCmd 0x0109 roleOpr) ∧ (hostState.audit 0 0xFFFF 0 0 0).sec.waiting ≠ [] ∧ hostState.sec.journal.length < 128 ∧
      134217472 + 256 ≤ 65536 * vaultUnits :=
  ⟨⟨by decide, by decide, by decide⟩, by decide, by decide, ⟨by decide, by decide, by decide⟩, ⟨by decide, by decide, by decide⟩, ⟨by decide, by decide, by decide⟩,
    ⟨by decide, by decide, by decide⟩, ⟨by decide, by decide, by decide⟩, ⟨by decide, by decide, by decide⟩, by
      unfold State.audit; simp only [auditPush]; split <;> [(split <;> [simp; (split <;> [simp; (split <;> simp)])]); simp], by decide, by decide⟩

/-- A key check that has been at the engine for 1.9 ms. -/
theorem witness_keyAnswer :
    let s : State := { hostState with now := 1900000, sec := { hostState.sec with engine := { hostState.sec.engine with
      served := some ({ use := .key keyCmd 4 0 0 [4] 0, key := [4], digest := [], sig := [], keyCheck := true }, 0) } } }
    (s.sec.engine.served.map (·.2)) = some 0 ∧ 0 + 1900000 ≤ s.now ∧ s.locked = false := by decide

/-- A session of the physical function on the runtime image of slot 1, no bytes yet. -/
def sessionState : State :=
  { hostState.setFld F.UPD_STATUS_SESSION 2 with
    sec := { hostState.sec with
      session := some { fn := 0, slot := 1, cls := 1, header := List.replicate 512 0, body := List.replicate (imgBodyLen (List.replicate 512 0)) 0, seq := 0 }
      engine := { hostState.sec.engine with served := some ({ use := .boot 0, key := [4], digest := [], sig := [], keyCheck := false }, 0) } } }

/-- The premises of `UpdatesWriteSlots` are met: commands taken, a session that stands, a supply warning, a slot that may be confirmed. -/
theorem witness_updates :
    hostState.heeds { pfCmd with len := 512 } (partCmd 0x0110 roleIns true true) ∧ hostState.beginBars 1 [] = some 0x06 ∧
      sessionState.heeds pfCmd (partCmd 0x0111 roleIns true true) ∧ (sessionState.mySession 0).isSome = true ∧ sessionState.heeds pfCmd (partCmd 0x0112 roleIns) ∧
      sessionState.heeds pfCmd (partCmd 0x0113 roleIns) ∧ (sessionState.setFld F.PWR_STATUS_WARN 1).flag F.PWR_STATUS_WARN = true ∧ sessionState.session = 2 ∧
      sessionState.sec.activation = none ∧ hostState.heeds pfCmd (partCmd 0x0115 roleIns) ∧ (hostState.setVfld F.UPD_SLOT_STATE_BOOT 2 1).slotState 1 1 = 2 ∧
      hostState.heeds pfCmd (partCmd 0x0116 roleOpr) ∧ (sessionState.sec.engine.served.map (·.2)) = some 0 :=
  ⟨⟨by decide, by decide, by decide⟩, by decide, ⟨by decide, by decide, by decide⟩, by decide, ⟨by decide, by decide, by decide⟩, ⟨by decide, by decide, by decide⟩,
    by decide, by decide, rfl, ⟨by decide, by decide, by decide⟩, by decide, ⟨by decide, by decide, by decide⟩, by decide⟩

/-- An activation of slot 1 in a running frame past its ready point. -/
def activationState (session : Nat) (began : Option Nat) : State :=
  { hostState.setFld F.UPD_STATUS_SESSION session with
    frame := { hostState.frame with st := .running, readyPoint := true }
    sec := { hostState.sec with activation := some { cmd := pfCmd, slot := 1, frame := 0, began := began, seq := 0 } } }

/-- The premises of `ActivationsEnd` are met, clause by clause. -/
theorem witness_activation :
    hostState.heeds pfCmd (partCmd 0x0114 roleIns) ∧ hostState.activateBars 2 = some 0x0B ∧
      ((hostState.setVfld F.UPD_SLOT_STATE_RUNTIME 2 1).setVfld F.UPD_SLOT_STATE_CFG_FORMAT (hostState.formatOf hostState.confirmed) 1).activateBars 1 = none ∧
      (activationState 3 none).session = 3 ∧ (activationState 3 none).replayPending = false ∧ (activationState 3 none).noticesSent = true ∧ (activationState 3 none).holder ≠ 0 ∧
      (activationState 4 (some 0)).session = 4 ∧ (activationState 4 (some 0)).now < 0 + 1200000 ∧
      (({ activationState 4 (some 0) with now := 1200000 } : State).session = 4) ∧ (activationState 5 none).session = 5 ∧
      ({ activationState 3 none with frame := { hostState.frame with st := .halted } } : State).needsPause = false :=
  ⟨⟨by decide, by decide, by decide⟩, by decide, by decide, by decide, by decide, by decide, by decide, by decide, by decide, by decide, by decide, by decide⟩

/-- The physical function holds the maker role; the pending copy of pitch 0 is enabled with one core. -/
def pitchState : State := hostState.setFld F.NET_PITCH_RECT_ENABLE 1 16

/-- The premises of `PitchesAreSetUp` are met, clause by clause. -/
theorem witness_pitches :
    (findReg (.host 0) 0x1010).map (fun q => (q.1, q.2.1, q.2.2.1.bank == .pitch || q.2.2.1.bank == .pitchCh)) = some (.net, 0, true) ∧
      (findReg (.host 3) 0x1008).map (fun q => (q.1, q.2.1, q.2.2.1.bank == .pitch || q.2.2.1.bank == .pitchCh)) = some (.net, 0, true) ∧ hostState.barOpen = true ∧
      roleIns ≤ hostState.roleOf 0 ∧ State.reset.roleOf 0 < roleIns ∧ hostState.locked = false ∧ (hostState.setFld F.SEC_LOCK_LOCKED 1).locked = true ∧
      hostState.frame.st = .empty ∧ haltedState.frame.st = .halted ∧ (runState 0).frame.st = .running := by decide

/-- A copy of disabled pitches is valid; one whose rows are the wrong way round is not. -/
theorem witness_pitchFault :
    State.reset.pitchFault [] = 0 ∧ State.reset.pitchFault [{ enable := true, r1 := 0, r0 := 1, c1 := 0, c0 := 0, ports := 0, chans := 0 }] = 7 :=
  ⟨by simp [State.pitchFault, anyPair], by simp [State.pitchFault]⟩

/-- The premises of `MemoryIsKept` are met: a channel being zeroed, states in which scrub runs and in which it does not. -/
theorem witness_memory :
    (State.reset.setFld F.MEM_CH_STATE_STATE 1 319).fld F.MEM_CH_STATE_STATE 319 = 1 ∧ haltedState.frame.st = .halted ∧ State.reset.frame.st = .empty := by decide

/-- A context whose stream 3 names page 0 at entry 0, between ready point and boundary; the page's count is 0, as a page named once. -/
theorem witness_pageCopy :
    let s : State := { activationState 0 none with
      frame := { (activationState 0 none).frame with active := some streamItin }, serve := [(0, { ServeSt.init with ctxs := [(4, 2)] })] }
    s.frame.readyPoint = true ∧ (s.streamRec 3).isSome = true ∧ SMap.find? (s.srv 0).ctxs 4 = some 2 ∧ s.pageEntry 0 4 3 0 ≠ noPage ∧
      s.pageCount 0 (s.pageEntry 0 4 3 0) ≤ 1 := by decide

/-- A FULL plan of image 5, shard 2, for a part with predecessor 8. -/
def fullPlan : RelayPlan := { tag := 5, kind := 1, seed := false, shard := 2, pred := 8, succ := [(7, [(3, 4)])] }

/-- Part 9 in a session of that plan, in a given state; part 6 is its rack manager. -/
def relayState (st : Nat) : State :=
  { (hostState.setFld F.PRT_MGRSTATE_RMGR 6).setFld F.PRT_PARTNUM_PART 9 with wgt := { WgtSt.init with plan := some fullPlan, st := st, accepted := decide (3 ≤ st) } }

/-- The premises of `RelaySessions` are met, clause by clause. -/
theorem witness_relay :
    (relayState 0).accepts (relayState 0).rackMgr 6 0 ∧ { fullPlan with kind := 0 }.ok = false ∧ fullPlan.ok = true ∧ (relayState 0).residentTag 5 = false ∧
      ((relayState 0).setFld F.SEC_LOCK_LOCKED 1).locked = true ∧ (relayState 0).locked = false ∧ (runState 0).frame.st = .running ∧
      (relayState 0).planRefusal fullPlan = none ∧ (relayState 0).wgt.st = 0 ∧ (relayState 0).wgt.waiting = [] ∧ (relayState 3).wgt.st ≠ 0 ∧
      (relayState 3).wgt.plan = some fullPlan ∧ fullPlan.tag ≠ { fullPlan with tag := 6 }.tag ∧ (relayState 4).wgt.st = 4 := by
  refine ⟨⟨by decide, by decide, by decide⟩, ?_⟩; decide

/-- A programming command that still runs when a plan for another image comes. -/
theorem witness_planWaits :
    let s : State := ({ relayState 3 with wgt := { (relayState 3).wgt with jobs := [(0, ⟨.erase, true, [], [], [], false, false⟩)] } } : State).setArr 0
      { ArrSt.init with cmd := some ⟨3, 0, 0, 0, 0, [], 0, false⟩ }
    s.jobsBusy = true ∧ s.planRefusal { fullPlan with tag := 6 } = none := by decide

/-- A piece of chunk 30 of the own shard. -/
def chunkPiece : Piece := { tag := 5, kind := 3, shard := 2, chunk := 30, off := 0, total := 4194304, data := [1, 2] }

/-- The same session with the host as the predecessor. -/
def seedState : State := { relayState 3 with wgt := { (relayState 3).wgt with plan := some { fullPlan with seed := true, pred := 0xFFFF } } }

/-- The premises of `RelayPieces` are met, clause by clause. -/
theorem witness_pieces :
    State.reset.wgt.waiting = [] ∧ State.reset.wgt.plan = none ∧ (relayState 3).wgt.plan = some fullPlan ∧ (relayState 3).wgt.accepted = true ∧
      fullPlan.toward 9 = [] ∧ fullPlan.toward 3 = [7] ∧ (relayState 3).isRack = false ∧ (relayState 3).keeps chunkPiece = true ∧ (relayState 3).wgt.stages.length < 8 ∧
      (relayState 3).heeds { pfCmd with len := 34 } (partCmd 0x60 roleIns true true) ∧ (seedState.wgt.plan.map (·.seed)) = some true ∧ State.reset.now < State.reset.wgt.lastPiece + 2000000000 ∧
      (relayState 1).wgt.st = 1 ∧ (relayState 3).heeds pfCmd (partCmd 0x61 roleOpr) ∧ (relayState 3).heeds pfCmd (partCmd 0x62 roleIns) :=
  ⟨rfl, rfl, rfl, rfl, by decide, by decide, by decide, by decide, by decide, ⟨by decide, by decide, by decide⟩, rfl, by decide, rfl,
    ⟨by decide, by decide, by decide⟩, ⟨by decide, by decide, by decide⟩⟩

/-- A piece of the own shard for which no buffer is free: eight chunks are staged. -/
theorem witness_noRoom :
    let s : State := { relayState 3 with wgt := { (relayState 3).wgt with stages := (List.range 8).map fun i => ⟨2, 40 + i, [], 9, false⟩ } }
    s.msgIn.settleStages.hasRoom chunkPiece = false := by decide

/-- A session in RECEIVING with a chunk staged whole. -/
def stagedState (c : Nat) (parts : SMap Bytes) (total : Nat) : State :=
  { relayState 3 with wgt := { (relayState 3).wgt with stages := [⟨2, c, parts, total, false⟩] } }

/-- The premises of `ChunksAreVerified` are met: a staged chunk of the wrong length, a core that is not ready. -/
theorem witness_verify :
    (stagedState 30 [(0, [1, 2])] 2).wgt.waiting = [] ∧ (stagedState 30 [(0, [1, 2])] 2).wgt.st = 3 ∧
      ((stagedState 30 [(0, [1, 2])] 2).wgt.stages.find? fun t => t.shard == 2 && t.chunk == 30 && !t.verified) = some ⟨2, 30, [(0, [1, 2])], 2, false⟩ ∧
      2 ≤ heldBytes [(0, [1, 2])] ∧ (joined [(0, [1, 2])]).length ≠ objectLen 30 ∧ SMap.get 0 (stagedState 30 [(0, [1, 2])] 2).wgt.asked 30 < 3 ∧
      State.reset.wgt.plan = none ∧ (relayState 3).coreSite 0 = some 0 ∧ (relayState 3).supplyRoom = true ∧ (relayState 3).flag F.PWR_STATUS_WARN = false := by decide

/-- A chunk of the right length and hash, with column scales that are not 0xFF or with one that is: the leaf table is made of its own hash. -/
theorem witness_goodChunk (b : Bytes) (hb : b.length = objectLen 1) :
    let s : State := { stagedState 1 [(0, b)] b.length with
      wgt := { (stagedState 1 [(0, b)] b.length).wgt with leaves := List.replicate 48 0 ++ leafHash b } }
    (s.wgt.stages.find? fun t => t.shard == 2 && t.chunk == 1 && !t.verified) = some ⟨2, 1, [(0, b)], b.length, false⟩ ∧ (joined [(0, b)]).length = objectLen 1 :=
  ⟨rfl, by simpa [joined] using hb⟩

/-- A leaf table that is whole. -/
theorem witness_leaves :
    let b : Bytes := List.replicate 58704 0
    let s : State := { relayState 2 with wgt := { (relayState 2).wgt with leafParts := [(0, b)], resident := some ⟨[], 2, treeRoot (hashesOf b), []⟩ } }
    s.wgt.st = 2 ∧ 58704 ≤ (joined s.wgt.leafParts).length := by
  exact ⟨rfl, Nat.le_of_eq (by rw [show joined _ = List.replicate 58704 0 ++ [] from rfl, List.append_nil, List.length_replicate])⟩

/-- Array 0 in MAINT with a VALID record of a digest of zeros. -/
def validState : State := ({ cribState with wgt := { cribState.wgt with recs := [(0, { ArrRec.init with state := .valid, digest := List.replicate 48 0 })] } } : State)

/-- The premises of `ScrubAndTime` are met. -/
theorem witness_scrub :
    validState.logicalArr 0 = some 0 ∧ validState.mode 0 = modeMaint ∧ validState.flag F.ARR_STATUS_BUSY 0 = false ∧ (validState.rec_ 0).state = .valid ∧
      (State.reset.rec_ 0).state ≠ .valid ∧ hostState.heeds pfCmd (partCmd 0x10 roleOpr) :=
  ⟨by decide, by decide, by decide, by decide, by decide, ⟨by decide, by decide, by decide⟩⟩

/-- A submission of one part for both roles: tag 5, one prompt token, one token to generate. -/
def shortSub : Submission :=
  { entry := true, exit := true, shared := false, wmAt := 0, customer := 0, partner := 9, tag := 5, waymark := 0, promptLen := 1, maxNew := 1, promptAddr := 0,
    stops := [0, 0, 0, 0], sampling := List.replicate 32 0 }

/-- Its descriptor (Table 9-5). -/
def shortDesc : Bytes :=
  [1, 3] ++ toLe 2 0 ++ toLe 2 9 ++ toLe 2 0 ++ toLe 8 5 ++ toLe 8 0 ++ toLe 4 1 ++ toLe 4 1 ++ toLe 8 0 ++ List.replicate 88 0

/-- Part 9, whose queue 2 of the physical function is ACTIVE under Ranger core 1 and holds one descriptor; the frame runs and pitch 0 has one slot
whose entry and exit stages are this part. -/
def queueState (d : Bytes) : State :=
  let s := ((((runState 0).setFld F.RGR_STATUS_CORE 0).setFld F.PRT_PARTNUM_PART 9).setFld F.HIF_Q_STATUS_STATE qActive 2).setOwner 2 (some 1)
  let it := { streamItin with slots := [{ slot := 0, kind := 1, pitch := 0, tokens := 1, stages := 3 }] }
  ({ s with
    frame := { s.frame with active := some it }, serve := [(0, { ServeSt.init with capacity := 4096 })] } : State).setQueue 2 { QueueSt.init with copied := [d] }

/-- A state in which pitch 0 has a pending request of that submission on queue 2. -/
def pendingState (waited : Nat) : State :=
  { queueState [] with
    serve := [(0, { ServeSt.init with capacity := 4096, reqs := [{ newReq shortSub 2 0 false with waited := waited }] })] }

/-- The premises of `SubmissionsOpenOrEnd` are met: an accepted, a refused and a malformed submission, an owner that does not run. -/
theorem witness_submit :
    (queueState shortDesc).qState 2 = qActive ∧ (queueState shortDesc).qState 3 ≠ qActive ∧ (queueState shortDesc).owner 2 = some 1 ∧ ((queueState shortDesc).queue 2).copied = [shortDesc] ∧
      (queueState shortDesc).rcoreRuns 1 = true ∧ ((queueState shortDesc).queue 2).waiting.any (·.refusal) = false ∧
      (((queueState shortDesc).setQueue 2 { QueueSt.init with copied := [shortDesc], waiting := [plainCompletion 5 0 0 0 0x10] }).queue 2).waiting.any (·.refusal) = true ∧
      ((queueState shortDesc).setFld F.RGR_STATUS_CORE 0x22).rcoreRuns 1 = false ∧
      parseSubmission 9 [] = none ∧ parseSubmission 9 shortDesc = some shortSub := by decide

/-- And of the checks of a submission, a registration and a timeout. -/
theorem witness_request :
    (queueState shortDesc).submitCheck 0 shortSub = none ∧ (queueState shortDesc).submitCheck 0 { shortSub with maxNew := 4096 } = some 0x17 ∧
      ((queueState []).srv 0).req 5 = none ∧ ((pendingState 0).srv 0).req 5 = some (newReq shortSub 2 0 false) ∧
      (HeldReg.mk 5 0 1 1 0).agrees shortSub = true ∧ (HeldReg.mk 5 0 1 2 0).agrees shortSub = false ∧
      ((pendingState 4096).srv 0).partnerTimeout ≤ 4096 ∧ 0 < ((pendingState 0).srv 0).partnerTimeout := by decide

/-- A running frame past its ready point with pitch 0 enabled, its entry stage here, one request pending. -/
def entryState (ns : Nat) : State :=
  { (pendingState 0).setFld F.NET_PITCH_RECT_ENABLE 1 0 with now := ns, frame := { (pendingState 0).frame with readyPoint := true, tNom := 50000 } }

/-- The premises of `BindingsAndCancels` are met, clause by clause. -/
theorem witness_bindings :
    (entryState 47750).heeds pfCmd (pitchCmd 0x40 roleOpr) ∧ ((entryState 0).srv 0).req 5 ≠ none ∧ ((entryState 0).srv 0).req 6 = none ∧
      (entryState 47750).frame.st = .running ∧ (entryState 47750).frame.readyPoint = true ∧ (entryState 47750).holder ≠ 0 ∧ (entryState 47750).paused = false ∧ (entryState 47750).isEntry 0 = true ∧
      (entryState 47750).pitchOn 0 = true ∧ (entryState 47750).mgr.withdrawn = false ∧ (entryState 47750).mgr.pitchOut.contains 0 = false ∧
      875 * (entryState 47750).frame.tNom / 1000 + 4000 ≤ (entryState 47750).frameNs ∧ (entryState 47749).frameNs < 875 * (entryState 47749).frame.tNom / 1000 + 4000 ∧
      ((entryState 47750).srv 0).nextFrame = none ∧ (entryState 0).heeds pfCmd (pitchCmd 0x43 roleOpr) ∧ ((entryState 0).srv 0).wmFind 7 = none ∧
      (pendingState 0).frame.readyPoint = false ∧ ((pendingState 0).srv 0).moverFrame = none :=
  ⟨⟨by decide, by decide, by decide⟩, by decide, by decide, by decide, by decide, by decide, by decide, by decide, by decide, by decide, by decide, by decide, by decide, by decide,
    ⟨by decide, by decide, by decide⟩, by decide, by decide, by decide⟩

/-- A live waymark under handle 7. -/
theorem witness_waymark :
    ({ ServeSt.init with table := [(wmKey 0 7 0, ⟨7, 1, false, 0, 0, 32, 0, 256⟩)] } : ServeSt).wmFind 7 = some (wmKey 0 7 0) := by decide

/-- The premises of `ServingIsConfigured` are met, clause by clause. -/
theorem witness_serving :
    (entryState 0).heeds pfCmd (pitchCmd 0x41 roleOpr) ∧ Ration.init.ok 0x7F = true ∧ ({ Ration.init with period := 99 } : Ration).ok 0x10 = false ∧
      (entryState 0).heeds pfCmd (pitchCmd 0x42 roleOpr) ∧ (entryState 0).heeds pfCmd (pitchCmd 0x44 roleOpr) ∧
      (entryState 0).heeds pfCmd (pitchCmd 0x44 roleIns true true) ∧ servingChange 1 4097 0 [] = none ∧
      (entryState 0).heeds { pfCmd with len := 128 } (pitchCmd 0x45 roleOpr true) ∧ (entryState 0).heeds pfCmd (pitchCmd 0x46 roleOpr) :=
  ⟨⟨by decide, by decide, by decide⟩, by decide, by decide, ⟨by decide, by decide, by decide⟩, ⟨by decide, by decide, by decide⟩,
    ⟨by decide, by decide, by decide⟩, by decide, ⟨by decide, by decide, by decide⟩, ⟨by decide, by decide, by decide⟩⟩

/-- Queue 2 of the physical function as before, with host memory open to the part and a completion waiting. -/
def ringState : State :=
  let s := ((queueState shortDesc).setFld F.HIF_FN_STATE_BME 1 0).setFld F.HIF_LINK_UP 1
  s.setQueue 2 { s.queue 2 with waiting := [plainCompletion 5 0 0 0 0x01] }

/-- The premises of `QueuesWork` are met: enabling (refused for its role, failing a check), draining, polling, writing. -/
theorem witness_queues :
    hostState.barOpen = true ∧ hostState.selectedQueue (.host 0) = some 0 ∧ State.reset.roleOf 0 < roleOpr ∧ roleOpr ≤ hostState.roleOf 0 ∧
      hostState.qState 0 = qDisabled ∧ (hostState.setFld F.HIF_Q_SIZE_SQ_LOG2 3 0).qState 0 = qDisabled ∧
      (hostState.setFld F.HIF_Q_STATUS_STATE qActive 0).qState 0 = qActive ∧ ringState.pollDue none = true ∧ ringState.pollDue (some 0) = false ∧
      ringState.qState 2 = qActive ∧ ringState.busMaster (ringState.qFn 2) = true ∧ ringState.flag F.HIF_FN_STATE_FLR (ringState.qFn 2) = false ∧
      64 = ringState.sqSize 2 ∧ (ringState.queue 2).waiting.any (·.refusal) = false ∧ ringState.owner 2 = some 1 ∧ ringState.rcoreRuns 1 = true ∧
      ringAhead 64 0 1 = 1 ∧ ringState.cqFull 2 = false := by decide

/-- And of failing reads. -/
theorem witness_reads :
    let s := ringState.setQueue 2 { ringState.queue 2 with readFails := 1 }
    s.qState 2 = qActive ∧ (s.queue 2).readFails ≠ 0 ∧ { newReq shortSub 2 0 true with readFails := 3 }.readFails = 3 := by decide

/-- A window that is polled after its interval, a vector pending under bus mastering. -/
theorem witness_windows :
    hostState.pollDue hostState.host.lastMgmt = true ∧ hostState.isOff = false ∧ hostState.holder ≠ 0 ∧ (hostState.win 0).ready = true ∧ hostState.fnOn 0 = true ∧
      hostState.takes 0 = true ∧ commandCodes.contains 0x99 = false ∧ State.reset.holder = 0 ∧ ringState.busMaster 0 = true ∧ hostState.busMaster 0 = false ∧
      SMap.get 0 ({ ringState.host with msiPending := [(3, 1)] } : HostSt).msiPending (2048 * 0 + 3) = 1 ∧ ringState.flag F.HIF_LINK_UP = true ∧
      ringState.host.retraining = false := by decide

/-- The premises of `HostResetsAreLocal` are met: a queue in use with a request on it, virtual functions on and off, a link that may come up. -/
theorem witness_hostResets :
    (pendingState 0).qFn 2 = 0 ∧ (pendingState 0).qState 2 ≠ qDisabled ∧ ((pendingState 0).srv ((pendingState 0).qPitch 2)).req 5 = some (newReq shortSub 2 0 false) ∧
      State.reset.sec.activation = none ∧ State.reset.fnOn 0 = true ∧ State.reset.host.perst = false ∧ State.reset.host.vfEnable = false ∧
      ({ State.reset.host with vfEnable := true } : HostSt).vfEnable = true ∧ (State.reset.setFld F.CLK_STATUS_PCIEREF_OK 1).flag F.CLK_STATUS_PCIEREF_OK = true ∧
      1 ≤ State.reset.fld F.HIF_LINK_CTL_MAX_SPEED ∧ [1, 2, 4, 8, 16].contains 16 = true ∧ [1, 2, 4, 8, 16].contains 3 = false := by decide

/-- A chunk binding of request 5 for the next frame, on a queue the part may read for. -/
def fetchState : State :=
  { ringState with serve := [(0, { ServeSt.init with
      reqs := [newReq shortSub 2 0 true], next := [⟨0, 5, 0, 0, 1, false, 1, false, false, 0⟩], nextFrame := some 1 })] }

/-- One error of core site 3 in hour 7. -/
def errorState (first now : Nat) : State :=
  { hostState with now := now, hist := { hostState.hist with pend := [⟨1, 3, 1, 2, 7, first⟩] } }

/-- The premises of `PromptsAndHistory` are met: a binding whose prompt is read, no binding, an error in time and one too late. -/
theorem witness_prompts :
    (fetchState.srv 0).nextFrame = some 1 ∧ ((fetchState.srv 0).next.find? fun b => b.slot == 0) = some ⟨0, 5, 0, 0, 1, false, 1, false, false, 0⟩ ∧
      (fetchState.srv 0).req 5 = some (newReq shortSub 2 0 true) ∧ (⟨0, 5, 0, 0, 1, false, 1, false, false, 0⟩ : Sys2Proof.Machine.Bind).fromPrompt (newReq shortSub 2 0 true) = true ∧
      fetchState.busMaster (fetchState.qFn 2) = true ∧ fetchState.isEntry 0 = true ∧ (State.reset.srv 0).nextFrame = none ∧ (errorState 0 0).holder ≠ 0 ∧
      (errorState 0 0).now / 1000000000 < 0 / 1000000000 + 2 ∧ 0 / 1000000000 + 2 ≤ (errorState 0 2000000000).now / 1000000000 ∧
      (((errorState 0 0).histRec 1 3).after ⟨1, 3, 1, 2, 7, 0⟩ 0).cls < 2 ∧
      (({ HistRec.init with cls := 1, windows := [(6, 1), (5, 1)] } : HistRec).after ⟨1, 3, 1, 2, 7, 0⟩ 0).cls = 2 ∧ unitCount 6 ≤ 0 ∧ 1279 < unitCount 1 ∧
      hostState.heeds { pfCmd with len := 128 } (partCmd 0x63 roleOpr true) :=
  ⟨by decide, by decide, by decide, by decide, by decide, by decide, by decide, by decide, by decide, by decide, by decide, by decide, by decide, by decide,
    ⟨by decide, by decide, by decide⟩⟩

/-- A host port record whose window is open. -/
theorem witness_inbox :
    let s : State := { runState 0 with frame := { (runState 0).frame with
      active := some { streamItin with ports := [{ port := 32, cls := 0, part := 0, core := 0, ctr := 3, addr := 0, bytes := 12, earliest := 0, latest := 100 }] } } }
    s.frame.st = .running ∧ 0 ≤ s.frameCyc ∧ s.frameCyc ≤ 100 ∧ SMap.get 0 s.fab.arrived 0 = 0 := by decide

/-- Source 40 pending in West with priority 3, enabled for target 1. -/
def irqState (thresh : Nat) : State :=
  (((hostState.setFld F.INTC_PEND 1 40).setFld F.INTC_PRIO 3 40).setFld F.INTC_EN 1 (1 * 1024 + 40)).setFld F.INTC_THRESH thresh 1

/-- The premises of `SourcesAreDelivered` are met: the threshold of reset, and a source that a lower threshold delivers. -/
theorem witness_irq :
    (irqState 15).fld F.INTC_THRESH (4 * 0 + 1) = 15 ∧ 2 < (irqState 15).fld F.INTC_PRIO (1024 * 0 + 40) ∧ (irqState 15).flag F.INTC_PEND (1024 * 0 + 40) = true ∧
      (irqState 15).flag F.INTC_EN ((4 * 0 + 1) * 1024 + 40) = true ∧ (irqState 15).claimedBy 0 40 = 0 ∧ (irqState 2).eligible 0 1 40 = true ∧
      (irqState 2).fld F.INTC_PRIO 1022 ≤ 15 := by decide

/-- West's clock stopped with source 40 latched. -/
def stoppedState : State := { irqState 2 with irq := { (irqState 2).irq with stoppedW := true, latched := [(40, 1)], claimed := [(41, 2)] } }

/-- The premises of `InterruptsAreClaimed` are met, clause by clause. -/
theorem witness_claims :
    wiredBoth 40 = true ∧ wiredOwn 3 = true ∧ wiredBoth 1023 = false ∧ wiredOwn 1023 = false ∧ (irqState 2).fwStopped 0 = false ∧ stoppedState.fwStopped 0 = true ∧
      stoppedState.claimedBy 0 41 = 1 + 1 ∧ stoppedState.claimedBy 0 40 ≠ 1 + 1 ∧ (irqState 2).eligible 0 1 40 = true ∧ (irqState 2).eligible 0 0 40 = false ∧
      ((irqState 2).setFld F.RGR_STATUS_CORE 0).rcoreRuns 3 = true ∧ State.reset.rcoreRuns 3 = false ∧ State.reset.paused = false ∧ (SMap.get 0 State.reset.irq.ticks 3) = 0 := by decide

/-- Source 40 wakes West. -/
theorem witness_wake : stoppedState.wakeable 0 = true := by
  refine List.any_eq_true.mpr ⟨40, List.mem_range.mpr (by decide), ?_⟩; decide

/-- Every Ranger core runs but core 2 of West, which is DOWN and owned queue 5; core 1 has claimed source 9. -/
def crashState (now : Nat) : State :=
  { ((((hostState.setFld F.RGR_STATUS_CORE 0x0200 0).setFld F.RGR_STATUS_CORE 0 1).setOwner 5 (some 2)) : State) with
    now := now, irq := { hostState.irq with claimed := [(9, 2)], refreshed := some 0, ticks := [(1, 0)] } }

/-- The premises of `RangerCoresAndLeadership` are met, clause by clause. -/
theorem witness_ranger :
    (crashState 16000).rcoreRuns 1 = true ∧ (crashState 16000).rcoreRuns 2 = false ∧ (crashState 16000).fwStopped 0 = false ∧ (crashState 16000).paused = false ∧
      SMap.get 0 (crashState 16000).irq.ticks 1 + 16000 ≤ 16000 ∧ 15999 < SMap.get 0 (crashState 15999).irq.ticks 1 + 16000 ∧
      (crashState 0).claimedBy 0 9 = 1 % 4 + 1 ∧ (crashState 0).sibling 2 = some 3 ∧ (crashState 0).rcore 2 ≠ 5 ∧ (crashState 0).owner 5 = some 2 ∧
      (crashState 0).rcore 2 = 2 ∧ (crashState 0).holder ≠ 0 ∧ (halfCores ((crashState 0).holder - 1)).any (crashState 0).rcoreRuns = true ∧
      ((crashState 0).setFld F.RGR_LATCH_HOLDER 0).holder = 0 ∧ ((crashState 0).setFld F.RGR_LATCH_HOLDER 0).halfUp 1 = true ∧ (crashState 49999).leads 0 = true ∧
      (crashState 49999).latchAge < 50000 ∧ 50000 ≤ (crashState 50000).latchAge ∧ (crashState 50000).islandRefreshes = false ∧ (crashState 0).leads 1 = false := by decide

/-- Off by a write, then the trip latched too. -/
def offState : State :=
  { (State.reset.setFld F.PWR_STATUS_STATE 3).setFld F.THM_TRIP_TRIPPED 1 with pwr := { State.reset.pwr with offHeld := true, sysRst := false } }

/-- The premises of `OffEndsOnlyByCycles` are met: a command that goes on in Off, and a cycle of SYS_RST_N. -/
theorem witness_off :
    offState.offStands ∧ offState.isOff = true ∧ offState.flag F.THM_TRIP_TRIPPED = true ∧ offState.pwr.change = none ∧ exec .poisonedWrite offState = .next (offState.count F.HIF_POISONCNT) ∧
      ({ offState with pwr := { offState.pwr with sysRst := true } } : State).offStands :=
  ⟨⟨by decide, rfl, rfl, .inl rfl⟩, by decide, by decide, rfl, rfl, ⟨by decide, rfl, rfl, .inl rfl⟩⟩

/-- All PLLs locked, both lane references there, in Active. -/
def clockState (clamp : Option Nat) : State :=
  { ((State.reset.setFld F.GLB_CLKSTAT_PLL_LOCK 255).setFld F.CLK_STATUS_ETHREF_OK 1).setFld F.CLK_STATUS_PCIEREF_OK 1 with
    now := 2000000, pwr := { State.reset.pwr with clampMhz := clamp, calm := some 0 } }

/-- The premises of `ClocksFollowPower` are met, clause by clause. -/
theorem witness_clocks :
    (clockState none).pwr.stretch = false ∧ (clockState none).fld F.GLB_CLKSTAT_PLL_LOCK = 255 ∧ (clockState none).isOff = false ∧
      State.reset.fld F.GLB_CLKSTAT_PLL_LOCK ≠ 255 ∧ (clockState none).pwr.clampMhz = none ∧ (clockState none).fld F.PWR_LIMIT_PEAK_W < 1151 ∧
      (clockState (some 1200)).pwr.adjusted + 100000 ≤ (clockState (some 1200)).now ∧
      ((clockState (some 1200)).setFld F.PWR_ESTIMATE_WATTS 1000).fld F.PWR_LIMIT_SUSTAIN_W < ((clockState (some 1200)).setFld F.PWR_ESTIMATE_WATTS 1000).fld F.PWR_ESTIMATE_WATTS ∧
      (clockState (some 1200)).fld F.PWR_ESTIMATE_WATTS ≤ (clockState (some 1200)).fld F.PWR_LIMIT_SUSTAIN_W ∧
      (clockState (some 1550)).pwr.lowMhz ≤ 1550 + 50 ∧ (clockState none).flag F.CLK_STATUS_ETHREF_OK = true ∧ (clockState none).flag F.CLK_STATUS_PCIEREF_OK = true := by decide

/-- Rail 0 is being raised, in Active, out of blanking. -/
def railState (ok : Nat) : State :=
  { ((hostState.setFld F.THM_TRIP_BLANK 0).setFld F.PWR_RAIL_DATA_CMD_MV 780 0) with
    now := 10000000, pwr := { State.reset.pwr with seq := .raise 0, seqOk := ok, en := [0], sysRst := false, pmbFails := [(0, 3)] } }

/-- The rails are up, three readings in a row had a deficit. -/
def deficitState : State :=
  { railState 0 with pwr := { (railState 0).pwr with seq := .idle, short := 3, vppLast := some 0 } }

/-- The premises of `RailsAndTrip` are met: raising, faults, a deficit. -/
theorem witness_rails :
    State.reset.pwr.seq = .idle ∧ 0 ∈ raiseOrder ∧ (railState 0).pwr.seq = .raise 0 ∧ (railState 0).railIn 0 770 = true ∧ (railState 0).railIn 0 769 = false ∧
      (railState 0).pwr.seqOk = 0 ∧ 1 ≤ (railState 1).pwr.seqOk ∧ railAfter raiseOrder 0 = some 1 ∧ railAfter raiseOrder 6 = none ∧ (railState 0).frame.st ≠ .running ∧
      (railState 0).pwr.seqAt + 10000000 ≤ (railState 0).now ∧ 3 ≤ SMap.get 0 (railState 0).pwr.pmbFails 0 ∧ deficitState.fld F.PWR_STATUS_STATE < 2 ∧
      deficitState.pwr.en.contains 0 = true ∧ deficitState.flag F.PWR_STATUS_DEGRADED = false ∧ 769 + 10 < deficitState.railSet 0 ∧ deficitState.railSet 0 ≤ 610 + 170 ∧
      deficitState.railSet 1 ≤ deficitState.fld F.PWR_RAIL_DATA_MEAS_MV 1 := by decide

/-- And of STATUS_WORD, VPP_ARR, Off and the trip. -/
theorem witness_trip :
    statusBad 64 = true ∧ statusBad 1 = false ∧ deficitState.pwr.en.contains 3 = false ∧ deficitState.pwr.vppLast = some 0 ∧ deficitState.supplyCount = 0 ∧
      deficitState.now < 0 + 1000000000 ∧ deficitState.barOpen = true ∧ roleMkr ≤ deficitState.roleOf 0 ∧ deficitState.roleOf 1 < roleIns ∧
      deficitState.flag F.THM_TRIP_TRIPPED = false ∧ deficitState.pwr.aon = true ∧ deficitState.flag F.THM_TRIP_BLANK = false ∧
      State.reset.flag F.THM_TRIP_BLANK = true ∧ State.reset.now < State.reset.pwr.blankFrom + 1000000 := by decide

/-- The premises of `ResetsKeepTheVault` are met, clause by clause. -/
theorem witness_resets :
    hostState.pwr.refLost = false ∧ hostState.barOpen = true ∧ roleIns ≤ hostState.roleOf 0 ∧ hostState.roleOf 16 < roleIns ∧ State.reset.pwr.sysRst = true ∧
      offState.pwr.sysRst = false ∧ State.reset.pwr.seq = .idle ∧ State.reset.pwr.aon = true ∧ State.reset.flag F.THM_TRIP_TRIPPED = false ∧
      ({ offState.pwr with refLost := true } : PwrSt).refLost = true ∧ offState.pwr.offHeld = true ∧ bitsAt 1 0 2 = 1 ∧ hostState.frame.st ≠ .running ∧
      (runState 0).frame.st = .running ∧ hostState.pwr.change = none ∧ ({ hostState.pwr with change := some (2, 0) } : PwrSt).change = some (2, 0) ∧
      hostState.fld F.PWR_STATUS_STATE = 0 ∧ hostState.flag F.PWR_STATUS_WARN = false := by decide

/-- Port 3 is up, pauses all classes with 30,000 bytes held, and holds frames of class 2 until 500 ns. -/
def portState (now : Nat) : State :=
  { (hostState.setFld F.PRT_STATUS_UP 1 3).setFld F.PRT_STATUS_PAUSED_RX 15 3 with
    now := now, fab := { hostState.fab with ports := [(3, ⟨30000, 0, 0, 0, [(2, 500)]⟩)] } }

/-- The premises of `LinksAndPauses` are met, clause by clause. -/
theorem witness_links :
    (portState 0).flag F.PRT_STATUS_UP 3 = true ∧ (portState 0).flag F.PRT_STATUS_UP 4 = false ∧ (portState 0).flag F.PRT_CTL_ENABLE 4 = true ∧
      (portState 0).flag F.PRT_STATUS_DISABLED 4 = false ∧ ((portState 0).setFld F.PRT_CTL_ENABLE 0 3).flag F.PRT_CTL_ENABLE 3 = false ∧
      ((portState 0).win 0).evtTail + 1 ≠ ((portState 0).win 0).evtHead ∧ (portState 0).isOff = false ∧ ((portState 0).setFld F.CLK_STATUS_ETHREF_OK 1).flag F.CLK_STATUS_ETHREF_OK = true ∧ roleOpr ≤ (portState 0).roleOf 0 ∧
      (portState 0).roleOf 16 < roleOpr ∧ (portState 0).fld F.PRT_STATUS_PAUSED_RX 3 = 15 ∧ 256 * (portState 0).fld F.PRT_RXCFG_XON 3 < 30000 - 8239 ∧
      30000 - 8240 ≤ 256 * (portState 0).fld F.PRT_RXCFG_XON 3 ∧ ((portState 0).port 3).paused + 20000 ≤ (portState 20000).now ∧
      SMap.get 0 ((portState 500).port 3).txUntil 2 ≤ (portState 500).now ∧ (portState 499).now < SMap.get 0 ((portState 499).port 3).txUntil 2 ∧
      (runState 0).frame.st = .running ∧ ({ streamItin with ports := [{ port := 3, cls := 0, part := 0, core := 0, addr := 0, ctr := 0, bytes := 1, earliest := 0, latest := 0 }] } : Itin).namesPort 3 = true := by decide

/-- A whole frame of a message, of leg data or of control, for part 5 from part 9. -/
def rxFrame (kind frame : Nat) : RxFrame :=
  { corrected := 0, uncorrected := 0, fcs := true, tagged := true, form := true, addressed := true, kind := kind, src := 9, dst := 5, first := true, last := true,
    poison := false, cls := 2, pitch := 0, addr := 64, frame := frame, core := 0, ctr := some 1, off := 0, total := 2, data := [7, 8], wire := 100, drained := 0, drained1 := 0 }

/-- A message to part 9 that was sent at 0 some times before. -/
def sentMsg (tries : Nat) : FwMsg := ⟨9, 4, 0x0304, 0, 0, [1], [], some 0, tries⟩

/-- A message of 2,000 bytes that waits for credit. -/
def bigMsg : FwMsg := ⟨9, 0, 0x0401, 0, 0, [], List.replicate 2000 0, none, 0⟩

/-- Part 5: port 3 is up and of pitch 0, whose running itinerary expects two bytes from part 9 in class 2 for core 0 at 64. -/
def fabricState : State :=
  { ((((portState 50000).setFld F.PRT_PARTNUM_PART 5).setFld F.PRT_STATUS_PAUSED_RX 0 3).setFld F.NET_PITCH_RECT_ENABLE 1 0).setFld F.NET_PITCH_PORTS_PORTS 8 0 with
    frame := { runState 0 |>.frame with
      active := some { streamItin with ports := [{ port := 3, cls := 2, part := 9, core := 0, ctr := 1, addr := 64, bytes := 2, earliest := 0, latest := 9 }] } } }

/-- The premises of `FramesAndCredit` are met: the drops and the deliveries. -/
theorem witness_frames_in :
    fabricState.flag F.PRT_STATUS_UP 3 = true ∧ fabricState.flag F.PRT_STATUS_UP 4 = false ∧ (rxFrame 1 0).wire ≤ 262144 - ((fabricState.port 3).occ - 0) ∧
      262144 - ((({ fabricState with fab := { fabricState.fab with ports := [(3, ⟨262100, 0, 0, 0, []⟩)] } } : State).port 3).occ - 0) < (rxFrame 1 0).wire ∧
      (rxFrame 1 0).dst = fabricState.partNum ∧ fabricState.partNum ≠ 0xFFFF ∧ (fabricState.portsRecord 3 (rxFrame 1 0)).map (·.2) = some 0 ∧
      fabricState.portsRecord 4 (rxFrame 1 0) = none ∧ (rxFrame 1 0).frame = fabricState.frame.number % 2 ^ 32 ∧
      (rxFrame 1 1).frame ≠ fabricState.frame.number % 2 ^ 32 ∧ ((fabricState.setFld F.CORE_STATUS_CLEARING 0 0).liveSite 0) = some 0 ∧
      (fabricState.core 0).gather = [] ∧ (fabricState.core 0).run = none ∧ fabricState.ctr 0 1 < 0xFFFFFF ∧ SMap.get 0 fabricState.fab.arrived 0 + 2 = (rxFrame 1 0).total ∧
      (rxFrame 2 0).frame = SMap.get 0 fabricState.link.nextIn 9 ∧ fabricState.fab.early = [] ∧ fabricState.link.credits = [] ∧
      256 * fabricState.fld F.PRT_RXCFG_XOFF 3 ≤ (fabricState.port 3).occ - 0 + 13520 ∧ fabricState.fld F.PRT_STATUS_PAUSED_RX 3 ≠ 15 := by decide

/-- That message takes 8 units. -/
theorem bigMsg_units : bigMsg.units = 8 := by
  have h : bigMsg.data.length = 2000 := List.length_replicate ..
  unfold FwMsg.units; rw [h, show bigMsg.fields = [] from rfl]; decide

/-- And of the messages and of credit. -/
theorem witness_credit :
    fabricState.link.waiting = [] ∧ generalCredit 0x0401 = true ∧ 4 < bigMsg.units ∧ bigMsg.units ≤ 8 ∧
      fabricState.isRack = false ∧
      ([sentMsg 3].find? fun m => m.part == 9 && m.seq == 4) = some (sentMsg 3) ∧ (sentMsg 2).tries < 3 ∧ 0 + 50000 ≤ fabricState.now ∧
      (fabricState.link.given.map (·.2)).sum + 512 ≤ 512 ∧ 512 < (fabricState.link.given.map (·.2)).sum + 513 := by
  rw [bigMsg_units]; decide

/-- Part 5 as both managers; part 9, its standby, is the one valid entry, of its rack. -/
def domainState : State :=
  { ((((((((hostState.setFld F.PRT_PARTNUM_PART 5).setFld F.PRT_ROLE_WHISTLE 1).setFld F.PRT_ROLE_RACK 1).setFld F.PRT_MGRSTATE_RMGR 5).setFld F.PRT_MGRSTATE_WMGR 5).setFld
      F.PRT_STBYCFG_RACKSTBY 9).setFld F.PRT_DOM_DATA_VALID 1 0).setFld F.PRT_DOM_DATA_PART 9 0).setFld F.PRT_DOM_DATA_RACK 1 0 with
    frame := (runState 0).frame, mgr := { hostState.mgr with rollIn := 0 } }

/-- A key that no entry has is not found. -/
theorem find_absent {α : Type} : ∀ (m : SMap α) (k : Nat), (∀ e ∈ m, e.1 ≠ k) → SMap.find? m k = none
  | [], _, _ => rfl
  | e :: m, k, h => by
    rw [SMap.find?, if_neg (h e (List.mem_cons_self ..))]
    exact find_absent m k fun x hx => h x (List.mem_cons_of_mem _ hx)

/-- Its one entry. -/
theorem domainState_entries : domainState.entries = [0] := by
  have hk : ∀ e ∈ domainState.fields, e.1 % 1024 = 286 → e.1 = 286 := by decide
  have hv : ∀ i, domainState.flag F.PRT_DOM_DATA_VALID (i + 1) = false := by
    intro i
    have : SMap.find? domainState.fields (F.PRT_DOM_DATA_VALID.key (i + 1)) = none := by
      refine find_absent _ _ fun e he h => ?_
      have := hk e he
      simp [Fld.key, F.PRT_DOM_DATA_VALID] at h
      omega
    unfold State.flag State.fld SMap.get; rw [this]; rfl
  have h0 : domainState.flag F.PRT_DOM_DATA_VALID 0 = true := by decide
  unfold State.entries
  rw [show domainSize = 4095 + 1 from rfl, List.range_succ_eq_map, List.filter_cons_of_pos h0]
  simp [List.filter_map, Function.comp_def, hv]

/-- The parts its roll calls go to. -/
theorem domainState_rollParts : domainState.rollParts = [9] := by
  have h : domainState.flag F.PRT_DOM_DATA_RACK 0 = true := by decide
  have h2 : (!domainState.flag F.PRT_DOM_DATA_SPARE 0) = true := by decide
  have h4 : domainState.mgr.expelled = [] := by decide
  have h3 : domainState.entryPart 0 = 9 := by decide
  have hr : domainState.rack = [0] := by
    unfold State.rack; rw [domainState_entries, List.filter_cons_of_pos h, List.filter_nil, List.mergeSort_singleton]
  unfold State.rollParts; rw [hr, List.filter_singleton, h2, h4]; simp [h3]

/-- The premises of `ManagersDirectParts` are met, clause by clause. -/
theorem witness_managers :
    0 < (domainState.setFld F.PRT_MGREPOCH_EPOCH 1).fld F.PRT_MGREPOCH_EPOCH ∧ domainState.accepts domainState.rackMgr 5 0 ∧ 5 = domainState.partNum ∧
      domainState.isWhistle = true ∧ domainState.isRack = true ∧ domainState.entryOf 9 = some 0 ∧ domainState.frame.st = .running ∧ domainState.mgr.subst = none ∧
      9 = domainState.fld F.PRT_STBYCFG_RACKSTBY ∧ domainState.fld F.PRT_MGREPOCH_EPOCH < 1 ∧ domainState.mgr.rollIn = 0 ∧ domainState.rollParts = [9] ∧
      9 ≠ domainState.partNum ∧ (domainState.roll 9).answered = true ∧ domainState.mgr.nextRoll = 0 ∧ (domainState.roll 9).notReady = 0 := by
  exact ⟨by decide, ⟨by decide, by decide, by decide⟩, by decide, by decide, by decide, entryOf_first (by decide) (by decide), by decide, by decide, by decide, by decide,
    by decide, domainState_rollParts, by decide, by decide, by decide, by decide⟩

/-- The same with a resident image of shard 3 whose chunk 0 the manager holds, after roll call 0. -/
def rollState : State :=
  { domainState with
    mgr := { domainState.mgr with nextRoll := 1 }
    wgt := { domainState.wgt with resident := some { image := [1], shard := 3, root := [], leaves := [] }, chunk0 := [1] } }

/-- And of the answers to a roll call. -/
theorem witness_roll :
    rollState.wgt.resident.isSome = true ∧ rollState.reference 3 = some [1] ∧ 0 + 1 = rollState.mgr.nextRoll ∧ ([1] : Bytes) = slice [1] (48 * (0 % 256)) 48 ∧
      ([] : Bytes) ≠ slice [1] (48 * (0 % 256)) 48 := by decide

/-- A substitution at a stage: part 9 is to be replaced by the spare 11 at entry 3. -/
def substState (stage now : Nat) : State :=
  { domainState with now := now, mgr := { domainState.mgr with subst := some { failed := 9, entry := 3, former := 11, stage := stage, began := 0 } } }

/-- The premises of `FailedPartsAreReplaced` are met, clause by clause. -/
theorem witness_substitution :
    domainState.accepts domainState.rackMgr 5 0 ∧ (substState 0 0).mgr.subst = some { failed := 9, entry := 3, former := 11, stage := 0, began := 0 } ∧
      max 0 (SMap.get 0 (substState 0 1000000000).fab.heard 9) + 1000000000 ≤ (substState 0 1000000000).now ∧
      (substState 0 999999999).now < max 0 (SMap.get 0 (substState 0 999999999).fab.heard 9) + 1000000000 ∧ domainState.mgr.subst = none ∧
      domainState.entryOf 9 = some 0 ∧ domainState.isRack = true ∧ domainState.flag F.PRT_DOM_DATA_RACK 0 = true ∧ 9 ≠ domainState.partNum ∧ State.reset.isRack = false := by
  exact ⟨⟨by decide, by decide, by decide⟩, rfl, by decide, by decide, by decide, entryOf_first (by decide) (by decide), by decide, by decide, by decide, by decide⟩

/-- An idle spare: the one entry, marked so. -/
theorem witness_spare : (domainState.setFld F.PRT_DOM_DATA_SPARE 1 0).spareEntry = some 0 := by
  have h : (domainState.setFld F.PRT_DOM_DATA_SPARE 1 0).entries = [0] := by
    unfold State.entries
    rw [show (fun i => (domainState.setFld F.PRT_DOM_DATA_SPARE 1 0).flag F.PRT_DOM_DATA_VALID i) = fun i => domainState.flag F.PRT_DOM_DATA_VALID i from
      funext fun i => congrArg (· == 1) (State.fld_setFld_of_code _ _ _ _ _ _ (by decide) (by decide) (by decide))]
    exact domainState_entries
  unfold State.spareEntry
  rw [h, List.filter_cons_of_pos (by decide), List.filter_nil]; rfl

/-- The converter in a state, of channel `ch` since 0, with another request held or not. -/
def metState (st ch now : Nat) (held : Option (Nat × Nat × Nat)) : State :=
  { (hostState.setFld F.MET_STATUS_STATE st).setFld F.THM_DIODE_COEF 100000 with
    now := now, met := { hostState.met with ch := ch, held := held, times := [(0, 0), (3, 0)] } }

/-- The premises of `ConversionsHoldValues` are met, clause by clause: beginning, waking, ending. -/
theorem witness_conversions :
    (Nat.testBit 0xC0000003 30 || Nat.testBit 0xC0000003 31) = true ∧ Nat.testBit 0x80000003 30 = false ∧ (metState 0 0 0 none).convState = 0 ∧
      (metState 1 3 0 none).convState ≠ 0 ∧ (metState 1 3 0 none).met.held = none ∧ (metState 1 3 0 (some (4, 0, 0))).met.held ≠ none ∧
      (metState 1 3 400000 none).met.since + 400000 ≤ (metState 1 3 400000 none).now ∧ (metState 1 3 399999 none).now < (metState 1 3 399999 none).met.since + 400000 ∧
      (metState 0 0 0 none).holder ≠ 0 ∧ (metState 2 3 20000000 none).convState = 2 ∧ settleNs 0 0 = 20000000 ∧
      (metState 2 3 0 none).flag F.MET_STATUS_REFIN_FAULT = false ∧ (metState 2 0 0 none).flag F.MET_RES_VALID 1 = false ∧ clampInt (-8388608) 8388607 3000 = 3000 ∧
      839 < (clampInt (-8388608) 8388607 (4194304 + 840) - 4194304).natAbs ∧ (clampInt (-8388608) 8388607 (4194304 + 839) - 4194304).natAbs ≤ 839 ∧
      (metState 0 0 0 none).met.staleRun = false ∧ SMap.find? (metState 0 0 0 none).met.times 3 = some 0 ∧ 0 + (metState 0 0 3000000000 none).staleNs 3 < 3000000000 ∧
      (metState 0 0 0 none).now ≤ 0 + (metState 0 0 0 none).staleNs 3 ∧ 0 + (metState 0 0 3000000000 none).staleNs 0 < 3000000000 ∧ bitsAt 2450000 0 22 = 2450000 ∧
      roleIns ≤ (metState 0 0 0 none).roleOf 0 ∧ (metState 0 0 0 none).locked = false ∧ (metState 0 0 0 none).roleOf 16 < roleIns := by decide

/-- A quotient that the rules do not say how to round lies between the floor and one more. -/
theorem roundFree_bounds (r : Nat) (n : Int) (d : Nat) : n / (d : Int) ≤ roundFree r n d ∧ roundFree r n d ≤ n / (d : Int) + 1 := by
  have h := Nat.mod_lt (Config.openValue r n.toNat) (by decide : 0 < 2)
  unfold roundFree
  dsimp only
  split <;> omega

/-- So does the temperature. -/
theorem temp64_bounds (d : Int) (uv coef : Nat) (h : coef ≠ 0) :
    (640 * (d * uv * 1000) - 174816 * ((2 ^ 27 * coef : Nat) : Int)) / ((10 * (2 ^ 27 * coef) : Nat) : Int) ≤ temp64 d uv coef ∧
      temp64 d uv coef ≤ (640 * (d * uv * 1000) - 174816 * ((2 ^ 27 * coef : Nat) : Int)) / ((10 * (2 ^ 27 * coef) : Nat) : Int) + 1 := by
  unfold temp64; rw [if_neg h]; exact roundFree_bounds _ _ _

/-- Codes of channel 0 that read 25 °C and 100 °C. -/
theorem witness_temp :
    -2560 ≤ temp64 1600700 2500000 100000 ∧ temp64 1600700 2500000 100000 ≤ 5760 ∧ 6080 < temp64 2003300 2500000 100000 ∧ temp64 2003300 2500000 100000 ≤ 9600 := by
  have a := temp64_bounds 1600700 2500000 100000 (by decide)
  have b := temp64_bounds 2003300 2500000 100000 (by decide)
  have ha : (640 * (1600700 * ((2500000 : Nat) : Int) * 1000) - 174816 * ((2 ^ 27 * 100000 : Nat) : Int)) / ((10 * (2 ^ 27 * 100000) : Nat) : Int) = 1600 := by decide
  have hb : (640 * (2003300 * ((2500000 : Nat) : Int) * 1000) - 174816 * ((2 ^ 27 * 100000 : Nat) : Int)) / ((10 * (2 ^ 27 * 100000) : Nat) : Int) = 6399 := by decide
  rw [ha] at a; rw [hb] at b
  omega

/-- A rest-stop place of 30 µs is open for array 2 of core 0 while the itinerary runs, the temperature being 25 °C. -/
def restState : State :=
  { ((hostState.setFld F.THM_TEMP_VALID 1).setFld F.THM_TEMP 1600).setFld F.GLB_CORE_FREQ_MHZ 1600 with
    frame := { (runState 0).frame with active := some { streamItin with rests := [{ core := 0, arrays := 4, start := 0, len := none }] } } }

/-- A sweep whose offset is half a code. -/
def offSweep : List Nat := (List.range 2304).map fun i => 768 * (i % 9) + 32

/-- The sums of a sweep that is ideal but for one offset, after whole converters. -/
theorem sweep_fold (m : List Nat) (c : Nat) (h : ∀ i, i < 2304 → sweepAt m i = 768 * ((i % 9 : Nat) : Int) + c) : ∀ k, k ≤ 256 →
    (List.range (9 * k)).foldl (fun (t : Int × Int) i => (t.1 + sweepAt m i, t.2 + (((i % 9 : Nat) : Int) - 4) * sweepAt m i)) (0, 0) =
      ((k * (27648 + 9 * c) : Int), (k * 46080 : Int))
  | 0, _ => by simp
  | k + 1, hk => by
    rw [show 9 * (k + 1) = 9 * k + 1 + 1 + 1 + 1 + 1 + 1 + 1 + 1 + 1 by omega]
    simp only [List.range_succ, List.foldl_append, List.foldl_cons, List.foldl_nil]
    rw [sweep_fold m c h k (by omega)]
    rw [h (9 * k) (by omega), h (9 * k + 1) (by omega), h (9 * k + 1 + 1) (by omega), h (9 * k + 1 + 1 + 1) (by omega), h (9 * k + 1 + 1 + 1 + 1) (by omega),
      h (9 * k + 1 + 1 + 1 + 1 + 1) (by omega), h (9 * k + 1 + 1 + 1 + 1 + 1 + 1) (by omega), h (9 * k + 1 + 1 + 1 + 1 + 1 + 1 + 1) (by omega),
      h (9 * k + 1 + 1 + 1 + 1 + 1 + 1 + 1 + 1) (by omega)]
    rw [show 9 * k % 9 = 0 by omega, show (9 * k + 1) % 9 = 1 by omega, show (9 * k + 1 + 1) % 9 = 2 by omega, show (9 * k + 1 + 1 + 1) % 9 = 3 by omega,
      show (9 * k + 1 + 1 + 1 + 1) % 9 = 4 by omega, show (9 * k + 1 + 1 + 1 + 1 + 1) % 9 = 5 by omega, show (9 * k + 1 + 1 + 1 + 1 + 1 + 1) % 9 = 6 by omega,
      show (9 * k + 1 + 1 + 1 + 1 + 1 + 1 + 1) % 9 = 7 by omega, show (9 * k + 1 + 1 + 1 + 1 + 1 + 1 + 1 + 1) % 9 = 8 by omega]
    ext <;> simp only [] <;> push_cast <;> (have := Int.add_mul (k : Int) 1 (27648 + 9 * c); omega)

/-- All of them. -/
theorem sums_of (m : List Nat) (c : Nat) (h : ∀ i, i < 2304 → sweepAt m i = 768 * ((i % 9 : Nat) : Int) + c) : sweepSums m = ((256 * (27648 + 9 * (c : Int)), 11796480) : Int × Int) := by
  have := sweep_fold m c h 256 (by decide)
  simpa [sweepSums] using this

/-- An ideal sweep. -/
theorem sums_nil : sweepSums [] = (7077888, 11796480) := by
  rw [sums_of [] 0 (fun i _ => by simp [sweepAt])]; rfl

/-- The other. -/
theorem sums_off : sweepSums offSweep = (7151616, 11796480) := by
  rw [sums_of offSweep 32 (fun i hi => by simp [sweepAt, offSweep, List.getD_eq_getElem?_getD, hi])]; rfl

/-- The ideal one fits. -/
theorem fits_nil : sweepFits [] = true := by
  simp only [sweepFits, gainErr, offErr, sums_nil]; rfl
/-- The other does not. -/
theorem fits_off : sweepFits offSweep = false := by
  simp only [sweepFits, gainErr, offErr, sums_off]; rfl
/-- Yet its check passes. -/
theorem fails_off : sweepFails offSweep = false := by
  unfold sweepFails offSweep
  rw [List.any_eq_false]
  rintro ⟨v, i⟩ h
  have := List.mem_zipIdx h
  simp at this
  simp only [this.2, Bool.or_eq_true, decide_eq_true_eq, not_or]
  omega

/-- An ideal sweep passes and fits; the other passes and does not. -/
theorem witness_sweeps : sweepFails [] = false ∧ sweepFits [] = true ∧ sweepFails offSweep = false ∧ sweepFits offSweep = false :=
  ⟨rfl, fits_nil, fails_off, fits_off⟩

/-- The premises of `TrimsAreCalibrated` are met. -/
theorem witness_calibration :
    State.reset.frame.st = .empty ∧ restState.frame.st = .running ∧ restState.fld F.PWR_BOOT_STAGE ≠ 8 ∧ State.reset.flag F.THM_TEMP_VALID = false ∧
      restState.flag F.MET_STATUS_REFIN_FAULT = false ∧ restState.flag F.THM_TEMP_VALID = true ∧ restState.flag F.THM_TEMP_FAULT = false ∧
      restState.met.staleRun = false ∧ restState.restOpen 2 24000 = true ∧ restState.restOpen 3 24000 = false ∧ (restState.setFld F.ARR_STATUS_MODE 0 2).mode 2 = modeServe ∧
      (restState.setFld F.ARR_STATUS_MODE 0 2).cmdRefusal 2 1 = none ∧ (restState.arr 2).prod = none ∧ restState.flag F.ARR_STATUS_SIDE_STALE 2 = false ∧
      restState.met.lateOut = false ∧ SMap.get 0 restState.met.fails 2 = 0 := by decide

/-- A step runs; both slots hold runtime images, the rails are good, the temperature has been read. -/
def bootState (k : Nat) : State :=
  let s := raiseOrder.foldl (fun (s : State) i => s.setFld F.PWR_RAIL_DATA_STATE 2 i) (hostState.setFld F.MET_RES_VALID 1 0)
  { (s.setVfld F.UPD_SLOT_STATE_RUNTIME 2 0).setVfld F.UPD_SLOT_STATE_RUNTIME 2 1 with pwr := { s.pwr with begun := some k, sysRst := false } }

/-- The premises of `BootStepsEnd` are met, clause by clause. -/
theorem witness_boot :
    (bootState 0).pwr.begun = some 0 ∧ (bootState 0).isOff = false ∧ (bootState 3).holder ≠ 0 ∧ (bootState 0).pwr.seq = .idle ∧
      (raiseOrder.all fun i => (bootState 0).fld F.PWR_RAIL_DATA_STATE i == 2) = true ∧ Nat.testBit 3 2 = false ∧ (bootState 8).flag F.MET_RES_VALID 0 = true ∧
      (bootState 1).stepMode 1 = 0 ∧ (bootState 1).bootsFrom 0 (bootState 1).confirmed = true ∧ (bootState 1).confirmed ≤ 1 ∧ (bootState 4).holder ≤ 2 ∧
      (bootState 4).vfld F.UPD_STATUS_BOOTED ≤ 1 ∧ (bootState 4).slotState 0 2 = 2 ∧ (bootState 4).slotState 1 2 = 2 ∧ ((bootState 5).histRec 4 9).cls < 2 ∧
      State.reset.holder = 0 ∧ State.reset.flag F.MET_RES_VALID 0 = false ∧ State.reset.pwr.begun = none ∧ (bootState 1).bootsFrom 7 0 = false ∧
      (bootState 1).bootsFrom 7 1 = false ∧ (bootState 1).bootsFrom 7 2 = false ∧ roleIns ≤ (bootState 0).roleOf 0 ∧ (bootState 0).roleOf 16 < roleIns := by decide +kernel

/-- The premises of `SmbusTarget` are met: the target answers at its address and at no other; a selector; an alert. -/
theorem witness_smb :
    hostState.smbAnswers 0x58 = true ∧ hostState.smbAnswers 0x59 = false ∧ hostState.smb.bad = false ∧ hostState.smb.count = 1 ∧ hostState.smb.offset ≠ 0x6104 ∧
      (hostState.setFld F.THM_TEMP_OVER 1).alertLow = true ∧ hostState.alertLow = false ∧ hostState.smb.stalled = false := by decide

/-- PRT.DOM.SEL is a selector, PRT.DOM.DATA is none, and there is no register at offset 2. -/
theorem witness_selectors :
    ((findReg .smbus 0x1202C).map fun x => x.2.2.1.isSel) = some false ∧ ((findReg .smbus 0x12028).map fun x => x.2.2.1.isSel) = some true ∧
      (findReg .smbus 2).isNone = true := ⟨by rfl, by rfl, by rfl⟩

/-! Number formats (02_number_formats). -/

/-- The block of the example under R63: 5.3, −2.5, 0.5, 3.5. -/
def exampleBlock : List Nat := [0x40A9999A, 0xC0200000, 0x3F000000, 0x40600000]

/-- The example under R63: byte 127; INT4 codes 5, 0xE, 0, 4, stored as 0xE5 0x40. -/
theorem test_quantise_int4 :
    (quantFree .int4 exampleBlock).byte = 127 ∧ (quantFree .int4 exampleBlock).codes = [5, 0xE, 0, 4] ∧
      packNibbles [5, 0xE, 0, 4] = [0xE5, 0x40] := by decide

/-- The example under R63: FP4 codes 7, 0xC, 1, 6 with doubled integers 12, −4, 1, 8. -/
theorem test_quantise_fp4 :
    (quantFree .fp4 exampleBlock).byte = 127 ∧ (quantFree .fp4 exampleBlock).codes = [7, 0xC, 1, 6] ∧
      [7, 0xC, 1, 6].map (elemInt .fp4) = [12, -4, 1, 8] := by decide

/-- The example under R63: −4 is driven as 0b11100, planes 0 to 4. -/
theorem test_fp4_planes : (List.range 5).map (planeBit .fp4 (-4)) = [0, 0, 1, 1, 1] := by decide

/-- R51: a weight w is stored as u = w + 8 in a high and a low level; the example under R101 has w = 5 as u = 13, h = 3, l = 1. -/
theorem test_weight_code : weightCode 5 = 13 ∧ weightOf 3 1 = 5 ∧ weightOf 0 1 = -7 ∧ weightOf 1 1 = -3 ∧ weightOf 3 3 = 7 := by decide

/-- The example under R70: inputs 3 and −2, weights −3 and 7; P = −15 and z = −23. -/
theorem test_group_product :
    planeSum .int4 [(1, 1), (4, 4), (3, 3), (3, 3)] = -15 ∧ groupProduct (-15) 1 = -23 := by decide

/-- An array whose rows 0 and 1 hold weights −3 and 7 in column 5, at the codes of their levels. -/
def exampleArray : ArrSt :=
  { ArrSt.init with cells := [(10, 32), (11, 32), (1034, 96), (1035, 96)] }

/-- The same example through the converters: the codes of column 5 in group 0. -/
theorem test_group_codes :
    exampleArray.groupCodes .int4 [(0, 3), (1, -2)] [] 0 5 = [(1, 1), (4, 4), (3, 3), (3, 3)] := by decide

/-- Table 3-5 and R94: conversions of a product, INT4 and FP4, without and with the mend group. -/
theorem test_conversions :
    conversions .int4 32 false = 512 ∧ conversions .int4 32 true = 528 ∧ conversions .fp4 32 false = 640 ∧
      conversions .fp4 32 true = 660 := by decide

/-- The example under R83: ε = 0.51176 at 65 °C and 2,190 hours, and 0.43581 when fresh. -/
theorem test_epsilon :
    epsilonTemp 4160 = 4480 ∧ fpLt 0x3F030261 (epsilonFp (epsilonTemp 4160) 2190) = true ∧
      fpLt (epsilonFp (epsilonTemp 4160) 2190) 0x3F030309 = true := by decide +kernel

/-- The example under R83: Q_c = 116 with s = 1 in G0 to G7 and d = 2 in G4. -/
theorem test_q_factor :
    qFactor ((List.range 32).map fun g => (if g < 8 then 1 else 0, if g = 4 then 2 else 0)) = 116 := by decide

/-- The example under R83: σ = 209.52, the threshold 1,257.1 at N = 6, which 1,290 exceeds. -/
theorem test_threshold :
    let sigma := sigmaFp .int4 116 (epsilonFp (epsilonTemp 4160) 2190)
    fpLt 0x435183D7 sigma = true ∧ fpLt sigma 0x43518666 = true ∧ exceedsFp 1290 (tastThreshold sigma 24) = true ∧
      exceedsFp 1257 (tastThreshold sigma 24) = false := by decide +kernel

/-! Arrays and weights (03_cim_arrays, 07_weights). -/

/-- The example under R101: dd = 12 under group shift 1 takes shift 2 and weight 6; under group shift 3 it is unmendable. -/
theorem test_mend_value : mendValue 12 1 = some (6, 2) ∧ mendValue 12 3 = none := by decide

/-- R86 and the example under R101: code 34 lies in level 1's window and band, code 3 in level 0's band. -/
theorem test_bands : bandOf 34 = some 1 ∧ inWindow 1 34 = true ∧ bandOf 3 = some 0 := by decide

/-! The core (04_core). -/

/-- The example under R127 to R130: ACCUMULATE of two chains of eight arrays takes 160 cycles; the rotation of 8,192 elements in
4,096-point segments 288, with array-bound quantisation 320. -/
theorem test_core_cycles :
    (OpKind.accumulate 2 true 0).cycles 16 = 160 ∧ (OpKind.rotq 12 0 .int4 true 1 0 0 8192).cycles 0 = 288 ∧
      (OpKind.rotq 12 2 .int4 true 1 0 0 8192).cycles 0 = 320 := by decide

/-- The example under R131: both products take 8,216 cycles. -/
theorem test_matmul_cycles :
    (OpKind.matmul 0 0 0 8 2048 4 0).cycles 0 = 8216 ∧ (OpKind.matmul 0 0 0 8 128 64 0).cycles 0 = 8216 := by decide

/-! Places and registers (00_scope, 01_architecture, 16_register_map). -/

/-- The example of 16_register_map: the site (East, 27, 12) has index 887. -/
theorem test_site : siteOf 1 12 27 = 887 := by decide

/-- The example of 00_scope: West's row 9 is carried by row 30, so (West, 12, 30) has logical ID 372 and (West, 12, 9) none; East is
untouched, so (East, 27, 12) has 507. -/
theorem test_logical_core :
    let s := (State.reset.setFld F.GLB_ROWMAP_DATA_PROW 30 9).setFld F.GLB_ROWMAP_DATA_PROW 12 (32 + 12)
    s.siteCore (siteOf 0 30 12) = some 372 ∧ s.siteCore (siteOf 0 9 12) = none ∧ s.siteCore (siteOf 1 12 27) = some 507 ∧
      s.coreSite 372 = some (siteOf 0 30 12) := by decide +kernel

/-- The example of 01_architecture: GLB.SERIAL_A of a serial number that begins K7M2. -/
theorem test_serial : (State.reset.setWin 0 { WinSt.init with ready := true }).readReg (.host 0) 0x8 = 0x324D374B := by decide +kernel

/-! Memory and serving (06_network_and_memory, 08_serving). -/

/-- The examples of R210 and of 08_serving: 30 groups a page at 128 elements, 4 at 960. -/
theorem test_page_groups : groupsPerPage 128 = 30 ∧ groupsPerPage 960 = 4 := by decide

/-- The ration of Table 8-6 at a budget. -/
def exampleRation (b : Int) : Ration := ⟨false, true, b, 400, 1000, 2000, 0, 0⟩

/-- Table 8-6: the refills after the boundaries of 1,200 and 2,000 µs, and none after 1,600 µs. -/
theorem test_refills :
    ((exampleRation 41).refill 800000 1200000).budget = 441 ∧ ((exampleRation 440).refill 1200000 1600000).budget = 440 ∧
      ((exampleRation 183).refill 1600000 2000000).budget = 583 := by decide

/-- Table 8-6: in frame 1 both are bound, in frame 2 the generation only. -/
theorem test_rations :
    (exampleRation 300).allows 1 0 true = true ∧ (exampleRation 300).allows 2 256 false = true ∧
      (exampleRation 299).allows 257 0 true = true ∧ (exampleRation 299).allows 258 256 false = false := by decide

/-! Integrity (11_integrity_and_recovery). -/

/-- The example under R374: hours 4,210, 4,211 and 4,690 make an array permanent; 4,930 in place of 4,690 does not. -/
theorem test_windows :
    permanentWindows [(4690, 1), (4211, 1), (4210, 1)] = true ∧ permanentWindows [(4930, 1), (4211, 1), (4210, 1)] = false ∧
      permanentWindows [(4211, 1), (4210, 1)] = false := by decide

/-! Metrology and power (13_calibration_and_thermal, 14_power_clocks_startup). -/

/-- The example under R422: D = 3,631,040 at 2.5 V and 200,010 nV/K reads 65.00 °C (4,160.003/64 before
the rounding, which is free, log entry 3). -/
theorem test_temperature : 4160 ≤ temp64 3631040 2500000 200010 ∧ temp64 3631040 2500000 200010 ≤ 4161 := by
  have h := temp64_bounds 3631040 2500000 200010 (by decide)
  have e : (640 * (3631040 * ((2500000 : Nat) : Int) * 1000) - 174816 * ((2 ^ 27 * 200010 : Nat) : Int)) /
      ((10 * (2 ^ 27 * 200010) : Nat) : Int) = 4160 := by decide
  omega

/-- The example of 13_calibration_and_thermal: at the defaults the temperature is read every 40.8 ms, two conversions each waking
and settling. -/
theorem test_conversion_time : 2 * (wakeNs + settleNs 0 0) = 40800000 := by decide

/-- The example under R446: a deficit of 38 mV stretches the clock to 1,450 MHz, one of 170 mV to 800 MHz. -/
theorem test_deficit : deficitMhz 38 = 1450 ∧ deficitMhz 170 = 800 ∧ deficitMhz 10 = 1600 := by decide

/-! The SMBus target (17_electrical_and_package). -/

/-- The state of the example under R526: SMB_ADDR 0b01, TEMP 4,160 with SEQ 9, no trip, the blanking over. -/
def exampleSmb : State :=
  let s := { State.reset with pwr := { State.reset.pwr with aon := true }, smb := { State.reset.smb with addr := 1 } }
  (((s.setFld F.THM_TEMP 4160).setFld F.THM_TEMP_SEQ 9).setFld F.THM_TEMP_VALID 1).setFld F.THM_TRIP_BLANK 0

/-- The example under R526: SET_OFFSET 0x5100 with count 2 to address 0x59, then READ. -/
theorem test_smbus_read :
    let t := (exampleSmb.smbSetOffset 0x59 0x5100 (some 2) true).smbRead 0x59 false
    t.smb.out = [0x40, 0x10, 0x09, 0x80, 0, 0, 0, 0] ∧ t.smb.offset = 0x5108 := by decide +kernel
end

/-!
PROOFS of the statements on commands that stop and on register access (00_scope R16 to R20; 16_register_map R499 to R512).
-/

namespace Sys2Proof.Machine

/-! Which commands stop. -/

/-- `within` stops on a false condition only. -/
theorem within_eq_fault {ok : Bool} {t : State} {f : Fault} (h : within ok t = .fault f) : ok = false := by
  cases ok with
  | false => rfl
  | true => rw [within_true] at h; cases h

/-- `within` refuses nothing. -/
theorem within_ne_refused (ok : Bool) (t : State) (r : Refusal) : within ok t ≠ .refused r := by
  cases ok with
  | false => rw [within_false]; nofun
  | true => rw [within_true]; nofun

/-- Every command's meaning stands under the condition that `Instr.wf` names, and under no other.  The commands with a register
path are written with `Path.ok`, the model's second account of the same paths; every other condition is literally the same. -/
theorem exec_eq_within (i : Instr) (s : State) : ∃ t, exec i s = within i.wf t := by
  cases i
  case registerWrite | rcCounterRead | timeLoRead | tstInject | pitchFieldWrite | apply | queueEnable | queueDrain | retrain
      | refinWrite | tripTest | clearAlt | off | sysrst | stateReq =>
    simp only [Instr.wf, ← Path.ok_eq]
    exact ⟨_, rfl⟩
  all_goals exact ⟨_, rfl⟩

/-! Where a register write goes, by path and address. -/

/-- Functions 0 to 16 have a path. -/
theorem hostPath_ok {fn : Nat} (h : fn ≤ 16) : (Path.host fn).ok = true := decide_eq_true h

/-- While BAR0 does not answer, a host write does nothing (R512, log entry 85). -/
theorem State.writeReg_host_closed {s : State} (fn addr value : Nat) (h : s.barOpen = false) :
    s.writeReg (.host fn) addr value = s := by
  unfold State.writeReg
  split <;> simp [h]

/-- A host write to no register is only audited (R500, R491). -/
theorem State.writeReg_host_none {s : State} {fn addr : Nat} (value : Nat) (ho : s.barOpen = true)
    (hn : findReg (.host fn) addr = none) : s.writeReg (.host fn) addr value = s.audit fn 0xFFFF 0 0 addr := by
  simp [State.writeReg, hn, ho]

/-- A host write to a register that the function reaches is judged field by field (R20); beyond HIF and the row map's
selector a virtual function reaches none. -/
theorem State.writeReg_host_found {s : State} {fn addr inst k : Nat} {b : Block} {r : RegInfo} (value : Nat) (ho : s.barOpen = true)
    (hr : findReg (.host fn) addr = some (b, inst, r, k)) :
    s.writeReg (.host fn) addr value =
      if fn ≠ 0 && b ≠ .hif && !(b = .glb && r.isSel) then s.audit fn 0xFFFF 0 0 addr else s.hostWrite fn addr b inst r k value := by
  simp [State.writeReg, hr, ho]

/-- SMBus writes nothing but selectors (R506). -/
theorem State.writeReg_smbus_of_not_sel {addr : Nat} (s : State) (value : Nat)
    (h : ∀ b inst r k, findReg .smbus addr = some (b, inst, r, k) → r.isSel = false) : s.writeReg .smbus addr value = s := by
  cases hr : findReg .smbus addr with
  | none => simp [State.writeReg, hr]
  | some q =>
    obtain ⟨b, inst, r, k⟩ := q
    simp [State.writeReg, hr, h b inst r k hr]

/-- Firmware writes nothing where there is no register (R500). -/
theorem State.writeReg_firmware_none {addr : Nat} (s : State) (value : Nat) (h : findReg .firmware addr = none) :
    s.writeReg .firmware addr value = s := by
  simp [State.writeReg, h]

/-! How a written field is judged (R19, R20). -/

/-- No Role column asks for less than the operator's rank. -/
theorem WRole.rank_pos (r : WRole) : 0 < r.rank := by cases r <;> decide

/-- A field whose role stands above the writer's is never set: its branch of the judgement answers 2 where the others answer 1 or 3. -/
theorem State.judge_ne_set_of_lt (s : State) {rank : Nat} {f : Fld} (i v : Nat) (h : rank < f.role.rank) : s.judge rank f i v ≠ 1 := by
  unfold State.judge
  simp only [h, if_true]
  repeat' split
  all_goals decide

/-- A field that a host role may set, and that takes the value as it is written. -/
structure Fld.hostPlain (f : Fld) : Prop where
  access : f.access = .rw
  own : f.own = false
  store : f.store = .plain
  role : f.role = .opr ∨ f.role = .ins ∨ f.role = .mkr

/-- Such a field stores the value written. -/
theorem State.stored_hostPlain (s : State) {f : Fld} (i v : Nat) (hf : f.hostPlain) : s.stored f i v = some v := by
  simp [State.stored, hf.store]

/-- Such a field is judged by the value it holds and by its role alone. -/
theorem State.judge_hostPlain {s : State} {f : Fld} {i : Nat} (rank v : Nat) (hf : f.hostPlain) (hw : s.writable f i = true) :
    s.judge rank f i v = if v = s.fld f i then 0 else if rank < f.role.rank then 2 else 1 := by
  have hrole : (f.role == .none) = false ∧ (f.role == .fw) = false := by
    rcases hf.role with h | h | h <;> rw [h] <;> decide
  simp [State.judge, hf.own, hrole, hf.access, hw, s.stored_hostPlain i v hf]

/-! What a host write leaves. -/

/-- A host write of which no field is set leaves everything but the audit entries that wait. -/
theorem State.hostWrite_sets_nothing {s : State} {fn : Nat} (addr : Nat) (b : Block) (inst : Nat) (r : RegInfo) (k value : Nat)
    (h : ∀ f i v, s.judge (s.roleOf fn) f i v ≠ 1) :
    ∃ w, s.hostWrite fn addr b inst r k value = { s with sec := { s.sec with waiting := w } } := by
  unfold State.hostWrite
  split
  · exact ⟨_, rfl⟩
  split
  · exact ⟨_, rfl⟩
  · extract_lets parts code t
    have ht : t = s := by simp only [t, parts, List.foldl_map, h, if_false, List.foldl_fixed]
    rw [ht]
    split
    · exact ⟨s.sec.waiting, rfl⟩
    · exact ⟨_, rfl⟩

/-- The same of a host write to any address. -/
theorem State.writeReg_host_sets_nothing {s : State} (fn addr value : Nat) (h : ∀ f i v, s.judge (s.roleOf fn) f i v ≠ 1) :
    ∃ w, s.writeReg (.host fn) addr value = { s with sec := { s.sec with waiting := w } } := by
  cases ho : s.barOpen with
  | false => exact ⟨s.sec.waiting, s.writeReg_host_closed fn addr value ho⟩
  | true =>
    cases hr : findReg (.host fn) addr with
    | none => exact ⟨_, s.writeReg_host_none value ho hr⟩
    | some q =>
      obtain ⟨b, inst, r, k⟩ := q
      rw [s.writeReg_host_found value ho hr]
      split
      · exact ⟨_, rfl⟩
      · exact s.hostWrite_sets_nothing addr b inst r k value h

/-- A register of one field that is no row of like fields has one part, at its place. -/
theorem regParts_one {r : RegInfo} {f : Fld} (place inst k value : Nat) (hf : r.flds = [f]) (h1 : f.rep = 1) :
    regParts r place inst k value = [(f, place, bitsAt value f.lo f.width)] := by
  simp [regParts, hf, h1, fldPlace]

/-- A host write of a register with one plain field: the field is set if it is judged so, and the write is audited with the
judgement's code. -/
theorem State.hostWrite_one {s : State} {fn inst k place value : Nat} {b : Block} {r : RegInfo} {f : Fld} (addr : Nat)
    (hb : b ≠ .arr ∧ b ≠ .intc ∧ b ≠ .rgr) (hok : wordOk b r value = true) (hp : s.regPlace (.host fn) b inst r k = some place)
    (hf : r.flds = [f]) (h1 : f.rep = 1) (hs : r.isSel = false) (hplain : f.hostPlain) (hw : s.writable f place = true) :
    s.hostWrite fn addr b inst r k value =
      if bitsAt value f.lo f.width = s.fld f place then s.audit fn 0xFFFF 0 0 addr
      else if s.roleOf fn < f.role.rank then s.audit fn 0xFFFF 1 0xF3 addr
      else (s.putFld f place (bitsAt value f.lo f.width)).audit fn 0xFFFF 0 0 addr := by
  obtain ⟨harr, hintc, hrgr⟩ := hb
  have hpart := regParts_one place inst k value hf h1
  have hst := s.stored_hostPlain place (bitsAt value f.lo f.width) hplain
  have hj := s.judge_hostPlain (s.roleOf fn) (bitsAt value f.lo f.width) hplain hw
  split_ifs at hj ⊢ <;> simp [State.hostWrite, harr, hintc, hrgr, hok, hp, hpart, hs, hst, hj]

/-! What register reads do beside reading. -/

/-- The queue that a function selects depends on the register fields alone. -/
theorem State.localQueue_of_fld {s t : State} (h : @State.fld t = @State.fld s) : t.localQueue = s.localQueue := by
  unfold State.localQueue
  rw [h]

/-- The place of a register depends on the register fields alone. -/
theorem State.regPlace_of_fld {s t : State} (h : @State.fld t = @State.fld s) : t.regPlace = s.regPlace := by
  unfold State.regPlace
  rw [h, State.localQueue_of_fld h]

/-! What the last read returned enters neither BAR0's answer, nor a role, nor a register's place. -/

@[simp] theorem State.barOpen_readout (s : State) (v : Nat) : ({ s with readout := v } : State).barOpen = s.barOpen := rfl

@[simp] theorem State.roleOf_readout (s : State) (v fn : Nat) : ({ s with readout := v } : State).roleOf fn = s.roleOf fn := rfl

theorem State.regPlace_readout (s : State) (v : Nat) : ({ s with readout := v } : State).regPlace = s.regPlace :=
  State.regPlace_of_fld rfl

/-- A read by a host function with a role clears the one RC field of its register (R122, R510). -/
theorem State.counterRead_clears {s : State} {fn addr inst k place : Nat} {b : Block} {r : RegInfo} {f : Fld} (ho : s.barOpen = true)
    (hrole : s.roleOf fn ≠ 0) (hr : findReg (.host fn) addr = some (b, inst, r, k)) (hp : s.regPlace (.host fn) b inst r k = some place)
    (hf : r.flds = [f]) (hrc : f.access = .rc) :
    s.counterRead (.host fn) addr = ({ s with readout := s.readReg (.host fn) addr } : State).setFld f 0 place := by
  simp [State.counterRead, hr, ho, hrole, State.regPlace_readout, hp, hf, hrc]

/-- A read on any other path, or by a host function without a role, only reads (R510). -/
theorem State.counterRead_only_reads {s : State} {p : Path} (addr : Nat) (hrole : ∀ fn, p = .host fn → s.roleOf fn = 0) :
    s.counterRead p addr = { s with readout := s.readReg p addr } := by
  cases p with
  | host fn =>
    cases hr : findReg (.host fn) addr with
    | none => simp [State.counterRead, hr]
    | some q => simp [State.counterRead, hr, hrole fn rfl]
  | smbus => rfl
  | firmware => rfl

/-- Whether a host path answers is whether BAR0 does. -/
theorem State.pathOff_host (s : State) (fn : Nat) : s.pathOff (.host fn) = !s.barOpen := rfl

/-- Reading the low word of the time base latches its high word for the path (R501). -/
theorem State.loRead_time {s : State} {p : Path} (h : s.pathOff p = false) :
    s.loRead p false = { s.setFld F.CLK_TIME_HI_NS (s.time / 2 ^ 32) (pathCopy p true) with readout := s.time % 2 ^ 32 } := by
  simp [State.loRead, h]

/-- Reading the low word of the next audit number latches its high word for the path (R501). -/
theorem State.loRead_audit {s : State} {p : Path} (h : s.pathOff p = false) :
    s.loRead p true =
      { s.setFld F.VLT_AUDIT_SEQ_HI_SEQ (s.sec.nextSeq / 2 ^ 32) (pathCopy p true) with readout := s.sec.nextSeq % 2 ^ 32 } := by
  simp [State.loRead, h]

/-- A path that does not answer gives 0 and latches nothing (R512, log entry 85). -/
theorem State.loRead_off {s : State} {p : Path} (audit : Bool) (h : s.pathOff p = true) : s.loRead p audit = { s with readout := 0 } := by
  simp [State.loRead, h]

/-! The statements. -/

/-- Settles O4: a command's meaning is `within` its well-formedness, which stops with `noSuchUnit` or goes on. -/
theorem onlyIllFormedCommandsStop : Obligations.OnlyIllFormedCommandsStop := by
  unfold Obligations.OnlyIllFormedCommandsStop
  intro i s
  obtain ⟨t, ht⟩ := exec_eq_within i s
  rw [ht]
  exact ⟨within_fault, fun _ => within_eq_fault, within_ne_refused _ _⟩

/-- Settles O24: without a role no field is judged to be set; SMBus writes only selectors, and firmware only registers. -/
theorem writesWithoutRoleChangeNothing : Obligations.WritesWithoutRoleChangeNothing := by
  unfold Obligations.WritesWithoutRoleChangeNothing
  intro s addr value
  refine ⟨fun fn hfn hrole => ?_, fun hsel => ?_, fun hnone => ?_⟩
  · rw [exec_registerWrite, within_next (hostPath_ok hfn)]
    obtain ⟨w, hw⟩ := s.writeReg_host_sets_nothing fn addr value fun f i v => s.judge_ne_set_of_lt i v (hrole ▸ f.role.rank_pos)
    exact ⟨w, by rw [hw]⟩
  · rw [exec_registerWrite, s.writeReg_smbus_of_not_sel value hsel]; rfl
  · rw [exec_registerWrite, s.writeReg_firmware_none value hnone]; rfl

/-- Settles O23: the one field is judged by its value and its role, and the judgement decides both the field and the audit entry. -/
theorem hostWritesSetFields : Obligations.HostWritesSetFields := by
  unfold Obligations.HostWritesSetFields
  intro s fn addr value hfn
  rw [exec_registerWrite, within_next (hostPath_ok hfn)]
  simp only [Outcome.next_inj]
  refine ⟨s.writeReg_host_closed fn addr value, s.writeReg_host_none value, ?_⟩
  intro b inst r k place f ho hr hreach harr hintc hrgr hok hp hf h1 hs hacc hown hst hrole hw
  have hwrite : s.writeReg (.host fn) addr value = s.hostWrite fn addr b inst r k value := by
    rw [s.writeReg_host_found value ho hr]
    rcases hreach with h | h <;> simp [h]
  rw [hwrite, s.hostWrite_one addr ⟨harr, hintc, hrgr⟩ hok hp hf h1 hs ⟨hacc, hown, hst, hrole⟩ hw]
  refine ⟨fun heq => ?_, fun hne hle => ?_, fun hne hlt => ?_⟩
  · rw [if_pos heq]
  · rw [if_neg hne, if_neg (Nat.not_lt_of_le hle)]
  · rw [if_neg hne, if_pos hlt]

/-- Settles O25: clearing and latching are the only effects of a read beside its result. -/
theorem readsWithSideEffects : Obligations.ReadsWithSideEffects := by
  unfold Obligations.ReadsWithSideEffects
  intro s p addr hp
  simp only [exec_rcCounterRead, exec_timeLoRead, within_next hp, Outcome.next_inj]
  refine ⟨?_, State.loRead_time, State.loRead_audit, State.loRead_off⟩
  intro b inst r k place f hon hr hplace hf hrc
  refine ⟨?_, State.counterRead_only_reads addr⟩
  rintro fn rfl hrole
  have ho : s.barOpen = true := by simpa [State.pathOff_host] using hon
  exact s.counterRead_clears ho hrole hr hplace hf hrc

end Sys2Proof.Machine

/-!
PROOFS of the statements on the core clock and the start-up steps (01_architecture R32, R42; 14_power_clocks_startup R443 to R464).
-/

namespace Sys2Proof.Machine

/-! Folds. -/

/-- What every turn of a fold leaves, the fold leaves. -/
theorem foldl_same {σ α γ : Type} (g : σ → γ) {f : σ → α → σ} (hf : ∀ s a, g (f s a) = g s) (l : List α) (s : σ) :
    g (l.foldl f s) = g s := by
  induction l generalizing s with
  | nil => rfl
  | cons a l ih => exact (ih (f s a)).trans (hf s a)

/-- What the turn of one element brings about, from a state that the fold keeps sound, and the turns of the others leave, stands
after a fold over a list that holds the element. -/
theorem foldl_mem {σ α : Type} (inv p : σ → Prop) {f : σ → α → σ} {a : α} (hinv : ∀ s b, inv s → inv (f s b)) (hown : ∀ s, inv s → p (f s a))
    (hother : ∀ s b, b ≠ a → p s → p (f s b)) {l : List α} (ha : a ∈ l) {s : σ} (hs : inv s) : p (l.foldl f s) := by
  have hstays : ∀ (l : List α) (s : σ), inv s → p s → p (l.foldl f s) := by
    intro l
    induction l with
    | nil => exact fun _ _ h => h
    | cons b l ih =>
      intro s hs h
      refine ih _ (hinv s b hs) ?_
      by_cases hb : b = a
      · subst hb; exact hown s hs
      · exact hother s b hb h
  induction l generalizing s with
  | nil => cases ha
  | cons b l ih =>
    rcases List.mem_cons.1 ha with rfl | ha
    · exact hstays l _ (hinv s a hs) (hown s hs)
    · exact ih ha (hinv s b hs)

/-! Reads after writes: flags and counters. -/

/-- A one-bit field reads the flag written. -/
theorem State.flag_setFlag_same (s : State) {f : Fld} (b : Bool) (i : Nat) (hf : f.width = 1) : (s.setFlag f b i).flag f i = b := by
  cases b <;> simp [State.flag, State.setFlag, hf]

/-- A counter reads one count more, up to its end. -/
@[simp] theorem State.fld_count_same (s : State) (f : Fld) (n i : Nat) : (s.count f n i).fld f i = min (s.fld f i + n) (2 ^ f.width - 1) := by
  have hpos := Nat.two_pow_pos f.width
  rw [State.count, State.fld_setFld_same]
  exact Nat.mod_eq_of_lt (by omega)

theorem State.fld_setFlag_of_code (s : State) (f g : Fld) (b : Bool) (i j : Nat) (hf : f.code < 1024) (hg : g.code < 1024) (h : g.code ≠ f.code) :
    (s.setFlag f b i).fld g j = s.fld g j := s.fld_setFld_of_code f g _ i j hf hg h

theorem State.fld_count_of_code (s : State) (f g : Fld) (n i j : Nat) (hf : f.code < 1024) (hg : g.code < 1024) (h : g.code ≠ f.code) :
    (s.count f n i).fld g j = s.fld g j := s.fld_setFld_of_code f g _ i j hf hg h

/-- An interrupt edge leaves every field but the pending bits and the count of merged edges. -/
theorem State.onlyFields_raiseBoth (s : State) (id : Nat) : s.onlyFields (s.raiseBoth id) [F.INTC_PEND, F.INTC_MERGECNT] :=
  State.onlyFields_raiseHalf (State.onlyFields_raiseHalf (State.onlyFields_refl s _) (by decide) (by decide)) (by decide) (by decide)

theorem State.fld_raiseBoth (s : State) (id : Nat) (f : Fld) (i : Nat) (h : f.code % 1024 ∉ [F.INTC_PEND, F.INTC_MERGECNT].map (·.code)) :
    (s.raiseBoth id).fld f i = s.fld f i := (s.onlyFields_raiseBoth id).fld i h

/-- It leaves every component but the fields and the latches of a stopped controller. -/
theorem State.onlyIn_raiseBoth (s : State) (id : Nat) : s.onlyIn (s.raiseBoth id) [.fields, .irq] :=
  State.onlyIn_raiseHalf (State.onlyIn_raiseHalf (State.onlyIn_refl s _) (by decide) (by decide)) (by decide) (by decide)

@[simp] theorem State.raiseBoth_pwr (s : State) (id : Nat) : (s.raiseBoth id).pwr = s.pwr := s.onlyIn_raiseBoth id .pwr (by decide)
@[simp] theorem State.raiseBoth_frame (s : State) (id : Nat) : (s.raiseBoth id).frame = s.frame := s.onlyIn_raiseBoth id .frame (by decide)
@[simp] theorem State.raiseBoth_cores (s : State) (id : Nat) : (s.raiseBoth id).cores = s.cores := s.onlyIn_raiseBoth id .cores (by decide)

/-- An event that is posted changes one window, which stays as ready as it was. -/
theorem State.postTo_eq_setWin (s : State) (fn code : Nat) (detail : List Nat) :
    ∃ w, s.postTo fn code detail = s.setWin fn w ∧ w.ready = (s.win fn).ready := by
  unfold State.postTo
  dsimp only
  split
  · exact ⟨_, rfl, rfl⟩
  · exact ⟨_, rfl, rfl⟩

@[simp] theorem State.post_fields (s : State) (code : Nat) (detail : List Nat) : (s.post code detail).fields = s.fields := by
  obtain ⟨w, h, -⟩ := s.postTo_eq_setWin 0 code detail; rw [State.post, h]; rfl
@[simp] theorem State.post_pwr (s : State) (code : Nat) (detail : List Nat) : (s.post code detail).pwr = s.pwr := by
  obtain ⟨w, h, -⟩ := s.postTo_eq_setWin 0 code detail; rw [State.post, h]; rfl
@[simp] theorem State.post_frame (s : State) (code : Nat) (detail : List Nat) : (s.post code detail).frame = s.frame := by
  obtain ⟨w, h, -⟩ := s.postTo_eq_setWin 0 code detail; rw [State.post, h]; rfl
@[simp] theorem State.post_cores (s : State) (code : Nat) (detail : List Nat) : (s.post code detail).cores = s.cores := by
  obtain ⟨w, h, -⟩ := s.postTo_eq_setWin 0 code detail; rw [State.post, h]; rfl

/-- Equal register fields read alike. -/
theorem State.fld_of_fields {s t : State} (h : t.fields = s.fields) (f : Fld) (i : Nat) : t.fld f i = s.fld f i := by
  unfold State.fld; rw [h]

@[simp] theorem State.fld_post (s : State) (code : Nat) (detail : List Nat) (f : Fld) (i : Nat) : (s.post code detail).fld f i = s.fld f i :=
  State.fld_of_fields (s.post_fields code detail) f i

@[simp] theorem State.fld_alertRaise (s : State) (f : Fld) (i : Nat) : s.alertRaise.fld f i = s.fld f i := rfl
@[simp] theorem State.alertRaise_pwr (s : State) : s.alertRaise.pwr = s.pwr := rfl

/-- Changing the record of power touches nothing else. -/
theorem State.onlyIn_onPwr {s t : State} {ps : List Part} {g : PwrSt → PwrSt} (h : s.onlyIn t ps) (hp : Part.pwr ∈ ps) : s.onlyIn (t.onPwr g) ps := by
  refine State.onlyIn_trans h fun p hq => ?_
  cases p
  case pwr => exact absurd hp hq
  all_goals rfl

theorem State.onlyFields_onPwr {s t : State} {fs : List Fld} {g : PwrSt → PwrSt} (h : s.onlyFields t fs) : s.onlyFields (t.onPwr g) fs :=
  State.onlyFields_same h rfl

/-! The core clock (R32, R443, R455). -/

/-- With every region PLL locked the clock runs at its base, or at two thirds of it in a stretch. -/
theorem State.clockMhz_locked {s : State} (h : s.fld F.GLB_CLKSTAT_PLL_LOCK = 255) :
    s.clockMhz = if s.pwr.stretch then s.baseMhz * 2 / 3 else s.baseMhz := by
  simp [State.clockMhz, allLocked, h]

/-- With one unlocked it stands. -/
theorem State.clockMhz_unlocked {s : State} (h : s.fld F.GLB_CLKSTAT_PLL_LOCK ≠ 255) : s.clockMhz = 0 := by
  simp [State.clockMhz, allLocked, h]

@[simp] theorem State.setClock_pwr (s : State) : s.setClock.pwr = s.pwr := rfl
@[simp] theorem State.setClock_frame (s : State) : s.setClock.frame = s.frame := rfl
@[simp] theorem State.setClock_cores (s : State) : s.setClock.cores = s.cores := rfl

/-- CORE_FREQ shows the clock. -/
@[simp] theorem State.freq_setClock (s : State) : s.setClock.fld F.GLB_CORE_FREQ_MHZ = s.clockMhz % 4096 := by
  simp (disch := decide) [State.setClock, State.fld_setFlag_of_code]; rfl

/-- STRETCH shows a stretch or a clamp. -/
theorem State.stretch_setClock (s : State) : s.setClock.flag F.GLB_CLKSTAT_STRETCH = (s.pwr.stretch || s.pwr.clampMhz.isSome) :=
  State.flag_setFlag_same _ _ _ rfl

theorem State.onlyIn_setClock {s t : State} {ps : List Part} (h : s.onlyIn t ps) (hp : Part.fields ∈ ps) : s.onlyIn t.setClock ps :=
  State.onlyIn_setFlag (State.onlyIn_setFld h hp) hp

theorem State.onlyFields_setClock {s t : State} {fs : List Fld} (h : s.onlyFields t fs) (hf : F.GLB_CORE_FREQ_MHZ.code % 1024 ∈ fs.map (·.code))
    (hs : F.GLB_CLKSTAT_STRETCH.code % 1024 ∈ fs.map (·.code)) : s.onlyFields t.setClock fs :=
  State.onlyFields_setFlag (State.onlyFields_setFld h hf) hs

/-- The clock's change leaves every field but CORE_FREQ and STRETCH. -/
theorem State.fld_setClock (s : State) (f : Fld) (i : Nat) (h : f.code % 1024 ∉ [F.GLB_CORE_FREQ_MHZ, F.GLB_CLKSTAT_STRETCH].map (·.code)) :
    s.setClock.fld f i = s.fld f i :=
  (State.onlyFields_setClock (State.onlyFields_refl s _) (by decide) (by decide)).fld i h

/-- DROOP_STRETCH counts a droop and takes the clock to two thirds (R443). -/
theorem State.droopStretch_starts {s : State} (hs : s.pwr.stretch = false) (hl : s.fld F.GLB_CLKSTAT_PLL_LOCK = 255) :
    s.droopStretch.pwr = { s.pwr with stretch := true } ∧ s.droopStretch.fld F.GLB_CORE_FREQ_MHZ = s.baseMhz * 2 / 3 % 4096 ∧
      s.droopStretch.flag F.GLB_CLKSTAT_STRETCH = true ∧
      s.droopStretch.fld F.PWR_DROOPCNT = min (s.fld F.PWR_DROOPCNT + 1) (2 ^ F.PWR_DROOPCNT.width - 1) ∧
      s.onlyIn s.droopStretch [.fields, .pwr] ∧ s.onlyFields s.droopStretch [F.GLB_CORE_FREQ_MHZ, F.GLB_CLKSTAT_STRETCH, F.PWR_DROOPCNT] := by
  have hdef : s.droopStretch = ((s.onPwr fun p => { p with stretch := true }).count F.PWR_DROOPCNT).setClock := by
    simp [State.droopStretch, hs]
  rw [hdef]
  refine ⟨rfl, ?_, ?_, ?_, ?_, ?_⟩
  · rw [State.freq_setClock, State.clockMhz_locked (by simpa (disch := decide) [State.fld_count_of_code] using hl)]
    rfl
  · rw [State.stretch_setClock]
    rfl
  · rw [State.fld_setClock _ _ _ (by decide), State.fld_count_same, State.fld_onPwr]
  · exact State.onlyIn_setClock (State.onlyIn_count (State.onlyIn_onPwr (State.onlyIn_refl s _) (by decide)) (by decide)) (by decide)
  · exact State.onlyFields_setClock (State.onlyFields_count (State.onlyFields_onPwr (State.onlyFields_refl s _)) (by decide)) (by decide) (by decide)

/-- DROOP_END gives the clock back. -/
theorem State.droopEnd_returns {s : State} (hl : s.fld F.GLB_CLKSTAT_PLL_LOCK = 255) :
    s.droopEnd.pwr = { s.pwr with stretch := false } ∧ s.droopEnd.fld F.GLB_CORE_FREQ_MHZ = s.baseMhz % 4096 ∧
      s.onlyIn s.droopEnd [.fields, .pwr] := by
  refine ⟨rfl, ?_, State.onlyIn_setClock (State.onlyIn_onPwr (State.onlyIn_refl s _) (by decide)) (by decide)⟩
  rw [State.droopEnd, State.freq_setClock, State.clockMhz_locked (by simpa using hl)]
  rfl

/-- With every region locked, the bitmap of one region unlocks it alone. -/
theorem filter_testBit_two_pow {r : Nat} (h : r < 8) :
    ((List.range 8).filter fun i => (2 ^ r).testBit i && Nat.testBit 255 i) = [r] := by
  revert r; decide

/-- One region PLL unlocks: the clock of all stands (R455). -/
theorem State.pllUnlock_one {s : State} {r : Nat} (hr : r < 8) (hl : s.fld F.GLB_CLKSTAT_PLL_LOCK = 255) :
    let t := s.pllUnlock (2 ^ r)
    t.fld F.GLB_CLKSTAT_PLL_LOCK = 255 - 2 ^ r ∧ t.fld F.GLB_CORE_FREQ_MHZ = 0 ∧
      t.fld F.CLK_UNLOCKCNT = min (s.fld F.CLK_UNLOCKCNT + 1) (2 ^ F.CLK_UNLOCKCNT.width - 1) ∧ t.cores = s.cores ∧ t.frame = s.frame := by
  intro t
  have hdef : t = (((((s.setFld F.GLB_CLKSTAT_PLL_LOCK (255 - 2 ^ r)).count F.CLK_UNLOCKCNT).raiseBoth 333).post 0x00E4 [0 + 2 ^ r]).setClock) := by
    simp only [t, State.pllUnlock, hl, filter_testBit_two_pow hr]
    rfl
  have hpow : 0 < 2 ^ r ∧ 2 ^ r < 256 := ⟨Nat.two_pow_pos r, Nat.pow_lt_pow_right (by decide) hr⟩
  have hlock : t.fld F.GLB_CLKSTAT_PLL_LOCK = 255 - 2 ^ r := by
    rw [hdef, State.fld_setClock _ _ _ (by decide), State.fld_post, State.fld_raiseBoth _ _ _ _ (by decide),
      State.fld_count_of_code _ _ _ _ _ _ (by decide) (by decide) (by decide), State.fld_setFld_same]
    exact Nat.mod_eq_of_lt (show 255 - 2 ^ r < 256 by omega)
  refine ⟨hlock, ?_, ?_, ?_, ?_⟩
  · have hstands : t.fld F.GLB_CLKSTAT_PLL_LOCK ≠ 255 := by omega
    rw [hdef] at hstands ⊢
    rw [State.fld_setClock _ _ _ (by decide)] at hstands
    rw [State.freq_setClock, State.clockMhz_unlocked hstands]
  · rw [hdef, State.fld_setClock _ _ _ (by decide), State.fld_post, State.fld_raiseBoth _ _ _ _ (by decide), State.fld_count_same,
      State.fld_setFld_of_code _ _ _ _ _ _ (by decide) (by decide) (by decide)]
  · rw [hdef]; simp
  · rw [hdef]; simp

/-- An unlock of no region is none. -/
theorem State.pllUnlock_none (s : State) : s.pllUnlock 0 = s := by
  simp [State.pllUnlock]

/-- All region PLLs relock: the clock starts at the frequency that rules (R455). -/
theorem State.pllRelock_starts {s : State} (ho : s.isOff = false) (hl : s.fld F.GLB_CLKSTAT_PLL_LOCK ≠ 255) :
    s.pllRelock.fld F.GLB_CLKSTAT_PLL_LOCK = 255 ∧
      s.pllRelock.fld F.GLB_CORE_FREQ_MHZ = (if s.pwr.stretch then s.baseMhz * 2 / 3 else s.baseMhz) % 4096 ∧ s.onlyIn s.pllRelock [.fields] := by
  have hdef : s.pllRelock = (s.setFld F.GLB_CLKSTAT_PLL_LOCK 255).setClock := by simp [State.pllRelock, ho, allLocked, hl]
  have hlock : (s.setFld F.GLB_CLKSTAT_PLL_LOCK 255).fld F.GLB_CLKSTAT_PLL_LOCK = 255 := State.fld_setFld_same ..
  rw [hdef]
  refine ⟨?_, ?_, State.onlyIn_setClock (State.onlyIn_setFld (State.onlyIn_refl s _) (by decide)) (by decide)⟩
  · rw [State.fld_setClock _ _ _ (by decide), hlock]
  · rw [State.freq_setClock, State.clockMhz_locked hlock]
    rfl

theorem State.pllRelock_none {s : State} (h : s.isOff = true ∨ s.fld F.GLB_CLKSTAT_PLL_LOCK = 255) : s.pllRelock = s := by
  rcases h with h | h <;> simp [State.pllRelock, allLocked, h]

/-! The power limits (R447 to R449). -/

/-- The times of the trailing 100 ms at which an estimate lay above SUSTAIN_W, with the present one. -/
def State.oversWith (s : State) (watts : Nat) : List Nat :=
  let kept := s.pwr.overs.filter fun x => decide (s.now < x + 100000000)
  if s.fld F.PWR_LIMIT_SUSTAIN_W < watts then kept ++ [s.now] else kept

theorem State.length_oversWith (s : State) (watts : Nat) :
    (s.oversWith watts).length =
      (s.pwr.overs.filter fun x => decide (s.now < x + 100000000)).length + if s.fld F.PWR_LIMIT_SUSTAIN_W < watts then 1 else 0 := by
  unfold State.oversWith
  split <;> simp

/-- An estimate as it is noted, before it may clamp the clock. -/
def State.estimateNoted (s : State) (watts : Nat) : State :=
  ((s.setFld F.PWR_ESTIMATE_WATTS (min watts 4095)).onPwr fun p => { p with
    overs := s.oversWith watts, calm := if s.fld F.PWR_LIMIT_SUSTAIN_W - 50 < watts then none else some (p.calm.getD s.now) }).setFld
      F.PWR_ESTIMATE_OVER_US (min (s.oversWith watts).length 65535)

/-- While the clock is not clamped, an estimate is noted and may clamp it: at once above PEAK_W, or with 10,000 above SUSTAIN_W. -/
theorem State.powerEstimate_unclamped {s : State} (watts : Nat) (h : s.pwr.clampMhz = none) :
    s.powerEstimate watts =
      if s.fld F.PWR_LIMIT_PEAK_W < watts then (s.estimateNoted watts).clampOn 1
      else if 10000 ≤ (s.oversWith watts).length then (s.estimateNoted watts).clampOn 2 else s.estimateNoted watts := by
  have hpeak : (s.estimateNoted watts).fld F.PWR_LIMIT_PEAK_W = s.fld F.PWR_LIMIT_PEAK_W := by
    simp (disch := decide) [State.estimateNoted, State.fld_setFld_of_code]
  rw [← hpeak]
  unfold State.powerEstimate
  dsimp only
  split
  · next f hf => cases (h.symm.trans hf : none = some f)
  · rfl

/-- What a clamp leaves: the clamp at CLAMP_MHZ, shown and counted (R448). -/
theorem State.clampOn_clamps (s : State) (why : Nat) :
    (s.clampOn why).pwr.clampMhz = some (s.fld F.PWR_CLAMPCFG_MHZ) ∧ (s.clampOn why).fld F.PWR_STATUS_CLAMP = 1 ∧
      (s.clampOn why).fld F.PWR_CLAMPCNT = min (s.fld F.PWR_CLAMPCNT + 1) (2 ^ F.PWR_CLAMPCNT.width - 1) ∧
      (s.clampOn why).fld F.PWR_ESTIMATE_WATTS = s.fld F.PWR_ESTIMATE_WATTS := by
  unfold State.clampOn
  simp (disch := decide) [State.fld_raiseBoth, State.fld_setClock, State.fld_setFlag_of_code, State.fld_count_of_code,
    State.fld_setFld_of_code]

/-- An estimate that is noted is shown, up to 4,095 W, and leaves the clamp, its settings and the clock. -/
theorem State.estimateNoted_shows (s : State) (watts : Nat) :
    (s.estimateNoted watts).pwr.clampMhz = s.pwr.clampMhz ∧ (s.estimateNoted watts).fld F.PWR_ESTIMATE_WATTS = min watts 4095 ∧
      s.onlyFields (s.estimateNoted watts) [F.PWR_ESTIMATE_WATTS, F.PWR_ESTIMATE_OVER_US] ∧ s.onlyIn (s.estimateNoted watts) [.fields, .pwr] := by
  refine ⟨rfl, ?_, ?_, ?_⟩
  · rw [State.estimateNoted, State.fld_setFld_of_code _ _ _ _ _ _ (by decide) (by decide) (by decide), State.fld_onPwr, State.fld_setFld_same]
    exact Nat.mod_eq_of_lt (show min watts 4095 < 4096 by omega)
  · exact State.onlyFields_setFld (State.onlyFields_onPwr (State.onlyFields_setFld (State.onlyFields_refl s _) (by decide))) (by decide)
  · exact State.onlyIn_setFld (State.onlyIn_onPwr (State.onlyIn_setFld (State.onlyIn_refl s _) (by decide)) (by decide)) (by decide)

/-- An estimate above PEAK_W, or the 10,000th above SUSTAIN_W in 100 ms, clamps the clock (R448). -/
theorem State.powerEstimate_clamps {s : State} {watts : Nat} (hc : s.pwr.clampMhz = none)
    (h : s.fld F.PWR_LIMIT_PEAK_W < watts ∨ 10000 ≤ (s.oversWith watts).length) :
    let t := s.powerEstimate watts
    t.pwr.clampMhz = some (s.fld F.PWR_CLAMPCFG_MHZ) ∧ t.fld F.PWR_STATUS_CLAMP = 1 ∧
      t.fld F.PWR_CLAMPCNT = min (s.fld F.PWR_CLAMPCNT + 1) (2 ^ F.PWR_CLAMPCNT.width - 1) ∧ t.fld F.PWR_ESTIMATE_WATTS = min watts 4095 := by
  intro t
  obtain ⟨why, ht⟩ : ∃ why, t = (s.estimateNoted watts).clampOn why := by
    simp only [t, s.powerEstimate_unclamped watts hc]
    split
    · exact ⟨1, rfl⟩
    · next hp => exact ⟨2, if_pos (h.resolve_left hp)⟩
  obtain ⟨-, hwatts, hfields, -⟩ := s.estimateNoted_shows watts
  obtain ⟨h1, h2, h3, h4⟩ := (s.estimateNoted watts).clampOn_clamps why
  rw [ht, h1, h2, h3, h4, hwatts, hfields.fld _ (by decide), hfields.fld _ (by decide)]
  exact ⟨rfl, rfl, rfl, rfl⟩

/-- Any other is noted alone. -/
theorem State.powerEstimate_notes {s : State} {watts : Nat} (hc : s.pwr.clampMhz = none) (hp : watts ≤ s.fld F.PWR_LIMIT_PEAK_W)
    (ho : (s.oversWith watts).length < 10000) : s.powerEstimate watts = s.estimateNoted watts := by
  rw [s.powerEstimate_unclamped watts hc, if_neg (Nat.not_lt_of_le hp), if_neg (Nat.not_le_of_lt ho)]

/-! CLAMP_ADJUST. -/

/-- The clamp takes another frequency. -/
def State.clampTo (s : State) (g : Nat) : State :=
  ((s.onPwr fun p => { p with clampMhz := some g, adjusted := s.now }).setFlag F.PWR_STATUS_FLOOR (g == 800)).setClock

/-- The clamp ends. -/
def State.clampOff (s : State) : State :=
  let t := (((s.onPwr fun p => { p with clampMhz := none }).setFld F.PWR_STATUS_CLAMP 0).setFld F.PWR_STATUS_FLOOR 0).setClock
  (t.raiseBoth 329).post 0x00E1 [t.fld F.GLB_CORE_FREQ_MHZ]

theorem State.clampTo_clamps (s : State) (g : Nat) :
    (s.clampTo g).pwr.clampMhz = some g ∧ (s.clampTo g).flag F.PWR_STATUS_FLOOR = (g == 800) := by
  refine ⟨rfl, ?_⟩
  have hflag : ((s.onPwr fun p => { p with clampMhz := some g, adjusted := s.now }).setFlag F.PWR_STATUS_FLOOR (g == 800)).flag
      F.PWR_STATUS_FLOOR = (g == 800) := State.flag_setFlag_same _ _ _ rfl
  rw [← hflag, State.clampTo, State.flag, State.fld_setClock _ _ _ (by decide)]
  rfl

theorem State.clampOff_ends (s : State) :
    s.clampOff.pwr.clampMhz = none ∧ s.clampOff.fld F.PWR_STATUS_CLAMP = 0 ∧ s.clampOff.fld F.PWR_STATUS_FLOOR = 0 := by
  unfold State.clampOff
  simp (disch := decide) [State.fld_raiseBoth, State.fld_setClock, State.fld_setFld_of_code]

section
variable {s : State} {f : Nat} (hc : s.pwr.clampMhz = some f)
include hc

/-- Within 100 µs of the last adjustment there is none. -/
theorem State.clampAdjust_early (ht : s.now < s.pwr.adjusted + 100000) : s.clampAdjust = s := by
  simp [State.clampAdjust, hc, ht]

/-- Above SUSTAIN_W the clamp takes the clock 100 MHz lower, to no lower than 800 (R449). -/
theorem State.clampAdjust_high (ht : s.pwr.adjusted + 100000 ≤ s.now) (hw : s.fld F.PWR_LIMIT_SUSTAIN_W < s.fld F.PWR_ESTIMATE_WATTS) :
    s.clampAdjust = s.clampTo (max 800 (min f s.pwr.lowMhz - 100)) := by
  simp [State.clampAdjust, hc, Nat.not_lt_of_le ht, hw, State.clampTo]

/-- After a calm millisecond with fewer than 9,000 estimates above SUSTAIN_W the clock rises by 50 MHz, and the rise that brings it to
the clock without the clamp ends the clamp (R449). -/
theorem State.clampAdjust_calm (ht : s.pwr.adjusted + 100000 ≤ s.now) (hw : s.fld F.PWR_ESTIMATE_WATTS ≤ s.fld F.PWR_LIMIT_SUSTAIN_W)
    (hcalm : ∃ x, s.pwr.calm = some x ∧ x + 1000000 ≤ s.now) (ho : s.pwr.overs.length < 9000) :
    s.clampAdjust = if s.pwr.lowMhz ≤ min f s.pwr.lowMhz + 50 then s.clampOff else s.clampTo (min f s.pwr.lowMhz + 50) := by
  obtain ⟨x, hx, hpast⟩ := hcalm
  simp [State.clampAdjust, hc, Nat.not_lt_of_le ht, Nat.not_lt_of_le hw, hx, hpast, ho, State.clampTo, State.clampOff]

end

/-- A clock that is not clamped is not adjusted. -/
theorem State.clampAdjust_unclamped {s : State} (h : s.pwr.clampMhz = none) : s.clampAdjust = s := by
  simp [State.clampAdjust, h]

/-! The lane references (R456). -/

/-- The fields that a fabric port's link going down may write. -/
def portDownFlds : List Fld :=
  [F.PRT_STATUS_UP, F.PRT_STATUS_FEC_LOCK, F.PRT_STATUS_LAST_DOWN, F.PRT_STATUS_TRAINING, F.PRT_STATUS_PAUSED_RX, F.PRT_LINKDOWNCNT,
    F.INTC_PEND, F.INTC_MERGECNT]

@[simp] theorem State.unitError_fields (s : State) (kind index cause n : Nat) : (s.unitError kind index cause n).fields = s.fields := by
  unfold State.unitError; split <;> rfl
@[simp] theorem State.unitError_frame (s : State) (kind index cause n : Nat) : (s.unitError kind index cause n).frame = s.frame := by
  unfold State.unitError; split <;> rfl

/-- The registers of a port whose link goes down. -/
def State.portCleared (s : State) (n cause : Nat) : State :=
  let on := s.flag F.PRT_CTL_ENABLE n && !s.flag F.PRT_STATUS_DISABLED n
  let t := ((s.setFld F.PRT_STATUS_UP 0 n).setFld F.PRT_STATUS_FEC_LOCK 0 n).setFld F.PRT_STATUS_LAST_DOWN cause n
  let t := ((t.setFlag F.PRT_STATUS_TRAINING on n).setFld F.PRT_STATUS_PAUSED_RX 0 n).setPort n { t.port n with occ := 0, occ1 := 0, txUntil := [] }
  (t.count F.PRT_LINKDOWNCNT 1 n).portIrq n

/-- A link going down writes its port's registers; the event, the history and the withdrawal touch neither the fields nor the frame. -/
theorem State.portDown_registers (s : State) (n cause : Nat) :
    (s.portDown n cause).fields = (s.portCleared n cause).fields ∧ (s.portDown n cause).frame = (s.portCleared n cause).frame := by
  unfold State.portDown
  extract_lets named on t0 port t1 t2 t3
  have h2 : t2.fields = (s.portCleared n cause).fields ∧ t2.frame = (s.portCleared n cause).frame := ⟨State.post_fields .., State.post_frame ..⟩
  have h3 : t3.fields = t2.fields ∧ t3.frame = t2.frame := by
    simp only [t3]
    split <;> simp
  rw [← h2.1, ← h2.2, ← h3.1, ← h3.2]
  split <;> exact ⟨rfl, rfl⟩

/-- Setting a port beside its registers leaves the register fields. -/
theorem State.onlyFields_setPort {s t : State} {fs : List Fld} {k : Nat} {x : PortSt} (h : s.onlyFields t fs) : s.onlyFields (t.setPort k x) fs :=
  State.onlyFields_same h rfl

/-- The frame stands. -/
@[simp] theorem State.portDown_frame (s : State) (n cause : Nat) : (s.portDown n cause).frame = s.frame := by
  rw [(s.portDown_registers n cause).2]
  exact State.raiseBoth_frame ..

/-- Only the fields of its list differ. -/
theorem State.portDown_fields (s : State) (n cause : Nat) : s.onlyFields (s.portDown n cause) portDownFlds := by
  refine State.onlyFields_same ?_ (s.portDown_registers n cause).1
  refine State.onlyFields_raiseHalf (State.onlyFields_raiseHalf (State.onlyFields_count (State.onlyFields_setPort (State.onlyFields_setFld
    (State.onlyFields_setFlag (State.onlyFields_setFld (State.onlyFields_setFld (State.onlyFields_setFld (State.onlyFields_refl s _) ?_) ?_) ?_) ?_)
      ?_)) ?_) ?_ ?_) ?_ ?_
  all_goals decide

/-- UP is 0 at the port and as it was at every other. -/
theorem State.up_portDown (s : State) (n cause m : Nat) :
    (s.portDown n cause).fld F.PRT_STATUS_UP m = if m = n then 0 else s.fld F.PRT_STATUS_UP m := by
  rw [State.fld_of_fields (s.portDown_registers n cause).1]
  have hrest : (s.portCleared n cause).fld F.PRT_STATUS_UP m = (s.setFld F.PRT_STATUS_UP 0 n).fld F.PRT_STATUS_UP m := by
    simp (disch := decide) [State.portCleared, State.portIrq, State.fld_raiseBoth, State.fld_count_of_code, State.fld_setFlag_of_code,
      State.fld_setFld_of_code]
  rw [hrest]
  split
  · next h => rw [h, State.fld_setFld_same]; rfl
  · next h => exact State.fld_setFld_place _ _ _ _ _ h

/-- The turn of one port when the Ethernet reference is lost. -/
def State.portLost (s : State) (n : Nat) : State := if s.flag F.PRT_STATUS_UP n then s.portDown n 1 else s

theorem State.portLost_frame (s : State) (n : Nat) : (s.portLost n).frame = s.frame := by
  unfold State.portLost; split
  · exact s.portDown_frame n 1
  · rfl

theorem State.portLost_ethRef (s : State) (n : Nat) : (s.portLost n).fld F.CLK_STATUS_ETHREF_OK = s.fld F.CLK_STATUS_ETHREF_OK := by
  unfold State.portLost; split
  · exact (s.portDown_fields n 1).fld _ (by decide)
  · rfl

theorem State.portLost_down (s : State) (n : Nat) : (s.portLost n).flag F.PRT_STATUS_UP n = false := by
  unfold State.portLost; split
  · simp [State.flag, State.up_portDown]
  · next h => exact Bool.eq_false_iff.2 h

theorem State.portLost_other (s : State) {n m : Nat} (h : n ≠ m) : (s.portLost n).flag F.PRT_STATUS_UP m = s.flag F.PRT_STATUS_UP m := by
  unfold State.portLost; split
  · simp [State.flag, State.up_portDown, Ne.symm h]
  · rfl

/-- Losing the Ethernet reference takes every port down. -/
theorem State.laneLoss_eth {s : State} (h : s.flag F.CLK_STATUS_ETHREF_OK = true) :
    (s.laneLoss true).fld F.CLK_STATUS_ETHREF_OK = 0 ∧ (∀ n, n < 32 → (s.laneLoss true).flag F.PRT_STATUS_UP n = false) ∧
      (s.laneLoss true).frame = s.frame := by
  have hdef : s.laneLoss true = (List.range 32).foldl State.portLost (s.setFld F.CLK_STATUS_ETHREF_OK 0) := by
    simp only [State.laneLoss, h]
    rfl
  rw [hdef]
  refine ⟨?_, fun n hn => ?_, ?_⟩
  · exact (foldl_same (fun s : State => s.fld F.CLK_STATUS_ETHREF_OK) State.portLost_ethRef _ _).trans (State.fld_setFld_same ..)
  · exact foldl_mem (fun _ => True) (fun s : State => s.flag F.PRT_STATUS_UP n = false) (fun _ _ h => h) (fun s _ => s.portLost_down n)
      (fun s m hm hs => (s.portLost_other hm).trans hs) (List.mem_range.2 hn) trivial
  · exact foldl_same (fun s : State => s.frame) State.portLost_frame _ _

/-! Resets of functions (R317, R318). -/

/-- The fields that resets of functions may write. -/
def functionFlds : List Fld :=
  [F.HIF_Q_STATUS_STATE, F.HIF_Q_STATUS_HELD, F.RGR_QMAP_DATA_OWNED, F.RGR_QMAP_DATA_RCORE, F.HIF_FN_STATE_QUEUES, F.SEC_FN_ROLE_ROLE,
    F.SEC_FN_ROLE_KEY, F.HIF_FN_STATE_BME, F.HIF_FN_STATE_D3, F.UPD_ABORTCNT, F.UPD_STATUS_RESULT, F.UPD_STATUS_SESSION, F.VLT_RECWRCNT]

/-- `t` differs from `s` in nothing that a reset of functions leaves: the frame, and every field but those of the list. -/
structure State.afterFnReset (s t : State) : Prop where
  frame : t.frame = s.frame
  fields : s.onlyFields t functionFlds

section
variable {s t : State}

theorem State.afterFnReset.refl (s : State) : s.afterFnReset s := ⟨rfl, State.onlyFields_refl s _⟩

theorem State.afterFnReset.same {u : State} (h : s.afterFnReset t) (hframe : u.frame = t.frame) (hfields : u.fields = t.fields) :
    s.afterFnReset u := ⟨hframe.trans h.frame, State.onlyFields_same h.fields hfields⟩

theorem State.afterFnReset.setFld (h : s.afterFnReset t) {f : Fld} {v i : Nat} (hf : f.code % 1024 ∈ functionFlds.map (·.code)) :
    s.afterFnReset (t.setFld f v i) := ⟨h.frame, State.onlyFields_setFld h.fields hf⟩

theorem State.afterFnReset.count (h : s.afterFnReset t) {f : Fld} {n i : Nat} (hf : f.code % 1024 ∈ functionFlds.map (·.code)) :
    s.afterFnReset (t.count f n i) := h.setFld hf

theorem State.afterFnReset.setFlag (h : s.afterFnReset t) {f : Fld} {b : Bool} {i : Nat} (hf : f.code % 1024 ∈ functionFlds.map (·.code)) :
    s.afterFnReset (t.setFlag f b i) := h.setFld hf

theorem State.afterFnReset.onSec (h : s.afterFnReset t) (g : SecSt → SecSt) : s.afterFnReset (t.onSec g) := h.same rfl rfl
theorem State.afterFnReset.onHost (h : s.afterFnReset t) (g : HostSt → HostSt) : s.afterFnReset (t.onHost g) := h.same rfl rfl
theorem State.afterFnReset.setWin (h : s.afterFnReset t) (fn : Nat) (w : WinSt) : s.afterFnReset (t.setWin fn w) := h.same rfl rfl

theorem State.afterFnReset.foldl {α : Type} {f : State → α → State} (hf : ∀ t a, s.afterFnReset t → s.afterFnReset (f t a)) (l : List α) :
    ∀ {t : State}, s.afterFnReset t → s.afterFnReset (l.foldl f t) := by
  induction l with
  | nil => exact fun h => h
  | cons a l ih => exact fun h => ih (hf _ a h)

/-- A message, sent or kept back, touches the link alone. -/
theorem State.sendMsg_eq_link (s : State) (part type : Nat) (fields : List Nat) (data : Bytes) :
    ∃ l, s.sendMsg part type fields data = { s with link := l } := by
  unfold State.sendMsg
  dsimp only
  split
  · exact ⟨s.link, rfl⟩
  · split
    · exact ⟨_, rfl⟩
    · split <;> exact ⟨_, rfl⟩

theorem State.afterFnReset.sendMsg (h : s.afterFnReset t) (part type : Nat) (fields : List Nat) : s.afterFnReset (t.sendMsg part type fields) := by
  obtain ⟨l, hl⟩ := t.sendMsg_eq_link part type fields []
  rw [hl]
  exact h.same rfl rfl

theorem State.afterFnReset.reqReset (h : s.afterFnReset t) (p tag : Nat) : s.afterFnReset (t.reqReset p tag) := by
  unfold State.reqReset
  split
  · exact h
  · next r _ =>
    have hsrv : s.afterFnReset (t.onSrv p fun x => x.onReq tag fun r => { r with ending := some 0x04 }) := h.same rfl rfl
    dsimp only
    split
    · exact hsrv
    · exact hsrv.sendMsg ..

theorem State.afterFnReset.setQueue (h : s.afterFnReset t) (q : Nat) (x : QueueSt) : s.afterFnReset (t.setQueue q x) := by
  unfold State.setQueue
  have hhost : s.afterFnReset { t with host := { t.host with queues := SMap.set .init t.host.queues q x } } := h.same rfl rfl
  exact hhost.setFlag (by decide)

theorem State.afterFnReset.setOwner (h : s.afterFnReset t) (q : Nat) (k : Option Nat) : s.afterFnReset (t.setOwner q k) := by
  unfold State.setOwner
  cases k with
  | none => exact State.afterFnReset.setFld (h.setFld (by decide)) (by decide)
  | some k => exact State.afterFnReset.setFld (h.setFld (by decide)) (by decide)

theorem State.afterFnReset.queueOff (h : s.afterFnReset t) (q : Nat) : s.afterFnReset (t.queueOff q) := by
  unfold State.queueOff State.countQueues
  have hstate : s.afterFnReset (t.setFld F.HIF_Q_STATUS_STATE qDisabled q) := h.setFld (by decide)
  exact ((hstate.setQueue q .init).setOwner q none).setFld (by decide)

theorem State.afterFnReset.endRole (h : s.afterFnReset t) (fn cause : Nat) : s.afterFnReset (t.endRole fn cause) := by
  unfold State.endRole
  split
  · exact h
  · have haudit : s.afterFnReset (t.audit fn 0xFFFC 0 cause 0) := h.same rfl rfl
    have hrole : s.afterFnReset ((t.audit fn 0xFFFC 0 cause 0).setFld F.SEC_FN_ROLE_ROLE 0 fn) := haudit.setFld (by decide)
    have hkey : s.afterFnReset (((t.audit fn 0xFFFC 0 cause 0).setFld F.SEC_FN_ROLE_ROLE 0 fn).setFld F.SEC_FN_ROLE_KEY 0 fn) :=
      hrole.setFld (by decide)
    exact hkey.same rfl rfl

theorem State.afterFnReset.respond (h : s.afterFnReset t) (c : Mgmt) (code result : Nat) : s.afterFnReset (t.respond c code result) := by
  unfold State.respond
  dsimp only
  split <;> exact h.setWin ..

theorem State.afterFnReset.auditDone (h : s.afterFnReset t) (seq result code : Nat) : s.afterFnReset (t.auditDone seq result code) := by
  unfold State.auditDone State.recordWrites
  dsimp only
  refine State.afterFnReset.count (State.afterFnReset.same h ?_ ?_) ?_
  · rfl
  · rfl
  · decide

theorem State.afterFnReset.sessionAbort (h : s.afterFnReset t) : s.afterFnReset t.sessionAbort := by
  unfold State.sessionAbort
  split
  · exact h
  extract_lets t1 t2
  have h1 : s.afterFnReset t1 := State.afterFnReset.setFld (h.count (f := F.UPD_ABORTCNT) (by decide)) (by decide)
  have h2 : s.afterFnReset t2 := by
    simp only [t2]
    split
    · split
      · exact ((h1.onSec _).auditDone ..).respond ..
      · exact h1
    · exact h1
  exact (h2.onSec _).setFld (by decide)

theorem State.afterFnReset.fnReset (h : s.afterFnReset t) (fn cause : Nat) : s.afterFnReset (t.fnReset fn cause) := by
  unfold State.fnReset
  extract_lets qs t1 t2 w blank t3 t4 t5 mine
  have h1 : s.afterFnReset t1 := h.foldl (fun u q hu => (hu.foldl (fun v r hv => hv.reqReset r.1 r.2) (u.queueReqs q)).queueOff q) qs
  have h2 : s.afterFnReset t2 := h1.endRole fn cause
  have h3 : s.afterFnReset t3 := h2.setWin fn _
  have h4 : s.afterFnReset t4 := h3.onHost _
  have h5 : s.afterFnReset t5 := State.afterFnReset.setFld (h4.setFld (f := F.HIF_FN_STATE_BME) (by decide)) (by decide)
  split
  · exact h5.sessionAbort
  · exact h5

theorem State.afterFnReset.vfOff (h : s.afterFnReset t) (cause : Nat) : s.afterFnReset (t.vfOff cause) := by
  unfold State.vfOff
  split
  · exact h
  · exact (h.foldl (fun u i hu => hu.fnReset (i + 1) cause) (List.range 16)).onHost _

end

/-- The host link goes down: it no longer shows up, the frame stands, and the reference's state is as it was. -/
theorem State.linkDown_down (s : State) :
    s.linkDown.flag F.HIF_LINK_UP = false ∧ s.linkDown.frame = s.frame ∧
      s.linkDown.fld F.CLK_STATUS_PCIEREF_OK = s.fld F.CLK_STATUS_PCIEREF_OK := by
  have hreset : (s.count F.HIF_FLRCNT).afterFnReset (((s.count F.HIF_FLRCNT).vfOff 2).fnReset 0 2) :=
    ((State.afterFnReset.refl _).vfOff 2).fnReset 0 2
  have hfields := hreset.fields.fld (f := F.CLK_STATUS_PCIEREF_OK) 0 (by decide)
  rw [State.fld_count_of_code _ _ _ _ _ _ (by decide) (by decide) (by decide)] at hfields
  refine ⟨?_, ?_, ?_⟩
  · simp (disch := decide) [State.linkDown, State.flag, State.fld_setFld_of_code]
  · simpa [State.linkDown] using hreset.frame
  · simpa (disch := decide) [State.linkDown, State.fld_setFld_of_code] using hfields

/-- Losing the PCI Express reference takes the host link down. -/
theorem State.laneLoss_pcie {s : State} (h : s.flag F.CLK_STATUS_PCIEREF_OK = true) :
    (s.laneLoss false).fld F.CLK_STATUS_PCIEREF_OK = 0 ∧ (s.laneLoss false).flag F.HIF_LINK_UP = false ∧ (s.laneLoss false).frame = s.frame := by
  have hdef : s.laneLoss false = (s.setFld F.CLK_STATUS_PCIEREF_OK 0).linkDown := by simp [State.laneLoss, h]
  obtain ⟨hup, hframe, href⟩ := (s.setFld F.CLK_STATUS_PCIEREF_OK 0).linkDown_down
  rw [hdef]
  exact ⟨href.trans (State.fld_setFld_same ..), hup, hframe⟩

/-- Settles O50: what each clock, power-limit and reference command leaves, clause by clause. -/
theorem clocksFollowPower : Obligations.ClocksFollowPower := by
  unfold Obligations.ClocksFollowPower
  intro s
  refine ⟨fun hs hl => ⟨_, rfl, s.droopStretch_starts hs hl⟩, fun hs => ?_, fun hl => ⟨_, rfl, s.droopEnd_returns hl⟩,
    fun r hr hl => ⟨_, rfl, s.pllUnlock_one hr hl⟩, ?_, fun ho hl => ⟨_, rfl, s.pllRelock_starts ho hl⟩, fun h => ?_, fun watts hc => ?_,
    fun f hc => ?_, fun hc => ?_, fun h => ⟨_, rfl, s.laneLoss_eth h⟩, fun h => ⟨_, rfl, s.laneLoss_pcie h⟩, rfl, rfl⟩
  · simp [State.droopStretch, hs]
  · simp [State.pllUnlock_none]
  · simp [State.pllRelock_none h]
  · intro overs
    have hovers : (s.oversWith watts).length = overs := s.length_oversWith watts
    refine ⟨fun h => ⟨_, rfl, s.powerEstimate_clamps hc (hovers ▸ h)⟩, fun hp ho => ⟨s.estimateNoted watts, ?_, ?_⟩⟩
    · simp [State.powerEstimate_notes hc hp (hovers ▸ ho)]
    · obtain ⟨hclamp, hwatts, hfields, hin⟩ := s.estimateNoted_shows watts
      exact ⟨hclamp.trans hc, hwatts, hfields.fld _ (by decide), hin⟩
  · refine ⟨fun ht => ?_, fun ht hw => ⟨_, rfl, ?_⟩, fun ht hw hcalm ho => ⟨fun hf => ⟨_, rfl, ?_⟩, fun hf => ⟨_, rfl, ?_⟩⟩⟩
    · simp [State.clampAdjust_early hc ht]
    · rw [State.clampAdjust_high hc ht hw]
      exact s.clampTo_clamps _
    · rw [State.clampAdjust_calm hc ht hw hcalm ho, if_neg (by omega), show min f s.pwr.lowMhz = f by omega]
      exact (s.clampTo_clamps _).1
    · rw [State.clampAdjust_calm hc ht hw hcalm ho, if_pos (by omega)]
      exact s.clampOff_ends
  · simp [State.clampAdjust_unclamped hc]

/-! How a step is done (R463): what the operations of the start-up leave of it. -/

/-- How the steps are done depends on the record of starts and on the ledger's outcomes alone. -/
theorem State.stepMode_congr {s t : State} (hclear : t.pwr.clearAlt = s.pwr.clearAlt) (halt : t.pwr.alt = s.pwr.alt)
    (hstacks : t.pwr.altStacks = s.pwr.altStacks) (hout : ∀ i, t.fld F.PWR_BOOT_DATA_OUTCOME i = s.fld F.PWR_BOOT_DATA_OUTCOME i) :
    t.stepMode = s.stepMode := by
  funext k
  unfold State.stepMode State.stepFailed State.outcome
  rw [hclear, halt, hstacks, hout, hout]

/-- So it is the same where neither the record of power nor the register fields differ. -/
theorem State.stepMode_same {s t : State} (hpwr : t.pwr = s.pwr) (hfields : t.fields = s.fields) : t.stepMode = s.stepMode :=
  State.stepMode_congr (by rw [hpwr]) (by rw [hpwr]) (by rw [hpwr]) fun i => State.fld_of_fields hfields _ i

@[simp] theorem State.stepMode_setFld (s : State) {f : Fld} (v i : Nat) (h : f.code % 1024 ≠ F.PWR_BOOT_DATA_OUTCOME.code) :
    (s.setFld f v i).stepMode = s.stepMode :=
  State.stepMode_congr rfl rfl rfl fun j => s.fld_setFld_key f _ v i j fun e => h (by
    rw [← Fld.key_mod f i, ← e, Fld.key_mod]; rfl)

@[simp] theorem State.stepMode_setFlag (s : State) {f : Fld} (b : Bool) (i : Nat) (h : f.code % 1024 ≠ F.PWR_BOOT_DATA_OUTCOME.code) :
    (s.setFlag f b i).stepMode = s.stepMode := s.stepMode_setFld _ i h

@[simp] theorem State.stepMode_count (s : State) {f : Fld} (n i : Nat) (h : f.code % 1024 ≠ F.PWR_BOOT_DATA_OUTCOME.code) :
    (s.count f n i).stepMode = s.stepMode := s.stepMode_setFld _ i h

@[simp] theorem State.stepMode_recordWrites (s : State) (n : Nat) : (s.recordWrites n).stepMode = s.stepMode := s.stepMode_count n 0 (by decide)
@[simp] theorem State.stepMode_setVfld (s : State) (f : Fld) (v i : Nat) : (s.setVfld f v i).stepMode = s.stepMode := rfl
@[simp] theorem State.stepMode_setArr (s : State) (a : Nat) (x : ArrSt) : (s.setArr a x).stepMode = s.stepMode := rfl
@[simp] theorem State.stepMode_setCore (s : State) (i : Nat) (x : CoreSt) : (s.setCore i x).stepMode = s.stepMode := rfl
@[simp] theorem State.stepMode_setWin (s : State) (fn : Nat) (w : WinSt) : (s.setWin fn w).stepMode = s.stepMode := rfl
@[simp] theorem State.stepMode_onWgt (s : State) (g : WgtSt → WgtSt) : (s.onWgt g).stepMode = s.stepMode := rfl
@[simp] theorem State.stepMode_onMet (s : State) (g : MetSt → MetSt) : (s.onMet g).stepMode = s.stepMode := rfl
@[simp] theorem State.stepMode_setTick (s : State) (k : Nat) : (s.setTick k).stepMode = s.stepMode := rfl

@[simp] theorem State.stepMode_post (s : State) (code : Nat) (detail : List Nat) : (s.post code detail).stepMode = s.stepMode :=
  State.stepMode_same (s.post_pwr code detail) (s.post_fields code detail)

@[simp] theorem State.stepMode_raiseBoth (s : State) (id : Nat) : (s.raiseBoth id).stepMode = s.stepMode :=
  State.stepMode_congr (by simp) (by simp) (by simp) fun i => s.fld_raiseBoth id _ i (by decide)

@[simp] theorem State.stepMode_raiseRow (s : State) (base site : Nat) : (s.raiseRow base site).stepMode = s.stepMode := by
  have hpwr : (s.raiseRow base site).pwr = s.pwr := s.onlyIn_raiseRow base site .pwr (by decide)
  exact State.stepMode_congr (by rw [hpwr]) (by rw [hpwr]) (by rw [hpwr]) fun i => s.fld_raiseRow base site _ i (by decide) (by decide)

/-! Array commands. -/

@[simp] theorem State.stepMode_cmdRefuse (s : State) (a op tag code : Nat) : (s.cmdRefuse a op tag code).stepMode = s.stepMode := by
  simp (disch := decide) [State.cmdRefuse]

@[simp] theorem State.stepMode_cmdRun (s : State) (a op tag : Nat) : (s.cmdRun a op tag).stepMode = s.stepMode := by
  simp (disch := decide) [State.cmdRun]

/-- The end of a command notes its time, beside the record of starts. -/
@[simp] theorem State.stepMode_cmdFinish (s : State) (a op tag code : Nat) (ov : Bool) : (s.cmdFinish a op tag code ov).stepMode = s.stepMode := by
  unfold State.cmdFinish
  extract_lets x t1 t2 p t3
  have h2 : t2.stepMode = s.stepMode := by simp (disch := decide) [t2, t1]
  have h3 : t3.stepMode = t2.stepMode := by
    simp only [t3]
    split
    · exact State.stepMode_congr rfl rfl rfl fun _ => rfl
    · rfl
  simp (disch := decide) [h3, h2]

@[simp] theorem State.stepMode_cmdAccept (s : State) (a op tag : Nat) : (s.cmdAccept a op tag).stepMode = s.stepMode := by
  unfold State.cmdAccept
  dsimp only
  split_ifs <;> simp (disch := decide)

@[simp] theorem State.stepMode_arrCommand (s : State) (a op tag : Nat) : (s.arrCommand a op tag).stepMode = s.stepMode := by
  unfold State.arrCommand
  split
  · simp
  · split <;> simp

@[simp] theorem State.stepMode_mirrorSide (s : State) (a : Nat) : (s.mirrorSide a).stepMode = s.stepMode := by
  unfold State.mirrorSide
  simp (disch := decide) only [State.stepMode_setFld, State.stepMode_setFlag]
  exact foldl_same State.stepMode (fun s r => by simp (disch := decide)) _ s

@[simp] theorem State.stepMode_faultResult (s : State) (a : Nat) (c : ArrCmd) (x : ArrSt) (faults : List CellFault) :
    (s.faultResult a c x faults).stepMode = s.stepMode := by
  simp (disch := decide) [State.faultResult]

@[simp] theorem State.stepMode_arrCommandEnd (s : State) (a : Nat) (c : ArrCmd) (reads finals : List (Nat × Nat)) (sweep : List Nat) :
    (s.arrCommandEnd a c reads finals sweep).stepMode = s.stepMode := by
  unfold State.arrCommandEnd
  dsimp only
  split_ifs <;> simp (disch := decide)

/-! The start-up check of an array. -/

@[simp] theorem State.stepMode_loadEps (s : State) (a : Nat) : (s.loadEps a).stepMode = s.stepMode := s.stepMode_setFld _ a (by decide)

@[simp] theorem State.stepMode_calSweep (s : State) (a : Nat) (m : List Nat) : (s.calSweep a m).stepMode = s.stepMode := by
  unfold State.calSweep
  dsimp only
  split <;> simp

@[simp] theorem State.stepMode_calPass (s : State) (a : Nat) (t : Int) (m : List Nat) : (s.calPass a t m).stepMode = s.stepMode := by
  simp (disch := decide) [State.calPass]

@[simp] theorem State.stepMode_calStamp (s : State) (a : Nat) (t : Int) : (s.calStamp a t).stepMode = s.stepMode := by
  simp (disch := decide) [State.calStamp]

@[simp] theorem State.stepMode_calPasses (s : State) (a : Nat) (t : Int) (m0 m1 m2 : List Nat) :
    (s.calPasses a t m0 m1 m2).1.stepMode = s.stepMode := by
  unfold State.calPasses
  dsimp only
  split_ifs <;> simp (disch := decide)

@[simp] theorem State.stepMode_calPost (s : State) (a : Nat) : (s.calPost a).stepMode = s.stepMode := by
  simp (disch := decide) [State.calPost]

@[simp] theorem State.stepMode_setRec (s : State) (a : Nat) (r : ArrRec) : (s.setRec a r).stepMode = s.stepMode :=
  State.stepMode_recordWrites _ 1

@[simp] theorem State.stepMode_setRepair (s : State) (a : Nat) : (s.setRepair a).stepMode = s.stepMode := by
  unfold State.setRepair
  split <;> simp

@[simp] theorem State.stepMode_retireCore (s : State) (site : Nat) : (s.retireCore site).stepMode = s.stepMode := by
  unfold State.retireCore
  dsimp only
  split
  · rfl
  · exact (State.stepMode_same rfl rfl).trans (State.stepMode_recordWrites (s.setVfld _ _) 1)

@[simp] theorem State.stepMode_checkFailed (s : State) (a : Nat) : (s.checkFailed a).stepMode = s.stepMode := by
  simp [State.checkFailed]

@[simp] theorem State.stepMode_startTrims (s : State) (a : Nat) (t : Int) : (s.startTrims a t).stepMode = s.stepMode := by
  simp (disch := decide) [State.startTrims]

@[simp] theorem State.stepMode_checkLevels (s : State) (a : Nat) : (s.checkLevels a).2.stepMode = s.stepMode := by
  unfold State.checkLevels
  dsimp only
  split <;> simp

@[simp] theorem State.stepMode_checkArray (s : State) (t : Int) (c : ArrCheck) : (s.checkArray t c).1.stepMode = s.stepMode := by
  unfold State.checkArray
  dsimp only
  repeat' split
  all_goals simp (disch := decide)

/-! The reconciliation of an array. -/

@[simp] theorem State.stepMode_setAge (s : State) (a hours : Nat) (assumed : Bool) : (s.setAge a hours assumed).stepMode = s.stepMode := by
  simp (disch := decide) [State.setAge]

@[simp] theorem State.stepMode_hamperWrite (s : State) (site a : Nat) (bs : Bytes) : (s.hamperWrite site a bs).stepMode = s.stepMode := rfl

@[simp] theorem State.stepMode_jobIssue (s : State) (a : Nat) (j : Job) : (s.jobIssue a j).stepMode = s.stepMode := by
  unfold State.jobIssue State.setJob
  dsimp only
  split_ifs <;> simp (disch := decide)

@[simp] theorem State.stepMode_kickJobs (s : State) : s.kickJobs.stepMode = s.stepMode := by
  unfold State.kickJobs
  exact foldl_same State.stepMode (fun s (e : Nat × Job) => s.stepMode_jobIssue e.1 e.2) _ s

@[simp] theorem State.stepMode_tellManager (s : State) : s.tellManager.stepMode = s.stepMode := by
  unfold State.tellManager State.reportStatus State.reportMgr
  dsimp only
  split
  · rfl
  · obtain ⟨l, hl⟩ := s.sendMsg_eq_link (s.fld F.PRT_MGRSTATE_RMGR) 0x0403 _ []
    rw [hl]
    rfl

@[simp] theorem State.stepMode_refreshCommit (s : State) (a : Nat) : (s.refreshCommit a).stepMode = s.stepMode := by
  simp [State.refreshCommit, State.dropJob]

@[simp] theorem State.stepMode_wipeDue (s : State) (a : Nat) : (s.wipeDue a).stepMode = s.stepMode := by
  unfold State.wipeDue State.setJob
  dsimp only
  split_ifs <;> simp

@[simp] theorem State.stepMode_reconcile (s : State) (a : Nat) : (s.reconcile a).stepMode = s.stepMode := by
  unfold State.reconcile
  dsimp only
  repeat' split
  all_goals simp

/-! The other steps' operations. -/

@[simp] theorem State.stepMode_setBoth (s : State) {f : Fld} (v i : Nat) (h : f.code % 1024 ≠ F.PWR_BOOT_DATA_OUTCOME.code) :
    (s.setBoth f v i).stepMode = s.stepMode := s.stepMode_setFld v i h

@[simp] theorem State.stepMode_setRcore (s : State) (k v : Nat) : (s.setRcore k v).stepMode = s.stepMode := by
  simp (disch := decide) [State.setRcore]

@[simp] theorem State.stepMode_romTry (s : State) (slot : Nat) (ok : Bool) : (s.romTry slot ok).stepMode = s.stepMode := by
  unfold State.romTry
  dsimp only
  split_ifs <;> simp (disch := decide)

@[simp] theorem State.stepMode_setClock (s : State) : s.setClock.stepMode = s.stepMode := by
  simp (disch := decide) [State.setClock]

@[simp] theorem State.stepMode_clearDue (s : State) (site : Nat) : (s.clearDue site).stepMode = s.stepMode := by
  simp (disch := decide) [State.clearDue]

@[simp] theorem State.stepMode_trainFails (s : State) (k : Nat) (first again : Bool) : (s.trainFails k first again).stepMode = s.stepMode := by
  unfold State.trainFails State.unitError
  split <;> rfl

@[simp] theorem State.stepMode_excludeStack (s : State) (k : Nat) : (s.excludeStack k).stepMode = s.stepMode := by
  unfold State.excludeStack
  refine (foldl_same State.stepMode (fun s c => by simp (disch := decide)) _ _).trans ?_
  simp (disch := decide)

@[simp] theorem State.stepMode_trainStack (s : State) (bad second k : Nat) : (s.trainStack bad second k).stepMode = s.stepMode := by
  unfold State.trainStack
  split_ifs <;> simp (disch := decide)

@[simp] theorem State.stepMode_histSettle (s : State) : s.histSettle.stepMode = s.stepMode := by
  refine foldl_same State.stepMode (fun s e => ?_) _ s
  dsimp only
  split
  · exact State.stepMode_recordWrites _ 1
  · rfl

/-! The end of a step (R462). -/

/-- The fields that the end of a step may write: the ledger's, STAGE, and the vault's count of writes. -/
def stepFlds : List Fld :=
  [F.PWR_BOOT_DATA_OUTCOME, F.PWR_BOOT_DATA_MODE, F.PWR_BOOT_DATA_DETAIL, F.PWR_BOOT_DATA_MS, F.PWR_BOOT_STAGE, F.VLT_RECWRCNT]

/-- The ledger's entry of a step that ends, written. -/
def State.stepEntered (s : State) (k outcome detail : Nat) : State :=
  (((((s.setFld F.PWR_BOOT_DATA_OUTCOME outcome k).setFld F.PWR_BOOT_DATA_MODE (s.stepMode k) k).setFld F.PWR_BOOT_DATA_DETAIL detail k)).setFld
    F.PWR_BOOT_DATA_MS (min 65535 ((s.now - s.pwr.stepAt) / 1000000)) k).recordWrites

/-- The record of starts notes how a step was done that was not done normally. -/
def State.modeNoted (s : State) (k mode : Nat) : State :=
  if mode = 0 then s else s.onPwr fun p => { p with alt := SMap.put p.alt k mode }

/-- The end of the last step leaves none running; that of any other begins the next. -/
theorem State.stepDone_eq (s : State) (k outcome detail : Nat) :
    s.stepDone k outcome detail =
      if 11 ≤ k then ((s.stepEntered k outcome detail).modeNoted k (s.stepMode k)).onPwr fun p => { p with begun := none }
      else ((((s.stepEntered k outcome detail).modeNoted k (s.stepMode k)).setFld F.PWR_BOOT_STAGE (k + 1)).onPwr fun p =>
        { p with begun := some (k + 1), stepAt := ((s.stepEntered k outcome detail).modeNoted k (s.stepMode k)).now }).recordWrites := rfl

theorem State.modeNoted_fields (s : State) (k mode : Nat) : (s.modeNoted k mode).fields = s.fields := by
  unfold State.modeNoted; split <;> rfl

theorem State.modeNoted_onlyIn (s : State) (k mode : Nat) : s.onlyIn (s.modeNoted k mode) [.pwr] := by
  unfold State.modeNoted
  split
  · exact State.onlyIn_refl s _
  · exact State.onlyIn_onPwr (State.onlyIn_refl s _) (by decide)

/-- Only the ledger, STAGE, the count of the vault's writes and the record of power differ after a step's end. -/
theorem State.stepDone_fields (s : State) (k outcome detail : Nat) : s.onlyFields (s.stepDone k outcome detail) stepFlds := by
  have hentered : s.onlyFields (s.stepEntered k outcome detail) stepFlds :=
    State.onlyFields_count (State.onlyFields_setFld (State.onlyFields_setFld (State.onlyFields_setFld (State.onlyFields_setFld
      (State.onlyFields_refl s _) (by decide)) (by decide)) (by decide)) (by decide)) (by decide)
  have hnoted := State.onlyFields_same hentered (State.modeNoted_fields (s.stepEntered k outcome detail) k (s.stepMode k))
  rw [s.stepDone_eq]
  split
  · exact State.onlyFields_onPwr hnoted
  · exact State.onlyFields_count (State.onlyFields_onPwr (State.onlyFields_setFld hnoted (by decide))) (by decide)

theorem State.stepDone_onlyIn (s : State) (k outcome detail : Nat) : s.onlyIn (s.stepDone k outcome detail) [.fields, .pwr] := by
  have hentered : s.onlyIn (s.stepEntered k outcome detail) [.fields, .pwr] :=
    State.onlyIn_count (State.onlyIn_setFld (State.onlyIn_setFld (State.onlyIn_setFld (State.onlyIn_setFld
      (State.onlyIn_refl s _) (by decide)) (by decide)) (by decide)) (by decide)) (by decide)
  have hnoted := State.onlyIn_trans hentered
    (State.onlyIn_mono (State.modeNoted_onlyIn (s.stepEntered k outcome detail) k (s.stepMode k)) (by decide))
  rw [s.stepDone_eq]
  split
  · exact State.onlyIn_onPwr hnoted (by decide)
  · exact State.onlyIn_count (State.onlyIn_onPwr (State.onlyIn_setFld hnoted (by decide)) (by decide)) (by decide)

/-- A ledger field that the end of a step reads back, unless it is STAGE or the vault's count. -/
theorem State.fld_stepDone (s : State) (k outcome detail : Nat) {f : Fld} (i : Nat)
    (h : f.code % 1024 ∉ [F.PWR_BOOT_STAGE, F.VLT_RECWRCNT].map (·.code)) :
    (s.stepDone k outcome detail).fld f i = (s.stepEntered k outcome detail).fld f i := by
  have hnoted := State.fld_of_fields (State.modeNoted_fields (s.stepEntered k outcome detail) k (s.stepMode k)) f i
  rw [← hnoted, s.stepDone_eq]
  split
  · rfl
  · exact State.onlyFields.fld (fs := [F.PWR_BOOT_STAGE, F.VLT_RECWRCNT])
      (State.onlyFields_count (State.onlyFields_onPwr (State.onlyFields_setFld (State.onlyFields_refl _ _) (by decide))) (by decide)) i h

/-- The ledger shows the step's outcome, mode and detail. -/
theorem State.stepDone_ledger (s : State) (k outcome detail : Nat) :
    (s.stepDone k outcome detail).fld F.PWR_BOOT_DATA_OUTCOME k = outcome % 4 ∧
      (s.stepDone k outcome detail).fld F.PWR_BOOT_DATA_MODE k = s.stepMode k % 4 ∧
      (s.stepDone k outcome detail).fld F.PWR_BOOT_DATA_DETAIL k = detail % 4096 := by
  refine ⟨?_, ?_, ?_⟩
  all_goals
    rw [s.fld_stepDone _ _ _ _ (by decide)]
    simp (disch := decide) [State.stepEntered, State.recordWrites, State.fld_count_of_code, State.fld_setFld_of_code]
    rfl

/-- The next step begins, and STAGE shows it. -/
theorem State.stepDone_next (s : State) {k : Nat} (outcome detail : Nat) (hk : k ≤ 10) :
    (s.stepDone k outcome detail).pwr.begun = some (k + 1) ∧ (s.stepDone k outcome detail).fld F.PWR_BOOT_STAGE = k + 1 := by
  rw [s.stepDone_eq, if_neg (by omega)]
  refine ⟨rfl, ?_⟩
  rw [State.recordWrites, State.fld_count_of_code _ _ _ _ _ _ (by decide) (by decide) (by decide), State.fld_onPwr, State.fld_setFld_same]
  exact Nat.mod_eq_of_lt (show k + 1 < 16 by omega)

/-- After step 11 none runs. -/
theorem State.stepDone_last (s : State) (outcome detail : Nat) : (s.stepDone 11 outcome detail).pwr.begun = none := rfl

/-- The time base runs as it did. -/
theorem State.stepDone_tbRun (s : State) (k outcome detail : Nat) : (s.stepDone k outcome detail).pwr.tbRun = s.pwr.tbRun := by
  rw [s.stepDone_eq]
  unfold State.modeNoted
  split <;> split <;> rfl

/-- From `s`, a step has ended: the ledger has its outcome and how it was done, and the next step has begun. -/
structure State.endsStep (s t : State) (k : Nat) : Prop where
  outcome : t.fld F.PWR_BOOT_DATA_OUTCOME k = 1 ∨ t.fld F.PWR_BOOT_DATA_OUTCOME k = 2
  mode : k ≠ 3 → t.fld F.PWR_BOOT_DATA_MODE k = s.stepMode k % 4
  next : k ≤ 10 → t.pwr.begun = some (k + 1) ∧ t.fld F.PWR_BOOT_STAGE = k + 1

/-- What a step ends with after work that leaves how the steps are done. -/
theorem State.endsStep_stepDone {s t : State} {k outcome detail : Nat} (hmode : k ≠ 3 → t.stepMode = s.stepMode) (ho : outcome = 1 ∨ outcome = 2) :
    s.endsStep (t.stepDone k outcome detail) k := by
  obtain ⟨hout, hm, -⟩ := t.stepDone_ledger k outcome detail
  refine ⟨?_, fun h => ?_, fun h => t.stepDone_next outcome detail h⟩
  · rw [hout]; rcases ho with rfl | rfl
    · exact .inl rfl
    · exact .inr rfl
  · rw [hm, hmode h]

/-- An outcome is OK or FAILED. -/
theorem outcome_ite (p : Prop) [Decidable p] : (if p then 1 else 2) = 1 ∨ (if p then 1 else 2) = 2 := by
  split
  · exact .inl rfl
  · exact .inr rfl

theorem State.endsStep.onPwr {s t : State} {k : Nat} (h : s.endsStep t k) {g : PwrSt → PwrSt} (hg : (g t.pwr).begun = t.pwr.begun) :
    s.endsStep (t.onPwr g) k := ⟨h.outcome, h.mode, fun hk => ⟨hg.trans (h.next hk).1, (h.next hk).2⟩⟩

/-! Step 0, RAILS. -/

/-- The PLLs locked, the clock at its frequency and the time base running: the state in which the cores are marked to be cleared. -/
def State.clocksOn (s : State) : State :=
  ((((s.setFld F.GLB_CLKSTAT_PLL_LOCK allLocked).setFld F.GLB_CLKSTAT_FWCLK_W 1).setFld F.GLB_CLKSTAT_FWCLK_E 1).setClock).onPwr fun p =>
    { p with tbRun := true, tb := if p.tbRun then p.tb else s.now }

/-- Every core marked to be cleared (R160). -/
def State.coresDue (s : State) : State := (List.range siteCount).foldl (fun (s : State) i => s.clearDue i) s

@[simp] theorem State.stepMode_coresDue (s : State) : s.coresDue.stepMode = s.stepMode :=
  foldl_same State.stepMode (fun s i => s.stepMode_clearDue i) _ s

@[simp] theorem State.clearDue_pwr (s : State) (i : Nat) : (s.clearDue i).pwr = s.pwr := rfl

@[simp] theorem State.coresDue_pwr (s : State) : s.coresDue.pwr = s.pwr :=
  foldl_same State.pwr State.clearDue_pwr _ s

theorem State.fld_coresDue (s : State) (f : Fld) (i : Nat) (hf : f.code < 1024) (h : f.code ≠ F.CORE_STATUS_CLEARING.code)
    (h' : f.code ≠ F.CORE_STATUS_SEQ.code) : s.coresDue.fld f i = s.fld f i := by
  refine foldl_same (fun s : State => s.fld f i) (fun s j => ?_) _ s
  rw [State.clearDue, State.fld_setFld_of_code _ _ _ _ _ _ (by decide) hf h', State.fld_setFld_of_code _ _ _ _ _ _ (by decide) hf h,
    State.fld_setCore]

/-- The turn of one core leaves the mark of another. -/
theorem State.clearing_clearDue (s : State) (i j : Nat) :
    (s.clearDue j).fld F.CORE_STATUS_CLEARING i = if i = j then 1 else s.fld F.CORE_STATUS_CLEARING i := by
  rw [State.clearDue, State.fld_setFld_of_code _ _ _ _ _ _ (by decide) (by decide) (by decide)]
  split
  · next h => rw [h, State.fld_setFld_same]; rfl
  · next h => rw [State.fld_setFld_place _ _ _ _ _ h, State.fld_setCore]

theorem State.clearing_coresDue (s : State) {i : Nat} (h : i < 1280) : s.coresDue.fld F.CORE_STATUS_CLEARING i = 1 :=
  foldl_mem (fun _ => True) (fun s : State => s.fld F.CORE_STATUS_CLEARING i = 1) (fun _ _ h => h) (fun s _ => by simp [State.clearing_clearDue])
    (fun s j hj hs => by simpa [State.clearing_clearDue, Ne.symm hj] using hs) (List.mem_range.2 h) trivial

/-- With every rail in regulation step 0 ends. -/
theorem State.bootRails_eq {s : State} (hseq : s.pwr.seq = .idle) (hrails : ∀ i ∈ raiseOrder, s.fld F.PWR_RAIL_DATA_STATE i = 2) :
    s.bootRails = s.clocksOn.coresDue.stepDone 0 1 0 := by
  have hall : (raiseOrder.all fun i => s.fld F.PWR_RAIL_DATA_STATE i == 2) = true := by simpa [List.all_eq_true] using hrails
  have hgood : (s.pwr.seq != .idle || !(raiseOrder.all fun i => s.fld F.PWR_RAIL_DATA_STATE i == 2)) = false := by simp [hseq, hall]
  unfold State.bootRails
  rw [hgood, if_neg Bool.false_ne_true]
  rfl

theorem State.bootRails_waits {s : State} (h : s.pwr.seq ≠ .idle) : s.bootRails = s := by
  simp [State.bootRails, h]

/-- The PLLs are locked, the time base runs, and every core is to be cleared. -/
theorem State.bootRails_starts {s : State} (hseq : s.pwr.seq = .idle) (hrails : ∀ i ∈ raiseOrder, s.fld F.PWR_RAIL_DATA_STATE i = 2) :
    s.bootRails.fld F.GLB_CLKSTAT_PLL_LOCK = 255 ∧ s.bootRails.pwr.tbRun = true ∧
      ∀ i, i < 1280 → s.bootRails.flag F.CORE_STATUS_CLEARING i = true := by
  rw [State.bootRails_eq hseq hrails]
  have hfields := s.clocksOn.coresDue.stepDone_fields 0 1 0
  refine ⟨?_, ?_, fun i hi => ?_⟩
  · rw [hfields.fld _ (by decide), State.fld_coresDue _ _ _ (by decide) (by decide) (by decide), State.clocksOn, State.fld_onPwr,
      State.fld_setClock _ _ _ (by decide)]
    simp (disch := decide) [State.fld_setFld_of_code, allLocked]
    rfl
  · rw [State.stepDone_tbRun, State.coresDue_pwr]
    rfl
  · rw [State.flag, hfields.fld _ (by decide), State.clearing_coresDue _ hi]
    rfl

theorem State.bootRails_ends {s : State} (hseq : s.pwr.seq = .idle) (hrails : ∀ i ∈ raiseOrder, s.fld F.PWR_RAIL_DATA_STATE i = 2) :
    s.endsStep s.bootRails 0 := by
  rw [State.bootRails_eq hseq hrails]
  refine State.endsStep_stepDone (fun _ => ?_) (.inl rfl)
  rw [State.stepMode_coresDue]
  refine (State.stepMode_congr (s := s.setFld F.GLB_CLKSTAT_PLL_LOCK allLocked |>.setFld F.GLB_CLKSTAT_FWCLK_W 1 |>.setFld F.GLB_CLKSTAT_FWCLK_E 1 |>.setClock)
    rfl rfl rfl fun _ => rfl).trans ?_
  simp (disch := decide)

/-! Step 1, IMAGE (R483). -/

/-- The slot tried first. -/
def State.bootFirst (s : State) : Nat := if s.stepMode 1 = 0 then s.confirmed else 1 - s.confirmed

/-- The slots in the order of trial. -/
def State.bootOrder (s : State) : List Nat := [s.bootFirst, 1 - s.bootFirst, 2]

/-- The slots tried before one boots, and that one, or all. -/
def State.slotsTried (s : State) (bad : Nat) : State :=
  (s.bootOrder.take ((s.bootOrder.takeWhile fun i => !s.bootsFrom bad i).length + 1)).foldl
    (fun (t : State) i => t.romTry i (s.bootOrder.find? (s.bootsFrom bad) == some i)) s

/-- The first core of each complex comes up on the slot that boots. -/
def State.bootsOn (s : State) (i : Nat) : State :=
  let t := if i = 2 then s else (s.setVfld F.UPD_STATUS_BOOTED i).setVfld F.UPD_STATUS_RUNNING i
  (((t.setRcore 0 0).setTick 0).setRcore 4 0).setTick 4

/-- A slot that boots ends step 1, as OK where it is the one tried first. -/
theorem State.bootImage_boots {s : State} {bad i : Nat} (h : s.bootOrder.find? (s.bootsFrom bad) = some i) :
    s.bootImage bad = ((s.slotsTried bad).bootsOn i).stepDone 1 (if i = s.bootFirst then 1 else 2) i := by
  unfold State.bootImage
  dsimp only
  split
  · next j hj =>
    cases h.symm.trans hj
    rfl
  · next hn => cases h.symm.trans hn

/-- With no slot that boots the start ends in step 1. -/
theorem State.bootImage_fails {s : State} {bad : Nat} (h : s.bootOrder.find? (s.bootsFrom bad) = none) :
    (s.bootImage bad).fld F.PWR_BOOT_DATA_OUTCOME 1 = 2 ∧ (s.bootImage bad).pwr.begun = none := by
  unfold State.bootImage
  dsimp only
  split
  · next j hj => cases h.symm.trans hj
  · refine ⟨?_, rfl⟩
    simp (disch := decide) [State.fld_setFld_of_code]
    rfl

@[simp] theorem State.stepMode_slotsTried (s : State) (bad : Nat) : (s.slotsTried bad).stepMode = s.stepMode :=
  foldl_same State.stepMode (fun t i => t.stepMode_romTry i _) _ s

@[simp] theorem State.stepMode_bootsOn (s : State) (i : Nat) : (s.bootsOn i).stepMode = s.stepMode := by
  unfold State.bootsOn
  dsimp only
  split <;> simp

/-- The SPI NOR flash boots at the latest, where it holds an image. -/
theorem State.bootOrder_boots {s : State} {bad : Nat} (h : bad.testBit 2 = false) : ∃ i, s.bootOrder.find? (s.bootsFrom bad) = some i := by
  have hflash : s.bootsFrom bad 2 = true := by simp [State.bootsFrom, h]
  exact Option.isSome_iff_exists.1 (List.find?_isSome.2 ⟨2, by simp [State.bootOrder], hflash⟩)

theorem State.bootImage_ends {s : State} {bad : Nat} (h : bad.testBit 2 = false) : s.endsStep (s.bootImage bad) 1 := by
  obtain ⟨i, hi⟩ := s.bootOrder_boots h
  rw [State.bootImage_boots hi]
  exact State.endsStep_stepDone (fun _ => by simp) (outcome_ite _)

/-- Done normally, step 1 runs the confirmed image where it boots. -/
theorem State.bootImage_confirmed {s : State} {bad : Nat} (hmode : s.stepMode 1 = 0) (hboots : s.bootsFrom bad s.confirmed = true)
    (hslot : s.confirmed ≤ 1) :
    (s.bootImage bad).running = s.confirmed ∧ (s.bootImage bad).fld F.PWR_BOOT_DATA_OUTCOME 1 = 1 ∧
      (s.bootImage bad).fld F.PWR_BOOT_DATA_DETAIL 1 = s.confirmed := by
  have hfirst : s.bootFirst = s.confirmed := if_pos hmode
  have hfind : s.bootOrder.find? (s.bootsFrom bad) = some s.confirmed := by simp [State.bootOrder, hfirst, hboots]
  rw [State.bootImage_boots hfind, if_pos hfirst.symm]
  obtain ⟨hout, -, hdetail⟩ := ((s.slotsTried bad).bootsOn s.confirmed).stepDone_ledger 1 1 s.confirmed
  refine ⟨?_, hout, hdetail.trans (Nat.mod_eq_of_lt (by omega))⟩
  have hvault : (((s.slotsTried bad).bootsOn s.confirmed).stepDone 1 1 s.confirmed).vfields = ((s.slotsTried bad).bootsOn s.confirmed).vfields :=
    State.stepDone_onlyIn _ 1 1 s.confirmed .vfields (by decide)
  have hrun : ((s.slotsTried bad).bootsOn s.confirmed).vfld F.UPD_STATUS_RUNNING = s.confirmed % 2 ^ F.UPD_STATUS_RUNNING.width := by
    rw [State.bootsOn, if_neg (by omega)]
    exact State.vfld_setVfld_same ..
  rw [State.running, State.vfld, hvault]
  exact hrun.trans (Nat.mod_eq_of_lt (show s.confirmed < 2 by omega))

/-- With no image in any slot step 1 fails and the start ends. -/
theorem State.bootImage_none {s : State} {bad : Nat} (hslot : s.confirmed ≤ 1) (h : ∀ slot, slot ≤ 2 → s.bootsFrom bad slot = false) :
    (s.bootImage bad).fld F.PWR_BOOT_DATA_OUTCOME 1 = 2 ∧ (s.bootImage bad).pwr.begun = none := by
  refine State.bootImage_fails (List.find?_eq_none.2 fun i hi => ?_)
  have hfirst : s.bootFirst ≤ 1 := by unfold State.bootFirst; split <;> omega
  have hle : i ≤ 2 := by
    simp only [State.bootOrder, List.mem_cons, List.not_mem_nil, or_false] at hi
    omega
  simp [h i hle]

/-! Steps 2 and 3. -/

theorem State.bootClaim_ends {s : State} (h : s.holder ≠ 0) : s.endsStep s.bootClaim 2 := by
  rw [State.bootClaim, if_neg h]
  exact State.endsStep_stepDone (fun _ => rfl) (.inl rfl)

theorem State.bootVault_ends (s : State) (bad : Nat) : s.endsStep (s.bootVault bad) 3 := by
  unfold State.bootVault
  exact State.endsStep_stepDone (fun h => absurd rfl h) (outcome_ite _)

/-! Step 3, VAULT, leaves the weight records. -/

@[simp] theorem State.journalReplay_wgt (s : State) : s.journalReplay.wgt = s.wgt := rfl

/-- A component found WRITING is EMPTY; the weights stand. -/
@[simp] theorem State.loadSlots_wgt (s : State) : s.loadSlots.wgt = s.wgt := by
  unfold State.loadSlots
  extract_lets t
  have ht : t.wgt = s.wgt := by
    refine foldl_same State.wgt (fun u slot => ?_) _ s
    refine foldl_same State.wgt (fun v cls => ?_) _ u
    split <;> rfl
  clear_value t
  split
  · exact ht
  · exact ht

@[simp] theorem State.vaultFields_wgt (s : State) : s.vaultFields.wgt = s.wgt := by
  unfold State.vaultFields
  extract_lets t u
  have hu : u.wgt = s.wgt := by
    simp only [u]
    split <;> rfl
  refine (foldl_same State.wgt (fun v e => ?_) _ u).trans hu
  split <;> rfl

@[simp] theorem State.rowModes_wgt (s : State) (h p : Nat) : (s.rowModes h p).wgt = s.wgt := by
  unfold State.rowModes
  split
  · refine foldl_same State.wgt (fun t a => ?_) _ s
    rfl
  · split
    · refine foldl_same State.wgt (fun t a => ?_) _ s
      rfl
    · refine foldl_same State.wgt (fun t a => ?_) _ s
      rfl

@[simp] theorem State.auditWrite_wgt (s : State) (e : AuditEntry) : (s.auditWrite e).wgt = s.wgt := by
  unfold State.auditWrite
  extract_lets n lost log sec t u
  have hu : u.wgt = s.wgt := by
    simp only [u]
    split <;> rfl
  exact hu

@[simp] theorem State.loadAudit_wgt (s : State) : s.loadAudit.wgt = s.wgt := by
  unfold State.loadAudit
  exact State.auditWrite_wgt ..

@[simp] theorem State.mirrorSide_wgt (s : State) (a : Nat) : (s.mirrorSide a).wgt = s.wgt := by
  unfold State.mirrorSide
  simp only [State.setFld_wgt, State.setFlag_wgt]
  refine foldl_same State.wgt (fun t r => ?_) _ s
  rfl

/-- Loading a half's spare map notes retirements that wait, and nothing else of the weights. -/
theorem State.loadRows_wgt (s : State) (h : Nat) : ∃ due, (s.loadRows h).wgt = { s.wgt with retireDue := due } := by
  unfold State.loadRows
  extract_lets unused t due u mgr v
  have hv : v.wgt = u.wgt := by
    simp only [v]
    split <;> rfl
  clear_value v
  exact ⟨_, (foldl_same State.wgt (fun t p => t.rowModes_wgt h p) _ v).trans hv⟩

theorem State.bootVault_weights (s : State) (bad : Nat) :
    (s.bootVault bad).wgt.recs = s.wgt.recs ∧ (s.bootVault bad).wgt.ledger = s.wgt.ledger ∧
      (s.bootVault bad).wgt.resident = s.wgt.resident := by
  unfold State.bootVault
  extract_lets t u v
  have ht : t.wgt = s.wgt := by simp [t]
  obtain ⟨due0, h0⟩ := t.loadRows_wgt 0
  obtain ⟨due1, h1⟩ := (t.loadRows 0).loadRows_wgt 1
  have hv : v.wgt = u.wgt := foldl_same State.wgt (fun t (e : Nat × ArrSt) => t.mirrorSide_wgt e.1) _ u
  have hu : u.wgt = { s.wgt with retireDue := due1 } := by simp [u, h1, h0, ht]
  have hdone : (v.stepDone 3 (if bad = 0 then 1 else 2) 0).wgt = v.wgt := State.stepDone_onlyIn _ _ _ _ .wgt (by decide)
  rw [hdone, hv, hu]
  exact ⟨rfl, rfl, rfl⟩

/-! Step 4, LOAD (R484). -/

/-- Writing a nibble of a word of 16 bits. -/
theorem nibble_write (w v : Nat) {i j : Nat} (hi : i < 4) (hj : j < 4) (hv : v < 16) :
    bitsAt ((w - bitsAt w (4 * i) 4 * 2 ^ (4 * i) + v * 2 ^ (4 * i)) % 65536) (4 * j) 4 = if j = i then v else bitsAt w (4 * j) 4 := by
  unfold bitsAt
  interval_cases i <;> interval_cases j <;> norm_num <;> omega

/-- The state of a Ranger core after another, or it, was set. -/
theorem State.rcore_setRcore (s : State) {k j v : Nat} (hv : v < 16) : (s.setRcore k v).rcore j = if j = k then v else s.rcore j := by
  unfold State.rcore State.setRcore
  rw [State.fld_setFlag_of_code _ _ _ _ _ _ (by decide) (by decide) (by decide)]
  by_cases hhalf : j / 4 = k / 4
  · have hsame : (j = k) = (j % 4 = k % 4) := by
      apply propext; omega
    rw [hhalf, State.fld_setFld_same]
    simp only [hsame]
    exact nibble_write _ v (Nat.mod_lt _ (by decide)) (Nat.mod_lt _ (by decide)) hv
  · rw [State.fld_setFld_place _ _ _ _ _ hhalf, if_neg fun h => hhalf (congrArg (· / 4) h)]

@[simp] theorem State.rcore_setTick (s : State) (k j : Nat) : (s.setTick k).rcore j = s.rcore j := rfl

/-- All cores of a half take a state. -/
def State.halfTo (s : State) (h v : Nat) : State := (halfCores h).foldl (fun (s : State) k => (s.setRcore k v).setTick k) s

theorem State.rcore_halfTo (s : State) {h v j : Nat} (hv : v < 16) : (s.halfTo h v).rcore j = if j / 4 = h then v else s.rcore j := by
  simp only [State.halfTo, halfCores, List.foldl_cons, List.foldl_nil, State.rcore_setTick, State.rcore_setRcore _ hv]
  split_ifs <;> omega

@[simp] theorem State.stepMode_halfTo (s : State) (h v : Nat) : (s.halfTo h v).stepMode = s.stepMode :=
  foldl_same State.stepMode (fun s k => by simp) _ s

/-- The slot that the components are loaded from. -/
def State.loadSlot (s : State) : Nat := if s.stepMode 4 = 0 then s.vfld F.UPD_STATUS_BOOTED else 1 - s.vfld F.UPD_STATUS_BOOTED

/-- That slot shown as the one that runs. -/
def State.slotShown (s : State) : State :=
  [0, 1].foldl (fun (t : State) h => t.setBoth F.RGR_STATUS_SLOT s.loadSlot h) (s.setBoth F.UPD_STATUS_RUNNING s.loadSlot)

/-- The ports without microcode, disabled. -/
def State.portsOff (s : State) : State := (List.range 32).foldl (fun (s : State) n => s.setFld F.PRT_STATUS_DISABLED 1 n) s

/-- Step 4 brings up the leader's complex, then the other where its component loads, and disables the ports where theirs does not. -/
theorem State.bootLoad_eq (s : State) (bad : Nat) :
    s.bootLoad bad =
      let fails := s.slotState s.loadSlot 2 ≠ 2
      let t := (s.slotShown.halfTo (s.holder - 1) 0).halfTo (1 - (s.holder - 1)) (if bad.testBit 0 || decide fails then 2 else 0)
      (if bad.testBit 1 || decide fails then t.portsOff else t).stepDone 4 (if bad = 0 && !decide fails then 1 else 2) 0 := rfl

@[simp] theorem State.stepMode_slotShown (s : State) : s.slotShown.stepMode = s.stepMode := by
  simp (disch := decide) [State.slotShown]

@[simp] theorem State.stepMode_portsOff (s : State) : s.portsOff.stepMode = s.stepMode :=
  foldl_same State.stepMode (fun s n => s.stepMode_setFld 1 n (by decide)) _ s

theorem State.bootLoad_ends (s : State) (bad : Nat) : s.endsStep (s.bootLoad bad) 4 := by
  rw [State.bootLoad_eq]
  refine State.endsStep_stepDone (fun _ => ?_) (outcome_ite _)
  split <;> simp

/-- With good components in both slots all Ranger cores run. -/
theorem State.bootLoad_runs {s : State} (hh : s.holder ≤ 2) (hbooted : s.vfld F.UPD_STATUS_BOOTED ≤ 1)
    (h0 : s.slotState 0 2 = 2) (h1 : s.slotState 1 2 = 2) :
    (s.bootLoad 0).fld F.PWR_BOOT_DATA_OUTCOME 4 = 1 ∧ ∀ j, j < 8 → (s.bootLoad 0).rcoreRuns j = true := by
  have hslot : s.slotState s.loadSlot 2 = 2 := by
    have hle : s.loadSlot ≤ 1 := by unfold State.loadSlot; split <;> omega
    rcases Nat.le_one_iff_eq_zero_or_eq_one.1 hle with h | h <;> rw [h] <;> assumption
  have heq : s.bootLoad 0 = ((s.slotShown.halfTo (s.holder - 1) 0).halfTo (1 - (s.holder - 1)) 0).stepDone 4 1 0 := by
    rw [State.bootLoad_eq]
    simp [hslot]
  rw [heq]
  refine ⟨(State.stepDone_ledger _ 4 1 0).1, fun j hj => ?_⟩
  have hzero : ((s.slotShown.halfTo (s.holder - 1) 0).halfTo (1 - (s.holder - 1)) 0).rcore j = 0 := by
    rw [State.rcore_halfTo _ (by decide), State.rcore_halfTo _ (by decide)]
    split_ifs <;> omega
  rw [State.rcoreRuns, State.rcore, (State.stepDone_fields _ 4 1 0).fld _ (by decide), ← State.rcore, hzero]
  rfl

/-! Step 5, TRAIN. -/

/-- A field at another place reads as before, whatever field is set. -/
theorem State.fld_setFld_of_place (s : State) {f g : Fld} (v : Nat) {i j : Nat} (hf : f.code < 1024) (hg : g.code < 1024) (h : j ≠ i) :
    (s.setFld f v i).fld g j = s.fld g j := s.fld_setFld_key f g v i j (by unfold Fld.key; omega)

@[simp] theorem State.trainFails_fields (s : State) (k : Nat) (first again : Bool) : (s.trainFails k first again).fields = s.fields :=
  s.unitError_fields ..

@[simp] theorem State.fld_trainFails (s : State) (k : Nat) (first again : Bool) (f : Fld) (i : Nat) :
    (s.trainFails k first again).fld f i = s.fld f i := State.fld_of_fields (s.trainFails_fields k first again) f i

/-- Training failures wait to enter a unit's history, which stands. -/
theorem State.trainFails_eq_hist (s : State) (k : Nat) (first again : Bool) :
    ∃ pend, s.trainFails k first again = { s with hist := { s.hist with pend := pend } } := by
  unfold State.trainFails State.unitError
  split
  · exact ⟨s.hist.pend, rfl⟩
  · exact ⟨_, rfl⟩

/-- Excluding a stack writes its own fields and its channels' states. -/
theorem State.fld_excludeStack (s : State) (k : Nat) {f : Fld} (j : Nat) (hf : f.code < 1024) (hch : f.code ≠ F.MEM_CH_STATE_STATE.code) :
    (s.excludeStack k).fld f j =
      (((s.setFld F.MEM_STATUS_TRAINED 0 k).setFld F.MEM_STATUS_CONSERVATIVE 0 k).setFld F.MEM_STATUS_EXCLUDED 1 k).fld f j := by
  unfold State.excludeStack
  refine foldl_same (fun t : State => t.fld f j) (fun t c => ?_) _ _
  exact t.fld_setFld_of_code _ _ _ _ _ (by decide) hf hch

/-- Training one stack leaves the fields of the others, but for channel states. -/
theorem State.fld_trainStack_of_ne (s : State) (bad second : Nat) {k j : Nat} (hj : j ≠ k) {f : Fld} (hf : f.code < 1024)
    (hch : f.code ≠ F.MEM_CH_STATE_STATE.code) : (s.trainStack bad second k).fld f j = s.fld f j := by
  have hplace : ∀ (t : State) (g : Fld) (v : Nat), g.code < 1024 → (t.setFld g v k).fld f j = t.fld f j :=
    fun t g v hg => t.fld_setFld_of_place v hg hf hj
  have hexcl : ∀ t : State, (t.excludeStack k).fld f j = t.fld f j := fun t => by
    rw [t.fld_excludeStack k j hf hch, hplace _ _ _ (by decide), hplace _ _ _ (by decide), hplace _ _ _ (by decide)]
  unfold State.trainStack
  split_ifs
  · exact hexcl s
  · rw [hexcl, State.fld_trainFails]
  · rw [State.setFlag, hplace _ _ _ (by decide), hplace _ _ _ (by decide), State.fld_trainFails]

@[simp] theorem State.trainStack_pwr (s : State) (bad second k : Nat) : (s.trainStack bad second k).pwr = s.pwr := by
  have hfails : ∀ a b, (s.trainFails k a b).pwr = s.pwr := fun a b => by
    obtain ⟨p, hp⟩ := s.trainFails_eq_hist k a b
    rw [hp]
  have hexcl : ∀ t : State, (t.excludeStack k).pwr = t.pwr := fun t => by
    unfold State.excludeStack
    refine foldl_same State.pwr (fun u c => ?_) _ _
    rfl
  unfold State.trainStack
  split_ifs
  · exact hexcl s
  · rw [hexcl, hfails]
  · exact hfails _ _

theorem State.histRec_trainStack (s : State) (bad second k j : Nat) : (s.trainStack bad second k).histRec 4 j = s.histRec 4 j := by
  have hfails : ∀ a b, (s.trainFails k a b).histRec 4 j = s.histRec 4 j := fun a b => by
    obtain ⟨p, hp⟩ := s.trainFails_eq_hist k a b
    rw [hp]
    rfl
  have hexcl : ∀ t : State, (t.excludeStack k).histRec 4 j = t.histRec 4 j := fun t => by
    unfold State.excludeStack
    refine foldl_same (fun u : State => u.histRec 4 j) (fun u c => ?_) _ _
    rfl
  unfold State.trainStack
  split_ifs
  · exact hexcl s
  · rw [hexcl, hfails]
  · exact hfails _ _

/-- What a stack whose history does not exclude it shows after its training: trained, conservatively where the step is altered for it
or its first training failed, or excluded where both failed. -/
structure State.stackTrained (s t : State) (bad second j : Nat) : Prop where
  good : bad.testBit j = false → t.flag F.MEM_STATUS_TRAINED j = true ∧
    t.flag F.MEM_STATUS_CONSERVATIVE j = (s.stepMode 5 != 0 && s.pwr.altStacks.testBit j)
  again : bad.testBit j = true → second.testBit j = false → t.flag F.MEM_STATUS_TRAINED j = true ∧ t.flag F.MEM_STATUS_CONSERVATIVE j = true
  failed : bad.testBit j = true → second.testBit j = true → t.flag F.MEM_STATUS_EXCLUDED j = true ∧ t.flag F.MEM_STATUS_TRAINED j = false

/-- It depends on the fields of the stack alone. -/
theorem State.stackTrained.of_fld {s t u : State} {bad second j : Nat} (h : s.stackTrained t bad second j)
    (hf : ∀ f ∈ [F.MEM_STATUS_TRAINED, F.MEM_STATUS_CONSERVATIVE, F.MEM_STATUS_EXCLUDED], u.fld f j = t.fld f j) : s.stackTrained u bad second j := by
  have ht := hf F.MEM_STATUS_TRAINED (by simp)
  have hc := hf F.MEM_STATUS_CONSERVATIVE (by simp)
  have he := hf F.MEM_STATUS_EXCLUDED (by simp)
  obtain ⟨h1, h2, h3⟩ := h
  simp only [State.flag] at h1 h2 h3
  exact ⟨by simpa only [State.flag, ht, hc] using h1, by simpa only [State.flag, ht, hc] using h2, by simpa only [State.flag, ht, he] using h3⟩

/-- The turn of a stack. -/
theorem State.trainStack_trains {s : State} (bad second : Nat) {j : Nat} (hcls : (s.histRec 4 j).cls < 2) :
    s.stackTrained (s.trainStack bad second j) bad second j := by
  unfold State.trainStack
  rw [if_neg (Nat.not_le_of_lt hcls)]
  have hcons : ∀ (t : State) (b : Bool), ((t.setFld F.MEM_STATUS_TRAINED 1 j).setFlag F.MEM_STATUS_CONSERVATIVE b j).flag F.MEM_STATUS_CONSERVATIVE j = b :=
    fun t b => State.flag_setFlag_same _ b j rfl
  have htrained : ∀ (t : State) (b : Bool), ((t.setFld F.MEM_STATUS_TRAINED 1 j).setFlag F.MEM_STATUS_CONSERVATIVE b j).flag F.MEM_STATUS_TRAINED j = true :=
    fun t b => by
      rw [State.flag, State.fld_setFlag_of_code _ _ _ _ _ _ (by decide) (by decide) (by decide), State.fld_setFld_same]; rfl
  cases hb : bad.testBit j
  · simp only [Bool.false_and, Bool.false_eq_true, if_false, Bool.false_or]
    exact ⟨fun _ => ⟨htrained _ _, hcons _ _⟩, fun h => absurd h (by simp [hb]), fun h => absurd h (by simp [hb])⟩
  · cases hs : second.testBit j
    · simp only [Bool.and_false, Bool.false_eq_true, if_false, Bool.true_or]
      exact ⟨fun h => absurd h (by simp [hb]), fun _ _ => ⟨htrained _ _, hcons _ _⟩, fun _ h => absurd h (by simp [hs])⟩
    · simp only [Bool.and_self, if_true]
      refine ⟨fun h => absurd h (by simp [hb]), fun _ h => absurd h (by simp [hs]), fun _ _ => ⟨?_, ?_⟩⟩
      · rw [State.flag, State.fld_excludeStack _ _ _ (by decide) (by decide), State.fld_setFld_same]; rfl
      · rw [State.flag, State.fld_excludeStack _ _ _ (by decide) (by decide)]
        simp (disch := decide) [State.fld_setFld_of_code]

/-- All stacks trained. -/
def State.stacksTrained (s : State) (bad second : Nat) : State := (List.range 10).foldl (fun (s : State) k => s.trainStack bad second k) s

theorem State.bootTrain_eq (s : State) (bad second : Nat) :
    s.bootTrain bad second = (((s.stacksTrained bad second).stepDone 5 (if bad % 1024 = 0 then 1 else 2)
      (stackBits fun k => (s.stacksTrained bad second).flag F.MEM_STATUS_CONSERVATIVE k)).failStacks bad) := rfl

theorem State.bootTrain_ends (s : State) (bad second : Nat) : s.endsStep (s.bootTrain bad second) 5 := by
  rw [State.bootTrain_eq]
  have hmode : (s.stacksTrained bad second).stepMode = s.stepMode := foldl_same State.stepMode (fun t k => t.stepMode_trainStack bad second k) _ s
  exact (State.endsStep_stepDone (fun _ => hmode) (outcome_ite _)).onPwr rfl

theorem State.bootTrain_trains {s : State} (bad second : Nat) {j : Nat} (hj : j < 10) (hcls : (s.histRec 4 j).cls < 2) :
    s.stackTrained (s.bootTrain bad second) bad second j := by
  have htrained : s.stackTrained (s.stacksTrained bad second) bad second j := by
    refine foldl_mem (fun t : State => t.histRec 4 j = s.histRec 4 j ∧ t.stepMode = s.stepMode ∧ t.pwr = s.pwr)
      (fun t : State => s.stackTrained t bad second j) ?_ ?_ ?_ (List.mem_range.2 hj) ⟨rfl, rfl, rfl⟩
    · rintro t k ⟨h1, h2, h3⟩
      exact ⟨(t.histRec_trainStack ..).trans h1, (t.stepMode_trainStack ..).trans h2, (t.trainStack_pwr ..).trans h3⟩
    · rintro t ⟨h1, h2, h3⟩
      obtain ⟨hgood, hagain, hfailed⟩ := t.trainStack_trains bad second (h1.symm ▸ hcls)
      exact ⟨by rw [← h2, ← h3]; exact hgood, hagain, hfailed⟩
    · intro t k hk ht
      refine ht.of_fld fun f hf => t.fld_trainStack_of_ne bad second hk.symm ?_ ?_
      all_goals revert f; decide
  rw [State.bootTrain_eq]
  refine htrained.of_fld fun f hf => ?_
  rw [State.failStacks, State.fld_onPwr]
  refine (State.stepDone_fields _ 5 _ _).fld j ?_
  revert f
  decide

/-! Step 6, ZERO, clears the stacked memory. -/

/-- What the training failures of step 6 leave: how steps are done, and both memories. -/
def State.zeroView (s : State) : (Nat → Nat) × Memory × Memory := (s.stepMode, s.dram, s.hamper)

theorem State.zeroView_setFld (s : State) {f : Fld} (v i : Nat) (h : f.code % 1024 ≠ F.PWR_BOOT_DATA_OUTCOME.code) :
    (s.setFld f v i).zeroView = s.zeroView := by
  rw [State.zeroView, s.stepMode_setFld v i h]
  rfl

theorem State.zeroView_trainFails (s : State) (k : Nat) (first again : Bool) : (s.trainFails k first again).zeroView = s.zeroView := by
  obtain ⟨p, hp⟩ := s.trainFails_eq_hist k first again
  rw [hp]
  rfl

theorem State.zeroView_excludeStack (s : State) (k : Nat) : (s.excludeStack k).zeroView = s.zeroView := by
  unfold State.excludeStack
  refine (foldl_same State.zeroView (fun t c => t.zeroView_setFld _ _ (by decide)) _ _).trans ?_
  simp (disch := decide) only [State.zeroView_setFld]

theorem State.bootZero_clears (s : State) (bad second : Nat) :
    s.endsStep (s.bootZero bad second) 6 ∧ (s.bootZero bad second).dram = [] ∧ (s.bootZero bad second).hamper = s.hamper := by
  unfold State.bootZero
  extract_lets t hit u v
  have hu : u.zeroView = t.zeroView := by
    refine foldl_same State.zeroView (fun w k => ?_) _ t
    split_ifs
    · rfl
    · exact (State.zeroView_excludeStack _ k).trans (w.zeroView_trainFails ..)
    · exact (State.zeroView_setFld _ 1 k (by decide)).trans (w.zeroView_trainFails ..)
  have hv : v.zeroView = t.zeroView :=
    (foldl_same State.zeroView (fun w k => w.zeroView_setFld _ k (by decide)) _ u).trans hu
  obtain ⟨hmode, hdram, hhamper⟩ : v.stepMode = s.stepMode ∧ v.dram = [] ∧ v.hamper = s.hamper := by
    simp only [State.zeroView, Prod.mk.injEq] at hv
    exact hv
  clear_value v
  refine ⟨(State.endsStep_stepDone (fun _ => hmode) (outcome_ite _)).onPwr rfl, ?_, ?_⟩
  · exact (State.stepDone_onlyIn v 6 _ _ .dram (by decide)).trans hdram
  · exact (State.stepDone_onlyIn v 6 _ _ .hamper (by decide)).trans hhamper

/-! Steps 7 to 10. -/

/-- Enabled ports train. -/
def State.portsTrain (s : State) : State :=
  (List.range 32).foldl (fun (s : State) n =>
    s.setFlag F.PRT_STATUS_TRAINING (s.flag F.PRT_CTL_ENABLE n && !s.flag F.PRT_STATUS_DISABLED n) n) s

theorem State.bootPorts_ends (s : State) : s.endsStep s.bootPorts 7 := by
  have hmode : s.portsTrain.stepMode = s.stepMode := foldl_same State.stepMode (fun t n => t.stepMode_setFlag _ n (by decide)) _ s
  exact State.endsStep_stepDone (t := s.portsTrain) (fun _ => hmode) (.inl rfl)

theorem State.bootPorts_train (s : State) {n : Nat} (hn : n < 32) :
    s.bootPorts.flag F.PRT_STATUS_TRAINING n = (s.flag F.PRT_CTL_ENABLE n && !s.flag F.PRT_STATUS_DISABLED n) := by
  have htrain : s.portsTrain.flag F.PRT_STATUS_TRAINING n = (s.flag F.PRT_CTL_ENABLE n && !s.flag F.PRT_STATUS_DISABLED n) := by
    refine foldl_mem (fun t : State => t.flag F.PRT_CTL_ENABLE n = s.flag F.PRT_CTL_ENABLE n ∧ t.flag F.PRT_STATUS_DISABLED n = s.flag F.PRT_STATUS_DISABLED n)
      (fun t : State => t.flag F.PRT_STATUS_TRAINING n = (s.flag F.PRT_CTL_ENABLE n && !s.flag F.PRT_STATUS_DISABLED n)) ?_ ?_ ?_
      (List.mem_range.2 hn) ⟨rfl, rfl⟩
    · rintro t m ⟨hen, hdis⟩
      simp only [State.flag] at hen hdis ⊢
      rw [State.fld_setFlag_of_code _ _ _ _ _ _ (by decide) (by decide) (by decide),
        State.fld_setFlag_of_code _ _ _ _ _ _ (by decide) (by decide) (by decide)]
      exact ⟨hen, hdis⟩
    · rintro t ⟨hen, hdis⟩
      rw [State.flag_setFlag_same _ _ _ rfl, hen, hdis]
    · intro t m hm ht
      rw [← ht, State.flag, State.setFlag, State.fld_setFld_place _ _ _ _ _ hm.symm]
      rfl
  rw [← htrain, State.flag, State.flag]
  exact congrArg (· == 1) ((s.portsTrain.stepDone_fields 7 1 0).fld n (by decide))

theorem State.bootCal_waits {s : State} (hv : s.flag F.MET_RES_VALID 0 = false) (hf : s.flag F.MET_STATUS_REFIN_FAULT = false) : s.bootCal = s := by
  simp [State.bootCal, hv, hf]

theorem State.bootCal_ends {s : State} (h : s.flag F.MET_RES_VALID 0 = true ∨ s.flag F.MET_STATUS_REFIN_FAULT = true) : s.endsStep s.bootCal 8 := by
  have hread : (!s.flag F.MET_RES_VALID 0 && !s.flag F.MET_STATUS_REFIN_FAULT) = false := by rcases h with h | h <;> simp [h]
  unfold State.bootCal
  rw [hread, if_neg Bool.false_ne_true]
  refine State.endsStep_stepDone (fun _ => rfl) ?_
  split
  · exact .inr rfl
  · exact .inl rfl

theorem State.bootCheck_ends (s : State) (given : List ArrCheck) : s.endsStep (s.bootCheck given) 9 := by
  unfold State.bootCheck
  extract_lets t r
  have hr : r.1.stepMode = s.stepMode := by
    refine foldl_same (fun r : State × Bool => r.1.stepMode) (fun r a => ?_) _ (s, true)
    exact r.1.stepMode_checkArray ..
  exact State.endsStep_stepDone (fun _ => hr) (outcome_ite _)

theorem State.bootRecords_ends (s : State) : s.endsStep s.bootRecords 10 := by
  unfold State.bootRecords
  extract_lets n t
  have ht : t.stepMode = s.stepMode :=
    (State.stepMode_kickJobs _).trans (foldl_same State.stepMode (fun u a => u.stepMode_reconcile a) _ s)
  refine State.endsStep_stepDone (fun _ => ?_) (outcome_ite _)
  split
  · exact ht
  · exact (State.stepMode_tellManager t).trans ht

/-! Step 11, WINDOWS (R464). -/

/-- Every window open. -/
def State.windowsOpen (s : State) : State := (List.range 17).foldl (fun (s : State) fn => s.setWin fn { s.win fn with ready := true }) s

theorem State.windowsOpen_ready (s : State) {fn : Nat} (h : fn ≤ 16) : (s.windowsOpen.win fn).ready = true := by
  refine foldl_mem (fun _ => True) (fun t : State => (t.win fn).ready = true) (fun _ _ h => h) (fun t _ => ?_) (fun t g hg ht => ?_)
    (List.mem_range.2 (Nat.lt_succ_of_le h)) trivial
  · rw [State.win_setWin_same]
  · rw [State.win_setWin_ne _ _ hg.symm]
    exact ht

/-- Posting altered steps changes no field, nor the record of power, nor whether a window is open. -/
theorem State.postAltered_leaves (s : State) (k : Nat) :
    (s.postAltered k).fields = s.fields ∧ (s.postAltered k).pwr = s.pwr ∧ ∀ fn, ((s.postAltered k).win fn).ready = (s.win fn).ready := by
  unfold State.postAltered
  dsimp only
  split
  · refine ⟨State.post_fields .., State.post_pwr .., fun fn => ?_⟩
    obtain ⟨w, hw, hready⟩ := s.postTo_eq_setWin 0 0x00E6
      [k, s.fld F.PWR_BOOT_DATA_OUTCOME k, s.fld F.PWR_BOOT_DATA_MODE k, s.fld F.PWR_BOOT_DATA_DETAIL k]
    rw [State.post, hw]
    by_cases h : fn = 0
    · rw [h, State.win_setWin_same, hready]
    · rw [State.win_setWin_ne _ _ h]
  · exact ⟨rfl, rfl, fun _ => rfl⟩

theorem State.histSettle_host (s : State) : s.histSettle.host = s.host := by
  unfold State.histSettle
  refine foldl_same State.host (fun t e => ?_) _ s
  dsimp only
  split <;> rfl

/-- Step 11 ended, before the altered steps are posted. -/
def State.windowsDone (s : State) : State :=
  (s.windowsOpen.histSettle.stepDone 11 1 0).onPwr fun p => { p with clearAlt := false }

/-- Every altered step posted. -/
def State.alteredPosted (s : State) : State := (List.range 12).foldl (fun (s : State) k => s.postAltered k) s

theorem State.bootWindows_eq (s : State) : s.bootWindows = s.windowsDone.alteredPosted.setFld F.PWR_BOOT_READY 1 := rfl

theorem State.alteredPosted_fields (s : State) : s.alteredPosted.fields = s.fields :=
  foldl_same State.fields (fun t k => (t.postAltered_leaves k).1) _ s

theorem State.alteredPosted_pwr (s : State) : s.alteredPosted.pwr = s.pwr :=
  foldl_same State.pwr (fun t k => (t.postAltered_leaves k).2.1) _ s

theorem State.alteredPosted_ready (s : State) (fn : Nat) : (s.alteredPosted.win fn).ready = (s.win fn).ready :=
  foldl_same (fun t : State => (t.win fn).ready) (fun t k => (t.postAltered_leaves k).2.2 fn) _ s

/-- The ledger after step 11 is the one at the step's end. -/
theorem State.fld_bootWindows (s : State) (f : Fld) (i : Nat) (hf : f.code < 1024) (h : f.code ≠ F.PWR_BOOT_READY.code) :
    s.bootWindows.fld f i = s.windowsDone.fld f i := by
  rw [State.bootWindows_eq, State.fld_setFld_of_code _ _ _ _ _ _ (by decide) hf h, State.fld_of_fields s.windowsDone.alteredPosted_fields]

theorem State.bootWindows_ends (s : State) : s.endsStep s.bootWindows 11 := by
  have hmode : s.windowsOpen.histSettle.stepMode = s.stepMode := by
    rw [State.stepMode_histSettle]
    exact foldl_same State.stepMode (fun t fn => t.stepMode_setWin fn _) _ s
  have hdone : s.endsStep (s.windowsOpen.histSettle.stepDone 11 1 0) 11 := State.endsStep_stepDone (fun _ => hmode) (.inl rfl)
  refine ⟨?_, fun h => ?_, fun h => absurd h (by decide)⟩
  · rw [s.fld_bootWindows _ _ (by decide) (by decide), State.windowsDone, State.fld_onPwr]
    exact hdone.outcome
  · rw [s.fld_bootWindows _ _ (by decide) (by decide), State.windowsDone, State.fld_onPwr]
    exact hdone.mode h

/-- READY is 1, no step runs, the next start is done as R463 says again, and every window is open. -/
theorem State.bootWindows_ready (s : State) :
    s.bootWindows.pwr.begun = none ∧ s.bootWindows.flag F.PWR_BOOT_READY = true ∧ s.bootWindows.pwr.clearAlt = false ∧
      ∀ fn, fn ≤ 16 → (s.bootWindows.win fn).ready = true := by
  have hpwr : s.bootWindows.pwr = s.windowsDone.pwr := by
    rw [State.bootWindows_eq, State.setFld_pwr, State.alteredPosted_pwr]
  refine ⟨?_, ?_, ?_, fun fn hfn => ?_⟩
  · rw [hpwr, State.windowsDone, State.onPwr_pwr]
    exact s.windowsOpen.histSettle.stepDone_last 1 0
  · rw [State.bootWindows_eq, State.flag, State.fld_setFld_same]
    rfl
  · rw [hpwr, State.windowsDone, State.onPwr_pwr]
  · rw [State.bootWindows_eq, State.win_setFld, State.alteredPosted_ready]
    have hhost : s.windowsDone.host = s.windowsOpen.host := by
      rw [State.windowsDone, State.onPwr_host, ← s.windowsOpen.histSettle_host]
      exact State.stepDone_onlyIn s.windowsOpen.histSettle 11 1 0 .host (by decide)
    rw [State.win, hhost]
    exact s.windowsOpen_ready hfn

/-! CLEAR_ALT (R463). -/

/-- By an installer or above it is noted for the next start. -/
theorem State.clearAltWrite_taken {s : State} {fn : Nat} (ho : s.barOpen = true) (hrole : roleIns ≤ s.roleOf fn) :
    s.clearAltWrite (.host fn) = ((s.audit fn 0xFFFF 0 0 0x6024).onPwr fun p => { p with clearAlt := true }).recordWrites := by
  simp [State.clearAltWrite, State.ownWrite, ho, Nat.not_lt_of_le hrole]

/-- By a lower role it is audited as refused. -/
theorem State.clearAltWrite_refused {s : State} {fn : Nat} (ho : s.barOpen = true) (hrole : s.roleOf fn < roleIns) :
    s.clearAltWrite (.host fn) = s.audit fn 0xFFFF 1 0xF3 0x6024 := by
  simp [State.clearAltWrite, State.ownWrite, ho, hrole]

/-- With CLEAR_ALT noted every step is done normally. -/
theorem State.stepMode_of_clearAlt {s : State} (h : s.pwr.clearAlt = true) (k : Nat) : s.stepMode k = 0 := by
  simp [State.stepMode, h]

/-! BOOT_STEP_END. -/

/-- A step that runs outside Off, with a leader where it is a leader's, does its work. -/
theorem State.bootStep_runs {s : State} {bad second k : Nat} {checks : List ArrCheck} (hb : s.pwr.begun = some k) (ho : s.isOff = false)
    (hh : 3 ≤ k → s.holder ≠ 0) :
    s.bootStep bad second checks =
      if k = 0 then s.bootRails
      else if k = 1 then s.bootImage bad
      else if k = 2 then s.bootClaim
      else if k = 3 then s.bootVault bad
      else if k = 4 then s.bootLoad bad
      else if k = 5 then s.bootTrain bad second
      else if k = 6 then s.bootZero bad second
      else if k = 7 then s.bootPorts
      else if k = 8 then s.bootCal
      else if k = 9 then s.bootCheck checks
      else if k = 10 then s.bootRecords
      else s.bootWindows := by
  have hgo : (s.isOff || (2 < k && s.holder = 0)) = false := by
    by_cases hk : 3 ≤ k
    · simp [ho, hh hk]
    · simp [ho, show ¬ 2 < k by omega]
  unfold State.bootStep
  simp only [hb, hgo, Bool.false_eq_true, if_false]

/-- In Off, and without a leader after step 2, nothing ends. -/
theorem State.bootStep_stands {s : State} {bad second k : Nat} {checks : List ArrCheck} (hb : s.pwr.begun = some k)
    (h : s.isOff = true ∨ (3 ≤ k ∧ s.holder = 0)) : s.bootStep bad second checks = s := by
  unfold State.bootStep
  rcases h with h | ⟨hk, hh⟩
  · simp [hb, h]
  · simp [hb, show 2 < k by omega, hh]

/-- A step that cannot end yet changes nothing. -/
theorem State.bootStep_waits {s : State} {bad second k : Nat} {checks : List ArrCheck} (hb : s.pwr.begun = some k)
    (h : (k = 0 ∧ s.pwr.seq ≠ .idle) ∨ (2 ≤ k ∧ s.holder = 0) ∨
      (k = 8 ∧ s.flag F.MET_RES_VALID 0 = false ∧ s.flag F.MET_STATUS_REFIN_FAULT = false) ∨ s.isOff = true) :
    s.bootStep bad second checks = s := by
  by_cases hstands : s.isOff = true ∨ (3 ≤ k ∧ s.holder = 0)
  · exact State.bootStep_stands hb hstands
  rw [not_or] at hstands
  obtain ⟨hon, hlead⟩ := hstands
  rw [State.bootStep_runs hb (Bool.eq_false_iff.2 hon) fun hk hh => hlead ⟨hk, hh⟩]
  rcases h with ⟨rfl, hseq⟩ | ⟨hk, hh⟩ | ⟨rfl, hv, hf⟩ | hoff
  · exact State.bootRails_waits hseq
  · obtain rfl : k = 2 := by have := fun h => hlead ⟨h, hh⟩; omega
    simp [State.bootClaim, hh]
  · exact State.bootCal_waits hv hf
  · exact absurd hoff hon

section
variable {s : State} {bad second k : Nat} {checks : List ArrCheck} (hb : s.pwr.begun = some k) (ho : s.isOff = false)
  (hh : 3 ≤ k → s.holder ≠ 0)
include hb ho hh

/-- A step that can end does: the ledger gets its entry and the next step begins. -/
theorem State.bootStep_ends (hk : k ≤ 11) (h0 : k = 0 → s.pwr.seq = .idle ∧ ∀ i ∈ raiseOrder, s.fld F.PWR_RAIL_DATA_STATE i = 2)
    (h1 : k = 1 → bad.testBit 2 = false) (h2 : k = 2 → s.holder ≠ 0)
    (h8 : k = 8 → s.flag F.MET_RES_VALID 0 = true ∨ s.flag F.MET_STATUS_REFIN_FAULT = true) :
    s.endsStep (s.bootStep bad second checks) k := by
  rw [State.bootStep_runs hb ho hh]
  match k with
  | 0 => exact State.bootRails_ends (h0 rfl).1 (h0 rfl).2
  | 1 => exact State.bootImage_ends (h1 rfl)
  | 2 => exact State.bootClaim_ends (h2 rfl)
  | 3 => exact s.bootVault_ends bad
  | 4 => exact s.bootLoad_ends bad
  | 5 => exact s.bootTrain_ends bad second
  | 6 => exact (s.bootZero_clears bad second).1
  | 7 => exact s.bootPorts_ends
  | 8 => exact State.bootCal_ends (h8 rfl)
  | 9 => exact s.bootCheck_ends checks
  | 10 => exact s.bootRecords_ends
  | 11 => exact s.bootWindows_ends
  | n + 12 => omega

end

/-- Settles O59: every step ends through `stepDone`, after work that leaves how the steps are done. -/
theorem bootStepsEnd : Obligations.BootStepsEnd := by
  unfold Obligations.BootStepsEnd
  intro s bad second checks hchecks
  have hexec : exec (.bootStepEnd bad second checks) s = .next (s.bootStep bad second checks) := by
    rw [exec_bootStepEnd]
    exact within_next hchecks
  rw [hexec]
  simp only [Outcome.next_inj, exists_eq_left']
  refine ⟨fun k hb hk ho hh h0 h1 h2 h8 => ?_, fun k hb h => State.bootStep_waits hb h, fun hb => ?_, fun hb ho hslot hnone => ?_,
    fun fn hfn hbar => ?_⟩
  · have hruns := State.bootStep_runs (bad := bad) (second := second) (checks := checks) hb ho hh
    obtain ⟨hout, hmode, hnext⟩ := State.bootStep_ends (second := second) (checks := checks) hb ho hh hk h0 h1 h2 h8
    refine ⟨hout, hmode, hnext, ?_, ?_, ?_, ?_, ?_, ?_, ?_, ?_⟩
    · rintro rfl
      rw [hruns]
      exact s.bootWindows_ready
    · rintro rfl
      rw [hruns]
      exact State.bootRails_starts (h0 rfl).1 (h0 rfl).2
    · rintro rfl
      rw [hruns]
      exact State.bootImage_confirmed
    · rintro rfl
      rw [hruns]
      exact s.bootVault_weights bad
    · rintro rfl rfl hle
      rw [hruns]
      exact State.bootLoad_runs hle
    · rintro rfl j hj hcls
      rw [hruns]
      obtain ⟨hgood, hagain, hfailed⟩ := State.bootTrain_trains bad second hj hcls
      exact ⟨hgood, hagain, hfailed⟩
    · rintro rfl
      rw [hruns]
      exact (s.bootZero_clears bad second).2
    · rintro rfl n hn
      rw [hruns]
      exact s.bootPorts_train hn
  · simp [State.bootStep, hb]
  · rw [State.bootStep_runs hb ho (fun h => absurd h (by decide))]
    exact State.bootImage_none hslot hnone
  · rw [exec_clearAlt, within_next (hostPath_ok hfn)]
    simp only [Outcome.next_inj, exists_eq_left']
    refine ⟨fun hrole => ?_, State.clearAltWrite_refused hbar⟩
    rw [State.clearAltWrite_taken hbar hrole]
    exact ⟨rfl, State.stepMode_of_clearAlt rfl⟩

end Sys2Proof.Machine

/-!
PROOFS of the statement on the array product's arithmetic (02_number_formats R65 to R68).
-/

namespace Sys2Proof.Machine

/-! Sums over lists. -/

/-- A fold that adds a figure of each element is the sum of the figures. -/
theorem foldl_add_eq_sum {α M : Type} [AddCommMonoid M] (g : α → M) (l : List α) : l.foldl (fun t a => t + g a) 0 = (l.map g).sum := by
  rw [List.sum_eq_foldl, List.foldl_map]

/-- A sum of at most `n` terms of magnitude up to `m` has magnitude up to n·m. -/
theorem natAbs_sum_map_le {α : Type} {g : α → Int} {l : List α} {n m : Nat} (hn : l.length ≤ n) (h : ∀ a ∈ l, (g a).natAbs ≤ m) :
    (l.map g).sum.natAbs ≤ n * m := by
  refine le_trans ?_ (Nat.mul_le_mul_right m hn)
  clear hn
  induction l with
  | nil => simp
  | cons a l ih =>
    have ha := h a List.mem_cons_self
    have hl := ih fun b hb => h b (List.mem_cons_of_mem a hb)
    rw [List.map_cons, List.sum_cons, List.length_cons, Nat.succ_mul]
    exact (Int.natAbs_add_le _ _).trans (by omega)

/-! What drives a row and what a cell adds (R55, R85). -/

/-- A field of `len` bits lies below 2^len. -/
theorem bitsAt_lt (v lo len : Nat) : bitsAt v lo len < 2 ^ len := Nat.mod_lt _ (Nat.two_pow_pos len)

/-- A plane bit is 0 or 1. -/
theorem planeBit_le (f : Fmt) (v : Int) (p : Nat) : planeBit f v p ≤ 1 := Nat.le_of_lt_succ (bitsAt_lt _ p 1)

/-- A code in a read band has that band's level, at most 3. -/
theorem bandOf_le {c l : Nat} (h : bandOf c = some l) : l ≤ 3 := by
  simp only [bandOf] at h
  split_ifs at h <;> cases h <;> decide

/-- A cell adds at most 3 units. -/
theorem levelOf_le (c : Nat) : levelOf c ≤ 3 := by
  unfold levelOf
  split
  next h => exact bandOf_le h
  next => exact min_le_left _ _

/-- Both cells of a weight hold levels up to 3. -/
theorem ArrSt.levels_le (x : ArrSt) (row c : Nat) : (x.levels row c).1 ≤ 3 ∧ (x.levels row c).2 ≤ 3 := ⟨levelOf_le _, levelOf_le _⟩

/-- The largest magnitude of an element as an integer (Table 2-4, R53). -/
def Fmt.magnitude : Fmt → Nat
  | .int4 => 8
  | .fp4 => 12

/-- The integers among which a format's elements lie. -/
def Fmt.Holds (f : Fmt) (v : Int) : Prop := (f = .int4 → -8 ≤ v ∧ v ≤ 7) ∧ (f = .fp4 → -12 ≤ v ∧ v ≤ 12)

/-- Their magnitudes. -/
theorem Fmt.Holds.natAbs_le {f : Fmt} {v : Int} (h : f.Holds v) : v.natAbs ≤ f.magnitude := by
  obtain ⟨hint, hfp⟩ := h
  cases f with
  | int4 => have := hint rfl; simp only [Fmt.magnitude]; omega
  | fp4 => have := hfp rfl; simp only [Fmt.magnitude]; omega

/-- A row that is not driven stands at 0 in every format. -/
theorem Fmt.holds_zero (f : Fmt) : f.Holds 0 := by constructor <;> omega

/-- No format reaches beyond 12. -/
theorem Fmt.magnitude_le (f : Fmt) : f.magnitude ≤ 12 := by cases f <;> decide

/-- Every code stands for an element of its format. -/
theorem elemInt_holds (f : Fmt) (c : Nat) : f.Holds (elemInt f c) := by
  cases f with
  | int4 =>
    refine ⟨fun _ => ?_, nofun⟩
    simp only [elemInt, toSigned]
    split <;> omega
  | fp4 =>
    have hmag : fp4Mag (c % 8) ≤ 12 := by
      unfold fp4Mag
      split <;> decide
    refine ⟨nofun, fun _ => ?_⟩
    simp only [elemInt]
    split <;> omega

/-! The planes' weighted sum. -/

/-- The sum over a format's planes of the plane's weight times a figure of the plane. -/
def Fmt.weigh (f : Fmt) (a : Nat → Int) : Int := ((planeWeights f).zipIdx.map fun e => e.1 * a e.2).sum

/-- INT4 has four planes, the last of them negative. -/
theorem Fmt.weigh_int4 (a : Nat → Int) : Fmt.int4.weigh a = a 0 + 2 * a 1 + 4 * a 2 - 8 * a 3 := by
  simp [Fmt.weigh, planeWeights]
  ring

/-- FP4 has five planes, the last of them negative. -/
theorem Fmt.weigh_fp4 (a : Nat → Int) : Fmt.fp4.weigh a = a 0 + 2 * a 1 + 4 * a 2 + 8 * a 3 - 16 * a 4 := by
  simp [Fmt.weigh, planeWeights]
  ring

theorem Fmt.weigh_zero (f : Fmt) : f.weigh (fun _ => 0) = 0 := by simp [Fmt.weigh]

theorem Fmt.weigh_add (f : Fmt) (a b : Nat → Int) : f.weigh (fun p => a p + b p) = f.weigh a + f.weigh b := by
  simp [Fmt.weigh, mul_add, List.sum_map_add]

theorem Fmt.weigh_mul (f : Fmt) (a : Nat → Int) (k : Int) : f.weigh (fun p => a p * k) = f.weigh a * k := by
  simp only [Fmt.weigh, ← mul_assoc, List.sum_map_mul_right]

/-- The planes of an element add up to the element: its two's complement image (R55). -/
theorem Fmt.weigh_planeBit {f : Fmt} {v : Int} (h : f.Holds v) : f.weigh (fun p => planeBit f v p) = v := by
  obtain ⟨hint, hfp⟩ := h
  cases f with
  | int4 =>
    have hv := hint rfl
    simp only [Fmt.weigh_int4, planeBit, bitsAt, ofSigned]
    omega
  | fp4 =>
    have hv := hfp rfl
    simp only [Fmt.weigh_fp4, planeBit, bitsAt, ofSigned]
    omega

/-- The plane sum as a sum over planes (R66). -/
theorem planeSum_eq_sum (f : Fmt) (codes : List (Nat × Nat)) :
    planeSum f codes = (((planeWeights f).zip codes).map fun e => e.1 * (4 * (e.2.1 : Int) + (e.2.2 : Int))).sum := by
  simp [planeSum, foldl_add_eq_sum]

/-- The plane sum weighs the high codes four times and the low codes once. -/
theorem planeSum_range (f : Fmt) (a b : Nat → Nat) :
    planeSum f ((List.range (planeWeights f).length).map fun p => (a p, b p)) = 4 * f.weigh (fun p => a p) + f.weigh (fun p => b p) := by
  rw [planeSum_eq_sum]
  cases f <;> simp [planeWeights, Fmt.weigh, List.range_succ] <;> ring

/-- With every code at most 127, the end of the converters' range, a plane sum has magnitude up to 5·(16·635). -/
theorem natAbs_planeSum_le {f : Fmt} {codes : List (Nat × Nat)} (h : ∀ q ∈ codes, q.1 ≤ 127 ∧ q.2 ≤ 127) :
    (planeSum f codes).natAbs ≤ 5 * (16 * 635) := by
  have hlength : (planeWeights f).length ≤ 5 := by cases f <;> decide
  have hweight : ∀ w ∈ planeWeights f, w.natAbs ≤ 16 := by cases f <;> decide
  rw [planeSum_eq_sum]
  refine natAbs_sum_map_le (by rw [List.length_zip]; omega) fun e he => ?_
  obtain ⟨hw, hq⟩ := List.of_mem_zip (a := e.1) (b := e.2) he
  exact (Int.natAbs_mul _ _).trans_le (Nat.mul_le_mul (hweight _ hw) (by have := h _ hq; omega))

/-! The codes of a group (R65). -/

/-- What one conversion senses in the high-cell (`Prod.fst`) or low-cell (`Prod.snd`) column: S^H or S^L. -/
def ArrSt.sensedSum (x : ArrSt) (f : Fmt) (cell : Nat × Nat → Nat) (rows : List (Nat × Int)) (c p : Nat) : Nat :=
  (rows.map fun r => planeBit f r.2 p * cell (x.levels r.1 c)).sum

/-- Over 32 rows it lies in 0 to 96. -/
theorem ArrSt.sensedSum_le (x : ArrSt) (f : Fmt) {cell : Nat × Nat → Nat} {rows : List (Nat × Int)} {c : Nat} (p : Nat)
    (hcell : ∀ row, cell (x.levels row c) ≤ 3) (hlen : rows.length = 32) : x.sensedSum f cell rows c p ≤ 96 := by
  have h := List.sum_le_card_nsmul (rows.map fun r => planeBit f r.2 p * cell (x.levels r.1 c)) 3 fun n hn => by
    obtain ⟨r, -, rfl⟩ := List.mem_map.1 hn
    exact Nat.mul_le_mul (planeBit_le f r.2 p) (hcell r.1)
  rwa [List.length_map, hlen] at h

/-- The planes' weighted sum of what is sensed is the sum of element times level. -/
theorem ArrSt.weigh_sensedSum (x : ArrSt) {f : Fmt} (cell : Nat × Nat → Nat) {rows : List (Nat × Int)} (c : Nat) (h : ∀ r ∈ rows, f.Holds r.2) :
    f.weigh (fun p => (x.sensedSum f cell rows c p : Nat)) = (rows.map fun r => r.2 * (cell (x.levels r.1 c) : Int)).sum := by
  induction rows with
  | nil => exact f.weigh_zero
  | cons r rows ih =>
    have hrow := Fmt.weigh_planeBit (h r List.mem_cons_self)
    have hrest := ih fun q hq => h q (List.mem_cons_of_mem r hq)
    simp only [ArrSt.sensedSum, List.map_cons, List.sum_cons, Nat.cast_add, Nat.cast_mul, Fmt.weigh_add, Fmt.weigh_mul, hrow] at hrest ⊢
    rw [hrest]

/-- The deviations of a plane's two conversions of one group and column. -/
def devOf (f : Fmt) (dev : SMap Int) (gi c p phase : Nat) : Int :=
  SMap.get 0 dev (256 * (4 * ((planeWeights f).length * gi + p) + (2 * (c % 2) + phase)) + c / 2)

/-- A group's codes: what is sensed, through the converters, plane by plane. -/
theorem ArrSt.groupCodes_eq (x : ArrSt) (f : Fmt) (rows : List (Nat × Int)) (dev : SMap Int) (gi c : Nat) :
    x.groupCodes f rows dev gi c = (List.range (planeWeights f).length).map fun p =>
      (convCode (x.sensedSum f Prod.fst rows c p) (devOf f dev gi c p 0), convCode (x.sensedSum f Prod.snd rows c p) (devOf f dev gi c p 1)) := by
  simp only [ArrSt.groupCodes, ArrSt.sensedSum, devOf, foldl_add_eq_sum, List.map_map, Function.comp_def, Nat.add_zero]

/-- A converter's code lies in 0 to 127. -/
theorem convCode_le (sum : Nat) (dev : Int) : convCode sum dev ≤ 127 := by
  simp only [convCode, clampInt]
  split_ifs <;> omega

/-- Without deviation a code in the converter's range equals its sum. -/
theorem convCode_exact {sum : Nat} (h : sum ≤ 127) : convCode sum 0 = sum := by
  simp only [convCode, clampInt]
  split_ifs <;> omega

/-- So every code of a group does, whatever the deviations. -/
theorem ArrSt.groupCodes_le (x : ArrSt) (f : Fmt) (rows : List (Nat × Int)) (dev : SMap Int) (gi c : Nat) :
    ∀ q ∈ x.groupCodes f rows dev gi c, q.1 ≤ 127 ∧ q.2 ≤ 127 := by
  rw [ArrSt.groupCodes_eq]
  intro q hq
  obtain ⟨p, -, rfl⟩ := List.mem_map.1 hq
  exact ⟨convCode_le _ _, convCode_le _ _⟩

/-- Without analogue error each code of 32 rows equals what is sensed (R65). -/
theorem ArrSt.groupCodes_exact (x : ArrSt) (f : Fmt) {rows : List (Nat × Int)} (gi c : Nat) (hlen : rows.length = 32) :
    x.groupCodes f rows [] gi c =
      (List.range (planeWeights f).length).map fun p => (x.sensedSum f Prod.fst rows c p, x.sensedSum f Prod.snd rows c p) := by
  have hdev (p phase : Nat) : devOf f [] gi c p phase = 0 := rfl
  have hhigh (p : Nat) := x.sensedSum_le f p (fun row => (x.levels_le row c).1) hlen
  have hlow (p : Nat) := x.sensedSum_le f p (fun row => (x.levels_le row c).2) hlen
  simp only [ArrSt.groupCodes_eq, hdev, convCode_exact ((hhigh _).trans (by decide)), convCode_exact ((hlow _).trans (by decide))]

/-! The group product (R66, R68). -/

/-- Exact codes give the sum of element times weight, w = 4h + l − 8 (R66). -/
theorem ArrSt.groupProduct_exact (x : ArrSt) {f : Fmt} {rows : List (Nat × Int)} (gi c : Nat) (hlen : rows.length = 32)
    (h : ∀ r ∈ rows, f.Holds r.2) :
    groupProduct (planeSum f (x.groupCodes f rows [] gi c)) (rows.map (·.2)).sum =
      (rows.map fun r => r.2 * (4 * ((x.levels r.1 c).1 : Int) + ((x.levels r.1 c).2 : Int) - 8)).sum := by
  rw [x.groupCodes_exact f gi c hlen, planeSum_range, x.weigh_sensedSum _ c h, x.weigh_sensedSum _ c h, groupProduct, sub_eq_iff_eq_add]
  simp only [← List.sum_map_mul_left, ← List.sum_map_add]
  exact congrArg List.sum (List.map_congr_left fun r _ => by ring)

/-- Its magnitude is at most 32 times the format's magnitude times that of the weight −8 (R68). -/
theorem ArrSt.natAbs_groupProduct_exact_le (x : ArrSt) {f : Fmt} {rows : List (Nat × Int)} (gi c : Nat) (hlen : rows.length = 32)
    (h : ∀ r ∈ rows, f.Holds r.2) :
    (groupProduct (planeSum f (x.groupCodes f rows [] gi c)) (rows.map (·.2)).sum).natAbs ≤ 32 * (f.magnitude * 8) := by
  rw [x.groupProduct_exact gi c hlen h]
  refine natAbs_sum_map_le hlen.le fun r hr => (Int.natAbs_mul _ _).trans_le (Nat.mul_le_mul (h r hr).natAbs_le ?_)
  obtain ⟨hhigh, hlow⟩ := x.levels_le r.1 c
  omega

/-- With any deviations it stays within the ends of the converters' range. -/
theorem ArrSt.natAbs_groupProduct_le (x : ArrSt) {f : Fmt} {rows : List (Nat × Int)} (dev : SMap Int) (gi c : Nat) (hlen : rows.length = 32)
    (h : ∀ r ∈ rows, f.Holds r.2) :
    (groupProduct (planeSum f (x.groupCodes f rows dev gi c)) (rows.map (·.2)).sum).natAbs ≤ 53872 := by
  have hplanes := natAbs_planeSum_le (f := f) (x.groupCodes_le f rows dev gi c)
  have hinputs : (rows.map fun r : Nat × Int => r.2).sum.natAbs ≤ 32 * 12 :=
    natAbs_sum_map_le (l := rows) hlen.le fun r hr => (h r hr).natAbs_le.trans f.magnitude_le
  unfold groupProduct
  omega

/-! The accumulator (R67, R68). -/

/-- A group is driven by 32 rows. -/
theorem ArrSt.groupRows_length (x : ArrSt) (b : InBuf) (k g : Nat) : (x.groupRows b k g).length = 32 := by
  unfold ArrSt.groupRows
  split <;> simp

/-- Each of them by an element of the buffer's format; a mend row that is not driven by 0. -/
theorem ArrSt.groupRows_holds (x : ArrSt) (b : InBuf) (k g : Nat) : ∀ r ∈ x.groupRows b k g, b.fmt.Holds r.2 := by
  intro r hr
  unfold ArrSt.groupRows at hr
  split at hr <;> obtain ⟨i, -, rfl⟩ := List.mem_map.1 hr
  · exact elemInt_holds _ _
  · dsimp only
    split
    · exact elemInt_holds _ _
    · exact b.fmt.holds_zero

/-- The mend group makes 33 groups of 32. -/
theorem ArrSt.sensed_length_le (x : ArrSt) {k : Nat} (hk : k ≤ 32) : (x.sensed k).length ≤ 33 := by
  rw [ArrSt.sensed, List.length_append, List.length_range]
  split <;> simp <;> omega

/-- A listed offset, or the default 0, is at most 7 when every listed one is. -/
theorem getD_offs_le {offs : List Nat} (h : ∀ d ∈ offs, d ≤ 7) (i : Nat) : offs.getD i 0 ≤ 7 := by
  rw [List.getD_eq_getElem?_getD]
  cases hi : offs[i]? with
  | none => exact Nat.zero_le 7
  | some d => exact h d (List.mem_of_getElem? hi)

/-- The shift of a group and column combines 0 to 3 with 0 to 7 (R68). -/
theorem ArrSt.shiftOf_le (x : ArrSt) {b : InBuf} (h : ∀ d ∈ b.offs, d ≤ 7) (g c : Nat) : (x.shiftOf b g c).1 + (x.shiftOf b g c).2 ≤ 3 + 7 := by
  have hfield (v lo : Nat) : bitsAt v lo 2 ≤ 3 := Nat.le_of_lt_succ (bitsAt_lt v lo 2)
  simp only [ArrSt.shiftOf]
  split_ifs
  · exact Nat.add_le_add (hfield _ _) (getD_offs_le h g)
  · exact Nat.add_le_add (hfield _ _) (getD_offs_le h _)
  · exact Nat.zero_le _

/-- What a sensed group adds to a column's accumulator: its group product, shifted (R67). -/
def ArrSt.groupTerm (x : ArrSt) (b : InBuf) (k : Nat) (dev : SMap Int) (c : Nat) (g : Nat × Nat) : Int :=
  2 ^ ((x.shiftOf b g.1 c).1 + (x.shiftOf b g.1 c).2) *
    groupProduct (planeSum b.fmt (x.groupCodes b.fmt (x.groupRows b k g.1) dev g.2 c)) ((x.groupRows b k g.1).map (·.2)).sum

/-- The accumulator is the sum of the groups' terms (R67). -/
theorem ArrSt.columnAcc_fst (x : ArrSt) (b : InBuf) (k : Nat) (dev : SMap Int) (c : Nat) :
    (x.columnAcc b k dev c).1 = ((x.sensed k).zipIdx.map (x.groupTerm b k dev c)).sum := by
  rw [← foldl_add_eq_sum, ArrSt.columnAcc]
  refine (List.foldl_hom Prod.fst fun t g => ?_).symm
  simp only [ArrSt.groupTerm, foldl_add_eq_sum]

/-- A bound `m` of every group product bounds the accumulator by 33·2^10·m. -/
theorem ArrSt.natAbs_columnAcc_le (x : ArrSt) {b : InBuf} {k m : Nat} {dev : SMap Int} (c : Nat) (hk : k ≤ 32) (hoffs : ∀ d ∈ b.offs, d ≤ 7)
    (h : ∀ g gi, (groupProduct (planeSum b.fmt (x.groupCodes b.fmt (x.groupRows b k g) dev gi c)) ((x.groupRows b k g).map (·.2)).sum).natAbs ≤ m) :
    (x.columnAcc b k dev c).1.natAbs ≤ 33 * (2 ^ 10 * m) := by
  rw [x.columnAcc_fst]
  refine natAbs_sum_map_le (by rw [List.length_zipIdx]; exact x.sensed_length_le hk) fun g _ =>
    (Int.natAbs_mul _ _).trans_le (Nat.mul_le_mul ?_ (h g.1 g.2))
  rw [Int.natAbs_pow]
  exact Nat.pow_le_pow_right (by decide) (x.shiftOf_le hoffs g.1 c)

/-- Settles O18: the planes of an element add up to it, so exact codes give Σ x·w; the accumulator is then bounded group by group. -/
theorem productsAreExact : Obligations.ProductsAreExact := by
  unfold Obligations.ProductsAreExact
  refine ⟨fun x f rows gi c hlen hrows => ?_, fun x b k c hk hoffs => ⟨?_, fun dev => ?_⟩⟩
  · have hbound := x.natAbs_groupProduct_exact_le gi c hlen hrows
    refine ⟨?_, fun p q hq => ?_, planeSum_eq_sum f _, rfl, x.groupProduct_exact gi c hlen hrows, ?_, ?_⟩
    · rw [x.groupCodes_eq, List.length_map, List.length_range]
    · rw [x.groupCodes_exact f gi c hlen] at hq
      obtain ⟨hp, rfl⟩ := List.getElem?_eq_some_iff.1 hq
      simp only [List.getElem_map, List.getElem_range]
      exact ⟨rfl, rfl, x.sensedSum_le f p (fun row => (x.levels_le row c).1) hlen, x.sensedSum_le f p (fun row => (x.levels_le row c).2) hlen⟩
    · rintro rfl
      exact hbound
    · rintro rfl
      exact hbound
  · refine x.natAbs_columnAcc_le (m := 3072) c hk hoffs fun g gi => ?_
    refine (x.natAbs_groupProduct_exact_le gi c (x.groupRows_length b k g) (x.groupRows_holds b k g)).trans ?_
    have := b.fmt.magnitude_le
    omega
  · refine (x.natAbs_columnAcc_le (m := 53872) (dev := dev) c hk hoffs fun g gi => ?_).trans_lt (by decide)
    exact x.natAbs_groupProduct_le dev gi c (x.groupRows_length b k g) (x.groupRows_holds b k g)

end Sys2Proof.Machine

/-!
PROOFS of the statements on the compute-in-memory arrays (03_cim_arrays R91 to R115).
-/

namespace Sys2Proof.Machine

/-! VPP_ARR out of regulation (R111). -/

/-- An array once VPP_ARR is out of regulation: the supply-bound command it runs, if any, is to end ABORTED. -/
def ArrSt.vppLost (x : ArrSt) : ArrSt :=
  match x.cmd with
  | some c => if supplyBound c.op then { x with cmd := some { c with abort := true } } else x
  | none => x

theorem ArrSt.vppLost_bound {x : ArrSt} {c : ArrCmd} (h : x.cmd = some c) (hb : supplyBound c.op = true) :
    x.vppLost = { x with cmd := some { c with abort := true } } := by
  simp [ArrSt.vppLost, h, hb]

theorem ArrSt.vppLost_unbound {x : ArrSt} (h : ∀ c, x.cmd = some c → supplyBound c.op = false) : x.vppLost = x := by
  unfold ArrSt.vppLost
  split
  · next c hc => simp [h c hc]
  · rfl

/-- The state once VPP_ARR is out of regulation. -/
def State.vppLost (s : State) : State := { s.setFld F.PWR_STATUS_VPP_ON 0 with arrays := s.arrays.map fun e => (e.1, e.2.vppLost) }

/-- The supply's loss acts on the arrays one by one. -/
theorem exec_vppOutOfRegulation_eq (s : State) : exec .vppOutOfRegulation s = .next s.vppLost := by
  refine congrArg (fun f => Host.Outcome.next { s.setFld F.PWR_STATUS_VPP_ON 0 with arrays := s.arrays.map f }) (funext fun e => ?_)
  unfold ArrSt.vppLost
  cases e.2.cmd with
  | none => rfl
  | some c => dsimp only; split <;> rfl

theorem State.arr_vppLost (s : State) (a : Nat) : s.vppLost.arr a = (s.arr a).vppLost := by
  have hmap : s.vppLost.arrays = s.arrays.map fun e => (e.1, e.2.vppLost) := rfl
  unfold State.arr SMap.get
  rw [hmap, SMap.find?_map (fun e : Nat × ArrSt => (e.1, e.2.vppLost)) fun _ => rfl]
  cases SMap.find? s.arrays a <;> rfl

/-- Settles O11: each array loses the supply by itself, and only a supply-bound command notes it. -/
theorem vppLossAbortsSupplyBoundCommands : Obligations.VppLossAbortsSupplyBoundCommands := by
  unfold Obligations.VppLossAbortsSupplyBoundCommands
  refine fun s => ⟨s.vppLost, exec_vppOutOfRegulation_eq s, State.fld_setFld_same s F.PWR_STATUS_VPP_ON 0 0, fun a c hc hb => ?_, fun a h => ?_,
    fun p hp => ?_, ?_⟩
  · rw [s.arr_vppLost, ArrSt.vppLost_bound hc hb]
  · rw [s.arr_vppLost, ArrSt.vppLost_unbound h]
  · cases p
    case fields => exact absurd (by decide) hp
    case arrays => exact absurd (by decide) hp
    all_goals rfl
  · exact State.onlyFields_same (State.onlyFields_setFld (State.onlyFields_refl s _) (f := F.PWR_STATUS_VPP_ON) (v := 0) (i := 0) (by decide)) rfl

/-! Which array commands are accepted (R107, R110, R111). -/

/-- A command is accepted on an array that is free and in a mode that takes it, with its arguments in range, and with the supply
where it needs it. -/
theorem State.cmdRefusal_none {s : State} {a op : Nat} (hbusy : s.flag F.ARR_STATUS_BUSY a = false) (hfill : s.filling a = false)
    (hspare : s.mode a ≠ modeSpare) (hserve : s.mode a = modeServe → op = 1 ∨ op = 10)
    (hexcl : s.mode a = modeExcluded → op ≠ 2 ∧ (op = 1 → (s.arr a).retired = false)) (hargs : s.argsOk a op = true)
    (hstale : op = 2 → s.flag F.ARR_STATUS_SIDE_STALE a = false)
    (hsupply : supplyBound op = true → s.supplyCount < 64 ∧ s.flag F.PWR_STATUS_VPP_ON = true) : s.cmdRefusal a op = none := by
  have hmode : ¬(s.mode a = modeServe && op != 1 && op != 10) = true := by
    simp only [Bool.and_eq_true, decide_eq_true_eq, bne_iff_ne]
    rintro ⟨⟨h, h1⟩, h10⟩
    exact (hserve h).elim h1 h10
  have hout : ¬(s.mode a = modeExcluded && (op == 2 || (op == 1 && (s.arr a).retired))) = true := by
    simp only [Bool.and_eq_true, Bool.or_eq_true, decide_eq_true_eq, beq_iff_eq]
    rintro ⟨h, h2 | ⟨h1, hr⟩⟩
    · exact (hexcl h).1 h2
    · simp [(hexcl h).2 h1] at hr
  have hside : ¬(op == 2 && s.flag F.ARR_STATUS_SIDE_STALE a) = true := by
    simp only [Bool.and_eq_true, beq_iff_eq]
    rintro ⟨h2, h⟩
    simp [hstale h2] at h
  have hcount : ¬(supplyBound op && decide (64 ≤ s.supplyCount)) = true := by
    simp only [Bool.and_eq_true, decide_eq_true_eq]
    rintro ⟨hb, h⟩
    exact absurd (hsupply hb).1 (Nat.not_lt_of_le h)
  have hvpp : ¬(supplyBound op && !s.flag F.PWR_STATUS_VPP_ON) = true := by
    simp only [Bool.and_eq_true, Bool.not_eq_true']
    rintro ⟨hb, h⟩
    simp [(hsupply hb).2] at h
  unfold State.cmdRefusal
  dsimp only
  rw [if_neg (by simp [hbusy, hfill]), if_neg hspare, if_neg hmode, if_neg hout, if_neg (by simp [hargs]), if_neg hside, if_neg hcount, if_neg hvpp]

/-- An accepted command takes effect; ERASE also begins the passes of refresh anew. -/
theorem State.arrCommand_accepted {s : State} {a op : Nat} (tag : Nat) (h : s.cmdRefusal a op = none) :
    s.arrCommand a op tag = (if op = 3 then s.setArr a { s.arr a with refreshNext := 0 } else s).cmdAccept a op tag := by
  rw [State.arrCommand, h]

/-! Commands that start to run. -/

/-- The data of a command are read through the argument fields, the hampers and the cores. -/
theorem State.cmdData_congr {s u : State} {a : Nat} (op : Nat) (hhaddr : u.fld F.ARR_CMD_ARG1_HADDR a = s.fld F.ARR_CMD_ARG1_HADDR a)
    (hcount : u.fld F.ARR_CMD_ARG0_COUNT a = s.fld F.ARR_CMD_ARG0_COUNT a) (hhamper : u.hamper = s.hamper) (hcores : u.cores = s.cores) :
    u.cmdData a op = s.cmdData a op := by
  have hread : u.hamperRead = s.hamperRead := by
    funext site b n
    simp only [State.hamperRead, State.hamperByte, State.core, hhamper, hcores]
  simp only [State.cmdData, hhaddr, hcount, hread]

/-- What accepting a command may do to the state before the command runs: mark the side store stale, and begin the refresh anew. -/
structure State.readiesCommand (s u : State) (a : Nat) : Prop where
  array : ∃ n, u.arr a = { s.arr a with refreshNext := n }
  others : s.onlyArray u a
  frame : s.onlyIn u [.fields, .vfields, .arrays]
  fields : s.onlyFields u [F.ARR_STATUS_SIDE_STALE]

theorem State.readiesCommand.refl (s : State) (a : Nat) : s.readiesCommand s a :=
  ⟨⟨_, rfl⟩, fun _ _ => rfl, State.onlyIn_refl s _, State.onlyFields_refl s _⟩

/-- A command runs with what stood in the state when it was written. -/
theorem State.cmdRun_starts {s u : State} {a : Nat} (h : s.readiesCommand u a) (op tag : Nat) : s.startsCommand (u.cmdRun a op tag) a op tag := by
  obtain ⟨⟨n, harr⟩, hothers, hframe, hfields⟩ := h
  have hrow := hfields.fld (f := F.ARR_CMD_ARG0_ROW) a (by decide)
  have hcount := hfields.fld (f := F.ARR_CMD_ARG0_COUNT) a (by decide)
  have hhaddr := hfields.fld (f := F.ARR_CMD_ARG1_HADDR) a (by decide)
  have hdata := State.cmdData_congr op hhaddr hcount (hframe .hamper (by decide)) (hframe .cores (by decide))
  have hnow : u.now = s.now := hframe .now (by decide)
  constructor
  case running => simp [State.cmdRun, hrow, hcount, hhaddr, hdata, hnow]
  case busy => simp (disch := decide) [State.cmdRun, State.fld_setFld_of_code]
  case done => simp [State.cmdRun]
  case array => exact ⟨n, by simp [State.cmdRun, harr]⟩
  case others => exact fun b hb => (State.arr_setArr_ne _ _ hb).trans (hothers b hb)
  case frame =>
    exact State.onlyIn_setFld (State.onlyIn_setFld (State.onlyIn_setArr hframe (by decide)) (by decide)) (by decide)
  case fields =>
    refine State.onlyFields_setFld (State.onlyFields_setFld (State.onlyFields_setArr fun k hk => hfields k fun hs => hk ?_) (by decide)) (by decide)
    exact List.mem_of_mem_drop (i := 2) hs

/-- ERASE readies its run: the refresh begins anew and the side store is stale, in the register and in the vault (R110). -/
def State.eraseReadied (s : State) (a : Nat) : State :=
  ((s.setArr a { s.arr a with refreshNext := 0 }).setFld F.ARR_STATUS_SIDE_STALE 1 a).setVfld F.ARR_STATUS_SIDE_STALE 1 a

theorem State.eraseReadied_readies (s : State) (a : Nat) : s.readiesCommand (s.eraseReadied a) a :=
  ⟨⟨0, State.arr_setArr_same ..⟩, fun _ hb => State.arr_setArr_ne _ _ hb,
    State.onlyIn_setVfld (State.onlyIn_setFld (State.onlyIn_setArr (State.onlyIn_refl s _) (by decide)) (by decide)) (by decide),
    State.onlyFields_setVfld (State.onlyFields_setFld (State.onlyFields_setArr (State.onlyFields_refl s _)) (by decide))⟩

theorem State.erase_accepted {s : State} {a : Nat} (tag : Nat) (h : s.cmdRefusal a 3 = none) :
    s.arrCommand a 3 tag = (s.eraseReadied a).cmdRun a 3 tag := State.arrCommand_accepted tag h

/-- Neither the run of a command nor the vault's mark undoes the stale mark. -/
theorem State.erase_marks_stale (s : State) (a tag : Nat) :
    ((s.eraseReadied a).cmdRun a 3 tag).fld F.ARR_STATUS_SIDE_STALE a = 1 ∧ ((s.eraseReadied a).cmdRun a 3 tag).vfld F.ARR_STATUS_SIDE_STALE a = 1 := by
  constructor
  · simp (disch := decide) [State.cmdRun, State.eraseReadied, State.fld_setFld_of_code]
  · simp [State.cmdRun, State.eraseReadied, F.ARR_STATUS_SIDE_STALE]

/-- The commands of Table 3-17 that only run until their end start and leave the vault. -/
theorem State.arrCommand_starts {s : State} {a op : Nat} (tag : Nat) (hop : 4 ≤ op ∧ op ≤ 9) (h : s.cmdRefusal a op = none) :
    s.startsCommand (s.arrCommand a op tag) a op tag ∧ (s.arrCommand a op tag).vfields = s.vfields := by
  have hrun : s.arrCommand a op tag = s.cmdRun a op tag := by
    rw [State.arrCommand_accepted tag h, if_neg (by omega), State.cmdAccept, if_neg (by omega), if_neg (by omega), if_neg (by omega), if_neg (by omega)]
  rw [hrun]
  exact ⟨State.cmdRun_starts (.refl s a) op tag, rfl⟩

/-- Settles O8: nothing refuses the commands in MAINT, and an accepted one runs with what it found. -/
theorem arrayCommandsStart : Obligations.ArrayCommandsStart := by
  unfold Obligations.ArrayCommandsStart
  intro s a tag ha hbusy hfill hmode
  have haccept (op : Nat) (hop : op ≠ 2) (hargs : s.argsOk a op = true)
      (hsupply : supplyBound op = true → s.supplyCount < 64 ∧ s.flag F.PWR_STATUS_VPP_ON = true) : s.cmdRefusal a op = none :=
    State.cmdRefusal_none hbusy hfill (by simp [hmode, modeMaint, modeSpare]) (by simp [hmode, modeMaint, modeServe])
      (by simp [hmode, modeMaint, modeExcluded]) hargs (fun h => absurd h hop) hsupply
  have hnext (t : State) : within (decide (a < arrCount)) t = .next t := within_next (decide_eq_true ha)
  refine ⟨fun hcount hvpp => ⟨⟨_, hnext _, ?_⟩, fun hargs => ⟨_, hnext _, ?_⟩, fun hargs => ⟨_, hnext _, ?_⟩⟩,
    fun hargs => ⟨_, hnext _, ?_⟩, ⟨_, hnext _, ?_⟩, ⟨_, hnext _, ?_⟩, fun hargs => ⟨_, hnext _, ?_⟩⟩
  · rw [State.erase_accepted tag (haccept 3 (by decide) rfl fun _ => ⟨hcount, hvpp⟩)]
    exact ⟨State.cmdRun_starts (s.eraseReadied_readies a) 3 tag, s.erase_marks_stale a tag⟩
  · exact State.arrCommand_starts tag (by decide) (haccept 4 (by decide) hargs fun _ => ⟨hcount, hvpp⟩)
  · exact State.arrCommand_starts tag (by decide) (haccept 5 (by decide) hargs fun _ => ⟨hcount, hvpp⟩)
  · exact State.arrCommand_starts tag (by decide) (haccept 6 (by decide) hargs fun h => absurd h (by decide))
  · exact State.arrCommand_starts tag (by decide) (haccept 7 (by decide) rfl fun h => absurd h (by decide))
  · exact State.arrCommand_starts tag (by decide) (haccept 8 (by decide) rfl fun h => absurd h (by decide))
  · exact State.arrCommand_starts tag (by decide) (haccept 9 (by decide) hargs fun h => absurd h (by decide))

/-! Mode commands (R105, Table 3-9). -/

/-- A mode command that takes effect: the array takes the mode, and the command ends with OK. -/
theorem State.modeChange_ends (s : State) (a op tag m : Nat) (hm : m < 4) :
    let t := (s.setFld F.ARR_STATUS_MODE m a).cmdFinish a op tag 0
    t.mode a = m ∧ s.endsCommand t a op tag 0 := by
  intro t
  obtain ⟨hends, hfields, -, -, -⟩ := (s.setFld F.ARR_STATUS_MODE m a).cmdFinish_effect a op tag 0 false (by decide)
  refine ⟨?_, State.endsCommand_after hends (fun _ _ => rfl) ⟨rfl, rfl, rfl⟩⟩
  rw [State.mode, hfields.fld _ (by decide), State.fld_setFld_same]
  exact Nat.mod_eq_of_lt hm

section
variable {s : State} {a : Nat} (tag : Nat)

theorem State.enterMaint_accepted (hprod : (s.arr a).prod = none) (h : s.cmdRefusal a 1 = none) :
    s.arrCommand a 1 tag = (s.setFld F.ARR_STATUS_MODE modeMaint a).cmdFinish a 1 tag 0 := by
  simp [State.arrCommand_accepted tag h, State.cmdAccept, hprod]

theorem State.leaveMaint_accepted (h : s.cmdRefusal a 2 = none) :
    s.arrCommand a 2 tag = (s.setFld F.ARR_STATUS_MODE modeServe a).cmdFinish a 2 tag 0 := State.arrCommand_accepted tag h

theorem State.exclude_accepted (hprod : (s.arr a).prod = none) (h : s.cmdRefusal a 10 = none) :
    s.arrCommand a 10 tag = (s.setFld F.ARR_STATUS_MODE modeExcluded a).cmdFinish a 10 tag 0 := by
  simp [State.arrCommand_accepted tag h, State.cmdAccept, hprod]

end

/-- Settles O9: with no product running an accepted mode command changes the mode and ends. -/
theorem arrayModeCommandsTakeEffect : Obligations.ArrayModeCommandsTakeEffect := by
  unfold Obligations.ArrayModeCommandsTakeEffect
  intro s a tag ha hbusy hfill hprod
  have hnext (t : State) : within (decide (a < arrCount)) t = .next t := within_next (decide_eq_true ha)
  refine ⟨fun hmode => ⟨_, hnext _, ?_⟩, fun hmode hstale => ⟨_, hnext _, ?_⟩, fun hmode => ⟨_, hnext _, ?_⟩⟩
  · have hretired (hx : s.mode a = modeExcluded) : (s.arr a).retired = false := by
      rcases hmode with h | h | ⟨-, h⟩
      · exact absurd (h.symm.trans hx) (by decide)
      · exact absurd (h.symm.trans hx) (by decide)
      · exact h
    have haccept : s.cmdRefusal a 1 = none := State.cmdRefusal_none hbusy hfill (by rcases hmode with h | h | ⟨h, -⟩ <;> rw [h] <;> decide)
      (fun _ => .inl rfl) (fun hx => ⟨by decide, fun _ => hretired hx⟩) rfl (fun h => absurd h (by decide)) (fun h => absurd h (by decide))
    rw [State.enterMaint_accepted tag hprod haccept]
    exact s.modeChange_ends a 1 tag modeMaint (by decide)
  · have haccept : s.cmdRefusal a 2 = none := State.cmdRefusal_none hbusy hfill (by rw [hmode]; decide)
      (fun h => absurd (hmode.symm.trans h) (by decide)) (fun h => absurd (hmode.symm.trans h) (by decide)) rfl (fun _ => hstale)
      (fun h => absurd h (by decide))
    rw [State.leaveMaint_accepted tag haccept]
    exact s.modeChange_ends a 2 tag modeServe (by decide)
  · have haccept : s.cmdRefusal a 10 = none := State.cmdRefusal_none hbusy hfill
      (by rcases hmode with h | h | h <;> rw [h] <;> decide) (fun _ => .inr rfl) (fun _ => ⟨by decide, fun h => absurd h (by decide)⟩)
      rfl (fun h => absurd h (by decide)) (fun h => absurd h (by decide))
    rw [State.exclude_accepted tag hprod haccept]
    exact s.modeChange_ends a 10 tag modeExcluded (by decide)

/-! The end of an array command (R108 to R115). -/

/-- Codes that have drifted leave the side store. -/
theorem ArrSt.drifted_side (x : ArrSt) (reads : List (Nat × Nat)) :
    (x.drifted reads).side0 = x.side0 ∧ (x.drifted reads).side1 = x.side1 ∧ (x.drifted reads).sideSel = x.sideSel := by
  have hside : ((x.drifted reads).side0, (x.drifted reads).side1, (x.drifted reads).sideSel) = (x.side0, x.side1, x.sideSel) :=
    foldl_same (fun x : ArrSt => (x.side0, x.side1, x.sideSel)) (fun x r => by unfold ArrSt.setCode; split <;> rfl) reads x
  simpa using hside

/-- What every turn of a fold leaves of the components, the fold leaves. -/
theorem State.onlyIn_foldl {α : Type} {ps : List Part} {f : State → α → State} (hf : ∀ (t : State) x, t.onlyIn (f t x) ps) (l : List α) (s : State) :
    s.onlyIn (l.foldl f s) ps := by
  induction l generalizing s with
  | nil => exact State.onlyIn_refl s ps
  | cons x l ih => exact State.onlyIn_trans (hf s x) (ih (f s x))

/-- What every turn of a fold leaves of the register fields, the fold leaves. -/
theorem State.onlyFields_foldl {α : Type} {fs : List Fld} {f : State → α → State} (hf : ∀ (t : State) x, t.onlyFields (f t x) fs) (l : List α)
    (s : State) : s.onlyFields (l.foldl f s) fs := by
  induction l generalizing s with
  | nil => exact State.onlyFields_refl s fs
  | cons x l ih => exact State.onlyFields_trans (hf s x) (ih (f s x))

/-- The fields that mirror the side store's copy in use (Table 3-13, Table 3-22). -/
def mirrorFlds : List Fld := [F.ARR_MENDROW_VALID, F.ARR_MENDROW_BAD, F.ARR_MENDROW_SRC, F.ARR_STATUS_MEND_FREE, F.ARR_STATUS_MEND_USED]

theorem State.onlyIn_mirrorSide (s : State) (a : Nat) : s.onlyIn (s.mirrorSide a) [.fields] := by
  unfold State.mirrorSide
  refine State.onlyIn_setFlag (State.onlyIn_setFld (State.onlyIn_foldl (fun t r => ?_) _ s) (by decide)) (by decide)
  exact State.onlyIn_setFld (State.onlyIn_setFlag (State.onlyIn_setFlag (State.onlyIn_refl t _) (by decide)) (by decide)) (by decide)

theorem State.onlyFields_mirrorSide (s : State) (a : Nat) : s.onlyFields (s.mirrorSide a) mirrorFlds := by
  unfold State.mirrorSide
  refine State.onlyFields_setFlag (State.onlyFields_setFld (State.onlyFields_foldl (fun t r => ?_) _ s) (by decide)) (by decide)
  exact State.onlyFields_setFld (State.onlyFields_setFlag (State.onlyFields_setFlag (State.onlyFields_refl t _) (by decide)) (by decide)) (by decide)

/-- The fields that the end of a command writes, whichever command it is (R107). -/
def finishFlds : List Fld :=
  [F.ARR_CMD_STAT_RESULT, F.ARR_CMD_STAT_OP, F.ARR_CMD_STAT_TAG, F.ARR_CMD_STAT_OVERFLOW, F.ARR_CMD_STAT_DONE, F.ARR_STATUS_BUSY, F.INTC_PEND,
    F.INTC_MERGECNT]

/-- What a command that ends may do to the state before it shows its end: change its own array, the registers and the vault. -/
structure State.worksOn (s u : State) (a : Nat) : Prop where
  weights : u.wgt = s.wgt
  others : s.onlyArray u a
  memory : u.hamper = s.hamper ∧ u.dram = s.dram ∧ u.cores = s.cores

/-- No relay session is RECEIVING, no plan waits and no array is being programmed. -/
structure State.noProgramming (s : State) : Prop where
  jobs : s.wgt.jobs = []
  due : s.wgt.planDue = none
  st : s.wgt.st ≠ 3

/-- While no programming uses the array, ARRAY_COMMAND_END of a command other than REFRESH_ROWS is the array's own part, but for
what the weights note. -/
theorem State.commandEnd_quiet {s : State} {a : Nat} {c : ArrCmd} (reads finals : List (Nat × Nat)) (sweep : List Nat)
    (hcmd : (s.arr a).cmd = some c) (hop : c.op ≠ 1 ∧ c.op ≠ 5 ∧ c.op ≠ 10) (hq : s.noProgramming)
    (hw : (s.arrCommandEnd a c reads finals sweep).wgt = s.wgt) :
    ∃ w, s.commandEnd a reads finals sweep = { s.arrCommandEnd a c reads finals sweep with wgt := w } := by
  obtain ⟨h1, h5, h10⟩ := hop
  obtain ⟨hjobs, hdue, hst⟩ := hq
  obtain ⟨w, hquiet⟩ := State.weights_quiet (s.arrCommandEnd a c reads finals sweep) (by rw [hw, hjobs]) (by rw [hw, hdue]) (by rwa [hw])
  refine ⟨w, ?_⟩
  rw [← hquiet]
  simp [State.commandEnd, hcmd, h1, h5, h10, hw, hjobs]

/-- A command whose work is done ends with OK, and leaves what the work left. -/
theorem State.commandEnd_finishes {s u : State} {a : Nat} {c : ArrCmd} {reads finals : List (Nat × Nat)} {sweep : List Nat} (ha : a < 20480)
    (hcmd : (s.arr a).cmd = some c) (hop : c.op ≠ 1 ∧ c.op ≠ 5 ∧ c.op ≠ 10) (hq : s.noProgramming) (hu : s.worksOn u a)
    (hend : s.arrCommandEnd a c reads finals sweep = u.cmdFinish a c.op c.tag 0) :
    ∃ t, exec (.arrayCommandEnd a reads finals sweep) s = .next t ∧ s.endsCommand t a c.op c.tag 0 ∧ t.arr a = { u.arr a with cmd := none } ∧
      (∀ f i, f.code % 1024 ∉ finishFlds.map (·.code) → t.fld f i = u.fld f i) ∧ ∀ f i, t.vfld f i = u.vfld f i := by
  obtain ⟨hends, hfields, hwgt, hvault, harr⟩ := u.cmdFinish_effect a c.op c.tag 0 false (by decide)
  rw [← hend] at hends hfields hwgt hvault harr
  obtain ⟨w, ht⟩ := State.commandEnd_quiet reads finals sweep hcmd hop hq (hwgt.trans hu.weights)
  refine ⟨_, within_next (decide_eq_true ha), ?_⟩
  rw [ht]
  exact ⟨State.endsCommand_wgt (State.endsCommand_after hends hu.others hu.memory) rfl, harr, fun f i hf => hfields.fld i hf,
    fun f i => congrArg (fun v => SMap.get 0 v (f.key i)) hvault⟩

/-- The work of ERASE (R110): every data and mend cell at code 0, one cycle more, in the vault as well. -/
def State.eraseDone (s : State) (a : Nat) (reads : List (Nat × Nat)) : State :=
  let t := (s.setArr a { (s.arr a).drifted reads with cells := [] }).count F.ARR_CYCLES_COUNT 1 a
  let t := t.setVfld F.ARR_CYCLES_COUNT (t.fld F.ARR_CYCLES_COUNT a) a
  t.setFlag F.ARR_STATUS_WORN (decide (10000 ≤ t.fld F.ARR_CYCLES_COUNT a)) a

/-- The work of LEVEL_CHECK (R113): the counts and their class. -/
def State.levelsNoted (s : State) (a : Nat) (x : ArrSt) : State :=
  let n := x.levelCounts
  let t := (s.setArr a x).setFld F.ARR_LEVELS_A_L0 (n.getD 0 0) a
  let t := (t.setFld F.ARR_LEVELS_A_L1 (n.getD 1 0) a).setFld F.ARR_LEVELS_B_L2 (n.getD 2 0) a
  let t := (t.setFld F.ARR_LEVELS_B_L3 (n.getD 3 0) a).setFld F.ARR_LEVELS_C_GAP (n.getD 4 0) a
  t.setFld F.ARR_LEVELS_C_CLASS (levelClass n) a

/-- The side store with a block in the copy that was not in use (R115). -/
def ArrSt.withBlock (x : ArrSt) (b : Bytes) : ArrSt :=
  if x.sideSel = 0 then { x with side1 := b, sideSel := 1 } else { x with side0 := b, sideSel := 0 }

/-- The work of WRITE_SIDE (R115). -/
def State.sideWritten (s : State) (a : Nat) (y : ArrSt) : State :=
  (((s.setArr a y).setFld F.ARR_STATUS_SIDE_STALE 0 a).setVfld F.ARR_STATUS_SIDE_STALE 0 a).mirrorSide a

/-- An array set, with any register fields and vault values, is work on that array. -/
theorem State.worksOn_setArr (s : State) (a : Nat) (x : ArrSt) : s.worksOn (s.setArr a x) a :=
  ⟨rfl, fun _ hb => State.arr_setArr_ne s x hb, rfl, rfl, rfl⟩

theorem State.worksOn.regs {s t u : State} {a : Nat} (h : s.worksOn t a) (hu : t.onlyIn u [.fields, .vfields]) : s.worksOn u a := by
  obtain ⟨hw, ho, hh, hd, hc⟩ := h
  exact ⟨(hu .wgt (by decide)).trans hw, fun b hb => (State.arr_of_arrays (hu .arrays (by decide))).trans (ho b hb),
    (hu .hamper (by decide)).trans hh, (hu .dram (by decide)).trans hd, (hu .cores (by decide)).trans hc⟩

theorem State.eraseDone_worksOn (s : State) (a : Nat) (reads : List (Nat × Nat)) : s.worksOn (s.eraseDone a reads) a :=
  (s.worksOn_setArr a _).regs (State.onlyIn_setFlag (State.onlyIn_setVfld (State.onlyIn_count (State.onlyIn_refl _ _) (by decide)) (by decide)) (by decide))

theorem State.levelsNoted_worksOn (s : State) (a : Nat) (x : ArrSt) : s.worksOn (s.levelsNoted a x) a := by
  refine (s.worksOn_setArr a x).regs (State.onlyIn_setFld (State.onlyIn_setFld (State.onlyIn_setFld (State.onlyIn_setFld (State.onlyIn_setFld
    (State.onlyIn_setFld (State.onlyIn_refl _ _) ?_) ?_) ?_) ?_) ?_) ?_)
  all_goals decide

theorem State.sideWritten_arr (s : State) (a : Nat) (y : ArrSt) : (s.sideWritten a y).arr a = y :=
  (State.arr_of_arrays (State.onlyIn_mirrorSide _ a .arrays (by decide))).trans (State.arr_setArr_same s a y)

theorem State.sideWritten_worksOn (s : State) (a : Nat) (y : ArrSt) : s.worksOn (s.sideWritten a y) a := by
  refine (s.worksOn_setArr a y).regs (State.onlyIn_trans (t := ((s.setArr a y).setFld F.ARR_STATUS_SIDE_STALE 0 a).setVfld F.ARR_STATUS_SIDE_STALE 0 a) ?_
    (State.onlyIn_mono (State.onlyIn_mirrorSide _ a) (by decide)))
  exact State.onlyIn_setVfld (State.onlyIn_setFld (State.onlyIn_refl _ _) (by decide)) (by decide)

/-- The stale mark is clear. -/
theorem State.sideWritten_stale (s : State) (a : Nat) (y : ArrSt) : (s.sideWritten a y).fld F.ARR_STATUS_SIDE_STALE a = 0 := by
  rw [State.sideWritten, (State.onlyFields_mirrorSide _ a).fld _ (by decide), State.fld_setVfld, State.fld_setFld_same]
  rfl

/-- ERASE leaves one cycle more in the register, saturating, and the same in the vault. -/
theorem State.eraseDone_cycles (s : State) (a : Nat) (reads : List (Nat × Nat)) :
    (s.eraseDone a reads).fld F.ARR_CYCLES_COUNT a = min (s.fld F.ARR_CYCLES_COUNT a + 1) 65535 ∧
      (s.eraseDone a reads).vfld F.ARR_CYCLES_COUNT a = min (s.fld F.ARR_CYCLES_COUNT a + 1) 65535 := by
  have hcut : min (s.fld F.ARR_CYCLES_COUNT a + 1) 65535 % 2 ^ F.ARR_CYCLES_COUNT.width = min (s.fld F.ARR_CYCLES_COUNT a + 1) 65535 :=
    Nat.mod_eq_of_lt (Nat.lt_succ_of_le (Nat.min_le_right _ 65535))
  have hcount : ((s.setArr a { (s.arr a).drifted reads with cells := [] }).count F.ARR_CYCLES_COUNT 1 a).fld F.ARR_CYCLES_COUNT a =
      min (s.fld F.ARR_CYCLES_COUNT a + 1) 65535 := State.fld_count_same ..
  constructor
  · rw [State.eraseDone, State.fld_setFlag_of_code _ _ _ _ _ _ (by decide) (by decide) (by decide), State.fld_setVfld, hcount]
  · rw [State.eraseDone, State.vfld_setFlag, State.vfld_setVfld_same, hcount, hcut]

section
variable {s : State} {a : Nat} {c : ArrCmd} (reads finals : List (Nat × Nat)) (sweep : List Nat)

theorem State.arrCommandEnd_erase (hop : c.op = 3) (habort : c.abort = false) :
    s.arrCommandEnd a c reads finals sweep = (s.eraseDone a reads).cmdFinish a c.op c.tag 0 := by
  simp [State.arrCommandEnd, hop, habort, State.eraseDone]

theorem State.arrCommandEnd_verifyRow (hop : c.op = 6) :
    s.arrCommandEnd a c reads finals sweep = (s.setArr a { (s.arr a).drifted reads with
      verify := (List.range 1024).map fun col => ((s.arr a).drifted reads).code c.row col }).cmdFinish a c.op c.tag 0 := by
  simp [State.arrCommandEnd, hop]

theorem State.arrCommandEnd_levelCheck (hop : c.op = 7) :
    s.arrCommandEnd a c reads finals sweep = (s.levelsNoted a ((s.arr a).drifted reads)).cmdFinish a c.op c.tag 0 := by
  simp [State.arrCommandEnd, hop, State.levelsNoted]

theorem State.arrCommandEnd_refSweep (hop : c.op = 8) :
    s.arrCommandEnd a c reads finals sweep = (s.setArr a { (s.arr a).drifted reads with
      sweep := sweep, sweepFail := sweepFails sweep }).cmdFinish a c.op c.tag 0 := by
  simp [State.arrCommandEnd, hop]

theorem State.arrCommandEnd_writeSide (hop : c.op = 9) :
    s.arrCommandEnd a c reads finals sweep = (s.sideWritten a (((s.arr a).drifted reads).withBlock c.data)).cmdFinish a c.op c.tag 0 := by
  simp [State.arrCommandEnd, hop, State.sideWritten, ArrSt.withBlock]

end

/-- Settles O10: each command does its work on its own array, and then ends with OK while the weights stand. -/
theorem arrayCommandsEnd : Obligations.ArrayCommandsEnd := by
  unfold Obligations.ArrayCommandsEnd
  intro s a reads finals sweep c ha hcmd habort hjobs hdue hst
  obtain ⟨hside0, hside1, hsel⟩ := (s.arr a).drifted_side reads
  have hfin {u : State} (hkind : c.op ≠ 1 ∧ c.op ≠ 5 ∧ c.op ≠ 10) (hu : s.worksOn u a)
      (hend : s.arrCommandEnd a c reads finals sweep = u.cmdFinish a c.op c.tag 0) :=
    State.commandEnd_finishes ha hcmd hkind ⟨hjobs, hdue, hst⟩ hu hend
  refine ⟨fun hop => ?_, fun hop => ?_, fun hop => ?_, fun hop => ?_, fun hop => ?_⟩
  · obtain ⟨t, ht, hends, harr, hfld, hvfld⟩ := hfin (by omega) (s.eraseDone_worksOn a reads) (State.arrCommandEnd_erase reads finals sweep hop habort)
    obtain ⟨hcycles, hvault⟩ := s.eraseDone_cycles a reads
    have hwork : (s.eraseDone a reads).arr a = { (s.arr a).drifted reads with cells := [] } := State.arr_setArr_same ..
    rw [hwork] at harr
    refine ⟨t, ht, hop ▸ hends, fun row col hrow => ?_, ?_, ?_, ?_, ?_, ?_⟩
    · rw [harr, ArrSt.code, if_pos hrow]; rfl
    · rw [harr]; exact hside0
    · rw [harr]; exact hside1
    · rw [harr]; exact hsel
    · rw [hfld _ _ (by decide), hcycles]; omega
    · rw [hvfld, hfld _ _ (by decide), hcycles, hvault]
  · obtain ⟨t, ht, hends, harr, -, -⟩ := hfin (by omega) (s.worksOn_setArr a _) (State.arrCommandEnd_verifyRow reads finals sweep hop)
    exact ⟨t, ht, hop ▸ hends, by rw [harr, State.arr_setArr_same]⟩
  · obtain ⟨t, ht, hends, -, hfld, -⟩ := hfin (by omega) (s.levelsNoted_worksOn a _) (State.arrCommandEnd_levelCheck reads finals sweep hop)
    refine ⟨t, ht, hop ▸ hends, ?_⟩
    rw [hfld _ _ (by decide), State.levelsNoted, State.fld_setFld_same]
    rfl
  · obtain ⟨t, ht, hends, harr, -, -⟩ := hfin (by omega) (s.worksOn_setArr a _) (State.arrCommandEnd_refSweep reads finals sweep hop)
    exact ⟨t, ht, hop ▸ hends, by rw [harr, State.arr_setArr_same], by rw [harr, State.arr_setArr_same]⟩
  · obtain ⟨t, ht, hends, harr, hfld, -⟩ := hfin (by omega) (s.sideWritten_worksOn a _) (State.arrCommandEnd_writeSide reads finals sweep hop)
    refine ⟨t, ht, hop ▸ hends, by rw [hfld _ _ (by decide), State.sideWritten_stale], ?_⟩
    rw [harr, State.sideWritten_arr, ArrSt.withBlock, hsel]
    split
    · exact ⟨rfl, rfl, hside0⟩
    · exact ⟨rfl, rfl, hside1⟩

/-! What follows a product's end leaves what the product left (R91 to R94, R104, R158). -/

/-- `t` differs from `u` in nothing that the end of array `a`'s product on the core at `site` is about: its output banks and PRODUCT,
the other arrays, both memories, and the queues and the taster's choice of the leg that runs. -/
structure State.keepsProduct (u t : State) (a site : Nat) : Prop where
  product : (t.arr a).prod = (u.arr a).prod
  banks : (t.arr a).outBank = (u.arr a).outBank
  running : t.fld F.ARR_STATUS_PRODUCT a = u.fld F.ARR_STATUS_PRODUCT a
  others : u.onlyArray t a
  memory : t.hamper = u.hamper ∧ t.dram = u.dram
  leg : ∀ r', (t.core site).run = some r' → ∃ r, (u.core site).run = some r ∧ r'.queued = r.queued ∧ r'.taste = r.taste

section
variable {u t v : State} {a site : Nat}

theorem State.keepsProduct.refl (u : State) (a site : Nat) : u.keepsProduct u a site :=
  ⟨rfl, rfl, rfl, fun _ _ => rfl, ⟨rfl, rfl⟩, fun r h => ⟨r, h, rfl, rfl⟩⟩

theorem State.keepsProduct.trans (h : u.keepsProduct t a site) (h' : t.keepsProduct v a site) : u.keepsProduct v a site := by
  refine ⟨h'.product.trans h.product, h'.banks.trans h.banks, h'.running.trans h.running, fun b hb => (h'.others b hb).trans (h.others b hb),
    ⟨h'.memory.1.trans h.memory.1, h'.memory.2.trans h.memory.2⟩, fun r'' hr'' => ?_⟩
  obtain ⟨r', hr', hq', ht'⟩ := h'.leg r'' hr''
  obtain ⟨r, hr, hq, ht⟩ := h.leg r' hr'
  exact ⟨r, hr, hq'.trans hq, ht'.trans ht⟩

/-- An update of the registers but PRODUCT, and of components beside the arrays, the cores and both memories. -/
theorem State.keepsProduct.regs (h : u.keepsProduct t a site) (harrays : v.arrays = t.arrays) (hcores : v.cores = t.cores)
    (hhamper : v.hamper = t.hamper) (hdram : v.dram = t.dram) (hfld : v.fld F.ARR_STATUS_PRODUCT a = t.fld F.ARR_STATUS_PRODUCT a) :
    u.keepsProduct v a site := by
  have harr (b : Nat) : v.arr b = t.arr b := State.arr_of_arrays harrays
  refine h.trans ⟨by rw [harr], by rw [harr], hfld, fun b _ => harr b, ⟨hhamper, hdram⟩, fun r hr => ⟨r, ?_, rfl, rfl⟩⟩
  rwa [State.core, hcores] at hr

theorem State.keepsProduct.setFld (h : u.keepsProduct t a site) {f : Fld} {w i : Nat} (hf : f.code < 1024) (hne : F.ARR_STATUS_PRODUCT.code ≠ f.code) :
    u.keepsProduct (t.setFld f w i) a site := h.regs rfl rfl rfl rfl (t.fld_setFld_of_code _ _ _ _ _ hf (by decide) hne)

theorem State.keepsProduct.count (h : u.keepsProduct t a site) {f : Fld} {n i : Nat} (hf : f.code < 1024) (hne : F.ARR_STATUS_PRODUCT.code ≠ f.code) :
    u.keepsProduct (t.count f n i) a site := h.setFld hf hne

/-- An update of the array beside its product and its output banks. -/
theorem State.keepsProduct.setArr (h : u.keepsProduct t a site) {x : ArrSt} (hprod : x.prod = (t.arr a).prod) (hbanks : x.outBank = (t.arr a).outBank) :
    u.keepsProduct (t.setArr a x) a site :=
  h.trans ⟨by rw [State.arr_setArr_same, hprod], by rw [State.arr_setArr_same, hbanks], rfl, fun _ hb => State.arr_setArr_ne _ _ hb, ⟨rfl, rfl⟩,
    fun r hr => ⟨r, hr, rfl, rfl⟩⟩

/-- An update of the core beside the queues and the taster's choice of its leg. -/
theorem State.keepsProduct.setCore (h : u.keepsProduct t a site) {c : CoreSt}
    (hc : ∀ r', c.run = some r' → ∃ r, (t.core site).run = some r ∧ r'.queued = r.queued ∧ r'.taste = r.taste) :
    u.keepsProduct (t.setCore site c) a site :=
  h.trans ⟨rfl, rfl, rfl, fun _ _ => rfl, ⟨rfl, rfl⟩, fun r' hr' => hc r' (by rwa [State.core_setCore_same] at hr')⟩

/-- A change of the leg that runs beside its queues and the taster's choice. -/
theorem State.keepsProduct.onRun (h : u.keepsProduct t a site) {g : LegRun → LegRun} (hg : ∀ r, (g r).queued = r.queued ∧ (g r).taste = r.taste) :
    u.keepsProduct (t.onRun site g) a site := by
  unfold State.onRun
  split
  · next r hr =>
    refine h.setCore fun r' hr' => ⟨r, hr, ?_⟩
    cases hr'
    exact hg r
  · exact h

theorem State.keepsProduct.markDone (h : u.keepsProduct t a site) (q : OpKind → Bool) : u.keepsProduct (t.markDone site q) a site :=
  h.onRun fun _ => ⟨rfl, rfl⟩

/-- Trims take effect beside the product. -/
theorem State.keepsProduct.applyTrims (h : u.keepsProduct t a site) : u.keepsProduct (t.applyTrims a) a site := by
  unfold State.applyTrims
  extract_lets x t1 t2
  have h1 : u.keepsProduct t1 a site := by
    simp only [t1]
    split
    · exact (h.setFld (by decide) (by decide)).setFld (by decide) (by decide)
    · exact h
  have h2 : u.keepsProduct t2 a site := by
    simp only [t2]
    split
    · exact (h1.setFld (by decide) (by decide)).setFld (by decide) (by decide)
    · exact h1
  exact h2.setArr rfl rfl

/-- The end of a command leaves the product and the banks. -/
theorem State.keepsProduct.cmdFinish (h : u.keepsProduct t a site) (op tag : Nat) : u.keepsProduct (t.cmdFinish a op tag 0) a site := by
  obtain ⟨hends, hfields, -, -, harr⟩ := t.cmdFinish_effect a op tag 0 false (by decide)
  obtain ⟨hhamper, hdram, hcores⟩ := hends.memory
  refine h.trans ⟨by rw [harr], by rw [harr]; rfl, hfields.fld _ (by decide), hends.others, ⟨hhamper, hdram⟩, fun r hr => ⟨r, ?_, rfl, rfl⟩⟩
  rwa [State.core, hcores] at hr

/-- A mode command that waited takes effect beside the product. -/
theorem State.keepsProduct.modeAfterProduct (h : u.keepsProduct t a site) : u.keepsProduct (t.modeAfterProduct a) a site := by
  unfold State.modeAfterProduct
  split
  · split
    · exact (h.setFld (by decide) (by decide)).cmdFinish _ _
    · split
      · exact (h.setFld (by decide) (by decide)).cmdFinish _ _
      · exact h
  · exact h

theorem State.keepsProduct.unitError (h : u.keepsProduct t a site) (kind index cause n : Nat) : u.keepsProduct (t.unitError kind index cause n) a site := by
  unfold State.unitError
  split
  · exact h
  · exact h.regs rfl rfl rfl rfl rfl

/-- A suspect mark changes the leg's causes alone. -/
theorem State.keepsProduct.markSuspect (h : u.keepsProduct t a site) (bit : Nat) : u.keepsProduct (t.markSuspect site bit) a site := by
  unfold State.markSuspect
  extract_lets c
  split
  · exact h
  · next r hr =>
    extract_lets first cause r' t1 t2 t3 core t4
    have h1 : u.keepsProduct t1 a site := h.setCore fun q hq => ⟨r, hr, by cases hq; exact ⟨rfl, rfl⟩⟩
    have h2 : u.keepsProduct t2 a site := by
      simp only [t2]
      split
      · exact h1
      · exact (h1.setFld (by decide) (by decide)).setFld (by decide) (by decide)
    have h3 : u.keepsProduct t3 a site := by
      simp only [t3]
      split
      · exact h2
      · exact h2.setFld (by decide) (by decide)
    split
    · exact (h3.count (f := F.CORE_SUSPCNT) (n := 1) (i := site) (by decide) (by decide)).regs rfl rfl rfl rfl rfl
    · exact h3

theorem State.keepsProduct.foldl {α : Type} {f : State → α → State} (hf : ∀ t x, u.keepsProduct t a site → u.keepsProduct (f t x) a site)
    (l : List α) (h : u.keepsProduct t a site) : u.keepsProduct (l.foldl f t) a site := by
  induction l generalizing t with
  | nil => exact h
  | cons x l ih => exact ih (hf t x h)

/-- The range monitors change what they count and may mark the leg suspect. -/
theorem State.keepsProduct.monitor (h : u.keepsProduct t a site) (arr : Nat) (acc : List Int) : u.keepsProduct (t.monitor site arr acc) a site := by
  unfold State.monitor
  extract_lets core inReplay
  refine h.foldl (fun t g ht => ?_) _
  extract_lets m vs c t1 first t2
  have h1 : u.keepsProduct t1 a site := by
    simp only [t1]
    split
    · exact ht
    · exact ht.setCore fun r hr => ⟨r, hr, rfl, rfl⟩
  have h2 : u.keepsProduct t2 a site := by
    simp only [t2]
    split
    · exact h1.unitError _ _ _ _
    · exact h1
  split
  · extract_lets bad
    split
    · exact h1
    · exact (h2.count (by decide) (by decide)).markSuspect _
  · exact h1

end

/-- A core that runs no leg starts nothing. -/
theorem State.runWaiting_noLeg (n : Nat) {s : State} {site : Nat} (h : (s.core site).run = none) : State.runWaiting n s [site] = s := by
  cases n with
  | zero => rfl
  | succ n =>
    simp only [State.runWaiting, h]
    cases n <;> rfl

/-- Nor does one whose queues are empty. -/
theorem State.restart_quiet {s : State} {site : Nat} (h : s.unitsQuiet site) : s.restart site = s := by
  unfold State.restart State.restartAll
  cases hr : (s.core site).run with
  | none => exact State.runWaiting_noLeg _ hr
  | some r => exact State.runWaiting_quiet _ s site r hr (h r hr)

/-- A core that tastes nothing looks at no product. -/
theorem State.tasteEnd_idle {s : State} {site : Nat} (arr : Nat) (acc : List Int) (parity : Bool)
    (h : ∀ r, (s.core site).run = some r → r.taste = none) : s.tasteEnd site arr acc parity = s := by
  unfold State.tasteEnd
  split
  · next r hr => rw [h r hr]
  · rfl

/-! The end of a product (R91, R93, R94, R106). -/

/-- What a product delivers, with its over-range count: zeros when it was refused. -/
def ArrSt.productResult (x : ArrSt) (p : ProdRun) (dev : SMap Int) : List Int × Nat :=
  if p.refused then (List.replicate 512 0, 0) else x.productAcc (x.inBuf p.buf) p.k dev

/-- The bank that a product fills. -/
def ArrSt.bankOf (x : ArrSt) (p : ProdRun) (acc : List Int) : OutBank :=
  { full := true, acc := acc, fmt := (x.inBuf p.buf).fmt, bref := (x.inBuf p.buf).bref, nan := (x.inBuf p.buf).nan }

/-- An array whose product has put its result into its output bank. -/
def ArrSt.banked (x : ArrSt) (p : ProdRun) (dev : SMap Int) : ArrSt :=
  { x.setOutBank p.bank (x.bankOf p (x.productResult p dev).1) with prod := none }

theorem ArrSt.outBank_banked (x : ArrSt) (p : ProdRun) (dev : SMap Int) :
    (x.banked p dev).outBank p.bank = x.bankOf p (x.productResult p dev).1 ∧
      (x.banked p dev).outBank (if p.bank = 0 then 1 else 0) = x.outBank (if p.bank = 0 then 1 else 0) := by
  by_cases h : p.bank = 0 <;> simp [ArrSt.banked, ArrSt.setOutBank, ArrSt.outBank, h]

/-- The state as a product has put its result into its output bank. -/
def State.productBanked (s : State) (a : Nat) (p : ProdRun) (dev : SMap Int) : State :=
  (s.setArr a ((s.arr a).banked p dev)).setFld F.ARR_STATUS_PRODUCT 0 a

section
variable {s : State} {a : Nat} {p : ProdRun} (dev : List (Nat × Int)) (parity : Bool) (hprod : (s.arr a).prod = some p)
include hprod

/-- While both banks are unread the product holds its accumulators (R93). -/
theorem State.productEnd_held_back (hfull : ((s.arr a).out0.full && (s.arr a).out1.full) = true) : s.productEnd a dev parity = s := by
  simp [State.productEnd, hprod, hfull]

/-- A product that ends on a quiet core is banked, and nothing that follows touches what it left. -/
theorem State.productEnd_banks (htime : p.start + p.dur ≤ s.cyc) (hfree : ((s.arr a).out0.full && (s.arr a).out1.full) = false)
    (hquiet : s.unitsQuiet (a / 16)) (htaste : ∀ r, (s.core (a / 16)).run = some r → r.taste = none) :
    (s.productBanked a p dev).keepsProduct (s.productEnd a dev parity) a (a / 16) := by
  unfold State.productEnd
  extract_lets x site
  split
  · next hnone => cases hprod.symm.trans hnone
  next q hq =>
  obtain rfl : p = q := Option.some.inj (hprod.symm.trans hq)
  rw [if_neg (by simp [x, Nat.not_lt_of_le htime, hfree])]
  extract_lets b res y t0 t1 t2
  have h1 : (s.productBanked a p dev).keepsProduct t1 a site := (State.keepsProduct.refl _ a site).applyTrims.modeAfterProduct
  have h2 : (s.productBanked a p dev).keepsProduct t2 a site := by
    simp only [t2]
    split
    · exact h1
    · have hcount := h1.count (f := F.ARR_OVRCNT) (n := res.2) (i := a) (by decide) (by decide)
      have hidle : ∀ r', ((t1.count F.ARR_OVRCNT res.2 a).core site).run = some r' → r'.taste = none := fun r' hr' => by
        obtain ⟨r, hr, -, ht⟩ := hcount.leg r' hr'
        rw [ht, htaste r hr]
      rw [State.tasteEnd_idle _ _ _ hidle]
      exact hcount.monitor _ _
  rw [State.restart_quiet]
  · exact h2.markDone _
  · intro r' hr'
    obtain ⟨r, hr, hqueued, -⟩ := (h2.markDone _).leg r' hr'
    rw [hqueued, hquiet r hr]

end

/-- Settles O17: the product is held, or its result is banked and stays as it is banked. -/
theorem productEnds : Obligations.ProductEnds := by
  unfold Obligations.ProductEnds
  intro s a p dev parity ha hprod htime
  have hnext (t : State) : within (decide (a < arrCount)) t = .next t := within_next (decide_eq_true ha)
  refine ⟨fun hfull => ?_, fun hfree hquiet htaste => ⟨_, hnext _, ?_⟩⟩
  · rw [exec_productEnd, State.productEnd_held_back dev parity hprod hfull, hnext]
  · obtain ⟨hnone, hbanks, hrunning, hothers, ⟨hhamper, hdram⟩, -⟩ := State.productEnd_banks dev parity hprod htime hfree hquiet htaste
    obtain ⟨hbank, hother⟩ := (s.arr a).outBank_banked p dev
    have harr : (s.productBanked a p dev).arr a = (s.arr a).banked p dev := State.arr_setArr_same ..
    rw [harr] at hnone hbanks
    refine ⟨hnone, ?_, ?_, ?_, ?_, fun b hb => (hothers b hb).trans (State.arr_setArr_ne _ _ hb), hhamper, hdram⟩
    · rw [hrunning, State.productBanked, State.fld_setFld_same]; rfl
    · rw [hbanks, hbank]; rfl
    · rw [hbanks, hbank, ArrSt.bankOf, ArrSt.productResult, apply_ite Prod.fst]
    · rw [hbanks, hother]

end Sys2Proof.Machine

/-!
PROOFS of the statement on sound states (95_what_each_step_holds).
-/

namespace Sys2Proof.Machine

/-! Every command holds what no command touches. -/

/-- Whatever a command does, it leaves the queue and the clock as they are and keeps the tables canonical: the law of each command's
meaning, command by command. -/
theorem exec_held (i : Instr) {s : State} {q : List Instr} {n c : Nat} (h : Held q n c s) : HeldO q n c (exec i s) := by
  cases i with
  | registerWrite => exact execRegisterWrite_held h
  | rcCounterRead => exact execRcCounterRead_held h
  | timeLoRead => exact execTimeLoRead_held h
  | enterMaint => exact execEnterMaint_held h
  | leaveMaint => exact execLeaveMaint_held h
  | erase => exact execErase_held h
  | programRows => exact execProgramRows_held h
  | refreshRows => exact execRefreshRows_held h
  | verifyRow => exact execVerifyRow_held h
  | levelCheck => exact execLevelCheck_held h
  | refSweep => exact execRefSweep_held h
  | writeSide => exact execWriteSide_held h
  | exclude => exact execExclude_held h
  | arrayCommandEnd => exact execArrayCommandEnd_held h
  | vppOutOfRegulation => exact execVppOutOfRegulation_held h
  | nop => exact execNop_held h
  | resetCtr => exact execResetCtr_held h
  | flip => exact execFlip_held h
  | barrier => exact execBarrier_held h
  | arrayInputLoad => exact execArrayInputLoad_held h
  | product => exact execProduct_held h
  | productEnd => exact execProductEnd_held h
  | accumulate => exact execAccumulate_held h
  | rotq => exact execRotq_held h
  | matmul => exact execMatmul_held h
  | vecAdd => exact execVecAdd_held h
  | vecSubtract => exact execVecSubtract_held h
  | vecMultiply => exact execVecMultiply_held h
  | vecFma => exact execVecFma_held h
  | vecMinimum => exact execVecMinimum_held h
  | vecMaximum => exact execVecMaximum_held h
  | vecScale => exact execVecScale_held h
  | vecCompare => exact execVecCompare_held h
  | vecSelect => exact execVecSelect_held h
  | vecConvert => exact execVecConvert_held h
  | vecReciprocal => exact execVecReciprocal_held h
  | vecRsqrt => exact execVecRsqrt_held h
  | vecExp2 => exact execVecExp2_held h
  | vecLog2 => exact execVecLog2_held h
  | vecSum => exact execVecSum_held h
  | vecMaxReduction => exact execVecMaxReduction_held h
  | vecTopK => exact execVecTopK_held h
  | send => exact execSend_held h
  | memRead => exact execMemRead_held h
  | memWrite => exact execMemWrite_held h
  | portSend => exact execPortSend_held h
  | operationComplete => exact execOperationComplete_held h
  | transferComplete => exact execTransferComplete_held h
  | remoteIncrement => exact execRemoteIncrement_held h
  | gatherFlushIdle => exact execGatherFlushIdle_held h
  | legStart => exact execLegStart_held h
  | legEnd => exact execLegEnd_held h
  | legOverrunStop => exact execLegOverrunStop_held h
  | suspectReport => exact execSuspectReport_held h
  | cribFill => exact execCribFill_held h
  | cribFillEnd => exact execCribFillEnd_held h
  | cribDrop => exact execCribDrop_held h
  | tstInject => exact execTstInject_held h
  | coreClear => exact execCoreClear_held h
  | coreClearComplete => exact execCoreClearComplete_held h
  | load => exact execLoad_held h
  | loadCheckEnd => exact execLoadCheckEnd_held h
  | unload => exact execUnload_held h
  | start => exact execStart_held h
  | stop => exact execStop_held h
  | cancelLoad => exact execCancelLoad_held h
  | clearFrameCounters => exact execClearFrameCounters_held h
  | readFrameState => exact execReadFrameState_held h
  | whistleInEdge => exact execWhistleInEdge_held h
  | whistle => exact execWhistle_held h
  | windowOpen => exact execWindowOpen_held h
  | selfWhistle => exact execSelfWhistle_held h
  | managerWhistle => exact execManagerWhistle_held h
  | readyPoint => exact execReadyPoint_held h
  | ready => exact execReady_held h
  | readyRepeat => exact execReadyRepeat_held h
  | pitchFieldWrite => exact execPitchFieldWrite_held h
  | apply => exact execApply_held h
  | zeroingComplete => exact execZeroingComplete_held h
  | patrolScrub => exact execPatrolScrub_held h
  | pageCopy => exact execPageCopy_held h
  | crossingReset => exact execCrossingReset_held h
  | relayPlan => exact execRelayPlan_held h
  | relayPieceArrival => exact execRelayPieceArrival_held h
  | chunkVerify => exact execChunkVerify_held h
  | relayStalled => exact execRelayStalled_held h
  | relayEnd => exact execRelayEnd_held h
  | coreProgramStart => exact execCoreProgramStart_held h
  | scrubRead => exact execScrubRead_held h
  | submit => exact execSubmit_held h
  | register => exact execRegister_held h
  | partnerTimeout => exact execPartnerTimeout_held h
  | cancel => exact execCancel_held h
  | cancelMessage => exact execCancelMessage_held h
  | bindingSelection => exact execBindingSelection_held h
  | bindingNotice => exact execBindingNotice_held h
  | exitReport => exact execExitReport_held h
  | setRation => exact execSetRation_held h
  | readRation => exact execReadRation_held h
  | releaseWaymark => exact execReleaseWaymark_held h
  | waymarkMover => exact execWaymarkMover_held h
  | setServing => exact execSetServing_held h
  | readServing => exact execReadServing_held h
  | clearServingCounters => exact execClearServingCounters_held h
  | linkRetrain => exact execLinkRetrain_held h
  | doorbellPoll => exact execDoorbellPoll_held h
  | heldCompletionWrite => exact execHeldCompletionWrite_held h
  | queueEnable => exact execQueueEnable_held h
  | queueDrain => exact execQueueDrain_held h
  | hostInboxDelivery => exact execHostInboxDelivery_held h
  | promptFetch => exact execPromptFetch_held h
  | msixUnmask => exact execMsixUnmask_held h
  | mgmtCommandPoll => exact execMgmtCommandPoll_held h
  | setTime => exact execSetTime_held h
  | poisonedWrite => exact execPoisonedWrite_held h
  | hostLinkFatalError => exact execHostLinkFatalError_held h
  | functionLevelReset => exact execFunctionLevelReset_held h
  | hotReset => exact execHotReset_held h
  | busMasterEnableChange => exact execBusMasterEnableChange_held h
  | perstN => exact execPerstN_held h
  | relayPiece => exact execRelayPiece_held h
  | readRelayStatus => exact execReadRelayStatus_held h
  | readMaskedMap => exact execReadMaskedMap_held h
  | readHistory => exact execReadHistory_held h
  | interruptEdge => exact execInterruptEdge_held h
  | intcClaim => exact execIntcClaim_held h
  | intcComplete => exact execIntcComplete_held h
  | fwclkStop => exact execFwclkStop_held h
  | fwclkWake => exact execFwclkWake_held h
  | kernelTick => exact execKernelTick_held h
  | watchdogExpiry => exact execWatchdogExpiry_held h
  | rangerDown => exact execRangerDown_held h
  | rangerTakeover => exact execRangerTakeover_held h
  | rangerUp => exact execRangerUp_held h
  | leadershipClaim => exact execLeadershipClaim_held h
  | leadershipRefresh => exact execLeadershipRefresh_held h
  | leadershipLapse => exact execLeadershipLapse_held h
  | replayRequest => exact execReplayRequest_held h
  | replayRun => exact execReplayRun_held h
  | replayOutput => exact execReplayOutput_held h
  | replayRefuse => exact execReplayRefuse_held h
  | replayPending => exact execReplayPending_held h
  | suppressed => exact execSuppressed_held h
  | replayGiveUp => exact execReplayGiveUp_held h
  | withhold => exact execWithhold_held h
  | list => exact execList_held h
  | listAck => exact execListAck_held h
  | withheldReport => exact execWithheldReport_held h
  | replayMap => exact execReplayMap_held h
  | rollCallDue => exact execRollCallDue_held h
  | rollCall => exact execRollCall_held h
  | rollAnswer => exact execRollAnswer_held h
  | expel => exact execExpel_held h
  | historyWrite => exact execHistoryWrite_held h
  | portLinkDown => exact execPortLinkDown_held h
  | portUp => exact execPortUp_held h
  | retrain => exact execRetrain_held h
  | fabricFrameReceived => exact execFabricFrameReceived_held h
  | xonResume => exact execXonResume_held h
  | pauseRepeat => exact execPauseRepeat_held h
  | pfcPauseReceived => exact execPfcPauseReceived_held h
  | ack => exact execAck_held h
  | messageResend => exact execMessageResend_held h
  | managerClaim => exact execManagerClaim_held h
  | withdraw => exact execWithdraw_held h
  | admitPart => exact execAdmit_held h
  | cut => exact execCut_held h
  | cutAck => exact execCutAck_held h
  | cutTimeout => exact execCutTimeout_held h
  | assume => exact execAssume_held h
  | assumeAck => exact execAssumeAck_held h
  | conversionStart => exact execConversionStart_held h
  | urgentConversion => exact execUrgentConversion_held h
  | converterWake => exact execConverterWake_held h
  | routineConversion => exact execRoutineConversion_held h
  | conversionComplete => exact execConversionComplete_held h
  | refinFault => exact execRefinFault_held h
  | heldValueStale => exact execHeldValueStale_held h
  | refinWrite => exact execRefinWrite_held h
  | thermalTrip => exact execThermalTrip_held h
  | tripBlankEnd => exact execTripBlankEnd_held h
  | tripTest => exact execTripTest_held h
  | regionTrimAdjust => exact execRegionTrimAdjust_held h
  | calibrateArray => exact execCalibrateArray_held h
  | powerOn => exact execPowerOn_held h
  | sysRstNAssert => exact execSysRstNAssert_held h
  | sysRstNRelease => exact execSysRstNRelease_held h
  | railRampRead => exact execRailRampRead_held h
  | bootStepEnd => exact execBootStepEnd_held h
  | clearAlt => exact execClearAlt_held h
  | off => exact execOff_held h
  | sysrst => exact execSysrst_held h
  | refclkLoss => exact execRefclkLoss_held h
  | refclkRestored => exact execRefclkRestored_held h
  | pmbusPoll => exact execPmbusPoll_held h
  | pmAlert => exact execPmAlert_held h
  | vppRaise => exact execVppRaise_held h
  | vppLower => exact execVppLower_held h
  | droopStretch => exact execDroopStretch_held h
  | droopEnd => exact execDroopEnd_held h
  | powerEstimate => exact execPowerEstimate_held h
  | clampAdjust => exact execClampAdjust_held h
  | stateReq => exact execStateReq_held h
  | powerState => exact execPowerState_held h
  | pllUnlock => exact execPllUnlock_held h
  | pllRelock => exact execPllRelock_held h
  | pwrWarn => exact execPwrWarn_held h
  | poweredHour => exact execPoweredHour_held h
  | atomicRecordWrite => exact execAtomicRecordWrite_held h
  | roleChallenge => exact execRoleChallenge_held h
  | roleAssume => exact execRoleAssume_held h
  | lockoutEnd => exact execLockoutEnd_held h
  | nonceExpiry => exact execNonceExpiry_held h
  | roleRelease => exact execRoleRelease_held h
  | keySet => exact execKeySet_held h
  | keyRemove => exact execKeyRemove_held h
  | pubkeySet => exact execPubkeySet_held h
  | pubkeyRemove => exact execPubkeyRemove_held h
  | lock => exact execLock_held h
  | readAudit => exact execReadAudit_held h
  | readKeys => exact execReadKeys_held h
  | auditFlush => exact execAuditFlush_held h
  | updateBegin => exact execUpdateBegin_held h
  | updateData => exact execUpdateData_held h
  | updateEnd => exact execUpdateEnd_held h
  | updateAbort => exact execUpdateAbort_held h
  | sessionAborted => exact execSessionAborted_held h
  | activate => exact execActivate_held h
  | activationPause => exact execActivationPause_held h
  | startFailed => exact execStartFailed_held h
  | activationHandover => exact execActivationHandover_held h
  | confirm => exact execConfirm_held h
  | readUpdate => exact execReadUpdate_held h
  | diagUnlock => exact execDiagUnlock_held h
  | signatureRequest => exact execSignatureRequest_held h
  | signatureAnswer => exact execSignatureAnswer_held h
  | setOffset => exact execSetOffset_held h
  | smbRead => exact execSmbRead_held h
  | writeSel => exact execWriteSel_held h
  | smbStatus => exact execSmbStatus_held h
  | alertResponse => exact execAlertResponse_held h
  | smbBusTimeout => exact execSmbBusTimeout_held h
  | powerFailure => exact execPowerFailure_held h
  | completionTimeout => exact execCompletionTimeout_held h
  | pauseTimeExpiry => exact execPauseTimeExpiry_held h
  | creditRequest => exact execCreditRequest_held h
  | beatReceived => exact execBeatReceived_held h
  | vppArrInRegulation => exact execVppArrInRegulation_held h
  | vfEnable => exact execVfEnable_held h
  | laneRefclkLoss => exact execLaneRefclkLoss_held h
  | laneRefclkRestored => exact execLaneRefclkRestored_held h
  | relayStatus => exact execRelayStatus_held h

/-- Sound is canonical, with well-formed commands waiting. -/
theorem State.sound_iff (s : State) : s.sound = true ↔ s.canonical = true ∧ ∀ c ∈ s.pending, c.wf = true := by
  simp [State.sound, State.queueWf]

/-- A well-formed command goes on from a canonical state, to a canonical state with the same queue. -/
theorem exec_next_of_wf {i : Instr} {s : State} (hi : i.wf = true) (hs : s.canonical = true) :
    ∃ t, exec i s = .next t ∧ t.pending = s.pending ∧ t.canonical = true := by
  obtain ⟨t, ht⟩ := exec_eq_within i s
  rw [hi, within_true] at ht
  have held := exec_held i (Held.of_canonical hs) t ht
  exact ⟨t, ht, held.queue, held.canonical⟩

/-- Settles O5: an idle step and every well-formed command keep the tables canonical and the rest of the queue as it was. -/
theorem soundStatesStep : Obligations.SoundStatesStep := by
  unfold Obligations.SoundStatesStep
  intro s hs
  obtain ⟨hcanon, hqueue⟩ := s.sound_iff.1 hs
  cases hp : s.pending with
  | nil =>
    obtain ⟨_, held⟩ := State.idle_held (Held.of_canonical hcanon)
    refine ⟨s.idle, by simp [step, hp], (State.sound_iff _).2 ⟨held.canonical, ?_⟩⟩
    rw [held.queue]
    exact hqueue
  | cons c rest =>
    rw [hp] at hqueue
    obtain ⟨t, ht, hrest, hcanon'⟩ := exec_next_of_wf (s := s.withPending rest) (hqueue c List.mem_cons_self) hcanon
    refine ⟨t, by simp [step, hp, ht], t.sound_iff.2 ⟨hcanon', ?_⟩⟩
    rw [hrest]
    exact fun d hd => hqueue d (List.mem_cons_of_mem c hd)

end Sys2Proof.Machine

/-!
PROOFS of the statement on the hamper (04_core R138, R142, R143).
-/

namespace Sys2Proof.Machine

/-! The hamper as the units of a core read it: the gather buffer over the banks (R142, R143). -/

/-- Rising keys below which a key lies do not list it. -/
theorem SMap.find?_of_lt {α : Type} {m : SMap α} {b k : Nat} (h : SMap.rising b m = true) (hk : k < b) : SMap.find? m k = none := by
  induction m generalizing b with
  | nil => rfl
  | cons e m ih =>
    obtain ⟨j, v⟩ := e
    simp only [SMap.rising, Bool.and_eq_true, decide_eq_true_eq] at h
    rw [SMap.find?, if_neg (by omega)]
    exact ih h.2 (by omega)

/-- A key that is found is listed. -/
theorem SMap.mem_of_find? {α : Type} {m : SMap α} {k : Nat} {v : α} (h : SMap.find? m k = some v) : (k, v) ∈ m := by
  induction m with
  | nil => cases h
  | cons e m ih =>
    obtain ⟨j, w⟩ := e
    rw [SMap.find?] at h
    split at h
    · next hj => cases h; subst hj; exact List.mem_cons_self
    · exact List.mem_cons_of_mem _ (ih h)

/-- The byte that a write of `bs` from address `a` puts at address `b`, if it reaches it. -/
def byteWritten (a : Nat) (bs : Bytes) (b : Nat) : Option Byte := if a ≤ b then bs[b - a]? else none

theorem byteWritten_nil (a b : Nat) : byteWritten a [] b = none := by simp [byteWritten]

/-- The first byte goes to the first address, the others to the addresses after it. -/
theorem byteWritten_cons (a b : Nat) (x : Byte) (bs : Bytes) : byteWritten a (x :: bs) b = if b = a then some x else byteWritten (a + 1) bs b := by
  unfold byteWritten
  split_ifs with h1 h2 h3 h4
  · simp [h2]
  · rw [show b - a = b - (a + 1) + 1 by omega, List.getElem?_cons_succ]
  · omega
  · omega
  · omega
  · rfl

/-- A write reaches the addresses of its bytes and no others. -/
theorem byteWritten_eq_none {a b : Nat} {bs : Bytes} (h : b < a ∨ a + bs.length ≤ b) : byteWritten a bs b = none := by
  unfold byteWritten
  split
  · exact List.getElem?_eq_none (by omega)
  · rfl

theorem byteWritten_add {a i : Nat} {bs : Bytes} (h : i < bs.length) : byteWritten a bs (a + i) = some bs[i] := by
  rw [byteWritten, if_pos (by omega), Nat.add_sub_cancel_left, List.getElem?_eq_getElem h]

/-- Moving the write moves what it puts at each address. -/
theorem byteWritten_shift (c a b : Nat) (bs : Bytes) : byteWritten (c + a) bs (c + b) = byteWritten a bs b := by
  simp [byteWritten, Nat.add_sub_add_left]

/-- Bytes written to a memory read back, the others as before. -/
theorem Memory.byte_write (bs : Bytes) (m : Memory) (a k : Nat) : Memory.byte (Memory.write m a bs) k = (byteWritten a bs k).getD (Memory.byte m k) := by
  induction bs generalizing m a with
  | nil => rw [byteWritten_nil]; rfl
  | cons x bs ih =>
    rw [Memory.write, ih, byteWritten_cons]
    split
    · next h =>
      rw [byteWritten_eq_none (by omega), h]
      exact SMap.get_set_same ..
    · next h => rw [Memory.byte, Memory.byte, SMap.get_set_ne _ _ _ h]

/-- A canonical mask written to a memory from a base reads back, the others as before. -/
theorem Memory.byte_mask {l : SMap Byte} {b : Nat} (h : SMap.rising b l = true) (m : Memory) (base i : Nat) :
    Memory.byte (l.foldl (fun m x => SMap.set (0 : Byte) m (base + x.1) x.2) m) (base + i) = (SMap.find? l i).getD (Memory.byte m (base + i)) := by
  induction l generalizing b m with
  | nil => rfl
  | cons x l ih =>
    obtain ⟨j, v⟩ := x
    simp only [SMap.rising, Bool.and_eq_true, decide_eq_true_eq] at h
    rw [List.foldl_cons, ih h.2, SMap.find?]
    split
    · next hj =>
      subst hj
      rw [SMap.find?_of_lt h.2 (by omega)]
      exact SMap.get_set_same ..
    · next hj => rw [Memory.byte, Memory.byte, SMap.get_set_ne _ _ _ (by omega)]

/-- It leaves the addresses outside the mask. -/
theorem Memory.byte_mask_ne (l : SMap Byte) (m : Memory) {base k : Nat} (h : ∀ x ∈ l, k ≠ base + x.1) :
    Memory.byte (l.foldl (fun m x => SMap.set (0 : Byte) m (base + x.1) x.2) m) k = Memory.byte m k := by
  induction l generalizing m with
  | nil => rfl
  | cons x l ih =>
    rw [List.foldl_cons, ih _ fun y hy => h y (List.mem_cons_of_mem _ hy)]
    exact SMap.get_set_ne _ _ _ (h x List.mem_cons_self)

/-- The places of two bytes of hampers are the same only for the same byte. -/
theorem hamperAt_inj {i j a b : Nat} (ha : a < hamperSize) (hb : b < hamperSize) (h : hamperAt i a = hamperAt j b) : i = j ∧ a = b := by
  unfold hamperSize at ha hb
  unfold hamperAt at h
  omega

/-- A canonical gather entry: a mask within one line of the hamper. -/
structure GEntry.ok (e : GEntry) : Prop where
  rising : SMap.rising 0 e.bytes = true
  mask : ∀ x ∈ e.bytes, x.1 < 64
  line : 64 * e.line < hamperSize

/-- A canonical gather buffer: canonical entries of different lines. -/
structure gatherOk (g : List GEntry) : Prop where
  lines : (g.map (·.line)).Nodup
  entries : ∀ e ∈ g, e.ok

theorem gatherOk.nil : gatherOk [] := ⟨List.nodup_nil, nofun⟩

theorem gatherOk.filter {g : List GEntry} (h : gatherOk g) (p : GEntry → Bool) : gatherOk (g.filter p) :=
  ⟨h.lines.sublist (List.filter_sublist.map _), fun e he => h.entries e (List.mem_of_mem_filter he)⟩

/-- What a gather buffer holds for an address. -/
def gatherByte (g : List GEntry) (b : Nat) : Option Byte := (g.find? fun e => e.line == b / 64).bind fun e => SMap.find? e.bytes (b % 64)

theorem gatherByte_nil (b : Nat) : gatherByte [] b = none := rfl

theorem gatherByte_cons (e : GEntry) (g : List GEntry) (b : Nat) :
    gatherByte (e :: g) b = if e.line = b / 64 then SMap.find? e.bytes (b % 64) else gatherByte g b := by
  by_cases h : e.line = b / 64 <;> simp [gatherByte, h]

/-- Without an entry of the line there is nothing for its addresses. -/
theorem gatherByte_eq_none {g : List GEntry} {b : Nat} (h : ∀ e ∈ g, e.line ≠ b / 64) : gatherByte g b = none := by
  rw [gatherByte, List.find?_eq_none.2 (by simpa using h), Option.bind_none]

/-- An address is held by the entries of one part or by those of the other. -/
theorem gatherByte_split {g : List GEntry} (h : (g.map (·.line)).Nodup) (p : GEntry → Bool) (b : Nat) :
    gatherByte g b = (gatherByte (g.filter fun e => !p e) b).or (gatherByte (g.filter p) b) := by
  induction g with
  | nil => rfl
  | cons e g ih =>
    rw [List.map_cons, List.nodup_cons] at h
    have hrest (q : GEntry → Bool) (he : e.line = b / 64) : gatherByte (g.filter q) b = none :=
      gatherByte_eq_none fun x hx hl => h.1 (List.mem_map.2 ⟨x, List.mem_of_mem_filter hx, hl.trans he.symm⟩)
    have ih := ih h.2
    by_cases he : e.line = b / 64
    · cases hp : p e <;> simp [hp, gatherByte_cons, he, hrest]
    · cases hp : p e <;> simp [hp, gatherByte_cons, he, ih]

/-- Entries of other lines than one leave what is held for other lines. -/
theorem gatherByte_filter_line (g : List GEntry) (l b : Nat) :
    gatherByte (g.filter fun e => e.line != l) b = if b / 64 = l then none else gatherByte g b := by
  split
  · next h => exact gatherByte_eq_none fun e he => by simpa [h] using (List.mem_filter.1 he).2
  · next h =>
    rw [gatherByte, gatherByte, List.find?_filter]
    congr 2
    funext e
    by_cases he : e.line = b / 64 <;> simp [he, h]

/-- A byte of the hamper is the gather buffer's over the bank's. -/
theorem State.hamperByte_eq (s : State) (j : Nat) {b : Nat} (h : b < hamperSize) :
    s.hamperByte j b = (gatherByte (s.core j).gather b).getD (Memory.byte s.hamper (hamperAt j b)) := by
  rw [State.hamperByte, if_neg (by omega)]
  unfold gatherByte CoreSt.gatherOf
  split
  · next h => rw [h]; rfl
  · next h => rw [h]; rfl

/-! Writing the gather buffer back (R142). -/

/-- An entry written to its bank reads back, every other byte of every hamper as before. -/
theorem byte_bankEntry {e : GEntry} (he : e.ok) (m : Memory) (site j : Nat) {b : Nat} (hb : b < hamperSize) :
    Memory.byte (bankEntry m site e) (hamperAt j b) =
      (if j = site ∧ e.line = b / 64 then SMap.find? e.bytes (b % 64) else none).getD (Memory.byte m (hamperAt j b)) := by
  have hbase : bankEntry m site e = e.bytes.foldl (fun m x => SMap.set (0 : Byte) m (hamperAt site (64 * e.line) + x.1) x.2) m := by
    simp only [bankEntry, hamperAt, Nat.add_assoc]
  have hline := he.line
  split
  · next h =>
    rw [hbase, h.1, show hamperAt site b = hamperAt site (64 * e.line) + b % 64 by unfold hamperAt; omega]
    exact Memory.byte_mask he.rising ..
  · next h =>
    rw [hbase]
    refine Memory.byte_mask_ne _ _ fun x hx hk => h ?_
    have hx := he.mask x hx
    have := hamperAt_inj (i := j) (a := b) (j := site) (b := 64 * e.line + x.1) hb (by unfold hamperSize at hline ⊢; omega)
      (hk.trans (by unfold hamperAt; omega))
    omega

/-- Entries written to their banks read back, every other byte of every hamper as before. -/
theorem byte_bankEntries {g : List GEntry} (hg : gatherOk g) (m : Memory) (site j : Nat) {b : Nat} (hb : b < hamperSize) :
    Memory.byte (g.foldl (fun m e => bankEntry m site e) m) (hamperAt j b) =
      (if j = site then gatherByte g b else none).getD (Memory.byte m (hamperAt j b)) := by
  induction g generalizing m with
  | nil => simp [gatherByte_nil]
  | cons e g ih =>
    obtain ⟨hlines, hentries⟩ := hg
    rw [List.map_cons, List.nodup_cons] at hlines
    rw [List.foldl_cons, ih ⟨hlines.2, fun x hx => hentries x (List.mem_cons_of_mem _ hx)⟩, byte_bankEntry (hentries e List.mem_cons_self) m site j hb,
      gatherByte_cons]
    by_cases hj : j = site <;> by_cases hl : e.line = b / 64 <;> simp [hj, hl]
    rw [gatherByte_eq_none fun x hx hx' => hlines.1 (List.mem_map.2 ⟨x, hx, hx'.trans hl.symm⟩)]
    rfl

/-- What `t` reads of the hampers: what `w` says of a byte of `site`, and every other byte as in `s`. -/
def State.hamperTakes (s t : State) (site : Nat) (w : Nat → Option Byte) : Prop :=
  ∀ j b, b < hamperSize → t.hamperByte j b = (if j = site then w b else none).getD (s.hamperByte j b)

/-- One change after another: what the later says goes first. -/
theorem State.hamperTakes.trans {s t u : State} {site : Nat} {v w : Nat → Option Byte} (h : s.hamperTakes t site v) (h' : t.hamperTakes u site w) :
    s.hamperTakes u site fun b => (w b).or (v b) := by
  intro j b hb
  rw [h' j b hb, h j b hb]
  split
  · rw [Option.getD_or]
  · rfl

theorem State.hamperTakes.congr {s t : State} {site : Nat} {v w : Nat → Option Byte} (h : s.hamperTakes t site v) (hvw : ∀ b, b < hamperSize → v b = w b) :
    s.hamperTakes t site w := fun j b hb => by rw [h j b hb, hvw b hb]

/-- Freeing entries writes them where they were read from: no byte reads otherwise (R142, R143). -/
theorem State.flushGather_takes {s : State} {site : Nat} (hg : gatherOk (s.core site).gather) (p : GEntry → Bool) :
    s.hamperTakes (s.flushGather site p) site fun _ => none := by
  intro j b hb
  rw [State.hamperByte_eq _ _ hb, State.hamperByte_eq _ _ hb, ite_self, Option.getD_none]
  change (gatherByte ((s.flushGather site p).core j).gather b).getD (Memory.byte (((s.core site).gather.filter p).foldl _ s.hamper) _) = _
  rw [byte_bankEntries (hg.filter p) _ _ _ hb]
  by_cases hj : j = site
  · subst hj
    rw [State.flushGather, State.core_setCore_same, gatherByte_split hg.lines p b, if_pos rfl]
    cases gatherByte ((s.core j).gather.filter fun e => !p e) b <;> rfl
  · rw [State.flushGather, State.core_setCore_ne _ _ hj, if_neg hj]
    rfl

theorem State.gather_flushGather (s : State) (site : Nat) (p : GEntry → Bool) :
    ((s.flushGather site p).core site).gather = (s.core site).gather.filter fun e => !p e := by
  rw [State.flushGather, State.core_setCore_same]

/-! Writes to the banks and to the gather buffer. -/

/-- What the banks take where the gather buffer holds nothing over it. -/
theorem State.bankWrite_takes {s : State} {site a : Nat} {bs : Bytes} (hfit : a + bs.length ≤ hamperSize)
    (hclear : ∀ b, a ≤ b → b < a + bs.length → gatherByte (s.core site).gather b = none) :
    s.hamperTakes (s.bankWrite site a bs) site (byteWritten a bs) := by
  intro j b hb
  rw [State.hamperByte_eq _ _ hb, State.hamperByte_eq _ _ hb]
  change (gatherByte (s.core j).gather b).getD (Memory.byte (Memory.write s.hamper _ (bs.take (hamperSize - a))) _) = _
  rw [List.take_of_length_le (by omega), Memory.byte_write]
  by_cases hj : j = site
  · subst hj
    rw [if_pos rfl, show byteWritten (hamperAt j a) bs (hamperAt j b) = byteWritten a bs b from byteWritten_shift ..]
    by_cases hin : a ≤ b ∧ b < a + bs.length
    · rw [hclear b hin.1 hin.2, Option.getD_none, Option.getD_none]
    · rw [byteWritten_eq_none (by omega), Option.getD_none, Option.getD_none]
  · rw [if_neg hj, Option.getD_none, byteWritten_eq_none, Option.getD_none]
    unfold hamperAt hamperSize at *
    omega

/-- A line is touched where one of its bytes is. -/
theorem mem_linesOf {a n l : Nat} : l ∈ linesOf a n ↔ 0 < n ∧ a / 64 ≤ l ∧ l ≤ (a + n - 1) / 64 := by
  unfold linesOf
  split
  · next h => simp [h]
  · simp only [List.mem_map, List.mem_range]
    constructor
    · rintro ⟨i, hi, rfl⟩; omega
    · intro h; exact ⟨l - a / 64, by omega, by omega⟩

theorem div_mem_linesOf {a n b : Nat} (h1 : a ≤ b) (h2 : b < a + n) : b / 64 ∈ linesOf a n := mem_linesOf.2 (by omega)

theorem State.cleanLines_takes {s t : State} {site : Nat} {w : Nat → Option Byte} (h : s.hamperTakes t site w) (i : Nat) (ls : List Nat) :
    s.hamperTakes (t.cleanLines i ls) site w := h

/-- A direct write reads back, and no other byte changes (R143). -/
theorem State.hamperWrite_takes {s : State} {site a : Nat} {bs : Bytes} (hg : gatherOk (s.core site).gather) (hfit : a + bs.length ≤ hamperSize) :
    s.hamperTakes (s.hamperWrite site a bs) site (byteWritten a bs) := by
  have hflush := State.flushGather_takes hg fun e => (linesOf a bs.length).contains e.line
  refine State.hamperTakes.congr (hflush.trans (State.cleanLines_takes (State.bankWrite_takes hfit fun b h1 h2 => ?_) site _)) fun b _ => Option.or_none
  rw [State.gather_flushGather]
  refine gatherByte_eq_none fun e he hl => ?_
  have hm := div_mem_linesOf h1 h2
  simp [hl, hm] at he

/-- Bytes merged into a mask read back, the others as before. -/
theorem find?_merge (bs : Bytes) (m : SMap Byte) (off n k : Nat) :
    SMap.find? ((bs.zipIdx n).foldl (fun m b => SMap.put m (off + b.2) b.1) m) k = (byteWritten (off + n) bs k).or (SMap.find? m k) := by
  induction bs generalizing m n with
  | nil => rw [byteWritten_nil]; rfl
  | cons x bs ih =>
    rw [List.zipIdx_cons, List.foldl_cons, ih, byteWritten_cons, ← Nat.add_assoc]
    split
    · next h => rw [byteWritten_eq_none (by omega), h, SMap.find?_put_same]; rfl
    · next h => rw [SMap.find?_put_ne _ _ h]

/-- They keep the mask canonical. -/
theorem merge_ok (bs : Bytes) (m : SMap Byte) (off n : Nat) (hm : SMap.rising 0 m = true) (hk : ∀ x ∈ m, x.1 < 64) (hfit : off + n + bs.length ≤ 64) :
    SMap.rising 0 ((bs.zipIdx n).foldl (fun m b => SMap.put m (off + b.2) b.1) m) = true ∧
      ∀ x ∈ (bs.zipIdx n).foldl (fun m b => SMap.put m (off + b.2) b.1) m, x.1 < 64 := by
  induction bs generalizing m n with
  | nil => exact ⟨hm, hk⟩
  | cons x bs ih =>
    rw [List.length_cons] at hfit
    rw [List.zipIdx_cons, List.foldl_cons]
    refine ih _ _ (SMap.rising_put _ _ (Nat.zero_le _) hm) (fun y hy => ?_) (by omega)
    rcases SMap.mem_put hy with rfl | hy
    · change off + n < 64; omega
    · exact hk y hy

/-- The gather buffer after bytes of one line are merged into the line's entry, or into a new one. -/
def gatherMerge (g : List GEntry) (line off cyc : Nat) (bs : Bytes) : List GEntry :=
  (g.filter fun (x : GEntry) => x.line != line) ++
    [⟨line, bs.zipIdx.foldl (fun m b => SMap.put m (off + b.2) b.1) (match g.find? fun e => e.line == line with | some e => e.bytes | none => []), cyc⟩]

/-- What a merged gather buffer holds: the new bytes, and otherwise what it held. -/
theorem gatherByte_gatherMerge (g : List GEntry) {line off : Nat} (cyc : Nat) {bs : Bytes} (hfit : off + bs.length ≤ 64) (b : Nat) :
    gatherByte (gatherMerge g line off cyc bs) b = (byteWritten (64 * line + off) bs b).or (gatherByte g b) := by
  have hfilter := gatherByte_filter_line g line b
  rw [gatherByte] at hfilter
  rw [gatherByte, gatherMerge, List.find?_append]
  by_cases h : b / 64 = line
  · have hnone : ((g.filter fun e => e.line != line).find? fun e => e.line == b / 64) = none := by
      rw [List.find?_eq_none]
      intro e he
      simpa [h] using (List.mem_filter.1 he).2
    rw [hnone, Option.none_or, List.find?_cons_of_pos (by simp [h]), Option.bind_some, find?_merge, Nat.add_zero]
    rw [show byteWritten (64 * line + off) bs b = byteWritten off bs (b % 64) from by
      rw [← byteWritten_shift (64 * line) off (b % 64)]; congr 1; omega]
    rw [gatherByte, h]
    cases g.find? fun e => e.line == line <;> rfl
  · rw [byteWritten_eq_none (by omega), Option.none_or]
    rw [if_neg h] at hfilter
    rw [List.find?_cons_of_neg (by simpa using Ne.symm h), List.find?_nil, Option.or_none, hfilter]

theorem gatherMerge_ok {g : List GEntry} (hg : gatherOk g) {line off : Nat} (cyc : Nat) {bs : Bytes} (hline : 64 * line < hamperSize)
    (hfit : off + bs.length ≤ 64) : gatherOk (gatherMerge g line off cyc bs) := by
  have hrest := hg.filter fun (x : GEntry) => x.line != line
  have hnew : GEntry.ok ⟨line, bs.zipIdx.foldl (fun m b => SMap.put m (off + b.2) b.1)
      (match g.find? fun e => e.line == line with | some e => e.bytes | none => []), cyc⟩ := by
    split
    · next e he =>
      have hold := hg.entries e (List.mem_of_find?_eq_some he)
      obtain ⟨h1, h2⟩ := merge_ok bs e.bytes off 0 hold.rising hold.mask (by omega)
      exact ⟨h1, h2, hline⟩
    · obtain ⟨h1, h2⟩ := merge_ok bs [] off 0 rfl nofun (by omega)
      exact ⟨h1, h2, hline⟩
  refine ⟨?_, fun e he => ?_⟩
  · rw [gatherMerge, List.map_append, List.nodup_append]
    refine ⟨hrest.lines, by simp, ?_⟩
    rintro l hl l' hl' rfl
    obtain ⟨e, he, rfl⟩ := List.mem_map.1 hl
    simp at hl' he
    exact he.2 hl'
  · rcases List.mem_append.1 he with he | he
    · exact hrest.entries e he
    · rw [List.mem_singleton.1 he]; exact hnew

/-- A gather buffer replaced by one that holds more: the hamper takes the more. -/
theorem State.setGather_takes {s : State} {site : Nat} {g : List GEntry} {w : Nat → Option Byte}
    (h : ∀ b, gatherByte g b = (w b).or (gatherByte (s.core site).gather b)) :
    s.hamperTakes (s.setCore site { s.core site with gather := g }) site w := by
  intro j b hb
  rw [State.hamperByte_eq _ _ hb, State.hamperByte_eq _ _ hb, State.setCore_hamper]
  by_cases hj : j = site
  · subst hj
    rw [State.core_setCore_same, if_pos rfl, h]
    cases w b <;> rfl
  · rw [State.core_setCore_ne _ _ hj, if_neg hj, Option.getD_none]

/-- The gather buffer of a core is canonical, and the hamper has taken what `w` says. -/
structure State.gathers (s t : State) (site : Nat) (w : Nat → Option Byte) : Prop where
  takes : s.hamperTakes t site w
  ok : gatherOk (t.core site).gather

theorem State.gathers.flush {s t : State} {site : Nat} {w : Nat → Option Byte} (h : s.gathers t site w) (p : GEntry → Bool) :
    s.gathers (t.flushGather site p) site w :=
  ⟨(h.takes.trans (State.flushGather_takes h.ok p)).congr fun _ _ => rfl, by rw [State.gather_flushGather]; exact h.ok.filter _⟩

/-- A narrow piece of one line through the gather buffer (R142). -/
theorem State.gatherLine_gathers {s : State} {site line off : Nat} {bs : Bytes} (hg : gatherOk (s.core site).gather) (hline : 64 * line < hamperSize)
    (hfit : off + bs.length ≤ 64) : s.gathers (s.gatherLine site line off bs) site (byteWritten (64 * line + off) bs) := by
  unfold State.gatherLine
  extract_lets c oldest t c' old merged e u
  have ht : s.gathers t site fun _ => none := by
    have hs : s.gathers s site fun _ => none := ⟨fun j b _ => by rw [ite_self]; rfl, hg⟩
    simp only [t]
    split
    · exact hs
    · split
      · exact hs
      · exact hs.flush _
  have hu : s.gathers u site (byteWritten (64 * line + off) bs) := by
    refine ⟨(ht.takes.trans (State.setGather_takes (g := gatherMerge c'.gather line off t.cyc bs) fun b => ?_)).congr fun b _ => Option.or_none, ?_⟩
    · exact gatherByte_gatherMerge _ _ hfit b
    · simp only [u, State.core_setCore_same]
      exact gatherMerge_ok ht.ok _ hline hfit
  split
  · exact hu.flush _
  · exact hu

/-- A whole line to its bank: the line's entry is freed unwritten (R142). -/
theorem State.wholeLine_gathers {s : State} {site line : Nat} {bs : Bytes} (hg : gatherOk (s.core site).gather) (hlen : bs.length = 64)
    (hline : 64 * line < hamperSize) :
    s.gathers ((s.setCore site { s.core site with gather := (s.core site).gather.filter fun e => e.line != line }).bankWrite site (64 * line) bs) site
      (byteWritten (64 * line) bs) := by
  have hcore : ((s.setCore site { s.core site with gather := (s.core site).gather.filter fun e => e.line != line }).core site).gather =
      (s.core site).gather.filter fun e => e.line != line := by rw [State.core_setCore_same]
  refine ⟨fun j b hb => ?_, ?_⟩
  · rw [State.bankWrite_takes (by unfold hamperSize at hline ⊢; omega) (fun b h1 h2 => ?_) j b hb]
    · by_cases hj : j = site
      · subst hj
        rw [if_pos rfl]
        by_cases hl : b / 64 = line
        · rw [byteWritten, if_pos (by omega), List.getElem?_eq_getElem (by omega)]; rfl
        · rw [byteWritten_eq_none (by omega), Option.getD_none, Option.getD_none, State.hamperByte_eq _ _ hb, State.hamperByte_eq _ _ hb, hcore,
            gatherByte_filter_line, if_neg hl, State.setCore_hamper]
      · rw [if_neg hj, Option.getD_none, Option.getD_none, State.hamperByte_eq _ _ hb, State.hamperByte_eq _ _ hb, State.core_setCore_ne _ _ hj,
          State.setCore_hamper]
    · rw [hcore, gatherByte_filter_line, if_pos (by omega)]
  · change gatherOk ((s.setCore site _).core site).gather
    rw [hcore]
    exact hg.filter _

/-- The piece of a write that falls in a line: what the whole write puts there. -/
theorem byteWritten_piece {a l : Nat} {bs : Bytes} (hl : l ∈ linesOf a bs.length) (b : Nat) :
    byteWritten (max a (64 * l)) (slice bs (max a (64 * l) - a) (min (a + bs.length) (64 * l + 64) - max a (64 * l))) b =
      if b / 64 = l then byteWritten a bs b else none := by
  obtain ⟨h0, h1, h2⟩ := mem_linesOf.1 hl
  unfold byteWritten slice
  split_ifs with h3 h4 h5 h6
  · rw [List.getElem?_take, List.getElem?_drop]
    split
    · congr 1; omega
    · exact (List.getElem?_eq_none (by omega)).symm
  · omega
  · exact List.getElem?_eq_none (by rw [List.length_take, List.length_drop]; omega)
  · omega
  · rfl
  · rfl

/-- What the gather buffer does with the piece of a write that falls in a line. -/
def State.gatherPiece (s : State) (site a : Nat) (bs : Bytes) (l : Nat) : State :=
  let lo := max a (64 * l)
  let hi := min (a + bs.length) (64 * l + 64)
  let part := slice bs (lo - a) (hi - lo)
  if hamperSize ≤ lo then s
  else if part.length = 64 then
    let c := s.core site
    ((s.setCore site { c with gather := c.gather.filter fun e => e.line != l }).bankWrite site lo part).cleanLines site [l]
  else (s.gatherLine site l (lo - 64 * l) part).cleanLines site [l]

theorem State.gatherWrite_eq (s : State) (site a : Nat) (bs : Bytes) :
    s.gatherWrite site a bs = (linesOf a bs.length).foldl (fun s l => s.gatherPiece site a bs l) s := rfl

theorem State.gatherPiece_gathers {s : State} {site a l : Nat} {bs : Bytes} (hg : gatherOk (s.core site).gather) (hfit : a + bs.length ≤ hamperSize)
    (hl : l ∈ linesOf a bs.length) : s.gathers (s.gatherPiece site a bs l) site fun b => if b / 64 = l then byteWritten a bs b else none := by
  obtain ⟨h0, h1, h2⟩ := mem_linesOf.1 hl
  unfold State.gatherPiece
  extract_lets lo hi part c
  have hpart : part.length = hi - lo := by simp only [part, slice, List.length_take, List.length_drop]; omega
  have hw (b : Nat) : byteWritten lo part b = if b / 64 = l then byteWritten a bs b else none := byteWritten_piece hl b
  have hline : 64 * l < hamperSize := by omega
  rw [if_neg (by omega)]
  split
  · next h64 =>
    have hlo : lo = 64 * l := by omega
    obtain ⟨htakes, hok⟩ := State.wholeLine_gathers hg h64 hline
    rw [← hlo] at htakes hok
    exact ⟨htakes.congr fun b _ => hw b, hok⟩
  · obtain ⟨htakes, hok⟩ := State.gatherLine_gathers (off := lo - 64 * l) (bs := part) hg hline (by omega)
    rw [show 64 * l + (lo - 64 * l) = lo by omega] at htakes
    exact ⟨htakes.congr fun b _ => hw b, hok⟩

theorem ite_none_or_ite_none {α : Type} (p q : Prop) [Decidable p] [Decidable q] (x : Option α) :
    (if p then x else none).or (if q then x else none) = if q ∨ p then x else none := by
  by_cases hp : p <;> by_cases hq : q <;> simp [hp, hq]

/-- A write through the gather buffer reads back, and no other byte changes (R142, R143). -/
theorem State.gatherWrite_takes {s : State} {site a : Nat} {bs : Bytes} (hg : gatherOk (s.core site).gather) (hfit : a + bs.length ≤ hamperSize) :
    s.hamperTakes (s.gatherWrite site a bs) site (byteWritten a bs) := by
  have hfold : ∀ ls : List Nat, (∀ l ∈ ls, l ∈ linesOf a bs.length) → ∀ t : State, gatherOk (t.core site).gather →
      t.gathers (ls.foldl (fun s l => s.gatherPiece site a bs l) t) site fun b => if b / 64 ∈ ls then byteWritten a bs b else none := by
    intro ls
    induction ls with
    | nil => exact fun _ t ht => ⟨fun j b _ => by simp, ht⟩
    | cons l ls ih =>
      intro hls t ht
      have hpiece := State.gatherPiece_gathers ht hfit (hls l List.mem_cons_self)
      have hrest := ih (fun x hx => hls x (List.mem_cons_of_mem _ hx)) _ hpiece.ok
      refine ⟨(hpiece.takes.trans hrest.takes).congr fun b _ => ?_, hrest.ok⟩
      simp only [ite_none_or_ite_none, List.mem_cons]
  rw [State.gatherWrite_eq]
  refine (hfold _ (fun _ h => h) s hg).takes.congr fun b _ => ?_
  split
  · rfl
  · next h => exact (byteWritten_eq_none (by_contra fun hb => h (div_mem_linesOf (by omega) (by omega)))).symm

/-- What was written reads back, and no other byte has changed. -/
theorem State.hamperTakes.readsBack {s t : State} {site a : Nat} {bs : Bytes} (h : s.hamperTakes t site (byteWritten a bs)) (hfit : a + bs.length ≤ hamperSize) :
    t.hamperRead site a bs.length = bs ∧ s.onlyHamper t site a bs.length := by
  refine ⟨List.ext_getElem (by simp [State.hamperRead]) fun i h1 h2 => ?_, fun j b hb hj => ?_⟩
  · simp only [State.hamperRead, List.getElem_map, List.getElem_range]
    rw [h site (a + i) (by omega), if_pos rfl, byteWritten_add h2]
    rfl
  · rw [h j b hb]
    split
    · next hs => rw [byteWritten_eq_none (hj hs)]; rfl
    · rfl

/-- Settles O14: both ways of writing leave the hamper reading as the bytes written over what it read before. -/
theorem hamperWritesReadBack : Obligations.HamperWritesReadBack := by
  unfold Obligations.HamperWritesReadBack
  intro s site a bs hempty hfit
  have hg : gatherOk (s.core site).gather := hempty ▸ gatherOk.nil
  obtain ⟨h1, h2⟩ := (State.hamperWrite_takes hg hfit).readsBack hfit
  obtain ⟨h3, h4⟩ := (State.gatherWrite_takes hg hfit).readsBack hfit
  exact ⟨h1, h2, h3, h4⟩

end Sys2Proof.Machine

/-!
PROOFS of the statements on the operations of a core (04_core R125 to R137, R141, R144 to R148; 06_network_and_memory R198, R203, R215, R216, R309).
-/

namespace Sys2Proof.Machine

/-! What finds a core reads: the spare map and the rectangles of the pitches (R12, R13, R204). -/

/-- The fields that say where a logical core stands and in which pitch. -/
def placeFlds : List Fld :=
  [F.GLB_ROWMAP_DATA_STATE, F.GLB_ROWMAP_DATA_PROW, F.NET_PITCH_RECT_ENABLE, F.NET_PITCH_RECT_R0, F.NET_PITCH_RECT_R1, F.NET_PITCH_RECT_C0,
    F.NET_PITCH_RECT_C1]

/-- Both states place every logical core alike. -/
def State.samePlaces (s t : State) : Prop := ∀ f ∈ placeFlds, ∀ i, t.fld f i = s.fld f i

theorem State.samePlaces.trans {s t u : State} (h : s.samePlaces t) (h' : t.samePlaces u) : s.samePlaces u :=
  fun f hf i => (h' f hf i).trans (h f hf i)

/-- An update of other fields places them alike. -/
theorem State.onlyFields.samePlaces {s t : State} {fs : List Fld} (h : s.onlyFields t fs)
    (hfs : placeFlds.all (fun f => !(fs.map (·.code)).contains (f.code % 1024)) = true) : s.samePlaces t := by
  intro f hf i
  have := List.all_eq_true.1 hfs f hf
  exact h.fld i (by simpa using this)

section
variable {s t : State} (h : s.samePlaces t)
include h

theorem State.samePlaces.siteCore (site : Nat) : t.siteCore site = s.siteCore site := by
  have h1 := h F.GLB_ROWMAP_DATA_STATE (by simp [placeFlds])
  have h2 := h F.GLB_ROWMAP_DATA_PROW (by simp [placeFlds])
  simp only [State.siteCore, h1, h2]

theorem State.samePlaces.coreSite (core : Nat) : t.coreSite core = s.coreSite core := by
  have h1 := h F.GLB_ROWMAP_DATA_STATE (by simp [placeFlds])
  have h2 := h F.GLB_ROWMAP_DATA_PROW (by simp [placeFlds])
  simp only [State.coreSite, h1, h2]

theorem State.samePlaces.corePitch (core : Nat) : t.corePitch core = s.corePitch core := by
  have h1 := h F.NET_PITCH_RECT_ENABLE (by simp [placeFlds])
  have h2 := h F.NET_PITCH_RECT_R0 (by simp [placeFlds])
  have h3 := h F.NET_PITCH_RECT_R1 (by simp [placeFlds])
  have h4 := h F.NET_PITCH_RECT_C0 (by simp [placeFlds])
  have h5 := h F.NET_PITCH_RECT_C1 (by simp [placeFlds])
  simp only [State.corePitch, State.pitchOn, State.inRect, State.flag, h1, h2, h3, h4, h5]

end

/-! The unit queues of a core: no effect of an operation touches them (R148). -/

/-- What waits in the unit queues of the leg that a core runs, if it runs one. -/
def State.queueAt (s : State) (j : Nat) : Option (List RunOp) := (s.core j).run.map (·.queued)

theorem State.queueAt_of_cores {s t : State} (h : t.cores = s.cores) (j : Nat) : t.queueAt j = s.queueAt j := by
  rw [State.queueAt, State.core, h]; rfl

theorem State.unitsQuiet_of_queueAt {s t : State} {site : Nat} (h : t.queueAt site = s.queueAt site) (hs : s.unitsQuiet site) : t.unitsQuiet site := by
  intro r' hr'
  rw [State.queueAt, hr', State.queueAt] at h
  cases hr : (s.core site).run with
  | none => rw [hr] at h; cases h
  | some r =>
    rw [hr] at h
    exact (Option.some.inj h).trans (hs r hr)

@[simp] theorem State.queueAt_setFld (s : State) (f : Fld) (v i j : Nat) : (s.setFld f v i).queueAt j = s.queueAt j := rfl
@[simp] theorem State.queueAt_setFlag (s : State) (f : Fld) (b : Bool) (i j : Nat) : (s.setFlag f b i).queueAt j = s.queueAt j := rfl
@[simp] theorem State.queueAt_count (s : State) (f : Fld) (n i j : Nat) : (s.count f n i).queueAt j = s.queueAt j := rfl
@[simp] theorem State.queueAt_setArr (s : State) (a : Nat) (x : ArrSt) (j : Nat) : (s.setArr a x).queueAt j = s.queueAt j := rfl
@[simp] theorem State.queueAt_cleanLines (s : State) (i : Nat) (ls : List Nat) (j : Nat) : (s.cleanLines i ls).queueAt j = s.queueAt j := rfl
@[simp] theorem State.queueAt_bankWrite (s : State) (i a : Nat) (bs : Bytes) (j : Nat) : (s.bankWrite i a bs).queueAt j = s.queueAt j := rfl
@[simp] theorem State.queueAt_flits (s : State) (e : OpEnv) (j : Nat) : (s.flits e).queueAt j = s.queueAt j := rfl
@[simp] theorem State.queueAt_launch (s : State) (t : Transfer) (j : Nat) : (s.launch t).queueAt j = s.queueAt j := rfl
@[simp] theorem State.queueAt_pitchWrite (s : State) (p a : Nat) (bs : Bytes) (j : Nat) : (s.pitchWrite p a bs).queueAt j = s.queueAt j := rfl
@[simp] theorem State.queueAt_countNaN (s : State) (i : Nat) (v : List Nat) (j : Nat) : (s.countNaN i v).queueAt j = s.queueAt j := rfl
@[simp] theorem State.queueAt_countBlocks (s : State) (i : Nat) (q : List QBlock) (j : Nat) : (s.countBlocks i q).queueAt j = s.queueAt j := rfl
@[simp] theorem State.queueAt_goodBeat (s : State) (p a j : Nat) : (s.goodBeat p a).queueAt j = s.queueAt j := rfl

/-- A core set to a record with the same queues. -/
theorem State.queueAt_setCore {s : State} {i : Nat} {c : CoreSt} (h : c.run.map (·.queued) = (s.core i).run.map (·.queued)) (j : Nat) :
    (s.setCore i c).queueAt j = s.queueAt j := by
  unfold State.queueAt
  by_cases hj : j = i
  · rw [hj, State.core_setCore_same, h]
  · rw [State.core_setCore_ne _ _ hj]

/-- Every turn of a fold that leaves the queues leaves them. -/
theorem State.queueAt_foldl {α : Type} {f : State → α → State} {j : Nat} (hf : ∀ s a, (f s a).queueAt j = s.queueAt j) (l : List α) (s : State) :
    (l.foldl f s).queueAt j = s.queueAt j := foldl_same (fun s => s.queueAt j) hf l s

@[simp] theorem State.queueAt_raiseRow (s : State) (b i j : Nat) : (s.raiseRow b i).queueAt j = s.queueAt j :=
  State.queueAt_of_cores (s.onlyIn_raiseRow b i .cores (by decide)) j

@[simp] theorem State.queueAt_raiseBoth (s : State) (id j : Nat) : (s.raiseBoth id).queueAt j = s.queueAt j :=
  State.queueAt_of_cores (s.onlyIn_raiseBoth id .cores (by decide)) j

@[simp] theorem State.queueAt_unitError (s : State) (kind index cause n j : Nat) : (s.unitError kind index cause n).queueAt j = s.queueAt j := by
  unfold State.unitError
  split <;> rfl

/-- A leg changed beside its queues. -/
theorem State.queueAt_onRun (s : State) (i : Nat) {f : LegRun → LegRun} (hf : ∀ r, (f r).queued = r.queued) (j : Nat) :
    (s.onRun i f).queueAt j = s.queueAt j := by
  unfold State.onRun
  split
  · next r hr => exact State.queueAt_setCore (by rw [hr]; exact congrArg some (hf r)) j
  · rfl

@[simp] theorem State.queueAt_markSuspect (s : State) (i bit : Nat) (mem : Bool) (j : Nat) : (s.markSuspect i bit mem).queueAt j = s.queueAt j := by
  unfold State.markSuspect
  extract_lets c
  split
  · rfl
  · next r hr =>
    extract_lets first cause r' t1 t2 t3 core t4
    have h1 : t1.queueAt j = s.queueAt j := State.queueAt_setCore (by rw [show (s.core i).run = some r from hr]; rfl) j
    have h2 : t2.queueAt j = s.queueAt j := by
      simp only [t2]
      split <;> simp [h1]
    have h3 : t3.queueAt j = s.queueAt j := by
      simp only [t3]
      split <;> simp [h2]
    split
    · exact h3
    · exact h3

@[simp] theorem State.queueAt_readMarks (s : State) (i a n j : Nat) : (s.readMarks i a n).queueAt j = s.queueAt j := by
  unfold State.readMarks
  split <;> simp

@[simp] theorem State.queueAt_ctrInc (s : State) (i k n j : Nat) : (s.ctrInc i k n).queueAt j = s.queueAt j := by
  unfold State.ctrInc
  extract_lets v t
  split <;> simp [t]

@[simp] theorem State.queueAt_flushGather (s : State) (i : Nat) (p : GEntry → Bool) (j : Nat) : (s.flushGather i p).queueAt j = s.queueAt j :=
  State.queueAt_setCore (by rfl) j

@[simp] theorem State.queueAt_hamperWrite (s : State) (i a : Nat) (bs : Bytes) (j : Nat) : (s.hamperWrite i a bs).queueAt j = s.queueAt j := by
  simp [State.hamperWrite]

@[simp] theorem State.queueAt_gatherLine (s : State) (i line off : Nat) (bs : Bytes) (j : Nat) : (s.gatherLine i line off bs).queueAt j = s.queueAt j := by
  unfold State.gatherLine
  extract_lets c oldest t c' old merged e u
  have ht : t.queueAt j = s.queueAt j := by
    simp only [t]
    split
    · rfl
    · split <;> simp
  have hu : u.queueAt j = s.queueAt j := (State.queueAt_setCore (by rfl) j).trans ht
  split <;> simp [hu]

@[simp] theorem State.queueAt_gatherWrite (s : State) (i a : Nat) (bs : Bytes) (j : Nat) : (s.gatherWrite i a bs).queueAt j = s.queueAt j := by
  rw [State.gatherWrite_eq]
  refine State.queueAt_foldl (fun t l => ?_) _ s
  unfold State.gatherPiece
  extract_lets lo hi part c
  split
  · rfl
  · split
    · exact State.queueAt_setCore (s := t) (by rfl) j
    · simp

/-! The effects of the operations leave the queues. -/

@[simp] theorem State.queueAt_opLoad (s : State) (i mask : Nat) (fmt : Fmt) (buf elems scales ref count j : Nat) :
    (s.opLoad i mask fmt buf elems scales ref count).queueAt j = s.queueAt j := by
  unfold State.opLoad
  extract_lets codes sc r b t
  refine (State.queueAt_foldl (fun _ _ => by rfl) _ t).trans ?_
  simp [t]

@[simp] theorem State.queueAt_productStart (s : State) (a buf k bank j : Nat) : (s.productStart a buf k bank).queueAt j = s.queueAt j := by
  unfold State.productStart
  extract_lets
  split <;> rfl

@[simp] theorem State.queueAt_opAccumulate (s : State) (i n : Nat) (bf16 : Bool) (table j : Nat) : (s.opAccumulate i n bf16 table).queueAt j = s.queueAt j := by
  unfold State.opAccumulate
  extract_lets t
  rw [State.queueAt_foldl (j := j) fun u x => ?_]
  · exact s.queueAt_readMarks ..
  · extract_lets sums v c w
    have hv : v.queueAt j = u.queueAt j := by
      simp only [v]
      exact State.queueAt_foldl (fun _ _ => by rfl) _ u
    have hw : w.queueAt j = u.queueAt j := (State.queueAt_setCore (by rfl) j).trans hv
    rw [State.queueAt_countNaN, State.queueAt_hamperWrite, hw]

@[simp] theorem State.queueAt_opRotq (s : State) (i m mode : Nat) (fmt : Fmt) (inBf16 : Bool) (seed src dst len j : Nat) :
    (s.opRotq i m mode fmt inBf16 seed src dst len).queueAt j = s.queueAt j := by
  unfold State.opRotq
  extract_lets t x y c u bound segs q out
  have hu : u.queueAt j = s.queueAt j := (State.queueAt_setCore (by rfl) j).trans (s.queueAt_readMarks ..)
  split <;> simp [hu]

@[simp] theorem State.queueAt_opMatmul (s : State) (i x y z m n k32 flags j : Nat) : (s.opMatmul i x y z m n k32 flags).queueAt j = s.queueAt j := by
  unfold State.opMatmul
  extract_lets fx fy int32 bf16 add t ys out u
  have ht : t.queueAt j = s.queueAt j := by simp [t]
  have hu : u.queueAt j = t.queueAt j := by
    simp only [u]
    split <;> simp
  rw [State.queueAt_hamperWrite, hu, ht]

@[simp] theorem State.queueAt_opVec (s : State) (i : Nat) (op : VecOp) (flags k a b dst len j : Nat) :
    (s.opVec i op flags k a b dst len).queueAt j = s.queueAt j := by
  unfold State.opVec
  extract_lets w t u out v
  have ht : t.queueAt j = s.queueAt j := s.queueAt_readMarks ..
  have hu : u.queueAt j = s.queueAt j := by
    simp only [u]
    split <;> simp [ht]
  have hv : v.queueAt j = s.queueAt j := by
    simp only [v]
    split <;> simp [hu]
  rw [State.queueAt_gatherWrite, hv]

@[simp] theorem State.queueAt_sendBytes (s : State) (i dest : Nat) (ctr : Option Nat) (dst : Nat) (data : Bytes) (bad : Bool) (j : Nat) :
    (s.sendBytes i dest ctr dst data bad).queueAt j = s.queueAt j := by
  unfold State.sendBytes
  extract_lets
  split <;> rfl

@[simp] theorem State.queueAt_opSend (s : State) (i : Nat) (e : OpEnv) (dest : Nat) (ctr : Option Nat) (src dst bytes j : Nat) :
    (s.opSend i e dest ctr src dst bytes).queueAt j = s.queueAt j := by
  simp [State.opSend]

@[simp] theorem State.queueAt_badBeat (s : State) (p a j : Nat) : (s.badBeat p a).queueAt j = s.queueAt j := by
  unfold State.badBeat
  extract_lets q st t u v
  have hv : v.queueAt j = s.queueAt j := by simp [v, u, t]
  split
  · exact hv
  · exact hv

@[simp] theorem State.queueAt_opMemRead (s : State) (i : Nat) (e : OpEnv) (stream addr bytes token j : Nat) :
    (s.opMemRead i e stream addr bytes token).queueAt j = s.queueAt j := by
  have hbeats (p : Nat) : (e.beats.foldl (fun (s : State) (b : Nat × Bool) => if b.2 then s.badBeat p b.1 else s.goodBeat p b.1) s).queueAt j = s.queueAt j := by
    refine State.queueAt_foldl (fun u x => ?_) _ s
    split <;> simp
  unfold State.opMemRead
  generalize s.legSlot i token = b
  split
  · rfl
  · rcases b with _ | ⟨p, _, _⟩
    · simp
    · dsimp only
      split <;> simp [hbeats]

@[simp] theorem State.queueAt_kvStore (s : State) (p c : Nat) (r : StreamRec) (first t : Nat) (tail : Bool) (src : Bytes) (j : Nat) :
    (s.kvStore p c r first t tail src).queueAt j = s.queueAt j := by
  unfold State.kvStore
  extract_lets e place com sel pg n
  split
  · refine State.queueAt_foldl (fun u i => ?_) _ s
    exact State.queueAt_foldl (fun _ _ => by rfl) _ u
  · split
    · exact State.queueAt_foldl (fun _ _ => by rfl) _ s
    · refine State.queueAt_foldl (fun u i => ?_) _ s
      exact State.queueAt_foldl (fun _ _ => by rfl) _ u

@[simp] theorem State.queueAt_writeTokens (s : State) (i : Nat) (slot : Option (Nat × Nat × Nat)) (r : StreamRec) (token : Nat) (data : Bytes) (j : Nat) :
    (s.writeTokens i slot r token data).queueAt j = s.queueAt j := by
  have hrefused (u : State) (p : Nat) : (u.kvRefused i p).queueAt j = u.queueAt j := by simp [State.kvRefused]
  unfold State.writeTokens
  extract_lets e first tail t
  split
  · rfl
  · extract_lets prov pages u
    split
    · exact hrefused s _
    · split
      · exact hrefused s _
      · split
        · simp [u, State.setProvisional]
        · simp [u]

@[simp] theorem State.queueAt_opMemWrite (s : State) (i stream addr bytes token j : Nat) :
    (s.opMemWrite i stream addr bytes token).queueAt j = s.queueAt j := by
  unfold State.opMemWrite
  split <;> simp

@[simp] theorem State.queueAt_opPortSend (s : State) (i : Nat) (e : OpEnv) (port cls part dest : Nat) (ctr : Option Nat) (src dst bytes j : Nat) :
    (s.opPortSend i e port cls part dest ctr src dst bytes).queueAt j = s.queueAt j := by
  have hport (u : State) (data : Bytes) (bad : Bool) : (u.portBytes i port cls part dest ctr dst data bad).queueAt j = u.queueAt j := by
    unfold State.portBytes
    dsimp only
    repeat' split
    all_goals rfl
  simp [State.opPortSend, hport]

@[simp] theorem State.queueAt_opBarrier (s : State) (i : Nat) (h : OpHdr) (id n j : Nat) : (s.opBarrier i h id n).queueAt j = s.queueAt j := by
  unfold State.opBarrier
  extract_lets core p me
  split
  · rfl
  · extract_lets t rest arr m u
    have ht : t.queueAt j = s.queueAt j := by
      simp only [t]
      split <;> simp
    split
    · exact ht
    · refine (State.queueAt_foldl (fun v a => ?_) _ u).trans ht
      split <;> simp

/-- No operation's effect touches the unit queues. -/
@[simp] theorem State.queueAt_startEffect (s : State) (i : Nat) (q : RunOp) (j : Nat) : (s.startEffect i q).queueAt j = s.queueAt j := by
  unfold State.startEffect
  split
  case h_3 => exact State.queueAt_setCore (by rfl) j
  case h_6 =>
    extract_lets t u
    have hu : u.queueAt j = s.queueAt j := by
      refine (State.queueAt_onRun t i (fun _ => ?_) j).trans ?_
      · rfl
      · simp [t]
    split <;> simp [hu]
  all_goals simp

/-! An operation begins as it is issued (R148). -/

section
variable (s : State) (site : Nat) (r : LegRun) (o : Op) (rest : List Op) (e : OpEnv)

/-- The issue writes the counter that RESET_CTR names, and SEQ after the last operation. -/
theorem State.onlyFields_afterIssue :
    s.onlyFields (s.afterIssue site r o rest e) [F.CORE_CTR_DATA_VALUE, F.CORE_CTR_DATA_SAT, F.CORE_STATUS_SEQ] := by
  have hrun (q : Option LegRun) : s.onlyFields (s.setRun site q) [F.CORE_CTR_DATA_VALUE, F.CORE_CTR_DATA_SAT, F.CORE_STATUS_SEQ] :=
    State.onlyFields_same (State.onlyFields_refl s _) rfl
  unfold State.afterIssue
  extract_lets t u
  have hu : s.onlyFields u [F.CORE_CTR_DATA_VALUE, F.CORE_CTR_DATA_SAT, F.CORE_STATUS_SEQ] := by
    simp only [u]
    split
    · exact State.onlyFields_setFld (State.onlyFields_setFld (hrun _) (by decide)) (by decide)
    · exact hrun _
  split
  · exact State.onlyFields_setFld hu (by decide)
  · exact hu

/-- Beside the fields it changes the core's leg alone. -/
theorem State.onlyIn_afterIssue : s.onlyIn (s.afterIssue site r o rest e) [.fields, .cores] := by
  have hrun (q : Option LegRun) : s.onlyIn (s.setRun site q) [.fields, .cores] := State.onlyIn_setCore (State.onlyIn_refl s _) (by decide)
  unfold State.afterIssue
  extract_lets t u
  have hu : s.onlyIn u [.fields, .cores] := by
    simp only [u]
    split
    · exact State.onlyIn_setFld (State.onlyIn_setFld (hrun _) (by decide)) (by decide)
    · exact hrun _
  split
  · exact State.onlyIn_setFld hu (by decide)
  · exact hu

theorem State.core_afterIssue (j : Nat) :
    (s.afterIssue site r o rest e).core j =
      (s.setRun site (some { r with toIssue := rest, queued := r.queued ++ [issuedOp r o e], issued := r.issued + 1 })).core j := by
  unfold State.afterIssue
  extract_lets t u
  have hu : u.core j = t.core j := by
    simp only [u]
    split <;> rfl
  split
  · exact hu
  · exact hu

theorem State.samePlaces_afterIssue : s.samePlaces (s.afterIssue site r o rest e) := (s.onlyFields_afterIssue site r o rest e).samePlaces (by decide)

/-- The hampers read as before. -/
theorem State.hamperByte_afterIssue (i a : Nat) : (s.afterIssue site r o rest e).hamperByte i a = s.hamperByte i a := by
  have hgather : ((s.afterIssue site r o rest e).core i).gather = (s.core i).gather := by
    rw [State.core_afterIssue]
    by_cases h : i = site
    · rw [h, State.setRun, State.core_setCore_same]
    · rw [State.setRun, State.core_setCore_ne _ _ h]
  simp only [State.hamperByte, CoreSt.gatherOf, hgather, show (s.afterIssue site r o rest e).hamper = s.hamper from
    s.onlyIn_afterIssue site r o rest e .hamper (by decide)]

/-- What an operation waits for beside its counter stands as before. -/
theorem State.resourceReady_afterIssue (k : OpKind) : (s.afterIssue site r o rest e).resourceReady site k = s.resourceReady site k := by
  have harr (a : Nat) : (s.afterIssue site r o rest e).arr a = s.arr a := State.arr_of_arrays (s.onlyIn_afterIssue site r o rest e .arrays (by decide))
  have hmode (a : Nat) : (s.afterIssue site r o rest e).mode a = s.mode a := (s.onlyFields_afterIssue site r o rest e).fld a (by decide)
  have hchain (table n : Nat) : (s.afterIssue site r o rest e).chainTable site table n = s.chainTable site table n := by
    simp only [State.chainTable, State.hamperRead, State.hamperByte_afterIssue]
  have hcyc : (s.afterIssue site r o rest e).cyc = s.cyc := s.onlyIn_afterIssue site r o rest e .cyc (by decide)
  cases k <;> simp only [State.resourceReady, harr, hmode, hchain, hcyc]

/-- The core as its unit begins the operation: the leg alone has changed. -/
theorem State.core_begun (d : Nat) (b : Bool) :
    (s.begun site r o rest e d b).core site =
      { s.core site with run := some { r with
          toIssue := rest, queued := [], issued := r.issued + 1,
          running := r.running ++ [{ issuedOp r o e with start := s.cyc, dur := d, done := b }] } } := by
  rw [State.begun, State.onUnit, State.setRun, State.core_setCore_same, State.core_afterIssue, State.setRun, State.core_setCore_same,
    s.onlyIn_afterIssue site r o rest e .cyc (by decide)]

theorem State.queueAt_begun (d : Nat) (b : Bool) : (s.begun site r o rest e d b).queueAt site = some [] := by
  rw [State.queueAt, State.core_begun]; rfl

theorem State.onlyFields_begun (d : Nat) (b : Bool) :
    s.onlyFields (s.begun site r o rest e d b) [F.CORE_CTR_DATA_VALUE, F.CORE_CTR_DATA_SAT, F.CORE_STATUS_SEQ] :=
  State.onlyFields_same (s.onlyFields_afterIssue site r o rest e) rfl

end

section
variable {s : State} {core site : Nat} {r : LegRun} {h : OpHdr} {k : OpKind} {rest : List Op} {e : OpEnv} (hhead : s.atHead core site r ⟨h, k⟩ rest)
  (hwords : e.words = [])
include hhead hwords

/-- An operation whose resources are ready and that wakes no other core begins as it is issued; it ends with its duration where its
kind does so, and a product or a barrier does not. -/
theorem State.issue_begins (hready : s.resourceReady site k = true) (hwakes : (s.afterIssue site r ⟨h, k⟩ rest e).wakes site k = []) :
    ∃ d b, s.issue core h e k = (s.begun site r ⟨h, k⟩ rest e d b).startEffect site (issuedOp r ⟨h, k⟩ e) ∧ (k.endsAlone = true → b = true) ∧
      ((∃ arr buf g bank, k = .product arr buf g bank) ∨ (∃ i n, k = .barrier i n) → b = false) := by
  refine s.issue_starts core site r ⟨h, k⟩ rest e hhead hwords (by rw [State.resourceReady_afterIssue]; exact hready) hwakes fun d b => ?_
  have hqueue := (State.queueAt_startEffect (s.begun site r ⟨h, k⟩ rest e d b) site (issuedOp r ⟨h, k⟩ e) site).trans
    (s.queueAt_begun site r ⟨h, k⟩ rest e d b)
  exact Option.map_eq_some_iff.1 hqueue

/-- One that ends with its duration alone. -/
theorem State.issue_endsAlone (hk : k.endsAlone = true) (hready : s.resourceReady site k = true) :
    ∃ d, s.issue core h e k = (s.begun site r ⟨h, k⟩ rest e d true).startEffect site (issuedOp r ⟨h, k⟩ e) := by
  have hwakes : (s.afterIssue site r ⟨h, k⟩ rest e).wakes site k = [] := by cases k <;> first | rfl | cases hk
  obtain ⟨d, b, heq, hb, -⟩ := State.issue_begins hhead hwords hready hwakes
  rw [hb hk] at heq
  exact ⟨d, heq⟩

end

/-- A change of a leg touches no register field. -/
theorem State.fld_onRun (s : State) (site : Nat) (g : LegRun → LegRun) (f : Fld) (i : Nat) : (s.onRun site g).fld f i = s.fld f i := by
  unfold State.onRun
  split <;> rfl

/-- RESET_CTR has set its counter to 0 as it is issued (R144). -/
theorem State.ctr_begun_resetCtr (s : State) (site : Nat) (r : LegRun) (h : OpHdr) (c : Nat) (rest : List Op) (e : OpEnv) (d : Nat) (b : Bool) :
    (s.begun site r ⟨h, .resetCtr c⟩ rest e d b).ctr site c = 0 := by
  have hzero (t : State) : (t.ctrZero site c).ctr site c = 0 := by
    rw [State.ctr, State.ctrZero, State.fld_setFld_of_code _ _ _ _ _ _ (by decide) (by decide) (by decide), State.fld_setFld_same, Nat.zero_mod]
  change (s.afterIssue site r ⟨h, .resetCtr c⟩ rest e).ctr site c = 0
  unfold State.afterIssue
  extract_lets t u
  split
  · rw [State.ctr, State.fld_setFld_of_code _ _ _ _ _ _ (by decide) (by decide) (by decide)]
    exact hzero _
  · exact hzero _

/-- The first arrival at a barrier opens it (R203). -/
theorem State.opBarrier_first {s : State} {site core p : Nat} (h : OpHdr) {id : Nat} (n : Nat) (hcore : (s.siteCore site).getD 0 = core)
    (hp : (s.corePitch core).getD 0 = p) (hnone : (s.net.barriers.find? fun b => b.pitch == p && b.id == id) = none) :
    s.opBarrier site h id n = { s with net := { s.net with barriers := s.net.barriers ++ [⟨p, id, n, [(core, h.incCtr, h.inc)]⟩] } } := by
  unfold State.opBarrier
  simp only [hcore, hp, hnone]

/-- A product on an array in SERVE sets PRODUCT (R94, R106). -/
theorem State.productStart_serve {s : State} {a : Nat} (buf k bank : Nat) (h : s.mode a = modeServe) :
    (s.productStart a buf k bank).flag F.ARR_STATUS_PRODUCT a = true ∧ (s.productStart a buf k bank).mode a = modeServe := by
  unfold State.productStart
  extract_lets x b n p t
  rw [if_neg (by simp [p, h])]
  refine ⟨?_, ?_⟩
  · rw [State.flag, State.fld_setFld_same]; rfl
  · rw [State.mode, State.fld_setFld_of_code _ _ _ _ _ _ (by decide) (by decide) (by decide)]
    exact h

/-- Settles O12: each operation begins as it is issued, and begins with its own effect. -/
theorem coreOperationsStart : Obligations.CoreOperationsStart := by
  unfold Obligations.CoreOperationsStart
  intro s core site r h rest e hcore hwords
  have hnext (t : State) : within (decide (core < coreCount)) t = .next t := within_next (decide_eq_true hcore)
  refine ⟨fun hhead => ?_, fun c hhead => ?_, fun tile hhead => ?_, fun id n hhead hsite hnone => ?_,
    fun mask fmt buf elems scales ref count hhead hready => ?_, fun arr buf k bank hhead hready hserve => ?_, fun n bf16 table hhead hready => ?_⟩
  · obtain ⟨d, heq⟩ := State.issue_endsAlone hhead (e := .quiet) rfl rfl rfl
    exact ⟨d, by rw [exec_nop, hnext, heq]; rfl⟩
  · obtain ⟨d, heq⟩ := State.issue_endsAlone hhead (e := .quiet) rfl rfl rfl
    exact ⟨d, by rw [exec_resetCtr, hnext, heq]; rfl, State.ctr_begun_resetCtr ..⟩
  · obtain ⟨d, heq⟩ := State.issue_endsAlone hhead (e := .quiet) rfl rfl rfl
    refine ⟨d, ?_⟩
    rw [exec_flip, hnext, heq]
    simp only [State.startEffect, issuedOp, State.core_begun]
  · have hplaces := s.samePlaces_afterIssue site r ⟨h, .barrier id n⟩ rest .quiet
    have hissued : (s.afterIssue site r ⟨h, .barrier id n⟩ rest .quiet).net = s.net :=
      s.onlyIn_afterIssue site r ⟨h, .barrier id n⟩ rest .quiet .net (by decide)
    have hwakes : (s.afterIssue site r ⟨h, .barrier id n⟩ rest .quiet).wakes site (.barrier id n) = [] := by
      simp only [State.wakes, hplaces.siteCore, hsite, Option.bind_some, hplaces.corePitch, hissued, hnone]
    obtain ⟨d, b, heq, -, hb⟩ := State.issue_begins hhead (e := .quiet) rfl rfl hwakes
    rw [hb (.inr ⟨id, n, rfl⟩)] at heq
    have hbegun : s.samePlaces (s.begun site r ⟨h, .barrier id n⟩ rest .quiet d false) :=
      (s.onlyFields_begun site r ⟨h, .barrier id n⟩ rest .quiet d false).samePlaces (by decide)
    have hcore' : ((s.begun site r ⟨h, .barrier id n⟩ rest .quiet d false).siteCore site).getD 0 = core := by rw [hbegun.siteCore, hsite]; rfl
    have hnet : (s.begun site r ⟨h, .barrier id n⟩ rest .quiet d false).net = s.net := hissued
    refine ⟨d, ?_⟩
    rw [exec_barrier, hnext, heq]
    simp only [State.startEffect, issuedOp]
    rw [State.opBarrier_first h n hcore' (congrArg (Option.getD · 0) (hbegun.corePitch core)) (by rw [hnet]; exact hnone), hnet]
  · obtain ⟨d, heq⟩ := State.issue_endsAlone hhead hwords rfl hready
    exact ⟨d, by rw [exec_arrayInputLoad, hnext, heq]; rfl⟩
  · obtain ⟨d, b, heq, -, hb⟩ := State.issue_begins hhead (e := .quiet) rfl hready rfl
    rw [hb (.inl ⟨arr, buf, k, bank, rfl⟩)] at heq
    have hbegun : (s.begun site r ⟨h, .product arr buf k bank⟩ rest .quiet d false).mode (16 * site + arr) = modeServe :=
      ((s.onlyFields_begun site r ⟨h, .product arr buf k bank⟩ rest .quiet d false).fld _ (by decide)).trans hserve
    obtain ⟨hflag, hmode⟩ := State.productStart_serve buf k bank hbegun
    refine ⟨d, _, ?_, ?_, rfl⟩
    · rw [exec_product, hnext, heq]
      simp only [State.startEffect, issuedOp]
      rw [if_neg]
      rw [State.mode, State.fld_onRun]
      exact not_not_intro hmode
    · rw [State.flag, State.fld_onRun]
      exact hflag
  · obtain ⟨d, heq⟩ := State.issue_endsAlone hhead hwords rfl hready
    exact ⟨d, by rw [exec_accumulate, hnext, heq]; rfl⟩

/-! A read of memory begins as it is issued, and its end is open until the delivery (R215). -/

/-- At least one turn is left to start operations in. -/
theorem State.restart_eq (s : State) (site : Nat) : ∃ n, s.restart site = State.runWaiting (n + 1) s [site] := by
  unfold State.restart State.restartAll
  exact ⟨_, congrArg (State.runWaiting · s [site]) (Nat.succ_pred_eq_of_pos (by positivity)).symm⟩

/-- What the sequencer issues goes to the queues, from which the units start what they can (R148). -/
theorem State.issue_atHead {s : State} {core site : Nat} {r : LegRun} {h : OpHdr} {k : OpKind} {rest : List Op} (e : OpEnv)
    (hhead : s.atHead core site r ⟨h, k⟩ rest) : s.issue core h e k = (s.afterIssue site r ⟨h, k⟩ rest e).restart site := by
  unfold State.issue
  simp only [hhead.place, hhead.run, hhead.next]
  rw [if_pos (by simp [hhead.seq, hhead.queued])]
  rfl

section
variable {s : State} {core site : Nat} {r : LegRun} {h : OpHdr} {stream addr bytes token : Nat} {rest : List Op} {e : OpEnv}
  (hhead : s.atHead core site r ⟨h, .memRead stream addr bytes token⟩ rest)
include hhead

/-- A MEM_READ of a stream of the itinerary starts with its end open. -/
theorem State.startOp_memRead (hwords : e.words = []) (hstream : (s.streamRec stream).isSome = true) :
    ∃ d, (s.afterIssue site r ⟨h, .memRead stream addr bytes token⟩ rest e).startOp site (issuedOp r ⟨h, .memRead stream addr bytes token⟩ e) =
      (s.begun site r ⟨h, .memRead stream addr bytes token⟩ rest e d false).opMemRead site e stream addr bytes token := by
  have hknown : ((s.afterIssue site r ⟨h, .memRead stream addr bytes token⟩ rest e).streamRec stream).isSome = true := by
    rw [State.streamRec, show (s.afterIssue site r ⟨h, .memRead stream addr bytes token⟩ rest e).frame = s.frame from
      s.onlyIn_afterIssue site r _ rest e .frame (by decide)]
    exact hstream
  have hcyc : (s.afterIssue site r ⟨h, .memRead stream addr bytes token⟩ rest e).cyc = s.cyc := s.onlyIn_afterIssue site r _ rest e .cyc (by decide)
  refine ⟨1000 * OpKind.cycles 0 (.memRead stream addr bytes token), ?_⟩
  unfold State.startOp
  rw [State.core_afterIssue, State.setRun, State.core_setCore_same]
  simp [issuedOp, hhead.notReplay, hhead.notSuspect, hhead.queued, hwords, hknown, hcyc, State.hamperErrors, State.startEffect, OpKind.endsAlone,
    State.begun, State.onUnit]

/-- It starts as it is issued. -/
theorem State.issue_memRead (hwords : e.words = []) (hstream : (s.streamRec stream).isSome = true) :
    ∃ d, s.issue core h e (.memRead stream addr bytes token) =
      (s.begun site r ⟨h, .memRead stream addr bytes token⟩ rest e d false).opMemRead site e stream addr bytes token := by
  obtain ⟨d, hstart⟩ := State.startOp_memRead hhead hwords hstream
  have hqueue := (State.queueAt_opMemRead (s.begun site r ⟨h, .memRead stream addr bytes token⟩ rest e d false) site e stream addr bytes token site).trans
    (s.queueAt_begun site r ⟨h, .memRead stream addr bytes token⟩ rest e d false)
  obtain ⟨r', hrun', hqueued'⟩ := Option.map_eq_some_iff.1 hqueue
  obtain ⟨n, hrestart⟩ := (s.afterIssue site r ⟨h, .memRead stream addr bytes token⟩ rest e).restart_eq site
  have hnoWait : h.waitCtr = none := hhead.noWait
  have hnoStart : h.start = none := hhead.noStart
  refine ⟨d, ?_⟩
  rw [State.issue_atHead e hhead, hrestart, State.runWaiting, State.core_afterIssue, State.setRun, State.core_setCore_same]
  have hmay : (s.afterIssue site r ⟨h, .memRead stream addr bytes token⟩ rest e).mayStart site
      { r with toIssue := rest, queued := [issuedOp r ⟨h, .memRead stream addr bytes token⟩ e], issued := r.issued + 1 }
      (issuedOp r ⟨h, .memRead stream addr bytes token⟩ e) = true := by
    simp [State.mayStart, State.waitHolds, issuedOp, hhead.notReplay, State.waitMet, hnoWait, LegRun.unitFree, hhead.running, State.offsetReached,
      hnoStart]
  have hhold : (s.afterIssue site r ⟨h, .memRead stream addr bytes token⟩ rest e).resourceReady site
      (issuedOp r ⟨h, .memRead stream addr bytes token⟩ e).op.kind = true := rfl
  simp only [hhead.queued, List.nil_append, heads, List.contains_nil, Bool.false_eq_true, if_false, List.filter_cons, hmay, if_true, List.filter_nil,
    List.find?_cons, hhold, hstart]
  exact State.runWaiting_quiet _ _ _ _ hrun' hqueued'

end

/-- A vector operation's command issues that operation (Table 4-3). -/
theorem exec_vecCommand (op : VecOp) (core : Nat) (h : OpHdr) (e : OpEnv) (flags k a b dst len : Nat) (s : State) :
    exec (vecCommand op core h e flags k a b dst len) s = within (decide (core < coreCount)) (s.issue core h e (.vec op flags k a b dst len)) := by
  cases op <;> rfl

/-- Settles O13: every operation but a read ends with its duration alone, so it begins as it is issued; a read begins with its end open. -/
theorem unitOperationsStart : Obligations.UnitOperationsStart := by
  unfold Obligations.UnitOperationsStart
  intro s core site r h rest e hcore hwords
  have hnext (t : State) : within (decide (core < coreCount)) t = .next t := within_next (decide_eq_true hcore)
  have hissue {k : OpKind} (hhead : s.atHead core site r ⟨h, k⟩ rest) (hk : k.endsAlone = true) (hready : s.resourceReady site k = true) :
      ∃ d, within (decide (core < coreCount)) (s.issue core h e k) = .next ((s.begun site r ⟨h, k⟩ rest e d true).startEffect site (issuedOp r ⟨h, k⟩ e)) := by
    obtain ⟨d, heq⟩ := State.issue_endsAlone hhead hwords hk hready
    exact ⟨d, by rw [hnext, heq]⟩
  refine ⟨fun m mode fmt inBf16 seed src dst len hhead => hissue hhead rfl rfl, fun x y z m n k32 flags hhead => hissue hhead rfl rfl,
    fun op flags k a b dst len hhead => ?_, fun dest ctr src dst bytes hhead => hissue hhead rfl rfl,
    fun stream addr bytes token hhead hstream => ?_, fun stream addr bytes token hhead => hissue hhead rfl rfl,
    fun port cls part dest ctr src dst bytes hhead => hissue hhead rfl rfl⟩
  · rw [exec_vecCommand]
    exact hissue hhead rfl rfl
  · obtain ⟨d, heq⟩ := State.issue_memRead hhead hwords hstream
    exact ⟨d, by rw [exec_memRead, hnext, heq]⟩

/-! Frames put together. -/

/-- A further update that touches listed components alone. -/
theorem State.onlyIn_then {s t u : State} {ps qs : List Part} (h : s.onlyIn t ps) (hu : t.onlyIn u qs) (hs : ∀ p ∈ qs, p ∈ ps) : s.onlyIn u ps :=
  State.onlyIn_trans h (State.onlyIn_mono hu hs)

/-- A further update that sets listed fields alone. -/
theorem State.onlyFields_then {s t u : State} {fs gs : List Fld} (h : s.onlyFields t fs) (hu : t.onlyFields u gs)
    (hs : ∀ c ∈ gs.map (·.code), c ∈ fs.map (·.code)) : s.onlyFields u fs :=
  State.onlyFields_trans h fun k hk => hu k fun hc => hk (hs _ hc)

/-- An update of other components than the register fields leaves them. -/
theorem State.onlyIn.fields {s t : State} {ps : List Part} (h : s.onlyIn t ps) (hp : Part.fields ∉ ps) : t.fields = s.fields := h .fields hp

theorem State.samePlaces_of_fields {s t : State} (h : t.fields = s.fields) : s.samePlaces t := fun f _ i => State.fld_of_fields h f i

/-! What writes to a hamper leave: everything but the gather buffer, the banks and the marks of bad lines (R142, R143, R201). -/

theorem State.onlyIn_flushGather (s : State) (site : Nat) (p : GEntry → Bool) : s.onlyIn (s.flushGather site p) [.hamper, .cores] :=
  State.onlyIn_setCore (fun q hq => by cases q <;> first | rfl | exact absurd (by decide) hq) (by decide)

theorem State.onlyIn_bankWrite (s : State) (site a : Nat) (bs : Bytes) : s.onlyIn (s.bankWrite site a bs) [.hamper] :=
  fun q hq => by cases q <;> first | rfl | exact absurd (by decide) hq

theorem State.onlyIn_cleanLines (s : State) (site : Nat) (ls : List Nat) : s.onlyIn (s.cleanLines site ls) [.net] :=
  fun q hq => by cases q <;> first | rfl | exact absurd (by decide) hq

theorem State.onlyIn_gatherLine (s : State) (site line off : Nat) (bs : Bytes) : s.onlyIn (s.gatherLine site line off bs) [.hamper, .cores] := by
  unfold State.gatherLine
  extract_lets c oldest t c' old merged e u
  have ht : s.onlyIn t [.hamper, .cores] := by
    simp only [t]
    split
    · exact State.onlyIn_refl s _
    · split
      · exact State.onlyIn_refl s _
      · exact s.onlyIn_flushGather site _
  have hu : s.onlyIn u [.hamper, .cores] := State.onlyIn_setCore ht (by decide)
  split
  · exact State.onlyIn_trans hu (u.onlyIn_flushGather site _)
  · exact hu

theorem State.onlyIn_gatherPiece (s : State) (site a : Nat) (bs : Bytes) (l : Nat) : s.onlyIn (s.gatherPiece site a bs l) [.hamper, .cores, .net] := by
  unfold State.gatherPiece
  extract_lets lo hi part c
  split
  · exact State.onlyIn_refl s _
  · split
    · exact State.onlyIn_then (State.onlyIn_then (State.onlyIn_setCore (State.onlyIn_refl s _) (by decide)) (State.onlyIn_bankWrite _ site lo part) (by decide))
        (State.onlyIn_cleanLines _ site [l]) (by decide)
    · exact State.onlyIn_then (State.onlyIn_then (State.onlyIn_refl s _) (s.onlyIn_gatherLine site l _ part) (by decide)) (State.onlyIn_cleanLines _ site [l]) (by decide)

theorem State.onlyIn_gatherWrite (s : State) (site a : Nat) (bs : Bytes) : s.onlyIn (s.gatherWrite site a bs) [.hamper, .cores, .net] := by
  rw [State.gatherWrite_eq]
  exact State.onlyIn_foldl (fun t l => t.onlyIn_gatherPiece site a bs l) _ s

theorem State.onlyIn_deliver (s : State) (site addr : Nat) (data : Bytes) (bad : Bool) : s.onlyIn (s.deliver site addr data bad) [.hamper, .cores, .net] := by
  unfold State.deliver
  extract_lets t ls u
  have hu : s.onlyIn u [.hamper, .cores, .net] := State.onlyIn_then (s.onlyIn_gatherWrite site addr data) (t.onlyIn_flushGather site _) (by decide)
  split
  · exact State.onlyIn_trans hu fun q hq => by cases q <;> first | rfl | exact absurd (by decide) hq
  · exact hu

@[simp] theorem State.queueAt_deliver (s : State) (i addr : Nat) (data : Bytes) (bad : Bool) (j : Nat) : (s.deliver i addr data bad).queueAt j = s.queueAt j := by
  unfold State.deliver
  extract_lets t ls u
  have hu : u.queueAt j = s.queueAt j := by simp [u, t]
  split
  · exact hu
  · exact hu

/-! Counters (R144, R145). -/

/-- The fields that a suspect mark sets (R151). -/
def suspectFlds : List Fld := [F.CORE_SUSPECT_LEG, F.CORE_SUSPECT_FRAME, F.CORE_SUSPECT_CAUSE, F.CORE_SUSPCNT]

theorem State.onlyFields_markSuspect (s : State) (site bit : Nat) (mem : Bool) : s.onlyFields (s.markSuspect site bit mem) suspectFlds := by
  unfold State.markSuspect
  extract_lets c
  split
  · exact State.onlyFields_refl s _
  · next r hr =>
    extract_lets first cause r' t1 t2 t3 core t4
    have h1 : s.onlyFields t1 suspectFlds := State.onlyFields_setCore (State.onlyFields_refl s _)
    have h2 : s.onlyFields t2 suspectFlds := by
      simp only [t2]
      split
      · exact h1
      · exact State.onlyFields_setFld (State.onlyFields_setFld h1 (by decide)) (by decide)
    have h3 : s.onlyFields t3 suspectFlds := by
      simp only [t3]
      split
      · exact h2
      · exact State.onlyFields_setFld h2 (by decide)
    split
    · exact State.onlyFields_same (State.onlyFields_count h3 (by decide)) rfl
    · exact h3

theorem State.onlyIn_unitError (s : State) (kind index cause n : Nat) : s.onlyIn (s.unitError kind index cause n) [.hist] := by
  unfold State.unitError
  split
  · exact State.onlyIn_refl s _
  · exact fun q hq => by cases q <;> first | rfl | exact absurd (by decide) hq

/-- A counter increased holds the sum, or is full. -/
theorem State.ctr_ctrInc (s : State) (site k n : Nat) : (s.ctrInc site k n).ctr site k = min (s.ctr site k + n) 0xFFFFFF := by
  unfold State.ctrInc
  extract_lets v t
  split
  · next h =>
    rw [State.ctr, State.fld_setFld_same, Nat.min_eq_left h]
    exact Nat.mod_eq_of_lt (Nat.lt_succ_of_le h)
  · next h =>
    have ht : t.fld F.CORE_CTR_DATA_VALUE (ctrAt site k) = 0xFFFFFF := by
      simp only [t]
      rw [State.fld_setFld_of_code _ _ _ _ _ _ (by decide) (by decide) (by decide), State.fld_setFld_same]
      rfl
    rw [State.ctr, State.fld_raiseRow _ _ _ _ _ (by decide) (by decide), (State.onlyFields_markSuspect _ site causeSync false).fld _ (by decide),
      State.fld_of_fields ((t.onlyIn_unitError 1 site (2 ^ causeSync) 1).fields (by decide)), ht]
    exact (Nat.min_eq_right (Nat.le_of_not_le h)).symm

/-! Completions. -/

/-- The end of an operation fills buffers and has the taster copy its input (R125, R156). -/
theorem State.onlyFields_endEffect (s : State) (site : Nat) (q : RunOp) : s.onlyFields (s.endEffect site q) [F.TST_STATUS_TASTING, F.TST_STATUS_TSLOT] := by
  have hdone (mask buf : Nat) : s.onlyFields (s.loadDone site mask buf) [F.TST_STATUS_TASTING, F.TST_STATUS_TSLOT] :=
    State.onlyFields_foldl (fun t _ => State.onlyFields_setArr (State.onlyFields_refl t _)) _ s
  unfold State.endEffect
  split
  · unfold State.tasteCopy
    split
    · split
      · extract_lets
        split
        · exact State.onlyFields_setFld (State.onlyFields_setFld (State.onlyFields_setCore (hdone _ _)) (by decide)) (by decide)
        · exact hdone _ _
      · exact hdone _ _
    · exact hdone _ _
  · exact State.onlyFields_refl s _

@[simp] theorem State.queueAt_endEffect (s : State) (i : Nat) (q : RunOp) (j : Nat) : (s.endEffect i q).queueAt j = s.queueAt j := by
  have hdone (mask buf : Nat) : (s.loadDone i mask buf).queueAt j = s.queueAt j := State.queueAt_foldl (fun _ _ => by rfl) _ s
  unfold State.endEffect
  split
  · unfold State.tasteCopy
    split
    · next r hr =>
      split
      · extract_lets
        split
        · exact (State.queueAt_setCore (by rw [hr]; rfl) j).trans (hdone _ _)
        · exact hdone _ _
      · exact hdone _ _
    · exact hdone _ _
  · rfl

/-- An operation but a barrier increases its counter, if it names one (R144). -/
theorem State.ownInc_eq (s : State) (site : Nat) {q : RunOp} (inReplay : Bool) (hq : ∀ id n, q.op.kind ≠ .barrier id n) :
    s.ownInc site q inReplay = match q.op.hdr.incCtr with | some k => s.ctrInc site k q.op.hdr.inc | none => s := by
  unfold State.ownInc
  split
  · next h _ => exact absurd h (hq _ _)
  · next h _ => rw [h]
  · next h => rw [h]

/-- An operation whose time has passed, and which waits for nothing else, completes on a core where nothing waits. -/
theorem State.complete_eq {s : State} {site idx : Nat} {r : LegRun} {q : RunOp} (hquiet : s.unitsQuiet site) (hrun : (s.core site).run = some r)
    (hfind : r.running.find? (fun q => q.idx == idx) = some q) (hdone : q.done = true) (htime : q.start + q.dur ≤ s.cyc)
    (hq : ∀ id n, q.op.kind ≠ .barrier id n) :
    s.complete site idx = ((s.setRun site (some { r with running := r.running.filter fun x => x.idx != idx })).endEffect site q).ownInc site q r.replay.isSome := by
  have hopDone : s.opDone site q = true := by
    unfold State.opDone
    split
    · next h => exact absurd h (hq _ _)
    · exact hdone
  unfold State.complete
  simp only [hrun, hfind]
  rw [if_pos (by simp [hopDone, htime])]
  refine State.restart_quiet (State.unitsQuiet_of_queueAt ?_ hquiet)
  rw [State.ownInc_eq _ _ _ hq]
  have hset : (s.setRun site (some { r with running := r.running.filter fun x => x.idx != idx })).queueAt site = s.queueAt site :=
    State.queueAt_setCore (by rw [hrun]; rfl) site
  split <;> simp [hset]

/-- A remote increment of this frame and pitch on a quiet core (R146). -/
theorem State.remoteInc_eq {s : State} {core site ctr inc frame pitch : Nat} (hframe : frame = s.frame.number) (hsite : s.coreSite core = some site) (hquiet : s.unitsQuiet site)
    (hclear : s.clearing site = false) (hpitch : s.corePitch core = some pitch) :
    s.remoteInc core ctr inc frame pitch = s.ctrInc site ctr inc := by
  unfold State.remoteInc
  simp only [State.liveSite, hsite, hclear, Bool.false_eq_true, if_false]
  rw [if_neg (not_not_intro hpitch), if_neg (not_not_intro hframe)]
  exact State.restart_quiet (State.unitsQuiet_of_queueAt (by simp) hquiet)

/-- Settles O15: each completion does its own work, and on a quiet core nothing else starts. -/
theorem completionsReachTheCore : Obligations.CompletionsReachTheCore := by
  unfold Obligations.CompletionsReachTheCore
  intro s core site hcore hsite hquiet
  have hnext (t : State) : within (decide (core < coreCount)) t = .next t := within_next (decide_eq_true hcore)
  refine ⟨fun idx r q hrun hfind hdone htime hq => ?_, fun i x k hx hxcore hclear hpitch hread hctr hframe => ?_,
    fun ctr inc frame pitch hctr hclear hpitch => ⟨fun hf => ?_, fun hf => ?_⟩, fun line => ?_⟩
  · intro u
    have hexec : exec (.operationComplete core idx) s = .next (u.ownInc site q r.replay.isSome) := by
      rw [exec_operationComplete, hnext, hsite]
      exact congrArg _ (State.complete_eq hquiet hrun hfind hdone htime hq)
    rw [State.ownInc_eq _ _ _ hq] at hexec
    have hctr (k : Nat) : u.ctr site k = s.ctr site k := (State.onlyFields_endEffect _ site q).fld _ (by decide)
    refine ⟨_, hexec, fun hnone => by rw [hnone], fun k hk => ?_⟩
    rw [hk, State.ctr_ctrInc, hctr]
    exact ⟨rfl, rfl⟩
  · subst hxcore
    have hmoved : s.samePlaces { s with net := { s.net with transfers := s.net.transfers.eraseIdx i } } := State.samePlaces_of_fields rfl
    have hdeliver := State.onlyIn_deliver { s with net := { s.net with transfers := s.net.transfers.eraseIdx i } } site x.addr x.data x.bad
    have hplaces := hmoved.trans (State.samePlaces_of_fields (hdeliver.fields (by decide)))
    have hframe' : (State.deliver { s with net := { s.net with transfers := s.net.transfers.eraseIdx i } } site x.addr x.data x.bad).frame = s.frame :=
      hdeliver .frame (by decide)
    rw [exec_transferComplete]
    refine congrArg _ ?_
    unfold State.transferEnds
    simp only [hx, State.liveSite, hmoved.coreSite, hsite, hread, hctr]
    rw [show State.clearing { s with net := { s.net with transfers := s.net.transfers.eraseIdx i } } site = false from hclear]
    simp only [Bool.false_eq_true, if_false]
    rw [if_neg (not_not_intro ((hmoved.corePitch _).trans hpitch))]
    refine State.remoteInc_eq (by rw [hframe', hframe]) ((hplaces.coreSite _).trans hsite) (State.unitsQuiet_of_queueAt ((State.queueAt_deliver ..).trans rfl) hquiet) ?_
      ((hplaces.corePitch _).trans hpitch)
    rw [State.clearing, State.flag, State.fld_of_fields (hdeliver.fields (by decide))]
    exact hclear
  · rw [exec_remoteIncrement, within_next (by simp [coreCount, hcore, hctr]), State.remoteInc_eq hf hsite hquiet hclear hpitch]
  · rw [exec_remoteIncrement, within_next (by simp [coreCount, hcore, hctr])]
    simp only [State.remoteInc, State.liveSite, hsite, hclear, hpitch, Bool.false_eq_true, if_false, ne_eq, not_true_eq_false, hf, not_false_eq_true, if_true]
  · refine ⟨s.gatherIdle site line, ?_, s.onlyIn_flushGather site _, fun j hj => State.core_setCore_ne _ _ hj, ?_, rfl⟩
    · rw [exec_gatherFlushIdle, hnext, hsite]
    · rw [State.gatherIdle, State.flushGather, State.core_setCore_same]

end Sys2Proof.Machine

/-!
PROOFS of the statements on legs, cribs, replays and clears (04_core R149 to R161; 11_resolution R351 to R362).
-/

namespace Sys2Proof.Machine

/-! Updates of one core: which components, which register fields. -/

/-- `t` differs from `s` in the components `ps` alone, of the register fields in `fs` alone, of the cores in the one at `site` alone. -/
structure State.actsAt (s t : State) (site : Nat) (ps : List Part) (fs : List Fld) : Prop where
  parts : s.onlyIn t ps
  flds : s.onlyFields t fs
  cores : s.onlyCore t site

/-- The state changed in other components than the register fields and the cores. -/
theorem State.onlyIn.actsAt {s t : State} {ps qs : List Part} (h : s.onlyIn t qs) (hq : Part.fields ∉ qs ∧ Part.cores ∉ qs) (hs : ∀ p ∈ qs, p ∈ ps)
    (site : Nat) (fs : List Fld) : s.actsAt t site ps fs where
  parts := State.onlyIn_mono h hs
  flds := State.onlyFields_same (State.onlyFields_refl s _) (h.fields hq.1)
  cores := fun j _ => by
    have hc : t.cores = s.cores := h .cores hq.2
    rw [State.core, hc]; rfl

section
variable {s t u : State} {site : Nat} {ps : List Part} {fs : List Fld}

theorem State.actsAt_refl (s : State) (site : Nat) (ps : List Part) (fs : List Fld) : s.actsAt s site ps fs :=
  ⟨State.onlyIn_refl s ps, State.onlyFields_refl s fs, fun _ _ => rfl⟩

theorem State.actsAt_trans (h : s.actsAt t site ps fs) (h' : t.actsAt u site ps fs) : s.actsAt u site ps fs :=
  ⟨State.onlyIn_trans h.parts h'.parts, State.onlyFields_trans h.flds h'.flds, fun j hj => (h'.cores j hj).trans (h.cores j hj)⟩

/-- An update of fewer components and fields. -/
theorem State.actsAt.mono {qs : List Part} {gs : List Fld} (h : s.actsAt t site qs gs) (hp : ∀ p ∈ qs, p ∈ ps)
    (hf : ∀ c ∈ gs.map (·.code), c ∈ fs.map (·.code)) : s.actsAt t site ps fs :=
  ⟨State.onlyIn_mono h.parts hp, State.onlyFields_then (State.onlyFields_refl s fs) h.flds hf, h.cores⟩

theorem State.actsAt_then {qs : List Part} {gs : List Fld} (h : s.actsAt t site ps fs) (h' : t.actsAt u site qs gs) (hp : ∀ p ∈ qs, p ∈ ps)
    (hf : ∀ c ∈ gs.map (·.code), c ∈ fs.map (·.code)) : s.actsAt u site ps fs := State.actsAt_trans h (h'.mono hp hf)

theorem State.actsAt_setFld {f : Fld} {v i : Nat} (h : s.actsAt t site ps fs) (hp : Part.fields ∈ ps) (hf : f.code % 1024 ∈ fs.map (·.code)) :
    s.actsAt (t.setFld f v i) site ps fs := ⟨State.onlyIn_setFld h.parts hp, State.onlyFields_setFld h.flds hf, h.cores⟩

theorem State.actsAt_setFlag {f : Fld} {b : Bool} {i : Nat} (h : s.actsAt t site ps fs) (hp : Part.fields ∈ ps) (hf : f.code % 1024 ∈ fs.map (·.code)) :
    s.actsAt (t.setFlag f b i) site ps fs := State.actsAt_setFld h hp hf

theorem State.actsAt_count {f : Fld} {n i : Nat} (h : s.actsAt t site ps fs) (hp : Part.fields ∈ ps) (hf : f.code % 1024 ∈ fs.map (·.code)) :
    s.actsAt (t.count f n i) site ps fs := State.actsAt_setFld h hp hf

theorem State.actsAt_setArr {a : Nat} {x : ArrSt} (h : s.actsAt t site ps fs) (hp : Part.arrays ∈ ps) : s.actsAt (t.setArr a x) site ps fs :=
  ⟨State.onlyIn_setArr h.parts hp, State.onlyFields_setArr h.flds, h.cores⟩

theorem State.actsAt_setCore {c : CoreSt} (h : s.actsAt t site ps fs) (hp : Part.cores ∈ ps) : s.actsAt (t.setCore site c) site ps fs :=
  ⟨State.onlyIn_setCore h.parts hp, State.onlyFields_setCore h.flds, fun j hj => (State.core_setCore_ne t c hj).trans (h.cores j hj)⟩

theorem State.actsAt_foldl {α : Type} {f : State → α → State} (hf : ∀ (t : State) x, t.actsAt (f t x) site ps fs) (l : List α) (s : State) :
    s.actsAt (l.foldl f s) site ps fs := by
  induction l generalizing s with
  | nil => exact State.actsAt_refl s site ps fs
  | cons x l ih => exact State.actsAt_trans (hf s x) (ih (f s x))

/-- An update of one core leaves what the other components hold. -/
theorem State.actsAt.fld (h : s.actsAt t site ps fs) {f : Fld} (i : Nat) (hf : f.code % 1024 ∉ fs.map (·.code)) : t.fld f i = s.fld f i :=
  h.flds.fld i hf

end

/-- A turn of a crib slot sets the core's crib and the registers that show it. -/
theorem State.actsAt_setSlot (s : State) (site slot : Nat) (x : CribSlot) :
    s.actsAt (s.setSlot site slot x) site [.fields, .cores] [F.TST_CRIB_VALID, F.TST_STATUS_VALID] :=
  State.actsAt_setFld (State.actsAt_setFlag (State.actsAt_setCore (State.actsAt_refl s site _ _) (by decide)) (by decide) (by decide)) (by decide) (by decide)

/-! The clear of a core (R160, R161). -/

/-- Keys kept by a test on the key stay, the others are unlisted. -/
theorem SMap.find?_filter_key {α : Type} (p : Nat → Bool) (m : SMap α) (k : Nat) :
    SMap.find? (m.filter fun e => p e.1) k = if p k then SMap.find? m k else none := by
  induction m with
  | nil => simp
  | cons e m ih =>
    obtain ⟨j, v⟩ := e
    by_cases hj : j = k
    · subst hj
      cases hp : p j <;> simp [SMap.find?, hp, ih]
    · cases hp : p j <;> simp [SMap.find?, hp, hj, ih]

/-- Cleared bytes read 0, the others as before. -/
theorem Memory.byte_clear (m : Memory) (a n k : Nat) : Memory.byte (Memory.clear m a n) k = if a ≤ k ∧ k < a + n then 0 else Memory.byte m k := by
  unfold Memory.byte Memory.clear SMap.dropRange SMap.get
  rw [SMap.find?_filter_key fun j => !(decide (a ≤ j) && decide (j < a + n))]
  by_cases hk : a ≤ k ∧ k < a + n
  · simp [hk]
  · rw [if_neg hk, if_pos (by simp; omega)]

/-- An array with nothing in its buffers. -/
def ArrSt.emptied (x : ArrSt) : ArrSt := { x with in0 := .empty, in1 := .empty, out0 := .empty, out1 := .empty }

/-- The buffers of the arrays of a core emptied (R160). -/
def State.emptyArrays (s : State) (site : Nat) : State :=
  (List.range 16).foldl (fun s a => s.setArr (16 * site + a) (s.arr (16 * site + a)).emptied) s

theorem State.arr_emptyArrays (s : State) {site a : Nat} (ha : a < 16) : (s.emptyArrays site).arr (16 * site + a) = (s.arr (16 * site + a)).emptied := by
  refine foldl_mem (fun t : State => (t.arr (16 * site + a)).emptied = (s.arr (16 * site + a)).emptied)
    (fun t => t.arr (16 * site + a) = (s.arr (16 * site + a)).emptied) (fun t b ht => ?_) (fun t ht => ?_) (fun t b hb ht => ?_) (List.mem_range.2 ha) rfl
  · by_cases hb : b = a
    · subst hb; rw [State.arr_setArr_same]; exact ht
    · rw [State.arr_setArr_ne _ _ (by omega)]; exact ht
  · rw [State.arr_setArr_same]; exact ht
  · rw [State.arr_setArr_ne _ _ (by omega)]; exact ht

theorem State.actsAt_emptyArrays (s : State) (site : Nat) : s.actsAt (s.emptyArrays site) site [.arrays] [] :=
  State.actsAt_foldl (fun t _ => State.actsAt_setArr (State.actsAt_refl t site _ _) (by decide)) _ s

/-- Every slot of a crib emptied. -/
def State.emptyCrib (s : State) (site : Nat) : State := (List.range 4).foldl (fun s i => s.setSlot site i .empty) s

theorem State.actsAt_emptyCrib (s : State) (site : Nat) :
    s.actsAt (s.emptyCrib site) site [.fields, .cores] [F.TST_CRIB_VALID, F.TST_STATUS_VALID] :=
  State.actsAt_foldl (fun t i => t.actsAt_setSlot site i .empty) _ s

/-- The fields of the synchronisation counters. -/
def ctrFlds : List Fld := [F.CORE_CTR_DATA_VALUE, F.CORE_CTR_DATA_SAT]

theorem State.actsAt_ctrsZero (s : State) (site : Nat) : s.actsAt (s.ctrsZero site) site [.fields] ctrFlds :=
  State.actsAt_foldl (fun t _ => State.actsAt_setFld (State.actsAt_setFld (State.actsAt_refl t site _ _) (by decide) (by decide)) (by decide) (by decide)) _ s

/-- All 64 counters read 0. -/
theorem State.ctr_ctrsZero (s : State) (site : Nat) {k : Nat} (hk : k < 64) : (s.ctrsZero site).ctr site k = 0 := by
  have hsat (t : State) (v i : Nat) : (t.setFld F.CORE_CTR_DATA_SAT v i).ctr site k = t.ctr site k :=
    State.fld_setFld_of_code _ _ _ _ _ _ (by decide) (by decide) (by decide)
  refine foldl_mem (fun _ => True) (fun t : State => t.ctr site k = 0) (fun _ _ _ => trivial) (fun t _ => ?_) (fun t b hb ht => ?_) (List.mem_range.2 hk) trivial
  · rw [State.ctrZero, hsat, State.ctr, State.fld_setFld_same, Nat.zero_mod]
  · rw [State.ctrZero, hsat, State.ctr, State.fld_setFld_place _ _ _ _ _ (by unfold ctrAt; omega)]
    exact ht

/-- The hamper of a core and the marks of its bad lines cleared. -/
def State.clearBanks (s : State) (site : Nat) : State :=
  { s with hamper := Memory.clear s.hamper (hamperAt site 0) hamperSize, net := { s.net with badLines := SMap.dropRange s.net.badLines (8192 * site) 8192 } }

theorem State.actsAt_clearBanks (s : State) (site : Nat) : s.actsAt (s.clearBanks site) site [.hamper, .net] [] :=
  State.onlyIn.actsAt (qs := [.hamper, .net]) (fun q hq => by cases q <;> first | rfl | exact absurd (by decide) hq) (by decide) (by decide) site _

/-- A core as a clear leaves it. -/
def CoreSt.cleared (c : CoreSt) (now : Nat) : CoreSt :=
  { c with run := none, tiles := 0, gather := [], accStore := [], rotBuf := [], cribs := [], clearStart := some now }

/-- What a clear leaves before it sets the core's record. -/
def State.clearUnits (s : State) (site : Nat) : State := ((s.clearBanks site).emptyCrib site).emptyArrays site

theorem State.actsAt_clearUnits (s : State) (site : Nat) :
    s.actsAt (s.clearUnits site) site [.hamper, .net, .fields, .cores, .arrays] [F.TST_CRIB_VALID, F.TST_STATUS_VALID] :=
  State.actsAt_then (State.actsAt_then ((s.actsAt_clearBanks site).mono (by decide) (by decide)) (State.actsAt_emptyCrib _ site) (by decide) (by decide))
    (State.actsAt_emptyArrays _ site) (by decide) (by decide)

/-- The hamper is cleared by the clear of the banks alone. -/
theorem State.hamper_clearUnits (s : State) (site : Nat) : (s.clearUnits site).hamper = Memory.clear s.hamper (hamperAt site 0) hamperSize :=
  (((s.clearBanks site).emptyCrib site).actsAt_emptyArrays site).parts .hamper (by decide) |>.trans
    (((s.clearBanks site).actsAt_emptyCrib site).parts .hamper (by decide))

theorem State.arr_clearUnits (s : State) {site a : Nat} (ha : a < 16) : (s.clearUnits site).arr (16 * site + a) = (s.arr (16 * site + a)).emptied := by
  rw [State.clearUnits, State.arr_emptyArrays _ ha]
  exact congrArg ArrSt.emptied (State.arr_of_arrays (((s.clearBanks site).actsAt_emptyCrib site).parts .arrays (by decide)))

/-- The state that a clear leaves when it begins (R160). -/
def State.cleared (s : State) (site : Nat) : State :=
  let t := s.clearUnits site
  ((t.setCore site ((t.core site).cleared t.cyc)).ctrsZero site).setFld F.TST_STATUS_TASTING 0 site

theorem State.coreClear_eq {s : State} {site : Nat} (h : s.clearing site = true) (hc : (s.core site).clearStart = none) : s.coreClear site = s.cleared site := by
  unfold State.coreClear
  simp only [h, hc, Bool.not_true, Option.isSome_none, Bool.or_false, Bool.false_eq_true, if_false]
  rfl

/-- Once the hamper, the crib and the buffers are empty, a clear sets the core's record and fields. -/
theorem State.clearUnits_actsAt_cleared (s : State) (site : Nat) :
    (s.clearUnits site).actsAt (s.cleared site) site [.fields, .cores] [F.CORE_CTR_DATA_VALUE, F.CORE_CTR_DATA_SAT, F.TST_STATUS_TASTING] :=
  State.actsAt_setFld (State.actsAt_then (State.actsAt_setCore (State.actsAt_refl _ site _ _) (by decide)) (State.actsAt_ctrsZero _ site) (by decide) (by decide))
    (by decide) (by decide)

theorem State.actsAt_cleared (s : State) (site : Nat) :
    s.actsAt (s.cleared site) site [.hamper, .net, .fields, .cores, .arrays]
      [F.TST_CRIB_VALID, F.TST_STATUS_VALID, F.CORE_CTR_DATA_VALUE, F.CORE_CTR_DATA_SAT, F.TST_STATUS_TASTING] :=
  State.actsAt_then ((s.actsAt_clearUnits site).mono (by decide) (by decide)) (s.clearUnits_actsAt_cleared site) (by decide) (by decide)

theorem State.core_cleared (s : State) (site : Nat) : (s.cleared site).core site = ((s.clearUnits site).core site).cleared s.cyc := by
  have hcyc : (s.clearUnits site).cyc = s.cyc := (s.actsAt_clearUnits site).parts .cyc (by decide)
  have hcores (t : State) : (t.ctrsZero site).core site = t.core site := by
    have : (t.ctrsZero site).cores = t.cores := (t.actsAt_ctrsZero site).parts .cores (by decide)
    rw [State.core, this]; rfl
  rw [State.cleared, State.core_setFld, hcores, State.core_setCore_same, hcyc]

theorem State.hamper_cleared (s : State) (site : Nat) : (s.cleared site).hamper = Memory.clear s.hamper (hamperAt site 0) hamperSize := by
  rw [← State.hamper_clearUnits]
  exact (s.clearUnits_actsAt_cleared site).parts .hamper (by decide)

theorem State.arr_cleared (s : State) {site a : Nat} (ha : a < 16) : (s.cleared site).arr (16 * site + a) = (s.arr (16 * site + a)).emptied := by
  rw [← State.arr_clearUnits s ha]
  exact State.arr_of_arrays ((s.clearUnits_actsAt_cleared site).parts .arrays (by decide))

theorem State.ctr_cleared (s : State) (site : Nat) {k : Nat} (hk : k < 64) : (s.cleared site).ctr site k = 0 := by
  rw [State.cleared, State.ctr, State.fld_setFld_of_code _ _ _ _ _ _ (by decide) (by decide) (by decide)]
  exact State.ctr_ctrsZero _ site hk

/-- Every byte of the cleared hamper reads 0. -/
theorem State.hamperByte_cleared (s : State) (site a : Nat) : (s.cleared site).hamperByte site a = 0 := by
  by_cases ha : hamperSize ≤ a
  · rw [State.hamperByte, if_pos ha]
  · rw [State.hamperByte_eq _ _ (by omega), State.core_cleared, State.hamper_cleared, Memory.byte_clear, if_pos (by unfold hamperAt; omega)]
    rfl

/-- No byte of another hamper changes. -/
theorem State.onlyHamper_cleared (s : State) (site : Nat) : s.onlyHamper (s.cleared site) site 0 hamperSize := by
  intro j b hb hj
  have hne : j ≠ site := fun h => by have := hj h; omega
  rw [State.hamperByte_eq _ _ hb, State.hamperByte_eq _ _ hb, (s.actsAt_cleared site).cores j hne, State.hamper_cleared, Memory.byte_clear, if_neg]
  intro hrange
  have hplace : hamperAt j b = hamperAt site (hamperAt j b - hamperAt site 0) := by unfold hamperAt at hrange ⊢; omega
  exact hne (hamperAt_inj hb (by unfold hamperAt at hrange ⊢; omega) hplace).1

/-! The end of a clear. -/

/-- The fields that the end of a clear sets beside CORE_STATUS.SEQ. -/
def clearEndFlds : List Fld := [F.CORE_STATUS_CLEARING, F.CORE_CLEARCNT]

/-- A core whose clear is over, before its sequencer is set. -/
def State.clearOver (s : State) (site : Nat) : State :=
  ((s.setCore site { s.core site with clearStart := none }).setFld F.CORE_STATUS_CLEARING 0 site).count F.CORE_CLEARCNT 1 site

theorem State.actsAt_clearOver (s : State) (site : Nat) : s.actsAt (s.clearOver site) site [.fields, .cores] clearEndFlds :=
  State.actsAt_count (State.actsAt_setFld (State.actsAt_setCore (State.actsAt_refl s site _ _) (by decide)) (by decide) (by decide)) (by decide) (by decide)

/-- The sequencer state that the end of a clear sets (R161). -/
def State.seqCleared (s : State) (site : Nat) : Nat :=
  match s.siteCore site with
  | some core => if s.frame.st = FState.running ∧ (s.core site).nextLeg < (s.legsOf core).length then seqArmed else seqIdle
  | none => seqIdle

theorem State.coreClearComplete_eq {s : State} {site c : Nat} (hc : (s.core site).clearStart = some c) (htime : c + 1024000 ≤ s.cyc) :
    s.coreClearComplete site = (s.clearOver site).setFld F.CORE_STATUS_SEQ (s.seqCleared site) site := by
  have hsite : (s.clearOver site).siteCore site = s.siteCore site := ((s.actsAt_clearOver site).flds.samePlaces (by decide)).siteCore site
  unfold State.coreClearComplete
  simp only [hc, Nat.not_lt.2 htime, if_false]
  change (match (s.clearOver site).siteCore site with
    | some core => if s.frame.st = FState.running then (s.clearOver site).seqAfter site core else (s.clearOver site).setFld F.CORE_STATUS_SEQ seqIdle site
    | none => (s.clearOver site).setFld F.CORE_STATUS_SEQ seqIdle site) = _
  rw [hsite, State.seqCleared]
  cases s.siteCore site with
  | none => rfl
  | some core =>
    have hnext : ((s.clearOver site).core site).nextLeg = (s.core site).nextLeg := by
      simp [State.clearOver]
    by_cases hrun : s.frame.st = FState.running
    · simp only [hrun, if_true, true_and, State.seqAfter, hnext]
      rfl
    · simp only [hrun, if_false, false_and]

/-- Settles O22: a clear empties each part of its core in turn; its end sets three fields. -/
theorem coresClear : Obligations.CoresClear := by
  unfold Obligations.CoresClear
  intro s site hsite
  have hnext (t : State) : within (decide (site < siteCount)) t = .next t := within_next (decide_eq_true hsite)
  refine ⟨fun hclear hstart => ?_, fun c hc htime => ?_⟩
  · have hacts := s.actsAt_cleared site
    refine ⟨s.cleared site, by rw [exec_coreClear, hnext, State.coreClear_eq hclear hstart], s.hamperByte_cleared site, fun k hk => s.ctr_cleared site hk, ?_,
      ?_, ?_, ?_, ?_, ?_, fun a ha => ?_, hacts.parts .dram (by decide), hacts.cores, s.onlyHamper_cleared site⟩
    iterate 6 rw [State.core_cleared]; rfl
    rw [State.arr_cleared s ha]
    exact ⟨rfl, rfl, rfl, rfl, rfl⟩
  · have hacts : s.actsAt ((s.clearOver site).setFld F.CORE_STATUS_SEQ (s.seqCleared site) site) site [.fields, .cores] (F.CORE_STATUS_SEQ :: clearEndFlds) :=
      State.actsAt_setFld ((s.actsAt_clearOver site).mono (by decide) (by decide)) (by decide) (by decide)
    have hseq : s.seqCleared site < 2 ^ F.CORE_STATUS_SEQ.width := by
      unfold State.seqCleared
      split
      · split <;> decide
      · decide
    refine ⟨_, by rw [exec_coreClearComplete, hnext, State.coreClearComplete_eq hc htime], ?_, ?_, ?_, fun hidle => ?_, fun core hrun hcore => ?_, hacts.parts, hacts.cores⟩
    · rw [State.fld_setFld_of_code _ _ _ _ _ _ (by decide) (by decide) (by decide), State.clearOver,
        State.fld_count_of_code _ _ _ _ _ _ (by decide) (by decide) (by decide), State.fld_setFld_same, Nat.zero_mod]
    · rw [State.fld_setFld_of_code _ _ _ _ _ _ (by decide) (by decide) (by decide), State.clearOver, State.fld_count_same,
        State.fld_setFld_of_code _ _ _ _ _ _ (by decide) (by decide) (by decide), State.fld_setCore]
    · simp [State.clearOver]
    · rw [State.fld_setFld_same, Nat.mod_eq_of_lt hseq, State.seqCleared]
      rcases hidle with hidle | hidle
      · split <;> simp [hidle]
      · rw [hidle]
    · rw [State.fld_setFld_same, Nat.mod_eq_of_lt hseq, State.seqCleared, hcore]
      simp [hrun]

/-! The registers of the crib (R152 to R154, Table 4-14). -/

/-- The fields of CRIB_STAT. -/
def cribStatFlds : List Fld := [F.TST_CRIB_STAT_RESULT, F.TST_CRIB_STAT_OP, F.TST_CRIB_STAT_SLOT, F.TST_CRIB_STAT_DONE]

theorem State.actsAt_cribStat (s : State) (site op slot result : Nat) (done : Bool) :
    s.actsAt (s.cribStat site op slot result done) site [.fields] cribStatFlds :=
  State.actsAt_setFlag (State.actsAt_setFld (State.actsAt_setFld (State.actsAt_setFld (State.actsAt_refl s site _ _) (by decide) (by decide))
    (by decide) (by decide)) (by decide) (by decide)) (by decide) (by decide)

/-- CRIB_STAT of a core shows an operation, its slot, its result and whether it is done. -/
structure State.cribShows (s : State) (site op slot result : Nat) (done : Bool) : Prop where
  op : s.fld F.TST_CRIB_STAT_OP site = op
  slot : s.fld F.TST_CRIB_STAT_SLOT site = slot
  result : s.fld F.TST_CRIB_STAT_RESULT site = result
  done : s.fld F.TST_CRIB_STAT_DONE site = if done then 1 else 0

theorem State.cribShows_cribStat (s : State) (site op slot result : Nat) (done : Bool) :
    (s.cribStat site op slot result done).cribShows site (op % 4) (slot % 4) (result % 256) done where
  op := by
    rw [State.cribStat, State.fld_setFlag_of_code _ _ _ _ _ _ (by decide) (by decide) (by decide),
      State.fld_setFld_of_code _ _ _ _ _ _ (by decide) (by decide) (by decide), State.fld_setFld_same]
    rfl
  slot := by
    rw [State.cribStat, State.fld_setFlag_of_code _ _ _ _ _ _ (by decide) (by decide) (by decide), State.fld_setFld_same]
    rfl
  result := by
    rw [State.cribStat, State.fld_setFlag_of_code _ _ _ _ _ _ (by decide) (by decide) (by decide),
      State.fld_setFld_of_code _ _ _ _ _ _ (by decide) (by decide) (by decide), State.fld_setFld_of_code _ _ _ _ _ _ (by decide) (by decide) (by decide),
      State.fld_setFld_same]
    rfl
  done := by
    rw [State.cribStat, State.setFlag, State.fld_setFld_same]
    cases done <;> rfl

/-- An update of other fields leaves what CRIB_STAT shows. -/
theorem State.cribShows.keep {s t : State} {site op slot result : Nat} {done : Bool} (h : s.cribShows site op slot result done) {j : Nat} {ps : List Part}
    {fs : List Fld} (ht : s.actsAt t j ps fs) (hf : cribStatFlds.all (fun f => !(fs.map (·.code)).contains (f.code % 1024)) = true) :
    t.cribShows site op slot result done := by
  have hfld (f : Fld) (hmem : f ∈ cribStatFlds) : t.fld f site = s.fld f site := ht.fld site (by simpa using List.all_eq_true.1 hf f hmem)
  exact ⟨(hfld _ (by simp [cribStatFlds])).trans h.op, (hfld _ (by simp [cribStatFlds])).trans h.slot, (hfld _ (by simp [cribStatFlds])).trans h.result,
    (hfld _ (by simp [cribStatFlds])).trans h.done⟩

/-- A slot set is the slot's record in the core, whose other parts stay. -/
theorem State.core_setSlot (s : State) (site slot : Nat) (x : CribSlot) :
    (s.setSlot site slot x).core site = { s.core site with cribs := SMap.set CribSlot.empty (s.core site).cribs slot x } :=
  State.core_setCore_same ..

/-- CRIB_VALID shows whether the slot is valid. -/
theorem State.valid_setSlot (s : State) (site slot : Nat) (x : CribSlot) :
    (s.setSlot site slot x).fld F.TST_CRIB_VALID (4 * site + slot) = if x.valid then 1 else 0 := by
  rw [State.setSlot, State.fld_setFld_of_code _ _ _ _ _ _ (by decide) (by decide) (by decide), State.setFlag, State.fld_setFld_same]
  cases x.valid <;> rfl

/-- The interrupt edge of a physical row acts on no core. -/
theorem State.actsAt_raiseRow (s : State) (base row site : Nat) : s.actsAt (s.raiseRow base row) site [.fields, .irq] [F.INTC_PEND, F.INTC_MERGECNT] :=
  ⟨s.onlyIn_raiseRow base row, State.onlyFields_raiseHalf (State.onlyFields_refl s _) (by decide) (by decide), fun _ _ => by
    have hc : (s.raiseRow base row).cores = s.cores := s.onlyIn_raiseRow base row .cores (by decide)
    rw [State.core, hc]; rfl⟩

/-- An update that touches no core's record leaves it. -/
theorem State.actsAt.core {s t : State} {site : Nat} {ps : List Part} {fs : List Fld} (h : s.actsAt t site ps fs) (hp : Part.cores ∉ ps) (j : Nat) :
    t.core j = s.core j := by
  have hc : t.cores = s.cores := h.parts .cores hp
  rw [State.core, hc]; rfl

/-! FILL and DROP as they are accepted. -/

/-- A fill that nothing refuses empties its slot and runs from now. -/
def State.fillBegins (s : State) (site slot arr cblock : Nat) : State :=
  let t := s.setSlot site slot .empty
  (t.setCore site { t.core site with fill := some ⟨slot, arr, cblock, s.now⟩ }).cribStat site 1 slot 0 false

theorem State.cribFill_eq {s : State} {site slot arr : Nat} (cblock : Nat) (hdone : s.flag F.TST_CRIB_STAT_DONE site = true)
    (hmode : s.mode (16 * site + arr) = modeMaint) (hidle : s.flag F.ARR_STATUS_BUSY (16 * site + arr) = false) (hfree : s.slotBusy site slot = false) :
    s.cribFill site slot arr cblock = s.fillBegins site slot arr cblock := by
  unfold State.cribFill
  simp only [hdone, hmode, hidle, hfree, Bool.not_true, Bool.false_eq_true, if_false, ne_eq, not_true_eq_false]
  rw [if_neg (by decide)]
  rfl

theorem State.actsAt_fillBegins (s : State) (site slot arr cblock : Nat) :
    s.actsAt (s.fillBegins site slot arr cblock) site [.fields, .cores] ([F.TST_CRIB_VALID, F.TST_STATUS_VALID] ++ cribStatFlds) :=
  State.actsAt_then (State.actsAt_setCore ((s.actsAt_setSlot site slot .empty).mono (by decide) (by decide)) (by decide)) (State.actsAt_cribStat ..)
    (by decide) (by decide)

theorem State.core_fillBegins (s : State) (site slot arr cblock : Nat) :
    (s.fillBegins site slot arr cblock).core site =
      { s.core site with cribs := SMap.set CribSlot.empty (s.core site).cribs slot .empty, fill := some ⟨slot, arr, cblock, s.now⟩ } := by
  rw [State.fillBegins, (State.actsAt_cribStat ..).core (by decide), State.core_setCore_same, State.core_setSlot]

theorem State.valid_fillBegins (s : State) (site slot arr cblock : Nat) : (s.fillBegins site slot arr cblock).fld F.TST_CRIB_VALID (4 * site + slot) = 0 := by
  rw [State.fillBegins, (State.actsAt_cribStat ..).fld _ (by decide), State.fld_setCore]
  exact s.valid_setSlot site slot .empty

/-- DROP on a crib that does nothing else. -/
def State.dropped (s : State) (site slot : Nat) : State := ((s.setSlot site slot .empty).cribStat site 2 slot 0 true).raiseRow irqArray site

theorem State.cribDrop_eq {s : State} {site : Nat} (slot : Nat) (hdone : s.flag F.TST_CRIB_STAT_DONE site = true) : s.cribDrop site slot = s.dropped site slot := by
  rw [State.cribDrop, hdone]
  rfl

theorem State.actsAt_dropped (s : State) (site slot : Nat) :
    s.actsAt (s.dropped site slot) site [.fields, .cores, .irq] ([F.TST_CRIB_VALID, F.TST_STATUS_VALID, F.INTC_PEND, F.INTC_MERGECNT] ++ cribStatFlds) :=
  State.actsAt_then (State.actsAt_then ((s.actsAt_setSlot site slot .empty).mono (by decide) (by decide)) (State.actsAt_cribStat ..) (by decide) (by decide))
    (State.actsAt_raiseRow ..) (by decide) (by decide)

theorem State.core_dropped (s : State) (site slot : Nat) :
    (s.dropped site slot).core site = { s.core site with cribs := SMap.set CribSlot.empty (s.core site).cribs slot .empty } := by
  rw [State.dropped, (State.actsAt_raiseRow _ irqArray site site).core (by decide), (State.actsAt_cribStat ..).core (by decide), State.core_setSlot]

theorem State.valid_dropped (s : State) (site slot : Nat) : (s.dropped site slot).fld F.TST_CRIB_VALID (4 * site + slot) = 0 := by
  rw [State.dropped, (State.actsAt_raiseRow _ irqArray site site).fld _ (by decide), (State.actsAt_cribStat ..).fld _ (by decide)]
  exact s.valid_setSlot site slot .empty

theorem State.cribShows_dropped (s : State) (site slot : Nat) : (s.dropped site slot).cribShows site 2 (slot % 4) 0 true :=
  (State.cribShows_cribStat _ site 2 slot 0 true).keep (State.actsAt_raiseRow _ irqArray site site) (by decide)

/-! The end of a fill (R153). -/

/-- What a fill's end leaves before its block is taken: its array's cells as they were read, no fill running, the row's interrupt raised. -/
def State.fillOver (s : State) (site : Nat) (f : CribFill) (codes : List (Nat × Nat)) : State :=
  let a := 16 * site + f.arr
  ((s.setArr a ((s.arr a).drifted codes)).setCore site { s.core site with fill := none }).raiseRow irqArray site

theorem State.cribFillEnd_eq {s : State} {site : Nat} {f : CribFill} (codes : List (Nat × Nat)) (parity : Bool) (hfill : (s.core site).fill = some f)
    (htime : f.start + (s.arr (16 * site + f.arr)).fillNs ≤ s.now) :
    s.cribFillEnd site codes parity =
      (s.fillOver site f codes).cribTake site f (((s.arr (16 * site + f.arr)).drifted codes).cribBlock f.cblock) parity := by
  unfold State.cribFillEnd
  simp only [hfill, Nat.not_lt.2 htime, if_false]
  rfl

theorem State.actsAt_fillOver (s : State) (site : Nat) (f : CribFill) (codes : List (Nat × Nat)) :
    s.actsAt (s.fillOver site f codes) site [.arrays, .cores, .fields, .irq] [F.INTC_PEND, F.INTC_MERGECNT] :=
  State.actsAt_then (State.actsAt_setCore (State.actsAt_setArr (State.actsAt_refl s site _ _) (by decide)) (by decide)) (State.actsAt_raiseRow ..)
    (by decide) (by decide)

theorem State.core_fillOver (s : State) (site : Nat) (f : CribFill) (codes : List (Nat × Nat)) :
    (s.fillOver site f codes).core site = { s.core site with fill := none } := by
  rw [State.fillOver, (State.actsAt_raiseRow _ irqArray site site).core (by decide), State.core_setCore_same]

/-- A block taken into its slot, with the registers that describe it. -/
def State.slotTaken (s : State) (site : Nat) (f : CribFill) (w : SMap Nat) : State :=
  let t := s.setSlot site f.slot ⟨true, f.arr, f.cblock, w⟩
  let i := 4 * site + f.slot
  ((t.setFld F.TST_CRIB_ARRAY f.arr i).setFld F.TST_CRIB_CBLOCK f.cblock i).setFld F.TST_CRIB_FILLFRAME s.frame.number i

theorem State.actsAt_slotTaken (s : State) (site : Nat) (f : CribFill) (w : SMap Nat) :
    s.actsAt (s.slotTaken site f w) site [.fields, .cores]
      [F.TST_CRIB_VALID, F.TST_STATUS_VALID, F.TST_CRIB_ARRAY, F.TST_CRIB_CBLOCK, F.TST_CRIB_FILLFRAME] :=
  State.actsAt_setFld (State.actsAt_setFld (State.actsAt_setFld ((s.actsAt_setSlot site f.slot _).mono (by decide) (by decide)) (by decide) (by decide))
    (by decide) (by decide)) (by decide) (by decide)

theorem State.core_slotTaken (s : State) (site : Nat) (f : CribFill) (w : SMap Nat) :
    (s.slotTaken site f w).core site =
      { s.core site with cribs := SMap.set CribSlot.empty (s.core site).cribs f.slot ⟨true, f.arr, f.cblock, w⟩ } :=
  s.core_setSlot site f.slot _

theorem State.valid_slotTaken (s : State) (site : Nat) (f : CribFill) (w : SMap Nat) : (s.slotTaken site f w).fld F.TST_CRIB_VALID (4 * site + f.slot) = 1 := by
  rw [State.slotTaken, State.fld_setFld_of_code _ _ _ _ _ _ (by decide) (by decide) (by decide),
    State.fld_setFld_of_code _ _ _ _ _ _ (by decide) (by decide) (by decide), State.fld_setFld_of_code _ _ _ _ _ _ (by decide) (by decide) (by decide)]
  exact s.valid_setSlot site f.slot _

theorem State.cribTake_some (s : State) (site : Nat) (f : CribFill) (w : SMap Nat) :
    s.cribTake site f (some w) false = (s.cribStat site 1 f.slot 0 true).slotTaken site f w := rfl

theorem State.cribTake_none (s : State) (site : Nat) (f : CribFill) (parity : Bool) :
    s.cribTake site f none parity = s.cribStat site 1 f.slot 0x0A true := rfl

/-- Settles O21: each crib command sets its slot, the core's fill and CRIB_STAT; INJECT is judged as a register write of the maker role. -/
theorem cribCommands : Obligations.CribCommands := by
  unfold Obligations.CribCommands
  intro s site slot hsite hslot
  have hnext (t : State) : within (decide (site < siteCount)) t = .next t := within_next (decide_eq_true hsite)
  refine ⟨fun arr cblock harr hcblock hdone hmode hidle hfree => ?_, fun f codes hfill htime => ⟨fun w hw => ?_, fun hgap => ?_⟩, fun hdone => ?_,
    fun fn hfn hbar => ?_⟩
  · have hacts := s.actsAt_fillBegins site slot arr cblock
    have hstat : (s.fillBegins site slot arr cblock).cribShows site 1 (slot % 4) 0 false := State.cribShows_cribStat _ site 1 slot 0 false
    refine ⟨s.fillBegins site slot arr cblock, ?_, by rw [State.core_fillBegins], ?_, s.valid_fillBegins site slot arr cblock, hstat.op,
      hstat.slot.trans (Nat.mod_eq_of_lt hslot), hstat.result, hstat.done, hacts.parts, hacts.cores⟩
    · rw [exec_cribFill, within_next (by simp [siteCount, hsite, hslot, harr, hcblock]), State.cribFill_eq cblock hdone hmode hidle hfree]
    · simp [State.core_fillBegins]
  · have hover := s.actsAt_fillOver site f codes
    have htaken := ((s.fillOver site f codes).cribStat site 1 f.slot 0 true).actsAt_slotTaken site f w
    have hacts : s.actsAt _ site [.arrays, .cores, .fields, .irq] ([F.INTC_PEND, F.INTC_MERGECNT, F.TST_CRIB_VALID, F.TST_STATUS_VALID, F.TST_CRIB_ARRAY,
        F.TST_CRIB_CBLOCK, F.TST_CRIB_FILLFRAME] ++ cribStatFlds) :=
      State.actsAt_then (State.actsAt_then (hover.mono (by decide) (by decide)) (State.actsAt_cribStat _ site 1 f.slot 0 true) (by decide) (by decide)) htaken
        (by decide) (by decide)
    have hstat := (State.cribShows_cribStat (s.fillOver site f codes) site 1 f.slot 0 true).keep htaken (by decide)
    refine ⟨((s.fillOver site f codes).cribStat site 1 f.slot 0 true).slotTaken site f w, ?_, ?_, ?_, State.valid_slotTaken .., hstat.result, hstat.done,
      hacts.cores, hacts.parts .hamper (by decide), hacts.parts .dram (by decide)⟩
    · rw [exec_cribFillEnd, hnext, State.cribFillEnd_eq codes false hfill htime, hw, State.cribTake_some]
    · rw [State.core_slotTaken, (State.actsAt_cribStat ..).core (by decide), State.core_fillOver]
    · simp [State.core_slotTaken]
  · have hacts : s.actsAt _ site [.arrays, .cores, .fields, .irq] ([F.INTC_PEND, F.INTC_MERGECNT] ++ cribStatFlds) :=
      State.actsAt_then ((s.actsAt_fillOver site f codes).mono (by decide) (by decide)) (State.actsAt_cribStat _ site 1 f.slot 0x0A true) (by decide) (by decide)
    have hstat := State.cribShows_cribStat (s.fillOver site f codes) site 1 f.slot 0x0A true
    have hcore : ((s.fillOver site f codes).cribStat site 1 f.slot 0x0A true).core site = { s.core site with fill := none } := by
      rw [(State.actsAt_cribStat ..).core (by decide), State.core_fillOver]
    refine ⟨(s.fillOver site f codes).cribStat site 1 f.slot 0x0A true, ?_, by rw [hcore], by rw [hcore], hstat.result, hstat.done, hacts.cores,
      hacts.parts .hamper (by decide), hacts.parts .dram (by decide)⟩
    rw [exec_cribFillEnd, hnext, State.cribFillEnd_eq codes false hfill htime, hgap, State.cribTake_none]
  · have hacts := s.actsAt_dropped site slot
    have hstat := s.cribShows_dropped site slot
    refine ⟨s.dropped site slot, ?_, ?_, s.valid_dropped site slot, hstat.op, hstat.result, hstat.done, hacts.parts, hacts.cores⟩
    · rw [exec_cribDrop, within_next (by simp [siteCount, hsite, hslot]), State.cribDrop_eq slot hdone]
    · simp [State.core_dropped]
  · have hpath : (Path.ok (.host fn) && decide (site < siteCount)) = true := by simp [Path.ok, hfn, siteCount, hsite]
    refine ⟨fun hrole => ?_, fun hrole => ?_⟩
    · rw [exec_tstInject, within_next hpath]
      simp [State.inject, State.ownWrite, hbar, Nat.not_lt.2 hrole]
      rfl
    · rw [exec_tstInject, within_next hpath]
      simp [State.inject, State.ownWrite, hbar, hrole]

/-! What messages, withheld slots and counts of replays touch: components of the firmware alone (R351, R356, R372). -/

theorem State.onlyIn_sendMsg (s : State) (part type : Nat) (fields : List Nat) (data : Bytes) : s.onlyIn (s.sendMsg part type fields data) [.link] := by
  unfold State.sendMsg
  extract_lets m
  split
  · exact State.onlyIn_refl s _
  · split
    · exact fun q hq => by cases q <;> first | rfl | exact absurd (by decide) hq
    · split <;> exact fun q hq => by cases q <;> first | rfl | exact absurd (by decide) hq

theorem State.onlyIn_countReplay (s : State) (k : Nat) : s.onlyIn (s.countReplay k) [.hist] := by
  unfold State.countReplay
  extract_lets h key
  split
  · exact State.onlyIn_refl s _
  · exact fun q hq => by cases q <;> first | rfl | exact absurd (by decide) hq

theorem State.onlyIn_withholdNotice (s : State) (frame reason : Nat) (slots : List Nat) : s.onlyIn (s.withholdNotice frame reason slots) [.mgr, .link] := by
  unfold State.withholdNotice
  split
  · exact State.onlyIn_refl s _
  · extract_lets own m t
    have ht : s.onlyIn t [.mgr, .link] := fun q hq => by cases q <;> first | rfl | exact absurd (by decide) hq
    split
    · exact fun q hq => by cases q <;> first | rfl | exact absurd (by decide) hq
    · split
      · exact ht
      · exact State.onlyIn_then ht (t.onlyIn_sendMsg _ _ _ _) (by decide)

/-- A leg made dependent touches what the firmware keeps of it (R361). -/
theorem State.onlyIn_makeDependent (s : State) (core leg : Nat) : s.onlyIn (s.makeDependent core leg) [.mgr, .hist, .link] := by
  unfold State.makeDependent
  extract_lets t
  have ht : s.onlyIn t [.mgr, .hist, .link] := fun q hq => by cases q <;> first | rfl | exact absurd (by decide) hq
  exact State.onlyIn_then (State.onlyIn_then ht (t.onlyIn_countReplay 6) (by decide)) (State.onlyIn_withholdNotice _ _ _ _) (by decide)

/-- A change of components beside the cores leaves every core. -/
theorem State.onlyIn.core {s t : State} {ps : List Part} (h : s.onlyIn t ps) (hp : Part.cores ∉ ps) (j : Nat) : t.core j = s.core j := by
  have hc : t.cores = s.cores := h .cores hp
  rw [State.core, hc]; rfl

/-! The start of a leg (R149, R155). -/

/-- A leg of the itinerary as it begins to run: from `start`, nothing issued, nothing running, no suspicion. -/
structure LegRun.fresh (r : LegRun) (idx : Nat) (leg : Leg) (start : Nat) (replay : Option Nat) : Prop where
  toIssue : r.toIssue = leg.ops
  idx : r.idx = idx
  leg : r.leg = leg
  start : r.start = start
  queued : r.queued = []
  running : r.running = []
  cause : r.cause = 0
  replay : r.replay = replay

/-- The taster's choice steps the sampling register or counts an untasted leg. -/
theorem State.tasteChoose_effect (s : State) (site : Nat) (ops : List Op) :
    s.actsAt (s.tasteChoose site ops).1 site [.fields, .cores] [F.TST_UNTASTCNT] ∧
    ∃ v, (s.tasteChoose site ops).1.core site = { s.core site with sampler := v } := by
  unfold State.tasteChoose
  split
  · exact ⟨State.actsAt_count (State.actsAt_refl s site _ _) (by decide) (by decide), _, rfl⟩
  · extract_lets c v t prods cand
    have ht : s.actsAt t site [.fields, .cores] [F.TST_UNTASTCNT] := State.actsAt_setCore (State.actsAt_refl s site _ _) (by decide)
    split
    · exact ⟨State.actsAt_count ht (by decide) (by decide), v, State.core_setCore_same ..⟩
    · exact ⟨ht, v, State.core_setCore_same ..⟩

/-- Whether a leg that begins now is late by a full tick. -/
def State.startsLate (s : State) (leg : Leg) (replay : Option Nat) : Bool :=
  replay.isNone && decide (1000 * leg.hdr.start + s.tickCycles ≤ s.sinceBoundary)

/-- The record of a leg that begins to run. -/
def State.firstRun (s : State) (idx : Nat) (leg : Leg) (replay : Option Nat) (taste : Option Tasting) (late : Bool) : LegRun :=
  { idx := idx, leg := leg, start := s.cyc, toIssue := leg.ops, queued := [], running := [], prods := [], taste := taste, cause := 0, noReplay := false,
    late := late, issued := 0, replay := replay, captured := [] }

/-- A leg begins to run once the taster has chosen. -/
def State.legBegins (s : State) (site idx : Nat) (leg : Leg) (replay : Option Nat) (taste : Option Tasting) : State :=
  let late := s.startsLate leg replay
  let t := if late then s.count F.CORE_LATECNT 1 site else s
  let t := t.setRun site (some (t.firstRun idx leg replay taste late))
  ((t.setFld F.CORE_LEGPOS_LEG idx site).setFld F.CORE_LEGPOS_FRAME t.frame.number site).setFld F.CORE_STATUS_SEQ
    (if leg.ops.isEmpty then seqDrain else seqRun) site

theorem State.beginLeg_eq (s : State) (site idx : Nat) (leg : Leg) (replay : Option Nat) :
    s.beginLeg site idx leg replay = (s.tasteChoose site leg.ops).1.legBegins site idx leg replay (s.tasteChoose site leg.ops).2 := rfl

/-- The fields that the start of a leg sets. -/
def legStartFlds : List Fld := [F.TST_UNTASTCNT, F.CORE_LATECNT, F.CORE_LEGPOS_LEG, F.CORE_LEGPOS_FRAME, F.CORE_STATUS_SEQ]

theorem State.actsAt_lateCount (s : State) (site : Nat) (late : Bool) :
    s.actsAt (if late then s.count F.CORE_LATECNT 1 site else s) site [.fields] [F.CORE_LATECNT] := by
  split
  · exact State.actsAt_count (State.actsAt_refl s site _ _) (by decide) (by decide)
  · exact State.actsAt_refl s site _ _

theorem State.actsAt_legBegins (s : State) (site idx : Nat) (leg : Leg) (replay : Option Nat) (taste : Option Tasting) :
    s.actsAt (s.legBegins site idx leg replay taste) site [.fields, .cores] legStartFlds :=
  State.actsAt_setFld (State.actsAt_setFld (State.actsAt_setFld (State.actsAt_setCore ((s.actsAt_lateCount site _).mono (by decide) (by decide)) (by decide))
    (by decide) (by decide)) (by decide) (by decide)) (by decide) (by decide)

theorem State.actsAt_beginLeg (s : State) (site idx : Nat) (leg : Leg) (replay : Option Nat) :
    s.actsAt (s.beginLeg site idx leg replay) site [.fields, .cores] legStartFlds :=
  State.actsAt_then ((s.tasteChoose_effect site leg.ops).1.mono (by decide) (by decide)) (State.actsAt_legBegins _ site idx leg replay _) (by decide) (by decide)

/-- The core runs the leg from now; beside it only the sampling register may have stepped. -/
theorem State.core_beginLeg (s : State) (site idx : Nat) (leg : Leg) (replay : Option Nat) :
    ∃ r v, r.fresh idx leg s.cyc replay ∧ (s.beginLeg site idx leg replay).core site = { s.core site with run := some r, sampler := v } := by
  obtain ⟨hacts, v, hcore⟩ := s.tasteChoose_effect site leg.ops
  have hcyc : (s.tasteChoose site leg.ops).1.cyc = s.cyc := hacts.parts .cyc (by decide)
  rw [State.beginLeg_eq]
  generalize (s.tasteChoose site leg.ops).2 = taste
  generalize (s.tasteChoose site leg.ops).1 = t at hcore hcyc
  have hlate := t.actsAt_lateCount site (t.startsLate leg replay)
  unfold State.legBegins
  extract_lets late t1 t2
  have hcyc1 : t1.cyc = s.cyc := (hlate.parts .cyc (by decide)).trans hcyc
  refine ⟨t1.firstRun idx leg replay taste late, v, ⟨rfl, rfl, rfl, hcyc1, rfl, rfl, rfl, rfl⟩, ?_⟩
  have hcore1 : t1.core site = { s.core site with sampler := v } := (hlate.core (by decide) site).trans hcore
  exact (State.core_setCore_same t1 site _).trans (by rw [hcore1])

/-- LEGPOS, the sequencer's state and LATECNT at the start of a leg. -/
theorem State.fld_beginLeg (s : State) (site idx : Nat) (leg : Leg) (replay : Option Nat) :
    (s.beginLeg site idx leg replay).fld F.CORE_LEGPOS_LEG site = idx % 2 ^ F.CORE_LEGPOS_LEG.width ∧
    (s.beginLeg site idx leg replay).fld F.CORE_STATUS_SEQ site = (if leg.ops.isEmpty then seqDrain else seqRun) ∧
    (s.beginLeg site idx leg replay).fld F.CORE_LATECNT site =
      if s.startsLate leg replay then min (s.fld F.CORE_LATECNT site + 1) (2 ^ 32 - 1) else s.fld F.CORE_LATECNT site := by
  obtain ⟨hacts, -⟩ := s.tasteChoose_effect site leg.ops
  have hlateFld : (s.tasteChoose site leg.ops).1.fld F.CORE_LATECNT site = s.fld F.CORE_LATECNT site := hacts.fld site (by decide)
  have hlate : (s.tasteChoose site leg.ops).1.startsLate leg replay = s.startsLate leg replay := by
    have hcyc : (s.tasteChoose site leg.ops).1.cyc = s.cyc := hacts.parts .cyc (by decide)
    have hframe : (s.tasteChoose site leg.ops).1.frame = s.frame := hacts.parts .frame (by decide)
    have htick : (s.tasteChoose site leg.ops).1.tickCycles = s.tickCycles := hacts.fld 0 (by decide)
    unfold State.startsLate State.sinceBoundary
    rw [hcyc, hframe, htick]
  rw [State.beginLeg_eq]
  generalize (s.tasteChoose site leg.ops).2 = taste
  generalize (s.tasteChoose site leg.ops).1 = t at hlateFld hlate
  refine ⟨?_, ?_, ?_⟩
  · rw [State.legBegins, State.fld_setFld_of_code _ _ _ _ _ _ (by decide) (by decide) (by decide),
      State.fld_setFld_of_code _ _ _ _ _ _ (by decide) (by decide) (by decide), State.fld_setFld_same]
  · rw [State.legBegins, State.fld_setFld_same]
    split <;> rfl
  · rw [State.legBegins, State.fld_setFld_of_code _ _ _ _ _ _ (by decide) (by decide) (by decide),
      State.fld_setFld_of_code _ _ _ _ _ _ (by decide) (by decide) (by decide), State.fld_setFld_of_code _ _ _ _ _ _ (by decide) (by decide) (by decide),
      State.setRun, State.fld_setCore, hlate, ← hlateFld]
    split
    · exact State.fld_count_same ..
    · rfl

/-- A core whose next leg is taken. -/
def State.legTaken (s : State) (site : Nat) : State := s.setCore site { s.core site with nextLeg := (s.core site).nextLeg + 1 }

/-- A leg whose start nothing holds up begins. -/
theorem State.legStart_eq {s : State} {core site : Nat} {leg : Leg} (hsite : s.coreSite core = some site) (hst : s.frame.st = .running)
    (hrun : (s.core site).run = none) (hseq : s.fld F.CORE_STATUS_SEQ site = seqArmed) (hclear : s.clearing site = false)
    (hleg : (s.legsOf core)[(s.core site).nextLeg]? = some leg) (hstart : 1000 * leg.hdr.start ≤ s.sinceBoundary) :
    s.legStart core = (s.legTaken site).beginLeg site (s.core site).nextLeg leg none := by
  unfold State.legStart
  simp only [hsite, hleg]
  rw [if_pos (by simp [hst, hrun, hseq, hclear, hstart])]
  rfl

/-- A part that starts a leg may make it dependent, and does nothing else beside. -/
theorem State.onlyIn_startLeg (s : State) (core : Nat) : (s.legStart core).onlyIn (s.startLeg core) [.mgr, .hist, .link] := by
  unfold State.startLeg
  extract_lets t
  split
  · exact State.onlyIn_refl t _
  · split
    · split
      · exact t.onlyIn_makeDependent core _
      · exact State.onlyIn_refl t _
    · exact State.onlyIn_refl t _

/-! The end of a leg (R149 to R151). -/

/-- Entries of the gather buffer written to the banks touch the buffer and the hamper. -/
theorem State.actsAt_flushGather (s : State) (site : Nat) (p : GEntry → Bool) : s.actsAt (s.flushGather site p) site [.hamper, .cores] [] :=
  State.actsAt_setCore (State.onlyIn.actsAt (qs := [.hamper]) (fun q hq => by cases q <;> first | rfl | exact absurd (by decide) hq) (by decide) (by decide) site _)
    (by decide)

/-- The fields that the end of a leg sets. -/
def legCloseFlds : List Fld := [F.TST_STATUS_TASTING, F.CORE_STATUS_SEQ]

theorem State.actsAt_closeLeg (s : State) (site core : Nat) : s.actsAt (s.closeLeg site core) site [.hamper, .cores, .fields] legCloseFlds :=
  State.actsAt_setFld (State.actsAt_setFld (State.actsAt_setCore ((s.actsAt_flushGather site _).mono (by decide) (by decide)) (by decide)) (by decide) (by decide))
    (by decide) (by decide)

/-- No leg runs and the gather buffer is empty. -/
theorem State.core_closeLeg (s : State) (site core : Nat) : (s.closeLeg site core).core site = { s.core site with run := none, gather := [] } := by
  have hflush : (s.flushGather site fun _ => true).core site = { s.core site with gather := [] } := by
    rw [State.flushGather, State.core_setCore_same]
    simp
  exact (State.core_setCore_same (s.flushGather site fun _ => true) site _).trans (by rw [hflush])

/-- Nothing is being tasted, and the sequencer waits for a further leg or has none. -/
theorem State.fld_closeLeg (s : State) (site core : Nat) :
    (s.closeLeg site core).fld F.TST_STATUS_TASTING site = 0 ∧
    (s.closeLeg site core).fld F.CORE_STATUS_SEQ site = if (s.core site).nextLeg < (s.legsOf core).length then seqArmed else seqIdle := by
  refine ⟨?_, ?_⟩
  · rw [State.closeLeg, State.seqAfter, State.fld_setFld_of_code _ _ _ _ _ _ (by decide) (by decide) (by decide), State.fld_setFld_same, Nat.zero_mod]
  · have hnext : ((s.closeLeg site core).core site).nextLeg = (s.core site).nextLeg := by rw [State.core_closeLeg]
    rw [State.closeLeg, State.seqAfter, State.fld_setFld_same]
    change (if ((s.closeLeg site core).core site).nextLeg < (s.legsOf core).length then seqArmed else seqIdle) % _ = _
    rw [hnext]
    split <;> rfl

/-- The complete report is the frame's. -/
theorem State.onlyIn_finalReport (s : State) (core : Nat) (r : LegRun) : s.onlyIn (s.finalReport core r) [.frame] := by
  unfold State.finalReport
  split
  · exact State.onlyIn_refl s _
  · exact fun q hq => by cases q <;> first | rfl | exact absurd (by decide) hq

theorem State.frame_finalReport (s : State) (core : Nat) (r : LegRun) :
    (s.finalReport core r).frame = { s.frame with
      reports := s.frame.reports ++ if r.cause = 0 then [] else [⟨core, r.idx, s.frame.number, r.cause, r.noReplay, true, r.unread⟩] } := by
  unfold State.finalReport
  split <;> simp [*]

/-- A leg of the itinerary recorded as ended, with its complete report if it is suspect. -/
def State.legRecorded (s : State) (core : Nat) (r : LegRun) : State :=
  let t := s.finalReport core r
  { t with frame := { t.frame with endedLegs := t.frame.endedLegs ++ [(core, r.idx)] } }

theorem State.onlyIn_legRecorded (s : State) (core : Nat) (r : LegRun) : s.onlyIn (s.legRecorded core r) [.frame] :=
  State.onlyIn_trans (s.onlyIn_finalReport core r) fun q hq => by cases q <;> first | rfl | exact absurd (by decide) hq

/-- Whether a leg of the itinerary ends late by a full tick and did not start so (R149). -/
def State.endsLate (s : State) (r : LegRun) : Bool :=
  r.replay.isNone && !r.late && decide (1000 * (r.leg.hdr.start + r.leg.hdr.len) + s.tickCycles ≤ s.sinceBoundary)

/-- A drained leg of the itinerary before it is recorded. -/
def State.legOver (s : State) (site core : Nat) (r : LegRun) : State :=
  (if s.endsLate r then s.count F.CORE_LATECNT 1 site else s).closeLeg site core

theorem State.legEnd_eq {s : State} {core site : Nat} {r : LegRun} (hsite : s.coreSite core = some site) (hrun : (s.core site).run = some r)
    (hseq : s.fld F.CORE_STATUS_SEQ site = seqDrain) (hissue : r.toIssue = []) (hqueued : r.queued = []) (hrunning : r.running = [])
    (hreplay : r.replay = none) : s.legEnd core = (s.legOver site core r).legRecorded core r := by
  unfold State.legEnd
  simp only [hsite, hrun, hseq, hissue, hqueued, hrunning, hreplay]
  rw [State.legOver, State.endsLate, hreplay]
  rfl

theorem State.actsAt_legOver (s : State) (site core : Nat) (r : LegRun) :
    s.actsAt (s.legOver site core r) site [.hamper, .cores, .fields] (F.CORE_LATECNT :: legCloseFlds) :=
  State.actsAt_then ((s.actsAt_lateCount site _).mono (by decide) (by decide)) (State.actsAt_closeLeg _ site core) (by decide) (by decide)

/-! Suspicion (R151). -/

/-- A suspect mark adds its cause to the leg that runs, if one runs. -/
theorem State.actsAt_markSuspect (s : State) (site bit : Nat) (mem : Bool) : s.actsAt (s.markSuspect site bit mem) site [.fields, .cores, .frame] suspectFlds := by
  unfold State.markSuspect
  extract_lets c
  split
  · exact State.actsAt_refl s site _ _
  · extract_lets first cause r' t1 t2 t3 core t4
    have h1 : s.actsAt t1 site [.fields, .cores, .frame] suspectFlds := State.actsAt_setCore (State.actsAt_refl s site _ _) (by decide)
    have h2 : s.actsAt t2 site [.fields, .cores, .frame] suspectFlds := by
      simp only [t2]
      split
      · exact h1
      · exact State.actsAt_setFld (State.actsAt_setFld h1 (by decide) (by decide)) (by decide) (by decide)
    have h3 : s.actsAt t3 site [.fields, .cores, .frame] suspectFlds := by
      simp only [t3]
      split
      · exact h2
      · exact State.actsAt_setFld h2 (by decide) (by decide)
    have h4 : s.actsAt t4 site [.fields, .cores, .frame] suspectFlds := State.actsAt_count h3 (by decide) (by decide)
    split
    · exact State.actsAt_trans h4 (State.onlyIn.actsAt (qs := [.frame]) (fun q hq => by cases q <;> first | rfl | exact absurd (by decide) hq)
        (by decide) (by decide) site _)
    · exact h3

/-- A frame with other suspects, reports and suspect legs. -/
def FrameSt.marked (f : FrameSt) (n : Nat) (rs : List SuspectRep) (ls : List (Nat × Nat)) : FrameSt := { f with suspects := n, reports := rs, suspectLegs := ls }

/-- Of the core only the leg's causes change, of the frame only the suspects and their reports. -/
theorem State.markSuspect_effect {s : State} {site : Nat} {r : LegRun} (bit : Nat) (mem : Bool) (hr : (s.core site).run = some r) :
    (s.markSuspect site bit mem).core site = { s.core site with run := some { r with cause := r.cause ||| 2 ^ bit, noReplay := r.noReplay || mem } } ∧
    ∃ n rs ls, (s.markSuspect site bit mem).frame = s.frame.marked n rs ls := by
  unfold State.markSuspect
  extract_lets c
  split
  · next hnone => rw [hr] at hnone; cases hnone
  · next r0 hr0 =>
    obtain rfl : r0 = r := Option.some.inj (hr0.symm.trans hr)
    extract_lets first cause r' t1 t2 t3 core t4
    have h2 : t2.core site = t1.core site ∧ t2.frame = s.frame := by
      simp only [t2]
      split <;> exact ⟨rfl, rfl⟩
    have h3 : t3.core site = t1.core site ∧ t3.frame = s.frame := by
      simp only [t3]
      split <;> exact h2
    have hcore : t3.core site = { s.core site with run := some r' } := h3.1.trans (State.core_setCore_same ..)
    split
    · refine ⟨hcore, t4.frame.suspects + 1, t4.frame.reports ++ [⟨core, r0.idx, t4.frame.number, cause, mem, false, r0.unread⟩],
        t4.frame.suspectLegs ++ [(core, r0.idx)], ?_⟩
      rw [← h3.2]
      rfl
    · exact ⟨hcore, s.frame.suspects, s.frame.reports, s.frame.suspectLegs, h3.2⟩

/-! Abandoned products (R150). -/

/-- An array without its product. -/
def State.dropProduct (s : State) (a : Nat) : State := (s.setArr a { s.arr a with prod := none }).setFld F.ARR_STATUS_PRODUCT 0 a

/-- A running operation is abandoned: a product leaves its array, and what waited for its end takes effect. -/
def State.abandon (s : State) (site : Nat) (q : RunOp) : State :=
  match q.op.kind with
  | .product arr .. => ((s.dropProduct (16 * site + arr)).applyTrims (16 * site + arr)).modeAfterProduct (16 * site + arr)
  | _ => s

theorem State.abandonProducts_eq (s : State) (site : Nat) (r : LegRun) : s.abandonProducts site r = r.running.foldl (fun s q => s.abandon site q) s := rfl

/-- The fields that an abandoned product may set: PRODUCT, the trims that waited, and those of a mode command that waited. -/
def abandonFlds : List Fld := [F.ARR_STATUS_PRODUCT, F.ARR_TRIM_REF_TOP, F.ARR_TRIM_REF_BOT, F.ARR_TRIM_READ_RWL, F.ARR_TRIM_READ_SBIAS, F.ARR_STATUS_MODE,
  F.ARR_CMD_STAT_RESULT, F.ARR_CMD_STAT_OP, F.ARR_CMD_STAT_TAG, F.ARR_CMD_STAT_OVERFLOW, F.ARR_CMD_STAT_DONE, F.ARR_STATUS_BUSY, F.INTC_PEND, F.INTC_MERGECNT]

/-- The components that an abandoned product may change. -/
def abandonParts : List Part := [.arrays, .fields, .pwr, .irq]

theorem State.actsAt_cmdFinish (s : State) (site a op tag : Nat) : s.actsAt (s.cmdFinish a op tag 0) site abandonParts abandonFlds := by
  unfold State.cmdFinish State.cmdRefuse
  extract_lets x t u m v
  have hu : s.actsAt u site abandonParts abandonFlds :=
    State.actsAt_setFld (State.actsAt_setFlag (State.actsAt_setFld (State.actsAt_setFld (State.actsAt_setFld
      (State.actsAt_setArr (State.actsAt_refl s site _ _) (by decide)) (by decide) (by decide)) (by decide) (by decide)) (by decide) (by decide))
      (by decide) (by decide)) (by decide) (by decide)
  have hv : s.actsAt v site abandonParts abandonFlds := by
    simp only [v]
    split
    · exact State.actsAt_trans hu (State.onlyIn.actsAt (qs := [.pwr]) (fun q hq => by cases q <;> first | rfl | exact absurd (by decide) hq)
        (by decide) (by decide) site _)
    · exact hu
  exact State.actsAt_then (State.actsAt_setFld hv (by decide) (by decide)) (State.actsAt_raiseRow _ 64 (a / 16) site) (by decide) (by decide)

theorem State.actsAt_applyTrims (s : State) (site a : Nat) : s.actsAt (s.applyTrims a) site abandonParts abandonFlds := by
  unfold State.applyTrims
  extract_lets x t u
  have ht : s.actsAt t site abandonParts abandonFlds := by
    simp only [t]
    split
    · exact State.actsAt_setFld (State.actsAt_setFld (State.actsAt_refl s site _ _) (by decide) (by decide)) (by decide) (by decide)
    · exact State.actsAt_refl s site _ _
  have hu : s.actsAt u site abandonParts abandonFlds := by
    simp only [u]
    split
    · exact State.actsAt_setFld (State.actsAt_setFld ht (by decide) (by decide)) (by decide) (by decide)
    · exact ht
  exact State.actsAt_setArr hu (by decide)

theorem State.actsAt_modeAfterProduct (s : State) (site a : Nat) : s.actsAt (s.modeAfterProduct a) site abandonParts abandonFlds := by
  have hmode (m op tag : Nat) : s.actsAt ((s.setFld F.ARR_STATUS_MODE m a).cmdFinish a op tag 0) site abandonParts abandonFlds :=
    State.actsAt_trans (State.actsAt_setFld (State.actsAt_refl s site _ _) (by decide) (by decide)) (State.actsAt_cmdFinish _ site a op tag)
  unfold State.modeAfterProduct
  split
  · split
    · exact hmode ..
    · split
      · exact hmode ..
      · exact State.actsAt_refl s site _ _
  · exact State.actsAt_refl s site _ _

theorem State.actsAt_abandon (s : State) (site : Nat) (q : RunOp) : s.actsAt (s.abandon site q) site abandonParts abandonFlds := by
  unfold State.abandon
  split
  · exact State.actsAt_trans (State.actsAt_trans (State.actsAt_setFld (State.actsAt_setArr (State.actsAt_refl s site _ _) (by decide)) (by decide) (by decide))
      (State.actsAt_applyTrims ..)) (State.actsAt_modeAfterProduct ..)
  · exact State.actsAt_refl s site _ _

theorem State.actsAt_abandonProducts (s : State) (site : Nat) (r : LegRun) : s.actsAt (s.abandonProducts site r) site abandonParts abandonFlds :=
  State.actsAt_foldl (fun t q => t.actsAt_abandon site q) _ s

/-- An abandoned product leaves its array without one, and the other arrays as they were. -/
theorem State.abandon_effect (s : State) (site : Nat) {q : RunOp} {arr buf k bank : Nat} (hq : q.op.kind = .product arr buf k bank) :
    ((s.abandon site q).arr (16 * site + arr)).prod = none ∧ s.onlyArray (s.abandon site q) (16 * site + arr) := by
  have heq : s.abandon site q = ((s.dropProduct (16 * site + arr)).applyTrims (16 * site + arr)).modeAfterProduct (16 * site + arr) := by
    rw [State.abandon, hq]
  have hkeeps := (State.keepsProduct.refl (s.dropProduct (16 * site + arr)) (16 * site + arr) site).applyTrims.modeAfterProduct
  have hdrop : (s.dropProduct (16 * site + arr)).arr (16 * site + arr) = { s.arr (16 * site + arr) with prod := none } := State.arr_setArr_same ..
  rw [heq]
  exact ⟨hkeeps.product.trans (by rw [hdrop]), fun b hb => (hkeeps.others b hb).trans (State.arr_setArr_ne _ _ hb)⟩

/-- An operation that is no product is abandoned without a trace. -/
theorem State.abandon_of_ne (s : State) (site : Nat) {q : RunOp} (hq : ∀ arr buf k bank, q.op.kind ≠ .product arr buf k bank) : s.abandon site q = s := by
  unfold State.abandon
  split
  · next h => exact absurd h (hq _ _ _ _)
  · rfl

/-- Every array of an abandoned product is free. -/
theorem State.prod_abandonProducts (s : State) (site : Nat) {r : LegRun} {q : RunOp} {arr buf k bank : Nat} (hmem : q ∈ r.running)
    (hq : q.op.kind = .product arr buf k bank) : ((s.abandonProducts site r).arr (16 * site + arr)).prod = none := by
  rw [State.abandonProducts_eq]
  refine foldl_mem (fun _ => True) (fun t : State => (t.arr (16 * site + arr)).prod = none) (fun _ _ _ => trivial) (fun t _ => (t.abandon_effect site hq).1)
    (fun t p _ ht => ?_) hmem trivial
  cases hp : p.op.kind
  case product arr' _ _ _ =>
    obtain ⟨hprod, hothers⟩ := t.abandon_effect site hp
    by_cases h : 16 * site + arr = 16 * site + arr'
    · rw [h]; exact hprod
    · rw [hothers _ h]; exact ht
  all_goals
    rw [t.abandon_of_ne site (by rw [hp]; nofun)]
    exact ht

/-- The arrays of no abandoned product stay as they were. -/
theorem State.arr_abandonProducts_of_ne {site a : Nat} {ops : List RunOp} (s : State)
    (h : ∀ q ∈ ops, ∀ arr buf k bank, q.op.kind = .product arr buf k bank → a ≠ 16 * site + arr) :
    (ops.foldl (fun s q => s.abandon site q) s).arr a = s.arr a := by
  induction ops generalizing s with
  | nil => rfl
  | cons q ops ih =>
    rw [List.foldl_cons, ih _ fun p hp => h p (List.mem_cons_of_mem _ hp)]
    have hq := h q List.mem_cons_self
    cases hk : q.op.kind
    case product arr buf k bank => exact (s.abandon_effect site hk).2 a (hq arr buf k bank hk)
    all_goals rw [s.abandon_of_ne site (by rw [hk]; nofun)]

/-! A leg stopped (R150). -/

/-- A leg that is stopped, marked with OVERRUN. -/
def LegRun.overrun (r : LegRun) : LegRun := { r with cause := r.cause ||| 2 ^ causeOverrun, noReplay := r.noReplay || false }

/-- The frame's record of a leg of the itinerary that was stopped. -/
def State.stopRecorded (s : State) (core : Nat) (r : LegRun) : State :=
  let t := s.finalReport core r
  { t with frame := { t.frame with
      endedLegs := t.frame.endedLegs ++ [(core, r.idx)]
      stoppedLegs := t.frame.stoppedLegs ++ [(core, r.idx)]
      waitingAtStop := t.frame.waitingAtStop ++ (r.queued.filterMap fun q => q.op.hdr.waitCtr.map fun k => (core, r.idx, k)) } }

theorem State.onlyIn_stopRecorded (s : State) (core : Nat) (r : LegRun) : s.onlyIn (s.stopRecorded core r) [.frame] :=
  State.onlyIn_trans (s.onlyIn_finalReport core r) fun q hq => by cases q <;> first | rfl | exact absurd (by decide) hq

/-- A core whose leg is marked with OVERRUN and counted. -/
def State.overrunMarked (s : State) (site : Nat) : State := (s.markSuspect site causeOverrun).count F.CORE_OVRUNCNT 1 site

/-- A leg stopped, before the frame records it. -/
def State.legStopped (s : State) (site core : Nat) (r : LegRun) : State := ((s.overrunMarked site).closeLeg site core).abandonProducts site r.overrun

theorem State.stopLeg_eq {s : State} {site : Nat} {r : LegRun} (core : Nat) (hrun : (s.core site).run = some r) (hreplay : r.replay = none) :
    s.stopLeg site core = (s.legStopped site core r).stopRecorded core r.overrun := by
  obtain ⟨hcore, -⟩ := State.markSuspect_effect causeOverrun false hrun
  have hmarked : (((s.markSuspect site causeOverrun).count F.CORE_OVRUNCNT 1 site).core site).run = some r.overrun := by rw [State.core_count, hcore]; rfl
  unfold State.stopLeg
  simp only [hrun, hmarked, Option.getD_some, show r.overrun.replay = none from hreplay]
  rfl

theorem State.actsAt_overrunMarked (s : State) (site : Nat) :
    s.actsAt (s.overrunMarked site) site [.fields, .cores, .frame] (F.CORE_OVRUNCNT :: suspectFlds) :=
  State.actsAt_count ((s.actsAt_markSuspect site causeOverrun false).mono (by decide) (by decide)) (by decide) (by decide)

/-- After the mark, a stopped leg's end and its products. -/
theorem State.overrunMarked_actsAt_legStopped (s : State) (site core : Nat) (r : LegRun) :
    (s.overrunMarked site).actsAt (s.legStopped site core r) site ([.hamper, .cores, .fields] ++ abandonParts) (legCloseFlds ++ abandonFlds) :=
  State.actsAt_then ((State.actsAt_closeLeg _ site core).mono (by decide) (by decide)) (State.actsAt_abandonProducts _ site r.overrun) (by decide) (by decide)

theorem State.actsAt_legStopped (s : State) (site core : Nat) (r : LegRun) :
    s.actsAt (s.legStopped site core r) site ([.hamper, .cores, .fields, .frame] ++ abandonParts) (F.CORE_OVRUNCNT :: suspectFlds ++ legCloseFlds ++ abandonFlds) :=
  State.actsAt_then ((s.actsAt_overrunMarked site).mono (by decide) (by decide)) (s.overrunMarked_actsAt_legStopped site core r) (by decide) (by decide)

/-- OVRUNCNT counts the stopped leg. -/
theorem State.fld_legStopped (s : State) (site core : Nat) (r : LegRun) :
    (s.legStopped site core r).fld F.CORE_OVRUNCNT site = min (s.fld F.CORE_OVRUNCNT site + 1) (2 ^ 32 - 1) := by
  rw [(s.overrunMarked_actsAt_legStopped site core r).fld site (by decide), State.overrunMarked, State.fld_count_same,
    (s.actsAt_markSuspect site causeOverrun false).fld site (by decide)]
  rfl

theorem State.run_legStopped (s : State) (site core : Nat) (r : LegRun) : ((s.legStopped site core r).core site).run = none := by
  rw [State.legStopped, (State.actsAt_abandonProducts _ site r.overrun).core (by decide), State.core_closeLeg]

/-- Until the frame records it, a stopped leg changes of the frame the suspects and their reports alone. -/
theorem State.frame_legStopped {s : State} {site : Nat} {r : LegRun} (core : Nat) (hrun : (s.core site).run = some r) :
    ∃ n rs ls, (s.legStopped site core r).frame = s.frame.marked n rs ls := by
  obtain ⟨-, n, rs, ls, hframe⟩ := State.markSuspect_effect causeOverrun false hrun
  exact ⟨n, rs, ls, Eq.trans ((s.overrunMarked_actsAt_legStopped site core r).parts .frame (by decide)) hframe⟩

/-- The causes of a leg that overran are not none. -/
theorem LegRun.overrun_cause_ne (r : LegRun) : r.overrun.cause ≠ 0 := by
  intro h
  have hbit := congrArg (fun n : Nat => n.testBit causeOverrun) h
  simp [LegRun.overrun] at hbit

/-- What the frame records of a stopped leg: ended, stopped, with its complete report. -/
theorem State.frame_stopRecorded {s : State} {site : Nat} {r : LegRun} (core : Nat) (hrun : (s.core site).run = some r) :
    ((s.legStopped site core r).stopRecorded core r.overrun).frame.endedLegs = s.frame.endedLegs ++ [(core, r.idx)] ∧
    ((s.legStopped site core r).stopRecorded core r.overrun).frame.stoppedLegs = s.frame.stoppedLegs ++ [(core, r.idx)] ∧
    ⟨core, r.idx, s.frame.number, r.cause ||| 2 ^ causeOverrun, r.overrun.noReplay, true, r.unread⟩ ∈
      ((s.legStopped site core r).stopRecorded core r.overrun).frame.reports := by
  obtain ⟨n, rs, ls, hframe⟩ := State.frame_legStopped core hrun
  simp only [State.stopRecorded, State.frame_finalReport, hframe, if_neg r.overrun_cause_ne]
  exact ⟨rfl, rfl, List.mem_append_right _ List.mem_cons_self⟩

/-- The arrays of no product of a stopped leg stay as they were. -/
theorem State.arr_legStopped_of_ne (s : State) (site core : Nat) {r : LegRun} {a : Nat}
    (ha : ∀ q ∈ r.running, ∀ arr buf k bank, q.op.kind = .product arr buf k bank → a ≠ 16 * site + arr) : (s.legStopped site core r).arr a = s.arr a := by
  have hclosed : ((s.overrunMarked site).closeLeg site core).arr a = s.arr a :=
    (State.arr_of_arrays ((State.actsAt_closeLeg _ site core).parts .arrays (by decide))).trans
      (State.arr_of_arrays ((s.actsAt_overrunMarked site).parts .arrays (by decide)))
  rw [State.legStopped, State.abandonProducts_eq, ← hclosed]
  exact State.arr_abandonProducts_of_ne _ ha

/-- What a leg of the itinerary leaves when it ends: its core free, the sequencer at the next leg, the leg recorded. -/
theorem State.legEnded_effect (s : State) (site core : Nat) (r : LegRun) :
    let t := (s.legOver site core r).legRecorded core r
    s.actsAt t site [.hamper, .cores, .fields, .frame] (F.CORE_LATECNT :: legCloseFlds) ∧
    t.core site = { s.core site with run := none, gather := [] } ∧ t.fld F.TST_STATUS_TASTING site = 0 ∧
    t.fld F.CORE_STATUS_SEQ site = (if (s.core site).nextLeg < (s.legsOf core).length then seqArmed else seqIdle) ∧
    t.frame.endedLegs = s.frame.endedLegs ++ [(core, r.idx)] := by
  intro t
  have hrecord : (s.legOver site core r).onlyIn t [.frame] := (s.legOver site core r).onlyIn_legRecorded core r
  have hover := s.actsAt_legOver site core r
  have hframe : (s.legOver site core r).frame = s.frame := hover.parts .frame (by decide)
  have hlate := s.actsAt_lateCount site (s.endsLate r)
  have hlegs : (if s.endsLate r then s.count F.CORE_LATECNT 1 site else s).legsOf core = s.legsOf core := by
    have : (if s.endsLate r then s.count F.CORE_LATECNT 1 site else s).frame = s.frame := hlate.parts .frame (by decide)
    rw [State.legsOf, this]; rfl
  obtain ⟨htasting, hseq⟩ := State.fld_closeLeg (if s.endsLate r then s.count F.CORE_LATECNT 1 site else s) site core
  refine ⟨State.actsAt_trans (hover.mono (by decide) (by decide)) (hrecord.actsAt (by decide) (by decide) site _), ?_, ?_, ?_, ?_⟩
  · rw [hrecord.core (by decide), State.legOver, State.core_closeLeg, hlate.core (by decide)]
  · rw [State.fld_of_fields (hrecord.fields (by decide))]
    exact htasting
  · rw [State.fld_of_fields (hrecord.fields (by decide)), State.legOver, hseq, hlate.core (by decide), hlegs]
  · simp only [t, State.legRecorded, State.frame_finalReport, hframe]

/-- What the start of a leg leaves: the core's record, LEGPOS, the sequencer and LATECNT, nothing of another core. -/
theorem State.startLeg_effect {s : State} {core site : Nat} {leg : Leg}
    (hbegin : s.legStart core = (s.legTaken site).beginLeg site (s.core site).nextLeg leg none) :
    let t := s.startLeg core
    s.actsAt t site [.fields, .cores, .mgr, .hist, .link] legStartFlds ∧
    (∃ r v, r.fresh (s.core site).nextLeg leg s.cyc none ∧
      t.core site = { s.core site with nextLeg := (s.core site).nextLeg + 1, run := some r, sampler := v }) ∧
    t.fld F.CORE_LEGPOS_LEG site = (s.core site).nextLeg % 2 ^ F.CORE_LEGPOS_LEG.width ∧
    t.fld F.CORE_STATUS_SEQ site = (if leg.ops.isEmpty then seqDrain else seqRun) ∧
    t.fld F.CORE_LATECNT site = if s.startsLate leg none then min (s.fld F.CORE_LATECNT site + 1) (2 ^ 32 - 1) else s.fld F.CORE_LATECNT site := by
  intro t
  have hdep : (s.legStart core).onlyIn t [.mgr, .hist, .link] := s.onlyIn_startLeg core
  have htaken : s.actsAt (s.legTaken site) site [.fields, .cores, .mgr, .hist, .link] legStartFlds :=
    State.actsAt_setCore (State.actsAt_refl s site _ _) (by decide)
  have hfld (f : Fld) : t.fld f site = ((s.legTaken site).beginLeg site (s.core site).nextLeg leg none).fld f site := by
    rw [State.fld_of_fields (hdep.fields (by decide)), hbegin]
  obtain ⟨r, v, hfresh, hrun⟩ := (s.legTaken site).core_beginLeg site (s.core site).nextLeg leg none
  rw [← hbegin, ← hdep.core (by decide), State.legTaken, State.core_setCore_same] at hrun
  rw [hfld, hfld, hfld]
  refine ⟨State.actsAt_trans (t := s.legStart core) ?_ (hdep.actsAt (by decide) (by decide) site _), ⟨r, v, hfresh, hrun⟩,
    (s.legTaken site).fld_beginLeg site (s.core site).nextLeg leg none⟩
  rw [hbegin]
  exact State.actsAt_then htaken (State.actsAt_beginLeg _ site _ leg none) (by decide) (by decide)

/-- Settles O16: a leg begins with LEGPOS and the sequencer's state set, ends with its core free, and is stopped with its products abandoned. -/
theorem legsStartAndEnd : Obligations.LegsStartAndEnd := by
  unfold Obligations.LegsStartAndEnd
  intro s core site hcore hsite
  have hnext (t : State) : within (decide (core < coreCount)) t = .next t := within_next (decide_eq_true hcore)
  refine ⟨fun leg hst hrun hseq hclear hleg hstart => ?_, fun r hrun hseq hissue hqueued hrunning hreplay => ?_, fun r hrun htime hreplay => ?_⟩
  · obtain ⟨hacts, ⟨r, v, hfresh, hrunAfter⟩, hlegpos, hseqAfter, hlate⟩ :=
      State.startLeg_effect (State.legStart_eq hsite hst hrun hseq hclear hleg hstart)
    refine ⟨s.startLeg core, r, by rw [exec_legStart, hnext], by rw [hrunAfter], hfresh.leg, hfresh.idx, hfresh.start, hfresh.toIssue, hfresh.queued, hfresh.running,
      hfresh.cause, by rw [hrunAfter], hlegpos, hseqAfter, ?_, hacts.cores, hacts.parts .arrays (by decide), hacts.parts .hamper (by decide),
      hacts.parts .dram (by decide)⟩
    rw [hlate]
    simp [State.startsLate]
  · obtain ⟨hacts, hcoreAfter, htasting, hseqAfter, hended⟩ := s.legEnded_effect site core r
    exact ⟨(s.legOver site core r).legRecorded core r, by rw [exec_legEnd, hnext, State.legEnd_eq hsite hrun hseq hissue hqueued hrunning hreplay],
      by rw [hcoreAfter], by rw [hcoreAfter], htasting, hseqAfter, hended, hacts.cores, hacts.parts .arrays (by decide), hacts.parts .dram (by decide)⟩
  · have hrecord := (s.legStopped site core r).onlyIn_stopRecorded core r.overrun
    have hacts := State.actsAt_trans (s.actsAt_legStopped site core r) (hrecord.actsAt (by decide) (by decide) site _)
    have harr (a : Nat) : ((s.legStopped site core r).stopRecorded core r.overrun).arr a = (s.legStopped site core r).arr a :=
      State.arr_of_arrays (hrecord .arrays (by decide))
    obtain ⟨hended, hstopped, hreport⟩ := State.frame_stopRecorded core hrun
    refine ⟨(s.legStopped site core r).stopRecorded core r.overrun, r.overrun.noReplay, ?_, by rw [hrecord.core (by decide), State.run_legStopped],
      by rw [State.fld_of_fields (hrecord.fields (by decide)), State.fld_legStopped], hended, hstopped, hreport, hacts.cores, hacts.parts .dram (by decide),
      fun q hq arr buf k bank hk => (congrArg ArrSt.prod (harr _)).trans (State.prod_abandonProducts _ site hq hk),
      fun a ha => (harr a).trans (s.arr_legStopped_of_ne site core ha)⟩
    rw [exec_legOverrunStop, hnext, State.legOverrun, hsite]
    simp only [hrun, if_pos htime]
    rw [State.stopLeg_eq core hrun hreplay]

/-! The legs of a frame, as two states that place them alike see them (R351). -/

/-- Both states place the cores alike and stand in the same frame of the same itinerary. -/
structure State.sameLegs (s t : State) : Prop where
  places : s.samePlaces t
  active : t.frame.active = s.frame.active
  number : t.frame.number = s.frame.number

section
variable {s t u : State}

theorem State.sameLegs.trans (h : s.sameLegs t) (h' : t.sameLegs u) : s.sameLegs u :=
  ⟨h.places.trans h'.places, h'.active.trans h.active, h'.number.trans h.number⟩

/-- An update of neither the register fields nor the frame. -/
theorem State.onlyIn.sameLegs {ps : List Part} (h : s.onlyIn t ps) (hp : Part.fields ∉ ps ∧ Part.frame ∉ ps) : s.sameLegs t :=
  have hframe : t.frame = s.frame := h .frame hp.2
  ⟨State.samePlaces_of_fields (h.fields hp.1), by rw [hframe], by rw [hframe]⟩

theorem State.sameLegs.coreSite (h : s.sameLegs t) (core : Nat) : t.coreSite core = s.coreSite core := h.places.coreSite core

theorem State.sameLegs.legsOf (h : s.sameLegs t) (core : Nat) : t.legsOf core = s.legsOf core := by rw [State.legsOf, h.active]; rfl

theorem State.sameLegs.legAt (h : s.sameLegs t) (core leg : Nat) : t.legAt core leg = s.legAt core leg := by rw [State.legAt, h.legsOf]; rfl

theorem State.sameLegs.legSlots (h : s.sameLegs t) (core leg : Nat) : t.legSlots core leg = s.legSlots core leg := by
  unfold State.legSlots State.pitchSlots
  rw [h.legAt, h.places.corePitch, h.active]

theorem State.sameLegs.unitGroup (h : s.sameLegs t) (unit : Nat) : t.unitGroup unit = s.unitGroup unit := by rw [State.unitGroup, h.active]; rfl

/-- An interrupt edge leaves the legs alone. -/
theorem State.sameLegs_raiseBoth (s : State) (id : Nat) : s.sameLegs (s.raiseBoth id) :=
  have hframe : (s.raiseBoth id).frame = s.frame := s.onlyIn_raiseBoth id .frame (by decide)
  ⟨(s.onlyFields_raiseBoth id).samePlaces (by decide), by rw [hframe], by rw [hframe]⟩

end

/-! What this part keeps of withheld slots and of replays asked for (R360, R363). -/

/-- Withheld slots join this part's own; beside them only the manager's notices may change. -/
theorem State.mgr_withholdNotice (s : State) (frame reason : Nat) (slots : List Nat) :
    ∃ ns b, (s.withholdNotice frame reason slots).mgr = { s.mgr with own := s.mgr.own ++ slots.map (fun k => (frame, k)), notices := ns, listSent := b } := by
  unfold State.withholdNotice
  split
  · next h => exact ⟨s.mgr.notices, s.mgr.listSent, by simp [List.isEmpty_iff.1 h]⟩
  · extract_lets own m t
    split
    · exact ⟨_, _, rfl⟩
    · split
      · exact ⟨_, _, rfl⟩
      · exact ⟨_, _, t.onlyIn_sendMsg _ _ _ _ .mgr (by decide)⟩

/-- The slots of a leg withheld join this part's own. -/
theorem State.mgr_withholdLeg (s : State) (core leg reason : Nat) :
    ∃ ns b, (s.withholdLeg core leg reason).mgr =
      { s.mgr with own := s.mgr.own ++ (s.legSlots core leg).map (fun k => (s.frame.number, k)), notices := ns, listSent := b } :=
  s.mgr_withholdNotice s.frame.number reason (s.legSlots core leg)

theorem State.onlyIn_withholdLeg (s : State) (core leg reason : Nat) : s.onlyIn (s.withholdLeg core leg reason) [.mgr, .link] :=
  s.onlyIn_withholdNotice s.frame.number reason _

theorem State.onlyIn_onMgr (s : State) (f : MgrSt → MgrSt) : s.onlyIn (s.onMgr f) [.mgr] :=
  fun q hq => by cases q <;> first | rfl | exact absurd (by decide) hq

/-- A leg whose slots are withheld after a change of the managers' state and a count. -/
theorem State.mgr_countedWithheld (s : State) (core leg k reason : Nat) (f : MgrSt → MgrSt) :
    ∃ ns b, (((s.onMgr f).countReplay k).withholdLeg core leg reason).mgr =
      { f s.mgr with own := (f s.mgr).own ++ (s.legSlots core leg).map (fun k => (s.frame.number, k)), notices := ns, listSent := b } := by
  have hcounted := (s.onMgr f).onlyIn_countReplay k
  have hmgr : ((s.onMgr f).countReplay k).mgr = f s.mgr := hcounted .mgr (by decide)
  have hlegs : s.sameLegs ((s.onMgr f).countReplay k) := ((s.onlyIn_onMgr f).sameLegs (by decide)).trans (hcounted.sameLegs (by decide))
  obtain ⟨ns, b, h⟩ := State.mgr_withholdLeg ((s.onMgr f).countReplay k) core leg reason
  rw [hmgr, hlegs.legSlots, hlegs.number] at h
  exact ⟨ns, b, h⟩

/-- What a replay asked for a leg becomes: one with an end. -/
def askedEnds (core leg : Nat) (f : Asked → Asked) (l : List Asked) : List Asked := l.map fun a => if a.core = core && a.leg = leg then f a else a

/-- Once what was asked for a leg has ended, nothing asked for it is open. -/
theorem State.openAsked_of_ended {s : State} {core leg : Nat} {f : Asked → Asked} {l : List Asked} (hf : ∀ a, ((f a).clean || (f a).refused) = true)
    (h : s.mgr.asked = askedEnds core leg f l) : s.openAsked core leg = none := by
  rw [State.openAsked, h, List.find?_eq_none]
  intro b hb
  obtain ⟨a, -, rfl⟩ := List.mem_map.1 hb
  have ha := hf a
  by_cases hmine : a.core = core ∧ a.leg = leg
  · rw [if_pos (by simp [hmine])]
    cases hc : (f a).clean <;> simp_all
  · rw [if_neg (by simpa using hmine)]
    simpa using fun h h' => absurd ⟨h, h'⟩ hmine

/-- A dropped replay: nothing asked for the leg is open, and its slots are withheld. -/
theorem State.dropReplay_effect (s : State) (core leg k reason : Nat) :
    (s.dropReplay core leg k reason).openAsked core leg = none ∧
    (s.dropReplay core leg k reason).mgr.own = s.mgr.own ++ (s.legSlots core leg).map (fun k => (s.frame.number, k)) := by
  obtain ⟨ns, b, h⟩ := s.mgr_countedWithheld core leg k reason fun m =>
    { m with asked := askedEnds core leg (fun a => { a with refused := true, output := none }) m.asked }
  have hmgr : (s.dropReplay core leg k reason).mgr = _ := h
  refine ⟨State.openAsked_of_ended (f := fun a => { a with refused := true, output := none }) (l := s.mgr.asked) (fun a => by simp) ?_, ?_⟩
  · rw [hmgr]
  · rw [hmgr]

/-! Writes to the hamper, seen from two states with the same cores and banks. -/

theorem State.onlyIn_hamperWrite (s : State) (site a : Nat) (bs : Bytes) : s.onlyIn (s.hamperWrite site a bs) [.hamper, .cores, .net] :=
  State.onlyIn_then (State.onlyIn_then (State.onlyIn_mono (s.onlyIn_flushGather site _) (by decide)) (State.onlyIn_bankWrite _ site a bs) (by decide))
    (State.onlyIn_cleanLines _ site _) (by decide)

/-- Ranges written to a hamper one after the other. -/
def State.hamperWrites (s : State) (site : Nat) (ws : List (Nat × Bytes)) : State := ws.foldl (fun (s : State) w => s.hamperWrite site w.1 w.2) s

theorem State.onlyIn_hamperWrites (s : State) (site : Nat) (ws : List (Nat × Bytes)) : s.onlyIn (s.hamperWrites site ws) [.hamper, .cores, .net] := by
  have hstep (t : State) (w : Nat × Bytes) : t.onlyIn (t.hamperWrite site w.1 w.2) [.hamper, .cores, .net] := t.onlyIn_hamperWrite site w.1 w.2
  exact State.onlyIn_foldl hstep ws s

theorem State.flushGather_congr {s t : State} (h : t.hamper = s.hamper ∧ t.cores = s.cores) (site : Nat) (p : GEntry → Bool) :
    (t.flushGather site p).hamper = (s.flushGather site p).hamper ∧ (t.flushGather site p).cores = (s.flushGather site p).cores := by
  have hcore : t.core site = s.core site := by rw [State.core, h.2]; rfl
  refine ⟨?_, ?_⟩
  · change ((t.core site).gather.filter p).foldl (fun m e => bankEntry m site e) t.hamper = _
    rw [hcore, h.1]
    rfl
  · change SMap.set CoreSt.init t.cores site { t.core site with gather := (t.core site).gather.filter fun e => !p e } = _
    rw [hcore, h.2]
    rfl

theorem State.hamperWrite_congr {s t : State} (h : t.hamper = s.hamper ∧ t.cores = s.cores) (site a : Nat) (bs : Bytes) :
    (t.hamperWrite site a bs).hamper = (s.hamperWrite site a bs).hamper ∧ (t.hamperWrite site a bs).cores = (s.hamperWrite site a bs).cores := by
  obtain ⟨hhamper, hcores⟩ := State.flushGather_congr h site fun e => (linesOf a bs.length).contains e.line
  exact ⟨congrArg (fun m => Memory.write m (hamperAt site a) (bs.take (hamperSize - a))) hhamper, hcores⟩

theorem State.hamperWrites_congr {s t : State} (h : t.hamper = s.hamper ∧ t.cores = s.cores) (site : Nat) (ws : List (Nat × Bytes)) :
    (t.hamperWrites site ws).hamper = (s.hamperWrites site ws).hamper := by
  unfold State.hamperWrites
  induction ws generalizing s t with
  | nil => exact h.1
  | cons w ws ih => exact ih (State.hamperWrite_congr h site w.1 w.2)

/-! The fate of a suspect leg (R351, R357, R358). -/

/-- A report taken from the frame's list, with the interrupt that goes with it. -/
def State.reported (s : State) (idx : Nat) : State :=
  State.raiseBoth { s with frame := { s.frame with reports := s.frame.reports.eraseIdx idx } } irqSuspect

theorem State.onlyIn_reported (s : State) (idx : Nat) : s.onlyIn (s.reported idx) [.fields, .irq, .frame] :=
  State.onlyIn_trans (fun q hq => by cases q <;> first | rfl | exact absurd (by decide) hq) (State.onlyIn_mono (State.onlyIn_raiseBoth _ _) (by decide))

theorem State.onlyFields_reported (s : State) (idx : Nat) : s.onlyFields (s.reported idx) [F.INTC_PEND, F.INTC_MERGECNT] :=
  State.onlyFields_raiseBoth _ _

/-- The frame loses the report alone. -/
theorem State.frame_reported (s : State) (idx : Nat) : (s.reported idx).frame = { s.frame with reports := s.frame.reports.eraseIdx idx } :=
  State.onlyIn_raiseBoth _ _ .frame (by decide)

theorem State.sameLegs_reported (s : State) (idx : Nat) : s.sameLegs (s.reported idx) :=
  ⟨(s.onlyFields_reported idx).samePlaces (by decide), by rw [State.frame_reported], by rw [State.frame_reported]⟩

theorem State.partnerOf_congr {s t : State} (h : s.sameLegs t) (hmgr : t.mgr = s.mgr) (l : Leg) : t.partnerOf l = s.partnerOf l := by
  unfold State.partnerOf
  rw [hmgr, show t.unitGroup = s.unitGroup from funext h.unitGroup]

/-- Whether a leg can be replayed does not depend on the reports. -/
theorem State.notReplayable_reported (s : State) (idx : Nat) (rep : SuspectRep) (l : Leg) :
    (s.reported idx).notReplayable rep l = s.notReplayable rep l := by
  have hparts := s.onlyIn_reported idx
  have hmgr : (s.reported idx).mgr = s.mgr := hparts .mgr (by decide)
  have hfab : (s.reported idx).fab = s.fab := hparts .fab (by decide)
  have hnow : (s.reported idx).now = s.now := hparts .now (by decide)
  have hmissing : (s.reported idx).arrivalMissing rep.core l = s.arrivalMissing rep.core l := by
    unfold State.arrivalMissing
    rw [(s.sameLegs_reported idx).active, hfab]
  have hlimit : (s.reported idx).replayLimit = s.replayLimit := by unfold State.replayLimit; rw [State.frame_reported]
  have hframeNs : (s.reported idx).frameNs = s.frameNs := by unfold State.frameNs; rw [hnow, State.frame_reported]
  unfold State.notReplayable
  rw [State.partnerOf_congr (s.sameLegs_reported idx) hmgr, hmgr, hmissing, hlimit, hframeNs]

/-- The first report of a leg of this frame, at a part that leads, decides the leg's fate and does no more. -/
theorem State.suspectReport_eq {s : State} {idx : Nat} {rep : SuspectRep} (hrep : s.frame.reports[idx]? = some rep) (hframe : rep.frame = s.frame.number)
    (hfinal : rep.final = false) (hleads : s.fld F.RGR_LATCH_HOLDER ≠ 0) (hdecided : s.mgr.decided.contains (rep.core, rep.leg) = false) :
    s.suspectReport idx = (s.reported idx).decideFate rep := by
  have hholder : (s.reported idx).fld F.RGR_LATCH_HOLDER = s.fld F.RGR_LATCH_HOLDER := (s.onlyFields_reported idx).fld 0 (by decide)
  have hmgr : (s.reported idx).mgr = s.mgr := s.onlyIn_reported idx .mgr (by decide)
  unfold State.suspectReport
  simp only [hrep]
  change (if (decide (rep.frame ≠ (s.reported idx).frame.number) || decide ((s.reported idx).fld F.RGR_LATCH_HOLDER = 0)) = true then s.reported idx else
    if (!rep.final) = true then
      if (s.reported idx).mgr.decided.contains (rep.core, rep.leg) = true then s.reported idx else (s.reported idx).decideFate rep
    else _) = _
  rw [hholder, hmgr, hdecided, hfinal, if_neg (by simp [hframe, hleads, State.frame_reported])]
  rfl

/-- A leg without a replay is decided: counted, its slots withheld. -/
def State.decidedAgainst (s : State) (rep : SuspectRep) : State :=
  ((s.onMgr fun m => { m with decided := m.decided ++ [(rep.core, rep.leg)] }).countReplay 5).withholdLeg rep.core rep.leg 6

/-- A leg that is neither dependent nor stopped is replayed, or decided against. -/
theorem State.decideFate_eq {s : State} {rep : SuspectRep} {site : Nat} {l : Leg} {it : Itin} (hsite : s.coreSite rep.core = some site)
    (hleg : s.legAt rep.core rep.leg = some l) (hactive : s.frame.active = some it) (hindep : s.mgr.dependents.contains (rep.core, rep.leg) = false)
    (hran : rep.cause.testBit causeOverrun = false) :
    (s.notReplayable rep l = true → s.decideFate rep = s.decidedAgainst rep) ∧
    (s.notReplayable rep l = false → ∀ p g, s.partnerOf l = some p → l.hdr.unit.bind s.unitGroup = some g →
      s.decideFate rep = s.askReplay site rep l it p g) := by
  unfold State.decideFate
  simp only [hsite, hleg, hactive, hindep, hran, Bool.false_and, Bool.false_eq_true, if_false]
  refine ⟨fun h => ?_, fun h p g hp hg => ?_⟩
  · rw [if_pos h]
    rfl
  · simp only [h, hp, hg, Bool.false_eq_true, if_false]

/-- What the manager holds once a replay is asked for. -/
theorem State.mgr_askReplay (s : State) (site : Nat) (rep : SuspectRep) (l : Leg) (it : Itin) (p g : Nat) :
    (s.askReplay site rep l it p g).mgr = { s.mgr with
      asked := s.mgr.asked ++ [⟨rep.core, rep.leg, s.frame.number, p, false, false, none⟩], units := s.mgr.units ++ l.hdr.unit.toList,
      decided := s.mgr.decided ++ [(rep.core, rep.leg)], pendingSlots := s.mgr.pendingSlots ++ s.legSlots rep.core rep.leg } := by
  unfold State.askReplay
  extract_lets rs t slots q dests u a
  have ht : s.onlyIn t [.link] := s.onlyIn_sendMsg p 0x0201 _ _
  have hu : s.onlyIn u [.link] := State.onlyIn_trans ht (State.onlyIn_foldl (fun v d => v.onlyIn_sendMsg d 0x0204 slots []) dests t)
  have hmgr : u.mgr = s.mgr := hu .mgr (by decide)
  have hframe : u.frame = s.frame := hu .frame (by decide)
  have hslots : slots = s.legSlots rep.core rep.leg := (ht.sameLegs (by decide)).legSlots rep.core rep.leg
  rw [State.onlyIn_countReplay _ 0 .mgr (by decide)]
  simp only [State.onMgr, a, hmgr, hframe, hslots]
  rfl

theorem State.onlyIn_askReplay (s : State) (site : Nat) (rep : SuspectRep) (l : Leg) (it : Itin) (p g : Nat) :
    s.onlyIn (s.askReplay site rep l it p g) [.mgr, .hist, .link] := by
  unfold State.askReplay
  extract_lets rs t slots q dests u a
  have ht : s.onlyIn t [.link] := s.onlyIn_sendMsg p 0x0201 _ _
  have hu : s.onlyIn u [.link] := State.onlyIn_trans ht (State.onlyIn_foldl (fun v d => v.onlyIn_sendMsg d 0x0204 slots []) dests t)
  exact State.onlyIn_then (State.onlyIn_then (State.onlyIn_mono hu (by decide)) (u.onlyIn_onMgr _) (by decide)) (State.onlyIn_countReplay _ 0) (by decide)

theorem State.onlyIn_decidedAgainst (s : State) (rep : SuspectRep) : s.onlyIn (s.decidedAgainst rep) [.mgr, .hist, .link] :=
  State.onlyIn_then (State.onlyIn_then (State.onlyIn_mono (s.onlyIn_onMgr _) (by decide)) (State.onlyIn_countReplay _ 5) (by decide))
    (State.onlyIn_withholdLeg _ rep.core rep.leg 6) (by decide)

/-- A leg decided against: its slots withheld, nothing asked. -/
theorem State.mgr_decidedAgainst (s : State) (rep : SuspectRep) :
    ∃ ns b, (s.decidedAgainst rep).mgr = { s.mgr with
      decided := s.mgr.decided ++ [(rep.core, rep.leg)]
      own := s.mgr.own ++ (s.legSlots rep.core rep.leg).map (fun k => (s.frame.number, k)), notices := ns, listSent := b } :=
  s.mgr_countedWithheld rep.core rep.leg 5 6 fun m => { m with decided := m.decided ++ [(rep.core, rep.leg)] }

/-- A leg that can be replayed has a partner and a group. -/
theorem State.partner_of_replayable {s : State} {rep : SuspectRep} {l : Leg} (h : s.notReplayable rep l = false) :
    ∃ p g, s.partnerOf l = some p ∧ l.hdr.unit.bind s.unitGroup = some g := by
  have hp : (s.partnerOf l).isSome = true := by
    unfold State.notReplayable at h
    split at h
    · cases h
    · simp only [Bool.or_eq_false_iff] at h
      obtain ⟨⟨⟨-, hnone⟩, -⟩, -⟩ := h
      simpa using hnone
  obtain ⟨p, hp⟩ := Option.isSome_iff_exists.1 hp
  obtain ⟨g, hg, -⟩ := Option.bind_eq_some_iff.1 (show (l.hdr.unit.bind s.unitGroup).bind (fun g => SMap.find? s.mgr.map g) = some p from hp)
  exact ⟨p, g, hp, hg⟩

/-- The fate of a leg as the manager's state and the frame show it: decided, and either its slots withheld or a replay asked. -/
theorem State.decideFate_effect {s : State} {rep : SuspectRep} {site : Nat} {l : Leg} {it : Itin} (hsite : s.coreSite rep.core = some site)
    (hleg : s.legAt rep.core rep.leg = some l) (hactive : s.frame.active = some it) (hindep : s.mgr.dependents.contains (rep.core, rep.leg) = false)
    (hran : rep.cause.testBit causeOverrun = false) :
    (s.decideFate rep).frame = s.frame ∧ (s.decideFate rep).mgr.decided = s.mgr.decided ++ [(rep.core, rep.leg)] ∧
    (s.notReplayable rep l = true → (s.decideFate rep).mgr.asked = s.mgr.asked ∧
      (s.decideFate rep).mgr.own = s.mgr.own ++ (s.legSlots rep.core rep.leg).map (fun k => (s.frame.number, k))) ∧
    (s.notReplayable rep l = false → ∀ p, s.partnerOf l = some p → (s.decideFate rep).mgr.own = s.mgr.own ∧
      (s.decideFate rep).mgr.asked = s.mgr.asked ++ [⟨rep.core, rep.leg, s.frame.number, p, false, false, none⟩] ∧
      (s.decideFate rep).mgr.pendingSlots = s.mgr.pendingSlots ++ s.legSlots rep.core rep.leg) := by
  obtain ⟨hagainst, hasks⟩ := State.decideFate_eq hsite hleg hactive hindep hran
  cases hno : s.notReplayable rep l with
  | true =>
    obtain ⟨ns, b, hmgr⟩ := s.mgr_decidedAgainst rep
    rw [hagainst hno, hmgr]
    exact ⟨s.onlyIn_decidedAgainst rep .frame (by decide), rfl, fun _ => ⟨rfl, rfl⟩, nofun⟩
  | false =>
    obtain ⟨p, g, hp, hg⟩ := State.partner_of_replayable hno
    rw [hasks hno p g hp hg, State.mgr_askReplay]
    refine ⟨s.onlyIn_askReplay site rep l it p g .frame (by decide), rfl, nofun, fun _ p' hp' => ?_⟩
    obtain rfl : p = p' := Option.some.inj (hp.symm.trans hp')
    exact ⟨rfl, rfl, rfl⟩

/-! Replays for other parts (R358, R359). -/

/-- A message's interrupt leaves the managers' state, the frame, the hampers and the cores. -/
theorem State.sameLegs_msgIn (s : State) : s.sameLegs s.msgIn := State.sameLegs_raiseBoth s irqFabric

theorem State.mgr_msgIn (s : State) : s.msgIn.mgr = s.mgr := s.onlyIn_raiseBoth irqFabric .mgr (by decide)

theorem State.frame_msgIn (s : State) : s.msgIn.frame = s.frame := s.onlyIn_raiseBoth irqFabric .frame (by decide)

theorem State.replayRefusal_msgIn (s : State) (frame group core leg : Nat) : s.msgIn.replayRefusal frame group core leg = s.replayRefusal frame group core leg := by
  have hlegs := s.sameLegs_msgIn
  unfold State.replayRefusal
  rw [s.mgr_msgIn, hlegs.legAt, show s.msgIn.unitGroup = s.unitGroup from funext hlegs.unitGroup, s.frame_msgIn, hlegs.places.corePitch]

/-- The entry of a replay marked as running. -/
def MgrSt.replayRuns (m : MgrSt) (q : Replaying) : MgrSt := { m with replaying := m.replaying.map fun r => if r = q then { r with running := true } else r }

/-- A replay begun, with its input written and its entry marked. -/
def State.replayBegun (s : State) (site : Nat) (q : Replaying) (l : Leg) : State :=
  (((s.hamperWrites site q.input).onMgr fun m => m.replayRuns q).beginLeg site q.leg l (some q.part)).countReplay 7

/-- It runs from now as the asking part's, the input in the hamper and nothing else beside. -/
theorem State.replayBegun_effect (s : State) (site : Nat) (q : Replaying) (l : Leg) :
    (∃ r, r.fresh q.leg l s.cyc (some q.part) ∧ ((s.replayBegun site q l).core site).run = some r) ∧
    (s.replayBegun site q l).hamper = (s.hamperWrites site q.input).hamper ∧ (s.replayBegun site q l).mgr = s.mgr.replayRuns q := by
  have hwrites := s.onlyIn_hamperWrites site q.input
  have hcyc : (s.hamperWrites site q.input).cyc = s.cyc := hwrites .cyc (by decide)
  have hmgr : (s.hamperWrites site q.input).mgr = s.mgr := hwrites .mgr (by decide)
  unfold State.replayBegun
  generalize s.hamperWrites site q.input = u at hcyc hmgr
  obtain ⟨r, v, hfresh, hcore⟩ := (u.onMgr fun m => m.replayRuns q).core_beginLeg site q.leg l (some q.part)
  have hbegin := (u.onMgr fun m => m.replayRuns q).actsAt_beginLeg site q.leg l (some q.part)
  have hcount := State.onlyIn_countReplay ((u.onMgr fun m => m.replayRuns q).beginLeg site q.leg l (some q.part)) 7
  rw [show (u.onMgr _).cyc = s.cyc from hcyc] at hfresh
  exact ⟨⟨r, hfresh, by rw [hcount.core (by decide), hcore]⟩, Eq.trans (hcount .hamper (by decide)) (hbegin.parts .hamper (by decide)),
    Eq.trans (hcount .mgr (by decide)) (Eq.trans (hbegin.parts .mgr (by decide)) (congrArg (fun m => m.replayRuns q) hmgr))⟩

/-- An accepted replay whose core is free writes its input and begins (R359). -/
theorem State.replayRun_eq {s : State} {core site : Nat} {q : Replaying} {l : Leg} (hsite : s.coreSite core = some site) (hleg : s.legAt core q.leg = some l)
    (hq : (s.mgr.replaying.find? fun q => q.core == core && !q.running && !q.done) = some q) (hst : s.frame.st = .running) (hframe : q.frame = s.frame.number)
    (hrun : (s.core site).run = none) (hover : (s.legsOf core).length ≤ (s.core site).nextLeg) (hclear : s.clearing site = false)
    (hfree : s.arraysTaken site l = false) :
    s.replayRun core = s.replayBegun site q l := by
  unfold State.replayRun
  simp only [hq, hsite, hleg]
  rw [if_neg (by simp [hst, hframe, hrun, hover, hclear, hfree])]
  rfl

/-! The result of a replay (R360, R362). -/

/-- A clean replay, once its bytes stand and what was held back is issued. -/
def State.outputPlaced (s : State) (core leg : Nat) : State :=
  (State.onAsked { s with frame := { s.frame with suppressed := s.frame.suppressed.filter fun p => !(p.core == core && p.leg == leg) } } core leg
    fun a => { a with clean := true, output := none }).countReplay 1

theorem State.outputPlaced_effect (s : State) (core leg : Nat) :
    (s.outputPlaced core leg).openAsked core leg = none ∧ (s.outputPlaced core leg).mgr.own = s.mgr.own ∧ (s.outputPlaced core leg).hamper = s.hamper := by
  have hmgr : (s.outputPlaced core leg).mgr = { s.mgr with asked := askedEnds core leg (fun a => { a with clean := true, output := none }) s.mgr.asked } :=
    State.onlyIn_countReplay _ 1 .mgr (by decide)
  have hhamper : (s.outputPlaced core leg).hamper = s.hamper := State.onlyIn_countReplay _ 1 .hamper (by decide)
  exact ⟨State.openAsked_of_ended (f := fun a => { a with clean := true, output := none }) (l := s.mgr.asked) (fun a => by simp) (by rw [hmgr]),
    by rw [hmgr], hhamper⟩

/-- The clean output of a leg that held nothing back is placed: its bytes are written, what was asked is clean. -/
theorem State.placeOutput_eq {s : State} {core leg site : Nat} {l : Leg} (out : List (Nat × Bytes) × List (Nat × Bytes)) (hsite : s.coreSite core = some site)
    (hleg : s.legAt core leg = some l) (hheld : ∀ p ∈ s.frame.suppressed, ¬(p.core = core ∧ p.leg = leg)) :
    s.placeOutput core leg out = (s.hamperWrites site out.1).outputPlaced core leg := by
  have hframe : (s.hamperWrites site out.1).frame = s.frame := s.onlyIn_hamperWrites site out.1 .frame (by decide)
  have hnone : (s.hamperWrites site out.1).frame.suppressed.filter (fun p => p.core == core && p.leg == leg) = [] := by
    rw [hframe, List.filter_eq_nil_iff]
    simpa using hheld
  unfold State.placeOutput
  simp only [hsite, hleg]
  change State.outputPlaced (List.foldl _ (s.hamperWrites site out.1)
    ((s.hamperWrites site out.1).frame.suppressed.filter fun p => p.core == core && p.leg == leg)) core leg = _
  rw [hnone]
  rfl

/-- A replay's output that nothing rules out and that meets its ended leg is placed. -/
theorem State.replayOut_eq {s : State} {core leg : Nat} {a : Asked} {out : List (Nat × Bytes) × List (Nat × Bytes)} (hasked : s.openAsked core leg = some a) :
    s.replayOut a.partner s.frame.number core leg true out = s.dropReplay core leg 3 1 ∧
    (s.frameNs < s.replayLimit → s.frame.endedLegs.contains (core, leg) = true → (∀ r ∈ s.frame.reports, ¬(r.core = core ∧ r.leg = leg)) →
      s.replayOut a.partner s.frame.number core leg false out = s.placeOutput core leg out) := by
  unfold State.replayOut
  simp only [hasked]
  refine ⟨by simp, fun htime hended hreports => ?_⟩
  have hclosed : (s.frame.reports.any fun r => r.core == core && r.leg == leg) = false := by
    rw [List.any_eq_false]
    simpa using hreports
  rw [if_neg (by simp), if_neg (by decide), if_neg (Nat.not_le.2 htime), if_pos (by rw [hended, hclosed]; rfl)]

theorem State.openAsked_msgIn (s : State) (core leg : Nat) : s.msgIn.openAsked core leg = s.openAsked core leg := by rw [State.openAsked, s.mgr_msgIn]; rfl

/-- A replay dropped on a message. -/
theorem State.dropReplay_msgIn (s : State) (core leg k reason : Nat) :
    (s.msgIn.dropReplay core leg k reason).openAsked core leg = none ∧
    (s.msgIn.dropReplay core leg k reason).mgr.own = s.mgr.own ++ (s.legSlots core leg).map (fun k => (s.frame.number, k)) := by
  have h := s.msgIn.dropReplay_effect core leg k reason
  rwa [s.mgr_msgIn, s.sameLegs_msgIn.legSlots, s.sameLegs_msgIn.number] at h

/-- Settles O19: a suspect leg is decided against or asked of its partner; a replay asked of this part is refused or held, and run; the result is
placed, or the leg's slots are withheld. -/
theorem suspectLegsAreReplayed : Obligations.SuspectLegsAreReplayed := by
  unfold Obligations.SuspectLegsAreReplayed
  intro s core leg site l hcore hsite hleg
  have hnext (t : State) : within (decide (core < coreCount)) t = .next t := within_next (decide_eq_true hcore)
  refine ⟨fun idx rep it hrep hrcore hrleg hframe hfinal hleads hactive hdecided hindep hran => ?_, fun src frame group input => ?_,
    fun q hq hqleg hframe hst hrun hover hclear hfree => ?_, fun a hasked => ⟨fun src frame out payloads hframe hsrc => ⟨?_, fun htime hended hreports hheld => ?_⟩,
      fun src frame hframe hsrc => ?_, fun hst htime => ?_⟩⟩
  · subst hrcore hrleg
    have hlegs := s.sameLegs_reported idx
    have hmgr : (s.reported idx).mgr = s.mgr := s.onlyIn_reported idx .mgr (by decide)
    have hexec := State.suspectReport_eq hrep hframe hfinal hleads hdecided
    have heffect := State.decideFate_effect ((hlegs.coreSite _).trans hsite) ((hlegs.legAt _ _).trans hleg) (hlegs.active.trans hactive)
      (by rw [hmgr]; exact hindep) hran
    rw [State.notReplayable_reported, State.partnerOf_congr hlegs hmgr, hlegs.legSlots, hlegs.number, hmgr, ← hexec] at heffect
    obtain ⟨hframeAfter, hdecidedAfter, hagainst, hasks⟩ := heffect
    exact ⟨s.suspectReport idx, exec_suspectReport idx s, by rw [hframeAfter, State.frame_reported], hdecidedAfter, hagainst,
      fun p g hno hp _ => hasks hno p hp⟩
  · refine ⟨s.msgIn.replayRequest src frame group core leg input, by rw [exec_replayRequest, hnext], fun hnone => ?_, fun why hwhy => ?_⟩
    · rw [State.replayRequest, State.replayRefusal_msgIn, hnone]
      simp only [State.onMgr, s.mgr_msgIn]
    · rw [State.replayRequest, State.replayRefusal_msgIn, hwhy]
  · subst hqleg
    obtain ⟨⟨r, hfresh, hrunAfter⟩, hhamper, hmgr⟩ := s.replayBegun_effect site q l
    refine ⟨s.replayBegun site q l, r, ?_, hrunAfter, hfresh.leg, hfresh.idx, hfresh.replay, hfresh.toIssue, hfresh.start, hhamper, hmgr⟩
    rw [exec_replayRun, hnext, State.replayRun_eq hsite hleg hq hst hframe hrun hover hclear hfree]
  · subst hframe hsrc
    obtain ⟨hunclean, -⟩ := State.replayOut_eq (out := (out, payloads)) ((s.openAsked_msgIn core leg).trans hasked)
    rw [s.frame_msgIn] at hunclean
    exact ⟨s.msgIn.dropReplay core leg 3 1, by rw [exec_replayOutput, hnext, hunclean], s.dropReplay_msgIn core leg 3 1⟩
  · subst hframe hsrc
    have hparts : s.onlyIn s.msgIn [.fields, .irq] := s.onlyIn_raiseBoth irqFabric
    have hnow : s.msgIn.now = s.now := hparts .now (by decide)
    have hlegs := s.sameLegs_msgIn
    obtain ⟨-, hclean⟩ := State.replayOut_eq (out := (out, payloads)) ((s.openAsked_msgIn core leg).trans hasked)
    have hlimit : s.msgIn.replayLimit = s.replayLimit := by unfold State.replayLimit; rw [s.frame_msgIn]
    have hframeNs : s.msgIn.frameNs = s.frameNs := by unfold State.frameNs; rw [hnow, s.frame_msgIn]
    rw [hframeNs, hlimit, s.frame_msgIn] at hclean
    obtain ⟨hopen, hown, hhamper⟩ := (s.msgIn.hamperWrites site out).outputPlaced_effect core leg
    have hmgr : (s.msgIn.hamperWrites site out).mgr = s.mgr := (State.onlyIn_hamperWrites _ site out .mgr (by decide)).trans s.mgr_msgIn
    refine ⟨(s.msgIn.hamperWrites site out).outputPlaced core leg, ?_, hopen, by rw [hown, hmgr],
      hhamper.trans (State.hamperWrites_congr ⟨hparts .hamper (by decide), hparts .cores (by decide)⟩ site out)⟩
    rw [exec_replayOutput, hnext, hclean htime hended hreports, State.placeOutput_eq _ ((hlegs.coreSite _).trans hsite) ((hlegs.legAt _ _).trans hleg)
      (by rw [s.frame_msgIn]; exact hheld)]
  · subst hframe hsrc
    refine ⟨s.msgIn.dropReplay core leg 2 1, ?_, s.dropReplay_msgIn core leg 2 1⟩
    rw [exec_replayRefuse, hnext, State.replayRefused, State.openAsked_msgIn, hasked]
    simp [s.frame_msgIn]
  · refine ⟨s.dropReplay core leg 4 1, ?_, s.dropReplay_effect core leg 4 1⟩
    rw [exec_replayGiveUp, hnext, State.giveUpReplay, hasked]
    simp [hst, htime]

end Sys2Proof.Machine

/-!
PROOFS of the statement on loading itineraries (05_itineraries_and_frames R172, R177, R190 to R192, R196, R328).
-/

namespace Sys2Proof.Machine

/-! Management commands that are taken (R313, R331). -/

/-- A command that meets no common result acts once CMD_HEAD has advanced. -/
theorem State.heeds.mgmt {s : State} {c : Mgmt} {r : CmdRule} (h : s.heeds c r) (target : Nat) (act : State → State) :
    s.mgmt c r target act = act (s.take c.fn) := by
  obtain ⟨-, htakes, hcommon⟩ := h
  have hcommon' : (s.take c.fn).common c r = none := hcommon
  simp [State.mgmt, htakes, hcommon']

theorem State.heeds.ok {s : State} {c : Mgmt} {r : CmdRule} (h : s.heeds c r) : c.ok = true := decide_eq_true h.1

theorem State.onlyIn_take (s : State) (fn : Nat) : s.onlyIn (s.take fn) [.host] := State.onlyIn_setWin (State.onlyIn_refl s _) (by decide)

@[simp] theorem State.take_frame (s : State) (fn : Nat) : (s.take fn).frame = s.frame := rfl

/-- A response changes one window. -/
theorem State.respond_eq_setWin (s : State) (c : Mgmt) (code result : Nat) (detail : Bytes) :
    ∃ w, s.respond c code result detail = s.setWin c.fn w := by
  unfold State.respond
  dsimp only
  split <;> exact ⟨_, rfl⟩

/-- An audit entry waits in the security records. -/
theorem State.onlyIn_audit (s : State) (fn action result code target : Nat) (detail : Bytes) :
    s.onlyIn (s.audit fn action result code target detail) [.sec] := by
  intro p hp
  cases p
  case sec => exact absurd (by decide) hp
  all_goals rfl

theorem State.onlyIn_onFrame (s : State) (f : FrameSt → FrameSt) : s.onlyIn (s.onFrame f) [.frame] := by
  intro p hp
  cases p
  case frame => exact absurd (by decide) hp
  all_goals rfl

/-- An answer is a response and an audit entry. -/
theorem State.onlyIn_answer (s : State) (c : Mgmt) (code result target : Nat) (detail : Bytes) :
    s.onlyIn (s.answer c code result target detail) [.host, .sec] := by
  obtain ⟨w, hw⟩ := (s.audit c.fn code (if result = 0 then 0 else 1) result target).respond_eq_setWin c code result detail
  rw [State.answer, hw]
  exact State.onlyIn_setWin (State.onlyIn_mono (State.onlyIn_audit s _ _ _ _ _ _) (by decide)) (by decide)

@[simp] theorem State.answer_frame (s : State) (c : Mgmt) (code result target : Nat) (detail : Bytes) :
    (s.answer c code result target detail).frame = s.frame := s.onlyIn_answer c code result target detail .frame (by decide)

/-- Where the next response of a function goes is the same in two states: its ring, the ring's tail, and whether it is discarded. -/
structure State.sameRing (s t : State) (fn : Nat) : Prop where
  rsp : (t.win fn).rsp = (s.win fn).rsp
  tail : (t.win fn).rspTail = (s.win fn).rspTail
  discard : (t.win fn).discard = (s.win fn).discard

theorem State.sameRing.refl (s : State) (fn : Nat) : s.sameRing s fn := ⟨rfl, rfl, rfl⟩

theorem State.sameRing.trans {s t u : State} {fn : Nat} (h : s.sameRing t fn) (h' : t.sameRing u fn) : s.sameRing u fn :=
  ⟨h'.rsp.trans h.rsp, h'.tail.trans h.tail, h'.discard.trans h.discard⟩

theorem State.sameRing_of_win {s t : State} (h : t.host.win = s.host.win) (fn : Nat) : s.sameRing t fn := by
  have hw : t.win fn = s.win fn := by rw [State.win, h]; rfl
  exact ⟨by rw [hw], by rw [hw], by rw [hw]⟩

theorem State.sameRing.onFrame {s t : State} {fn : Nat} (h : s.sameRing t fn) (g : FrameSt → FrameSt) : s.sameRing (t.onFrame g) fn :=
  ⟨h.rsp, h.tail, h.discard⟩

theorem State.sameRing_take (s : State) (fn : Nat) : s.sameRing (s.take fn) fn := by
  constructor <;> simp [State.take]

/-- A response as seen from a state with the same ring. -/
theorem State.sameRing.responded {s t u : State} {c : Mgmt} {code result : Nat} (h : s.sameRing t c.fn) (h' : t.responded u c code result) :
    s.responded u c code result where
  idle := h'.idle
  record := fun hd => h.tail ▸ h'.record (h.discard.trans hd)
  tail := fun hd => h.tail ▸ h'.tail (h.discard.trans hd)

/-- An answer stands at the tail of the ring as it was found, and the window is free. -/
theorem State.sameRing.answer {s t : State} {c : Mgmt} (h : s.sameRing t c.fn) (code result target : Nat) (detail : Bytes) :
    s.responded (t.answer c code result target detail) c code result := by
  obtain ⟨hrsp, htail, hdiscard⟩ := h
  have hwin : ∀ r, (t.audit c.fn code r result target).win c.fn = t.win c.fn := fun _ => rfl
  cases hd : (s.win c.fn).discard
  · constructor <;> simp [State.answer, State.respond, hwin, hrsp, htail, hdiscard, hd]
  · constructor <;> simp [State.answer, State.respond, hwin, hdiscard, hd]

/-! The windows of commands that wait (R331). -/

/-- The commands not yet answered: a LOAD under check, STOPs, a CANCEL_LOAD. -/
def FrameSt.unanswered (f : FrameSt) : List Mgmt := (f.load.map (·.cmd)).toList ++ f.stops ++ (f.cancel.map (·.1)).toList

theorem State.rebusy_eq (s : State) :
    s.rebusy = s.frame.unanswered.foldl (fun (s : State) c => s.setWin c.fn { s.win c.fn with busy := true }) s := rfl

/-- Nothing waits, nothing changes. -/
theorem State.rebusy_none {s : State} (h : s.frame.unanswered = []) : s.rebusy = s := by rw [State.rebusy_eq, h]; rfl

theorem State.nothingWaits.unanswered {s : State} (h : s.nothingWaits) : s.frame.unanswered = [] := by
  obtain ⟨hload, hstops, hcancel⟩ := h
  simp [FrameSt.unanswered, hload, hstops, hcancel]

theorem State.onlyIn_rebusy (s : State) : s.onlyIn s.rebusy [.host] :=
  State.onlyIn_foldl (fun s _ => State.onlyIn_setWin (State.onlyIn_refl s _) (by decide)) _ s

@[simp] theorem State.rebusy_frame (s : State) : s.rebusy.frame = s.frame := s.onlyIn_rebusy .frame (by decide)

/-- The window of a command that waits is busy. -/
theorem State.rebusy_busy {s : State} {c : Mgmt} (h : c ∈ s.frame.unanswered) : (s.rebusy.win c.fn).busy = true := by
  rw [State.rebusy_eq]
  refine foldl_mem (fun _ => True) (fun s : State => (s.win c.fn).busy = true) (fun _ _ h => h) (fun s _ => by simp) (fun s b _ hs => ?_) h trivial
  by_cases hfn : c.fn = b.fn
  · simp [hfn]
  · rw [State.win_setWin_ne _ _ hfn]; exact hs

/-- With no LOAD under check a STOP or CANCEL_LOAD is taken like any command, and its window stays busy while it waits. -/
theorem State.besideLoad_of_no_load {s : State} (h : s.frame.load = none) (c : Mgmt) (act : State → State) :
    s.besideLoad c act = (act s).rebusy := by
  simp [State.besideLoad, h]

/-! What draining a pitch leaves: the frame machinery and the windows. -/

/-- The frame machinery and the windows. -/
def State.desk (s : State) : FrameSt × SMap WinSt := (s.frame, s.host.win)

theorem State.desk_inj {s t : State} (h : t.desk = s.desk) : t.frame = s.frame ∧ t.host.win = s.host.win := Prod.mk.inj h

@[simp] theorem State.desk_setFld (s : State) (f : Fld) (v i : Nat) : (s.setFld f v i).desk = s.desk := rfl
@[simp] theorem State.desk_onSrv (s : State) (p : Nat) (g : ServeSt → ServeSt) : (s.onSrv p g).desk = s.desk := rfl
@[simp] theorem State.desk_onCounts (s : State) (p : Nat) (g : ServeCounts → ServeCounts) : (s.onCounts p g).desk = s.desk := rfl
@[simp] theorem State.desk_setQueue (s : State) (q : Nat) (x : QueueSt) : (s.setQueue q x).desk = s.desk := rfl
@[simp] theorem State.desk_writeEntry (s : State) (q : Nat) (c : Completion) : (s.writeEntry q c).desk = s.desk := rfl

@[simp] theorem State.desk_setOwner (s : State) (q : Nat) (k : Option Nat) : (s.setOwner q k).desk = s.desk := by cases k <;> rfl

@[simp] theorem State.desk_queueOff (s : State) (q : Nat) : (s.queueOff q).desk = s.desk := by simp [State.queueOff, State.countQueues]

theorem State.desk_pitchWrite (s : State) (p a : Nat) (bs : Bytes) : (s.pitchWrite p a bs).desk = s.desk := rfl

@[simp] theorem State.desk_setPageCount (s : State) (p page n : Nat) : (s.setPageCount p page n).desk = s.desk := by
  rw [State.setPageCount, State.desk_pitchWrite]

@[simp] theorem State.desk_pageDown (s : State) (p g : Nat) : (s.pageDown p g).desk = s.desk := by
  rw [State.pageDown, State.desk_setPageCount]

@[simp] theorem State.desk_dropCtx (s : State) (p ctx : Nat) : (s.dropCtx p ctx).desk = s.desk := by
  unfold State.dropCtx
  split
  · rfl
  · dsimp only
    rw [State.desk_onSrv]
    exact (foldl_same State.desk (fun s g => s.desk_setPageCount p g 0) _ _).trans (foldl_same State.desk (fun s g => s.desk_pageDown p g) _ s)

@[simp] theorem State.desk_removeReq (s : State) (p tag : Nat) : (s.removeReq p tag).desk = s.desk := by
  unfold State.removeReq
  split
  · rfl
  · dsimp only
    split <;> simp

@[simp] theorem State.desk_postEntry (s : State) (q : Nat) (c : Completion) : (s.postEntry q c).desk = s.desk := by
  unfold State.postEntry
  dsimp only
  split_ifs <;> simp

@[simp] theorem State.desk_endReq (s : State) (p tag status : Nat) : (s.endReq p tag status).desk = s.desk := by
  unfold State.endReq
  split
  · rfl
  · dsimp only
    split_ifs <;> simp

@[simp] theorem State.desk_releaseWaymark (s : State) (p h : Nat) : (s.releaseWaymark p h).desk = s.desk := by
  unfold State.releaseWaymark
  split <;> simp

@[simp] theorem State.desk_drainPitch (s : State) (p : Nat) : (s.drainPitch p).desk = s.desk := by
  unfold State.drainPitch State.releaseAll
  exact (foldl_same State.desk (fun s e => s.desk_releaseWaymark p _) _ _).trans (foldl_same State.desk (fun s r => s.desk_endReq p _ _) _ s)

@[simp] theorem State.desk_msi (s : State) (fn vec : Nat) : (s.msi fn vec).desk = s.desk := by
  unfold State.msi
  split_ifs <;> rfl

@[simp] theorem State.desk_completionMsi (s : State) (q : Nat) : (s.completionMsi q).desk = s.desk := by
  unfold State.completionMsi
  dsimp only
  split_ifs <;> simp

@[simp] theorem State.desk_queuesSettle (s : State) : s.queuesSettle.desk = s.desk := by
  unfold State.queuesSettle
  refine foldl_same State.desk (fun s q => ?_) _ s
  dsimp only
  split_ifs <;> simp

/-- Unloading drains the pitches and settles the queues, then takes the itinerary, its replacement, the STOPs and a held whistle. -/
theorem State.unloadItin_eq (s : State) : ∃ u : State, u.desk = s.desk ∧ s.unloadItin =
    u.onFrame fun f => { f with st := .empty, active := none, repl := none, stops := [], held := false, tNom := 0 } := by
  unfold State.unloadItin
  extract_lets drained settled f
  have hdrained : drained.desk = s.desk := foldl_same State.desk State.desk_drainPitch _ s
  clear_value drained
  have hsettled : settled.desk = s.desk :=
    (State.desk_queuesSettle _).trans ((foldl_same State.desk State.desk_completionMsi _ _).trans hdrained)
  clear_value settled
  exact ⟨settled, hsettled, rfl⟩

theorem State.unloadItin_frame (s : State) :
    s.unloadItin.frame = { s.frame with st := .empty, active := none, repl := none, stops := [], held := false, tNom := 0 } := by
  obtain ⟨u, hdesk, heq⟩ := s.unloadItin_eq
  rw [heq, State.onFrame_frame, (State.desk_inj hdesk).1]

theorem State.sameRing_unloadItin (s : State) (fn : Nat) : s.sameRing s.unloadItin fn := by
  obtain ⟨u, hdesk, heq⟩ := s.unloadItin_eq
  rw [heq]
  exact (State.sameRing_of_win (State.desk_inj hdesk).2 fn).onFrame _

/-! LOAD and the end of its check (R172, R190 to R192). -/

/-- The LOAD that goes under check. -/
def State.loadReq (s : State) (c : Mgmt) (switch : Option Nat) (bytes : Bytes) : LoadReq :=
  ⟨c, switch, bytes, s.now, if s.frame.st = .running && s.flag F.NET_PITCH_CTL_PENDING then some (s.pitchCopy 1) else none⟩

/-- With its state right, no lock and no other load, LOAD goes under check. -/
theorem State.load_begins {s : State} {c : Mgmt} {switch : Option Nat} {bytes : Bytes} (hnow : s.loadNotNow switch = false)
    (hlock : s.locked = false) (hload : s.frame.load = none) (hrepl : s.frame.repl = none) :
    s.load c switch bytes = s.onFrame fun f => { f with load := some (s.loadReq c switch bytes) } := by
  simp [State.load, hnow, hlock, hload, hrepl, State.loadReq]

/-- An answered LOAD is no longer under check. -/
@[simp] theorem State.loadAnswer_frame (s : State) (l : LoadReq) (code cls : Nat) (f : LoadFail) :
    (s.loadAnswer l code cls f).frame = { s.frame with load := none } := State.answer_frame ..

theorem State.sameRing.loadAnswer {s t : State} {l : LoadReq} (h : s.sameRing t l.cmd.fn) (code cls : Nat) (f : LoadFail) :
    s.responded (t.loadAnswer l code cls f) l.cmd 0x20 code :=
  (h.onFrame fun g => { g with load := none }).answer 0x20 code _ _

@[simp] theorem State.loadCtx_it (s : State) (l : LoadReq) : (s.loadCtx l).it = itinOf l.bytes := rfl

/-- The active bank is taken in the state as it is, or unloaded. -/
theorem State.loadNow_eq (s : State) (it : Itin) : ∃ u : State, (u = s ∨ u = s.unloadItin) ∧
    s.loadNow it = u.onFrame fun f => { f with st := .halted, active := some it, tNom := 1000 * it.tNomUs } := by
  unfold State.loadNow
  extract_lets drains u
  refine ⟨u, ?_, rfl⟩
  simp only [u]
  split
  · exact .inr rfl
  · exact .inl rfl

/-- An itinerary that takes the active bank at once is the active one of a HALTED part; a STOP or CANCEL_LOAD does not come to wait. -/
theorem State.loadNow_frame (s : State) (it : Itin) :
    (s.loadNow it).frame.st = .halted ∧ (s.loadNow it).frame.active = some it ∧ (s.loadNow it).frame.tNom = 1000 * it.tNomUs ∧
      (s.frame.stops = [] → (s.loadNow it).frame.stops = []) ∧ (s.loadNow it).frame.cancel = s.frame.cancel := by
  obtain ⟨u, rfl | rfl, heq⟩ := s.loadNow_eq it
  · rw [heq]
    exact ⟨rfl, rfl, rfl, id, rfl⟩
  · rw [heq, State.onFrame_frame, State.unloadItin_frame]
    exact ⟨rfl, rfl, rfl, fun _ => rfl, rfl⟩

theorem State.sameRing_loadNow (s : State) (it : Itin) (fn : Nat) : s.sameRing (s.loadNow it) fn := by
  obtain ⟨u, rfl | rfl, heq⟩ := s.loadNow_eq it
  · rw [heq]
    exact (State.sameRing.refl _ fn).onFrame _
  · rw [heq]
    exact (s.sameRing_unloadItin fn).onFrame _

/-- Once the LOAD is answered nothing waits, if no STOP and no CANCEL_LOAD did. -/
theorem State.rebusy_loadAnswer {s : State} (l : LoadReq) (code cls : Nat) (f : LoadFail) (hstops : s.frame.stops = [])
    (hcancel : s.frame.cancel = none) : (s.loadAnswer l code cls f).rebusy = s.loadAnswer l code cls f :=
  State.rebusy_none (by simp [FrameSt.unanswered, hstops, hcancel])

/-! The commands, taken. -/

section
variable {s : State} {c : Mgmt}

/-- LOAD goes under check and its window stays busy (R172). -/
theorem State.load_effect {switch : Option Nat} {bytes : Bytes} (hnow : s.loadNotNow switch = false) (hlock : s.locked = false)
    (hload : s.frame.load = none) (hrepl : s.frame.repl = none) :
    let t := ((s.take c.fn).load c switch bytes).rebusy
    (t.win c.fn).busy = true ∧ s.onlyIn t [.frame, .host] ∧ t.frame = { s.frame with load := some (s.loadReq c switch bytes) } := by
  have hbegins : (s.take c.fn).load c switch bytes = (s.take c.fn).onFrame fun f => { f with load := some (s.loadReq c switch bytes) } :=
    State.load_begins (s := s.take c.fn) hnow hlock hload hrepl
  have hin : s.onlyIn ((s.take c.fn).onFrame fun f => { f with load := some (s.loadReq c switch bytes) }) [.frame, .host] :=
    State.onlyIn_then (State.onlyIn_mono (s.onlyIn_take c.fn) (by decide)) (State.onlyIn_onFrame _ _) (by decide)
  intro t
  simp only [t, hbegins]
  exact ⟨State.rebusy_busy (c := c) (by simp [FrameSt.unanswered, State.loadReq]), State.onlyIn_then hin (State.onlyIn_rebusy _) (by decide),
    by simp⟩

section
variable {l : LoadReq} {timing cls sec rec detail : Nat} (hload : s.frame.load = some l) (hstops : s.frame.stops = [])
  (hcancel : s.frame.cancel = none) (hholder : s.holder ≠ 0) (hpaused : s.paused = false)
include hload hstops hcancel hholder hpaused

/-- A container that fails a check is answered with the first failing check's code (R172, Table 5-10). -/
theorem State.loadCheckEnd_fails {code : Nat} {f : LoadFail}
    (hfail : firstFailure ((s.loadCtx l).checks s s.loadImage (some (timing, ⟨sec, rec, detail⟩))) = some (code, f)) :
    let t := (s.loadCheckEnd timing cls sec rec detail).rebusy
    s.responded t l.cmd 0x20 code ∧ t.frame = { s.frame with load := none } := by
  have hdef : s.loadCheckEnd timing cls sec rec detail = s.loadAnswer l code (if code = 0x16 then cls else 0) f := by
    simp [State.loadCheckEnd, hload, hholder, hpaused, hfail]
  rw [hdef, State.rebusy_loadAnswer _ _ _ _ hstops hcancel]
  exact ⟨(State.sameRing.refl s _).loadAnswer _ _ _, State.loadAnswer_frame ..⟩

/-- One that passes every check while its state still allows it is answered with 0 and takes a bank: the active one, or the standby
one until its switch frame (R190, R191, Table 5-11). -/
theorem State.loadCheckEnd_takes (hpass : firstFailure ((s.loadCtx l).checks s s.loadImage (some (timing, ⟨sec, rec, detail⟩))) = none)
    (hnow : s.loadNotNow l.switch = false) :
    let t := (s.loadCheckEnd timing cls sec rec detail).rebusy
    (l.switch = none → s.responded t l.cmd 0x20 0 ∧ t.frame.load = none ∧ t.frame.st = .halted ∧ t.frame.active = some (itinOf l.bytes) ∧
      t.frame.tNom = 1000 * (itinOf l.bytes).tNomUs) ∧
    (∀ n, l.switch = some n → s.hasBegun n = false → s.responded t l.cmd 0x20 0 ∧
      t.frame = { s.frame with load := none, repl := some { itin := itinOf l.bytes, switch := n, pitchCopy := l.pitchCopy } }) := by
  refine ⟨fun hswitch => ?_, fun n hswitch hbegun => ?_⟩
  · rw [hswitch] at hnow
    have hdef : s.loadCheckEnd timing cls sec rec detail = (s.loadNow (itinOf l.bytes)).loadAnswer l 0 0 ⟨0, 0, 0⟩ := by
      simp [State.loadCheckEnd, hload, hholder, hpaused, hpass, hswitch, hnow]
    obtain ⟨hst, hactive, htNom, hstops', hcancel'⟩ := s.loadNow_frame (itinOf l.bytes)
    rw [hdef, State.rebusy_loadAnswer _ _ _ _ (hstops' hstops) (hcancel'.trans hcancel), State.loadAnswer_frame]
    exact ⟨(s.sameRing_loadNow _ _).loadAnswer _ _ _, rfl, hst, hactive, htNom⟩
  · rw [hswitch] at hnow
    have hdef : s.loadCheckEnd timing cls sec rec detail =
        (s.onFrame fun f => { f with repl := some { itin := itinOf l.bytes, switch := n, pitchCopy := l.pitchCopy } }).loadAnswer l 0 0 ⟨0, 0, 0⟩ := by
      simp [State.loadCheckEnd, hload, hholder, hpaused, hpass, hswitch, hnow, hbegun]
    rw [hdef, State.rebusy_loadAnswer, State.loadAnswer_frame]
    · exact ⟨((State.sameRing.refl s _).onFrame _).loadAnswer _ _ _, rfl⟩
    · exact hstops
    · exact hcancel

end

/-- UNLOAD unloads a HALTED part alone (R177). -/
theorem State.unload_effect (c : Mgmt) :
    (s.frame.st = .halted → let t := (s.take c.fn).unload c
      s.responded t c 0x21 0 ∧ t.frame.st = .empty ∧ t.frame.active = none ∧ t.frame.repl = none) ∧
    (s.frame.st ≠ .halted → (s.take c.fn).unload c = (s.take c.fn).answer c 0x21 0x20 0) := by
  refine ⟨fun hst => ?_, fun hst => if_neg hst⟩
  have hdef : (s.take c.fn).unload c = (s.take c.fn).unloadItin.answer c 0x21 0 0 := if_pos hst
  intro t
  simp only [t, hdef, State.answer_frame, State.unloadItin_frame]
  exact ⟨((s.sameRing_take c.fn).trans (State.sameRing_unloadItin _ _)).answer _ _ _ _, trivial, trivial, trivial⟩

/-- CANCEL_LOAD discards a replacement, at once unless the next boundary begins its switch frame (R192). -/
theorem State.cancelLoad_effect (hwaits : s.nothingWaits) :
    let t := ((s.take c.fn).cancelLoad c).rebusy
    (s.frame.repl = none → t = (s.take c.fn).answer c 0x24 0x23 0) ∧
    (∀ r, s.frame.repl = some r → r.switch ≠ (s.frame.number + 1) % 2 ^ 64 →
      s.responded t c 0x24 0 ∧ t.frame = { s.frame with repl := none }) ∧
    (∀ r, s.frame.repl = some r → r.switch = (s.frame.number + 1) % 2 ^ 64 →
      (t.win c.fn).busy = true ∧ t.frame = { s.frame with cancel := some (c, s.now) }) := by
  have hload : s.frame.load = none := hwaits.1
  refine ⟨fun hrepl => ?_, fun r hrepl hnext => ?_, fun r hrepl hnext => ?_⟩
  · have hdef : (s.take c.fn).cancelLoad c = (s.take c.fn).answer c 0x24 0x23 0 := by simp [State.cancelLoad, hload, hrepl]
    rw [hdef, State.rebusy_none (by rw [State.answer_frame]; exact hwaits.unanswered)]
  · have hdef : (s.take c.fn).cancelLoad c = ((s.take c.fn).onFrame fun f => { f with repl := none }).answer c 0x24 0 0 := by
      simp only [State.cancelLoad, State.take_frame, hload, hrepl, Option.isSome_none, Bool.false_eq_true, if_false]
      exact if_neg hnext
    rw [hdef, State.rebusy_none (by rw [State.answer_frame]; exact hwaits.unanswered), State.answer_frame]
    exact ⟨((s.sameRing_take c.fn).onFrame _).answer _ _ _ _, rfl⟩
  · have hdef : (s.take c.fn).cancelLoad c = (s.take c.fn).onFrame fun f => { f with cancel := some (c, s.now) } := by
      simp only [State.cancelLoad, State.take_frame, hload, hrepl, Option.isSome_none, Bool.false_eq_true, if_false]
      exact if_pos hnext
    rw [hdef]
    exact ⟨State.rebusy_busy (c := c) (by simp [FrameSt.unanswered]), State.rebusy_frame _⟩

/-- CLEAR_FRAME_COUNTERS touches the report's counters beside its answer (R196). -/
theorem State.clearFrameCounters_effect (c : Mgmt) :
    let t := (s.take c.fn).clearFrameCounters c
    s.responded t c 0x25 0 ∧ t.frame = { s.frame with counts := ⟨0, 0, 0, 0, 0, 0, 0⟩ } ∧ s.onlyIn t [.frame, .host, .sec] := by
  refine ⟨((s.sameRing_take c.fn).onFrame _).answer _ _ _ _, State.answer_frame .., ?_⟩
  have hin : s.onlyIn ((s.take c.fn).onFrame fun f => { f with counts := ⟨0, 0, 0, 0, 0, 0, 0⟩ }) [.frame, .host, .sec] :=
    State.onlyIn_then (State.onlyIn_mono (s.onlyIn_take c.fn) (by decide)) (State.onlyIn_onFrame _ _) (by decide)
  exact State.onlyIn_then hin (State.onlyIn_answer _ _ _ _ _ _) (by decide)

end

/-- Settles O27: each command once it is taken, by what its operation does to the frame machinery and to the response ring. -/
theorem itinerariesLoad : Obligations.ItinerariesLoad := by
  unfold Obligations.ItinerariesLoad
  intro s c
  refine ⟨fun switch bytes hheeds hnow hlock hload hrepl => ?_, fun l timing cls sec rec detail hload hstops hcancel hholder hpaused => ⟨?_, ?_⟩,
    fun hheeds => ?_, fun hheeds hwaits => ?_, fun hheeds => ?_, fun hheeds => ?_⟩
  · rw [exec_load, within_next hheeds.ok, hheeds.mgmt]
    exact ⟨_, rfl, State.load_effect hnow hlock hload hrepl⟩
  · exact fun code f hfail => ⟨_, rfl, State.loadCheckEnd_fails hload hstops hcancel hholder hpaused hfail⟩
  · intro hpass hnow
    obtain ⟨hfirst, hlater⟩ := State.loadCheckEnd_takes (cls := cls) hload hstops hcancel hholder hpaused hpass hnow
    exact ⟨fun hswitch => ⟨_, rfl, hfirst hswitch⟩, fun n hswitch hbegun => ⟨_, rfl, hlater n hswitch hbegun⟩⟩
  · rw [exec_unload, within_next hheeds.ok, hheeds.mgmt]
    obtain ⟨hhalted, helse⟩ := State.unload_effect (s := s) c
    exact ⟨fun hst => ⟨_, rfl, hhalted hst⟩, fun hst => by rw [helse hst]⟩
  · rw [exec_cancelLoad, within_next hheeds.ok, State.besideLoad_of_no_load hwaits.1, hheeds.mgmt]
    obtain ⟨hnone, hother, hnext⟩ := State.cancelLoad_effect (c := c) hwaits
    exact ⟨fun hrepl => by rw [hnone hrepl], fun r hrepl hne => ⟨_, rfl, hother r hrepl hne⟩, fun r hrepl heq => ⟨_, rfl, hnext r hrepl heq⟩⟩
  · rw [exec_clearFrameCounters, within_next hheeds.ok, hheeds.mgmt]
    exact ⟨_, rfl, State.clearFrameCounters_effect c⟩
  · rw [exec_readFrameState, within_next hheeds.ok, hheeds.mgmt]
    rfl

end Sys2Proof.Machine

/-!
PROOFS of the statement on the start and the turn of frames (05_itineraries_and_frames R174 to R180; 12_links_and_fabric R396, R402).
-/

namespace Sys2Proof.Machine

/-! Events leave the response rings. -/

theorem State.sameRing_postTo (s : State) (fn code : Nat) (detail : List Nat) (g : Nat) : s.sameRing (s.postTo fn code detail) g := by
  unfold State.postTo
  extract_lets w tail
  by_cases hg : g = fn
  · split <;> constructor <;> simp [hg, w]
  · split <;> constructor <;> rw [State.win_setWin_ne _ _ hg]

theorem State.sameRing_of_onlyIn {s t : State} {ps : List Part} (h : s.onlyIn t ps) (hp : Part.host ∉ ps) (fn : Nat) : s.sameRing t fn :=
  State.sameRing_of_win (congrArg HostSt.win (h .host hp)) fn

/-! START (R176, R395, R401, R403, R451). -/

/-- The replay maps that go out touch what a manager keeps and the link. -/
theorem State.onlyIn_sendMaps (s : State) : s.onlyIn s.sendMaps [.mgr, .link] := by
  unfold State.sendMaps
  split
  · exact State.onlyIn_refl s _
  · refine State.onlyIn_foldl (fun t i => ?_) _ s
    dsimp only
    split
    · exact State.onlyIn_mono (t.onlyIn_onMgr _) (by decide)
    · exact State.onlyIn_mono (t.onlyIn_sendMsg _ _ _ _) (by decide)

/-- The fields that show the managers. -/
def managerFlds : List Fld :=
  [F.PRT_ROLE_WHISTLE, F.PRT_ROLE_RACK, F.PRT_MGRSTATE_WMGR, F.PRT_MGRSTATE_RMGR, F.PRT_MGREPOCH_EPOCH, F.PRT_TALLY_READY, F.PRT_TALLY_ACKS]

theorem State.nameManagers_leaves (s : State) : s.onlyIn s.nameManagers [.fields] ∧ s.onlyFields s.nameManagers managerFlds := by
  unfold State.nameManagers
  extract_lets mode sys rack own whist t u
  split
  · exact ⟨State.onlyIn_refl s _, State.onlyFields_refl s _⟩
  · have ht : s.onlyIn t [.fields] ∧ s.onlyFields t managerFlds :=
      ⟨State.onlyIn_setFlag (State.onlyIn_setFlag (State.onlyIn_refl s _) (by decide)) (by decide),
        State.onlyFields_setFlag (State.onlyFields_setFlag (State.onlyFields_refl s _) (by decide)) (by decide)⟩
    exact ⟨State.onlyIn_setFld (State.onlyIn_setFld ht.1 (by decide)) (by decide),
      State.onlyFields_setFld (State.onlyFields_setFld ht.2 (by decide)) (by decide)⟩

/-- What START does for the managers touches what they keep, the fields that show them, and the link. -/
theorem State.startManagers_leaves (s : State) :
    s.onlyIn s.startManagers [.fields, .mgr, .link] ∧ s.onlyFields s.startManagers managerFlds := by
  unfold State.startManagers
  extract_lets named epoch begun
  have hnamed : s.onlyIn named [.fields, .mgr, .link] ∧ s.onlyFields named managerFlds :=
    ⟨State.onlyIn_mono s.nameManagers_leaves.1 (by decide), s.nameManagers_leaves.2⟩
  have hepoch : s.onlyIn epoch [.fields, .mgr, .link] ∧ s.onlyFields epoch managerFlds := by
    simp only [epoch]
    split
    · exact ⟨State.onlyIn_setFld hnamed.1 (by decide), State.onlyFields_setFld hnamed.2 (by decide)⟩
    · exact hnamed
  have hbegun : s.onlyIn begun [.fields, .mgr, .link] ∧ s.onlyFields begun managerFlds :=
    ⟨State.onlyIn_then hepoch.1 (State.onlyIn_onMgr _ _) (by decide), State.onlyFields_same hepoch.2 rfl⟩
  have hmaps := ((begun.setFld F.PRT_TALLY_READY 0).setFld F.PRT_TALLY_ACKS 0).onlyIn_sendMaps
  exact ⟨State.onlyIn_then (State.onlyIn_setFld (State.onlyIn_setFld hbegun.1 (by decide)) (by decide)) hmaps (by decide),
    State.onlyFields_same (State.onlyFields_setFld (State.onlyFields_setFld hbegun.2 (by decide)) (by decide)) (hmaps.fields (by decide))⟩

/-- Out of Active or Idle, START finds Active; nothing of frames or responses moves (R451). -/
theorem State.wakeForStart_effect {s : State} (h : s.fld F.PWR_STATUS_STATE < 2) (fn : Nat) :
    s.wakeForStart.fld F.PWR_STATUS_STATE = 0 ∧ s.wakeForStart.frame = s.frame ∧ s.sameRing s.wakeForStart fn := by
  unfold State.wakeForStart
  split
  · refine ⟨?_, by simp, ?_⟩
    · rw [State.fld_post, State.fld_raiseBoth _ _ _ _ (by decide), State.fld_setFld_same]
      rfl
    · refine State.sameRing.trans ?_ (State.sameRing_postTo _ 0 0x00E5 [0] fn)
      exact State.sameRing_of_onlyIn (ps := [.fields, .pwr, .irq]) (State.onlyIn_then (State.onlyIn_setFld (State.onlyIn_setFld
        (State.onlyIn_onPwr (State.onlyIn_refl s _) (by decide)) (by decide)) (by decide)) (State.onlyIn_raiseBoth _ 334) (by decide)) (by decide) fn
  · exact ⟨by omega, rfl, .refl s fn⟩

/-- START in HALTED, with DIAG 0 and out of Doze: ARMED for the frame named, in Active, answered. -/
theorem State.start_effect {s : State} {c : Mgmt} (frame : Nat) (hst : s.frame.st = .halted) (hdiag : s.flag F.SEC_LOCK_DIAG = false)
    (hstate : s.fld F.PWR_STATUS_STATE < 2) :
    s.responded (s.start c frame) c 0x22 0 ∧ (s.start c frame).fld F.PWR_STATUS_STATE = 0 ∧
      (s.start c frame).frame = { s.frame with st := .armed, startFrame := frame % 2 ^ 64, held := false, afterSelf := false } := by
  have hdef : s.start c frame = (s.wakeForStart.startManagers.onFrame fun f =>
      { f with st := .armed, startFrame := frame % 2 ^ 64, held := false, afterSelf := false }).answer c 0x22 0 (frame % 2 ^ 32) := by
    simp only [State.start, hst, hdiag, ne_eq, not_true_eq_false, decide_false, Bool.or_false, Bool.false_or, decide_eq_true_eq]
    exact if_neg (by omega)
  obtain ⟨hwakeState, hwakeFrame, hwakeRing⟩ := State.wakeForStart_effect hstate c.fn
  obtain ⟨hmgrs, hmgrsFlds⟩ := s.wakeForStart.startManagers_leaves
  rw [hdef]
  refine ⟨State.sameRing.answer ((hwakeRing.trans (State.sameRing_of_onlyIn hmgrs (by decide) c.fn)).onFrame _) _ _ _ _, ?_, ?_⟩
  · have hanswer := State.fld_of_fields ((State.onlyIn_answer (s.wakeForStart.startManagers.onFrame fun f =>
      { f with st := .armed, startFrame := frame % 2 ^ 64, held := false, afterSelf := false }) c 0x22 0 (frame % 2 ^ 32) []).fields (by decide))
    rw [hanswer, State.fld_onFrame, hmgrsFlds.fld _ (by decide), hwakeState]
  · have hframe : s.wakeForStart.startManagers.frame = s.frame := Eq.trans (hmgrs .frame (by decide)) hwakeFrame
    rw [State.answer_frame, State.onFrame_frame, hframe]

/-! STOP (R176, R177). -/

/-- STOP ends ARMED at once and waits in RUNNING; there is nothing to stop in HALTED and EMPTY. -/
theorem State.stop_effect {s : State} {c : Mgmt} (hwaits : s.nothingWaits) :
    let t := ((s.take c.fn).stop c).rebusy
    (s.frame.st = .armed → s.responded t c 0x23 0 ∧ t.frame = { s.frame with st := .halted }) ∧
    (s.frame.st = .running → (t.win c.fn).busy = true ∧ t.frame = { s.frame with stops := [c] }) ∧
    (s.frame.st = .halted ∨ s.frame.st = .empty → t = (s.take c.fn).answer c 0x23 0x20 0) := by
  have hidle := hwaits.unanswered
  refine ⟨fun hst => ?_, fun hst => ?_, fun hst => ?_⟩
  · have hdef : (s.take c.fn).stop c = ((s.take c.fn).onFrame fun f => { f with st := .halted }).answer c 0x23 0 0 := by
      simp [State.stop, hst]
    rw [hdef, State.rebusy_none (by rw [State.answer_frame]; exact hidle), State.answer_frame]
    exact ⟨((s.sameRing_take c.fn).onFrame _).answer _ _ _ _, rfl⟩
  · have hdef : (s.take c.fn).stop c = (s.take c.fn).onFrame fun f => { f with stops := f.stops ++ [c] } := by simp [State.stop, hst]
    rw [hdef]
    refine ⟨State.rebusy_busy (c := c) (by simp [FrameSt.unanswered]), ?_⟩
    rw [State.rebusy_frame, State.onFrame_frame, State.take_frame, hwaits.2.1]
    rfl
  · have hdef : (s.take c.fn).stop c = (s.take c.fn).answer c 0x23 0x20 0 := by
      rcases hst with hst | hst <;> simp [State.stop, hst]
    rw [hdef, State.rebusy_none (by rw [State.answer_frame]; exact hidle)]

/-! Whistles (R178, R396). -/

/-- Fewer than eight samples are a glitch. -/
theorem State.whistleEdge_glitch (s : State) {n : Nat} (h0 : 0 < n) (h8 : n < 8) : s.whistleEdge n = s.count F.PRT_WGLITCHCNT := by
  rw [State.whistleEdge, if_neg (by omega), if_pos h8]

/-- Eight are an edge, which counts for nothing unless WHISTLE_IN is the source. -/
theorem State.whistleEdge_other (s : State) {n : Nat} (h8 : 8 ≤ n) (hsource : s.mgr.source ≠ 0) : s.whistleEdge n = s.count F.PRT_WPINCNT := by
  rw [State.whistleEdge, if_neg (by omega), if_neg (by omega)]
  exact if_neg hsource

theorem State.whistleEdge_source (s : State) {n : Nat} (h8 : 8 ≤ n) (hsource : s.mgr.source = 0) :
    s.whistleEdge n = (s.count F.PRT_WPINCNT).whistleArrives none := by
  rw [State.whistleEdge, if_neg (by omega), if_neg (by omega)]
  exact if_pos hsource

/-- No frame runs and none is to begin: the whistle is ignored. -/
theorem State.whistleArrives_ignored {s : State} (number : Option Nat) (h : s.frame.st = .halted ∨ s.frame.st = .empty) :
    s.whistleArrives number = s.onFrameCounts fun c => { c with ignored := sat32 (c.ignored + 1) } := by
  rcases h with h | h <;> simp [State.whistleArrives, h]

/-- The first whistle in ARMED begins the first frame; a message must name it. -/
theorem State.whistleArrives_armed {s : State} {number : Option Nat} (h : s.frame.st = .armed)
    (hnumber : number = none ∨ number = some s.frame.startFrame) : s.whistleArrives number = s.boundary 3 := by
  rcases hnumber with rfl | rfl <;> simp [State.whistleArrives, h]

theorem State.whistleArrives_running {s : State} (number : Option Nat) (h : s.frame.st = .running) :
    s.whistleArrives number = s.whistleRunning number := by
  simp [State.whistleArrives, h]

section
variable {s : State} {number : Option Nat} (hnumber : number = none ∨ number = some ((s.frame.number + 1) % 2 ^ 64)) (hstray : s.inStray = false)
include hnumber hstray

/-- A whistle in the window is a boundary. -/
theorem State.whistleRunning_window (hopen : s.windowOpen = true) (hholds : s.windowHolds = true) (hheld : s.frame.held = false) :
    s.whistleRunning number = s.boundary 0 := by
  rcases hnumber with rfl | rfl <;> simp [State.whistleRunning, hstray, hopen, hholds, hheld]

/-- One before the window is counted and held. -/
theorem State.whistleRunning_early (hopen : s.windowOpen = false) :
    s.whistleRunning number = (s.onFrameCounts fun c => { c with early := sat32 (c.early + 1) }).onFrame fun f => { f with held := true } := by
  rcases hnumber with rfl | rfl <;> simp [State.whistleRunning, hstray, hopen]

end

/-- A message for a frame that neither runs nor comes next is foreign. -/
theorem State.whistleRunning_foreign {s : State} {n : Nat} (hnext : n ≠ (s.frame.number + 1) % 2 ^ 64) (hnow : n ≠ s.frame.number) :
    s.whistleRunning (some n) = s.foreign := by
  have hforeign : (n != (s.frame.number + 1) % 2 ^ 64) = true := by simpa using hnext
  have hpast : (some n == some s.frame.number) = false := by simpa using hnow
  simp only [State.whistleRunning, hforeign, hpast, if_true, Bool.and_false, Bool.false_eq_true, if_false]

/-- A whistle message of the whistling manager counts where messages are the source (R401). -/
theorem State.whistleMsg_accepted {s : State} {src epoch : Nat} (frame : Nat) (h : s.accepts s.whistleMgr src epoch) (hsource : s.mgr.source = 1) :
    s.whistleMsg src epoch frame = (s.setFld F.PRT_MGREPOCH_EPOCH epoch).whistleArrives (some frame) := by
  obtain ⟨hsrc, hnumbered, hepoch⟩ := h
  rw [State.whistleMsg, State.fromMgr, if_neg (by simp [← hsrc, hnumbered]; omega)]
  exact if_pos hsource

/-- Counting a whistle answers no command. -/
theorem State.rebusy_onFrameCounts {s : State} (h : s.nothingWaits) (g : FrameCounts → FrameCounts) : (s.onFrameCounts g).rebusy = s.onFrameCounts g :=
  State.rebusy_none h.unanswered

/-! The manager's whistle (R180, R363). -/

/-- With an empty withheld list no list goes out. -/
theorem State.listTry_of_empty {s : State} (h : s.withheldList = []) : s.listTry = s := by simp [State.listTry, h]

theorem State.managerWhistle_armed {s : State} (h : s.isWhistle = true) (hst : s.frame.st = .armed) : s.managerWhistle = s.boundary 3 := by
  simp [State.managerWhistle, h, hst]

theorem State.managerWhistle_running {s : State} (h : s.isWhistle = true) (hst : s.frame.st = .running) (hlist : s.withheldList = [])
    (hmay : s.mayWhistle = true) : s.managerWhistle = s.absences.boundary 0 := by
  simp [State.managerWhistle, h, hst, State.listTry_of_empty hlist, hmay]

/-! The ready point (R174, R268). -/

theorem State.desk_of_onlyIn {s t : State} {ps : List Part} (h : s.onlyIn t ps) (hf : Part.frame ∉ ps) (hh : Part.host ∉ ps) : t.desk = s.desk :=
  Prod.ext (h .frame hf) (congrArg HostSt.win (h .host hh))

/-- The exit stage reports and sends. -/
theorem State.desk_exitReady (s : State) (p : Nat) : (s.exitReady p).desk = s.desk := by
  unfold State.exitReady
  extract_lets exits bound missing t items parts
  have ht : t.desk = s.desk :=
    State.desk_of_onlyIn (State.onlyIn_then (ps := [.fields, .mgr, .link]) (State.onlyIn_count (State.onlyIn_refl s _) (by decide))
      (State.onlyIn_withholdNotice _ _ _ _) (by decide)) (by decide) (by decide)
  exact (foldl_same State.desk (fun u part => State.desk_of_onlyIn (u.onlyIn_sendMsg _ _ _ _) (by decide) (by decide)) parts t).trans ht

/-- READY_POINT acts from 0.875 · T_nom, and notes it. -/
theorem State.readyPointActs_frame {s : State} (hst : s.frame.st = .running) (hready : s.frame.readyPoint = false)
    (htime : 875 * s.frame.tNom / 1000 ≤ s.frameNs) : s.readyPointActs.frame = { s.frame with readyPoint := true } := by
  unfold State.readyPointActs
  rw [if_neg (by simp [hst, hready]; omega)]
  extract_lets t
  have hexits : ((List.range 16).foldl (fun (s : State) p => s.exitReady p) t).desk = t.desk := foldl_same State.desk State.desk_exitReady _ t
  rw [(State.desk_inj hexits).1]
  exact State.raiseBoth_frame _ _

/-- It acts once in a frame. -/
theorem State.readyPointActs_again {s : State} (h : s.frame.readyPoint = true) : s.readyPointActs = s := by
  unfold State.readyPointActs
  exact if_pos (by simp [h])

/-! READY (R180, R402). -/

theorem State.readyRepeat_sends {s : State} (hst : s.frame.st = .running) (hready : s.ownReady = true) (hpaused : s.paused = false)
    (hmgr : s.whistleMgr ≠ 0xFFFF) (hother : s.whistleMgr ≠ s.partNum) (hdue : ∀ x, s.mgr.readySent = some x → x + 4000 ≤ s.now) :
    s.readyRepeat = (s.onMgr fun m => { m with readySent := some s.now }).sendCtl s.whistleMgr 2 s.frame.number [s.fld F.PWR_STATUS_DEGRADED] := by
  cases hsent : s.mgr.readySent with
  | none => simp [State.readyRepeat, hst, hready, hpaused, hmgr, hother, hsent]
  | some x => simp [State.readyRepeat, hst, hready, hpaused, hmgr, hother, hsent, hdue x hsent]

/-- Settles O28: each command and event by what it does to the frame machinery; which of them are boundaries. -/
theorem framesStartAndTurn : Obligations.FramesStartAndTurn := by
  unfold Obligations.FramesStartAndTurn
  intro s c hwaits
  have hidle := hwaits.unanswered
  refine ⟨fun frame hheeds hst hdiag hstate => ?_, fun hheeds => ?_, fun n => ⟨fun h0 h8 => ?_, fun h8 hsource => ?_, fun h8 hsource hst => ?_,
    fun h8 hsource hst => ?_, fun h8 hsource hst hstray => ⟨fun hopen hholds hheld => ?_, fun hopen => ?_⟩⟩,
    fun src epoch frame haccepts hsource => ⟨fun hst hframe => ?_, fun hst hframe hstray hopen hholds hheld => ?_, fun hst hnext hnow => ?_⟩,
    fun hst hheld hopen => ?_, fun hst htime => ?_, fun hmgr => ⟨fun hst => ?_, fun hst hlist hmay => ?_⟩, fun hst hready htime => ?_,
    fun hst hready hpaused hmgr hother hdue => ?_⟩
  · rw [exec_start, within_next hheeds.ok, hheeds.mgmt]
    obtain ⟨hresp, hfld, hframe⟩ := State.start_effect (s := s.take c.fn) (c := c) frame hst hdiag hstate
    exact ⟨_, rfl, (s.sameRing_take c.fn).responded hresp, hfld, hframe⟩
  · rw [exec_stop, within_next hheeds.ok, State.besideLoad_of_no_load hwaits.1, hheeds.mgmt]
    obtain ⟨harmed, hrunning, helse⟩ := State.stop_effect (c := c) hwaits
    exact ⟨fun hst => ⟨_, rfl, harmed hst⟩, fun hst => ⟨_, rfl, hrunning hst⟩, fun hst => by rw [helse hst]⟩
  · rw [exec_whistleInEdge, s.whistleEdge_glitch h0 h8, State.rebusy_none (s := s.count F.PRT_WGLITCHCNT) hidle]
  · rw [exec_whistleInEdge, s.whistleEdge_other h8 hsource, State.rebusy_none (s := s.count F.PRT_WPINCNT) hidle]
  · rw [exec_whistleInEdge, s.whistleEdge_source h8 hsource, State.whistleArrives_ignored (s := s.count F.PRT_WPINCNT) none hst,
      State.rebusy_onFrameCounts (s := s.count F.PRT_WPINCNT) hwaits]
  · rw [exec_whistleInEdge, s.whistleEdge_source h8 hsource, State.whistleArrives_armed (s := s.count F.PRT_WPINCNT) hst (.inl rfl)]
  · rw [exec_whistleInEdge, s.whistleEdge_source h8 hsource, State.whistleArrives_running (s := s.count F.PRT_WPINCNT) none hst,
      State.whistleRunning_window (s := s.count F.PRT_WPINCNT) (.inl rfl) hstray hopen hholds hheld]
  · rw [exec_whistleInEdge, s.whistleEdge_source h8 hsource, State.whistleArrives_running (s := s.count F.PRT_WPINCNT) none hst,
      State.whistleRunning_early (s := s.count F.PRT_WPINCNT) (.inl rfl) hstray hopen]
    exact ⟨_, rfl, State.rebusy_frame _⟩
  · rw [exec_whistle, State.whistleMsg_accepted frame haccepts hsource,
      State.whistleArrives_armed (s := s.setFld F.PRT_MGREPOCH_EPOCH epoch) hst (.inr (congrArg some hframe))]
  · rw [exec_whistle, State.whistleMsg_accepted frame haccepts hsource, State.whistleArrives_running (s := s.setFld F.PRT_MGREPOCH_EPOCH epoch) _ hst,
      State.whistleRunning_window (s := s.setFld F.PRT_MGREPOCH_EPOCH epoch) (.inr (congrArg some hframe)) hstray hopen hholds hheld]
  · rw [exec_whistle, State.whistleMsg_accepted frame haccepts hsource, State.whistleArrives_running (s := s.setFld F.PRT_MGREPOCH_EPOCH epoch) _ hst,
      State.whistleRunning_foreign (s := s.setFld F.PRT_MGREPOCH_EPOCH epoch) hnext hnow, State.foreign,
        State.rebusy_onFrameCounts (s := s.setFld F.PRT_MGREPOCH_EPOCH epoch) hwaits]
  · rw [exec_windowOpen, State.windowOpening, if_pos (by simp [hst, hheld, hopen])]
  · rw [exec_selfWhistle, State.selfWhistle, if_pos (by simp [hst, htime])]
  · rw [exec_managerWhistle, State.managerWhistle_armed hmgr hst]
  · rw [exec_managerWhistle, State.managerWhistle_running hmgr hst hlist hmay]
  · refine ⟨_, rfl, State.readyPointActs_frame hst hready htime, ?_⟩
    rw [exec_readyPoint, State.readyPointActs_again (by rw [State.readyPointActs_frame hst hready htime])]
  · rw [exec_readyRepeat, State.readyRepeat_sends hst hready hpaused hmgr hother hdue]
    rfl

end Sys2Proof.Machine

/-!
PROOFS of the statement on resets, power states and powered hours (14_power_clocks_startup R451 to R461; 05_itineraries_and_frames R189).
-/

namespace Sys2Proof.Machine

/-! What a reset leaves of the registers and of the arrays (R189, R504). -/

/-- A write leaves every other key as it was. -/
theorem SMap.find?_set_ne {α : Type} [DecidableEq α] (d : α) (m : SMap α) {k i : Nat} (v : α) (h : i ≠ k) :
    SMap.find? (SMap.set d m k v) i = SMap.find? m i := by
  unfold SMap.set
  split
  · exact SMap.find?_drop_ne m h
  · exact SMap.find?_put_ne m v h

/-- Leaving out entries that hold the default changes no reading of a table whose keys rise. -/
theorem SMap.get_filter_ne_default {α : Type} [DecidableEq α] (d : α) {m : SMap α} {b : Nat} (h : SMap.rising b m = true) (k : Nat) :
    SMap.get d (m.filter fun e => decide (e.2 ≠ d)) k = SMap.get d m k := by
  induction m generalizing b with
  | nil => rfl
  | cons e m ih =>
    obtain ⟨j, v⟩ := e
    simp only [SMap.rising, Bool.and_eq_true, decide_eq_true_eq] at h
    have ih := ih h.2
    unfold SMap.get at ih ⊢
    by_cases hj : j = k
    · subst hj
      by_cases hv : v = d
      · have habsent : SMap.find? (m.filter fun e => decide (e.2 ≠ d)) j = none :=
          SMap.find?_of_lt (SMap.rising_filter _ h.2) (Nat.lt_succ_self j)
        simp only [ne_eq, decide_not] at habsent
        simp [SMap.find?, hv, habsent]
      · simp [SMap.find?, hv]
    · by_cases hv : v = d
      · simpa [SMap.find?, hv, hj] using ih
      · simpa [SMap.find?, hv, hj] using ih

/-- A map over numbered entries that leaves the keys maps what a key finds, under some number. -/
theorem SMap.find?_mapIdx {α : Type} (g : α → Nat → α) (m : SMap α) (k n : Nat) :
    ∃ i, SMap.find? ((m.zipIdx n).map fun e => (e.1.1, g e.1.2 e.2)) k = (SMap.find? m k).map fun v => g v i := by
  induction m generalizing n with
  | nil => exact ⟨0, rfl⟩
  | cons e m ih =>
    obtain ⟨j, v⟩ := e
    obtain ⟨i, hi⟩ := ih (n + 1)
    rw [List.zipIdx_cons, List.map_cons]
    by_cases hj : j = k
    · exact ⟨n, by simp [SMap.find?, hj]⟩
    · exact ⟨i, by simpa [SMap.find?, hj] using hi⟩

/-- An array without a command keeps its cells. -/
theorem ArrSt.afterReset_idle {x : ArrSt} (h : x.cmd = none) (t : Nat) : (x.afterReset t).cells = x.cells ∧ (x.afterReset t).cmd = none := by
  simp [ArrSt.afterReset, h, ArrSt.init]

/-- The arrays after a reset, where the table of arrays is canonical. -/
theorem State.arr_discard {s : State} (keep : List Fld) (pwr : PwrSt) (a : Nat) (h : SMap.rising 0 s.arrays = true) (hcmd : (s.arr a).cmd = none) :
    ((s.discard keep pwr).arr a).cells = (s.arr a).cells ∧ ((s.discard keep pwr).arr a).cmd = none := by
  have hrising := SMap.rising_mapIdx (f := fun e : (Nat × ArrSt) × Nat => (e.1.1, e.1.2.afterReset (2097152 * (s.free + e.2)))) (k := 0) (fun _ => rfl) h
  have hget : (s.discard keep pwr).arr a =
      SMap.get .init (s.arrays.zipIdx.map fun e => (e.1.1, e.1.2.afterReset (2097152 * (s.free + e.2)))) a :=
    SMap.get_filter_ne_default _ hrising a
  obtain ⟨i, hfind⟩ := SMap.find?_mapIdx (fun x n => x.afterReset (2097152 * (s.free + n))) s.arrays a 0
  rw [hget, SMap.get, hfind]
  unfold State.arr SMap.get at hcmd ⊢
  cases hx : SMap.find? s.arrays a with
  | none => exact ⟨rfl, rfl⟩
  | some x => exact ArrSt.afterReset_idle (by simpa [hx] using hcmd) _

/-- A field whose home is neither kept nor the vault nor a fuse is back at its reset value. -/
theorem State.fld_discard (s : State) (keep : List Fld) (pwr : PwrSt) (f : Fld) (i : Nat)
    (h : f.code % 1024 ∉ (keep ++ ledgerFields ++ fusedFields).map (·.code)) : (s.discard keep pwr).fld f i = f.reset := by
  have hfind := SMap.find?_filter_key (fun k => ((keep ++ ledgerFields ++ fusedFields).map (·.code)).contains (k % 1024)) s.fields (f.key i)
  rw [if_neg (by rw [Fld.key_mod, List.contains_iff_mem]; exact h)] at hfind
  exact congrArg (Option.getD · f.reset) hfind

/-! Volatile state lost (R189, R459). -/

/-- What changed before the reset in the registers, in the record of power and in what the security records do not keep is of no account. -/
theorem State.volatileLost_discard {s u : State} {keep : List Fld} (pwr : PwrSt) (hin : s.onlyIn u [.fields, .pwr, .sec]) (hsec : u.sec.kept = s.sec.kept)
    (hkeep : F.SEC_FN_ROLE_ROLE.code % 1024 ∉ (keep ++ ledgerFields ++ fusedFields).map (·.code)) : s.volatileLost (u.discard keep pwr) where
  frame := ⟨rfl, rfl⟩
  serve := rfl
  memory := ⟨rfl, rfl⟩
  cores := rfl
  records := by
    have hwgt : u.wgt = s.wgt := hin .wgt (by decide)
    exact ⟨(congrArg WgtSt.recs hwgt :), (congrArg WgtSt.ledger hwgt :), (congrArg WgtSt.resident hwgt :)⟩
  session := ⟨rfl, rfl⟩
  security := ⟨(congrArg SecSt.opKeys hsec :), (congrArg SecSt.insKeys hsec :), (congrArg SecSt.pubKeys hsec :),
    (congrArg SecSt.log hsec :), (congrArg SecSt.nextSeq hsec :)⟩
  roles := fun fn => u.fld_discard keep pwr F.SEC_FN_ROLE_ROLE fn hkeep
  history := by
    have hhist : u.hist = s.hist := hin .hist (by decide)
    exact (congrArg HistSt.recs hhist :)
  cells := fun hcanonical a hcmd => by
    have harrays : u.arrays = s.arrays := hin .arrays (by decide)
    have hrising : SMap.rising 0 u.arrays = true := harrays ▸ (Held.of_canonical hcanonical).arrays
    have harr : u.arr a = s.arr a := State.arr_of_arrays harrays
    rw [← harr] at hcmd ⊢
    exact u.arr_discard keep pwr a hrising hcmd

/-- A start that begins after the reset brings nothing of it back. -/
theorem State.volatileLost.later {s t u : State} {fs : List Fld} (h : s.volatileLost t) (hin : t.onlyIn u [.fields, .vfields, .irq, .pwr, .smb])
    (hflds : t.onlyFields u fs) (hrole : F.SEC_FN_ROLE_ROLE.code % 1024 ∉ fs.map (·.code)) : s.volatileLost u where
  frame := by rw [show u.frame = t.frame from hin .frame (by decide)]; exact h.frame
  serve := Eq.trans (hin .serve (by decide)) h.serve
  memory := ⟨Eq.trans (hin .hamper (by decide)) h.memory.1, Eq.trans (hin .dram (by decide)) h.memory.2⟩
  cores := Eq.trans (hin .cores (by decide)) h.cores
  records := by rw [show u.wgt = t.wgt from hin .wgt (by decide)]; exact h.records
  session := by rw [show u.wgt = t.wgt from hin .wgt (by decide)]; exact h.session
  security := by rw [show u.sec = t.sec from hin .sec (by decide)]; exact h.security
  roles := fun fn => (hflds.fld fn hrole).trans (h.roles fn)
  history := by rw [show u.hist = t.hist from hin .hist (by decide)]; exact h.history
  cells := fun hcanonical a hcmd => by
    rw [State.arr_of_arrays (a := a) (hin .arrays (by decide))]
    exact h.cells hcanonical a hcmd

/-- Losing all supply also loses what a reset leaves of the interrupt controller and of the service bus. -/
theorem State.onlyIn_powerReset (s : State) (aon : Bool) :
    (s.discard [] { s.pwr.kept with aon := aon, blankFrom := s.now }).onlyIn (s.powerReset aon) [.irq, .smb] := by
  intro p hp
  cases p
  case irq => exact absurd (by decide) hp
  case smb => exact absurd (by decide) hp
  all_goals rfl

/-- Losing all supply, or gaining it: the cause reads 0 (R460). -/
theorem State.powerReset_effect (s : State) (aon : Bool) : s.volatileLost (s.powerReset aon) ∧ (s.powerReset aon).fld F.PWR_RESET_LASTCAUSE = 0 := by
  have hlost := State.volatileLost_discard (keep := []) { s.pwr.kept with aon := aon, blankFrom := s.now } (State.onlyIn_refl s _) rfl (by decide)
  refine ⟨hlost.later (fs := []) (State.onlyIn_mono (s.onlyIn_powerReset aon) (by decide))
    (State.onlyFields_same (State.onlyFields_refl _ _) rfl) (by decide), ?_⟩
  exact s.fld_discard [] { s.pwr.kept with aon := aon, blankFrom := s.now } F.PWR_RESET_LASTCAUSE 0 (by decide)

/-- A system reset loses volatile state and names its cause (R458 to R460). -/
theorem State.systemReset_effect {s u : State} {cause : Nat} (hcause : cause < 16) (hin : s.onlyIn u [.fields, .pwr, .sec]) (hsec : u.sec.kept = s.sec.kept) :
    s.volatileLost (u.systemReset cause) ∧ (u.systemReset cause).fld F.PWR_RESET_LASTCAUSE = cause := by
  have hlost := State.volatileLost_discard u.pwr.afterReset hin hsec (keep := aonFields) (by decide)
  refine ⟨hlost.later (fs := [F.PWR_RESET_LASTCAUSE]) (State.onlyIn_setFld (State.onlyIn_refl _ _) (by decide))
    (State.onlyFields_setFld (State.onlyFields_refl _ _) (by decide)) (by decide), ?_⟩
  exact (State.fld_setFld_same _ F.PWR_RESET_LASTCAUSE cause 0).trans (Nat.mod_eq_of_lt hcause)

/-! A start begins (R438, R462, R463). -/

/-- The fields that the beginning of a start may write. -/
def startFlds : List Fld :=
  ledgerFields ++ [F.PWR_BOOT_START, F.PWR_STATUS_STATE, F.PWR_RAIL_DATA_CMD_MV, F.PWR_BOOT_STAGE, F.PWR_BOOT_READY, F.PWR_RAIL_DATA_STATE]

/-- What forbids a start: none is wanted, SYS_RST_N is low, REFCLK or VDD_AON is lost, or the part has tripped. -/
def State.startBarred (s : State) : Bool := !s.pwr.want || s.pwr.sysRst || s.pwr.refLost || !s.pwr.aon || s.flag F.THM_TRIP_TRIPPED

theorem State.startBegin_barred {s : State} (h : s.startBarred = true) : s.startBegin = s := if_pos h

/-- A field of the boot ledger moves one start back in every step, and its newest entry is cleared (R462). -/
def ledgerShift (old : SMap Nat) (f : Fld) (m : SMap Nat) : SMap Nat :=
  (List.range 12).foldl (fun m t => (List.range 15).foldl (fun m k =>
    SMap.set f.reset m (f.key (12 * (15 - k) + t)) (SMap.get f.reset old (f.key (12 * (14 - k) + t)))) (SMap.set f.reset m (f.key t) f.reset)) m

/-- That leaves every other field. -/
theorem SMap.find?_ledgerShift (old : SMap Nat) (f : Fld) (m : SMap Nat) {k : Nat} (h : k % 1024 ≠ f.code % 1024) :
    SMap.find? (ledgerShift old f m) k = SMap.find? m k := by
  have hset : ∀ (m : SMap Nat) i v, SMap.find? (SMap.set f.reset m (f.key i) v) k = SMap.find? m k :=
    fun m i v => SMap.find?_set_ne _ _ _ fun hk => h (by rw [hk, Fld.key_mod])
  exact foldl_same (SMap.find? · k) (fun m t => (foldl_same (SMap.find? · k) (fun m _ => hset m _ _) _ _).trans (hset m _ _)) _ m

theorem SMap.find?_ledgerShifts (old m : SMap Nat) {k : Nat} (h : ∀ f ∈ ledgerFields, k % 1024 ≠ f.code % 1024) :
    SMap.find? (ledgerFields.foldl (fun m f => ledgerShift old f m) m) k = SMap.find? m k := by
  simp only [ledgerFields, List.forall_mem_cons] at h
  obtain ⟨hoc, hmode, hdetail, hms, -⟩ := h
  simp only [ledgerFields, List.foldl_cons, List.foldl_nil]
  rw [SMap.find?_ledgerShift _ _ _ hms, SMap.find?_ledgerShift _ _ _ hdetail, SMap.find?_ledgerShift _ _ _ hmode, SMap.find?_ledgerShift _ _ _ hoc]

theorem ledgerFields_startFlds : ∀ f ∈ ledgerFields, f.code % 1024 ∈ startFlds.map (·.code) := by decide

theorem State.onlyIn_withFields (s : State) (m : SMap Nat) : s.onlyIn { s with fields := m } [.fields] := by
  intro p hp
  cases p
  case fields => exact absurd (by decide) hp
  all_goals rfl

/-- Beginning a start touches registers, the vault's count of starts and the record of power, and no pin or reference of it. -/
theorem State.startBegin_leaves (s : State) :
    s.onlyIn s.startBegin [.fields, .vfields, .pwr] ∧ s.onlyFields s.startBegin startFlds ∧
      s.startBegin.pwr.sysRst = s.pwr.sysRst ∧ s.startBegin.pwr.refLost = s.pwr.refLost := by
  unfold State.startBegin
  split
  · exact ⟨State.onlyIn_refl s _, State.onlyFields_refl s _, rfl, rfl⟩
  extract_lets old shift shifted closed n counted rails begun
  have hshifted : s.onlyIn shifted [.fields, .vfields, .pwr] ∧ s.onlyFields shifted startFlds :=
    ⟨State.onlyIn_mono (s.onlyIn_withFields _) (by decide), fun k hk =>
      SMap.find?_ledgerShifts old s.fields fun f hf hkf => hk (hkf ▸ ledgerFields_startFlds f hf)⟩
  have hclosed : s.onlyIn closed [.fields, .vfields, .pwr] ∧ s.onlyFields closed startFlds ∧ closed.pwr = s.pwr := by
    simp only [closed]
    split
    · exact ⟨State.onlyIn_setFld hshifted.1 (by decide), State.onlyFields_setFld hshifted.2 (by decide), rfl⟩
    · exact ⟨hshifted.1, hshifted.2, rfl⟩
  have hcounted : s.onlyIn counted [.fields, .vfields, .pwr] ∧ s.onlyFields counted startFlds :=
    ⟨State.onlyIn_setFld (State.onlyIn_setVfld (State.onlyIn_setFld hclosed.1 (by decide)) (by decide)) (by decide),
      State.onlyFields_setFld (State.onlyFields_setVfld (State.onlyFields_setFld hclosed.2.1 (by decide))) (by decide)⟩
  have hrails : s.onlyIn rails [.fields, .vfields, .pwr] ∧ s.onlyFields rails startFlds ∧ rails.pwr = s.pwr :=
    ⟨State.onlyIn_trans hcounted.1 (State.onlyIn_foldl (fun t _ => State.onlyIn_setFld (State.onlyIn_refl t _) (by decide)) _ _),
      State.onlyFields_trans hcounted.2 (State.onlyFields_foldl (fun t _ => State.onlyFields_setFld (State.onlyFields_refl t _) (by decide)) _ _),
      (foldl_same State.pwr (fun (t : State) i => State.setFld_pwr t F.PWR_RAIL_DATA_CMD_MV (t.vfld F.PWR_RAIL_DATA_CMD_MV i) i) _ _).trans hclosed.2.2⟩
  clear_value rails
  refine ⟨State.onlyIn_setFld (State.onlyIn_onPwr (State.onlyIn_setFld (State.onlyIn_setFld (State.onlyIn_onPwr hrails.1 (by decide)) (by decide))
    (by decide)) (by decide)) (by decide), State.onlyFields_setFld (State.onlyFields_onPwr (State.onlyFields_setFld (State.onlyFields_setFld
    (State.onlyFields_onPwr hrails.2.1) (by decide)) (by decide))) (by decide), (congrArg PwrSt.sysRst hrails.2.2 :),
    (congrArg PwrSt.refLost hrails.2.2 :)⟩

/-- With nothing in its way a start begins: the first rail is raised, step 0 is under way, and the vault counts the start. -/
theorem State.startBegin_begins {s : State} (h : s.startBarred = false) :
    s.startBegin.pwr.seq = .raise 0 ∧ s.startBegin.pwr.begun = some 0 ∧
      s.startBegin.vfld F.PWR_BOOT_START = (s.vfld F.PWR_BOOT_START + 1) % 65536 := by
  unfold State.startBegin
  rw [if_neg (by rw [← State.startBarred, h]; exact Bool.false_ne_true)]
  extract_lets old shift shifted closed n counted rails begun
  refine ⟨rfl, rfl, ?_⟩
  have hrails : rails.vfld F.PWR_BOOT_START = counted.vfld F.PWR_BOOT_START := foldl_same (fun t : State => t.vfld F.PWR_BOOT_START)
    (fun (t : State) i => State.vfld_setFld t F.PWR_RAIL_DATA_CMD_MV (t.vfld F.PWR_RAIL_DATA_CMD_MV i) i F.PWR_BOOT_START 0) _ counted
  have hcounted : counted.vfld F.PWR_BOOT_START = n % 2 ^ F.PWR_BOOT_START.width := State.vfld_setVfld_same (closed.setFld F.PWR_BOOT_START n) F.PWR_BOOT_START n 0
  have hclosed : closed.vfld F.PWR_BOOT_START = s.vfld F.PWR_BOOT_START := by
    simp only [closed]
    split <;> rfl
  have hn : n = (s.vfld F.PWR_BOOT_START + 1) % 65536 := by rw [← hclosed]
  have hcount : rails.vfld F.PWR_BOOT_START = (s.vfld F.PWR_BOOT_START + 1) % 65536 :=
    (hrails.trans hcounted).trans (by rw [hn]; exact Nat.mod_mod _ 65536)
  clear_value rails
  exact hcount

/-- With no start wanted, lowering the rails touches the one that is lowered. -/
theorem State.railsLower_unwanted {s : State} (h : s.pwr.want = false) :
    s.onlyIn s.railsLower [.fields, .pwr] ∧ s.onlyFields s.railsLower [F.PWR_RAIL_DATA_STATE] := by
  unfold State.railsLower
  split
  · exact ⟨State.onlyIn_setFld (State.onlyIn_onPwr (State.onlyIn_refl s _) (by decide)) (by decide),
      State.onlyFields_setFld (State.onlyFields_onPwr (State.onlyFields_refl s _)) (by decide)⟩
  · rw [State.startBegin_barred (by simp [State.startBarred, h])]
    exact ⟨State.onlyIn_onPwr (State.onlyIn_refl s _) (by decide), State.onlyFields_onPwr (State.onlyFields_refl s _)⟩

/-! Resets by SYS_RST_N, REFCLK and SYSRST (R456, R458, R459). -/

/-- The part goes to Off with no start wanted, and its rails are lowered unless a trip has taken them. -/
def State.offUnwanted (s : State) : State :=
  if (s.setFld F.PWR_STATUS_STATE 3).flag F.THM_TRIP_TRIPPED then s.setFld F.PWR_STATUS_STATE 3 else (s.setFld F.PWR_STATUS_STATE 3).railsLower

theorem State.offUnwanted_effect {s : State} (h : s.pwr.want = false) :
    s.onlyIn s.offUnwanted [.fields, .pwr] ∧ s.onlyFields s.offUnwanted [F.PWR_STATUS_STATE, F.PWR_RAIL_DATA_STATE] ∧ s.offUnwanted.isOff = true := by
  have hoff : (s.setFld F.PWR_STATUS_STATE 3).fld F.PWR_STATUS_STATE = 3 := State.fld_setFld_same ..
  have hin : s.onlyIn (s.setFld F.PWR_STATUS_STATE 3) [.fields, .pwr] := State.onlyIn_setFld (State.onlyIn_refl s _) (by decide)
  have hflds : s.onlyFields (s.setFld F.PWR_STATUS_STATE 3) [F.PWR_STATUS_STATE, F.PWR_RAIL_DATA_STATE] :=
    State.onlyFields_setFld (State.onlyFields_refl s _) (by decide)
  unfold State.offUnwanted
  split
  · exact ⟨hin, hflds, by simp [State.isOff, hoff]⟩
  · obtain ⟨hlowerIn, hlowerFlds⟩ := State.railsLower_unwanted (s := s.setFld F.PWR_STATUS_STATE 3) h
    refine ⟨State.onlyIn_trans hin hlowerIn, State.onlyFields_then hflds hlowerFlds (by decide), ?_⟩
    rw [State.isOff, hlowerFlds.fld _ (by decide), hoff]
    rfl

/-- A system reset after which no start is wanted, and Off. -/
theorem State.systemReset_off {s u t : State} {cause : Nat} {fs : List Fld} (hcause : cause < 16) (hin : s.onlyIn u [.fields, .pwr, .sec])
    (hsec : u.sec.kept = s.sec.kept) (hwant : u.pwr.want = false) (ht : (u.systemReset cause).onlyIn t [.fields])
    (hflds : (u.systemReset cause).onlyFields t fs) (hrole : F.SEC_FN_ROLE_ROLE.code % 1024 ∉ fs.map (·.code))
    (hlast : F.PWR_RESET_LASTCAUSE.code % 1024 ∉ fs.map (·.code)) :
    s.volatileLost t.offUnwanted ∧ t.offUnwanted.fld F.PWR_RESET_LASTCAUSE = cause ∧ t.offUnwanted.isOff = true := by
  obtain ⟨hlost, hread⟩ := State.systemReset_effect hcause hin hsec
  have hpwr : t.pwr = (u.systemReset cause).pwr := ht .pwr (by decide)
  obtain ⟨hoffIn, hoffFlds, hoff⟩ := State.offUnwanted_effect (s := t) (by rw [hpwr]; exact hwant)
  refine ⟨(hlost.later (State.onlyIn_mono ht (by decide)) hflds hrole).later (State.onlyIn_mono hoffIn (by decide)) hoffFlds (by decide), ?_, hoff⟩
  rw [hoffFlds.fld _ (by decide), hflds.fld _ hlast, hread]

theorem State.sysAssert_effect (s : State) : s.volatileLost s.sysAssert ∧ s.sysAssert.fld F.PWR_RESET_LASTCAUSE = 1 ∧ s.sysAssert.isOff = true :=
  State.systemReset_off (u := (s.onPwr fun p => { p with sysRst := true, want := false, offHeld := false }).setFld F.PWR_STATUS_RAIL_FAULT 0) (fs := [])
    (by decide) (State.onlyIn_setFld (State.onlyIn_onPwr (State.onlyIn_refl s _) (by decide)) (by decide)) rfl rfl
    (State.onlyIn_refl _ _) (State.onlyFields_refl _ _) (by decide) (by decide)

theorem State.refLoss_effect {s : State} (h : s.pwr.refLost = false) :
    s.volatileLost s.refLoss ∧ s.refLoss.fld F.PWR_RESET_LASTCAUSE = 3 ∧ s.refLoss.isOff = true := by
  rw [State.refLoss, h]
  exact State.systemReset_off
    (u := (s.count F.CLK_REFLOSSCNT).onPwr fun p => { p with refLost := true, want := false, tbRun := false, tb := s.time }) (fs := [F.CLK_STATUS_REF_OK])
    (by decide) (State.onlyIn_onPwr (State.onlyIn_count (State.onlyIn_refl s _) (by decide)) (by decide)) rfl rfl
    (State.onlyIn_setFld (State.onlyIn_refl _ _) (by decide)) (State.onlyFields_setFld (State.onlyFields_refl _ _) (by decide)) (by decide) (by decide)

/-- SYSRST by an installer: a system reset, and the start that follows where the sequencer stands. -/
theorem State.sysrstWrite_resets {s : State} {fn : Nat} (hopen : s.barOpen = true) (hrole : roleIns ≤ s.roleOf fn) :
    s.volatileLost (s.sysrstWrite (.host fn)) ∧ (s.sysrstWrite (.host fn)).fld F.PWR_RESET_LASTCAUSE = 2 := by
  obtain ⟨hlost, hread⟩ := State.systemReset_effect (s := s) (u := s.audit fn 0xFFFF 0 0 0x6020) (cause := 2) (by decide)
    (State.onlyIn_mono (State.onlyIn_audit s _ _ _ _ _ _) (by decide)) rfl
  have hwanted := hlost.later (u := ((s.audit fn 0xFFFF 0 0 0x6020).systemReset 2).onPwr fun p => { p with want := true }) (fs := [])
    (State.onlyIn_onPwr (State.onlyIn_refl _ _) (by decide)) (State.onlyFields_onPwr (State.onlyFields_refl _ _)) (by decide)
  simp only [State.sysrstWrite, State.ownWrite, hopen, Nat.not_lt_of_le hrole, Bool.not_true, Bool.false_eq_true, Bool.false_and, if_false]
  split
  · obtain ⟨hin, hflds, -, -⟩ := (((s.audit fn 0xFFFF 0 0 0x6020).systemReset 2).onPwr fun p => { p with want := true }).startBegin_leaves
    refine ⟨hwanted.later (State.onlyIn_mono hin (by decide)) hflds (by decide), ?_⟩
    rw [hflds.fld _ (by decide)]
    exact hread
  · exact ⟨hwanted, hread⟩

theorem State.sysrstWrite_refused {s : State} {fn : Nat} (hopen : s.barOpen = true) (hrole : s.roleOf fn < roleIns) :
    s.sysrstWrite (.host fn) = s.audit fn 0xFFFF 1 0xF3 0x6020 := by
  simp [State.sysrstWrite, State.ownWrite, hopen, hrole]


/-- A sequencer that stands idle is asked to begin a start. -/
def State.startIdle (s : State) : State := if s.pwr.seq = .idle then s.startBegin else s

theorem State.startIdle_leaves (s : State) :
    s.onlyIn s.startIdle [.fields, .vfields, .pwr] ∧ s.onlyFields s.startIdle startFlds ∧
      s.startIdle.pwr.sysRst = s.pwr.sysRst ∧ s.startIdle.pwr.refLost = s.pwr.refLost := by
  unfold State.startIdle
  split
  · exact s.startBegin_leaves
  · exact ⟨State.onlyIn_refl s _, State.onlyFields_refl s _, rfl, rfl⟩

theorem State.startIdle_stands {s : State} (h : s.pwr.seq ≠ .idle ∨ s.startBarred = true) : s.startIdle = s := by
  unfold State.startIdle
  split
  · next hidle => exact State.startBegin_barred (h.resolve_left (not_not_intro hidle))
  · rfl

theorem State.startIdle_begins {s : State} (hidle : s.pwr.seq = .idle) (h : s.startBarred = false) :
    s.startIdle.pwr.seq = .raise 0 ∧ s.startIdle.pwr.begun = some 0 ∧
      s.startIdle.vfld F.PWR_BOOT_START = (s.vfld F.PWR_BOOT_START + 1) % 65536 := by
  rw [State.startIdle, if_pos hidle]
  exact State.startBegin_begins h

/-! SYS_RST_N rises, and REFCLK is back (R453, R459). -/

/-- SYS_RST_N is high, a start is wanted and the straps are sampled. -/
def State.strapsSampled (s : State) (mode addr : Nat) : State :=
  let t := (s.onPwr fun p => { p with sysRst := false, want := true }).setFld F.GLB_STRAPS_MODE mode
  { t with smb := { t.smb with addr := addr % 4 } }.setFlag F.CLK_STATUS_REF_OK (!t.pwr.refLost)

theorem State.sysRelease_starts {s : State} (mode addr : Nat) (h : s.pwr.sysRst = true) : s.sysRelease mode addr = (s.strapsSampled mode addr).startIdle := by
  rw [State.sysRelease, h]
  rfl

theorem State.strapsSampled_mode (s : State) (mode addr : Nat) : (s.strapsSampled mode addr).fld F.GLB_STRAPS_MODE = mode % 4 :=
  (State.fld_setFld_of_code _ F.CLK_STATUS_REF_OK F.GLB_STRAPS_MODE _ 0 0 (by decide) (by decide) (by decide)).trans (State.fld_setFld_same ..)

/-- A field that reads as before reads as before as a flag. -/
theorem State.flag_of_fld {s t : State} {f : Fld} {i : Nat} (h : t.fld f i = s.fld f i) : t.flag f i = s.flag f i := congrArg (· == 1) h

theorem State.strapsSampled_tripped (s : State) (mode addr : Nat) : (s.strapsSampled mode addr).flag F.THM_TRIP_TRIPPED = s.flag F.THM_TRIP_TRIPPED :=
  State.flag_of_fld ((State.fld_setFld_of_code _ F.CLK_STATUS_REF_OK F.THM_TRIP_TRIPPED _ 0 0 (by decide) (by decide) (by decide)).trans
    (State.fld_setFld_of_code _ F.GLB_STRAPS_MODE F.THM_TRIP_TRIPPED _ 0 0 (by decide) (by decide) (by decide)))

theorem State.strapsSampled_barred (s : State) (mode addr : Nat) :
    (s.strapsSampled mode addr).startBarred = (s.pwr.refLost || !s.pwr.aon || s.flag F.THM_TRIP_TRIPPED) := by
  rw [State.startBarred, State.strapsSampled_tripped]
  rfl

/-- REFCLK runs again: a start is wanted unless a reset or Off is held, and the time base goes on. -/
def State.refRuns (s : State) : State :=
  (s.onPwr fun p => { p with refLost := false, want := !p.sysRst && !p.offHeld,
                             tbRun := decide (0 < p.tb), tb := if 0 < p.tb then s.now - p.tb else 0 }).setFld F.CLK_STATUS_REF_OK 1

theorem State.refBack_starts {s : State} (h : s.pwr.refLost = true) : s.refBack = s.refRuns.startIdle := by
  rw [State.refBack, h]
  rfl

theorem State.refRuns_barred (s : State) :
    s.refRuns.startBarred = (!(!s.pwr.sysRst && !s.pwr.offHeld) || s.pwr.sysRst || !s.pwr.aon || s.flag F.THM_TRIP_TRIPPED) := by
  have htripped : s.refRuns.flag F.THM_TRIP_TRIPPED = s.flag F.THM_TRIP_TRIPPED :=
    State.flag_of_fld (State.fld_setFld_of_code _ F.CLK_STATUS_REF_OK F.THM_TRIP_TRIPPED _ 0 0 (by decide) (by decide) (by decide))
  rw [State.startBarred, htripped, show s.refRuns.pwr.refLost = false from rfl, Bool.or_false]
  rfl

/-! Power states (R451, R452). -/

/-- A change of power state that begins, or that is no change. -/
theorem State.stateChange_effect (s : State) (n : Nat) :
    (s.stateChange n).fld F.PWR_STATE_REQ_TARGET = s.fld F.PWR_STATE_REQ_TARGET ∧ (s.stateChange n).frame = s.frame ∧
      (s.fld F.PWR_STATUS_STATE ≠ n → (s.stateChange n).pwr.change = some (n, s.now)) := by
  have htarget (t : State) (v : Nat) (h : t.fields = s.fields) : (t.setFld F.PWR_STATUS_CHANGING v).fld F.PWR_STATE_REQ_TARGET = s.fld F.PWR_STATE_REQ_TARGET :=
    (State.fld_setFld_of_code _ _ _ _ _ _ (by decide) (by decide) (by decide)).trans (State.fld_of_fields h _ _)
  unfold State.stateChange
  split
  · next h =>
    refine ⟨?_, ?_, fun hne => absurd h hne⟩
    · split
      · rfl
      · exact htarget _ 0 rfl
    · split <;> rfl
  · exact ⟨htarget _ 1 rfl, rfl, fun _ => rfl⟩

section
variable {s : State} {fn : Nat} (hopen : s.barOpen = true) (hrole : roleOpr ≤ s.roleOf fn)
include hopen hrole

theorem State.stateReq_acts {v : Nat} (hv : bitsAt v 0 2 ≠ 3) (h : bitsAt v 0 2 = 0 ∨ (s.frame.st ≠ .armed ∧ s.frame.st ≠ .running)) :
    s.stateReq (.host fn) v = ((s.audit fn 0xFFFF 0 0 0x6004).setFld F.PWR_STATE_REQ_TARGET (bitsAt v 0 2)).stateChange (bitsAt v 0 2) := by
  have hframe : (s.audit fn 0xFFFF 0 0 0x6004).frame = s.frame := rfl
  simp only [State.stateReq, State.ownWrite, hopen, Nat.not_lt_of_le hrole, Bool.not_true, Bool.false_eq_true, Bool.false_and, if_false, hframe]
  rcases h with h | ⟨harmed, hrunning⟩
  · simp [h]
  · simp [hv, harmed, hrunning]

theorem State.stateReq_running {v : Nat} (hv : bitsAt v 0 2 ≠ 0) (h : s.frame.st = .armed ∨ s.frame.st = .running) :
    s.stateReq (.host fn) v = s.audit fn 0xFFFF 0 0 0x6004 := by
  have hframe : (s.audit fn 0xFFFF 0 0 0x6004).frame = s.frame := rfl
  simp only [State.stateReq, State.ownWrite, hopen, Nat.not_lt_of_le hrole, Bool.not_true, Bool.false_eq_true, Bool.false_and, if_false, hframe]
  rw [if_pos (by simp [hv, h])]

end

/-- The state that a change goes to next: between Active and Doze it is Idle. -/
def powerNext (now t : Nat) : Nat := if (now = 0 && t = 2) || (now = 2 && t = 0) then 1 else t

theorem powerNext_eq {a b : Nat} (ha : a ≤ 2) (hb : b ≤ 2) : powerNext a b = if a + b = 2 ∧ a ≠ 1 then 1 else b := by
  have hall : ∀ a < 3, ∀ b < 3, powerNext a b = if a + b = 2 ∧ a ≠ 1 then 1 else b := by decide
  exact hall a (Nat.lt_succ_of_le ha) b (Nat.lt_succ_of_le hb)

/-- The part shows the next state and posts it, its cores cleared where it leaves Doze. -/
def State.powerShown (s : State) (next : Nat) : State :=
  (((if s.fld F.PWR_STATUS_STATE = 2 && next = 1 then s.leaveDoze else s).setFld F.PWR_STATUS_STATE next).raiseBoth 334).post 0x00E5 [next]

theorem State.powerShown_state (s : State) (next : Nat) : (s.powerShown next).fld F.PWR_STATUS_STATE = next % 4 := by
  rw [State.powerShown, State.fld_post, State.fld_raiseBoth _ _ _ _ (by decide)]
  exact State.fld_setFld_same ..

theorem State.powerShown_pwr (s : State) (next : Nat) : (s.powerShown next).pwr = s.pwr := by
  rw [State.powerShown, State.post_pwr, State.raiseBoth_pwr, State.setFld_pwr]
  split
  · exact s.coresDue_pwr
  · rfl

theorem State.powerState_shows {s : State} {b x : Nat} (h : s.pwr.change = some (b, x)) :
    s.powerState = if powerNext (s.fld F.PWR_STATUS_STATE) b = b
      then ((s.powerShown (powerNext (s.fld F.PWR_STATUS_STATE) b)).onPwr fun p => { p with change := none }).setFld F.PWR_STATUS_CHANGING 0
      else s.powerShown (powerNext (s.fld F.PWR_STATUS_STATE) b) := by
  unfold State.powerState
  rw [h]
  rfl

theorem State.powerState_changes {s : State} {a b x : Nat} (h : s.pwr.change = some (b, x)) (ha : s.fld F.PWR_STATUS_STATE = a) (ha2 : a ≤ 2) (hb2 : b ≤ 2) :
    s.powerState.fld F.PWR_STATUS_STATE = (if a + b = 2 ∧ a ≠ 1 then 1 else b) ∧
      s.powerState.pwr.change = (if a + b = 2 ∧ a ≠ 1 then some (b, x) else none) := by
  rw [State.powerState_shows h, ha, powerNext_eq ha2 hb2]
  by_cases hidle : a + b = 2 ∧ a ≠ 1
  · have hb1 : 1 ≠ b := by omega
    simp only [if_pos hidle, if_neg hb1]
    exact ⟨s.powerShown_state 1, (congrArg PwrSt.change (s.powerShown_pwr 1)).trans h⟩
  · simp only [if_neg hidle, if_true]
    refine ⟨?_, rfl⟩
    rw [State.fld_setFld_of_code _ _ _ _ _ _ (by decide) (by decide) (by decide)]
    rw [State.fld_onPwr, State.powerShown_state]
    omega

/-! The supply warning (R461). -/

/-- The fields that a command given to an array by its job may write. -/
def jobFlds : List Fld :=
  [F.ARR_CMD_ARG0_ROW, F.ARR_CMD_ARG0_COUNT, F.ARR_CMD_ARG1_HADDR, F.ARR_STATUS_BUSY, F.ARR_CMD_STAT_DONE, F.ARR_STATUS_SIDE_STALE]

/-- The commands of a programming job are ERASE and those that only run until their end. -/
theorem State.jobCommand_op (s : State) (a : Nat) (j : Job) : (s.jobCommand a j).1 = 3 ∨ (4 ≤ (s.jobCommand a j).1 ∧ (s.jobCommand a j).1 ≤ 9) := by
  unfold State.jobCommand
  cases j.stage <;> simp

/-- Such a command, once accepted, starts to run. -/
theorem State.jobCommand_starts {s : State} {a op : Nat} (hop : op = 3 ∨ (4 ≤ op ∧ op ≤ 9)) (h : s.cmdRefusal a op = none) :
    s.startsCommand (s.arrCommand a op 0) a op 0 := by
  rcases hop with rfl | hop
  · rw [State.erase_accepted 0 h]
    exact State.cmdRun_starts (s.eraseReadied_readies a) 3 0
  · exact (State.arrCommand_starts 0 hop h).1

/-- A job stands in the record of the weights. -/
theorem State.onlyIn_setJob (s : State) (a : Nat) (j : Job) : s.onlyIn (s.setJob a j) [.wgt] := by
  intro p hp
  cases p
  case wgt => exact absurd (by decide) hp
  all_goals rfl

theorem State.jobIssue_leaves (s : State) (a : Nat) (j : Job) :
    s.onlyIn (s.jobIssue a j) [.fields, .vfields, .arrays, .hamper, .cores, .net, .wgt] ∧ s.onlyFields (s.jobIssue a j) jobFlds := by
  have hop := s.jobCommand_op a j
  unfold State.jobIssue
  extract_lets c bytes args
  split
  · exact ⟨State.onlyIn_refl s _, State.onlyFields_refl s _⟩
  next hfree =>
  have haccept : args.cmdRefusal a c.1 = none := by
    simp only [Bool.or_eq_true, not_or, Bool.not_eq_true, Option.isSome_eq_false_iff, Option.isNone_iff_eq_none] at hfree
    exact hfree.1.2
  have hbytes : s.onlyIn bytes [.hamper, .cores, .net] := by
    simp only [bytes]
    split
    · exact State.onlyIn_refl s _
    · exact s.onlyIn_hamperWrite _ _ _
  have hargsIn : s.onlyIn args [.fields, .vfields, .arrays, .hamper, .cores, .net, .wgt] :=
    State.onlyIn_setFld (State.onlyIn_setFld (State.onlyIn_setFld (State.onlyIn_mono hbytes (by decide)) (by decide)) (by decide)) (by decide)
  have hargsFlds : s.onlyFields args jobFlds :=
    State.onlyFields_setFld (State.onlyFields_setFld (State.onlyFields_setFld
      (State.onlyFields_same (State.onlyFields_refl s _) (hbytes.fields (by decide))) (by decide)) (by decide)) (by decide)
  have hstarts := State.jobCommand_starts hop haccept
  exact ⟨State.onlyIn_then (State.onlyIn_then hargsIn hstarts.frame (by decide)) (State.onlyIn_setJob _ a _) (by decide),
    State.onlyFields_same (State.onlyFields_then hargsFlds hstarts.fields (by decide)) ((State.onlyIn_setJob _ a _).fields (by decide))⟩

theorem State.kickJobs_leaves (s : State) :
    s.onlyIn s.kickJobs [.fields, .vfields, .arrays, .hamper, .cores, .net, .wgt] ∧ s.onlyFields s.kickJobs jobFlds :=
  ⟨State.onlyIn_foldl (fun (t : State) (e : Nat × Job) => (t.jobIssue_leaves e.1 e.2).1) s.wgt.jobs s,
    State.onlyFields_foldl (fun (t : State) (e : Nat × Job) => (t.jobIssue_leaves e.1 e.2).2) s.wgt.jobs s⟩

/-- The pin's level is shown and posted. -/
def State.warnShown (s : State) (low : Bool) : State :=
  ((s.setFlag F.PWR_STATUS_WARN low).raiseBoth 332).post 0x00E3 [if low then 1 else 0]

theorem State.warnShown_effect (s : State) (low : Bool) :
    (s.warnShown low).flag F.PWR_STATUS_WARN = low ∧ (s.warnShown low).fld F.PWR_WARNCNT = s.fld F.PWR_WARNCNT ∧ (s.warnShown low).frame = s.frame := by
  have hraised (f : Fld) (h : f.code % 1024 ∉ [F.INTC_PEND, F.INTC_MERGECNT].map (·.code)) :
      (s.warnShown low).fld f = (s.setFlag F.PWR_STATUS_WARN low).fld f := by
    rw [State.warnShown, State.fld_post, State.fld_raiseBoth _ _ _ _ h]
  refine ⟨?_, ?_, ?_⟩
  · exact (State.flag_of_fld (hraised F.PWR_STATUS_WARN (by decide))).trans (State.flag_setFlag_same (hf := rfl) ..)
  · exact (hraised F.PWR_WARNCNT (by decide)).trans (State.fld_setFld_of_code _ _ _ _ _ _ (by decide) (by decide) (by decide))
  · rw [State.warnShown, State.post_frame, State.raiseBoth_frame]
    rfl

theorem State.pwrWarn_same {s : State} {low : Bool} (h : s.flag F.PWR_STATUS_WARN = low) : s.pwrWarn low = s := if_pos h

theorem State.pwrWarn_falls {s : State} (h : s.flag F.PWR_STATUS_WARN ≠ true) :
    s.pwrWarn true = ((s.warnShown true).count F.PWR_WARNCNT).sessionAbort := by
  rw [State.pwrWarn, if_neg h]
  exact if_pos rfl

theorem State.pwrWarn_rises {s : State} (h : s.flag F.PWR_STATUS_WARN ≠ false) : s.pwrWarn false = (s.warnShown false).kickJobs := by
  rw [State.pwrWarn, if_neg h]
  exact if_neg Bool.false_ne_true

/-- A fall is counted and aborts an update; a rise lets the jobs go on. -/
theorem State.pwrWarn_changes {s : State} {low : Bool} (h : s.flag F.PWR_STATUS_WARN ≠ low) :
    (s.pwrWarn low).flag F.PWR_STATUS_WARN = low ∧
      (low = true → (s.pwrWarn low).fld F.PWR_WARNCNT = min (s.fld F.PWR_WARNCNT + 1) (2 ^ F.PWR_WARNCNT.width - 1)) ∧ (s.pwrWarn low).frame = s.frame := by
  obtain ⟨hwarn, hcnt, hframe⟩ := s.warnShown_effect low
  cases low with
  | true =>
    rw [State.pwrWarn_falls h]
    have habort := (State.afterFnReset.refl ((s.warnShown true).count F.PWR_WARNCNT)).sessionAbort
    have hcount : (s.warnShown true).onlyFields ((s.warnShown true).count F.PWR_WARNCNT) [F.PWR_WARNCNT] :=
      State.onlyFields_count (State.onlyFields_refl _ _) (by decide)
    refine ⟨?_, fun _ => ?_, ?_⟩
    · rw [State.flag_of_fld (habort.fields.fld _ (by decide)), State.flag_of_fld (hcount.fld _ (by decide)), hwarn]
    · rw [habort.fields.fld _ (by decide), State.fld_count_same, hcnt]
    · rw [habort.frame, State.count_frame, hframe]
  | false =>
    rw [State.pwrWarn_rises h]
    obtain ⟨hin, hflds⟩ := (s.warnShown false).kickJobs_leaves
    have hkick : (s.warnShown false).kickJobs.frame = (s.warnShown false).frame := hin .frame (by decide)
    exact ⟨(State.flag_of_fld (hflds.fld _ (by decide))).trans hwarn, fun hlow => absurd hlow Bool.false_ne_true, hkick.trans hframe⟩

/-! Powered hours (R457). -/

/-- The fields in which the age of an array stands. -/
def ageFlds : List Fld := [F.ARR_AGE_HOURS, F.ARR_AGE_ASSUMED, F.ARR_STATUS_DUE, F.ARR_STATUS_OVERDUE]

theorem State.setAge_leaves (s : State) (a hours : Nat) (assumed : Bool) :
    s.onlyIn (s.setAge a hours assumed) [.fields] ∧ s.onlyFields (s.setAge a hours assumed) ageFlds :=
  ⟨State.onlyIn_setFld (State.onlyIn_setFld (State.onlyIn_setFld (State.onlyIn_setFld (State.onlyIn_refl s _) (by decide)) (by decide)) (by decide)) (by decide),
    State.onlyFields_setFld (State.onlyFields_setFld (State.onlyFields_setFld (State.onlyFields_setFld (State.onlyFields_refl s _) (by decide)) (by decide))
      (by decide)) (by decide)⟩

/-- An hour gives an array an age. -/
theorem State.ageHour_leaves (s : State) (a : Nat) : s.onlyIn (s.ageHour a) [.fields] ∧ s.onlyFields (s.ageHour a) ageFlds := by
  unfold State.ageHour
  dsimp only
  split
  · exact s.setAge_leaves ..
  · split
    · exact s.setAge_leaves ..
    · split <;> exact s.setAge_leaves ..

/-- The count of hours stands in the register and in the vault. -/
def State.hourCounted (s : State) (n : Nat) : State := ((s.setFld F.CLK_POWERED_HOURS n).setVfld F.CLK_POWERED_HOURS n).recordWrites

theorem State.hourCounted_effect (s : State) {n : Nat} (h : n < 2 ^ 32) :
    (s.hourCounted n).fld F.CLK_POWERED_HOURS = n ∧ (s.hourCounted n).vfld F.CLK_POWERED_HOURS = n ∧
      (s.hourCounted n).arrays = s.arrays ∧ (s.hourCounted n).frame = s.frame := by
  refine ⟨?_, ?_, rfl, rfl⟩
  · rw [State.hourCounted, State.recordWrites, State.count, State.fld_setFld_of_code _ _ _ _ _ _ (by decide) (by decide) (by decide), State.fld_setVfld,
      State.fld_setFld_same]
    exact Nat.mod_eq_of_lt h
  · rw [State.hourCounted, State.recordWrites, State.count, State.vfld_setFld, State.vfld_setVfld_same]
    exact Nat.mod_eq_of_lt h

theorem State.poweredHour_effect (s : State) :
    let n := min (s.vfld F.CLK_POWERED_HOURS + 1) (2 ^ 32 - 1)
    s.poweredHour.fld F.CLK_POWERED_HOURS = n ∧ s.poweredHour.vfld F.CLK_POWERED_HOURS = n ∧ s.poweredHour.arrays = s.arrays ∧ s.poweredHour.frame = s.frame := by
  intro n
  have hdef : s.poweredHour = (s.hourCounted n).mappedArrays.foldl (fun (s : State) a => s.ageHour a) (s.hourCounted n) := rfl
  obtain ⟨hfld, hvfld, harrays, hframe⟩ := s.hourCounted_effect (n := n) (by omega)
  have hin : (s.hourCounted n).onlyIn s.poweredHour [.fields] := hdef ▸ State.onlyIn_foldl (fun t a => (t.ageHour_leaves a).1) _ _
  have hflds : (s.hourCounted n).onlyFields s.poweredHour ageFlds := hdef ▸ State.onlyFields_foldl (fun t a => (t.ageHour_leaves a).2) _ _
  have hvfields : s.poweredHour.vfields = (s.hourCounted n).vfields := hin .vfields (by decide)
  refine ⟨(hflds.fld _ (by decide)).trans hfld, ?_, Eq.trans (hin .arrays (by decide)) harrays, Eq.trans (hin .frame (by decide)) hframe⟩
  rw [State.vfld, hvfields]
  exact hvfld

/-! The statement, part by part. -/

/-- Each way to lose volatile state, with the cause that LASTCAUSE names. -/
theorem reset_loses (s : State) {fn : Nat} (hfn : fn ≤ 16) (i : Instr) (cause : Nat)
    (h : (i = .powerOn ∧ cause = 0) ∨ (i = .powerFailure ∧ cause = 0) ∨ (i = .sysRstNAssert ∧ cause = 1) ∨
      (i = .refclkLoss ∧ s.pwr.refLost = false ∧ cause = 3) ∨
      (i = .sysrst (.host fn) ∧ s.barOpen = true ∧ roleIns ≤ s.roleOf fn ∧ cause = 2)) :
    ∃ t, exec i s = .next t ∧ s.volatileLost t ∧ t.fld F.PWR_RESET_LASTCAUSE = cause ∧ (i = .sysRstNAssert ∨ i = .refclkLoss → t.isOff = true) := by
  rcases h with ⟨rfl, rfl⟩ | ⟨rfl, rfl⟩ | ⟨rfl, rfl⟩ | ⟨rfl, hlost, rfl⟩ | ⟨rfl, hopen, hrole, rfl⟩
  · obtain ⟨hvol, hcause⟩ := s.powerReset_effect true
    exact ⟨_, exec_powerOn s, hvol, hcause, fun h => by simp at h⟩
  · obtain ⟨hvol, hcause⟩ := s.powerReset_effect false
    exact ⟨_, exec_powerFailure s, hvol, hcause, fun h => by simp at h⟩
  · obtain ⟨hvol, hcause, hoff⟩ := s.sysAssert_effect
    exact ⟨_, exec_sysRstNAssert s, hvol, hcause, fun _ => hoff⟩
  · obtain ⟨hvol, hcause, hoff⟩ := State.refLoss_effect hlost
    exact ⟨_, exec_refclkLoss s, hvol, hcause, fun _ => hoff⟩
  · obtain ⟨hvol, hcause⟩ := State.sysrstWrite_resets hopen hrole
    exact ⟨_, within_next (hostPath_ok hfn), hvol, hcause, fun h => by simp at h⟩

/-- SYS_RST_N rises: the straps are sampled, and a start begins where nothing stands in its way. -/
theorem State.sysRelease_effect {s : State} (mode addr : Nat) (h : s.pwr.sysRst = true) :
    (s.sysRelease mode addr).pwr.sysRst = false ∧ (s.sysRelease mode addr).fld F.GLB_STRAPS_MODE = mode % 4 ∧ (s.sysRelease mode addr).smb.addr = addr % 4 ∧
      (s.pwr.seq = .idle → s.pwr.refLost = false → s.pwr.aon = true → s.flag F.THM_TRIP_TRIPPED = false →
        (s.sysRelease mode addr).pwr.seq = .raise 0 ∧ (s.sysRelease mode addr).pwr.begun = some 0 ∧
          (s.sysRelease mode addr).vfld F.PWR_BOOT_START = (s.vfld F.PWR_BOOT_START + 1) % 65536) ∧
      (s.pwr.seq ≠ .idle ∨ s.flag F.THM_TRIP_TRIPPED = true → (s.sysRelease mode addr).pwr.want = true ∧ (s.sysRelease mode addr).pwr.seq = s.pwr.seq) := by
  rw [State.sysRelease_starts mode addr h]
  have hbarred := s.strapsSampled_barred mode addr
  obtain ⟨hin, hflds, hpin, -⟩ := (s.strapsSampled mode addr).startIdle_leaves
  have hsmb : (s.strapsSampled mode addr).startIdle.smb = (s.strapsSampled mode addr).smb := hin .smb (by decide)
  refine ⟨hpin, (hflds.fld _ (by decide)).trans (s.strapsSampled_mode mode addr), congrArg SmbSt.addr hsmb, fun hidle href haon htrip => ?_, fun hheld => ?_⟩
  · have hfree : (s.strapsSampled mode addr).startBarred = false := by simp [hbarred, href, haon, htrip]
    exact State.startIdle_begins hidle hfree
  · have hstands : (s.strapsSampled mode addr).pwr.seq ≠ .idle ∨ (s.strapsSampled mode addr).startBarred = true :=
      hheld.imp id fun htrip => by simp [hbarred, htrip]
    rw [State.startIdle_stands hstands]
    exact ⟨rfl, rfl⟩

/-- REFCLK is back: a start begins unless a reset or Off is held. -/
theorem State.refBack_effect {s : State} (h : s.pwr.refLost = true) :
    s.refBack.pwr.refLost = false ∧ s.refBack.fld F.CLK_STATUS_REF_OK = 1 ∧
      (s.pwr.sysRst = true ∨ s.pwr.offHeld = true → s.refBack.pwr.want = false ∧ s.refBack.pwr.seq = s.pwr.seq) ∧
      (s.pwr.sysRst = false → s.pwr.offHeld = false → s.pwr.seq = .idle → s.pwr.aon = true → s.flag F.THM_TRIP_TRIPPED = false →
        s.refBack.pwr.seq = .raise 0) := by
  rw [State.refBack_starts h]
  have hbarred := s.refRuns_barred
  obtain ⟨-, hflds, -, href⟩ := s.refRuns.startIdle_leaves
  refine ⟨href, (hflds.fld _ (by decide)).trans (State.fld_setFld_same ..), fun hheld => ?_, fun hpin hoff hidle haon htrip => ?_⟩
  · have hwant : (!s.pwr.sysRst && !s.pwr.offHeld) = false := by rcases hheld with h | h <;> simp [h]
    have hbar : s.refRuns.startBarred = true := by simp [hbarred, hwant]
    rw [State.startIdle_stands (.inr hbar)]
    exact ⟨hwant, rfl⟩
  · have hfree : s.refRuns.startBarred = false := by simp [hbarred, hpin, hoff, haon, htrip]
    exact (State.startIdle_begins (s := s.refRuns) hidle hfree).1

/-- STATE_REQ by an operator sets TARGET and begins the change. -/
theorem State.stateReq_effect {s : State} {fn v : Nat} (hopen : s.barOpen = true) (hrole : roleOpr ≤ s.roleOf fn) (hv : bitsAt v 0 2 ≠ 3)
    (h : bitsAt v 0 2 = 0 ∨ (s.frame.st ≠ .armed ∧ s.frame.st ≠ .running)) :
    (s.stateReq (.host fn) v).fld F.PWR_STATE_REQ_TARGET = bitsAt v 0 2 ∧
      (s.fld F.PWR_STATUS_STATE ≠ bitsAt v 0 2 → (s.stateReq (.host fn) v).pwr.change = some (bitsAt v 0 2, s.now)) ∧
      (s.stateReq (.host fn) v).frame = s.frame := by
  rw [State.stateReq_acts hopen hrole hv h]
  obtain ⟨htarget, hframe, hchange⟩ := ((s.audit fn 0xFFFF 0 0 0x6004).setFld F.PWR_STATE_REQ_TARGET (bitsAt v 0 2)).stateChange_effect (bitsAt v 0 2)
  refine ⟨?_, fun hne => hchange ?_, hframe⟩
  · rw [htarget, State.fld_setFld_same]
    exact Nat.mod_eq_of_lt (bitsAt_lt v 0 2)
  · rw [State.fld_setFld_of_code _ _ _ _ _ _ (by decide) (by decide) (by decide)]
    exact hne

/-- Settles O52: a reset keeps what stands in the vault alone, a start begins where nothing forbids it, and the other events are read off their steps. -/
theorem resetsKeepTheVault : Obligations.ResetsKeepTheVault := by
  unfold Obligations.ResetsKeepTheVault
  intro s fn hfn
  have hhost (t : State) : within (Path.host fn).ok t = .next t := within_next (hostPath_ok hfn)
  refine ⟨reset_loses s hfn, fun hrole hopen => ?_, fun h => ?_,
    fun mode addr => ⟨fun h => ?_, fun h => ⟨_, exec_sysRstNRelease .., State.sysRelease_effect mode addr h⟩⟩,
    fun h => ⟨_, exec_refclkRestored s, State.refBack_effect h⟩, fun h => ?_,
    fun v hopen hrole hv => ⟨fun h => ⟨_, hhost _, State.stateReq_effect hopen hrole hv h⟩, fun hne h => ?_⟩, fun h => ?_,
    fun a b x h ha ha2 hb2 _ => ⟨_, exec_powerState s, State.powerState_changes h ha ha2 hb2⟩,
    fun low => ⟨fun h => ?_, fun h => ⟨_, exec_pwrWarn low s, State.pwrWarn_changes h⟩⟩, ⟨_, exec_poweredHour s, s.poweredHour_effect⟩⟩
  · rw [exec_sysrst, hhost, State.sysrstWrite_refused hopen hrole]
  · simp [State.refLoss, h]
  · simp [State.sysRelease, h]
  · simp [State.refBack, h]
  · rw [exec_stateReq, hhost, State.stateReq_running hopen hrole hne h]
  · simp [State.powerState, h]
  · rw [exec_pwrWarn, State.pwrWarn_same h]

end Sys2Proof.Machine

/-!
PROOFS of the statements on the pitches' fields and on the stacked memory behind them (06_network_and_memory R204 to R220; 08_serving R282).
-/

namespace Sys2Proof.Machine

/-! Writes that a block judges itself (R20): three answers while BAR0 answers. -/

section OwnWrite

variable {s : State} {fn rank addr : Nat} {rwl : Bool}

/-- A role below the rank asked for is refused. -/
theorem State.ownWrite_low (rwl : Bool) (addr : Nat) (hopen : s.barOpen = true) (hrole : s.roleOf fn < rank) :
    s.ownWrite (.host fn) rank rwl addr = (false, s.audit fn 0xFFFF 1 0xF3 addr) := by
  simp [State.ownWrite, hopen, hrole]

/-- The installer lock refuses a write to a lockable register. -/
theorem State.ownWrite_locked (addr : Nat) (hopen : s.barOpen = true) (hrole : rank ≤ s.roleOf fn) (hlock : s.locked = true) :
    s.ownWrite (.host fn) rank true addr = (false, s.audit fn 0xFFFF 1 0x05 addr) := by
  simp [State.ownWrite, hopen, Nat.not_lt.2 hrole, hlock]

/-- Any other write is accepted. -/
theorem State.ownWrite_accepted (addr : Nat) (hopen : s.barOpen = true) (hrole : rank ≤ s.roleOf fn) (hlock : rwl = true → s.locked = false) :
    s.ownWrite (.host fn) rank rwl addr = (true, s.audit fn 0xFFFF 0 0 addr) := by
  have hfree : (rwl && s.locked) = false := by
    cases rwl with
    | false => rfl
    | true => exact hlock rfl
  simp [State.ownWrite, hopen, Nat.not_lt.2 hrole, hfree]

end OwnWrite

/-! Writes to the pitch fields (R205). -/

/-- The registers that PITCH_FIELD_WRITE sets: RECT, PORTS and CH. -/
def RegInfo.setsPitch (r : RegInfo) : Prop :=
  (r.bank = .pitch ∧ r.flds.contains F.NET_PITCH_KVBASE_PAGE = false) ∨ r.bank = .pitchCh

/-- The fields that a write of the physical function to such a register names in the pending copy, with the values written. -/
def State.pitchParts (s : State) (r : RegInfo) (inst k value : Nat) : List (Fld × Nat × Nat) :=
  let sel := s.fld F.NET_PITCH_SEL_PITCH 0
  regParts r (if r.bank = .pitchCh then 10 * (16 + sel) + k else 16 + sel) inst k value

section PitchField

variable {s : State} {addr value inst k : Nat} {r : RegInfo}

theorem RegInfo.setsPitch.cond (h : r.setsPitch) :
    ((r.bank = .pitch && !r.flds.contains F.NET_PITCH_KVBASE_PAGE) || r.bank = .pitchCh) = true := by
  rcases h with ⟨hbank, hkv⟩ | hbank
  · rw [hbank, hkv]; rfl
  · rw [hbank]; rfl

/-- A write of the physical function that changes nothing is only audited. -/
theorem State.pitchField_same (hr : findReg (.host 0) addr = some (.net, inst, r, k)) (hsets : r.setsPitch) (hopen : s.barOpen = true)
    (hsame : ∀ q ∈ s.pitchParts r inst k value, q.2.2 = s.fld q.1 q.2.1) :
    s.pitchField (.host 0) addr value = s.audit 0 0xFFFF 0 0 addr := by
  have hnone : (!(s.pitchParts r inst k value).any fun q => q.2.2 != s.fld q.1 q.2.1) = true := by simpa using hsame
  unfold State.pitchField
  rw [State.pathOff_host, hopen, hr]
  simp only [hsets.cond]
  exact if_pos hnone

/-- A change is judged as an installer's write to a lockable register, and set if it is accepted. -/
theorem State.pitchField_change (hr : findReg (.host 0) addr = some (.net, inst, r, k)) (hsets : r.setsPitch) (hopen : s.barOpen = true)
    (hchange : ∃ q ∈ s.pitchParts r inst k value, q.2.2 ≠ s.fld q.1 q.2.1) :
    s.pitchField (.host 0) addr value =
      if (s.ownWrite (.host 0) roleIns true addr).1 then
        ((s.pitchParts r inst k value).foldl (fun s q => s.setFld q.1 q.2.2 q.2.1) (s.ownWrite (.host 0) roleIns true addr).2).markPending
      else (s.ownWrite (.host 0) roleIns true addr).2 := by
  have hsome : (!(s.pitchParts r inst k value).any fun q => q.2.2 != s.fld q.1 q.2.1) = false := by simpa using hchange
  unfold State.pitchField
  rw [State.pathOff_host, hopen, hr]
  simp only [hsets.cond]
  exact if_neg (ne_true_of_eq_false hsome)

/-- A virtual function's write is only audited. -/
theorem State.pitchField_virtual {fn : Nat} (value : Nat) (hfn : fn ≠ 0) (hr : findReg (.host fn) addr = some (.net, inst, r, k))
    (hsets : r.setsPitch) (hopen : s.barOpen = true) : s.pitchField (.host fn) addr value = s.audit fn 0xFFFF 0 0 addr := by
  obtain ⟨n, rfl⟩ := Nat.exists_eq_succ_of_ne_zero hfn
  unfold State.pitchField
  rw [State.pathOff_host, hopen, hr]
  simp only [hsets.cond]
  rfl

end PitchField

/-! APPLY (R205). -/

/-- Where the pitches that were on are on still, none is released. -/
theorem State.pitchesOff_of_pitchOn {s t : State} (h : t.pitchOn = s.pitchOn) : t.pitchesOff s.pitchesOn = t := by
  refine List.foldl_fixed' (fun p => if_neg fun hoff => ?_) _
  have hwas : s.pitchesOn.getD p false = true → s.pitchOn p = true := by
    by_cases hp : p < 16 <;> simp [State.pitchesOn, List.getD_eq_getElem?_getD, hp]
  rw [Bool.and_eq_true, Bool.not_eq_true', h] at hoff
  exact absurd (hwas hoff.1) (by simp [hoff.2])

/-- The code that APPLY leaves in RESULT turns no pitch on or off. -/
theorem State.pitchOn_applied (s : State) (v : Nat) :
    ((s.audit 0 0xFFFF 0 0 0x1000).setFld F.NET_PITCH_CTL_RESULT v).pitchOn = s.pitchOn := by
  funext p
  have hfld := (s.audit 0 0xFFFF 0 0 0x1000).fld_setFld_of_code F.NET_PITCH_CTL_RESULT F.NET_PITCH_RECT_ENABLE v 0 p
    (by decide) (by decide) (by decide)
  exact congrArg (· == 1) hfld

/-- The conditions of R204 and the copies do not depend on the audit log. -/
theorem State.pitchFault_audit (s : State) :
    (s.audit 0 0xFFFF 0 0 0x1000).pitchFault ((s.audit 0 0xFFFF 0 0 0x1000).pitchCopy 1) = s.pitchFault (s.pitchCopy 1) := rfl

section Apply

variable {s : State}

/-- Below the installer role APPLY is only audited as refused. -/
theorem State.pitchApply_low (hopen : s.barOpen = true) (hrole : s.roleOf 0 < roleIns) :
    s.pitchApply (.host 0) = s.audit 0 0xFFFF 1 0xF3 0x1000 := by
  simp [State.pitchApply, State.ownWrite_low false 0x1000 hopen hrole]

variable (hopen : s.barOpen = true) (hrole : roleIns ≤ s.roleOf 0)
include hopen hrole

/-- While a frame is armed or runs, APPLY answers 1. -/
theorem State.pitchApply_busy (hst : s.frame.st = .armed ∨ s.frame.st = .running) :
    s.pitchApply (.host 0) = (s.audit 0 0xFFFF 0 0 0x1000).setFld F.NET_PITCH_CTL_RESULT 1 := by
  have hframe : (s.audit 0 0xFFFF 0 0 0x1000).frame = s.frame := rfl
  simp [State.pitchApply, State.ownWrite_accepted 0x1000 hopen hrole, hframe, hst]

/-- Otherwise it answers with the condition broken; a copy that breaks none becomes current. -/
theorem State.pitchApply_judges (hst : s.frame.st = .halted ∨ s.frame.st = .empty) :
    s.pitchApply (.host 0) =
      let t := (s.audit 0 0xFFFF 0 0 0x1000).setFld F.NET_PITCH_CTL_RESULT (s.pitchFault (s.pitchCopy 1))
      if s.pitchFault (s.pitchCopy 1) = 0 then t.pitchCurrent (s.pitchCopy 1) else t := by
  have hframe : (s.audit 0 0xFFFF 0 0 0x1000).frame = s.frame := rfl
  have hidle : ¬(s.frame.st = .armed ∨ s.frame.st = .running) := by rcases hst with h | h <;> simp [h]
  simp only [State.pitchApply, State.ownWrite_accepted (rwl := false) 0x1000 hopen hrole nofun, hframe, Bool.or_eq_true, decide_eq_true_eq, hidle,
    State.pitchFault_audit, Bool.not_true, Bool.false_eq_true, if_false]
  rfl

end Apply

/-- Settles O33: a field write and APPLY are judged by the block itself, and only a copy that becomes current can turn a pitch off. -/
theorem pitchesAreSetUp : Obligations.PitchesAreSetUp := by
  unfold Obligations.PitchesAreSetUp
  intro s
  have hhost : (Path.host 0).ok = true := hostPath_ok (Nat.zero_le 16)
  refine ⟨?_, ?_, ?_⟩
  · intro addr value inst r k hr hsets hopen place parts
    rw [exec_pitchFieldWrite, within_next hhost]
    simp only [Outcome.next_inj]
    refine ⟨State.pitchField_same hr hsets hopen, fun hchange => ?_⟩
    rw [State.pitchField_change hr hsets hopen hchange]
    refine ⟨fun hrole => ?_, fun hrole hlock => ?_, fun hrole hlock => ?_⟩
    · rw [State.ownWrite_low true addr hopen hrole]; rfl
    · rw [State.ownWrite_locked addr hopen hrole hlock]; rfl
    · rw [State.ownWrite_accepted addr hopen hrole fun _ => hlock]; rfl
  · intro fn addr value inst r k hfn hle hopen hr hsets
    rw [exec_pitchFieldWrite, within_next (hostPath_ok hle), State.pitchField_virtual value (Nat.ne_of_gt hfn) hr hsets hopen]
  · intro hopen
    rw [exec_apply, within_next hhost]
    simp only [Outcome.next_inj]
    refine ⟨fun hrole => ?_, fun hrole hst => ?_, fun hrole hst => ?_⟩
    · rw [State.pitchApply_low hopen hrole]
      exact State.pitchesOff_of_pitchOn rfl
    · rw [State.pitchApply_busy hopen hrole hst]
      exact State.pitchesOff_of_pitchOn (s.pitchOn_applied 1)
    · rw [State.pitchApply_judges hopen hrole hst]
      refine ⟨fun hbad => ?_, fun hgood => ?_⟩
      · simp only [if_neg hbad]
        exact State.pitchesOff_of_pitchOn (s.pitchOn_applied _)
      · simp only [hgood, if_true]

/-! Zeroing (R207). -/

section Zeroing

variable {s : State} {ch : Nat}

/-- A channel's bytes are cleared and its zeroing is no longer timed. -/
def State.zeroed (s : State) (ch : Nat) : State :=
  { s with
    dram := Memory.clear s.dram (1000000000 * ch) (s.channelBytes ch)
    net := { s.net with zeroStart := SMap.drop s.net.zeroStart ch } }

theorem State.zeroingComplete_eq (h : s.fld F.MEM_CH_STATE_STATE ch = 1) :
    s.zeroingComplete ch = ((s.zeroed ch).setFld F.MEM_CH_STATE_STATE 2 ch).setFld F.MEM_CH_STATE_PROGRESS 100 ch := if_pos h

theorem State.onlyIn_zeroed (s : State) (ch : Nat) : s.onlyIn (s.zeroed ch) [.fields, .dram, .net] := by
  intro p hp
  cases p
  case dram | net => exact absurd (by decide) hp
  all_goals rfl

/-- Exactly the channel's bytes outside the reserved region are 0 then. -/
theorem State.dram_zeroingComplete (h : s.fld F.MEM_CH_STATE_STATE ch = 1) (a : Nat) :
    Memory.byte (s.zeroingComplete ch).dram a =
      if 1000000000 * ch ≤ a ∧ a < 1000000000 * ch + s.channelBytes ch then 0 else Memory.byte s.dram a := by
  rw [State.zeroingComplete_eq h]
  exact Memory.byte_clear ..

/-- The channel is free for use, and all of it is zeroed. -/
theorem State.fld_zeroingComplete (h : s.fld F.MEM_CH_STATE_STATE ch = 1) :
    (s.zeroingComplete ch).fld F.MEM_CH_STATE_STATE ch = 2 ∧ (s.zeroingComplete ch).fld F.MEM_CH_STATE_PROGRESS ch = 100 := by
  rw [State.zeroingComplete_eq h]
  refine ⟨?_, State.fld_setFld_same ..⟩
  rw [State.fld_setFld_of_code _ _ _ _ _ _ (by decide) (by decide) (by decide)]
  exact State.fld_setFld_same ..

theorem State.onlyIn_zeroingComplete (h : s.fld F.MEM_CH_STATE_STATE ch = 1) : s.onlyIn (s.zeroingComplete ch) [.fields, .dram, .net] := by
  rw [State.zeroingComplete_eq h]
  exact State.onlyIn_setFld (State.onlyIn_setFld (s.onlyIn_zeroed ch) (by decide)) (by decide)

theorem State.onlyFields_zeroingComplete (h : s.fld F.MEM_CH_STATE_STATE ch = 1) :
    s.onlyFields (s.zeroingComplete ch) [F.MEM_CH_STATE_STATE, F.MEM_CH_STATE_PROGRESS] := by
  rw [State.zeroingComplete_eq h]
  have hsame : s.onlyFields (s.zeroed ch) [F.MEM_CH_STATE_STATE, F.MEM_CH_STATE_PROGRESS] := State.onlyFields_same (State.onlyFields_refl s _) rfl
  exact State.onlyFields_setFld (State.onlyFields_setFld hsame (by decide)) (by decide)

end Zeroing

/-! Patrol scrub (R208, R211). -/

/-- Scrub runs in HALTED, and in RUNNING after the ready point. -/
def State.scrubs (s : State) : Prop := s.frame.st = .halted ∨ (s.frame.st = .running ∧ s.frame.readyPoint = true)

/-- The place of the scrub `n` granules on. -/
def State.scrubOn (s : State) (n : Nat) : State := { s with net := { s.net with scrubNext := (s.net.scrubNext + n) % (320 * 488281) } }

section Scrub

variable {s : State} (n : Nat)

theorem State.patrolScrub_runs (errs : List (Nat × Nat × Bool)) (h : s.scrubs) :
    s.patrolScrub n errs = errs.foldl (fun s e => s.scrubBeat e.1 e.2.1 e.2.2) (s.scrubOn n) :=
  if_pos (by simpa [State.scrubs] using h)

theorem State.patrolScrub_rests (errs : List (Nat × Nat × Bool)) (h : ¬s.scrubs) : s.patrolScrub n errs = s :=
  if_neg (by simpa [State.scrubs] using h)

theorem State.scrubs_not (h : s.frame.st = .empty ∨ s.frame.st = .armed) : ¬s.scrubs := by
  unfold State.scrubs
  rcases h with h | h <;> simp [h]

/-- The registers of an uncorrectable beat: counted, recorded and signalled. -/
def State.beatLogged (s : State) (ch off : Nat) : State :=
  let st := ch / 32
  let t := ((s.count F.MEM_UECNT 1 st).unitError 4 st 0).setFld F.MEM_LASTERR_CH (ch % 32) st
  ((t.setFld F.MEM_LASTERR_GRANULE (off / 2048) st).setFld F.MEM_LASTERR_BEAT (off % 2048 / 32) st).raiseBoth (irqStack + st)

/-- Beside that, an uncorrectable beat can only mark its page lost. -/
theorem State.scrubBeat_bad (s : State) (ch off : Nat) :
    ∃ lost, s.scrubBeat ch off true = { s.beatLogged ch off with net := { (s.beatLogged ch off).net with lostPages := lost } } := by
  unfold State.scrubBeat
  simp only [Bool.not_true, Bool.false_eq_true, if_false]
  split
  · split <;> exact ⟨_, rfl⟩
  · exact ⟨_, rfl⟩

/-- Neither the interrupt nor the unit's history writes memory. -/
theorem State.dram_beatLogged (s : State) (ch off : Nat) : (s.beatLogged ch off).dram = s.dram :=
  (State.onlyIn_raiseBoth _ _ .dram (by decide)).trans (State.onlyIn_unitError _ 4 (ch / 32) 0 1 .dram (by decide))

/-- LASTERR holds the beat, and UECNT one count more. -/
theorem State.fld_beatLogged (s : State) (ch off : Nat) :
    (s.beatLogged ch off).fld F.MEM_UECNT (ch / 32) = min (s.fld F.MEM_UECNT (ch / 32) + 1) (2 ^ F.MEM_UECNT.width - 1) ∧
      (s.beatLogged ch off).fld F.MEM_LASTERR_CH (ch / 32) = ch % 32 ∧
      (s.beatLogged ch off).fld F.MEM_LASTERR_GRANULE (ch / 32) = off / 2048 % 2 ^ F.MEM_LASTERR_GRANULE.width ∧
      (s.beatLogged ch off).fld F.MEM_LASTERR_BEAT (ch / 32) = off % 2048 / 32 := by
  unfold State.beatLogged
  extract_lets st t
  have hcount : t.fld F.MEM_UECNT st = min (s.fld F.MEM_UECNT st + 1) (2 ^ F.MEM_UECNT.width - 1) := by
    rw [State.fld_setFld_of_code _ _ _ _ _ _ (by decide) (by decide) (by decide), State.fld_of_fields (State.unitError_fields ..), State.fld_count_same]
  have hch : t.fld F.MEM_LASTERR_CH st = ch % 32 :=
    (State.fld_setFld_same ..).trans (Nat.mod_eq_of_lt (Nat.mod_lt _ (by decide)))
  have hbeat : off % 2048 / 32 < 2 ^ F.MEM_LASTERR_BEAT.width := Nat.div_lt_of_lt_mul (Nat.mod_lt _ (by decide))
  refine ⟨?_, ?_, ?_, ?_⟩ <;> rw [State.fld_raiseBoth _ _ _ _ (by decide)]
  · rw [State.fld_setFld_of_code _ _ _ _ _ _ (by decide) (by decide) (by decide),
      State.fld_setFld_of_code _ _ _ _ _ _ (by decide) (by decide) (by decide), hcount]
  · rw [State.fld_setFld_of_code _ _ _ _ _ _ (by decide) (by decide) (by decide),
      State.fld_setFld_of_code _ _ _ _ _ _ (by decide) (by decide) (by decide), hch]
  · rw [State.fld_setFld_of_code _ _ _ _ _ _ (by decide) (by decide) (by decide), State.fld_setFld_same]
  · rw [State.fld_setFld_same, Nat.mod_eq_of_lt hbeat]

end Scrub

/-! Page copies (R282). -/

section PageCopy

variable {s : State} {p ctx stream i : Nat} {r : StreamRec} {x : Nat}
  (hst : s.frame.st = .running) (hready : s.frame.readyPoint = true) (hrec : s.streamRec stream = some r) (hctx : SMap.find? (s.srv p).ctxs ctx = some x)
include hst hready hrec hctx

/-- A page that one context alone names is not copied. -/
theorem State.pageCopy_single (hcount : s.pageCount p (s.pageEntry p ctx stream i) ≤ 1) : s.pageCopy p ctx stream i none = s := by
  simp [State.pageCopy, hst, hready, hrec, hctx, hcount]

/-- A page named more than once is copied to the free page taken. -/
theorem State.pageCopy_shared {h : Nat} {t : State} (hpage : s.pageEntry p ctx stream i ≠ noPage)
    (hcount : 1 < s.pageCount p (s.pageEntry p ctx stream i)) (htake : s.takeRun p 1 = some (h, t)) :
    s.pageCopy p ctx stream i none =
      ((t.copyPage p (s.pageEntry p ctx stream i) h).setEntry p ctx stream i h).pageDown p (s.pageEntry p ctx stream i) := by
  simp [State.pageCopy, hst, hready, hrec, hctx, hpage, Nat.not_le.2 hcount, htake]

end PageCopy

/-! Clock crossings (R220). -/

/-- A crossing held closed, with only the transfers kept whose number is not among those lost. -/
def NetSt.crossingShut (n : NetSt) (x : Nat) (lost : List Nat) : NetSt :=
  { n with
    transfers := (n.transfers.zipIdx.filter fun t => !lost.contains t.2).map (·.1)
    closed := if n.closed.contains x then n.closed else n.closed ++ [x] }

theorem NetSt.mem_closed_crossingShut (n : NetSt) (x : Nat) (lost : List Nat) : x ∈ (n.crossingShut x lost).closed := by
  unfold NetSt.crossingShut
  dsimp only
  split
  · next h => exact List.contains_iff_mem.1 h
  · exact List.mem_append_right _ (List.mem_singleton_self x)

theorem State.crossingReset_eq (s : State) (x : Nat) (lost : List Nat) :
    s.crossingReset x lost = ({ s with net := s.net.crossingShut x lost } : State).count F.NET_XRSTCNT := rfl

/-- A reset of a crossing touches the network and the count of such resets. -/
theorem State.onlyIn_crossingReset (s : State) (x : Nat) (lost : List Nat) : s.onlyIn (s.crossingReset x lost) [.fields, .net] := by
  have hshut : s.onlyIn { s with net := s.net.crossingShut x lost } [.fields, .net] := by
    intro p hp
    cases p
    case net => exact absurd (by decide) hp
    all_goals rfl
  exact State.onlyIn_count hshut (by decide)

theorem State.onlyFields_crossingReset (s : State) (x : Nat) (lost : List Nat) : s.onlyFields (s.crossingReset x lost) [F.NET_XRSTCNT] :=
  State.onlyFields_count (State.onlyFields_same (State.onlyFields_refl s _) rfl) (by decide)

/-- Settles O34: a cleared channel reads 0 there alone, a bad beat touches its stack's registers and the lost pages, and a copy goes to the free page taken. -/
theorem memoryIsKept : Obligations.MemoryIsKept := by
  unfold Obligations.MemoryIsKept
  intro s
  refine ⟨fun ch hch hst => ?_, fun n hst => ?_, fun n hst => ?_, ?_, fun x lost => ?_⟩
  · refine ⟨_, within_next (decide_eq_true hch), fun o ho => ?_, fun a ha => ?_, (State.fld_zeroingComplete hst).1, (State.fld_zeroingComplete hst).2,
      State.onlyIn_zeroingComplete hst, State.onlyFields_zeroingComplete hst⟩
    · rw [State.dram_zeroingComplete hst, if_pos ⟨Nat.le_add_right _ _, Nat.add_lt_add_left ho _⟩]
    · rw [State.dram_zeroingComplete hst, if_neg (by omega)]
  · simp only [exec_patrolScrub, State.patrolScrub_runs n _ hst]
    refine ⟨rfl, fun ch off hch => ?_⟩
    simp only [List.all_cons, List.all_nil, hch, decide_true, Bool.and_self, within_true, List.foldl_cons, List.foldl_nil]
    refine ⟨⟨_, rfl, (s.scrubOn n).fld_count_same ..⟩, ?_⟩
    obtain ⟨lost, hbad⟩ := (s.scrubOn n).scrubBeat_bad ch off
    obtain ⟨hcount, hlast, hgranule, hbeat⟩ := (s.scrubOn n).fld_beatLogged ch off
    exact ⟨_, congrArg _ hbad, hcount, hlast, hgranule, hbeat, (s.scrubOn n).dram_beatLogged ch off⟩
  · rw [exec_patrolScrub, State.patrolScrub_rests n [] (State.scrubs_not hst)]
    rfl
  · intro p ctx stream i r x hp hctx hst hready hrec hfind hpage
    have hunits : (decide (p < 16) && decide (ctx < 1048576) && true) = true := by simp [hp, hctx]
    simp only [exec_pageCopy, within_next hunits, Outcome.next_inj]
    exact ⟨State.pageCopy_single hst hready hrec hfind, fun h t hcount htake => State.pageCopy_shared hst hready hrec hfind hpage hcount htake⟩
  · exact ⟨_, exec_crossingReset x lost s, rfl, s.net.mem_closed_crossingShut x lost, State.fld_count_same .., s.onlyIn_crossingReset x lost,
      s.onlyFields_crossingReset x lost⟩

end Sys2Proof.Machine

/-!
PROOFS of what the operations of relay touch (07_weights R228 to R240).
-/

namespace Sys2Proof.Machine

/-! What relay touches (R228 to R240): the weights' state, messages and events, answers to the host, and the update session that a
plan ends. -/

/-- The register fields that relay writes: the end of an update session, the count of record writes, the signature engine's queue. -/
def relayFlds : List Fld := [F.UPD_ABORTCNT, F.UPD_STATUS_RESULT, F.UPD_STATUS_SESSION, F.VLT_RECWRCNT, F.SEC_ENGINE_QUEUED]

/-- A state as relay may leave it: no array record differs. -/
structure State.relays (s t : State) : Prop where
  parts : s.onlyIn t [.fields, .host, .sec, .wgt, .link]
  fields : s.onlyFields t relayFlds
  records : t.wgt.recs = s.wgt.recs

section Relays
variable {s t u : State}

theorem State.relays.refl (s : State) : s.relays s := ⟨State.onlyIn_refl s _, State.onlyFields_refl s _, rfl⟩

theorem State.relays.trans (h : s.relays t) (h' : t.relays u) : s.relays u :=
  ⟨State.onlyIn_trans h.parts h'.parts, State.onlyFields_trans h.fields h'.fields, h'.records.trans h.records⟩

/-- Whatever touches the link, the security records and the host alone is no more than relay touches. -/
theorem State.onlyIn.relays {ps : List Part} (h : s.onlyIn t ps) (hps : ∀ p ∈ ps, p ∈ [Part.host, .sec, .link]) : s.relays t where
  parts := State.onlyIn_mono h fun p hp => by have := hps p hp; fin_cases this <;> decide
  fields := State.onlyFields_same (State.onlyFields_refl s _) (h .fields fun hp => absurd (hps _ hp) (by decide))
  records := congrArg WgtSt.recs (h .wgt fun hp => absurd (hps _ hp) (by decide))

theorem State.relays.foldl {α : Type} {f : State → α → State} (hf : ∀ (t : State) a, t.relays (f t a)) (l : List α) (s : State) :
    s.relays (l.foldl f s) := by
  induction l generalizing s with
  | nil => exact .refl s
  | cons a l ih => exact (hf s a).trans (ih (f s a))

theorem State.onlyIn_onWgt (s : State) (g : WgtSt → WgtSt) : s.onlyIn (s.onWgt g) [.wgt] := by
  intro p hp
  cases p
  case wgt => exact absurd (by decide) hp
  all_goals rfl

theorem State.relays_onWgt (s : State) {g : WgtSt → WgtSt} (hg : (g s.wgt).recs = s.wgt.recs) : s.relays (s.onWgt g) :=
  ⟨State.onlyIn_mono (s.onlyIn_onWgt g) (by decide), State.onlyFields_same (State.onlyFields_refl s _) rfl, hg⟩

theorem State.relays_setFld (s : State) {f : Fld} (v i : Nat) (hf : f.code % 1024 ∈ relayFlds.map (·.code)) : s.relays (s.setFld f v i) :=
  ⟨State.onlyIn_setFld (State.onlyIn_refl s _) (by decide), State.onlyFields_setFld (State.onlyFields_refl s _) hf, rfl⟩

theorem State.relays_recordWrites (s : State) (n : Nat) : s.relays (s.recordWrites n) := s.relays_setFld _ _ (by decide)

theorem State.relays_sendMsg (s : State) (part type : Nat) (fields : List Nat) (data : Bytes) : s.relays (s.sendMsg part type fields data) :=
  (s.onlyIn_sendMsg part type fields data).relays (by decide)

theorem State.onlyIn_post (s : State) (code : Nat) (detail : List Nat) : s.onlyIn (s.post code detail) [.host] := by
  obtain ⟨w, hw, -⟩ := s.postTo_eq_setWin 0 code detail
  rw [State.post, hw]
  exact State.onlyIn_setWin (State.onlyIn_refl s _) (by decide)

theorem State.relays_answer (s : State) (c : Mgmt) (code result target : Nat) (detail : Bytes) : s.relays (s.answer c code result target detail) :=
  (s.onlyIn_answer c code result target detail).relays (by decide)

theorem State.relays_engineAsk (s : State) (r : SigReq) : s.relays (s.engineAsk r) := by
  rw [State.engineAsk, State.setEngine]
  refine State.relays.trans ?_ (State.relays_setFld _ _ _ (by decide))
  exact State.onlyIn.relays (ps := [.sec]) (fun p hp => by cases p <;> first | rfl | exact absurd (by decide) hp) (by decide)

theorem State.relays_onSec (s : State) (g : SecSt → SecSt) : s.relays (s.onSec g) :=
  State.onlyIn.relays (ps := [.sec]) (fun p hp => by cases p <;> first | rfl | exact absurd (by decide) hp) (by decide)

theorem State.relays_respond (s : State) (c : Mgmt) (code result : Nat) (detail : Bytes) : s.relays (s.respond c code result detail) := by
  obtain ⟨w, hw⟩ := s.respond_eq_setWin c code result detail
  rw [hw]
  exact State.onlyIn.relays (State.onlyIn_setWin (State.onlyIn_refl s [.host]) (by decide)) (by decide)

theorem State.relays_auditDone (s : State) (seq result code : Nat) : s.relays (s.auditDone seq result code) :=
  (s.relays_onSec fun x => { x with log := x.log.map fun e => if e.1 = seq then (e.1, { e.2 with result := result, code := code }) else e }).trans
    (State.relays_recordWrites _ 1)

/-- A plan that ends an update session (R476) touches what relay touches. -/
theorem State.relays_sessionAbort (s : State) : s.relays s.sessionAbort := by
  unfold State.sessionAbort
  split
  · exact .refl s
  extract_lets noted dropped
  have hnoted : s.relays noted := (s.relays_setFld (f := F.UPD_ABORTCNT) _ _ (by decide)).trans (State.relays_setFld _ _ _ (by decide))
  have hdropped : noted.relays dropped := by
    unfold dropped
    split
    · split
      · exact ((State.relays_onSec _ _).trans (State.relays_auditDone ..)).trans (State.relays_respond ..)
      · exact .refl _
    · exact .refl _
  exact ((hnoted.trans hdropped).trans (State.relays_onSec _ _)).trans (State.relays_setFld _ _ _ (by decide))

/-- A report to the manager changes the link alone. -/
theorem State.onlyIn_tellManager (s : State) : s.onlyIn s.tellManager [.link] := by
  unfold State.tellManager State.reportStatus State.reportMgr
  extract_lets m shard
  split
  · exact State.onlyIn_refl s _
  · exact s.onlyIn_sendMsg _ _ _ _

@[simp] theorem State.tellManager_wgt (s : State) : s.tellManager.wgt = s.wgt := s.onlyIn_tellManager .wgt (by decide)

theorem State.relays_tellManager (s : State) : s.relays s.tellManager := s.onlyIn_tellManager.relays (by decide)

theorem State.relays_passRequest (s : State) (shard c : Nat) : s.relays (s.passRequest shard c) := by
  unfold State.passRequest
  split
  · exact .refl s
  · dsimp only
    split
    · exact (s.onlyIn_post _ _).relays (by decide)
    · exact s.relays_sendMsg ..

theorem State.relays_request (s : State) (c : Nat) : s.relays (s.request c) := by
  unfold State.request
  split
  · exact .refl s
  · exact State.relays.trans (s.relays_onWgt rfl) (State.relays_passRequest ..)

theorem State.relays_requestNeeded (s : State) : s.relays s.requestNeeded := by
  unfold State.requestNeeded
  split
  · exact .refl s
  · split
    · exact .refl s
    · exact State.relays.foldl (fun t c => t.relays_request c) _ s

theorem State.relays_relayFail (s : State) (code : Nat) : s.relays (s.relayFail code) :=
  (s.relays_onWgt rfl).trans (State.relays_tellManager _)

theorem State.relays_programmedCheck (s : State) : s.relays s.programmedCheck := by
  unfold State.programmedCheck
  extract_lets t
  have ht : s.relays t := s.relays_onWgt rfl
  split
  · exact ht
  · exact (ht.trans (t.relays_onWgt rfl)).trans (State.relays_tellManager _)

theorem State.relays_forward (s : State) (p : Piece) (dests : List Nat) : s.relays (s.forward p dests) :=
  State.relays.foldl (fun t _ => (t.relays_onWgt rfl).trans (State.relays_sendMsg ..)) dests s

theorem State.relays_settleStages (s : State) : s.relays s.settleStages := by
  unfold State.settleStages
  exact s.relays_onWgt rfl

theorem WgtSt.stagePiece_recs (w : WgtSt) (p : Piece) : (w.stagePiece p).recs = w.recs := by
  unfold WgtSt.stagePiece
  split <;> rfl

theorem State.relays_keepPiece (s : State) (p : Piece) : s.relays (s.keepPiece p) := by
  unfold State.keepPiece
  split
  · split
    · exact s.relays_onWgt rfl
    · exact .refl s
  · split
    · exact s.relays_onWgt (WgtSt.stagePiece_recs ..)
    · split
      · exact s.relays_onWgt rfl
      · exact .refl s

theorem State.relays_keepReference (s : State) (p : Piece) : s.relays (s.keepReference p) := by
  unfold State.keepReference
  exact s.relays_onWgt rfl

theorem State.relays_dataPiece (s : State) (pl : RelayPlan) (p : Piece) : s.relays (s.dataPiece pl p) := by
  unfold State.dataPiece
  extract_lets dests own ref forwarded referenced kept
  have hforwarded : s.relays forwarded := s.relays_forward p dests
  have hreferenced : forwarded.relays referenced := by
    unfold referenced
    split
    · exact State.relays_keepReference ..
    · exact .refl _
  have hkept : referenced.relays kept := by
    unfold kept
    split
    · exact State.relays_keepPiece ..
    · split
      · split
        · exact .refl _
        · exact State.relays_onWgt _ rfl
      · split
        · exact State.relays_onWgt _ (WgtSt.stagePiece_recs ..)
        · exact .refl _
  exact ((hforwarded.trans hreferenced).trans hkept).trans (State.relays_settleStages _)

theorem State.relays_manifestCheck (s : State) : s.relays s.manifestCheck := by
  unfold State.manifestCheck
  extract_lets m new
  split
  · exact s.relays_relayFail _
  split
  · exact s.relays_relayFail _
  split
  · exact s.relays_relayFail _
  split
  · exact s.relays_relayFail _
  · exact (s.relays_onWgt rfl).trans (State.relays_engineAsk ..)

theorem State.relays_forwardManifest (s : State) (dests : List Nat) : s.relays (s.forwardManifest dests) := by
  unfold State.forwardManifest
  split
  · exact .refl s
  · exact State.relays.foldl (fun t _ => t.relays_forward _ _) _ s

theorem State.relays_manifestPiece (s : State) (p : Piece) : s.relays (s.manifestPiece p) := by
  unfold State.manifestPiece
  split
  · exact .refl s
  extract_lets kept
  have hkept : s.relays kept := s.relays_onWgt rfl
  split
  · exact hkept
  · exact (hkept.trans (kept.relays_onWgt rfl)).trans (State.relays_manifestCheck _)

theorem State.relays_takePiece (s : State) (p : Piece) : s.relays (s.takePiece p) := by
  unfold State.takePiece
  extract_lets dropped taken
  have hdropped : s.relays dropped := s.relays_onWgt rfl
  have htaken : s.relays taken := s.relays_onWgt rfl
  split
  · exact hdropped
  split
  · exact hdropped
  split
  · exact s.relays_passRequest ..
  split
  · exact htaken.trans (State.relays_manifestPiece ..)
  split
  · exact hdropped
  split
  · exact htaken.trans (State.relays_dataPiece ..)
  · exact hdropped

theorem State.relays_stageAndAnswer (s : State) (c : Option Mgmt) (p : Piece) : s.relays (s.stageAndAnswer c p) := by
  cases c with
  | none => exact s.relays_takePiece p
  | some c => exact (s.relays_takePiece p).trans (State.relays_answer ..)

theorem State.relays_restage (ws : List (Option Mgmt × Piece)) (s : State) : s.relays (State.restage ws s) := by
  induction ws generalizing s with
  | nil => exact .refl s
  | cons w ws ih =>
    obtain ⟨c, p⟩ := w
    unfold State.restage
    extract_lets ahead
    split
    · exact (s.relays_stageAndAnswer c p).trans (ih _)
    · exact State.relays.trans (s.relays_onWgt rfl) (ih _)

theorem State.relays_retryWaiting (s : State) : s.relays s.retryWaiting :=
  ((s.relays_onWgt rfl).trans (State.relays_settleStages _)).trans (State.relays_restage ..)

theorem State.relays_beginSession (s : State) (p : RelayPlan) : s.relays (s.beginSession p) := by
  unfold State.beginSession
  extract_lets ended begun
  have hended : s.relays ended := by
    unfold ended
    split
    · exact .refl s
    · exact (s.relays_onWgt rfl).trans (State.relays_tellManager _)
  have hbegun : ended.relays begun := ended.relays_onWgt rfl
  exact ((((hended.trans hbegun).trans begun.relays_tellManager).trans (State.relays_requestNeeded _)).trans
    (State.relays_programmedCheck _)).trans (State.relays_retryWaiting _)

/-- A plan for the session's own image takes the place of the old one: successors that are new get the manifest (R228). -/
def State.planTakes (s : State) (old p : RelayPlan) : State :=
  let t := s.onWgt fun w => { w with plan := some p }
  let told := if t.wgt.accepted then t.forwardManifest ((p.succ.map (·.1)).filter fun q => !(old.succ.any fun e => e.1 == q)) else t
  told.requestNeeded.tellManager

theorem State.relays_planTakes (s : State) (old p : RelayPlan) : s.relays (s.planTakes old p) := by
  unfold State.planTakes
  extract_lets t told
  have ht : s.relays t := s.relays_onWgt rfl
  have htold : t.relays told := by
    unfold told
    split
    · exact t.relays_forwardManifest _
    · exact .refl t
  exact ((ht.trans htold).trans (State.relays_requestNeeded _)).trans (State.relays_tellManager _)

/-- A plan touches what relay touches, whatever it begins, replaces or is refused for. -/
theorem State.relays_relayPlan (s : State) (p : RelayPlan) : s.relays (s.relayPlan p) := by
  unfold State.relayPlan
  split
  · exact (s.relays_onWgt rfl).trans (State.relays_tellManager _)
  extract_lets t
  have ht : s.relays t := s.relays_sessionAbort
  split
  · next old _ =>
    split
    · exact ht.trans (t.relays_planTakes old p)
    · split
      · exact ht.trans (t.relays_onWgt rfl)
      · exact ht.trans (t.relays_beginSession p)
  · exact ht.trans (t.relays_beginSession p)

theorem State.relays_relayEnd (s : State) : s.relays s.relayEnd := by
  unfold State.relayEnd
  split
  · exact ((s.relays_onWgt rfl).trans (State.relays_retryWaiting _)).trans (State.relays_tellManager _)
  · exact .refl s

end Relays
end Sys2Proof.Machine

/-!
PROOFS of the statement on relay plans and the end of a session (07_weights R228, R233; 12_links_and_fabric R401).
-/

namespace Sys2Proof.Machine

/-! A manager's message that is taken (R401). -/

section Heard
variable (s : State) (epoch : Nat)

theorem State.onlyIn_heard : s.onlyIn (s.heard epoch) [.fields, .irq] :=
  State.onlyIn_setFld (s.onlyIn_raiseBoth irqFabric) (by decide)

theorem State.onlyFields_heard : s.onlyFields (s.heard epoch) [F.INTC_PEND, F.INTC_MERGECNT, F.PRT_MGREPOCH_EPOCH] :=
  State.onlyFields_setFld (State.onlyFields_then (State.onlyFields_refl s _) (s.onlyFields_raiseBoth irqFabric) (by decide)) (by decide)

@[simp] theorem State.heard_wgt : (s.heard epoch).wgt = s.wgt := s.onlyIn_heard epoch .wgt (by decide)
@[simp] theorem State.heard_frame : (s.heard epoch).frame = s.frame := s.onlyIn_heard epoch .frame (by decide)
@[simp] theorem State.heard_arrays : (s.heard epoch).arrays = s.arrays := s.onlyIn_heard epoch .arrays (by decide)
@[simp] theorem State.heard_hamper : (s.heard epoch).hamper = s.hamper := s.onlyIn_heard epoch .hamper (by decide)
@[simp] theorem State.heard_dram : (s.heard epoch).dram = s.dram := s.onlyIn_heard epoch .dram (by decide)

/-- A message of the manager named, with no lower epoch than seen, acts once its epoch is noted. -/
theorem State.accepts.fromMgr {s : State} {mgr src epoch : Nat} (h : s.accepts mgr src epoch) (act : State → State) :
    s.msgIn.fromMgr mgr src epoch act = act (s.heard epoch) := by
  obtain ⟨hsrc, hnumbered, hepoch⟩ := h
  have hseen : s.msgIn.fld F.PRT_MGREPOCH_EPOCH = s.fld F.PRT_MGREPOCH_EPOCH := s.fld_raiseBoth irqFabric _ 0 (by decide)
  rw [State.fromMgr, if_neg (by simp [← hsrc, hnumbered, hseen]; omega)]
  rfl

end Heard

/-! Relay plans (R228, Table 7-3). -/

section Plans
variable {s : State} {p : RelayPlan}

/-- What refuses a plan does not look at the interrupt controllers and the epoch. -/
theorem State.planRefusal_heard (s : State) (epoch : Nat) (p : RelayPlan) : (s.heard epoch).planRefusal p = s.planRefusal p := by
  have hlocked : (s.heard epoch).locked = s.locked := State.flag_of_fld ((s.onlyFields_heard epoch).fld 0 (by decide))
  simp [State.planRefusal, State.residentTag, State.servingNow, hlocked]

/-- The rows of Table 7-3 that refuse a plan, the first that fits. -/
theorem State.planRefusal_of_row {code : Nat}
    (h : (p.ok = false ∧ code = 0x0F) ∨ (p.ok = true ∧ p.kind ≠ 1 ∧ s.residentTag p.tag = false ∧ code = 0x0E) ∨
      (p.ok = true ∧ p.kind = 1 ∧ s.residentTag p.tag = false ∧ s.locked = true ∧ code = 0x02) ∨
      (p.ok = true ∧ p.kind = 1 ∧ s.residentTag p.tag = false ∧ s.locked = false ∧ (s.frame.st = .armed ∨ s.frame.st = .running) ∧ code = 0x03)) :
    s.planRefusal p = some code := by
  rcases h with ⟨hok, rfl⟩ | ⟨hok, hkind, htag, rfl⟩ | ⟨hok, hkind, htag, hlock, rfl⟩ | ⟨hok, hkind, htag, hlock, hst, rfl⟩
  · simp [State.planRefusal, hok]
  · simp [State.planRefusal, hok, hkind, htag]
  · simp [State.planRefusal, hok, hkind, htag, hlock]
  · rcases hst with hst | hst <;> simp [State.planRefusal, State.servingNow, hok, hkind, htag, hlock, hst]

/-- A plan refused leaves its code as the result, and the manager is told. -/
theorem State.relayPlan_refused {code : Nat} (h : s.planRefusal p = some code) :
    s.relayPlan p = (s.onWgt fun w => { w with result := code }).tellManager := by
  rw [State.relayPlan, h]

/-- A plan refused leaves every record, the session and the plan as they were. -/
theorem State.relayPlan_refused_effect {code : Nat} (h : s.planRefusal p = some code) :
    (s.relayPlan p).wgt = { s.wgt with result := code } ∧ s.onlyIn (s.relayPlan p) [.wgt, .link] := by
  rw [State.relayPlan_refused h]
  exact ⟨State.tellManager_wgt _, State.onlyIn_then (State.onlyIn_mono (s.onlyIn_onWgt _) (by decide)) (State.onlyIn_tellManager _) (by decide)⟩

/-- The end of an update session leaves the weights. -/
@[simp] theorem State.sessionAbort_wgt (s : State) : s.sessionAbort.wgt = s.wgt := by
  unfold State.sessionAbort
  split
  · rfl
  extract_lets noted dropped
  have hdropped : dropped.wgt = s.wgt := by
    unfold dropped
    split
    · split
      · obtain ⟨w, hw⟩ := State.respond_eq_setWin ((noted.onSec fun x => { x with activation := none }).auditDone _ 2 codeAborted) _ 0x0114 codeAborted []
        rw [hw]
        rfl
      · rfl
    · rfl
  exact hdropped

/-- With no session a plan that passes begins one. -/
theorem State.relayPlan_begins (h : s.planRefusal p = none) (hst : s.wgt.st = 0) : s.relayPlan p = s.sessionAbort.beginSession p := by
  rw [State.relayPlan, h]
  dsimp only
  split
  · rw [State.sessionAbort_wgt, if_neg (by simp [hst]), if_neg (by simp [hst])]
  · rfl

/-- A plan of the session's own image takes the place of the one before. -/
theorem State.relayPlan_takes {old : RelayPlan} (h : s.planRefusal p = none) (hplan : s.wgt.plan = some old) (hst : s.wgt.st ≠ 0)
    (htag : old.tag = p.tag) : s.relayPlan p = s.sessionAbort.planTakes old p := by
  rw [State.relayPlan, h]
  dsimp only
  rw [State.sessionAbort_wgt, hplan]
  exact if_pos (by simp [hst, htag])

/-- A plan of another image waits while array commands of programming run. -/
theorem State.relayPlan_waits {old : RelayPlan} (h : s.planRefusal p = none) (hplan : s.wgt.plan = some old) (hst : s.wgt.st ≠ 0)
    (htag : old.tag ≠ p.tag) (hbusy : s.jobsBusy = true) : s.relayPlan p = s.sessionAbort.onWgt fun w => { w with planDue := some p } := by
  have harrays : s.sessionAbort.arrays = s.arrays := s.relays_sessionAbort.parts .arrays (by decide)
  have hbusy' : s.sessionAbort.jobsBusy = true := by
    simpa [State.jobsBusy, State.arr, harrays] using hbusy
  rw [State.relayPlan, h]
  dsimp only
  rw [State.sessionAbort_wgt, hplan]
  exact (if_neg (by simp [htag])).trans (if_pos (by simp [hst, hbusy']))

/-! What requests and forwarded pieces change (R230, R232): what has been asked for and passed on. -/

/-- The weights' state but for what has been asked for and how much was passed on. -/
def WgtSt.still (w : WgtSt) : WgtSt := { w with asked := [], requested := [], cntRequests := 0, cntForwarded := 0 }

/-- What does not look at requests and forwarded pieces reads the same. -/
theorem WgtSt.of_still {γ : Type} (g : WgtSt → γ) (hg : ∀ w : WgtSt, g w.still = g w) {w v : WgtSt} (h : w.still = v.still) : g w = g v :=
  (hg w).symm.trans ((congrArg g h).trans (hg v))

@[simp] theorem State.sendMsg_wgt (s : State) (part type : Nat) (fields : List Nat) (data : Bytes) : (s.sendMsg part type fields data).wgt = s.wgt :=
  s.onlyIn_sendMsg part type fields data .wgt (by decide)

@[simp] theorem State.passRequest_wgt (s : State) (shard c : Nat) : (s.passRequest shard c).wgt = s.wgt := by
  unfold State.passRequest
  split
  · rfl
  · dsimp only
    split
    · exact s.onlyIn_post _ _ .wgt (by decide)
    · exact s.sendMsg_wgt ..

theorem State.still_request (s : State) (c : Nat) : (s.request c).wgt.still = s.wgt.still := by
  unfold State.request
  split
  · rfl
  · rw [State.passRequest_wgt]
    rfl

theorem State.still_requestNeeded (s : State) : s.requestNeeded.wgt.still = s.wgt.still := by
  unfold State.requestNeeded
  split
  · rfl
  · split
    · rfl
    · exact foldl_same (fun t : State => t.wgt.still) (fun t c => t.still_request c) _ s

theorem State.still_forward (s : State) (q : Piece) (dests : List Nat) : (s.forward q dests).wgt.still = s.wgt.still := by
  refine foldl_same (fun t : State => t.wgt.still) (fun t d => ?_) dests s
  exact (congrArg WgtSt.still (State.sendMsg_wgt ..)).trans rfl

theorem State.still_forwardManifest (s : State) (dests : List Nat) : (s.forwardManifest dests).wgt.still = s.wgt.still := by
  unfold State.forwardManifest
  split
  · rfl
  · exact foldl_same (fun t : State => t.wgt.still) (fun t e => t.still_forward _ _) _ s

/-- The new plan stands; of the session nothing differs but what is asked for and passed on. -/
theorem State.still_planTakes (s : State) (old p : RelayPlan) : (s.planTakes old p).wgt.still = { s.wgt with plan := some p }.still := by
  unfold State.planTakes
  extract_lets t told
  have htold : told.wgt.still = t.wgt.still := by
    unfold told
    split
    · exact t.still_forwardManifest _
    · rfl
  rw [State.tellManager_wgt, State.still_requestNeeded, htold]
  rfl

/-! Sessions begin and end (R233). -/

/-- With no piece waiting, nothing is tried again but the buffers. -/
theorem State.retryWaiting_of_none (h : s.wgt.waiting = []) : s.retryWaiting = s.settleStages := by
  have hself : (s.onWgt fun w => { w with waiting := [] }) = s := by
    rw [State.onWgt, ← h]
  rw [State.retryWaiting, hself, h]
  rfl

/-- Buffers come free; nothing else of the weights changes. -/
theorem State.settleStages_wgt (s : State) : ∃ stays, s.settleStages.wgt = { s.wgt with stages := s.wgt.stages.filter stays } := ⟨_, rfl⟩

/-- FULL asks for chunks as it goes, none at its beginning. -/
theorem State.requestNeeded_full (hplan : s.wgt.plan = some p) (hkind : p.kind = 1) : s.requestNeeded = s := by
  simp [State.requestNeeded, hplan, hkind]

/-- Before it receives, a FULL session cannot be PROGRAMMED. -/
theorem State.programmedCheck_full (hplan : s.wgt.plan = some p) (hkind : p.kind = 1) (hst : s.wgt.st ≠ 3) :
    s.programmedCheck = s.onWgt fun w => { w with scope := [] } := by
  simp [State.programmedCheck, State.onWgt, hplan, hkind, hst]

/-- A session of a FULL plan begins PLANNED, with nothing staged and nothing counted. -/
theorem State.beginSession_full (hst : s.wgt.st = 0) (hkind : p.kind = 1) (hwaiting : s.wgt.waiting = []) :
    (s.beginSession p).wgt = s.wgt.begin p s.now := by
  have hbegun : ∀ t : State, t.wgt = s.wgt.begin p s.now → (t.requestNeeded.programmedCheck.retryWaiting).wgt = s.wgt.begin p s.now := by
    intro t ht
    have hplan : t.wgt.plan = some p := by rw [ht]; rfl
    have hplanned : t.wgt.st ≠ 3 := by rw [ht]; simp [WgtSt.begin, hkind]
    rw [State.requestNeeded_full hplan hkind, State.programmedCheck_full hplan hkind hplanned, State.retryWaiting_of_none (by simp [ht, WgtSt.begin, hwaiting])]
    obtain ⟨stays, hstays⟩ := State.settleStages_wgt (t.onWgt fun w => { w with scope := [] })
    rw [hstays, State.onWgt_wgt, ht]
    rfl
  rw [State.beginSession, if_pos hst]
  exact hbegun _ (State.tellManager_wgt _)

/-- The weights with another count of dropped pieces. -/
def WgtSt.dropping (w : WgtSt) (n : Nat) : WgtSt := { w with cntDropped := n }

/-- A piece that comes while no plan stands is dropped and counted (R230). -/
theorem State.stageAndAnswer_noPlan (hplan : s.wgt.plan = none) (c : Option Mgmt) (q : Piece) :
    (s.stageAndAnswer c q).wgt = s.wgt.dropping (sat32 (s.wgt.cntDropped + 1)) := by
  have htake : s.takePiece q = s.onWgt fun w => w.dropping (sat32 (w.cntDropped + 1)) := by
    simp [State.takePiece, hplan, WgtSt.dropping]
  cases c with
  | none => rw [State.stageAndAnswer, htake]; rfl
  | some c =>
    rw [State.stageAndAnswer, htake]
    exact State.onlyIn_answer _ _ _ _ _ _ .wgt (by decide)

/-- Without a plan every piece that waited is dropped. -/
theorem State.restage_noPlan (ws : List (Option Mgmt × Piece)) (hplan : s.wgt.plan = none) (hwaiting : s.wgt.waiting = []) :
    ∃ n, (State.restage ws s).wgt = s.wgt.dropping n := by
  induction ws generalizing s with
  | nil => exact ⟨_, rfl⟩
  | cons w ws ih =>
    obtain ⟨c, q⟩ := w
    have hdropped := State.stageAndAnswer_noPlan hplan c q
    obtain ⟨n, hn⟩ := ih (s := s.stageAndAnswer c q) (by rw [hdropped]; exact hplan) (by rw [hdropped]; exact hwaiting)
    have hroom : s.hasRoom q = true := by simp [State.hasRoom, hplan]
    refine ⟨n, ?_⟩
    rw [State.restage]
    rw [if_pos (by simp [hroom, hwaiting]), hn, hdropped]
    rfl

/-- The weights of a session that END closes. -/
def WgtSt.ended (w : WgtSt) : WgtSt := { w with plan := none, st := 0, stalled := false, stages := [], requested := [], accepted := false }

/-- END of a session that is over leaves it IDLE; pieces that waited are dropped. -/
theorem State.relayEnd_ends (h : s.wgt.st = 4 ∨ s.wgt.st = 5) : ∃ n, s.relayEnd.wgt = { s.wgt.ended with waiting := [] }.dropping n := by
  rw [State.relayEnd, if_pos (by simpa using h), State.tellManager_wgt]
  exact State.restage_noPlan _ rfl rfl

/-- END does nothing to a session in any other state. -/
theorem State.relayEnd_stands (h4 : s.wgt.st ≠ 4) (h5 : s.wgt.st ≠ 5) : s.relayEnd = s := if_neg (by simp [h4, h5])

end Plans

/-- Settles O35: a plan refused leaves its code alone, one that passes begins a session, takes the place of the plan before or waits; END closes
a session that is over. -/
theorem relaySessions : Obligations.RelaySessions := by
  unfold Obligations.RelaySessions
  intro s src epoch p haccepts
  have hplan : exec (.relayPlan src epoch p) s = .next ((s.heard epoch).relayPlan p) := congrArg _ (haccepts.fromMgr _)
  have hend : exec (.relayEnd src epoch) s = .next (s.heard epoch).relayEnd := congrArg _ (haccepts.fromMgr _)
  refine ⟨fun code hrow => ?_, fun hpass => ⟨fun hst hkind hwaiting => ?_, fun old hold hst htag => ?_, fun old hold hst htag hbusy => ?_⟩, fun hst => ?_,
    fun h4 h5 => ?_⟩
  · have hrefused := ((s.planRefusal_heard epoch p).trans (State.planRefusal_of_row hrow))
    obtain ⟨hwgt, honly⟩ := State.relayPlan_refused_effect hrefused
    refine ⟨_, hplan, hwgt.trans (by rw [State.heard_wgt]), ?_⟩
    exact State.onlyIn_then (State.onlyIn_mono (s.onlyIn_heard epoch) (by decide)) honly (by decide)
  · have hpass' := (s.planRefusal_heard epoch p).trans hpass
    have hleft := ((s.heard epoch).relays_relayPlan p).parts
    have hwgt : ((s.heard epoch).relayPlan p).wgt = s.wgt.begin p (s.heard epoch).sessionAbort.now := by
      rw [State.relayPlan_begins hpass' (by simpa using hst), State.beginSession_full (by simpa using hst) hkind (by simpa using hwaiting)]
      simp
    refine ⟨_, hplan, ?_, by rw [hwgt]; rfl, by rw [hwgt]; rfl, by rw [hwgt]; rfl, by rw [hwgt]; rfl, ?_, by rw [hwgt]; rfl, by rw [hwgt]; rfl,
      (hleft .arrays (by decide)).trans (s.heard_arrays epoch), (hleft .hamper (by decide)).trans (s.heard_hamper epoch)⟩
    · rw [hwgt]; simp [WgtSt.begin, hkind]
    · rw [hwgt]; simp [WgtSt.begin, hkind]
  · have hpass' := (s.planRefusal_heard epoch p).trans hpass
    have hleft := ((s.heard epoch).relays_relayPlan p).parts
    have hstill : ((s.heard epoch).relayPlan p).wgt.still = { s.wgt with plan := some p }.still := by
      rw [State.relayPlan_takes hpass' (by simpa using hold) (by simpa using hst) htag, State.still_planTakes]
      simp
    have keeps {γ : Type} (g : WgtSt → γ) (hg : ∀ w : WgtSt, g w.still = g w) : g ((s.heard epoch).relayPlan p).wgt = g { s.wgt with plan := some p } :=
      WgtSt.of_still g hg hstill
    exact ⟨_, hplan, keeps WgtSt.plan fun _ => rfl, keeps WgtSt.st fun _ => rfl, keeps WgtSt.stages fun _ => rfl, keeps WgtSt.verified fun _ => rfl,
      keeps WgtSt.recs fun _ => rfl, (hleft .arrays (by decide)).trans (s.heard_arrays epoch)⟩
  · have hpass' := (s.planRefusal_heard epoch p).trans hpass
    have hleft := ((s.heard epoch).relays_relayPlan p).parts
    refine ⟨_, hplan, ?_, (hleft .arrays (by decide)).trans (s.heard_arrays epoch)⟩
    rw [State.relayPlan_waits hpass' (by simpa using hold) (by simpa using hst) htag (by simpa [State.jobsBusy, State.arr] using hbusy), State.onWgt_wgt]
    simp
  · have hleft := (s.heard epoch).relays_relayEnd.parts
    obtain ⟨n, hn⟩ := State.relayEnd_ends (s := s.heard epoch) (by simpa using hst)
    rw [State.heard_wgt] at hn
    exact ⟨_, hend, by rw [hn]; rfl, by rw [hn]; rfl, by rw [hn]; rfl, by rw [hn]; rfl, by rw [hn]; rfl, by rw [hn]; rfl,
      (hleft .arrays (by decide)).trans (s.heard_arrays epoch), (hleft .hamper (by decide)).trans (s.heard_hamper epoch),
      (hleft .dram (by decide)).trans (s.heard_dram epoch)⟩
  · exact hend.trans (congrArg _ (State.relayEnd_stands (by simpa using h4) (by simpa using h5)))

end Sys2Proof.Machine

/-!
PROOFS of the statement on scrub and the UTC clock (07_weights R254 to R257; 09_host_interface R315).
-/

namespace Sys2Proof.Machine

/-! Array records (R243). -/

section Records
variable (s : State) (a : Nat)

/-- A record reads what was written. -/
@[simp] theorem State.rec_setRec_same (r : ArrRec) : (s.setRec a r).rec_ a = r := SMap.get_set_same ..

/-- Another record reads as before. -/
theorem State.rec_setRec_ne {b : Nat} (r : ArrRec) (h : b ≠ a) : (s.setRec a r).rec_ b = s.rec_ b := SMap.get_set_ne _ _ _ h

/-- A record written touches the records and the count of record writes. -/
theorem State.onlyIn_setRec (r : ArrRec) : s.onlyIn (s.setRec a r) [.fields, .wgt] := by
  refine State.onlyIn_count ?_ (by decide)
  intro p hp
  cases p
  case wgt => exact absurd (by decide) hp
  all_goals rfl

theorem State.onlyIn_setRepair : s.onlyIn (s.setRepair a) [.fields, .wgt] := by
  unfold State.setRepair
  split
  · exact State.onlyIn_refl s _
  · exact s.onlyIn_setRec a _

theorem State.needsChunk_setRepair : (s.setRepair a).needsChunk a = true := by
  unfold State.setRepair
  split
  · assumption
  · rw [State.needsChunk, State.rec_setRec_same]

theorem State.scrub_setRepair : (s.setRepair a).wgt.scrub = s.wgt.scrub := by
  unfold State.setRepair
  split <;> rfl

/-- Equal tables of records mark the same arrays. -/
theorem State.needsChunk_of_recs {s t : State} (h : t.wgt.recs = s.wgt.recs) (a : Nat) : t.needsChunk a = s.needsChunk a := by
  rw [State.needsChunk, State.rec_, h]
  rfl

end Records

/-! Scrub (R256). -/

section Scrub
variable {s : State} {a l : Nat}

/-- The digest that a scrub read holds for the roll call: 48 zero bytes where the cells give none. -/
def State.scrubDigest (s : State) (a : Nat) : Bytes := (s.logicalDigest a).getD (List.replicate 48 0)

/-- The digest is held. -/
def State.scrubHeld (s : State) (a l : Nat) : State := s.onWgt fun w => { w with scrub := SMap.put w.scrub l (s.scrubDigest a) }

/-- The array needs its chunk: the manager is told, and a session asks for it. -/
def State.chunkMissed (s : State) (a : Nat) : State := ((s.setRepair a).tellManager).requestNeeded

theorem State.scrubRead_eq (hl : s.logicalArr a = some l) (hmode : s.mode a = modeMaint) (hbusy : s.flag F.ARR_STATUS_BUSY a = false)
    (hst : (s.rec_ a).state = .valid) :
    s.scrubRead a = if s.scrubDigest a = (s.rec_ a).digest then s.scrubHeld a l else (s.scrubHeld a l).chunkMissed a := by
  rw [State.scrubRead, hl]
  dsimp only
  rw [if_neg (by simp [hmode, hbusy, hst])]
  rfl

/-- Any other array is not read. -/
theorem State.scrubRead_stands (h : s.mode a ≠ modeMaint ∨ s.flag F.ARR_STATUS_BUSY a = true ∨ (s.rec_ a).state ≠ .valid) : s.scrubRead a = s := by
  unfold State.scrubRead
  split
  · rfl
  · exact if_pos (by simpa [or_assoc] using h)

theorem State.onlyIn_chunkMissed (s : State) (a : Nat) : s.onlyIn (s.chunkMissed a) [.fields, .host, .sec, .wgt, .link] :=
  State.onlyIn_trans (State.onlyIn_then (State.onlyIn_mono (s.onlyIn_setRepair a) (by decide)) (State.onlyIn_tellManager _) (by decide))
    (State.relays_requestNeeded _).parts

theorem State.scrub_chunkMissed (s : State) (a : Nat) : (s.chunkMissed a).wgt.scrub = s.wgt.scrub :=
  (WgtSt.of_still WgtSt.scrub (fun _ => rfl) (State.still_requestNeeded _)).trans ((congrArg WgtSt.scrub (State.tellManager_wgt _)).trans (s.scrub_setRepair a))

theorem State.needsChunk_chunkMissed (s : State) (a : Nat) : (s.chunkMissed a).needsChunk a = true :=
  (State.needsChunk_of_recs ((State.relays_requestNeeded _).records.trans (State.relays_tellManager _).records) a).trans (s.needsChunk_setRepair a)

/-- A scrub read holds the digest; an array that disagrees with its record needs its chunk, any other record stays. -/
theorem State.scrubRead_effect (hl : s.logicalArr a = some l) (hmode : s.mode a = modeMaint) (hbusy : s.flag F.ARR_STATUS_BUSY a = false)
    (hst : (s.rec_ a).state = .valid) :
    SMap.find? (s.scrubRead a).wgt.scrub l = some (s.scrubDigest a) ∧ (s.scrubDigest a = (s.rec_ a).digest → (s.scrubRead a).rec_ a = s.rec_ a) ∧
      (s.scrubDigest a ≠ (s.rec_ a).digest → (s.scrubRead a).needsChunk a = true) ∧ s.onlyIn (s.scrubRead a) [.fields, .host, .sec, .wgt, .link] := by
  have hheld : SMap.find? (s.scrubHeld a l).wgt.scrub l = some (s.scrubDigest a) := SMap.find?_put_same ..
  have honly : s.onlyIn (s.scrubHeld a l) [.fields, .host, .sec, .wgt, .link] := State.onlyIn_mono (s.onlyIn_onWgt _) (by decide)
  rw [State.scrubRead_eq hl hmode hbusy hst]
  split
  · next heq => exact ⟨hheld, fun _ => rfl, fun hne => absurd heq hne, honly⟩
  · next hne =>
    exact ⟨(congrArg (SMap.find? · l) (State.scrub_chunkMissed ..)).trans hheld, fun heq => absurd heq hne, fun _ => State.needsChunk_chunkMissed ..,
      State.onlyIn_trans honly (State.onlyIn_chunkMissed _ a)⟩

end Scrub

/-! The UTC clock (R254, R315). -/

section Time
variable {s t : State}

/-- What the time of an array's record does not bear on: its state, its digest, whether the array needs its chunk. -/
def State.recordKept (s : State) (a : Nat) : RecState × Bytes × Bool := ((s.rec_ a).state, (s.rec_ a).digest, (s.rec_ a).repair)

theorem State.recordKept_setRec {a : Nat} {r : ArrRec} (h : (r.state, r.digest, r.repair) = s.recordKept a) : (s.setRec a r).recordKept = s.recordKept := by
  funext b
  by_cases hb : b = a
  · subst hb
    rw [State.recordKept, State.rec_setRec_same]
    exact h
  · rw [State.recordKept, State.rec_setRec_ne _ _ _ hb]
    rfl

/-- The record of an array once the time is known: a stamp of this power-up becomes a time. -/
def State.recordTimed (s : State) (a : Nat) : ArrRec :=
  match (s.rec_ a).stamp with
  | some t => if (s.rec_ a).progUtc = 0 then { s.rec_ a with progUtc := s.utcSec - (s.now - t) / 1000000000, stamp := none } else s.rec_ a
  | none => s.rec_ a

theorem State.recordTimed_kept (s : State) (a : Nat) : ((s.recordTimed a).state, (s.recordTimed a).digest, (s.recordTimed a).repair) = s.recordKept a := by
  unfold State.recordTimed
  split
  · split <;> rfl
  · rfl

/-- A time set gives an array an age; of its record nothing but the stamp changes. -/
theorem State.ageFromTime_effect (s : State) (first : Bool) (a : Nat) :
    s.onlyIn (s.ageFromTime first a) [.fields, .wgt] ∧ (s.ageFromTime first a).recordKept = s.recordKept := by
  have hstamped : ∀ u : State, u = (if s.recordTimed a = s.rec_ a then s else s.setRec a (s.recordTimed a)) →
      s.onlyIn u [.fields, .wgt] ∧ u.recordKept = s.recordKept := by
    rintro u rfl
    split
    · exact ⟨State.onlyIn_refl s _, rfl⟩
    · exact ⟨s.onlyIn_setRec a _, State.recordKept_setRec (s.recordTimed_kept a)⟩
  have haged : ∀ (u : State) (hours : Nat), s.onlyIn u [.fields, .wgt] ∧ u.recordKept = s.recordKept →
      s.onlyIn (u.setAge a hours false) [.fields, .wgt] ∧ (u.setAge a hours false).recordKept = s.recordKept :=
    fun u hours hu => ⟨State.onlyIn_then hu.1 (u.setAge_leaves a hours false).1 (by decide), hu.2⟩
  unfold State.ageFromTime
  extract_lets r r' u hours
  have hu := hstamped u rfl
  split
  · exact hu
  · split
    · exact haged _ _ hu
    · exact haged _ _ hu

/-- The clock stands at a time from now on. -/
def State.clockSet (s : State) (ns : Nat) : State := { s with host := { s.host with utc := some (ns, s.now) } }

/-- The clock is set, and arrays whose time of programming it settles get their ages. -/
def State.timeSet (s : State) (ns : Nat) : State :=
  (s.clockSet ns).mappedArrays.foldl (fun (t : State) a => t.ageFromTime s.utcNs.isNone a) (s.clockSet ns)

theorem State.onlyIn_clockSet (s : State) (ns : Nat) : s.onlyIn (s.clockSet ns) [.host] := by
  intro p hp
  cases p
  case host => exact absurd (by decide) hp
  all_goals rfl

theorem State.onlyIn_ages (s : State) (ns : Nat) : (s.clockSet ns).onlyIn (s.timeSet ns) [.fields, .wgt] :=
  State.onlyIn_foldl (fun t a => (t.ageFromTime_effect _ a).1) _ _

theorem State.timeSet_recordKept (s : State) (ns : Nat) : (s.timeSet ns).recordKept = s.recordKept :=
  foldl_same State.recordKept (fun t a => (t.ageFromTime_effect _ a).2) _ _

theorem State.utcNs_timeSet (s : State) (ns : Nat) : (s.timeSet ns).utcNs = some ns := by
  have hhost : (s.timeSet ns).host = (s.clockSet ns).host := s.onlyIn_ages ns .host (by decide)
  have hnow : (s.timeSet ns).now = s.now := s.onlyIn_ages ns .now (by decide)
  rw [State.utcNs, hhost, hnow]
  simp [State.clockSet]

theorem State.onlyIn_timeSet (s : State) (ns : Nat) : s.onlyIn (s.timeSet ns) [.host, .fields, .wgt] :=
  State.onlyIn_then (State.onlyIn_mono (s.onlyIn_clockSet ns) (by decide)) (s.onlyIn_ages ns) (by decide)

theorem State.sameRing_timeSet (s : State) (ns fn : Nat) : s.sameRing (s.timeSet ns) fn := by
  have hhost : (s.timeSet ns).host = (s.clockSet ns).host := s.onlyIn_ages ns .host (by decide)
  exact State.sameRing_of_win (by rw [hhost]; rfl) fn

/-- SET_TIME: too many nanoseconds are refused. -/
theorem State.setTimeCmd_refused {nsec : Nat} (c : Mgmt) (sec : Nat) (h : 999999999 < nsec) : s.setTimeCmd c sec nsec = s.answer c 0x10 1 0 := if_pos h

/-- Otherwise the time is set, and the seconds held before are answered. -/
theorem State.setTimeCmd_sets {nsec : Nat} (c : Mgmt) (sec : Nat) (h : nsec ≤ 999999999) :
    s.setTimeCmd c sec nsec = (s.timeSet (1000000000 * sec + nsec)).answer c 0x10 0 0 (toLe 8 s.utcSec) := if_neg (Nat.not_lt.2 h)

/-- An answer carries its detail to the tail of the ring as it was found. -/
theorem State.sameRing.detail {c : Mgmt} (h : s.sameRing t c.fn) (hd : (s.win c.fn).discard = false) (code result target : Nat) (detail : Bytes) :
    SMap.find? ((t.answer c code result target detail).win c.fn).rsp (s.win c.fn).rspTail = some ⟨code, result, c.tag, detail⟩ := by
  obtain ⟨hrsp, htail, hdiscard⟩ := h
  have hwin : ∀ r, (t.audit c.fn code r result target).win c.fn = t.win c.fn := fun _ => rfl
  simp [State.answer, State.respond, hwin, htail, hdiscard, hd]

theorem State.utcNs_answer (s : State) (c : Mgmt) (code result target : Nat) (detail : Bytes) :
    (s.answer c code result target detail).utcNs = s.utcNs := by
  obtain ⟨w, hw⟩ := (s.audit c.fn code (if result = 0 then 0 else 1) result target).respond_eq_setWin c code result detail
  rw [State.answer, hw]
  rfl

end Time

/-- Settles O38: a scrub read holds the digest and marks an array that disagrees with its record; SET_TIME sets the clock and answers the seconds
before, changing no record but its stamp. -/
theorem scrubAndTime : Obligations.ScrubAndTime := by
  unfold Obligations.ScrubAndTime
  refine fun s => ⟨fun a l ha hl => ?_, fun c sec nsec hheeds => ?_⟩
  · have hexec : exec (.scrubRead a) s = .next (s.scrubRead a) := within_next (decide_eq_true ha)
    refine ⟨fun hmode hbusy hst => ?_, fun h => hexec.trans (congrArg _ (State.scrubRead_stands h))⟩
    obtain ⟨hheld, hsame, hmissed, honly⟩ := State.scrubRead_effect hl hmode hbusy hst
    exact ⟨_, hexec, hheld, hsame, hmissed, honly .arrays (by decide), honly .cores (by decide), honly .hamper (by decide)⟩
  · have hexec : exec (.setTime c sec nsec) s = .next ((s.take c.fn).setTimeCmd c sec nsec) :=
      (within_next hheeds.ok).trans (congrArg _ (hheeds.mgmt 0 _))
    refine ⟨fun h => hexec.trans (congrArg _ (State.setTimeCmd_refused c sec h)), fun h => ?_⟩
    rw [State.setTimeCmd_sets c sec h] at hexec
    have hring := (s.sameRing_take c.fn).trans ((s.take c.fn).sameRing_timeSet (1000000000 * sec + nsec) c.fn)
    have honly : s.onlyIn _ [.host, .fields, .wgt, .sec] :=
      State.onlyIn_then (State.onlyIn_then (State.onlyIn_mono (s.onlyIn_take c.fn) (by decide)) ((s.take c.fn).onlyIn_timeSet _) (by decide))
        (State.onlyIn_answer ((s.take c.fn).timeSet (1000000000 * sec + nsec)) c 0x10 0 0 (toLe 8 (s.take c.fn).utcSec)) (by decide)
    refine ⟨_, hexec, hring.answer .., (State.utcNs_answer ..).trans (State.utcNs_timeSet ..), fun hd => ?_, fun a => ?_, honly .arrays (by decide),
      honly .hamper (by decide), honly .frame (by decide)⟩
    · rw [hring.detail hd]
      rfl
    · have hkept := congrFun ((s.take c.fn).timeSet_recordKept (1000000000 * sec + nsec)) a
      have hrecs : ∀ u : State, ((u.answer c 0x10 0 0 (toLe 8 (s.take c.fn).utcSec)).rec_ a) = u.rec_ a := fun u =>
        congrArg (fun w : WgtSt => SMap.get ArrRec.init w.recs a) (u.onlyIn_answer c 0x10 0 0 _ .wgt (by decide))
      rw [hrecs]
      simp only [State.recordKept, Prod.mk.injEq] at hkept
      exact hkept

end Sys2Proof.Machine

/-!
REFUTATION of the statement on the verification of chunks (07_weights R235).
-/

namespace Sys2Proof.Machine

/-! The start of a core's programming where its site carries no logical core (R235). -/

section Unmapped
variable {s : State} {core site : Nat}

theorem State.mem_mappedArrays {i : Nat} (hsite : s.coreSite core = some site) (hcore : core < 1200) (hi : i < 16) : 16 * site + i ∈ s.mappedArrays := by
  refine List.mem_flatMap.2 ⟨core, List.mem_range.2 hcore, ?_⟩
  rw [hsite]
  exact List.mem_map.2 ⟨i, List.mem_range.2 hi, rfl⟩

/-- FULL programs every array that has a place. -/
theorem State.scopeNow_full {p : RelayPlan} (hplan : s.wgt.plan = some p) (hkind : p.kind = 1) : s.scopeNow = s.mappedArrays := by
  rw [State.scopeNow, hplan]
  exact if_pos hkind

/-- A logical core has arrays to go where one of the scope does. -/
theorem State.coresToGo_contains {a : Nat} (hscope : a ∈ s.scopeNow) (hgo : s.toGo a = true) (hcore : s.siteCore (a / 16) = some core) :
    s.coresToGo.contains core = true :=
  List.contains_iff_mem.2 (List.mem_eraseDups.2 (List.mem_filterMap.2 ⟨a, List.mem_filter.2 ⟨hscope, hgo⟩, hcore⟩))

/-- A core whose chunk is not verified is not ready. -/
theorem State.coreReady_unstaged {p : RelayPlan} (hplan : s.wgt.plan = some p) (h : s.wgt.stagedOk p.shard (23 + core) = false) :
    s.coreReady core = false := by
  unfold State.coreReady
  split
  · next q _ hq _ =>
    obtain rfl : q = p := Option.some.inj (hq.symm.trans hplan)
    simp [h]
  · rfl

/-- An array of a site that carries no logical core does not begin to be programmed. -/
theorem State.jobStart_unmapped {a : Nat} (h : s.logicalArr a = none) (again : Bool) : s.jobStart a again = s := by
  rw [State.jobStart, h]

theorem State.jobStarts_unmapped {l : List Nat} (h : ∀ a ∈ l, s.logicalArr a = none) : l.foldl (fun (s : State) a => s.jobStart a false) s = s := by
  induction l with
  | nil => rfl
  | cons a l ih =>
    rw [List.foldl_cons, State.jobStart_unmapped (h a List.mem_cons_self)]
    exact ih fun b hb => h b (List.mem_cons_of_mem a hb)

/-- A core that is ready begins, but no array of a site that carries no logical core gets a record. -/
theorem State.programCore_unmapped (hready : s.coreReady core = true) (hroom : s.supplyRoom = true) (hwarn : s.flag F.PWR_STATUS_WARN = false)
    (hlow : ∀ k, k < core → s.coreReady k = false) (hsite : s.coreSite core = some site) (hcore : s.siteCore site = none) (hjobs : s.wgt.jobs = []) :
    (s.programCore core).wgt.recs = s.wgt.recs := by
  have hlowest : (List.range core).any s.coreReady = false := by simpa using hlow
  have hidle : ∀ g : WgtSt → WgtSt, (g s.wgt).jobs = [] → (s.onWgt g).kickJobs = s.onWgt g := fun g hg => by
    rw [State.kickJobs, State.onWgt_wgt, hg]
    rfl
  unfold State.programCore
  rw [if_neg (by simp [hready, hroom, hwarn, hlowest]), hsite]
  dsimp only
  rw [State.jobStarts_unmapped, hidle _ hjobs]
  · rfl
  · intro a ha
    have hplace : a / 16 = site := by simp only [List.mem_filter, Bool.and_eq_true, beq_iff_eq] at ha; exact ha.2.1.1
    change (s.siteCore (a / 16)).map _ = none
    rw [hplace, hcore]
    rfl

end Unmapped

/-- A part in RECEIVING under a FULL plan, the chunk of core 40 and all side chunks verified, whose spare map names physical rows that no half has:
64 for logical row 0 and 97 for logical row 1, which the register's 5 bits cannot hold.  Core 40 then stands at site 1940, where no logical core is,
and site 1280 counts as its site. -/
def spareMapAstray : State :=
  { State.reset with
    fields := [(F.GLB_ROWMAP_DATA_PROW.key 0, 64), (F.GLB_ROWMAP_DATA_PROW.key 1, 97)]
    wgt := { WgtSt.init with
      st := 3
      plan := some ⟨0, 1, false, 0, 0, []⟩
      stages := [⟨0, 63, [], 0, true⟩]
      sides := (List.range 22).map fun i => (i + 1, []) } }

section Astray

theorem spareMapAstray_coreSite : spareMapAstray.coreSite 0 = some 1280 ∧ spareMapAstray.coreSite 40 = some 1940 := by decide

theorem spareMapAstray_siteCore : spareMapAstray.siteCore 1280 = some 40 ∧ spareMapAstray.siteCore 1940 = none := by decide

theorem spareMapAstray_scope : spareMapAstray.scopeNow = spareMapAstray.mappedArrays :=
  State.scopeNow_full (p := ⟨0, 1, false, 0, 0, []⟩) rfl rfl

/-- Core 40 is ready: of the arrays at site 1280 every one has still to be programmed. -/
theorem spareMapAstray_ready : spareMapAstray.coreReady 40 = true := by
  have hscope : 16 * 1280 + 0 ∈ spareMapAstray.scopeNow := spareMapAstray_scope ▸ State.mem_mappedArrays spareMapAstray_coreSite.1 (by decide) (by decide)
  have hgo : spareMapAstray.coresToGo.contains 40 = true := State.coresToGo_contains hscope (by decide) spareMapAstray_siteCore.1
  have hplan : spareMapAstray.wgt.plan = some ⟨0, 1, false, 0, 0, []⟩ := rfl
  unfold State.coreReady
  rw [hplan, spareMapAstray_coreSite.2]
  dsimp only
  rw [hgo]
  decide

theorem spareMapAstray_lowest (k : Nat) (hk : k < 40) : spareMapAstray.coreReady k = false := by
  refine State.coreReady_unstaged (p := ⟨0, 1, false, 0, 0, []⟩) rfl ?_
  have hne : 63 ≠ 23 + k := by omega
  simp [WgtSt.stagedOk, spareMapAstray, hne]

end Astray

/-- Refutes O37: a core that begins has no record ERASING where its site carries no logical core, as a spare map may say that holds a row number
beyond 31; nothing in the statement keeps the register fields of the state to their widths. -/
theorem not_chunksAreVerified : ¬ Obligations.ChunksAreVerified := by
  unfold Obligations.ChunksAreVerified
  intro h
  obtain ⟨-, -, -, hstart⟩ := h spareMapAstray
  obtain ⟨hbegins, -⟩ := hstart 40 1940 ⟨0, 1, false, 0, 0, []⟩ (by decide) spareMapAstray_coreSite.2 rfl
  obtain ⟨t, ht, -, hrecs⟩ := hbegins spareMapAstray_ready (by decide) (by decide) spareMapAstray_lowest
  have hexec : exec (.coreProgramStart 40) spareMapAstray = .next (spareMapAstray.programCore 40) := rfl
  obtain rfl : spareMapAstray.programCore 40 = t := Outcome.next_inj.1 (hexec.symm.trans ht)
  have hscope : 16 * 1940 + 0 ∈ spareMapAstray.scopeNow := spareMapAstray_scope ▸ State.mem_mappedArrays spareMapAstray_coreSite.2 (by decide) (by decide)
  have herasing := (hrecs _ hscope (by decide) (by decide) (by decide)).1
  have hnone : (spareMapAstray.programCore 40).wgt.recs = [] :=
    State.programCore_unmapped spareMapAstray_ready (by decide) (by decide) spareMapAstray_lowest spareMapAstray_coreSite.2 spareMapAstray_siteCore.2 rfl
  rw [State.rec_, hnone] at herasing
  exact absurd herasing (by decide)

end Sys2Proof.Machine

/-!
PROOFS of what a rack manager does for its parts (12_links_and_fabric R400 to R406).
-/

namespace Sys2Proof.Machine

/-! The domain as a manager reads it (R400, Table 12-11). -/

/-- The register fields that name the parts of the domain, the role of this part and its number. -/
def domainFlds : List Fld :=
  [F.PRT_DOM_DATA_VALID, F.PRT_DOM_DATA_PART, F.PRT_DOM_DATA_RACK, F.PRT_DOM_DATA_SPARE, F.PRT_DOM_DATA_ABSENT, F.PRT_ROLE_RACK, F.PRT_PARTNUM_PART]

/-- Both states hold the same domain. -/
def State.sameDomain (s t : State) : Prop := ∀ f ∈ domainFlds, ∀ i, t.fld f i = s.fld f i

/-- An update of other fields leaves the domain. -/
theorem State.onlyFields.sameDomain {s t : State} {fs : List Fld} (h : s.onlyFields t fs)
    (hfs : ∀ f ∈ domainFlds, f.code % 1024 ∉ fs.map (·.code)) : s.sameDomain t := fun f hf i => h.fld i (hfs f hf)

section Domain
variable {s t : State} (h : s.sameDomain t)
include h

theorem State.sameDomain.flag {f : Fld} (hf : f ∈ domainFlds) (i : Nat) : t.flag f i = s.flag f i := State.flag_of_fld (h f hf i)

theorem State.sameDomain.entries : t.entries = s.entries := by
  simp only [State.entries, h.flag (f := F.PRT_DOM_DATA_VALID) (by simp [domainFlds])]

theorem State.sameDomain.entryPart (i : Nat) : t.entryPart i = s.entryPart i := h _ (by simp [domainFlds]) i

theorem State.sameDomain.entryOf (part : Nat) : t.entryOf part = s.entryOf part := by
  simp only [State.entryOf, h.entries, h.entryPart]

theorem State.sameDomain.isRack : t.isRack = s.isRack := h.flag (by simp [domainFlds]) 0

theorem State.sameDomain.partNum : t.partNum = s.partNum := h _ (by simp [domainFlds]) 0

theorem State.sameDomain.spareEntry : t.spareEntry = s.spareEntry := by
  simp only [State.spareEntry, h.entries, h.flag (f := F.PRT_DOM_DATA_SPARE) (by simp [domainFlds]), h.flag (f := F.PRT_DOM_DATA_ABSENT) (by simp [domainFlds])]

end Domain

/-! What a manager does for the parts of its rack, short of a substitution (R404, R406): it plans, sends, and withdraws parts. -/

/-- A state as a manager may leave it that plans relay and withdraws parts: no part is admitted, no substitution begins or ends. -/
structure State.manages (s t : State) : Prop where
  parts : s.onlyIn t [.fields, .host, .sec, .wgt, .link, .mgr]
  fields : s.onlyFields t (F.PRT_DOM_DATA_WITHDRAWN :: relayFlds)
  subst : t.mgr.subst = s.mgr.subst
  out : ∀ i, s.flag F.PRT_DOM_DATA_WITHDRAWN i = true → t.flag F.PRT_DOM_DATA_WITHDRAWN i = true

section Manages
variable {s t u : State}

theorem State.manages.refl (s : State) : s.manages s := ⟨State.onlyIn_refl s _, State.onlyFields_refl s _, rfl, fun _ h => h⟩

theorem State.manages.trans (h : s.manages t) (h' : t.manages u) : s.manages u :=
  ⟨State.onlyIn_trans h.parts h'.parts, State.onlyFields_trans h.fields h'.fields, h'.subst.trans h.subst, fun i hi => h'.out i (h.out i hi)⟩

theorem State.manages.sameDomain (h : s.manages t) : s.sameDomain t := h.fields.sameDomain (by decide)

theorem State.manages.foldl {α : Type} {f : State → α → State} (hf : ∀ (t : State) a, t.manages (f t a)) (l : List α) (s : State) :
    s.manages (l.foldl f s) := by
  induction l generalizing s with
  | nil => exact .refl s
  | cons a l ih => exact (hf s a).trans (ih (f s a))

/-- Relay leaves the domain and the substitution. -/
theorem State.relays.manages (h : s.relays t) : s.manages t where
  parts := State.onlyIn_mono h.parts (by decide)
  fields := State.onlyFields_then (State.onlyFields_refl s _) h.fields (by decide)
  subst := congrArg MgrSt.subst (h.parts .mgr (by decide))
  out := fun i hi => (State.flag_of_fld (h.fields.fld i (by decide))).trans hi

theorem State.manages_onMgr (s : State) {g : MgrSt → MgrSt} (hg : (g s.mgr).subst = s.mgr.subst) : s.manages (s.onMgr g) :=
  ⟨State.onlyIn_mono (s.onlyIn_onMgr g) (by decide), State.onlyFields_same (State.onlyFields_refl s _) rfl, hg, fun _ h => h⟩

theorem State.manages_sendMsg (s : State) (part type : Nat) (fields : List Nat) (data : Bytes) : s.manages (s.sendMsg part type fields data) :=
  (s.relays_sendMsg part type fields data).manages

/-- A part is marked withdrawn. -/
theorem State.manages_setOut (s : State) (i : Nat) : s.manages (s.setFlag F.PRT_DOM_DATA_WITHDRAWN true i) where
  parts := State.onlyIn_setFlag (State.onlyIn_refl s _) (by decide)
  fields := State.onlyFields_setFlag (State.onlyFields_refl s _) (by decide)
  subst := rfl
  out := fun j hj => by
    by_cases hij : j = i
    · subst hij
      exact s.flag_setFlag_same true j rfl
    · exact (State.flag_of_fld (s.fld_setFld_place _ _ i j hij)).trans hj

theorem State.manages_sendMaps (s : State) : s.manages s.sendMaps := by
  unfold State.sendMaps
  split
  · exact .refl s
  · refine State.manages.foldl (fun t i => ?_) _ s
    dsimp only
    split
    · exact t.manages_onMgr rfl
    · exact t.manages_sendMsg ..

theorem State.manages_givePlan (s : State) (part : Nat) (p : RelayPlan) : s.manages (s.givePlan part p) := by
  unfold State.givePlan
  split
  · exact (s.relays_relayPlan p).manages
  · exact (State.relays.trans (s.relays_onWgt rfl) (State.relays_sendMsg ..)).manages

theorem State.manages_newTree (s : State) (q : List (Nat × List Nat)) (needs : SMap Nat) (fresh : List Nat) : s.manages (s.newTree q needs fresh) := by
  unfold State.newTree
  split
  · exact .refl s
  · exact State.manages.trans (s.relays_onWgt rfl).manages (State.manages.foldl (fun t (e : Nat × RelayPlan) => t.manages_givePlan e.1 e.2) _ _)

theorem State.manages_planRelay (s : State) (kind : Nat) (needing : List Nat) : s.manages (s.planRelay kind needing) := by
  unfold State.planRelay
  extract_lets seeds need base
  split
  · exact .refl s
  · exact s.manages_newTree ..

theorem State.manages_planAround (s : State) (part : Nat) (gone : Bool) : s.manages (s.planAround part gone) := by
  unfold State.planAround
  split
  · exact .refl s
  extract_lets needs t
  have ht : s.manages t := s.manages_newTree ..
  split
  · exact ht.trans (t.relays_onWgt rfl).manages
  · exact ht

theorem State.manages_withdrawIn (s : State) (part : Nat) (out : Bool) : s.manages (s.withdrawIn part out) := by
  unfold State.withdrawIn
  split <;> exact s.manages_onMgr rfl

/-- A part with an entry is withdrawn, unless it is already; nothing else of the domain changes. -/
theorem State.withdraw_eq (part : Nat) {i : Nat} (hentry : s.entryOf part = some i) (hrack : s.isRack = true)
    (hin : s.flag F.PRT_DOM_DATA_WITHDRAWN i = false) : (s.setFlag F.PRT_DOM_DATA_WITHDRAWN true i).manages (s.setWithdrawn part true) := by
  unfold State.setWithdrawn
  rw [hentry]
  dsimp only
  rw [if_neg (by simp [hrack, hin])]
  refine State.manages.trans ?_ (State.manages_planAround ..)
  refine State.manages.trans ?_ (State.manages_sendMaps _)
  refine State.manages.trans ?_ (State.manages_withdrawIn ..)
  refine State.manages.foldl (fun t j => ?_) _ _
  split
  · exact .refl t
  · exact t.manages_sendMsg ..

/-- A part that has no entry, or whose entry says so already, is left as it is; so is every part where this one is no rack manager. -/
theorem State.setWithdrawn_stands {part : Nat} {out : Bool}
    (h : ∀ i, s.entryOf part = some i → s.isRack = true → s.flag F.PRT_DOM_DATA_WITHDRAWN i = out) : s.setWithdrawn part out = s := by
  unfold State.setWithdrawn
  split
  · rfl
  · next i hentry =>
    refine if_pos ?_
    cases hrack : s.isRack with
    | false => rfl
    | true => simpa using h i hentry hrack

theorem State.manages_withdraw (s : State) (part : Nat) : s.manages (s.setWithdrawn part true) := by
  by_cases h : ∀ i, s.entryOf part = some i → s.isRack = true → s.flag F.PRT_DOM_DATA_WITHDRAWN i = true
  · rw [State.setWithdrawn_stands h]
    exact .refl s
  · push Not at h
    obtain ⟨i, hentry, hrack, hin⟩ := h
    exact (s.manages_setOut i).trans (State.withdraw_eq part hentry hrack (Bool.eq_false_iff.2 hin))

/-- The rack manager's entry of a part it withdraws says so. -/
theorem State.withdraw_out {part i : Nat} (hentry : s.entryOf part = some i) (hrack : s.isRack = true) :
    (s.setWithdrawn part true).flag F.PRT_DOM_DATA_WITHDRAWN i = true := by
  cases hin : s.flag F.PRT_DOM_DATA_WITHDRAWN i with
  | true => exact (s.manages_withdraw part).out i hin
  | false => exact (State.withdraw_eq part hentry hrack hin).out i (s.flag_setFlag_same true i rfl)

theorem State.relays_endSessions (s : State) : s.relays s.endSessions := by
  unfold State.endSessions
  extract_lets own finished told
  split
  · exact .refl s
  · have htold : s.relays told := State.relays.foldl (fun t p => t.relays_sendMsg ..) _ s
    exact (htold.trans (told.relays_onWgt rfl)).trans (State.relays_relayEnd _)

end Manages
end Sys2Proof.Machine

/-!
PROOFS of the statement on the substitution of failed parts (07_weights R259; 12_links_and_fabric R410).
-/

namespace Sys2Proof.Machine

/-! Messages look at the link, the part's number and leadership alone (R347, R381, R392). -/

/-- The same message leaves the same link in two states that agree on what a message looks at. -/
theorem State.link_sendMsg_congr {s t : State} (hlink : t.link = s.link) (hframe : t.frame = s.frame) (hnow : t.now = s.now)
    (hflds : ∀ f ∈ [F.PRT_PARTNUM_PART, F.RGR_LATCH_HOLDER, F.RGR_EPOCH], t.fld f = s.fld f) (part type : Nat) (fields : List Nat) (data : Bytes) :
    (t.sendMsg part type fields data).link = (s.sendMsg part type fields data).link := by
  have hnum := hflds F.PRT_PARTNUM_PART (by simp)
  have hholder := hflds F.RGR_LATCH_HOLDER (by simp)
  have hepoch : t.epoch = s.epoch := hflds F.RGR_EPOCH (by simp)
  have hmay : ∀ m, t.mayTransmit m = s.mayTransmit m := fun m => by
    simp only [State.mayTransmit, State.creditLeft, hlink]
    rfl
  unfold State.sendMsg
  simp only [hnum, hholder, hframe, hepoch, hmay]
  split_ifs with hmute hheld hgo
  · exact hlink
  · simp only [hlink]
  · simp only [State.transmit, hlink, hnow]
  · simp only [hlink]

section Taken
variable (s : State) (epoch : Nat)

theorem State.link_heard_sendMsg (part type : Nat) (fields : List Nat) (data : Bytes) :
    ((s.heard epoch).sendMsg part type fields data).link = (s.sendMsg part type fields data).link :=
  State.link_sendMsg_congr (s.onlyIn_heard epoch .link (by decide)) (s.heard_frame epoch) (s.onlyIn_heard epoch .now (by decide))
    (fun f hf => (s.onlyFields_heard epoch).fld 0 (by fin_cases hf <;> decide)) ..

end Taken

/-! A part is cut off, a spare assumes its number (R410). -/

section Substitution
variable {s : State} {b : Substitution}

/-- The part cut off is to be withdrawn, answers, and has no number. -/
theorem State.cutIn_effect (s : State) (src : Nat) :
    (s.cutIn src).partNum = 0xFFFF ∧ (s.cutIn src).mgr = { s.mgr with withdrawDue := some true } ∧ (s.cutIn src).link = (s.sendMsg src 0x0308 []).link ∧
      (s.cutIn src).cores = s.cores ∧ (s.cutIn src).frame = s.frame := by
  have hsent := (s.onMgr fun m => { m with withdrawDue := some true }).onlyIn_sendMsg src 0x0308 [] []
  refine ⟨State.fld_setFld_same .., hsent .mgr (by decide), ?_, hsent .cores (by decide), hsent .frame (by decide)⟩
  exact State.link_sendMsg_congr (s := s) (t := s.onMgr fun m => { m with withdrawDue := some true }) rfl rfl rfl (fun _ _ => rfl) src 0x0308 [] []

/-- The spare has the number, and answers under it. -/
theorem State.assumeIn_effect (s : State) (src number : Nat) :
    (s.assumeIn src number).partNum = number % 65536 ∧ s.onlyIn (s.assumeIn src number) [.fields, .link] := by
  have hsent := (s.setFld F.PRT_PARTNUM_PART number).onlyIn_sendMsg src 0x030A [] []
  refine ⟨?_, State.onlyIn_then (State.onlyIn_setFld (State.onlyIn_refl s _) (by decide)) hsent (by decide)⟩
  exact (State.fld_of_fields (hsent .fields (by decide)) _ 0).trans (State.fld_setFld_same ..)

theorem State.link_heard_assumeIn (s : State) (epoch src number : Nat) :
    ((s.heard epoch).assumeIn src number).link = (s.assumeIn src number).link := by
  have hheard := s.onlyFields_heard epoch
  refine State.link_sendMsg_congr (t := (s.heard epoch).setFld F.PRT_PARTNUM_PART number) (s := s.setFld F.PRT_PARTNUM_PART number)
    (s.onlyIn_heard epoch .link (by decide)) (s.heard_frame epoch) (s.onlyIn_heard epoch .now (by decide)) (fun f hf => ?_) src 0x030A [] []
  have hfld : (s.heard epoch).fld f = s.fld f := hheard.fld 0 (by fin_cases hf <;> decide)
  fin_cases hf
  · rw [State.fld_setFld_same, State.fld_setFld_same]
  · exact ((State.fld_setFld_of_code _ _ _ _ _ _ (by decide) (by decide) (by decide)).trans hfld).trans
      (s.fld_setFld_of_code _ _ _ _ _ (by decide) (by decide) (by decide)).symm
  · exact ((State.fld_setFld_of_code _ _ _ _ _ _ (by decide) (by decide) (by decide)).trans hfld).trans
      (s.fld_setFld_of_code _ _ _ _ _ (by decide) (by decide) (by decide)).symm

/-- CUT_ACK of the part that is being cut off has ASSUME sent. -/
theorem State.cutAck_taken {src : Nat} (h : s.mgr.subst = some b) (hstage : b.stage = 0) (hfailed : b.failed = src) : s.cutAck src = s.assumeNext b := by
  simp [State.cutAck, h, hstage, hfailed]

/-- No other answer does. -/
theorem State.cutAck_other {src : Nat} (h : ∀ b, s.mgr.subst = some b → b.stage ≠ 0 ∨ b.failed ≠ src) : s.cutAck src = s := by
  unfold State.cutAck
  split
  · next b hb => exact if_neg (by simpa [imp_iff_not_or] using h b hb)
  · rfl

/-- When the part was last heard of, or its cutting off began. -/
def State.lastHeard (s : State) (b : Substitution) : Nat := max b.began (SMap.get 0 s.fab.heard b.failed)

/-- A second of silence has ASSUME sent as well. -/
theorem State.cutTimeout_due (h : s.mgr.subst = some b) (hstage : b.stage = 0) (hdue : s.lastHeard b + 1000000000 ≤ s.now) :
    s.cutTimeout = s.assumeNext b := by
  rw [State.cutTimeout, h]
  exact if_pos (by simpa [hstage, State.lastHeard] using hdue)

/-- Sooner nothing is sent. -/
theorem State.cutTimeout_early (h : ∀ b, s.mgr.subst = some b → b.stage ≠ 0 ∨ s.now < s.lastHeard b + 1000000000) : s.cutTimeout = s := by
  unfold State.cutTimeout
  split
  · next b hb => exact if_neg (by simpa [imp_iff_not_or, State.lastHeard] using h b hb)
  · rfl

theorem State.assumeNext_msgIn (s : State) (b : Substitution) : s.msgIn.assumeNext b =
    ({ s.msgIn with mgr := { s.mgr with subst := some { b with stage := 1 } } } : State).sendMsg b.former 0x0309 [b.failed] := by
  rw [State.assumeNext, State.onMgr, s.mgr_msgIn]

/-- ASSUME_ACK of the spare: its own entry is no longer valid, and the substitution waits for its weights. -/
theorem State.assumeAck_taken {src : Nat} (h : s.mgr.subst = some b) (hstage : b.stage = 1) (hfailed : b.failed = src) :
    (s.assumeAck src).flag F.PRT_DOM_DATA_VALID b.entry = false ∧ (s.assumeAck src).mgr.subst = some { b with stage := 2 } := by
  have hmanages : ((s.setFld F.PRT_DOM_DATA_VALID 0 b.entry).onMgr fun m => { m with subst := some { b with stage := 2 } }).manages (s.assumeAck src) := by
    rw [State.assumeAck, h]
    dsimp only
    rw [if_pos (by simp [hstage, hfailed])]
    exact ((State.manages_sendMaps _).trans (State.manages_planAround _ b.failed true)).trans (State.manages_planRelay _ 1 [b.failed])
  have hinvalid : (s.setFld F.PRT_DOM_DATA_VALID 0 b.entry).flag F.PRT_DOM_DATA_VALID b.entry = false := by simp [State.flag]
  exact ⟨(hmanages.sameDomain.flag (by simp [domainFlds]) b.entry).trans hinvalid, hmanages.subst⟩

theorem State.assumeAck_other {src : Nat} (h : ∀ b, s.mgr.subst = some b → b.stage ≠ 1 ∨ b.failed ≠ src) : s.assumeAck src = s := by
  unfold State.assumeAck
  split
  · next b hb => exact if_neg (by simpa [imp_iff_not_or] using h b hb)
  · rfl

/-- A substitution begun touches what the manager keeps and the link. -/
theorem State.onlyIn_substitute (s : State) (part : Nat) : s.onlyIn (s.substitute part) [.mgr, .link] := by
  unfold State.substitute
  split
  · exact State.onlyIn_refl s _
  · split
    · exact State.onlyIn_refl s _
    · exact State.onlyIn_then (State.onlyIn_mono (s.onlyIn_onMgr _) (by decide)) (State.onlyIn_sendMsg _ _ _ _ _) (by decide)

/-- The lowest idle spare is to take the part's number. -/
theorem State.substitute_begins {part e : Nat} (hspare : s.spareEntry = some e) (hnone : s.mgr.subst = none) (hrack : s.isRack = true)
    (hown : part ≠ s.partNum) : (s.substitute part).mgr.subst = some { failed := part, entry := e, former := s.entryPart e, stage := 0, began := s.now } := by
  unfold State.substitute
  rw [hspare]
  dsimp only
  rw [if_neg (by simp [hnone, hrack, hown])]
  exact congrArg MgrSt.subst (State.onlyIn_sendMsg _ _ _ _ _ .mgr (by decide))

end Substitution

/-! RELAY_STATUS at the rack manager (R259, R253), in its four parts: the record, the needs, what the part says of itself, the substitution. -/

section Status

/-- The manager holds a part's record, with the KIND of the plan it sent last. -/
def State.statusHeld (s : State) (src state result need shard : Nat) : State :=
  let kind := ((SMap.find? s.wgt.status src).map (·.kind)).getD 0
  s.onWgt fun w => { w with status := SMap.put w.status src ⟨state, result, need, shard, kind⟩ }

/-- Needed chunks are planned for, around a peer that does not answer. -/
def State.needsPlanned (s : State) (src state need peer : Nat) : State :=
  let s := if need ≠ 0 && state = 0 then s.planRelay (if need = 2 then 2 else 3) [src] else s
  if peer ≠ 0xFFFF then s.planAround peer true else s

/-- The same, a part that needs a REPAIR being withdrawn before. -/
def State.needsMet (s : State) (src state need peer : Nat) : State :=
  (if need = 1 then s.setWithdrawn src true else s).needsPlanned src state need peer

/-- A part that says so is withdrawn, admitted or substituted. -/
def State.selfHeard (s : State) (src self : Nat) : State :=
  let s := if self = 1 || self = 3 then s.setWithdrawn src true else if self = 2 && !s.mgr.expelled.contains src then s.setWithdrawn src false else s
  if self = 3 then s.substitute src else s

/-- A substitution that waits for the weights of its spare goes on. -/
def State.spareLoaded (s : State) (src state : Nat) : State :=
  match s.mgr.subst with
  | some b => if b.stage = 2 && b.failed = src && state = 4 then s.onMgr fun m => { m with subst := some { b with stage := 3 } } else s
  | none => s

/-- A spare whose weights are complete goes on; a part whose repair is complete is admitted. -/
def State.weightsComplete (s : State) (src state kind need : Nat) : State :=
  let s := s.spareLoaded src state
  if state = 4 && kind = 3 && need = 0 && s.mgr.subst.isNone then s.setWithdrawn src false else s

variable {s : State} {src i : Nat}

theorem State.statusIn_eq (state result need shard peer self : Nat) (hentry : s.entryOf src = some i) (hrack : s.isRack = true)
    (hown : s.flag F.PRT_DOM_DATA_RACK i = true) :
    s.statusIn src state result need shard peer self =
      ((((s.statusHeld src state result need shard).needsMet src state need peer).selfHeard src self).weightsComplete src state
        (((SMap.find? s.wgt.status src).map (·.kind)).getD 0) need).endSessions := by
  unfold State.statusIn
  rw [hentry]
  dsimp only
  rw [if_neg (by simp [hrack, hown])]
  rfl

/-- A part outside the domain, or a report to a part that is no rack manager, is nothing. -/
theorem State.statusIn_foreign (state result need shard peer self : Nat) (h : s.entryOf src = none ∨ s.isRack = false) :
    s.statusIn src state result need shard peer self = s := by
  unfold State.statusIn
  split
  · rfl
  · next i hentry =>
    have hrack : s.isRack = false := h.resolve_left (by simp [hentry])
    exact if_pos (by simp [hrack])

theorem State.manages_statusHeld (s : State) (src state result need shard : Nat) : s.manages (s.statusHeld src state result need shard) := by
  unfold State.statusHeld
  exact State.relays.manages (s.relays_onWgt rfl)

theorem State.manages_needsPlanned (s : State) (src state need peer : Nat) : s.manages (s.needsPlanned src state need peer) := by
  unfold State.needsPlanned
  extract_lets planned
  have hplanned : s.manages planned := by
    unfold planned
    split
    · exact s.manages_planRelay ..
    · exact .refl s
  split
  · exact hplanned.trans (planned.manages_planAround ..)
  · exact hplanned

theorem State.manages_needsMet (s : State) (src state need peer : Nat) : s.manages (s.needsMet src state need peer) := by
  refine State.manages.trans ?_ (State.manages_needsPlanned ..)
  split
  · exact s.manages_withdraw src
  · exact .refl s

/-- A part that needs a REPAIR is withdrawn. -/
theorem State.needsMet_out (state peer : Nat) (hentry : s.entryOf src = some i) (hrack : s.isRack = true) :
    (s.needsMet src state 1 peer).flag F.PRT_DOM_DATA_WITHDRAWN i = true := by
  unfold State.needsMet
  rw [if_pos rfl]
  exact (State.manages_needsPlanned _ src state 1 peer).out i (State.withdraw_out hentry hrack)

/-- A part that says nothing of itself changes nothing more. -/
theorem State.selfHeard_silent (s : State) (src : Nat) : s.selfHeard src 0 = s := rfl

theorem State.selfHeard_withdraw (s : State) (src : Nat) : s.selfHeard src 1 = s.setWithdrawn src true := by
  simp [State.selfHeard]

/-- A failing part is withdrawn, then substituted. -/
theorem State.selfHeard_failing (s : State) (src : Nat) : s.selfHeard src 3 = (s.setWithdrawn src true).substitute src := by
  simp [State.selfHeard]

/-- A part that does not ask to be admitted stays withdrawn. -/
theorem State.selfHeard_out {self : Nat} (hself : self ≠ 2) (hout : s.flag F.PRT_DOM_DATA_WITHDRAWN i = true) :
    (s.selfHeard src self).flag F.PRT_DOM_DATA_WITHDRAWN i = true := by
  unfold State.selfHeard
  extract_lets heard
  have hheard : s.manages heard := by
    unfold heard
    split
    · exact s.manages_withdraw src
    · rw [if_neg (by simp [hself])]
      exact .refl s
  split
  · exact (State.flag_of_fld (State.fld_of_fields (heard.onlyIn_substitute src .fields (by decide)) _ i)).trans (hheard.out i hout)
  · exact hheard.out i hout

/-- A part that says that it is to be withdrawn, or that it fails, is withdrawn. -/
theorem State.selfHeard_withdraws {self : Nat} (hself : self = 1 ∨ self = 3) (hentry : s.entryOf src = some i) (hrack : s.isRack = true) :
    (s.selfHeard src self).flag F.PRT_DOM_DATA_WITHDRAWN i = true := by
  have hout := State.withdraw_out hentry hrack
  rcases hself with rfl | rfl
  · rw [State.selfHeard_withdraw]
    exact hout
  · rw [State.selfHeard_failing]
    exact (State.flag_of_fld (State.fld_of_fields (State.onlyIn_substitute _ src .fields (by decide)) _ i)).trans hout

/-- A failing part is substituted where a spare is idle. -/
theorem State.selfHeard_substitutes {e : Nat} (hspare : s.spareEntry = some e) (hnone : s.mgr.subst = none) (hrack : s.isRack = true) (hown : src ≠ s.partNum) :
    (s.selfHeard src 3).mgr.subst = some { failed := src, entry := e, former := s.entryPart e, stage := 0, began := s.now } := by
  have hout := s.manages_withdraw src
  have hdomain := hout.sameDomain
  have hbegins := State.substitute_begins (hdomain.spareEntry.trans hspare) (hout.subst.trans hnone) (hdomain.isRack.trans hrack)
    (fun h => hown (h.trans hdomain.partNum))
  rw [hdomain.entryPart, hout.parts .now (by decide)] at hbegins
  rw [State.selfHeard_failing]
  exact hbegins

/-- Short of PROGRAMMED, or with a substitution just begun, nothing is complete. -/
theorem State.weightsComplete_stands {state : Nat} (kind need : Nat) (h : state ≠ 4 ∨ ∃ b, s.mgr.subst = some b ∧ b.stage = 0) :
    s.weightsComplete src state kind need = s := by
  have hloaded : s.spareLoaded src state = s := by
    unfold State.spareLoaded
    split
    · next b hb =>
      refine if_neg ?_
      rcases h with hstate | ⟨b', hb', hstage⟩
      · simp [hstate]
      · obtain rfl : b' = b := Option.some.inj (hb'.symm.trans hb)
        simp [hstage]
    · rfl
  unfold State.weightsComplete
  rw [hloaded]
  refine if_neg ?_
  rcases h with hstate | ⟨b, hb, -⟩
  · simp [hstate]
  · simp [hb]

/-- While a part's session is under way no session ends. -/
theorem State.endSessions_under_way {p : Nat} {r : PartStatus} (h : (p, r) ∈ s.wgt.status) (hlo : 1 ≤ r.state) (hhi : r.state ≤ 3) : s.endSessions = s := by
  have hany : (s.wgt.status.any fun e => decide (1 ≤ e.2.state) && decide (e.2.state ≤ 3)) = true :=
    List.any_eq_true.2 ⟨(p, r), h, by simp [hlo, hhi]⟩
  unfold State.endSessions
  exact if_pos (by rw [hany]; simp)

/-- A session under way that needs nothing is recorded, and that is all. -/
theorem State.statusIn_under_way {state : Nat} (result shard : Nat) (hentry : s.entryOf src = some i) (hrack : s.isRack = true)
    (hown : s.flag F.PRT_DOM_DATA_RACK i = true) (hlo : 1 ≤ state) (hhi : state ≤ 3) :
    s.statusIn src state result 0 shard 0xFFFF 0 = s.statusHeld src state result 0 shard := by
  rw [State.statusIn_eq state result 0 shard 0xFFFF 0 hentry hrack hown]
  have hmet : (s.statusHeld src state result 0 shard).needsMet src state 0 0xFFFF = s.statusHeld src state result 0 shard := rfl
  have hlisted : (src, _) ∈ (s.statusHeld src state result 0 shard).wgt.status := SMap.mem_of_find? (SMap.find?_put_same ..)
  rw [hmet, State.selfHeard_silent, State.weightsComplete_stands _ _ (.inl (by omega)), State.endSessions_under_way hlisted hlo hhi]

/-- A part that needs a repair, or says that it is to be withdrawn or fails, is withdrawn. -/
theorem State.statusIn_withdraws {state need self : Nat} (result shard peer : Nat) (hentry : s.entryOf src = some i) (hrack : s.isRack = true)
    (hown : s.flag F.PRT_DOM_DATA_RACK i = true) (hwhy : need = 1 ∨ self = 1 ∨ self = 3) (hself : self ≠ 2) (hstate : state ≠ 4) :
    (s.statusIn src state result need shard peer self).flag F.PRT_DOM_DATA_WITHDRAWN i = true := by
  have hheld := s.manages_statusHeld src state result need shard
  rw [State.statusIn_eq state result need shard peer self hentry hrack hown]
  refine (State.relays_endSessions _).manages.out i ?_
  rw [State.weightsComplete_stands _ _ (.inl hstate)]
  rcases hwhy with rfl | hwhy
  · exact State.selfHeard_out hself (State.needsMet_out _ _ (hheld.sameDomain.entryOf src ▸ hentry) (hheld.sameDomain.isRack ▸ hrack))
  · have hmet := (hheld.trans (State.manages_needsMet _ src state need peer)).sameDomain
    exact State.selfHeard_withdraws hwhy ((hmet.entryOf src).trans hentry) (hmet.isRack.trans hrack)

/-- A failing part is substituted where a spare is idle and no substitution is under way. -/
theorem State.statusIn_substitutes {e : Nat} (state result need shard peer : Nat) (hentry : s.entryOf src = some i) (hrack : s.isRack = true)
    (hrow : s.flag F.PRT_DOM_DATA_RACK i = true) (hown : src ≠ s.partNum) (hnone : s.mgr.subst = none) (hspare : s.spareEntry = some e) :
    (s.statusIn src state result need shard peer 3).mgr.subst = some { failed := src, entry := e, former := s.entryPart e, stage := 0, began := s.now } := by
  have hmet := (s.manages_statusHeld src state result need shard).trans (State.manages_needsMet _ src state need peer)
  have hdomain := hmet.sameDomain
  have hbegins := State.selfHeard_substitutes (hdomain.spareEntry.trans hspare) (hmet.subst.trans hnone) (hdomain.isRack.trans hrack)
    (fun h => hown (h.trans hdomain.partNum))
  rw [hdomain.entryPart, hmet.parts .now (by decide)] at hbegins
  rw [State.statusIn_eq state result need shard peer 3 hentry hrack hrow, (State.relays_endSessions _).manages.subst,
    State.weightsComplete_stands _ _ (.inr ⟨_, hbegins, rfl⟩)]
  exact hbegins

end Status

/-! The messages of a substitution arrive (R392): the interrupt they raise leaves the domain and all that the manager keeps. -/

section Arrival
variable (s : State)

theorem State.sameDomain_msgIn : s.sameDomain s.msgIn := (s.onlyFields_raiseBoth irqFabric).sameDomain (by decide)

theorem State.msgIn_wgt : s.msgIn.wgt = s.wgt := s.onlyIn_raiseBoth irqFabric .wgt (by decide)

theorem State.msgIn_now : s.msgIn.now = s.now := s.onlyIn_raiseBoth irqFabric .now (by decide)

theorem State.statusHeld_msgIn (src state result need shard : Nat) : s.msgIn.statusHeld src state result need shard =
    { s.msgIn with wgt := { s.wgt with status := SMap.put s.wgt.status src
                                        ⟨state, result, need, shard, ((SMap.find? s.wgt.status src).map (·.kind)).getD 0⟩ } } := by
  simp only [State.statusHeld, State.onWgt, s.msgIn_wgt]

theorem State.exec_relayStatus (src state result need shard peer self : Nat) :
    exec (.relayStatus src state result need shard peer self) s = .next (s.msgIn.statusIn src state result need shard peer self) := rfl

end Arrival

/-- Settles O56: a message of the rack manager is taken for what it orders, the manager's substitution advances on the answer it waits for
or on silence, and RELAY_STATUS is taken part by part. -/
theorem failedPartsAreReplaced : Obligations.FailedPartsAreReplaced := by
  intro s src
  have hdomain := s.sameDomain_msgIn
  refine ⟨fun epoch haccepts => ?cut, fun b hb => ⟨fun hstage hfailed => ?cutAck, fun hother => ?cutAckOther, fun hstage hdue => ?silence,
    fun hearly => ?silenceShort, fun hstage hfailed => ?assumeAck, fun hother => ?assumeAckOther⟩, fun hnone => ?noSubstitution,
    fun epoch number haccepts => ?assume, fun state result need shard peer self i hentry hrack hrow => ?status,
    fun state result need shard peer self hforeign => ?foreign⟩
  case cut =>
    obtain ⟨hnum, hmgr, hlink, hcores, hframe⟩ := (s.heard epoch).cutIn_effect src
    have hheard := s.onlyIn_heard epoch
    have hcut : exec (.cut src epoch) s = .next ((s.heard epoch).cutIn src) := congrArg _ (haccepts.fromMgr _)
    refine ⟨_, hcut, hnum, ?_, hlink.trans (s.link_heard_sendMsg epoch ..), hcores.trans (hheard .cores (by decide)),
      hframe.trans (s.heard_frame epoch)⟩
    rw [hmgr, hheard .mgr (by decide)]
  case cutAck => exact congrArg _ ((State.cutAck_taken (s.mgr_msgIn ▸ hb) hstage hfailed).trans (s.assumeNext_msgIn b))
  case cutAckOther =>
    refine congrArg _ (State.cutAck_other fun b' hb' => ?_)
    obtain rfl : b = b' := Option.some.inj (hb.symm.trans (s.mgr_msgIn ▸ hb'))
    exact hother
  case silence => exact congrArg _ (State.cutTimeout_due hb hstage hdue)
  case silenceShort =>
    refine congrArg _ (State.cutTimeout_early fun b' hb' => ?_)
    obtain rfl : b = b' := Option.some.inj (hb.symm.trans hb')
    exact hearly
  case assumeAck => exact ⟨_, rfl, State.assumeAck_taken (s.mgr_msgIn ▸ hb) hstage hfailed⟩
  case assumeAckOther =>
    refine congrArg _ (State.assumeAck_other fun b' hb' => ?_)
    obtain rfl : b = b' := Option.some.inj (hb.symm.trans (s.mgr_msgIn ▸ hb'))
    exact hother
  case noSubstitution =>
    have hnone' : s.msgIn.mgr.subst = none := s.mgr_msgIn ▸ hnone
    exact ⟨congrArg _ (State.cutAck_other (by simp [hnone'])), congrArg _ (State.cutTimeout_early (by simp [hnone])),
      congrArg _ (State.assumeAck_other (by simp [hnone']))⟩
  case assume =>
    obtain ⟨hnum, hleft⟩ := (s.heard epoch).assumeIn_effect src number
    have hassume : exec (.assume src epoch number) s = .next ((s.heard epoch).assumeIn src number) := congrArg _ (haccepts.fromMgr _)
    exact ⟨_, hassume, hnum, s.link_heard_assumeIn epoch src number,
      State.onlyIn_then (State.onlyIn_mono (s.onlyIn_heard epoch) (by decide)) hleft (by decide)⟩
  case status =>
    have hentry' := (hdomain.entryOf src).trans hentry
    have hrack' := hdomain.isRack.trans hrack
    have hrow' : s.msgIn.flag F.PRT_DOM_DATA_RACK i = true := (hdomain.flag (by simp [domainFlds]) i).trans hrow
    refine ⟨fun hlo hhi hneed hpeer hself => ?underWay, fun hwhy hself hstate => ⟨_, rfl, State.statusIn_withdraws result shard peer hentry' hrack' hrow' hwhy hself hstate⟩,
      fun e hself hown hnone hspare => ?substituted⟩
    case underWay =>
      subst hneed hpeer hself
      rw [s.exec_relayStatus, State.statusIn_under_way result shard hentry' hrack' hrow' hlo hhi, s.statusHeld_msgIn]
    case substituted =>
      subst hself
      have hbegins := State.statusIn_substitutes state result need shard peer hentry' hrack' hrow' (hdomain.partNum ▸ hown) (s.mgr_msgIn ▸ hnone) (hdomain.spareEntry.trans hspare)
      rw [hdomain.entryPart, s.msgIn_now] at hbegins
      exact ⟨_, rfl, hbegins⟩
  case foreign =>
    have hforeign' : s.msgIn.entryOf src = none ∨ s.msgIn.isRack = false := by rwa [hdomain.entryOf src, hdomain.isRack]
    rw [s.exec_relayStatus, State.statusIn_foreign state result need shard peer self hforeign']

end Sys2Proof.Machine

/-!
PROOFS of the statement on configuring serving (08_serving R273, R285, R292, R293, R328).
-/

namespace Sys2Proof.Machine

/-! Little-endian bytes read back (R21). -/

@[simp] theorem toLe_length (n v : Nat) : (toLe n v).length = n := by
  induction n generalizing v with
  | zero => rfl
  | succ n ih => simp [toLe, ih]

theorem leNat_toLe (n v : Nat) : leNat (toLe n v) = v % 256 ^ n := by
  induction n generalizing v with
  | zero => simp [toLe, leNat, Nat.mod_one]
  | succ n ih => simp [toLe, leNat, ih, Nat.pow_succ', Nat.mod_mul]

/-- The first field of a record. -/
theorem fieldAt_toLe_append (n v : Nat) (rest : Bytes) : fieldAt (toLe n v ++ rest) 0 n = v % 256 ^ n := by
  have hslice : slice (toLe n v ++ rest) 0 n = toLe n v := List.take_left' (toLe_length n v)
  rw [fieldAt, hslice, leNat_toLe]

/-! The serving of one pitch. -/

theorem State.srv_of_serve {s t : State} (h : t.serve = s.serve) (p : Nat) : t.srv p = s.srv p := by rw [State.srv, h]; rfl

/-- Where the serving component is as it was, no pitch's serving differs. -/
theorem State.onlyPitch_of_serve {s t : State} (h : t.serve = s.serve) (p : Nat) : s.onlyPitch t p := fun r _ => State.srv_of_serve h r

theorem State.onlyPitch_trans {s t u : State} {p : Nat} (h : s.onlyPitch t p) (h' : t.onlyPitch u p) : s.onlyPitch u p :=
  fun r hr => (h' r hr).trans (h r hr)

theorem State.onlyPitch_onSrv (s : State) (p : Nat) (g : ServeSt → ServeSt) : s.onlyPitch (s.onSrv p g) p :=
  fun _ hr => State.srv_setSrv_ne s _ hr

theorem State.onlyIn_onSrv (s : State) (p : Nat) (g : ServeSt → ServeSt) : s.onlyIn (s.onSrv p g) [.serve] :=
  State.onlyIn_setSrv (State.onlyIn_refl s _) (by decide)

/-! Management commands of a pitch, taken and answered (R313, R314). -/

/-- A command that meets no common result acts on the state in which it has been taken. -/
theorem State.heeds.within {s : State} {c : Mgmt} {r : CmdRule} (h : s.heeds c r) (target : Nat) (act : State → State) :
    Machine.within c.ok (s.mgmt c r target act) = .next (act (s.take c.fn)) :=
  (within_next h.ok).trans (congrArg _ (h.mgmt target act))

/-- A command that does nothing beside its answer touches its window and the audit log. -/
theorem State.answered_alone (s : State) (c : Mgmt) (code result target : Nat) (detail : Bytes) :
    s.responded ((s.take c.fn).answer c code result target detail) c code result ∧
      s.onlyIn ((s.take c.fn).answer c code result target detail) [.host, .sec] :=
  ⟨(s.sameRing_take c.fn).answer .., State.onlyIn_then (State.onlyIn_mono (s.onlyIn_take c.fn) (by decide))
    ((s.take c.fn).onlyIn_answer c code result target detail) (by decide)⟩

/-- A command is answered with 0 or another result, and beside its answer one pitch's serving becomes `x`. -/
structure State.answersWith (s t : State) (c : Mgmt) (p : Nat) (x : ServeSt) (code result : Nat) : Prop where
  answered : s.responded t c code result
  srv : t.srv p = x
  others : s.onlyPitch t p
  parts : s.onlyIn t [.host, .sec, .serve]

/-- A command that changes its pitch's serving and is answered does nothing else. -/
theorem State.answersWith_onSrv (s : State) (c : Mgmt) (p : Nat) (g : ServeSt → ServeSt) (code result target : Nat) (detail : Bytes) :
    s.answersWith (((s.take c.fn).onSrv p g).answer c code result target detail) c p (g (s.srv p)) code result := by
  have hanswer := ((s.take c.fn).onSrv p g).onlyIn_answer c code result target detail
  have hserve := hanswer .serve (by decide)
  have hring : s.sameRing ((s.take c.fn).onSrv p g) c.fn := ⟨(s.sameRing_take c.fn).rsp, (s.sameRing_take c.fn).tail, (s.sameRing_take c.fn).discard⟩
  refine ⟨hring.answer .., ?_, ?_, ?_⟩
  · rw [State.srv_of_serve hserve, State.srv_onSrv_same]
    rfl
  · exact State.onlyPitch_trans ((s.take c.fn).onlyPitch_onSrv p g) (State.onlyPitch_of_serve hserve p)
  · exact State.onlyIn_then (State.onlyIn_then (State.onlyIn_mono (s.onlyIn_take c.fn) (by decide)) (State.onlyIn_onSrv _ p g) (by decide))
      hanswer (by decide)

/-! The serving commands, taken. -/

section
variable {s : State} {c : Mgmt}

/-- A setting is held for the boundary with the time it came (R273, R292). -/
def ServeSt.holding (x : ServeSt) (now : Nat) (ch : ServeChange) : ServeSt := { x with changes := x.changes ++ [(now, ch)] }

theorem State.serveChange_answered (s : State) (c : Mgmt) (ch : ServeChange) (code target : Nat) :
    s.answersWith (((s.take c.fn).serveChange c.on ch).answer c code 0 target) c c.on ((s.srv c.on).holding s.now ch) code 0 :=
  s.answersWith_onSrv c c.on (fun x => x.holding s.now ch) code 0 target []

theorem State.setRationCmd_holds {customer mask : Nat} {r : Ration} (c : Mgmt) (hcust : customer ≤ 4095) (hok : r.ok mask = true) :
    s.setRationCmd c customer mask r = (s.serveChange c.on (.ration customer mask r)).answer c 0x41 0 customer := by
  simp [State.setRationCmd, Nat.not_lt.2 hcust, hok]

theorem State.setRationCmd_refused {customer mask : Nat} {r : Ration} (c : Mgmt) (h : 4095 < customer ∨ r.ok mask = false) :
    s.setRationCmd c customer mask r = s.answer c 0x41 1 customer :=
  if_pos (by simpa using h)

theorem servingChange_eq_some {param v1 v2 : Nat} {parts : List Nat} {ch : ServeChange}
    (h : (param = 1 ∧ 4 ≤ v1 ∧ v1 ≤ 4096 ∧ ch = .age v1) ∨ (param = 2 ∧ 16 ≤ v1 ∧ v1 ≤ 65535 ∧ ch = .partner v1) ∨ (param = 3 ∧ ch = .capacity v1 v2) ∨
      (param = 4 ∧ 1 ≤ parts.length ∧ parts.length ≤ 1024 ∧ ch = .pipeline (parts.map (· % 65536)))) :
    servingChange param v1 v2 parts = some ch := by
  rcases h with ⟨rfl, hlo, hhi, rfl⟩ | ⟨rfl, hlo, hhi, rfl⟩ | ⟨rfl, rfl⟩ | ⟨rfl, hlo, hhi, rfl⟩
  · simp [servingChange, hlo, hhi]
  · simp [servingChange, hlo, hhi]
  · rfl
  · simp only [servingChange, hlo, hhi]
    rfl

theorem State.setServingCmd_of_some {param v1 v2 : Nat} {parts : List Nat} {ch : ServeChange} (h : servingChange param v1 v2 parts = some ch) :
    s.setServingCmd c param v1 v2 parts = (s.serveChange c.on ch).answer c 0x44 0 param := by rw [State.setServingCmd, h]

theorem State.setServingCmd_of_none {param v1 v2 : Nat} {parts : List Nat} (h : servingChange param v1 v2 parts = none) :
    s.setServingCmd c param v1 v2 parts = s.answer c 0x44 1 param := by rw [State.setServingCmd, h]

/-- The ration of a customer is answered in 56 bytes, its number first (Table 10-3). -/
theorem State.readRationCmd_answers {customer : Nat} (c : Mgmt) (h : customer ≤ 4095) :
    ∃ d : Bytes, s.readRationCmd c customer = s.answer c 0x42 0 customer d ∧ d.length = 56 ∧ fieldAt d 0 2 = customer := by
  refine ⟨_, if_neg (Nat.not_lt.2 h), by simp, ?_⟩
  simp only [List.append_assoc]
  rw [fieldAt_toLe_append]
  exact Nat.mod_eq_of_lt (by omega)

theorem State.readRationCmd_refused {customer : Nat} (c : Mgmt) (h : 4095 < customer) :
    s.readRationCmd c customer = s.answer c 0x42 1 customer := if_pos h

/-- The serving record has 128 bytes, and begins with the number of open requests (Table 8-10). -/
theorem State.servingRecord_layout (s : State) (p : Nat) :
    (s.servingRecord p).length = 128 ∧ fieldAt (s.servingRecord p) 0 4 = (s.srv p).reqs.length % 2 ^ 32 := by
  unfold State.servingRecord
  extract_lets x n k
  refine ⟨by simp [n], ?_⟩
  simp only [n, List.append_assoc]
  rw [fieldAt_toLe_append, List.filter_true]
  rfl

/-- An answer leaves what has been written to host memory. -/
theorem State.output_answer (s : State) (c : Mgmt) (code result target : Nat) (detail : Bytes) :
    ((s.answer c code result target detail).win c.fn).output = (s.win c.fn).output := by
  have hwin : ∀ r, (s.audit c.fn code r result target).win c.fn = s.win c.fn := fun _ => rfl
  cases hd : (s.win c.fn).discard <;> simp [State.answer, State.respond, hwin, hd]

/-- READ_SERVING writes one record to host memory, and answers (R293). -/
theorem State.hostOutput_answered (s : State) (c : Mgmt) (bs : Bytes) (code : Nat) :
    let t := ((s.take c.fn).hostOutput c.fn bs).answer c code 0 0
    s.responded t c code 0 ∧ (t.win c.fn).output = (s.win c.fn).output ++ [bs] ∧ s.onlyIn t [.host, .sec] := by
  intro t
  have hring : s.sameRing ((s.take c.fn).hostOutput c.fn bs) c.fn := by
    constructor <;> simp [State.hostOutput, State.take]
  have hwritten : (((s.take c.fn).hostOutput c.fn bs).win c.fn).output = (s.win c.fn).output ++ [bs] := by
    simp [State.hostOutput, State.take]
  have hin : s.onlyIn ((s.take c.fn).hostOutput c.fn bs) [.host, .sec] :=
    State.onlyIn_setWin (State.onlyIn_mono (s.onlyIn_take c.fn) (by decide)) (by decide)
  exact ⟨hring.answer .., (State.output_answer ..).trans hwritten, State.onlyIn_then hin (State.onlyIn_answer _ c code 0 0 []) (by decide)⟩

end

/-- Settles O41: a command that passes changes its pitch's list of held settings alone, and a read changes nothing beside its window. -/
theorem servingIsConfigured : Obligations.ServingIsConfigured := by
  unfold Obligations.ServingIsConfigured
  refine fun s c => ⟨fun customer mask r hheeds => ⟨fun hcust hok => ?_, fun hbad => ?_⟩, fun customer hheeds => ⟨fun hcust => ?_, fun hcust => ?_⟩,
    fun param v1 v2 parts hheeds => ⟨fun ch hch => ?_, fun hnone => ?_⟩, fun hheeds => ?_, fun hheeds => ?_⟩
  · obtain ⟨hanswer, hsrv, hpitch, hparts⟩ := s.serveChange_answered c (.ration customer mask r) 0x41 customer
    rw [exec_setRation, hheeds.within, State.setRationCmd_holds c hcust hok]
    exact ⟨_, rfl, hanswer, hpitch, hsrv, hparts⟩
  · rw [exec_setRation, hheeds.within, State.setRationCmd_refused c hbad]
    exact ⟨_, rfl, s.answered_alone c 0x41 1 customer []⟩
  · obtain ⟨d, hdef, hlen, hfirst⟩ := (s.take c.fn).readRationCmd_answers c hcust
    obtain ⟨hanswer, hparts⟩ := s.answered_alone c 0x42 0 customer d
    rw [exec_readRation, hheeds.within, hdef]
    exact ⟨_, rfl, hanswer, hparts, fun hd => ⟨_, (s.sameRing_take c.fn).detail hd .., hlen, hfirst⟩⟩
  · rw [exec_readRation, hheeds.within, State.readRationCmd_refused c hcust]
    exact ⟨_, rfl, s.answered_alone c 0x42 1 customer []⟩
  · obtain ⟨hanswer, hsrv, hpitch, hparts⟩ := s.serveChange_answered c ch 0x44 param
    rw [exec_setServing, hheeds.within, State.setServingCmd_of_some (servingChange_eq_some hch)]
    exact ⟨_, rfl, hanswer, hpitch, hsrv, hparts⟩
  · rw [exec_setServing, hheeds.within, State.setServingCmd_of_none hnone]
    exact ⟨_, rfl, s.answered_alone c 0x44 1 param []⟩
  · obtain ⟨hanswer, hout, hparts⟩ := s.hostOutput_answered c ((s.take c.fn).servingRecord c.on) 0x45
    obtain ⟨hlen, hfirst⟩ := (s.take c.fn).servingRecord_layout c.on
    rw [exec_readServing, hheeds.within]
    exact ⟨_, _, rfl, hanswer, hout, hlen, hfirst, hparts⟩
  · obtain ⟨hanswer, hsrv, hpitch, hparts⟩ := s.serveChange_answered c .clear 0x46 0
    rw [exec_clearServingCounters, hheeds.within]
    exact ⟨_, rfl, hanswer, by rw [hsrv]; rfl, by rw [hsrv]; rfl, hpitch, hparts⟩

end Sys2Proof.Machine

/-!
PROOFS of the statement on cancels, bindings and waymarks (08_serving R265, R267, R268, R276, R283, R285, R288).
-/

namespace Sys2Proof.Machine

/-! Contexts and their pages: making and filling them writes the pitch's memory alone (R217, R281). -/

section Contexts
variable {s t : State} {p : Nat}

theorem State.onlyIn_pitchWrite (s : State) (p a : Nat) (bs : Bytes) : s.onlyIn (s.pitchWrite p a bs) [.dram] :=
  fun q hq => by cases q <;> first | rfl | exact absurd (by decide) hq

theorem State.onlyIn_setPageCount (s : State) (p page n : Nat) : s.onlyIn (s.setPageCount p page n) [.dram] := s.onlyIn_pitchWrite _ _ _

theorem State.onlyIn_takeRun {n g : Nat} (h : s.takeRun p n = some (g, t)) : s.onlyIn t [.dram] := by
  obtain ⟨g, -, heq⟩ := Option.map_eq_some_iff.1 h
  cases heq
  exact State.onlyIn_foldl (fun t i => t.onlyIn_setPageCount p (g + i) 1) _ s

theorem State.onlyIn_ctxStream {dir n : Nat} {src : Option Nat} {r : StreamRec} (h : s.ctxStream p dir n src r = some t) : s.onlyIn t [.dram] := by
  unfold State.ctxStream at h
  split at h
  · cases h
  · next l u htake =>
    extract_lets listed filled at h
    have hfilled : s.onlyIn filled [.dram] :=
      State.onlyIn_trans (State.onlyIn_trans (State.onlyIn_takeRun htake) (u.onlyIn_pitchWrite _ _ _))
        (State.onlyIn_foldl (fun t i => t.onlyIn_pitchWrite _ _ _) _ _)
    clear_value filled
    split at h
    · cases h
      exact State.onlyIn_trans hfilled (filled.onlyIn_pitchWrite _ _ _)
    · split at h
      · cases h
        exact State.onlyIn_trans hfilled (filled.onlyIn_pitchWrite _ _ _)
      · split at h
        · cases h
        · next hfirst =>
          split at h
          · cases h
          · next hsecond =>
            cases h
            exact State.onlyIn_trans (State.onlyIn_trans (State.onlyIn_trans hfilled (State.onlyIn_takeRun hfirst)) (State.onlyIn_takeRun hsecond))
              (State.onlyIn_pitchWrite _ _ _ _)

theorem State.onlyIn_ctxStreams {s t : State} {p dir n : Nat} {src : Option Nat} {rs : List StreamRec} (h : State.ctxStreams rs s p dir n src = some t) :
    s.onlyIn t [.dram] := by
  induction rs generalizing s with
  | nil =>
    cases h
    exact State.onlyIn_refl _ _
  | cons r rs ih =>
    unfold State.ctxStreams at h
    split at h
    · next hstream => exact State.onlyIn_trans (State.onlyIn_ctxStream hstream) (ih h)
    · cases h

theorem State.onlyIn_allocEntries {ctx : Nat} (es : List (Nat × Nat)) (s : State) : s.onlyIn (State.allocEntries es s p ctx).2 [.dram] := by
  induction es generalizing s with
  | nil => exact State.onlyIn_refl s _
  | cons e es ih =>
    unfold State.allocEntries
    split
    · split
      · next htake => exact State.onlyIn_trans (State.onlyIn_trans (State.onlyIn_takeRun htake) (State.onlyIn_pitchWrite _ _ _ _)) (ih _)
      · exact State.onlyIn_refl s _
    · exact ih s

end Contexts

/-! What the choice and the placing of bindings touch: one pitch's serving, its memory, what the firmware keeps and sends. -/

/-- Nothing differs but one pitch's serving, the memory, the counters, and what the firmware keeps and sends. -/
structure State.servesPitch (s t : State) (p : Nat) : Prop where
  parts : s.onlyIn t [.fields, .dram, .mgr, .link, .serve]
  others : s.onlyPitch t p

section Placing
variable {s t u : State} {p : Nat}

theorem State.servesPitch.refl (s : State) (p : Nat) : s.servesPitch s p := ⟨State.onlyIn_refl s _, fun _ _ => rfl⟩

theorem State.servesPitch.trans (h : s.servesPitch t p) (h' : t.servesPitch u p) : s.servesPitch u p :=
  ⟨State.onlyIn_trans h.parts h'.parts, State.onlyPitch_trans h.others h'.others⟩

/-- A change that leaves the serving component. -/
theorem State.onlyIn.servesPitch {ps : List Part} (h : s.onlyIn t ps) (hserve : Part.serve ∉ ps)
    (hs : ∀ q ∈ ps, q ∈ [Part.fields, .dram, .mgr, .link, .serve]) (p : Nat) : s.servesPitch t p :=
  ⟨State.onlyIn_mono h hs, State.onlyPitch_of_serve (h .serve hserve) p⟩

theorem State.servesPitch_onSrv (s : State) (p : Nat) (g : ServeSt → ServeSt) : s.servesPitch (s.onSrv p g) p :=
  ⟨State.onlyIn_mono (s.onlyIn_onSrv p g) (by decide), s.onlyPitch_onSrv p g⟩

theorem State.servesPitch_sendMsg (s : State) (p part type : Nat) (fields : List Nat) : s.servesPitch (s.sendMsg part type fields) p :=
  (s.onlyIn_sendMsg part type fields []).servesPitch (by decide) (by decide) p

theorem State.servesPitch_withholdNotice (s : State) (p frame reason : Nat) (slots : List Nat) : s.servesPitch (s.withholdNotice frame reason slots) p :=
  (s.onlyIn_withholdNotice frame reason slots).servesPitch (by decide) (by decide) p

theorem State.servesPitch_makeCtx {ctx n len : Nat} {src : Option (Nat × Nat)} (h : s.makeCtx p ctx n len src = some t) : s.servesPitch t p := by
  unfold State.makeCtx at h
  split at h
  · cases h
  · next d u htake =>
    extract_lets dir sel shared counted sized named at h
    have hnamed : s.onlyIn named [.dram] :=
      State.onlyIn_trans (State.onlyIn_trans (State.onlyIn_trans (State.onlyIn_trans (State.onlyIn_takeRun htake)
        (State.onlyIn_foldl (fun t g => t.onlyIn_setPageCount p g _) shared u)) (counted.onlyIn_pitchWrite _ _ _)) (State.onlyIn_pitchWrite _ _ _ _))
        (sized.onlyIn_pitchWrite _ _ _)
    clear_value named
    split at h
    · next v hstreams =>
      cases h
      have hv := State.onlyIn_trans hnamed (State.onlyIn_ctxStreams hstreams)
      exact (hv.servesPitch (by decide) (by decide) p).trans (v.servesPitch_onSrv p _)
    · cases h

theorem State.servesPitch_getD_makeCtx (s : State) (p ctx n len : Nat) (src : Option (Nat × Nat)) :
    s.servesPitch ((s.makeCtx p ctx n len src).getD s) p := by
  cases hmade : s.makeCtx p ctx n len src with
  | none => exact .refl s p
  | some t => exact State.servesPitch_makeCtx hmade

theorem State.servesPitch_allocFor (s : State) (p ctx first n : Nat) : s.servesPitch (s.allocFor p ctx first n).2 p :=
  (State.onlyIn_allocEntries _ s).servesPitch (by decide) (by decide) p

/-- A binding but for the mark that its page could not be allocated. -/
def Bind.unmarked (b : Bind) : Bind := { b with noPage := false }

/-- A binding is placed: at most it is marked as without a page (R281). -/
theorem State.placeBind_effect (s : State) (p : Nat) (b : Bind) :
    s.servesPitch (s.placeBind p b).1 p ∧ (s.placeBind p b).2.unmarked = b.unmarked := by
  unfold State.placeBind
  extract_lets n src made found placed missed
  have hmade : s.servesPitch made p := by
    unfold made
    split
    · exact .refl s p
    · exact s.servesPitch_getD_makeCtx ..
  clear_value made
  have hplaced : s.servesPitch placed.2 p := by
    unfold placed
    split
    · exact hmade.trans (made.servesPitch_allocFor ..)
    · exact hmade
  clear_value placed
  split
  · exact ⟨hplaced, rfl⟩
  · have hmissed : s.servesPitch missed p := hplaced.trans (placed.2.servesPitch_onSrv p _)
    exact ⟨hmissed.trans (missed.servesPitch_withholdNotice p _ 3 [b.slot]), rfl⟩

theorem State.placeBinds_concat (s : State) (p : Nat) (bs : List Bind) (b : Bind) :
    s.placeBinds p (bs ++ [b]) =
      (((s.placeBinds p bs).1.placeBind p b).1, (s.placeBinds p bs).2 ++ [((s.placeBinds p bs).1.placeBind p b).2]) := by
  simp only [State.placeBinds, List.foldl_append, List.foldl_cons, List.foldl_nil]

theorem State.placeBinds_effect (s : State) (p : Nat) (bs : List Bind) :
    s.servesPitch (s.placeBinds p bs).1 p ∧ (s.placeBinds p bs).2.map Bind.unmarked = bs.map Bind.unmarked := by
  induction bs using List.reverseRecOn with
  | nil => exact ⟨.refl s p, rfl⟩
  | append_singleton bs b ih =>
    obtain ⟨hbefore, hmarks⟩ := ih
    obtain ⟨hplaced, hmark⟩ := (s.placeBinds p bs).1.placeBind_effect p b
    rw [State.placeBinds_concat]
    exact ⟨hbefore.trans hplaced, by simp only [List.map_append, hmarks, List.map_cons, hmark, List.map_nil]⟩

/-- A notice becomes the bindings of the next frame (R267). -/
theorem State.takeNotice_effect (s : State) (p frame : Nat) (bs : List Bind) (wm : List (Nat × Nat)) :
    s.servesPitch (s.takeNotice p frame bs wm) p ∧ ((s.takeNotice p frame bs wm).srv p).nextFrame = some frame ∧
      ((s.takeNotice p frame bs wm).srv p).wmDue = wm ∧ ((s.takeNotice p frame bs wm).srv p).next.map Bind.unmarked = bs.map Bind.unmarked := by
  unfold State.takeNotice
  extract_lets placed
  obtain ⟨hplaced, hmarks⟩ := (s.onSrv p fun x => x.learnPrefix bs).placeBinds_effect p bs
  refine ⟨((s.servesPitch_onSrv p _).trans hplaced).trans (State.servesPitch_onSrv ..), ?_⟩
  rw [State.srv_onSrv_same]
  exact ⟨rfl, rfl, hmarks⟩

end Placing

/-! The choice of bindings (R276, R278): no slot and no request twice. -/

/-- What every turn of a selection keeps: no slot and no request is bound twice, and no binding is marked as without a page. -/
structure Sel.sound (x : Sel) : Prop where
  slots : (x.binds.map (·.slot)).Nodup
  tags : (x.binds.map (·.tag)).Nodup
  pages : ∀ b ∈ x.binds, b.noPage = false

section Choice
variable {s : State} {p : Nat} {x : Sel} {q : Req × Bool}

theorem Sel.sound.of_binds {y : Sel} (h : x.sound) (hbinds : y.binds = x.binds) : y.sound := by
  constructor <;> rw [hbinds]
  exacts [h.slots, h.tags, h.pages]

/-- One more binding, of a slot and a request not yet bound. -/
theorem Sel.sound.of_append {y : Sel} {b : Bind} (h : x.sound) (hbinds : y.binds = x.binds ++ [b]) (hslot : ∀ c ∈ x.binds, c.slot ≠ b.slot)
    (htag : ∀ c ∈ x.binds, c.tag ≠ b.tag) (hpage : b.noPage = false) : y.sound := by
  constructor <;> rw [hbinds]
  · simpa [List.nodup_append, h.slots] using hslot
  · simpa [List.nodup_append, h.tags] using htag
  · intro c hc
    rcases List.mem_append.1 hc with hc | hc
    · exact h.pages c hc
    · rw [List.mem_singleton.1 hc]
      exact hpage

/-- A binding tried is made, of its slot and its request, or not. -/
theorem State.tryBind_binds (s : State) (p : Nat) (x : Sel) (q : Req × Bool) (slot : SlotRec) (tokens : Nat) (gen : Bool) :
    (s.tryBind p x q slot tokens gen).binds = x.binds ∨
      ∃ b : Bind, b.slot = slot.slot ∧ b.tag = q.1.sub.tag ∧ b.noPage = false ∧ (s.tryBind p x q slot tokens gen).binds = x.binds ++ [b] := by
  unfold State.tryBind
  extract_lets r v pend pos copy need ctx past
  clear_value copy need ctx
  split
  · exact .inl rfl
  · split
    · exact .inl rfl
    · split
      · exact .inl rfl
      · split
        · exact .inl rfl
        · cases ctx with
          | none => exact .inl rfl
          | some c => exact .inr ⟨_, rfl, rfl, rfl, rfl⟩

theorem State.tryBind_sound (hx : x.sound) {slot : SlotRec} {rs : List SlotRec} (hfree : slot ∈ x.free rs) (hnew : x.has q.1 = false) (tokens : Nat)
    (gen : Bool) : (s.tryBind p x q slot tokens gen).sound := by
  rcases s.tryBind_binds p x q slot tokens gen with hsame | ⟨b, hslot, htag, hpage, hmore⟩
  · exact hx.of_binds hsame
  · have hunbound : ∀ c ∈ x.binds, c.slot ≠ slot.slot := by simpa [Sel.free] using (List.mem_filter.1 hfree).2
    have hother : ∀ c ∈ x.binds, c.tag ≠ q.1.sub.tag := by simpa [Sel.has] using hnew
    exact hx.of_append hmore (hslot ▸ hunbound) (htag ▸ hother) hpage

/-- A request not done with has not been bound. -/
theorem Sel.has_of_not_done {r : Req} (h : x.done r = false) : x.has r = false := (Bool.or_eq_false_iff.1 h).1

theorem State.bindGen_sound (hx : x.sound) (q : Req × Bool) : (s.bindGen p x q).sound := by
  unfold State.bindGen
  split
  · exact hx
  · next hopen =>
    have hfresh : s.mayBind p q.1 = true ∧ x.done q.1 = false := by simpa using hopen
    have hnew := Sel.has_of_not_done hfresh.2
    split
    · next slot rest hfree => exact State.tryBind_sound hx (hfree ▸ List.mem_cons_self) hnew 1 true
    · split
      · exact hx.of_binds rfl
      · exact hx

/-- The chunk slot chosen is a free one. -/
theorem State.chunkFor_free {r : Req} {slot : SlotRec} (h : s.chunkFor p x r = some slot) : slot ∈ x.free (s.chunkSlots p) := by
  refine List.foldlRecOn (motive := fun o => ∀ d, o = some d → d ∈ x.free (s.chunkSlots p)) (x.free (s.chunkSlots p)) _ (by simp)
    (fun o ho c hc d hd => ?_) slot h
  split at hd
  · exact ho d hd
  · split at hd
    · split at hd
      · cases hd
        exact hc
      · exact ho d hd
    · cases hd
      exact hc

theorem State.bindChunk_sound (hx : x.sound) (q : Req × Bool) : (s.bindChunk p x q).sound := by
  unfold State.bindChunk
  split
  · exact hx
  · next hopen =>
    have hfresh : s.mayBind p q.1 = true ∧ x.done q.1 = false := by simpa using hopen
    have hnew := Sel.has_of_not_done hfresh.2
    split
    · split
      · next slot rest hfree => exact State.tryBind_sound hx (hfree ▸ List.mem_cons_self) hnew 1 true
      · exact hx
    · split
      · next slot hslot => exact State.tryBind_sound hx (State.chunkFor_free hslot) hnew slot.tokens false
      · exact hx

theorem State.urgentStep_sound (pcap : Nat) (hx : x.sound) (q : Req × Bool) : (s.urgentStep p pcap x q).sound := by
  unfold State.urgentStep
  split
  · exact hx
  · exact (State.bindChunk_sound hx q).of_binds rfl

theorem State.queuedStep_sound (hx : x.sound) (q : Req × Bool) : (s.queuedStep p x q).sound := by
  unfold State.queuedStep
  split
  · exact State.bindChunk_sound hx q
  · exact hx

/-- What every turn keeps sound, a step of R276 keeps sound. -/
theorem Sel.sound.foldl {f : Sel → Req × Bool → Sel} (hx : x.sound) (hf : ∀ y q, y.sound → (f y q).sound) (qs : List (Req × Bool)) :
    (qs.foldl f x).sound :=
  List.foldlRecOn (motive := Sel.sound) qs f hx fun y hy q _ => hf y q hy

theorem State.choose_sound (s : State) (p : Nat) : (s.choose p).sound := by
  unfold State.choose
  extract_lets v rs by' gen pcap started none' generating waiting tails urgent urgents prompting
  have hnone : none'.sound := ⟨List.nodup_nil, List.nodup_nil, by simp [none']⟩
  have hgenerating : generating.sound := hnone.foldl (fun _ q hy => State.bindGen_sound hy q) _
  have hwaiting : waiting.sound := hgenerating.foldl (fun _ q hy => State.bindGen_sound hy q) _
  have htails : tails.sound := hwaiting.foldl (fun _ q hy => by split; exacts [State.bindGen_sound hy q, hy]) _
  have hurgents : urgents.sound := htails.foldl (fun _ q hy => State.urgentStep_sound pcap hy q) _
  have hprompting : prompting.sound := hurgents.foldl (fun _ q hy => State.bindChunk_sound hy q) _
  exact hprompting.foldl (fun _ q hy => State.queuedStep_sound hy q) _

theorem Sel.sound.unmarked (h : x.sound) : x.binds.map Bind.unmarked = x.binds := by
  have hmarks : ∀ b ∈ x.binds, b.unmarked = id b := fun b hb => by rw [Bind.unmarked, ← h.pages b hb]; rfl
  rw [List.map_congr_left hmarks, List.map_id]

end Choice

/-! BINDING_SELECTION (R268, R276). -/

section Selection
variable {s : State} {p : Nat}

/-- Outside a running frame from 4 µs after its ready point, or with firmware standing still, nothing is selected. -/
theorem State.selection_rests (h : s.frame.st ≠ .running ∨ s.frame.readyPoint = false ∨ s.paused = true ∨
    s.frameNs < 875 * s.frame.tNom / 1000 + 4000) : s.selection p = s := by
  refine if_pos ?_
  rcases h with h | h | h | h <;> simp [h]

/-- One selection is made for a frame. -/
theorem State.selection_once (h : (s.srv p).nextFrame = some (s.frame.number + 1)) : s.selection p = s := if_pos (by simp [h])

/-- Otherwise the requests are marked, the other parts are told, and the choice is taken as a notice. -/
theorem State.selection_takes (hrun : s.frame.st = .running) (hready : s.frame.readyPoint = true) (hholder : s.holder ≠ 0)
    (hpaused : s.paused = false) (hentry : s.isEntry p = true) (hon : s.pitchOn p = true) (hin : s.mgr.withdrawn = false)
    (hpitch : s.mgr.pitchOut.contains p = false) (htime : 875 * s.frame.tNom / 1000 + 4000 ≤ s.frameNs)
    (hnext : (s.srv p).nextFrame ≠ some (s.frame.number + 1)) :
    ∃ u, s.servesPitch u p ∧ s.selection p = u.takeNotice p (s.frame.number + 1) (s.choose p).binds [] := by
  unfold State.selection
  rw [if_neg (by simp only [hrun, hready, hholder, hpaused, hentry, hon, hin, hpitch]; simp [Nat.not_lt.2 htime, hnext])]
  extract_lets x frame counted marked others told
  refine ⟨told, ?_, rfl⟩
  have hcounted : s.servesPitch counted p :=
    (State.onlyIn_count (ps := [.fields]) (State.onlyIn_refl s _) (by decide)).servesPitch (by decide) (by decide) p
  have hmarked : s.servesPitch marked p := hcounted.trans (counted.servesPitch_onSrv p _)
  exact List.foldlRecOn (motive := fun u => s.servesPitch u p) others _ hmarked fun u hu part _ => hu.trans (u.servesPitch_sendMsg ..)

end Selection

/-! Messages of other parts (R265, R267, R268). -/

theorem State.srv_msgIn (s : State) (p : Nat) : s.msgIn.srv p = s.srv p := State.srv_of_serve (s.onlyIn_raiseBoth irqFabric .serve (by decide)) p

/-- One more refused (R265, R285, R293). -/
def ServeCounts.oneRefused (k : ServeCounts) : ServeCounts := { k with refused := sat32 (k.refused + 1) }

theorem State.cancelHere_none {s : State} {p tag : Nat} (h : (s.srv p).req tag = none) :
    s.cancelHere p tag = s.onCounts p .oneRefused := if_pos (by rw [h]; rfl)

theorem State.cancelHere_some {s : State} {p tag : Nat} {r : Req} (h : (s.srv p).req tag = some r) :
    s.cancelHere p tag = s.onSrv p fun x => { x with cancels := x.cancels ++ [(tag, s.now)] } := if_neg (by rw [h]; exact Bool.false_ne_true)

/-- A notice for the next frame is taken; another is dropped. -/
theorem State.notice_takes {s : State} {frame : Nat} (p : Nat) (bs : List Bind) (wm : List (Nat × Nat)) (hrun : s.frame.st = .running)
    (hnext : frame = s.frame.number + 1) : s.notice p frame bs wm = s.msgIn.takeNotice p frame bs wm :=
  if_pos (by simp [s.frame_msgIn, hrun, hnext])

theorem State.notice_drops {s : State} {frame : Nat} (p : Nat) (bs : List Bind) (wm : List (Nat × Nat))
    (h : s.frame.st ≠ .running ∨ frame ≠ s.frame.number + 1) : s.notice p frame bs wm = s.msgIn :=
  if_neg (by rw [s.frame_msgIn]; rcases h with h | h <;> simp [h])

/-- A report of the present frame is added; another is dropped. -/
theorem State.exitReport_adds {s : State} {frame : Nat} (p : Nat) (items : List ExitItem) (hrun : s.frame.st = .running)
    (hnow : frame = s.frame.number) :
    s.exitReport p frame items = s.msgIn.onSrv p fun x => { x with report := some (x.report.getD [] ++ items) } :=
  if_pos (by simp [s.frame_msgIn, hrun, hnow])

theorem State.exitReport_drops {s : State} {frame : Nat} (p : Nat) (items : List ExitItem)
    (h : s.frame.st ≠ .running ∨ frame ≠ s.frame.number) : s.exitReport p frame items = s.msgIn :=
  if_neg (by rw [s.frame_msgIn]; rcases h with h | h <;> simp [h])

/-! CANCEL and RELEASE_WAYMARK (R265, R285). -/

section Commands
variable {s : State} {c : Mgmt}

theorem State.link_sendMsg_onSrv (s : State) (p : Nat) (g : ServeSt → ServeSt) (part type : Nat) (fields : List Nat) :
    ((s.onSrv p g).sendMsg part type fields).link = (s.sendMsg part type fields).link :=
  State.link_sendMsg_congr (s := s) (t := s.onSrv p g) rfl rfl rfl (fun _ _ => rfl) part type fields []

theorem State.link_sendMsg_take (s : State) (fn part type : Nat) (fields : List Nat) :
    ((s.take fn).sendMsg part type fields).link = (s.sendMsg part type fields).link :=
  State.link_sendMsg_congr (s := s) (t := s.take fn) rfl rfl rfl (fun _ _ => rfl) part type fields []

/-- A command that is counted as refused and answered does nothing else. -/
theorem State.answersWith_refused (s : State) (c : Mgmt) (code result target : Nat) :
    s.answersWith (((s.take c.fn).onCounts c.on .oneRefused).answer c code result target) c c.on
      { s.srv c.on with counts := (s.srv c.on).counts.oneRefused } code result :=
  s.answersWith_onSrv c c.on (fun x => { x with counts := x.counts.oneRefused }) code result target []

/-- A cancel of no request is counted, and answered. -/
theorem State.cancelReq_none {p tag : Nat} (h : (s.srv p).req tag = none) :
    s.cancelReq p tag = s.onCounts p .oneRefused := by
  rw [State.cancelReq, h]
  exact State.cancelHere_none h

/-- A cancel of a request is held, and passed to the partner unless both roles lie here. -/
theorem State.cancelReq_some {p tag : Nat} {r : Req} (h : (s.srv p).req tag = some r) :
    (s.cancelReq p tag).host = s.host ∧ (s.cancelReq p tag).srv p = { s.srv p with cancels := (s.srv p).cancels ++ [(tag, s.now)] } ∧
      (s.cancelReq p tag).link = (if r.sub.entry && r.sub.exit then s.link else (s.sendMsg r.sub.partner 0x0103 [p, tag]).link) := by
  rw [State.cancelReq, h, State.cancelHere_some h]
  dsimp only
  split
  · exact ⟨rfl, State.srv_onSrv_same .., rfl⟩
  · have hsent := (s.onSrv p fun x => { x with cancels := x.cancels ++ [(tag, s.now)] }).onlyIn_sendMsg r.sub.partner 0x0103 [p, tag] []
    exact ⟨hsent .host (by decide), (State.srv_of_serve (hsent .serve (by decide)) p).trans (State.srv_onSrv_same ..),
      State.link_sendMsg_onSrv ..⟩

/-- CANCEL of a request, answered. -/
theorem State.cancel_answered {tag : Nat} {r : Req} (c : Mgmt) (h : (s.srv c.on).req tag = some r) (target : Nat) :
    let t := ((s.take c.fn).cancelReq c.on tag).answer c 0x40 0 target
    s.responded t c 0x40 0 ∧ t.srv c.on = { s.srv c.on with cancels := (s.srv c.on).cancels ++ [(tag, s.now)] } ∧
      t.link = (if r.sub.entry && r.sub.exit then s.link else (s.sendMsg r.sub.partner 0x0103 [c.on, tag]).link) := by
  intro t
  obtain ⟨hhost, hsrv, hlink⟩ := State.cancelReq_some (s := s.take c.fn) h
  have hanswer := ((s.take c.fn).cancelReq c.on tag).onlyIn_answer c 0x40 0 target []
  have hring := (s.sameRing_take c.fn).trans (State.sameRing_of_win (congrArg (·.win) hhost) c.fn)
  refine ⟨hring.answer .., (State.srv_of_serve (hanswer .serve (by decide)) c.on).trans hsrv, ?_⟩
  rw [← s.link_sendMsg_take c.fn]
  exact (hanswer .link (by decide)).trans hlink

/-- The release of a live handle is held for the boundary. -/
theorem State.releaseCmd_holds (c : Mgmt) {h : Nat} (hlive : (((s.srv c.on).wmFind h).isSome && !(s.srv c.on).releases.contains h) = true) :
    s.releaseCmd c h = (s.onSrv c.on fun x => { x with releases := x.releases ++ [h] }).answer c 0x43 0 (h % 2 ^ 32) := by
  simp only [State.releaseCmd, hlive, if_true]

/-- Any other is counted. -/
theorem State.releaseCmd_counts (c : Mgmt) {h : Nat} (hdead : (((s.srv c.on).wmFind h).isSome && !(s.srv c.on).releases.contains h) = false) :
    s.releaseCmd c h = (s.onCounts c.on .oneRefused).answer c 0x43 0 (h % 2 ^ 32) := by
  simp only [State.releaseCmd, hdead, Bool.false_eq_true, if_false]
  rfl

end Commands

/-! WAYMARK_MOVER (R288). -/

section Mover
variable {s : State} {p : Nat}

theorem State.waymarkMover_rests (h : s.holder = 0 ∨ s.frame.readyPoint = true ∨ (s.srv p).moverFrame = some s.frame.number) :
    s.waymarkMover p = s := by
  refine if_pos ?_
  rcases h with h | h | h <;> simp [h]

theorem State.waymarkMover_runs (hholder : s.holder ≠ 0) (hready : s.frame.readyPoint = false) (hmoved : (s.srv p).moverFrame ≠ some s.frame.number) :
    s.waymarkMover p = s.onSrv p fun x => { x.move with moverFrame := some s.frame.number } :=
  if_neg (by simp [hholder, hready, hmoved])

/-- With no rebuild under way there is no old region, and nothing moves. -/
theorem ServeSt.move_idle {x : ServeSt} (h : x.tableState = 0 ∨ x.tableState = 2) : x.move = x := by
  have hold : oldRegion x.tableState = none := by rcases h with h | h <;> rw [h] <;> rfl
  rw [ServeSt.move, hold]

end Mover

/-- Settles O40: each command and message by what it does to its pitch's serving; a choice of bindings takes free slots for requests not yet bound. -/
theorem bindingsAndCancels : Obligations.BindingsAndCancels := by
  unfold Obligations.BindingsAndCancels
  refine fun s c p hp => ⟨fun tag hheeds => ⟨fun hnone => ?_, fun r hsome => ?_⟩, fun tag => ⟨fun hnone => ?_, fun r hsome => ?_⟩,
    fun hrun hready hholder hpaused hentry hon hin hpitch htime => ⟨fun hnext => ?_, fun hnext => ?_⟩, fun h => ?_,
    fun frame bs wm => ⟨fun hrun hnext => ?_, fun h => ?_⟩, fun frame items => ⟨fun hrun hnow => ?_, fun h => ?_⟩, fun h hheeds => ?_,
    fun h => ?_, fun hholder hready hmoved => ?_⟩
  · obtain ⟨hanswer, hsrv, -, -⟩ :=
      s.answersWith_refused c 0x40 0 (tag % 2 ^ 32)
    rw [exec_cancel, hheeds.within, State.cancelReq_none (s := s.take c.fn) hnone]
    exact ⟨_, rfl, hanswer, by rw [hsrv], by rw [hsrv]; rfl⟩
  · obtain ⟨hanswer, hsrv, hlink⟩ := State.cancel_answered c hsome (tag % 2 ^ 32)
    rw [exec_cancel, hheeds.within]
    exact ⟨_, rfl, hanswer, by rw [hsrv], by rw [hsrv], hlink⟩
  · rw [exec_cancelMessage, within_next (decide_eq_true hp), State.cancelHere_none (by rwa [s.srv_msgIn])]
    rfl
  · rw [exec_cancelMessage, within_next (decide_eq_true hp), State.cancelHere_some (by rwa [s.srv_msgIn]), s.msgIn_now]
  · obtain ⟨u, hu, hdef⟩ := State.selection_takes hrun hready hholder hpaused hentry hon hin hpitch htime hnext
    obtain ⟨htaken, hframe, -, hbinds⟩ := u.takeNotice_effect p (s.frame.number + 1) (s.choose p).binds []
    have hall := hu.trans htaken
    have hsound := s.choose_sound p
    rw [exec_bindingSelection, within_next (decide_eq_true hp), hdef]
    exact ⟨_, rfl, hframe, hbinds.trans hsound.unmarked, hsound.slots, hsound.tags, hall.parts .arrays (by decide), hall.parts .cores (by decide),
      hall.others⟩
  · rw [exec_bindingSelection, within_next (decide_eq_true hp), State.selection_once hnext]
  · rw [exec_bindingSelection, within_next (decide_eq_true hp), State.selection_rests h]
  · obtain ⟨-, hframe, hwm, hbinds⟩ := s.msgIn.takeNotice_effect p frame bs wm
    rw [exec_bindingNotice, within_next (decide_eq_true hp), State.notice_takes p bs wm hrun hnext]
    exact ⟨_, rfl, hframe, hwm, hbinds⟩
  · rw [exec_bindingNotice, within_next (decide_eq_true hp), State.notice_drops p bs wm h]
  · rw [exec_exitReport, within_next (decide_eq_true hp), State.exitReport_adds p items hrun hnow]
  · rw [exec_exitReport, within_next (decide_eq_true hp), State.exitReport_drops p items h]
  · rw [exec_releaseWaymark, hheeds.within]
    cases hlive : ((s.srv c.on).wmFind h).isSome && !(s.srv c.on).releases.contains h
    case false =>
      obtain ⟨hanswer, hsrv, -, -⟩ :=
        s.answersWith_refused c 0x43 0 (h % 2 ^ 32)
      rw [State.releaseCmd_counts (s := s.take c.fn) c hlive]
      refine ⟨_, rfl, hanswer, by rw [hsrv], fun _ => ⟨by rw [hsrv]; rfl, by rw [hsrv]⟩, fun k hk hnew => ?_⟩
      rw [hk, hnew] at hlive
      cases hlive
    case true =>
      obtain ⟨hanswer, hsrv, -, -⟩ := s.answersWith_onSrv c c.on (fun x => { x with releases := x.releases ++ [h] }) 0x43 0 (h % 2 ^ 32) []
      rw [State.releaseCmd_holds (s := s.take c.fn) c hlive]
      refine ⟨_, rfl, hanswer, by rw [hsrv], fun hnone => ?_, fun _ _ _ => by rw [hsrv]⟩
      rw [hnone] at hlive
      cases hlive
  · rw [exec_waymarkMover, within_next (decide_eq_true hp), State.waymarkMover_rests h]
  · rw [exec_waymarkMover, within_next (decide_eq_true hp), State.waymarkMover_runs hholder hready hmoved]
    refine ⟨_, rfl, congrArg ServeSt.moverFrame (State.srv_onSrv_same ..), fun hidle => ?_, s.onlyIn_onSrv p _⟩
    rw [State.srv_onSrv_same, ServeSt.move_idle hidle]

end Sys2Proof.Machine

/-!
PROOFS of the statement on submissions and registrations (08_serving R261, R262).
-/

namespace Sys2Proof.Machine

/-! A registration for a request whose two roles lie at this part (R262). -/

/-- The one submission of such a request counts as registered at both ends when it is accepted, so a registration for its tag changes nothing. -/
theorem State.register_both_roles {s : State} {p tag : Nat} {r : Req} (h : (s.srv p).req tag = some r) (hboth : (r.sub.entry && r.sub.exit) = true)
    (customer promptLen maxNew : Nat) : s.register p tag customer promptLen maxNew = s.msgIn := by
  have hreq : (s.msgIn.srv p).req tag = some r := by rwa [s.srv_msgIn]
  simp [State.register, hreq, hboth]

/-- A submission of customer 0 for both roles, under tag 1. -/
def bothRolesSub : Submission :=
  { entry := true, exit := true, shared := false, wmAt := 0, customer := 0, partner := 9, tag := 1, waymark := 0, promptLen := 1, maxNew := 1,
    promptAddr := 0, stops := [], sampling := [] }

/-- The part with that submission accepted from queue 0 for pitch 0. -/
def bothRolesAccepted : State := State.reset.accept 0 0 bothRolesSub

/-- The request is pending, and counts as registered. -/
theorem bothRolesAccepted_req : (bothRolesAccepted.srv 0).req 1 = some (newReq bothRolesSub 0 0 true) := by decide

/-- Refutes O39: where the entry and exit stages lie on one part, a registration that differs does not end the pending request, which R262 counts as
registered already: a REGISTER of customer 1 leaves the request of customer 0 as it was. -/
theorem not_submissionsOpenOrEnd : ¬ Obligations.SubmissionsOpenOrEnd := by
  unfold Obligations.SubmissionsOpenOrEnd
  intro h
  obtain ⟨-, -, hregister, -⟩ := h bothRolesAccepted
  obtain ⟨-, hpending, -⟩ := hregister 0 1 1 1 1 (by decide)
  obtain ⟨-, hdiffers⟩ := hpending _ bothRolesAccepted_req rfl
  obtain ⟨t, hexec, hended, -⟩ := hdiffers (by decide)
  rw [exec_register, within_next (by decide), State.register_both_roles bothRolesAccepted_req rfl] at hexec
  cases hexec
  rw [State.srv_msgIn, bothRolesAccepted_req] at hended
  cases hended

end Sys2Proof.Machine

/-!
PROOFS of the statement on the common results of management commands (09_host_interface R313, R314; 10_ranger_firmware R328, R331;
15_update_and_roles R492).
-/

namespace Sys2Proof.Machine

/-! Commands that are not taken, and commands that meet a common result (R313, R314). -/

section
variable {s : State} {c : Mgmt} {r : CmdRule} {e : Nat}

/-- A command that meets a common result, taken and answered; a payload that could not be read is counted (R316). -/
def State.turnedAway (s : State) (c : Mgmt) (r : CmdRule) (e target : Nat) : State :=
  (if e = 0xF5 then (s.take c.fn).count F.HIF_CPLTOCNT else s.take c.fn).answer c r.code e target

theorem State.mgmt_not_taken (h : s.takes c.fn = false) (target : Nat) (act : State → State) : s.mgmt c r target act = s := by
  simp [State.mgmt, h]

/-- Taking a command changes nothing that the common results look at. -/
theorem State.mgmt_common (htakes : s.takes c.fn = true) (hcommon : s.common c r = some e) (target : Nat) (act : State → State) :
    s.mgmt c r target act = s.turnedAway c r e target := by
  have hcommon' : (s.take c.fn).common c r = some e := hcommon
  simp [State.mgmt, State.turnedAway, htakes, hcommon']

theorem State.turnedAway_frame (s : State) (c : Mgmt) (r : CmdRule) (e target : Nat) : (s.turnedAway c r e target).frame = s.frame := by
  rw [State.turnedAway, State.answer_frame]
  split <;> rfl

/-- While no command waits, a state with the same frame machinery keeps its windows as they are. -/
theorem State.nothingWaits.rebusy {t : State} (h : s.nothingWaits) (hframe : t.frame = s.frame) : t.rebusy = t :=
  State.rebusy_none (by rw [hframe]; exact h.unanswered)

/-- Every command with a rule is judged by it before it acts; LOAD, STOP and CANCEL_LOAD keep the windows of waiting commands busy as well. -/
theorem State.exec_of_ruleOf {i : Instr} {target : Nat} (hrule : s.ruleOf i = some (c, r, target)) (hwait : s.nothingWaits) (hfn : c.fn ≤ 16) :
    ∃ act, exec i s = .next (s.mgmt c r target act) ∨ exec i s = .next (s.mgmt c r target act).rebusy := by
  have hok : c.ok = true := decide_eq_true hfn
  cases i
  case load =>
    cases hrule
    exact ⟨_, .inr (within_next hok)⟩
  case stop =>
    cases hrule
    exact ⟨_, .inr ((within_next hok).trans (congrArg _ (State.besideLoad_of_no_load hwait.1 c _)))⟩
  case cancelLoad =>
    cases hrule
    exact ⟨_, .inr ((within_next hok).trans (congrArg _ (State.besideLoad_of_no_load hwait.1 c _)))⟩
  case setTime | unload | start | clearFrameCounters | readFrameState | cancel | setRation | readRation | releaseWaymark | readServing
      | clearServingCounters | relayPiece | readRelayStatus | readMaskedMap | readHistory | readAudit | readKeys | diagUnlock
      | readUpdate =>
    cases hrule
    exact ⟨_, .inl (within_next hok)⟩
  case lock | keyRemove | pubkeyRemove | keySet | pubkeySet | updateBegin | updateData | updateEnd | updateAbort | activate | confirm =>
    cases hrule
    simp only [exec_lock, exec_keyRemove, exec_pubkeyRemove, exec_keySet, exec_pubkeySet, exec_updateBegin, exec_updateData, exec_updateEnd,
      exec_updateAbort, exec_activate, exec_confirm, State.lockCmd, State.keyRemove, State.keySet, State.updateBegin, State.updateData,
      State.updateEnd, State.updateAbort, State.activate, State.confirm, State.vaultCmd, within_next hok]
    exact ⟨_, .inl rfl⟩
  all_goals cases hrule

end

/-- Settles O26: a command with a rule is judged by it first, and its answer is an audit entry and a response. -/
theorem mgmtCommandsMeetCommonResults : Obligations.MgmtCommandsMeetCommonResults := by
  unfold Obligations.MgmtCommandsMeetCommonResults
  intro s c hfn
  refine ⟨fun i r target hrule hwait => ?_, fun code result target detail => ⟨(State.sameRing.refl s c.fn).answer .., s.onlyIn_answer _ _ _ _ _⟩⟩
  obtain ⟨act, hexec⟩ := State.exec_of_ruleOf hrule hwait hfn
  refine ⟨fun htakes => ?_, fun e htakes hcommon => ?_⟩
  · rw [State.mgmt_not_taken htakes, hwait.rebusy rfl] at hexec
    exact hexec.elim id id
  · rw [State.mgmt_common htakes hcommon, hwait.rebusy (s.turnedAway_frame ..)] at hexec
    exact hexec.elim id id

end Sys2Proof.Machine

/-!
PROOFS of the statement on windows, vectors and poisoned writes (09_host_interface R311, R313, R316, R318).
-/

namespace Sys2Proof.Machine

/-! Messages (R311, R318): sending one, or keeping it back, touches pending bits and what was sent. -/

/-- `t` differs from `s` in the pending bits of vectors and in messages sent since. -/
def State.onlyMessages (s t : State) : Prop := ∃ p m, t = s.onHost fun h => { h with msiPending := p, sent := h.sent ++ m }

theorem State.onlyMessages_refl (s : State) : s.onlyMessages s := ⟨s.host.msiPending, [], by simp [State.onHost]⟩

section
variable {s t : State}

theorem State.onlyMessages.trans {u : State} (h : s.onlyMessages t) (h' : t.onlyMessages u) : s.onlyMessages u := by
  obtain ⟨p, m, rfl⟩ := h
  obtain ⟨p', m', rfl⟩ := h'
  exact ⟨p', m ++ m', by simp [State.onHost]⟩

theorem State.onlyMessages.unmasked (h : s.onlyMessages t) : t.host.unmasked = s.host.unmasked := by obtain ⟨_, _, rfl⟩ := h; rfl
theorem State.onlyMessages.win (h : s.onlyMessages t) (g : Nat) : t.win g = s.win g := by obtain ⟨_, _, rfl⟩ := h; rfl
theorem State.onlyMessages.lastMgmt (h : s.onlyMessages t) : t.host.lastMgmt = s.host.lastMgmt := by obtain ⟨_, _, rfl⟩ := h; rfl
theorem State.onlyMessages.retraining (h : s.onlyMessages t) : t.host.retraining = s.host.retraining := by obtain ⟨_, _, rfl⟩ := h; rfl
theorem State.onlyMessages.fields (h : s.onlyMessages t) : t.fields = s.fields := by obtain ⟨_, _, rfl⟩ := h; rfl
theorem State.onlyMessages.busMaster (h : s.onlyMessages t) (fn : Nat) : t.busMaster fn = s.busMaster fn := by obtain ⟨_, _, rfl⟩ := h; rfl

/-- What was sent stays sent. -/
theorem State.onlyMessages.sent (h : s.onlyMessages t) {x : Nat × Nat} (hx : x ∈ s.host.sent) : x ∈ t.host.sent := by
  obtain ⟨_, _, rfl⟩ := h
  exact List.mem_append_left _ hx

theorem State.onlyIn_onHost (s : State) (f : HostSt → HostSt) : s.onlyIn (s.onHost f) [.host] := by
  intro p hp
  cases p
  case host => exact absurd (by decide) hp
  all_goals rfl

theorem State.onlyMessages.parts (h : s.onlyMessages t) : s.onlyIn t [.host] := by
  obtain ⟨_, _, rfl⟩ := h
  exact s.onlyIn_onHost _

theorem State.onlyMessages.foldl {α : Type} {f : State → α → State} (hf : ∀ (t : State) a, t.onlyMessages (f t a)) (l : List α) (s : State) :
    s.onlyMessages (l.foldl f s) :=
  List.foldlRecOn (motive := fun t => s.onlyMessages t) l _ s.onlyMessages_refl fun _ ht a _ => ht.trans (hf _ a)

end

theorem State.onlyMessages_pending (s : State) (p : SMap Nat) : s.onlyMessages (s.onHost fun h => { h with msiPending := p }) :=
  ⟨p, [], by simp [State.onHost]⟩

/-- A message of an unmasked vector goes out where its function may send. -/
theorem State.msi_sends {s : State} {fn vec : Nat} (hmask : SMap.get 0 s.host.unmasked (2048 * fn + vec) = 1) (hbus : s.busMaster fn = true) :
    s.msi fn vec = s.onHost fun h => { h with sent := h.sent ++ [(fn, vec)] } :=
  if_neg (by simp [hmask, hbus])

theorem State.onlyMessages_msi (s : State) (fn vec : Nat) : s.onlyMessages (s.msi fn vec) := by
  unfold State.msi
  split
  · exact s.onlyMessages_pending _
  · exact ⟨s.host.msiPending, [(fn, vec)], rfl⟩

/-! Windows that gained entries ask for vector 0 (R311, R313). -/

/-- A window but for whether it has gained entries. -/
def WinSt.untold (w : WinSt) : WinSt := { w with gained := false }

theorem State.windowMsi_quiet {s : State} {fn : Nat} (h : (s.win fn).gained = false) : s.windowMsi fn = s := by simp [State.windowMsi, h]

theorem State.windowMsi_asks {s : State} {fn : Nat} (h : (s.win fn).gained = true) :
    s.windowMsi fn = (s.setWin fn (s.win fn).untold).msi fn 0 := by simp [State.windowMsi, h, WinSt.untold]

theorem State.onlyIn_windowMsi (s : State) (fn : Nat) : s.onlyIn (s.windowMsi fn) [.host] := by
  cases h : (s.win fn).gained
  · rw [State.windowMsi_quiet h]
    exact State.onlyIn_refl s _
  · rw [State.windowMsi_asks h]
    exact State.onlyIn_then (State.onlyIn_setWin (State.onlyIn_refl s _) (by decide)) (State.onlyMessages_msi ..).parts (by decide)

theorem State.windowMsi_lastMgmt (s : State) (fn : Nat) : (s.windowMsi fn).host.lastMgmt = s.host.lastMgmt := by
  cases h : (s.win fn).gained
  · rw [State.windowMsi_quiet h]
  · rw [State.windowMsi_asks h, (State.onlyMessages_msi ..).lastMgmt]
    rfl

/-- Afterwards the window has told of its entries; nothing else differs in any window. -/
theorem State.win_windowMsi_same (s : State) (fn : Nat) : (s.windowMsi fn).win fn = (s.win fn).untold := by
  cases h : (s.win fn).gained
  · rw [State.windowMsi_quiet h, WinSt.untold, ← h]
  · rw [State.windowMsi_asks h, (State.onlyMessages_msi ..).win, State.win_setWin_same]

theorem State.win_windowMsi_ne (s : State) {fn g : Nat} (hg : g ≠ fn) : (s.windowMsi fn).win g = s.win g := by
  cases h : (s.win fn).gained
  · rw [State.windowMsi_quiet h]
  · rw [State.windowMsi_asks h, (State.onlyMessages_msi ..).win, State.win_setWin_ne _ _ hg]

theorem State.win_windowMsi_untold (s : State) (fn g : Nat) : ((s.windowMsi fn).win g).untold = (s.win g).untold := by
  by_cases hg : g = fn
  · subst hg
    rw [State.win_windowMsi_same]
    rfl
  · rw [State.win_windowMsi_ne s hg]

/-- Every window that gained entries asks for its vector 0. -/
def State.windowsAsk (s : State) : State := (List.range 17).foldl (fun s fn => s.windowMsi fn) s

theorem State.onlyIn_windowsAsk (s : State) : s.onlyIn s.windowsAsk [.host] := State.onlyIn_foldl State.onlyIn_windowMsi _ s

/-- What a request for vector 0 leaves, the requests leave. -/
theorem State.windowsAsk_same {γ : Type} (g : State → γ) (hg : ∀ s fn, g (State.windowMsi s fn) = g s) (s : State) : g s.windowsAsk = g s := by
  rw [State.windowsAsk]
  exact foldl_same g hg _ s

theorem State.windowsAsk_lastMgmt (s : State) : s.windowsAsk.host.lastMgmt = s.host.lastMgmt :=
  State.windowsAsk_same (fun s => s.host.lastMgmt) State.windowMsi_lastMgmt s

theorem WinSt.eq_of_untold {v w : WinSt} (h : v.untold = w.untold) : v = { w with gained := v.gained } := by
  cases v
  cases w
  simpa [WinSt.untold] using h

/-- The requests change nothing in a window but whether it has gained entries. -/
theorem State.win_windowsAsk (s : State) (g : Nat) : ∃ b, s.windowsAsk.win g = { s.win g with gained := b } :=
  ⟨_, WinSt.eq_of_untold (State.windowsAsk_same (fun s => (s.win g).untold) (fun s fn => s.win_windowMsi_untold fn g) s)⟩

theorem State.windowsAsk_gained (s : State) {g : Nat} (hg : g ≤ 16) : (s.windowsAsk.win g).gained = false := by
  refine foldl_mem (fun _ => True) (fun s : State => (s.win g).gained = false) (fun _ _ h => h) (fun s _ => ?_) (fun s fn hne hs => ?_)
    (List.mem_range.2 (Nat.lt_succ_of_le hg)) trivial
  · rw [State.win_windowMsi_same]
    rfl
  · rw [State.win_windowMsi_ne s (Ne.symm hne)]
    exact hs

/-- The requests for vector 0 leave responses as they stand. -/
theorem State.responded.windowsAsk {s t : State} {c : Mgmt} {code result : Nat} (h : s.responded t c code result) :
    s.responded t.windowsAsk c code result := by
  obtain ⟨b, hwin⟩ := t.win_windowsAsk c.fn
  constructor
  · rw [hwin]
    exact h.idle
  · rw [hwin]
    exact h.record
  · rw [hwin]
    exact h.tail

/-! MGMT_COMMAND_POLL (R313). -/

/-- The time of a poll of the windows is noted. -/
def State.mgmtNoted (s : State) : State := s.onHost fun h => { h with lastMgmt := some s.now }

theorem State.mgmtPoll_early {s : State} (h : s.pollDue s.host.lastMgmt = false ∨ s.isOff = true ∨ s.holder = 0)
    (reads : List (Nat × Nat × Nat × Nat)) (unknown : Option (Mgmt × Nat)) : s.mgmtPoll reads unknown = s :=
  if_pos (by rcases h with h | h | h <;> simp [h])

section
variable {s : State} (hdue : s.pollDue s.host.lastMgmt = true) (hon : s.isOff = false) (hlead : s.holder ≠ 0)
include hdue hon hlead

theorem State.mgmtPoll_reads (reads : List (Nat × Nat × Nat × Nat)) :
    s.mgmtPoll reads none = (reads.foldl (fun s r => s.readIndices r.1 r.2.1 r.2.2.1 r.2.2.2) s.mgmtNoted).windowsAsk := by
  unfold State.mgmtPoll
  rw [if_neg (by simp [hdue, hon, hlead])]
  rfl

/-- An entry whose code is defined nowhere is taken and answered. -/
theorem State.mgmtPoll_unknown {c : Mgmt} {code : Nat} (htakes : s.takes c.fn = true) (hcode : commandCodes.contains code = false) :
    s.mgmtPoll [] (some (c, code)) = ((s.mgmtNoted.take c.fn).answer c code 0xF0 0).windowsAsk := by
  have htakes' : (s.mgmtNoted.takes c.fn && !commandCodes.contains code) = true := by
    rw [hcode, Bool.not_false, Bool.and_true]
    exact htakes
  unfold State.mgmtPoll
  rw [if_neg (by simp [hdue, hon, hlead])]
  exact congrArg State.windowsAsk (if_pos htakes')

end

/-- A window with the indices that the host wrote. -/
def WinSt.reading (w : WinSt) (cmdTail rspHead evtHead : Nat) : WinSt :=
  { w with cmdTail := cmdTail % 1024, rspHead := rspHead % 1024, evtHead := evtHead % 1024 }

theorem State.win_of_host {s t : State} (h : t.host = s.host) (g : Nat) : t.win g = s.win g := by
  rw [State.win, h]
  rfl

/-- An open window takes the indices read; a CMD_TAIL that moved raises its source. -/
theorem State.readIndices_open {s : State} {fn : Nat} (hready : (s.win fn).ready = true) (hon : s.fnOn fn = true) (ct rh eh : Nat) :
    ((s.readIndices fn ct rh eh).win fn = (s.win fn).reading ct rh eh) ∧ (s.readIndices fn ct rh eh).host.lastMgmt = s.host.lastMgmt ∧
      s.onlyIn (s.readIndices fn ct rh eh) [.fields, .irq, .host] := by
  have hset : s.onlyIn (s.setWin fn ((s.win fn).reading ct rh eh)) [.fields, .irq, .host] := State.onlyIn_setWin (State.onlyIn_refl s _) (by decide)
  have hread : s.readIndices fn ct rh eh = if ct % 1024 = (s.win fn).cmdTail then s.setWin fn ((s.win fn).reading ct rh eh)
      else (s.setWin fn ((s.win fn).reading ct rh eh)).raiseBoth (irqCmdTail + fn) := if_neg (by simp [hready, hon])
  rw [hread]
  split
  · exact ⟨State.win_setWin_same .., rfl, hset⟩
  · have hraise := (s.setWin fn ((s.win fn).reading ct rh eh)).onlyIn_raiseBoth (irqCmdTail + fn)
    have hhost : (State.raiseBoth _ _).host = _ := hraise .host (by decide)
    exact ⟨(State.win_of_host hhost fn).trans (State.win_setWin_same ..), by rw [hhost]; rfl, State.onlyIn_then hset hraise (by decide)⟩

/-! MSIX_UNMASK (R311). -/

/-- A vector is unmasked. -/
def State.unmask (s : State) (fn vec : Nat) : State := s.onHost fun h => { h with unmasked := SMap.set 0 h.unmasked (2048 * fn + vec) 1 }

theorem State.unmask_unmasked (s : State) (fn vec : Nat) : SMap.get 0 (s.unmask fn vec).host.unmasked (2048 * fn + vec) = 1 :=
  SMap.get_set_same 0 s.host.unmasked (2048 * fn + vec) 1

theorem State.msixUnmask_sends {s : State} {fn vec : Nat} (hpend : SMap.get 0 s.host.msiPending (2048 * fn + vec) = 1)
    (hbus : s.busMaster fn = true) : s.msixUnmask fn vec = (s.unmask fn vec).onHost fun h =>
      { h with msiPending := SMap.set 0 h.msiPending (2048 * fn + vec) 0, sent := h.sent ++ [(fn, vec)] } := by
  have hbus' : (s.unmask fn vec).busMaster fn = true := hbus
  exact if_pos (Bool.and_eq_true_iff.2 ⟨decide_eq_true hpend, hbus'⟩)

theorem State.msixUnmask_keeps {s : State} {fn vec : Nat} (h : SMap.get 0 s.host.msiPending (2048 * fn + vec) ≠ 1 ∨ s.busMaster fn = false) :
    s.msixUnmask fn vec = s.unmask fn vec := by
  have hbus : (s.unmask fn vec).busMaster fn = s.busMaster fn := rfl
  refine if_neg fun hboth => ?_
  obtain ⟨hpend, hmay⟩ := Bool.and_eq_true_iff.1 hboth
  rcases h with h | h
  · exact h (of_decide_eq_true hpend)
  · exact Bool.false_ne_true (h.symm.trans (hbus.symm.trans hmay))

/-! Messages that waited (R318). -/

/-- A pending bit is cleared. -/
def State.msiClear (s : State) (k : Nat) : State := s.onHost fun h => { h with msiPending := SMap.set 0 h.msiPending k 0 }

/-- A message that waited goes out, or waits again. -/
def State.msiTurn (s : State) (fn k : Nat) : State := (s.msiClear k).msi fn (k % 2048)

/-- The unmasked vectors of a function whose messages wait. -/
def State.msiDue (s : State) (fn : Nat) : List Nat :=
  (s.host.msiPending.filter fun e => e.2 == 1 && e.1 / 2048 == fn && SMap.get 0 s.host.unmasked e.1 == 1).map (·.1)

theorem State.msiRelease_stays {s : State} {fn : Nat} (h : s.busMaster fn = false) : s.msiRelease fn = s := by simp [State.msiRelease, h]

theorem State.msiRelease_sends {s : State} {fn : Nat} (h : s.busMaster fn = true) :
    s.msiRelease fn = (s.msiDue fn).foldl (fun s k => s.msiTurn fn k) s := if_neg (by simp [h])

theorem State.onlyMessages_msiClear (s : State) (k : Nat) : s.onlyMessages (s.msiClear k) := s.onlyMessages_pending _

theorem State.onlyMessages_msiTurn (s : State) (fn k : Nat) : s.onlyMessages (s.msiTurn fn k) :=
  (s.onlyMessages_msiClear k).trans (State.onlyMessages_msi ..)

theorem State.onlyMessages_msiRelease (s : State) (fn : Nat) : s.onlyMessages (s.msiRelease fn) := by
  cases h : s.busMaster fn
  · rw [State.msiRelease_stays h]
    exact s.onlyMessages_refl
  · rw [State.msiRelease_sends h]
    exact State.onlyMessages.foldl (fun t k => t.onlyMessages_msiTurn fn k) _ s

/-- A key that reads otherwise than an unlisted one is listed. -/
theorem SMap.mem_of_get_ne {α : Type} {d : α} {m : SMap α} {k : Nat} (h : SMap.get d m k ≠ d) : (k, SMap.get d m k) ∈ m := by
  induction m with
  | nil => exact absurd rfl h
  | cons e m ih =>
    obtain ⟨j, v⟩ := e
    by_cases hj : j = k
    · subst hj
      simp [SMap.get, SMap.find?]
    · have hget : SMap.get d ((j, v) :: m) k = SMap.get d m k := by simp [SMap.get, SMap.find?, hj]
      rw [hget] at h ⊢
      exact List.mem_cons_of_mem _ (ih h)

theorem State.mem_msiDue {s : State} {fn vec : Nat} (hvec : vec < 2048) (hmask : SMap.get 0 s.host.unmasked (2048 * fn + vec) = 1)
    (hpend : SMap.get 0 s.host.msiPending (2048 * fn + vec) = 1) : 2048 * fn + vec ∈ s.msiDue fn := by
  have hmem := SMap.mem_of_get_ne (d := 0) (m := s.host.msiPending) (k := 2048 * fn + vec) (by rw [hpend]; decide)
  rw [hpend] at hmem
  have hfn : (2048 * fn + vec) / 2048 = fn := by omega
  exact List.mem_map.2 ⟨_, List.mem_filter.2 ⟨hmem, by simp [hfn, hmask]⟩, rfl⟩

/-- Every pending message of an unmasked vector goes out once its function may send. -/
theorem State.msiRelease_mem {s : State} {fn vec : Nat} (hbus : s.busMaster fn = true) (hvec : vec < 2048)
    (hmask : SMap.get 0 s.host.unmasked (2048 * fn + vec) = 1) (hpend : SMap.get 0 s.host.msiPending (2048 * fn + vec) = 1) :
    (fn, vec) ∈ (s.msiRelease fn).host.sent := by
  rw [State.msiRelease_sends hbus]
  refine foldl_mem (fun t : State => s.onlyMessages t) (fun t : State => (fn, vec) ∈ t.host.sent)
    (fun t k ht => ht.trans (t.onlyMessages_msiTurn fn k)) (fun t ht => ?_) (fun t k _ hsent => (t.onlyMessages_msiTurn fn k).sent hsent) (State.mem_msiDue hvec hmask hpend) s.onlyMessages_refl
  have hkey : (2048 * fn + vec) % 2048 = vec := by omega
  have hcleared := ht.trans (t.onlyMessages_msiClear (2048 * fn + vec))
  rw [State.msiTurn, hkey, State.msi_sends (by rw [hcleared.unmasked]; exact hmask) (by rw [hcleared.busMaster]; exact hbus)]
  exact List.mem_append_right _ (List.mem_singleton_self _)

/-! BUS_MASTER_ENABLE_CHANGE (R318). -/

/-- A function with Bus Master Enable and its power state as the host wrote them. -/
def State.busBits (s : State) (fn : Nat) (bme d3 : Bool) : State := (s.setFlag F.HIF_FN_STATE_BME bme fn).setFlag F.HIF_FN_STATE_D3 d3 fn

theorem State.flag_busBits_bme (s : State) (fn : Nat) (bme d3 : Bool) : (s.busBits fn bme d3).flag F.HIF_FN_STATE_BME fn = bme := by
  rw [State.busBits, State.flag, State.fld_setFlag_of_code _ _ _ _ _ _ (by decide) (by decide) (by decide)]
  exact s.flag_setFlag_same bme fn rfl

theorem State.flag_busBits_d3 (s : State) (fn : Nat) (bme d3 : Bool) : (s.busBits fn bme d3).flag F.HIF_FN_STATE_D3 fn = d3 :=
  State.flag_setFlag_same _ d3 fn rfl

theorem State.onlyFields_busBits (s : State) (fn : Nat) (bme d3 : Bool) :
    s.onlyFields (s.busBits fn bme d3) [F.HIF_FN_STATE_BME, F.HIF_FN_STATE_D3] :=
  State.onlyFields_setFlag (State.onlyFields_setFlag (State.onlyFields_refl s _) (by decide)) (by decide)

theorem State.busMaster_busBits (s : State) (fn : Nat) (bme d3 : Bool) :
    (s.busBits fn bme d3).busMaster fn = (bme && !d3 && s.flag F.HIF_LINK_UP && !s.host.retraining) := by
  have hup : (s.busBits fn bme d3).flag F.HIF_LINK_UP = s.flag F.HIF_LINK_UP :=
    congrArg (· == 1) ((s.onlyFields_busBits fn bme d3).fld 0 (by decide))
  rw [State.busMaster, State.flag_busBits_bme, State.flag_busBits_d3, hup]
  rfl

/-- Settles O43: polls of the windows, vectors unmasked, poisoned writes and bus mastering, clause by clause. -/
theorem windowsAndVectors : Obligations.WindowsAndVectors := by
  unfold Obligations.WindowsAndVectors
  intro s fn hfn
  refine ⟨fun reads hreads h => ?_, fun hdue hon hlead => ⟨fun ct rh eh hready hfnOn => ?_, fun c code hc htakes hcode => ?_⟩,
    fun vec hvec => ⟨fun hpend hbus => ?_, fun h => ?_⟩, rfl, fun bme d3 => ?_⟩
  · rw [exec_mgmtCommandPoll, within_next (by simpa using hreads), State.mgmtPoll_early h]
  · obtain ⟨hwin, hlast, hparts⟩ := State.readIndices_open (s := s.mgmtNoted) hready hfnOn ct rh eh
    obtain ⟨b, hasked⟩ := (s.mgmtNoted.readIndices fn ct rh eh).win_windowsAsk fn
    rw [hwin] at hasked
    rw [exec_mgmtCommandPoll, within_next (by simpa using hfn), State.mgmtPoll_reads hdue hon hlead]
    rw [List.foldl_cons, List.foldl_nil]
    refine ⟨_, rfl, by rw [hasked]; rfl, by rw [hasked]; rfl, by rw [hasked]; rfl,
      fun g hg => State.windowsAsk_gained _ hg, (State.windowsAsk_lastMgmt _).trans hlast, ?_⟩
    exact State.onlyIn_then (State.onlyIn_trans (State.onlyIn_mono (s.onlyIn_onHost _) (by decide)) hparts) (State.onlyIn_windowsAsk _) (by decide)
  · subst hc
    obtain ⟨hanswer, hparts⟩ := s.mgmtNoted.answered_alone c code 0xF0 0 []
    have hring : s.sameRing s.mgmtNoted c.fn := ⟨rfl, rfl, rfl⟩
    rw [exec_mgmtCommandPoll, within_next (by simpa using hfn), State.mgmtPoll_unknown hdue hon hlead htakes hcode]
    exact ⟨_, rfl, (hring.responded hanswer).windowsAsk,
      State.onlyIn_then (State.onlyIn_trans (State.onlyIn_mono (s.onlyIn_onHost _) (by decide)) hparts) (State.onlyIn_windowsAsk _) (by decide)⟩
  · rw [exec_msixUnmask, within_next (by simp [hfn, hvec]), State.msixUnmask_sends hpend hbus]
    exact ⟨_, rfl, rfl, s.unmask_unmasked fn vec, State.onlyIn_trans (s.onlyIn_onHost _) ((s.unmask fn vec).onlyIn_onHost _)⟩
  · rw [exec_msixUnmask, within_next (by simp [hfn, hvec]), State.msixUnmask_keeps h]
    rfl
  · have hmsgs := (s.busBits fn bme d3).onlyMessages_msiRelease fn
    have hfields := State.onlyFields_same (s.onlyFields_busBits fn bme d3) hmsgs.fields
    have hbits : s.onlyIn (s.busBits fn bme d3) [.fields, .host] :=
      State.onlyIn_setFlag (State.onlyIn_setFlag (State.onlyIn_refl s _) (by decide)) (by decide)
    have hsame : ∀ f : Fld, ((s.busBits fn bme d3).msiRelease fn).flag f fn = (s.busBits fn bme d3).flag f fn :=
      fun f => congrArg (· == 1) (State.fld_of_fields hmsgs.fields f fn)
    rw [exec_busMasterEnableChange, within_next (by simpa using hfn)]
    refine ⟨_, rfl, (hsame _).trans (s.flag_busBits_bme fn bme d3), (hsame _).trans (s.flag_busBits_d3 fn bme d3),
      fun hb hd hup hre vec hvec => ?_, fun hoff => ?_, State.onlyIn_then hbits hmsgs.parts (by decide), hfields⟩
    · exact State.msiRelease_mem (s := s.busBits fn bme d3) (by rw [State.busMaster_busBits, hb, hd, hup, hre]; rfl) hvec
    · have hbus : (s.busBits fn bme d3).busMaster fn = false := by
        rw [State.busMaster_busBits]
        rcases hoff with rfl | rfl <;> simp
      exact (congrArg State.host (State.msiRelease_stays hbus)).trans rfl

end Sys2Proof.Machine

/-!
PROOFS of the statement on queues (09_host_interface R299, R301, R305, R306, R316, R320; 10_ranger_firmware R324).
-/

namespace Sys2Proof.Machine

/-! A queue and its registers (Table 9-16): setting one changes STATUS.HELD alone among the fields. -/

section
variable (s : State) (q : Nat)

theorem State.onlyFields_setQueue (x : QueueSt) : s.onlyFields (s.setQueue q x) [F.HIF_Q_STATUS_HELD] :=
  State.onlyFields_setFlag (State.onlyFields_same (State.onlyFields_refl s _) rfl) (by decide)

theorem State.onlyIn_setQueue (x : QueueSt) : s.onlyIn (s.setQueue q x) [.fields, .host] :=
  State.onlyIn_setFlag (State.onlyIn_mono (s.onlyIn_onHost fun h => { h with queues := SMap.set .init h.queues q x }) (by decide)) (by decide)

@[simp] theorem State.queue_setQueue_same (x : QueueSt) : (s.setQueue q x).queue q = x := SMap.get_set_same ..

theorem State.queue_setQueue_ne {b : Nat} (x : QueueSt) (h : b ≠ q) : (s.setQueue q x).queue b = s.queue b := SMap.get_set_ne _ _ _ h

theorem State.fld_setQueue (x : QueueSt) (f : Fld) (i : Nat) (h : f.code % 1024 ∉ [F.HIF_Q_STATUS_HELD].map (·.code)) :
    (s.setQueue q x).fld f i = s.fld f i := (s.onlyFields_setQueue q x).fld i h

@[simp] theorem State.qState_setQueue (x : QueueSt) (b : Nat) : (s.setQueue q x).qState b = s.qState b := s.fld_setQueue q x _ b (by decide)
@[simp] theorem State.cqSize_setQueue (x : QueueSt) (b : Nat) : (s.setQueue q x).cqSize b = s.cqSize b :=
  congrArg ringSize (s.fld_setQueue q x _ b (by decide))

end

theorem State.queue_of_host {s t : State} (h : t.host = s.host) (q : Nat) : t.queue q = s.queue q := by
  rw [State.queue, h]
  rfl

/-- The fields that say how a queue stands, whose it is, and which Ranger cores run. -/
def queueFlds : List Fld := [F.HIF_Q_STATUS_STATE, F.HIF_Q_FN_FN, F.HIF_Q_FN_PITCH, F.HIF_Q_SIZE_SQ_LOG2, F.HIF_Q_SIZE_CQ_LOG2,
  F.RGR_QMAP_DATA_OWNED, F.RGR_QMAP_DATA_RCORE, F.RGR_STATUS_CORE]

/-- What these fields say of a queue: its state, its function, its rings, its owner and whether a Ranger core runs. -/
theorem State.onlyFields.queueViews {s t : State} {fs : List Fld} (h : s.onlyFields t fs)
    (hfs : (queueFlds.all fun f => !(fs.map (·.code)).contains (f.code % 1024)) = true) (q : Nat) :
    t.qState q = s.qState q ∧ t.qFn q = s.qFn q ∧ t.qPitch q = s.qPitch q ∧ t.sqSize q = s.sqSize q ∧ t.cqSize q = s.cqSize q ∧
      t.owner q = s.owner q ∧ ∀ k, t.rcoreRuns k = s.rcoreRuns k := by
  simp only [queueFlds, List.all_cons, Bool.and_eq_true, Bool.not_eq_true', List.contains_eq_mem, decide_eq_false_iff_not] at hfs
  obtain ⟨hstate, hfn, hpitch, hsq, hcq, howned, hrcore, hcore, -⟩ := hfs
  refine ⟨h.fld q hstate, h.fld q hfn, ?_, congrArg ringSize (h.fld q hsq), congrArg ringSize (h.fld q hcq), ?_, fun k => ?_⟩
  · rw [State.qPitch, State.qFn, h.fld q hfn, h.fld q hpitch]
    rfl
  · rw [State.owner, State.flag, h.fld q howned, h.fld q hrcore]
    rfl
  · rw [State.rcoreRuns, State.rcore, h.fld _ hcore]
    rfl

/-! Owners (R324). -/

theorem State.onlyFields_setOwner (s : State) (q : Nat) (k : Option Nat) :
    s.onlyFields (s.setOwner q k) [F.RGR_QMAP_DATA_OWNED, F.RGR_QMAP_DATA_RCORE] := by
  cases k <;> exact State.onlyFields_setFld (State.onlyFields_setFld (State.onlyFields_refl s _) (by decide)) (by decide)

theorem State.onlyIn_setOwner (s : State) (q : Nat) (k : Option Nat) : s.onlyIn (s.setOwner q k) [.fields] := by
  cases k <;> exact State.onlyIn_setFld (State.onlyIn_setFld (State.onlyIn_refl s _) (by decide)) (by decide)

/-- A queue has the owner it is given, one of the eight Ranger cores. -/
theorem State.owner_setOwner_same (s : State) (q : Nat) (k : Option Nat) (hk : ∀ n, k = some n → n < 8) : (s.setOwner q k).owner q = k := by
  cases k with
  | none => simp (disch := decide) [State.owner, State.setOwner, State.flag, State.fld_setFld_of_code]
  | some n =>
    have hn : n % 2 ^ F.RGR_QMAP_DATA_RCORE.width = n := Nat.mod_eq_of_lt (hk n rfl)
    simp (disch := decide) [State.owner, State.setOwner, State.flag, State.fld_setFld_of_code, hn]

theorem State.nextRunning_lt {s : State} {k n : Nat} (h : s.nextRunning k = some n) : n < 8 := by
  obtain ⟨i, -, rfl⟩ := List.mem_map.1 (List.mem_of_find?_eq_some h)
  exact Nat.mod_lt _ (by decide)

/-- The number of a function's enabled queues is a field of its own. -/
theorem State.onlyFields_countQueues (s : State) (fn : Nat) : s.onlyFields (s.countQueues fn) [F.HIF_FN_STATE_QUEUES] :=
  State.onlyFields_setFld (State.onlyFields_refl s _) (by decide)

theorem State.countQueues_host (s : State) (fn : Nat) : (s.countQueues fn).host = s.host := by rw [State.countQueues, State.setFld_host]

/-! QUEUE_ENABLE (R299, R324). -/

section Enable
variable {s : State} {fn q : Nat}

/-- A queue starts: ACTIVE without error, empty, owned by the next running core. -/
def State.queueStart (s : State) (q : Nat) : State :=
  let t := ((s.setFld F.HIF_Q_STATUS_ERR 0 q).setFld F.HIF_Q_STATUS_STATE qActive q).setFld F.HIF_Q_STATUS_SQ_HEAD 0 q
  ((t.setQueue q .init).setOwner q (t.nextRunning (q % 8))).countQueues (t.qFn q)

theorem State.queueEnable_low (hsel : s.selectedQueue (.host fn) = some q) (hopen : s.barOpen = true) (hrole : s.roleOf fn < roleOpr) :
    s.queueEnable (.host fn) = s.audit fn 0xFFFF 1 0xF3 (qCtlAddr (.host fn)) := by
  unfold State.queueEnable
  simp [s.ownWrite_low false (qCtlAddr (.host fn)) hopen hrole, hsel]

/-- An accepted write is audited, which changes nothing a queue depends on. -/
theorem State.queueEnable_accepted (hsel : s.selectedQueue (.host fn) = some q) (hopen : s.barOpen = true) (hrole : roleOpr ≤ s.roleOf fn) :
    s.queueEnable (.host fn) = let t := s.audit fn 0xFFFF 0 0 (qCtlAddr (.host fn))
      if s.qState q ≠ qDisabled then t else if s.queueCheck q ≠ 0 then t.setFld F.HIF_Q_STATUS_ERR (s.queueCheck q) q else t.queueStart q := by
  have hcheck : (s.audit fn 0xFFFF 0 0 (qCtlAddr (.host fn))).queueCheck q = s.queueCheck q := rfl
  have hstate : (s.audit fn 0xFFFF 0 0 (qCtlAddr (.host fn))).qState q = s.qState q := rfl
  unfold State.queueEnable
  rw [s.ownWrite_accepted (rwl := false) (qCtlAddr (.host fn)) hopen hrole (fun h => nomatch h), hsel]
  dsimp only
  rw [hcheck, hstate, Bool.not_true, Bool.false_or]
  simp only [decide_eq_true_eq]
  rfl

theorem State.onlyIn_queueStart (s : State) (q : Nat) : s.onlyIn (s.queueStart q) [.fields, .host] := by
  unfold State.queueStart
  extract_lets t
  have ht : s.onlyIn t [.fields, .host] :=
    State.onlyIn_setFld (State.onlyIn_setFld (State.onlyIn_setFld (State.onlyIn_refl s _) (by decide)) (by decide)) (by decide)
  have hempty := State.onlyIn_trans ht (t.onlyIn_setQueue q .init)
  exact State.onlyIn_setFld (State.onlyIn_then hempty (State.onlyIn_setOwner _ q _) (by decide)) (by decide)

/-- A queue as it starts. -/
structure State.starts (s t : State) (q : Nat) : Prop where
  active : t.qState q = qActive
  error : t.fld F.HIF_Q_STATUS_ERR q = 0
  head : t.fld F.HIF_Q_STATUS_SQ_HEAD q = 0
  empty : t.queue q = .init
  owner : t.owner q = s.nextRunning (q % 8)

theorem State.queueStart_starts (s : State) (q : Nat) : s.starts (s.queueStart q) q := by
  unfold State.queueStart
  extract_lets t
  have hrest : t.onlyFields (((t.setQueue q .init).setOwner q (t.nextRunning (q % 8))).countQueues (t.qFn q))
      [F.HIF_Q_STATUS_HELD, F.RGR_QMAP_DATA_OWNED, F.RGR_QMAP_DATA_RCORE, F.HIF_FN_STATE_QUEUES] :=
    State.onlyFields_then (State.onlyFields_then (State.onlyFields_then (State.onlyFields_refl t _) (t.onlyFields_setQueue q .init) (by decide))
      (State.onlyFields_setOwner _ q _) (by decide)) (State.onlyFields_countQueues _ _) (by decide)
  have ht : s.onlyFields t [F.HIF_Q_STATUS_ERR, F.HIF_Q_STATUS_STATE, F.HIF_Q_STATUS_SQ_HEAD] :=
    State.onlyFields_setFld (State.onlyFields_setFld (State.onlyFields_setFld (State.onlyFields_refl s _) (by decide)) (by decide)) (by decide)
  have hcores : ∀ k, t.rcoreRuns k = s.rcoreRuns k := fun k => congrArg (fun n => decide (bitsAt n (4 * (k % 4)) 4 ≤ 1)) (ht.fld _ (by decide))
  have hnext : t.nextRunning (q % 8) = s.nextRunning (q % 8) := by rw [State.nextRunning, funext hcores]; rfl
  constructor
  · refine (hrest.fld q (by decide)).trans ?_
    simp (disch := decide) [t, State.fld_setFld_of_code]
    rfl
  · refine (hrest.fld q (by decide)).trans ?_
    simp (disch := decide) [t, State.fld_setFld_of_code]
  · refine (hrest.fld q (by decide)).trans ?_
    simp (disch := decide) [t]
  · have hhost := (State.countQueues_host _ (t.qFn q)).trans ((t.setQueue q .init).onlyIn_setOwner q (t.nextRunning (q % 8)) .host (by decide))
    exact (State.queue_of_host hhost q).trans (t.queue_setQueue_same q .init)
  · have hcounted := State.onlyFields_countQueues ((t.setQueue q .init).setOwner q (t.nextRunning (q % 8))) (t.qFn q)
    obtain ⟨-, -, -, -, -, howner, -⟩ := hcounted.queueViews (by decide) q
    exact howner.trans ((State.owner_setOwner_same _ q _ fun n hn => State.nextRunning_lt hn).trans hnext)

end Enable

/-! QUEUE_DRAIN (R320): cancels of the open requests of a queue. -/

/-- The tags of the open requests that came through a queue. -/
def State.queueTags (s : State) (q : Nat) : List Nat := ((s.srv (s.qPitch q)).reqs.filter fun r => r.queue == q).map (·.sub.tag)

theorem State.queueReqs_eq (s : State) (q : Nat) : s.queueReqs q = (s.queueTags q).map fun tag => (s.qPitch q, tag) := by
  simp [State.queueReqs, State.queueTags, List.map_map, Function.comp_def]

theorem State.mem_queueTags {s : State} {q : Nat} {r : Req} (hr : r ∈ (s.srv (s.qPitch q)).reqs) (hq : r.queue = q) : r.sub.tag ∈ s.queueTags q :=
  List.mem_map_of_mem (List.mem_filter.2 ⟨hr, by simp [hq]⟩)

theorem ServeSt.req_of_mem {x : ServeSt} {r : Req} (h : r ∈ x.reqs) : ∃ r', x.req r.sub.tag = some r' :=
  Option.isSome_iff_exists.1 (List.find?_isSome.2 ⟨r, h, by simp⟩)

/-- Cancels came in for one pitch: its requests stand, and its cancels have grown. -/
structure State.cancelling (s t : State) (p : Nat) : Prop where
  parts : s.onlyIn t [.serve, .link]
  others : s.onlyPitch t p
  reqs : (t.srv p).reqs = (s.srv p).reqs
  grown : ∃ l, (t.srv p).cancels = (s.srv p).cancels ++ l

section
variable {s t : State} {p : Nat}

theorem State.cancelling_refl (s : State) (p : Nat) : s.cancelling s p := ⟨State.onlyIn_refl s _, fun _ _ => rfl, rfl, [], by simp⟩

theorem State.cancelling.trans {u : State} (h : s.cancelling t p) (h' : t.cancelling u p) : s.cancelling u p := by
  obtain ⟨l, hl⟩ := h.grown
  obtain ⟨l', hl'⟩ := h'.grown
  exact ⟨State.onlyIn_trans h.parts h'.parts, State.onlyPitch_trans h.others h'.others, h'.reqs.trans h.reqs, l ++ l',
    by rw [hl', hl, List.append_assoc]⟩

theorem State.cancelling.mem (h : s.cancelling t p) {x : Nat × Nat} (hx : x ∈ (s.srv p).cancels) : x ∈ (t.srv p).cancels := by
  obtain ⟨l, hl⟩ := h.grown
  exact hl ▸ List.mem_append_left l hx

theorem State.cancelling.now (h : s.cancelling t p) : t.now = s.now := h.parts .now (by decide)

theorem State.cancelling_onSrv (s : State) (p : Nat) (g : ServeSt → ServeSt) (hreqs : ∀ x, (g x).reqs = x.reqs)
    (hgrown : ∀ x, ∃ l, (g x).cancels = x.cancels ++ l) : s.cancelling (s.onSrv p g) p :=
  ⟨State.onlyIn_mono (s.onlyIn_onSrv p g) (by decide), s.onlyPitch_onSrv p g, by rw [State.srv_onSrv_same]; exact hreqs _,
    by rw [State.srv_onSrv_same]; exact hgrown _⟩

theorem State.cancelling_sendMsg (s : State) (p part type : Nat) (fields : List Nat) : s.cancelling (s.sendMsg part type fields) p := by
  have hparts := s.onlyIn_sendMsg part type fields []
  have hserve := hparts .serve (by decide)
  exact ⟨State.onlyIn_mono hparts (by decide), State.onlyPitch_of_serve hserve p, by rw [State.srv_of_serve hserve], [], by
    rw [State.srv_of_serve hserve, List.append_nil]⟩

theorem State.cancelling_cancelHere (s : State) (p tag : Nat) : s.cancelling (s.cancelHere p tag) p := by
  unfold State.cancelHere
  split
  · exact s.cancelling_onSrv p _ (fun _ => rfl) fun _ => ⟨[], (List.append_nil _).symm⟩
  · exact s.cancelling_onSrv p _ (fun _ => rfl) fun _ => ⟨_, rfl⟩

theorem State.cancelling_cancelReq (s : State) (p tag : Nat) : s.cancelling (s.cancelReq p tag) p := by
  have hhere := s.cancelling_cancelHere p tag
  unfold State.cancelReq
  split
  · split
    · exact hhere
    · exact hhere.trans (State.cancelling_sendMsg ..)
  · exact hhere

/-- A list of requests is cancelled, one after another. -/
theorem State.cancelling_foldl (s : State) (p : Nat) (tags : List Nat) : s.cancelling (tags.foldl (fun s tag => s.cancelReq p tag) s) p :=
  List.foldlRecOn (motive := fun t => s.cancelling t p) tags _ (s.cancelling_refl p) fun t ht tag _ => ht.trans (t.cancelling_cancelReq p tag)

/-- Every open request among them is to be cancelled. -/
theorem State.mem_cancels_foldl (s : State) {r : Req} {tags : List Nat} (hr : r ∈ (s.srv p).reqs) (htag : r.sub.tag ∈ tags) :
    (r.sub.tag, s.now) ∈ ((tags.foldl (fun s tag => s.cancelReq p tag) s).srv p).cancels := by
  refine foldl_mem (fun t : State => s.cancelling t p) (fun t : State => (r.sub.tag, s.now) ∈ (t.srv p).cancels)
    (fun t tag ht => ht.trans (t.cancelling_cancelReq p tag)) (fun t ht => ?_) (fun t tag _ h => (t.cancelling_cancelReq p tag).mem h) htag
    (s.cancelling_refl p)
  obtain ⟨r', hr'⟩ := ServeSt.req_of_mem (x := t.srv p) (ht.reqs ▸ hr)
  obtain ⟨-, hsrv, -⟩ := State.cancelReq_some hr'
  rw [hsrv, ht.now]
  exact List.mem_append_right _ (List.mem_singleton_self _)

end

section Drain
variable {s : State} {fn q : Nat}

/-- A queue begins to drain. -/
def State.queueDrains (s : State) (q : Nat) : State := (s.setFld F.HIF_Q_STATUS_STATE qDraining q).countQueues (s.qFn q)

theorem State.onlyFields_queueDrains (s : State) (q : Nat) : s.onlyFields (s.queueDrains q) [F.HIF_Q_STATUS_STATE, F.HIF_FN_STATE_QUEUES] :=
  State.onlyFields_then (State.onlyFields_setFld (State.onlyFields_refl s _) (by decide)) (State.onlyFields_countQueues _ _) (by decide)

theorem State.onlyIn_queueDrains (s : State) (q : Nat) : s.onlyIn (s.queueDrains q) [.fields] :=
  State.onlyIn_setFld (State.onlyIn_setFld (State.onlyIn_refl s _) (by decide)) (by decide)

theorem State.qState_queueDrains (s : State) (q : Nat) : (s.queueDrains q).qState q = qDraining :=
  ((State.onlyFields_countQueues _ _).fld q (by decide)).trans (State.fld_setFld_same ..)

theorem State.qPitch_queueDrains (s : State) (q : Nat) : (s.queueDrains q).qPitch q = s.qPitch q := by
  rw [State.qPitch, State.qFn, (s.onlyFields_queueDrains q).fld q (by decide), (s.onlyFields_queueDrains q).fld q (by decide)]
  rfl

theorem State.queueDrain_low (hsel : s.selectedQueue (.host fn) = some q) (hopen : s.barOpen = true) (hrole : s.roleOf fn < roleOpr) :
    s.queueDrain (.host fn) = s.audit fn 0xFFFF 1 0xF3 (qCtlAddr (.host fn)) := by
  unfold State.queueDrain
  simp [s.ownWrite_low false (qCtlAddr (.host fn)) hopen hrole, hsel]

/-- An accepted write drains an ACTIVE or ERROR queue, and every open request of it is cancelled. -/
theorem State.queueDrain_drains (hsel : s.selectedQueue (.host fn) = some q) (hopen : s.barOpen = true) (hrole : roleOpr ≤ s.roleOf fn)
    (hstate : s.qState q = qActive ∨ s.qState q = qError) :
    let u := (s.audit fn 0xFFFF 0 0 (qCtlAddr (.host fn))).queueDrains q
    s.queueDrain (.host fn) = (u.queueTags q).foldl (fun t tag => t.cancelReq (s.qPitch q) tag) u := by
  intro u
  have hstate' : (s.audit fn 0xFFFF 0 0 (qCtlAddr (.host fn))).qState q = s.qState q := rfl
  have hlive : (s.qState q == qActive || s.qState q == qError) = true := by
    rw [Bool.or_eq_true, beq_iff_eq, beq_iff_eq]
    exact hstate
  have hpitch : u.qPitch q = s.qPitch q := State.qPitch_queueDrains _ q
  have hdrain : s.queueDrain (.host fn) = (u.queueReqs q).foldl (fun s r => s.cancelReq r.1 r.2) u := by
    unfold State.queueDrain
    rw [s.ownWrite_accepted (rwl := false) (qCtlAddr (.host fn)) hopen hrole (fun h => nomatch h), hsel]
    dsimp only
    rw [hstate', hlive, if_neg (by decide)]
    rfl
  rw [hdrain, State.queueReqs_eq, hpitch, List.foldl_map]

/-- What draining a queue leaves and brings about. -/
structure State.drains (s t : State) (q : Nat) : Prop where
  draining : t.qState q = qDraining
  cancels : ∀ r ∈ (s.srv (s.qPitch q)).reqs, r.queue = q → (r.sub.tag, s.now) ∈ (t.srv (s.qPitch q)).cancels
  frame : t.frame = s.frame
  others : s.onlyPitch t (s.qPitch q)

theorem State.drains_of_cancels (s : State) (q : Nat) :
    s.drains (((s.queueDrains q).queueTags q).foldl (fun t tag => t.cancelReq (s.qPitch q) tag) (s.queueDrains q)) q := by
  have hparts := s.onlyIn_queueDrains q
  have hsrv := State.srv_of_serve (hparts .serve (by decide))
  have hcancel := (s.queueDrains q).cancelling_foldl (s.qPitch q) ((s.queueDrains q).queueTags q)
  refine ⟨?_, fun r hr hq => ?_, (hcancel.parts .frame (by decide)).trans (hparts .frame (by decide)),
    State.onlyPitch_trans (fun p _ => hsrv p) hcancel.others⟩
  · exact (State.fld_of_fields (hcancel.parts .fields (by decide)) _ q).trans (s.qState_queueDrains q)
  · have hr' : r ∈ ((s.queueDrains q).srv (s.qPitch q)).reqs := (hsrv _).symm ▸ hr
    have htag : r.sub.tag ∈ (s.queueDrains q).queueTags q := State.mem_queueTags ((s.qPitch_queueDrains q).symm ▸ hr') hq
    exact (hparts .now (by decide) : (s.queueDrains q).now = s.now) ▸ (s.queueDrains q).mem_cancels_foldl hr' htag

end Drain

/-! Completions (R305, R306). -/

section Write
variable {s : State} {q : Nat}

theorem State.writeHeld_keeps (h : (s.queue q).waiting = [] ∨ s.qState q = qDisabled ∨ s.cqFull q = true ∨ s.busMaster (s.qFn q) = false) :
    s.writeHeld q = s := by
  unfold State.writeHeld
  split
  · rfl
  · next c rest hwait =>
    refine if_pos ?_
    rcases h with h | h | h | h
    · rw [h] at hwait
      cases hwait
    · simp [h]
    · simp [h]
    · simp [h]

theorem State.writeHeld_writes {c : Completion} {rest : List Completion} (hwait : (s.queue q).waiting = c :: rest) (hstate : s.qState q ≠ qDisabled)
    (hfull : s.cqFull q = false) (hbus : s.busMaster (s.qFn q) = true) :
    s.writeHeld q = (s.setQueue q { s.queue q with waiting := rest }).writeEntry q c := by
  unfold State.writeHeld
  rw [hwait]
  exact if_neg (by simp [hstate, hfull, hbus])

/-- An entry stands at the write index with the phase, and the index moves on. -/
theorem State.queue_writeEntry (s : State) (q : Nat) (c : Completion) :
    ((s.writeEntry q c).queue q).waiting = (s.queue q).waiting ∧
      SMap.find? ((s.writeEntry q c).queue q).ring (s.queue q).tail = some (c, (s.queue q).phase) ∧
      ((s.writeEntry q c).queue q).tail = ((s.queue q).tail + 1) % s.cqSize q := by
  rw [State.writeEntry, State.queue_setQueue_same]
  exact ⟨rfl, SMap.find?_put_same .., rfl⟩

end Write

/-! Errors of queues (R301, R316). -/

theorem State.onlyIn_postTo (s : State) (fn code : Nat) (detail : List Nat) : s.onlyIn (s.postTo fn code detail) [.host] := by
  obtain ⟨w, hw, -⟩ := s.postTo_eq_setWin fn code detail
  rw [hw]
  exact State.onlyIn_setWin (State.onlyIn_refl s _) (by decide)

theorem State.queue_postTo (s : State) (fn code : Nat) (detail : List Nat) (q : Nat) : (s.postTo fn code detail).queue q = s.queue q := by
  obtain ⟨w, hw, -⟩ := s.postTo_eq_setWin fn code detail
  rw [hw]
  rfl

theorem State.srv_postTo (s : State) (fn code : Nat) (detail : List Nat) (p : Nat) : (s.postTo fn code detail).srv p = s.srv p :=
  State.srv_of_serve (s.onlyIn_postTo fn code detail .serve (by decide)) p

theorem State.queue_raiseBoth (s : State) (id q : Nat) : (s.raiseBoth id).queue q = s.queue q :=
  State.queue_of_host (s.onlyIn_raiseBoth id .host (by decide)) q

/-- A queue in error shows its code and holds what it held. -/
structure State.errs (s t : State) (q code : Nat) : Prop where
  state : t.qState q = qError
  error : t.fld F.HIF_Q_STATUS_ERR q = code
  queue : t.queue q = s.queue q
  fields : s.onlyFields t [F.HIF_Q_STATUS_STATE, F.HIF_Q_STATUS_ERR, F.INTC_PEND, F.INTC_MERGECNT]

theorem State.queueError_errs (s : State) (q : Nat) {code : Nat} (hcode : code < 256) : s.errs (s.queueError q code) q code := by
  unfold State.queueError
  extract_lets t
  have hposted := t.onlyIn_postTo (t.qFn q) 0x0002 [t.fld F.HIF_Q_FN_LOCAL q, code]
  have hraised := (t.postTo (t.qFn q) 0x0002 [t.fld F.HIF_Q_FN_LOCAL q, code]).onlyFields_raiseBoth irqHost
  have hrest := State.onlyFields_trans (State.onlyFields_same (State.onlyFields_refl t _) (hposted .fields (by decide))) hraised
  have hset : s.onlyFields t [F.HIF_Q_STATUS_STATE, F.HIF_Q_STATUS_ERR, F.INTC_PEND, F.INTC_MERGECNT] :=
    State.onlyFields_setFld (State.onlyFields_setFld (State.onlyFields_refl s _) (by decide)) (by decide)
  refine ⟨(hrest.fld q (by decide)).trans ?_, (hrest.fld q (by decide)).trans ?_, ?_, State.onlyFields_then hset hrest (by decide)⟩
  · exact (State.fld_setFld_of_code _ _ _ _ _ _ (by decide) (by decide) (by decide)).trans (State.fld_setFld_same ..)
  · exact (State.fld_setFld_same ..).trans (Nat.mod_eq_of_lt hcode)
  · exact (State.queue_raiseBoth ..).trans (t.queue_postTo ..)

/-! Failed reads of host memory (R308, R316). -/

/-- A second failed read in a row of an ACTIVE queue's submissions ends in ERROR. -/
theorem State.hostReadFails_submission {s : State} {q kind : Nat} (hkind : kind ≠ 4) (hstate : s.qState q = qActive)
    (hfails : (s.queue q).readFails ≠ 0) :
    s.hostReadFails (.submission q) kind = (s.count F.HIF_CPLTOCNT).queueError q 0x11 := by
  have hstate' : (s.count F.HIF_CPLTOCNT).qState q = qActive :=
    (State.fld_count_of_code _ _ _ _ _ _ (by decide) (by decide) (by decide)).trans hstate
  have hfails' : ((s.count F.HIF_CPLTOCNT).queue q).readFails ≠ 0 := hfails
  unfold State.hostReadFails
  dsimp only
  rw [if_neg hkind, if_neg (by simp [hstate']), if_neg hfails']

/-- A failed read of a prompt is counted first. -/
theorem State.hostReadFails_prompt (s : State) (p tag kind : Nat) :
    ∃ u : State, u.serve = s.serve ∧ s.hostReadFails (.prompt p tag) kind = u.promptFails p tag kind := by
  unfold State.hostReadFails
  split
  · exact ⟨s.count F.HIF_POISONCNT, rfl, rfl⟩
  · exact ⟨s.count F.HIF_CPLTOCNT, rfl, rfl⟩

/-- A request changed in place is found under its tag as changed. -/
theorem ServeSt.req_onReq (x : ServeSt) (tag tag' : Nat) {g : Req → Req} (hg : ∀ r, (g r).sub = r.sub) :
    (x.onReq tag' g).req tag = (x.req tag).map fun r => if r.sub.tag = tag' then g r else r := by
  have hsub : ∀ r : Req, (if r.sub.tag = tag' then g r else r).sub = r.sub := fun r => by
    split
    · exact hg r
    · rfl
  simp only [ServeSt.req, ServeSt.onReq, List.find?_map, Function.comp_def, hsub]

theorem ServeSt.tag_of_req {x : ServeSt} {tag : Nat} {r : Req} (h : x.req tag = some r) : r.sub.tag = tag := by
  simpa using List.find?_some h

theorem ServeSt.req_onReq_same {x : ServeSt} {tag : Nat} {r : Req} {g : Req → Req} (hg : ∀ r, (g r).sub = r.sub) (h : x.req tag = some r) :
    (x.onReq tag g).req tag = some (g r) := by
  rw [x.req_onReq tag tag hg, h, Option.map_some, if_pos (ServeSt.tag_of_req h)]

/-- The fourth failed read of a prompt gives its request up. -/
theorem State.promptFails_fourth {s : State} {p tag kind : Nat} {r : Req} (h : (s.srv p).req tag = some r) (hfails : r.readFails = 3) :
    ((s.promptFails p tag kind).srv p).req tag = some { r with readFails := 4, gaveUp := r.gaveUp || true } := by
  unfold State.promptFails
  rw [h]
  dsimp only
  rw [hfails, if_pos rfl, State.srv_postTo, State.srv_onSrv_same]
  exact ServeSt.req_onReq_same (fun _ => rfl) h

/-! DOORBELL_POLL (R301, R306). -/

/-- The function of a queue may send and is not being reset, and the queue is ACTIVE: its doorbells count. -/
structure State.polls (s : State) (q : Nat) : Prop where
  active : s.qState q = qActive
  bus : s.busMaster (s.qFn q) = true
  noReset : s.flag F.HIF_FN_STATE_FLR (s.qFn q) = false

section Poll
variable {s : State} {r : DoorRead}

theorem State.polls.not_skipped (h : s.polls r.q) :
    (decide (s.qState r.q = qDisabled) || !s.busMaster (s.qFn r.q) || s.flag F.HIF_FN_STATE_FLR (s.qFn r.q)) = false := by
  rw [h.active, h.bus, h.noReset]
  rfl

/-- An index beyond its ring puts the queue in ERROR. -/
theorem State.pollQueue_errs (h : s.polls r.q) (hbad : s.sqSize r.q ≤ r.sqTail ∨ s.cqSize r.q ≤ r.cqHead) :
    s.pollQueue r = s.queueError r.q 0x10 := by
  unfold State.pollQueue
  dsimp only
  rw [h.not_skipped, if_neg (by decide), if_pos, if_pos h.active]
  rcases hbad with hbad | hbad <;> simp [hbad]

/-- The queue with the CQ_HEAD read, and the new submissions copied. -/
def QueueSt.copying (x : QueueSt) (cqHead : Nat) (new : List Bytes) : QueueSt := { x with head := cqHead, copied := x.copied ++ new, readFails := 0 }

/-- The poll copies new submissions: SQ_HEAD moves past them, and their owner is told. -/
def State.copies (s : State) (q cqHead k : Nat) (new : List Bytes) : State :=
  let t := (s.setQueue q { s.queue q with head := cqHead }).setQueue q ((s.queue q).copying cqHead new)
  (t.setFld F.HIF_Q_STATUS_SQ_HEAD ((s.fld F.HIF_Q_STATUS_SQ_HEAD q + new.length) % s.sqSize q) q).raiseBoth (irqSubmissions + k)

/-- Indices within their rings, no refusal waiting and a running owner: up to 32 new submissions are copied. -/
theorem State.pollQueue_copies {k : Nat} {new : List Bytes} (h : s.polls r.q) (hsq : r.sqTail < s.sqSize r.q) (hcq : r.cqHead < s.cqSize r.q)
    (hahead : ringAhead (s.cqSize r.q) (s.queue r.q).head r.cqHead ≤ ringAhead (s.cqSize r.q) (s.queue r.q).head (s.queue r.q).tail)
    (hwait : (s.queue r.q).waiting.any (·.refusal) = false) (howner : s.owner r.q = some k) (hruns : s.rcoreRuns k = true)
    (htake : r.subs.take (min 32 (ringAhead (s.sqSize r.q) (s.fld F.HIF_Q_STATUS_SQ_HEAD r.q) r.sqTail)) = new) (hnew : new ≠ []) :
    s.pollQueue r = s.copies r.q r.cqHead k new := by
  obtain ⟨hstate, -, -, -, -, hown, hrun⟩ := (s.onlyFields_setQueue r.q { s.queue r.q with head := r.cqHead }).queueViews (by decide) r.q
  obtain ⟨-, -, -, -, -, hown', -⟩ := ((s.setQueue r.q { s.queue r.q with head := r.cqHead }).onlyFields_setQueue r.q
    ((s.queue r.q).copying r.cqHead new)).queueViews (by decide) r.q
  unfold State.pollQueue
  dsimp only
  rw [h.not_skipped, if_neg (by decide), if_neg (by simp; omega), hstate, hown, howner]
  rw [if_neg (by simp [h.active, hwait, hrun, hruns]), htake, if_neg (by simpa using hnew), State.queue_setQueue_same]
  exact congrArg (State.raiseBoth _) (congrArg (fun o : Option Nat => irqSubmissions + o.getD 0) (hown'.trans (hown.trans howner)))

/-- Afterwards the queue holds the new submissions, STATE is as it was, and SQ_HEAD has moved. -/
theorem State.copies_shows (s : State) (q cqHead k : Nat) (new : List Bytes) :
    (s.copies q cqHead k new).queue q = (s.queue q).copying cqHead new ∧ (s.copies q cqHead k new).qState q = s.qState q ∧
      (s.copies q cqHead k new).fld F.HIF_Q_STATUS_SQ_HEAD q =
        (s.fld F.HIF_Q_STATUS_SQ_HEAD q + new.length) % s.sqSize q % 2 ^ F.HIF_Q_STATUS_SQ_HEAD.width := by
  unfold State.copies
  extract_lets t
  refine ⟨(State.queue_raiseBoth ..).trans (State.queue_setQueue_same ..), (State.fld_raiseBoth _ _ _ _ (by decide)).trans ?_,
    (State.fld_raiseBoth _ _ _ _ (by decide)).trans (State.fld_setFld_same ..)⟩
  refine (State.fld_setFld_of_code _ _ _ _ _ _ (by decide) (by decide) (by decide)).trans ?_
  exact (State.qState_setQueue ..).trans (State.qState_setQueue ..)


end Poll

/-! The messages of the refusals of the interval before (R311): they change of a queue whether it has told of its refusals. -/

/-- A queue that has told of its refusals. -/
def QueueSt.untold (x : QueueSt) : QueueSt := { x with refused := false }

theorem QueueSt.eq_of_untold {x y : QueueSt} (h : x.untold = y.untold) : x = { y with refused := x.refused } := by
  cases x
  cases y
  simpa [QueueSt.untold] using h

theorem State.onlyMessages.queue {s t : State} (h : s.onlyMessages t) (q : Nat) : t.queue q = s.queue q := by
  obtain ⟨_, _, rfl⟩ := h
  rfl

/-- Two states a poll sees alike: of the fields STATUS.HELD alone may differ, of a queue whether it has told of its refusals. -/
structure State.samePolling (s t : State) : Prop where
  fields : s.onlyFields t [F.HIF_Q_STATUS_HELD]
  retraining : t.host.retraining = s.host.retraining
  queue : ∀ q, (t.queue q).untold = (s.queue q).untold

section Told
variable {s t : State}

theorem State.samePolling_refl (s : State) : s.samePolling s := ⟨State.onlyFields_refl s _, rfl, fun _ => rfl⟩

theorem State.samePolling.trans {u : State} (h : s.samePolling t) (h' : t.samePolling u) : s.samePolling u :=
  ⟨State.onlyFields_trans h.fields h'.fields, h'.retraining.trans h.retraining, fun q => (h'.queue q).trans (h.queue q)⟩

theorem State.onlyMessages.samePolling (h : s.onlyMessages t) : s.samePolling t :=
  ⟨State.onlyFields_same (State.onlyFields_refl s _) h.fields, h.retraining, fun q => by rw [h.queue]⟩

theorem State.samePolling_untold (s : State) (q : Nat) : s.samePolling (s.setQueue q (s.queue q).untold) := by
  refine ⟨s.onlyFields_setQueue q _, rfl, fun b => ?_⟩
  by_cases hb : b = q
  · subst hb
    rw [State.queue_setQueue_same]
    rfl
  · rw [State.queue_setQueue_ne s q _ hb]

theorem State.samePolling_refusalMsi (s : State) (q : Nat) : s.samePolling (s.refusalMsi q) := by
  unfold State.refusalMsi
  dsimp only
  split
  · exact (s.samePolling_untold q).trans (State.onlyMessages_msi ..).samePolling
  · exact s.samePolling_refl

/-- The fields a poll looks at read alike. -/
theorem State.samePolling.polls {q : Nat} (h : s.samePolling t) (hs : s.polls q) : t.polls q := by
  obtain ⟨hactive, hbus, hreset⟩ := hs
  obtain ⟨hstate, hfn, -⟩ := h.fields.queueViews (by decide) q
  have hflag : ∀ f : Fld, ∀ i, f.code % 1024 ∉ [F.HIF_Q_STATUS_HELD].map (·.code) → t.flag f i = s.flag f i :=
    fun f i hf => congrArg (· == 1) (h.fields.fld i hf)
  refine ⟨hstate.trans hactive, ?_, ?_⟩
  · rw [hfn, State.busMaster, hflag _ _ (by decide), hflag _ _ (by decide), hflag _ _ (by decide), h.retraining]
    exact hbus
  · rw [hfn, hflag _ _ (by decide)]
    exact hreset

end Told

/-- A poll has begun: its time is noted, and the messages of the refusals before have gone out. -/
def State.pollBegun (s : State) : State :=
  (s.host.queues.map (·.1)).foldl (fun (s : State) q => s.refusalMsi q) (s.onHost fun h => { h with lastPoll := some s.now })

theorem State.samePolling_pollBegun (s : State) : s.samePolling s.pollBegun := by
  have hnoted : s.samePolling (s.onHost fun h => { h with lastPoll := some s.now }) :=
    ⟨State.onlyFields_same (State.onlyFields_refl s _) rfl, rfl, fun _ => rfl⟩
  exact List.foldlRecOn (motive := fun t => s.samePolling t) _ _ hnoted fun t ht q _ => ht.trans (t.samePolling_refusalMsi q)

theorem State.doorbellPoll_rests {s : State} (h : s.pollDue s.host.lastPoll = false ∨ s.isOff = true) (reads : List DoorRead) :
    s.doorbellPoll reads = s := if_pos (by rcases h with h | h <;> simp [h])

theorem State.doorbellPoll_due {s : State} (hdue : s.pollDue s.host.lastPoll = true) (hon : s.isOff = false) (r : DoorRead) :
    s.doorbellPoll [r] = s.pollBegun.pollQueue r := if_neg (by simp [hdue, hon])

section Due
variable {s : State} {r : DoorRead} (hdue : s.pollDue s.host.lastPoll = true) (hon : s.isOff = false) (h : s.polls r.q)
include hdue hon h

theorem State.doorbellPoll_errs (hbad : s.sqSize r.q ≤ r.sqTail ∨ s.cqSize r.q ≤ r.cqHead) :
    (s.doorbellPoll [r]).qState r.q = qError ∧ (s.doorbellPoll [r]).fld F.HIF_Q_STATUS_ERR r.q = 0x10 ∧
      ((s.doorbellPoll [r]).queue r.q).copied = (s.queue r.q).copied := by
  have hsame := s.samePolling_pollBegun
  obtain ⟨-, -, -, hsq, hcq, -⟩ := hsame.fields.queueViews (by decide) r.q
  have hqueue := QueueSt.eq_of_untold (hsame.queue r.q)
  obtain ⟨hstate, herr, hheld, -⟩ := s.pollBegun.queueError_errs r.q (code := 0x10) (by decide)
  rw [State.doorbellPoll_due hdue hon, State.pollQueue_errs (hsame.polls h) (by rw [hsq, hcq]; exact hbad)]
  exact ⟨hstate, herr, by rw [hheld, hqueue]⟩

theorem State.doorbellPoll_copies {k n : Nat} (hsq : r.sqTail < s.sqSize r.q) (hcq : r.cqHead < s.cqSize r.q)
    (hahead : ringAhead (s.cqSize r.q) (s.queue r.q).head r.cqHead ≤ ringAhead (s.cqSize r.q) (s.queue r.q).head (s.queue r.q).tail)
    (hwait : (s.queue r.q).waiting.any (·.refusal) = false) (howner : s.owner r.q = some k) (hruns : s.rcoreRuns k = true)
    (hn : min 32 (ringAhead (s.sqSize r.q) (s.fld F.HIF_Q_STATUS_SQ_HEAD r.q) r.sqTail) = n) (hlen : n ≤ r.subs.length) (hpos : 0 < n) :
    ((s.doorbellPoll [r]).queue r.q).copied = (s.queue r.q).copied ++ r.subs.take n ∧ ((s.doorbellPoll [r]).queue r.q).head = r.cqHead ∧
      (s.doorbellPoll [r]).qState r.q = qActive ∧ (s.doorbellPoll [r]).fld F.HIF_Q_STATUS_SQ_HEAD r.q =
        (s.fld F.HIF_Q_STATUS_SQ_HEAD r.q + n) % s.sqSize r.q % 2 ^ F.HIF_Q_STATUS_SQ_HEAD.width := by
  have hsame := s.samePolling_pollBegun
  obtain ⟨-, -, -, hsqSize, hcqSize, hown, hrun⟩ := hsame.fields.queueViews (by decide) r.q
  have hhead := hsame.fields.fld (f := F.HIF_Q_STATUS_SQ_HEAD) r.q (by decide)
  have hqueue := QueueSt.eq_of_untold (hsame.queue r.q)
  have htaken : (r.subs.take n).length = n := List.length_take_of_le hlen
  have hnew : r.subs.take n ≠ [] := fun hnil => by rw [hnil, List.length_nil] at htaken; omega
  have hpolls := hsame.polls h
  obtain ⟨hcopied, hstate, hmoved⟩ := s.pollBegun.copies_shows r.q r.cqHead k (r.subs.take n)
  rw [State.doorbellPoll_due hdue hon, State.pollQueue_copies (k := k) (new := r.subs.take n) hpolls (by rw [hsqSize]; exact hsq)
    (by rw [hcqSize]; exact hcq) (by rw [hcqSize, hqueue]; exact hahead) (by rw [hqueue]; exact hwait) (by rw [hown]; exact howner)
    (by rw [hrun]; exact hruns) (by rw [hsqSize, hhead, hn]) hnew]
  refine ⟨?_, by rw [hcopied]; rfl, hstate.trans hpolls.active, by rw [hmoved, hhead, hsqSize, htaken]⟩
  rw [hcopied, hqueue]
  rfl

end Due

/-- Settles O42: enabling, draining, polling, completions and failed reads, clause by clause. -/
theorem queuesWork : Obligations.QueuesWork := by
  unfold Obligations.QueuesWork
  intro s q hq
  have hcount : decide (q < queueCount) = true := decide_eq_true hq
  refine ⟨fun fn hfn hopen hsel => ?_, fun reads hreads h => ?_, fun r hr hdue hon hactive hbus hreset => ?_, fun h => ?_,
    fun x rest hwait hstate hfull hbus => ?_, rfl, fun kind hkind hstate hfails => ?_, fun p tag kind r hp hreq hfails => ?_⟩
  · have hpath : (Path.host fn).ok = true := decide_eq_true hfn
    rw [exec_queueEnable, exec_queueDrain, within_next hpath, within_next hpath]
    refine ⟨fun hrole => ⟨congrArg _ (State.queueEnable_low hsel hopen hrole), congrArg _ (State.queueDrain_low hsel hopen hrole)⟩,
      fun hrole hdis => ⟨fun hbad => ?_, fun hgood => ⟨_, rfl, ?_⟩⟩, fun hrole hdis => ?_, fun hrole hlive => ⟨_, rfl, ?_⟩⟩
    · rw [State.queueEnable_accepted hsel hopen hrole]
      exact congrArg _ ((if_neg (not_not_intro hdis)).trans (if_pos hbad))
    · have hstart := (s.audit fn 0xFFFF 0 0 (qCtlAddr (.host fn))).onlyIn_queueStart q
      obtain ⟨hactive, herr, hhead, hempty, howner⟩ := (s.audit fn 0xFFFF 0 0 (qCtlAddr (.host fn))).queueStart_starts q
      rw [State.queueEnable_accepted hsel hopen hrole, if_neg (not_not_intro hdis), if_neg (not_not_intro hgood)]
      exact ⟨hactive, herr, hhead, hempty, howner,
        State.onlyIn_then (State.onlyIn_mono (s.onlyIn_audit _ _ _ _ _ _) (by decide)) hstart (by decide)⟩
    · rw [State.queueEnable_accepted hsel hopen hrole]
      exact congrArg _ (if_pos hdis)
    · obtain ⟨hdraining, hcancels, hframe, hothers⟩ := (s.audit fn 0xFFFF 0 0 (qCtlAddr (.host fn))).drains_of_cancels q
      rw [State.queueDrain_drains hsel hopen hrole hlive]
      exact ⟨hdraining, hcancels, hframe, hothers⟩
  · have hall : (reads.all fun r => decide (r.q < queueCount)) = true := List.all_eq_true.2 fun r hr => decide_eq_true (hreads r hr)
    rw [exec_doorbellPoll, within_next hall, State.doorbellPoll_rests h]
  · subst hr
    rw [exec_doorbellPoll, within_next (List.all_eq_true.2 fun r' hr' => by rw [List.mem_singleton.1 hr']; exact hcount)]
    exact ⟨fun hbad => ⟨_, rfl, State.doorbellPoll_errs hdue hon ⟨hactive, hbus, hreset⟩ hbad⟩,
      fun k hsq hcq hahead hwait howner hruns hlen hpos =>
        ⟨_, rfl, State.doorbellPoll_copies hdue hon ⟨hactive, hbus, hreset⟩ hsq hcq hahead hwait howner hruns rfl hlen hpos⟩⟩
  · rw [exec_heldCompletionWrite, within_next hcount, State.writeHeld_keeps h]
  · rw [exec_heldCompletionWrite, within_next hcount, State.writeHeld_writes hwait hstate hfull hbus]
    obtain ⟨hwaiting, hring, htail⟩ := (s.setQueue q { s.queue q with waiting := rest }).queue_writeEntry q x
    rw [State.queue_setQueue_same] at hwaiting hring htail
    rw [State.cqSize_setQueue] at htail
    exact ⟨_, rfl, hwaiting, hring, htail, State.onlyIn_trans (s.onlyIn_setQueue q _) (State.onlyIn_setQueue _ q _),
      State.onlyFields_trans (s.onlyFields_setQueue q _) (State.onlyFields_setQueue _ q _)⟩
  · obtain ⟨herror, hcode, -, hfields⟩ := (s.count F.HIF_CPLTOCNT).queueError_errs q (code := 0x11) (by decide)
    rw [exec_completionTimeout, State.hostReadFails_submission hkind hstate hfails]
    exact ⟨_, within_next hcount, herror, hcode, (hfields.fld 0 (by decide)).trans (State.fld_count_same ..)⟩
  · obtain ⟨u, hserve, hread⟩ := s.hostReadFails_prompt p tag kind
    have hreq' : (u.srv p).req tag = some r := by rw [State.srv_of_serve hserve, hreq]
    rw [exec_completionTimeout, hread]
    exact ⟨_, _, within_next (decide_eq_true hp), State.promptFails_fourth hreq' hfails, Bool.or_true _, rfl⟩

end Sys2Proof.Machine

/-!
PROOFS of the statement on resets of functions and of the host link (09_host_interface R295, R310, R317, R318; 14_power_clocks_startup R459;
15_update_and_roles R488).
-/

namespace Sys2Proof.Machine

/-! What a reset of functions may change (R317): what it clears stays cleared, and requests keep their place. -/

/-- The fields that resets of functions set to nothing but 0. -/
def clearedFlds : List Fld :=
  [F.HIF_Q_STATUS_STATE, F.RGR_QMAP_DATA_OWNED, F.SEC_FN_ROLE_ROLE, F.HIF_FN_STATE_BME, F.HIF_FN_STATE_D3]

/-- `t` comes of `s` by resets of functions: the components and fields they write, the fields they clear, queues they empty; a request
stays with its queue, and one that ends with CANCELLED goes on to end so. -/
structure State.resets (s t : State) : Prop where
  parts : s.onlyIn t [.fields, .host, .sec, .serve, .link]
  fields : s.onlyFields t functionFlds
  cleared : ∀ f ∈ clearedFlds, ∀ i, s.fld f i = 0 → t.fld f i = 0
  emptied : ∀ q, s.queue q = .init → t.queue q = .init
  requests : ∀ p tag r, (s.srv p).req tag = some r →
    ∃ r', (t.srv p).req tag = some r' ∧ r'.queue = r.queue ∧ (r.ending = some 0x04 → r'.ending = some 0x04)

theorem State.resets_refl (s : State) : s.resets s :=
  ⟨State.onlyIn_refl s _, State.onlyFields_refl s _, fun _ _ _ h => h, fun _ h => h, fun _ _ r h => ⟨r, h, rfl, fun h => h⟩⟩

section
variable {s t : State}

theorem State.resets.trans {u : State} (h : s.resets t) (h' : t.resets u) : s.resets u := by
  refine ⟨State.onlyIn_trans h.parts h'.parts, State.onlyFields_trans h.fields h'.fields, fun f hf i hi => h'.cleared f hf i (h.cleared f hf i hi),
    fun q hq => h'.emptied q (h.emptied q hq), fun p tag r hr => ?_⟩
  obtain ⟨r₁, hr₁, hqueue₁, hend₁⟩ := h.requests p tag r hr
  obtain ⟨r₂, hr₂, hqueue₂, hend₂⟩ := h'.requests p tag r₁ hr₁
  exact ⟨r₂, hr₂, hqueue₂.trans hqueue₁, fun he => hend₂ (hend₁ he)⟩

theorem State.resets.foldl {α : Type} {f : State → α → State} (hf : ∀ (t : State) a, t.resets (f t a)) (l : List α) (s : State) :
    s.resets (l.foldl f s) :=
  List.foldlRecOn (motive := fun t => s.resets t) l _ s.resets_refl fun _ ht a _ => ht.trans (hf _ a)

/-- The numbers of the queues' functions and pitches stand. -/
theorem State.resets.places (h : s.resets t) (q : Nat) : t.qFn q = s.qFn q ∧ t.qPitch q = s.qPitch q := by
  have hfn := h.fields.fld (f := F.HIF_Q_FN_FN) q (by decide)
  refine ⟨hfn, ?_⟩
  rw [State.qPitch, State.qFn, hfn, h.fields.fld (f := F.HIF_Q_FN_PITCH) q (by decide)]
  rfl

/-- Updates of windows, vectors, the security records and the link. -/
theorem State.resets_of_quiet (hparts : s.onlyIn t [.host, .sec, .link]) (hqueues : t.host.queues = s.host.queues) : s.resets t := by
  have hfields := hparts .fields (by decide)
  have hserve := State.srv_of_serve (hparts .serve (by decide))
  refine ⟨State.onlyIn_mono hparts (by decide), State.onlyFields_same (State.onlyFields_refl s _) hfields, fun f _ i hi => ?_, fun q hq => ?_,
    fun p tag r hr => ⟨r, ?_, rfl, fun h => h⟩⟩
  · rw [State.fld_of_fields hfields, hi]
  · rw [State.queue, hqueues]
    exact hq
  · rw [hserve, hr]

/-- A further field of a reset, which it may set to anything. -/
theorem State.resets_setFld (s : State) (f : Fld) (v i : Nat) (hf : f.code % 1024 ∈ functionFlds.map (·.code))
    (hother : ∀ g ∈ clearedFlds, g.code % 1024 ≠ f.code % 1024) : s.resets (s.setFld f v i) := by
  refine ⟨State.onlyIn_setFld (State.onlyIn_refl s _) (by decide), State.onlyFields_setFld (State.onlyFields_refl s _) hf, fun g hg j hj => ?_,
    fun _ h => h, fun _ _ r h => ⟨r, h, rfl, fun h => h⟩⟩
  rw [State.fld_setFld_key _ _ _ _ _ _ fun hkey => hother g hg (by rw [← Fld.key_mod g j, hkey, Fld.key_mod]), hj]

theorem clearedFlds_apart : ∀ f ∈ clearedFlds, ∀ g ∈ clearedFlds, g ≠ f → g.code % 1024 ≠ f.code % 1024 := by decide

theorem clearedFlds_written : ∀ f ∈ clearedFlds, f.code % 1024 ∈ functionFlds.map (·.code) := by decide

/-- A field that a reset clears. -/
theorem State.resets_clear (s : State) (f : Fld) (i : Nat) (hf : f ∈ clearedFlds) : s.resets (s.setFld f 0 i) := by
  refine ⟨State.onlyIn_setFld (State.onlyIn_refl s _) (by decide), State.onlyFields_setFld (State.onlyFields_refl s _) (clearedFlds_written f hf),
    fun g hg j hj => ?_, fun _ h => h, fun _ _ r h => ⟨r, h, rfl, fun h => h⟩⟩
  by_cases hgf : g = f
  · subst hgf
    by_cases hij : j = i
    · subst hij
      rw [State.fld_setFld_same, Nat.zero_mod]
    · rw [State.fld_setFld_place _ _ _ _ _ hij, hj]
  · rw [State.fld_setFld_key _ _ _ _ _ _ fun hkey => clearedFlds_apart f hf g hg hgf (by rw [← Fld.key_mod g j, hkey, Fld.key_mod]), hj]

/-- A queue is emptied. -/
theorem State.resets_emptyQueue (s : State) (q : Nat) : s.resets (s.setQueue q .init) := by
  have hheld : ∀ f ∈ clearedFlds, f.code % 1024 ∉ [F.HIF_Q_STATUS_HELD].map (·.code) := by decide
  refine ⟨State.onlyIn_mono (s.onlyIn_setQueue q .init) (by decide),
    State.onlyFields_then (State.onlyFields_refl s _) (s.onlyFields_setQueue q .init) (by decide), fun f hf i hi => ?_, fun b hb => ?_,
    fun _ _ r h => ⟨r, h, rfl, fun h => h⟩⟩
  · rw [s.fld_setQueue q .init f i (hheld f hf), hi]
  · by_cases hbq : b = q
    · rw [hbq, State.queue_setQueue_same]
    · rw [s.queue_setQueue_ne q .init hbq, hb]

/-- A queue is DISABLED, empty and without an owner. -/
theorem State.resets_queueOff (s : State) (q : Nat) : s.resets (s.queueOff q) := by
  unfold State.queueOff State.countQueues State.setOwner
  exact ((((s.resets_clear F.HIF_Q_STATUS_STATE q (by decide)).trans (State.resets_emptyQueue _ q)).trans
    (State.resets_clear _ F.RGR_QMAP_DATA_OWNED q (by decide))).trans (State.resets_setFld _ F.RGR_QMAP_DATA_RCORE 0 q (by decide) (by decide))).trans
    (State.resets_setFld _ F.HIF_FN_STATE_QUEUES _ _ (by decide) (by decide))

/-! Requests that lose their queue (R317). -/

/-- A request is to end with CANCELLED. -/
def Req.cancelled (r : Req) : Req := { r with ending := some 0x04 }

theorem State.resets_cancelled (s : State) (p tag : Nat) : s.resets (s.onSrv p fun x => x.onReq tag Req.cancelled) := by
  refine ⟨State.onlyIn_mono (s.onlyIn_onSrv p _) (by decide), State.onlyFields_same (State.onlyFields_refl s _) rfl, fun _ _ _ h => h, fun _ h => h,
    fun p' tag' r hr => ?_⟩
  by_cases hp : p' = p
  · subst hp
    rw [State.srv_onSrv_same, ServeSt.req_onReq (g := Req.cancelled) _ _ _ fun _ => rfl, hr, Option.map_some]
    split
    · exact ⟨_, rfl, rfl, fun _ => rfl⟩
    · exact ⟨_, rfl, rfl, fun h => h⟩
  · exact ⟨r, ((s.onlyPitch_onSrv p _) p' hp).symm ▸ hr, rfl, fun h => h⟩

theorem State.resets_sendMsg (s : State) (part type : Nat) (fields : List Nat) : s.resets (s.sendMsg part type fields) := by
  have hparts := s.onlyIn_sendMsg part type fields []
  have hhost : (s.sendMsg part type fields).host = s.host := hparts .host (by decide)
  exact State.resets_of_quiet (State.onlyIn_mono hparts (by decide)) (by rw [hhost])

theorem State.reqReset_some {p tag : Nat} {r : Req} (h : (s.srv p).req tag = some r) :
    s.reqReset p tag = let t := s.onSrv p fun x => x.onReq tag Req.cancelled
      if r.sub.entry && r.sub.exit then t else t.sendMsg r.sub.partner 0x0103 [p, tag] := by
  rw [State.reqReset, h]
  rfl

theorem State.resets_reqReset (s : State) (p tag : Nat) : s.resets (s.reqReset p tag) := by
  cases hreq : (s.srv p).req tag with
  | none =>
    rw [State.reqReset, hreq]
    exact s.resets_refl
  | some r =>
    rw [State.reqReset_some hreq]
    dsimp only
    split
    · exact s.resets_cancelled p tag
    · exact (s.resets_cancelled p tag).trans (State.resets_sendMsg ..)

/-- The request so reset ends with CANCELLED. -/
theorem State.reqReset_ends {p tag : Nat} {r : Req} (h : (s.srv p).req tag = some r) :
    ∃ r', ((s.reqReset p tag).srv p).req tag = some r' ∧ r'.ending = some 0x04 := by
  have hcancelled : ((s.onSrv p fun x => x.onReq tag Req.cancelled).srv p).req tag = some r.cancelled := by
    rw [State.srv_onSrv_same]
    exact ServeSt.req_onReq_same (fun _ => rfl) h
  rw [State.reqReset_some h]
  dsimp only
  split
  · exact ⟨_, hcancelled, rfl⟩
  · obtain ⟨r', hr', -, hend⟩ := (State.resets_sendMsg _ r.sub.partner 0x0103 [p, tag]).requests p tag _ hcancelled
    exact ⟨r', hr', hend rfl⟩

/-! A queue whose function is reset (R317). -/

/-- Every request taken through the queue is to end, and the queue is off. -/
def State.queueReset (s : State) (q : Nat) : State := ((s.queueReqs q).foldl (fun (s : State) r => s.reqReset r.1 r.2) s).queueOff q

/-- A queue that is off: DISABLED, empty, without an owner. -/
structure State.queueGone (s : State) (q : Nat) : Prop where
  disabled : s.fld F.HIF_Q_STATUS_STATE q = 0
  empty : s.queue q = .init
  unowned : s.fld F.RGR_QMAP_DATA_OWNED q = 0

theorem State.resets.queueGone {q : Nat} (h : s.resets t) (hq : s.queueGone q) : t.queueGone q :=
  ⟨h.cleared _ (by decide) q hq.disabled, h.emptied q hq.empty, h.cleared _ (by decide) q hq.unowned⟩

theorem State.queueGone.owner {q : Nat} (h : s.queueGone q) : s.owner q = none := by
  rw [State.owner, State.flag, h.unowned]
  rfl

theorem State.queueOff_gone (s : State) (q : Nat) : (s.queueOff q).queueGone q := by
  unfold State.queueOff
  extract_lets fn
  have hcounted := State.onlyFields_countQueues (((s.setFld F.HIF_Q_STATUS_STATE qDisabled q).setQueue q .init).setOwner q none) fn
  have howned := State.onlyFields_setOwner ((s.setFld F.HIF_Q_STATUS_STATE qDisabled q).setQueue q .init) q none
  refine ⟨(hcounted.fld q (by decide)).trans ((howned.fld q (by decide)).trans ?_), ?_, (hcounted.fld q (by decide)).trans ?_⟩
  · exact (State.qState_setQueue ..).trans (State.fld_setFld_same ..)
  · have howner := ((s.setFld F.HIF_Q_STATUS_STATE qDisabled q).setQueue q .init).onlyIn_setOwner q none .host (by decide)
    exact (State.queue_of_host ((State.countQueues_host _ fn).trans howner) q).trans (State.queue_setQueue_same ..)
  · exact (State.fld_setFld_of_code _ _ _ _ _ _ (by decide) (by decide) (by decide)).trans (State.fld_setFld_same ..)

theorem State.resets_requests (s : State) (rs : List (Nat × Nat)) : s.resets (rs.foldl (fun (s : State) r => s.reqReset r.1 r.2) s) :=
  State.resets.foldl (fun t r => t.resets_reqReset r.1 r.2) rs s

theorem State.resets_queueReset (s : State) (q : Nat) : s.resets (s.queueReset q) := (s.resets_requests _).trans (State.resets_queueOff _ q)

/-- The request of a tag ends with CANCELLED. -/
def State.endsCancelled (s : State) (p tag : Nat) : Prop := ∃ r, (s.srv p).req tag = some r ∧ r.ending = some 0x04

theorem State.resets.endsCancelled {p tag : Nat} (h : s.resets t) (hs : s.endsCancelled p tag) : t.endsCancelled p tag := by
  obtain ⟨r, hr, hend⟩ := hs
  obtain ⟨r', hr', -, hend'⟩ := h.requests p tag r hr
  exact ⟨r', hr', hend' hend⟩

/-- A request of the queue ends with it. -/
theorem State.queueReset_ends {q : Nat} {r : Req} (hreq : (s.srv (s.qPitch q)).req r.sub.tag = some r) (hq : r.queue = q) :
    (s.queueReset q).endsCancelled (s.qPitch q) r.sub.tag := by
  have hmem : (s.qPitch q, r.sub.tag) ∈ s.queueReqs q := by
    rw [State.queueReqs_eq]
    exact List.mem_map_of_mem (State.mem_queueTags (List.mem_of_find?_eq_some hreq) hq)
  refine (State.resets_queueOff _ q).endsCancelled ?_
  refine foldl_mem (fun t : State => s.resets t) (fun t : State => t.endsCancelled (s.qPitch q) r.sub.tag)
    (fun t b ht => ht.trans (t.resets_reqReset b.1 b.2)) (fun t ht => ?_) (fun t b _ h => (t.resets_reqReset b.1 b.2).endsCancelled h)
    hmem s.resets_refl
  obtain ⟨r', hr', -⟩ := ht.requests _ _ r hreq
  exact State.reqReset_ends hr'


/-! Steps 1 to 6 of R317 on one function. -/

/-- The queues lent to a function that are not DISABLED. -/
def State.liveQueues (s : State) (fn : Nat) : List Nat := (List.range queueCount).filter fun q => s.qFn q == fn && s.qState q != qDisabled

/-- Every queue lent to a function is reset. -/
def State.queuesReset (s : State) (fn : Nat) : State := (s.liveQueues fn).foldl (fun (s : State) q => s.queueReset q) s

/-- A window as a reset leaves it: as ready and as busy as before, the response of a command that executes to be discarded. -/
def WinSt.blank (w : WinSt) : WinSt := { WinSt.init with ready := w.ready, busy := w.busy, discard := w.busy }

/-- A function's window is blank, its vectors are masked and nothing is pending. -/
def State.windowReset (s : State) (fn : Nat) : State :=
  (s.setWin fn (s.win fn).blank).onHost fun h => { h with
    unmasked := SMap.dropRange h.unmasked (2048 * fn) 2048, msiPending := SMap.dropRange h.msiPending (2048 * fn) 2048 }

/-- A function may not send, and is not in D3hot. -/
def State.busReset (s : State) (fn : Nat) : State := (s.setFld F.HIF_FN_STATE_BME 0 fn).setFld F.HIF_FN_STATE_D3 0 fn

/-- The reset but for an update session of the function. -/
def State.fnCleared (s : State) (fn cause : Nat) : State := (((s.queuesReset fn).endRole fn cause).windowReset fn).busReset fn

theorem State.fnReset_cases (s : State) (fn cause : Nat) :
    s.fnReset fn cause = s.fnCleared fn cause ∨ s.fnReset fn cause = (s.fnCleared fn cause).sessionAbort := by
  unfold State.fnReset State.fnCleared State.busReset State.windowReset State.queuesReset State.liveQueues State.queueReset
  dsimp only
  split
  · exact .inr rfl
  · exact .inl rfl

theorem State.mem_liveQueues {q : Nat} {fn : Nat} (hq : q < 1024) (hfn : s.qFn q = fn) (hlive : s.qState q ≠ qDisabled) : q ∈ s.liveQueues fn :=
  List.mem_filter.2 ⟨List.mem_range.2 hq, by simp [hfn, hlive]⟩

theorem State.resets_queuesReset (s : State) (fn : Nat) : s.resets (s.queuesReset fn) := State.resets.foldl (fun t q => t.resets_queueReset q) _ s

theorem State.onlyIn_onSec (s : State) (g : SecSt → SecSt) : s.onlyIn (s.onSec g) [.sec] :=
  fun p hp => by cases p <;> first | rfl | exact absurd (by decide) hp

theorem State.resets_onSec (s : State) (g : SecSt → SecSt) : s.resets (s.onSec g) :=
  State.resets_of_quiet (State.onlyIn_mono (s.onlyIn_onSec g) (by decide)) rfl

theorem State.resets_setFnSec (s : State) (fn : Nat) (v : FnSec) : s.resets (s.setFnSec fn v) :=
  s.resets_onSec fun x => { x with fns := SMap.set .init x.fns fn v }

theorem State.resets_endRole (s : State) (fn cause : Nat) : s.resets (s.endRole fn cause) := by
  unfold State.endRole
  split
  · exact s.resets_refl
  · extract_lets t
    have haudit : s.resets t := State.resets_of_quiet (State.onlyIn_mono (s.onlyIn_audit fn 0xFFFC 0 cause 0 []) (by decide)) rfl
    refine ((haudit.trans (t.resets_clear F.SEC_FN_ROLE_ROLE fn (by decide))).trans
      (State.resets_setFld _ F.SEC_FN_ROLE_KEY 0 fn (by decide) (by decide))).trans ?_
    exact State.resets_setFnSec ..

theorem State.resets_setWin (s : State) (fn : Nat) (w : WinSt) : s.resets (s.setWin fn w) :=
  State.resets_of_quiet (State.onlyIn_setWin (State.onlyIn_refl s _) (by decide)) rfl

theorem State.resets_windowReset (s : State) (fn : Nat) : s.resets (s.windowReset fn) :=
  (s.resets_setWin fn _).trans (State.resets_of_quiet (State.onlyIn_mono (State.onlyIn_onHost _ _) (by decide)) rfl)

theorem State.resets_busReset (s : State) (fn : Nat) : s.resets (s.busReset fn) :=
  (s.resets_clear F.HIF_FN_STATE_BME fn (by decide)).trans (State.resets_clear _ F.HIF_FN_STATE_D3 fn (by decide))

theorem State.resets_respond (s : State) (c : Mgmt) (code result : Nat) (detail : Bytes) : s.resets (s.respond c code result detail) := by
  obtain ⟨w, hw⟩ := s.respond_eq_setWin c code result detail
  rw [hw]
  exact s.resets_setWin ..

theorem State.resets_auditDone (s : State) (seq result code : Nat) : s.resets (s.auditDone seq result code) :=
  (s.resets_onSec fun x => { x with log := x.log.map fun e => if e.1 = seq then (e.1, { e.2 with result := result, code := code }) else e }).trans
    (State.resets_setFld _ F.VLT_RECWRCNT _ 0 (by decide) (by decide))

theorem State.resets_sessionAbort (s : State) : s.resets s.sessionAbort := by
  unfold State.sessionAbort
  split
  · exact s.resets_refl
  extract_lets t1 t2
  have h1 : s.resets t1 := (s.resets_setFld F.UPD_ABORTCNT _ 0 (by decide) (by decide)).trans
    (State.resets_setFld _ F.UPD_STATUS_RESULT _ 0 (by decide) (by decide))
  have h2 : t1.resets t2 := by
    simp only [t2]
    split
    · split
      · exact ((t1.resets_onSec _).trans (State.resets_auditDone ..)).trans (State.resets_respond ..)
      · exact t1.resets_refl
    · exact t1.resets_refl
  exact ((h1.trans h2).trans (State.resets_onSec _ _)).trans (State.resets_setFld _ F.UPD_STATUS_SESSION 0 0 (by decide) (by decide))

/-- After its queues the reset goes on to the role, the window, the bus bits and the session. -/
theorem State.queuesReset_resets_fnReset (s : State) (fn cause : Nat) : (s.queuesReset fn).resets (s.fnReset fn cause) := by
  have hcleared : (s.queuesReset fn).resets (s.fnCleared fn cause) :=
    ((State.resets_endRole _ fn cause).trans (State.resets_windowReset _ fn)).trans (State.resets_busReset _ fn)
  rcases s.fnReset_cases fn cause with h | h <;> rw [h]
  · exact hcleared
  · exact hcleared.trans (State.resets_sessionAbort _)

theorem State.resets_fnReset (s : State) (fn cause : Nat) : s.resets (s.fnReset fn cause) :=
  (s.resets_queuesReset fn).trans (s.queuesReset_resets_fnReset fn cause)

theorem State.fnCleared_resets_fnReset (s : State) (fn cause : Nat) : (s.fnCleared fn cause).resets (s.fnReset fn cause) := by
  rcases s.fnReset_cases fn cause with h | h <;> rw [h]
  · exact State.resets_refl _
  · exact State.resets_sessionAbort _

theorem State.queuesReset_gone {fn q : Nat} (hq : q < 1024) (hfn : s.qFn q = fn) (hlive : s.qState q ≠ qDisabled) :
    (s.queuesReset fn).queueGone q := by
  rw [State.queuesReset]
  refine foldl_mem (fun _ => True) (fun t : State => t.queueGone q) (fun _ _ h => h) (fun t _ => ?_) (fun t b _ h => ?_)
    (State.mem_liveQueues hq hfn hlive) trivial
  · exact State.queueOff_gone _ q
  · exact (t.resets_queueReset b).queueGone h

/-- Every queue of the function is off. -/
theorem State.fnReset_queue {fn q : Nat} (cause : Nat) (hq : q < 1024) (hfn : s.qFn q = fn) :
    (s.fnReset fn cause).qState q = qDisabled ∧ (s.qState q ≠ qDisabled → (s.fnReset fn cause).queueGone q) := by
  have hgone : s.qState q ≠ qDisabled → (s.fnReset fn cause).queueGone q := fun hlive =>
    (s.queuesReset_resets_fnReset fn cause).queueGone (State.queuesReset_gone hq hfn hlive)
  refine ⟨?_, hgone⟩
  by_cases hlive : s.qState q = qDisabled
  · exact (s.resets_fnReset fn cause).cleared _ (by decide) q hlive
  · exact (hgone hlive).disabled

/-- Every request taken through them ends with CANCELLED. -/
theorem State.fnReset_request {fn q : Nat} {r : Req} (cause : Nat) (hq : q < 1024) (hfn : s.qFn q = fn) (hlive : s.qState q ≠ qDisabled)
    (hreq : (s.srv (s.qPitch q)).req r.sub.tag = some r) (hrq : r.queue = q) : (s.fnReset fn cause).endsCancelled (s.qPitch q) r.sub.tag := by
  refine (s.queuesReset_resets_fnReset fn cause).endsCancelled ?_
  rw [State.queuesReset]
  refine foldl_mem (fun t : State => s.resets t) (fun t : State => t.endsCancelled (s.qPitch q) r.sub.tag)
    (fun t b ht => ht.trans (t.resets_queueReset b)) (fun t ht => ?_) (fun t b _ h => (t.resets_queueReset b).endsCancelled h)
    (State.mem_liveQueues hq hfn hlive) s.resets_refl
  obtain ⟨r', hr', hqueue, -⟩ := ht.requests _ _ r hreq
  have hpitch := (ht.places q).2
  have htag : r'.sub.tag = r.sub.tag := ServeSt.tag_of_req hr'
  have hends := State.queueReset_ends (s := t) (q := q) (r := r') (by rw [hpitch, htag, hr']) (hqueue.trans hrq)
  rwa [hpitch, htag] at hends

/-- Its role is released. -/
theorem State.endRole_role (s : State) (fn cause : Nat) : (s.endRole fn cause).roleOf fn = 0 := by
  unfold State.endRole
  split
  · assumption
  · extract_lets t
    change ((t.setFld F.SEC_FN_ROLE_ROLE 0 fn).setFld F.SEC_FN_ROLE_KEY 0 fn).fld F.SEC_FN_ROLE_ROLE fn = 0
    exact (State.fld_setFld_of_code _ F.SEC_FN_ROLE_KEY F.SEC_FN_ROLE_ROLE _ _ _ (by decide) (by decide) (by decide)).trans (State.fld_setFld_same ..)

/-- The function holds no role and may not send. -/
theorem State.fnReset_function (s : State) (fn cause : Nat) :
    (s.fnReset fn cause).roleOf fn = 0 ∧ (s.fnReset fn cause).fld F.HIF_FN_STATE_BME fn = 0 ∧
      (s.fnReset fn cause).fld F.HIF_FN_STATE_D3 fn = 0 := by
  have hrest := s.fnCleared_resets_fnReset fn cause
  have hrole := ((State.resets_windowReset _ fn).trans (State.resets_busReset _ fn)).cleared F.SEC_FN_ROLE_ROLE (by decide) fn
    ((s.queuesReset fn).endRole_role fn cause)
  refine ⟨hrest.cleared _ (by decide) fn hrole, hrest.cleared _ (by decide) fn ?_, hrest.cleared _ (by decide) fn (State.fld_setFld_same ..)⟩
  exact (State.fld_setFld_of_code _ F.HIF_FN_STATE_D3 F.HIF_FN_STATE_BME _ _ _ (by decide) (by decide) (by decide)).trans (State.fld_setFld_same ..)

/-! What a reset leaves of the host interface: VF Enable, and the windows of other functions (R317). -/

/-- VF Enable, the windows, and the activation that is pending. -/
def State.hostDesk (s : State) : Bool × SMap WinSt × Option Activation := (s.host.vfEnable, s.host.win, s.sec.activation)

theorem State.hostDesk_inj (h : t.hostDesk = s.hostDesk) :
    t.host.vfEnable = s.host.vfEnable ∧ t.host.win = s.host.win ∧ t.sec.activation = s.sec.activation := by
  simpa [State.hostDesk] using h

theorem State.hostDesk_of_parts {ps : List Part} (h : s.onlyIn t ps) (hhost : Part.host ∉ ps) (hsec : Part.sec ∉ ps) :
    t.hostDesk = s.hostDesk := by
  have hh : t.host = s.host := h .host hhost
  have hs : t.sec = s.sec := h .sec hsec
  rw [State.hostDesk, hh, hs]
  rfl

theorem State.hostDesk_reqReset (s : State) (p tag : Nat) : (s.reqReset p tag).hostDesk = s.hostDesk := by
  cases hreq : (s.srv p).req tag with
  | none => rw [State.reqReset, hreq]
  | some r =>
    rw [State.reqReset_some hreq]
    dsimp only
    split
    · rfl
    · have hserve : s.onlyIn (s.onSrv p fun x => x.onReq tag Req.cancelled) [.serve, .link] := State.onlyIn_mono (s.onlyIn_onSrv p _) (by decide)
      exact State.hostDesk_of_parts (State.onlyIn_then hserve (State.onlyIn_sendMsg _ _ _ _ []) (by decide)) (by decide) (by decide)

theorem State.hostDesk_setFld (s : State) (f : Fld) (v i : Nat) : (s.setFld f v i).hostDesk = s.hostDesk := rfl
theorem State.hostDesk_setQueue (s : State) (q : Nat) (x : QueueSt) : (s.setQueue q x).hostDesk = s.hostDesk := rfl

theorem State.hostDesk_queueOff (s : State) (q : Nat) : (s.queueOff q).hostDesk = s.hostDesk := by
  simp only [State.queueOff, State.countQueues, State.setOwner, State.hostDesk_setFld, State.hostDesk_setQueue]

theorem State.hostDesk_queuesReset (s : State) (fn : Nat) : (s.queuesReset fn).hostDesk = s.hostDesk := by
  rw [State.queuesReset]
  refine foldl_same State.hostDesk (fun t q => ?_) _ s
  exact (State.hostDesk_queueOff _ q).trans (foldl_same State.hostDesk (fun u (r : Nat × Nat) => u.hostDesk_reqReset r.1 r.2) _ t)

theorem State.hostDesk_endRole (s : State) (fn cause : Nat) : (s.endRole fn cause).hostDesk = s.hostDesk := by
  unfold State.endRole
  split <;> rfl

theorem State.hostDesk_sessionAbort (h : s.sec.activation = none) : s.sessionAbort.hostDesk = s.hostDesk := by
  unfold State.sessionAbort
  split
  · rfl
  · simp only [State.setFld_sec, State.count_sec, h]
    rfl

theorem State.respond_vfEnable (s : State) (c : Mgmt) (code result : Nat) (detail : Bytes) :
    (s.respond c code result detail).host.vfEnable = s.host.vfEnable := by
  obtain ⟨w, hw⟩ := s.respond_eq_setWin c code result detail
  rw [hw]
  rfl

theorem State.sessionAbort_vfEnable (s : State) : s.sessionAbort.host.vfEnable = s.host.vfEnable := by
  unfold State.sessionAbort
  split
  · rfl
  · extract_lets t1 t2
    change t2.host.vfEnable = s.host.vfEnable
    simp only [t2]
    split
    · split
      · exact State.respond_vfEnable ..
      · rfl
    · rfl

theorem State.windowReset_desk (s : State) (fn : Nat) :
    ((s.windowReset fn).busReset fn).host.vfEnable = s.host.vfEnable ∧ ((s.windowReset fn).busReset fn).sec.activation = s.sec.activation ∧
      ((s.windowReset fn).busReset fn).win fn = (s.win fn).blank ∧ ∀ g, g ≠ fn → ((s.windowReset fn).busReset fn).win g = s.win g :=
  ⟨rfl, rfl, State.win_setWin_same .., fun _ hg => State.win_setWin_ne _ _ hg⟩

theorem State.fnCleared_desk (s : State) (fn cause : Nat) :
    (s.fnCleared fn cause).host.vfEnable = s.host.vfEnable ∧ (s.fnCleared fn cause).sec.activation = s.sec.activation ∧
      (s.fnCleared fn cause).win fn = (s.win fn).blank ∧ ∀ g, g ≠ fn → (s.fnCleared fn cause).win g = s.win g := by
  obtain ⟨hvf, hwin, hact⟩ := State.hostDesk_inj (((s.queuesReset fn).hostDesk_endRole fn cause).trans (s.hostDesk_queuesReset fn))
  have hview : ∀ g, ((s.queuesReset fn).endRole fn cause).win g = s.win g := fun g => by rw [State.win, hwin]; rfl
  obtain ⟨hvf', hact', hown, hother⟩ := ((s.queuesReset fn).endRole fn cause).windowReset_desk fn
  rw [State.fnCleared]
  exact ⟨hvf'.trans hvf, hact'.trans hact, hown.trans (by rw [hview]), fun g hg => (hother g hg).trans (hview g)⟩

theorem State.fnReset_vfEnable (s : State) (fn cause : Nat) : (s.fnReset fn cause).host.vfEnable = s.host.vfEnable := by
  have hcleared := (s.fnCleared_desk fn cause).1
  rcases s.fnReset_cases fn cause with h | h <;> rw [h]
  · exact hcleared
  · exact (State.sessionAbort_vfEnable _).trans hcleared

/-- While no activation is pending, none is answered in the window that was reset, or in another. -/
theorem State.fnReset_win (fn cause : Nat) (h : s.sec.activation = none) :
    (s.fnReset fn cause).sec.activation = none ∧ (s.fnReset fn cause).win fn = (s.win fn).blank ∧
      ∀ g, g ≠ fn → (s.fnReset fn cause).win g = s.win g := by
  obtain ⟨-, hact, hown, hother⟩ := s.fnCleared_desk fn cause
  rcases s.fnReset_cases fn cause with hcase | hcase <;> rw [hcase]
  · exact ⟨hact.trans h, hown, hother⟩
  · obtain ⟨-, hwin, hact'⟩ := State.hostDesk_inj (State.hostDesk_sessionAbort (hact.trans h))
    have hview : ∀ g, (s.fnCleared fn cause).sessionAbort.win g = (s.fnCleared fn cause).win g := fun g => by rw [State.win, hwin]; rfl
    exact ⟨hact'.trans (hact.trans h), (hview fn).trans hown, fun g hg => (hview g).trans (hother g hg)⟩

/-! VF Enable cleared (R317). -/

/-- Every virtual function is reset. -/
def State.vfsReset (s : State) (cause : Nat) : State := (List.range 16).foldl (fun (s : State) i => s.fnReset (i + 1) cause) s

/-- VF Enable reads 0. -/
def State.vfDisabled (s : State) : State := s.onHost fun h => { h with vfEnable := false }

theorem State.vfDisabled_role (s : State) (fn : Nat) : s.vfDisabled.roleOf fn = s.roleOf fn := rfl
theorem State.vfDisabled_fld (s : State) (f : Fld) (i : Nat) : s.vfDisabled.fld f i = s.fld f i := rfl
theorem State.vfDisabled_win (s : State) (g : Nat) : s.vfDisabled.win g = s.win g := rfl

theorem State.vfOff_off (cause : Nat) (h : s.host.vfEnable = false) : s.vfOff cause = s := by simp [State.vfOff, h]

theorem State.vfOff_on (cause : Nat) (h : s.host.vfEnable = true) : s.vfOff cause = (s.vfsReset cause).vfDisabled := by
  unfold State.vfOff State.vfsReset State.vfDisabled
  rw [if_neg (by simp [h])]

theorem State.resets_vfsReset (s : State) (cause : Nat) : s.resets (s.vfsReset cause) := by
  rw [State.vfsReset]
  exact State.resets.foldl (fun t i => t.resets_fnReset (i + 1) cause) _ s

theorem State.resets_vfDisabled (s : State) : s.resets s.vfDisabled := State.resets_of_quiet (State.onlyIn_mono (s.onlyIn_onHost _) (by decide)) rfl

theorem State.resets_vfOff (s : State) (cause : Nat) : s.resets (s.vfOff cause) := by
  cases h : s.host.vfEnable
  · rw [State.vfOff_off cause h]
    exact s.resets_refl
  · rw [State.vfOff_on cause h]
    exact (s.resets_vfsReset cause).trans (State.resets_vfDisabled _)

theorem State.vfOff_vfEnable (s : State) (cause : Nat) : (s.vfOff cause).host.vfEnable = false := by
  cases h : s.host.vfEnable
  · rw [State.vfOff_off cause h, h]
  · rw [State.vfOff_on cause h]
    rfl

/-- Every virtual function loses its role and its bus bits. -/
theorem State.vfOff_function {fn : Nat} (cause : Nat) (h : s.host.vfEnable = true) (h1 : 1 ≤ fn) (h16 : fn ≤ 16) :
    (s.vfOff cause).roleOf fn = 0 ∧ (s.vfOff cause).fld F.HIF_FN_STATE_BME fn = 0 := by
  have hidx : fn - 1 + 1 = fn := by omega
  rw [State.vfOff_on cause h]
  rw [State.vfDisabled_role, State.vfDisabled_fld, State.vfsReset]
  refine foldl_mem (a := fn - 1) (fun _ => True) (fun t : State => t.roleOf fn = 0 ∧ t.fld F.HIF_FN_STATE_BME fn = 0) (fun _ _ h => h)
    (fun t _ => ?_) (fun t i _ ht => ?_) (List.mem_range.2 (by omega)) trivial
  · obtain ⟨hrole, hbme, -⟩ := t.fnReset_function fn cause
    rw [hidx]
    exact ⟨hrole, hbme⟩
  · have hreset := t.resets_fnReset (i + 1) cause
    exact ⟨hreset.cleared F.SEC_FN_ROLE_ROLE (by decide) fn ht.1, hreset.cleared _ (by decide) fn ht.2⟩

/-- While no activation is pending the physical function's window stands. -/
theorem State.vfOff_win (cause : Nat) (h : s.sec.activation = none) : (s.vfOff cause).win 0 = s.win 0 := by
  cases hvf : s.host.vfEnable
  · rw [State.vfOff_off cause hvf]
  · rw [State.vfOff_on cause hvf]
    rw [State.vfDisabled_win]
    have hkept : (s.vfsReset cause).sec.activation = none ∧ (s.vfsReset cause).win 0 = s.win 0 := by
      rw [State.vfsReset]
      refine List.foldlRecOn (motive := fun t : State => t.sec.activation = none ∧ t.win 0 = s.win 0) _ _ ⟨h, rfl⟩ fun t ht i _ => ?_
      obtain ⟨hact, -, hother⟩ := State.fnReset_win (i + 1) cause ht.1
      exact ⟨hact, (hother 0 (by omega)).trans ht.2⟩
    exact hkept.2

end

/-! FUNCTION_LEVEL_RESET (R317): that of the physical function clears VF Enable as well. -/

section Flr
variable {s : State} {fn : Nat}

theorem State.flr_virtual (h : 0 < fn) : s.flr fn = (s.count F.HIF_FLRCNT).fnReset fn 1 := if_neg (by omega)

theorem State.flr_physical (s : State) : s.flr 0 = ((s.count F.HIF_FLRCNT).fnReset 0 1).vfOff 1 := by
  unfold State.flr
  rw [if_pos rfl]

/-- What the reset of the function leaves, its Function Level Reset leaves. -/
theorem State.fnReset_resets_flr (s : State) (fn : Nat) : ((s.count F.HIF_FLRCNT).fnReset fn 1).resets (s.flr fn) := by
  rcases Nat.eq_zero_or_pos fn with rfl | h
  · rw [State.flr_physical]
    exact State.resets_vfOff _ 1
  · rw [State.flr_virtual h]
    exact State.resets_refl _

theorem State.count_resets_flr (s : State) (fn : Nat) : (s.count F.HIF_FLRCNT).resets (s.flr fn) :=
  (State.resets_fnReset _ fn 1).trans (s.fnReset_resets_flr fn)

theorem State.flr_vfEnable (s : State) (fn : Nat) :
    (0 < fn → (s.flr fn).host.vfEnable = s.host.vfEnable) ∧ (fn = 0 → (s.flr fn).host.vfEnable = false) := by
  refine ⟨fun h => ?_, fun h => ?_⟩
  · rw [State.flr_virtual h]
    exact State.fnReset_vfEnable _ fn 1
  · rw [h, State.flr_physical]
    exact State.vfOff_vfEnable _ 1

theorem State.flr_win (fn : Nat) (h : s.sec.activation = none) : (s.flr fn).win fn = (s.win fn).blank := by
  obtain ⟨hact, hwin, -⟩ := State.fnReset_win (s := s.count F.HIF_FLRCNT) fn 1 h
  rcases Nat.eq_zero_or_pos fn with rfl | hpos
  · rw [State.flr_physical]
    exact (State.vfOff_win 1 hact).trans hwin
  · rw [State.flr_virtual hpos]
    exact hwin

end Flr

/-- The counter of resets counts one more; the places of the queues are as they were (R18, R319). -/
theorem State.resets.flrCount {s t : State} (h : (s.count F.HIF_FLRCNT).resets t) :
    t.fld F.HIF_FLRCNT = min (s.fld F.HIF_FLRCNT + 1) (2 ^ F.HIF_FLRCNT.width - 1) :=
  (h.fields.fld 0 (by decide)).trans (State.fld_count_same ..)

/-- Counting an event touches no queue's place and no request. -/
theorem State.count_flr_views (s : State) (q : Nat) : (s.count F.HIF_FLRCNT).qFn q = s.qFn q ∧ (s.count F.HIF_FLRCNT).qPitch q = s.qPitch q ∧
    (s.count F.HIF_FLRCNT).qState q = s.qState q := by
  have hcount : s.onlyFields (s.count F.HIF_FLRCNT) [F.HIF_FLRCNT] := State.onlyFields_count (State.onlyFields_refl s _) (by decide)
  obtain ⟨hstate, hfn, hpitch, -⟩ := hcount.queueViews (by decide) q
  exact ⟨hfn, hpitch, hstate⟩

/-- Resets of functions leave the frame, the arrays, the cores and the memories alone. -/
structure State.keepsWork (s t : State) : Prop where
  frame : t.frame = s.frame
  arrays : t.arrays = s.arrays
  cores : t.cores = s.cores
  hamper : t.hamper = s.hamper
  dram : t.dram = s.dram

theorem State.onlyIn.keepsWork {s t : State} {ps : List Part} (h : s.onlyIn t ps)
    (hps : ∀ p ∈ [Part.frame, .arrays, .cores, .hamper, .dram], p ∉ ps) : s.keepsWork t :=
  ⟨h .frame (hps _ (by decide)), h .arrays (hps _ (by decide)), h .cores (hps _ (by decide)), h .hamper (hps _ (by decide)),
    h .dram (hps _ (by decide))⟩

theorem State.onlyIn_counted {s t : State} {f : Fld} (h : (s.count f).resets t) : s.onlyIn t [.fields, .host, .sec, .serve, .link] :=
  State.onlyIn_trans (State.onlyIn_count (State.onlyIn_refl s _) (by decide)) h.parts

/-! The link goes down (R318). -/

/-- Every function is reset as the link goes down. -/
def State.linkResets (s : State) : State := ((s.count F.HIF_FLRCNT).vfOff 2).fnReset 0 2

/-- The link shows as down, and the physical function's table size takes its new value (R310). -/
def State.linkShowsDown (s : State) : State :=
  let t := s.onHost fun h => { h with vectors := SMap.put h.vectors 0 (s.fld F.HIF_FN_VEC_VECTORS 0), retraining := false }
  (((t.setFld F.HIF_LINK_UP 0).setFld F.HIF_LINK_FLIT 0).setFld F.HIF_LINK_WIDTH 0).setFld F.HIF_LINK_SPEED 0

theorem State.linkDown_eq (s : State) : s.linkDown = s.linkResets.linkShowsDown := by
  unfold State.linkDown State.linkResets State.linkShowsDown
  rfl

theorem State.resets_linkResets (s : State) : (s.count F.HIF_FLRCNT).resets s.linkResets :=
  (State.resets_vfOff _ 2).trans (State.resets_fnReset _ 0 2)

theorem State.linkResets_vfEnable (s : State) : s.linkResets.host.vfEnable = false := by
  rw [State.linkResets, State.fnReset_vfEnable, State.vfOff_vfEnable]

/-- Every function that is on loses its role and its bus bits. -/
theorem State.linkResets_function (s : State) {fn : Nat} (h16 : fn ≤ 16) (hon : s.fnOn fn = true) :
    s.linkResets.roleOf fn = 0 ∧ s.linkResets.fld F.HIF_FN_STATE_BME fn = 0 := by
  rcases Nat.eq_zero_or_pos fn with rfl | hpos
  · obtain ⟨hrole, hbme, -⟩ := ((s.count F.HIF_FLRCNT).vfOff 2).fnReset_function 0 2
    exact ⟨hrole, hbme⟩
  · have hvf : (s.count F.HIF_FLRCNT).host.vfEnable = true := by
      have hne : (fn == 0) = false := beq_false_of_ne (by omega)
      rwa [State.fnOn, hne, Bool.false_or] at hon
    obtain ⟨hrole, hbme⟩ := State.vfOff_function 2 hvf hpos h16
    have hrest := State.resets_fnReset ((s.count F.HIF_FLRCNT).vfOff 2) 0 2
    exact ⟨hrest.cleared F.SEC_FN_ROLE_ROLE (by decide) fn hrole, hrest.cleared _ (by decide) fn hbme⟩

theorem State.onlyFields_linkShowsDown (s : State) :
    s.onlyFields s.linkShowsDown [F.HIF_LINK_UP, F.HIF_LINK_FLIT, F.HIF_LINK_WIDTH, F.HIF_LINK_SPEED] := by
  unfold State.linkShowsDown
  extract_lets t
  have ht : s.onlyFields t [F.HIF_LINK_UP, F.HIF_LINK_FLIT, F.HIF_LINK_WIDTH, F.HIF_LINK_SPEED] :=
    State.onlyFields_same (State.onlyFields_refl s _) rfl
  exact State.onlyFields_setFld (State.onlyFields_setFld (State.onlyFields_setFld (State.onlyFields_setFld ht (by decide)) (by decide)) (by decide))
    (by decide)

theorem State.onlyIn_linkShowsDown (s : State) : s.onlyIn s.linkShowsDown [.fields, .host] :=
  State.onlyIn_setFld (State.onlyIn_setFld (State.onlyIn_setFld (State.onlyIn_setFld (State.onlyIn_mono (s.onlyIn_onHost _) (by decide)) (by decide))
    (by decide)) (by decide)) (by decide)

/-- UP, WIDTH and SPEED read 0, and VF Enable is as it was. -/
theorem State.linkShowsDown_reads (s : State) : s.linkShowsDown.flag F.HIF_LINK_UP = false ∧ s.linkShowsDown.fld F.HIF_LINK_WIDTH = 0 ∧
    s.linkShowsDown.fld F.HIF_LINK_SPEED = 0 ∧ s.linkShowsDown.host.vfEnable = s.host.vfEnable := by
  refine ⟨?_, ?_, ?_, rfl⟩ <;> simp (disch := decide) [State.linkShowsDown, State.flag, State.fld_setFld_of_code]

/-! VF_ENABLE (R310). -/

/-- The table sizes with those of the virtual functions as their registers name them. -/
def State.vfVectors (s : State) : SMap Nat :=
  (List.range 16).foldl (fun m i => SMap.put m (i + 1) (s.fld F.HIF_FN_VEC_VECTORS (i + 1))) s.host.vectors

/-- The virtual functions are on, with these table sizes. -/
def State.vfsOn (s : State) : State := s.onHost fun h => { h with vfEnable := true, vectors := s.vfVectors }

theorem State.vfSet_on {s : State} (h : s.host.vfEnable = false) : s.vfSet true = s.vfsOn := by
  unfold State.vfSet State.vfsOn State.vfVectors
  rw [if_neg (by decide), if_neg (by simp [h])]
  simp only [List.foldl_map, State.onHost]

theorem State.vfSet_off (s : State) : s.vfSet false = s.vfOff 1 := rfl

theorem State.vfSet_same {s : State} (h : s.host.vfEnable = true) : s.vfSet true = s := by simp [State.vfSet, h]

/-- A table into which every key from 1 to 16 is written lists what was written. -/
theorem SMap.find?_foldl_put {α : Type} (m : SMap α) (g : Nat → α) {k : Nat} (h1 : 1 ≤ k) (h16 : k ≤ 16) :
    SMap.find? ((List.range 16).foldl (fun m i => SMap.put m (i + 1) (g (i + 1))) m) k = some (g k) := by
  have hidx : k - 1 + 1 = k := by omega
  refine foldl_mem (a := k - 1) (fun _ => True) (fun m : SMap α => SMap.find? m k = some (g k)) (fun _ _ h => h) (fun m _ => ?_)
    (fun m i hi hm => ?_) (List.mem_range.2 (by omega)) trivial
  · rw [hidx, SMap.find?_put_same]
  · rw [SMap.find?_put_ne _ _ (by omega), hm]

theorem State.vfsOn_vectors (s : State) {fn : Nat} (h1 : 1 ≤ fn) (h16 : fn ≤ 16) : s.vfsOn.vectorsOf fn = s.fld F.HIF_FN_VEC_VECTORS fn := by
  have hlisted : SMap.find? s.vfVectors fn = some (s.fld F.HIF_FN_VEC_VECTORS fn) := by
    rw [State.vfVectors]
    exact SMap.find?_foldl_put s.host.vectors (fun k => s.fld F.HIF_FN_VEC_VECTORS k) h1 h16
  have hvectors : s.vfsOn.host.vectors = s.vfVectors := by rw [State.vfsOn, State.onHost]
  rw [State.vectorsOf, SMap.get, hvectors, hlisted, Option.getD_some]

/-! LINK_RETRAIN (R295). -/

/-- The link is up at a rate, a width and a mode. -/
def State.linkUp (s : State) (speed width : Nat) (flit : Bool) : State :=
  ((((s.onHost fun h => { h with retraining := false }).setFld F.HIF_LINK_UP 1).setFld F.HIF_LINK_SPEED speed).setFld F.HIF_LINK_WIDTH width).setFlag
    F.HIF_LINK_FLIT flit

/-- Every function's messages that waited go out. -/
def State.msiReleases (s : State) : State := (List.range 17).foldl (fun (s : State) fn => s.msiRelease fn) s

theorem State.onlyMessages_msiReleases (s : State) : s.onlyMessages s.msiReleases := by
  rw [State.msiReleases]
  exact State.onlyMessages.foldl (fun t fn => t.onlyMessages_msiRelease fn) _ s

/-- Whether a rate, a width and a mode are not allowed (R295): the port is held, its reference is missing, or one of them is out of range. -/
def State.linkBarred (s : State) (speed width : Nat) (flit : Bool) : Prop :=
  s.host.perst = true ∨ s.flag F.CLK_STATUS_PCIEREF_OK = false ∨ s.fld F.HIF_LINK_CTL_MAX_SPEED < speed ∨
    [1, 2, 4, 8, 16].contains width = false ∨ (speed = 6 ∧ flit = false)

theorem State.linkRetrain_barred {s : State} {speed width : Nat} {flit : Bool} (h : s.linkBarred speed width flit) :
    s.linkRetrain (some (speed, width, flit)) = s := by
  unfold State.linkRetrain
  refine if_pos ?_
  rcases h with h | h | h | h | ⟨h, h'⟩
  · simp [h]
  · simp [h]
  · simp [h]
  · rw [h]
    simp
  · simp [h, h']

theorem State.linkRetrain_up {s : State} {speed width : Nat} {flit : Bool} (hpos : 1 ≤ speed) (h : ¬ s.linkBarred speed width flit) :
    s.linkRetrain (some (speed, width, flit)) = (s.linkUp speed width flit).msiReleases := by
  simp only [State.linkBarred, not_or, not_and, Bool.not_eq_true, Bool.not_eq_false, Nat.not_lt] at h
  obtain ⟨hperst, href, hmax, hwidth, hflit⟩ := h
  unfold State.linkRetrain
  refine if_neg ?_
  rw [hperst, href, hwidth]
  have hmode : (decide (speed = 6) && !flit) = false := by
    by_cases h6 : speed = 6
    · simp [hflit h6]
    · simp [h6]
  rw [hmode]
  simp
  omega

/-- What a link that came up shows. -/
theorem State.linkUp_reads (s : State) {speed width : Nat} (flit : Bool) (hwidth : [1, 2, 4, 8, 16].contains width = true) :
    (s.linkUp speed width flit).flag F.HIF_LINK_UP = true ∧ (s.linkUp speed width flit).fld F.HIF_LINK_WIDTH = width ∧
      (s.linkUp speed width flit).flag F.HIF_LINK_FLIT = flit ∧ (s.linkUp speed width flit).host.retraining = false := by
  have hsmall : width % 2 ^ F.HIF_LINK_WIDTH.width = width := by
    refine Nat.mod_eq_of_lt (Nat.lt_of_le_of_lt (m := 16) ?_ (by decide))
    have hmem : width ∈ [1, 2, 4, 8, 16] := List.contains_iff_mem.1 hwidth
    simp only [List.mem_cons, List.not_mem_nil, or_false] at hmem
    omega
  refine ⟨?_, ?_, State.flag_setFlag_same _ flit 0 rfl, rfl⟩
  · simp (disch := decide) [State.linkUp, State.flag, State.setFlag, State.fld_setFld_of_code]
  · simp (disch := decide) [State.linkUp, State.setFlag, State.fld_setFld_of_code, hsmall]

theorem State.onlyIn_linkUp (s : State) (speed width : Nat) (flit : Bool) : s.onlyIn (s.linkUp speed width flit) [.fields, .host] :=
  State.onlyIn_setFlag (State.onlyIn_setFld (State.onlyIn_setFld (State.onlyIn_setFld (State.onlyIn_mono (s.onlyIn_onHost _) (by decide)) (by decide))
    (by decide)) (by decide)) (by decide)

/-! The statement, command by command. -/

/-- FUNCTION_LEVEL_RESET of a function: its queues and the requests taken through them. -/
theorem State.flr_queues (s : State) {fn q : Nat} (hq : q < 1024) (hfn : s.qFn q = fn) :
    ((s.flr fn).qState q = qDisabled ∧ (s.qState q ≠ qDisabled → (s.flr fn).queue q = .init ∧ (s.flr fn).owner q = none)) ∧
      ∀ r, s.qState q ≠ qDisabled → (s.srv (s.qPitch q)).req r.sub.tag = some r → r.queue = q →
        (s.flr fn).endsCancelled (s.qPitch q) r.sub.tag := by
  have hrest := s.fnReset_resets_flr fn
  obtain ⟨hfn', hpitch, hstate⟩ := s.count_flr_views q
  obtain ⟨hdisabled, hgone⟩ := State.fnReset_queue (s := s.count F.HIF_FLRCNT) 1 hq (hfn'.trans hfn)
  refine ⟨⟨hrest.cleared _ (by decide) q hdisabled, fun hlive => ?_⟩, fun r hlive hreq hrq => ?_⟩
  · have hoff := hrest.queueGone (hgone (hstate ▸ hlive))
    exact ⟨hoff.empty, hoff.owner⟩
  · have hends := State.fnReset_request (s := s.count F.HIF_FLRCNT) (r := r) 1 hq (hfn'.trans hfn) (hstate ▸ hlive)
      (by rw [hpitch]; exact hreq) hrq
    rw [hpitch] at hends
    exact hrest.endsCancelled hends

/-- Its role and its bus bits. -/
theorem State.flr_function (s : State) (fn : Nat) :
    (s.flr fn).roleOf fn = 0 ∧ (s.flr fn).fld F.HIF_FN_STATE_BME fn = 0 ∧ (s.flr fn).fld F.HIF_FN_STATE_D3 fn = 0 := by
  have hrest := s.fnReset_resets_flr fn
  obtain ⟨hrole, hbme, hd3⟩ := (s.count F.HIF_FLRCNT).fnReset_function fn 1
  exact ⟨hrest.cleared F.SEC_FN_ROLE_ROLE (by decide) fn hrole, hrest.cleared _ (by decide) fn hbme, hrest.cleared _ (by decide) fn hd3⟩

/-- HOT_RESET: what it brings about of the link and of the functions that are on. -/
theorem State.linkDown_resets (s : State) :
    s.linkDown.flag F.HIF_LINK_UP = false ∧ s.linkDown.fld F.HIF_LINK_WIDTH = 0 ∧ s.linkDown.fld F.HIF_LINK_SPEED = 0 ∧
      s.linkDown.host.vfEnable = false ∧
      (∀ fn, fn ≤ 16 → s.fnOn fn = true → s.linkDown.roleOf fn = 0 ∧ s.linkDown.fld F.HIF_FN_STATE_BME fn = 0) ∧
      s.keepsWork s.linkDown := by
  rw [State.linkDown_eq]
  obtain ⟨hup, hwidth, hspeed, hvf⟩ := s.linkResets.linkShowsDown_reads
  have hshown := s.linkResets.onlyFields_linkShowsDown
  refine ⟨hup, hwidth, hspeed, hvf.trans s.linkResets_vfEnable, fun fn hfn hon => ?_, ?_⟩
  · obtain ⟨hrole, hbme⟩ := s.linkResets_function hfn hon
    exact ⟨(hshown.fld fn (by decide)).trans hrole, (hshown.fld fn (by decide)).trans hbme⟩
  · have hcounted := State.onlyIn_counted s.resets_linkResets
    exact State.onlyIn.keepsWork (State.onlyIn_then hcounted s.linkResets.onlyIn_linkShowsDown (by decide)) (by decide)

/-- PERST_N low holds the port and resets the link; high lets it go (R459). -/
theorem State.perstPin_low {s : State} (h : s.host.perst = false) :
    s.perstPin true = ({ s with host := { s.host with perst := true } } : State).linkDown := by
  rw [State.perstPin, h]
  rfl

/-- Settles O44: resets of functions and of the host link, VF_ENABLE and LINK_RETRAIN, clause by clause. -/
theorem hostResetsAreLocal : Obligations.HostResetsAreLocal := by
  unfold Obligations.HostResetsAreLocal
  intro s
  refine ⟨fun fn hfn => ?_, ?_, rfl, fun h => ?_, ?_, fun h => ⟨?_, ?_⟩, fun h => ⟨?_, ?_⟩, rfl,
    fun speed width flit hpos => ⟨?_, fun h => ?_⟩⟩
  · have hkept := State.onlyIn.keepsWork (State.onlyIn_counted (s.count_resets_flr fn)) (by decide)
    obtain ⟨hrole, hbme, hd3⟩ := s.flr_function fn
    obtain ⟨hvirtual, hphysical⟩ := s.flr_vfEnable fn
    exact ⟨_, within_next (decide_eq_true hfn), (s.count_resets_flr fn).flrCount, fun q hq hqfn => (s.flr_queues hq hqfn).1,
      fun q r hq hqfn hlive hreq hrq => (s.flr_queues hq hqfn).2 r hlive hreq hrq, hrole, hbme, hd3, s.flr_win fn, hvirtual, hphysical,
      hkept.frame, hkept.arrays, hkept.cores, hkept.hamper, hkept.dram⟩
  · obtain ⟨hup, hwidth, hspeed, hvf, hfns, hkept⟩ := s.linkDown_resets
    exact ⟨_, rfl, hup, hwidth, hspeed, hvf, hfns, hkept.frame, hkept.arrays, hkept.cores, hkept.hamper, hkept.dram⟩
  · rw [exec_perstN, exec_hotReset, State.perstPin_low h]
  · rw [exec_perstN, State.perstPin, Bool.false_and, if_neg Bool.false_ne_true]
    rfl
  · rw [exec_vfEnable, State.vfSet_same h]
  · have hkept := State.onlyIn.keepsWork (s.resets_vfOff 1).parts (by decide)
    exact ⟨_, rfl, s.vfOff_vfEnable 1, fun fn h1 h16 => (State.vfOff_function 1 h h1 h16).1, hkept.frame, hkept.arrays⟩
  · rw [exec_vfEnable, State.vfSet_off, State.vfOff_off 1 h]
  · rw [exec_vfEnable, State.vfSet_on h]
    exact ⟨_, rfl, rfl, fun fn h1 h16 => s.vfsOn_vectors h1 h16, s.onlyIn_onHost _⟩
  · intro hperst href hmax hwidth hflit
    have hbarred : ¬ s.linkBarred speed width flit := by
      simp only [State.linkBarred, hperst, href, hwidth, not_or, not_and, Bool.not_eq_false]
      exact ⟨by decide, by decide, by omega, by decide, hflit⟩
    obtain ⟨hup, hw, hf, hretraining⟩ := s.linkUp_reads (speed := speed) flit hwidth
    have hmsgs := (s.linkUp speed width flit).onlyMessages_msiReleases
    have hfld := State.fld_of_fields hmsgs.fields
    rw [exec_linkRetrain, State.linkRetrain_up hpos hbarred]
    exact ⟨_, rfl, (congrArg (· == 1) (hfld _ 0)).trans hup, (hfld _ 0).trans hw, (congrArg (· == 1) (hfld _ 0)).trans hf,
      hmsgs.retraining.trans hretraining, State.onlyIn_then (s.onlyIn_linkUp speed width flit) hmsgs.parts (by decide)⟩
  · rw [exec_linkRetrain, State.linkRetrain_barred h]

end Sys2Proof.Machine

/-!
PROOFS of the statement on eligible sources and interrupt lines, with the rules of edges and claims (10_ranger_firmware R333 to R336, R350).
-/

namespace Sys2Proof.Machine

/-! Interrupt edges (R333, R334, R338). -/

/-- A new record of the interrupt controllers touches nothing else. -/
theorem State.onlyIn_irq (s : State) (g : IrqSt) : s.onlyIn { s with irq := g } [.irq] := fun p hp => by
  cases p
  case irq => exact absurd (by decide) hp
  all_goals rfl

/-- A one-bit field set to 1 at a place is 1 there, and where it was. -/
theorem State.flag_setFld_one (s : State) {f : Fld} (hf : f.width = 1) (i k : Nat) :
    (s.setFld f 1 i).flag f k = true ↔ k = i ∨ s.flag f k = true := by
  by_cases hk : k = i
  · simp [State.flag, hk, hf]
  · rw [State.flag, State.fld_setFld_place s f 1 i k hk, or_iff_right hk]
    rfl

/-- Interrupt edges and events alone lead from one state to another: no claim changes and no pending bit is cleared. -/
structure State.raises (s t : State) : Prop where
  parts : s.onlyIn t [.fields, .irq, .host]
  fields : s.onlyFields t [F.INTC_PEND, F.INTC_MERGECNT]
  irq : ∃ l, t.irq = { s.irq with latched := l }
  pending : ∀ k, s.flag F.INTC_PEND k = true → t.flag F.INTC_PEND k = true

/-- What an edge on a source of one half does: it is counted as merged, sets the pending bit, or is latched. -/
theorem State.raiseHalf_cases (s : State) (h id : Nat) :
    s.raiseHalf h id = s.count F.INTC_MERGECNT 1 h ∨ s.raiseHalf h id = s.setFld F.INTC_PEND 1 (1024 * h + id) ∨
      s.raiseHalf h id = { s with irq := { s.irq with latched := SMap.set 0 s.irq.latched (1024 * h + id) 1 } } := by
  unfold State.raiseHalf
  extract_lets k
  split_ifs
  · exact .inl rfl
  · exact .inr (.inr rfl)
  · exact .inl rfl
  · exact .inr (.inl rfl)

/-- While the firmware clock runs, an edge sets the pending bit, or is merged with it. -/
theorem State.raiseHalf_running {s : State} {h : Nat} (id : Nat) (hrun : s.fwStopped h = false) :
    s.raiseHalf h id = if s.flag F.INTC_PEND (1024 * h + id) then s.count F.INTC_MERGECNT 1 h else s.setFld F.INTC_PEND 1 (1024 * h + id) := by
  simp [State.raiseHalf, hrun]

/-- While it is stopped, an edge sets the latch, or is merged with it. -/
theorem State.raiseHalf_stopped {s : State} {h : Nat} (id : Nat) (hstop : s.fwStopped h = true) :
    s.raiseHalf h id = if SMap.get 0 s.irq.latched (1024 * h + id) = 1 then s.count F.INTC_MERGECNT 1 h
      else { s with irq := { s.irq with latched := SMap.set 0 s.irq.latched (1024 * h + id) 1 } } := by
  simp [State.raiseHalf, hstop]

section Raises
variable {s t u : State}

theorem State.raises.trans (h : s.raises t) (h' : t.raises u) : s.raises u := by
  obtain ⟨l, hl⟩ := h.irq
  obtain ⟨l', hl'⟩ := h'.irq
  exact ⟨State.onlyIn_trans h.parts h'.parts, State.onlyFields_trans h.fields h'.fields, ⟨l', by rw [hl', hl]⟩,
    fun k hk => h'.pending k (h.pending k hk)⟩

theorem State.raises.claimedBy (h : s.raises t) (g id : Nat) : t.claimedBy g id = s.claimedBy g id := by
  obtain ⟨l, hl⟩ := h.irq
  unfold State.claimedBy
  rw [hl]

theorem State.raises.fwStopped (h : s.raises t) (g : Nat) : t.fwStopped g = s.fwStopped g := by
  obtain ⟨l, hl⟩ := h.irq
  unfold State.fwStopped
  rw [hl]

theorem State.raises_raiseHalf (s : State) (h id : Nat) : s.raises (s.raiseHalf h id) := by
  refine ⟨State.onlyIn_raiseHalf (State.onlyIn_refl s _) (by decide) (by decide),
    State.onlyFields_raiseHalf (State.onlyFields_refl s _) (by decide) (by decide), ?_, fun k hk => ?_⟩
  · rcases s.raiseHalf_cases h id with he | he | he <;> rw [he] <;> exact ⟨_, rfl⟩
  · rcases s.raiseHalf_cases h id with he | he | he <;> rw [he]
    · exact (State.flag_of_fld (State.fld_count_of_code _ _ _ _ _ _ (by decide) (by decide) (by decide))).trans hk
    · exact (State.flag_setFld_one s rfl _ k).2 (.inr hk)
    · exact hk

theorem State.raises_raiseBoth (s : State) (id : Nat) : s.raises (s.raiseBoth id) :=
  (s.raises_raiseHalf 0 id).trans (State.raises_raiseHalf _ 1 id)

theorem State.raises_post (s : State) (code : Nat) (detail : List Nat) : s.raises (s.post code detail) :=
  ⟨State.onlyIn_mono (s.onlyIn_post code detail) (by decide), State.onlyFields_same (State.onlyFields_refl s _) (s.post_fields code detail),
    ⟨s.irq.latched, s.onlyIn_post code detail .irq (by decide)⟩, fun k hk => (State.flag_of_fld (s.fld_post code detail _ k)).trans hk⟩

end Raises

/-- An edge on a source has reached the controller of half `g`: the source is pending, and counted as merged if it was; while the
half's clock is stopped, it is latched. -/
def State.edgeAt (s t : State) (g id : Nat) : Prop :=
  (s.fwStopped g = false → t.flag F.INTC_PEND (1024 * g + id) = true ∧
    (s.flag F.INTC_PEND (1024 * g + id) = true → t.fld F.INTC_MERGECNT g = min (s.fld F.INTC_MERGECNT g + 1) (2 ^ F.INTC_MERGECNT.width - 1))) ∧
  (s.fwStopped g = true → SMap.get 0 t.irq.latched (1024 * g + id) = 1 ∧ t.fld F.INTC_PEND (1024 * g + id) = s.fld F.INTC_PEND (1024 * g + id))

/-- A source stands in a half as it did. -/
structure State.sameSource (s t : State) (g id : Nat) : Prop where
  stopped : t.fwStopped g = s.fwStopped g
  pend : t.fld F.INTC_PEND (1024 * g + id) = s.fld F.INTC_PEND (1024 * g + id)
  merged : t.fld F.INTC_MERGECNT g = s.fld F.INTC_MERGECNT g
  latched : SMap.get 0 t.irq.latched (1024 * g + id) = SMap.get 0 s.irq.latched (1024 * g + id)

section Edges
variable {s t u : State} {g h id : Nat}

theorem State.sameSource.edgeAt (hsame : s.sameSource u g id) (hedge : u.edgeAt t g id) : s.edgeAt t g id := by
  unfold State.edgeAt at hedge ⊢
  rwa [hsame.stopped, State.flag_of_fld hsame.pend, hsame.pend, hsame.merged] at hedge

theorem State.edgeAt.stays (hedge : s.edgeAt u g id) (hsame : u.sameSource t g id) : s.edgeAt t g id := by
  unfold State.edgeAt at hedge ⊢
  rwa [State.flag_of_fld hsame.pend, hsame.pend, hsame.merged, hsame.latched]

/-- An edge in one half leaves the source of the other as it is. -/
theorem State.sameSource_raiseHalf (s : State) (id : Nat) (hg : g ≠ h) : s.sameSource (s.raiseHalf h id) g id := by
  have hkey : 1024 * g + id ≠ 1024 * h + id := by omega
  rcases s.raiseHalf_cases h id with he | he | he <;> rw [he]
  · exact ⟨rfl, State.fld_count_of_code _ _ _ _ _ _ (by decide) (by decide) (by decide), State.fld_setFld_place _ _ _ _ _ hg, rfl⟩
  · exact ⟨rfl, State.fld_setFld_place _ _ _ _ _ hkey, State.fld_setFld_of_code _ _ _ _ _ _ (by decide) (by decide) (by decide), rfl⟩
  · exact ⟨rfl, rfl, rfl, SMap.get_set_ne 0 s.irq.latched 1 hkey⟩

theorem State.edgeAt_raiseHalf (s : State) (h id : Nat) : s.edgeAt (s.raiseHalf h id) h id := by
  have hcount : (s.count F.INTC_MERGECNT 1 h).fld F.INTC_PEND (1024 * h + id) = s.fld F.INTC_PEND (1024 * h + id) :=
    State.fld_count_of_code _ _ _ _ _ _ (by decide) (by decide) (by decide)
  refine ⟨fun hrun => ?_, fun hstop => ?_⟩
  · rw [State.raiseHalf_running id hrun]
    by_cases hp : s.flag F.INTC_PEND (1024 * h + id) = true
    · rw [if_pos hp]
      exact ⟨(State.flag_of_fld hcount).trans hp, fun _ => State.fld_count_same ..⟩
    · rw [if_neg hp]
      exact ⟨(State.flag_setFld_one s rfl _ _).2 (.inl rfl), fun hp' => absurd hp' hp⟩
  · rw [State.raiseHalf_stopped id hstop]
    by_cases hl : SMap.get 0 s.irq.latched (1024 * h + id) = 1
    · rw [if_pos hl]
      exact ⟨hl, hcount⟩
    · rw [if_neg hl]
      exact ⟨SMap.get_set_same 0 s.irq.latched _ 1, rfl⟩

theorem State.edgeAt_raiseBoth (s : State) (id : Nat) (hg : g < 2) : s.edgeAt (s.raiseBoth id) g id := by
  rcases (by omega : g = 0 ∨ g = 1) with rfl | rfl
  · exact (s.edgeAt_raiseHalf 0 id).stays (State.sameSource_raiseHalf _ id (by decide))
  · exact (s.sameSource_raiseHalf id (by decide)).edgeAt (State.edgeAt_raiseHalf _ 1 id)

/-- An edge reaches each controller that its source is wired to. -/
theorem State.edgeAt_edge (s : State) (hg : g < 2) (hwired : wiredBoth id = true ∨ (wiredOwn id = true ∧ g = h)) :
    s.edgeAt (s.edge h id) g id := by
  unfold State.edge
  by_cases hboth : wiredBoth id = true
  · rw [if_pos hboth]
    exact s.edgeAt_raiseBoth id hg
  · obtain ⟨hown, rfl⟩ := hwired.resolve_left hboth
    rw [if_neg hboth, if_pos hown]
    exact s.edgeAt_raiseHalf g id

theorem State.edge_unconnected (s : State) (h : Nat) (hboth : wiredBoth id = false) (hown : wiredOwn id = false) : s.edge h id = s := by
  simp [State.edge, hboth, hown]

theorem State.edge_leaves (s : State) (h id : Nat) :
    s.onlyIn (s.edge h id) [.fields, .irq] ∧ s.onlyFields (s.edge h id) [F.INTC_PEND, F.INTC_MERGECNT] := by
  unfold State.edge
  split_ifs
  · exact ⟨s.onlyIn_raiseBoth id, s.onlyFields_raiseBoth id⟩
  · exact ⟨State.onlyIn_raiseHalf (State.onlyIn_refl s _) (by decide) (by decide), (s.raises_raiseHalf h id).fields⟩
  · exact ⟨State.onlyIn_refl s _, State.onlyFields_refl s _⟩

end Edges

/-! Which sources are eligible, and which is claimed (R335, R336). -/

theorem State.eligible_iff (s : State) (h k id : Nat) :
    s.eligible h k id = true ↔
      (s.flag F.INTC_PEND (1024 * h + id) = true ∧ s.flag F.INTC_EN ((4 * h + k) * 1024 + id) = true ∧
        s.fld F.INTC_THRESH (4 * h + k) < s.fld F.INTC_PRIO (1024 * h + id) ∧ s.claimedBy h id = 0) := by
  simp [State.eligible, and_assoc]

/-- A source whose priority does not exceed the threshold is not eligible. -/
theorem State.not_eligible_of_prio {s : State} {h k id : Nat} (hp : s.fld F.INTC_PRIO (1024 * h + id) ≤ s.fld F.INTC_THRESH (4 * h + k)) :
    s.eligible h k id = false := by
  rw [← Bool.not_eq_true, State.eligible_iff]
  rintro ⟨-, -, hlt, -⟩
  omega

/-- A source that is not pending is not eligible. -/
theorem State.not_eligible_of_pend {s : State} {h id : Nat} (k : Nat) (hp : s.fld F.INTC_PEND (1024 * h + id) = 0) : s.eligible h k id = false := by
  simp [State.eligible, State.flag, hp]

theorem State.irqLine_iff (s : State) (h k : Nat) : s.irqLine h k = true ↔ ∃ id, id < 1023 ∧ s.eligible h k id = true := by
  simp [State.irqLine]

/-- The better of what was found so far and a further source. -/
def State.better (s : State) (h : Nat) (b : Option Nat) (id : Nat) : Option Nat :=
  match b with
  | some x => if s.fld F.INTC_PRIO (1024 * h + x) < s.fld F.INTC_PRIO (1024 * h + id) then some id else some x
  | none => some id

theorem State.bestSource_eq (s : State) (h k : Nat) : s.bestSource h k = ((List.range 1023).filter (s.eligible h k)).foldl (s.better h) none := rfl

section Best
variable {s : State} {h : Nat}

/-- A source is kept while the further ones have no higher priority. -/
theorem State.foldl_better_kept {id : Nat} {l : List Nat} (hl : ∀ j ∈ l, s.fld F.INTC_PRIO (1024 * h + j) ≤ s.fld F.INTC_PRIO (1024 * h + id)) :
    l.foldl (s.better h) (some id) = some id := by
  induction l with
  | nil => rfl
  | cons j l ih =>
    have hj : s.better h (some id) j = some id := if_neg (Nat.not_lt.2 (hl j (List.mem_cons_self ..)))
    rw [List.foldl_cons, hj]
    exact ih fun i hi => hl i (List.mem_cons_of_mem _ hi)

/-- What is found among sources of lower priority has a lower priority. -/
theorem State.foldl_better_below {p : Nat} {l : List Nat} {b : Option Nat} (hl : ∀ j ∈ l, s.fld F.INTC_PRIO (1024 * h + j) < p)
    (hb : ∀ x ∈ b, s.fld F.INTC_PRIO (1024 * h + x) < p) : ∀ x ∈ l.foldl (s.better h) b, s.fld F.INTC_PRIO (1024 * h + x) < p := by
  induction l generalizing b with
  | nil => exact hb
  | cons j l ih =>
    refine ih (fun i hi => hl i (List.mem_cons_of_mem _ hi)) fun x hx => ?_
    have hor : x = j ∨ x ∈ b := by
      cases b with
      | none => exact .inl (Option.some.inj hx).symm
      | some y =>
        simp only [State.better] at hx
        split_ifs at hx
        · exact .inl (Option.some.inj hx).symm
        · exact .inr hx
    rcases hor with rfl | hx'
    · exact hl x (List.mem_cons_self ..)
    · exact hb x hx'

/-- A source of higher priority than what was found is taken. -/
theorem State.better_takes {id : Nat} {b : Option Nat} (hb : ∀ x ∈ b, s.fld F.INTC_PRIO (1024 * h + x) < s.fld F.INTC_PRIO (1024 * h + id)) :
    s.better h b id = some id := by
  cases b with
  | none => rfl
  | some x => exact if_pos (hb x rfl)

/-- Without an eligible source none is found. -/
theorem State.bestSource_none {k : Nat} (hnone : ∀ id, id < 1023 → s.eligible h k id = false) : s.bestSource h k = none := by
  rw [State.bestSource_eq, List.filter_eq_nil_iff.2 fun id hid => by rw [hnone id (List.mem_range.1 hid)]; decide]
  rfl

/-- The eligible source of highest priority is found, the lowest identity among equals. -/
theorem State.bestSource_some {k id : Nat} (hid : id < 1023) (hel : s.eligible h k id = true)
    (hbest : ∀ j, j < 1023 → s.eligible h k j = true → s.fld F.INTC_PRIO (1024 * h + j) < s.fld F.INTC_PRIO (1024 * h + id) ∨
      (s.fld F.INTC_PRIO (1024 * h + j) = s.fld F.INTC_PRIO (1024 * h + id) ∧ id ≤ j)) :
    s.bestSource h k = some id := by
  have hmem : ∀ j, j ∈ (List.range 1023).filter (s.eligible h k) ↔ j < 1023 ∧ s.eligible h k j = true := fun j => by
    rw [List.mem_filter, List.mem_range]
  have hsorted : ((List.range 1023).filter (s.eligible h k)).Pairwise (· < ·) := List.pairwise_lt_range.filter _
  obtain ⟨low, high, hsplit⟩ := List.append_of_mem ((hmem id).2 ⟨hid, hel⟩)
  rw [hsplit] at hmem hsorted
  have hlow : ∀ j ∈ low, s.fld F.INTC_PRIO (1024 * h + j) < s.fld F.INTC_PRIO (1024 * h + id) := fun j hj => by
    have hlt : j < id := (List.pairwise_append.1 hsorted).2.2 j hj id (List.mem_cons_self ..)
    obtain ⟨hj23, hjel⟩ := (hmem j).1 (List.mem_append_left _ hj)
    have := hbest j hj23 hjel
    omega
  have hhigh : ∀ j ∈ high, s.fld F.INTC_PRIO (1024 * h + j) ≤ s.fld F.INTC_PRIO (1024 * h + id) := fun j hj => by
    obtain ⟨hj23, hjel⟩ := (hmem j).1 (List.mem_append_right _ (List.mem_cons_of_mem _ hj))
    have := hbest j hj23 hjel
    omega
  have hbelow : ∀ x ∈ low.foldl (s.better h) none, s.fld F.INTC_PRIO (1024 * h + x) < s.fld F.INTC_PRIO (1024 * h + id) :=
    State.foldl_better_below hlow fun _ hx => (Option.not_mem_none _ hx).elim
  rw [State.bestSource_eq, hsplit, List.foldl_append, List.foldl_cons, State.better_takes hbelow]
  exact State.foldl_better_kept hhigh

end Best

@[simp] theorem State.claimedBy_setClaimed_same (s : State) (h id v : Nat) : (s.setClaimed h id v).claimedBy h id = v := SMap.get_set_same ..

theorem State.claimedBy_setClaimed_ne (s : State) (h v : Nat) {i id : Nat} (hne : i ≠ id) : (s.setClaimed h id v).claimedBy h i = s.claimedBy h i :=
  SMap.get_set_ne _ _ _ (by omega)

theorem State.onlyIn_setClaimed (s : State) (h id v : Nat) : s.onlyIn (s.setClaimed h id v) [.irq] := s.onlyIn_irq _

/-- A source is taken by a target: no longer pending, claimed, named by CLAIM, and returned by the read. -/
def State.sourceTaken (s : State) (h k id : Nat) : State :=
  { ((s.setFld F.INTC_PEND 0 (1024 * h + id)).setClaimed h id (k + 1)).setFld F.INTC_CLAIM_ID id (4 * h + k) with readout := id }

/-- What a half learns by the source it claims: that it has lost leadership, by identity 7 (R347). -/
def State.learnBy (s : State) (h id : Nat) : State := if id = irqLeadership then s.learn h else s

theorem State.intcClaim_some {s : State} {h k id : Nat} (hbest : s.bestSource h k = some id) :
    s.intcClaim h k = (s.sourceTaken h k id).learnBy h id := by
  unfold State.intcClaim
  rw [hbest]
  rfl

theorem State.intcClaim_none {s : State} {h k : Nat} (hnone : ∀ id, id < 1023 → s.eligible h k id = false) :
    s.intcClaim h k = { s.count F.INTC_SPURCNT 1 h with readout := 1023 } := by
  unfold State.intcClaim
  rw [State.bestSource_none hnone]

/-- Learning discards held messages, counts them, and ends the half's belief. -/
theorem State.learnBy_leaves (s : State) (h id : Nat) :
    s.onlyIn (s.learnBy h id) [.fields, .irq, .link] ∧ s.onlyFields (s.learnBy h id) [F.RGR_STALETXCNT] ∧
      (s.learnBy h id).irq.claimed = s.irq.claimed := by
  have hnone : s.onlyIn s [.fields, .irq, .link] ∧ s.onlyFields s [F.RGR_STALETXCNT] ∧ s.irq.claimed = s.irq.claimed :=
    ⟨State.onlyIn_refl s _, State.onlyFields_refl s _, rfl⟩
  unfold State.learnBy State.learn
  split_ifs
  · split
    · exact hnone
    split_ifs
    · exact hnone
    · extract_lets stale kept t
      have ht : s.onlyIn t [.link] := fun p hp => by
        cases p
        case link => exact absurd (by decide) hp
        all_goals rfl
      have hfs : s.onlyFields t [F.RGR_STALETXCNT] := State.onlyFields_same (State.onlyFields_refl s _) rfl
      refine ⟨?_, State.onlyFields_same (State.onlyFields_count hfs (by decide)) rfl, ?_⟩
      · exact State.onlyIn_then (State.onlyIn_count (State.onlyIn_mono ht (by decide)) (by decide)) (State.onlyIn_irq _ _) (by decide)
      · unfold State.setBelief
        dsimp only
        split_ifs <;> rfl
  · exact hnone

/-- What the taking of a source brings about. -/
theorem State.sourceTaken_effect (s : State) (h k : Nat) {id : Nat} (hid : id < 1023) :
    (s.sourceTaken h k id).fld F.INTC_PEND (1024 * h + id) = 0 ∧ (s.sourceTaken h k id).claimedBy h id = k + 1 ∧
      (s.sourceTaken h k id).fld F.INTC_CLAIM_ID (4 * h + k) = id ∧ s.onlyIn (s.sourceTaken h k id) [.fields, .irq, .link, .readout] := by
  have hsmall : id % 2 ^ F.INTC_CLAIM_ID.width = id := Nat.mod_eq_of_lt (Nat.lt_of_lt_of_le hid (by decide))
  refine ⟨?_, State.claimedBy_setClaimed_same _ h id _, (State.fld_setFld_same _ _ _ _).trans hsmall, ?_⟩
  · exact (State.fld_setFld_of_code _ F.INTC_CLAIM_ID F.INTC_PEND _ _ _ (by decide) (by decide) (by decide)).trans
      (State.fld_setFld_same s F.INTC_PEND 0 _)
  · have hpend : s.onlyIn (s.setFld F.INTC_PEND 0 (1024 * h + id)) [.fields, .irq, .link, .readout] :=
      State.onlyIn_setFld (State.onlyIn_refl s _) (by decide)
    have hnamed := State.onlyIn_setFld (f := F.INTC_CLAIM_ID) (v := id) (i := 4 * h + k)
      (State.onlyIn_then hpend (State.onlyIn_setClaimed _ h id (k + 1)) (by decide)) (by decide)
    refine State.onlyIn_trans hnamed fun p hp => ?_
    cases p
    case readout => exact absurd (by decide) hp
    all_goals rfl

/-- INTC_CLAIM with the best source (R336). -/
theorem State.intcClaim_best {s : State} {h k id : Nat} (hid : id < 1023) (hbest : s.bestSource h k = some id) :
    (s.intcClaim h k).readout = id ∧ (s.intcClaim h k).fld F.INTC_PEND (1024 * h + id) = 0 ∧ (s.intcClaim h k).claimedBy h id = k + 1 ∧
      (s.intcClaim h k).fld F.INTC_CLAIM_ID (4 * h + k) = id ∧ s.onlyIn (s.intcClaim h k) [.fields, .irq, .link, .readout] := by
  obtain ⟨hpend, hclaimed, hnamed, htaken⟩ := s.sourceTaken_effect h k hid
  obtain ⟨hin, hflds, hsame⟩ := (s.sourceTaken h k id).learnBy_leaves h id
  rw [State.intcClaim_some hbest]
  refine ⟨hin .readout (by decide), (hflds.fld _ (by decide)).trans hpend, ?_, (hflds.fld _ (by decide)).trans hnamed,
    State.onlyIn_then htaken hin (by decide)⟩
  unfold State.claimedBy at hclaimed ⊢
  rwa [hsame]

/-! The statement on eligible sources, by its parts. -/

/-- A field takes no value that its width does not hold. -/
theorem State.fld_setFld_le (s : State) (f : Fld) (v i : Nat) : (s.setFld f v i).fld f i ≤ 2 ^ f.width - 1 := by
  rw [State.fld_setFld_same]
  exact Nat.le_sub_one_of_lt (Nat.mod_lt _ (Nat.two_pow_pos _))

/-- A threshold lowered below the priority of a pending, enabled, unclaimed source makes the source eligible. -/
theorem State.eligible_lowered {s : State} {h k id v : Nat} (hv : v ≤ 15) (hlt : v < s.fld F.INTC_PRIO (1024 * h + id))
    (hpend : s.flag F.INTC_PEND (1024 * h + id) = true) (hen : s.flag F.INTC_EN ((4 * h + k) * 1024 + id) = true) (hfree : s.claimedBy h id = 0) :
    (s.setFld F.INTC_THRESH v (4 * h + k)).eligible h k id = true := by
  have hread : ∀ f : Fld, f.code < 1024 → f.code ≠ F.INTC_THRESH.code → ∀ i, (s.setFld F.INTC_THRESH v (4 * h + k)).fld f i = s.fld f i :=
    fun f hf hne i => State.fld_setFld_of_code _ _ _ _ _ _ (by decide) hf hne
  have hsmall : v % 2 ^ F.INTC_THRESH.width = v := Nat.mod_eq_of_lt (Nat.lt_succ_of_le hv)
  rw [State.eligible_iff, State.fld_setFld_same, hsmall, hread _ (by decide) (by decide)]
  exact ⟨(State.flag_of_fld (hread _ (by decide) (by decide) _)).trans hpend,
    (State.flag_of_fld (hread _ (by decide) (by decide) _)).trans hen, hlt, hfree⟩

theorem execIntcClaim_next {h k : Nat} (s : State) (hh : h < 2) (hk : k < 4) : exec (.intcClaim h k) s = .next (s.intcClaim h k) :=
  within_next (by simp [halfCount, hh, hk])

/-- Settles O46: eligibility read off its definition; at the threshold of reset no priority exceeds it. -/
theorem sourcesAreDelivered : Obligations.SourcesAreDelivered := by
  unfold Obligations.SourcesAreDelivered
  intro s h k hh hk
  refine ⟨fun v i => ⟨s.fld_setFld_le _ v i, s.fld_setFld_le _ v i, s.fld_setFld_le _ v i⟩, s.eligible_iff h k,
    fun id hid => State.not_eligible_of_prio (by omega), s.irqLine_iff h k, rfl, fun hth hprio => ?_⟩
  have hnone : ∀ id, id < 1023 → s.eligible h k id = false := fun id hid => State.not_eligible_of_prio (by rw [hth]; exact hprio id hid)
  refine ⟨?_, _, execIntcClaim_next s hh hk, ?_⟩
  · rw [← Bool.not_eq_true, State.irqLine_iff]
    rintro ⟨id, hid, hel⟩
    exact absurd hel (by rw [hnone id hid]; decide)
  · rw [State.intcClaim_none hnone]
    have hread : ∀ f : Fld, f.code < 1024 → f.code ≠ F.INTC_SPURCNT.code → ∀ i, (s.count F.INTC_SPURCNT 1 h).fld f i = s.fld f i :=
      fun f hf hne i => State.fld_count_of_code _ _ _ _ _ _ (by decide) hf hne
    refine ⟨rfl, fun id => hread _ (by decide) (by decide) _, fun v id hid hlt hpend hen hfree hv => (State.irqLine_iff _ h k).2 ⟨id, hid, ?_⟩⟩
    refine State.eligible_lowered hv (hlt.trans_eq (hread _ (by decide) (by decide) _).symm) ?_ ?_ hfree
    · exact (State.flag_of_fld (hread _ (by decide) (by decide) _)).trans hpend
    · exact (State.flag_of_fld (hread _ (by decide) (by decide) _)).trans hen

end Sys2Proof.Machine

/-!
PROOFS of the statements on interrupt claims and the firmware clock (10_ranger_firmware R322, R334 to R338).
-/

namespace Sys2Proof.Machine

/-! The states of the Ranger cores (R324, R338). -/

theorem State.onlyFields_setRcore (s : State) (k v : Nat) : s.onlyFields (s.setRcore k v) [F.RGR_STATUS_CORE, F.RGR_STATUS_UP] :=
  State.onlyFields_setFlag (State.onlyFields_setFld (State.onlyFields_refl s _) (by decide)) (by decide)

theorem State.onlyIn_setRcore (s : State) (k v : Nat) : s.onlyIn (s.setRcore k v) [.fields] :=
  State.onlyIn_setFlag (State.onlyIn_setFld (State.onlyIn_refl s _) (by decide)) (by decide)

/-- An update that leaves the cores' field leaves each core's state. -/
theorem State.onlyFields.rcore {s t : State} {fs : List Fld} (h : s.onlyFields t fs) (hf : F.RGR_STATUS_CORE.code % 1024 ∉ fs.map (·.code)) (j : Nat) :
    t.rcore j = s.rcore j := by
  rw [State.rcore, h.fld _ hf]
  rfl

theorem State.rcore_of_fields {s t : State} (h : t.fields = s.fields) (j : Nat) : t.rcore j = s.rcore j := by
  rw [State.rcore, State.fld_of_fields h]
  rfl

/-- A core goes from one state to another, if it is in it. -/
def State.coreTurn (a b : Nat) (s : State) (k : Nat) : State := if s.rcore k = a then s.setRcore k b else s

theorem State.coresTo_eq (s : State) (h a b : Nat) : s.coresTo h a b = (halfCores h).foldl (State.coreTurn a b) s := rfl

theorem State.rcore_coreTurn {a b : Nat} (s : State) (j k : Nat) (hb : b < 16) :
    (State.coreTurn a b s k).rcore j = if j = k ∧ s.rcore j = a then b else s.rcore j := by
  unfold State.coreTurn
  by_cases hk : s.rcore k = a
  · rw [if_pos hk, State.rcore_setRcore s hb]
    by_cases hj : j = k
    · subst hj; simp [hk]
    · simp [hj]
  · rw [if_neg hk, if_neg]
    rintro ⟨rfl, hj⟩
    exact hk hj

/-- The cores of a half that are in the one state go to the other. -/
theorem State.rcore_coresTo {s : State} {h a b j : Nat} (hb : b < 16) (hj : j ∈ halfCores h) (ha : s.rcore j = a) :
    (s.coresTo h a b).rcore j = b := by
  rw [State.coresTo_eq]
  refine foldl_mem (fun t : State => t.rcore j = a ∨ t.rcore j = b) (fun t => t.rcore j = b) (a := j) (fun t k ht => ?_) (fun t ht => ?_)
    (fun t k hk ht => ?_) hj (.inl ha)
  · rw [State.rcore_coreTurn t j k hb]
    split_ifs
    · exact .inr rfl
    · exact ht
  · rw [State.rcore_coreTurn t j j hb]
    split_ifs with hin
    · rfl
    · exact ht.resolve_left fun h => hin ⟨rfl, h⟩
  · rw [State.rcore_coreTurn t j k hb, if_neg fun h => hk h.1.symm]
    exact ht

theorem State.coresTo_leaves (s : State) (h a b : Nat) :
    s.onlyIn (s.coresTo h a b) [.fields] ∧ s.onlyFields (s.coresTo h a b) [F.RGR_STATUS_CORE, F.RGR_STATUS_UP] := by
  refine ⟨State.onlyIn_foldl (fun t k => ?_) _ s, State.onlyFields_foldl (fun t k => ?_) _ s⟩
  · split_ifs
    · exact t.onlyIn_setRcore k b
    · exact State.onlyIn_refl t _
  · split_ifs
    · exact t.onlyFields_setRcore k b
    · exact State.onlyFields_refl t _

/-! The firmware clock (R338). -/

theorem State.setFwStopped_leaves (s : State) (h : Nat) (b : Bool) :
    s.onlyIn (s.setFwStopped h b) [.irq] ∧ (s.setFwStopped h b).fields = s.fields := ⟨s.onlyIn_irq _, rfl⟩

@[simp] theorem State.fwStopped_setFwStopped (s : State) (h : Nat) (b : Bool) : (s.setFwStopped h b).fwStopped h = b := by
  unfold State.fwStopped State.setFwStopped
  by_cases hh : h = 0 <;> simp [hh]

/-- FWCLK_STOP of a half whose clock is stopped already, or that was idle for less than 10 µs. -/
theorem State.fwStop_refused {s : State} {h idle : Nat} (hno : s.fwStopped h = true ∨ idle < 10000) : s.fwStop h idle = s := by
  rcases hno with hno | hno <;> simp [State.fwStop, hno]

/-- FWCLK_STOP of a half idle for 10 µs. -/
theorem State.fwStop_stops {s : State} {h idle : Nat} (hrun : s.fwStopped h = false) (hidle : 10000 ≤ idle) :
    s.fwStop h idle = (s.coresTo h 0 1).setFwStopped h true := by
  simp [State.fwStop, hrun, Nat.not_lt.2 hidle]

theorem State.fwWake_refused {s : State} {h : Nat} (hno : s.fwStopped h = false ∨ s.wakeable h = false) : s.fwWake h = s := by
  rcases hno with hno | hno <;> simp [State.fwWake, hno]

/-- The sources of a half whose edges were latched. -/
def State.latchedIds (s : State) (h : Nat) : List Nat := (s.irq.latched.filter fun e => e.1 / 1024 == h).map fun e => e.1 % 1024

/-- The clock of a half runs, and its latches are clear. -/
def State.clockRestarted (s : State) (h : Nat) : State :=
  let t := s.setFwStopped h false
  { t with irq := { t.irq with latched := SMap.dropRange t.irq.latched (1024 * h) 1024 } }

/-- Every latched edge passes to its pending bit. -/
def State.latchesPassed (s : State) (h : Nat) : State := (s.latchedIds h).foldl (fun t id => t.raiseHalf h id) (s.clockRestarted h)

/-- The watchdogs of a half's cores are restarted. -/
def State.ticksRestarted (s : State) (h : Nat) : State := (halfCores h).foldl (fun t k => t.setTick k) s

theorem State.fwWake_wakes {s : State} {h : Nat} (hstop : s.fwStopped h = true) (hwake : s.wakeable h = true) :
    s.fwWake h = (((s.latchesPassed h).coresTo h 1 0).count F.INTC_WAKECNT 1 h).ticksRestarted h := by
  unfold State.fwWake
  rw [if_neg (by simp [hstop, hwake])]
  rfl

theorem State.fwStopped_clockRestarted (s : State) (h : Nat) : (s.clockRestarted h).fwStopped h = false := s.fwStopped_setFwStopped h false

theorem State.raises_foldl {α : Type} {f : State → α → State} (hf : ∀ (t : State) x, t.raises (f t x)) (l : List α) (s : State) :
    s.raises (l.foldl f s) := by
  induction l generalizing s with
  | nil => exact ⟨State.onlyIn_refl s _, State.onlyFields_refl s _, ⟨_, rfl⟩, fun _ hk => hk⟩
  | cons x l ih => exact (hf s x).trans (ih (f s x))

theorem State.raises_latchesPassed (s : State) (h : Nat) : (s.clockRestarted h).raises (s.latchesPassed h) :=
  State.raises_foldl (fun t id => t.raises_raiseHalf h id) _ _

/-- A source whose edge was latched is pending. -/
theorem State.latchesPassed_pending {s : State} {h : Nat} {e : Nat × Nat} (he : e ∈ s.irq.latched) (hhalf : e.1 / 1024 = h) :
    (s.latchesPassed h).flag F.INTC_PEND e.1 = true := by
  have hid : e.1 % 1024 ∈ s.latchedIds h := List.mem_map_of_mem (List.mem_filter.2 ⟨he, beq_iff_eq.2 hhalf⟩)
  have hkey : 1024 * h + e.1 % 1024 = e.1 := by omega
  refine foldl_mem (fun t : State => t.fwStopped h = false) (fun t => t.flag F.INTC_PEND e.1 = true) (fun t id ht => ?_) (fun t ht => ?_)
    (fun t id _ ht => (t.raises_raiseHalf h id).pending _ ht) hid (s.fwStopped_clockRestarted h)
  · exact ((t.raises_raiseHalf h id).fwStopped h).trans ht
  · have hedge := ((t.edgeAt_raiseHalf h (e.1 % 1024)).1 ht).1
    rwa [hkey] at hedge

/-- Restarting the watchdogs changes nothing but their times. -/
theorem State.ticksRestarted_leaves (s : State) (h : Nat) :
    (s.ticksRestarted h).fields = s.fields ∧ (s.ticksRestarted h).fwStopped h = s.fwStopped h :=
  ⟨foldl_same State.fields (f := State.setTick) (fun _ _ => rfl) (halfCores h) s,
    foldl_same (fun t => State.fwStopped t h) (f := State.setTick) (fun _ _ => rfl) (halfCores h) s⟩

/-- FWCLK_WAKE of a stopped half on a latched source that wakes it. -/
theorem State.fwWake_effect {s : State} {h : Nat} (hstop : s.fwStopped h = true) (hwake : s.wakeable h = true) :
    (s.fwWake h).fwStopped h = false ∧
      (s.fwWake h).fld F.INTC_WAKECNT h = min (s.fld F.INTC_WAKECNT h + 1) (2 ^ F.INTC_WAKECNT.width - 1) ∧
      (∀ e ∈ s.irq.latched, e.1 / 1024 = h → (s.fwWake h).flag F.INTC_PEND e.1 = true) ∧
      (∀ j, j ∈ halfCores h → s.rcore j = 1 → (s.fwWake h).rcore j = 0) := by
  have hraised := s.raises_latchesPassed h
  obtain ⟨hin, hcores⟩ := (s.latchesPassed h).coresTo_leaves h 1 0
  obtain ⟨hfields, hstopped⟩ := (((s.latchesPassed h).coresTo h 1 0).count F.INTC_WAKECNT 1 h).ticksRestarted_leaves h
  have hcount : ((s.latchesPassed h).coresTo h 1 0).onlyFields (((s.latchesPassed h).coresTo h 1 0).count F.INTC_WAKECNT 1 h) [F.INTC_WAKECNT] :=
    State.onlyFields_count (State.onlyFields_refl _ _) (by decide)
  rw [State.fwWake_wakes hstop hwake]
  refine ⟨?_, ?_, fun e he hhalf => ?_, fun j hj hidle => ?_⟩
  · have hirq : ((s.latchesPassed h).coresTo h 1 0).fwStopped h = (s.latchesPassed h).fwStopped h := by
      unfold State.fwStopped
      rw [hin .irq (by decide)]
    exact hstopped.trans (hirq.trans ((hraised.fwStopped h).trans (s.fwStopped_clockRestarted h)))
  · rw [State.fld_of_fields hfields, State.fld_count_same, hcores.fld h (by decide), hraised.fields.fld h (by decide)]
    rfl
  · refine (State.flag_of_fld ?_).trans (State.latchesPassed_pending he hhalf)
    rw [State.fld_of_fields hfields, hcount.fld _ (by decide), hcores.fld _ (by decide)]
  · rw [State.rcore_of_fields hfields, hcount.rcore (by decide)]
    exact State.rcore_coresTo (by decide) hj ((hraised.fields.rcore (by decide) j).trans hidle)

/-! The tick (R322). -/

theorem State.kernelTick_restarts {s : State} {j : Nat} (hruns : s.rcoreRuns j = true) (hclock : s.fwStopped (j / 4) = false)
    (hpause : s.paused = false) (hdue : SMap.get 0 s.irq.ticks j + 4000 ≤ s.now) : s.kernelTick j = s.setTick j := by
  simp [State.kernelTick, hruns, hclock, hpause, hdue]

theorem State.kernelTick_refused {s : State} {j : Nat}
    (hno : s.rcoreRuns j = false ∨ s.fwStopped (j / 4) = true ∨ s.now < SMap.get 0 s.irq.ticks j + 4000) : s.kernelTick j = s := by
  rcases hno with hno | hno | hno
  · simp [State.kernelTick, hno]
  · simp [State.kernelTick, hno]
  · simp [State.kernelTick, Nat.not_le.2 hno]

/-! The statement, command by command. -/

theorem State.intcComplete_claimed {s : State} {h k id : Nat} (hc : s.claimedBy h id = k + 1) : s.intcComplete h k id = s.setClaimed h id 0 := if_pos hc

theorem State.intcComplete_other {s : State} {h k id : Nat} (hc : s.claimedBy h id ≠ k + 1) : s.intcComplete h k id = s := if_neg hc

/-- Settles O47: edges, claims and completions, the firmware clock and the tick, clause by clause. -/
theorem interruptsAreClaimed : Obligations.InterruptsAreClaimed := by
  unfold Obligations.InterruptsAreClaimed
  intro s h k hh hk
  have hhalf : decide (h < halfCount) = true := decide_eq_true hh
  refine ⟨fun id hid => ?_, fun hnone => ?_, fun id hid hel hbest => ?_, fun id hid => ?_, fun idle => ?_, fun hno => ?_, fun hstop hwake => ?_,
    fun j hj => ?_⟩
  · rw [exec_interruptEdge, within_next (by simp [hhalf, hid])]
    obtain ⟨hin, hflds⟩ := s.edge_leaves h id
    exact ⟨⟨_, rfl, hin, hflds, fun g hg hwired => s.edgeAt_edge hg hwired⟩, fun hboth hown => by rw [s.edge_unconnected h hboth hown]⟩
  · rw [execIntcClaim_next s hh hk, State.intcClaim_none hnone]
  · obtain ⟨hread, hpend, hclaimed, hnamed, hin⟩ := State.intcClaim_best hid (State.bestSource_some hid hel hbest)
    exact ⟨_, execIntcClaim_next s hh hk, hread, hpend, hclaimed, hnamed, fun j _ => State.not_eligible_of_pend j hpend, hin⟩
  · rw [exec_intcComplete, within_next (by simp [hhalf, hk]), Nat.mod_eq_of_lt hid]
    refine ⟨fun hc => ?_, fun hc => by rw [State.intcComplete_other hc]⟩
    rw [State.intcComplete_claimed hc]
    exact ⟨_, rfl, s.claimedBy_setClaimed_same h id 0, s.onlyIn_setClaimed h id 0⟩
  · rw [exec_fwclkStop, within_next hhalf]
    refine ⟨fun hno => by rw [State.fwStop_refused hno], fun hrun hidle => ?_⟩
    obtain ⟨hin, hflds⟩ := s.coresTo_leaves h 0 1
    obtain ⟨hirq, hsame⟩ := (s.coresTo h 0 1).setFwStopped_leaves h true
    rw [State.fwStop_stops hrun hidle]
    exact ⟨_, rfl, State.fwStopped_setFwStopped _ h true,
      fun j hj hrc => (State.rcore_of_fields hsame j).trans (State.rcore_coresTo (by decide) hj hrc),
      State.onlyIn_then (State.onlyIn_mono hin (by decide)) hirq (by decide), State.onlyFields_same hflds hsame⟩
  · rw [exec_fwclkWake, within_next hhalf, State.fwWake_refused hno]
  · exact ⟨_, within_next hhalf, State.fwWake_effect hstop hwake⟩
  · rw [exec_kernelTick, within_next (show decide (j < rangerCount) = true from decide_eq_true hj)]
    exact ⟨fun hruns hclock hpause hdue => by rw [State.kernelTick_restarts hruns hclock hpause hdue]; rfl,
      fun hno => by rw [State.kernelTick_refused hno]⟩

end Sys2Proof.Machine

/-!
PROOFS of the statement on the Ranger cores and leadership (10_ranger_firmware R339 to R345).
-/

namespace Sys2Proof.Machine

/-! A core crashes (R339, R340, R342). -/

/-- The crashes of the last second, and this one. -/
def State.recentCrashes (s : State) (k : Nat) : SMap Nat := (s.irq.crashes.filter fun e => decide (s.now < e.2 + 1000000000)) ++ [(k, s.now)]

/-- Whether it is the core's third within 1 s. -/
def State.thirdCrash (s : State) (k : Nat) : Bool := decide (3 ≤ ((s.recentCrashes k).filter fun e => e.1 == k).length)

/-- The crash counts with those of the core in the last second. -/
theorem State.thirdCrash_iff (s : State) (k : Nat) :
    s.thirdCrash k = true ↔ 2 ≤ (s.irq.crashes.filter fun e => decide (s.now < e.2 + 1000000000) && e.1 == k).length := by
  have hfilter : ((s.recentCrashes k).filter fun e => e.1 == k) =
      (s.irq.crashes.filter fun e => decide (s.now < e.2 + 1000000000) && e.1 == k) ++ [(k, s.now)] := by
    rw [State.recentCrashes, List.filter_append, List.filter_filter]
    simp only [Bool.and_comm, List.filter_cons, beq_self_eq_true, if_true, List.filter_nil]
  rw [State.thirdCrash, hfilter, decide_eq_true_iff, List.length_append, List.length_singleton]
  omega

/-- A core's crash as the registers show it. -/
def State.crashShown (s : State) (k cause v : Nat) : State :=
  ((((s.setRcore k v).setFld F.RGR_LASTCRASH_CAUSE cause (k / 4)).setFld F.RGR_LASTCRASH_FRAME s.frame.number (k / 4)).setFld
    F.RGR_LASTCRASH_CORE k (k / 4)).count F.RGR_CRASHCNT 1 (k / 4)

/-- The crash is listed among those of the last second. -/
def State.crashListed (s : State) (k : Nat) : State := { s with irq := { s.irq with crashes := s.recentCrashes k } }

/-- The state that the core takes: RETIRED at the third crash, otherwise DOWN. -/
def State.crashState (s : State) (k : Nat) : Nat := if s.thirdCrash k then 4 else 2

/-- The crash is listed, shown and recorded in the history. -/
def State.crashRecorded (s : State) (k cause : Nat) : State := ((s.crashListed k).crashShown k cause (s.crashState k)).unitError 5 (k / 4) 0

theorem State.crashState_lt (s : State) (k : Nat) : s.crashState k < 16 := by
  unfold State.crashState
  split_ifs <;> decide

/-- The other cores and the host are told. -/
def State.crashTold (s : State) (k cause : Nat) (third : Bool) : State :=
  let t := (s.raiseBoth (irqRangerDown + k)).post 0x0021 [k, cause]
  if third then t.post 0x0023 [k] else t

theorem State.crash_running {s : State} {k : Nat} (cause : Nat) (hruns : s.rcoreRuns k = true) :
    s.crash k cause = ((s.crashRecorded k cause).repend k).crashTold k cause (s.thirdCrash k) := by
  unfold State.crash
  rw [hruns, Bool.not_true, if_neg Bool.false_ne_true]
  rfl

theorem State.crash_refused {s : State} {k : Nat} (cause : Nat) (hruns : s.rcoreRuns k = false) : s.crash k cause = s := by
  simp [State.crash, hruns]

theorem State.raises_crashTold (s : State) (k cause : Nat) (third : Bool) : s.raises (s.crashTold k cause third) := by
  have htold := (s.raises_raiseBoth (irqRangerDown + k)).trans (State.raises_post _ 0x0021 [k, cause])
  unfold State.crashTold
  dsimp only
  split_ifs
  · exact htold.trans (State.raises_post _ 0x0023 [k])
  · exact htold

/-- What the registers show of a crash. -/
theorem State.crashShown_reads (s : State) {k cause v : Nat} (hk : k < 8) (hcause : cause < 256) (hv : v < 16) :
    (s.crashShown k cause v).rcore k = v ∧ (s.crashShown k cause v).fld F.RGR_LASTCRASH_CAUSE (k / 4) = cause ∧
      (s.crashShown k cause v).fld F.RGR_LASTCRASH_CORE (k / 4) = k ∧
      (s.crashShown k cause v).fld F.RGR_CRASHCNT (k / 4) = min (s.fld F.RGR_CRASHCNT (k / 4) + 1) (2 ^ F.RGR_CRASHCNT.width - 1) := by
  have hsmall : cause % 2 ^ F.RGR_LASTCRASH_CAUSE.width = cause := Nat.mod_eq_of_lt hcause
  have hcore : k % 2 ^ F.RGR_LASTCRASH_CORE.width = k := Nat.mod_eq_of_lt hk
  refine ⟨?_, ?_, ?_, ?_⟩
  · have hlater : (s.setRcore k v).onlyFields (s.crashShown k cause v)
        [F.RGR_LASTCRASH_CAUSE, F.RGR_LASTCRASH_FRAME, F.RGR_LASTCRASH_CORE, F.RGR_CRASHCNT] :=
      State.onlyFields_count (State.onlyFields_setFld (State.onlyFields_setFld (State.onlyFields_setFld (State.onlyFields_refl _ _)
        (by decide)) (by decide)) (by decide)) (by decide)
    rw [hlater.rcore (by decide), State.rcore_setRcore s hv, if_pos rfl]
  · simp (disch := decide) [State.crashShown, State.fld_count_of_code, State.fld_setFld_of_code, hsmall]
  · simp (disch := decide) [State.crashShown, State.fld_count_of_code, hcore]
  · rw [State.crashShown, State.fld_count_same]
    simp (disch := decide) only [State.fld_setFld_of_code]
    rw [(s.onlyFields_setRcore k v).fld _ (by decide)]

theorem State.onlyIn_crashShown (s : State) (k cause v : Nat) : s.onlyIn (s.crashShown k cause v) [.fields] :=
  State.onlyIn_count (State.onlyIn_setFld (State.onlyIn_setFld (State.onlyIn_setFld (s.onlyIn_setRcore k v) (by decide)) (by decide)) (by decide))
    (by decide)

theorem State.onlyIn_crashRecorded (s : State) (k cause : Nat) : s.onlyIn (s.crashRecorded k cause) [.fields, .irq, .hist] := by
  have hlisted : s.onlyIn (s.crashListed k) [.fields, .irq, .hist] := State.onlyIn_mono (s.onlyIn_irq _) (by decide)
  exact State.onlyIn_then (State.onlyIn_then hlisted ((s.crashListed k).onlyIn_crashShown k cause (s.crashState k)) (by decide))
    (State.onlyIn_unitError _ 5 (k / 4) 0 1) (by decide)

/-- The claims stand as they did when a crash is recorded. -/
theorem State.claimed_crashRecorded (s : State) (k cause : Nat) : (s.crashRecorded k cause).irq.claimed = s.irq.claimed := by
  have hirq : (s.crashRecorded k cause).irq = (s.crashListed k).irq := State.onlyIn_unitError _ 5 (k / 4) 0 1 .irq (by decide)
  rw [hirq]
  rfl

/-- A source that is completed and pending again. -/
def State.pendAgain (h : Nat) (s : State) (id : Nat) : State := (s.setClaimed h id 0).setFld F.INTC_PEND 1 (1024 * h + id)

/-- The sources that a core has claimed. -/
def State.claimedIds (s : State) (k : Nat) : List Nat :=
  (s.irq.claimed.filter fun e => e.1 / 1024 == k / 4 && e.2 == k % 4 + 1).map fun e => e.1 % 1024

theorem State.repend_eq (s : State) (k : Nat) : s.repend k = (s.claimedIds k).foldl (State.pendAgain (k / 4)) s := rfl

theorem State.repend_leaves (s : State) (k : Nat) : s.onlyIn (s.repend k) [.fields, .irq] ∧ s.onlyFields (s.repend k) [F.INTC_PEND] := by
  rw [State.repend_eq]
  refine ⟨State.onlyIn_foldl (fun t id => ?_) _ s, State.onlyFields_foldl (fun t id => ?_) _ s⟩
  · exact State.onlyIn_setFld (State.onlyIn_mono (t.onlyIn_setClaimed _ _ _) (by decide)) (by decide)
  · exact State.onlyFields_setFld (State.onlyFields_same (State.onlyFields_refl t _) rfl) (by decide)

/-- Every source that the core had claimed is pending and claimed no more (R339). -/
theorem State.repend_pends {s : State} {k id : Nat} (hid : id < 1024) (hc : s.claimedBy (k / 4) id = k % 4 + 1) :
    (s.repend k).flag F.INTC_PEND (1024 * (k / 4) + id) = true ∧ (s.repend k).claimedBy (k / 4) id = 0 := by
  have hentry : (1024 * (k / 4) + id, k % 4 + 1) ∈ s.irq.claimed := hc ▸ SMap.mem_of_get_ne (d := 0) (by rw [State.claimedBy] at hc; omega)
  have hlisted : id ∈ s.claimedIds k := by
    refine List.mem_map.2 ⟨_, List.mem_filter.2 ⟨hentry, ?_⟩, ?_⟩
    · rw [Bool.and_eq_true, beq_iff_eq, beq_iff_eq]
      exact ⟨by omega, rfl⟩
    · show (1024 * (k / 4) + id) % 1024 = id
      omega
  refine foldl_mem (fun _ => True) (fun t : State => t.flag F.INTC_PEND (1024 * (k / 4) + id) = true ∧ t.claimedBy (k / 4) id = 0)
    (fun _ _ _ => trivial) (fun t _ => ?_) (fun t b hb ht => ?_) hlisted trivial
  · exact ⟨(State.flag_setFld_one _ rfl _ _).2 (.inl rfl), t.claimedBy_setClaimed_same _ id 0⟩
  · exact ⟨(State.flag_setFld_one _ rfl _ _).2 (.inr ht.1), (t.claimedBy_setClaimed_ne _ 0 hb.symm).trans ht.2⟩

/-- What the registers show of a crash, the sources it leaves, and what it leaves as it was (R339, R340, R342). -/
theorem State.crash_effect {s : State} {k cause : Nat} (hk : k < 8) (hcause : cause < 256) (hruns : s.rcoreRuns k = true) :
    (s.crash k cause).rcore k =
        (if 2 ≤ (s.irq.crashes.filter fun e => decide (s.now < e.2 + 1000000000) && e.1 == k).length then 4 else 2) ∧
      (s.crash k cause).fld F.RGR_LASTCRASH_CAUSE (k / 4) = cause ∧ (s.crash k cause).fld F.RGR_LASTCRASH_CORE (k / 4) = k ∧
      (s.crash k cause).fld F.RGR_CRASHCNT (k / 4) = min (s.fld F.RGR_CRASHCNT (k / 4) + 1) (2 ^ F.RGR_CRASHCNT.width - 1) ∧
      (∀ id, id < 1024 → s.claimedBy (k / 4) id = k % 4 + 1 →
        (s.crash k cause).flag F.INTC_PEND (1024 * (k / 4) + id) = true ∧ (s.crash k cause).claimedBy (k / 4) id = 0) ∧
      s.onlyIn (s.crash k cause) [.fields, .irq, .hist, .host] := by
  rw [State.crash_running cause hruns]
  obtain ⟨hpendIn, hpendFlds⟩ := (s.crashRecorded k cause).repend_leaves k
  have htold := ((s.crashRecorded k cause).repend k).raises_crashTold k cause (s.thirdCrash k)
  have hflds := State.onlyFields_then (State.onlyFields_then (fs := [F.INTC_PEND, F.INTC_MERGECNT])
    (State.onlyFields_same (State.onlyFields_refl _ _) (State.unitError_fields ..)) hpendFlds (by decide)) htold.fields (by decide)
  obtain ⟨hcore, hcauseShown, hcoreShown, hcount⟩ :=
    (s.crashListed k).crashShown_reads hk hcause (s.crashState_lt k)
  refine ⟨?_, (hflds.fld _ (by decide)).trans hcauseShown, (hflds.fld _ (by decide)).trans hcoreShown, (hflds.fld _ (by decide)).trans hcount,
    fun id hid hc => ?_, ?_⟩
  · rw [hflds.rcore (by decide), hcore]
    simp only [State.crashState, State.thirdCrash_iff]
  · have hsame : (s.crashRecorded k cause).claimedBy (k / 4) id = s.claimedBy (k / 4) id := by
      rw [State.claimedBy, State.claimed_crashRecorded]
      rfl
    obtain ⟨hpend, hfree⟩ := State.repend_pends hid (hsame.trans hc)
    exact ⟨htold.pending _ hpend, (htold.claimedBy _ id).trans hfree⟩
  · exact State.onlyIn_then (State.onlyIn_then (State.onlyIn_mono (s.onlyIn_crashRecorded k cause) (by decide)) hpendIn (by decide)) htold.parts
      (by decide)

/-- WATCHDOG_EXPIRY 16 µs after the last restart, the half's clock running and no activation pausing it (R340). -/
theorem State.watchdog_expires {s : State} {k : Nat} (hclock : s.fwStopped (k / 4) = false) (hpause : s.paused = false)
    (hdue : SMap.get 0 s.irq.ticks k + 16000 ≤ s.now) : s.watchdog k = s.crash k 1 := by
  simp [State.watchdog, hclock, hpause, hdue]

theorem State.watchdog_early {s : State} {k : Nat} (hearly : s.now < SMap.get 0 s.irq.ticks k + 16000) : s.watchdog k = s := by
  simp [State.watchdog, Nat.not_le.2 hearly]

/-- A crash by cause, of a core that the part has: RANGER_DOWN, and WATCHDOG_EXPIRY when it is due. -/
theorem exec_crash {s : State} {k cause : Nat} {i : Instr} (hk : k < 8)
    (hi : (i = .rangerDown k cause ∧ 2 ≤ cause ∧ cause ≤ 4) ∨
      (i = .watchdogExpiry k ∧ cause = 1 ∧ s.fwStopped (k / 4) = false ∧ s.paused = false ∧ SMap.get 0 s.irq.ticks k + 16000 ≤ s.now)) :
    exec i s = .next (s.crash k cause) ∧ cause < 256 := by
  rcases hi with ⟨rfl, hlo, hhi⟩ | ⟨rfl, rfl, hclock, hpause, hdue⟩
  · exact ⟨within_next (by simp [rangerCount, hk, hlo, hhi]), by omega⟩
  · rw [exec_watchdogExpiry, within_next (by simp [rangerCount, hk]), State.watchdog_expires hclock hpause hdue]
    exact ⟨rfl, by decide⟩

/-! A sibling stands in (R341). -/

/-- A core that stands in for another is one of the eight. -/
theorem State.sibling_lt {s : State} {k j : Nat} (hk : k < 8) (hj : s.sibling k = some j) : j < 8 := by
  unfold State.sibling at hj
  split at hj
  · next i hfind =>
    obtain ⟨x, -, rfl⟩ := List.mem_map.1 (List.mem_of_find?_eq_some hfind)
    cases hj
    omega
  · have hmem := List.mem_of_find?_eq_some hj
    simp only [halfCores, List.mem_cons, List.not_mem_nil, or_false] at hmem
    omega

theorem State.owner_setOwner_ne (s : State) {q r : Nat} (k : Option Nat) (h : r ≠ q) : (s.setOwner q k).owner r = s.owner r := by
  cases k <;> simp (disch := decide) [State.owner, State.setOwner, State.flag, State.fld_setFld_of_code, State.fld_setFld_place _ _ _ _ _ h]

/-- Queues are given to a core, one after another. -/
def State.queuesGiven (s : State) (j : Nat) (qs : List Nat) : State := qs.foldl (fun s q => s.setOwner q (some j)) s

/-- They have it as their owner; the others keep theirs. -/
theorem State.owner_queuesGiven (s : State) {j : Nat} (hj : j < 8) (qs : List Nat) (q : Nat) :
    (s.queuesGiven j qs).owner q = if q ∈ qs then some j else s.owner q := by
  induction qs generalizing s with
  | nil => simp [State.queuesGiven]
  | cons r qs ih =>
    rw [State.queuesGiven, List.foldl_cons, ← State.queuesGiven, ih]
    by_cases hq : q = r
    · subst hq
      simp [State.owner_setOwner_same s q (some j) fun n hn => Option.some.inj hn ▸ hj]
    · simp [hq, State.owner_setOwner_ne s (some j) hq]

theorem State.queuesGiven_leaves (s : State) (j : Nat) (qs : List Nat) :
    s.onlyIn (s.queuesGiven j qs) [.fields] ∧ s.onlyFields (s.queuesGiven j qs) [F.RGR_QMAP_DATA_OWNED, F.RGR_QMAP_DATA_RCORE] :=
  ⟨State.onlyIn_foldl (fun t q => t.onlyIn_setOwner q (some j)) qs s, State.onlyFields_foldl (fun t q => t.onlyFields_setOwner q (some j)) qs s⟩

/-- The notice that core `k` is down has been taken in the half of core `j`. -/
def State.downSeen (s : State) (k j : Nat) : State := s.setFld F.INTC_PEND 0 (1024 * (j / 4) + irqRangerDown + k)

/-- The queues of a core. -/
def State.queuesOf (s : State) (k : Nat) : List Nat := (List.range queueCount).filter fun q => s.owner q == some k

theorem State.mem_queuesOf (s : State) (k : Nat) {q : Nat} (hq : q < 1024) : q ∈ s.queuesOf k ↔ s.owner q = some k := by
  have hcount : q < queueCount := hq
  rw [State.queuesOf, List.mem_filter, List.mem_range, beq_iff_eq, and_iff_right hcount]

/-- Queues of core `k` pass to core `j`, which is to give them back. -/
def State.queuesPassed (s : State) (k j : Nat) (qs : List Nat) : State :=
  let t := (s.downSeen k j).queuesGiven j qs
  { t with irq := { t.irq with returning := t.irq.returning ++ qs.map fun q => (q, k) } }

theorem State.takeover_taken {s : State} {k j : Nat} (hj : s.sibling k = some j) (hruns : s.rcoreRuns k = false) (hrep : s.rcore k ≠ 5) :
    s.takeover k = (s.queuesPassed k j ((s.downSeen k j).queuesOf k)).takeSources k j := by
  unfold State.takeover State.queuesPassed State.queuesGiven State.queuesOf State.downSeen
  rw [hj]
  dsimp only
  rw [if_neg (by simp [hruns, hrep])]

/-- The notice is no queue's owner. -/
theorem State.owner_downSeen (s : State) (k j q : Nat) : (s.downSeen k j).owner q = s.owner q := by
  have hpend : s.onlyFields (s.downSeen k j) [F.INTC_PEND] := State.onlyFields_setFld (State.onlyFields_refl s _) (by decide)
  obtain ⟨-, -, -, -, -, howner, -⟩ := hpend.queueViews (by decide) q
  exact howner

theorem State.owner_queuesPassed (s : State) (k : Nat) {j : Nat} (qs : List Nat) (q : Nat) (hj : j < 8) :
    (s.queuesPassed k j qs).owner q = if q ∈ qs then some j else s.owner q := by
  have hgiven := (s.downSeen k j).owner_queuesGiven hj qs q
  rwa [s.owner_downSeen] at hgiven

theorem State.queuesPassed_leaves (s : State) (k j : Nat) (qs : List Nat) :
    s.onlyIn (s.queuesPassed k j qs) [.fields, .irq] ∧
      s.onlyFields (s.queuesPassed k j qs) [F.INTC_PEND, F.RGR_QMAP_DATA_OWNED, F.RGR_QMAP_DATA_RCORE] := by
  obtain ⟨hin, hflds⟩ := (s.downSeen k j).queuesGiven_leaves j qs
  have hseenIn : s.onlyIn (s.downSeen k j) [.fields, .irq] := State.onlyIn_setFld (State.onlyIn_refl s _) (by decide)
  have hseenFlds : s.onlyFields (s.downSeen k j) [F.INTC_PEND, F.RGR_QMAP_DATA_OWNED, F.RGR_QMAP_DATA_RCORE] :=
    State.onlyFields_setFld (State.onlyFields_refl s _) (by decide)
  exact ⟨State.onlyIn_then (State.onlyIn_then hseenIn hin (by decide)) (State.onlyIn_irq _ _) (by decide),
    State.onlyFields_same (State.onlyFields_then hseenFlds hflds (by decide)) rfl⟩

theorem State.takeSources_leaves (s : State) (k j : Nat) : s.onlyIn (s.takeSources k j) [.fields] ∧ s.onlyFields (s.takeSources k j) [F.INTC_EN] := by
  unfold State.takeSources
  refine ⟨State.onlyIn_foldl (fun t _ => ?_) _ s, State.onlyFields_foldl (fun t _ => ?_) _ s⟩
  · exact State.onlyIn_setFld (State.onlyIn_refl t _) (by decide)
  · exact State.onlyFields_setFld (State.onlyFields_refl t _) (by decide)

/-- The sources that a core had enabled are enabled for the other. -/
theorem State.takeSources_enables {s : State} {k id : Nat} (j : Nat) (hid : id < 1023) (hen : s.flag F.INTC_EN (k * 1024 + id) = true) :
    (s.takeSources k j).flag F.INTC_EN (j * 1024 + id) = true := by
  unfold State.takeSources
  extract_lets ids
  have hlisted : id ∈ ids := List.mem_filter.2 ⟨List.mem_range.2 hid, by rw [hen, Bool.true_or]⟩
  clear_value ids
  refine foldl_mem (fun _ => True) (fun t : State => t.flag F.INTC_EN (j * 1024 + id) = true) (fun _ _ _ => trivial) (fun t _ => ?_) (fun t b _ ht => ?_)
    hlisted trivial
  · exact (State.flag_setFld_one t rfl _ _).2 (.inl rfl)
  · exact (State.flag_setFld_one t rfl _ _).2 (.inr ht)

/-- RANGER_TAKEOVER: the queues, the sources and the frame of the take-over (R341). -/
theorem State.takeover_effect {s : State} {k j : Nat} (hk : k < 8) (hj : s.sibling k = some j) (hruns : s.rcoreRuns k = false) (hrep : s.rcore k ≠ 5) :
    (∀ q, q < 1024 → (s.takeover k).owner q = if s.owner q = some k then some j else s.owner q) ∧
      (∀ id, id < 1023 → s.flag F.INTC_EN (k * 1024 + id) = true → (s.takeover k).flag F.INTC_EN (j * 1024 + id) = true) ∧
      s.onlyIn (s.takeover k) [.fields, .irq] := by
  rw [State.takeover_taken hj hruns hrep]
  obtain ⟨hpassedIn, hpassedFlds⟩ := s.queuesPassed_leaves k j ((s.downSeen k j).queuesOf k)
  obtain ⟨hsourcesIn, hsourcesFlds⟩ := (s.queuesPassed k j ((s.downSeen k j).queuesOf k)).takeSources_leaves k j
  refine ⟨fun q hq => ?_, fun id hid hen => ?_, State.onlyIn_then hpassedIn hsourcesIn (by decide)⟩
  · obtain ⟨-, -, -, -, -, howner, -⟩ := hsourcesFlds.queueViews (by decide) q
    rw [howner, s.owner_queuesPassed k _ q (State.sibling_lt hk hj)]
    simp only [State.mem_queuesOf _ k hq, s.owner_downSeen]
  · exact State.takeSources_enables j hid ((State.flag_of_fld (hpassedFlds.fld _ (by decide))).trans hen)

/-! A core comes back (R342). -/

theorem State.rangerUp_up {s : State} {k : Nat} (hdown : s.rcore k = 2 ∨ s.rcore k = 3) (hheld : s.holder ≠ 0)
    (hleader : (halfCores (s.holder - 1)).any s.rcoreRuns = true) :
    s.rangerUp k = (((s.setRcore k 0).setTick k).count F.RGR_RELOADCNT 1 (k / 4)).post 0x0022 [k] := by
  unfold State.rangerUp
  exact if_pos (by simp [hdown, hheld, hleader])

theorem State.rangerUp_refused {s : State} {k : Nat} (hdown : s.rcore k ≠ 2) (hreload : s.rcore k ≠ 3) : s.rangerUp k = s := by
  simp [State.rangerUp, hdown, hreload]

/-- RANGER_UP of a core that is DOWN or reloaded, under a running leader: it runs and is counted. -/
theorem State.rangerUp_effect {s : State} {k : Nat} (hdown : s.rcore k = 2 ∨ s.rcore k = 3) (hheld : s.holder ≠ 0)
    (hleader : (halfCores (s.holder - 1)).any s.rcoreRuns = true) :
    (s.rangerUp k).rcore k = 0 ∧
      (s.rangerUp k).fld F.RGR_RELOADCNT (k / 4) = min (s.fld F.RGR_RELOADCNT (k / 4) + 1) (2 ^ F.RGR_RELOADCNT.width - 1) := by
  have hcount : ((s.setRcore k 0).setTick k).onlyFields (((s.setRcore k 0).setTick k).count F.RGR_RELOADCNT 1 (k / 4)) [F.RGR_RELOADCNT] :=
    State.onlyFields_count (State.onlyFields_refl _ _) (by decide)
  rw [State.rangerUp_up hdown hheld hleader]
  constructor
  · rw [State.rcore_of_fields (State.post_fields ..), hcount.rcore (by decide), State.rcore_setTick, State.rcore_setRcore s (by decide), if_pos rfl]
  · have hsame : ((s.setRcore k 0).setTick k).fld F.RGR_RELOADCNT (k / 4) = s.fld F.RGR_RELOADCNT (k / 4) :=
      (s.onlyFields_setRcore k 0).fld (f := F.RGR_RELOADCNT) (k / 4) (by decide)
    rw [State.fld_post, State.fld_count_same, hsame]

/-! Leadership (R343 to R345). -/

/-- The fields that say who leads, and those of the notice of a change. -/
def leaderFlds : List Fld :=
  [F.RGR_LATCH_HOLDER, F.GLB_LEADER_VALID, F.GLB_LEADER_HALF, F.RGR_STATUS_LEADER, F.INTC_PEND, F.INTC_MERGECNT]

/-- The latch and its mirror, before the halves' bits follow. -/
def State.holderShown (s : State) (v : Nat) : State :=
  let t := (s.setFld F.RGR_LATCH_HOLDER v).setFlag F.GLB_LEADER_VALID (v != 0)
  if v = 0 then t else t.setFld F.GLB_LEADER_HALF (v - 1)

/-- The halves' LEADER bits, and the notice by identity 7. -/
def State.leaderTold (s : State) (v : Nat) : State :=
  ((s.setFlag F.RGR_STATUS_LEADER (v == 1) 0).setFlag F.RGR_STATUS_LEADER (v == 2) 1).raiseBoth irqLeadership

theorem State.setHolder_eq (s : State) (v : Nat) : s.setHolder v = (s.holderShown v).leaderTold v := rfl

theorem State.leaderTold_leaves (s : State) (v : Nat) :
    s.onlyIn (s.leaderTold v) [.fields, .irq] ∧ s.onlyFields (s.leaderTold v) [F.RGR_STATUS_LEADER, F.INTC_PEND, F.INTC_MERGECNT] :=
  ⟨State.onlyIn_then (State.onlyIn_setFlag (State.onlyIn_setFlag (State.onlyIn_refl s _) (by decide)) (by decide)) (State.onlyIn_raiseBoth _ _)
      (by decide),
    State.onlyFields_then (State.onlyFields_setFlag (State.onlyFields_setFlag (State.onlyFields_refl s _) (by decide)) (by decide))
      (State.onlyFields_raiseBoth _ _) (by decide)⟩

theorem State.holderShown_leaves (s : State) (v : Nat) :
    s.onlyIn (s.holderShown v) [.fields] ∧ s.onlyFields (s.holderShown v) [F.RGR_LATCH_HOLDER, F.GLB_LEADER_VALID, F.GLB_LEADER_HALF] := by
  unfold State.holderShown
  extract_lets t
  have htIn : s.onlyIn t [.fields] := State.onlyIn_setFlag (State.onlyIn_setFld (State.onlyIn_refl s _) (by decide)) (by decide)
  have htFlds : s.onlyFields t [F.RGR_LATCH_HOLDER, F.GLB_LEADER_VALID, F.GLB_LEADER_HALF] :=
    State.onlyFields_setFlag (State.onlyFields_setFld (State.onlyFields_refl s _) (by decide)) (by decide)
  split_ifs
  · exact ⟨htIn, htFlds⟩
  · exact ⟨State.onlyIn_setFld htIn (by decide), State.onlyFields_setFld htFlds (by decide)⟩

theorem State.holderShown_reads (s : State) {v : Nat} (hv : v < 3) :
    (s.holderShown v).holder = v ∧ (s.holderShown v).flag F.GLB_LEADER_VALID = (v != 0) ∧
      (v ≠ 0 → (s.holderShown v).fld F.GLB_LEADER_HALF = v - 1) := by
  have hholder : v % 2 ^ F.RGR_LATCH_HOLDER.width = v := Nat.mod_eq_of_lt (Nat.lt_of_lt_of_le hv (by decide))
  have hmirror : (v - 1) % 2 ^ F.GLB_LEADER_HALF.width = v - 1 := Nat.mod_eq_of_lt (show v - 1 < 2 by omega)
  unfold State.holderShown
  extract_lets t
  have htHolder : t.holder = v := by
    rw [State.holder, State.fld_setFlag_of_code _ _ _ _ _ _ (by decide) (by decide) (by decide), State.fld_setFld_same, hholder]
  have htValid : t.flag F.GLB_LEADER_VALID = (v != 0) := State.flag_setFlag_same _ _ _ rfl
  by_cases h0 : v = 0
  · rw [if_pos h0]
    exact ⟨htHolder, htValid, fun hne => absurd h0 hne⟩
  · have hread : ∀ f : Fld, f.code < 1024 → f.code ≠ F.GLB_LEADER_HALF.code → (t.setFld F.GLB_LEADER_HALF (v - 1)).fld f = t.fld f :=
      fun f hf hne => State.fld_setFld_of_code _ _ _ _ _ _ (by decide) hf hne
    rw [if_neg h0]
    exact ⟨(hread _ (by decide) (by decide)).trans htHolder, (State.flag_of_fld (hread _ (by decide) (by decide))).trans htValid,
      fun _ => (State.fld_setFld_same ..).trans hmirror⟩

/-- HOLDER takes a value: the latch, its mirror, and what else the change touches. -/
theorem State.setHolder_effect (s : State) {v : Nat} (hv : v < 3) :
    (s.setHolder v).holder = v ∧ (s.setHolder v).flag F.GLB_LEADER_VALID = (v != 0) ∧ (v ≠ 0 → (s.setHolder v).fld F.GLB_LEADER_HALF = v - 1) ∧
      s.onlyIn (s.setHolder v) [.fields, .irq] ∧ s.onlyFields (s.setHolder v) leaderFlds := by
  obtain ⟨hholder, hvalid, hhalf⟩ := s.holderShown_reads hv
  obtain ⟨hshownIn, hshownFlds⟩ := s.holderShown_leaves v
  obtain ⟨htoldIn, htoldFlds⟩ := (s.holderShown v).leaderTold_leaves v
  rw [State.setHolder_eq]
  exact ⟨(htoldFlds.fld _ (by decide)).trans hholder, (State.flag_of_fld (htoldFlds.fld _ (by decide))).trans hvalid,
    fun hne => (htoldFlds.fld _ (by decide)).trans (hhalf hne), State.onlyIn_then (State.onlyIn_mono hshownIn (by decide)) htoldIn (by decide),
    State.onlyFields_then (State.onlyFields_then (State.onlyFields_refl s _) hshownFlds (by decide)) htoldFlds (by decide)⟩

/-- The epoch and the holder of a claim, and its count. -/
def State.leadTaken (s : State) (h : Nat) : State := ((s.setFld F.RGR_EPOCH ((s.epoch + 1) % 2 ^ 32)).setHolder (h + 1)).count F.RGR_CLAIMCNT 1 h

/-- The new leader's timers and its belief (R345, R348). -/
def State.leadBegun (s : State) (h e : Nat) : State :=
  ({ s with irq := { s.irq with refreshed := some s.now, rebuilt := s.now + 40000, noLead := false } } : State).setBelief h (some e)

theorem State.claimLead_granted {s : State} {h : Nat} (hfree : s.holder = 0) (hup : s.halfUp h = true) :
    s.claimLead h = ((s.leadTaken h).leadBegun h ((s.epoch + 1) % 2 ^ 32)).post 0x0020 [(s.epoch + 1) % 2 ^ 32, h + 1] := by
  unfold State.claimLead
  rw [if_neg (by simp [hfree, hup])]
  rfl

theorem State.claimLead_refused {s : State} {h : Nat} (hno : s.holder ≠ 0 ∨ s.halfUp h = false) : s.claimLead h = s := by
  rcases hno with hno | hno <;> simp [State.claimLead, hno]

theorem State.leadTaken_effect (s : State) {h : Nat} (hh : h < 2) :
    (s.leadTaken h).fld F.RGR_EPOCH = (s.fld F.RGR_EPOCH + 1) % 2 ^ 32 ∧ (s.leadTaken h).holder = h + 1 ∧
      (s.leadTaken h).flag F.GLB_LEADER_VALID = true ∧ (s.leadTaken h).fld F.GLB_LEADER_HALF = h ∧
      (s.leadTaken h).fld F.RGR_CLAIMCNT h = min (s.fld F.RGR_CLAIMCNT h + 1) (2 ^ F.RGR_CLAIMCNT.width - 1) ∧
      s.onlyIn (s.leadTaken h) [.fields, .irq] := by
  obtain ⟨hholder, hvalid, hhalf, hin, hflds⟩ :=
    (s.setFld F.RGR_EPOCH ((s.epoch + 1) % 2 ^ 32)).setHolder_effect (v := h + 1) (by omega)
  have hepoch : s.onlyFields (s.setFld F.RGR_EPOCH ((s.epoch + 1) % 2 ^ 32)) [F.RGR_EPOCH] :=
    State.onlyFields_setFld (State.onlyFields_refl s _) (by decide)
  have hcount : ((s.setFld F.RGR_EPOCH ((s.epoch + 1) % 2 ^ 32)).setHolder (h + 1)).onlyFields (s.leadTaken h) [F.RGR_CLAIMCNT] :=
    State.onlyFields_count (State.onlyFields_refl _ _) (by decide)
  refine ⟨?_, (hcount.fld _ (by decide)).trans hholder, (State.flag_of_fld (hcount.fld _ (by decide))).trans (hvalid.trans rfl),
    (hcount.fld _ (by decide)).trans (hhalf (Nat.succ_ne_zero h)), ?_, ?_⟩
  · rw [hcount.fld _ (by decide), hflds.fld _ (by decide), State.fld_setFld_same]
    exact Nat.mod_mod _ _
  · rw [State.leadTaken, State.fld_count_same, hflds.fld _ (by decide), hepoch.fld _ (by decide)]
  · exact State.onlyIn_count (State.onlyIn_trans (State.onlyIn_setFld (State.onlyIn_refl s _) (by decide)) hin) (by decide)

/-- A leader that begins has just refreshed. -/
theorem State.leadBegun_effect (s : State) (h e : Nat) :
    (s.leadBegun h e).latchAge = 0 ∧ (s.leadBegun h e).fields = s.fields ∧ s.onlyIn (s.leadBegun h e) [.irq] := by
  refine ⟨?_, rfl, s.onlyIn_irq _⟩
  have hrefreshed : (s.leadBegun h e).irq.refreshed = some s.now := by
    unfold State.leadBegun State.setBelief
    dsimp only
    split_ifs <;> rfl
  rw [State.latchAge, hrefreshed]
  exact Nat.sub_self s.now

/-- The timer depends on the clock and on the interrupt record alone. -/
theorem State.latchAge_of_parts {s t : State} (hnow : t.now = s.now) (hirq : t.irq = s.irq) : t.latchAge = s.latchAge := by
  unfold State.latchAge
  rw [hnow, hirq]

/-- LEADERSHIP_CLAIM while no half leads, of a half with a running core (R344). -/
theorem State.claimLead_effect {s : State} {h : Nat} (hh : h < 2) (hfree : s.holder = 0) (hup : s.halfUp h = true) :
    (s.claimLead h).fld F.RGR_EPOCH = (s.fld F.RGR_EPOCH + 1) % 2 ^ 32 ∧ (s.claimLead h).holder = h + 1 ∧
      (s.claimLead h).flag F.GLB_LEADER_VALID = true ∧ (s.claimLead h).fld F.GLB_LEADER_HALF = h ∧ (s.claimLead h).latchAge = 0 ∧
      (s.claimLead h).fld F.RGR_CLAIMCNT h = min (s.fld F.RGR_CLAIMCNT h + 1) (2 ^ F.RGR_CLAIMCNT.width - 1) ∧
      (s.claimLead h).cores = s.cores ∧ (s.claimLead h).frame = s.frame := by
  obtain ⟨hepoch, hholder, hvalid, hhalf, hcount, htaken⟩ := s.leadTaken_effect hh
  obtain ⟨hage, hfields, hbegun⟩ := (s.leadTaken h).leadBegun_effect h ((s.epoch + 1) % 2 ^ 32)
  have hposted := ((s.leadTaken h).leadBegun h ((s.epoch + 1) % 2 ^ 32)).onlyIn_post 0x0020 [(s.epoch + 1) % 2 ^ 32, h + 1]
  rw [State.claimLead_granted hfree hup]
  have hread := State.fld_of_fields ((State.post_fields _ 0x0020 [(s.epoch + 1) % 2 ^ 32, h + 1]).trans hfields)
  have hin : s.onlyIn _ [.fields, .irq, .host] := State.onlyIn_then (State.onlyIn_then (State.onlyIn_mono htaken (by decide)) hbegun (by decide)) hposted
    (by decide)
  exact ⟨(hread _ 0).trans hepoch, (hread _ 0).trans hholder, (State.flag_of_fld (hread _ 0)).trans hvalid, (hread _ 0).trans hhalf,
    (State.latchAge_of_parts (hposted .now (by decide)) (hposted .irq (by decide))).trans hage, (hread _ h).trans hcount,
    hin .cores (by decide), hin .frame (by decide)⟩

theorem State.refreshLead_restarts {s : State} {h epoch : Nat} (hleads : s.leads h = true) (hepoch : epoch = s.epoch) (hage : s.latchAge < 50000) :
    s.refreshLead h epoch = { s with irq := { s.irq with refreshed := some s.now } } := by
  simp [State.refreshLead, hleads, hepoch, hage]

theorem State.refreshLead_refused {s : State} {h epoch : Nat} (hno : s.leads h = false ∨ epoch ≠ s.epoch ∨ 50000 ≤ s.latchAge) :
    s.refreshLead h epoch = s := by
  rcases hno with hno | hno | hno
  · simp [State.refreshLead, hno]
  · simp [State.refreshLead, hno]
  · simp [State.refreshLead, Nat.not_lt.2 hno]

theorem State.lapse_lapses {s : State} (hheld : s.holder ≠ 0) (hage : 50000 ≤ s.latchAge) (hisland : s.islandRefreshes = false) :
    s.lapse = s.setHolder 0 := by
  simp [State.lapse, hheld, hage, hisland]

theorem State.lapse_early {s : State} (hage : s.latchAge < 50000) : s.lapse = s := by
  simp [State.lapse, Nat.not_le.2 hage]

/-! The statement, command by command. -/

/-- Settles O48: a crash, the take-over and the return of a core; leadership is claimed, refreshed and lapses, clause by clause. -/
theorem rangerCoresAndLeadership : Obligations.RangerCoresAndLeadership := by
  unfold Obligations.RangerCoresAndLeadership
  intro s k h hk hh
  have hcore : decide (k < rangerCount) = true := decide_eq_true hk
  have hhalf : decide (h < halfCount) = true := decide_eq_true hh
  refine ⟨fun i cause hi => ?_, fun hearly => ?_, fun j hj hruns hrep => ?_, fun hdown hheld hleader => ?_, fun hdown hreload => ?_,
    fun hfree hup => ⟨_, within_next hhalf, State.claimLead_effect hh hfree hup⟩, fun hno => ?_, fun epoch => ?_, fun hheld hage hisland => ?_,
    fun hage => ?_⟩
  · obtain ⟨hexec, hcause⟩ := exec_crash hk hi
    refine ⟨fun hruns => ?_, fun hruns => by rw [hexec, State.crash_refused cause hruns]⟩
    obtain ⟨hstate, hcauseShown, hcoreShown, hcount, hsources, hin⟩ := State.crash_effect hk hcause hruns
    exact ⟨_, hexec, hstate, hcauseShown, hcoreShown, hcount, hsources, hin .cores (by decide), hin .arrays (by decide), hin .frame (by decide),
      hin .hamper (by decide)⟩
  · rw [exec_watchdogExpiry, within_next hcore, State.watchdog_early hearly]
  · obtain ⟨howner, hsources, hin⟩ := State.takeover_effect hk hj hruns hrep
    exact ⟨_, within_next hcore, fun q hq how => (howner q hq).trans (if_pos how), fun q hq how => (howner q hq).trans (if_neg how), hsources, hin⟩
  · exact ⟨_, within_next hcore, State.rangerUp_effect hdown hheld hleader⟩
  · rw [exec_rangerUp, within_next hcore, State.rangerUp_refused hdown hreload]
  · rw [exec_leadershipClaim, within_next hhalf, State.claimLead_refused hno]
  · rw [exec_leadershipRefresh, within_next hhalf]
    exact ⟨fun hleads hepoch hage => by rw [State.refreshLead_restarts hleads hepoch hage], fun hno => by rw [State.refreshLead_refused hno]⟩
  · obtain ⟨hholder, hvalid, -, hin, hflds⟩ := s.setHolder_effect (v := 0) (by decide)
    rw [exec_leadershipLapse, State.lapse_lapses hheld hage hisland]
    exact ⟨_, rfl, hholder, hvalid, hflds.fld 0 (by decide), hin⟩
  · rw [exec_leadershipLapse, State.lapse_early hage]

end Sys2Proof.Machine

/-!
PROOFS of the statements on steps, runs and the reset state (95_what_each_step_holds, R500, R504).
-/

namespace Sys2Proof.Machine

/-! One step. -/

/-- Settles O1: the second case of the step's definition. -/
theorem stepRunsFrontCommand : Obligations.StepRunsFrontCommand := by
  unfold Obligations.StepRunsFrontCommand
  intro c rest s
  rfl

/-- Settles O2: the idle step's law, read off the clock and the tables. -/
theorem idleStepRunsTheClock : Obligations.IdleStepRunsTheClock := by
  unfold Obligations.IdleStepRunsTheClock
  intro s hempty hs
  obtain ⟨c, held⟩ := State.idle_held (Held.of_canonical hs)
  refine ⟨s.idle, by simp [step, hempty], held.queue.trans hempty, held.clock, ?_, held.canonical⟩
  rw [held.cycles]
  exact Nat.le_add_right _ _

/-- Settles O3: every command holds the queue, the clock and the tables (`exec_held`), and a well-formed one goes on. -/
theorem wellFormedCommandsComplete : Obligations.WellFormedCommandsComplete := by
  unfold Obligations.WellFormedCommandsComplete
  intro i s hi hs
  obtain ⟨t, ht, -, -⟩ := exec_next_of_wf hi hs
  have held := exec_held i (Held.of_canonical hs) t ht
  exact ⟨t, ht, held.queue, held.clock, held.cycles, held.canonical⟩

/-! The state after reset. -/

/-- With no field listed every field reads its reset value. -/
theorem State.fld_of_unlisted {s : State} (h : s.fields = []) (f : Fld) (i : Nat) : s.fld f i = f.reset := by
  rw [State.fld, h]
  rfl

/-- The tables of the reset state are canonical: only the vault's lists anything. -/
theorem State.reset_canonical : State.reset.canonical = true := by decide

/-- No byte of the hamper is listed and no core gathers any. -/
theorem State.reset_hamperByte (site a : Nat) : State.reset.hamperByte site a = 0 :=
  ite_self (c := hamperSize ≤ a) (0 : Byte)

/-- Settles O6: the canonical tables of the reset state do not see the queue, and an unlisted field holds its reset value. -/
theorem resetIsSound : Obligations.ResetIsSound := by
  unfold Obligations.ResetIsSound
  have hfld : ∀ f i, State.reset.fld f i = f.reset := State.fld_of_unlisted rfl
  refine ⟨fun cs hcs => ?_, hfld, rfl, rfl, State.reset_hamperByte, fun n => hfld _ n, hfld _ 0, fun a => hfld _ a⟩
  have hkept : (State.reset.withPending cs).canonical = true := State.reset_canonical
  simp only [State.sound, hkept, Bool.true_and]
  exact hcs

/-! Runs. -/

/-- Settles O7, by induction on the number of steps: a sound state steps to a sound state. -/
theorem runsNeverStop : Obligations.RunsNeverStop := by
  unfold Obligations.RunsNeverStop
  intro k
  induction k with
  | zero => exact fun _ _ => rfl
  | succ k ih =>
    intro s hs
    obtain ⟨t, hstep, ht⟩ := soundStatesStep s hs
    rw [safeRun, hstep]
    exact ih t ht

end Sys2Proof.Machine

/-!
PROOFS of the statement on the SMBus target (17_electrical_and_package R525, R526).
-/

namespace Sys2Proof.Machine

/-! The transactions, one equation per case. -/

section Answered

variable {s : State} {addr : Nat}

theorem smbCount_given {count : Option Nat} (h : ∀ n, count = some n → 1 ≤ n ∧ n ≤ 8) : smbCount count = count.getD 1 := by
  cases count with
  | none => rfl
  | some n => simp [smbCount, h n rfl]

theorem State.smbSetOffset_badPec (off : Nat) (count : Option Nat) : s.smbSetOffset addr off count false = s := by
  simp [State.smbSetOffset]

theorem State.smbWriteSel_badPec (off value : Nat) : s.smbWriteSel addr off value false = s := by
  simp [State.smbWriteSel]

section
variable (h : s.smbAnswers addr = true)
include h

theorem State.smbSetOffset_taken (off : Nat) {count : Option Nat} (hcount : ∀ n, count = some n → 1 ≤ n ∧ n ≤ 8) :
    s.smbSetOffset addr off count true = { s with smb := { s.smb with
      offset := off, bad := !smbOffsetOk off, badBit := s.smb.badBit || !smbOffsetOk off, count := count.getD 1 } } := by
  simp [State.smbSetOffset, h, State.smbSeek, State.onSmb, smbCount_given hcount]

theorem State.smbRead_stalls : s.smbRead addr true = { s with smb := { s.smb with stalled := true } } := by
  simp [State.smbRead, h, State.onSmb]

theorem State.smbRead_bad (hbad : s.smb.bad = true) :
    s.smbRead addr false = { s with smb := { s.smb with out := List.replicate (4 * s.smb.count) 0 } } := by
  simp [State.smbRead, h, hbad, State.onSmb]

/-- One register that latches nothing: it is the readout and the four bytes of the answer, and the offset moves on behind it. -/
theorem State.smbRead_one (hbad : s.smb.bad = false) (hone : s.smb.count = 1) (hrc : s.smb.offset ≠ 0x6104) (htime : s.smb.offset ≠ 0x7014) :
    s.smbRead addr false = ({ s with readout := s.readReg .smbus s.smb.offset }.smbSeek (s.smb.offset + 4)).onSmb
      fun x => { x with out := toLe 4 (s.readReg .smbus s.smb.offset) } := by
  simp [State.smbRead, h, hbad, hone, State.smbRegister, hrc, htime]

theorem State.smbWriteSel_taken {off i x : Nat} {a : Block} {r : RegInfo} (value : Nat) (hreg : findReg .smbus off = some (a, i, r, x)) (hsel : r.isSel = true)
    (hon : s.isOff = false) : s.smbWriteSel addr off value true = s.writeReg .smbus off value := by
  simp [State.smbWriteSel, h, hreg, hsel, hon]

theorem State.smbWriteSel_ignored {off : Nat} (value : Nat) (hno : findReg .smbus off = none ∨ s.isOff = true) :
    s.smbWriteSel addr off value true = { s with smb := { s.smb with ignored := true } } := by
  rcases hno with hno | hoff
  · simp [State.smbWriteSel, h, hno, State.onSmb]
  · simp [State.smbWriteSel, h, hoff, State.onSmb]

theorem State.smbStatus_shown : ∃ out, s.smbStatus addr = { s with
    smb := { s.smb with ignored := false, badBit := false, out := out }
    readout := (if s.smb.ignored then 1 else 0) + (if s.smb.badBit then 2 else 0) + (if s.isOff then 4 else 0) } := by
  simp [State.smbStatus, h, State.onSmb]

end

section
variable (h : s.smbAnswers addr = false)
include h

theorem State.smbSetOffset_unheard (off : Nat) (count : Option Nat) (pec : Bool) : s.smbSetOffset addr off count pec = s := by
  simp [State.smbSetOffset, h]

theorem State.smbRead_unheard (stall : Bool) : s.smbRead addr stall = s := by
  simp [State.smbRead, h]

theorem State.smbWriteSel_unheard (off value : Nat) (pec : Bool) : s.smbWriteSel addr off value pec = s := by
  simp [State.smbWriteSel, h]

theorem State.smbStatus_unheard : s.smbStatus addr = s := by
  simp [State.smbStatus, h]

end

/-- The Alert Response Address read while the line is low: the address is the readout, and the line stays low for a cause alone. -/
theorem State.alertResponse_low (haon : s.pwr.aon = true) (hfree : s.smb.stalled = false) (hlow : s.alertLow = true) :
    s.alertResponse = { s with smb := { s.smb with alert := if s.alertCause then 2 else 0 }, readout := 2 * s.smbAddress } := by
  simp [State.alertResponse, haon, hfree, hlow, State.onSmb]

theorem State.alertResponse_high (hlow : s.alertLow = false) : s.alertResponse = s := by
  simp [State.alertResponse, hlow]

/-- After the read the line follows the causes, which are register fields. -/
theorem State.alertLow_answered (n : Nat) :
    State.alertLow { s with smb := { s.smb with alert := if s.alertCause then 2 else 0 }, readout := n } = s.alertCause := by
  show (s.alertCause || (if s.alertCause then 2 else 0) == 1) = s.alertCause
  cases s.alertCause <;> rfl

/-- The target's record and the readout are all that a state changed in them alone differs in. -/
theorem State.onlyIn_smb (x : SmbSt) (n : Nat) : s.onlyIn { s with smb := x, readout := n } [.smb, .readout] := by
  intro p hp
  cases p with
  | smb | readout => simp at hp
  | _ => rfl

end Answered

/-! The statement, transaction by transaction. -/

/-- Settles O60: an equation for each transaction, answered or not. -/
theorem smbusTarget : Obligations.SmbusTarget := by
  unfold Obligations.SmbusTarget
  intro s addr off
  refine ⟨fun h => ⟨fun count hcount => ?_, fun count => ?_, ?_, fun hbad => ?_, fun hbad hone hrc htime => ?_, fun value => ⟨?_, ?_, ?_⟩, ?_⟩,
    fun h => ⟨fun count pec => ?_, fun stall => ?_, fun value pec => ?_, ?_⟩, fun haon hfree => ⟨fun hlow => ?_, fun hlow => ?_⟩, fun us => ⟨?_, ?_⟩⟩
  · rw [exec_setOffset, State.smbSetOffset_taken h off hcount]
    rfl
  · rw [exec_setOffset, State.smbSetOffset_badPec]
  · rw [exec_smbRead, State.smbRead_stalls h]
  · rw [exec_smbRead, State.smbRead_bad h hbad]
  · rw [exec_smbRead, State.smbRead_one h hbad hone hrc htime]
    exact ⟨_, rfl, rfl, rfl, rfl, State.onlyIn_smb _ _⟩
  · rw [exec_writeSel, State.smbWriteSel_badPec]
  · intro a i r x hreg hsel hon
    rw [exec_writeSel, State.smbWriteSel_taken h value hreg hsel hon]
  · intro hno
    rw [exec_writeSel, State.smbWriteSel_ignored h value hno]
  · obtain ⟨out, hshown⟩ := State.smbStatus_shown h
    rw [exec_smbStatus, hshown]
    exact ⟨_, rfl, rfl, rfl, rfl, rfl, State.onlyIn_smb _ _⟩
  · rw [exec_setOffset, State.smbSetOffset_unheard h]
  · rw [exec_smbRead, State.smbRead_unheard h]
  · rw [exec_writeSel, State.smbWriteSel_unheard h]
  · rw [exec_smbStatus, State.smbStatus_unheard h]
  · rw [exec_alertResponse, State.alertResponse_low haon hfree hlow]
    exact ⟨_, rfl, rfl, State.alertLow_answered _, State.onlyIn_smb _ _⟩
  · rw [exec_alertResponse, State.alertResponse_high hlow]
  · intro hlong
    rw [exec_smbBusTimeout, State.smbTimeout, if_neg (Nat.not_lt.2 hlong)]
    rfl
  · intro hshort
    rw [exec_smbBusTimeout, State.smbTimeout, if_pos hshort]

end Sys2Proof.Machine

/-!
PROOFS of the statement on the messages about withheld slots (11_integrity_and_recovery R356, R363 to R365; 12_links_and_fabric R401).
-/

namespace Sys2Proof.Machine

/-! The whistling manager's list (R363). -/

section List
variable {s : State}

theorem State.isWhistle_msgIn (s : State) : s.msgIn.isWhistle = s.isWhistle :=
  State.flag_of_fld (s.fld_raiseBoth irqFabric _ 0 (by decide))

/-- The list as it goes out. -/
def State.listOut (s : State) : State :=
  (s.entries.filter fun i => s.entryPart i != s.partNum).foldl
    (fun (t : State) i => t.sendMsg (t.entryPart i) 0x0207 (t.frame.number :: s.withheldList)) s

theorem State.onlyIn_listOut (s : State) : s.onlyIn s.listOut [.link] :=
  State.onlyIn_foldl (fun t _ => t.onlyIn_sendMsg _ _ _ _) _ s

theorem State.listTry_cases (s : State) :
    s.listTry = s ∨ s.listTry = (s.listOut.onMgr fun m => { m with listSent := true, acks := [] }).setFld F.PRT_TALLY_ACKS 0 := by
  unfold State.listTry
  extract_lets l
  split
  · exact .inl rfl
  · exact .inr rfl

theorem State.listTry_notices (s : State) : s.listTry.mgr.notices = s.mgr.notices := by
  rcases s.listTry_cases with h | h <;> rw [h]
  have hkept : s.listOut.mgr = s.mgr := s.onlyIn_listOut .mgr (by decide)
  rw [State.setFld_mgr, State.onMgr, hkept]

/-- A list that is not empty is out once T_nom has passed. -/
theorem State.listTry_sent (hwhistle : s.isWhistle = true) (hruns : s.frame.st = .running) (hlist : s.withheldList ≠ [])
    (hlate : s.frame.tNom ≤ s.frameNs) : s.listTry.mgr.listSent = true := by
  unfold State.listTry
  extract_lets l
  cases hsent : s.mgr.listSent with
  | true => rwa [if_pos (by simp)]
  | false =>
    rw [if_neg (by simp [hwhistle, hruns, hlist, hlate, l])]
    rfl

/-- The manager's notices with the slots of a WITHHOLD that are new among them. -/
def MgrSt.noticed (m : MgrSt) (frame : Nat) (slots : List Nat) : MgrSt :=
  let new := slots.filter fun k => !m.notices.contains (frame, k)
  { m with notices := m.notices ++ new.map fun k => (frame, k), listSent := m.listSent && new.isEmpty }

theorem State.withholdIn_taken {src frame i : Nat} {slots : List Nat} (hwhistle : s.isWhistle = true) (hentry : s.entryOf src = some i)
    (hframe : frame = s.frame.number) : s.withholdIn src frame slots = (s.onMgr fun m => m.noticed frame slots).listTry := by
  simp [State.withholdIn, hwhistle, hentry, hframe, State.onMgr, MgrSt.noticed]

/-- A slot of a WITHHOLD is noticed, newly or from before, and so on the list of its frame. -/
theorem State.withheldList_noticed {frame : Nat} {slots : List Nat} (hframe : frame = s.frame.number) (hslots : slots ≠ []) :
    (s.onMgr fun m => m.noticed frame slots).withheldList ≠ [] := by
  obtain ⟨k, hk⟩ := List.exists_mem_of_ne_nil slots hslots
  have hnoticed : (frame, k) ∈ (s.mgr.noticed frame slots).notices := by
    by_cases hold : (frame, k) ∈ s.mgr.notices
    · exact List.mem_append_left _ hold
    · exact List.mem_append_right _ (List.mem_map.2 ⟨k, by simp [hk, hold], rfl⟩)
  refine List.ne_nil_of_mem (a := k) (List.mem_eraseDups.2 (List.mem_map.2 ⟨(frame, k), List.mem_filter.2 ⟨hnoticed, ?_⟩, rfl⟩))
  simp [hframe, State.onMgr]

/-- The first acknowledgement of a part since the list went out. -/
theorem State.listAck_taken {src frame i : Nat} (hwhistle : s.isWhistle = true) (hentry : s.entryOf src = some i) (hframe : frame = s.frame.number)
    (hsent : s.mgr.listSent = true) (hnew : s.mgr.acks.contains i = false) : s.listAck src frame =
      ({ s with mgr := { s.mgr with acks := s.mgr.acks ++ [i] } } : State).setFld F.PRT_TALLY_ACKS (s.mgr.acks.length + 1) := by
  unfold State.listAck
  rw [hentry]
  dsimp only
  rw [if_neg (by simp [hwhistle, hframe, hsent, -List.contains_eq_mem, hnew])]
  simp only [State.onMgr, List.length_append, List.length_singleton]

end List

/-! Requests that fall out of step (R365). -/

section Diverge
variable {s : State} {p tag : Nat}

/-- Every request of the tag ends with LOST, where one of them had no end. -/
theorem State.diverge_lost (h : ((s.srv p).reqs.any fun r => r.sub.tag == tag && r.ending.isNone) = true) {r : Req}
    (hr : r ∈ ((s.diverge p tag).srv p).reqs) (htag : r.sub.tag = tag) : r.ending = some 0x06 := by
  rw [State.diverge, if_pos h] at hr
  have hserve := (State.onlyIn_countReplay (State.post (s.onSrv p fun x =>
      { x with reqs := x.reqs.map fun r => if r.sub.tag = tag then { r with ending := some 0x06 } else r }) 0x0085 [tag, p]) 11 .serve (by decide)).trans
    (State.onlyIn_post _ 0x0085 [tag, p] .serve (by decide))
  rw [State.srv_of_serve hserve, State.srv_onSrv_same] at hr
  obtain ⟨r', -, rfl⟩ := List.mem_map.1 hr
  by_cases h' : r'.sub.tag = tag
  · rw [if_pos h']
  · rw [if_neg h'] at htag
    exact absurd htag h'

/-- A report of the frame before, for the one binding of that frame. -/
theorem State.withheldReport_single {src frame slot : Nat} {slots : List Nat} (hframe : frame + 1 = s.frame.number)
    (hbinds : s.mgr.lastBinds = [(p, slot, tag)]) (hshares : (s.srv p).pipeline.contains src = true) :
    s.withheldReport src frame slots = if slots.contains slot = s.mgr.withheldLast.contains slot then s else s.diverge p tag := by
  unfold State.withheldReport
  rw [if_neg (not_not.2 hframe), hbinds]
  by_cases h : slots.contains slot = s.mgr.withheldLast.contains slot
  · rw [if_pos h]
    exact if_neg (by rw [hshares, h]; simp)
  · rw [if_neg h]
    exact if_pos (by rw [hshares]; simpa using h)

end Diverge

/-! The statement, message by message. -/

/-- Settles O20: each message's meaning on the state its interrupt leaves. -/
theorem withheldListsTravel : Obligations.WithheldListsTravel := by
  unfold Obligations.WithheldListsTravel
  intro s src epoch frame slots
  have hmgr := s.mgr_msgIn
  have hfr := s.frame_msgIn
  refine ⟨fun hframe => ?_, fun core ctr hcore hframe => ?_, fun i hwhistle hentry hframe => ?_, fun haccepts hframe => ?_,
    fun i hwhistle hentry hframe hsent hnew => ?_, fun p slot tag hframe hbinds hshares => ?_, fun m haccepts => ?_⟩
  · rw [exec_replayPending, State.pendingIn, hfr, if_pos hframe, State.onMgr, hmgr]
  · rw [exec_suppressed, within_next (decide_eq_true hcore : decide (core < coreCount) = true), State.heldBack, hfr, if_pos hframe, State.onMgr, hmgr]
  · have hnumber : frame = s.msgIn.frame.number := hfr ▸ hframe
    rw [exec_withhold, State.withholdIn_taken (s.isWhistle_msgIn.trans hwhistle) ((s.sameDomain_msgIn.entryOf src).trans hentry) hnumber]
    refine ⟨_, rfl, ?_, fun hruns hlate hslots => ?_⟩
    · rw [State.listTry_notices]
      show (s.msgIn.mgr.noticed frame slots).notices = _
      rw [hmgr]
      rfl
    · refine State.listTry_sent (s.isWhistle_msgIn.trans hwhistle) (by rw [State.onMgr, hfr, hruns]) (State.withheldList_noticed hnumber hslots) ?_
      show s.msgIn.frame.tNom ≤ s.msgIn.now - s.msgIn.frame.t0
      rw [hfr, s.msgIn_now]
      exact hlate
  · have hheard : (s.heard epoch).mgr = s.mgr := s.onlyIn_heard epoch .mgr (by decide)
    rw [exec_list, haccepts.fromMgr, State.listIn]
    simp only [s.heard_frame, if_pos hframe, State.onMgr, hheard]
  · rw [exec_listAck, State.listAck_taken hwhistle hentry hframe hsent hnew]
  · have hsrv := s.srv_msgIn p
    rw [exec_withheldReport, State.withheldReport_single (by rw [hfr, hframe]) (by rw [hmgr, hbinds]) (by rw [hsrv, hshares]), hmgr]
    refine ⟨_, rfl, fun h => if_pos h, fun h r hr htag hopen => ?_⟩
    rw [if_neg h] at hr
    exact State.diverge_lost (by rw [hsrv]; exact hopen) hr htag
  · rw [exec_replayMap, haccepts.fromMgr, State.mapIn, State.onMgr, s.onlyIn_heard epoch .mgr (by decide)]

end Sys2Proof.Machine

/-!
FACTS about events (09_host_interface R313): an event posted is told, and stays told while the window and the frame are as they were.
-/

namespace Sys2Proof.Machine

section Tells
variable {s t u : State} {code : Nat} {detail : List Nat}

theorem State.tells_post (s : State) (code : Nat) (detail : List Nat) : s.tells (s.post code detail) code detail := by
  intro hroom
  have hposted : s.post code detail = s.setWin 0 { s.win 0 with
      evt := SMap.put (s.win 0).evt (s.win 0).evtTail ⟨code, s.frame.number, detail⟩, evtTail := ((s.win 0).evtTail + 1) % 1024, gained := true } :=
    if_neg hroom
  rw [hposted, State.win_setWin_same]
  exact ⟨SMap.find?_put_same .., rfl⟩

/-- What follows leaves the host's windows. -/
theorem State.tells.later (h : s.tells t code detail) (hhost : u.host = t.host) : s.tells u code detail := by
  intro hroom
  rw [State.win_of_host hhost]
  exact h hroom

/-- What went before left the host's windows and the frame. -/
theorem State.tells.before (h : t.tells u code detail) (hhost : t.host = s.host) (hframe : t.frame = s.frame) : s.tells u code detail := by
  unfold State.tells at h ⊢
  rwa [State.win_of_host hhost, hframe] at h

end Tells

end Sys2Proof.Machine

/-!
PROOFS of the statement on what managers direct (11_integrity_and_recovery R367 to R369; 12_links_and_fabric R394, R400 to R402, R406 to R408).
-/

namespace Sys2Proof.Machine

/-! Whose messages are taken (R401). -/

section Taken
variable {s : State} {src epoch : Nat}

theorem State.mgr_heard (s : State) (epoch : Nat) : (s.heard epoch).mgr = s.mgr := s.onlyIn_heard epoch .mgr (by decide)

theorem State.sameDomain_heard (s : State) (epoch : Nat) : s.sameDomain (s.heard epoch) := (s.onlyFields_heard epoch).sameDomain (by decide)

/-- A manager's message of an epoch lower than seen is dropped and counted, whatever it asks for. -/
theorem State.fromMgr_old (mgr : Nat) (h : epoch < s.fld F.PRT_MGREPOCH_EPOCH) (act : State → State) :
    s.fromMgr mgr src epoch act = s.count F.PRT_MGRDROPCNT := by
  simp [State.fromMgr, h]

theorem State.fromMgr_msgIn_old (mgr : Nat) (h : epoch < s.fld F.PRT_MGREPOCH_EPOCH) (act : State → State) :
    s.msgIn.fromMgr mgr src epoch act = s.msgIn.count F.PRT_MGRDROPCNT :=
  State.fromMgr_old mgr (by rwa [State.msgIn, s.fld_raiseBoth irqFabric _ 0 (by decide)]) act

/-- Either manager is the one a sender of WITHDRAW or ADMIT must be. -/
theorem State.accepts_eitherMgr (h : s.accepts s.rackMgr src epoch ∨ s.accepts s.whistleMgr src epoch) : s.accepts (s.eitherMgr src) src epoch := by
  unfold State.eitherMgr
  split
  · next hsrc => exact h.elim (fun h => ⟨hsrc, h.2⟩) id
  · next hsrc => exact h.elim id fun h => absurd h.1 hsrc

/-- WITHDRAW or ADMIT of this part, and of another one. -/
theorem State.withdrawIn_heard (s : State) (epoch part : Nat) (out : Bool) :
    (part = s.partNum → (s.heard epoch).withdrawIn part out = { s.heard epoch with mgr := { s.mgr with withdrawDue := some out } }) ∧
    (part ≠ s.partNum → (s.heard epoch).withdrawIn part out = { s.heard epoch with mgr := { s.mgr with peerDue := s.mgr.peerDue ++ [(part, out)] } }) := by
  have hpart := (s.sameDomain_heard epoch).partNum
  have hmgr := s.mgr_heard epoch
  constructor
  · intro h
    rw [State.withdrawIn, if_pos (h.trans hpart.symm), State.onMgr, hmgr]
  · intro h
    rw [State.withdrawIn, if_neg (hpart ▸ h), State.onMgr, hmgr]

/-- A manager's beat of no lower epoch. -/
theorem State.beatIn_taken (next due : Nat) (h : s.accepts s.rackMgr src epoch ∨ s.accepts s.whistleMgr src epoch) :
    s.beatIn src epoch next due = { s.setFld F.PRT_MGREPOCH_EPOCH epoch with
      mgr := { s.mgr with beat := true, nextRoll := next, rollIn := due, beatFrom := s.frame.number } } := by
  obtain ⟨hmgr, hnumbered, hepoch⟩ : (src = s.whistleMgr ∨ src = s.rackMgr) ∧ src ≠ 0xFFFF ∧ s.fld F.PRT_MGREPOCH_EPOCH ≤ epoch :=
    h.elim (fun h => ⟨.inr h.1, h.2⟩) fun h => ⟨.inl h.1, h.2⟩
  rw [State.beatIn, if_neg (by simpa using fun h => hmgr.resolve_left h), State.fromMgr, if_neg (by simp [hnumbered]; omega)]
  rfl

theorem State.beatIn_old (next due : Nat) (h : epoch < s.fld F.PRT_MGREPOCH_EPOCH) : s.beatIn src epoch next due = s.count F.PRT_MGRDROPCNT := by
  unfold State.beatIn
  split
  · rfl
  · exact State.fromMgr_old src h _

end Taken

/-! READY (R402). -/

section Ready
variable {s : State} {src frame i : Nat}

/-- The tally, with an entry that was absent to rejoin. -/
def State.readyNoted (s : State) (i : Nat) : State :=
  let s := if s.flag F.PRT_DOM_DATA_ABSENT i && !s.mgr.rejoin.contains i then s.onMgr fun m => { m with rejoin := m.rejoin ++ [i] } else s
  if s.mgr.ready.contains i then s else s.onMgr fun m => { m with ready := m.ready ++ [i] }

theorem State.readyNoted_ready (s : State) (i : Nat) :
    (s.readyNoted i).mgr.ready = if s.mgr.ready.contains i then s.mgr.ready else s.mgr.ready ++ [i] := by
  unfold State.readyNoted
  extract_lets t
  have ht : t.mgr.ready = s.mgr.ready := by unfold t; split <;> rfl
  rw [ht]
  split
  · exact ht
  · show t.mgr.ready ++ [i] = s.mgr.ready ++ [i]
    rw [ht]

theorem State.onlyIn_readyNoted (s : State) (i : Nat) : s.onlyIn (s.readyNoted i) [.mgr] := by
  unfold State.readyNoted
  extract_lets t
  have ht : s.onlyIn t [.mgr] := by
    unfold t
    split
    · exact s.onlyIn_onMgr _
    · exact State.onlyIn_refl s _
  split
  · exact ht
  · exact State.onlyIn_trans ht (t.onlyIn_onMgr _)

theorem State.readyNoted_subst (s : State) (i : Nat) : (s.readyNoted i).mgr.subst = s.mgr.subst := by
  unfold State.readyNoted
  dsimp only
  split_ifs <;> rfl

theorem State.onlyIn_listTry (s : State) : s.onlyIn s.listTry [.fields, .mgr, .link] := by
  rcases s.listTry_cases with h | h <;> rw [h]
  · exact State.onlyIn_refl s _
  · exact State.onlyIn_setFld (State.onlyIn_then (State.onlyIn_mono s.onlyIn_listOut (by decide)) (s.listOut.onlyIn_onMgr _) (by decide)) (by decide)

theorem State.onlyFields_listTry (s : State) : s.onlyFields s.listTry [F.PRT_TALLY_ACKS] := by
  rcases s.listTry_cases with h | h <;> rw [h]
  · exact State.onlyFields_refl s _
  · have hkept : s.listOut.fields = s.fields := s.onlyIn_listOut .fields (by decide)
    exact State.onlyFields_setFld (State.onlyFields_same (State.onlyFields_refl s _) ((State.onMgr_fields ..).trans hkept)) (by decide)

theorem State.listTry_ready (s : State) : s.listTry.mgr.ready = s.mgr.ready := by
  have hkept : s.listOut.mgr = s.mgr := s.onlyIn_listOut .mgr (by decide)
  rcases s.listTry_cases with h | h <;> rw [h]
  rw [State.setFld_mgr, State.onMgr, hkept]

/-- READY of the running frame, no substitution under way: it is tallied, the tally shown, and the list goes out if it is due. -/
theorem State.readyIn_tallied (hwhistle : s.isWhistle = true) (hentry : s.entryOf src = some i) (hruns : s.frame.st = .running)
    (hframe : frame = s.frame.number) (hnone : s.mgr.subst = none) :
    s.readyIn src frame = ((s.readyNoted i).setFld F.PRT_TALLY_READY (s.readyNoted i).mgr.ready.length).listTry := by
  have hsubst : ((s.readyNoted i).setFld F.PRT_TALLY_READY (s.readyNoted i).mgr.ready.length).mgr.subst = none := (s.readyNoted_subst i).trans hnone
  unfold State.readyIn
  rw [hentry]
  dsimp only
  rw [if_neg (by simp [hwhistle, hruns, hframe])]
  simp only [State.readyNoted] at hsubst ⊢
  rw [hsubst]

theorem State.readyIn_other (hentry : s.entryOf src = some i) (hframe : frame ≠ s.frame.number) : s.readyIn src frame = s := by
  unfold State.readyIn
  rw [hentry]
  exact if_pos (by simp [hframe])

theorem State.readyIn_effect (hwhistle : s.isWhistle = true) (hentry : s.entryOf src = some i) (hruns : s.frame.st = .running)
    (hframe : frame = s.frame.number) (hnone : s.mgr.subst = none) :
    (s.readyIn src frame).mgr.ready = (if s.mgr.ready.contains i then s.mgr.ready else s.mgr.ready ++ [i]) ∧
      (s.readyIn src frame).fld F.PRT_TALLY_READY = (s.readyIn src frame).mgr.ready.length % 8192 ∧
      s.onlyIn (s.readyIn src frame) [.fields, .mgr, .link] := by
  rw [State.readyIn_tallied hwhistle hentry hruns hframe hnone]
  have hready := State.listTry_ready ((s.readyNoted i).setFld F.PRT_TALLY_READY (s.readyNoted i).mgr.ready.length)
  have hfields := State.onlyFields_listTry ((s.readyNoted i).setFld F.PRT_TALLY_READY (s.readyNoted i).mgr.ready.length)
  have hin := State.onlyIn_listTry ((s.readyNoted i).setFld F.PRT_TALLY_READY (s.readyNoted i).mgr.ready.length)
  refine ⟨hready.trans (s.readyNoted_ready i), ?_, State.onlyIn_trans (State.onlyIn_setFld (State.onlyIn_mono (s.onlyIn_readyNoted i) (by decide)) (by decide)) hin⟩
  rw [hready, hfields.fld 0 (by decide), State.fld_setFld_same]
  rfl

end Ready

/-! MANAGER_CLAIM (R407, R408). -/

section Claim
variable {s : State} {src epoch : Nat}

theorem State.claimIn_dropped
    (h : epoch < s.fld F.PRT_MGREPOCH_EPOCH ∨ src ≠ s.fld F.PRT_STBYCFG_SYSSTBY ∧ src ≠ s.fld F.PRT_STBYCFG_RACKSTBY) :
    s.claimIn src epoch = s.count F.PRT_MGRDROPCNT := by
  unfold State.claimIn
  extract_lets sys rack acts t u both v
  refine if_pos ?_
  rcases h with h | ⟨h1, h2⟩
  · simp [h]
  · simp [sys, rack, h1, h2]

/-- The state in which a claim finds the managers named: a part that acts as manager has stood down before a higher epoch. -/
def State.claimHeard (s : State) (src epoch : Nat) : State :=
  (if ((s.isWhistle || s.isRack) && src ≠ s.partNum) && decide (s.fld F.PRT_MGREPOCH_EPOCH < epoch) then s.standDown else s).setFld F.PRT_MGREPOCH_EPOCH epoch

/-- The managers that a claim names. -/
def State.claimNames (s : State) (src : Nat) (sys rack : Bool) : State :=
  let s := if sys || (rack && s.whistleMgr = s.rackMgr) then s.setFld F.PRT_MGRSTATE_WMGR src else s
  if rack then s.setFld F.PRT_MGRSTATE_RMGR src else s

theorem State.claimIn_taken (hnumbered : src ≠ 0xFFFF) (hepoch : s.fld F.PRT_MGREPOCH_EPOCH ≤ epoch)
    (hstandby : src = s.fld F.PRT_STBYCFG_SYSSTBY ∨ src = s.fld F.PRT_STBYCFG_RACKSTBY) :
    s.claimIn src epoch =
      (s.claimHeard src epoch).claimNames src (src = s.fld F.PRT_STBYCFG_SYSSTBY) (src = s.fld F.PRT_STBYCFG_RACKSTBY) := by
  unfold State.claimIn
  extract_lets sys rack acts t u both v
  rw [if_neg (by simpa [sys, rack, hnumbered, Nat.not_lt.2 hepoch] using fun h => hstandby.resolve_left h)]
  simp only [State.claimNames, decide_eq_true_eq]
  rfl

theorem State.claimNames_names {sys rack : Bool} (s : State) (hsrc : src < 65536) :
    (sys = true → (s.claimNames src sys rack).whistleMgr = src) ∧ (rack = true → (s.claimNames src sys rack).rackMgr = src) := by
  have hwidth : src % 2 ^ F.PRT_MGRSTATE_WMGR.width = src := Nat.mod_eq_of_lt hsrc
  unfold State.claimNames
  constructor
  · rintro rfl
    have hset : (s.setFld F.PRT_MGRSTATE_WMGR src).whistleMgr = src := (s.fld_setFld_same _ _ 0).trans hwidth
    cases rack
    · exact hset
    · exact (State.fld_setFld_of_code _ _ _ _ _ _ (by decide) (by decide) (by decide)).trans hset
  · rintro rfl
    exact (State.fld_setFld_same _ _ _ 0).trans hwidth

theorem State.onlyFields_claimNames (s : State) (src : Nat) (sys rack : Bool) :
    s.onlyFields (s.claimNames src sys rack) [F.PRT_MGRSTATE_WMGR, F.PRT_MGRSTATE_RMGR] := by
  unfold State.claimNames
  extract_lets t
  have ht : s.onlyFields t [F.PRT_MGRSTATE_WMGR, F.PRT_MGRSTATE_RMGR] := by
    unfold t
    split
    · exact State.onlyFields_setFld (State.onlyFields_refl s _) (by decide)
    · exact State.onlyFields_refl s _
  split
  · exact State.onlyFields_setFld ht (by decide)
  · exact ht

theorem State.onlyIn_claimNames (s : State) (src : Nat) (sys rack : Bool) : s.onlyIn (s.claimNames src sys rack) [.fields] := by
  unfold State.claimNames
  extract_lets t
  have ht : s.onlyIn t [.fields] := by
    unfold t
    split
    · exact State.onlyIn_setFld (State.onlyIn_refl s _) (by decide)
    · exact State.onlyIn_refl s _
  split
  · exact State.onlyIn_setFld ht (by decide)
  · exact ht

theorem State.onlyIn_standDown (s : State) : s.onlyIn s.standDown [.fields, .mgr] := by
  have hlow : s.onlyIn ((s.setFld F.PRT_ROLE_WHISTLE 0).setFld F.PRT_ROLE_RACK 0) [.fields] :=
    State.onlyIn_setFld (State.onlyIn_setFld (State.onlyIn_refl s _) (by decide)) (by decide)
  exact State.onlyIn_then (State.onlyIn_mono hlow (by decide)) (State.onlyIn_onMgr _ _) (by decide)

theorem State.onlyFields_standDown (s : State) : s.onlyFields s.standDown [F.PRT_ROLE_WHISTLE, F.PRT_ROLE_RACK] := by
  have hlow : s.onlyFields ((s.setFld F.PRT_ROLE_WHISTLE 0).setFld F.PRT_ROLE_RACK 0) [F.PRT_ROLE_WHISTLE, F.PRT_ROLE_RACK] :=
    State.onlyFields_setFld (State.onlyFields_setFld (State.onlyFields_refl s _) (by decide)) (by decide)
  exact State.onlyFields_same hlow rfl

theorem State.standDown_roles (s : State) : s.standDown.fld F.PRT_ROLE_WHISTLE = 0 ∧ s.standDown.fld F.PRT_ROLE_RACK = 0 :=
  ⟨((s.setFld F.PRT_ROLE_WHISTLE 0).fld_setFld_of_code F.PRT_ROLE_RACK F.PRT_ROLE_WHISTLE 0 0 0 (by decide) (by decide) (by decide)).trans
    (s.fld_setFld_same F.PRT_ROLE_WHISTLE 0 0), (s.setFld F.PRT_ROLE_WHISTLE 0).fld_setFld_same F.PRT_ROLE_RACK 0 0⟩

theorem State.claimHeard_frame (s : State) (src epoch : Nat) : s.onlyIn (s.claimHeard src epoch) [.fields, .mgr] ∧
    s.onlyFields (s.claimHeard src epoch) [F.PRT_MGREPOCH_EPOCH, F.PRT_ROLE_WHISTLE, F.PRT_ROLE_RACK] := by
  unfold State.claimHeard
  split
  · exact ⟨State.onlyIn_setFld s.onlyIn_standDown (by decide),
      State.onlyFields_setFld (State.onlyFields_then (State.onlyFields_refl s _) s.onlyFields_standDown (by decide)) (by decide)⟩
  · exact ⟨State.onlyIn_setFld (State.onlyIn_refl s _) (by decide), State.onlyFields_setFld (State.onlyFields_refl s _) (by decide)⟩

/-- A manager that sees a higher epoch than its own stands down. -/
theorem State.claimHeard_standsDown (hacts : s.isWhistle = true ∨ s.isRack = true) (hother : src ≠ s.partNum)
    (hhigher : s.fld F.PRT_MGREPOCH_EPOCH < epoch) :
    (s.claimHeard src epoch).isWhistle = false ∧ (s.claimHeard src epoch).isRack = false ∧
      (s.claimHeard src epoch).mgr = { s.mgr with stoodDown := true, outRise := none } := by
  have hdown : s.claimHeard src epoch = s.standDown.setFld F.PRT_MGREPOCH_EPOCH epoch := by
    rw [State.claimHeard, if_pos (by simp [hacts, hother, hhigher])]
  have hkept (f : Fld) (hf : f.code < 1024) (hother : f.code ≠ F.PRT_MGREPOCH_EPOCH.code) : (s.claimHeard src epoch).fld f = s.standDown.fld f := by
    rw [hdown, State.fld_setFld_of_code _ _ _ _ _ _ (by decide) hf hother]
  obtain ⟨hwhistle, hrack⟩ := s.standDown_roles
  refine ⟨?_, ?_, by rw [hdown]; rfl⟩
  · rw [State.isWhistle, State.flag, hkept _ (by decide) (by decide), hwhistle]
    rfl
  · rw [State.isRack, State.flag, hkept _ (by decide) (by decide), hrack]
    rfl

end Claim

/-! What a manager's directions leave of the count of roll calls (R367). -/

/-- The count of roll calls and the frames between two stand as they were. -/
structure State.keepsCalls (s t : State) : Prop where
  next : t.mgr.nextRoll = s.mgr.nextRoll
  due : t.mgr.rollIn = s.mgr.rollIn
  frames : t.fld F.PRT_ROLLCALL_FRAMES = s.fld F.PRT_ROLLCALL_FRAMES

section KeepsCalls
variable {s t u : State}

theorem State.keepsCalls.refl (s : State) : s.keepsCalls s := ⟨rfl, rfl, rfl⟩

theorem State.keepsCalls.trans (h : s.keepsCalls t) (h' : t.keepsCalls u) : s.keepsCalls u :=
  ⟨h'.next.trans h.next, h'.due.trans h.due, h'.frames.trans h.frames⟩

theorem State.keepsCalls.foldl {α : Type} {f : State → α → State} (hf : ∀ (t : State) a, t.keepsCalls (f t a)) (l : List α) (s : State) :
    s.keepsCalls (l.foldl f s) := by
  induction l generalizing s with
  | nil => exact .refl s
  | cons a l ih => exact (hf s a).trans (ih (f s a))

/-- Whatever leaves the managers' state and the fields. -/
theorem State.onlyIn.keepsCalls {ps : List Part} (h : s.onlyIn t ps) (hmgr : Part.mgr ∉ ps) (hfields : Part.fields ∉ ps) : s.keepsCalls t :=
  ⟨congrArg MgrSt.nextRoll (h .mgr hmgr), congrArg MgrSt.rollIn (h .mgr hmgr), State.fld_of_fields (h .fields hfields) _ 0⟩

theorem State.relays.keepsCalls (h : s.relays t) : s.keepsCalls t :=
  ⟨congrArg MgrSt.nextRoll (h.parts .mgr (by decide)), congrArg MgrSt.rollIn (h.parts .mgr (by decide)), h.fields.fld 0 (by decide)⟩

theorem State.keepsCalls_onMgr (s : State) {g : MgrSt → MgrSt} (hnext : (g s.mgr).nextRoll = s.mgr.nextRoll) (hdue : (g s.mgr).rollIn = s.mgr.rollIn) :
    s.keepsCalls (s.onMgr g) := ⟨hnext, hdue, rfl⟩

theorem State.keepsCalls_sendMsg (s : State) (part type : Nat) (fields : List Nat) (data : Bytes) : s.keepsCalls (s.sendMsg part type fields data) :=
  (s.onlyIn_sendMsg part type fields data).keepsCalls (by decide) (by decide)

theorem State.keepsCalls_post (s : State) (code : Nat) (detail : List Nat) : s.keepsCalls (s.post code detail) :=
  (s.onlyIn_post code detail).keepsCalls (by decide) (by decide)

theorem State.keepsCalls_countReplay (s : State) (k : Nat) : s.keepsCalls (s.countReplay k) :=
  (s.onlyIn_countReplay k).keepsCalls (by decide) (by decide)

theorem State.keepsCalls_sendMaps (s : State) : s.keepsCalls s.sendMaps := by
  unfold State.sendMaps
  split
  · exact .refl s
  · refine State.keepsCalls.foldl (fun t i => ?_) _ s
    dsimp only
    split
    · exact t.keepsCalls_onMgr rfl rfl
    · exact t.keepsCalls_sendMsg ..

theorem State.keepsCalls_planAround (s : State) (part : Nat) (gone : Bool) : s.keepsCalls (s.planAround part gone) := by
  have hplan (t : State) (part : Nat) (p : RelayPlan) : t.keepsCalls (t.givePlan part p) := by
    unfold State.givePlan
    split
    · exact (t.relays_relayPlan p).keepsCalls
    · exact (State.relays.trans (t.relays_onWgt rfl) (State.relays_sendMsg ..)).keepsCalls
  have htree (t : State) (q : List (Nat × List Nat)) (needs : SMap Nat) : t.keepsCalls (t.newTree q needs []) := by
    unfold State.newTree
    split
    · exact .refl t
    · exact (t.relays_onWgt rfl).keepsCalls.trans (State.keepsCalls.foldl (fun t (e : Nat × RelayPlan) => hplan t e.1 e.2) _ _)
  unfold State.planAround
  split
  · exact .refl s
  extract_lets needs t
  have ht : s.keepsCalls t := htree ..
  split
  · exact ht.trans (t.relays_onWgt rfl).keepsCalls
  · exact ht

theorem State.keepsCalls_withdrawIn (s : State) (part : Nat) (out : Bool) : s.keepsCalls (s.withdrawIn part out) := by
  unfold State.withdrawIn
  split <;> exact s.keepsCalls_onMgr rfl rfl

theorem State.keepsCalls_withdraw (s : State) (part : Nat) : s.keepsCalls (s.setWithdrawn part true) := by
  have hmark (i : Nat) : s.keepsCalls (s.setFlag F.PRT_DOM_DATA_WITHDRAWN true i) :=
    ⟨rfl, rfl, s.fld_setFlag_of_code _ _ _ _ _ (by decide) (by decide) (by decide)⟩
  unfold State.setWithdrawn
  split
  · exact .refl s
  · next i _ =>
    split
    · exact .refl s
    · have htold := State.keepsCalls.foldl (f := fun (t : State) j => if t.entryPart j = t.partNum then t else t.sendMsg (t.entryPart j) (if true then 0x0305 else 0x0306) [part])
        (fun t j => by split; exacts [.refl t, t.keepsCalls_sendMsg ..])
      exact ((((hmark i).trans (htold _ _)).trans (State.keepsCalls_withdrawIn ..)).trans (State.keepsCalls_sendMaps _)).trans
        (State.keepsCalls_planAround ..)

theorem State.keepsCalls_substitute (s : State) (part : Nat) : s.keepsCalls (s.substitute part) := by
  unfold State.substitute
  split
  · exact .refl s
  · split
    · exact .refl s
    · exact State.keepsCalls.trans (s.keepsCalls_onMgr rfl rfl) (State.keepsCalls_sendMsg ..)

theorem State.keepsCalls_setRoll (s : State) (p : Nat) (t : RollTally) : s.keepsCalls (s.setRoll p t) := s.keepsCalls_onMgr rfl rfl

/-- The part that is to go is told: itself at once, another by a message (R369). -/
def State.expelTold (s : State) (p cause stripe : Nat) : State :=
  let n := s.mgr.nextRoll - 1
  let s := s.post 0x0082 [p, cause, stripe]
  if p = s.partNum then s.expelIn n stripe else s.sendMsg p 0x0303 [n, stripe]

/-- An expelled part as its manager keeps it. -/
def State.expelNoted (s : State) (p : Nat) : State := (s.onMgr fun m => { m with expelled := m.expelled.filter (· != p) ++ [p] }).setRoll p .init

theorem State.expel_eq (s : State) (p cause stripe : Nat) :
    s.expel p cause stripe = (((s.expelTold p cause stripe).expelNoted p).setWithdrawn p true).substitute p := rfl

theorem State.keepsCalls_expelTold (s : State) (p cause stripe : Nat) : s.keepsCalls (s.expelTold p cause stripe) := by
  unfold State.expelTold
  extract_lets n t
  have ht : s.keepsCalls t := s.keepsCalls_post ..
  split
  · exact ht.trans (((t.keepsCalls_onMgr rfl rfl).trans (State.keepsCalls_post ..)).trans (State.relays_tellManager _).keepsCalls)
  · exact ht.trans (t.keepsCalls_sendMsg ..)

theorem State.keepsCalls_expel (s : State) (p cause stripe : Nat) : s.keepsCalls (s.expel p cause stripe) := by
  have hnoted : (s.expelTold p cause stripe).keepsCalls ((s.expelTold p cause stripe).expelNoted p) :=
    State.keepsCalls.trans (State.keepsCalls_onMgr _ rfl rfl) (State.keepsCalls_setRoll ..)
  rw [State.expel_eq]
  exact (((s.keepsCalls_expelTold p cause stripe).trans hnoted).trans (State.keepsCalls_withdraw ..)).trans (State.keepsCalls_substitute ..)

theorem State.keepsCalls_rollJudge (s : State) (p n shard : Nat) (digest : Option Bytes) : s.keepsCalls (s.rollJudge p n shard digest) := by
  unfold State.rollJudge
  split
  · exact .refl s
  extract_lets t u
  have hu : s.keepsCalls u := s.keepsCalls_setRoll ..
  split
  · split
    · exact hu.trans (u.keepsCalls_expel ..)
    · exact hu
  · split
    · split
      · exact hu
      · exact hu.trans (u.keepsCalls_expel ..)
    · exact hu

/-- ROLL_CALL as it is counted, with the digests read since the call before gone. -/
def State.rollHeard (s : State) (n : Nat) : State :=
  let t := s.countReplay 9
  let u := if (s.rollAnswer n).1.isNone then t.countReplay 10 else t
  u.onWgt fun w => { w with scrub := [] }

/-- The shard of the resident image, 0 without one. -/
def State.ownShard (s : State) : Nat := match s.wgt.resident with | some r => r.shard | none => 0

theorem State.rollCall_eq (s : State) (src n : Nat) : s.rollCall src n =
    if src = (s.rollHeard n).partNum then (s.rollHeard n).rollJudge src n s.ownShard (s.rollAnswer n).1
    else (s.rollHeard n).sendMsg src 0x0302 [n, s.ownShard, n % 256, if (s.rollAnswer n).1.isSome then 0 else 1, (s.rollAnswer n).2] ((s.rollAnswer n).1.getD []) := rfl

theorem State.onlyIn_rollHeard (s : State) (n : Nat) : s.onlyIn (s.rollHeard n) [.hist, .wgt] := by
  unfold State.rollHeard
  extract_lets t u
  have ht : s.onlyIn t [.hist] := s.onlyIn_countReplay 9
  have hu : s.onlyIn u [.hist] := by
    unfold u
    split
    · exact State.onlyIn_trans ht (t.onlyIn_countReplay 10)
    · exact ht
  exact State.onlyIn_then (State.onlyIn_mono hu (by decide)) (u.onlyIn_onWgt _) (by decide)

theorem State.rollHeard_wgt (s : State) (n : Nat) : (s.rollHeard n).wgt = { s.wgt with scrub := [] } := by
  unfold State.rollHeard
  extract_lets t u
  have ht : t.wgt = s.wgt := s.onlyIn_countReplay 9 .wgt (by decide)
  have hu : u.wgt = s.wgt := by
    unfold u
    split
    · exact (t.onlyIn_countReplay 10 .wgt (by decide)).trans ht
    · exact ht
  show ({ u.wgt with scrub := [] } : WgtSt) = _
  rw [hu]

theorem State.keepsCalls_rollCall (s : State) (src n : Nat) : s.keepsCalls (s.rollCall src n) := by
  have hheard : s.keepsCalls (s.rollHeard n) := (s.onlyIn_rollHeard n).keepsCalls (by decide) (by decide)
  rw [State.rollCall_eq]
  split
  · exact hheard.trans (State.keepsCalls_rollJudge ..)
  · exact hheard.trans (State.keepsCalls_sendMsg ..)

end KeepsCalls

/-! ROLL_CALL_DUE (R367). -/

section Due
variable {s : State}

/-- What an answer that is still out at the next call is: its silence counted, or the part expelled. -/
def State.rollSilence (n : Nat) (s : State) (p : Nat) : State :=
  let t := s.roll p
  if t.answered then s
  else if 1 ≤ t.silent then s.expel p 3 ((n - 1) % 256)
  else s.setRoll p { t with silent := t.silent + 1 }

/-- The call to one part. -/
def State.rollSend (n : Nat) (s : State) (p : Nat) : State :=
  let s := s.setRoll p { s.roll p with answered := false }
  if p = s.partNum then s.rollCall p n else s.sendMsg p 0x0301 [n]

/-- The next call's number is taken. -/
def State.rollNext (s : State) (n : Nat) : State := s.onMgr fun m => { m with nextRoll := n + 1, rollIn := s.fld F.PRT_ROLLCALL_FRAMES }

theorem State.rollDue_eq (hrack : s.isRack = true) (hruns : s.frame.st = .running) (hdue : s.mgr.rollIn = 0) :
    s.rollDue = ((s.rollParts.foldl (State.rollSilence s.mgr.nextRoll) s).rollNext s.mgr.nextRoll).rollParts.foldl (State.rollSend s.mgr.nextRoll)
      ((s.rollParts.foldl (State.rollSilence s.mgr.nextRoll) s).rollNext s.mgr.nextRoll) := by
  rw [State.rollDue, if_neg (by simp [hrack, hruns, hdue])]
  rfl

theorem State.rollDue_not (h : s.isRack = false ∨ s.frame.st ≠ .running ∨ s.mgr.rollIn ≠ 0) : s.rollDue = s := by
  rw [State.rollDue, if_pos (by rcases h with h | h | h <;> simp [h])]

theorem State.keepsCalls_rollSilence (n : Nat) (s : State) (p : Nat) : s.keepsCalls (s.rollSilence n p) := by
  unfold State.rollSilence
  extract_lets t
  split
  · exact .refl s
  · split
    · exact s.keepsCalls_expel ..
    · exact s.keepsCalls_setRoll ..

theorem State.keepsCalls_rollSend (n : Nat) (s : State) (p : Nat) : s.keepsCalls (s.rollSend n p) := by
  unfold State.rollSend
  extract_lets _ t
  have ht : s.keepsCalls t := s.keepsCalls_setRoll ..
  split
  · exact ht.trans (t.keepsCalls_rollCall ..)
  · exact ht.trans (t.keepsCalls_sendMsg ..)

/-- A call that goes out takes the next number and sets when the one after it is due. -/
theorem State.rollDue_counts (hrack : s.isRack = true) (hruns : s.frame.st = .running) (hdue : s.mgr.rollIn = 0) :
    s.rollDue.mgr.nextRoll = s.mgr.nextRoll + 1 ∧ s.rollDue.mgr.rollIn = s.fld F.PRT_ROLLCALL_FRAMES := by
  have hsilent := State.keepsCalls.foldl (State.keepsCalls_rollSilence s.mgr.nextRoll) s.rollParts s
  rw [State.rollDue_eq hrack hruns hdue]
  generalize s.rollParts.foldl (State.rollSilence s.mgr.nextRoll) s = t at hsilent ⊢
  have hsent := State.keepsCalls.foldl (State.keepsCalls_rollSend s.mgr.nextRoll) (t.rollNext s.mgr.nextRoll).rollParts (t.rollNext s.mgr.nextRoll)
  exact ⟨hsent.next, hsent.due.trans hsilent.frames⟩

/-- The manager's count of calls is not in the domain. -/
theorem State.rollParts_rollNext (s : State) (n : Nat) : (s.rollNext n).rollParts = s.rollParts := rfl

/-- The one part of a rack, which answered the call before. -/
theorem State.rollDue_single {p : Nat} (hrack : s.isRack = true) (hruns : s.frame.st = .running) (hdue : s.mgr.rollIn = 0) (hparts : s.rollParts = [p])
    (hother : p ≠ s.partNum) (hanswered : (s.roll p).answered = true) : s.rollDue =
      (({ s with mgr := { s.mgr with nextRoll := s.mgr.nextRoll + 1, rollIn := s.fld F.PRT_ROLLCALL_FRAMES } } : State).setRoll p
        { s.roll p with answered := false }).sendMsg p 0x0301 [s.mgr.nextRoll] := by
  have hsilence : s.rollSilence s.mgr.nextRoll p = s := if_pos hanswered
  rw [State.rollDue_eq hrack hruns hdue, hparts, List.foldl_cons, List.foldl_nil, hsilence, State.rollParts_rollNext, hparts, List.foldl_cons, List.foldl_nil]
  exact if_neg hother

end Due

/-! ROLL_CALL, ROLL_ANSWER and EXPEL (R257, R368, R369). -/

section Answer
variable {s : State} {src n : Nat}

/-- Another part's call is answered from the digests, which are gone then. -/
theorem State.rollCall_effect {r : Resident} (epoch : Nat) (hother : src ≠ s.partNum) (hres : s.wgt.resident = some r) :
    ((s.heard epoch).rollCall src n).wgt = { s.wgt with scrub := [] } ∧
      ((s.heard epoch).rollCall src n).link =
        (s.sendMsg src 0x0302 [n, r.shard, n % 256, if (s.rollAnswer n).1.isSome then 0 else 1, (s.rollAnswer n).2] ((s.rollAnswer n).1.getD [])).link ∧
      ((s.heard epoch).rollCall src n).mgr = s.mgr ∧ ((s.heard epoch).rollCall src n).frame = s.frame := by
  have hheard := (s.heard epoch).onlyIn_rollHeard n
  have hpart : ((s.heard epoch).rollHeard n).partNum = s.partNum :=
    (State.fld_of_fields (hheard .fields (by decide)) _ 0).trans (s.sameDomain_heard epoch).partNum
  have hshard : (s.heard epoch).ownShard = r.shard := by rw [State.ownShard, s.heard_wgt, hres]
  have hanswer : (s.heard epoch).rollAnswer n = s.rollAnswer n := by simp only [State.rollAnswer, s.heard_wgt]
  rw [State.rollCall_eq, if_neg (by rwa [hpart]), hshard, hanswer]
  have hsent := ((s.heard epoch).rollHeard n).onlyIn_sendMsg src 0x0302
    [n, r.shard, n % 256, if (s.rollAnswer n).1.isSome then 0 else 1, (s.rollAnswer n).2] ((s.rollAnswer n).1.getD [])
  refine ⟨?_, ?_, ?_, ?_⟩
  · rw [hsent .wgt (by decide), State.rollHeard_wgt, s.heard_wgt]
  · refine (State.link_sendMsg_congr (hheard .link (by decide)) (hheard .frame (by decide)) (hheard .now (by decide))
      (fun f _ => State.fld_of_fields (hheard .fields (by decide)) f 0) ..).trans (s.link_heard_sendMsg epoch ..)
  · exact ((hsent .mgr (by decide)).trans (hheard .mgr (by decide))).trans (s.mgr_heard epoch)
  · exact ((hsent .frame (by decide)).trans (hheard .frame (by decide))).trans (s.heard_frame epoch)

/-- An answer of a part of the domain to the present call. -/
theorem State.rollJudge_present {p i shard : Nat} (hentry : s.entryOf p = some i) (hn : n + 1 = s.mgr.nextRoll) :
    ((s.roll p).notReady = 0 → s.rollJudge p n shard none = s.setRoll p ⟨true, 0, 1⟩) ∧
      (∀ d c, s.reference shard = some c → s.rollJudge p n shard (some d) =
        if d = slice c (48 * (n % 256)) 48 then s.setRoll p ⟨true, 0, 0⟩ else (s.setRoll p ⟨true, 0, 0⟩).expel p 1 (n % 256)) := by
  constructor
  · intro hready
    simp [State.rollJudge, hn, hentry, hready]
  · intro d c href
    have href' : (s.setRoll p ⟨true, 0, 0⟩).reference shard = some c := href
    simp [State.rollJudge, hn, hentry, href']

theorem State.rollJudge_other {p shard : Nat} (digest : Option Bytes) (hn : n + 1 ≠ s.mgr.nextRoll) : s.rollJudge p n shard digest = s := by
  rw [State.rollJudge, if_pos (by simp [hn])]

end Answer

section Expel
variable {s : State}

/-- Without relay under way a part is withdrawn without a word to the host. -/
theorem State.withdraw_host (p : Nat) (htree : s.wgt.tree = []) : (s.setWithdrawn p true).host = s.host := by
  by_cases h : ∀ i, s.entryOf p = some i → s.isRack = true → s.flag F.PRT_DOM_DATA_WITHDRAWN i = true
  · rw [State.setWithdrawn_stands h]
  push Not at h
  obtain ⟨i, hentry, hrack, hin⟩ := h
  have hplan (t : State) (ht : t.wgt.tree = []) : t.planAround p false = t := by rw [State.planAround, if_pos (by simp [ht])]
  have htold := State.onlyIn_foldl (ps := [.link])
    (f := fun (t : State) j => if t.entryPart j = t.partNum then t else t.sendMsg (t.entryPart j) (if true then 0x0305 else 0x0306) [p])
    (fun t j => by split; exacts [State.onlyIn_refl t _, t.onlyIn_sendMsg _ _ _ _])
  have hdue (t : State) : t.onlyIn (t.withdrawIn p true) [.mgr] := by
    unfold State.withdrawIn
    split <;> exact t.onlyIn_onMgr _
  have hmark : s.onlyIn (s.setFlag F.PRT_DOM_DATA_WITHDRAWN true i) [.fields] := State.onlyIn_setFlag (State.onlyIn_refl s _) (by decide)
  have hall := State.onlyIn_then (State.onlyIn_then (State.onlyIn_then (State.onlyIn_mono hmark (by decide : ∀ q ∈ _, q ∈ [Part.fields, .link, .mgr]))
    (htold (s.setFlag F.PRT_DOM_DATA_WITHDRAWN true i).rack _) (by decide)) (hdue _) (by decide)) (State.onlyIn_sendMaps _) (by decide)
  unfold State.setWithdrawn
  rw [hentry]
  dsimp only
  rw [if_neg (by simp [hrack, hin])]
  refine (congrArg State.host (hplan _ ?_)).trans (hall .host (by decide))
  exact (congrArg WgtSt.tree (hall .wgt (by decide))).trans htree

theorem State.onlyIn_expelIn (s : State) (n stripe : Nat) : s.onlyIn (s.expelIn n stripe) [.mgr, .host, .link] :=
  State.onlyIn_then (State.onlyIn_then (State.onlyIn_mono (s.onlyIn_onMgr _) (by decide)) (State.onlyIn_post _ _ _) (by decide))
    (State.onlyIn_tellManager _) (by decide)

/-- The part told and noted as expelled. -/
theorem State.onlyIn_expelNoted (s : State) (p cause stripe : Nat) :
    s.onlyIn ((s.expelTold p cause stripe).expelNoted p) [.mgr, .host, .link] := by
  have htold : s.onlyIn (s.expelTold p cause stripe) [.mgr, .host, .link] := by
    unfold State.expelTold
    extract_lets n t
    have ht : s.onlyIn t [.mgr, .host, .link] := State.onlyIn_mono (s.onlyIn_post _ _) (by decide)
    split
    · exact State.onlyIn_trans ht (t.onlyIn_expelIn _ _)
    · exact State.onlyIn_then ht (t.onlyIn_sendMsg _ _ _ _) (by decide)
  exact State.onlyIn_then (State.onlyIn_then htold (State.onlyIn_onMgr _ _) (by decide)) (State.onlyIn_onMgr _ _) (by decide)

/-- A part that is expelled is withdrawn. -/
theorem State.expel_out {p i : Nat} (cause stripe : Nat) (hentry : s.entryOf p = some i) (hrack : s.isRack = true) :
    (s.expel p cause stripe).flag F.PRT_DOM_DATA_WITHDRAWN i = true := by
  have hnoted := s.onlyIn_expelNoted p cause stripe
  have hdomain : s.sameDomain ((s.expelTold p cause stripe).expelNoted p) := fun f _ i => State.fld_of_fields (hnoted .fields (by decide)) f i
  rw [State.expel_eq]
  exact (State.flag_of_fld (State.fld_of_fields (State.onlyIn_substitute _ p .fields (by decide)) _ i)).trans
    (State.withdraw_out ((hdomain.entryOf p).trans hentry) (hdomain.isRack.trans hrack))

/-- Another part's expulsion is posted (R369); no relay being under way, nothing is told after it. -/
theorem State.expel_told {p : Nat} (cause stripe : Nat) (hother : p ≠ s.partNum) (htree : s.wgt.tree = []) :
    s.tells (s.expel p cause stripe) 0x0082 [p, cause, stripe] := by
  have hnoted := s.onlyIn_expelNoted p cause stripe
  have htold : s.expelTold p cause stripe = (s.post 0x0082 [p, cause, stripe]).sendMsg p 0x0303 [s.mgr.nextRoll - 1, stripe] := by
    refine if_neg fun h => hother (h.trans ?_)
    exact State.fld_of_fields (s.post_fields _ _) _ 0
  have hhost : (s.expelTold p cause stripe).host = (s.post 0x0082 [p, cause, stripe]).host := by
    rw [htold]
    exact State.onlyIn_sendMsg _ _ _ _ _ .host (by decide)
  refine (s.tells_post 0x0082 [p, cause, stripe]).later ?_
  rw [State.expel_eq, State.onlyIn_substitute _ p .host (by decide), State.withdraw_host p ((congrArg WgtSt.tree (hnoted .wgt (by decide))).trans htree)]
  exact hhost

/-- A part that is told to go is withdrawn at its next boundary, and posts it with the arrays whose chunks it needs. -/
theorem State.expelIn_effect (s : State) (epoch n stripe : Nat) :
    ((s.heard epoch).expelIn n stripe).mgr = { s.mgr with withdrawDue := some true } ∧
      s.tells ((s.heard epoch).expelIn n stripe) 0x0081
        [n, stripe, (((List.range 75).filterMap fun i => s.placeOf (75 * stripe + i)).filter s.needsChunk).length] ∧
      ((s.heard epoch).expelIn n stripe).cores = s.cores ∧ ((s.heard epoch).expelIn n stripe).wgt = s.wgt := by
  have hin := (s.heard epoch).onlyIn_expelIn n stripe
  have hplaces : s.samePlaces (s.heard epoch) := (s.onlyFields_heard epoch).samePlaces (by decide)
  have hplace (l : Nat) : (s.heard epoch).placeOf l = s.placeOf l := by rw [State.placeOf, hplaces.coreSite]; rfl
  have hneeds : (s.heard epoch).needsChunk = s.needsChunk := funext fun a => State.needsChunk_of_recs (congrArg WgtSt.recs (s.heard_wgt epoch)) a
  have hbad : ((List.range 75).filterMap fun i => (s.heard epoch).placeOf (75 * stripe + i)).filter (s.heard epoch).needsChunk =
      ((List.range 75).filterMap fun i => s.placeOf (75 * stripe + i)).filter s.needsChunk := by simp only [hplace, hneeds]
  have heq : (s.heard epoch).expelIn n stripe = (((s.heard epoch).onMgr fun m => { m with withdrawDue := some true }).post 0x0081
      [n, stripe, (((List.range 75).filterMap fun i => s.placeOf (75 * stripe + i)).filter s.needsChunk).length]).tellManager := by
    rw [← hbad]
    rfl
  refine ⟨?_, ?_, ?_, ?_⟩
  · rw [heq, State.onlyIn_tellManager _ .mgr (by decide), State.onlyIn_post _ _ _ .mgr (by decide), State.onMgr, s.mgr_heard epoch]
  · rw [heq]
    refine State.tells.later (State.tells.before (State.tells_post _ _ _) ?_ ?_) (State.onlyIn_tellManager _ .host (by decide))
    · exact s.onlyIn_heard epoch .host (by decide)
    · exact s.heard_frame epoch
  · exact (hin .cores (by decide)).trans (s.onlyIn_heard epoch .cores (by decide))
  · exact (hin .wgt (by decide)).trans (s.heard_wgt epoch)

end Expel

/-! Answers as the manager hears them (R368). -/

section Heard
variable {s : State} {src n i shard : Nat}

/-- An answer to another call. -/
theorem State.answer_other (digest : Option Bytes) (hn : n + 1 ≠ s.mgr.nextRoll) : s.msgIn.rollJudge src n shard digest = s.msgIn :=
  State.rollJudge_other digest (s.mgr_msgIn ▸ hn)

/-- An answer to the present call. -/
theorem State.answer_present (hentry : s.entryOf src = some i) (hn : n + 1 = s.mgr.nextRoll) :
    ((s.roll src).notReady = 0 → s.msgIn.rollJudge src n shard none = s.msgIn.setRoll src ⟨true, 0, 1⟩) ∧
      (∀ d c, s.reference shard = some c → s.msgIn.rollJudge src n shard (some d) =
        if d = slice c (48 * (n % 256)) 48 then s.msgIn.setRoll src ⟨true, 0, 0⟩ else (s.msgIn.setRoll src ⟨true, 0, 0⟩).expel src 1 (n % 256)) := by
  have hroll : s.msgIn.roll src = s.roll src := by rw [State.roll, s.mgr_msgIn]; rfl
  have href : s.msgIn.reference shard = s.reference shard := by simp only [State.reference, s.msgIn_wgt]
  have hjudged := State.rollJudge_present (shard := shard) ((s.sameDomain_msgIn.entryOf src).trans hentry) (hn.trans (congrArg MgrSt.nextRoll s.mgr_msgIn).symm)
  rwa [hroll, href] at hjudged

/-- A wrong digest expels its part. -/
theorem State.answer_wrong (hentry : s.entryOf src = some i) (hrack : s.isRack = true) :
    ((s.msgIn.setRoll src ⟨true, 0, 0⟩).expel src 1 (n % 256)).flag F.PRT_DOM_DATA_WITHDRAWN i = true ∧
      (s.wgt.tree = [] → src ≠ s.partNum → s.tells ((s.msgIn.setRoll src ⟨true, 0, 0⟩).expel src 1 (n % 256)) 0x0082 [src, 1, n % 256]) := by
  have hset : s.msgIn.onlyIn (s.msgIn.setRoll src ⟨true, 0, 0⟩) [.mgr] := State.onlyIn_onMgr _ _
  have hdomain : s.sameDomain (s.msgIn.setRoll src ⟨true, 0, 0⟩) := fun f hf j =>
    (State.fld_of_fields (hset .fields (by decide)) f j).trans (s.sameDomain_msgIn f hf j)
  refine ⟨State.expel_out 1 _ ((hdomain.entryOf src).trans hentry) (hdomain.isRack.trans hrack), fun htree hother => ?_⟩
  have hwgt : (s.msgIn.setRoll src ⟨true, 0, 0⟩).wgt = s.wgt := (hset .wgt (by decide)).trans s.msgIn_wgt
  refine (State.expel_told 1 _ (fun h => hother (h.trans hdomain.partNum)) (by rw [hwgt, htree])).before ?_ ?_
  · exact (hset .host (by decide)).trans (s.onlyIn_raiseBoth irqFabric .host (by decide))
  · exact (hset .frame (by decide)).trans s.frame_msgIn

end Heard

/-! The statement, message by message. -/

/-- Settles O55: each message's meaning where it is taken, and that it is dropped where it is not. -/
theorem managersDirectParts : Obligations.ManagersDirectParts := by
  unfold Obligations.ManagersDirectParts
  intro s src epoch
  refine ⟨fun hold a b => ⟨fun i hi => ?_, ?_, ?_⟩, fun part htaken => ?_, fun frame i hwhistle hentry hruns => ⟨fun hframe hnone => ?_, fun hframe => ?_⟩,
    fun next due htaken => ?_, fun hnumbered hepoch hword hpart hstandby => ?_, fun hsys hrackby => ?_, fun hrack hruns hdue => ⟨?_, fun p hparts hother hans => ?_⟩,
    fun hnot => ?_, fun n r haccepts hother hres => ?_, fun n shard i hrack hentry => ⟨fun hn d => ?_, fun hn => ⟨fun hready => ?_, fun d c href => ?_⟩⟩,
    fun n stripe haccepts => ?_⟩
  · rcases hi with rfl | rfl | rfl | rfl | rfl | rfl
    · rw [exec_withdraw, State.fromMgr_msgIn_old _ hold]
    · rw [exec_admitPart, State.fromMgr_msgIn_old _ hold]
    · rw [exec_expel, State.fromMgr_msgIn_old _ hold]
    · rw [exec_rollCall, State.fromMgr_msgIn_old _ hold]
    · rw [exec_cut, State.fromMgr_msgIn_old _ hold]
    · rw [exec_assume, State.fromMgr_msgIn_old _ hold]
  · rw [exec_beatReceived, State.beatIn_old a b hold]
  · rw [exec_managerClaim, State.claimIn_dropped (.inl hold)]
  · have haccepts := State.accepts_eitherMgr htaken
    rw [exec_withdraw, exec_admitPart, haccepts.fromMgr, haccepts.fromMgr]
    obtain ⟨hown, hother⟩ := s.withdrawIn_heard epoch part true
    obtain ⟨hown', hother'⟩ := s.withdrawIn_heard epoch part false
    exact ⟨fun h => ⟨by rw [hown h], by rw [hown' h]⟩, fun h => ⟨by rw [hother h], by rw [hother' h]⟩⟩
  · obtain ⟨hready, htally, hin⟩ := State.readyIn_effect hwhistle hentry hruns hframe hnone
    exact ⟨_, exec_ready .., hready, htally, hin .cores (by decide), hin .frame (by decide)⟩
  · rw [exec_ready, State.readyIn_other hentry hframe]
  · rw [exec_beatReceived, State.beatIn_taken next due htaken]
  · obtain ⟨hin, hfields⟩ := s.claimHeard_frame src epoch
    obtain ⟨hsys, hrackby⟩ := (s.claimHeard src epoch).claimNames_names (sys := decide (src = s.fld F.PRT_STBYCFG_SYSSTBY))
      (rack := decide (src = s.fld F.PRT_STBYCFG_RACKSTBY)) hpart
    have hnames := (s.claimHeard src epoch).onlyFields_claimNames src (src = s.fld F.PRT_STBYCFG_SYSSTBY) (src = s.fld F.PRT_STBYCFG_RACKSTBY)
    have hnamesIn := (s.claimHeard src epoch).onlyIn_claimNames src (src = s.fld F.PRT_STBYCFG_SYSSTBY) (src = s.fld F.PRT_STBYCFG_RACKSTBY)
    have hseen : (s.claimHeard src epoch).fld F.PRT_MGREPOCH_EPOCH = epoch := (State.fld_setFld_same ..).trans (Nat.mod_eq_of_lt hword)
    rw [exec_managerClaim, State.claimIn_taken hnumbered hepoch hstandby]
    refine ⟨_, rfl, (hnames.fld 0 (by decide)).trans hseen, fun h => hsys (decide_eq_true h), fun h => hrackby (decide_eq_true h),
      fun hacts hother hhigher => ?_, State.onlyIn_then hin hnamesIn (by decide),
      State.onlyFields_then (State.onlyFields_then (State.onlyFields_refl s _) hfields (by decide)) hnames (by decide)⟩
    obtain ⟨hwhistle, hrack, hmgr⟩ := State.claimHeard_standsDown hacts hother hhigher
    exact ⟨(State.flag_of_fld (hnames.fld 0 (by decide))).trans hwhistle, (State.flag_of_fld (hnames.fld 0 (by decide))).trans hrack,
      (hnamesIn .mgr (by decide)).trans hmgr⟩
  · rw [exec_managerClaim, State.claimIn_dropped (.inr ⟨hsys, hrackby⟩)]
  · exact ⟨_, exec_rollCallDue s, State.rollDue_counts hrack hruns hdue⟩
  · rw [exec_rollCallDue, State.rollDue_single hrack hruns hdue hparts hother hans]
  · rw [exec_rollCallDue, State.rollDue_not hnot]
  · rw [exec_rollCall, haccepts.fromMgr]
    exact ⟨_, rfl, State.rollCall_effect epoch hother hres⟩
  · rw [exec_rollAnswer, if_pos hrack, State.answer_other d hn]
  · rw [exec_rollAnswer, if_pos hrack, (State.answer_present hentry hn).1 hready]
  · rw [exec_rollAnswer, if_pos hrack, (State.answer_present hentry hn).2 d c href]
    refine ⟨fun hd => by rw [if_pos hd], fun hd => ?_⟩
    rw [if_neg hd]
    exact ⟨_, rfl, State.answer_wrong hentry hrack⟩
  · rw [exec_expel, haccepts.fromMgr]
    exact ⟨_, rfl, s.expelIn_effect epoch n stripe⟩

end Sys2Proof.Machine

/-!
FACTS about the vault's bookkeeping (15_update_and_roles R469, R491 to R493, R496): what audit entries, answers and the signature engine leave.
-/

namespace Sys2Proof.Machine

/-! The vault's values. -/

/-- Another field's value in the vault reads as before. -/
theorem State.vfld_setVfld_of_code (s : State) (f g : Fld) (v i j : Nat) (hf : f.code < 1024) (hg : g.code < 1024) (h : g.code ≠ f.code) :
    (s.setVfld f v i).vfld g j = s.vfld g j :=
  SMap.get_set_ne _ _ _ (by unfold Fld.key; omega)

theorem State.vfld_of_vfields {s t : State} (h : t.vfields = s.vfields) (f : Fld) (i : Nat) : t.vfld f i = s.vfld f i := by rw [State.vfld, h]; rfl

theorem State.onlyIn_setBoth {s t : State} {ps : List Part} {f : Fld} {v i : Nat} (h : s.onlyIn t ps) (hf : Part.fields ∈ ps) (hv : Part.vfields ∈ ps) :
    s.onlyIn (t.setBoth f v i) ps := State.onlyIn_setVfld (State.onlyIn_setFld h hf) hv

theorem State.vfld_setBoth_same (s : State) (f : Fld) (v i : Nat) : (s.setBoth f v i).vfld f i = v % 2 ^ f.width := State.vfld_setVfld_same ..

theorem State.fld_setBoth_same (s : State) (f : Fld) (v i : Nat) : (s.setBoth f v i).fld f i = v % 2 ^ f.width := State.fld_setFld_same ..

theorem State.vfld_setBoth_of_code (s : State) (f g : Fld) (v i j : Nat) (hf : f.code < 1024) (hg : g.code < 1024) (h : g.code ≠ f.code) :
    (s.setBoth f v i).vfld g j = s.vfld g j := State.vfld_setVfld_of_code (s.setFld f v i) f g v i j hf hg h

theorem State.fld_setBoth_of_code (s : State) (f g : Fld) (v i j : Nat) (hf : f.code < 1024) (hg : g.code < 1024) (h : g.code ≠ f.code) :
    (s.setBoth f v i).fld g j = s.fld g j := s.fld_setFld_of_code f g v i j hf hg h

/-! Bookkeeping. -/

/-- The fields that bookkeeping counts in. -/
def bookFlds : List Fld := [F.VLT_AUDITOVFCNT, F.VLT_AUDIT_SEQ_LO_SEQ, F.VLT_RECWRCNT]

/-- A state that differs by entries of the audit log, record writes and windows alone. -/
structure State.books (s t : State) : Prop where
  parts : s.onlyIn t [.fields, .host, .sec]
  fields : s.onlyFields t bookFlds
  sec : t.sec = { s.sec with waiting := t.sec.waiting, log := t.sec.log, nextSeq := t.sec.nextSeq }

section Books
variable {s t u : State}

theorem State.books.refl (s : State) : s.books s := ⟨State.onlyIn_refl s _, State.onlyFields_refl s _, rfl⟩

theorem State.books.trans (h : s.books t) (h' : t.books u) : s.books u :=
  ⟨State.onlyIn_trans h.parts h'.parts, State.onlyFields_trans h.fields h'.fields, by rw [h'.sec, h.sec]⟩

theorem State.books.fld (h : s.books t) {f : Fld} (i : Nat) (hf : f.code % 1024 ∉ bookFlds.map (·.code)) : t.fld f i = s.fld f i := h.fields.fld i hf

theorem State.books.flag (h : s.books t) {f : Fld} (i : Nat) (hf : f.code % 1024 ∉ bookFlds.map (·.code)) : t.flag f i = s.flag f i :=
  State.flag_of_fld (h.fld i hf)

theorem State.books.vfld (h : s.books t) (f : Fld) (i : Nat) : t.vfld f i = s.vfld f i := State.vfld_of_vfields (h.parts .vfields (by decide)) f i

theorem State.books.now (h : s.books t) : t.now = s.now := h.parts .now (by decide)

theorem State.books.roleOf (h : s.books t) (fn : Nat) : t.roleOf fn = s.roleOf fn := h.fld fn (by decide)

theorem State.books.locked (h : s.books t) : t.locked = s.locked := h.flag 0 (by decide)

theorem State.books.session (h : s.books t) : t.session = s.session := h.fld 0 (by decide)

theorem State.books.fnSec (h : s.books t) (fn : Nat) : t.fnSec fn = s.fnSec fn := by unfold State.fnSec; rw [h.sec]

theorem State.books.nonceOf (h : s.books t) (fn : Nat) : t.nonceOf fn = s.nonceOf fn := by unfold State.nonceOf; rw [h.fnSec, h.now]

/-- A window and entries that wait are no more than that. -/
theorem State.onlyIn.books (h : s.onlyIn t [.host]) : s.books t where
  parts := State.onlyIn_mono h (by decide)
  fields := State.onlyFields_same (State.onlyFields_refl s _) (h .fields (by decide))
  sec := by rw [show t.sec = s.sec from h .sec (by decide)]

theorem State.books_take (s : State) (fn : Nat) : s.books (s.take fn) := (s.onlyIn_take fn).books

theorem State.onlyIn_respond (s : State) (c : Mgmt) (code result : Nat) (detail : Bytes) : s.onlyIn (s.respond c code result detail) [.host] := by
  obtain ⟨w, hw⟩ := s.respond_eq_setWin c code result detail
  rw [hw]
  exact State.onlyIn_setWin (State.onlyIn_refl s _) (by decide)

theorem State.books_respond (s : State) (c : Mgmt) (code result : Nat) (detail : Bytes) : s.books (s.respond c code result detail) :=
  (s.onlyIn_respond c code result detail).books

theorem State.books_audit (s : State) (fn action result code target : Nat) (detail : Bytes) : s.books (s.audit fn action result code target detail) :=
  ⟨State.onlyIn_mono (s.onlyIn_audit fn action result code target detail) (by decide), State.onlyFields_same (State.onlyFields_refl s _) rfl, rfl⟩

theorem State.books_answer (s : State) (c : Mgmt) (code result target : Nat) (detail : Bytes) : s.books (s.answer c code result target detail) :=
  (s.books_audit ..).trans (State.books_respond ..)

theorem State.books_recordWrites (s : State) (n : Nat) : s.books (s.recordWrites n) :=
  ⟨State.onlyIn_count (State.onlyIn_refl s _) (by decide), State.onlyFields_count (State.onlyFields_refl s _) (by decide), rfl⟩

/-- The log's records changed: no more than bookkeeping. -/
theorem State.books_onSec (s : State) {g : SecSt → SecSt}
    (hg : g s.sec = { s.sec with waiting := (g s.sec).waiting, log := (g s.sec).log, nextSeq := (g s.sec).nextSeq }) : s.books (s.onSec g) :=
  ⟨State.onlyIn_mono (s.onlyIn_onSec g) (by decide), State.onlyFields_same (State.onlyFields_refl s _) rfl, hg⟩

theorem State.onlyIn_auditDone (s : State) (seq result code : Nat) : s.onlyIn (s.auditDone seq result code) [.fields, .sec] :=
  State.onlyIn_count (State.onlyIn_mono
    (s.onlyIn_onSec fun x => { x with log := x.log.map fun e => if e.1 = seq then (e.1, { e.2 with result := result, code := code }) else e }) (by decide))
    (by decide)

theorem State.books_auditDone (s : State) (seq result code : Nat) : s.books (s.auditDone seq result code) :=
  (s.books_onSec (g := fun x => { x with log := x.log.map fun e => if e.1 = seq then (e.1, { e.2 with result := result, code := code }) else e })
    rfl).trans (State.books_recordWrites _ 1)

theorem State.books_finish (s : State) (c : Mgmt) (seq code result : Nat) (detail : Bytes) : s.books (s.finish c seq code result detail) :=
  (s.books_auditDone ..).trans (State.books_respond ..)

/-- An entry put into the vault stands under the next SEQ. -/
theorem State.auditWrite_effect (s : State) (e : AuditEntry) :
    s.onlyIn (s.auditWrite e) [.fields, .sec] ∧ s.onlyFields (s.auditWrite e) bookFlds ∧
      (s.auditWrite e).sec = { s.sec with log := (s.auditWrite e).sec.log, nextSeq := s.sec.nextSeq + 1 } ∧
      SMap.find? (s.auditWrite e).sec.log s.sec.nextSeq = some e := by
  unfold State.auditWrite
  extract_lets n lost log _ t u
  have ht : s.onlyIn t [.fields, .sec] := State.onlyIn_mono (s.onlyIn_onSec fun x => { x with log := SMap.put log n e, nextSeq := n + 1 }) (by decide)
  have hu : s.onlyIn u [.fields, .sec] ∧ s.onlyFields u bookFlds ∧ u.sec = t.sec := by
    unfold u
    split
    · exact ⟨State.onlyIn_count ht (by decide), State.onlyFields_count (State.onlyFields_same (State.onlyFields_refl s _) rfl) (by decide), rfl⟩
    · exact ⟨ht, State.onlyFields_same (State.onlyFields_refl s _) rfl, rfl⟩
  obtain ⟨huin, hufields, husec⟩ := hu
  have hsec : ((u.setFld F.VLT_AUDIT_SEQ_LO_SEQ (n + 1)).recordWrites).sec = t.sec := husec
  refine ⟨State.onlyIn_count (State.onlyIn_setFld huin (by decide)) (by decide),
    State.onlyFields_count (State.onlyFields_setFld hufields (by decide)) (by decide), ?_, ?_⟩
  · rw [hsec]
  · rw [hsec]
    exact SMap.find?_put_same ..

theorem State.books_auditWrite (s : State) (e : AuditEntry) : s.books (s.auditWrite e) := by
  obtain ⟨hin, hfields, hsec, -⟩ := s.auditWrite_effect e
  exact ⟨State.onlyIn_mono hin (by decide), hfields, by rw [hsec]⟩

theorem State.books_vaultBegun (s : State) (c : Mgmt) (code target : Nat) (detail : Bytes) : s.books (s.vaultBegun c code target detail) :=
  (s.books_take c.fn).trans (State.books_auditWrite ..)

/-! Rings. -/

theorem State.sameRing.respond {c : Mgmt} (h : s.sameRing t c.fn) (code result : Nat) (detail : Bytes) :
    s.responded (t.respond c code result detail) c code result := by
  obtain ⟨hrsp, htail, hdiscard⟩ := h
  cases hd : (s.win c.fn).discard
  · constructor <;> simp [State.respond, hrsp, htail, hdiscard, hd]
  · constructor <;> simp [State.respond, hdiscard, hd]

theorem State.sameRing_vaultBegun (s : State) (c : Mgmt) (code target : Nat) (detail : Bytes) :
    s.sameRing (s.vaultBegun c code target detail) c.fn :=
  (s.sameRing_take c.fn).trans (State.sameRing_of_onlyIn (State.auditWrite_effect _ _).1 (by decide) c.fn)

theorem State.sameRing.finish {c : Mgmt} (h : s.sameRing t c.fn) (seq code result : Nat) (detail : Bytes) :
    s.responded (t.finish c seq code result detail) c code result := by
  have hdone : t.sameRing (t.auditDone seq (if result = 0 then 0 else 1) result) c.fn :=
    State.sameRing_of_onlyIn (t.onlyIn_auditDone seq (if result = 0 then 0 else 1) result) (by decide) c.fn
  exact (h.trans hdone).respond ..

/-- A command that changes vault state and meets no common result acts once its pending entry stands in the vault. -/
theorem State.heeds.vault {c : Mgmt} {r : CmdRule} (h : s.heeds c r) {code : Nat} (hcode : r.code = code) (target : Nat) (detail : Bytes)
    (act : Nat → State → State) : Machine.within c.ok (s.vaultCmd c r target detail act) = .next (act s.sec.nextSeq (s.vaultBegun c code target detail)) := by
  subst hcode
  rw [State.vaultCmd, h.within]
  rfl

theorem State.answer_sec (s : State) (c : Mgmt) (code result target : Nat) (detail : Bytes) :
    (s.answer c code result target detail).sec = { s.sec with waiting := (s.answer c code result target detail).sec.waiting } := by
  have hsec : (s.answer c code result target detail).sec = (s.audit c.fn code (if result = 0 then 0 else 1) result target).sec :=
    State.onlyIn_respond _ c code result detail .sec (by decide)
  rw [hsec]
  rfl

/-! The signature engine (R496). -/

theorem State.onlyIn_setEngine (s : State) (e : SigEngine) : s.onlyIn (s.setEngine e) [.fields, .sec] := by
  have hsec : s.onlyIn (s.onSec fun x => { x with engine := e }) [.fields, .sec] := State.onlyIn_mono (s.onlyIn_onSec _) (by decide)
  exact State.onlyIn_setFld hsec (by decide)

theorem State.onlyFields_setEngine (s : State) (e : SigEngine) : s.onlyFields (s.setEngine e) [F.SEC_ENGINE_QUEUED] :=
  State.onlyFields_setFld (State.onlyFields_same (State.onlyFields_refl s _) rfl) (by decide)

/-- The engine once it has given an answer: the next request is served, the answer counted and its code shown. -/
def State.engineDone (s : State) (code : Nat) : State :=
  let s := s.setEngine ({ s.sec.engine with served := none }.fill s.now)
  let s := (s.count F.SEC_VERIFYCNT).setFld F.SEC_ENGINE_LASTCODE code
  if code = 0 then s else s.count F.SEC_REJECTCNT

theorem State.engineAnswer_due {r : SigReq} {t0 : Nat} (hserved : s.sec.engine.served = some (r, t0)) (hdue : t0 + 1900000 ≤ s.now) :
    s.engineAnswer = some (r, r.code, s.engineDone r.code) := by
  simp [State.engineAnswer, hserved, Nat.not_lt.2 hdue, State.engineDone]

/-- The fields of the engine. -/
def engineFlds : List Fld := [F.SEC_ENGINE_QUEUED, F.SEC_VERIFYCNT, F.SEC_ENGINE_LASTCODE, F.SEC_REJECTCNT]

theorem State.engineDone_effect (s : State) (code : Nat) :
    s.onlyIn (s.engineDone code) [.fields, .sec] ∧ s.onlyFields (s.engineDone code) engineFlds ∧
      (s.engineDone code).sec = { s.sec with engine := { s.sec.engine with served := none }.fill s.now } ∧
      (s.engineDone code).fld F.SEC_VERIFYCNT = min (s.fld F.SEC_VERIFYCNT + 1) (2 ^ F.SEC_VERIFYCNT.width - 1) ∧
      (s.engineDone code).fld F.SEC_ENGINE_LASTCODE = code % 2 ^ F.SEC_ENGINE_LASTCODE.width ∧
      (s.engineDone code).fld F.SEC_REJECTCNT =
        if code = 0 then s.fld F.SEC_REJECTCNT else min (s.fld F.SEC_REJECTCNT + 1) (2 ^ F.SEC_REJECTCNT.width - 1) := by
  unfold State.engineDone
  extract_lets _ t u
  have htin : s.onlyIn t [.fields, .sec] := s.onlyIn_setEngine _
  have htfields : s.onlyFields t [F.SEC_ENGINE_QUEUED] := s.onlyFields_setEngine _
  have huin : s.onlyIn u [.fields, .sec] := State.onlyIn_setFld (State.onlyIn_count htin (by decide)) (by decide)
  have hufields : s.onlyFields u engineFlds :=
    State.onlyFields_setFld (State.onlyFields_count (State.onlyFields_then (State.onlyFields_refl s _) htfields (by decide)) (by decide)) (by decide)
  have hverify : u.fld F.SEC_VERIFYCNT = min (s.fld F.SEC_VERIFYCNT + 1) (2 ^ F.SEC_VERIFYCNT.width - 1) := by
    rw [State.fld_setFld_of_code _ _ _ _ _ _ (by decide) (by decide) (by decide), State.fld_count_same, htfields.fld 0 (by decide)]
  have hlast : u.fld F.SEC_ENGINE_LASTCODE = code % 2 ^ F.SEC_ENGINE_LASTCODE.width := State.fld_setFld_same ..
  have hreject : u.fld F.SEC_REJECTCNT = s.fld F.SEC_REJECTCNT := by
    rw [State.fld_setFld_of_code _ _ _ _ _ _ (by decide) (by decide) (by decide), State.fld_count_of_code _ _ _ _ _ _ (by decide) (by decide) (by decide),
      htfields.fld 0 (by decide)]
  by_cases h : code = 0
  · simp only [if_pos h]
    exact ⟨huin, hufields, rfl, hverify, hlast, hreject⟩
  · simp only [if_neg h]
    refine ⟨State.onlyIn_count huin (by decide), State.onlyFields_count hufields (by decide), rfl, ?_, ?_, ?_⟩
    · rw [State.fld_count_of_code _ _ _ _ _ _ (by decide) (by decide) (by decide), hverify]
    · rw [State.fld_count_of_code _ _ _ _ _ _ (by decide) (by decide) (by decide), hlast]
    · rw [State.fld_count_same, hreject]

theorem State.engineDone_fld (s : State) (code : Nat) {f : Fld} (i : Nat) (hf : f.code % 1024 ∉ engineFlds.map (·.code)) :
    (s.engineDone code).fld f i = s.fld f i := (s.engineDone_effect code).2.1.fld i hf

end Books

end Sys2Proof.Machine

/-!
PROOFS of the statement on roles (15_update_and_roles R486, R488, R490).
-/

namespace Sys2Proof.Machine

/-! What a function holds. -/

section Held
variable {s t : State}

@[simp] theorem State.fnSec_setFnSec_same (s : State) (fn : Nat) (v : FnSec) : (s.setFnSec fn v).fnSec fn = v := SMap.get_set_same ..

@[simp] theorem State.fld_setFnSec (s : State) (fn : Nat) (v : FnSec) (f : Fld) (i : Nat) : (s.setFnSec fn v).fld f i = s.fld f i := rfl

theorem State.sameRing_setFnSec (s : State) (fn : Nat) (v : FnSec) (g : Nat) : s.sameRing (s.setFnSec fn v) g := ⟨rfl, rfl, rfl⟩

/-- What a function holds in the vault changes nothing beside the security records. -/
theorem State.onlyIn_setFnSec (s : State) (fn : Nat) (v : FnSec) : s.onlyIn (s.setFnSec fn v) [.sec] :=
  s.onlyIn_onSec fun x => { x with fns := SMap.set .init x.fns fn v }

/-- A failed ROLE_ASSUME is counted, and leaves the roles, the nonces and the window. -/
theorem State.authFail_effect (s : State) (fn : Nat) :
    (s.authFail fn).fld F.SEC_AUTHFAILCNT = min (s.fld F.SEC_AUTHFAILCNT + 1) (2 ^ F.SEC_AUTHFAILCNT.width - 1) ∧
      ((s.authFail fn).fnSec fn).nonce = (s.fnSec fn).nonce ∧ s.onlyIn (s.authFail fn) [.fields, .sec] ∧
      s.onlyFields (s.authFail fn) [F.SEC_AUTHFAILCNT, F.SEC_FN_ROLE_LOCKOUT] := by
  unfold State.authFail
  extract_lets t f
  have htin : s.onlyIn t [.fields, .sec] := State.onlyIn_count (State.onlyIn_refl s _) (by decide)
  have htfields : s.onlyFields t [F.SEC_AUTHFAILCNT, F.SEC_FN_ROLE_LOCKOUT] := State.onlyFields_count (State.onlyFields_refl s _) (by decide)
  have hcount : t.fld F.SEC_AUTHFAILCNT = min (s.fld F.SEC_AUTHFAILCNT + 1) (2 ^ F.SEC_AUTHFAILCNT.width - 1) := State.fld_count_same ..
  have hset (v : FnSec) : s.onlyIn (t.setFnSec fn v) [.fields, .sec] := State.onlyIn_then htin (t.onlyIn_setFnSec fn v) (by decide)
  have hnonce (v : FnSec) (hv : v.nonce = (s.fnSec fn).nonce) : ((t.setFnSec fn v).fnSec fn).nonce = (s.fnSec fn).nonce := by
    rw [State.fnSec_setFnSec_same, hv]
  split
  · refine ⟨?_, hnonce _ rfl, State.onlyIn_setFld (hset _) (by decide),
      State.onlyFields_setFld (State.onlyFields_same htfields rfl) (by decide)⟩
    exact (State.fld_setFld_of_code _ _ _ _ _ _ (by decide) (by decide) (by decide)).trans hcount
  · exact ⟨hcount, hnonce _ rfl, hset _, State.onlyFields_same htfields rfl⟩

/-- The nonce a function holds depends on its record and the clock. -/
theorem State.nonceOf_fresh {fn : Nat} {n : Bytes} (h : (s.fnSec fn).nonce = some (n, s.now)) : s.nonceOf fn = some n := by
  simp [State.nonceOf, h]

theorem State.nonceOf_none {fn : Nat} (h : (s.fnSec fn).nonce = none) : s.nonceOf fn = none := by simp [State.nonceOf, h]

/-- The key that a role request names depends on the key tables. -/
theorem State.authKey_of_sec (hop : t.sec.opKeys = s.sec.opKeys) (hins : t.sec.insKeys = s.sec.insKeys) (fn role idx : Nat) :
    t.authKey fn role idx = s.authKey fn role idx := by simp only [State.authKey, hop, hins]

end Held

/-! The role commands. -/

section Roles
variable {s : State} {c : Mgmt}

theorem State.fnCommand_taken (htakes : s.takes c.fn = true) (act : State → State) : s.fnCommand c act = act (s.take c.fn) := if_pos htakes

/-- The lock bars the maker alone. -/
theorem State.makerBarred_not {role : Nat} (h : role = 3 → s.locked = false) : (role = 3 && s.locked) = false := by
  by_cases hrole : role = 3
  · simp [hrole, h hrole]
  · simp [hrole]

/-- ROLE_CHALLENGE of a function that is not locked out. -/
theorem State.roleChallenge_eq (htakes : s.takes c.fn = true) (hfree : s.lockedOut c.fn = false) :
    s.roleChallenge c = ((s.take c.fn).draw.2.setFnSec c.fn { s.fnSec c.fn with nonce := some (toLe 32 (Config.random s.free % 2 ^ 256), s.now) }).answer c
      0x0100 0 0 (toLe 32 (Config.random s.free % 2 ^ 256)) := by
  have hfree' : (s.take c.fn).lockedOut c.fn = false := hfree
  rw [State.roleChallenge, State.fnCommand_taken htakes]
  exact if_neg (by simp [hfree'])

theorem State.roleChallenge_effect (htakes : s.takes c.fn = true) (hfree : s.lockedOut c.fn = false) :
    s.responded (s.roleChallenge c) c 0x0100 0 ∧ (s.roleChallenge c).free = s.free + 1 ∧
      (s.roleChallenge c).nonceOf c.fn = some (toLe 32 (Config.random s.free % 2 ^ 256)) ∧ (s.roleChallenge c).roleOf c.fn = s.roleOf c.fn := by
  rw [State.roleChallenge_eq htakes hfree]
  generalize hheld : (s.take c.fn).draw.2.setFnSec c.fn { s.fnSec c.fn with nonce := some (toLe 32 (Config.random s.free % 2 ^ 256), s.now) } = t
  have hring : s.sameRing t c.fn := hheld ▸ (s.sameRing_take c.fn).trans ⟨rfl, rfl, rfl⟩
  have hbooks := t.books_answer c 0x0100 0 0 (toLe 32 (Config.random s.free % 2 ^ 256))
  have hnonce : t.nonceOf c.fn = some (toLe 32 (Config.random s.free % 2 ^ 256)) := by
    rw [← hheld]
    exact State.nonceOf_fresh (congrArg FnSec.nonce (State.fnSec_setFnSec_same ..))
  refine ⟨hring.answer .., ?_, (hbooks.nonceOf c.fn).trans hnonce, (hbooks.roleOf c.fn).trans (by rw [← hheld]; rfl)⟩
  rw [hbooks.parts .free (by decide), ← hheld]
  rfl

/-- The nonce is spent. -/
def State.nonceSpent (s : State) (fn : Nat) : State := s.setFnSec fn { s.fnSec fn with nonce := none }

/-- ROLE_ASSUME with a valid nonce. -/
theorem State.roleAssume_eq {role idx : Nat} {sig n : Bytes} (htakes : s.takes c.fn = true) (hfree : s.lockedOut c.fn = false)
    (hmaker : role = 3 → s.locked = false) (hnonce : s.nonceOf c.fn = some n) :
    (∀ k, s.authKey c.fn role idx = some k → s.roleAssume c role idx sig = ((s.take c.fn).nonceSpent c.fn).engineAsk {
        use := .role c role idx, key := k, digest := sha384 (n ++ s.serial ++ [BitVec.ofNat 8 c.fn, BitVec.ofNat 8 role]), sig := sig, keyCheck := false }) ∧
      (s.authKey c.fn role idx = none →
        s.roleAssume c role idx sig = (((s.take c.fn).nonceSpent c.fn).authFail c.fn).answer c 0x0101 0x03 (argWord role idx 0 0)) := by
  have hfree' : (s.take c.fn).lockedOut c.fn = false := hfree
  have hlocked : (role = 3 && (s.take c.fn).locked) = false := State.makerBarred_not (s := s.take c.fn) hmaker
  have hnonce' : (s.take c.fn).nonceOf c.fn = some n := hnonce
  have hserial : (s.take c.fn).serial = s.serial := rfl
  rw [State.roleAssume, State.fnCommand_taken htakes]
  simp only [hfree', hlocked, hnonce', Bool.false_eq_true, if_false]
  refine ⟨fun k hk => ?_, fun hk => ?_⟩
  · have hk' : (s.take c.fn).authKey c.fn role idx = some k := hk
    rw [hk', hserial]
    rfl
  · have hk' : (s.take c.fn).authKey c.fn role idx = none := hk
    rw [hk']
    rfl

/-- A request that names no key of the part fails and is counted. -/
theorem State.roleAssume_noKey {role idx : Nat} {sig n : Bytes} (htakes : s.takes c.fn = true) (hfree : s.lockedOut c.fn = false)
    (hmaker : role = 3 → s.locked = false) (hnonce : s.nonceOf c.fn = some n) (hkey : s.authKey c.fn role idx = none) :
    s.responded (s.roleAssume c role idx sig) c 0x0101 0x03 ∧
      (s.roleAssume c role idx sig).fld F.SEC_AUTHFAILCNT = min (s.fld F.SEC_AUTHFAILCNT + 1) (2 ^ F.SEC_AUTHFAILCNT.width - 1) ∧
      (s.roleAssume c role idx sig).roleOf c.fn = s.roleOf c.fn ∧ (s.roleAssume c role idx sig).nonceOf c.fn = none := by
  obtain ⟨hcount, hnone, hin, hfields⟩ := ((s.take c.fn).nonceSpent c.fn).authFail_effect c.fn
  have hbooks := (((s.take c.fn).nonceSpent c.fn).authFail c.fn).books_answer c 0x0101 0x03 (argWord role idx 0 0) []
  have hring : s.sameRing (((s.take c.fn).nonceSpent c.fn).authFail c.fn) c.fn :=
    ((s.sameRing_take c.fn).trans (State.sameRing_setFnSec _ _ _ _)).trans (State.sameRing_of_onlyIn hin (by decide) c.fn)
  rw [(State.roleAssume_eq htakes hfree hmaker hnonce).2 hkey]
  refine ⟨hring.answer .., (hbooks.fld 0 (by decide)).trans hcount, (hbooks.roleOf c.fn).trans (hfields.fld c.fn (by decide)), ?_⟩
  rw [hbooks.nonceOf c.fn]
  exact State.nonceOf_none (hnone.trans (congrArg FnSec.nonce (State.fnSec_setFnSec_same ..)))

/-- The engine's code 0 gives the function the role. -/
theorem State.roleAnswer_assumes {role idx : Nat} {key : Bytes} (hmaker : role = 3 → s.locked = false) (hkey : s.authKey c.fn role idx = some key)
    (hrole : role < 4) :
    (s.roleAnswer c role idx key 0).roleOf c.fn = role ∧ (s.roleAnswer c role idx key 0).fld F.SEC_FN_ROLE_KEY c.fn = idx % 2 ^ F.SEC_FN_ROLE_KEY.width ∧
      ((s.roleAnswer c role idx key 0).fnSec c.fn).fails = 0 ∧ s.responded (s.roleAnswer c role idx key 0) c 0x0101 0 := by
  have hlocked : (role = 3 && s.locked) = false := State.makerBarred_not hmaker
  have heq : s.roleAnswer c role idx key 0 = (((s.setFld F.SEC_FN_ROLE_ROLE role c.fn).setFld F.SEC_FN_ROLE_KEY idx c.fn).setFnSec c.fn
      { s.fnSec c.fn with fails := 0, table := role, key := idx }).answer c 0x0101 0 (argWord role idx 0 0) := by
    simp only [State.roleAnswer, hlocked, hkey, ne_eq, not_true_eq_false, Bool.false_eq_true, if_false]
    rfl
  generalize hgiven : ((s.setFld F.SEC_FN_ROLE_ROLE role c.fn).setFld F.SEC_FN_ROLE_KEY idx c.fn).setFnSec c.fn
      { s.fnSec c.fn with fails := 0, table := role, key := idx } = t at heq
  have hring : s.sameRing t c.fn := hgiven ▸ ⟨rfl, rfl, rfl⟩
  have hbooks := t.books_answer c 0x0101 0 (argWord role idx 0 0) []
  rw [heq]
  refine ⟨(hbooks.roleOf c.fn).trans ?_, (hbooks.fld c.fn (by decide)).trans ?_, ?_, hring.answer ..⟩
  · rw [← hgiven]
    exact ((State.fld_setFld_of_code (s.setFld F.SEC_FN_ROLE_ROLE role c.fn) F.SEC_FN_ROLE_KEY F.SEC_FN_ROLE_ROLE _ _ _ (by decide) (by decide) (by decide)).trans
      (State.fld_setFld_same ..)).trans (Nat.mod_eq_of_lt hrole)
  · rw [← hgiven]
    exact State.fld_setFld_same ..
  · rw [hbooks.fnSec c.fn, ← hgiven, State.fnSec_setFnSec_same]

/-- Any other code leaves the role. -/
theorem State.roleAnswer_fails {role idx code : Nat} {key : Bytes} (hcode : code ≠ 0) :
    (s.roleAnswer c role idx key code).roleOf c.fn = s.roleOf c.fn ∧ s.responded (s.roleAnswer c role idx key code) c 0x0101 0x02 ∧
      (s.roleAnswer c role idx key code).fld F.SEC_REJECTCNT = s.fld F.SEC_REJECTCNT := by
  have heq : s.roleAnswer c role idx key code = (s.authFail c.fn).answer c 0x0101 0x02 (argWord role idx 0 0) (toLe 1 code) := if_pos hcode
  obtain ⟨-, -, hin, hfields⟩ := s.authFail_effect c.fn
  have hbooks := (s.authFail c.fn).books_answer c 0x0101 0x02 (argWord role idx 0 0) (toLe 1 code)
  rw [heq]
  exact ⟨(hbooks.roleOf c.fn).trans (hfields.fld c.fn (by decide)), (State.sameRing_of_onlyIn hin (by decide) c.fn).answer ..,
    (hbooks.fld 0 (by decide)).trans (hfields.fld 0 (by decide))⟩

/-- The engine's answer goes to the ROLE_ASSUME that asked. -/
theorem State.signatureAnswer_role {r : SigReq} {t0 role idx : Nat} (hserved : s.sec.engine.served = some (r, t0)) (hdue : t0 + 1900000 ≤ s.now)
    (huse : r.use = .role c role idx) : s.signatureAnswer = (s.engineDone r.code).roleAnswer c role idx r.key r.code := by
  simp [State.signatureAnswer, State.engineAnswer_due hserved hdue, huse]

/-- ROLE_RELEASE leaves no role. -/
theorem State.roleRelease_effect (htakes : s.takes c.fn = true) :
    (s.roleRelease c).roleOf c.fn = 0 ∧ (s.roleRelease c).fld F.SEC_FN_ROLE_KEY c.fn = 0 ∧ s.responded (s.roleRelease c) c 0x0102 0 := by
  rw [State.roleRelease, State.fnCommand_taken htakes]
  have hanswered : s.responded ((s.take c.fn).answer c 0x0102 0 0) c 0x0102 0 := (s.sameRing_take c.fn).answer ..
  generalize (s.take c.fn).answer c 0x0102 0 0 = t at hanswered
  refine ⟨?_, ?_, ⟨hanswered.idle, hanswered.record, hanswered.tail⟩⟩
  · rw [State.roleOf, State.fld_setFnSec, State.fld_setFld_of_code _ _ _ _ _ _ (by decide) (by decide) (by decide), State.fld_setFld_same]
    rfl
  · rw [State.fld_setFnSec, State.fld_setFld_same]
    rfl

/-- LOCKOUT_END once the lockout is over. -/
theorem State.lockoutEnd_effect {fn e : Nat} (hlock : (s.fnSec fn).lockEnd = some e) (hover : e ≤ s.now) :
    ((s.lockoutEnd fn).fnSec fn).lockEnd = none ∧ ((s.lockoutEnd fn).fnSec fn).fails = 0 ∧ (s.lockoutEnd fn).fld F.SEC_FN_ROLE_LOCKOUT fn = 0 ∧
      (s.lockoutEnd fn).roleOf fn = s.roleOf fn := by
  have heq : s.lockoutEnd fn = (s.setFnSec fn { s.fnSec fn with lockEnd := none, fails := 0 }).setFld F.SEC_FN_ROLE_LOCKOUT 0 fn := by
    rw [State.lockoutEnd, if_neg (by simp [State.lockedOut, hlock, hover])]
  have hheld : (s.lockoutEnd fn).fnSec fn = { s.fnSec fn with lockEnd := none, fails := 0 } := by
    rw [heq]
    exact State.fnSec_setFnSec_same ..
  rw [hheld, heq]
  exact ⟨rfl, rfl, State.fld_setFld_same .., State.fld_setFld_of_code _ _ _ _ _ _ (by decide) (by decide) (by decide)⟩

/-- NONCE_EXPIRY once 10 s are over. -/
theorem State.nonceExpiry_expired {fn e : Nat} {n : Bytes} (hnonce : (s.fnSec fn).nonce = some (n, e)) (hover : e + 10000000000 ≤ s.now) :
    s.nonceExpiry fn = s.nonceSpent fn := by
  have hnone : s.nonceOf fn = none := by simp [State.nonceOf, hnonce, hover]
  rw [State.nonceExpiry, if_neg (by simp [hnone])]
  rfl

theorem State.diagUnlock_unlocks (hlock : s.locked = false) (hstill : s.frame.st = .halted ∨ s.frame.st = .empty)
    (hheeds : s.heeds c (partCmd 0x0120 roleMkr)) : s.diagUnlock c = ((s.take c.fn).setFld F.SEC_LOCK_DIAG 1).answer c 0x0120 0 0 := by
  have hlock' : (s.take c.fn).locked = false := hlock
  rw [State.diagUnlock, hheeds.mgmt, if_neg (by simp [hlock']), if_neg (by rw [s.take_frame]; rcases hstill with h | h <;> simp [h])]

end Roles

/-! The statement, command by command. -/

/-- Settles O29: each role command's meaning where it passes, and the engine's answer to it. -/
theorem rolesAreHeldAndLost : Obligations.RolesAreHeldAndLost := by
  unfold Obligations.RolesAreHeldAndLost
  intro s c hfn
  have hok : c.ok = true := decide_eq_true hfn
  refine ⟨fun htakes hfree => ?_, fun role idx sig n htakes hfree hmaker hnonce => ⟨fun k hk => ?_, fun hk => ?_⟩,
    fun r t0 role idx hserved hdue huse hrole hmaker hkey => ⟨fun hcode => ?_, fun hcode => ?_⟩, fun htakes => ?_, fun e hlock hover => ?_,
    fun n e hnonce hover => ?_, fun hheeds hlock hstill => ?_⟩
  · exact ⟨_, within_next hok, State.roleChallenge_effect htakes hfree⟩
  · rw [exec_roleAssume, within_next hok, (State.roleAssume_eq htakes hfree hmaker hnonce).1 k hk]
    rfl
  · exact ⟨_, within_next hok, State.roleAssume_noKey htakes hfree hmaker hnonce hk⟩
  · obtain ⟨hin, hfields, hsec, -⟩ := s.engineDone_effect r.code
    have hlocked : (s.engineDone r.code).locked = s.locked := State.flag_of_fld (hfields.fld 0 (by decide))
    have hauth : (s.engineDone r.code).authKey c.fn role idx = s.authKey c.fn role idx := State.authKey_of_sec (by rw [hsec]) (by rw [hsec]) ..
    obtain ⟨hgiven, hindex, hfails, hanswered⟩ := State.roleAnswer_assumes (c := c) (fun h => hlocked.trans (hmaker h)) (hauth.trans hkey) hrole
    rw [exec_signatureAnswer, State.signatureAnswer_role hserved hdue huse, hcode]
    rw [hcode] at hgiven hindex hfails hanswered hin
    exact ⟨_, rfl, hgiven, hindex, hfails, (State.sameRing_of_onlyIn hin (by decide) c.fn).responded hanswered⟩
  · obtain ⟨hin, hfields, -, -, -, hreject⟩ := s.engineDone_effect r.code
    obtain ⟨hkept, hanswered, hsame⟩ := State.roleAnswer_fails (s := s.engineDone r.code) (c := c) (role := role) (idx := idx) (key := r.key) hcode
    rw [exec_signatureAnswer, State.signatureAnswer_role hserved hdue huse]
    exact ⟨_, rfl, hkept.trans (hfields.fld c.fn (by decide)), (State.sameRing_of_onlyIn hin (by decide) c.fn).responded hanswered,
      hsame.trans (hreject.trans (if_neg hcode))⟩
  · exact ⟨_, within_next hok, State.roleRelease_effect htakes⟩
  · exact ⟨_, within_next (decide_eq_true hfn), State.lockoutEnd_effect hlock hover⟩
  · rw [exec_nonceExpiry, within_next (decide_eq_true hfn), State.nonceExpiry_expired hnonce hover]
    rfl
  · rw [exec_diagUnlock, within_next hok, State.diagUnlock_unlocks hlock hstill hheeds]

end Sys2Proof.Machine

/-!
PROOFS of the statement on keys, the installer lock, the audit log and the vault's journal (15_update_and_roles R469, R487 to R494).
-/

namespace Sys2Proof.Machine

/-! Key tables (R487). -/

section Keys
variable {s t : State}

/-- A key table depends on the security records alone. -/
theorem State.keysOf_of_sec (hop : t.sec.opKeys = s.sec.opKeys) (hins : t.sec.insKeys = s.sec.insKeys) (hpub : t.sec.pubKeys = s.sec.pubKeys) (table : Nat) :
    t.keysOf table = s.keysOf table := by simp only [State.keysOf, State.keyTable, hop, hins, hpub]

theorem State.books.keysOf (h : s.books t) (table : Nat) : t.keysOf table = s.keysOf table :=
  State.keysOf_of_sec (by rw [h.sec]) (by rw [h.sec]) (by rw [h.sec]) table

/-- A key table reads what was written. -/
theorem State.keysOf_setKeys (s : State) {table : Nat} (m : SMap KeyRec) (h : table = 1 ∨ table = 2 ∨ table = 4) : (s.setKeys table m).keysOf table = m := by
  rcases h with rfl | rfl | rfl <;> rfl

theorem State.onlyIn_setKeys (s : State) (table : Nat) (m : SMap KeyRec) : s.onlyIn (s.setKeys table m) [.fields, .sec] :=
  State.onlyIn_count (State.onlyIn_mono (s.onlyIn_onSec _) (by decide)) (by decide)

/-- A role that ends leaves the key tables and the windows. -/
theorem State.onlyIn_endRole (s : State) (fn cause : Nat) : s.onlyIn (s.endRole fn cause) [.fields, .sec] := by
  unfold State.endRole
  split
  · exact State.onlyIn_refl s _
  · extract_lets t
    have ht : s.onlyIn t [.fields, .sec] := State.onlyIn_mono (s.onlyIn_audit fn 0xFFFC 0 cause 0 []) (by decide)
    exact State.onlyIn_then (State.onlyIn_setFld (State.onlyIn_setFld ht (by decide)) (by decide)) (State.onlyIn_setFnSec _ _ _) (by decide)

/-- After its key is dropped an index holds none. -/
theorem State.keysOf_dropKey (s : State) {table : Nat} (idx : Nat) (h : table = 1 ∨ table = 2 ∨ table = 4) :
    SMap.find? ((s.dropKey table idx).keysOf table) idx = none := by
  unfold State.dropKey
  split
  · next hnone => exact Option.isNone_iff_eq_none.1 hnone
  · extract_lets held t
    rw [State.keysOf_setKeys _ _ h]
    exact SMap.find?_drop_same ..

theorem State.onlyIn_dropKey (s : State) (table idx : Nat) : s.onlyIn (s.dropKey table idx) [.fields, .sec] := by
  unfold State.dropKey
  split
  · exact State.onlyIn_refl s _
  · extract_lets held t
    have ht : s.onlyIn t [.fields, .sec] := State.onlyIn_foldl (fun u f => u.onlyIn_endRole f 0x03) held s
    exact State.onlyIn_trans ht (t.onlyIn_setKeys _ _)

end Keys

/-! The key commands (R487). -/

section Commands
variable {s : State} {c : Mgmt}

/-- The engine's request for a key check (R496). -/
def keyCheck (c : Mgmt) (table idx mask : Nat) (key : Bytes) (seq : Nat) : SigReq :=
  { use := .key c table idx mask key seq, key := key, digest := List.replicate 48 0, sig := toBe 48 1 ++ toBe 48 1, keyCheck := true }

/-- KEY_SET and PUBKEY_SET that pass ask for the check of their key. -/
theorem State.keySet_asks {code target table idx mask : Nat} {key : Bytes}
    (hheeds : s.heeds c (partCmd code (if s.firstKey c table idx then 0 else roleIns) (c.len == 97) true)) (hlock : s.locked = false)
    (hidx : idx < tableSize table) : within c.ok (s.keySet c code target table idx mask key) =
      .next ((s.vaultBegun c code target ((sha384 key).take 8)).engineAsk (keyCheck c table idx mask key s.sec.nextSeq)) := by
  have hlock' := (s.books_vaultBegun c code target ((sha384 key).take 8)).locked.trans hlock
  unfold State.keySet
  extract_lets role
  rw [hheeds.vault (code := code) rfl target ((sha384 key).take 8), hlock', if_neg (by decide), if_neg (Nat.not_le.2 hidx), keyCheck]

/-- KEY_REMOVE and PUBKEY_REMOVE that pass leave no key at the index. -/
theorem State.keyRemove_removes {code target table idx : Nat} (hheeds : s.heeds c (partCmd code roleIns)) (hlock : s.locked = false)
    (hidx : idx < tableSize table) (htable : table = 1 ∨ table = 2 ∨ table = 4) :
    ∃ t, within c.ok (s.keyRemove c code target table idx) = .next t ∧ SMap.find? (t.keysOf table) idx = none ∧ s.responded t c code 0 := by
  have hlock' := (s.books_vaultBegun c code target []).locked.trans hlock
  refine ⟨((s.vaultBegun c code target []).dropKey table idx).finish c s.sec.nextSeq code 0, ?_, ?_, ?_⟩
  · rw [State.keyRemove, hheeds.vault (code := code) rfl target [], hlock', if_neg (by decide), if_neg (Nat.not_le.2 hidx)]
  · rw [(State.books_finish _ c s.sec.nextSeq code 0 []).keysOf]
    exact State.keysOf_dropKey _ idx htable
  · exact ((s.sameRing_vaultBegun c code target []).trans (State.sameRing_of_onlyIn (State.onlyIn_dropKey _ table idx) (by decide) c.fn)).finish ..

/-- The engine has checked a key: it is stored, or the tables stay. -/
theorem State.keyAnswer_effect {table idx mask seq code : Nat} {key : Bytes} (htable : table = 1 ∨ table = 2 ∨ table = 4) (hlock : s.locked = false) :
    (code = 0 → SMap.find? ((s.keyAnswer c table idx mask key seq code).keysOf table) idx = some ⟨key, if table = 1 then mask else 0⟩) ∧
      (code ≠ 0 → s.books (s.keyAnswer c table idx mask key seq code)) := by
  constructor
  · intro hcode
    unfold State.keyAnswer
    rw [if_neg (not_not.2 hcode), if_neg (by simp [hlock])]
    extract_lets d k u
    have hk : k.keysOf table = SMap.put (d.keysOf table) idx ⟨key, if table = 1 then mask else 0⟩ := State.keysOf_setKeys _ _ htable
    have hu : u.keysOf table = k.keysOf table := by
      unfold u
      split
      · exact State.keysOf_of_sec rfl rfl rfl table
      · rfl
    rw [(u.books_finish c seq _ 0 []).keysOf, hu, hk]
    exact SMap.find?_put_same ..
  · intro hcode
    unfold State.keyAnswer
    rw [if_pos hcode]
    exact s.books_finish ..

theorem State.signatureAnswer_key {r : SigReq} {t0 table idx mask seq : Nat} {key : Bytes} (hserved : s.sec.engine.served = some (r, t0))
    (hdue : t0 + 1900000 ≤ s.now) (huse : r.use = .key c table idx mask key seq) :
    s.signatureAnswer = (s.engineDone r.code).keyAnswer c table idx mask key seq r.code := by
  simp [State.signatureAnswer, State.engineAnswer_due hserved hdue, huse]

/-! LOCK (R489). -/

theorem State.lockCmd_sets {v : Nat} (hheeds : s.heeds c (partCmd 0x0107 roleIns)) (hv : v ≤ 1) :
    ∃ t, within c.ok (s.lockCmd c v) = .next t ∧ t.fld F.SEC_LOCK_LOCKED = v ∧ t.vfld F.SEC_LOCK_LOCKED = v ∧ s.responded t c 0x0107 0 := by
  have hbooks := ((((s.vaultBegun c 0x0107 v).setBoth F.SEC_LOCK_LOCKED v).books_recordWrites 1).trans
    (State.books_finish _ c s.sec.nextSeq 0x0107 0 []))
  have hwidth : v % 2 ^ F.SEC_LOCK_LOCKED.width = v := Nat.mod_eq_of_lt (Nat.lt_succ_of_le hv)
  refine ⟨(((s.vaultBegun c 0x0107 v).setBoth F.SEC_LOCK_LOCKED v).recordWrites).finish c s.sec.nextSeq 0x0107 0, ?_, ?_, ?_, ?_⟩
  · rw [State.lockCmd, hheeds.vault (code := 0x0107) rfl v [], if_neg (Nat.not_lt.2 hv)]
  · rw [hbooks.fld 0 (by decide), State.fld_setBoth_same, hwidth]
  · exact (hbooks.vfld F.SEC_LOCK_LOCKED 0).trans ((State.vfld_setBoth_same ..).trans hwidth)
  · refine ((s.sameRing_vaultBegun c 0x0107 v []).trans (State.sameRing_of_onlyIn (ps := [.fields, .vfields]) ?_ (by decide) c.fn)).finish ..
    exact State.onlyIn_count (State.onlyIn_setBoth (State.onlyIn_refl _ _) (by decide) (by decide)) (by decide)

theorem State.lockCmd_refused {v : Nat} (hheeds : s.heeds c (partCmd 0x0107 roleIns)) (hv : 1 < v) :
    ∃ t, within c.ok (s.lockCmd c v) = .next t ∧ t.fld F.SEC_LOCK_LOCKED = s.fld F.SEC_LOCK_LOCKED ∧ t.vfields = s.vfields ∧ s.responded t c 0x0107 0x01 := by
  have hbooks := (s.books_vaultBegun c 0x0107 v []).trans (State.books_finish _ c s.sec.nextSeq 0x0107 0x01 [])
  refine ⟨(s.vaultBegun c 0x0107 v).finish c s.sec.nextSeq 0x0107 0x01, ?_, hbooks.fld 0 (by decide), hbooks.parts .vfields (by decide),
    (s.sameRing_vaultBegun c 0x0107 v []).finish ..⟩
  rw [State.lockCmd, hheeds.vault (code := 0x0107) rfl v [], if_pos hv]

/-! Reads (R494, R497). -/

/-- Bytes written to host memory from a state in which a command has been taken, and the answer: they stand behind what was written before. -/
theorem State.outputAnswered {t : State} (htake : t.win c.fn = (s.take c.fn).win c.fn) (hin : s.onlyIn t [.host, .sec]) (bs : Bytes) (code target : Nat)
    (detail : Bytes) : s.responded ((t.hostOutput c.fn bs).answer c code 0 target detail) c code 0 ∧
      (((t.hostOutput c.fn bs).answer c code 0 target detail).win c.fn).output = (s.win c.fn).output ++ [bs] ∧
      s.onlyIn ((t.hostOutput c.fn bs).answer c code 0 target detail) [.host, .sec] := by
  have hring : s.sameRing (t.hostOutput c.fn bs) c.fn := by
    constructor <;> simp [State.hostOutput, htake, State.take]
  have hwritten : ((t.hostOutput c.fn bs).win c.fn).output = (s.win c.fn).output ++ [bs] := by
    simp [State.hostOutput, htake, State.take]
  exact ⟨hring.answer .., (State.output_answer ..).trans hwritten,
    State.onlyIn_then (State.onlyIn_setWin hin (by decide)) (State.onlyIn_answer _ c code 0 target detail) (by decide)⟩

theorem State.readAudit_effect (first : Nat) (hheeds : s.heeds c (partCmd 0x0108 roleOpr)) :
    s.responded (s.readAudit c first) c 0x0108 0 ∧ ((s.readAudit c first).win c.fn).output = (s.win c.fn).output ++
        [((s.sec.log.filter fun e => decide (first ≤ e.1)).take (c.len / 64)).flatMap fun e => e.2.bytes e.1] ∧
      s.onlyIn (s.readAudit c first) [.host, .sec] := by
  rw [State.readAudit, hheeds.mgmt]
  extract_lets es next t
  have ht : s.onlyIn t [.host, .sec] := State.onlyIn_then (State.onlyIn_mono (s.onlyIn_take c.fn) (by decide)) (State.onlyIn_onSec _ _) (by decide)
  have hes : es = (s.sec.log.filter fun e => decide (first ≤ e.1)).take (c.len / 64) := rfl
  have hwin : t.win c.fn = (s.take c.fn).win c.fn := rfl
  rw [← hes]
  exact State.outputAnswered hwin ht _ _ _ _

theorem State.readKeys_effect (hheeds : s.heeds c (partCmd 0x0109 roleOpr)) : ∃ out,
    s.responded (s.readKeysCmd c) c 0x0109 0 ∧ ((s.readKeysCmd c).win c.fn).output = (s.win c.fn).output ++ [out] ∧
      (s.readKeysCmd c).sec = { s.sec with waiting := (s.readKeysCmd c).sec.waiting } ∧ s.onlyIn (s.readKeysCmd c) [.host, .sec] := by
  rw [State.readKeysCmd, hheeds.mgmt]
  extract_lets out
  obtain ⟨hanswered, hout, hin⟩ := State.outputAnswered (s := s) (t := s.take c.fn) rfl (State.onlyIn_mono (s.onlyIn_take c.fn) (by decide)) out 0x0109 0 []
  refine ⟨out, hanswered, hout, ?_, hin⟩
  exact State.answer_sec ..

/-! The audit log and the journal (R469, R493). -/

theorem State.auditFlush_effect {e : AuditEntry} {rest : List AuditEntry} (h : s.sec.waiting = e :: rest) :
    s.auditFlush.sec.waiting = rest ∧ SMap.find? s.auditFlush.sec.log s.sec.nextSeq = some e ∧ s.auditFlush.sec.nextSeq = s.sec.nextSeq + 1 := by
  obtain ⟨-, -, hsec, hlog⟩ := (s.onSec fun x => { x with waiting := rest }).auditWrite_effect e
  have heq : s.auditFlush = (s.onSec fun x => { x with waiting := rest }).auditWrite e := by rw [State.auditFlush, h]
  rw [heq]
  exact ⟨by rw [hsec]; rfl, hlog, by rw [hsec]; rfl⟩

/-- The bytes of a record once two of its three steps have happened, its entry kept in the journal until the third has (R469). -/
def SecSt.recorded (x : SecSt) (addr : Nat) (data : Bytes) (steps : Nat) : SecSt :=
  { x with gen := x.gen + 1
           bytes := if 2 ≤ steps then Memory.write x.bytes addr data else x.bytes
           journal := if 3 ≤ steps then x.journal else x.journal ++ [⟨addr, data, x.gen, decide (1 ≤ steps), false⟩] }

theorem State.recordWrite_effect {addr steps : Nat} {data : Bytes} (hroom : s.sec.journal.length < 128)
    (hunit : addr / 65536 < 792 ∨ 808 ≤ addr / 65536 ∨ s.flag F.SEC_LOCK_DIAG = true) :
    (s.recordWrite addr data steps false).sec = s.sec.recorded addr data steps ∧ (s.recordWrite addr data steps false).fld F.VLT_RECWRCNT =
      if 3 ≤ steps then min (s.fld F.VLT_RECWRCNT + 1) (2 ^ F.VLT_RECWRCNT.width - 1) else s.fld F.VLT_RECWRCNT := by
  unfold State.recordWrite
  extract_lets unit maker e t u v
  rw [if_neg (by rcases hunit with h | h | h <;> simp [maker, unit, h] <;> omega)]
  have hu : u.sec = { s.sec with gen := s.sec.gen + 1, bytes := if 2 ≤ steps then Memory.write s.sec.bytes addr data else s.sec.bytes } ∧ u.fields = s.fields := by
    unfold u
    split <;> exact ⟨rfl, rfl⟩
  obtain ⟨husec, hufields⟩ := hu
  have hv : v = u := if_neg (by simp)
  rw [hv]
  by_cases hdone : 3 ≤ steps
  · simp only [if_pos hdone, SecSt.recorded]
    refine ⟨husec, ?_⟩
    rw [State.recordWrites, State.fld_count_same, State.fld_of_fields hufields]
  · simp only [if_neg hdone, SecSt.recorded]
    refine ⟨?_, ?_⟩
    · show { u.sec with journal := u.sec.journal ++ [e] } = _
      rw [husec]
    · exact (State.fld_setFld_of_code _ _ _ _ _ _ (by decide) (by decide) (by decide)).trans (State.fld_of_fields hufields _ 0)

end Commands

/-! The statement, command by command. -/

/-- Settles O30: each command's meaning where it passes, and the engine's answer to a key check. -/
theorem keysLockAndAudit : Obligations.KeysLockAndAudit := by
  unfold Obligations.KeysLockAndAudit
  intro s c hfn
  have hok : c.ok = true := decide_eq_true hfn
  refine ⟨fun role idx mask key hrole hheeds hlock hidx => ?_, fun idx key hheeds hlock hidx => ?_,
    fun r t0 table idx mask key seq hserved hdue huse hlock htable => ?_, fun role idx hrole hheeds hlock hidx => ?_, fun idx hheeds hlock hidx => ?_,
    fun v hheeds => ⟨fun hv => ?_, fun hv => ?_⟩, fun first hheeds => ?_, fun hheeds => ?_, fun e rest hwaits => ?_, fun addr data steps hfits hlen hroom hunit => ?_⟩
  · have htable : (if role = 4 then 0 else role) = role := if_neg (by rcases hrole with rfl | rfl <;> decide)
    rw [exec_keySet, htable]
    exact State.keySet_asks hheeds hlock hidx
  · have hfirst : s.firstKey c 4 idx = false := by simp [State.firstKey]
    rw [exec_pubkeySet]
    exact State.keySet_asks (table := 4) (by rwa [hfirst]) hlock hidx
  · obtain ⟨-, hfields, hsec, -⟩ := s.engineDone_effect r.code
    have hlocked : (s.engineDone r.code).locked = s.locked := State.flag_of_fld (hfields.fld 0 (by decide))
    obtain ⟨hstored, hleft⟩ := State.keyAnswer_effect (s := s.engineDone r.code) (c := c) (table := table) (idx := idx) (mask := mask) (seq := seq)
      (code := r.code) (key := key) (htable.imp id (Or.imp id id)) (hlocked.trans hlock)
    rw [exec_signatureAnswer, State.signatureAnswer_key hserved hdue huse]
    refine ⟨_, rfl, hstored, fun hcode => ?_⟩
    rw [(hleft hcode).sec, hsec]
    exact ⟨rfl, rfl, rfl⟩
  · have htable : (if role = 4 then 0 else role) = role := if_neg (by rcases hrole with rfl | rfl <;> decide)
    rw [exec_keyRemove, htable]
    exact State.keyRemove_removes hheeds hlock hidx (hrole.imp id .inl)
  · rw [exec_pubkeyRemove]
    exact State.keyRemove_removes (table := 4) hheeds hlock hidx (.inr (.inr rfl))
  · exact State.lockCmd_sets hheeds hv
  · exact State.lockCmd_refused hheeds hv
  · obtain ⟨hanswered, hout, hin⟩ := State.readAudit_effect first hheeds
    exact ⟨_, _, within_next hok, hanswered, hout, hin, rfl⟩
  · obtain ⟨out, hanswered, hout, hsec, hin⟩ := State.readKeys_effect hheeds
    exact ⟨_, out, within_next hok, hanswered, hout, hsec, hin⟩
  · exact ⟨_, exec_auditFlush s, State.auditFlush_effect hwaits⟩
  · obtain ⟨hsec, hcount⟩ := State.recordWrite_effect (addr := addr) (steps := steps) (data := data) hroom hunit
    have hplace : (decide (addr + data.length ≤ 65536 * vaultUnits) && decide (data.length ≤ 256)) = true := by simp [hfits, hlen]
    rw [exec_atomicRecordWrite, within_next hplace]
    exact ⟨_, rfl, by rw [hsec]; rfl, by rw [hsec]; rfl, by rw [hsec]; rfl, hcount⟩

end Sys2Proof.Machine

/-!
PROOFS of the statement on update sessions (15_update_and_roles R474, R476, R482, R496, R497).
-/

namespace Sys2Proof.Machine

/-! What the end of an update command leaves. -/

/-- The fields that the end of an update command shows or counts in. -/
def updFlds : List Fld := [F.UPD_STATUS_RESULT, F.UPD_REFUSECNT, F.VLT_AUDITOVFCNT, F.VLT_AUDIT_SEQ_LO_SEQ, F.VLT_RECWRCNT]

/-- A state that differs by the audit log, windows and what UPD shows of an update command's end. -/
structure State.updates (s t : State) : Prop where
  parts : s.onlyIn t [.fields, .host, .sec]
  fields : s.onlyFields t updFlds
  sec : t.sec = { s.sec with waiting := t.sec.waiting, log := t.sec.log, nextSeq := t.sec.nextSeq }

section Ends
variable {s t u : State} {c : Mgmt}

theorem State.books.updates (h : s.books t) : s.updates t :=
  ⟨h.parts, State.onlyFields_then (State.onlyFields_refl s _) h.fields (by decide), h.sec⟩

theorem State.updates.trans (h : s.updates t) (h' : t.updates u) : s.updates u :=
  ⟨State.onlyIn_trans h.parts h'.parts, State.onlyFields_trans h.fields h'.fields, by rw [h'.sec, h.sec]⟩

theorem State.updates.fld (h : s.updates t) {f : Fld} (i : Nat) (hf : f.code % 1024 ∉ updFlds.map (·.code)) : t.fld f i = s.fld f i := h.fields.fld i hf

theorem State.updates.vfld (h : s.updates t) (f : Fld) (i : Nat) : t.vfld f i = s.vfld f i := State.vfld_of_vfields (h.parts .vfields (by decide)) f i

theorem State.updates.session (h : s.updates t) : t.session = s.session := h.fld 0 (by decide)

theorem State.updates.secSession (h : s.updates t) : t.sec.session = s.sec.session := by rw [h.sec]

theorem State.updates.images (h : s.updates t) : t.sec.images = s.sec.images := by rw [h.sec]

theorem State.updates.activation (h : s.updates t) : t.sec.activation = s.sec.activation := by rw [h.sec]

/-- UPD shows the result, and a refusal of Table 15-3 is counted. -/
def State.updShown (s : State) (result : Nat) (counted : Bool) : State :=
  let s := s.setFld F.UPD_STATUS_RESULT result
  if counted && result ≠ 0 then s.count F.UPD_REFUSECNT else s

theorem State.updEnd_eq (s : State) (c : Mgmt) (seq code result : Nat) (counted : Bool) (detail : Bytes) :
    s.updEnd c seq code result counted detail = (s.updShown result counted).finish c seq code result detail := rfl

theorem State.updShown_effect (s : State) (result : Nat) (counted : Bool) :
    s.updates (s.updShown result counted) ∧ s.onlyIn (s.updShown result counted) [.fields] ∧
      (counted = true → result ≠ 0 → (s.updShown result counted).fld F.UPD_REFUSECNT = min (s.fld F.UPD_REFUSECNT + 1) (2 ^ F.UPD_REFUSECNT.width - 1)) := by
  unfold State.updShown
  extract_lets t
  have htin : s.onlyIn t [.fields] := State.onlyIn_setFld (State.onlyIn_refl s _) (by decide)
  have htfields : s.onlyFields t updFlds := State.onlyFields_setFld (State.onlyFields_refl s _) (by decide)
  have ht : t.fld F.UPD_REFUSECNT = s.fld F.UPD_REFUSECNT := State.fld_setFld_of_code _ _ _ _ _ _ (by decide) (by decide) (by decide)
  split
  · have hin : s.onlyIn (t.count F.UPD_REFUSECNT) [.fields] := State.onlyIn_count htin (by decide)
    exact ⟨⟨State.onlyIn_mono hin (by decide), State.onlyFields_count htfields (by decide), rfl⟩, hin, fun _ _ => by rw [State.fld_count_same, ht]⟩
  · next h => exact ⟨⟨State.onlyIn_mono htin (by decide), htfields, rfl⟩, htin, fun hc hr => absurd (by simp [hc, hr]) h⟩

theorem State.updates_updEnd (s : State) (c : Mgmt) (seq code result : Nat) (counted : Bool) (detail : Bytes) :
    s.updates (s.updEnd c seq code result counted detail) :=
  (s.updShown_effect result counted).1.trans (State.books_finish _ c seq code result detail).updates

theorem State.updEnd_refused (s : State) (c : Mgmt) (seq code : Nat) {result : Nat} (detail : Bytes) (h : result ≠ 0) :
    (s.updEnd c seq code result true detail).fld F.UPD_REFUSECNT = min (s.fld F.UPD_REFUSECNT + 1) (2 ^ F.UPD_REFUSECNT.width - 1) :=
  ((State.books_finish _ c seq code result detail).fld 0 (by decide)).trans ((s.updShown_effect result true).2.2 rfl h)

theorem State.sameRing.updEnd (h : s.sameRing t c.fn) (seq code result : Nat) (counted : Bool) (detail : Bytes) :
    s.responded (t.updEnd c seq code result counted detail) c code result :=
  (h.trans (State.sameRing_of_onlyIn (t.updShown_effect result counted).2.1 (by decide) c.fn)).finish ..

/-! Sessions and slots. -/

theorem State.onlyIn_setSession (s : State) (x : Option Session) (v : Nat) : s.onlyIn (s.setSession x v) [.fields, .sec] :=
  State.onlyIn_setFld (State.onlyIn_mono (s.onlyIn_onSec _) (by decide)) (by decide)

theorem State.session_setSession (s : State) (x : Option Session) {v : Nat} (hv : v < 16) : (s.setSession x v).session = v :=
  (State.fld_setFld_same ..).trans (Nat.mod_eq_of_lt hv)

theorem State.session_engineAsk (s : State) (r : SigReq) : (s.engineAsk r).session = s.session := (s.onlyFields_setEngine _).fld 0 (by decide)

theorem State.slotFld_code (cls : Nat) : (slotFld cls).code < 1024 ∧ (slotFld cls).width = 4 := by
  unfold slotFld
  split <;> decide

theorem State.slotState_setBoth (s : State) (slot cls v : Nat) (hv : v < 16) : (s.setBoth (slotFld cls) v slot).slotState slot cls = v := by
  have hwidth := (State.slotFld_code cls).2
  rw [State.slotState, State.vfld_setBoth_same, hwidth]
  exact Nat.mod_eq_of_lt hv

theorem State.onlyIn_setComponent (s : State) (slot cls st version format : Nat) (img : Option FwImage) :
    s.onlyIn (s.setComponent slot cls st version format img) [.fields, .vfields, .sec] := by
  unfold State.setComponent
  extract_lets t u
  have ht : s.onlyIn t [.fields, .vfields, .sec] :=
    State.onlyIn_setBoth (State.onlyIn_setBoth (State.onlyIn_refl s _) (by decide) (by decide)) (by decide) (by decide)
  have hu : s.onlyIn u [.fields, .vfields, .sec] := by
    unfold u
    split
    · exact State.onlyIn_setBoth ht (by decide) (by decide)
    · exact ht
  exact State.onlyIn_count (State.onlyIn_then hu (u.onlyIn_onSec _) (by decide)) (by decide)

/-- A slot's component as it is written. -/
theorem State.setComponent_effect (s : State) (slot cls version format : Nat) {st : Nat} (img : FwImage) (hst : st < 16) :
    (s.setComponent slot cls st version format (some img)).slotState slot cls = st ∧
      (s.setComponent slot cls st version format (some img)).image slot cls = some img := by
  unfold State.setComponent
  extract_lets t u
  have ht : t.slotState slot cls = st := by
    have hcodes : (versionFld cls).code < 1024 ∧ (slotFld cls).code ≠ (versionFld cls).code := by
      unfold versionFld slotFld
      split <;> decide
    exact (State.vfld_setBoth_of_code _ _ _ _ _ _ hcodes.1 (State.slotFld_code cls).1 hcodes.2).trans (s.slotState_setBoth slot cls st hst)
  have hu : u.slotState slot cls = st := by
    unfold u
    split
    · have hcode : (slotFld cls).code ≠ F.UPD_SLOT_STATE_CFG_FORMAT.code := by
        unfold slotFld
        split <;> decide
      exact (State.vfld_setBoth_of_code _ _ _ _ _ _ (by decide) (State.slotFld_code cls).1 hcode).trans ht
    · exact ht
  exact ⟨hu, SMap.find?_put_same ..⟩

/-! What bars an update does not look at the audit log and the windows. -/

theorem State.books.updateBars (h : s.books t) : t.updateBars = s.updateBars := by
  have hwgt : t.wgt = s.wgt := h.parts .wgt (by decide)
  have hfilling (g : Nat) : t.halfFilling g = s.halfFilling g := by
    have hrow (l : Nat) : t.rowState g l = s.rowState g l := h.fld _ (by decide)
    simp only [State.halfFilling, hrow]
  have hwarn : t.flag F.PWR_STATUS_WARN = s.flag F.PWR_STATUS_WARN := h.flag 0 (by decide)
  unfold State.updateBars State.relayActive
  rw [h.locked, hwarn, hwgt, hfilling, hfilling, h.session]

theorem State.books.beginBars (h : s.books t) (slot : Nat) (hdr : Bytes) : t.beginBars slot hdr = s.beginBars slot hdr := by
  have hconfirmed : t.confirmed = s.confirmed := h.vfld ..
  have hrunning : t.running = s.running := h.vfld ..
  simp only [State.beginBars, h.updateBars, hconfirmed, hrunning]

theorem State.books.mySession (h : s.books t) (fn : Nat) : t.mySession fn = s.mySession fn := by
  have hsession : t.sec.session = s.sec.session := by rw [h.sec]
  simp only [State.mySession, hsession, h.session]

end Ends

/-! UPDATE_BEGIN (R474). -/

section Begin
variable {s : State} {c : Mgmt} {slot : Nat} {h : Bytes}

/-- A bar of Table 15-3: the command is refused so. -/
theorem State.updateBegin_barred {code : Nat} (hheeds : s.heeds c (partCmd 0x0110 roleIns (c.len == 512) true)) (hbar : s.beginBars slot h = some code) :
    ∃ t, within c.ok (s.updateBegin c slot h) = .next t ∧ s.responded t c 0x0110 code ∧ t.sec.session = s.sec.session ∧
      (code ≠ 0 → t.fld F.UPD_REFUSECNT = min (s.fld F.UPD_REFUSECNT + 1) (2 ^ F.UPD_REFUSECNT.width - 1)) := by
  have hbooks := s.books_vaultBegun c 0x0110 slot []
  refine ⟨(s.vaultBegun c 0x0110 slot).updEnd c s.sec.nextSeq 0x0110 code true, ?_, (s.sameRing_vaultBegun c 0x0110 slot []).updEnd .., ?_, fun hcode => ?_⟩
  · rw [State.updateBegin, hheeds.vault (code := 0x0110) rfl slot [], hbooks.beginBars, hbar]
  · rw [(State.updates_updEnd _ c s.sec.nextSeq 0x0110 code true []).secSession, hbooks.sec]
  · rw [State.updEnd_refused _ c _ _ [] hcode, hbooks.fld 0 (by decide)]

/-- An accepted UPDATE_BEGIN opens the session and marks the component it replaces as WRITING. -/
theorem State.beginAccept_effect {t : State} (seq : Nat) (hring : s.sameRing t c.fn) :
    s.responded (t.beginAccept c seq slot h) c 0x0110 0 ∧ (t.beginAccept c seq slot h).session = 2 ∧
      (t.beginAccept c seq slot h).slotState slot (imgClass h) = 1 ∧
      (t.beginAccept c seq slot h).sec.session = some { fn := c.fn, slot := slot, cls := imgClass h, header := h, body := [], seq := seq } := by
  unfold State.beginAccept
  extract_lets cls other from_ u v w
  have hu : s.sameRing u c.fn := hring.trans (State.sameRing_of_onlyIn (State.onlyIn_setComponent _ _ _ _ _ _ _) (by decide) c.fn)
  have hv : s.sameRing v c.fn := hu.trans (State.sameRing_of_onlyIn (ps := [.fields, .vfields])
    (State.onlyIn_count (State.onlyIn_setBoth (State.onlyIn_refl u _) (by decide) (by decide)) (by decide)) (by decide) c.fn)
  have hw : s.sameRing w c.fn := hv.trans (State.sameRing_of_onlyIn (v.onlyIn_setSession _ _) (by decide) c.fn)
  have hends := State.updates_updEnd w c seq 0x0110 0 true []
  have hstate : w.slotState slot cls = 1 :=
    (State.vfld_of_vfields (s := u.setBoth (slotFld cls) 1 slot) (t := w) rfl _ _).trans (u.slotState_setBoth slot cls 1 (by decide))
  refine ⟨hw.updEnd .., hends.session.trans (State.session_setSession _ _ (by decide)), (hends.vfld ..).trans hstate, hends.secSession⟩

theorem State.updateBegin_boot (hheeds : s.heeds c (partCmd 0x0110 roleIns (c.len == 512) true)) (hbar : s.beginBars slot h = none) (hcls : imgClass h = 1) :
    ∃ t, within c.ok (s.updateBegin c slot h) = .next t ∧ s.responded t c 0x0110 0 ∧ t.session = 2 ∧ t.slotState slot 1 = 1 ∧
      t.sec.session = some { fn := c.fn, slot := slot, cls := 1, header := h, body := [], seq := s.sec.nextSeq } := by
  have hbooks := s.books_vaultBegun c 0x0110 slot []
  have haccept := State.beginAccept_effect (slot := slot) (h := h) s.sec.nextSeq (s.sameRing_vaultBegun c 0x0110 slot [])
  rw [hcls] at haccept
  refine ⟨_, ?_, haccept⟩
  rw [State.updateBegin, hheeds.vault (code := 0x0110) rfl slot [], hbooks.beginBars, hbar]
  exact congrArg _ (if_pos hcls)

theorem State.updateBegin_runtime {k : Bytes} (hheeds : s.heeds c (partCmd 0x0110 roleIns (c.len == 512) true)) (hbar : s.beginBars slot h = none)
    (hcls : imgClass h ≠ 1) (hkey : imgKey h = some k) : ∃ t, within c.ok (s.updateBegin c slot h) = .next t ∧ t.session = 1 ∧
      t.sec.session = some { fn := c.fn, slot := slot, cls := 2, header := h, body := [], seq := s.sec.nextSeq } ∧ t.sec.images = s.sec.images := by
  have hbooks := s.books_vaultBegun c 0x0110 slot []
  generalize hbegun : s.vaultBegun c 0x0110 slot = t at hbooks
  refine ⟨(t.setSession (some { fn := c.fn, slot := slot, cls := 2, header := h, body := [], seq := s.sec.nextSeq }) 1).engineAsk
    (imgRequest (.update c slot h s.sec.nextSeq) k h), ?_, ?_, rfl, ?_⟩
  · rw [State.updateBegin, hheeds.vault (code := 0x0110) rfl slot [], hbegun, hbooks.beginBars, hbar, hkey]
    exact congrArg _ (if_neg hcls)
  · exact (State.session_engineAsk _ _).trans (t.session_setSession _ (by decide))
  · show t.sec.images = s.sec.images
    rw [hbooks.sec]

end Begin

/-! UPDATE_DATA, UPDATE_END, UPDATE_ABORT (R474), SESSION_ABORTED (R476). -/

section Session
variable {s : State} {c : Mgmt} {x : Session}

theorem State.updateData_taken {off : Nat} {data : Bytes} (hheeds : s.heeds c (partCmd 0x0111 roleIns (decide (c.len ≤ 1048576)) true))
    (hmine : s.mySession c.fn = some x) (hoff : off = x.body.length) :
    ∃ t, within c.ok (s.updateData c off data) = .next t ∧ s.responded t c 0x0111 0 ∧ t.sec.session = some { x with body := x.body ++ data } := by
  have hbooks := s.books_vaultBegun c 0x0111 off []
  have hring := (s.sameRing_vaultBegun c 0x0111 off []).trans (State.sameRing_of_onlyIn
    ((s.vaultBegun c 0x0111 off []).onlyIn_setSession (some { x with body := x.body ++ data }) 2) (by decide) c.fn)
  refine ⟨_, ?_, hring.updEnd s.sec.nextSeq 0x0111 0 false [], (State.updates_updEnd _ c s.sec.nextSeq 0x0111 0 false []).secSession⟩
  rw [State.updateData, hheeds.vault (code := 0x0111) rfl off [], hbooks.mySession, hmine]
  exact congrArg _ (if_neg (not_not.2 hoff))

theorem State.updateData_refused {off : Nat} {data : Bytes} (hheeds : s.heeds c (partCmd 0x0111 roleIns (decide (c.len ≤ 1048576)) true))
    (hmine : s.mySession c.fn = some x) (hoff : off ≠ x.body.length) :
    ∃ t, within c.ok (s.updateData c off data) = .next t ∧ s.responded t c 0x0111 0x10 ∧ t.sec.session = s.sec.session := by
  have hbooks := s.books_vaultBegun c 0x0111 off []
  refine ⟨_, ?_, (s.sameRing_vaultBegun c 0x0111 off []).updEnd s.sec.nextSeq 0x0111 0x10 false [], ?_⟩
  · rw [State.updateData, hheeds.vault (code := 0x0111) rfl off [], hbooks.mySession, hmine]
    exact congrArg _ (if_pos hoff)
  · rw [(State.updates_updEnd _ c s.sec.nextSeq 0x0111 0x10 false []).secSession, hbooks.sec]

/-- UPDATE_END with a whole body whose hashes are right stores the image. -/
theorem State.updateEnd_stores (hheeds : s.heeds c (partCmd 0x0112 roleIns)) (hmine : s.mySession c.fn = some x)
    (hlen : x.body.length = imgBodyLen x.header) (hhashes : x.cls = 2 → imgHashesOk x.header x.body = true) :
    ∃ t, within c.ok (s.updateEnd c) = .next t ∧ s.responded t c 0x0112 0 ∧ t.sec.session = none ∧ t.session = 0 ∧ t.slotState x.slot x.cls = 2 ∧
      t.image x.slot x.cls = some ⟨x.header, x.body⟩ := by
  have hbooks := s.books_vaultBegun c 0x0112 0 []
  have hring := s.sameRing_vaultBegun c 0x0112 0 []
  generalize hbegun : s.vaultBegun c 0x0112 0 = t at hbooks hring
  have hstored := t.setComponent_effect x.slot x.cls (imgVersion x.header) (imgFormat x.header) (st := 2) ⟨x.header, x.body⟩ (by decide)
  have hstoredIn := t.onlyIn_setComponent x.slot x.cls 2 (imgVersion x.header) (imgFormat x.header) (some ⟨x.header, x.body⟩)
  have heq : within c.ok (s.updateEnd c) = .next (((t.setComponent x.slot x.cls 2 (imgVersion x.header) (imgFormat x.header) (some ⟨x.header, x.body⟩)).setSession
      none 0).updEnd c s.sec.nextSeq 0x0112 0 false) := by
    rw [State.updateEnd, hheeds.vault (code := 0x0112) rfl 0 [], hbegun, hbooks.mySession, hmine]
    refine congrArg _ ((if_neg (by omega)).trans (if_neg ?_))
    simpa [hlen] using hhashes
  generalize t.setComponent x.slot x.cls 2 (imgVersion x.header) (imgFormat x.header) (some ⟨x.header, x.body⟩) = u at hstored hstoredIn heq
  have hended := State.updates_updEnd (u.setSession none 0) c s.sec.nextSeq 0x0112 0 false []
  have hring' := (hring.trans (State.sameRing_of_onlyIn hstoredIn (by decide) c.fn)).trans (State.sameRing_of_onlyIn (u.onlyIn_setSession none 0) (by decide) c.fn)
  refine ⟨_, heq, hring'.updEnd .., hended.secSession, hended.session.trans (State.session_setSession _ _ (by decide)), (hended.vfld ..).trans hstored.1, ?_⟩
  rw [State.image, hended.images]
  exact hstored.2

theorem State.updateAbort_ends (hheeds : s.heeds c (partCmd 0x0113 roleIns)) (hmine : s.mySession c.fn = some x) :
    ∃ t, within c.ok (s.updateAbort c) = .next t ∧ s.responded t c 0x0113 0 ∧ t.sec.session = none ∧ t.session = 0 ∧ t.sec.images = s.sec.images := by
  have hbooks := s.books_vaultBegun c 0x0113 0 []
  have hring := s.sameRing_vaultBegun c 0x0113 0 []
  generalize hbegun : s.vaultBegun c 0x0113 0 = t at hbooks hring
  have hended := State.updates_updEnd (t.setSession none 0) c s.sec.nextSeq 0x0113 0 false []
  refine ⟨_, ?_, (hring.trans (State.sameRing_of_onlyIn (t.onlyIn_setSession none 0) (by decide) c.fn)).updEnd s.sec.nextSeq 0x0113 0 false [],
    hended.secSession, hended.session.trans (State.session_setSession _ _ (by decide)), hended.images.trans ?_⟩
  · rw [State.updateAbort, hheeds.vault (code := 0x0113) rfl 0 [], hbegun, hbooks.mySession, hmine]
  · show t.sec.images = s.sec.images
    rw [hbooks.sec]

theorem State.abortDue_aborts (hcause : s.flag F.PWR_STATUS_WARN = true ∨ s.wgt.st ≠ 0) (hopen : s.session = 1 ∨ s.session = 2) (hnone : s.sec.activation = none) :
    s.abortDue.sec.session = none ∧ s.abortDue.session = 0 ∧
      s.abortDue.fld F.UPD_ABORTCNT = min (s.fld F.UPD_ABORTCNT + 1) (2 ^ F.UPD_ABORTCNT.width - 1) ∧ s.abortDue.sec.images = s.sec.images := by
  have heq : s.abortDue = (((s.count F.UPD_ABORTCNT).setFld F.UPD_STATUS_RESULT codeAborted).onSec fun x => { x with session := none }).setFld
      F.UPD_STATUS_SESSION 0 := by
    have hnone' : ((s.count F.UPD_ABORTCNT).setFld F.UPD_STATUS_RESULT codeAborted).sec.activation = none := hnone
    rw [State.abortDue, if_pos (by simpa using hcause), State.sessionAbort, if_neg (by rcases hopen with h | h <;> simp [h])]
    simp only [hnone']
  have hcount : s.abortDue.fld F.UPD_ABORTCNT = min (s.fld F.UPD_ABORTCNT + 1) (2 ^ F.UPD_ABORTCNT.width - 1) := by
    rw [heq, State.fld_setFld_of_code _ _ _ _ _ _ (by decide) (by decide) (by decide)]
    exact (State.fld_setFld_of_code _ _ _ _ _ _ (by decide) (by decide) (by decide)).trans (State.fld_count_same ..)
  refine ⟨by rw [heq]; rfl, ?_, hcount, by rw [heq]; rfl⟩
  rw [heq]
  exact State.fld_setFld_same ..

end Session

/-! CONFIRM and READ_UPDATE (R482, R497). -/

section Confirm
variable {s : State} {c : Mgmt} {slot : Nat}

/-- The confirmed slot, in the vault and in the register, whatever SVN and format follow from it. -/
structure State.confirms (t : State) (slot : Nat) : Prop where
  vault : t.confirmed = slot
  shown : t.fld F.UPD_STATUS_CONFIRMED = slot

theorem State.confirms.setBoth {t : State} (h : t.confirms slot) (f : Fld) (v i : Nat) (hf : f.code < 1024) (hother : F.UPD_STATUS_CONFIRMED.code ≠ f.code) :
    (t.setBoth f v i).confirms slot :=
  ⟨(State.vfld_setBoth_of_code _ _ _ _ _ _ hf (by decide) hother).trans h.vault,
    (State.fld_setBoth_of_code _ _ _ _ _ _ hf (by decide) hother).trans h.shown⟩

theorem State.confirms.later {t u : State} (h : t.confirms slot) (hu : t.updates u) : u.confirms slot :=
  ⟨(hu.vfld ..).trans h.vault, (hu.fld 0 (by decide)).trans h.shown⟩

theorem State.confirm_confirms (hheeds : s.heeds c (partCmd 0x0115 roleIns)) (hslot : slot ≤ 1) (hruntime : s.slotState slot 2 = 2)
    (hboot : s.slotState slot 1 = 2 ∨ s.slotState slot 1 = 3) (hnew : slot ≠ s.confirmed) (hwarn : s.flag F.PWR_STATUS_WARN = false) :
    ∃ t, within c.ok (s.confirm c slot) = .next t ∧ s.responded t c 0x0115 0 ∧ t.confirmed = slot ∧ t.fld F.UPD_STATUS_CONFIRMED = slot := by
  have hbooks := s.books_vaultBegun c 0x0115 slot []
  have hring := s.sameRing_vaultBegun c 0x0115 slot []
  rw [State.confirm, hheeds.vault (code := 0x0115) rfl slot []]
  generalize s.vaultBegun c 0x0115 slot = b at hbooks hring
  extract_lets boot t u svn v w
  have hstate (cls : Nat) : b.slotState slot cls = s.slotState slot cls := hbooks.vfld ..
  have hconfirmed : b.confirmed = s.confirmed := hbooks.vfld ..
  have hrefused : ¬(decide (1 < slot) || decide (b.slotState slot 2 ≠ 2) || (decide (boot ≠ 2) && decide (boot ≠ 3)) || decide (slot = b.confirmed)) = true := by
    simp only [boot, hstate, hconfirmed, hruntime, hnew]
    rcases hboot with h | h <;> simp [h] <;> omega
  rw [if_neg hrefused, if_neg (by rw [hbooks.flag 0 (by decide), hwarn]; decide)]
  have hu : u.confirms slot := by
    have hwidth : slot % 2 ^ F.UPD_STATUS_CONFIRMED.width = slot := Nat.mod_eq_of_lt (Nat.lt_succ_of_le hslot)
    have hset : (t.setBoth F.UPD_STATUS_CONFIRMED slot).confirms slot := ⟨(State.vfld_setBoth_same ..).trans hwidth, (State.fld_setBoth_same ..).trans hwidth⟩
    exact hset.later (State.books_recordWrites _ 1).updates
  have huin : b.onlyIn u [.fields, .vfields, .sec] :=
    State.onlyIn_count (State.onlyIn_setBoth (State.onlyIn_mono (b.onlyIn_onSec _) (by decide)) (by decide) (by decide)) (by decide)
  have hv : v.confirms slot ∧ b.onlyIn v [.fields, .vfields, .sec] := by
    unfold v
    split
    · exact ⟨(hu.setBoth F.UPD_SVN_MIN_SVN svn 0 (by decide) (by decide)).later (State.books_recordWrites _ 1).updates,
        State.onlyIn_count (State.onlyIn_setBoth huin (by decide) (by decide)) (by decide)⟩
    · exact ⟨hu, huin⟩
  have hw : w.confirms slot ∧ b.onlyIn w [.fields, .vfields, .sec] := by
    unfold w
    split
    · exact ⟨State.confirms.setBoth (t := v.onSec _) ⟨hv.1.vault, hv.1.shown⟩ F.UPD_STATUS_FMT_DUAL 0 0 (by decide) (by decide),
        State.onlyIn_setBoth (State.onlyIn_then hv.2 (v.onlyIn_onSec _) (by decide)) (by decide) (by decide)⟩
    · exact hv
  have hend := hw.1.later (State.updates_updEnd w c s.sec.nextSeq 0x0115 0 false [])
  exact ⟨_, rfl, (hring.trans (State.sameRing_of_onlyIn hw.2 (by decide) c.fn)).updEnd .., hend.vault, hend.shown⟩

theorem State.readUpdate_effect (hheeds : s.heeds c (partCmd 0x0116 roleOpr)) : ∃ t, within c.ok (s.readUpdate c) = .next t ∧ s.responded t c 0x0116 0 ∧
    s.onlyIn t [.host, .sec] ∧ t.sec = { s.sec with waiting := t.sec.waiting } := by
  rw [State.readUpdate, hheeds.within]
  extract_lets d
  obtain ⟨hanswered, hin⟩ := s.answered_alone c 0x0116 0 0 (d 0 ++ d 1 ++ toLe 4 (s.take c.fn).confirmed)
  exact ⟨_, rfl, hanswered, hin, State.answer_sec ..⟩

end Confirm

/-! The statement, command by command. -/

/-- Settles O31: each command's meaning where it passes and where Table 15-3 bars it, and what the engine counts for the boot ROM. -/
theorem updatesWriteSlots : Obligations.UpdatesWriteSlots := by
  unfold Obligations.UpdatesWriteSlots
  intro s c
  refine ⟨fun slot h hheeds => ⟨fun code hbar => State.updateBegin_barred hheeds hbar, fun hbar hcls => State.updateBegin_boot hheeds hbar hcls,
      fun k hbar hcls hkey => State.updateBegin_runtime hheeds hbar hcls hkey⟩,
    fun off data hheeds => ⟨fun x hmine hoff => State.updateData_taken hheeds hmine hoff, fun x hmine hoff => State.updateData_refused hheeds hmine hoff⟩,
    fun x hheeds hmine hlen hhashes => State.updateEnd_stores hheeds hmine hlen hhashes, fun x hheeds hmine => State.updateAbort_ends hheeds hmine,
    fun hcause hopen hnone => ⟨_, exec_sessionAborted s, State.abortDue_aborts hcause hopen hnone⟩,
    fun slot hheeds hslot hruntime hboot hnew hwarn => State.confirm_confirms hheeds hslot hruntime hboot hnew hwarn,
    fun hheeds => State.readUpdate_effect hheeds, fun key digest sig => exec_signatureRequest .., fun r t0 n hserved hdue huse => ?_⟩
  have heq : s.signatureAnswer = s.engineDone r.code := by simp [State.signatureAnswer, State.engineAnswer_due hserved hdue, huse]
  obtain ⟨-, -, -, hverify, hlast, hreject⟩ := s.engineDone_effect r.code
  rw [exec_signatureAnswer, heq]
  exact ⟨_, rfl, hverify, hlast, hreject⟩

end Sys2Proof.Machine

/-!
PROOFS of the statement on activations (15_update_and_roles R477 to R480).
-/

namespace Sys2Proof.Machine

/-! How an activation begins and ends. -/

section Ends
variable {s t : State}

theorem State.onlyIn_setActivation (s : State) (a : Option Activation) (v : Nat) : s.onlyIn (s.setActivation a v) [.fields, .sec] :=
  State.onlyIn_setFld (State.onlyIn_mono (s.onlyIn_onSec _) (by decide)) (by decide)

theorem State.session_setActivation (s : State) (a : Option Activation) {v : Nat} (hv : v < 16) : (s.setActivation a v).session = v :=
  (State.fld_setFld_same ..).trans (Nat.mod_eq_of_lt hv)

/-- An activation that ends is answered with its result, whatever slot runs. -/
theorem State.activationEnd_effect (a : Activation) (result : Nat) (hring : s.sameRing t a.cmd.fn) :
    (t.activationEnd a result).session = 0 ∧ (t.activationEnd a result).sec.activation = none ∧ (t.activationEnd a result).running = t.running ∧
      s.responded (t.activationEnd a result) a.cmd 0x0114 result := by
  have hended := State.updates_updEnd (t.setActivation none 0) a.cmd a.seq 0x0114 result false []
  have hring' := hring.trans (State.sameRing_of_onlyIn (t.onlyIn_setActivation none 0) (by decide) a.cmd.fn)
  exact ⟨hended.session.trans (t.session_setActivation _ (by decide)), hended.activation, hended.vfld .., hring'.updEnd ..⟩

/-- The state in which the new image's slot is the running one, before the activation ends. -/
def State.slotRuns (s : State) (a : Activation) : State :=
  let s := (s.setBoth F.UPD_STATUS_RUNNING a.slot).count F.UPD_ACTCNT
  let s := [0, 1].foldl (fun (s : State) h => s.setBoth F.RGR_STATUS_SLOT a.slot h) s
  if s.formatOf a.slot = s.formatOf s.confirmed then s
  else (s.onSec fun x => { x with converting := some s.now, formatHeld := some (s.formatOf s.confirmed) }).setBoth F.UPD_STATUS_FMT_DUAL 1

theorem State.activated_eq (s : State) (a : Activation) : s.activated a = (s.slotRuns a).activationEnd a 0 := rfl

theorem State.slotRuns_effect (s : State) {a : Activation} (hslot : a.slot ≤ 1) :
    (s.slotRuns a).running = a.slot ∧ s.onlyIn (s.slotRuns a) [.fields, .vfields, .sec] := by
  have hset : (s.setBoth F.UPD_STATUS_RUNNING a.slot).running = a.slot :=
    (State.vfld_setBoth_same ..).trans (Nat.mod_eq_of_lt (Nat.lt_succ_of_le hslot))
  have hshown (t : State) (h : Nat) : (t.setBoth F.RGR_STATUS_SLOT a.slot h).running = t.running :=
    State.vfld_setBoth_of_code _ _ _ _ _ _ (by decide) (by decide) (by decide)
  unfold State.slotRuns
  extract_lets t u
  have ht : t.running = a.slot ∧ s.onlyIn t [.fields, .vfields, .sec] :=
    ⟨hset, State.onlyIn_count (State.onlyIn_setBoth (State.onlyIn_refl s _) (by decide) (by decide)) (by decide)⟩
  have hu : u.running = a.slot ∧ s.onlyIn u [.fields, .vfields, .sec] :=
    ⟨(hshown _ 1).trans ((hshown t 0).trans ht.1), State.onlyIn_trans ht.2 (State.onlyIn_foldl
      (fun v _ => State.onlyIn_setBoth (State.onlyIn_refl v _) (by decide) (by decide)) [0, 1] t)⟩
  split
  · exact hu
  · exact ⟨(State.vfld_setBoth_of_code _ _ _ _ _ _ (by decide) (by decide) (by decide)).trans hu.1,
      State.onlyIn_setBoth (State.onlyIn_then hu.2 (u.onlyIn_onSec _) (by decide)) (by decide) (by decide)⟩

/-- The new image runs: the activation ends with 0 and its slot is the running one. -/
theorem State.activated_effect {a : Activation} (hslot : a.slot ≤ 1) (hring : s.sameRing t a.cmd.fn) :
    (t.activated a).session = 0 ∧ (t.activated a).sec.activation = none ∧ (t.activated a).running = a.slot ∧ s.responded (t.activated a) a.cmd 0x0114 0 := by
  obtain ⟨hrunning, hin⟩ := t.slotRuns_effect hslot
  rw [State.activated_eq]
  obtain ⟨hsession, hnone, hkept, hanswered⟩ :=
    State.activationEnd_effect a 0 (hring.trans (State.sameRing_of_onlyIn hin (by decide) a.cmd.fn))
  exact ⟨hsession, hnone, hkept.trans hrunning, hanswered⟩

/-- The Ranger cores that start anew set their watchdogs alone. -/
theorem State.onlyIn_restartCores (s : State) : s.onlyIn s.restartCores [.irq] := by
  unfold State.restartCores
  refine State.onlyIn_trans (s.onlyIn_irq { s.irq with refreshed := some s.now }) (State.onlyIn_foldl (fun t k => ?_) _ _)
  split
  · exact t.onlyIn_irq _
  · exact State.onlyIn_refl t _

end Ends

/-! ACTIVATE (R477). -/

section Activate
variable {s t : State} {c : Mgmt} {slot : Nat}

theorem State.books.needsPause (h : s.books t) : t.needsPause = s.needsPause := by
  have hframe : t.frame = s.frame := h.parts .frame (by decide)
  have hmgr : t.mgr = s.mgr := h.parts .mgr (by decide)
  have hdiag : t.flag F.SEC_LOCK_DIAG = s.flag F.SEC_LOCK_DIAG := h.flag 0 (by decide)
  rw [State.needsPause, hframe, hmgr, hdiag]
  rfl

theorem State.books.activateBars (h : s.books t) (slot : Nat) : t.activateBars slot = s.activateBars slot := by
  have hformat (k : Nat) : t.formatOf k = s.formatOf k := h.vfld ..
  have hstate (k cls : Nat) : t.slotState k cls = s.slotState k cls := h.vfld ..
  have hconfirmed : t.confirmed = s.confirmed := h.vfld ..
  have hrunning : t.running = s.running := h.vfld ..
  have htnom : t.tNomUs = s.tNomUs := by rw [State.tNomUs, h.parts .frame (by decide)]; rfl
  unfold State.activateBars
  simp only [h.updateBars, hformat, hstate, hconfirmed, hrunning, h.needsPause, htnom]

theorem State.activate_barred {code frame : Nat} (hheeds : s.heeds c (partCmd 0x0114 roleIns)) (hbar : s.activateBars slot = some code) :
    ∃ t, within c.ok (s.activate c slot frame) = .next t ∧ s.responded t c 0x0114 code ∧ t.sec.activation = s.sec.activation := by
  have hbooks := s.books_vaultBegun c 0x0114 slot []
  refine ⟨_, ?_, (s.sameRing_vaultBegun c 0x0114 slot []).updEnd s.sec.nextSeq 0x0114 code true [], ?_⟩
  · rw [State.activate, hheeds.vault (code := 0x0114) rfl slot [], hbooks.activateBars, hbar]
  · rw [(State.updates_updEnd _ c s.sec.nextSeq 0x0114 code true []).activation, hbooks.sec]

/-- The frame whose ready point is awaited, in the words of R477. -/
theorem State.pauseFrame_eq (s : State) (frame : Nat) : s.pauseFrame frame = max frame (s.frame.number + s.frame.readyPoint.toNat) := by
  unfold State.pauseFrame
  cases s.frame.readyPoint <;> rfl

theorem State.activate_pends {frame : Nat} (hheeds : s.heeds c (partCmd 0x0114 roleIns)) (hbar : s.activateBars slot = none) :
    ∃ t, within c.ok (s.activate c slot frame) = .next t ∧ (t.win c.fn).busy = true ∧ t.session = (if s.needsPause then 3 else 5) ∧
      t.sec.activation = some { cmd := c, slot := slot, frame := max frame (s.frame.number + s.frame.readyPoint.toNat),
                                began := if s.needsPause then none else some s.now, seq := s.sec.nextSeq } := by
  have hbooks := s.books_vaultBegun c 0x0114 slot []
  have hbusy : ((s.vaultBegun c 0x0114 slot).win c.fn).busy = true := by
    have hwin : (s.vaultBegun c 0x0114 slot).win c.fn = (s.take c.fn).win c.fn :=
      State.win_of_host ((State.auditWrite_effect _ _).1 .host (by decide)) c.fn
    rw [hwin, State.take, State.win_setWin_same]
  generalize hbegun : s.vaultBegun c 0x0114 slot = t at hbooks hbusy
  have hframe : t.pauseFrame frame = max frame (s.frame.number + s.frame.readyPoint.toNat) := by
    rw [State.pauseFrame_eq, hbooks.parts .frame (by decide)]
  refine ⟨t.setActivation (some { cmd := c, slot := slot, frame := max frame (s.frame.number + s.frame.readyPoint.toNat),
                                      began := if s.needsPause then none else some s.now, seq := s.sec.nextSeq }) (if s.needsPause then 3 else 5), ?_, hbusy, ?_, rfl⟩
  · rw [State.activate, hheeds.vault (code := 0x0114) rfl slot [], hbegun, hbooks.activateBars, hbar]
    simp only [hbooks.needsPause, hframe, hbooks.now]
  · exact t.session_setActivation _ (by split <;> decide)

end Activate

/-! The pause, its two ends, and the handover (R478 to R480). -/

section Pause
variable {s : State} {a : Activation}

/-- Whether the image that an activation is to run meets its hashes. -/
def State.imageMeets (s : State) (a : Activation) : Bool :=
  match s.image a.slot 2 with
  | some i => imgHashesOk i.header i.body
  | none => true

/-- ACTIVATION_PAUSE of an activation held, with all that it waits for. -/
theorem State.activationPause_due (staged : Bool) (hact : s.sec.activation = some a) (hheld : s.session = 3) (hruns : s.frame.st = .running)
    (hready : s.frame.readyPoint = true) (hframe : a.frame ≤ s.frame.number) (hreplay : s.replayPending = false) (hnotices : s.noticesSent = true)
    (hleader : s.holder ≠ 0) : s.activationPause staged =
      if (staged && s.imageMeets a) = true then s.setActivation (some { a with began := some s.now }) 4 else s.activationEnd a 0x0B := by
  unfold State.activationPause
  rw [hact]
  simp only [hheld]
  exact if_neg (by simp [hruns, hready, hreplay, hnotices, hleader, Nat.not_lt.2 hframe])

theorem State.imageMeets_of (hgood : ∀ i, s.image a.slot 2 = some i → imgHashesOk i.header i.body = true) : s.imageMeets a = true := by
  unfold State.imageMeets
  split
  · next i h => exact hgood i h
  · rfl

/-- The new image's report in the pause. -/
theorem State.activationPause_reported {b : Nat} (staged : Bool) (hact : s.sec.activation = some a) (hpause : s.session = 4) (hbegan : a.began = some b)
    (hearly : s.now < b + 1200000) : s.activationPause staged = s.restartCores.activated a := by
  unfold State.activationPause
  rw [hact]
  simp only [hpause, hbegan, if_pos hearly]

theorem State.startFailed_late {b : Nat} (hact : s.sec.activation = some a) (hpause : s.session = 4) (hbegan : a.began = some b)
    (hlate : b + 1200000 ≤ s.now) : s.startFailed = s.restartCores.activationEnd a 0x0E := by
  unfold State.startFailed
  rw [hact]
  simp only [hpause, hbegan, if_pos hlate]

/-- A complex is reloaded: its cores run, their watchdogs anew. -/
def State.complexUp (s : State) (h : Nat) : State := (halfCores h).foldl (fun (s : State) k => (s.setRcore k 0).setTick k) s

theorem State.onlyIn_complexUp (s : State) (h : Nat) : s.onlyIn (s.complexUp h) [.fields, .irq] :=
  State.onlyIn_foldl (fun t k => State.onlyIn_then (State.onlyIn_mono (t.onlyIn_setRcore k 0) (by decide)) (State.onlyIn_irq _ _) (by decide)) _ s

/-- Leadership claimed leaves the response rings. -/
theorem State.sameRing_claimLead (s : State) {h : Nat} (hh : h < 2) (fn : Nat) : s.sameRing (s.claimLead h) fn := by
  by_cases hno : s.holder ≠ 0 ∨ s.halfUp h = false
  · rw [State.claimLead_refused hno]
    exact .refl s fn
  · obtain ⟨hfree, hup⟩ : s.holder = 0 ∧ s.halfUp h = true := by simpa using hno
    obtain ⟨-, -, -, -, -, htaken⟩ := s.leadTaken_effect hh
    obtain ⟨-, -, hbegun⟩ := (s.leadTaken h).leadBegun_effect h ((s.epoch + 1) % 2 ^ 32)
    rw [State.claimLead_granted hfree hup]
    exact ((State.sameRing_of_onlyIn htaken (by decide) fn).trans (State.sameRing_of_onlyIn hbegun (by decide) fn)).trans (State.sameRing_postTo ..)

/-- The state in which the other half leads from the new slot and this one is reloaded. -/
def State.handedOver (s : State) : State :=
  let lead := if s.holder = 0 then 0 else s.holder - 1
  let s := ((s.complexUp (1 - lead)).setBelief lead none).setHolder 0
  (s.claimLead (1 - lead)).complexUp lead

theorem State.handover_due (hact : s.sec.activation = some a) (hdue : s.session = 5 ∨ s.session = 3 ∧ s.needsPause = false) :
    s.handover = s.handedOver.activated a := by
  unfold State.handover
  rw [hact]
  dsimp only
  rw [if_neg (by rcases hdue with h | ⟨h, hp⟩ <;> simp [h]; simp [hp])]
  rfl

theorem State.sameRing_handedOver (s : State) (fn : Nat) : s.sameRing s.handedOver fn := by
  unfold State.handedOver
  extract_lets lead t
  have hup := s.onlyIn_complexUp (1 - lead)
  obtain ⟨-, -, -, hfree, -⟩ := ((s.complexUp (1 - lead)).setBelief lead none).setHolder_effect (v := 0) (by decide)
  have ht : s.onlyIn t [.fields, .irq] := State.onlyIn_trans (State.onlyIn_then hup (State.onlyIn_irq _ _) (by decide)) hfree
  exact ((State.sameRing_of_onlyIn ht (by decide) fn).trans (t.sameRing_claimLead (by omega) fn)).trans
    (State.sameRing_of_onlyIn (State.onlyIn_complexUp _ _) (by decide) fn)

end Pause

/-! The statement, command by command. -/

/-- Settles O32: an activation is refused, held or begun, and ends by the pause, by its failure or by the handover. -/
theorem activationsEnd : Obligations.ActivationsEnd := by
  unfold Obligations.ActivationsEnd
  intro s c
  refine ⟨fun slot frame hheeds => ⟨fun code hbar => State.activate_barred hheeds hbar, fun hbar => State.activate_pends hheeds hbar⟩,
    fun a staged hact hheld hruns hready hframe hreplay hnotices hleader => ?_, fun a b hact hpause hbegan hslot => ⟨fun staged hearly => ?_, fun hlate => ?_⟩,
    fun a hact hdue hslot => ?_⟩
  · have hdue := State.activationPause_due staged hact hheld hruns hready hframe hreplay hnotices hleader
    refine ⟨_, exec_activationPause .., fun hstaged hgood => ?_, fun hstaged => ?_⟩
    · subst hstaged
      rw [hdue, State.imageMeets_of hgood, if_pos (by decide)]
      exact ⟨s.session_setActivation _ (by decide), rfl⟩
    · subst hstaged
      rw [hdue, if_neg (by simp)]
      obtain ⟨hsession, hnone, hrunning, hanswered⟩ := State.activationEnd_effect (s := s) a 0x0B (.refl s a.cmd.fn)
      exact ⟨hsession, hnone, hanswered, hrunning⟩
  · rw [exec_activationPause, State.activationPause_reported staged hact hpause hbegan hearly]
    exact ⟨_, rfl, State.activated_effect hslot (State.sameRing_of_onlyIn s.onlyIn_restartCores (by decide) a.cmd.fn)⟩
  · have hrestart := s.onlyIn_restartCores
    obtain ⟨hsession, hnone, hrunning, hanswered⟩ := State.activationEnd_effect a 0x0E (State.sameRing_of_onlyIn hrestart (by decide) a.cmd.fn)
    rw [exec_startFailed, State.startFailed_late hact hpause hbegan hlate]
    exact ⟨_, rfl, hsession, hnone, hrunning.trans (State.vfld_of_vfields (hrestart .vfields (by decide)) ..), hanswered⟩
  · rw [exec_activationHandover, State.handover_due hact hdue]
    exact ⟨_, rfl, State.activated_effect hslot (s.sameRing_handedOver a.cmd.fn)⟩

end Sys2Proof.Machine

/-!
PROOFS of the statement on the fabric ports' links and pauses (12_links_and_fabric R382, R383, R386, R387, R406, R411).
-/

namespace Sys2Proof.Machine

/-! The ports beside their registers. -/

theorem State.onlyIn_fab (s : State) (g : FabSt) : s.onlyIn { s with fab := g } [.fab] := fun p hp => by
  cases p
  case fab => exact absurd (by decide) hp
  all_goals rfl

theorem State.onlyIn_setPort (s : State) (n : Nat) (x : PortSt) : s.onlyIn (s.setPort n x) [.fab] := s.onlyIn_fab _

theorem State.port_of_fab {s t : State} (h : t.fab = s.fab) (n : Nat) : t.port n = s.port n := by rw [State.port, State.port, h]

theorem State.port_setPort_ne (s : State) {n m : Nat} (x : PortSt) (h : m ≠ n) : (s.setPort n x).port m = s.port m := SMap.get_set_ne _ _ _ h

theorem State.onlyIn_net (s : State) (g : NetSt) : s.onlyIn { s with net := g } [.net] := fun p hp => by
  cases p
  case net => exact absurd (by decide) hp
  all_goals rfl

/-! A link goes down (R382, R383). -/

section Down
variable {s : State} {n cause : Nat}

/-- The port cleared, the event posted, the error recorded and its frames dropped: all of it but the withdrawal. -/
def State.portCut (s : State) (n cause : Nat) : State :=
  let t := (s.portCleared n cause).post 0x00A0 [n, cause]
  let t := if cause ≤ 2 then t.unitError 3 n 0 else t
  { t with net := { t.net with portHeld := t.net.portHeld.filter fun d => d.port != n } }

/-- A port that the running itinerary names takes the part out at the next boundary (R406). -/
theorem State.portDown_named {it : Itin} (cause : Nat) (hruns : s.frame.st = .running) (hit : s.frame.active = some it) (hnames : it.namesPort n = true) :
    s.portDown n cause = (s.portCut n cause).onMgr fun m => { m with withdrawDue := some true } := by
  refine if_pos ?_
  rw [hruns, hit]
  exact hnames

theorem State.portDown_unnamed (cause : Nat)
    (hnames : ∀ it, s.frame.st = .running → s.frame.active = some it → it.namesPort n = false) : s.portDown n cause = s.portCut n cause := by
  refine if_neg fun h => ?_
  obtain ⟨hruns, hnamed⟩ := Bool.and_eq_true_iff.1 h
  cases hit : s.frame.active with
  | none => rw [hit] at hnamed; exact Bool.noConfusion hnamed
  | some it =>
    rw [hit] at hnamed
    exact Bool.noConfusion ((hnames it (of_decide_eq_true hruns) hit).symm.trans hnamed)

theorem State.portDown_cases (s : State) (n cause : Nat) :
    s.portDown n cause = s.portCut n cause ∨ s.portDown n cause = (s.portCut n cause).onMgr fun m => { m with withdrawDue := some true } := by
  by_cases h : ∀ it, s.frame.st = .running → s.frame.active = some it → it.namesPort n = false
  · exact .inl (State.portDown_unnamed cause h)
  · push Not at h
    obtain ⟨it, hruns, hit, hnames⟩ := h
    exact .inr (State.portDown_named cause hruns hit (by simpa using hnames))

theorem State.onlyIn_portCleared (s : State) (n cause : Nat) : s.onlyIn (s.portCleared n cause) [.fields, .irq, .fab] := by
  refine State.onlyIn_raiseHalf (State.onlyIn_raiseHalf (State.onlyIn_count (State.onlyIn_then (State.onlyIn_setFld (State.onlyIn_setFlag
    (State.onlyIn_setFld (State.onlyIn_setFld (State.onlyIn_setFld (State.onlyIn_refl s _) ?_) ?_) ?_) ?_) ?_) (State.onlyIn_setPort _ _ _) ?_) ?_) ?_ ?_) ?_ ?_
  all_goals decide

theorem State.portCut_host (s : State) (n cause : Nat) : (s.portCut n cause).host = ((s.portCleared n cause).post 0x00A0 [n, cause]).host := by
  unfold State.portCut
  extract_lets t u
  show u.host = t.host
  unfold u
  split
  · exact t.onlyIn_unitError 3 n 0 1 .host (by decide)
  · rfl

theorem State.onlyIn_portCut (s : State) (n cause : Nat) : s.onlyIn (s.portCut n cause) [.fields, .irq, .host, .fab, .hist, .net] := by
  unfold State.portCut
  extract_lets t u
  have ht : s.onlyIn t [.fields, .irq, .host, .fab, .hist, .net] :=
    State.onlyIn_then (State.onlyIn_mono (s.onlyIn_portCleared n cause) (by decide)) (State.onlyIn_post _ _ _) (by decide)
  have hu : s.onlyIn u [.fields, .irq, .host, .fab, .hist, .net] := by
    unfold u
    split
    · exact State.onlyIn_then ht (t.onlyIn_unitError 3 n 0 1) (by decide)
    · exact ht
  exact State.onlyIn_then hu (u.onlyIn_net _) (by decide)

theorem State.onlyIn_portDown (s : State) (n cause : Nat) : s.onlyIn (s.portDown n cause) [.fields, .irq, .host, .fab, .hist, .net, .mgr] := by
  have hcut := State.onlyIn_mono (s.onlyIn_portCut n cause) (qs := [.fields, .irq, .host, .fab, .hist, .net, .mgr]) (by decide)
  rcases s.portDown_cases n cause with h | h <;> rw [h]
  · exact hcut
  · exact State.onlyIn_then hcut (State.onlyIn_onMgr _ _) (by decide)

/-- The history stands but for a link lost by itself. -/
theorem State.pend_portDown (s : State) (n : Nat) (h : 2 < cause) : (s.portDown n cause).hist.pend = s.hist.pend := by
  have hcut : (s.portCut n cause).hist = s.hist := by
    rw [State.portCut, if_neg (Nat.not_le.2 h)]
    exact (State.onlyIn_post _ _ _ .hist (by decide)).trans (s.onlyIn_portCleared n cause .hist (by decide))
  rcases s.portDown_cases n cause with hd | hd <;> rw [hd]
  · rw [hcut]
  · exact congrArg HistSt.pend hcut

theorem State.portDown_fab (s : State) (n cause : Nat) : (s.portDown n cause).fab = (s.portCleared n cause).fab := by
  have hpost : ((s.portCleared n cause).post 0x00A0 [n, cause]).fab = (s.portCleared n cause).fab := State.onlyIn_post _ _ _ .fab (by decide)
  have hcut : (s.portCut n cause).fab = (s.portCleared n cause).fab := by
    unfold State.portCut
    extract_lets t u
    show u.fab = _
    unfold u
    split
    · exact (t.onlyIn_unitError 3 n 0 1 .fab (by decide)).trans hpost
    · exact hpost
  rcases s.portDown_cases n cause with hd | hd <;> rw [hd]
  · exact hcut
  · exact hcut

/-- The port's buffer is empty, the others' stand. -/
theorem State.port_portDown (s : State) (n cause : Nat) :
    ((s.portDown n cause).port n).occ = 0 ∧ ∀ m, m ≠ n → (s.portDown n cause).port m = s.port m := by
  have hport (m : Nat) : (s.portDown n cause).port m = (s.setPort n { s.port n with occ := 0, occ1 := 0, txUntil := [] }).port m := by
    rw [State.port_of_fab (s.portDown_fab n cause)]
    exact State.port_of_fab (State.onlyIn_raiseBoth _ _ .fab (by decide)) m
  exact ⟨by rw [hport, State.port_setPort_same], fun m hm => by rw [hport, State.port_setPort_ne _ _ hm]⟩

theorem State.tells_portDown (s : State) (n cause : Nat) : s.tells (s.portDown n cause) 0x00A0 [n, cause] := by
  have hcleared := s.onlyIn_portCleared n cause
  have hcut : s.tells (s.portCut n cause) 0x00A0 [n, cause] :=
    ((State.tells_post _ _ _).before (hcleared .host (by decide)) (hcleared .frame (by decide))).later (s.portCut_host n cause)
  rcases s.portDown_cases n cause with h | h <;> rw [h]
  · exact hcut
  · exact hcut.later rfl

/-- What the port's registers read. -/
theorem State.portDown_reads (s : State) (n : Nat) (hcause : cause < 16) :
    (s.portDown n cause).fld F.PRT_STATUS_LAST_DOWN n = cause ∧ (s.portDown n cause).flag F.PRT_STATUS_FEC_LOCK n = false ∧
      (s.portDown n cause).flag F.PRT_STATUS_TRAINING n = (s.flag F.PRT_CTL_ENABLE n && !s.flag F.PRT_STATUS_DISABLED n) ∧
      s.counts (s.portDown n cause) F.PRT_LINKDOWNCNT n := by
  have hfld := State.fld_of_fields (s.portDown_registers n cause).1
  have hlast : (s.portCleared n cause).fld F.PRT_STATUS_LAST_DOWN n = cause % 16 := by
    simp (disch := decide) [State.portCleared, State.portIrq, State.fld_raiseBoth, State.fld_count_of_code, State.fld_setFlag_of_code,
      State.fld_setFld_of_code, F.PRT_STATUS_LAST_DOWN]
  have hlock : (s.portCleared n cause).fld F.PRT_STATUS_FEC_LOCK n = 0 := by
    simp (disch := decide) [State.portCleared, State.portIrq, State.fld_raiseBoth, State.fld_count_of_code, State.fld_setFlag_of_code,
      State.fld_setFld_of_code]
  have hcount : (s.portCleared n cause).fld F.PRT_LINKDOWNCNT n = min (s.fld F.PRT_LINKDOWNCNT n + 1) (2 ^ F.PRT_LINKDOWNCNT.width - 1) := by
    simp (disch := decide) [State.portCleared, State.portIrq, State.fld_raiseBoth, State.fld_setFlag_of_code, State.fld_setFld_of_code]
  have htrain : (s.portCleared n cause).flag F.PRT_STATUS_TRAINING n = (s.flag F.PRT_CTL_ENABLE n && !s.flag F.PRT_STATUS_DISABLED n) := by
    unfold State.portCleared
    extract_lets on t _ cleared
    refine Eq.trans ?_ (State.flag_setFlag_same t (f := F.PRT_STATUS_TRAINING) on n rfl)
    refine State.flag_of_fld ?_
    simp (disch := decide) [cleared, State.portIrq, State.fld_raiseBoth, State.fld_count_of_code, State.fld_setFld_of_code]
  exact ⟨by rw [hfld, hlast, Nat.mod_eq_of_lt hcause], by rw [State.flag, hfld, hlock]; rfl, (State.flag_of_fld (hfld ..)).trans htrain,
    (hfld ..).trans hcount⟩

/-- UP is 0 at the port, and at every other as it was. -/
theorem State.portDown_up (s : State) (n cause : Nat) :
    (s.portDown n cause).flag F.PRT_STATUS_UP n = false ∧ ∀ m, m ≠ n → (s.portDown n cause).flag F.PRT_STATUS_UP m = s.flag F.PRT_STATUS_UP m :=
  ⟨by simp [State.flag, State.up_portDown], fun m hm => by simp [State.flag, State.up_portDown, hm]⟩

theorem State.portDown_mgr (s : State) (n cause : Nat) :
    (∀ it, s.frame.st = .running → s.frame.active = some it → it.namesPort n = true →
      (s.portDown n cause).mgr = { s.mgr with withdrawDue := some true }) ∧
    ((∀ it, s.frame.st = .running → s.frame.active = some it → it.namesPort n = false) → (s.portDown n cause).mgr = s.mgr) := by
  have hcut : (s.portCut n cause).mgr = s.mgr := s.onlyIn_portCut n cause .mgr (by decide)
  refine ⟨fun it hruns hit hnames => ?_, fun hnames => ?_⟩
  · rw [State.portDown_named cause hruns hit hnames, State.onMgr, hcut]
  · rw [State.portDown_unnamed cause hnames, hcut]

/-- Loss of signal, a lost FEC lock, or an ENABLE that now keeps the link down takes a link that was up down. -/
theorem State.portLinkDown_up (hup : s.flag F.PRT_STATUS_UP n = true)
    (hcause : cause = 1 ∨ cause = 2 ∨ (cause = 4 ∧ (s.flag F.PRT_CTL_ENABLE n = false ∨ s.flag F.PRT_STATUS_DISABLED n = true))) :
    s.portLinkDown n cause = s.portDown n cause := by
  rcases hcause with rfl | rfl | ⟨rfl, hoff⟩
  · simp [State.portLinkDown, hup]
  · simp [State.portLinkDown, hup]
  · rcases hoff with hoff | hoff <;> simp [State.portLinkDown, hup, hoff]

theorem State.portLinkDown_down (cause : Nat) (hup : s.flag F.PRT_STATUS_UP n = false) : s.portLinkDown n cause = s := by
  simp [State.portLinkDown, hup]

/-- RETRAIN by an operator is a link going down with cause 3 (R411). -/
theorem State.retrain_up {fn : Nat} (hopen : s.barOpen = true) (hrole : roleOpr ≤ s.roleOf fn) (hup : s.flag F.PRT_STATUS_UP n = true) :
    s.retrain (.host fn) n = (s.audit fn 0xFFFF 0 0 (0x10000 + 0x100 * n)).portDown n 3 := by
  have hupAfter : (s.audit fn 0xFFFF 0 0 (0x10000 + 0x100 * n)).flag F.PRT_STATUS_UP n = true := hup
  rw [State.retrain, State.ownWrite_accepted (rwl := false) _ hopen hrole (fun h => Bool.noConfusion h)]
  simp only [Bool.not_true, hupAfter]
  rfl

theorem State.retrain_low {fn : Nat} (hopen : s.barOpen = true) (hrole : s.roleOf fn < roleOpr) :
    s.retrain (.host fn) n = s.audit fn 0xFFFF 1 0xF3 (0x10000 + 0x100 * n) := by
  rw [State.retrain, State.ownWrite_low false _ hopen hrole]
  rfl

end Down

/-! A link comes up (R382, R456). -/

section Up
variable {s : State} {n : Nat}

theorem State.portUp_trained (hup : s.flag F.PRT_STATUS_UP n = false) (hon : s.flag F.PRT_CTL_ENABLE n = true)
    (hdis : s.flag F.PRT_STATUS_DISABLED n = false) (href : s.flag F.CLK_STATUS_ETHREF_OK = true) (hoff : s.isOff = false) :
    s.portUp n = ((((s.setFld F.PRT_STATUS_UP 1 n).setFld F.PRT_STATUS_FEC_LOCK 1 n).setFld F.PRT_STATUS_TRAINING 0 n).portIrq n).post 0x00A1 [n] := by
  rw [State.portUp, hup, hon, hdis, href, hoff]
  rfl

/-- A link that is up, that is not enabled or whose reference does not run stays as it is. -/
theorem State.portUp_barred (h : s.flag F.PRT_STATUS_UP n = true ∨ s.flag F.PRT_CTL_ENABLE n = false ∨ s.flag F.PRT_STATUS_DISABLED n = true ∨
    s.flag F.CLK_STATUS_ETHREF_OK = false) : s.portUp n = s := by
  rw [State.portUp, if_pos]
  rcases h with h | h | h | h <;> simp [h]

/-- The port's registers once it has trained. -/
theorem State.portUp_effect (s : State) (n : Nat) {t u : State}
    (ht : t = (((s.setFld F.PRT_STATUS_UP 1 n).setFld F.PRT_STATUS_FEC_LOCK 1 n).setFld F.PRT_STATUS_TRAINING 0 n).portIrq n)
    (hu : u = t.post 0x00A1 [n]) :
    u.flag F.PRT_STATUS_UP n = true ∧ u.flag F.PRT_STATUS_FEC_LOCK n = true ∧ u.flag F.PRT_STATUS_TRAINING n = false ∧
      s.tells u 0x00A1 [n] ∧ s.onlyIn u [.fields, .irq, .host] ∧
      s.onlyFields u [F.PRT_STATUS_UP, F.PRT_STATUS_FEC_LOCK, F.PRT_STATUS_TRAINING, F.INTC_PEND, F.INTC_MERGECNT] := by
  have hin : s.onlyIn t [.fields, .irq] := by
    rw [ht]
    exact State.onlyIn_then (State.onlyIn_setFld (State.onlyIn_setFld (State.onlyIn_setFld (State.onlyIn_refl s _) (by decide)) (by decide)) (by decide))
      (State.onlyIn_raiseBoth _ _) (by decide)
  have hfields : s.onlyFields t [F.PRT_STATUS_UP, F.PRT_STATUS_FEC_LOCK, F.PRT_STATUS_TRAINING, F.INTC_PEND, F.INTC_MERGECNT] := by
    rw [ht]
    refine State.onlyFields_raiseHalf (State.onlyFields_raiseHalf (State.onlyFields_setFld (State.onlyFields_setFld (State.onlyFields_setFld
      (State.onlyFields_refl s _) ?_) ?_) ?_) ?_ ?_) ?_ ?_
    all_goals decide
  have hreads (f : Fld) (v : Nat) (hv : t.fld f n = v) : u.flag f n = (v == 1) := by rw [State.flag, hu, State.fld_post, hv]
  refine ⟨hreads _ 1 ?_, hreads _ 1 ?_, hreads _ 0 ?_,
    hu ▸ (State.tells_post _ _ _).before (hin .host (by decide)) (hin .frame (by decide)),
    hu ▸ State.onlyIn_then (State.onlyIn_mono hin (by decide)) (State.onlyIn_post _ _ _) (by decide),
    State.onlyFields_same hfields (by rw [hu, State.post_fields])⟩
  all_goals
    rw [ht]
    simp (disch := decide) [State.portIrq, State.fld_raiseBoth, State.fld_setFld_of_code, F.PRT_STATUS_UP, F.PRT_STATUS_FEC_LOCK]

end Up

/-! Pauses sent (R387). -/

section Sent
variable {s : State} {n : Nat}

/-- PAUSED_RX holds four bits, one per class: the mask of all of them is what it reads then. -/
theorem pausedRx_all (v : Nat) : (v ||| 15) % 2 ^ F.PRT_STATUS_PAUSED_RX.width = 15 := by
  have hall : (v ||| 15) % 2 ^ 4 = v % 2 ^ 4 ||| 15 % 2 ^ 4 := Nat.or_mod_two_pow
  have hsmall : ∀ w : Fin 16, w.1 ||| 15 = 15 := by decide
  rw [show F.PRT_STATUS_PAUSED_RX.width = 4 from rfl, hall]
  exact hsmall ⟨v % 2 ^ 4, Nat.mod_lt _ (by decide)⟩

/-- What a pause sent to all classes leaves. -/
theorem State.sendPause_effect (s : State) (n : Nat) :
    (s.sendPause n 15).fld F.PRT_STATUS_PAUSED_RX n = 15 ∧ s.counts (s.sendPause n 15) F.PRT_PAUSETXCNT n ∧
      (s.sendPause n 15).port n = { s.port n with paused := s.now } ∧
      s.onlyIn (s.sendPause n 15) [.fields, .fab] ∧ s.onlyFields (s.sendPause n 15) [F.PRT_STATUS_PAUSED_RX, F.PRT_PAUSETXCNT] := by
  refine ⟨?_, ?_, State.port_setPort_same .., ?_, ?_⟩
  · simp (disch := decide) [State.sendPause, State.fld_count_of_code, pausedRx_all]
  · simp (disch := decide) [State.counts, State.sendPause, State.fld_setFld_of_code]
  · exact State.onlyIn_then (State.onlyIn_count (State.onlyIn_setFld (State.onlyIn_refl s _) (by decide)) (by decide)) (State.onlyIn_setPort _ _ _) (by decide)
  · exact State.onlyFields_setPort (State.onlyFields_count (State.onlyFields_setFld (State.onlyFields_refl s _) (by decide)) (by decide))

theorem State.pauseRepeat_due (hpaused : s.fld F.PRT_STATUS_PAUSED_RX n = 15) (hdue : (s.port n).paused + 20000 ≤ s.now)
    (habove : 256 * s.fld F.PRT_RXCFG_XON n < (s.port n).occ) : s.pauseRepeat n = s.sendPause n 15 := by
  simp [State.pauseRepeat, State.pausedAll, hpaused, hdue, habove]

theorem State.pauseRepeat_idle (h : s.fld F.PRT_STATUS_PAUSED_RX n ≠ 15 ∨ s.now < (s.port n).paused + 20000 ∨
    (s.port n).occ ≤ 256 * s.fld F.PRT_RXCFG_XON n) : s.pauseRepeat n = s := by
  refine if_neg fun hall => ?_
  simp only [Bool.and_eq_true, decide_eq_true_eq, State.pausedAll] at hall
  obtain ⟨⟨hpaused, hdue⟩, habove⟩ := hall
  rcases h with h | h | h
  · exact h hpaused
  · omega
  · omega

/-- The mask that a port not paused as a whole shows: class 1 by itself above its cap. -/
def State.capMask (s : State) (n occ1 : Nat) : Nat := if 256 * s.fld F.PRT_RXCAP_RELAY_CAP n < occ1 then 2 else 0

theorem State.capMask_cut (s : State) (n occ1 : Nat) : s.capMask n occ1 % 2 ^ F.PRT_STATUS_PAUSED_RX.width = s.capMask n occ1 := by
  unfold State.capMask; split <;> rfl

/-- Bytes leave the buffer: a pause of all classes stands above XON, and otherwise the mask is judged anew. -/
theorem State.xonResume_cases (s : State) (n d d1 : Nat) :
    s.fld F.PRT_STATUS_PAUSED_RX n = 15 ∧ 256 * s.fld F.PRT_RXCFG_XON n < (s.port n).occ - d ∧
        s.xonResume n d d1 = s.setPort n ((s.port n).drain d d1) ∨
      ¬ (s.fld F.PRT_STATUS_PAUSED_RX n = 15 ∧ 256 * s.fld F.PRT_RXCFG_XON n < (s.port n).occ - d) ∧
        s.xonResume n d d1 = (s.setPort n ((s.port n).drain d d1)).setFld F.PRT_STATUS_PAUSED_RX (s.capMask n ((s.port n).occ1 - d1)) n := by
  by_cases hpaused : s.fld F.PRT_STATUS_PAUSED_RX n = 15
  · have hall : (s.setPort n ((s.port n).drain d d1)).pausedAll n = true := decide_eq_true hpaused
    by_cases habove : (s.port n).occ - d ≤ 256 * s.fld F.PRT_RXCFG_XON n
    · exact .inr ⟨fun h => absurd h.2 (Nat.not_lt.2 habove), (if_pos hall).trans (if_pos habove)⟩
    · exact .inl ⟨hpaused, Nat.lt_of_not_le habove, (if_pos hall).trans (if_neg habove)⟩
  · exact .inr ⟨fun h => hpaused h.1, if_neg fun h => hpaused (of_decide_eq_true h)⟩

theorem State.xonResume_keeps (s : State) (n d d1 : Nat) :
    (s.xonResume n d d1).port n = (s.port n).drain d d1 ∧ s.onlyIn (s.xonResume n d d1) [.fields, .fab] ∧
      s.onlyFields (s.xonResume n d d1) [F.PRT_STATUS_PAUSED_RX] := by
  have hport : s.onlyIn (s.setPort n ((s.port n).drain d d1)) [.fields, .fab] := State.onlyIn_mono (State.onlyIn_setPort _ _ _) (by decide)
  have hfields : s.onlyFields (s.setPort n ((s.port n).drain d d1)) [F.PRT_STATUS_PAUSED_RX] := State.onlyFields_setPort (State.onlyFields_refl s _)
  rcases s.xonResume_cases n d d1 with ⟨-, -, h⟩ | ⟨-, h⟩ <;> rw [h]
  · exact ⟨State.port_setPort_same .., hport, hfields⟩
  · exact ⟨State.port_setPort_same .., State.onlyIn_setFld hport (by decide), State.onlyFields_setFld hfields (by decide)⟩

/-- PAUSED_RX after it: 15 above XON in a pause of all classes, and otherwise the mask of the cap. -/
theorem State.xonResume_paused (s : State) (n d d1 : Nat) :
    (s.fld F.PRT_STATUS_PAUSED_RX n = 15 → 256 * s.fld F.PRT_RXCFG_XON n < (s.port n).occ - d →
      (s.xonResume n d d1).fld F.PRT_STATUS_PAUSED_RX n = 15) ∧
    (¬ (s.fld F.PRT_STATUS_PAUSED_RX n = 15 ∧ 256 * s.fld F.PRT_RXCFG_XON n < (s.port n).occ - d) →
      (s.xonResume n d d1).fld F.PRT_STATUS_PAUSED_RX n = s.capMask n ((s.port n).occ1 - d1)) := by
  rcases s.xonResume_cases n d d1 with ⟨hpaused, habove, h⟩ | ⟨hnot, h⟩ <;> rw [h]
  · exact ⟨fun _ _ => hpaused, fun hnot => absurd ⟨hpaused, habove⟩ hnot⟩
  · exact ⟨fun hpaused habove => absurd ⟨hpaused, habove⟩ hnot, fun _ => by rw [State.fld_setFld_same, State.capMask_cut]⟩

end Sent

/-! Pauses obeyed (R386). -/

section Obeyed
variable {s : State} {n c c' : Nat} {d : LegData}

/-- Whether a frame held is one of a port's class. -/
def LegData.ofClass (n c : Nat) (d : LegData) : Bool := d.port == n && d.cls == c

theorem LegData.ofClass_iff : d.ofClass n c = true ↔ d.port = n ∧ d.cls = c := by simp [LegData.ofClass]

theorem LegData.ofClass_ne (h : d.ofClass n c = true) (hne : c' ≠ c) : d.ofClass n c' = false :=
  Bool.eq_false_iff.2 fun h' => hne ((LegData.ofClass_iff.1 h').2.symm.trans (LegData.ofClass_iff.1 h).2)

/-- A class that may send lets its frames go, in their order. -/
theorem State.txRelease_free (h : SMap.get 0 (s.port n).txUntil c ≤ s.now) :
    s.txRelease n c = { s with net := { s.net with
      portOut := s.net.portOut ++ s.net.portHeld.filter (LegData.ofClass n c), portHeld := s.net.portHeld.filter fun d => !d.ofClass n c } } :=
  if_neg (Nat.not_lt.2 h)

theorem State.txRelease_paused (h : s.now < SMap.get 0 (s.port n).txUntil c) : s.txRelease n c = s := if_pos h

theorem State.onlyIn_txRelease (s : State) (n c : Nat) : s.onlyIn (s.txRelease n c) [.net] := by
  unfold State.txRelease
  split
  · exact State.onlyIn_refl s _
  · exact s.onlyIn_net _

/-- A frame sent stays sent. -/
theorem State.portOut_txRelease (n c : Nat) (h : d ∈ s.net.portOut) : d ∈ (s.txRelease n c).net.portOut := by
  rcases Nat.lt_or_ge s.now (SMap.get 0 (s.port n).txUntil c) with hheld | hfree
  · rwa [State.txRelease_paused hheld]
  · rw [State.txRelease_free hfree]
    exact List.mem_append_left _ h

/-- A frame of a class that is paused, or of another port or class, stays held. -/
theorem State.portHeld_txRelease (h : d ∈ s.net.portHeld) (hstays : s.now < SMap.get 0 (s.port n).txUntil c ∨ d.ofClass n c = false) :
    d ∈ (s.txRelease n c).net.portHeld := by
  rcases Nat.lt_or_ge s.now (SMap.get 0 (s.port n).txUntil c) with hheld | hfree
  · rwa [State.txRelease_paused hheld]
  · rw [State.txRelease_free hfree]
    exact List.mem_filter.2 ⟨h, by simpa using hstays.resolve_left (Nat.not_lt.2 hfree)⟩

/-- The turns of some classes. -/
def State.txReleases (s : State) (n : Nat) (l : List Nat) : State := l.foldl (fun (s : State) c => s.txRelease n c) s

theorem State.onlyIn_txReleases (s : State) (n : Nat) (l : List Nat) : s.onlyIn (s.txReleases n l) [.net] :=
  State.onlyIn_foldl (fun t c => t.onlyIn_txRelease n c) l s

/-- What a turn leaves of the time and of the ports' pauses. -/
theorem State.txUntil_txRelease (s : State) (n c c' : Nat) :
    (s.txRelease n c).now = s.now ∧ SMap.get 0 ((s.txRelease n c).port n).txUntil c' = SMap.get 0 (s.port n).txUntil c' := by
  have hfab : (s.txRelease n c).fab = s.fab := s.onlyIn_txRelease n c .fab (by decide)
  exact ⟨s.onlyIn_txRelease n c .now (by decide), by rw [State.port_of_fab hfab]⟩

/-- A frame whose class may send is held or sent after any turn. -/
theorem State.txRelease_keeps (b : Nat) (hfree : SMap.get 0 (s.port n).txUntil c ≤ s.now) (hmine : d.ofClass n c = true)
    (hd : d ∈ s.net.portHeld ∨ d ∈ s.net.portOut) : d ∈ (s.txRelease n b).net.portHeld ∨ d ∈ (s.txRelease n b).net.portOut := by
  rcases hd with hd | hd
  · by_cases hb : b = c
    · rw [hb, State.txRelease_free hfree]
      exact .inr (List.mem_append_right _ (List.mem_filter.2 ⟨hd, hmine⟩))
    · exact .inl (State.portHeld_txRelease hd (.inr (LegData.ofClass_ne hmine hb)))
  · exact .inr (State.portOut_txRelease n b hd)

theorem State.txRelease_sends (hfree : SMap.get 0 (s.port n).txUntil c ≤ s.now) (hmine : d.ofClass n c = true)
    (hd : d ∈ s.net.portHeld ∨ d ∈ s.net.portOut) : d ∈ (s.txRelease n c).net.portOut := by
  rcases hd with hd | hd
  · rw [State.txRelease_free hfree]
    exact List.mem_append_right _ (List.mem_filter.2 ⟨hd, hmine⟩)
  · exact State.portOut_txRelease n c hd

theorem State.portOut_txReleases (l : List Nat) (h : d ∈ s.net.portOut) : d ∈ (s.txReleases n l).net.portOut := by
  induction l generalizing s with
  | nil => exact h
  | cons b l ih => exact ih (State.portOut_txRelease n b h)

/-- Where a class may send, its frames are sent once its turn is over. -/
theorem State.txReleases_sends {l : List Nat} (hc : c ∈ l) (hfree : SMap.get 0 (s.port n).txUntil c ≤ s.now) (hmine : d.ofClass n c = true)
    (hd : d ∈ s.net.portHeld ∨ d ∈ s.net.portOut) : d ∈ (s.txReleases n l).net.portOut := by
  induction l generalizing s with
  | nil => cases hc
  | cons b l ih =>
    rcases List.mem_cons.1 hc with rfl | hc
    · exact State.portOut_txReleases l (State.txRelease_sends hfree hmine hd)
    · obtain ⟨hnow, huntil⟩ := s.txUntil_txRelease n b c
      exact ih hc (by rwa [hnow, huntil]) (State.txRelease_keeps b hfree hmine hd)

/-- Where it is paused, they stay held. -/
theorem State.txReleases_holds (l : List Nat) (hheld : s.now < SMap.get 0 (s.port n).txUntil c) (hd : d ∈ s.net.portHeld) (hmine : d.ofClass n c = true) :
    d ∈ (s.txReleases n l).net.portHeld := by
  induction l generalizing s with
  | nil => exact hd
  | cons b l ih =>
    obtain ⟨hnow, huntil⟩ := s.txUntil_txRelease n b c
    refine ih (by rwa [hnow, huntil]) (State.portHeld_txRelease hd ?_)
    by_cases hb : b = c
    · exact .inl (hb ▸ hheld)
    · exact .inr (LegData.ofClass_ne hmine hb)

/-- The time a pause of so many quanta of 0.64 ns ends, 0 for none. -/
def State.pauseEnd (s : State) (q : Nat) : Nat := if q = 0 then 0 else s.now + ceilDiv (64 * q) 100

/-- PFC_PAUSE_RECEIVED for one class: its end is noted and counted, then every class has its turn. -/
theorem State.pfcPause_one (s : State) (n c q : Nat) :
    s.pfcPause n [(c, q)] =
      ((s.setPort n { s.port n with txUntil := SMap.set 0 (s.port n).txUntil c (s.pauseEnd q) }).count F.PRT_PAUSERXCNT 1 n).txReleases n [0, 1, 2, 3] := rfl

theorem State.pfcPause_effect (s : State) (n q : Nat) (hc : c < 4) :
    s.counts (s.pfcPause n [(c, q)]) F.PRT_PAUSERXCNT n ∧ s.onlyIn (s.pfcPause n [(c, q)]) [.fields, .fab, .net] ∧
      (q = 0 → SMap.get 0 ((s.pfcPause n [(c, q)]).port n).txUntil c = 0 ∧
        ∀ d ∈ s.net.portHeld, d.port = n → d.cls = c → d ∈ (s.pfcPause n [(c, q)]).net.portOut) ∧
      (q ≠ 0 → SMap.get 0 ((s.pfcPause n [(c, q)]).port n).txUntil c = s.now + (64 * q + 99) / 100 ∧
        ∀ d ∈ s.net.portHeld, d.port = n → d.cls = c → d ∈ (s.pfcPause n [(c, q)]).net.portHeld) := by
  rw [State.pfcPause_one]
  generalize ht : (s.setPort n { s.port n with txUntil := SMap.set 0 (s.port n).txUntil c (s.pauseEnd q) }).count F.PRT_PAUSERXCNT 1 n = t
  have hin : s.onlyIn t [.fields, .fab] :=
    ht ▸ State.onlyIn_count (State.onlyIn_mono (State.onlyIn_setPort _ _ _) (by decide)) (by decide)
  have hend : SMap.get 0 (t.port n).txUntil c = s.pauseEnd q := by
    have hport : t.port n = { s.port n with txUntil := SMap.set 0 (s.port n).txUntil c (s.pauseEnd q) } := ht ▸ State.port_setPort_same ..
    rw [hport, SMap.get_set_same]
  have hnow : t.now = s.now := hin .now (by decide)
  have hnet : t.net = s.net := hin .net (by decide)
  have hturns := t.onlyIn_txReleases n [0, 1, 2, 3]
  have hfields : (t.txReleases n [0, 1, 2, 3]).fields = t.fields := hturns .fields (by decide)
  have hendAfter : SMap.get 0 ((t.txReleases n [0, 1, 2, 3]).port n).txUntil c = s.pauseEnd q := by
    rw [State.port_of_fab (hturns .fab (by decide)), hend]
  have hcount : t.fld F.PRT_PAUSERXCNT n = min (s.fld F.PRT_PAUSERXCNT n + 1) (2 ^ F.PRT_PAUSERXCNT.width - 1) :=
    ht ▸ State.fld_count_same ..
  refine ⟨(State.fld_of_fields hfields ..).trans hcount, State.onlyIn_then (State.onlyIn_mono hin (by decide)) hturns (by decide),
    fun hq => ⟨hendAfter.trans (if_pos hq), fun d hd hport hcls => ?_⟩, fun hq => ⟨hendAfter.trans (if_neg hq), fun d hd hport hcls => ?_⟩⟩
  · refine State.txReleases_sends (by simp; omega) ?_ (LegData.ofClass_iff.2 ⟨hport, hcls⟩) (.inl (hnet ▸ hd))
    rw [hend, State.pauseEnd, if_pos hq]
    exact Nat.zero_le _
  · refine State.txReleases_holds _ ?_ (hnet ▸ hd) (LegData.ofClass_iff.2 ⟨hport, hcls⟩)
    rw [hend, hnow, State.pauseEnd, if_neg hq, ceilDiv]
    omega

/-- PAUSE_TIME_EXPIRY once the time is over. -/
theorem State.pauseExpiry_due (hpaused : SMap.get 0 (s.port n).txUntil c ≠ 0) (hdue : SMap.get 0 (s.port n).txUntil c ≤ s.now) :
    s.pauseExpiry n c = (s.setPort n { s.port n with txUntil := SMap.set 0 (s.port n).txUntil c 0 }).txRelease n c :=
  if_neg (by simpa [hpaused] using hdue)

theorem State.pauseExpiry_early (h : SMap.get 0 (s.port n).txUntil c = 0 ∨ s.now < SMap.get 0 (s.port n).txUntil c) : s.pauseExpiry n c = s :=
  if_pos (by simpa using h)

theorem State.pauseExpiry_effect (hpaused : SMap.get 0 (s.port n).txUntil c ≠ 0) (hdue : SMap.get 0 (s.port n).txUntil c ≤ s.now) :
    (s.pauseExpiry n c).net.portOut = s.net.portOut ++ s.net.portHeld.filter (LegData.ofClass n c) ∧
      (∀ d ∈ (s.pauseExpiry n c).net.portHeld, ¬ (d.port = n ∧ d.cls = c)) ∧ SMap.get 0 ((s.pauseExpiry n c).port n).txUntil c = 0 ∧
      s.onlyIn (s.pauseExpiry n c) [.fab, .net] := by
  rw [State.pauseExpiry_due hpaused hdue]
  generalize ht : s.setPort n { s.port n with txUntil := SMap.set 0 (s.port n).txUntil c 0 } = t
  have hin : s.onlyIn t [.fab, .net] := ht ▸ State.onlyIn_mono (State.onlyIn_setPort _ _ _) (by decide)
  have hnet : t.net = s.net := ht ▸ rfl
  have hend : SMap.get 0 (t.port n).txUntil c = 0 := by
    rw [← ht, State.port_setPort_same, SMap.get_set_same]
  rw [State.txRelease_free (by omega)]
  refine ⟨by rw [hnet], fun d hd hmine => ?_, hend, State.onlyIn_then hin (t.onlyIn_net _) (by decide)⟩
  simpa [LegData.ofClass_iff.2 hmine] using (List.mem_filter.1 hd).2

end Obeyed

/-! The statement, command by command. -/

/-- Settles O53: links go down, come up and are retrained, and pauses are sent, repeated, ended and obeyed. -/
theorem linksAndPauses : Obligations.LinksAndPauses := by
  unfold Obligations.LinksAndPauses
  intro s n hn
  have hport : decide (n < portCount) = true := decide_eq_true hn
  refine ⟨fun cause hup hcause => ?_, fun cause hup => ?_, fun hup hon hdis href hoff => ?_, fun h => ?_, fun fn hfn hopen => ⟨fun hrole hup => ?_, fun hrole => ?_⟩,
    fun d d1 => ?_, fun hpaused hdue habove => ?_, fun h => ?_, fun c q hc => ?_, fun c hc => ⟨fun hpaused hdue => ?_, fun h => ?_⟩⟩
  · have hsmall : cause < 16 := by omega
    obtain ⟨hlast, hlock, htrain, hcount⟩ := s.portDown_reads n hsmall
    obtain ⟨hdown, hothers⟩ := s.portDown_up n cause
    obtain ⟨hempty, hports⟩ := s.port_portDown n cause
    obtain ⟨hnamed, hunnamed⟩ := s.portDown_mgr n cause
    rw [exec_portLinkDown, within_next hport, State.portLinkDown_up hup hcause]
    exact ⟨_, rfl, hdown, hlast, hlock, htrain, hcount, s.tells_portDown n cause, hempty, fun m hm => ⟨hothers m hm, hports m hm⟩, hnamed, hunnamed,
      s.onlyIn_portDown n cause⟩
  · rw [exec_portLinkDown, within_next hport, State.portLinkDown_down cause hup]
  · rw [exec_portUp, within_next hport, State.portUp_trained hup hon hdis href hoff]
    exact ⟨_, rfl, s.portUp_effect n rfl rfl⟩
  · rw [exec_portUp, within_next hport, State.portUp_barred h]
  · rw [exec_retrain, within_next (by simp [Path.ok, hfn, hport]), State.retrain_up hopen hrole hup]
    obtain ⟨hlast, -, -, hcount⟩ := (s.audit fn 0xFFFF 0 0 (0x10000 + 0x100 * n)).portDown_reads n (cause := 3) (by decide)
    exact ⟨_, rfl, (State.portDown_up ..).1, hlast, hcount, State.pend_portDown _ n (by decide)⟩
  · rw [exec_retrain, within_next (by simp [Path.ok, hfn, hport]), State.retrain_low hopen hrole]
  · obtain ⟨hdrained, hin, hfields⟩ := s.xonResume_keeps n d d1
    obtain ⟨hstays, hjudged⟩ := s.xonResume_paused n d d1
    rw [exec_xonResume, within_next hport]
    exact ⟨_, rfl, by rw [hdrained]; rfl, by rw [hdrained]; rfl, hin, hfields,
      fun hpaused => ⟨hstays hpaused, fun hbelow => hjudged fun h => absurd h.2 (Nat.not_lt.2 hbelow)⟩, fun hpaused => hjudged fun h => hpaused h.1⟩
  · obtain ⟨hall, hcount, hnoted, hin, hfields⟩ := s.sendPause_effect n
    rw [exec_pauseRepeat, within_next hport, State.pauseRepeat_due hpaused hdue habove]
    exact ⟨_, rfl, hcount, hall, hnoted, hin, hfields⟩
  · rw [exec_pauseRepeat, within_next hport, State.pauseRepeat_idle h]
  · rw [exec_pfcPauseReceived, within_next (by simp [hport, hc])]
    exact ⟨_, rfl, s.pfcPause_effect n q hc⟩
  · rw [exec_pauseTimeExpiry, within_next (by simp [hport, hc])]
    exact ⟨_, rfl, State.pauseExpiry_effect hpaused hdue⟩
  · rw [exec_pauseTimeExpiry, within_next (by simp [hport, hc]), State.pauseExpiry_early h]

end Sys2Proof.Machine

/-!
PROOFS of the statement on received frames, messages and credit (12_links_and_fabric R381, R387 to R393).
-/

namespace Sys2Proof.Machine

/-! The hamper as a unit reads it: what leaves the banks and the gather buffers leaves every byte. -/

/-- No bank and no gather buffer differs. -/
def State.sameHamper (s t : State) : Prop := t.hamper = s.hamper ∧ ∀ j, (t.core j).gather = (s.core j).gather

section Hamper
variable {s t u : State}

theorem State.sameHamper.trans (h : s.sameHamper t) (h' : t.sameHamper u) : s.sameHamper u :=
  ⟨h'.1.trans h.1, fun j => (h'.2 j).trans (h.2 j)⟩

theorem State.onlyIn.sameHamper {ps : List Part} (h : s.onlyIn t ps) (hh : Part.hamper ∉ ps) (hc : Part.cores ∉ ps) : s.sameHamper t :=
  ⟨h .hamper hh, fun j => congrArg CoreSt.gather (h.core hc j)⟩

theorem State.sameHamper.byte (h : s.sameHamper t) (j a : Nat) : t.hamperByte j a = s.hamperByte j a := by
  obtain ⟨hbanks, hgather⟩ := h
  simp only [State.hamperByte, CoreSt.gatherOf, hbanks, hgather]

/-- A suspect mark is one of the leg, not of the buffers (R151). -/
theorem State.sameHamper_markSuspect (s : State) (site bit : Nat) (mem : Bool) : s.sameHamper (s.markSuspect site bit mem) := by
  have hacts := s.actsAt_markSuspect site bit mem
  refine ⟨hacts.parts .hamper (by decide), fun j => ?_⟩
  by_cases hj : j = site
  · subst hj
    unfold State.markSuspect
    extract_lets c
    split
    · rfl
    · extract_lets first cause r' t1 t2 t3 core t4
      have h1 : (t1.core j).gather = (s.core j).gather := by rw [State.core_setCore_same]
      have h2 : (t2.core j).gather = (t1.core j).gather := by unfold t2; split <;> rfl
      have h3 : (t3.core j).gather = (t2.core j).gather := by unfold t3; split <;> rfl
      have h := h3.trans (h2.trans h1)
      split <;> exact h
  · rw [hacts.cores j hj]

theorem State.sameHamper_ctrInc (s : State) (site k n : Nat) : s.sameHamper (s.ctrInc site k n) := by
  unfold State.ctrInc
  extract_lets v t
  split
  · exact ⟨rfl, fun _ => rfl⟩
  · have ht : s.sameHamper t := ⟨rfl, fun _ => rfl⟩
    exact ((ht.trans ((t.onlyIn_unitError 1 site (2 ^ causeSync) 1).sameHamper (by decide) (by decide))).trans
      (State.sameHamper_markSuspect _ site causeSync false)).trans ((State.onlyIn_raiseRow _ irqHamper site).sameHamper (by decide) (by decide))

theorem gatherOk_gatherWrite {site a : Nat} {bs : Bytes} (hg : gatherOk (s.core site).gather) (hfit : a + bs.length ≤ hamperSize) :
    gatherOk ((s.gatherWrite site a bs).core site).gather := by
  suffices h : ∀ ls : List Nat, (∀ l ∈ ls, l ∈ linesOf a bs.length) → ∀ t : State, gatherOk (t.core site).gather →
      gatherOk ((ls.foldl (fun s l => s.gatherPiece site a bs l) t).core site).gather from h _ (fun _ h => h) s hg
  intro ls
  induction ls with
  | nil => exact fun _ _ ht => ht
  | cons l ls ih =>
    intro hls t ht
    exact ih (fun x hx => hls x (List.mem_cons_of_mem _ hx)) _ (State.gatherPiece_gathers ht hfit (hls l List.mem_cons_self)).ok

/-- A delivery without poison is a write through the gather buffer, which it then empties of those lines. -/
theorem State.deliver_takes {site a : Nat} {bs : Bytes} (hg : gatherOk (s.core site).gather) (hfit : a + bs.length ≤ hamperSize) :
    s.hamperTakes (s.deliver site a bs false) site (byteWritten a bs) :=
  ((State.gatherWrite_takes hg hfit).trans (State.flushGather_takes (gatherOk_gatherWrite hg hfit) _)).congr fun _ _ => rfl

theorem State.hamperTakes.after {site : Nat} {w : Nat → Option Byte} (h : s.hamperTakes t site w) (h' : t.sameHamper u) : s.hamperTakes u site w :=
  fun j b hb => by rw [h'.byte, h j b hb]

theorem State.hamperTakes.before {site : Nat} {w : Nat → Option Byte} (h : t.hamperTakes u site w) (h' : s.sameHamper t) : s.hamperTakes u site w :=
  fun j b hb => by rw [h j b hb, h'.byte]

end Hamper

/-! The receive buffer (R387, R388). -/

section Buffer
variable {s : State} {n : Nat}

theorem State.pauseCheck_cases (s : State) (n : Nat) : s.pauseCheck n = s ∨ ∃ mask, s.pauseCheck n = s.sendPause n mask := by
  unfold State.pauseCheck
  extract_lets x
  split
  · exact .inl rfl
  · split
    · exact .inr ⟨15, rfl⟩
    · split
      · exact .inr ⟨2, rfl⟩
      · exact .inl rfl

/-- The pause check leaves all of the fabric's state but the time of the port's last pause. -/
theorem State.pauseCheck_fab (s : State) (n : Nat) :
    ((s.pauseCheck n).port n).occ = (s.port n).occ ∧ ∃ ports, (s.pauseCheck n).fab = { s.fab with ports := ports } := by
  rcases s.pauseCheck_cases n with h | ⟨mask, h⟩ <;> rw [h]
  · exact ⟨rfl, _, rfl⟩
  · have hport : (s.sendPause n mask).port n = { s.port n with paused := s.now } := State.port_setPort_same ..
    exact ⟨by rw [hport], _, rfl⟩

theorem State.onlyIn_pauseCheck (s : State) (n : Nat) : s.onlyIn (s.pauseCheck n) [.fields, .fab] := by
  rcases s.pauseCheck_cases n with h | ⟨mask, h⟩ <;> rw [h]
  · exact State.onlyIn_refl s _
  · exact State.onlyIn_then (State.onlyIn_count (State.onlyIn_setFld (State.onlyIn_refl s _) (by decide)) (by decide)) (State.onlyIn_setPort _ _ _) (by decide)

theorem State.onlyFields_pauseCheck (s : State) (n : Nat) : s.onlyFields (s.pauseCheck n) [F.PRT_STATUS_PAUSED_RX, F.PRT_PAUSETXCNT] := by
  rcases s.pauseCheck_cases n with h | ⟨mask, h⟩ <;> rw [h]
  · exact State.onlyFields_refl s _
  · exact State.onlyFields_setPort (State.onlyFields_count (State.onlyFields_setFld (State.onlyFields_refl s _) (by decide)) (by decide))

/-- From XOFF on a port that is not paused pauses all classes. -/
theorem State.pauseCheck_full (hpaused : s.fld F.PRT_STATUS_PAUSED_RX n ≠ 15) (hfull : 256 * s.fld F.PRT_RXCFG_XOFF n ≤ (s.port n).occ) :
    s.pauseCheck n = s.sendPause n 15 :=
  (if_neg (by simpa [State.pausedAll] using hpaused)).trans (if_pos hfull)

end Buffer

/-! A frame comes in (R390). -/

section Frame
variable {s : State} {n : Nat} {f : RxFrame}

/-- The codewords counted and what has left the buffer since. -/
def State.rxOpened (s : State) (n : Nat) (f : RxFrame) : State :=
  ((s.count F.PRT_FECCORCNT f.corrected n).count F.PRT_FECUNCCNT f.uncorrected n).setPort n ((s.port n).drain f.drained f.drained1)

/-- The frame's room taken and its sender heard. -/
def State.rxTaken (s : State) (n : Nat) (f : RxFrame) : State :=
  let t := s.setPort n { s.port n with occ := (s.port n).occ + f.wire, occ1 := if f.cls = 1 then (s.port n).occ1 + f.wire else (s.port n).occ1 }
  { t with fab := { t.fab with heard := SMap.put t.fab.heard f.src t.now } }

theorem State.acceptFrame_eq (s : State) (n : Nat) (f : RxFrame) (deliver : State → State) :
    s.acceptFrame n f deliver = (deliver (s.rxTaken n f)).pauseCheck n := rfl

/-- What becomes of a frame with a good header, by its kind. -/
def State.rxKind (s : State) (n : Nat) (f : RxFrame) : State :=
  if f.kind = 1 then
    match s.portsRecord n f with
    | none => s.count F.PRT_UNDECLCNT 1 n
    | some p =>
      if f.frame ≠ s.frame.number % 2 ^ 32 then s.count F.PRT_STALECNT 1 n
      else s.acceptFrame n f fun s => s.legData n f p.2
  else if f.kind = 2 then s.acceptFrame n f fun s => s.messageFrame f
  else if f.kind = 3 || f.kind = 4 then s.acceptFrame n f id
  else s.count F.PRT_UNDECLCNT 1 n

/-- The checks of a frame without uncorrected codewords. -/
def State.rxChecked (s : State) (n : Nat) (f : RxFrame) : State :=
  if !f.fcs then s.count F.PRT_FCSERRCNT 1 n
  else if rxBuffer - (s.port n).occ < f.wire then s.count F.PRT_RXDROPCNT 1 n
  else if !f.tagged || !f.form || !f.addressed || f.dst ≠ s.partNum || s.partNum = 0xFFFF then s.count F.PRT_UNDECLCNT 1 n
  else s.rxKind n f

theorem State.frameIn_down (h : s.flag F.PRT_STATUS_UP n = false) : s.frameIn n f = s := by simp [State.frameIn, h]

theorem State.frameIn_up (hup : s.flag F.PRT_STATUS_UP n = true) (hclean : f.uncorrected = 0) : s.frameIn n f = (s.rxOpened n f).rxChecked n f := by
  have hbad : (!f.fcs || decide (f.uncorrected ≠ 0)) = !f.fcs := by simp [hclean]
  have hskip : (decide (f.uncorrected ≠ 0) && decide ((((s.count F.PRT_FECCORCNT f.corrected n).count F.PRT_FECUNCCNT f.uncorrected n).port n).fecSecond ≠
      ((s.count F.PRT_FECCORCNT f.corrected n).count F.PRT_FECUNCCNT f.uncorrected n).now / 1000000000 + 1)) = false := by simp [hclean]
  unfold State.frameIn
  rw [hup]
  simp only [hskip, hbad]
  rfl

theorem State.onlyFields_rxOpened (s : State) (n : Nat) (f : RxFrame) : s.onlyFields (s.rxOpened n f) [F.PRT_FECCORCNT, F.PRT_FECUNCCNT] :=
  State.onlyFields_setPort (State.onlyFields_count (State.onlyFields_count (State.onlyFields_refl s _) (by decide)) (by decide))

theorem State.onlyIn_rxOpened (s : State) (n : Nat) (f : RxFrame) : s.onlyIn (s.rxOpened n f) [.fields, .fab] :=
  State.onlyIn_then (State.onlyIn_count (State.onlyIn_count (State.onlyIn_refl s _) (by decide)) (by decide)) (State.onlyIn_setPort _ _ _) (by decide)

theorem State.port_rxOpened (s : State) (n : Nat) (f : RxFrame) : (s.rxOpened n f).port n = (s.port n).drain f.drained f.drained1 :=
  State.port_setPort_same ..

theorem State.partNum_rxOpened (s : State) (n : Nat) (f : RxFrame) : (s.rxOpened n f).partNum = s.partNum :=
  ((s.onlyFields_rxOpened n f).sameDomain (by decide)).partNum

theorem State.portsRecord_rxOpened (s : State) (n : Nat) (f : RxFrame) : (s.rxOpened n f).portsRecord n f = s.portsRecord n f := by
  have hfields := s.onlyFields_rxOpened n f
  have hframe : (s.rxOpened n f).frame = s.frame := s.onlyIn_rxOpened n f .frame (by decide)
  have hports : (s.rxOpened n f).pitchPort f.pitch n = s.pitchPort f.pitch n := by
    rw [State.pitchPort, State.pitchPort, State.pitchOn, State.pitchOn, State.flag_of_fld (hfields.fld _ (by decide)), hfields.fld _ (by decide)]
  rw [State.portsRecord, State.portsRecord, hframe, hports]

/-- The header is one that this part takes. -/
structure State.rxHeader (s : State) (f : RxFrame) : Prop where
  tagged : f.tagged = true
  form : f.form = true
  addressed : f.addressed = true
  dst : f.dst = s.partNum
  numbered : s.partNum ≠ 0xFFFF

theorem State.rxHeader_iff : s.rxHeader f ↔ ¬ (!f.tagged || !f.form || !f.addressed || f.dst ≠ s.partNum || s.partNum = 0xFFFF) = true := by
  simp only [Bool.or_eq_true, Bool.not_eq_true', decide_eq_true_eq, not_or, ne_eq, Bool.not_eq_false, not_not]
  exact ⟨fun ⟨a, b, c, d, e⟩ => ⟨⟨⟨⟨a, b⟩, c⟩, d⟩, e⟩, fun ⟨⟨⟨⟨a, b⟩, c⟩, d⟩, e⟩ => ⟨a, b, c, d, e⟩⟩

/-- Whether a frame whose check sequence is good finds room. -/
def State.rxRoom (s : State) (n : Nat) (f : RxFrame) : Prop := f.wire ≤ rxBuffer - (s.port n).occ

section Checked

theorem State.rxChecked_fcs (h : f.fcs = false) : s.rxChecked n f = s.count F.PRT_FCSERRCNT 1 n := if_pos (by rw [h]; rfl)

variable (hfcs : f.fcs = true)
include hfcs

theorem State.rxChecked_noRoom (h : ¬ s.rxRoom n f) : s.rxChecked n f = s.count F.PRT_RXDROPCNT 1 n :=
  (if_neg (by rw [hfcs]; decide)).trans (if_pos (Nat.lt_of_not_le h))

variable (hroom : s.rxRoom n f)
include hroom

theorem State.rxChecked_header (h : ¬ s.rxHeader f) : s.rxChecked n f = s.count F.PRT_UNDECLCNT 1 n :=
  (if_neg (by rw [hfcs]; decide)).trans <| (if_neg (Nat.not_lt.2 hroom)).trans (if_pos (by_contra fun h' => h (State.rxHeader_iff.2 h')))

theorem State.rxChecked_taken (h : s.rxHeader f) : s.rxChecked n f = s.rxKind n f :=
  (if_neg (by rw [hfcs]; decide)).trans <| (if_neg (Nat.not_lt.2 hroom)).trans (if_neg (State.rxHeader_iff.1 h))

end Checked

section Kind

/-- A kind that the port does not know. -/
theorem State.rxKind_unknown (h : f.kind = 0 ∨ 4 < f.kind) : s.rxKind n f = s.count F.PRT_UNDECLCNT 1 n :=
  (if_neg (by omega)).trans <| (if_neg (by omega)).trans (if_neg (by simp; omega))

/-- Leg data that no PORTS record of the frame names, and leg data of another frame. -/
theorem State.rxKind_undeclared (hkind : f.kind = 1) (h : s.portsRecord n f = none) : s.rxKind n f = s.count F.PRT_UNDECLCNT 1 n := by
  rw [State.rxKind, if_pos hkind, h]

theorem State.rxKind_stale (hkind : f.kind = 1) (h : (s.portsRecord n f).isSome = true) (hframe : f.frame ≠ s.frame.number % 2 ^ 32) :
    s.rxKind n f = s.count F.PRT_STALECNT 1 n := by
  obtain ⟨p, hp⟩ := Option.isSome_iff_exists.1 h
  rw [State.rxKind, if_pos hkind, hp]
  exact if_pos hframe

theorem State.rxKind_leg {p : PortRec × Nat} (hkind : f.kind = 1) (h : s.portsRecord n f = some p) (hframe : f.frame = s.frame.number % 2 ^ 32) :
    s.rxKind n f = s.acceptFrame n f fun s => s.legData n f p.2 := by
  rw [State.rxKind, if_pos hkind, h]
  exact if_neg (not_not_intro hframe)

theorem State.rxKind_message (hkind : f.kind = 2) : s.rxKind n f = s.acceptFrame n f fun s => s.messageFrame f :=
  (if_neg (by omega)).trans (if_pos hkind)

theorem State.rxKind_control (hkind : f.kind = 3 ∨ f.kind = 4) : s.rxKind n f = s.acceptFrame n f id :=
  (if_neg (by omega)).trans <| (if_neg (by omega)).trans (if_pos (by simpa using hkind))

end Kind

/-! A frame dropped. -/

/-- The counters that a dropped frame is counted in. -/
def dropFlds : List Fld := [F.PRT_FCSERRCNT, F.PRT_RXDROPCNT, F.PRT_UNDECLCNT, F.PRT_STALECNT]

theorem State.rxDropped_effect (s : State) (n : Nat) (f : RxFrame) {c : Fld} (hc : c ∈ dropFlds) :
    s.counts ((s.rxOpened n f).count c 1 n) c n ∧ s.onlyIn ((s.rxOpened n f).count c 1 n) [.fields, .fab] ∧
      s.onlyFields ((s.rxOpened n f).count c 1 n) [c, F.PRT_FECCORCNT, F.PRT_FECUNCCNT] ∧
      ((s.rxOpened n f).count c 1 n).port n = { s.port n with occ := (s.port n).occ - f.drained, occ1 := (s.port n).occ1 - f.drained1 } := by
  have hother : ∀ c ∈ dropFlds, c.code % 1024 ∉ [F.PRT_FECCORCNT, F.PRT_FECUNCCNT].map (·.code) := by decide
  have hcode : ∀ c ∈ dropFlds, c.code % 1024 = c.code := by decide
  have hkept : (s.rxOpened n f).fld c n = s.fld c n := (s.onlyFields_rxOpened n f).fld n (hother c hc)
  refine ⟨?_, State.onlyIn_count (s.onlyIn_rxOpened n f) (by decide),
    State.onlyFields_count (State.onlyFields_then (State.onlyFields_refl s _) (s.onlyFields_rxOpened n f) (by simp)) ?_, s.port_rxOpened n f⟩
  · rw [State.counts, State.fld_count_same, hkept]
  · rw [hcode c hc]
    exact List.mem_cons_self

/-! A frame accepted. -/

theorem State.onlyIn_rxTaken (s : State) (n : Nat) (f : RxFrame) : s.onlyIn (s.rxTaken n f) [.fab] :=
  State.onlyIn_trans (State.onlyIn_setPort _ _ _) (State.onlyIn_fab _ _)

/-- The state that a frame accepted is delivered in. -/
def State.rxAccepted (s : State) (n : Nat) (f : RxFrame) : State := (s.rxOpened n f).rxTaken n f

theorem State.onlyIn_rxAccepted (s : State) (n : Nat) (f : RxFrame) : s.onlyIn (s.rxAccepted n f) [.fields, .fab] :=
  State.onlyIn_then (s.onlyIn_rxOpened n f) (State.onlyIn_rxTaken _ n f) (by decide)

theorem State.onlyFields_rxAccepted (s : State) (n : Nat) (f : RxFrame) : s.onlyFields (s.rxAccepted n f) [F.PRT_FECCORCNT, F.PRT_FECUNCCNT] :=
  State.onlyFields_same (s.onlyFields_rxOpened n f) rfl

/-- Its room is taken, its sender heard now; of the fabric's state nothing else differs. -/
theorem State.rxAccepted_fab (s : State) (n : Nat) (f : RxFrame) :
    ((s.rxAccepted n f).port n).occ = (s.port n).occ - f.drained + f.wire ∧
      ∃ ports, (s.rxAccepted n f).fab = { s.fab with ports := ports, heard := SMap.put s.fab.heard f.src s.now } := by
  have hport : (s.rxAccepted n f).port n =
      { (s.rxOpened n f).port n with
        occ := ((s.rxOpened n f).port n).occ + f.wire,
        occ1 := if f.cls = 1 then ((s.rxOpened n f).port n).occ1 + f.wire else ((s.rxOpened n f).port n).occ1 } := State.port_setPort_same ..
  refine ⟨?_, _, rfl⟩
  rw [hport, State.port_rxOpened]
  rfl

/-- The conditions under which a frame is accepted, as the statement names them. -/
theorem State.frameIn_taken (hup : s.flag F.PRT_STATUS_UP n = true) (hclean : f.uncorrected = 0) (hfcs : f.fcs = true)
    (hroom : f.wire ≤ 262144 - ((s.port n).occ - f.drained)) (hheader : s.rxHeader f) : s.frameIn n f = (s.rxOpened n f).rxKind n f := by
  obtain ⟨htagged, hform, haddressed, hdst, hnumbered⟩ := hheader
  rw [State.frameIn_up hup hclean]
  refine State.rxChecked_taken hfcs ?_ ⟨htagged, hform, haddressed, hdst.trans (s.partNum_rxOpened n f).symm, fun h => hnumbered ((s.partNum_rxOpened n f).symm.trans h)⟩
  rw [State.rxRoom, State.port_rxOpened]
  exact hroom

/-- A frame of kind 3 or 4 only takes its room, which from XOFF on pauses its sender. -/
theorem State.control_effect (hpaused : s.fld F.PRT_STATUS_PAUSED_RX n ≠ 15)
    (hfull : 256 * s.fld F.PRT_RXCFG_XOFF n ≤ (s.port n).occ - f.drained + f.wire) {t : State} (ht : t = (s.rxAccepted n f).pauseCheck n) :
    (t.port n).occ = (s.port n).occ - f.drained + f.wire ∧ t.fld F.PRT_STATUS_PAUSED_RX n = 15 ∧ s.counts t F.PRT_PAUSETXCNT n ∧
      SMap.get 0 t.fab.heard f.src = s.now ∧ s.onlyIn t [.fields, .fab] := by
  have hfields := s.onlyFields_rxAccepted n f
  obtain ⟨hocc, ports, hfab⟩ := s.rxAccepted_fab n f
  obtain ⟨hoccKept, ports', hfabKept⟩ := (s.rxAccepted n f).pauseCheck_fab n
  have hsent : t = (s.rxAccepted n f).sendPause n 15 := ht.trans (State.pauseCheck_full (by rwa [hfields.fld _ (by decide)]) (by
    rw [hfields.fld _ (by decide), hocc]; exact hfull))
  obtain ⟨hall, hcount, -, hin, -⟩ := (s.rxAccepted n f).sendPause_effect n
  refine ⟨by rw [ht, hoccKept, hocc], hsent ▸ hall, ?_, ?_, hsent ▸ State.onlyIn_trans (s.onlyIn_rxAccepted n f) hin⟩
  · rw [hsent, State.counts, hcount, hfields.fld _ (by decide)]
  · rw [ht, hfabKept, hfab]
    show SMap.get 0 (SMap.put s.fab.heard f.src s.now) f.src = s.now
    rw [SMap.get, SMap.find?_put_same]
    rfl

end Frame

/-! Leg data (R391). -/

section LegData
variable {s : State} {n site p : Nat} {f : RxFrame}

theorem State.onlyIn_ctrInc (s : State) (site k n : Nat) : s.onlyIn (s.ctrInc site k n) [.fields, .cores, .frame, .hist, .irq] := by
  unfold State.ctrInc
  extract_lets v t
  split
  · exact State.onlyIn_setFld (State.onlyIn_refl s _) (by decide)
  · have ht : s.onlyIn t [.fields, .cores, .frame, .hist, .irq] := State.onlyIn_setFld (State.onlyIn_setFld (State.onlyIn_refl s _) (by decide)) (by decide)
    exact State.onlyIn_then (State.onlyIn_then (State.onlyIn_then ht (t.onlyIn_unitError 1 site (2 ^ causeSync) 1) (by decide))
      (State.actsAt_markSuspect _ site causeSync false).parts (by decide)) (State.onlyIn_raiseRow _ irqHamper site) (by decide)

/-- The bytes delivered and counted to their transfer. -/
def State.legArrived (s : State) (site : Nat) (f : RxFrame) (p : Nat) : State :=
  let t := s.deliver site (f.addr + f.off) f.data false
  { t with fab := { t.fab with arrived := SMap.set 0 t.fab.arrived p (SMap.get 0 t.fab.arrived p + f.data.length) } }

/-- The increment of a counter that a transfer may name. -/
def State.legCounted (s : State) (site : Nat) : Option Nat → State
  | some k => s.ctrInc site k 1
  | none => s

theorem State.onlyIn_legArrived (s : State) (site : Nat) (f : RxFrame) (p : Nat) : s.onlyIn (s.legArrived site f p) [.hamper, .cores, .net, .fab] :=
  State.onlyIn_then (State.onlyIn_mono (s.onlyIn_deliver site (f.addr + f.off) f.data false) (by decide)) (State.onlyIn_fab _ _) (by decide)

theorem State.legArrived_fab (s : State) (site : Nat) (f : RxFrame) (p : Nat) :
    (s.legArrived site f p).fab = { s.fab with arrived := SMap.set 0 s.fab.arrived p (SMap.get 0 s.fab.arrived p + f.data.length) } := by
  have hfab : (s.deliver site (f.addr + f.off) f.data false).fab = s.fab := s.onlyIn_deliver _ _ _ _ .fab (by decide)
  simp only [State.legArrived, hfab]

theorem State.unitsQuiet_legArrived (f : RxFrame) (p : Nat) (hquiet : s.unitsQuiet site) : (s.legArrived site f p).unitsQuiet site :=
  State.unitsQuiet_of_queueAt (State.queueAt_deliver s site (f.addr + f.off) f.data false site) hquiet

section
variable (hpoison : f.poison = false) (hsite : s.liveSite f.core = some site)
include hpoison hsite

/-- Bytes of a transfer that is not whole yet. -/
theorem State.legData_part (n : Nat) (h : SMap.get 0 s.fab.arrived p + f.data.length < f.total) : s.legData n f p = s.legArrived site f p := by
  have hfab : (s.deliver site (f.addr + f.off) f.data false).fab = s.fab := s.onlyIn_deliver _ _ _ _ .fab (by decide)
  unfold State.legData
  simp only [hpoison, hsite, Bool.false_eq_true, if_false]
  exact if_pos (by rw [hfab]; exact h)

/-- The bytes that make it whole raise its counter. -/
theorem State.legData_whole (n : Nat) (hquiet : s.unitsQuiet site) (h : f.total ≤ SMap.get 0 s.fab.arrived p + f.data.length) :
    s.legData n f p = (s.legArrived site f p).legCounted site f.ctr := by
  have hfab : (s.deliver site (f.addr + f.off) f.data false).fab = s.fab := s.onlyIn_deliver _ _ _ _ .fab (by decide)
  have hstill := State.unitsQuiet_legArrived f p hquiet
  unfold State.legData
  simp only [hpoison, hsite, Bool.false_eq_true, if_false]
  refine (if_neg (by rw [hfab]; exact Nat.not_lt.2 h)).trans ?_
  cases f.ctr with
  | none => rfl
  | some k => exact State.restart_quiet (State.unitsQuiet_of_queueAt (State.queueAt_ctrInc ..) hstill)

end

/-- A counter reads one more where the transfer names it and it is not full. -/
theorem State.ctr_legCounted (s : State) (site k : Nat) (h : s.ctr site k < 0xFFFFFF) : (s.legCounted site (some k)).ctr site k = s.ctr site k + 1 := by
  rw [State.legCounted, State.ctr_ctrInc]
  omega

theorem State.legCounted_keeps (s : State) (site : Nat) (ctr : Option Nat) :
    s.onlyIn (s.legCounted site ctr) [.fields, .cores, .frame, .hist, .irq] ∧ s.sameHamper (s.legCounted site ctr) := by
  cases ctr with
  | none => exact ⟨State.onlyIn_refl s _, rfl, fun _ => rfl⟩
  | some k => exact ⟨s.onlyIn_ctrInc site k 1, s.sameHamper_ctrInc site k 1⟩

/-- What leg data does in the state it is delivered in. -/
structure State.legTakes (s t : State) (site : Nat) (f : RxFrame) (p : Nat) : Prop where
  hamper : s.hamperTakes t site (byteWritten (f.addr + f.off) f.data)
  fab : t.fab = { s.fab with arrived := SMap.set 0 s.fab.arrived p (SMap.get 0 s.fab.arrived p + f.data.length) }
  part : SMap.get 0 s.fab.arrived p + f.data.length < f.total → ∀ k, t.ctr site k = s.ctr site k
  whole : f.total ≤ SMap.get 0 s.fab.arrived p + f.data.length → ∀ k, f.ctr = some k → s.ctr site k < 0xFFFFFF → t.ctr site k = s.ctr site k + 1

theorem State.legData_takes (n p : Nat) (hpoison : f.poison = false) (hsite : s.liveSite f.core = some site) (hquiet : s.unitsQuiet site)
    (hgather : (s.core site).gather = []) (hfit : f.addr + f.off + f.data.length ≤ hamperSize) : s.legTakes (s.legData n f p) site f p := by
  have harrived : s.hamperTakes (s.legArrived site f p) site (byteWritten (f.addr + f.off) f.data) :=
    (State.deliver_takes (hgather ▸ gatherOk.nil) hfit).after ⟨rfl, fun _ => rfl⟩
  have hctr (k : Nat) : (s.legArrived site f p).ctr site k = s.ctr site k := State.fld_of_fields (s.onlyIn_legArrived site f p .fields (by decide)) ..
  rcases Nat.lt_or_ge (SMap.get 0 s.fab.arrived p + f.data.length) f.total with hpart | hwhole
  · rw [State.legData_part hpoison hsite n hpart]
    exact ⟨harrived, s.legArrived_fab site f p, fun _ => hctr, fun h => absurd hpart (Nat.not_lt.2 h)⟩
  · rw [State.legData_whole hpoison hsite n hquiet hwhole]
    obtain ⟨hin, hsame⟩ := (s.legArrived site f p).legCounted_keeps site f.ctr
    have hfab : ((s.legArrived site f p).legCounted site f.ctr).fab = (s.legArrived site f p).fab := hin .fab (by decide)
    refine ⟨harrived.after hsame, hfab.trans (s.legArrived_fab site f p), fun h => absurd h (Nat.not_lt.2 hwhole), fun _ k hk hroom => ?_⟩
    rw [hk, State.ctr_legCounted _ _ _ (by rwa [hctr]), hctr]

theorem State.liveSite_rxAccepted (s : State) (n : Nat) (f : RxFrame) (core : Nat) : (s.rxAccepted n f).liveSite core = s.liveSite core := by
  have hfields := s.onlyFields_rxAccepted n f
  have hclear (j : Nat) : (s.rxAccepted n f).clearing j = s.clearing j := State.flag_of_fld (hfields.fld j (by decide))
  rw [State.liveSite, State.liveSite, (hfields.samePlaces (by decide)).coreSite]
  cases s.coreSite core with
  | none => rfl
  | some j => simp only [hclear]

/-- Leg data accepted on a live, quiet core with an empty gather buffer. -/
theorem State.leg_effect (p : Nat) (hpoison : f.poison = false) (hsite : s.liveSite f.core = some site) (hquiet : s.unitsQuiet site)
    (hgather : (s.core site).gather = []) (hfit : f.addr + f.off + f.data.length ≤ hamperSize)
    {t : State} (ht : t = ((s.rxAccepted n f).legData n f p).pauseCheck n) :
    t.hamperRead site (f.addr + f.off) f.data.length = f.data ∧
      s.onlyHamper t site (f.addr + f.off) f.data.length ∧ (t.port n).occ = (s.port n).occ - f.drained + f.wire ∧
      SMap.get 0 t.fab.arrived p = SMap.get 0 s.fab.arrived p + f.data.length ∧
      (SMap.get 0 s.fab.arrived p + f.data.length < f.total → ∀ k, t.ctr site k = s.ctr site k) ∧
      (f.total ≤ SMap.get 0 s.fab.arrived p + f.data.length → ∀ k, f.ctr = some k → k < 64 → s.ctr site k < 0xFFFFFF →
        t.ctr site k = s.ctr site k + 1) := by
  have haccepted := s.onlyIn_rxAccepted n f
  have hcore := haccepted.core (by decide)
  obtain ⟨hhamper, hfab, hpart, hwhole⟩ := State.legData_takes (s := s.rxAccepted n f) n p hpoison ((s.liveSite_rxAccepted n f f.core).trans hsite)
    (fun r hr => hquiet r (hcore site ▸ hr)) ((hcore site).symm ▸ hgather) hfit
  generalize (s.rxAccepted n f).legData n f p = u at *
  obtain ⟨hocc, ports, hopened⟩ := s.rxAccepted_fab n f
  obtain ⟨hoccKept, ports', hfabKept⟩ := u.pauseCheck_fab n
  have hctr (k : Nat) : (s.rxAccepted n f).ctr site k = s.ctr site k := (s.onlyFields_rxAccepted n f).fld _ (by decide)
  have hctrKept (k : Nat) : t.ctr site k = u.ctr site k := ht ▸ (u.onlyFields_pauseCheck n).fld _ (by decide)
  have harrived : (s.rxAccepted n f).fab.arrived = s.fab.arrived := by rw [hopened]
  have htakes : s.hamperTakes t site (byteWritten (f.addr + f.off) f.data) :=
    (hhamper.before (haccepted.sameHamper (by decide) (by decide))).after (ht ▸ (u.onlyIn_pauseCheck n).sameHamper (by decide) (by decide))
  obtain ⟨hread, honly⟩ := htakes.readsBack hfit
  rw [harrived] at hpart hwhole
  refine ⟨hread, honly, ?_, ?_, fun h k => ?_, fun h k hk _ hroom => ?_⟩
  · have hports : u.port n = (s.rxAccepted n f).port n := by rw [State.port, State.port, hfab]
    rw [ht, hoccKept, hports, hocc]
  · rw [ht, hfabKept, hfab, harrived]
    exact SMap.get_set_same ..
  · rw [hctrKept, hpart h, hctr]
  · rw [hctrKept, hwhole h k hk (by rwa [hctr]), hctr]

end LegData

/-! Messages (R392) and credit (R393). -/

section Message
variable {s : State} {n : Nat} {f : RxFrame}

theorem State.onlyIn_link (s : State) (g : LinkSt) : s.onlyIn { s with link := g } [.link] := fun p hp => by
  cases p
  case link => exact absurd (by decide) hp
  all_goals rfl

/-- With no request waiting, nothing is granted. -/
theorem State.grantCredits_idle (fuel : Nat) (h : s.link.credits = []) : State.grantCredits fuel s = s := by
  cases fuel with
  | zero => rfl
  | succ fuel => rw [State.grantCredits, h]

/-- The space of a message taken in is free again; with no request waiting nothing more changes. -/
theorem State.creditBack_idle (src units : Nat) (h : s.link.credits = []) :
    ∃ given, s.creditBack src units = { s with link := { s.link with given := given } } := by
  unfold State.creditBack
  split
  · exact ⟨s.link.given, rfl⟩
  · exact ⟨_, State.grantCredits_idle _ h⟩

/-- The message of a part whose turn it is, handed on. -/
def State.handedOn (s : State) (src : Nat) : State :=
  { s with
    fab := { s.fab with early := s.fab.early.erase (src, SMap.get 0 s.link.nextIn src) }
    link := { s.link with nextIn := SMap.set 0 s.link.nextIn src (SMap.get 0 s.link.nextIn src + 1) } }

theorem State.takeEarly_turn (fuel : Nat) {src : Nat} (h : s.fab.early.contains (src, SMap.get 0 s.link.nextIn src) = true) :
    State.takeEarly (fuel + 1) s src = State.takeEarly fuel (s.handedOn src) src := if_pos h

theorem State.takeEarly_none (fuel : Nat) {src : Nat} (h : ¬ s.fab.early.contains (src, SMap.get 0 s.link.nextIn src) = true) :
    State.takeEarly (fuel + 1) s src = s := if_neg h

/-- Messages handed on in their turn change the next number expected and those kept early. -/
theorem State.takeEarly_keeps (fuel src : Nat) (s : State) :
    ∃ early nextIn, State.takeEarly fuel s src = { s with fab := { s.fab with early := early }, link := { s.link with nextIn := nextIn } } := by
  induction fuel generalizing s with
  | zero => exact ⟨s.fab.early, s.link.nextIn, rfl⟩
  | succ fuel ih =>
    by_cases hturn : s.fab.early.contains (src, SMap.get 0 s.link.nextIn src) = true
    · obtain ⟨early, nextIn, h⟩ := ih (s.handedOn src)
      exact ⟨early, nextIn, (State.takeEarly_turn fuel hturn).trans h⟩
    · exact ⟨s.fab.early, s.link.nextIn, State.takeEarly_none fuel hturn⟩

/-- The only message kept early is the one whose turn it is. -/
theorem State.takeEarly_only {src seq : Nat} (hearly : s.fab.early = [(src, seq)]) (hturn : seq = SMap.get 0 s.link.nextIn src) :
    SMap.get 0 (State.takeEarly 1 s src).link.nextIn src = seq + 1 := by
  have hmine : s.fab.early.contains (src, SMap.get 0 s.link.nextIn src) = true := by rw [hearly, ← hturn]; simp
  rw [State.takeEarly_turn 0 hmine, hturn]
  show SMap.get 0 (SMap.set 0 s.link.nextIn src (SMap.get 0 s.link.nextIn src + 1)) src = _
  exact SMap.get_set_same ..

/-- A whole message kept and acknowledged, its space freed. -/
def State.messageKept (s : State) (f : RxFrame) : State :=
  (State.sendAck { s with fab := { s.fab with
    inbound := s.fab.inbound.filter fun b => !(b.src == f.src && b.seq == f.frame), early := s.fab.early ++ [(f.src, f.frame)] } }
    f.src (some f.frame) 0).creditBack f.src (ceilDiv f.total 256)

/-- One sent twice is only acknowledged. -/
theorem State.messageFrame_twice (h : f.frame < SMap.get 0 s.link.nextIn f.src ∨ s.fab.early.contains (f.src, f.frame) = true) :
    s.messageFrame f = s.sendAck f.src (some f.frame) 0 :=
  if_pos (by simpa using h)

/-- One that comes whole in one frame is kept, and handed on if it is its turn. -/
theorem State.messageFrame_whole (hnext : SMap.get 0 s.link.nextIn f.src ≤ f.frame) (hearly : s.fab.early.contains (f.src, f.frame) = false)
    (hwhole : f.total ≤ f.data.length) (hnone : ∀ b ∈ s.fab.inbound, ¬ (b.src = f.src ∧ b.seq = f.frame)) :
    s.messageFrame f = State.takeEarly (s.messageKept f).fab.early.length (s.messageKept f) f.src := by
  have hfind : (s.fab.inbound.find? fun b => b.src == f.src && b.seq == f.frame) = none :=
    List.find?_eq_none.2 fun b hb => by simpa using hnone b hb
  unfold State.messageFrame
  rw [if_neg (by simp only [hearly]; simpa using hnext)]
  simp only [hfind]
  exact if_neg (by omega)

/-- What a whole message does in the state it is delivered in, no credit request waiting. -/
theorem State.messageFrame_effect (hwhole : f.total ≤ f.data.length) (hnone : ∀ b ∈ s.fab.inbound, ¬ (b.src = f.src ∧ b.seq = f.frame))
    (hcredits : s.link.credits = []) :
    (s.messageFrame f).link.acked = s.link.acked ++ [(f.src, some f.frame, 0)] ∧
      (f.frame = SMap.get 0 s.link.nextIn f.src → s.fab.early = [] → SMap.get 0 (s.messageFrame f).link.nextIn f.src = f.frame + 1) ∧
      (f.frame < SMap.get 0 s.link.nextIn f.src → (s.messageFrame f).link.nextIn = s.link.nextIn ∧ (s.messageFrame f).fab.early = s.fab.early ∧
        (s.messageFrame f).link.given = s.link.given) ∧
      (s.messageFrame f).hamper = s.hamper ∧ (s.messageFrame f).cores = s.cores := by
  by_cases htwice : f.frame < SMap.get 0 s.link.nextIn f.src ∨ s.fab.early.contains (f.src, f.frame) = true
  · rw [State.messageFrame_twice htwice]
    refine ⟨rfl, fun hturn hearly => ?_, fun _ => ⟨rfl, rfl, rfl⟩, rfl, rfl⟩
    rcases htwice with h | h
    · exact absurd hturn (Nat.ne_of_lt h)
    · rw [hearly] at h; cases h
  · obtain ⟨hnext, hnew⟩ := not_or.1 htwice
    rw [State.messageFrame_whole (Nat.le_of_not_lt hnext) (Bool.eq_false_iff.2 hnew) hwhole hnone]
    obtain ⟨given, hkept⟩ : ∃ given, s.messageKept f = _ := State.creditBack_idle f.src (ceilDiv f.total 256) hcredits
    refine ⟨?_, fun hturn hearly => ?_, fun h => absurd h hnext, ?_⟩
    · obtain ⟨early, nextIn, h⟩ := State.takeEarly_keeps (s.messageKept f).fab.early.length f.src (s.messageKept f)
      rw [h, hkept]
      rfl
    · have hone : (s.messageKept f).fab.early = [(f.src, f.frame)] := by
        rw [hkept]
        exact (congrArg (· ++ [(f.src, f.frame)]) hearly).trans rfl
      have hnextIn : (s.messageKept f).link.nextIn = s.link.nextIn := by rw [hkept]; rfl
      rw [hone]
      exact State.takeEarly_only hone (hnextIn ▸ hturn)
    · obtain ⟨early, nextIn, h⟩ := State.takeEarly_keeps (s.messageKept f).fab.early.length f.src (s.messageKept f)
      rw [h, hkept]
      exact ⟨rfl, rfl⟩

/-- A whole message accepted. -/
theorem State.message_effect (hwhole : f.total ≤ f.data.length) (hnone : ∀ b ∈ s.fab.inbound, ¬ (b.src = f.src ∧ b.seq = f.frame))
    (hcredits : s.link.credits = []) {t : State} (ht : t = ((s.rxAccepted n f).messageFrame f).pauseCheck n) :
    t.link.acked = s.link.acked ++ [(f.src, some f.frame, 0)] ∧
      (f.frame = SMap.get 0 s.link.nextIn f.src → s.fab.early = [] → SMap.get 0 t.link.nextIn f.src = f.frame + 1) ∧
      (f.frame < SMap.get 0 s.link.nextIn f.src → t.link.nextIn = s.link.nextIn ∧ t.fab.early = s.fab.early ∧ t.link.given = s.link.given) ∧
      t.hamper = s.hamper ∧ t.cores = s.cores := by
  have haccepted := s.onlyIn_rxAccepted n f
  have hlink : (s.rxAccepted n f).link = s.link := haccepted .link (by decide)
  obtain ⟨-, ports, hopened⟩ := s.rxAccepted_fab n f
  have hinbound : (s.rxAccepted n f).fab.inbound = s.fab.inbound := by rw [hopened]
  have hearly : (s.rxAccepted n f).fab.early = s.fab.early := by rw [hopened]
  obtain ⟨hacked, hturn, htwice, hhamper, hcores⟩ := State.messageFrame_effect (s := s.rxAccepted n f) hwhole (hinbound ▸ hnone) (hlink ▸ hcredits)
  generalize (s.rxAccepted n f).messageFrame f = u at *
  rw [hlink] at hacked hturn htwice
  rw [hearly] at hturn htwice
  have hkept := u.onlyIn_pauseCheck n
  obtain ⟨-, ports', hfab⟩ := u.pauseCheck_fab n
  have hlinkKept : (u.pauseCheck n).link = u.link := hkept .link (by decide)
  have hearlyKept : (u.pauseCheck n).fab.early = u.fab.early := by rw [hfab]
  subst ht
  rw [hlinkKept, hearlyKept]
  exact ⟨hacked, hturn, htwice, (hkept .hamper (by decide)).trans (hhamper.trans (haccepted .hamper (by decide))),
    (hkept .cores (by decide)).trans (hcores.trans (haccepted .cores (by decide)))⟩

end Message

/-! ACK (R392, R393). -/

section Ack
variable {s : State} {src : Nat}

/-- The messages sent, without the one acknowledged. -/
def FwMsg.isNot (src : Nat) (seq : Option Nat) (m : FwMsg) : Bool := !(m.part == src && some m.seq == seq)

theorem State.releaseWaiting_none (h : s.link.waiting = []) : s.releaseWaiting = { s with link := { s.link with waiting := [] } } := by
  rw [State.releaseWaiting, h]
  rfl

/-- An ACK without units, nothing waiting: its message is off the list. -/
theorem State.ackIn_seq (seq : Option Nat) (h : s.link.waiting = []) :
    s.ackIn src seq 0 = { s with link := { s.link with out := s.link.out.filter (FwMsg.isNot src seq), waiting := [] } } := by
  exact State.releaseWaiting_none h

/-- An ACK with units, nothing waiting, returns relay credit. -/
theorem State.ackIn_units {units : Nat} (h : s.link.waiting = []) (hunits : units ≠ 0) :
    s.ackIn src none units = { s with link := { s.link with
      out := s.link.out.filter (FwMsg.isNot src none),
      relayCredit := SMap.set relayRoom s.link.relayCredit src (min relayRoom (SMap.get relayRoom s.link.relayCredit src + 256 * units)),
      waiting := [] } } := by
  have hacked : s.ackIn src none units = State.releaseWaiting { s with link := { s.link with
      out := s.link.out.filter (FwMsg.isNot src none),
      relayCredit := SMap.set relayRoom s.link.relayCredit src (min relayRoom (SMap.get relayRoom s.link.relayCredit src + 256 * units)) } } :=
    congrArg State.releaseWaiting ((if_neg hunits).trans (if_neg (by simp [h])))
  rw [hacked]
  exact State.releaseWaiting_none h

/-- The one message that waits leaves, if it may, and uses up its grant. -/
theorem State.releaseWaiting_one {m : FwMsg} (hwait : s.link.waiting = [m]) (hmay : State.mayTransmit { s with link := { s.link with waiting := [] } } m = true) :
    s.releaseWaiting.link.waiting = [] ∧
      s.releaseWaiting.link.out.getLast? = some { m with seq := SMap.get 0 s.link.nextSeq m.part, sent := some s.now } ∧
      s.onlyIn s.releaseWaiting [.link] := by
  rw [State.releaseWaiting, hwait]
  simp only [State.releaseList]
  rw [if_pos hmay]
  split
  · exact ⟨rfl, List.getLast?_concat, fun p hp => s.onlyIn_link _ p hp⟩
  · exact ⟨rfl, List.getLast?_concat, fun p hp => s.onlyIn_link _ p hp⟩

/-- A larger message that alone waits leaves on its grant. -/
theorem State.ackIn_grant {m : FwMsg} {units : Nat} (hwait : s.link.waiting = [m]) (hgeneral : generalCredit m.type = true) (hbig : 4 < m.units)
    (hunits : m.units ≤ units) : (s.ackIn m.part none units).link.waiting = [] ∧
      (s.ackIn m.part none units).link.out.getLast? = some { m with seq := SMap.get 0 s.link.nextSeq m.part, sent := some s.now } ∧
      s.onlyIn (s.ackIn m.part none units) [.link] := by
  have hpiece : m.type ≠ 0x0402 := by
    intro h
    rw [h] at hgeneral
    exact absurd hgeneral (by decide)
  have hacked : s.ackIn m.part none units = State.releaseWaiting { s with link := { s.link with
      out := s.link.out.filter (FwMsg.isNot m.part none), granted := s.link.granted ++ [m.part] } } := by
    have hmine : (s.link.waiting.any fun w => w.part == m.part && generalCredit w.type && decide (4 < w.units) && decide (w.units ≤ units)) = true := by
      simp [hwait, hgeneral, hbig, hunits]
    exact congrArg State.releaseWaiting ((if_neg (by omega)).trans (if_pos hmine))
  rw [hacked]
  obtain ⟨hnone, hlast, hin⟩ := State.releaseWaiting_one (s := { s with link := { s.link with
    out := s.link.out.filter (FwMsg.isNot m.part none), granted := s.link.granted ++ [m.part] } }) hwait
    (by simp [State.mayTransmit, hpiece, hgeneral, hbig])
  exact ⟨hnone, hlast, State.onlyIn_trans (s.onlyIn_link _) hin⟩

end Ack

/-! MESSAGE_RESEND (R392). -/

section Resend
variable {s : State} {part seq : Nat} {m : FwMsg}

/-- A message sent again, where it is the one named. -/
def FwMsg.again (part seq now : Nat) (m : FwMsg) : FwMsg := if m.part = part && m.seq = seq then { m with tries := m.tries + 1, sent := some now } else m

/-- Whether a message is the one named. -/
def FwMsg.named (part seq : Nat) (m : FwMsg) : Bool := m.part == part && m.seq == seq

theorem FwMsg.named_again (part seq now : Nat) (m : FwMsg) : (m.again part seq now).named part seq = m.named part seq := by
  unfold FwMsg.again
  split <;> rfl

/-- The message named is the first of the list sent again. -/
theorem FwMsg.find_again {l : List FwMsg} (now : Nat) (h : l.find? (FwMsg.named part seq) = some m) :
    (l.map (FwMsg.again part seq now)).find? (FwMsg.named part seq) = some { m with tries := m.tries + 1, sent := some now } := by
  have hnamed : m.named part seq = true := List.find?_some h
  have hsame : (FwMsg.named part seq ∘ FwMsg.again part seq now) = FwMsg.named part seq := funext fun q => q.named_again part seq now
  rw [List.find?_map, hsame, h]
  exact congrArg some (if_pos (by simpa [FwMsg.named] using hnamed))

section
variable (hfind : s.link.out.find? (FwMsg.named part seq) = some m) {x : Nat} (hsent : m.sent = some x)
include hfind hsent

/-- Within 50 µs of its sending nothing happens. -/
theorem State.resend_early (h : s.now < x + 50000) : s.resend part seq = s := by
  unfold FwMsg.named at hfind
  unfold State.resend
  simp only [hfind, hsent]
  exact if_pos (by simpa using h)

/-- Then it is sent again, three times. -/
theorem State.resend_again (h : x + 50000 ≤ s.now) (htries : m.tries < 3) :
    s.resend part seq = State.count { s with link := { s.link with out := s.link.out.map (FwMsg.again part seq s.now) } } F.PRT_RETXCNT := by
  unfold FwMsg.named at hfind
  unfold State.resend
  simp only [hfind, hsent]
  exact (if_neg (by simpa using h)).trans (if_pos htries)

/-- After that it is given up, and the manager told. -/
theorem State.resend_gaveUp (h : x + 50000 ≤ s.now) (htries : 3 ≤ m.tries) :
    ∃ need, s.resend part seq = ((((State.post { s with link := { s.link with out := s.link.out.filter fun q => !(q.part == part && q.seq == seq) } }
      0x00A3 [part, m.type]).count F.PRT_UNREACHCNT).reportMgr need part 0).releaseWaiting) := by
  unfold FwMsg.named at hfind
  unfold State.resend
  simp only [hfind, hsent]
  exact ⟨_, (if_neg (by simpa using h)).trans (if_neg (Nat.not_lt.2 htries))⟩

end

theorem State.onlyIn_reportMgr (s : State) (need peer self : Nat) : s.onlyIn (s.reportMgr need peer self) [.link] := by
  unfold State.reportMgr
  extract_lets m shard
  split
  · exact State.onlyIn_refl s _
  · exact s.onlyIn_sendMsg _ _ _ _

theorem State.onlyIn_releaseList (l : List FwMsg) (s : State) : s.onlyIn (State.releaseList l s) [.link] := by
  induction l generalizing s with
  | nil => exact State.onlyIn_refl s _
  | cons m l ih =>
    rw [State.releaseList]
    split
    · refine State.onlyIn_trans ?_ (ih _)
      split
      · exact s.onlyIn_link _
      · exact s.onlyIn_link _
    · exact State.onlyIn_trans (s.onlyIn_link _) (ih _)

theorem State.onlyIn_releaseWaiting (s : State) : s.onlyIn s.releaseWaiting [.link] :=
  State.onlyIn_trans (s.onlyIn_link _) (State.onlyIn_releaseList _ _)

/-- What giving a message up leaves: the count, the event, and messages to send. -/
theorem State.gaveUp_effect {need type : Nat} {g : LinkSt} {t : State}
    (ht : t = ((((State.post { s with link := g } 0x00A3 [part, type]).count F.PRT_UNREACHCNT).reportMgr need part 0).releaseWaiting)) :
    s.counts t F.PRT_UNREACHCNT ∧ s.tells t 0x00A3 [part, type] ∧ s.onlyIn t [.fields, .link, .host] ∧ s.onlyFields t [F.PRT_UNREACHCNT] := by
  generalize hu : (State.post { s with link := g } 0x00A3 [part, type]).count F.PRT_UNREACHCNT = u at ht
  have hlater : u.onlyIn t [.link] := ht ▸ State.onlyIn_trans (u.onlyIn_reportMgr need part 0) (State.onlyIn_releaseWaiting _)
  have hfields : t.fields = u.fields := hlater .fields (by decide)
  have hbefore : s.onlyIn { s with link := g } [.link] := s.onlyIn_link g
  have hposted : s.onlyIn (State.post { s with link := g } 0x00A3 [part, type]) [.fields, .link, .host] :=
    State.onlyIn_then (State.onlyIn_mono hbefore (by decide)) (State.onlyIn_post _ _ _) (by decide)
  have htells : s.tells u 0x00A3 [part, type] := hu ▸ ((State.tells_post { s with link := g } _ _).before (s := s) rfl rfl).later rfl
  have hcount : s.counts u F.PRT_UNREACHCNT := by
    rw [State.counts, ← hu, State.fld_count_same, State.fld_post]
    rfl
  have honly : s.onlyFields u [F.PRT_UNREACHCNT] :=
    hu ▸ State.onlyFields_count (State.onlyFields_same (State.onlyFields_refl s _) (State.post_fields ..)) (by decide)
  exact ⟨(State.fld_of_fields hfields ..).trans hcount, htells.later (hlater .host (by decide)),
    State.onlyIn_then (hu ▸ State.onlyIn_count hposted (by decide)) hlater (by decide), State.onlyFields_same honly hfields⟩

/-- Beside the rack manager, MESSAGE_RESEND does no more than the transport; nor does it while no message is given up. -/
theorem State.resendAct_eq (h : s.isRack = false ∨ (s.resend part seq).fld F.PRT_UNREACHCNT = s.fld F.PRT_UNREACHCNT)
    (hrack : (s.resend part seq).isRack = s.isRack) : s.resendAct part seq = s.resend part seq := by
  refine if_neg ?_
  rcases h with h | h
  · simp [hrack, h]
  · simp [h]

end Resend

/-! CREDIT_REQUEST (R393). -/

section Request
variable {s : State} {src units : Nat}

theorem State.creditRequest_granted (h : s.link.credits = []) (hroom : (s.link.given.map (·.2)).sum + units ≤ 512) :
    s.creditRequest src units = { s with link := { s.link with
      credits := [], given := SMap.set 0 s.link.given src (SMap.get 0 s.link.given src + units), acked := s.link.acked ++ [(src, none, units)] } } := by
  simp only [State.creditRequest, h, List.nil_append, List.length_singleton, State.grantCredits]
  exact if_neg (Nat.not_lt.2 hroom)

theorem State.creditRequest_waits (h : s.link.credits = []) (hroom : 512 < (s.link.given.map (·.2)).sum + units) :
    s.creditRequest src units = { s with link := { s.link with credits := [(src, units)] } } := by
  simp only [State.creditRequest, h, List.nil_append, List.length_singleton, State.grantCredits]
  exact if_pos hroom

end Request

/-! The statement, command by command. -/

/-- A frame dropped is counted where its check says. -/
theorem State.frameIn_dropped {s : State} {n : Nat} {f : RxFrame} {c : Fld} (hup : s.flag F.PRT_STATUS_UP n = true) (hclean : f.uncorrected = 0)
    (h : (f.fcs = false ∧ c = F.PRT_FCSERRCNT) ∨
      (f.fcs = true ∧ 262144 - ((s.port n).occ - f.drained) < f.wire ∧ c = F.PRT_RXDROPCNT) ∨
      (f.fcs = true ∧ f.wire ≤ 262144 - ((s.port n).occ - f.drained) ∧ c = F.PRT_UNDECLCNT ∧
        (f.tagged = false ∨ f.form = false ∨ f.addressed = false ∨ f.dst ≠ s.partNum ∨ s.partNum = 0xFFFF ∨ f.kind = 0 ∨ 4 < f.kind ∨
          (f.kind = 1 ∧ s.portsRecord n f = none))) ∨
      (f.fcs = true ∧ f.wire ≤ 262144 - ((s.port n).occ - f.drained) ∧ f.tagged = true ∧ f.form = true ∧ f.addressed = true ∧ f.dst = s.partNum ∧
        s.partNum ≠ 0xFFFF ∧ f.kind = 1 ∧ (s.portsRecord n f).isSome = true ∧ f.frame ≠ s.frame.number % 2 ^ 32 ∧ c = F.PRT_STALECNT)) :
    s.frameIn n f = (s.rxOpened n f).count c 1 n ∧ c ∈ dropFlds := by
  have hroom : (s.rxOpened n f).rxRoom n f ↔ f.wire ≤ 262144 - ((s.port n).occ - f.drained) := by
    rw [State.rxRoom, State.port_rxOpened]
    rfl
  have hrecord := s.portsRecord_rxOpened n f
  rcases h with ⟨hfcs, rfl⟩ | ⟨hfcs, hwire, rfl⟩ | ⟨hfcs, hwire, rfl, hwhy⟩ | ⟨hfcs, hwire, htagged, hform, haddressed, hdst, hnumbered, hkind, hsome, hframe, rfl⟩
  · exact ⟨(State.frameIn_up hup hclean).trans (State.rxChecked_fcs hfcs), by simp [dropFlds]⟩
  · exact ⟨(State.frameIn_up hup hclean).trans (State.rxChecked_noRoom hfcs (fun h => absurd hwire (Nat.not_lt.2 (hroom.1 h)))), by simp [dropFlds]⟩
  · refine ⟨?_, by simp [dropFlds]⟩
    by_cases hheader : s.rxHeader f
    · obtain ⟨htagged, hform, haddressed, hdst, hnumbered⟩ := id hheader
      rw [State.frameIn_taken hup hclean hfcs hwire hheader]
      simp only [htagged, hform, haddressed, Bool.true_eq_false, hdst, hnumbered, ne_eq, not_true_eq_false, false_or] at hwhy
      rcases hwhy with hkind | hkind | ⟨hkind, hnone⟩
      · exact State.rxKind_unknown (.inl hkind)
      · exact State.rxKind_unknown (.inr hkind)
      · exact State.rxKind_undeclared hkind (hrecord.trans hnone)
    · rw [State.frameIn_up hup hclean]
      refine State.rxChecked_header hfcs (hroom.2 hwire) fun ⟨htagged, hform, haddressed, hdst, hnumbered⟩ => hheader ?_
      rw [State.partNum_rxOpened] at hdst hnumbered
      exact ⟨htagged, hform, haddressed, hdst, hnumbered⟩
  · refine ⟨?_, by simp [dropFlds]⟩
    rw [State.frameIn_taken hup hclean hfcs hwire ⟨htagged, hform, haddressed, hdst, hnumbered⟩]
    have hnumber : (s.rxOpened n f).frame = s.frame := s.onlyIn_rxOpened n f .frame (by decide)
    exact State.rxKind_stale hkind (hrecord ▸ hsome) (hnumber ▸ hframe)

/-- Settles O54: frames pass the checks in order and are delivered, messages are acknowledged, sent again and given up, and credit is
granted and returned. -/
theorem framesAndCredit : Obligations.FramesAndCredit := by
  unfold Obligations.FramesAndCredit
  intro s n f hn
  have hport : decide (n < portCount) = true := decide_eq_true hn
  refine ⟨fun hup => ?_, fun hup hclean => ⟨fun c hc => ?_, fun hfcs hwire htagged hform haddressed hdst hnumbered => ?_⟩,
    fun src seq units hwait => ⟨fun hunits => ?_, fun hunits => ?_⟩, fun m units hwait hgeneral hbig hunits => ?_, fun m part seq hfind => ?_,
    fun src units hcredits => ⟨fun hroom => ?_, fun hroom => ?_⟩⟩
  · rw [exec_fabricFrameReceived, within_next hport, State.frameIn_down hup]
  · obtain ⟨hdropped, hmem⟩ := State.frameIn_dropped hup hclean hc
    obtain ⟨hcount, hin, hfields, hdrained⟩ := s.rxDropped_effect n f hmem
    rw [exec_fabricFrameReceived, within_next hport, hdropped]
    exact ⟨_, rfl, hcount, hin, hfields, hdrained⟩
  · have htaken := State.frameIn_taken hup hclean hfcs hwire ⟨htagged, hform, haddressed, hdst, hnumbered⟩
    rw [exec_fabricFrameReceived, within_next hport, htaken]
    refine ⟨fun rec p site hkind hrec hframe hsite hpoison hgather hquiet hfit => ?_, fun hkind hwhole hnone hcredits => ?_,
      fun hkind hpaused hfull => ?_⟩
    · have hnumber : (s.rxOpened n f).frame = s.frame := s.onlyIn_rxOpened n f .frame (by decide)
      rw [State.rxKind_leg hkind ((s.portsRecord_rxOpened n f).trans hrec) (hnumber ▸ hframe)]
      exact ⟨_, rfl, State.leg_effect p hpoison hsite hquiet hgather hfit rfl⟩
    · rw [State.rxKind_message hkind]
      exact ⟨_, rfl, State.message_effect hwhole hnone hcredits rfl⟩
    · rw [State.rxKind_control hkind]
      exact ⟨_, rfl, State.control_effect hpaused hfull rfl⟩
  · subst hunits
    rw [exec_ack, State.ackIn_seq (some seq) hwait]
    rfl
  · rw [exec_ack, State.ackIn_units hwait hunits]
    exact ⟨_, rfl, rfl, SMap.get_set_same .., s.onlyIn_link _⟩
  · obtain ⟨hnone, hlast, hin⟩ := State.ackIn_grant hwait hgeneral hbig hunits
    exact ⟨_, exec_ack .., hnone, hlast, hin⟩
  · refine ⟨fun x hsent hearly => ?_, fun x hsent hdue => ⟨fun htries => ?_, fun htries hrack => ?_⟩⟩
    · have hsame := State.resend_early hfind hsent hearly
      rw [exec_messageResend, State.resendAct_eq (.inr (by rw [hsame])) (by rw [hsame]), hsame]
    · have hagain := State.resend_again hfind hsent hdue htries
      have hfields : s.onlyFields (s.resend part seq) [F.PRT_RETXCNT] :=
        hagain ▸ State.onlyFields_count (State.onlyFields_same (State.onlyFields_refl s _) rfl) (by decide)
      rw [exec_messageResend, State.resendAct_eq (.inr (hfields.fld _ (by decide))) (hfields.sameDomain (by decide)).isRack, hagain]
      refine ⟨_, rfl, State.fld_count_same .., FwMsg.find_again s.now hfind, List.length_map .., ?_, hagain ▸ hfields⟩
      exact State.onlyIn_count (State.onlyIn_mono (s.onlyIn_link _) (by decide)) (by decide)
    · obtain ⟨need, hgone⟩ := State.resend_gaveUp hfind hsent hdue htries
      obtain ⟨hcount, htells, hin, hfields⟩ := State.gaveUp_effect (s := s) hgone
      rw [exec_messageResend, State.resendAct_eq (.inl hrack) (hfields.sameDomain (by decide)).isRack]
      exact ⟨_, rfl, hcount, htells, hin, hfields⟩
  · rw [exec_creditRequest, State.creditRequest_granted hcredits hroom]
  · rw [exec_creditRequest, State.creditRequest_waits hcredits hroom]

end Sys2Proof.Machine

/-!
PROOFS of the statement on rails and the thermal trip (13_calibration_and_thermal R425, R426; 14_power_clocks_startup R438 to R445, R451).
-/

namespace Sys2Proof.Machine

/-! What stays through the loss of volatile state. -/

section Lost
variable {s t u : State}

/-- A field whose home is kept reads as before. -/
theorem State.fld_discard_kept (s : State) {keep : List Fld} (pwr : PwrSt) (f : Fld) (i : Nat)
    (h : f.code % 1024 ∈ (keep ++ ledgerFields ++ fusedFields).map (·.code)) : (s.discard keep pwr).fld f i = s.fld f i := by
  have hfind := SMap.find?_filter_key (fun k => ((keep ++ ledgerFields ++ fusedFields).map (·.code)).contains (k % 1024)) s.fields (f.key i)
  rw [if_pos (by rw [Fld.key_mod, List.contains_iff_mem]; exact h)] at hfind
  exact congrArg (Option.getD · f.reset) hfind

/-- The state of the service bus is of no account to the loss. -/
theorem State.volatileLost.ofSmb {x : SmbSt} (h : State.volatileLost { s with smb := x } t) : s.volatileLost t :=
  ⟨h.frame, h.serve, h.memory, h.cores, h.records, h.session, h.security, h.roles, h.history, h.cells⟩

/-- What may change before volatile state is lost: registers, the record of power, what the security records do not keep, the service bus. -/
structure State.beforeLoss (s u : State) : Prop where
  parts : s.onlyIn u [.fields, .pwr, .sec, .smb]
  sec : u.sec.kept = s.sec.kept

theorem State.beforeLoss.refl (s : State) : s.beforeLoss s := ⟨State.onlyIn_refl s _, rfl⟩

theorem State.beforeLoss.then (h : s.beforeLoss t) (hin : t.onlyIn u [.fields, .pwr, .smb]) : s.beforeLoss u :=
  ⟨State.onlyIn_then h.parts hin (by decide), (congrArg SecSt.kept (hin .sec (by decide))).trans h.sec⟩

theorem State.beforeLoss_audit (s : State) (fn action result code target : Nat) : s.beforeLoss (s.audit fn action result code target) :=
  ⟨State.onlyIn_mono (State.onlyIn_audit s _ _ _ _ _ _) (by decide), rfl⟩

theorem State.beforeLoss.discard (h : s.beforeLoss u) {keep : List Fld} (pwr : PwrSt)
    (hkeep : F.SEC_FN_ROLE_ROLE.code % 1024 ∉ (keep ++ ledgerFields ++ fusedFields).map (·.code)) : s.volatileLost (u.discard keep pwr) := by
  refine State.volatileLost.ofSmb (x := u.smb) (State.volatileLost_discard pwr (fun p hp => ?_) h.sec hkeep)
  by_cases hsmb : p = .smb
  · subst hsmb
    rfl
  · have hsame : p.same s u := h.parts p (by simp only [List.mem_cons, not_or] at hp ⊢; exact ⟨hp.1, hp.2.1, hp.2.2.1, hsmb, hp.2.2.2⟩)
    cases p
    case smb => exact absurd rfl hsmb
    all_goals exact hsame

theorem State.onlyIn_alertRaise (s : State) : s.onlyIn s.alertRaise [.smb] := fun p hp => by
  cases p
  case smb => exact absurd (by decide) hp
  all_goals rfl

end Lost

/-! Off, and rail faults (R445, R451). -/

section Off
variable {s u : State} {i : Nat}

/-- With no start wanted, lowering leaves the sequencer lowering or at rest, its record otherwise as it was. -/
theorem State.railsLower_pwr (h : s.pwr.want = false) :
    ∃ seq seqAt en, s.railsLower.pwr = { s.pwr with seq := seq, seqAt := seqAt, en := en } ∧ ∀ i, seq ≠ .raise i := by
  unfold State.railsLower
  split
  · next i _ => exact ⟨.lower i, s.now, s.pwr.en.filter (· != i), rfl, nofun⟩
  · rw [State.startBegin_barred (by simp [State.startBarred, h])]
    exact ⟨.idle, s.pwr.seqAt, s.pwr.en, rfl, nofun⟩

/-- The fields that Off keeps beside the always-on ones. -/
def offKept : List Fld := [F.PWR_RAIL_DATA_STATE, F.PWR_RAIL_DATA_MEAS_MV, F.PWR_RAIL_DATA_CMD_MV, F.PWR_BOOT_STAGE, F.PWR_BOOT_START]

/-- What Off by a write or a rail fault leaves, no start wanted. -/
theorem State.goOff_effect (h : s.beforeLoss u) (hwant : u.pwr.want = false) :
    s.volatileLost u.goOff ∧ u.goOff.isOff = true ∧ u.goOff.flag F.PWR_STATUS_RAIL_FAULT = u.flag F.PWR_STATUS_RAIL_FAULT ∧
      u.goOff.pwr.offHeld = true ∧ u.goOff.pwr.seqOk = u.pwr.seqOk ∧ ∀ i, u.goOff.pwr.seq ≠ .raise i := by
  have hlost := h.discard (keep := aonFields ++ offKept) u.pwr.afterReset (by decide)
  have hkept : (u.discard (aonFields ++ offKept) u.pwr.afterReset).fld F.PWR_STATUS_RAIL_FAULT = u.fld F.PWR_STATUS_RAIL_FAULT :=
    u.fld_discard_kept _ F.PWR_STATUS_RAIL_FAULT 0 (by decide)
  have hdef : u.goOff = (((u.discard (aonFields ++ offKept) u.pwr.afterReset).onPwr fun p => { p with offHeld := true }).setFld F.PWR_STATUS_STATE 3).railsLower := rfl
  have hpwr : (u.discard (aonFields ++ offKept) u.pwr.afterReset).pwr = u.pwr.afterReset := rfl
  rw [hdef]
  generalize u.discard (aonFields ++ offKept) u.pwr.afterReset = d at *
  generalize ho : (d.onPwr fun p => { p with offHeld := true }).setFld F.PWR_STATUS_STATE 3 = o
  have hopwr : o.pwr = { d.pwr with offHeld := true } := ho ▸ rfl
  have howant : o.pwr.want = false := by rw [hopwr, hpwr]; exact hwant
  have hoin : d.onlyIn o [.fields, .pwr] := ho ▸ State.onlyIn_setFld (State.onlyIn_onPwr (State.onlyIn_refl d _) (by decide)) (by decide)
  have hofields : d.onlyFields o [F.PWR_STATUS_STATE] := ho ▸ State.onlyFields_setFld (State.onlyFields_onPwr (State.onlyFields_refl d _)) (by decide)
  have hostate : o.fld F.PWR_STATUS_STATE = 3 := ho ▸ State.fld_setFld_same ..
  obtain ⟨hlowerIn, hlowerFields⟩ := State.railsLower_unwanted howant
  obtain ⟨seq, seqAt, en, hlower, hseq⟩ := State.railsLower_pwr howant
  refine ⟨(hlost.later (State.onlyIn_mono hoin (by decide)) hofields (by decide)).later (State.onlyIn_mono hlowerIn (by decide)) hlowerFields (by decide),
    ?_, ?_, ?_, ?_, ?_⟩
  · rw [State.isOff, hlowerFields.fld _ (by decide), hostate]
    rfl
  · exact State.flag_of_fld ((hlowerFields.fld _ (by decide)).trans ((hofields.fld _ (by decide)).trans hkept))
  · rw [hlower, hopwr]
  · rw [hlower, hopwr, hpwr]
    rfl
  · rw [hlower]
    exact hseq

/-- The registers and the record of power that a rail fault leaves before Off. -/
def State.railFaulted (s : State) (i : Nat) : State :=
  let t := (s.setFld F.PWR_BOOT_DATA_OUTCOME 2 0).setFld F.PWR_BOOT_DATA_DETAIL (withBit (s.fld F.PWR_BOOT_DATA_DETAIL 0) i) 0
  (((t.alertRaise.setFld F.PWR_STATUS_RAIL_FAULT 1).setFld F.PWR_RESET_LASTCAUSE 4).setFld F.PWR_RAIL_DATA_STATE 3 i).onPwr
    fun p => { p with want := false, begun := none, faultDue := none }

theorem State.railFaultNow_eq (s : State) (i : Nat) : s.railFaultNow i = (s.railFaulted i).goOff := rfl

theorem State.onlyIn_railFaulted (s : State) (i : Nat) : s.onlyIn (s.railFaulted i) [.fields, .pwr, .smb] :=
  State.onlyIn_onPwr (State.onlyIn_setFld (State.onlyIn_setFld (State.onlyIn_setFld (State.onlyIn_then (State.onlyIn_setFld (State.onlyIn_setFld
    (State.onlyIn_refl s _) (by decide)) (by decide)) (State.onlyIn_alertRaise _) (by decide)) (by decide)) (by decide)) (by decide)) (by decide)

/-- A rail fault while no frame runs: Off, held, with RAIL_FAULT set. -/
theorem State.railFault_effect (h : s.beforeLoss u) (hruns : u.frame.st ≠ .running) (i : Nat) :
    s.volatileLost (u.railFault i) ∧ (u.railFault i).isOff = true ∧ (u.railFault i).flag F.PWR_STATUS_RAIL_FAULT = true ∧
      (u.railFault i).pwr.offHeld = true ∧ (u.railFault i).pwr.seqOk = u.pwr.seqOk ∧ ∀ j, (u.railFault i).pwr.seq ≠ .raise j := by
  have hfault : (u.railFaulted i).flag F.PWR_STATUS_RAIL_FAULT = true := by
    have hfld : (u.railFaulted i).fld F.PWR_STATUS_RAIL_FAULT = 1 := by
      simp (disch := decide) [State.railFaulted, State.fld_setFld_of_code, F.PWR_STATUS_RAIL_FAULT]
    rw [State.flag, hfld]
    rfl
  obtain ⟨hlost, hoff, hkept, hheld, hok, hseq⟩ := State.goOff_effect (h.then (u.onlyIn_railFaulted i)) rfl
  rw [show u.railFault i = (u.railFaulted i).goOff from if_neg hruns]
  exact ⟨hlost, hoff, hkept.trans hfault, hheld, hok, hseq⟩

/-- While a frame runs the fault waits for the boundary; either way the count of good readings stands. -/
theorem State.seqOk_railFault (u : State) (i : Nat) : (u.railFault i).pwr.seqOk = u.pwr.seqOk := by
  by_cases hruns : u.frame.st = .running
  · rw [State.railFault, if_pos hruns]
    rfl
  · obtain ⟨-, -, -, -, hok, -⟩ := State.railFault_effect (.refl u) hruns i
    exact hok

end Off

/-! A rail is raised (R438, R441). -/

section Ramp
variable {s : State} {i mv : Nat}

/-- A reading taken from a rail that is raised: noted, and counted while it is in tolerance. -/
def State.rampTaken (s : State) (i mv : Nat) : State :=
  ((s.pmbOk i).setFld F.PWR_RAIL_DATA_MEAS_MV mv i).onPwr fun p => { p with seqOk := if s.railIn i mv then s.pwr.seqOk + 1 else 0 }

/-- What follows a reading: the next rail, a fault once 10 ms are over, or another reading. -/
def State.rampJudged (s : State) (i : Nat) : State :=
  if 2 ≤ s.pwr.seqOk then
    match railAfter raiseOrder i with
    | some j => (s.setFld F.PWR_RAIL_DATA_STATE 2 i).railOn j
    | none => (s.setFld F.PWR_RAIL_DATA_STATE 2 i).onPwr fun p => { p with seq := .idle }
  else if s.pwr.seqAt + 10000000 ≤ s.now then s.railFault i
  else s

theorem State.railRamp_idle (h : s.pwr.seq = .idle) (r : Option Nat) : s.railRamp r = s := by
  cases r <;> simp only [State.railRamp, h]

theorem State.railRamp_read (h : s.pwr.seq = .raise i) (mv : Nat) : s.railRamp (some mv) = (s.rampTaken i mv).rampJudged i := by
  have htol : ((s.pmbOk i).setFld F.PWR_RAIL_DATA_MEAS_MV mv i).railIn i mv = s.railIn i mv := by
    have hset : ((s.pmbOk i).setFld F.PWR_RAIL_DATA_MEAS_MV mv i).railSet i = s.railSet i :=
      State.fld_setFld_of_code _ _ _ _ _ _ (by decide) (by decide) (by decide)
    rw [State.railIn, State.railIn, hset]
  unfold State.railRamp
  simp only [h, htol]
  rfl

theorem State.rampTaken_pwr (s : State) (i mv : Nat) :
    (s.rampTaken i mv).pwr.seqOk = (if s.railIn i mv then s.pwr.seqOk + 1 else 0) ∧ (s.rampTaken i mv).pwr.seqAt = s.pwr.seqAt ∧
      (s.rampTaken i mv).pwr.seq = s.pwr.seq ∧ (s.rampTaken i mv).now = s.now ∧ s.onlyIn (s.rampTaken i mv) [.fields, .pwr] :=
  ⟨rfl, rfl, rfl, rfl, State.onlyIn_onPwr (State.onlyIn_setFld (State.onlyIn_onPwr (State.onlyIn_refl s _) (by decide)) (by decide)) (by decide)⟩

/-- The first reading in tolerance is counted. -/
theorem State.railRamp_first (h : s.pwr.seq = .raise i) (hin : s.railIn i mv = true) (hok : s.pwr.seqOk = 0) :
    (s.railRamp (some mv)).pwr.seqOk = 1 ∧ (s.now < s.pwr.seqAt + 10000000 →
      (s.railRamp (some mv)).pwr.seq = .raise i ∧ (s.railRamp (some mv)).fld F.PWR_RAIL_DATA_STATE i = s.fld F.PWR_RAIL_DATA_STATE i) := by
  obtain ⟨hcount, hat, hseq, hnow, -⟩ := s.rampTaken_pwr i mv
  rw [hin, if_pos rfl, hok] at hcount
  have hstate : (s.rampTaken i mv).fld F.PWR_RAIL_DATA_STATE i = s.fld F.PWR_RAIL_DATA_STATE i :=
    State.fld_setFld_of_code _ _ _ _ _ _ (by decide) (by decide) (by decide)
  rw [State.railRamp_read h, State.rampJudged, if_neg (by omega), hat, hnow]
  by_cases hlate : s.pwr.seqAt + 10000000 ≤ s.now
  · rw [if_pos hlate]
    exact ⟨(State.seqOk_railFault _ i).trans hcount, fun h => absurd hlate (Nat.not_le.2 h)⟩
  · rw [if_neg hlate]
    exact ⟨hcount, fun _ => ⟨hseq.trans h, hstate⟩⟩

theorem railAfter_ne : ∀ i ∈ raiseOrder, ∀ j, railAfter raiseOrder i = some j → i ≠ j := by
  simp only [raiseOrder, List.forall_mem_cons, railAfter]
  decide +revert

/-- The second in a row makes the rail good, and the next is enabled. -/
theorem State.railRamp_second (hi : i ∈ raiseOrder) (h : s.pwr.seq = .raise i) (hin : s.railIn i mv = true) (hok : 1 ≤ s.pwr.seqOk) :
    (s.railRamp (some mv)).fld F.PWR_RAIL_DATA_STATE i = 2 ∧
      (∀ j, railAfter raiseOrder i = some j → (s.railRamp (some mv)).pwr.seq = .raise j ∧ j ∈ (s.railRamp (some mv)).pwr.en ∧
        (s.railRamp (some mv)).fld F.PWR_RAIL_DATA_STATE j = 1) ∧
      (railAfter raiseOrder i = none → (s.railRamp (some mv)).pwr.seq = .idle) := by
  obtain ⟨hcount, -, -, -, -⟩ := s.rampTaken_pwr i mv
  rw [hin, if_pos rfl] at hcount
  rw [State.railRamp_read h, State.rampJudged, if_pos (by omega)]
  generalize s.rampTaken i mv = t
  have hgood : (t.setFld F.PWR_RAIL_DATA_STATE 2 i).fld F.PWR_RAIL_DATA_STATE i = 2 := State.fld_setFld_same ..
  cases hafter : railAfter raiseOrder i with
  | none => exact ⟨hgood, nofun, fun _ => rfl⟩
  | some j =>
    refine ⟨(State.fld_setFld_place _ _ _ _ _ (railAfter_ne i hi j hafter)).trans hgood, fun k hk => ?_, nofun⟩
    obtain rfl := Option.some.inj hk
    refine ⟨rfl, ?_, State.fld_setFld_same ..⟩
    show j ∈ if t.pwr.en.contains j then t.pwr.en else j :: t.pwr.en
    split
    · next hmem => exact List.contains_iff_mem.1 hmem
    · exact List.mem_cons_self

/-- A rail out of tolerance 10 ms after its enable, or its fourth failed transaction in a row, is a rail fault. -/
theorem State.railRamp_fault (h : s.pwr.seq = .raise i) (hruns : s.frame.st ≠ .running) {r : Option Nat}
    (hr : (∃ mv, r = some mv ∧ s.railIn i mv = false ∧ s.pwr.seqAt + 10000000 ≤ s.now) ∨ (r = none ∧ 3 ≤ SMap.get 0 s.pwr.pmbFails i)) :
    ∃ u, s.beforeLoss u ∧ u.frame.st ≠ .running ∧ s.railRamp r = u.railFault i := by
  rcases hr with ⟨mv, rfl, hout, hlate⟩ | ⟨rfl, hfails⟩
  · obtain ⟨hcount, hat, -, hnow, hin⟩ := s.rampTaken_pwr i mv
    rw [hout, if_neg Bool.false_ne_true] at hcount
    refine ⟨s.rampTaken i mv, (State.beforeLoss.refl s).then (State.onlyIn_mono hin (by decide)), hruns, ?_⟩
    rw [State.railRamp_read h, State.rampJudged, if_neg (by omega), hat, hnow, if_pos hlate]
  · generalize hu : (s.count F.PWR_PMBERRCNT).onPwr (fun p => { p with pmbFails := SMap.set 0 p.pmbFails i (SMap.get 0 s.pwr.pmbFails i + 1) }) = u
    have hbefore : s.beforeLoss u := hu ▸ (State.beforeLoss.refl s).then
      (State.onlyIn_onPwr (State.onlyIn_count (State.onlyIn_refl s _) (by decide)) (by decide))
    have hstill : u.frame.st ≠ .running := hu ▸ hruns
    have hfail : s.pmbFail i = u.railFault i := hu ▸ if_pos (by omega)
    obtain ⟨-, -, -, -, -, hseq⟩ := State.railFault_effect hbefore hstill i
    refine ⟨u, hbefore, hstill, ?_⟩
    unfold State.railRamp
    simp only [h, hfail]
    exact if_neg (by simp [hseq i])

end Ramp

/-! Polls and alerts (R442, R444, R445). -/

section Poll
variable {s : State}

theorem State.pmbusPoll_barred (r : List (Nat × Option Nat)) (h : 2 ≤ s.fld F.PWR_STATUS_STATE ∨ s.pwr.seq ≠ .idle) : s.pmbusPoll r = s :=
  if_pos (by simpa using h)

/-- A reading of VDD_CORE noted. -/
def State.coreRead (s : State) (mv : Nat) : State := (s.pmbOk 0).setFld F.PWR_RAIL_DATA_MEAS_MV mv 0

theorem State.pmbusPoll_core {mv : Nat} (hstate : s.fld F.PWR_STATUS_STATE < 2) (hidle : s.pwr.seq = .idle) (hen : s.pwr.en.contains 0 = true) :
    s.pmbusPoll [(0, some mv)] = (s.coreRead mv).deficitPoll := by
  have hpower : (s.coreRead mv).isOff = false := by
    have hkept : (s.coreRead mv).fld F.PWR_STATUS_STATE = s.fld F.PWR_STATUS_STATE :=
      State.fld_setFld_of_code _ _ _ _ _ _ (by decide) (by decide) (by decide)
    simp [State.isOff, hkept]
    omega
  have hmine : ([(0, some mv)] : List (Nat × Option Nat)).filter (fun r => s.pwr.en.contains r.1) = [(0, some mv)] := by
    rw [List.filter_cons_of_pos (by exact hen), List.filter_nil]
  refine (if_neg (by simp [hidle]; omega)).trans ?_
  simp only [hmine]
  exact if_pos (by rw [Bool.and_eq_true, Bool.not_eq_true']; exact ⟨hpower, rfl⟩)

/-- The deficit of VDD_CORE that a reading shows, VDD_SRAM having none. -/
theorem State.worstDeficit_core {mv : Nat} (hsmall : mv < 8192) (hdeficit : mv + 10 < s.railSet 0)
    (hsram : s.railSet 1 ≤ s.fld F.PWR_RAIL_DATA_MEAS_MV 1) : (s.coreRead mv).worstDeficit = (0, ((s.railSet 0 - mv : Nat) : Int)) := by
  have hset (i : Nat) : (s.coreRead mv).railSet i = s.railSet i := State.fld_setFld_of_code _ _ _ _ _ _ (by decide) (by decide) (by decide)
  have hcore : (s.coreRead mv).fld F.PWR_RAIL_DATA_MEAS_MV 0 = mv := (State.fld_setFld_same ..).trans (Nat.mod_eq_of_lt hsmall)
  have hother : (s.coreRead mv).fld F.PWR_RAIL_DATA_MEAS_MV 1 = s.fld F.PWR_RAIL_DATA_MEAS_MV 1 :=
    State.fld_setFld_place _ _ _ _ _ (by decide)
  unfold State.worstDeficit
  simp only [hset, hcore, hother]
  rw [if_neg (by omega)]
  exact congrArg (Prod.mk 0) (by omega)

/-- The fourth reading in a row with a deficit degrades the part. -/
theorem State.deficitPoll_degrades {rail d : Nat} (hworst : s.worstDeficit = (rail, (d : Int))) (hlow : 10 < d) (hhigh : d ≤ 170)
    (hclear : s.flag F.PWR_STATUS_DEGRADED = false) (hshort : s.pwr.short = 3) :
    s.deficitPoll.flag F.PWR_STATUS_DEGRADED = true ∧ s.deficitPoll.pwr.lowMhz = deficitMhz d ∧
      s.deficitPoll.fld F.PWR_SHORTCNT = min (s.fld F.PWR_SHORTCNT + 1) (2 ^ F.PWR_SHORTCNT.width - 1) := by
  generalize ht : s.onPwr (fun p => { p with short := p.short + 1, good := 0, reads := p.reads + 1 }) = t
  have hshort' : t.pwr.short = 4 := by rw [← ht]; exact congrArg (· + 1) hshort
  have hclear' : t.flag F.PWR_STATUS_DEGRADED = false := ht ▸ hclear
  have hdef : s.deficitPoll = ((t.onPwr fun p => { p with lowMhz := deficitMhz d, reads := 0 }).count F.PWR_SHORTCNT).setDegraded true rail := by
    have hbad : decide (10 < (d : Int)) = true := decide_eq_true (by omega)
    unfold State.deficitPoll
    simp only [hworst, hbad, if_true, ht, hclear', Bool.not_false, hshort']
    exact (if_neg (by omega)).trans (if_pos (Nat.le_refl 4))
  rw [hdef]
  generalize hu : (t.onPwr fun p => { p with lowMhz := deficitMhz d, reads := 0 }).count F.PWR_SHORTCNT = u
  have hpwr : (u.setDegraded true rail).pwr = u.pwr := by
    rw [State.setDegraded, State.post_pwr, State.setClock_pwr, State.raiseBoth_pwr, State.setFlag_pwr]
  have hfld (f : Fld) (h1 : f.code % 1024 ∉ [F.GLB_CORE_FREQ_MHZ, F.GLB_CLKSTAT_STRETCH].map (·.code))
      (h2 : f.code % 1024 ∉ [F.INTC_PEND, F.INTC_MERGECNT].map (·.code)) :
      (u.setDegraded true rail).fld f = (u.setFlag F.PWR_STATUS_DEGRADED true).fld f := by
    rw [State.setDegraded, State.fld_post, State.fld_setClock _ _ _ h1, State.fld_raiseBoth _ _ _ _ h2]
  have hcount : u.fld F.PWR_SHORTCNT = min (s.fld F.PWR_SHORTCNT + 1) (2 ^ F.PWR_SHORTCNT.width - 1) := by
    rw [← hu, State.fld_count_same, State.fld_onPwr, ← ht, State.fld_onPwr]
  refine ⟨(State.flag_of_fld (hfld _ (by decide) (by decide))).trans (State.flag_setFlag_same u (f := F.PWR_STATUS_DEGRADED) true 0 rfl), ?_, ?_⟩
  · rw [hpwr, ← hu]
    rfl
  · rw [hfld _ (by decide) (by decide), State.fld_setFlag_of_code _ _ _ _ _ _ (by decide) (by decide) (by decide), hcount]

/-- PM_ALERT with one rail's status. -/
theorem State.pmAlert_one {i w : Nat} (hen : s.pwr.en.contains i = true) :
    s.pmAlert [(i, some w)] = if statusBad w then ((s.raiseBoth 331).pmbOk i).railFault i else (s.raiseBoth 331).pmbOk i := by
  have hmine : ([(i, some w)] : List (Nat × Option Nat)).filter (fun r => (s.raiseBoth 331).pwr.en.contains r.1) = [(i, some w)] := by
    rw [State.raiseBoth_pwr, List.filter_cons_of_pos (by exact hen), List.filter_nil]
  simp only [State.pmAlert, hmine]
  rfl

end Poll

/-! VPP_ARR (R442). -/

section Vpp
variable {s : State}

theorem State.vppRaise_off (hstate : s.fld F.PWR_STATUS_STATE < 2) (hen : s.pwr.en.contains 3 = false) :
    s.vppRaise = (s.onPwr fun p => { p with en := 3 :: p.en, vppLast := none }).setFld F.PWR_RAIL_DATA_STATE 1 3 := by
  refine if_neg ?_
  rw [hen]
  simpa using hstate

theorem State.vppRaise_on (hen : s.pwr.en.contains 3 = true) : s.vppRaise = s := if_pos (by rw [hen]; simp)

theorem State.vppReady_on (hen : s.pwr.en.contains 3 = true) :
    s.vppReady = ((s.setFld F.PWR_STATUS_VPP_ON 1).setFld F.PWR_RAIL_DATA_STATE 2 3).kickJobs := if_neg (by rw [hen]; decide)

theorem State.vppLower_due {x : Nat} (hlast : s.pwr.vppLast = some x) (hnone : s.supplyCount = 0) (hdue : x + 1000000000 ≤ s.now) :
    s.vppLower = ((s.onPwr fun p => { p with en := p.en.filter (· != 3), vppLast := none }).setFld F.PWR_STATUS_VPP_ON 0).setFld F.PWR_RAIL_DATA_STATE 0 3 := by
  unfold State.vppLower
  rw [hlast]
  exact if_neg (by simp [hnone, hdue])

theorem State.vppLower_early {x : Nat} (hlast : s.pwr.vppLast = some x) (h : s.supplyCount ≠ 0 ∨ s.now < x + 1000000000) : s.vppLower = s := by
  unfold State.vppLower
  rw [hlast]
  exact if_pos (by simpa using h)

end Vpp

/-! The thermal trip (R425, R426, R440). -/

section Trip
variable {s u : State}

/-- The registers of a trip. -/
def State.tripLatched (s : State) (low opn : Bool) : State :=
  (((s.alertRaise.setFld F.THM_TRIP_TRIPPED 1).setFlag F.THM_TRIP_LOW low).setFlag F.THM_TRIP_OPEN opn).onPwr
    fun p => { p with tripPin := true, want := false, begun := none, en := [], seq := .idle }

/-- The fields that a trip keeps beside the always-on ones. -/
def tripKept : List Fld := [F.PWR_RAIL_DATA_CMD_MV, F.PWR_RAIL_DATA_MEAS_MV, F.PWR_BOOT_STAGE, F.PWR_BOOT_START]

/-- The comparator trips once: the cause is latched, every enable is off and volatile state is lost. -/
theorem State.trip_effect (h : s.beforeLoss u) (low opn : Bool) (hfirst : u.flag F.THM_TRIP_TRIPPED = false) (haon : u.pwr.aon = true) :
    s.volatileLost (u.trip low opn) ∧ (u.trip low opn).isOff = true ∧ (u.trip low opn).flag F.THM_TRIP_TRIPPED = true ∧
      (u.trip low opn).flag F.THM_TRIP_LOW = low ∧ (u.trip low opn).flag F.THM_TRIP_OPEN = opn ∧ (u.trip low opn).pwr.tripPin = true ∧
      (u.trip low opn).pwr.en = [] := by
  have hdef : u.trip low opn = ((u.tripLatched low opn).discard (aonFields ++ tripKept) (u.tripLatched low opn).pwr.afterReset).setFld F.PWR_STATUS_STATE 3 :=
    if_neg (by simp [hfirst, haon])
  have hin : u.onlyIn (u.tripLatched low opn) [.fields, .pwr, .smb] :=
    State.onlyIn_onPwr (State.onlyIn_setFlag (State.onlyIn_setFlag (State.onlyIn_setFld (State.onlyIn_mono u.onlyIn_alertRaise (by decide))
      (by decide)) (by decide)) (by decide)) (by decide)
  have hlost := (h.then hin).discard (keep := aonFields ++ tripKept) (u.tripLatched low opn).pwr.afterReset (by decide)
  have hkept (f : Fld) (hf : f.code % 1024 ∈ ((aonFields ++ tripKept) ++ ledgerFields ++ fusedFields).map (·.code))
      (hne : f.code < 1024 ∧ f.code ≠ F.PWR_STATUS_STATE.code) : (u.trip low opn).fld f = (u.tripLatched low opn).fld f := by
    rw [hdef, State.fld_setFld_of_code _ _ _ _ _ _ (by decide) hne.1 hne.2, State.fld_discard_kept _ _ _ _ hf]
  have htripped : (u.tripLatched low opn).fld F.THM_TRIP_TRIPPED = 1 := by
    simp (disch := decide) [State.tripLatched, State.fld_setFlag_of_code, F.THM_TRIP_TRIPPED]
  have hlow : (u.tripLatched low opn).flag F.THM_TRIP_LOW = low :=
    (State.flag_of_fld (State.fld_setFlag_of_code _ _ _ _ _ _ (by decide) (by decide) (by decide))).trans
      (State.flag_setFlag_same _ (f := F.THM_TRIP_LOW) low 0 rfl)
  have hopn : (u.tripLatched low opn).flag F.THM_TRIP_OPEN = opn := State.flag_setFlag_same _ (f := F.THM_TRIP_OPEN) opn 0 rfl
  refine ⟨?_, ?_, ?_, (State.flag_of_fld (hkept _ (by decide) (by decide))).trans hlow, (State.flag_of_fld (hkept _ (by decide) (by decide))).trans hopn,
    by rw [hdef]; rfl, by rw [hdef]; rfl⟩
  · rw [hdef]
    exact hlost.later (fs := [F.PWR_STATUS_STATE]) (State.onlyIn_setFld (State.onlyIn_refl _ _) (by decide))
      (State.onlyFields_setFld (State.onlyFields_refl _ _) (by decide)) (by decide)
  · have hstate : (u.trip low opn).fld F.PWR_STATUS_STATE = 3 := hdef ▸ State.fld_setFld_same ..
    rw [State.isOff, hstate]
    rfl
  · rw [State.flag, hkept _ (by decide) (by decide), htripped]
    rfl

end Trip

/-! The statement, command by command. -/

/-- Settles O51: rails are raised, watched and lowered, and the thermal trip latches. -/
theorem railsAndTrip : Obligations.RailsAndTrip := by
  unfold Obligations.RailsAndTrip
  intro s
  refine ⟨fun hidle r => ?_, fun i mv hi hraise hin => ⟨fun hok => ⟨_, exec_railRampRead .., State.railRamp_first hraise hin hok⟩,
      fun hok => ⟨_, exec_railRampRead .., State.railRamp_second hi hraise hin hok⟩⟩,
    fun i _ hruns hraise r hr => ?_, fun r hbarred hr => ?_, fun mv hstate hidle hen hclear hshort hsmall hdeficit hlimit hsram => ?_,
    fun i w hi hen hruns => ⟨fun hbad => ?_, fun hgood => ?_⟩, fun hstate hen => ?_, fun hen => ⟨?_, ?_⟩,
    fun x hlast => ⟨fun hnone hdue => ?_, fun h => ?_⟩, fun fn hfn hopen => ?_, fun low opn hcond hblank hfirst haon => ?_, fun low opn hblank => ?_⟩
  · rw [exec_railRampRead, State.railRamp_idle hidle]
  · obtain ⟨u, hbefore, hstill, hfault⟩ := State.railRamp_fault hraise hruns hr
    obtain ⟨hlost, hoff, hflag, hheld, -, -⟩ := State.railFault_effect hbefore hstill i
    rw [exec_railRampRead, hfault]
    exact ⟨_, rfl, hoff, hflag, hheld, hlost⟩
  · rw [exec_pmbusPoll, within_next (by simpa using hr), State.pmbusPoll_barred r hbarred]
  · have hworst := State.worstDeficit_core hsmall hdeficit hsram
    have hkept (f : Fld) (h1 : f.code < 1024) (h2 : f.code ≠ F.PWR_RAIL_DATA_MEAS_MV.code) : (s.coreRead mv).fld f = s.fld f :=
      State.fld_setFld_of_code _ _ _ _ _ _ (by decide) h1 h2
    obtain ⟨hdegraded, hlow, hcount⟩ := State.deficitPoll_degrades hworst (by omega) (by omega)
      ((State.flag_of_fld (hkept F.PWR_STATUS_DEGRADED (by decide) (by decide))).trans hclear) hshort
    rw [hkept F.PWR_SHORTCNT (by decide) (by decide)] at hcount
    rw [exec_pmbusPoll, within_next (by simp), State.pmbusPoll_core hstate hidle hen]
    exact ⟨_, rfl, hdegraded, hlow, hcount⟩
  · have hstill : ((s.raiseBoth 331).pmbOk i).frame.st ≠ .running := by
      rw [show ((s.raiseBoth 331).pmbOk i).frame = s.frame from State.raiseBoth_frame s 331]
      exact hruns
    obtain ⟨-, hoff, hflag, -⟩ := State.railFault_effect (.refl _) hstill i
    rw [exec_pmAlert, within_next (by simp [hi]), State.pmAlert_one hen, if_pos hbad]
    exact ⟨_, rfl, hoff, hflag⟩
  · rw [exec_pmAlert, within_next (by simp [hi]), State.pmAlert_one hen, if_neg (by rw [hgood]; decide)]
    exact ⟨_, rfl, SMap.get_set_same 0 (s.raiseBoth 331).pwr.pmbFails i 0, State.raiseBoth_frame s 331,
      (congrArg PwrSt.en (State.raiseBoth_pwr s 331) :)⟩
  · rw [exec_vppRaise, State.vppRaise_off hstate hen]
    rfl
  · rw [exec_vppRaise, State.vppRaise_on hen]
  · rw [exec_vppArrInRegulation, State.vppReady_on hen]
  · rw [exec_vppLower, State.vppLower_due hlast hnone hdue]
    refine ⟨_, rfl, ?_, ?_, rfl⟩
    · exact (State.fld_setFld_of_code _ _ _ _ _ _ (by decide) (by decide) (by decide)).trans (State.fld_setFld_same ..)
    · show (s.pwr.en.filter (· != 3)).contains 3 = false
      simp
  · rw [exec_vppLower, State.vppLower_early hlast h]
  · have hpath : Path.ok (.host fn) = true := decide_eq_true hfn
    refine ⟨fun hrole => ?_, fun hrole => ?_, fun hrole hfirst haon => ?_, fun hrole => ?_⟩
    · have hbefore := (s.beforeLoss_audit fn 0xFFFF 0 0 0x6020).then (u := (s.audit fn 0xFFFF 0 0 0x6020).onPwr fun p => { p with want := false, begun := none })
        (State.onlyIn_onPwr (State.onlyIn_refl _ _) (by decide))
      obtain ⟨hlost, hoff, -, hheld, -, -⟩ := State.goOff_effect hbefore rfl
      refine ⟨_, ?_, hoff, hheld, hlost⟩
      rw [exec_off, within_next hpath, State.offWrite, State.ownWrite_accepted (rwl := false) _ hopen hrole (fun h => Bool.noConfusion h)]
      rfl
    · rw [exec_off, within_next hpath, State.offWrite, State.ownWrite_low false _ hopen hrole]
      rfl
    · obtain ⟨hlost, hoff, htripped, -, -, -, hen⟩ := State.trip_effect (s.beforeLoss_audit fn 0xFFFF 0 0 0x5104) false false hfirst haon
      refine ⟨_, ?_, hoff, htripped, hen, hlost⟩
      rw [exec_tripTest, within_next hpath, State.tripTest, State.ownWrite_accepted (rwl := false) _ hopen hrole (fun h => Bool.noConfusion h)]
      rfl
    · rw [exec_tripTest, within_next hpath, State.tripTest, State.ownWrite_low false _ hopen hrole]
      rfl
  · obtain ⟨hlost, hoff, htripped, hlow, hopn, hpin, hen⟩ := State.trip_effect (.refl s) low opn hfirst haon
    have hcond' : ¬ (s.flag F.THM_TRIP_BLANK || (!low && !opn)) = true := by
      rw [hblank]
      cases low <;> cases opn <;> simp_all
    exact ⟨_, congrArg Host.Outcome.next (if_neg hcond'), hoff, htripped, hlow, hopn, hpin, hen, hlost⟩
  · refine ⟨?_, fun hearly => ?_, fun hdue => ?_⟩
    · rw [exec_thermalTrip, State.tripCond, hblank]
      rfl
    · rw [exec_tripBlankEnd, State.blankEnd, if_pos (by simp [hearly])]
    · rw [exec_tripBlankEnd, State.blankEnd, if_neg (by simp [hblank, hdue])]
      rfl

end Sys2Proof.Machine

/-!
PROOFS of the statement on conversions, the die temperature and REFIN (13_calibration_and_thermal R414 to R424).
-/

namespace Sys2Proof.Machine

/-! The record of metrology. -/

theorem State.onlyIn_onMet {s t : State} {ps : List Part} {g : MetSt → MetSt} (h : s.onlyIn t ps) (hp : Part.met ∈ ps) : s.onlyIn (t.onMet g) ps :=
  fun p hq => by
    by_cases hm : p = .met
    · exact absurd (hm ▸ hp) hq
    · refine Eq.mp ?_ (h p hq)
      cases p
      case met => exact absurd rfl hm
      all_goals rfl

theorem State.onlyFields_onMet {s t : State} {fs : List Fld} {g : MetSt → MetSt} (h : s.onlyFields t fs) : s.onlyFields (t.onMet g) fs :=
  State.onlyFields_same h rfl

/-! A conversion begins (R416 to R420). -/

section Begin
variable {s : State}

theorem State.convBegin_effect (s : State) (st ch order notch : Nat) (urgent : Bool) :
    (s.convBegin st ch order notch urgent).convState = st % 4 ∧ (s.convBegin st ch order notch urgent).fld F.MET_STATUS_CH = ch % 16 ∧
      (s.convBegin st ch order notch urgent).met = { s.met with since := s.now, ch := ch, order := order, notch := notch, urgent := urgent } ∧
      s.onlyIn (s.convBegin st ch order notch urgent) [.fields, .met] ∧
      s.onlyFields (s.convBegin st ch order notch urgent) [F.MET_STATUS_STATE, F.MET_STATUS_CH, F.MET_STATUS_URGENT_PEND] := by
  refine ⟨?_, ?_, rfl, ?_, ?_⟩
  · simp (disch := decide) [State.convState, State.convBegin, State.fld_setFlag_of_code, State.fld_setFld_of_code, F.MET_STATUS_STATE]
  · simp (disch := decide) [State.convBegin, State.fld_setFlag_of_code, F.MET_STATUS_CH]
  · exact State.onlyIn_setFlag (State.onlyIn_setFld (State.onlyIn_setFld (State.onlyIn_onMet (State.onlyIn_refl s _) (by decide)) (by decide)) (by decide))
      (by decide)
  · exact State.onlyFields_setFlag (State.onlyFields_setFld (State.onlyFields_setFld (State.onlyFields_onMet (State.onlyFields_refl s _)) (by decide))
      (by decide)) (by decide)

/-- The fields of MET.CONV stored. -/
def State.convStored (s : State) (v : Nat) : State :=
  ((s.setFld F.MET_CONV_CH (bitsAt v 0 4)).setFld F.MET_CONV_ORDER (bitsAt v 8 2)).setFld F.MET_CONV_NOTCH (min 2 (bitsAt v 12 2))

/-- A request, urgent or not. -/
def State.convAsk (s : State) (urgent : Bool) (ch order notch : Nat) : State := if urgent then s.convUrgent ch order notch else s.convStart ch order notch

theorem State.onlyFields_convStored (s : State) (v : Nat) : s.onlyFields (s.convStored v) [F.MET_CONV_CH, F.MET_CONV_ORDER, F.MET_CONV_NOTCH] :=
  State.onlyFields_setFld (State.onlyFields_setFld (State.onlyFields_setFld (State.onlyFields_refl s _) (by decide)) (by decide)) (by decide)

theorem State.onlyIn_convStored (s : State) (v : Nat) : s.onlyIn (s.convStored v) [.fields] :=
  State.onlyIn_setFld (State.onlyIn_setFld (State.onlyIn_setFld (State.onlyIn_refl s _) (by decide)) (by decide)) (by decide)

theorem State.convStored_reads (s : State) (v : Nat) :
    (s.convStored v).fld F.MET_CONV_CH = bitsAt v 0 4 ∧ (s.convStored v).fld F.MET_CONV_ORDER = bitsAt v 8 2 ∧
      (s.convStored v).fld F.MET_CONV_NOTCH = min 2 (bitsAt v 12 2) := by
  have hch : bitsAt v 0 4 % 2 ^ 4 = bitsAt v 0 4 := Nat.mod_eq_of_lt (bitsAt_lt v 0 4)
  have horder : bitsAt v 8 2 % 2 ^ 2 = bitsAt v 8 2 := Nat.mod_eq_of_lt (bitsAt_lt v 8 2)
  have hnotch : min 2 (bitsAt v 12 2) % 2 ^ 2 = min 2 (bitsAt v 12 2) := Nat.mod_eq_of_lt (by omega)
  refine ⟨?_, ?_, (State.fld_setFld_same ..).trans hnotch⟩
  · rw [State.convStored, State.fld_setFld_of_code _ _ _ _ _ _ (by decide) (by decide) (by decide),
      State.fld_setFld_of_code _ _ _ _ _ _ (by decide) (by decide) (by decide), State.fld_setFld_same]
    exact hch
  · rw [State.convStored, State.fld_setFld_of_code _ _ _ _ _ _ (by decide) (by decide) (by decide), State.fld_setFld_same]
    exact horder

theorem State.convChannel_convStored (s : State) (v ch : Nat) : (s.convStored v).convChannel ch = s.convChannel ch := by
  have hrole (fn : Nat) : (s.convStored v).roleOf fn = s.roleOf fn := (s.onlyFields_convStored v).fld fn (by decide)
  simp only [State.convChannel, hrole]

/-- A write with START or URGENT stores the fields and asks, urgently where URGENT is written. -/
theorem State.convWrite_asks {v : Nat} (h : (v.testBit 30 || v.testBit 31) = true) :
    s.convWrite v = (s.convStored v).convAsk (v.testBit 30) (s.convChannel (bitsAt v 0 4)) (bitsAt v 8 2) (min 2 (bitsAt v 12 2)) := by
  rw [← s.convChannel_convStored v]
  cases hurgent : v.testBit 30 with
  | true => exact if_pos hurgent
  | false => exact (if_neg (by simp [hurgent])).trans (if_pos (by simpa [hurgent] using h))

theorem State.convAsk_off (h : s.convState = 0) (urgent : Bool) (ch order notch : Nat) :
    s.convAsk urgent ch order notch = s.convBegin 1 ch order notch urgent := by
  cases urgent
  · exact if_pos h
  · exact if_pos h

theorem State.convAsk_held (h : s.convState ≠ 0) (hnone : s.met.held = none) (ch order notch : Nat) :
    s.convAsk true ch order notch = (s.onMet fun m => { m with held := some (ch, order, notch) }).setFld F.MET_STATUS_URGENT_PEND 1 :=
  (if_neg h).trans (if_neg (by simp [hnone]))

theorem State.convAsk_busy (h : s.convState ≠ 0) {urgent : Bool} (hwait : urgent = false ∨ s.met.held ≠ none) (ch order notch : Nat) :
    s.convAsk urgent ch order notch = s.count F.MET_BUSYCNT := by
  cases urgent with
  | false => exact if_neg h
  | true => exact (if_neg h).trans (if_pos (by simpa [Option.isSome_iff_ne_none] using hwait))

theorem State.convWake_due (h : s.convState = 1) (hdue : s.met.since + 400000 ≤ s.now) :
    s.convWake = (s.onMet fun m => { m with since := s.now }).setFld F.MET_STATUS_STATE 2 := if_pos (by simp [h, wakeNs, hdue])

theorem State.convWake_early (h : s.convState ≠ 1 ∨ s.now < s.met.since + 400000) : s.convWake = s := by
  refine if_neg ?_
  simp only [wakeNs, Bool.and_eq_true, decide_eq_true_eq]
  rintro ⟨hstate, hdue⟩
  exact h.elim (· hstate) fun h => absurd (of_decide_eq_true hdue) (Nat.not_le.2 h)

theorem State.convRoutine_begins (hlead : s.holder ≠ 0) (hoff : s.convState = 0) :
    s.convRoutine = (s.convBegin 1 (routineChannel s.met.pos) (s.fld F.MET_CALCFG_ORDER) (s.fld F.MET_CALCFG_MAINS) false).onMet
      fun m => { m with pos := (m.pos + 1) % 22 } := if_neg (by simp [hlead, hoff])

theorem State.convRoutine_none (h : s.holder = 0 ∨ s.convState ≠ 0) : s.convRoutine = s := if_pos (by simpa using h)

end Begin

/-! What judging a temperature touches beside the temperature itself (R423, R424, R429, R433). -/

/-- The fields that a judgement writes: ε, the drift of the arrays, counters, what the part's manager notes. -/
def judgedFlds : List Fld :=
  [F.THM_OVERCNT, F.TST_EPS, F.MET_CAL_DATA_DUE, F.MET_CAL_DATA_LATE, F.MET_TRIMLATECNT, F.INTC_PEND, F.INTC_MERGECNT, F.PRT_DOM_DATA_WITHDRAWN] ++ relayFlds

/-- A state as a judgement may leave it. -/
structure State.judges (s t : State) : Prop where
  parts : s.onlyIn t [.fields, .irq, .host, .smb, .sec, .wgt, .link, .mgr, .met]
  fields : s.onlyFields t judgedFlds
  met : ∃ x, t.met = { s.met with lateOut := x }

section Judges
variable {s t u : State}

theorem State.judges.trans (h : s.judges t) (h' : t.judges u) : s.judges u := by
  obtain ⟨x, hx⟩ := h.met
  obtain ⟨y, hy⟩ := h'.met
  exact ⟨State.onlyIn_trans h.parts h'.parts, State.onlyFields_trans h.fields h'.fields, y, by rw [hy, hx]⟩

theorem State.judges_of (hin : s.onlyIn t [.fields, .irq, .host, .smb, .sec, .wgt, .link, .mgr]) (hfields : s.onlyFields t judgedFlds) : s.judges t :=
  ⟨State.onlyIn_mono hin (by decide), hfields, s.met.lateOut, hin .met (by decide)⟩

theorem State.judges.refl (s : State) : s.judges s := State.judges_of (State.onlyIn_refl s _) (State.onlyFields_refl s _)

theorem State.judges.foldl {α : Type} {f : State → α → State} (hf : ∀ (t : State) a, t.judges (f t a)) (l : List α) (s : State) : s.judges (l.foldl f s) := by
  induction l generalizing s with
  | nil => exact .refl s
  | cons a l ih => exact (hf s a).trans (ih (f s a))

theorem State.judges_setFld (s : State) {f : Fld} (v i : Nat) (hf : f.code % 1024 ∈ judgedFlds.map (·.code)) : s.judges (s.setFld f v i) :=
  State.judges_of (State.onlyIn_setFld (State.onlyIn_refl s _) (by decide)) (State.onlyFields_setFld (State.onlyFields_refl s _) hf)

theorem State.judges_lateOut (s : State) (x : Bool) : s.judges (s.onMet fun m => { m with lateOut := x }) :=
  ⟨State.onlyIn_onMet (State.onlyIn_refl s _) (by decide), State.onlyFields_onMet (State.onlyFields_refl s _), x, rfl⟩

theorem State.judges_raiseBoth (s : State) (id : Nat) : s.judges (s.raiseBoth id) :=
  State.judges_of (State.onlyIn_mono (s.onlyIn_raiseBoth id) (by decide))
    (State.onlyFields_then (State.onlyFields_refl s _) (s.onlyFields_raiseBoth id) (by decide))

theorem State.judges_post (s : State) (code : Nat) (detail : List Nat) : s.judges (s.post code detail) :=
  State.judges_of (State.onlyIn_mono (s.onlyIn_post code detail) (by decide)) (State.onlyFields_same (State.onlyFields_refl s _) (State.post_fields ..))

theorem State.judges_alertRaise (s : State) : s.judges s.alertRaise :=
  State.judges_of (State.onlyIn_mono s.onlyIn_alertRaise (by decide)) (State.onlyFields_refl s _)

theorem State.manages.judges (h : s.manages t) : s.judges t :=
  State.judges_of (State.onlyIn_mono h.parts (by decide)) (State.onlyFields_then (State.onlyFields_refl s _) h.fields (by decide))

theorem State.judges_setWithdrawn (s : State) (part : Nat) (out : Bool) : s.judges (s.setWithdrawn part out) := by
  unfold State.setWithdrawn
  split
  · exact .refl s
  split
  · exact .refl s
  extract_lets marked told kept mapped
  have htold : s.judges told := (s.judges_setFld _ _ (by decide)).trans <| State.manages.judges <| State.manages.foldl (fun t j => by
    split
    · exact .refl t
    · exact t.manages_sendMsg ..) _ _
  have hkept : s.judges kept := by
    unfold kept
    split
    · exact htold
    · exact htold.trans (told.manages_onMgr rfl).judges
  have hmapped : s.judges mapped := hkept.trans ((kept.manages_withdrawIn part out).trans (State.manages_sendMaps _)).judges
  split
  · exact hmapped.trans (mapped.manages_planAround part false).judges
  · exact hmapped

theorem State.judges_reportSelf (s : State) (self : Nat) : s.judges (s.reportSelf self) := by
  unfold State.reportSelf
  split
  · exact s.judges_setWithdrawn _ _
  · have hin := s.onlyIn_reportMgr 0 0xFFFF self
    exact State.judges_of (State.onlyIn_mono hin (by decide)) (State.onlyFields_same (State.onlyFields_refl s _) (hin.fields (by decide)))

theorem State.judges_reloadEps (s : State) : s.judges s.reloadEps :=
  State.judges.foldl (fun t h => by
    split
    · exact State.judges.foldl (fun u i => u.judges_setFld _ _ (by decide)) _ t
    · exact .refl t) _ s

theorem State.judges_reportClear (s : State) : s.judges s.reportClear := by
  unfold State.reportClear
  split
  · exact .refl s
  · exact s.judges_reportSelf 2

theorem State.judges_lateClear (s : State) : s.judges s.lateClear := by
  unfold State.lateClear
  split
  · exact (s.judges_lateOut false).trans (State.judges_reportClear _)
  · exact .refl s

theorem State.judges_driftOf (s : State) (temp : Int) (used : List Nat) (a : Nat) : s.judges (s.driftOf temp used a) := by
  unfold State.driftOf
  split
  · exact .refl s
  extract_lets d was late marked posted
  have hmarked : s.judges marked := (s.judges_setFld _ _ (by decide)).trans (State.judges_setFld _ _ _ (by decide))
  split
  · have hposted : s.judges posted := hmarked.trans <| (State.judges_setFld _ _ _ (by decide)).trans <|
      (State.judges_raiseBoth _ 325).trans (State.judges_post _ _ _)
    split
    · exact hposted
    · exact hposted.trans ((posted.judges_lateOut true).trans (State.judges_reportSelf _ 1))
  · exact hmarked

theorem State.judges_drifts (s : State) (temp : Int) : s.judges (s.drifts temp) := by
  have hturns (l : List Nat) : s.judges (l.foldl (fun (t : State) a => t.driftOf temp s.usedArrays a) s) :=
    State.judges.foldl (fun t a => t.judges_driftOf temp s.usedArrays a) l s
  rw [State.drifts]
  exact (hturns (List.range arrCount)).trans (State.judges_lateClear _)

/-- OVER is set; what else happens is a judgement. -/
theorem State.judges_tempOver (s : State) (why : Nat) : (s.setFld F.THM_TEMP_OVER 1).judges (s.tempOver why) := by
  unfold State.tempOver
  extract_lets was counted
  have hcounted : (s.setFld F.THM_TEMP_OVER 1).judges counted := State.judges_setFld _ _ _ (by decide)
  split
  · exact hcounted
  · exact hcounted.trans <| (State.judges_alertRaise _).trans <| (State.judges_raiseBoth _ 322).trans <|
      (State.judges_post _ _ _).trans (State.judges_reportSelf _ 1)

end Judges

/-! The temperature (R422 to R424). -/

/-- The fields that the handling of a temperature or of REFIN writes. -/
def heatFlds : List Fld :=
  [F.THM_TEMP, F.THM_TEMP_SEQ, F.THM_TEMP_STALE, F.THM_TEMP_FAULT, F.THM_TEMP_VALID, F.THM_TEMP_OVER, F.THM_FAULTCNT, F.THM_STALECNT,
    F.MET_STATUS_REFIN_FAULT] ++ judgedFlds

/-- A state as the handling of a temperature may leave it. -/
structure State.heats (s t : State) : Prop where
  parts : s.onlyIn t [.fields, .irq, .host, .smb, .sec, .wgt, .link, .mgr, .met]
  fields : s.onlyFields t heatFlds

section Heats
variable {s t u : State}

theorem State.heats.refl (s : State) : s.heats s := ⟨State.onlyIn_refl s _, State.onlyFields_refl s _⟩

theorem State.heats.trans (h : s.heats t) (h' : t.heats u) : s.heats u := ⟨State.onlyIn_trans h.parts h'.parts, State.onlyFields_trans h.fields h'.fields⟩

theorem State.judges.heats (h : s.judges t) : s.heats t := ⟨h.parts, State.onlyFields_then (State.onlyFields_refl s _) h.fields (by decide)⟩

theorem State.heats_setFld (s : State) {f : Fld} (v i : Nat) (hf : f.code % 1024 ∈ heatFlds.map (·.code)) : s.heats (s.setFld f v i) :=
  ⟨State.onlyIn_setFld (State.onlyIn_refl s _) (by decide), State.onlyFields_setFld (State.onlyFields_refl s _) hf⟩

theorem State.heats_onMet (s : State) (g : MetSt → MetSt) : s.heats (s.onMet g) :=
  ⟨State.onlyIn_onMet (State.onlyIn_refl s _) (by decide), State.onlyFields_onMet (State.onlyFields_refl s _)⟩

theorem State.heats_tempOver (s : State) (why : Nat) : s.heats (s.tempOver why) := (s.heats_setFld 1 0 (by decide)).trans (s.judges_tempOver why).heats

/-- The stale mark of the temperature, as of channel 0. -/
def State.staleMarked (s : State) : State := s.setFlag F.THM_TEMP_STALE (s.flag F.MET_RES_STALE 0)

/-- The first turn of a stale interval, counted. -/
def State.staleBegun (s : State) : State := (s.staleMarked.onMet fun m => { m with staleRun := true }).count F.THM_STALECNT

theorem State.tempStale_again (h : s.met.staleRun = true) : s.tempStale = s.staleMarked := if_pos h

theorem State.tempStale_first (h : s.met.staleRun = false) : s.tempStale = (s.staleBegun.tempOver 2).reloadEps := if_neg (by
  show ¬ s.met.staleRun = true
  rw [h]
  exact Bool.false_ne_true)

theorem State.heats_tempStale (s : State) : s.heats s.tempStale := by
  have hmarked : s.heats s.staleMarked := s.heats_setFld _ _ (by decide)
  cases h : s.met.staleRun with
  | true => rwa [State.tempStale_again h]
  | false =>
    rw [State.tempStale_first h]
    exact hmarked.trans <| (State.heats_onMet _ _).trans <| (State.heats_setFld _ _ _ (by decide)).trans <|
      (State.heats_tempOver _ 2).trans (State.judges_reloadEps _).heats

/-- The first turn of a stale interval: OVER, counted, and noted. -/
theorem State.tempStale_effect (h : s.met.staleRun = false) :
    s.tempStale.flag F.THM_TEMP_STALE = s.flag F.MET_RES_STALE 0 ∧ s.tempStale.flag F.THM_TEMP_OVER = true ∧ s.counts s.tempStale F.THM_STALECNT ∧
      s.tempStale.met.staleRun = true := by
  have hjudges : (s.staleBegun.setFld F.THM_TEMP_OVER 1).judges s.tempStale :=
    State.tempStale_first h ▸ (State.judges_tempOver _ 2).trans (State.judges_reloadEps _)
  have hkept (f : Fld) (hf : f.code % 1024 ∉ judgedFlds.map (·.code)) : s.tempStale.fld f = (s.staleBegun.setFld F.THM_TEMP_OVER 1).fld f :=
    hjudges.fields.fld 0 hf
  have hstale : (s.staleBegun.setFld F.THM_TEMP_OVER 1).fld F.THM_TEMP_STALE = s.staleMarked.fld F.THM_TEMP_STALE := by
    simp (disch := decide) [State.staleBegun, State.fld_count_of_code, State.fld_setFld_of_code]
  have hcount : (s.staleBegun.setFld F.THM_TEMP_OVER 1).fld F.THM_STALECNT = min (s.fld F.THM_STALECNT + 1) (2 ^ F.THM_STALECNT.width - 1) := by
    simp (disch := decide) [State.staleBegun, State.staleMarked, State.fld_setFlag_of_code, State.fld_setFld_of_code]
  refine ⟨?_, ?_, (hkept _ (by decide)).trans hcount, ?_⟩
  · rw [State.flag_of_fld ((hkept F.THM_TEMP_STALE (by decide)).trans hstale)]
    exact State.flag_setFlag_same s (f := F.THM_TEMP_STALE) _ 0 rfl
  · rw [State.flag, hkept _ (by decide), State.fld_setFld_same]
    rfl
  · obtain ⟨x, hx⟩ := hjudges.met
    rw [hx]
    rfl

/-- REFIN_FAULT set and posted (R415). -/
def State.refinFaulted (s : State) : State :=
  ((s.setFld F.MET_STATUS_REFIN_FAULT 1).raiseBoth 324).post 0x00C3 [s.fld F.MET_STATUS_REFIN_OK, s.met.lastCh2]

theorem State.refinSet_again (h : s.flag F.MET_STATUS_REFIN_FAULT = true) : s.refinSet = s := if_pos h

theorem State.refinSet_first (h : s.flag F.MET_STATUS_REFIN_FAULT = false) : s.refinSet = s.refinFaulted.tempStale :=
  if_neg (by rw [h]; exact Bool.false_ne_true)

theorem State.onlyFields_refinFaulted (s : State) : s.onlyFields s.refinFaulted [F.MET_STATUS_REFIN_FAULT, F.INTC_PEND, F.INTC_MERGECNT] :=
  State.onlyFields_same (State.onlyFields_then (State.onlyFields_setFld (State.onlyFields_refl s _) (by decide)) (State.onlyFields_raiseBoth _ 324) (by decide))
    (State.post_fields ..)

theorem State.onlyIn_refinFaulted (s : State) : s.onlyIn s.refinFaulted [.fields, .irq, .host] :=
  State.onlyIn_then (State.onlyIn_then (State.onlyIn_setFld (State.onlyIn_refl s _) (by decide)) (State.onlyIn_raiseBoth _ 324) (by decide))
    (State.onlyIn_post _ _ _) (by decide)

theorem State.fault_refinFaulted (s : State) : s.refinFaulted.fld F.MET_STATUS_REFIN_FAULT = 1 := by
  rw [State.refinFaulted, State.fld_post, State.fld_raiseBoth _ _ _ _ (by decide), State.fld_setFld_same]
  rfl

theorem State.heats_refinSet (s : State) : s.heats s.refinSet := by
  cases h : s.flag F.MET_STATUS_REFIN_FAULT with
  | true => rw [State.refinSet_again h]; exact .refl s
  | false =>
    rw [State.refinSet_first h]
    exact State.heats.trans ⟨State.onlyIn_mono s.onlyIn_refinFaulted (by decide),
      State.onlyFields_then (State.onlyFields_refl s _) s.onlyFields_refinFaulted (by decide)⟩ (State.heats_tempStale _)

/-- The handling of a stale temperature leaves REFIN_FAULT. -/
theorem State.fault_tempStale (s : State) : s.tempStale.fld F.MET_STATUS_REFIN_FAULT = s.fld F.MET_STATUS_REFIN_FAULT := by
  have hmarked : s.staleMarked.fld F.MET_STATUS_REFIN_FAULT = s.fld F.MET_STATUS_REFIN_FAULT :=
    State.fld_setFlag_of_code _ _ _ _ _ _ (by decide) (by decide) (by decide)
  cases h : s.met.staleRun with
  | true => rw [State.tempStale_again h, hmarked]
  | false =>
    have hjudges : (s.staleBegun.setFld F.THM_TEMP_OVER 1).judges s.tempStale :=
      State.tempStale_first h ▸ (State.judges_tempOver _ 2).trans (State.judges_reloadEps _)
    rw [hjudges.fields.fld 0 (by decide), State.fld_setFld_of_code _ _ _ _ _ _ (by decide) (by decide) (by decide), State.staleBegun,
      State.fld_count_of_code _ _ _ _ _ _ (by decide) (by decide) (by decide)]
    exact hmarked

theorem State.fault_refinSet (s : State) : s.refinSet.flag F.MET_STATUS_REFIN_FAULT = true := by
  cases h : s.flag F.MET_STATUS_REFIN_FAULT with
  | true => rw [State.refinSet_again h, h]
  | false =>
    rw [State.refinSet_first h, State.flag, State.fault_tempStale, State.fault_refinFaulted]
    rfl

end Heats

/-! A reading of channel 0 (R422, R423). -/

section Reading
variable {s : State} {d : Int}

/-- The temperature of a code as the part's registers make it. -/
def State.tempOf (s : State) (d : Int) : Int := temp64 d (s.fld F.MET_REFIN_UV) (s.fld F.THM_DIODE_COEF)

/-- Whether a reading is faulty. -/
def State.readingBad (s : State) (d : Int) : Bool :=
  (s.flag F.MET_RES_VALID 1 && !vbeOk (toSigned 24 (s.fld F.MET_RES_VALUE 1)) (s.fld F.MET_REFIN_UV)) || decide (s.tempOf d < -40 * 64) ||
    decide (150 * 64 < s.tempOf d) || s.flag F.MET_RES_OVR 0

/-- The reading in its registers. -/
def State.readingFiled (s : State) (d : Int) : State :=
  let t := ((s.setFld F.THM_TEMP (ofSigned 16 (s.tempOf d))).setFld F.THM_TEMP_SEQ (s.fld F.MET_RES_SEQ 0)).setFld F.THM_TEMP_STALE 0
  (t.onMet fun m => { m with staleRun := false }).setFlag F.THM_TEMP_FAULT (s.readingBad d)

/-- A faulty reading counted and posted. -/
def State.readingFaulty (s : State) : State :=
  ((s.count F.THM_FAULTCNT).raiseBoth 323).post 0x00C2 [s.fld F.MET_RES_VALUE 1, s.fld F.MET_RES_VALUE 0]

/-- OVER as a good reading leaves it: set above 95 °C, cleared up to 90 °C, kept between (R423). -/
def State.overJudged (s : State) (temp : Int) : State :=
  if 95 * 64 < temp then s.tempOver 1
  else if temp ≤ 90 * 64 && s.flag F.THM_TEMP_OVER then ((s.setFld F.THM_TEMP_OVER 0).post 0x00C1 [ofSigned 16 temp]).reportClear
  else if s.flag F.THM_TEMP_OVER then s.count F.THM_OVERCNT
  else s

theorem State.tempReading_eq (s : State) (d : Int) : s.tempReading d =
    if s.readingBad d then (((s.readingFiled d).readingFaulty).tempOver 3).reloadEps
    else ((((s.readingFiled d).setFld F.THM_TEMP_VALID 1).overJudged (s.tempOf d)).reloadEps).drifts (s.tempOf d) := rfl

theorem State.overJudged_cases (s : State) (temp : Int) :
    (s.setFld F.THM_TEMP_OVER 1).judges (s.overJudged temp) ∧ 6080 < temp ∨
      (s.setFld F.THM_TEMP_OVER 0).judges (s.overJudged temp) ∧ temp ≤ 6080 ∨
      s.judges (s.overJudged temp) ∧ temp ≤ 6080 ∧ (temp ≤ 5760 → s.flag F.THM_TEMP_OVER = false) := by
  unfold State.overJudged
  split
  · next h => exact .inl ⟨s.judges_tempOver 1, h⟩
  · next h =>
    have hlow : temp ≤ 6080 := not_lt.1 h
    split
    · exact .inr (.inl ⟨(State.judges_post _ _ _).trans (State.judges_reportClear _), hlow⟩)
    · next hkept =>
      have hover (hcool : temp ≤ 5760) : s.flag F.THM_TEMP_OVER = false := by simpa [hcool] using hkept
      split
      · exact .inr (.inr ⟨s.judges_setFld _ _ (by decide), hlow, hover⟩)
      · exact .inr (.inr ⟨.refl s, hlow, hover⟩)

theorem State.heats_overJudged (s : State) (temp : Int) : s.heats (s.overJudged temp) := by
  rcases s.overJudged_cases temp with ⟨h, -⟩ | ⟨h, -⟩ | ⟨h, -⟩
  · exact (s.heats_setFld 1 0 (by decide)).trans h.heats
  · exact (s.heats_setFld 0 0 (by decide)).trans h.heats
  · exact h.heats

theorem State.heats_readingFiled (s : State) (d : Int) : s.heats (s.readingFiled d) :=
  (s.heats_setFld _ _ (by decide)).trans <| (State.heats_setFld _ _ _ (by decide)).trans <| (State.heats_setFld _ _ _ (by decide)).trans <|
    (State.heats_onMet _ _).trans (State.heats_setFld _ _ _ (by decide))

theorem State.heats_tempReading (s : State) (d : Int) : s.heats (s.tempReading d) := by
  rw [State.tempReading_eq]
  refine (s.heats_readingFiled d).trans ?_
  split
  · have hfaulty : (s.readingFiled d).heats ((s.readingFiled d).readingFaulty) := (State.heats_setFld _ _ _ (by decide)).trans
      ((State.judges_raiseBoth _ 323).trans (State.judges_post _ _ _)).heats
    exact hfaulty.trans ((State.heats_tempOver _ 3).trans (State.judges_reloadEps _).heats)
  · exact (State.heats_setFld _ _ _ (by decide)).trans <| (State.heats_overJudged _ _).trans
      ((State.judges_reloadEps _).trans (State.judges_drifts _ _)).heats

/-- The fields that a reading leaves to the judgement of OVER. -/
theorem State.readingFiled_reads (s : State) (d : Int) :
    ((s.readingFiled d).setFld F.THM_TEMP_VALID 1).fld F.THM_TEMP = ofSigned 16 (s.tempOf d) % 2 ^ 16 ∧
      ((s.readingFiled d).setFld F.THM_TEMP_VALID 1).fld F.THM_TEMP_VALID = 1 ∧
      ((s.readingFiled d).setFld F.THM_TEMP_VALID 1).fld F.THM_TEMP_STALE = 0 ∧
      ((s.readingFiled d).setFld F.THM_TEMP_VALID 1).flag F.THM_TEMP_FAULT = s.readingBad d := by
  refine ⟨?_, ?_, ?_, ?_⟩
  · simp (disch := decide) [State.readingFiled, State.fld_setFlag_of_code, State.fld_setFld_of_code, F.THM_TEMP]
  · simp (disch := decide) [F.THM_TEMP_VALID]
  · simp (disch := decide) [State.readingFiled, State.fld_setFlag_of_code, State.fld_setFld_of_code]
  · exact (State.flag_of_fld (State.fld_setFld_of_code _ _ _ _ _ _ (by decide) (by decide) (by decide))).trans
      (State.flag_setFlag_same _ (f := F.THM_TEMP_FAULT) _ 0 rfl)

theorem ofSigned_cut (w : Nat) (x : Int) : ofSigned w x % 2 ^ w = ofSigned w x := by
  have hpos : (0 : Int) < (2 ^ w : Nat) := by exact_mod_cast Nat.two_pow_pos w
  have hlt := Int.emod_lt_of_pos x hpos
  have hge := Int.emod_nonneg x (ne_of_gt hpos)
  exact Nat.mod_eq_of_lt (by unfold ofSigned; omega)

/-- A reading that no rule calls faulty. -/
theorem State.tempReading_effect (hgood : s.readingBad d = false) :
    (s.tempReading d).fld F.THM_TEMP = ofSigned 16 (s.tempOf d) ∧ (s.tempReading d).flag F.THM_TEMP_VALID = true ∧
      (s.tempReading d).flag F.THM_TEMP_FAULT = false ∧ (s.tempReading d).flag F.THM_TEMP_STALE = false ∧
      (6080 < s.tempOf d → (s.tempReading d).flag F.THM_TEMP_OVER = true) ∧ (s.tempOf d ≤ 5760 → (s.tempReading d).flag F.THM_TEMP_OVER = false) := by
  obtain ⟨htemp, hvalid, hstale, hfault⟩ := s.readingFiled_reads d
  rw [ofSigned_cut] at htemp
  have heq : s.tempReading d = ((((s.readingFiled d).setFld F.THM_TEMP_VALID 1).overJudged (s.tempOf d)).reloadEps).drifts (s.tempOf d) :=
    (s.tempReading_eq d).trans (if_neg (by rw [hgood]; exact Bool.false_ne_true))
  have hrest : (((s.readingFiled d).setFld F.THM_TEMP_VALID 1).overJudged (s.tempOf d)).judges (s.tempReading d) :=
    heq ▸ (State.judges_reloadEps _).trans (State.judges_drifts _ _)
  generalize (s.readingFiled d).setFld F.THM_TEMP_VALID 1 = w at *
  obtain ⟨x, hx, hover, hcases⟩ : ∃ x : State, x.judges (s.tempReading d) ∧
      (∀ f : Fld, f.code < 1024 → f.code ≠ F.THM_TEMP_OVER.code → x.fld f = w.fld f) ∧
      ((6080 < s.tempOf d → x.flag F.THM_TEMP_OVER = true) ∧ (s.tempOf d ≤ 5760 → x.flag F.THM_TEMP_OVER = false)) := by
    rcases w.overJudged_cases (s.tempOf d) with ⟨h, hhot⟩ | ⟨h, hlow⟩ | ⟨h, hlow, hkept⟩
    · exact ⟨_, h.trans hrest, fun f hf hne => State.fld_setFld_of_code _ _ _ _ _ _ (by decide) hf hne,
        fun _ => by rw [State.flag, State.fld_setFld_same]; rfl, fun hcool => by omega⟩
    · exact ⟨_, h.trans hrest, fun f hf hne => State.fld_setFld_of_code _ _ _ _ _ _ (by decide) hf hne,
        fun hhot => by omega, fun _ => by rw [State.flag, State.fld_setFld_same]; rfl⟩
    · exact ⟨w, h.trans hrest, fun _ _ _ => rfl, fun hhot => by omega, hkept⟩
  have hreads (f : Fld) (hf : f.code % 1024 ∉ judgedFlds.map (·.code)) (hcode : f.code < 1024) (hne : f.code ≠ F.THM_TEMP_OVER.code) :
      (s.tempReading d).fld f = w.fld f := (hx.fields.fld 0 hf).trans (hover f hcode hne)
  have hoverKept : (s.tempReading d).flag F.THM_TEMP_OVER = x.flag F.THM_TEMP_OVER := State.flag_of_fld (hx.fields.fld 0 (by decide))
  refine ⟨(hreads _ (by decide) (by decide) (by decide)).trans htemp, ?_, ?_, ?_, fun h => hoverKept.trans (hcases.1 h), fun h => hoverKept.trans (hcases.2 h)⟩
  · rw [State.flag, hreads _ (by decide) (by decide) (by decide), hvalid]
    rfl
  · rw [State.flag_of_fld (hreads F.THM_TEMP_FAULT (by decide) (by decide) (by decide)), hfault, hgood]
  · rw [State.flag, hreads _ (by decide) (by decide) (by decide), hstale]
    rfl

end Reading

/-! A conversion ends (R416, R418, R419, R421). -/

section Complete
variable {s : State} {d : Int}

/-- The fields that a result writes. -/
def resultFlds : List Fld :=
  [F.MET_RES_SEQ, F.MET_RES_OVR, F.MET_RES_STALE, F.MET_RES_VALID, F.MET_RES_VALUE, F.MET_AGE_SEQ, F.MET_AGE_NOTCH, F.MET_AGE_ORDER, F.MET_REFINERRCNT]

/-- The channel's held value is the new one. -/
def State.resultFiled (s : State) (d : Int) (ovr : Bool) : State :=
  let t := ((s.setFld F.MET_RES_SEQ (s.fld F.MET_RES_SEQ s.met.ch + 1) s.met.ch).setFlag F.MET_RES_OVR ovr s.met.ch).setFld F.MET_RES_STALE 0 s.met.ch
  let t := (t.setFld F.MET_RES_VALID 1 s.met.ch).setFld F.MET_RES_VALUE (ofSigned 24 d) s.met.ch
  let t := ((t.setFld F.MET_AGE_SEQ (s.fld F.MET_RES_SEQ s.met.ch + 1) s.met.ch).setFld F.MET_AGE_NOTCH s.met.notch s.met.ch).setFld
    F.MET_AGE_ORDER s.met.order s.met.ch
  t.onMet fun m => { m with times := SMap.put m.times s.met.ch s.now }

/-- The result is lost to REFIN_FAULT. -/
def State.resultLost (s : State) : State := ((s.setFld F.MET_RES_VALID 0 s.met.ch).setFld F.MET_RES_STALE 1 s.met.ch).count F.MET_REFINERRCNT

theorem State.convResult_filed (d : Int) (ovr : Bool) (h : s.flag F.MET_STATUS_REFIN_FAULT = false) : s.convResult d ovr = s.resultFiled d ovr :=
  if_neg (by rw [h]; exact Bool.false_ne_true)

theorem State.convResult_lost (d : Int) (ovr : Bool) (h : s.flag F.MET_STATUS_REFIN_FAULT = true) : s.convResult d ovr = s.resultLost := if_pos h

theorem State.resultFiled_reads (s : State) (d : Int) (ovr : Bool) :
    (s.resultFiled d ovr).fld F.MET_RES_VALUE s.met.ch = ofSigned 24 d ∧ (s.resultFiled d ovr).flag F.MET_RES_OVR s.met.ch = ovr ∧
      (s.resultFiled d ovr).fld F.MET_RES_VALID s.met.ch = 1 ∧ (s.resultFiled d ovr).fld F.MET_RES_STALE s.met.ch = 0 ∧
      (s.resultFiled d ovr).fld F.MET_RES_SEQ s.met.ch = (s.fld F.MET_RES_SEQ s.met.ch + 1) % 16 ∧
      (∀ j, j ≠ s.met.ch → (s.resultFiled d ovr).fld F.MET_RES_VALID j = s.fld F.MET_RES_VALID j) := by
  refine ⟨?_, ?_, ?_, ?_, ?_, fun j hj => ?_⟩
  · refine Eq.trans ?_ (ofSigned_cut 24 d)
    simp (disch := decide) [State.resultFiled, State.fld_setFld_of_code, F.MET_RES_VALUE]
  · refine Eq.trans (State.flag_of_fld ?_) (State.flag_setFlag_same (s.setFld F.MET_RES_SEQ (s.fld F.MET_RES_SEQ s.met.ch + 1) s.met.ch)
      (f := F.MET_RES_OVR) ovr s.met.ch rfl)
    simp (disch := decide) [State.resultFiled, State.fld_setFld_of_code]
  · simp (disch := decide) [State.resultFiled, State.fld_setFld_of_code, F.MET_RES_VALID]
  · simp (disch := decide) [State.resultFiled, State.fld_setFld_of_code]
  · simp (disch := decide) [State.resultFiled, State.fld_setFld_of_code, State.fld_setFlag_of_code, F.MET_RES_SEQ]
  · simp (disch := decide) [State.resultFiled, State.fld_setFld_of_code]
    rw [State.fld_setFld_place _ _ _ _ _ hj]
    simp (disch := decide) [State.fld_setFld_of_code, State.fld_setFlag_of_code]

theorem State.resultLost_reads (s : State) :
    s.resultLost.fld F.MET_RES_VALID s.met.ch = 0 ∧ s.resultLost.fld F.MET_RES_STALE s.met.ch = 1 ∧ s.counts s.resultLost F.MET_REFINERRCNT ∧
      s.resultLost.fld F.MET_RES_VALUE s.met.ch = s.fld F.MET_RES_VALUE s.met.ch := by
  refine ⟨?_, ?_, ?_, ?_⟩
  · simp (disch := decide) [State.resultLost, State.fld_count_of_code, State.fld_setFld_of_code]
  · simp (disch := decide) [State.resultLost, State.fld_count_of_code, F.MET_RES_STALE]
  · simp (disch := decide) [State.counts, State.resultLost, State.fld_setFld_of_code]
  · simp (disch := decide) [State.resultLost, State.fld_count_of_code, State.fld_setFld_of_code]

theorem State.convResult_keeps (s : State) (d : Int) (ovr : Bool) :
    s.onlyIn (s.convResult d ovr) [.fields, .met] ∧ s.onlyFields (s.convResult d ovr) resultFlds ∧
      ∃ times, (s.convResult d ovr).met = { s.met with times := times } := by
  cases h : s.flag F.MET_STATUS_REFIN_FAULT with
  | true =>
    rw [State.convResult_lost d ovr h]
    exact ⟨State.onlyIn_count (State.onlyIn_setFld (State.onlyIn_setFld (State.onlyIn_refl s _) (by decide)) (by decide)) (by decide),
      State.onlyFields_count (State.onlyFields_setFld (State.onlyFields_setFld (State.onlyFields_refl s _) (by decide)) (by decide)) (by decide), s.met.times, rfl⟩
  | false =>
    rw [State.convResult_filed d ovr h]
    refine ⟨State.onlyIn_onMet (State.onlyIn_setFld (State.onlyIn_setFld (State.onlyIn_setFld (State.onlyIn_setFld (State.onlyIn_setFld (State.onlyIn_setFld
      (State.onlyIn_setFlag (State.onlyIn_setFld (State.onlyIn_refl s _) ?_) ?_) ?_) ?_) ?_) ?_) ?_) ?_) ?_,
      State.onlyFields_onMet (State.onlyFields_setFld (State.onlyFields_setFld (State.onlyFields_setFld (State.onlyFields_setFld (State.onlyFields_setFld
      (State.onlyFields_setFld (State.onlyFields_setFlag (State.onlyFields_setFld (State.onlyFields_refl s _) ?_) ?_) ?_) ?_) ?_) ?_) ?_) ?_), _, rfl⟩
    all_goals decide

/-- The result filed, its edge raised, an urgent one counted. -/
def State.convShown (s : State) (d : Int) (ovr : Bool) : State :=
  let t := (s.convResult d ovr).raiseBoth 320
  if s.met.urgent then (t.raiseBoth 321).count F.MET_URGCNT else t

/-- The code of channel 2 kept. -/
def State.refKept (s : State) (ch : Nat) (d : Int) : State := if ch = 2 then s.onMet fun m => { m with lastCh2 := ofSigned 24 d } else s

/-- REFIN_FAULT as a code of channel 2 leaves it (R415). -/
def State.refJudged (s : State) (ch : Nat) (d : Int) : State :=
  if ch ≠ 2 then s
  else if !ch2Ok d then s.refinSet
  else if s.flag F.MET_STATUS_REFIN_OK then s.setFld F.MET_STATUS_REFIN_FAULT 0
  else s

/-- The temperature as a code of channel 0 leaves it. -/
def State.tempJudged (s : State) (ch : Nat) (fault : Bool) (d : Int) : State := if ch = 0 then (if fault then s.tempStale else s.tempReading d) else s

/-- The held urgent request begins, or the converter is OFF (R418, R419). -/
def State.convNext (s : State) : Option (Nat × Nat × Nat) → State
  | some (ch, order, notch) => (s.onMet fun m => { m with held := none }).convBegin 2 ch order notch true
  | none => ((s.setFld F.MET_STATUS_STATE 0).setFld F.MET_STATUS_CH 0).onMet fun m => { m with urgent := false }

/-- What the result means. -/
def State.convJudged (s : State) (d : Int) (ovr : Bool) : State :=
  (((s.convShown d ovr).refKept s.met.ch d).refJudged s.met.ch d).tempJudged s.met.ch (s.flag F.MET_STATUS_REFIN_FAULT) d

theorem State.convComplete_settled {code : Int} (h : s.convState = 2) (hdue : s.met.since + settleNs s.met.notch s.met.order ≤ s.now)
    (hd : d = clampInt (-8388608) 8388607 code) : s.convComplete code = (s.convJudged d (d != code)).convNext s.met.held := by
  subst hd
  refine (if_neg (by simp [h, hdue])).trans ?_
  cases s.met.held <;> rfl

theorem State.convComplete_early (code : Int) (h : s.convState ≠ 2 ∨ s.now < s.met.since + settleNs s.met.notch s.met.order) : s.convComplete code = s :=
  if_pos (by simpa using h)

theorem State.onlyFields_convNext (s : State) (held : Option (Nat × Nat × Nat)) :
    s.onlyFields (s.convNext held) [F.MET_STATUS_STATE, F.MET_STATUS_CH, F.MET_STATUS_URGENT_PEND] ∧ s.onlyIn (s.convNext held) [.fields, .met] ∧
      (s.convNext held).met.times = s.met.times := by
  rcases held with _ | ⟨ch, order, notch⟩
  · exact ⟨State.onlyFields_onMet (State.onlyFields_setFld (State.onlyFields_setFld (State.onlyFields_refl s _) (by decide)) (by decide)),
      State.onlyIn_onMet (State.onlyIn_setFld (State.onlyIn_setFld (State.onlyIn_refl s _) (by decide)) (by decide)) (by decide), rfl⟩
  · obtain ⟨-, -, -, hin, hfields⟩ := (s.onMet fun m => { m with held := none }).convBegin_effect 2 ch order notch true
    exact ⟨State.onlyFields_trans (State.onlyFields_onMet (State.onlyFields_refl s _)) hfields,
      State.onlyIn_trans (State.onlyIn_onMet (State.onlyIn_refl s _) (by decide)) hin, rfl⟩

theorem State.convNext_off (s : State) : (s.convNext none).convState = 0 ∧ (s.convNext none).fld F.MET_STATUS_CH = 0 := by
  constructor
  · simp (disch := decide) [State.convState, State.convNext, State.fld_setFld_of_code]
  · simp (disch := decide) [State.convNext]

theorem State.convNext_held (s : State) (ch order notch : Nat) :
    (s.convNext (some (ch, order, notch))).convState = 2 ∧ (s.convNext (some (ch, order, notch))).met =
      { s.met with held := none, since := s.now, ch := ch, order := order, notch := notch, urgent := true } := by
  obtain ⟨hstate, -, hmet, -⟩ := (s.onMet fun m => { m with held := none }).convBegin_effect 2 ch order notch true
  exact ⟨hstate, hmet⟩

/-- What is shown of a result beside the channel's held value. -/
theorem State.convShown_keeps (s : State) (d : Int) (ovr : Bool) :
    s.onlyIn (s.convShown d ovr) [.fields, .met, .irq] ∧
      (s.convResult d ovr).onlyFields (s.convShown d ovr) [F.INTC_PEND, F.INTC_MERGECNT, F.MET_URGCNT] ∧
      (s.convShown d ovr).met = (s.convResult d ovr).met ∧ (s.met.urgent = true → s.counts (s.convShown d ovr) F.MET_URGCNT) := by
  obtain ⟨hin, hfields, -⟩ := s.convResult_keeps d ovr
  have hurgcnt : (s.convResult d ovr).fld F.MET_URGCNT = s.fld F.MET_URGCNT := hfields.fld 0 (by decide)
  generalize hu : s.convResult d ovr = u at *
  have hraised : s.onlyIn (u.raiseBoth 320) [.fields, .met, .irq] := State.onlyIn_then (State.onlyIn_mono hin (by decide)) (u.onlyIn_raiseBoth 320) (by decide)
  have hedge : u.onlyFields (u.raiseBoth 320) [F.INTC_PEND, F.INTC_MERGECNT, F.MET_URGCNT] :=
    State.onlyFields_then (State.onlyFields_refl u _) (u.onlyFields_raiseBoth 320) (by decide)
  have hmet : (u.raiseBoth 320).met = u.met := u.onlyIn_raiseBoth 320 .met (by decide)
  unfold State.convShown
  rw [hu]
  cases hurgent : s.met.urgent with
  | false => exact ⟨hraised, hedge, hmet, fun h => Bool.noConfusion h⟩
  | true =>
    have hmet' : (((u.raiseBoth 320).raiseBoth 321).count F.MET_URGCNT).met = u.met := (State.onlyIn_raiseBoth _ 321 .met (by decide)).trans hmet
    refine ⟨State.onlyIn_count (State.onlyIn_then hraised (State.onlyIn_raiseBoth _ 321) (by decide)) (by decide),
      State.onlyFields_count (State.onlyFields_then hedge (State.onlyFields_raiseBoth _ 321) (by decide)) (by decide), hmet', fun _ => ?_⟩
    show (((u.raiseBoth 320).raiseBoth 321).count F.MET_URGCNT).fld F.MET_URGCNT = _
    rw [State.fld_count_same, State.fld_raiseBoth _ _ _ _ (by decide), State.fld_raiseBoth _ _ _ _ (by decide), hurgcnt]

theorem State.heats_judged (s : State) (d : Int) (ovr : Bool) : (s.convShown d ovr).heats (s.convJudged d ovr) := by
  have hkept (t : State) : t.heats (t.refKept s.met.ch d) := by
    unfold State.refKept
    split
    · exact t.heats_onMet _
    · exact .refl t
  have href (t : State) : t.heats (t.refJudged s.met.ch d) := by
    unfold State.refJudged
    split
    · exact .refl t
    · split
      · exact t.heats_refinSet
      · split
        · exact t.heats_setFld _ _ (by decide)
        · exact .refl t
  have htemp (t : State) : t.heats (t.tempJudged s.met.ch (s.flag F.MET_STATUS_REFIN_FAULT) d) := by
    unfold State.tempJudged
    split
    · split
      · exact t.heats_tempStale
      · exact t.heats_tempReading d
    · exact .refl t
  exact (hkept _).trans ((href _).trans (htemp _))

/-- The result of any other channel means nothing for the temperature or for REFIN. -/
theorem State.convJudged_plain (d : Int) (ovr : Bool) (h0 : s.met.ch ≠ 0) (h2 : s.met.ch ≠ 2) : s.convJudged d ovr = s.convShown d ovr := by
  rw [State.convJudged, State.tempJudged, if_neg h0, State.refJudged, if_pos h2, State.refKept, if_neg h2]

/-- A result of channel 0 while REFIN holds is a reading. -/
theorem State.convJudged_zero (d : Int) (ovr : Bool) (h0 : s.met.ch = 0) (h : s.flag F.MET_STATUS_REFIN_FAULT = false) :
    s.convJudged d ovr = (s.convShown d ovr).tempReading d := by
  rw [State.convJudged, State.tempJudged, if_pos h0, if_neg (by rw [h]; exact Bool.false_ne_true), State.refJudged, if_pos (by omega), State.refKept, if_neg (by omega)]

/-- A result of channel 2 judges REFIN. -/
theorem State.convJudged_two (d : Int) (ovr : Bool) (h2 : s.met.ch = 2) :
    s.convJudged d ovr = ((s.convShown d ovr).refKept 2 d).refJudged 2 d := by
  rw [State.convJudged, State.tempJudged, if_neg (by omega), h2]

end Complete

/-! The parts of the statement on a conversion's end. -/

section End
variable {s t : State} {d code : Int}

/-- A field that neither the judgement nor what comes next writes. -/
theorem State.fld_convNext_judged (hd : t = (s.convJudged d (d != code)).convNext s.met.held) (f : Fld) (i : Nat)
    (h1 : f.code % 1024 ∉ heatFlds.map (·.code)) (h2 : f.code % 1024 ∉ [F.MET_STATUS_STATE, F.MET_STATUS_CH, F.MET_STATUS_URGENT_PEND].map (·.code)) :
    t.fld f i = (s.convShown d (d != code)).fld f i := by
  rw [hd, ((State.onlyFields_convNext _ _).1).fld i h2, (s.heats_judged d (d != code)).fields.fld i h1]

theorem State.convPlain_good (ht : t = (s.convJudged d (d != code)).convNext s.met.held) (h0 : s.met.ch ≠ 0) (h2 : s.met.ch ≠ 2)
    (hgood : s.flag F.MET_STATUS_REFIN_FAULT = false) :
    t.fld F.MET_RES_VALUE s.met.ch = ofSigned 24 d ∧ t.flag F.MET_RES_OVR s.met.ch = (d != code) ∧ t.flag F.MET_RES_VALID s.met.ch = true ∧
      t.flag F.MET_RES_STALE s.met.ch = false ∧ t.fld F.MET_RES_SEQ s.met.ch = (s.fld F.MET_RES_SEQ s.met.ch + 1) % 16 ∧
      SMap.find? t.met.times s.met.ch = some s.now ∧ s.onlyIn t [.fields, .met, .irq] := by
  obtain ⟨hvalue, hovr, hvalid, hstale, hseq, -⟩ := s.resultFiled_reads d (d != code)
  obtain ⟨hin, hfields, hmet, -⟩ := s.convShown_keeps d (d != code)
  obtain ⟨-, hnextIn, htimes⟩ := (s.convShown d (d != code)).onlyFields_convNext s.met.held
  have hfiled := State.convResult_filed (s := s) d (d != code) hgood
  have hreads (f : Fld) (h1 : f.code % 1024 ∉ heatFlds.map (·.code))
      (h2 : f.code % 1024 ∉ [F.MET_STATUS_STATE, F.MET_STATUS_CH, F.MET_STATUS_URGENT_PEND].map (·.code))
      (h3 : f.code % 1024 ∉ [F.INTC_PEND, F.INTC_MERGECNT, F.MET_URGCNT].map (·.code)) :
      t.fld f s.met.ch = (s.resultFiled d (d != code)).fld f s.met.ch := by
    rw [State.fld_convNext_judged ht f _ h1 h2, hfields.fld _ h3, hfiled]
  rw [State.convJudged_plain d _ h0 h2] at ht
  refine ⟨(hreads _ (by decide) (by decide) (by decide)).trans hvalue, (State.flag_of_fld (hreads _ (by decide) (by decide) (by decide))).trans hovr, ?_, ?_,
    (hreads _ (by decide) (by decide) (by decide)).trans hseq, ?_, ht ▸ State.onlyIn_then hin hnextIn (by decide)⟩
  · rw [State.flag, hreads _ (by decide) (by decide) (by decide), hvalid]
    rfl
  · rw [State.flag, hreads _ (by decide) (by decide) (by decide), hstale]
    rfl
  · rw [ht, htimes, hmet, hfiled]
    exact SMap.find?_put_same ..

theorem State.convPlain_lost (ht : t = (s.convJudged d (d != code)).convNext s.met.held) (hlost : s.flag F.MET_STATUS_REFIN_FAULT = true) :
    t.flag F.MET_RES_VALID s.met.ch = false ∧ t.flag F.MET_RES_STALE s.met.ch = true ∧ s.counts t F.MET_REFINERRCNT ∧
      t.fld F.MET_RES_VALUE s.met.ch = s.fld F.MET_RES_VALUE s.met.ch := by
  obtain ⟨hvalid, hstale, hcount, hvalue⟩ := s.resultLost_reads
  obtain ⟨-, hfields, -, -⟩ := s.convShown_keeps d (d != code)
  have hreads (f : Fld) (i : Nat) (h1 : f.code % 1024 ∉ heatFlds.map (·.code))
      (h2 : f.code % 1024 ∉ [F.MET_STATUS_STATE, F.MET_STATUS_CH, F.MET_STATUS_URGENT_PEND].map (·.code))
      (h3 : f.code % 1024 ∉ [F.INTC_PEND, F.INTC_MERGECNT, F.MET_URGCNT].map (·.code)) : t.fld f i = s.resultLost.fld f i := by
    rw [State.fld_convNext_judged ht f _ h1 h2, hfields.fld _ h3, State.convResult_lost d _ hlost]
  refine ⟨?_, ?_, (hreads _ _ (by decide) (by decide) (by decide)).trans hcount, (hreads _ _ (by decide) (by decide) (by decide)).trans hvalue⟩
  · rw [State.flag, hreads _ _ (by decide) (by decide) (by decide), hvalid]
    rfl
  · rw [State.flag, hreads _ _ (by decide) (by decide) (by decide), hstale]
    rfl

/-- The temperature of a good reading without a value of channel 1. -/
theorem State.convTemp_effect (ht : t = (s.convJudged d (d != code)).convNext s.met.held) (h0 : s.met.ch = 0)
    (hgood : s.flag F.MET_STATUS_REFIN_FAULT = false) (hone : s.flag F.MET_RES_VALID 1 = false) (hexact : d = code) {temp : Int}
    (htemp : temp = temp64 d (s.fld F.MET_REFIN_UV) (s.fld F.THM_DIODE_COEF)) (hlow : -2560 ≤ temp) (hhigh : temp ≤ 9600) :
    t.fld F.THM_TEMP = ofSigned 16 temp ∧ t.flag F.THM_TEMP_VALID = true ∧ t.flag F.THM_TEMP_FAULT = false ∧
      t.flag F.THM_TEMP_STALE = false ∧ (6080 < temp → t.flag F.THM_TEMP_OVER = true) ∧ (temp ≤ 5760 → t.flag F.THM_TEMP_OVER = false) := by
  obtain ⟨-, hfields, -, -⟩ := s.convShown_keeps d (d != code)
  obtain ⟨-, hresult, -⟩ := s.convResult_keeps d (d != code)
  obtain ⟨-, hovr, -, -, -, hothers⟩ := s.resultFiled_reads d (d != code)
  rw [← State.convResult_filed d _ hgood] at hovr hothers
  have hexact' : (d != code) = false := by rw [hexact]; exact bne_self_eq_false code
  have hkept (f : Fld) (h1 : f.code % 1024 ∉ [F.INTC_PEND, F.INTC_MERGECNT, F.MET_URGCNT].map (·.code)) (h2 : f.code % 1024 ∉ resultFlds.map (·.code)) :
      (s.convShown d (d != code)).fld f = s.fld f := (hfields.fld 0 h1).trans (hresult.fld 0 h2)
  have htemp' : (s.convShown d (d != code)).tempOf d = temp := by
    rw [State.tempOf, hkept F.MET_REFIN_UV (by decide) (by decide), hkept F.THM_DIODE_COEF (by decide) (by decide), htemp]
  have hovr' : (s.convShown d (d != code)).flag F.MET_RES_OVR 0 = false := by
    rw [State.flag_of_fld (hfields.fld 0 (by decide)), ← h0, hovr, hexact']
  have hone' : (s.convShown d (d != code)).flag F.MET_RES_VALID 1 = false := by
    rw [State.flag_of_fld ((hfields.fld 1 (by decide)).trans (hothers 1 (by omega))), hone]
  have hreading : (s.convShown d (d != code)).readingBad d = false := by
    have hcold : decide (temp < -40 * 64) = false := decide_eq_false (by omega)
    have hhot : decide (150 * 64 < temp) = false := decide_eq_false (by omega)
    rw [State.readingBad, hone', htemp', hovr', hcold, hhot]
    rfl
  have heffect := State.tempReading_effect hreading
  rw [State.convJudged_zero d _ h0 hgood] at ht
  generalize (s.convShown d (d != code)).tempReading d = u at *
  obtain ⟨hnext, -, -⟩ := u.onlyFields_convNext s.met.held
  rw [htemp'] at heffect
  obtain ⟨h1, h2, h3, h4, h5, h6⟩ := heffect
  subst ht
  have hstays (f : Fld) (hf : f.code % 1024 ∉ [F.MET_STATUS_STATE, F.MET_STATUS_CH, F.MET_STATUS_URGENT_PEND].map (·.code)) :
      (u.convNext s.met.held).flag f = u.flag f := State.flag_of_fld (hnext.fld 0 hf)
  exact ⟨(hnext.fld 0 (by decide)).trans h1, (hstays _ (by decide)).trans h2, (hstays _ (by decide)).trans h3, (hstays _ (by decide)).trans h4,
    fun h => (hstays _ (by decide)).trans (h5 h), fun h => (hstays _ (by decide)).trans (h6 h)⟩

/-- REFIN_FAULT after a result of channel 2. -/
theorem State.convRef_effect (ht : t = (s.convJudged d (d != code)).convNext s.met.held) (h2 : s.met.ch = 2) :
    (839 < (d - 4194304).natAbs → t.flag F.MET_STATUS_REFIN_FAULT = true) ∧
      ((d - 4194304).natAbs ≤ 839 → s.flag F.MET_STATUS_REFIN_OK = true → t.flag F.MET_STATUS_REFIN_FAULT = false) := by
  obtain ⟨-, hfields, -, -⟩ := s.convShown_keeps d (d != code)
  obtain ⟨-, hresult, -⟩ := s.convResult_keeps d (d != code)
  have hok : ((s.convShown d (d != code)).refKept 2 d).flag F.MET_STATUS_REFIN_OK = s.flag F.MET_STATUS_REFIN_OK :=
    State.flag_of_fld ((hfields.fld 0 (by decide)).trans (hresult.fld 0 (by decide)))
  rw [State.convJudged_two d _ h2] at ht
  generalize (s.convShown d (d != code)).refKept 2 d = k at *
  have hstays : t.flag F.MET_STATUS_REFIN_FAULT = (k.refJudged 2 d).flag F.MET_STATUS_REFIN_FAULT :=
    ht ▸ State.flag_of_fld (((k.refJudged 2 d).onlyFields_convNext s.met.held).1.fld 0 (by decide))
  refine ⟨fun hout => ?_, fun hin hok' => ?_⟩
  · have hset : k.refJudged 2 d = k.refinSet := (if_neg (by decide)).trans (if_pos (by simp [ch2Ok]; omega))
    rw [hstays, hset, k.fault_refinSet]
  · have hclear : k.refJudged 2 d = k.setFld F.MET_STATUS_REFIN_FAULT 0 :=
      (if_neg (by decide)).trans <| (if_neg (by simp [ch2Ok]; omega)).trans (if_pos (by rw [hok, hok']))
    rw [hstays, hclear, State.flag, State.fld_setFld_same]
    rfl

/-- An urgent conversion is counted. -/
theorem State.convUrgent_counts (ht : t = (s.convJudged d (d != code)).convNext s.met.held) (hurgent : s.met.urgent = true) : s.counts t F.MET_URGCNT := by
  obtain ⟨-, -, -, hcount⟩ := s.convShown_keeps d (d != code)
  exact (State.fld_convNext_judged ht F.MET_URGCNT 0 (by decide) (by decide)).trans (hcount hurgent)

/-- What the converter does next. -/
theorem State.convNext_effect (ht : t = (s.convJudged d (d != code)).convNext s.met.held) :
    (s.met.held = none → t.convState = 0 ∧ t.fld F.MET_STATUS_CH = 0) ∧
      (∀ c o n, s.met.held = some (c, o, n) → t.convState = 2 ∧ t.met.ch = c ∧ t.met.order = o ∧ t.met.notch = n ∧ t.met.since = s.now ∧
        t.met.urgent = true ∧ t.met.held = none) := by
  obtain ⟨hshown, -, -, -⟩ := s.convShown_keeps d (d != code)
  have hnow : (s.convJudged d (d != code)).now = s.now :=
    ((s.heats_judged d (d != code)).parts .now (by decide)).trans (hshown .now (by decide))
  generalize s.convJudged d (d != code) = u at *
  refine ⟨fun hnone => ?_, fun c o n hheld => ?_⟩
  · rw [ht, hnone]
    exact u.convNext_off
  · obtain ⟨hstate, hmet⟩ := u.convNext_held c o n
    rw [ht, hheld, hmet, hnow]
    exact ⟨hstate, rfl, rfl, rfl, rfl, rfl, rfl⟩

end End

/-! Stale values and REFIN (R414, R415, R421). -/

section Stale
variable {s : State} {ch x : Nat}

theorem State.heldStale_due (htime : SMap.find? s.met.times ch = some x) (hlate : x + s.staleNs ch < s.now) (hfresh : s.flag F.MET_RES_STALE ch = false) :
    s.heldStale ch = if ch = 0 then (s.setFld F.MET_RES_STALE 1 ch).tempStale else s.setFld F.MET_RES_STALE 1 ch := by
  unfold State.heldStale
  rw [htime]
  exact if_pos (by simp [hlate, hfresh])

theorem State.heldStale_fresh (htime : SMap.find? s.met.times ch = some x) (hearly : s.now ≤ x + s.staleNs ch) : s.heldStale ch = s := by
  unfold State.heldStale
  rw [htime]
  exact if_neg (by simp [Nat.not_lt.2 hearly])

/-- Every channel that holds a value is marked stale. -/
def State.allStale (s : State) (l : List Nat) : State := l.foldl (fun (s : State) ch => s.staleHeld ch) s

theorem State.staleHeld_keeps (s : State) (ch : Nat) :
    (s.staleHeld ch).met = s.met ∧ s.onlyFields (s.staleHeld ch) [F.MET_RES_STALE] ∧ (s.staleHeld ch).vfields = s.vfields := by
  unfold State.staleHeld
  split
  · exact ⟨rfl, State.onlyFields_setFld (State.onlyFields_refl s _) (by decide), rfl⟩
  · exact ⟨rfl, State.onlyFields_refl s _, rfl⟩

theorem State.allStale_keeps (s : State) (l : List Nat) : s.onlyFields (s.allStale l) [F.MET_RES_STALE] ∧ (s.allStale l).vfields = s.vfields :=
  ⟨State.onlyFields_foldl (fun t ch => (t.staleHeld_keeps ch).2.1) l s, foldl_same State.vfields (fun t ch => (t.staleHeld_keeps ch).2.2) l s⟩

theorem State.allStale_marks {l : List Nat} (hch : ch ∈ l) (hheld : (SMap.find? s.met.times ch).isSome = true) : (s.allStale l).flag F.MET_RES_STALE ch = true := by
  refine foldl_mem (fun t : State => t.met = s.met) (fun t => t.flag F.MET_RES_STALE ch = true) (fun t b ht => (t.staleHeld_keeps b).1.trans ht)
    (fun t ht => ?_) (fun t b hb ht => ?_) hch rfl
  · rw [State.staleHeld, if_pos (by rw [ht]; exact hheld), State.flag, State.fld_setFld_same]
    rfl
  · unfold State.staleHeld
    split
    · exact (State.flag_of_fld (State.fld_setFld_place _ _ _ _ _ (Ne.symm hb))).trans ht
    · exact ht

/-- REFIN's value accepted into its register and the vault. -/
def State.refinStored (s : State) (fn v : Nat) : State :=
  (((s.audit fn 0xFFFF 0 0 0x5008).setFld F.MET_REFIN_UV (bitsAt v 0 22)).setVfld F.MET_REFIN_UV (bitsAt v 0 22)).recordWrites

variable {fn v : Nat} (hopen : s.barOpen = true)
include hopen

theorem State.refinWrite_accepted (hrole : roleIns ≤ s.roleOf fn) (hunlocked : s.locked = false) (hlow : 2450000 ≤ bitsAt v 0 22) (hhigh : bitsAt v 0 22 ≤ 2550000) :
    s.refinWrite (.host fn) v = if ((s.refinStored fn v).allStale (List.range 16)).flag F.MET_RES_STALE 0
      then ((s.refinStored fn v).allStale (List.range 16)).tempStale else (s.refinStored fn v).allStale (List.range 16) := by
  rw [State.refinWrite, State.ownWrite_accepted _ hopen hrole fun _ => hunlocked]
  exact if_neg (by simp; omega)

theorem State.refinWrite_outside (hrole : roleIns ≤ s.roleOf fn) (hunlocked : s.locked = false) (h : bitsAt v 0 22 < 2450000 ∨ 2550000 < bitsAt v 0 22) :
    s.refinWrite (.host fn) v = s.audit fn 0xFFFF 0 0 0x5008 := by
  rw [State.refinWrite, State.ownWrite_accepted _ hopen hrole fun _ => hunlocked]
  exact if_pos (by simp; omega)

theorem State.refinWrite_low (v : Nat) (hrole : s.roleOf fn < roleIns) : s.refinWrite (.host fn) v = s.audit fn 0xFFFF 1 0xF3 0x5008 := by
  rw [State.refinWrite, State.ownWrite_low true _ hopen hrole]
  rfl

theorem State.refinWrite_locked (v : Nat) (hrole : roleIns ≤ s.roleOf fn) (hlock : s.locked = true) :
    s.refinWrite (.host fn) v = s.audit fn 0xFFFF 1 0x05 0x5008 := by
  rw [State.refinWrite, State.ownWrite_locked _ hopen hrole hlock]
  rfl

/-- An accepted value is stored, and every held value is stale. -/
theorem State.refinWrite_effect (hrole : roleIns ≤ s.roleOf fn) (hunlocked : s.locked = false) (hlow : 2450000 ≤ bitsAt v 0 22) (hhigh : bitsAt v 0 22 ≤ 2550000) :
    (s.refinWrite (.host fn) v).fld F.MET_REFIN_UV = bitsAt v 0 22 ∧ (s.refinWrite (.host fn) v).vfld F.MET_REFIN_UV = bitsAt v 0 22 ∧
      ∀ ch, ch < 16 → (SMap.find? s.met.times ch).isSome = true → (s.refinWrite (.host fn) v).flag F.MET_RES_STALE ch = true := by
  have hcut : bitsAt v 0 22 % 2 ^ 22 = bitsAt v 0 22 := Nat.mod_eq_of_lt (bitsAt_lt v 0 22)
  have hreg : (s.refinStored fn v).fld F.MET_REFIN_UV = bitsAt v 0 22 := by
    rw [State.refinStored, State.recordWrites, State.fld_count_of_code _ _ _ _ _ _ (by decide) (by decide) (by decide)]
    exact (State.fld_setFld_same ..).trans hcut
  have hvault : (s.refinStored fn v).vfld F.MET_REFIN_UV = bitsAt v 0 22 := (State.vfld_setVfld_same ..).trans hcut
  have hmarks (ch : Nat) (hch : ch < 16) (hheld : (SMap.find? s.met.times ch).isSome = true) :
      ((s.refinStored fn v).allStale (List.range 16)).flag F.MET_RES_STALE ch = true := State.allStale_marks (List.mem_range.2 hch) hheld
  obtain ⟨hfields, hvfields⟩ := (s.refinStored fn v).allStale_keeps (List.range 16)
  rw [State.refinWrite_accepted hopen hrole hunlocked hlow hhigh]
  generalize (s.refinStored fn v).allStale (List.range 16) = a at *
  have hheat : a.heats (if a.flag F.MET_RES_STALE 0 then a.tempStale else a) := by
    split
    · exact a.heats_tempStale
    · exact .refl a
  generalize (if a.flag F.MET_RES_STALE 0 then a.tempStale else a) = t at *
  refine ⟨?_, ?_, fun ch hch hheld => ?_⟩
  · rw [hheat.fields.fld 0 (by decide), hfields.fld 0 (by decide), hreg]
  · rw [State.vfld_of_vfields (hheat.parts .vfields (by decide)), State.vfld_of_vfields hvfields, hvault]
  · rw [State.flag_of_fld (hheat.fields.fld ch (by decide)), hmarks ch hch hheld]

end Stale

/-! The statement, command by command. -/

/-- A write of MET.CONV with START or URGENT. -/
theorem State.convWrite_effect (s : State) {v : Nat} (h : (v.testBit 30 || v.testBit 31) = true) :
    (s.convState = 0 → (s.convWrite v).convState = 1 ∧ (s.convWrite v).fld F.MET_STATUS_CH = s.convChannel (bitsAt v 0 4) % 16 ∧
      (s.convWrite v).met = { s.met with since := s.now, ch := s.convChannel (bitsAt v 0 4), order := bitsAt v 8 2, notch := min 2 (bitsAt v 12 2),
                                         urgent := v.testBit 30 } ∧
      (s.convWrite v).fld F.MET_CONV_CH = bitsAt v 0 4 ∧ (s.convWrite v).fld F.MET_CONV_ORDER = bitsAt v 8 2 ∧
      (s.convWrite v).fld F.MET_CONV_NOTCH = min 2 (bitsAt v 12 2) ∧ s.onlyIn (s.convWrite v) [.fields, .met]) ∧
    (s.convState ≠ 0 →
      (v.testBit 30 = true → s.met.held = none →
        (s.convWrite v).met = { s.met with held := some (s.convChannel (bitsAt v 0 4), bitsAt v 8 2, min 2 (bitsAt v 12 2)) } ∧
        (s.convWrite v).flag F.MET_STATUS_URGENT_PEND = true ∧ (s.convWrite v).convState = s.convState ∧ s.onlyIn (s.convWrite v) [.fields, .met]) ∧
      (v.testBit 30 = false ∨ s.met.held ≠ none →
        s.counts (s.convWrite v) F.MET_BUSYCNT ∧ (s.convWrite v).convState = s.convState ∧ s.onlyIn (s.convWrite v) [.fields])) := by
  have hstored := s.onlyFields_convStored v
  have hstoredIn := s.onlyIn_convStored v
  have hstate : (s.convStored v).convState = s.convState := hstored.fld 0 (by decide)
  rw [State.convWrite_asks h]
  refine ⟨fun hoff => ?_, fun hbusy => ⟨fun hurgent hnone => ?_, fun hwait => ?_⟩⟩
  · obtain ⟨hch, horder, hnotch⟩ := s.convStored_reads v
    rw [State.convAsk_off (hstate.trans hoff)]
    obtain ⟨hbegun, hshown, hmet, hin, hfields⟩ := (s.convStored v).convBegin_effect 1 (s.convChannel (bitsAt v 0 4)) (bitsAt v 8 2) (min 2 (bitsAt v 12 2)) (v.testBit 30)
    exact ⟨hbegun, hshown, hmet, (hfields.fld 0 (by decide)).trans hch, (hfields.fld 0 (by decide)).trans horder, (hfields.fld 0 (by decide)).trans hnotch,
      State.onlyIn_trans (State.onlyIn_mono hstoredIn (by decide)) hin⟩
  · rw [hurgent, State.convAsk_held (s := s.convStored v) (hstate ▸ hbusy) hnone]
    refine ⟨rfl, ?_, ?_, State.onlyIn_setFld (State.onlyIn_onMet (State.onlyIn_mono hstoredIn (by decide)) (by decide)) (by decide)⟩
    · rw [State.flag, State.fld_setFld_same]
      rfl
    · exact (State.fld_setFld_of_code _ _ _ _ _ _ (by decide) (by decide) (by decide)).trans hstate
  · rw [State.convAsk_busy (s := s.convStored v) (hstate ▸ hbusy) hwait]
    refine ⟨?_, (State.fld_count_of_code _ _ _ _ _ _ (by decide) (by decide) (by decide)).trans hstate, State.onlyIn_count hstoredIn (by decide)⟩
    rw [State.counts, State.fld_count_same, hstored.fld 0 (by decide)]

/-- Settles O57: conversions start, wait, end and hold their values; the temperature is judged; REFIN is watched and written. -/
theorem conversionsHoldValues : Obligations.ConversionsHoldValues := by
  unfold Obligations.ConversionsHoldValues
  intro s
  refine ⟨fun v i hi => ?_, fun hwaking hdue => ?_, fun h => ?_, fun hlead hoff => ?_, fun h => ?_, fun code hconv hdue => ?_, fun code h => ?_, rfl,
    fun hgood hfirst => ?_, fun ch x hpos hch htime => ⟨fun hlate hfresh => ?_, fun hearly => ?_⟩, fun x htime hlate hfresh hfirst => ?_,
    fun fn v hfn hopen => ?_⟩
  · have hexec : exec i s = .next (s.convWrite v) := by
      rcases hi with rfl | rfl
      · exact exec_conversionStart ..
      · exact exec_urgentConversion ..
    intro urgent hasked
    obtain ⟨hoff, hbusy⟩ := s.convWrite_effect hasked
    exact ⟨fun h => ⟨_, hexec, hoff h⟩, fun h => ⟨fun hurgent hnone => ⟨_, hexec, (hbusy h).1 hurgent hnone⟩, fun hwait => ⟨_, hexec, (hbusy h).2 hwait⟩⟩⟩
  · rw [exec_converterWake, State.convWake_due hwaking hdue]
    rfl
  · rw [exec_converterWake, State.convWake_early h]
  · obtain ⟨hstate, -, hmet, hin, -⟩ := s.convBegin_effect 1 (routineChannel s.met.pos) (s.fld F.MET_CALCFG_ORDER) (s.fld F.MET_CALCFG_MAINS) false
    rw [exec_routineConversion, State.convRoutine_begins hlead hoff]
    exact ⟨_, rfl, hstate, rfl, rfl, rfl, rfl, State.onlyIn_onMet hin (by decide)⟩
  · rw [exec_routineConversion, State.convRoutine_none h]
  · intro d
    obtain ⟨t, ht⟩ : ∃ t, t = (s.convJudged d (d != code)).convNext s.met.held := ⟨_, rfl⟩
    have hexec : exec (.conversionComplete code) s = .next t := by
      rw [exec_conversionComplete, State.convComplete_settled hconv hdue rfl, ht]
    obtain ⟨hnone, hheld⟩ := State.convNext_effect ht
    exact ⟨t, hexec, fun h0 h2 => ⟨State.convPlain_good ht h0 h2, State.convPlain_lost ht⟩,
      fun h0 hgood hone hexact temp htemp hlow hhigh => State.convTemp_effect ht h0 hgood hone hexact htemp hlow hhigh, State.convRef_effect ht,
      State.convUrgent_counts ht, hnone, hheld⟩
  · rw [exec_conversionComplete, State.convComplete_early code h]
  · generalize hu : s.setFlag F.MET_STATUS_REFIN_OK false = u
    have hgood' : u.flag F.MET_STATUS_REFIN_FAULT = false :=
      hu ▸ (State.flag_of_fld (State.fld_setFlag_of_code _ _ _ _ _ _ (by decide) (by decide) (by decide))).trans hgood
    have hfirst' : u.refinFaulted.met.staleRun = false := by
      have hmet : u.refinFaulted.met = u.met := u.onlyIn_refinFaulted .met (by decide)
      rw [hmet, ← hu]
      exact hfirst
    have hexec : exec (.refinFault false) s = .next u.refinFaulted.tempStale := by
      rw [exec_refinFault, ← State.refinSet_first hgood', ← hu]
      rfl
    obtain ⟨-, hover, hcount, hrun⟩ := State.tempStale_effect hfirst'
    have hheat := u.refinFaulted.heats_tempStale
    have hfields := u.onlyFields_refinFaulted
    refine ⟨_, hexec, ?_, ?_, hover, ?_, hrun⟩
    · rw [State.flag, State.fault_tempStale, State.fault_refinFaulted]
      rfl
    · rw [State.flag_of_fld ((hheat.fields.fld 0 (by decide)).trans (hfields.fld 0 (by decide))), ← hu]
      exact State.flag_setFlag_same s (f := F.MET_STATUS_REFIN_OK) false 0 rfl
    · rw [State.counts, hcount, hfields.fld 0 (by decide), ← hu, State.fld_setFlag_of_code _ _ _ _ _ _ (by decide) (by decide) (by decide)]
  · rw [exec_heldValueStale, within_next (by simp [hch]), State.heldStale_due htime hlate hfresh, if_neg (by omega)]
  · rw [exec_heldValueStale, within_next (by simp [hch]), State.heldStale_fresh htime hearly]
  · obtain ⟨hstale, hover, -, -⟩ := State.tempStale_effect (s := s.setFld F.MET_RES_STALE 1 0) hfirst
    have hmarked : (s.setFld F.MET_RES_STALE 1 0).flag F.MET_RES_STALE 0 = true := by
      rw [State.flag, State.fld_setFld_same]
      rfl
    refine ⟨(s.setFld F.MET_RES_STALE 1 0).tempStale, ?_, ?_, hstale.trans hmarked, hover⟩
    · rw [exec_heldValueStale, within_next (by decide), State.heldStale_due htime hlate hfresh, if_pos rfl]
    · rw [State.flag_of_fld ((State.heats_tempStale _).fields.fld 0 (by decide)), hmarked]
  · have hpath : Path.ok (.host fn) = true := decide_eq_true hfn
    refine ⟨fun hrole hunlocked => ⟨fun hlow hhigh => ?_, fun hout => ?_⟩, fun hrole => ?_, fun hrole hlock => ?_⟩
    · rw [exec_refinWrite, within_next hpath]
      exact ⟨_, rfl, State.refinWrite_effect hopen hrole hunlocked hlow hhigh⟩
    · rw [exec_refinWrite, within_next hpath, State.refinWrite_outside hopen hrole hunlocked hout]
    · rw [exec_refinWrite, within_next hpath, State.refinWrite_low hopen v hrole]
    · rw [exec_refinWrite, within_next hpath, State.refinWrite_locked hopen v hrole hlock]

end Sys2Proof.Machine

/-!
PROOFS of the statement on what ends Off (14_power_clocks_startup R453; 13_calibration_and_thermal R426): every operation leaves a part that
is held in Off there.
-/

namespace Sys2Proof.Machine

/-! What holds a part in Off. -/

/-- What holds a part in Off: an order that only SYS_RST_N or VDD_AON lifts (R445, R453), or the latched trip (R426). -/
inductive OffCause where
  | order
  | trip

/-- What the state shows of a cause. -/
def State.heldBy (s : State) : OffCause → Prop
  | .order => s.pwr.want = false ∧ (s.pwr.offHeld = true ∨ s.pwr.sysRst = true)
  | .trip => s.flag F.THM_TRIP_TRIPPED = true

/-- The part is in Off by a cause, and no change of the power state is under way. -/
structure InOff (c : OffCause) (s : State) : Prop where
  off : s.isOff = true
  still : s.pwr.change = none
  cause : s.heldBy c

/-- Two records of power that agree on what holds the part in Off. -/
structure PwrSt.holdsAs (p r : PwrSt) : Prop where
  change : p.change = r.change
  want : p.want = r.want
  offHeld : p.offHeld = r.offHeld
  sysRst : p.sysRst = r.sysRst

/-- Whether a field shows Off or the trip. -/
def Fld.offMark (f : Fld) : Bool := f.code % 1024 == F.PWR_STATUS_STATE.code || f.code % 1024 == F.THM_TRIP_TRIPPED.code

section Keep
variable {c : OffCause} {s t : State}

/-- A state with the same marks and the same hold. -/
theorem InOff.keep (h : InOff c s) (hpwr : t.pwr.holdsAs s.pwr) (hstate : t.fld F.PWR_STATUS_STATE = s.fld F.PWR_STATUS_STATE)
    (htrip : t.fld F.THM_TRIP_TRIPPED = s.fld F.THM_TRIP_TRIPPED) : InOff c t := by
  obtain ⟨hoff, hstill, hcause⟩ := h
  refine ⟨by rw [State.isOff, hstate]; exact hoff, hpwr.change.trans hstill, ?_⟩
  cases c with
  | order => exact ⟨hpwr.want.trans hcause.1, hcause.2.imp hpwr.offHeld.trans hpwr.sysRst.trans⟩
  | trip => exact (State.flag_of_fld htrip).trans hcause

theorem InOff.state (h : InOff c s) : s.fld F.PWR_STATUS_STATE = 3 := of_decide_eq_true h.off

/-- An update of other components. -/
theorem InOff.same (h : InOff c s) {vfields now cyc free hamper dram arrays cores frame irq net link mgr fab sec hist wgt host met smb serve readout pending} :
    InOff c ⟨s.fields, vfields, now, cyc, free, hamper, dram, arrays, cores, frame, irq, net, link, mgr, fab, sec, hist, wgt, host, met, s.pwr, smb, serve,
      readout, pending⟩ :=
  ⟨h.off, h.still, h.cause⟩

theorem InOff.ite {p : Prop} [Decidable p] (hs : InOff c s) (ht : InOff c t) : InOff c (if p then s else t) := by
  split
  · exact hs
  · exact ht

theorem InOff.foldl {α : Type} {f : State → α → State} (hf : ∀ s a, InOff c s → InOff c (f s a)) : ∀ {l : List α} {s : State}, InOff c s → InOff c (l.foldl f s)
  | [], _, h => h
  | a :: l, s, h => InOff.foldl (l := l) hf (hf s a h)

theorem InOff.foldl_fst {α β : Type} {f : State × β → α → State × β} (hf : ∀ r a, InOff c r.1 → InOff c (f r a).1) :
    ∀ {l : List α} {r : State × β}, InOff c r.1 → InOff c (l.foldl f r).1
  | [], _, h => h
  | a :: l, r, h => InOff.foldl_fst (l := l) hf (hf r a h)

theorem InOff.setFld (h : InOff c s) {f : Fld} {v i : Nat} (hf : f.offMark = false) : InOff c (s.setFld f v i) := by
  simp only [Fld.offMark, Bool.or_eq_false_iff, beq_eq_false_iff_ne] at hf
  have hkey (g : Fld) (hg : f.code % 1024 ≠ g.code % 1024) : g.key 0 ≠ f.key i := fun e => hg (by rw [← Fld.key_mod, ← Fld.key_mod, e])
  exact h.keep ⟨rfl, rfl, rfl, rfl⟩ (s.fld_setFld_key _ _ _ _ _ (hkey _ hf.1)) (s.fld_setFld_key _ _ _ _ _ (hkey _ hf.2))

/-- Another state in Off that the cause holds as well. -/
theorem InOff.held (h : InOff c s) (hstate : t.fld F.PWR_STATUS_STATE = 3) (hchange : t.pwr.change = none) (hwant : s.pwr.want = false → t.pwr.want = false)
    (hheld : s.pwr.offHeld = true ∨ s.pwr.sysRst = true → t.pwr.offHeld = true ∨ t.pwr.sysRst = true)
    (htrip : s.flag F.THM_TRIP_TRIPPED = true → t.flag F.THM_TRIP_TRIPPED = true) : InOff c t := by
  obtain ⟨-, -, hcause⟩ := h
  refine ⟨by rw [State.isOff, hstate]; rfl, hchange, ?_⟩
  cases c with
  | order => exact ⟨hwant hcause.1, hheld hcause.2⟩
  | trip => exact htrip hcause

theorem InOff.foldl_mem {α : Type} {f : State → α → State} :
    ∀ {l : List α} {s : State}, (∀ a ∈ l, ∀ s, InOff c s → InOff c (f s a)) → InOff c s → InOff c (l.foldl f s)
  | [], _, _, h => h
  | a :: l, s, hf, h => InOff.foldl_mem (l := l) (fun b hb => hf b (List.mem_cons_of_mem a hb)) (hf a List.mem_cons_self s h)

theorem InOff.onPwr (h : InOff c s) {f : PwrSt → PwrSt} (hf : (f s.pwr).holdsAs s.pwr := by exact ⟨rfl, rfl, rfl, rfl⟩) : InOff c (s.onPwr f) :=
  h.keep hf rfl rfl

end Keep

/-!
Operation by operation, in the order of the model.  A proof follows its definition: what the operation calls, in that order, and both sides of
each of its cases; a register that is written is none of the two that show Off and the trip.
-/

/-! Operations of Machine/Ops.lean. -/

section Ops
variable {oc : OffCause} {s : State}

theorem InOff.setFlag (hs : InOff oc s) {f : Fld} {b : Bool} {i : Nat} (hf : f.offMark = false) : InOff oc (s.setFlag f b i) := hs.setFld hf

theorem InOff.count (hs : InOff oc s) {f : Fld} {n i : Nat} (hf : f.offMark = false) : InOff oc (s.count f n i) := hs.setFld hf

theorem InOff.setVfld (hs : InOff oc s) {f : Fld} {v i : Nat} : InOff oc (s.setVfld f v i) := hs.same

theorem InOff.draw (hs : InOff oc s) : InOff oc s.draw.2 := hs.same

theorem InOff.setArr (hs : InOff oc s) {a : Nat} {x : ArrSt} : InOff oc (s.setArr a x) := hs.same

theorem InOff.setCore (hs : InOff oc s) {i : Nat} {x : CoreSt} : InOff oc (s.setCore i x) := hs.same

theorem InOff.bankWrite (hs : InOff oc s) {site a : Nat} {bs : Bytes} : InOff oc (s.bankWrite site a bs) := hs.same

theorem InOff.flushGather (hs : InOff oc s) {site : Nat} {p : GEntry → Bool} : InOff oc (s.flushGather site p) := hs.same.setCore

theorem InOff.cleanLines (hs : InOff oc s) {site : Nat} {ls : List Nat} : InOff oc (s.cleanLines site ls) := hs.same

theorem InOff.hamperWrite (hs : InOff oc s) {site a : Nat} {bs : Bytes} : InOff oc (s.hamperWrite site a bs) := hs.flushGather.bankWrite.cleanLines

theorem InOff.gatherLine (hs : InOff oc s) {site line off : Nat} {bs : Bytes} : InOff oc (s.gatherLine site line off bs) := by
  unfold State.gatherLine
  extract_lets x1 x2 t3 x4 x5 x6 x7 t8
  have ht3 : InOff oc t3 := by
    unfold t3
    split
    · exact hs
    · exact .ite hs hs.flushGather
  have ht8 : InOff oc t8 := ht3.setCore
  exact .ite ht8.flushGather ht8

theorem InOff.gatherWrite (hs : InOff oc s) {site a : Nat} {bs : Bytes} : InOff oc (s.gatherWrite site a bs) :=
  .foldl (fun _ _ ht => .ite ht (.ite ht.setCore.bankWrite.cleanLines ht.gatherLine.cleanLines)) hs

theorem InOff.raiseHalf (hs : InOff oc s) {h id : Nat} : InOff oc (s.raiseHalf h id) :=
  .ite (.ite (hs.count (by rfl)) hs.same) (.ite (hs.count (by rfl)) (hs.setFld (by rfl)))

theorem InOff.raiseBoth (hs : InOff oc s) {id : Nat} : InOff oc (s.raiseBoth id) := hs.raiseHalf.raiseHalf

theorem InOff.raiseRow (hs : InOff oc s) {base site : Nat} : InOff oc (s.raiseRow base site) := hs.raiseHalf

theorem InOff.setWin (hs : InOff oc s) {fn : Nat} {w : WinSt} : InOff oc (s.setWin fn w) := hs.same

theorem InOff.postTo (hs : InOff oc s) {fn code : Nat} {detail : List Nat} : InOff oc (s.postTo fn code detail) := .ite hs.setWin hs.setWin

theorem InOff.post (hs : InOff oc s) {code : Nat} {detail : List Nat} : InOff oc (s.post code detail) := hs.postTo

theorem InOff.respond (hs : InOff oc s) {c : Mgmt} {code result : Nat} {detail : Bytes} : InOff oc (s.respond c code result detail) := .ite hs.setWin hs.setWin

theorem InOff.msi (hs : InOff oc s) {fn vec : Nat} : InOff oc (s.msi fn vec) := .ite hs.same hs.same

theorem InOff.alertRaise (hs : InOff oc s) : InOff oc s.alertRaise := hs.same

theorem InOff.transmit (hs : InOff oc s) {m : FwMsg} : InOff oc (s.transmit m) := hs.same

theorem InOff.sendMsg (hs : InOff oc s) {part type : Nat} {fields : List Nat} {data : Bytes} : InOff oc (s.sendMsg part type fields data) :=
  .ite hs (.ite hs.same (.ite hs.transmit hs.same))

theorem InOff.sendCtl (hs : InOff oc s) {part type frame : Nat} {fields : List Nat} : InOff oc (s.sendCtl part type frame fields) := .ite hs hs.same

theorem InOff.unitError (hs : InOff oc s) {kind index cause n : Nat} : InOff oc (s.unitError kind index cause n) := .ite hs hs.same

theorem InOff.countReplay (hs : InOff oc s) {k : Nat} : InOff oc (s.countReplay k) := .ite hs hs.same

end Ops

/-! Operations of Machine/Array.lean. -/

section Ops
variable {oc : OffCause} {s : State}

theorem InOff.mirrorSide (hs : InOff oc s) {a : Nat} : InOff oc (s.mirrorSide a) :=
  ((InOff.foldl (fun _ _ ht => ((ht.setFlag (by rfl)).setFlag (by rfl)).setFld (by rfl)) hs).setFld (by rfl)).setFlag (by rfl)

theorem InOff.cmdRefuse (hs : InOff oc s) {a op tag code : Nat} : InOff oc (s.cmdRefuse a op tag code) := ((hs.setFld (by rfl)).setFld (by rfl)).setFld (by rfl)

theorem InOff.cmdFinish (hs : InOff oc s) {a op tag code : Nat} {overflow : Bool} : InOff oc (s.cmdFinish a op tag code overflow) := by
  unfold State.cmdFinish
  extract_lets x1 t1 t2 x2 t3
  have ht1 : InOff oc t1 := hs.setArr
  have ht2 : InOff oc t2 := (ht1.cmdRefuse.setFlag (by rfl)).setFld (by rfl)
  have ht3 : InOff oc t3 := by
    unfold t3
    split
    · exact ht2.keep ⟨rfl, rfl, rfl, rfl⟩ rfl rfl
    · exact ht2
  exact (ht3.setFld (by rfl)).raiseRow

theorem InOff.cmdRun (hs : InOff oc s) {a op tag : Nat} : InOff oc (s.cmdRun a op tag) := (hs.setArr.setFld (by rfl)).setFld (by rfl)

theorem InOff.cmdAccept (hs : InOff oc s) {a op tag : Nat} : InOff oc (s.cmdAccept a op tag) :=
  .ite (.ite hs.cmdRun (hs.setFld (by rfl)).cmdFinish) (.ite (hs.setFld (by rfl)).cmdFinish (.ite (.ite (hs.setFld (by rfl)).cmdFinish hs.cmdRun) (.ite
      (hs.setFld (by rfl)).setVfld.cmdRun hs.cmdRun)))

theorem InOff.arrCommand (hs : InOff oc s) {a op tag : Nat} : InOff oc (s.arrCommand a op tag) := by
  unfold State.arrCommand
  split
  · exact hs.cmdRefuse
  · exact (InOff.ite hs.setArr hs).cmdAccept

theorem InOff.faultResult (hs : InOff oc s) {a : Nat} {c : ArrCmd} {x : ArrSt} {faults : List CellFault} : InOff oc (s.faultResult a c x faults) :=
  (hs.setArr.count (by rfl)).cmdFinish

theorem InOff.arrCommandEnd (hs : InOff oc s) {a : Nat} {c : ArrCmd} {reads finals : List (Nat × Nat)} {sweep : List Nat} :
    InOff oc (s.arrCommandEnd a c reads finals sweep) := by
  unfold State.arrCommandEnd
  extract_lets x1 x2 t3 t4 t5 x6 x7 x8 x9 x10 t11 t12 t13 x14 t15
  have ht3 : InOff oc t3 := hs.setArr
  have ht4 : InOff oc t4 := ht3.count (by rfl)
  have ht5 : InOff oc t5 := ht4.setVfld
  have ht11 : InOff oc t11 := hs.setArr.setFld (by rfl)
  have ht12 : InOff oc t12 := (ht11.setFld (by rfl)).setFld (by rfl)
  have ht13 : InOff oc t13 := (ht12.setFld (by rfl)).setFld (by rfl)
  have ht15 : InOff oc t15 := (hs.setArr.setFld (by rfl)).setVfld
  exact .ite (.ite hs.setArr.cmdFinish (ht5.setFlag (by rfl)).cmdFinish) (.ite (.ite hs.faultResult hs.faultResult) (.ite (.ite hs.faultResult hs.faultResult)
      (.ite hs.setArr.cmdFinish (.ite (ht13.setFld (by rfl)).cmdFinish (.ite hs.setArr.cmdFinish (.ite ht15.mirrorSide.cmdFinish hs))))))

theorem InOff.productStart (hs : InOff oc s) {a buf k bank : Nat} :
    InOff oc (s.productStart a buf k bank) := .ite (hs.setArr.count (by rfl)) (hs.setArr.setFld (by rfl))

theorem InOff.applyTrims (hs : InOff oc s) {a : Nat} : InOff oc (s.applyTrims a) := by
  unfold State.applyTrims
  extract_lets x1 t2 t3 x4
  have ht2 : InOff oc t2 := by
    unfold t2
    split
    · exact (hs.setFld (by rfl)).setFld (by rfl)
    · exact hs
  have ht3 : InOff oc t3 := by
    unfold t3
    split
    · exact (ht2.setFld (by rfl)).setFld (by rfl)
    · exact ht2
  exact ht3.setArr

theorem InOff.modeAfterProduct (hs : InOff oc s) {a : Nat} : InOff oc (s.modeAfterProduct a) := by
  unfold State.modeAfterProduct
  split
  · exact .ite (hs.setFld (by rfl)).cmdFinish (.ite (hs.setFld (by rfl)).cmdFinish hs)
  · exact hs

end Ops

/-! Operations of Machine/Sequencer.lean. -/

section Ops
variable {oc : OffCause} {s : State}

theorem InOff.markSuspect (hs : InOff oc s) {site bit : Nat} {mem : Bool} : InOff oc (s.markSuspect site bit mem) := by
  unfold State.markSuspect
  extract_lets x1
  split
  · exact hs
  · extract_lets x1 x2 x3 t4 t5 t6 x7 t8 x9
    have ht4 : InOff oc t4 := hs.setCore
    have ht5 : InOff oc t5 := .ite ht4 ((ht4.setFld (by rfl)).setFld (by rfl))
    have ht6 : InOff oc t6 := .ite ht5 (ht5.setFld (by rfl))
    have ht8 : InOff oc t8 := ht6.count (by rfl)
    exact .ite ht8.same ht6

theorem InOff.ctrInc (hs : InOff oc s) {site k n : Nat} : InOff oc (s.ctrInc site k n) :=
  .ite (hs.setFld (by rfl)) ((hs.setFld (by rfl)).setFld (by rfl)).unitError.markSuspect.raiseRow

theorem InOff.ctrZero (hs : InOff oc s) {site k : Nat} : InOff oc (s.ctrZero site k) := (hs.setFld (by rfl)).setFld (by rfl)

theorem InOff.ctrsZero (hs : InOff oc s) {site : Nat} : InOff oc (s.ctrsZero site) := .foldl (fun _ _ ht => ht.ctrZero) hs

theorem InOff.countLate (hs : InOff oc s) {site : Nat} {x2 : OpKind} : InOff oc (s.countLate site x2) := by
  unfold State.countLate
  split
  · exact hs.count (by rfl)
  · exact .ite (hs.count (by rfl)) hs
  · exact hs

end Ops

/-! Operations of Machine/CoreOps.lean. -/

section Ops
variable {oc : OffCause} {s : State}

theorem InOff.hamperErrors (hs : InOff oc s) {site : Nat} {ws : List (Nat × Bool)} : InOff oc (s.hamperErrors site ws) :=
  .foldl (fun _ _ ht => .ite (ht.count (by rfl)).unitError.markSuspect.raiseRow (ht.count (by rfl))) hs

theorem InOff.readMarks (hs : InOff oc s) {site a n : Nat} : InOff oc (s.readMarks site a n) := .ite hs.markSuspect hs

theorem InOff.countNaN (hs : InOff oc s) {site : Nat} {v : List Nat} : InOff oc (s.countNaN site v) := hs.count (by rfl)

theorem InOff.opLoad (hs : InOff oc s) {site mask buf elems scales ref count : Nat} {fmt : Fmt} : InOff oc (s.opLoad site mask fmt buf elems scales ref count) :=
  .foldl (fun _ _ ht => ht.setArr) hs.readMarks.readMarks.readMarks

theorem InOff.loadDone (hs : InOff oc s) {site mask buf : Nat} : InOff oc (s.loadDone site mask buf) := .foldl (fun _ _ ht => ht.setArr) hs

theorem InOff.opAccumulate (hs : InOff oc s) {site n table : Nat} {bf16 : Bool} : InOff oc (s.opAccumulate site n bf16 table) :=
  .foldl (fun _ _ ht => (InOff.foldl (fun _ _ hu => hu.setArr) ht).setCore.hamperWrite.countNaN) hs.readMarks

theorem InOff.countBlocks (hs : InOff oc s) {site : Nat} {q : List QBlock} : InOff oc (s.countBlocks site q) :=
  ((((hs.count (by rfl)).count (by rfl)).count (by rfl)).count (by rfl)).count (by rfl)

theorem InOff.opRotq (hs : InOff oc s) {site m mode seed src dst len : Nat} {fmt : Fmt} {inBf16 : Bool} :
    InOff oc (s.opRotq site m mode fmt inBf16 seed src dst len) :=
  .ite hs.readMarks.setCore.hamperWrite hs.readMarks.setCore.hamperWrite.countBlocks

theorem InOff.opMatmul (hs : InOff oc s) {site x y z m n k32 flags : Nat} : InOff oc (s.opMatmul site x y z m n k32 flags) :=
  (InOff.ite hs.readMarks.readMarks hs.readMarks.readMarks.countNaN).hamperWrite

theorem InOff.opVec (hs : InOff oc s) {site flags k a b dst len : Nat} {op : VecOp} : InOff oc (s.opVec site op flags k a b dst len) := by
  unfold State.opVec
  extract_lets x9 t10 t11 x12 t13
  have ht10 : InOff oc t10 := hs.readMarks
  have ht11 : InOff oc t11 := by
    unfold t11
    split
    · exact ht10.readMarks
    · exact ht10.readMarks
    · exact ht10.readMarks
    · exact ht10.readMarks
    · exact ht10.readMarks
    · exact ht10.readMarks
    · exact ht10.readMarks
    · exact ht10.readMarks
    · exact ht10.readMarks
    · exact ht10
  have ht13 : InOff oc t13 := by
    unfold t13
    split
    · exact ht11
    · exact ht11
    · exact ht11.countNaN
  exact ht13.gatherWrite

end Ops

/-! Operations of Machine/Net.lean. -/

section Ops
variable {oc : OffCause} {s : State}

theorem InOff.pitchWrite (hs : InOff oc s) {p a : Nat} {bs : Bytes} : InOff oc (s.pitchWrite p a bs) := hs.same

theorem InOff.setBinding (hs : InOff oc s) {p slot : Nat} {ctx : Option Nat} : InOff oc (s.setBinding p slot ctx) := hs.pitchWrite

theorem InOff.setCommitted (hs : InOff oc s) {p ctx len sel : Nat} : InOff oc (s.setCommitted p ctx len sel) := hs.pitchWrite

theorem InOff.setProvisional (hs : InOff oc s) {p ctx len : Nat} : InOff oc (s.setProvisional p ctx len) := hs.pitchWrite

theorem InOff.setPageCount (hs : InOff oc s) {p page n : Nat} : InOff oc (s.setPageCount p page n) := hs.pitchWrite

theorem InOff.badBeat (hs : InOff oc s) {p a : Nat} : InOff oc (s.badBeat p a) :=
  .ite ((((hs.count (by rfl)).unitError.setFld (by rfl)).setFld (by rfl)).setFld (by rfl)).raiseBoth
      ((((hs.count (by rfl)).unitError.setFld (by rfl)).setFld (by rfl)).setFld (by rfl)).raiseBoth.same

theorem InOff.goodBeat (hs : InOff oc s) {p a : Nat} : InOff oc (s.goodBeat p a) := hs.count (by rfl)

theorem InOff.launch (hs : InOff oc s) {t : Transfer} : InOff oc (s.launch t) := hs.same

theorem InOff.flits (hs : InOff oc s) {e : OpEnv} : InOff oc (s.flits e) := (hs.count (by rfl)).count (by rfl)

theorem InOff.sendBytes (hs : InOff oc s) {site dest dst : Nat} {ctr : Option Nat} {data : Bytes} {bad : Bool} : InOff oc (s.sendBytes site dest ctr dst data bad) :=
  .ite hs.launch (hs.count (by rfl))

theorem InOff.opSend (hs : InOff oc s) {site dest src dst bytes : Nat} {e : OpEnv} {ctr : Option Nat} : InOff oc (s.opSend site e dest ctr src dst bytes) :=
  hs.readMarks.flits.sendBytes

theorem InOff.opMemRead (hs : InOff oc s) {site stream addr bytes token : Nat} {e : OpEnv} : InOff oc (s.opMemRead site e stream addr bytes token) := by
  unfold State.opMemRead
  split
  · exact hs
  · extract_lets b data t1 t2
    have ht1 : InOff oc t1 := by
      unfold t1
      clear_value b
      split
      · extract_lets u
        have hu : InOff oc u := .foldl (fun _ _ ht => .ite ht.badBeat ht.goodBeat) hs
        exact .ite hu.markSuspect hu
      · exact hs
    have ht2 : InOff oc t2 := ht1.flits
    exact ht2.launch

theorem InOff.kvRefused (hs : InOff oc s) {site p : Nat} : InOff oc (s.kvRefused site p) := (hs.count (by rfl)).markSuspect

theorem InOff.kvStore (hs : InOff oc s) {p c first t : Nat} {r : StreamRec} {tail : Bool} {src : Bytes} : InOff oc (s.kvStore p c r first t tail src) :=
  .ite (.foldl (fun _ _ ht => .foldl (fun _ _ hu => hu.pitchWrite) ht) hs) (.ite (.foldl (fun _ _ ht => ht.pitchWrite.pitchWrite) hs)
      (.foldl (fun _ _ ht => .foldl (fun _ _ hu => hu.pitchWrite.pitchWrite) ht) hs))

theorem InOff.writeTokens (hs : InOff oc s) {site token : Nat} {slot : Option (Nat × Nat × Nat)} {r : StreamRec} {data : Bytes} :
    InOff oc (s.writeTokens site slot r token data) := by
  unfold State.writeTokens
  extract_lets x1 x2 x3 x4
  split
  · exact hs
  · exact .ite hs.kvRefused (.ite hs.kvRefused (.ite hs.kvStore.setProvisional hs.kvStore))

theorem InOff.opMemWrite (hs : InOff oc s) {site stream addr bytes token : Nat} : InOff oc (s.opMemWrite site stream addr bytes token) := by
  unfold State.opMemWrite
  split
  · exact hs
  · exact hs.readMarks.writeTokens

theorem InOff.portBytes (hs : InOff oc s) {site port cls part dest dst : Nat} {ctr : Option Nat} {data : Bytes} {bad : Bool} :
    InOff oc (s.portBytes site port cls part dest ctr dst data bad) := by
  unfold State.portBytes
  extract_lets p toks keep d
  split
  · exact hs.same
  · clear_value p
    split
    · exact .ite hs (.ite (.ite hs.same hs.same) (hs.count (by rfl)))
    · exact hs.count (by rfl)

theorem InOff.opPortSend (hs : InOff oc s) {site port cls part dest src dst bytes : Nat} {e : OpEnv} {ctr : Option Nat} :
    InOff oc (s.opPortSend site e port cls part dest ctr src dst bytes) :=
  hs.readMarks.flits.portBytes

theorem InOff.opBarrier (hs : InOff oc s) {site id n : Nat} {h : OpHdr} : InOff oc (s.opBarrier site h id n) := by
  unfold State.opBarrier
  extract_lets x1 x2 x3 x4
  split
  · exact hs.same
  · extract_lets t5 x6 x7 x8 t9
    have ht5 : InOff oc t5 := .ite (hs.count (by rfl)) hs
    have ht9 : InOff oc t9 := ht5.same
    split
    · exact ht5.same
    · refine .foldl (fun _ _ ht => ?_) ?_
      · split
        · exact ht.ctrInc
        · exact ht
      · exact ht9

theorem InOff.deliver (hs : InOff oc s) {site addr : Nat} {data : Bytes} {bad : Bool} : InOff oc (s.deliver site addr data bad) :=
  .ite hs.gatherWrite.flushGather.same hs.gatherWrite.flushGather

end Ops

/-! Operations of Machine/Audit.lean. -/

section Ops
variable {oc : OffCause} {s : State}

theorem InOff.setFnSec (hs : InOff oc s) {fn : Nat} {v : FnSec} : InOff oc (s.setFnSec fn v) := hs.same

theorem InOff.audit (hs : InOff oc s) {fn action result code target : Nat} {detail : Bytes} : InOff oc (s.audit fn action result code target detail) := hs.same

theorem InOff.recordWrites (hs : InOff oc s) {n : Nat} : InOff oc (s.recordWrites n) := hs.count (by rfl)

theorem InOff.auditWrite (hs : InOff oc s) {e : AuditEntry} : InOff oc (s.auditWrite e) := ((InOff.ite
    (hs.same.count (by rfl)) hs.same).setFld (by rfl)).recordWrites

theorem InOff.auditDone (hs : InOff oc s) {seq result code : Nat} : InOff oc (s.auditDone seq result code) := hs.same.recordWrites

theorem InOff.endRole (hs : InOff oc s) {fn cause : Nat} : InOff oc (s.endRole fn cause) := .ite hs ((hs.audit.setFld (by rfl)).setFld (by rfl)).setFnSec

end Ops

/-! Operations of Machine/RegAccess.lean. -/

section Ops
variable {oc : OffCause} {s : State}

/-- No register of a host's is reached in Off (R512). -/
theorem InOff.barShut (hs : InOff oc s) : s.barOpen = false := by simp [State.barOpen, hs.off]

/-- No path reaches a register in Off. -/
theorem InOff.pathShut (hs : InOff oc s) (p : Path) : s.pathOff p = true := by
  cases p with
  | host fn => simp [State.pathOff, hs.barShut]
  | _ => exact hs.off

theorem InOff.nameManagers (hs : InOff oc s) : InOff oc s.nameManagers := .ite hs ((((hs.setFlag (by rfl)).setFlag (by rfl)).setFld (by rfl)).setFld (by rfl))

theorem InOff.staleHeld (hs : InOff oc s) {ch : Nat} : InOff oc (s.staleHeld ch) := .ite (hs.setFld (by rfl)) hs

theorem InOff.putFld (hs : InOff oc s) {f : Fld} {i v : Nat} (hf : f.offMark = false) : InOff oc (s.putFld f i v) :=
  have hset : ∀ {j}, InOff oc (s.setFld f v j) := hs.setFld hf
  .ite hset.setCore (.ite ((hset.setFlag (by rfl)).setFlag (by rfl)) (.ite (hset.setFld hf) (.ite hset.nameManagers (.ite (.ite hs hset.staleHeld)
      (.ite hset.setVfld hset)))))

theorem InOff.trimWrite (hs : InOff oc s) {a value : Nat} {r : RegInfo} : InOff oc (s.trimWrite a r value) := .ite hs.setArr hs.setArr

/-- The fields that show Off and the trip are nobody's to write: they stand in plain registers and have no role. -/
theorem Block.regs_offMark (b : Block) : b.regs.all (fun r => r.flds.all fun f => !f.offMark || (!r.isSel && f.role == .none)) = true := by
  cases b <;> decide

theorem RegInfo.offMark_false {b : Block} {r : RegInfo} (hr : r ∈ b.regs) {f : Fld} (hf : f ∈ r.flds) (h : r.isSel = true ∨ f.role ≠ .none) :
    f.offMark = false := by
  have hall := List.all_eq_true.mp (List.all_eq_true.mp b.regs_offMark r hr) f hf
  rcases h with h | h
  · simpa [h] using hall
  · simpa [h] using hall

theorem regParts_mem {r : RegInfo} {place inst k value : Nat} {q : Fld × Nat × Nat} (h : q ∈ regParts r place inst k value) : q.1 ∈ r.flds := by
  unfold regParts at h
  simp only [List.mem_flatMap, List.mem_map] at h
  obtain ⟨f, hf, j, -, rfl⟩ := h
  exact hf

theorem findReg_mem {p : Path} {addr : Nat} {b : Block} {inst k : Nat} {r : RegInfo} (h : findReg p addr = some (b, inst, r, k)) : r ∈ b.regs := by
  unfold findReg at h
  split at h
  · cases h
  · extract_lets d at h
    rw [Option.bind_eq_some_iff] at h
    obtain ⟨⟨b', i, o⟩, -, h⟩ := h
    rw [Option.map_eq_some_iff] at h
    obtain ⟨r', hfind, h⟩ := h
    cases h
    exact List.mem_of_find?_eq_some hfind

theorem InOff.fwWrite (hs : InOff oc s) {b : Block} {inst k value : Nat} {r : RegInfo} (hr : r ∈ b.regs) : InOff oc (s.fwWrite b inst r k value) := by
  unfold State.fwWrite
  split
  · exact hs
  · refine .ite (.ite hs hs.cmdRefuse) (.ite (.ite hs (((hs.setFld (by rfl)).setFld (by rfl)).setFld (by rfl))) (.ite hs.trimWrite (.ite (hs.count (by rfl))
      (.foldl_mem (fun q hq t ht => ?_) hs))))
    split
    · exact ht
    · split
      · next hwrites =>
        have hmark : q.1.offMark = false := RegInfo.offMark_false hr (regParts_mem hq) (by
          simp only [Bool.or_eq_true, Bool.and_eq_true, beq_iff_eq] at hwrites
          exact hwrites.imp id fun h => by simp [h.1])
        split
        · exact ht.putFld hmark
        · exact ht
      · split
        · next hclears =>
          exact ht.setFld (RegInfo.offMark_false hr (regParts_mem hq) (by
            simp only [Bool.and_eq_true, beq_iff_eq] at hclears
            exact .inr (by simp [hclears.1.1])))
        · exact ht

theorem InOff.smbWrite (hs : InOff oc s) {b : Block} {inst k value : Nat} {r : RegInfo} (hr : r ∈ b.regs) (hsel : r.isSel = true) :
    InOff oc (s.smbWrite b inst r k value) := by
  unfold State.smbWrite
  split
  · refine .foldl_mem (fun q hq t ht => ?_) hs
    split
    · exact ht.putFld (RegInfo.offMark_false hr (regParts_mem hq) (.inl hsel))
    · exact ht
  · exact hs

theorem InOff.writeReg (hs : InOff oc s) {p : Path} {addr value : Nat} : InOff oc (s.writeReg p addr value) := by
  unfold State.writeReg
  split
  · split
    · exact .ite hs.audit hs
    · exact hs
  · next b inst r k hreg =>
    have hr := findReg_mem hreg
    split
    · rwa [if_pos (by simp [hs.barShut])]
    · exact hs.fwWrite hr
    · split
      · next hsel => exact hs.smbWrite hr hsel
      · exact hs

theorem InOff.counterRead (hs : InOff oc s) {p : Path} {addr : Nat} : InOff oc (s.counterRead p addr) := by
  unfold State.counterRead
  extract_lets t1
  have ht1 : InOff oc t1 := hs.same
  split
  · rwa [if_pos (by simp [ht1.barShut])]
  · exact ht1

theorem InOff.loRead (hs : InOff oc s) {p : Path} {audit : Bool} : InOff oc (s.loRead p audit) :=
  .ite hs.same (.ite (hs.setFld (by rfl)).same (hs.setFld (by rfl)).same)

/-- A write of an operation's own register is not taken in Off. -/
theorem InOff.ownWrite (hs : InOff oc s) (p : Path) (rank : Nat) (rwl : Bool) (addr : Nat) : s.ownWrite p rank rwl addr = (false, s) := by
  cases p with
  | host fn => simp [State.ownWrite, hs.barShut]
  | _ => rfl

end Ops

/-! Operations of Machine/Window.lean. -/

section Ops
variable {oc : OffCause} {s : State}

/-- No management command is taken in Off. -/
theorem InOff.takes (hs : InOff oc s) (fn : Nat) : s.takes fn = false := by simp [State.takes, hs.off]

theorem InOff.answer (hs : InOff oc s) {c : Mgmt} {code result target : Nat} {detail : Bytes} : InOff oc (s.answer c code result target detail) :=
  hs.audit.respond

theorem InOff.mgmt (hs : InOff oc s) {m : Mgmt} {r : CmdRule} {target : Nat} {act : State → State} : InOff oc (s.mgmt m r target act) := by
  rwa [State.mgmt_not_taken (hs.takes m.fn)]

theorem InOff.mgmtPoll (hs : InOff oc s) {reads : List (Nat × Nat × Nat × Nat)} {unknown : Option (Mgmt × Nat)} : InOff oc (s.mgmtPoll reads unknown) := by
  rwa [State.mgmtPoll, if_pos (by simp [hs.off])]

theorem InOff.msixUnmask (hs : InOff oc s) {fn vec : Nat} : InOff oc (s.msixUnmask fn vec) := .ite hs.same.same hs.same

end Ops

/-! Operations of Machine/Queue.lean. -/

section Ops
variable {oc : OffCause} {s : State}

theorem InOff.setQueue (hs : InOff oc s) {q : Nat} {x : QueueSt} : InOff oc (s.setQueue q x) := hs.same.setFlag (by rfl)

theorem InOff.setOwner (hs : InOff oc s) {q : Nat} {k : Option Nat} : InOff oc (s.setOwner q k) := by
  unfold State.setOwner
  split
  · exact (hs.setFld (by rfl)).setFld (by rfl)
  · exact (hs.setFld (by rfl)).setFld (by rfl)

theorem InOff.writeEntry (hs : InOff oc s) {q : Nat} {c : Completion} : InOff oc (s.writeEntry q c) := hs.setQueue

theorem InOff.postEntry (hs : InOff oc s) {q : Nat} {c : Completion} : InOff oc (s.postEntry q c) := .ite hs (.ite hs.writeEntry hs.setQueue)

theorem InOff.writeHeld (hs : InOff oc s) {q : Nat} : InOff oc (s.writeHeld q) := by
  unfold State.writeHeld
  split
  · exact hs
  · exact .ite hs hs.setQueue.writeEntry

theorem InOff.completionMsi (hs : InOff oc s) {q : Nat} : InOff oc (s.completionMsi q) := .ite hs.setQueue.msi hs

theorem InOff.countQueues (hs : InOff oc s) {fn : Nat} : InOff oc (s.countQueues fn) := hs.setFld (by rfl)

theorem InOff.queueEnable (hs : InOff oc s) {p : Path} : InOff oc (s.queueEnable p) := by
  unfold State.queueEnable
  rw [hs.ownWrite]
  dsimp only
  split
  · exact hs
  · rwa [if_pos (by simp)]

theorem InOff.queueOff (hs : InOff oc s) {q : Nat} : InOff oc (s.queueOff q) := (hs.setFld (by rfl)).setQueue.setOwner.countQueues

theorem InOff.queueError (hs : InOff oc s) {q code : Nat} : InOff oc (s.queueError q code) := ((hs.setFld (by rfl)).setFld (by rfl)).postTo.raiseBoth

theorem InOff.doorbellPoll (hs : InOff oc s) {reads : List DoorRead} : InOff oc (s.doorbellPoll reads) := by
  rwa [State.doorbellPoll, if_pos (by simp [hs.off])]

end Ops

/-! Operations of Machine/KvAlloc.lean. -/

section Ops
variable {oc : OffCause} {s : State}

theorem InOff.setSrv (hs : InOff oc s) {p : Nat} {x : ServeSt} : InOff oc (s.setSrv p x) := hs.same

theorem InOff.onSrv (hs : InOff oc s) {p : Nat} {f : ServeSt → ServeSt} : InOff oc (s.onSrv p f) := hs.setSrv

theorem InOff.onCounts (hs : InOff oc s) {p : Nat} {f : ServeCounts → ServeCounts} : InOff oc (s.onCounts p f) := hs.onSrv

theorem InOff.withholdNotice (hs : InOff oc s) {frame reason : Nat} {slots : List Nat} : InOff oc (s.withholdNotice frame reason slots) :=
  .ite hs (.ite hs.same.same (.ite hs.same hs.same.sendMsg))

theorem InOff.takeRun (hs : InOff oc s) {p n g : Nat} {t : State} (h : s.takeRun p n = some (g, t)) : InOff oc t := by
  rw [State.takeRun, Option.map_eq_some_iff] at h
  obtain ⟨g, -, h⟩ := h
  cases h
  exact .foldl (fun _ _ ht => ht.setPageCount) hs

theorem InOff.pageUp (hs : InOff oc s) {p g : Nat} : InOff oc (s.pageUp p g) := hs.setPageCount

theorem InOff.pageDown (hs : InOff oc s) {p g : Nat} : InOff oc (s.pageDown p g) := hs.setPageCount

theorem InOff.ctxStream (hs : InOff oc s) {p dir n : Nat} {src : Option Nat} {r : StreamRec} {t : State} (h : s.ctxStream p dir n src r = some t) : InOff oc t := by
  unfold State.ctxStream at h
  split at h
  · cases h
  · next l u htake =>
    extract_lets u1 u2 at h
    have hu2 : InOff oc u2 := .foldl (fun _ _ ht => ht.pitchWrite) (hs.takeRun htake).pitchWrite
    clear_value u2
    split at h
    · cases h
      exact hu2.pitchWrite
    · split at h
      · cases h
        exact hu2.pitchWrite
      · split at h
        · cases h
        · next a v hfirst =>
          split at h
          · cases h
          · next b w hsecond =>
            cases h
            exact ((hu2.takeRun hfirst).takeRun hsecond).pitchWrite

theorem InOff.ctxStreams {p dir n : Nat} {src : Option Nat} {t : State} :
    ∀ {rs : List StreamRec} {s : State}, InOff oc s → State.ctxStreams rs s p dir n src = some t → InOff oc t
  | [], _, hs, h => by cases h; exact hs
  | r :: rs, s, hs, h => by
    unfold State.ctxStreams at h
    split at h
    · next u hu => exact InOff.ctxStreams (hs.ctxStream hu) h
    · cases h

theorem InOff.makeCtx (hs : InOff oc s) {p ctx n len : Nat} {src : Option (Nat × Nat)} {t : State} (h : s.makeCtx p ctx n len src = some t) : InOff oc t := by
  unfold State.makeCtx at h
  split at h
  · cases h
  · next d u htake =>
    extract_lets dir sel shared u1 u2 u3 at h
    have hu3 : InOff oc u3 := (InOff.foldl (fun _ _ ht => ht.pageUp) (hs.takeRun htake)).setCommitted.setProvisional.pitchWrite
    split at h
    · next v hv =>
      cases h
      exact (hu3.ctxStreams hv).onSrv
    · cases h

theorem InOff.dropCtx (hs : InOff oc s) {p ctx : Nat} : InOff oc (s.dropCtx p ctx) := by
  unfold State.dropCtx
  split
  · exact hs
  · exact (InOff.foldl (fun _ _ hv => hv.setPageCount) (.foldl (fun _ _ hv => hv.pageDown) hs)).onSrv

theorem InOff.setEntry (hs : InOff oc s) {p ctx stream i g : Nat} : InOff oc (s.setEntry p ctx stream i g) := hs.pitchWrite

theorem InOff.allocEntries : ∀ {es : List (Nat × Nat)} {s : State} {p ctx : Nat}, InOff oc s → InOff oc (State.allocEntries es s p ctx).2
  | [], _, _, _, hs => hs
  | (stream, i) :: es, s, p, ctx, hs => by
    unfold State.allocEntries
    split
    · split
      · next g t h => exact InOff.allocEntries (hs.takeRun h).setEntry
      · exact hs
    · exact InOff.allocEntries hs

theorem InOff.copyPage (hs : InOff oc s) {p a b : Nat} : InOff oc (s.copyPage p a b) := hs.pitchWrite

theorem InOff.pageCopy (hs : InOff oc s) {p ctx stream i : Nat} {sel : Option Nat} : InOff oc (s.pageCopy p ctx stream i sel) := by
  unfold State.pageCopy
  split
  · exact hs
  · split
    · split
      · extract_lets g
        split
        · exact hs
        · split
          · next h t htake => exact (hs.takeRun htake).copyPage.setEntry.pageDown
          · exact hs
      · extract_lets g
        split
        · exact hs
        · split
          · next h t htake => exact (InOff.foldl (fun _ _ ht => ht.copyPage.pageDown) (hs.takeRun htake)).pitchWrite
          · exact hs
    · exact hs

end Ops

/-! Operations of Machine/Requests.lean. -/

section Ops
variable {oc : OffCause} {s : State}

theorem InOff.refuse (hs : InOff oc s) {p q tag status : Nat} : InOff oc (s.refuse p q tag status) := hs.onCounts.postEntry

theorem InOff.removeReq (hs : InOff oc s) {p tag : Nat} : InOff oc (s.removeReq p tag) := by
  unfold State.removeReq
  split
  · exact hs
  · extract_lets t1
    have ht1 : InOff oc t1 := by
      unfold t1
      split
      · exact hs.dropCtx
      · exact hs
    exact ht1.onSrv

theorem InOff.endReq (hs : InOff oc s) {p tag status : Nat} : InOff oc (s.endReq p tag status) := by
  unfold State.endReq
  split
  · exact hs
  · exact (InOff.ite hs.postEntry hs).onCounts.removeReq

theorem InOff.accept (hs : InOff oc s) {p q : Nat} {sub : Submission} : InOff oc (s.accept p q sub) :=
  .ite (InOff.ite hs.onSrv hs.onSrv.sendMsg).endReq (.ite hs.onSrv hs.onSrv.sendMsg)

theorem InOff.submit (hs : InOff oc s) {q : Nat} : InOff oc (s.submit q) := by
  unfold State.submit
  extract_lets x1 x2 x3
  split
  · exact hs
  · split
    · exact hs
    · extract_lets t4 t5
      have ht4 : InOff oc t4 := hs.setQueue
      have ht5 : InOff oc t5 := ht4.onCounts
      split
      · exact ht5.refuse
      · split
        · exact ht5.refuse
        · exact ht5.accept

theorem InOff.msgIn (hs : InOff oc s) : InOff oc s.msgIn := hs.raiseBoth

theorem InOff.register (hs : InOff oc s) {p tag customer promptLen maxNew : Nat} : InOff oc (s.register p tag customer promptLen maxNew) := by
  unfold State.register
  extract_lets t1 x2
  have ht1 : InOff oc t1 := hs.msgIn
  split
  · exact ht1.onSrv
  · exact .ite ht1 (.ite ht1.onSrv ht1.endReq)

theorem InOff.partnerTimeout (hs : InOff oc s) {p tag : Nat} : InOff oc (s.partnerTimeout p tag) := by
  unfold State.partnerTimeout
  split
  · exact .ite hs.endReq hs
  · exact hs

theorem InOff.cancelHere (hs : InOff oc s) {p tag : Nat} : InOff oc (s.cancelHere p tag) := .ite hs.onCounts hs.onSrv

theorem InOff.queueDrain (hs : InOff oc s) {path : Path} : InOff oc (s.queueDrain path) := by
  unfold State.queueDrain
  rw [hs.ownWrite]
  dsimp only
  split
  · exact hs
  · rwa [if_pos (by simp)]

theorem InOff.promptFails (hs : InOff oc s) {p tag kind : Nat} : InOff oc (s.promptFails p tag kind) := by
  unfold State.promptFails
  split
  · exact hs
  · exact .ite hs.onSrv.postTo hs.onSrv

theorem InOff.hostReadFails (hs : InOff oc s) {r : HostRead} {kind : Nat} : InOff oc (s.hostReadFails r kind) := by
  unfold State.hostReadFails
  extract_lets t1
  have ht1 : InOff oc t1 := .ite (hs.count (by rfl)) (hs.count (by rfl))
  split
  · exact ht1
  · exact .ite ht1 (.ite ht1.setQueue ht1.queueError)
  · exact ht1.promptFails

end Ops

/-! Operations of Machine/Binding.lean. -/

section Ops
variable {oc : OffCause} {s : State}

theorem InOff.placeBind (hs : InOff oc s) {p : Nat} {b : Bind} : InOff oc (s.placeBind p b).1 := by
  unfold State.placeBind
  extract_lets n src t1 room r t2
  have ht1 : InOff oc t1 := by
    unfold t1
    refine .ite hs ?_
    cases h : s.makeCtx p b.ctx n (if src.isSome then b.pos else 0) (if b.wm = 0 then none else src) with
    | none => exact hs
    | some t => exact hs.makeCtx h
  have hr : InOff oc r.2 := by
    unfold r
    split
    · exact ht1.allocEntries
    · exact ht1
  split
  · exact hr
  · have ht2 : InOff oc t2 := hr.onCounts
    dsimp only
    exact ht2.withholdNotice

theorem InOff.placeBinds (hs : InOff oc s) {p : Nat} {bs : List Bind} : InOff oc (s.placeBinds p bs).1 := by
  unfold State.placeBinds
  refine .foldl_fst (fun _ _ hr => ?_) hs
  exact hr.placeBind

theorem InOff.takeNotice (hs : InOff oc s) {p frame : Nat} {bs : List Bind} {wm : List (Nat × Nat)} : InOff oc (s.takeNotice p frame bs wm) := by
  unfold State.takeNotice
  exact hs.onSrv.placeBinds.onSrv

theorem InOff.selection (hs : InOff oc s) {p : Nat} : InOff oc (s.selection p) := .ite hs (InOff.foldl (fun _ _ ht => ht.sendMsg)
    (hs.count (by rfl)).onSrv).takeNotice

theorem InOff.notice (hs : InOff oc s) {p frame : Nat} {bs : List Bind} {wm : List (Nat × Nat)} : InOff oc (s.notice p frame bs wm) :=
  .ite hs.msgIn.takeNotice hs.msgIn

theorem InOff.exitReport (hs : InOff oc s) {p frame : Nat} {items : List ExitItem} : InOff oc (s.exitReport p frame items) := .ite hs.msgIn.onSrv hs.msgIn

end Ops

/-! Operations of Machine/Engine.lean. -/

section Ops
variable {oc : OffCause} {s : State}

theorem InOff.setEngine (hs : InOff oc s) {e : SigEngine} : InOff oc (s.setEngine e) := hs.same.setFld (by rfl)

theorem InOff.engineAsk (hs : InOff oc s) {r : SigReq} : InOff oc (s.engineAsk r) := hs.setEngine

theorem InOff.engineAnswer (hs : InOff oc s) {r : SigReq} {code : Nat} {t : State} (h : s.engineAnswer = some (r, code, t)) : InOff oc t := by
  unfold State.engineAnswer at h
  split at h
  · cases h
  · split at h
    · cases h
    · cases h
      exact .ite ((hs.setEngine.count (by rfl)).setFld (by rfl)) (((hs.setEngine.count (by rfl)).setFld (by rfl)).count (by rfl))

end Ops

/-! Operations of Machine/Session.lean. -/

section Ops
variable {oc : OffCause} {s : State}

theorem InOff.onSec (hs : InOff oc s) {f : SecSt → SecSt} : InOff oc (s.onSec f) := hs.same

theorem InOff.sessionAbort (hs : InOff oc s) : InOff oc s.sessionAbort := by
  unfold State.sessionAbort
  split
  · exact hs
  · extract_lets t1 t2
    have ht1 : InOff oc t1 := (hs.count (by rfl)).setFld (by rfl)
    have ht2 : InOff oc t2 := by
      unfold t2
      split
      · exact .ite ht1.onSec.auditDone.respond ht1
      · exact ht1
    exact ht2.onSec.setFld (by rfl)

end Ops

/-! Operations of Machine/FwImage.lean. -/

section Ops
variable {oc : OffCause} {s : State}

theorem InOff.setBoth (hs : InOff oc s) {f : Fld} {v i : Nat} (hf : f.offMark = false) : InOff oc (s.setBoth f v i) := (hs.setFld hf).setVfld

theorem slotFld_offMark (cls : Nat) : (slotFld cls).offMark = false := by
  unfold slotFld
  split <;> rfl

theorem versionFld_offMark (cls : Nat) : (versionFld cls).offMark = false := by
  unfold versionFld
  split <;> rfl

end Ops

/-! Operations of Machine/Leg.lean. -/

section Ops
variable {oc : OffCause} {s : State}

theorem InOff.setRun (hs : InOff oc s) {site : Nat} {r : Option LegRun} : InOff oc (s.setRun site r) := hs.setCore

theorem InOff.onRun (hs : InOff oc s) {site : Nat} {f : LegRun → LegRun} : InOff oc (s.onRun site f) := by
  unfold State.onRun
  split
  · exact hs.setRun
  · exact hs

theorem InOff.tasteCopy (hs : InOff oc s) {site idx buf : Nat} : InOff oc (s.tasteCopy site idx buf) := by
  unfold State.tasteCopy
  split
  · split
    · exact .ite ((hs.setRun.setFld (by rfl)).setFld (by rfl)) hs
    · exact hs
  · exact hs

theorem InOff.suppress (hs : InOff oc s) {site : Nat} {r : LegRun} {q : RunOp} : InOff oc (s.suppress site r q) := by
  unfold State.suppress
  extract_lets x1 x2 t3
  have ht3 : InOff oc t3 := hs.same
  split
  · exact .ite ht3 ht3.sendMsg
  · exact ht3

theorem InOff.startEffect (hs : InOff oc s) {site : Nat} {q : RunOp} : InOff oc (s.startEffect site q) := by
  unfold State.startEffect
  split
  · exact hs
  · exact hs
  · exact hs.setCore
  · exact hs.opBarrier
  · exact hs.opLoad
  · exact .ite hs.productStart.onRun.markSuspect hs.productStart.onRun
  · exact hs.opAccumulate
  · exact hs.opRotq
  · exact hs.opMatmul
  · exact hs.opVec
  · exact hs.opSend
  · exact hs.opMemRead
  · exact hs.opMemWrite
  · exact hs.opPortSend

theorem InOff.startOp (hs : InOff oc s) {site : Nat} {q : RunOp} : InOff oc (s.startOp site q) := by
  unfold State.startOp
  split
  · exact hs
  · exact .ite hs.setRun.hamperErrors (.ite hs.setRun.hamperErrors.onRun (.ite hs.setRun.hamperErrors.suppress hs.setRun.hamperErrors.startEffect))

theorem InOff.runWaiting : ∀ {n : Nat} {s : State} {sites : List Nat}, InOff oc s → InOff oc (State.runWaiting n s sites)
  | 0, _, _, hs => hs
  | _ + 1, _, [], hs => hs
  | n + 1, s, site :: rest, hs => by
    unfold State.runWaiting
    split
    · exact InOff.runWaiting hs
    · dsimp only
      split
      · exact InOff.runWaiting hs.startOp
      · exact InOff.runWaiting (.foldl (fun _ _ ht => .ite ht ht.countLate.onRun) hs)

theorem InOff.restartAll (hs : InOff oc s) {sites : List Nat} : InOff oc (s.restartAll sites) := hs.runWaiting

theorem InOff.restart (hs : InOff oc s) {site : Nat} : InOff oc (s.restart site) := hs.restartAll

theorem InOff.issue (hs : InOff oc s) {core : Nat} {h : OpHdr} {e : OpEnv} {k : OpKind} : InOff oc (s.issue core h e k) := by
  unfold State.issue
  split
  · exact hs
  · split
    · exact hs
    · split
      · exact hs
      · split
        · extract_lets x1 t2 t3 t4
          have ht2 : InOff oc t2 := hs.setRun
          have ht3 : InOff oc t3 := by
            unfold t3
            split
            · exact ht2.ctrZero
            · exact ht2
          have ht4 : InOff oc t4 := .ite (ht3.setFld (by rfl)) ht3
          exact ht4.restart
        · exact hs

theorem InOff.endEffect (hs : InOff oc s) {site : Nat} {q : RunOp} : InOff oc (s.endEffect site q) := by
  unfold State.endEffect
  split
  · exact hs.loadDone.tasteCopy
  · exact hs

theorem InOff.ownInc (hs : InOff oc s) {site : Nat} {q : RunOp} {inReplay : Bool} : InOff oc (s.ownInc site q inReplay) := by
  unfold State.ownInc
  split
  · exact .ite hs.ctrInc hs
  · exact hs.ctrInc
  · exact hs

theorem InOff.complete (hs : InOff oc s) {site idx : Nat} : InOff oc (s.complete site idx) := by
  unfold State.complete
  split
  · exact hs
  · split
    · exact hs
    · exact .ite hs.setRun.endEffect.ownInc.restart hs

theorem InOff.markDone (hs : InOff oc s) {site : Nat} {p : OpKind → Bool} : InOff oc (s.markDone site p) := hs.onRun

theorem InOff.remoteInc (hs : InOff oc s) {core ctr inc frame pitch : Nat} : InOff oc (s.remoteInc core ctr inc frame pitch) := by
  unfold State.remoteInc
  split
  · exact hs
  · exact .ite hs (.ite (hs.count (by rfl)) hs.ctrInc.restart)

theorem InOff.transferEnds (hs : InOff oc s) {idx : Nat} : InOff oc (s.transferEnds idx) := by
  unfold State.transferEnds
  split
  · exact hs
  · extract_lets x1 t2
    have ht2 : InOff oc t2 := hs.same
    split
    · exact ht2
    · split
      · exact ht2
      · extract_lets t3
        have ht3 : InOff oc t3 := ht2.deliver
        split
        · exact ht3.markDone.restart
        · split
          · exact ht3.remoteInc
          · exact ht3

theorem InOff.tasteChoose (hs : InOff oc s) {site : Nat} {ops : List Op} : InOff oc (s.tasteChoose site ops).1 := by
  unfold State.tasteChoose
  split
  · exact hs.count (by rfl)
  · dsimp only
    split
    · exact hs.setCore.count (by rfl)
    · exact hs.setCore

theorem InOff.beginLeg (hs : InOff oc s) {site idx : Nat} {leg : Leg} {replay : Option Nat} : InOff oc (s.beginLeg site idx leg replay) := by
  unfold State.beginLeg
  exact (((InOff.ite (hs.tasteChoose.count (by rfl)) hs.tasteChoose).setRun.setFld (by rfl)).setFld (by rfl)).setFld (by rfl)

theorem InOff.legStart (hs : InOff oc s) {core : Nat} : InOff oc (s.legStart core) := by
  unfold State.legStart
  split
  · exact hs
  · extract_lets x1
    split
    · exact hs
    · exact .ite hs.setCore.beginLeg hs

theorem InOff.seqAfter (hs : InOff oc s) {site core : Nat} : InOff oc (s.seqAfter site core) := hs.setFld (by rfl)

theorem InOff.finalReport (hs : InOff oc s) {core : Nat} {r : LegRun} : InOff oc (s.finalReport core r) := .ite hs hs.same

theorem InOff.closeLeg (hs : InOff oc s) {site core : Nat} : InOff oc (s.closeLeg site core) := (hs.flushGather.setRun.setFld (by rfl)).seqAfter

theorem InOff.replayOutput (hs : InOff oc s) {site core asker : Nat} {r : LegRun} {unclean : Bool} : InOff oc (s.replayOutput site core r asker unclean) := by
  unfold State.replayOutput
  extract_lets t1 x2 x3 t4
  have ht1 : InOff oc t1 := .ite hs.countReplay hs
  have ht4 : InOff oc t4 := ht1.same
  split
  · exact ht4
  · exact ht4.sendMsg

theorem InOff.legEnd (hs : InOff oc s) {core : Nat} : InOff oc (s.legEnd core) := by
  unfold State.legEnd
  split
  · exact hs
  · split
    · exact hs
    · split
      · extract_lets x1 t2 t3 t4 x5
        have ht2 : InOff oc t2 := .ite (hs.count (by rfl)) hs
        have ht3 : InOff oc t3 := ht2.closeLeg
        have ht4 : InOff oc t4 := ht3.finalReport
        split
        · exact ht3.replayOutput
        · exact ht4.same
      · exact hs

theorem InOff.abandonProducts (hs : InOff oc s) {site : Nat} {r : LegRun} : InOff oc (s.abandonProducts site r) := by
  unfold State.abandonProducts
  refine .foldl (fun _ _ ht => ?_) ?_
  · split
    · exact (ht.setArr.setFld (by rfl)).applyTrims.modeAfterProduct
    · exact ht
  · exact hs

theorem InOff.stopLeg (hs : InOff oc s) {site core : Nat} : InOff oc (s.stopLeg site core) := by
  unfold State.stopLeg
  split
  · exact hs
  · extract_lets t1 x2 t3 t4 x5
    have ht1 : InOff oc t1 := hs.markSuspect.count (by rfl)
    have ht3 : InOff oc t3 := ht1.closeLeg.abandonProducts
    have ht4 : InOff oc t4 := ht3.finalReport
    split
    · exact ht3.replayOutput
    · exact ht4.same

theorem InOff.legOverrun (hs : InOff oc s) {core : Nat} : InOff oc (s.legOverrun core) := by
  unfold State.legOverrun
  split
  · exact hs
  · split
    · exact hs
    · exact .ite hs.stopLeg hs

theorem InOff.monitor (hs : InOff oc s) {site arr : Nat} {acc : List Int} : InOff oc (s.monitor site arr acc) := by
  unfold State.monitor
  extract_lets x1 x2
  refine .foldl (fun _ _ ht => ?_) ?_
  · extract_lets x3 x4 x5 t6 x7 t8
    have ht6 : InOff oc t6 := .ite ht ht.setCore
    have ht8 : InOff oc t8 := .ite ht6.unitError ht6
    split
    · exact .ite ht6 (ht8.count (by rfl)).markSuspect
    · exact ht6
  · exact hs

theorem InOff.verdict (hs : InOff oc s) {site : Nat} {t : Tasting} {acc : List Int} {parity : Bool} : InOff oc (s.verdict site t acc parity) := by
  unfold State.verdict
  extract_lets t1 x2 t3 t4 x5 x6 t7 t8 x9 x10 t11 t12
  have ht1 : InOff oc t1 := hs.setFld (by rfl)
  have ht3 : InOff oc t3 := ht1.setCore
  have ht4 : InOff oc t4 := (ht3.setFld (by rfl)).setFld (by rfl)
  have ht7 : InOff oc t7 := ht1.count (by rfl)
  have ht8 : InOff oc t8 := ht7.setCore
  have ht11 : InOff oc t11 := (ht8.setFld (by rfl)).setFld (by rfl)
  have ht12 : InOff oc t12 := (ht11.setFld (by rfl)).setFld (by rfl)
  exact .ite (ht4.count (by rfl)).unitError (.ite (ht12.count (by rfl)).unitError.markSuspect ht8)

theorem InOff.tasteEnd (hs : InOff oc s) {site arr : Nat} {acc : List Int} {parity : Bool} : InOff oc (s.tasteEnd site arr acc parity) := by
  unfold State.tasteEnd
  split
  · split
    · exact .ite hs.onRun.verdict hs
    · exact hs
  · exact hs

theorem InOff.productEnd (hs : InOff oc s) {a : Nat} {dev : List (Nat × Int)} {parity : Bool} : InOff oc (s.productEnd a dev parity) := by
  unfold State.productEnd
  extract_lets x1 x2
  split
  · exact hs
  · exact .ite hs (InOff.ite (hs.setArr.setFld (by rfl)).applyTrims.modeAfterProduct
      ((hs.setArr.setFld (by rfl)).applyTrims.modeAfterProduct.count (by rfl)).tasteEnd.monitor).markDone.restart

theorem InOff.gatherIdle (hs : InOff oc s) {site line : Nat} : InOff oc (s.gatherIdle site line) := hs.flushGather

end Ops

/-! Operations of Machine/Rows.lean. -/

section Ops
variable {oc : OffCause} {s : State}

theorem InOff.setRec (hs : InOff oc s) {a : Nat} {r : ArrRec} : InOff oc (s.setRec a r) := hs.same.recordWrites

theorem InOff.setRepair (hs : InOff oc s) {a : Nat} : InOff oc (s.setRepair a) := .ite hs hs.setRec

theorem InOff.setAge (hs : InOff oc s) {a hours : Nat} {assumed : Bool} : InOff oc (s.setAge a hours assumed) :=
  (((hs.setFld (by rfl)).setFlag (by rfl)).setFlag (by rfl)).setFlag (by rfl)

theorem InOff.stampRec (hs : InOff oc s) {a : Nat} {r : ArrRec} : InOff oc (s.stampRec a r) := hs.setRec.setAge

theorem retiredFld_offMark (h : Nat) : (retiredFld h).offMark = false := by
  unfold retiredFld
  split <;> rfl

theorem unusedFld_offMark (h : Nat) : (unusedFld h).offMark = false := by
  unfold unusedFld
  split <;> rfl

theorem fillingFld_offMark (h : Nat) : (fillingFld h).offMark = false := by
  unfold fillingFld
  split <;> rfl

theorem InOff.retireCore (hs : InOff oc s) {site : Nat} : InOff oc (s.retireCore site) := .ite hs hs.setVfld.recordWrites.same

theorem InOff.rowOff (hs : InOff oc s) {h p : Nat} : InOff oc (s.rowOff h p) := (InOff.foldl (fun _ _ hu => (hu.setFld (by rfl)).setArr) hs).same

theorem InOff.setRow (hs : InOff oc s) {h l st p : Nat} : InOff oc (s.setRow h l st p) := ((hs.setFld (by rfl)).setVfld.setFld (by rfl)).setVfld.recordWrites

theorem InOff.useSpare (hs : InOff oc s) {h : Nat} : InOff oc (s.useSpare h) := (hs.setFld (unusedFld_offMark h)).setVfld

theorem InOff.reportMgr (hs : InOff oc s) {need peer self : Nat} : InOff oc (s.reportMgr need peer self) := .ite hs hs.sendMsg

theorem InOff.reportStatus (hs : InOff oc s) {need : Nat} : InOff oc (s.reportStatus need) := hs.reportMgr

theorem InOff.retireNow (hs : InOff oc s) {h p : Nat} : InOff oc (s.retireNow h p) := by
  unfold State.retireNow
  extract_lets t1
  have ht1 : InOff oc t1 := hs.setFld (retiredFld_offMark h)
  split
  · exact ht1.useSpare.rowOff
  · split
    · exact (InOff.foldl (fun _ _ ht => (ht.setFld (by rfl)).setRepair) (ht1.rowOff.setRow.useSpare.setFld (fillingFld_offMark h))).reportStatus
    · exact ht1.rowOff.setRow.same

theorem InOff.rowActive (hs : InOff oc s) {h l : Nat} : InOff oc (s.rowActive h l) := .ite (hs.setRow.setFld (fillingFld_offMark h)) hs

theorem InOff.rowsBoundary (hs : InOff oc s) : InOff oc s.rowsBoundary :=
  .foldl (fun _ _ ht => .ite ht ht.same.retireNow) (.foldl (fun _ _ ht => .ite (.foldl (fun _ _ hu => hu.rowActive) ht) ht) hs)

end Ops

/-! Operations of Machine/ServeCommit.lean. -/

section Ops
variable {oc : OffCause} {s : State}

theorem InOff.kvCommit (hs : InOff oc s) {p ctx : Nat} : InOff oc (s.kvCommit p ctx) := hs.setCommitted

theorem InOff.kvDiscard (hs : InOff oc s) {p ctx : Nat} : InOff oc (s.kvDiscard p ctx) := hs.setProvisional

theorem InOff.drawHandle : ∀ {k : Nat} {s : State} {p : Nat}, InOff oc s → InOff oc (State.drawHandle k s p).2
  | 0, _, _, hs => hs
  | k + 1, s, p, hs => by
    unfold State.drawHandle
    dsimp only
    split
    · exact hs.draw
    · exact InOff.drawHandle hs.draw

theorem InOff.enterWaymark (hs : InOff oc s) {p h k : Nat} {r : Req} {t : State} (he : s.enterWaymark p h k r = some t) : InOff oc t := by
  unfold State.enterWaymark at he
  split at he
  · dsimp only at he
    split at he
    · cases he
    · rw [Option.map_eq_some_iff] at he
      obtain ⟨u, hu, rfl⟩ := he
      exact (hs.makeCtx hu).onSrv
  · cases he

theorem InOff.issueWaymark (hs : InOff oc s) {p : Nat} {r : Req} : InOff oc (s.issueWaymark p r).2 := by
  have hdrawn {o : Option (Nat × Nat)} {u : State} (hu : State.drawHandle 4 s p = (o, u)) : InOff oc u := by
    have h : InOff oc (State.drawHandle 4 s p).2 := hs.drawHandle
    rwa [hu] at h
  unfold State.issueWaymark
  dsimp only
  split
  · split
    · next u hu =>
      dsimp only
      exact (hdrawn hu).onSrv
    · next h k u hu =>
      split
      · next v hv => exact (hdrawn hu).enterWaymark hv
      · dsimp only
        exact (hdrawn hu).onSrv
  · split
    · exact hs
    · split
      · exact hs
      · split
        · next v hv => exact hs.enterWaymark hv
        · exact hs

theorem InOff.releaseWaymark (hs : InOff oc s) {p h : Nat} : InOff oc (s.releaseWaymark p h) := by
  unfold State.releaseWaymark
  split
  · exact hs
  · exact hs.dropCtx.onSrv

theorem InOff.releaseAll (hs : InOff oc s) {p : Nat} : InOff oc (s.releaseAll p) := .foldl (fun _ _ hu => hu.releaseWaymark) hs

theorem InOff.referTo (hs : InOff oc s) {p c n : Nat} {r : Req} {w : Waymark} : InOff oc (s.referTo p r c w n) := by
  unfold State.referTo
  split
  · next t ht => exact (hs.makeCtx ht).onSrv
  · exact hs.onCounts

theorem InOff.takeReference (hs : InOff oc s) {p : Nat} {r : Req} : InOff oc (s.takeReference p r) := by
  unfold State.takeReference
  extract_lets x1 t2
  have ht2 : InOff oc t2 := hs.onCounts
  split
  · exact hs.onSrv
  · exact .ite ht2 hs.referTo
  · exact ht2

theorem InOff.waymarkMover (hs : InOff oc s) {p : Nat} : InOff oc (s.waymarkMover p) := .ite hs hs.onSrv

theorem InOff.wantedWaymark (hs : InOff oc s) {p : Nat} {r : Req} {wants : Bool} : InOff oc (s.wantedWaymark p r wants).2 := by
  unfold State.wantedWaymark
  split
  · exact hs.issueWaymark
  · exact hs

theorem InOff.commitBind (hs : InOff oc s) {p : Nat} {ending : Nat → Option Nat} {b : Bind} : InOff oc (s.commitBind p ending b) := by
  unfold State.commitBind
  extract_lets t1 tok
  have ht1 : InOff oc t1 := hs.kvCommit
  split
  · exact ht1
  · extract_lets adv r r1 made fin promptDone t2 wants wm t3 t4
    have ht3 : InOff oc t3 := ht1.onSrv.wantedWaymark
    have ht4 : InOff oc t4 := .ite ht3.postEntry ht3
    clear_value fin t4
    split
    · exact ht4
    · exact ht4.onCounts.removeReq

theorem InOff.withholdBind (hs : InOff oc s) {p : Nat} {b : Bind} : InOff oc (s.withholdBind p b) := by
  unfold State.withholdBind
  extract_lets t1
  have ht1 : InOff oc t1 := hs.kvDiscard
  split
  · exact ht1
  · exact .ite ht1.onSrv.endReq ht1.onSrv

theorem InOff.settleBind (hs : InOff oc s) {p : Nat} {withheld : Nat → Bool} {ending : Nat → Option Nat} {b : Bind} : InOff oc (s.settleBind p withheld ending b) :=
  .ite hs.withholdBind.onCounts (.ite hs.withholdBind hs.commitBind)

theorem InOff.endsAct (hs : InOff oc s) {p : Nat} {ends : List (Nat × Nat)} : InOff oc (s.endsAct p ends) := .foldl (fun _ _ hu => hu.endReq) hs.onSrv

theorem InOff.endAll (hs : InOff oc s) {p status : Nat} : InOff oc (s.endAll p status) := hs.onSrv

theorem InOff.bindFrame (hs : InOff oc s) {p : Nat} {fresh : Bool} : InOff oc (s.bindFrame p fresh) :=
  .foldl (fun _ _ hu => hu.kvDiscard.setBinding) (.ite (InOff.foldl (fun _ _ hu => hu.setBinding) hs).onSrv.withholdNotice
      (InOff.foldl (fun _ _ hu => hu.setBinding) hs).onSrv)

theorem InOff.serveBoundary (hs : InOff oc s) {p prev : Nat} {withheld : Nat → Bool} {fresh first : Bool} : InOff oc (s.serveBoundary p prev withheld fresh first) :=
  (InOff.foldl (fun _ _ hu => hu.releaseWaymark) (InOff.foldl (fun _ _ hu => hu.takeReference) (InOff.foldl (fun _ _ hu => hu.settleBind)
      (.ite hs.onSrv.endAll hs.onSrv)).onSrv.onSrv).onSrv).endsAct.onSrv.onSrv.bindFrame

theorem InOff.drainPitch (hs : InOff oc s) {p : Nat} : InOff oc (s.drainPitch p) := (InOff.foldl (fun _ _ hu => hu.endReq) hs).releaseAll

theorem InOff.queuesSettle (hs : InOff oc s) : InOff oc s.queuesSettle := .foldl (fun _ _ ht => .ite ht.queueOff ht) hs

end Ops

/-! Operations of Machine/Manager.lean. -/

section Ops
variable {oc : OffCause} {s : State}

theorem InOff.fromMgr (hs : InOff oc s) {mgr src epoch : Nat} {act : State → State} (hact : ∀ t, InOff oc t → InOff oc (act t)) :
    InOff oc (s.fromMgr mgr src epoch act) :=
  .ite (hs.count (by rfl)) (hact _ (hs.setFld (by rfl)))

theorem InOff.unloadItin (hs : InOff oc s) : InOff oc s.unloadItin :=
  (InOff.foldl (fun _ _ ht => ht.completionMsi) (.foldl (fun _ _ ht => ht.drainPitch) hs)).queuesSettle.same

theorem InOff.onWgt (hs : InOff oc s) {f : WgtSt → WgtSt} : InOff oc (s.onWgt f) := hs.same

end Ops

/-! Operations of Machine/Integrity.lean. -/

section Ops
variable {oc : OffCause} {s : State}

theorem InOff.onMgr (hs : InOff oc s) {f : MgrSt → MgrSt} : InOff oc (s.onMgr f) := hs.same

theorem InOff.withholdLeg (hs : InOff oc s) {core leg reason : Nat} : InOff oc (s.withholdLeg core leg reason) := hs.withholdNotice

theorem InOff.makeDependent (hs : InOff oc s) {core leg : Nat} : InOff oc (s.makeDependent core leg) := hs.onMgr.countReplay.withholdLeg

theorem InOff.startLeg (hs : InOff oc s) {core : Nat} : InOff oc (s.startLeg core) := by
  unfold State.startLeg
  extract_lets t1
  have ht1 : InOff oc t1 := hs.legStart
  split
  · exact ht1
  · split
    · exact .ite ht1.makeDependent ht1
    · exact ht1

theorem InOff.askReplay (hs : InOff oc s) {site partner group : Nat} {rep : SuspectRep} {l : Leg} {it : Itin} : InOff oc (s.askReplay site rep l it partner group) :=
  (InOff.foldl (fun _ _ ht => ht.sendMsg) hs.sendMsg).onMgr.countReplay

theorem InOff.decideFate (hs : InOff oc s) {rep : SuspectRep} : InOff oc (s.decideFate rep) := by
  unfold State.decideFate
  split
  · extract_lets t1
    have ht1 : InOff oc t1 := hs.onMgr
    split
    · exact hs
    · split
      · exact hs.makeDependent
      · split
        · exact ht1.countReplay.withholdLeg
        · split
          · exact hs.askReplay
          · exact ht1.countReplay.withholdLeg
  · exact hs

theorem InOff.onAsked (hs : InOff oc s) {core leg : Nat} {f : Asked → Asked} : InOff oc (s.onAsked core leg f) := hs.onMgr

theorem InOff.dropReplay (hs : InOff oc s) {core leg k reason : Nat} : InOff oc (s.dropReplay core leg k reason) := hs.onAsked.countReplay.withholdLeg

theorem InOff.issueHeld (hs : InOff oc s) {site core : Nat} {l : Leg} {p : Suppressed} {data : Bytes} : InOff oc (s.issueHeld site core l p data) := by
  unfold State.issueHeld
  split
  · exact hs.sendBytes
  · split
    · exact hs.writeTokens
    · exact hs
  · exact hs.portBytes
  · exact hs

theorem InOff.placeOutput (hs : InOff oc s) {core leg : Nat} {out : List (Nat × Bytes) × List (Nat × Bytes)} : InOff oc (s.placeOutput core leg out) := by
  unfold State.placeOutput
  split
  · extract_lets t1 x2 t3 x4 t5
    have ht1 : InOff oc t1 := .foldl (fun _ _ ht => ht.hamperWrite) hs
    have ht3 : InOff oc t3 := by
      unfold t3
      refine .foldl (fun _ _ ht => ?_) ?_
      · split
        · exact ht.issueHeld
        · exact ht
      · exact ht1
    have ht5 : InOff oc t5 := ht3.same
    exact ht5.onAsked.countReplay
  · exact hs

theorem InOff.suspectReport (hs : InOff oc s) {i : Nat} : InOff oc (s.suspectReport i) := by
  unfold State.suspectReport
  split
  · exact hs
  · extract_lets x1 t2 t3 t4 t5
    have ht2 : InOff oc t2 := hs.same
    have ht3 : InOff oc t3 := ht2.raiseBoth
    have ht4 : InOff oc t4 := .ite ht3 ht3.decideFate
    have ht5 : InOff oc t5 := by
      unfold t5
      split
      · split
        · exact ht4.unitError
        · exact ht4
      · exact ht4
    split
    · exact ht3
    · split
      · exact ht4
      · split
        · exact ht5
        · split
          · exact ht5.dropReplay
          · split
            · exact ht5.placeOutput
            · exact ht5

theorem InOff.replayOut (hs : InOff oc s) {src frame core leg : Nat} {unclean : Bool} {out : List (Nat × Bytes) × List (Nat × Bytes)} :
    InOff oc (s.replayOut src frame core leg unclean out) := by
  unfold State.replayOut
  split
  · exact hs
  · exact .ite hs (.ite hs.dropReplay (.ite hs.dropReplay (.ite hs.placeOutput hs.onAsked)))

theorem InOff.replayRefused (hs : InOff oc s) {src frame core leg : Nat} : InOff oc (s.replayRefused src frame core leg) := by
  unfold State.replayRefused
  split
  · exact .ite hs.dropReplay hs
  · exact hs

theorem InOff.giveUpReplay (hs : InOff oc s) {core leg : Nat} : InOff oc (s.giveUpReplay core leg) := by
  unfold State.giveUpReplay
  split
  · exact .ite hs.dropReplay hs
  · exact hs

theorem InOff.replayRequest (hs : InOff oc s) {src frame group core leg : Nat} {input : List (Nat × Bytes)} :
    InOff oc (s.replayRequest src frame group core leg input) := by
  unfold State.replayRequest
  split
  · exact hs.sendMsg
  · exact hs.onMgr

theorem InOff.replayRun (hs : InOff oc s) {core : Nat} : InOff oc (s.replayRun core) := by
  unfold State.replayRun
  split
  · exact hs
  · split
    · exact .ite hs (InOff.foldl (fun _ _ ht => ht.hamperWrite) hs).onMgr.beginLeg.countReplay
    · exact hs

theorem InOff.heldBack (hs : InOff oc s) {frame core ctr : Nat} : InOff oc (s.heldBack frame core ctr) := .ite hs.onMgr hs

theorem InOff.pendingIn (hs : InOff oc s) {frame : Nat} {slots : List Nat} : InOff oc (s.pendingIn frame slots) := .ite hs.onMgr hs

theorem InOff.listTry (hs : InOff oc s) : InOff oc s.listTry := .ite hs ((InOff.foldl (fun _ _ ht => ht.sendMsg) hs).onMgr.setFld (by rfl))

theorem InOff.withholdIn (hs : InOff oc s) {src frame : Nat} {slots : List Nat} : InOff oc (s.withholdIn src frame slots) := .ite hs hs.onMgr.listTry

theorem InOff.listIn (hs : InOff oc s) {src frame : Nat} {slots : List Nat} : InOff oc (s.listIn src frame slots) := (InOff.ite hs.onMgr hs).sendCtl

theorem InOff.listAck (hs : InOff oc s) {src frame : Nat} : InOff oc (s.listAck src frame) := by
  unfold State.listAck
  split
  · exact hs
  · exact .ite hs (hs.onMgr.setFld (by rfl))

theorem InOff.diverge (hs : InOff oc s) {p tag : Nat} : InOff oc (s.diverge p tag) := .ite hs.onSrv.post.countReplay hs

theorem InOff.withheldReport (hs : InOff oc s) {src frame : Nat} {slots : List Nat} : InOff oc (s.withheldReport src frame slots) :=
  .ite hs (.foldl (fun _ _ ht => .ite ht.diverge ht) hs)

theorem InOff.mapIn (hs : InOff oc s) {m : List (Nat × Nat)} : InOff oc (s.mapIn m) := hs.onMgr

end Ops

/-! Operations of Machine/Relay.lean. -/

section Ops
variable {oc : OffCause} {s : State}

theorem InOff.tellManager (hs : InOff oc s) : InOff oc s.tellManager := hs.reportStatus

theorem InOff.passRequest (hs : InOff oc s) {shard c : Nat} : InOff oc (s.passRequest shard c) := by
  unfold State.passRequest
  split
  · exact hs
  · exact .ite hs.post hs.sendMsg

theorem InOff.request (hs : InOff oc s) {c : Nat} : InOff oc (s.request c) := by
  unfold State.request
  split
  · exact hs
  · exact hs.onWgt.passRequest

theorem InOff.requestNeeded (hs : InOff oc s) : InOff oc s.requestNeeded := by
  unfold State.requestNeeded
  split
  · exact hs
  · exact .ite hs (.foldl (fun _ _ hu => hu.request) hs)

theorem InOff.relayFail (hs : InOff oc s) {code : Nat} : InOff oc (s.relayFail code) := hs.onWgt.tellManager

theorem InOff.programmedCheck (hs : InOff oc s) : InOff oc s.programmedCheck := .ite hs.onWgt hs.onWgt.onWgt.tellManager

theorem InOff.forward (hs : InOff oc s) {p : Piece} {dests : List Nat} : InOff oc (s.forward p dests) := .foldl (fun _ _ ht => ht.onWgt.sendMsg) hs

theorem InOff.settleStages (hs : InOff oc s) : InOff oc s.settleStages := by
  unfold State.settleStages
  exact hs.onWgt

theorem InOff.keepPiece (hs : InOff oc s) {p : Piece} : InOff oc (s.keepPiece p) := .ite (.ite hs.onWgt hs) (.ite hs.onWgt (.ite hs.onWgt hs))

theorem InOff.keepReference (hs : InOff oc s) {p : Piece} : InOff oc (s.keepReference p) := by
  unfold State.keepReference
  exact hs.onWgt

theorem InOff.dataPiece (hs : InOff oc s) {pl : RelayPlan} {p : Piece} : InOff oc (s.dataPiece pl p) := by
  unfold State.dataPiece
  extract_lets x1 x2 x3 t4 t5 t6
  have ht4 : InOff oc t4 := hs.forward
  have ht5 : InOff oc t5 := .ite ht4.keepReference ht4
  have ht6 : InOff oc t6 := .ite ht5.keepPiece (.ite (.ite ht5 ht5.onWgt) (.ite ht5.onWgt ht5))
  exact ht6.settleStages

theorem InOff.manifestCheck (hs : InOff oc s) : InOff oc s.manifestCheck := by
  unfold State.manifestCheck
  extract_lets x1 x2
  split
  · exact hs.relayFail
  · split
    · exact hs.relayFail
    · split
      · exact hs.relayFail
      · split
        · exact hs.relayFail
        · exact hs.onWgt.engineAsk

theorem InOff.forwardManifest (hs : InOff oc s) {dests : List Nat} : InOff oc (s.forwardManifest dests) := by
  unfold State.forwardManifest
  split
  · exact hs
  · exact .foldl (fun _ _ ht => ht.forward) hs

theorem InOff.manifestAccept (hs : InOff oc s) {pl : RelayPlan} : InOff oc (s.manifestAccept pl) :=
  (InOff.ite hs.unloadItin hs).onWgt.recordWrites.forwardManifest.tellManager

theorem InOff.manifestAnswer (hs : InOff oc s) {digest : Bytes} {code : Nat} : InOff oc (s.manifestAnswer digest code) := by
  unfold State.manifestAnswer
  extract_lets x1 t2 x3
  have ht2 : InOff oc t2 := hs.onWgt
  split
  · exact hs
  · exact .ite hs (.ite ht2.onWgt.relayFail (.ite ht2.relayFail (.ite ht2.relayFail ht2.manifestAccept)))

theorem InOff.manifestPiece (hs : InOff oc s) {p : Piece} : InOff oc (s.manifestPiece p) := .ite hs (.ite hs.onWgt hs.onWgt.onWgt.manifestCheck)

theorem InOff.takePiece (hs : InOff oc s) {p : Piece} : InOff oc (s.takePiece p) := by
  unfold State.takePiece
  extract_lets t1 t2
  have ht1 : InOff oc t1 := hs.onWgt
  have ht2 : InOff oc t2 := hs.onWgt
  split
  · exact ht1
  · exact .ite ht1 (.ite hs.passRequest (.ite ht2.manifestPiece (.ite ht1 (.ite ht2.dataPiece ht1))))

theorem InOff.stageAndAnswer (hs : InOff oc s) {c : Option Mgmt} {p : Piece} : InOff oc (s.stageAndAnswer c p) := by
  unfold State.stageAndAnswer
  extract_lets t1
  have ht1 : InOff oc t1 := hs.takePiece
  split
  · exact ht1.answer
  · exact ht1

theorem InOff.restage : ∀ {l : List (Option Mgmt × Piece)} {s : State}, InOff oc s → InOff oc (State.restage l s)
  | [], _, hs => hs
  | _ :: _, _, hs => .ite (InOff.restage hs.stageAndAnswer) (InOff.restage hs.onWgt)

theorem InOff.retryWaiting (hs : InOff oc s) : InOff oc s.retryWaiting := hs.onWgt.settleStages.restage

theorem InOff.pieceArrives (hs : InOff oc s) {c : Option Mgmt} {p : Piece} : InOff oc (s.pieceArrives c p) := hs.settleStages.restage

theorem InOff.beginSession (hs : InOff oc s) {p : RelayPlan} : InOff oc (s.beginSession p) :=
  (InOff.ite hs hs.onWgt.tellManager).onWgt.tellManager.requestNeeded.programmedCheck.retryWaiting

theorem InOff.relayPlan (hs : InOff oc s) {p : RelayPlan} : InOff oc (s.relayPlan p) := by
  unfold State.relayPlan
  split
  · exact hs.onWgt.tellManager
  · extract_lets t1 t2
    have ht1 : InOff oc t1 := hs.sessionAbort
    have ht2 : InOff oc t2 := ht1.onWgt
    split
    · exact .ite (InOff.ite ht2.forwardManifest ht2).requestNeeded.tellManager (.ite ht1.onWgt ht1.beginSession)
    · exact ht1.beginSession

theorem InOff.expectCore (hs : InOff oc s) {shard core : Nat} : InOff oc (s.expectCore shard core) := by
  unfold State.expectCore
  split
  · exact hs
  · refine .foldl (fun _ _ ht => ?_) ?_
    · split
      · exact ht.onWgt
      · exact ht
    · exact hs

theorem InOff.stripeCheck (hs : InOff oc s) : InOff oc s.stripeCheck := .ite hs.onWgt.recordWrites.relayFail hs

theorem InOff.hashFailed (hs : InOff oc s) {c code : Nat} : InOff oc (s.hashFailed c code) := .ite hs.onWgt.relayFail hs.onWgt.request

theorem InOff.verifyLeaves (hs : InOff oc s) : InOff oc s.verifyLeaves := by
  unfold State.verifyLeaves
  split
  · exact hs
  · exact .ite hs (.ite hs.onWgt.recordWrites.tellManager hs.hashFailed)

theorem InOff.chunkGood (hs : InOff oc s) {pl : RelayPlan} {c : Nat} {b : Bytes} : InOff oc (s.chunkGood pl c b) :=
  .ite hs.onWgt.relayFail (InOff.foldl (fun _ _ ht => ht.expectCore) (.ite hs.onWgt.onWgt (.ite hs.onWgt.onWgt hs.onWgt.onWgt))).stripeCheck.retryWaiting

theorem InOff.chunkVerify (hs : InOff oc s) {c : Nat} : InOff oc (s.chunkVerify c) := by
  unfold State.chunkVerify
  split
  · exact hs.verifyLeaves
  · split
    · exact hs
    · split
      · exact hs
      · exact .ite hs (.ite hs.chunkGood hs.hashFailed.retryWaiting)

theorem InOff.relayStalled (hs : InOff oc s) : InOff oc s.relayStalled := .ite hs (InOff.foldl (fun _ _ ht => ht.request) hs.onWgt).tellManager

theorem InOff.relayEnd (hs : InOff oc s) : InOff oc s.relayEnd := .ite hs.onWgt.retryWaiting.tellManager hs

end Ops

/-! Operations of Machine/Fabric.lean. -/

section Ops
variable {oc : OffCause} {s : State}

theorem InOff.setPort (hs : InOff oc s) {n : Nat} {x : PortSt} : InOff oc (s.setPort n x) := hs.same

theorem InOff.portIrq (hs : InOff oc s) {n : Nat} : InOff oc (s.portIrq n) := hs.raiseBoth

theorem InOff.portDown (hs : InOff oc s) {n cause : Nat} : InOff oc (s.portDown n cause) := by
  unfold State.portDown
  extract_lets x1 x2 t3 x4 t5 t6 t7 x8 t9
  have ht3 : InOff oc t3 := ((hs.setFld (by rfl)).setFld (by rfl)).setFld (by rfl)
  have ht5 : InOff oc t5 := ((ht3.setFlag (by rfl)).setFld (by rfl)).setPort
  have ht6 : InOff oc t6 := (ht5.count (by rfl)).portIrq.post
  have ht7 : InOff oc t7 := .ite ht6.unitError ht6
  have ht9 : InOff oc t9 := ht7.same
  exact .ite ht9.onMgr ht9

theorem InOff.portLinkDown (hs : InOff oc s) {n cause : Nat} : InOff oc (s.portLinkDown n cause) := .ite hs (.ite hs.portDown (.ite hs.portDown hs))

theorem InOff.portUp (hs : InOff oc s) {n : Nat} : InOff oc (s.portUp n) := by
  rwa [State.portUp, if_pos (by simp [hs.off])]

theorem InOff.retrain (hs : InOff oc s) {p : Path} {n : Nat} : InOff oc (s.retrain p n) := by simpa [State.retrain, hs.ownWrite] using hs

theorem InOff.releaseList : ∀ {l : List FwMsg} {s : State}, InOff oc s → InOff oc (State.releaseList l s)
  | [], _, hs => hs
  | _ :: _, _, hs => .ite (InOff.releaseList (.ite hs.transmit.same hs.transmit)) (InOff.releaseList hs.same)

theorem InOff.releaseWaiting (hs : InOff oc s) : InOff oc s.releaseWaiting := hs.same.releaseList

theorem InOff.sendAck (hs : InOff oc s) {part units : Nat} {seq : Option Nat} : InOff oc (s.sendAck part seq units) := hs.same

theorem InOff.grantCredits : ∀ {n : Nat} {s : State}, InOff oc s → InOff oc (State.grantCredits n s)
  | 0, _, hs => hs
  | n + 1, s, hs => by
    unfold State.grantCredits
    split
    · exact hs
    · dsimp only
      split
      · exact hs
      · exact InOff.grantCredits hs.same.sendAck

theorem InOff.creditRequest (hs : InOff oc s) {src units : Nat} : InOff oc (s.creditRequest src units) := hs.same.grantCredits

theorem InOff.creditBack (hs : InOff oc s) {src units : Nat} : InOff oc (s.creditBack src units) := .ite hs hs.same.grantCredits

theorem InOff.ackIn (hs : InOff oc s) {src units : Nat} {seq : Option Nat} : InOff oc (s.ackIn src seq units) :=
  (InOff.ite hs.same (.ite hs.same.same hs.same.same)).releaseWaiting

theorem InOff.resend (hs : InOff oc s) {part seq : Nat} : InOff oc (s.resend part seq) := by
  unfold State.resend
  split
  · exact hs
  · exact .ite hs (.ite (hs.same.count (by rfl)) (hs.same.post.count (by rfl)).reportMgr.releaseWaiting)

theorem InOff.sendPause (hs : InOff oc s) {n mask : Nat} : InOff oc (s.sendPause n mask) := ((hs.setFld (by rfl)).count (by rfl)).setPort

theorem InOff.pauseCheck (hs : InOff oc s) {n : Nat} : InOff oc (s.pauseCheck n) := .ite hs (.ite hs.sendPause (.ite hs.sendPause hs))

theorem InOff.xonResume (hs : InOff oc s) {n drained drained1 : Nat} : InOff oc (s.xonResume n drained drained1) :=
  .ite (.ite (hs.setPort.setFld (by rfl)) hs.setPort) (hs.setPort.setFld (by rfl))

theorem InOff.pauseRepeat (hs : InOff oc s) {n : Nat} : InOff oc (s.pauseRepeat n) := .ite hs.sendPause hs

theorem InOff.txRelease (hs : InOff oc s) {n c : Nat} : InOff oc (s.txRelease n c) := .ite hs hs.same

theorem InOff.pauseExpiry (hs : InOff oc s) {n c : Nat} : InOff oc (s.pauseExpiry n c) := .ite hs hs.setPort.txRelease

theorem InOff.pfcPause (hs : InOff oc s) {n : Nat} {quanta : List (Nat × Nat)} : InOff oc (s.pfcPause n quanta) :=
  .foldl (fun _ _ ht => ht.txRelease) (hs.setPort.count (by rfl))

theorem InOff.legData (hs : InOff oc s) {n rec : Nat} {f : RxFrame} : InOff oc (s.legData n f rec) := by
  unfold State.legData
  extract_lets t1
  have ht1 : InOff oc t1 := .ite (hs.count (by rfl)) hs
  split
  · exact ht1
  · extract_lets t1 x2 x3 t4
    have ht1 : InOff oc t1 := ht1.deliver
    have ht4 : InOff oc t4 := ht1.same
    split
    · exact ht4
    · split
      · exact ht4.ctrInc.restart
      · exact ht4

theorem InOff.takeEarly : ∀ {n : Nat} {s : State} {src : Nat}, InOff oc s → InOff oc (State.takeEarly n s src)
  | 0, _, _, hs => hs
  | _ + 1, _, _, hs => .ite (InOff.takeEarly hs.same) hs

theorem InOff.messageFrame (hs : InOff oc s) {f : RxFrame} : InOff oc (s.messageFrame f) := .ite hs.sendAck (.ite hs.same hs.same.sendAck.creditBack.takeEarly)

theorem InOff.acceptFrame (hs : InOff oc s) {n : Nat} {f : RxFrame} {deliver : State → State} (hdeliver : ∀ t, InOff oc t → InOff oc (deliver t)) :
    InOff oc (s.acceptFrame n f deliver) :=
  (hdeliver _ hs.setPort.same).pauseCheck

theorem InOff.frameIn (hs : InOff oc s) {n : Nat} {f : RxFrame} : InOff oc (s.frameIn n f) := by
  unfold State.frameIn
  split
  · exact hs
  · extract_lets t1 x2 x3 t4 t5
    have ht1 : InOff oc t1 := (hs.count (by rfl)).count (by rfl)
    have ht4 : InOff oc t4 := .ite ht1.setPort.unitError ht1
    have ht5 : InOff oc t5 := ht4.setPort
    split
    · exact ht5.count (by rfl)
    · split
      · exact ht5.count (by rfl)
      · split
        · exact ht5.count (by rfl)
        · split
          · split
            · exact ht5.count (by rfl)
            · exact .ite (ht5.count (by rfl)) (ht5.acceptFrame (fun _ ht => ht.legData))
          · exact .ite (ht5.acceptFrame (fun _ ht => ht.messageFrame)) (.ite (ht5.acceptFrame (fun _ ht => ht)) (ht5.count (by rfl)))

end Ops

/-! Operations of Machine/Program.lean. -/

section Ops
variable {oc : OffCause} {s : State}

theorem InOff.setJob (hs : InOff oc s) {a : Nat} {j : Job} : InOff oc (s.setJob a j) := hs.onWgt

theorem InOff.dropJob (hs : InOff oc s) {a : Nat} : InOff oc (s.dropJob a) := hs.onWgt

theorem InOff.jobIssue (hs : InOff oc s) {a : Nat} {j : Job} : InOff oc (s.jobIssue a j) :=
  .ite hs ((((InOff.ite hs hs.hamperWrite).setFld (by rfl)).setFld (by rfl)).setFld (by rfl)).arrCommand.setJob

theorem InOff.kickJobs (hs : InOff oc s) : InOff oc s.kickJobs := .foldl (fun _ _ ht => ht.jobIssue) hs

theorem InOff.jobTo (hs : InOff oc s) {a : Nat} {j : Job} {st : JobStage} : InOff oc (s.jobTo a j st) := hs.setJob

theorem InOff.jobStart (hs : InOff oc s) {a : Nat} {again : Bool} : InOff oc (s.jobStart a again) := by
  unfold State.jobStart
  split
  · exact (InOff.ite hs.setRec.onWgt hs.setRec.onWgt.arrCommand).setJob
  · exact hs

theorem InOff.jobFaulty (hs : InOff oc s) {a fault : Nat} : InOff oc (s.jobFaulty a fault) := hs.setRec.dropJob.arrCommand.onWgt.retireCore

theorem InOff.coreProgrammed (hs : InOff oc s) {site : Nat} : InOff oc (s.coreProgrammed site) := by
  unfold State.coreProgrammed
  split
  · exact hs
  · extract_lets t1
    have ht1 : InOff oc t1 := hs.setFld (by rfl)
    split
    · exact ht1.onWgt.retryWaiting
    · exact ht1

theorem InOff.jobValid (hs : InOff oc s) {a : Nat} : InOff oc (s.jobValid a) := hs.stampRec.dropJob.arrCommand.coreProgrammed

theorem InOff.ledgerMends (hs : InOff oc s) {a state origin : Nat} {ms : List MendPlan} : InOff oc (s.ledgerMends a state origin ms) := hs.onWgt.recordWrites

theorem InOff.jobPlan (hs : InOff oc s) {a : Nat} {j : Job} : InOff oc (s.jobPlan a j) := by
  unfold State.jobPlan
  split
  · exact hs.jobFaulty
  · split
    · exact hs.jobFaulty
    · extract_lets t1 x2
      have ht1 : InOff oc t1 := hs.ledgerMends
      split
      · exact ht1.jobTo
      · exact ht1.jobTo

theorem InOff.jobMove (hs : InOff oc s) {a r : Nat} {j : Job} : InOff oc (s.jobMove a j r) := by
  unfold State.jobMove
  extract_lets bad free
  clear_value free
  split
  · exact hs.jobFaulty
  · exact hs.ledgerMends.jobTo

theorem InOff.jobCheck (hs : InOff oc s) {a : Nat} {j : Job} : InOff oc (s.jobCheck a j) := .ite hs.jobValid (.ite hs.jobFaulty hs.jobStart)

theorem InOff.refreshCommit (hs : InOff oc s) {a : Nat} : InOff oc (s.refreshCommit a) := hs.onWgt.recordWrites.setRec.dropJob

theorem InOff.refreshLost (hs : InOff oc s) {a : Nat} : InOff oc (s.refreshLost a) := hs.dropJob.arrCommand.onWgt.setRepair.tellManager

theorem InOff.jobNext (hs : InOff oc s) {a : Nat} {j : Job} {fs : List CellFault} {overflow : Bool} : InOff oc (s.jobNext a j fs overflow) := by
  unfold State.jobNext
  split
  · exact hs.setRec.jobTo
  · split
    · exact hs.jobFaulty
    · exact .ite hs.jobFaulty (.ite hs.jobTo hs.jobPlan)
  · exact .ite (.ite hs.jobTo hs.refreshLost) (.ite hs.jobTo hs.jobMove)
  · extract_lets x3
    split
    · exact hs.jobMove
    · exact hs.jobTo
  · exact hs.jobTo
  · exact .ite hs.refreshCommit hs.jobCheck
  · exact hs.setRec.dropJob

theorem InOff.refreshMend (hs : InOff oc s) {a : Nat} {ns : List MendNeed} : InOff oc (s.refreshMend a ns) := by
  unfold State.refreshMend
  split
  · exact hs.refreshLost
  · extract_lets new t1 present t2 bad
    have ht2 : InOff oc t2 := hs.ledgerMends.setRec
    clear_value t2 new
    split
    · exact hs.refreshLost
    · split
      · exact ht2
      · exact ht2.setJob

theorem InOff.refreshDone (hs : InOff oc s) {a result : Nat} {before : ArrSt} : InOff oc (s.refreshDone a before result) := by
  unfold State.refreshDone
  extract_lets x1 x2 x3 t4 t5
  have ht4 : InOff oc t4 := hs.unitError
  have ht5 : InOff oc t5 := .ite ht4.setArr.stampRec (.ite ht4 ht4.setRec)
  split
  · exact ht5
  · split
    · exact ht5.refreshLost
    · exact ht5
    · exact .ite ht5.refreshLost ht5.refreshMend

theorem InOff.planReady (hs : InOff oc s) : InOff oc s.planReady := by
  unfold State.planReady
  split
  · exact .ite hs hs.beginSession
  · exact hs

theorem InOff.commandEnd (hs : InOff oc s) {a : Nat} {reads finals : List (Nat × Nat)} {sweep : List Nat} : InOff oc (s.commandEnd a reads finals sweep) := by
  unfold State.commandEnd
  split
  · exact hs
  · split
    · exact hs
    · extract_lets x1 t2 t3
      have ht2 : InOff oc t2 := hs.arrCommandEnd
      have ht3 : InOff oc t3 := by
        unfold t3
        split
        · exact .ite ht2 (.ite ht2.dropJob (.ite ht2.setJob ht2.jobNext))
        · exact .ite ht2.refreshDone ht2
      exact ht3.planReady.kickJobs.programmedCheck

theorem InOff.programCore (hs : InOff oc s) {core : Nat} : InOff oc (s.programCore core) := by
  unfold State.programCore
  split
  · exact hs.kickJobs
  · split
    · exact hs
    · exact (InOff.foldl (fun _ _ ht => ht.jobStart) hs.onWgt).kickJobs

theorem InOff.scrubRead (hs : InOff oc s) {a : Nat} : InOff oc (s.scrubRead a) := by
  unfold State.scrubRead
  split
  · exact hs
  · exact .ite hs (.ite hs.onWgt hs.onWgt.setRepair.tellManager.requestNeeded)

end Ops

/-! Operations of Machine/Domain.lean. -/

section Ops
variable {oc : OffCause} {s : State}

theorem InOff.givePlan (hs : InOff oc s) {part : Nat} {p : RelayPlan} : InOff oc (s.givePlan part p) := .ite hs.relayPlan hs.onWgt.sendMsg

theorem InOff.newTree (hs : InOff oc s) {q : List (Nat × List Nat)} {needs : SMap Nat} {fresh : List Nat} : InOff oc (s.newTree q needs fresh) := by
  unfold State.newTree
  split
  · exact hs
  · exact .foldl (fun _ _ ht => ht.givePlan) hs.onWgt

theorem InOff.planRelay (hs : InOff oc s) {kind : Nat} {needing : List Nat} : InOff oc (s.planRelay kind needing) := .ite hs hs.newTree

theorem InOff.planAround (hs : InOff oc s) {part : Nat} {gone : Bool} : InOff oc (s.planAround part gone) := .ite hs (.ite hs.newTree.onWgt hs.newTree)

theorem InOff.sendMaps (hs : InOff oc s) : InOff oc s.sendMaps := .ite hs (.foldl (fun _ _ ht => .ite ht.mapIn ht.sendMsg) hs)

theorem InOff.withdrawIn (hs : InOff oc s) {part : Nat} {out : Bool} : InOff oc (s.withdrawIn part out) := .ite hs.onMgr hs.onMgr

theorem InOff.setWithdrawn (hs : InOff oc s) {part : Nat} {out : Bool} : InOff oc (s.setWithdrawn part out) := by
  unfold State.setWithdrawn
  split
  · exact hs
  · exact .ite hs (.ite (InOff.ite (.foldl (fun _ _ ht => .ite ht ht.sendMsg) (hs.setFlag (by rfl))) (InOff.foldl (fun _ _ ht => .ite ht ht.sendMsg)
      (hs.setFlag (by rfl))).onMgr).withdrawIn.sendMaps.planAround (InOff.ite (.foldl (fun _ _ ht => .ite ht ht.sendMsg) (hs.setFlag (by rfl)))
      (InOff.foldl (fun _ _ ht => .ite ht ht.sendMsg) (hs.setFlag (by rfl))).onMgr).withdrawIn.sendMaps)

theorem InOff.substitute (hs : InOff oc s) {part : Nat} : InOff oc (s.substitute part) := by
  unfold State.substitute
  split
  · exact hs
  · exact .ite hs hs.onMgr.sendMsg

theorem InOff.assumeNext (hs : InOff oc s) {b : Substitution} : InOff oc (s.assumeNext b) := hs.onMgr.sendMsg

theorem InOff.cutIn (hs : InOff oc s) {src : Nat} : InOff oc (s.cutIn src) := hs.onMgr.sendMsg.setFld (by rfl)

theorem InOff.cutAck (hs : InOff oc s) {src : Nat} : InOff oc (s.cutAck src) := by
  unfold State.cutAck
  split
  · exact .ite hs.assumeNext hs
  · exact hs

theorem InOff.cutTimeout (hs : InOff oc s) : InOff oc s.cutTimeout := by
  unfold State.cutTimeout
  split
  · exact .ite hs.assumeNext hs
  · exact hs

theorem InOff.assumeIn (hs : InOff oc s) {src number : Nat} : InOff oc (s.assumeIn src number) := (hs.setFld (by rfl)).sendMsg

theorem InOff.assumeAck (hs : InOff oc s) {src : Nat} : InOff oc (s.assumeAck src) := by
  unfold State.assumeAck
  split
  · exact .ite (hs.setFld (by rfl)).onMgr.sendMaps.planAround.planRelay hs
  · exact hs

theorem InOff.endSessions (hs : InOff oc s) : InOff oc s.endSessions := .ite hs (InOff.foldl (fun _ _ ht => ht.sendMsg) hs).onWgt.relayEnd

theorem InOff.statusIn (hs : InOff oc s) {src state result need shard peer self : Nat} : InOff oc (s.statusIn src state result need shard peer self) := by
  unfold State.statusIn
  split
  · exact hs
  · split
    · exact hs
    · extract_lets x1 x2 t3 t4 t5 t6 t7 t8 t9 t10
      have ht3 : InOff oc t3 := hs.onWgt
      have ht4 : InOff oc t4 := .ite ht3.setWithdrawn ht3
      have ht5 : InOff oc t5 := .ite ht4.planRelay ht4
      have ht6 : InOff oc t6 := .ite ht5.planAround ht5
      have ht7 : InOff oc t7 := .ite ht6.setWithdrawn (.ite ht6.setWithdrawn ht6)
      have ht8 : InOff oc t8 := .ite ht7.substitute ht7
      have ht9 : InOff oc t9 := by
        unfold t9
        split
        · exact .ite ht8.onMgr ht8
        · exact ht8
      have ht10 : InOff oc t10 := .ite ht9.setWithdrawn ht9
      exact ht10.endSessions

theorem InOff.resendAct (hs : InOff oc s) {part seq : Nat} : InOff oc (s.resendAct part seq) := .ite hs.resend.planAround hs.resend

theorem InOff.setRoll (hs : InOff oc s) {p : Nat} {t : RollTally} : InOff oc (s.setRoll p t) := hs.onMgr

theorem InOff.expelIn (hs : InOff oc s) {n stripe : Nat} : InOff oc (s.expelIn n stripe) := hs.onMgr.post.tellManager

theorem InOff.expel (hs : InOff oc s) {p cause stripe : Nat} : InOff oc (s.expel p cause stripe) := by
  unfold State.expel
  exact (InOff.ite hs.post.expelIn hs.post.sendMsg).onMgr.setRoll.setWithdrawn.substitute

theorem InOff.rollJudge (hs : InOff oc s) {p n shard : Nat} {digest : Option Bytes} : InOff oc (s.rollJudge p n shard digest) := by
  unfold State.rollJudge
  split
  · exact hs
  · extract_lets x1 t2
    have ht2 : InOff oc t2 := hs.setRoll
    split
    · exact .ite ht2.expel ht2
    · split
      · exact .ite ht2 ht2.expel
      · exact ht2

theorem InOff.rollCall (hs : InOff oc s) {src n : Nat} : InOff oc (s.rollCall src n) :=
  .ite (InOff.ite hs.countReplay.countReplay hs.countReplay).onWgt.rollJudge (InOff.ite hs.countReplay.countReplay hs.countReplay).onWgt.sendMsg

theorem InOff.rollDue (hs : InOff oc s) : InOff oc s.rollDue :=
  .ite hs (.foldl (fun _ _ ht => .ite ht.setRoll.rollCall ht.setRoll.sendMsg) (InOff.foldl (fun _ _ ht => .ite ht (.ite ht.expel ht.setRoll)) hs).onMgr)

theorem InOff.readyIn (hs : InOff oc s) {src frame : Nat} : InOff oc (s.readyIn src frame) := by
  unfold State.readyIn
  split
  · exact hs
  · split
    · exact hs
    · extract_lets t1 t2 t3 t4
      have ht1 : InOff oc t1 := .ite hs.onMgr hs
      have ht2 : InOff oc t2 := .ite ht1 ht1.onMgr
      have ht3 : InOff oc t3 := ht2.setFld (by rfl)
      have ht4 : InOff oc t4 := by
        unfold t4
        split
        · exact .ite ht3.onMgr.setWithdrawn.post ht3
        · exact ht3
      exact ht4.listTry

theorem InOff.dropEntry (hs : InOff oc s) {i : Nat} : InOff oc (s.dropEntry i) :=
  .ite (hs.setFld (by rfl)).setWithdrawn (.ite (hs.setFld (by rfl)) (.foldl (fun _ _ hu => hu.sendMsg) ((hs.setFld (by rfl)).setFld (by rfl))))

theorem InOff.standDown (hs : InOff oc s) : InOff oc s.standDown := ((hs.setFld (by rfl)).setFld (by rfl)).onMgr

theorem InOff.claimIn (hs : InOff oc s) {src epoch : Nat} : InOff oc (s.claimIn src epoch) := by
  unfold State.claimIn
  extract_lets x1 x2 x3 t4 t5 x6 t7
  have ht4 : InOff oc t4 := .ite hs.standDown hs
  have ht5 : InOff oc t5 := ht4.setFld (by rfl)
  have ht7 : InOff oc t7 := .ite (ht5.setFld (by rfl)) ht5
  exact .ite (hs.count (by rfl)) (.ite (ht7.setFld (by rfl)) ht7)

theorem InOff.beatIn (hs : InOff oc s) {src epoch nextRoll rollIn : Nat} : InOff oc (s.beatIn src epoch nextRoll rollIn) :=
  .ite (hs.count (by rfl)) (hs.fromMgr (fun _ ht => ht.onMgr))

theorem InOff.takeOver (hs : InOff oc s) : InOff oc s.takeOver := by
  unfold State.takeOver
  extract_lets x1 x2 x3 x4 x5 x6 t7 t8 t9 x10 t11 x12 t13
  have ht7 : InOff oc t7 := (hs.setFld (by rfl)).setFld (by rfl)
  have ht8 : InOff oc t8 := .ite ((ht7.setFld (by rfl)).setFld (by rfl)) ht7
  have ht9 : InOff oc t9 := .ite ((ht8.setFld (by rfl)).setFld (by rfl)) ht8
  have ht11 : InOff oc t11 := .foldl (fun _ _ ht => ht.sendCtl) ht9
  have ht13 : InOff oc t13 := ht11.onMgr
  refine .foldl (fun _ _ ht => ?_) ?_
  · extract_lets t1
    have ht1 : InOff oc t1 := by
      unfold t1
      split
      · exact ht.dropEntry
      · exact ht
    exact ht1.post
  · exact ht13

end Ops

/-! Operations of Machine/History.lean. -/

section Ops
variable {oc : OffCause} {s : State}

theorem InOff.setHist (hs : InOff oc s) {kind i : Nat} {r : HistRec} : InOff oc (s.setHist kind i r) := hs.same.recordWrites

theorem InOff.retireUnit (hs : InOff oc s) {kind i : Nat} : InOff oc (s.retireUnit kind i) :=
  .ite hs.retireCore (.ite hs.retireCore (.ite (InOff.ite ((hs.setFld (by rfl)).setVfld.setFld (by rfl)).portDown
      (((hs.setFld (by rfl)).setVfld.setFld (by rfl)).setFld (by rfl))).post (.ite hs.onMgr.reportMgr hs)))

theorem InOff.writeHist (hs : InOff oc s) {p : HistPend} : InOff oc (s.writeHist p) := .ite hs.setHist.post.retireUnit hs.setHist

theorem InOff.dropHist (hs : InOff oc s) {p : HistPend} : InOff oc (s.dropHist p) := .ite hs.same hs.same.same.post

theorem InOff.writeReplay (hs : InOff oc s) {h : Nat} : InOff oc (s.writeReplay h) := .ite hs hs.setHist.same

theorem InOff.historyWrite (hs : InOff oc s) : InOff oc s.historyWrite :=
  .ite hs (InOff.foldl (fun _ _ ht => ht.writeHist) (.foldl (fun _ _ ht => ht.dropHist) hs.same)).writeReplay.writeReplay

theorem InOff.histSettle (hs : InOff oc s) : InOff oc s.histSettle := .foldl (fun _ _ ht => .ite ht.setHist ht) hs

end Ops

/-! Operations of Machine/Taster.lean. -/

section Ops
variable {oc : OffCause} {s : State}

theorem InOff.cribStat (hs : InOff oc s) {site op slot result : Nat} {done : Bool} : InOff oc (s.cribStat site op slot result done) :=
  (((hs.setFld (by rfl)).setFld (by rfl)).setFld (by rfl)).setFlag (by rfl)

theorem InOff.setSlot (hs : InOff oc s) {site slot : Nat} {x : CribSlot} : InOff oc (s.setSlot site slot x) := (hs.setCore.setFlag (by rfl)).setFld (by rfl)

theorem InOff.cribFill (hs : InOff oc s) {site slot arr cblock : Nat} : InOff oc (s.cribFill site slot arr cblock) :=
  .ite hs.cribStat (.ite hs.cribStat (.ite hs.cribStat (.ite hs.cribStat (.ite hs.cribStat hs.setSlot.setCore.cribStat))))

theorem InOff.cribTake (hs : InOff oc s) {site : Nat} {f : CribFill} {block : Option (SMap Nat)} {parity : Bool} : InOff oc (s.cribTake site f block parity) := by
  unfold State.cribTake
  split
  · exact hs.cribStat
  · exact .ite hs.cribStat.unitError (((hs.cribStat.setSlot.setFld (by rfl)).setFld (by rfl)).setFld (by rfl))

theorem InOff.cribFillEnd (hs : InOff oc s) {site : Nat} {codes : List (Nat × Nat)} {parity : Bool} : InOff oc (s.cribFillEnd site codes parity) := by
  unfold State.cribFillEnd
  split
  · exact hs
  · exact .ite hs hs.setArr.setCore.raiseRow.cribTake

theorem InOff.cribDrop (hs : InOff oc s) {site slot : Nat} : InOff oc (s.cribDrop site slot) := .ite hs.cribStat hs.setSlot.cribStat.raiseRow

theorem InOff.inject (hs : InOff oc s) {p : Path} {site : Nat} : InOff oc (s.inject p site) := by simpa [State.inject, hs.ownWrite] using hs

theorem InOff.coreClear (hs : InOff oc s) {site : Nat} : InOff oc (s.coreClear site) :=
  .ite hs ((InOff.foldl (fun _ _ ht => ht.setArr) (.foldl (fun _ _ ht => ht.setSlot) hs.same)).setCore.ctrsZero.setFld (by rfl))

theorem InOff.clearDue (hs : InOff oc s) {site : Nat} : InOff oc (s.clearDue site) := (hs.setCore.setFld (by rfl)).setFld (by rfl)

theorem InOff.coreClearComplete (hs : InOff oc s) {site : Nat} : InOff oc (s.coreClearComplete site) := by
  unfold State.coreClearComplete
  split
  · exact hs
  · split
    · exact hs
    · extract_lets x1 t2 t3
      have ht2 : InOff oc t2 := hs.setCore
      have ht3 : InOff oc t3 := (ht2.setFld (by rfl)).count (by rfl)
      split
      · exact .ite ht3.seqAfter (ht3.setFld (by rfl))
      · exact ht3.setFld (by rfl)

end Ops

/-! Operations of Machine/Pitch.lean. -/

section Ops
variable {oc : OffCause} {s : State}

theorem InOff.putPitch (hs : InOff oc s) {view p : Nat} {v : PitchSet} : InOff oc (s.putPitch view p v) :=
  .foldl (fun _ _ hu => hu.setFld (by rfl)) ((((((hs.setFlag (by rfl)).setFld (by rfl)).setFld (by rfl)).setFld (by rfl)).setFld (by rfl)).setFld (by rfl))

theorem InOff.markPending (hs : InOff oc s) : InOff oc s.markPending := hs.setFlag (by rfl)

theorem InOff.zeroChannel (hs : InOff oc s) {k : Nat} : InOff oc (s.zeroChannel k) := ((hs.setFld (by rfl)).setFld (by rfl)).same

theorem InOff.showPitch (hs : InOff oc s) {core : Nat} {p : Option Nat} : InOff oc (s.showPitch core p) := by
  unfold State.showPitch
  split
  · split
    · exact (hs.setFld (by rfl)).setFld (by rfl)
    · exact hs.setFld (by rfl)
  · exact hs

theorem InOff.pitchCurrent (hs : InOff oc s) {cp : List PitchSet} : InOff oc (s.pitchCurrent cp) := by
  unfold State.pitchCurrent
  extract_lets x1 t2 t3 t4
  have ht2 : InOff oc t2 := .foldl (fun _ _ ht => ht.putPitch) hs
  have ht3 : InOff oc t3 := by
    unfold t3
    refine .foldl (fun _ _ ht => ?_) ?_
    · split
      · exact .ite ((ht.setFld (by rfl)).setFld (by rfl)) ht
      · exact .ite ht.zeroChannel ht
    · exact ht2
  have ht4 : InOff oc t4 := by
    unfold t4
    refine .foldl (fun _ _ ht => ?_) ?_
    · extract_lets x1
      split
      · exact ht
      · split
        · exact ht.showPitch.clearDue
        · exact ht
    · exact ht3
  exact ht4.markPending

theorem InOff.pitchField (hs : InOff oc s) {p : Path} {addr value : Nat} : InOff oc (s.pitchField p addr value) := by
  rwa [State.pitchField, if_pos (hs.pathShut p)]

theorem InOff.pitchApply (hs : InOff oc s) {p : Path} : InOff oc (s.pitchApply p) := by simpa [State.pitchApply, hs.ownWrite] using hs

theorem InOff.zeroingComplete (hs : InOff oc s) {k : Nat} : InOff oc (s.zeroingComplete k) := .ite ((hs.same.setFld (by rfl)).setFld (by rfl)) hs

theorem InOff.scrubBeat (hs : InOff oc s) {k off : Nat} {bad : Bool} : InOff oc (s.scrubBeat k off bad) := by
  unfold State.scrubBeat
  extract_lets x1 t2 t3 t4 x5
  have ht2 : InOff oc t2 := (hs.count (by rfl)).unitError.setFld (by rfl)
  have ht3 : InOff oc t3 := (ht2.setFld (by rfl)).setFld (by rfl)
  have ht4 : InOff oc t4 := ht3.raiseBoth
  split
  · exact hs.count (by rfl)
  · split
    · exact .ite ht4 ht4.same
    · exact ht4

theorem InOff.patrolScrub (hs : InOff oc s) {n : Nat} {errs : List (Nat × Nat × Bool)} : InOff oc (s.patrolScrub n errs) :=
  .ite (.foldl (fun _ _ ht => ht.scrubBeat) hs.same) hs

theorem InOff.crossingReset (hs : InOff oc s) {x : Nat} {lost : List Nat} : InOff oc (s.crossingReset x lost) := hs.same.count (by rfl)

end Ops

/-! Operations of Machine/Ranger.lean. -/

section Ops
variable {oc : OffCause} {s : State}

theorem InOff.edge (hs : InOff oc s) {h id : Nat} : InOff oc (s.edge h id) := .ite hs.raiseBoth (.ite hs.raiseHalf hs)

theorem InOff.setClaimed (hs : InOff oc s) {h id v : Nat} : InOff oc (s.setClaimed h id v) := hs.same

theorem InOff.setBelief (hs : InOff oc s) {h : Nat} {e : Option Nat} : InOff oc (s.setBelief h e) := hs.same

theorem InOff.learn (hs : InOff oc s) {h : Nat} : InOff oc (s.learn h) := by
  unfold State.learn
  split
  · exact hs
  · exact .ite hs (hs.same.count (by rfl)).setBelief

theorem InOff.intcClaim (hs : InOff oc s) {h k : Nat} : InOff oc (s.intcClaim h k) := by
  unfold State.intcClaim
  split
  · exact (hs.count (by rfl)).same
  · exact .ite ((hs.setFld (by rfl)).setClaimed.setFld (by rfl)).same.learn ((hs.setFld (by rfl)).setClaimed.setFld (by rfl)).same

theorem InOff.intcComplete (hs : InOff oc s) {h k id : Nat} : InOff oc (s.intcComplete h k id) := .ite hs.setClaimed hs

theorem InOff.setFwStopped (hs : InOff oc s) {h : Nat} {b : Bool} : InOff oc (s.setFwStopped h b) := hs.same

theorem InOff.setRcore (hs : InOff oc s) {k v : Nat} : InOff oc (s.setRcore k v) := (hs.setFld (by rfl)).setFlag (by rfl)

theorem InOff.coresTo (hs : InOff oc s) {h a b : Nat} : InOff oc (s.coresTo h a b) := .foldl (fun _ _ ht => .ite ht.setRcore ht) hs

theorem InOff.fwStop (hs : InOff oc s) {h idleNs : Nat} : InOff oc (s.fwStop h idleNs) := .ite hs hs.coresTo.setFwStopped

theorem InOff.setTick (hs : InOff oc s) {k : Nat} : InOff oc (s.setTick k) := hs.same

theorem InOff.fwWake (hs : InOff oc s) {h : Nat} : InOff oc (s.fwWake h) :=
  .ite hs (.foldl (fun _ _ ht => ht.setTick) ((InOff.foldl (fun _ _ ht => ht.raiseHalf) hs.setFwStopped.same).coresTo.count (by rfl)))

theorem InOff.kernelTick (hs : InOff oc s) {k : Nat} : InOff oc (s.kernelTick k) := .ite hs.setTick hs

theorem InOff.repend (hs : InOff oc s) {k : Nat} : InOff oc (s.repend k) := .foldl (fun _ _ ht => ht.setClaimed.setFld (by rfl)) hs

theorem InOff.crash (hs : InOff oc s) {k cause : Nat} : InOff oc (s.crash k cause) := by
  unfold State.crash
  exact .ite hs (.ite ((((hs.same.setRcore.setFld (by rfl)).setFld (by rfl)).setFld (by rfl)).count (by rfl)).unitError.repend.raiseBoth.post.post
      ((((hs.same.setRcore.setFld (by rfl)).setFld (by rfl)).setFld (by rfl)).count (by rfl)).unitError.repend.raiseBoth.post)

theorem InOff.watchdog (hs : InOff oc s) {k : Nat} : InOff oc (s.watchdog k) := .ite hs.crash hs

theorem InOff.takeSources (hs : InOff oc s) {k j : Nat} : InOff oc (s.takeSources k j) := .foldl (fun _ _ ht => ht.setFld (by rfl)) hs

theorem InOff.takeover (hs : InOff oc s) {k : Nat} : InOff oc (s.takeover k) := by
  unfold State.takeover
  split
  · exact hs
  · exact .ite hs (InOff.foldl (fun _ _ ht => ht.setOwner) (hs.setFld (by rfl))).same.takeSources

theorem InOff.rangerUp (hs : InOff oc s) {k : Nat} : InOff oc (s.rangerUp k) := .ite (hs.setRcore.setTick.count (by rfl)).post hs

theorem InOff.queuesReturn (hs : InOff oc s) : InOff oc s.queuesReturn := .foldl (fun _ _ ht => .ite ht.setOwner ht) hs.same

theorem InOff.setHolder (hs : InOff oc s) {v : Nat} : InOff oc (s.setHolder v) :=
  (((InOff.ite ((hs.setFld (by rfl)).setFlag (by rfl)) (((hs.setFld (by rfl)).setFlag (by rfl)).setFld (by rfl))).setFlag (by rfl)).setFlag (by rfl)).raiseBoth

theorem InOff.claimLead (hs : InOff oc s) {h : Nat} : InOff oc (s.claimLead h) := .ite hs ((hs.setFld (by rfl)).setHolder.count (by rfl)).same.setBelief.post

theorem InOff.refreshLead (hs : InOff oc s) {h epoch : Nat} : InOff oc (s.refreshLead h epoch) := .ite hs.same hs

theorem InOff.lapse (hs : InOff oc s) : InOff oc s.lapse := .ite hs.setHolder hs

theorem InOff.commitRequest (hs : InOff oc s) : InOff oc s.commitRequest.2 := by
  unfold State.commitRequest
  extract_lets t1 t2 t3
  have ht1 : InOff oc t1 := by
    refine .foldl (fun u h hu => ?_) hs
    split
    · exact .ite (hu.count (by rfl)) hu
    · exact hu
  have ht2 : InOff oc t2 := .foldl (fun _ _ hu => (hu.count (by rfl))) ht1
  split
  · exact (InOff.ite ht2 ht2.post).same
  · exact ht1

end Ops

/-! Operations of Machine/Metrology.lean. -/

section Ops
variable {oc : OffCause} {s : State}

theorem InOff.onMet (hs : InOff oc s) {f : MetSt → MetSt} : InOff oc (s.onMet f) := hs.same

theorem InOff.reportSelf (hs : InOff oc s) {self : Nat} : InOff oc (s.reportSelf self) := .ite hs.setWithdrawn hs.reportMgr

theorem InOff.convBegin (hs : InOff oc s) {st ch order notch : Nat} {urgent : Bool} : InOff oc (s.convBegin st ch order notch urgent) :=
  ((hs.onMet.setFld (by rfl)).setFld (by rfl)).setFlag (by rfl)

theorem InOff.convUrgent (hs : InOff oc s) {ch order notch : Nat} : InOff oc (s.convUrgent ch order notch) :=
  .ite hs.convBegin (.ite (hs.count (by rfl)) (hs.onMet.setFld (by rfl)))

theorem InOff.convStart (hs : InOff oc s) {ch order notch : Nat} : InOff oc (s.convStart ch order notch) := .ite hs.convBegin (hs.count (by rfl))

theorem InOff.convWrite (hs : InOff oc s) {value : Nat} : InOff oc (s.convWrite value) :=
  .ite (((hs.setFld (by rfl)).setFld (by rfl)).setFld (by rfl)).convUrgent (.ite (((hs.setFld (by rfl)).setFld (by rfl)).setFld (by rfl)).convStart
      (((hs.setFld (by rfl)).setFld (by rfl)).setFld (by rfl)))

theorem InOff.convWake (hs : InOff oc s) : InOff oc s.convWake := .ite (hs.onMet.setFld (by rfl)) hs

theorem InOff.convRoutine (hs : InOff oc s) : InOff oc s.convRoutine := .ite hs hs.convBegin.onMet

theorem InOff.loadEps (hs : InOff oc s) {a : Nat} : InOff oc (s.loadEps a) := hs.setFld (by rfl)

theorem InOff.reloadEps (hs : InOff oc s) : InOff oc s.reloadEps := .foldl (fun _ _ ht => .ite (.foldl (fun _ _ hu => hu.loadEps) ht) ht) hs

theorem InOff.reportClear (hs : InOff oc s) : InOff oc s.reportClear := .ite hs hs.reportSelf

theorem InOff.lateClear (hs : InOff oc s) : InOff oc s.lateClear := .ite hs.onMet.reportClear hs

theorem InOff.driftOf (hs : InOff oc s) {t : Int} {used : List Nat} {a : Nat} : InOff oc (s.driftOf t used a) := by
  unfold State.driftOf
  exact .ite hs (.ite (.ite (((hs.setFlag (by rfl)).setFlag (by rfl)).count (by rfl)).raiseBoth.post
      (((hs.setFlag (by rfl)).setFlag (by rfl)).count (by rfl)).raiseBoth.post.onMet.reportSelf) ((hs.setFlag (by rfl)).setFlag (by rfl)))

theorem InOff.drifts (hs : InOff oc s) {t : Int} : InOff oc (s.drifts t) := (InOff.foldl (fun _ _ ht => ht.driftOf) hs).lateClear

theorem InOff.tempOver (hs : InOff oc s) {why : Nat} : InOff oc (s.tempOver why) :=
  .ite ((hs.setFld (by rfl)).count (by rfl)) ((hs.setFld (by rfl)).count (by rfl)).alertRaise.raiseBoth.post.reportSelf

theorem InOff.tempStale (hs : InOff oc s) : InOff oc s.tempStale := .ite (hs.setFlag (by rfl)) ((hs.setFlag (by rfl)).onMet.count (by rfl)).tempOver.reloadEps

theorem InOff.tempReading (hs : InOff oc s) {d : Int} : InOff oc (s.tempReading d) := by
  unfold State.tempReading
  extract_lets x1 x2 x3 x4 x5 t6 t7 t8 t9 t10
  have ht6 : InOff oc t6 := ((hs.setFld (by rfl)).setFld (by rfl)).setFld (by rfl)
  have ht7 : InOff oc t7 := ht6.onMet.setFlag (by rfl)
  have ht8 : InOff oc t8 := (ht7.count (by rfl)).raiseBoth.post
  have ht9 : InOff oc t9 := ht7.setFld (by rfl)
  have ht10 : InOff oc t10 := .ite ht9.tempOver (.ite (ht9.setFld (by rfl)).post.reportClear (.ite (ht9.count (by rfl)) ht9))
  exact .ite ht8.tempOver.reloadEps ht10.reloadEps.drifts

theorem InOff.refinSet (hs : InOff oc s) : InOff oc s.refinSet := .ite hs (hs.setFld (by rfl)).raiseBoth.post.tempStale

theorem InOff.refinWindow (hs : InOff oc s) {ok : Bool} : InOff oc (s.refinWindow ok) := .ite (hs.setFlag (by rfl)) (hs.setFlag (by rfl)).refinSet

theorem InOff.convResult (hs : InOff oc s) {d : Int} {ovr : Bool} : InOff oc (s.convResult d ovr) :=
  .ite (((hs.setFld (by rfl)).setFld (by rfl)).count (by rfl))
      ((((((((hs.setFld (by rfl)).setFlag (by rfl)).setFld (by rfl)).setFld (by rfl)).setFld (by rfl)).setFld (by rfl)).setFld (by rfl)).setFld (by rfl)).onMet

theorem InOff.convComplete (hs : InOff oc s) {code : Int} : InOff oc (s.convComplete code) := by
  unfold State.convComplete
  extract_lets x1 x2 x3 t4 t5 t6 t7 t8
  have ht4 : InOff oc t4 := hs.convResult.raiseBoth
  have ht5 : InOff oc t5 := .ite (ht4.raiseBoth.count (by rfl)) ht4
  have ht6 : InOff oc t6 := .ite ht5.onMet ht5
  have ht7 : InOff oc t7 := .ite ht6 (.ite ht6.refinSet (.ite (ht6.setFld (by rfl)) ht6))
  have ht8 : InOff oc t8 := .ite (.ite ht7.tempStale ht7.tempReading) ht7
  split
  · exact hs
  · split
    · exact ht8.onMet.convBegin
    · exact ((ht8.setFld (by rfl)).setFld (by rfl)).onMet

theorem InOff.heldStale (hs : InOff oc s) {ch : Nat} : InOff oc (s.heldStale ch) := by
  unfold State.heldStale
  split
  · exact .ite (.ite (hs.setFld (by rfl)).tempStale (hs.setFld (by rfl))) hs
  · exact hs

theorem InOff.refinWrite (hs : InOff oc s) {path : Path} {value : Nat} : InOff oc (s.refinWrite path value) := by simpa [State.refinWrite, hs.ownWrite] using hs

theorem InOff.calFailed (hs : InOff oc s) {a : Nat} {sweepBad : Bool} : InOff oc (s.calFailed a sweepBad) :=
  .ite (hs.setFld (by rfl)).onMet.setRec.arrCommand.retireCore (hs.setFld (by rfl)).onMet

theorem InOff.regionTrim (hs : InOff oc s) {r : Nat} {code : Option Nat} : InOff oc (s.regionTrim r code) := by
  unfold State.regionTrim
  extract_lets x1 t2
  have ht2 : InOff oc t2 := (hs.count (by rfl)).raiseBoth.post
  split
  · exact hs.count (by rfl)
  · split
    · exact hs.setFld (by rfl)
    · exact .foldl (fun _ _ ht => ht.calFailed) ht2

theorem InOff.calPass (hs : InOff oc s) {a : Nat} {t : Int} {m : List Nat} : InOff oc (s.calPass a t m) := (hs.setFld (by rfl)).setFld (by rfl)

theorem InOff.calSweep (hs : InOff oc s) {a : Nat} {m : List Nat} : InOff oc (s.calSweep a m) := by
  unfold State.calSweep
  extract_lets t1
  have ht1 : InOff oc t1 := hs.arrCommand
  split
  · exact ht1.arrCommandEnd
  · exact ht1

theorem InOff.calStamp (hs : InOff oc s) {a : Nat} {t : Int} : InOff oc (s.calStamp a t) :=
  (((((hs.setFld (by rfl)).setFld (by rfl)).setFld (by rfl)).setFld (by rfl)).setFld (by rfl)).onMet.loadEps

theorem InOff.calPasses (hs : InOff oc s) {a : Nat} {t : Int} {m0 m1 m2 : List Nat} : InOff oc (s.calPasses a t m0 m1 m2).1 := by
  unfold State.calPasses
  extract_lets rwl bot t1 t2
  have ht1 : InOff oc t1 := hs.calSweep.calPass.calSweep
  have ht2 : InOff oc t2 := ht1.calPass.calSweep
  split
  · exact ht1.calStamp
  · split
    · exact ht2.calStamp
    · exact (ht2.setFld (by rfl)).setFld (by rfl)

theorem InOff.calPost (hs : InOff oc s) {a : Nat} : InOff oc (s.calPost a) := (hs.count (by rfl)).raiseBoth.post

theorem InOff.calibrate (hs : InOff oc s) {a : Nat} {t : Int} {m0 m1 m2 : List Nat} : InOff oc (s.calibrate a t m0 m1 m2) :=
  .ite hs.arrCommand.calPasses.arrCommand.lateClear hs.arrCommand.calPasses.arrCommand.calPost.calFailed

theorem InOff.calibrateArray (hs : InOff oc s) {a : Nat} {m0 m1 m2 : List Nat} : InOff oc (s.calibrateArray a m0 m1 m2) := .ite hs hs.calibrate

end Ops

/-! Operations of Machine/HostLink.lean. -/

section Ops
variable {oc : OffCause} {s : State}

theorem InOff.onHost (hs : InOff oc s) {f : HostSt → HostSt} : InOff oc (s.onHost f) := hs.same

theorem InOff.reqReset (hs : InOff oc s) {p tag : Nat} : InOff oc (s.reqReset p tag) := by
  unfold State.reqReset
  split
  · exact hs
  · exact .ite hs.onSrv hs.onSrv.sendMsg

theorem InOff.fnReset (hs : InOff oc s) {fn cause : Nat} : InOff oc (s.fnReset fn cause) := by
  unfold State.fnReset
  extract_lets x1 t2 t3 x4 x5 t6 t7 t8 x9
  have ht2 : InOff oc t2 := .foldl (fun _ _ ht => (InOff.foldl (fun _ _ hu => hu.reqReset) ht).queueOff) hs
  have ht3 : InOff oc t3 := ht2.endRole
  have ht6 : InOff oc t6 := ht3.setWin
  have ht7 : InOff oc t7 := ht6.onHost
  have ht8 : InOff oc t8 := (ht7.setFld (by rfl)).setFld (by rfl)
  exact .ite ht8.sessionAbort ht8

theorem InOff.vfOff (hs : InOff oc s) {cause : Nat} : InOff oc (s.vfOff cause) := .ite hs (InOff.foldl (fun _ _ ht => ht.fnReset) hs).onHost

theorem InOff.flr (hs : InOff oc s) {fn : Nat} : InOff oc (s.flr fn) := .ite (hs.count (by rfl)).fnReset.vfOff (hs.count (by rfl)).fnReset

theorem InOff.linkDown (hs : InOff oc s) : InOff oc s.linkDown :=
  ((((hs.count (by rfl)).vfOff.fnReset.onHost.setFld (by rfl)).setFld (by rfl)).setFld (by rfl)).setFld (by rfl)

theorem InOff.msiRelease (hs : InOff oc s) {fn : Nat} : InOff oc (s.msiRelease fn) := .ite hs (.foldl (fun _ _ ht => ht.onHost.msi) hs)

theorem InOff.linkRetrain (hs : InOff oc s) {up : Option (Nat × Nat × Bool)} : InOff oc (s.linkRetrain up) := by
  unfold State.linkRetrain
  split
  · exact (hs.count (by rfl)).onHost
  · exact .ite hs (.foldl (fun _ _ ht => ht.msiRelease) ((((hs.onHost.setFld (by rfl)).setFld (by rfl)).setFld (by rfl)).setFlag (by rfl)))

theorem InOff.linkFatal (hs : InOff oc s) : InOff oc s.linkFatal := (hs.count (by rfl)).linkDown

theorem InOff.bmeChange (hs : InOff oc s) {fn : Nat} {bme d3 : Bool} : InOff oc (s.bmeChange fn bme d3) := ((hs.setFlag (by rfl)).setFlag (by rfl)).msiRelease

theorem InOff.perstPin (hs : InOff oc s) {low : Bool} : InOff oc (s.perstPin low) := .ite hs.onHost.linkDown hs.onHost

theorem InOff.vfSet (hs : InOff oc s) {on : Bool} : InOff oc (s.vfSet on) := .ite hs.vfOff (.ite hs hs.onHost)

theorem InOff.promptFetch (hs : InOff oc s) {p slot : Nat} {tokens : List Nat} : InOff oc (s.promptFetch p slot tokens) := by
  unfold State.promptFetch
  extract_lets x1
  split
  · split
    · exact .ite hs hs.onHost
    · exact hs
  · exact hs

theorem InOff.inboxDelivery (hs : InOff oc s) {rec : Nat} : InOff oc (s.inboxDelivery rec) := by
  unfold State.inboxDelivery
  split
  · exact hs
  · split
    · exact hs
    · split
      · exact hs
      · extract_lets x1 x2 t3 x4 t5
        have ht3 : InOff oc t3 := (hs.count (by rfl)).withholdNotice
        have ht5 : InOff oc t5 := ht3.same
        split
        · exact ht5
        · exact .ite ht5.deliver.restart ht5.deliver.ctrInc.restart

end Ops

/-! Operations of Machine/Reset.lean. -/

section Ops
variable {oc : OffCause} {s : State}

theorem State.systemReset_tripped (s : State) (cause : Nat) : (s.systemReset cause).fld F.THM_TRIP_TRIPPED = s.fld F.THM_TRIP_TRIPPED :=
  (State.fld_setFld_of_code _ _ _ _ _ _ (by decide) (by decide) (by decide)).trans (s.fld_discard_kept _ F.THM_TRIP_TRIPPED 0 (by decide))

end Ops

/-! Operations of Machine/Power.lean. -/

section Ops
variable {oc : OffCause} {s : State}

theorem InOff.setClock (hs : InOff oc s) : InOff oc s.setClock := (hs.setFld (by rfl)).setFlag (by rfl)

theorem InOff.droopStretch (hs : InOff oc s) : InOff oc s.droopStretch := .ite hs (hs.onPwr.count (by rfl)).setClock

theorem InOff.droopEnd (hs : InOff oc s) : InOff oc s.droopEnd := hs.onPwr.setClock

theorem InOff.pllUnlock (hs : InOff oc s) {regions : Nat} : InOff oc (s.pllUnlock regions) := .ite hs ((hs.setFld (by rfl)).count (by rfl)).raiseBoth.post.setClock

theorem InOff.pllRelock (hs : InOff oc s) : InOff oc s.pllRelock := by
  rwa [State.pllRelock, if_pos (by simp [hs.off])]

theorem InOff.railOn (hs : InOff oc s) {i : Nat} : InOff oc (s.railOn i) := hs.onPwr.setFld (by rfl)

theorem InOff.railOff (hs : InOff oc s) {i : Nat} : InOff oc (s.railOff i) := hs.onPwr.setFld (by rfl)

theorem InOff.startBarred (hs : InOff oc s) : s.startBarred = true := by
  obtain ⟨-, -, hcause⟩ := hs
  cases oc with
  | order => simp [State.startBarred, hcause.1]
  | trip => simp [State.startBarred, show s.flag F.THM_TRIP_TRIPPED = true from hcause]

/-- No start begins in Off. -/
theorem InOff.startBegin (hs : InOff oc s) : InOff oc s.startBegin := by rwa [State.startBegin_barred hs.startBarred]

theorem InOff.railsLower (hs : InOff oc s) : InOff oc s.railsLower := by
  unfold State.railsLower
  split
  · exact hs.railOff
  · exact hs.onPwr.startBegin

theorem InOff.goOff (hs : InOff oc s) : InOff oc s.goOff :=
  have hlost : InOff oc (((s.discard (aonFields ++ offKept) s.pwr.afterReset).onPwr fun p => { p with offHeld := true }).setFld F.PWR_STATUS_STATE 3) :=
    hs.held (State.fld_setFld_same ..) rfl id (fun _ => .inl rfl) fun h =>
      (State.flag_of_fld ((State.fld_setFld_of_code _ _ _ _ _ _ (by decide) (by decide) (by decide)).trans (s.fld_discard_kept _ F.THM_TRIP_TRIPPED 0
          (by decide)))).trans h
  hlost.railsLower

theorem InOff.railFaultNow (hs : InOff oc s) {i : Nat} : InOff oc (s.railFaultNow i) := by
  unfold State.railFaultNow
  extract_lets t1 t2
  have ht2 : InOff oc t2 := ((((hs.setFld (by rfl)).setFld (by rfl)).alertRaise.setFld (by rfl)).setFld (by rfl)).setFld (by rfl)
  have hunwanted : InOff oc (t2.onPwr fun p => { p with want := false, begun := none, faultDue := none }) :=
    ht2.held ht2.state ht2.still (fun _ => rfl) id id
  exact hunwanted.goOff

theorem InOff.railFault (hs : InOff oc s) {i : Nat} : InOff oc (s.railFault i) := .ite hs.onPwr hs.railFaultNow

theorem InOff.pmbFail (hs : InOff oc s) {i : Nat} : InOff oc (s.pmbFail i) := .ite (hs.count (by rfl)).onPwr.railFault (hs.count (by rfl)).onPwr

theorem InOff.pmbOk (hs : InOff oc s) {i : Nat} : InOff oc (s.pmbOk i) := hs.onPwr

theorem InOff.railRamp (hs : InOff oc s) {read : Option Nat} : InOff oc (s.railRamp read) := by
  unfold State.railRamp
  split
  · exact hs
  · exact .ite hs.pmbFail.railFault hs.pmbFail
  · extract_lets t1 x2 t3 t4
    have ht1 : InOff oc t1 := hs.pmbOk.setFld (by rfl)
    have ht3 : InOff oc t3 := ht1.onPwr
    have ht4 : InOff oc t4 := ht3.setFld (by rfl)
    split
    · split
      · exact ht4.railOn
      · exact ht4.onPwr
    · exact .ite ht3.railFault ht3
  · extract_lets x1 t2
    have ht2 : InOff oc t2 := by
      unfold t2
      split
      · exact hs.setFld (by rfl)
      · exact hs.count (by rfl)
    exact .ite ht2.railsLower ht2

theorem InOff.pmbusPoll (hs : InOff oc s) {reads : List (Nat × Option Nat)} : InOff oc (s.pmbusPoll reads) := by
  rwa [State.pmbusPoll, if_pos (by simp [hs.state])]

theorem InOff.pmAlert (hs : InOff oc s) {status : List (Nat × Option Nat)} : InOff oc (s.pmAlert status) := by
  unfold State.pmAlert
  extract_lets t1
  have ht1 : InOff oc t1 := hs.raiseBoth
  refine .foldl (fun _ _ ht => ?_) ?_
  · split
    · exact ht.pmbFail
    · exact .ite ht.pmbOk.railFault ht.pmbOk
  · exact ht1

theorem InOff.vppRaise (hs : InOff oc s) : InOff oc s.vppRaise := by
  rwa [State.vppRaise, if_pos (by simp [hs.state])]

theorem InOff.vppReady (hs : InOff oc s) : InOff oc s.vppReady := .ite hs ((hs.setFld (by rfl)).setFld (by rfl)).kickJobs

theorem InOff.vppLower (hs : InOff oc s) : InOff oc s.vppLower := by
  unfold State.vppLower
  split
  · exact .ite hs ((hs.onPwr.setFld (by rfl)).setFld (by rfl))
  · exact hs

theorem InOff.clampOn (hs : InOff oc s) {why : Nat} : InOff oc (s.clampOn why) :=
  (((hs.onPwr.setFld (by rfl)).setFlag (by rfl)).setClock.alertRaise.count (by rfl)).raiseBoth.post

theorem InOff.powerEstimate (hs : InOff oc s) {watts : Nat} : InOff oc (s.powerEstimate watts) := by
  unfold State.powerEstimate
  extract_lets x1 t2 x3 x4 t5 t6
  have ht2 : InOff oc t2 := hs.setFld (by rfl)
  have ht5 : InOff oc t5 := ht2.onPwr
  have ht6 : InOff oc t6 := ht5.setFld (by rfl)
  split
  · exact .ite ht6.onPwr.setClock ht6
  · exact .ite ht6.clampOn (.ite ht6.clampOn ht6)

theorem InOff.clampAdjust (hs : InOff oc s) : InOff oc s.clampAdjust := by
  unfold State.clampAdjust
  split
  · exact hs
  · exact .ite hs (.ite ((hs.onPwr.setFld (by rfl)).setFld (by rfl)).setClock.raiseBoth.post (hs.onPwr.setFlag (by rfl)).setClock)

theorem InOff.stateReq (hs : InOff oc s) {path : Path} {value : Nat} : InOff oc (s.stateReq path value) := by simpa [State.stateReq, hs.ownWrite] using hs

theorem InOff.powerState (hs : InOff oc s) : InOff oc s.powerState := by
  unfold State.powerState
  rwa [hs.still]

theorem InOff.pwrWarn (hs : InOff oc s) {low : Bool} : InOff oc (s.pwrWarn low) :=
  .ite hs (.ite ((hs.setFlag (by rfl)).raiseBoth.post.count (by rfl)).sessionAbort (hs.setFlag (by rfl)).raiseBoth.post.kickJobs)

theorem InOff.laneLoss (hs : InOff oc s) {eth : Bool} : InOff oc (s.laneLoss eth) :=
  .ite (.ite hs (.foldl (fun _ _ ht => .ite ht.portDown ht) (hs.setFld (by rfl)))) (.ite hs (hs.setFld (by rfl)).linkDown)

theorem InOff.laneBack (hs : InOff oc s) {eth : Bool} : InOff oc (s.laneBack eth) := .ite (hs.setFld (by rfl)) (hs.setFld (by rfl))

theorem InOff.sysAssert (hs : InOff oc s) : InOff oc s.sysAssert := by
  unfold State.sysAssert
  extract_lets t1 t2
  have htrip : t2.fld F.THM_TRIP_TRIPPED = s.fld F.THM_TRIP_TRIPPED :=
    (State.fld_setFld_of_code _ _ _ _ _ _ (by decide) (by decide) (by decide)).trans ((t1.systemReset_tripped 1).trans
      (State.fld_setFld_of_code _ _ _ _ _ _ (by decide) (by decide) (by decide)))
  have ht2 : InOff oc t2 := hs.held (State.fld_setFld_same ..) rfl (fun _ => rfl) (fun _ => .inr rfl) fun h => (State.flag_of_fld htrip).trans h
  exact .ite ht2 ht2.railsLower

/-- The straps are sampled, but no start begins after a trip. -/
theorem InOff.sysRelease (hs : InOff .trip s) {mode addr : Nat} : InOff .trip (s.sysRelease mode addr) := by
  unfold State.sysRelease
  split
  · exact hs
  · extract_lets t1 smb t2 t3
    have hwanted : InOff .trip (s.onPwr fun p => { p with sysRst := false, want := true }) := ⟨hs.off, hs.still, hs.cause⟩
    have ht1 : InOff .trip t1 := hwanted.setFld (by rfl)
    have ht2 : InOff .trip t2 := ht1.same
    have ht3 : InOff .trip t3 := ht2.setFlag (by rfl)
    exact .ite ht3.startBegin ht3

theorem InOff.offWrite (hs : InOff oc s) {path : Path} : InOff oc (s.offWrite path) := by simpa [State.offWrite, hs.ownWrite] using hs

theorem InOff.sysrstWrite (hs : InOff oc s) {path : Path} : InOff oc (s.sysrstWrite path) := by simpa [State.sysrstWrite, hs.ownWrite] using hs

theorem InOff.refLoss (hs : InOff oc s) : InOff oc s.refLoss := by
  unfold State.refLoss
  split
  · exact hs
  · extract_lets now t1 t2
    have htrip : t2.fld F.THM_TRIP_TRIPPED = s.fld F.THM_TRIP_TRIPPED :=
      (State.fld_setFld_of_code _ _ _ _ _ _ (by decide) (by decide) (by decide)).trans
        ((State.fld_setFld_of_code _ _ _ _ _ _ (by decide) (by decide) (by decide)).trans ((t1.systemReset_tripped 3).trans
          (State.fld_count_of_code s F.CLK_REFLOSSCNT F.THM_TRIP_TRIPPED 1 0 0 (by decide) (by decide) (by decide))))
    have ht2 : InOff oc t2 := hs.held (State.fld_setFld_same ..) rfl (fun _ => rfl) id fun h => (State.flag_of_fld htrip).trans h
    exact .ite ht2 ht2.railsLower

theorem InOff.refBack (hs : InOff oc s) : InOff oc s.refBack := by
  unfold State.refBack
  split
  · exact hs
  · extract_lets t1
    obtain ⟨hoff, hstill, hcause⟩ := hs
    have hback : InOff oc (s.onPwr fun p =>
        { p with refLost := false, want := !p.sysRst && !p.offHeld, tbRun := decide (0 < p.tb), tb := if 0 < p.tb then s.now - p.tb else 0 }) := by
      refine ⟨hoff, hstill, ?_⟩
      cases oc with
      | order =>
        refine ⟨?_, hcause.2⟩
        rcases hcause.2 with h | h <;> simp [State.onPwr, h]
      | trip => exact hcause
    have ht1 : InOff oc t1 := hback.setFld (by rfl)
    exact .ite ht1.startBegin ht1

theorem InOff.trip (hs : InOff oc s) {low opn : Bool} : InOff oc (s.trip low opn) := by
  by_cases h : (s.flag F.THM_TRIP_TRIPPED || !s.pwr.aon) = true
  · rwa [State.trip, if_pos h]
  · have hdef : s.trip low opn = ((s.tripLatched low opn).discard (aonFields ++ tripKept) (s.tripLatched low opn).pwr.afterReset).setFld F.PWR_STATUS_STATE 3 :=
      if_neg h
    simp only [Bool.or_eq_true, not_or, Bool.not_eq_true, Bool.not_eq_false'] at h
    obtain ⟨-, -, htripped, -⟩ := State.trip_effect (State.beforeLoss.refl s) low opn h.1 h.2
    refine hs.held ?_ ?_ ?_ ?_ fun _ => htripped
    · rw [hdef]
      exact State.fld_setFld_same ..
    · rw [hdef]
      rfl
    · rw [hdef]
      exact fun _ => rfl
    · rw [hdef]
      exact id

theorem InOff.tripCond (hs : InOff oc s) {low opn : Bool} : InOff oc (s.tripCond low opn) := .ite hs hs.trip

theorem InOff.blankEnd (hs : InOff oc s) {low opn : Bool} : InOff oc (s.blankEnd low opn) := .ite hs (hs.setFld (by rfl)).tripCond

theorem InOff.tripTest (hs : InOff oc s) {path : Path} : InOff oc (s.tripTest path) := by simpa [State.tripTest, hs.ownWrite] using hs

theorem InOff.ageHour (hs : InOff oc s) {a : Nat} : InOff oc (s.ageHour a) := by
  unfold State.ageHour
  extract_lets x1 x2
  split
  · exact hs.setAge
  · split
    · exact hs.setAge
    · split
      · exact hs.setAge
      · exact hs.setAge

theorem InOff.poweredHour (hs : InOff oc s) : InOff oc s.poweredHour := .foldl (fun _ _ ht => ht.ageHour) (hs.setFld (by rfl)).setVfld.recordWrites

end Ops

/-! Operations of Machine/Boot.lean. -/

section Ops
variable {oc : OffCause} {s : State}

theorem InOff.bootStep (hs : InOff oc s) {bad second : Nat} {checks : List ArrCheck} : InOff oc (s.bootStep bad second checks) := by
  unfold State.bootStep
  split
  · exact hs
  · rwa [if_pos (by simp [hs.off])]

theorem InOff.clearAltWrite (hs : InOff oc s) {path : Path} : InOff oc (s.clearAltWrite path) := by simpa [State.clearAltWrite, hs.ownWrite] using hs

end Ops

/-! Operations of Machine/Loading.lean. -/

section Ops
variable {oc : OffCause} {s : State}

theorem InOff.onFrame (hs : InOff oc s) {f : FrameSt → FrameSt} : InOff oc (s.onFrame f) := hs.same

theorem InOff.rebusy (hs : InOff oc s) : InOff oc s.rebusy := .foldl (fun _ _ ht => ht.setWin) hs

theorem InOff.besideLoad (hs : InOff oc s) {c : Mgmt} {act : State → State} (hact : ∀ t, InOff oc t → InOff oc (act t)) : InOff oc (s.besideLoad c act) := by
  unfold State.besideLoad
  extract_lets x1 t2
  have ht2 : InOff oc t2 := by
    unfold t2
    split
    · exact .ite hs.setWin hs
    · exact hs
  exact (hact _ ht2).rebusy

theorem InOff.loadAnswer (hs : InOff oc s) {l : LoadReq} {code cls : Nat} {f : LoadFail} : InOff oc (s.loadAnswer l code cls f) := hs.same.answer

theorem InOff.loadEnd (hs : InOff oc s) {code : Nat} : InOff oc (s.loadEnd code) := by
  unfold State.loadEnd
  split
  · exact hs.same.answer
  · exact hs

theorem InOff.loadNow (hs : InOff oc s) {it : Itin} : InOff oc (s.loadNow it) := by
  unfold State.loadNow
  exact (InOff.ite hs.unloadItin hs).onFrame

theorem InOff.switchLate (hs : InOff oc s) {l : LoadReq} : InOff oc (s.switchLate l) := hs.onFrame.loadAnswer

theorem InOff.loadCheckEnd (hs : InOff oc s) {timing cls sec rec detail : Nat} : InOff oc (s.loadCheckEnd timing cls sec rec detail) := by
  unfold State.loadCheckEnd
  split
  · exact hs
  · split
    · exact hs
    · extract_lets x1
      split
      · exact hs.loadAnswer
      · split
        · exact hs.loadEnd
        · split
          · exact hs.loadNow.loadAnswer
          · exact .ite hs.switchLate hs.onFrame.loadAnswer

theorem InOff.pitchesOff (hs : InOff oc s) {was : List Bool} : InOff oc (s.pitchesOff was) := .foldl (fun _ _ ht => .ite ht.releaseAll ht) hs

end Ops

/-! Operations of Machine/Security.lean. -/

section Ops
variable {oc : OffCause} {s : State}

theorem InOff.remap (hs : InOff oc s) {unit : Nat} : InOff oc (s.remap unit) := .ite hs ((hs.setBoth (by rfl)).count (by rfl)).onSec

theorem InOff.showJournal (hs : InOff oc s) : InOff oc s.showJournal := hs.setFld (by rfl)

theorem InOff.recordWrite (hs : InOff oc s) {addr steps : Nat} {data : Bytes} {remap : Bool} : InOff oc (s.recordWrite addr data steps remap) :=
  .ite hs (.ite (InOff.ite (InOff.ite hs.onSec.onSec hs.onSec).remap (.ite hs.onSec.onSec hs.onSec)).recordWrites (InOff.ite
      (InOff.ite hs.onSec.onSec hs.onSec).remap (.ite hs.onSec.onSec hs.onSec)).onSec.showJournal)

theorem InOff.fnCommand (hs : InOff oc s) {m : Mgmt} {act : State → State} : InOff oc (s.fnCommand m act) := by
  rwa [State.fnCommand, if_neg (by simp [hs.takes])]

theorem InOff.authFail (hs : InOff oc s) {fn : Nat} : InOff oc (s.authFail fn) := .ite ((hs.count (by rfl)).setFnSec.setFld (by rfl)) (hs.count (by rfl)).setFnSec

theorem InOff.roleChallenge (hs : InOff oc s) {c : Mgmt} : InOff oc (s.roleChallenge c) := hs.fnCommand

theorem InOff.roleAssume (hs : InOff oc s) {c : Mgmt} {role idx : Nat} {sig : Bytes} : InOff oc (s.roleAssume c role idx sig) := hs.fnCommand

theorem InOff.roleAnswer (hs : InOff oc s) {c : Mgmt} {role idx code : Nat} {key : Bytes} : InOff oc (s.roleAnswer c role idx key code) :=
  .ite hs.authFail.answer (.ite hs.authFail.answer (.ite hs.authFail.answer ((hs.setFld (by rfl)).setFld (by rfl)).setFnSec.answer))

theorem InOff.roleRelease (hs : InOff oc s) {c : Mgmt} : InOff oc (s.roleRelease c) := hs.fnCommand

theorem InOff.lockoutEnd (hs : InOff oc s) {fn : Nat} : InOff oc (s.lockoutEnd fn) := .ite hs (hs.setFnSec.setFld (by rfl))

theorem InOff.nonceExpiry (hs : InOff oc s) {fn : Nat} : InOff oc (s.nonceExpiry fn) := .ite hs hs.setFnSec

theorem InOff.finish (hs : InOff oc s) {c : Mgmt} {seq code result : Nat} {detail : Bytes} : InOff oc (s.finish c seq code result detail) := hs.auditDone.respond

theorem InOff.vaultCmd (hs : InOff oc s) {m : Mgmt} {r : CmdRule} {target : Nat} {detail : Bytes} {act : Nat → State → State} :
    InOff oc (s.vaultCmd m r target detail act) := hs.mgmt

theorem InOff.setKeys (hs : InOff oc s) {table : Nat} {m : SMap KeyRec} : InOff oc (s.setKeys table m) := hs.onSec.recordWrites

theorem InOff.dropKey (hs : InOff oc s) {table idx : Nat} : InOff oc (s.dropKey table idx) := .ite hs (InOff.foldl (fun _ _ ht => ht.endRole) hs).setKeys

theorem InOff.keySet (hs : InOff oc s) {c : Mgmt} {code target table idx mask : Nat} {key : Bytes} : InOff oc (s.keySet c code target table idx mask key) := by
  unfold State.keySet
  exact hs.vaultCmd

theorem InOff.keyAnswer (hs : InOff oc s) {c : Mgmt} {table idx mask seq code : Nat} {key : Bytes} : InOff oc (s.keyAnswer c table idx mask key seq code) :=
  .ite hs.finish (.ite hs.finish (InOff.ite hs.dropKey.setKeys.onSec hs.dropKey.setKeys).finish)

theorem InOff.keyRemove (hs : InOff oc s) {c : Mgmt} {code target table idx : Nat} : InOff oc (s.keyRemove c code target table idx) := hs.vaultCmd

theorem InOff.lockCmd (hs : InOff oc s) {c : Mgmt} {v : Nat} : InOff oc (s.lockCmd c v) := hs.vaultCmd

theorem InOff.diagUnlock (hs : InOff oc s) {c : Mgmt} : InOff oc (s.diagUnlock c) := hs.mgmt

theorem InOff.readAudit (hs : InOff oc s) {c : Mgmt} {first : Nat} : InOff oc (s.readAudit c first) := hs.mgmt

theorem InOff.readKeysCmd (hs : InOff oc s) {c : Mgmt} : InOff oc (s.readKeysCmd c) := hs.mgmt

theorem InOff.auditFlush (hs : InOff oc s) : InOff oc s.auditFlush := by
  unfold State.auditFlush
  split
  · exact hs.onSec.auditWrite
  · exact hs

end Ops

/-! Operations of Machine/SmBus.lean. -/

section Ops
variable {oc : OffCause} {s : State}

theorem InOff.onSmb (hs : InOff oc s) {f : SmbSt → SmbSt} : InOff oc (s.onSmb f) := hs.same

theorem InOff.smbSeek (hs : InOff oc s) {off : Nat} : InOff oc (s.smbSeek off) := by
  unfold State.smbSeek
  exact hs.onSmb

theorem InOff.smbSetOffset (hs : InOff oc s) {addr off : Nat} {count : Option Nat} {pec : Bool} :
    InOff oc (s.smbSetOffset addr off count pec) := .ite hs hs.smbSeek.onSmb

theorem InOff.smbRegister (hs : InOff oc s) {off : Nat} : InOff oc (s.smbRegister off) := .ite hs.loRead (.ite hs.loRead hs.same)

theorem InOff.smbRead (hs : InOff oc s) {addr : Nat} {stall : Bool} : InOff oc (s.smbRead addr stall) := by
  unfold State.smbRead
  split
  · exact hs
  · split
    · exact hs.onSmb
    · extract_lets n off r
      have hr : InOff oc r.1 := by
        refine .foldl_fst (fun _ _ hu => hu.smbRegister) ?_
        exact hs
      split
      · exact hs.onSmb
      · exact hr.smbSeek.onSmb

theorem InOff.smbWriteSel (hs : InOff oc s) {addr off value : Nat} {pec : Bool} : InOff oc (s.smbWriteSel addr off value pec) := by
  unfold State.smbWriteSel
  split
  · exact hs
  · dsimp only
    rw [if_neg (by simp [hs.off])]
    exact hs.onSmb

theorem InOff.smbStatus (hs : InOff oc s) {addr : Nat} : InOff oc (s.smbStatus addr) := .ite hs hs.onSmb.same

theorem InOff.alertResponse (hs : InOff oc s) : InOff oc s.alertResponse := .ite hs hs.onSmb.same

theorem InOff.smbTimeout (hs : InOff oc s) {lowUs : Nat} : InOff oc (s.smbTimeout lowUs) := .ite hs hs.onSmb

end Ops

/-! Operations of Machine/Update.lean. -/

section Ops
variable {oc : OffCause} {s : State}

theorem InOff.updEnd (hs : InOff oc s) {c : Mgmt} {seq code result : Nat} {counted : Bool} {detail : Bytes} : InOff oc (s.updEnd c seq code result counted detail) :=
  (InOff.ite ((hs.setFld (by rfl)).count (by rfl)) (hs.setFld (by rfl))).finish

theorem InOff.setSession (hs : InOff oc s) {x : Option Session} {v : Nat} : InOff oc (s.setSession x v) := hs.onSec.setFld (by rfl)

theorem InOff.setComponent (hs : InOff oc s) {slot cls st version format : Nat} {img : Option FwImage} : InOff oc (s.setComponent slot cls st version format img) :=
  have hboth := (hs.setBoth (slotFld_offMark cls)).setBoth (versionFld_offMark cls)
  (InOff.ite ((hboth.setBoth (f := F.UPD_SLOT_STATE_CFG_FORMAT) (by rfl))) hboth).onSec.recordWrites

theorem InOff.beginAccept (hs : InOff oc s) {c : Mgmt} {seq slot : Nat} {h : Bytes} : InOff oc (s.beginAccept c seq slot h) :=
  (hs.setComponent.setBoth (slotFld_offMark _)).recordWrites.setSession.updEnd

theorem InOff.updateBegin (hs : InOff oc s) {c : Mgmt} {slot : Nat} {h : Bytes} : InOff oc (s.updateBegin c slot h) := hs.vaultCmd

theorem InOff.updateAnswer (hs : InOff oc s) {c : Mgmt} {slot seq code : Nat} {h : Bytes} : InOff oc (s.updateAnswer c slot h seq code) :=
  .ite hs.auditDone.respond (.ite hs.setSession.updEnd (.ite hs.setSession.updEnd hs.beginAccept))

theorem InOff.updateData (hs : InOff oc s) {c : Mgmt} {off : Nat} {data : Bytes} : InOff oc (s.updateData c off data) := hs.vaultCmd

theorem InOff.updateEnd (hs : InOff oc s) {c : Mgmt} : InOff oc (s.updateEnd c) := hs.vaultCmd

theorem InOff.updateAbort (hs : InOff oc s) {c : Mgmt} : InOff oc (s.updateAbort c) := hs.vaultCmd

theorem InOff.abortDue (hs : InOff oc s) : InOff oc s.abortDue := .ite hs.sessionAbort hs

theorem InOff.setActivation (hs : InOff oc s) {a : Option Activation} {v : Nat} : InOff oc (s.setActivation a v) := hs.onSec.setFld (by rfl)

theorem InOff.activationEnd (hs : InOff oc s) {a : Activation} {result : Nat} : InOff oc (s.activationEnd a result) := hs.setActivation.updEnd

theorem InOff.activated (hs : InOff oc s) {a : Activation} : InOff oc (s.activated a) := by
  unfold State.activated
  extract_lets t1 t2 t3
  have ht1 : InOff oc t1 := (hs.setBoth (by rfl)).count (by rfl)
  have ht2 : InOff oc t2 := .foldl (fun _ _ ht => ht.setBoth (by rfl)) ht1
  have ht3 : InOff oc t3 := .ite ht2 (ht2.onSec.setBoth (by rfl))
  exact ht3.activationEnd

theorem InOff.activate (hs : InOff oc s) {c : Mgmt} {slot frame : Nat} : InOff oc (s.activate c slot frame) := hs.vaultCmd

theorem InOff.restartCores (hs : InOff oc s) : InOff oc s.restartCores := .foldl (fun _ _ ht => .ite ht.setTick ht) hs.same

theorem InOff.activationPause (hs : InOff oc s) {staged : Bool} : InOff oc (s.activationPause staged) := by
  unfold State.activationPause
  split
  · exact hs
  · split
    · exact .ite hs (.ite hs.setActivation hs.activationEnd)
    · exact .ite hs.restartCores.activated hs
    · exact hs

theorem InOff.startFailed (hs : InOff oc s) : InOff oc s.startFailed := by
  unfold State.startFailed
  split
  · split
    · exact .ite hs.restartCores.activationEnd hs
    · exact hs
  · exact hs

theorem InOff.handover (hs : InOff oc s) : InOff oc s.handover := by
  unfold State.handover
  split
  · exact .ite hs (InOff.foldl (fun _ _ ht => ht.setRcore.setTick) (InOff.foldl (fun _ _ ht => ht.setRcore.setTick) hs).setBelief.setHolder.claimLead).activated
  · exact hs

theorem InOff.confirm (hs : InOff oc s) {c : Mgmt} {slot : Nat} : InOff oc (s.confirm c slot) := hs.vaultCmd

theorem InOff.readUpdate (hs : InOff oc s) {c : Mgmt} : InOff oc (s.readUpdate c) := hs.mgmt

theorem InOff.signatureRequest (hs : InOff oc s) {key digest sig : Bytes} : InOff oc (s.signatureRequest key digest sig) := hs.engineAsk

theorem InOff.signatureAnswer (hs : InOff oc s) : InOff oc s.signatureAnswer := by
  unfold State.signatureAnswer
  split
  · exact hs
  · next r code t hanswer =>
    have ht := hs.engineAnswer hanswer
    split
    · exact ht.roleAnswer
    · exact ht.keyAnswer
    · exact ht.updateAnswer
    · exact ht.manifestAnswer
    · exact ht

end Ops

/-! Operations of Machine/Boundary.lean. -/

section Ops
variable {oc : OffCause} {s : State}

theorem InOff.exitReady (hs : InOff oc s) {p : Nat} : InOff oc (s.exitReady p) := .foldl (fun _ _ hu => hu.sendMsg) (hs.count (by rfl)).withholdNotice

theorem InOff.readyPointActs (hs : InOff oc s) : InOff oc s.readyPointActs := .ite hs (.foldl (fun _ _ ht => ht.exitReady) hs.onFrame.raiseBoth)

theorem InOff.stopLegs (hs : InOff oc s) : InOff oc s.stopLegs := by
  unfold State.stopLegs
  refine .foldl (fun _ _ ht => ?_) ?_
  · split
    · exact ht.stopLeg
    · exact ht
  · exact hs

theorem InOff.serveAll (hs : InOff oc s) {e : Edge} {withheld : List Nat} : InOff oc (s.serveAll e withheld) := by
  unfold State.serveAll
  extract_lets x1 t2 t3 t4 t5 t6
  have ht2 : InOff oc t2 := .ite (.foldl (fun _ _ ht => ht.endAll) hs) hs
  have ht3 : InOff oc t3 := .foldl (fun _ _ ht => ht.serveBoundary) ht2
  have ht4 : InOff oc t4 := .ite (.foldl (fun _ _ ht => ht.releaseAll) ht3) ht3
  have ht5 : InOff oc t5 := .foldl (fun _ _ ht => ht.onSrv) ht4
  have ht6 : InOff oc t6 := .foldl (fun _ _ ht => ht.completionMsi) ht5
  exact ht6.queuesSettle

theorem InOff.pageLost (hs : InOff oc s) {p page : Nat} : InOff oc (s.pageLost p page) := hs.onSrv.same.post

theorem InOff.pagesLost (hs : InOff oc s) : InOff oc s.pagesLost := .foldl (fun _ _ ht => .ite ht ht.pageLost) hs

theorem InOff.postWithdrawn (hs : InOff oc s) {part : Nat} {was now : Bool} : InOff oc (s.postWithdrawn part was now) := .ite hs hs.post

theorem InOff.withdrawals (hs : InOff oc s) : InOff oc s.withdrawals := .foldl (fun _ _ ht => ht.postWithdrawn) hs.onMgr.onMgr

theorem InOff.rowsTurn (hs : InOff oc s) : InOff oc s.rowsTurn := by
  unfold State.rowsTurn
  split
  · exact hs
  · extract_lets old t1
    refine .foldl (fun u core hu => ?_) hs.rowsBoundary
    extract_lets was now u1
    have hu1 : InOff oc u1 := by
      unfold u1
      clear_value was
      split
      · exact (hu.setRun.setFld (by rfl)).setFld (by rfl)
      · exact hu
    clear_value u1 was now
    split
    · exact hu
    · split
      · exact hu1.showPitch.clearDue
      · exact hu1

/-- Fields other than the marks go back to reset. -/
theorem InOff.resetFlds (hs : InOff oc s) {fs : List Fld} (hfs : fs.all (fun f => f.code != F.PWR_STATUS_STATE.code && f.code != F.THM_TRIP_TRIPPED.code) = true) :
    InOff oc (s.resetFlds fs) := by
  have hread (g : Fld) (hg : ∀ f ∈ fs, f.code ≠ g.code % 1024) : (s.resetFlds fs).fld g = s.fld g := by
    have hfind := SMap.find?_filter_key (fun k => !fs.any fun f => f.code == k % 1024) s.fields (g.key 0)
    rw [if_pos (by simpa [Fld.key_mod] using hg)] at hfind
    exact congrArg (Option.getD · g.reset) hfind
  simp only [List.all_eq_true, Bool.and_eq_true, bne_iff_ne] at hfs
  exact hs.keep ⟨rfl, rfl, rfl, rfl⟩ (hread _ fun f hf => (hfs f hf).1) (hread _ fun f hf => (hfs f hf).2)

theorem InOff.showMon (hs : InOff oc s) {i : Nat} {m : RangeMon} : InOff oc (s.showMon i m) :=
  ((((((hs.setFld (by rfl)).setFld (by rfl)).setFld (by rfl)).setFld (by rfl)).setFld (by rfl)).setFld (by rfl)).setFld (by rfl)

theorem InOff.monTurn (hs : InOff oc s) {site m : Nat} {q : RangeMon} : InOff oc (s.monTurn site m q) := by
  unfold State.monTurn
  extract_lets t1
  have ht1 : InOff oc t1 := hs.showMon
  split
  · exact .ite (ht1.count (by rfl)).raiseRow ht1
  · exact ht1

theorem InOff.monitorsTurn (hs : InOff oc s) {n : Nat} : InOff oc (s.monitorsTurn n) := by
  have hreset : InOff oc (s.resetFlds monFields) := hs.resetFlds (by rfl)
  unfold State.monitorsTurn
  exact (InOff.foldl (fun _ _ ht => (InOff.foldl (fun _ _ hu => hu.monTurn) ht).setCore) hreset).onFrame

theorem InOff.networksTurn (hs : InOff oc s) : InOff oc s.networksTurn := (hs.count (by rfl)).same

theorem InOff.stagedTurn (hs : InOff oc s) {fresh : Bool} : InOff oc (s.stagedTurn fresh) := hs.same

theorem InOff.switchNow (hs : InOff oc s) {r : Replacement} : InOff oc (s.switchNow r) := by
  unfold State.switchNow
  extract_lets x1 t2 t3
  have ht2 : InOff oc t2 := hs.onFrame
  have ht3 : InOff oc t3 := by
    unfold t3
    split
    · exact ht2.pitchCurrent.pitchesOff
    · exact ht2
  exact .foldl (fun _ _ ht => .ite ht.setTick ht) ht3

theorem InOff.loadsTurn (hs : InOff oc s) {e : Edge} : InOff oc (s.loadsTurn e) := by
  unfold State.loadsTurn
  extract_lets t1 t2 t3
  have ht1 : InOff oc t1 := by
    unfold t1
    split
    · exact hs.onFrame.answer
    · exact hs
  have ht2 : InOff oc t2 := .ite ht1.loadEnd ht1
  have ht3 : InOff oc t3 := .ite ht2.onFrame ht2
  split
  · exact .ite ht3.switchLate ht3
  · exact ht3

theorem InOff.stopsAnswer (hs : InOff oc s) : InOff oc s.stopsAnswer := .foldl (fun _ _ ht => ht.answer) hs.onFrame

theorem InOff.armCore (hs : InOff oc s) {sh : Share} : InOff oc (s.armCore sh) := by
  unfold State.armCore
  split
  · exact hs
  · exact .ite hs.setCore (.ite hs (hs.setFld (by rfl)))

theorem InOff.legsTurn (hs : InOff oc s) {old : List Share} : InOff oc (s.legsTurn old) := by
  unfold State.legsTurn
  extract_lets t1 t2 t3
  have ht1 : InOff oc t1 := hs.resetFlds (by rfl)
  have ht2 : InOff oc t2 := .foldl (fun _ _ ht => ht.setCore) ht1
  have ht3 : InOff oc t3 := by
    unfold t3
    refine .foldl (fun _ _ ht => ?_) ?_
    · split
      · exact .ite ht (ht.setFld (by rfl))
      · exact ht
    · exact ht2
  exact .ite (.foldl (fun _ _ ht => ht.armCore) ht3) ht3

theorem InOff.tallyTurn (hs : InOff oc s) {withheld : List Nat} {binds : List (Nat × Nat × Nat)} : InOff oc (s.tallyTurn withheld binds) :=
  ((InOff.foldl (fun _ _ ht => ht.setFld (by rfl)) hs).onMgr.setFld (by rfl)).setFld (by rfl)

theorem InOff.managerSends (hs : InOff oc s) : InOff oc s.managerSends :=
  .ite (.foldl (fun _ _ ht => ht.sendCtl) (.ite hs.sendCtl (.ite hs.sendCtl hs))) (.ite hs.sendCtl (.ite hs.sendCtl hs))

theorem InOff.standbyWatch (hs : InOff oc s) {kind : Nat} : InOff oc (s.standbyWatch kind) := .ite hs.onMgr (.ite hs.onMgr (.ite hs.takeOver hs))

theorem InOff.frameTurns (hs : InOff oc s) {e : Edge} : InOff oc (s.frameTurns e) := hs.onFrame

theorem InOff.writeReport (hs : InOff oc s) {e : Edge} {withheld : Nat} : InOff oc (s.writeReport e withheld) := by
  unfold State.writeReport
  exact hs.onFrame

theorem InOff.turn (hs : InOff oc s) {e : Edge} : InOff oc (s.turn e) := by
  unfold State.turn
  extract_lets x1 x2 x3 x4 t5 x6 x7 t8 t9 t10 t11 t12 t13 t14 t15 t16 t17 t18 t19 t20
  have ht5 : InOff oc t5 := hs.frameTurns
  have ht8 : InOff oc t8 := ht5.commitRequest.queuesReturn.withdrawals
  have ht9 : InOff oc t9 := ht8.pagesLost.rowsTurn
  have ht10 : InOff oc t10 := ht9.postWithdrawn
  have ht11 : InOff oc t11 := ht10.serveAll
  have ht12 : InOff oc t12 := ht11.histSettle.networksTurn
  have ht13 : InOff oc t13 := .ite ht12 ht12.monitorsTurn
  have ht14 : InOff oc t14 := by
    unfold t14
    split
    · exact ht13.switchNow
    · exact ht13
  have ht15 : InOff oc t15 := ht14.loadsTurn
  have ht16 : InOff oc t16 := ht15.onFrame
  have ht17 : InOff oc t17 := .ite ht16.writeReport ht16
  have ht18 : InOff oc t18 := ht17.legsTurn.stagedTurn
  have ht19 : InOff oc t19 := ht18.tallyTurn.managerSends
  have ht20 : InOff oc t20 := .foldl (fun _ _ ht => ht.sendMsg) ht19
  exact ht20.standbyWatch.stopsAnswer

theorem InOff.boundary (hs : InOff oc s) {kind : Nat} : InOff oc (s.boundary kind) := by
  unfold State.boundary
  extract_lets t1 x2 t3 t4
  have ht1 : InOff oc t1 := .ite hs hs.readyPointActs
  have ht3 : InOff oc t3 := ht1.stopLegs
  have ht4 : InOff oc t4 := ht3.turn.raiseBoth
  split
  · exact ht4.railFaultNow
  · exact ht4

end Ops

/-! Operations of Machine/Whistle.lean. -/

section Ops
variable {oc : OffCause} {s : State}

theorem InOff.onFrameCounts (hs : InOff oc s) {f : FrameCounts → FrameCounts} : InOff oc (s.onFrameCounts f) := hs.onFrame

theorem InOff.stray (hs : InOff oc s) : InOff oc s.stray := hs.onFrameCounts

theorem InOff.foreign (hs : InOff oc s) : InOff oc s.foreign := hs.onFrameCounts

theorem InOff.whistleRunning (hs : InOff oc s) {number : Option Nat} : InOff oc (s.whistleRunning number) :=
  .ite (.ite hs.stray hs.foreign) (.ite hs.stray (.ite hs.onFrameCounts.onFrame (.ite hs hs.boundary)))

theorem InOff.whistleArrives (hs : InOff oc s) {number : Option Nat} : InOff oc (s.whistleArrives number) := by
  unfold State.whistleArrives
  split
  · exact hs.onFrameCounts
  · exact hs.onFrameCounts
  · split
    · exact .ite hs.boundary hs.foreign
    · exact hs.boundary
  · exact hs.whistleRunning

theorem InOff.whistleEdge (hs : InOff oc s) {samples : Nat} : InOff oc (s.whistleEdge samples) :=
  .ite hs (.ite (hs.count (by rfl)) (.ite (hs.count (by rfl)).whistleArrives (hs.count (by rfl))))

theorem InOff.whistleMsg (hs : InOff oc s) {src epoch frame : Nat} : InOff oc (s.whistleMsg src epoch frame) := hs.fromMgr (fun _ ht => .ite ht.whistleArrives ht)

theorem InOff.windowOpening (hs : InOff oc s) : InOff oc s.windowOpening := .ite hs.boundary hs

theorem InOff.selfWhistle (hs : InOff oc s) : InOff oc s.selfWhistle := .ite hs.onFrameCounts.boundary hs

theorem InOff.readyRepeat (hs : InOff oc s) : InOff oc s.readyRepeat := .ite hs hs.onMgr.sendCtl

theorem InOff.absentEntry (hs : InOff oc s) {i : Nat} : InOff oc (s.absentEntry i) := .ite hs.onMgr hs.onMgr.dropEntry

theorem InOff.absences (hs : InOff oc s) : InOff oc s.absences := .foldl (fun _ _ ht => ht.absentEntry) hs.onMgr

theorem InOff.managerWhistle (hs : InOff oc s) : InOff oc s.managerWhistle := by
  unfold State.managerWhistle
  split
  · exact hs
  · split
    · exact hs
    · exact hs
    · exact hs.boundary
    · exact .ite hs.listTry.absences.boundary hs.listTry

end Ops

/-! Every command leaves the part in Off, but for the ones that end it. -/

section Commands
variable {oc : OffCause} {s t : State}

/-- What a command leaves, if it goes on. -/
def InOffAfter (oc : OffCause) (o : Host.Outcome State Fault Refusal) : Prop := ∀ t, o = .next t → InOff oc t

theorem InOffAfter.next (h : InOff oc t) : InOffAfter oc (.next t) := fun u hu => by
  cases hu
  exact h

theorem InOffAfter.within {ok : Bool} (h : InOff oc t) : InOffAfter oc (within ok t) := fun u hu => by
  unfold Sys2Proof.Machine.within at hu
  split at hu
  · cases hu
    exact h
  · cases hu

theorem InOff.sysReleaseUnless (hs : InOff oc s) {mode addr : Nat} (h : oc = .trip ∨ s.pwr.sysRst = false) : InOff oc (s.sysRelease mode addr) := by
  rcases h with rfl | h
  · exact hs.sysRelease
  · rwa [State.sysRelease, if_pos (by simp [h])]

theorem InOff.exec (hs : InOff oc s) (i : Instr) (hon : i ≠ .powerOn) (hfail : i ≠ .powerFailure)
    (hrelease : ∀ mode addr, i = .sysRstNRelease mode addr → oc = .trip ∨ s.pwr.sysRst = false) : InOffAfter oc (exec i s) := by
  cases i with
  | registerWrite => exact .within hs.writeReg
  | rcCounterRead => exact .within hs.counterRead
  | timeLoRead => exact .within hs.loRead
  | enterMaint => exact .within hs.arrCommand
  | leaveMaint => exact .within hs.arrCommand
  | erase => exact .within hs.arrCommand
  | programRows => exact .within hs.arrCommand
  | refreshRows => exact .within hs.arrCommand
  | verifyRow => exact .within hs.arrCommand
  | levelCheck => exact .within hs.arrCommand
  | refSweep => exact .within hs.arrCommand
  | writeSide => exact .within hs.arrCommand
  | exclude => exact .within hs.arrCommand
  | arrayCommandEnd => exact .within hs.commandEnd
  | vppOutOfRegulation => exact .next (hs.setFld (by rfl)).same
  | nop => exact .within hs.issue
  | resetCtr => exact .within hs.issue
  | flip => exact .within hs.issue
  | barrier => exact .within hs.issue
  | arrayInputLoad => exact .within hs.issue
  | product => exact .within hs.issue
  | productEnd => exact .within hs.productEnd
  | accumulate => exact .within hs.issue
  | rotq => exact .within hs.issue
  | matmul => exact .within hs.issue
  | vecAdd => exact .within hs.issue
  | vecSubtract => exact .within hs.issue
  | vecMultiply => exact .within hs.issue
  | vecFma => exact .within hs.issue
  | vecMinimum => exact .within hs.issue
  | vecMaximum => exact .within hs.issue
  | vecScale => exact .within hs.issue
  | vecCompare => exact .within hs.issue
  | vecSelect => exact .within hs.issue
  | vecConvert => exact .within hs.issue
  | vecReciprocal => exact .within hs.issue
  | vecRsqrt => exact .within hs.issue
  | vecExp2 => exact .within hs.issue
  | vecLog2 => exact .within hs.issue
  | vecSum => exact .within hs.issue
  | vecMaxReduction => exact .within hs.issue
  | vecTopK => exact .within hs.issue
  | send => exact .within hs.issue
  | memRead => exact .within hs.issue
  | memWrite => exact .within hs.issue
  | portSend => exact .within hs.issue
  | operationComplete =>
    refine .within ?_
    split
    · exact hs.complete
    · exact hs
  | transferComplete => exact .next hs.transferEnds
  | remoteIncrement => exact .within hs.remoteInc
  | gatherFlushIdle =>
    refine .within ?_
    split
    · exact hs.gatherIdle
    · exact hs
  | legStart => exact .within hs.startLeg
  | legEnd => exact .within hs.legEnd
  | legOverrunStop => exact .within hs.legOverrun
  | suspectReport => exact .next hs.suspectReport
  | cribFill => exact .within hs.cribFill
  | cribFillEnd => exact .within hs.cribFillEnd
  | cribDrop => exact .within hs.cribDrop
  | tstInject => exact .within hs.inject
  | coreClear => exact .within hs.coreClear
  | coreClearComplete => exact .within hs.coreClearComplete
  | load => exact .within hs.mgmt.rebusy
  | loadCheckEnd => exact .next hs.loadCheckEnd.rebusy
  | unload => exact .within hs.mgmt
  | start => exact .within hs.mgmt
  | stop => exact .within (hs.besideLoad (fun _ ht => ht.mgmt))
  | cancelLoad => exact .within (hs.besideLoad (fun _ ht => ht.mgmt))
  | clearFrameCounters => exact .within hs.mgmt
  | readFrameState => exact .within hs.mgmt
  | whistleInEdge => exact .next hs.whistleEdge.rebusy
  | whistle => exact .next hs.whistleMsg.rebusy
  | windowOpen => exact .next hs.windowOpening.rebusy
  | selfWhistle => exact .next hs.selfWhistle.rebusy
  | managerWhistle => exact .next hs.managerWhistle.rebusy
  | readyPoint => exact .next hs.readyPointActs
  | ready => exact .next hs.readyIn
  | readyRepeat => exact .next hs.readyRepeat
  | pitchFieldWrite => exact .within hs.pitchField
  | apply => exact .within hs.pitchApply.pitchesOff
  | zeroingComplete => exact .within hs.zeroingComplete
  | patrolScrub => exact .within hs.patrolScrub
  | pageCopy => exact .within hs.pageCopy
  | crossingReset => exact .next hs.crossingReset
  | relayPlan => exact .next (hs.msgIn.fromMgr (fun _ ht => ht.relayPlan))
  | relayPieceArrival => exact .next hs.msgIn.pieceArrives
  | chunkVerify => exact .within hs.chunkVerify
  | relayStalled => exact .next hs.relayStalled
  | relayEnd => exact .next (hs.msgIn.fromMgr (fun _ ht => ht.relayEnd))
  | coreProgramStart => exact .within hs.programCore
  | scrubRead => exact .within hs.scrubRead
  | submit => exact .within hs.submit
  | register => exact .within hs.register
  | partnerTimeout => exact .within hs.partnerTimeout
  | cancel => exact .within hs.mgmt
  | cancelMessage => exact .within hs.msgIn.cancelHere
  | bindingSelection => exact .within hs.selection
  | bindingNotice => exact .within hs.notice
  | exitReport => exact .within hs.exitReport
  | setRation => exact .within hs.mgmt
  | readRation => exact .within hs.mgmt
  | releaseWaymark => exact .within hs.mgmt
  | waymarkMover => exact .within hs.waymarkMover
  | setServing => exact .within hs.mgmt
  | readServing => exact .within hs.mgmt
  | clearServingCounters => exact .within hs.mgmt
  | linkRetrain => exact .next hs.linkRetrain
  | doorbellPoll => exact .within hs.doorbellPoll
  | heldCompletionWrite => exact .within hs.writeHeld
  | queueEnable => exact .within hs.queueEnable
  | queueDrain => exact .within hs.queueDrain
  | hostInboxDelivery => exact .next hs.inboxDelivery
  | promptFetch => exact .within hs.promptFetch
  | msixUnmask => exact .within hs.msixUnmask
  | mgmtCommandPoll => exact .within hs.mgmtPoll
  | setTime => exact .within hs.mgmt
  | poisonedWrite => exact .next (hs.count (by rfl))
  | hostLinkFatalError => exact .next hs.linkFatal
  | functionLevelReset => exact .within hs.flr
  | hotReset => exact .next hs.linkDown
  | busMasterEnableChange => exact .within hs.bmeChange
  | perstN => exact .next hs.perstPin
  | relayPiece => exact .within hs.mgmt
  | readRelayStatus => exact .within hs.mgmt
  | readMaskedMap => exact .within hs.mgmt
  | readHistory => exact .within hs.mgmt
  | interruptEdge => exact .within hs.edge
  | intcClaim => exact .within hs.intcClaim
  | intcComplete => exact .within hs.intcComplete
  | fwclkStop => exact .within hs.fwStop
  | fwclkWake => exact .within hs.fwWake
  | kernelTick => exact .within hs.kernelTick
  | watchdogExpiry => exact .within hs.watchdog
  | rangerDown => exact .within hs.crash
  | rangerTakeover => exact .within hs.takeover
  | rangerUp => exact .within hs.rangerUp
  | leadershipClaim => exact .within hs.claimLead
  | leadershipRefresh => exact .within hs.refreshLead
  | leadershipLapse => exact .next hs.lapse
  | replayRequest => exact .within hs.msgIn.replayRequest
  | replayRun => exact .within hs.replayRun
  | replayOutput => exact .within hs.msgIn.replayOut
  | replayRefuse => exact .within hs.msgIn.replayRefused
  | replayPending => exact .next hs.msgIn.pendingIn
  | suppressed => exact .within hs.msgIn.heldBack
  | replayGiveUp => exact .within hs.giveUpReplay
  | withhold => exact .next hs.msgIn.withholdIn
  | list => exact .next (hs.msgIn.fromMgr (fun _ ht => ht.listIn))
  | listAck => exact .next hs.listAck
  | withheldReport => exact .next hs.msgIn.withheldReport
  | replayMap => exact .next (hs.msgIn.fromMgr (fun _ ht => ht.mapIn))
  | rollCallDue => exact .next hs.rollDue
  | rollCall => exact .next (hs.msgIn.fromMgr (fun _ ht => ht.rollCall))
  | rollAnswer => exact .next (.ite hs.msgIn.rollJudge hs.msgIn)
  | expel => exact .next (hs.msgIn.fromMgr (fun _ ht => ht.expelIn))
  | historyWrite => exact .next hs.historyWrite
  | portLinkDown => exact .within hs.portLinkDown
  | portUp => exact .within hs.portUp
  | retrain => exact .within hs.retrain
  | fabricFrameReceived => exact .within hs.frameIn
  | xonResume => exact .within hs.xonResume
  | pauseRepeat => exact .within hs.pauseRepeat
  | pfcPauseReceived => exact .within hs.pfcPause
  | ack => exact .next hs.ackIn
  | messageResend => exact .next hs.resendAct
  | managerClaim => exact .next hs.claimIn
  | withdraw => exact .next (hs.msgIn.fromMgr (fun _ ht => ht.withdrawIn))
  | admitPart => exact .next (hs.msgIn.fromMgr (fun _ ht => ht.withdrawIn))
  | cut => exact .next (hs.msgIn.fromMgr (fun _ ht => ht.cutIn))
  | cutAck => exact .next hs.msgIn.cutAck
  | cutTimeout => exact .next hs.cutTimeout
  | assume => exact .next (hs.msgIn.fromMgr (fun _ ht => ht.assumeIn))
  | assumeAck => exact .next hs.msgIn.assumeAck
  | conversionStart => exact .next hs.convWrite
  | urgentConversion => exact .next hs.convWrite
  | converterWake => exact .next hs.convWake
  | routineConversion => exact .next hs.convRoutine
  | conversionComplete => exact .next hs.convComplete
  | refinFault => exact .next hs.refinWindow
  | heldValueStale => exact .within hs.heldStale
  | refinWrite => exact .within hs.refinWrite
  | thermalTrip => exact .next hs.tripCond
  | tripBlankEnd => exact .next hs.blankEnd
  | tripTest => exact .within hs.tripTest
  | regionTrimAdjust => exact .within hs.regionTrim
  | calibrateArray => exact .within hs.calibrateArray
  | powerOn => exact absurd rfl hon
  | sysRstNAssert => exact .next hs.sysAssert
  | sysRstNRelease mode addr => exact .next (hs.sysReleaseUnless (hrelease mode addr rfl))
  | railRampRead => exact .next hs.railRamp
  | bootStepEnd => exact .within hs.bootStep
  | clearAlt => exact .within hs.clearAltWrite
  | off => exact .within hs.offWrite
  | sysrst => exact .within hs.sysrstWrite
  | refclkLoss => exact .next hs.refLoss
  | refclkRestored => exact .next hs.refBack
  | pmbusPoll => exact .within hs.pmbusPoll
  | pmAlert => exact .within hs.pmAlert
  | vppRaise => exact .next hs.vppRaise
  | vppLower => exact .next hs.vppLower
  | droopStretch => exact .next hs.droopStretch
  | droopEnd => exact .next hs.droopEnd
  | powerEstimate => exact .next hs.powerEstimate
  | clampAdjust => exact .next hs.clampAdjust
  | stateReq => exact .within hs.stateReq
  | powerState => exact .next hs.powerState
  | pllUnlock => exact .next hs.pllUnlock
  | pllRelock => exact .next hs.pllRelock
  | pwrWarn => exact .next hs.pwrWarn
  | poweredHour => exact .next hs.poweredHour
  | atomicRecordWrite => exact .within hs.recordWrite
  | roleChallenge => exact .within hs.roleChallenge
  | roleAssume => exact .within hs.roleAssume
  | lockoutEnd => exact .within hs.lockoutEnd
  | nonceExpiry => exact .within hs.nonceExpiry
  | roleRelease => exact .within hs.roleRelease
  | keySet => exact .within hs.keySet
  | keyRemove => exact .within hs.keyRemove
  | pubkeySet => exact .within hs.keySet
  | pubkeyRemove => exact .within hs.keyRemove
  | lock => exact .within hs.lockCmd
  | readAudit => exact .within hs.readAudit
  | readKeys => exact .within hs.readKeysCmd
  | auditFlush => exact .next hs.auditFlush
  | updateBegin => exact .within hs.updateBegin
  | updateData => exact .within hs.updateData
  | updateEnd => exact .within hs.updateEnd
  | updateAbort => exact .within hs.updateAbort
  | sessionAborted => exact .next hs.abortDue
  | activate => exact .within hs.activate
  | activationPause => exact .next hs.activationPause
  | startFailed => exact .next hs.startFailed
  | activationHandover => exact .next hs.handover
  | confirm => exact .within hs.confirm
  | readUpdate => exact .within hs.readUpdate
  | diagUnlock => exact .within hs.diagUnlock
  | signatureRequest => exact .next hs.signatureRequest
  | signatureAnswer => exact .next hs.signatureAnswer
  | setOffset => exact .next hs.smbSetOffset
  | smbRead => exact .next hs.smbRead
  | writeSel => exact .next hs.smbWriteSel
  | smbStatus => exact .next hs.smbStatus
  | alertResponse => exact .next hs.alertResponse
  | smbBusTimeout => exact .next hs.smbTimeout
  | powerFailure => exact absurd rfl hfail
  | completionTimeout => exact .within hs.hostReadFails
  | pauseTimeExpiry => exact .within hs.pauseExpiry
  | creditRequest => exact .next hs.creditRequest
  | beatReceived => exact .next hs.beatIn
  | vppArrInRegulation => exact .next hs.vppReady
  | vfEnable => exact .next hs.vfSet
  | laneRefclkLoss => exact .next hs.laneLoss
  | laneRefclkRestored => exact .next hs.laneBack
  | relayStatus => exact .next hs.msgIn.statusIn

end Commands

/-! The statement. -/

theorem State.offStands_iff {s : State} : s.offStands ↔ InOff .order s :=
  ⟨fun h => ⟨h.1, h.2.1, h.2.2⟩, fun h => ⟨h.off, h.still, h.cause⟩⟩

/-- SYS_RST_N stays low as the rails are lowered. -/
theorem State.sysAssert_sysRst (s : State) : s.sysAssert.pwr.sysRst = true := by
  unfold State.sysAssert
  extract_lets t1 t2
  split
  · rfl
  · obtain ⟨seq, seqAt, en, hpwr, -⟩ := State.railsLower_pwr (s := t2) rfl
    rw [hpwr]
    rfl

/-- Settles O49: Off ends only by a full cycle of SYS_RST_N or of VDD_AON, and after a thermal trip only by VDD_AON. -/
theorem offEndsOnlyByCycles : Obligations.OffEndsOnlyByCycles := by
  unfold Obligations.OffEndsOnlyByCycles
  intro s t i hexec
  refine ⟨fun h => ?_, fun h hi => ?_, fun hoff htrip hstill => ?_⟩
  · by_cases hend : i = .powerOn ∨ i = .powerFailure ∨ (s.pwr.sysRst = true ∧ ∃ mode addr, i = .sysRstNRelease mode addr)
    · exact .inr hend
    · simp only [not_or, not_and, not_exists] at hend
      obtain ⟨hon, hfail, hrelease⟩ := hend
      refine .inl (State.offStands_iff.mpr ((State.offStands_iff.mp h).exec i hon hfail (fun mode addr hi => .inr ?_) t hexec))
      exact Bool.eq_false_iff.mpr fun hlow => hrelease hlow mode addr hi
  · subst hi
    cases hexec
    exact ⟨State.offStands_iff.mpr (State.offStands_iff.mp h).sysAssert, s.sysAssert_sysRst⟩
  · by_cases hend : i = .powerOn ∨ i = .powerFailure
    · exact .inr hend
    · rw [not_or] at hend
      have hs : InOff .trip s := ⟨hoff, hstill, htrip⟩
      obtain ⟨hoff', hstill', htrip'⟩ := hs.exec i hend.1 hend.2 (fun _ _ _ => .inl rfl) t hexec
      exact .inl ⟨hoff', htrip', hstill'⟩

end Sys2Proof.Machine
